-- ==== Sys2Proof/Word.lean ====
section
/-! DEFINITION. The words of the engine: bytes, 16-, 32- and 64-bit words, and the plainest arithmetic on them. -/

namespace Sys2Proof

/-- One byte (R10: little-endian everywhere unless a table says otherwise). -/
abbrev Byte := BitVec 8

/-- A 32-bit word: residues (R34), trail-generator words (R146). -/
abbrev W32 := BitVec 32

/-- A 64-bit word: Keccak lanes (R119). -/
abbrev W64 := BitVec 64

/-- Byte k of a natural number, byte 0 the least significant. -/
def byteOf (n k : Nat) : Byte := BitVec.ofNat 8 (n / 256 ^ k)

/-- The low `len` bytes of n, least significant first. -/
def leBytes (len n : Nat) : List Byte := (List.range len).map (byteOf n)

/-- The number a little-endian byte string spells. -/
def leNat : List Byte → Nat
  | [] => 0
  | b :: bs => b.toNat + 256 * leNat bs

/-- Bits [hi:lo] of n. -/
def bitsOf (n hi lo : Nat) : Nat := n / 2 ^ lo % 2 ^ (hi + 1 - lo)

/-- Bit k of n. -/
def bitOf (n k : Nat) : Bool := n.testBit k

/-- The smallest multiple-count q with q * b ≥ a (0 when b is 0). -/
def ceilDiv (a b : Nat) : Nat := (a + b - 1) / b

/-- n with bit k set to v. -/
def putBit (n k : Nat) (v : Bool) : Nat :=
  if n.testBit k == v then n else if v then n + 2 ^ k else n - 2 ^ k

end Sys2Proof
end

