-- ==== Sys2Proof/Syntax.lean ====
section
/-! DEFINITION. The commands of the engine: one constructor per row of spec/opcode_table.json, with the operands
that tell what the environment supplies with the event the row names. -/

namespace Sys2Proof

/-- The way a dictionary write reaches the engine (R336): the mailbox of requester m, the window slots of a core, the mailbox of a
requester of another die that names this engine as its target (R333, R338), or the die-to-die links, from the engine that
serves a package-scoped write (R333). Its abort goes to the mailbox's status word (R338), to the core's WIN_ABORT (R337) or to the
other die. -/
inductive Via where
  | mailbox (m : Nat)
  | window (core : Nat)
  | remote (die : Nat)
  | link
deriving DecidableEq, Repr

/-- Where a signal comes from (R20, R320): a SIGNAL command fetched at the slot's program position, which performs its
signal when it completes, or the signal of a unit (a completion's or a stage's per-entry signal) itself. -/
inductive SignalSource where
  | fetched (slot : Nat)
  | made (slot pair : Nat) (full : Bool)
deriving DecidableEq, Repr

/-- A write of a mailbox's request word (R338): the mailbox, where and how wide the write is, the word written, what the
requester has put into the data word and the segment area before it, whether the stored value is read poisoned while the request is
served (R342), and what another die answers when the request names it: its abort code and its data. -/
structure MailboxWrite where
  mailbox : Nat
  offset  : Nat
  width   : Nat
  word    : Nat
  data    : Nat
  area    : List Byte
  poisoned : Bool
  remoteAbort : Nat
  remoteData  : Nat
deriving DecidableEq, Repr

/-- A federation message as it arrives (R386): the link, its 32 bytes, and whether it is a later copy of a message for all
dies that this engine has already taken. -/
structure FedArrival where
  link  : Nat
  bytes : List Byte
  copy  : Bool
deriving DecidableEq, Repr

/-- What the other engines of a stripe say of an admission (R303): the slots occupied there, bit n for slot n, and the code of
the first check of R306 that fails there, 0 for none. -/
structure Elsewhere where
  busy    : Nat
  refusal : Nat
deriving DecidableEq, Repr

/-- A gzip text as an image core inflates it (R193, R194): its bytes, up to the place of the failure when inflate fails, and how many of
them come before the first that takes a poisoned stored byte. -/
structure InflatedText where
  text     : List Byte
  fails    : Bool
  poisonAt : Nat
deriving DecidableEq, Repr

/-- What the environment tells of the storage with a visit of the scrubber: the corrected reads of SRAM other than staging since its last
visit (R410), and the granules of device memory to which the memory fabric answers a read with an error from now on (R412, log
entry 240). -/
structure StorageReport where
  corrections : Nat
  failing     : List Nat
deriving DecidableEq, Repr

/-- The kinds of unit that a known-answer self-test covers (R417) and an enable object controls. -/
inductive UnitKind where
  | txa | sdx | rsv | mdc | tok
deriving DecidableEq, Repr

/-- An area of a picture in component-0 samples. -/
structure Rect where
  x : Nat
  y : Nat
  w : Nat
  h : Nat
deriving DecidableEq, Repr

/-- A mark of a picture in a stream's pool (R181). -/
inductive RefMark where
  | short
  | long
  | unused
deriving DecidableEq, Repr

/-- The header a decoder core reads (R163, R168): what it declares. -/
inductive MediaHeader where
  /-- JPEG: the number of its SOF marker, the sampling factors of its components, and whether a DNL marker is announced. -/
  | jpeg (sof precision width height : Nat) (factors : List (Nat × Nat)) (dnl : Bool)
  /-- PNG: IHDR, and whether a tRNS chunk follows. -/
  | png (width height depth colourType compression filter interlace : Nat) (trns : Bool)
  /-- A raw picture: the first 16 inflated bytes (R164). -/
  | raw (bytes : List Byte)
  /-- HEVC: general_profile_idc, general_level_idc, chroma_format_idc, the bit depth, pic_width and pic_height,
  sps_max_dec_pic_buffering_minus1[HighestTid], and whether range extensions are used. -/
  | hevc (profile level chroma depth width height dpb : Nat) (rangeExt : Bool)
  /-- AV1: seq_profile, seq_level_idx, the bit depth, max_frame_width and max_frame_height, monochrome, subsampling in x and y, Annex B
  framing, large-scale tiles. -/
  | av1 (profile level depth width height : Nat) (mono subX subY annexB largeScale : Bool)
deriving DecidableEq, Repr

/-- What begins with a video picture's first slice segment or frame header (R168, R178, R181 to R183). -/
structure PictureHead where
  header      : Option MediaHeader -- the sequence that becomes active with it
  order       : Int             -- PicOrderCntVal or OrderHint
  ordered     : Bool            -- pictures have orders: false for AV1 with order hints disabled (R184)
  key         : Bool            -- HEVC IRAP picture or AV1 key frame
  recovery    : Option Int      -- recovery_poc_cnt of a recovery point SEI
  breaks      : Bool            -- HEVC CRA or BLA: RASL pictures are associated with it
  leading     : Bool            -- HEVC RASL picture
  starts      : Bool            -- it begins a coded video sequence
  shown       : Bool            -- HEVC: it is for output; AV1: show_frame
  showable    : Bool            -- AV1: it may be shown later
  width       : Nat
  height      : Nat
  cropLeft    : Nat
  cropTop     : Nat
  codedWidth  : Nat
  codedHeight : Nat
  units       : List Nat        -- decoding units of each tile in raster order: the CTU rows under WPP, else 1
deriving DecidableEq, Repr

/-- What a decoder core meets next (R178, R187). -/
inductive MediaUnit where
  /-- The header of an image core's sample. -/
  | image (h : MediaHeader)
  /-- The first decoding unit of a stream's next picture. -/
  | picture (head : PictureHead)
  /-- The next decoding unit of a picture under way; under WPP, whether the row above has completed its second CTU. -/
  | next (aboveReady : Bool)
  /-- A NAL unit, parameter set or OBU of a stream outside its pictures: its bytes in the sample, whether the parser finds it invalid, and
  whether the active sequence is lost with it. -/
  | lost (stream start len : Nat) (invalid sequence : Bool)
  /-- A picture of a stream is shown again outside a picture (AV1 show_existing_frame): its decoding order number and the new marks. -/
  | again (stream coded : Nat) (marks : List (Nat × RefMark))
deriving DecidableEq, Repr

/-- How a picture names a reference (R185): HEVC by its order, AV1 by the picture its slot holds, by decoding order number, if any. -/
inductive RefName where
  | byOrder
  | bySlot (coded : Option Nat)
deriving DecidableEq, Repr

/-- An area of a picture predicted from a reference, and the area of the reference it is predicted from. -/
structure RefBlock where
  area   : Rect
  source : Rect
deriving DecidableEq, Repr

/-- A reference that a picture uses (R185, R187): its order, how it is named, and the areas with a prediction sample taken from it. -/
structure RefUse where
  order  : Int
  name   : RefName
  blocks : List RefBlock
deriving DecidableEq, Repr

/-- A stretch of a picture's coded bytes in its sample, and the area that a syntax error there conceals (R187). -/
structure CodedSpan where
  start    : Nat
  len      : Nat
  conceals : List Rect
deriving DecidableEq, Repr

/-- A block of a JPEG component: its dequantised coefficients after all scans, row by row, and its Huffman-coded bits (R174, R176). -/
structure JpegBlock where
  coefs : List Int
  bits  : Nat
deriving DecidableEq, Repr

/-- A prediction block: its vectors of list 0 and list 1 in the standard's units (R175). -/
structure PredBlock where
  area : Rect
  mv0  : Option (Int × Int)
  mv1  : Option (Int × Int)
deriving DecidableEq, Repr

/-- The bits of a coding unit or block, and those of the material outside any unit parsed before it (R176). -/
structure CodedUnit where
  area : Rect
  bits : Nat
  before : Nat
deriving DecidableEq, Repr

/-- What the published standard makes of a picture's coded bytes. -/
inductive PictureData where
  /-- JPEG: the blocks of each component, row by row. -/
  | jpeg (blocks : List (List JpegBlock))
  /-- PNG: the samples of each channel after unfiltering and deinterlacing, row by row; the palette; the values of tRNS. -/
  | png (channels : List (List Nat)) (palette : List (List Nat)) (trns : List Nat)
  /-- Video: the samples of each component, row by row as coded, after the in-loop filters where they are applied; the prediction blocks;
  the coding units in the order they are parsed. -/
  | video (planes : List (List Nat)) (blocks : List PredBlock) (coded : List CodedUnit)
deriving DecidableEq, Repr

/-- A picture as its decoder cores hand it on (R171 to R188). -/
structure Picture where
  data     : PictureData
  segments : List (List CodedSpan) -- its coded bytes from one resynchronisation point to the next, in their order (R187)
  markers  : List (Nat × Nat)    -- the marker segments of a JPEG in its sample: start and length (R187)
  damage   : List (List Rect)    -- for every resynchronisation the parser finds, the area it conceals (R187)
  refs     : List RefUse
  mark     : RefMark             -- its own mark
  marks    : List (Nat × RefMark) -- new marks of pictures of the pool, by decoding order number (R181)
  outputs  : List Nat            -- decoding order numbers of the stream's pictures output now, in the standard's order (R182)
deriving DecidableEq, Repr

/-- The error a decode meets outside pictures (R187, R167): none, an unrecoverable format error. -/
inductive SampleEnd where
  | complete
  | formatError
deriving DecidableEq, Repr

/-- The opcode, addresses and payload of a received frame, after R361 decoding: what checks 1 to 10 of R368 look at, and the
codewords of its lanes that decoding has corrected, or could not, since the frame before it. An IPv4 address is held IPv4-mapped. -/
structure Frame where
  fecCorrected : Nat
  fecFailed    : Nat
  fcsOk     : Bool
  destMac   : Nat               -- 48 bits, first byte highest
  tags      : Nat               -- IEEE 802.1Q tags
  etherType : Nat
  operation : Nat               -- of ARP, of MAC control, or the type of ICMPv6
  target    : Nat               -- the address an ARP request or neighbour solicitation asks for
  pauseTime : Nat               -- of a PFC frame: the longest of its times
  ihl       : Nat               -- of IPv4, as are the next two
  headerSum : Bool              -- the header checksum is correct
  fragment  : Bool
  protocol  : Nat               -- of IPv4, or IPv6's next header
  destIp    : Nat
  udpPort   : Nat
  icrcOk    : Bool
  tver      : Nat
  pkey      : Nat
  qpn       : Nat
  srcIp     : Nat               -- 128 bits
  ce        : Bool              -- IP ECN field is CE
  psn       : Nat
  opcode    : Nat
  va        : Nat               -- RETH of First and Only packets
  rkey      : Nat
  dmaLen    : Nat
  imm       : Nat
  payload   : List Byte
deriving DecidableEq, Repr

/-- A line of scratchpad data with its byte enables and poison flag (R424). -/
structure Line where
  addr   : Nat                  -- scratchpad byte address, a multiple of 512
  data   : List (Nat × Byte)    -- enabled bytes: offset in the line, value
  poison : Bool
deriving DecidableEq, Repr

/-- What an engine tells a receiver of its delivery on another die beside the lines: at issue, that lines are to come (`holds`) and
that the slot's due horizon rises (`horizon`, R281); that no line is left to come; that the receiver is detached and its buffered
lines are discarded (R294). -/
inductive DlvNotice where
  | announce (holds horizon : Bool)
  | closed
  | discard
deriving DecidableEq, Repr

/-- What comes from another die for a receiver here (R292): a line, with its number, its turn (R273) and whether it is the last of its
delivery, or a notice. -/
inductive DlvMsg where
  | line (l : Line) (num rank : Nat) (last : Bool)
  | notice (n : DlvNotice)
deriving DecidableEq, Repr

/-- What the BAT of a job's home tells another engine of its stripe (R237, R241): the positions of an epoch it is to work on, or that the
stage has ended. -/
inductive HomeTold where
  | issue (epoch : Nat) (positions : List Nat)
  | ended
deriving DecidableEq, Repr

/-- A fault of a tile's grid at a vector of an item (R71): what it adds to columns, in their units, at the vector's first issue and when
it is issued again. -/
structure TxaFault where
  pass : Nat
  row : Nat
  first : List (Nat × Int)
  second : List (Nat × Int)
deriving DecidableEq, Repr

/-- A step of forging that the residue check covers (R90): a stage of the special FFT, rounding, the splitter, a product of the
pointwise unit before stage s of the NTT, and an element of that stage. -/
inductive ForgeStep where
  | stage (s : Nat)
  | round
  | split
  | point (s : Nat)
  | array (s : Nat)
  | product (half : Nat)
deriving DecidableEq, Repr

/-- A fault of the forge: what it adds to the element of a step at an index (of a complex element 2k the real part, 2k + 1 the
imaginary). -/
structure ForgeFault where
  step : ForgeStep
  index : Nat
  delta : Int
  poly : Nat := 0
deriving DecidableEq, Repr

/-- How a read of protected SRAM went (R410, R412): clean, corrected, or uncorrectable at an offset of TXA staging (kind 1),
PFG/SDX staging (2) or other SRAM (3). -/
inductive SramRead where
  | clean
  | corrected
  | failed (kind offset : Nat)
deriving DecidableEq, Repr

/-- How a work item's reads of staging went: words corrected, and the offsets of words with an uncorrectable error. -/
structure SramReads where
  corrected : Nat
  failed    : List Nat
deriving DecidableEq, Repr

/-- The command set: the 196 rows of spec/opcode_table.json, in its order. -/
inductive Instr where
  | loop (slot : Nat)
  | loopCountReturn (slot : Nat)
  | endloop (slot : Nat)
  | waitSemaphore (slot : Nat)
  | waitBarrier (slot : Nat)
  | waitTime (slot : Nat)
  | waitTimeExpiry (slot queue : Nat)
  | signal (src : SignalSource)
  | jump (slot : Nat)
  | fetchlist (slot : Nat)
  | joblistRecordReturn (slot : Nat) (elsewhere : Elsewhere)
  | switch (slot : Nat)
  | halt (slot : Nat)
  | seqCommand (slot : Nat)
  | txaItem (slot : Nat)
  | forgeItem (slot : Nat)
  | deliver (slot : Nat)
  | keyRegister (slot : Nat)
  | keyRegistrationCheck (slot queue : Nat)
  | keyStream (slot : Nat)
  | ingestStage (slot : Nat)
  | batchStage (slot : Nat)
  | fetch (slot : Nat)
  | alloc (slot : Nat)
  | free (slot : Nat)
  | commandIssue (slot queue : Nat) (ras : Nat)
  | slotFaultPropagation (slot code die : Nat)
  | commandComplete (slot queue : Nat)
  | jobEnd (slot : Nat) (othersReady : Bool)
  | bankSwap
  | rootStart (via : Via) (value : Nat) (elsewhere : Elsewhere)
  | progBankWrite (via : Via) (bank : Nat) (data : List Byte)
  | progArm (via : Via) (crc : Nat)
  | semDepthWrite (via : Via) (pair depth : Nat)
  | barRelease
  | engineArrive (fabricFirst : Bool) (waitFclk : Nat)
  | barReport
  | fedArrive (msg : FedArrival)
  | fedRelease (msg : FedArrival)
  | regionPoisoning (slot : Nat)
  | primeSetImageWrite (via : Via) (set : Nat) (data : List Byte)
  | primeSetValidation (set : Nat) (othersPass : Bool)
  | txaDispatch
  | txaItemComplete (tile : Nat) (faults : List TxaFault) (reads : SramReads)
  | txaTileEnableWrite (via : Via) (high : Bool) (value : Nat)
  | unitSelftestComplete (kind : UnitKind) (failed : List Nat)
  | forgeDispatch (reads : SramReads)
  | forgeLimbVerdict (fftUnit : Bool) (faults : List ForgeFault)
  | encRootKeyWrite (via : Via) (root : Nat) (data : List Byte)
  | sdxStreamStart
  | sdxPermutationDone (lane : Nat) (disagree : Bool) (taken : Nat)
  | sdxStallResume (lane stallFclk : Nat)
  | sdxLaneEnableWrite (via : Via) (high : Bool) (value : Nat)
  | keyStreamDispatch
  | rsvCall (slot purpose sample block draw : Nat)
  | rsvCallReturn (core : Nat) (disagree : Bool)
  | rsvCoreEnableWrite (via : Via) (value : Nat)
  | mdcDecodeDispatch
  | mdcDecodingUnitStart (core : Nat) (unit : MediaUnit)
  | mdcPictureComplete (core : Nat) (picture : Picture)
  | mdcSampleOutcome (core : Nat) (stream : Option Nat) (how : SampleEnd) (inflated : List Byte)
  | mdcCoreEnableWrite (via : Via) (value : Nat)
  | tokItemDispatch (inflated : InflatedText)
  | tokMergePiece (finished : Option Nat)
  | tokSampleOutcome
  | tokTableLoad (via : Via) (value : Nat)
  | tokTableLoadComplete (othersPass : Bool)
  | tokCoreEnableWrite (via : Via) (value : Nat)
  | shapeSample (slot sample : Nat)
  | batChunkAssign (slot : Nat) (told : Option HomeTold)
  | batSampleOutcome (slot position code : Nat) (result : List Byte) (norm : List (List Nat)) (truncated poisoned : Bool)
  | hostPoll (slot : Nat) (timedOut : List Nat)
  | poolEnableWrite (via : Via) (pool : Nat)
  | poolInitComplete (pool : Nat)
  | poolDisableWrite (via : Via) (pool : Nat)
  | poolAllocRequest (slot size : Nat)
  | poolAllocGrant (pool waitedFclk : Nat)
  | poolRefillReturn (pool : Nat) (poisoned damaged : List Nat)
  | poolFreeRequest (slot addr : Nat)
  | poolFreeCheck (pool : Nat) (poisoned : Bool)
  | poolDeadlock (waitedFclk blockedFclk : Nat)
  | retryBackoffExpiry (slot unit : Nat)
  | dlvItemDispatch
  | memReadReturn (port sent which : Nat) (error : Bool)
  | dlvPortWrite (port : Nat) (read : SramRead)
  | spWack (port : Nat)
  | d2dLineReceived (die item dst : Nat) (what : DlvMsg) (slot tag due : Nat)
  | mcastCreditReturn (item die dst num : Nat) (dropped : Bool) (stallFclk : Nat)
  | stragglerTimeout (item : Nat)
  | stragglerEnableWrite (via : Via) (value : Nat)
  | bankPdReqAssert (bank : Nat)
  | bankPdReqWithdraw (bank : Nat)
  | bankOnRise (bank : Nat)
  | aliasRead (core offset width : Nat) (poisoned : Bool) (remoteAbort remoteData : Nat)
  | aliasWrite (core offset width value remoteAbort : Nat)
  | winAbortRead (core : Nat)
  | expeditedRead (w : MailboxWrite)
  | expeditedWrite (w : MailboxWrite)
  | segmentedReadStart (w : MailboxWrite)
  | segmentedWriteStart (w : MailboxWrite)
  | segment (w : MailboxWrite)
  | cancel (w : MailboxWrite)
  | dictSegTimeout (mailbox : Nat)
  | dictWrite (via : Via) (index sub : Nat) (data : List Byte)
  | fedForward (msg : FedArrival)
  | epinAssignWrite (via : Via) (object value : Nat)
  | watchdogEnableWrite (via : Via) (value : Nat)
  | watchdogKick (via : Via) (value : Nat)
  | watchdogExpiry
  | pinPulseEnd (pin : Nat)
  | holdoffTimerExpiry (group : Nat)
  | evtTake (via : Via) (core source : Nat)
  | evtDone (via : Via) (core source : Nat)
  | evtPendSet (via : Via) (word bits : Nat)
  | evtPendClear (via : Via) (word bits : Nat)
  | evtLatchClear (via : Via) (word bits : Nat)
  | evtSwRaise (via : Via) (word bits : Nat)
  | evtCfgWrite (via : Via) (source value : Nat)
  | evtGrpTimeWrite (via : Via) (group value : Nat)
  | coreMaskWrite (via : Via) (core value : Nat)
  | coreSleepEnter (core : Nat)
  | coreSleepExit (core : Nat)
  | portEnableWrite (via : Via) (port value : Nat)
  | portDisableDeadline (port : Nat)
  | laneEnableWrite (via : Via) (port value : Nat)
  | quiesceWrite (via : Via) (port value : Nat)
  | autonegComplete (port partner : Nat)
  | trainingFrameReceived (port lane frame request : Nat) (ready : Bool)
  | laneTrained (port lane : Nat)
  | trainingDeadline (port : Nat)
  | portLinkUp (port aclk : Nat)
  | trainingRetry (port : Nat)
  | laneLockLoss (port lane : Nat)
  | laneFecLimit (port lane codewords : Nat)
  | realignComplete (port : Nat)
  | linkLoss (port : Nat)
  | frameReceived (port : Nat) (frame : Frame) (bufferBytes : Nat)
  | ackDelayExpiry (qp : Nat)
  | messageOpen (port bufferBytes : Nat)
  | openWaitExpiry (port bufferBytes : Nat)
  | qpEnable (via : Via) (qp : Nat)
  | qpDisable (via : Via) (qp : Nat)
  | qpDisableDeadline (region : Bool) (number : Nat)
  | lrEnable (via : Via) (region : Nat)
  | lrDisable (via : Via) (region : Nat)
  | ingestConversion (message delta : Nat)
  | pwrgoodRise
  | pwrgoodFall
  | resetAssert
  | resetRelease
  | bringupStrapLatch (packageKind arrayMode dieId memStrap mac0 mac1 : Nat)
  | bringupDomainPower
  | bringupCcxSelftestDone (passed : Bool) (memOk : Nat)
  | d2dLinkTrainingDone (links aclk : Nat)
  | bringupUnitSelftestDone (txa sdx rsv mdc tok : List Nat)
  | announce (msg : FedArrival) (aclk : Nat)
  | register (msg : FedArrival) (aclk : Nat)
  | redirect (msg : FedArrival)
  | roster (msg : FedArrival) (aclk : Nat)
  | announceDeadline (aclk : Nat)
  | closeDeadline (aclk : Nat)
  | exclusionDeadline
  | beat (msg : FedArrival)
  | beatSend
  | fedLeaveTimeout (die : Nat)
  | prepareRemoval (via : Via) (value : Nat)
  | drainDeadline
  | removalRucksackDeadline
  | removalReady
  | busSag
  | counterDump
  | sagResume (via : Via) (value : Nat)
  | rucksackSave (via : Via) (slot : Nat) (elsewhere : Elsewhere)
  | saveDrainDeadline (slot : Nat)
  | rucksackWrite (slot : Nat) (landing contexts : List Byte) (inTime memOk : Bool)
  | rucksackRestore (via : Via) (addr : Nat) (elsewhere : Elsewhere)
  | scrubVisit (corrected : Bool) (report : StorageReport)
  | bankUeLimit (txa : Bool) (number : Nat)
  | traceEnable (via : Via) (value : Nat)
  | traceMark (via : Via) (value : Nat)
  | traceRecordWrite
  | debugTriggerIn
  | tapTestLogicReset
  | extest (tdi : List Bool)
  | samplePreload (tdi : List Bool)
  | idcode (tdi : List Bool)
  | clamp (tdi : List Bool)
  | highz (tdi : List Bool)
  | dbgStatus (tdi : List Bool)
  | bypass (opcode : Nat) (tdi : List Bool)
  | busSagEnd
  | d2dLinkLoss (link : Nat)
  | linkLossRetrain (port : Nat)
  | poolSpillDone (pool : Nat)
  | bankOnFall (bank : Nat)
  | packageWriteComplete (index : Nat) (abort : Nat)
deriving DecidableEq, Repr

end Sys2Proof
end

