-- ==== Sys2Proof/Decode.lean ====
section
/-! DEFINITION. The decoder over the rows that give bits. No row of spec/opcode_table.json gives a bit: the commands of this
block are events and writes, not words. -/

namespace Sys2Proof

/-- The command a word spells by the table's bits: none, since no row has a field (log entry 11). -/
def decodeTableWord (_nbits _w : Nat) : Option Instr := none

end Sys2Proof
end

