-- ==== Sys2Proof/Config.lean ====
section
/-! DEFINITION. What the spec leaves open: free values, with no body, so that no proof can see what they are. -/

namespace Sys2Proof

/-- The value the spec does not state, drawn for the n-th time (log entry 3).
State.drawn counts the draws. -/
opaque Config.freeValue : Nat → Nat

/-- The causes of a fatal error that say that the event controller failed: the spec states no code of a state kind (R415, R422, log
entry 228). -/
opaque Config.eventControllerCause : Nat → Bool

/-- The highest subindex in use at each index of the vendor-test block, modulo 256, which the spec does not state (R330, R418, log
entry 232). -/
opaque Config.vendorHighest : Nat → Nat

/-- The number of cells of the boundary register, and the numbers of EPIN n's cells: `boundaryCell (2n)` of its output value and
`boundaryCell (2n + 1)` of its output enable. The spec gives neither (R421, log entry 249). -/
opaque Config.boundaryLength : Nat
opaque Config.boundaryCell : Nat → Nat

end Sys2Proof
end

