-- ==== Sys2Proof/Machine/Objects.lean ====
section
/-! DEFINITION. The object dictionary's tables: index, subindex, type, access class, default and stated range of every object
(R330 to R332, R346 and the object tables of every chapter). -/

namespace Sys2Proof.Machine

/-- Object types (R331); a DOMAIN carries the least and greatest length a write may have and the multiple it must be. -/
inductive ObjTy where
  | bool | u8 | u16 | u32 | u64 | i32 | i64 | f32 | vstr
  | domain (lo hi mult : Nat)
deriving DecidableEq, Repr

/-- Access classes (R332). -/
inductive ObjAcc where
  | ro | rw | wo | rwi | cst
deriving DecidableEq, Repr

/-- The condition an object's table places on the value alone (R331). -/
inductive ObjRange where
  | any
  | range (lo hi : Nat)
  | rangeOrFF (lo hi : Nat)
  | mult (k : Nat)
  | rangeMult (lo hi k : Nat)
  | pow2 (lo hi : Nat)
  | zeroOrPow2 (lo hi : Nat)
  | signed (bits : Nat)
deriving DecidableEq, Repr

/-- One row of an object table: the subindices first to last. -/
structure ObjRow where
  first : Nat
  last  : Nat
  ty    : ObjTy
  acc   : ObjAcc
  dflt  : Nat
  range : ObjRange
deriving DecidableEq, Repr

/-- The size in bytes of a value of a fixed-size type; a string or domain has none. -/
def ObjTy.size : ObjTy → Option Nat
  | .bool => some 1 | .u8 => some 1 | .u16 => some 2 | .u32 => some 4 | .u64 => some 8
  | .i32 => some 4 | .i64 => some 8 | .f32 => some 4 | .vstr => none | .domain _ _ _ => none

/-- n is a power of two of at most 2^64. -/
def isPow2 (n : Nat) : Bool := (List.range 65).any (fun k => n == 2 ^ k)

/-- A value meets a stated range. -/
def ObjRange.holds (r : ObjRange) (v : Nat) : Bool :=
  match r with
  | .any => true
  | .range lo hi => lo ≤ v && v ≤ hi
  | .rangeOrFF lo hi => (lo ≤ v && v ≤ hi) || v == 0xFF
  | .mult k => v % k == 0
  | .rangeMult lo hi k => lo ≤ v && v ≤ hi && v % k == 0
  | .pow2 lo hi => lo ≤ v && v ≤ hi && isPow2 v
  | .zeroOrPow2 lo hi => v == 0 || (lo ≤ v && v ≤ hi && isPow2 v)
  | .signed bits => v < 2 ^ (bits - 1) || (2 ^ 64 - 2 ^ (bits - 1) ≤ v && v < 2 ^ 64)

/-- Objects of 0x1000 (R6). -/
def objs1000 : List ObjRow := [
  ⟨0x01, 0x01, .u8, .cst, 0, .any⟩, -- PACKAGE_KIND
  ⟨0x02, 0x02, .u8, .cst, 0, .any⟩, -- DIE_ID
  ⟨0x03, 0x03, .u8, .cst, 0, .any⟩, -- ARRAY_MODE
  ⟨0x04, 0x04, .vstr, .cst, 0, .any⟩, -- STEPPING
  ⟨0x05, 0x05, .u8, .ro, 0, .any⟩, -- DIES_PRESENT
  ⟨0x06, 0x06, .bool, .ro, 0, .any⟩, -- DEGRADED
  ⟨0x07, 0x07, .u64, .cst, 0, .any⟩, -- LOCAL_MEM_BASE
  ⟨0x08, 0x08, .u64, .cst, 256000000000, .any⟩] -- LOCAL_MEM_BYTES

/-- Objects of 0x1001 (R334, R406, R422). -/
def objs1001 : List ObjRow := [
  ⟨0x01, 0x01, .u8, .ro, 0, .any⟩, -- ENGINE_STATE
  ⟨0x02, 0x02, .u64, .ro, 0, .any⟩, -- TIME_BASE
  ⟨0x03, 0x03, .bool, .ro, 0, .any⟩, -- DICT_READY
  ⟨0x04, 0x04, .u8, .ro, 0, .any⟩, -- HC_STATE
  ⟨0x05, 0x05, .u8, .ro, 255, .any⟩, -- HC_LEAD
  ⟨0x06, 0x06, .u8, .ro, 0, .any⟩, -- HC_ADMITTED
  ⟨0x07, 0x07, .u8, .ro, 0, .any⟩, -- HC_MISSING
  ⟨0x08, 0x08, .u8, .ro, 0, .any⟩, -- HC_HEALTH
  ⟨0x09, 0x09, .u32, .ro, 0, .any⟩, -- HC_CLOSE_ACLK
  ⟨0x0A, 0x0A, .u8, .rw, 0, (.range 0 7)⟩, -- FED_GROUP
  ⟨0x0B, 0x0B, .u8, .rw, 0, .any⟩, -- FED_MEMBERS
  ⟨0x0C, 0x0C, .u8, .ro, 0, .any⟩, -- LINKS_UP
  ⟨0x0D, 0x0D, .u32, .ro, 0, .any⟩, -- ROSTER_VERSION
  ⟨0x0E, 0x0E, .u16, .ro, 0, .any⟩] -- FATAL_CAUSE

/-- Objects of 0x1100 (R407). -/
def objs1100 : List ObjRow := [
  ⟨0x01, 0x01, .u8, .wo, 0, (.range 1 1)⟩, -- PREPARE_REMOVAL
  ⟨0x02, 0x02, .u8, .ro, 0, .any⟩, -- REMOVAL_STATE
  ⟨0x03, 0x03, .u64, .rw, 0, (.mult 4096)⟩, -- RUCKSACK_BASE
  ⟨0x04, 0x04, .u32, .rw, 33554432, (.rangeMult 65536 2147483648 4096)⟩, -- RUCKSACK_STRIDE
  ⟨0x05, 0x05, .u8, .wo, 0, (.range 0 63)⟩, -- RUCKSACK_SAVE
  ⟨0x06, 0x06, .u32, .rw, 0, .any⟩, -- RUCKSACK_PIN
  ⟨0x07, 0x07, .u64, .wo, 0, (.mult 4096)⟩, -- RUCKSACK_RESTORE
  ⟨0x08, 0x08, .u8, .rw, 0, .any⟩, -- RESTORE_STRIPE
  ⟨0x09, 0x09, .u64, .rw, 0, (.mult 64)⟩, -- RESTORE_PARAM_BASE
  ⟨0x0A, 0x0A, .u8, .ro, 255, .any⟩, -- RESTORE_SLOT
  ⟨0x0B, 0x0B, .u32, .rw, 20000, (.range 1000 100000)⟩, -- SAVE_DRAIN
  ⟨0x0C, 0x0C, .u64, .rw, 0, (.mult 64)⟩, -- COUNTER_DUMP_ADDR
  ⟨0x0D, 0x0D, .bool, .ro, 0, .any⟩, -- SAG_STATE
  ⟨0x0E, 0x0E, .u8, .wo, 0, (.range 1 1)⟩, -- SAG_RESUME
  ⟨0x0F, 0x0F, .u32, .rw, 500, (.range 200 100000)⟩, -- LEAVE_TIMEOUT
  ⟨0x10, 0x10, .i64, .rw, 0, (.signed 48)⟩] -- RESTORE_DUE_OFFSET

/-- Objects of 0x1180 (R408). -/
def objs1180 : List ObjRow := [
  ⟨0x01, 0x01, .u64, .ro, 0, .any⟩, -- FED_DIES_LOST
  ⟨0x02, 0x02, .u64, .ro, 0, .any⟩, -- RUCKSACKS_WRITTEN
  ⟨0x03, 0x03, .u64, .ro, 0, .any⟩, -- RUCKSACK_WRITE_FAILED_COUNT
  ⟨0x04, 0x04, .u64, .ro, 0, .any⟩, -- RUCKSACK_INVALID_COUNT
  ⟨0x05, 0x05, .u64, .ro, 0, .any⟩, -- RUCKSACK_PROGRAM_COUNT
  ⟨0x06, 0x06, .u64, .ro, 0, .any⟩, -- RUCKSACK_PRIMESET_COUNT
  ⟨0x07, 0x07, .u64, .ro, 0, .any⟩, -- RESOURCE_ABSENT_COUNT
  ⟨0x08, 0x08, .u64, .ro, 0, .any⟩, -- SAG_WARNINGS
  ⟨0x09, 0x09, .u64, .ro, 0, .any⟩, -- FED_MESSAGES_DISCARDED
  ⟨0x0A, 0x0A, .u64, .ro, 0, .any⟩, -- RUCKSACKS_RESTORED
  ⟨0x0B, 0x0B, .u64, .ro, 0, .any⟩] -- REMOVALS

/-- Objects of 0x2000 (R345). -/
def objs2000 : List ObjRow := [
  ⟨0x01, 0x01, .u32, .cst, 268435456, .any⟩, -- DICT_WINDOW_BYTES
  ⟨0x02, 0x02, .u32, .rw, 100000, (.range 1000 10000000)⟩] -- DICT_SEG_TIMEOUT

/-- Objects of 0x2001 (R345). -/
def objs2001 : List ObjRow := [
  ⟨0x01, 0x04, .u32, .ro, 0, .any⟩] -- WIN_ABORT

/-- Objects of 0x2040 (R345). -/
def objs2040 : List ObjRow := [
  ⟨0x01, 0x01, .u8, .rw, 255, (.rangeOrFF 0 3)⟩, -- EVT_OUT_PIN
  ⟨0x02, 0x02, .u8, .rw, 255, (.rangeOrFF 0 3)⟩, -- DBG_TRIG_IN_PIN
  ⟨0x03, 0x03, .u8, .rw, 255, (.rangeOrFF 0 3)⟩, -- DBG_TRIG_OUT_PIN
  ⟨0x04, 0x04, .u8, .rw, 255, (.rangeOrFF 0 3)⟩, -- LATE_PIN
  ⟨0x05, 0x05, .u8, .rw, 255, (.rangeOrFF 0 3)⟩] -- HEALTH_PIN

/-- Objects of 0x2050 (R345). -/
def objs2050 : List ObjRow := [
  ⟨0x01, 0x01, .bool, .rw, 0, .any⟩, -- WATCHDOG_ENABLE
  ⟨0x02, 0x02, .u8, .rwi, 0, (.range 0 15)⟩, -- WATCHDOG_TIMER
  ⟨0x03, 0x03, .u32, .rw, 1000, (.range 10 10000000)⟩, -- WATCHDOG_PERIOD
  ⟨0x04, 0x04, .u8, .wo, 0, (.range 1 1)⟩, -- WATCHDOG_KICK
  ⟨0x05, 0x05, .u64, .ro, 0, .any⟩] -- WATCHDOG_EXPIRED

/-- Objects of 0x2080 (R345). -/
def objs2080 : List ObjRow := [
  ⟨0x01, 0x04, .u32, .ro, 0, .any⟩, -- RESMAP_EPIN
  ⟨0x11, 0x20, .u32, .ro, 0, .any⟩] -- RESMAP_TIMER

/-- Objects of 0x2081 (R345). -/
def objs2081 : List ObjRow := [
  ⟨0x01, 0x40, (.domain 24 24 1), .ro, 0, .any⟩] -- RESMAP_REGION

/-- Objects of 0x2100 to 0x2107 (R48). -/
def objs2100 : List ObjRow := [
  ⟨0x01, 0x01, (.domain 2624 2624 1), .rwi, 0, .any⟩, -- PRIME_SET_IMAGE
  ⟨0x02, 0x02, .bool, .ro, 0, .any⟩, -- PRIME_SET_VALID
  ⟨0x03, 0x03, .u32, .ro, 0, .any⟩, -- PRIME_SET_FINGERPRINT
  ⟨0x04, 0x04, .u8, .ro, 0, .any⟩] -- PRIME_SET_USERS

/-- Objects of 0x3000 (R380). -/
def objs3000 : List ObjRow := [
  ⟨0x01, 0x01, .u8, .cst, 2, .any⟩, -- NET_PORTS
  ⟨0x02, 0x02, .u8, .cst, 8, .any⟩, -- NET_LANES_PER_PORT
  ⟨0x03, 0x03, .u16, .cst, 1024, .any⟩, -- NET_QPS
  ⟨0x04, 0x04, .u16, .cst, 4096, .any⟩, -- NET_REGIONS
  ⟨0x05, 0x05, .u16, .cst, 4096, .any⟩, -- NET_PMTU
  ⟨0x06, 0x06, .u16, .rw, 16, (.range 1 256)⟩, -- NET_ACK_EVERY
  ⟨0x07, 0x07, .u16, .rw, 1, (.range 1 1000)⟩, -- NET_ACK_DELAY
  ⟨0x08, 0x08, .u8, .rw, 14, (.range 1 31)⟩, -- NET_RNR_CODE
  ⟨0x09, 0x09, .u16, .rw, 2, (.range 1 100)⟩, -- NET_OPEN_WAIT
  ⟨0x0A, 0x0A, .u16, .rw, 50, (.range 1 10000)⟩, -- NET_CNP_INTERVAL
  ⟨0x0B, 0x0B, .u16, .rw, 1, (.range 1 1000)⟩, -- NET_LOSS_DELAY
  ⟨0x0C, 0x0C, .u8, .rw, 3, (.rangeOrFF 0 7)⟩, -- NET_PFC_PRIORITY
  ⟨0x0D, 0x0D, .u8, .ro, 0, .any⟩] -- NET_CONFIG_DETAIL

/-- Objects of 0x3001 (R380). -/
def objs3001 : List ObjRow := [
  ⟨0x01, 0x01, .u64, .rwi, 0, (.mult 4096)⟩, -- QP_TABLE_BASE
  ⟨0x02, 0x02, .u64, .rwi, 0, (.mult 4096)⟩, -- LR_TABLE_BASE
  ⟨0x03, 0x04, .u16, .wo, 0, (.range 0 1023)⟩, -- QP_ENABLE, QP_DISABLE: a queue pair of R370
  ⟨0x05, 0x06, .u16, .wo, 0, (.range 0 4095)⟩, -- LR_ENABLE, LR_DISABLE: a region of R372
  ⟨0x07, 0x07, .u16, .rw, 0, .any⟩, -- NET_SELECT
  ⟨0x08, 0x08, .u8, .ro, 0, .any⟩, -- QP_STATE_SEL
  ⟨0x09, 0x09, .u32, .ro, 0, .any⟩, -- QP_EPSN_SEL
  ⟨0x0A, 0x0A, .u8, .ro, 0, .any⟩, -- LR_STATE_SEL
  ⟨0x0B, 0x0B, .u32, .ro, 0, .any⟩, -- LR_OPEN_SEL
  ⟨0x0C, 0x0C, (.domain 16 16 1), .ro, 0, .any⟩] -- NET_LAST_REFUSAL

/-- Objects of 0x3010 to 0x3011 (R380). -/
def objs3010 : List ObjRow := [
  ⟨0x01, 0x01, .bool, .rw, 1, .any⟩, -- PORT_ENABLE
  ⟨0x02, 0x02, .u8, .ro, 0, .any⟩, -- PORT_STATE
  ⟨0x03, 0x03, .u8, .rw, 255, .any⟩, -- LANE_ENABLE
  ⟨0x04, 0x04, .u8, .ro, 0, .any⟩, -- LANES_UP
  ⟨0x05, 0x05, .u8, .ro, 0, .any⟩, -- LANES_RETIRED
  ⟨0x06, 0x06, .u16, .ro, 0, .any⟩, -- PORT_RATE_GBPS
  ⟨0x07, 0x07, .u64, .rwi, 0, .any⟩, -- MAC_ADDR
  ⟨0x08, 0x08, (.domain 16 16 1), .rwi, 0, .any⟩, -- IP_ADDR
  ⟨0x09, 0x09, .u32, .ro, 0, .any⟩, -- TRAIN_ACLK
  ⟨0x0A, 0x0A, .bool, .rw, 0, .any⟩] -- QUIESCE

/-- Objects of 0x3F00 to 0x3F01 (R381). -/
def objs3F00 : List ObjRow := [
  ⟨0x01, 0x01, .u64, .ro, 0, .any⟩, -- NET_FRAMES_RX
  ⟨0x02, 0x02, .u64, .ro, 0, .any⟩, -- NET_FCS_DROPS
  ⟨0x03, 0x03, .u64, .ro, 0, .any⟩, -- NET_ICRC_DROPS
  ⟨0x04, 0x04, .u64, .ro, 0, .any⟩, -- NET_OTHER_DROPS
  ⟨0x05, 0x05, .u64, .ro, 0, .any⟩, -- NET_PAYLOAD_BYTES
  ⟨0x06, 0x06, .u64, .ro, 0, .any⟩, -- NET_ACKS_SENT
  ⟨0x07, 0x07, .u64, .ro, 0, .any⟩, -- NET_NAKS_SENT
  ⟨0x08, 0x08, .u64, .ro, 0, .any⟩, -- NET_CNPS_SENT
  ⟨0x09, 0x09, .u64, .ro, 0, .any⟩, -- NET_DUPLICATES
  ⟨0x0A, 0x0A, .u64, .ro, 0, .any⟩, -- NET_FEC_CORRECTED
  ⟨0x0B, 0x0B, .u64, .ro, 0, .any⟩, -- NET_FEC_UNCORRECTED
  ⟨0x0C, 0x0C, .u64, .ro, 0, .any⟩, -- LAND_MESSAGES
  ⟨0x10, 0x10, .u64, .ro, 0, .any⟩, -- NET_CONFIG_COUNT
  ⟨0x11, 0x11, .u64, .ro, 0, .any⟩, -- NET_LANES_RETIRED_COUNT
  ⟨0x12, 0x12, .u64, .ro, 0, .any⟩, -- NET_LINK_LOSS_COUNT
  ⟨0x13, 0x13, .u64, .ro, 0, .any⟩, -- NET_TRAIN_FAILED_COUNT
  ⟨0x14, 0x14, .u64, .ro, 0, .any⟩, -- NET_QP_ERROR_COUNT
  ⟨0x15, 0x15, .u64, .ro, 0, .any⟩, -- LAND_SEQUENCE_COUNT
  ⟨0x16, 0x16, .u64, .ro, 0, .any⟩, -- LAND_IMMEDIATE_COUNT
  ⟨0x17, 0x17, .u64, .ro, 0, .any⟩, -- NET_RNR_SENT
  ⟨0x18, 0x18, .u64, .ro, 0, .any⟩] -- LAND_PARTIAL

/-- Objects of 0x4000 (R189). -/
def objs4000 : List ObjRow := [
  ⟨0x01, 0x01, .u8, .cst, 16, .any⟩, -- MDC_IMAGE_CORES
  ⟨0x02, 0x02, .u8, .cst, 8, .any⟩, -- MDC_VIDEO_CORES
  ⟨0x03, 0x03, .u16, .cst, 512, .any⟩, -- MDC_STREAM_CONTEXTS
  ⟨0x04, 0x04, .u32, .rw, 4096, (.range 1 1048576)⟩, -- BOMB_RATIO
  ⟨0x05, 0x05, .u32, .rw, 6554, (.range 0 65536)⟩, -- CONCEAL_LIMIT
  ⟨0x06, 0x06, .u64, .rwi, 0, (.mult 4096)⟩, -- MDC_CTX_BASE
  ⟨0x07, 0x07, .u8, .rw, 4, (.range 1 8)⟩, -- MDC_MAX_CORES_PER_PICTURE
  ⟨0x08, 0x08, .u32, .rw, 16777215, .any⟩, -- MDC_CORE_ENABLE
  ⟨0x09, 0x09, .u32, .ro, 16777215, .any⟩] -- MDC_CORES_IN_SERVICE

/-- Objects of 0x4800 (R205). -/
def objs4800 : List ObjRow := [
  ⟨0x01, 0x01, .u32, .cst, 524288, .any⟩, -- TOK_MERGE_CAPACITY
  ⟨0x02, 0x02, .u32, .cst, 524288, .any⟩, -- TOK_VOCAB_LIMIT
  ⟨0x03, 0x03, .u64, .rwi, 0, (.mult 64)⟩, -- TOK_TABLE_ADDR
  ⟨0x04, 0x04, .u8, .wo, 0, (.range 1 1)⟩, -- TOK_TABLE_LOAD
  ⟨0x05, 0x05, .bool, .ro, 0, .any⟩, -- TOK_TABLE_VALID
  ⟨0x06, 0x06, .u32, .ro, 0, .any⟩, -- TOK_TABLE_CRC
  ⟨0x07, 0x07, .u8, .ro, 0, .any⟩, -- TOK_TABLE_USERS
  ⟨0x08, 0x08, .u8, .cst, 48, .any⟩, -- TOK_MERGE_CORES
  ⟨0x09, 0x09, .u64, .rw, 281474976710655, .any⟩, -- TOK_CORE_ENABLE
  ⟨0x0A, 0x0A, .u8, .ro, 48, .any⟩] -- TOK_CORES_IN_SERVICE

/-- Objects of 0x5000 (R73). -/
def objs5000 : List ObjRow := [
  ⟨0x01, 0x01, .u8, .cst, 0, .any⟩, -- TXA_TILES_FUSED
  ⟨0x02, 0x02, .u8, .ro, 0, .any⟩, -- TXA_TILES_IN_SERVICE
  ⟨0x03, 0x03, .u32, .cst, 0, .any⟩] -- TXA_STAGING_KIB

/-- Objects of 0x5001 (R73). -/
def objs5001 : List ObjRow := [
  ⟨0x01, 0x01, .u64, .rw, 0, .any⟩, -- TXA_TILE_ENABLE_LO
  ⟨0x02, 0x02, .u64, .rw, 0, .any⟩, -- TXA_TILE_ENABLE_HI
  ⟨0x03, 0x03, .u64, .ro, 0, .any⟩, -- TXA_TILE_RETIRED_LO
  ⟨0x04, 0x04, .u64, .ro, 0, .any⟩] -- TXA_TILE_RETIRED_HI

/-- Objects of 0x5400 (R96). -/
def objs5400 : List ObjRow := [
  ⟨0x01, 0x01, .u8, .cst, 14, .any⟩, -- PFG_FRACTION_BITS
  ⟨0x02, 0x02, .u16, .cst, 128, .any⟩, -- PFG_SPLIT_PER_FCLK
  ⟨0x03, 0x03, .u16, .cst, 512, .any⟩, -- PFG_POINTWISE_PER_FCLK
  ⟨0x04, 0x04, .u8, .cst, 32, .any⟩, -- PFG_MAX_BATCH
  ⟨0x05, 0x05, .u16, .cst, 8191, .any⟩] -- PFG_CHECK_MODULUS

/-- Objects of 0x5410 to 0x541F (R100). -/
def objs5410 : List ObjRow := [
  ⟨0x01, 0x01, (.domain 32 32 1), .wo, 0, .any⟩, -- ENC_ROOT_KEY
  ⟨0x02, 0x02, .bool, .ro, 0, .any⟩, -- ENC_ROOT_VALID
  ⟨0x03, 0x03, .u64, .ro, 0, .any⟩, -- ENC_ROOT_COUNT
  ⟨0x04, 0x04, .u8, .ro, 0, .any⟩] -- ENC_ROOT_USERS

/-- Objects of 0x5800 (R124, R130). -/
def objs5800 : List ObjRow := [
  ⟨0x01, 0x01, .u8, .cst, 96, .any⟩, -- SDX_LANES
  ⟨0x02, 0x02, .u8, .ro, 96, .any⟩, -- SDX_LANES_IN_SERVICE
  ⟨0x03, 0x03, .u64, .rw, 18446744073709551615, .any⟩, -- SDX_LANE_ENABLE_LO
  ⟨0x04, 0x04, .u64, .rw, 4294967295, .any⟩, -- SDX_LANE_ENABLE_HI
  ⟨0x05, 0x05, .u64, .ro, 0, .any⟩, -- SDX_LANE_RETIRED_LO
  ⟨0x06, 0x06, .u64, .ro, 0, .any⟩, -- SDX_LANE_RETIRED_HI
  ⟨0x10, 0x10, .u64, .rwi, 0, (.mult 4096)⟩, -- KEY_DIR_BASE
  ⟨0x11, 0x11, .u32, .rwi, 0, (.zeroOrPow2 256 65536)⟩] -- KEY_DIR_ENTRIES

/-- Objects of 0x5C00 (R159). -/
def objs5C00 : List ObjRow := [
  ⟨0x01, 0x01, .u8, .cst, 64, .any⟩, -- RSV_CORES
  ⟨0x02, 0x02, .u8, .cst, 10, .any⟩, -- RSV_ROUNDS
  ⟨0x03, 0x03, .u8, .ro, 64, .any⟩, -- RSV_CORES_IN_SERVICE
  ⟨0x04, 0x04, .u64, .rw, 18446744073709551615, .any⟩, -- RSV_CORE_ENABLE
  ⟨0x05, 0x05, .u64, .ro, 0, .any⟩] -- RSV_CORE_RETIRED

/-- Objects of 0x6000 (R261). -/
def objs6000 : List ObjRow := [
  ⟨0x01, 0x01, .u8, .cst, 16, .any⟩, -- BPM_POOLS
  ⟨0x02, 0x02, .u16, .cst, 256, .any⟩, -- BPM_CACHE_ENTRIES
  ⟨0x03, 0x03, .u32, .rw, 100, (.range 1 1000000)⟩, -- DEADLOCK_WINDOW
  ⟨0x04, 0x04, .u32, .rw, 10, (.range 1 100000)⟩] -- RETRY_BACKOFF

/-- Objects of 0x6100 to 0x617F (R248). -/
def objs6100 : List ObjRow := [
  ⟨0x01, 0x01, .bool, .rw, 0, .any⟩, -- POOL_ENABLE
  ⟨0x02, 0x02, .u8, .rwi, 0, (.range 8 30)⟩, -- POOL_LOG2SIZE
  ⟨0x03, 0x03, .u32, .rwi, 0, (.range 1 4194304)⟩, -- POOL_BUFFERS
  ⟨0x04, 0x04, .u32, .rwi, 0, (.range 0 4194304)⟩, -- POOL_MARGIN
  ⟨0x05, 0x05, .u64, .rwi, 0, (.mult 4096)⟩, -- POOL_BASE
  ⟨0x06, 0x06, .u64, .rwi, 0, (.mult 4096)⟩, -- POOL_RING_BASE
  ⟨0x07, 0x07, .u64, .rwi, 0, (.mult 4096)⟩, -- POOL_STATE_BASE
  ⟨0x08, 0x08, .u32, .ro, 0, .any⟩, -- POOL_FREE
  ⟨0x09, 0x09, .u32, .ro, 0, .any⟩, -- POOL_RESERVED
  ⟨0x0A, 0x0A, .u32, .ro, 0, .any⟩, -- POOL_MARGIN_IN_USE
  ⟨0x0B, 0x0B, .u32, .ro, 0, .any⟩, -- POOL_LOW_WATER
  ⟨0x0C, 0x0C, .u16, .ro, 0, .any⟩, -- POOL_WAITERS
  ⟨0x0D, 0x0D, .u32, .ro, 0, .any⟩] -- POOL_QUARANTINED

/-- Objects of 0x6200 to 0x63FF (R261). -/
def objs6200 : List ObjRow := [
  ⟨0x01, 0x10, .u32, .ro, 0, .any⟩, -- JOB_POOL_HELD
  ⟨0x11, 0x20, .u32, .ro, 0, .any⟩] -- JOB_POOL_RESERVED

/-- Objects of 0x6400 (R246). -/
def objs6400 : List ObjRow := [
  ⟨0x01, 0x01, .u8, .cst, 64, .any⟩, -- BAT_MAX_BUCKETS
  ⟨0x02, 0x02, .u16, .cst, 256, .any⟩, -- BAT_CHUNK_SAMPLES
  ⟨0x03, 0x03, .u16, .cst, 4096, .any⟩, -- BAT_MAX_HAMPER
  ⟨0x04, 0x04, .u16, .rw, 2, (.range 1 1000)⟩] -- HOST_POLL_US

/-- Objects of 0x6800 (R275). -/
def objs6800 : List ObjRow := [
  ⟨0x01, 0x01, .u16, .cst, 128, .any⟩, -- DESC_BYTES
  ⟨0x02, 0x02, .u8, .cst, 6, .any⟩, -- DESC_MAX_RANK
  ⟨0x03, 0x03, .u8, .cst, 64, .any⟩, -- GATHER_WINDOW
  ⟨0x04, 0x04, .bool, .cst, 0, .any⟩] -- LAYOUT_FUSED

/-- Objects of 0x6801 (R300). -/
def objs6801 : List ObjRow := [
  ⟨0x01, 0x01, .u8, .cst, 8, .any⟩, -- DLV_PORTS
  ⟨0x02, 0x02, .u16, .cst, 512, .any⟩, -- DLV_LINE_BYTES
  ⟨0x03, 0x03, .u64, .rwi, 0, .any⟩, -- SEGMENT
  ⟨0x04, 0x04, .bool, .rw, 0, .any⟩, -- STRAGGLER_ENABLE
  ⟨0x05, 0x05, .u8, .rwi, 0, (.range 0 15)⟩, -- STRAGGLER_TIMER
  ⟨0x06, 0x06, .u32, .rw, 50, (.range 1 1000000)⟩, -- STRAGGLER_TIMEOUT
  ⟨0x07, 0x07, .u16, .cst, 64, .any⟩, -- MCAST_CREDITS
  ⟨0x08, 0x08, .u8, .ro, 255, .any⟩, -- DLV_LATE_SLOT
  ⟨0x09, 0x09, .u32, .ro, 0, .any⟩] -- DLV_LATE_TAG

/-- Objects of 0x6810 to 0x681F (R300). -/
def objs6810 : List ObjRow := [
  ⟨0x01, 0x01, .u16, .rw, 1, (.pow2 1 4096)⟩, -- SLIVER_COUNT
  ⟨0x02, 0x02, .u32, .rw, 512, (.mult 512)⟩, -- SLIVER_STRIDE
  ⟨0x03, 0x03, .u8, .ro, 0, .any⟩] -- SLIVER_USERS

/-- Objects of 0x7000 (R328). -/
def objs7000 : List ObjRow := [
  ⟨0x01, 0x01, .u8, .ro, 0, .any⟩, -- PROG_ACTIVE
  ⟨0x02, 0x02, .bool, .ro, 0, .any⟩, -- PROG_ARMED
  ⟨0x03, 0x03, .u32, .wo, 0, .any⟩, -- PROG_ARM
  ⟨0x04, 0x04, .u64, .rw, 0, (.mult 256)⟩, -- ROOT_RECORD
  ⟨0x05, 0x05, .u8, .wo, 0, (.range 1 1)⟩, -- ROOT_START
  ⟨0x06, 0x06, .u8, .rw, 16, (.range 1 64)⟩, -- QUEUE_SHARE
  ⟨0x07, 0x07, .u8, .cst, 64, .any⟩, -- SEQ_SLOTS
  ⟨0x08, 0x08, .u8, .cst, 16, .any⟩, -- SEQ_QUEUES
  ⟨0x09, 0x09, .u8, .cst, 64, .any⟩, -- SEQ_QUEUE_DEPTH
  ⟨0x0A, 0x0A, .u8, .cst, 4, .any⟩] -- SEQ_LOOP_DEPTH

/-- Objects of 0x7001 (R328). -/
def objs7001 : List ObjRow := [
  ⟨0x01, 0x01, (.domain 16 65536 16), .rw, 0, .any⟩, -- PROG_BANK0
  ⟨0x02, 0x02, (.domain 16 65536 16), .rw, 0, .any⟩] -- PROG_BANK1

/-- Objects of 0x7010 to 0x701F (R328). -/
def objs7010 : List ObjRow := [
  ⟨0x01, 0x01, .u64, .rwi, 0, (.mult 4096)⟩, -- CQ_BASE
  ⟨0x02, 0x02, .u32, .rwi, 0, (.zeroOrPow2 64 65536)⟩, -- CQ_ENTRIES
  ⟨0x03, 0x03, .u64, .ro, 0, .any⟩] -- CQ_WRITTEN

/-- Objects of 0x7020 to 0x7027 (R328). -/
def objs7020 : List ObjRow := [
  ⟨0x01, 0x01, .u64, .rw, 0, (.mult 256)⟩, -- JOBLIST_BASE
  ⟨0x02, 0x02, .u32, .rw, 0, (.pow2 1 4096)⟩, -- JOBLIST_ENTRIES
  ⟨0x03, 0x03, .u64, .rw, 0, (.mult 8)⟩, -- JOBLIST_PRODUCER_ADDR
  ⟨0x04, 0x04, .u64, .ro, 0, .any⟩] -- JOBLIST_CONSUMED

/-- Objects of 0x7100 to 0x71FF (R328). -/
def objs7100 : List ObjRow := [
  ⟨0x01, 0x01, .u16, .rw, 1, (.range 1 4096)⟩, -- SEM_DEPTH
  ⟨0x02, 0x02, .u16, .ro, 1, .any⟩, -- SEM_EMPTY
  ⟨0x03, 0x03, .u16, .ro, 0, .any⟩, -- SEM_FULL
  ⟨0x04, 0x04, .u8, .ro, 0, .any⟩] -- SEM_USERS

/-- Objects of 0x7200 to 0x723F (R328). -/
def objs7200 : List ObjRow := [
  ⟨0x01, 0x01, .u8, .ro, 0, .any⟩, -- SLOT_STATE
  ⟨0x02, 0x02, .u16, .ro, 0, .any⟩, -- SLOT_PC
  ⟨0x03, 0x03, .u16, .ro, 0, .any⟩, -- SLOT_FAULT
  ⟨0x04, 0x04, .u32, .ro, 0, .any⟩] -- SLOT_JOB_TAG

/-- Objects of 0x7400 to 0x74FF (R358). -/
def objs7400 : List ObjRow := [
  ⟨0x01, 0x01, .u32, .rw, 2064512, .any⟩, -- EVT_CFG
  ⟨0x02, 0x02, .u8, .ro, 0, .any⟩, -- EVT_STATE
  ⟨0x03, 0x03, .u64, .ro, 0, .any⟩, -- EVT_FIRINGS
  ⟨0x04, 0x04, .u16, .ro, 0, .any⟩] -- EVT_LAST_CODE

/-- Objects of 0x7500 to 0x750F (R359). -/
def objs7500 : List ObjRow := [
  ⟨0x01, 0x01, .u16, .rw, 0, (.range 0 1024)⟩, -- EVT_GRP_COUNT
  ⟨0x02, 0x02, .u32, .rw, 0, (.range 0 1000000)⟩, -- EVT_GRP_TIME
  ⟨0x03, 0x03, .u8, .rwi, 0, (.range 0 15)⟩, -- EVT_GRP_TIMER
  ⟨0x04, 0x04, .u16, .ro, 0, .any⟩] -- EVT_GRP_HELD

/-- Objects of 0x7600 to 0x7603 (R359). -/
def objs7600 : List ObjRow := [
  ⟨0x01, 0x01, .bool, .rw, 0, .any⟩, -- CORE_MASK
  ⟨0x02, 0x02, .u16, .ro, 256, .any⟩, -- EVT_RUNNING
  ⟨0x03, 0x03, .u16, .ro, 65535, .any⟩, -- EVT_TOP
  ⟨0x04, 0x04, .u16, .wo, 0, .any⟩, -- EVT_TAKE
  ⟨0x05, 0x05, .u16, .wo, 0, .any⟩, -- EVT_DONE
  ⟨0x06, 0x06, .bool, .ro, 0, .any⟩, -- EVT_SLEEPING
  ⟨0x07, 0x07, .bool, .ro, 0, .any⟩, -- EVT_WAKE
  ⟨0x10, 0x17, .u32, .ro, 0, .any⟩] -- EVT_PEND_VIEW

/-- Objects of 0x7700 (R359). -/
def objs7700 : List ObjRow := [
  ⟨0x01, 0x01, .u8, .ro, 0, .any⟩, -- EVT_NEST_MAX
  ⟨0x10, 0x17, .u32, .ro, 0, .any⟩, -- EVT_PENDING
  ⟨0x20, 0x27, .u32, .wo, 0, .any⟩, -- EVT_PEND_SET
  ⟨0x30, 0x37, .u32, .wo, 0, .any⟩, -- EVT_PEND_CLEAR
  ⟨0x40, 0x47, .u32, .wo, 0, .any⟩, -- EVT_LATCH_CLEAR
  ⟨0x48, 0x4F, .u32, .wo, 0, .any⟩, -- EVT_SW_RAISE
  ⟨0x50, 0x57, .u32, .ro, 0, .any⟩, -- EVT_ACTIVE
  ⟨0x58, 0x5F, .u32, .ro, 0, .any⟩, -- EVT_LATCH
  ⟨0x60, 0x60, .u64, .ro, 0, .any⟩, -- EVT_TAKES
  ⟨0x61, 0x61, .u64, .ro, 0, .any⟩, -- EVT_CUT_SHORT
  ⟨0x62, 0x62, .u64, .ro, 0, .any⟩] -- EVT_WAKES

/-- Objects of 0x8010 (R33). -/
def objs8010 : List ObjRow := [
  ⟨0x01, 0x01, .u64, .ro, 0, .any⟩, -- REST_STOPS_TOTAL
  ⟨0x02, 0x02, .u64, .ro, 0, .any⟩, -- REST_STOPS_LATE
  ⟨0x03, 0x03, .u64, .ro, 0, .any⟩] -- REST_STOP_WAIT_FCLK

/-- Objects of 0x8020 (R53). -/
def objs8020 : List ObjRow := [
  ⟨0x01, 0x01, .u64, .ro, 0, .any⟩, -- ECN_MAGIC_COUNT
  ⟨0x02, 0x02, .u64, .ro, 0, .any⟩, -- ECN_VERSION_COUNT
  ⟨0x03, 0x03, .u64, .ro, 0, .any⟩, -- ECN_KIND_COUNT
  ⟨0x04, 0x04, .u64, .ro, 0, .any⟩, -- ECN_PRIMESET_COUNT
  ⟨0x05, 0x05, .u64, .ro, 0, .any⟩, -- ECN_PARAM_COUNT
  ⟨0x06, 0x06, .u64, .ro, 0, .any⟩, -- ECN_RANGE_COUNT
  ⟨0x07, 0x07, .u64, .ro, 0, .any⟩, -- ECN_CRC_COUNT
  ⟨0x08, 0x08, .u64, .ro, 0, .any⟩] -- RESIDUE_RANGE_COUNT

/-- Objects of 0x8030 (R76). -/
def objs8030 : List ObjRow := [
  ⟨0x01, 0x01, .u64, .ro, 0, .any⟩, -- TXA_CHECK_MISMATCH
  ⟨0x02, 0x02, .u64, .ro, 0, .any⟩, -- TXA_RETRY_PASSED
  ⟨0x03, 0x03, .u64, .ro, 0, .any⟩, -- TXA_TILES_RETIRED_COUNT
  ⟨0x04, 0x04, .u64, .ro, 0, .any⟩, -- TXA_ACC_SATURATED_COUNT
  ⟨0x05, 0x05, .u64, .ro, 0, .any⟩, -- TXA_FXP_OVERFLOW_COUNT
  ⟨0x06, 0x06, .u64, .ro, 0, .any⟩, -- TXA_PARAM_COUNT
  ⟨0x07, 0x07, .u64, .ro, 0, .any⟩, -- TXA_NO_TILE_COUNT
  ⟨0x08, 0x08, .u64, .ro, 0, .any⟩, -- TXA_ITEMS
  ⟨0x09, 0x09, .u64, .ro, 0, .any⟩] -- TXA_BUSY_FCLK

/-- Objects of 0x8040 (R96, R97, R117, R118). -/
def objs8040 : List ObjRow := [
  ⟨0x01, 0x01, .u64, .ro, 0, .any⟩, -- PFG_PARAM_COUNT
  ⟨0x02, 0x02, .u64, .ro, 0, .any⟩, -- PFG_INPUT_RANGE_COUNT
  ⟨0x03, 0x03, .u64, .ro, 0, .any⟩, -- PFG_CHECK_MISMATCH
  ⟨0x04, 0x04, .u64, .ro, 0, .any⟩, -- PFG_RETRY_PASSED
  ⟨0x05, 0x05, .u64, .ro, 0, .any⟩, -- PFG_LIMBS_POISONED
  ⟨0x08, 0x08, .u64, .ro, 0, .any⟩, -- PFG_PLAINTEXTS
  ⟨0x09, 0x09, .u64, .ro, 0, .any⟩, -- PFG_NOISE_PLAINTEXTS
  ⟨0x0A, 0x0A, .u64, .ro, 0, .any⟩, -- ENC_CIPHERTEXTS
  ⟨0x0B, 0x0B, .u64, .ro, 0, .any⟩, -- ENC_EXHAUSTED_COUNT
  ⟨0x0C, 0x0C, .u64, .ro, 0, .any⟩] -- ENC_ROOT_INVALID_COUNT

/-- Objects of 0x8050 (R117, R118). -/
def objs8050 : List ObjRow := [
  ⟨0x01, 0x01, .u64, .ro, 0, .any⟩, -- INGEST_ACCEPTED
  ⟨0x02, 0x02, .u64, .ro, 0, .any⟩, -- INGEST_REFUSED
  ⟨0x03, 0x03, .u64, .ro, 0, .any⟩, -- INGEST_PARTIAL_COUNT
  ⟨0x04, 0x04, .u64, .ro, 0, .any⟩, -- INGEST_BINDING_COUNT
  ⟨0x05, 0x05, .u64, .ro, 0, .any⟩, -- INGEST_TOO_LARGE_COUNT
  ⟨0x06, 0x06, .u64, .ro, 0, .any⟩, -- INGEST_LENGTH_COUNT
  ⟨0x07, 0x07, .u64, .ro, 0, .any⟩, -- INGEST_EXPAND_MISMATCH
  ⟨0x08, 0x08, .u64, .ro, 0, .any⟩, -- INGEST_EXPAND_PASSED
  ⟨0x09, 0x09, .u64, .ro, 0, .any⟩] -- INGEST_LIMBS_POISONED

/-- Objects of 0x8060 (R141, R142). -/
def objs8060 : List ObjRow := [
  ⟨0x01, 0x01, .u64, .ro, 0, .any⟩, -- SDX_PERMUTATIONS
  ⟨0x02, 0x02, .u64, .ro, 0, .any⟩, -- SDX_STALL_FCLK
  ⟨0x03, 0x03, .u64, .ro, 0, .any⟩, -- KEY_REGISTERED
  ⟨0x04, 0x04, .u64, .ro, 0, .any⟩, -- KEY_REFUSED
  ⟨0x05, 0x05, .u64, .ro, 0, .any⟩, -- KEY_TILES_DELIVERED
  ⟨0x06, 0x06, .u64, .ro, 0, .any⟩, -- KEY_LATE_BY_SDX
  ⟨0x07, 0x07, .u64, .ro, 0, .any⟩, -- KEY_LATE_BY_FETCH
  ⟨0x08, 0x08, .u64, .ro, 0, .any⟩, -- KEY_ITEMS
  ⟨0x09, 0x09, .u64, .ro, 0, .any⟩, -- KEY_PARAM_COUNT
  ⟨0x0A, 0x0A, .u64, .ro, 0, .any⟩, -- KEY_ENTRY_BUSY_COUNT
  ⟨0x0B, 0x0B, .u64, .ro, 0, .any⟩, -- KEY_LAYOUT_COUNT
  ⟨0x0C, 0x0C, .u64, .ro, 0, .any⟩, -- KEY_NOT_VALID_COUNT
  ⟨0x0D, 0x0D, .u64, .ro, 0, .any⟩, -- KEY_STALE_COUNT
  ⟨0x0E, 0x0E, .u64, .ro, 0, .any⟩, -- KEY_MISMATCH_COUNT
  ⟨0x0F, 0x0F, .u64, .ro, 0, .any⟩, -- SDX_NO_LANE_COUNT
  ⟨0x10, 0x10, .u64, .ro, 0, .any⟩, -- SDX_LANE_MISMATCH
  ⟨0x11, 0x11, .u64, .ro, 0, .any⟩] -- SDX_LANES_RETIRED_COUNT

/-- Objects of 0x8070 (R159, R160). -/
def objs8070 : List ObjRow := [
  ⟨0x01, 0x01, .u64, .ro, 0, .any⟩, -- RSV_CALLS
  ⟨0x02, 0x02, .u64, .ro, 0, .any⟩, -- RSV_PURPOSE_COUNT
  ⟨0x03, 0x03, .u64, .ro, 0, .any⟩, -- RSV_CORE_MISMATCH
  ⟨0x04, 0x04, .u64, .ro, 0, .any⟩, -- RSV_CORES_RETIRED_COUNT
  ⟨0x05, 0x05, .u64, .ro, 0, .any⟩] -- RSV_NO_CORE_COUNT

/-- Objects of 0x8080 (R190, R191). -/
def objs8080 : List ObjRow := [
  ⟨0x01, 0x01, .u64, .ro, 0, .any⟩, -- MDC_PARAM_COUNT
  ⟨0x02, 0x02, .u64, .ro, 0, .any⟩, -- MDC_UNSUPPORTED_COUNT
  ⟨0x03, 0x03, .u64, .ro, 0, .any⟩, -- MDC_LIMIT_COUNT
  ⟨0x04, 0x04, .u64, .ro, 0, .any⟩, -- MDC_BOMB_COUNT
  ⟨0x05, 0x05, .u64, .ro, 0, .any⟩, -- MDC_BUFFERS_COUNT
  ⟨0x06, 0x06, .u64, .ro, 0, .any⟩, -- MDC_FORMAT_COUNT
  ⟨0x07, 0x07, .u64, .ro, 0, .any⟩, -- MDC_PAYLOAD_CRC_COUNT
  ⟨0x08, 0x08, .u64, .ro, 0, .any⟩, -- MDC_RESYNC_COUNT
  ⟨0x09, 0x09, .u64, .ro, 0, .any⟩, -- MDC_CONCEALED_BLOCKS
  ⟨0x0A, 0x0A, .u64, .ro, 0, .any⟩, -- MDC_REF_SUBSTITUTED
  ⟨0x0B, 0x0B, .u64, .ro, 0, .any⟩, -- MDC_REF_GREY
  ⟨0x0C, 0x0C, .u64, .ro, 0, .any⟩, -- MDC_CONCEAL_LIMIT_COUNT
  ⟨0x0D, 0x0D, .u64, .ro, 0, .any⟩, -- MDC_PICTURES_DECODED
  ⟨0x0E, 0x0E, .u64, .ro, 0, .any⟩, -- MDC_FRAMES_OUTPUT
  ⟨0x0F, 0x0F, .u64, .ro, 0, .any⟩, -- MDC_NOT_FOR_OUTPUT
  ⟨0x10, 0x10, .u64, .ro, 0, .any⟩, -- MDC_SKIPPED_AU
  ⟨0x11, 0x11, .u64, .ro, 0, .any⟩, -- MDC_CONTEXT_SWITCHES
  ⟨0x12, 0x12, .u64, .ro, 0, .any⟩] -- MDC_INFLATED_BYTES

/-- Objects of 0x8090 (R207). -/
def objs8090 : List ObjRow := [
  ⟨0x01, 0x01, .u64, .ro, 0, .any⟩, -- TOK_PARAM_COUNT
  ⟨0x02, 0x02, .u64, .ro, 0, .any⟩, -- TOK_INVALID_SEQUENCES
  ⟨0x03, 0x03, .u64, .ro, 0, .any⟩, -- TOK_PAYLOAD_CRC_COUNT
  ⟨0x04, 0x04, .u64, .ro, 0, .any⟩, -- TOK_POISONED_COUNT
  ⟨0x05, 0x05, .u64, .ro, 0, .any⟩, -- TOK_TRUNCATED_COUNT
  ⟨0x06, 0x06, .u64, .ro, 0, .any⟩, -- TOK_TABLE_REFUSED
  ⟨0x07, 0x07, .u64, .ro, 0, .any⟩, -- TOK_NO_CORE_COUNT
  ⟨0x08, 0x08, .u64, .ro, 0, .any⟩, -- TOK_SAMPLES
  ⟨0x09, 0x09, .u64, .ro, 0, .any⟩, -- TOK_TOKENS
  ⟨0x0A, 0x0A, .u64, .ro, 0, .any⟩] -- TOK_INPUT_BYTES

/-- Objects of 0x80A0 (R224). -/
def objs80A0 : List ObjRow := [
  ⟨0x01, 0x01, .u64, .ro, 0, .any⟩, -- SHP_PROGRAM_COUNT
  ⟨0x02, 0x02, .u64, .ro, 0, .any⟩, -- SHP_SIZE_COUNT
  ⟨0x03, 0x03, .u64, .ro, 0, .any⟩, -- SHP_POISONED_COUNT
  ⟨0x04, 0x04, .u64, .ro, 0, .any⟩, -- SHP_SAMPLES
  ⟨0x05, 0x05, .u64, .ro, 0, .any⟩] -- SHP_MIXED_PAIRS

/-- Objects of 0x80B0 (R246, R247). -/
def objs80B0 : List ObjRow := [
  ⟨0x01, 0x01, .u64, .ro, 0, .any⟩, -- BAT_SAMPLES_PLACED
  ⟨0x02, 0x02, .u64, .ro, 0, .any⟩, -- BAT_SPARES_USED
  ⟨0x03, 0x03, .u64, .ro, 0, .any⟩, -- BAT_REPEATS
  ⟨0x04, 0x04, .u64, .ro, 0, .any⟩, -- BAT_HOLES
  ⟨0x05, 0x05, .u64, .ro, 0, .any⟩, -- BAT_CORRUPT
  ⟨0x06, 0x06, .u64, .ro, 0, .any⟩, -- BAT_HAMPERS
  ⟨0x07, 0x07, .u64, .ro, 0, .any⟩, -- BAT_SHORT_HAMPERS
  ⟨0x08, 0x08, .u64, .ro, 0, .any⟩, -- BAT_DROPPED_SAMPLES
  ⟨0x09, 0x09, .u64, .ro, 0, .any⟩, -- BAT_BLANKET_BYTES
  ⟨0x0A, 0x0A, .u64, .ro, 0, .any⟩, -- BAT_ENGINE_CHUNKS
  ⟨0x0B, 0x0B, .u64, .ro, 0, .any⟩, -- BAT_HOST_CHUNKS
  ⟨0x0C, 0x0C, .u64, .ro, 0, .any⟩, -- BAT_EPOCHS
  ⟨0x10, 0x10, .u64, .ro, 0, .any⟩, -- BAT_PARAM_COUNT
  ⟨0x11, 0x11, .u64, .ro, 0, .any⟩, -- BAT_INDEX_INVALID_COUNT
  ⟨0x12, 0x12, .u64, .ro, 0, .any⟩, -- BAT_INDEX_CRC_COUNT
  ⟨0x13, 0x13, .u64, .ro, 0, .any⟩, -- BAT_NO_BUCKET_COUNT
  ⟨0x14, 0x14, .u64, .ro, 0, .any⟩, -- BAT_OVERSIZE_COUNT
  ⟨0x15, 0x15, .u64, .ro, 0, .any⟩, -- BAT_HOST_RECLAIMED
  ⟨0x16, 0x16, .u64, .ro, 0, .any⟩] -- BAT_EXHAUSTED_COUNT

/-- Objects of 0x80C0 (R261, R262). -/
def objs80C0 : List ObjRow := [
  ⟨0x01, 0x01, .u64, .ro, 0, .any⟩, -- POOL_ALLOCS
  ⟨0x02, 0x02, .u64, .ro, 0, .any⟩, -- POOL_FREES
  ⟨0x03, 0x03, .u64, .ro, 0, .any⟩, -- POOL_CACHE_MISSES
  ⟨0x04, 0x04, .u64, .ro, 0, .any⟩, -- POOL_OVERFLOW_ALLOCS
  ⟨0x05, 0x05, .u64, .ro, 0, .any⟩, -- POOL_BLOCKED_FCLK
  ⟨0x10, 0x10, .u64, .ro, 0, .any⟩, -- POOL_NO_FIT_COUNT
  ⟨0x11, 0x11, .u64, .ro, 0, .any⟩, -- POOL_RESERVE_COUNT
  ⟨0x12, 0x12, .u64, .ro, 0, .any⟩, -- POOL_BAD_FREE_COUNT
  ⟨0x13, 0x13, .u64, .ro, 0, .any⟩, -- POOL_DOUBLE_FREE_COUNT
  ⟨0x14, 0x14, .u64, .ro, 0, .any⟩, -- POOL_DEADLOCK_COUNT
  ⟨0x15, 0x15, .u64, .ro, 0, .any⟩, -- POOL_CONFIG_COUNT
  ⟨0x16, 0x16, .u64, .ro, 0, .any⟩] -- POOL_POISONED_COUNT

/-- Objects of 0x80D0 (R275, R276). -/
def objs80D0 : List ObjRow := [
  ⟨0x01, 0x01, .u64, .ro, 0, .any⟩, -- DESC_CRC_COUNT
  ⟨0x02, 0x02, .u64, .ro, 0, .any⟩, -- DESC_FIELD_COUNT
  ⟨0x03, 0x03, .u64, .ro, 0, .any⟩, -- DESC_RANGE_COUNT
  ⟨0x04, 0x04, .u64, .ro, 0, .any⟩, -- DESC_CONTIG_COUNT
  ⟨0x05, 0x05, .u64, .ro, 0, .any⟩, -- ALIGN_COUNT
  ⟨0x06, 0x06, .u64, .ro, 0, .any⟩, -- OVERLAP_COUNT
  ⟨0x07, 0x07, .u64, .ro, 0, .any⟩, -- DESC_INDEX_COUNT
  ⟨0x08, 0x08, .u64, .ro, 0, .any⟩, -- DESC_BLOCK_COUNT
  ⟨0x09, 0x09, .u64, .ro, 0, .any⟩, -- DESC_PAIR_COUNT
  ⟨0x0A, 0x0A, .u64, .ro, 0, .any⟩, -- IDX_OUT_OF_RANGE_COUNT
  ⟨0x0B, 0x0B, .u64, .ro, 0, .any⟩, -- IDX_POISONED_COUNT
  ⟨0x10, 0x10, .u64, .ro, 0, .any⟩, -- DESC_PAIRS_VALIDATED
  ⟨0x11, 0x11, .u64, .ro, 0, .any⟩, -- IDX_POSITIONS
  ⟨0x12, 0x12, .u64, .ro, 0, .any⟩, -- IDX_SLICE_READS
  ⟨0x13, 0x13, .u64, .ro, 0, .any⟩, -- IDX_SLICE_WRITES
  ⟨0x14, 0x14, .u64, .ro, 0, .any⟩, -- IDX_CLAMPED
  ⟨0x15, 0x15, .u64, .ro, 0, .any⟩, -- LAYOUT_FUSED_BLOCKS
  ⟨0x16, 0x16, .u64, .ro, 0, .any⟩] -- LAYOUT_COPY_BLOCKS

/-- Objects of 0x80E0 (R301, R302). -/
def objs80E0 : List ObjRow := [
  ⟨0x01, 0x01, .u64, .ro, 0, .any⟩, -- DLV_REGION_COUNT
  ⟨0x02, 0x02, .u64, .ro, 0, .any⟩, -- DLV_SLIVER_COUNT
  ⟨0x03, 0x03, .u64, .ro, 0, .any⟩, -- DLV_DUE_COUNT
  ⟨0x04, 0x04, .u64, .ro, 0, .any⟩, -- DLV_STRAGGLER_COUNT
  ⟨0x05, 0x05, .u64, .ro, 0, .any⟩, -- LATE_WRITE_DROPPED_COUNT
  ⟨0x06, 0x06, .u64, .ro, 0, .any⟩, -- DLV_SUBREQ_FAILED_COUNT
  ⟨0x07, 0x07, .u64, .ro, 0, .any⟩, -- DLV_CATCHUP_ABANDONED_COUNT
  ⟨0x10, 0x10, .u64, .ro, 0, .any⟩, -- DLV_LINES_WRITTEN
  ⟨0x11, 0x11, .u64, .ro, 0, .any⟩, -- DLV_SUBLINE_WRITES
  ⟨0x12, 0x12, .u64, .ro, 0, .any⟩, -- FETCH_REQUESTS
  ⟨0x13, 0x13, .u64, .ro, 0, .any⟩, -- FETCH_MERGED
  ⟨0x14, 0x14, .u64, .ro, 0, .any⟩, -- MCAST_STALL_FCLK
  ⟨0x15, 0x15, .u64, .ro, 0, .any⟩, -- CATCHUP_LINES
  ⟨0x16, 0x16, .u64, .ro, 0, .any⟩, -- REGION_POISON_LINES
  ⟨0x17, 0x17, .u64, .ro, 0, .any⟩] -- BANK_PD_ACKS

/-- Objects of 0x80F0 (R329). -/
def objs80F0 : List ObjRow := [
  ⟨0x01, 0x01, .u64, .ro, 0, .any⟩, -- SEQ_COMMAND_COUNT
  ⟨0x02, 0x02, .u64, .ro, 0, .any⟩, -- SEQ_LOOP_COUNT
  ⟨0x03, 0x03, .u64, .ro, 0, .any⟩, -- SEQ_PARAM_COUNT
  ⟨0x04, 0x04, .u64, .ro, 0, .any⟩, -- SEQ_STAGING_COUNT
  ⟨0x05, 0x05, .u64, .ro, 0, .any⟩, -- SEQ_PRIVILEGE_COUNT
  ⟨0x06, 0x06, .u64, .ro, 0, .any⟩, -- ACTIVE_BANK_WRITE_COUNT
  ⟨0x07, 0x07, .u64, .ro, 0, .any⟩, -- PROG_CRC_COUNT
  ⟨0x08, 0x08, .u64, .ro, 0, .any⟩, -- SEQ_ADMIT_PARAM_COUNT
  ⟨0x09, 0x09, .u64, .ro, 0, .any⟩, -- SEQ_PRIMESET_COUNT
  ⟨0x0A, 0x0A, .u64, .ro, 0, .any⟩, -- SEQ_ADMIT_STAGING_COUNT
  ⟨0x0B, 0x0B, .u64, .ro, 0, .any⟩, -- SEM_OVERFLOW_COUNT
  ⟨0x0C, 0x0C, .u64, .ro, 0, .any⟩, -- SEQ_ADMITTED
  ⟨0x0D, 0x0D, .u64, .ro, 0, .any⟩, -- SEQ_REFUSED
  ⟨0x0E, 0x0E, .u64, .ro, 0, .any⟩, -- SEQ_COMMANDS
  ⟨0x0F, 0x0F, .u64, .ro, 0, .any⟩, -- SEQ_QUEUE_FULL_HCLK
  ⟨0x10, 0x10, .u64, .ro, 0, .any⟩, -- SEQ_SWAP_WAIT_HCLK
  ⟨0x11, 0x11, .u64, .ro, 0, .any⟩] -- SEQ_LEAKED_BUFFERS

/-- Objects of 0x8100 (R342, R345). -/
def objs8100 : List ObjRow := [
  ⟨0x01, 0x01, .u64, .ro, 0, .any⟩, -- DICT_TRANSFERS
  ⟨0x02, 0x02, .u64, .ro, 0, .any⟩, -- DICT_ABORTS
  ⟨0x03, 0x03, .u64, .ro, 0, .any⟩, -- DICT_REQ_DISCARDED
  ⟨0x11, 0x20, .u64, .ro, 0, .any⟩, -- abort classes 0x01 to 0x10
  ⟨0x30, 0x30, .u64, .ro, 0, .any⟩] -- abort class 0x20

/-- Objects of 0x9000 (R422). -/
def objs9000 : List ObjRow := [
  ⟨0x01, 0x01, .u32, .rw, 100, (.range 10 10000)⟩, -- SCRUB_PERIOD
  ⟨0x02, 0x02, .u8, .rw, 4, (.range 1 255)⟩, -- UE_BANK_LIMIT
  ⟨0x03, 0x03, (.domain 36 36 1), .ro, 0, .any⟩, -- STAGING_RETIRED
  ⟨0x04, 0x04, .u64, .ro, 0, .any⟩, -- RAS_LAST_ADDR
  ⟨0x05, 0x05, .u16, .ro, 0, .any⟩] -- RAS_LAST_CODE

/-- Objects of 0x9010 (R422). -/
def objs9010 : List ObjRow := [
  ⟨0x01, 0x01, .u64, .ro, 0, .any⟩, -- RAS_CE_COUNT
  ⟨0x02, 0x02, .u64, .ro, 0, .any⟩, -- RAS_UE_COUNT
  ⟨0x03, 0x03, .u64, .ro, 0, .any⟩, -- RAS_MEM_ERROR_COUNT
  ⟨0x04, 0x04, .u64, .ro, 0, .any⟩, -- RAS_CONTROL_COUNT
  ⟨0x05, 0x05, .u64, .ro, 0, .any⟩, -- RAS_SELFTEST_FAIL_COUNT
  ⟨0x06, 0x06, .u64, .ro, 0, .any⟩, -- RAS_BANKS_RETIRED_COUNT
  ⟨0x07, 0x07, .u64, .ro, 0, .any⟩, -- RAS_SCRUB_CORRECTED
  ⟨0x08, 0x08, .u64, .ro, 0, .any⟩] -- RAS_POISON_WRITTEN

/-- Objects of 0xA000 (R422). -/
def objsA000 : List ObjRow := [
  ⟨0x01, 0x01, .bool, .rw, 0, .any⟩, -- TRACE_ENABLE
  ⟨0x02, 0x02, .u64, .rwi, 0, (.mult 4096)⟩, -- TRACE_BASE
  ⟨0x03, 0x03, .u32, .rwi, 65536, (.rangeMult 65536 2147483648 4096)⟩, -- TRACE_BYTES
  ⟨0x04, 0x04, .u8, .rw, 0, (.range 0 1)⟩, -- TRACE_MODE
  ⟨0x05, 0x05, .u16, .rw, 32, .any⟩, -- TRACE_MASK
  ⟨0x06, 0x06, .u16, .rw, 0, .any⟩, -- TRACE_TRIGGER_CODE
  ⟨0x07, 0x07, .u8, .rw, 0, (.range 0 2)⟩, -- TRIG_IN_ACTION
  ⟨0x08, 0x08, .u64, .wo, 0, .any⟩, -- TRACE_MARK
  ⟨0x09, 0x09, .u64, .ro, 0, .any⟩, -- TRACE_WRITTEN
  ⟨0x0A, 0x0A, .u64, .ro, 0, .any⟩] -- TRACE_DROPPED

/-- The rows of the index a dictionary access names; no row: the index is in no table (R330). -/
def objRows (index : Nat) : List ObjRow :=
  if index == 0x1000 then objs1000
  else if index == 0x1001 then objs1001
  else if index == 0x1100 then objs1100
  else if index == 0x1180 then objs1180
  else if index == 0x2000 then objs2000
  else if index == 0x2001 then objs2001
  else if index == 0x2040 then objs2040
  else if index == 0x2050 then objs2050
  else if index == 0x2080 then objs2080
  else if index == 0x2081 then objs2081
  else if (0x2100 ≤ index && index ≤ 0x2107) then objs2100
  else if index == 0x3000 then objs3000
  else if index == 0x3001 then objs3001
  else if (0x3010 ≤ index && index ≤ 0x3011) then objs3010
  else if (0x3F00 ≤ index && index ≤ 0x3F01) then objs3F00
  else if index == 0x4000 then objs4000
  else if index == 0x4800 then objs4800
  else if index == 0x5000 then objs5000
  else if index == 0x5001 then objs5001
  else if index == 0x5400 then objs5400
  else if (0x5410 ≤ index && index ≤ 0x541F) then objs5410
  else if index == 0x5800 then objs5800
  else if index == 0x5C00 then objs5C00
  else if index == 0x6000 then objs6000
  else if (0x6100 ≤ index && index ≤ 0x617F) then objs6100
  else if (0x6200 ≤ index && index ≤ 0x63FF) then objs6200
  else if index == 0x6400 then objs6400
  else if index == 0x6800 then objs6800
  else if index == 0x6801 then objs6801
  else if (0x6810 ≤ index && index ≤ 0x681F) then objs6810
  else if index == 0x7000 then objs7000
  else if index == 0x7001 then objs7001
  else if (0x7010 ≤ index && index ≤ 0x701F) then objs7010
  else if (0x7020 ≤ index && index ≤ 0x7027) then objs7020
  else if (0x7100 ≤ index && index ≤ 0x71FF) then objs7100
  else if (0x7200 ≤ index && index ≤ 0x723F) then objs7200
  else if (0x7400 ≤ index && index ≤ 0x74FF) then objs7400
  else if (0x7500 ≤ index && index ≤ 0x750F) then objs7500
  else if (0x7600 ≤ index && index ≤ 0x7603) then objs7600
  else if index == 0x7700 then objs7700
  else if index == 0x8010 then objs8010
  else if index == 0x8020 then objs8020
  else if index == 0x8030 then objs8030
  else if index == 0x8040 then objs8040
  else if index == 0x8050 then objs8050
  else if index == 0x8060 then objs8060
  else if index == 0x8070 then objs8070
  else if index == 0x8080 then objs8080
  else if index == 0x8090 then objs8090
  else if index == 0x80A0 then objs80A0
  else if index == 0x80B0 then objs80B0
  else if index == 0x80C0 then objs80C0
  else if index == 0x80D0 then objs80D0
  else if index == 0x80E0 then objs80E0
  else if index == 0x80F0 then objs80F0
  else if index == 0x8100 then objs8100
  else if index == 0x9000 then objs9000
  else if index == 0x9010 then objs9010
  else if index == 0xA000 then objsA000
  else []

/-- The row of an object, none where the subindex is in no table. -/
def objRow (index sub : Nat) : Option ObjRow :=
  (objRows index).find? (fun r => r.first ≤ sub && sub ≤ r.last)

/-- Subindex 0x00: the highest subindex in use at the index (R330). -/
def objHighest (index : Nat) : Nat := (objRows index).foldl (fun m r => max m r.last) 0

/-- The key of an object in the value table. -/
def objKey (index sub : Nat) : Nat := index * 256 + sub

/-- The default of the object with a key (R332). -/
def objDefault (key : Nat) : Nat :=
  match objRow (key / 256) (key % 256) with
  | some r => r.dflt
  | none => 0

end Sys2Proof.Machine
end

