-- ==== Sys2Proof/Machine/State.lean ====
section
/-! DEFINITION. The state of one engine: every register, queue, buffer, counter, mode and pin the spec gives it, as plain
data, and the machine right after reset. -/

namespace Sys2Proof.Machine

/-- A sparse table: entries at strictly rising keys, none equal to what an unlisted key reads as. -/
abbrev Tbl (α : Type) := List (Nat × α)

/-- What fuses, straps and wiring give the engine (R1, R4, R6, R424). -/
structure Fuses where
  packageKind : Nat
  arrayMode   : Nat
  dieId       : Nat
  memStrap    : Nat
  mac0        : Nat
  mac1        : Nat
deriving DecidableEq, Repr

/-- Power, reset and bring-up (R383, R384, R428): pins as seen and the steps done. -/
structure Boot where
  fuses     : Option Fuses := none
  latched   : Bool := false      -- step 5,000 of R384 done since the last release
  pwrgood   : Bool := false
  inReset   : Bool := true
  busSag    : Bool := false
  pdAon     : Bool := false
  pdCcx     : Bool := false
  pdMem     : Bool := false
  pdCore    : Bool := false
  pdTxaHi   : Bool := false
  pdMedia   : Bool := false
  pdNet0    : Bool := false
  pdNet1    : Bool := false
  hclk      : Bool := false      -- HCLK runs (step 10,000)
  ccxTested : Bool := false
  linksDone : Bool := false
  unitsTested : Bool := false
  failedUnits : List Nat := []   -- kind*256 + unit whose failure event waits for the close (R384)
  failed    : Bool := false      -- a fatal error has stopped the engine (R415)
  timeBase  : Nat := 0
deriving DecidableEq, Repr

/-- The memories the engine addresses (R41, R56, R289, R305, R311) and the poison marks of R412 (granule or line numbers). -/
structure Mems where
  dev       : List Host.Cell := []
  devPoison : List Nat := []
  failing   : List Nat := []               -- granules to which the memory fabric answers a read with an error (R412)
  txa       : List Host.Cell := []
  txaPoison : List Nat := []
  pfg       : List Host.Cell := []
  pfgPoison : List Nat := []
  sp        : List Host.Cell := []
  spPoison  : List Nat := []
  bank0     : List Host.Cell := []
  bank1     : List Host.Cell := []
deriving DecidableEq, Repr

/-- One record of a prime-set entry (R46). -/
structure PrimeRec where
  q       : Nat := 0
  psi     : Nat := 0
  psiInv  : Nat := 0
  nInv    : Nat := 0
  barrett : Nat := 0
  qMod    : Nat := 0
deriving DecidableEq, Repr

/-- A prime-set entry (R45 to R48). -/
structure PrimeSet where
  log2n : Nat := 0
  l     : Nat := 0
  k     : Nat := 0
  fingerprint : Nat := 0
  valid : Bool := false
  recs  : List PrimeRec := []
deriving DecidableEq, Repr

/-- An encryption root (R100). -/
structure EncRoot where
  key   : List Byte := []
  valid : Bool := false
  count : Nat := 0
deriving DecidableEq, Repr

/-- Who holds a wait on a semaphore counter: a queued command, a stage's per-entry wait, a landing open request. -/
inductive Waiter where
  | cmd (id : Nat)
  | stage (id : Nat)
  | landing (port serial : Nat)
deriving DecidableEq, Repr

/-- A held wait (R22): arrival order is list order. -/
structure HeldWait where
  who  : Waiter
  slot : Nat
  full : Bool
deriving DecidableEq, Repr

/-- A semaphore pair (R19, R20, R326). -/
structure Pair where
  depth : Nat := 1
  empty : Nat := 1
  full  : Nat := 0
  users : List Nat := []
  waits : List HeldWait := []
deriving DecidableEq, Repr

/-- A delivery region (R278). -/
structure Region where
  base  : Nat
  bytes : Nat
  half  : Nat
deriving DecidableEq, Repr

/-- An admission record as admitted (R305). -/
structure Admission where
  paramBase : Nat := 0
  jobSeed   : Nat := 0
  jobTag    : Nat := 0
  encRoots  : Nat := 0
  primeSets : Nat := 0
  stripe    : Nat := 0
  progEntry : Nat := 0
  regions   : List Region := []
  prefetch  : Nat := 0
  priority  : Nat := 0
  usesTok   : Bool := false
  admitter  : Bool := false
  txaBase   : Nat := 0
  txaSize   : Nat := 0
  pfgBase   : Nat := 0
  pfgSize   : Nat := 0
  pools     : List Nat := []
deriving DecidableEq, Repr

/-- An open loop (R327); the iteration index counts from 0 (R321). -/
structure LoopEntry where
  start     : Nat
  stop      : Nat
  remaining : Nat
  iter      : Nat
deriving DecidableEq, Repr

/-- SLOT_STATE of R328. -/
inductive SlotState where
  | idle | running | parked | halted | faulted
deriving DecidableEq, Repr

/-- A LOOP whose memory count is being read (R327). -/
structure LoopRead where
  addr : Nat
  stop : Nat
deriving DecidableEq, Repr

/-- A FETCHLIST under way (R304). -/
structure ListRead where
  list     : Nat
  max      : Nat
  producer : Option Nat
  admitted : Nat
deriving DecidableEq, Repr

/-- A bucket's cursors as a rucksack records them (R400, R401). -/
structure BucketCursor where
  f : Nat := 0
  t : Nat := 0
  placed : Nat := 0
deriving DecidableEq, Repr

/-- A LANDING cursor of a rucksack (R400). -/
structure LandCursor where
  die : Nat
  region : Nat
  logSeq : Nat
  accepted : Nat
deriving DecidableEq, Repr

/-- What a restored job carries into its first stages (R405). -/
structure Restored where
  epoch     : Nat := 0
  hamperSeq : Nat := 0
  logSeq    : Nat := 0
  buckets   : List BucketCursor := []
  hasBatch  : Bool := false
  landing   : List LandCursor := []
deriving DecidableEq, Repr

/-- A save in progress (R402): what the slot's position was when it stopped fetching. -/
structure Save where
  removal   : Bool
  drained   : Bool
  abandoned : Bool
  pc        : Nat
  loops     : List LoopEntry
  batch     : List Byte := []              -- its BATCH section, taken at the drain deadline
  contexts  : List (Nat × Nat × Nat) := [] -- its abandoned video samples, their pictures and their contexts (R400)
deriving DecidableEq, Repr

/-- A job slot (R303 to R310). -/
structure Slot where
  state   : SlotState := .idle
  pc      : Nat := 0
  fault   : Nat := 0
  job     : Admission := {}
  recAddr : Option Nat := none     -- its admission record; none for a restored job
  root    : Bool := false
  fetched : Bool := false          -- has fetched a command
  loops   : List LoopEntry := []   -- innermost first
  loopRead : Option LoopRead := none
  listRead : Option ListRead := none
  horizon : Nat := 0               -- H_s
  dueOffset : Int := 0
  target  : Nat := 0               -- SWITCH target while parked
  allocs  : List Nat := []         -- addresses obtained by ALLOC, not freed
  faultHorizon : Option Nat := none -- H_f of R283
  poisonedTo : Nat := 0            -- last segment whose region poisoning has been written
  backoff : List Nat := []         -- units whose item of this slot waits for RETRY_BACKOFF (R259)
  save    : Option Save := none
  ending  : Option (Nat × Nat) := none -- STATE and STATUS of a job that ends once its frees have been accepted (R255, R309)
  epoch   : Option Nat := none     -- the job's current epoch, kept by its batch stage (R143, R232)
  restored : Restored := {}
deriving DecidableEq, Repr

/-- An entry of a semaphore link (R19, R20): what its producer wrote, in device memory (space 0), TXA staging (2) or PFG/SDX staging
(3), and the pool buffer to be freed once it has been delivered. -/
structure LinkEntry where
  space : Nat
  addr : Nat
  bytes : Nat
  slot : Nat
  buffer : Option Nat := none
deriving DecidableEq, Repr

/-- What the record of R299 says of a delivery item. -/
structure DlvRecord where
  tag : Nat
  firstFail : Nat := 2 ^ 64 - 1
  bitmap : Nat := 0
  failed : Nat := 0
  written : Nat := 0
  poisoned : Nat := 0
  dropped : Nat := 0
  oor : Nat := 0
  firstOor : Nat := 2 ^ 32 - 1
  due : Nat
  detached : Nat := 0
  status : Nat := 0
  flags : Nat := 1
deriving DecidableEq, Repr

/-- What a failed completion names beside its code (R211, R227, R267): a descriptor of a delivery, 0 the source and k its k-th
destination; a check of a shaping program with the entry of checks 5 and 6; a bucket. -/
inductive Named where
  | descriptor (n : Nat)
  | check (n : Nat) (entry : Option Nat)
  | bucket (n : Nat)
deriving DecidableEq, Repr

/-- A command in one of the sixteen queues (R315 to R318). -/
structure Cmd where
  id      : Nat
  slot    : Nat
  queue   : Nat
  word    : Nat                    -- the 128-bit command
  index   : Nat                    -- its command index
  loops   : List LoopEntry         -- the loops open at its fetch
  asked   : Bool := false          -- its wait has been requested
  granted : Bool := false
  issued  : Bool := false
  done    : Bool := false          -- its unit has finished; completion is held until its turn (R317)
  status  : Nat := 0
  flags   : Nat := 0
  result  : Nat := 0
  output  : Option LinkEntry := none -- the link entry its signal passes on
  report  : Option DlvRecord := none -- the record of R299, kept for the turn of its completion
deriving DecidableEq, Repr

/-- The sequencer's own state beyond slots and commands. -/
structure Seq where
  active  : Nat := 0
  armed   : Bool := false
  nextId  : Nat := 0
  rootSlot : Option Nat := none
  rootAway : Option Nat := none            -- the record of that job when its stripe leaves this die out
  named   : Tbl (Option (Nat × Named)) := [] -- per slot the TAG of the last completion that named something, and what it named
deriving DecidableEq, Repr

/-- Arbitration state of one unit (R25): the slot served last and the pass-over counts. -/
structure Arb where
  last  : Option Nat := none
  passed : Tbl Nat := []
deriving DecidableEq, Repr

/-- Parameters of a TXA work item (R57, R322). -/
structure TxaParams where
  mode : Nat
  xtype : Nat
  wtype : Nat
  passes : Nat
  rows : Nat
  init : Nat
  outType : Nat
  set : Nat
  limb : Nat
  shift : Nat
  wBase : Nat
  wStride : Nat
  xBase : Nat
  xStride : Nat
  initAddr : Nat
  outAddr : Nat
  reserved : Bool                  -- the reserved bytes are zero
deriving DecidableEq, Repr

/-- A work item: of a TXA_ITEM command, or one of the items a unit has the array run for it. -/
structure TxaItem where
  cmd : Nat
  slot : Nat
  p : TxaParams
  part : Option Nat := none        -- the work of a unit it belongs to
deriving DecidableEq, Repr

/-- Who has array items run: the forge for a command's item (R82, R89), the shaping of a slot's sample, or the mixup of a stage's next
hamper (R208). -/
inductive ArrayUser where
  | forge (cmd : Nat)
  | shape (slot sample : Nat)
  | hamper (slot cmd : Nat)
deriving DecidableEq, Repr

/-- Work items of one shape that a unit has the array run: how many are not yet dispatched, and how many tiles run one. -/
structure ArrayWork where
  id : Nat
  slot : Nat
  user : ArrayUser
  mode : Nat
  passes : Nat
  rows : Nat
  left : Nat
  running : Nat := 0
deriving DecidableEq, Repr

/-- One accumulator element (R59): its value, and the sign it overflowed with in mode 4 (R65). -/
structure Acc where
  v : Int := 0
  ovf : Option Bool := none
deriving DecidableEq, Repr

/-- A weight register set: the block it holds, and the checksum cell of each row, an integer and the power of two it counts (R67, R69). -/
structure WeightSet where
  block : List Byte := []
  check : List (Int × Int) := []
deriving DecidableEq, Repr

/-- A tile's registers (R55, R56, R67, R69): the two weight sets with their checksum column, the accumulator array of 256 rows of 2,048
bits, each 64 elements of 32 bits, 16 of 32 or 7 of 160 (R59, log entry 246), whether what has been read into them for the item was
poisoned, and TIME_BASE when it took the item. -/
structure TileRegs where
  active : WeightSet := {}
  shadow : WeightSet := {}
  acc : List (List Acc) := List.replicate 256 []
  poisoned : Bool := false
  since : Nat := 0
deriving DecidableEq, Repr

/-- The transform array: items waiting, what each tile runs and holds, units' work, tiles retired for good (R416), per-tile error
counts. -/
structure Txa where
  queue : List TxaItem := []
  regs  : Tbl TileRegs := []
  work  : List ArrayWork := []
  nextWork : Nat := 0
  tiles : Tbl (Option TxaItem) := []
  stuck : List Nat := []           -- retired by R416
  draining : List Nat := []        -- enable bit cleared while an item runs (R73)
  ueCount : Tbl Nat := []
deriving DecidableEq, Repr

/-- Parameters of a forge item (R77, R98, R323). -/
structure ForgeParams where
  set : Nat
  level : Nat
  ext : Nat
  deltaExp : Nat
  inputExp : Int
  srcType : Nat
  complex : Nat
  rmode : Nat
  batch : Nat
  noise : Nat
  output : Nat
  encRoot : Nat
  srcAddr : Nat
  srcStride : Nat
  count : Nat
  period : Nat
  rot : Nat
  ptIndex : Nat
  rndDraw : Nat
  noiseDraw : Nat
  noiseSample : Nat
  noiseCount : Nat
  temp : Nat
  keepP16 : Nat
  keepValue : Nat
  outAddr : Nat
  pkAddr : Nat
  reserved : Bool
deriving DecidableEq, Repr

structure ForgeItem where
  cmd : Nat
  slot : Nat
  p : ForgeParams
deriving DecidableEq, Repr

/-- The forge item being worked on: next plaintext and limb, failures, poison (R91, R97). -/
structure ForgeRun where
  item : ForgeItem
  work : Nat                       -- address of the forge work buffer
  pt   : Nat := 0
  ord  : Nat := 0
  fftRetried : Bool := false
  limbRetried : Bool := false
  fftDone : Bool := false          -- this plaintext's FFT has passed its check
  fftFailed : Bool := false        -- this plaintext's FFT has failed twice
  epoch : Nat := 0                 -- the job's epoch at the dispatch, which the draws take (R86, R156)
  inputs : List (List (Int × Int)) := [] -- per plaintext its data values in the order of R81
  coefs : List Int := []           -- the coefficients of this plaintext
  keys : List (List Byte) := []    -- the limbs of the public key, p0's then p1's, read once (R99)
  keyLines : List (List Nat) := [] -- the lines of each that are to be poisoned
  spoiled : Bool := false          -- an array item of the unit in work was written poisoned (R71)
  ranged : List Nat := []          -- plaintexts with a component out of range or poisoned
  counter : Nat := 0               -- n_local of plaintext 0 when OUTPUT = 1
  poisoned : Bool := false
  retriedAny : Bool := false
  status : Nat := 0                -- code of the first error
deriving DecidableEq, Repr

/-- The forge. -/
structure Forge where
  queue : List ForgeItem := []
  run   : Option ForgeRun := none
deriving DecidableEq, Repr

/-- What a stream's words are for (R121). -/
inductive StreamUse where
  | keyLimb (cmd digit ord limb : Nat)
  | ctLimb (message limb : Nat)
  | noise (cmd pt tag : Nat)
deriving DecidableEq, Repr

/-- A stream of the seed expander (R119, R125). -/
structure Stream where
  slot  : Nat
  use   : StreamUse
  input : List Byte
  q     : Nat                      -- residues below q are accepted; 0: raw bytes
  len   : Nat                      -- residues, or bytes, wanted
  ready : Bool
  allotted : Bool := false         -- its lines collect in the item's allotment (R137)
deriving DecidableEq, Repr

/-- A lane with its stream (R119 to R122). -/
structure LaneRun where
  stream  : Stream
  state   : List W64               -- the 25 lanes of the permutation's input
  perms   : Nat := 0
  got     : List Nat := []         -- residues accepted (or bytes released), newest first
  skip    : Nat := 0               -- released words to discard again after a lane change (R120)
  retried : Bool := false
  stalled : Bool := false
  written : Nat := 0               -- lines of a ciphertext limb that a memory write port has taken (R122)
deriving DecidableEq, Repr

/-- Parameters of a key-stream item (R134, R325). -/
structure KeyParams where
  index : Nat
  expectGalois : Nat
  due : Nat
  expectKind : Nat
  level : Nat
  digitFirst : Nat
  digitCount : Nat
  limbFirst : Nat
  limbCount : Nat
  allot : Nat
  sliver : Nat
  region : Nat
  dest : Nat
  reserved : Bool
deriving DecidableEq, Repr

structure KeyItem where
  cmd : Nat
  slot : Nat
  tag : Nat
  p : KeyParams
  dlv : Nat := 0                   -- its item in the delivery unit, made at its issue
deriving DecidableEq, Repr

/-- A directory entry's fields (R131). -/
structure KeyEntry where
  seed : List Byte
  payload : Nat
  galois : Nat
  fingerprint : Nat
  objectTag : Nat
  status : Nat
  log2n : Nat
  set : Nat
  kind : Nat
  digits : Nat
  alpha : Nat
  valid : Bool
deriving DecidableEq, Repr

/-- A key-stream item in work (R136 to R138). -/
structure KeyRun where
  item  : KeyItem
  entry : KeyEntry
  due   : Nat
  dlv   : Nat                      -- the delivery item that carries its lines
  units : List Nat                 -- staging units of its read stream and of what is left of its allotment (R305)
  freeTiles : Nat                  -- tiles of the allotment not freed yet (R137)
  tileLines : Tbl (Nat × Bool) := [] -- per key tile the lines accepted or dropped, and whether one was dropped
deriving DecidableEq, Repr

/-- A registration in work (R132). -/
structure KeyReg where
  cmd : Nat
  slot : Nat
  cont : Nat
  index : Nat
deriving DecidableEq, Repr

/-- The seed expander and key streaming. -/
structure Sdx where
  streams : List Stream := []
  lanes   : Tbl (Option LaneRun) := []
  held    : Tbl Nat := []          -- per lane the lines of key limbs its buffer holds (R122)
  draining : List Nat := []
  regs    : List KeyReg := []
  keyQueue : List KeyItem := []
  keys    : List KeyRun := []
  done    : List (StreamUse × List Nat) := []  -- finished streams not yet consumed
  moved   : List LaneRun := []     -- runs of retired lanes that wait for another (R120)
deriving DecidableEq, Repr

/-- A call of the trail generator (R143, R144); `part` is the unit's request it belongs to. -/
structure RsvCall where
  slot : Nat
  key : Nat
  ctr : Nat
  retried : Bool := false
  part : Option Nat := none
deriving DecidableEq, Repr

/-- What a unit draws for (R158): a forge item, the shaping of a sample, a chunk of an epoch, the repeat at a place, the mixing of a
hamper. -/
inductive RsvUser where
  | forge (cmd : Nat)
  | shape (slot sample : Nat)
  | chunk (cmd epoch chunk : Nat)
  | again (cmd place : Nat)
  | hamper (cmd seq : Nat)
deriving DecidableEq, Repr

/-- A unit's request: the calls it has left to be taken, and those that cores are making. -/
structure RsvWork where
  id : Nat
  slot : Nat
  user : RsvUser
  left : Nat
  running : Nat := 0
deriving DecidableEq, Repr

/-- What a call that has returned released (R146, R150): its words and the uniform floats their elements are. -/
structure RsvReturn where
  call : RsvCall
  words : List W32
  floats : List Nat
deriving DecidableEq, Repr

/-- The random service (R158). -/
structure Rsv where
  cores : Tbl (Option RsvCall) := []
  draining : List Nat := []
  moved : List RsvCall := []       -- calls to be taken by another core after a retirement
  waiting : List RsvCall := []     -- requests that wait for a free core, oldest first
  works : List RsvWork := []       -- units' requests, oldest first
  nextWork : Nat := 0
  drawn : List (Nat × RsvUser) := [] -- units' requests of which every call has returned, by slot
  returned : Option RsvReturn := none -- the latest call returned
deriving DecidableEq, Repr

/-- A decode item (R165). -/
structure DecodeItem where
  slot : Nat
  format : Nat
  sample : Nat
  addr : Nat
  len : Nat
  crc : Nat
  stream : Option Nat              -- none: BAT takes the lowest free context at dispatch (R230)
  opn : Bool
  close : Bool
  entry : Nat
  refresh : Nat
  stats : Nat
deriving DecidableEq, Repr

/-- A picture a stream holds: in its reference pool, or waiting for its output (R181, R182). -/
structure RefPic where
  order : Int
  coded : Nat                      -- decoding order number
  cvs : Nat                        -- number of its coded video sequence
  width : Nat
  height : Nat
  components : Nat
  bitDepth : Nat
  sampling : Nat
  mark : RefMark
  forOutput : Bool                 -- it may be passed on
  waits : Bool                     -- its output is to come
  passed : Bool := false           -- it has been passed on
  flags : Nat                      -- FLAGS of its frame record
  tainted : Bool
  buffer : Nat
deriving DecidableEq, Repr

/-- A stream context (R177). -/
structure Ctx where
  opn : Bool := false
  owner : Nat := 0
  entry : Nat := 0                 -- entry mode (R183)
  seeking : Bool := false          -- it discards access units until its next entry point
  refresh : Nat := 0               -- REFRESH_FRAMES
  hidden : Nat := 0                -- pictures still not for output after an entry with ENTRY = 1
  outFrom : Option Int := none     -- after a recovery point: the order from which pictures are for output
  skipLeading : Bool := false      -- the RASL pictures of its entry are not decoded
  sequence : Option MediaHeader := none -- the active sequence
  frames : Nat := 0                -- frames output since entry
  pictures : Nat := 0
  cvs : Nat := 0                   -- coded video sequences begun
  pool : List RefPic := []
deriving DecidableEq, Repr

/-- A decode item in work on a core. -/
structure DecodeRun where
  item : DecodeItem
  cores : List Nat                 -- the cores working on it, each with one decoding unit
  header : Option MediaHeader := none -- the header that has passed its checks
  passed : Option MediaHeader := none -- a header that has passed them and waits for its buffers (R170)
  head : Option PictureHead := none -- the video picture under way
  taken : Nat := 0                 -- its decoding units that a core has taken (R178)
  buffer : Option Nat := none      -- frame buffer of the picture under way
  coef : Option Nat := none        -- coefficient buffer of a progressive JPEG
  code : Nat := 0                  -- first deciding failure
  frames : List Nat := []          -- buffers output, newest first
  mine : List Nat := []            -- buffers of every picture decoded from the sample
  before : Option Ctx := none      -- its context as the sample found it (R259)
deriving DecidableEq, Repr

/-- A sample that has been decoded and waits for shaping: its frames in output order and its working buffers. -/
structure Decoded where
  slot : Nat
  sample : Nat
  frames : List Nat
  work : List Nat := []
  started : Bool := false          -- its sums have gone to the array (R208)
  spoiled : Bool := false          -- an array item of its sums was written poisoned (R71)
deriving DecidableEq, Repr

/-- The media decoders. -/
structure Mdc where
  queue : List DecodeItem := []
  runs  : List DecodeRun := []
  ctxs  : Tbl Ctx := []
  lastCtx : Tbl (Option Nat) := [] -- per video core the context it worked in last
  draining : List Nat := []
  outcomes : List Decoded := []
deriving DecidableEq, Repr

/-- A tokenise item (R193). -/
structure TokItem where
  slot : Nat
  sample : Nat
  addr : Nat
  len : Nat
  crc : Nat
  gzip : Bool
  policy : Nat
  mask : Nat
  bos : Nat
  eos : Nat
  maxTokens : Nat
  outType : Nat
  offsets : Nat
deriving DecidableEq, Repr

/-- A piece or a special of the text, in input order (R197, R198): a special's token, the piece's bytes with the source offset of
each byte, or what the merge core made of them, tokens with their source offsets. -/
inductive TokPiece where
  | special (id offset : Nat)
  | bytes (bs : List (Byte × Nat))
  | tokens (ts : List (Nat × Nat))
deriving DecidableEq, Repr

/-- A tokenise item in work. -/
structure TokRun where
  item : TokItem
  buffer : Nat
  text : Nat                       -- text bytes read
  pieces : List TokPiece
  image : Option Nat := none       -- the image core that inflates its text (R161)
  invalid : Nat
  corrupt : Nat                    -- code of the deciding failure, 0 for none
  replaced : Bool
  raw : Bool
deriving DecidableEq, Repr

/-- The loaded merge table (R203). -/
structure TokTable where
  vocab : Nat := 0
  specials : List (Nat × List Byte) := []
  defaultClass : Nat := 0
  maxPiece : Nat := 0
  byteMap : List Nat := []
  matrix : List Nat := []
  ranges : List (Nat × Nat × Nat) := []     -- START, END, CLASS
  merges : List (Nat × Nat × Nat) := []     -- LEFT, RIGHT, RESULT
  crc : Nat := 0
deriving DecidableEq, Repr

structure Tok where
  queue : List TokItem := []
  run   : Option TokRun := none
  table : TokTable := {}
  cores : Tbl (Option Nat) := []   -- per merge core the piece it works on (R192)
  draining : List Nat := []
deriving DecidableEq, Repr

/-- One operation of a shaping program (R210). -/
structure ShapeOp where
  op : Nat
  purpose : Nat
  p : List Nat
deriving DecidableEq, Repr

/-- A shaping program (R209). -/
structure ShapeProg where
  scale : List Nat
  mean : List Nat
  componentsOut : Nat
  layout : Nat
  outType : Nat
  matrix : Nat
  ops : List ShapeOp
deriving DecidableEq, Repr

/-- A bucket entry (R231). -/
structure Bucket where
  sizeMax : Nat
  sampleBytes : Nat
  hamper : Nat
  elemType : Nat
  blanket : Nat
deriving DecidableEq, Repr

/-- Parameters of a batch stage (R226, R325). -/
structure BatParams where
  indexAddr : Nat
  bucketAddr : Nat
  hostRing : Nat
  logAddr : Nat
  epochFirst : Nat
  epochs : Nat
  hostTimeout : Nat
  logEntries : Nat
  hostEntries : Nat
  buckets : Nat
  lastHamper : Nat
  repeatOnExhaust : Nat
  chunksAhead : Nat
  specialMask : Nat
  maxTokens : Nat
  stats : Nat
  policy : Nat
  bos : Nat
  eos : Nat
  tokOutType : Nat
  offsets : Nat
  shapeProg : Nat
  reserved : Bool
deriving DecidableEq, Repr

/-- What the work on a sample came to (R233): its code (0 good), its result bytes, its normalised binary32 elements frame by
frame (R222), whether the host reported it. -/
structure Outcome where
  code : Nat
  result : List Byte := []
  norm : List (List Nat) := []
  truncated : Bool := false
  host : Bool := false
  poisoned : Bool := false
deriving DecidableEq, Repr

/-- A sample this engine has finished, not yet taken up by BAT, and the pool buffer its result lies in. -/
structure Finished where
  slot : Nat
  sample : Nat
  out : Outcome
  buffer : Option Nat := none
deriving DecidableEq, Repr

/-- Where a chunk is (R241): an engine's die, or a record of the host ring. -/
inductive ChunkAt where
  | engine (die : Nat)
  | host (record : Nat)
deriving DecidableEq, Repr

/-- A slot of a hamper (R239). -/
structure HamperSlot where
  sample : Nat
  position : Nat
  spare : Bool
  rep : Bool
  out : Outcome
deriving DecidableEq, Repr

/-- A hamper, open or closed (R236). -/
structure Hamper where
  bucket : Nat
  lastPosition : Nat
  short : Bool := false
  cursor : BucketCursor := {}      -- its bucket's cursors at its last placement
  slots : List HamperSlot
deriving DecidableEq, Repr

/-- A sample that is processed again to fill a slot (R235): the forward position, the SEQ of its record, the sample with its position, the
engine it is with, and its outcome. -/
structure Repeat where
  here : Nat
  seq : Nat
  sample : Nat
  source : Nat
  die : Nat
  out : Option Outcome := none
deriving DecidableEq, Repr

/-- A bucket's assembly (R234): its positions, cursors, calls of place, and the sample waited for. -/
structure Assembly where
  positions : List Nat := []
  f : Nat := 0
  t : Int := -1
  placed : List (Option (Nat × Nat)) := []  -- samples placed and their positions, newest first; none before a restore
  passed : List Nat := []          -- positions that its cursors had passed before a restore
  spareFor : Option (Nat × Nat) := none  -- forward position whose corrupt sample looks for a spare, and the SEQ of its record
  again : Option Repeat := none    -- a repeat that is processed
  opn : Option Hamper := none
  cursor : BucketCursor := {}      -- the cursors after the last hamper passed on (R401)
deriving DecidableEq, Repr

/-- A batch stage at work (R226 to R245). -/
structure BatStage where
  cmd : Nat
  slot : Nat
  p : BatParams
  waitLink : Nat
  waitEn : Bool
  waitFull : Bool
  sigLink : Nat
  sigEn : Bool
  sigFull : Bool
  prog : Option ShapeProg
  n : Nat
  buckets : List Bucket
  epoch : Nat
  epochsDone : Nat := 0
  nextChunk : Nat := 0
  chunks : List (Nat × ChunkAt) := []      -- outstanding chunks
  reassign : List Nat := []                -- chunks reclaimed, ahead of new ones
  outcomes : Tbl (Option Outcome) := []    -- by position
  spares : List (Nat × Nat) := []          -- positions issued as spares ahead of their chunk, and their dies (R237)
  asm : List Assembly := []
  closed : List Hamper := []               -- closed, not passed on
  ending : Bool := false                   -- the epoch's assembly has ended
  hamperSeq : Nat := 0
  logSeq : Nat := 0
  nextRecord : Nat := 0
  entry : Bool := false                    -- its wait for the next entry has been granted
  asked : Bool := false                    -- that wait has been made
  stopped : Bool := false                  -- no further chunk (R398, R402)
  mixing : Option Bool := none             -- the array has the mixup of the next hamper: whether an item of it was poisoned (R208)
deriving DecidableEq, Repr

/-- The batcher: its stages, and the samples finished here. -/
structure Bat where
  stages : List BatStage := []
  results : List Finished := []
deriving DecidableEq, Repr

/-- Who asked for a buffer (R250): an ALLOC command, the opening of a message on a port (R375), or a stage or unit, which
takes its answer when it next acts. -/
inductive ReqOwner where
  | cmd (id : Nat)
  | landing (port serial : Nat)
  | stage
deriving DecidableEq, Repr

/-- A free presented and not yet accepted (R252, R253). -/
structure FreeReq where
  slot : Nat
  addr : Nat
  cmd : Option Nat
deriving DecidableEq, Repr

/-- The answer to a stage's request: 0x0000 with the address, or the code of its refusal. -/
structure AllocAnswer where
  slot : Nat
  size : Nat
  code : Nat
  addr : Nat
deriving DecidableEq, Repr

/-- An allocation request not yet answered (R250, R256, R257): granted, its held count has risen; blocked, it waits for margin or,
reserved, for an index that no earlier granted request is promised. -/
structure AllocReq where
  slot : Nat
  size : Nat
  owner : ReqOwner
  reserved : Bool
  blocked : Bool
  granted : Bool := false
  since : Nat := 0                         -- TIME_BASE when it was blocked last
  missed : Bool := false                   -- it has waited for a refill, and counts in POOL_CACHE_MISSES
deriving DecidableEq, Repr

/-- A state-bit operation of a pool, with its slot and index (R253): the set of an allocation, the check of a free. -/
inductive BitOp where
  | set (slot index : Nat)
  | check (slot index : Nat)
deriving DecidableEq, Repr

/-- A pool (R248 to R260). -/
structure Pool where
  enabled : Bool := false
  starting : Bool := false                 -- POOL_ENABLE = 1 accepted, initialisation running
  cache : List Nat := []                   -- newest first
  head : Nat := 0
  tail : Nat := 0
  inRing : Nat := 0
  refill : Bool := false
  spill : List Nat := []                   -- indices being written to the ring tail
  ops : List BitOp := []                   -- state-bit operations in the order of acceptance (R253), oldest first
  held : Tbl Nat := []                     -- per slot
  reserved : Tbl Nat := []                 -- per slot
  waits : List AllocReq := []              -- requests not answered, oldest first
  frees : List FreeReq := []               -- frees waiting for room in the check queue
  quarantined : List Nat := []             -- indices of buffers withdrawn (R260, R414)
  lost : Nat := 0                          -- buffers lost with ring entries that named none of them (R260)
  deadRing : Nat := 0                      -- ring entries whose buffers are withdrawn
  damaged : List (Nat × Nat) := []         -- indices whose cache entries will read with an uncorrectable error, and RAS_LAST_ADDR then (R414)
  allocated : List (Nat × Nat) := []       -- index and slot of buffers handed out and not freed
deriving DecidableEq, Repr

structure Pools where
  tbl : Tbl Pool := []
  answers : List AllocAnswer := []         -- stages' requests answered and not yet taken up
deriving DecidableEq, Repr

/-- A tensor descriptor (R264). -/
structure Desc where
  base : Nat
  version : Nat
  elemType : Nat
  rank : Nat
  space : Nat
  idxRole : Nat
  idxMode : Nat
  perm : List Nat
  dims : List Nat
  strides : List Int
  fill : Nat
  idxAddr : Nat
  idxCount : Nat
  idxType : Nat
  idxDim : Nat
  rowsLog2 : Nat
  colsLog2 : Nat
  crc : Nat
  crcOk : Bool
  reserved : Bool
deriving DecidableEq, Repr

/-- Parameters of a delivery item (R277, R324). -/
structure DlvParams where
  srcDesc : Nat
  dstDescs : List Nat
  due : Nat
  dieMask : Nat
  sliver : Nat
  region : Nat
  link : Nat
  srcKind : Nat
  horizon : Bool
  reserved : Bool
deriving DecidableEq, Repr

/-- A line to be written: destination, address, enabled bytes, poison, the delivery tile that completes it, its sub-request, whether
that fails, the SDX lane whose buffer holds it, and its turn and key tile. -/
structure OutLine where
  dst : Nat := 0
  addr : Nat
  space : Nat
  data : List (Nat × Byte)
  poison : Bool
  tile : Nat := 0
  sub : Nat := 0
  failed : Bool := false
  lane : Option Nat := none
  rank : Nat := 1                          -- its turn among its item's lines at a port: 0 of an allotment (R137), 2 after all others (R273)
  part : Nat := 0                          -- key tile: 2j stored and 2j + 1 regenerated of pair j (R136)
  num : Nat := 0                           -- its number among the lines of a receiver (R293)
  pos : Nat := 0                           -- its address in destination order, before the sliver map (R298)
deriving DecidableEq, Repr

/-- A receiver of a multicast: a die and one of the item's destinations there (R292 to R295). -/
structure Remote where
  die : Nat
  dst : Nat
  own : Bool := false                      -- on the issuing die
  credits : Nat := 64
  sent : Nat := 0                          -- its lines sent with the group
  acks : List Nat := []                    -- the numbers of its lines acknowledged
  detached : Bool := false
  caught : Nat := 0                        -- lines of its catch-up sent
  closed : Bool := false                   -- it knows its last line
  gone : Bool := false                     -- its die has left the part
deriving DecidableEq, Repr

/-- What a delivery belongs to. -/
inductive DlvOwner where
  | cmd (id : Nat)
  | key (id : Nat)
  | container (message : Nat)
  | manifest (cmd segment : Nat)
  | remote (die item dst : Nat)            -- a receiver of another die's item, by its number there
  | poisoning (segment : Nat)              -- the poisoning of a faulted slot's regions for a segment (R283)
deriving DecidableEq, Repr

/-- A delivery in work (R277 to R299). -/
structure Dlv where
  id : Nat
  owner : DlvOwner
  slot : Nat
  tag : Nat
  due : Nat
  scratch : Bool                           -- has a scratchpad destination
  local_ : Bool                            -- this die receives
  src : Option Desc := none
  entry : Option LinkEntry := none         -- SRC_KIND 1
  dsts : List Desc := []
  sliver : Nat := 0xFF
  region : Nat := 0
  dispatched : Bool := false
  units : List Nat := []                   -- staging units reserved (R305)
  fetched : Nat := 0                       -- delivery tiles fetched
  asked : Nat := 0                         -- delivery tiles whose reads have been asked of the fetch ports (R290)
  want : List (Nat × Nat) := []            -- reads that no queue has room for yet: delivery tile and granule
  coming : List (Nat × Nat) := []          -- reads in the queues of the fetch ports: delivery tile and granule
  tiles : Nat := 0                         -- delivery tiles in all
  ready : List OutLine := []               -- lines ready for a port
  group : List OutLine := []               -- every line made so far for the receivers of a multicast, in order
  next : Nat := 0                          -- how many of them the group has sent
  flight : Nat := 0                        -- lines written and not acknowledged
  remotes : List Remote := []
  catchups : List (Nat × Nat) := []        -- detached receivers, die and destination, in order of detachment
  failedSubs : List (Nat × Nat × Nat) := [] -- receiver die, destination and number of failed sub-requests
  firstFail : Option OutLine := none       -- the first failed line in sub-request order (R299)
  written : Nat := 0
  poisonedLines : Nat := 0
  dropped : Nat := 0
  oor : Nat := 0
  firstOor : Option Nat := none
  status : Nat := 0
  unwritten : Bool := false
  late : Bool := false
  catchup : Bool := false
  open_ : Bool := false                    -- more lines may be made
  here : Bool := false                     -- every line of it for this die's scratchpad has been accepted (R30)
  laneLast : Option Bool := none           -- whether its last accepted line came from a lane, none before any is accepted
  refused : Bool := false                  -- refused at issue: only its destination's poisoning is under way (R269)
  errors : List Nat := []                  -- source granules whose read drew an error response
  soiled : List Nat := []                  -- source granules whose read returned poisoned data (R291)
  free : Nat := 0                          -- the unstated bytes of poisoned elements (log entry 3)
deriving DecidableEq, Repr

/-- A request in the queue of a fetch port (R291): granules lo to hi − 1 of one 4 KiB window, with the item, delivery tile and granule
of each read it serves. -/
structure FetchReq where
  lo : Nat
  hi : Nat
  users : List (Nat × Nat × Nat)
  sent : Bool := false
deriving DecidableEq, Repr

/-- A line on a scratchpad write port awaiting its acknowledgement (R289). -/
structure Flight where
  item : Nat
  line : OutLine
deriving DecidableEq, Repr

/-- A scratchpad bank's power handshake (R296). -/
structure Bank where
  req : Bool := false
  ack : Bool := false
  on : Bool := false
  flight : Nat := 0
  parked : Bool := false                   -- powered off under the handshake: its lines are held
deriving DecidableEq, Repr

/-- The delivery unit. -/
structure DlvUnit where
  items : List Dlv := []
  nextId : Nat := 0
  fetch : Tbl (List FetchReq) := []        -- per fetch port its queue, oldest first
  ports : Tbl (List Flight) := []
  lastLine : Tbl (Option OutLine) := []    -- what SP_W* of a port carried last
  banks : Tbl Bank := []
  reservedUnits : List Nat := []           -- shared PFG/SDX staging units taken
  links : Tbl (List LinkEntry) := []       -- entries of the semaphore links, oldest first
  lastDone : Option (Bool × Option Bool) := none -- the delivery completed last: a key item, whether its last accepted line came from a lane
  lastCond : Option (Nat × Nat) := none    -- slot and TAG recorded if the next arrival is late (R286)
  horizonTag : Tbl Nat := []               -- per slot the TAG that raised its horizon last
  arrived : Bool := false                  -- arrived at the stop that ends the running segment
  barArrive : Bool := false                -- level of BAR_ARRIVE (toggle)
  barPermit : Bool := false
  arrivals : List Nat := []                -- dies whose ARRIVE the lead holds
  permitted : Bool := false
  reported : Bool := false                 -- BAR_REPORT seen in the running segment
deriving DecidableEq, Repr

/-- Parameters of an ingest stage (R107, R325). -/
structure IngestParams where
  logAddr : Nat
  logEntries : Nat
  set : Nat
  outLevel : Nat
  region : Nat
  sliver : Nat
  dest : Nat
  destStride : Nat
  manifest : Nat
  destSlots : Nat
  dieMask : Nat
  reserved : Bool
deriving DecidableEq, Repr

/-- An ingest stage at work (R107 to R115). -/
structure IngestStage where
  cmd : Nat
  slot : Nat
  p : IngestParams
  waitLink : Nat
  waitEn : Bool
  sigLink : Nat
  sigEn : Bool
  sigFull : Bool
  logSeq : Nat := 0
  accepted : Nat := 0
  assigned : List (Nat × List Nat) := []   -- segment and OBJECT_TAGs by ciphertext slot
  entry : Bool := false                    -- its wait for the next entry has been granted
  asked : Bool := false                    -- that wait has been made
  nextManifest : Nat := 0                  -- first segment whose manifest is owed
  stopped : Bool := false                  -- HALT fetched: takes no further container
  ended : Bool := false                    -- its command has finished; manifests stay owed until the job ends
  abandoned : Bool := false                -- by a fault or a save (R310, R402)
deriving DecidableEq, Repr

/-- Why a container is refused (R115): code, FIRST_BAD_OFFSET, when it was decided, and whether it was cut off. -/
structure Turned where
  code : Nat
  offset : Nat
  time : Nat
  cut : Bool
deriving DecidableEq, Repr

/-- A message being landed, and afterwards its container until its buffer is freed (R374 to R376, R110 to R113). -/
structure Msg where
  id : Nat
  region : Nat
  port : Nat
  qp : Nat
  slotIndex : Nat
  jobSlot : Nat
  kind : Nat
  pool : Nat
  buffer : Nat
  placement : Nat
  link : Nat
  bytes : List Byte := []                  -- message bytes received
  opn : Bool := true
  header : Bool := false                   -- checks 1 to 5 passed
  checked : Nat := 0                       -- payload words that have passed check 6
  stage : Option Nat := none               -- the ingest stage (its command) that has taken it
  refused : Option Turned := none          -- decided; the record is written when the message has ended
  due : Option (Nat × Nat) := none         -- segment and ciphertext slot (R108)
  limb : Nat := 0                          -- next of the 2 C_o limbs to be passed to DLV
  retried : Bool := false                  -- the current c1 limb has been regenerated after a mismatch
  retriedAny : Bool := false
  poisoned : List Nat := []                -- c1 limbs delivered poisoned
  dlv : Option Nat := none
  expanded : List Nat := []                -- c1 limbs regenerated
  sums : Tbl Nat := []                     -- of each c1 limb: the sum modulo 8,191 of the residues SDX has written (R112)
  recorded : Bool := false                 -- its ingest record is written
deriving DecidableEq, Repr

/-- A packet waiting for its message to open (R375): in the open queue with its two requests made, or, not yet asked for, until the queue has
room and the opens before it of its slot are decided (R374, log entry 130). -/
structure OpenReq where
  serial : Nat
  qp : Nat
  region : Nat
  slotIndex : Nat
  frame : Frame
  behind : List Frame := []                -- later packets of its queue pair
  emptyGranted : Bool := false
  asked : Bool := false                    -- its two requests have been made
  denied : Bool := false                   -- its region or queue pair has been disabled (R377)
  refused : Bool := false                  -- the pool answered POOL_NO_FIT or RETRY_LATER
  buffer : Option Nat := none
deriving DecidableEq, Repr

/-- A lane's training (R362 to R365). -/
structure LaneTrain where
  training : Bool := false
  taps : List Nat := [0, 0, 0, 0, 0]       -- transmitter tap state of R363
  ready : Bool := false                    -- RX_READY as this end sends it
  partnerReady : Bool := false
  sends : Option Nat := none               -- the training frame it sends continuously
deriving DecidableEq, Repr

/-- What the entry of a queue pair puts into the frames sent to its requester (R370): the addresses, the QPN, the UDP source port, DSCP, and
the VLAN with its priority when frames carry a tag. -/
structure TxPath where
  mac : Nat
  ip : Nat
  qpn : Nat
  udpSport : Nat
  dscp : Nat
  vlan : Option (Nat × Nat)
deriving DecidableEq, Repr

/-- What the engine transmits on a port (log entry 8). -/
inductive TxFrame where
  | ack (qp psn msn : Nat) (path : TxPath)
  | nak (qp syndrome psn : Nat) (path : TxPath)
  | rnr (qp psn code : Nat) (path : TxPath)
  | cnp (qp : Nat) (path : TxPath)
  | addressReply
  | pfc (priority : Nat) (pause : Bool)
  | train (lane frame : Nat)
  | basePage (lanes : Nat)
deriving DecidableEq, Repr

/-- A network port (R360 to R367). -/
structure Port where
  state : Nat := 0                         -- PORT_STATE
  lanesUp : Nat := 0
  retired : Nat := 0
  laneSet : Nat := 0                       -- lanes fixed by negotiation
  trained : Nat := 0                       -- lanes trained in this sequence
  lanes : Tbl LaneTrain := []
  tried : Bool := false                    -- has ended its first attempt (R364)
  realign : Bool := false
  joining : Nat := 0                       -- lanes joining at the realignment
  going : Option Via := none               -- PORT_ENABLE = 0 waits for the deadline (R367)
  dropped : Nat := 0                       -- lanes that send DROP, until the partner echoes it (R363)
  lost : Bool := false                     -- a link loss waits for its retraining
  waiting : Bool := false                  -- training waits for SAG_RESUME (R367, R429)
  heldDown : Bool := false                 -- removal (R396)
  bufferBytes : Nat := 0
  pause : Bool := false                    -- PFC pause sent
  paused : Bool := false                   -- the partner paused the transmission
  held : List TxFrame := []                -- frames that wait for the end of the pause
  openQ : List OpenReq := []
  quiesced : Bool := false                 -- NET_QUIESCED raised for this QUIESCE
deriving DecidableEq, Repr

/-- QP_STATE_SEL of R380. -/
inductive QpState where
  | disabled | ready | error
deriving DecidableEq, Repr

/-- A queue pair (R369 to R371). -/
structure Qp where
  state : QpState := .disabled
  epsn : Nat := 0
  remoteIp : Nat := 0
  hopMac : Nat := 0
  remoteQpn : Nat := 0
  udpSport : Nat := 0
  dscp : Nat := 0
  vlanId : Nat := 0
  vlanEn : Bool := false
  vlanPcp : Nat := 0
  port : Nat := 0
  nakSent : Bool := false
  unacked : Nat := 0
  msn : Nat := 0
  stopping : Option Via := none            -- QP_DISABLE waits for its open messages
  lastCnp : Option Nat := none             -- TIME_BASE at the last CNP
  cur : Option (Option Nat × Nat) := none  -- the operation under way: its message, none when its data are discarded, and offset
deriving DecidableEq, Repr

/-- LR_STATE_SEL of R380. -/
inductive LrState where
  | disabled | enabled | disabling
deriving DecidableEq, Repr

/-- A landing region (R372). -/
structure Lr where
  state : LrState := .disabled
  vaBase : Nat := 0
  rkey : Nat := 0
  jobTag : Nat := 0
  slots : Nat := 0
  slotLog2 : Nat := 0
  anyQp : Bool := false
  qp : Nat := 0
  link : Nat := 0
  jobSlot : Nat := 0
  pool : Nat := 0
  kind : Nat := 0
  place : Nat := 0
  stopping : Option Via := none
deriving DecidableEq, Repr

structure Net where
  ports : Tbl Port := []
  qps : Tbl Qp := []
  lrs : Tbl Lr := []
  msgs : List Msg := []
  stages : List IngestStage := []
  nextMsg : Nat := 0
  nextSerial : Nat := 0
  tx : List (Nat × TxFrame) := []          -- port and frame, in the order sent
deriving DecidableEq, Repr

/-- An ANNOUNCE heard (R386, R387). -/
structure Heard where
  group : Nat
  members : Nat
  health : Nat
  kind : Nat
deriving DecidableEq, Repr

/-- What goes to the die-to-die links (R386, R292, R293). -/
inductive D2d where
  | fed (bytes : List Byte)
  | fedExcept (link : Nat) (bytes : List Byte)  -- a message for all dies passed on by every link but one
  | line (die item dst slot tag due num rank addr : Nat) (data : List (Nat × Byte)) (poison last : Bool)
  | credit (die item dst num : Nat) (dropped : Bool)
  | notice (die item dst slot tag due : Nat) (what : DlvNotice)
  | fault (slot code : Nat)
  | admission (slot : Nat) (recAddr : Nat)
  | outcome (index abort : Nat)           -- how a forwarded write has ended on the serving engine, 0 for success (R333)
  | access (die op index sub : Nat) (data : List Byte)  -- a request served by another die, with the bytes a write carries (R333, R338)
deriving DecidableEq, Repr

/-- The FORWARD pieces of a die (R386): the sequence number of the next, those held that came before it, and the bytes of the write under
way. -/
structure Pieces where
  next : Nat := 0
  held : List (Nat × List Byte) := []
  bytes : List Byte := []
deriving DecidableEq, Repr

/-- Federation (R386 to R394). -/
structure Fed where
  hcState : Nat := 0
  lead : Nat := 0xFF
  admitted : Nat := 0
  missing : Nat := 0
  health : Nat := 0
  closeAclk : Nat := 0
  linksUp : Nat := 0
  version : Nat := 0
  present : Nat := 0                       -- DIES_PRESENT
  engineState : Nat := 0
  heard : Tbl (Option Heard) := []
  called : Tbl (Option Heard) := []        -- announcements heard in service, for the next election (R394)
  regs : List Nat := []                    -- registrations a candidate holds
  regWith : Option Nat := none
  group : Nat := 0                         -- FED_GROUP, retained
  members : Nat := 0                       -- FED_MEMBERS, retained
  groupUsed : Nat := 0                     -- values in effect since the last release (R392)
  membersUsed : Nat := 0
  electing : Bool := false
  announced : Bool := false
  seq : Nat := 0
  pieceSeq : Nat := 0                      -- FORWARD pieces sent
  pieces : Tbl Pieces := []                -- by die, the FORWARD pieces received
  tx : List D2d := []
  fatalCause : Nat := 0                    -- retained
deriving DecidableEq, Repr

/-- An open segmented transfer (R340). -/
structure Xfer where
  write : Bool
  index : Nat
  sub : Nat
  target : Nat
  total : Nat
  moved : Nat
  toggle : Bool                            -- TOGGLE the next segment must carry
  data : List Byte
deriving DecidableEq, Repr

/-- A transfer mailbox (R338). -/
structure Mailbox where
  word : Nat := 0
  data : Nat := 0
  abort : Nat := 0
  seq : Nat := 0
  segBytes : Nat := 0
  last : Bool := false
  toggle : Bool := false
  busy : Bool := false
  nextBytes : Nat := 0                     -- SEG_BYTES and LAST that the request under way will leave
  nextLast : Bool := false
  wait : Option Nat := none                -- the core whose WIN_ABORT a read waits for (R337)
  area : List Byte := []
  xfer : Option Xfer := none
deriving DecidableEq, Repr

/-- What an object held before a write that other engines may still refuse with BUSY (R48, R100, R205), or the arming that waits for
every engine to match (R312). -/
inductive Before where
  | set (x : PrimeSet)
  | root (x : EncRoot)
  | table (x : TokTable) (valid : Nat)
  | arm
deriving DecidableEq, Repr

/-- A write that waits for an operation or for other engines (R335). -/
structure LongWrite where
  via : Via
  index : Nat
  sub : Nat
  localDone : Bool                         -- this engine has finished its part
  othersDone : Bool
  abort : Nat := 0
  bits : Nat := 0                          -- units of an enable write under test (R73)
deriving DecidableEq, Repr

/-- A resource of the resource map (R344). -/
inductive Res where
  | pin (n : Nat)
  | timer (n : Nat)
  | region (base len : Nat)
deriving DecidableEq, Repr

structure Claim where
  holder : Nat                             -- index * 256 + subindex
  res : Res
deriving DecidableEq, Repr

structure Dict where
  mailboxes : Tbl Mailbox := []
  winAbort : Tbl Nat := []
  long : List LongWrite := []
  kept : List (Nat × Before) := []         -- by index: what a write whose outcome elsewhere is not known has changed
  answers : List (Nat × Nat) := []         -- the answers to requests of other dies: the die and the abort code, 0 for success
  claims : List Claim := []                -- in claim order
  readBack : Tbl Nat := []                 -- per core, what its last window read returned
  readError : Tbl Bool := []               -- per core, whether that read drew the error response
deriving DecidableEq, Repr

/-- A status pin (R430): whether a 1 µs pulse runs. Its drive and level follow from its holder. -/
structure Pin where
  pulse : Bool := false
deriving DecidableEq, Repr

/-- What a status pin does (R430): high-impedance, an input, or driven push-pull to a level. -/
inductive PinDrive where
  | off
  | input
  | drives (level : Bool)
deriving DecidableEq, Repr

/-- An event source (R347, R358). -/
structure Src where
  cfg : Nat := 0x1F8080
  latch : Bool := false
  pending : Bool := false
  active : Bool := false
  held : Bool := false
  core : Nat := 0
  level : Nat := 0                         -- LEVEL when taken (R350)
  firings : Nat := 0
  lastCode : Nat := 0
deriving DecidableEq, Repr

/-- A source group's hold-off (R353). -/
structure Grp where
  held : Nat := 0
  running : Bool := false
  limCount : Nat := 0                      -- limits the hold-off began with
  limTime : Nat := 0
deriving DecidableEq, Repr

/-- A management core as the controller sees it (R351, R354). -/
structure Core where
  sleeping : Bool := false
  wake : Bool := false
deriving DecidableEq, Repr

structure Evt where
  srcs : Tbl Src := []
  grps : Tbl Grp := []
  cores : Tbl Core := []
  lastCore : Nat := 3                      -- the core chosen last for any source
deriving DecidableEq, Repr

/-- A trace record waiting to be written (R419). -/
structure TraceRec where
  time : Nat
  kind : Nat
  unit : Nat
  slot : Nat
  code : Nat
  trigger : Bool
  data1 : Nat
  data0 : Nat
deriving DecidableEq, Repr

structure Trace where
  running : Bool := false
  queue : List TraceRec := []
  next : Nat := 0                          -- number of the next record written
  overflow : Bool := false
deriving DecidableEq, Repr

/-- Reliability: error counts of PFG/SDX staging units (R416). -/
structure Ras where
  pfgCount : Tbl Nat := []
deriving DecidableEq, Repr

/-- The test access port (R421, R426): its instruction register, the shift stage of the data register selected last, the update stage of
the boundary register, and what TDO has shifted out last. Lists of bits start with the one nearest TDO. -/
structure Tap where
  ir : Nat := 0x02
  dr : List Bool := []
  boundary : List Bool := []
  tdo : List Bool := []
deriving DecidableEq, Repr

/-- Removal, sag (R396 to R399). -/
structure Removal where
  state : Nat := 0
  sag : Bool := false
deriving DecidableEq, Repr

/-- The state of one engine. -/
structure State where
  pending : List Instr := []
  drawn   : Nat := 0                       -- free values drawn: the model's own field
  boot    : Boot := {}
  objs    : Tbl Nat := []                  -- object values by index * 256 + subindex
  mem     : Mems := {}
  sets    : Tbl PrimeSet := []
  roots   : Tbl EncRoot := []
  pairs   : Tbl Pair := []
  slots   : Tbl Slot := []
  cmds    : List Cmd := []                 -- in the order of their fetch
  seq     : Seq := {}
  arbs    : Tbl Arb := []
  txa     : Txa := {}
  forge   : Forge := {}
  sdx     : Sdx := {}
  rsv     : Rsv := {}
  mdc     : Mdc := {}
  tok     : Tok := {}
  bat     : Bat := {}
  pools   : Pools := {}
  dlv     : DlvUnit := {}
  net     : Net := {}
  fed     : Fed := {}
  dict    : Dict := {}
  pins    : Tbl Pin := []
  evt     : Evt := {}
  ras     : Ras := {}
  trace   : Trace := {}
  tap     : Tap := {}
  removal : Removal := {}
deriving DecidableEq, Repr

/-- Why a run stops with a fault. No command of this block stops the machine by a fault: errors are effects on State. -/
inductive Fault where
  /-- Raised by no command; kept so that the type has a name to show. Safe. -/
  | none_
deriving DecidableEq, Repr

/-- Why the model refuses a command. -/
inductive Refusal where
  /-- A command that has no meaning yet, by its mnemonic; raised by exec's refused arms. Safe. -/
  | notModelled (mnemonic : String)
deriving DecidableEq, Repr

/-- The engine with power off and reset asserted, before anything has happened: every object at its default, every memory with
nothing listed, no command waiting. -/
def State.reset : State := {}

end Sys2Proof.Machine
end

