-- ==== Sys2Proof/Machine/Ops.lean ====
section
/-! DEFINITION. The named operations over tables, memories, objects, counters, free values, claims of resources, trace
records, the arbitration of R25 and the event controller's sources. -/

namespace Sys2Proof.Machine

/-! ## Sparse tables -/

/-- What a table holds at a key; an unlisted key reads d. -/
def tblGet {α : Type} (d : α) : Tbl α → Nat → α
  | [], _ => d
  | (k', v) :: t, k => if k' < k then tblGet d t k else if k' = k then v else d

/-- A table from its first entry above a key on. -/
def tblDrop {α : Type} : Tbl α → Nat → Tbl α
  | [], _ => []
  | (k', v) :: t, k => if k' ≤ k then tblDrop t k else (k', v) :: t

/-- A table with a new value at a key; the value an unlisted key reads as leaves no entry. -/
def tblSet {α : Type} [DecidableEq α] (d : α) : Tbl α → Nat → α → Tbl α
  | [], k, v => if v = d then [] else [(k, v)]
  | (k', v') :: t, k, v =>
    if k' < k then (k', v') :: tblSet d t k v
    else if v = d then tblDrop ((k', v') :: t) k
    else (k, v) :: tblDrop ((k', v') :: t) k

/-- A table is in canonical form: keys strictly rising, no entry equal to the default. -/
def tblWf {α : Type} [DecidableEq α] (d : α) : Tbl α → Bool
  | [] => true
  | (k, v) :: t => decide (v ≠ d) && t.all (fun e => decide (k < e.1)) && tblWf d t

/-! ## Memories -/

/-- The byte at an address; an unlisted byte reads 0 (log entry 2 for memory nothing has written). -/
def cellGet (m : List Host.Cell) (a : Nat) : Byte := tblGet (0 : Byte) m a

/-- n bytes from an address on. -/
def cellsGet (m : List Host.Cell) (a n : Nat) : List Byte := (List.range n).map (fun i => cellGet m (a + i))

/-- The n-byte little-endian number at an address (R10). -/
def cellsNat (m : List Host.Cell) (a n : Nat) : Nat := leNat (cellsGet m a n)

/-- A memory with bytes stored from an address on. -/
def cellsSet : List Host.Cell → Nat → List Byte → List Host.Cell
  | m, _, [] => m
  | m, a, b :: bs => cellsSet (tblSet (0 : Byte) m a b) (a + 1) bs

/-- A memory with selected bytes of a line stored: offset and value. -/
def cellsMask : List Host.Cell → Nat → List (Nat × Byte) → List Host.Cell
  | m, _, [] => m
  | m, a, (o, b) :: bs => cellsMask (tblSet (0 : Byte) m (a + o) b) a bs

/-- Add numbers to a set kept as a list without repeats. -/
def setAdd (l : List Nat) (ns : List Nat) : List Nat := ns.foldl (fun acc n => if acc.contains n then acc else acc ++ [n]) l

/-- Remove numbers from a set. -/
def setDel (l : List Nat) (ns : List Nat) : List Nat := l.filter (fun n => !ns.contains n)

/-- The granules of size g that n bytes from address a on touch. -/
def granules (g a n : Nat) : List Nat := if n = 0 then [] else (List.range ((a + n - 1) / g + 1 - a / g)).map (· + a / g)

/-- The granules that n bytes from address a on cover whole. -/
def wholeGranules (g a n : Nat) : List Nat := (granules g a n).filter (fun k => a ≤ k * g && k * g + g ≤ a + n)

/-- Store bytes in device memory without poison: a granule wholly covered loses its mark (R412). -/
def memWrite (s : State) (a : Nat) (bs : List Byte) : State :=
  { s with mem := { s.mem with
      dev := cellsSet s.mem.dev a bs, devPoison := setDel s.mem.devPoison (wholeGranules 64 a bs.length) } }

def memBytes (s : State) (a n : Nat) : List Byte := cellsGet s.mem.dev a n
def memNat (s : State) (a n : Nat) : Nat := cellsNat s.mem.dev a n

/-- A granule of device memory reads poisoned: it is marked so, or the memory fabric answers its read with an error (R412). -/
def granulePoisoned (s : State) (g : Nat) : Bool := s.mem.devPoison.contains g || s.mem.failing.contains g

/-- Some granule of n bytes of device memory reads poisoned. -/
def memPoisoned (s : State) (a n : Nat) : Bool := (granules 64 a n).any (granulePoisoned s)

def txaWrite (s : State) (a : Nat) (bs : List Byte) : State :=
  { s with mem := { s.mem with
      txa := cellsSet s.mem.txa a bs, txaPoison := setDel s.mem.txaPoison (wholeGranules 64 a bs.length) } }

def txaPoisoned (s : State) (a n : Nat) : Bool := (granules 64 a n).any (fun g => s.mem.txaPoison.contains g)

def pfgWrite (s : State) (a : Nat) (bs : List Byte) : State :=
  { s with mem := { s.mem with
      pfg := cellsSet s.mem.pfg a bs, pfgPoison := setDel s.mem.pfgPoison (wholeGranules 64 a bs.length) } }

def pfgPoisoned (s : State) (a n : Nat) : Bool := (granules 64 a n).any (fun g => s.mem.pfgPoison.contains g)

/-! ## Objects and counters -/

/-- The stored value of an object. -/
def objGet (s : State) (index sub : Nat) : Nat := tblGet (objDefault (objKey index sub)) s.objs (objKey index sub)

/-- Store an object's value. -/
def objSet (s : State) (index sub v : Nat) : State :=
  { s with objs := tblSet (objDefault (objKey index sub)) s.objs (objKey index sub) v }

/-- The value at which every counter saturates (R346). -/
def counterMax : Nat := 2 ^ 64 - 1

/-- n plus k, saturating at 2^64 − 1. -/
def satAdd (n k : Nat) : Nat := if n + k ≤ counterMax then n + k else counterMax

/-- A counter rises by k. -/
def bumpBy (s : State) (index sub k : Nat) : State := objSet s index sub (satAdd (objGet s index sub) k)

/-- A counter rises by 1. -/
def bump (s : State) (index sub : Nat) : State := bumpBy s index sub 1

/-! ## Poisoned writes (R412) -/

/-- RAS_POISON_WRITTEN counts the lines and granules written poisoned (R422). -/
def poisonWritten (s : State) (n : Nat) : State := bumpBy s 0x9010 8 n

/-- Store bytes in device memory with the poison attribute on every granule touched. -/
def memWritePoisoned (s : State) (a : Nat) (bs : List Byte) : State :=
  poisonWritten { s with mem := { s.mem with
      dev := cellsSet s.mem.dev a bs, devPoison := setAdd s.mem.devPoison (granules 64 a bs.length) } } (granules 64 a bs.length).length

/-- Lines of TXA staging are written with the mark. -/
def txaMark (s : State) (gs : List Nat) : State :=
  poisonWritten { s with mem := { s.mem with txaPoison := setAdd s.mem.txaPoison gs } } gs.length

def txaWritePoisoned (s : State) (a : Nat) (bs : List Byte) : State :=
  txaMark { s with mem := { s.mem with txa := cellsSet s.mem.txa a bs } } (granules 64 a bs.length)

def pfgWritePoisoned (s : State) (a : Nat) (bs : List Byte) : State :=
  poisonWritten { s with mem := { s.mem with
      pfg := cellsSet s.mem.pfg a bs, pfgPoison := setAdd s.mem.pfgPoison (granules 64 a bs.length) } } (granules 64 a bs.length).length

/-- A scratchpad line written through its byte enables (R289): a full line without poison clears the mark, a poisoned write
sets it, a masked write without poison leaves it. -/
def spWrite (s : State) (addr : Nat) (data : List (Nat × Byte)) (poison : Bool) : State :=
  let s := if poison then poisonWritten s 1 else s
  { s with mem := { s.mem with
      sp := cellsMask s.mem.sp addr data,
      spPoison :=
        if poison then setAdd s.mem.spPoison [addr / 512]
        else if data.length == 512 then setDel s.mem.spPoison [addr / 512]
        else s.mem.spPoison } }

/-! ## Free values -/

/-- Draw a value the spec does not state (log entry 3), below a bound. -/
def drawFree (s : State) (bound : Nat) : Nat × State :=
  (Config.freeValue s.drawn % bound, { s with drawn := s.drawn + 1 })

/-- n unstated bytes, drawn from number `base` on. -/
def freeBytes (base n : Nat) : List Byte := (List.range n).map (fun i => BitVec.ofNat 8 (Config.freeValue (base + i)))

/-- Draw numbers for n unstated bytes: the first of them, for freeBytes. -/
def reserveFree (s : State) (n : Nat) : Nat × State := (s.drawn, { s with drawn := s.drawn + n })

/-! ## Slots and pairs -/

def slotOf (s : State) (n : Nat) : Slot := tblGet {} s.slots n
def setSlot (s : State) (n : Nat) (x : Slot) : State := { s with slots := tblSet {} s.slots n x }
def modSlot (s : State) (n : Nat) (f : Slot → Slot) : State := setSlot s n (f (slotOf s n))

def pairOf (s : State) (p : Nat) : Pair := tblGet {} s.pairs p
def setPair (s : State) (p : Nat) (x : Pair) : State := { s with pairs := tblSet {} s.pairs p x }

/-- A slot holds an admitted job. -/
def slotBusy (s : State) (n : Nat) : Bool := decide ((slotOf s n).state ≠ .idle)

/-- The 64 slot numbers. -/
def slotNumbers : List Nat := List.range 64

/-- SLOT_STATE as R328 numbers it. -/
def SlotState.code : SlotState → Nat
  | .idle => 0 | .running => 1 | .parked => 2 | .halted => 3 | .faulted => 4

/-- The die this engine is on (R1); 0 until the straps are latched. -/
def dieId (s : State) : Nat :=
  match s.boot.fuses with
  | some f => f.dieId
  | none => 0

/-- The engine runs in full-array mode (R3, R4). -/
def fullArray (s : State) : Bool :=
  match s.boot.fuses with
  | some f => f.arrayMode == 1
  | none => false

/-- Tiles present in this mode (R3, R73). -/
def tilesFused (s : State) : Nat := if fullArray s then 120 else 60

/-- The dies of PACKAGE_KIND (R6). -/
def packageDies (s : State) : Nat :=
  match s.boot.fuses with
  | some f => f.packageKind
  | none => 0

/-- The number of bits set in a mask of 64 bits. -/
def popCount (m : Nat) : Nat := (List.range 64).foldl (fun n k => if m.testBit k then n + 1 else n) 0

/-- The head count has closed here with this engine admitted (R391). -/
def headCountClosed (s : State) : Bool := s.fed.hcState == 3 || s.fed.hcState == 4

/-- A die the head count admitted. -/
def dieAdmitted (s : State) (d : Nat) : Bool := headCountClosed s && s.fed.admitted.testBit d

/-- The other admitted dies. -/
def otherDies (s : State) : List Nat := (List.range 8).filter (fun d => dieAdmitted s d && d != dieId s)

/-- What is sent over the die-to-die links is kept in the order sent (log entry 8). -/
def send (s : State) (m : D2d) : State := { s with fed := { s.fed with tx := s.fed.tx ++ [m] } }

/-! ## Trace (R419) -/

/-- Records wait in the order in which they reach the trace unit, those of one HCLK in ascending UNIT. -/
def insertRec (r : TraceRec) (q : List TraceRec) : List TraceRec :=
  let earlier (x : TraceRec) : Bool := x.time != r.time || x.unit ≤ r.unit
  q.takeWhile earlier ++ r :: q.dropWhile earlier

/-- A record reaches the trace unit: it is queued when its KIND is enabled and trace runs, or dropped when 256 wait.
One whose CODE is a non-zero TRACE_TRIGGER_CODE carries TRIGGER (R420, log entry 231). -/
def traceRec (s : State) (kind unit slot code data1 data0 : Nat) : State :=
  if s.trace.running && (objGet s 0xA000 5).testBit kind then
    if s.trace.queue.length < 256 then
      let hit := objGet s 0xA000 6 != 0 && objGet s 0xA000 6 == code % 2 ^ 16
      let r : TraceRec :=
        { time := s.boot.timeBase, kind := kind, unit := unit, slot := slot, code := code, trigger := hit, data1 := data1, data0 := data0 }
      { s with trace := { s.trace with queue := insertRec r s.trace.queue } }
    else bump { s with trace := { s.trace with overflow := true } } 0xA000 0x0A
  else s

/-! ## The event controller (R347 to R356) -/

def srcOf (s : State) (n : Nat) : Src := tblGet {} s.evt.srcs n
def setSrc (s : State) (n : Nat) (x : Src) : State := { s with evt := { s.evt with srcs := tblSet {} s.evt.srcs n x } }
def grpOf (s : State) (g : Nat) : Grp := tblGet {} s.evt.grps g
def setGrp (s : State) (g : Nat) (x : Grp) : State := { s with evt := { s.evt with grps := tblSet {} s.evt.grps g x } }
def coreOf (s : State) (c : Nat) : Core := tblGet {} s.evt.cores c
def setCore (s : State) (c : Nat) (x : Core) : State := { s with evt := { s.evt with cores := tblSet {} s.evt.cores c x } }

/-- Fields of EVT_CFG (R358). -/
def Src.target (x : Src) : Nat := bitsOf x.cfg 19 16
def Src.enabled (x : Src) : Bool := x.cfg.testBit 20
def Src.outBit (x : Src) : Bool := x.cfg.testBit 21
def Src.order (x : Src) : Nat := bitsOf x.cfg 15 8
def Src.cfgLevel (x : Src) : Nat := bitsOf x.cfg 7 0

/-- RUNNING_c: the least LEVEL over the sources active on the core, 0x100 with none (R350). -/
def running (s : State) (c : Nat) : Nat :=
  s.evt.srcs.foldl (fun m e => if e.2.active && e.2.core == c && e.2.level < m then e.2.level else m) 0x100

/-- The sources pending and routed to a core, in ascending number. -/
def pendView (s : State) (c : Nat) : List Nat :=
  (s.evt.srcs.filter (fun e => e.2.pending && e.2.core == c)).map (·.1)

/-- A presentable source of a core (R351). -/
def presentable (s : State) (c n : Nat) : Bool :=
  let x := srcOf s n
  x.pending && x.core == c && !x.active && x.cfgLevel < running s c

/-- EVT_TOP: the presentable source with the least LEVEL, then the least ORDER, then the least number; 0xFFFF with none. -/
def evtTop (s : State) (c : Nat) : Nat :=
  let better (a b : Nat) : Bool :=
    let x := srcOf s a
    let y := srcOf s b
    x.cfgLevel < y.cfgLevel || (x.cfgLevel == y.cfgLevel && x.order < y.order)
  ((pendView s c).filter (presentable s c)).foldl
    (fun best n => if best == 0xFFFF then n else if better n best then n else best) 0xFFFF

/-- The event line of a core (R351): low while reset is asserted (R428). -/
def eventLine (s : State) (c : Nat) : Bool :=
  !s.boot.inReset && objGet s (0x7600 + c) 1 == 0 && (pendView s c).any (presentable s c)

/-- The event-out line (R356). -/
def eventOut (s : State) : Bool := s.evt.srcs.any (fun e => e.2.outBit && e.2.pending)

/-- A core's wake request is asserted in the first HCLK of its sleep in which a cut-short occurs or some source is pending and
routed to it, and stays for the sleep (R354). -/
def wakeUp (s : State) (c : Nat) : State :=
  let x := coreOf s c
  if x.sleeping && !x.wake then bump (setCore s c { x with wake := true }) 0x7700 0x62 else s

/-- The core a newly pending source goes to (R352): of its TARGET mask the one with the greatest RUNNING, ties round-robin
after the core chosen last. -/
def routeCore (s : State) (target : Nat) : Nat :=
  let order := (List.range 4).map (fun i => (s.evt.lastCore + 1 + i) % 4)
  let cands := order.filter (fun c => target.testBit c)
  cands.foldl (fun best c => if running s best < running s c then c else best) (cands.headD 0)

/-- PENDING becomes set (R348) and the source is routed (R352); an active one, and one whose TARGET is 0, keeps its core. -/
def setPending (s : State) (n : Nat) : State :=
  let x := srcOf s n
  if x.pending then s
  else if x.active || x.target == 0 then wakeUp (setSrc s n { x with pending := true }) x.core
  else
    let c := routeCore s x.target
    let s := setSrc s n { x with pending := true, core := c }
    wakeUp { s with evt := { s.evt with lastCore := c } } c

/-- A number enters a list in ascending order. -/
def insertAsc (n : Nat) : List Nat → List Nat
  | [] => [n]
  | x :: xs => if n ≤ x then n :: x :: xs else x :: insertAsc n xs

/-- The sources made pending in one HCLK are routed in ascending number (R352). -/
def routeAll (s : State) (due : List Nat) : State := (due.foldr insertAsc []).foldl setPending s

/-- The sources with a firing that a group holds. -/
def heldIn (s : State) (g : Nat) : List Nat := (s.evt.srcs.filter (fun e => e.1 / 16 == g && e.2.held)).map (·.1)

/-- The sources that a group's release makes pending: those held, but for one whose TARGET is 0 (R348, R353). -/
def releasable (s : State) (g : Nat) : List Nat := (heldIn s g).filter (fun n => (srcOf s n).target != 0)

/-- A group's hold-off ends: it holds nothing, and its timer stops (R353). -/
def endHoldoff (s : State) (g : Nat) : State :=
  (heldIn s g).foldl (fun s n => setSrc s n { srcOf s n with held := false }) (setGrp s g { grpOf s g with held := 0, running := false })

/-- The release of a group's hold-off (R353): every held source becomes pending. -/
def releaseGroup (s : State) (g : Nat) : State := routeAll (endHoldoff s g) (releasable s g)

/-- Some core of a TARGET mask is asleep. -/
def targetAsleep (s : State) (target : Nat) : Bool :=
  (List.range 4).any (fun c => target.testBit c && (coreOf s c).sleeping)

/-- A group holds a firing of a source whose TARGET includes a sleeping core (R354). -/
def holdsForSleeper (s : State) (g : Nat) : Bool :=
  s.evt.srcs.any (fun e => e.1 / 16 == g && e.2.held && targetAsleep s e.2.target)

/-- The cores asleep for which a group to be cut short holds a firing. -/
def cutFor (s : State) (gs : List Nat) : List Nat :=
  (List.range 4).filter (fun c => (coreOf s c).sleeping && s.evt.srcs.any (fun e => gs.contains (e.1 / 16) && e.2.held && e.2.target.testBit c))

/-- Cut short (R354): every group holding a firing of a source whose TARGET includes a sleeping core is released. The sources released are
routed together with those of the same HCLK in `due` (R355). -/
def cutShortWith (s : State) (due : List Nat) : State :=
  let gs := (List.range 16).filter (holdsForSleeper s)
  let s' := gs.foldl (fun s g => bump (endHoldoff s g) 0x7700 0x61) s
  (cutFor s gs).foldl wakeUp (routeAll s' (due ++ gs.flatMap (releasable s)))

/-- Cut short (R354). -/
def cutShort (s : State) : State := cutShortWith s []

/-- A firing of an enabled source with a TARGET (R348). -/
def firesOn (s : State) (n : Nat) : Bool := (srcOf s n).enabled && (srcOf s n).target != 0

/-- A source's group coalesces its firing (R353), unless a core of its TARGET sleeps (R354). -/
def coalesces (s : State) (n : Nat) : Bool :=
  let g := n / 16
  ((grpOf s g).running || 2 ≤ objGet s (0x7500 + g) 1 || objGet s (0x7500 + g) 2 != 0) && !targetAsleep s (srcOf s n).target

/-- A group holds one firing more; the first starts its hold-off, under the limits of that moment (R353). -/
def holdFiring (s : State) (n : Nat) : State :=
  let g := n / 16
  let grp := grpOf s g
  setGrp (setSrc s n { srcOf s n with held := true }) g
    (if grp.running then { grp with held := grp.held + 1 }
     else { held := 1, running := true, limCount := objGet s (0x7500 + g) 1, limTime := objGet s (0x7500 + g) 2 })

/-- A firing is latched and counted (R347), and held while its group coalesces. -/
def latchFiring (s : State) (n code : Nat) : State :=
  let x := srcOf s n
  let s := setSrc s n { x with latch := true, firings := satAdd x.firings 1, lastCode := code }
  if firesOn s n && coalesces s n then holdFiring s n else s

/-- A group's held count has reached the count limit its hold-off began with (R353). -/
def holdsFull (s : State) (g : Nat) : Bool :=
  (grpOf s g).running && 2 ≤ (grpOf s g).limCount && (grpOf s g).limCount ≤ (grpOf s g).held

/-- Sources fire in one HCLK (R347, R348, R352, R353, R355): their firings are latched; then the hold-offs that are full are released;
then every newly pending source is routed. -/
def fireAll (s : State) (ns : List Nat) (code : Nat) : State :=
  let s' := ns.foldl (fun s n => latchFiring s n code) s
  let full := ((ns.map (· / 16)).eraseDups).filter (holdsFull s')
  routeAll (full.foldl endHoldoff s') (ns.filter (fun n => firesOn s n && !coalesces s n) ++ full.flatMap (releasable s'))

/-- A source fires. -/
def fire (s : State) (n code : Nat) : State := fireAll s [n] code

/-! ## Errors -/

/-- The counter of an error code (index, subindex), 0 for none, and its event source, 256 for none: R53, R76, R97, R117, R141,
R160, R190, R207, R224, R247, R262, R276, R302, R329, R357, R408, R423. -/
def errInfo (code : Nat) : Nat × Nat × Nat :=
  if 0x1300 ≤ code || 0x20 ≤ code % 256 then (0, 0, 256)
  else match code with
  | 0x0201 => (0x8020, 1, 32) | 0x0202 => (0x8020, 2, 32) | 0x0203 => (0x8020, 3, 32) | 0x0204 => (0x8020, 4, 32)
  | 0x0205 => (0x8020, 5, 32) | 0x0206 => (0x8020, 6, 32) | 0x0207 => (0x8020, 7, 32) | 0x0208 => (0x8020, 8, 192)
  | 0x0301 => (0x8030, 1, 16) | 0x0302 => (0x8030, 3, 17) | 0x0303 => (0x8030, 4, 18) | 0x0304 => (0x8030, 5, 18)
  | 0x0305 => (0x8030, 6, 19) | 0x0306 => (0x8030, 7, 19)
  | 0x0401 => (0x8040, 1, 22) | 0x0402 => (0x8040, 2, 21) | 0x0403 => (0x8040, 3, 20) | 0x0404 => (0, 0, 21)
  | 0x0405 => (0x8040, 0x0B, 22) | 0x0406 => (0x8040, 0x0C, 22)
  | 0x0501 => (0x8050, 4, 32) | 0x0502 => (0x8050, 5, 32) | 0x0503 => (0x8050, 6, 32) | 0x0504 => (0x8050, 7, 33)
  | 0x0505 => (0x8050, 9, 34)
  | 0x0601 => (0x8060, 0x09, 25) | 0x0602 => (0x8060, 0x0A, 26) | 0x0603 => (0x8060, 0x0B, 26)
  | 0x0604 => (0x8060, 0x0C, 25) | 0x0605 => (0x8060, 0x0D, 25) | 0x0606 => (0x8060, 0x0E, 25)
  | 0x0607 => (0x8060, 0x0F, 25) | 0x0608 => (0x8060, 0x10, 23) | 0x0609 => (0x8060, 0x11, 24)
  | 0x0701 => (0x8070, 2, 29) | 0x0702 => (0x8070, 3, 27) | 0x0703 => (0x8070, 4, 28) | 0x0704 => (0x8070, 5, 29)
  | 0x0801 => (0x8080, 1, 64) | 0x0802 => (0x8080, 2, 65) | 0x0803 => (0x8080, 3, 65) | 0x0804 => (0x8080, 4, 65)
  | 0x0805 => (0x8080, 5, 65) | 0x0806 => (0x8080, 6, 66) | 0x0807 => (0x8080, 7, 66) | 0x0808 => (0x8080, 8, 67)
  | 0x0809 => (0, 0, 68) | 0x080A => (0x8080, 0x0C, 69)
  | 0x0901 => (0x8090, 1, 72) | 0x0902 => (0, 0, 73) | 0x0903 => (0x8090, 3, 73) | 0x0904 => (0x8090, 4, 73)
  | 0x0905 => (0x8090, 5, 74) | 0x0906 => (0x8090, 6, 75) | 0x0907 => (0x8090, 7, 72)
  | 0x0A01 => (0x80A0, 1, 76) | 0x0A02 => (0x80A0, 2, 77) | 0x0A03 => (0x80A0, 3, 77)
  | 0x0B01 => (0x80B0, 0x10, 80) | 0x0B02 => (0x80B0, 0x11, 80) | 0x0B03 => (0x80B0, 0x12, 81)
  | 0x0B04 => (0x80B0, 0x13, 81) | 0x0B05 => (0x80B0, 0x14, 82) | 0x0B06 => (0x80B0, 0x15, 84)
  | 0x0B07 => (0x80B0, 0x16, 85)
  | 0x0C01 => (0x80C0, 0x10, 88) | 0x0C02 => (0x80C0, 0x11, 90) | 0x0C03 => (0x80C0, 0x12, 88)
  | 0x0C04 => (0x80C0, 0x13, 88) | 0x0C05 => (0x80C0, 0x14, 89) | 0x0C06 => (0x80C0, 0x15, 90)
  | 0x0C07 => (0x80C0, 0x16, 91)
  | 0x0D01 => (0x80D0, 1, 96) | 0x0D02 => (0x80D0, 2, 96) | 0x0D03 => (0x80D0, 3, 96) | 0x0D04 => (0x80D0, 4, 96)
  | 0x0D05 => (0x80D0, 5, 96) | 0x0D06 => (0x80D0, 6, 96) | 0x0D07 => (0x80D0, 7, 96) | 0x0D08 => (0x80D0, 8, 96)
  | 0x0D09 => (0x80D0, 9, 96) | 0x0D0A => (0x80D0, 0x0A, 97) | 0x0D0B => (0x80D0, 0x0B, 97)
  | 0x0E01 => (0x80E0, 1, 98) | 0x0E02 => (0x80E0, 2, 98) | 0x0E03 => (0x80E0, 3, 98) | 0x0E04 => (0x80E0, 4, 99)
  | 0x0E05 => (0x80E0, 5, 100) | 0x0E06 => (0x80E0, 6, 101) | 0x0E07 => (0x80E0, 7, 102)
  | 0x0F01 => (0x80F0, 1, 256) | 0x0F02 => (0x80F0, 2, 256) | 0x0F03 => (0x80F0, 3, 256) | 0x0F04 => (0x80F0, 4, 256)
  | 0x0F05 => (0x80F0, 5, 256) | 0x0F06 => (0x80F0, 6, 6) | 0x0F07 => (0x80F0, 7, 6) | 0x0F08 => (0x80F0, 8, 7)
  | 0x0F09 => (0x80F0, 9, 7) | 0x0F0A => (0x80F0, 0x0A, 7) | 0x0F0B => (0x80F0, 0x0B, 4)
  | 0x1101 => (0x1180, 1, 1) | 0x1102 => (0x1180, 2, 11) | 0x1103 => (0x1180, 3, 11) | 0x1104 => (0x1180, 4, 11)
  | 0x1105 => (0x1180, 5, 11) | 0x1106 => (0x1180, 6, 11) | 0x1107 => (0x1180, 7, 11) | 0x1108 => (0x1180, 8, 9)
  | 0x1201 => (0x9010, 1, 193) | 0x1202 => (0x9010, 2, 194) | 0x1203 => (0x9010, 3, 194) | 0x1204 => (0x9010, 4, 195)
  | 0x1205 => (0, 0, 196) | 0x1206 => (0x9010, 5, 197) | 0x1207 => (0x9010, 6, 198)
  | _ => (0, 0, 256)

/-- The UNIT of an error's trace record, from the code's first byte (R419). -/
def errUnit (code : Nat) : Nat :=
  match code / 256 with
  | 3 => 4 | 4 => 5 | 5 => 5 | 6 => 6 | 7 => 7 | 8 => 2 | 9 => 3 | 10 => 4 | 11 => 9 | 12 => 8 | 13 => 10 | 14 => 10
  | 16 => 1 | _ => 0

/-- Count an error in its counter and queue its trace record; RAS_LAST_CODE holds the last code of R423. -/
def countErr (s : State) (code slot : Nat) : State :=
  let i := errInfo code
  let s := if i.1 = 0 then s else bump s i.1 i.2.1
  let s := if code / 256 = 0x12 then objSet s 0x9000 5 code else s
  traceRec s 5 (errUnit code) slot code 0 0

/-- An error is raised: counted, traced, and its event source fires with its code. -/
def raiseErr (s : State) (code slot : Nat) : State :=
  let s := countErr s code slot
  let src := (errInfo code).2.2
  if src = 256 then s else fire s src code

/-- An error is raised on a source other than its class's own (R132, R357). -/
def raiseErrOn (s : State) (code slot src : Nat) : State := fire (countErr s code slot) src code

/-! ## Reads of memory and of SRAM that go wrong (R409 to R412) -/

/-- RAS_LAST_ADDR (R422): the kind of storage, 0 device memory, 1 TXA staging, 2 PFG/SDX staging, 3 other SRAM, and the address or
offset. -/
def lastBad (s : State) (kind addr : Nat) : State := objSet s 0x9000 4 (kind * 2 ^ 56 + addr % 2 ^ 48)

/-- RAS_LAST_ADDR for other SRAM, whose offset the spec does not state (log entry 3). -/
def otherSramAddr (s : State) : Nat × State :=
  let (a, s) := drawFree s (2 ^ 48)
  (3 * 2 ^ 56 + a % 2 ^ 48, s)

/-- An uncorrectable error in other SRAM. -/
def lastBadOther (s : State) : State :=
  let (a, s) := otherSramAddr s
  objSet s 0x9000 4 a

/-- The last poisoned granule of n bytes of device memory, as an address. -/
def lastPoisoned (s : State) (a n : Nat) : Nat :=
  64 * (((granules 64 a n).filter (granulePoisoned s)).getLastD (a / 64))

/-- A read of device memory failed, or returned poisoned data: RAS_MEM_ERROR (R412). -/
def memError (s : State) (slot addr : Nat) : State := lastBad (raiseErr s 0x1203 slot) 0 addr

/-- A memory read of n bytes that returns poisoned data raises RAS_MEM_ERROR once (R412). -/
def readChecked (s : State) (slot a n : Nat) : State := if memPoisoned s a n then memError s slot (lastPoisoned s a n) else s

/-- n bytes of device memory as control state reads them: poisoned, they are unstated (log entry 3). -/
def readMem (s : State) (slot a n : Nat) : List Byte × State :=
  if memPoisoned s a n then
    let (base, s) := reserveFree (readChecked s slot a n) n
    (freeBytes base n, s)
  else (memBytes s a n, s)

/-- A double-bit error in a word of staging (R412, R416): its granule is poisoned, the error raised, its place kept and, in TXA
staging, the owning tile's count raised, in PFG/SDX staging the 64 KiB unit's. A tile owns 256 KiB (R56). -/
def sramFault (s : State) (kind off slot : Nat) : State :=
  let s := lastBad (raiseErr s 0x1202 slot) kind off
  if kind == 1 then
    let t := off / 262144
    { s with mem := { s.mem with txaPoison := setAdd s.mem.txaPoison [off / 64] }
             txa := { s.txa with ueCount := tblSet 0 s.txa.ueCount t (tblGet 0 s.txa.ueCount t + 1) } }
  else if kind == 2 then
    let u := off / 65536
    { s with mem := { s.mem with pfgPoison := setAdd s.mem.pfgPoison [off / 64] }
             ras := { s.ras with pfgCount := tblSet 0 s.ras.pfgCount u (tblGet 0 s.ras.pfgCount u + 1) } }
  else s

/-- What SECDED made of the words of staging a unit read (R410, R412). -/
def sramReads (s : State) (kind slot : Nat) (r : SramReads) : State :=
  let s := (List.range r.corrected).foldl (fun s _ => raiseErr s 0x1201 63) s
  r.failed.foldl (fun s off => sramFault s kind off slot) s

/-! ## Resource map (R343, R344) -/

/-- The holder of a pin or timer, none when free. -/
def resHolder (s : State) (r : Res) : Option Nat := (s.dict.claims.find? (fun c => c.res == r)).map (·.holder)

/-- Two resources collide: the same pin or timer, or regions whose address ranges intersect. -/
def resClash (a b : Res) : Bool :=
  match a, b with
  | .region x n, .region y m => x < y + m && y < x + n
  | a, b => a == b

/-- A resource is a memory region. -/
def isRegion : Res → Bool
  | .region _ _ => true
  | _ => false

/-- The holder that keeps a claimant from resources, none when it may have them; beyond 64 regions it is 0x2081.40 (R345). -/
def claimBlocked (s : State) (holder : Nat) (rs : List Res) : Option Nat :=
  match s.dict.claims.find? (fun c => c.holder != holder && rs.any (resClash c.res)) with
  | some c => some c.holder
  | none =>
    if 64 < s.dict.claims.countP (fun c => c.holder != holder && isRegion c.res) + rs.countP isRegion
    then some (objKey 0x2081 0x40) else none

/-- Release what a claimant holds. -/
def release (s : State) (holder : Nat) : State :=
  { s with dict := { s.dict with claims := s.dict.claims.filter (fun c => c.holder != holder) } }

/-- What a claimant holds becomes rs: the old is released and the new claimed as one step. -/
def claim (s : State) (holder : Nat) (rs : List Res) : State :=
  let s := release s holder
  { s with dict := { s.dict with claims := s.dict.claims ++ rs.map (fun r => { holder := holder, res := r }) } }

/-! ## Pins (R345, R430) -/

/-- The pin a claimant object holds, none with 0xFF. -/
def pinHeld (s : State) (sub : Nat) : Option Nat :=
  s.dict.claims.findSome? (fun c => if c.holder == objKey 0x2040 sub then (match c.res with | .pin n => some n | _ => none) else none)

/-- A 1 µs pulse starts on the pin a claimant object holds. -/
def pulse (s : State) (sub : Nat) : State :=
  match pinHeld s sub with
  | some n => { s with pins := tblSet {} s.pins n { pulse := true } }
  | none => s

/-- DEGRADED (R6): fewer dies are admitted than the package has. -/
def degraded (s : State) : Bool := s.fed.present != 0 && s.fed.present < packageDies s

/-- While reset is asserted the boundary outputs are held by CLAMP, off by HIGHZ, driven from the boundary register by EXTEST (R421). -/
def tapHolds (s : State) : Bool := s.boot.inReset && s.tap.ir == 0x03
def tapOff (s : State) : Bool := s.boot.inReset && s.tap.ir == 0x04
def tapDrives (s : State) : Bool := s.boot.inReset && s.tap.ir == 0x00

/-- Cell k of the boundary register's update stage, for the pins (log entry 249). -/
def boundaryBit (s : State) (k : Nat) : Bool := s.tap.boundary.getD (Config.boundaryCell k) false

/-- What a status pin does (R28, R345, R356, R421, R430): its holder's function, the event-out line, the trigger input, the pulses of the
trigger output and of LATE_PIN, or DEGRADED; high-impedance with no holder; while reset is asserted what EXTEST and CLAMP drive from the
boundary register, else high-impedance. -/
def pinDrive (s : State) (n : Nat) : PinDrive :=
  if s.boot.inReset then
    (if (tapDrives s || tapHolds s) && boundaryBit s (2 * n + 1) then .drives (boundaryBit s (2 * n)) else .off)
  else match resHolder s (.pin n) with
    | some h =>
      if h == objKey 0x2040 1 then .drives (eventOut s)
      else if h == objKey 0x2040 2 then .input
      else if h == objKey 0x2040 5 then .drives (degraded s)
      else .drives (tblGet {} s.pins n).pulse
    | none => .off

/-! ## Arbitration (R25) -/

/-- The priority a unit gives a slot: its job's, or 0 once its pass-over count has reached 256. -/
def arbPriority (s : State) (unit slot : Nat) : Nat :=
  if 256 ≤ tblGet 0 (tblGet {} s.arbs unit).passed slot then 0 else (slotOf s slot).job.priority

/-- The distance of a slot from the one after the slot served last. -/
def arbDistance (s : State) (unit slot : Nat) : Nat :=
  match (tblGet {} s.arbs unit).last with
  | some l => (slot + 63 - l) % 64
  | none => slot

/-- The slot a unit takes among the ready ones, each with its urgency: the most urgent, then round-robin (R25). -/
def arbPickBy (s : State) (unit : Nat) (urgency : Nat → Nat) (ready : List Nat) : Option Nat :=
  ready.foldl (fun best n =>
    match best with
    | none => some n
    | some b =>
      let pn := urgency n
      let pb := urgency b
      if pn < pb || (pn == pb && arbDistance s unit n < arbDistance s unit b) then some n else some b) none

/-- The slot a unit takes among the ready ones (R25). -/
def arbPick (s : State) (unit : Nat) (ready : List Nat) : Option Nat := arbPickBy s unit (arbPriority s unit) ready

/-- The grant to a slot: its count returns to 0, every other ready slot's rises by 1. -/
def arbGrant (s : State) (unit slot : Nat) (ready : List Nat) : State :=
  let a := tblGet {} s.arbs unit
  let passed := ready.foldl (fun t n => if n == slot then t else tblSet 0 t n (min 256 (tblGet 0 t n + 1))) a.passed
  { s with arbs := tblSet {} s.arbs unit { last := some slot, passed := tblSet 0 passed slot 0 } }

/-- The units of R25: their numbers in the arbitration table. -/
def unitTxa : Nat := 0
def unitForge : Nat := 1
def unitSdx : Nat := 2
def unitRsv : Nat := 3
def unitImage : Nat := 4
def unitVideo : Nat := 5
def unitTok : Nat := 6
def unitDlv : Nat := 7
def unitKey : Nat := 8
def unitSeq : Nat := 11
def unitPool (p : Nat) : Nat := 16 + p
def unitPort (p : Nat) : Nat := 32 + p

end Sys2Proof.Machine
end

