-- ==== Sys2Proof/Machine/Operands.lean ====
section
/-! DEFINITION. The operand forms: the fields of a sequencer command (R319 to R321), its parameter block's address (R321), and
the parameter blocks (R322 to R325), read from a command word or from memory bytes. -/

namespace Sys2Proof.Machine

/-! ## Command words (R319 to R321) -/

/-- Command i of a bank: 16 bytes little-endian at byte 16i (R311, R319). -/
def bankWord (bank : List Host.Cell) (i : Nat) : Nat := cellsNat bank (16 * i) 16

/-- The active bank (R311). -/
def activeBank (s : State) : List Host.Cell := if s.seq.active == 0 then s.mem.bank0 else s.mem.bank1

def wOpcode (w : Nat) : Nat := bitsOf w 127 120
def wQueue (w : Nat) : Nat := bitsOf w 119 116

def wLoopSrc (w : Nat) : Bool := w.testBit 115
def wLoopEnd (w : Nat) : Nat := bitsOf w 111 100
def wLoopCount (w : Nat) : Nat := bitsOf w 47 0

def wWaitKind (w : Nat) : Nat := bitsOf w 115 114
def wSemLink (w : Nat) : Nat := bitsOf w 111 104
def wSemFull (w : Nat) : Bool := w.testBit 103
def wWaitArg (w : Nat) : Nat := bitsOf w 31 0

def wList (w : Nat) : Nat := bitsOf w 114 112
def wListMax (w : Nat) : Nat := bitsOf w 111 104
def wTarget (w : Nat) : Nat := bitsOf w 11 0

def wWaitLink (w : Nat) : Nat := bitsOf w 115 108
def wSigLink (w : Nat) : Nat := bitsOf w 107 100
def wWaitEn (w : Nat) : Bool := w.testBit 99
def wWaitFull (w : Nat) : Bool := w.testBit 98
def wSigEn (w : Nat) : Bool := w.testBit 97
def wSigFull (w : Nat) : Bool := w.testBit 96
def wTag (w : Nat) : Nat := bitsOf w 95 64
def wStep (w : Nat) : Nat := bitsOf w 63 48
def wOffset (w : Nat) : Nat := bitsOf w 47 0

/-- The opcodes of R319. -/
def opLoop : Nat := 0x01
def opEndloop : Nat := 0x02
def opWait : Nat := 0x03
def opSignal : Nat := 0x04
def opJump : Nat := 0x05
def opFetchlist : Nat := 0x06
def opSwitch : Nat := 0x07
def opHalt : Nat := 0x08
def opTxa : Nat := 0x10
def opForge : Nat := 0x11
def opDeliver : Nat := 0x12
def opKeyRegister : Nat := 0x13
def opKeyStream : Nat := 0x14
def opIngest : Nat := 0x15
def opBatch : Nat := 0x16
def opFetch : Nat := 0x17
def opAlloc : Nat := 0x18
def opFree : Nat := 0x19

/-- A work command (R319). -/
def isWork (op : Nat) : Bool := 0x10 ≤ op && op ≤ 0x19

/-- A stage command (R317). -/
def isStage (op : Nat) : Bool := op == opIngest || op == opBatch

/-- A command whose opcode is unlisted or whose reserved bits are not zero (R319, R320). -/
def badCommand (w : Nat) : Bool :=
  match wOpcode w with
  | 0x01 => bitsOf w 114 112 != 0 || bitsOf w 99 48 != 0 || (!wLoopSrc w && bitsOf w 47 32 != 0)
  | 0x02 => bitsOf w 115 0 != 0
  | 0x03 => wWaitKind w == 3 || bitsOf w 113 112 != 0 || bitsOf w 102 32 != 0
  | 0x04 => bitsOf w 115 112 != 0 || bitsOf w 102 0 != 0
  | 0x05 => bitsOf w 115 12 != 0
  | 0x06 => w.testBit 115 || bitsOf w 103 0 != 0
  | 0x07 => bitsOf w 115 12 != 0
  | 0x08 => bitsOf w 115 0 != 0
  | op => !isWork op

/-- The size in bytes of an opcode's parameter block (R319). -/
def blockBytes (op : Nat) : Nat :=
  match op with
  | 0x10 => 64 | 0x11 => 128 | 0x12 => 64 | 0x13 => 16 | 0x14 => 32 | 0x15 => 32 | 0x16 => 128 | 0x17 => 32 | 0x18 => 16
  | _ => 16

/-- The address of a command's parameter block (R321): i is the iteration index of the innermost loop open at its fetch. -/
def blockAddr (s : State) (c : Cmd) : Nat :=
  let i := match c.loops with
    | l :: _ => l.iter
    | [] => 0
  (slotOf s c.slot).job.paramBase + wOffset c.word + 64 * wStep c.word * i

/-! ## Fields of byte strings -/

/-- The little-endian number of n bytes at an offset. -/
def fld (b : List Byte) (off n : Nat) : Nat := leNat ((b.drop off).take n)

/-- All n bytes at an offset are zero. -/
def zeros (b : List Byte) (off n : Nat) : Bool := ((b.drop off).take n).all (· == 0)

/-- A two's-complement value of n bits. -/
def signed (n v : Nat) : Int := if v < 2 ^ (n - 1) then (v : Int) else (v : Int) - 2 ^ n

/-- The TXA_ITEM block (R322). -/
def txaBlock (b : List Byte) : TxaParams :=
  { mode := fld b 0 1, xtype := fld b 1 1, wtype := fld b 2 1, passes := fld b 3 1, rows := fld b 4 1, init := fld b 5 1,
    outType := fld b 6 1, set := fld b 7 1, limb := fld b 8 1, shift := fld b 9 1, wBase := fld b 16 4, wStride := fld b 20 4,
    xBase := fld b 24 4, xStride := fld b 28 4, initAddr := fld b 32 4, outAddr := fld b 36 4,
    reserved := zeros b 10 6 && zeros b 40 24 }

/-- The FORGE_ITEM block (R323). -/
def forgeBlock (b : List Byte) : ForgeParams :=
  { set := fld b 0 1, level := fld b 1 1, ext := fld b 2 1, deltaExp := fld b 3 1, inputExp := signed 8 (fld b 4 1),
    srcType := fld b 5 1, complex := fld b 6 1, rmode := fld b 7 1, batch := fld b 8 1, noise := fld b 9 1,
    output := fld b 10 1, encRoot := fld b 11 1, srcAddr := fld b 12 4, srcStride := fld b 16 4, count := fld b 20 4,
    period := fld b 24 4, rot := fld b 28 4, ptIndex := fld b 32 8, rndDraw := fld b 40 4, noiseDraw := fld b 44 4,
    noiseSample := fld b 48 8, noiseCount := fld b 56 4, temp := fld b 60 4, keepP16 := fld b 64 4, keepValue := fld b 68 4,
    outAddr := fld b 72 8, pkAddr := fld b 80 8, reserved := zeros b 88 40 }

/-- The DELIVER block (R324). -/
def deliverBlock (b : List Byte) : DlvParams :=
  { srcDesc := fld b 0 8,
    dstDescs := fld b 8 8 :: ([fld b 16 8, fld b 24 8, fld b 32 8].filter (· != 0)),
    due := fld b 40 6, dieMask := fld b 46 1, sliver := fld b 47 1, region := fld b 48 1, link := fld b 49 1,
    srcKind := fld b 50 1, horizon := fld b 51 1 == 1, reserved := zeros b 52 12 && fld b 51 1 ≤ 1 }

/-- The KEY_STREAM block (R325). -/
def keyBlock (b : List Byte) : KeyParams :=
  { index := fld b 0 4, expectGalois := fld b 4 4, due := fld b 8 6, expectKind := fld b 14 1, level := fld b 15 1,
    digitFirst := fld b 16 1, digitCount := fld b 17 1, limbFirst := fld b 18 1, limbCount := fld b 19 1,
    allot := fld b 20 1, sliver := fld b 21 1, region := fld b 22 1, dest := fld b 24 4,
    reserved := zeros b 23 1 && zeros b 28 4 }

/-- The INGEST_STAGE block (R325). -/
def ingestBlock (b : List Byte) : IngestParams :=
  { logAddr := fld b 0 8, logEntries := fld b 8 4, set := fld b 12 1, outLevel := fld b 13 1, region := fld b 14 1,
    sliver := fld b 15 1, dest := fld b 16 4, destStride := fld b 20 4, manifest := fld b 24 4, destSlots := fld b 28 1,
    dieMask := fld b 29 1, reserved := zeros b 30 2 }

/-- The BATCH_STAGE block (R325). -/
def batchBlock (b : List Byte) : BatParams :=
  { indexAddr := fld b 0 8, bucketAddr := fld b 8 8, hostRing := fld b 16 8, logAddr := fld b 24 8, epochFirst := fld b 32 4,
    epochs := fld b 36 4, hostTimeout := fld b 40 4, logEntries := fld b 44 4, hostEntries := fld b 48 2, buckets := fld b 50 1,
    lastHamper := fld b 51 1, repeatOnExhaust := fld b 52 1, chunksAhead := fld b 53 1, specialMask := fld b 64 8,
    maxTokens := fld b 72 4, stats := fld b 76 1, policy := fld b 77 1, bos := fld b 78 1, eos := fld b 79 1,
    tokOutType := fld b 80 1, offsets := fld b 81 1, shapeProg := fld b 88 8,
    reserved := zeros b 54 10 && zeros b 82 6 && zeros b 96 32 }

/-- The bytes of an admission record's fields (R305): bit n of the header is bit n mod 8 of byte n / 8. -/
def admissionOf (b : List Byte) : Admission :=
  let h := leNat (b.take 64)
  { paramBase := bitsOf h 511 448, jobSeed := bitsOf h 447 384, jobTag := bitsOf h 383 352, encRoots := bitsOf h 351 336,
    primeSets := bitsOf h 335 328, stripe := bitsOf h 327 320, progEntry := bitsOf h 319 308,
    regions := (List.range (min 8 (bitsOf h 307 304))).map (fun i =>
      { base := fld b (128 + 16 * i) 4, bytes := fld b (136 + 16 * i) 4, half := fld b (140 + 16 * i) 4 }),
    prefetch := bitsOf h 303 299, priority := bitsOf h 298 296, usesTok := h.testBit 295, admitter := h.testBit 294,
    txaBase := bitsOf h 255 240, txaSize := bitsOf h 239 224, pfgBase := bitsOf h 223 208, pfgSize := bitsOf h 207 192,
    pools := (List.range 16).map (fun p => fld b (64 + 4 * p) 4) }

end Sys2Proof.Machine
end

