-- ==== Sys2Proof/Machine/PoolOps.lean ====
section
/-! DEFINITION. The buffer pools' own operations (R248 to R260): selection, requests, grants, frees, refills and spills, which
the commands and every unit that needs a buffer share. -/

namespace Sys2Proof.Machine

def poolOf (s : State) (p : Nat) : Pool := tblGet {} s.pools.tbl p
def setPool (s : State) (p : Nat) (x : Pool) : State := { s with pools := { s.pools with tbl := tblSet {} s.pools.tbl p x } }

/-- The index of a pool's objects (R248). -/
def poolIndex (s : State) (p : Nat) : Nat := 0x6100 + 16 * dieId s + p

def poolLog2 (s : State) (p : Nat) : Nat := objGet s (poolIndex s p) 2
def poolBuffers (s : State) (p : Nat) : Nat := objGet s (poolIndex s p) 3
def poolMargin (s : State) (p : Nat) : Nat := objGet s (poolIndex s p) 4
def poolBase (s : State) (p : Nat) : Nat := objGet s (poolIndex s p) 5
def poolRing (s : State) (p : Nat) : Nat := objGet s (poolIndex s p) 6
def poolStates (s : State) (p : Nat) : Nat := objGet s (poolIndex s p) 7

/-- The entries of a pool's free ring (R248): max(64, 2^ceil(log2 B)). -/
def poolCap (s : State) (p : Nat) : Nat :=
  let b := poolBuffers s p
  ((List.range 23).find? (fun k => decide (b ≤ 2 ^ k ∧ 64 ≤ 2 ^ k))).elim 64 (2 ^ ·)

def poolNumbers : List Nat := List.range 16

/-- The pool that serves a size: the smallest enabled pool whose buffers are large enough (R250). -/
def poolFor (s : State) (size : Nat) : Option Nat :=
  (poolNumbers.filter (fun p => (poolOf s p).enabled && size ≤ 2 ^ poolLog2 s p)).foldl (fun best p =>
    match best with
    | none => some p
    | some b => if poolLog2 s p < poolLog2 s b then some p else some b) none

/-- A job's held count and reservation in a pool. -/
def heldCount (x : Pool) (slot : Nat) : Nat := tblGet 0 x.held slot
def reservation (x : Pool) (slot : Nat) : Nat := tblGet 0 x.reserved slot

/-- A job's reservation fits a size when the pool that would serve it holds at least one reservation of the job (R250). -/
def reservationFits (s : State) (slot size : Nat) : Bool :=
  match poolFor s size with
  | some p => 1 ≤ reservation (poolOf s p) slot
  | none => false

/-- POOL_RESERVED: the sum of the reservations of admitted jobs. -/
def poolReserved (x : Pool) : Nat := x.reserved.foldl (fun n e => n + e.2) 0

/-- POOL_MARGIN_IN_USE: the sum over jobs of max(0, h − R) (R256). -/
def marginInUse (x : Pool) : Nat := slotNumbers.foldl (fun n k => n + (heldCount x k - reservation x k)) 0

/-- The buffers a slot holds in all pools. -/
def heldTotal (s : State) (n : Nat) : Nat := poolNumbers.foldl (fun k p => k + heldCount (poolOf s p) n) 0

/-- POOL_QUARANTINED: the buffers withdrawn after poison (R248, R260). -/
def poolQuarantined (x : Pool) : Nat := x.quarantined.length + x.lost

/-- An index may be handed out: its buffer has not been withdrawn. -/
def Pool.sound (x : Pool) (i : Nat) : Bool := !x.quarantined.contains i

/-- POOL_FREE: buffers allocatable now, in ring and cache (R248); an index on its way to the ring's tail counts as in the ring (log
entry 181). -/
def poolFree (x : Pool) : Nat := x.cache.length + x.spill.countP x.sound + (x.inRing - x.deadRing)

/-- POOL_WAITERS: requests currently blocked. -/
def poolWaiters (x : Pool) : Nat := x.waits.countP (·.blocked)

/-- A state-bit operation is a check. -/
def BitOp.isCheck : BitOp → Bool
  | .check _ _ => true
  | .set _ _ => false

/-- The checks in the check queue of a pool (R252). -/
def checkCount (x : Pool) : Nat := x.ops.countP (·.isCheck)

/-- The indices in a check whose buffers have not been withdrawn. -/
def checkedFree (x : Pool) : Nat :=
  x.ops.countP (fun o => match o with | .check _ i => x.sound i | .set _ _ => false)

/-- POOL_LOW_WATER follows POOL_FREE down (R248). -/
def lowWater (s : State) (p : Nat) : State :=
  let f := poolFree (poolOf s p)
  if f < objGet s (poolIndex s p) 0x0B then objSet s (poolIndex s p) 0x0B f else s

/-- The indices the refill in flight will bring (R251). -/
def refillRoom (x : Pool) : Nat := if x.refill then min 64 x.inRing else 0

/-- The cache, of 256 entries, has room for an index beside those of the refill in flight (R251, log entry 182). -/
def cacheRoom (x : Pool) : Bool := x.cache.length + refillRoom x < 256

/-- A refill starts when the cache holds 64 indices or fewer and the ring some, a spill when it holds 224 or more; one of
them in flight at a time (R251). -/
def poolBalance (s : State) (p : Nat) : State :=
  let x := poolOf s p
  if x.refill || !x.spill.isEmpty then s
  else if x.cache.length ≤ 64 && 0 < x.inRing then setPool s p { x with refill := true }
  else if 224 ≤ x.cache.length then
    setPool s p { x with spill := x.cache.reverse.take 64, cache := (x.cache.reverse.drop 64).reverse }
  else s

/-- The state bit of a buffer (R248). -/
def stateBit (s : State) (p i : Nat) : Bool := (memNat s (poolStates s p + i / 8) 1).testBit (i % 8)

/-- Write the state bit of a buffer. -/
def setStateBit (s : State) (p i : Nat) (v : Bool) : State :=
  let a := poolStates s p + i / 8
  { s with mem := { s.mem with dev := cellsSet s.mem.dev a [BitVec.ofNat 8 (putBit (memNat s a 1) (i % 8) v)] } }

/-- Indices promised to requests granted earlier and waiting for one. -/
def promised (x : Pool) : Nat := x.waits.countP (fun r => r.granted && !r.blocked)

/-- The indices free, in the cache or the ring, or in a check (R257). -/
def supply (x : Pool) : Nat := poolFree x + checkedFree x

/-- An index is free or in a check that no earlier granted request is promised (R257). -/
def unpromised (x : Pool) : Bool := promised x < supply x

/-- Of requests in order, each granted reserved one before which all n indices are promised is blocked from a time on; k of them are
promised to the requests before these. -/
def blockLate (now n : Nat) : Nat → List AllocReq → List AllocReq
  | _, [] => []
  | k, r :: l =>
    if !r.granted || r.blocked then r :: blockLate now n k l
    else if r.reserved && n ≤ k then { r with blocked := true, since := now } :: blockLate now n k l
    else r :: blockLate now n (k + 1) l

/-- While buffers are quarantined a reserved request that waits is blocked once every index is promised to earlier ones (R257). -/
def blockExcess (s : State) (p : Nat) : State :=
  let x := poolOf s p
  if poolQuarantined x == 0 then s else setPool s p { x with waits := blockLate s.boot.timeBase (supply x) 0 x.waits }

/-- The granted requests that wait while the cache is empty and a refill is due wait for that refill: each counts once (R252, R261). -/
def countMisses (s : State) (p : Nat) : State :=
  let x := poolOf s p
  let waits (r : AllocReq) : Bool := r.granted && !r.blocked
  if x.cache.isEmpty && (x.refill || 0 < x.inRing) then
    bumpBy (setPool s p { x with waits := x.waits.map (fun r => if waits r then { r with missed := true } else r) }) 0x80C0 3
      (x.waits.countP (fun r => waits r && !r.missed))
  else s

/-- Withdraw buffers after poison: each is counted once, and none of them is allocatable any more (R260). The ring still holds those
that are neither in the cache nor on their way from it nor allocated, but for `dropped` ones, whose entries have been read. -/
def quarantine (s : State) (p : Nat) (is : List Nat) (dropped : Bool) (slot : Nat) : State :=
  let x := poolOf s p
  let known := (is.filter (fun i => i < poolBuffers s p && !x.quarantined.contains i)).eraseDups
  let strange := if dropped then is.countP (fun i => poolBuffers s p ≤ i) else 0
  let inRing := if dropped then 0 else
    known.countP (fun i => !x.cache.contains i && !x.spill.contains i && !x.allocated.any (fun e => e.1 == i))
  if known.isEmpty && strange == 0 then s
  else
    let s := setPool s p { x with quarantined := setAdd x.quarantined known, lost := x.lost + strange,
                                  deadRing := x.deadRing + inRing, cache := x.cache.filter (fun i => !known.contains i) }
    blockExcess (lowWater (raiseErr s 0x0C07 slot) p) p

/-- The 512 buffers whose state bits share a line with a buffer's. -/
def stateLine (i : Nat) : List Nat := (List.range 512).map (· + i / 512 * 512)

/-- The state line of a buffer is marked poisoned. -/
def stateLinePoisoned (s : State) (p i : Nat) : Bool := memPoisoned s (poolStates s p + i / 512 * 64) 64

/-- A command's unit has finished: its completion waits for its turn (R317). -/
def finishCmd (s : State) (id status flags result : Nat) : State :=
  { s with cmds := s.cmds.map (fun c =>
      if c.id == id then { c with done := true, status := status, flags := flags, result := result } else c) }

/-- The address of a buffer. -/
def bufferAddr (s : State) (p i : Nat) : Nat := poolBase s p + i * 2 ^ poolLog2 s p

/-- A request is answered: an ALLOC command completes, with the address written at its RESULT_ADDR (R325), a landing takes
its buffer, a stage finds the answer when it next acts. -/
def answer (s : State) (r : AllocReq) (code addr : Nat) : State :=
  match r.owner with
  | .stage => { s with pools := { s.pools with answers := s.pools.answers ++ [{ slot := r.slot, size := r.size, code := code, addr := addr }] } }
  | .landing port serial =>
    let x := tblGet {} s.net.ports port
    let q := x.openQ.map (fun o =>
      if o.serial == serial then
        (if code == 0 then { o with buffer := some addr } else { o with refused := true })
      else o)
    { s with net := { s.net with ports := tblSet {} s.net.ports port { x with openQ := q } } }
  | .cmd id =>
    match s.cmds.find? (fun c => c.id == id) with
    | none => s
    | some c =>
      let s := finishCmd s id code 1 addr
      if code == 0 then
        let s := modSlot s r.slot (fun x => { x with allocs := x.allocs ++ [addr] })
        memWrite s c.result (leBytes 8 addr)
      else s

/-- The line of a buffer's state bit is read for an operation of a slot: poisoned, it withdraws its buffers (R260). -/
def readStateLine (s : State) (p i slot : Nat) (poisoned : Bool) : State :=
  if poisoned || stateLinePoisoned s p i then
    quarantine (memError s slot (poolStates s p + i / 512 * 64)) p (stateLine i) false slot
  else s

/-- The sets at the head of a pool's operations are performed: an allocation's set follows every check accepted before it (R253). -/
def runSets (s : State) (p : Nat) : List BitOp → State
  | .set n i :: rest =>
    runSets (setStateBit (readStateLine (setPool s p { poolOf s p with ops := rest }) p i n false) p i true) p rest
  | _ => s

/-- A state-bit operation is accepted (R253). -/
def acceptOp (s : State) (p : Nat) (o : BitOp) : State :=
  let x := poolOf s p
  runSets (setPool s p { x with ops := x.ops ++ [o] }) p (x.ops ++ [o])

/-- A cache entry read with an uncorrectable error: its index is dropped and its buffer withdrawn (R414). -/
def dropEntry (s : State) (p : Nat) (e : Nat × Nat) : State :=
  let x := poolOf s p
  let s := raiseErr (setPool s p { x with
    cache := x.cache.erase e.1, spill := x.spill.erase e.1, damaged := x.damaged.erase e, quarantined := setAdd x.quarantined [e.1] }) 0x1204 63
  blockExcess (lowWater (objSet s 0x9000 4 e.2) p) p

/-- The damaged entries among those read in order, up to the first sound one, are dropped. -/
def dropDamaged (s : State) (p : Nat) : List Nat → State
  | [] => s
  | i :: rest =>
    match (poolOf s p).damaged.find? (fun e => e.1 == i) with
    | some e => dropDamaged (dropEntry s p e) p rest
    | none => s

/-- A granted request waits for an index. -/
def holdGranted (s : State) (p : Nat) (r : AllocReq) : State :=
  let x := poolOf s p
  countMisses (setPool s p { x with waits := x.waits ++ [{ r with granted := true, blocked := false }] }) p

/-- A granted request takes the newest index of the cache (R251), and the set of its state bit is queued (R253); with none there it
waits. -/
def takeIndex (s : State) (p : Nat) (r : AllocReq) : State :=
  let s := dropDamaged s p (poolOf s p).cache
  let x := poolOf s p
  match x.cache with
  | [] => holdGranted (poolBalance s p) p r
  | i :: rest =>
    let s := lowWater (setPool s p { x with cache := rest, allocated := x.allocated ++ [(i, r.slot)] }) p
    answer (countMisses (poolBalance (acceptOp s p (.set r.slot i)) p) p) r 0 (bufferAddr s p i)

/-- A granted request takes an index or waits for one (R252, R256, R257): a reserved one is blocked while buffers are quarantined and
every index is promised; one before which granted requests wait, or that finds the cache empty, waits for its turn. -/
def awaitIndex (s : State) (p : Nat) (r : AllocReq) : State :=
  let x := poolOf s p
  if r.reserved && poolQuarantined x != 0 && !unpromised x then
    setPool s p { x with waits := x.waits ++ [{ r with granted := true, blocked := true, since := s.boot.timeBase }] }
  else if promised x == 0 && !x.cache.isEmpty then takeIndex s p r
  else holdGranted s p r

/-- A request is granted: the held count rises (R256), the grant is counted (R261), and the index is taken or waited for. -/
def grantReq (s : State) (p : Nat) (r : AllocReq) : State :=
  let x := poolOf s p
  let s := bump (setPool s p { x with held := tblSet 0 x.held r.slot (heldCount x r.slot + 1) }) 0x80C0 1
  awaitIndex (if r.reserved then s else bump s 0x80C0 4) p r

/-- A blocked request of a pool can move: a reserved one, granted at its acceptance, when an unpromised index exists (R257); an
overflow one while the margin in use is below M (R256). -/
def canMove (s : State) (p : Nat) (r : AllocReq) : Bool :=
  r.blocked && (if r.granted then unpromised (poolOf s p) else marginInUse (poolOf s p) < poolMargin s p)

/-- The slots whose blocked requests in a pool can move: those ready for it (R24, R25). -/
def movableSlots (s : State) (p : Nat) : List Nat := (((poolOf s p).waits.filter (canMove s p)).map (·.slot)).eraseDups

/-- The blocked request of a pool that R25 chooses, its slot granted the pool: an overflow one is granted, a reserved one waits for an
index or takes it (R256, R257). The operand is the FCLK it was blocked. -/
def moveBlocked (s : State) (p waitedFclk : Nat) : State :=
  match arbPick s (unitPool p) (movableSlots s p) with
  | none => s
  | some n =>
    match (poolOf s p).waits.find? (fun r => r.slot == n && canMove s p r) with
    | none => s
    | some r =>
      let s := bumpBy (arbGrant s (unitPool p) n (movableSlots s p)) 0x80C0 5 waitedFclk
      let s := setPool s p { poolOf s p with waits := (poolOf s p).waits.erase r }
      if r.granted then awaitIndex s p r else grantReq s p r

/-- An allocation request (R250, R256, R257): served from the smallest fitting pool. A reserved one is granted at its acceptance. An
overflow one joins those blocked, and is granted at once when the margin has room and R25 chooses its slot. A request that no
enabled pool fits is answered at once with POOL_NO_FIT. -/
def poolRequest (s : State) (slot size : Nat) (owner : ReqOwner) : State :=
  match poolFor s size with
  | none => answer (raiseErr s 0x0C01 slot) { slot := slot, size := size, owner := owner, reserved := false, blocked := false } 0x0C01 0
  | some p =>
    let x := poolOf s p
    if heldCount x slot < reservation x slot then
      grantReq (arbGrant s (unitPool p) slot (setAdd (movableSlots s p) [slot])) p
        { slot := slot, size := size, owner := owner, reserved := true, blocked := false }
    else
      let r : AllocReq := { slot := slot, size := size, owner := owner, reserved := false, blocked := true, since := s.boot.timeBase }
      let s := setPool s p { x with waits := x.waits ++ [r] }
      if marginInUse x < poolMargin s p && arbPick s (unitPool p) (movableSlots s p) == some slot then moveBlocked s p 0 else s

/-- A request of a slot's stage or unit for a buffer of a size waits: the slot is not ready for that unit (R24). -/
def awaitsBuffer (s : State) (slot size : Nat) : Bool :=
  !s.pools.answers.any (fun a => a.slot == slot && a.size == size)
  && poolNumbers.any (fun p => (poolOf s p).waits.any (fun r => r.slot == slot && r.size == size && r.owner == .stage))

/-- A stage or unit needs a buffer of a size for a slot: the answer to its request when there is one, else its request, made
once. The result is the code and address of the answer, none while the request waits. -/
def needBuffer (s : State) (slot size : Nat) : Option (Nat × Nat) × State :=
  let take (s : State) : Option (Nat × Nat) × State :=
    match s.pools.answers.find? (fun a => a.slot == slot && a.size == size) with
    | some a => (some (a.code, a.addr), { s with pools := { s.pools with answers := s.pools.answers.erase a } })
    | none => (none, s)
  match take s with
  | (some a, s) => (some a, s)
  | (none, s) =>
    let waiting := poolNumbers.any (fun p => (poolOf s p).waits.any (fun r => r.slot == slot && r.size == size && r.owner == .stage))
    if waiting then (none, s) else take (poolRequest s slot size .stage)

/-- A request that ended with RETRY_LATER: the unit's item of the slot waits for RETRY_BACKOFF (R259). -/
def retryLater (s : State) (slot unit : Nat) : State := modSlot s slot (fun x => { x with backoff := setAdd x.backoff [unit] })

/-- The enabled pool and index an address is the start of (R253). -/
def bufferAt (s : State) (addr : Nat) : Option (Nat × Nat) :=
  poolNumbers.findSome? (fun p =>
    if (poolOf s p).enabled && poolBase s p ≤ addr && (addr - poolBase s p) % 2 ^ poolLog2 s p == 0
        && (addr - poolBase s p) / 2 ^ poolLog2 s p < poolBuffers s p
    then some (p, (addr - poolBase s p) / 2 ^ poolLog2 s p) else none)

/-- The enabled pool whose buffer region holds n bytes from an address (R323). -/
def poolRegionHolds (s : State) (addr n : Nat) : Bool :=
  poolNumbers.any (fun p => (poolOf s p).enabled && poolBase s p ≤ addr &&
    addr + n ≤ poolBase s p + poolBuffers s p * 2 ^ poolLog2 s p)

/-- A free is accepted: the held count falls by 1 and the index enters the check queue; a free that names no buffer start, or a
job with no held buffer there, is ignored with POOL_BAD_FREE (R253). -/
def acceptFree (s : State) (r : FreeReq) : State :=
  let bad (s : State) : State :=
    let s := raiseErr s 0x0C03 r.slot
    match r.cmd with
    | some id => finishCmd s id 0x0C03 1 0
    | none => s
  match bufferAt s r.addr with
  | none => bad s
  | some (p, i) =>
    let x := poolOf s p
    if heldCount x r.slot == 0 then bad s
    else
      let s := acceptOp (setPool s p { x with held := tblSet 0 x.held r.slot (heldCount x r.slot - 1) }) p (.check r.slot i)
      let s := modSlot s r.slot (fun y => { y with allocs := y.allocs.erase r.addr })
      match r.cmd with
      | some id => finishCmd s id 0 1 0
      | none => s

/-- A free is presented: accepted while the check queue of its pool, of 64 entries, has room, else it waits (R252). -/
def presentFree (s : State) (r : FreeReq) : State :=
  match bufferAt s r.addr with
  | none => acceptFree s r
  | some (p, _) =>
    let x := poolOf s p
    if checkCount x < 64 && x.frees.isEmpty then acceptFree s r
    else setPool s p { x with frees := x.frees ++ [r] }

/-- Units free buffers they hold for a slot. -/
def freeBuffers (s : State) (slot : Nat) (addrs : List Nat) : State :=
  addrs.foldl (fun s a => presentFree s { slot := slot, addr := a, cmd := none }) s

/-- The FCLK since a reading of TIME_BASE, 2.5 to an HCLK: what the two readings leave open, up to 5, is not stated (log entry 3). -/
def elapsedFclk (s : State) (since : Nat) : Nat × State :=
  let (e, s) := drawFree s 6
  (5 * (s.boot.timeBase - since - 1) / 2 + e, s)

/-- The FCLK a request withdrawn while blocked has waited. -/
def blockedFclk (s : State) (r : AllocReq) : Nat × State := elapsedFclk s r.since

/-- A blocked request is withdrawn: the FCLK it was blocked are counted (R261). -/
def countWithdrawn (s : State) (r : AllocReq) : State :=
  if r.blocked then
    let (n, s) := blockedFclk s r
    bumpBy s 0x80C0 5 n
  else s

/-- A request is withdrawn: an ALLOC that has been issued completes with a code (R310). -/
def endWithdrawn (code : Nat) (s : State) (r : AllocReq) : State :=
  let s := countWithdrawn s r
  match r.owner with
  | .cmd id => finishCmd s id code 1 0
  | _ => s

/-- A slot's requests that wait in a pool are withdrawn (R259, R310). -/
def withdrawRequests (slot code : Nat) (s : State) (p : Nat) : State :=
  let x := poolOf s p
  let gone := x.waits.filter (fun r => r.slot == slot)
  let granted := gone.countP (·.granted)
  setPool (gone.foldl (endWithdrawn code) s) p
    { x with waits := x.waits.filter (fun r => r.slot != slot),
             held := if granted == 0 then x.held else tblSet 0 x.held slot (heldCount x slot - granted) }

/-- Withdraw a slot's unanswered requests and the answers its stages have not taken up, freeing those buffers. -/
def dropRequests (s : State) (slot code : Nat) : State :=
  let mine := s.pools.answers.filter (fun a => a.slot == slot && a.code == 0)
  let s := { s with pools := { s.pools with answers := s.pools.answers.filter (fun a => a.slot != slot) } }
  freeBuffers (poolNumbers.foldl (withdrawRequests slot code) s) slot (mine.map (·.addr))

/-- Frees that waited are accepted while the check queue has room (R252). -/
def acceptWaiting (p : Nat) : List FreeReq → State → State
  | [], s => s
  | f :: fs, s =>
    if checkCount (poolOf s p) < 64 then acceptWaiting p fs (acceptFree (setPool s p { poolOf s p with frees := fs }) f) else s

/-- The frees of a slot that wait for room. -/
def waitingFrees (s : State) (n : Nat) : Nat := poolNumbers.foldl (fun k p => k + (poolOf s p).frees.countP (fun f => f.slot == n)) 0

end Sys2Proof.Machine
end

