-- ==== Sys2Proof/Machine/Units.lean ====
section
/-! DEFINITION. Tiles, lanes and cores (R73): their enable bits, their work items, and how they leave service. -/

namespace Sys2Proof.Machine

/-- The index of a kind's enable object (R73, R124, R159, R189, R205). -/
def enableIndex : UnitKind → Nat
  | .txa => 0x5001 | .sdx => 0x5800 | .rsv => 0x5C00 | .mdc => 0x4000 | .tok => 0x4800

/-- The subindex of the enable object that holds a unit's bit. -/
def enableSub (k : UnitKind) (u : Nat) : Nat :=
  match k with
  | .txa => if u < 64 then 1 else 2
  | .sdx => if u < 64 then 3 else 4
  | .rsv => 4
  | .mdc => 8
  | .tok => 9

/-- The subindex of the retired object, none for the kinds that have none. -/
def retiredSub (k : UnitKind) (u : Nat) : Option Nat :=
  match k with
  | .txa => some (if u < 64 then 3 else 4)
  | .sdx => some (if u < 64 then 5 else 6)
  | .rsv => some 5
  | _ => none

/-- How many units of a kind this engine has (R3, R119, R158, R162, R192). -/
def unitCount (s : State) : UnitKind → Nat
  | .txa => tilesFused s | .sdx => 96 | .rsv => 64 | .mdc => 24 | .tok => 48

/-- The enable bit of a unit as it reads. -/
def unitEnabled (s : State) (k : UnitKind) (u : Nat) : Bool :=
  u < unitCount s k && (objGet s (enableIndex k) (enableSub k u)).testBit (u % 64)

def setEnable (s : State) (k : UnitKind) (u : Nat) (v : Bool) : State :=
  objSet s (enableIndex k) (enableSub k u) (putBit (objGet s (enableIndex k) (enableSub k u)) (u % 64) v)

def setRetired (s : State) (k : UnitKind) (u : Nat) (v : Bool) : State :=
  match retiredSub k u with
  | some sub => objSet s (enableIndex k) sub (putBit (objGet s (enableIndex k) sub) (u % 64) v)
  | none => s

/-- The units whose clear waits for their item. -/
def drainingOf (s : State) : UnitKind → List Nat
  | .txa => s.txa.draining | .sdx => s.sdx.draining | .rsv => s.rsv.draining | .mdc => s.mdc.draining | .tok => s.tok.draining

def setDraining (s : State) (k : UnitKind) (l : List Nat) : State :=
  match k with
  | .txa => { s with txa := { s.txa with draining := l } }
  | .sdx => { s with sdx := { s.sdx with draining := l } }
  | .rsv => { s with rsv := { s.rsv with draining := l } }
  | .mdc => { s with mdc := { s.mdc with draining := l } }
  | .tok => { s with tok := { s.tok with draining := l } }

/-- A unit has a work item. -/
def unitBusy (s : State) (k : UnitKind) (u : Nat) : Bool :=
  match k with
  | .txa => (tblGet none s.txa.tiles u).isSome
  | .sdx => (tblGet none s.sdx.lanes u).isSome
  | .rsv => (tblGet none s.rsv.cores u).isSome
  | .mdc => s.mdc.runs.any (fun r => r.cores.contains u) || s.tok.run.any (fun r => r.image == some u)
  | .tok => (tblGet none s.tok.cores u).isSome

/-- A unit is in service: its enable bit is set; one that finishes its last item after its bit was cleared still is (R73). -/
def inService (s : State) (k : UnitKind) (u : Nat) : Bool := unitEnabled s k u

/-- The units of a kind in service, ascending. -/
def serviceList (s : State) (k : UnitKind) : List Nat := (List.range (unitCount s k)).filter (inService s k)

/-- A unit takes items: in service, and not finishing its last one. -/
def takesItems (s : State) (k : UnitKind) (u : Nat) : Bool := inService s k u && !(drainingOf s k).contains u

/-- The lowest unit in service and free. -/
def freeUnit (s : State) (k : UnitKind) : Option Nat := (serviceList s k).find? (fun u => takesItems s k u && !unitBusy s k u)

/-- A unit has finished its item: a clear that waited takes effect (R73). -/
def unitDone (s : State) (k : UnitKind) (u : Nat) : State :=
  if (drainingOf s k).contains u then setDraining (setEnable s k u false) k (setDel (drainingOf s k) [u]) else s

/-- A unit is retired: its enable bit is cleared as its retired bit is set (R73). -/
def retireUnit (s : State) (k : UnitKind) (u : Nat) : State :=
  setRetired (setDraining (setEnable s k u false) k (setDel (drainingOf s k) [u])) k u true

/-- The units of a kind whose item has ended with its job's leave service where a clear waits for it (R73, R310). -/
def settleUnits (s : State) (k : UnitKind) : State :=
  ((drainingOf s k).filter (fun u => !unitBusy s k u)).foldl (fun s u => unitDone s k u) s

end Sys2Proof.Machine
end

