-- ==== Sys2Proof/Machine/SlotOps.lean ====
section
/-! DEFINITION. The faulting of a job slot (R310), semaphore waits and signals (R20 to R22), and what units do to the commands
they serve. -/

namespace Sys2Proof.Machine

/-- The pictures in the pools of the stream contexts a slot holds open. -/
def heldPictures (s : State) (n : Nat) : List RefPic := (s.mdc.ctxs.filter (fun e => e.2.opn && e.2.owner == n)).flatMap (fun e => e.2.pool)

/-- The buffers the stages of a slot hold (R310): frames and reference pictures of the decoders, the tokeniser's output, and
the messages and containers that an ingest stage has not handed to delivery. -/
def stageBuffers (s : State) (n : Nat) : List Nat :=
  (s.mdc.runs.filter (fun r => r.item.slot == n)).flatMap (fun r => r.frames ++ r.buffer.toList ++ r.coef.toList
    ++ (r.before.map (fun x => x.pool.map (·.buffer))).getD [])
  ++ (s.mdc.outcomes.filter (fun o => o.slot == n)).flatMap (fun o => o.frames ++ o.work)
  ++ (heldPictures s n).map (·.buffer)
  ++ (match s.tok.run with
      | some r => if r.item.slot == n then [r.buffer] else []
      | none => [])
  ++ ((s.net.msgs.filter (fun m => m.jobSlot == n && m.kind == 0 && m.dlv.isNone)).map (·.buffer))
  ++ (s.bat.results.filter (fun r => r.slot == n)).flatMap (fun r => r.buffer.toList)

/-- What a stream is for lies in a container. -/
def StreamUse.ofMessage (m : Nat) : StreamUse → Bool
  | .ctLimb k _ => k == m
  | _ => false

/-- A lane has lost its stream; one whose enable bit waits to be cleared leaves service (R73, R124). -/
def freeLane (s : State) (u : Nat) : State :=
  let s := { s with sdx := { s.sdx with lanes := tblSet none s.sdx.lanes u none } }
  if s.sdx.draining.contains u then
    let sub := if u < 64 then 3 else 4
    objSet { s with sdx := { s.sdx with draining := setDel s.sdx.draining [u] } } 0x5800 sub
      (putBit (objGet s 0x5800 sub) (u % 64) false)
  else s

/-- The expansion of a container stops (R111). -/
def cancelStreams (s : State) (m : Nat) : State :=
  let mine := (s.sdx.lanes.filter (fun e => match e.2 with | some r => r.stream.use.ofMessage m | none => false)).map (·.1)
  let s := { s with sdx := { s.sdx with
    streams := s.sdx.streams.filter (fun x => !x.use.ofMessage m)
    moved := s.sdx.moved.filter (fun r => !r.stream.use.ofMessage m) } }
  mine.foldl freeLane s

/-- The lines of a ciphertext limb that its lane's buffer holds (R122). -/
def LaneRun.pending (r : LaneRun) : Nat :=
  match r.stream.use with
  | .ctLimb _ _ => r.got.length / 128 - r.written
  | _ => 0

def stageOf (s : State) (cmd : Nat) : Option IngestStage := s.net.stages.find? (fun i => i.cmd == cmd)
def modStage (s : State) (cmd : Nat) (f : IngestStage → IngestStage) : State :=
  { s with net := { s.net with stages := s.net.stages.map (fun i => if i.cmd == cmd then f i else i) } }

/-- An ingest stage's command finishes once HALT has stopped it and its containers are done (R309, R317). -/
def stageEnds (s : State) (cmd : Nat) : State :=
  match stageOf s cmd with
  | none => s
  | some i =>
    if i.stopped && !i.ended && !s.net.msgs.any (fun m => m.stage == some cmd && !m.recorded) then
      finishCmd (modStage s cmd (fun i => { i with ended := true })) cmd 0 1 0
    else s

/-- Pictures for output that have not been passed on, and now never will be, are counted (R182, R191). -/
def countUnshown (s : State) (l : List RefPic) : State := bumpBy s 0x8080 0x0F (l.countP (fun q => q.forOutput && !q.passed))

/-- The stream contexts a slot holds open are gone. -/
def dropContexts (s : State) (n : Nat) : State :=
  { countUnshown s (heldPictures s n) with
    mdc := { s.mdc with ctxs := s.mdc.ctxs.filter (fun e => !(e.2.opn && e.2.owner == n)) } }

/-- Every stage of a slot abandons its work item and its command completes with a code (R310). -/
def abandonStages (s : State) (n code : Nat) : State :=
  let bufs := (stageBuffers s n).eraseDups
  let s := ((s.net.msgs.filter (fun m => m.jobSlot == n && m.kind == 0 && m.dlv.isNone)).map (·.id)).foldl cancelStreams s
  let ended := (s.bat.stages.filter (fun b => b.slot == n)).map (·.cmd) ++ (s.net.stages.filter (fun i => i.slot == n && !i.ended)).map (·.cmd)
  let s := { s with
    bat := { s.bat with
      stages := s.bat.stages.filter (fun b => b.slot != n)
      results := s.bat.results.filter (fun r => r.slot != n) }
    txa := { s.txa with work := s.txa.work.filter (fun w => match w.user with
      | .shape m _ => m != n
      | .hamper m _ => m != n
      | .forge _ => true) }
    rsv := { s.rsv with
      works := s.rsv.works.filter (fun w => w.slot != n || (match w.user with | .forge _ => true | _ => false))
      drawn := s.rsv.drawn.filter (fun e => e.1 != n) }
    mdc := { s.mdc with
      queue := s.mdc.queue.filter (fun i => i.slot != n)
      runs := s.mdc.runs.filter (fun r => r.item.slot != n)
      outcomes := s.mdc.outcomes.filter (fun o => o.slot != n) }
    tok := { s.tok with
      queue := s.tok.queue.filter (fun i => i.slot != n)
      run := s.tok.run.filter (fun r => r.item.slot != n)
      cores := if s.tok.run.any (fun r => r.item.slot == n) then [] else s.tok.cores }
    net := { s.net with
      stages := s.net.stages.map (fun i => if i.slot == n then { i with stopped := true, ended := true, abandoned := true } else i)
      msgs := s.net.msgs.filter (fun m => !(m.jobSlot == n && m.kind == 0 && m.dlv.isNone)) } }
  let s := ended.foldl (fun s id => finishCmd s id code 1 0) (dropContexts s n)
  freeBuffers (dropRequests (settleUnits (settleUnits s .mdc) .tok) n code) n bufs

/-- Withdraw every semaphore wait a slot holds. -/
def withdrawWaits (s : State) (n : Nat) : State :=
  (s.pairs.map (·.1)).foldl (fun s p =>
    let x := pairOf s p
    if x.waits.any (fun w => w.slot == n) then setPair s p { x with waits := x.waits.filter (fun w => w.slot != n) } else s) s

/-- A job slot is faulted (R310, R283) without word to the other dies: it fetches nothing further, its commands not issued are
removed with their waits, its stages abandon their work, and event source 3 fires with the code. A slot that is free or already
faulted is unchanged. -/
def faultHere (s : State) (n code : Nat) : State :=
  let x := slotOf s n
  if x.state == .idle || x.state == .faulted then s
  else
    let s := setSlot s n { x with
      state := .faulted, fault := code, loopRead := none, listRead := none, save := none,
      faultHorizon := if x.job.regions.isEmpty then none else some x.horizon, poisonedTo := x.horizon }
    let s := { s with cmds := s.cmds.filter (fun c => !(c.slot == n && !c.issued)) }
    fire (abandonStages (withdrawWaits s n) n code) 3 code

/-- A job slot is faulted here, and the fault is carried to the other dies of its stripe (R310). -/
def slotFault (s : State) (n code : Nat) : State :=
  let x := slotOf s n
  if x.state == .idle || x.state == .faulted then s
  else
    let s' := faultHere s n code
    if (otherDies s).any (fun d => x.job.stripe.testBit d) then send s' (.fault n code) else s'

/-- An error is raised and the slot faulted with its code. -/
def errFault (s : State) (n code : Nat) : State := slotFault (raiseErr s code n) n code

/-! ## Semaphores -/

/-- A slot becomes a user of a pair (R326). -/
def addUser (x : Pair) (slot : Nat) : Pair := if x.users.contains slot then x else { x with users := x.users ++ [slot] }

/-- The value of one side of a pair. -/
def Pair.side (x : Pair) (full : Bool) : Nat := if full then x.full else x.empty

/-- One side of a pair lowered by 1. -/
def Pair.take (x : Pair) (full : Bool) : Pair := if full then { x with full := x.full - 1 } else { x with empty := x.empty - 1 }

/-- One side of a pair raised by 1. -/
def Pair.give (x : Pair) (full : Bool) : Pair := if full then { x with full := x.full + 1 } else { x with empty := x.empty + 1 }

/-- Who waited learns of the grant. -/
def tellGrant (s : State) (who : Waiter) (full : Bool) : State :=
  match who with
  | .cmd id => { s with cmds := s.cmds.map (fun c => if c.id == id then { c with granted := true } else c) }
  | .stage id => { s with
      bat := { s.bat with stages := s.bat.stages.map (fun b => if b.cmd == id then { b with entry := true } else b) }
      net := { s.net with stages := s.net.stages.map (fun i => if i.cmd == id then { i with entry := true } else i) } }
  | .landing port serial =>
    if full then s else
    let x := tblGet {} s.net.ports port
    let q := x.openQ.map (fun o => if o.serial == serial then { o with emptyGranted := true } else o)
    { s with net := { s.net with ports := tblSet {} s.net.ports port { x with openQ := q } } }

/-- A trace record of a semaphore operation (R419). -/
def traceSem (s : State) (p code slot : Nat) : State :=
  let x := pairOf s p
  traceRec s 3 0 slot code p (x.empty * 65536 + x.full)

/-- A wait is granted: the counter falls by 1 (R20). -/
def grantWait (s : State) (p : Nat) (w : HeldWait) : State :=
  let s := setPair s p ((pairOf s p).take w.full)
  tellGrant (traceSem s p 1 w.slot) w.who w.full

/-- The first held wait on a side is granted while its counter is above zero (R22). -/
def grantHeld (s : State) (p : Nat) (full : Bool) : State :=
  let x := pairOf s p
  match x.waits.find? (fun w => w.full == full) with
  | none => s
  | some w => if 0 < x.side full then grantWait (setPair s p { x with waits := x.waits.erase w }) p w else s

/-- A wait on a side of a pair: granted at once, or held in its order of arrival (R20, R22). -/
def semWait (s : State) (p : Nat) (full : Bool) (slot : Nat) (who : Waiter) : State :=
  let x := addUser (pairOf s p) slot
  let w : HeldWait := { who := who, slot := slot, full := full }
  if 0 < x.side full then grantWait (setPair s p x) p w
  else setPair s p { x with waits := x.waits ++ [w] }

/-- A signal on a side of a pair: the counter rises by 1 and a held wait is granted; one that would make EMPTY + FULL exceed D
is refused with SEM_OVERFLOW and faults its slot (R20 to R22). -/
def semSignal (s : State) (p : Nat) (full : Bool) (slot : Nat) : State :=
  let x := addUser (pairOf s p) slot
  if x.depth < x.empty + x.full + 1 then errFault (setPair s p x) slot 0x0F0B
  else grantHeld (traceSem (setPair s p (x.give full)) p 2 slot) p full

/-- A producer's entry is passed on over a link (R20). -/
def pushEntry (s : State) (p : Nat) (e : LinkEntry) : State :=
  { s with dlv := { s.dlv with links := tblSet [] s.dlv.links p (tblGet [] s.dlv.links p ++ [e]) } }

/-- The entry at the head of a link is taken (R20). -/
def takeEntry (s : State) (p : Nat) : Option LinkEntry × State :=
  match tblGet [] s.dlv.links p with
  | [] => (none, s)
  | e :: rest => (some e, { s with dlv := { s.dlv with links := tblSet [] s.dlv.links p rest } })

def dropMsg (s : State) (id : Nat) : State := { s with net := { s.net with msgs := s.net.msgs.filter (fun m => m.id != id) } }

/-- The buffer of a message is given up: freed, and EMPTY signalled on its landing link (R113, R376). -/
def releaseMsg (s : State) (m : Msg) : State :=
  semSignal (freeBuffers (dropMsg s m.id) m.jobSlot [m.buffer]) m.link false m.jobSlot

/-- The containers of a slot that have landed whole and that no stage has taken are given up: none will be issued any more. -/
def releaseUntaken (s : State) (n : Nat) : State :=
  (s.net.msgs.filter (fun m => m.jobSlot == n && m.kind == 0 && !m.opn && m.stage.isNone)).foldl releaseMsg s

/-- A link holds no entry: its pair has been configured (R19). -/
def clearLink (s : State) (p : Nat) : State := { s with dlv := { s.dlv with links := tblSet [] s.dlv.links p [] } }

/-! ## Commands in the queues -/

def cmdOf (s : State) (id : Nat) : Option Cmd := s.cmds.find? (fun c => c.id == id)

/-- Change one command. -/
def modCmd (s : State) (id : Nat) (f : Cmd → Cmd) : State :=
  { s with cmds := s.cmds.map (fun c => if c.id == id then f c else c) }

/-- The command passes this entry on when it signals FULL (R20), with the pool buffer that its delivery frees (R18). -/
def setOutput (s : State) (c : Cmd) (space addr bytes : Nat) (buffer : Option Nat) : State :=
  modCmd s c.id (fun d => { d with output := some { space := space, addr := addr, bytes := bytes, slot := c.slot, buffer := buffer } })

/-- A unit refuses a command's item: the error is raised, the command ends with its code, and the slot is faulted. -/
def refuseItem (s : State) (id slot code : Nat) : State := errFault (finishCmd s id code 1 0) slot code

/-- A completion with a TAG names what failed; neither record has bits for it (R299, R318, log entry 28). -/
def nameFailed (s : State) (slot tag : Nat) (what : Named) : State :=
  { s with seq := { s.seq with named := tblSet none s.seq.named slot (some (tag, what)) } }

/-- The first command of a slot's queue that has not been issued (R317). -/
def nextUnissued (s : State) (slot q : Nat) : Option Cmd := s.cmds.find? (fun c => c.slot == slot && c.queue == q && !c.issued)

/-- The first command of a slot's queue, which completes first (R317). -/
def firstCmd (s : State) (slot q : Nat) : Option Cmd := s.cmds.find? (fun c => c.slot == slot && c.queue == q)

/-- The commands a queue holds, and those of one slot in it (R316). -/
def queueCount (s : State) (q : Nat) : Nat := s.cmds.countP (fun c => c.queue == q)
def slotShare (s : State) (slot q : Nat) : Nat := s.cmds.countP (fun c => c.slot == slot && c.queue == q)

/-- A job's staging windows in bytes: base and size (R305). -/
def txaWindow (s : State) (slot : Nat) : Nat × Nat := ((slotOf s slot).job.txaBase * 65536, (slotOf s slot).job.txaSize * 65536)
def pfgWindow (s : State) (slot : Nat) : Nat × Nat := ((slotOf s slot).job.pfgBase * 65536, (slotOf s slot).job.pfgSize * 65536)

/-- An extent of n bytes at an offset lies in a window of a size. -/
def inWindow (size off n : Nat) : Bool := off + n ≤ size

/-- The 64 KiB units of PFG/SDX staging, 18 MiB (R3). -/
def pfgUnits : Nat := 288

/-- The units of PFG/SDX staging that no admitted job's window covers, no reservation holds and no error has retired: the free
part of the shared area (R305, R416). -/
def sharedFree (s : State) : List Nat :=
  (List.range pfgUnits).filter (fun u =>
    !(objGet s 0x9000 3).testBit u && !s.dlv.reservedUnits.contains u
    && !s.slots.any (fun e => e.2.state != .idle && e.2.job.pfgBase ≤ u && u < e.2.job.pfgBase + e.2.job.pfgSize))

/-- Take units from the shared area, none when fewer are free (R305). -/
def takeUnits (s : State) (n : Nat) : Option (List Nat × State) :=
  let free := sharedFree s
  if free.length < n then none
  else
    let us := free.take n
    some (us, { s with dlv := { s.dlv with reservedUnits := setAdd s.dlv.reservedUnits us } })

/-- Return units to the shared area. -/
def giveUnits (s : State) (us : List Nat) : State :=
  { s with dlv := { s.dlv with reservedUnits := setDel s.dlv.reservedUnits us } }

end Sys2Proof.Machine
end

