-- ==== Sys2Proof/Machine/Flags.lean ====
section
/-! DEFINITION. The status and flag words the engine writes: completion records (R318, R299), their flags, CRC32C (R52), and
the placing of a record in its ring. -/

namespace Sys2Proof.Machine

/-! ## CRC32C (R52) -/

/-- One bit of the reflected CRC32C division. -/
def crcBit (c : Nat) : Nat := if c % 2 = 1 then Nat.xor (c / 2) 0x82F63B78 else c / 2

/-- One byte into the CRC register. -/
def crcByte (c : Nat) (b : Byte) : Nat :=
  let c := Nat.xor c b.toNat
  crcBit (crcBit (crcBit (crcBit (crcBit (crcBit (crcBit (crcBit c)))))))

/-- The CRC32C of a byte string: initial value and final complement all ones. -/
def crc32c (bs : List Byte) : Nat := Nat.xor (bs.foldl crcByte 0xFFFFFFFF) 0xFFFFFFFF

/-! ## Completion flags -/

def flagDone : Nat := 1
def flagPartial : Nat := 2
def flagPoisoned : Nat := 4
def flagUnwritten : Nat := 8
def flagCatchup : Nat := 16
def flagLate : Nat := 32

/-- The saturated and retried flags of R63 and of the example of chapter 3: R318 gives them no bit of the record, so they are kept
above it (log entry 15). -/
def flagSaturated : Nat := 256
def flagRetried : Nat := 512

/-- The record of a work command other than DELIVER and KEY_STREAM (R318). -/
def workRecord (s : State) (c : Cmd) : List Byte :=
  leBytes 64 (s.boot.timeBase * 2 ^ 448 + wTag c.word * 2 ^ 416 + c.result * 2 ^ 352 + c.slot * 2 ^ 40
    + wOpcode c.word * 2 ^ 32 + c.status * 2 ^ 16 + c.flags % 8)

/-- The completion record of R299. -/
def dlvRecord (time : Nat) (r : DlvRecord) : List Byte :=
  leBytes 64 (time * 2 ^ 448 + r.tag * 2 ^ 416 + r.firstFail % 2 ^ 64 * 2 ^ 352 + r.bitmap % 2 ^ 64 * 2 ^ 288
    + r.failed % 2 ^ 32 * 2 ^ 256 + r.written % 2 ^ 32 * 2 ^ 224 + r.poisoned % 2 ^ 32 * 2 ^ 192 + r.dropped % 2 ^ 32 * 2 ^ 160
    + r.oor % 2 ^ 32 * 2 ^ 128 + r.firstOor % 2 ^ 32 * 2 ^ 96 + r.due % 2 ^ 48 * 2 ^ 48 + r.detached % 256 * 2 ^ 40
    + r.status % 2 ^ 16 * 2 ^ 16 + r.flags % 256)

/-- A record goes into the ring of a queue, over the oldest when it is full; with no entries none is written (R318). -/
def writeRecord (s : State) (q : Nat) (rec : List Byte) : State :=
  let entries := objGet s (0x7010 + q) 2
  if entries == 0 then s
  else bump (memWrite s (objGet s (0x7010 + q) 1 + 64 * (objGet s (0x7010 + q) 3 % entries)) rec) (0x7010 + q) 3

end Sys2Proof.Machine
end

