-- ==== Sys2Proof/Machine/DictOps.lean ====
section
/-! DEFINITION. The object dictionary's write path (R330 to R343): the checks every write passes, its completion or abort, the
writes that wait, and the claims of the resource map. -/

namespace Sys2Proof.Machine

/-- An abort code (R342): class in [31:24], detail in [23:0]. -/
def abortCode (cls detail : Nat) : Nat := cls * 2 ^ 24 + detail

/-- The detail that names an object (R342). -/
def objDetail (index sub : Nat) : Nat := index * 256 + sub

def mailboxOf (s : State) (m : Nat) : Mailbox := tblGet {} s.dict.mailboxes m
def setMailbox (s : State) (m : Nat) (x : Mailbox) : State :=
  { s with dict := { s.dict with mailboxes := tblSet {} s.dict.mailboxes m x } }

/-- The mailboxes: one a requester (R336). -/
def mailboxNumbers : List Nat := List.range 5

/-- The requester number of R336; a write from another die counts as none of them. -/
def viaRequester : Via → Nat
  | .mailbox m => m
  | .window c => c
  | .remote _ | .link => 0xFF

/-- A request has ended with a code, 0 on success: the mailbox's status word changes (R338), a core's WIN_ABORT latches the
code of an abort (R337), or the die that asked is answered (R333). -/
def endRequest (s : State) (via : Via) (code : Nat) : State :=
  match via with
  | .mailbox m =>
    let x := mailboxOf s m
    setMailbox s m { x with busy := false, abort := code, seq := (x.seq + 1) % 256,
                            segBytes := if code == 0 then x.nextBytes else 0,
                            last := x.nextLast, nextBytes := 0, nextLast := false }
  | .window c =>
    if code == 0 then s
    else { s with dict := { s.dict with winAbort := tblSet 0 s.dict.winAbort c code } }
  | .remote d => { s with dict := { s.dict with answers := s.dict.answers ++ [(d, code)] } }
  | .link => s

/-- An abort is counted (R342): DICT_ABORTS and the counter of its class. -/
def countAbort (s : State) (code : Nat) : State := bump (bump s 0x8100 2) 0x8100 (0x10 + code / 2 ^ 24 % 64)

/-- A request aborts. -/
def dictAbort (s : State) (via : Via) (code : Nat) : State := endRequest (countAbort s code) via code

/-- A request completes (R345). -/
def dictDone (s : State) (via : Via) : State := endRequest (bump s 0x8100 1) via 0

/-- The engine answers dictionary requests: from 1 ms after reset release, its strap latch done (R6, R334, R384). -/
def dictServes (s : State) : Bool := s.boot.latched && !s.boot.inReset

/-- An index served before the head count closes, by an excluded engine and after a fatal error (R334, R390, R415). -/
def earlyIndex (index : Nat) : Bool := 0x1000 ≤ index && index ≤ 0x10FF

/-- The whole dictionary is served. -/
def dictReady (s : State) : Bool := headCountClosed s && !s.boot.failed

/-- The die a die-indexed object belongs to (R333, R248, R261). -/
def indexDie (index : Nat) : Option Nat :=
  if 0x6100 ≤ index && index ≤ 0x617F then some ((index - 0x6100) / 16)
  else if 0x6200 ≤ index && index ≤ 0x63FF then some ((index - 0x6200) / 64)
  else none

/-- An index that does not exist here: in no table, or of a die not admitted (R330, R333). The vendor-test block exists
(R346). -/
def noIndex (s : State) (index : Nat) : Bool :=
  if 0xF000 ≤ index && index ≤ 0xFFFF then false
  else if (objRows index).isEmpty then true
  else
    match indexDie index with
    | some d => !dieAdmitted s d
    | none => false

/-! ## Where an access goes (R333, R339) -/

/-- This engine, another die, or an abort. -/
inductive Reach where
  | here
  | away (die : Nat)
  | abort (code : Nat)
deriving DecidableEq, Repr

/-- The engine a target names (R338, R339), and for an index with a die number that die's, whatever the target (R333). -/
def reach (s : State) (target index : Nat) : Reach :=
  if target != 0xF && target != dieId s && !dieAdmitted s target then .abort (abortCode 0x0A target)
  else
    let d :=
      match indexDie index with
      | some d => if dieAdmitted s d then d else dieId s
      | none => if target == 0xF then dieId s else target
    if d == dieId s then .here else .away d

/-- The write or segmented transfer that holds an index here, as the object it writes (R335): a transfer to another die's object holds
nothing on this one. -/
def indexHolder (s : State) (via : Via) (index : Nat) : Option Nat :=
  match s.dict.long.find? (fun l => l.index == index) with
  | some l => some (objDetail l.index l.sub)
  | none =>
    mailboxNumbers.findSome? (fun m =>
      match (mailboxOf s m).xfer with
      | some x =>
        if x.write && x.index == index && via != .mailbox m && reach s x.target x.index == .here then some (objDetail x.index x.sub)
        else none
      | none => none)

/-- The state object that blocks a write to an object writable only while something is idle (R332, R433), none while it is
idle: KEY_DIR_BASE and KEY_DIR_ENTRIES (R130), MDC_CTX_BASE (R189), TOK_TABLE_ADDR (R205), the pool's objects (R248), SEGMENT
(R279), the sliver maps (R287), the completion rings and job lists (R328), and the objects writable while another is 0. -/
def idleBlock (s : State) (index sub : Nat) : Option Nat :=
  let self := some (objDetail index sub)
  if index == 0x5800 && (sub == 0x10 || sub == 0x11) then
    if !s.sdx.regs.isEmpty || !s.sdx.keyQueue.isEmpty || !s.sdx.keys.isEmpty then self else none
  else if index == 0x4000 && sub == 6 then
    if !s.mdc.queue.isEmpty || !s.mdc.runs.isEmpty || s.mdc.ctxs.any (fun e => e.2.opn) then self else none
  else if index == 0x4800 && sub == 3 then
    if s.dict.long.any (fun l => l.index == 0x4800 && l.sub == 4) then self else none
  else if 0x6100 ≤ index && index ≤ 0x617F && 2 ≤ sub && sub ≤ 7 then
    if (poolOf s (index % 16)).enabled || (poolOf s (index % 16)).starting then some (objDetail index 1) else none
  else if index == 0x6801 && sub == 3 then
    if s.slots.any (fun e => e.2.state != .idle && !e.2.job.regions.isEmpty) then self else none
  else if index == 0x6801 && sub == 5 then
    if objGet s 0x6801 4 != 0 then some (objDetail 0x6801 4) else none
  else if 0x6810 ≤ index && index ≤ 0x681F then
    if objGet s index 3 != 0 then some (objDetail index 3) else none
  else if 0x7010 ≤ index && index ≤ 0x701F && sub ≤ 2 then
    if queueCount s (index - 0x7010) != 0 then self else none
  else if 0x7020 ≤ index && index ≤ 0x7027 && sub ≤ 3 then
    if objGet s index 4 != (if objGet s index 3 == 0 && objGet s index 2 == 0 then 0 else memNat s (objGet s index 3) 8)
    then some (objDetail index 4) else none
  else if index == 0x2050 && sub == 2 then
    if objGet s 0x2050 1 != 0 then some (objDetail 0x2050 1) else none
  else if 0x7500 ≤ index && index ≤ 0x750F && sub == 3 then
    if objGet s index 2 != 0 then some (objDetail index 2) else none
  else if index == 0x3001 && sub == 1 then
    if s.net.qps.any (fun e => e.2.state != .disabled) then self else none
  else if index == 0x3001 && sub == 2 then
    if s.net.lrs.any (fun e => e.2.state != .disabled) then self else none
  else if (index == 0x3010 || index == 0x3011) && (sub == 7 || sub == 8) then
    if s.net.qps.any (fun e => e.2.state != .disabled && e.2.port == index - 0x3010) then self else none
  else if index == 0xA000 && (sub == 2 || sub == 3) then
    if objGet s 0xA000 1 != 0 then some (objDetail 0xA000 1) else none
  else none

/-- The checks of the type and range of a written value (R331), none when it passes. -/
def valueAbort (r : ObjRow) (index sub : Nat) (data : List Byte) : Option Nat :=
  match r.ty with
  | .domain lo hi mult =>
    if lo ≤ data.length && data.length ≤ hi && data.length % mult == 0 then none else some (abortCode 5 (hi % 2 ^ 24))
  | .vstr => if data.length ≤ 255 then none else some (abortCode 5 255)
  | ty =>
    match ty.size with
    | none => none
    | some n =>
      if data.length != n then some (abortCode 5 n)
      else if (ty == .bool && 1 < leNat data) || !r.range.holds (leNat data) then some (abortCode 6 (objDetail index sub))
      else none

/-- What decides a dictionary write before its effect: an abort code, a write to be discarded, or leave to go on. -/
inductive WriteVerdict where
  | abort (code : Nat)
  | discard
  | go
deriving DecidableEq, Repr

/-- The highest subindex in use at an index; that of a vendor-test index is not stated (R330, log entry 232). -/
def highestSub (index : Nat) : Nat := if 0xF000 ≤ index then Config.vendorHighest index % 256 else objHighest index

/-- The checks every write passes in turn (R330 to R335, R433): not yet served, index, subindex, access, held index, what `bad`
finds in the value, idle. -/
def verdictBy (s : State) (via : Via) (index sub : Nat) (bad : ObjRow → Option Nat) : WriteVerdict :=
  let obj := objDetail index sub
  if !earlyIndex index && !dictReady s then .abort (abortCode 7 obj)
  else if noIndex s index then .abort (abortCode 1 obj)
  else if sub == 0 then .abort (abortCode 3 obj)
  else if highestSub index < sub then .abort (abortCode 2 obj)
  else if 0xF000 ≤ index then .abort (abortCode 3 obj)
  else
    match objRow index sub with
    | none => .discard
    | some r =>
      if r.acc == .ro || r.acc == .cst then .abort (abortCode 3 obj)
      else
        match indexHolder s via index with
        | some h => .abort (abortCode 8 h)
        | none =>
          match bad r with
          | some c => .abort c
          | none =>
            match idleBlock s index sub with
            | some b => .abort (abortCode 8 b)
            | none => .go

/-- The checks of a write with its value. -/
def writeVerdict (s : State) (via : Via) (index sub : Nat) (data : List Byte) : WriteVerdict :=
  verdictBy s via index sub (fun r => valueAbort r index sub data)

/-- What a write does once its checks have passed: it ends the request itself. -/
abbrev WriteEffect := Via → Nat → Nat → List Byte → State → State

/-- What the trace record of a write shows: its value, or its length when it is segmented (R419). The last segment of a
mailbox's transfer leaves LAST set. -/
def tracedValue (s : State) (via : Via) (data : List Byte) : Nat :=
  match via with
  | .mailbox m => if (mailboxOf s m).nextLast then data.length else leNat data
  | _ => if data.length ≤ 8 then leNat data else data.length

/-- A dictionary write on this engine: its checks, its trace record (R419), its effect. -/
def dictWriteWith (effect : WriteEffect) (via : Via) (index sub : Nat) (data : List Byte) (s : State) : State :=
  match writeVerdict s via index sub data with
  | .abort c => dictAbort s via c
  | .discard => dictDone s via
  | .go =>
    effect via index sub data (traceRec s 7 0 63 (viaRequester via) (objDetail index sub) (tracedValue s via data))

/-! ## What a write leaves open until every engine has applied it -/

/-- What a write of an index has changed while its outcome elsewhere is not known. -/
def keptOf (s : State) (index : Nat) : Option Before := (s.dict.kept.find? (fun e => e.1 == index)).map (·.2)

/-- Nothing is kept of an index any longer. -/
def unkeep (s : State) (index : Nat) : State :=
  { s with dict := { s.dict with kept := s.dict.kept.filter (fun e => e.1 != index) } }

/-- What an index held is kept. -/
def keep (s : State) (index : Nat) (b : Before) : State :=
  let t := unkeep s index
  { t with dict := { t.dict with kept := t.dict.kept ++ [(index, b)] } }

/-- A write that this engine forwards, or that another has forwarded to it, keeps what the object held before it, its first byte
included, until the outcome is known (R48, R100, R205, R312). -/
def keepBefore (s : State) (via : Via) (index : Nat) (b : Before) : State :=
  if (via == .link || !(otherDies s).isEmpty) && (keptOf s index).isNone then keep s index b else s

/-- An object is a prime set's image (R48). -/
def isPrimeImage (index sub : Nat) : Bool := 0x2100 ≤ index && index ≤ 0x2107 && sub == 1

/-- PRIME_SET_USERS (R48): the job slots whose jobs name a set. -/
def primeUsers (s : State) (n : Nat) : Nat := s.slots.countP (fun e => e.2.state != .idle && e.2.job.primeSets.testBit n)

/-- A write's first segment is refused while its object has users (R48). -/
def firstBlocked (s : State) (index sub : Nat) : Bool := isPrimeImage index sub && primeUsers s (index - 0x2100) != 0

/-- The engines to which a write of an index was forwarded learn how it has ended, and nothing is kept of it. -/
def tellOutcome (s : State) (index abort : Nat) : State :=
  if (keptOf s index).isNone then s
  else if (otherDies s).isEmpty then unkeep s index
  else send (unkeep s index) (.outcome index abort)

/-- A segmented write of an image ends unfinished after its first byte. -/
def forgetFirst (s : State) (x : Xfer) : State :=
  if x.write && x.moved != 0 && isPrimeImage x.index x.sub then tellOutcome s x.index (abortCode 0x0B 0) else s

/-- A mailbox ends its open segmented transfer with a TRANSFER code (R340, R341): the status word changes and the index is
released. -/
def endTransfer (s : State) (m detail : Nat) : State :=
  let s := countAbort s (abortCode 0x0B detail)
  let s := match (mailboxOf s m).xfer with
    | some x => forgetFirst s x
    | none => s
  let x := mailboxOf s m
  setMailbox s m { x with xfer := none, busy := false, abort := abortCode 0x0B detail, seq := (x.seq + 1) % 256,
                          segBytes := 0, last := true, nextBytes := 0, nextLast := false }

/-- A mailbox asks for a write of n bytes: it is busy (R338). -/
def asking (s : State) (via : Via) (n : Nat) : State :=
  match via with
  | .mailbox m => setMailbox s m { mailboxOf s m with busy := true, nextBytes := n, nextLast := false }
  | _ => s

/-- A write by a mailbox as it takes effect: up to 8 bytes are one expedited request, a longer value is a whole segmented
transfer at its last segment, its start and its earlier segments completed (R338 to R340); one that its object's users refuse is at
its first. -/
def startWrite (s : State) (via : Via) (index sub : Nat) (data : List Byte) : State :=
  match via with
  | .mailbox m =>
    if data.length ≤ 8 then asking s via data.length
    else
      let k := if firstBlocked s index sub then 1 else (data.length + 2047) / 2048
      let x := mailboxOf s m
      setMailbox (bumpBy s 0x8100 1 k) m { x with
        busy := true, seq := (x.seq + k) % 256, nextBytes := (data.length - 1) % 2048 + 1, nextLast := true }
  | _ => s

/-- A write that a requester makes of an object (R336 to R341). A mailbox request made while its mailbox is busy is discarded;
one made while a segmented transfer is open is not served and ends that transfer. No window write carries more than 8 bytes: one
of a longer object aborts with its length (R337). -/
def requestWrite (effect : WriteEffect) (via : Via) (index sub : Nat) (data : List Byte) (s : State) : State :=
  if !dictServes s then s
  else
    match via with
    | .mailbox m =>
      let x := mailboxOf s m
      if x.busy then bump s 0x8100 3
      else if x.xfer.isSome then endTransfer s m 2
      else
        match writeVerdict s via index sub data with
        | .abort c => dictAbort (asking s via data.length) via c
        | _ => dictWriteWith effect via index sub data (startWrite s via index sub data)
    | .window _ => dictWriteWith effect via index sub (if data.length ≤ 8 then data else []) s
    | _ => dictWriteWith effect via index sub data s

/-! ## Writes that go to every admitted engine, and writes that wait -/

/-- A federation message (R386): 28 bytes and their CRC32C. -/
def fedBytes (ty src dst hop : Nat) (payload : List Byte) : List Byte :=
  let b := leBytes 1 ty ++ leBytes 1 src ++ leBytes 1 dst ++ leBytes 1 hop ++ (payload ++ leBytes 24 0).take 24
  b ++ leBytes 4 (crc32c b)

/-- A message from this die. -/
def fedSend (s : State) (ty dst : Nat) (payload : List Byte) : State := send s (.fed (fedBytes ty (dieId s) dst 0 payload))

/-- The bytes of a forwarded write (log entry 147). -/
def forwardBytes (index sub : Nat) (data : List Byte) : List Byte :=
  leBytes 2 index ++ leBytes 1 sub ++ leBytes 1 0 ++ leBytes 4 data.length ++ data

/-- A piece of a forwarded write is sent to all dies: 20 bytes and their sequence number (R386). -/
def sendPiece (s : State) (piece : List Byte) : State :=
  fedSend { s with fed := { s.fed with pieceSeq := (s.fed.pieceSeq + 1) % 2 ^ 32 } } 7 0xFF
    ((piece ++ leBytes 20 0).take 20 ++ leBytes 4 s.fed.pieceSeq)

/-- A write is forwarded to every other engine in pieces (R333, R386). -/
def forward (s : State) (index sub : Nat) (data : List Byte) : State :=
  let b := forwardBytes index sub data
  (List.range (ceilDiv b.length 20)).foldl (fun s k => sendPiece s ((b.drop (20 * k)).take 20)) s

/-- The write of a package-scoped object has been applied here: it is forwarded by the serving engine and completes once every
other admitted engine has applied it (R333). -/
def packageDone (s : State) (via : Via) (index sub : Nat) (data : List Byte) : State :=
  if via == .link || (otherDies s).isEmpty then dictDone s via
  else
    let s := forward s index sub data
    { s with dict := { s.dict with long := s.dict.long ++
        [{ via := via, index := index, sub := sub, localDone := true, othersDone := false }] } }

/-- A write waits for an operation of this engine, and for the other engines when it is package-scoped (R335). -/
def startLong (s : State) (via : Via) (index sub : Nat) (data : List Byte) (package : Bool) (bits : Nat) : State :=
  let away := package && via != .link && !(otherDies s).isEmpty
  let s := if away then forward s index sub data else s
  { s with dict := { s.dict with long := s.dict.long ++
      [{ via := via, index := index, sub := sub, localDone := false, othersDone := !away, bits := bits }] } }

/-- A write of the core has been posted and has not completed. -/
def postedWrites (s : State) (core : Nat) : Bool := s.dict.long.any (fun l => l.via == .window core)

/-- A mailbox's read of a core's WIN_ABORT, which clears it (R337): expedited, or the start of a segmented one. -/
def winAbortServed (s : State) (m core : Nat) : State :=
  let v := tblGet 0 s.dict.winAbort core
  let s := { s with dict := { s.dict with winAbort := tblSet 0 s.dict.winAbort core 0 } }
  let x := { mailboxOf s m with wait := none }
  if bitsOf x.word 63 56 == 3 then
    let s := dictDone (setMailbox s m { x with data := 4, nextBytes := 0, nextLast := false }) (.mailbox m)
    setMailbox s m { mailboxOf s m with
      xfer := some { write := false, index := 0x2001, sub := core + 1, target := bitsOf x.word 55 52, total := 4, moved := 0, toggle := false,
                     data := leBytes 4 v } }
  else dictDone (setMailbox s m { x with data := v, nextBytes := 4, nextLast := false }) (.mailbox m)

/-- The mailboxes that wait for a core's writes are served once none is left (R335, R337). -/
def serveWaits (s : State) (via : Via) : State :=
  match via with
  | .window c =>
    if postedWrites s c then s
    else mailboxNumbers.foldl (fun s m => if (mailboxOf s m).wait == some c then winAbortServed s m c else s) s
  | _ => s

/-- The long write of an index ends: with its own abort code when it has one. -/
def endLong (s : State) (l : LongWrite) : State :=
  let s := { s with dict := { s.dict with long := s.dict.long.erase l } }
  let s := if l.via == .link then s else tellOutcome s l.index l.abort
  let s := if l.index == 0x1100 && l.sub == 1 && l.abort == 0 then bump s 0x1180 0x0B else s
  serveWaits (if l.abort == 0 then dictDone s l.via else dictAbort s l.via l.abort) l.via

/-- This engine has finished its part of a long write, with an abort code or 0. -/
def localFinish (s : State) (index sub abort : Nat) : State :=
  match s.dict.long.find? (fun l => l.index == index && l.sub == sub && !l.localDone) with
  | none => s
  | some l =>
    let l' := { l with localDone := true, abort := if l.abort == 0 then abort else l.abort }
    if l'.othersDone then
      endLong { s with dict := { s.dict with long := s.dict.long.map (fun x => if x == l then l' else x) } } l'
    else { s with dict := { s.dict with long := s.dict.long.map (fun x => if x == l then l' else x) } }

/-- A package-scoped write aborts with BUSY during re-election (R394). -/
def electingAbort : Nat := abortCode 8 (objDetail 0x1001 4)

/-- The effect of a package-scoped write, which waits for the re-election to end. -/
def packageEffect (effect : WriteEffect) : WriteEffect := fun via index sub data s =>
  if s.fed.electing then dictAbort s via electingAbort else effect via index sub data s

/-! ## Plain effects -/

/-- A plain object takes the value written. -/
def storeEffect : WriteEffect := fun via index sub data s => dictDone (objSet s index sub (leNat data)) via

/-- A plain package-scoped object takes the value written on every engine. -/
def storePackageEffect : WriteEffect := packageEffect (fun via index sub data s =>
  packageDone (objSet s index sub (leNat data)) via index sub data)

/-- A write after which its claimant holds what its value says, nothing or some resources (R343). -/
def claimEffect (holder : Nat) (want : State → Nat → Nat → List Res) (after : WriteEffect) : WriteEffect :=
  fun via index sub data s =>
    match claimBlocked s holder (want s index (leNat data)) with
    | some h => dictAbort s via (abortCode 9 h)
    | none => after via index sub data (claim s holder (want s index (leNat data)))

end Sys2Proof.Machine
end

