-- ==== Sys2Proof/Machine/Admission.lean ====
section
/-! DEFINITION. The admission of a job (R303 to R307), its checks in their order, and the release of a job that ends (R309,
R310). -/

namespace Sys2Proof.Machine

/-- The home die of a stripe: the lowest (R304). -/
def homeDie (stripe : Nat) : Nat := ((List.range 8).find? (fun d => stripe.testBit d)).getD 8

/-- This engine is the home of a slot's job. -/
def isHome (s : State) (n : Nat) : Bool := homeDie (slotOf s n).job.stripe == dieId s

/-- Admission has stopped: a removal or a bus sag is under way, or a fatal error (R396, R398, R415). -/
def admissionStopped (s : State) : Bool := s.removal.state != 0 || s.removal.sag || s.boot.failed

/-- The lowest slot free on every engine of a stripe (R303). -/
def freeSlot (s : State) (stripe : Nat) (e : Elsewhere) : Option Nat :=
  slotNumbers.find? (fun n => !(stripe.testBit (dieId s) && slotBusy s n) && !e.busy.testBit n)

/-- Check 1 of R306, with the reserved fields of R305 and R278. -/
def admitFieldsOk (s : State) (b : List Byte) (a : Admission) : Bool :=
  let h := leNat (b.take 64)
  bitsOf h 293 256 == 0 && bitsOf h 191 32 == 0 && bitsOf h 307 304 ≤ 8
  && (List.range 8).all (fun i => if i < bitsOf h 307 304 then zeros b (132 + 16 * i) 4 else zeros b (128 + 16 * i) 16)
  && a.prefetch ≤ 16 && a.stripe != 0
  && (List.range 8).all (fun d => !a.stripe.testBit d || dieAdmitted s d)

def setOf (s : State) (n : Nat) : PrimeSet := tblGet {} s.sets n

/-- Check 2 of R306. -/
def admitSetsOk (s : State) (a : Admission) : Bool :=
  (List.range 8).all (fun n => !a.primeSets.testBit n || (setOf s n).valid)

/-- The units of TXA staging of this mode: 64 KiB each (R3, R56). -/
def txaUnits (s : State) : Nat := if fullArray s then 480 else 240

/-- Two ranges of units meet; an empty one meets none. -/
def unitsMeet (b n c m : Nat) : Bool := 0 < n && 0 < m && b < c + m && c < b + n

/-- Check 3 of R306: the windows lie in their SRAM, meet no admitted job's window and cover no retired unit (R416). -/
def admitStagingOk (s : State) (a : Admission) : Bool :=
  a.txaBase + a.txaSize ≤ txaUnits s && a.pfgBase + a.pfgSize ≤ pfgUnits
  && !s.slots.any (fun e => e.2.state != .idle &&
    (unitsMeet a.txaBase a.txaSize e.2.job.txaBase e.2.job.txaSize || unitsMeet a.pfgBase a.pfgSize e.2.job.pfgBase e.2.job.pfgSize))
  && (List.range a.pfgSize).all (fun i => !(objGet s 0x9000 3).testBit (a.pfgBase + i))

/-- Check 4 of R306: the pool reservations (R255). -/
def admitPoolsOk (s : State) (a : Admission) : Bool :=
  poolNumbers.all (fun p =>
    let r := a.pools.getD p 0
    let x := poolOf s p
    r == 0 || (x.enabled && poolReserved x + r + poolMargin s p + poolQuarantined x ≤ poolBuffers s p))

/-- The two halves of a region. -/
def regionHalves (r : Region) : List (Nat × Nat) := [(r.base, r.bytes), (r.base + r.half, r.bytes)]

/-- No two ranges of a list meet. -/
def disjointRanges : List (Nat × Nat) → Bool
  | [] => true
  | (b, n) :: t => t.all (fun e => !unitsMeet b n e.1 e.2) && disjointRanges t

/-- Check 5 of R306: the delivery regions (R278). -/
def admitRegionsOk (s : State) (a : Admission) : Bool :=
  a.regions.all (fun r => r.base % 512 == 0 && r.bytes % 512 == 0 && 512 ≤ r.bytes && r.half % 512 == 0 && r.bytes ≤ r.half
    && r.base + r.half + r.bytes ≤ 805306368)
  && disjointRanges (a.regions.flatMap regionHalves ++
      (s.slots.filter (fun e => e.2.state != .idle)).flatMap (fun e => e.2.job.regions.flatMap regionHalves))

/-- The checks of R306 in their order: the code, and whether this engine passes it. Staging, pools and regions are those of the
engines of the stripe. -/
def admitChecks (s : State) (b : List Byte) (a : Admission) : List (Nat × Bool) :=
  let away := !a.stripe.testBit (dieId s)
  [(0x0F08, admitFieldsOk s b a), (0x0F09, admitSetsOk s a), (0x0F0A, away || admitStagingOk s a), (0x0C02, away || admitPoolsOk s a),
   (0x0E01, away || admitRegionsOk s a)]

/-- The code of the first check of R306 that fails on an engine of the stripe, 0 when all pass. -/
def admitCode (s : State) (b : List Byte) (a : Admission) (e : Elsewhere) : Nat :=
  (((admitChecks s b a).find? (fun c => !c.2 || c.1 == e.refusal)).map (·.1)).getD 0

/-- STATE and STATUS of an admission record, and its SLOT (R305). -/
def writeRecordState (s : State) (addr slot status state : Nat) : State :=
  memWrite s addr (leBytes 4 (status * 65536 + slot * 256 + state))

/-- A refusal is raised: its code's counter and source, SEQ_REFUSED, and source 7 (R306, R329, R357). -/
def raiseRefusal (s : State) (code : Nat) : State :=
  let s := bump (raiseErr s code 63) 0x80F0 0x0D
  if (errInfo code).2.2 == 7 then s else fire s 7 code

/-- The job is set up in a slot here (R307): running at PROG_ENTRY, or parked there while a bank is armed (R313). -/
def setUpJob (s : State) (n addr : Nat) (a : Admission) (root : Bool) : State :=
  let s := setSlot s n { state := if s.seq.armed then .parked else .running, pc := a.progEntry, job := a, recAddr := some addr,
                         root := root, target := a.progEntry, horizon := objGet s 0x6801 3, fault := (slotOf s n).fault }
  poolNumbers.foldl (fun s p =>
    let x := poolOf s p
    setPool s p { x with reserved := tblSet 0 x.reserved n (a.pools.getD p 0) }) s

/-- An admission record is admitted or refused (R303, R306, R307): the outcome is the code of the refusal, or the slot. -/
def enterJob (s : State) (b : List Byte) (a : Admission) (addr : Nat) (root : Bool) (e : Elsewhere) (n : Nat) : Nat × State :=
  let code := admitCode s b a e
  if code != 0 then (code, writeRecordState (raiseRefusal s code) addr 0 code 2)
  else
    let s := bump (writeRecordState s addr n 0 1) 0x80F0 0x0C
    let s := if (otherDies s).any (fun d => a.stripe.testBit d) then send s (.admission n addr) else s
    (0, if a.stripe.testBit (dieId s) then setUpJob s n addr a root else s)

/-- A job that another engine of its stripe has admitted is set up in the same slot here (R303). -/
def joinJob (s : State) (n addr : Nat) : State :=
  let (b, s) := readMem s 63 addr 256
  let a := admissionOf b
  if a.stripe.testBit (dieId s) then setUpJob (bump s 0x80F0 0x0C) n addr a false else s

/-- The reservations of a slot's job are released. -/
def dropReservations (s : State) (n : Nat) : State :=
  poolNumbers.foldl (fun s p =>
    let y := poolOf s p
    setPool s p { y with reserved := tblSet 0 y.reserved n 0 }) s

/-- A slot is a user of no pair any more (R326). -/
def dropUser (s : State) (n : Nat) : State :=
  (s.pairs.map (·.1)).foldl (fun s p =>
    let y := pairOf s p
    if y.users.contains n then setPair s p { y with users := y.users.filter (· != n) } else s) s

/-- The home engine writes STATE and STATUS of a job that ends. -/
def recordEnd (s : State) (n : Nat) (at_ : Option Nat) (state status : Nat) : State :=
  match at_ with
  | some a => if isHome s n then writeRecordState s a n status state else s
  | none => s

/-- The poisoning of a slot's regions is owed no longer (R283). -/
def dropPoisoning (s : State) (n : Nat) : State :=
  let mine (x : Dlv) : Bool := x.slot == n && (match x.owner with
    | .poisoning _ => true
    | _ => false)
  { s with dlv := { s.dlv with items := s.dlv.items.filter (fun x => !mine x) } }

/-- The job of a slot leaves this engine (R309): its reservations, regions, windows and semaphore users are released, the slot is freed
and source 2 fires. -/
def finishJob (s : State) (n state status : Nat) : State :=
  let x := slotOf s n
  let s := dropPoisoning (dropUser (dropReservations (recordEnd s n x.recAddr state status) n) n) n
  fire (setSlot { s with net := { s.net with stages := s.net.stages.filter (fun i => i.slot != n) } } n { fault := x.fault }) 2 status

/-- The job of a slot ends here (R309): the buffers of its ALLOCs are freed and counted, and once every held count is zero it leaves
(R255). -/
def endJob (s : State) (n state status : Nat) : State :=
  let x := slotOf s n
  let s := bumpBy (setSlot s n { x with ending := some (state, status) }) 0x80F0 0x11 x.allocs.length
  let s := freeBuffers s n x.allocs
  if heldTotal s n == 0 then finishJob s n state status else s

/-- A job that waited for its frees leaves once they have been accepted. -/
def endWaiting (s : State) (n : Nat) : State :=
  match (slotOf s n).ending with
  | some (state, status) => if heldTotal s n == 0 then finishJob s n state status else s
  | none => s

end Sys2Proof.Machine
end

