-- ==== Sys2Proof/Machine/Sequencer.lean ====
section
/-! DEFINITION. The sequencer (R303 to R329): commands fetched and executed or queued, waits and signals, job lists, program
banks, and the end of jobs. -/

namespace Sys2Proof.Machine

/-- What a command of this block answers: a next state. -/
abbrev Result := Host.Outcome State Fault Refusal

/-! ## Fetching -/

/-- A slot can fetch (R315): it runs, waits for no memory read, no save has stopped it, and the sequencer works. -/
def canFetch (s : State) (n : Nat) : Bool :=
  let x := slotOf s n
  x.state == .running && x.loopRead.isNone && x.listRead.isNone && x.save.isNone && x.ending.isNone && s.boot.hclk && !s.boot.inReset && !s.boot.failed

/-- The command at a slot's position in the active bank. -/
def fetchedWord (s : State) (n : Nat) : Nat := bankWord (activeBank s) (slotOf s n).pc

/-- A command with this opcode goes into a queue (R315). -/
def isQueued (op : Nat) : Bool := op == opWait || op == opSignal || isWork op

/-- A queue has no room for a further command of a slot (R316). -/
def queueFull (s : State) (n q : Nat) : Bool := 64 ≤ queueCount s q || objGet s 0x7000 6 ≤ slotShare s n q

/-- A slot stalls at a command whose queue has no room for it (R316). -/
def stalls (s : State) (n : Nat) : Bool :=
  let w := fetchedWord s n
  canFetch s n && (slotOf s n).pc < 4096 && isQueued (wOpcode w) && !badCommand w && queueFull s n (wQueue w)

/-- The slots among which the sequencer chooses its next fetch. -/
def fetchReady (s : State) : List Nat := slotNumbers.filter (fun n => canFetch s n && !stalls s n)

/-- The sequencer's next fetch is this slot's (R25, R315). -/
def fetchTurn (s : State) (n : Nat) : Bool := arbPick s unitSeq (fetchReady s) == some n

/-- A command leaves program memory: the fetch is granted to the slot (R25), it is counted and the position moves on (R315, R329). -/
def takeCommand (s : State) (n : Nat) : State :=
  let s := arbGrant s unitSeq n (fetchReady s)
  let x := slotOf s n
  bump (setSlot s n { x with pc := x.pc + 1, fetched := true }) 0x80F0 0x0E

/-- The fetch of a command with an opcode by a slot: nothing when the turn is not the slot's or another command stands at its
position; SEQ_COMMAND when its reserved bits are not zero (R319); else the command's own effect, on the word and its index. -/
def fetchAs (s : State) (n op : Nat) (effect : Nat → Nat → State → State) : State :=
  let w := fetchedWord s n
  if !fetchTurn s n || 4096 ≤ (slotOf s n).pc || wOpcode w != op then s
  else if badCommand w then errFault (takeCommand s n) n 0x0F01
  else effect w (slotOf s n).pc (takeCommand s n)

/-- SEQ_COMMAND (R319): the fetch of an unlisted opcode, of reserved bits that are not zero, or beyond command 4,095. -/
def execSeqCommand (slot : Nat) (s : State) : Result :=
  .next (if !fetchTurn s slot then s
    else if 4096 ≤ (slotOf s slot).pc then errFault s slot 0x0F01
    else if badCommand (fetchedWord s slot) then errFault (takeCommand s slot) slot 0x0F01
    else s)

/-! ## Loops (R327) -/

/-- A LOOP's count is latched: with 0 fetch goes on after the body, else the loop is pushed. -/
def enterLoop (s : State) (n count stop : Nat) : State :=
  modSlot s n (fun x =>
    if count == 0 then { x with pc := stop + 1, loopRead := none }
    else { x with loops := { start := x.pc, stop := stop, remaining := count, iter := 0 } :: x.loops, loopRead := none })

/-- LOOP (R320, R327). -/
def execLoop (slot : Nat) (s : State) : Result :=
  .next (fetchAs s slot opLoop (fun w i s =>
    if 4 ≤ (slotOf s slot).loops.length || wLoopEnd w ≤ i then errFault s slot 0x0F02
    else if !wLoopSrc w then enterLoop s slot (wLoopCount w) (wLoopEnd w)
    else
      let a := (slotOf s slot).job.paramBase + wLoopCount w
      if wLoopCount w % 4 != 0 || 2 ^ 48 < a + 4 then errFault s slot 0x0F03
      else modSlot s slot (fun x => { x with loopRead := some { addr := a, stop := wLoopEnd w } })))

/-- The memory count of a LOOP returns (R327); a word read poisoned raises RAS_MEM_ERROR, and the spec states no count for it
(log entry 3). -/
def execLoopCountReturn (slot : Nat) (s : State) : Result :=
  .next (match (slotOf s slot).loopRead with
    | none => s
    | some r =>
      let (b, s) := readMem s slot r.addr 4
      enterLoop s slot (leNat b) r.stop)

/-- ENDLOOP (R327). -/
def execEndloop (slot : Nat) (s : State) : Result :=
  .next (fetchAs s slot opEndloop (fun _ i s =>
    match (slotOf s slot).loops with
    | [] => errFault s slot 0x0F02
    | l :: rest =>
      if l.stop != i then errFault s slot 0x0F02
      else if 1 < l.remaining then
        modSlot s slot (fun x => { x with pc := l.start, loops := { l with remaining := l.remaining - 1, iter := l.iter + 1 } :: rest })
      else modSlot s slot (fun x => { x with loops := rest })))

/-- JUMP (R320, R327): a target outside the innermost open loop faults the slot. -/
def execJump (slot : Nat) (s : State) : Result :=
  .next (fetchAs s slot opJump (fun w _ s =>
    let go := modSlot s slot (fun x => { x with pc := wTarget w })
    match (slotOf s slot).loops with
    | [] => go
    | l :: _ => if l.start ≤ wTarget w && wTarget w ≤ l.stop then go else errFault s slot 0x0F02))

/-- SWITCH (R313): parks the slot while a bank is armed, else acts as a JUMP; with a loop open it faults the slot. -/
def execSwitch (slot : Nat) (s : State) : Result :=
  .next (fetchAs s slot opSwitch (fun w _ s =>
    if !(slotOf s slot).loops.isEmpty then errFault s slot 0x0F02
    else if s.seq.armed then modSlot s slot (fun x => { x with state := .parked, target := wTarget w })
    else modSlot s slot (fun x => { x with pc := wTarget w })))

/-- HALT (R309): the slot fetches nothing further and its ingest stages take no further container (log entry 136). -/
def execHalt (slot : Nat) (s : State) : Result :=
  .next (fetchAs s slot opHalt (fun _ _ s =>
    let mine := (s.net.stages.filter (fun i => i.slot == slot)).map (·.cmd)
    let s := modSlot s slot (fun x => { x with state := .halted })
    releaseUntaken (mine.foldl (fun s c => stageEnds (modStage s c (fun i => { i with stopped := true })) c) s) slot))

/-! ## Queued commands (R315 to R317) -/

/-- The wait of the next command of a slot's queue is requested (R317): that of a semaphore WAIT or of a work command with
WAIT_EN, but a stage makes none before its issue. -/
def askNext (s : State) (n q : Nat) : State :=
  match nextUnissued s n q with
  | none => s
  | some c =>
    let op := wOpcode c.word
    if c.asked then s
    else if op == opWait && wWaitKind c.word == 0 then
      semWait (modCmd s c.id (fun c => { c with asked := true })) (wSemLink c.word) (wSemFull c.word) n (.cmd c.id)
    else if isWork op && !isStage op && wWaitEn c.word then
      semWait (modCmd s c.id (fun c => { c with asked := true })) (wWaitLink c.word) (wWaitFull c.word) n (.cmd c.id)
    else s

/-- The fetched command enters its queue; a slot that stalls there has no turn (R316). -/
def enqueueAs (s : State) (n op : Nat) (fits : Nat → Bool) : State :=
  let w := fetchedWord s n
  if !fetchTurn s n || 4096 ≤ (slotOf s n).pc || wOpcode w != op then s
  else if badCommand w then errFault (takeCommand s n) n 0x0F01
  else if !fits w then s
  else
    let q := wQueue w
    let x := slotOf s n
    let c : Cmd := { id := s.seq.nextId, slot := n, queue := q, word := w, index := x.pc, loops := x.loops }
    let s := { takeCommand s n with cmds := s.cmds ++ [c] }
    askNext { s with seq := { s.seq with nextId := s.seq.nextId + 1 } } n q

/-- Semaphore WAIT (R320): KIND 0. -/
def execWaitSemaphore (slot : Nat) (s : State) : Result := .next (enqueueAs s slot opWait (fun w => wWaitKind w == 0))

/-- Queue-barrier WAIT (R320): KIND 1. -/
def execWaitBarrier (slot : Nat) (s : State) : Result := .next (enqueueAs s slot opWait (fun w => wWaitKind w == 1))

/-- Time WAIT (R320): KIND 2; its delay starts at its issue. -/
def execWaitTime (slot : Nat) (s : State) : Result := .next (enqueueAs s slot opWait (fun w => wWaitKind w == 2))

/-- SIGNAL (R20, R320): a fetched SIGNAL enters its queue and performs its signal when it completes; a unit's signal is
performed at once. -/
def execSignal (src : SignalSource) (s : State) : Result :=
  .next (match src with
    | .fetched n => enqueueAs s n opSignal (fun _ => true)
    | .made n p full => semSignal s p full n)

def execTxaItem (slot : Nat) (s : State) : Result := .next (enqueueAs s slot opTxa (fun _ => true))
def execForgeItem (slot : Nat) (s : State) : Result := .next (enqueueAs s slot opForge (fun _ => true))
def execDeliver (slot : Nat) (s : State) : Result := .next (enqueueAs s slot opDeliver (fun _ => true))
def execKeyRegister (slot : Nat) (s : State) : Result := .next (enqueueAs s slot opKeyRegister (fun _ => true))
def execKeyStream (slot : Nat) (s : State) : Result := .next (enqueueAs s slot opKeyStream (fun _ => true))
def execIngestStage (slot : Nat) (s : State) : Result := .next (enqueueAs s slot opIngest (fun _ => true))
def execBatchStage (slot : Nat) (s : State) : Result := .next (enqueueAs s slot opBatch (fun _ => true))
def execFetch (slot : Nat) (s : State) : Result := .next (enqueueAs s slot opFetch (fun _ => true))
def execAlloc (slot : Nat) (s : State) : Result := .next (enqueueAs s slot opAlloc (fun _ => true))
def execFree (slot : Nat) (s : State) : Result := .next (enqueueAs s slot opFree (fun _ => true))

/-- The delay of the issued time WAIT of a queue has passed (R320). -/
def execWaitTimeExpiry (slot queue : Nat) (s : State) : Result :=
  .next (match s.cmds.find? (fun c => c.slot == slot && c.queue == queue && c.issued && !c.done && wOpcode c.word == opWait
      && wWaitKind c.word == 2) with
    | none => s
    | some c => finishCmd s c.id 0 1 0)

/-- A barrier's condition: every command of its slot fetched before it into the queues of its mask has completed (R320). -/
def barrierHolds (s : State) (c : Cmd) : Bool :=
  !s.cmds.any (fun d => d.slot == c.slot && d.id < c.id && (wWaitArg c.word).testBit d.queue)

/-- The first command of a slot's queue has finished and may complete (R317). -/
def completes (s : State) (c : Cmd) : Bool :=
  c.issued && c.done && (wOpcode c.word != opWait || wWaitKind c.word != 1 || barrierHolds s c)

/-- The completion of a command in its turn (R317, R318, R320): its record, its signal, the release of its queue entry. A stage
signals once an entry and not at its completion (R326). -/
def completeCmd (s : State) (c : Cmd) : State :=
  let op := wOpcode c.word
  let s := traceRec s 2 0 c.slot c.status (wTag c.word) c.index
  let s := if !isWork op then s
    else match c.report with
      | some r => writeRecord s c.queue (dlvRecord s.boot.timeBase r)
      | none => writeRecord s c.queue (workRecord s c)
  let s := { s with cmds := s.cmds.filter (fun d => d.id != c.id) }
  if op == opSignal then semSignal s (wSemLink c.word) (wSemFull c.word) c.slot
  else if isWork op && !isStage op && wSigEn c.word then
    let s := match c.output with
      | some e => if wSigFull c.word then pushEntry s (wSigLink c.word) e else s
      | none => s
    semSignal s (wSigLink c.word) (wSigFull c.word) c.slot
  else s

/-- COMMAND_COMPLETE (R317). -/
def execCommandComplete (slot queue : Nat) (s : State) : Result :=
  .next (match firstCmd s slot queue with
    | none => s
    | some c => if completes s c then completeCmd s c else s)

/-! ## Job lists (R304) -/

/-- FETCHLIST (R304): only an ADMITTER's, only on the home engine, only on a list with entries. -/
def execFetchlist (slot : Nat) (s : State) : Result :=
  .next (fetchAs s slot opFetchlist (fun w _ s =>
    if !(slotOf s slot).job.admitter then errFault s slot 0x0F05
    else if !isHome s slot || objGet s (0x7020 + wList w) 2 == 0 then s
    else modSlot s slot (fun x => { x with listRead := some { list := wList w, max := wListMax w, producer := none, admitted := 0 } })))

/-- The FETCHLIST of a slot has ended. -/
def endList (s : State) (n : Nat) : State := modSlot s n (fun x => { x with listRead := none })

/-- A FETCHLIST goes on while records are produced and its limit is not reached (R304). -/
def listGoesOn (s : State) (r : ListRead) (p : Nat) : Bool :=
  objGet s (0x7020 + r.list) 4 < p && (r.max == 0 || r.admitted < r.max) && !admissionStopped s

/-- A producer count or an admission record of a FETCHLIST returns (R304). -/
def execJoblistRecordReturn (slot : Nat) (elsewhere : Elsewhere) (s : State) : Result :=
  .next (match (slotOf s slot).listRead with
    | none => s
    | some r =>
      let idx := 0x7020 + r.list
      match r.producer with
      | none =>
        let (b, s) := readMem s slot (objGet s idx 3) 8
        let p := leNat b
        if listGoesOn s r p then modSlot s slot (fun x => { x with listRead := some { r with producer := some p } })
        else endList s slot
      | some p =>
        if !listGoesOn s r p then endList s slot
        else
          let addr := objGet s idx 1 + 256 * (objGet s idx 4 % objGet s idx 2)
          let (b, s) := readMem s slot addr 256
          match freeSlot s (admissionOf b).stripe elsewhere with
          | none => endList s slot
          | some n =>
            let (_, s) := enterJob s b (admissionOf b) addr false elsewhere n
            let s := bump s idx 4
            let r := { r with admitted := r.admitted + 1 }
            if listGoesOn s r p then modSlot s slot (fun x => { x with listRead := some r }) else endList s slot)

/-- The slot of the job that ROOT_START admitted while that job runs (R304). Of a job whose stripe leaves this die out, the other
engines say whether its slot is occupied, and the record still reads ADMITTED (log entry 233). -/
def rootRunning (s : State) (elsewhere : Elsewhere) : Option Nat :=
  match s.seq.rootSlot, s.seq.rootAway with
  | some n, none => if (slotOf s n).root && slotBusy s n then some n else none
  | some n, some addr => if elsewhere.busy.testBit n && memNat s addr 1 == 1 then some n else none
  | none, _ => none

/-- What blocks an admission while admission is stopped (R433): REMOVAL_STATE during PREPARE_REMOVAL, else the object written. -/
def stoppedDetail (s : State) (index sub : Nat) : Nat := if s.removal.state != 0 then objDetail 0x1100 2 else objDetail index sub

/-- What the write of 1 to ROOT_START does (R304): the record at ROOT_RECORD is admitted. -/
def rootStartEffect (elsewhere : Elsewhere) : WriteEffect := fun via index sub _ s =>
  match rootRunning s elsewhere with
  | some n => dictAbort s via (abortCode 8 (objDetail (0x7200 + n) 1))
  | none =>
    if admissionStopped s then dictAbort s via (abortCode 8 (stoppedDetail s index sub))
    else
      let addr := objGet s 0x7000 4
      let (b, s) := readMem s 63 addr 256
      let a := admissionOf b
      match freeSlot s a.stripe elsewhere with
      | none => dictAbort s via (abortCode 8 (objDetail 0x7000 5))
      | some n =>
        let (code, s) := enterJob s b a addr true elsewhere n
        if code != 0 then dictAbort s via (abortCode 0x20 code)
        else
          dictDone { s with seq := { s.seq with
            rootSlot := some n
            rootAway := if a.stripe.testBit (dieId s) then none else some addr } } via

/-- ROOT_START (R304). Over the links it brings an admission that another engine has made (R303): the record's address, a multiple of
256, plus the slot. -/
def execRootStart (via : Via) (value : Nat) (elsewhere : Elsewhere) (s : State) : Result :=
  .next (if via == .link then (if dictServes s then joinJob s (value % 64) (value / 256 * 256) else s)
    else requestWrite (rootStartEffect elsewhere) via 0x7000 5 (leBytes 1 value) s)

/-! ## Program banks (R311 to R314) -/

/-- Parked slots resume in the active bank: at their SWITCH target, or at PROG_ENTRY when they have not fetched (R312, R313). -/
def resumeParked (s : State) : State :=
  slotNumbers.foldl (fun s n =>
    let x := slotOf s n
    if x.state == .parked then setSlot s n { x with state := .running, pc := x.target } else s) s

/-- The armed bank is disarmed and the parked slots go on in the active bank (R312); an arming that still waits for other engines is
withdrawn. -/
def disarm (s : State) : State :=
  let s := if keptOf s 0x7000 == some .arm then unkeep s 0x7000 else s
  if s.seq.armed then resumeParked { s with seq := { s.seq with armed := false } } else s

/-- A bank holds new contents. -/
def storeBank (s : State) (bank : Nat) (data : List Byte) : State :=
  { s with mem := if bank == 0 then { s.mem with bank0 := cellsSet [] 0 data } else { s.mem with bank1 := cellsSet [] 0 data } }

/-- The write of a program bank (R311, R312). -/
def progBankEffect (bank : Nat) : WriteEffect := packageEffect (fun via index sub data s =>
  if s.seq.active == bank then dictAbort (raiseErr s 0x0F06 63) via (abortCode 0x20 0x0F06)
  else
    packageDone (storeBank (disarm s) bank data) via index sub data)

/-- PROG_BANK_WRITE (R311). -/
def execProgBankWrite (via : Via) (bank : Nat) (data : List Byte) (s : State) : Result :=
  .next (requestWrite (progBankEffect bank) via 0x7001 (bank + 1) data s)

/-- The CRC32C of a whole bank (R312). -/
def bankCrc (s : State) (bank : Nat) : Nat := crc32c (cellsGet (if bank == 0 then s.mem.bank0 else s.mem.bank1) 0 65536)

/-- The inactive bank is armed (R312). -/
def arm (s : State) : State := { s with seq := { s.seq with armed := true } }

/-- The write of PROG_ARM (R312): a value that matches here arms the inactive bank once it has matched on every engine. -/
def progArmEffect : WriteEffect := packageEffect (fun via index sub data s =>
  if leNat data != bankCrc s (1 - s.seq.active) then dictAbort (raiseErr s 0x0F07 63) via (abortCode 0x20 0x0F07)
  else if via != .link && (otherDies s).isEmpty then dictDone (arm s) via
  else packageDone (keep s index .arm) via index sub data)

/-- PROG_ARM (R312). -/
def execProgArm (via : Via) (crc : Nat) (s : State) : Result := .next (requestWrite progArmEffect via 0x7000 3 (leBytes 4 crc) s)

/-- No slot fetches from the bank: each is free, parked, halted or faulted (R313). -/
def allParked (s : State) : Bool := s.slots.all (fun e => e.2.state != .running)

/-- BANK_SWAP (R313): the banks swap once the last running slot has parked, and every parked slot resumes. -/
def execBankSwap (s : State) : Result :=
  .next (if s.seq.armed && allParked s then
      fire (resumeParked { s with seq := { s.seq with active := 1 - s.seq.active, armed := false } }) 6 0
    else s)

/-- The write of SEM_DEPTH (R19, R326): D, with EMPTY = D, FULL = 0 and no entry on the link, while no slot uses the pair. -/
def semDepthEffect : WriteEffect := fun via index _ data s =>
  let p := index - 0x7100
  if !(pairOf s p).users.isEmpty then dictAbort s via (abortCode 8 (objDetail index 4))
  else dictDone (clearLink (setPair s p { depth := leNat data, empty := leNat data, full := 0, users := [], waits := [] }) p) via

/-- SEM_DEPTH_WRITE (R19, R326). -/
def execSemDepthWrite (via : Via) (pair depth : Nat) (s : State) : Result :=
  .next (requestWrite semDepthEffect via (0x7100 + pair) 1 (leBytes 2 depth) s)

/-! ## Ends of jobs (R309, R310) -/

/-- The stream contexts a slot holds open close with their reference pictures (R177). -/
def closeContexts (s : State) (n : Nat) : State :=
  freeBuffers (dropContexts s n) n ((heldPictures s n).map (·.buffer)).eraseDups

/-- JOB_END (R309, R310): a halted or faulted slot with no command left, holding no buffer but those of its ALLOCs, ends once
the other engines of its stripe are ready too. -/
def execJobEnd (slot : Nat) (othersReady : Bool) (s : State) : Result :=
  .next (
    let x := slotOf s slot
    let others := (otherDies s).any (fun d => x.job.stripe.testBit d)
    if (x.state != .halted && x.state != .faulted) || s.cmds.any (fun c => c.slot == slot) || (others && !othersReady) || x.save.isSome
        || x.ending.isSome
    then s
    else
      let s' := closeContexts s slot
      if x.allocs.length + waitingFrees s' slot < heldTotal s' slot then s
      else endJob s' slot (if x.state == .faulted then 4 else 3) (if x.state == .faulted then x.fault else 0))

/-- SLOT_FAULT_PROPAGATION (R310): a fault of the slot on another engine of its stripe. The home carries the first code to reach it to
the whole stripe, and a slot already faulted takes the home's code. -/
def execSlotFaultPropagation (slot code die : Nat) (s : State) : Result :=
  .next (
    let x := slotOf s slot
    if isHome s slot then slotFault s slot code
    else if x.state == .faulted then
      (if die == homeDie x.job.stripe then setSlot s slot { x with fault := code } else s)
    else faultHere s slot code)

end Sys2Proof.Machine
end

