-- ==== Sys2Proof/Machine/UnitOps.lean ====
section
/-! DEFINITION. The service of tiles, lanes and cores (R73, R416, R417): enable bits, retirement, and the writes of the enable
objects, which TXA, SDX, RSV, MDC and TOK share. -/

namespace Sys2Proof.Machine

/-- The units work: HCLK runs, reset is not asserted and no fatal error has stopped the engine (R415). -/
def unitsWork (s : State) : Bool := s.boot.hclk && !s.boot.inReset && !s.boot.failed

/-- Units dispatch new work items: not during a bus sag (R398). -/
def unitsDispatch (s : State) : Bool := unitsWork s && !s.removal.sag

/-- A tile retired for good (R416): its enable bit reads zero until reset (R73). -/
def unitStuck (s : State) (k : UnitKind) (u : Nat) : Bool := k == .txa && s.txa.stuck.contains u

/-- The bits of a write that start a self-test: set where they read 0, of present units not retired for good (R73). -/
def testedUnits (s : State) (k : UnitKind) (base value : Nat) : List Nat :=
  ((List.range 64).map (· + base)).filter (fun u =>
    value.testBit (u - base) && u < unitCount s k && !unitEnabled s k u && !unitStuck s k u)

/-- The bits a write clears. -/
def clearedUnits (s : State) (k : UnitKind) (base value : Nat) : List Nat :=
  ((List.range 64).map (· + base)).filter (fun u => !value.testBit (u - base) && takesItems s k u)

/-- The write of an enable object (R73): a cleared unit leaves service when its item completes; units set run their self-tests
together and the write waits for them. -/
def enableEffect (k : UnitKind) (base : Nat) : WriteEffect := fun via index sub data s =>
  let v := leNat data
  let tests := testedUnits s k base v
  let s := (clearedUnits s k base v).foldl (fun s u =>
    if unitBusy s k u then setDraining s k (setAdd (drainingOf s k) [u]) else setEnable s k u false) s
  if tests.isEmpty then dictDone s via
  else startLong s via index sub data false (tests.foldl (fun n u => n + 2 ^ u) 0)

/-- The write of an enable object as a command. -/
def enableWrite (k : UnitKind) (high : Bool) (width : Nat) (via : Via) (value : Nat) (s : State) : State :=
  let base := if high then 64 else 0
  requestWrite (enableEffect k base) via (enableIndex k) (enableSub k base) (leBytes width value) s

/-! ### RSV's requests (R25, R158) -/

/-- A core takes a call. -/
def setRsvCore (s : State) (c : Nat) (call : Option RsvCall) : State :=
  { s with rsv := { s.rsv with cores := tblSet none s.rsv.cores c call } }

/-- Every call that waits is refused: no core is in service (R158). -/
def refuseCalls (s : State) : State :=
  ((s.rsv.moved ++ s.rsv.waiting).map (·.slot) ++ s.rsv.works.map (·.slot)).foldl (fun s n => errFault s n 0x0704)
    { s with rsv := { s.rsv with moved := [], waiting := [], works := [] } }

/-- The slots with a call to be taken. -/
def callSlots (s : State) : List Nat :=
  (s.rsv.waiting.map (·.slot) ++ (s.rsv.works.filter (fun w => w.left != 0)).map (·.slot)).eraseDups

/-- A unit's request has one call more in the cores, or one less. -/
def modRsvWork (s : State) (id : Nat) (f : RsvWork → RsvWork) : State :=
  { s with rsv := { s.rsv with works := s.rsv.works.map (fun w => if w.id == id then f w else w) } }

/-- A slot's oldest call goes to a core: of its RSV_CALLs, else of its units' requests. -/
def giveCall (s : State) (core n : Nat) : State :=
  match s.rsv.waiting.find? (fun c => c.slot == n) with
  | some c => setRsvCore { s with rsv := { s.rsv with waiting := s.rsv.waiting.erase c } } core (some c)
  | none =>
    match s.rsv.works.find? (fun w => w.slot == n && w.left != 0) with
    | none => s
    | some w =>
      setRsvCore (modRsvWork s w.id (fun w => { w with left := w.left - 1, running := w.running + 1 })) core
        (some { slot := n, key := 0, ctr := 0, part := some w.id })

/-- A free core takes the call that comes first: one that has lost its core, else the oldest of the slot R25 chooses (R25, R158). -/
def takeCall (s : State) (core : Nat) : State :=
  match s.rsv.moved with
  | c :: rest => setRsvCore { s with rsv := { s.rsv with moved := rest } } core (some c)
  | [] =>
    match arbPick s unitRsv (callSlots s) with
    | none => s
    | some n => giveCall (arbGrant s unitRsv n (callSlots s)) core n

/-- Waiting calls go to the free cores, the lowest first. -/
def serveCalls : Nat → State → State
  | 0, s => s
  | n + 1, s =>
    match freeUnit s .rsv with
    | some c => serveCalls n (takeCall s c)
    | none => s

/-- RSV serves its requests: with no core in service they are refused, else free cores take them (R158). -/
def rsvServe (s : State) : State := if (serviceList s .rsv).isEmpty then refuseCalls s else serveCalls 64 s

/-- A unit's request for calls enters RSV; refused with no core in service, its slot is faulted (R158). -/
def askCalls (s : State) (slot : Nat) (user : RsvUser) (n : Nat) : State :=
  rsvServe { s with rsv := { s.rsv with
    works := s.rsv.works ++ [{ id := s.rsv.nextWork, slot := slot, user := user, left := n }], nextWork := s.rsv.nextWork + 1 } }

/-- A unit waits for calls. -/
def drawing (s : State) (user : RsvUser) : Bool := s.rsv.works.any (fun w => w.user == user)

/-- A unit needs n calls for a use (R158): true once it has them; else it asks for them and waits. -/
def needCalls (s : State) (slot : Nat) (user : RsvUser) (n : Nat) : State × Bool :=
  if n == 0 then (s, true)
  else if s.rsv.drawn.contains (slot, user) then ({ s with rsv := { s.rsv with drawn := s.rsv.drawn.erase (slot, user) } }, true)
  else if drawing s user then (s, false)
  else (askCalls s slot user n, false)

/-- One call of a unit's request has returned; with its last the unit has what it asked for. -/
def callBack (s : State) (id : Nat) : State :=
  let s := modRsvWork s id (fun w => { w with running := w.running - 1 })
  let done := s.rsv.works.filter (fun w => w.left == 0 && w.running == 0)
  { s with rsv := { s.rsv with
    works := s.rsv.works.filter (fun w => w.left != 0 || w.running != 0), drawn := s.rsv.drawn ++ done.map (fun w => (w.slot, w.user)) } }

/-- The self-tests of an enable write are complete (R73, R417): the units that pass enter service, but for a tile retired for good
meanwhile; each that fails stays out, its retired bit set, with RAS_SELFTEST, and the write aborts naming the lowest. -/
def selftestDone (s : State) (k : UnitKind) (failed : List Nat) : State :=
  match s.dict.long.find? (fun l => l.index == enableIndex k && l.bits != 0 && !l.localDone) with
  | none => s
  | some l =>
    let units := (List.range 128).filter (fun u => l.bits.testBit u)
    let bad := units.filter (fun u => failed.contains u)
    let s := (units.filter (fun u => !failed.contains u && !unitStuck s k u)).foldl (fun s u => setRetired (setEnable s k u true) k u false) s
    let s := bad.foldl (fun s u => raiseErr (setRetired s k u true) 0x1206 63) s
    let s := if k == .rsv then rsvServe s else s
    match bad with
    | [] => localFinish s l.index l.sub 0
    | u :: _ => localFinish s l.index l.sub (abortCode 0x10 (enableIndex k * 256 + u))

/-- UNIT_SELFTEST_COMPLETE (R417). -/
def execUnitSelftestComplete (kind : UnitKind) (failed : List Nat) (s : State) : Result := .next (selftestDone s kind failed)

/-- A job slot may use a prime set: its admission record names it (R308) and it is valid. -/
def setUsable (s : State) (slot set : Nat) : Bool :=
  set ≤ 7 && (slotOf s slot).job.primeSets.testBit set && (setOf s set).valid

/-- The size in bytes of an element type (R265), 0 for a code that is none. -/
def typeBytes (t : Nat) : Nat :=
  match t with
  | 1 => 1 | 2 => 1 | 3 => 1 | 4 => 1 | 5 => 2 | 6 => 2 | 7 => 4 | 8 => 2 | 9 => 2 | 10 => 4 | 11 => 4 | 12 => 8 | _ => 0

end Sys2Proof.Machine
end

