-- ==== Sys2Proof/Machine/Descriptors.lean ====
section
/-! DEFINITION. Tensor descriptors (R263 to R274): their fields, the checks of R267, and the lines a transfer writes. -/

namespace Sys2Proof.Machine

/-! ## Fields (R264) -/

/-- A descriptor from its 128 bytes. -/
def descOf (b : List Byte) : Desc :=
  let h := leNat b
  { base := bitsOf h 63 0, version := bitsOf h 71 64, elemType := bitsOf h 79 72, rank := bitsOf h 87 80, space := bitsOf h 88 88,
    idxRole := bitsOf h 90 89, idxMode := bitsOf h 92 91,
    perm := (List.range 6).map (fun k => bitsOf h (3 * k + 98) (3 * k + 96)),
    dims := (List.range 6).map (fun k => bitsOf h (32 * k + 159) (32 * k + 128)),
    strides := (List.range 6).map (fun k => signed 48 (bitsOf h (48 * k + 367) (48 * k + 320))),
    fill := bitsOf h 703 640, idxAddr := bitsOf h 767 704, idxCount := bitsOf h 799 768, idxType := bitsOf h 807 800,
    idxDim := bitsOf h 815 808, rowsLog2 := bitsOf h 823 816, colsLog2 := bitsOf h 831 824, crc := bitsOf h 1023 992,
    crcOk := crc32c (b.take 124) == bitsOf h 1023 992,
    reserved := bitsOf h 95 93 == 0 && bitsOf h 127 114 == 0 && bitsOf h 639 608 == 0 && bitsOf h 991 832 == 0 }

def Desc.elem (d : Desc) : Nat := typeBytes d.elemType
def Desc.dim (d : Desc) (k : Nat) : Nat := d.dims.getD k 1
def Desc.stride (d : Desc) (k : Nat) : Int := d.strides.getD k 0
def Desc.permAt (d : Desc) (k : Nat) : Nat := d.perm.getD k k

/-- The size of an index of a type (R264), 0 for an unlisted one. -/
def idxBytes (t : Nat) : Nat := if t == 8 || t == 9 then 2 else if t == 11 then 4 else if t == 12 then 8 else 0

/-- Bytes of a line in a space: 512 in scratchpad, 64 in device memory. -/
def lineBytes (space : Nat) : Nat := if space == 1 then 512 else 64

/-! ## Footprint (R268) -/

def Desc.lo (d : Desc) : Int :=
  (List.range 6).foldl (fun a k => a + min 0 (d.stride k * ((d.dim k : Int) - 1))) (d.base : Int)
def Desc.hi (d : Desc) : Int :=
  (List.range 6).foldl (fun a k => a + max 0 (d.stride k * ((d.dim k : Int) - 1))) (d.base : Int) + (d.elem : Int) - 1

/-- The number of elements a shape has. -/
def product (l : List Nat) : Nat := l.foldl (· * ·) 1

/-- A dimension put in its place by the magnitude of its stride, ties by number. -/
def insertDim (d : Desc) (k : Nat) : List Nat → List Nat
  | [] => [k]
  | j :: t => if (d.stride k).natAbs < (d.stride j).natAbs then k :: j :: t else j :: insertDim d k t

/-- The procedure of check 6, over the sorted dimensions. -/
def overlaps (d : Desc) : Nat → List Nat → Bool
  | _, [] => false
  | covered, k :: t =>
    (d.stride k).natAbs < covered || overlaps d (covered + (d.stride k).natAbs * (d.dim k - 1)) t

def descOverlaps (d : Desc) : Bool :=
  overlaps d d.elem (((List.range d.rank).filter (fun k => 1 < d.dim k)).foldl (fun l k => insertDim d k l) [])

/-! ## The checks of R267 -/

/-- Check 2 of R267; `source` tells which of the pair it is. -/
def descFieldsOk (source : Bool) (d : Desc) : Bool :=
  let ks := List.range 6
  d.version == 1 && d.reserved && 1 ≤ d.rank && d.rank ≤ 6 && d.elem != 0 && !(source && d.space == 1)
  && ks.all (fun k => if k < d.rank then 1 ≤ d.dim k else d.dim k == 1 && d.stride k == 0 && d.permAt k == k)
  && (List.range d.rank).all (fun j => (List.range d.rank).any (fun k => d.permAt k == j))
  && (!source || (List.range d.rank).all (fun k => d.permAt k == k))
  && d.idxMode ≤ 2 && (d.idxRole == 0 || d.idxRole == (if source then 1 else 2))
  && (d.elem == 8 || d.fill < 2 ^ (8 * d.elem))
  && (d.idxRole != 0 || (d.idxDim == 0 && d.idxType == 0 && d.idxCount == 0 && d.idxAddr == 0 && d.idxMode == 0))
  && (d.permAt 0 != 0 || (d.rowsLog2 == 0 && d.colsLog2 == 0))

/-- Check 3 of R267. -/
def descRangeOk (d : Desc) : Bool :=
  0 ≤ d.lo && product (d.dims.take d.rank) ≤ 2 ^ 40 && d.hi ≤ (if d.space == 1 then 805306367 else 2 ^ 48 - 1)

/-- Checks 1 to 3 of R267, as a code: what a destination needs to have a trustworthy footprint. -/
def descFirst (source : Bool) (aligned : Bool) (d : Desc) : Nat :=
  if !aligned then 0x0D05
  else if !d.crcOk then 0x0D01
  else if !descFieldsOk source d then 0x0D02
  else if !descRangeOk d then 0x0D03
  else 0

/-- The alignment of a base: the access width, and 4,096 for a ring object in device memory (R42), which every tensor of RES32 there is
taken for (DESIGN CHOICE, log entry 257). -/
def baseAlign (d : Desc) : Nat := if d.space == 0 && d.elemType == 0x0A then 4096 else lineBytes d.space

/-- Check 5 of R267, with R42. -/
def descAlignOk (d : Desc) : Bool :=
  let w := lineBytes d.space
  d.base % baseAlign d == 0 && (List.range 6).all (fun k => k == 0 || d.dim k ≤ 1 || d.stride k % (w : Int) == 0)

/-- Check 7 of R267. -/
def descIndexOk (d : Desc) : Bool :=
  d.idxRole == 0 || (1 ≤ d.idxDim && d.idxDim + 1 ≤ d.rank && idxBytes d.idxType != 0 && 1 ≤ d.idxCount && d.idxAddr % 64 == 0
    && d.idxAddr + d.idxCount * idxBytes d.idxType ≤ 2 ^ 48)

/-- Checks 1 to 7 of R267, as the code of the first that fails, 0 for none. -/
def descCode (source : Bool) (aligned : Bool) (d : Desc) : Nat :=
  let c := descFirst source aligned d
  if c != 0 then c
  else if d.stride 0 != (d.elem : Int) then 0x0D04
  else if !descAlignOk d then 0x0D05
  else if !source && descOverlaps d then 0x0D06
  else if !descIndexOk d then 0x0D07
  else 0

/-- The shapes of a pair agree (R266, R271, R272). -/
def shapesAgree (s d : Desc) : Bool :=
  (List.range d.rank).all (fun k =>
    let j := d.permAt k
    if s.idxRole == 1 && j == s.idxDim then d.dim k == s.idxCount
    else if d.idxRole == 2 && k == d.idxDim then s.dim j == d.idxCount
    else d.dim k == s.dim j)

/-- Checks 8 and 9 of R267. -/
def pairCode (s d : Desc) : Nat :=
  if d.permAt 0 != 0 && !(d.rowsLog2 ≤ 8 && d.colsLog2 ≤ 8 && 2 ^ (d.rowsLog2 + d.colsLog2) * d.elem ≤ 65536) then 0x0D08
  else if s.rank != d.rank || s.elemType != d.elemType || (s.idxRole == 1 && d.idxRole == 2) || !shapesAgree s d
      || (s.space == d.space && s.lo ≤ d.hi && d.lo ≤ s.hi) then 0x0D09
  else 0

/-- A link entry read as a contiguous source for a destination (R277): packed in the order of its dimensions. -/
def entrySource (e : LinkEntry) (d : Desc) : Desc :=
  let dimOf (j : Nat) : Nat :=
    match (List.range d.rank).find? (fun k => d.permAt k == j) with
    | some k => if d.idxRole == 2 && k == d.idxDim then d.idxCount else d.dim k
    | none => 1
  let dims := (List.range 6).map dimOf
  { base := e.addr, version := 1, elemType := d.elemType, rank := d.rank, space := e.space, idxRole := 0, idxMode := 0,
    perm := List.range 6, dims := dims,
    strides := (List.range 6).map (fun k => if k < d.rank then ((d.elem * product (dims.take k) : Nat) : Int) else 0),
    fill := 0, idxAddr := 0, idxCount := 0, idxType := 0, idxDim := 0, rowsLog2 := 0, colsLog2 := 0, crc := 0, crcOk := true,
    reserved := true }

/-! ## Index tensors (R270 to R273) -/

/-- A resolved position: poisoned, out of range, or a slice and whether clamping changed it. -/
inductive IdxPos where
  | poisoned
  | out
  | at (v : Nat) (changed : Bool)
deriving DecidableEq, Repr

/-- An index value. -/
def idxValue (t v : Nat) : Int := if t == 9 then signed 16 v else if t == 11 then signed 32 v else v

/-- The resolution of a value (R270). -/
def resolveIdx (mode n : Nat) (v : Int) : IdxPos :=
  if 0 ≤ v && v < (n : Int) then .at v.toNat false
  else if mode == 1 && -(n : Int) ≤ v && v < 0 then .at (n + v).toNat false
  else if mode == 2 then .at (if v < 0 then 0 else n - 1) true
  else .out

/-- The positions of an index tensor, read from device memory. -/
def idxPositions (s : State) (d : Desc) : List IdxPos :=
  if d.idxRole == 0 then []
  else
    let w := idxBytes d.idxType
    (List.range d.idxCount).map (fun p =>
      let a := d.idxAddr + p * w
      if memPoisoned s a w then .poisoned else resolveIdx d.idxMode (d.dim d.idxDim) (idxValue d.idxType (memNat s a w)))

/-- The runs of equal resolved values within windows of 64 positions (R271, R272), counting from position p. -/
def countRuns : Nat → Option Nat → List IdxPos → Nat
  | _, _, [] => 0
  | p, prev, x :: t =>
    let prev := if p % 64 == 0 then none else prev
    match x with
    | .at v _ => (if prev == some v then 0 else 1) + countRuns (p + 1) (some v) t
    | _ => countRuns (p + 1) none t

/-! ## Lines -/

/-- Where the bytes of an element come from. -/
inductive ElemSrc where
  | read (addr : Int)
  | fill
  | poisoned
deriving DecidableEq, Repr

/-- The coordinates of element n of a shape, dimension 0 fastest. -/
def coordsOf : Nat → List Nat → List Nat
  | _, [] => []
  | n, d :: t => n % d :: coordsOf (n / d) t

/-- The address of an element (R266). -/
def elemAddr (d : Desc) (c : List Nat) : Int :=
  (List.range 6).foldl (fun a k => a + (c.getD k 0 : Int) * d.stride k) (d.base : Int)

/-- The shape a transfer runs over: the destination's, with a scatter's indexed dimension replaced by its positions. -/
def transferDims (d : Desc) : List Nat :=
  (List.range 6).map (fun k => if d.idxRole == 2 && k == d.idxDim then d.idxCount else d.dim k)

/-- A position of a scatter whose run goes on at the next position: only the last position of a run is written (R272). -/
def runGoesOn (idx : List IdxPos) (p v : Nat) : Bool :=
  (p + 1) % 64 != 0 && (match idx[p + 1]? with
    | some (.at w _) => w == v
    | _ => false)

/-- Element n of a transfer: its destination address, none where a scatter writes nothing, and its source. -/
def transferElem (src d : Desc) (idx : List IdxPos) (n : Nat) : Option (Int × ElemSrc) :=
  let i := coordsOf n (transferDims d)
  let from_ (fix : Option Nat) : List Nat :=
    (List.range 6).map (fun j =>
      match (List.range d.rank).find? (fun k => d.permAt k == j) with
      | some k => if src.idxRole == 1 && j == src.idxDim then fix.getD 0 else i.getD k 0
      | none => 0)
  if src.idxRole == 1 then
    let p := match (List.range d.rank).find? (fun k => d.permAt k == src.idxDim) with
      | some k => i.getD k 0
      | none => 0
    match idx.getD p .out with
    | .poisoned => some (elemAddr d i, .poisoned)
    | .out => some (elemAddr d i, .fill)
    | .at v _ => some (elemAddr d i, .read (elemAddr src (from_ (some v))))
  else if d.idxRole == 2 then
    match idx.getD (i.getD d.idxDim 0) .out with
    | .at v _ =>
      if runGoesOn idx (i.getD d.idxDim 0) v then none
      else some (elemAddr d ((List.range 6).map (fun k => if k == d.idxDim then v else i.getD k 0)), .read (elemAddr src (from_ none)))
    | _ => none
  else some (elemAddr d i, .read (elemAddr src (from_ none)))

/-- The bytes and poison at an address of a source space: device memory, TXA staging, PFG/SDX staging. -/
def spaceBytes (s : State) (space a n : Nat) : List Byte :=
  match space with
  | 2 => cellsGet s.mem.txa a n
  | 3 => cellsGet s.mem.pfg a n
  | _ => cellsGet s.mem.dev a n
def spacePoisoned (s : State) (space a n : Nat) : Bool :=
  match space with
  | 2 => txaPoisoned s a n
  | 3 => pfgPoisoned s a n
  | _ => memPoisoned s a n

/-- One element's contribution to the lines of a transfer: poisoned, as its source was read or because it is a residue out of
range (R44), which is no failed line (R298). -/
structure Piece where
  addr : Nat
  bytes : List Byte
  poison : Bool
  failed : Bool
  tile : Nat
deriving DecidableEq, Repr

/-- A piece merged into the lines made so far. -/
def mergePiece (dst space : Nat) (p : Piece) : List OutLine → List OutLine
  | [] =>
    let w := lineBytes space
    [{ dst := dst, addr := p.addr / w * w, space := space, data := ((List.range p.bytes.length).map (· + p.addr % w)).zip p.bytes,
       poison := p.poison, tile := p.tile, sub := p.tile, failed := p.failed }]
  | l :: t =>
    let w := lineBytes space
    if l.addr == p.addr / w * w then
      let off := p.addr % w
      { l with
        data := l.data.filter (fun e => e.1 < off || off + p.bytes.length ≤ e.1)
          ++ ((List.range p.bytes.length).map (· + off)).zip p.bytes
        poison := l.poison || p.poison, failed := l.failed || p.failed, tile := max l.tile p.tile } :: t
    else l :: mergePiece dst space p t

/-- What the reads of an item's source have returned: the granules with an error response, those returned poisoned, and where its
unstated bytes begin. -/
structure Fetched where
  errors : List Nat
  soiled : List Nat
  free : Nat
deriving DecidableEq, Repr

/-- The piece of element n of a transfer, in delivery tile n·e / 65,536 (R290, R298). A source granule with an error response is
poisoned, and its bytes, like a poisoned position's, are unstated (log entry 3). Of a residue the descriptor says no prime: bit 31
is what can be checked (R44, log entry 187). -/
def transferPiece (s : State) (src d : Desc) (idx : List IdxPos) (g : Fetched) (n : Nat) : Option Piece :=
  let e := d.elem
  match transferElem src d idx n with
  | none => none
  | some (a, from_) =>
    let (bs, bad) := match from_ with
      | .read r =>
        if src.space == 0 && (granules 64 r.toNat e).any g.errors.contains then (freeBytes (g.free + n * e) e, true)
        else (spaceBytes s src.space r.toNat e,
          spacePoisoned s src.space r.toNat e || (src.space == 0 && (granules 64 r.toNat e).any g.soiled.contains))
      | .fill => (leBytes e src.fill, false)
      | .poisoned => (freeBytes (g.free + n * e) e, true)
    let range := match from_ with
      | .read _ => d.elemType == 0x0A && !bad && 2 ^ 31 ≤ leNat bs
      | _ => false
    some { addr := a.toNat, bytes := bs, poison := bad || range, failed := bad, tile := n * e / 65536 }

/-- The pieces of a transfer, in the order of its elements. -/
def transferPieces (s : State) (src d : Desc) (g : Fetched) : List Piece :=
  (List.range (product (transferDims d))).filterMap
    (transferPiece s src d (idxPositions s (if src.idxRole == 1 then src else d)) g)

/-- The pieces that no later one writes over. -/
def livePieces : List Piece → List Piece
  | [] => []
  | p :: t => if t.any (fun q => q.addr == p.addr) then livePieces t else p :: livePieces t

/-- A line a scatter wrote whole is as its highest positions left it; a masked one keeps the mark of every write (R272, R412). -/
def scatteredLine (w : Nat) (live : List Piece) (l : OutLine) : OutLine :=
  if l.data.length == w then { l with poison := live.any (fun p => p.addr / w * w == l.addr && p.poison) } else l

/-- The lines of a transfer to destination k, before the sliver map. -/
def transferLines (s : State) (src d : Desc) (k : Nat) (g : Fetched) : List OutLine :=
  let ps := transferPieces s src d g
  let ls := ps.foldl (fun ls p => mergePiece k d.space p ls) []
  if d.idxRole == 2 then ls.map (scatteredLine (lineBytes d.space) (livePieces ps)) else ls

/-- The addresses of the lines that hold a destination element (R269). -/
def footprintLines (d : Desc) : List Nat :=
  let w := lineBytes d.space
  ((List.range (product d.dims)).foldl (fun (l : List Nat) n =>
    let a := (elemAddr d (coordsOf n d.dims)).toNat
    setAdd l (((List.range ((a + d.elem - 1) / w + 1 - a / w))).map (fun i => (a / w + i) * w))) [])

/-- The delivery tiles of a transfer. -/
def transferTiles (d : Desc) : Nat := ceilDiv (product (transferDims d) * d.elem) 65536

/-- The blocks of a layout change (R274). -/
def layoutBlocks (src d : Desc) : Nat :=
  if d.permAt 0 == 0 then 0
  else
    let j := d.permAt 0
    let rows := if src.idxRole == 1 && src.idxDim == j then src.idxCount else src.dim j
    let others := (List.range src.rank).filter (fun k => k != 0 && k != j)
    ceilDiv rows (2 ^ d.rowsLog2) * ceilDiv (src.dim 0) (2 ^ d.colsLog2)
      * product (others.map (fun k => if src.idxRole == 1 && src.idxDim == k then src.idxCount else src.dim k))

end Sys2Proof.Machine
end

