-- ==== Sys2Proof/Machine/Num.lean ====
section
/-! DEFINITION. Exact arithmetic the units share: powers and inverses modulo a prime, rounding, and the binary floating-point
formats of R60 and R62. -/

namespace Sys2Proof.Machine

/-! ## Modular arithmetic -/

/-- b^e mod m for an exponent of fewer than n bits, by squaring. -/
def powModN : Nat → Nat → Nat → Nat → Nat
  | 0, _, _, m => 1 % m
  | n + 1, b, e, m =>
    let r := powModN n (b * b % m) (e / 2) m
    if e % 2 = 1 then r * b % m else r

/-- b^e mod m for e below 2^64. -/
def powMod (b e m : Nat) : Nat := powModN 64 (b % m) e m

/-- The inverse of a modulo a prime q. -/
def invMod (a q : Nat) : Nat := powMod a (q - 2) q

/-- The number of factors 2 in n, at most k. -/
def twos : Nat → Nat → Nat
  | 0, _ => 0
  | k + 1, n => if n % 2 = 1 || n = 0 then 0 else twos k (n / 2) + 1

/-- x reaches n − 1 within k squarings. -/
def reachesMinusOne : Nat → Nat → Nat → Bool
  | 0, _, _ => false
  | k + 1, x, n => x == n - 1 || reachesMinusOne k (x * x % n) n

/-- n is a strong probable prime to a base (R47), for odd n above the base. -/
def strongProbablePrime (n b : Nat) : Bool :=
  let s := twos 64 (n - 1)
  let x := powMod b ((n - 1) / 2 ^ s) n
  x == 1 || reachesMinusOne s x n

/-! ## Rounding -/

/-- n / d rounded to nearest, ties to even. -/
def divHalfEven (n d : Nat) : Nat :=
  let q := n / d
  let r := n % d
  if 2 * r < d then q else if d < 2 * r then q + 1 else if q % 2 = 0 then q else q + 1

/-- An integer over a positive one, rounded to nearest, ties to even. -/
def divHalfEvenInt (n : Int) (d : Nat) : Int := if n < 0 then -(divHalfEven n.natAbs d : Int) else divHalfEven n.natAbs d

/-- An integer held between two bounds. -/
def clampInt (lo hi v : Int) : Int := if v < lo then lo else if hi < v then hi else v

/-- The n-bit two's complement pattern of an integer. -/
def toBits (n : Nat) (v : Int) : Nat := (v % (2 ^ n : Int)).toNat

/-! ## Binary floating point -/

/-- A decoded value: NaN, an infinity, or ± m · 2^e. -/
inductive Flt where
  | nan
  | inf (neg : Bool)
  | fin (neg : Bool) (m : Nat) (e : Int)
deriving DecidableEq, Repr

/-- A binary format: exponent bits, fraction bits. -/
structure Fmt where
  eb : Nat
  fb : Nat
deriving DecidableEq, Repr

def fmt32 : Fmt := { eb := 8, fb := 23 }
def fmt16 : Fmt := { eb := 5, fb := 10 }
def fmtB16 : Fmt := { eb := 8, fb := 7 }
def fmtE5M2 : Fmt := { eb := 5, fb := 2 }
def fmt64 : Fmt := { eb := 11, fb := 52 }

def Fmt.bias (f : Fmt) : Int := 2 ^ (f.eb - 1) - 1

/-- The exponent of the unit in the last place of the subnormals. -/
def Fmt.qmin (f : Fmt) : Int := 1 - f.bias - f.fb

/-- An IEEE 754 pattern decoded, subnormals honoured (R60). -/
def fltOf (f : Fmt) (v : Nat) : Flt :=
  let frac := v % 2 ^ f.fb
  let ex := v / 2 ^ f.fb % 2 ^ f.eb
  let neg := v.testBit (f.eb + f.fb)
  if ex = 2 ^ f.eb - 1 then (if frac = 0 then .inf neg else .nan)
  else if ex = 0 then .fin neg frac f.qmin
  else .fin neg (2 ^ f.fb + frac) (f.qmin + (ex - 1 : Int))

/-- FP8E4M3 (R60): no infinity, one NaN pattern. -/
def fltE4M3 (v : Nat) : Flt :=
  let frac := v % 8
  let ex := v / 8 % 16
  let neg := v.testBit 7
  if ex = 15 && frac = 7 then .nan else if ex = 0 then .fin neg frac (-9) else .fin neg (8 + frac) (ex - 10 : Int)

/-- A pair of naturals n / d times 2^e as one fraction. -/
def scaleRat (n d : Nat) (e : Int) : Nat × Nat := if 0 ≤ e then (n * 2 ^ e.toNat, d) else (n, d * 2 ^ (-e).toNat)

/-- floor(log2(n / d)) for positive n and d. -/
def log2Rat (n d : Nat) : Int :=
  let g : Int := (Nat.log2 n : Int) - Nat.log2 d
  let (a, b) := scaleRat n d (-g)
  if b ≤ a then g else g - 1

/-- ± n / d rounded once to nearest, ties to even, with overflow to infinity (R62). -/
def roundRat (f : Fmt) (neg : Bool) (n d : Nat) : Nat :=
  let sign := if neg then 2 ^ (f.eb + f.fb) else 0
  if n = 0 then sign
  else
    let q := max (log2Rat n d - f.fb) f.qmin
    let (a, b) := scaleRat n d (-q)
    let mag := (q - f.qmin).toNat * 2 ^ f.fb + divHalfEven a b
    sign + min mag ((2 ^ f.eb - 1) * 2 ^ f.fb)

/-- An integer times 2^e rounded once; zero is +0. -/
def roundInt (f : Fmt) (m : Int) (e : Int) : Nat :=
  let (n, d) := scaleRat m.natAbs 1 e
  roundRat f (decide (m < 0)) n d

/-- The quiet NaN of a format: 0x7FC00000, 0x7FC0, 0x7E00 (R62). -/
def Fmt.nan (f : Fmt) : Nat := (2 ^ f.eb - 1) * 2 ^ f.fb + 2 ^ (f.fb - 1)

/-- A decoded value written in a format. -/
def fltTo (f : Fmt) : Flt → Nat
  | .nan => f.nan
  | .inf neg => (if neg then 2 ^ (f.eb + f.fb) else 0) + (2 ^ f.eb - 1) * 2 ^ f.fb
  | .fin neg m e =>
    let (n, d) := scaleRat m 1 e
    roundRat f neg n d

/-- The signed value of a finite number in units of 2^u, where its exponent is at least u; 0 for the others. -/
def Flt.units (x : Flt) (u : Int) : Int :=
  match x with
  | .fin neg m e => (if neg then -1 else 1) * ((m * 2 ^ (e - u).toNat : Nat) : Int)
  | _ => 0

/-- Two decoded values added exactly, as an integer times a power of two; neither is special. -/
def fltAddFin (a b : Flt) : Int × Int :=
  match a, b with
  | .fin _ _ ea, .fin _ _ eb => let u := min ea eb; (a.units u + b.units u, u)
  | _, _ => (0, 0)

end Sys2Proof.Machine
end

