-- ==== Sys2Proof/Machine/PrimeSets.lean ====
section
/-! DEFINITION. Prime sets (R39, R45 to R49): their image, its validation, and the NTT order of a ring tile (R35). -/

namespace Sys2Proof.Machine

/-! ## Entries -/

/-- The entry a written image spells, as R46 lays it out: what software writes, without the fields the engine computes. -/
def primeImage (b : List Byte) : PrimeSet :=
  let l := fld b 1 1
  let k := fld b 2 1
  { log2n := fld b 0 1, l := l, k := k,
    recs := (List.range (min 80 (l + k))).map (fun i => { q := fld b (64 + 32 * i) 4, psi := fld b (68 + 32 * i) 4 }) }

/-- The image as it reads: unused records and reserved fields are zero (R45, R46). -/
def primeBytes (x : PrimeSet) : List Byte :=
  let rec1 (r : PrimeRec) : List Byte :=
    leBytes 4 r.q ++ leBytes 4 r.psi ++ leBytes 4 r.psiInv ++ leBytes 4 r.nInv ++ leBytes 8 r.barrett ++ leBytes 2 r.qMod
      ++ List.replicate 6 0
  let used := [BitVec.ofNat 8 x.log2n, BitVec.ofNat 8 x.l, BitVec.ofNat 8 x.k, 0] ++ leBytes 4 x.fingerprint
    ++ List.replicate 56 0 ++ x.recs.flatMap rec1
  used ++ List.replicate (2624 - used.length) 0

/-- FINGERPRINT (R49). -/
def primeFingerprint (x : PrimeSet) : Nat :=
  crc32c ([BitVec.ofNat 8 x.log2n, BitVec.ofNat 8 x.l, BitVec.ofNat 8 x.k]
    ++ x.recs.flatMap (fun r => leBytes 4 r.q ++ leBytes 4 r.psi))

/-! ## Validation (R47) -/

/-- Check 1 of R47. -/
def primeHeaderOk (x : PrimeSet) : Bool := 12 ≤ x.log2n && x.log2n ≤ 17 && 1 ≤ x.l && x.l ≤ 64 && x.k ≤ 16

/-- Check 2 of R47 for one record. -/
def primeOk (log2n q : Nat) : Bool :=
  1518500250 ≤ q && q ≤ 2147483647 && q % 2 ^ (log2n + 1) == 1 && strongProbablePrime q 2 && strongProbablePrime q 7
    && strongProbablePrime q 61

/-- Check 4 of R47 for one record. -/
def rootOk (log2n : Nat) (r : PrimeRec) : Bool := 1 < r.psi && r.psi < r.q && powMod r.psi (2 ^ log2n) r.q == r.q - 1

/-- The index of the first of the records that a check refuses, counting from i. -/
def firstBad (ok : PrimeRec → Bool) : Nat → List PrimeRec → Option Nat
  | _, [] => none
  | i, r :: rs => if ok r then firstBad ok (i + 1) rs else some i

/-- The index of the first record whose Q a lower-numbered record holds. -/
def firstRepeat : Nat → List Nat → List PrimeRec → Option Nat
  | _, _, [] => none
  | i, seen, r :: rs => if seen.contains r.q then some i else firstRepeat (i + 1) (r.q :: seen) rs

/-- The detail of PRIME_INVALID an image draws, none when it passes. -/
def primeCheck (x : PrimeSet) : Option Nat :=
  if !primeHeaderOk x then some 0xFF
  else
    match firstBad (fun r => primeOk x.log2n r.q) 0 x.recs with
    | some i => some i
    | none =>
      match firstRepeat 0 [] x.recs with
      | some i => some i
      | none => firstBad (rootOk x.log2n) 0 x.recs

/-- The fields the engine computes (R46). -/
def primeFill (x : PrimeSet) : PrimeSet :=
  { x with
    fingerprint := primeFingerprint x
    recs := x.recs.map (fun r => { r with
      psiInv := invMod r.psi r.q, nInv := invMod (2 ^ x.log2n) r.q, barrett := 2 ^ 64 / r.q, qMod := r.q % 8191 }) }

/-! ## Commands -/

def setSet (s : State) (n : Nat) (x : PrimeSet) : State := { s with sets := tblSet {} s.sets n x }

/-- The write of PRIME_SET_IMAGE (R48): refused with BUSY while the set has users; else the image is held, not valid, and the
write waits for its validation. -/
def primeImageEffect : WriteEffect := packageEffect (fun via index sub data s =>
  let n := index - 0x2100
  if primeUsers s n != 0 then dictAbort s via (abortCode 8 (objDetail index 4))
  else keepBefore (startLong (setSet s n (primeImage data)) via index sub data true 0) via index (.set (setOf s n)))

/-- PRIME_SET_IMAGE_WRITE (R48). -/
def execPrimeSetImageWrite (via : Via) (set : Nat) (data : List Byte) (s : State) : Result :=
  .next (requestWrite primeImageEffect via (0x2100 + set) 1 data s)

/-- The write of a set's image waits for its validation here. -/
def validating (s : State) (set : Nat) : Bool := s.dict.long.any (fun l => l.index == 0x2100 + set && l.sub == 1 && !l.localDone)

/-- An entry as it was written, without the fields the engine computes and not valid (R48). -/
def primeRaw (x : PrimeSet) : PrimeSet :=
  { log2n := x.log2n, l := x.l, k := x.k, recs := x.recs.map (fun r => { q := r.q, psi := r.psi }) }

/-- An image that has passed here: its fields are computed and it is valid when every other admitted engine has passed it too; else
it is held as written. -/
def primePassed (s : State) (set : Nat) (othersPass : Bool) : State :=
  if (otherDies s).isEmpty || othersPass then setSet s set { primeFill (setOf s set) with valid := true }
  else setSet s set (primeRaw (setOf s set))

/-- PRIME_SET_VALIDATION (R47, R48): a refused image is held as written; one that every admitted engine passes has its fields computed
and is valid. -/
def execPrimeSetValidation (set : Nat) (othersPass : Bool) (s : State) : Result :=
  .next (if !validating s set then s
    else
      match primeCheck (setOf s set) with
      | some d => localFinish s (0x2100 + set) 1 (abortCode 0x0D d)
      | none => localFinish (primePassed s set othersPass) (0x2100 + set) 1 0)

/-- The first byte of an image write reaches a set without users: it is no longer valid (R48). What it held is kept, since the write
may yet be refused with BUSY. -/
def primeFirstByte (s : State) (set : Nat) : State :=
  if primeUsers s set != 0 then s
  else setSet (keep s (0x2100 + set) (.set (setOf s set))) set { setOf s set with valid := false }

/-! ## NTT order (R35) -/

/-- The exponent e(j) of position j of a tile of N residues. -/
def nttExponent (n j : Nat) : Nat :=
  if j < n / 2 then powMod 5 j (2 * n) else (2 * n - powMod 5 (j - n / 2) (2 * n)) % (2 * n)

/-- A polynomial's coefficients evaluated at a point modulo q. -/
def evalPoly (coef : List Nat) (x q : Nat) : Nat := coef.foldr (fun c acc => (c + x * acc) % q) 0

/-- The NTT of N coefficients: position j holds a(ψ^e(j)) mod q. -/
def nttTile (n q psi : Nat) (coef : List Nat) : List Nat :=
  (List.range n).map (fun j => evalPoly coef (powMod psi (nttExponent n j) q) q)

/-- The record of a limb of a set. -/
def recOf (x : PrimeSet) (limb : Nat) : PrimeRec := x.recs.getD limb {}

/-- The limbs of an object at a level, with the special limbs when it is in extended form (R40). -/
def objectLimbs (x : PrimeSet) (level : Nat) (ext : Bool) : List Nat :=
  List.range (level + 1) ++ (if ext then (List.range x.k).map (· + x.l) else [])

/-- The bytes of a tile of residues (R34). -/
def tileBytes (t : List Nat) : List Byte := t.flatMap (leBytes 4)

/-- The residues of a tile's bytes. -/
def tileWords : List Byte → List Nat
  | a :: b :: c :: d :: t => leNat [a, b, c, d] :: tileWords t
  | _ => []

end Sys2Proof.Machine
end

