-- ==== Sys2Proof/Machine/DeliveryOps.lean ====
section
/-! DEFINITION. The delivery unit's own operations (R277 to R299): where a line goes, what an item's receivers get, the group's
pace, and the end of an item. -/

namespace Sys2Proof.Machine

/-! ## Segments, regions and the sliver map -/

def segmentOf (s : State) : Nat := objGet s 0x6801 3

/-- The window of a due segment is open from the release that ends segment DUE − 2 (R29). -/
def windowOpen (s : State) (due : Nat) : Bool := due ≤ segmentOf s + 1

/-- A slot's job writes scratchpad (R278). -/
def scheduleBound (s : State) (n : Nat) : Bool := slotBusy s n && !(slotOf s n).job.regions.isEmpty

/-- A delivery region of a slot's job. -/
def regionOf (s : State) (n r : Nat) : Option Region := (slotOf s n).job.regions[r]?

/-- SLIVER_COUNT and SLIVER_STRIDE of a map. -/
def sliverCount (s : State) (m : Nat) : Nat := objGet s (0x6810 + m) 1
def sliverStride (s : State) (m : Nat) : Nat := objGet s (0x6810 + m) 2

/-- A half-A address through the sliver map (R287), still in half A. -/
def sliverAddr (s : State) (r : Region) (m a : Nat) : Nat :=
  if 15 < m then a
  else
    let u := a - r.base
    let t := u / 512
    r.base + t % sliverCount s m * sliverStride s m + t / sliverCount s m * 512 + u % 512

/-- The place of a scratchpad line: through the map, and in the half of its due segment (R279, R287). -/
def placeAddr (s : State) (slot region m due a : Nat) : Nat :=
  match regionOf s slot region with
  | none => a
  | some r => sliverAddr s r m a + (if due % 2 == 1 then r.half else 0)

/-- The sliver check of R288 for a largest destination line. -/
def sliverFits (s : State) (m tHi bytes : Nat) : Bool :=
  let c := sliverCount s m
  let st := sliverStride s m
  512 * (tHi / c + 1) ≤ st && (c - 1) * st + (tHi / c + 1) * 512 ≤ bytes

/-- SLIVER_USERS follows the issued items that use a map. -/
def sliverUse (s : State) (m : Nat) (more : Bool) : State :=
  if 15 < m then s else objSet s (0x6810 + m) 3 (if more then objGet s (0x6810 + m) 3 + 1 else objGet s (0x6810 + m) 3 - 1)

/-! ## Items -/

def dlvOf (s : State) (id : Nat) : Option Dlv := s.dlv.items.find? (fun x => x.id == id)
def modDlv (s : State) (id : Nat) (f : Dlv → Dlv) : State :=
  { s with dlv := { s.dlv with items := s.dlv.items.map (fun x => if x.id == id then f x else x) } }

/-- A new item enters the unit, after every earlier one. -/
def addDlv (s : State) (x : Dlv) : State :=
  sliverUse { s with dlv := { s.dlv with items := s.dlv.items ++ [{ x with id := s.dlv.nextId }], nextId := s.dlv.nextId + 1 } }
    x.sliver true

/-- The dies of an item's receivers, from its mask (R277): a mask of 0 is the issuing die's. -/
def maskDies (s : State) (mask : Nat) : List Nat :=
  if mask == 0 then [dieId s] else (List.range 8).filter (fun d => mask.testBit d)

/-- The receivers of a multicast (R292): every die with every scratchpad destination; none when this die's only one is all there
is (log entry 241). -/
def remotesOf (s : State) (dies : List Nat) (dsts : List Nat) : List Remote :=
  let all := dies.flatMap (fun d => dsts.map (fun k => { die := d, dst := k, own := d == dieId s : Remote }))
  if all.length ≤ 1 && all.all (·.own) then [] else all

/-- The number of a receiver's first line not acknowledged. -/
def Remote.firstLeft (r : Remote) : Nat := ((List.range (r.acks.length + 1)).find? (fun n => !r.acks.contains n)).getD 0

/-- A receiver acknowledges a line: it grants the credit again. -/
def Remote.ack (r : Remote) (num : Nat) : Remote := { r with acks := setAdd r.acks [num], credits := min 64 (r.credits + 1) }

/-- An error of an item: raised, and its status while it is the first. -/
def dlvError (s : State) (id code : Nat) : State :=
  match dlvOf s id with
  | none => s
  | some x => raiseErr (modDlv s id (fun x => { x with status := if x.status == 0 then code else x.status })) code x.slot

/-- A line comes before another in sub-request order (R298): by sub-request, then by destination and place in it. -/
def OutLine.first (l m : OutLine) : Bool :=
  l.sub < m.sub || (l.sub == m.sub && (l.dst < m.dst || (l.dst == m.dst && l.pos < m.pos)))

/-- A sub-request of a receiver has failed (R298). -/
def Dlv.fail (x : Dlv) (die : Nat) (l : OutLine) : Dlv :=
  { x with
    failedSubs := if x.failedSubs.contains (die, l.dst, l.sub) then x.failedSubs else x.failedSubs ++ [(die, l.dst, l.sub)]
    firstFail := match x.firstFail with
      | some m => if l.first m then some l else some m
      | none => some l }

/-- An item's failed lines are counted against every receiver. -/
def Dlv.failAll (x : Dlv) (own : Nat) (l : OutLine) : Dlv :=
  if !l.failed then x
  else
    let x := if x.local_ then x.fail own l else x
    x.remotes.foldl (fun x r => if r.dst == l.dst && !r.gone then x.fail r.die l else x) x

/-- A line made for a receiver whose die has left the part: undelivered, it has failed (R295, R298). -/
def Dlv.lost (x : Dlv) (l : OutLine) : Dlv :=
  (x.remotes.filter (fun r => r.gone && r.dst == l.dst)).foldl (fun x r => { (x.fail r.die l) with dropped := x.dropped + 1 }) x

/-! ## Lines -/

/-- A line of device memory is written at once: its bytes, and its mark when it is poisoned (R412). -/
def writeMemLine (s : State) (l : OutLine) : State :=
  let s := if l.poison then poisonWritten s 1 else s
  { s with mem := { s.mem with
      dev := cellsMask s.mem.dev l.addr l.data
      devPoison :=
        if l.poison then setAdd s.mem.devPoison [l.addr / 64]
        else if l.data.length == 64 then setDel s.mem.devPoison [l.addr / 64]
        else s.mem.devPoison } }

/-- A line is made: written at once to device memory, joined to the group of a multicast, else ready for its port. -/
def emitLine (s : State) (id : Nat) (l : OutLine) : State :=
  match dlvOf s id with
  | none => s
  | some x =>
    let x' := x.failAll (dieId s) l
    if l.space == 0 then
      writeMemLine (modDlv s id (fun _ => { x' with
        written := x'.written + 1, poisonedLines := if l.poison then x'.poisonedLines + 1 else x'.poisonedLines })) l
    else if x.remotes.isEmpty then modDlv s id (fun _ => { x' with ready := x'.ready ++ [l] })
    else modDlv s id (fun _ => { x'.lost l with group := x'.group ++ [l] })

def emitLines (s : State) (id : Nat) (ls : List OutLine) : State := ls.foldl (fun s l => emitLine s id l) s

/-! ## The group and its catch-ups (R292 to R295) -/

/-- The lines of the group for one destination. -/
def Dlv.linesFor (x : Dlv) (k : Nat) : List OutLine := x.group.filter (fun l => l.dst == k)

/-- A line goes to a receiver on another die. -/
def sendLine (s : State) (x : Dlv) (r : Remote) (l : OutLine) : State :=
  send s (.line r.die x.id r.dst x.slot x.tag x.due r.sent l.rank l.addr l.data l.poison
    (!x.open_ && r.sent + 1 == (x.linesFor r.dst).length))

/-- The next line of some receivers goes to each: over a die-to-die link, or to the ports of this die. -/
def sendLines (s : State) (x : Dlv) (rs : List Remote) (l : OutLine) : State :=
  modDlv ((rs.filter (!·.own)).foldl (fun s r => sendLine s x r l) s) x.id (fun y => { y with
    ready := y.ready ++ (rs.filter (·.own)).map (fun r => { l with num := r.sent }) })

/-- A receiver of an item has a line in flight; one on another die knows its last line from the line itself. -/
def Dlv.spend (x : Dlv) (r : Remote) : Remote :=
  { r with credits := r.credits - 1, sent := r.sent + 1, closed := !x.open_ && r.sent + 1 == (x.linesFor r.dst).length }

/-- A notice to a receiver on another die. -/
def sendNotice (s : State) (x : Dlv) (die dst : Nat) (n : DlvNotice) : State := send s (.notice die x.id dst x.slot x.tag x.due n)

/-- The attached receivers. -/
def Dlv.attached (x : Dlv) : List Remote := x.remotes.filter (fun r => !r.detached && !r.gone)

/-- The group sends lines in order while every attached receiver holds a credit (R293); the bound is the lines left. -/
def pumpGroup : Nat → State → Nat → State
  | 0, s, _ => s
  | f + 1, s, id =>
    match dlvOf s id with
    | none => s
    | some x =>
      match x.group[x.next]? with
      | none => s
      | some l =>
        if !windowOpen s x.due || x.attached.any (fun r => r.credits == 0) then s
        else
          let rs := x.attached.filter (fun r => r.dst == l.dst)
          pumpGroup f (modDlv (sendLines s x rs l) id (fun y => { y with
            next := x.next + 1, remotes := x.remotes.map (fun r => if rs.contains r then x.spend r else r) })) id

/-- Every line of a receiver has been acknowledged. -/
def Dlv.ackedAll (x : Dlv) (r : Remote) : Bool := r.acks.length == (x.linesFor r.dst).length

/-- The receiver whose catch-up is under way: the first detached one with lines not acknowledged (R295). -/
def Dlv.catching (x : Dlv) : Option Remote :=
  x.catchups.findSome? (fun e => x.remotes.find? (fun r => r.die == e.1 && r.dst == e.2 && !r.gone && !x.ackedAll r))

/-- Catch-up lines are sent while credits last, once the group has sent its last line. -/
def pumpCatchup : Nat → State → Nat → State
  | 0, s, _ => s
  | f + 1, s, id =>
    match dlvOf s id with
    | none => s
    | some x =>
      match x.catching with
      | none => s
      | some r =>
        match (x.linesFor r.dst)[r.sent]? with
        | none => s
        | some l =>
          if x.open_ || x.next < x.group.length || r.credits == 0 then s
          else
            let s := bump (sendLines s x [r] l) 0x80E0 0x15
            pumpCatchup f (modDlv s id (fun x => { x with
              catchup := true
              remotes := x.remotes.map (fun q => if q == r then { x.spend q with caught := q.caught + 1 } else q) })) id

/-- The receivers that have had every line of a finished item without knowing it: no line is left to come. -/
def Dlv.unclosed (x : Dlv) : List Remote :=
  if x.open_ then [] else x.remotes.filter (fun r => !r.own && !r.closed && !r.gone && r.sent == (x.linesFor r.dst).length)

/-- They are told so. -/
def closeRemotes (s : State) (id : Nat) : State :=
  match dlvOf s id with
  | none => s
  | some x =>
    modDlv (x.unclosed.foldl (fun s r => sendNotice s x r.die r.dst .closed) s) id (fun y => { y with
      remotes := y.remotes.map (fun r => if x.unclosed.contains r then { r with closed := true } else r) })

/-- A new item enters the unit, its receivers on other dies told of it: it counts toward their arrival from its issue (R30, R282),
and its HORIZON is theirs (R281, log entry 106). -/
def announceDlv (s : State) (x : Dlv) (horizon : Bool) : State :=
  let away := x.remotes.filter (!·.own)
  addDlv (away.foldl (fun s r => sendNotice s { x with id := s.dlv.nextId } r.die r.dst (.announce true horizon)) s) x

/-! ## Completion -/

/-- Every line of an item for this die has been accepted, or dropped (R30, R297). -/
def Dlv.settledHere (x : Dlv) : Bool :=
  x.dispatched && !x.open_ && x.ready.isEmpty && x.flight == 0 && x.next == x.group.length
  && x.remotes.all (fun r => !r.own || x.ackedAll r)

/-- Every line of an item has been accepted at every receiver. -/
def Dlv.complete (x : Dlv) : Bool :=
  x.settledHere && x.remotes.all (fun r => r.gone || x.ackedAll r)

/-- What the record of R299 says of an item. -/
def Dlv.report (x : Dlv) : DlvRecord :=
  { tag := x.tag
    firstFail := match x.firstFail with
      | some l => l.addr
      | none => 2 ^ 64 - 1
    bitmap := (List.range 64).foldl (fun n k => if x.failedSubs.any (fun f => f.2.2 % 64 == k) then n + 2 ^ k else n) 0
    failed := x.failedSubs.length, written := x.written, poisoned := x.poisonedLines, dropped := x.dropped, oor := x.oor
    firstOor := x.firstOor.getD (2 ^ 32 - 1), due := x.due
    detached := (List.range 8).foldl (fun n d => if x.catchups.any (fun e => e.1 == d) then n + 2 ^ d else n) 0
    status := x.status
    flags := flagDone + (if x.failedSubs.isEmpty then 0 else flagPartial) + (if x.poisonedLines == 0 then 0 else flagPoisoned)
      + (if x.unwritten then flagUnwritten else 0) + (if x.catchup then flagCatchup else 0) + (if x.late then flagLate else 0) }

/-- An item is a key's. -/
def Dlv.isKey (x : Dlv) : Bool :=
  match x.owner with
  | .key _ => true
  | _ => false

/-- An item is the poisoning of a faulted slot's regions (R283). -/
def Dlv.isPoisoning (x : Dlv) : Bool :=
  match x.owner with
  | .poisoning _ => true
  | _ => false

/-- A failed part of an item is reported here: not that of another die's item, nor of a poisoning. -/
def Dlv.reportsHere (x : Dlv) : Bool :=
  match x.owner with
  | .remote _ _ _ => false
  | .poisoning _ => false
  | _ => true

/-- What a delivery leaves on record when this die has all of it: the delivery completed last (R140), and what an arrival waited for
last (R286). A refused item was complete at its refusal (R269); a poisoning is no delivery. -/
def doneHere (s : State) (x : Dlv) : State :=
  { s with dlv := { s.dlv with
    lastDone := if x.isPoisoning then s.dlv.lastDone else some (x.isKey, x.laneLast)
    lastCond := if x.isPoisoning then some (x.slot, 0xFFFFFFFF) else if x.refused then s.dlv.lastCond else some (x.slot, x.tag) } }

/-- An item whose last line for this die's scratchpad has been accepted is complete here. -/
def settleHere (s : State) (id : Nat) : State :=
  match dlvOf s id with
  | none => s
  | some x =>
    if x.here || !x.scratch || !x.local_ || !x.settledHere then s
    else doneHere (modDlv s id (fun x => { x with here := true })) x

/-- A command that delivers finishes with the record of R299. -/
def finishDelivery (s : State) (id : Nat) (r : DlvRecord) : State :=
  modCmd (finishCmd s id r.status r.flags 0) id (fun c => { c with report := some r })

/-- A delivery that is refused before it enters the unit completes with the record of R299 (R318), and its slot is faulted. -/
def refuseRecorded (s : State) (c : Cmd) (due code : Nat) : State :=
  errFault (finishDelivery s c.id { tag := wTag c.word, due := due, status := code }) c.slot code

/-- A pool buffer that carried a link entry or a container is freed after its delivery (R18, R113). -/
def freeEntry (s : State) (e : Option LinkEntry) : State :=
  match e with
  | some e => (match e.buffer with
      | some b => freeBuffers s e.slot [b]
      | none => s)
  | none => s

/-- What the end of an item does for its owner: a command finishes; a key-stream item leaves its unit and its staging; a container's
buffer is freed and EMPTY signalled on its landing link (R113). -/
def ownerDone (s : State) (x : Dlv) : State :=
  match x.owner with
  | .cmd id => finishDelivery (freeEntry s x.entry) id x.report
  | .key id =>
    match s.sdx.keys.find? (fun k => k.item.cmd == id) with
    | none => s
    | some k =>
      let s := giveUnits { s with sdx := { s.sdx with keys := s.sdx.keys.filter (fun k => k.item.cmd != id) } } k.units
      finishDelivery (bump s 0x8060 8) id x.report
  | .container m =>
    match s.net.msgs.find? (fun y => y.id == m) with
    | none => s
    | some y =>
      let s := { s with net := { s.net with msgs := s.net.msgs.filter (fun y => y.id != m) } }
      semSignal (freeBuffers s y.jobSlot [y.buffer]) y.link false y.jobSlot
  | .poisoning d => modSlot s x.slot (fun y => { y with poisonedTo := d })
  | _ => s

/-- An item has ended: its staging and its use of a map are given up, a failed part is raised once (R298), its owner goes on. -/
def endDlv (s : State) (x : Dlv) : State :=
  let failed := x.reportsHere && !x.failedSubs.isEmpty
  let s := if failed then raiseErr s 0x0E06 x.slot else s
  let x := if failed && x.status == 0 then { x with status := 0x0E06 } else x
  let s := { s with dlv := { s.dlv with items := s.dlv.items.filter (fun y => y.id != x.id) } }
  ownerDone (giveUnits (sliverUse s x.sliver false) x.units) x

/-- An item goes on: the group and the catch-ups send what they may, receivers learn what they have all of, and the item ends when it
is complete. -/
def advanceDlv (s : State) (id : Nat) : State :=
  let n := match dlvOf s id with
    | some x => x.group.length * (x.remotes.length + 1)
    | none => 0
  let s := settleHere (closeRemotes (pumpCatchup n (pumpGroup n s id) id) id) id
  match dlvOf s id with
  | some x => if x.complete then endDlv s x else s
  | none => s

/-! ## The checks of an item's issue (R280) -/

/-- The lines of a destination's footprint, as half-A line addresses. -/
def spanLines (d : Desc) : List Nat :=
  (List.range (d.hi.toNat / 512 + 1 - d.lo.toNat / 512)).map (fun i => (d.lo.toNat / 512 + i) * 512)

/-- A footprint, after the map, lies within half A of a region. -/
def inRegion (s : State) (r : Region) (m : Nat) (lines : List Nat) : Bool :=
  lines.all (fun a => r.base ≤ a && sliverAddr s r m a + 512 ≤ r.base + r.bytes)

/-- The dies of a mask belong to a job's stripe and are admitted. -/
def diesAllowed (s : State) (slot : Nat) (dies : List Nat) : Bool :=
  dies.all (fun d => (slotOf s slot).job.stripe.testBit d && dieAdmitted s d)

/-- Checks 1 and 2 of R280 for lines of a region. -/
def placeCode (s : State) (slot region sliver : Nat) (dies : List Nat) (lines : List Nat) (device : Bool) : Nat :=
  let tHi (r : Region) : Nat := lines.foldl (fun m a => max m ((a - r.base) / 512)) 0
  if !diesAllowed s slot dies || (device && dies.any (· != dieId s)) then 0x0E01
  else if lines.isEmpty then (if sliver ≤ 15 || sliver == 0xFF then 0 else 0x0E02)
  else
    match regionOf s slot region with
    | none => 0x0E01
    | some r =>
      if !inRegion s r sliver lines then 0x0E01
      else if sliver == 0xFF then 0
      else if 15 < sliver || !sliverFits s sliver (tHi r) r.bytes then 0x0E02
      else 0

/-- Check 3 of R280. -/
def dueOk (s : State) (slot due : Nat) : Bool :=
  max (segmentOf s) (slotOf s slot).horizon < due && due ≤ segmentOf s + 65536

end Sys2Proof.Machine
end

