-- ==== Sys2Proof/Machine/DlvIssue.lean ====
section
/-! DEFINITION. The issue of a DELIVER command (R267, R269, R277 to R281, R284): its descriptors read and checked, its horizon,
and what a refused item still writes. -/

namespace Sys2Proof.Machine

/-- The descriptor at an address (R263); one that is read poisoned fails check 1 of R267. -/
def descAt (s : State) (a : Nat) : Desc :=
  let d := descOf (memBytes s a 128)
  { d with crcOk := d.crcOk && !memPoisoned s a 128 }

/-- The source an item reads for a destination: its descriptor, or its link entry. -/
def sourceFor (src : Option Desc) (entry : Option LinkEntry) (d : Desc) : Desc :=
  match src, entry with
  | some x, _ => x
  | none, some e => entrySource e d
  | none, none => d

/-- The bytes of a link entry are those its destination takes. -/
def entryFits (entry : Option LinkEntry) (d : Desc) : Bool :=
  match entry with
  | some e => e.bytes == product (transferDims d) * d.elem
  | none => true

/-- The code of R267 for a destination with its source: its own checks, then the pair's; a link entry of another size fails check 9. -/
def destCode (src : Option Desc) (entry : Option LinkEntry) (x : Nat × Desc) : Nat :=
  let e := descCode false (x.1 % 128 == 0) x.2
  let p := pairCode (sourceFor src entry x.2) x.2
  if e != 0 then e else if p != 0 then p else if entryFits entry x.2 then 0 else 0x0D09

/-- The number of pairs of an item that pass R267 before the first that fails, all of them when none fails. -/
def pairsPassed (src : Option Desc) (entry : Option LinkEntry) (dsts : List (Nat × Desc)) : Nat :=
  (dsts.takeWhile (fun x => destCode src entry x == 0)).length

/-- The first failure of R267 for an item: its code and the descriptor that fails, 0 the source and k destination k (log entry 28). -/
def pairsFail (srcCode : Nat) (src : Option Desc) (entry : Option LinkEntry) (dsts : List (Nat × Desc)) : Option (Nat × Nat) :=
  if srcCode != 0 then some (srcCode, 0)
  else
    let n := pairsPassed src entry dsts
    dsts[n]?.map (fun x => (destCode src entry x, n + 1))

/-- The due segment of an item or stage of a slot: its DUE with the slot's due offset (R277). -/
def dueOf (s : State) (slot due : Nat) : Nat := ((due : Int) + (slotOf s slot).dueOffset).toNat

/-- A slot's due horizon rises (R281), and is what an arrival waited for last when it then reaches the next segment (R286). -/
def raiseHorizon (s : State) (slot due tag : Nat) : State :=
  let h := (slotOf s slot).horizon
  let s' := modSlot s slot (fun x => { x with horizon := max x.horizon due })
  { s' with dlv := { s'.dlv with
      horizonTag := tblSet 0 s'.dlv.horizonTag slot tag
      lastCond := if h < segmentOf s + 1 && segmentOf s + 1 ≤ due then some (slot, tag) else s'.dlv.lastCond } }

/-- Line i of w unstated bytes, from a drawn number on (log entry 3). -/
def freeLine (free i w : Nat) : List (Nat × Byte) := (List.range w).zip (freeBytes (free + i * w) w)

/-- Poisoned lines at addresses of a destination. -/
def poisonLines (space dst free : Nat) (addrs : List Nat) (failed : Bool) : List OutLine :=
  ((List.range addrs.length).zip addrs).map (fun x =>
    { dst := dst, addr := x.2, space := space, data := freeLine free x.1 (lineBytes space), poison := true,
      sub := x.1 * lineBytes space / 65536, failed := failed })

/-- The checks of R280 for an item's destinations, as the first code that fails. -/
def issueCode (s : State) (slot : Nat) (p : DlvParams) (due : Nat) (dsts : List Desc) : Nat :=
  let dies := maskDies s p.dieMask
  let scratch := dsts.filter (fun d => d.space == 1)
  let lines := scratch.flatMap spanLines
  let c := placeCode s slot p.region p.sliver dies lines (dsts.any (fun d => d.space == 0))
  if c != 0 then c
  else if (!scratch.isEmpty || p.horizon) && !dueOk s slot due then 0x0E03
  else 0

/-- The item of a DELIVER command as it enters the unit. -/
def newItem (s : State) (c : Cmd) (p : DlvParams) (src : Option Desc) (entry : Option LinkEntry) (dsts : List Desc) : Dlv :=
  let dies := maskDies s p.dieMask
  let scratch := ((List.range dsts.length).zip dsts).filter (fun x => x.2.space == 1)
  { id := 0, owner := .cmd c.id, slot := c.slot, tag := wTag c.word, due := dueOf s c.slot p.due, scratch := !scratch.isEmpty,
    local_ := dies.contains (dieId s), src := src, entry := entry, dsts := dsts
    sliver := if scratch.isEmpty then 0xFF else p.sliver, region := p.region,
    remotes := remotesOf s dies (scratch.map (·.1)), open_ := true }

/-- Put an item's lines of scratchpad where they belong (R279, R287). -/
def placeLine (s : State) (x : Dlv) (l : OutLine) : OutLine :=
  { l with pos := l.addr, addr := if l.space == 1 then placeAddr s x.slot x.region x.sliver x.due l.addr else l.addr }

/-- The destinations of an item that pass checks 1 to 3 of R267, with their numbers. -/
def soundDests (dsts : List (Nat × Desc)) : List (Nat × Desc) :=
  ((List.range dsts.length).zip dsts).filterMap (fun e => if descFirst false (e.2.1 % 128 == 0) e.2.2 == 0 then some (e.1, e.2.2) else none)

/-- The lines a refused item still poisons (R269, R284): those of each destination that passes checks 1 to 3 of R267, and for
scratchpad only when the item would pass R280. -/
def refusedLines (s : State) (x : Dlv) (place : Bool) (sound : List (Nat × Desc)) (free : Nat) : List OutLine :=
  sound.flatMap (fun e =>
    if e.2.space == 1 && !place then []
    else (poisonLines e.2.space e.1 (free + e.1 * 2 ^ 30) (footprintLines e.2) false).map (placeLine s x))

/-- An item that fails R267 (R269, R284): its destinations are poisoned where they may be, UNWRITTEN is carried where one is not,
the error is raised and the slot faulted; for R30 it is complete. -/
def refuseDelivery (s : State) (c : Cmd) (x : Dlv) (p : DlvParams) (dsts : List (Nat × Desc)) (code : Nat) : State :=
  let sound := soundDests dsts
  let place := issueCode s c.slot p x.due (sound.map (·.2)) == 0
  let (free, s) := reserveFree s (2 ^ 32)
  let id := s.dlv.nextId
  let lines := refusedLines s x place sound free
  let unwritten := sound.length != dsts.length || (!place && sound.any (fun d => d.2.space == 1))
  let x := { x with
    dispatched := true, refused := true, here := true, status := code, unwritten := unwritten
    scratch := sound.any (fun d => d.2.space == 1)
    remotes := if place then x.remotes.filter (fun r => sound.any (fun d => d.1 == r.dst)) else [] }
  let s := if x.scratch && x.local_ then doneHere s x else s
  let s := emitLines (addDlv s x) id lines
  errFault (advanceDlv (modDlv s id (fun x => { x with open_ := false })) id) c.slot code

/-- An item that fails R280 writes nothing: its record carries UNWRITTEN, and its slot is faulted. -/
def refuseUnwritten (s : State) (c : Cmd) (due code : Nat) : State :=
  errFault (finishDelivery s c.id { tag := wTag c.word, due := due, status := code, flags := flagDone + flagUnwritten }) c.slot code

/-- The other dies an empty item names raise the slot's horizon too (R281, log entry 106). -/
def tellHorizon (s : State) (slot tag due : Nat) (dies : List Nat) : State :=
  (dies.filter (· != dieId s)).foldl (fun s d => send s (.notice d 0 0 slot tag due (.announce false true))) s

/-- DLV reads a descriptor at a multiple of 128, and at no other address (R263). -/
def readDesc (s : State) (slot a : Nat) : State := if a % 128 == 0 then readChecked s slot a 128 else s

/-- The empty item (R281). -/
def issueEmpty (s : State) (c : Cmd) (p : DlvParams) (due : Nat) : State :=
  let code := issueCode s c.slot p due []
  if code != 0 then refuseUnwritten s c due code
  else
    let s := if p.horizon then tellHorizon (raiseHorizon s c.slot due (wTag c.word)) c.slot (wTag c.word) due (maskDies s p.dieMask) else s
    finishDelivery s c.id { tag := wTag c.word, due := due }

/-- An item with data: its descriptors are read, checked and the item enters the unit; a destination in device memory is what its
signal of FULL passes on (R20, log entry 40). -/
def issueData (s : State) (c : Cmd) (p : DlvParams) (due : Nat) (entry : Option LinkEntry) : State :=
  let s := if p.srcKind == 0 then readDesc s c.slot p.srcDesc else s
  let s := p.dstDescs.foldl (fun s a => readDesc s c.slot a) s
  let src := if p.srcKind == 0 then some (descAt s p.srcDesc) else none
  let srcCode := match src with
    | some d => descCode true (p.srcDesc % 128 == 0) d
    | none => if entry.isNone then 0x0D09 else 0
  let dsts := p.dstDescs.map (fun a => (a, descAt s a))
  let x := newItem s c p src entry (dsts.map (·.2))
  let s := bumpBy s 0x80D0 0x10 (if srcCode == 0 then pairsPassed src entry dsts else 0)
  match pairsFail srcCode src entry dsts with
  | some (code, n) => refuseDelivery (nameFailed s c.slot (wTag c.word) (.descriptor n)) c x p dsts code
  | none =>
    let code := issueCode s c.slot p due (dsts.map (·.2))
    if code != 0 then refuseUnwritten s c due code
    else
      let s := if p.horizon then raiseHorizon s c.slot due (wTag c.word) else s
      let s := match dsts.find? (fun d => d.2.space == 0) with
        | some d => setOutput s c 0 d.2.lo.toNat (d.2.hi + 1 - d.2.lo).toNat none
        | none => s
      announceDlv s x p.horizon

/-- The issue of a DELIVER command; `entry` is the link entry its wait granted it (SRC_KIND 1). -/
def issueDeliver (s : State) (c : Cmd) (p : DlvParams) (entry : Option LinkEntry) : State :=
  let due := dueOf s c.slot p.due
  if 2 < p.srcKind then refuseRecorded s c due 0x0F03
  else if p.srcKind == 2 then issueEmpty s c p due
  else issueData s c p due (if p.srcKind == 1 then entry else none)

end Sys2Proof.Machine
end

