-- ==== Sys2Proof/Machine/Delivery.lean ====
section
/-! DEFINITION. The delivery unit at work (R287 to R298): dispatch, the reading of sources, the scratchpad ports, multicast
and bank power. -/

namespace Sys2Proof.Machine

/-! ## Dispatch (R290) -/

/-- An item reads a source from device memory: one read stream. The stored half of a key is one (R136). -/
def Dlv.readsMemory (x : Dlv) : Bool :=
  match x.owner, x.src, x.entry with
  | .key _, _, _ => true
  | _, some _, _ => true
  | _, none, some e => e.space == 0
  | _, none, none => false

/-- PREFETCH_DEPTH of a slot's job. -/
def prefetchDepth (s : State) (slot : Nat) : Nat := if (slotOf s slot).job.prefetch == 0 then 4 else (slotOf s slot).job.prefetch

/-- An item changes layout (R274). -/
def Dlv.changesLayout (x : Dlv) : Bool := x.dsts.any (fun d => d.permAt 0 != 0)

/-- The staging units an item reserves at dispatch (R274, R290). -/
def unitsNeeded (s : State) (x : Dlv) : Nat :=
  (if x.readsMemory then prefetchDepth s x.slot else 0) + (if x.changesLayout && !fullArray s then 1 else 0)

/-- What an index tensor's positions do when they are processed (R270 to R273): the counters, the record's fields, the errors. -/
def indexEffects (s : State) (id : Nat) (src d : Desc) : State :=
  let ix := if src.idxRole == 1 then src else d
  if ix.idxRole == 0 then s
  else
    let ps := idxPositions s ix
    let out := ps.countP (· == .out)
    let clamped := ps.countP (fun p => match p with | .at _ c => c | _ => false)
    let bad := (granules 64 ix.idxAddr (ix.idxCount * idxBytes ix.idxType)).countP (granulePoisoned s)
    let s := bumpBy s 0x80D0 0x11 ps.length
    let s := bumpBy s 0x80D0 (if src.idxRole == 1 then 0x12 else 0x13) (countRuns 0 none ps)
    let s := bumpBy s 0x80D0 0x14 clamped
    let s := modDlv s id (fun x => { x with
      oor := x.oor + out
      firstOor := match x.firstOor, ps.findIdx? (· == .out) with
        | some a, some b => some (min a b)
        | some a, none => some a
        | none, f => f })
    let s := if out == 0 then s else dlvError (bumpBy s 0x80D0 0x0A (out - 1)) id 0x0D0A
    if bad == 0 then s
    else
      let slot := match dlvOf s id with
        | some x => x.slot
        | none => 63
      (List.range bad).foldl (fun s _ => dlvError s id 0x0D0B) (readChecked s slot ix.idxAddr (ix.idxCount * idxBytes ix.idxType))

/-- What the reads of an item's source have returned. -/
def Dlv.got (x : Dlv) : Fetched := { errors := x.errors, soiled := x.soiled, free := x.free }

/-- The lines of one delivery tile of an item, and with the last tile of a scatter the poisoned footprint of R273. -/
def tileLines (s : State) (x : Dlv) (t : Nat) (last : Bool) : List OutLine :=
  ((List.range x.dsts.length).zip x.dsts).flatMap (fun e =>
    let src := sourceFor x.src x.entry e.2
    let made := (transferLines s src e.2 e.1 x.got).filter (fun l => l.tile == t)
    let blind := if last && e.2.idxRole == 2 && (idxPositions s e.2).contains .poisoned
      then (poisonLines e.2.space e.1 x.free (footprintLines e.2) true).map (fun l => { l with rank := 2 }) else []
    (made ++ blind).map (placeLine s x))

/-- The elements of a destination's delivery tile: their numbers. -/
def tileElems (d : Desc) (t : Nat) : List Nat := (List.range (product (transferDims d))).filter (fun n => n * d.elem / 65536 == t)

/-- The residues out of range that a delivery tile's source holds, each read once whatever the destinations (R44). -/
def tileRange (s : State) (x : Dlv) (t : Nat) : Nat :=
  match x.dsts with
  | [] => 0
  | d :: _ =>
    let src := sourceFor x.src x.entry d
    let idx := idxPositions s (if src.idxRole == 1 then src else d)
    (tileElems d t).countP (fun n => match transferPiece s src d idx x.got n with
      | some p => p.poison && !p.failed
      | none => false)

/-- Where an element of a layout change lies within its block, in source order: dimension 0 fastest, then source dimension PERM0. -/
def blockOffset (d : Desc) (n : Nat) : Nat :=
  let i := coordsOf n (transferDims d)
  let c0 := match (List.range d.rank).find? (fun k => d.permAt k == 0) with
    | some k => i.getD k 0
    | none => 0
  (i.getD 0 0 % 2 ^ d.rowsLog2 * 2 ^ d.colsLog2 + c0 % 2 ^ d.colsLog2) * d.elem

/-- Write pieces of blocks into staging, each at its place, with the marks of those poisoned. -/
def writeBlocks (s : State) (base : Nat) (ps : List (Nat × Piece)) : State :=
  let at_ (e : Nat × Piece) : List Nat := granules 64 (base + e.1) e.2.bytes.length
  let bad := (ps.filter (·.2.failed)).foldl (fun l e => setAdd l (at_ e)) []
  let touched := ps.foldl (fun l e => setAdd l (at_ e)) []
  poisonWritten { s with mem := { s.mem with
      pfg := ps.foldl (fun m e => cellsSet m (base + e.1) e.2.bytes) s.mem.pfg
      pfgPoison := setAdd (setDel s.mem.pfgPoison touched) bad } } bad.length

/-- In half-array mode the blocks of a layout change pass through the item's block of staging, in the order of the elements they feed
(R274, log entry 188). -/
def copyBlocks (s : State) (x : Dlv) (t : Nat) : State :=
  match x.units.getLast? with
  | none => s
  | some u =>
    if fullArray s then s
    else
      (x.dsts.filter (fun d => d.permAt 0 != 0)).foldl (fun s d =>
        let src := sourceFor x.src x.entry d
        let idx := idxPositions s (if src.idxRole == 1 then src else d)
        writeBlocks s (65536 * u) ((tileElems d t).filterMap (fun n =>
          (transferPiece s src d idx x.got n).map (fun p => (blockOffset d n, p))))) s

/-- The next delivery tile of an item is there: its residues are checked, its blocks pass through staging, its lines are made. -/
def makeTile (s : State) (id : Nat) : State :=
  match dlvOf s id with
  | none => s
  | some x =>
    let last := x.tiles ≤ x.fetched + 1
    let lines := tileLines s x x.fetched last
    let s := (List.range (tileRange s x x.fetched)).foldl (fun s _ => raiseErr s 0x0208 x.slot) s
    let s := copyBlocks s x x.fetched
    emitLines (modDlv s id (fun x => { x with fetched := x.fetched + 1, open_ := !last })) id lines

/-- A key-stream item in work. -/
def keyRunOf (s : State) (cmd : Nat) : Option KeyRun := s.sdx.keys.find? (fun k => k.item.cmd == cmd)

/-- The sizes of a key-stream item (R128, R129): N, L + K, and C. -/
def keyN (k : KeyRun) : Nat := 2 ^ k.entry.log2n
def keyStoredLimbs (s : State) (k : KeyRun) : Nat := (setOf s k.entry.set).l + (setOf s k.entry.set).k
def keyC (s : State) (k : KeyRun) : Nat := k.item.p.level + 1 + (setOf s k.entry.set).k

/-- The limb index of an ordinal (R129). -/
def keyLimbOf (s : State) (k : KeyRun) (o : Nat) : Nat :=
  if o ≤ k.item.p.level then o else (setOf s k.entry.set).l + o - k.item.p.level - 1

/-- Digit and ordinal of a pair of an item (R136). -/
def keyPair (k : KeyRun) (j : Nat) : Nat × Nat :=
  (k.item.p.digitFirst + j / k.item.p.limbCount, k.item.p.limbFirst + j % k.item.p.limbCount)

/-- The offset of b_d (or a_d) ordinal o in the delivered key (R129). -/
def keyOffset (s : State) (k : KeyRun) (a : Bool) (d o : Nat) : Nat :=
  (2 * d * keyC s k + (if a then keyC s k else 0) + o) * (4 * keyN k)

/-- The lines of a key-stream item's destination (R129), as half-A addresses. -/
def keyLines (s : State) (k : KeyRun) : List Nat :=
  (List.range (k.item.p.digitCount * k.item.p.limbCount)).flatMap (fun j =>
    let (d, o) := keyPair k j
    [false, true].flatMap (fun a =>
      (List.range (4 * keyN k / 512)).map (fun n => k.item.p.dest + keyOffset s k a d o + 512 * n)))

/-- Where line n of the stored tiles of an item lies in its container. -/
def keyLineAddr (s : State) (k : KeyRun) (n : Nat) : Nat :=
  let t := 4 * keyN k
  let (d, o) := keyPair k (512 * n / t)
  k.entry.payload + (d * keyStoredLimbs s k + keyLimbOf s k o) * t + 512 * n % t

/-- Line n of the stored tiles of an item, in pair order: read from the container, with the number of its residues out of range, of
those in granules read without an error (R44). -/
def keyLine (s : State) (x : Dlv) (k : KeyRun) (n : Nat) : OutLine × Nat :=
  let t := 4 * keyN k
  let (d, o) := keyPair k (512 * n / t)
  let r := 512 * n % t
  let limb := keyLimbOf s k o
  let a := keyLineAddr s k n
  let bs := memBytes s a 512
  let q := ((setOf s k.entry.set).recs[limb]?.getD {}).q
  let err := (granules 64 a 512).any x.errors.contains
  let bad := err || memPoisoned s a 512 || (granules 64 a 512).any x.soiled.contains
  let sound (i : Nat) : Bool :=
    !x.errors.contains ((a + 4 * i) / 64) && !x.soiled.contains ((a + 4 * i) / 64) && !memPoisoned s (a + 4 * i) 4
  let range := (List.range 128).countP (fun i => q ≤ fld bs (4 * i) 4 && sound i)
  let data := if err then freeBytes (x.free + 512 * n) 512 else bs
  (placeLine s x { addr := k.item.p.dest + keyOffset s k false d o + r, space := 1, data := (List.range 512).zip data,
                   poison := bad || range != 0, failed := bad, tile := 512 * n / 65536, sub := (keyOffset s k false d o + r) / 65536,
                   part := 2 * (512 * n / t) }, range)

/-- A key's delivery gets no further line once its stored tiles are fetched and its streams have ended. -/
def closeKey (s : State) (cmd : Nat) : State :=
  let mine (u : StreamUse) : Bool :=
    match u with
    | .keyLimb c _ _ _ => c == cmd
    | _ => false
  let busy := s.sdx.streams.any (fun x => mine x.use) || s.sdx.moved.any (fun r => mine r.stream.use)
    || s.sdx.lanes.any (fun e => match e.2 with | some r => mine r.stream.use | none => false)
  match keyRunOf s cmd with
  | none => s
  | some k =>
    match dlvOf s k.dlv with
    | none => s
    | some x => if busy || x.fetched < x.tiles then s else advanceDlv (modDlv s k.dlv (fun x => { x with open_ := false })) k.dlv

/-- The lines of the stored half that a delivery tile holds. -/
def keyTileLines (k : KeyRun) (t : Nat) : List Nat :=
  ((List.range 128).map (· + 128 * t)).filter (· < k.item.p.digitCount * k.item.p.limbCount * 4 * keyN k / 512)

/-- The next delivery tile of a key's stored half is there. -/
def makeKeyTile (s : State) (x : Dlv) (cmd : Nat) : State :=
  match keyRunOf s cmd with
  | none => s
  | some k =>
    let ls := (keyTileLines k x.fetched).map (keyLine s x k)
    let s := ls.foldl (fun s l => (List.range l.2).foldl (fun s _ => raiseErr s 0x0208 x.slot) s) s
    let s := emitLines (modDlv s x.id (fun x => { x with fetched := x.fetched + 1 })) x.id (ls.map (·.1))
    closeKey s cmd

/-! ## Memory reads (R290, R291, R412) -/

/-- The tile of the oldest line an item still holds in staging: until every attached receiver of a multicast has acknowledged it
(R293). -/
def Dlv.oldestTile (x : Dlv) : Nat :=
  let kept := x.ready ++ (x.attached.map (·.dst)).eraseDups.flatMap (fun k =>
    (x.linesFor k).drop ((x.attached.filter (fun r => r.dst == k)).foldl (fun m r => min m r.firstLeft) (x.linesFor k).length))
  kept.foldl (fun m l => min m l.tile) x.fetched

/-- The granules of device memory that a delivery tile of an item reads, in the order of the elements they feed, each once. -/
def tileReads (s : State) (x : Dlv) (t : Nat) : List Nat :=
  (x.dsts.flatMap (fun d =>
    let src := sourceFor x.src x.entry d
    let idx := idxPositions s (if src.idxRole == 1 then src else d)
    if src.space != 0 then []
    else (tileElems d t).flatMap (fun n => match transferElem src d idx n with
      | some (_, .read a) => granules 64 a.toNat d.elem
      | _ => []))).eraseDups

/-- The granules a delivery tile of a key's stored half reads. -/
def keyReads (s : State) (t cmd : Nat) : List Nat :=
  match keyRunOf s cmd with
  | some k => (keyTileLines k t).flatMap (fun n => granules 64 (keyLineAddr s k n) 512)
  | none => []

/-- The reads of a delivery tile. -/
def dlvReads (s : State) (x : Dlv) (t : Nat) : List Nat :=
  match x.owner with
  | .key cmd => keyReads s t cmd
  | _ => tileReads s x t

/-- A stream asks for the tiles up to PREFETCH_DEPTH ahead of the tile being written; the bound is the depth's largest value. -/
def askTiles : Nat → State → Nat → State
  | 0, s, _ => s
  | n + 1, s, id =>
    match dlvOf s id with
    | none => s
    | some x =>
      if x.dispatched && x.readsMemory && x.asked < x.tiles && x.asked < x.oldestTile + prefetchDepth s x.slot then
        askTiles n (modDlv s id (fun y => { y with
          asked := x.asked + 1, want := x.want ++ (dlvReads s x x.asked).map (fun g => (x.asked, g)) })) id
      else s

/-- The fetch port of a granule (R290). -/
def fetchPort (g : Nat) : Nat := g / 64 % 4

def fetchQueue (s : State) (p : Nat) : List FetchReq := tblGet [] s.dlv.fetch p
def setFetchQueue (s : State) (p : Nat) (q : List FetchReq) : State := { s with dlv := { s.dlv with fetch := tblSet [] s.dlv.fetch p q } }

/-- A queued request takes up one for a granule (R291): it has not been sent, both lie in one 4 KiB window, and they touch. -/
def FetchReq.meets (r : FetchReq) (g : Nat) : Bool := !r.sent && r.lo / 64 == g / 64 && r.lo ≤ g + 1 && g ≤ r.hi

/-- The request that covers both. -/
def FetchReq.join (r : FetchReq) (id tile g : Nat) : FetchReq :=
  { r with lo := min r.lo g, hi := max r.hi (g + 1), users := r.users ++ [(id, tile, g)] }

/-- The first request of a queue that takes up one for a granule does. -/
def joinReq (id tile g : Nat) : List FetchReq → List FetchReq
  | [] => []
  | r :: t => if r.meets g then r.join id tile g :: t else r :: joinReq id tile g t

/-- A read has entered its queue. -/
def readEntered (s : State) (id : Nat) (e : Nat × Nat) : State :=
  modDlv s id (fun x => { x with want := x.want.erase e, coming := x.coming ++ [e] })

/-- A read enters its port's queue: merged with one that waits there, else behind the others while there is room (R291). -/
def enterRead (s : State) (id : Nat) (e : Nat × Nat) : State :=
  let p := fetchPort e.2
  let q := fetchQueue s p
  if q.any (·.meets e.2) then bump (readEntered (setFetchQueue s p (joinReq id e.1 e.2 q)) id e) 0x80E0 0x13
  else if q.length < 64 then
    readEntered (setFetchQueue s p (q ++ [{ lo := e.2, hi := e.2 + 1, users := [(id, e.1, e.2)] }])) id e
  else s

/-- Every read of a tile has returned. -/
def Dlv.tileThere (x : Dlv) : Bool :=
  x.fetched < x.asked && !x.want.any (fun e => e.1 == x.fetched) && !x.coming.any (fun e => e.1 == x.fetched)

/-- The next tile of a stream is made into lines. -/
def makeFetched (s : State) (x : Dlv) : State :=
  match x.owner with
  | .key cmd => makeKeyTile s x cmd
  | _ => makeTile s x.id

/-- The tiles of a stream that are there are made into lines, in order. -/
def makeThere : Nat → State → Nat → State
  | 0, s, _ => s
  | n + 1, s, id =>
    match dlvOf s id with
    | none => s
    | some x => if x.tileThere then makeThere n (makeFetched s x) id else s

/-- A stream goes on: it asks for tiles, its reads enter the queues, and tiles that want no read are made. -/
def feedStream (s : State) (id : Nat) : State :=
  let s := askTiles 16 s id
  let s := ((dlvOf s id).map (·.want)).getD [] |>.foldl (fun s e => enterRead s id e) s
  makeThere 16 s id

/-- Every stream in work goes on, the earliest item first (log entry 242). -/
def feedPorts (s : State) : State := (s.dlv.items.map (·.id)).foldl feedStream s

/-- A port sends the first of its requests that wait. -/
def markSent : Nat → List FetchReq → List FetchReq
  | 0, q => q
  | _, [] => []
  | n + 1, r :: t => if r.sent then r :: markSent (n + 1) t else { r with sent := true } :: markSent n t

/-- A fetch port sends requests. -/
def sendReads (s : State) (p n : Nat) : State :=
  bumpBy (setFetchQueue s p (markSent n (fetchQueue s p))) 0x80E0 0x12 (min n ((fetchQueue s p).countP (fun r => !r.sent)))

/-- The granules of a request. -/
def FetchReq.granules (r : FetchReq) : List Nat := (List.range (r.hi - r.lo)).map (· + r.lo)

/-- A read of a stream has returned with its request: after an error response its granule is an error's, with poisoned data in the
request it is poisoned (R291, R412). -/
def readBack (s : State) (failed bad : Bool) (u : Nat × Nat × Nat) : State :=
  modDlv s u.1 (fun x => { x with
    coming := x.coming.erase u.2
    errors := if failed then setAdd x.errors [u.2.2] else x.errors
    soiled := if bad then setAdd x.soiled [u.2.2] else x.soiled })

/-- A request has returned: a failed one, and one with poisoned data, raises RAS_MEM_ERROR once (R412); each requester has its own
granules, and the tiles that are there are made. -/
def takeReads (s : State) (r : FetchReq) (error : Bool) : State :=
  let failed := error || r.granules.any s.mem.failing.contains
  let bad := failed || r.granules.any (granulePoisoned s)
  let slot := ((r.users.head?.bind (fun u => dlvOf s u.1)).map (·.slot)).getD 63
  let s := if bad then memError s slot (64 * (r.granules.filter (granulePoisoned s)).getLastD r.lo) else s
  let s := r.users.foldl (fun s u => readBack s failed bad u) s
  ((r.users.map (·.1)).eraseDups).foldl (fun s id => advanceDlv (makeThere 16 s id) id) s

/-- Make the tiles left of an item whose source lies in staging. -/
def makeTiles : Nat → State → Nat → State
  | 0, s, _ => s
  | n + 1, s, id => makeTiles n (makeTile s id) id

/-- An item starts: its staging is reserved, its index tensors are processed, its layout blocks counted; a source in staging is
read in place. -/
def startItem (s : State) (id : Nat) (units : List Nat) : State :=
  match dlvOf s id with
  | none => s
  | some x =>
    let tiles := x.dsts.foldl (fun n d => max n (transferTiles d)) 0
    let (free, s) := reserveFree s (x.dsts.foldl (fun n d => n + product d.dims * d.elem + product (transferDims d) * d.elem) 0)
    let s := modDlv s id (fun x => { x with dispatched := true, units := units, tiles := tiles, free := free })
    let s := x.dsts.foldl (fun s d => indexEffects s id (sourceFor x.src x.entry d) d) s
    let s := x.dsts.foldl (fun s d =>
      bumpBy s 0x80D0 (if fullArray s then 0x15 else 0x16) (layoutBlocks (sourceFor x.src x.entry d) d)) s
    advanceDlv (if x.readsMemory then feedStream s id else makeTiles tiles s id) id

/-- The first item of a slot not yet dispatched. -/
def firstUndispatched (s : State) (slot : Nat) : Option Dlv := s.dlv.items.find? (fun x => x.slot == slot && !x.dispatched && !x.isKey)

/-- DLV_ITEM_DISPATCH (R290): of the slots whose earliest waiting item can reserve its staging, the one R25 chooses. -/
def execDlvItemDispatch (s : State) : Result :=
  .next (
    let slots := slotNumbers.filter (fun n =>
      match firstUndispatched s n with
      | some x => unitsNeeded s x ≤ (sharedFree s).length
      | none => false)
    match arbPick s unitDlv slots with
    | none => s
    | some n =>
      match firstUndispatched s n with
      | none => s
      | some x =>
        if !unitsDispatch s then s
        else
          match takeUnits s (unitsNeeded s x) with
          | none => s
          | some (us, t) => startItem (arbGrant t unitDlv n slots) x.id us)

/-! ## Returns of reads -/

/-- MEM_READ_RETURN (R290, R291, R412): the streams feed the fetch ports; port `port` sends the next `sent` of its requests, and of those
sent the one numbered `which` returns, with an error response when `error` says so. -/
def execMemReadReturn (port sent which : Nat) (error : Bool) (s : State) : Result :=
  .next (if !unitsWork s then s
    else
      let s := sendReads (feedPorts s) port sent
      match ((fetchQueue s port).filter (·.sent))[which]? with
      | none => s
      | some r => takeReads (setFetchQueue s port ((fetchQueue s port).erase r)) r error)

/-! ## Banks and ports (R289, R296, R297) -/

def bankOf (s : State) (b : Nat) : Bank := tblGet {} s.dlv.banks b
def setBank (s : State) (b : Nat) (x : Bank) : State := { s with dlv := { s.dlv with banks := tblSet {} s.dlv.banks b x } }

/-- The bank and port of a scratchpad address (R289). -/
def lineBank (a : Nat) : Nat := a / 2097152
def linePort (a : Nat) : Nat := a / 512 % 8

/-- An item's lines come from another die. -/
def Dlv.fromAway (x : Dlv) : Bool :=
  match x.owner with
  | .remote _ _ _ => true
  | _ => false

/-- A line to a bank is held (R296): a power-down request has been seen, or the bank is off under the handshake; but a line from
another die that reaches a bank which is off is not held. -/
def lineHeld (s : State) (x : Dlv) (l : OutLine) : Bool :=
  let b := bankOf s (lineBank l.addr)
  if x.fromAway then b.on && b.req else b.req || b.parked

/-- A line goes before another of its item at a port: in its turn, then by ascending address (R137, R272, R273, R289). -/
def OutLine.before (m l : OutLine) : Bool := m.rank < l.rank || (m.rank == l.rank && m.addr < l.addr)

/-- The first line of a list in the order of a port. -/
def firstLine : List OutLine → Option OutLine
  | [] => none
  | l :: t =>
    match firstLine t with
    | some m => if m.before l then some m else some l
    | none => some l

/-- The footprint's poisoned lines of a scatter come after all its other writes, at whatever port (R273). -/
def Dlv.mayWrite (x : Dlv) (l : OutLine) : Bool := l.rank < 2 || !x.ready.any (fun m => m.rank < 2 && m.dst == l.dst)

/-- The lines of an item that a port may write now, while the window of its due segment is open (R29). -/
def portLines (s : State) (port : Nat) (x : Dlv) : List OutLine :=
  if windowOpen s x.due then x.ready.filter (fun l => linePort l.addr == port && !lineHeld s x l && x.mayWrite l) else []

/-- A lane's buffer gives up a line that scratchpad has accepted or that is dropped (R122). -/
def lineLeaves (s : State) (lane : Option Nat) : State :=
  match lane with
  | none => s
  | some u => { s with sdx := { s.sdx with held := tblSet 0 s.sdx.held u (tblGet 0 s.sdx.held u - 1) } }

/-- The staging units a number of a key's tiles takes (R305). -/
def tileUnits (k : KeyRun) (tiles : Nat) : Nat := ceilDiv (tiles * 4 * keyN k) 65536

/-- A tile of a key's allotment has been written: it is freed, with the units it alone held (R137). -/
def freeTile (s : State) (k : KeyRun) : State :=
  let n := tileUnits k k.freeTiles - tileUnits k (k.freeTiles - 1)
  giveUnits { s with sdx := { s.sdx with keys := s.sdx.keys.map (fun y =>
      if y.item.cmd == k.item.cmd then { y with freeTiles := k.freeTiles - 1, units := k.units.drop n } else y) } } (k.units.take n)

/-- A line of a key has been accepted or dropped; with the last of its tile the tile counts as delivered if all were accepted
(R142), and a tile of the allotment is freed (R137). -/
def keyLineDone (s : State) (x : Dlv) (l : OutLine) (dropped : Bool) : State :=
  match x.owner with
  | .key cmd =>
    (match keyRunOf s cmd with
      | none => s
      | some k =>
        let (n, bad) := tblGet (0, false) k.tileLines l.part
        let bad := bad || dropped
        let k' := { k with tileLines := tblSet (0, false) k.tileLines l.part (n + 1, bad) }
        let s := { s with sdx := { s.sdx with keys := s.sdx.keys.map (fun y => if y.item.cmd == cmd then k' else y) } }
        if n + 1 != 4 * keyN k / 512 then s
        else
          let s := if bad then s else bump s 0x8060 5
          if l.rank == 0 then freeTile s k' else s)
  | _ => s

/-- A receiver on this die has had a line: it returns its credit (R292). -/
def Dlv.ackOwn (x : Dlv) (l : OutLine) : List Remote := x.remotes.map (fun r => if r.own && r.dst == l.dst then r.ack l.num else r)

/-- A line is dropped (R297): counted, its error raised once for the item, and failed; another die's item learns of it. -/
def dropLine (s : State) (id : Nat) (l : OutLine) : State :=
  match dlvOf s id with
  | none => s
  | some x =>
    let s := if x.late then bump s 0x80E0 5 else dlvError s id 0x0E05
    let s := keyLineDone (lineLeaves s l.lane) x l true
    let s := match x.owner with
      | .remote die item dst => send s (.credit die item dst l.num true)
      | _ => s
    modDlv s id (fun x => { (x.fail (dieId s) l) with
      late := true, dropped := x.dropped + 1, ready := x.ready.erase l, remotes := x.ackOwn l })

/-- The bytes and poison of a line as staging gives them (R410, R412): after an uncorrectable error it is poisoned, its bytes
unstated. -/
def readStaging (s : State) (id slot : Nat) (l : OutLine) (read : SramRead) : OutLine × State :=
  match read with
  | .clean => (l, s)
  | .corrected => (l, raiseErr s 0x1201 63)
  | .failed kind off =>
    let (free, s) := reserveFree s l.data.length
    let s := sramFault s kind off slot
    let l' := { l with poison := true, failed := true, data := (l.data.map (·.1)).zip (freeBytes free l.data.length) }
    (l', modDlv s id (fun x => if x.local_ then x.fail (dieId s) l' else x))

/-- A line is written on a port: the scratchpad takes it, and its acknowledgement is awaited; those of R283 are counted. -/
def writeLine (s : State) (port : Nat) (x : Dlv) (l : OutLine) : State :=
  let s := if x.isPoisoning then bump s 0x80E0 0x16 else s
  let b := bankOf s (lineBank l.addr)
  let s := setBank (spWrite s l.addr l.data l.poison) (lineBank l.addr) { b with flight := b.flight + 1 }
  let s := if l.data.length < 512 then bump s 0x80E0 0x11 else s
  { s with dlv := { s.dlv with
      ports := tblSet [] s.dlv.ports port (tblGet [] s.dlv.ports port ++ [{ item := x.id, line := l }])
      lastLine := tblSet none s.dlv.lastLine port (some l) } }

/-- How urgent a slot is at a port: the poisoning of R283 is served as priority 0. -/
def portUrgency (s : State) (port : Nat) (ready : List Dlv) (n : Nat) : Nat :=
  if ready.any (fun x => x.slot == n && x.isPoisoning) then 0 else arbPriority s (unitPort port) n

/-- The item of a slot that a port serves: its poisoning, else the earliest. -/
def portItem (ready : List Dlv) (n : Nat) : Option Dlv :=
  match ready.find? (fun x => x.slot == n && x.isPoisoning) with
  | some x => some x
  | none => ready.find? (fun x => x.slot == n)

/-- The item and line a port takes: of the slots with a line ready the one R25 chooses, of its items the earliest, of its lines
the first in the order of R289. -/
def portPick (s : State) (port : Nat) : Option (Dlv × OutLine × List Nat) :=
  let ready := s.dlv.items.filter (fun x => !(portLines s port x).isEmpty)
  let slots := (ready.map (·.slot)).eraseDups
  match arbPickBy s (unitPort port) (portUrgency s port ready) slots with
  | none => none
  | some n =>
    match portItem ready n with
    | none => none
    | some x => (firstLine (portLines s port x)).map (fun l => (x, l, slots))

/-- DLV_PORT_WRITE (R289, R297): the port's line is written, or dropped when its bank is off. -/
def execDlvPortWrite (port : Nat) (read : SramRead) (s : State) : Result :=
  .next (match portPick s port with
    | none => s
    | some (x, l, slots) =>
      if !unitsWork s then s
      else
        let s := arbGrant s (unitPort port) x.slot slots
        if !(bankOf s (lineBank l.addr)).on then advanceDlv (dropLine s x.id l) x.id
        else
          let s := modDlv s x.id (fun x => { x with ready := x.ready.erase l, flight := x.flight + 1 })
          let (l', s) := readStaging s x.id x.slot l read
          writeLine s port x l')

/-- The acknowledgement of a power-down request, once no line to the bank is in flight (R296). -/
def bankAck (s : State) (b : Nat) : State :=
  let x := bankOf s b
  if x.req && !x.ack && x.flight == 0 then bump (setBank s b { x with ack := true }) 0x80E0 0x17 else s

/-- SP_WACK (R289): the oldest line in flight on a port is accepted. -/
def execSpWack (port : Nat) (s : State) : Result :=
  .next (match tblGet [] s.dlv.ports port with
    | [] => s
    | f :: rest =>
      let l := f.line
      let b := bankOf s (lineBank l.addr)
      let s := { s with dlv := { s.dlv with ports := tblSet [] s.dlv.ports port rest } }
      let s := bankAck (setBank s (lineBank l.addr) { b with flight := b.flight - 1 }) (lineBank l.addr)
      let s := lineLeaves (bump s 0x80E0 0x10) l.lane
      match dlvOf s f.item with
      | none => s
      | some x =>
        let s := match x.owner with
          | .remote die item dst => send s (.credit die item dst l.num false)
          | _ => s
        let s := keyLineDone s x l false
        advanceDlv (modDlv s f.item (fun x => { x with
          flight := x.flight - 1, written := x.written + 1, laneLast := some (l.part % 2 == 1), remotes := x.ackOwn l
          poisonedLines := if l.poison then x.poisonedLines + 1 else x.poisonedLines })) f.item)

/-! ## Lines from and to other dies (R292 to R295) -/

/-- The item of a receiver here, by the number of its item at the sender. -/
def awayItem (s : State) (die item dst : Nat) : Option Dlv := s.dlv.items.find? (fun x => x.owner == .remote die item dst)

/-- A receiver's item is here, made by the first that is heard of it. -/
def openAway (s : State) (die item dst slot tag due : Nat) : State :=
  match awayItem s die item dst with
  | some _ => s
  | none => addDlv s { id := 0, owner := .remote die item dst, slot := slot, tag := tag, due := due, scratch := true, local_ := true,
                       dispatched := true, open_ := true }

/-- Change a receiver's item. -/
def modAway (s : State) (die item dst : Nat) (f : Dlv → Dlv) : State :=
  match awayItem s die item dst with
  | none => s
  | some x => modDlv s x.id f

/-- A receiver's item is changed and goes on. -/
def advanceAway (s : State) (die item dst : Nat) (f : Dlv → Dlv) : State :=
  match awayItem s die item dst with
  | none => s
  | some x => advanceDlv (modDlv s x.id f) x.id

/-- What the answer for a line does to its item: an accepted line counts as written, a dropped one as failed at its receiver (R297,
R298). -/
def Dlv.answered (x : Dlv) (die : Nat) (l : OutLine) (dropped : Bool) : Dlv :=
  if dropped then
    { (x.fail die l) with dropped := x.dropped + 1, late := true, status := if x.status == 0 then 0x0E05 else x.status }
  else { x with written := x.written + 1, poisonedLines := if l.poison then x.poisonedLines + 1 else x.poisonedLines }

/-- A receiver on another die has accepted or dropped line `num`: answered once, however often it was sent. -/
def Dlv.answer (x : Dlv) (r : Remote) (num : Nat) (dropped : Bool) : Dlv :=
  let y := match (x.linesFor r.dst)[num]? with
    | some l => if r.acks.contains num then x else x.answered r.die l dropped
    | none => x
  { y with remotes := x.remotes.map (fun q => if q == r then q.ack num else q) }

/-- MCAST_CREDIT_RETURN (R293, R297): a receiver has accepted line `num`, or dropped it; `stallFclk` is what the group has stalled for
it since the last return. -/
def execMcastCreditReturn (item die dst num : Nat) (dropped : Bool) (stallFclk : Nat) (s : State) : Result :=
  .next (match dlvOf s item with
    | none => s
    | some x =>
      match x.remotes.find? (fun r => r.die == die && r.dst == dst && !r.own && !r.gone && (num < r.sent || r.detached)) with
      | none => s
      | some r =>
        if (x.linesFor dst).length ≤ num then s
        else advanceDlv (modDlv (bumpBy s 0x80E0 0x14 stallFclk) item (fun _ => x.answer r num dropped)) item)

/-- The attached receivers without a credit while a group has a line to send. -/
def stalledOn (s : State) (x : Dlv) : List Remote :=
  if x.next < x.group.length && windowOpen s x.due then x.attached.filter (fun r => r.credits == 0) else []

/-- A receiver is detached (R294): its range runs from its first line not acknowledged to the item's last. -/
def Remote.detach (r : Remote) : Remote := { r with detached := true, credits := 64, sent := r.firstLeft, closed := false }

/-- Receivers are detached: their ranges are recorded, and the lines buffered for those on this die are discarded. -/
def Dlv.detach (x : Dlv) (lost : List Remote) : Dlv :=
  { x with
    catchups := x.catchups ++ lost.map (fun r => (r.die, r.dst))
    ready := x.ready.filter (fun l => !lost.any (fun r => r.own && r.dst == l.dst))
    remotes := x.remotes.map (fun r => if lost.contains r then r.detach else r) }

/-- STRAGGLER_TIMEOUT (R294): every receiver the group has stalled on is detached, its range recorded and its lines discarded. -/
def execStragglerTimeout (item : Nat) (s : State) : Result :=
  .next (match dlvOf s item with
    | none => s
    | some x =>
      let lost := stalledOn s x
      if objGet s 0x6801 4 == 0 || lost.isEmpty then s
      else
        let s := bumpBy s 0x80E0 0x14 (objGet s 0x6801 6 * 2000)
        let s := lost.foldl (fun s _ => dlvError s item 0x0E04) s
        let s := (lost.filter (!·.own)).foldl (fun s r => sendNotice s x r.die r.dst .discard) s
        advanceDlv (modDlv s item (fun y => y.detach lost)) item)

/-- The write of STRAGGLER_ENABLE (R300): 1 claims the timer, 0 releases it. -/
def stragglerEffect : WriteEffect :=
  claimEffect (objKey 0x6801 5) (fun s _ v => if v == 0 then [] else [.timer (objGet s 0x6801 5)]) storeEffect

/-- STRAGGLER_ENABLE_WRITE (R300). -/
def execStragglerEnableWrite (via : Via) (value : Nat) (s : State) : Result :=
  .next (requestWrite stragglerEffect via 0x6801 4 (leBytes 1 value) s)

/-! ## Bank power (R296) -/

/-- BANK_PD_REQ_ASSERT (R296): no new line starts to the bank; with none in flight the request is acknowledged. -/
def execBankPdReqAssert (bank : Nat) (s : State) : Result :=
  .next (bankAck (setBank s bank { bankOf s bank with req := true }) bank)

/-- BANK_PD_REQ_WITHDRAW (R296): the acknowledgement falls. -/
def execBankPdReqWithdraw (bank : Nat) (s : State) : Result :=
  .next (setBank s bank { bankOf s bank with req := false, ack := false })

/-- BANK_ON_RISE (R296): held lines proceed. -/
def execBankOnRise (bank : Nat) (s : State) : Result :=
  .next (setBank s bank { bankOf s bank with on := true, parked := false })

/-- BANK_ON_FALL (R296, R297): under the handshake the bank's lines are held, without it they are dropped as they come. -/
def execBankOnFall (bank : Nat) (s : State) : Result :=
  .next (setBank s bank { bankOf s bank with on := false, parked := (bankOf s bank).ack })

end Sys2Proof.Machine
end

