-- ==== Sys2Proof/Machine/FedOps.lean ====
section
/-! DEFINITION. Federation messages (R386), and the fatal error (R415). -/

namespace Sys2Proof.Machine

/-! ## Messages -/

def fedAnnounce : Nat := 1
def fedRegister : Nat := 2
def fedRedirect : Nat := 3
def fedRoster : Nat := 4
def fedBeat : Nat := 5
def fedArrive : Nat := 6
def fedForwardType : Nat := 7

def msgType (b : List Byte) : Nat := fld b 0 1
def msgSrc (b : List Byte) : Nat := fld b 1 1
def msgDst (b : List Byte) : Nat := fld b 2 1
def msgHop (b : List Byte) : Nat := fld b 3 1

/-- The message has 32 bytes and a CRC that matches. -/
def msgSound (b : List Byte) : Bool := b.length == 32 && crc32c (b.take 28) == fld b 28 4

/-- The message as it is passed on, its hop count raised by 1. -/
def msgOn (b : List Byte) : List Byte := fedBytes (msgType b) (msgSrc b) (msgDst b) (msgHop b + 1) ((b.drop 4).take 24)

/-- A federation message of a type arrives (R386): a wrong CRC is discarded and counted; of a message for all dies the first copy
is taken and passed on, later ones and those at hop 7 are dropped; a message for another die is none of this engine's. -/
def fedTake (ty : Nat) (m : FedArrival) (act : List Byte → State → State) (s : State) : State :=
  if !unitsWork s then s
  else if !msgSound m.bytes then bump s 0x1180 9
  else if msgType m.bytes != ty then s
  else if msgDst m.bytes == 0xFF then
    if m.copy || 7 ≤ msgHop m.bytes || msgSrc m.bytes == dieId s then s
    else act m.bytes (send s (.fedExcept m.link (msgOn m.bytes)))
  else if msgDst m.bytes == dieId s then act m.bytes s
  else s

/-! ## The fatal error (R415) -/

/-- The lines of a container's ciphertext slot (R108), as half-A addresses. -/
def containerLines (s : State) (m : Nat) : List Nat :=
  match s.net.msgs.find? (fun (y : Msg) => y.id == m) with
  | none => []
  | some y =>
    match y.stage.bind (stageOf s), y.due with
    | some i, some (_, k) =>
      (List.range (2 * (i.p.outLevel + 1) * 4 * 2 ^ (setOf s i.p.set).log2n / 512)).map (fun n => i.p.dest + k * i.p.destStride + 512 * n)
    | _, _ => []

/-- The lines of the scratchpad destinations of the key-stream and container deliveries in work, placed (R129, R108). -/
def ownerLines (s : State) (x : Dlv) : List Nat :=
  let ls := match x.owner with
    | .key cmd => ((keyRunOf s cmd).map (keyLines s)).getD []
    | .container m => containerLines s m
    | _ => []
  ls.map (placeAddr s x.slot x.region x.sliver x.due)

/-- The scratchpad lines of an item not yet accepted here: the footprints of its descriptors, or the lines made. -/
def itemLines (s : State) (x : Dlv) : List Nat :=
  if !x.scratch || !x.local_ then []
  else
    (x.dsts.filter (fun d => d.space == 1)).flatMap (fun d =>
      (footprintLines d).map (placeAddr s x.slot x.region x.sliver x.due))
    ++ (if x.dsts.isEmpty then setAdd (ownerLines s x) ((x.ready ++ x.group).map (·.addr)) else [])

/-- Poison lines of scratchpad, their bytes unstated. -/
def poisonScratch (s : State) (addrs : List Nat) : State :=
  addrs.foldl (fun s a =>
    let (free, s) := reserveFree s 512
    spWrite s a (freeLine free 0 512) true) s

/-- RAS_FATAL (R415): its event fires only when the event controller is not what failed. -/
def raiseFatal (s : State) (cause : Nat) : State :=
  if Config.eventControllerCause cause then countErr s 0x1205 63 else raiseErr s 0x1205 63

/-- A fatal error (R415): the engine stops, its items are abandoned with their scratchpad destinations poisoned, the cause is kept
and RAS_FATAL raised. -/
def fatalError (s : State) (cause : Nat) : State :=
  let s := poisonScratch s (s.dlv.items.flatMap (itemLines s))
  let s := { s with
    cmds := [], txa := { s.txa with queue := [], tiles := [], work := [] }, forge := {}
    sdx := { s.sdx with streams := [], lanes := [], held := [], regs := [], keyQueue := [], keys := [], done := [], moved := [] }
    rsv := { s.rsv with cores := [], moved := [], waiting := [] }
    mdc := { s.mdc with queue := [], runs := [], outcomes := [] }
    tok := { s.tok with queue := [], run := none, cores := [] }
    bat := {}, dlv := { s.dlv with items := [], ports := [], reservedUnits := [] }
    net := { s.net with stages := [], msgs := [] }
    boot := { s.boot with failed := true }, fed := { s.fed with fatalCause := cause % 2 ^ 16 } }
  raiseFatal (lastBadOther s) cause

end Sys2Proof.Machine
end

