-- ==== Sys2Proof/Machine/Barrier.lean ====
section
/-! DEFINITION. Segments and rest stops (R29 to R33, R279, R282 to R286). -/

namespace Sys2Proof.Machine

/-- Key limb streams become ready when the window of their due segment is open (R137). -/
def openKeyStreams (s : State) : State :=
  let opened (u : StreamUse) : Bool :=
    match u with
    | .keyLimb cmd _ _ _ => s.sdx.keys.any (fun k => k.item.cmd == cmd && windowOpen s k.due)
    | _ => false
  { s with sdx := { s.sdx with streams := s.sdx.streams.map (fun x => if opened x.use then { x with ready := true } else x) } }

/-- A new segment: every item goes on in the windows it opens. -/
def openWindows (s : State) : State :=
  (s.dlv.items.map (·.id)).foldl advanceDlv (openKeyStreams s)

/-- BAR_RELEASE (R279, R425): ignored before the head count closes and by an excluded engine. -/
def execBarRelease (s : State) : Result :=
  .next (if !headCountClosed s || !unitsWork s then s
    else
      let s := objSet s 0x6801 3 (segmentOf s + 1)
      openWindows { s with dlv := { s.dlv with arrived := false, permitted := false, reported := false, lastCond := none } })

/-! ## Arrival (R282) -/

/-- The schedule-bound slots. -/
def boundSlots (s : State) : List Nat := slotNumbers.filter (scheduleBound s)

/-- A slot has declared the next segment closed; the horizon of a faulted one counts as unbounded (R283). -/
def horizonReached (s : State) (n : Nat) : Bool := (slotOf s n).faultHorizon.isSome || segmentOf s + 1 ≤ (slotOf s n).horizon

/-- A delivery that an arrival waits for: its lines for this die are what counts (R30), and a poisoning counts by itself. -/
def owedDelivery (s : State) (x : Dlv) : Bool := x.scratch && x.local_ && !x.here && !x.isPoisoning && x.due ≤ segmentOf s + 1

/-- Poisoning owed for the next segment is written. -/
def poisonReached (s : State) (n : Nat) : Bool := (slotOf s n).faultHorizon.isNone || segmentOf s + 1 ≤ (slotOf s n).poisonedTo

/-- The three conditions of R282. -/
def arrivalReady (s : State) : Bool :=
  (boundSlots s).all (horizonReached s) && !s.dlv.items.any (owedDelivery s)
  && (boundSlots s).all (poisonReached s)

/-- An item that the arrival waits for: a delivery, or a poisoning due. -/
def owedItem (s : State) (x : Dlv) : Bool := owedDelivery s x || (x.isPoisoning && x.due ≤ segmentOf s + 1)

/-- A line is held for a bank that is off (R296). -/
def heldOff (s : State) (x : Dlv) (l : OutLine) : Bool := lineHeld s x l && !(bankOf s (lineBank l.addr)).on

/-- The lines held for banks that are off are dropped as late writes (R296), those of a poisoning too. -/
def dropHeld (s : State) : State :=
  s.dlv.items.foldl (fun s x =>
    if owedItem s x then advanceDlv ((x.ready.filter (heldOff s x)).foldl (fun s l => dropLine s x.id l) s) x.id else s) s

/-- The item of the lowest slot in a list, the last of it. -/
def lowestSlot : List Dlv → Option Dlv
  | [] => none
  | x :: t =>
    match lowestSlot t with
    | some y => if x.slot < y.slot then some x else some y
    | none => some x

/-- Of the conditions that became true together, one is recorded: a delivery before a poisoning, and of each kind the lowest slot
(R286). -/
def recordTied (before : State) (s : State) : State :=
  let done := before.dlv.items.filter (fun x =>
    owedItem before x && !s.dlv.items.any (fun y => y.id == x.id && owedItem s y))
  match lowestSlot (done.filter (!·.isPoisoning)), lowestSlot done with
  | some x, _ => { s with dlv := { s.dlv with lastCond := some (x.slot, x.tag) } }
  | none, some x => { s with dlv := { s.dlv with lastCond := some (x.slot, 0xFFFFFFFF) } }
  | none, none => s

/-- What a late arrival is put down to (R140, R286). -/
def lateRecord (s : State) : State :=
  let s := match s.dlv.lastDone with
    | some (true, some true) => bump s 0x8060 6
    | some (true, some false) => bump s 0x8060 7
    | _ => s
  match s.dlv.lastCond with
  | some (slot, tag) => objSet (objSet s 0x6801 8 slot) 0x6801 9 tag
  | none => s

/-- The engine arrives at the rest stop that ends the running segment (R30, R33). -/
def arrive (s : State) (fabricFirst : Bool) (waitFclk : Nat) : State :=
  let s := bump { s with dlv := { s.dlv with arrived := true, barArrive := !s.dlv.barArrive } } 0x8010 1
  let s := traceRec s 4 10 63 (if fabricFirst then 1 else 0) (segmentOf s) (if fabricFirst then waitFclk else 0)
  if fabricFirst then fire (lateRecord (pulse (bumpBy (bump s 0x8010 2) 0x8010 3 waitFclk) 4)) 8 0 else s

/-- ENGINE_ARRIVE (R282): the environment tells whether the fabric came first, and by how much. -/
def execEngineArrive (fabricFirst : Bool) (waitFclk : Nat) (s : State) : Result :=
  .next (if !headCountClosed s || !unitsWork s || s.dlv.arrived then s
    else if arrivalReady s then arrive s fabricFirst waitFclk
    else
      let t := recordTied s (dropHeld s)
      if arrivalReady t then arrive t fabricFirst waitFclk else s)

/-! ## Region poisoning (R283) -/

/-- The lines of a slot's regions that the fabric reads in a segment (R279). -/
def regionLines (s : State) (n d : Nat) : List Nat :=
  (slotOf s n).job.regions.flatMap (fun r =>
    (List.range (r.bytes / 512)).map (fun i => r.base + (if d % 2 == 1 then r.half else 0) + 512 * i))

/-- One poisoned line of a region, its bytes unstated (log entry 112). -/
def poisonRegionLine (free i a : Nat) : OutLine := { addr := a, space := 1, data := freeLine free i 512, poison := true }

/-- The poisoning of segment d may be written: its window is open, the slot's issued deliveries due for it are complete, and no
poisoning of the slot is under way. -/
def poisonMay (s : State) (n d : Nat) : Bool :=
  windowOpen s d && !s.dlv.items.any (fun x => x.slot == n && x.scratch && x.local_ && !x.here && x.due ≤ d)

/-- The poisoning of a segment as the ports take it: every line of the slot's regions that the fabric reads in it. -/
def poisoningItem (s : State) (n d free : Nat) : Dlv :=
  let lines := regionLines s n d
  { id := 0, owner := .poisoning d, slot := n, tag := 0xFFFFFFFF, due := d, scratch := true, local_ := true, dispatched := true,
    ready := ((List.range lines.length).zip lines).map (fun e => poisonRegionLine free e.1 e.2) }

/-- REGION_POISONING (R283): the lines of the next segment owed by a faulted slot go to the ports. -/
def execRegionPoisoning (slot : Nat) (s : State) : Result :=
  .next (
    let x := slotOf s slot
    let d := x.poisonedTo + 1
    if x.faultHorizon.isNone || !unitsWork s || !poisonMay s slot d then s
    else
      let (free, s) := reserveFree s (512 * (regionLines s slot d).length)
      addDlv s (poisoningItem s slot d free))

/-! ## The package-wide rest stop (R285) -/

/-- The engine permits its die barrier to release. -/
def permit (s : State) : State := { s with dlv := { s.dlv with barPermit := !s.dlv.barPermit, permitted := true } }

/-- The payload of ARRIVE and RELEASE (R386). -/
def stopPayload (segment : Nat) (release : Bool) : List Byte := leBytes 6 segment ++ leBytes 1 (if release then 128 else 0)

/-- The lead holds every admitted die's arrival: it sends RELEASE to each, itself included; never during a re-election (R394). -/
def leadRelease (s : State) : State :=
  if s.fed.lead != dieId s || !headCountClosed s || s.fed.electing
      || !((List.range 8).all (fun d => !s.fed.admitted.testBit d || s.dlv.arrivals.contains d)) then s
  else
    let s := (otherDies s).foldl (fun s d => fedSend s fedArrive d (stopPayload (segmentOf s) true)) s
    permit { s with dlv := { s.dlv with arrivals := [] } }

/-- This die's arrival goes to the lead. -/
def sendArrive (s : State) : State :=
  if s.fed.lead == dieId s then leadRelease { s with dlv := { s.dlv with arrivals := setAdd s.dlv.arrivals [dieId s] } }
  else fedSend s fedArrive s.fed.lead (stopPayload (segmentOf s) false)

/-- BAR_REPORT (R285). -/
def execBarReport (s : State) : Result :=
  .next (if !headCountClosed s || !unitsWork s then s
    else sendArrive { s with dlv := { s.dlv with reported := true } })

/-- FED_ARRIVE (R285): an arrival from a die that is not admitted, or has left, is discarded (R393). -/
def execFedArrive (msg : FedArrival) (s : State) : Result :=
  .next (fedTake fedArrive msg (fun b s =>
    if (fld b 10 1).testBit 7 || s.fed.lead != dieId s || !dieAdmitted s (msgSrc b) then s
    else leadRelease { s with dlv := { s.dlv with arrivals := setAdd s.dlv.arrivals [msgSrc b] } }) s)

/-- FED_RELEASE (R285). -/
def execFedRelease (msg : FedArrival) (s : State) : Result :=
  .next (fedTake fedArrive msg (fun b s =>
    if !(fld b 10 1).testBit 7 || !headCountClosed s || s.fed.electing || msgSrc b != s.fed.lead then s else permit s) s)

end Sys2Proof.Machine
end

