-- ==== Sys2Proof/Machine/Keccak.lean ====
section
/-! DEFINITION. SHAKE128 as the seed expander runs it (R119, R125, FIPS 202): the permutation, the first block of an input, and
output bytes. The tables of the permutation are not listed: round constants and rotations are computed as FIPS 202 defines them. -/

namespace Sys2Proof.Machine

/-- One step of the 8-bit register that generates the round constants, polynomial x^8 + x^6 + x^5 + x^4 + 1. -/
def rcStep (r : Nat) : Nat := if r < 128 then 2 * r else (2 * r) ^^^ 0x171

/-- The register after n steps. -/
def rcSteps : Nat → Nat → Nat
  | 0, r => r
  | n + 1, r => rcSteps n (rcStep r)

/-- The round constant that seven steps from register r on give: step j, where its low bit is set, sets bit 2^j − 1. -/
def rcWord (r : Nat) : W64 :=
  (List.range 7).foldl (fun w j => if (rcSteps j r).testBit 0 then w ||| BitVec.twoPow 64 (2 ^ j - 1) else w) 0

/-- θ: each lane takes up the parity of the column before its own and that of the column after, turned by one. -/
def stepTheta (a : List W64) : List W64 :=
  let parity (x : Nat) : W64 := (a.zipIdx.filter (fun e => e.2 % 5 == x % 5)).foldl (fun p e => p ^^^ e.1) 0
  a.zipIdx.map (fun e => e.1 ^^^ parity (e.2 + 4) ^^^ (parity (e.2 + 1)).rotateLeft 1)

/-- ρ and π along their one cycle of 24 lanes: the lane at (x, y), turned by the t-th triangular number, goes to (y, 2x + 3y). -/
def stepRhoPi (a : List W64) : (todo : Nat) → (x y t turn : Nat) → (b : List W64) → List W64
  | 0, _, _, _, _, b => b
  | todo + 1, x, y, t, turn, b =>
    let x' := y
    let y' := (2 * x + 3 * y) % 5
    stepRhoPi a todo x' y' (t + 1) ((turn + t + 1) % 64) (b.set (x' + 5 * y') ((a.getD (x + 5 * y) 0).rotateLeft turn))

/-- χ on the lanes of one row. -/
def rowChi (r : List W64) : List W64 :=
  List.zipWith (fun u v => u ^^^ v) r
    (List.zipWith (fun v w => ~~~v &&& w) (r.drop 1 ++ r.take 1) (r.drop 2 ++ r.take 2))

/-- One round: θ, ρ with π, χ row by row, and ι on the first lane. -/
def stepRound (a : List W64) (c : W64) : List W64 :=
  let t := stepTheta a
  let b := stepRhoPi t 24 1 0 1 1 t
  ((List.range 5).flatMap (fun y => rowChi ((b.drop (5 * y)).take 5))).modifyHead (fun w => w ^^^ c)

/-- The rounds from register r of the constants on. -/
def roundsFrom : Nat → Nat → List W64 → List W64
  | 0, _, a => a
  | n + 1, r, a => roundsFrom n (rcSteps 7 r) (stepRound a (rcWord r))

/-- Keccak-f[1600]: 24 rounds; the register of the constants starts at 1. -/
def keccakF (a : List W64) : List W64 := roundsFrom 24 1 a

/-- The 25 lanes that begin as some bytes, eight to a lane, little-endian; the lanes beyond them are zero. -/
def absorbedLanes (bs : List Byte) : List W64 :=
  (List.range 25).map (fun i => BitVec.ofNat 64 (leNat ((bs.drop (8 * i)).take 8)))

/-- The state after the absorption of an input shorter than 167 bytes: the suffix 0x1F follows it, and bit 7 of byte 167 is set. -/
def shakeStart (input : List Byte) : List W64 :=
  (absorbedLanes (input ++ [0x1F])).modify 20 (fun w => w ||| BitVec.twoPow 64 63)

/-- The 168 bytes a permutation releases. -/
def shakeBytes (a : List W64) : List Byte := (a.take 21).flatMap (fun w => leBytes 8 w.toNat)

/-- The first n blocks of output. -/
def shakeBlocks : Nat → List W64 → List Byte
  | 0, _ => []
  | n + 1, a => let b := keccakF a; shakeBytes b ++ shakeBlocks n b

/-- The first len bytes of SHAKE128 of an input. -/
def shake128 (input : List Byte) (len : Nat) : List Byte := (shakeBlocks (ceilDiv len 168) (shakeStart input)).take len

end Sys2Proof.Machine
end

