-- ==== Sys2Proof/Machine/Trail.lean ====
section
/-! DEFINITION. The trail generator (R143 to R155): the call, the draws derived from it, and the epoch permutation. -/

namespace Sys2Proof.Machine

/-- A key of R143 and a counter of R144 as four words, word 0 first. -/
structure Quad where
  w0 : W32
  w1 : W32
  w2 : W32
  w3 : W32
deriving DecidableEq, Repr

def Quad.get (x : Quad) (j : Nat) : W32 :=
  match j with
  | 0 => x.w0 | 1 => x.w1 | 2 => x.w2 | _ => x.w3

/-- The four words of a 128-bit number. -/
def quadOf (n : Nat) : Quad :=
  { w0 := BitVec.ofNat 32 n, w1 := BitVec.ofNat 32 (n / 2 ^ 32), w2 := BitVec.ofNat 32 (n / 2 ^ 64),
    w3 := BitVec.ofNat 32 (n / 2 ^ 96) }

/-- The key of a call (R143). -/
def trailKey (seed purpose epoch : Nat) : Quad := quadOf (seed * 2 ^ 64 + purpose * 2 ^ 48 + epoch * 2 ^ 16)

/-- The counter of a call (R144). -/
def trailCounter (sample block draw : Nat) : Quad := quadOf (sample * 2 ^ 80 + block * 2 ^ 32 + draw)

/-- The rotations and constants of R146. -/
def trailA : List Nat := [13, 17, 7, 25, 11, 19, 5, 23, 15, 9]
def trailB : List Nat := [16, 6, 21, 12, 27, 8, 18, 3, 24, 14]
def trailG : W32 := 0x6A3D41C7
def trailH : W32 := 0xD2B74407

/-- One round of R146, with the word rotation that follows all but the last. -/
def trailRound (k : Quad) (r : Nat) (x : Quad) : Quad :=
  let n : W32 := BitVec.ofNat 32 (r + 1)
  let x0 := x.w0 + x.w1 + (k.get (r % 4) + n * trailG)
  let x3 := (x.w3 ^^^ x0).rotateLeft (trailA.getD r 0)
  let x2 := x.w2 + x3 + (k.get ((r + 1) % 4) + n * trailH)
  let x1 := (x.w1 ^^^ x2).rotateLeft (trailB.getD r 0)
  if r < 9 then { w0 := x1, w1 := x2, w2 := x3, w3 := x0 } else { w0 := x0, w1 := x1, w2 := x2, w3 := x3 }

/-- A call (R146). -/
def trailCall (k c : Quad) : Quad :=
  let x := (List.range 10).foldl (fun x r => trailRound k r x) c
  { w0 := x.w0 + k.w0, w1 := x.w1 + k.w1, w2 := x.w2 + k.w2, w3 := x.w3 + k.w3 }

/-- The words of a call, W0 first. -/
def Quad.words (x : Quad) : List W32 := [x.w0, x.w1, x.w2, x.w3]

/-- The 128-bit value W3‖W2‖W1‖W0 (R149). -/
def Quad.value (x : Quad) : Nat := x.w0.toNat + x.w1.toNat * 2 ^ 32 + x.w2.toNat * 2 ^ 64 + x.w3.toNat * 2 ^ 96

/-- What fixes a stream of draws: the key's fields, the sample and the draw index. -/
structure DrawId where
  seed : Nat
  purpose : Nat
  epoch : Nat
  sample : Nat
  draw : Nat
deriving DecidableEq, Repr

/-- Element i of b bits (R149). -/
def trailElem (d : DrawId) (b i : Nat) : Nat :=
  let v := (trailCall (trailKey d.seed d.purpose d.epoch) (trailCounter d.sample (i * b / 128) d.draw)).value
  v / 2 ^ (b * (i % (128 / b))) % 2 ^ b

/-- The purposes of R148. -/
def purposeListed (p : Nat) : Bool := (1 ≤ p && p ≤ 0xFF) || (0x100 ≤ p && p ≤ 0x103) || p == 0x200 || p == 0x201

/-- A uniform float's numerator over 2^24 (R150). -/
def drawM (d : DrawId) (i : Nat) : Nat := trailElem d 32 i / 256

/-- The uniform float of a 32-bit element (R150): m · 2^-24 with m its bits 31 to 8, as a binary32 pattern. -/
def uniformBits (w : Nat) : Nat := roundInt fmt32 (bitsOf w 31 8 : Nat) (-24)

/-- A uniform float draw for an element (R150). -/
def drawUniform (d : DrawId) (i : Nat) : Nat := uniformBits (trailElem d 32 i)

/-- A Bernoulli draw (R151). -/
def drawBernoulli (d : DrawId) (p16 i : Nat) : Bool := trailElem d 16 i < p16

/-- A centred binomial draw (R153). -/
def drawBinomial (d : DrawId) (eta i : Nat) : Int :=
  let w := trailElem d 32 i
  let pop (n : Nat) : Int := ((List.range 32).countP (fun k => n.testBit k) : Nat)
  pop (w % 2 ^ eta) - pop (w / 2 ^ eta % 2 ^ eta)

/-- An integer draw below n (R154). -/
def drawBelow (d : DrawId) (n i : Nat) : Nat := trailElem d 64 i * n / 2 ^ 64

/-! ## Logarithms and angles in fixed point

Real values are held as integers in units of 2^-192, far finer than any rounding that uses them (log entry 13). -/

def fixBits : Nat := 192

/-- Σ z^(2j+1)/(2j+1) from a running term, in fixed point. -/
def atanhSum : Nat → Nat → Nat → Nat → Nat
  | 0, _, _, _ => 0
  | f + 1, t, z2, k => t / (2 * k + 1) + atanhSum f (t * z2 / 2 ^ fixBits) z2 (k + 1)

/-- ln((1 + z)/(1 − z)) for z from 0 to 1/3. -/
def lnOfZ (z : Nat) : Nat := 2 * atanhSum 70 z (z * z / 2 ^ fixBits) 0

def ln2Fix : Nat := lnOfZ (2 ^ fixBits / 3)

/-- ln(n / d) for n ≥ d > 0. -/
def lnFix (n d : Nat) : Nat :=
  let k := Nat.log2 (n / d)
  let d' := d * 2 ^ k
  k * ln2Fix + lnOfZ ((n - d') * 2 ^ fixBits / (n + d'))

/-- The Gumbel value of m (R152): −ln(−ln u) with u = (2m + 1)/2^25, as a binary32 pattern. -/
def gumbelBits (m : Nat) : Nat :=
  let a := lnFix (2 ^ 25) (2 * m + 1)
  let g : Int := if 2 ^ fixBits ≤ a then -(lnFix a (2 ^ fixBits) : Int) else lnFix (2 ^ fixBits) a
  roundInt fmt32 g (-(fixBits : Int))

/-- A Gumbel draw for an element (R152). -/
def drawGumbel (d : DrawId) (i : Nat) : Nat := gumbelBits (drawM d i)

/-! ## The epoch permutation (R155) -/

/-- h of R155. -/
def permHalf (n : Nat) : Nat :=
  let c := (List.range 65).find? (fun k => decide (n ≤ 2 ^ k))
  max 1 ((c.getD 64 + 1) / 2)

/-- The Feistel network E with its round function F. -/
def feistel (h : Nat) (f : Nat → Nat → Nat) (x : Nat) : Nat :=
  let (l, r) := (List.range 4).foldl (fun (p : Nat × Nat) k => (p.2, Nat.xor p.1 (f k p.2))) (x / 2 ^ h, x % 2 ^ h)
  l * 2 ^ h + r

/-- The walk of R155 with a limit on its length. -/
def permWalk (e : Nat → Nat) (n : Nat) : Nat → Nat → Nat
  | 0, x => x
  | f + 1, x => if n ≤ x then permWalk e n f (e x) else x

/-- The network of an epoch of n samples, each F one call. -/
def permNet (seed epoch n : Nat) : Nat → Nat :=
  feistel (permHalf n) (fun r x => (trailCall (trailKey seed 0x200 epoch) (trailCounter x r 0)).w0.toNat % 2 ^ permHalf n)

/-- Sample π(p) of position p of an epoch of n samples. The walk is shorter than 2^(2h), the size of E's domain. -/
def epochPerm (seed epoch n p : Nat) : Nat := permWalk (permNet seed epoch n) n (2 ^ (2 * permHalf n)) (permNet seed epoch n p)

/-- The steps of a walk. -/
def permSteps (e : Nat → Nat) (n : Nat) : Nat → Nat → Nat
  | 0, _ => 0
  | f + 1, x => if n ≤ x then permSteps e n f (e x) + 1 else 0

/-- The calls that π(p) takes: four for each pass through the network. -/
def permCalls (seed epoch n p : Nat) : Nat :=
  4 * (permSteps (permNet seed epoch n) n (2 ^ (2 * permHalf n)) (permNet seed epoch n p) + 1)

end Sys2Proof.Machine
end

