-- ==== Sys2Proof/Machine/TxaMath.lean ====
section
/-! DEFINITION. The arithmetic of the transform array (R57 to R70): operand forms, the five modes, accumulation and drain. -/

namespace Sys2Proof.Machine

/-! ## Shapes of a work item -/

/-- Columns (and input elements) of a mode (R59). -/
def txaCols (mode : Nat) : Nat :=
  match mode with
  | 2 => 32 | 3 => 16 | 4 => 7 | _ => 64

/-- Bytes of one operand in staging. -/
def txaElem (mode : Nat) : Nat :=
  match mode with
  | 2 => 2 | 3 => 4 | 4 => 16 | _ => 1

/-- Bytes of a compact weight block and of an input vector slot (R66). -/
def txaBlockBytes (mode : Nat) : Nat := txaCols mode * txaCols mode * txaElem mode
def txaSlotBytes (mode : Nat) : Nat := if mode == 4 then 112 else 64

/-- Bytes of an output element (R62, R65). -/
def txaOutElem (p : TxaParams) : Nat := if p.mode == 4 then 16 else if p.outType == 7 || p.outType == 10 || p.outType == 11 then 4 else 2

/-- Bytes of a drained row. -/
def txaRowBytes (p : TxaParams) : Nat := txaCols p.mode * txaOutElem p

/-- Passes and rows of an item: the block holds them less one (R322). -/
def TxaParams.passCount (p : TxaParams) : Nat := p.passes + 1
def TxaParams.rowCount (p : TxaParams) : Nat := p.rows + 1

/-- The type class of a mode's operands (R59). -/
def txaTypeOk (mode t : Nat) : Bool :=
  match mode with
  | 0 => t == 1 || t == 2
  | 1 => t == 3 || t == 4
  | 2 => t == 5 || t == 6
  | 3 => t == 10
  | _ => t == 0

/-- The drain formats of a mode (R62, R322). -/
def txaOutOk (mode t : Nat) : Bool :=
  match mode with
  | 0 => t == 11 || t == 7 || t == 5
  | 1 => t == 7 || t == 5 || t == 6
  | 2 => t == 7 || t == 5 || t == 6
  | 3 => t == 10
  | _ => t == 0xF0

/-- The parameters lie in the ranges of R57. -/
def txaRangesOk (p : TxaParams) : Bool :=
  p.mode ≤ 4 && p.passes ≤ 15 && p.init ≤ 1 && p.set ≤ 7 && p.limb ≤ 79 && p.shift ≤ 88
  && [p.wBase, p.wStride, p.xBase, p.xStride, p.initAddr, p.outAddr].all (fun a => a % 64 == 0)
  && txaTypeOk p.mode p.xtype && txaTypeOk p.mode p.wtype && txaOutOk p.mode p.outType

/-- The extents an item reads, as offset and length in its window. -/
def txaReads (p : TxaParams) : List (Nat × Nat) :=
  (List.range p.passCount).flatMap (fun k =>
    [(p.wBase + k * p.wStride, txaBlockBytes p.mode), (p.xBase + k * p.xStride, p.rowCount * txaSlotBytes p.mode)])
  ++ (if p.init == 1 then [(p.initAddr, p.rowCount * txaRowBytes p)] else [])

/-- The extent an item writes. -/
def txaWrites (p : TxaParams) : Nat × Nat := (p.outAddr, p.rowCount * txaRowBytes p)

/-! ## Operands -/

/-- A list cut into pieces of n elements, k of them. -/
def chunksOf {α : Type} (n : Nat) : Nat → List α → List (List α)
  | 0, _ => []
  | k + 1, l => l.take n :: chunksOf n k (l.drop n)

/-- An integer operand of mode 0: U8 or I8. -/
def byteOperand (t v : Nat) : Int := if t == 2 then signed 8 v else v

/-- A floating operand of modes 1 and 2 (R60). -/
def fltOperand (t v : Nat) : Flt :=
  match t with
  | 3 => fltE4M3 v
  | 4 => fltOf fmtE5M2 v
  | 5 => fltOf fmtB16 v
  | _ => fltOf fmt16 v

/-- The elements of n bytes each in a byte string. -/
def elements (n count : Nat) (b : List Byte) : List Nat := (chunksOf n count b).map leNat

/-- The column sums Σ_i x_i · W[i][j] of integers. -/
def colSums (w : List (List Int)) (x : List Int) (cols : Nat) : List Int :=
  (x.zip w).foldl (fun acc e => List.zipWith (fun a b => a + e.1 * b) acc e.2) (List.replicate cols 0)

/-! ## Modes 1 and 2 -/

/-- A column's result: NaN, an infinity, or a sum m · 2^e (R62, R63). -/
inductive ColSum where
  | nan
  | inf (neg : Bool)
  | sum (m : Int) (e : Int)
deriving DecidableEq, Repr

/-- The product of two decoded values, its sign and magnitude. -/
def fltMul (a b : Flt) : Flt :=
  match a, b with
  | .nan, _ => .nan
  | _, .nan => .nan
  | .inf s, .inf t => .inf (s != t)
  | .inf s, .fin t m _ => if m = 0 then .nan else .inf (s != t)
  | .fin t m _, .inf s => if m = 0 then .nan else .inf (s != t)
  | .fin s m e, .fin t n f => .fin (s != t) (m * n) (e + f)

/-- floor(log2 |p|) of a finite non-zero product. -/
def fltTop : Flt → Option Int
  | .fin _ m e => if m = 0 then none else some ((Nat.log2 m : Int) + e)
  | _ => none

/-- A product as floor(p / 2^u), an integer of units 2^u. -/
def fltFloor (u : Int) : Flt → Int
  | .fin neg m e =>
    let v : Int := if neg then -(m : Int) else m
    if u ≤ e then v * 2 ^ (e - u).toNat else v / 2 ^ (u - e).toNat
  | _ => 0

/-- The side path of a column over its products (R63): NaN, an infinity, or none. -/
def sidePath (ps : List Flt) : Option ColSum :=
  if ps.any (· == .nan) then some .nan
  else
    match ps.any (· == .inf false), ps.any (· == .inf true) with
    | true, true => some .nan
    | true, false => some (.inf false)
    | false, true => some (.inf true)
    | false, false => none

/-- A column result added to a row's FP32 accumulator, rounded once (R62, R63). -/
def fltAccum (a : Nat) (c : ColSum) : Nat :=
  match fltOf fmt32 a, c with
  | .nan, _ => fmt32.nan
  | _, .nan => fmt32.nan
  | .inf s, .inf t => if s == t then a else fmt32.nan
  | .inf _, .sum _ _ => a
  | .fin _ _ _, .inf t => fltTo fmt32 (.inf t)
  | .fin neg m e, .sum k u =>
    let v := min e u
    roundInt fmt32 ((Flt.fin neg m e).units v + k * 2 ^ (u - v).toNat) v

/-! ## Weights, columns and the checksum column (R55, R59, R66 to R70) -/

/-- The integer operand of modes 0, 3 and 4. -/
def intOperand (mode type v : Nat) : Int :=
  match mode with
  | 0 => byteOperand type v
  | 3 => v
  | _ => signed 72 (v % 2 ^ 72)

/-- The bytes of a weight as the cells of its columns hold them, the lowest first: one in mode 0, four unsigned in mode 3, nine with a
signed top in mode 4 (R59). -/
def weightLimbs (mode : Nat) (w : Int) : List Int :=
  match mode with
  | 0 => [w]
  | 3 => (List.range 4).map (fun b => w / 2 ^ (8 * b) % 256)
  | _ => (List.range 8).map (fun b => w / 2 ^ (8 * b) % 256) ++ [w / 2 ^ 64]

/-- Columns of cells that one element takes. -/
def limbCount (mode : Nat) : Nat :=
  match mode with
  | 3 => 4 | 4 => 9 | _ => 1

/-- The weight matrix of a compact block, row by row: W[i][j] is element i·cols + j (DESIGN CHOICE, log entry 191). -/
def blockRows (mode : Nat) (block : List Byte) : List (List Nat) :=
  let c := txaCols mode
  chunksOf c c (elements (txaElem mode) (c * c) block)

/-- The cells of a row of the grid, as integers (modes 0, 3 and 4). -/
def intCells (p : TxaParams) (row : List Nat) : List Int := row.flatMap (fun v => weightLimbs p.mode (intOperand p.mode p.wtype v))

/-- A sum of decoded values, those that are infinity or NaN left out: an integer of units 2^u (R69). -/
def fltSum (u : Int) (l : List Flt) : Int := l.foldl (fun n x => n + x.units u) 0

/-- The lowest exponent of a list's finite values. -/
def lowestExp (l : List Flt) : Int :=
  l.foldl (fun u x => match x with
    | .fin _ _ e => min u e
    | _ => u) 0

/-- An integer times 2^u truncated toward zero to 64 significant bits (R69). -/
def trunc64 (m u : Int) : Int × Int :=
  let k := Nat.log2 m.natAbs - 63
  (m.tdiv (2 ^ k), u + k)

/-- The checksum cell of a row (R69), as an integer and a power of two. -/
def checkCell (p : TxaParams) (row : List Nat) : Int × Int :=
  match p.mode with
  | 1 => (fltSum (-16) (row.map (fltOperand p.wtype)), -16)
  | 2 =>
    let ws := row.map (fltOperand p.wtype)
    trunc64 (fltSum (lowestExp ws) ws) (lowestExp ws)
  | _ => ((intCells p row).foldl (· + ·) 0, 0)

/-- A weight register set as a block is loaded, with its checksum cells (R66, R69). -/
def loadWeights (p : TxaParams) (block : List Byte) : WeightSet :=
  { block := block, check := (blockRows p.mode block).map (checkCell p) }

/-- What a vector makes in the columns: the numeric column sums in units 2^unit, and the side paths of modes 1 and 2. -/
structure VecSums where
  cols : List Int
  unit : Int
  side : List (Option ColSum)
deriving DecidableEq, Repr

/-- The unit of a mode's column sums for a vector's products: 1, 2^-32, or E_top − 50 of R61. -/
def sumUnit (mode : Nat) (products : List Flt) : Int :=
  match mode with
  | 1 => -32
  | 2 => (match products.filterMap fltTop with
      | [] => 0
      | t :: ts => ts.foldl max t - 50)
  | _ => 0

/-- The column sums of one vector (R55, R59, R61, R63). -/
def vecSums (p : TxaParams) (block : List Byte) (x : List Byte) : VecSums :=
  let c := txaCols p.mode
  let rows := blockRows p.mode block
  let xs := elements (txaElem p.mode) c x
  if p.mode == 1 || p.mode == 2 then
    let products := ((xs.map (fltOperand p.xtype)).zip rows).map (fun e => (e.2.map (fltOperand p.wtype)).map (fltMul e.1))
    let u := sumUnit p.mode products.flatten
    let column (j : Nat) : List Flt := products.map (fun row => row.getD j (.fin false 0 0))
    { cols := (List.range c).map (fun j => (column j).foldl (fun n q => n + fltFloor u q) 0)
      unit := u, side := (List.range c).map (fun j => sidePath (column j)) }
  else
    { cols := colSums (rows.map (intCells p)) (xs.map (intOperand p.mode p.xtype)) (c * limbCount p.mode), unit := 0, side := [] }

/-- The checksum K of a vector, in the unit of its columns (R69): a row whose input is infinity or NaN is left out. -/
def checksum (p : TxaParams) (check : List (Int × Int)) (x : List Byte) (unit : Int) : Int :=
  let xs := elements (txaElem p.mode) (txaCols p.mode) x
  (List.zipWith (fun (v : Nat) (c : Int × Int) =>
    if p.mode == 1 || p.mode == 2 then fltFloor unit (fltMul (fltOperand p.xtype v) (.fin (decide (c.1 < 0)) c.1.natAbs c.2))
    else intOperand p.mode p.xtype v * c.1) xs check).foldl (· + ·) 0

/-- The comparison at the check cycle (R70): the low 32 bits, or the bound of 2^13 LSB in mode 2. -/
def checkHolds (mode : Nat) (cols : List Int) (k : Int) : Bool :=
  let d := cols.foldl (· + ·) 0 - k
  if mode == 2 then d.natAbs < 2 ^ 13 else d % 2 ^ 32 == 0

/-- A fault of the grid adds to columns of a vector. -/
def disturb (v : VecSums) (l : List (Nat × Int)) : VecSums :=
  { v with cols := l.foldl (fun cs e => cs.set e.1 (cs.getD e.1 0 + e.2)) v.cols }

/-! ## Accumulators -/

/-- A mode 4 accumulator that reaches magnitude 2^159 has overflowed (R65). -/
def accWatch (a : Acc) : Acc :=
  match a.ovf with
  | some _ => a
  | none => if 2 ^ 159 ≤ a.v.natAbs then { a with ovf := some (decide (a.v < 0)) } else a

/-- The element sums Σ_b 2^(8b)·C_(j,b) of cell columns, k of them to an element (R64, R65). -/
def limbSums (k count : Nat) (cols : List Int) : List Int :=
  (chunksOf k count cols).map (fun l => ((List.range k).zip l).foldl (fun n e => n + 2 ^ (8 * e.1) * e.2) 0)

/-- What the commit of a vector's sums leaves of a row, and whether a mode 0 element saturated (R62 to R65). -/
def commitRow (p : TxaParams) (q : Nat) (v : VecSums) (row : List Acc) : List Acc × Bool :=
  match p.mode with
  | 0 =>
    let exact := List.zipWith (fun a s => a.v + s) row v.cols
    (exact.map (fun v => { v := clampInt (-2147483648) 2147483647 v }), exact.any (fun v => v < -2147483648 || 2147483647 < v))
  | 3 => (List.zipWith (fun a s => { v := (a.v + s) % (q : Int) }) row (limbSums 4 16 v.cols), false)
  | 4 => (List.zipWith (fun (a : Acc) s => accWatch { a with v := a.v + s }) row (limbSums 9 7 v.cols), false)
  | _ =>
    let sums := ((List.range v.cols.length).zip v.cols).map (fun e => ((v.side[e.1]?).join).getD (.sum e.2 v.unit))
    (List.zipWith (fun a s => { v := fltAccum a.v.toNat s }) row sums, false)

/-- The preload of an accumulator element from the output format (R57, R65); of mode 0 from an I32 only. -/
def accPreload (p : TxaParams) (v : Nat) : Acc :=
  match p.mode with
  | 0 => { v := signed 32 v }
  | 3 => { v := v }
  | 4 => accWatch { v := signed 72 (v % 2 ^ 72) * 2 ^ p.shift }
  | _ => { v := (match p.outType with
      | 5 => fltTo fmt32 (fltOf fmtB16 v)
      | 6 => fltTo fmt32 (fltOf fmt16 v)
      | _ => v) }

/-- A mode 4 element at drain, and whether it is out of range (R65). -/
def drainFxp (shift : Nat) (a : Acc) : Int × Bool :=
  let sat (neg : Bool) : Int := if neg then -(2 ^ 71) else 2 ^ 71 - 1
  match a.ovf with
  | some neg => (sat neg, true)
  | none =>
    let v := divHalfEvenInt a.v (2 ^ shift)
    if v < -(2 ^ 71) || 2 ^ 71 - 1 < v then (sat (decide (v < 0)), true) else (v, false)

/-- An element at drain (R62, R65): its bytes, and whether an FXP72 value was out of range. -/
def drainElem (p : TxaParams) (a : Acc) : List Byte × Bool :=
  match p.mode with
  | 0 =>
    (match p.outType with
      | 7 => leBytes 4 (roundInt fmt32 a.v 0)
      | 5 => leBytes 2 (roundInt fmtB16 a.v 0)
      | _ => leBytes 4 (toBits 32 a.v), false)
  | 3 => (leBytes 4 a.v.toNat, false)
  | 4 =>
    let (v, bad) := drainFxp p.shift a
    (leBytes 16 (toBits 128 v), bad)
  | _ =>
    (match p.outType with
      | 5 => leBytes 2 (fltTo fmtB16 (fltOf fmt32 a.v.toNat))
      | 6 => leBytes 2 (fltTo fmt16 (fltOf fmt32 a.v.toNat))
      | _ => leBytes 4 (fltTo fmt32 (fltOf fmt32 a.v.toNat)), false)

/-- An item on its tile: the register sets and the accumulator rows, whether a mode 0 element saturated, the vectors that passed when
reissued, the first error, and the vector that failed twice (R67 to R71). -/
structure TxaProg where
  active : WeightSet
  shadow : WeightSet
  rows : List (List Acc)
  saturated : Bool := false
  retries : Nat := 0
  status : Nat := 0
  failed : Option (Nat × Nat) := none
deriving DecidableEq, Repr

/-- The first error of an item stays. -/
def TxaProg.err (g : TxaProg) (code : Nat) : TxaProg := { g with status := if g.status == 0 then code else g.status }

/-- Checked sums of row r are committed. -/
def TxaProg.commit (g : TxaProg) (p : TxaParams) (q r : Nat) (v : VecSums) : TxaProg :=
  let (row, sat) := commitRow p q v (g.rows.getD r [])
  let g := { g with rows := g.rows.set r row, saturated := g.saturated || sat }
  if sat then g.err 0x0303 else g

/-- Vector r of pass k: a mismatch has it issued again, a second stops the item; a failed sum is never committed (R70, R71). `fault` is
what the grid adds to its columns at its first issue and at its second. -/
def txaVector (p : TxaParams) (q k r : Nat) (x : List Byte) (fault : Option TxaFault) (g : TxaProg) : TxaProg :=
  if g.failed.isSome then g
  else
    let v := vecSums p g.active.block x
    let sum := checksum p g.active.check x v.unit
    let first := disturb v ((fault.map (·.first)).getD [])
    let second := disturb v ((fault.map (·.second)).getD [])
    if checkHolds p.mode first.cols sum then g.commit p q r first
    else if checkHolds p.mode second.cols sum then ({ g with retries := g.retries + 1 }.err 0x0301).commit p q r second
    else { g with failed := some (k, r) }.err 0x0301

/-- The fault of a vector among those of an item. -/
def faultAt (faults : List TxaFault) (k r : Nat) : Option TxaFault := faults.find? (fun f => f.pass == k && f.row == r)

/-- The passes of an item. While a pass streams, the next block is loaded into the shadow set, and the sets swap after its last vector
(R67). -/
def txaPasses (p : TxaParams) (q : Nat) (faults : List TxaFault) (read : Nat → Nat → List Byte) : List Nat → TxaProg → TxaProg
  | [], g => g
  | k :: ks, g =>
    let g := if ks.isEmpty then g
      else { g with shadow := loadWeights p (read (p.wBase + (k + 1) * p.wStride) (txaBlockBytes p.mode)) }
    let g := (List.range p.rowCount).foldl (fun g r =>
      txaVector p q k r (read (p.xBase + k * p.xStride + r * txaSlotBytes p.mode) (txaSlotBytes p.mode)) (faultAt faults k r) g) g
    if g.failed.isSome then g
    else txaPasses p q faults read ks (if ks.isEmpty then g else { g with active := g.shadow, shadow := g.active })

/-- What an item drains: its rows one after another from OUT_ADDR, a row's elements in column order without gaps (DESIGN CHOICE, log
entry 192), and the offsets of FXP72 elements out of range. -/
structure TxaOut where
  bytes : List Byte
  ovf : List Nat
deriving DecidableEq, Repr

/-- The drain of an item's rows (R62, R65). -/
def txaDrain (p : TxaParams) (rows : List (List Acc)) : TxaOut :=
  let elems := rows.flatten.map (drainElem p)
  { bytes := elems.flatMap (·.1)
    ovf := (((List.range elems.length).zip elems).filter (fun e => e.2.2)).map (fun e => e.1 * txaOutElem p) }

/-- Accumulator rows at zero. -/
def zeroRows (p : TxaParams) : List (List Acc) := List.replicate p.rowCount (List.replicate (txaCols p.mode) {})

/-- Accumulator rows from the elements of a preload, which lie as a drain writes them (log entry 192). -/
def preloadRows (p : TxaParams) (vs : List Nat) : List (List Acc) := chunksOf (txaCols p.mode) p.rowCount (vs.map (accPreload p))

/-! ## Duration (R66 to R68) -/

/-- Load time of a block, and the commit latency, in FCLK. -/
def txaLoad (mode : Nat) : Nat :=
  match mode with
  | 2 => 36 | 3 => 20 | 4 => 17 | _ => 68
def txaCommit (mode : Nat) : Nat :=
  match mode with
  | 0 => 11 | 2 => 13 | 4 => 14 | _ => 12

/-- The check latency, in FCLK (R68). -/
def txaCheck (mode : Nat) : Nat :=
  match mode with
  | 0 => 9 | 2 => 11 | 4 => 11 | _ => 10

/-- The FCLK in which vector r of pass k issues when nothing is issued again: after the first load and, for each pass before, the
longer of its rows and the next load (R67). -/
def issueCycle (p : TxaParams) (k r : Nat) : Nat := txaLoad p.mode + k * max p.rowCount (txaLoad p.mode) + r

/-- The FCLK an item occupies its tile (R67, R68, R71): to the acceptance of its last row, each vector issued again costing the check
latency and one more; after a second mismatch, the rows follow the check one a FCLK (log entry 193). -/
def txaFclk (p : TxaParams) (retries : Nat) (failed : Option (Nat × Nat)) : Nat :=
  let again := txaCheck p.mode + 1
  match failed with
  | none => issueCycle p p.passes p.rows + again * retries + txaCommit p.mode + 2
  | some (k, r) => issueCycle p k r + again * (retries + 1) + txaCheck p.mode + p.rowCount + 1

end Sys2Proof.Machine
end

