-- ==== Sys2Proof/Machine/ForgeMath.lean ====
section
/-! DEFINITION. The forge's arithmetic (R78 to R94) and the noise of encryption (R101 to R103). -/

namespace Sys2Proof.Machine

/-! ## Angles -/

/-- Σ ± 1/((2k+1) n^(2k+1)), alternating, in fixed point: the arctangent of 1/n. -/
def atanInv : Nat → Nat → Nat → Nat → Int
  | 0, _, _, _ => 0
  | f + 1, t, n, k => (t / (2 * k + 1) : Nat) - atanInv f (t / (n * n)) n (k + 1)

/-- π in fixed point. -/
def piFix : Int := 16 * atanInv 50 (2 ^ fixBits / 5) 5 0 - 4 * atanInv 20 (2 ^ fixBits / 239) 239 0

/-- Σ of the alternating series with first term t, x² and the index of the next factorial factor. -/
def trigSum : Nat → Int → Int → Int → Int
  | 0, _, _, _ => 0
  | f + 1, t, x2, k => t - trigSum f (t * x2 / 2 ^ fixBits / ((k + 1) * (k + 2))) x2 (k + 2)

/-- Cosine and sine of an angle from 0 to π/4. -/
def cosSmall (x : Int) : Int := trigSum 40 (2 ^ fixBits) (x * x / 2 ^ fixBits) 0
def sinSmall (x : Int) : Int := trigSum 40 x (x * x / 2 ^ fixBits) 1

/-- Cosine and sine of π·j/n, for even n. -/
def cosSinPi (n j : Nat) : Int × Int :=
  let j := j % (2 * n)
  let h := n / 2
  let k := j % h
  let (c, s) := if 2 * k ≤ h then (cosSmall (piFix * k / n), sinSmall (piFix * k / n))
    else (sinSmall (piFix * (h - k : Nat) / n), cosSmall (piFix * (h - k : Nat) / n))
  match j / h with
  | 0 => (c, s) | 1 => (-s, c) | 2 => (-c, -s) | _ => (s, -c)

/-- The twiddles TC and TS of R82 for the angle −π·j/n and radix r, correctly rounded (R83). -/
def twiddle (n j r : Nat) : Int × Int :=
  let (c, s) := cosSinPi n j
  (divHalfEvenInt (c * 2 ^ 72) (r * 2 ^ fixBits), divHalfEvenInt (-s * 2 ^ 72) (r * 2 ^ fixBits))

/-! ## The special FFT (R82) -/

/-- The radices of R82 by log2 N. -/
def idftRadices (log2n : Nat) : List Nat :=
  match log2n with
  | 12 => [16, 16, 8] | 13 => [16, 16, 16] | 14 => [16, 8, 8, 8] | 15 => [16, 16, 8, 8] | 16 => [16, 16, 16, 8]
  | _ => [16, 16, 16, 16]

/-! ### The residue check (R90) -/

/-- Congruence modulo P = 8,191. -/
def congruent (a b : Int) : Bool := (a - b) % 8191 == 0

/-- What faults add to the element of a step at an index. -/
def faultSum (faults : List ForgeFault) (step : ForgeStep) (index : Nat) : Int :=
  (faults.filter (fun f => f.step == step && f.index == index)).foldl (fun n f => n + f.delta) 0

/-- An element of a mode-0x4 stage: the value drained, with the fault's part, and whether its congruence holds; the array gives the
discarded remainder ρ, and 2^72 ≡ 128 (R82, R90). -/
def stageElem (acc fault : Int) : Int × Bool :=
  let x := divHalfEvenInt acc (2 ^ 72)
  let rho := acc - x * 2 ^ 72
  (x + fault, congruent acc ((x + fault) * 128 + rho))

/-- special_idft of R82 over the radices that remain, from stage s on; the first stage folds in the twist. `base` is the number of the
outputs of its stage that come before this transform's. With the values: whether every congruence holds. -/
def specialIdft (bigN : Nat) (faults : List ForgeFault) : List Nat → Nat → Nat → List (Int × Int) → List (Int × Int) × Bool
  | [], _, _, x => (x, true)
  | r :: rs, s, base, x =>
    let n := x.length
    let n2 := n / r
    let sub := (List.range r).map (fun a =>
      specialIdft bigN faults rs (s + 1) (base + a * n2) ((List.range n2).map (fun u => x.getD (a + r * u) (0, 0))))
    let out := (List.range n).map (fun k =>
      let acc := (List.range r).foldl (fun (acc : Int × Int) a =>
        let v := (sub.getD a ([], true)).1.getD (k % n2) (0, 0)
        let (tc, ts) := twiddle bigN (2 * a * k * (bigN / n) + (if s == 1 then k else 0)) r
        (acc.1 + tc * v.1 - ts * v.2, acc.2 + ts * v.1 + tc * v.2)) (0, 0)
      (stageElem acc.1 (faultSum faults (.stage s) (2 * (base + k))), stageElem acc.2 (faultSum faults (.stage s) (2 * (base + k) + 1))))
    (out.map (fun e => (e.1.1, e.2.1)), sub.all (·.2) && out.all (fun e => e.1.2 && e.2.2))

/-! ## Packing (R78 to R81) -/

/-- A source element's exact value (R78). -/
def sourceValue (t v : Nat) : Flt :=
  let ofInt (n : Int) : Flt := .fin (decide (n < 0)) n.natAbs 0
  match t with
  | 1 => ofInt v
  | 2 => ofInt (signed 8 v)
  | 7 => fltOf fmt32 v
  | 8 => ofInt v
  | 9 => ofInt (signed 16 v)
  | 11 => ofInt (signed 32 v)
  | t => fltOperand t v

/-- A slot component's data value, none when it is out of range (R80). -/
def dataValue (inputExp : Int) (deltaExp : Nat) (v : Flt) : Option Int :=
  match v with
  | .fin neg m e =>
    let (n, d) := scaleRat m 1 (e + inputExp + deltaExp)
    if 2 ^ 55 * d ≤ n then none
    else
      let x : Int := divHalfEven (n * 2 ^ 14) d
      some (if neg then -x else x)
  | _ => none

/-- The slot values of a plaintext as pairs of components (R79, R93, R94): elem reads source element j, draw is the noise's. -/
def slotValues (p : ForgeParams) (m : Nat) (elem : Nat → Nat) (draw : DrawId) : List (Flt × Flt) :=
  let zero : Flt := .fin false 0 0
  (List.range m).map (fun i =>
    match p.noise with
    | 0 =>
      let k := (i + p.rot) % p.period
      if k < p.count then
        (if p.complex == 0 then (sourceValue p.srcType (elem k), zero)
         else (sourceValue p.srcType (elem (2 * k)), sourceValue p.srcType (elem (2 * k + 1))))
      else (zero, zero)
    | 1 =>
      if i < p.noiseCount then
        (fltOf fmt32 (fltTo fmt32 (fltMul (fltOf fmt32 p.temp) (fltOf fmt32 (drawGumbel draw i)))), zero)
      else (zero, zero)
    | _ => if i < p.noiseCount && drawBernoulli draw p.keepP16 i then (fltOf fmt32 p.keepValue, zero) else (zero, zero))

/-- Some component of the slot values is out of range (R80). -/
def slotsOutOfRange (p : ForgeParams) (vs : List (Flt × Flt)) : Bool :=
  vs.any (fun v => (dataValue p.inputExp p.deltaExp v.1).isNone || (dataValue p.inputExp p.deltaExp v.2).isNone)

/-- The data values in the order of R81, with the components out of range at zero. -/
def permutedData (p : ForgeParams) (n : Nat) (vs : List (Flt × Flt)) : List (Int × Int) :=
  let m := n / 2
  (List.range m).map (fun t =>
    match (List.range m).find? (fun i => powMod 5 i (2 * n) == 4 * t + 1) with
    | none => (0, 0)
    | some i =>
      let v := vs.getD i (.nan, .nan)
      ((dataValue p.inputExp p.deltaExp v.1).getD 0, (dataValue p.inputExp p.deltaExp v.2).getD 0))

/-! ## Rounding (R85, R86) -/

/-- A coefficient from its data value. -/
def roundCoef (rmode : Nat) (draw : DrawId) (k : Nat) (d : Int) : Int :=
  if rmode == 0 then divHalfEvenInt d (2 ^ 14)
  else
    let b := if rmode == 1 then 4 else 3
    let fl := d / 2 ^ 14
    let fb := ((d % 2 ^ 14).toNat + 2 ^ (13 - b)) / 2 ^ (14 - b)
    if trailElem draw 4 k % 2 ^ b < fb then fl + 1 else fl

/-- A rounded coefficient with the fault's part, and whether its congruence holds: the fraction left is D − m·2^14, and 2^14 ≡ 2 (R90). -/
def roundElem (rmode : Nat) (draw : DrawId) (faults : List ForgeFault) (k : Nat) (d : Int) : Int × Bool :=
  let m := roundCoef rmode draw k d
  let m' := m + faultSum faults .round k
  (m', congruent d (m' * 2 + (d - m * 2 ^ 14)))

/-- A plaintext's special FFT and rounding from its data values in the order of R81 (R82 to R87): the last stage's data, the
coefficients, and whether the residue check passes (R90). Rounding belongs to this unit of work: R91 names the special FFT and the limb
from its split on, and rounding, which serves every limb, lies between (DESIGN CHOICE, log entry 245). -/
structure FftUnit where
  data : List (Int × Int)
  coefs : List Int
  ok : Bool
deriving DecidableEq, Repr

/-- The unit of work of a plaintext's special FFT with its rounding (DESIGN CHOICE, log entry 245). -/
def fftUnit (rmode log2n : Nat) (rnd : DrawId) (faults : List ForgeFault) (y : List (Int × Int)) : FftUnit :=
  let (w, ok) := specialIdft (2 ^ log2n) faults (idftRadices log2n) 1 0 y
  let ds := w.map (·.1) ++ w.map (·.2)
  let ms := ((List.range ds.length).zip ds).map (fun e => roundElem rmode rnd faults e.1 e.2)
  { data := w, coefs := ms.map (·.1), ok := ok && ms.all (·.2) }

/-- The bytes a plaintext's stage data takes in the work buffer: two FXP72 slots a value (R65, R77, log entry 195). -/
def fftBytes (w : List (Int × Int)) : List Byte := w.flatMap (fun v => leBytes 16 (toBits 128 v.1) ++ leBytes 16 (toBits 128 v.2))

/-! ## Residues and the NTT (R88 to R90) -/

/-- The residues of coefficients modulo q (R88). -/
def residues (q : Nat) (coefs : List Int) : List Nat := coefs.map (fun m => (m % (q : Int)).toNat)

/-- The quotient the splitter returns (R88). -/
def splitQuotient (q : Nat) (m : Int) : Int := (m - m % (q : Int)) / q

/-- A residue with the fault's part, and whether its congruence holds; `qMod` is Q_MOD_8191 of the prime's record (R46, R88, R90). -/
def splitElem (r : PrimeRec) (faults : List ForgeFault) (k : Nat) (m : Int) : Nat × Bool :=
  let res := m % (r.q : Int) + faultSum faults .split k
  ((res % (r.q : Int)).toNat, congruent m (res + splitQuotient r.q m * r.qMod))

/-- A product of the pointwise unit with an addend modulo q, with its quotient as the tag (R90, R104). -/
def mulAddElem (r : PrimeRec) (fault : Int) (a c addend : Nat) : Nat × Bool :=
  let v := a * c + addend
  let p := (v % r.q : Nat) + fault
  ((p % (r.q : Int)).toNat, congruent (v : Nat) (p + (v / r.q : Nat) * r.qMod))

/-- A product of the pointwise unit modulo q (R89, R90). -/
def pointElem (r : PrimeRec) (fault : Int) (a c : Nat) : Nat × Bool := mulAddElem r fault a c 0

/-- An element of a mode-0x3 item after a pass: (A + S) mod q, with its quotient as the tag (R64, R90). -/
def arrayElem (r : PrimeRec) (fault : Int) (a s : Nat) : Nat × Bool :=
  let h := (a + s) / r.q
  let a' := ((a + s) % r.q : Nat) + fault
  ((a' % (r.q : Int)).toNat, congruent ((a + s : Nat)) (a' + h * r.qMod))

/-- The passes of 16 inputs of an output element; a fault falls on the last (R64, R89). -/
def arrayPasses (r : PrimeRec) (fault : Int) : List (List (Nat × Nat)) → Nat × Bool → Nat × Bool
  | [], a => a
  | c :: cs, a =>
    let e := arrayElem r (if cs.isEmpty then fault else 0) a.1 (c.foldl (fun n x => n + x.1 * x.2) 0)
    arrayPasses r fault cs (e.1, a.2 && e.2)

/-- The radices of R89 by log2 N. -/
def nttRadices (log2n : Nat) : List Nat :=
  match log2n with
  | 12 => [64, 64] | 13 => [32, 16, 16] | 14 => [64, 16, 16] | 15 => [64, 32, 16] | 16 => [64, 64, 16] | _ => [64, 64, 32]

/-- The cyclic transform of length n = |x| with root w, in stages of the radices that remain (R89): a dense r × r product for each
stage, with the pointwise unit's twiddles between stages. -/
def cyclicStages (r : PrimeRec) (faults : List ForgeFault) : List Nat → Nat → Nat → Nat → List Nat → List Nat × Bool
  | [], _, _, _, x => (x, true)
  | d :: ds, s, base, w, x =>
    let n := x.length
    let n2 := n / d
    let sub := (List.range d).map (fun a =>
      let y := cyclicStages r faults ds (s + 1) (base + a * n2) (powMod w d r.q) ((List.range n2).map (fun u => x.getD (a + d * u) 0))
      let ps := ((List.range n2).zip y.1).map (fun e =>
        pointElem r (faultSum faults (.point s) (base + a * n2 + e.1)) e.2 (powMod w (a * e.1) r.q))
      (ps.map (·.1), y.2 && ps.all (·.2)))
    let out := (List.range n).map (fun k =>
      let row := (List.range d).map (fun a => ((sub.getD a ([], true)).1.getD (k % n2) 0, powMod w (n2 * (a * (k / n2))) r.q))
      arrayPasses r (faultSum faults (.array s) (base + k)) (chunksOf 16 (ceilDiv d 16) row) (0, true))
    (out.map (·.1), sub.all (·.2) && out.all (·.2))

/-- The tile of a limb as the forge's steps make it, and whether the residue check passes (R88 to R90): output t of the cyclic transform
goes to the position j with e(j) = 2t + 1. -/
def checkedTile (radices : List Nat) (n : Nat) (r : PrimeRec) (faults : List ForgeFault) (coefs : List Int) : List Nat × Bool :=
  let rs := ((List.range coefs.length).zip coefs).map (fun e => splitElem r faults e.1 e.2)
  let ps := ((List.range rs.length).zip rs).map (fun e => pointElem r (faultSum faults (.point 0) e.1) e.2.1 (powMod r.psi e.1 r.q))
  let (out, ok) := cyclicStages r faults radices 1 0 (powMod r.psi 2 r.q) (ps.map (·.1))
  ((List.range n).map (fun j => out.getD ((nttExponent n j - 1) / 2) 0), rs.all (·.2) && ps.all (·.2) && ok)

/-- The ring tile of a limb (R89). -/
def limbTile (n : Nat) (r : PrimeRec) (coefs : List Int) : List Nat := nttTile n r.q r.psi (residues r.q coefs)

/-! ## Encryption noise (R101, R102) -/

/-- The ciphertext seed of a counter value (R101). -/
def seedCt (root : List Byte) (n : Nat) : List Byte := shake128 (root ++ [0x10] ++ leBytes 8 n) 32

/-- u from the accepted bytes of its stream (R102). -/
def ternary (bs : List Nat) : List Int := bs.map (fun v => (v % 3 : Nat) - 1)

/-- e0 or e1 from the bytes of its stream (R102). -/
def binomialPoly (n : Nat) (bs : List Nat) : List Int :=
  let v := leNat (bs.map (BitVec.ofNat 8))
  let pop (x : Nat) : Int := ((List.range 21).countP (fun k => x.testBit k) : Nat)
  (List.range n).map (fun k => pop (v / 2 ^ (42 * k) % 2 ^ 21) - pop (v / 2 ^ (42 * k + 21) % 2 ^ 21))

end Sys2Proof.Machine
end

