-- ==== Sys2Proof/Machine/MediaMath.lean ====
section
/-! DEFINITION. What the media decoders compute of a picture (R163, R164, R168 to R176): its limits and buffers, the layout of its
frame buffer, its record, and the reconstruction of JPEG blocks. -/

namespace Sys2Proof

/-! ## Headers (R163, R164) -/

def MediaHeader.format : MediaHeader → Nat
  | .jpeg _ _ _ _ _ _ => 1
  | .png _ _ _ _ _ _ _ _ => 2
  | .raw _ => 3
  | .hevc _ _ _ _ _ _ _ _ => 4
  | .av1 _ _ _ _ _ _ _ _ _ _ => 5

def MediaHeader.width : MediaHeader → Nat
  | .jpeg _ _ w _ _ _ => w
  | .png w _ _ _ _ _ _ _ => w
  | .raw b => Machine.fld b 4 2
  | .hevc _ _ _ _ w _ _ _ => w
  | .av1 _ _ _ w _ _ _ _ _ _ => w

def MediaHeader.height : MediaHeader → Nat
  | .jpeg _ _ _ h _ _ => h
  | .png _ h _ _ _ _ _ _ => h
  | .raw b => Machine.fld b 6 2
  | .hevc _ _ _ _ _ h _ _ => h
  | .av1 _ _ _ _ h _ _ _ _ _ => h

/-- The components of a frame: of a PNG three for a palette, and alpha where tRNS gives it (R163, R173). -/
def MediaHeader.components : MediaHeader → Nat
  | .jpeg _ _ _ _ f _ => f.length
  | .png _ _ _ c _ _ _ t => (match c with
      | 0 => 1 | 2 => 3 | 3 => 3 | 4 => 2 | _ => 4) + (if t then 1 else 0)
  | .raw b => Machine.fld b 8 1
  | .hevc _ _ _ _ _ _ _ _ => 3
  | .av1 _ _ _ _ _ m _ _ _ _ => if m then 1 else 3

def MediaHeader.bitDepth : MediaHeader → Nat
  | .jpeg _ p _ _ _ _ => p
  | .png _ _ d c _ _ _ _ => if c == 3 then 8 else d
  | .raw b => Machine.fld b 9 1
  | .hevc _ _ _ d _ _ _ _ => d
  | .av1 _ _ d _ _ _ _ _ _ _ => d

/-- SAMPLING of R172: the factors of a JPEG, 4:2:0 for video of three components, else none. -/
def MediaHeader.sampling : MediaHeader → Nat
  | .jpeg _ _ _ _ f _ => (f.zipIdx.map (fun e => ((e.1.1 - 1) * 4 + (e.1.2 - 1)) * 16 ^ e.2)).foldl (· + ·) 0
  | .hevc _ _ _ _ _ _ _ _ => 5
  | .av1 _ _ _ _ _ m _ _ _ _ => if m then 0 else 5
  | _ => 0

/-- A progressive JPEG: SOF2. -/
def MediaHeader.progressive : MediaHeader → Bool
  | .jpeg s _ _ _ _ _ => s == 2
  | _ => false

def MediaHeader.dpb : MediaHeader → Nat
  | .hevc _ _ _ _ _ _ d _ => d
  | _ => 0

def MediaHeader.level : MediaHeader → Nat
  | .hevc _ l _ _ _ _ _ _ => l
  | _ => 0

/-- Check 1 of R168: the header lies within the subset of R163; the numbers of profiles and levels are the standards' (PRESUMED, log
entry 198), and a tRNS chunk with a PNG type that has alpha of its own is refused (DESIGN CHOICE, log entry 251). -/
def MediaHeader.supported : MediaHeader → Bool
  | .jpeg s p _ _ f dnl => s ≤ 2 && (p == 8 || (p == 12 && s != 0)) && 1 ≤ f.length && f.length ≤ 4
      && f.all (fun e => 1 ≤ e.1 && e.1 ≤ 4 && 1 ≤ e.2 && e.2 ≤ 4) && !dnl
  | .png _ _ d c comp filt inter t =>
      (match c with
        | 0 => [1, 2, 4, 8, 16].contains d
        | 2 => d == 8 || d == 16
        | 3 => [1, 2, 4, 8].contains d
        | 4 => (d == 8 || d == 16) && !t
        | 6 => (d == 8 || d == 16) && !t
        | _ => false) && comp == 0 && filt == 0 && inter ≤ 1
  | .raw b => b.take 4 == [0x52, 0x50, 0x49, 0x58] && 1 ≤ Machine.fld b 4 2 && Machine.fld b 4 2 ≤ 16384 && 1 ≤ Machine.fld b 6 2 && Machine.fld b 6 2 ≤ 16384
      && 1 ≤ Machine.fld b 8 1 && Machine.fld b 8 1 ≤ 4 && 1 ≤ Machine.fld b 9 1 && Machine.fld b 9 1 ≤ 16 && Machine.fld b 10 1 ≤ 1 && Machine.zeros b 11 5 && b.length == 16
  | .hevc p l c d _ _ _ x => 1 ≤ p && p ≤ 3 && l ≤ 186 && c == 1 && (d == 8 || (p == 2 && d ≤ 10 && 8 ≤ d)) && !x
  | .av1 p l d _ _ m sx sy b t => p == 0 && l ≤ 19 && (d == 8 || d == 10) && (m || (sx && sy)) && !b && !t

/-! ## Areas -/

/-- Two areas share a sample. -/
def Rect.meets (a b : Rect) : Bool := a.x < b.x + b.w && b.x < a.x + a.w && a.y < b.y + b.h && b.y < a.y + a.h && 0 < a.w * a.h * b.w * b.h

/-- The first area lies within the second. -/
def Rect.within (a b : Rect) : Bool := b.x ≤ a.x && a.x + a.w ≤ b.x + b.w && b.y ≤ a.y && a.y + a.h ≤ b.y + b.h

/-- The decoding units of a picture. -/
def PictureHead.unitTotal (h : PictureHead) : Nat := h.units.foldl (· + ·) 0

end Sys2Proof

namespace Sys2Proof.Machine

/-! ## Sampling and layout (R171, R175) -/

/-- The sampling factors of component c (R172). -/
def sampH (sampling c : Nat) : Nat := bitsOf sampling (4 * c + 3) (4 * c + 2) + 1
def sampV (sampling c : Nat) : Nat := bitsOf sampling (4 * c + 1) (4 * c) + 1
def sampHMax (sampling n : Nat) : Nat := (List.range n).foldl (fun m c => max m (sampH sampling c)) 1
def sampVMax (sampling n : Nat) : Nat := (List.range n).foldl (fun m c => max m (sampV sampling c)) 1

def isVideo (format : Nat) : Bool := format == 4 || format == 5

/-- What fixes a frame buffer: format, coded size, components, bit depth, sampling, and the statistics asked for. -/
structure FrameShape where
  format : Nat
  width : Nat
  height : Nat
  components : Nat
  bitDepth : Nat
  sampling : Nat
  stats : Nat
deriving DecidableEq, Repr

/-- Coded size of component c (R171). -/
def FrameShape.compW (f : FrameShape) (c : Nat) : Nat := ceilDiv (f.width * sampH f.sampling c) (sampHMax f.sampling f.components)
def FrameShape.compH (f : FrameShape) (c : Nat) : Nat := ceilDiv (f.height * sampV f.sampling c) (sampVMax f.sampling f.components)

/-- The element size of its planes (R173). -/
def FrameShape.elem (f : FrameShape) : Nat := if f.bitDepth ≤ 8 then 1 else 2

def FrameShape.pitch (f : FrameShape) (c : Nat) : Nat := ceilDiv (f.compW c * f.elem) 64 * 64

/-- The statistics grid (R175): columns and rows; none for the formats it is not defined for. -/
def FrameShape.grid (f : FrameShape) : Option (Nat × Nat) :=
  if isVideo f.format then some (ceilDiv f.width 16, ceilDiv f.height 16)
  else if f.format == 1 then
    let bw := if f.components == 1 then 8 else 8 * sampHMax f.sampling f.components
    let bh := if f.components == 1 then 8 else 8 * sampVMax f.sampling f.components
    some (ceilDiv f.width bw, ceilDiv f.height bh)
  else none

/-- The next multiple of 4,096. -/
def alignPage (n : Nat) : Nat := ceilDiv n 4096 * 4096

/-- Where the regions of a frame buffer start, 0 for an absent one, and its length F. -/
structure FrameLayout where
  planes : List Nat
  mv : Nat
  bits : Nat
  side : Nat
  total : Nat
deriving DecidableEq, Repr

/-- The bytes of the reference side data (R171). -/
def FrameShape.sideBytes (f : FrameShape) : Nat := 16 * ceilDiv f.width 8 * ceilDiv f.height 8 + 32768

/-- The layout of a frame buffer (R171). -/
def FrameShape.layout (f : FrameShape) : FrameLayout :=
  let (planes, last) := (List.range f.components).foldl (fun (p : List Nat × Nat) c =>
    let o := alignPage p.2
    (p.1 ++ [o], o + f.pitch c * f.compH c)) ([], 64)
  let blocks := match f.grid with
    | some (w, h) => w * h
    | none => 0
  let (mv, last) := if isVideo f.format && f.stats.testBit 0 then (alignPage last, alignPage last + 8 * blocks) else (0, last)
  let (bits, last) := if (isVideo f.format || f.format == 1) && f.stats.testBit 1 then (alignPage last, alignPage last + 4 * blocks)
    else (0, last)
  let (side, last) := if isVideo f.format then (alignPage last, alignPage last + f.sideBytes) else (0, last)
  { planes := planes, mv := mv, bits := bits, side := side, total := last }

/-! ## Header checks (R168, R169) -/

/-- The shape of the largest picture a header declares. -/
def shapeOf (i : DecodeItem) (h : MediaHeader) : FrameShape :=
  { format := i.format, width := h.width, height := h.height, components := h.components, bitDepth := h.bitDepth,
    sampling := h.sampling, stats := i.stats }

/-- The luma samples a level of HEVC allows a picture, by general_level_idc (log entry 198). -/
def levelSamples (level : Nat) : Nat :=
  if level ≤ 30 then 36864 else if level ≤ 60 then 122880 else if level ≤ 63 then 245760 else if level ≤ 90 then 552960
  else if level ≤ 93 then 983040 else if level ≤ 123 then 2228224 else if level ≤ 156 then 8912896 else 35651584

/-- The size limits of R163: of HEVC those of the level, whose dimensions are bounded by eight times its samples (log entry 198), and at
most 16 reference pictures. -/
def sizeWithin (format : Nat) (h : MediaHeader) : Bool :=
  1 ≤ h.width && 1 ≤ h.height &&
  (match format with
  | 4 => h.width * h.height ≤ levelSamples h.level && h.width * h.width ≤ 8 * levelSamples h.level
      && h.height * h.height ≤ 8 * levelSamples h.level && h.width ≤ 16888 && h.height ≤ 16888 && h.dpb ≤ 16
  | 5 => h.width * h.height ≤ 35651584 && h.width ≤ 16384 && h.height ≤ 8704
  | _ => h.width ≤ 16384 && h.height ≤ 16384)

/-- The coefficient buffer of a progressive JPEG: 128 bytes a block of every component (R169). -/
def coefBytes (f : FrameShape) : Nat :=
  (List.range f.components).foldl (fun n c => n + 128 * ceilDiv (f.compW c) 8 * ceilDiv (f.compH c) 8) 0

/-- The buffers a sample needs (R169): sizes and numbers. -/
def buffersNeeded (i : DecodeItem) (h : MediaHeader) : List (Nat × Nat) :=
  let f := (shapeOf i h).layout.total
  match i.format with
  | 4 => [(f, h.dpb + 2)]
  | 5 => [(f, 9)]
  | 1 => if h.progressive then [(f, 1), (coefBytes (shapeOf i h), 1)] else [(f, 1)]
  | _ => [(f, 1)]

/-- Check 4: for each size the pool smallest fit chooses exists and the job's reservation in it is large enough. -/
def buffersFit (s : State) (slot : Nat) (l : List (Nat × Nat)) : Bool :=
  l.all (fun e =>
    match poolFor s e.1 with
    | none => false
    | some p => (l.filter (fun x => x.1 == e.1)).foldl (fun n x => n + x.2) 0 ≤ reservation (poolOf s p) slot)

/-- The header checks of R168: the code of the first that fails, 0 when all pass. -/
def headerCode (s : State) (i : DecodeItem) (h : MediaHeader) : Nat :=
  if h.format != i.format || !h.supported then 0x0802
  else if !sizeWithin i.format h then 0x0803
  else if i.len * objGet s 0x4000 4 < h.width * h.height then 0x0804
  else if !buffersFit s i.slot (buffersNeeded i h) then 0x0805
  else 0

/-! ## JPEG reconstruction (R174) -/

/-- T[x][u]: 2^13 · c_u / 2 · cos((2x + 1)uπ / 16), rounded. -/
def idctT (x u : Nat) : Int :=
  let c := (cosSinPi 16 (if u == 0 then 4 else (2 * x + 1) * u)).1
  (c * 2 ^ 13 + 2 ^ fixBits) / 2 ^ (fixBits + 1)

/-- A block's 64 samples, row by row, from its dequantised coefficients F[v][u], row by row, at precision P. -/
def idctBlock (prec : Nat) (f : List Int) : List Nat :=
  let g (y u : Nat) : Int := ((List.range 8).foldl (fun (a : Int) v => a + idctT y v * f.getD (8 * v + u) 0) 0 + 2 ^ 10) / 2 ^ 11
  (List.range 64).map (fun k =>
    let a := (List.range 8).foldl (fun (a : Int) u => a + idctT (k % 8) u * g (k / 8) u) 0
    (clampInt 0 (2 ^ prec - 1) ((a + 2 ^ 14) / 2 ^ 15 + 2 ^ (prec - 1))).toNat)

/-- A component's samples from its blocks, bw of them in a row, reconstructed in full and cropped (R174). -/
def blockPlane (prec bw w h : Nat) (blocks : List (List Int)) : List Nat :=
  let px := blocks.map (idctBlock prec)
  (List.range (w * h)).map (fun k => (px.getD (k / w / 8 * bw + k % w / 8) []).getD (k / w % 8 * 8 + k % w % 8) 0)

/-! ## PNG (R163, R173) -/

/-- An entry of a palette at an index, a component of it; beyond the palette's end unstated (log entry 3). -/
def paletteValue (palette : List (List Nat)) (free : Nat) (n k c : Nat) : Nat :=
  match palette[k]? with
  | some e => e.getD c 0
  | none => leNat (freeBytes (free + 3 * n + c) 1)

/-- The planes of a PNG picture from its channels: palette indices expanded, and the alpha of tRNS. -/
def pngPlanes (h : MediaHeader) (channels palette : List (List Nat)) (trns : List Nat) (free : Nat) : List (List Nat) :=
  match h with
  | .png w ht d c _ _ _ t =>
    let first := channels.headD []
    if c == 3 then
      (List.range 3).map (fun x => first.zipIdx.map (fun e => paletteValue palette free e.2 e.1 x))
        ++ (if t then [first.map (fun k => trns.getD k 255)] else [])
    else
      channels ++ (if t then
        [(List.range (w * ht)).map (fun k => if channels.map (fun l => l.getD k 0) == trns then 0 else 2 ^ d - 1)] else [])
  | _ => channels

/-! ## Areas and statistics blocks (R175, R176, R186, R188) -/

/-- A sample of component 0 lies in one of the areas. -/
def inArea (areas : List Rect) (x y : Nat) : Bool := areas.any (fun r => r.x ≤ x && x < r.x + r.w && r.y ≤ y && y < r.y + r.h)

/-- The size of a statistics block in component-0 samples. -/
def FrameShape.blockSize (f : FrameShape) : Nat × Nat :=
  if isVideo f.format then (16, 16)
  else if f.components == 1 then (8, 8)
  else (8 * sampHMax f.sampling f.components, 8 * sampVMax f.sampling f.components)

/-- Columns of the statistics grid, and its blocks. -/
def FrameShape.gridW (f : FrameShape) : Nat := (f.grid.map (·.1)).getD 0
def FrameShape.gridBlocks (f : FrameShape) : Nat := (f.grid.map (fun g => g.1 * g.2)).getD 0

/-- Statistics block k, within the picture. -/
def FrameShape.blockRect (f : FrameShape) (k : Nat) : Rect :=
  let (bw, bh) := f.blockSize
  let x := k % f.gridW * bw
  let y := k / f.gridW * bh
  { x := x, y := y, w := min bw (f.width - x), h := min bh (f.height - y) }

/-- The statistics blocks that contain a sample of the areas (R188). -/
def areaBlocks (f : FrameShape) (areas : List Rect) : List Nat :=
  (List.range f.gridBlocks).filter (fun k => areas.any (fun a => a.meets (f.blockRect k)))

/-- The vectors of a statistics block: those of the prediction block that covers its sample, HEVC's doubled; the marker of an unused list
for concealed blocks (R175, R186). -/
def blockVectors (f : FrameShape) (blocks : List PredBlock) (concealed : List Nat) (k : Nat) : List Int :=
  let x := min (k % f.gridW * 16 + 8) (f.width - 1)
  let y := min (k / f.gridW * 16 + 8) (f.height - 1)
  let scale : Int := if f.format == 4 then 2 else 1
  let pair (v : Option (Int × Int)) : List Int :=
    match v with
    | some (a, b) => [clampInt (-32767) 32767 (scale * a), clampInt (-32767) 32767 (scale * b)]
    | none => [-32768, -32768]
  match (if concealed.contains k then none else blocks.find? (fun b => inArea [b.area] x y)) with
  | some b => pair b.mv0 ++ pair b.mv1
  | none => pair none ++ pair none

/-- The motion-vector tensor of a picture (R175). -/
def mvTensor (f : FrameShape) (blocks : List PredBlock) (concealed : List Nat) : List Int :=
  (List.range f.gridBlocks).flatMap (blockVectors f blocks concealed)

/-- The bits that a coding unit adds to block k (R176): over the blocks it covers its bits evenly, the first also the remainder; to the
block of its top-left sample when it covers none whole. The bits outside any unit go to the block of the next unit, its first. -/
def unitBits (f : FrameShape) (u : CodedUnit) (k : Nat) : Nat :=
  let covered := (List.range f.gridBlocks).filter (fun k => (f.blockRect k).within u.area)
  let first := covered.headD (u.area.y / 16 * f.gridW + u.area.x / 16)
  (if k == first then u.before else 0)
    + (if covered.isEmpty then (if k == first then u.bits else 0)
       else if covered.contains k then u.bits / covered.length + (if k == first then u.bits % covered.length else 0)
       else 0)

/-- The coded-bits tensor of a video picture (R176); concealed blocks carry 0. -/
def bitsTensor (f : FrameShape) (coded : List CodedUnit) (concealed : List Nat) : List Nat :=
  (List.range f.gridBlocks).map (fun k =>
    if concealed.contains k then 0 else (coded.map (fun u => unitBits f u k)).foldl (· + ·) 0)

/-- The blocks of component c in a statistics block of a JPEG, across and down. -/
def FrameShape.blocksAcross (f : FrameShape) (c : Nat) : Nat := if f.components == 1 then 1 else sampH f.sampling c
def FrameShape.blocksDown (f : FrameShape) (c : Nat) : Nat := if f.components == 1 then 1 else sampV f.sampling c

/-- The blocks of component c in a row: those of whole MCUs, the padding of the last one too. -/
def FrameShape.blockCols (f : FrameShape) (c : Nat) : Nat := f.gridW * f.blocksAcross c

/-- The coded-bits tensor of a JPEG: of each statistics block the bits of its blocks of every component (R175, R176). -/
def jpegBits (f : FrameShape) (blocks : List (List JpegBlock)) (concealed : List Nat) : List Nat :=
  (List.range f.gridBlocks).map (fun k =>
    if concealed.contains k then 0
    else
      ((List.range f.components).flatMap (fun c =>
        let bw := f.blockCols c
        (blocks.getD c []).zipIdx.filterMap (fun e =>
          if e.2 % bw / f.blocksAcross c == k % f.gridW && e.2 / bw / f.blocksDown c == k / f.gridW then some e.1.bits else none))).foldl (· + ·) 0)

/-! ## Concealment (R186) -/

/-- A plane with its concealed samples filled: from the source, or mid-grey where there is none. `source` reads the co-located sample. -/
def concealPlane (f : FrameShape) (areas : List Rect) (source : Option (Nat → Nat → Nat → Nat)) (c : Nat) (vs : List Nat) : List Nat :=
  if areas.isEmpty then vs
  else
    (List.range (f.compW c * f.compH c)).map (fun k =>
      let x := k % f.compW c
      let y := k / f.compW c
      if inArea areas (x * sampHMax f.sampling f.components / sampH f.sampling c) (y * sampVMax f.sampling f.components / sampV f.sampling c)
      then (source.map (fun g => g c x y)).getD (2 ^ (f.bitDepth - 1))
      else vs.getD k 0)

/-! ## Rows of an area -/

/-- The rows of component c's part in an area: their offsets in the frame buffer and their lengths. -/
def FrameShape.rows (f : FrameShape) (r : Rect) (c : Nat) : List (Nat × Nat) :=
  let h := sampHMax f.sampling f.components
  let v := sampVMax f.sampling f.components
  let x0 := r.x * sampH f.sampling c / h
  let x1 := min (f.compW c) (ceilDiv ((r.x + r.w) * sampH f.sampling c) h)
  let y0 := r.y * sampV f.sampling c / v
  let y1 := min (f.compH c) (ceilDiv ((r.y + r.h) * sampV f.sampling c) v)
  if x1 ≤ x0 then []
  else (List.range (y1 - y0)).map (fun k => (f.layout.planes.getD c 0 + (y0 + k) * f.pitch c + x0 * f.elem, (x1 - x0) * f.elem))

/-- The rows of every component's part in an area. -/
def FrameShape.areaRows (f : FrameShape) (r : Rect) : List (Nat × Nat) := (List.range f.components).flatMap (f.rows r)

/-- The first row of an area of a frame buffer that is read poisoned: its address and length. -/
def poisonedRow (s : State) (f : FrameShape) (buf : Nat) (r : Rect) : Option (Nat × Nat) :=
  ((f.areaRows r).find? (fun e => memPoisoned s (buf + e.1) e.2)).map (fun e => (buf + e.1, e.2))

/-- A row of a frame buffer is marked. -/
def poisonRow (s : State) (a n : Nat) : State := memWritePoisoned s a (memBytes s a n)

/-- The rows of an area of a frame buffer are marked (R187). -/
def poisonRect (s : State) (f : FrameShape) (buf : Nat) (r : Rect) : State :=
  (f.areaRows r).foldl (fun s e => poisonRow s (buf + e.1) e.2) s

/-- The rows of an area that are poisoned in one frame buffer are marked in another they have been copied to (R413). -/
def copyPoison (s : State) (f : FrameShape) (source buf : Nat) (r : Rect) : State :=
  (f.areaRows r).foldl (fun s e => if memPoisoned s (source + e.1) e.2 then poisonRow s (buf + e.1) e.2 else s) s

/-! ## Raw pictures (R164) -/

/-- Sample x, y of component c of a raw picture's inflated bytes. -/
def rawSample (f : FrameShape) (b : List Byte) (c k : Nat) : Nat :=
  let n := if fld b 10 1 == 0 then c * (f.width * f.height) + k else k * f.components + c
  fld b (16 + n * f.elem) f.elem

/-- The planes of a raw picture. -/
def rawPlanes (f : FrameShape) (b : List Byte) : List (List Nat) :=
  (List.range f.components).map (fun c => (List.range (f.width * f.height)).map (rawSample f b c))

/-- A raw picture is sound: its inflated length is exact and every sample is below 2^BIT_DEPTH. -/
def rawSound (f : FrameShape) (b : List Byte) : Bool :=
  b.length == 16 + f.width * f.height * f.components * f.elem
  && (rawPlanes f b).all (fun p => p.all (fun v => v < 2 ^ f.bitDepth))

/-! ## Frame records (R172) -/

/-- FLAGS of a frame record. -/
def frKey : Nat := 1
def frConcealed : Nat := 2
def frResync : Nat := 4
def frSubst : Nat := 8
def frGrey : Nat := 16
def frInherited : Nat := 32
def frOver : Nat := 64
def frPoisoned : Nat := 128

/-- The frame record of a decode item's picture; its FRAME_NUMBER is written at its output. -/
def frameRecord (i : DecodeItem) (f : FrameShape) (width height cropLeft cropTop : Nat) (order : Int) (concealed total flags : Nat) :
    List Byte :=
  let l := f.layout
  let stream := if isVideo i.format then i.stream.getD 0xFFFF else 0xFFFF
  leBytes 64 (i.sample * 2 ^ 464 + stream * 2 ^ 416 + width * 2 ^ 400 + height * 2 ^ 384 + concealed % 2 ^ 32 * 2 ^ 352
    + total % 2 ^ 32 * 2 ^ 320 + l.mv % 2 ^ 32 * 2 ^ 288 + l.bits % 2 ^ 32 * 2 ^ 256 + toBits 32 order * 2 ^ 224
    + f.sampling % 2 ^ 16 * 2 ^ 208 + i.format * 2 ^ 200 + (if f.elem == 1 then 1 else 8) * 2 ^ 192 + f.bitDepth * 2 ^ 184
    + f.components * 2 ^ 176 + cropLeft * 2 ^ 160 + cropTop * 2 ^ 144 + f.width * 2 ^ 128 + f.height * 2 ^ 112 + flags)

/-- A plane written row by row at its pitch. -/
def writePlane (s : State) (addr pitch width elem : Nat) (vs : List Nat) : State :=
  (chunksOf width vs.length vs).zipIdx.foldl (fun s e =>
    if e.1.isEmpty then s else memWrite s (addr + e.2 * pitch) (e.1.flatMap (leBytes elem))) s

/-- A component of a motion vector as the tensor holds it (R175). -/
def mvBytes (v : Int) : List Byte := leBytes 2 (toBits 16 v)

/-- A frame buffer's planes and tensors are written (R171, R173, R175, R176); the reference side data is the decoder's own and
unstated (log entry 3). -/
def writeFrame (s : State) (f : FrameShape) (buf : Nat) (planes : List (List Nat)) (mv : List Int) (bits : List Nat) : State :=
  let l := f.layout
  let s := (List.range f.components).foldl (fun s c =>
    writePlane s (buf + l.planes.getD c 0) (f.pitch c) (f.compW c) f.elem (planes.getD c [])) s
  let s := if l.mv == 0 then s else memWrite s (buf + l.mv) (mv.flatMap mvBytes)
  let s := if l.bits == 0 then s else memWrite s (buf + l.bits) (bits.flatMap (fun v => leBytes 4 (min v (2 ^ 32 - 1))))
  if l.side == 0 then s
  else
    let (base, s) := reserveFree s f.sideBytes
    memWrite s (buf + l.side) (freeBytes base f.sideBytes)

end Sys2Proof.Machine
end

