-- ==== Sys2Proof/Machine/Media.lean ====
section
/-! DEFINITION. The media decoders (R161 to R191): decode items, contexts, pictures and their frames, and sample outcomes. What the
published standards make of the coded bytes comes with the commands. -/

namespace Sys2Proof.Machine

/-! ## Contexts and buffers -/

def ctxOf (s : State) (k : Nat) : Ctx := tblGet {} s.mdc.ctxs k
def setCtx (s : State) (k : Nat) (x : Ctx) : State := { s with mdc := { s.mdc with ctxs := tblSet {} s.mdc.ctxs k x } }

/-- Change the run of a sample. -/
def setRun (s : State) (r r' : DecodeRun) : State :=
  { s with mdc := { s.mdc with runs := s.mdc.runs.map (fun x => if x == r then r' else x) } }

/-- A frame buffer is still held: by a stream, a sample in work or the pool it would go back to (R259), or a decoded sample not yet
shaped (R181). -/
def frameHeld (s : State) (b : Nat) : Bool :=
  s.mdc.ctxs.any (fun e => e.2.pool.any (fun p => p.buffer == b))
  || s.mdc.runs.any (fun r => r.frames.contains b || r.buffer == some b || r.before.any (fun x => x.pool.any (fun p => p.buffer == b)))
  || s.mdc.outcomes.any (fun o => o.frames.contains b)

/-- Frame buffers are freed unless something still holds them. -/
def dropFrames (s : State) (slot : Nat) (bufs : List Nat) : State :=
  freeBuffers s slot (bufs.eraseDups.filter (fun b => !frameHeld s b))

/-- A context is released with every picture it holds (R177). -/
def closeCtx (s : State) (k slot : Nat) : State :=
  let pool := (ctxOf s k).pool
  dropFrames (setCtx (countUnshown s pool) k {}) slot (pool.map (·.buffer))

/-! ## Dispatch (R165) -/

/-- The parameters of a decode item lie within the table of R165, and its context is one it may use. -/
def decodeParamsOk (s : State) (i : DecodeItem) : Bool :=
  1 ≤ i.format && i.format ≤ 5 && i.sample < 2 ^ 48 && i.addr + i.len ≤ 2 ^ 48 && 1 ≤ i.len && i.len < 2 ^ 32 && i.crc < 2 ^ 32
  && i.stats ≤ 3 && i.entry ≤ 1 && 1 ≤ i.refresh && i.refresh ≤ 255
  && (!isVideo i.format ||
    (match i.stream with
      | none => true
      | some k => k ≤ 511 && (if (ctxOf s k).opn then (ctxOf s k).owner == i.slot else i.opn)))

/-- The lowest free stream context (R230). -/
def freeCtx (s : State) : Option Nat := (List.range 512).find? (fun k => !(ctxOf s k).opn)

/-- The lowest image core, and the lowest video core, in service and free (R161). -/
def freeImageCore (s : State) : Option Nat := (serviceList s .mdc).find? (fun u => u < 16 && takesItems s .mdc u && !unitBusy s .mdc u)
def freeVideoCore (s : State) : Option Nat := (serviceList s .mdc).find? (fun u => 16 ≤ u && takesItems s .mdc u && !unitBusy s .mdc u)

/-- The next item of a slot for a kind of core. -/
def nextDecode (s : State) (video : Bool) (n : Nat) : Option DecodeItem :=
  s.mdc.queue.find? (fun i => i.slot == n && isVideo i.format == video)

/-- An item can be taken: an image core is free, or its stream's context is there and no earlier sample of the stream is in
work. -/
def decodeReady (s : State) (i : DecodeItem) : Bool :=
  if !isVideo i.format then (freeImageCore s).isSome
  else match i.stream with
    | none => (freeCtx s).isSome
    | some k => !s.mdc.runs.any (fun r => r.item.stream == some k)

/-- The slots with an item to be dispatched to a kind of core. -/
def decodeSlots (s : State) (video : Bool) : List Nat :=
  ((s.mdc.queue.filter (fun i => isVideo i.format == video)).map (·.slot)).eraseDups.filter (fun n =>
    !(slotOf s n).backoff.contains (if video then unitVideo else unitImage) &&
    match nextDecode s video n with
    | some i => decodeReady s i
    | none => false)

/-- An item leaves the queue for its core or its stream's context. -/
def takeDecode (s : State) (i : DecodeItem) : State :=
  let s := { s with mdc := { s.mdc with queue := s.mdc.queue.erase i } }
  if !decodeParamsOk s i then errFault s i.slot 0x0801
  else if !isVideo i.format then
    match freeImageCore s with
    | none => s
    | some c => { s with mdc := { s.mdc with runs := s.mdc.runs ++ [{ item := i, cores := [c] }] } }
  else
    let k := match i.stream with
      | some k => k
      | none => (freeCtx s).getD 0
    let s := if i.opn then
        setCtx (closeCtx s k i.slot) k { opn := true, owner := i.slot, entry := i.entry, seeking := true, refresh := i.refresh }
      else s
    { s with mdc := { s.mdc with runs := s.mdc.runs ++
      [{ item := { i with stream := some k }, cores := [], before := if i.opn then none else some (ctxOf s k) }] } }

/-- The next decode item of one kind of core leaves its queue, where there is one to dispatch. An image core is granted with it; a video item
goes to its context, and cores are granted with its decoding units (R25). -/
def decodeNext (s : State) (video : Bool) : Option State :=
  (arbPick s (if video then unitVideo else unitImage) (decodeSlots s video)).bind (fun n =>
    (nextDecode s video n).map (fun i => takeDecode (if video then s else arbGrant s unitImage n (decodeSlots s false)) i))

/-- MDC_DECODE_DISPATCH (R161, R165): the next decode item R25 chooses, of the image cores or else of the video cores, is checked
and dispatched. -/
def execMdcDecodeDispatch (s : State) : Result :=
  .next (
    if !unitsDispatch s then s
    else match decodeNext s false with
      | some s' => s'
      | none =>
        match decodeNext s true with
        | some s' => s'
        | none => s)

/-! ## Decoding units (R168, R178, R180) -/

/-- A sample fails with a code; an earlier failure has decided already. -/
def failRun (s : State) (r : DecodeRun) (code : Nat) : State := setRun s r { r with code := if r.code == 0 then code else r.code }

/-- A header fails a check (R168): the context of a video sample is left without an active sequence, and looks for its next entry. -/
def failHeader (s : State) (r : DecodeRun) (code : Nat) : State :=
  let s := failRun (raiseErr s code r.item.slot) r code
  match r.item.stream with
  | some k => if isVideo r.item.format then setCtx s k { ctxOf s k with sequence := none, seeking := true } else s
  | none => s

/-- The context of an abandoned sample stands again as the sample found it, with all of its pictures: they are held while the sample is in
work (R259). -/
def restoreCtx (s : State) (r : DecodeRun) (k : Nat) : State :=
  let x := r.before.getD {}
  setCtx (countUnshown s ((ctxOf s k).pool.filter (fun q => !x.pool.any (fun y => y.buffer == q.buffer)))) k x

/-- An allocation answered RETRY_LATER: the sample's decoding is abandoned, its buffers freed, and its item is ready again after
RETRY_BACKOFF (R259). -/
def retryRun (s : State) (r : DecodeRun) (unit : Nat) : State :=
  let i := r.item
  let s := { s with mdc := { s.mdc with
    runs := s.mdc.runs.erase r, queue := (if i.opn then { i with stream := none } else i) :: s.mdc.queue } }
  let stream := if isVideo i.format then i.stream else none
  let pool := (stream.map (fun k => (ctxOf s k).pool.map (·.buffer))).getD []
  let s := match stream with
    | some k => restoreCtx s r k
    | none => s
  let s := dropFrames s i.slot (pool ++ r.frames ++ r.buffer.toList ++ r.coef.toList)
  let s := r.cores.foldl (fun s c => unitDone s .mdc c) s
  retryLater s i.slot unit

/-- A buffer for a run: the run goes on with its address, waits, is retried later, or fails with the pool's code. -/
def runBuffer (s : State) (r : DecodeRun) (unit size : Nat) (use : State → Nat → State) : State :=
  match needBuffer s r.item.slot size with
  | (none, s) => s
  | (some (c, addr), s) => if c == 0 then use s addr else if c == 0x0C08 then retryRun s r unit else failRun s r c

/-- An image's frame buffer, where it has none yet; its header is then held. -/
def imageFrame (s : State) (r : DecodeRun) (h : MediaHeader) : State :=
  if r.buffer.isSome then setRun s r { r with header := some h }
  else runBuffer s r unitImage (shapeOf r.item h).layout.total (fun s a => setRun s r { r with buffer := some a, header := some h })

/-- The checks of a header, made once: one that has passed them and waits for its buffers is not judged again (R170). -/
def mediaCheck (s : State) (r : DecodeRun) (h : MediaHeader) : Nat := if r.passed == some h then 0 else headerCode s r.item h

/-- A run whose header has passed its checks. -/
def passHeader (s : State) (r : DecodeRun) (h : Option MediaHeader) : State := setRun s r { r with passed := h }

/-- An image core reads the header of its sample, checks it, and has its buffers allocated. -/
def imageUnit (s : State) (r : DecodeRun) (h : MediaHeader) : State :=
  let code := mediaCheck s r h
  if code != 0 then failHeader s r code
  else
    let s := passHeader s r (some h)
    let r := { r with passed := some h }
    if h.progressive && r.item.format == 1 && r.coef.isNone then
      runBuffer s r unitImage (coefBytes (shapeOf r.item h)) (fun s a =>
        imageFrame (setRun s r { r with coef := some a }) { r with coef := some a } h)
    else imageFrame s r h

/-- A video core starts a unit of a stream: a change of context is counted (R180). -/
def switchCtx (s : State) (core : Nat) (k : Option Nat) : State :=
  let last := tblGet none s.mdc.lastCtx core
  let s := if last.isSome && last != k then bump s 0x8080 0x11 else s
  { s with mdc := { s.mdc with lastCtx := tblSet none s.mdc.lastCtx core k } }

/-- A picture is an entry point of a context with an entry mode (R183). -/
def isEntry (format mode : Nat) (h : PictureHead) : Bool :=
  mode == 1 || (if format == 4 then h.key || h.recovery.isSome else h.key && h.shown)

/-- A context enters its stream at a picture (R183): which of the pictures that follow are not for output, and whether the RASL pictures
associated with it are decoded. -/
def Ctx.enter (x : Ctx) (h : PictureHead) : Ctx :=
  { x with seeking := false, frames := 0, hidden := if x.entry == 1 then x.refresh else 0
           outFrom := if x.entry == 1 || h.key then none else h.recovery.map (fun n => h.order + n)
           skipLeading := h.breaks }

/-- A context at a picture's start, none when the access unit is discarded (R183). -/
def Ctx.meet (x : Ctx) (format : Nat) (h : PictureHead) : Option Ctx :=
  if x.seeking then (if isEntry format x.entry h then some (x.enter h) else none)
  else if x.skipLeading && h.leading then none
  else some (if h.key then { x with skipLeading := false } else x)

/-- A video core starts the first unit of a stream's next picture: a sequence that becomes active is checked (R168), a unit before the
entry is discarded (R183), and the picture has its frame buffer allocated. -/
def videoPicture (s : State) (core : Nat) (r : DecodeRun) (head : PictureHead) : State :=
  match r.item.stream with
  | none => s
  | some k =>
    let code := (head.header.map (mediaCheck s r)).getD 0
    if code != 0 then failHeader s r code
    else
      let x := { ctxOf s k with sequence := head.header.or (ctxOf s k).sequence }
      match x.sequence, x.meet r.item.format head with
      | some h, some x' =>
        let s := passHeader s r head.header
        let r := { r with passed := head.header }
        runBuffer s r unitVideo (shapeOf r.item h).layout.total (fun s a =>
          setCtx (setRun (switchCtx s core r.item.stream) r
            { r with header := some h, passed := none, head := some head, taken := 1, buffer := some a, cores := [core] }) k x')
      | _, _ => bump (setCtx (passHeader s r none) k x) 0x8080 0x10

/-- Decoding unit n is the first of its tile. -/
def firstOfTile : List Nat → Nat → Bool
  | [], _ => true
  | u :: us, n => n == 0 || (u ≤ n && firstOfTile us (n - u))

/-- The samples whose stream's next picture a video core can start: none under way, and none waiting for its buffer (R24). -/
def pictureRuns (s : State) (head : PictureHead) : List DecodeRun :=
  s.mdc.runs.filter (fun r => isVideo r.item.format && r.cores.isEmpty && r.head.isNone
    && !(slotOf s r.item.slot).backoff.contains unitVideo
    && (match head.header.or (r.item.stream.bind (fun k => (ctxOf s k).sequence)) with
      | some h => !awaitsBuffer s r.item.slot (shapeOf r.item h).layout.total
      | none => true))

/-- The samples whose picture under way has a decoding unit for one more core (R178). -/
def unitRuns (s : State) (aboveReady : Bool) : List DecodeRun :=
  s.mdc.runs.filter (fun r => isVideo r.item.format && r.buffer.isSome && r.cores.length < objGet s 0x4000 7
    && (match r.head with
      | some h => r.taken < h.unitTotal && (aboveReady || firstOfTile h.units r.taken)
      | none => false))

/-- The run that R25 chooses among those ready, with the slots it chooses from. -/
def pickRun (s : State) (runs : List DecodeRun) : Option (DecodeRun × List Nat) :=
  let slots := (runs.map (·.item.slot)).eraseDups
  (arbPick s unitVideo slots).bind (fun n => (runs.find? (fun r => r.item.slot == n)).map (fun r => (r, slots)))

/-- A core that has started a unit has been granted it (R25). -/
def grantRun (s : State) (core : Nat) (r : DecodeRun) (slots : List Nat) : State :=
  if s.mdc.runs.any (fun y => y.cores.contains core) then arbGrant s unitVideo r.item.slot slots else s

/-- A video core has finished its decoding unit; the end of a picture's last unit is the picture's end. -/
def finishUnit (s : State) (core : Nat) : State :=
  match s.mdc.runs.find? (fun r => isVideo r.item.format && r.cores.contains core
      && (1 < r.cores.length || r.head.any (fun h => r.taken < h.unitTotal))) with
  | some r => unitDone (setRun s r { r with cores := r.cores.erase core }) .mdc core
  | none => s

/-- A NAL unit, parameter set or OBU of a stream is lost without a picture (R187): a resynchronisation, and with the active sequence the
context looks for its next entry. -/
def loseUnit (s : State) (r : DecodeRun) (sequence : Bool) : State :=
  let s := raiseErr s 0x0808 r.item.slot
  match (if sequence then r.item.stream else none) with
  | some k => setCtx s k { ctxOf s k with sequence := none, seeking := true }
  | none => s

/-- The sample of a stream in work, between its pictures. -/
def streamRun (s : State) (k : Nat) : Option DecodeRun :=
  s.mdc.runs.find? (fun r => isVideo r.item.format && r.item.stream == some k && r.head.isNone && r.cores.isEmpty)

/-- A unit of a stream outside its pictures is lost: its parser finds it invalid, or one of its bytes is read poisoned (R167, R187). -/
def unitLost (s : State) (r : DecodeRun) (start len : Nat) (invalid : Bool) : Bool := invalid || memPoisoned s (r.item.addr + start) len

/-! ## Pools and output (R181, R182) -/

/-- A picture of a pool is a reference. -/
def RefPic.isRef (q : RefPic) : Bool := q.mark != .unused

/-- A frame is output (R172, R182): its number and the sample that outputs it are written, it is passed on, and the sample is CORRUPT when
it is flagged (R166). -/
def outputFrame (s : State) (r : DecodeRun) (buf number flags : Nat) : State × DecodeRun :=
  let s := bump (memWrite s (buf + 54) (leBytes 4 number ++ leBytes 6 r.item.sample)) 0x8080 0x0E
  let code := if r.code != 0 then r.code
    else if Nat.land flags frOver != 0 then 0x080A
    else if Nat.land flags frPoisoned != 0 then 0x1203 else 0
  (s, { r with frames := buf :: r.frames, code := code })

/-- Pictures of a stream are output in the order given (R182): one not for output is not passed on. A picture shown again is passed on with
its next number (log entry 200). -/
def outputPictures (s : State) (k : Nat) (r : DecodeRun) (nums : List Nat) : State × DecodeRun :=
  nums.foldl (fun (e : State × DecodeRun) n =>
    let x := ctxOf e.1 k
    match x.pool.find? (fun q => q.coded == n && q.forOutput) with
    | none => e
    | some q =>
      let (s, r) := outputFrame e.1 e.2 q.buffer x.frames q.flags
      (setCtx s k { x with frames := x.frames + 1, pool := x.pool.map (fun y => if y == q then { y with waits := false, passed := true } else y) }, r)) (s, r)

/-- Pictures of a stream's pool get new marks (R181). -/
def markPictures (s : State) (k : Nat) (marks : List (Nat × RefMark)) : State :=
  setCtx s k { ctxOf s k with pool := (ctxOf s k).pool.map (fun q => match marks.find? (fun m => m.1 == q.coded) with
    | some m => { q with mark := m.2 }
    | none => q) }

/-- The pictures of a stream's pool that are neither references nor waiting leave it, and their buffers are freed. -/
def dropPictures (s : State) (k slot : Nat) : State :=
  let x := ctxOf s k
  let gone := x.pool.filter (fun q => !q.isRef && !q.waits)
  dropFrames (setCtx (countUnshown s gone) k { x with pool := x.pool.filter (fun q => q.isRef || q.waits) }) slot (gone.map (·.buffer))

/-- The context's record in device memory is brought up to date (R177, R180), where its region is set; its layout is unstated (log
entry 3). -/
def saveCtx (s : State) (k : Nat) : State :=
  let base := objGet s 0x4000 6
  if base == 0 then s
  else
    let (free, s) := reserveFree s 32768
    memWrite s (base + 32768 * k) (freeBytes free 32768)

/-- A picture is shown again outside a picture, with the new marks; before its entry a stream discards it (R182, R183). -/
def showAgain (s : State) (r : DecodeRun) (k coded : Nat) (marks : List (Nat × RefMark)) : State :=
  if (ctxOf s k).seeking then bump s 0x8080 0x10
  else
    let e := outputPictures (markPictures s k marks) k r [coded]
    saveCtx (dropPictures (setRun e.1 r e.2) k r.item.slot) k

/-- MDC_DECODING_UNIT_START (R161, R168, R178, R182, R183): an image core reads its sample's header; the lowest free video core takes the first
unit of the next picture of a stream R25 chooses, or the next unit of a picture under way, its own unit finished; or a unit of a stream
outside its pictures is lost, or shows a picture again. -/
def execMdcDecodingUnitStart (core : Nat) (unit : MediaUnit) (s : State) : Result :=
  .next (
    if !unitsWork s then s
    else
      match unit with
      | .image h =>
        (match s.mdc.runs.find? (fun r => r.cores.contains core && r.header.isNone && r.code == 0 && !isVideo r.item.format) with
          | some r => imageUnit s r h
          | none => s)
      | .picture head =>
        (match (if freeVideoCore s == some core then pickRun s (pictureRuns s head) else none) with
          | some (r, slots) => grantRun (videoPicture s core r head) core r slots
          | none => s)
      | .next aboveReady =>
        let s := finishUnit s core
        (match (if freeVideoCore s == some core then pickRun s (unitRuns s aboveReady) else none) with
          | some (r, slots) =>
            grantRun (setRun (switchCtx s core r.item.stream) r { r with cores := r.cores ++ [core], taken := r.taken + 1 }) core r slots
          | none => s)
      | .lost stream start len invalid sequence =>
        (match streamRun s stream with
          | some r => if unitLost s r start len invalid then loseUnit s r sequence else s
          | none => s)
      | .again stream coded marks =>
        (match streamRun s stream with
          | some r => showAgain s r stream coded marks
          | none => s))

/-! ## Pictures (R181 to R188) -/

/-- The nearest earlier picture (R184) below an order: of the pool, of the same coded size, chroma format and bit depth, with the greatest
ORDER below it, or, without orders, the most recently decoded. -/
def nearestEarlier (x : Ctx) (f : FrameShape) (ordered : Bool) (order : Int) : Option RefPic :=
  (x.pool.filter (fun q => q.width == f.width && q.height == f.height && q.components == f.components
      && q.sampling == f.sampling && q.bitDepth == f.bitDepth && (!ordered || q.order < order))).foldl (fun best q =>
    match best with
    | none => some q
    | some b => if (if ordered then b.order < q.order else b.coded < q.coded) then some q else some b) none

/-- The reference a picture names, when the pool holds it (R185). -/
def heldRef (x : Ctx) (u : RefUse) : Option RefPic :=
  match u.name with
  | .byOrder => x.pool.find? (fun q => q.isRef && q.order == u.order)
  | .bySlot none => none
  | .bySlot (some n) => x.pool.find? (fun q => q.isRef && q.coded == n)

/-- The references of a picture that were never received. -/
def missingRefs (x : Ctx) (p : Picture) : List RefUse := p.refs.filter (fun u => (heldRef x u).isNone)

/-- The picture a reference is read from: the one named, or else its substitute (R185). -/
def usedRef (x : Ctx) (f : FrameShape) (ordered : Bool) (u : RefUse) : Option RefPic := (heldRef x u).or (nearestEarlier x f ordered u.order)

/-- The shape of a picture of a pool. -/
def RefPic.shape (q : RefPic) (f : FrameShape) : FrameShape :=
  { f with width := q.width, height := q.height, components := q.components, bitDepth := q.bitDepth, sampling := q.sampling }

/-- The resynchronisations of a picture with the areas they conceal: those the parser finds, and of each stretch of its coded bytes the
first byte read poisoned, a syntax error at its position (R167, R187). -/
def damageOf (s : State) (i : DecodeItem) (p : Picture) : List (List Rect) :=
  p.damage ++ p.segments.filterMap (fun l => (l.find? (fun c => memPoisoned s (i.addr + c.start) c.len)).map (·.conceals))

/-- The blocks predicted from rows of a reference that are read poisoned (R187). -/
def poisonedBlocks (s : State) (f : FrameShape) (x : Ctx) (ordered : Bool) (u : RefUse) : List RefBlock :=
  match usedRef x f ordered u with
  | none => []
  | some q => u.blocks.filter (fun b => (poisonedRow s (q.shape f) q.buffer b.source).isSome)

/-- The area predicted from rows of references that are read poisoned (R187). -/
def poisonedArea (s : State) (f : FrameShape) (x : Ctx) (ordered : Bool) (p : Picture) : List Rect :=
  (p.refs.flatMap (poisonedBlocks s f x ordered)).map (·.area)

/-- What a picture's damage comes to (R185 to R188): the concealed area, the statistics blocks that are concealed there, and those counted
as concealed. -/
structure Concealment where
  area : List Rect
  filled : List Nat
  counted : Nat
deriving DecidableEq, Repr

def concealment (s : State) (i : DecodeItem) (f : FrameShape) (x : Ctx) (p : Picture) : Concealment :=
  let area := (damageOf s i p).flatten
  { area := area, filled := areaBlocks f area
    counted := (areaBlocks f (area ++ ((missingRefs x p).flatMap (·.blocks)).map (·.area))).length }

/-- The first row of a picture's concealment source that is read poisoned (R413). -/
def poisonedSource (s : State) (f : FrameShape) (source : Option RefPic) (c : Concealment) : Option (Nat × Nat) :=
  source.bind (fun q => c.area.findSome? (poisonedRow s f q.buffer))

/-- FLAGS of a picture's record (R172, R187, R188). -/
def pictureFlags (s : State) (i : DecodeItem) (f : FrameShape) (x : Ctx) (p : Picture) (key ordered marked : Bool) (counted total : Nat) : Nat :=
  let subst := (missingRefs x p).map (fun u => (nearestEarlier x f ordered u.order).isSome)
  (if key then frKey else 0) + (if 0 < counted then frConcealed else 0) + (if (damageOf s i p).isEmpty then 0 else frResync)
    + (if subst.contains true then frSubst else 0) + (if subst.contains false then frGrey else 0)
    + (if p.refs.any (fun u => (usedRef x f ordered u).any (·.tainted)) then frInherited else 0)
    + (if objGet s 0x4000 5 * total < counted * 65536 then frOver else 0) + (if marked then frPoisoned else 0)

/-- A missing reference is raised, with its substitute counted (R185, R190). -/
def raiseMissing (s : State) (slot : Nat) (f : FrameShape) (x : Ctx) (ordered : Bool) (u : RefUse) : State :=
  bump (raiseErr s 0x0809 slot) 0x8080 (if (nearestEarlier x f ordered u.order).isSome then 0x0A else 0x0B)

/-- A reference read poisoned is raised, once, at the first row of it that is (R187, R412). -/
def raisePoisoned (s : State) (slot : Nat) (f : FrameShape) (x : Ctx) (ordered : Bool) (u : RefUse) : State :=
  match (usedRef x f ordered u).bind (fun q => (u.blocks.map (·.source)).findSome? (poisonedRow s (q.shape f) q.buffer)) with
  | none => s
  | some (a, n) => readChecked s slot a n

/-- The errors of a picture (R185, R187, R188): each resynchronisation once, each missing and each poisoned reference, and the excess. -/
def raisePicture (s : State) (i : DecodeItem) (f : FrameShape) (x : Ctx) (p : Picture) (ordered : Bool) (flags : Nat) : State :=
  let s := (damageOf s i p).foldl (fun s _ => raiseErr s 0x0808 i.slot) s
  let s := (missingRefs x p).foldl (fun s u => raiseMissing s i.slot f x ordered u) s
  let s := p.refs.foldl (fun s u => raisePoisoned s i.slot f x ordered u) s
  if Nat.land flags frOver != 0 then raiseErr s 0x080A i.slot else s

/-- The lines predicted from a poisoned reference are marked (R187). -/
def poisonFrame (s : State) (f : FrameShape) (buf : Nat) (area : List Rect) : State :=
  area.foldl (fun s r => poisonRect s f buf r) s

/-- The statistics blocks of an image: where its grid is unstated, a free count. -/
def imageBlocks (s : State) (f : FrameShape) : Nat × State :=
  match f.grid with
  | some (w, h) => (w * h, s)
  | none => drawFree s (2 ^ 32)

/-- The planes and the coded bits of an image (R173, R174, R176, R186): a baseline JPEG's concealed blocks are mid-grey. -/
def imageData (s : State) (h : MediaHeader) (f : FrameShape) (c : Concealment) : PictureData → List (List Nat) × List Nat × State
  | .jpeg blocks =>
    let area := if h.progressive then [] else c.area
    ((List.range f.components).map (fun k =>
        concealPlane f area none k (blockPlane f.bitDepth (f.blockCols k) (f.compW k) (f.compH k) ((blocks.getD k []).map (·.coefs)))),
      jpegBits f blocks c.filled, s)
  | .png channels palette trns =>
    let (free, s) := reserveFree s (3 * f.width * f.height)
    (pngPlanes h channels palette trns free, [], s)
  | .video planes _ _ => (planes, [], s)

/-- A sample fails at its end with a code, raised; an earlier failure has decided its code already. -/
def failSample (s : State) (r : DecodeRun) (code : Nat) : State × DecodeRun :=
  (failRun (raiseErr s code r.item.slot) r code, { r with code := if r.code == 0 then code else r.code })

/-- A marker segment of a JPEG is read poisoned: an invalid one (R167, R187). -/
def markerPoisoned (s : State) (i : DecodeItem) (p : Picture) : Bool := i.format == 1 && p.markers.any (fun m => memPoisoned s (i.addr + m.1) m.2)

/-- The picture of an image sample is complete: it is output at once. -/
def imageOutput (s : State) (r : DecodeRun) (h : MediaHeader) (buf : Nat) (p : Picture) : State :=
  let f := shapeOf r.item h
  let (total, s) := imageBlocks s f
  let c := if r.item.format == 1 then concealment s r.item f {} { p with refs := [] } else { area := [], filled := [], counted := 0 }
  let p := if r.item.format == 1 then { p with refs := [] } else { p with refs := [], damage := [], segments := [] }
  let flags := pictureFlags s r.item f {} p true true false c.counted total
  let (planes, bits, s) := imageData (raisePicture s r.item f {} p true flags) h f c p.data
  let s := memWrite (writeFrame s f buf planes [] bits) buf (frameRecord r.item f h.width h.height 0 0 0 c.counted total flags)
  let e := outputFrame (bumpBy (bump s 0x8080 0x0D) 0x8080 9 c.counted) r buf 0 flags
  setRun e.1 r { e.2 with buffer := none, mine := [buf] }

/-- The picture of an image sample is complete: it is output, unless one of its marker segments is lost with a poisoned byte (R187). -/
def imageComplete (s : State) (r : DecodeRun) (h : MediaHeader) (buf : Nat) (p : Picture) : State :=
  if markerPoisoned s r.item p then (failSample s r 0x0806).1 else imageOutput s r h buf p

/-- One picture comes before another at its output: it is of an earlier coded video sequence, or of the same with a lower order. -/
def RefPic.before (a b : RefPic) : Bool := a.cvs < b.cvs || (a.cvs == b.cvs && a.order ≤ b.order)

/-- Pictures in the order of their output. -/
def sortPictures (l : List RefPic) : List RefPic :=
  l.foldl (fun acc q => acc.takeWhile (fun a => a.before q) ++ [q] ++ acc.dropWhile (fun a => a.before q)) []

/-- The picture that leaves a full pool: the next to be output of those that are no references, else the reference decoded first (log
entry 201). -/
def poolVictim (pool : List RefPic) : Option RefPic := (sortPictures (pool.filter (fun q => !q.isRef))).head?.or pool.head?

/-- A stream's pool has room for one more picture of its 16 (R181): those that are done leave it, and from a full one its victim, output
first where its output is to come. -/
def makeRoom (s : State) (k : Nat) (r : DecodeRun) : State × DecodeRun :=
  let s := dropPictures s k r.item.slot
  match (if (ctxOf s k).pool.length < 16 then none else poolVictim (ctxOf s k).pool) with
  | none => (s, r)
  | some q =>
    let e := if q.waits then outputPictures s k r [q.coded] else (s, r)
    (dropPictures (markPictures (setRun e.1 r e.2) k [(q.coded, .unused)]) k r.item.slot, e.2)

/-- A decoded picture takes its place in its stream's pool (R181). -/
def poolPicture (s : State) (k : Nat) (starts : Bool) (me : RefPic) : State :=
  let x := ctxOf s k
  setCtx s k { x with pictures := x.pictures + 1, hidden := x.hidden - 1, cvs := x.cvs + (if starts then 1 else 0), pool := x.pool ++ [me] }

/-- The shape of a video picture: its coded size within its sequence's. -/
def videoShape (i : DecodeItem) (h : MediaHeader) (d : PictureHead) : FrameShape :=
  { shapeOf i h with width := min d.codedWidth h.width, height := min d.codedHeight h.height }

/-- A picture of a context is for output (R183). -/
def visible (x : Ctx) (d : PictureHead) : Bool := x.hidden == 0 && x.outFrom.all (fun n => n ≤ d.order)

/-- The planes and tensors of a video picture (R175, R176, R186): its concealed samples are those of its concealment source. -/
def videoData (s : State) (f : FrameShape) (source : Option RefPic) (c : Concealment) : PictureData → List (List Nat) × List Int × List Nat
  | .video planes blocks coded =>
    let source := source.map (fun q => fun (k a b : Nat) =>
      memNat s (q.buffer + f.layout.planes.getD k 0 + b * f.pitch k + a * f.elem) f.elem)
    ((List.range f.components).map (fun k => concealPlane f c.area source k (planes.getD k [])), mvTensor f blocks c.filled,
      bitsTensor f coded c.filled)
  | _ => ([], mvTensor f [] c.filled, bitsTensor f [] c.filled)

/-- The rows of a video picture that come from poisoned ones are marked: those predicted from a reference's, and those copied from its
concealment source's (R187, R413). -/
def markPoisoned (s : State) (f : FrameShape) (source : Option RefPic) (buf : Nat) (area : List Rect) (c : Concealment) : State :=
  let s := match source with
    | none => s
    | some q => c.area.foldl (fun s r => copyPoison s f q.buffer buf r) s
  poisonFrame s f buf area

/-- A read of the concealment source that is poisoned is raised (R412). -/
def raiseSource (s : State) (slot : Nat) (f : FrameShape) (source : Option RefPic) (c : Concealment) : State :=
  match poisonedSource s f source c with
  | none => s
  | some (a, n) => readChecked s slot a n

/-- The picture of a video sample is complete (R181 to R188). -/
def videoComplete (s : State) (r : DecodeRun) (h : MediaHeader) (d : PictureHead) (k buf : Nat) (p : Picture) : State :=
  let f := videoShape r.item h d
  let x := ctxOf s k
  let c := concealment s r.item f x p
  let source := nearestEarlier x f d.ordered d.order
  let area := poisonedArea s f x d.ordered p
  let marked := !area.isEmpty || (poisonedSource s f source c).isSome
  let flags := pictureFlags s r.item f x p d.key d.ordered marked c.counted f.gridBlocks
  let data := videoData s f source c p.data
  let s := raiseSource (raisePicture s r.item f x p d.ordered flags) r.item.slot f source c
  let s := memWrite (writeFrame s f buf data.1 data.2.1 data.2.2) buf
    (frameRecord r.item f d.width d.height d.cropLeft d.cropTop d.order c.counted f.gridBlocks flags)
  let s := bump (markPoisoned s f source buf area c) 0x8080 0x0D
  let out := visible x d && (d.shown || d.showable)
  let s := if out then bumpBy s 0x8080 9 c.counted else bump s 0x8080 0x0F
  let room := makeRoom (markPictures s k p.marks) k r
  let e := outputPictures (poolPicture room.1 k d.starts
    { order := d.order, coded := x.pictures, cvs := x.cvs + (if d.starts then 1 else 0), width := f.width, height := f.height
      components := f.components, bitDepth := f.bitDepth, sampling := f.sampling, mark := p.mark, forOutput := out
      waits := out && d.shown, flags := flags, tainted := 0 < c.counted || Nat.land flags frInherited != 0, buffer := buf }) k room.2 p.outputs
  saveCtx (dropPictures (setRun e.1 room.2 { e.2 with buffer := none, head := none, cores := [], mine := buf :: r.mine }) k r.item.slot) k

/-- MDC_PICTURE_COMPLETE (R188): the picture under way is complete, of a video once its last core has finished its last decoding unit. -/
def execMdcPictureComplete (core : Nat) (picture : Picture) (s : State) : Result :=
  .next (match (if unitsWork s then s.mdc.runs.find? (fun r => r.cores == [core] && r.buffer.isSome) else none) with
    | none => s
    | some r =>
      let buf := r.buffer.getD 0
      match r.header, r.head, (if isVideo r.item.format then r.item.stream else none) with
      | some h, _, none => if r.item.format == 3 then s else imageComplete s r h buf picture
      | some h, some d, some k =>
        if r.taken != d.unitTotal then s else r.cores.foldl (fun s c => unitDone s .mdc c) (videoComplete s r h d k buf picture)
      | _, _, _ => s)

/-! ## Outcomes (R164, R166, R167, R177) -/

/-- The raw picture of a sample is written and output (R164). -/
def rawComplete (s : State) (r : DecodeRun) (buf : Nat) (h : MediaHeader) (b : List Byte) : State × DecodeRun :=
  let f := shapeOf r.item h
  let (total, s) := drawFree s (2 ^ 32)
  let s := writeFrame s f buf (rawPlanes f b) [] []
  let s := memWrite s buf (frameRecord r.item f h.width h.height 0 0 0 0 total frKey)
  outputFrame (bump s 0x8080 0x0D) r buf 0 frKey

/-- The run whose sample ends: the image of an image core, or the sample of a stream with no picture under way. -/
def endingRun (s : State) (core : Nat) (stream : Option Nat) : Option DecodeRun :=
  match stream with
  | none => if core < 16 then s.mdc.runs.find? (fun r => r.cores.contains core) else none
  | some k => streamRun s k

/-- A sample is reported to BAT (R166). -/
def reportDecode (s : State) (r : DecodeRun) : State :=
  let s := { s with mdc := { s.mdc with runs := s.mdc.runs.erase r } }
  if r.code == 0 then
    { s with mdc := { s.mdc with outcomes := s.mdc.outcomes ++ [{ slot := r.item.slot, sample := r.item.sample, frames := r.frames.reverse }] } }
  else
    dropFrames { s with bat := { s.bat with results := s.bat.results ++
      [{ slot := r.item.slot, sample := r.item.sample, out := { code := r.code } }] } } r.item.slot r.frames

/-- The pictures of a sample whose CRC failed are tainted (R188). -/
def taintPictures (s : State) (k : Nat) (mine : List Nat) : State :=
  let x := ctxOf s k
  setCtx s k { x with pool := x.pool.map (fun q => if mine.contains q.buffer then { q with tainted := true } else q) }

/-- The pictures of a stream not yet output, by decoding order number in the order of their output. -/
def waitingPictures (s : State) (k : Nat) : List Nat := (sortPictures ((ctxOf s k).pool.filter (fun q => q.waits))).map (fun q => q.coded)

/-- The end of a sample: its context closes after the last picture has been output (R177), a video sample that has output no frame
is CORRUPT (its code unstated, log entry 3), its buffers not output are freed, and its cores. -/
def endSample (s : State) (r : DecodeRun) (crcBad : Bool) : State :=
  let r0 := r
  let s : State := match (if isVideo r.item.format && crcBad then r.item.stream else none) with
    | none => s
    | some k => taintPictures s k r.mine
  let (s, r) := match (if isVideo r.item.format && r.item.close then r.item.stream else none) with
    | none => (s, r)
    | some k => outputPictures s k r (waitingPictures s k)
  let (s, r) := if isVideo r.item.format && r.frames.isEmpty && r.code == 0 then
      (fun (e : Nat × State) => (e.2, { r with code := 1 + e.1 })) (drawFree s 65535)
    else (s, r)
  let s := setRun s r0 { r with buffer := none, coef := none }
  let s := reportDecode s { r with buffer := none, coef := none }
  let s := freeBuffers s r.item.slot (r.buffer.toList ++ r.coef.toList)
  let s := dropFrames s r.item.slot (((r.before.map (fun x => x.pool.map (·.buffer))).getD []).filter (fun b => !r.frames.contains b))
  let s := match (if isVideo r.item.format && r.item.close then r.item.stream else none) with
    | none => s
    | some k => closeCtx s k r.item.slot
  r.cores.foldl (fun s c => unitDone s .mdc c) s

/-- A sample's bytes are not a picture its format allows: a format error, a poisoned or unsound payload, or no picture at all. -/
def sampleUnsound (s : State) (r : DecodeRun) (how : SampleEnd) (inflated : List Byte) : Bool :=
  let i := r.item
  let started := r.header.isSome
  how == .formatError
    || ((i.format == 2 || i.format == 3) && started && memPoisoned s i.addr i.len)
    || (i.format == 3 && (match r.header with
        | some h => !rawSound (shapeOf i h) inflated
        | none => false))
    || (!isVideo i.format && i.format != 3 && started && r.frames.isEmpty)

/-- The picture of a raw sample, at the end of its bytes. -/
def rawEnds (s : State) (r : DecodeRun) (inflated : List Byte) : State × DecodeRun :=
  match r.buffer, r.header with
  | some b, some h =>
    let e := rawComplete s r b h inflated
    (setRun e.1 r { e.2 with buffer := none }, { e.2 with buffer := none })
  | _, _ => (s, r)

/-- The end of the sample of a run: its failures, its raw picture, its payload CRC, its report. -/
def sampleEnds (s : State) (r : DecodeRun) (how : SampleEnd) (inflated : List Byte) : State :=
  let i := r.item
  let started := r.header.isSome || isVideo i.format
  let s := if i.format == 2 then bumpBy s 0x8080 0x12 inflated.length else s
  let s := if started then readChecked s i.slot i.addr i.len else s
  let unsound := sampleUnsound s r how inflated
  let e := if unsound && r.code == 0 then failSample s r 0x0806 else (s, r)
  let e := if i.format == 3 && !unsound then rawEnds e.1 e.2 inflated else e
  let crcBad := started && crc32c (memBytes e.1 i.addr i.len) != i.crc
  let e := if crcBad then failSample e.1 e.2 0x0807 else e
  endSample e.1 e.2 crcBad

/-- MDC_SAMPLE_OUTCOME (R164, R166, R167): a sample ends; its payload CRC is compared at the last byte, of a sample whose header
passed. -/
def execMdcSampleOutcome (core : Nat) (stream : Option Nat) (how : SampleEnd) (inflated : List Byte) (s : State) : Result :=
  .next (match (if unitsWork s then endingRun s core stream else none) with
    | none => s
    | some r =>
      if r.header.isNone && r.code == 0 && how != .formatError && !isVideo r.item.format then s else sampleEnds s r how inflated)

/-- MDC_CORE_ENABLE_WRITE (R189). -/
def execMdcCoreEnableWrite (via : Via) (value : Nat) (s : State) : Result := .next (enableWrite .mdc false 4 via value s)

end Sys2Proof.Machine
end

