-- ==== Sys2Proof/Machine/Rsv.lean ====
section
/-! DEFINITION. The random service (R143 to R160): its cores and their calls. -/

namespace Sys2Proof.Machine

/-- The epoch in a job's keys (R143, R232): that of its batch stage, kept once the stage has ended (log entry 248); before it has had one
0, the field's reset value, or the epoch its rucksack brought (DEDUCED, log entry 14). -/
def jobEpoch (s : State) (slot : Nat) : Nat :=
  match (slotOf s slot).epoch with
  | some e => e
  | none => if (slotOf s slot).restored.hasBatch then (slotOf s slot).restored.epoch else 0

/-- The fields that fix a job's draws of a purpose. -/
def jobDraw (s : State) (slot purpose sample draw : Nat) : DrawId :=
  { seed := (slotOf s slot).job.jobSeed, purpose := purpose, epoch := jobEpoch s slot, sample := sample, draw := draw }

/-- The call a request of a slot asks for (R143, R144). -/
def callOf (s : State) (slot purpose sample block draw : Nat) : RsvCall :=
  { slot := slot
    key := (trailKey (slotOf s slot).job.jobSeed purpose (jobEpoch s slot)).value
    ctr := (trailCounter sample block draw).value }

/-- RSV_CALL (R143, R148, R158): a request for a slot with a purpose, a sample, a block and a draw is taken by the lowest free core
in service, or waits for one; an unlisted purpose, and a request with no core in service, fault the slot. -/
def execRsvCall (slot purpose sample block draw : Nat) (s : State) : Result :=
  .next (
    if !unitsWork s || !slotBusy s slot then s
    else if !purposeListed purpose then errFault s slot 0x0701
    else if (serviceList s .rsv).isEmpty then errFault s slot 0x0704
    else rsvServe { s with rsv := { s.rsv with waiting := s.rsv.waiting ++ [callOf s slot purpose sample block draw] } })

/-- What a call's words are for: a unit's request goes on, or they are those released last. -/
def callEnds (s : State) (c : RsvCall) : State :=
  match c.part with
  | some id => callBack s id
  | none =>
    let words := (trailCall (quadOf c.key) (quadOf c.ctr)).words
    { s with rsv := { s.rsv with
      returned := some { call := c, words := words, floats := words.map (fun w => uniformBits w.toNat) } } }

/-- RSV_CALL_RETURN (R146, R150, R158): a core's two copies are compared: the words are released, or the call is computed again, or
the core is retired and the call moved. -/
def execRsvCallReturn (core : Nat) (disagree : Bool) (s : State) : Result :=
  .next (match tblGet none s.rsv.cores core with
    | none => s
    | some c =>
      if !disagree then rsvServe (unitDone (bump (callEnds (setRsvCore s core none) c) 0x8070 1) .rsv core)
      else if !c.retried then raiseErr (setRsvCore s core (some { c with retried := true })) 0x0702 c.slot
      else
        let s := retireUnit (raiseErr (setRsvCore s core none) 0x0703 c.slot) .rsv core
        rsvServe { s with rsv := { s.rsv with moved := s.rsv.moved ++ [{ c with retried := false }] } })

/-- RSV_CORE_ENABLE_WRITE (R159). -/
def execRsvCoreEnableWrite (via : Via) (value : Nat) (s : State) : Result := .next (enableWrite .rsv false 8 via value s)

end Sys2Proof.Machine
end

