-- ==== Sys2Proof/Machine/ShapeMath.lean ====
section
/-! DEFINITION. Shaping programs (R209 to R211) and the arithmetic of their operations on working images (R212 to R222). -/

namespace Sys2Proof.Machine

/-! ## Programs -/

/-- The program at the head of a byte string: its header and its entries (R209, R210). -/
def shapeProg (b : List Byte) : ShapeProg :=
  { scale := (List.range 4).map (fun c => fld b (48 + 4 * c) 4), mean := (List.range 4).map (fun c => fld b (32 + 4 * c) 4)
    componentsOut := fld b 5 1, layout := fld b 4 1, outType := fld b 3 1, matrix := fld b 2 1
    ops := (List.range (min 16 (fld b 1 1))).map (fun n =>
      { op := fld b (64 + 32 * n) 1, purpose := fld b (66 + 32 * n) 2
        p := (List.range 7).map (fun k => fld b (68 + 32 * n + 4 * k) 4) }) }

/-- Parameter k of an operation. -/
def ShapeOp.par (o : ShapeOp) (k : Nat) : Nat := o.p.getD k 0

/-- The parameters of an operation lie in their ranges, the unused ones zero (R210). -/
def shapeParamsOk (o : ShapeOp) : Bool :=
  let p := o.par
  let unused (k : Nat) : Bool := (o.p.drop k).all (· == 0)
  let frac (k : Nat) : Bool := 1 ≤ p k && p k ≤ 65536
  let size (k : Nat) : Bool := 1 ≤ p k && p k ≤ 16384
  match o.op with
  | 0x01 => frac 0 && frac 1 && frac 2 && frac 3 && p 0 ≤ p 1 && p 2 ≤ p 3 && p 4 ≤ 1 && unused 5
  | 0x02 => size 0 && size 1 && p 2 ≤ 2 && unused 3
  | 0x03 => p 0 ≤ 65536 && p 1 ≤ 65536 && unused 2
  | 0x04 => p 0 ≤ 1023 && p 0 ≤ p 1 && p 1 ≤ p 0 + 1023 && 16384 ≤ p 2 && p 2 ≤ p 3 && p 3 ≤ 262144 && p 4 ≤ 4096 && p 5 ≤ 4096
      && p 6 ≤ 65535
  | 0x05 => p 0 ≤ p 1 && p 1 ≤ 1024 && p 2 ≤ p 3 && p 3 ≤ 1024 && p 4 ≤ p 5 && p 5 ≤ 1024 && unused 6
  | 0x06 => size 0 && size 1 && p 2 ≤ 65536 && p 3 ≤ 65535 && unused 4
  | 0x07 => p 0 ≤ p 1 && p 1 ≤ 65536 && unused 2
  | _ => false

/-- A float element type of an output (R209). -/
def floatOut (t : Nat) : Bool := t == 7 || t == 5 || t == 6

/-- A binary32 pattern is finite. -/
def finite32 (v : Nat) : Bool := v / 2 ^ 23 % 256 != 255

/-- Entry n passes check 5. -/
def shapeEntryOk (g : ShapeProg) (n : Nat) : Bool :=
  match g.ops[n]? with
  | none => true
  | some o => 1 ≤ o.purpose && o.purpose ≤ 0xFF && !(g.ops.take n).any (fun x => x.purpose == o.purpose) && shapeParamsOk o

/-- Check 6: MIXUP only as the last entry, after a RESIZE as the last of the size operations, with a float output. -/
def shapeMixupOk (g : ShapeProg) : Bool :=
  let body := g.ops.dropLast
  !body.any (fun o => o.op == 7)
  && (match g.ops.getLast? with
    | some o => o.op != 7 || (floatOut g.outType && (match (body.filter (fun x => x.op == 1 || x.op == 2)).getLast? with
        | some x => x.op == 2
        | none => false))
    | none => true)

/-- The entry that check 6 names: the first MIXUP that is not the last entry, else the last. -/
def mixupEntry (g : ShapeProg) : Nat := (g.ops.dropLast.findIdx? (fun o => o.op == 7)).getD (g.ops.length - 1)

/-- The program check of R211: the number of the first check that fails, with the entry of checks 5 and 6, none when all pass. -/
def shapeCheck (b : List Byte) : Option (Nat × Nat) :=
  let g := shapeProg b
  let outs := if g.componentsOut == 0 then 4 else g.componentsOut
  if fld b 0 1 != 1 || 16 < fld b 1 1 then some (1, 0)
  else if !zeros b 6 26 || (List.range g.ops.length).any (fun n => fld b (65 + 32 * n) 1 != 0) then some (2, 0)
  else if 2 < g.matrix || 1 < g.layout || !(floatOut g.outType || g.outType == 1 || g.outType == 8) || 4 < g.componentsOut then some (3, 0)
  else if floatOut g.outType && !((g.mean.take outs).all finite32 && (g.scale.take outs).all finite32) then some (4, 0)
  else
    match (List.range g.ops.length).find? (fun n => !shapeEntryOk g n) with
    | some n => some (5, n)
    | none => if shapeMixupOk g then none else some (6, mixupEntry g)

/-- The MIXUP of a program. -/
def mixupOp (g : ShapeProg) : Option ShapeOp := g.ops.find? (fun o => o.op == 7)

/-! ## Working images (R212, R213) -/

/-- A working image: size, bit depth, and its components row by row. -/
structure Img where
  w : Nat
  h : Nat
  depth : Nat
  planes : List (List Nat)
deriving DecidableEq, Repr

def Img.at (m : Img) (c x y : Nat) : Nat := (m.planes.getD c []).getD (y * m.w + x) 0

/-- The greatest sample value. -/
def Img.top (m : Img) : Nat := 2 ^ m.depth - 1

/-- An image of a size whose sample (c, x, y) a function gives. -/
def Img.build (m : Img) (w h : Nat) (f : Nat → Nat → Nat → Nat) : Img :=
  { m with w := w, h := h, planes := (List.range m.planes.length).map (fun c => (List.range (w * h)).map (fun k => f c (k % w) (k / w))) }

/-- A value clamped to the sample range. -/
def clampSample (top : Nat) (v : Int) : Nat := (clampInt 0 top v).toNat

/-- What a frame record says of its frame. -/
def recordShape (r : Nat) : FrameShape :=
  { format := bitsOf r 207 200, width := bitsOf r 143 128, height := bitsOf r 127 112, components := bitsOf r 183 176,
    bitDepth := bitsOf r 191 184, sampling := bitsOf r 223 208, stats := 0 }

/-- The window of a frame (R212, step 1), sample reads given by a function of plane, column and row. -/
def frameWindow (r : Nat) (sample : Nat → Nat → Nat → Nat) : Img :=
  let f := recordShape r
  let w := bitsOf r 415 400
  let h := bitsOf r 399 384
  let hm := sampHMax f.sampling f.components
  let vm := sampVMax f.sampling f.components
  { w := w, h := h, depth := f.bitDepth
    planes := (List.range f.components).map (fun c => (List.range (w * h)).map (fun k =>
      sample c ((k % w + bitsOf r 175 160) * sampH f.sampling c / hm) ((k / w + bitsOf r 159 144) * sampV f.sampling c / vm))) }

/-- Colour conversion of one sample (R213). -/
def convertPixel (matrix depth : Nat) (y cb cr : Int) : List Nat :=
  let h : Int := 2 ^ (depth - 1)
  let s : Int := 2 ^ (depth - 8)
  let top := 2 ^ depth - 1
  let vs : List Int :=
    if matrix == 1 then
      [(256 * y + 359 * (cr - h) + 128) / 256, (256 * y - 88 * (cb - h) - 183 * (cr - h) + 128) / 256, (256 * y + 454 * (cb - h) + 128) / 256]
    else
      [(298 * (y - 16 * s) + 459 * (cr - h) + 128) / 256, (298 * (y - 16 * s) - 55 * (cb - h) - 136 * (cr - h) + 128) / 256,
       (298 * (y - 16 * s) + 541 * (cb - h) + 128) / 256]
  vs.map (clampSample top)

/-- Conversion (R212, step 2). -/
def convertImg (matrix format : Nat) (m : Img) : Img :=
  if matrix == 0 || !(format == 1 || isVideo format) || m.planes.length != 3 then m
  else m.build m.w m.h (fun c x y => (convertPixel matrix m.depth (m.at 0 x y) (m.at 1 x y) (m.at 2 x y)).getD c 0)

/-- Component mapping (R212, step 3). -/
def mapComponents (out : Nat) (m : Img) : Img :=
  let n := m.planes.length
  if out == 0 then m
  else
    let pick (c : Nat) : List Nat :=
      if c < 3 then m.planes.getD (if 3 ≤ n then c else 0) []
      else if n == 2 || n == 4 then m.planes.getD (n - 1) []
      else List.replicate (m.w * m.h) m.top
    { m with planes := (List.range out).map pick }

/-- The colour components (R212). -/
def colourCount (m : Img) : Nat := if 3 ≤ m.planes.length then 3 else 1

/-! ## Operations (R214 to R220) -/

/-- The choices of a sample: the draw identity of a purpose and a choice number. -/
abbrev Chooser := Nat → Nat → DrawId

/-- The choices an operation makes (R214, R215, R219): one call each. -/
def opChoices (ch : Chooser) (o : ShapeOp) : Nat :=
  match o.op with
  | 0x01 => if o.par 4 == 1 then 2 else 4
  | 0x03 => 2
  | 0x04 => 4
  | 0x05 => 3
  | 0x06 => if drawBernoulli (ch o.purpose 0) (o.par 2) 0 then 3 else 1
  | _ => 0

/-- An integer choice (R214). -/
def choose (ch : Chooser) (purpose c lo hi : Nat) : Nat := lo + drawBelow (ch purpose c) (hi - lo + 1) 0

/-- A window of an image (R215). -/
def cropImg (m : Img) (x0 y0 w h : Nat) : Img := m.build w h (fun c x y => m.at c (x + x0) (y + y0))

/-- A fraction of a size, at least 1 (R215). -/
def cropSize (n frac : Nat) : Nat := max 1 (n * frac / 65536)

/-- CROP (R215). -/
def opCrop (ch : Chooser) (o : ShapeOp) (m : Img) : Img :=
  let cw := cropSize m.w (choose ch o.purpose 0 (o.par 0) (o.par 1))
  let cht := cropSize m.h (choose ch o.purpose 1 (o.par 2) (o.par 3))
  if o.par 4 == 1 then cropImg m ((m.w - cw) / 2) ((m.h - cht) / 2) cw cht
  else cropImg m (choose ch o.purpose 2 0 (m.w - cw)) (choose ch o.purpose 3 0 (m.h - cht)) cw cht

/-- The source position of an output index in units of 2^-16 (R216). -/
def resizePos (u n out : Nat) : Int := ((2 * u + 1) * n * 2 ^ 15 / out : Nat) - 2 ^ 15

/-- 64·k(t) for a distance of d/64, times 8,192 (R216). -/
def bicubicNum (d : Int) : Int :=
  if d ≤ 64 then 3 * d ^ 3 - 320 * d ^ 2 + 524288 else if d < 128 then -d ^ 3 + 320 * d ^ 2 - 32768 * d + 1048576 else 0

/-- The taps of an output index: source indices with their weights, which sum to 64 (R216). -/
def resizeTaps (filter : Nat) (x : Int) : List (Int × Int) :=
  let i := x / 2 ^ 16
  let p := (x - i * 2 ^ 16) / 2 ^ 10
  match filter with
  | 0 => [((x + 2 ^ 15) / 2 ^ 16, 64)]
  | 1 => [(i, 64 - p), (i + 1, p)]
  | _ =>
    let w (d : Int) : Int := (2 * bicubicNum d + 8192) / 16384
    let ws := [w (64 + p), w p, w (64 - p), w (128 - p)]
    let gap := 64 - ws.foldl (· + ·) 0
    [(i - 1, ws.getD 0 0), (i, ws.getD 1 0 + if p < 32 then gap else 0), (i + 1, ws.getD 2 0 + if p < 32 then 0 else gap), (i + 2, ws.getD 3 0)]

/-- A filtered value (R216). -/
def filtered (top n : Nat) (taps : List (Int × Int)) (sample : Nat → Nat) : Nat :=
  clampSample top ((taps.foldl (fun (a : Int) t => a + t.2 * sample (clampInt 0 (n - 1 : Int) t.1).toNat) 0 + 32) / 64)

/-- RESIZE (R216): rows, then columns. -/
def opResize (o : ShapeOp) (m : Img) : Img :=
  let rows := m.build (o.par 0) m.h (fun c u y => filtered m.top m.w (resizeTaps (o.par 2) (resizePos u m.w (o.par 0))) (fun x => m.at c x y))
  rows.build (o.par 0) (o.par 1) (fun c u v => filtered m.top m.h (resizeTaps (o.par 2) (resizePos v m.h (o.par 1))) (fun y => rows.at c u y))

/-- FLIP (R217). -/
def opFlip (ch : Chooser) (o : ShapeOp) (m : Img) : Img :=
  let hz := drawBernoulli (ch o.purpose 0) (o.par 0) 0
  let vt := drawBernoulli (ch o.purpose 1) (o.par 1) 0
  m.build m.w m.h (fun c x y => m.at c (if hz then m.w - 1 - x else x) (if vt then m.h - 1 - y else y))

/-- Ccos[k] and Csin[k] (R218). -/
def warpTrig (k : Nat) : Int × Int :=
  let (c, s) := cosSinPi 512 (k % 1024)
  let r (v : Int) : Int := (v * 2 ^ 17 + 2 ^ fixBits) / 2 ^ (fixBits + 1)
  (r c, r s)

/-- WARP (R218). -/
def opWarp (ch : Chooser) (o : ShapeOp) (m : Img) : Img :=
  let (cc, cs) := warpTrig (choose ch o.purpose 0 (o.par 0) (o.par 1))
  let sc : Int := choose ch o.purpose 1 (o.par 2) (o.par 3)
  let tx : Int := (choose ch o.purpose 2 0 (2 * o.par 4) : Int) - o.par 4
  let ty : Int := (choose ch o.purpose 3 0 (2 * o.par 5) : Int) - o.par 5
  let a11 := (sc * cc + 2 ^ 15) / 2 ^ 16
  let a21 := (sc * cs + 2 ^ 15) / 2 ^ 16
  let a12 := -a21
  let w : Int := m.w
  let h : Int := m.h
  let px (c : Nat) (i j : Int) : Int :=
    if 0 ≤ i && i < w && 0 ≤ j && j < h then m.at c i.toNat j.toNat else min (o.par 6) m.top
  m.build m.w m.h (fun c u v =>
    let du : Int := 2 * u - (w - 1)
    let dv : Int := 2 * v - (h - 1)
    let x := (a11 * du + a12 * dv) / 2 + (w - 1) * 2 ^ 15 + tx * 2 ^ 16
    let y := (a21 * du + a11 * dv) / 2 + (h - 1) * 2 ^ 15 + ty * 2 ^ 16
    let i := x / 2 ^ 16
    let j := y / 2 ^ 16
    let fx := (x - i * 2 ^ 16) / 2 ^ 10
    let fy := (y - j * 2 ^ 16) / 2 ^ 10
    clampSample m.top (((64 - fx) * (64 - fy) * px c i j + fx * (64 - fy) * px c (i + 1) j + (64 - fx) * fy * px c i (j + 1)
      + fx * fy * px c (i + 1) (j + 1) + 2048) / 4096))

/-- COLOUR (R220). -/
def opColour (ch : Chooser) (o : ShapeOp) (m : Img) : Img :=
  let b : Int := choose ch o.purpose 0 (o.par 0) (o.par 1)
  let k : Int := choose ch o.purpose 1 (o.par 2) (o.par 3)
  let s : Int := choose ch o.purpose 2 (o.par 4) (o.par 5)
  let half : Int := 2 ^ (m.depth - 1)
  let cl (v : Int) : Int := clampInt 0 m.top v
  let contrast (c x y : Nat) : Int :=
    let bright := cl ((m.at c x y * b + 128) / 256)
    cl (half + ((bright - half) * k + 128) / 256)
  m.build m.w m.h (fun c x y =>
    if colourCount m ≤ c then m.at c x y
    else
      let v := contrast c x y
      if m.planes.length < 3 then v.toNat
      else
        let g := (77 * contrast 0 x y + 150 * contrast 1 x y + 29 * contrast 2 x y + 128) / 256
        clampSample m.top (g + ((v - g) * s + 128) / 256))

/-- CUTOUT (R219). -/
def opCutout (ch : Chooser) (o : ShapeOp) (m : Img) : Img :=
  if !drawBernoulli (ch o.purpose 0) (o.par 2) 0 then m
  else
    let x0 : Int := (choose ch o.purpose 1 0 (m.w - 1) : Int) - (o.par 0 / 2 : Nat)
    let y0 : Int := (choose ch o.purpose 2 0 (m.h - 1) : Int) - (o.par 1 / 2 : Nat)
    m.build m.w m.h (fun c x y =>
      if x0 ≤ x && (x : Int) < x0 + o.par 0 && y0 ≤ y && (y : Int) < y0 + o.par 1 then min (o.par 3) m.top else m.at c x y)

/-- One operation; MIXUP acts on the hamper. -/
def shapeStep (ch : Chooser) (m : Img) (o : ShapeOp) : Img :=
  match o.op with
  | 0x01 => opCrop ch o m
  | 0x02 => opResize o m
  | 0x03 => opFlip ch o m
  | 0x04 => opWarp ch o m
  | 0x05 => opColour ch o m
  | 0x06 => opCutout ch o m
  | _ => m

/-- A frame's window through a program (R212). -/
def shapeImg (g : ShapeProg) (ch : Chooser) (format : Nat) (m : Img) : Img :=
  g.ops.foldl (shapeStep ch) (mapComponents g.componentsOut (convertImg g.matrix format m))

/-! ## Output (R221) -/

/-- A binary32 sum, rounded once. -/
def f32Add (a b : Nat) : Nat :=
  match fltOf fmt32 a, fltOf fmt32 b with
  | .nan, _ => fmt32.nan
  | _, .nan => fmt32.nan
  | .inf s, .inf t => if s == t then fltTo fmt32 (.inf s) else fmt32.nan
  | .inf s, _ => fltTo fmt32 (.inf s)
  | _, .inf t => fltTo fmt32 (.inf t)
  | .fin s m e, .fin t n f =>
    let (v, u) := fltAddFin (.fin s m e) (.fin t n f)
    if v = 0 then (if s && t then 2 ^ 31 else 0) else roundInt fmt32 v u

/-- A binary32 pattern with its sign turned. -/
def f32Neg (a : Nat) : Nat := if a < 2 ^ 31 then a + 2 ^ 31 else a - 2 ^ 31

/-- A binary32 product, rounded once. -/
def f32Mul (a b : Nat) : Nat := fltTo fmt32 (fltMul (fltOf fmt32 a) (fltOf fmt32 b))

/-- The normalised value of a result (R221). -/
def normalise (mean scale x : Nat) : Nat := f32Mul (f32Add (roundInt fmt32 x 0) (f32Neg mean)) scale

/-- A binary32 value as an output element's bytes. -/
def floatBytes (t y : Nat) : List Byte :=
  match t with
  | 5 => leBytes 2 (fltTo fmtB16 (fltOf fmt32 y))
  | 6 => leBytes 2 (fltTo fmt16 (fltOf fmt32 y))
  | _ => leBytes 4 y

/-- The components and samples of an image in the order LAYOUT names. -/
def imgOrder (layout : Nat) (m : Img) : List (Nat × Nat) :=
  let n := m.w * m.h
  let k := m.planes.length
  if layout == 0 then (List.range k).flatMap (fun c => (m.planes.getD c []).map (fun v => (c, v)))
  else (List.range n).flatMap (fun i => (List.range k).map (fun c => (c, (m.planes.getD c []).getD i 0)))

/-- The normalised elements of an image; none for an integer output. -/
def imgNorm (g : ShapeProg) (m : Img) : List Nat :=
  if floatOut g.outType then (imgOrder g.layout m).map (fun e => normalise (g.mean.getD e.1 0) (g.scale.getD e.1 0) e.2) else []

/-- The bytes of an image. -/
def imgBytes (g : ShapeProg) (m : Img) : List Byte :=
  if floatOut g.outType then (imgNorm g m).flatMap (floatBytes g.outType)
  else (imgOrder g.layout m).flatMap (fun e =>
    if g.outType == 8 then leBytes 2 e.2 else leBytes 1 (if m.depth ≤ 8 then e.2 else e.2 / 2 ^ (m.depth - 8)))

/-! ## Sizes (R223) and mixup (R222) -/

/-- The largest working image a program produces from a size. -/
def largestImg (ops : List ShapeOp) (w h : Nat) : Nat :=
  (ops.foldl (fun (e : Nat × Nat × Nat) o =>
    let (w, h) := match o.op with
      | 0x01 => (cropSize e.2.1 (o.par 1), cropSize e.2.2 (o.par 3))
      | 0x02 => (o.par 0, o.par 1)
      | _ => (e.2.1, e.2.2)
    (max e.1 (w * h), w, h)) (w * h, w, h)).1

/-- The results of each weighted sum over samples that a program makes of a frame's component: conversion, the rows and the columns of
a RESIZE, WARP and COLOUR, at the sizes its choices give; and those a float output has the drain path normalise (R208). -/
def weightedSums (g : ShapeProg) (ch : Chooser) (convert : Bool) (w h : Nat) : List Nat :=
  let (sums, w, h) := g.ops.foldl (fun (e : List Nat × Nat × Nat) o =>
    let (l, w, h) := e
    match o.op with
    | 0x01 => (l, cropSize w (choose ch o.purpose 0 (o.par 0) (o.par 1)), cropSize h (choose ch o.purpose 1 (o.par 2) (o.par 3)))
    | 0x02 => (l ++ [o.par 0 * h, o.par 0 * o.par 1], o.par 0, o.par 1)
    | 0x04 => (l ++ [w * h], w, h)
    | 0x05 => (l ++ [w * h], w, h)
    | _ => (l, w, h)) (if convert then [w * h] else [], w, h)
  if floatOut g.outType then sums ++ [w * h] else sums

/-- The mixed values of one member: λ·y + μ·z, each step rounded (R222). -/
def mixValues (lam16 : Nat) (y z : List Nat) : List Nat :=
  let lam := roundInt fmt32 lam16 (-16)
  let mu := roundInt fmt32 (65536 - lam16 : Nat) (-16)
  (y.zip z).map (fun e => f32Add (f32Mul lam e.1) (f32Mul mu e.2))

end Sys2Proof.Machine
end

