-- ==== Sys2Proof/Machine/Txa.lean ====
section
/-! DEFINITION. The transform array's commands (R54 to R76). -/

namespace Sys2Proof.Machine

/-- The parameters of an item pass the checks of its dispatch (R76): R57, and in mode 3 a prime set the job may use, with a limb
of it. -/
def txaParamOk (s : State) (i : TxaItem) : Bool :=
  txaRangesOk i.p && (i.p.mode != 3 || (setUsable s i.slot i.p.set && i.p.limb < (setOf s i.p.set).l + (setOf s i.p.set).k))

/-- Every extent of an item lies in its job's window (R321). -/
def txaExtentsOk (s : State) (i : TxaItem) : Bool :=
  (txaWrites i.p :: txaReads i.p).all (fun e => inWindow (txaWindow s i.slot).2 e.1 e.2)

/-! ## What a tile holds -/

def regsOf (s : State) (t : Nat) : TileRegs := tblGet {} s.txa.regs t
def setRegs (s : State) (t : Nat) (r : TileRegs) : State := { s with txa := { s.txa with regs := tblSet {} s.txa.regs t r } }

/-- The starting rows of an item: zero, or the preload. In mode 0 the spec states no value for a preload in a format other than
I32 (log entry 3). -/
def txaStart (s : State) (i : TxaItem) : List (List Acc) × State :=
  let base := (txaWindow s i.slot).1
  let count := i.p.rowCount * txaCols i.p.mode
  if i.p.init == 0 then (zeroRows i.p, s)
  else if i.p.mode == 0 && i.p.outType != 11 then
    let (f, s) := drawFree s (2 ^ (32 * count))
    (preloadRows i.p ((List.range count).map (fun k => f / 2 ^ (32 * k) % 2 ^ 32)), s)
  else (preloadRows i.p (elements (txaOutElem i.p) count (cellsGet s.mem.txa (base + i.p.initAddr) (count * txaOutElem i.p))), s)

/-- Some line of an extent of an item's window is poisoned. -/
def txaExtentPoisoned (s : State) (i : TxaItem) (e : Nat × Nat) : Bool := txaPoisoned s ((txaWindow s i.slot).1 + e.1) e.2

/-- What an item reads as it takes its tile: its first block, and its preload (R67). -/
def txaFirstReads (p : TxaParams) : List (Nat × Nat) :=
  (p.wBase, txaBlockBytes p.mode) :: (if p.init == 1 then [(p.initAddr, p.rowCount * txaRowBytes p)] else [])

/-- An item takes a tile: its first block goes into the active weight set and its rows are zeroed or preloaded (R66, R67); of a unit's
work the unit holds the data. -/
def takeTile (s : State) (t : Nat) (i : TxaItem) : State :=
  let s := { s with txa := { s.txa with tiles := tblSet none s.txa.tiles t (some i) } }
  if i.part.isSome then setRegs s t { regsOf s t with since := s.boot.timeBase }
  else
    let block := cellsGet s.mem.txa ((txaWindow s i.slot).1 + i.p.wBase) (txaBlockBytes i.p.mode)
    let poisoned := (txaFirstReads i.p).any (txaExtentPoisoned s i)
    let (start, s) := txaStart s i
    let r := regsOf s t
    setRegs s t { r with
      active := loadWeights i.p block, acc := start ++ r.acc.drop start.length, poisoned := poisoned, since := s.boot.timeBase }

/-! ## The work of units (R82, R89, R208) -/

/-- A unit's work enters the array. -/
def addWork (s : State) (slot : Nat) (user : ArrayUser) (mode passes rows count : Nat) : State :=
  if count == 0 then s
  else { s with txa := { s.txa with
    work := s.txa.work ++ [{ id := s.txa.nextWork, slot := slot, user := user, mode := mode, passes := passes, rows := rows, left := count }]
    nextWork := s.txa.nextWork + 1 } }

/-- A unit has work in the array. -/
def working (s : State) (user : ArrayUser) : Bool := s.txa.work.any (fun w => w.user == user)

/-- A unit's work leaves the array. -/
def dropWork (s : State) (user : ArrayUser) : State :=
  { s with txa := { s.txa with work := s.txa.work.filter (fun w => w.user != user) } }

/-- The next item of a work. -/
def workItem (w : ArrayWork) : TxaItem :=
  { cmd := 0, slot := w.slot, part := some w.id
    p := { mode := w.mode, xtype := 0, wtype := 0, passes := w.passes - 1, rows := w.rows - 1, init := 0, outType := 0, set := 0, limb := 0,
           shift := if w.mode == 4 then 72 else 0, wBase := 0, wStride := 0, xBase := 0, xStride := 0, initAddr := 0, outAddr := 0,
           reserved := true } }

/-- The works with an item ready: of each user's the first, whose results the next takes (R82, R89). -/
def readyWorks (s : State) : List ArrayWork :=
  s.txa.work.filter (fun w => w.left != 0 && !s.txa.work.any (fun v => v.user == w.user && v.id < w.id))

/-- The oldest item a slot has ready: of its commands, else of its units' work. -/
def readyItem (s : State) (n : Nat) : Option TxaItem :=
  match s.txa.queue.find? (fun i => i.slot == n) with
  | some i => some i
  | none => ((readyWorks s).find? (fun w => w.slot == n)).map workItem

/-- An item leaves those ready. -/
def takeReady (s : State) (i : TxaItem) : State :=
  match i.part with
  | none => { s with txa := { s.txa with queue := s.txa.queue.erase i } }
  | some id => { s with txa := { s.txa with
      work := s.txa.work.map (fun w => if w.id == id then { w with left := w.left - 1, running := w.running + 1 } else w) } }

/-- The unit whose item finds no tile in service ends its own item: the forge its command's, shaping and BAT with their slot (R72). -/
def refuseUser (s : State) (user : ArrayUser) : State :=
  match user with
  | .shape _ _ => s
  | .hamper _ _ => s
  | .forge cmd =>
    match s.forge.run with
    | none => s
    | some r =>
      if r.item.cmd != cmd then s
      else
        let s := { s with forge := { s.forge with run := none } }
        finishCmd (freeBuffers s r.item.slot [r.work]) cmd 0x0306 1 0

/-- An item is refused: its command with its code; a unit's with all the unit's work (R72). -/
def refuseReady (s : State) (i : TxaItem) (code : Nat) : State :=
  match i.part with
  | none => refuseItem (takeReady s i) i.cmd i.slot code
  | some id =>
    match s.txa.work.find? (fun w => w.id == id) with
    | none => s
    | some w => errFault (refuseUser (dropWork s w.user) w.user) i.slot code

/-- TXA_DISPATCH (R58, R72, R76): of the slots with items the one R25 chooses gives its oldest item to the lowest tile in service
and free. With no tile in service the item is refused; a bad parameter or extent refuses it too. -/
def execTxaDispatch (s : State) : Result :=
  .next (
    let slots := (s.txa.queue.map (·.slot) ++ (readyWorks s).map (·.slot)).eraseDups
    match arbPick s unitTxa slots with
    | none => s
    | some n =>
      match readyItem s n with
      | none => s
      | some i =>
        if !unitsDispatch s then s
        else if (serviceList s .txa).isEmpty then refuseReady s i 0x0306
        else
          match freeUnit s .txa with
          | none => s
          | some t =>
            if i.part.isNone && !txaParamOk s i then refuseReady s i 0x0305
            else if i.part.isNone && !txaExtentsOk s i then refuseReady s i 0x0F04
            else takeTile (arbGrant (takeReady s i) unitTxa n slots) t i)

/-! ## The end of an item -/

/-- Some line an item reads after it has taken its tile is poisoned. -/
def txaInputPoisoned (s : State) (i : TxaItem) : Bool := (txaReads i.p).any (txaExtentPoisoned s i)

/-- Raise an error k times. -/
def raiseTimes (s : State) (code slot : Nat) : Nat → State
  | 0 => s
  | k + 1 => raiseTimes (raiseErr s code slot) code slot k

/-- The drained rows of an item are written: all poisoned after a poisoned input or a second mismatch, else only the lines of FXP72
values out of range (R65, R71, R413). -/
def txaStore (s : State) (i : TxaItem) (o : TxaOut) (poisoned : Bool) : State :=
  let out := (txaWindow s i.slot).1 + i.p.outAddr
  if poisoned then txaWritePoisoned s out o.bytes
  else txaMark (txaWrite s out o.bytes) ((o.ovf.map (fun off => (out + off) / 64)).eraseDups)

/-- A command's item as its tile runs it, from what the tile took and the bytes of its window. -/
def txaRun (s : State) (i : TxaItem) (t : Nat) (faults : List TxaFault) : TxaProg :=
  let r := regsOf s t
  let base := (txaWindow s i.slot).1
  txaPasses i.p (recOf (setOf s i.p.set) i.p.limb).q faults (fun off n => cellsGet s.mem.txa (base + off) n) (List.range i.p.passCount)
    { active := r.active, shadow := r.shadow, rows := r.acc.take i.p.rowCount }

/-- An item ends with what it made: its rows are stored, its errors raised, and after a second mismatch its tile is retired (R71). -/
def txaFinish (s : State) (i : TxaItem) (t : Nat) (g : TxaProg) : State :=
  let failed := g.failed.isSome
  let poisoned := (regsOf s t).poisoned || txaInputPoisoned s i || failed
  let o := txaDrain i.p g.rows
  let r := regsOf s t
  let s := setRegs s t { r with active := g.active, shadow := g.shadow, acc := g.rows ++ r.acc.drop g.rows.length }
  let s := txaStore s i o poisoned
  let s := bumpBy (raiseTimes s 0x0301 i.slot (g.retries + (if failed then 1 else 0))) 0x8030 2 g.retries
  let s := if g.saturated then raiseErr s 0x0303 i.slot else s
  let s := raiseTimes s 0x0304 i.slot o.ovf.length
  let s := if failed then retireUnit (raiseErr s 0x0302 i.slot) .txa t else s
  let status := if g.status != 0 then g.status else if o.ovf.isEmpty then 0 else 0x0304
  let flags := flagDone + (if poisoned || !o.ovf.isEmpty then flagPoisoned else 0) + (if g.saturated then flagSaturated else 0)
    + (if g.retries != 0 || failed then flagRetried else 0)
  finishCmd s i.cmd status flags 0

/-- What a fault's disturbance of a unit's item comes to: the columns and their checksum agree but for it, so a mismatch is a sum
that is no multiple of 2^32 (R70). -/
def disturbs (l : List (Nat × Int)) : Bool := !checkHolds 4 (l.map (·.2)) 0

/-- The vectors of a unit's item that passed when issued again, and the first that failed twice. -/
def partChecks (faults : List TxaFault) : Nat × Option (Nat × Nat) :=
  let hit := faults.filter (fun f => disturbs f.first)
  match hit.find? (fun f => disturbs f.second) with
  | some f => ((hit.takeWhile (fun f => !disturbs f.second)).length, some (f.pass, f.row))
  | none => (hit.length, none)

/-- The user of a work learns that one of its items was written poisoned: what depends on it is poisoned (R71, R91). -/
def spoilUser (s : State) (user : ArrayUser) : State :=
  match user with
  | .shape n x => { s with mdc := { s.mdc with
      outcomes := s.mdc.outcomes.map (fun d => if d.slot == n && d.sample == x then { d with spoiled := true } else d) } }
  | .hamper _ cmd => { s with bat := { s.bat with
      stages := s.bat.stages.map (fun b => if b.cmd == cmd then { b with mixing := some true } else b) } }
  | .forge cmd =>
    match s.forge.run with
    | none => s
    | some r => if r.item.cmd == cmd then { s with forge := { s.forge with run := some { r with spoiled := true } } } else s

/-- One item of a work has ended; the work leaves with its last. -/
def endPart (s : State) (id : Nat) : State :=
  { s with txa := { s.txa with
      work := (s.txa.work.map (fun w => if w.id == id then { w with running := w.running - 1 } else w)).filter
        (fun w => w.id != id || w.left != 0 || w.running != 0) } }

/-- An item of a unit's work ends (R71). -/
def partFinish (s : State) (i : TxaItem) (id t retries : Nat) (failed : Bool) : State :=
  let s := bumpBy (raiseTimes s 0x0301 i.slot (retries + (if failed then 1 else 0))) 0x8030 2 retries
  let user := (s.txa.work.find? (fun w => w.id == id)).map (·.user)
  let s := endPart s id
  if !failed then s
  else
    let s := match user with
      | some u => spoilUser s u
      | none => s
    retireUnit (raiseErr s 0x0302 i.slot) .txa t

/-- TXA_ITEM_COMPLETE (R68, R71): a tile's item ends. The operands are the faults of the grid at its vectors, and how its reads of
staging went (R410). -/
def execTxaItemComplete (tile : Nat) (faults : List TxaFault) (reads : SramReads) (s : State) : Result :=
  .next (match tblGet none s.txa.tiles tile with
    | none => s
    | some i =>
      let s := sramReads s 1 i.slot reads
      let s := { s with txa := { s.txa with tiles := tblSet none s.txa.tiles tile none } }
      let g := txaRun s i tile faults
      let (retries, failed) := if i.part.isSome then partChecks faults else (g.retries, g.failed)
      let s := match i.part with
        | some id => partFinish s i id tile retries failed.isSome
        | none => txaFinish s i tile g
      unitDone (bumpBy (bump s 0x8030 8) 0x8030 9 (txaFclk i.p retries failed)) .txa tile)

/-- An item leaves its tile unfinished: the FCLK it has occupied it are counted (R76). -/
def abandonTile (s : State) (t : Nat) : State :=
  let s := { s with txa := { s.txa with tiles := tblSet none s.txa.tiles t none } }
  let (n, s) := elapsedFclk s (regsOf s t).since
  unitDone (bumpBy s 0x8030 9 n) .txa t

/-- TXA_TILE_ENABLE_WRITE (R73). -/
def execTxaTileEnableWrite (via : Via) (high : Bool) (value : Nat) (s : State) : Result := .next (enableWrite .txa high 8 via value s)

end Sys2Proof.Machine
end

