-- ==== Sys2Proof/Machine/Shape.lean ====
section
/-! DEFINITION. The shaping stage (R208, R212, R214, R223): a decoded sample through its job's program. -/

namespace Sys2Proof.Machine

/-- The arbitration numbers of the shaping stage and of BAT, for their waits after RETRY_LATER (R259). -/
def unitShape : Nat := 9
def unitBat : Nat := 10

/-- The frame record at a buffer. -/
def frameAt (s : State) (buf : Nat) : Nat := memNat s buf 64

/-- Some working sample of a frame is read from a poisoned granule (R212, R223): in each plane the rows of the window, each from its first
column to its last. -/
def framePoisoned (s : State) (buf : Nat) : Bool :=
  let r := frameAt s buf
  let f := recordShape r
  let w := bitsOf r 415 400
  (List.range f.components).any (fun c =>
    let col (x : Nat) : Nat := (x + bitsOf r 175 160) * sampH f.sampling c / sampHMax f.sampling f.components
    w != 0 && (List.range (bitsOf r 399 384)).any (fun y =>
      let row := (y + bitsOf r 159 144) * sampV f.sampling c / sampVMax f.sampling f.components
      memPoisoned s (buf + f.layout.planes.getD c 0 + row * f.pitch c + col 0 * f.elem) ((col (w - 1) - col 0 + 1) * f.elem)))

/-- A frame's planes are read (R412). -/
def frameReads (s : State) (slot buf : Nat) : State :=
  let f := recordShape (frameAt s buf)
  (List.range f.components).foldl (fun s c => readChecked s slot (buf + f.layout.planes.getD c 0) (f.pitch c * f.compH c)) s

/-- A frame as the shaping stage first sees it (R212). -/
def frameImg (s : State) (buf : Nat) : Img :=
  let r := frameAt s buf
  let f := recordShape r
  frameWindow r (fun c x y => memNat s (buf + f.layout.planes.getD c 0 + y * f.pitch c + x * f.elem) f.elem)

/-- The size of a working buffer for a frame: the largest working image, 2 bytes an element (R223). -/
def workBytes (s : State) (g : ShapeProg) (buf : Nat) : Nat :=
  let r := frameAt s buf
  let comps := if g.componentsOut == 0 then bitsOf r 183 176 else g.componentsOut
  largestImg g.ops (bitsOf r 415 400) (bitsOf r 399 384) * comps * 2

/-- The choices of a sample of a job. -/
def sampleChooser (s : State) (slot sample : Nat) : Chooser := fun purpose draw => jobDraw s slot purpose sample draw

/-- A frame shaped for a sample. -/
def shapeFrame (s : State) (slot sample : Nat) (g : ShapeProg) (buf : Nat) : Img :=
  shapeImg g (sampleChooser s slot sample) (bitsOf (frameAt s buf) 207 200) (frameImg s buf)

/-- The array runs the weighted sums of a frame and its normalisation, in mode 0: for each, one item for every 256 vectors of 64 results
(R208, log entry 194). -/
def shapeWork (s : State) (d : Decoded) (g : ShapeProg) (buf : Nat) : State :=
  let r := frameAt s buf
  let comps := if g.componentsOut == 0 then bitsOf r 183 176 else g.componentsOut
  let convert := g.matrix != 0 && (bitsOf r 207 200 == 1 || isVideo (bitsOf r 207 200)) && bitsOf r 183 176 == 3
  (weightedSums g (sampleChooser s d.slot d.sample) convert (bitsOf r 415 400) (bitsOf r 399 384)).foldl (fun s n =>
    let vectors := ceilDiv (n * comps) 64
    addWork s d.slot (.shape d.slot d.sample) 0 1 (min 256 vectors) (ceilDiv vectors 256)) s

/-- A sample leaves the stage: its working buffers and frames are freed, and BAT gets the outcome. -/
def endShape (s : State) (d : Decoded) (out : Outcome) : State :=
  let s := { s with
    mdc := { s.mdc with outcomes := s.mdc.outcomes.erase d }
    bat := { s.bat with results := s.bat.results ++ [{ slot := d.slot, sample := d.sample, out := out }] } }
  dropFrames (freeBuffers s d.slot d.work) d.slot d.frames

/-- A decoded sample as it now stands. -/
def putDecoded (s : State) (d d' : Decoded) : State :=
  { s with mdc := { s.mdc with outcomes := s.mdc.outcomes.map (fun x => if x == d then d' else x) } }

/-- A sample is read poisoned: it is CORRUPT (R223). -/
def shapePoisoned (s : State) (d : Decoded) : State := endShape (raiseErr s 0x0A03 d.slot) d { code := 0x0A03 }

/-- The array has run a sample's sums: the sample is SHAPED, or CORRUPT when an item of them was written poisoned (R71, R223). -/
def shapeDone (s : State) (d : Decoded) (g : ShapeProg) : State :=
  if d.spoiled then shapePoisoned s d
  else
    let imgs := d.frames.map (shapeFrame s d.slot d.sample g)
    endShape (bump s 0x80A0 4) d { code := 0, result := imgs.flatMap (imgBytes g), norm := imgs.map (imgNorm g) }

/-- The stage has both working buffers: the sample is CORRUPT when a working sample is read poisoned (R223), else its choices are made
(R158, R214) and its sums go to the array. -/
def shapeRun (s : State) (d : Decoded) (g : ShapeProg) : State :=
  let s := d.frames.foldl (fun s b => frameReads s d.slot b) s
  if d.frames.any (framePoisoned s) then shapePoisoned s d
  else
    match needCalls s d.slot (.shape d.slot d.sample) ((g.ops.map (opChoices (sampleChooser s d.slot d.sample))).foldl (· + ·) 0) with
    | (s, false) => s
    | (s, true) =>
      let d' := { d with started := true }
      let s := d.frames.foldl (fun s b => shapeWork s d g b) (putDecoded s d d')
      if working s (.shape d.slot d.sample) then s else shapeDone s d' g

/-- The stage takes its working buffers, one after the other (R223). -/
def shapeBuffers (g : ShapeProg) (size : Nat) : Nat → State → Decoded → State
  | 0, s, _ => s
  | k + 1, s, d =>
    if 2 ≤ d.work.length then shapeRun s d g
    else
      match needBuffer s d.slot size with
      | (none, s) => s
      | (some (c, addr), s) =>
        if c == 0 then
          let d' := { d with work := d.work ++ [addr] }
          shapeBuffers g size k (putDecoded s d d') d'
        else if c == 0x0C08 then retryLater (putDecoded (freeBuffers s d.slot d.work) d { d with work := [] }) d.slot unitShape
        else endShape (raiseErr s 0x0A02 d.slot) d { code := 0x0A02 }

/-- The length of a frame buffer. -/
def frameBytes (s : State) (buf : Nat) : Nat :=
  let r := frameAt s buf
  ({ recordShape r with stats := (if bitsOf r 319 288 != 0 then 1 else 0) + (if bitsOf r 287 256 != 0 then 2 else 0) }).layout.total

/-- The outcome of a decoded sample that no program shapes: the bytes of its frame buffers, poisoned when a granule of them is (R412). -/
def plainFrames (s : State) (d : Decoded) : Outcome :=
  { code := 0, result := d.frames.flatMap (fun b => memBytes s b (frameBytes s b)),
    poisoned := d.frames.any (fun b => memPoisoned s b (frameBytes s b)) }

/-- SHAPE_SAMPLE (R212, R223): the stage of a slot shapes a decoded sample, once its outcome is DECODED (DESIGN CHOICE, log entry 253). -/
def execShapeSample (slot sample : Nat) (s : State) : Result :=
  .next (match s.mdc.outcomes.find? (fun d => d.slot == slot && d.sample == sample), s.bat.stages.find? (fun b => b.slot == slot) with
    | some d, some b =>
      if !unitsWork s || (slotOf s slot).backoff.contains unitShape then s
      else
        match b.prog with
        | none => endShape (d.frames.foldl (fun s b => readChecked s slot b (frameBytes s b)) s) d (plainFrames s d)
        | some g =>
          if d.started then (if working s (.shape slot sample) then s else shapeDone s d g)
          else
          let size := d.frames.foldl (fun n f => max n (workBytes s g f)) 0
          if d.work.isEmpty && !reservationFits s slot size then endShape (raiseErr s 0x0A02 slot) d { code := 0x0A02 }
          else shapeBuffers g size 3 s d
    | _, _ => s)

end Sys2Proof.Machine
end

