-- ==== Sys2Proof/Machine/BatMath.lean ====
section
/-! DEFINITION. The batcher's records (R226 to R231, R238 to R245): its parameters and their checks, the shard index, the buckets,
hamper buffers and skip-log records. -/

namespace Sys2Proof.Machine

/-! ## Parameters and buckets (R226, R227, R231) -/

/-- Check 1 of R227. -/
def batParamsOk (p : BatParams) : Bool :=
  p.reserved && p.indexAddr % 64 == 0 && p.indexAddr < 2 ^ 48 && p.bucketAddr % 64 == 0 && p.bucketAddr < 2 ^ 48 && 1 ≤ p.buckets && p.buckets ≤ 64 && 1 ≤ p.epochs
  && p.epochFirst + p.epochs ≤ 2 ^ 32 && p.lastHamper ≤ 1 && p.repeatOnExhaust ≤ 1 && 1 ≤ p.chunksAhead && p.chunksAhead ≤ 16
  && p.hostRing % 64 == 0 && (p.hostEntries == 0 || (4 ≤ p.hostEntries && p.hostEntries ≤ 1024 && isPow2 p.hostEntries))
  && 10 ≤ p.hostTimeout && p.hostTimeout ≤ 10000000 && p.logAddr % 64 == 0 && 64 ≤ p.logEntries && p.logEntries ≤ 65536
  && isPow2 p.logEntries && p.shapeProg % 64 == 0

/-- Check 2 of R227: the shard index header (R228). A poisoned header fails its CRC. -/
def indexHeaderOk (s : State) (addr : Nat) : Bool :=
  let b := memBytes s addr 64
  b.take 6 == [0x53, 0x48, 0x49, 0x58, 0x01, 0x00] && zeros b 6 2 && zeros b 16 44 && 1 ≤ fld b 8 8 && fld b 8 8 ≤ 2 ^ 48
  && !memPoisoned s addr 64 && crc32c (b.take 60) == fld b 60 4

/-- Bucket entry b of a table (R231). -/
def bucketWord (s : State) (addr b : Nat) : Nat := memNat s (addr + 32 * b) 32

def bucketOfWord (w : Nat) : Bucket :=
  { sizeMax := bitsOf w 255 224, sampleBytes := bitsOf w 223 192, hamper := bitsOf w 191 176, elemType := bitsOf w 175 168,
    blanket := bitsOf w 159 96 }

/-- A bucket entry passes R231, but for the rise of SIZE_MAX. -/
def bucketOk (w : Nat) : Bool :=
  let x := bucketOfWord w
  bitsOf w 167 160 == 0 && bitsOf w 95 0 == 0 && 1 ≤ x.elemType && x.elemType ≤ 12 && 64 ≤ x.sampleBytes && x.sampleBytes ≤ 2 ^ 30
  && x.sampleBytes % 64 == 0 && x.sampleBytes % typeBytes x.elemType == 0 && 1 ≤ x.hamper && x.hamper ≤ 4096
  && x.blanket < 256 ^ typeBytes x.elemType

/-- Check 3 of R227: the first bucket that fails it. -/
def badBucket (s : State) (p : BatParams) : Option Nat :=
  (List.range p.buckets).find? (fun b => !(bucketOk (bucketWord s p.bucketAddr b)
    && (b == 0 || bitsOf (bucketWord s p.bucketAddr (b - 1)) 255 224 < bitsOf (bucketWord s p.bucketAddr b) 255 224)))

/-! ## The shard index (R229, R230) -/

/-- A shard index entry. -/
structure ShardEntry where
  addr : Nat
  len : Nat
  crc : Nat
  key : Nat
  kind : Nat
  refresh : Nat
  entry : Nat
deriving DecidableEq, Repr

/-- KIND is one of R230. -/
def kindListed (k : Nat) : Bool := (1 ≤ k && k ≤ 5) || k == 0x10 || k == 0x11 || k == 0x20

/-- Entry x of an index, none when it fails the checks of R229. A poisoned entry fails its CRC. -/
def shardEntry (s : State) (index x : Nat) : Option ShardEntry :=
  let a := index + 64 + 32 * x
  let b := memBytes s a 32
  let w := leNat b
  if memPoisoned s a 32 || crc32c (b.drop 4) != bitsOf w 31 0 || !kindListed (bitsOf w 95 88) || bitsOf w 79 73 != 0 || bitsOf w 71 32 != 0
  then none
  else some { addr := bitsOf w 255 192, len := bitsOf w 191 160, crc := bitsOf w 159 128, key := bitsOf w 127 96, kind := bitsOf w 95 88,
              refresh := bitsOf w 87 80, entry := bitsOf w 72 72 }

/-- The bucket of a size key (R231). -/
def bucketFor (bs : List Bucket) (key : Nat) : Option Nat := bs.findIdx? (fun b => key ≤ b.sizeMax)

/-- The sample of a position of a stage's epoch (R232). -/
def sampleAt (s : State) (b : BatStage) (p : Nat) : Nat := epochPerm (slotOf s b.slot).job.jobSeed b.epoch b.n p

/-- Why the sample of a position is excluded: BAT_INDEX_CRC or BAT_NO_BUCKET (R229, R231), 0 when it is not. -/
def excludedCode (s : State) (b : BatStage) (p : Nat) : Nat :=
  match shardEntry s b.p.indexAddr (sampleAt s b p) with
  | none => 0x0B03
  | some e => if (bucketFor b.buckets e.key).isNone then 0x0B04 else 0

/-- The bucket of a position's sample, none when it is excluded. -/
def positionBucket (s : State) (b : BatStage) (p : Nat) : Option Nat :=
  (shardEntry s b.p.indexAddr (sampleAt s b p)).bind (fun e => bucketFor b.buckets e.key)

/-! ## Chunks (R241) -/

def chunkOf (p : Nat) : Nat := p / 256

/-- The positions of a chunk. -/
def chunkPositions (b : BatStage) (c : Nat) : List Nat := ((List.range 256).map (· + 256 * c)).filter (fun p => p < b.n)

def outcomeAt (b : BatStage) (p : Nat) : Option Outcome := tblGet none b.outcomes p

/-- The outcome of a position is still to come: it is not excluded, and not known. -/
def positionPending (s : State) (b : BatStage) (p : Nat) : Bool := excludedCode s b p == 0 && (outcomeAt b p).isNone

/-- A position is to be processed in its chunk: its outcome is to come, and it is not issued as a spare. -/
def positionOpen (s : State) (b : BatStage) (p : Nat) : Bool := positionPending s b p && !b.spares.any (fun e => e.1 == p)

/-- The engines of a job's stripe (R241). -/
def stripeDies (s : State) (slot : Nat) : List Nat :=
  (List.range 8).filter (fun d => (slotOf s slot).job.stripe.testBit d && (d == dieId s || dieAdmitted s d))

/-- The chunks outstanding on an engine. -/
def outstanding (b : BatStage) (d : Nat) : Nat := b.chunks.countP (fun e => e.2 == .engine d)

/-- The engine with the fewest outstanding chunks, ties to the lowest die (R237, R241). -/
def leastLoaded (s : State) (b : BatStage) : Option Nat :=
  (stripeDies s b.slot).foldl (fun best d =>
    match best with
    | none => some d
    | some x => if outstanding b d < outstanding b x then some d else some x) none

/-! ## Hampers (R236 to R240) -/

def bucketAt (b : BatStage) (k : Nat) : Bucket := b.buckets.getD k { sizeMax := 0, sampleBytes := 64, hamper := 1, elemType := 1, blanket := 0 }

/-- DATA_OFFSET and the length of a hamper buffer (R238). -/
def dataOffset (h : Nat) : Nat := ceilDiv (64 + 32 * h) 4096 * 4096
def hamperBytes (x : Bucket) : Nat := dataOffset x.hamper + x.hamper * x.sampleBytes

/-- Blanket fill of n bytes (R240). -/
def blanketBytes (x : Bucket) (n : Nat) : List Byte :=
  let e := typeBytes x.elemType
  (List.range n).map (fun i => byteOf x.blanket (i % e))

/-- The pair of a slot under mixup (R222): its partner and the pair's λ16, none when it is unpaired. -/
def mixOf (s : State) (b : BatStage) (h : Hamper) (j : Nat) : Option (Nat × Nat) :=
  match b.prog.bind mixupOp with
  | none => none
  | some o =>
    let k := h.slots.length - 1 - j
    if h.slots.length ≤ j || k == j then none
    else
      let lower := (h.slots[min j k]?).elim 0 (fun x => x.sample)
      some (k, choose (fun purpose draw => jobDraw s b.slot purpose lower draw) o.purpose 0 (o.par 0) (o.par 1))

/-- The normalised values of a host's result, frame by frame (R222): its bytes are they for an FP32 output. The frames of a video are cut
by the program's last RESIZE and its component count; with none stated there, and for BF16 and FP16 outputs, they are not held. -/
def hostNorm (b : BatStage) (video : Bool) (bytes : List Byte) : List (List Nat) :=
  match b.prog with
  | none => []
  | some g =>
    let n := match (g.ops.filter (fun o => o.op == 2)).getLast? with
      | some o => if video then o.par 0 * o.par 1 * g.componentsOut else bytes.length / 4
      | none => 0
    if g.outType != 7 || n == 0 || bytes.length % (4 * n) != 0 then []
    else chunksOf n (bytes.length / (4 * n)) (elements 4 (bytes.length / 4) bytes)

/-- The bytes of a slot after mixup: each frame against the partner's, the last one repeated; unstated where the normalised values
of a member are not held or do not match (log entry 3). -/
def mixedBytes (s : State) (b : BatStage) (y z : Outcome) (lam16 : Nat) : List Byte × State :=
  let t := (b.prog.map (·.outType)).getD 7
  let pairs := y.norm.zipIdx.map (fun e => (e.1, z.norm.getD (min e.2 (z.norm.length - 1)) []))
  if !y.norm.isEmpty && !z.norm.isEmpty && pairs.all (fun e => e.1.length == e.2.length) then
    (pairs.flatMap (fun e => (mixValues lam16 e.1 e.2).flatMap (floatBytes t)), s)
  else
    let (base, s) := reserveFree s y.result.length
    (freeBytes base y.result.length, s)

/-- A slot table entry (R239). -/
def slotEntry (x : Option HamperSlot) (i : Nat) (mix : Option (Nat × Nat)) : List Byte :=
  let (partner, lam) := mix.getD (i, 65536)
  match x with
  | none => leBytes 32 (65536 * 2 ^ 96 + i * 2 ^ 64)
  | some h =>
    let flags := 1 + (if h.spare then 2 else 0) + (if h.rep then 4 else 0) + (if h.out.poisoned then 8 else 0) + (if h.out.truncated then 16 else 0)
    leBytes 32 (h.sample * 2 ^ 208 + h.position * 2 ^ 160 + h.out.result.length * 2 ^ 128 + lam * 2 ^ 96 + partner * 2 ^ 64 + flags)

/-- The hamper record (R238); MIXED stands for a program with MIXUP, pair or none (DESIGN CHOICE, log entry 255). -/
def hamperRecord (b : BatStage) (h : Hamper) : List Byte :=
  let x := bucketAt b h.bucket
  let extra := h.slots.countP (fun e => e.spare || e.rep)
  let flags := (if h.short then 1 else 0) + (if h.slots.any (·.spare) then 2 else 0) + (if h.slots.any (·.rep) then 4 else 0)
    + (if (b.prog.bind mixupOp).isSome then 8 else 0)
  leBytes 64 (b.epoch * 2 ^ 480 + h.lastPosition * 2 ^ 432 + b.hamperSeq % 2 ^ 32 * 2 ^ 400 + x.hamper * 2 ^ 384 + h.slots.length * 2 ^ 368
    + extra * 2 ^ 352 + h.bucket * 2 ^ 344 + x.elemType * 2 ^ 336 + x.sampleBytes * 2 ^ 304 + dataOffset x.hamper * 2 ^ 272 + flags)

/-- One slot of a hamper buffer is written: its table entry, its result or mixed bytes, its blanket fill (R239, R240); mixed with a
poisoned partner, or by poisoned array items, it is poisoned too (R71, R413). -/
def writeSlot (s : State) (b : BatStage) (h : Hamper) (buf i : Nat) : State :=
  let x := bucketAt b h.bucket
  let at_ := buf + dataOffset x.hamper + i * x.sampleBytes
  let mix := mixOf s b h i
  let bad := mix.elim false (fun m => b.mixing == some true || (h.slots[m.1]?).elim false (fun y => y.out.poisoned))
  let slot := (h.slots[i]?).map (fun x => if bad then { x with out := { x.out with poisoned := true } } else x)
  let s := memWrite s (buf + 64 + 32 * i) (slotEntry slot i mix)
  match slot with
  | none => bumpBy (memWrite s at_ (blanketBytes x x.sampleBytes)) 0x80B0 9 x.sampleBytes
  | some e =>
    let (bytes, s) := match mix with
      | none => (e.out.result, s)
      | some (k, lam) => mixedBytes s b e.out ((h.slots[k]?).elim { code := 0 } (fun y => y.out)) lam
    let fill := x.sampleBytes - bytes.length
    let s := if e.out.poisoned then memWritePoisoned s at_ bytes else memWrite s at_ bytes
    bumpBy (memWrite s (at_ + bytes.length) (blanketBytes x fill)) 0x80B0 9 fill

/-- The pairs of a hamper under mixup (R222). -/
def mixPairs (b : BatStage) (h : Hamper) : Nat := if (b.prog.bind mixupOp).isSome then h.slots.length / 2 else 0

/-- The elements that a hamper's mixup computes: those of its paired slots. -/
def mixElems (s : State) (b : BatStage) (h : Hamper) : Nat :=
  (h.slots.zipIdx.map (fun e =>
    if (mixOf s b h e.2).isSome then e.1.out.result.length / typeBytes (bucketAt b h.bucket).elemType else 0)).foldl (· + ·) 0

/-- A hamper buffer is written (R238 to R240, R222). -/
def writeHamper (s : State) (b : BatStage) (h : Hamper) (buf : Nat) : State :=
  let x := bucketAt b h.bucket
  let s := memWrite s buf (hamperRecord b h)
  let s := (List.range x.hamper).foldl (fun s i => writeSlot s b h buf i) s
  bumpBy s 0x80A0 5 (mixPairs b h)

/-! ## The skip log (R245) -/

/-- FLAGS of a skip-log record. -/
def skSpare : Nat := 1
def skRepeat : Nat := 2
def skHole : Nat := 4
def skNoBucket : Nat := 8
def skHost : Nat := 16
def skAsSpare : Nat := 32

/-- Skip-log record `seq`: the sample and its position, the sample placed in its slot with its position, the code, the flags. -/
def skipRecord (s : State) (b : BatStage) (seq sample pos : Nat) (spare : Option (Nat × Nat)) (code flags : Nat) : List Byte :=
  let (x, p) := spare.getD (2 ^ 48 - 1, 2 ^ 48 - 1)
  leBytes 64 (s.boot.timeBase * 2 ^ 448 + seq % 2 ^ 32 * 2 ^ 416 + b.epoch * 2 ^ 384 + sample * 2 ^ 336 + pos * 2 ^ 288
    + x * 2 ^ 240 + p * 2 ^ 192 + code * 2 ^ 16 + flags)

end Sys2Proof.Machine
end

