-- ==== Sys2Proof/Machine/Bat.lean ====
section
/-! DEFINITION. The batcher (R226 to R247): its stages, the assignment of chunks, the assembly of hampers, and the host share. -/

namespace Sys2Proof.Machine

/-! ## Stages -/

/-- The batch stage of a slot. -/
def batOf (s : State) (slot : Nat) : Option BatStage := s.bat.stages.find? (fun b => b.slot == slot)

/-- A stage as it now stands. -/
def putBat (s : State) (b : BatStage) : State :=
  { s with bat := { s.bat with stages := s.bat.stages.map (fun x => if x.cmd == b.cmd then b else x) } }

/-- The stage of a command. -/
def batCmd (s : State) (cmd : Nat) : Option BatStage := s.bat.stages.find? (fun b => b.cmd == cmd)

/-- A log call takes the next SEQ (R245). -/
def takeSeq (b : BatStage) : BatStage := { b with logSeq := (b.logSeq + 1) % 2 ^ 32 }

/-- Record `seq` of a stage's skip log is written (R245). -/
def skipWrite (s : State) (b : BatStage) (seq sample pos : Nat) (spare : Option (Nat × Nat)) (code flags : Nat) : State :=
  memWrite s (b.p.logAddr + 64 * (seq % b.p.logEntries)) (skipRecord s b seq sample pos spare code flags)

/-- A record goes into a stage's skip log (R245). -/
def skipLog (s : State) (b : BatStage) (sample pos : Nat) (spare : Option (Nat × Nat)) (code flags : Nat) : State × BatStage :=
  (skipWrite s b b.logSeq sample pos spare code flags, takeSeq b)

/-- Record `seq` of a stage's skip log as it stands in memory. -/
def logWord (s : State) (b : BatStage) (seq : Nat) : Nat := memNat s (b.p.logAddr + 64 * (seq % b.p.logEntries)) 64

/-- The records of a stage's skip log, newest first. -/
def logWords (s : State) (b : BatStage) : List Nat :=
  (List.range (min b.logSeq b.p.logEntries)).map (fun i => logWord s b (b.logSeq - 1 - i))

/-- The skip log holds every record of the stage's epoch, and reads clean. -/
def logWhole (s : State) (b : BatStage) : Bool :=
  !memPoisoned s b.p.logAddr (64 * min b.logSeq b.p.logEntries)
  && (b.logSeq ≤ b.p.logEntries || ((logWords s b).getLast?).any (fun w => bitsOf w 415 384 != b.epoch))

/-- The sample placed for a forward position already passed, with its own position: its own, or the one its record in the skip log
names (R245). -/
def loggedPlace (s : State) (b : BatStage) (pos : Nat) : Option (Nat × Nat) :=
  match (logWords s b).find? (fun w => bitsOf w 415 384 == b.epoch && bitsOf w 335 288 == pos && !w.testBit 5 && !w.testBit 3) with
  | none => some (sampleAt s b pos, pos)
  | some w => if bitsOf w 287 240 == 2 ^ 48 - 1 then none else some (bitsOf w 287 240, bitsOf w 239 192)

/-- The samples placed in a bucket before a restore, newest first, as the skip log tells; else the cursors do not tell which they were
(log entry 95). -/
def placedBefore (s : State) (b : BatStage) (ps : List Nat) (c : BucketCursor) : List (Option (Nat × Nat)) :=
  let placed := (ps.take c.f).filterMap (loggedPlace s b)
  if logWhole s b && placed.length == c.placed then (placed.map some).reverse else List.replicate c.placed none

/-- The assembly of a bucket at the start of an epoch (R234), or from the cursors of a rucksack, whose T is all ones for −1 (R401,
R405). -/
def startAssembly (s : State) (b : BatStage) (k : Nat) (cur : Option BucketCursor) : Assembly :=
  let ps := (List.range b.n).filter (fun p => positionBucket s b p == some k)
  match cur with
  | none => { positions := ps, t := (ps.length : Int) - 1, cursor := { f := 0, t := toBits 48 ((ps.length : Int) - 1), placed := 0 } }
  | some c =>
    let t : Int := if c.t < ps.length then c.t else -1
    { positions := ps, f := c.f, t := t, placed := placedBefore s b ps c, cursor := c
      passed := ps.zipIdx.filterMap (fun e => if e.2 < c.f || t < (e.2 : Int) then some e.1 else none) }

/-- A stage at the start of an epoch, or of what is left of one after a restore: its chunks are assigned from the first, and the host ring
starts at record 0 (DESIGN CHOICE, log entry 247). -/
def startEpoch (s : State) (b : BatStage) (e : Nat) (curs : List BucketCursor) : State × BatStage :=
  let s := modSlot s b.slot (fun x => { x with epoch := some e })
  let b := { b with epoch := e, nextChunk := 0, chunks := [], reassign := [], outcomes := [], spares := [], closed := [], ending := false }
  let asm := (List.range b.buckets.length).map (fun k => startAssembly s b k curs[k]?)
  let outs := (asm.flatMap (·.passed)).foldl (fun t p => tblSet none t p (some ({ code := 0 } : Outcome))) []
  (s, { b with asm := asm, outcomes := outs })

/-- The issue of a BATCH_STAGE command (R227, R211): its checks, then its stage, which goes on from a rucksack when the slot was
restored from one with a BATCH section (R405). -/
def issueBatch (s : State) (c : Cmd) (p : BatParams) : State :=
  let progLen := 64 + 32 * min 16 (memNat s (p.shapeProg + 1) 1)
  let progBytes := memBytes s p.shapeProg progLen
  let progBad := p.shapeProg != 0 && ((shapeCheck progBytes).isSome || memPoisoned s p.shapeProg progLen)
  if !batParamsOk p then refuseItem s c.id c.slot 0x0B01
  else
  let s := readChecked s c.slot p.indexAddr 64
  if !indexHeaderOk s p.indexAddr then refuseItem s c.id c.slot 0x0B02
  else
  let s := readChecked s c.slot p.bucketAddr (32 * p.buckets)
  match badBucket s p with
  | some k => refuseItem (nameFailed s c.slot (wTag c.word) (.bucket k)) c.id c.slot 0x0B01
  | none =>
  let s := if p.shapeProg == 0 then s else readChecked s c.slot p.shapeProg progLen
  if progBad then
    let s := match shapeCheck progBytes with
      | some (n, e) => nameFailed s c.slot (wTag c.word) (.check n (if n < 5 then none else some e))
      | none => s
    refuseItem s c.id c.slot 0x0A01
  else
    let r := (slotOf s c.slot).restored
    let goesOn := r.hasBatch && !r.buckets.isEmpty
    let b : BatStage :=
      { cmd := c.id, slot := c.slot, p := p, waitLink := wWaitLink c.word, waitEn := wWaitEn c.word, waitFull := wWaitFull c.word
        sigLink := wSigLink c.word, sigEn := wSigEn c.word, sigFull := wSigFull c.word
        prog := if p.shapeProg == 0 then none else some (shapeProg progBytes)
        n := memNat s (p.indexAddr + 8) 8
        buckets := (List.range p.buckets).map (fun k => bucketOfWord (bucketWord s p.bucketAddr k))
        epoch := p.epochFirst
        epochsDone := if goesOn then r.epoch - p.epochFirst else 0
        hamperSeq := if goesOn then r.hamperSeq else 0
        logSeq := if goesOn then r.logSeq else 0 }
    let (s, b) := startEpoch s b (if goesOn then r.epoch else p.epochFirst) (if goesOn then r.buckets else [])
    let s := modSlot s c.slot (fun x => { x with restored := { x.restored with hasBatch := false } })
    { s with bat := { s.bat with stages := s.bat.stages ++ [b] } }

/-! ## Work (R230, R237, R241) -/

/-- The work of a sample is issued to this engine's units (R230). -/
def issueWorkOf (s : State) (b : BatStage) (x : Nat) : State :=
  match shardEntry s b.p.indexAddr x with
  | none => s
  | some e =>
    if e.kind ≤ 5 then
      let video := isVideo e.kind
      let i : DecodeItem := { slot := b.slot, format := e.kind, sample := x, addr := e.addr, len := e.len, crc := e.crc, stream := none,
                              opn := video, close := video, entry := e.entry, refresh := max 1 e.refresh, stats := b.p.stats }
      { s with mdc := { s.mdc with queue := s.mdc.queue ++ [i] } }
    else if e.kind == 0x20 then s
    else
      let i : TokItem := { slot := b.slot, sample := x, addr := e.addr, len := e.len, crc := e.crc, gzip := e.kind == 0x11,
                           policy := b.p.policy, mask := b.p.specialMask, bos := b.p.bos, eos := b.p.eos, maxTokens := b.p.maxTokens,
                           outType := b.p.tokOutType, offsets := b.p.offsets }
      { s with tok := { s.tok with queue := s.tok.queue ++ [i] } }

/-- The work of a position's sample is issued to this engine's units. -/
def issueSample (s : State) (b : BatStage) (pos : Nat) : State := issueWorkOf s b (sampleAt s b pos)

/-- The open positions of a chunk are issued to an engine: here, or by what the home tells another (R241). -/
def issueChunk (s : State) (b : BatStage) (c d : Nat) : State :=
  if d == dieId s then ((chunkPositions b c).filter (positionOpen s b)).foldl (fun s p => issueSample s b p) s else s

/-- The entries of a new chunk's samples are read, and those excluded are raised and logged (R229, R231). -/
def logExcluded (s : State) (b : BatStage) (c : Nat) : State × BatStage :=
  let s := (chunkPositions b c).foldl (fun s p => readChecked s b.slot (b.p.indexAddr + 64 + 32 * sampleAt s b p) 32) s
  ((chunkPositions b c).filter (fun p => excludedCode s b p != 0)).foldl (fun (e : State × BatStage) p =>
    let code := excludedCode e.1 e.2 p
    skipLog (raiseErr e.1 code e.2.slot) e.2 (sampleAt e.1 e.2 p) p none code skNoBucket) (s, b)

/-- A chunk is with the host. -/
def ChunkAt.isHost : ChunkAt → Bool
  | .host _ => true
  | .engine _ => false

/-- The chunks all of whose outcomes are known are outstanding no more, and need no reassignment (R241, R244); one with the host stays
until the host has done it or it is reclaimed (R242, log entry 247). -/
def settleChunks (s : State) (b : BatStage) : BatStage :=
  let live (c : Nat) : Bool := (chunkPositions b c).any (positionPending s b)
  { b with chunks := b.chunks.filter (fun e => e.2.isHost || live e.1), reassign := b.reassign.filter live }

/-- The calls for the permutation of a new chunk's positions (R155, R158). -/
def chunkCalls (s : State) (b : BatStage) (c : Nat) : Nat :=
  ((chunkPositions b c).map (permCalls (slotOf s b.slot).job.jobSeed b.epoch b.n)).foldl (· + ·) 0

/-- The record of the host ring offered next, and a record's address (R242). -/
def hostRecord (b : BatStage) (n : Nat) : Nat := b.p.hostRing + 64 * (n % b.p.hostEntries)

/-- A chunk is offered to the host (R242): SKIP names the positions that are not to be processed. -/
def offerChunk (s : State) (b : BatStage) (c : Nat) : State × BatStage :=
  let skip := (List.range 256).foldl (fun m k =>
    if 256 * c + k < b.n && positionOpen s b (256 * c + k) then m else m + 2 ^ k) 0
  let rec_ := leBytes 64 (skip * 2 ^ 256 + b.epoch * 2 ^ 224 + c % 2 ^ 40 * 2 ^ 184 + b.slot * 2 ^ 172 + 1)
  let s := bump (memWrite s (hostRecord b b.nextRecord) rec_) 0x80B0 0x0B
  (fire s 83 0, { b with chunks := b.chunks ++ [(c, .host (b.nextRecord % b.p.hostEntries))], nextRecord := b.nextRecord + 1 })

/-- The next chunk goes to the least loaded engine with fewer than CHUNKS_AHEAD, else, when it is new, to the host, else it waits
(R241, R244). -/
def assignNext (s : State) (b : BatStage) : State × BatStage :=
  let engine := (leastLoaded s b).bind (fun d => if outstanding b d < b.p.chunksAhead then some d else none)
  match b.reassign, engine with
  | c :: rest, some d =>
    let b := { b with reassign := rest, chunks := b.chunks ++ [(c, .engine d)] }
    let s := bump (issueChunk s b c d) 0x80B0 0x0A
    (s, settleChunks s b)
  | _ :: _, none => (s, b)
  | [], engine =>
    let c := b.nextChunk
    if b.n ≤ 256 * c then (s, b)
    else
      match engine with
      | some d =>
        match needCalls s b.slot (.chunk b.cmd b.epoch c) (chunkCalls s b c) with
        | (s, false) => (s, b)
        | (s, true) =>
          let (s, b) := logExcluded s { b with nextChunk := c + 1, chunks := b.chunks ++ [(c, .engine d)] } c
          let s := bump (issueChunk s b c d) 0x80B0 0x0A
          (s, settleChunks s b)
      | none =>
        let (word, s) := if b.p.hostEntries == 0 then ([], s) else readMem s b.slot (hostRecord b b.nextRecord) 4
        if b.p.hostEntries != 0 && leNat word == 0 then
          match needCalls s b.slot (.chunk b.cmd b.epoch c) (chunkCalls s b c) with
          | (s, false) => (s, b)
          | (s, true) =>
            let (s, b) := logExcluded s { b with nextChunk := c + 1 } c
            let (s, b) := offerChunk s b c
            (s, settleChunks s b)
        else (s, b)

/-! ## Assembly (R234 to R237) -/

/-- The assembly of bucket k. -/
def asmAt (b : BatStage) (k : Nat) : Assembly := b.asm.getD k {}
def putAsm (b : BatStage) (k : Nat) (a : Assembly) : BatStage := { b with asm := b.asm.set k a }

/-- The cursors of a bucket as a rucksack records them (R401). -/
def cursorOf (a : Assembly) : BucketCursor := { f := a.f, t := toBits 48 a.t, placed := a.placed.length }

/-- place() of R234: the sample takes the next free slot of the bucket's open hamper, which closes at its H-th (R236). The cursors
given stand after the placement. -/
def place (s : State) (b : BatStage) (k : Nat) (a : Assembly) (x : HamperSlot) (own : Nat) : State × BatStage :=
  let h := a.opn.getD { bucket := k, lastPosition := 0, slots := [] }
  let a := { a with placed := some (x.sample, own) :: a.placed }
  let h := { h with lastPosition := x.position, slots := h.slots ++ [x], cursor := cursorOf a }
  let s := bump s 0x80B0 1
  if h.slots.length == (bucketAt b k).hamper then (s, { putAsm b k { a with opn := none } with closed := b.closed ++ [h] })
  else (s, putAsm b k { a with opn := some h })

/-- The record of the corrupt sample at a forward position is written, with the sample that fills its slot (R245). -/
def slotRecord (s : State) (b : BatStage) (here seq : Nat) (filler : Option (Nat × Nat)) (flag : Nat) : State :=
  let o := (outcomeAt b here).getD { code := 0 }
  skipWrite s b seq (sampleAt s b here) here filler o.code (flag + if o.host then skHost else 0)

/-- The slot of a corrupt sample is not filled (R235). -/
def leaveSlot (s : State) (b : BatStage) (k here seq : Nat) (a : Assembly) : State × BatStage :=
  (slotRecord (bump s 0x80B0 4) b here seq none skHole, putAsm b k a)

/-- The sample that a repeat places again (R235): the j-th placed, with its position; after a restore that does not tell, one of those
passed (log entry 95). -/
def repeatOf (s : State) (b : BatStage) (a : Assembly) (here : Nat) : Nat × Nat × State :=
  match a.placed.reverse.getD (drawBelow (jobDraw s b.slot 0x201 (sampleAt s b here) 0) a.placed.length 0) none with
  | some (y, q) => (y, q, s)
  | none =>
    let (j, s) := drawFree s a.passed.length
    let q := a.passed.getD j 0
    (sampleAt s b q, q, s)

/-- An earlier sample is processed again for one that finds no spare (R235). -/
def startRepeat (s : State) (b : BatStage) (k here seq d : Nat) (a : Assembly) : State × BatStage :=
  let r := repeatOf (raiseErr s 0x0B07 b.slot) b a here
  let s := if d == dieId s then issueWorkOf r.2.2 b r.1 else r.2.2
  (s, putAsm b k { a with again := some { here := here, seq := seq, sample := r.1, source := r.2.1, die := d } })

/-- BAT issues no work for now: its stage has stopped, or units dispatch nothing (R398, R402). -/
def issueHeld (s : State) (b : BatStage) : Bool := b.stopped || !unitsDispatch s

/-- A sample that finds no spare (R235): its slot is left, or an earlier sample is processed again for it, once the draw has been made and
work may be issued. False while it waits. -/
def exhausted (s : State) (b : BatStage) (k here seq : Nat) (a : Assembly) : State × BatStage × Bool :=
  if b.p.repeatOnExhaust == 0 || a.placed.isEmpty then
    let (s, b) := leaveSlot (raiseErr s 0x0B07 b.slot) b k here seq a
    (s, b, true)
  else
    match (if issueHeld s b then none else leastLoaded s b) with
    | none => (s, b, false)
    | some d =>
      match needCalls s b.slot (.again b.cmd here) 1 with
      | (s, false) => (s, b, false)
      | (s, true) =>
        let (s, b) := startRepeat s b k here seq d a
        (s, b, true)

/-- The outcome of a repeat: it is placed, or, corrupt, leaves its slot unfilled (R235). -/
def placeRepeat (s : State) (b : BatStage) (k : Nat) (a : Assembly) (r : Repeat) (o : Outcome) : State × BatStage :=
  let a := { a with again := none }
  if o.code != 0 then leaveSlot s b k r.here r.seq a
  else
    let s := slotRecord (bump s 0x80B0 3) b r.here r.seq (some (r.sample, r.source)) skRepeat
    place s b k a { sample := r.sample, position := r.here, spare := false, rep := true, out := o } r.source

/-- A spare in a chunk not yet assigned is issued at once (R237). -/
def issueSpare (s : State) (b : BatStage) (pos : Nat) : State × BatStage :=
  if issueHeld s b || chunkOf pos < b.nextChunk || b.spares.any (fun e => e.1 == pos) then (s, b)
  else
    match leastLoaded s b with
    | none => (s, b)
    | some d =>
      let s := if d == dieId s then issueSample s b pos else s
      (s, { b with spares := b.spares ++ [(pos, d)] })

/-- One move of a bucket's assembly, none when it waits for an outcome or has ended. -/
def assembleStep (s : State) (b : BatStage) (k : Nat) : State × BatStage × Bool :=
  let a := asmAt b k
  match a.again, a.spareFor with
  | some r, _ =>
    (match r.out with
      | none => (s, b, false)
      | some o =>
        let (s, b) := placeRepeat s b k a r o
        (s, b, true))
  | none, some (here, seq) =>
    let a' := { a with spareFor := none }
    if a.t < (a.f : Int) then exhausted s b k here seq a'
    else
      let pos := a.positions.getD a.t.toNat 0
      match outcomeAt b pos with
      | none =>
        let (s, b) := issueSpare s b pos
        (s, b, false)
      | some o =>
        let x := sampleAt s b pos
        if o.code == 0 then
          let s := slotRecord (bump s 0x80B0 2) b here seq (some (x, pos)) skSpare
          let (s, b) := place s b k { a' with t := a.t - 1 } { sample := x, position := here, spare := true, rep := false, out := o } pos
          (s, b, true)
        else
          let (s, b) := skipLog (bump s 0x80B0 5) b x pos none o.code (skAsSpare + if o.host then skHost else 0)
          (s, putAsm b k { a with t := a.t - 1 }, true)
  | none, none =>
    if a.t < (a.f : Int) then (s, b, false)
    else
      let pos := a.positions.getD a.f 0
      match outcomeAt b pos with
      | none => (s, b, false)
      | some o =>
        let a := { a with f := a.f + 1 }
        if o.code == 0 then
          let (s, b) := place s b k a { sample := sampleAt s b pos, position := pos, spare := false, rep := false, out := o } pos
          (s, b, true)
        else (bump s 0x80B0 5, putAsm (takeSeq b) k { a with spareFor := some (pos, b.logSeq) }, true)

/-- A bucket's assembly goes as far as the outcomes known allow. -/
def assembleBucket (k : Nat) : Nat → State → BatStage → State × BatStage
  | 0, s, b => (s, b)
  | fuel + 1, s, b =>
    match assembleStep s b k with
    | (s, b, true) => assembleBucket k fuel s b
    | (s, b, false) => (s, b)

/-- Every bucket's assembly goes on, while the stage stands. -/
def assembleAll (s : State) (b : BatStage) : State × BatStage :=
  (List.range b.buckets.length).foldl (fun (e : State × BatStage) k =>
    if (batCmd e.1 b.cmd).isNone then e else assembleBucket k (2 * (asmAt e.2 k).positions.length + 2) e.1 e.2) (s, b)

/-! ## Hampers passed on, and the end of an epoch (R236) -/

/-- A bucket of the epoch has been assembled. -/
def bucketDone (a : Assembly) : Bool := a.spareFor.isNone && a.again.isNone && a.t < (a.f : Int)

/-- The forward position a bucket stands at. -/
def forwardAt (a : Assembly) : Nat :=
  match a.again, a.spareFor with
  | some r, _ => r.here
  | none, some (here, _) => here
  | none, none => a.positions.getD a.f 0

/-- The epoch's assembly ends: open hampers are emitted short, in ascending bucket number, or dropped. -/
def endAssembly (s : State) (b : BatStage) : State × BatStage :=
  let opens := b.asm.filterMap (fun a => a.opn)
  let b' := { b with ending := true, asm := b.asm.map (fun a => { a with opn := none }) }
  if b.p.lastHamper == 1 then (bumpBy s 0x80B0 8 (opens.foldl (fun n h => n + h.slots.length) 0), b')
  else (s, { b' with closed := b.closed ++ opens.map (fun h => { h with short := true }) })

/-- The hamper to be passed on next: the full one with the least LAST_POSITION once no bucket can close one before it, then the short
ones. -/
def nextHamper (b : BatStage) : Option Hamper :=
  let full := (b.closed.filter (fun h => !h.short)).foldl (fun best h =>
    match best with
    | none => some h
    | some x => if h.lastPosition < x.lastPosition then some h else some x) none
  match full with
  | some h => if b.asm.all (fun a => bucketDone a || h.lastPosition < forwardAt a) then some h else none
  | none => b.closed.find? (fun h => h.short)

/-- A hamper with its buffer is passed on: written, counted, its entry signalled (R236, R326). -/
def passHamper (s : State) (b : BatStage) (h : Hamper) (buf : Nat) : State :=
  let s := writeHamper s b h buf
  let s := bump s 0x80B0 6
  let s := if h.short then bump s 0x80B0 7 else s
  let b := { b with closed := b.closed.erase h, hamperSeq := b.hamperSeq + 1, entry := false, asked := false, mixing := none,
                    asm := b.asm.set h.bucket { asmAt b h.bucket with cursor := h.cursor } }
  let s := putBat s b
  if !b.sigEn then s
  else
    let s := if b.sigFull then
        pushEntry s b.sigLink { space := 0, addr := buf, bytes := hamperBytes (bucketAt b h.bucket), slot := b.slot, buffer := some buf }
      else s
    semSignal s b.sigLink b.sigFull b.slot

/-- The stage's per-entry wait for the hamper to be passed on (R326): granted, or made once. -/
def batWait (s : State) (b : BatStage) : State × Bool :=
  if !b.waitEn || b.entry then (s, true)
  else if b.asked then (s, false)
  else
    let s := semWait (putBat s { b with asked := true }) b.waitLink b.waitFull b.slot (.stage b.cmd)
    (s, (batCmd s b.cmd).elim false (fun b => b.entry))

/-- The mixup of the hamper next passed on (R158, R208, R222): its draws, then its items of the array, one for every 256 vectors of 64
elements. True once they are done, or there is none. -/
def mixReady (s : State) (b : BatStage) (h : Hamper) : State × Bool :=
  if mixPairs b h == 0 then (s, true)
  else if b.mixing.isSome then (s, !working s (.hamper b.slot b.cmd))
  else
    match needCalls s b.slot (.hamper b.cmd b.hamperSeq) (mixPairs b h) with
    | (s, false) => (s, false)
    | (s, true) =>
      let vectors := ceilDiv (mixElems s b h) 64
      let s := addWork (putBat s { b with mixing := some false }) b.slot (.hamper b.slot b.cmd) 0 1 (min 256 vectors) (ceilDiv vectors 256)
      (s, !working s (.hamper b.slot b.cmd))

/-- Hampers are passed on in their order while their waits are granted, their mixup made and their buffers allocated. -/
def passHampers (cmd : Nat) : Nat → State → State
  | 0, s => s
  | fuel + 1, s =>
    match batCmd s cmd with
    | none => s
    | some b =>
      match nextHamper b with
      | none => s
      | some h =>
        match batWait s b with
        | (s, false) => s
        | (s, true) =>
          if (slotOf s b.slot).backoff.contains unitBat then s
          else
          match mixReady s ((batCmd s cmd).getD b) h with
          | (s, false) => s
          | (s, true) =>
            let b := (batCmd s cmd).getD b
            match needBuffer s b.slot (hamperBytes (bucketAt b h.bucket)) with
            | (none, s) => s
            | (some (c, addr), s) =>
              if c == 0 then passHampers cmd fuel (passHamper s b h addr)
              else if c == 0x0C08 then retryLater s b.slot unitBat
              else slotFault s b.slot c

/-- The epoch ends once every chunk has been assigned, none is with the host, its assembly has ended and its hampers are passed on: event
source 86 fires, and the next one starts, or the stage's command is done (R232, R357). -/
def endEpoch (s : State) (cmd : Nat) : State :=
  match batCmd s cmd with
  | none => s
  | some b =>
    if !(b.ending && b.closed.isEmpty && b.reassign.isEmpty && b.n ≤ 256 * b.nextChunk)
      || b.chunks.any (fun e => e.2.isHost) then s
    else
      let s := fire (bump s 0x80B0 0x0C) 86 0
      if b.p.epochs ≤ b.epochsDone + 1 then
        finishCmd { s with bat := { s.bat with stages := s.bat.stages.filter (fun x => x.cmd != cmd) } } cmd 0 1 0
      else
        let (s, b) := startEpoch s { b with epochsDone := b.epochsDone + 1, hamperSeq := 0 } (b.epoch + 1) []
        putBat s b

/-- A stage goes on after an outcome: chunks settle, buckets assemble, hampers are passed on, the epoch ends. -/
def batProgress (s : State) (cmd : Nat) : State :=
  match batCmd s cmd with
  | none => s
  | some b =>
    let (s, b) := assembleAll s (settleChunks s b)
    if (batCmd s cmd).isNone then s
    else
    let (s, b) := if !b.ending && b.asm.all bucketDone then endAssembly s b else (s, b)
    endEpoch (passHampers cmd (b.closed.length + 1) (putBat s b)) cmd

/-- The slot's stage, when this engine is the job's home and its BAT works. -/
def homeStage (s : State) (slot : Nat) : Option BatStage := if unitsWork s && isHome s slot then batOf s slot else none

/-- The slot's stage, when another engine of the stripe is the job's home. -/
def memberStage (s : State) (slot : Nat) : Option BatStage := if unitsWork s && !isHome s slot then batOf s slot else none

/-- What the home tells this engine (R237, R241): it issues the work of positions, in the home's epoch (R143, R232), or its stage ends. -/
def takeTold (s : State) (b : BatStage) : HomeTold → State
  | .issue e ps =>
    let b := { b with epoch := e }
    ps.foldl (fun s p => issueSample s b p) (putBat (modSlot s b.slot (fun x => { x with epoch := some e })) b)
  | .ended => finishCmd { s with bat := { s.bat with stages := s.bat.stages.filter (fun x => x.cmd != b.cmd) } } b.cmd 0 1 0

/-- BAT_CHUNK_ASSIGN (R241): the home BAT assigns the next chunk; on another engine of the stripe the home's word of an assignment
arrives. -/
def execBatChunkAssign (slot : Nat) (told : Option HomeTold) (s : State) : Result :=
  .next (match homeStage s slot, memberStage s slot, told with
    | some b, _, none =>
      if issueHeld s b then batProgress s b.cmd
      else
        let (s, b) := assignNext s b
        batProgress (putBat s b) b.cmd
    | none, some b, some t => takeTold s b t
    | _, _, _ => s)

/-! ## Outcomes (R233) -/

/-- The repeat of a position that is processed, with its bucket. -/
def repeatAt (b : BatStage) (pos : Nat) : Option (Nat × Repeat) :=
  (b.asm.zipIdx.filterMap (fun e => e.1.again.map (fun r => (e.2, r)))).find? (fun e => e.2.source == pos && e.2.out.isNone)

/-- Where a position is assigned: the engine it is with. -/
def assignedDie (b : BatStage) (pos : Nat) : Option Nat :=
  match repeatAt b pos with
  | some e => some e.2.die
  | none =>
  match b.spares.find? (fun e => e.1 == pos) with
  | some e => some e.2
  | none =>
    match b.chunks.find? (fun e => e.1 == chunkOf pos) with
    | some (_, .engine d) => some d
    | _ => none

/-- The length checks of R233 on a good result. -/
def checkLength (s : State) (b : BatStage) (pos : Nat) (o : Outcome) : State × Outcome :=
  let x := bucketAt b ((positionBucket s b pos).getD 0)
  if o.code == 0 && (x.sampleBytes < o.result.length || o.result.length % typeBytes x.elemType != 0) then
    (raiseErr s 0x0B05 b.slot, { o with code := 0x0B05 })
  else (s, o)

/-- A result is copied into its hamper (R233, R238): read poisoned, a part of its copy fails, which makes the sample corrupt with the
code DLV reports (R298). -/
def checkCopy (s : State) (b : BatStage) (o : Outcome) : State × Outcome :=
  if o.code == 0 && o.poisoned then (raiseErr s 0x0E06 b.slot, { o with code := 0x0E06 }) else (s, o)

/-- The outcome of a position is known, or of its repeat. -/
def settleOutcome (s : State) (b : BatStage) (pos : Nat) (o : Outcome) : State × BatStage :=
  let (s, o) := checkLength s b pos o
  let (s, o) := checkCopy s b o
  match repeatAt b pos with
  | some (k, r) => (s, putAsm b k { asmAt b k with again := some { r with out := some o } })
  | none => (s, { b with outcomes := tblSet none b.outcomes pos (some o) })

/-- The outcome of a raw tensor (R230): its stored bytes after the CRC check, which read poisoned has nothing
to compare; the code of a failed check is unstated (log entry 3). -/
def rawOutcome (s : State) (slot : Nat) (e : ShardEntry) : State × Outcome :=
  let bytes := memBytes s e.addr e.len
  let bad := memPoisoned s e.addr e.len
  let s := readChecked s slot e.addr e.len
  if bad || crc32c bytes == e.crc then (s, { code := 0, result := bytes, poisoned := bad })
  else
    let (c, s) := drawFree s 65535
    (s, { code := 1 + c })

/-- A finished result is read from the pool buffer it lies in, a token record's bytes behind its record: a poisoned granule poisons
it (R412). -/
def readResult (s : State) (r : Finished) : State × Outcome :=
  match r.buffer with
  | none => (s, r.out)
  | some a =>
    (readChecked s r.slot (a + 64) r.out.result.length,
     { r.out with poisoned := r.out.poisoned || memPoisoned s (a + 64) r.out.result.length })

/-- The outcome of a sample this engine has worked on, its output buffer freed; none while it is not finished. -/
def ownOutcome (s : State) (b : BatStage) (pos : Nat) : Option (State × Outcome) :=
  let x := sampleAt s b pos
  match shardEntry s b.p.indexAddr x with
  | none => none
  | some e =>
    if e.kind == 0x20 then some (rawOutcome s b.slot e)
    else
      (s.bat.results.find? (fun r => r.slot == b.slot && r.sample == x)).map (fun r =>
        let (s, o) := readResult s r
        (freeBuffers { s with bat := { s.bat with results := s.bat.results.erase r } } b.slot r.buffer.toList, o))

/-- What the home is told of a position: what this engine's own work gave, or what another engine reports. -/
def toldOutcome (s : State) (b : BatStage) (position : Nat) (o : Outcome) : Option (State × Outcome) :=
  match assignedDie b position with
  | none => none
  | some d => if d == dieId s then ownOutcome s b position else some (s, o)

/-- The outcome of a position settles, and its stage goes on. -/
def settlePosition (s : State) (b : BatStage) (position : Nat) (o : Outcome) : State :=
  let e := settleOutcome s b position o
  batProgress (putBat e.1 e.2) b.cmd

/-- BAT_SAMPLE_OUTCOME (R233, R234): the outcome of a position assigned to an engine arrives: this engine's own, or another's as the
command tells it, `poisoned` when a part of its copy into the hamper fails there. An engine that is not the home reports its own
outcome, whose buffer is then free. -/
def execBatSampleOutcome (slot position code : Nat) (result : List Byte) (norm : List (List Nat)) (truncated poisoned : Bool)
    (s : State) : Result :=
  .next (match homeStage s slot, memberStage s slot with
    | some b, _ =>
      if b.n ≤ position || ((outcomeAt b position).isSome && (repeatAt b position).isNone) || excludedCode s b position != 0 then s
      else
        match toldOutcome s b position { code := code, result := result, norm := norm, truncated := truncated, poisoned := poisoned } with
        | none => s
        | some (s, o) => settlePosition s b position o
    | none, some b =>
      if b.n ≤ position then s
      else
        match ownOutcome s b position with
        | none => s
        | some (s, _) => s
    | none, none => s)

/-! ## The host share (R242 to R244) -/

/-- The host's result for a position (R243), which has no flag for TRUNCATED: it is 0 (DESIGN CHOICE, log entry 254). -/
def hostOutcome (s : State) (b : BatStage) (table pos : Nat) : State × Outcome :=
  let (entry, s) := readMem s b.slot (table + 16 * (pos % 256)) 16
  let w := leNat entry
  if !w.testBit 0 then (raiseErr s 0x0B06 b.slot, { code := 0x0B06, host := true })
  else if bitsOf w 31 16 != 0 then (s, { code := bitsOf w 31 16, host := true })
  else
    let a := bitsOf w 127 64
    let n := bitsOf w 63 32
    let video := (shardEntry s b.p.indexAddr (sampleAt s b pos)).elim false (fun e => isVideo e.kind)
    (readChecked s b.slot a n,
     { code := 0, result := memBytes s a n, norm := hostNorm b video (memBytes s a n), host := true, poisoned := memPoisoned s a n })

/-- A finished host chunk: every result needed is copied, and its record is free again (R242). What is left of it are spares, which
engines have (R237). -/
def takeHost (s : State) (b : BatStage) (c r : Nat) : State × BatStage :=
  let (table, s) := readMem s b.slot (hostRecord b r + 12) 8
  let table := leNat table
  let (s, b) := ((chunkPositions b c).filter (positionOpen s b)).foldl (fun (e : State × BatStage) p =>
    let (s, o) := hostOutcome e.1 e.2 table p
    settleOutcome s e.2 p o) (s, b)
  (memWrite s (hostRecord b r) (leBytes 4 0), { b with chunks := b.chunks.filter (fun e => e.1 != c) })

/-- A host chunk is reclaimed: its record is marked and its positions are to be reassigned (R244). -/
def reclaimHost (s : State) (b : BatStage) (c r : Nat) : State × BatStage :=
  (memWrite s (hostRecord b r) (leBytes 4 3),
   { b with chunks := b.chunks.filter (fun e => e.1 != c), reassign := b.reassign ++ [c] })

/-- The host records of a stage that are outstanding. -/
def hostChunks (b : BatStage) : List (Nat × Nat) :=
  b.chunks.filterMap (fun e => match e.2 with
    | .host r => some (e.1, r)
    | .engine _ => none)

/-- One outstanding host record is read (R243, R244). -/
def pollRecord (timedOut : List Nat) (s : State) (b : BatStage) (c r : Nat) : State × BatStage :=
  let (word, s) := readMem s b.slot (hostRecord b r) 4
  let state := leNat word
  if state == 2 then takeHost s b c r
  else if state == 1 && timedOut.contains r then reclaimHost (raiseErr s 0x0B06 b.slot) b c r
  else (s, b)

/-- HOST_POLL (R243, R244): BAT reads the STATE of every outstanding host record; the command names those whose time is up. -/
def execHostPoll (slot : Nat) (timedOut : List Nat) (s : State) : Result :=
  .next (match homeStage s slot with
    | none => s
    | some b =>
      let (s, b) := (hostChunks b).foldl (fun (e : State × BatStage) x => pollRecord timedOut e.1 e.2 x.1 x.2) (s, b)
      let b := settleChunks s b
      let (s, b) := if issueHeld s b then (s, b) else assignNext s b
      batProgress (putBat s b) b.cmd)

/-- A stage assigns and issues nothing more, and reclaims its host records (R402). -/
def batStop (s : State) (slot : Nat) : State :=
  (s.bat.stages.filter (fun b => b.slot == slot)).foldl (fun s b =>
    let s := (hostChunks b).foldl (fun s x => memWrite s (hostRecord b x.2) (leBytes 4 3)) s
    putBat s { b with stopped := true, chunks := b.chunks.filter (fun e => !e.2.isHost) }) s

end Sys2Proof.Machine
end

