-- ==== Sys2Proof/Machine/Forge.lean ====
section
/-! DEFINITION. The plaintext forge and encryption (R77 to R106): the checks of an item, its limbs, and its errors. -/

namespace Sys2Proof.Machine

def rootOf (s : State) (r : Nat) : EncRoot := tblGet {} s.roots r

/-! ## The checks of a forge item (R77, R97, R98) -/

/-- FP32 > 0. -/
def fp32Positive (v : Nat) : Bool :=
  match fltOf fmt32 v with
  | .nan => false
  | .inf neg => !neg
  | .fin neg m _ => !neg && m != 0

/-- Parameters every item uses. -/
def forgeCommonOk (s : State) (slot : Nat) (p : ForgeParams) : Bool :=
  setUsable s slot p.set && p.level < (setOf s p.set).l && p.ext ≤ 1 && 16 ≤ p.deltaExp && p.deltaExp ≤ 58
  && -64 ≤ p.inputExp && p.inputExp ≤ 63 && p.rmode ≤ 2 && 1 ≤ p.batch && p.batch ≤ 32 && p.noise ≤ 2 && p.output ≤ 1

/-- Parameters of an item that takes source elements. -/
def forgeSourceOk (m : Nat) (p : ForgeParams) : Bool :=
  p.noise != 0 ||
    (((1 ≤ p.srcType && p.srcType ≤ 9) || p.srcType == 11) && p.srcAddr % 64 == 0 && p.srcStride % 64 == 0 && p.complex ≤ 1
     && p.period ≤ m && isPow2 p.period && 1 ≤ p.count && p.count ≤ p.period && p.rot < p.period)

/-- Parameters of a noise item. -/
def forgeNoiseOk (m : Nat) (p : ForgeParams) : Bool :=
  p.noise == 0 ||
    (p.noiseSample + p.batch ≤ 2 ^ 48 && 1 ≤ p.noiseCount && p.noiseCount ≤ m
     && (p.noise != 1 || fp32Positive p.temp) && (p.noise != 2 || (1 ≤ p.keepP16 && p.keepP16 ≤ 65536)))

/-- PT_INDEX leaves room for the batch when rounding is stochastic. -/
def forgeRoundOk (p : ForgeParams) : Bool := p.rmode == 0 || p.ptIndex + p.batch ≤ 2 ^ 48

/-- Parameters of an item that encrypts (R98, R308). -/
def forgeEncOk (s : State) (slot : Nat) (p : ForgeParams) : Bool :=
  p.output == 0 || (p.ext == 0 && p.pkAddr % 4096 == 0 && p.encRoot ≤ 15 && (slotOf s slot).job.encRoots.testBit p.encRoot)

/-- The ring dimension, the limbs and the sizes of an item. -/
def forgeN (s : State) (p : ForgeParams) : Nat := 2 ^ (setOf s p.set).log2n
def forgeLimbs (s : State) (p : ForgeParams) : List Nat := objectLimbs (setOf s p.set) p.level (p.ext == 1)
def forgeObject (s : State) (p : ForgeParams) : Nat := (forgeLimbs s p).length * 4 * forgeN s p * (if p.output == 1 then 2 else 1)

/-- The output is an offset in the job's PFG window (R323). -/
def forgeStaged (p : ForgeParams) : Bool := p.outAddr.testBit 63
def forgeOut (p : ForgeParams) : Nat := if forgeStaged p then p.outAddr % 2 ^ 32 else p.outAddr

/-- The destination of an item (R323). -/
def forgeDestOk (s : State) (p : ForgeParams) : Bool :=
  let total := p.batch * forgeObject s p
  forgeStaged p || (p.outAddr % 4096 == 0 && p.outAddr + total ≤ 2 ^ 48 && (p.output == 1 || poolRegionHolds s p.outAddr total))

/-- The checks of PFG_PARAM. -/
def forgeParamOk (s : State) (slot : Nat) (p : ForgeParams) : Bool :=
  let m := forgeN s p / 2
  forgeCommonOk s slot p && forgeSourceOk m p && forgeNoiseOk m p && forgeRoundOk p && forgeEncOk s slot p && forgeDestOk s p

/-- The source elements of a plaintext: their offset in the window and length. -/
def forgeSource (p : ForgeParams) (b : Nat) : Nat × Nat :=
  (p.srcAddr + b * p.srcStride, p.count * (if p.complex == 1 then 2 else 1) * typeBytes p.srcType)

/-- Every staging extent lies in the job's window (R321). -/
def forgeExtentsOk (s : State) (slot : Nat) (p : ForgeParams) : Bool :=
  let size := (pfgWindow s slot).2
  (p.noise != 0 || (List.range p.batch).all (fun b => inWindow size (forgeSource p b).1 (forgeSource p b).2))
  && (!forgeStaged p || inWindow size (forgeOut p) (p.batch * forgeObject s p))

/-- The code that refuses an item at dispatch, 0 for none: parameters, extents, the encryption root (R100, R101), then the
services it needs (R121, R158). -/
def forgeRefusal (s : State) (slot : Nat) (p : ForgeParams) : Nat :=
  if !forgeParamOk s slot p then 0x0401
  else if !forgeExtentsOk s slot p then 0x0F04
  else if p.output == 1 && !(rootOf s p.encRoot).valid then 0x0406
  else if p.output == 1 && 2 ^ 56 < (rootOf s p.encRoot).count + p.batch then 0x0405
  else if p.output == 1 && (serviceList s .sdx).isEmpty then 0x0607
  else if (p.noise != 0 || p.rmode != 0) && (serviceList s .rsv).isEmpty then 0x0704
  else 0

/-! ## A plaintext -/

/-- The slot values of plaintext b (R79, R93, R94). -/
def forgeSlots (s : State) (slot : Nat) (p : ForgeParams) (b : Nat) : List (Flt × Flt) :=
  let base := (pfgWindow s slot).1 + (forgeSource p b).1
  let e := typeBytes p.srcType
  slotValues p (forgeN s p / 2) (fun j => cellsNat s.mem.pfg (base + j * e) e)
    (jobDraw s slot (if p.noise == 1 then 0x101 else 0x102) (p.noiseSample + b) p.noiseDraw)

/-- Some source element of plaintext b is read poisoned (R413). -/
def forgeSourcePoisoned (s : State) (slot : Nat) (p : ForgeParams) (b : Nat) : Bool :=
  p.noise == 0 && pfgPoisoned s ((pfgWindow s slot).1 + (forgeSource p b).1) (forgeSource p b).2

/-- The draws of stochastic rounding of plaintext b (R86). -/
def roundDraw (s : State) (r : ForgeRun) (b : Nat) : DrawId :=
  { jobDraw s r.item.slot 0x100 (r.item.p.ptIndex + b) r.item.p.rndDraw with epoch := r.epoch }

/-! ## The forge's work in the array (R82, R89) -/

/-- The special FFT of `rows` plaintexts: for each stage one item of ceil(2r/7) passes for each output block of each kp, the stage of
RAD[S] first, which feeds the one before it (R82). -/
def fftWork (s : State) (i : ForgeItem) (rows : Nat) : State :=
  (idftRadices (setOf s i.p.set).log2n).reverse.foldl (fun s r =>
    addWork s i.slot (.forge i.cmd) 4 (ceilDiv (2 * r) 7) rows (forgeN s i.p / 2 / r * ceilDiv (2 * r) 7)) s

/-- The NTT of a limb, of one polynomial or of the three of an encryption (R89, R103): for each stage of radix r, r/16 output blocks of
r/16 passes, over N/r vectors in items of at most 256 (log entry 194). -/
def limbWork (s : State) (i : ForgeItem) : State :=
  let n := forgeN s i.p
  (nttRadices (setOf s i.p.set).log2n).foldl (fun s r =>
    addWork s i.slot (.forge i.cmd) 3 (r / 16) (min 256 (n / r))
      ((if i.p.output == 1 then 3 else 1) * (r / 16) * ceilDiv (n / r) 256)) s

/-- The trail generator's calls for an item's plaintexts, a block of R149 each (R86, R93, R94, log entry 55). -/
def forgeCalls (s : State) (p : ForgeParams) : Nat :=
  p.batch * ((if p.rmode == 0 then 0 else ceilDiv (forgeN s p) 32)
    + (if p.noise == 1 then ceilDiv p.noiseCount 4 else if p.noise == 2 then ceilDiv p.noiseCount 8 else 0))

/-! ## Dispatch -/

/-- The noise streams of an item's plaintexts, each plaintext's three in the order of their tags (R102). -/
def noiseStreams (s : State) (i : ForgeItem) (counter : Nat) : List Stream :=
  let n := forgeN s i.p
  (List.range i.p.batch).flatMap (fun b =>
    let seed := seedCt (rootOf s i.p.encRoot).key (dieId s * 2 ^ 56 + counter + b)
    [0x11, 0x12, 0x13].map (fun tag =>
      { slot := i.slot, use := .noise i.cmd b tag, input := seed ++ [BitVec.ofNat 8 tag],
        q := if tag == 0x11 then 252 else 0, len := if tag == 0x11 then n else ceilDiv (42 * n) 8, ready := true }))

/-- PFG_INPUT_RANGE is raised for each plaintext of an item with a component out of range (R80). -/
def forgeRanges (s : State) (i : ForgeItem) : List Nat :=
  (List.range i.p.batch).filter (fun b => slotsOutOfRange i.p (forgeSlots s i.slot i.p b))

/-- A limb of the public key as it is read (R99): its bytes, how many residues are out of range, and the 512-byte lines to be
poisoned. -/
def keyLimb (s : State) (addr n q : Nat) : List Byte × Nat × List Nat :=
  let bs := memBytes s addr (4 * n)
  let bad := (List.range n).filter (fun j => q ≤ fld bs (4 * j) 4)
  (bs, bad.length, setAdd (bad.map (· / 128)) ((List.range (n / 128)).filter (fun t => memPoisoned s (addr + 512 * t) 512)))

/-- The limbs of the public key an item reads: p0's, then p1's (R99). -/
def keyLimbs (s : State) (p : ForgeParams) : List (List Byte × Nat × List Nat) :=
  let n := forgeN s p
  let x := setOf s p.set
  if p.output == 0 then []
  else [0, x.l].flatMap (fun half => (List.range (p.level + 1)).map (fun o => keyLimb s (p.pkAddr + (half + o) * 4 * n) n (recOf x o).q))

/-- The public key is read, once an item: its residues out of range are raised (R44, R99). -/
def readKey (s : State) (i : ForgeItem) : State :=
  let n := forgeN s i.p
  if i.p.output == 0 then s
  else
    let out := ((keyLimbs s i.p).map (·.2.1)).foldl (· + ·) 0
    let s := [0, (setOf s i.p.set).l].foldl (fun s half => readChecked s i.slot (i.p.pkAddr + half * 4 * n) ((i.p.level + 1) * 4 * n)) s
    raiseTimes s 0x0208 i.slot out

/-- An item whose checks passed is dispatched with its work buffer: it reads its sources and its key, takes its counter values (R101),
its noise streams, its random calls, and the array begins on its special FFT. -/
def forgeStart (s : State) (i : ForgeItem) (work : Nat) : State :=
  let root := rootOf s i.p.encRoot
  let enc := i.p.output == 1
  let streams := if enc then noiseStreams s i root.count else []
  let ranges := forgeRanges s i
  let poisoned := (List.range i.p.batch).filter (forgeSourcePoisoned s i.slot i.p)
  let keys := keyLimbs s i.p
  let run : ForgeRun :=
    { item := i, work := work, ranged := setAdd ranges poisoned, counter := root.count, status := if ranges.isEmpty then 0 else 0x0402
      epoch := jobEpoch s i.slot, keys := keys.map (·.1), keyLines := keys.map (·.2.2)
      inputs := (List.range i.p.batch).map (fun b => permutedData i.p (forgeN s i.p) (forgeSlots s i.slot i.p b)) }
  let s := if enc then { s with roots := tblSet {} s.roots i.p.encRoot { root with count := root.count + i.p.batch } } else s
  let s := { s with sdx := { s.sdx with streams := s.sdx.streams ++ streams } }
  let s := ranges.foldl (fun s _ => raiseErr s 0x0402 i.slot) s
  let s := fftWork { readKey s i with forge := { s.forge with run := some run } } i i.p.batch
  if forgeCalls s i.p == 0 then s else askCalls s i.slot (.forge i.cmd) (forgeCalls s i.p)

/-- An item leaves the forge's queue. -/
def takeForge (s : State) (i : ForgeItem) : State := { s with forge := { s.forge with queue := s.forge.queue.erase i } }

/-- The bytes of an item's work buffer (R77). -/
def forgeWorkBytes (s : State) (p : ForgeParams) : Nat := p.batch * (forgeN s p / 2) * 32

/-- A slot's oldest item is ready for the forge: it does not wait for its buffer (R24, R259). -/
def forgeReady (s : State) (n : Nat) : Bool :=
  !(slotOf s n).backoff.contains unitForge
  && (match s.forge.queue.find? (fun i => i.slot == n) with
    | some i => !awaitsBuffer s n (forgeWorkBytes s i.p)
    | none => false)

/-- FORGE_DISPATCH (R97): the forge, when free, takes the oldest item of the slot R25 chooses; a bad one is refused; the item waits
for its work buffer of B × M × 32 bytes (R77, R259). The operand tells how its reads of staging go (R410). -/
def execForgeDispatch (reads : SramReads) (s : State) : Result :=
  .next (
    let slots := ((s.forge.queue.map (·.slot)).eraseDups).filter (forgeReady s)
    match (if unitsDispatch s && s.forge.run.isNone then arbPick s unitForge slots else none) with
    | none => s
    | some n =>
      match s.forge.queue.find? (fun i => i.slot == n) with
      | none => s
      | some i =>
        let code := forgeRefusal s n i.p
        if code != 0 then refuseItem (takeForge s i) i.cmd n code
        else
          match needBuffer s n (forgeWorkBytes s i.p) with
          | (none, s) => s
          | (some (c, addr), s) =>
            if c == 0 then forgeStart (sramReads (arbGrant (takeForge s i) unitForge n slots) 2 n reads) i addr
            else if c == 0x0C08 then retryLater s n unitForge
            else slotFault (finishCmd (takeForge s i) i.cmd c 1 0) n c)

/-! ## Limbs -/

/-- Write a tile of an item's output at an offset: in the window or in device memory, poisoned or not. -/
def forgeWrite (s : State) (i : ForgeItem) (off : Nat) (bs : List Byte) (poison : Bool) : State :=
  if forgeStaged i.p then
    let a := (pfgWindow s i.slot).1 + forgeOut i.p + off
    if poison then pfgWritePoisoned s a bs else pfgWrite s a bs
  else if poison then memWritePoisoned s (forgeOut i.p + off) bs else memWrite s (forgeOut i.p + off) bs

/-- One half of a ciphertext limb: key · U + A at each position, with its congruence (R103, R104). -/
def encElems (r : PrimeRec) (faults : List ForgeFault) (half n : Nat) (key : List Byte) (u a : List Nat) : List (Nat × Bool) :=
  let ws := tileWords key
  (List.range n).map (fun j => mulAddElem r (faultSum faults (.product half) j) (ws.getD j 0) (u.getD j 0) (a.getD j 0))

/-- A half is written. A position whose key residue is out of range holds an unstated value (log entry 3) in a poisoned line. -/
def encTile (s : State) (i : ForgeItem) (off n : Nat) (r : PrimeRec) (key : List Byte) (lines : List Nat) (es : List (Nat × Bool))
    (poison : Bool) : State :=
  let ws := tileWords key
  let bad := (List.range n).filter (fun j => r.q ≤ ws.getD j 0)
  let (f, s) := if bad.isEmpty then (0, s) else drawFree s (2 ^ (32 * n))
  let vs := (List.range n).map (fun j => if bad.contains j then f / 2 ^ (32 * j) % r.q else (es.getD j (0, true)).1)
  let bs := tileBytes vs
  let s := forgeWrite s i off bs poison
  if poison then s else lines.foldl (fun s t => forgeWrite s i (off + 512 * t) ((bs.drop (512 * t)).take 512) true) s

/-- What a finished noise stream gave. -/
def noiseOf (s : State) (i : ForgeItem) (b tag : Nat) : Option (List Nat) :=
  (s.sdx.done.find? (fun e => e.1 == .noise i.cmd b tag)).map (·.2)

/-- The noise streams a plaintext needs have ended. -/
def noiseReady (s : State) (i : ForgeItem) (b : Nat) : Bool :=
  i.p.output == 0 || [0x11, 0x12, 0x13].all (fun tag => (noiseOf s i b tag).isSome)

/-- The polynomials a limb transforms: the plaintext's coefficients, or those of an encryption: m + e0, u and e1 (R103). -/
def limbPolys (s : State) (r : ForgeRun) : List (List Int) :=
  let i := r.item
  if i.p.output == 0 then [r.coefs]
  else
    let n := forgeN s i.p
    [List.zipWith (· + ·) r.coefs (binomialPoly n ((noiseOf s i r.pt 0x12).getD [])), ternary ((noiseOf s i r.pt 0x11).getD []),
     binomialPoly n ((noiseOf s i r.pt 0x13).getD [])]

/-- The prime of the limb in work. -/
def limbRec (s : State) (r : ForgeRun) : PrimeRec := recOf (setOf s r.item.p.set) ((forgeLimbs s r.item.p).getD r.ord 0)

/-- The tile of polynomial k of the limb in work with the faults that fall on it, and whether its checks pass (R88 to R90). The residues
of an encryption's u and e1 are the noise mapper's, which no congruence covers (R103). -/
def polyTile (s : State) (r : ForgeRun) (faults : List ForgeFault) (k : Nat) (m : List Int) : List Nat × Bool :=
  let mine := faults.filter (fun f => f.poly == k && (k == 0 || f.step != .split))
  if mine.isEmpty then (limbTile (forgeN s r.item.p) (limbRec s r) m, true)
  else checkedTile (nttRadices (setOf s r.item.p.set).log2n) (forgeN s r.item.p) (limbRec s r) mine m

/-- The products of one half of the limb in work, c0's or c1's, from its tiles. -/
def halfElems (s : State) (r : ForgeRun) (faults : List ForgeFault) (tiles : List (List Nat)) (half : Nat) : List (Nat × Bool) :=
  let k := if half == 0 then r.ord else (forgeLimbs s r.item.p).length + r.ord
  encElems (limbRec s r) faults half (forgeN s r.item.p) (r.keys.getD k []) (tiles.getD 1 []) (tiles.getD (2 * half) [])

/-- The tiles of the limb in work as the forge makes them, and whether the residue check passes (R88 to R90, R104). -/
def limbTiles (s : State) (r : ForgeRun) (faults : List ForgeFault) : List (List Nat) × Bool :=
  let polys := limbPolys s r
  let ts := ((List.range polys.length).zip polys).map (fun e => polyTile s r faults e.1 e.2)
  let tiles := ts.map (·.1)
  let products := r.item.p.output == 0 || faults.isEmpty || [0, 1].all (fun h => (halfElems s r faults tiles h).all (·.2))
  (tiles, ts.all (·.2) && products)

/-- The limb in work is written (R89, R103). -/
def forgeLimb (s : State) (r : ForgeRun) (faults : List ForgeFault) (tiles : List (List Nat)) (poison : Bool) : State :=
  let i := r.item
  let p := i.p
  let n := forgeN s p
  let count := (forgeLimbs s p).length
  let base := r.pt * forgeObject s p
  if p.output == 0 then forgeWrite s i (base + r.ord * 4 * n) (tileBytes (tiles.getD 0 [])) poison
  else
    let es := [0, 1].map (halfElems s r faults tiles)
    let half (s : State) (h k : Nat) : State :=
      encTile s i (base + k * 4 * n) n (limbRec s r) (r.keys.getD k []) (r.keyLines.getD k []) (es.getD h []) poison
    half (half s 0 r.ord) 1 (count + r.ord)

/-- The tiles that limb ordinal o of a plaintext has in the output. -/
def limbOffsets (s : State) (p : ForgeParams) (b o : Nat) : List Nat :=
  let t := 4 * forgeN s p
  let base := b * forgeObject s p
  if p.output == 0 then [base + o * t] else [base + o * t, base + ((forgeLimbs s p).length + o) * t]

/-- A limb that failed its check twice, or depends on values that did or that came poisoned, is written poisoned with bytes the spec
does not state (log entry 3). -/
def forgeFailedLimb (s : State) (i : ForgeItem) (b o : Nat) : State :=
  (limbOffsets s i.p b o).foldl (fun s off =>
    let len := 4 * forgeN s i.p
    let (f, s) := drawFree s (256 ^ len)
    forgeWrite s i off (leBytes len f) true) s

/-- PFG_LIMBS_POISONED counts the limbs poisoned after a second failure (R97). -/
def countFailedLimb (s : State) (i : ForgeItem) (b o : Nat) : State := bumpBy s 0x8040 5 (limbOffsets s i.p b o).length

/-- The run of an item changes. -/
def setForge (s : State) (r : ForgeRun) : State := { s with forge := { s.forge with run := some r } }

/-- The run of an item goes on past a limb; after its last the item ends: its buffer is freed, its work counted, poisoned plaintexts
too (log entry 196), and its command finished. -/
def forgeAdvance (s : State) (r : ForgeRun) : State :=
  let c := (forgeLimbs s r.item.p).length
  if r.ord + 1 < c then
    let s := setForge s { r with ord := r.ord + 1, limbRetried := false, spoiled := false }
    if r.fftFailed then s else limbWork s r.item
  else
    let s := bump s 0x8040 8
    let s := if r.item.p.noise == 0 then s else bump s 0x8040 9
    let s := if r.item.p.output == 0 then s else bump s 0x8040 0x0A
    if r.pt + 1 < r.item.p.batch then
      setForge s { r with pt := r.pt + 1, ord := 0, limbRetried := false, fftRetried := false, fftDone := false, fftFailed := false,
                          spoiled := false }
    else
      let keep (e : StreamUse × List Nat) : Bool :=
        match e.1 with
        | .noise id _ _ => id != r.item.cmd
        | _ => true
      let s := { s with forge := { s.forge with run := none }, sdx := { s.sdx with done := s.sdx.done.filter keep } }
      let s := freeBuffers s r.item.slot [r.work]
      finishCmd s r.item.cmd r.status (flagDone + (if r.poisoned then flagPoisoned else 0) + (if r.retriedAny then flagRetried else 0)) 0

/-- The first error of a run stays its status. -/
def ForgeRun.err (r : ForgeRun) (code : Nat) : ForgeRun := { r with status := if r.status == 0 then code else r.status }

/-- A limb of a plaintext whose special FFT failed, or whose own check has failed twice. -/
def forgeBadLimb (s : State) (r : ForgeRun) : State :=
  forgeAdvance (countFailedLimb (forgeFailedLimb s r.item r.pt r.ord) r.item r.pt r.ord) { r with poisoned := true }

/-- The verdict of the special FFT of the plaintext in work (R91). Its stage data is in the work buffer. A first failure has the array
run it again; after a pass its limbs are begun. An FFT with a poisoned array item poisons the plaintexts it was run for (R71). -/
def fftVerdict (s : State) (r : ForgeRun) (faults : List ForgeFault) : State :=
  let p := r.item.p
  let m := forgeN s p / 2
  let u := fftUnit p.rmode (setOf s p.set).log2n (roundDraw s r r.pt) faults (r.inputs.getD r.pt [])
  let s := memWrite s (r.work + r.pt * m * 32) (fftBytes u.data)
  let bad := if r.spoiled then (if r.pt == 0 && !r.fftRetried then List.range p.batch else [r.pt]) else []
  let r := { r with spoiled := false, ranged := setAdd r.ranged bad }
  if u.ok then
    limbWork (setForge (if r.fftRetried then bump s 0x8040 4 else s) { r with fftDone := true, coefs := u.coefs }) r.item
  else if !r.fftRetried then
    fftWork (setForge (raiseErr s 0x0403 r.item.slot) ({ r with fftRetried := true, retriedAny := true }.err 0x0403)) r.item 1
  else setForge (raiseErr s 0x0404 r.item.slot) ({ r with fftFailed := true }.err 0x0404)

/-- The verdict of the limb in work (R91): a first failure has it forged again from its inputs, a second poisons it; a limb that passes
with an array item that was written poisoned is poisoned too (R71). -/
def limbVerdict (s : State) (r : ForgeRun) (faults : List ForgeFault) : State :=
  let (tiles, ok) := limbTiles s r faults
  if ok then
    let s := if r.limbRetried then bump s 0x8040 4 else s
    if r.spoiled then forgeAdvance (forgeFailedLimb s r.item r.pt r.ord) { r with poisoned := true }
    else
      let bad := r.ranged.contains r.pt
      forgeAdvance (forgeLimb s r faults tiles bad) { r with poisoned := r.poisoned || bad }
  else if !r.limbRetried then
    limbWork (setForge (raiseErr s 0x0403 r.item.slot)
      ({ r with limbRetried := true, retriedAny := true, spoiled := false }.err 0x0403)) r.item
  else forgeBadLimb (raiseErr s 0x0404 r.item.slot) (r.err 0x0404)

/-- FORGE_LIMB_VERDICT (R90 to R92): the verdict of the special FFT of the plaintext in work, or of its limb in work, once the array has
run its items; `faults` are those of the forge on the way. No limb is released before its plaintext's FFT has its verdict. -/
def execForgeLimbVerdict (fftUnit : Bool) (faults : List ForgeFault) (s : State) : Result :=
  .next (match s.forge.run with
    | none => s
    | some r =>
      if !unitsWork s || working s (.forge r.item.cmd) || drawing s (.forge r.item.cmd) || !noiseReady s r.item r.pt then s
      else if fftUnit then (if r.fftDone || r.fftFailed then s else fftVerdict s r faults)
      else if r.fftFailed then forgeBadLimb s r
      else if r.fftDone then limbVerdict s r faults
      else s)

/-! ## Encryption roots (R100) -/

/-- The job slots whose running jobs name a root. -/
def rootUsers (s : State) (r : Nat) : Nat := s.slots.countP (fun e => e.2.state != .idle && e.2.job.encRoots.testBit r)

/-- The write of ENC_ROOT_KEY: the root is valid with its count at 0 on every engine, while no job names it. -/
def encRootEffect : WriteEffect := packageEffect (fun via index sub data s =>
  let r := index - 0x5410
  if rootUsers s r != 0 then dictAbort s via (abortCode 8 (objDetail index 4))
  else
    keepBefore (packageDone { s with roots := tblSet {} s.roots r { key := data, valid := true, count := 0 } } via index sub data)
      via index (.root (tblGet {} s.roots r)))

/-- ENC_ROOT_KEY_WRITE (R100). -/
def execEncRootKeyWrite (via : Via) (root : Nat) (data : List Byte) (s : State) : Result :=
  .next (requestWrite encRootEffect via (0x5410 + root) 1 data s)

end Sys2Proof.Machine
end

