-- ==== Sys2Proof/Machine/Ecnor.lean ====
section
/-! DEFINITION. The Ecnor container (R50 to R53): its header and the checks of R53, which ingest and key registration share. Each
check answers the code of the first failure with the byte offset of what failed. -/

namespace Sys2Proof.Machine

/-- The header fields (R50). -/
structure EcnHeader where
  kind : Nat
  log2n : Nat
  set : Nat
  level : Nat
  special : Nat
  digits : Nat
  keyKind : Nat
  galois : Nat
  fingerprint : Nat
  seed : List Byte
  payload : Nat
  tag : Nat
deriving DecidableEq, Repr

/-- The header of a container. -/
def ecnHeader (b : List Byte) : EcnHeader :=
  { kind := fld b 6 1, log2n := fld b 8 1, set := fld b 9 1, level := fld b 10 1, special := fld b 11 1, digits := fld b 12 1,
    keyKind := fld b 13 1, galois := fld b 16 4, fingerprint := fld b 20 4, seed := (b.drop 24).take 32, payload := fld b 56 4,
    tag := fld b 60 4 }

/-- Step 1 of R53. -/
def ecnStep1 (b : List Byte) : Option (Nat × Nat) :=
  if fld b 0 4 != 0x524E4345 then some (0x0201, 0)
  else if fld b 4 1 != 1 then some (0x0202, 4)
  else if fld b 5 1 != 0 then some (0x0202, 5)
  else if fld b 7 1 != 0x0A then some (0x0203, 7)
  else if fld b 6 1 != 1 && fld b 6 1 != 2 then some (0x0203, 6)
  else none

/-- Step 2 of R53. -/
def ecnStep2 (s : State) (h : EcnHeader) : Option (Nat × Nat) :=
  if 7 < h.set || !(setOf s h.set).valid then some (0x0204, 9)
  else if (setOf s h.set).fingerprint != h.fingerprint then some (0x0204, 20)
  else none

/-- The GALOIS condition of R51. -/
def galoisOk (h : EcnHeader) : Bool :=
  let n2 := 2 ^ (h.log2n + 1)
  if h.kind == 2 && h.keyKind == 2 then h.galois % 4 == 1 && 1 < h.galois && h.galois < n2
  else if h.kind == 2 && h.keyKind == 3 then h.galois == n2 - 1
  else h.galois == 0

/-- Step 3 of R53: the constraints of R51 in offset order. -/
def ecnStep3 (s : State) (b : List Byte) (h : EcnHeader) : Option (Nat × Nat) :=
  let x := setOf s h.set
  let c := h.level + 1 + h.special
  if h.log2n != x.log2n then some (0x0205, 8)
  else if (if h.kind == 1 then x.l ≤ h.level else h.level + 1 != x.l) then some (0x0205, 10)
  else if h.special != (if h.kind == 1 then 0 else x.k) then some (0x0205, 11)
  else if (if h.kind == 1 then h.digits != 1 else h.digits == 0 || 16 < h.digits) then some (0x0205, 12)
  else if (if h.kind == 1 then h.keyKind != 0 else h.keyKind == 0 || 4 < h.keyKind) then some (0x0205, 13)
  else if fld b 14 2 != 0 then some (0x0205, 14)
  else if !galoisOk h then some (0x0205, 16)
  else if h.payload != (if h.kind == 1 then 1 else h.digits) * c * 4 * 2 ^ h.log2n then some (0x0205, 56)
  else none

/-- The limb index of a tile of the payload (R41, R40): limbs 0 to LEVEL, then the special ones, per digit. -/
def ecnLimb (h : EcnHeader) (tile : Nat) : Nat := tile % (h.level + 1 + h.special)

/-- Step 4 of R53 for payload word w: its offset when the residue is out of range (R44). -/
def ecnWordBad (s : State) (h : EcnHeader) (w v : Nat) : Option Nat :=
  if ((setOf s h.set).recs[ecnLimb h (w / 2 ^ h.log2n)]?.getD {}).q ≤ v then some (64 + 4 * w) else none

/-- Step 4 over n payload words from word w on. -/
def ecnRange (s : State) (h : EcnHeader) (b : List Byte) : Nat → Nat → Option Nat
  | 0, _ => none
  | n + 1, w =>
    match ecnWordBad s h w (fld b (64 + 4 * w) 4) with
    | some o => some o
    | none => ecnRange s h b n (w + 1)

/-- Step 5 of R53 over a container that has arrived with its trailer. -/
def ecnCrcOk (b : List Byte) (payload : Nat) : Bool := crc32c (b.take (64 + payload)) == fld b (64 + payload) 4

end Sys2Proof.Machine
end

