-- ==== Sys2Proof/Machine/IngestOps.lean ====
section
/-! DEFINITION. Ingest (R107 to R117): a stage's start, the containers it takes and checks as they land, their refusal, and the
manifests it owes. -/

namespace Sys2Proof.Machine

def msgOf (s : State) (id : Nat) : Option Msg := s.net.msgs.find? (fun m => m.id == id)
def modMsg (s : State) (id : Nat) (f : Msg → Msg) : State :=
  { s with net := { s.net with msgs := s.net.msgs.map (fun m => if m.id == id then f m else m) } }

/-- C_o and the tile size of a stage's ciphertexts. -/
def IngestStage.limbs (i : IngestStage) : Nat := i.p.outLevel + 1
def stageTile (s : State) (i : IngestStage) : Nat := 4 * 2 ^ (setOf s i.p.set).log2n

/-- The prime of limb k of the 2 C_o limbs of a stage's ciphertexts. -/
def limbPrime (s : State) (i : IngestStage) (k : Nat) : Nat := ((setOf s i.p.set).recs[k % i.limbs]?.getD {}).q

/-! ## The start of a stage (R107) -/

/-- The parameters lie within their values. -/
def ingestParamsOk (s : State) (slot : Nat) (p : IngestParams) : Bool :=
  p.reserved && setUsable s slot p.set && p.outLevel < (setOf s p.set).l && p.logAddr % 64 == 0 && isPow2 p.logEntries
  && 64 ≤ p.logEntries && p.logEntries ≤ 65536 && p.region ≤ 7 && p.dest % 512 == 0 && p.destStride % 512 == 0
  && 1 ≤ p.destSlots && p.destSlots ≤ 112 && p.manifest % 512 == 0

/-- The dies a stage delivers to: its own and those of DIE_MASK. -/
def stageDies (s : State) (p : IngestParams) : List Nat :=
  (List.range 8).filter (fun d => d == dieId s || p.dieMask.testBit d)

/-- The code of a stage's footprint checks, 0 when they pass. -/
def ingestFootprint (s : State) (slot : Nat) (p : IngestParams) : Nat :=
  let size := p.destSlots * p.destStride
  let lines := (List.range (size / 512)).map (fun i => p.dest + 512 * i)
  if p.destStride < 2 * (p.outLevel + 1) * 4 * 2 ^ (setOf s p.set).log2n || (p.dest ≤ p.manifest && p.manifest < p.dest + size)
  then 0x0E01
  else placeCode s slot p.region p.sliver (stageDies s p) (lines ++ [p.manifest]) false

/-- The cursor a restored job's first stage on this die goes on from (R405). -/
def restoredCursor (s : State) (slot link : Nat) : Option LandCursor :=
  let mine := (slotOf s slot).restored.landing.filter (fun c => c.die == dieId s)
  match mine.find? (fun c => (tblGet {} s.net.lrs c.region).link == link) with
  | some c => some c
  | none => mine.head?

/-- The segment after those that have begun or that a slot has closed. -/
def nextOpen (s : State) (slot : Nat) : Nat := max (segmentOf s) (slotOf s slot).horizon + 1

/-- A stage's per-entry wait (R326): made when it has none outstanding. -/
def stageAsk (s : State) (cmd : Nat) : State :=
  match stageOf s cmd with
  | none => s
  | some i =>
    if i.asked || i.stopped || !i.waitEn then s
    else semWait (modStage s cmd (fun i => { i with asked := true })) i.waitLink true i.slot (.stage cmd)

/-! ## Refusals and records (R113, R115) -/

/-- FLAGS, STATUS and the other fields of an ingest record. -/
def ingestRecord (s : State) (i : IngestStage) (m : Msg) (time status offset flags : Nat) : List Byte :=
  let h := ecnHeader m.bytes
  let landed := 64 ≤ m.bytes.length
  leBytes 64 (time * 2 ^ 448 + i.logSeq % 2 ^ 32 * 2 ^ 416 + (if landed then h.tag else 0) * 2 ^ 384 + offset % 2 ^ 32 * 2 ^ 352
    + m.bytes.length % 2 ^ 32 * 2 ^ 320 + m.region * 2 ^ 304 + m.qp * 2 ^ 288 + m.port * 2 ^ 280
    + (if landed then h.set else 0) * 2 ^ 272 + (if landed then h.level else 0) * 2 ^ 264 + m.pool * 2 ^ 256
    + (m.buffer - poolBase s m.pool) / 2 ^ poolLog2 s m.pool * 2 ^ 234 + status * 2 ^ 16 + flags)

/-- A record goes into a stage's log. -/
def writeIngest (s : State) (i : IngestStage) (rec : List Byte) : State :=
  modStage (memWrite s (i.p.logAddr + 64 * (i.logSeq % i.p.logEntries)) rec) i.cmd
    (fun i => { i with logSeq := (i.logSeq + 1) % 2 ^ 32 })

/-- The index of a port's counters (R381). -/
def portCounters (p : Nat) : Nat := 0x3F00 + p % 2

/-- An error of a port (R381): its counter, its trace record, and a source. -/
def portErr (s : State) (p code src : Nat) : State :=
  fire (traceRec (bump s (portCounters p) (code - 0x1001 + 0x10)) 5 1 63 code 0 0) src code

/-- A container's refusal is raised: its code's counter, INGEST_REFUSED, and source 32 only (R111, R117, R376). -/
def raiseIngest (s : State) (m : Msg) (t : Turned) : State :=
  let s := bump s 0x8050 2
  let s := if t.cut then bump s 0x8050 3 else s
  if t.code / 256 == 0x10 then portErr s m.port t.code 32 else raiseErrOn s t.code m.jobSlot 32

/-- A refused container whose message has ended: its record is written, and its buffer freed, or, when its delivery had begun, its
remaining lines delivered poisoned by INGEST_CONVERSION. -/
def settleRefused (s : State) (m : Msg) (t : Turned) : State :=
  let s := raiseIngest s m t
  let s := match m.stage.bind (stageOf s) with
    | some i => writeIngest s i (ingestRecord s i m t.time t.code t.offset ((if t.cut then 2 else 0) + (if m.retriedAny then 8 else 0)))
    | none => s
  let s := if m.dlv.isSome then modMsg s m.id (fun m => { m with recorded := true }) else releaseMsg s m
  match m.stage with
  | some c => stageEnds s c
  | none => s

/-- A check has refused a container: its expansion stops. -/
def turnAway (s : State) (id code offset : Nat) (cut : Bool) : State :=
  modMsg (cancelStreams s id) id (fun m =>
    if m.refused.isSome then m else { m with refused := some { code := code, offset := offset, time := s.boot.timeBase, cut := cut } })

/-- SDX_NO_LANE (R111); the spec states no FIRST_BAD_OFFSET for it (log entry 3). -/
def turnNoLane (s : State) (id : Nat) : State :=
  let (o, s) := drawFree s (2 ^ 32)
  turnAway s id 0x0607 o false

/-! ## The checks (R110) -/

/-- Checks 1 to 5, with the offset of what failed. -/
def headerCheck (s : State) (i : IngestStage) (m : Msg) : Option (Nat × Nat) :=
  let b := m.bytes
  let h := ecnHeader b
  match ecnStep1 b with
  | some e => some e
  | none =>
    match ecnStep2 s h with
    | some e => some e
    | none =>
      match ecnStep3 s b h with
      | some e => some e
      | none =>
        if h.kind != 1 then some (0x0501, 6)
        else if h.set != i.p.set then some (0x0501, 9)
        else if h.level < i.p.outLevel then some (0x0501, 10)
        else if 2 ^ poolLog2 s m.pool < 4096 + h.payload + i.limbs * stageTile s i then some (0x0502, 56)
        else none

/-- The XOF input of a c1 limb (R125). -/
def ctInput (h : EcnHeader) (limb : Nat) : List Byte := h.seed ++ leBytes 1 2 ++ leBytes 1 h.set ++ leBytes 2 limb ++ leBytes 1 1 ++ leBytes 1 0

/-- The stream of a c1 limb becomes ready, and SDX's sum of its residues begins at zero (R112). -/
def startLimb (s : State) (m : Msg) (limb : Nat) : State :=
  let s := modMsg s m.id (fun m => { m with sums := tblSet 0 m.sums limb 0 })
  let h := ecnHeader m.bytes
  let x : Stream := { slot := m.jobSlot, use := .ctLimb m.id limb, input := ctInput h limb,
                      q := ((setOf s h.set).recs[limb]?.getD {}).q, len := 2 ^ h.log2n, ready := true }
  { s with sdx := { s.sdx with streams := s.sdx.streams ++ [x] } }

/-- The header has landed: checks 1 to 5, then the expansion of c1 (R111). -/
def checkHeader (s : State) (i : IngestStage) (m : Msg) : State :=
  match headerCheck s i m with
  | some (c, o) => turnAway s m.id c o false
  | none =>
    let s := modMsg s m.id (fun m => { m with header := true })
    if (serviceList s .sdx).isEmpty then turnNoLane s m.id
    else (List.range i.limbs).foldl (fun s k => startLimb s m k) s

/-- Check 6 on the residues landed since it was last applied. -/
def checkLanded (s : State) (m : Msg) : State :=
  let h := ecnHeader m.bytes
  let n := (min m.bytes.length (64 + h.payload) - 64) / 4
  match ecnRange s h m.bytes (n - m.checked) m.checked with
  | some o => turnAway s m.id 0x0206 o false
  | none => modMsg s m.id (fun m => { m with checked := n })

/-- Checks 7 and 8, as soon as they can be decided. -/
def checkTail (s : State) (m : Msg) : State :=
  let h := ecnHeader m.bytes
  let len := m.bytes.length
  if len < 68 + h.payload then (if m.opn then s else turnAway s m.id 0x0207 len false)
  else if !ecnCrcOk m.bytes h.payload then turnAway s m.id 0x0207 (64 + h.payload) false
  else if !m.opn && 68 + h.payload < len then turnAway s m.id 0x0503 (68 + h.payload) false
  else s

/-! ## Assignment and delivery (R108) -/

/-- The first segment from d on with a ciphertext slot free, and that slot; the bound is the segments already begun by the stage. -/
def pickSlot (i : IngestStage) : Nat → Nat → Nat × Nat
  | 0, d => (d, 0)
  | n + 1, d =>
    let used := match i.assigned.find? (fun e => e.1 == d) with
      | some e => e.2.length
      | none => 0
    if used < i.p.destSlots then (d, used) else pickSlot i n (d + 1)

/-- A delivery of a stage: to its own die and those of DIE_MASK. -/
def stageItem (s : State) (i : IngestStage) (owner : DlvOwner) (due tag : Nat) : Dlv :=
  { id := 0, owner := owner, slot := i.slot, tag := tag, due := due, scratch := true, local_ := true, dispatched := true,
    sliver := i.p.sliver, region := i.p.region, remotes := remotesOf s (stageDies s i.p) [0], open_ := true }

/-- A container that has passed check 8 is given its segment and slot, and its delivery begins. -/
def assignContainer (s : State) (i : IngestStage) (m : Msg) : State :=
  let (d, k) := pickSlot i (i.assigned.length + 1) (nextOpen s i.slot)
  let tag := (ecnHeader m.bytes).tag
  let rest := i.assigned.filter (fun e => e.1 != d)
  let tags := match i.assigned.find? (fun e => e.1 == d) with
    | some e => e.2
    | none => []
  let s := modStage s i.cmd (fun i => { i with assigned := rest ++ [(d, tags ++ [tag])] })
  let id := s.dlv.nextId
  modMsg (announceDlv s (stageItem s i (.container m.id) d tag) false) m.id (fun m => { m with due := some (d, k), dlv := some id })

/-- One manifest line (R108). -/
def manifestBytes (i : IngestStage) (d : Nat) : List Byte :=
  let tags := match i.assigned.find? (fun e => e.1 == d) with
    | some e => e.2
    | none => []
  leBytes 4 tags.length ++ leBytes 4 0 ++ leBytes 8 d ++ leBytes 48 0 ++ (List.range 112).flatMap (fun k => leBytes 4 (tags.getD k 0))

/-- The manifest of a segment is delivered. -/
def writeManifest (s : State) (i : IngestStage) (d : Nat) : State :=
  let x := stageItem s i (.manifest i.cmd d) d 0
  let id := s.dlv.nextId
  let s := announceDlv s x false
  let l : OutLine := placeLine s x { addr := i.p.manifest, space := 1, data := (List.range 512).zip (manifestBytes i d), poison := false }
  advanceDlv (modDlv (emitLine s id l) id (fun x => { x with open_ := false })) id

/-- The manifests a slot's stages owe once its horizon has closed their segments. -/
def writeManifests (s : State) (slot : Nat) : State :=
  (s.net.stages.filter (fun i => i.slot == slot)).foldl (fun s i =>
    let n := (slotOf s slot).horizon + 1 - i.nextManifest
    let s := (List.range n).foldl (fun s k => writeManifest s i (i.nextManifest + k)) s
    modStage s i.cmd (fun i => { i with nextManifest := i.nextManifest + n })) s

/-! ## What comes from other dies (R281, R292, R294) -/

/-- What a notice does at a receiver's engine: the item counts toward the arrival from its announcement (R30, R282), the horizon rises
(R281) and the manifests it closes are written (R108), the item gets no further line, or its buffered lines are discarded (R294). -/
def takeNotice (s : State) (die item dst slot tag due : Nat) (n : DlvNotice) : State :=
  match n with
  | .announce holds horizon =>
    let s := if horizon && scheduleBound s slot then writeManifests (raiseHorizon s slot due tag) slot else s
    if holds then openAway s die item dst slot tag due else s
  | .closed => advanceAway s die item dst (fun x => { x with open_ := false })
  | .discard => modAway s die item dst (fun x => { x with ready := [], open_ := true })

/-- D2D_LINE_RECEIVED (R292): a line joins its item here, which the first heard of it makes; a notice is taken. -/
def execD2dLineReceived (die item dst : Nat) (what : DlvMsg) (slot tag due : Nat) (s : State) : Result :=
  .next (if !unitsWork s then s else
    match what with
    | .notice n => takeNotice s die item dst slot tag due n
    | .line line num rank last =>
      let l : OutLine := { dst := dst, addr := line.addr, space := 1, data := line.data, poison := line.poison, num := num, rank := rank }
      modAway (openAway s die item dst slot tag due) die item dst (fun x => { x with ready := x.ready ++ [l], open_ := !last }))

/-! ## The progress of a container -/

/-- A check on a message that is still wanted. -/
def checkMsg (s : State) (id : Nat) (f : Msg → State → State) : State :=
  match msgOf s id with
  | some m => if m.refused.isNone then f m s else s
  | none => s

/-- The checks on a message as its bytes land: the header once 64 bytes are there, the payload, the tail. -/
def ingestChecks (s : State) (id : Nat) (i : IngestStage) : State :=
  let s := checkMsg s id (fun m s => if !m.header && 64 ≤ m.bytes.length then checkHeader s i m else s)
  let s := checkMsg s id (fun m s => if m.header then checkLanded s m else s)
  checkMsg s id (fun m s => if m.header then checkTail s m else if m.opn then s else turnAway s id 0x0201 m.bytes.length false)

/-- One check after another is applied to a container as far as it can be decided; when its message has ended it is refused or
given its place. -/
def ingestProgress (s : State) (id : Nat) : State :=
  match (msgOf s id).bind (fun m => m.stage.bind (stageOf s)) with
  | none => s
  | some i =>
    let s := ingestChecks s id i
    match msgOf s id with
    | none => s
    | some m =>
      if m.opn then s
      else
        match m.refused with
        | some t => if m.recorded then s else settleRefused s m t
        | none =>
          match m.dlv, stageOf s i.cmd with
          | none, some i => writeManifests (assignContainer s i m) i.slot
          | _, _ => s

/-- Stages take the open containers their links announce, in the order in which the messages opened (R375). -/
def stagesTake (s : State) : State :=
  (s.net.stages.map (·.cmd)).foldl (fun s cmd =>
    match stageOf s cmd with
    | none => s
    | some i =>
      if !i.entry || i.stopped then s
      else
        match s.net.msgs.find? (fun m => m.kind == 0 && m.link == i.waitLink && m.stage.isNone) with
        | none => s
        | some m =>
          let s := modStage s cmd (fun i => { i with entry := false, asked := false })
          let s := modMsg s m.id (fun m => { m with stage := some cmd })
          ingestProgress (stageAsk s cmd) m.id) s

/-- The issue of an INGEST_STAGE command (R107). -/
def issueIngest (s : State) (c : Cmd) (p : IngestParams) : State :=
  if !ingestParamsOk s c.slot p then refuseItem s c.id c.slot 0x0F03
  else
    let code := ingestFootprint s c.slot p
    if code != 0 then refuseItem s c.id c.slot code
    else
      let cur := restoredCursor s c.slot (wWaitLink c.word)
      let i : IngestStage := { cmd := c.id, slot := c.slot, p := p, waitLink := wWaitLink c.word, waitEn := wWaitEn c.word,
                               sigLink := wSigLink c.word, sigEn := wSigEn c.word, sigFull := wSigFull c.word,
                               logSeq := (cur.map (·.logSeq)).getD 0, accepted := (cur.map (·.accepted)).getD 0,
                               nextManifest := nextOpen s c.slot, stopped := (slotOf s c.slot).state == .halted }
      let s := modSlot s c.slot (fun x => { x with restored := { x.restored with landing :=
        match cur with
        | some k => x.restored.landing.erase k
        | none => x.restored.landing } })
      let s := { s with net := { s.net with stages := s.net.stages ++ [i] } }
      stageEnds (stagesTake (stageAsk s c.id)) c.id

/-! ## Conversion (R112, R113) -/

/-- Where limb k of a container, of its 2 C_o, lies in its buffer (R109). -/
def limbAddr (s : State) (m : Msg) (i : IngestStage) (k : Nat) : Nat :=
  let t := stageTile s i
  m.buffer + 4096 + (if k < i.limbs then k * t else (ecnHeader m.bytes).payload + (k - i.limbs) * t)

/-- The residues of a line of device memory that are out of range for a prime, of those that are read without poison (R44). -/
def lineRange (s : State) (a q : Nat) : Nat :=
  (List.range 128).countP (fun j => q ≤ memNat s (a + 4 * j) 4 && !memPoisoned s (a + 4 * j) 4)

/-- The residues out of range that are found as limb k is read back (R44). -/
def limbRange (s : State) (m : Msg) (i : IngestStage) (k : Nat) : Nat :=
  (List.range (stageTile s i / 512)).foldl (fun t n => t + lineRange s (limbAddr s m i k + 512 * n) (limbPrime s i k)) 0

/-- The lines of one of the 2 C_o limbs of a ciphertext, read from its buffer; poisoned granules and a failed limb are written
poisoned, and so is a line with a residue out of range (R44). -/
def limbLines (s : State) (m : Msg) (i : IngestStage) (x : Dlv) (k : Nat) (poison : Bool) : List OutLine :=
  let t := stageTile s i
  let slot := match m.due with
    | some (_, n) => n
    | none => 0
  (List.range (t / 512)).map (fun n =>
    let a := limbAddr s m i k + 512 * n
    let bad := poison || memPoisoned s a 512
    placeLine s x { addr := i.p.dest + slot * i.p.destStride + k * t + 512 * n, space := 1, data := (List.range 512).zip (memBytes s a 512),
                    poison := bad || lineRange s a (limbPrime s i k) != 0, failed := bad, sub := (k * t + 512 * n) / 65536 })

/-- The last limb has been passed: the record is written, the stage signals its link, and the delivery may complete. -/
def acceptContainer (s : State) (i : IngestStage) (m : Msg) : State :=
  let flags := 1 + (if m.poisoned.isEmpty then 0 else 4) + (if m.retriedAny then 8 else 0)
  let s := writeIngest s i (ingestRecord s i m s.boot.timeBase 0 (2 ^ 32 - 1) flags)
  let s := modStage (bump s 0x8050 1) i.cmd (fun i => { i with accepted := i.accepted + 1 })
  let s := fire (modMsg s m.id (fun m => { m with recorded := true })) 35 0
  let s := if i.sigEn then semSignal s i.sigLink i.sigFull i.slot else s
  stageEnds s i.cmd

/-- The delivery of a container gets no further line. -/
def closeContainer (s : State) (d : Nat) : State := advanceDlv (modDlv s d (fun x => { x with open_ := false })) d

/-- Limb k is passed to DLV. -/
def passLimb (s : State) (i : IngestStage) (m : Msg) (d k : Nat) (poison : Bool) : State :=
  match dlvOf s d with
  | none => s
  | some x =>
    let lines := limbLines s m i x k poison
    let s := (List.range (limbRange s m i k)).foldl (fun s _ => raiseErr s 0x0208 m.jobSlot) s
    let s := readChecked s m.jobSlot (limbAddr s m i k) (stageTile s i)
    let s := emitLines s d lines
    let s := modMsg s m.id (fun m => { m with
      limb := k + 1, retried := false, poisoned := if poison then m.poisoned ++ [k - i.limbs] else m.poisoned })
    if k + 1 < 2 * i.limbs then advanceDlv s d
    else
      let s := match msgOf s m.id with
        | some m => if m.recorded || i.abandoned then s else acceptContainer s i m
        | none => s
      closeContainer s d

/-- The sum modulo 8,191 that PFG forms of a c1 limb as it is read back (R112). -/
def limbSum (s : State) (i : IngestStage) (m : Msg) (limb : Nat) : Nat :=
  (tileWords (memBytes s (limbAddr s m i (i.limbs + limb)) (stageTile s i))).foldl (· + ·) 0 % 8191

/-- INGEST_CONVERSION (R112): the next limb of an assigned container; a c1 limb once it has been regenerated, when the sum of the words
read back, to which a fault on the way adds `delta`, is the sum SDX recorded. -/
def execIngestConversion (message delta : Nat) (s : State) : Result :=
  .next (match msgOf s message with
    | none => s
    | some m =>
      match m.dlv, m.stage.bind (stageOf s) with
      | some d, some i =>
        let k := m.limb
        if !unitsWork s || 2 * i.limbs ≤ k then s
        else if m.refused.isSome || i.abandoned then passLimb (cancelStreams s message) i m d k true
        else if k < i.limbs then passLimb s i m d k false
        else if !m.expanded.contains (k - i.limbs) then s
        else if (limbSum s i m (k - i.limbs) + delta) % 8191 == tblGet 0 m.sums (k - i.limbs) then passLimb (if m.retried then bump s 0x8050 8 else s) i m d k false
        else if m.retried then passLimb (raiseErr s 0x0505 m.jobSlot) i m d k true
        else
          let s := raiseErr s 0x0504 m.jobSlot
          let s := modMsg s message (fun m => { m with retried := true, retriedAny := true, expanded := m.expanded.erase (k - i.limbs) })
          if (serviceList s .sdx).isEmpty then
            let s := turnNoLane s message
            match (msgOf s message).bind (·.refused), msgOf s message with
            | some t, some m => settleRefused s m t
            | _, _ => s
          else startLimb s m (k - i.limbs)
      | _, _ => s)

end Sys2Proof.Machine
end

