-- ==== Sys2Proof/Machine/NetOps.lean ====
section
/-! DEFINITION. The network ports' own operations (R360 to R378): ports, queue pairs and regions, the end of a message, and the
training of a port. -/

namespace Sys2Proof.Machine

def portOf (s : State) (p : Nat) : Port := tblGet {} s.net.ports p
def setPort (s : State) (p : Nat) (x : Port) : State := { s with net := { s.net with ports := tblSet {} s.net.ports p x } }
def modPort (s : State) (p : Nat) (f : Port → Port) : State := setPort s p (f (portOf s p))
def qpOf (s : State) (q : Nat) : Qp := tblGet {} s.net.qps q
def setQp (s : State) (q : Nat) (x : Qp) : State := { s with net := { s.net with qps := tblSet {} s.net.qps q x } }
def modQp (s : State) (q : Nat) (f : Qp → Qp) : State := setQp s q (f (qpOf s q))
def lrOf (s : State) (r : Nat) : Lr := tblGet {} s.net.lrs r
def setLr (s : State) (r : Nat) (x : Lr) : State := { s with net := { s.net with lrs := tblSet {} s.net.lrs r x } }

/-- The index of a port's objects (R380). -/
def portIndex (p : Nat) : Nat := 0x3010 + p
def portEnabled (s : State) (p : Nat) : Bool := objGet s (portIndex p) 1 == 1
def laneEnable (s : State) (p : Nat) : Nat := objGet s (portIndex p) 3
def quiescing (s : State) (p : Nat) : Bool := objGet s (portIndex p) 0x0A == 1 || (portOf s p).going.isSome

/-- A frame that a PFC pause of the partner holds back (R368): neither PFC itself nor what a lane sends in training. -/
def TxFrame.waitsPause : TxFrame → Bool
  | .ack _ _ _ _ | .nak _ _ _ _ | .rnr _ _ _ _ | .cnp _ _ | .addressReply => true
  | .pfc _ _ | .train _ _ | .basePage _ => false

/-- A frame the engine sends is kept in the order sent (log entry 8); while the partner pauses the port, it waits (R368). -/
def Net.sent (n : Net) (p : Nat) (f : TxFrame) : Net :=
  let x := tblGet {} n.ports p
  if f.waitsPause && x.paused then { n with ports := tblSet {} n.ports p { x with held := x.held ++ [f] } }
  else { n with tx := n.tx ++ [(p, f)] }

def transmit (s : State) (p : Nat) (f : TxFrame) : State := { s with net := s.net.sent p f }

/-- What a queue pair's frames carry (R370). -/
def Qp.path (x : Qp) : TxPath :=
  { mac := x.hopMac, ip := x.remoteIp, qpn := x.remoteQpn, udpSport := x.udpSport, dscp := x.dscp,
    vlan := if x.vlanEn then some (x.vlanId, x.vlanPcp) else none }

/-- A PFC frame of the partner (R368): the transmission pauses, or goes on with what has waited. -/
def setPause (s : State) (p : Nat) (on : Bool) : State :=
  if on then modPort s p (fun x => { x with paused := true })
  else
    let waiting := (portOf s p).held
    waiting.foldl (fun s f => transmit s p f) (modPort s p (fun x => { x with paused := false, held := [] }))

/-- A training frame of this end (R363). -/
def trainFrame (lane request : Nat) (taps : List Nat) (ready drop : Bool) : Nat :=
  let body := 0x4A5B * 2 ^ 48 + lane * 2 ^ 45 + request % 2 ^ 15 * 2 ^ 30
    + ((List.range 5).foldl (fun n k => n + taps.getD k 0 * 2 ^ (15 + 3 * k)) 0) + (if ready then 2 ^ 14 else 0) + (if drop then 2 ^ 13 else 0)
  body + crc32c (leBytes 8 body) % 2 ^ 13

/-- A lane mask without, or with, one bit. -/
def maskDrop (m l : Nat) : Nat := putBit m l false
def maskAdd (m l : Nat) : Nat := putBit m l true

/-! ## Waiting opens (R375) -/

/-- An unanswered request of an open is withdrawn from its pool. -/
def withdrawAlloc (s : State) (owner : ReqOwner) : State :=
  poolNumbers.foldl (fun s p =>
    let x := poolOf s p
    match x.waits.find? (fun r => r.owner == owner) with
    | none => s
    | some r => setPool (countWithdrawn s r) p { x with
        waits := x.waits.erase r
        held := if r.granted then tblSet 0 x.held r.slot (heldCount x r.slot - 1) else x.held }) s

/-- Whatever an open was granted is returned and whatever it waits for withdrawn. -/
def withdrawOpen (s : State) (p : Nat) (o : OpenReq) : State :=
  let r := lrOf s o.region
  let s := modPort s p (fun x => { x with openQ := x.openQ.filter (fun y => y.serial != o.serial) })
  let x := pairOf s r.link
  let s := if o.emptyGranted then semSignal s r.link false r.jobSlot
    else setPair s r.link { x with waits := x.waits.filter (fun w => w.who != .landing p o.serial) }
  match o.buffer with
  | some b => freeBuffers s r.jobSlot [b]
  | none => withdrawAlloc s (.landing p o.serial)

/-! ## Ends of messages (R371, R374, R376) -/

/-- Open messages of a port. -/
def openOn (s : State) (p : Nat) : List Msg := s.net.msgs.filter (fun m => m.port == p && m.opn)

/-- A quiescing port without an open message raises NET_QUIESCED once (R378). -/
def quiesceCheck (s : State) (p : Nat) : State :=
  if objGet s (portIndex p) 0x0A == 1 && !(portOf s p).quiesced && (openOn s p).isEmpty then
    fire (modPort s p (fun x => { x with quiesced := true })) 55 0
  else s

/-- The port goes down (R366, R367): it transmits nothing more, and its power domain is left to its caller. -/
def clearPort (s : State) (p : Nat) : State :=
  modPort s p (fun x => { x with
    state := 0, lanesUp := 0, trained := 0, laneSet := 0, lanes := [], realign := false, joining := 0, paused := false, held := []
    waiting := false })

/-- The power domain of a port (R383). -/
def netPower (s : State) (p : Nat) (on : Bool) : State :=
  { s with boot := if p == 0 then { s.boot with pdNet0 := on } else { s.boot with pdNet1 := on } }

/-- A queue pair that is being disabled has no open message left: its waiting opens are withdrawn, and the write completes (R371). -/
def qpStopped (s : State) (q : Nat) : State :=
  let x := qpOf s q
  match x.stopping with
  | none => s
  | some _ =>
    if s.net.msgs.any (fun m => m.qp == q && m.opn) then s
    else
      let s := ((portOf s x.port).openQ.filter (fun o => o.qp == q)).foldl (fun s o => withdrawOpen s x.port o) s
      localFinish (setQp s q { x with state := .disabled, stopping := none, cur := none }) 0x3001 4 0

/-- The same for a region (R372). -/
def lrStopped (s : State) (r : Nat) : State :=
  let x := lrOf s r
  match x.stopping with
  | none => s
  | some _ =>
    if s.net.msgs.any (fun m => m.region == r && m.opn) then s
    else localFinish (setLr s r { x with state := .disabled, stopping := none }) 0x3001 6 0

/-- A disable of a region or a queue pair is applied before the opens that wait: they get the NAK of check 10 (R377). -/
def denyOpens (s : State) (hit : OpenReq → Bool) : State :=
  [0, 1].foldl (fun s p => modPort s p (fun x => { x with
    openQ := x.openQ.map (fun o => if hit o then { o with denied := true } else o) })) s

/-- What a message's end leaves to be done: a quiesced port, and the disables that waited for it. -/
def afterEnd (s : State) (m : Msg) : State := lrStopped (qpStopped (quiesceCheck s m.port) m.qp) m.region

/-- How a message ends. -/
inductive MsgEnd where
  | whole
  | sequence
  | immediate
  | cut
deriving DecidableEq, Repr

/-- The landing record of a KIND 1 message (R376). -/
def landingRecord (s : State) (m : Msg) : List Byte :=
  leBytes 64 (s.boot.timeBase * 2 ^ 448 + m.bytes.length % 2 ^ 32 * 2 ^ 416 + m.region * 2 ^ 400 + m.qp * 2 ^ 384
    + m.slotIndex * 2 ^ 362 + m.port * 2 ^ 352)

/-- NET_LAST_REFUSAL (R380). -/
def lastRefusal (m : Msg) (code : Nat) (cut : Bool) : List Byte :=
  leBytes 2 m.region ++ leBytes 2 m.qp ++ leBytes 4 m.slotIndex ++ leBytes 2 code ++ leBytes 2 (if cut then 1 else 0)
    ++ leBytes 4 m.bytes.length

/-- The end of a KIND 1 message. -/
def endRaw (s : State) (m : Msg) (how : MsgEnd) : State :=
  match how with
  | .whole =>
    let s := bump (memWrite s m.buffer (landingRecord s m)) (portCounters m.port) 0x0C
    let e : LinkEntry := { space := 0, addr := m.buffer + m.placement, bytes := m.bytes.length, slot := m.jobSlot, buffer := some m.buffer }
    semSignal (pushEntry (dropMsg s m.id) m.link e) m.link true m.jobSlot
  | _ =>
    let code := match how with
      | .sequence => 0x1006
      | .immediate => 0x1007
      | _ => 0x1009
    let s := objSet s 0x3001 0x0C (leNat (lastRefusal m code (how == .cut)))
    releaseMsg (portErr s m.port code 53) m

/-- The end of a container's message (R376). One that no stage has taken waits for a stage when it has arrived whole; refused, or with
no stage to come, it is settled at once and no log records it (log entry 136). -/
def endContainer (s : State) (m : Msg) (how : MsgEnd) : State :=
  let len := m.bytes.length
  let s := modMsg s m.id (fun m => { m with opn := false })
  let s := match how with
    | .whole => bump s (portCounters m.port) 0x0C
    | .sequence => turnAway s m.id 0x1006 len false
    | .immediate => turnAway s m.id 0x1007 len false
    | .cut => turnAway s m.id (if len < 64 then 0x0201 else 0x0207) len true
  match msgOf s m.id with
  | none => s
  | some y =>
    if y.stage.isNone && !s.net.stages.any (fun i => i.waitLink == y.link && !i.stopped) then
      match y.refused with
      | some t => settleRefused s y t
      | none => if (slotOf s y.jobSlot).state == .halted then releaseMsg s y else s
    else ingestProgress s m.id

/-- A message ends (R374, R376). -/
def endMessage (s : State) (id : Nat) (how : MsgEnd) : State :=
  match msgOf s id with
  | none => s
  | some m => if !m.opn then s else afterEnd (if m.kind == 0 then endContainer s m how else endRaw s m how) m

/-- Messages cut off. -/
def cutMessages (s : State) (ms : List Msg) : State := ms.foldl (fun s m => endMessage s m.id .cut) s

/-- A queue pair moves to ERROR (R371): its open messages end, and NET_QP_ERROR is raised. -/
def qpError (s : State) (q : Nat) : State :=
  let x := qpOf s q
  if x.state != .ready then s
  else
    let s := portErr (setQp s q { x with state := .error, cur := none }) x.port 0x1005 51
    let waiting := (portOf s x.port).openQ.filter (fun o => o.qp == q)
    let s := waiting.foldl (fun s o => withdrawOpen s x.port o) s
    cutMessages s (s.net.msgs.filter (fun m => m.qp == q && m.opn))

/-- Every queue pair of a port moves to ERROR. -/
def portQpError (s : State) (p : Nat) : State :=
  ((s.net.qps.filter (fun e => e.2.port == p && e.2.state == .ready)).map (·.1)).foldl qpError s

/-! ## Training (R362 to R367) -/

/-- ENGINE_STATE becomes 2 once every enabled port has come up or has ended its first attempt (R364). -/
def engineReady (s : State) : State :=
  if s.fed.engineState == 1 && [0, 1].all (fun p => !portEnabled s p || (portOf s p).state == 3 || (portOf s p).tried)
  then { s with fed := { s.fed with engineState := 2 } } else s

/-- Training of a port starts (R362): base pages advertise the enabled lanes. While SAG_STATE is set it waits (R367, R429). -/
def startTraining (s : State) (p : Nat) : State :=
  if !portEnabled s p || !headCountClosed s || (portOf s p).heldDown then s
  else if s.removal.sag then modPort s p (fun x => { x with waiting := true })
  else
    let s := modPort s p (fun x => { x with
      state := 1, trained := 0, laneSet := 0, lanes := [], lost := false, dropped := 0, waiting := false })
    transmit s p (.basePage (laneEnable s p))

/-- The port's open messages end, its waiting opens are withdrawn, its queue pairs go to ERROR and it is down (R366). -/
def portDown (s : State) (p : Nat) : State :=
  let s := (portOf s p).openQ.foldl (fun s o => withdrawOpen s p o) s
  clearPort (portQpError (cutMessages s (openOn s p)) p) p

/-- A port written out of service goes down (R367), and the write completes. -/
def finishGoing (s : State) (p : Nat) : State :=
  if (portOf s p).going.isNone then s
  else
    let s := engineReady (fire (netPower (portDown s p) p false) 49 0)
    localFinish (localFinish (modPort s p (fun x => { x with going := none })) (portIndex p) 1 0) (portIndex p) 3 0

/-- A port going out of service does so at once when it has no open message. -/
def goingCheck (s : State) (p : Nat) : State :=
  if (portOf s p).going.isSome && (openOn s p).isEmpty then finishGoing s p else s

/-- A link loss (R366). -/
def linkLost (s : State) (p : Nat) : State :=
  if (portOf s p).state != 3 then s
  else if (portOf s p).going.isSome then finishGoing s p
  else modPort (portErr (portDown s p) p 0x1003 49) p (fun x => { x with lost := true })

/-- DROP is sent on a lane's training frames (R363, R365). -/
def sendDrop (s : State) (p l : Nat) : State := transmit s p (.train l (trainFrame l 0 [] false true))

/-- Lanes leave the link (R365, R367): DROP is sent on the training frames of each, until the partner echoes it, and the port realigns. -/
def dropLanes (s : State) (p : Nat) (ls : List Nat) : State :=
  let s := ls.foldl (fun s l => sendDrop s p l) s
  modPort s p (fun x => { x with lanesUp := ls.foldl maskDrop x.lanesUp, dropped := ls.foldl maskAdd x.dropped, realign := true })

/-- A lane sends a training frame, over and over (R363). -/
def sendTraining (s : State) (p l : Nat) (y : LaneTrain) (f : Nat) : State :=
  transmit (modPort s p (fun x => { x with lanes := tblSet {} x.lanes l { y with sends := some f } })) p (.train l f)

/-- Lanes start training: each sends its frames (R363). -/
def trainLanes (s : State) (p : Nat) (ls : List Nat) : State :=
  ls.foldl (fun s l => sendTraining (modPort s p (fun x => { x with dropped := maskDrop x.dropped l })) p l { training := true }
    (trainFrame l 0 [] false false)) s

/-- A lane is retired (R365). -/
def retireLane (s : State) (p l : Nat) : State :=
  let s := modPort s p (fun x => { x with retired := maskAdd x.retired l })
  portErr (dropLanes (objSet s (portIndex p) 3 (maskDrop (laneEnable s p) l)) p [l]) p 0x1002 50

end Sys2Proof.Machine
end

