-- ==== Sys2Proof/Machine/Net.lean ====
section
/-! DEFINITION. The commands of the network ports: ports and lanes (R360 to R367), queue pairs and regions (R370 to R372). -/

namespace Sys2Proof.Machine

/-- Ports on their way out of service go down when their last message has ended (R367). -/
def settlePorts (s : State) : State := goingCheck (goingCheck s 0) 1

/-! ## PORT_ENABLE, LANE_ENABLE, QUIESCE -/

/-- PORT_ENABLE written 0 (R367): an up port quiesces first, any other goes down at once. -/
def disablePort (s : State) (via : Via) (p : Nat) (index sub : Nat) (data : List Byte) : State :=
  let s := objSet s (portIndex p) 1 0
  if (portOf s p).state == 3 then
    goingCheck (startLong (modPort s p (fun x => { x with going := some via })) via index sub data false 0) p
  else dictDone (engineReady (netPower (clearPort s p) p false)) via

/-- PORT_ENABLE written 1 on a port that is down (R367). -/
def enablePort (s : State) (p : Nat) : State :=
  let s := objSet (objSet s (portIndex p) 1 1) (portIndex p) 0x0A 0
  startTraining (modPort (netPower s p true) p (fun x => { x with quiesced := false })) p

/-- The write of PORT_ENABLE (R367): one that equals the current value changes nothing. -/
def portEnableEffect : WriteEffect := fun via index sub data s =>
  let p := index - 0x3010
  if leNat data == objGet s index 1 then dictDone s via
  else if leNat data == 0 then disablePort s via p index sub data
  else dictDone (enablePort s p) via

/-- PORT_ENABLE_WRITE (R367). -/
def execPortEnableWrite (via : Via) (port value : Nat) (s : State) : Result :=
  .next (requestWrite portEnableEffect via (portIndex port) 1 (leBytes 1 value) s)

/-- PORT_DISABLE_DEADLINE (R367): 1 ms after the write the messages still open end and the port goes down. -/
def execPortDisableDeadline (port : Nat) (s : State) : Result := .next (finishGoing s port)

/-- The write of LANE_ENABLE (R365, R367). -/
def laneEnableEffect : WriteEffect := fun via index sub data s =>
  let p := index - 0x3010
  let x := portOf s p
  let v := leNat data
  let s' := objSet s index 3 v
  let gone := (List.range 8).filter (fun l => x.lanesUp.testBit l && !v.testBit l)
  let fresh := (List.range 8).filter (fun l => !(laneEnable s p).testBit l && v.testBit l && !x.lanesUp.testBit l)
  if x.state != 3 then dictDone s' via
  else if gone.length == popCount x.lanesUp then disablePort s' via p index sub data
  else
    let s' := if gone.isEmpty then s' else dropLanes s' p gone
    dictDone (trainLanes s' p fresh) via

/-- LANE_ENABLE_WRITE (R365, R367). -/
def execLaneEnableWrite (via : Via) (port value : Nat) (s : State) : Result :=
  .next (requestWrite laneEnableEffect via (portIndex port) 3 (leBytes 1 value) s)

/-- The write of QUIESCE (R378). -/
def quiesceEffect : WriteEffect := fun via index _ data s =>
  let p := index - 0x3010
  let was := objGet s index 0x0A
  let s := objSet s index 0x0A (leNat data)
  let s := if was != leNat data then modPort s p (fun x => { x with quiesced := false }) else s
  dictDone (quiesceCheck s p) via

/-- QUIESCE_WRITE (R378). -/
def execQuiesceWrite (via : Via) (port value : Nat) (s : State) : Result :=
  .next (requestWrite quiesceEffect via (portIndex port) 0x0A (leBytes 1 value) s)

/-! ## Training -/

/-- AUTONEG_COMPLETE (R362, R363): the lane set is what both partners advertise, and each lane of it starts training. -/
def execAutonegComplete (port partner : Nat) (s : State) : Result :=
  .next (if (portOf s port).state != 1 || !unitsWork s then s
    else
      let set := Nat.land (laneEnable s port) partner
      trainLanes (modPort s port (fun x => { x with state := 2, laneSet := set, lanes := [] })) port
        ((List.range 8).filter (fun l => set.testBit l)))

/-- The CHECK of a training frame (R363). -/
def trainCheckOk (f : Nat) : Bool := crc32c (leBytes 8 (f / 2 ^ 13 * 2 ^ 13)) % 2 ^ 13 == f % 2 ^ 13

/-- The answer to one tap's request (R363): hold leaves it, any other listed request updates it or meets a limit, and the spec states
no range of a tap (log entry 3). -/
def tapAnswer (s : State) (request : Nat) : Nat × State :=
  match request with
  | 1 => let (v, s) := drawFree s 2; (if v == 0 then 1 else 3, s)
  | 2 => let (v, s) := drawFree s 2; (if v == 0 then 1 else 2, s)
  | 3 => (1, s)
  | _ => (0, s)

/-- The partner's DROP takes a lane out of the link, which DROP answers; where this end sends DROP itself, it is the echo of it (R363). -/
def takeDrop (s : State) (p l : Nat) : State :=
  let x := portOf s p
  if x.dropped.testBit l then modPort s p (fun x => { x with dropped := maskDrop x.dropped l })
  else if x.state == 3 && x.lanesUp.testBit l then (if popCount x.lanesUp == 1 then linkLost s p else dropLanes s p [l])
  else modPort s p (fun x => { x with lanes := tblSet {} x.lanes l {} })

/-- TRAINING_FRAME_RECEIVED (R363, R364): the partner's requests are answered and its readiness kept; its DROP takes the lane out, and one
of this end that it has not echoed is sent again. `request` is what this end's receiver asks of the partner's taps, `ready` that it meets R364. -/
def execTrainingFrameReceived (port lane frame request : Nat) (ready : Bool) (s : State) : Result :=
  .next (
    let x := portOf s port
    let l := tblGet {} x.lanes lane
    if frame / 2 ^ 48 % 2 ^ 16 != 0x4A5B || frame / 2 ^ 45 % 8 != lane || !trainCheckOk frame || !unitsWork s then s
    else if frame.testBit 13 then takeDrop s port lane
    else if x.dropped.testBit lane then sendDrop s port lane
    else if !l.training then s
    else
      let (taps, s) := (List.range 5).foldl (fun (acc : List Nat × State) k =>
        let (v, s) := tapAnswer acc.2 (frame / 2 ^ (30 + 3 * k) % 8)
        (acc.1 ++ [v], s)) ([], s)
      let y : LaneTrain := { training := true, taps := taps, ready := ready, partnerReady := frame.testBit 14 }
      sendTraining s port lane y (trainFrame lane request taps ready false))

/-- LANE_TRAINED (R364, R365): both ends have sent RX_READY for 1 ms. A lane of an up port joins by a realignment. A retired lane's bit
clears. -/
def execLaneTrained (port lane : Nat) (s : State) : Result :=
  .next (
    let x := portOf s port
    let l := tblGet {} x.lanes lane
    if !l.training || !l.ready || !l.partnerReady || !unitsWork s then s
    else if x.state == 2 then
      modPort s port (fun x => { x with
        trained := maskAdd x.trained lane, retired := maskDrop x.retired lane, lanes := tblSet {} x.lanes lane {} })
    else if x.state == 3 then
      modPort s port (fun x => { x with
        joining := maskAdd x.joining lane, retired := maskDrop x.retired lane, realign := true, lanes := tblSet {} x.lanes lane {} })
    else s)

/-- Training of a port has failed (R364). -/
def trainFailed (s : State) (p : Nat) : State :=
  engineReady (portErr (modPort (clearPort s p) p (fun x => { x with tried := true })) p 0x1004 49)

/-- TRAINING_DEADLINE (R362, R364): lanes not trained are left out; with none trained the port goes back to down. On an up port the
lanes that trained alone are given up. -/
def execTrainingDeadline (port : Nat) (s : State) : Result :=
  .next (
    let x := portOf s port
    if !unitsWork s then s
    else if x.state == 1 || (x.state == 2 && x.trained == 0) then trainFailed s port
    else if x.state == 2 || x.state == 3 then modPort s port (fun x => { x with lanes := [] })
    else s)

/-- PORT_LINK_UP (R362). -/
def execPortLinkUp (port aclk : Nat) (s : State) : Result :=
  .next (
    let x := portOf s port
    if x.state != 2 || x.trained == 0 || !unitsWork s then s
    else
      let s := modPort s port (fun x => { x with state := 3, lanesUp := x.trained, lanes := [], tried := true })
      fire (engineReady (objSet s (portIndex port) 9 aclk)) 48 0)

/-- TRAINING_RETRY (R364): 1 s after a failed training. -/
def execTrainingRetry (port : Nat) (s : State) : Result :=
  .next (if (portOf s port).state == 0 && (portOf s port).tried && !(portOf s port).lost && unitsWork s then startTraining s port else s)

/-- LINK_LOSS_RETRAIN (R362): 1 ms after a link loss. -/
def execLinkLossRetrain (port : Nat) (s : State) : Result :=
  .next (if (portOf s port).state == 0 && (portOf s port).lost && unitsWork s then startTraining s port else s)

/-- A lane of an up port is retired; the last lane's loss is left to LINK_LOSS (R365, R366). -/
def laneFails (s : State) (p l : Nat) : State :=
  let x := portOf s p
  if x.state != 3 || !x.lanesUp.testBit l || popCount x.lanesUp == 1 || !unitsWork s then s else retireLane s p l

/-- LANE_LOCK_LOSS (R365). -/
def execLaneLockLoss (port lane : Nat) (s : State) : Result := .next (laneFails s port lane)

/-- LANE_FEC_LIMIT (R365): the last lane of a port is retired too, and its loss is a link loss (R366). `codewords` are those it could
not decode within the 1 ms (R381). -/
def execLaneFecLimit (port lane codewords : Nat) (s : State) : Result :=
  .next (
    let x := portOf s port
    let s := if x.state == 3 && x.lanesUp.testBit lane && unitsWork s then bumpBy s (portCounters port) 0x0B codewords else s
    if x.state == 3 && x.lanesUp.testBit lane && popCount x.lanesUp == 1 && unitsWork s then linkLost (retireLane s port lane) port
    else laneFails s port lane)

/-- REALIGN_COMPLETE (R365). -/
def execRealignComplete (port : Nat) (s : State) : Result :=
  .next (if !(portOf s port).realign then s
    else modPort s port (fun x => { x with realign := false, lanesUp := Nat.lor x.lanesUp x.joining, joining := 0 }))

/-- LINK_LOSS (R366). -/
def execLinkLoss (port : Nat) (s : State) : Result := .next (settlePorts (linkLost s port))

/-! ## Queue pairs and regions -/

/-- A write is refused with NET_CONFIG (R371, R372), counted for a port. -/
def netConfig (s : State) (via : Via) (p check : Nat) : State :=
  dictAbort (portErr (objSet s 0x3000 0x0D check) p 0x1001 52) via (abortCode 0x20 0x1001)

/-- ENTRY_CRC of a 64-byte entry (R370, R372); an entry read poisoned fails it. -/
def entryCrcOk (s : State) (addr : Nat) : Bool :=
  let b := memBytes s addr 64
  crc32c (b.drop 4) == fld b 0 4 && !memPoisoned s addr 64

/-- The write of QP_ENABLE (R371). -/
def qpEnableEffect : WriteEffect := fun via _ _ data s =>
  let q := leNat data
  let a := objGet s 0x3001 1 + 64 * q
  let e := memNat s a 64
  let s := readChecked s 63 a 64
  let p := bitsOf e 32 32
  if !entryCrcOk s a then netConfig s via p 1
  else if bitsOf e 247 33 != 0 || bitsOf e 265 264 != 0 then netConfig s via p 2
  else if (qpOf s q).state != .disabled then netConfig s via p 3
  else dictDone (setQp s q {
    state := .ready, epsn := bitsOf e 311 288, remoteIp := bitsOf e 511 384, hopMac := bitsOf e 383 336,
    remoteQpn := bitsOf e 335 312, udpSport := bitsOf e 287 272, dscp := bitsOf e 271 266, vlanId := bitsOf e 263 252,
    vlanEn := e.testBit 251, vlanPcp := bitsOf e 250 248, port := p }) via

/-- QP_ENABLE (R371). -/
def execQpEnable (via : Via) (qp : Nat) (s : State) : Result :=
  .next (requestWrite qpEnableEffect via 0x3001 3 (leBytes 2 qp) s)

/-- The write of QP_DISABLE (R371): it completes once the queue pair's open messages have ended. -/
def qpDisableEffect : WriteEffect := fun via index sub data s =>
  let q := leNat data
  if (qpOf s q).state == .disabled then dictDone s via
  else qpStopped (startLong (denyOpens (modQp s q (fun x => { x with stopping := some via })) (fun o => o.qp == q)) via index sub data
    false 0) q

/-- QP_DISABLE (R371). -/
def execQpDisable (via : Via) (qp : Nat) (s : State) : Result :=
  .next (requestWrite qpDisableEffect via 0x3001 4 (leBytes 2 qp) s)

/-- QP_DISABLE_DEADLINE (R371, R372): 1 ms after the write, the open messages of the queue pair or region end. -/
def execQpDisableDeadline (region : Bool) (number : Nat) (s : State) : Result :=
  .next (settlePorts (
    if region then
      (if (lrOf s number).stopping.isNone then s
        else lrStopped (cutMessages s (s.net.msgs.filter (fun m => m.region == number && m.opn))) number)
    else if (qpOf s number).stopping.isNone then s
    else qpStopped (cutMessages s (s.net.msgs.filter (fun m => m.qp == number && m.opn))) number))

/-- A region entry (R372). -/
def lrEntry (e : Nat) : Lr :=
  { state := .enabled, vaBase := bitsOf e 511 448, rkey := bitsOf e 447 416, jobTag := bitsOf e 415 384, slots := bitsOf e 383 360,
    slotLog2 := bitsOf e 359 352, anyQp := e.testBit 350, qp := bitsOf e 349 340, link := bitsOf e 339 332,
    jobSlot := bitsOf e 331 326, pool := bitsOf e 325 322, kind := bitsOf e 321 320, place := bitsOf e 319 288 }

/-- Where message byte 0 goes in a buffer (R109, R372). -/
def Lr.placement (x : Lr) : Nat := if x.kind == 0 then 4032 else x.place

/-- Check 2 of R372. -/
def lrFieldsOk (e : Nat) (x : Lr) : Bool :=
  bitsOf e 287 32 == 0 && !e.testBit 351 && x.kind ≤ 1 && 8 ≤ x.slotLog2 && x.slotLog2 ≤ 30 && 1 ≤ x.slots && x.slots ≤ 2 ^ 22
  && x.rkey != 0 && x.vaBase % 2 ^ x.slotLog2 == 0 && (if x.kind == 0 then x.place == 0 else x.place % 64 == 0 && 64 ≤ x.place)

/-- The regions that are not disabled. -/
def enabledLrs (s : State) : List (Nat × Lr) := s.net.lrs.filter (fun e => e.2.state != .disabled)

/-- The check of R372 that fails, 0 when all pass. -/
def lrCheck (s : State) (r addr e : Nat) : Nat :=
  let x := lrEntry e
  if !entryCrcOk s addr || (lrOf s r).state != .disabled then 1
  else if !lrFieldsOk e x then 2
  else if (enabledLrs s).any (fun y => y.2.rkey == x.rkey) then 3
  else if !(poolOf s x.pool).enabled || 2 ^ poolLog2 s x.pool < x.placement + 2 ^ x.slotLog2 then 4
  else if 65536 < (((enabledLrs s).map (·.2.link) ++ [x.link]).eraseDups.foldl (fun n l => n + (pairOf s l).depth) 0) then 5
  else 0

/-- The write of LR_ENABLE (R372). -/
def lrEnableEffect : WriteEffect := fun via _ _ data s =>
  let r := leNat data
  let a := objGet s 0x3001 2 + 64 * r
  let e := memNat s a 64
  let s := readChecked s 63 a 64
  let c := lrCheck s r a e
  if c != 0 then netConfig s via 0 c else dictDone (setLr s r (lrEntry e)) via

/-- LR_ENABLE (R372). -/
def execLrEnable (via : Via) (region : Nat) (s : State) : Result :=
  .next (requestWrite lrEnableEffect via 0x3001 5 (leBytes 2 region) s)

/-- The write of LR_DISABLE (R372). -/
def lrDisableEffect : WriteEffect := fun via index sub data s =>
  let r := leNat data
  if (lrOf s r).state != .enabled then dictDone s via
  else lrStopped (startLong (denyOpens (setLr s r { lrOf s r with state := .disabling, stopping := some via }) (fun o => o.region == r)) via
    index sub data false 0) r

/-- LR_DISABLE (R372). -/
def execLrDisable (via : Via) (region : Nat) (s : State) : Result :=
  .next (requestWrite lrDisableEffect via 0x3001 6 (leBytes 2 region) s)

/-! ## Acknowledgements (R369) -/

/-- An ACK for the latest PSN: the one before ePSN. -/
def sendAck (s : State) (q : Nat) : State :=
  let x := qpOf s q
  bump (transmit (setQp s q { x with unacked := 0 }) x.port (.ack q ((x.epsn + 2 ^ 24 - 1) % 2 ^ 24) x.msn x.path)) (portCounters x.port) 6

/-- ACK_DELAY_EXPIRY (R369): packets have stayed unacknowledged for NET_ACK_DELAY. -/
def execAckDelayExpiry (qp : Nat) (s : State) : Result :=
  .next (if 0 < (qpOf s qp).unacked && unitsWork s then sendAck s qp else s)

end Sys2Proof.Machine
end

