-- ==== Sys2Proof/Machine/Landing.lean ====
section
/-! DEFINITION. Frames, packets and landed messages (R368, R369, R373 to R376). -/

namespace Sys2Proof.Machine

/-! ## Answers -/

/-- The NAK of check 9 or 10 for the packet with ePSN, which advances; the queue pair goes to ERROR (R368, R369). -/
def nakError (s : State) (p q syndrome psn : Nat) : State :=
  let s := modQp s q (fun x => { x with epsn := (x.epsn + 1) % 2 ^ 24 })
  qpError (bump (transmit s p (.nak q syndrome psn (qpOf s q).path)) (portCounters p) 7) q

/-- An RNR NAK carries the packet's PSN and NET_RNR_CODE; ePSN does not advance, and LAND_NO_OPEN is raised (R375). -/
def rnrNak (s : State) (p q psn : Nat) : State :=
  let s := transmit s p (.rnr q psn (objGet s 0x3000 8) (qpOf s q).path)
  portErr (bump s (portCounters p) 7) p 0x1008 54

/-- HCLK in a microsecond (R23: 5 HCLK are 6.25 ns). -/
def hclkPerUs : Nat := 800

/-- An accepted packet marked CE causes a CNP, at most one in NET_CNP_INTERVAL (R368). -/
def congestion (s : State) (p q : Nat) (ce : Bool) : State :=
  let due := match (qpOf s q).lastCnp with
    | some t => t + objGet s 0x3000 0x0A * hclkPerUs ≤ s.boot.timeBase
    | none => true
  if !ce || !due then s
  else bump (transmit (modQp s q (fun x => { x with lastCnp := some s.boot.timeBase })) p (.cnp q (qpOf s q).path)) (portCounters p) 8

/-- Opcodes of R368. -/
def opensOperation (op : Nat) : Bool := op == 0x06 || op == 0x0A || op == 0x0B
def endsOperation (op : Nat) : Bool := op == 0x08 || op == 0x09 || op == 0x0A || op == 0x0B
def hasImmediate (op : Nat) : Bool := op == 0x09 || op == 0x0B

/-- Check 9 of R368, with an operation under way for the packets that continue one. -/
def opcodeOk (x : Qp) (f : Frame) : Bool :=
  0x06 ≤ f.opcode && f.opcode ≤ 0x0B
  && (if f.opcode ≤ 0x07 then f.payload.length == 4096 else 1 ≤ f.payload.length && f.payload.length ≤ 4096)
  && (opensOperation f.opcode || x.cur.isSome)

/-! ## Landing -/

/-- Payload goes into a message's buffer (R373, R109): of a container the header and payload, not the trailer, and nothing once it
is refused. -/
def landBytes (s : State) (m : Msg) (bs : List Byte) : State :=
  let all := m.bytes ++ bs
  let keep := if m.kind == 0 && 60 ≤ all.length then 64 + fld all 56 4 - m.bytes.length else bs.length
  let s := if m.refused.isSome then s else memWrite s (m.buffer + m.placement + m.bytes.length) (bs.take keep)
  let s := bumpBy s (portCounters m.port) 5 bs.length
  let s := modMsg s m.id (fun m => { m with bytes := all })
  if m.kind == 0 then ingestProgress s m.id else s

/-- A packet of the operation under way is accepted: ePSN advances, its payload lands in its message or is discarded, an operation
that ends is counted, and an acknowledgement is sent when one is due (R369). -/
def acceptPacket (s : State) (p q : Nat) (f : Frame) : State :=
  let x := qpOf s q
  let (msg, off) := x.cur.getD (none, 0)
  let s := setQp s q { x with
    epsn := (x.epsn + 1) % 2 ^ 24, nakSent := false, unacked := x.unacked + 1
    cur := if endsOperation f.opcode then none else some (msg, off + f.payload.length)
    msn := if endsOperation f.opcode then (x.msn + 1) % 2 ^ 24 else x.msn }
  let s := congestion s p q f.ce
  let s := match msg.bind (msgOf s) with
    | some m =>
      if m.opn && m.bytes.length == off then
        let s := landBytes s m f.payload
        if !hasImmediate f.opcode then s
        else endMessage s m.id (if f.imm == off + f.payload.length then .whole else .immediate)
      else s
    | none => s
  if hasImmediate f.opcode || objGet s 0x3000 6 ≤ (qpOf s q).unacked then sendAck s q else s

/-- A packet that starts an operation on a message (none: its data are discarded). -/
def startOperation (s : State) (p q : Nat) (f : Frame) (msg : Option Nat) (off : Nat) : State :=
  acceptPacket (modQp s q (fun x => { x with cur := some (msg, off) })) p q f

/-- The region of an R_Key that accepts a queue pair, with the slot and offset of the operation (check 10, R373). -/
def addressed (s : State) (q : Nat) (f : Frame) : Option (Nat × Nat × Nat) :=
  match s.net.lrs.find? (fun e => e.2.state == .enabled && e.2.rkey == f.rkey && (e.2.anyQp || e.2.qp == q)) with
  | none => none
  | some (r, x) =>
    let u := f.va - x.vaBase
    let size := 2 ^ x.slotLog2
    if x.vaBase ≤ f.va && u / size < x.slots && u % size + f.dmaLen ≤ size then some (r, u / size, u % size) else none

/-- A message cannot open now (R375): no running job with the region's JOB_TAG, HALT fetched, a save, a quiescing port. -/
def cannotOpen (s : State) (p : Nat) (r : Lr) : Bool :=
  let x := slotOf s r.jobSlot
  (x.state != .running && x.state != .parked) || x.job.jobTag != r.jobTag || x.save.isSome || quiescing s p

/-- An open of a slot, on either port, came before (R374). -/
def slotAsked (s : State) (r k before : Nat) : Bool :=
  [0, 1].any (fun p => (portOf s p).openQ.any (fun o => o.region == r && o.slotIndex == k && o.serial < before))

/-- The open queue of a port has room for an open: fewer than 64 wait in it (R375), and none that came before is for this slot (R374). -/
def openRoom (s : State) (p r k serial : Nat) : Bool :=
  (portOf s p).openQ.countP (fun o => o.asked) < 64 && !slotAsked s r k serial

/-- The first packet of a message makes its two requests and waits; with no room for it in the open queue it waits for that first
(R375). -/
def requestOpen (s : State) (p q r k : Nat) (f : Frame) : State :=
  let x := lrOf s r
  let serial := s.net.nextSerial
  let room := openRoom s p r k serial
  let o : OpenReq := { serial := serial, qp := q, region := r, slotIndex := k, frame := f, asked := room }
  let s := { s with net := { s.net with nextSerial := serial + 1 } }
  let s := modPort s p (fun y => { y with openQ := y.openQ ++ [o] })
  if !room then s
  else poolRequest (semWait s x.link false x.jobSlot (.landing p serial)) x.jobSlot (2 ^ poolLog2 s x.pool) (.landing p serial)

/-- An operation begins (R374): it continues its message, breaks the sequence, or asks for a message to open. -/
def beginOperation (s : State) (p q : Nat) (f : Frame) : State :=
  match addressed s q f with
  | none => nakError s p q 0x62 f.psn
  | some (r, k, o) =>
    match s.net.msgs.find? (fun m => m.opn && m.region == r && m.slotIndex == k) with
    | some m =>
      if m.qp == q && m.bytes.length == o then startOperation s p q f (some m.id) o
      else startOperation (endMessage s m.id .sequence) p q f none o
    | none =>
      if o != 0 then startOperation (bump s (portCounters p) 0x15) p q f none o
      else if (qpOf s q).stopping.isSome then nakError s p q 0x62 f.psn
      else if cannotOpen s p (lrOf s r) then rnrNak s p q f.psn
      else requestOpen s p q r k f

/-- A packet of an enabled queue pair (R369, R368 checks 8 to 10): that with ePSN ends the silence after a NAK for the sequence; behind a waiting open of its queue pair it waits too (R375). -/
def takePacket (s : State) (p q : Nat) (f : Frame) : State :=
  let x := qpOf s q
  let d := (f.psn + 2 ^ 24 - x.epsn) % 2 ^ 24
  if x.state != .ready then bump s (portCounters p) 4
  else if (portOf s p).openQ.any (fun o => o.qp == q) then
    modPort s p (fun y => { y with openQ := y.openQ.map (fun o => if o.qp == q then { o with behind := o.behind ++ [f] } else o) })
  else if 2 ^ 23 ≤ d then sendAck (bump s (portCounters p) 9) q
  else if d != 0 then
    (if x.nakSent then s
     else bump (transmit (setQp s q { x with nakSent := true }) p (.nak q 0x60 x.epsn x.path)) (portCounters p) 7)
  else
  let s := setQp s q { x with nakSent := false }
  if !opcodeOk x f then nakError s p q 0x61 f.psn
  else if opensOperation f.opcode then beginOperation s p q f
  else acceptPacket s p q f

/-! ## Frames (R368) -/

/-- The PFC the port sends as its receive buffer fills and empties (R368). -/
def flowControl (s : State) (p bufferBytes : Nat) : State :=
  let prio := objGet s 0x3000 0x0C
  let x := portOf s p
  let s := setPort s p { x with bufferBytes := bufferBytes }
  if prio == 0xFF then s
  else if 1572864 < bufferBytes && !x.pause then transmit (modPort s p (fun x => { x with pause := true })) p (.pfc prio true)
  else if bufferBytes < 1048576 && x.pause then transmit (modPort s p (fun x => { x with pause := false })) p (.pfc prio false)
  else s

/-- What a frame is after checks 2 and 3. -/
inductive FrameUse where
  | packet | address | pause | other
deriving DecidableEq, Repr

/-- Check 2: the destination is MAC_ADDR, or broadcast for ARP; a PFC frame goes to its standard's own address (log entry 205). -/
def macOk (s : State) (p : Nat) (f : Frame) : Bool :=
  f.destMac == objGet s (portIndex p) 7 % 2 ^ 48 || (f.destMac == 0xFFFFFFFFFFFF && f.etherType == 0x0806)
  || (f.destMac == 0x0180C2000001 && f.etherType == 0x8808)

/-- IP_ADDR of a port (R380). -/
def portIp (s : State) (p : Nat) : Nat := objGet s (portIndex p) 8

/-- Check 3: ARP requests (operation 1) and neighbour solicitations (ICMPv6 type 135) for IP_ADDR, PFC frames, and IP. -/
def frameUse (s : State) (p : Nat) (f : Frame) : FrameUse :=
  if 1 < f.tags then .other
  else if f.etherType == 0x0806 then (if f.operation == 1 && f.target == portIp s p then .address else .other)
  else if f.etherType == 0x8808 then (if f.operation == 0x0101 then .pause else .other)
  else if f.etherType == 0x86DD && f.protocol == 58 && f.operation == 135 && f.target == portIp s p then .address
  else if f.etherType == 0x0800 || f.etherType == 0x86DD then .packet
  else .other

/-- Check 4. -/
def ipOk (s : State) (p : Nat) (f : Frame) : Bool :=
  (if f.etherType == 0x0800 then f.ihl == 5 && f.headerSum && !f.fragment else f.protocol == 17) && f.destIp == portIp s p

/-- Check 5. -/
def udpOk (f : Frame) : Bool := f.protocol == 17 && f.udpPort == 4791

/-- Checks 1 to 7, and what the frame is then. -/
def takeFrame (s : State) (p : Nat) (f : Frame) : State :=
  let c := portCounters p
  let q := f.qpn - 0x100
  let x := qpOf s q
  if !f.fcsOk then bump s c 2
  else if !macOk s p f then bump s c 4
  else match frameUse s p f with
    | .other => bump s c 4
    | .address => transmit s p .addressReply
    | .pause => setPause s p (f.pauseTime != 0)
    | .packet =>
      if !ipOk s p f || !udpOk f then bump s c 4
      else if !f.icrcOk then bump s c 3
      else if f.tver != 0 || !(f.pkey == 0xFFFF || f.pkey == 0x7FFF) || f.qpn < 0x100 || 0x4FF < f.qpn || x.state == .disabled
          || x.port != p || x.remoteIp != f.srcIp then bump s c 4
      else takePacket s p q f

/-- What the port counts of a frame that it receives (R381). -/
def countFrame (s : State) (p : Nat) (f : Frame) : State :=
  bumpBy (bumpBy (bump s (portCounters p) 1) (portCounters p) 0x0A f.fecCorrected) (portCounters p) 0x0B f.fecFailed

/-- The first packet that waits for room in the open queue, when there is room for it now. -/
def nextTurn (s : State) (p : Nat) : Option OpenReq :=
  (portOf s p).openQ.find? (fun o => !o.asked && !o.denied && openRoom s p o.region o.slotIndex o.serial)

/-- The packets that waited for room in the open queue are taken as it has room, each with those behind it (R375). -/
def retake (p : Nat) : Nat → State → State
  | 0, s => s
  | n + 1, s =>
    match nextTurn s p with
    | none => s
    | some o =>
      let s := modPort s p (fun x => { x with openQ := x.openQ.filter (fun y => y.serial != o.serial) })
      retake p n ((o.frame :: o.behind).foldl (fun s f => takePacket s p o.qp f) s)

/-- What follows what a port has taken or decided: packets that waited for room, ports and stages that waited. -/
def settleOpens (s : State) : State :=
  let s := [0, 1].foldl (fun s p => retake p ((portOf s p).openQ.length + 1) s) s
  settlePorts (stagesTake s)

/-- FRAME_RECEIVED (R368): `bufferBytes` is what the port's receive buffer then holds. A port that is not up, or realigns, receives
nothing. -/
def execFrameReceived (port : Nat) (frame : Frame) (bufferBytes : Nat) (s : State) : Result :=
  .next (
    let x := portOf s port
    if x.state != 3 || x.realign || !unitsWork s then s
    else settleOpens (takeFrame (flowControl (countFrame s port frame) port bufferBytes) port frame))

/-! ## Opens (R375) -/

/-- The packets that waited behind an open are taken in order. -/
def takeBehind (s : State) (p : Nat) (o : OpenReq) : State := o.behind.foldl (fun s f => takePacket s p o.qp f) s

/-- A message opens: a container announces itself on its link, and the packet that waited is accepted. -/
def openMessage (s : State) (p : Nat) (o : OpenReq) (buffer : Nat) : State :=
  let r := lrOf s o.region
  let id := s.net.nextMsg
  let pool := match bufferAt s buffer with
    | some (k, _) => k
    | none => r.pool
  let m : Msg := { id := id, region := o.region, port := p, qp := o.qp, slotIndex := o.slotIndex, jobSlot := r.jobSlot, kind := r.kind,
                   pool := pool, buffer := buffer, placement := r.placement, link := r.link }
  let s := modPort s p (fun x => { x with openQ := x.openQ.filter (fun y => y.serial != o.serial) })
  let s := { s with net := { s.net with msgs := s.net.msgs ++ [m], nextMsg := id + 1 } }
  let s := if r.kind == 0 then stagesTake (semSignal s r.link true r.jobSlot) else s
  takeBehind (startOperation s p o.qp o.frame (some id) 0) p o

/-- An open is given up with an answer. -/
def giveUpOpen (s : State) (p : Nat) (o : OpenReq) (answer : State → State) : State :=
  takeBehind (answer (withdrawOpen s p o)) p o

/-- An open has been decided: denied, refused, or both its requests granted. -/
def OpenReq.decided (o : OpenReq) : Bool := o.denied || o.refused || (o.emptyGranted && o.buffer.isSome)

/-- A decided open: a disable of its region or queue pair comes first (R377), then what keeps it from opening (R375). -/
def decideOpen (s : State) (p : Nat) (o : OpenReq) : State :=
  if o.denied then giveUpOpen s p o (fun s => nakError s p o.qp 0x62 o.frame.psn)
  else if o.refused || cannotOpen s p (lrOf s o.region) then giveUpOpen s p o (fun s => rnrNak s p o.qp o.frame.psn)
  else openMessage s p o (o.buffer.getD 0)

/-- MESSAGE_OPEN (R375, R377): the first waiting open that has been decided; `bufferBytes` is what the receive buffer then holds
(R368). -/
def execMessageOpen (port bufferBytes : Nat) (s : State) : Result :=
  .next (
    match (portOf s port).openQ.find? OpenReq.decided with
    | none => s
    | some o => if unitsWork s then settleOpens (decideOpen (flowControl s port bufferBytes) port o) else s)

/-- OPEN_WAIT_EXPIRY (R375): the oldest open still waiting for a grant is answered with an RNR NAK; `bufferBytes` is what the receive
buffer then holds (R368). -/
def execOpenWaitExpiry (port bufferBytes : Nat) (s : State) : Result :=
  .next (
    match (portOf s port).openQ.find? (fun o => o.asked && !o.decided) with
    | none => s
    | some o =>
      if unitsWork s then
        settleOpens (giveUpOpen (flowControl s port bufferBytes) port o (fun s => rnrNak s port o.qp o.frame.psn))
      else s)

end Sys2Proof.Machine
end

