-- ==== Sys2Proof/Machine/Sdx.lean ====
section
/-! DEFINITION. The seed expander's lanes (R119 to R126): streams, permutations, lockstep, and what finished residues do. -/

namespace Sys2Proof.Machine

/-! ## Streams taken by lanes (R121) -/

/-- A lane's buffer of eight lines is full with what a run holds in it: no further permutation starts there (R122). -/
def bufferFull (s : State) (u : Nat) (r : LaneRun) : Bool := 8 ≤ tblGet 0 s.sdx.held u + r.pending

/-- A lane takes a run. -/
def laneTakes (s : State) (u : Nat) (r : LaneRun) : State :=
  { s with sdx := { s.sdx with lanes := tblSet none s.sdx.lanes u (some r) } }

/-- SDX_STREAM_START (R121): a stream that lost its lane comes first (R120), then the ready stream of the slot R25 chooses; the lowest
free lane in service takes it. -/
def execSdxStreamStart (s : State) : Result :=
  .next (match (if unitsWork s then freeUnit s .sdx else none) with
    | none => s
    | some u =>
      match s.sdx.moved with
      | r :: rest => laneTakes { s with sdx := { s.sdx with moved := rest } } u { r with stalled := bufferFull s u r }
      | [] =>
        let ready := s.sdx.streams.filter (·.ready)
        let slots := (ready.map (·.slot)).eraseDups
        match arbPick s unitSdx slots with
        | none => s
        | some n =>
          match ready.find? (fun x => x.slot == n) with
          | none => s
          | some x =>
            let s := arbGrant { s with sdx := { s.sdx with streams := s.sdx.streams.erase x } } unitSdx n slots
            let r : LaneRun := { stream := x, state := shakeStart x.input }
            laneTakes s u { r with stalled := bufferFull s u r })

/-! ## Residues (R126) -/

/-- The residues or bytes a stream accepts from a block of output, after `skip` words of it (R102, R126). -/
def accepted (x : Stream) (block : List Byte) (skip : Nat) : List Nat :=
  let b := block.drop (4 * skip)
  if x.q == 0 then b.map (·.toNat)
  else if x.q == 252 then (b.map (·.toNat)).filter (· < 252)
  else ((List.range (b.length / 4)).map (fun i => fld b (4 * i) 4 % 2 ^ 31)).filter (· < x.q)

/-- A line of residues of a tile, from those accepted in order. -/
def residueLine (got : List Nat) (n : Nat) : List Byte := ((got.drop (128 * n)).take 128).flatMap (leBytes 4)

/-- The lines of residues that are full. -/
def fullLines (r : LaneRun) : Nat := r.got.length / 128

/-- Line n of a regenerated key limb goes to DLV: its place is that of a_d at its ordinal (R129, R136). It waits in the allotment, or is
held in the lane's buffer until it is accepted (R122, R137). -/
def keyLimbLine (s : State) (u : Nat) (r : LaneRun) (cmd d o n : Nat) : State :=
  match keyRunOf s cmd with
  | none => s
  | some k =>
    match dlvOf s k.dlv with
    | none => s
    | some x =>
      let off := keyOffset s k true d o + 512 * n
      let pair := (d - k.item.p.digitFirst) * k.item.p.limbCount + (o - k.item.p.limbFirst)
      let s := if r.stream.allotted then s
        else { s with sdx := { s.sdx with held := tblSet 0 s.sdx.held u (tblGet 0 s.sdx.held u + 1) } }
      emitLine s k.dlv (placeLine s x
        { addr := k.item.p.dest + off, space := 1, data := (List.range 512).zip (residueLine r.got.reverse n), poison := false,
          tile := 2 ^ 48, sub := off / 65536, lane := if r.stream.allotted then none else some u
          rank := if r.stream.allotted then 0 else 1, part := 2 * pair + 1 })

/-- Line n of a regenerated c1 limb is written into its container's buffer, and its residues are added to the limb's sum (R109, R112). -/
def ctLimbLine (s : State) (r : LaneRun) (m limb n : Nat) : State :=
  match msgOf s m with
  | none => s
  | some x =>
    let h := ecnHeader x.bytes
    let bs := residueLine r.got.reverse n
    let s := modMsg s m (fun x => { x with sums := tblSet 0 x.sums limb ((tblGet 0 x.sums limb + (tileWords bs).foldl (· + ·) 0) % 8191) })
    memWrite s (x.buffer + 4096 + h.payload + limb * 4 * 2 ^ h.log2n + 512 * n) bs

/-- The memory write port takes the next lines of a ciphertext limb from its lane (R122). -/
def takeLines : Nat → State → LaneRun → State × LaneRun
  | 0, s, r => (s, r)
  | n + 1, s, r =>
    match r.stream.use with
    | .ctLimb m limb => if r.pending == 0 then (s, r) else takeLines n (ctLimbLine s r m limb r.written) { r with written := r.written + 1 }
    | _ => (s, r)

/-- The lines filled by a permutation: those of a key limb go to DLV, of a ciphertext limb the memory write port takes what it
takes, all when the stream has ended (log entry 54). -/
def passLines (s : State) (u old : Nat) (r : LaneRun) (taken : Nat) (ended : Bool) : State × LaneRun :=
  match r.stream.use with
  | .keyLimb cmd d o _ => (((List.range (fullLines r - old)).map (· + old)).foldl (fun s n => keyLimbLine s u r cmd d o n) s, r)
  | .ctLimb _ _ => takeLines (if ended then r.pending else taken) s r
  | .noise _ _ _ => (s, r)

/-- A stream has ended: its lane is free, its consumer learns of it. -/
def streamEnds (s : State) (u : Nat) (r : LaneRun) : State :=
  let s := freeLane s u
  match r.stream.use with
  | .keyLimb cmd _ _ _ => closeKey (match keyRunOf s cmd with
      | some k => advanceDlv s k.dlv
      | none => s) cmd
  | .ctLimb m limb => modMsg s m (fun x => { x with expanded := setAdd x.expanded [limb] })
  | .noise _ _ _ => { s with sdx := { s.sdx with done := s.sdx.done ++ [(r.stream.use, r.got.reverse)] } }

/-- A permutation's output is released (R119): 42 words, of which a stream that changed lanes discards those released before (R120). -/
def release168 (s : State) (u : Nat) (r : LaneRun) (taken : Nat) : State :=
  let a := keccakF r.state
  let skip := min 42 r.skip
  let got := ((accepted r.stream (shakeBytes a) skip).reverse ++ r.got)
  let got := got.drop (got.length - r.stream.len)
  let r' := { r with state := a, perms := r.perms + 1, got := got, skip := r.skip - skip, retried := false }
  let ended := r.stream.len ≤ got.length
  let (s, r') := passLines (bump s 0x8060 1) u (fullLines r) r' taken ended
  let s := if ended then streamEnds s u r' else laneTakes s u { r' with stalled := bufferFull s u r' }
  match r.stream.use with
  | .keyLimb cmd _ _ _ => (match keyRunOf s cmd with
      | some k => advanceDlv s k.dlv
      | none => s)
  | _ => s

/-! ## Lockstep (R120) -/

/-- Containers that wait for c1 limbs are refused when no lane is in service (R111). -/
def refuseExpanding (s : State) : State :=
  let uses := s.sdx.streams.map (·.use) ++ s.sdx.moved.map (·.stream.use)
    ++ s.sdx.lanes.filterMap (fun e => e.2.map (·.stream.use))
  (s.net.msgs.filter (fun m => uses.any (·.ofMessage m.id))).foldl (fun s m => ingestProgress (turnNoLane s m.id) m.id) s

/-- A lane is retired; its stream goes to another, which begins again from the input (R120). -/
def laneRetires (s : State) (u : Nat) (r : LaneRun) : State :=
  let s := retireUnit { s with sdx := { s.sdx with lanes := tblSet none s.sdx.lanes u none } } .sdx u
  let r' := { r with state := shakeStart r.stream.input, perms := 0, skip := 42 * r.perms + r.skip, retried := false, stalled := false }
  let s := raiseErr { s with sdx := { s.sdx with moved := s.sdx.moved ++ [r'] } } 0x0609 r.stream.slot
  if (serviceList s .sdx).isEmpty then refuseExpanding s else s

/-- SDX_PERMUTATION_DONE (R119, R120): `disagree` tells whether the two copies' final states differ, `taken` how many lines of a
ciphertext limb the memory write port has taken from the lane since the last permutation (R122). -/
def execSdxPermutationDone (lane : Nat) (disagree : Bool) (taken : Nat) (s : State) : Result :=
  .next (match tblGet none s.sdx.lanes lane with
    | none => s
    | some r =>
      if !unitsWork s || r.stalled then s
      else if !disagree then release168 s lane r taken
      else if !r.retried then raiseErr (laneTakes s lane { r with retried := true }) 0x0608 r.stream.slot
      else laneRetires s lane r)

/-- SDX_STALL_RESUME (R122): a line has left a full buffer, one of a ciphertext limb taken by the memory write port. -/
def execSdxStallResume (lane stallFclk : Nat) (s : State) : Result :=
  .next (match tblGet none s.sdx.lanes lane with
    | none => s
    | some r =>
      let (t, r') := takeLines 1 s r
      if !r.stalled || bufferFull s lane r' then s
      else bumpBy (laneTakes t lane { r' with stalled := false }) 0x8060 2 stallFclk)

/-- SDX_LANE_ENABLE_WRITE (R124). -/
def execSdxLaneEnableWrite (via : Via) (high : Bool) (value : Nat) (s : State) : Result :=
  .next (enableWrite .sdx high 8 via value s)

end Sys2Proof.Machine
end

