-- ==== Sys2Proof/Machine/Keys.lean ====
section
/-! DEFINITION. Keys (R127 to R138): the directory, registration, and the dispatch of key-stream items. -/

namespace Sys2Proof.Machine

/-! ## The directory (R130, R131) -/

def keyEntryAddr (s : State) (x : Nat) : Nat := objGet s 0x5800 0x10 + 64 * x

/-- A directory entry's fields. -/
def keyEntryOf (b : List Byte) : KeyEntry :=
  let e := leNat b
  { seed := (b.drop 32).take 32, payload := bitsOf e 255 192, galois := bitsOf e 191 160, fingerprint := bitsOf e 159 128,
    objectTag := bitsOf e 127 96, status := bitsOf e 95 80, log2n := bitsOf e 79 72, set := bitsOf e 71 64,
    kind := bitsOf e 63 56, digits := bitsOf e 55 48, alpha := bitsOf e 47 40, valid := e.testBit 32 }

/-- An entry's 64 bytes with its CRC. -/
def keyEntryBytes (x : KeyEntry) : List Byte :=
  let rest := leBytes 1 (if x.valid then 1 else 0) ++ leBytes 1 x.alpha ++ leBytes 1 x.digits ++ leBytes 1 x.kind ++ leBytes 1 x.set ++ leBytes 1 x.log2n
    ++ leBytes 2 x.status ++ leBytes 4 x.objectTag ++ leBytes 4 x.fingerprint ++ leBytes 4 x.galois ++ leBytes 8 x.payload
    ++ (x.seed ++ leBytes 32 0).take 32
  leBytes 4 (crc32c rest) ++ rest

/-- The entry at an index, with whether its CRC matches. -/
def keyEntryAt (s : State) (x : Nat) : KeyEntry × Bool :=
  let b := memBytes s (keyEntryAddr s x) 64
  (keyEntryOf b, crc32c (b.drop 4) == fld b 0 4 && !memPoisoned s (keyEntryAddr s x) 64)

def writeKeyEntry (s : State) (x : Nat) (e : KeyEntry) : State := memWrite s (keyEntryAddr s x) (keyEntryBytes e)

/-! ## Registration (R132) -/

/-- The issue of KEY_REGISTER: steps 1 to 3; the container is then read. The entry's other fields stay as memory held them (DESIGN CHOICE,
log entry 252). -/
def issueRegister (s : State) (c : Cmd) (cont index : Nat) : State :=
  if objGet s 0x5800 0x11 ≤ index || cont % 4096 != 4032 then refuseItem s c.id c.slot 0x0601
  else if s.sdx.keys.any (fun k => k.item.p.index == index) then raiseErr (finishCmd s c.id 0x0602 1 0) 0x0602 c.slot
  else
    let s := writeKeyEntry s index { (keyEntryAt s index).1 with valid := false }
    { s with sdx := { s.sdx with regs := s.sdx.regs ++ [{ cmd := c.id, slot := c.slot, cont := cont, index := index }] } }

/-- The code with which steps 4 and 5 end, 0 when they pass; a container read poisoned fails its CRC. -/
def registerCode (s : State) (r : KeyReg) : Nat :=
  let hb := memBytes s r.cont 64
  let h := ecnHeader hb
  let x := setOf s h.set
  match ecnStep1 hb with
  | some e => e.1
  | none =>
    if 7 < h.set || !(slotOf s r.slot).job.primeSets.testBit h.set then 0x0204
    else
      match ecnStep2 s h with
      | some e => e.1
      | none =>
        match ecnStep3 s hb h with
        | some e => e.1
        | none =>
          if h.kind != 2 || x.l ≤ (h.digits - 1) * ceilDiv x.l h.digits then 0x0603
          else
            let b := memBytes s r.cont (68 + h.payload)
            if (ecnRange s h b (h.payload / 4) 0).isSome then 0x0206
            else if memPoisoned s r.cont (68 + h.payload) || !ecnCrcOk b h.payload then 0x0207
            else 0

/-- The entry of a registration that has passed (step 6). -/
def registeredEntry (s : State) (r : KeyReg) : KeyEntry :=
  let h := ecnHeader (memBytes s r.cont 64)
  { seed := h.seed, payload := r.cont + 64, galois := h.galois, fingerprint := h.fingerprint, objectTag := h.tag, status := 0,
    log2n := h.log2n, set := h.set, kind := h.keyKind, digits := h.digits, alpha := ceilDiv (setOf s h.set).l h.digits, valid := true }

/-- A registration ends: step 6, or the entry left not valid with the code of its failure, its other fields as memory held them (DESIGN
CHOICE, log entry 252). -/
def endRegistration (s : State) (slot : Nat) (r : KeyReg) (code : Nat) : State :=
  if code == 0 then finishCmd (bump (writeKeyEntry s r.index (registeredEntry s r)) 0x8060 3) r.cmd 0 1 0
  else
    finishCmd (raiseErrOn (bump (writeKeyEntry s r.index { (keyEntryAt s r.index).1 with valid := false, status := code }) 0x8060 4)
      code slot 26) r.cmd code 1 0

/-- KEY_REGISTRATION_CHECK (R132): steps 4 to 6 for the registration a queue of a slot issued. -/
def execKeyRegistrationCheck (slot queue : Nat) (s : State) : Result :=
  .next (match s.sdx.regs.find? (fun r => r.slot == slot && (cmdOf s r.cmd).any (fun c => c.queue == queue)) with
    | none => s
    | some r =>
      if !unitsWork s then s
      else
        let s := readChecked s slot r.cont (68 + (ecnHeader (memBytes s r.cont 64)).payload)
        endRegistration { s with sdx := { s.sdx with regs := s.sdx.regs.erase r } } slot r (registerCode s r))

/-! ## Streaming (R134 to R138) -/

/-- The delivery of a key-stream item as it enters the unit. -/
def newKeyItem (c : Cmd) (p : KeyParams) (due : Nat) : Dlv :=
  { id := 0, owner := .key c.id, slot := c.slot, tag := wTag c.word, due := due, scratch := true, local_ := true,
    sliver := p.sliver, region := p.region, open_ := true }

/-- The issue of KEY_STREAM: check 3 of R280, which the order of issue decides; the item takes its place among the deliveries and
waits for its dispatch. -/
def issueKeyStream (s : State) (c : Cmd) (p : KeyParams) : State :=
  let due := dueOf s c.slot p.due
  if !dueOk s c.slot due then refuseUnwritten s c due 0x0E03
  else
    let i : KeyItem := { cmd := c.id, slot := c.slot, tag := wTag c.word, p := p, dlv := s.dlv.nextId }
    addDlv { s with sdx := { s.sdx with keyQueue := s.sdx.keyQueue ++ [i] } } (newKeyItem c p due)

/-- An item as a run, for the sizes of R129. -/
def keyRunFor (s : State) (i : KeyItem) (e : KeyEntry) : KeyRun :=
  { item := i, entry := e, due := dueOf s i.slot i.p.due, dlv := i.dlv, units := [], freeTiles := 0 }

/-- Check 4 of R135, with the values of R134. -/
def keyParamOk (s : State) (k : KeyRun) : Bool :=
  let p := k.item.p
  let x := setOf s k.entry.set
  p.level < x.l && 1 ≤ p.digitCount && 1 ≤ p.limbCount && p.digitFirst + p.digitCount ≤ p.level / k.entry.alpha + 1
  && p.limbFirst + p.limbCount ≤ keyC s k && p.allot ≤ 64 && p.allot * 4 * keyN k ≤ 16777216 && p.dest % 512 == 0
  && p.expectGalois < 2 * keyN k && p.expectKind ≤ 4 && (slotOf s k.item.slot).job.primeSets.testBit k.entry.set

/-- The code that refuses an item at dispatch (R135), 0 for none. -/
def keyCode (s : State) (i : KeyItem) : Nat :=
  if objGet s 0x5800 0x11 ≤ i.p.index then 0x0601
  else
    let (e, crcOk) := keyEntryAt s i.p.index
    let x := setOf s e.set
    let k := keyRunFor s i e
    if !crcOk || !e.valid then 0x0604
    else if !x.valid || x.fingerprint != e.fingerprint then 0x0605
    else if (i.p.expectKind != 0 && i.p.expectKind != e.kind) || (i.p.expectGalois != 0 && i.p.expectGalois != e.galois) then 0x0606
    else if !keyParamOk s k then 0x0601
    else if (serviceList s .sdx).isEmpty then 0x0607
    else 0

/-- Checks 1 and 2 of R280 for an item. -/
def keyPlaceCode (s : State) (i : KeyItem) : Nat :=
  placeCode s i.slot i.p.region i.p.sliver [dieId s] (keyLines s (keyRunFor s i (keyEntryAt s i.p.index).1)) false

/-- The staging units of an item: its allotment's, and its read stream's. -/
def keyUnits (s : State) (i : KeyItem) : Nat :=
  tileUnits (keyRunFor s i (keyEntryAt s i.p.index).1) i.p.allot + prefetchDepth s i.slot

/-- The XOF input of a key limb (R125). -/
def keyInput (e : KeyEntry) (limb digit : Nat) : List Byte :=
  e.seed ++ leBytes 1 1 ++ leBytes 1 e.set ++ leBytes 2 limb ++ leBytes 1 1 ++ leBytes 1 digit

/-- The stream of pair j of an item (R136, R137). -/
def keyStream (s : State) (k : KeyRun) (opened : Bool) (j : Nat) : Stream :=
  let (d, o) := keyPair k j
  let limb := keyLimbOf s k o
  { slot := k.item.slot, use := .keyLimb k.item.cmd d o limb, input := keyInput k.entry limb d,
    q := ((setOf s k.entry.set).recs[limb]?.getD {}).q, len := keyN k, ready := opened || j < k.item.p.allot,
    allotted := !opened && j < k.item.p.allot }

/-- A dispatched item: its delivery starts to read, its streams are made. -/
def startKey (s : State) (i : KeyItem) (units : List Nat) : State :=
  let k := { keyRunFor s i (keyEntryAt s i.p.index).1 with units := units, freeTiles := i.p.allot }
  let pairs := i.p.digitCount * i.p.limbCount
  let opened := windowOpen s k.due
  let (free, s) := reserveFree s (pairs * 4 * keyN k)
  let s := modDlv s i.dlv (fun x => { x with dispatched := true, tiles := ceilDiv (pairs * 4 * keyN k) 65536, free := free })
  feedStream { s with sdx := { s.sdx with
    keys := s.sdx.keys ++ [k], streams := s.sdx.streams ++ (List.range pairs).map (keyStream s k opened) } } i.dlv

/-- An item refused at its dispatch: its delivery is complete with nothing written, its record says why, and its slot is faulted. -/
def refuseKey (s : State) (i : KeyItem) (code flags : Nat) : State :=
  let s := match dlvOf s i.dlv with
    | some x =>
      sliverUse { doneHere s x with dlv := { (doneHere s x).dlv with items := s.dlv.items.filter (fun y => y.id != i.dlv) } } x.sliver false
    | none => s
  errFault (finishDelivery s i.cmd { tag := i.tag, due := dueOf s i.slot i.p.due, status := code, flags := flags }) i.slot code

/-- The first item of a slot waiting for dispatch. -/
def firstKey (s : State) (n : Nat) : Option KeyItem := s.sdx.keyQueue.find? (fun i => i.slot == n)

/-- An item that can be dispatched now: to be refused, or with its staging free. -/
def keyReady (s : State) (i : KeyItem) : Bool :=
  keyCode s i != 0 || keyPlaceCode s i != 0 || keyUnits s i ≤ (sharedFree s).length

/-- KEY_STREAM_DISPATCH (R135, R137). -/
def execKeyStreamDispatch (s : State) : Result :=
  .next (
    let slots := slotNumbers.filter (fun n =>
      match firstKey s n with
      | some i => keyReady s i
      | none => false)
    match (if unitsDispatch s then arbPick s unitKey slots else none) with
    | none => s
    | some n =>
      match firstKey s n with
      | none => s
      | some i =>
        let t := arbGrant { s with sdx := { s.sdx with keyQueue := s.sdx.keyQueue.erase i } } unitKey n slots
        let t := readChecked t n (keyEntryAddr s i.p.index) 64
        if keyCode s i != 0 then refuseKey t i (keyCode s i) flagDone
        else if keyPlaceCode s i != 0 then refuseKey t i (keyPlaceCode s i) (flagDone + flagUnwritten)
        else
          match takeUnits t (keyUnits s i) with
          | none => s
          | some (us, t) => startKey t i us)

end Sys2Proof.Machine
end

