-- ==== Sys2Proof/Machine/Issue.lean ====
section
/-! DEFINITION. The issue of queued commands (R317, R321): the reading and the checks of parameter blocks, and what each work command
does at its issue. -/

namespace Sys2Proof.Machine

/-! ## Parameter blocks (R321) -/

/-- The bytes of a command's block, none when its offset or reach is invalid. Bytes read poisoned are unstated (log entry 3). -/
def readBlock (s : State) (c : Cmd) : Option (List Byte) × State :=
  let a := blockAddr s c
  let n := blockBytes (wOpcode c.word)
  if wOffset c.word % 64 != 0 || 2 ^ 48 < a + n then (none, s)
  else
    let (b, s) := readMem s c.slot a n
    (some b, s)

/-- A command is refused at its issue: it ends with the code and its slot is faulted. -/
def refuseIssue (s : State) (c : Cmd) (code : Nat) : State := refuseItem s c.id c.slot code

/-- An offset lies in a window of a size. -/
def startsIn (size off : Nat) : Bool := off < size

/-! ## Work commands -/

/-- TXA_ITEM: the item waits for a tile. -/
def issueTxa (s : State) (c : Cmd) (b : List Byte) : State :=
  let p := txaBlock b
  let (base, size) := txaWindow s c.slot
  if !p.reserved then refuseIssue s c 0x0F03
  else if !([p.wBase, p.xBase, p.outAddr] ++ (if p.init == 1 then [p.initAddr] else [])).all (startsIn size) then refuseIssue s c 0x0F04
  else
    let s := setOutput s c 2 (base + p.outAddr) (txaWrites p).2 none
    { s with txa := { s.txa with queue := s.txa.queue ++ [{ cmd := c.id, slot := c.slot, p := p }] } }

/-- FORGE_ITEM: the item waits for the forge. A plaintext at the start of a pool buffer hands that buffer on (R18, log entry 40). -/
def issueForge (s : State) (c : Cmd) (b : List Byte) : State :=
  let p := forgeBlock b
  let (base, size) := pfgWindow s c.slot
  if !p.reserved then refuseIssue s c 0x0F03
  else if (p.noise == 0 && !startsIn size p.srcAddr) || (forgeStaged p && !startsIn size (forgeOut p)) then refuseIssue s c 0x0F04
  else
    let bytes := p.batch * forgeObject s p
    let s := if forgeStaged p then setOutput s c 3 (base + forgeOut p) bytes none
      else setOutput s c 0 p.outAddr bytes (if p.output == 0 then (bufferAt s p.outAddr).map (fun _ => p.outAddr) else none)
    { s with forge := { s.forge with queue := s.forge.queue ++ [{ cmd := c.id, slot := c.slot, p := p }] } }

/-- DELIVER; `entry` is what its wait granted it. -/
def issueDlv (s : State) (c : Cmd) (b : List Byte) (entry : Option LinkEntry) : State :=
  let p := deliverBlock b
  if !p.reserved then refuseRecorded s c (dueOf s c.slot p.due) 0x0F03
  else
    let (entry, s) := if p.srcKind == 1 && (entry.isNone || p.link != wWaitLink c.word) then takeEntry s p.link else (entry, s)
    writeManifests (issueDeliver s c p entry) c.slot

/-- KEY_REGISTER. -/
def issueKeyReg (s : State) (c : Cmd) (b : List Byte) : State :=
  if !zeros b 12 4 then refuseIssue s c 0x0F03 else issueRegister s c (fld b 0 8) (fld b 8 4)

/-- KEY_STREAM. -/
def issueKey (s : State) (c : Cmd) (b : List Byte) : State :=
  let p := keyBlock b
  if !p.reserved then refuseRecorded s c (dueOf s c.slot p.due) 0x0F03 else issueKeyStream s c p

/-- INGEST_STAGE. -/
def issueStage (s : State) (c : Cmd) (b : List Byte) : State :=
  if !(ingestBlock b).reserved then refuseIssue s c 0x0F03 else issueIngest s c (ingestBlock b)

/-- One granule of a FETCH is copied, with its mark. -/
def fetchGranule (s : State) (toTxa : Bool) (src dst : Nat) : State :=
  let bs := memBytes s src 64
  match toTxa, memPoisoned s src 64 with
  | true, true => txaWritePoisoned s dst bs
  | true, false => txaWrite s dst bs
  | false, true => pfgWritePoisoned s dst bs
  | false, false => pfgWrite s dst bs

/-- FETCH (R325): a block of device memory is copied into a staging window. -/
def issueFetch (s : State) (c : Cmd) (b : List Byte) : State :=
  let src := fld b 0 8
  let len := fld b 8 4
  let dst := fld b 12 4
  let unit := fld b 16 1
  let (base, size) := if unit == 0 then txaWindow s c.slot else pfgWindow s c.slot
  if src % 64 != 0 || len % 64 != 0 || len < 64 || 2 ^ 24 < len || 2 ^ 48 < src + len || 1 < unit || !zeros b 17 15 then refuseIssue s c 0x0F03
  else if !inWindow size dst len then refuseIssue s c 0x0F04
  else
    let bad := memPoisoned s src len
    let s := (List.range (len / 64)).foldl (fun s k => fetchGranule s (unit == 0) (src + 64 * k) (base + dst + 64 * k)) s
    let s := readChecked s c.slot src len
    let s := setOutput s c (if unit == 0 then 2 else 3) (base + dst) len none
    finishCmd s c.id (if bad then 0x1203 else 0) (flagDone + if bad then flagPoisoned else 0) 0

/-- ALLOC (R325): the address granted goes to RESULT_ADDR. -/
def issueAlloc (s : State) (c : Cmd) (b : List Byte) : State :=
  let addr := fld b 8 8
  if 2 ^ 48 < addr + 8 || !zeros b 4 4 then refuseIssue s c 0x0F03
  else poolRequest (modCmd s c.id (fun d => { d with result := addr })) c.slot (fld b 0 4) (.cmd c.id)

/-- FREE (R325). -/
def issueFree (s : State) (c : Cmd) (b : List Byte) : State :=
  if !zeros b 8 8 then refuseIssue s c 0x0F03 else presentFree s { slot := c.slot, addr := fld b 0 8, cmd := some c.id }

/-- A work command with its block. -/
def issueWork (s : State) (c : Cmd) (b : List Byte) (entry : Option LinkEntry) : State :=
  match wOpcode c.word with
  | 0x10 => issueTxa s c b
  | 0x11 => issueForge s c b
  | 0x12 => issueDlv s c b entry
  | 0x13 => issueKeyReg s c b
  | 0x14 => issueKey s c b
  | 0x15 => issueStage s c b
  | 0x16 => issueBatch s c (batchBlock b)
  | 0x17 => issueFetch s c b
  | 0x18 => issueAlloc s c b
  | _ => issueFree s c b

/-! ## COMMAND_ISSUE (R317) -/

/-- The next command of a queue needs a wait granted before its issue. -/
def needsGrant (c : Cmd) : Bool :=
  let op := wOpcode c.word
  (op == opWait && wWaitKind c.word == 0) || (isWork op && !isStage op && wWaitEn c.word)

/-- A command whose block cannot be read is refused: of a delivery the record's DUE is not stated (log entry 3). -/
def refuseBlock (s : State) (c : Cmd) : State :=
  if wOpcode c.word == opDeliver || wOpcode c.word == opKeyStream then
    let (due, s) := drawFree s (2 ^ 48)
    refuseRecorded s c due 0x0F03
  else refuseIssue s c 0x0F03

/-- A command is issued. A semaphore WAIT and a SIGNAL have nothing more to wait for, a barrier's condition is seen at its
completion, and a time WAIT's delay starts (R320). -/
def issueCmd (s : State) (c : Cmd) : State :=
  let op := wOpcode c.word
  let s := modCmd s c.id (fun c => { c with issued := true })
  let s := traceRec s 1 0 c.slot op (wTag c.word) c.index
  if op == opWait && wWaitKind c.word == 2 then s
  else if !isWork op then finishCmd s c.id 0 1 0
  else
    let (entry, s) := if !isStage op && wWaitEn c.word && wWaitFull c.word then takeEntry s (wWaitLink c.word) else (none, s)
    match readBlock s c with
    | (none, s) => refuseBlock s c
    | (some b, s) => issueWork s c b entry

/-- An uncorrectable error in a semaphore pair (R414): its users are faulted and its counters read as configured. -/
def pairError (s : State) (p : Nat) : State :=
  let s := lastBadOther (raiseErr s 0x1204 63)
  let x := pairOf s p
  let s := clearLink (setPair s p { x with empty := x.depth, full := 0 }) p
  x.users.foldl (fun s n => slotFault s n 0x1204) s

/-- COMMAND_ISSUE (R317, R412, R414, R415): the next command of a slot's queue is issued once its wait is granted. The last operand tells
of an uncorrectable error met in control state: 0 none, 1 in the slot's own state, 2 + p in pair p, 258 + c the fatal cause c, its state kind in [15:8] and its unit in [7:0] (R422). -/
def execCommandIssue (slot queue : Nat) (ras : Nat) (s : State) : Result :=
  .next (
    if !unitsWork s then s
    else if 258 ≤ ras then fatalError s (ras - 258)
    else if 2 ≤ ras then pairError s (ras - 2)
    else if ras == 1 then (if slotBusy s slot then errFault (lastBadOther s) slot 0x1204 else s)
    else
      match nextUnissued s slot queue with
      | none => s
      | some c =>
        if needsGrant c && !c.granted then s
        else askNext (issueCmd s c) slot queue)

end Sys2Proof.Machine
end

