-- ==== Sys2Proof/Machine/Bringup.lean ====
section
/-! DEFINITION. Power, reset and bring-up (R383 to R385, R428), the head count (R386 to R392), and leaving the part (R393,
R394). -/

namespace Sys2Proof.Machine

/-! ## Reset (R383, R428) -/

/-- All dies of a package kind (R6). -/
def allDies (kind : Nat) : Nat := 2 ^ kind - 1

/-- FED_MEMBERS at power-on: all dies of PACKAGE_KIND, once the fuses are known (R406). -/
def powerOnMembers (s : State) : Nat :=
  match s.boot.fuses with
  | some f => allDies f.packageKind
  | none => 0

/-- A full reset of the engine: every object at its default; what the package wires and drives, the retained values, device memory
and scratchpad stay. -/
def resetBlock (s : State) : State :=
  { pending := s.pending
    drawn := s.drawn
    boot := { fuses := s.boot.fuses, pwrgood := s.boot.pwrgood, pdAon := s.boot.pwrgood, busSag := s.boot.busSag }
    mem := { dev := s.mem.dev, devPoison := s.mem.devPoison, failing := s.mem.failing, sp := s.mem.sp, spPoison := s.mem.spPoison }
    dlv := { banks := s.dlv.banks.foldl (fun t e => tblSet {} t e.1 { req := e.2.req, on := e.2.on }) [] }
    fed := { group := s.fed.group, members := s.fed.members, fatalCause := s.fed.fatalCause }
    evt := { cores := s.evt.cores.foldl (fun t e => tblSet {} t e.1 { sleeping := e.2.sleeping }) [] }
    tap := s.tap }

/-- The retained values at power-on (R383). -/
def powerOn (s : State) : State := { s with fed := { s.fed with group := 0, members := powerOnMembers s, fatalCause := 0 } }

/-- PWRGOOD_RISE (R383). -/
def execPwrgoodRise (s : State) : Result :=
  .next (if s.boot.pwrgood then s
    else powerOn { s with boot := { s.boot with pwrgood := true, pdAon := true } })

/-- PWRGOOD_FALL (R428): an immediate reset that also discards every retained value. -/
def execPwrgoodFall (s : State) : Result :=
  .next (powerOn (resetBlock { s with boot := { s.boot with pwrgood := false } }))

/-- RESET_ASSERT (R428). -/
def execResetAssert (s : State) : Result := .next (resetBlock s)

/-- RESET_RELEASE (R384, R392): the release is seen, and the values of FED_GROUP and FED_MEMBERS take effect. -/
def execResetRelease (s : State) : Result :=
  .next (if !s.boot.inReset || !s.boot.pwrgood then s
    else { s with
      boot := { s.boot with inReset := false }
      fed := { s.fed with groupUsed := s.fed.group, membersUsed := s.fed.members } })

/-! ## Bring-up (R384) -/

/-- The enable bits of the tiles present (R73). -/
def fuseTiles (s : State) : State :=
  let n := tilesFused s
  objSet (objSet s 0x5001 1 (2 ^ min n 64 - 1)) 0x5001 2 (2 ^ (n - 64) - 1)

/-- BRINGUP_STRAP_LATCH (R384): fuses never change once known (R4); the objects whose default they give take it (R73, R380). -/
def execBringupStrapLatch (packageKind arrayMode dieId memStrap mac0 mac1 : Nat) (s : State) : Result :=
  .next (if s.boot.inReset || s.boot.latched then s
    else
      let first := s.boot.fuses.isNone
      let f : Fuses := s.boot.fuses.getD { packageKind := packageKind, arrayMode := arrayMode, dieId := dieId, memStrap := memStrap,
                                           mac0 := mac0, mac1 := mac1 }
      let s : State := { s with boot := { s.boot with fuses := some f, latched := true, pdCcx := true } }
      let s := if first then { s with fed := { s.fed with members := allDies f.packageKind, membersUsed := allDies f.packageKind } } else s
      objSet (objSet (fuseTiles s) 0x3010 7 (f.mac0 % 2 ^ 48)) 0x3011 7 (f.mac1 % 2 ^ 48))

/-- BRINGUP_DOMAIN_POWER (R384): HCLK runs, the domains are powered and their SRAM reads zero (R411). -/
def execBringupDomainPower (s : State) : Result :=
  .next (if !s.boot.latched || s.boot.hclk then s
    else { s with
      boot := { s.boot with hclk := true, pdMem := true, pdCore := true, pdMedia := true, pdTxaHi := fullArray s }
      mem := { s.mem with txa := [], txaPoison := [], pfg := [], pfgPoison := [], bank0 := [], bank1 := [] } })

/-- BRINGUP_CCX_SELFTEST_DONE (R384, R387): the self-test, and the memory ports that answered their test read. -/
def execBringupCcxSelftestDone (passed : Bool) (memOk : Nat) (s : State) : Result :=
  .next (if !s.boot.hclk || s.boot.ccxTested then s
    else { s with
      boot := { s.boot with ccxTested := true }
      fed := { s.fed with health := putBit (putBit s.fed.health 0 passed) 1 (memOk % 16 == 15) } })

/-- A unit that fails its self-test at bring-up starts out of service, retired; RAS_SELFTEST is raised at once or when the head
count closes (R384, R417). -/
def unitFailed (s : State) (k : UnitKind) (code u : Nat) : State :=
  let s := setRetired (setEnable s k u false) k u true
  if headCountClosed s then raiseErr s 0x1206 63
  else { s with boot := { s.boot with failedUnits := s.boot.failedUnits ++ [code * 256 + u] } }

/-- BRINGUP_UNIT_SELFTEST_DONE (R384, R417). -/
def execBringupUnitSelftestDone (txa sdx rsv mdc tok : List Nat) (s : State) : Result :=
  .next (if !s.boot.ccxTested || s.boot.unitsTested then s
    else
      let fails (k : UnitKind) (code : Nat) (us : List Nat) (s : State) : State :=
        (us.filter (fun u => u < unitCount s k)).foldl (fun s u => unitFailed s k code u) s
      let s := fails .txa 1 txa { s with boot := { s.boot with unitsTested := true } }
      fails .tok 5 tok (fails .mdc 4 mdc (fails .rsv 3 rsv (fails .sdx 2 sdx s))))

/-! ## A bus sag (R398, R429) -/

/-- QUIESCE of a port is set or cleared (R378). -/
def setQuiesce (s : State) (p v : Nat) : State :=
  let was := objGet s (portIndex p) 0x0A
  let s := objSet s (portIndex p) 0x0A v
  quiesceCheck (if was != v then modPort s p (fun x => { x with quiesced := false }) else s) p

/-- SAG_STATE and what follows it in the next ACLK (R398): admission and dispatch stop, both ports quiesce. -/
def sagBegin (s : State) : State :=
  let s := raiseErr { s with removal := { s.removal with sag := true } } 0x1108 63
  setQuiesce (setQuiesce s 0 1) 1 1

/-! ## The head count (R387 to R391) -/

/-- The dies an engine expects: its members, or in a re-election those that were admitted but for the old lead (R388, R394). -/
def expectedDies (s : State) : Nat := if s.fed.electing then putBit s.fed.admitted s.fed.lead false else s.fed.membersUsed

/-- Its own announcement, on every trained link, and heard by itself (R387). -/
def announceSelf (s : State) : State :=
  let h : Heard := { group := s.fed.groupUsed, members := s.fed.membersUsed, health := s.fed.health, kind := packageDies s }
  let s := { s with fed := { s.fed with
    announced := true, seq := s.fed.seq + 1
    heard := if (expectedDies s).testBit (dieId s) then tblSet none s.fed.heard (dieId s) (some h) else s.fed.heard } }
  fedSend s fedAnnounce 0xFF
    (leBytes 1 h.group ++ leBytes 1 h.members ++ leBytes 1 h.health ++ leBytes 1 h.kind ++ leBytes 4 (s.fed.seq - 1))

def heardOf (s : State) (d : Nat) : Option Heard := tblGet none s.fed.heard d

/-- Every expected die has announced itself. -/
def heardAll (s : State) : Bool := (List.range 8).all (fun d => !(expectedDies s).testBit d || (heardOf s d).isSome)

/-- A die heard to be healthy (R387). -/
def heardHealthy (s : State) (d : Nat) : Bool :=
  match heardOf s d with
  | some h => h.health == 7
  | none => false

/-- The lowest healthy die heard, itself included. -/
def lowestHealthy (s : State) : Option Nat := (List.range 8).find? (heardHealthy s)

/-- A set of dies as a mask. -/
def dieMask (ds : List Nat) : Nat := ds.foldl (fun n d => putBit n d true) 0

/-- ROSTER's payload (R386). -/
def rosterPayload (s : State) : List Byte := leBytes 4 s.fed.version ++ leBytes 1 s.fed.admitted ++ leBytes 1 s.fed.lead

/-- A unit that failed at bring-up raises its failure event now (R384). -/
def lateFailures (s : State) : State :=
  s.boot.failedUnits.foldl (fun s _ => raiseErr s 0x1206 63) { s with boot := { s.boot with failedUnits := [] } }

/-- The ports that are enabled start training (R362, R383). -/
def trainPorts (s : State) : State :=
  [0, 1].foldl (fun s p => if portEnabled s p then startTraining (netPower s p true) p else s) s

/-- The head count closes here with this engine admitted (R391, R429). -/
def closeHeadCount (s : State) (lead admitted version hcState aclk : Nat) : State :=
  let missing := (List.range 8).foldl (fun m d => if admitted.testBit d then putBit m d false else m) s.fed.membersUsed
  let s : State := { s with fed := { s.fed with
    hcState := hcState, lead := lead, admitted := admitted, version := version, missing := missing, present := popCount admitted
    closeAclk := aclk, engineState := 1, regWith := some lead } }
  let s := fire (objSet s 0x6801 3 0) 0 0
  let s := if missing != 0 then fire s 1 0 else s
  let s := lateFailures s
  engineReady (trainPorts (if s.boot.busSag then sagBegin s else s))

/-- The receivers of an item on a die that has left are gone: the lines not delivered count as failed (R295, R298). -/
def dropRemotes (s : State) (d id : Nat) : State :=
  match dlvOf s id with
  | none => s
  | some x =>
    let mine := x.remotes.filter (fun r => r.die == d && !r.gone)
    if mine.isEmpty then s
    else
      let lost := mine.flatMap (fun r =>
        (((List.range (x.linesFor r.dst).length).zip (x.linesFor r.dst)).filter (fun e => !r.acks.contains e.1)).map (·.2))
      let x' := lost.foldl (fun y l => Dlv.fail y d l) x
      let s := modDlv s id (fun _ => { x' with
        dropped := x'.dropped + lost.length
        remotes := x'.remotes.map (fun r => if r.die == d then { r with gone := true } else r) })
      advanceDlv (if lost.isEmpty && !x.open_ then s else dlvError s id 0x0E07) id

/-- The items that a die has announced here get no line any more once it has left the part: they hold no arrival (R32, log
entry 243). -/
def closeAnnounced (s : State) (d : Nat) : State :=
  let from_ (x : Dlv) : Bool :=
    match x.owner with
    | .remote e _ _ => e == d
    | _ => false
  ((s.dlv.items.filter from_).map (·.id)).foldl (fun s id => advanceDlv (modDlv s id (fun x => { x with open_ := false })) id) s

/-- A die has left the part (R393): its slots are faulted, its catch-ups abandoned, its arrival discarded. -/
def dieLost (s : State) (d : Nat) : State :=
  let s := raiseErr s 0x1101 63
  let s := (slotNumbers.filter (fun n => slotBusy s n && (slotOf s n).job.stripe.testBit d)).foldl (fun s n => slotFault s n 0x1101) s
  let s := (s.dlv.items.map (·.id)).foldl (fun s id => dropRemotes s d id) s
  let s := closeAnnounced s d
  { s with dlv := { s.dlv with arrivals := s.dlv.arrivals.filter (· != d) } }

/-- The roster changes after the close (R393, R394). -/
def changeRoster (s : State) (lead admitted version : Nat) : State :=
  let gone := (List.range 8).filter (fun d => s.fed.admitted.testBit d && !admitted.testBit d)
  let voted := s.fed.electing
  let missing := (List.range 8).foldl (fun m d => if admitted.testBit d then putBit m d false else m) s.fed.membersUsed
  let s : State := { s with fed := { s.fed with
    hcState := if lead == dieId s then 3 else 4, lead := lead, admitted := admitted, version := version, missing := missing
    present := popCount admitted, electing := false, regWith := some lead, called := [] } }
  let s := gone.foldl dieLost s
  if voted && s.dlv.reported && !s.dlv.permitted then sendArrive s else leadRelease s

/-- This engine becomes the lead (R389, R394). -/
def becomeLead (s : State) (aclk : Nat) : State :=
  let admitted := dieMask s.fed.regs
  let s := if s.fed.electing then changeRoster s (dieId s) admitted (s.fed.version + 1)
    else closeHeadCount s (dieId s) admitted 1 3 aclk
  fedSend s fedRoster 0xFF (rosterPayload s)

/-- The head count is open here: before its close, or in a re-election. -/
def counting (s : State) : Bool := s.fed.hcState ≤ 2 || s.fed.electing

/-- A candidate: registered with itself, not closed. -/
def candidate (s : State) : Bool := counting s && s.fed.regWith == some (dieId s)

/-- A candidate closes once it has heard every member and holds the registration of each healthy one (R389). -/
def closeCheck (s : State) (aclk : Nat) : State :=
  if candidate s && heardAll s && (List.range 8).all (fun d => !heardHealthy s d || s.fed.regs.contains d) then becomeLead s aclk
  else s

/-- Register with a die; whoever is registered here is sent there (R388). -/
def registerWith (s : State) (d : Nat) : State :=
  let s := (s.fed.regs.filter (· != dieId s)).foldl (fun s r => fedSend s fedRedirect r (leBytes 1 d)) s
  let s := { s with fed := { s.fed with
    regWith := some d, regs := [], hcState := if s.fed.electing then s.fed.hcState else 2 } }
  fedSend s fedRegister d (leBytes 1 s.fed.groupUsed)

/-- An instance's own registration, once it is due (R388). -/
def registerNow (s : State) (aclk : Nat) : State :=
  if s.fed.health != 7 || !s.fed.announced || s.fed.regWith.isSome || !counting s then s
  else
    match lowestHealthy s with
    | none => s
    | some d =>
      if d == dieId s then
        closeCheck { s with fed := { s.fed with
          regWith := some d, regs := setAdd s.fed.regs [d], hcState := if s.fed.electing then s.fed.hcState else 2 } } aclk
      else registerWith s d

/-- D2D_LINK_TRAINING_DONE (R384, R387): health is complete, and the engine announces itself on every trained link. -/
def execD2dLinkTrainingDone (links aclk : Nat) (s : State) : Result :=
  .next (if !s.boot.ccxTested || s.boot.linksDone then s
    else
      let up := links % 16
      let s : State := { s with
        boot := { s.boot with linksDone := true }
        fed := { s.fed with linksUp := up, health := putBit s.fed.health 2 (up != 0) } }
      if up == 0 then s
      else
        let s := announceSelf { s with fed := { s.fed with hcState := 1 } }
        if heardAll s then registerNow s aclk else s)

/-- The dies that an engine in service would elect a lead with: those admitted but for the lead (R394). -/
def electorate (s : State) : Nat := putBit s.fed.admitted s.fed.lead false

/-- ANNOUNCE (R387, R388): one from a die of another group, or of none of the members, is ignored; one that reaches an engine in service is
kept for the election it tells of (R394). -/
def execAnnounce (msg : FedArrival) (aclk : Nat) (s : State) : Result :=
  .next (fedTake fedAnnounce msg (fun b s =>
    let d := msgSrc b
    let h : Heard := { group := fld b 4 1, members := fld b 5 1, health := fld b 6 1, kind := fld b 7 1 }
    if h.group != s.fed.groupUsed || 8 ≤ d then s
    else if !counting s then
      (if (electorate s).testBit d then { s with fed := { s.fed with called := tblSet none s.fed.called d (some h) } } else s)
    else if !(expectedDies s).testBit d then s
    else
      let s := { s with fed := { s.fed with heard := tblSet none s.fed.heard d (some h) } }
      if candidate s && h.health == 7 && d < dieId s then registerWith s d
      else if candidate s then closeCheck s aclk
      else if heardAll s then registerNow s aclk
      else s) s)

/-- REGISTER (R388, R389): held by a candidate and by an engine not yet registered, redirected by one registered elsewhere, answered
with the ROSTER by the lead. -/
def execRegister (msg : FedArrival) (aclk : Nat) (s : State) : Result :=
  .next (fedTake fedRegister msg (fun b s =>
    let d := msgSrc b
    if fld b 4 1 != s.fed.groupUsed || !(expectedDies s).testBit d || s.fed.health != 7 then s
    else if s.fed.hcState == 3 && !s.fed.electing then fedSend s fedRoster d (rosterPayload s)
    else
      match s.fed.regWith with
      | some w =>
        if w != dieId s then fedSend s fedRedirect d (leBytes 1 w)
        else closeCheck { s with fed := { s.fed with regs := setAdd s.fed.regs [d] } } aclk
      | none => if counting s then { s with fed := { s.fed with regs := setAdd s.fed.regs [d] } } else s) s)

/-- REDIRECT (R388): the engine registers with the die named. -/
def execRedirect (msg : FedArrival) (s : State) : Result :=
  .next (fedTake fedRedirect msg (fun b s =>
    let d := fld b 4 1
    if !counting s || s.fed.regWith != some (msgSrc b) || d == dieId s || 8 ≤ d || !(expectedDies s).testBit d then s
    else registerWith s d) s)

/-- This engine is excluded (R390): its ports stay down. -/
def exclude (s : State) : State :=
  let s := { s with fed := { s.fed with hcState := 5, electing := false } }
  [0, 1].foldl (fun s p => netPower (portDown s p) p false) s

/-- ROSTER (R390, R391, R393): of a die this engine takes part with, and newer than the roster it has. -/
def execRoster (msg : FedArrival) (aclk : Nat) (s : State) : Result :=
  .next (fedTake fedRoster msg (fun b s =>
    let version := fld b 4 4
    let admitted := fld b 8 1
    let lead := fld b 9 1
    let known := s.fed.membersUsed.testBit (msgSrc b) && ((heardOf s (msgSrc b)).isSome || s.fed.regWith == some (msgSrc b))
    if !known || s.fed.hcState == 5 || version ≤ s.fed.version then s
    else if !admitted.testBit (dieId s) then exclude s
    else if headCountClosed s then changeRoster s lead admitted version
    else closeHeadCount s lead admitted version 4 aclk) s)

/-- ANNOUNCE_DEADLINE (R388, R394). -/
def execAnnounceDeadline (aclk : Nat) (s : State) : Result := .next (if unitsWork s then registerNow s aclk else s)

/-- CLOSE_DEADLINE (R389, R394). -/
def execCloseDeadline (aclk : Nat) (s : State) : Result := .next (if unitsWork s && candidate s then becomeLead s aclk else s)

/-- EXCLUSION_DEADLINE (R390). -/
def execExclusionDeadline (s : State) : Result :=
  .next (if s.boot.inReset || !s.boot.latched || headCountClosed s || s.fed.hcState == 5 then s else exclude s)

/-! ## The part in service (R393, R394) -/

/-- BEAT (R393): a follower answers its lead. -/
def execBeat (msg : FedArrival) (s : State) : Result :=
  .next (fedTake fedBeat msg (fun b s =>
    if s.fed.hcState == 4 && msgSrc b == s.fed.lead && !s.fed.electing then fedSend s fedBeat s.fed.lead (leBytes 4 s.fed.version)
    else s) s)

/-- BEAT_SEND (R393): the lead's own, every 100 µs. -/
def execBeatSend (s : State) : Result :=
  .next (if unitsWork s && s.fed.hcState == 3 then fedSend s fedBeat 0xFF (leBytes 4 s.fed.version) else s)

/-- A re-election starts (R394): the survivors that have announced themselves are heard; an engine that has heard all of them registers
(R388). -/
def elect (s : State) : State :=
  let s := announceSelf { s with fed := { s.fed with
    electing := true, heard := s.fed.called, called := [], regs := [], regWith := none } }
  if heardAll s then registerNow s s.fed.closeAclk else s

/-- FED_LEAVE_TIMEOUT (R393, R394): the lead drops a follower it has not heard; followers that have not heard the lead elect one. -/
def execFedLeaveTimeout (die : Nat) (s : State) : Result :=
  .next (if !unitsWork s || !headCountClosed s || s.fed.electing || die == dieId s || !s.fed.admitted.testBit die then s
    else if s.fed.hcState == 3 then
      let s := changeRoster s s.fed.lead (putBit s.fed.admitted die false) (s.fed.version + 1)
      fedSend s fedRoster 0xFF (rosterPayload s)
    else if die == s.fed.lead then elect s
    else s)

/-- D2D_LINK_LOSS (R393): a follower whose every link has failed leaves the part. -/
def execD2dLinkLoss (link : Nat) (s : State) : Result :=
  .next (if !unitsWork s || !s.fed.linksUp.testBit link then s
    else
      let up := putBit s.fed.linksUp link false
      let s := { s with fed := { s.fed with linksUp := up, health := putBit s.fed.health 2 (up != 0) } }
      if up == 0 && s.fed.hcState == 4 then exclude s else s)

end Sys2Proof.Machine
end

