-- ==== Sys2Proof/Machine/Debug.lean ====
section
/-! DEFINITION. Open debug: the trace buffer, the trigger pins and the test access port (R418 to R422). -/

namespace Sys2Proof.Machine

/-- The region of the trace buffer (R419). -/
def traceRegion (s : State) : Res := .region (objGet s 0xA000 2) (objGet s 0xA000 3)

/-- Trace is enabled: the region is claimed and, when trace was disabled, records start at its base. -/
def startTrace (s : State) : State :=
  if objGet s 0xA000 1 == 1 then s
  else objSet { claim s (objKey 0xA000 1) [traceRegion s] with trace := { running := true } } 0xA000 1 1

/-- Trace is disabled and its region released; records queued before are still written. -/
def stopTrace (s : State) : State :=
  objSet { release s (objKey 0xA000 1) with trace := { s.trace with running := false } } 0xA000 1 0

/-- The write of TRACE_ENABLE (R343, R419). -/
def traceEnableEffect : WriteEffect := fun via _ _ data s =>
  if leNat data == 0 then dictDone (stopTrace s) via
  else
    match claimBlocked s (objKey 0xA000 1) [traceRegion s] with
    | some h => dictAbort s via (abortCode 9 h)
    | none => dictDone (startTrace s) via

/-- TRACE_ENABLE (R419). -/
def execTraceEnable (via : Via) (value : Nat) (s : State) : Result :=
  .next (requestWrite traceEnableEffect via 0xA000 1 (leBytes 1 value) s)

/-- The write of TRACE_MARK (R419): a KIND 0x09 record. -/
def traceMarkEffect : WriteEffect := fun via _ _ data s => dictDone (traceRec s 9 0 63 0 0 (leNat data)) via

/-- TRACE_MARK (R419). -/
def execTraceMark (via : Via) (value : Nat) (s : State) : Result :=
  .next (requestWrite traceMarkEffect via 0xA000 8 (leBytes 8 value) s)

/-- A trace record as R419 lays it out. -/
def traceBytes (s : State) (r : TraceRec) (overflow : Bool) : List Byte :=
  leBytes 32 (r.time * 2 ^ 192 + r.kind * 2 ^ 184 + r.unit * 2 ^ 176 + r.slot % 64 * 2 ^ 170 + r.code % 2 ^ 16 * 2 ^ 152
    + dieId s * 2 ^ 144 + (if r.trigger then 2 ^ 129 else 0) + (if overflow then 2 ^ 128 else 0)
    + r.data1 % 2 ^ 64 * 2 ^ 64 + r.data0 % 2 ^ 64)

/-- What DATA holds of a record: of an error, of which the spec gives no address, index or detail, two unstated values (log entry 250). -/
def traceData (s : State) (r : TraceRec) : TraceRec × State :=
  if r.kind == 5 then
    let (a, s) := drawFree s (2 ^ 64)
    let (b, s) := drawFree s (2 ^ 64)
    ({ r with data1 := a, data0 := b }, s)
  else (r, s)

/-- TRACE_RECORD_WRITE (R419, R420): the oldest queued record is written; one that carries TRIGGER pulses the
trigger output and fires source 210; in stop mode trace ends when the region is full, with source 208. -/
def execTraceRecordWrite (s : State) : Result :=
  .next (match s.trace.queue with
    | [] => s
    | r :: rest =>
      let cap := objGet s 0xA000 3 / 32
      let stopMode := objGet s 0xA000 4 == 1
      if stopMode && cap ≤ s.trace.next then { s with trace := { s.trace with queue := [] } }
      else
        let addr := objGet s 0xA000 2 + 32 * (s.trace.next % cap)
        let (r, s) := traceData s r
        let s := memWrite s addr (traceBytes s r s.trace.overflow)
        let s := bump { s with trace := { s.trace with queue := rest, next := s.trace.next + 1, overflow := false } } 0xA000 9
        let s := if r.trigger then fire (pulse s 3) 210 r.code else s
        if stopMode && cap ≤ s.trace.next then fire { s with trace := { s.trace with running := false } } 208 0 else s)

/-- DEBUG_TRIGGER_IN (R420): a rising edge on the pin that DBG_TRIG_IN_PIN claims. -/
def execDebugTriggerIn (s : State) : Result :=
  .next (if (pinHeld s 2).isNone || s.boot.inReset then s
    else
      let s := fire (traceRec s 8 0 63 0 0 0) 209 0
      if objGet s 0xA000 7 == 1 then
        (if (claimBlocked s (objKey 0xA000 1) [traceRegion s]).isNone then startTrace s else s)
      else if objGet s 0xA000 7 == 2 then stopTrace s
      else s)

/-! ## The test access port (R421) -/

/-- The data register the port's instruction selects; EXTEST, CLAMP and HIGHZ act as BYPASS while reset is not asserted. -/
inductive TapReg where
  | boundary | idcode | bypass | status
deriving DecidableEq, Repr

def tapReg (s : State) : TapReg :=
  match s.tap.ir with
  | 0x00 => if s.boot.inReset then .boundary else .bypass
  | 0x01 => .boundary
  | 0x02 => .idcode
  | 0x10 => .status
  | _ => .bypass

/-- The value of the IDCODE register. -/
def idcodeValue : Nat := 0x1A73D0B5

/-- The value of DBG_STATUS. -/
def dbgStatus (s : State) : Nat :=
  s.boot.timeBase * 2 ^ 64 + s.fed.engineState * 2 ^ 56 + s.fed.hcState * 2 ^ 48 + dieId s * 2 ^ 40 + s.fed.admitted * 2 ^ 32
    + s.slots.countP (fun e => e.2.state == .running) * 2 ^ 24 + s.fed.fatalCause * 2 ^ 8 + s.removal.state

/-- The bits of a value, the lowest first. -/
def lowBits (n v : Nat) : List Bool := (List.range n).map v.testBit

/-- Capture-DR of the data register selected: of the boundary register the signals of R426, whose order the spec does not give (log entry
249); BYPASS captures 0, by IEEE 1149.1. -/
def captureDr (s : State) : List Bool × State :=
  match tapReg s with
  | .idcode => (lowBits 32 idcodeValue, s)
  | .status => (lowBits 128 (dbgStatus s), s)
  | .bypass => ([false], s)
  | .boundary =>
    let (base, s) := reserveFree s Config.boundaryLength
    ((List.range Config.boundaryLength).map (fun k => (Config.freeValue (base + k)).testBit 0), s)

/-- Shift-DR: each bit of TDI enters at the far end as one leaves by TDO. What stays in the register, and what has left it. -/
def shiftDr (reg tdi : List Bool) : List Bool × List Bool := ((reg ++ tdi).drop tdi.length, (reg ++ tdi).take tdi.length)

/-- A scan of the test access port: the instruction register takes an opcode, its data register captures and shifts, and the boundary
register is updated with what has been shifted in. -/
def tapScan (s : State) (op : Nat) (tdi : List Bool) : State :=
  let s := { s with tap := { s.tap with ir := op } }
  let (reg, s) := captureDr s
  let (reg, out) := shiftDr reg tdi
  { s with tap := { s.tap with
      dr := reg, tdo := out
      boundary := if tapReg s == .boundary && !tdi.isEmpty then reg else s.tap.boundary } }

/-- TAP_TEST_LOGIC_RESET: the instruction register holds IDCODE. -/
def execTapTestLogicReset (s : State) : Result := .next { s with tap := { s.tap with ir := 0x02 } }

/-- The instructions of R421, each with the bits that TDI then shifts in. -/
def execExtest (tdi : List Bool) (s : State) : Result := .next (tapScan s 0x00 tdi)
def execSamplePreload (tdi : List Bool) (s : State) : Result := .next (tapScan s 0x01 tdi)
def execIdcode (tdi : List Bool) (s : State) : Result := .next (tapScan s 0x02 tdi)
def execClamp (tdi : List Bool) (s : State) : Result := .next (tapScan s 0x03 tdi)
def execHighz (tdi : List Bool) (s : State) : Result := .next (tapScan s 0x04 tdi)
def execDbgStatus (tdi : List Bool) (s : State) : Result := .next (tapScan s 0x10 tdi)

/-- BYPASS, by 0xFF or any opcode not listed; a listed opcode is that instruction's own command. -/
def execBypass (opcode : Nat) (tdi : List Bool) (s : State) : Result :=
  .next (if [0x00, 0x01, 0x02, 0x03, 0x04, 0x10].contains opcode then s else tapScan s (opcode % 256) tdi)

end Sys2Proof.Machine
end

