-- ==== Sys2Proof/Machine/Events.lean ====
section
/-! DEFINITION. The event controller's commands (R347 to R359), and the pins and the watchdog (R345, R430). -/

namespace Sys2Proof.Machine

/-- The numbers of the bits written as 1 in word w of a bit vector of sources, ascending. -/
def wordSources (word bits : Nat) : List Nat := ((List.range 32).filter (fun k => bits.testBit k)).map (· + 32 * word)

/-- The sources active on a core. -/
def activeCount (s : State) (c : Nat) : Nat := s.evt.srcs.countP (fun e => e.2.active && e.2.core == c)

/-- The write of EVT_TAKE (R349): a pending source routed to the core is taken; one already active only loses PENDING. -/
def evtTakeEffect : WriteEffect := fun via index sub data s =>
  let c := index - 0x7600
  let n := leNat data
  let x := srcOf s n
  if 256 ≤ n || !(x.pending && x.core == c) then dictAbort s via (abortCode 6 (objDetail index sub))
  else
    let s := setSrc s n (if x.active then { x with pending := false }
      else { x with pending := false, active := true, level := x.cfgLevel })
    let s := bump s 0x7700 0x60
    let s := if objGet s 0x7700 1 < activeCount s c then objSet s 0x7700 1 (activeCount s c) else s
    dictDone (traceRec s 6 0 63 n c (x.order * 256 + x.cfgLevel)) via

/-- EVT_TAKE (R349). -/
def execEvtTake (via : Via) (core source : Nat) (s : State) : Result :=
  .next (requestWrite evtTakeEffect via (0x7600 + core) 4 (leBytes 2 source) s)

/-- The write of EVT_DONE (R349): service is complete; the source is pending again while LATCH is 1 (R348 case 4). -/
def evtDoneEffect : WriteEffect := fun via index sub data s =>
  let c := index - 0x7600
  let n := leNat data
  let x := srcOf s n
  if 256 ≤ n || !(x.active && x.core == c) then dictAbort s via (abortCode 6 (objDetail index sub))
  else
    let s := setSrc s n { x with active := false, level := 0 }
    dictDone (if x.latch then setPending s n else s) via

/-- EVT_DONE (R349). -/
def execEvtDone (via : Via) (core source : Nat) (s : State) : Result :=
  .next (requestWrite evtDoneEffect via (0x7600 + core) 5 (leBytes 2 source) s)

/-- The write of EVT_PEND_SET (R348 case 3): sources with a TARGET become pending, past any coalescing. -/
def pendSetEffect : WriteEffect := fun via _ sub data s =>
  dictDone ((wordSources (sub - 0x20) (leNat data)).foldl (fun s n => if (srcOf s n).target == 0 then s else setPending s n) s) via

/-- EVT_PEND_SET (R348). -/
def execEvtPendSet (via : Via) (word bits : Nat) (s : State) : Result :=
  .next (requestWrite pendSetEffect via 0x7700 (0x20 + word) (leBytes 4 bits) s)

/-- The write of EVT_PEND_CLEAR (R348). -/
def pendClearEffect : WriteEffect := fun via _ sub data s =>
  dictDone ((wordSources (sub - 0x30) (leNat data)).foldl (fun s n => setSrc s n { srcOf s n with pending := false }) s) via

/-- EVT_PEND_CLEAR (R348). -/
def execEvtPendClear (via : Via) (word bits : Nat) (s : State) : Result :=
  .next (requestWrite pendClearEffect via 0x7700 (0x30 + word) (leBytes 4 bits) s)

/-- The write of EVT_LATCH_CLEAR (R347); PENDING stays (R348). -/
def latchClearEffect : WriteEffect := fun via _ sub data s =>
  dictDone ((wordSources (sub - 0x40) (leNat data)).foldl (fun s n => setSrc s n { srcOf s n with latch := false }) s) via

/-- EVT_LATCH_CLEAR (R347). -/
def execEvtLatchClear (via : Via) (word bits : Nat) (s : State) : Result :=
  .next (requestWrite latchClearEffect via 0x7700 (0x40 + word) (leBytes 4 bits) s)

/-- The write of EVT_SW_RAISE (R359): software sources 128 to 191 fire; other bits are discarded. -/
def swRaiseEffect : WriteEffect := fun via _ sub data s =>
  dictDone (fireAll s ((wordSources (sub - 0x48) (leNat data)).filter (fun n => 128 ≤ n && n ≤ 191)) 0) via

/-- EVT_SW_RAISE (R359). -/
def execEvtSwRaise (via : Via) (word bits : Nat) (s : State) : Result :=
  .next (requestWrite swRaiseEffect via 0x7700 (0x48 + word) (leBytes 4 bits) s)

/-- The write of EVT_CFG (R348, R358): ENABLE = 0 clears PENDING, ENABLE from 0 to 1 with LATCH and a TARGET sets it; reserved
bits are discarded (R11); a TARGET that now names a sleeping core cuts its group short (R354), and what is pending by that is routed with
it (R355). -/
def evtCfgEffect : WriteEffect := packageEffect (fun via index sub data s =>
  let n := index - 0x7400
  let x := srcOf s n
  let y := { x with cfg := leNat data % 2 ^ 22 }
  let s := setSrc s n (if y.enabled then y else { y with pending := false })
  packageDone (cutShortWith s (if !x.enabled && y.enabled && y.latch && y.target != 0 then [n] else [])) via index sub data)

/-- EVT_CFG_WRITE (R358). -/
def execEvtCfgWrite (via : Via) (source value : Nat) (s : State) : Result :=
  .next (requestWrite evtCfgEffect via (0x7400 + source) 1 (leBytes 4 value) s)

/-- The write of EVT_GRP_TIME (R353): a non-zero value claims the group's timer, 0 releases it. -/
def grpTimeEffect : WriteEffect := packageEffect (fun via index sub data s =>
  claimEffect (objKey index 3) (fun s index v => if v == 0 then [] else [.timer (objGet s index 3)]) (fun via index sub data s =>
    packageDone (objSet s index sub (leNat data)) via index sub data) via index sub data s)

/-- EVT_GRP_TIME_WRITE (R353). -/
def execEvtGrpTimeWrite (via : Via) (group value : Nat) (s : State) : Result :=
  .next (requestWrite grpTimeEffect via (0x7500 + group) 2 (leBytes 4 value) s)

/-- CORE_MASK_WRITE (R351, R359). -/
def execCoreMaskWrite (via : Via) (core value : Nat) (s : State) : Result :=
  .next (requestWrite storeEffect via (0x7600 + core) 1 (leBytes 1 value) s)

/-- CORE_SLEEP_ENTER (R354): groups holding for the core are cut short; its wake request is asserted at once when one is, or
when a source is pending and routed to it. -/
def execCoreSleepEnter (core : Nat) (s : State) : Result :=
  .next (
    let s := setCore s core { coreOf s core with sleeping := true }
    let s := cutShort s
    if (pendView s core).isEmpty then s else wakeUp s core)

/-- CORE_SLEEP_EXIT (R354): the wake request falls. -/
def execCoreSleepExit (core : Nat) (s : State) : Result := .next (setCore s core { sleeping := false, wake := false })

/-- HOLDOFF_TIMER_EXPIRY (R353). -/
def execHoldoffTimerExpiry (group : Nat) (s : State) : Result :=
  .next (if (grpOf s group).running && (grpOf s group).limTime != 0 then releaseGroup s group else s)

/-! ## Pins and the watchdog -/

/-- The write of a pin object (R343, R345, R430): the pin is claimed, or released by 0xFF; a pin left loses its pulse. -/
def epinEffect : WriteEffect := fun via index sub data s =>
  let old := pinHeld s sub
  claimEffect (objKey index sub) (fun _ _ v => if v == 0xFF then [] else [.pin v]) (fun via index sub data s =>
    let s := match old with
      | some n => if pinHeld s sub == some n then s else { s with pins := tblSet {} s.pins n {} }
      | none => s
    dictDone (objSet s index sub (leNat data)) via) via index sub data s

/-- EPIN_ASSIGN_WRITE (R345). -/
def execEpinAssignWrite (via : Via) (object value : Nat) (s : State) : Result :=
  .next (requestWrite epinEffect via 0x2040 object (leBytes 1 value) s)

/-- PIN_PULSE_END (R430). -/
def execPinPulseEnd (pin : Nat) (s : State) : Result := .next { s with pins := tblSet {} s.pins pin {} }

/-- The write of WATCHDOG_ENABLE (R344, R345): 1 claims the watchdog's timer, 0 releases it. -/
def watchdogEffect : WriteEffect :=
  claimEffect (objKey 0x2050 2) (fun s _ v => if v == 0 then [] else [.timer (objGet s 0x2050 2)]) storeEffect

/-- WATCHDOG_ENABLE_WRITE (R345). -/
def execWatchdogEnableWrite (via : Via) (value : Nat) (s : State) : Result :=
  .next (requestWrite watchdogEffect via 0x2050 1 (leBytes 1 value) s)

/-- WATCHDOG_KICK (R345): the period starts again; no state but the timer's own time changes. -/
def execWatchdogKick (via : Via) (value : Nat) (s : State) : Result :=
  .next (requestWrite (fun via _ _ _ s => dictDone s via) via 0x2050 4 (leBytes 1 value) s)

/-- WATCHDOG_EXPIRY (R345): counted, and source 5 fires. -/
def execWatchdogExpiry (s : State) : Result :=
  .next (if objGet s 0x2050 1 == 1 then fire (bump s 0x2050 5) 5 0 else s)

end Sys2Proof.Machine
end

