-- ==== Sys2Proof/Machine/Pools.lean ====
section
/-! DEFINITION. The buffer pools' commands (R248 to R262). -/

namespace Sys2Proof.Machine

/-- The three regions of a pool: buffers, ring, state bits (R248). -/
def poolRegions (s : State) (p : Nat) : List (Nat × Nat) :=
  [(poolBase s p, poolBuffers s p * 2 ^ poolLog2 s p), (poolRing s p, 4 * poolCap s p),
   (poolStates s p, ceilDiv (poolBuffers s p) 512 * 64)]

/-- The base of this die's own memory (R6). -/
def localMemBase (s : State) : Nat :=
  match s.boot.fuses with
  | some f => f.memStrap * 2 ^ 38
  | none => 0

def localMemBytes : Nat := 256000000000

/-- The check of R249 a configuration fails first, 0 when it passes. -/
def poolConfigCheck (s : State) (p : Nat) : Nat :=
  let others := poolNumbers.filter (fun q => q != p && ((poolOf s q).enabled || (poolOf s q).starting))
  if !(8 ≤ poolLog2 s p && poolLog2 s p ≤ 30 && 1 ≤ poolBuffers s p && poolBuffers s p ≤ 4194304 && poolMargin s p ≤ poolBuffers s p) then 1
  else if poolBase s p % 4096 != 0 || poolRing s p % 4096 != 0 || poolStates s p % 4096 != 0 then 2
  else if (poolRegions s p).any (fun r => r.1 < localMemBase s || localMemBase s + localMemBytes < r.1 + r.2)
      || !disjointRanges (poolRegions s p ++ others.flatMap (poolRegions s)) then 3
  else if others.any (fun q => poolLog2 s q == poolLog2 s p) then 4
  else 0

/-- The write of 1 to POOL_ENABLE (R249): checked, its regions claimed (R344), and its initialisation started; on a pool already
in service it has no effect (log entry 12). -/
def poolEnableEffect : WriteEffect := fun via index sub data s =>
  let p := index % 16
  if (poolOf s p).enabled then dictDone s via
  else
    let c := poolConfigCheck s p
    if c != 0 then dictAbort (raiseErr s 0x0C06 63) via (abortCode 0x0F c)
    else
      let rs := (poolRegions s p).map (fun r => Res.region r.1 r.2)
      match claimBlocked s (objKey index 1) rs with
      | some h => dictAbort s via (abortCode 9 h)
      | none =>
        let s := claim s (objKey index 1) rs
        startLong (setPool s p { poolOf s p with starting := true }) via index sub data false 0

/-- POOL_ENABLE_WRITE (R249). -/
def execPoolEnableWrite (via : Via) (pool : Nat) (s : State) : Result :=
  .next (requestWrite poolEnableEffect via (poolIndex s pool) 1 [1] s)

/-- The initialisation of a pool is complete (R249): the ring holds every index, every state bit is clear, the cache is empty. -/
def execPoolInitComplete (pool : Nat) (s : State) : Result :=
  .next (
    let x := poolOf s pool
    if !x.starting then s
    else
      let b := poolBuffers s pool
      let s := memWrite s (poolRing s pool) ((List.range b).flatMap (fun i => leBytes 4 i))
      let s := memWrite s (poolStates s pool) (List.replicate (ceilDiv b 512 * 64) 0)
      let s := setPool s pool { enabled := true, inRing := b, tail := b % poolCap s pool, held := x.held, reserved := x.reserved }
      let s := objSet (objSet s (poolIndex s pool) 1 1) (poolIndex s pool) 0x0B b
      localFinish (poolBalance s pool) (poolIndex s pool) 1 0)

/-- The write of 0 to POOL_ENABLE (R249, R433); requests that wait in the pool go with it, unanswered (DESIGN CHOICE, log entry 256). -/
def poolDisableEffect : WriteEffect := fun via index _ _ s =>
  let p := index % 16
  let x := poolOf s p
  if poolReserved x != 0 then dictAbort s via (abortCode 8 (objDetail index 9))
  else if !x.allocated.isEmpty || x.held.any (fun e => e.2 != 0) then dictAbort s via (abortCode 8 (objDetail index 8))
  else dictDone (objSet (release (setPool s p {}) (objKey index 1)) index 1 0) via

/-- POOL_DISABLE_WRITE (R249). -/
def execPoolDisableWrite (via : Via) (pool : Nat) (s : State) : Result :=
  .next (requestWrite poolDisableEffect via (poolIndex s pool) 1 [0] s)

/-- POOL_ALLOC_REQUEST (R250): a stage's or unit's request for a slot. -/
def execPoolAllocRequest (slot size : Nat) (s : State) : Result :=
  .next (if slotBusy s slot then poolRequest s slot size .stage else s)

/-- The request of a pool granted longest ago that waits for an index (R256). -/
def nextPromised (x : Pool) : Option AllocReq := x.waits.find? (fun r => r.granted && !r.blocked)

/-- POOL_ALLOC_GRANT (R252, R256, R257): an index of the cache goes to the request granted longest ago that waits for one; with none
waiting, or no index, a blocked request that can move does. -/
def execPoolAllocGrant (pool waitedFclk : Nat) (s : State) : Result :=
  .next (
    let x := poolOf s pool
    match nextPromised x with
    | some r =>
      if x.cache.isEmpty then moveBlocked s pool waitedFclk else takeIndex (setPool s pool { x with waits := x.waits.erase r }) pool r
    | none => moveBlocked s pool waitedFclk)

/-- The position of the i-th entry of a pool's ring from its head or tail. -/
def ringAddr (s : State) (p start i : Nat) : Nat := poolRing s p + 4 * ((start + i) % poolCap s p)

/-- The entry at a position of a pool's cache has become unreadable: its next read is an uncorrectable error (R414). -/
def damageEntry (p : Nat) (s : State) (k : Nat) : State :=
  let x := poolOf s p
  match x.cache[k]? with
  | none => s
  | some i =>
    let (a, s) := otherSramAddr s
    setPool s p { x with damaged := x.damaged ++ [(i, a)] }

/-- POOL_REFILL_RETURN (R251, R260, R414): up to 64 indices enter the cache; an entry read poisoned is dropped with its buffer;
the cache entries at some positions have become unreadable, and each is dropped when it is read next. -/
def execPoolRefillReturn (pool : Nat) (poisoned damaged : List Nat) (s : State) : Result :=
  .next (
    let x := poolOf s pool
    if !x.refill then s
    else
      let n := min 64 x.inRing
      let entries := (List.range n).map (fun i =>
        let a := ringAddr s pool x.head i
        (memNat s a 4 % 2 ^ 22, a, poisoned.contains i || memPoisoned s a 4))
      let bad := entries.filter (·.2.2)
      let good := (entries.filter (fun e => !e.2.2 && x.sound e.1)).map (·.1)
      let s := setPool s pool { x with refill := false, head := (x.head + n) % poolCap s pool, inRing := x.inRing - n,
                                       deadRing := x.deadRing - entries.countP (fun e => !x.sound e.1),
                                       cache := good.reverse ++ x.cache }
      let s := match bad.getLast? with
        | some e => quarantine (memError s 63 (e.2.1 / 64 * 64)) pool (bad.map (·.1)) true 63
        | none => s
      let s := damaged.foldl (damageEntry pool) s
      poolBalance (blockExcess (lowWater s pool) pool) pool)

/-- The damaged entries of a spill, read on their way to the ring, are dropped (R414). -/
def dropSpilled (s : State) (p : Nat) : State :=
  ((poolOf s p).damaged.filter (fun e => (poolOf s p).spill.contains e.1)).foldl (fun s e => dropEntry s p e) s

/-- POOL_SPILL_DONE (R251, R414): the oldest indices of the cache stand at the ring's tail. -/
def execPoolSpillDone (pool : Nat) (s : State) : Result :=
  .next (
    if (poolOf s pool).spill.isEmpty then s
    else
      let s := dropSpilled s pool
      let x := poolOf s pool
      let s := ((List.range x.spill.length).zip x.spill).foldl (fun s e => memWrite s (ringAddr s pool x.tail e.1) (leBytes 4 e.2)) s
      let s := setPool s pool { x with spill := [], tail := (x.tail + x.spill.length) % poolCap s pool, inRing := x.inRing + x.spill.length,
                                       deadRing := x.deadRing + x.spill.countP (fun i => !x.sound i) }
      poolBalance s pool)

/-- POOL_FREE_REQUEST (R252, R253): a stage's or unit's free for a slot. -/
def execPoolFreeRequest (slot addr : Nat) (s : State) : Result :=
  .next (if slotBusy s slot then presentFree s { slot := slot, addr := addr, cmd := none } else s)

/-- The check of a free (R253, R254, R260): a withdrawn buffer's index is discarded; a bit already clear is a double free; else the
bit is cleared and the index enters the cache. -/
def checkFree (s : State) (p n i : Nat) : State :=
  let x := poolOf s p
  if !x.sound i then bump (setPool s p { x with allocated := x.allocated.filter (fun e => e.1 != i) }) 0x80C0 2
  else if !stateBit s p i then
    blockExcess (raiseErr (setPool s p { x with held := tblSet 0 x.held n (heldCount x n + 1) }) 0x0C04 n) p
  else
    setPool (bump (setStateBit s p i false) 0x80C0 2) p
      { x with cache := i :: x.cache, allocated := x.allocated.filter (fun e => e.1 != i) }

/-- POOL_FREE_CHECK (R253, R254, R260): the oldest check completes, once the cache has room for its index; a state line read poisoned
withdraws its 512 buffers. The sets queued behind it follow, frees that waited are accepted, and a job that ends with them
leaves (R255). -/
def execPoolFreeCheck (pool : Nat) (poisoned : Bool) (s : State) : Result :=
  .next (
    let x := poolOf s pool
    match x.ops with
    | .check n i :: rest =>
      if !cacheRoom x then s
      else
        let s := readStateLine (setPool s pool { x with ops := rest }) pool i n poisoned
        let s := runSets (checkFree s pool n i) pool rest
        let s := acceptWaiting pool (poolOf s pool).frees s
        slotNumbers.foldl endWaiting (poolBalance s pool)
    | _ => s)

/-- The requests blocked in any pool, with their pools. -/
def blockedReqs (s : State) : List (Nat × AllocReq) :=
  poolNumbers.flatMap (fun p => ((poolOf s p).waits.filter (·.blocked)).map (fun r => (p, r)))

/-- The blocked job POOL_DEADLOCK chooses: the least urgent, and of those the highest slot (R258). -/
def deadlockSlot (s : State) : Option Nat :=
  (blockedReqs s).foldl (fun best e =>
    match best with
    | none => some e.2.slot
    | some b =>
      let pe := (slotOf s e.2.slot).job.priority
      let pb := (slotOf s b).job.priority
      if pb < pe || (pb == pe && b < e.2.slot) then some e.2.slot else some b) none

/-- POOL_DEADLOCK (R258): more than DEADLOCK_WINDOW has passed with a request blocked: every blocked request of the chosen job
ends with RETRY_LATER. The operands are the FCLK since the deadlock time and those the ended requests have been blocked. -/
def execPoolDeadlock (waitedFclk blockedFclk : Nat) (s : State) : Result :=
  .next (
    if waitedFclk ≤ objGet s 0x6000 3 * 2000 then s
    else
      match deadlockSlot s with
      | none => s
      | some n =>
        let gone := (blockedReqs s).filter (fun e => e.2.slot == n)
        let s := raiseErr (bumpBy s 0x80C0 5 blockedFclk) 0x0C05 n
        let s := poolNumbers.foldl (fun s p =>
          let x := poolOf s p
          let granted := x.waits.countP (fun r => r.blocked && r.slot == n && r.granted)
          setPool s p { x with waits := x.waits.filter (fun r => !(r.blocked && r.slot == n)),
                               held := if granted == 0 then x.held else tblSet 0 x.held n (heldCount x n - granted) }) s
        gone.foldl (fun s e => answer s e.2 0x0C08 0) s)

/-- RETRY_BACKOFF_EXPIRY (R259): the item of a slot that waited for RETRY_BACKOFF at a unit is ready again. -/
def execRetryBackoffExpiry (slot unit : Nat) (s : State) : Result :=
  .next (modSlot s slot (fun x => { x with backoff := setDel x.backoff [unit] }))

end Sys2Proof.Machine
end

