-- ==== Sys2Proof/Machine/Removal.lean ====
section
/-! DEFINITION. Planned removal, the bus sag and the counter dump (R396 to R399), and the start and drain of a save (R402). -/

namespace Sys2Proof.Machine

/-! ## The counter dump (R399) -/

/-- Every object of an index, by ascending subindex. -/
def objectsOf (index : Nat) : List (Nat × Nat) :=
  ((List.range 256).filter (fun sub => sub != 0 && (objRow index sub).isSome)).map (fun sub => (index, sub))

/-- The objects of a dump: those of 0x1180, 0x3F00 + p and 0x8000 to 0x8FFF. -/
def dumpObjects : List (Nat × Nat) :=
  ([0x1180, 0x3F00, 0x3F01] ++ ((List.range 0x1000).map (· + 0x8000)).filter (fun i => !(objRows i).isEmpty)).flatMap objectsOf

/-- One entry of a dump. -/
def dumpEntry (s : State) (o : Nat × Nat) : List Byte := leBytes 2 o.1 ++ leBytes 1 o.2 ++ leBytes 5 0 ++ leBytes 8 (objGet s o.1 o.2)

/-- The bytes of a dump, trailer included. -/
def dumpBytes (s : State) : List Byte :=
  let body := leBytes 4 0x504D4443 ++ leBytes 2 1 ++ leBytes 1 (dieId s) ++ leBytes 1 0 ++ leBytes 4 dumpObjects.length
    ++ leBytes 8 s.boot.timeBase ++ leBytes 44 0 ++ dumpObjects.flatMap (dumpEntry s)
  body ++ leBytes 4 (crc32c body)

/-- The dump is written at COUNTER_DUMP_ADDR, unless that is 0. -/
def dumpCounters (s : State) : State :=
  let a := objGet s 0x1100 0x0C
  if a == 0 then s else memWrite s a (dumpBytes s)

/-- COUNTER_DUMP (R398, R399). -/
def execCounterDump (s : State) : Result := .next (if unitsWork s && s.removal.sag then dumpCounters s else s)

/-! ## The bus sag (R398) -/

/-- BUS_SAG (R398): seen before the head count closes, it waits for the close (R429). -/
def execBusSag (s : State) : Result :=
  .next (
    let s := { s with boot := { s.boot with busSag := true } }
    if headCountClosed s && unitsWork s && !s.removal.sag then sagBegin s else s)

/-- BUS_SAG_END (R398): nothing else changes until SAG_RESUME. -/
def execBusSagEnd (s : State) : Result := .next { s with boot := { s.boot with busSag := false } }

/-- The write of SAG_RESUME (R398, R429): refused while the warning is asserted; else admission and dispatch go on, and the
ports whose training waits start it. -/
def sagResumeEffect : WriteEffect := packageEffect (fun via index sub data s =>
  if s.boot.busSag then dictAbort s via (abortCode 8 (objDetail 0x1100 0x0D))
  else
    let s := setQuiesce (setQuiesce { s with removal := { s.removal with sag := false } } 0 0) 1 0
    let s := [0, 1].foldl (fun s p => if (portOf s p).waiting then startTraining s p else s) s
    packageDone s via index sub data)

/-- SAG_RESUME (R398). -/
def execSagResume (via : Via) (value : Nat) (s : State) : Result :=
  .next (requestWrite sagResumeEffect via 0x1100 0x0E (leBytes 1 value) s)

/-! ## The start of a save (R402) -/

/-- SETTLED_PC and the loop entries that stood there (R401): the earliest command fetched and not completed, else a command that still
reads memory, else the next to be fetched. -/
def settledAt (s : State) (n : Nat) : Nat × List LoopEntry :=
  let x := slotOf s n
  match s.cmds.find? (fun c => c.slot == n) with
  | some c => (c.index, c.loops)
  | none => (if x.loopRead.isSome || x.listRead.isSome then x.pc - 1 else x.pc, x.loops)

/-- Step 1 of a save: the slot stops fetching, its commands not issued are removed with their waits, its batch stage stops. -/
def startSave (s : State) (n : Nat) (removal : Bool) : State :=
  let (pc, loops) := settledAt s n
  let dropped := (s.cmds.filter (fun c => c.slot == n && !c.issued)).map (fun c => Waiter.cmd c.id)
  let s := modSlot s n (fun x => { x with
    loopRead := none, listRead := none
    save := some { removal := removal, drained := false, abandoned := false, pc := pc, loops := loops } })
  let s := { s with cmds := s.cmds.filter (fun c => !(c.slot == n && !c.issued)) }
  let s := (s.pairs.map (·.1)).foldl (fun s p =>
    let x := pairOf s p
    if x.waits.any (fun w => dropped.contains w.who) then setPair s p { x with waits := x.waits.filter (fun w => !dropped.contains w.who) }
    else s) s
  batStop s n

/-- The write of RUCKSACK_SAVE (R402): the slot must be running, here or on another die of its stripe, and not being saved; an engine on
which it does not run leaves it alone. -/
def rucksackSaveEffect (e : Elsewhere) : WriteEffect := packageEffect (fun via index sub data s =>
  let n := leNat data
  let x := slotOf s n
  if x.save.isSome then dictAbort s via (abortCode 8 (objDetail (0x7200 + n) 1))
  else if x.state != .running then
    (if via == .link || e.busy.testBit n then packageDone s via index sub data else dictAbort s via (abortCode 6 (objDetail index sub)))
  else packageDone (startSave s n false) via index sub data)

/-- RUCKSACK_SAVE (R402); `elsewhere` names the slots that run on other dies. -/
def execRucksackSave (via : Via) (slot : Nat) (elsewhere : Elsewhere) (s : State) : Result :=
  .next (requestWrite (rucksackSaveEffect elsewhere) via 0x1100 5 (leBytes 1 slot) s)

/-! ## The drain deadline (R402) -/

/-- A slot's BATCH section (R400, R401): of its batch stage, else what its rucksack brought, else, when its last stage has ended, that
stage's epoch, which its keys go on with (R143, R156, log entry 248). -/
def batchSection (s : State) (n : Nat) : List Byte :=
  let put (epoch hamper log : Nat) (cs : List BucketCursor) : List Byte :=
    leBytes 4 epoch ++ leBytes 4 hamper ++ leBytes 4 log ++ leBytes 1 cs.length ++ leBytes 3 0
      ++ cs.flatMap (fun c => leBytes 6 c.f ++ leBytes 6 c.t ++ leBytes 4 c.placed)
  let r := (slotOf s n).restored
  match s.bat.stages.find? (fun b => b.slot == n) with
  | some b => put b.epoch b.hamperSeq b.logSeq (b.asm.map (·.cursor))
  | none =>
    if r.hasBatch then put r.epoch r.hamperSeq r.logSeq r.buckets
    else
      match (slotOf s n).epoch with
      | some e => put e 0 0 []
      | none => []

/-- The video samples of a slot that a decoder is working on, the pictures their contexts have decoded, and the contexts. -/
def openVideos (s : State) (n : Nat) : List (Nat × Nat × Nat) :=
  (s.mdc.runs.filter (fun r => r.item.slot == n && isVideo r.item.format)).map (fun r =>
    (r.item.sample, (r.item.stream.map (fun k => (ctxOf s k).pictures)).getD 0, r.item.stream.getD 0))

/-- The work of a slot in the transform array, the forge, the seed expander and the random service is abandoned. -/
def dropUnits (s : State) (n : Nat) : State :=
  let tiles := (s.txa.tiles.filter (fun e => match e.2 with | some i => i.slot == n | none => false)).map (·.1)
  let s := tiles.foldl abandonTile s
  let lanes := (s.sdx.lanes.filter (fun e => match e.2 with | some r => r.stream.slot == n | none => false)).map (·.1)
  let s := lanes.foldl freeLane s
  let cores := (s.rsv.cores.filter (fun e => match e.2 with | some r => r.slot == n | none => false)).map (·.1)
  let s := cores.foldl (fun s c => unitDone { s with rsv := { s.rsv with cores := tblSet none s.rsv.cores c none } } .rsv c) s
  let s := giveUnits s ((s.sdx.keys.filter (fun k => k.item.slot == n)).flatMap (·.units))
  rsvServe { s with
    txa := { s.txa with queue := s.txa.queue.filter (fun i => i.slot != n), work := s.txa.work.filter (fun w => w.slot != n) }
    forge := { queue := s.forge.queue.filter (fun i => i.slot != n)
               run := match s.forge.run with
                 | some r => if r.item.slot == n then none else some r
                 | none => none }
    sdx := { s.sdx with
      streams := s.sdx.streams.filter (fun x => x.slot != n), moved := s.sdx.moved.filter (fun r => r.stream.slot != n)
      regs := s.sdx.regs.filter (fun r => r.slot != n), keyQueue := s.sdx.keyQueue.filter (fun i => i.slot != n)
      keys := s.sdx.keys.filter (fun k => k.item.slot != n) }
    rsv := { s.rsv with
      moved := s.rsv.moved.filter (fun c => c.slot != n), waiting := s.rsv.waiting.filter (fun c => c.slot != n)
      works := s.rsv.works.filter (fun w => w.slot != n), drawn := s.rsv.drawn.filter (fun e => e.1 != n) } }

/-- The deliveries of a slot are abandoned. -/
def dropDeliveries (s : State) (n : Nat) : State :=
  let mine := s.dlv.items.filter (fun x => x.slot == n)
  let s := mine.foldl (fun s x =>
    (x.ready.map (·.lane)).foldl lineLeaves (giveUnits (sliverUse s x.sliver false) x.units)) s
  { s with dlv := { s.dlv with
    items := s.dlv.items.filter (fun x => x.slot != n)
    links := s.dlv.links.foldl (fun t e => tblSet [] t e.1 (e.2.filter (fun y => y.slot != n))) [] } }

/-- The messages of a slot end: those open are cut off, waiting opens are withdrawn, and what has landed is dropped. -/
def dropLandings (s : State) (n : Nat) : State :=
  let s := [0, 1].foldl (fun s p =>
    ((portOf s p).openQ.filter (fun o => (lrOf s o.region).jobSlot == n)).foldl (fun s o => withdrawOpen s p o) s) s
  let s := cutMessages s (s.net.msgs.filter (fun m => m.jobSlot == n && m.opn))
  { s with net := { s.net with msgs := s.net.msgs.filter (fun m => m.jobSlot != n) } }

/-- The buffers a slot still holds in the pools, but those its program obtained by ALLOC and those whose free is under way. -/
def strayBuffers (s : State) (n : Nat) : List Nat :=
  let allocs := (slotOf s n).allocs
  poolNumbers.flatMap (fun p =>
    let x := poolOf s p
    ((x.allocated.filter (fun e => e.2 == n && !x.ops.contains (.check n e.1))).map (fun e => poolBase s p + e.1 * 2 ^ poolLog2 s p)).filter
      (fun a => !allocs.contains a && !x.frees.any (fun f => f.addr == a)))

/-- What is left of a slot's work is abandoned, its buffers freed, and its commands leave their queues. -/
def abandonSlot (s : State) (n : Nat) : State :=
  let s := dropLandings s n
  let s := withdrawWaits (abandonStages s n 0x1102) n
  let s := dropDeliveries (dropUnits s n) n
  let s := { s with cmds := s.cmds.filter (fun c => c.slot != n) }
  freeBuffers s n (strayBuffers s n)

/-- Something of a slot is still at work. -/
def slotAtWork (s : State) (n : Nat) : Bool :=
  s.cmds.any (fun c => c.slot == n) || s.dlv.items.any (fun x => x.slot == n) || s.net.msgs.any (fun m => m.jobSlot == n)

/-- The drain deadline of a save (R402): what the rucksack will say of stages is taken down, what is left is abandoned, and the
regions are poisoned from then on. -/
def drainSave (s : State) (n : Nat) : State :=
  match (slotOf s n).save with
  | none => s
  | some v =>
    if v.drained then s
    else
      let left := slotAtWork s n
      let v' : Save := { v with drained := true, abandoned := left, batch := batchSection s n, contexts := openVideos s n }
      let s := modSlot s n (fun x => { x with save := some v' })
      if !left then s
      else
        modSlot (abandonSlot s n) n (fun x => { x with
          faultHorizon := if x.job.regions.isEmpty then none else some x.horizon, poisonedTo := x.horizon })

/-- SAVE_DRAIN_DEADLINE (R402). -/
def execSaveDrainDeadline (slot : Nat) (s : State) : Result := .next (drainSave s slot)

/-! ## Planned removal (R396) -/

/-- The slots with a job. -/
def busySlots (s : State) : List Nat := slotNumbers.filter (slotBusy s)

/-- The write of PREPARE_REMOVAL (R396): the transfer completes when every engine is ready; one that comes later waits for no more than
that. -/
def prepareRemovalEffect : WriteEffect := packageEffect (fun via index sub data s =>
  if s.removal.state == 3 then
    packageDone (if via == .link || (otherDies s).isEmpty then bump s 0x1180 0x0B else s) via index sub data
  else if s.removal.state != 0 then startLong s via index sub data true 0
  else
    let s := { s with removal := { s.removal with state := 1 } }
    let s := setQuiesce (setQuiesce s 0 1) 1 1
    let s := (slotNumbers.filter (fun n => (slotOf s n).state == .running && (slotOf s n).save.isNone)).foldl
      (fun s n => startSave s n true) s
    startLong s via index sub data true 0)

/-- PREPARE_REMOVAL (R396). -/
def execPrepareRemoval (via : Via) (value : Nat) (s : State) : Result :=
  .next (requestWrite prepareRemovalEffect via 0x1100 1 (leBytes 1 value) s)

/-- DRAIN_DEADLINE (R396): messages still open end, and work in flight is abandoned. -/
def execDrainDeadline (s : State) : Result :=
  .next (if s.removal.state != 1 || !unitsWork s then s
    else
      let s := settlePorts (cutMessages s (s.net.msgs.filter (·.opn)))
      let s := (busySlots s).foldl (fun s n => if (slotOf s n).save.isSome then drainSave s n else abandonSlot s n) s
      { s with removal := { s.removal with state := 2 } })

end Sys2Proof.Machine
end

