-- ==== Sys2Proof/Machine/Rucksack.lean ====
section
/-! DEFINITION. Rucksacks: their bytes (R400, R401), their writing (R402), their restoring (R403 to R405), and the last steps of a
planned removal (R396). -/

namespace Sys2Proof.Machine

/-! ## The bytes of a rucksack (R400, R401) -/

/-- An admission record as admitted, with STATE, SLOT and STATUS zero (R305). -/
def admissionBytes (a : Admission) : List Byte :=
  leBytes 64 (a.paramBase * 2 ^ 448 + a.jobSeed * 2 ^ 384 + a.jobTag * 2 ^ 352 + a.encRoots * 2 ^ 336 + a.primeSets * 2 ^ 328
    + a.stripe * 2 ^ 320 + a.progEntry * 2 ^ 308 + a.regions.length * 2 ^ 304 + a.prefetch * 2 ^ 299 + a.priority * 2 ^ 296
    + (if a.usesTok then 2 ^ 295 else 0) + (if a.admitter then 2 ^ 294 else 0)
    + a.txaBase * 2 ^ 240 + a.txaSize * 2 ^ 224 + a.pfgBase * 2 ^ 208 + a.pfgSize * 2 ^ 192)
  ++ (List.range 16).flatMap (fun p => leBytes 4 (a.pools.getD p 0))
  ++ (List.range 8).flatMap (fun i =>
      match a.regions[i]? with
      | some r => leBytes 4 r.base ++ leBytes 4 0 ++ leBytes 4 r.bytes ++ leBytes 4 r.half
      | none => leBytes 16 0)

/-- A section: its tag, its content, zero padding to a multiple of 8. -/
def section_ (ty : Nat) (content : List Byte) : List Byte :=
  leBytes 2 ty ++ leBytes 2 0 ++ leBytes 4 content.length ++ content ++ leBytes ((8 - content.length % 8) % 8) 0

/-- SEQUENCER: the position and the open loops, outermost first. -/
def sequencerSection (v : Save) : List Byte :=
  leBytes 2 v.pc ++ leBytes 1 v.loops.length ++ leBytes 5 0
    ++ v.loops.reverse.flatMap (fun l => leBytes 2 l.start ++ leBytes 2 l.stop ++ leBytes 4 0 ++ leBytes 4 l.remaining ++ leBytes 4 l.iter)

/-- PRIME_SETS. -/
def primeSetsSection (s : State) (n : Nat) : List Byte :=
  ((List.range 8).filter (fun k => (slotOf s n).job.primeSets.testBit k)).flatMap (fun k =>
    leBytes 1 k ++ leBytes 3 0 ++ leBytes 4 (setOf s k).fingerprint)

/-- LANDING, of this engine's regions: the record number and the count of the stage each feeds. -/
def landingSection (s : State) (n : Nat) : List Byte :=
  (s.net.lrs.filter (fun e => e.2.state != .disabled && e.2.jobSlot == n && e.2.jobTag == (slotOf s n).job.jobTag)).flatMap (fun e =>
    let (log, acc) :=
      match s.net.stages.find? (fun i => i.slot == n && i.waitLink == e.2.link) with
      | some i => (i.logSeq, i.accepted)
      | none =>
        match restoredCursor s n e.2.link with
        | some c => (c.logSeq, c.accepted)
        | none => (0, 0)
    leBytes 1 (dieId s) ++ leBytes 1 0 ++ leBytes 2 e.1 ++ leBytes 4 log ++ leBytes 8 acc)

/-- CONTEXTS, of this engine's abandoned video samples, with the context records in device memory; where their region is not set they
are unstated (log entry 3). -/
def contextsSection (s : State) (v : Save) (free : Nat) : List Byte :=
  v.contexts.zipIdx.flatMap (fun e =>
    leBytes 8 e.1.1 ++ leBytes 4 e.1.2.1 ++ leBytes 4 0
      ++ (if objGet s 0x4000 6 == 0 then freeBytes (free + 32768 * e.2) 32768
          else memBytes s (objGet s 0x4000 6 + 32768 * e.1.2.2) 32768))

/-- The sections present, in ascending TYPE: a section with nothing to say is left out. -/
def rucksackSections (s : State) (n : Nat) (v : Save) (landing contexts : List Byte) (free : Nat) : List (Nat × List Byte) :=
  [(1, admissionBytes (slotOf s n).job), (2, sequencerSection v), (3, primeSetsSection s n), (4, v.batch),
   (5, landingSection s n ++ landing), (6, contextsSection s v free ++ contexts)].filter (fun e => !e.2.isEmpty)

/-- A rucksack without its trailer. -/
def rucksackBody (s : State) (n : Nat) (v : Save) (landing contexts : List Byte) (free : Nat) : List Byte :=
  let sections := rucksackSections s n v landing contexts free
  let rest := sections.flatMap (fun e => section_ e.1 e.2)
  let pin := objGet s 0x1100 6
  let flags := (if v.abandoned then 4 else 0) + (if v.removal then 2 else 0) + (if pin == 0 then 0 else 1)
  leBytes 4 0x4B534B52 ++ leBytes 2 1 ++ leBytes 2 flags ++ leBytes 4 (68 + rest.length) ++ leBytes 2 sections.length
    ++ leBytes 1 n ++ leBytes 1 (slotOf s n).job.stripe ++ leBytes 4 (bankCrc s s.seq.active) ++ leBytes 4 pin
    ++ leBytes 8 (segmentOf s) ++ leBytes 8 s.boot.timeBase ++ leBytes 4 (slotOf s n).job.jobTag ++ leBytes 20 0 ++ rest

/-! ## The end of a save (R402) -/

/-- The job of a saved slot ends here. -/
def endSave (s : State) (n code : Nat) : State := endJob (closeContexts (modSlot s n (fun x => { x with save := none })) n) n 4 code

/-- The rucksack of a drained slot is written, or fails: too long, late, or refused by the memory fabric, and then it gets no
trailer. Engines of the stripe other than the home only release the job. -/
def writeRucksack (s : State) (n : Nat) (landing contexts : List Byte) (inTime memOk : Bool) : State :=
  match (slotOf s n).save with
  | none => s
  | some v =>
    if !v.drained then s
    else if !isHome s n then endSave s n 0x1102
    else
      let (free, s) := reserveFree s (32768 * v.contexts.length)
      let body := rucksackBody s n v landing contexts free
      let a := objGet s 0x1100 3 + n * objGet s 0x1100 4
      let fits := body.length + 4 ≤ objGet s 0x1100 4
      if fits && inTime && memOk then endSave (raiseErr (memWrite s a (body ++ leBytes 4 (crc32c body))) 0x1102 n) n 0x1102
      else endSave (raiseErr (if fits then memWrite s a body else s) 0x1103 n) n 0x1103

/-- RUCKSACK_WRITE (R402): `landing` and `contexts` are what the other engines of the stripe add to those sections. -/
def execRucksackWrite (slot : Nat) (landing contexts : List Byte) (inTime memOk : Bool) (s : State) : Result :=
  .next (if unitsWork s then writeRucksack s slot landing contexts inTime memOk else s)

/-- REMOVAL_RUCKSACK_DEADLINE (R396): a rucksack not written by now has failed; the counters are dumped. -/
def execRemovalRucksackDeadline (s : State) : Result :=
  .next (if s.removal.state != 2 || !unitsWork s then s
    else dumpCounters ((busySlots s).foldl (fun s n => writeRucksack s n [] [] false true) s))

/-- REMOVAL_READY (R396): both ports are held down, source 10 is raised, and the writes of PREPARE_REMOVAL are done here. -/
def execRemovalReady (s : State) : Result :=
  .next (if s.removal.state != 2 || !unitsWork s then s
    else
      let s := [0, 1].foldl (fun s p => modPort (portDown s p) p (fun x => { x with heldDown := true })) s
      let s := fire { s with removal := { s.removal with state := 3 } } 10 0
      (s.dict.long.filter (fun l => l.index == 0x1100 && l.sub == 1)).foldl (fun s _ => localFinish s 0x1100 1 0) s)

/-! ## Restoring (R403 to R405) -/

/-- The sections of a rucksack from a place on: types and contents, none where a tag is not valid or a section runs over. -/
def readSections : Nat → Nat → List Byte → Option (List (Nat × List Byte))
  | 0, _, b => if b.isEmpty then some [] else none
  | k + 1, last, b =>
    let ty := fld b 0 2
    let len := fld b 4 4
    let whole := 8 + len + (8 - len % 8) % 8
    if b.length < whole || ty ≤ last || 6 < ty || !zeros b 2 2 then none
    else (readSections k ty (b.drop whole)).map (fun r => (ty, (b.drop 8).take len) :: r)

/-- The content of a section. -/
def sectionOf (secs : List (Nat × List Byte)) (ty : Nat) : List Byte := ((secs.find? (fun e => e.1 == ty)).map (·.2)).getD []

/-- Check 1 of R404; what it finds, the sections. A rucksack without an admission record or a position is not valid. -/
def rucksackValid (s : State) (a : Nat) : Option (List (Nat × List Byte)) :=
  let len := memNat s (a + 8) 4
  let b := memBytes s a len
  if memNat s a 4 != 0x4B534B52 || memNat s (a + 4) 2 != 1 || 8 ≤ memNat s (a + 6) 2 || len < 68 || memPoisoned s a len
      || crc32c (b.take (len - 4)) != fld b (len - 4) 4 then none
  else
    match readSections (fld b 12 2) 0 ((b.take (len - 4)).drop 64) with
    | some secs => if (sectionOf secs 1).length == 256 && 8 ≤ (sectionOf secs 2).length then some secs else none
    | none => none

/-- The stripe of a restored job (R405). -/
def restoreStripe (s : State) (saved : Nat) : Nat :=
  let r := objGet s 0x1100 8
  if r != 0 then r
  else if (List.range 8).all (fun d => !saved.testBit d || dieAdmitted s d) then saved
  else s.fed.admitted

/-- Check 3 of R404. -/
def restoreSetsOk (s : State) (b : List Byte) : Bool :=
  (List.range (b.length / 8)).all (fun i =>
    let k := fld b (8 * i) 1
    k < 8 && (setOf s k).valid && (setOf s k).fingerprint == fld b (8 * i + 4) 4)

/-- Check 4 of R404, for the ports of this engine and the dies of the part. -/
def restorePinOk (s : State) (pin stripe : Nat) : Bool :=
  (List.range 16).all (fun k => !pin.testBit k ||
    (dieAdmitted s (k / 2) && stripe.testBit (k / 2) &&
      (k / 2 != dieId s || ((portOf s (k % 2)).state == 3 && bitsOf pin 19 16 ≤ popCount (portOf s (k % 2)).lanesUp))))

/-- The code of checks 1 to 4, 0 when they pass; another engine's code (`other`) counts where its check stands. -/
def restoreCode (s : State) (a other : Nat) (secs : Option (List (Nat × List Byte))) (stripe : Nat) : Nat :=
  match secs with
  | none => 0x1104
  | some x =>
    if other == 0x1104 then 0x1104
    else if memNat s (a + 16) 4 != bankCrc s s.seq.active || other == 0x1105 then 0x1105
    else if !restoreSetsOk s (sectionOf x 3) || other == 0x1106 then 0x1106
    else if ((memNat s (a + 6) 2).testBit 0 && !restorePinOk s (memNat s (a + 20) 4) stripe) || other == 0x1107 then 0x1107
    else 0

/-- What the BATCH and LANDING sections give the restored job's first stages (R405); cursors of dies outside the new stripe are
dropped. -/
def restoredOf (batch landing : List Byte) (stripe : Nat) : Restored :=
  { epoch := fld batch 0 4, hamperSeq := fld batch 4 4, logSeq := fld batch 8 4, hasBatch := !batch.isEmpty
    buckets := (List.range (fld batch 12 1)).map (fun i =>
      { f := fld batch (16 + 16 * i) 6, t := fld batch (22 + 16 * i) 6, placed := fld batch (28 + 16 * i) 4 })
    landing := ((List.range (landing.length / 16)).map (fun i =>
      { die := fld landing (16 * i) 1, region := fld landing (16 * i + 2) 2, logSeq := fld landing (16 * i + 4) 4,
        accepted := fld landing (16 * i + 8) 8 : LandCursor })).filter (fun c => stripe.testBit c.die) }

/-- The loop entries of a SEQUENCER section, innermost first. -/
def restoredLoops (b : List Byte) : List LoopEntry :=
  ((List.range (fld b 2 1)).map (fun i =>
    { start := fld b (8 + 16 * i) 2, stop := fld b (10 + 16 * i) 2, remaining := fld b (16 + 16 * i) 4,
      iter := fld b (20 + 16 * i) 4 : LoopEntry })).reverse

/-- The restored job is set up here (R405). -/
def setUpRestored (s : State) (n : Nat) (job : Admission) (secs : List (Nat × List Byte)) : State :=
  let seq := sectionOf secs 2
  modSlot (setUpJob s n 0 job false) n (fun x => { x with
    recAddr := none, pc := fld seq 0 2, target := fld seq 0 2, loops := restoredLoops seq
    dueOffset := signed 64 (objGet s 0x1100 0x10)
    restored := restoredOf (sectionOf secs 4) (sectionOf secs 5) job.stripe })

/-- The write of RUCKSACK_RESTORE (R404, R405). -/
def rucksackRestoreEffect (e : Elsewhere) : WriteEffect := packageEffect (fun via index sub data s =>
  let a := leNat data
  if admissionStopped s then dictAbort s via (abortCode 8 (objDetail index sub))
  else
    let stripe := restoreStripe s (memNat s (a + 15) 1)
    match freeSlot s stripe e with
    | none => dictAbort s via (abortCode 8 (objDetail index sub))
    | some n =>
      let s := readChecked s 63 a (memNat s (a + 8) 4)
      let secs := rucksackValid s a
      let c := restoreCode s a e.refusal secs stripe
      if c != 0 then dictAbort (raiseErr s c 63) via (abortCode 0x20 c)
      else
        let secs := secs.getD []
        let saved := admissionOf (sectionOf secs 1)
        let base := objGet s 0x1100 9
        let job := { saved with stripe := stripe, paramBase := if base == 0 then saved.paramBase else base }
        let c := admitCode s (sectionOf secs 1) job e
        if c != 0 then dictAbort (raiseRefusal s c) via (abortCode 0x20 c)
        else
          let s := bump (bump s 0x80F0 0x0C) 0x1180 0x0A
          let s := objSet s 0x1100 0x0A n
          let s := if stripe.testBit (dieId s) then setUpRestored s n job secs else s
          packageDone s via index sub data)

/-- RUCKSACK_RESTORE (R404, R405). -/
def execRucksackRestore (via : Via) (addr : Nat) (elsewhere : Elsewhere) (s : State) : Result :=
  .next (requestWrite (rucksackRestoreEffect elsewhere) via 0x1100 7 (leBytes 8 addr) s)

end Sys2Proof.Machine
end

