-- ==== Sys2Proof/Machine/Ras.lean ====
section
/-! DEFINITION. The patrol scrubber and the retirement of staging units (R411, R416). -/

namespace Sys2Proof.Machine

/-- What the storage has done since the scrubber's last visit: reads of SRAM other than staging that were corrected are counted and
raised (R410), and the granules that the memory fabric fails to read are known (R412). -/
def storageReport (s : State) (r : StorageReport) : State :=
  (List.range r.corrections).foldl (fun s _ => raiseErr s 0x1201 63) { s with mem := { s.mem with failing := r.failing } }

/-- SCRUB_VISIT (R410 to R412): a corrected word is rewritten and counted; one with a double-bit error is left as it is. -/
def execScrubVisit (corrected : Bool) (report : StorageReport) (s : State) : Result :=
  .next (if !s.boot.hclk || s.boot.inReset then s
    else
      let s := storageReport s report
      if corrected then bump s 0x9010 7 else s)

/-- A tile whose staging has failed too often is retired for good (R416). -/
def retireTile (s : State) (t : Nat) : State :=
  let s := { s with txa := { s.txa with stuck := setAdd s.txa.stuck [t] } }
  raiseErr (retireUnit s .txa t) 0x1207 63

/-- A unit of PFG/SDX staging is retired: it leaves the shared area, and a job whose window covers it is faulted (R416). -/
def retireStaging (s : State) (u : Nat) : State :=
  let s := raiseErr (objSet s 0x9000 3 (putBit (objGet s 0x9000 3) u true)) 0x1207 63
  let covered := slotNumbers.filter (fun n =>
    let j := (slotOf s n).job
    slotBusy s n && j.pfgBase ≤ u && u < j.pfgBase + j.pfgSize)
  covered.foldl (fun s n => slotFault s n 0x1207) s

/-- The uncorrectable errors of a unit of staging since reset have reached UE_BANK_LIMIT (R416). -/
def atLimit (s : State) (txa : Bool) (number : Nat) : Bool :=
  objGet s 0x9000 2 ≤ tblGet 0 (if txa then s.txa.ueCount else s.ras.pfgCount) number

/-- BANK_UE_LIMIT (R416): the count of a unit has reached UE_BANK_LIMIT. -/
def execBankUeLimit (txa : Bool) (number : Nat) (s : State) : Result :=
  .next (if !unitsWork s || !atLimit s txa number then s
    else if txa then (if tilesFused s ≤ number || s.txa.stuck.contains number then s else retireTile s number)
    else if pfgUnits ≤ number || (objGet s 0x9000 3).testBit number then s
    else retireStaging s number)

end Sys2Proof.Machine
end

