-- ==== Sys2Proof/Machine/TokMath.lean ====
section
/-! DEFINITION. The tokeniser's text work (R195 to R204): UTF-8, special tokens, the split into pieces, merging, and the table
image with its checks. -/

namespace Sys2Proof.Machine

/-! ## UTF-8 (R195) -/

/-- The continuation ranges after a first byte, none when no row starts with it. -/
def utf8Row (b : Nat) : Option (List (Nat × Nat)) :=
  let c : Nat × Nat := (0x80, 0xBF)
  if b ≤ 0x7F then some []
  else if 0xC2 ≤ b && b ≤ 0xDF then some [c]
  else if b == 0xE0 then some [(0xA0, 0xBF), c]
  else if (0xE1 ≤ b && b ≤ 0xEC) || b == 0xEE || b == 0xEF then some [c, c]
  else if b == 0xED then some [(0x80, 0x9F), c]
  else if b == 0xF0 then some [(0x90, 0xBF), c, c]
  else if 0xF1 ≤ b && b ≤ 0xF3 then some [c, c, c]
  else if b == 0xF4 then some [(0x80, 0x8F), c, c]
  else none

/-- How many of the ranges the bytes meet in turn. -/
def utf8Match : List (Nat × Nat) → List Byte → Nat
  | r :: rs, b :: bs => if r.1 ≤ b.toNat && b.toNat ≤ r.2 then 1 + utf8Match rs bs else 0
  | _, _ => 0

/-- The sequence or invalid subpart at the head of a text: whether it is well formed, and its length. -/
def utf8Step (bs : List Byte) : Bool × Nat :=
  match bs with
  | [] => (false, 0)
  | b :: rest =>
    match utf8Row b.toNat with
    | none => (false, 1)
    | some rs => let k := utf8Match rs rest; (k == rs.length, 1 + k)

/-- The code point of a well-formed sequence. -/
def codePoint (bs : List Byte) : Nat :=
  match bs with
  | [] => 0
  | b :: rest =>
    let lead := match rest.length with
      | 0 => b.toNat
      | 1 => b.toNat % 32
      | 2 => b.toNat % 16
      | _ => b.toNat % 8
    rest.foldl (fun n c => n * 64 + c.toNat % 64) lead

/-- A unit of the validated text: a code point, or a raw invalid byte, with the source offset of each byte. -/
structure TextUnit where
  cp : Option Nat
  bytes : List (Byte × Nat)
deriving DecidableEq, Repr

/-- The validated text of a byte string from an offset, with a limit on its steps, and its invalid subparts (R196): policy 0
replaces each by U+FFFD, the others keep its bytes. -/
def validate (policy : Nat) : Nat → Nat → List Byte → List TextUnit × Nat
  | 0, _, _ => ([], 0)
  | _ + 1, _, [] => ([], 0)
  | fuel + 1, off, b :: bs =>
    let (ok, n) := utf8Step (b :: bs)
    let part := (b :: bs).take n
    let (rest, bad) := validate policy fuel (off + n) ((b :: bs).drop n)
    if ok then ({ cp := some (codePoint part), bytes := part.zipIdx.map (fun e => (e.1, off + e.2)) } :: rest, bad)
    else if policy == 0 then ({ cp := some 0xFFFD, bytes := [(0xEF, off), (0xBF, off), (0xBD, off)] } :: rest, bad + 1)
    else (part.zipIdx.map (fun e => { cp := none, bytes := [(e.1, off + e.2)] }) ++ rest, bad + 1)

/-- A byte string is well-formed UTF-8. -/
def utf8Ok (bs : List Byte) : Bool := (validate 1 (bs.length + 1) 0 bs).2 == 0

/-! ## Specials and pieces (R197 to R199) -/

/-- The longest enabled special that a text starts with: its token, its bytes. -/
def specialAt (t : TokTable) (mask : Nat) (text : List Byte) : Option (Nat × List Byte) :=
  (t.specials.zipIdx.filter (fun e => mask.testBit e.2 && e.1.2.isPrefixOf text)).foldl (fun best e =>
    match best with
    | none => some e.1
    | some b => if b.2.length < e.1.2.length then some e.1 else some b) none

/-- The class of a code point (R198). -/
def classOf (t : TokTable) (cp : Nat) : Nat :=
  match t.ranges.find? (fun r => r.1 ≤ cp && cp ≤ r.2.1) with
  | some r => r.2.2
  | none => t.defaultClass

/-- SPLIT[a][b]. -/
def splitOf (t : TokTable) (a b : Nat) : Nat := t.matrix.getD (16 * a + b) 0

/-- The bytes of code points. -/
def unitBytes (us : List TextUnit) : List (Byte × Nat) := us.flatMap (·.bytes)

/-- A code point joins a piece, or starts the next one when the piece would grow beyond its limit (R199): pieces ended, and the piece
that ends with the code point. -/
def joinPiece (t : TokTable) (p : List TextUnit) (y : TextUnit) : List (List TextUnit) × List TextUnit :=
  if p.isEmpty then ([], [y])
  else if t.maxPiece < (unitBytes p).length + y.bytes.length then ([p], [y])
  else ([], p ++ [y])

/-- The next code point against the piece that ends with the one before it (R198). -/
def splitPiece (t : TokTable) (p : List TextUnit) (y : TextUnit) : List (List TextUnit) × List TextUnit :=
  match p.getLast?, y.cp with
  | some { cp := some cx, bytes := bx }, some cy =>
    match splitOf t (classOf t cx) (classOf t cy) with
    | 0 => joinPiece t p y
    | 2 =>
      if 2 ≤ p.length then
        let (ended, q) := joinPiece t [{ cp := some cx, bytes := bx }] y
        (p.dropLast :: ended, q)
      else joinPiece t p y
    | _ => ([p], [y])
  | _, _ => if p.isEmpty then ([], [y]) else ([p], [y])

/-- The piece of code points ended, none when it is empty. -/
def endPiece (p : List TextUnit) : List TokPiece := if p.isEmpty then [] else [.bytes (unitBytes p)]

/-- The validated text cut into specials and pieces (R197 to R199), with a limit on its steps; p is the piece being formed. A raw
invalid byte is a piece of its own. -/
def cutText (t : TokTable) (mask : Nat) : Nat → List TextUnit → List TextUnit → List TokPiece
  | 0, p, _ => endPiece p
  | _ + 1, p, [] => endPiece p
  | fuel + 1, p, y :: ys =>
    match y.cp with
    | none => endPiece p ++ [.bytes y.bytes] ++ cutText t mask fuel [] ys
    | some _ =>
      match specialAt t mask ((unitBytes ((y :: ys).take 32)).map (·.1)) with
      | some (id, str) =>
        let off := (y.bytes.headD (0, 0)).2
        let rest := dropBytes str.length (y :: ys)
        endPiece p ++ [.special id off] ++ cutText t mask fuel [] rest
      | none =>
        let (ended, q) := splitPiece t p y
        ended.map (fun e => .bytes (unitBytes e)) ++ cutText t mask fuel q ys
where
  /-- The text after the code points that make up n bytes. -/
  dropBytes : Nat → List TextUnit → List TextUnit
    | 0, us => us
    | _, [] => []
    | n + 1, u :: us => dropBytes (n + 1 - u.bytes.length) us

/-! ## Merging (R200) -/

/-- The rank of a pair. -/
def mergeRank (t : TokTable) (l r : Nat) : Option Nat :=
  match t.merges.findIdx? (fun m => m.1 == l && m.2.1 == r) with
  | some k => some k
  | none => none

/-- The lowest-ranked adjacent pair, the leftmost among equals: rank and position, from position p on. -/
def bestPair (t : TokTable) : Nat → List (Nat × Nat) → Option (Nat × Nat)
  | p, a :: b :: rest =>
    let later := bestPair t (p + 1) (b :: rest)
    match mergeRank t a.1 b.1, later with
    | some r, some (r', p') => if r ≤ r' then some (r, p) else some (r', p')
    | some r, none => some (r, p)
    | none, l => l
  | _, _ => none

/-- A piece's tokens merged until no pair has an entry; each merge shortens them by one. -/
def mergeTokens (t : TokTable) : Nat → List (Nat × Nat) → List (Nat × Nat)
  | 0, ts => ts
  | fuel + 1, ts =>
    match bestPair t 0 ts with
    | none => ts
    | some (r, p) =>
      mergeTokens t fuel (ts.take p ++ [((t.merges.getD r (0, 0, 0)).2.2, (ts.getD p (0, 0)).2)] ++ ts.drop (p + 2))

/-- The tokens of a piece. -/
def pieceTokens (t : TokTable) (bs : List (Byte × Nat)) : List (Nat × Nat) :=
  mergeTokens t bs.length (bs.map (fun b => (t.byteMap.getD b.1.toNat 0, b.2)))

/-! ## The table image (R203, R204) -/

/-- The fields of an image's header. -/
structure TokHeader where
  vocab : Nat
  merges : Nat
  specials : Nat
  defaultClass : Nat
  ranges : Nat
  maxPiece : Nat
deriving DecidableEq, Repr

def tokHeader (b : List Byte) : TokHeader :=
  { vocab := fld b 8 4, merges := fld b 12 4, specials := fld b 16 1, defaultClass := fld b 17 1, ranges := fld b 18 2, maxPiece := fld b 20 1 }

/-- The length of an image, its CRC included. -/
def tokLength (h : TokHeader) : Nat := 3716 + 8 * (h.ranges + h.merges)

/-- The header's ranges (check 2). -/
def tokHeaderOk (h : TokHeader) : Bool :=
  256 ≤ h.vocab && h.vocab ≤ 524288 && h.merges ≤ 524288 && h.specials ≤ 64 && h.defaultClass ≤ 15 && h.ranges ≤ 4096
  && 1 ≤ h.maxPiece && h.maxPiece ≤ 64

/-- Special s of an image: its ID, length and string field. -/
def tokSpecial (b : List Byte) (s : Nat) : Nat × Nat × List Byte :=
  (fld b (1152 + 40 * s) 4, fld b (1156 + 40 * s) 1, (b.drop (1160 + 40 * s)).take 32)

/-- The words of the class ranges and of the merges. -/
def tokRangeWord (b : List Byte) (i : Nat) : Nat := fld b (3712 + 8 * i) 8
def tokMergeWord (b : List Byte) (h : TokHeader) (i : Nat) : Nat := fld b (3712 + 8 * h.ranges + 8 * i) 8

/-- The table an image spells. -/
def tokTable (b : List Byte) : TokTable :=
  let h := tokHeader b
  { vocab := h.vocab, defaultClass := h.defaultClass, maxPiece := h.maxPiece
    specials := (List.range h.specials).map (fun s => let e := tokSpecial b s; (e.1, e.2.2.take e.2.1))
    byteMap := (List.range 256).map (fun i => fld b (64 + 4 * i) 4)
    matrix := (List.range 256).map (fun n => fld b (1088 + n / 4) 1 / 4 ^ (n % 4) % 4)
    ranges := (List.range h.ranges).map (fun i => let w := tokRangeWord b i; (bitsOf w 20 0, bitsOf w 41 21, bitsOf w 45 42))
    merges := (List.range h.merges).map (fun i => let w := tokMergeWord b h i; (bitsOf w 18 0, bitsOf w 37 19, bitsOf w 56 38))
    crc := fld b (tokLength h - 4) 4 }

/-- The index of the first reserved field of an image's entries that is not zero. -/
def tokReserved (b : List Byte) (h : TokHeader) : Option Nat :=
  if !zeros b 6 2 || !zeros b 21 43 then some 0
  else
    match (List.range 64).find? (fun s => !zeros b (1157 + 40 * s) 3) with
    | some s => some s
    | none =>
      match (List.range h.ranges).find? (fun i => bitsOf (tokRangeWord b i) 63 46 != 0) with
      | some i => some i
      | none => (List.range h.merges).find? (fun i => bitsOf (tokMergeWord b h i) 63 57 != 0)

/-- The first index at which a value is refused or equals an earlier one. -/
def firstClash (bad : Nat → Bool) : Nat → List Nat → List Nat → Option Nat
  | _, _, [] => none
  | i, seen, v :: vs => if bad v || seen.contains v then some i else firstClash bad (i + 1) (v :: seen) vs

/-- Special s passes check 6. -/
def tokSpecialOk (b : List Byte) (t : TokTable) (s : Nat) : Bool :=
  let (id, len, str) := tokSpecial b s
  1 ≤ len && len ≤ 32 && utf8Ok (str.take len) && (str.drop len).all (· == 0) && id < t.vocab && !t.byteMap.contains id
  && !(t.specials.take s).any (fun e => e.1 == id || e.2 == str.take len)

/-- Range i passes check 7. -/
def tokRangeOk (t : TokTable) (i : Nat) : Bool :=
  let r := t.ranges.getD i (0, 0, 0)
  r.1 ≤ r.2.1 && r.2.1 ≤ 0x10FFFF && r.2.2 ≤ 15 && (i == 0 || (t.ranges.getD (i - 1) (0, 0, 0)).2.1 < r.1)

/-- Merge i passes check 8. -/
def tokMergeOk (t : TokTable) (i : Nat) : Bool :=
  let (l, r, x) := t.merges.getD i (0, 0, 0)
  let ids := t.specials.map (·.1)
  l < t.vocab && r < t.vocab && x < t.vocab && !ids.contains l && !ids.contains r && !ids.contains x && !t.byteMap.contains x
  && !(t.merges.take i).any (fun m => m.2.2 == x || (m.1 == l && m.2.1 == r))

/-- The check of R204 an image fails first, with the entry, none when it passes. A poisoned image fails the CRC check. -/
def tokCheck (b : List Byte) (poisoned : Bool) : Option (Nat × Nat) :=
  let h := tokHeader b
  let t := tokTable b
  if b.take 6 != [0x54, 0x4B, 0x4D, 0x54, 0x01, 0x00] then some (1, 0)
  else if !tokHeaderOk h then some (2, 0)
  else
    match tokReserved b h with
    | some i => some (2, i)
    | none =>
      if poisoned || crc32c (b.take (tokLength h - 4)) != t.crc then some (3, 0)
      else
        match firstClash (fun v => t.vocab ≤ v) 0 [] t.byteMap with
        | some i => some (4, i)
        | none =>
          match t.matrix.findIdx? (· == 3) with
          | some i => some (5, i)
          | none =>
            match (List.range h.specials).find? (fun s => !tokSpecialOk b t s) with
            | some i => some (6, i)
            | none =>
              match (List.range h.ranges).find? (fun i => !tokRangeOk t i) with
              | some i => some (7, i)
              | none =>
                match (List.range h.merges).find? (fun i => !tokMergeOk t i) with
                | some i => some (8, i)
                | none => none

end Sys2Proof.Machine
end

