-- ==== Sys2Proof/Machine/Tok.lean ====
section
/-! DEFINITION. The tokeniser (R192 to R207): its items, the merging of their pieces, their outcomes, and the load of its table. -/

namespace Sys2Proof.Machine

/-! ## Items (R193, R201) -/

/-- A BOS or EOS is requested. -/
def wantsToken (x : Nat) : Nat := if x == 0xFF then 0 else 1

/-- The text tokens an item's output has room for (R202). -/
def TokItem.room (i : TokItem) : Nat := i.maxTokens - wantsToken i.bos - wantsToken i.eos

/-- The bytes of a token. -/
def TokItem.elem (i : TokItem) : Nat := if i.outType == 8 then 2 else 4

/-- OFFSETS_OFFSET and the size of the output buffer (R201). -/
def TokItem.offsetsAt (i : TokItem) : Nat := 64 + ceilDiv (i.elem * i.maxTokens) 64 * 64
def TokItem.bufferBytes (i : TokItem) : Nat := i.offsetsAt + 4 * i.maxTokens * i.offsets

/-- A tokenise item passes the checks of R193, and its job has USES_TOK (R307). -/
def tokParamsOk (s : State) (i : TokItem) : Bool :=
  let special (x : Nat) : Bool := x == 0xFF || (x ≤ 63 && x < s.tok.table.specials.length)
  (slotOf s i.slot).job.usesTok && i.sample < 2 ^ 48 && i.addr + i.len ≤ 2 ^ 48 && 1 ≤ i.len && i.len < 2 ^ 32 && i.crc < 2 ^ 32 && i.policy ≤ 2 && 1 ≤ i.maxTokens && i.maxTokens ≤ 2 ^ 24
  && (i.outType == 8 || i.outType == 0xB) && i.offsets ≤ 1 && objGet s 0x4800 5 == 1
  && !(i.outType == 8 && 65536 < s.tok.table.vocab) && special i.bos && special i.eos
  && wantsToken i.bos + wantsToken i.eos ≤ i.maxTokens

/-- The stored bytes before the first that is read poisoned, none when none is. -/
def soundBefore (s : State) (a n : Nat) : Option Nat :=
  ((granules 64 a n).find? (fun g => granulePoisoned s g)).map (fun g => 64 * g - a)

/-- The failures of a text with their places in it (R194): a poisoned byte, an invalid subpart under policy 2, and the place where
inflate fails; more than 2^32 − 1 inflated bytes are no text that inflate accepts (R163). -/
def tokFailures (i : TokItem) (poison : Option Nat) (units : List TextUnit) (length : Nat) (fails : Bool) : List (Nat × Nat) :=
  let invalid := if i.policy == 2 then (units.find? (fun u => u.cp.isNone)).map (fun u => (u.bytes.headD (0, 0)).2) else none
  (poison.map (fun k => (k, 0x0904))).toList ++ (invalid.map (fun k => (k, 0x0902))).toList
    ++ (if i.gzip && (fails || 2 ^ 32 ≤ length) then [(length, 0x0806)] else [])

/-- The first of the failures in the text, the first listed among those at one place (log entry 238). -/
def firstFailure (fs : List (Nat × Nat)) : Option (Nat × Nat) :=
  fs.foldl (fun best f =>
    match best with
    | some b => if f.1 < b.1 then some f else some b
    | none => some f) none

/-- The front end reads an item's text to its end: its poison, its inflate by an image core, its validation, and the pieces of what stands
before the first failure (R161, R194 to R199). TOK_INPUT_BYTES counts the text bytes, of a CORRUPT sample too (log entry 202). -/
def tokStart (s : State) (i : TokItem) (buffer : Nat) (inflated : InflatedText) : State :=
  let text := if i.gzip then inflated.text else memBytes s i.addr i.len
  let poison := (soundBefore s i.addr i.len).map (fun k => if i.gzip then inflated.poisonAt else k)
  let (units, bad) := validate i.policy (text.length + 1) 0 text
  let failures := tokFailures i poison units text.length inflated.fails
  let first := firstFailure failures
  let sound := match first with
    | some f => units.takeWhile (fun u => (u.bytes.headD (0, 0)).2 < f.1)
    | none => units
  let s := readChecked s i.slot i.addr i.len
  let s := if i.gzip then bumpBy s 0x8080 0x12 text.length else s
  let s := bumpBy (bumpBy s 0x8090 2 bad) 0x8090 0x0A text.length
  let s := failures.foldl (fun s f => raiseErr s f.2 i.slot) s
  { s with tok := { s.tok with run := some (
      { item := i, buffer := buffer, image := if i.gzip then freeImageCore s else none, text := text.length, invalid := bad
        corrupt := (first.map (·.2)).getD 0, pieces := cutText s.tok.table i.mask (sound.length + 1) [] sound
        replaced := 0 < bad && i.policy == 0, raw := 0 < bad && i.policy == 1 } : TokRun) } }

/-- An item leaves the tokeniser's queue. -/
def takeTok (s : State) (i : TokItem) : State := { s with tok := { s.tok with queue := s.tok.queue.erase i } }

/-- A slot's oldest item is ready for the front end: it does not wait for its buffer, nor a gzip text for a free image core (R24, R161). -/
def tokReady (s : State) (n : Nat) : Bool :=
  !(slotOf s n).backoff.contains unitTok
  && (match s.tok.queue.find? (fun i => i.slot == n) with
    | some i => !awaitsBuffer s n i.bufferBytes && (!i.gzip || (freeImageCore s).isSome)
    | none => false)

/-- TOK_ITEM_DISPATCH (R193, R201, R205): the front end, when free, takes the next item of the slot R25 chooses; its text, when it is
gzip-compressed, comes inflated with the command. An item whose size the job's reservation does not fit is
answered as one that no pool fits (R250, log entry 197). -/
def execTokItemDispatch (inflated : InflatedText) (s : State) : Result :=
  .next (
    let slots := ((s.tok.queue.map (·.slot)).eraseDups).filter (tokReady s)
    match (if unitsDispatch s && s.tok.run.isNone then arbPick s unitTok slots else none) with
    | none => s
    | some n =>
      match s.tok.queue.find? (fun i => i.slot == n) with
      | none => s
      | some i =>
        if !tokParamsOk s i then errFault (takeTok s i) n 0x0901
        else if (serviceList s .tok).isEmpty then errFault (takeTok s i) n 0x0907
        else if !reservationFits s n i.bufferBytes then errFault (takeTok s i) n 0x0C01
        else
          match needBuffer s n i.bufferBytes with
          | (none, s) => s
          | (some (c, addr), s) =>
            if c == 0 then tokStart (arbGrant (takeTok s i) unitTok n slots) i addr inflated
            else if c == 0x0C08 then retryLater s n unitTok
            else slotFault (takeTok s i) n c)

/-! ## Merging (R192, R200, R202) -/

/-- The tokens of a piece of the output; none while it is not merged. -/
def TokPiece.toks : TokPiece → Option (List (Nat × Nat))
  | .special id off => some [(id, off)]
  | .tokens ts => some ts
  | .bytes _ => none

/-- The tokens before the first piece that is not merged, and whether such a piece is left. -/
def mergedTokens : List TokPiece → List (Nat × Nat) × Bool
  | [] => ([], false)
  | p :: ps =>
    match p.toks with
    | none => ([], true)
    | some ts => let (rest, left) := mergedTokens ps; (ts ++ rest, left)

/-- A merge core has merged its piece. -/
def mergedPiece (t : TokTable) : TokPiece → TokPiece
  | .bytes bs => .tokens (pieceTokens t bs)
  | p => p

/-- The next piece for a merge core, in input order: not merged, and with no core (R192). -/
def nextPiece (s : State) (r : TokRun) : Option Nat :=
  (List.range r.pieces.length).find? (fun k =>
    (r.pieces[k]?).any (fun p => p.toks.isNone) && !s.tok.cores.any (fun e => e.2 == some k))

/-- The item has nothing left to merge: every piece is merged, or those merged fill the output. -/
def tokFull (r : TokRun) : Bool :=
  let (ts, left) := mergedTokens r.pieces
  !left || r.item.room ≤ ts.length

/-- What a merge core works on. -/
def setPiece (s : State) (c : Nat) (k : Option Nat) : State := { s with tok := { s.tok with cores := tblSet none s.tok.cores c k } }

/-- A merge core has finished its piece (R200): its tokens take their place, and the core is free. -/
def finishPiece (s : State) (r : TokRun) (c : Nat) : State :=
  match tblGet none s.tok.cores c with
  | none => s
  | some k =>
    let s := { s with tok := { s.tok with run := some { r with pieces := r.pieces.zipIdx.map (fun e =>
      if e.2 == k then mergedPiece s.tok.table e.1 else e.1) } } }
    unitDone (setPiece s c none) .tok c

/-- The lowest free core in service takes the next piece; none once the output is full (R192, R202). With no core in service the text
waits until one is (log entry 239). -/
def takePiece (s : State) (r : TokRun) : State :=
  if tokFull r then s
  else
    match freeUnit s .tok, nextPiece s r with
    | some c, some k => setPiece s c (some k)
    | _, _ => s

/-- TOK_MERGE_PIECE (R192, R200): the core named has finished its piece; with none named, a free core takes the next piece. -/
def execTokMergePiece (finished : Option Nat) (s : State) : Result :=
  .next (match s.tok.run with
    | none => s
    | some r =>
      if !unitsWork s then s
      else
        match finished with
        | some c => finishPiece s r c
        | none => takePiece s r)

/-! ## Outcomes (R194, R201, R202) -/

/-- The token of BOS or EOS. -/
def boundToken (t : TokTable) (x : Nat) : List (Nat × Nat) :=
  if x == 0xFF then [] else [((t.specials.getD x (0, [])).1, 2 ^ 32 - 1)]

/-- A piece that is no special. -/
def isPiece : TokPiece → Bool
  | .special _ _ => false
  | _ => true

/-- The tokens of a text exceed its output (R202). -/
def tokOverflows (r : TokRun) : Bool :=
  let (ts, left) := mergedTokens r.pieces
  left || r.item.room < ts.length

/-- A text sample is TOKENISED: its record, its tokens and its offsets are written (R201, R202). PIECES and SPECIALS_MATCHED count those
of the whole text, which TOK reads to its end (log entry 203). -/
def tokWrite (s : State) (r : TokRun) : State :=
  let i := r.item
  let (ts, _) := mergedTokens r.pieces
  let truncated := tokOverflows r
  let out := boundToken s.tok.table i.bos ++ ts.take i.room ++ boundToken s.tok.table i.eos
  let flags := (if r.replaced then 1 else 0) + (if r.raw then 2 else 0) + (if truncated then 4 else 0)
  let pieces := r.pieces.countP isPiece
  let rec_ := leBytes 64 (i.sample * 2 ^ 464 + out.length * 2 ^ 432 + r.text % 2 ^ 32 * 2 ^ 400 + r.invalid % 2 ^ 32 * 2 ^ 368
    + pieces % 2 ^ 32 * 2 ^ 336 + (if i.offsets == 1 then i.offsetsAt else 0) * 2 ^ 304
    + (r.pieces.length - pieces) % 2 ^ 32 * 2 ^ 272 + i.outType * 2 ^ 264 + flags)
  let bytes := out.flatMap (fun e => leBytes i.elem e.1)
  let s := memWrite (memWrite s r.buffer rec_) (r.buffer + 64) bytes
  let s := if i.offsets == 1 then memWrite s (r.buffer + i.offsetsAt) (out.flatMap (fun e => leBytes 4 e.2)) else s
  let s := bumpBy (bump s 0x8090 8) 0x8090 9 out.length
  { s with bat := { s.bat with results := s.bat.results ++
      [{ slot := i.slot, sample := i.sample, buffer := some r.buffer
         out := { code := 0, result := bytes, truncated := truncated, poisoned := memPoisoned s (r.buffer + 64) bytes.length } }] } }

/-- TOK_SAMPLE_OUTCOME (R194, R202): the text has been read to its end and its pieces are merged; at the last stored byte the CRC is
compared. The sample is TOKENISED, or CORRUPT with its buffer freed. -/
def execTokSampleOutcome (s : State) : Result :=
  .next (match s.tok.run with
    | none => s
    | some r =>
      if !unitsWork s || !tokFull r then s
      else
        let i := r.item
        let s := if tokOverflows r then raiseErr s 0x0905 i.slot else s
        let crcBad := crc32c (memBytes s i.addr i.len) != i.crc
        let s := if crcBad then raiseErr s 0x0903 i.slot else s
        let code := if r.corrupt != 0 then r.corrupt else if crcBad then 0x0903 else 0
        let s := { s with tok := { s.tok with run := none, cores := [] } }
        let s := settleUnits (settleUnits s .tok) .mdc
        if code == 0 then tokWrite s r
        else
          freeBuffers { s with bat := { s.bat with results := s.bat.results ++
            [{ slot := i.slot, sample := i.sample, out := { code := code } }] } } i.slot [r.buffer])

/-! ## The table (R204, R205) -/

/-- TOK_TABLE_USERS (R205). -/
def tokUsers (s : State) : Nat := s.slots.countP (fun e => e.2.state != .idle && e.2.job.usesTok)

/-- The write of TOK_TABLE_LOAD (R205): refused with BUSY while the table has users; else the table is lost at once and the write
waits for the load on every engine, what the table was being kept until none has refused the load with BUSY. TOK_TABLE_CRC keeps the
CRC of the image loaded last (log entry 204). -/
def tokLoadEffect : WriteEffect := packageEffect (fun via index sub data s =>
  if tokUsers s != 0 then dictAbort s via (abortCode 8 (objDetail 0x4800 7))
  else
    keepBefore (startLong (objSet { s with tok := { s.tok with table := {} } } 0x4800 5 0) via index sub data true 0) via index
      (.table s.tok.table (objGet s 0x4800 5)))

/-- TOK_TABLE_LOAD (R205). -/
def execTokTableLoad (via : Via) (value : Nat) (s : State) : Result :=
  .next (requestWrite tokLoadEffect via 0x4800 4 (leBytes 1 value) s)

/-- TOK_TABLE_LOAD_COMPLETE (R204, R205): the image at TOK_TABLE_ADDR passes its checks and is loaded, valid once every engine has
passed it; or the load aborts. -/
def execTokTableLoadComplete (othersPass : Bool) (s : State) : Result :=
  .next (if !s.dict.long.any (fun l => l.index == 0x4800 && l.sub == 4 && !l.localDone) then s
    else
      let addr := objGet s 0x4800 3
      let len := min (tokLength (tokHeader (memBytes s addr 64))) 4230788
      let b := memBytes s addr len
      let s := readChecked s 63 addr len
      match tokCheck b (memPoisoned s addr len) with
      | some (check, entry) => localFinish (raiseErr s 0x0906 63) 0x4800 4 (abortCode 0x0E (check * 2 ^ 20 + entry))
      | none =>
        let s := objSet (objSet s 0x4800 5 (if (otherDies s).isEmpty || othersPass then 1 else 0)) 0x4800 6 (tokTable b).crc
        localFinish { s with tok := { s.tok with table := tokTable b } } 0x4800 4 0)

/-- TOK_CORE_ENABLE_WRITE (R205). -/
def execTokCoreEnableWrite (via : Via) (value : Nat) (s : State) : Result := .next (enableWrite .tok false 8 via value s)

end Sys2Proof.Machine
end

