-- ==== Sys2Proof/Machine/ObjRead.lean ====
section
/-! DEFINITION. What a read of an object returns (R330 to R333): values that other parts of the state hold, and stored ones. -/

namespace Sys2Proof.Machine

/-- The units of a kind in service as a mask. -/
def serviceMask (s : State) (k : UnitKind) : Nat := (serviceList s k).foldl (fun n u => n + 2 ^ u) 0

/-- Word w of a bit vector over the sources (R359). -/
def sourceWord (s : State) (w : Nat) (p : Nat → Src → Bool) : Nat :=
  s.evt.srcs.foldl (fun n e => if e.1 / 32 == w && p e.1 e.2 then n + 2 ^ (e.1 % 32) else n) 0

def bit (b : Bool) (k : Nat) : Nat := if b then 2 ^ k else 0

/-- EVT_STATE (R358). -/
def evtState (x : Src) : Nat := x.core * 64 + bit x.held 3 + bit x.active 2 + bit x.pending 1 + bit x.latch 0

/-- The fuses and wires, zero before they are latched. -/
def fuseValue (s : State) (f : Fuses → Nat) : Nat :=
  match s.boot.fuses with
  | some x => f x
  | none => 0

/-- The claimed regions in claim order (R345). -/
def claimedRegions (s : State) : List Claim := s.dict.claims.filter (fun c => isRegion c.res)

/-- Objects of 0x1000 and 0x1001 (R6, R334, R406). -/
def readIdentity (s : State) (index sub : Nat) : Nat :=
  match index, sub with
  | 0x1000, 1 => fuseValue s (·.packageKind)
  | 0x1000, 2 => dieId s
  | 0x1000, 3 => fuseValue s (·.arrayMode)
  | 0x1000, 5 => s.fed.present
  | 0x1000, 6 => bit (degraded s) 0
  | 0x1000, 7 => localMemBase s
  | 0x1001, 1 => s.fed.engineState
  | 0x1001, 2 => s.boot.timeBase
  | 0x1001, 3 => bit (dictReady s) 0
  | 0x1001, 4 => s.fed.hcState
  | 0x1001, 5 => s.fed.lead
  | 0x1001, 6 => s.fed.admitted
  | 0x1001, 7 => s.fed.missing
  | 0x1001, 8 => s.fed.health
  | 0x1001, 9 => s.fed.closeAclk
  | 0x1001, 0x0A => s.fed.group
  | 0x1001, 0x0B => s.fed.members
  | 0x1001, 0x0C => s.fed.linksUp
  | 0x1001, 0x0D => s.fed.version
  | 0x1001, 0x0E => s.fed.fatalCause
  | _, _ => objGet s index sub

/-- The queue pair or region that NET_SELECT shows, and the ports' objects (R380). -/
def readNet (s : State) (index sub : Nat) : Nat :=
  let sel := objGet s 0x3001 7
  if index == 0x3001 then
    match sub with
    | 8 => (match (qpOf s sel).state with | .disabled => 0 | .ready => 1 | .error => 2)
    | 9 => (qpOf s sel).epsn
    | 0x0A => (match (lrOf s sel).state with | .disabled => 0 | .enabled => 1 | .disabling => 2)
    | 0x0B => s.net.msgs.countP (fun m => m.region == sel && m.opn)
    | _ => objGet s index sub
  else
    let x := portOf s (index - 0x3010)
    match sub with
    | 2 => x.state
    | 4 => x.lanesUp
    | 5 => x.retired
    | 6 => 400 * popCount x.lanesUp
    | _ => objGet s index sub

/-- The objects of a pool of this die, and of a slot's use of the pools (R248, R261). -/
def readPool (s : State) (index sub : Nat) : Nat :=
  if index ≤ 0x617F then
    let x := poolOf s (index % 16)
    match sub with
    | 8 => poolFree x
    | 9 => poolReserved x
    | 0x0A => marginInUse x
    | 0x0C => poolWaiters x
    | 0x0D => poolQuarantined x
    | _ => objGet s index sub
  else
    let n := (index - 0x6200) % 64
    if sub ≤ 16 then heldCount (poolOf s (sub - 1)) n else reservation (poolOf s (sub - 17)) n

/-- Objects of the sequencer (R328). -/
def readSeq (s : State) (index sub : Nat) : Nat :=
  if index == 0x7000 && sub == 1 then s.seq.active
  else if index == 0x7000 && sub == 2 then bit s.seq.armed 0
  else if 0x7100 ≤ index && index ≤ 0x71FF then
    let x := pairOf s (index - 0x7100)
    match sub with
    | 1 => x.depth
    | 2 => x.empty
    | 3 => x.full
    | _ => x.users.length
  else if 0x7200 ≤ index && index ≤ 0x723F then
    let x := slotOf s (index - 0x7200)
    match sub with
    | 1 => x.state.code
    | 2 => if x.state == .parked then x.target else x.pc
    | 3 => x.fault
    | _ => x.job.jobTag
  else objGet s index sub

/-- Objects of the event controller (R358, R359). -/
def readEvt (s : State) (index sub : Nat) : Nat :=
  if index ≤ 0x74FF then
    let x := srcOf s (index - 0x7400)
    match sub with
    | 1 => x.cfg
    | 2 => evtState x
    | 3 => x.firings
    | _ => x.lastCode
  else if index ≤ 0x750F then (if sub == 4 then (grpOf s (index - 0x7500)).held else objGet s index sub)
  else if index ≤ 0x7603 then
    let c := index - 0x7600
    match sub with
    | 2 => running s c
    | 3 => evtTop s c
    | 6 => bit (coreOf s c).sleeping 0
    | 7 => bit (coreOf s c).wake 0
    | k => if 0x10 ≤ k then sourceWord s (k - 0x10) (fun _ x => x.pending && x.core == c) else objGet s index sub
  else if 0x10 ≤ sub && sub ≤ 0x17 then sourceWord s (sub - 0x10) (fun _ x => x.pending)
  else if 0x50 ≤ sub && sub ≤ 0x57 then sourceWord s (sub - 0x50) (fun _ x => x.active)
  else if 0x58 ≤ sub && sub ≤ 0x5F then sourceWord s (sub - 0x58) (fun _ x => x.latch)
  else objGet s index sub

/-- Objects of the units: cores and tiles in service, prime sets, roots, the merge table. -/
def readUnits (s : State) (index sub : Nat) : Nat :=
  if 0x2100 ≤ index && index ≤ 0x2107 then
    let x := setOf s (index - 0x2100)
    match sub with
    | 2 => bit x.valid 0
    | 3 => x.fingerprint
    | _ => primeUsers s (index - 0x2100)
  else if 0x5410 ≤ index && index ≤ 0x541F then
    let x := tblGet {} s.roots (index - 0x5410)
    match sub with
    | 2 => bit x.valid 0
    | 3 => x.count
    | _ => rootUsers s (index - 0x5410)
  else
    match index, sub with
    | 0x4000, 9 => serviceMask s .mdc
    | 0x4800, 7 => tokUsers s
    | 0x4800, 0x0A => (serviceList s .tok).length
    | 0x5000, 1 => tilesFused s
    | 0x5000, 2 => (serviceList s .txa).length
    | 0x5000, 3 => if fullArray s then 30720 else 15360
    | 0x5800, 2 => (serviceList s .sdx).length
    | 0x5C00, 3 => (serviceList s .rsv).length
    | 0x6800, 4 => bit (fullArray s) 0
    | _, _ => objGet s index sub

/-- The value of an object of a fixed size. -/
def objRead (s : State) (index sub : Nat) : Nat :=
  if index == 0x1000 || index == 0x1001 then readIdentity s index sub
  else if index == 0x1100 && sub == 2 then s.removal.state
  else if index == 0x1100 && sub == 0x0D then bit s.removal.sag 0
  else if index == 0x2001 then tblGet 0 s.dict.winAbort (sub - 1)
  else if index == 0x2080 then (resHolder s (if sub ≤ 4 then .pin (sub - 1) else .timer (sub - 0x11))).getD 0
  else if index == 0x3001 || index == 0x3010 || index == 0x3011 then readNet s index sub
  else if 0x6100 ≤ index && index ≤ 0x63FF then readPool s index sub
  else if 0x7000 ≤ index && index ≤ 0x72FF then readSeq s index sub
  else if 0x7400 ≤ index && index ≤ 0x7700 then readEvt s index sub
  else readUnits s index sub

/-- The bytes of a DOMAIN object. -/
def objBytes (s : State) (index sub len : Nat) : List Byte :=
  if 0x2100 ≤ index && index ≤ 0x2107 then primeBytes (setOf s (index - 0x2100))
  else if index == 0x7001 then cellsGet (if sub == 1 then s.mem.bank0 else s.mem.bank1) 0 65536
  else if index == 0x2081 then
    match (claimedRegions s)[sub - 1]? with
    | some c => (match c.res with
        | .region base n => leBytes 8 base ++ leBytes 8 n ++ leBytes 4 c.holder ++ leBytes 4 0
        | _ => leBytes 24 0)
    | none => leBytes 24 0
  else leBytes len (objGet s index sub)

/-- What a read finds: an abort code, or the bytes of the value. -/
inductive ReadAnswer where
  | abort (code : Nat)
  | value (bytes : List Byte)
deriving DecidableEq, Repr

/-- The abort of a read, none when it is served (R330 to R334). -/
def readVerdict (s : State) (index sub : Nat) : Option Nat :=
  let obj := objDetail index sub
  if !earlyIndex index && !dictReady s then some (abortCode 7 obj)
  else if noIndex s index then some (abortCode 1 obj)
  else if sub == 0 then none
  else if highestSub index < sub then some (abortCode 2 obj)
  else if 0xF000 ≤ index then none
  else
    match objRow index sub with
    | some r => if r.acc == .wo then some (abortCode 4 obj) else none
    | none => none

/-- The value of an object that may be read. Subindex 0 is the highest in use, a reserved one reads zero, and the vendor-test block
holds what the spec does not state (log entry 3). A read of WIN_ABORT clears it. -/
def objValue (s : State) (index sub : Nat) : List Byte × State :=
  if sub == 0 then (leBytes 1 (highestSub index), s)
  else if 0xF000 ≤ index then
    let (base, s) := reserveFree s 8
    (freeBytes base 8, s)
  else
    match objRow index sub with
    | none => ([], s)
    | some r =>
      match r.ty with
      | .vstr => ([0x42, 0x30], s)
      | .domain _ hi _ => (objBytes s index sub hi, s)
      | ty =>
        let v := leBytes (ty.size.getD 8) (objRead s index sub)
        if index == 0x2001 then (v, { s with dict := { s.dict with winAbort := tblSet 0 s.dict.winAbort (sub - 1) 0 } }) else (v, s)

/-- An object is a string or a byte string. -/
def isBlob (index sub : Nat) : Bool :=
  match objRow index sub with
  | some r => r.ty.size.isNone && index < 0xF000 && sub != 0
  | none => false

end Sys2Proof.Machine
end

