-- ==== Sys2Proof/Machine/Dictionary.lean ====
section
/-! DEFINITION. The commands of the object dictionary (R333, R336 to R341): what every write does, the window slots, the mailboxes
and the writes that come from other engines. -/

namespace Sys2Proof.Machine

/-! ## The effect of every object's write -/

/-- A value whose reserved bits above some width are discarded (R11). -/
def storeBits (n : Nat) (after : WriteEffect) : WriteEffect := fun via index sub data s =>
  after via index sub (leBytes data.length (leNat data % 2 ^ n)) s

/-- KEY_DIR_BASE and KEY_DIR_ENTRIES (R130, R344). -/
def keyDirEffect : WriteEffect := fun via index sub data s =>
  claimEffect (objKey 0x5800 0x11) (fun s _ v =>
    let base := if sub == 0x10 then v else objGet s 0x5800 0x10
    let n := if sub == 0x10 then objGet s 0x5800 0x11 else v
    if n == 0 then [] else [.region base (64 * n)]) storeEffect via index sub data s

/-- MDC_CTX_BASE (R189, R344). -/
def ctxBaseEffect : WriteEffect := claimEffect (objKey 0x4000 6) (fun _ _ v => if v == 0 then [] else [.region v (16 * 2 ^ 20)]) storeEffect

/-- CQ_BASE and CQ_ENTRIES (R328, R344). -/
def cqEffect : WriteEffect := fun via index sub data s =>
  claimEffect (objKey index 2) (fun s _ v =>
    let base := if sub == 1 then v else objGet s index 1
    let n := if sub == 1 then objGet s index 2 else v
    if n == 0 then [] else [.region base (64 * n)]) storeEffect via index sub data s

/-- FED_GROUP and FED_MEMBERS: retained (R406). -/
def fedSettingEffect : WriteEffect := fun via _ sub data s =>
  dictDone { s with fed := if sub == 0x0A then { s.fed with group := leNat data } else { s.fed with members := leNat data } } via

/-- What the other engines say where a row of its own would tell: nothing stands in the way there. -/
def nowhere : Elsewhere := { busy := 0, refusal := 0 }

/-- Writes of 0x1001 and 0x1100 (R406, R407). -/
def fedEffect (index sub : Nat) : WriteEffect :=
  if index == 0x1001 then fedSettingEffect
  else
    match sub with
    | 1 => prepareRemovalEffect
    | 5 => rucksackSaveEffect nowhere
    | 6 => storeBits 20 storePackageEffect
    | 7 => rucksackRestoreEffect nowhere
    | 0x0C => storeEffect
    | 0x0E => sagResumeEffect
    | _ => storePackageEffect

/-- Writes of the network's objects (R380). -/
def netEffect (index sub : Nat) : WriteEffect :=
  if index == 0x3001 then
    match sub with
    | 3 => qpEnableEffect
    | 4 => qpDisableEffect
    | 5 => lrEnableEffect
    | 6 => lrDisableEffect
    | _ => storeEffect
  else if index == 0x3010 || index == 0x3011 then
    match sub with
    | 1 => portEnableEffect
    | 3 => laneEnableEffect
    | 7 => storeBits 48 storeEffect
    | 0x0A => quiesceEffect
    | _ => storeEffect
  else storeEffect

/-- Writes of the units' objects. -/
def unitEffect (index sub : Nat) : WriteEffect :=
  if 0x2100 ≤ index && index ≤ 0x2107 then primeImageEffect
  else if 0x5410 ≤ index && index ≤ 0x541F then encRootEffect
  else
    match index, sub with
    | 0x4000, 6 => ctxBaseEffect
    | 0x4000, 8 => enableEffect .mdc 0
    | 0x4800, 4 => tokLoadEffect
    | 0x4800, 9 => enableEffect .tok 0
    | 0x5001, 1 => enableEffect .txa 0
    | 0x5001, 2 => enableEffect .txa 64
    | 0x5800, 3 => enableEffect .sdx 0
    | 0x5800, 4 => enableEffect .sdx 64
    | 0x5800, _ => keyDirEffect
    | 0x5C00, 4 => enableEffect .rsv 0
    | 0x6801, 4 => stragglerEffect
    | _, _ => storeEffect

/-- Writes of the sequencer's objects (R311, R312, R326, R328). -/
def seqEffect (index sub : Nat) : WriteEffect :=
  if index == 0x7000 then
    match sub with
    | 3 => progArmEffect
    | 5 => rootStartEffect nowhere
    | _ => storeEffect
  else if index == 0x7001 then progBankEffect (sub - 1)
  else if 0x7010 ≤ index && index ≤ 0x701F then cqEffect
  else if 0x7100 ≤ index && index ≤ 0x71FF then semDepthEffect
  else storeEffect

/-- Writes of the event controller's objects (R358, R359). -/
def evtEffect (index sub : Nat) : WriteEffect :=
  if index ≤ 0x74FF then evtCfgEffect
  else if index ≤ 0x750F then (if sub == 2 then grpTimeEffect else storePackageEffect)
  else if index ≤ 0x7603 then
    match sub with
    | 4 => evtTakeEffect
    | 5 => evtDoneEffect
    | _ => storeEffect
  else if sub ≤ 0x27 then pendSetEffect
  else if sub ≤ 0x37 then pendClearEffect
  else if sub ≤ 0x47 then latchClearEffect
  else swRaiseEffect

/-- Objects below 0x6000: federation, pins, watchdog, ports and queue pairs, units. -/
def lowEffect : WriteEffect := fun via index sub data s =>
  if index == 0x1001 || index == 0x1100 then fedEffect index sub via index sub data s
  else if index == 0x2040 then epinEffect via index sub data s
  else if index == 0x2050 && sub == 1 then watchdogEffect via index sub data s
  else if index == 0x2050 && sub == 4 then dictDone s via
  else if 0x3000 ≤ index && index ≤ 0x3FFF then netEffect index sub via index sub data s
  else unitEffect index sub via index sub data s

/-- Objects from 0x6000 on: pools, sequencer, events, trace, units. -/
def highEffect : WriteEffect := fun via index sub data s =>
  if 0x6100 ≤ index && index ≤ 0x617F && sub == 1 then
    (if leNat data == 0 then poolDisableEffect via index sub data s else poolEnableEffect via index sub data s)
  else if 0x7000 ≤ index && index ≤ 0x72FF then seqEffect index sub via index sub data s
  else if 0x7400 ≤ index && index ≤ 0x77FF then evtEffect index sub via index sub data s
  else if index == 0xA000 && sub == 1 then traceEnableEffect via index sub data s
  else if index == 0xA000 && sub == 8 then traceMarkEffect via index sub data s
  else unitEffect index sub via index sub data s

/-- What a write does once its checks have passed, for every object. -/
def dictEffect : WriteEffect := fun via index sub data s =>
  if index < 0x6000 then lowEffect via index sub data s else highEffect via index sub data s

/-- DICT_WRITE (R332). -/
def execDictWrite (via : Via) (index sub : Nat) (data : List Byte) (s : State) : Result :=
  .next (if via == .link then (if dictServes s then dictWriteWith dictEffect via index sub data s else s)
    else requestWrite dictEffect via index sub data s)

/-- A write forwarded by another engine (R333); one of an image that brings no byte yet tells of its first byte (R48, log entry 148). -/
def forwardedWrite (s : State) (index sub : Nat) (data : List Byte) : State :=
  if isPrimeImage index sub && data.isEmpty then primeFirstByte s (index - 0x2100)
  else dictWriteWith dictEffect .link index sub data s

/-- The FORWARD pieces of a die. -/
def piecesOf (s : State) (d : Nat) : Pieces := tblGet {} s.fed.pieces d
def setPieces (s : State) (d : Nat) (x : Pieces) : State := { s with fed := { s.fed with pieces := tblSet {} s.fed.pieces d x } }

/-- A write is whole once all its data have come. -/
def writeWhole (b : List Byte) : Bool := 8 ≤ b.length && 8 + fld b 4 4 ≤ b.length

/-- The next piece of a die is taken when it is here, and those that follow it; the last piece of a write brings its effect (R333). -/
def takePieces (d : Nat) : Nat → State → State
  | 0, s => s
  | n + 1, s =>
    let x := piecesOf s d
    match x.held.find? (fun p => p.1 == x.next) with
    | none => s
    | some p =>
      let b := x.bytes ++ p.2
      let x' : Pieces := { next := (x.next + 1) % 2 ^ 32, held := x.held.erase p, bytes := if writeWhole b then [] else b }
      let s := setPieces s d x'
      takePieces d n (if writeWhole b then forwardedWrite s (fld b 0 2) (fld b 2 1) ((b.drop 8).take (fld b 4 4)) else s)

/-- FED_FORWARD (R333, R386): a piece of a write that an admitted die forwards. -/
def execFedForward (msg : FedArrival) (s : State) : Result :=
  .next (fedTake fedForwardType msg (fun b s =>
    let d := msgSrc b
    if !dieAdmitted s d then s
    else
      let x := piecesOf s d
      takePieces d (x.held.length + 1) (setPieces s d { x with held := x.held ++ [(fld b 24 4, (b.drop 4).take 20)] })) s)

/-- The class of an abort code is BUSY (R342). -/
def isBusy (abort : Nat) : Bool := abort / 2 ^ 24 == 8

/-- What a write of an index has changed here follows its outcome on the other engines: refused with BUSY it changes nothing (R48, R100,
R205), an image that another engine's checks refuse is held as written, its computed fields zero (R48), and the inactive bank is armed
when every engine has matched (R312). A write of an image that ends unfinished leaves the set as its first byte left it. -/
def settled (s : State) (index abort : Nat) : State :=
  match keptOf s index with
  | some (.set x) =>
    let n := index - 0x2100
    if isBusy abort then setSet s n x
    else if abort == 0 || abort / 2 ^ 24 == 0x0B then s
    else setSet s n (primeRaw (setOf s n))
  | some (.root x) => if isBusy abort then { s with roots := tblSet {} s.roots (index - 0x5410) x } else s
  | some (.table t v) => if isBusy abort then objSet { s with tok := { s.tok with table := t } } 0x4800 5 v else s
  | some .arm => if abort == 0 then arm s else s
  | none => s

/-- A write that another engine forwarded here has ended there: one refused with BUSY is not waited for here either. -/
def forwardEnded (s : State) (index abort : Nat) : State :=
  let s := unkeep (settled s index abort) index
  if isBusy abort then { s with dict := { s.dict with long := s.dict.long.filter (fun l => !(l.index == index && l.via == .link)) } } else s

/-- PACKAGE_WRITE_COMPLETE (R333): every other admitted engine has applied the write that this engine forwarded, or one has refused it;
or a write that another forwarded here has ended. -/
def execPackageWriteComplete (index abort : Nat) (s : State) : Result :=
  .next (match s.dict.long.find? (fun l => l.index == index && !l.othersDone) with
    | none => if (keptOf s index).isSome then forwardEnded s index abort else s
    | some l =>
      let l' := { l with othersDone := true, abort := if l.abort == 0 then abort else l.abort }
      let s := { s with dict := { s.dict with long := s.dict.long.map (fun x => if x == l then l' else x) } }
      let kept := (keptOf s index).isSome
      let s := settled s index abort
      if l'.localDone || (kept && isBusy abort) then endLong s l' else s)

/-! ## Window slots (R336, R337) -/

/-- The window slots' part of the window. -/
def aliasSpace : Nat := 0x08000000
def aliasIndex (offset : Nat) : Nat := offset / 2 ^ 11
def aliasSub (offset : Nat) : Nat := offset / 2 ^ 3 % 256

/-- What a core's last read through the window returned, and whether it drew the error response. -/
def windowAnswer (s : State) (core value : Nat) (err : Bool) : State :=
  { s with dict := { s.dict with
      readBack := tblSet 0 s.dict.readBack core value, readError := tblSet false s.dict.readError core err } }

/-- A window access aborts: a read returns all ones with the error response. -/
def aliasReadAbort (s : State) (core width code : Nat) : State := windowAnswer (dictAbort s (.window core) code) core (2 ^ (8 * width) - 1) true

/-- A window read on this engine; a stored value read poisoned returns no data (R342). -/
def aliasReadHere (s : State) (core offset width : Nat) (poisoned : Bool) : State :=
  let index := aliasIndex offset
  let sub := aliasSub offset
  match readVerdict s index sub with
  | some c => aliasReadAbort s core width c
  | none =>
    let n := (objValue s index sub).1.length
    if isBlob index sub || 8 < offset % 8 + width then aliasReadAbort s core width (abortCode 5 n)
    else if poisoned then aliasReadAbort s core width (abortCode 0x0C (objDetail index sub))
    else if index == 0x2001 && sub != 0 && postedWrites s (sub - 1) then s
    else
      let (v, s) := objValue s index sub
      windowAnswer (dictDone s (.window core)) core (leNat ((v.drop (offset % 8)).take width)) false

/-- The status word of a mailbox (R338). -/
def statusWord (x : Mailbox) : Nat :=
  x.abort * 2 ^ 32 + x.seq * 2 ^ 16 + x.segBytes * 2 ^ 4 + (if x.last then 8 else 0) + (if x.toggle then 4 else 0)
    + (if x.abort != 0 then 2 else 0) + (if x.busy then 1 else 0)

/-- What a mailbox's window reads as (R338). -/
def mailboxBytes (x : Mailbox) : List Byte :=
  leBytes 8 x.word ++ leBytes 8 x.data ++ leBytes 8 (statusWord x) ++ leBytes 0x7E8 0 ++ x.area

/-- What a read beyond the object slots returns (R336): the words and the segment area of a transfer mailbox, zero elsewhere. -/
def windowWord (s : State) (offset width : Nat) : Nat :=
  let m := (offset - aliasSpace) / 0x1000
  if 5 ≤ m then 0 else leNat (((mailboxBytes (mailboxOf s m)).drop (offset % 0x1000)).take width)

/-- ALIAS_READ (R337): one that another die serves returns what that die answers. -/
def execAliasRead (core offset width : Nat) (poisoned : Bool) (remoteAbort remoteData : Nat) (s : State) : Result :=
  .next (if !dictServes s then s
    else if aliasSpace ≤ offset then windowAnswer s core (windowWord s offset width) false
    else
      match reach s 0xF (aliasIndex offset) with
      | .here => aliasReadHere s core offset width poisoned
      | .abort c => aliasReadAbort s core width c
      | .away d =>
        let s := send s (.access d 1 (aliasIndex offset) (aliasSub offset) [])
        if remoteAbort != 0 then aliasReadAbort s core width remoteAbort
        else windowAnswer (dictDone s (.window core)) core (remoteData % 2 ^ (8 * width)) false)

/-- A window write on this engine: from slot offset 0, at least as wide as the object, with zeros beyond it. -/
def aliasWriteHere (s : State) (core offset width value : Nat) : State :=
  let index := aliasIndex offset
  let sub := aliasSub offset
  let via : Via := .window core
  let size := match objRow index sub with
    | some r => r.ty.size.getD 0
    | none => 0
  let data := if offset % 8 == 0 && size ≤ width then leBytes size value else []
  match writeVerdict s via index sub data with
  | .go =>
    if value % 2 ^ (8 * width) / 2 ^ (8 * size) != 0 then dictAbort s via (abortCode 6 (objDetail index sub))
    else dictWriteWith dictEffect via index sub data s
  | _ => dictWriteWith dictEffect via index sub data s

/-- ALIAS_WRITE (R337). -/
def execAliasWrite (core offset width value remoteAbort : Nat) (s : State) : Result :=
  .next (if !dictServes s || aliasSpace ≤ offset then s
    else
      match reach s 0xF (aliasIndex offset) with
      | .here => aliasWriteHere s core offset width value
      | .abort c => dictAbort s (.window core) c
      | .away d =>
        let s := send s (.access d 2 (aliasIndex offset) (aliasSub offset) (leBytes width value))
        if remoteAbort != 0 then dictAbort s (.window core) remoteAbort else dictDone s (.window core))

/-- WIN_ABORT_READ (R337): waits for the core's earlier writes. -/
def execWinAbortRead (core : Nat) (s : State) : Result :=
  .next (if !dictServes s || 4 ≤ core then s else aliasReadHere s core (0x2001 * 2 ^ 11 + (core + 1) * 2 ^ 3) 4 false)

/-! ## Mailboxes (R338 to R341) -/

/-- The fields of a request word (R338). -/
def reqOp (w : Nat) : Nat := bitsOf w 63 56
def reqTarget (w : Nat) : Nat := bitsOf w 55 52
def reqToggle (w : Nat) : Bool := w.testBit 48
def reqSub (w : Nat) : Nat := bitsOf w 47 40
def reqIndex (w : Nat) : Nat := bitsOf w 39 24
def reqLen (w : Nat) : Nat := bitsOf w 11 0

/-- A request word as the mailbox keeps it: its reserved bits, 51 to 49 and 23 to 12, ignore the write and read 0 (R11, R338). -/
def reqKept (w : Nat) : Nat :=
  2 ^ 52 * bitsOf w 63 52 + 2 ^ 24 * bitsOf w 48 24 + bitsOf w 11 0

/-- A request is accepted: busy, with what SEG_BYTES and LAST will say of it. -/
def beginRequest (s : State) (m word bytes : Nat) (last : Bool) : State :=
  setMailbox s m { mailboxOf s m with word := reqKept word, busy := true, nextBytes := bytes, nextLast := last }

/-- What a request moves is known. -/
def setMoved (s : State) (m bytes : Nat) (last : Bool) : State :=
  setMailbox s m { mailboxOf s m with nextBytes := bytes, nextLast := last }

def setData (s : State) (m v : Nat) : State := setMailbox s m { mailboxOf s m with data := v }

/-- Bytes are put at the start of the segment area. -/
def setArea (s : State) (m : Nat) (bs : List Byte) : State :=
  let x := mailboxOf s m
  setMailbox s m { x with area := bs ++ x.area.drop bs.length }

/-- A read of a core's WIN_ABORT waits for the writes that the core has posted (R337). -/
def winAbortWaits (s : State) (index sub : Nat) : Bool := index == 0x2001 && sub != 0 && postedWrites s (sub - 1)

/-- A mailbox stays busy until a core's writes have completed. -/
def waitWinAbort (s : State) (m core : Nat) : State := setMailbox s m { mailboxOf s m with wait := some core }

/-- An expedited read (R339). -/
def expRead (s : State) (w : MailboxWrite) : State :=
  let m := w.mailbox
  let index := reqIndex w.word
  let sub := reqSub w.word
  match reach s (reqTarget w.word) index with
  | .abort c => dictAbort s (.mailbox m) c
  | .away d =>
    let s := send s (.access d 1 index sub [])
    let n := (objValue s index sub).1.length
    if w.remoteAbort != 0 then dictAbort s (.mailbox m) w.remoteAbort
    else if 8 < n then dictAbort s (.mailbox m) (abortCode 5 n)
    else dictDone (setMoved (setData s m (w.remoteData % 2 ^ 64)) m n false) (.mailbox m)
  | .here =>
    match readVerdict s index sub with
    | some c => dictAbort s (.mailbox m) c
    | none =>
      let (v, t) := objValue s index sub
      if 8 < v.length then dictAbort s (.mailbox m) (abortCode 5 v.length)
      else if w.poisoned then dictAbort s (.mailbox m) (abortCode 0x0C (objDetail index sub))
      else if winAbortWaits s index sub then waitWinAbort s m (sub - 1)
      else dictDone (setMoved (setData t m (leNat v)) m v.length false) (.mailbox m)

/-- The bytes of an expedited write: LEN of them, of which there are at most 8; with a greater LEN the write aborts with LENGTH (R338,
R339). -/
def expData (w : MailboxWrite) : List Byte := if reqLen w.word ≤ 8 then leBytes (reqLen w.word) (w.data % 2 ^ 64) else []

/-- An expedited write (R339). -/
def expWrite (s : State) (w : MailboxWrite) : State :=
  let m := w.mailbox
  let index := reqIndex w.word
  let sub := reqSub w.word
  match reach s (reqTarget w.word) index with
  | .abort c => dictAbort s (.mailbox m) c
  | .away d =>
    let s := send s (.access d 2 index sub (expData w))
    if w.remoteAbort != 0 then dictAbort s (.mailbox m) w.remoteAbort
    else dictDone (setMoved s m (reqLen w.word) false) (.mailbox m)
  | .here => dictWriteWith dictEffect (.mailbox m) index sub (expData w) (setMoved s m (reqLen w.word) false)

/-- A segmented transfer is opened. -/
def openXfer (s : State) (m : Nat) (x : Xfer) : State := setMailbox s m { mailboxOf s m with xfer := some x }

/-- The start of a segmented read (R340): the length goes into the data word. -/
def segReadStart (s : State) (w : MailboxWrite) : State :=
  let m := w.mailbox
  let index := reqIndex w.word
  let sub := reqSub w.word
  let x : Xfer := { write := false, index := index, sub := sub, target := reqTarget w.word, total := 0, moved := 0, toggle := false, data := [] }
  match reach s (reqTarget w.word) index with
  | .abort c => dictAbort s (.mailbox m) c
  | .away d =>
    let s := send s (.access d 3 index sub [])
    if w.remoteAbort != 0 then dictAbort s (.mailbox m) w.remoteAbort
    else
      let n := w.remoteData % 2 ^ 32
      let s := dictDone (setMoved (setData s m n) m 0 (n == 0)) (.mailbox m)
      if n == 0 then s else openXfer s m { x with total := n }
  | .here =>
    match readVerdict s index sub with
    | some c => dictAbort s (.mailbox m) c
    | none =>
      if w.poisoned then dictAbort s (.mailbox m) (abortCode 0x0C (objDetail index sub))
      else if winAbortWaits s index sub then waitWinAbort s m (sub - 1)
      else
      let (v, s) := objValue s index sub
      let s := dictDone (setMoved (setData s m v.length) m 0 v.isEmpty) (.mailbox m)
      if v.isEmpty then s else openXfer s m { x with total := v.length, data := v }

/-- The abort of a write's total length at its start (R340). -/
def lengthAbort (r : ObjRow) (total : Nat) : Option Nat :=
  match r.ty with
  | .domain lo hi mult => if lo ≤ total && total ≤ hi && total % mult == 0 then none else some (abortCode 5 (hi % 2 ^ 24))
  | .vstr => if total ≤ 255 then none else some (abortCode 5 255)
  | ty => if ty.size == some total then none else some (abortCode 5 (ty.size.getD 0))

/-- The start of a segmented write (R340): its total length lies in the data word; its index is held. -/
def segWriteStart (s : State) (w : MailboxWrite) : State :=
  let m := w.mailbox
  let index := reqIndex w.word
  let sub := reqSub w.word
  let total := w.data % 2 ^ 32
  let x : Xfer := { write := true, index := index, sub := sub, target := reqTarget w.word, total := total, moved := 0, toggle := false, data := [] }
  match reach s (reqTarget w.word) index with
  | .abort c => dictAbort s (.mailbox m) c
  | .away d =>
    let s := send s (.access d 4 index sub (leBytes 4 total))
    if w.remoteAbort != 0 then dictAbort s (.mailbox m) w.remoteAbort
    else openXfer (dictDone s (.mailbox m)) m x
  | .here =>
    match verdictBy s (.mailbox m) index sub (fun r => lengthAbort r total) with
    | .abort c => dictAbort s (.mailbox m) c
    | _ =>
      if total == 0 then dictWriteWith dictEffect (.mailbox m) index sub [] (setMoved s m 0 true)
      else openXfer (dictDone s (.mailbox m)) m x

/-- What a segmented write's first byte does (R48): a prime set without users is no longer valid, on every engine. -/
def firstByte (s : State) (index sub : Nat) : State :=
  if isPrimeImage index sub then
    let s := primeFirstByte s (index - 0x2100)
    if (otherDies s).isEmpty then s else forward s index sub []
  else s

/-- A segmented write of an image that is refused once whole changes nothing, VALID included (R48, R394). -/
def firstUndone (s : State) (index sub : Nat) : State :=
  if isPrimeImage index sub && !s.dict.long.any (fun l => l.index == index) then
    tellOutcome (settled s index (abortCode 8 0)) index (abortCode 8 0)
  else s

/-- A segment that goes to another die's object. -/
def sendSegment (s : State) (x : Xfer) (bytes : List Byte) : State :=
  match reach s x.target x.index with
  | .away d => send s (.access d 5 x.index x.sub bytes)
  | _ => s

/-- A segment of a write. -/
def writeSegment (s : State) (w : MailboxWrite) (x : Xfer) : State :=
  let m := w.mailbox
  let n := reqLen w.word
  let local_ := reach s x.target x.index == .here
  let bytes := (w.area ++ leBytes 2048 0).take n
  let x' : Xfer := { x with moved := x.moved + n, toggle := !x.toggle, data := x.data ++ bytes }
  let s := setMailbox s m { mailboxOf s m with toggle := x.toggle }
  if local_ && x.moved == 0 && firstBlocked s x.index x.sub then
    dictAbort (setMoved (setMailbox s m { mailboxOf s m with xfer := none }) m 0 true) (.mailbox m) (abortCode 8 (objDetail x.index 4))
  else
    let s := if local_ && x.moved == 0 then firstByte s x.index x.sub else sendSegment s x bytes
    if x'.moved < x.total then dictDone (setMoved (openXfer s m x') m n false) (.mailbox m)
    else
      let s := setMoved (setMailbox s m { mailboxOf s m with xfer := none }) m n true
      if local_ then firstUndone (dictWriteWith dictEffect (.mailbox m) x.index x.sub x'.data s) x.index x.sub
      else if w.remoteAbort != 0 then dictAbort s (.mailbox m) w.remoteAbort
      else dictDone s (.mailbox m)

/-- A segment of a read. -/
def readSegment (s : State) (w : MailboxWrite) (x : Xfer) : State :=
  let m := w.mailbox
  let n := min (reqLen w.word) (x.total - x.moved)
  let bytes := if reach s x.target x.index == .here then (x.data.drop x.moved).take n else leBytes n w.remoteData
  let last := x.total ≤ x.moved + n
  let s := setArea (setMailbox (sendSegment s x []) m { mailboxOf s m with toggle := x.toggle }) m bytes
  let y : Option Xfer := if last then none else some { x with moved := x.moved + n, toggle := !x.toggle }
  dictDone (setMoved (setMailbox s m { mailboxOf s m with xfer := y }) m n last) (.mailbox m)

/-- A segment request (R340). -/
def segmentRequest (s : State) (w : MailboxWrite) : State :=
  let m := w.mailbox
  match (mailboxOf s m).xfer with
  | none => dictAbort s (.mailbox m) (abortCode 0x0B 2)
  | some x =>
    if reqIndex w.word != x.index || reqSub w.word != x.sub || reqTarget w.word != x.target then endTransfer s m 2
    else if reqToggle w.word != x.toggle then endTransfer s m 1
    else if reqLen w.word == 0 || 2048 < reqLen w.word then endTransfer s m 3
    else if x.write && x.total < x.moved + reqLen w.word then endTransfer s m 4
    else if x.write then writeSegment s w x
    else readSegment s w x

/-- A request word is written (R338, R341): discarded when it is narrower or displaced, or while the mailbox is busy; a cancel
outside a transfer is discarded; while a transfer is open anything but a segment or a cancel ends it. -/
def requestWord (s : State) (w : MailboxWrite) : State :=
  let m := w.mailbox
  let op := reqOp w.word
  let x := mailboxOf s m
  let s := setMailbox s m { x with data := w.data % 2 ^ 64, area := w.area }
  if w.offset != 0 || w.width != 8 then bump s 0x8100 3
  else if x.busy then (if op == 6 then s else bump s 0x8100 3)
  else if op == 6 then (if x.xfer.isSome then endTransfer (beginRequest s m w.word 0 true) m 6 else s)
  else
    let s := beginRequest s m w.word 0 false
    if op == 5 then segmentRequest s w
    else if x.xfer.isSome then endTransfer s m 2
    else
      match op with
      | 1 => expRead s w
      | 2 => expWrite s w
      | 3 => segReadStart s w
      | 4 => segWriteStart s w
      | _ => dictAbort s (.mailbox m) (abortCode 0x0B 2)

/-- A mailbox command: a request word whose OP is another command's changes nothing here; an unknown OP is served as R340 says. -/
def mailboxCommand (op : Nat) (w : MailboxWrite) (s : State) : State :=
  if !dictServes s || 5 ≤ w.mailbox || (reqOp w.word != op && 1 ≤ reqOp w.word && reqOp w.word ≤ 6) then s else requestWord s w

/-- EXPEDITED_READ (R339): OP 0x01. -/
def execExpeditedRead (w : MailboxWrite) (s : State) : Result := .next (mailboxCommand 1 w s)

/-- EXPEDITED_WRITE (R339): OP 0x02. -/
def execExpeditedWrite (w : MailboxWrite) (s : State) : Result := .next (mailboxCommand 2 w s)

/-- SEGMENTED_READ_START (R340): OP 0x03. -/
def execSegmentedReadStart (w : MailboxWrite) (s : State) : Result := .next (mailboxCommand 3 w s)

/-- SEGMENTED_WRITE_START (R340): OP 0x04. -/
def execSegmentedWriteStart (w : MailboxWrite) (s : State) : Result := .next (mailboxCommand 4 w s)

/-- SEGMENT (R340): OP 0x05. -/
def execSegment (w : MailboxWrite) (s : State) : Result := .next (mailboxCommand 5 w s)

/-- CANCEL (R341): OP 0x06. -/
def execCancel (w : MailboxWrite) (s : State) : Result := .next (mailboxCommand 6 w s)

/-- DICT_SEG_TIMEOUT (R341). -/
def execDictSegTimeout (mailbox : Nat) (s : State) : Result :=
  .next (if (mailboxOf s mailbox).xfer.isSome && !(mailboxOf s mailbox).busy then endTransfer s mailbox 5 else s)

end Sys2Proof.Machine
end

