-- ==== Sys2Proof/Machine/Dispatch.lean ====
section
/-! DEFINITION. The dispatch: what each command of the table does, one arm a command. -/

namespace Sys2Proof.Machine

/-- The effect of a command on everything but the queue of waiting commands. -/
def exec (i : Instr) (s : State) : Host.Outcome State Fault Refusal :=
  match i with
  | .loop slot => Sys2Proof.Machine.execLoop slot s
  | .loopCountReturn slot => Sys2Proof.Machine.execLoopCountReturn slot s
  | .endloop slot => Sys2Proof.Machine.execEndloop slot s
  | .waitSemaphore slot => Sys2Proof.Machine.execWaitSemaphore slot s
  | .waitBarrier slot => Sys2Proof.Machine.execWaitBarrier slot s
  | .waitTime slot => Sys2Proof.Machine.execWaitTime slot s
  | .waitTimeExpiry slot queue => Sys2Proof.Machine.execWaitTimeExpiry slot queue s
  | .signal src => Sys2Proof.Machine.execSignal src s
  | .jump slot => Sys2Proof.Machine.execJump slot s
  | .fetchlist slot => Sys2Proof.Machine.execFetchlist slot s
  | .joblistRecordReturn slot elsewhere => Sys2Proof.Machine.execJoblistRecordReturn slot elsewhere s
  | .switch slot => Sys2Proof.Machine.execSwitch slot s
  | .halt slot => Sys2Proof.Machine.execHalt slot s
  | .seqCommand slot => Sys2Proof.Machine.execSeqCommand slot s
  | .txaItem slot => Sys2Proof.Machine.execTxaItem slot s
  | .forgeItem slot => Sys2Proof.Machine.execForgeItem slot s
  | .deliver slot => Sys2Proof.Machine.execDeliver slot s
  | .keyRegister slot => Sys2Proof.Machine.execKeyRegister slot s
  | .keyRegistrationCheck slot queue => Sys2Proof.Machine.execKeyRegistrationCheck slot queue s
  | .keyStream slot => Sys2Proof.Machine.execKeyStream slot s
  | .ingestStage slot => Sys2Proof.Machine.execIngestStage slot s
  | .batchStage slot => Sys2Proof.Machine.execBatchStage slot s
  | .fetch slot => Sys2Proof.Machine.execFetch slot s
  | .alloc slot => Sys2Proof.Machine.execAlloc slot s
  | .free slot => Sys2Proof.Machine.execFree slot s
  | .commandIssue slot queue ras => Sys2Proof.Machine.execCommandIssue slot queue ras s
  | .slotFaultPropagation slot code die => Sys2Proof.Machine.execSlotFaultPropagation slot code die s
  | .commandComplete slot queue => Sys2Proof.Machine.execCommandComplete slot queue s
  | .jobEnd slot othersReady => Sys2Proof.Machine.execJobEnd slot othersReady s
  | .bankSwap => Sys2Proof.Machine.execBankSwap s
  | .rootStart via value elsewhere => Sys2Proof.Machine.execRootStart via value elsewhere s
  | .progBankWrite via bank data => Sys2Proof.Machine.execProgBankWrite via bank data s
  | .progArm via crc => Sys2Proof.Machine.execProgArm via crc s
  | .semDepthWrite via pair depth => Sys2Proof.Machine.execSemDepthWrite via pair depth s
  | .barRelease => Sys2Proof.Machine.execBarRelease s
  | .engineArrive fabricFirst waitFclk => Sys2Proof.Machine.execEngineArrive fabricFirst waitFclk s
  | .barReport => Sys2Proof.Machine.execBarReport s
  | .fedArrive msg => Sys2Proof.Machine.execFedArrive msg s
  | .fedRelease msg => Sys2Proof.Machine.execFedRelease msg s
  | .regionPoisoning slot => Sys2Proof.Machine.execRegionPoisoning slot s
  | .primeSetImageWrite via set data => Sys2Proof.Machine.execPrimeSetImageWrite via set data s
  | .primeSetValidation set othersPass => Sys2Proof.Machine.execPrimeSetValidation set othersPass s
  | .txaDispatch => Sys2Proof.Machine.execTxaDispatch s
  | .txaItemComplete tile faults reads => Sys2Proof.Machine.execTxaItemComplete tile faults reads s
  | .txaTileEnableWrite via high value => Sys2Proof.Machine.execTxaTileEnableWrite via high value s
  | .unitSelftestComplete kind failed => Sys2Proof.Machine.execUnitSelftestComplete kind failed s
  | .forgeDispatch reads => Sys2Proof.Machine.execForgeDispatch reads s
  | .forgeLimbVerdict fftUnit faults => Sys2Proof.Machine.execForgeLimbVerdict fftUnit faults s
  | .encRootKeyWrite via root data => Sys2Proof.Machine.execEncRootKeyWrite via root data s
  | .sdxStreamStart => Sys2Proof.Machine.execSdxStreamStart s
  | .sdxPermutationDone lane disagree taken => Sys2Proof.Machine.execSdxPermutationDone lane disagree taken s
  | .sdxStallResume lane stallFclk => Sys2Proof.Machine.execSdxStallResume lane stallFclk s
  | .sdxLaneEnableWrite via high value => Sys2Proof.Machine.execSdxLaneEnableWrite via high value s
  | .keyStreamDispatch => Sys2Proof.Machine.execKeyStreamDispatch s
  | .rsvCall slot purpose sample block draw => Sys2Proof.Machine.execRsvCall slot purpose sample block draw s
  | .rsvCallReturn core disagree => Sys2Proof.Machine.execRsvCallReturn core disagree s
  | .rsvCoreEnableWrite via value => Sys2Proof.Machine.execRsvCoreEnableWrite via value s
  | .mdcDecodeDispatch => Sys2Proof.Machine.execMdcDecodeDispatch s
  | .mdcDecodingUnitStart core unit => Sys2Proof.Machine.execMdcDecodingUnitStart core unit s
  | .mdcPictureComplete core picture => Sys2Proof.Machine.execMdcPictureComplete core picture s
  | .mdcSampleOutcome core stream how inflated => Sys2Proof.Machine.execMdcSampleOutcome core stream how inflated s
  | .mdcCoreEnableWrite via value => Sys2Proof.Machine.execMdcCoreEnableWrite via value s
  | .tokItemDispatch inflated => Sys2Proof.Machine.execTokItemDispatch inflated s
  | .tokMergePiece finished => Sys2Proof.Machine.execTokMergePiece finished s
  | .tokSampleOutcome => Sys2Proof.Machine.execTokSampleOutcome s
  | .tokTableLoad via value => Sys2Proof.Machine.execTokTableLoad via value s
  | .tokTableLoadComplete othersPass => Sys2Proof.Machine.execTokTableLoadComplete othersPass s
  | .tokCoreEnableWrite via value => Sys2Proof.Machine.execTokCoreEnableWrite via value s
  | .shapeSample slot sample => Sys2Proof.Machine.execShapeSample slot sample s
  | .batChunkAssign slot told => Sys2Proof.Machine.execBatChunkAssign slot told s
  | .batSampleOutcome slot position code result norm truncated poisoned => Sys2Proof.Machine.execBatSampleOutcome slot position code result norm truncated poisoned s
  | .hostPoll slot timedOut => Sys2Proof.Machine.execHostPoll slot timedOut s
  | .poolEnableWrite via pool => Sys2Proof.Machine.execPoolEnableWrite via pool s
  | .poolInitComplete pool => Sys2Proof.Machine.execPoolInitComplete pool s
  | .poolDisableWrite via pool => Sys2Proof.Machine.execPoolDisableWrite via pool s
  | .poolAllocRequest slot size => Sys2Proof.Machine.execPoolAllocRequest slot size s
  | .poolAllocGrant pool waitedFclk => Sys2Proof.Machine.execPoolAllocGrant pool waitedFclk s
  | .poolRefillReturn pool poisoned damaged => Sys2Proof.Machine.execPoolRefillReturn pool poisoned damaged s
  | .poolFreeRequest slot addr => Sys2Proof.Machine.execPoolFreeRequest slot addr s
  | .poolFreeCheck pool poisoned => Sys2Proof.Machine.execPoolFreeCheck pool poisoned s
  | .poolDeadlock waitedFclk blockedFclk => Sys2Proof.Machine.execPoolDeadlock waitedFclk blockedFclk s
  | .retryBackoffExpiry slot unit => Sys2Proof.Machine.execRetryBackoffExpiry slot unit s
  | .dlvItemDispatch => Sys2Proof.Machine.execDlvItemDispatch s
  | .memReadReturn port sent which error => Sys2Proof.Machine.execMemReadReturn port sent which error s
  | .dlvPortWrite port read => Sys2Proof.Machine.execDlvPortWrite port read s
  | .spWack port => Sys2Proof.Machine.execSpWack port s
  | .d2dLineReceived die item dst what slot tag due => Sys2Proof.Machine.execD2dLineReceived die item dst what slot tag due s
  | .mcastCreditReturn item die dst num dropped stallFclk => Sys2Proof.Machine.execMcastCreditReturn item die dst num dropped stallFclk s
  | .stragglerTimeout item => Sys2Proof.Machine.execStragglerTimeout item s
  | .stragglerEnableWrite via value => Sys2Proof.Machine.execStragglerEnableWrite via value s
  | .bankPdReqAssert bank => Sys2Proof.Machine.execBankPdReqAssert bank s
  | .bankPdReqWithdraw bank => Sys2Proof.Machine.execBankPdReqWithdraw bank s
  | .bankOnRise bank => Sys2Proof.Machine.execBankOnRise bank s
  | .aliasRead core offset width poisoned remoteAbort remoteData => Sys2Proof.Machine.execAliasRead core offset width poisoned remoteAbort remoteData s
  | .aliasWrite core offset width value remoteAbort => Sys2Proof.Machine.execAliasWrite core offset width value remoteAbort s
  | .winAbortRead core => Sys2Proof.Machine.execWinAbortRead core s
  | .expeditedRead w => Sys2Proof.Machine.execExpeditedRead w s
  | .expeditedWrite w => Sys2Proof.Machine.execExpeditedWrite w s
  | .segmentedReadStart w => Sys2Proof.Machine.execSegmentedReadStart w s
  | .segmentedWriteStart w => Sys2Proof.Machine.execSegmentedWriteStart w s
  | .segment w => Sys2Proof.Machine.execSegment w s
  | .cancel w => Sys2Proof.Machine.execCancel w s
  | .dictSegTimeout mailbox => Sys2Proof.Machine.execDictSegTimeout mailbox s
  | .dictWrite via index sub data => Sys2Proof.Machine.execDictWrite via index sub data s
  | .fedForward msg => Sys2Proof.Machine.execFedForward msg s
  | .epinAssignWrite via object value => Sys2Proof.Machine.execEpinAssignWrite via object value s
  | .watchdogEnableWrite via value => Sys2Proof.Machine.execWatchdogEnableWrite via value s
  | .watchdogKick via value => Sys2Proof.Machine.execWatchdogKick via value s
  | .watchdogExpiry => Sys2Proof.Machine.execWatchdogExpiry s
  | .pinPulseEnd pin => Sys2Proof.Machine.execPinPulseEnd pin s
  | .holdoffTimerExpiry group => Sys2Proof.Machine.execHoldoffTimerExpiry group s
  | .evtTake via core source => Sys2Proof.Machine.execEvtTake via core source s
  | .evtDone via core source => Sys2Proof.Machine.execEvtDone via core source s
  | .evtPendSet via word bits => Sys2Proof.Machine.execEvtPendSet via word bits s
  | .evtPendClear via word bits => Sys2Proof.Machine.execEvtPendClear via word bits s
  | .evtLatchClear via word bits => Sys2Proof.Machine.execEvtLatchClear via word bits s
  | .evtSwRaise via word bits => Sys2Proof.Machine.execEvtSwRaise via word bits s
  | .evtCfgWrite via source value => Sys2Proof.Machine.execEvtCfgWrite via source value s
  | .evtGrpTimeWrite via group value => Sys2Proof.Machine.execEvtGrpTimeWrite via group value s
  | .coreMaskWrite via core value => Sys2Proof.Machine.execCoreMaskWrite via core value s
  | .coreSleepEnter core => Sys2Proof.Machine.execCoreSleepEnter core s
  | .coreSleepExit core => Sys2Proof.Machine.execCoreSleepExit core s
  | .portEnableWrite via port value => Sys2Proof.Machine.execPortEnableWrite via port value s
  | .portDisableDeadline port => Sys2Proof.Machine.execPortDisableDeadline port s
  | .laneEnableWrite via port value => Sys2Proof.Machine.execLaneEnableWrite via port value s
  | .quiesceWrite via port value => Sys2Proof.Machine.execQuiesceWrite via port value s
  | .autonegComplete port partner => Sys2Proof.Machine.execAutonegComplete port partner s
  | .trainingFrameReceived port lane frame request ready => Sys2Proof.Machine.execTrainingFrameReceived port lane frame request ready s
  | .laneTrained port lane => Sys2Proof.Machine.execLaneTrained port lane s
  | .trainingDeadline port => Sys2Proof.Machine.execTrainingDeadline port s
  | .portLinkUp port aclk => Sys2Proof.Machine.execPortLinkUp port aclk s
  | .trainingRetry port => Sys2Proof.Machine.execTrainingRetry port s
  | .laneLockLoss port lane => Sys2Proof.Machine.execLaneLockLoss port lane s
  | .laneFecLimit port lane codewords => Sys2Proof.Machine.execLaneFecLimit port lane codewords s
  | .realignComplete port => Sys2Proof.Machine.execRealignComplete port s
  | .linkLoss port => Sys2Proof.Machine.execLinkLoss port s
  | .frameReceived port frame bufferBytes => Sys2Proof.Machine.execFrameReceived port frame bufferBytes s
  | .ackDelayExpiry qp => Sys2Proof.Machine.execAckDelayExpiry qp s
  | .messageOpen port bufferBytes => Sys2Proof.Machine.execMessageOpen port bufferBytes s
  | .openWaitExpiry port bufferBytes => Sys2Proof.Machine.execOpenWaitExpiry port bufferBytes s
  | .qpEnable via qp => Sys2Proof.Machine.execQpEnable via qp s
  | .qpDisable via qp => Sys2Proof.Machine.execQpDisable via qp s
  | .qpDisableDeadline region number => Sys2Proof.Machine.execQpDisableDeadline region number s
  | .lrEnable via region => Sys2Proof.Machine.execLrEnable via region s
  | .lrDisable via region => Sys2Proof.Machine.execLrDisable via region s
  | .ingestConversion message delta => Sys2Proof.Machine.execIngestConversion message delta s
  | .pwrgoodRise => Sys2Proof.Machine.execPwrgoodRise s
  | .pwrgoodFall => Sys2Proof.Machine.execPwrgoodFall s
  | .resetAssert => Sys2Proof.Machine.execResetAssert s
  | .resetRelease => Sys2Proof.Machine.execResetRelease s
  | .bringupStrapLatch packageKind arrayMode dieId memStrap mac0 mac1 => Sys2Proof.Machine.execBringupStrapLatch packageKind arrayMode dieId memStrap mac0 mac1 s
  | .bringupDomainPower => Sys2Proof.Machine.execBringupDomainPower s
  | .bringupCcxSelftestDone passed memOk => Sys2Proof.Machine.execBringupCcxSelftestDone passed memOk s
  | .d2dLinkTrainingDone links aclk => Sys2Proof.Machine.execD2dLinkTrainingDone links aclk s
  | .bringupUnitSelftestDone txa sdx rsv mdc tok => Sys2Proof.Machine.execBringupUnitSelftestDone txa sdx rsv mdc tok s
  | .announce msg aclk => Sys2Proof.Machine.execAnnounce msg aclk s
  | .register msg aclk => Sys2Proof.Machine.execRegister msg aclk s
  | .redirect msg => Sys2Proof.Machine.execRedirect msg s
  | .roster msg aclk => Sys2Proof.Machine.execRoster msg aclk s
  | .announceDeadline aclk => Sys2Proof.Machine.execAnnounceDeadline aclk s
  | .closeDeadline aclk => Sys2Proof.Machine.execCloseDeadline aclk s
  | .exclusionDeadline => Sys2Proof.Machine.execExclusionDeadline s
  | .beat msg => Sys2Proof.Machine.execBeat msg s
  | .beatSend => Sys2Proof.Machine.execBeatSend s
  | .fedLeaveTimeout die => Sys2Proof.Machine.execFedLeaveTimeout die s
  | .prepareRemoval via value => Sys2Proof.Machine.execPrepareRemoval via value s
  | .drainDeadline => Sys2Proof.Machine.execDrainDeadline s
  | .removalRucksackDeadline => Sys2Proof.Machine.execRemovalRucksackDeadline s
  | .removalReady => Sys2Proof.Machine.execRemovalReady s
  | .busSag => Sys2Proof.Machine.execBusSag s
  | .counterDump => Sys2Proof.Machine.execCounterDump s
  | .sagResume via value => Sys2Proof.Machine.execSagResume via value s
  | .rucksackSave via slot elsewhere => Sys2Proof.Machine.execRucksackSave via slot elsewhere s
  | .saveDrainDeadline slot => Sys2Proof.Machine.execSaveDrainDeadline slot s
  | .rucksackWrite slot landing contexts inTime memOk => Sys2Proof.Machine.execRucksackWrite slot landing contexts inTime memOk s
  | .rucksackRestore via addr elsewhere => Sys2Proof.Machine.execRucksackRestore via addr elsewhere s
  | .scrubVisit corrected report => Sys2Proof.Machine.execScrubVisit corrected report s
  | .bankUeLimit txa number => Sys2Proof.Machine.execBankUeLimit txa number s
  | .traceEnable via value => Sys2Proof.Machine.execTraceEnable via value s
  | .traceMark via value => Sys2Proof.Machine.execTraceMark via value s
  | .traceRecordWrite => Sys2Proof.Machine.execTraceRecordWrite s
  | .debugTriggerIn => Sys2Proof.Machine.execDebugTriggerIn s
  | .tapTestLogicReset => Sys2Proof.Machine.execTapTestLogicReset s
  | .extest tdi => Sys2Proof.Machine.execExtest tdi s
  | .samplePreload tdi => Sys2Proof.Machine.execSamplePreload tdi s
  | .idcode tdi => Sys2Proof.Machine.execIdcode tdi s
  | .clamp tdi => Sys2Proof.Machine.execClamp tdi s
  | .highz tdi => Sys2Proof.Machine.execHighz tdi s
  | .dbgStatus tdi => Sys2Proof.Machine.execDbgStatus tdi s
  | .bypass opcode tdi => Sys2Proof.Machine.execBypass opcode tdi s
  | .busSagEnd => Sys2Proof.Machine.execBusSagEnd s
  | .d2dLinkLoss link => Sys2Proof.Machine.execD2dLinkLoss link s
  | .linkLossRetrain port => Sys2Proof.Machine.execLinkLossRetrain port s
  | .poolSpillDone pool => Sys2Proof.Machine.execPoolSpillDone pool s
  | .bankOnFall bank => Sys2Proof.Machine.execBankOnFall bank s
  | .packageWriteComplete index abort => Sys2Proof.Machine.execPackageWriteComplete index abort s

end Sys2Proof.Machine
end

