-- ==== Sys2Proof/Machine/Tick.lean ====
section
/-! DEFINITION. What passes with one HCLK when no command waits. -/

namespace Sys2Proof.Machine

/-- One HCLK with no command waiting (log entry 10): the time base counts while HCLK runs (R334), every stalled slot adds one to
SEQ_QUEUE_FULL_HCLK (R316), and the wait for a bank swap is counted while a bank is armed (R313). -/
def idle (s : State) : State :=
  if !s.boot.hclk || s.boot.inReset then s
  else
    let s := { s with boot := { s.boot with timeBase := (s.boot.timeBase + 1) % 2 ^ 64 } }
    let s := bumpBy s 0x80F0 0x0F (slotNumbers.countP (stalls s))
    if s.seq.armed then bump s 0x80F0 0x10 else s

end Sys2Proof.Machine
end

