-- ==== Sys2Proof/WellFormed.lean ====
section
/-! DEFINITION. Well-formed commands: every operand within the range the spec gives the thing it names. -/

namespace Sys2Proof

/-- One of the 64 job slots (R303). -/
def slotOk (n : Nat) : Bool := n < 64

/-- One of the 16 command queues (R315). -/
def queueOk (q : Nat) : Bool := q < 16

/-- One of the 256 semaphore pairs (R19). -/
def pairOk (p : Nat) : Bool := p < 256

/-- One of the 16 buffer pools (R248). -/
def poolOk (p : Nat) : Bool := p < 16

/-- One of the two network ports (R359). -/
def portOk (p : Nat) : Bool := p < 2

/-- One of the eight lanes of a port (R359). -/
def laneOk (l : Nat) : Bool := l < 8

/-- One of the eight dies (R1). -/
def dieOk (d : Nat) : Bool := d < 8

/-- A package that is issued, with the engine mode its fuses give: VX2 and VX4 half-array, VX8 full-array (R3, R4, R6). -/
def packageOk (kind mode : Nat) : Bool := ((kind == 2 || kind == 4) && mode == 0) || (kind == 8 && mode == 1)

/-- One of the four management cores (R336). -/
def coreOk (c : Nat) : Bool := c < 4

/-- One of the 256 event sources (R347). -/
def sourceOk (n : Nat) : Bool := n < 256

/-- One of the 384 scratchpad banks (R296). -/
def bankOk (b : Nat) : Bool := b < 384

/-- One of the eight prime sets (R45). -/
def setOk (n : Nat) : Bool := n < 8

/-- One of the 1,024 queue pairs (R369). -/
def qpOk (n : Nat) : Bool := n < 1024

/-- One of the 4,096 landing regions (R372). -/
def lrOk (n : Nat) : Bool := n < 4096

/-- A value of the width of its object. -/
def fits (bits v : Nat) : Bool := v < 2 ^ bits

/-- A requester of R336: a mailbox, a core's window, or the links. -/
def Via.wf : Via → Bool
  | .mailbox m => m < 5
  | .window c => coreOk c
  | .remote d => d < 8
  | .link => true

def SignalSource.wf : SignalSource → Bool
  | .fetched n => slotOk n
  | .made n p _ => slotOk n && pairOk p

/-- A write of a mailbox's request word (R338). -/
def MailboxWrite.wf (w : MailboxWrite) : Bool :=
  w.mailbox < 5 && fits 64 w.word && fits 64 w.data && w.area.length ≤ 2048 && fits 32 w.remoteAbort

/-- A federation message of 32 bytes from one of the die-to-die links (R386). -/
def FedArrival.wf (m : FedArrival) : Bool := dieOk m.link && m.bytes.length == 32

def Elsewhere.wf (e : Elsewhere) : Bool := fits 64 e.busy && [0, 0x0F08, 0x0F09, 0x0F0A, 0x0C02, 0x0E01, 0x1104, 0x1105, 0x1106, 0x1107].contains e.refusal

/-- A line of 512 bytes of the scratchpad (R289). -/
def Line.wf (l : Line) : Bool := l.addr % 512 == 0 && l.data.all (fun e => e.1 < 512)

/-- A received frame (R361, R368). -/
def Frame.wf (f : Frame) : Bool :=
  fits 48 f.destMac && fits 16 f.etherType && fits 16 f.operation && fits 128 f.target && fits 16 f.pauseTime && fits 4 f.ihl
  && fits 8 f.protocol && fits 128 f.destIp && fits 16 f.udpPort && fits 4 f.tver && fits 16 f.pkey && fits 24 f.qpn && fits 128 f.srcIp && fits 24 f.psn
  && fits 8 f.opcode && fits 64 f.va && fits 32 f.rkey && fits 32 f.dmaLen && fits 32 f.imm

def SramRead.wf : SramRead → Bool
  | .failed k o => 1 ≤ k && k ≤ 3 && fits 48 o
  | _ => true

/-- The units of one kind (R3). -/
def unitsOf : UnitKind → Nat
  | .txa => 120
  | .sdx => 96
  | .rsv => 64
  | .mdc => 24
  | .tok => 48

/-- A command whose operands lie in the ranges the spec gives what they name. -/
def Instr.wf : Instr → Bool
  | .loop n => slotOk n
  | .loopCountReturn n => slotOk n
  | .endloop n => slotOk n
  | .waitSemaphore n => slotOk n
  | .waitBarrier n => slotOk n
  | .waitTime n => slotOk n
  | .waitTimeExpiry n q => slotOk n && queueOk q
  | .signal src => src.wf
  | .jump n => slotOk n
  | .fetchlist n => slotOk n
  | .joblistRecordReturn n e => slotOk n && e.wf
  | .switch n => slotOk n
  | .halt n => slotOk n
  | .seqCommand n => slotOk n
  | .txaItem n => slotOk n
  | .forgeItem n => slotOk n
  | .deliver n => slotOk n
  | .keyRegister n => slotOk n
  | .keyRegistrationCheck n q => slotOk n && queueOk q
  | .keyStream n => slotOk n
  | .ingestStage n => slotOk n
  | .batchStage n => slotOk n
  | .fetch n => slotOk n
  | .alloc n => slotOk n
  | .free n => slotOk n
  | .commandIssue n q ras => slotOk n && queueOk q && ras < 258 + 2 ^ 16
  | .slotFaultPropagation n code die => slotOk n && fits 16 code && dieOk die
  | .commandComplete n q => slotOk n && queueOk q
  | .jobEnd n _ => slotOk n
  | .bankSwap => true
  | .rootStart via v e => via.wf && (fits 8 v || (via == .link && fits 64 v)) && e.wf
  | .progBankWrite via b data => via.wf && b < 2 && data.length ≤ 65536
  | .progArm via crc => via.wf && fits 32 crc
  | .semDepthWrite via p d => via.wf && pairOk p && fits 16 d
  | .barRelease => true
  | .engineArrive _ _ => true
  | .barReport => true
  | .fedArrive m => m.wf
  | .fedRelease m => m.wf
  | .regionPoisoning n => slotOk n
  | .primeSetImageWrite via n data => via.wf && setOk n && data.length ≤ 32768
  | .primeSetValidation n _ => setOk n
  | .txaDispatch => true
  | .txaItemComplete tile faults _ =>
    tile < 120 && faults.all (fun f => f.pass < 16 && f.row < 256 && (f.first ++ f.second).all (fun e => e.1 < 64))
  | .txaTileEnableWrite via _ v => via.wf && fits 64 v
  | .unitSelftestComplete k failed => failed.all (fun u => u < unitsOf k)
  | .forgeDispatch _ => true
  | .forgeLimbVerdict _ _ => true
  | .encRootKeyWrite via r data => via.wf && r < 16 && data.length == 32
  | .sdxStreamStart => true
  | .sdxPermutationDone lane _ _ => lane < 96
  | .sdxStallResume lane _ => lane < 96
  | .sdxLaneEnableWrite via _ v => via.wf && fits 64 v
  | .keyStreamDispatch => true
  | .rsvCall n p sample block draw => slotOk n && fits 16 p && fits 48 sample && fits 48 block && fits 32 draw
  | .rsvCallReturn c _ => c < 64
  | .rsvCoreEnableWrite via v => via.wf && fits 64 v
  | .mdcDecodeDispatch => true
  | .mdcDecodingUnitStart c _ => c < 24
  | .mdcPictureComplete c _ => c < 24
  | .mdcSampleOutcome c k _ _ => c < 24 && k.all (fun k => k < 512)
  | .mdcCoreEnableWrite via v => via.wf && fits 32 v
  | .tokItemDispatch _ => true
  | .tokMergePiece _ => true
  | .tokSampleOutcome => true
  | .tokTableLoad via v => via.wf && fits 8 v
  | .tokTableLoadComplete _ => true
  | .tokCoreEnableWrite via v => via.wf && fits 64 v
  | .shapeSample n _ => slotOk n
  | .batChunkAssign n _ => slotOk n
  | .batSampleOutcome n _ code _ _ _ _ => slotOk n && fits 16 code
  | .hostPoll n _ => slotOk n
  | .poolEnableWrite via p => via.wf && poolOk p
  | .poolInitComplete p => poolOk p
  | .poolDisableWrite via p => via.wf && poolOk p
  | .poolAllocRequest n _ => slotOk n
  | .poolAllocGrant p _ => poolOk p
  | .poolRefillReturn p bad damaged => poolOk p && bad.all (fun i => i < 64) && damaged.all (fun i => i < 256)
  | .poolFreeRequest n a => slotOk n && fits 48 a
  | .poolFreeCheck p _ => poolOk p
  | .poolDeadlock _ _ => true
  | .retryBackoffExpiry n u => slotOk n && u < 64
  | .dlvItemDispatch => true
  | .memReadReturn p _ _ _ => p < 4
  | .dlvPortWrite p r => p < 8 && r.wf
  | .spWack p => p < 8
  | .d2dLineReceived d _ _ (.line l _ rank _) n _ _ => dieOk d && l.wf && rank ≤ 2 && slotOk n
  | .d2dLineReceived d _ _ (.notice _) n _ _ => dieOk d && slotOk n
  | .mcastCreditReturn _ d _ _ _ _ => dieOk d
  | .stragglerTimeout _ => true
  | .stragglerEnableWrite via v => via.wf && fits 64 v
  | .bankPdReqAssert b => bankOk b
  | .bankPdReqWithdraw b => bankOk b
  | .bankOnRise b => bankOk b
  | .aliasRead c o w _ a d => coreOk c && fits 28 o && w ≤ 8 && fits 32 a && fits 64 d
  | .aliasWrite c o w v a => coreOk c && fits 28 o && w ≤ 8 && fits 64 v && fits 32 a
  | .winAbortRead c => coreOk c
  | .expeditedRead w => w.wf
  | .expeditedWrite w => w.wf
  | .segmentedReadStart w => w.wf
  | .segmentedWriteStart w => w.wf
  | .segment w => w.wf
  | .cancel w => w.wf
  | .dictSegTimeout m => m < 5
  | .dictWrite via i sub _ => via.wf && fits 16 i && fits 8 sub
  | .fedForward m => m.wf
  | .epinAssignWrite via o v => via.wf && fits 8 o && fits 8 v
  | .watchdogEnableWrite via v => via.wf && fits 8 v
  | .watchdogKick via v => via.wf && fits 8 v
  | .watchdogExpiry => true
  | .pinPulseEnd p => p < 4
  | .holdoffTimerExpiry g => g < 16
  | .evtTake via c n => via.wf && coreOk c && sourceOk n
  | .evtDone via c n => via.wf && coreOk c && sourceOk n
  | .evtPendSet via w b => via.wf && w < 8 && fits 32 b
  | .evtPendClear via w b => via.wf && w < 8 && fits 32 b
  | .evtLatchClear via w b => via.wf && w < 8 && fits 32 b
  | .evtSwRaise via w b => via.wf && w < 8 && fits 32 b
  | .evtCfgWrite via n v => via.wf && sourceOk n && fits 32 v
  | .evtGrpTimeWrite via g v => via.wf && g < 16 && fits 32 v
  | .coreMaskWrite via c v => via.wf && coreOk c && fits 8 v
  | .coreSleepEnter c => coreOk c
  | .coreSleepExit c => coreOk c
  | .portEnableWrite via p v => via.wf && portOk p && fits 8 v
  | .portDisableDeadline p => portOk p
  | .laneEnableWrite via p v => via.wf && portOk p && fits 8 v
  | .quiesceWrite via p v => via.wf && portOk p && fits 8 v
  | .autonegComplete p _ => portOk p
  | .trainingFrameReceived p l f request _ => portOk p && laneOk l && fits 64 f && fits 15 request
  | .laneTrained p l => portOk p && laneOk l
  | .trainingDeadline p => portOk p
  | .portLinkUp p _ => portOk p
  | .trainingRetry p => portOk p
  | .laneLockLoss p l => portOk p && laneOk l
  | .laneFecLimit p l n => portOk p && laneOk l && 16 < n
  | .realignComplete p => portOk p
  | .linkLoss p => portOk p
  | .frameReceived p f _ => portOk p && f.wf
  | .ackDelayExpiry q => qpOk q
  | .messageOpen p _ => portOk p
  | .openWaitExpiry p _ => portOk p
  | .qpEnable via q => via.wf && qpOk q
  | .qpDisable via q => via.wf && qpOk q
  | .qpDisableDeadline region n => if region then lrOk n else qpOk n
  | .lrEnable via n => via.wf && lrOk n
  | .lrDisable via n => via.wf && lrOk n
  | .ingestConversion _ _ => true
  | .pwrgoodRise => true
  | .pwrgoodFall => true
  | .resetAssert => true
  | .resetRelease => true
  | .bringupStrapLatch kind mode die strap m0 m1 =>
    packageOk kind mode && dieOk die && fits 10 strap && fits 48 m0 && fits 48 m1
  | .bringupDomainPower => true
  | .bringupCcxSelftestDone _ m => m < 16
  | .d2dLinkTrainingDone l _ => fits 8 l
  | .bringupUnitSelftestDone a b c d e =>
    a.all (fun u => u < 120) && b.all (fun u => u < 96) && c.all (fun u => u < 64) && d.all (fun u => u < 24) && e.all (fun u => u < 48)
  | .announce m _ => m.wf
  | .register m _ => m.wf
  | .redirect m => m.wf
  | .roster m _ => m.wf
  | .announceDeadline _ => true
  | .closeDeadline _ => true
  | .exclusionDeadline => true
  | .beat m => m.wf
  | .beatSend => true
  | .fedLeaveTimeout d => dieOk d
  | .prepareRemoval via v => via.wf && fits 8 v
  | .drainDeadline => true
  | .removalRucksackDeadline => true
  | .removalReady => true
  | .busSag => true
  | .counterDump => true
  | .sagResume via v => via.wf && fits 8 v
  | .rucksackSave via n e => via.wf && fits 8 n && e.wf
  | .saveDrainDeadline n => slotOk n
  | .rucksackWrite n _ _ _ _ => slotOk n
  | .rucksackRestore via a e => via.wf && fits 64 a && e.wf
  | .scrubVisit _ _ => true
  | .bankUeLimit txa n => if txa then n < 120 else n < 288
  | .traceEnable via v => via.wf && fits 8 v
  | .traceMark via v => via.wf && fits 64 v
  | .traceRecordWrite => true
  | .debugTriggerIn => true
  | .tapTestLogicReset => true
  | .extest _ => true
  | .samplePreload _ => true
  | .idcode _ => true
  | .clamp _ => true
  | .highz _ => true
  | .dbgStatus _ => true
  | .bypass op _ => fits 8 op
  | .busSagEnd => true
  | .d2dLinkLoss l => dieOk l
  | .linkLossRetrain p => portOk p
  | .poolSpillDone p => poolOk p
  | .bankOnFall b => bankOk b
  | .packageWriteComplete i a => fits 16 i && fits 32 a

end Sys2Proof
end

