-- ==== Sys2Proof/Safety.lean ====
section
/-! DEFINITION. What counts as a safe run, and the occasions of the commands: the terms the statements use. -/

namespace Sys2Proof.Machine

/-! ## Invariants -/

/-- Every semaphore pair keeps EMPTY + FULL within its depth (R20, R21). -/
def PairsBounded (s : State) : Prop := ∀ p : Nat, (pairOf s p).empty + (pairOf s p).full ≤ (pairOf s p).depth

/-- The fuses and straps latched once stay as they are (R4). -/
def FusesKept (s t : State) : Prop := ∀ f, s.boot.fuses = some f → t.boot.fuses = some f

/-- Every memory is in its canonical form: addresses strictly rising, no entry equal to what an unlisted address reads as. -/
abbrev Mems.wf (m : Mems) : Prop :=
  tblWf (0 : Byte) m.dev = true ∧ tblWf (0 : Byte) m.txa = true ∧ tblWf (0 : Byte) m.pfg = true ∧ tblWf (0 : Byte) m.sp = true
  ∧ tblWf (0 : Byte) m.bank0 = true ∧ tblWf (0 : Byte) m.bank1 = true

/-! ## Frames -/

/-- The parts of the state that a command may change. -/
inductive Part where
  | drawn | boot | objects | tallies | devMem | staging | scratchpad | banks | sets | roots | pairs | slots | cmds | seq | arbs | txa
  | forge | sdx | rsv | mdc | tok | bat | pools | dlv | net | fed | dict | pins | evt | ras | trace | tap | removal
deriving DecidableEq, Repr

/-- The objects that only count and report what has happened: event counters (0x7700), statistics (0x8000 to 0x8FFF), the
ports', federation and reliability counters (0x3F00, 0x3F01, 0x1180, 0x9010), RAS_LAST_ADDR and RAS_LAST_CODE, TRACE_WRITTEN and TRACE_DROPPED. -/
def tally (index sub : Nat) : Bool :=
  (0x8000 ≤ index && index ≤ 0x8FFF) || index == 0x3F00 || index == 0x3F01 || index == 0x7700 || index == 0x1180 || index == 0x9010
  || (index == 0x9000 && (sub == 4 || sub == 5)) || (index == 0xA000 && 9 ≤ sub)

/-- The part an object belongs to, by its key index * 256 + subindex. -/
def keyPart (key : Nat) : Part := if tally (key / 256) (key % 256) then .tallies else .objects

/-- t differs from s in no part but those p holds of; the queue is never one of them. -/
structure Changes (p : Part → Bool) (s t : State) : Prop where
  pending : t.pending = s.pending
  drawn : p .drawn = true ∨ t.drawn = s.drawn
  boot : p .boot = true ∨ t.boot = s.boot
  objs : ∀ k, p (keyPart k) = true ∨ tblGet (objDefault k) t.objs k = tblGet (objDefault k) s.objs k
  devMem : p .devMem = true ∨ (t.mem.dev = s.mem.dev ∧ t.mem.devPoison = s.mem.devPoison ∧ t.mem.failing = s.mem.failing)
  staging : p .staging = true ∨ (t.mem.txa = s.mem.txa ∧ t.mem.txaPoison = s.mem.txaPoison ∧ t.mem.pfg = s.mem.pfg
    ∧ t.mem.pfgPoison = s.mem.pfgPoison)
  scratchpad : p .scratchpad = true ∨ (t.mem.sp = s.mem.sp ∧ t.mem.spPoison = s.mem.spPoison)
  banks : p .banks = true ∨ (t.mem.bank0 = s.mem.bank0 ∧ t.mem.bank1 = s.mem.bank1)
  sets : p .sets = true ∨ t.sets = s.sets
  roots : p .roots = true ∨ t.roots = s.roots
  pairs : p .pairs = true ∨ t.pairs = s.pairs
  slots : p .slots = true ∨ t.slots = s.slots
  cmds : p .cmds = true ∨ t.cmds = s.cmds
  seq : p .seq = true ∨ t.seq = s.seq
  arbs : p .arbs = true ∨ t.arbs = s.arbs
  txa : p .txa = true ∨ t.txa = s.txa
  forge : p .forge = true ∨ t.forge = s.forge
  sdx : p .sdx = true ∨ t.sdx = s.sdx
  rsv : p .rsv = true ∨ t.rsv = s.rsv
  mdc : p .mdc = true ∨ t.mdc = s.mdc
  tok : p .tok = true ∨ t.tok = s.tok
  bat : p .bat = true ∨ t.bat = s.bat
  pools : p .pools = true ∨ t.pools = s.pools
  dlv : p .dlv = true ∨ t.dlv = s.dlv
  net : p .net = true ∨ t.net = s.net
  fed : p .fed = true ∨ t.fed = s.fed
  dict : p .dict = true ∨ t.dict = s.dict
  pins : p .pins = true ∨ t.pins = s.pins
  evt : p .evt = true ∨ t.evt = s.evt
  ras : p .ras = true ∨ t.ras = s.ras
  trace : p .trace = true ∨ t.trace = s.trace
  tap : p .tap = true ∨ t.tap = s.tap
  removal : p .removal = true ∨ t.removal = s.removal

/-- What the faulting of a slot may change (R310): errors, the slot, its waits, commands and buffers, and every stage's work. -/
def faulting : List Part :=
  [.drawn, .objects, .tallies, .devMem, .pairs, .slots, .cmds, .txa, .sdx, .rsv, .mdc, .tok, .bat, .pools, .net, .fed, .evt, .trace]

/-- The parts of the state a command may change, in every state and with every operand. -/
def changes : Instr → List Part
  | .loop _ | .endloop _ | .jump _ | .fetchlist _ | .switch _ | .halt _ | .seqCommand _ | .rsvCall _ _ _ _ _ | .rsvCallReturn _ _
  | .mdcDecodeDispatch | .tokItemDispatch _ | .shapeSample _ _ => faulting ++ [.arbs]
  | .loopCountReturn _ => [.drawn, .tallies, .slots, .evt, .trace]
  | .waitSemaphore _ | .waitBarrier _ | .waitTime _ | .signal _ | .txaItem _ | .forgeItem _ | .deliver _ | .keyRegister _
  | .keyStream _ | .ingestStage _ | .batchStage _ | .fetch _ | .alloc _ | .free _ => faulting ++ [.seq, .arbs]
  | .waitTimeExpiry _ _ => [.cmds]
  | .joblistRecordReturn _ _ => [.drawn, .objects, .tallies, .devMem, .slots, .pools, .fed, .evt, .trace]
  | .keyRegistrationCheck _ _ => [.tallies, .devMem, .cmds, .sdx, .evt, .trace]
  | .commandIssue _ _ _ => faulting ++ [.boot, .staging, .scratchpad, .seq, .arbs, .forge, .dlv]
  | .slotFaultPropagation _ _ _ | .bankUeLimit _ _ => faulting
  | .commandComplete _ _ | .barRelease | .sdxPermutationDone _ _ _ | .spWack _ | .d2dLineReceived _ _ _ _ _ _ _
  | .mcastCreditReturn _ _ _ _ _ _ | .stragglerTimeout _ | .ingestConversion _ _ => faulting ++ [.dlv]
  | .jobEnd _ _ => [.objects, .tallies, .devMem, .pairs, .slots, .cmds, .mdc, .pools, .dlv, .net, .evt, .trace]
  | .bankSwap => [.tallies, .slots, .seq, .evt]
  | .rootStart _ _ _ => [.drawn, .tallies, .devMem, .slots, .seq, .pools, .fed, .dict, .evt, .trace]
  | .progBankWrite _ _ _ => [.tallies, .banks, .slots, .seq, .fed, .dict, .evt, .trace]
  | .progArm _ _ => [.tallies, .seq, .fed, .dict, .evt, .trace]
  | .semDepthWrite _ _ _ => [.tallies, .pairs, .dlv, .fed, .dict, .trace]
  | .engineArrive _ _ => faulting ++ [.dlv, .pins]
  | .barReport => [.dlv, .fed]
  | .fedArrive _ | .fedRelease _ => [.tallies, .dlv, .fed]
  | .regionPoisoning _ => [.drawn, .objects, .tallies, .dlv]
  | .primeSetImageWrite _ _ _ => [.tallies, .sets, .fed, .dict, .trace]
  | .primeSetValidation _ _ => [.tallies, .sets, .fed, .dict]
  | .txaDispatch => faulting ++ [.arbs, .forge]
  | .txaItemComplete _ _ _ => [.objects, .tallies, .staging, .cmds, .txa, .forge, .sdx, .rsv, .mdc, .tok, .bat, .evt, .ras, .trace]
  | .txaTileEnableWrite _ _ _ | .sdxLaneEnableWrite _ _ _ | .rsvCoreEnableWrite _ _ | .mdcCoreEnableWrite _ _
  | .tokCoreEnableWrite _ _ => [.objects, .tallies, .txa, .sdx, .rsv, .mdc, .tok, .fed, .dict, .trace]
  | .unitSelftestComplete _ _ => faulting ++ [.arbs, .dict]
  | .forgeDispatch _ => faulting ++ [.staging, .roots, .arbs, .forge, .ras]
  | .forgeLimbVerdict _ _ => [.drawn, .objects, .tallies, .devMem, .staging, .slots, .cmds, .txa, .forge, .sdx, .pools, .dict, .evt, .trace]
  | .encRootKeyWrite _ _ _ => [.tallies, .roots, .fed, .dict, .trace]
  | .sdxStreamStart => [.arbs, .sdx]
  | .sdxStallResume _ _ => [.tallies, .devMem, .sdx, .net]
  | .keyStreamDispatch | .dlvItemDispatch => faulting ++ [.staging, .arbs, .dlv]
  | .mdcDecodingUnitStart _ _ =>
    [.drawn, .objects, .tallies, .devMem, .slots, .cmds, .arbs, .txa, .sdx, .rsv, .mdc, .tok, .pools, .net, .evt, .trace]
  | .mdcPictureComplete _ _ => [.drawn, .objects, .tallies, .devMem, .slots, .cmds, .txa, .sdx, .rsv, .mdc, .tok, .pools, .evt, .trace]
  | .mdcSampleOutcome _ _ _ _ =>
    [.drawn, .objects, .tallies, .devMem, .slots, .cmds, .txa, .sdx, .rsv, .mdc, .tok, .bat, .pools, .evt, .trace]
  | .tokMergePiece _ => [.objects, .tallies, .txa, .sdx, .rsv, .mdc, .tok]
  | .tokSampleOutcome => [.objects, .tallies, .devMem, .slots, .cmds, .txa, .sdx, .rsv, .mdc, .tok, .bat, .pools, .evt, .trace]
  | .tokTableLoad _ _ => [.objects, .tallies, .tok, .fed, .dict, .trace]
  | .tokTableLoadComplete _ => [.objects, .tallies, .tok, .fed, .dict, .evt, .trace]
  | .batChunkAssign _ _ | .batSampleOutcome _ _ _ _ _ _ _ | .hostPoll _ _ => faulting ++ [.arbs, .dlv]
  | .poolEnableWrite _ _ => [.tallies, .pools, .fed, .dict, .evt, .trace]
  | .poolInitComplete _ => [.objects, .tallies, .devMem, .pools, .fed, .dict]
  | .poolDisableWrite _ _ => [.objects, .tallies, .pools, .fed, .dict, .trace]
  | .poolAllocRequest _ _ | .poolAllocGrant _ _ => [.objects, .tallies, .devMem, .slots, .cmds, .arbs, .pools, .net, .evt, .trace]
  | .poolRefillReturn _ _ _ => [.drawn, .objects, .tallies, .pools, .evt, .trace]
  | .poolFreeRequest _ _ => [.objects, .tallies, .devMem, .slots, .cmds, .pools, .evt, .trace]
  | .poolFreeCheck _ _ => [.objects, .tallies, .devMem, .pairs, .slots, .cmds, .pools, .dlv, .net, .evt, .trace]
  | .poolDeadlock _ _ => [.drawn, .tallies, .devMem, .slots, .cmds, .pools, .net, .evt, .trace]
  | .retryBackoffExpiry _ _ => [.slots]
  | .memReadReturn _ _ _ _ => faulting ++ [.staging, .dlv]
  | .dlvPortWrite _ _ => faulting ++ [.staging, .scratchpad, .arbs, .dlv, .ras]
  | .stragglerEnableWrite _ _ | .watchdogEnableWrite _ _ | .evtGrpTimeWrite _ _ _ | .coreMaskWrite _ _ _ | .traceEnable _ _ =>
    [.objects, .tallies, .fed, .dict, .trace]
  | .bankPdReqAssert _ => [.tallies, .dlv]
  | .bankPdReqWithdraw _ | .bankOnRise _ | .bankOnFall _ => [.dlv]
  | .aliasRead _ _ _ _ _ _ => [.drawn, .tallies, .dlv, .fed, .dict]
  | .aliasWrite _ _ _ _ _ | .expeditedRead _ | .expeditedWrite _ | .segmentedReadStart _ | .segmentedWriteStart _ | .segment _
  | .cancel _ | .dictWrite _ _ _ _ | .fedForward _ => faulting ++ [.boot, .banks, .sets, .roots, .seq, .dlv, .dict, .pins, .removal]
  | .winAbortRead _ => [.drawn, .tallies, .dlv, .dict]
  | .dictSegTimeout _ => [.tallies, .fed, .dict]
  | .epinAssignWrite _ _ _ => [.objects, .tallies, .fed, .dict, .pins, .trace]
  | .watchdogKick _ _ | .traceMark _ _ => [.tallies, .fed, .dict, .trace]
  | .watchdogExpiry => [.objects, .tallies, .evt]
  | .pinPulseEnd _ => [.pins]
  | .holdoffTimerExpiry _ | .coreSleepEnter _ => [.tallies, .evt]
  | .evtTake _ _ _ | .evtDone _ _ _ | .evtPendSet _ _ _ | .evtPendClear _ _ _ | .evtLatchClear _ _ _ | .evtSwRaise _ _ _
  | .evtCfgWrite _ _ _ => [.tallies, .fed, .dict, .evt, .trace]
  | .coreSleepExit _ => [.evt]
  | .portEnableWrite _ _ _ | .portDisableDeadline _ | .laneEnableWrite _ _ _ | .trainingFrameReceived _ _ _ _ _
  | .laneFecLimit _ _ _ | .linkLoss _ | .qpDisableDeadline _ _ | .exclusionDeadline | .d2dLinkLoss _ => faulting ++ [.boot, .dlv, .dict]
  | .quiesceWrite _ _ _ | .qpEnable _ _ | .lrEnable _ _ => [.objects, .tallies, .net, .fed, .dict, .evt, .trace]
  | .autonegComplete _ _ | .laneTrained _ _ | .trainingRetry _ | .realignComplete _ | .linkLossRetrain _ => [.net]
  | .trainingDeadline _ => [.objects, .tallies, .net, .fed, .evt, .trace]
  | .portLinkUp _ _ => [.objects, .tallies, .net, .fed, .evt]
  | .laneLockLoss _ _ => [.objects, .tallies, .net, .evt, .trace]
  | .frameReceived _ _ _ | .messageOpen _ _ | .openWaitExpiry _ _ => faulting ++ [.boot, .arbs, .dlv, .dict]
  | .ackDelayExpiry _ => [.tallies, .net]
  | .qpDisable _ _ => faulting ++ [.dict]
  | .lrDisable _ _ => [.tallies, .net, .fed, .dict, .trace]
  | .pwrgoodRise | .resetRelease | .bringupCcxSelftestDone _ _ => [.boot, .fed]
  | .pwrgoodFall | .resetAssert =>
    [.boot, .objects, .tallies, .staging, .banks, .sets, .roots, .pairs, .slots, .cmds, .seq, .arbs, .txa, .forge,
      .sdx, .rsv, .mdc, .tok, .bat, .pools, .dlv, .net, .fed, .dict, .pins, .evt, .ras, .trace,
      .removal]
  | .bringupStrapLatch _ _ _ _ _ _ => [.boot, .objects, .fed]
  | .bringupDomainPower => [.boot, .staging, .banks]
  | .d2dLinkTrainingDone _ _ | .announce _ _ | .register _ _ | .announceDeadline _ | .closeDeadline _ | .fedLeaveTimeout _ =>
    faulting ++ [.boot, .dlv, .removal]
  | .bringupUnitSelftestDone _ _ _ _ _ => [.boot, .objects, .tallies, .evt, .trace]
  | .redirect _ | .beat _ => [.tallies, .fed]
  | .roster _ _ => faulting ++ [.boot, .dlv, .dict, .removal]
  | .beatSend => [.fed]
  | .prepareRemoval _ _ => [.objects, .tallies, .devMem, .pairs, .slots, .cmds, .bat, .net, .fed, .dict, .evt, .trace, .removal]
  | .drainDeadline => faulting ++ [.boot, .arbs, .forge, .dlv, .dict, .removal]
  | .removalRucksackDeadline | .rucksackWrite _ _ _ _ _ =>
    [.drawn, .objects, .tallies, .devMem, .pairs, .slots, .cmds, .mdc, .pools, .dlv, .net, .evt, .trace]
  | .removalReady => faulting ++ [.dlv, .dict, .removal]
  | .busSag => [.boot, .objects, .tallies, .net, .evt, .trace, .removal]
  | .counterDump => [.devMem]
  | .sagResume _ _ => [.objects, .tallies, .net, .fed, .dict, .evt, .trace, .removal]
  | .rucksackSave _ _ _ => [.tallies, .devMem, .pairs, .slots, .cmds, .bat, .fed, .dict, .trace]
  | .saveDrainDeadline _ => faulting ++ [.arbs, .forge, .dlv, .dict]
  | .rucksackRestore _ _ _ => [.objects, .tallies, .slots, .pools, .fed, .dict, .evt, .trace]
  | .scrubVisit _ _ => [.tallies, .devMem, .evt, .trace]
  | .traceRecordWrite => [.drawn, .tallies, .devMem, .pins, .evt, .trace]
  | .debugTriggerIn => [.objects, .tallies, .dict, .evt, .trace]
  | .tapTestLogicReset => [.tap]
  | .extest _ | .samplePreload _ | .idcode _ | .clamp _ | .highz _ | .dbgStatus _ | .bypass _ _ => [.drawn, .tap]
  | .busSagEnd => [.boot]
  | .poolSpillDone _ => [.objects, .tallies, .devMem, .pools, .evt, .trace]
  | .packageWriteComplete _ _ => [.objects, .tallies, .sets, .roots, .seq, .tok, .fed, .dict]

/-! ## Occasions -/

/-- The next fetch is slot n's, and a sound command with an opcode stands at its position (R25, R315, R319). -/
def Fetches (s : State) (n op : Nat) : Prop :=
  fetchTurn s n = true ∧ (slotOf s n).pc < 4096 ∧ wOpcode (fetchedWord s n) = op ∧ badCommand (fetchedWord s n) = false

/-- The state in which a write that passes its checks takes effect: its trace record is queued (R419). -/
def arriving (s : State) (via : Via) (index sub : Nat) (data : List Byte) : State :=
  let t := startWrite s via index sub data
  traceRec t 7 0 63 (viaRequester via) (objDetail index sub) (tracedValue t via data)

/-- A requester whose write is looked at: requests are served, and a mailbox is neither busy nor in a segmented transfer (R334, R338,
R340). -/
def MayAsk (s : State) (via : Via) : Prop :=
  dictServes s = true ∧ ∀ m, via = .mailbox m → (mailboxOf s m).busy = false ∧ (mailboxOf s m).xfer = none

/-- A write of an object passes every check (R330 to R335); no window write carries more than 8 bytes (R337). -/
def Takes (s : State) (via : Via) (index sub : Nat) (data : List Byte) : Prop :=
  MayAsk s via ∧ writeVerdict s via index sub data = .go ∧ ∀ c, via = .window c → data.length ≤ 8

/-- The commands that a fetch puts into a queue: the row's slot, its opcode, and for a WAIT its KIND (R319, R320). -/
def queuedRow : Instr → Option (Nat × Nat × Option Nat)
  | .waitSemaphore n => some (n, opWait, some 0)
  | .waitBarrier n => some (n, opWait, some 1)
  | .waitTime n => some (n, opWait, some 2)
  | .signal (.fetched n) => some (n, opSignal, none)
  | .txaItem n => some (n, opTxa, none)
  | .forgeItem n => some (n, opForge, none)
  | .deliver n => some (n, opDeliver, none)
  | .keyRegister n => some (n, opKeyRegister, none)
  | .keyStream n => some (n, opKeyStream, none)
  | .ingestStage n => some (n, opIngest, none)
  | .batchStage n => some (n, opBatch, none)
  | .fetch n => some (n, opFetch, none)
  | .alloc n => some (n, opAlloc, none)
  | .free n => some (n, opFree, none)
  | _ => none

/-- A queue has room for a slot's next command (R316). -/
def QueueRoom (s : State) (n q : Nat) : Prop := queueCount s q < 64 ∧ slotShare s n q < objGet s 0x7000 6

/-- A command a slot fetches enters its queue (R315, R316). -/
def entered (s : State) (n : Nat) : State :=
  let x := slotOf s n
  let w := fetchedWord s n
  { takeCommand s n with
    cmds := s.cmds ++ [{ id := s.seq.nextId, slot := n, queue := wQueue w, word := w, index := x.pc, loops := x.loops }]
    seq := { s.seq with nextId := s.seq.nextId + 1 } }

/-- The commands that bring a federation message: its type (R386) and the message. -/
def messageRow : Instr → Option (Nat × FedArrival)
  | .announce m _ => some (1, m)
  | .register m _ => some (2, m)
  | .redirect m => some (3, m)
  | .roster m _ => some (4, m)
  | .beat m => some (5, m)
  | .fedArrive m => some (6, m)
  | .fedRelease m => some (6, m)
  | .fedForward m => some (7, m)
  | _ => none

/-- The writes of enable objects (R73, R124, R159, R189, R205): the kind of unit, the unit of the object's first bit, how the write
comes, the object's width in bytes and the value. -/
def enableRow : Instr → Option (UnitKind × Nat × Via × Nat × Nat)
  | .txaTileEnableWrite via high v => some (.txa, if high then 64 else 0, via, 8, v)
  | .sdxLaneEnableWrite via high v => some (.sdx, if high then 64 else 0, via, 8, v)
  | .rsvCoreEnableWrite via v => some (.rsv, 0, via, 8, v)
  | .mdcCoreEnableWrite via v => some (.mdc, 0, via, 4, v)
  | .tokCoreEnableWrite via v => some (.tok, 0, via, 8, v)
  | _ => none

/-- The commands that write an object through a requester: how, the object, and the bytes written (R336). ROOT_START and DICT_WRITE are
among them but for the writes that come over the links. -/
def writeRow (s : State) : Instr → Option (Via × Nat × Nat × List Byte)
  | .rootStart .link _ _ | .dictWrite .link _ _ _ => none
  | .rootStart via v _ => some (via, 0x7000, 5, leBytes 1 v)
  | .dictWrite via i k d => some (via, i, k, d)
  | .progBankWrite via b d => some (via, 0x7001, b + 1, d)
  | .progArm via c => some (via, 0x7000, 3, leBytes 4 c)
  | .semDepthWrite via p d => some (via, 0x7100 + p, 1, leBytes 2 d)
  | .primeSetImageWrite via n d => some (via, 0x2100 + n, 1, d)
  | .encRootKeyWrite via r d => some (via, 0x5410 + r, 1, d)
  | .tokTableLoad via v => some (via, 0x4800, 4, leBytes 1 v)
  | .poolEnableWrite via p => some (via, poolIndex s p, 1, [1])
  | .poolDisableWrite via p => some (via, poolIndex s p, 1, [0])
  | .stragglerEnableWrite via v => some (via, 0x6801, 4, leBytes 1 v)
  | .epinAssignWrite via k v => some (via, 0x2040, k, leBytes 1 v)
  | .watchdogEnableWrite via v => some (via, 0x2050, 1, leBytes 1 v)
  | .watchdogKick via v => some (via, 0x2050, 4, leBytes 1 v)
  | .evtTake via c n => some (via, 0x7600 + c, 4, leBytes 2 n)
  | .evtDone via c n => some (via, 0x7600 + c, 5, leBytes 2 n)
  | .evtPendSet via w b => some (via, 0x7700, 0x20 + w, leBytes 4 b)
  | .evtPendClear via w b => some (via, 0x7700, 0x30 + w, leBytes 4 b)
  | .evtLatchClear via w b => some (via, 0x7700, 0x40 + w, leBytes 4 b)
  | .evtSwRaise via w b => some (via, 0x7700, 0x48 + w, leBytes 4 b)
  | .evtCfgWrite via n v => some (via, 0x7400 + n, 1, leBytes 4 v)
  | .evtGrpTimeWrite via g v => some (via, 0x7500 + g, 2, leBytes 4 v)
  | .coreMaskWrite via c v => some (via, 0x7600 + c, 1, leBytes 1 v)
  | .portEnableWrite via p v => some (via, portIndex p, 1, leBytes 1 v)
  | .laneEnableWrite via p v => some (via, portIndex p, 3, leBytes 1 v)
  | .quiesceWrite via p v => some (via, portIndex p, 0x0A, leBytes 1 v)
  | .qpEnable via q => some (via, 0x3001, 3, leBytes 2 q)
  | .qpDisable via q => some (via, 0x3001, 4, leBytes 2 q)
  | .lrEnable via r => some (via, 0x3001, 5, leBytes 2 r)
  | .lrDisable via r => some (via, 0x3001, 6, leBytes 2 r)
  | .prepareRemoval via v => some (via, 0x1100, 1, leBytes 1 v)
  | .sagResume via v => some (via, 0x1100, 0x0E, leBytes 1 v)
  | .rucksackSave via n _ => some (via, 0x1100, 5, leBytes 1 n)
  | .rucksackRestore via a _ => some (via, 0x1100, 7, leBytes 8 a)
  | .traceEnable via v => some (via, 0xA000, 1, leBytes 1 v)
  | .traceMark via v => some (via, 0xA000, 8, leBytes 8 v)
  | .txaTileEnableWrite via h v => some (via, enableIndex .txa, enableSub .txa (if h then 64 else 0), leBytes 8 v)
  | .sdxLaneEnableWrite via h v => some (via, enableIndex .sdx, enableSub .sdx (if h then 64 else 0), leBytes 8 v)
  | .rsvCoreEnableWrite via v => some (via, enableIndex .rsv, enableSub .rsv 0, leBytes 8 v)
  | .mdcCoreEnableWrite via v => some (via, enableIndex .mdc, enableSub .mdc 0, leBytes 4 v)
  | .tokCoreEnableWrite via v => some (via, enableIndex .tok, enableSub .tok 0, leBytes 8 v)
  | _ => none

/-- The objects that only hold the value last written to them: the pool settings (0x6000), the sliver maps (R287) and the job lists (R328). -/
def plainIndex (index : Nat) : Bool :=
  index == 0x6000 || (0x6810 ≤ index && index ≤ 0x681F) || (0x7020 ≤ index && index ≤ 0x7027)

/-- The state in which a federation message that a command takes has its effect (R386): one for this die as it stands; the first copy of one
for all dies, from another and below hop 7, once it is sent on over the other links. -/
def Received (ty : Nat) (m : FedArrival) (s u : State) : Prop :=
  unitsWork s = true ∧ msgSound m.bytes = true ∧ msgType m.bytes = ty
  ∧ ((msgDst m.bytes ≠ 0xFF ∧ msgDst m.bytes = dieId s ∧ u = s)
    ∨ (msgDst m.bytes = 0xFF ∧ m.copy = false ∧ msgHop m.bytes < 7 ∧ msgSrc m.bytes ≠ dieId s
      ∧ u = send s (.fedExcept m.link (msgOn m.bytes))))

end Sys2Proof.Machine
end

