-- ==== Sys2Proof/Certificates/Slice0/Obligations.lean ====
section
/-! DEFINITION. The statements about the machine, for the provers: each a proposition, none proved here. -/

open Sys2Proof Sys2Proof.Machine

/-- A step runs the command at the front of the queue: step of a state with c in front is exec of c on that state with the queue's rest. On
an empty queue the block idles for one HCLK (log entry 10, the model's choice): the time base counts while HCLK runs, every stalled slot
adds to the count of stalls (R316), and the wait for a bank swap counts while a bank is armed. -/
def Obligations.QueueFront : Prop :=
  (∀ (s : State) (c : Instr) (rest : List Instr), step { s with pending := c :: rest } = exec c { s with pending := rest })
  ∧ (∀ (s : State), s.pending = [] →
    (s.boot.hclk = false ∨ s.boot.inReset = true → step s = .next s)
    ∧ (s.boot.hclk = true → s.boot.inReset = false → ∃ t, step s = .next t ∧ t.boot.timeBase = (s.boot.timeBase + 1) % 2 ^ 64
      ∧ objGet t 0x80F0 0x10 = (if s.seq.armed = true then satAdd (objGet s 0x80F0 0x10) 1 else objGet s 0x80F0 0x10)
      ∧ objGet t 0x80F0 0x0F = satAdd (objGet s 0x80F0 0x0F) (slotNumbers.countP (stalls s))
      ∧ t.slots = s.slots ∧ t.mem = s.mem ∧ t.pending = []))

/-- Every command runs in every state, to a next state, and takes nothing from the queue and puts nothing into it; a step takes exactly the
command at the front. -/
def Obligations.CommandsComplete : Prop :=
  (∀ (c : Instr) (s : State), ∃ t, exec c s = .next t ∧ t.pending = s.pending)
  ∧ (∀ (s : State), ∃ t, step s = .next t ∧ t.pending = s.pending.tail)

/-- Each command leaves every part of the state that `changes` does not name for it exactly as it was, the queue included. -/
def Obligations.CommandFrames : Prop :=
  ∀ (c : Instr) (s t : State), exec c s = .next t → Changes (fun x => (changes c).contains x) s t

/-- Once the fuses are known nothing changes them, so the engine mode they give stays (R4): no command, no reset and no tick. -/
def Obligations.EngineModeFixed : Prop :=
  ∀ (s t : State), step s = .next t → ∀ f, s.boot.fuses = some f → t.boot.fuses = some f ∧ fullArray t = fullArray s

/-- In every semaphore pair EMPTY + FULL stays within its depth (R21): every step keeps it. -/
def Obligations.PairsStayBounded : Prop :=
  ∀ (s t : State), step s = .next t → PairsBounded s → PairsBounded t

/-- Every memory stays in its canonical form: addresses rising, no byte listed that an unlisted address reads as. -/
def Obligations.MemoriesStayCanonical : Prop :=
  ∀ (s t : State), step s = .next t → s.mem.wf → t.mem.wf

/-- The machine right after reset meets every invariant stated of a step. -/
def Obligations.InvariantsAtReset : Prop :=
  PairsBounded State.reset ∧ State.reset.mem.wf

/-- What reset leaves (R19, R343, R347, R384, R428): no command waits, no job, command, buffer or message is held, no unit works, every
object has its default, every semaphore pair has depth 1, EMPTY 1 and FULL 0, no prime set, root or key is valid, no source is latched, both
ports are down, and the time base is 0. -/
def Obligations.ResetHolds : Prop :=
  let s := State.reset
  s.pending = [] ∧ s.boot.inReset = true ∧ s.boot.fuses = none ∧ s.boot.timeBase = 0
  ∧ (∀ n, slotBusy s n = false) ∧ s.cmds = [] ∧ s.dlv.items = [] ∧ s.net.msgs = [] ∧ s.dict.claims = []
  ∧ (∀ i k, objGet s i k = objDefault (objKey i k)) ∧ objGet s 0x7000 6 = 16 ∧ objGet s 0x6000 3 = 100
  ∧ (∀ p, (pairOf s p).depth = 1 ∧ (pairOf s p).empty = 1 ∧ (pairOf s p).full = 0 ∧ (pairOf s p).users = [])
  ∧ (∀ n, (setOf s n).valid = false ∧ (rootOf s n).valid = false ∧ (poolOf s n).enabled = false)
  ∧ (∀ n, (srcOf s n).cfg = 0x1F8080 ∧ (srcOf s n).latch = false ∧ (srcOf s n).pending = false ∧ (srcOf s n).active = false)
  ∧ (∀ p, (portOf s p).state = 0) ∧ (∀ q, (qpOf s q).state = .disabled) ∧ (∀ r, (lrOf s r).state = .disabled)
  ∧ (∀ m, (mailboxOf s m).busy = false ∧ (mailboxOf s m).xfer = none) ∧ s.fed.hcState = 0 ∧ s.fed.lead = 0xFF ∧ s.fed.engineState = 0
  ∧ headCountClosed s = false ∧ unitsWork s = false ∧ dictServes s = false

/-- LOOP (R320, R327, R329): with a free loop level and its end beyond it, the loop is entered with its immediate count, or its memory count
is asked for; with four loops open, or an end not beyond it, the slot is faulted. The memory count of a LOOP returns (R327): with 0 the body
is skipped, else the loop is entered. ENDLOOP (R327): the innermost loop goes round again, or is left when it was its last time; where no
loop ends the slot is faulted. Completion, on the conditions its clauses give on the state and the operands alone, of: loop,
loopCountReturn, endloop. -/
def Obligations.LoopsRun : Prop :=
  (
  ∀ (s : State) (n : Nat), Fetches s n opLoop →
    let x := slotOf s n
    let w := fetchedWord s n
    let u := bump (arbGrant s unitSeq n (fetchReady s)) 0x80F0 0x0E
    (x.loops.length < 4 → x.pc < wLoopEnd w → wLoopSrc w = false →
      exec (.loop n) s = .next (setSlot u n
        (if wLoopCount w = 0 then { x with pc := wLoopEnd w + 1, fetched := true, loopRead := none }
         else { x with pc := x.pc + 1, fetched := true,
                       loops := { start := x.pc + 1, stop := wLoopEnd w, remaining := wLoopCount w, iter := 0 } :: x.loops, loopRead := none })))
    ∧ (x.loops.length < 4 → x.pc < wLoopEnd w → wLoopSrc w = true → wLoopCount w % 4 = 0 → x.job.paramBase + wLoopCount w + 4 ≤ 2 ^ 48 →
      exec (.loop n) s = .next (setSlot u n
        { x with pc := x.pc + 1, fetched := true, loopRead := some { addr := x.job.paramBase + wLoopCount w, stop := wLoopEnd w } }))
    ∧ (x.loops.length < 4 → x.pc < wLoopEnd w → wLoopSrc w = true → wLoopCount w % 4 ≠ 0 ∨ 2 ^ 48 < x.job.paramBase + wLoopCount w + 4 →
      exec (.loop n) s = .next (errFault (takeCommand s n) n 0x0F03))
    ∧ (4 ≤ x.loops.length ∨ wLoopEnd w ≤ x.pc →
      exec (.loop n) s = .next (errFault (takeCommand s n) n 0x0F02))
  ) ∧ (
  ∀ (s : State) (n : Nat) (r : LoopRead), (slotOf s n).loopRead = some r → memPoisoned s r.addr 4 = false →
    let x := slotOf s n
    exec (.loopCountReturn n) s = .next (setSlot s n
      (if memNat s r.addr 4 = 0 then { x with pc := r.stop + 1, loopRead := none }
       else { x with loops := { start := x.pc, stop := r.stop, remaining := memNat s r.addr 4, iter := 0 } :: x.loops,
                     loopRead := none }))
  ) ∧ (
  ∀ (s : State) (n : Nat), Fetches s n opEndloop →
    let x := slotOf s n
    let u := bump (arbGrant s unitSeq n (fetchReady s)) 0x80F0 0x0E
    (∀ l rest, x.loops = l :: rest → l.stop = x.pc →
      exec (.endloop n) s = .next (setSlot u n
        (if 1 < l.remaining then
          { x with pc := l.start, fetched := true, loops := { l with remaining := l.remaining - 1, iter := l.iter + 1 } :: rest }
         else { x with pc := x.pc + 1, fetched := true, loops := rest })))
    ∧ ((∀ l, x.loops.head? = some l → l.stop ≠ x.pc) → exec (.endloop n) s = .next (errFault (takeCommand s n) n 0x0F02))
  )

/-- JUMP, SWITCH and HALT (R309, R313, R320, R327): HALT also stops the stages of the slot and gives up the containers no stage has taken.
Completion, on the conditions its clauses give on the state and the operands alone, of: jump, switch, halt. -/
def Obligations.JumpSwitchHalt : Prop :=
  ∀ (s : State) (n : Nat),
    let x := slotOf s n
    let w := fetchedWord s n
    let u := bump (arbGrant s unitSeq n (fetchReady s)) 0x80F0 0x0E
    (Fetches s n opJump →
      ((∀ l, x.loops.head? = some l → l.start ≤ wTarget w ∧ wTarget w ≤ l.stop) →
        exec (.jump n) s = .next (setSlot u n { x with pc := wTarget w, fetched := true }))
      ∧ ((∃ l, x.loops.head? = some l ∧ (wTarget w < l.start ∨ l.stop < wTarget w)) →
        exec (.jump n) s = .next (errFault (takeCommand s n) n 0x0F02)))
    ∧ (Fetches s n opSwitch →
      (x.loops = [] → exec (.switch n) s = .next (setSlot u n
        (if s.seq.armed then { x with pc := x.pc + 1, fetched := true, state := .parked, target := wTarget w }
         else { x with pc := wTarget w, fetched := true })))
      ∧ (x.loops ≠ [] → exec (.switch n) s = .next (errFault (takeCommand s n) n 0x0F02)))
    ∧ (Fetches s n opHalt →
      let v := setSlot u n { x with pc := x.pc + 1, fetched := true, state := .halted }
      exec (.halt n) s = .next (releaseUntaken (((s.net.stages.filter (fun i => i.slot == n)).map (·.cmd)).foldl
        (fun v c => stageEnds (modStage v c (fun i => { i with stopped := true })) c) v) n)
      ∧ ((∀ i ∈ s.net.stages, i.slot ≠ n) →
          (∀ m ∈ s.net.msgs, m.jobSlot = n → m.kind = 0 → m.opn = false → m.stage ≠ none) → exec (.halt n) s = .next v))

/-- The commands that a fetch puts into a queue (R25, R315, R316, R317): in its slot's turn the command enters its queue and the slot goes
on to the next; a slot whose queue has no room has no turn and stays where it is. Then the wait of the first command not issued is
requested, once. A fetched command that is not sound, or a fetch beyond command 4,095, faults its slot with SEQ_COMMAND (R319), whichever
command the slot was to fetch; a sound one is left to its own row. Completion, on the conditions its clauses give on the state and the
operands alone, of: waitSemaphore, waitBarrier, waitTime, signal, seqCommand, txaItem, forgeItem, deliver, keyRegister, keyStream,
ingestStage, batchStage, fetch, alloc, free. -/
def Obligations.CommandsFetched : Prop :=
  (
  (∀ (c : Instr) (s : State) (n op : Nat) (kind : Option Nat), queuedRow c = some (n, op, kind) → Fetches s n op →
    (∀ k, kind = some k → wWaitKind (fetchedWord s n) = k) →
    exec c s = .next (askNext (entered s n) n (wQueue (fetchedWord s n))))
  ∧ (∀ (c : Instr) (s : State) (n op : Nat) (kind : Option Nat), queuedRow c = some (n, op, kind) → stalls s n = true →
    ¬ QueueRoom s n (wQueue (fetchedWord s n)) ∧ exec c s = .next s)
  ∧ (∀ (s : State) (n q : Nat) (c : Cmd), nextUnissued s n q = some c →
    askNext s n q =
      if needsGrant c = true ∧ c.asked = false then
        semWait (modCmd s c.id (fun c => { c with asked := true }))
          (if wOpcode c.word = opWait then wSemLink c.word else wWaitLink c.word)
          (if wOpcode c.word = opWait then wSemFull c.word else wWaitFull c.word) n (.cmd c.id)
      else s)
  ) ∧ (
  ∀ (s : State) (n : Nat), fetchTurn s n = true →
    (4096 ≤ (slotOf s n).pc → exec (.seqCommand n) s = .next (errFault s n 0x0F01))
    ∧ ((slotOf s n).pc < 4096 → badCommand (fetchedWord s n) = true →
        exec (.seqCommand n) s = .next (errFault (takeCommand s n) n 0x0F01)
        ∧ ∀ c op kind, queuedRow c = some (n, op, kind) → wOpcode (fetchedWord s n) = op →
            exec c s = .next (errFault (takeCommand s n) n 0x0F01))
    ∧ ((slotOf s n).pc < 4096 → badCommand (fetchedWord s n) = false → exec (.seqCommand n) s = .next s)
  )

/-- FETCHLIST (R304): an ADMITTER's home engine asks for a list with entries; elsewhere, or on an empty list, the command has no effect; a
job that is no ADMITTER is faulted. The returns of a FETCHLIST (R304): the producer count starts it, or ends it when nothing is to be
admitted; a record is admitted into the lowest free slot, its consumer count rises and the list goes on to its limit; with no free slot the
list ends. Completion, on the conditions its clauses give on the state and the operands alone, of: fetchlist, joblistRecordReturn. -/
def Obligations.JobListsAdmit : Prop :=
  (
  ∀ (s : State) (n : Nat), Fetches s n opFetchlist →
    let x := slotOf s n
    let w := fetchedWord s n
    let u := takeCommand s n
    let v := bump (arbGrant s unitSeq n (fetchReady s)) 0x80F0 0x0E
    (x.job.admitter = true → homeDie x.job.stripe = dieId s → objGet s (0x7020 + wList w) 2 ≠ 0 →
      exec (.fetchlist n) s = .next (setSlot v n
        { x with pc := x.pc + 1, fetched := true,
                 listRead := some { list := wList w, max := wListMax w, producer := none, admitted := 0 } }))
    ∧ (x.job.admitter = true → homeDie x.job.stripe ≠ dieId s ∨ objGet s (0x7020 + wList w) 2 = 0 → exec (.fetchlist n) s = .next u)
    ∧ (x.job.admitter = false → exec (.fetchlist n) s = .next (errFault u n 0x0F05))
  ) ∧ (
  ∀ (s : State) (n : Nat) (e : Elsewhere) (r : ListRead), (slotOf s n).listRead = some r →
    let idx := 0x7020 + r.list
    let x := slotOf s n
    (r.producer = none → memPoisoned s (objGet s idx 3) 8 = false →
      let p := memNat s (objGet s idx 3) 8
      exec (.joblistRecordReturn n e) s = .next (setSlot s n
        (if listGoesOn s r p then { x with listRead := some { r with producer := some p } } else { x with listRead := none })))
    ∧ (∀ p, r.producer = some p → listGoesOn s r p = true →
      let addr := objGet s idx 1 + 256 * (objGet s idx 4 % objGet s idx 2)
      memPoisoned s addr 256 = false →
      (freeSlot s (admissionOf (memBytes s addr 256)).stripe e = none → exec (.joblistRecordReturn n e) s = .next (setSlot s n { x with listRead := none }))
      ∧ ∀ m, freeSlot s (admissionOf (memBytes s addr 256)).stripe e = some m →
        let b := memBytes s addr 256
        let t := bump (enterJob s b (admissionOf b) addr false e m).2 idx 4
        let r' := { r with admitted := r.admitted + 1 }
        exec (.joblistRecordReturn n e) s = .next (modSlot t n (fun x =>
          { x with listRead := if listGoesOn t r' p then some r' else none })))
  )

/-- COMMAND_ISSUE (R317, R320, R321, R412): the next command of a slot's queue is issued once its wait is granted, and the wait of the one
behind it is requested. A semaphore WAIT, a barrier and a SIGNAL have finished with their issue, a time WAIT starts its delay, and a work
command takes the entry of the link whose FULL it waited for, and reads its parameter block, whose offset is a multiple of 64 and which ends
at or below 2^48; else it is refused. A block that holds poison raises the error of its read (R412). An uncorrectable error met at an issue
(R414, R415): in the slot's own state it faults the slot; in a semaphore pair it faults the pair's users and leaves EMPTY at its depth and
FULL at 0; a fatal cause stops the engine. Completion, on the conditions its clauses give on the state and the operands alone, of:
commandIssue. -/
def Obligations.CommandsIssue : Prop :=
  (
  ∀ (s : State) (n q : Nat) (c : Cmd), unitsWork s = true → nextUnissued s n q = some c →
    let op := wOpcode c.word
    let u := traceRec (modCmd s c.id (fun c => { c with issued := true })) 1 0 c.slot op (wTag c.word) c.index
    let a := (slotOf s c.slot).job.paramBase + wOffset c.word + 64 * wStep c.word * (match c.loops with
      | l :: _ => l.iter
      | [] => 0)
    (needsGrant c = true ∧ c.granted = false → exec (.commandIssue n q 0) s = .next s)
    ∧ ((needsGrant c = true → c.granted = true) →
      (op = opWait → wWaitKind c.word = 2 → exec (.commandIssue n q 0) s = .next (askNext u n q))
      ∧ (op = opWait → wWaitKind c.word ≠ 2 → exec (.commandIssue n q 0) s = .next (askNext (finishCmd u c.id 0 1 0) n q))
      ∧ (op = opSignal → exec (.commandIssue n q 0) s = .next (askNext (finishCmd u c.id 0 1 0) n q))
      ∧ (isWork op = true →
          let taken := if isStage op = false ∧ wWaitEn c.word = true ∧ wWaitFull c.word = true then takeEntry u (wWaitLink c.word) else (none, u)
          let block := readMem taken.2 c.slot a (blockBytes op)
          (wOffset c.word % 64 = 0 → a + blockBytes op ≤ 2 ^ 48 →
            exec (.commandIssue n q 0) s = .next (askNext (issueWork block.2 c block.1 taken.1) n q))
          ∧ (memPoisoned s a (blockBytes op) = false → block = (memBytes s a (blockBytes op), taken.2))
          ∧ (memPoisoned s a (blockBytes op) = true →
            block.2 = (reserveFree (memError taken.2 c.slot (lastPoisoned s a (blockBytes op))) (blockBytes op)).2)
          ∧ (wOffset c.word % 64 ≠ 0 ∨ 2 ^ 48 < a + blockBytes op →
            exec (.commandIssue n q 0) s = .next (askNext (refuseBlock taken.2 c) n q)))
      ∧ (op ≠ opDeliver → op ≠ opKeyStream → ∀ w, refuseBlock w c = errFault (finishCmd w c.id 0x0F03 1 0) c.slot 0x0F03)
      ∧ (∀ w p, tblGet [] w.dlv.links p = [] → takeEntry w p = (none, w))
      ∧ (∀ w p e rest, tblGet [] w.dlv.links p = e :: rest →
          takeEntry w p = (some e, { w with dlv := { w.dlv with links := tblSet [] w.dlv.links p rest } })))
  ) ∧ (
  ∀ (s : State) (n q : Nat), unitsWork s = true →
    (slotBusy s n = true → exec (.commandIssue n q 1) s = .next (errFault (lastBadOther s) n 0x1204))
    ∧ (∀ p, p < 256 → let u := lastBadOther (raiseErr s 0x1204 63)
        exec (.commandIssue n q (2 + p)) s = .next ((pairOf u p).users.foldl (fun s n => slotFault s n 0x1204)
          (clearLink (setPair u p { pairOf u p with empty := (pairOf u p).depth, full := 0 }) p)))
    ∧ (∀ k, exec (.commandIssue n q (258 + k)) s = .next (fatalError s k))
  )

/-- COMMAND_COMPLETE and WAIT_TIME_EXPIRY (R317, R318, R320, R326): the first command of a slot's queue completes when its unit has
finished, a barrier only after every earlier command of its slot in the queues of its mask; its entry is released and a SIGNAL signals; a
work command writes its record over the oldest place of the ring, a signal of FULL passing its output to the link. Completion, on the
conditions its clauses give on the state and the operands alone, of: waitTimeExpiry, commandComplete. -/
def Obligations.CommandCompletes : Prop :=
  ∀ (s : State) (n q : Nat),
    (∀ c, firstCmd s n q = some c → c.issued = true → c.done = true →
      let op := wOpcode c.word
      let u := traceRec s 2 0 c.slot c.status (wTag c.word) c.index
      let rest := s.cmds.filter (fun d => d.id != c.id)
      (op = opWait → wWaitKind c.word ≠ 1 → exec (.commandComplete n q) s = .next { u with cmds := rest })
      ∧ (op = opWait → wWaitKind c.word = 1 → exec (.commandComplete n q) s = .next
          (if ∀ d ∈ s.cmds, d.slot = c.slot → d.id < c.id → (wWaitArg c.word).testBit d.queue = false
           then { u with cmds := rest } else s))
      ∧ (op = opSignal → exec (.commandComplete n q) s = .next
          (semSignal { u with cmds := rest } (wSemLink c.word) (wSemFull c.word) c.slot))
      ∧ (isWork op = true →
          let w : State := { writeRecord u c.queue (match c.report with
            | some r => dlvRecord u.boot.timeBase r
            | none => workRecord u c) with cmds := rest }
          (isStage op = true ∨ wSigEn c.word = false → exec (.commandComplete n q) s = .next w)
          ∧ (isStage op = false → wSigEn c.word = true →
            (c.output = none ∨ wSigFull c.word = false →
              exec (.commandComplete n q) s = .next (semSignal w (wSigLink c.word) (wSigFull c.word) c.slot))
            ∧ ∀ e, c.output = some e → wSigFull c.word = true → exec (.commandComplete n q) s =
              .next (semSignal (pushEntry w (wSigLink c.word) e) (wSigLink c.word) (wSigFull c.word) c.slot))))
    ∧ (∀ c, s.cmds.find? (fun c => c.slot == n && c.queue == q && c.issued && !c.done && wOpcode c.word == opWait
          && wWaitKind c.word == 2) = some c →
      exec (.waitTimeExpiry n q) s = .next { s with cmds := s.cmds.map (fun d =>
        if d.id = c.id then { d with done := true, status := 0, flags := 1, result := 0 } else d) })

/-- SIGNAL made by a unit, and waits (R20 to R22, R326): a signal that would make EMPTY + FULL exceed D faults its slot with SEM_OVERFLOW;
else the counter rises by 1 and, where a wait is held on that side, the first one is granted with the counter as it was. A wait is granted
at once while its counter is above zero, else it is held behind the earlier ones. Completion, on the conditions its clauses give on the
state and the operands alone, of: signal. -/
def Obligations.SemaphoreWaitSignal : Prop :=
  (∀ (s : State) (n p : Nat) (full : Bool),
    let x := addUser (pairOf s p) n
    (x.depth < x.empty + x.full + 1 →
      exec (.signal (.made n p full)) s = .next (errFault (setPair s p x) n 0x0F0B))
    ∧ (x.empty + x.full < x.depth → (∀ w ∈ x.waits, w.full ≠ full) →
      exec (.signal (.made n p full)) s = .next (traceSem (setPair s p (if full then { x with full := x.full + 1 } else { x with empty := x.empty + 1 })) p 2 n))
    ∧ (∀ w, x.empty + x.full < x.depth → x.waits.find? (fun w => w.full == full) = some w →
      let u := traceSem (setPair s p (if full then { x with full := x.full + 1 } else { x with empty := x.empty + 1 })) p 2 n
      exec (.signal (.made n p full)) s =
        .next (tellGrant (traceSem (setPair u p { x with waits := x.waits.erase w }) p 1 w.slot) w.who full)))
  ∧ (∀ (s : State) (n p : Nat) (full : Bool) (who : Waiter),
    let x := addUser (pairOf s p) n
    (0 < (if full then x.full else x.empty) →
      semWait s p full n who =
        tellGrant (traceSem (setPair s p (if full then { x with full := x.full - 1 } else { x with empty := x.empty - 1 })) p 1 n) who full)
    ∧ ((if full then x.full else x.empty) = 0 →
      semWait s p full n who = setPair s p { x with waits := x.waits ++ [{ who := who, slot := n, full := full }] }))

/-- SEM_OVERFLOW (R21): a signal that would make EMPTY + FULL exceed D leaves both counters as they were, and faults the slot that signals;
sources 4 and 3 fire; the other slots continue as they were. Completion, on the conditions its clauses give on the state and the operands
alone, of: signal. -/
def Obligations.SemaphoreOverflow : Prop :=
  ∀ (s : State) (n p : Nat) (full : Bool), (pairOf s p).depth < (pairOf s p).empty + (pairOf s p).full + 1 →
    (slotOf s n).state ≠ .idle → (slotOf s n).state ≠ .faulted →
    ∃ t, exec (.signal (.made n p full)) s = .next t
      ∧ (pairOf t p).empty = (pairOf s p).empty ∧ (pairOf t p).full = (pairOf s p).full ∧ (pairOf t p).depth = (pairOf s p).depth
      ∧ (slotOf t n).state = .faulted ∧ (slotOf t n).fault = 0x0F0B
      ∧ (srcOf t 4).latch = true ∧ (srcOf t 4).firings = satAdd (srcOf s 4).firings 1
      ∧ (srcOf t 3).latch = true ∧ (srcOf t 3).firings = satAdd (srcOf s 3).firings 1
      ∧ (∀ j, j ≠ n → slotOf t j = slotOf s j)

/-- The configuration of a semaphore pair (R19): SEM_DEPTH_WRITE takes a depth D from 1 to 4,096, with EMPTY = D and FULL = 0, only while no
job slot uses the pair; a depth outside the range, or a pair in use, aborts the write. Completion, on the conditions its clauses give on the
state and the operands alone, of: semDepthWrite. -/
def Obligations.SemaphoreDepthSet : Prop :=
  ∀ (s : State) (via : Via) (p d : Nat), p < 256 → d < 65536 →
    (Takes s via (0x7100 + p) 1 (leBytes 2 d) →
      let u := arriving s via (0x7100 + p) 1 (leBytes 2 d)
      1 ≤ d ∧ d ≤ 4096
      ∧ ((pairOf s p).users = [] → exec (.semDepthWrite via p d) s = .next (dictDone (clearLink (setPair u p { depth := d, empty := d }) p) via)
          ∧ (pairOf (dictDone (clearLink (setPair u p { depth := d, empty := d }) p) via) p).full = 0)
      ∧ ((pairOf s p).users ≠ [] →
        exec (.semDepthWrite via p d) s = .next (dictAbort u via (abortCode 8 (objDetail (0x7100 + p) 4)))))
    ∧ (d < 1 ∨ 4096 < d → ∀ v, writeVerdict s v (0x7100 + p) 1 (leBytes 2 d) ≠ .go)

/-- JOB_END (R255, R309, R310): a halted or faulted slot whose commands have all completed, and that holds no buffer but those of its ALLOCs
and those whose frees wait, ends when the other engines of its stripe are ready: its stream contexts close and the buffers of its ALLOCs are
freed; once no buffer is held the slot is free, no pair counts it as a user, and the home engine's record says Ended or Faulted with the
fault. SLOT_FAULT_PROPAGATION (R310, R283): the slot of a job that runs, is parked or has halted is faulted with the code told; its commands
not issued leave their queues, and every segment from the one after its horizon is owed poison when the job has regions. A slot faulted
already takes the code its home tells; otherwise it, and a free slot, stay as they are. At the home the fault goes on to the other engines
of the stripe. Completion, on the conditions its clauses give on the state and the operands alone, of: slotFaultPropagation, jobEnd. -/
def Obligations.JobsEnd : Prop :=
  (
  ∀ (s : State) (n : Nat) (ready : Bool),
    let x := slotOf s n
    x.state = .halted ∨ x.state = .faulted → (∀ c ∈ s.cmds, c.slot ≠ n) → x.save = none → x.ending = none →
    ((otherDies s).any (fun d => x.job.stripe.testBit d) = true → ready = true) →
    let v := closeContexts s n
    heldTotal v n ≤ x.allocs.length + waitingFrees v n →
    let state := if x.state = .faulted then 4 else 3
    let status := if x.state = .faulted then x.fault else 0
    let y := slotOf v n
    let u := freeBuffers (bumpBy (setSlot v n { y with ending := some (state, status) }) 0x80F0 0x11 y.allocs.length) n y.allocs
    (heldTotal u n ≠ 0 → exec (.jobEnd n ready) s = .next u)
    ∧ (heldTotal u n = 0 → ∃ t, exec (.jobEnd n ready) s = .next t ∧ slotOf t n = { fault := (slotOf u n).fault }
      ∧ (∀ p, n ∉ (pairOf t p).users)
      ∧ (∀ a, (slotOf u n).recAddr = some a → isHome u n = true → memBytes t a 4 = leBytes 4 (status * 65536 + n * 256 + state)))
  ) ∧ (
  ∀ (s : State) (n code die : Nat),
    let x := slotOf s n
    (x.state = .idle → exec (.slotFaultPropagation n code die) s = .next s)
    ∧ (x.state = .faulted → isHome s n = true ∨ die ≠ homeDie x.job.stripe → exec (.slotFaultPropagation n code die) s = .next s)
    ∧ (x.state = .faulted → isHome s n = false → die = homeDie x.job.stripe →
      exec (.slotFaultPropagation n code die) s = .next (setSlot s n { x with fault := code }))
    ∧ (x.state ≠ .idle → x.state ≠ .faulted →
      ∃ t, exec (.slotFaultPropagation n code die) s =
          .next (if isHome s n = true ∧ (otherDies s).any (fun d => x.job.stripe.testBit d) = true then send t (.fault n code) else t)
        ∧ { slotOf t n with allocs := [] } = { x with
            state := .faulted, fault := code, loopRead := none, listRead := none, save := none, allocs := [], poisonedTo := x.horizon,
            faultHorizon := if x.job.regions = [] then none else some x.horizon }
        ∧ (∀ j, j ≠ n → slotOf t j = slotOf s j)
        ∧ t.cmds.map (·.id) = (s.cmds.filter (fun c => !(c.slot == n && !c.issued))).map (·.id))
  )

/-- BANK_SWAP (R313): with a bank armed and no slot running the banks change places, every parked slot runs at its target, and source 6
fires; else nothing changes. PROG_BANK_WRITE (R311, R312): outside a re-election, the write of the inactive bank disarms it, the parked
slots go on in the active bank, and the bank holds the bytes written; the write of the active bank aborts with SEQ_BANK, which is raised.
PROG_ARM (R312): outside a re-election a value that is the CRC32C of the inactive bank here arms the bank, at once on a sole engine and else
once every engine has answered that it matches there; any other value aborts with SEQ_ARM, which is raised. Completion, on the conditions
its clauses give on the state and the operands alone, of: bankSwap, progBankWrite, progArm. -/
def Obligations.ProgramBanks : Prop :=
  (
  ∀ (s : State),
    (s.seq.armed = true → (∀ e ∈ s.slots, e.2.state ≠ .running) →
      ∃ t, exec .bankSwap s = .next t ∧ t.seq = { s.seq with active := 1 - s.seq.active, armed := false }
        ∧ (∀ n, n < 64 → slotOf t n =
            if (slotOf s n).state = .parked then { slotOf s n with state := .running, pc := (slotOf s n).target } else slotOf s n)
        ∧ (srcOf t 6).latch = true)
    ∧ (s.seq.armed = false ∨ (∃ e ∈ s.slots, e.2.state = .running) → exec .bankSwap s = .next s)
  ) ∧ (
  ∀ (s : State) (via : Via) (bank : Nat) (data : List Byte), Takes s via 0x7001 (bank + 1) data → s.fed.electing = false →
    let u := arriving s via 0x7001 (bank + 1) data
    (s.seq.active = bank →
      exec (.progBankWrite via bank data) s = .next (dictAbort (raiseErr u 0x0F06 63) via (abortCode 0x20 0x0F06)))
    ∧ (s.seq.active ≠ bank → ∃ v, exec (.progBankWrite via bank data) s = .next (packageDone v via 0x7001 (bank + 1) data)
        ∧ v.seq = { s.seq with armed := false }
        ∧ (∀ n, n < 64 → slotOf v n = if s.seq.armed = true ∧ (slotOf s n).state = .parked
            then { slotOf s n with state := .running, pc := (slotOf s n).target } else slotOf s n)
        ∧ (bank = 0 → v.mem = { s.mem with bank0 := cellsSet [] 0 data })
        ∧ (bank ≠ 0 → v.mem = { s.mem with bank1 := cellsSet [] 0 data })
        ∧ (bank = 0 → cellsGet v.mem.bank0 0 data.length = data))
  ) ∧ (
  ∀ (s : State) (via : Via) (crc : Nat), Takes s via 0x7000 3 (leBytes 4 crc) → s.fed.electing = false → crc < 2 ^ 32 →
    let u := arriving s via 0x7000 3 (leBytes 4 crc)
    let held := crc32c (cellsGet (if s.seq.active = 1 then s.mem.bank0 else s.mem.bank1) 0 65536)
    s.seq.active < 2 →
    (crc = held → via ≠ .link → otherDies s = [] → exec (.progArm via crc) s = .next
        (dictDone { u with seq := { s.seq with armed := true } } via))
    ∧ (crc = held → via = .link ∨ otherDies s ≠ [] → exec (.progArm via crc) s = .next
        (packageDone (keep u 0x7000 .arm) via 0x7000 3 (leBytes 4 crc)))
    ∧ (crc ≠ held → exec (.progArm via crc) s = .next (dictAbort (raiseErr u 0x0F07 63) via (abortCode 0x20 0x0F07)))
  )

/-- ROOT_START (R304, R306): with no root job in a slot, admission not stopped and a slot free, the record at ROOT_RECORD is admitted as the
root job, or refused with the code of its first failing check; while a root job runs, here or on the dies of its stripe, the write aborts
with BUSY. Completion, on the conditions its clauses give on the state and the operands alone, of: rootStart. -/
def Obligations.RootJobStarts : Prop :=
  ∀ (s : State) (via : Via) (e : Elsewhere), via ≠ .link → Takes s via 0x7000 5 (leBytes 1 1) →
    let u := arriving s via 0x7000 5 (leBytes 1 1)
    let addr := objGet s 0x7000 4
    (∀ n, s.seq.rootSlot = some n → s.seq.rootAway = none → (slotOf s n).root = true → slotBusy s n = true →
      exec (.rootStart via 1 e) s = .next (dictAbort u via (abortCode 8 (objDetail (0x7200 + n) 1))))
    ∧ (∀ n a, s.seq.rootSlot = some n → s.seq.rootAway = some a → e.busy.testBit n = true → memNat s a 1 = 1 →
      exec (.rootStart via 1 e) s = .next (dictAbort u via (abortCode 8 (objDetail (0x7200 + n) 1))))
    ∧ (rootRunning s e = none →
      (admissionStopped s = true → exec (.rootStart via 1 e) s = .next (dictAbort u via
        (abortCode 8 (if s.removal.state ≠ 0 then objDetail 0x1100 2 else objDetail 0x7000 5))))
      ∧ (admissionStopped s = false → memPoisoned s addr 256 = false → ∀ n,
        let a := admissionOf (memBytes s addr 256)
        freeSlot s a.stripe e = some n →
        let code := admitCode u (memBytes s addr 256) a e
        (code ≠ 0 → exec (.rootStart via 1 e) s =
          .next (dictAbort (writeRecordState (raiseRefusal u code) addr 0 code 2) via (abortCode 0x20 code)))
        ∧ (code = 0 → a.stripe.testBit (dieId s) = true → ∃ v, exec (.rootStart via 1 e) s = .next (dictDone v via)
          ∧ v.seq = { s.seq with rootSlot := some n, rootAway := none }
          ∧ slotOf v n = { state := if s.seq.armed = true then .parked else .running, pc := a.progEntry, job := a, recAddr := some addr,
                           root := true, target := a.progEntry, horizon := objGet s 0x6801 3,
                           fault := (slotOf s n).fault }
          ∧ memBytes v addr 4 = leBytes 4 (n * 256 + 1)
          ∧ (∀ p, p < 16 → tblGet 0 (poolOf v p).reserved n = a.pools.getD p 0))))

/-- BAR_RELEASE (R279, R30): SEGMENT rises by 1, the engine has not arrived again, and every item goes on in the windows now open; before
the head count closes, and in an engine whose units do not work, it is ignored. ENGINE_ARRIVE (R282, R33, R286, R357): once the conditions
of R282 hold (every schedule-bound slot has declared the next segment closed or is faulted, no delivery for it is owed here, and the
poisoning owed for it is written), after the lines held for banks that are off are dropped where they still stand, the engine arrives:
BAR_ARRIVE toggles and BAR_ARRIVALS counts; the fabric having come first, BAR_LATE counts, BAR_LATE_FCLK adds its wait, EARLY pulses, source
8 fires and the condition that became true last is recorded. Until then nothing changes. Completion, on the conditions its clauses give on
the state and the operands alone, of: barRelease, engineArrive. -/
def Obligations.RestStop : Prop :=
  (
  ∀ (s : State),
    (headCountClosed s = true → unitsWork s = true → exec .barRelease s = .next (openWindows
      { objSet s 0x6801 3 (objGet s 0x6801 3 + 1) with dlv := { s.dlv with
          arrived := false, permitted := false, reported := false, lastCond := none } }))
    ∧ (headCountClosed s = false ∨ unitsWork s = false → exec .barRelease s = .next s)
  ) ∧ (
  (∀ (s : State) (late : Bool) (wait : Nat), headCountClosed s = true → unitsWork s = true → s.dlv.arrived = false →
    (arrivalReady s = true → exec (.engineArrive late wait) s = .next (arrive s late wait))
    ∧ (arrivalReady s = false → arrivalReady (recordTied s (dropHeld s)) = true →
        exec (.engineArrive late wait) s = .next (arrive (recordTied s (dropHeld s)) late wait))
    ∧ (arrivalReady s = false → arrivalReady (recordTied s (dropHeld s)) = false → exec (.engineArrive late wait) s = .next s))
  ∧ (∀ (s : State) (late : Bool) (wait : Nat), headCountClosed s = false ∨ unitsWork s = false ∨ s.dlv.arrived = true →
    exec (.engineArrive late wait) s = .next s)
  ∧ (∀ (s : State), arrivalReady s = true ↔
    (∀ n, n < 64 → scheduleBound s n = true → (slotOf s n).faultHorizon ≠ none ∨ segmentOf s + 1 ≤ (slotOf s n).horizon)
    ∧ (∀ x ∈ s.dlv.items, x.scratch = true → x.local_ = true → x.isPoisoning = false → x.due ≤ segmentOf s + 1 → x.here = true)
    ∧ (∀ n, n < 64 → scheduleBound s n = true → (slotOf s n).faultHorizon = none ∨ segmentOf s + 1 ≤ (slotOf s n).poisonedTo))
  ∧ (∀ (s : State) (wait : Nat),
    (arrive s false wait).dlv = { s.dlv with arrived := true, barArrive := !s.dlv.barArrive }
    ∧ objGet (arrive s false wait) 0x8010 1 = satAdd (objGet s 0x8010 1) 1
    ∧ objGet (arrive s false wait) 0x8010 2 = objGet s 0x8010 2
    ∧ (arrive s true wait).dlv = { s.dlv with arrived := true, barArrive := !s.dlv.barArrive }
    ∧ objGet (arrive s true wait) 0x8010 1 = satAdd (objGet s 0x8010 1) 1
    ∧ objGet (arrive s true wait) 0x8010 2 = satAdd (objGet s 0x8010 2) 1
    ∧ objGet (arrive s true wait) 0x8010 3 = satAdd (objGet s 0x8010 3) wait
    ∧ (srcOf (arrive s true wait) 8).latch = true
    ∧ (∀ slot tag, s.dlv.lastCond = some (slot, tag) →
        objGet (arrive s true wait) 0x6801 8 = slot ∧ objGet (arrive s true wait) 0x6801 9 = tag))
  )

/-- BAR_REPORT, FED_ARRIVE and FED_RELEASE (R285, R394): a die that is not the lead sends ARRIVE to it; the lead holds the arrivals of all
admitted dies and then, outside a re-election, sends RELEASE to each other one and permits its own barrier to release; a die permits on the
RELEASE of the lead. Each takes effect as it is received, one for all dies once it has been sent on. Federation messages that are none of a
command's (R386): one with a wrong CRC is discarded and counted; one of another type, for another die, or a later copy, a message at hop 7
or one's own for all dies is not taken; an engine whose units do not work takes none. FED_FORWARD and PACKAGE_WRITE_COMPLETE (R333, R386):
the pieces of a write that another admitted engine forwards are taken in the order of their sequence numbers, and with its last piece the
write has its effect here; the pieces of a die not admitted have none. The serving engine's write ends when every other engine has applied
it and its own part is done, with the first abort of either. What a write has changed follows its outcome elsewhere: refused with BUSY it
changes nothing (R48, R100, R205), an image another engine's checks refuse is held as written with its computed fields zero (R48), and the
inactive bank is armed only when every engine has matched (R312). Completion, on the conditions its clauses give on the state and the
operands alone, of: barReport, fedArrive, fedRelease, fedForward, packageWriteComplete. -/
def Obligations.PackageMessages : Prop :=
  (
  (∀ (s : State), headCountClosed s = true → unitsWork s = true →
    let u := { s with dlv := { s.dlv with reported := true } }
    (s.fed.lead ≠ dieId s → exec .barReport s = .next (fedSend u 6 s.fed.lead (stopPayload (segmentOf s) false)))
    ∧ (s.fed.lead = dieId s → exec .barReport s =
        .next (leadRelease { u with dlv := { u.dlv with arrivals := setAdd s.dlv.arrivals [dieId s] } })))
  ∧ (∀ (s : State), headCountClosed s = false ∨ unitsWork s = false → exec .barReport s = .next s)
  ∧ (∀ (s0 s : State) (m : FedArrival), Received 6 m s0 s →
    ((fld m.bytes 10 1).testBit 7 = false → s.fed.lead = dieId s → dieAdmitted s (msgSrc m.bytes) = true →
      exec (.fedArrive m) s0 = .next (leadRelease { s with dlv := { s.dlv with arrivals := setAdd s.dlv.arrivals [msgSrc m.bytes] } }))
    ∧ ((fld m.bytes 10 1).testBit 7 = true → headCountClosed s = true → s.fed.electing = false → msgSrc m.bytes = s.fed.lead →
      exec (.fedRelease m) s0 = .next { s with dlv := { s.dlv with barPermit := !s.dlv.barPermit, permitted := true } }))
  ∧ (∀ (s : State), s.fed.lead = dieId s → headCountClosed s = true → s.fed.electing = false →
    ((∀ d, d < 8 → s.fed.admitted.testBit d = true → d ∈ s.dlv.arrivals) →
      (leadRelease s).fed.tx = s.fed.tx ++ (otherDies s).map (fun d => .fed (fedBytes 6 (dieId s) d 0 (stopPayload (segmentOf s) true)))
      ∧ (leadRelease s).dlv = { s.dlv with arrivals := [], barPermit := !s.dlv.barPermit, permitted := true })
    ∧ ((∃ d, d < 8 ∧ s.fed.admitted.testBit d = true ∧ d ∉ s.dlv.arrivals) → leadRelease s = s))
  ) ∧ (
  ∀ (c : Instr) (ty : Nat) (m : FedArrival) (s : State), messageRow c = some (ty, m) →
    (unitsWork s = false → exec c s = .next s)
    ∧ (unitsWork s = true → msgSound m.bytes = false → exec c s = .next (bump s 0x1180 9))
    ∧ (unitsWork s = true → msgSound m.bytes = true →
      (msgType m.bytes ≠ ty → exec c s = .next s)
      ∧ (msgDst m.bytes ≠ 0xFF → msgDst m.bytes ≠ dieId s → exec c s = .next s)
      ∧ (msgDst m.bytes = 0xFF → m.copy = true ∨ 7 ≤ msgHop m.bytes ∨ msgSrc m.bytes = dieId s → exec c s = .next s))
  ) ∧ (
  (∀ (s0 s : State) (m : FedArrival), Received 7 m s0 s →
    let d := msgSrc m.bytes
    let x := piecesOf s d
    let num := fld m.bytes 24 4
    let piece := (m.bytes.drop 4).take 20
    let b := x.bytes ++ piece
    (dieAdmitted s d = false → exec (.fedForward m) s0 = .next s)
    ∧ (dieAdmitted s d = true → num ≠ x.next → (∀ p ∈ x.held, p.1 ≠ x.next) →
      exec (.fedForward m) s0 = .next (setPieces s d { x with held := x.held ++ [(num, piece)] }))
    ∧ (dieAdmitted s d = true → num = x.next → x.held = [] →
      (writeWhole b = false → exec (.fedForward m) s0 = .next (setPieces s d { next := (x.next + 1) % 2 ^ 32, held := [], bytes := b }))
      ∧ (writeWhole b = true →
        let i := fld b 0 2
        let k := fld b 2 1
        let data := (b.drop 8).take (fld b 4 4)
        let u := setPieces s d { next := (x.next + 1) % 2 ^ 32, held := [], bytes := [] }
        exec (.fedForward m) s0 = .next (if isPrimeImage i k = true ∧ data = [] then primeFirstByte u (i - 0x2100)
          else dictWriteWith dictEffect .link i k data u))))
  ∧ (∀ (s : State) (index abort : Nat),
    let waits (l : LongWrite) : Bool := l.index == index && !l.othersDone
    (s.dict.long.find? waits = none →
      (keptOf s index = none → exec (.packageWriteComplete index abort) s = .next s)
      ∧ (keptOf s index ≠ none → exec (.packageWriteComplete index abort) s = .next (forwardEnded s index abort)))
    ∧ ∀ l, s.dict.long.find? waits = some l →
      let l' := { l with othersDone := true, abort := if l.abort = 0 then abort else l.abort }
      let v := settled { s with dict := { s.dict with long := s.dict.long.map (fun x => if x == l then l' else x) } } index abort
      (l.localDone = false → keptOf s index = none ∨ isBusy abort = false → exec (.packageWriteComplete index abort) s = .next v)
      ∧ (l.localDone = true ∨ (keptOf s index ≠ none ∧ isBusy abort = true) →
        exec (.packageWriteComplete index abort) s = .next (endLong v l')))
  ∧ (∀ (s : State) (index abort : Nat),
    (keptOf s index = none → settled s index abort = s)
    ∧ (∀ x, keptOf s index = some (.set x) → setOf (settled s index abort) (index - 0x2100) =
        if isBusy abort = true then x else if abort = 0 ∨ abort / 2 ^ 24 = 0x0B then setOf s (index - 0x2100)
        else primeRaw (setOf s (index - 0x2100)))
    ∧ (∀ x, keptOf s index = some (.root x) → isBusy abort = true → tblGet {} (settled s index abort).roots (index - 0x5410) = x)
    ∧ (∀ x v, keptOf s index = some (.table x v) → isBusy abort = true →
        (settled s index abort).tok.table = x ∧ objGet (settled s index abort) 0x4800 5 = v)
    ∧ (keptOf s index = some .arm → (abort = 0 → settled s index abort = arm s) ∧ (abort ≠ 0 → settled s index abort = s)))
  )

/-- REGION_POISONING (R283): the poisoning of the segment after the last one poisoned goes to the scratchpad ports: a poisoned write of
every line of the slot's regions that the fabric reads in it, due for that segment, of no delivery of the job. While its window is not open,
while a delivery of the slot due for it or a poisoning is under way, and in a slot that owes none, nothing changes. Completion, on the
conditions its clauses give on the state and the operands alone, of: regionPoisoning. -/
def Obligations.RegionPoisoned : Prop :=
  ∀ (s : State) (n : Nat),
    let d := (slotOf s n).poisonedTo + 1
    ((slotOf s n).faultHorizon ≠ none → unitsWork s = true → poisonMay s n d = true →
      ∃ t x, exec (.regionPoisoning n) s = .next t
        ∧ t.dlv = { s.dlv with items := s.dlv.items ++ [x], nextId := s.dlv.nextId + 1 }
        ∧ x.id = s.dlv.nextId ∧ x.slot = n ∧ x.owner = .poisoning d ∧ x.due = d
        ∧ x.ready.map (·.addr) = regionLines s n d ∧ (∀ l ∈ x.ready, l.poison = true ∧ l.data.length = 512)
        ∧ t.slots = s.slots ∧ t.mem = s.mem ∧ t.evt = s.evt)
    ∧ ((slotOf s n).faultHorizon = none ∨ unitsWork s = false ∨ poisonMay s n d = false → exec (.regionPoisoning n) s = .next s)

/-- PRIME_SET_IMAGE_WRITE and PRIME_SET_VALIDATION (R47, R48): a set with users refuses its image with BUSY; else the image is held, not
valid, and the write waits, keeping what the set held before where other engines have a say; an image that fails keeps what was written and
the write aborts with PRIME_INVALID and its detail; one that passes here and on every other engine has its fields computed and is valid, one
that another engine refuses is held as written. The checks of a prime set (R47): an image passes exactly when its header is in range and
each of its records passes check 2, holds a prime of its own and passes check 4; else the detail is 0xFF for the header, or the index of the
first record refused by the first check that refuses one. Completion, on the conditions its clauses give on the state and the operands
alone, of: primeSetImageWrite, primeSetValidation. -/
def Obligations.PrimeSets : Prop :=
  (
  (∀ (s : State) (via : Via) (n : Nat) (data : List Byte), Takes s via (0x2100 + n) 1 data → s.fed.electing = false →
    let u := arriving s via (0x2100 + n) 1 data
    (primeUsers s n ≠ 0 → exec (.primeSetImageWrite via n data) s = .next (dictAbort u via (abortCode 8 (objDetail (0x2100 + n) 4))))
    ∧ (primeUsers s n = 0 → exec (.primeSetImageWrite via n data) s =
        .next (keepBefore (startLong (setSet u n (primeImage data)) via (0x2100 + n) 1 data true 0) via (0x2100 + n) (.set (setOf s n))))
    ∧ (primeImage data).valid = false ∧ (primeImage data).fingerprint = 0)
  ∧ (∀ (s : State) (n : Nat) (others : Bool),
    (validating s n = false → exec (.primeSetValidation n others) s = .next s)
    ∧ (validating s n = true →
      (∀ d, primeCheck (setOf s n) = some d →
        exec (.primeSetValidation n others) s = .next (localFinish s (0x2100 + n) 1 (abortCode 0x0D d)))
      ∧ (primeCheck (setOf s n) = none →
        exec (.primeSetValidation n others) s = .next (localFinish (setSet s n
          (if otherDies s = [] ∨ others = true then { primeFill (setOf s n) with valid := true } else primeRaw (setOf s n))) (0x2100 + n) 1 0))))
  ) ∧ (
  ∀ (x : PrimeSet),
    (primeCheck x = none ↔ primeHeaderOk x = true ∧ (∀ r ∈ x.recs, primeOk x.log2n r.q = true) ∧ (x.recs.map (·.q)).Nodup
      ∧ ∀ r ∈ x.recs, rootOk x.log2n r = true)
    ∧ (primeHeaderOk x = false → primeCheck x = some 0xFF)
    ∧ (∀ i r, primeHeaderOk x = true → x.recs[i]? = some r → primeOk x.log2n r.q = false →
        (∀ j r', j < i → x.recs[j]? = some r' → primeOk x.log2n r'.q = true) → primeCheck x = some i)
  )

/-- TXA_DISPATCH (R25, R58, R66, R67, R72, R76): of the slots with items, of their commands or of a unit's work, the slot the arbitration
chooses gives its oldest item to the lowest tile in service and free: its first block goes into the active weight set, whose checksum cells
are computed, and its rows start at zero or the preload, the rows it does not use as they were (in mode 0 no value is stated of a preload in
a format other than I32: log entry 3). With no tile in service the item is refused with TXA_NO_TILE, with bad parameters with TXA_PARAM,
with an extent outside its window with SEQ_WINDOW; with every tile of service busy, or no item, nothing changes. TXA_ITEM_COMPLETE (R63,
R65, R67, R68, R71, R413): the item of a tile ends. A command's item has run its passes over what the tile took and the bytes of its window,
with each vector whose check failed issued again; what it made is drained at OUT_ADDR of its window, poisoned after a poisoned input or a
second mismatch; its command finishes, its tile is free, and the items and the cycles it took count. An item of a unit's work ends for its
unit. A tile without an item is left. The checksum column of modes 0, 3 and 4 (R55, R69, R70): over every block and vector the columns of a
tile agree with the checksum, whose cells are those computed as the block was loaded; an error that adds to one column what is no multiple
of 2^32 makes the comparison fail, so its sums are not committed. Completion, on the conditions its clauses give on the state and the
operands alone, of: txaDispatch, txaItemComplete. -/
def Obligations.TransformItems : Prop :=
  (
  ∀ (s : State),
    let slots := (s.txa.queue.map (·.slot) ++ (readyWorks s).map (·.slot)).eraseDups
    (slots = [] ∨ unitsDispatch s = false → exec .txaDispatch s = .next s)
    ∧ ∀ n i, unitsDispatch s = true → arbPick s unitTxa slots = some n → readyItem s n = some i →
      (serviceList s .txa = [] → exec .txaDispatch s = .next (refuseReady s i 0x0306))
      ∧ (serviceList s .txa ≠ [] → freeUnit s .txa = none → exec .txaDispatch s = .next s)
      ∧ ∀ t, freeUnit s .txa = some t →
        (i.part = none → txaParamOk s i = false → exec .txaDispatch s = .next (refuseReady s i 0x0305))
        ∧ (i.part = none → txaParamOk s i = true → txaExtentsOk s i = false → exec .txaDispatch s = .next (refuseReady s i 0x0F04))
        ∧ ((i.part = none → txaParamOk s i = true ∧ txaExtentsOk s i = true) → ∃ v, exec .txaDispatch s = .next v
            ∧ v.txa.tiles = tblSet none s.txa.tiles t (some i)
            ∧ v.txa.queue = (takeReady s i).txa.queue ∧ v.txa.work = (takeReady s i).txa.work
            ∧ (i.part = none → (regsOf v t).active = loadWeights i.p (cellsGet s.mem.txa ((txaWindow s i.slot).1 + i.p.wBase)
                (txaBlockBytes i.p.mode)) ∧ (i.p.init = 0 → (regsOf v t).acc = zeroRows i.p ++ (regsOf s t).acc.drop i.p.rowCount)
              ∧ (i.p.init ≠ 0 → ∃ vs, vs.length = i.p.rowCount * txaCols i.p.mode
                ∧ (regsOf v t).acc = preloadRows i.p vs ++ (regsOf s t).acc.drop i.p.rowCount
                ∧ (i.p.mode ≠ 0 ∨ i.p.outType = 11 → vs = elements (txaOutElem i.p) (i.p.rowCount * txaCols i.p.mode) (cellsGet s.mem.txa
                    ((txaWindow s i.slot).1 + i.p.initAddr) (i.p.rowCount * txaCols i.p.mode * txaOutElem i.p)))))
            ∧ v.mem = s.mem ∧ v.slots = s.slots ∧ v.cmds = s.cmds ∧ v.evt = s.evt)
  ) ∧ (
  ∀ (s : State) (tile : Nat) (faults : List TxaFault) (reads : SramReads),
    (tblGet none s.txa.tiles tile = none → exec (.txaItemComplete tile faults reads) s = .next s)
    ∧ ∀ i, tblGet none s.txa.tiles tile = some i →
      let r := sramReads s 1 i.slot reads
      let u := { r with txa := { r.txa with tiles := tblSet none r.txa.tiles tile none } }
      let base := (txaWindow u i.slot).1
      let regs := regsOf u tile
      let g := txaPasses i.p (recOf (setOf u i.p.set) i.p.limb).q faults (fun off n => cellsGet u.mem.txa (base + off) n)
        (List.range i.p.passCount) { active := regs.active, shadow := regs.shadow, rows := regs.acc.take i.p.rowCount }
      let counted (v : State) (k : Nat) (f : Option (Nat × Nat)) : State :=
        unitDone (bumpBy (bump v 0x8030 8) 0x8030 9 (txaFclk i.p k f)) .txa tile
      (i.part = none → exec (.txaItemComplete tile faults reads) s = .next (counted (txaFinish u i tile g) g.retries g.failed)
        ∧ (txaFinish u i tile g).mem =
            (txaStore u i (txaDrain i.p g.rows) (regs.poisoned || txaInputPoisoned u i || g.failed.isSome)).mem
        ∧ (regs.poisoned = false → txaInputPoisoned u i = false → g.failed = none → (txaDrain i.p g.rows).ovf = [] →
            let bytes := (txaDrain i.p g.rows).bytes
            cellsGet (txaFinish u i tile g).mem.txa (base + i.p.outAddr) bytes.length = bytes))
      ∧ (∀ id, i.part = some id → exec (.txaItemComplete tile faults reads) s =
          .next (counted (partFinish u i id tile (partChecks faults).1 (partChecks faults).2.isSome) (partChecks faults).1 (partChecks faults).2))
  ) ∧ (
  ∀ (p : TxaParams) (block x : List Byte), p.mode = 0 ∨ p.mode = 3 ∨ p.mode = 4 →
    let v := vecSums p block x
    let k := checksum p (loadWeights p block).check x v.unit
    checkHolds p.mode v.cols k = true
    ∧ ∀ j d, j < v.cols.length → d % 2 ^ 32 ≠ 0 → checkHolds p.mode (disturb v [(j, d)]).cols k = false
  )

/-- The writes of the enable objects of TXA, SDX, RSV, MDC and TOK (R73): a unit whose bit is cleared leaves service, at once or with its
item; the present units whose bits are newly set are tested, and the write waits for their self-tests. UNIT_SELFTEST_COMPLETE (R73, R417):
each unit under test that passed enters service with its retired bit clear, but for a tile retired for good; each that failed stays out, its
retired bit set, with RAS_SELFTEST raised; RSV's waiting calls are served; the write ends, with an abort that names the lowest unit that
failed. SCRUB_VISIT and BANK_UE_LIMIT (R410, R411, R412, R416): a corrected word counts, as does each corrected read of SRAM elsewhere, and
the granules the memory fabric fails to read are known; a tile whose staging has had UE_BANK_LIMIT uncorrectable errors leaves service for
good with RAS_BANK_RETIRED, raised; a unit of PFG/SDX staging leaves the shared area and faults the jobs whose window holds it. Completion,
on the conditions its clauses give on the state and the operands alone, of: txaTileEnableWrite, unitSelftestComplete, sdxLaneEnableWrite,
rsvCoreEnableWrite, mdcCoreEnableWrite, tokCoreEnableWrite, scrubVisit, bankUeLimit. -/
def Obligations.UnitsInService : Prop :=
  (
  ∀ (c : Instr) (k : UnitKind) (base : Nat) (via : Via) (w v : Nat) (s : State), enableRow c = some (k, base, via, w, v) →
    Takes s via (enableIndex k) (enableSub k base) (leBytes w v) → v < 256 ^ w →
    let u := arriving s via (enableIndex k) (enableSub k base) (leBytes w v)
    let cut := (clearedUnits u k base v).foldl (fun s x =>
      if unitBusy s k x = true then setDraining s k (setAdd (drainingOf s k) [x]) else setEnable s k x false) u
    (testedUnits u k base v = [] → exec c s = .next (dictDone cut via))
    ∧ (testedUnits u k base v ≠ [] → exec c s = .next (startLong cut via (enableIndex k) (enableSub k base) (leBytes w v) false
        ((testedUnits u k base v).foldl (fun n x => n + 2 ^ x) 0)))
  ) ∧ (
  ∀ (s : State) (k : UnitKind) (failed : List Nat),
    ((∀ l ∈ s.dict.long, l.index = enableIndex k → l.bits = 0 ∨ l.localDone = true) → exec (.unitSelftestComplete k failed) s = .next s)
    ∧ ∀ l, s.dict.long.find? (fun l => l.index == enableIndex k && l.bits != 0 && !l.localDone) = some l →
      let units := (List.range 128).filter (fun u => l.bits.testBit u)
      let passed := (units.filter (fun u => !failed.contains u && !unitStuck s k u)).foldl (fun s u => setRetired (setEnable s k u true) k u false) s
      let served (v : State) : State := if k = .rsv then rsvServe v else v
      ((∀ u ∈ units, u ∉ failed) → exec (.unitSelftestComplete k failed) s = .next (localFinish (served passed) l.index l.sub 0))
      ∧ (∀ x rest, units.filter (fun u => failed.contains u) = x :: rest → exec (.unitSelftestComplete k failed) s = .next
          (localFinish (served ((x :: rest).foldl (fun s u => raiseErr (setRetired s k u true) 0x1206 63) passed)) l.index l.sub
            (abortCode 0x10 (enableIndex k * 256 + x))))
  ) ∧ (
  ∀ (s : State) (u : Nat),
    (∀ c r, s.boot.hclk = false ∨ s.boot.inReset = true → exec (.scrubVisit c r) s = .next s)
    ∧ (∀ r, s.boot.hclk = true → s.boot.inReset = false →
      let v := (List.range r.corrections).foldl (fun s _ => raiseErr s 0x1201 63) { s with mem := { s.mem with failing := r.failing } }
      exec (.scrubVisit true r) s = .next (bump v 0x9010 7) ∧ exec (.scrubVisit false r) s = .next v)
    ∧ (∀ b, unitsWork s = false ∨ atLimit s b u = false → exec (.bankUeLimit b u) s = .next s)
    ∧ (unitsWork s = true → atLimit s true u = true →
      (u < tilesFused s → s.txa.stuck.contains u = false → exec (.bankUeLimit true u) s = .next (retireTile s u))
      ∧ (tilesFused s ≤ u ∨ s.txa.stuck.contains u = true → exec (.bankUeLimit true u) s = .next s))
    ∧ (unitsWork s = true → atLimit s false u = true →
      (u < pfgUnits → (objGet s 0x9000 3).testBit u = false → ∃ v,
        exec (.bankUeLimit false u) s = .next ((slotNumbers.filter (fun n => slotBusy s n
          && (slotOf s n).job.pfgBase ≤ u && u < (slotOf s n).job.pfgBase + (slotOf s n).job.pfgSize)).foldl (fun s n => slotFault s n 0x1207) v)
        ∧ (∀ k, (objGet v 0x9000 3).testBit k = ((objGet s 0x9000 3).testBit k || k == u))
        ∧ objGet v 0x9010 6 = satAdd (objGet s 0x9010 6) 1 ∧ u ∉ sharedFree v ∧ v.slots = s.slots)
      ∧ (pfgUnits ≤ u ∨ (objGet s 0x9000 3).testBit u = true → exec (.bankUeLimit false u) s = .next s))
    ∧ (atLimit s true u = decide (objGet s 0x9000 2 ≤ tblGet 0 s.txa.ueCount u))
    ∧ (atLimit s false u = decide (objGet s 0x9000 2 ≤ tblGet 0 s.ras.pfgCount u))
  )

/-- FORGE_DISPATCH (R24, R25, R77, R97, R259): the forge, when free, takes the oldest item of the slot the arbitration chooses among those
that neither back off nor wait for their buffer; a bad item is refused with the code of its first failing check; a sound one waits for its
work buffer, and on a pool's refusal ends with its code, or backs off on RETRY_LATER. An item the forge starts (R86, R93, R94, R101, R102,
R158): an encryption takes the next counter values of its root, one for each plaintext, and asks for three noise streams for each; a
plaintext item takes none; an item whose plaintexts draw asks for its random calls. ENC_ROOT_KEY_WRITE (R100): while no job names the root,
its key is the bytes written, it is valid and its count is 0, and the write keeps what the root held before until every engine has taken it;
else BUSY. Completion, on the conditions its clauses give on the state and the operands alone, of: forgeDispatch, encRootKeyWrite. -/
def Obligations.ForgeItems : Prop :=
  (
  ∀ (s : State) (reads : SramReads),
    let slots := ((s.forge.queue.map (·.slot)).eraseDups).filter (forgeReady s)
    (unitsDispatch s = false ∨ s.forge.run ≠ none → exec (.forgeDispatch reads) s = .next s)
    ∧ ∀ n i, unitsDispatch s = true → s.forge.run = none → arbPick s unitForge slots = some n →
      s.forge.queue.find? (fun i => i.slot == n) = some i →
      (forgeRefusal s n i.p ≠ 0 → exec (.forgeDispatch reads) s = .next (refuseItem (takeForge s i) i.cmd n (forgeRefusal s n i.p)))
      ∧ (forgeRefusal s n i.p = 0 →
        let want := needBuffer s n (i.p.batch * (forgeN s i.p / 2) * 32)
        (want.1 = none → exec (.forgeDispatch reads) s = .next want.2)
        ∧ (∀ addr, want.1 = some (0, addr) → exec (.forgeDispatch reads) s =
            .next (forgeStart (sramReads (arbGrant (takeForge want.2 i) unitForge n slots) 2 n reads) i addr))
        ∧ (∀ addr, want.1 = some (0x0C08, addr) → exec (.forgeDispatch reads) s = .next (retryLater want.2 n unitForge))
        ∧ (∀ c addr, want.1 = some (c, addr) → c ≠ 0 → c ≠ 0x0C08 → exec (.forgeDispatch reads) s =
            .next (slotFault (finishCmd (takeForge want.2 i) i.cmd c 1 0) n c)))
  ) ∧ (
  ∀ (s : State) (i : ForgeItem) (work : Nat),
    let root := rootOf s i.p.encRoot
    let calls := forgeCalls s i.p
    ∃ w r, forgeStart s i work = (if calls = 0 then w else askCalls w i.slot (.forge i.cmd) calls)
      ∧ w.forge.run = some r ∧ r.item = i ∧ r.work = work ∧ r.counter = root.count ∧ r.pt = 0 ∧ r.ord = 0
      ∧ (forgeStart s i work).roots = w.roots
      ∧ (i.p.output = 1 →
        rootOf w i.p.encRoot = { root with count := root.count + i.p.batch }
        ∧ (∀ k, k ≠ i.p.encRoot → rootOf w k = rootOf s k)
        ∧ w.sdx.streams = s.sdx.streams ++ noiseStreams s i root.count
        ∧ (noiseStreams s i root.count).length = 3 * i.p.batch)
      ∧ (i.p.output ≠ 1 → w.roots = s.roots ∧ w.sdx.streams = s.sdx.streams)
  ) ∧ (
  ∀ (s : State) (via : Via) (r : Nat) (data : List Byte), Takes s via (0x5410 + r) 1 data → s.fed.electing = false →
    let u := arriving s via (0x5410 + r) 1 data
    (rootUsers s r = 0 → ∃ v, exec (.encRootKeyWrite via r data) s =
        .next (keepBefore (packageDone v via (0x5410 + r) 1 data) via (0x5410 + r) (.root (rootOf s r)))
      ∧ rootOf v r = { key := data, valid := true, count := 0 } ∧ (∀ k, k ≠ r → rootOf v k = rootOf s k) ∧ v.mem = s.mem ∧ v.slots = s.slots)
    ∧ (rootUsers s r ≠ 0 → exec (.encRootKeyWrite via r data) s = .next (dictAbort u via (abortCode 8 (objDetail (0x5410 + r) 4))))
  )

/-- FORGE_LIMB_VERDICT (R71, R90 to R92): once the array has run its items the special FFT of the plaintext in work has its verdict: its
stage data is in the work buffer; when every congruence holds its limbs are begun, counting a retry that succeeded; a first failure raises
PFG_MISMATCH and has it run again, a second PFG_FAIL. A limb of it that passes is written and the forge goes on to the next; a first failure
has it forged again, a second poisons it, and one of a failed FFT is poisoned; one that passes with a poisoned array item is poisoned. No
limb is released before its plaintext's FFT has passed. The residue check (R82, R88, R90, R104): the special FFT of a plaintext without a
fault passes it, over every input and rounding; an error in an element of its last stage, in a rounded coefficient, in a residue of the
splitter or in a product of the pointwise unit, of a key with its addend too (R104), that is no multiple of 8,191 fails it. Completion, on
the conditions its clauses give on the state and the operands alone, of: forgeLimbVerdict. -/
def Obligations.ForgeVerdicts : Prop :=
  (
  ∀ (s : State) (r : ForgeRun) (faults : List ForgeFault), s.forge.run = some r →
    (unitsWork s = false ∨ working s (.forge r.item.cmd) = true ∨ drawing s (.forge r.item.cmd) = true ∨ noiseReady s r.item r.pt = false →
      ∀ fft, exec (.forgeLimbVerdict fft faults) s = .next s)
    ∧ (unitsWork s = true → working s (.forge r.item.cmd) = false → drawing s (.forge r.item.cmd) = false → noiseReady s r.item r.pt = true →
      (r.fftDone = false → r.fftFailed = false →
        let u := fftUnit r.item.p.rmode (setOf s r.item.p.set).log2n (roundDraw s r r.pt) faults (r.inputs.getD r.pt [])
        let t := memWrite s (r.work + r.pt * (forgeN s r.item.p / 2) * 32) (fftBytes u.data)
        let bad := if r.spoiled then (if r.pt == 0 && !r.fftRetried then List.range r.item.p.batch else [r.pt]) else []
        let r' := { r with spoiled := false, ranged := setAdd r.ranged bad }
        (u.ok = true → exec (.forgeLimbVerdict true faults) s = .next
          (limbWork (setForge (if r.fftRetried = true then bump t 0x8040 4 else t) { r' with fftDone := true, coefs := u.coefs }) r.item))
        ∧ (u.ok = false → r.fftRetried = false → exec (.forgeLimbVerdict true faults) s = .next
          (fftWork (setForge (raiseErr t 0x0403 r.item.slot) ({ r' with fftRetried := true, retriedAny := true }.err 0x0403)) r.item 1))
        ∧ (u.ok = false → r.fftRetried = true → exec (.forgeLimbVerdict true faults) s = .next
          (setForge (raiseErr t 0x0404 r.item.slot) ({ r' with fftFailed := true }.err 0x0404)))
        ∧ exec (.forgeLimbVerdict false faults) s = .next s)
      ∧ (r.fftDone = true → r.fftFailed = false →
        let k := limbTiles s r faults
        let counted := if r.limbRetried = true then bump s 0x8040 4 else s
        exec (.forgeLimbVerdict true faults) s = .next s
        ∧ (k.2 = true → r.spoiled = true → exec (.forgeLimbVerdict false faults) s = .next
          (forgeAdvance (forgeFailedLimb counted r.item r.pt r.ord) { r with poisoned := true }))
        ∧ (k.2 = true → r.spoiled = false → exec (.forgeLimbVerdict false faults) s = .next
          (forgeAdvance (forgeLimb counted r faults k.1 (r.ranged.contains r.pt))
            { r with poisoned := r.poisoned || r.ranged.contains r.pt }))
        ∧ (k.2 = false → r.limbRetried = false → exec (.forgeLimbVerdict false faults) s = .next
          (limbWork (setForge (raiseErr s 0x0403 r.item.slot)
            ({ r with limbRetried := true, retriedAny := true, spoiled := false }.err 0x0403)) r.item))
        ∧ (k.2 = false → r.limbRetried = true → exec (.forgeLimbVerdict false faults) s = .next
          (forgeBadLimb (raiseErr s 0x0404 r.item.slot) (r.err 0x0404))))
      ∧ (r.fftFailed = true → exec (.forgeLimbVerdict false faults) s = .next (forgeBadLimb s r)))
  ) ∧ (
  (∀ (rmode log2n : Nat) (draw : DrawId) (y : List (Int × Int)), (fftUnit rmode log2n draw [] y).ok = true)
  ∧ (∀ (rmode log2n : Nat) (draw : DrawId) (y : List (Int × Int)) (f : ForgeFault), f.delta % 8191 ≠ 0 → f.index < 2 * y.length →
      f.step = .stage 1 ∨ f.step = .round → (fftUnit rmode log2n draw [f] y).ok = false)
  ∧ (∀ (radices : List Nat) (n : Nat) (r : PrimeRec) (coefs : List Int) (f : ForgeFault), f.delta % 8191 ≠ 0 → f.step = .split →
      f.index < coefs.length → (r.q : Int) % 8191 = (r.qMod : Int) % 8191 → (checkedTile radices n r [f] coefs).2 = false)
  ∧ (∀ (r : PrimeRec) (fault : Int) (a c addend : Nat), (r.q : Int) % 8191 = (r.qMod : Int) % 8191 →
      ((mulAddElem r fault a c addend).2 = true ↔ fault % 8191 = 0))
  )

/-- KEY_REGISTRATION_CHECK (R131, R132): a registration that passes has its entry written, valid, over the 64 bytes of its place in the
directory; one that fails has its entry left not valid with the code of the failure. What else a refused entry holds is the model's (log
entry 252). KEY_STREAM_DISPATCH (R135, R137, R280): of the slots whose first key item can be dispatched the one the round robin chooses has
it dispatched: refused with its code, its delivery ended, or started in the staging it needs. Completion, on the conditions its clauses give
on the state and the operands alone, of: keyRegistrationCheck, keyStreamDispatch. -/
def Obligations.Keys : Prop :=
  (
  ∀ (s : State) (n q : Nat) (r : KeyReg), unitsWork s = true →
    s.sdx.regs.find? (fun r => r.slot == n && (cmdOf s r.cmd).any (fun c => c.queue == q)) = some r →
    let len := 68 + (ecnHeader (memBytes s r.cont 64)).payload
    let u := { readChecked s n r.cont len with sdx := { (readChecked s n r.cont len).sdx with regs := (readChecked s n r.cont len).sdx.regs.erase r } }
    (registerCode (readChecked s n r.cont len) r = 0 →
      exec (.keyRegistrationCheck n q) s = .next (endRegistration u n r 0)
      ∧ memBytes (endRegistration u n r 0) (keyEntryAddr u r.index) 64 = keyEntryBytes (registeredEntry u r))
    ∧ (registerCode (readChecked s n r.cont len) r ≠ 0 →
      exec (.keyRegistrationCheck n q) s = .next (endRegistration u n r (registerCode (readChecked s n r.cont len) r))
      ∧ memBytes (endRegistration u n r (registerCode (readChecked s n r.cont len) r)) (keyEntryAddr u r.index) 64 =
          keyEntryBytes { (keyEntryAt u r.index).1 with valid := false, status := registerCode (readChecked s n r.cont len) r })
  ) ∧ (
  ∀ (s : State) (n : Nat) (i : KeyItem), unitsDispatch s = true →
    let slots := slotNumbers.filter (fun n => (firstKey s n).any (fun i => keyReady s i))
    arbPick s unitKey slots = some n → firstKey s n = some i →
    let t := readChecked (arbGrant { s with sdx := { s.sdx with keyQueue := s.sdx.keyQueue.erase i } } unitKey n slots) n
      (keyEntryAddr s i.p.index) 64
    (keyCode s i ≠ 0 → exec .keyStreamDispatch s = .next (refuseKey t i (keyCode s i) flagDone))
    ∧ (keyCode s i = 0 → keyPlaceCode s i ≠ 0 → exec .keyStreamDispatch s = .next
      (refuseKey t i (keyPlaceCode s i) (flagDone + flagUnwritten)))
    ∧ (∀ (v : State) (code flags : Nat), ∃ w, refuseKey v i code flags = errFault (finishDelivery w i.cmd
          { tag := i.tag, due := dueOf v n i.p.due, status := code, flags := flags }) n code
        ∧ dlvOf w i.dlv = none ∧ w.slots = v.slots ∧ w.mem = v.mem ∧ w.sdx = v.sdx)
    ∧ (keyCode s i = 0 → keyPlaceCode s i = 0 → keyUnits s i ≤ (sharedFree t).length → exec .keyStreamDispatch s = .next
      (startKey { t with dlv := { t.dlv with reservedUnits := setAdd t.dlv.reservedUnits ((sharedFree t).take (keyUnits s i)) } } i
        ((sharedFree t).take (keyUnits s i))))
  )

/-- SDX_STREAM_START (R120, R121): the lowest free lane in service takes a stream that lost its lane first, else the first ready stream of
the slot the round robin chooses, from its absorbed input; without a free lane, or a ready stream, nothing changes. SDX_PERMUTATION_DONE and
SDX_STALL_RESUME (R119, R120, R122): where the two copies agree the lane's next block is released; a first disagreement raises
SDX_LANE_MISMATCH and the permutation runs again; a second retires the lane, its stream beginning again elsewhere from its input, with the
words already released discarded. A stalled lane does nothing until its buffer of eight lines has room again: the lines of a key limb leave
it as they are accepted, those of a ciphertext limb as the memory write port takes them. A noise stream's bytes are kept, in order, until it
has as many as it needs; then its lane is free and its consumer has them. Completion, on the conditions its clauses give on the state and
the operands alone, of: sdxStreamStart, sdxPermutationDone, sdxStallResume. -/
def Obligations.SeedLanes : Prop :=
  (
  ∀ (s : State),
    (unitsWork s = false ∨ freeUnit s .sdx = none → exec .sdxStreamStart s = .next s)
    ∧ ∀ u, unitsWork s = true → freeUnit s .sdx = some u →
      (∀ r rest, s.sdx.moved = r :: rest → exec .sdxStreamStart s = .next
        { s with sdx := { s.sdx with moved := rest, lanes := tblSet none s.sdx.lanes u (some { r with stalled := bufferFull s u r }) } })
      ∧ (s.sdx.moved = [] → ∀ n x,
        let slots := ((s.sdx.streams.filter (·.ready)).map (·.slot)).eraseDups
        arbPick s unitSdx slots = some n → (s.sdx.streams.filter (·.ready)).find? (fun x => x.slot == n) = some x →
        exec .sdxStreamStart s = .next
          (laneTakes (arbGrant { s with sdx := { s.sdx with streams := s.sdx.streams.erase x } } unitSdx n slots) u
            { stream := x, state := shakeStart x.input, stalled := bufferFull s u { stream := x, state := shakeStart x.input } }))
  ) ∧ (
  ∀ (s : State) (lane : Nat) (r : LaneRun), tblGet none s.sdx.lanes lane = some r →
    (unitsWork s = true → r.stalled = false → ∀ k,
      exec (.sdxPermutationDone lane false k) s = .next (release168 s lane r k)
      ∧ (r.retried = false → exec (.sdxPermutationDone lane true k) s = .next (raiseErr (laneTakes s lane { r with retried := true }) 0x0608 r.stream.slot))
      ∧ (r.retried = true → exec (.sdxPermutationDone lane true k) s = .next (laneRetires s lane r)))
    ∧ (unitsWork s = false ∨ r.stalled = true → ∀ d k, exec (.sdxPermutationDone lane d k) s = .next s)
    ∧ (∀ k, let v := takeLines 1 s r
      (r.stalled = true → bufferFull s lane v.2 = false →
        exec (.sdxStallResume lane k) s = .next (bumpBy (laneTakes v.1 lane { v.2 with stalled := false }) 0x8060 2 k))
      ∧ (r.stalled = false ∨ bufferFull s lane v.2 = true → exec (.sdxStallResume lane k) s = .next s))
    ∧ ((∀ m l, r.stream.use ≠ .ctLimb m l) → takeLines 1 s r = (s, r))
    ∧ (∀ m l, r.stream.use = .ctLimb m l → r.pending ≠ 0 →
        takeLines 1 s r = (ctLimbLine s r m l r.written, { r with written := r.written + 1 }))
    ∧ (∀ c b tag k, unitsWork s = true → r.stalled = false → r.stream.use = .noise c b tag →
      let a := keccakF r.state
      let got := (accepted r.stream (shakeBytes a) (min 42 r.skip)).reverse ++ r.got
      let r' := { r with state := a, perms := r.perms + 1, got := got, skip := r.skip - min 42 r.skip, retried := false }
      (got.length < r.stream.len → exec (.sdxPermutationDone lane false k) s = .next (laneTakes (bump s 0x8060 1) lane
        { r' with stalled := bufferFull (bump s 0x8060 1) lane r' }))
      ∧ (r.stream.len ≤ got.length → ∃ t, exec (.sdxPermutationDone lane false k) s = .next t
        ∧ t.sdx.done = s.sdx.done ++ [(r.stream.use, got.reverse.take r.stream.len)] ∧ tblGet none t.sdx.lanes lane = none))
  )

/-- RSV_CALL (R25, R143, R148, R158, R160): a request of a slot with a job asks for the call with the key and counter of its draw and is
served in its turn: where nothing else waits, neither a call nor a unit's request, the lowest free core in service takes it; an unlisted
purpose faults the slot with RSV_PURPOSE, no core in service with RSV_NO_CORE. RSV_CALL_RETURN (R146, R150, R158, R159): where a core's
copies agree the words that its key and counter give, and the uniform floats they stand for, are released and counted, or the unit's request
goes on, and the waiting calls are served; a first disagreement raises RSV_MISMATCH and the call is computed again on the same core; a
second raises RSV_CORE_RETIRED, retires the core and moves the call. Completion, on the conditions its clauses give on the state and the
operands alone, of: rsvCall, rsvCallReturn. -/
def Obligations.RandomCalls : Prop :=
  (
  ∀ (s : State) (n purpose sample block draw : Nat), unitsWork s = true → slotBusy s n = true →
    let call : RsvCall := { slot := n, key := (trailKey (slotOf s n).job.jobSeed purpose (jobEpoch s n)).value
                            ctr := (trailCounter sample block draw).value }
    (purposeListed purpose = false → exec (.rsvCall n purpose sample block draw) s = .next (errFault s n 0x0701))
    ∧ (purposeListed purpose = true →
      (serviceList s .rsv = [] → exec (.rsvCall n purpose sample block draw) s = .next (errFault s n 0x0704))
      ∧ (serviceList s .rsv ≠ [] → exec (.rsvCall n purpose sample block draw) s =
          .next (rsvServe { s with rsv := { s.rsv with waiting := s.rsv.waiting ++ [call] } }))
      ∧ ∀ c, freeUnit s .rsv = some c → s.rsv.moved = [] → s.rsv.waiting = [] → (∀ w ∈ s.rsv.works, w.left = 0) →
          ∃ t, exec (.rsvCall n purpose sample block draw) s = .next t
            ∧ t.rsv = { s.rsv with cores := tblSet none s.rsv.cores c (some call) } ∧ t.objs = s.objs)
  ) ∧ (
  ∀ (s : State) (c : Nat) (call : RsvCall), tblGet none s.rsv.cores c = some call →
    let words := (trailCall (quadOf call.key) (quadOf call.ctr)).words
    (call.part = none → exec (.rsvCallReturn c false) s = .next (rsvServe (unitDone (bump
        { s with rsv := { s.rsv with
            cores := tblSet none s.rsv.cores c none
            returned := some { call := call, words := words, floats := words.map (fun w => uniformBits w.toNat) } } } 0x8070 1) .rsv c)))
    ∧ (∀ id, call.part = some id → exec (.rsvCallReturn c false) s = .next (rsvServe (unitDone (bump
        (callBack { s with rsv := { s.rsv with cores := tblSet none s.rsv.cores c none } } id) 0x8070 1) .rsv c)))
    ∧ (call.retried = false → exec (.rsvCallReturn c true) s = .next
        (raiseErr { s with rsv := { s.rsv with cores := tblSet none s.rsv.cores c (some { call with retried := true }) } } 0x0702 call.slot))
    ∧ (call.retried = true →
      let u := retireUnit (raiseErr { s with rsv := { s.rsv with cores := tblSet none s.rsv.cores c none } } 0x0703 call.slot) .rsv c
      exec (.rsvCallReturn c true) s = .next (rsvServe { u with rsv := { u.rsv with moved := u.rsv.moved ++ [{ call with retried := false }] } }))
  )

/-- MDC_DECODE_DISPATCH (R161, R165, R166): the image cores' next item, else the video cores', is taken by the slot the round robin chooses;
an image item goes to the lowest free image core, which is granted with it, a video item to its stream's context, opened when the item says
so, its cores granted with its decoding units; one whose parameters are outside the table faults its slot with MDC_PARAM.
MDC_DECODING_UNIT_START (R25, R161, R165, R167, R168, R170, R178, R182, R183, R187): an image core reads its sample's header, judged once,
which fails with its code or has its buffers allocated; the lowest free video core starts the next picture of a stream the arbitration
chooses: a sequence that fails its checks ends the sample, an access unit before the entry is discarded and counted, any other has its frame
buffer and goes on; or, its own unit finished, the next unit of a picture under way, which a picture's only core takes too; a unit of a
stream outside its pictures that is invalid, or has a byte read poisoned, is a resynchronisation, or it shows a picture again. Completion,
on the conditions its clauses give on the state and the operands alone, of: mdcDecodeDispatch, mdcDecodingUnitStart. -/
def Obligations.Decoding : Prop :=
  (
  ∀ (s : State),
    (unitsDispatch s = false → exec .mdcDecodeDispatch s = .next s)
    ∧ (unitsDispatch s = true → ∀ n i, arbPick s unitImage (decodeSlots s false) = some n → nextDecode s false n = some i →
      exec .mdcDecodeDispatch s = .next (takeDecode (arbGrant s unitImage n (decodeSlots s false)) i))
    ∧ (unitsDispatch s = true → arbPick s unitImage (decodeSlots s false) = none → ∀ n i,
      arbPick s unitVideo (decodeSlots s true) = some n → nextDecode s true n = some i →
      exec .mdcDecodeDispatch s = .next (takeDecode s i))
    ∧ ∀ (i : DecodeItem),
      let u := { s with mdc := { s.mdc with queue := s.mdc.queue.erase i } }
      (decodeParamsOk u i = false → takeDecode s i = errFault u i.slot 0x0801)
      ∧ (decodeParamsOk u i = true → isVideo i.format = false → ∀ c, freeImageCore u = some c →
          takeDecode s i = { u with mdc := { u.mdc with runs := s.mdc.runs ++ [{ item := i, cores := [c] }] } })
      ∧ (decodeParamsOk u i = true → isVideo i.format = true → i.opn = false → ∀ k, i.stream = some k →
          takeDecode s i = { u with mdc := { u.mdc with runs := s.mdc.runs ++ [{ item := i, cores := [], before := some (ctxOf s k) }] } })
      ∧ (decodeParamsOk u i = true → isVideo i.format = true → i.opn = true → ∀ k,
          i.stream = some k ∨ (i.stream = none ∧ freeCtx u = some k) →
          let v := setCtx (closeCtx u k i.slot) k { opn := true, owner := i.slot, entry := i.entry, seeking := true, refresh := i.refresh }
          takeDecode s i = { v with mdc := { v.mdc with runs := v.mdc.runs ++ [{ item := { i with stream := some k }, cores := [] }] } })
  ) ∧ (
  ∀ (s : State) (core : Nat), unitsWork s = true →
    (∀ r h, s.mdc.runs.find? (fun r => r.cores.contains core && r.header.isNone && r.code == 0 && !isVideo r.item.format) = some r →
      let code := if r.passed = some h then 0 else headerCode s r.item h
      let v := passHeader s r (some h)
      let r' := { r with passed := some h }
      (code ≠ 0 → exec (.mdcDecodingUnitStart core (.image h)) s = .next (failHeader s r code))
      ∧ (code = 0 → h.progressive = false ∨ r.item.format ≠ 1 ∨ r.coef ≠ none → r.buffer = none →
          exec (.mdcDecodingUnitStart core (.image h)) s = .next (runBuffer v r' unitImage (shapeOf r.item h).layout.total
            (fun s a => setRun s r' { r' with buffer := some a, header := some h })))
      ∧ (code = 0 → h.progressive = true → r.item.format = 1 → r.coef = none →
          exec (.mdcDecodingUnitStart core (.image h)) s = .next (runBuffer v r' unitImage (coefBytes (shapeOf r.item h))
            (fun s a => imageFrame (setRun s r' { r' with coef := some a }) { r' with coef := some a } h))))
    ∧ (∀ head r slots k, freeVideoCore s = some core → pickRun s (pictureRuns s head) = some (r, slots) → r.item.stream = some k →
      let code := (head.header.map (fun h => if r.passed = some h then 0 else headerCode s r.item h)).getD 0
      let v (p : Option MediaHeader) := passHeader s r p
      let r' := { r with passed := head.header }
      let x := { ctxOf s k with sequence := head.header.or (ctxOf s k).sequence }
      (code ≠ 0 → exec (.mdcDecodingUnitStart core (.picture head)) s = .next (grantRun (failHeader s r code) core r slots))
      ∧ (code = 0 → x.sequence = none ∨ x.meet r.item.format head = none → exec (.mdcDecodingUnitStart core (.picture head)) s =
          .next (grantRun (bump (setCtx (v none) k x) 0x8080 0x10) core r slots))
      ∧ (code = 0 → ∀ h x' a, x.sequence = some h → x.meet r.item.format head = some x' →
          let want := needBuffer (v head.header) r.item.slot (shapeOf r.item h).layout.total
          want.1 = some (0, a) → exec (.mdcDecodingUnitStart core (.picture head)) s = .next (grantRun
            (setCtx (setRun (switchCtx want.2 core (some k)) r'
              { r with header := some h, passed := none, head := some head, taken := 1, buffer := some a, cores := [core] }) k x') core r slots)))
    ∧ (∀ r, s.mdc.runs.find? (fun r => isVideo r.item.format && r.cores.contains core
          && (1 < r.cores.length || r.head.any (fun h => r.taken < h.unitTotal))) = some r →
        finishUnit s core = unitDone (setRun s r { r with cores := r.cores.erase core }) .mdc core)
    ∧ (∀ above, let u := finishUnit s core
      (∀ r slots, freeVideoCore u = some core → pickRun u (unitRuns u above) = some (r, slots) →
        exec (.mdcDecodingUnitStart core (.next above)) s = .next (grantRun
          (setRun (switchCtx u core r.item.stream) r { r with cores := r.cores ++ [core], taken := r.taken + 1 }) core r slots))
      ∧ (freeVideoCore u ≠ some core ∨ pickRun u (unitRuns u above) = none → exec (.mdcDecodingUnitStart core (.next above)) s = .next u))
    ∧ (∀ r k, streamRun s k = some r →
      (∀ start len invalid,
        (invalid = true ∨ memPoisoned s (r.item.addr + start) len = true →
          exec (.mdcDecodingUnitStart core (.lost k start len invalid false)) s = .next (raiseErr s 0x0808 r.item.slot)
          ∧ exec (.mdcDecodingUnitStart core (.lost k start len invalid true)) s = .next
              (let u := raiseErr s 0x0808 r.item.slot
               setCtx u k { ctxOf u k with sequence := none, seeking := true }))
        ∧ (invalid = false → memPoisoned s (r.item.addr + start) len = false →
          ∀ q, exec (.mdcDecodingUnitStart core (.lost k start len invalid q)) s = .next s))
      ∧ (∀ coded marks,
        ((ctxOf s k).seeking = true → exec (.mdcDecodingUnitStart core (.again k coded marks)) s = .next (bump s 0x8080 0x10))
        ∧ ((ctxOf s k).seeking = false →
          let e := outputPictures (markPictures s k marks) k r [coded]
          exec (.mdcDecodingUnitStart core (.again k coded marks)) s =
            .next (saveCtx (dropPictures (setRun e.1 r e.2) k r.item.slot) k))))
  )

/-- MDC_PICTURE_COMPLETE (R161, R172, R178, R181 to R188): the picture under way on a core is complete: an image is output; a video picture,
once its last decoding unit is done, takes its place in its stream's pool, and its core is free. A frame that is output carries its number
and the sample that outputs it. Concealment (R175, R176, R186): a concealed sample is the co-located one of the picture's source, or
mid-grey where it has none, and every other sample is as decoded; a concealed statistics block has both lists unused and no coded bits.
MDC_SAMPLE_OUTCOME (R166, R167): the sample of an image core or of a stream ends, an image once its header has been judged or its format is
in error; a sample whose header has passed ends with its payload CRC compared: one that is sound and whose CRC matches is DECODED with its
frames, and one whose CRC fails is CORRUPT with MDC_CRC. SHAPE_SAMPLE (R212, R223): a decoded sample of a stage with no program passes on
its frames; with a program whose buffers the reservation cannot hold it is CORRUPT with SHAPE_SIZE; with both working buffers, and frames
not poisoned, its choices are made and its sums go to the array; once the array has run them it is shaped. Completion, on the conditions its
clauses give on the state and the operands alone, of: mdcPictureComplete, mdcSampleOutcome, shapeSample. -/
def Obligations.DecodedSamples : Prop :=
  (
  (∀ (s : State) (core : Nat) (p : Picture) (r : DecodeRun), unitsWork s = true →
    s.mdc.runs.find? (fun r => r.cores == [core] && r.buffer.isSome) = some r → ∀ buf h, r.buffer = some buf → r.header = some h →
      (isVideo r.item.format = false → r.item.format ≠ 3 → exec (.mdcPictureComplete core p) s = .next (imageComplete s r h buf p))
      ∧ (∀ d k, isVideo r.item.format = true → r.item.stream = some k → r.head = some d →
        (r.taken = d.unitTotal → exec (.mdcPictureComplete core p) s = .next (unitDone (videoComplete s r h d k buf p) .mdc core))
        ∧ (r.taken ≠ d.unitTotal → exec (.mdcPictureComplete core p) s = .next s)))
  ∧ (∀ (s : State) (r : DecodeRun) (buf number flags : Nat),
    memBytes (outputFrame s r buf number flags).1 (buf + 54) 10 = leBytes 4 number ++ leBytes 6 r.item.sample
    ∧ (outputFrame s r buf number flags).2.frames = buf :: r.frames)
  ) ∧ (
  (∀ (f : FrameShape) (areas : List Rect) (source : Option (Nat → Nat → Nat → Nat)) (c : Nat) (vs : List Nat) (k : Nat),
    areas ≠ [] → k < f.compW c * f.compH c →
    let x := k % f.compW c
    let y := k / f.compW c
    let hit := inArea areas (x * sampHMax f.sampling f.components / sampH f.sampling c) (y * sampVMax f.sampling f.components / sampV f.sampling c)
    (hit = false → (concealPlane f areas source c vs)[k]? = some (vs.getD k 0))
    ∧ (hit = true → source = none → (concealPlane f areas source c vs)[k]? = some (2 ^ (f.bitDepth - 1)))
    ∧ (∀ g, hit = true → source = some g → (concealPlane f areas source c vs)[k]? = some (g c x y)))
  ∧ (∀ (f : FrameShape) (blocks : List PredBlock) (coded : List CodedUnit) (jpeg : List (List JpegBlock)) (concealed : List Nat) (k : Nat),
    k ∈ concealed → k < f.gridBlocks →
    blockVectors f blocks concealed k = [-32768, -32768, -32768, -32768]
    ∧ (bitsTensor f coded concealed)[k]? = some 0 ∧ (jpegBits f jpeg concealed)[k]? = some 0)
  ) ∧ (
  ∀ (s : State) (core : Nat) (stream : Option Nat) (r : DecodeRun), unitsWork s = true → endingRun s core stream = some r →
    (∀ how b, r.header ≠ none ∨ r.code ≠ 0 ∨ how = .formatError ∨ isVideo r.item.format = true →
      exec (.mdcSampleOutcome core stream how b) s = .next (sampleEnds s r how b))
    ∧ (∀ how b, r.header = none → r.code = 0 → how ≠ .formatError → isVideo r.item.format = false →
      exec (.mdcSampleOutcome core stream how b) s = .next s)
    ∧ (r.header ≠ none → isVideo r.item.format = false → r.item.format = 1 → r.frames ≠ [] → r.code = 0 →
        memPoisoned s r.item.addr r.item.len = false →
        (crc32c (memBytes s r.item.addr r.item.len) = r.item.crc → exec (.mdcSampleOutcome core stream .complete []) s = .next (endSample s r false))
        ∧ (crc32c (memBytes s r.item.addr r.item.len) ≠ r.item.crc → exec (.mdcSampleOutcome core stream .complete []) s = .next
            (endSample (failRun (raiseErr s 0x0807 r.item.slot) r 0x0807) { r with code := 0x0807 } true)))
  ) ∧ (
  ∀ (s : State) (n sample : Nat) (d : Decoded) (b : BatStage), unitsWork s = true → (slotOf s n).backoff.contains unitShape = false →
    s.mdc.outcomes.find? (fun d => d.slot == n && d.sample == sample) = some d → s.bat.stages.find? (fun b => b.slot == n) = some b →
    (b.prog = none → exec (.shapeSample n sample) s =
      .next (endShape (d.frames.foldl (fun s b => readChecked s n b (frameBytes s b)) s) d (plainFrames s d)))
    ∧ (∀ g, b.prog = some g → d.started = true →
      (working s (.shape n sample) = true → exec (.shapeSample n sample) s = .next s)
      ∧ (working s (.shape n sample) = false → exec (.shapeSample n sample) s = .next (shapeDone s d g)))
    ∧ ∀ g, b.prog = some g → d.started = false →
      let size := d.frames.foldl (fun n f => max n (workBytes s g f)) 0
      (d.work = [] → reservationFits s n size = false → exec (.shapeSample n sample) s =
        .next (endShape (raiseErr s 0x0A02 n) d { code := 0x0A02 }))
      ∧ (2 ≤ d.work.length → exec (.shapeSample n sample) s = .next (shapeRun s d g))
      ∧ (d.work = [] → reservationFits s n size = true → needBuffer s d.slot size = (none, (needBuffer s d.slot size).2) →
        exec (.shapeSample n sample) s = .next (needBuffer s d.slot size).2)
  )

/-- TOK_ITEM_DISPATCH, TOK_MERGE_PIECE and TOK_SAMPLE_OUTCOME (R192, R193, R194, R200 to R202, R250): the front end, when free, takes an
item with sound parameters once it has its buffer from its job's reservation; while pieces are left and the output has room the lowest free
merge core takes the next piece, and a core that has finished puts the piece's tokens in its place; a text with nothing left to merge ends,
with TOK_TRUNCATED when its tokens exceed the output, CORRUPT with the code of its first failure, or with TOK_CRC, which is raised, when its
CRC differs. TOK_TABLE_LOAD and TOK_TABLE_LOAD_COMPLETE (R204, R205): while no job uses the table the write loses it at once and waits,
keeping what it was where other engines have a say; an image that passes its checks is the table, valid when no other engine fails it; one
that fails ends the write with TOK_TABLE_INVALID, its check and its entry; with users the write aborts with BUSY. Completion, on the
conditions its clauses give on the state and the operands alone, of: tokItemDispatch, tokMergePiece, tokSampleOutcome, tokTableLoad,
tokTableLoadComplete. -/
def Obligations.Tokenising : Prop :=
  (
  (∀ (s : State) (b : InflatedText) (n : Nat) (i : TokItem), unitsDispatch s = true → s.tok.run = none →
    let slots := ((s.tok.queue.map (·.slot)).eraseDups).filter (tokReady s)
    arbPick s unitTok slots = some n → s.tok.queue.find? (fun i => i.slot == n) = some i →
    (tokParamsOk s i = false → exec (.tokItemDispatch b) s = .next (errFault (takeTok s i) n 0x0901))
    ∧ (tokParamsOk s i = true → serviceList s .tok = [] → exec (.tokItemDispatch b) s = .next (errFault (takeTok s i) n 0x0907))
    ∧ (tokParamsOk s i = true → serviceList s .tok ≠ [] → reservationFits s n i.bufferBytes = false →
      exec (.tokItemDispatch b) s = .next (errFault (takeTok s i) n 0x0C01))
    ∧ (tokParamsOk s i = true → serviceList s .tok ≠ [] → reservationFits s n i.bufferBytes = true →
      let want := needBuffer s n i.bufferBytes
      (want.1 = none → exec (.tokItemDispatch b) s = .next want.2)
      ∧ (∀ addr, want.1 = some (0, addr) → exec (.tokItemDispatch b) s =
          .next (tokStart (arbGrant (takeTok want.2 i) unitTok n slots) i addr b))))
  ∧ (∀ (s : State) (r : TokRun), unitsWork s = true → s.tok.run = some r →
    (∀ c k, tokFull r = false → freeUnit s .tok = some c → nextPiece s r = some k →
      exec (.tokMergePiece none) s = .next (setPiece s c (some k)))
    ∧ (tokFull r = true ∨ freeUnit s .tok = none ∨ nextPiece s r = none → exec (.tokMergePiece none) s = .next s)
    ∧ (∀ c, tblGet none s.tok.cores c = none → exec (.tokMergePiece (some c)) s = .next s)
    ∧ (∀ c k bs, tblGet none s.tok.cores c = some k → r.pieces[k]? = some (.bytes bs) →
      let r' := { r with pieces := r.pieces.set k (.tokens (pieceTokens s.tok.table bs)) }
      exec (.tokMergePiece (some c)) s = .next (unitDone (setPiece { s with tok := { s.tok with run := some r' } } c none) .tok c))
    ∧ (tokFull r = false → exec .tokSampleOutcome s = .next s)
    ∧ (tokFull r = true →
      let i := r.item
      let sound := crc32c (memBytes s i.addr i.len) = i.crc
      let u := if tokOverflows r = true then raiseErr s 0x0905 i.slot else s
      let left (t : State) : State := settleUnits (settleUnits { t with tok := { t.tok with run := none, cores := [] } } .tok) .mdc
      let bad (v : State) (code : Nat) : State := freeBuffers { v with
        bat := { v.bat with results := v.bat.results ++ [{ slot := i.slot, sample := i.sample, out := { code := code } }] } } i.slot [r.buffer]
      (sound → r.corrupt = 0 → exec .tokSampleOutcome s = .next (tokWrite (left u) r))
      ∧ (sound → r.corrupt ≠ 0 → exec .tokSampleOutcome s = .next (bad (left u) r.corrupt))
      ∧ (¬ sound → r.corrupt = 0 → exec .tokSampleOutcome s = .next (bad (left (raiseErr u 0x0903 i.slot)) 0x0903))
      ∧ (¬ sound → r.corrupt ≠ 0 → exec .tokSampleOutcome s = .next (bad (left (raiseErr u 0x0903 i.slot)) r.corrupt))))
  ) ∧ (
  (∀ (s : State) (via : Via) (v : Nat), Takes s via 0x4800 4 (leBytes 1 v) → s.fed.electing = false →
    let u := arriving s via 0x4800 4 (leBytes 1 v)
    (tokUsers s ≠ 0 → exec (.tokTableLoad via v) s = .next (dictAbort u via (abortCode 8 (objDetail 0x4800 7))))
    ∧ (tokUsers s = 0 → exec (.tokTableLoad via v) s = .next
        (keepBefore (startLong (objSet { u with tok := { u.tok with table := {} } } 0x4800 5 0) via 0x4800 4 (leBytes 1 v) true 0)
          via 0x4800 (.table s.tok.table (objGet s 0x4800 5)))))
  ∧ (∀ (s : State) (others : Bool),
    ((∀ l ∈ s.dict.long, l.index = 0x4800 → l.sub = 4 → l.localDone = true) → exec (.tokTableLoadComplete others) s = .next s)
    ∧ ((∃ l ∈ s.dict.long, l.index = 0x4800 ∧ l.sub = 4 ∧ l.localDone = false) →
      let addr := objGet s 0x4800 3
      let len := min (tokLength (tokHeader (memBytes s addr 64))) 4230788
      let b := memBytes s addr len
      memPoisoned s addr len = false →
      (∀ check entry, tokCheck b false = some (check, entry) → exec (.tokTableLoadComplete others) s = .next
        (localFinish (raiseErr s 0x0906 63) 0x4800 4 (abortCode 0x0E (check * 2 ^ 20 + entry))))
      ∧ (tokCheck b false = none →
        let u := objSet (objSet s 0x4800 5 (if otherDies s = [] ∨ others = true then 1 else 0)) 0x4800 6 (tokTable b).crc
        exec (.tokTableLoadComplete others) s = .next (localFinish { u with tok := { u.tok with table := tokTable b } } 0x4800 4 0))))
  )

/-- BAT_CHUNK_ASSIGN (R241, R242, R244, R229, R231): the home BAT assigns the next chunk and goes on as far as the outcomes known allow. A
reclaimed chunk goes first; a new one goes to the least loaded engine with fewer than CHUNKS_AHEAD outstanding, its excluded samples raised
and logged, else to a free record of the host's ring; with none it waits. Another engine of the stripe does what the home tells it: it
issues the positions named, in the home's epoch (R143, R232), or its command completes (R237). BAT_SAMPLE_OUTCOME (R233, R298): the outcome
of a position assigned to an engine settles, another engine's as it is told, this engine's own once its work has finished; a good result of
a wrong length is corrupt with BAT_LENGTH, and one of whose copy a part failed with the code of a PARTIAL delivery. A position not assigned,
excluded or already known is left. HOST_POLL (R243, R244): a record the host has finished is taken and its STATE is 0 again; one whose time
is up is marked 3, with BAT_HOST_TIMEOUT raised and its chunk to be assigned again; any other is left. Completion, on the conditions its
clauses give on the state and the operands alone, of: batChunkAssign, batSampleOutcome, hostPoll. -/
def Obligations.Batches : Prop :=
  (
  (∀ (s : State) (n : Nat) (b : BatStage), homeStage s n = some b →
    (b.stopped = false → unitsDispatch s = true → exec (.batChunkAssign n none) s =
        .next (batProgress (putBat (assignNext s b).1 (assignNext s b).2) (assignNext s b).2.cmd))
    ∧ (b.stopped = true ∨ unitsDispatch s = false → exec (.batChunkAssign n none) s = .next (batProgress s b.cmd))
    ∧ (∀ c rest d, b.reassign = c :: rest → leastLoaded s b = some d → outstanding b d < b.p.chunksAhead →
        let x := { b with reassign := rest, chunks := b.chunks ++ [(c, .engine d)] }
        let t := bump (issueChunk s x c d) 0x80B0 0x0A
        assignNext s b = (t, settleChunks t x))
    ∧ (∀ d t, b.reassign = [] → 256 * b.nextChunk < b.n → leastLoaded s b = some d → outstanding b d < b.p.chunksAhead →
        needCalls s b.slot (.chunk b.cmd b.epoch b.nextChunk) (chunkCalls s b b.nextChunk) = (t, true) →
        let e := logExcluded t { b with nextChunk := b.nextChunk + 1, chunks := b.chunks ++ [(b.nextChunk, .engine d)] } b.nextChunk
        let u := bump (issueChunk e.1 e.2 b.nextChunk d) 0x80B0 0x0A
        assignNext s b = (u, settleChunks u e.2))
    ∧ (b.reassign = [] → b.n ≤ 256 * b.nextChunk → assignNext s b = (s, b))
    ∧ (b.reassign = [] → 256 * b.nextChunk < b.n → (∀ d, leastLoaded s b = some d → b.p.chunksAhead ≤ outstanding b d) → b.p.hostEntries = 0 →
        assignNext s b = (s, b)))
  ∧ (∀ (s : State) (n : Nat) (b : BatStage), homeStage s n = none → memberStage s n = some b →
    (∀ e ps, exec (.batChunkAssign n (some (.issue e ps))) s =
        .next (ps.foldl (fun s p => issueSample s { b with epoch := e } p)
          (putBat (modSlot s b.slot (fun x => { x with epoch := some e })) { b with epoch := e })))
    ∧ exec (.batChunkAssign n (some .ended)) s =
        .next (finishCmd { s with bat := { s.bat with stages := s.bat.stages.filter (fun x => x.cmd != b.cmd) } } b.cmd 0 1 0))
  ) ∧ (
  (∀ (s : State) (n pos code : Nat) (result : List Byte) (norm : List (List Nat)) (truncated poisoned : Bool) (b : BatStage),
    homeStage s n = some b →
    let o : Outcome := { code := code, result := result, norm := norm, truncated := truncated, poisoned := poisoned }
    let act := exec (.batSampleOutcome n pos code result norm truncated poisoned) s
    (b.n ≤ pos ∨ (outcomeAt b pos ≠ none ∧ repeatAt b pos = none) ∨ excludedCode s b pos ≠ 0 ∨ assignedDie b pos = none → act = .next s)
    ∧ (pos < b.n → (outcomeAt b pos = none ∨ repeatAt b pos ≠ none) → excludedCode s b pos = 0 → ∀ d, assignedDie b pos = some d →
      (d ≠ dieId s → act = .next (settlePosition s b pos o))
      ∧ (d = dieId s → ownOutcome s b pos = none → act = .next s)
      ∧ (d = dieId s → ∀ t own, ownOutcome s b pos = some (t, own) → act = .next (settlePosition t b pos own))))
  ∧ (∀ (s : State) (b : BatStage) (pos : Nat) (o : Outcome), repeatAt b pos = none →
    let x := bucketAt b ((positionBucket s b pos).getD 0)
    let long := o.code = 0 ∧ (x.sampleBytes < o.result.length ∨ o.result.length % typeBytes x.elemType ≠ 0)
    let bad := o.code = 0 ∧ o.poisoned = true
    let e := settleOutcome s b pos o
    (long → outcomeAt e.2 pos = some { o with code := 0x0B05 } ∧ e.1 = raiseErr s 0x0B05 b.slot)
    ∧ (¬ long → bad → outcomeAt e.2 pos = some { o with code := 0x0E06 } ∧ e.1 = raiseErr s 0x0E06 b.slot)
    ∧ (¬ long → ¬ bad → outcomeAt e.2 pos = some o ∧ e.1 = s))
  ) ∧ (
  ∀ (s : State) (b : BatStage) (late : List Nat) (c r : Nat), memPoisoned s (hostRecord b r) 4 = false →
    (memNat s (hostRecord b r) 4 = 2 → pollRecord late s b c r = takeHost s b c r
      ∧ memBytes (takeHost s b c r).1 (hostRecord b r) 4 = [0, 0, 0, 0])
    ∧ (memNat s (hostRecord b r) 4 = 1 → r ∈ late →
      pollRecord late s b c r = (memWrite (raiseErr s 0x0B06 b.slot) (hostRecord b r) [3, 0, 0, 0],
        { b with chunks := b.chunks.filter (fun e => e.1 != c), reassign := b.reassign ++ [c] }))
    ∧ (memNat s (hostRecord b r) 4 ≠ 2 → memNat s (hostRecord b r) 4 ≠ 1 ∨ r ∉ late → pollRecord late s b c r = (s, b))
    ∧ (∀ n, homeStage s n = some b → hostChunks b = [(c, r)] →
      let e := pollRecord late s b c r
      let x := settleChunks e.1 e.2
      (x.stopped = true → exec (.hostPoll n late) s = .next (batProgress (putBat e.1 x) x.cmd))
      ∧ (x.stopped = false → unitsDispatch e.1 = true →
        exec (.hostPoll n late) s = .next (batProgress (putBat (assignNext e.1 x).1 (assignNext e.1 x).2) (assignNext e.1 x).2.cmd)))
  )

/-- POOL_ENABLE_WRITE and POOL_DISABLE_WRITE (R249, R344, R433): the write of 1 is checked, claims the pool's three regions and starts its
initialisation; the write of 0 waits for nothing and aborts with BUSY while a job has reserved or holds a buffer. POOL_INIT_COMPLETE (R249):
the pool is in service: its ring holds its indices in order, every state bit is 0, and its cache is empty; a pool not being initialised is
left. Completion, on the conditions its clauses give on the state and the operands alone, of: poolEnableWrite, poolInitComplete,
poolDisableWrite. -/
def Obligations.PoolsInService : Prop :=
  (
  (∀ (s : State) (via : Via) (p : Nat), p < 16 → Takes s via (poolIndex s p) 1 [1] →
    let i := poolIndex s p
    let u := arriving s via i 1 [1]
    let rs := (poolRegions u p).map (fun r => Res.region r.1 r.2)
    ((poolOf s p).enabled = true → exec (.poolEnableWrite via p) s = .next (dictDone u via))
    ∧ ((poolOf s p).enabled = false →
      (poolConfigCheck u p ≠ 0 → exec (.poolEnableWrite via p) s =
        .next (dictAbort (raiseErr u 0x0C06 63) via (abortCode 0x0F (poolConfigCheck u p))))
      ∧ (poolConfigCheck u p = 0 →
        (∀ h, claimBlocked u (objKey i 1) rs = some h → exec (.poolEnableWrite via p) s = .next (dictAbort u via (abortCode 9 h)))
        ∧ (claimBlocked u (objKey i 1) rs = none → exec (.poolEnableWrite via p) s =
          .next (startLong (setPool (claim u (objKey i 1) rs) p { poolOf s p with starting := true }) via i 1 [1] false 0)))))
  ∧ (∀ (s : State) (via : Via) (p : Nat), p < 16 → Takes s via (poolIndex s p) 1 [0] →
    let i := poolIndex s p
    let u := arriving s via i 1 [0]
    (poolReserved (poolOf s p) ≠ 0 → exec (.poolDisableWrite via p) s = .next (dictAbort u via (abortCode 8 (objDetail i 9))))
    ∧ (poolReserved (poolOf s p) = 0 → (poolOf s p).allocated ≠ [] →
      exec (.poolDisableWrite via p) s = .next (dictAbort u via (abortCode 8 (objDetail i 8))))
    ∧ (poolReserved (poolOf s p) = 0 → (poolOf s p).allocated = [] → (∀ e ∈ (poolOf s p).held, e.2 = 0) →
      exec (.poolDisableWrite via p) s = .next (dictDone (objSet (release (setPool u p {}) (objKey i 1)) i 1 0) via)))
  ) ∧ (
  ∀ (s : State) (p : Nat),
    ((poolOf s p).starting = false → exec (.poolInitComplete p) s = .next s)
    ∧ ((poolOf s p).starting = true → ∃ v, exec (.poolInitComplete p) s = .next (localFinish v (poolIndex s p) 1 0)
      ∧ (poolOf v p).enabled = true ∧ (poolOf v p).starting = false ∧ (poolOf v p).cache = [] ∧ (poolOf v p).inRing = poolBuffers s p
      ∧ (poolOf v p).head = 0 ∧ (poolOf v p).allocated = []
      ∧ memBytes v (poolStates s p) (ceilDiv (poolBuffers s p) 512 * 64) = List.replicate (ceilDiv (poolBuffers s p) 512 * 64) 0
      ∧ (poolRing s p + 4 * poolBuffers s p ≤ poolStates s p ∨ poolStates s p + ceilDiv (poolBuffers s p) 512 * 64 ≤ poolRing s p →
          memBytes v (poolRing s p) (4 * poolBuffers s p) = (List.range (poolBuffers s p)).flatMap (fun i => leBytes 4 i)))
  )

/-- POOL_ALLOC_REQUEST, POOL_ALLOC_GRANT and RETRY_BACKOFF_EXPIRY (R250, R251, R253, R256, R257, R259): a request is served from the
smallest enabled pool whose buffers hold it; one that none holds is answered with POOL_NO_FIT; a reserved one is granted at its acceptance,
an overflow one when the margin has room and R25 chooses its slot, else it waits. A granted request takes the newest index of the cache and
sets its state bit; the request granted longest ago takes the next index. Completion, on the conditions its clauses give on the state and
the operands alone, of: poolAllocRequest, poolAllocGrant, retryBackoffExpiry. -/
def Obligations.PoolRequests : Prop :=
  (∀ (s : State) (n size : Nat),
    (slotBusy s n = false → exec (.poolAllocRequest n size) s = .next s)
    ∧ (slotBusy s n = true →
      (poolFor s size = none → exec (.poolAllocRequest n size) s = .next
        (let u := raiseErr s 0x0C01 n
         { u with pools := { u.pools with answers := u.pools.answers ++ [{ slot := n, size := size, code := 0x0C01, addr := 0 }] } }))
      ∧ ∀ p, poolFor s size = some p →
        let x := poolOf s p
        let r : AllocReq := { slot := n, size := size, owner := .stage, reserved := false, blocked := true, since := s.boot.timeBase }
        let w := setPool s p { x with waits := x.waits ++ [r] }
        (heldCount x n < reservation x n → exec (.poolAllocRequest n size) s =
          .next (grantReq (arbGrant s (unitPool p) n (setAdd (movableSlots s p) [n])) p
            { slot := n, size := size, owner := .stage, reserved := true, blocked := false }))
        ∧ (reservation x n ≤ heldCount x n → marginInUse x < poolMargin s p → arbPick w (unitPool p) (movableSlots w p) = some n →
          exec (.poolAllocRequest n size) s = .next (moveBlocked w p 0))
        ∧ (reservation x n ≤ heldCount x n →
          poolMargin s p ≤ marginInUse x ∨ arbPick w (unitPool p) (movableSlots w p) ≠ some n →
          exec (.poolAllocRequest n size) s = .next w)))
  ∧ (∀ (s : State) (p k : Nat),
    let x := poolOf s p
    (∀ r, nextPromised x = some r → x.cache ≠ [] →
      exec (.poolAllocGrant p k) s = .next (takeIndex (setPool s p { x with waits := x.waits.erase r }) p r))
    ∧ (nextPromised x = none ∨ x.cache = [] → exec (.poolAllocGrant p k) s = .next (moveBlocked s p k))
    ∧ ∀ n r, arbPick s (unitPool p) (movableSlots s p) = some n → x.waits.find? (fun r => r.slot == n && canMove s p r) = some r →
      let u := bumpBy (arbGrant s (unitPool p) n (movableSlots s p)) 0x80C0 5 k
      let u := setPool u p { poolOf u p with waits := (poolOf u p).waits.erase r }
      (r.granted = true → moveBlocked s p k = awaitIndex u p r) ∧ (r.granted = false → moveBlocked s p k = grantReq u p r))
  ∧ (∀ (s : State) (p i : Nat) (rest : List Nat) (r : AllocReq), (poolOf s p).cache = i :: rest → r.owner = .stage → (poolOf s p).ops = [] →
      (∀ e ∈ (poolOf s p).damaged, e.1 ≠ i) →
      stateLinePoisoned s p i = false →
      ∃ t, takeIndex s p r = t ∧ (i, r.slot) ∈ (poolOf t p).allocated ∧ stateBit t p i = true
        ∧ { slot := r.slot, size := r.size, code := 0, addr := bufferAddr s p i } ∈ t.pools.answers)
  ∧ (∀ (s : State) (n unit : Nat), exec (.retryBackoffExpiry n unit) s =
      .next (setSlot s n { slotOf s n with backoff := setDel (slotOf s n).backoff [unit] }))

/-- POOL_FREE_REQUEST and POOL_FREE_CHECK (R252, R253, R254): a free of a buffer the job holds is accepted while the check queue has room,
else it waits; the oldest check clears the buffer's state bit and its index enters the cache; a bit already clear is a double free; the sets
accepted behind the check follow, and the frees that waited are accepted. POOL_REFILL_RETURN, POOL_SPILL_DONE and POOL_DEADLOCK (R251,
R258): a refill moves up to 64 indices from the ring's head to the cache; a spill stands at its tail; after more than DEADLOCK_WINDOW the
blocked requests of the least urgent blocked job end with RETRY_LATER. Completion, on the conditions its clauses give on the state and the
operands alone, of: poolRefillReturn, poolFreeRequest, poolFreeCheck, poolDeadlock, poolSpillDone. -/
def Obligations.PoolReturns : Prop :=
  (
  (∀ (s : State) (n addr : Nat),
    (slotBusy s n = false → exec (.poolFreeRequest n addr) s = .next s)
    ∧ (slotBusy s n = true →
      (bufferAt s addr = none → exec (.poolFreeRequest n addr) s = .next (raiseErr s 0x0C03 n))
      ∧ ∀ p i, bufferAt s addr = some (p, i) →
        let x := poolOf s p
        (64 ≤ checkCount x ∨ x.frees ≠ [] → exec (.poolFreeRequest n addr) s =
          .next (setPool s p { x with frees := x.frees ++ [{ slot := n, addr := addr, cmd := none }] }))
        ∧ (checkCount x < 64 → x.frees = [] → heldCount x n = 0 → exec (.poolFreeRequest n addr) s = .next (raiseErr s 0x0C03 n))
        ∧ (checkCount x < 64 → x.frees = [] → heldCount x n ≠ 0 → exec (.poolFreeRequest n addr) s = .next
            (modSlot (acceptOp (setPool s p { x with held := tblSet 0 x.held n (heldCount x n - 1) }) p (.check n i)) n
              (fun y => { y with allocs := y.allocs.erase addr })))))
  ∧ (∀ (s : State) (p n i : Nat) (bad : Bool) (rest : List BitOp),
    let x := poolOf s p
    x.ops = .check n i :: rest →
    (cacheRoom x = false → exec (.poolFreeCheck p bad) s = .next s)
    ∧ (cacheRoom x = true →
      let t := readStateLine (setPool s p { x with ops := rest }) p i n bad
      let u := runSets (checkFree t p n i) p rest
      let v := acceptWaiting p (poolOf u p).frees u
      exec (.poolFreeCheck p bad) s = .next (slotNumbers.foldl endWaiting (poolBalance v p))))
  ∧ (∀ (s : State) (p n i : Nat),
    let x := poolOf s p
    (i ∈ x.quarantined →
      checkFree s p n i = bump (setPool s p { x with allocated := x.allocated.filter (fun e => e.1 != i) }) 0x80C0 2)
    ∧ (i ∉ x.quarantined → stateBit s p i = true →
      checkFree s p n i = setPool (bump (setStateBit s p i false) 0x80C0 2) p
        { x with cache := i :: x.cache, allocated := x.allocated.filter (fun e => e.1 != i) })
    ∧ (i ∉ x.quarantined → stateBit s p i = false →
      checkFree s p n i = blockExcess (raiseErr (setPool s p { x with held := tblSet 0 x.held n (heldCount x n + 1) }) 0x0C04 n) p))
  ) ∧ (
  (∀ (s : State) (p : Nat), (poolOf s p).refill = false → ∀ bad e, exec (.poolRefillReturn p bad e) s = .next s)
  ∧ (∀ (s : State) (p : Nat),
    let x := poolOf s p
    let n := min 64 x.inRing
    x.refill = true → x.quarantined = [] → x.lost = 0 → (∀ i, i < n → memPoisoned s (ringAddr s p x.head i) 4 = false) →
    exec (.poolRefillReturn p [] []) s = .next (poolBalance (lowWater (setPool s p { x with
      refill := false, head := (x.head + n) % poolCap s p, inRing := x.inRing - n,
      cache := ((List.range n).map (fun i => memNat s (ringAddr s p x.head i) 4 % 2 ^ 22)).reverse ++ x.cache }) p) p))
  ∧ (∀ (s : State) (p : Nat), (poolOf s p).spill = [] → exec (.poolSpillDone p) s = .next s)
  ∧ (∀ (s : State) (p i : Nat),
    let x := poolOf s p
    x.spill = [i] → i ∉ x.quarantined → x.damaged = [] →
    exec (.poolSpillDone p) s = .next (poolBalance (setPool (memWrite s (ringAddr s p x.tail 0) (leBytes 4 i)) p
      { x with spill := [], tail := (x.tail + 1) % poolCap s p, inRing := x.inRing + 1 }) p))
  ∧ (∀ (s : State) (w k : Nat),
    (w ≤ objGet s 0x6000 3 * 2000 → exec (.poolDeadlock w k) s = .next s)
    ∧ (objGet s 0x6000 3 * 2000 < w →
      (deadlockSlot s = none → exec (.poolDeadlock w k) s = .next s)
      ∧ ∀ n, deadlockSlot s = some n → ∃ t,
        exec (.poolDeadlock w k) s = .next (((blockedReqs s).filter (fun e => e.2.slot == n)).foldl (fun s e => answer s e.2 0x0C08 0) t)
        ∧ t.objs = (raiseErr (bumpBy s 0x80C0 5 k) 0x0C05 n).objs ∧ t.pools.answers = s.pools.answers
        ∧ ∀ p, p < 16 → (poolOf t p).waits = (poolOf s p).waits.filter (fun r => !(r.blocked && r.slot == n))
          ∧ heldCount (poolOf t p) n = heldCount (poolOf s p) n - (poolOf s p).waits.countP (fun r => r.blocked && r.slot == n && r.granted)))
  )

/-- DLV_ITEM_DISPATCH and MEM_READ_RETURN (R290, R291, R412): of the slots whose earliest waiting item can reserve its staging the one the
round robin chooses has it started with the lowest staging units free. The streams feed the fetch ports, a port sends its requests in order,
and one that has been sent returns; a read joins a request not yet sent whose 4 KiB window it lies in and which it touches, else enters its
port's queue of 64, or waits; after an error response every requester's granule is an error's. MCAST_CREDIT_RETURN and STRAGGLER_TIMEOUT
(R292, R293, R294, R297): the group sends its next line only while every attached receiver holds a credit; a returned credit acknowledges a
line, once, as written or as dropped there, and lets the group go on, a receiver never holding more than 64; with the straggler's timer
enabled, every receiver the group has stalled on is detached from its first line not acknowledged, with the lines buffered for it given up,
and one on another die is told to discard them. Completion, on the conditions its clauses give on the state and the operands alone, of:
dlvItemDispatch, memReadReturn, mcastCreditReturn, stragglerTimeout. -/
def Obligations.Deliveries : Prop :=
  (
  (∀ (s : State),
    let slots := slotNumbers.filter (fun n =>
      match firstUndispatched s n with
      | some x => unitsNeeded s x ≤ (sharedFree s).length
      | none => false)
    (slots = [] ∨ unitsDispatch s = false → exec .dlvItemDispatch s = .next s)
    ∧ ∀ n x, unitsDispatch s = true → arbPick s unitDlv slots = some n → firstUndispatched s n = some x →
      unitsNeeded s x ≤ (sharedFree s).length →
      let us := (sharedFree s).take (unitsNeeded s x)
      exec .dlvItemDispatch s = .next (startItem (arbGrant
        { s with dlv := { s.dlv with reservedUnits := setAdd s.dlv.reservedUnits us } } unitDlv n slots) x.id us))
  ∧ (∀ (s : State) (port sent which : Nat) (error : Bool),
    (unitsWork s = false → exec (.memReadReturn port sent which error) s = .next s)
    ∧ (unitsWork s = true →
      let u := sendReads (feedPorts s) port sent
      (((fetchQueue u port).filter (·.sent))[which]? = none → exec (.memReadReturn port sent which error) s = .next u)
      ∧ ∀ r, ((fetchQueue u port).filter (·.sent))[which]? = some r →
        exec (.memReadReturn port sent which error) s = .next (takeReads (setFetchQueue u port ((fetchQueue u port).erase r)) r error)))
  ∧ (∀ (r : FetchReq) (g : Nat), r.meets g = true ↔ r.sent = false ∧ r.lo / 64 = g / 64 ∧ r.lo ≤ g + 1 ∧ g ≤ r.hi)
  ∧ (∀ (s : State) (id tile g : Nat),
    let q := fetchQueue s (g / 64 % 4)
    ((∃ r ∈ q, r.meets g = true) → (fetchQueue (enterRead s id (tile, g)) (g / 64 % 4)).length = q.length
      ∧ objGet (enterRead s id (tile, g)) 0x80E0 0x13 = satAdd (objGet s 0x80E0 0x13) 1)
    ∧ ((∀ r ∈ q, r.meets g = false) → q.length < 64 →
      fetchQueue (enterRead s id (tile, g)) (g / 64 % 4) = q ++ [{ lo := g, hi := g + 1, users := [(id, tile, g)] }])
    ∧ ((∀ r ∈ q, r.meets g = false) → 64 ≤ q.length → enterRead s id (tile, g) = s))
  ∧ (∀ (s : State) (failed bad : Bool) (id tile g : Nat) (x : Dlv), dlvOf s id = some x →
    dlvOf (readBack s failed bad (id, tile, g)) id = some { x with
      coming := x.coming.erase (tile, g)
      errors := if failed then setAdd x.errors [g] else x.errors
      soiled := if bad then setAdd x.soiled [g] else x.soiled })
  ) ∧ (
  (∀ (s : State) (id : Nat) (x : Dlv), dlvOf s id = some x → (∃ r ∈ x.attached, r.credits = 0) ∨ windowOpen s x.due = false →
    ∀ f, pumpGroup f s id = s)
  ∧ (∀ (s : State) (item die dst num k : Nat) (drop : Bool) (x : Dlv), dlvOf s item = some x →
    let open_ (r : Remote) : Bool := r.die == die && r.dst == dst && !r.own && !r.gone && (num < r.sent || r.detached)
    (x.remotes.find? open_ = none → exec (.mcastCreditReturn item die dst num drop k) s = .next s)
    ∧ ∀ r l, x.remotes.find? open_ = some r → (x.linesFor dst)[num]? = some l →
      let u := bumpBy s 0x80E0 0x14 k
      let rs := x.remotes.map (fun q => if q == r then { q with acks := setAdd q.acks [num], credits := min 64 (q.credits + 1) } else q)
      (num ∈ r.acks → exec (.mcastCreditReturn item die dst num drop k) s = .next (advanceDlv (modDlv u item (fun _ => { x with remotes := rs })) item))
      ∧ (num ∉ r.acks → drop = false → exec (.mcastCreditReturn item die dst num drop k) s = .next (advanceDlv (modDlv u item (fun _ => { x with
        written := x.written + 1, poisonedLines := if l.poison then x.poisonedLines + 1 else x.poisonedLines, remotes := rs })) item))
      ∧ (num ∉ r.acks → drop = true → exec (.mcastCreditReturn item die dst num drop k) s = .next (advanceDlv (modDlv u item (fun _ => { (x.fail r.die l) with
        dropped := x.dropped + 1, late := true, status := if x.status == 0 then 0x0E05 else x.status, remotes := rs })) item)))
  ∧ (∀ (s : State) (item : Nat) (x : Dlv), dlvOf s item = some x →
    let lost := stalledOn s x
    (objGet s 0x6801 4 = 0 ∨ lost = [] → exec (.stragglerTimeout item) s = .next s)
    ∧ (objGet s 0x6801 4 ≠ 0 → lost ≠ [] →
      exec (.stragglerTimeout item) s = .next
        (advanceDlv (modDlv ((lost.filter (!·.own)).foldl (fun s r => sendNotice s x r.die r.dst .discard)
          (lost.foldl (fun s _ => dlvError s item 0x0E04) (bumpBy s 0x80E0 0x14 (objGet s 0x6801 6 * 2000)))) item
          (fun y => { y with
            catchups := y.catchups ++ lost.map (fun r => (r.die, r.dst))
            ready := y.ready.filter (fun l => !lost.any (fun r => r.own && r.dst == l.dst))
            remotes := y.remotes.map (fun r =>
              if lost.contains r then { r with detached := true, credits := 64, sent := r.firstLeft, closed := false } else r) })) item)))
  )

/-- DLV_PORT_WRITE, SP_WACK and D2D_LINE_RECEIVED (R29, R289, R292, R294, R296, R297): a port takes, of the slot the round robin chooses,
the first line in the order of R289 of the earliest item in an open window; it is written, or dropped when its bank is off. The oldest line
in flight on a port is accepted first, which ends the wait for a bank's acknowledgement when it was the last; its item's sender learns of
it. A line from another die joins its item here, made by the first that is heard of it; a notice opens the item, ends it or discards what it
holds. The bank power handshake (R296): a request stops new lines and is acknowledged once no line to the bank is in flight, which counts
it; its withdrawal takes the acknowledgement back; a bank that comes on lets its held lines proceed; one that goes off holds its lines when
its request was acknowledged. No bank but the one named changes. Completion, on the conditions its clauses give on the state and the
operands alone, of: dlvPortWrite, spWack, d2dLineReceived, bankPdReqAssert, bankPdReqWithdraw, bankOnRise, bankOnFall. -/
def Obligations.ScratchpadPorts : Prop :=
  (
  (∀ (s : State) (port : Nat),
    (portPick s port = none ∨ unitsWork s = false → exec (.dlvPortWrite port .clean) s = .next s)
    ∧ ∀ x l slots, portPick s port = some (x, l, slots) → unitsWork s = true →
      let u := arbGrant s (unitPort port) x.slot slots
      windowOpen s x.due = true ∧ l ∈ x.ready ∧ linePort l.addr = port
      ∧ ((bankOf s (lineBank l.addr)).on = false → exec (.dlvPortWrite port .clean) s = .next (advanceDlv (dropLine u x.id l) x.id))
      ∧ ((bankOf s (lineBank l.addr)).on = true → exec (.dlvPortWrite port .clean) s = .next
          (writeLine (modDlv u x.id (fun x => { x with ready := x.ready.erase l, flight := x.flight + 1 })) port x l)))
  ∧ (∀ (s : State) (port : Nat),
    (tblGet [] s.dlv.ports port = [] → exec (.spWack port) s = .next s)
    ∧ ∀ f rest, tblGet [] s.dlv.ports port = f :: rest →
      let k := lineBank f.line.addr
      let b := bankOf s k
      (dlvOf s f.item = none → ∃ t, exec (.spWack port) s = .next t ∧ t.mem = s.mem ∧ tblGet [] t.dlv.ports port = rest
        ∧ bankOf t k = { b with flight := b.flight - 1, ack := b.ack || (b.req && b.flight - 1 == 0) }
        ∧ objGet t 0x80E0 0x10 = satAdd (objGet s 0x80E0 0x10) 1)
      ∧ ∀ x die item dst, dlvOf s f.item = some x → x.owner = .remote die item dst →
        let u := bankAck (setBank { s with dlv := { s.dlv with ports := tblSet [] s.dlv.ports port rest } } k { b with flight := b.flight - 1 }) k
        exec (.spWack port) s = .next (advanceDlv (modDlv (send (lineLeaves (bump u 0x80E0 0x10) f.line.lane)
            (.credit die item dst f.line.num false)) f.item (fun x => { x with
          flight := x.flight - 1, written := x.written + 1, laneLast := some (f.line.part % 2 == 1), remotes := x.ackOwn f.line
          poisonedLines := if f.line.poison then x.poisonedLines + 1 else x.poisonedLines })) f.item))
  ∧ (∀ (s : State) (die item dst slot tag due : Nat) (what : DlvMsg), unitsWork s = false →
      exec (.d2dLineReceived die item dst what slot tag due) s = .next s)
  ∧ (∀ (s : State) (die item dst slot tag due num rank : Nat) (line : Line) (last : Bool), unitsWork s = true →
    let l : OutLine := { dst := dst, addr := line.addr, space := 1, data := line.data, poison := line.poison, num := num, rank := rank }
    let x : Dlv := { id := 0, owner := .remote die item dst, slot := slot, tag := tag, due := due, scratch := true, local_ := true,
                     dispatched := true, open_ := true }
    (∀ x, awayItem s die item dst = some x → exec (.d2dLineReceived die item dst (.line line num rank last) slot tag due) s =
      .next (modDlv s x.id (fun x => { x with ready := x.ready ++ [l], open_ := !last })))
    ∧ (awayItem s die item dst = none →
      exec (.d2dLineReceived die item dst (.line line num rank last) slot tag due) s =
        .next (modAway (addDlv s x) die item dst (fun x => { x with ready := x.ready ++ [l], open_ := !last }))
      ∧ exec (.d2dLineReceived die item dst (.notice (.announce true false)) slot tag due) s = .next (addDlv s x)))
  ∧ (∀ (s : State) (die item dst slot tag due : Nat) (x : Dlv), unitsWork s = true → awayItem s die item dst = some x →
    exec (.d2dLineReceived die item dst (.notice .closed) slot tag due) s =
      .next (advanceDlv (modDlv s x.id (fun x => { x with open_ := false })) x.id)
    ∧ exec (.d2dLineReceived die item dst (.notice .discard) slot tag due) s =
      .next (modDlv s x.id (fun x => { x with ready := [], open_ := true }))
    ∧ exec (.d2dLineReceived die item dst (.notice (.announce true false)) slot tag due) s = .next s)
  ) ∧ (
  ∀ (s : State) (b : Nat),
    let x := bankOf s b
    (∃ t, exec (.bankPdReqAssert b) s = .next t ∧ bankOf t b = { x with req := true, ack := x.ack || x.flight == 0 }
      ∧ (∀ k, k ≠ b → bankOf t k = bankOf s k)
      ∧ objGet t 0x80E0 0x17 = if x.ack = false ∧ x.flight = 0 then satAdd (objGet s 0x80E0 0x17) 1 else objGet s 0x80E0 0x17)
    ∧ (∃ t, exec (.bankPdReqWithdraw b) s = .next t ∧ bankOf t b = { x with req := false, ack := false } ∧ ∀ k, k ≠ b → bankOf t k = bankOf s k)
    ∧ (∃ t, exec (.bankOnRise b) s = .next t ∧ bankOf t b = { x with on := true, parked := false } ∧ ∀ k, k ≠ b → bankOf t k = bankOf s k)
    ∧ (∃ t, exec (.bankOnFall b) s = .next t ∧ bankOf t b = { x with on := false, parked := x.ack } ∧ ∀ k, k ≠ b → bankOf t k = bankOf s k)
  )

/-- Every write of an object is looked at before it has any effect (R330 to R335, R338, R340): while no request is served nothing changes; a
busy mailbox discards the request and counts it; one in a segmented transfer ends that transfer; a write that fails a check aborts with the
code of the first check it fails, one of more than 8 bytes through the window as one without bytes (R337); and a write of a subindex that no
table lists completes with no effect. -/
def Obligations.WritesRefused : Prop :=
  ∀ (c : Instr) (s : State) (via : Via) (index sub : Nat) (data : List Byte), writeRow s c = some (via, index, sub, data) →
    (dictServes s = false → exec c s = .next s)
    ∧ (∀ m, dictServes s = true → via = .mailbox m → (mailboxOf s m).busy = true → exec c s = .next (bump s 0x8100 3))
    ∧ (∀ m, dictServes s = true → via = .mailbox m → (mailboxOf s m).busy = false → (mailboxOf s m).xfer ≠ none →
        exec c s = .next (endTransfer s m 2))
    ∧ (∀ d, MayAsk s via → (d = data ∧ ((∀ k, via ≠ .window k) ∨ data.length ≤ 8)) ∨ (d = [] ∧ (∃ k, via = .window k) ∧ 8 < data.length) →
      (∀ code, writeVerdict s via index sub d = .abort code → exec c s = .next (dictAbort (asking s via data.length) via code))
      ∧ (writeVerdict s via index sub d = .discard → exec c s = .next (dictDone (startWrite s via index sub data) via)))

/-- What an abort leaves (R337, R338, R342): DICT_ABORTS counts it, a mailbox is no longer busy and shows the code with SEQ raised by 1, and
a core's WIN_ABORT holds it. DICT_WRITE (R332, R333): a write that passes has its object's effect; an object that only holds a value takes
the value written. Completion, on the conditions its clauses give on the state and the operands alone, of: dictWrite. -/
def Obligations.ObjectsWritten : Prop :=
  (
  ∀ (s : State) (code : Nat), code / 2 ^ 24 % 64 ≤ 47 →
    (∀ via, objGet (dictAbort s via code) 0x8100 2 = satAdd (objGet s 0x8100 2) 1)
    ∧ (∀ m, mailboxOf (dictAbort s (.mailbox m) code) m = { mailboxOf s m with
        busy := false, abort := code, seq := ((mailboxOf s m).seq + 1) % 256,
        segBytes := if code = 0 then (mailboxOf s m).nextBytes else 0, last := (mailboxOf s m).nextLast, nextBytes := 0, nextLast := false })
    ∧ (∀ c, code ≠ 0 → tblGet 0 (dictAbort s (.window c) code).dict.winAbort c = code)
    ∧ (∀ via, (dictAbort s via code).mem = s.mem ∧ (dictAbort s via code).slots = s.slots ∧ (dictAbort s via code).cmds = s.cmds)
  ) ∧ (
  (∀ (s : State) (via : Via) (index sub : Nat) (data : List Byte), via ≠ .link → Takes s via index sub data →
    exec (.dictWrite via index sub data) s = .next (dictEffect via index sub data (arriving s via index sub data))
    ∧ (plainIndex index = true → sub < 256 → ∃ t, exec (.dictWrite via index sub data) s = .next t
        ∧ t = dictDone (objSet (arriving s via index sub data) index sub (leNat data)) via
        ∧ objGet t index sub = leNat data ∧ t.slots = s.slots ∧ t.cmds = s.cmds ∧ t.mem = s.mem))
  ∧ (∀ (s : State) (index sub : Nat) (data : List Byte),
    (dictServes s = false → exec (.dictWrite .link index sub data) s = .next s)
    ∧ (dictServes s = true → writeVerdict s .link index sub data = .go →
      exec (.dictWrite .link index sub data) s = .next (dictEffect .link index sub data
        (traceRec s 7 0 63 0xFF (objDetail index sub) (if data.length ≤ 8 then leNat data else data.length)))))
  )

/-- ALIAS_READ, ALIAS_WRITE and WIN_ABORT_READ (R336, R337): a core's read of a window slot of this engine returns the bytes of the object's
value, or all ones with the error response and the abort in WIN_ABORT; its write carries as many bytes as the object has, with zeros beyond
it. Beyond the slots a read returns a transfer mailbox's words, and zero past them, and a write changes nothing; an engine that serves no
request changes nothing. A read of WIN_ABORT clears it. Completion, on the conditions its clauses give on the state and the operands alone,
of: aliasRead, aliasWrite, winAbortRead. -/
def Obligations.WindowAccesses : Prop :=
  (∀ (s : State) (core offset width ra rd v : Nat) (bad : Bool),
    (dictServes s = false → exec (.aliasRead core offset width bad ra rd) s = .next s)
    ∧ (dictServes s = false ∨ aliasSpace ≤ offset → exec (.aliasWrite core offset width v ra) s = .next s)
    ∧ (dictServes s = true → aliasSpace ≤ offset → ∃ t, exec (.aliasRead core offset width bad ra rd) s = .next t
      ∧ tblGet false t.dict.readError core = false
      ∧ (∀ m, m < 5 → offset = aliasSpace + 0x1000 * m → width = 8 → tblGet 0 t.dict.readBack core = (mailboxOf s m).word % 2 ^ 64)
      ∧ (aliasSpace + 0x5000 ≤ offset → tblGet 0 t.dict.readBack core = 0)))
  ∧ (∀ (s : State) (core offset width ra rd : Nat), dictServes s = true → offset < aliasSpace →
    reach s 0xF (aliasIndex offset) = .here →
    let i := aliasIndex offset
    let k := aliasSub offset
    (∀ c bad, readVerdict s i k = some c → c ≠ 0 → ∃ t, exec (.aliasRead core offset width bad ra rd) s = .next t
      ∧ tblGet 0 t.dict.readBack core = 2 ^ (8 * width) - 1 ∧ tblGet false t.dict.readError core = true ∧ tblGet 0 t.dict.winAbort core = c)
    ∧ (readVerdict s i k = none → isBlob i k = false → offset % 8 + width ≤ 8 → i ≠ 0x2001 →
      ∃ t, exec (.aliasRead core offset width false ra rd) s = .next t
      ∧ tblGet 0 t.dict.readBack core = leNat (((objValue s i k).1.drop (offset % 8)).take width) ∧ tblGet false t.dict.readError core = false)
    ∧ (∀ r size v, objRow i k = some r → r.ty.size = some size → offset % 8 = 0 → size ≤ width → v < 256 ^ size →
      writeVerdict s (.window core) i k (leBytes size v) = .go →
      exec (.aliasWrite core offset width v ra) s = .next (dictEffect (.window core) i k (leBytes size v)
        (arriving s (.window core) i k (leBytes size v)))))
  ∧ (∀ (s : State) (core : Nat), dictServes s = true → headCountClosed s = true → s.boot.failed = false → core < 4 →
    postedWrites s core = false → ∃ t, exec (.winAbortRead core) s = .next t
      ∧ tblGet 0 t.dict.readBack core = tblGet 0 s.dict.winAbort core % 2 ^ 32 ∧ tblGet 0 t.dict.winAbort core = 0)

/-- The requests of a mailbox (R338, R339, R340): an expedited read returns the value in the data word, with its length in SEG_BYTES; an
expedited write has the object's effect with the bytes of the data word, none when it names more than 8; a segmented read puts the length
into the data word and opens its transfer; a segmented write opens its transfer with the total length that the data word holds. SEGMENT,
CANCEL and DICT_SEG_TIMEOUT (R340, R341): within a transfer a segment of the wrong object aborts it with TRANSFER detail 2, of the wrong
toggle with 1, of a bad length with 3, a write beyond its total with 4; a cancel ends it with 6 and the time without a segment with 5. A
segment of a read moves the next bytes into the segment area, and the last one ends the transfer. Completion, on the conditions its clauses
give on the state and the operands alone, of: expeditedRead, expeditedWrite, segmentedReadStart, segmentedWriteStart, segment, cancel,
dictSegTimeout. -/
def Obligations.Mailboxes : Prop :=
  (
  ∀ (s : State) (w : MailboxWrite), dictServes s = true → w.mailbox < 5 → w.offset = 0 → w.width = 8 →
    (mailboxOf s w.mailbox).busy = false → (mailboxOf s w.mailbox).xfer = none →
    let i := reqIndex w.word
    let k := reqSub w.word
    let u := beginRequest (setMailbox s w.mailbox { mailboxOf s w.mailbox with data := w.data % 2 ^ 64, area := w.area }) w.mailbox w.word 0 false
    reach s (reqTarget w.word) i = .here →
    (reqOp w.word = 1 → readVerdict s i k = none → (objValue u i k).1.length ≤ 8 → w.poisoned = false →
      winAbortWaits s i k = false →
      ∃ t, exec (.expeditedRead w) s = .next t ∧ (mailboxOf t w.mailbox).busy = false ∧ (mailboxOf t w.mailbox).abort = 0
        ∧ (mailboxOf t w.mailbox).data = leNat (objValue u i k).1 ∧ (mailboxOf t w.mailbox).segBytes = (objValue u i k).1.length)
    ∧ (reqOp w.word = 2 →
      exec (.expeditedWrite w) s = .next (dictWriteWith dictEffect (.mailbox w.mailbox) i k
        (if reqLen w.word ≤ 8 then leBytes (reqLen w.word) (w.data % 2 ^ 64) else [])
        (setMoved u w.mailbox (reqLen w.word) false)))
    ∧ (reqOp w.word = 3 → readVerdict s i k = none → (objValue u i k).1 ≠ [] → w.poisoned = false →
      winAbortWaits s i k = false →
      ∃ t x, exec (.segmentedReadStart w) s = .next t ∧ (mailboxOf t w.mailbox).busy = false ∧ (mailboxOf t w.mailbox).abort = 0
        ∧ (mailboxOf t w.mailbox).data = (objValue u i k).1.length ∧ (mailboxOf t w.mailbox).xfer = some x
        ∧ x.write = false ∧ x.data = (objValue u i k).1 ∧ x.moved = 0 ∧ x.toggle = false)
    ∧ (reqOp w.word = 4 → w.data % 2 ^ 32 ≠ 0 →
      verdictBy u (.mailbox w.mailbox) i k (fun r => lengthAbort r (w.data % 2 ^ 32)) = .go →
      ∃ t x, exec (.segmentedWriteStart w) s = .next t ∧ (mailboxOf t w.mailbox).busy = false ∧ (mailboxOf t w.mailbox).abort = 0
        ∧ (mailboxOf t w.mailbox).xfer = some x ∧ x.write = true ∧ x.index = i ∧ x.sub = k ∧ x.total = w.data % 2 ^ 32 ∧ x.moved = 0
        ∧ x.data = [] ∧ x.toggle = false)
    ∧ (reqOp w.word = 5 → exec (.segment w) s = .next (dictAbort u (.mailbox w.mailbox) (abortCode 0x0B 2)))
  ) ∧ (
  (∀ (s : State) (w : MailboxWrite) (x : Xfer), dictServes s = true → w.mailbox < 5 → w.offset = 0 → w.width = 8 →
    (mailboxOf s w.mailbox).busy = false → (mailboxOf s w.mailbox).xfer = some x →
    let m := w.mailbox
    let v := setMailbox s m { mailboxOf s m with data := w.data % 2 ^ 64, area := w.area }
    let u := beginRequest v m w.word 0 false
    let named := reqIndex w.word = x.index ∧ reqSub w.word = x.sub ∧ reqTarget w.word = x.target
    (reqOp w.word = 6 → exec (.cancel w) s = .next (endTransfer (beginRequest v m w.word 0 true) m 6))
    ∧ (reqOp w.word = 5 →
      (¬ named → exec (.segment w) s = .next (endTransfer u m 2))
      ∧ (named → reqToggle w.word ≠ x.toggle → exec (.segment w) s = .next (endTransfer u m 1))
      ∧ (named → reqToggle w.word = x.toggle →
        (reqLen w.word = 0 ∨ 2048 < reqLen w.word → exec (.segment w) s = .next (endTransfer u m 3))
        ∧ (reqLen w.word ≠ 0 → reqLen w.word ≤ 2048 →
          (x.write = true → x.total < x.moved + reqLen w.word → exec (.segment w) s = .next (endTransfer u m 4))
          ∧ (x.write = true → x.moved + reqLen w.word ≤ x.total → exec (.segment w) s = .next (writeSegment u w x))
          ∧ (x.write = false → reach s x.target x.index = .here → x.data.length = x.total →
            let n := min (reqLen w.word) (x.total - x.moved)
            ∃ t, exec (.segment w) s = .next t ∧ (mailboxOf t m).area = ((x.data.drop x.moved).take n ++ w.area.drop n)
              ∧ (mailboxOf t m).segBytes = n ∧ (mailboxOf t m).abort = 0 ∧ (mailboxOf t m).busy = false
              ∧ (mailboxOf t m).last = decide (x.total ≤ x.moved + n)
              ∧ (mailboxOf t m).xfer = if x.total ≤ x.moved + n then none
                  else some { x with moved := x.moved + n, toggle := !x.toggle })))))
  ∧ (∀ (s : State) (m : Nat),
    ((mailboxOf s m).xfer ≠ none → (mailboxOf s m).busy = false → exec (.dictSegTimeout m) s = .next (endTransfer s m 5))
    ∧ ((mailboxOf s m).xfer = none ∨ (mailboxOf s m).busy = true → exec (.dictSegTimeout m) s = .next s))
  ∧ (∀ (s : State) (w : MailboxWrite), reqOp w.word = 6 → dictServes s = true → w.mailbox < 5 → w.offset = 0 → w.width = 8 →
    (mailboxOf s w.mailbox).busy = true ∨ (mailboxOf s w.mailbox).xfer = none →
    exec (.cancel w) s = .next (setMailbox s w.mailbox { mailboxOf s w.mailbox with data := w.data % 2 ^ 64, area := w.area }))
  )

/-- EVT_TAKE and EVT_DONE (R348, R349, R350): a source pending at the core is taken, active at its present LEVEL; its end of service makes
it pending again while LATCH is 1; any other number aborts the write with RANGE. EVT_PEND_SET, EVT_PEND_CLEAR, EVT_LATCH_CLEAR and
EVT_SW_RAISE (R347, R348, R359): each source whose bit is written as 1 becomes pending when it has a TARGET, is no longer pending, has its
LATCH cleared, or fires when it is a software source; no other source's LATCH, FIRINGS or configuration changes. Completion, on the
conditions its clauses give on the state and the operands alone, of: evtTake, evtDone, evtPendSet, evtPendClear, evtLatchClear, evtSwRaise.
-/
def Obligations.EventsWritten : Prop :=
  (
  ∀ (s : State) (via : Via) (c n : Nat), n < 65536 →
    let x := srcOf s n
    (Takes s via (0x7600 + c) 4 (leBytes 2 n) →
      (n < 256 → x.pending = true → x.core = c → ∃ t, exec (.evtTake via c n) s = .next t
        ∧ srcOf t n = (if x.active = true then { x with pending := false } else { x with pending := false, active := true, level := x.cfgLevel })
        ∧ (∀ k, k ≠ n → srcOf t k = srcOf s k) ∧ objGet t 0x7700 0x60 = satAdd (objGet s 0x7700 0x60) 1
        ∧ t.slots = s.slots ∧ t.cmds = s.cmds ∧ t.mem = s.mem)
      ∧ (256 ≤ n ∨ x.pending = false ∨ x.core ≠ c → exec (.evtTake via c n) s = .next
          (dictAbort (arriving s via (0x7600 + c) 4 (leBytes 2 n)) via (abortCode 6 (objDetail (0x7600 + c) 4)))))
    ∧ (Takes s via (0x7600 + c) 5 (leBytes 2 n) →
      (n < 256 → x.active = true → x.core = c →
        (x.latch = false → ∃ t, exec (.evtDone via c n) s = .next t ∧ srcOf t n = { x with active := false, level := 0 }
          ∧ (∀ k, k ≠ n → srcOf t k = srcOf s k))
        ∧ (x.latch = true → ∃ t, exec (.evtDone via c n) s = .next t
          ∧ (srcOf t n).active = false ∧ (srcOf t n).pending = true ∧ (srcOf t n).latch = true))
      ∧ (256 ≤ n ∨ x.active = false ∨ x.core ≠ c → exec (.evtDone via c n) s = .next
          (dictAbort (arriving s via (0x7600 + c) 5 (leBytes 2 n)) via (abortCode 6 (objDetail (0x7600 + c) 5)))))
  ) ∧ (
  ∀ (s : State) (via : Via) (w bits : Nat), w < 8 → bits < 2 ^ 32 →
    let named (n : Nat) : Prop := n / 32 = w ∧ bits.testBit (n % 32) = true
    (Takes s via 0x7700 (0x20 + w) (leBytes 4 bits) → ∃ t, exec (.evtPendSet via w bits) s = .next t
      ∧ (∀ n, named n → (srcOf s n).target ≠ 0 → (srcOf t n).pending = true)
      ∧ (∀ n, (srcOf s n).target = 0 ∨ ¬ named n → srcOf t n = srcOf s n))
    ∧ (Takes s via 0x7700 (0x30 + w) (leBytes 4 bits) → ∃ t, exec (.evtPendClear via w bits) s = .next t
      ∧ (∀ n, named n → srcOf t n = { srcOf s n with pending := false }) ∧ (∀ n, ¬ named n → srcOf t n = srcOf s n))
    ∧ (Takes s via 0x7700 (0x40 + w) (leBytes 4 bits) → ∃ t, exec (.evtLatchClear via w bits) s = .next t
      ∧ (∀ n, named n → srcOf t n = { srcOf s n with latch := false }) ∧ (∀ n, ¬ named n → srcOf t n = srcOf s n))
    ∧ (Takes s via 0x7700 (0x48 + w) (leBytes 4 bits) → ∃ t, exec (.evtSwRaise via w bits) s = .next t
      ∧ (∀ n, named n → 128 ≤ n → n ≤ 191 → (srcOf t n).latch = true ∧ (srcOf t n).firings = satAdd (srcOf s n).firings 1
          ∧ (srcOf t n).lastCode = 0)
      ∧ (∀ n, ¬ (named n ∧ 128 ≤ n ∧ n ≤ 191) → (srcOf t n).latch = (srcOf s n).latch ∧ (srcOf t n).firings = (srcOf s n).firings))
  )

/-- A firing (R347, R348, R353): LATCH is 1, FIRINGS counts it and LAST_CODE holds its code; the source becomes pending at once when it is
enabled, has a TARGET and its group coalesces nothing, else its group holds it and counts it, from the first on under the limits of then;
one not enabled or without a TARGET changes nothing else. Sources that fire in one HCLK are latched in turn, then the hold-offs that are
full end, then all that is newly pending is routed in ascending number (R355). HOLDOFF_TIMER_EXPIRY, CORE_SLEEP_ENTER and CORE_SLEEP_EXIT
(R353, R354): a hold-off with a time is released and every firing it held that has a TARGET is pending; a core that goes to sleep cuts the
groups that hold for it short and has its wake request asserted when a source is pending at it; when it wakes its request falls. Completion,
on the conditions its clauses give on the state and the operands alone, of: holdoffTimerExpiry, coreSleepEnter, coreSleepExit. -/
def Obligations.EventsFire : Prop :=
  (
  ∀ (s : State) (n code : Nat),
    let x := srcOf s n
    let y := { x with latch := true, firings := satAdd x.firings 1, lastCode := code }
    (x.enabled = false ∨ x.target = 0 → holdsFull s (n / 16) = false → fire s n code = setSrc s n y)
    ∧ (x.enabled = true → x.target ≠ 0 → (grpOf s (n / 16)).running = false → objGet s (0x7500 + n / 16) 1 < 2 →
        objGet s (0x7500 + n / 16) 2 = 0 → fire s n code = setPending (setSrc s n y) n ∧ (srcOf (fire s n code) n).pending = true)
    ∧ (x.enabled = true → x.target ≠ 0 → targetAsleep s x.target = false → (grpOf s (n / 16)).running = false →
        2 ≤ objGet s (0x7500 + n / 16) 1 ∨ objGet s (0x7500 + n / 16) 2 ≠ 0 →
        srcOf (fire s n code) n = { y with held := true }
        ∧ grpOf (fire s n code) (n / 16) = { held := 1, running := true, limCount := objGet s (0x7500 + n / 16) 1,
                                              limTime := objGet s (0x7500 + n / 16) 2 })
    ∧ (∀ g, grpOf s (n / 16) = g → x.enabled = true → x.target ≠ 0 → targetAsleep s x.target = false → g.running = true →
        g.limCount < 2 ∨ g.held + 1 < g.limCount →
        srcOf (fire s n code) n = { y with held := true } ∧ grpOf (fire s n code) (n / 16) = { g with held := g.held + 1 })
    ∧ (∀ ns : List Nat, (∀ m ∈ ns, holdsFull (ns.foldl (fun s m => latchFiring s m code) s) (m / 16) = false) →
        fireAll s ns code = routeAll (ns.foldl (fun s m => latchFiring s m code) s)
          (ns.filter (fun m => (srcOf s m).enabled && (srcOf s m).target != 0 && !coalesces s m)))
  ) ∧ (
  (∀ (s : State) (g : Nat),
    ((grpOf s g).running = false ∨ (grpOf s g).limTime = 0 → exec (.holdoffTimerExpiry g) s = .next s)
    ∧ ((grpOf s g).running = true → (grpOf s g).limTime ≠ 0 → ∃ t, exec (.holdoffTimerExpiry g) s = .next t ∧ t = releaseGroup s g
        ∧ (grpOf t g).running = false ∧ (grpOf t g).held = 0
        ∧ (∀ e ∈ s.evt.srcs, e.1 / 16 = g → e.2.held = true → e.2.target ≠ 0 → srcOf s e.1 = e.2 → (srcOf t e.1).held = false ∧ (srcOf t e.1).pending = true)))
  ∧ (∀ (s : State) (c : Nat),
    let u := cutShort (setCore s c { coreOf s c with sleeping := true })
    (pendView u c = [] → exec (.coreSleepEnter c) s = .next u)
    ∧ (pendView u c ≠ [] → exec (.coreSleepEnter c) s = .next (wakeUp u c))
    ∧ exec (.coreSleepExit c) s = .next (setCore s c { sleeping := false, wake := false }))
  )

/-- EVT_CFG_WRITE, EVT_GRP_TIME_WRITE and CORE_MASK_WRITE (R348, R351, R353, R358): outside a re-election a source takes the 22 bits
written, losing PENDING when ENABLE is 0 and pending, routed with the sources its write cuts short, when ENABLE becomes 1 with LATCH set and
a TARGET; a group's time is stored with its timer claimed, or released by 0; a core's mask is stored. The writes that claim a timer or a pin
(R300, R343, R344, R345, R430): what is written is stored once the resource is the object's; one that another object holds aborts the write
with CLAIMED; 0, or 0xFF for a pin, releases it, and a pin left loses its pulse. A kick of the watchdog only completes; its expiry, while it
is enabled, counts and fires source 5; a pulse ends. Completion, on the conditions its clauses give on the state and the operands alone, of:
stragglerEnableWrite, epinAssignWrite, watchdogEnableWrite, watchdogKick, watchdogExpiry, pinPulseEnd, evtCfgWrite, evtGrpTimeWrite,
coreMaskWrite. -/
def Obligations.EventsConfigured : Prop :=
  (
  (∀ (s : State) (via : Via) (n v : Nat), n < 256 → v < 2 ^ 32 → Takes s via (0x7400 + n) 1 (leBytes 4 v) → s.fed.electing = false →
    let x := srcOf s n
    let y := { x with cfg := v % 2 ^ 22 }
    let u := arriving s via (0x7400 + n) 1 (leBytes 4 v)
    exec (.evtCfgWrite via n v) s = .next (packageDone (cutShortWith
      (setSrc u n (if y.enabled = true then y else { y with pending := false }))
      (if x.enabled = false ∧ y.enabled = true ∧ y.latch = true ∧ y.target ≠ 0 then [n] else [])) via (0x7400 + n) 1 (leBytes 4 v)))
  ∧ (∀ (s : State) (via : Via) (g v : Nat), g < 16 → v < 2 ^ 32 → Takes s via (0x7500 + g) 2 (leBytes 4 v) → s.fed.electing = false →
    let i := 0x7500 + g
    let u := arriving s via i 2 (leBytes 4 v)
    let rs := if v = 0 then [] else [Res.timer (objGet u i 3)]
    (∀ h, claimBlocked u (objKey i 3) rs = some h → exec (.evtGrpTimeWrite via g v) s = .next (dictAbort u via (abortCode 9 h)))
    ∧ (claimBlocked u (objKey i 3) rs = none → exec (.evtGrpTimeWrite via g v) s =
        .next (packageDone (objSet (claim u (objKey i 3) rs) i 2 v) via i 2 (leBytes 4 v))))
  ∧ (∀ (s : State) (via : Via) (c v : Nat), c < 4 → v < 256 → Takes s via (0x7600 + c) 1 (leBytes 1 v) →
    ∃ t, exec (.coreMaskWrite via c v) s = .next t ∧ t = dictDone (objSet (arriving s via (0x7600 + c) 1 (leBytes 1 v)) (0x7600 + c) 1 v) via
      ∧ objGet t (0x7600 + c) 1 = v ∧ (v ≠ 0 → eventLine t c = false))
  ) ∧ (
  (∀ (s : State) (c : Instr) (via : Via) (v i k holder : Nat) (r : State → Res), v < 256 →
    (c = .stragglerEnableWrite via v ∧ i = 0x6801 ∧ k = 4 ∧ holder = objKey 0x6801 5 ∧ r = (fun s => .timer (objGet s 0x6801 5))
      ∨ c = .watchdogEnableWrite via v ∧ i = 0x2050 ∧ k = 1 ∧ holder = objKey 0x2050 2 ∧ r = (fun s => .timer (objGet s 0x2050 2))) →
    Takes s via i k (leBytes 1 v) →
    let u := arriving s via i k (leBytes 1 v)
    let rs := if v = 0 then [] else [r u]
    (∀ h, claimBlocked u holder rs = some h → exec c s = .next (dictAbort u via (abortCode 9 h)))
    ∧ (claimBlocked u holder rs = none → exec c s = .next (dictDone (objSet (claim u holder rs) i k v) via)))
  ∧ (∀ (s : State) (via : Via) (k v : Nat), v < 256 → Takes s via 0x2040 k (leBytes 1 v) →
    let u := arriving s via 0x2040 k (leBytes 1 v)
    let rs := if v = 0xFF then [] else [Res.pin v]
    (∀ h, claimBlocked u (objKey 0x2040 k) rs = some h → exec (.epinAssignWrite via k v) s = .next (dictAbort u via (abortCode 9 h)))
    ∧ (claimBlocked u (objKey 0x2040 k) rs = none →
      let w := claim u (objKey 0x2040 k) rs
      (pinHeld s k = none ∨ pinHeld w k = pinHeld s k → exec (.epinAssignWrite via k v) s = .next (dictDone (objSet w 0x2040 k v) via))
      ∧ ∀ n, pinHeld s k = some n → pinHeld w k ≠ some n →
        exec (.epinAssignWrite via k v) s = .next (dictDone (objSet { w with pins := tblSet {} w.pins n {} } 0x2040 k v) via)))
  ∧ (∀ (s : State) (via : Via) (v : Nat), Takes s via 0x2050 4 (leBytes 1 v) →
    exec (.watchdogKick via v) s = .next (dictDone (arriving s via 0x2050 4 (leBytes 1 v)) via))
  ∧ (∀ (s : State),
    (objGet s 0x2050 1 = 1 → exec .watchdogExpiry s = .next (fire (bump s 0x2050 5) 5 0))
    ∧ (objGet s 0x2050 1 ≠ 1 → exec .watchdogExpiry s = .next s)
    ∧ ∀ p, ∃ t, exec (.pinPulseEnd p) s = .next t ∧ tblGet {} t.pins p = {} ∧ ∀ q, q ≠ p → tblGet {} t.pins q = tblGet {} s.pins q)
  )

/-- TRACE_ENABLE, TRACE_MARK and TRACE_RECORD_WRITE (R419): 1 claims the region and starts the buffer at its base, 0 releases it and stops;
a mark queues a record; the oldest record queued is written over the next 32 bytes of the region, in stop mode only while it has room, and
trace ends with source 208 when it is full; one that carries TRIGGER fires source 210. The data of an error's record is unstated (log entry
250). DEBUG_TRIGGER_IN, and the instructions of the test access port (R420, R421): a rising edge on the pin claimed queues a record and
fires source 209, starting or stopping the trace as asked; each instruction is held in the instruction register, its data register captures
(IDCODE its constant, DBG_STATUS its value, the others but the boundary register a 0), TDI's bits shift in as the captured ones leave by
TDO, and the boundary register, selected by SAMPLE/PRELOAD and in reset by EXTEST, is updated with them. No other part of the state changes.
That BYPASS captures 0 and bits shift lowest first is the model's (log entry 249). Completion, on the conditions its clauses give on the
state and the operands alone, of: traceEnable, traceMark, traceRecordWrite, debugTriggerIn, tapTestLogicReset, extest, samplePreload,
idcode, clamp, highz, dbgStatus, bypass. -/
def Obligations.Debug : Prop :=
  (
  (∀ (s : State) (via : Via) (v : Nat), v < 2 → Takes s via 0xA000 1 (leBytes 1 v) →
    let u := arriving s via 0xA000 1 (leBytes 1 v)
    (v = 0 → exec (.traceEnable via v) s = .next (dictDone (stopTrace u) via))
    ∧ (v = 1 → (∀ h, claimBlocked u (objKey 0xA000 1) [traceRegion u] = some h → exec (.traceEnable via v) s = .next (dictAbort u via (abortCode 9 h)))
      ∧ (claimBlocked u (objKey 0xA000 1) [traceRegion u] = none → exec (.traceEnable via v) s = .next (dictDone (startTrace u) via))))
  ∧ (∀ (s : State), objGet s 0xA000 1 = 0 → (startTrace s).trace = { running := true } ∧ objGet (startTrace s) 0xA000 1 = 1)
  ∧ (∀ (s : State) (via : Via) (v : Nat), v < 2 ^ 64 → Takes s via 0xA000 8 (leBytes 8 v) →
    exec (.traceMark via v) s = .next (dictDone (traceRec (arriving s via 0xA000 8 (leBytes 8 v)) 9 0 63 0 0 v) via))
  ∧ (∀ (s : State), (s.trace.queue = [] → exec .traceRecordWrite s = .next s)
    ∧ ∀ r rest, s.trace.queue = r :: rest →
      let cap := objGet s 0xA000 3 / 32
      (objGet s 0xA000 4 = 1 → cap ≤ s.trace.next → exec .traceRecordWrite s = .next { s with trace := { s.trace with queue := [] } })
      ∧ (objGet s 0xA000 4 ≠ 1 ∨ s.trace.next < cap →
        ∃ t, exec .traceRecordWrite s = .next t
          ∧ t.trace = { s.trace with
              queue := rest, next := s.trace.next + 1, overflow := false
              running := s.trace.running && !(objGet s 0xA000 4 == 1 && cap ≤ s.trace.next + 1) }
          ∧ (∃ a b, (r.kind ≠ 5 → a = r.data1 ∧ b = r.data0)
              ∧ memBytes t (objGet s 0xA000 2 + 32 * (s.trace.next % cap)) 32 = traceBytes s { r with data1 := a, data0 := b } s.trace.overflow)
          ∧ (r.trigger = true → (srcOf t 210).latch = true)
          ∧ (objGet s 0xA000 4 = 1 → cap ≤ s.trace.next + 1 → (srcOf t 208).latch = true)
          ∧ (∀ a n, a + n ≤ objGet s 0xA000 2 + 32 * (s.trace.next % cap) ∨ objGet s 0xA000 2 + 32 * (s.trace.next % cap) + 32 ≤ a →
              memBytes t a n = memBytes s a n)))
  ) ∧ (
  (∀ (s : State),
    let u := fire (traceRec s 8 0 63 0 0 0) 209 0
    (pinHeld s 2 = none ∨ s.boot.inReset = true → exec .debugTriggerIn s = .next s)
    ∧ (pinHeld s 2 ≠ none → s.boot.inReset = false →
      (objGet u 0xA000 7 = 1 → claimBlocked u (objKey 0xA000 1) [traceRegion u] = none → exec .debugTriggerIn s = .next (startTrace u))
      ∧ (objGet u 0xA000 7 = 1 → claimBlocked u (objKey 0xA000 1) [traceRegion u] ≠ none → exec .debugTriggerIn s = .next u)
      ∧ (objGet u 0xA000 7 = 2 → exec .debugTriggerIn s = .next (stopTrace u))
      ∧ (objGet u 0xA000 7 ≠ 1 → objGet u 0xA000 7 ≠ 2 → exec .debugTriggerIn s = .next u)))
  ∧ (∀ (s : State) (op : Nat) (tdi : List Bool), op < 256 →
    let held (k : Nat) : State := { s with tap := { s.tap with ir := k } }
    let scan (k : Nat) (reg : List Bool) : State := { s with tap := { s.tap with
      ir := k, dr := (reg ++ tdi).drop tdi.length, tdo := (reg ++ tdi).take tdi.length } }
    let moved (k : Nat) (reg : List Bool) (n : Nat) : State := { s with
      drawn := n
      tap := { ir := k, dr := (reg ++ tdi).drop tdi.length, tdo := (reg ++ tdi).take tdi.length
               boundary := if tdi = [] then s.tap.boundary else (reg ++ tdi).drop tdi.length } }
    exec .tapTestLogicReset s = .next (held 0x02)
    ∧ exec (.idcode tdi) s = .next (scan 0x02 ((List.range 32).map (Nat.testBit 0x1A73D0B5)))
    ∧ exec (.clamp tdi) s = .next (scan 0x03 [false]) ∧ exec (.highz tdi) s = .next (scan 0x04 [false])
    ∧ exec (.dbgStatus tdi) s = .next (scan 0x10 ((List.range 128).map (Nat.testBit (dbgStatus s))))
    ∧ (s.boot.inReset = false → exec (.extest tdi) s = .next (scan 0x00 [false]))
    ∧ (∃ reg n, reg.length = Config.boundaryLength ∧ exec (.samplePreload tdi) s = .next (moved 0x01 reg n))
    ∧ (s.boot.inReset = true → ∃ reg n, reg.length = Config.boundaryLength ∧ exec (.extest tdi) s = .next (moved 0x00 reg n))
    ∧ (op ∉ [0x00, 0x01, 0x02, 0x03, 0x04, 0x10] → exec (.bypass op tdi) s = .next (scan op [false]) ∧ tapReg (held op) = .bypass)
    ∧ (op ∈ [0x00, 0x01, 0x02, 0x03, 0x04, 0x10] → exec (.bypass op tdi) s = .next s)
    ∧ tapReg (held 0x02) = .idcode ∧ tapReg (held 0x01) = .boundary ∧ tapReg (held 0x10) = .status
    ∧ (s.boot.inReset = true → tapReg (held 0x00) = .boundary ∧ tapDrives (held 0x00) = true)
    ∧ (s.boot.inReset = false → tapReg (held 0x00) = .bypass ∧ tapHolds (held 0x03) = false ∧ tapOff (held 0x04) = false))
  )

/-- PORT_ENABLE_WRITE, PORT_DISABLE_DEADLINE and QUIESCE_WRITE (R367, R378): a value already held changes nothing; 1 powers a port and
starts its training; 0 takes a port that is not up down at once, which may be the last that the engine waited for (R364), and an up one when
its messages have ended or the deadline has come; a quiescing port with no open message raises NET_QUIESCED. Completion, on the conditions
its clauses give on the state and the operands alone, of: portEnableWrite, portDisableDeadline, quiesceWrite. -/
def Obligations.PortsEnabled : Prop :=
  (∀ (s : State) (via : Via) (p v : Nat), p < 2 → v < 2 → Takes s via (portIndex p) 1 (leBytes 1 v) →
    let u := arriving s via (portIndex p) 1 (leBytes 1 v)
    let x := portOf s p
    (v = objGet s (portIndex p) 1 → exec (.portEnableWrite via p v) s = .next (dictDone u via))
    ∧ (v ≠ objGet s (portIndex p) 1 →
      (v = 1 → exec (.portEnableWrite via p v) s = .next (dictDone (startTraining (modPort
        (netPower (objSet (objSet u (portIndex p) 1 1) (portIndex p) 0x0A 0) p true) p (fun x => { x with quiesced := false })) p) via))
      ∧ (v = 0 → x.state ≠ 3 → exec (.portEnableWrite via p v) s = .next (dictDone (engineReady (netPower (clearPort (objSet u (portIndex p) 1 0) p) p false)) via))
      ∧ (v = 0 → x.state = 3 → exec (.portEnableWrite via p v) s = .next (goingCheck
          (startLong (modPort (objSet u (portIndex p) 1 0) p (fun x => { x with going := some via })) via (portIndex p) 1 (leBytes 1 v) false 0) p))))
  ∧ (∀ (s : State) (p : Nat),
    ((portOf s p).going = none → exec (.portDisableDeadline p) s = .next s)
    ∧ ((portOf s p).going ≠ none → exec (.portDisableDeadline p) s = .next (localFinish (localFinish
        (modPort (engineReady (fire (netPower (portDown s p) p false) 49 0)) p (fun x => { x with going := none })) (portIndex p) 1 0) (portIndex p) 3 0)))
  ∧ (∀ (s : State) (via : Via) (p v : Nat), p < 2 → v < 2 → Takes s via (portIndex p) 0x0A (leBytes 1 v) →
    let u := objSet (arriving s via (portIndex p) 0x0A (leBytes 1 v)) (portIndex p) 0x0A v
    let w := if v = objGet s (portIndex p) 0x0A then u else modPort u p (fun x => { x with quiesced := false })
    exec (.quiesceWrite via p v) s = .next (dictDone (quiesceCheck w p) via)
    ∧ (v = 1 → (portOf w p).quiesced = false → openOn s p = [] → (portOf (quiesceCheck w p) p).quiesced = true
        ∧ (srcOf (quiesceCheck w p) 55).latch = true))

/-- Training of a port (R362, R363, R364, R365, R367): a base page sets the lanes both partners advertise, and each of them starts sending
training frames; a sound training frame of a lane in training is answered and the partner's readiness kept, its DROP takes the lane out, and
one of this end that it has not echoed is sent again; a lane ready at both ends has trained; the port comes up with the trained lanes; at
the deadline the others are left out, or the training has failed with none; a failed training, or a link loss, starts again after its delay;
while SAG_STATE is set a training waits. Completion, on the conditions its clauses give on the state and the operands alone, of:
autonegComplete, trainingFrameReceived, laneTrained, trainingDeadline, portLinkUp, trainingRetry, linkLossRetrain. -/
def Obligations.PortsTrain : Prop :=
  ∀ (s : State) (p : Nat), unitsWork s = true →
    let x := portOf s p
    (x.state = 1 → ∀ b, ∃ t, exec (.autonegComplete p b) s = .next t ∧ (portOf t p).state = 2
      ∧ (portOf t p).laneSet = Nat.land (laneEnable s p) b
      ∧ ∀ l, l < 8 → (tblGet {} (portOf t p).lanes l).training = (Nat.land (laneEnable s p) b).testBit l
        ∧ ((Nat.land (laneEnable s p) b).testBit l = true →
          (tblGet {} (portOf t p).lanes l).sends = some (trainFrame l 0 [] false false)
          ∧ (p, TxFrame.train l (trainFrame l 0 [] false false)) ∈ t.net.tx))
    ∧ (∀ l f k ready, f / 2 ^ 48 % 2 ^ 16 = 0x4A5B → f / 2 ^ 45 % 8 = l → trainCheckOk f = true → f.testBit 13 = false →
        x.dropped.testBit l = false → (tblGet {} x.lanes l).training = true → ∃ t, exec (.trainingFrameReceived p l f k ready) s = .next t
        ∧ (tblGet {} (portOf t p).lanes l).training = true ∧ (tblGet {} (portOf t p).lanes l).ready = ready ∧ (tblGet {} (portOf t p).lanes l).partnerReady = f.testBit 14
        ∧ (tblGet {} (portOf t p).lanes l).taps.length = 5 ∧ t.net.tx.length = s.net.tx.length + 1)
    ∧ (∀ l f k ready, f / 2 ^ 48 % 2 ^ 16 = 0x4A5B → f / 2 ^ 45 % 8 = l → trainCheckOk f = true →
        (f.testBit 13 = true → exec (.trainingFrameReceived p l f k ready) s = .next (takeDrop s p l))
        ∧ (f.testBit 13 = false → x.dropped.testBit l = true → exec (.trainingFrameReceived p l f k ready) s = .next (sendDrop s p l)))
    ∧ (∀ l f k ready, f / 2 ^ 48 % 2 ^ 16 ≠ 0x4A5B ∨ f / 2 ^ 45 % 8 ≠ l ∨ trainCheckOk f = false →
        exec (.trainingFrameReceived p l f k ready) s = .next s)
    ∧ (∀ l, (tblGet {} x.lanes l).training = true → (tblGet {} x.lanes l).ready = true → (tblGet {} x.lanes l).partnerReady = true →
      (x.state = 2 → exec (.laneTrained p l) s = .next (setPort s p { x with
          trained := maskAdd x.trained l, retired := maskDrop x.retired l, lanes := tblSet {} x.lanes l {} }))
      ∧ (x.state = 3 → exec (.laneTrained p l) s = .next (setPort s p { x with
          joining := maskAdd x.joining l, retired := maskDrop x.retired l, realign := true, lanes := tblSet {} x.lanes l {} })))
    ∧ (x.state = 1 ∨ (x.state = 2 ∧ x.trained = 0) → exec (.trainingDeadline p) s = .next (engineReady (portErr
        (modPort (clearPort s p) p (fun x => { x with tried := true })) p 0x1004 49)))
    ∧ ((x.state = 2 ∧ x.trained ≠ 0) ∨ x.state = 3 → exec (.trainingDeadline p) s = .next (setPort s p { x with lanes := [] }))
    ∧ (x.state = 2 → x.trained ≠ 0 → ∀ k, ∃ t, exec (.portLinkUp p k) s = .next t
        ∧ portOf t p = { x with state := 3, lanesUp := x.trained, lanes := [], tried := true } ∧ objGet t (portIndex p) 9 = k ∧ (srcOf t 48).latch = true)
    ∧ (x.state = 0 → x.tried = true → x.lost = false → exec (.trainingRetry p) s = .next (startTraining s p))
    ∧ (x.state = 0 → x.lost = true → exec (.linkLossRetrain p) s = .next (startTraining s p))
    ∧ (x.state ≠ 0 → exec (.trainingRetry p) s = .next s ∧ exec (.linkLossRetrain p) s = .next s)
    ∧ (portEnabled s p = true → headCountClosed s = true → s.removal.sag = false → x.heldDown = false →
        portOf (startTraining s p) p =
          { x with state := 1, trained := 0, laneSet := 0, lanes := [], lost := false, dropped := 0, waiting := false }
        ∧ (startTraining s p).net.tx = s.net.tx ++ [(p, .basePage (laneEnable s p))])
    ∧ (portEnabled s p = true → headCountClosed s = true → s.removal.sag = true → x.heldDown = false →
        startTraining s p = setPort s p { x with waiting := true })

/-- LANE_ENABLE_WRITE, and the loss of lanes and links (R365, R366, R367): a lane that loses its lock, or meets its correction limit, is
retired with DROP sent on its training frames and the port realigns; the loss of the last one, and a link loss, end the port's messages, put
its queue pairs into ERROR and take it down; a realignment ends with the joining lanes up. Completion, on the conditions its clauses give on
the state and the operands alone, of: laneEnableWrite, laneLockLoss, laneFecLimit, realignComplete, linkLoss. -/
def Obligations.LanesLost : Prop :=
  (∀ (s : State) (p l k : Nat), unitsWork s = true →
    let x := portOf s p
    let u := bumpBy s (portCounters p) 0x0B k
    (x.state = 3 → x.lanesUp.testBit l = true → popCount x.lanesUp ≠ 1 →
      exec (.laneLockLoss p l) s = .next (retireLane s p l) ∧ exec (.laneFecLimit p l k) s = .next (retireLane u p l)
      ∧ portOf (retireLane s p l) p = { x with retired := maskAdd x.retired l, lanesUp := maskDrop x.lanesUp l,
                                               dropped := maskAdd x.dropped l, realign := true }
      ∧ (retireLane s p l).net.tx = s.net.tx ++ [(p, .train l (trainFrame l 0 [] false true))])
    ∧ (x.state = 3 → x.lanesUp.testBit l = true → popCount x.lanesUp = 1 →
      exec (.laneLockLoss p l) s = .next s ∧ exec (.laneFecLimit p l k) s = .next (linkLost (retireLane u p l) p))
    ∧ (x.state ≠ 3 ∨ x.lanesUp.testBit l = false → exec (.laneLockLoss p l) s = .next s ∧ exec (.laneFecLimit p l k) s = .next s))
  ∧ (∀ (s : State) (p : Nat),
    let x := portOf s p
    (x.realign = false → exec (.realignComplete p) s = .next s)
    ∧ (x.realign = true → exec (.realignComplete p) s = .next
        (setPort s p { x with realign := false, lanesUp := Nat.lor x.lanesUp x.joining, joining := 0 }))
    ∧ exec (.linkLoss p) s = .next (settlePorts (linkLost s p))
    ∧ (x.state ≠ 3 → linkLost s p = s)
    ∧ (x.state = 3 → x.going = none → linkLost s p = modPort (portErr (portDown s p) p 0x1003 49) p (fun x => { x with lost := true })
        ∧ (portOf (linkLost s p) p).state = 0 ∧ (portOf (linkLost s p) p).lost = true ∧ (srcOf (linkLost s p) 49).latch = true))
  ∧ (∀ (s : State) (via : Via) (p v : Nat), p < 2 → v < 256 → Takes s via (portIndex p) 3 (leBytes 1 v) →
    let x := portOf s p
    let u := objSet (arriving s via (portIndex p) 3 (leBytes 1 v)) (portIndex p) 3 v
    let gone := (List.range 8).filter (fun l => x.lanesUp.testBit l && !v.testBit l)
    let fresh := (List.range 8).filter (fun l => !(laneEnable s p).testBit l && v.testBit l && !x.lanesUp.testBit l)
    (x.state ≠ 3 → exec (.laneEnableWrite via p v) s = .next (dictDone u via))
    ∧ (x.state = 3 → gone.length = popCount x.lanesUp → exec (.laneEnableWrite via p v) s =
        .next (disablePort u via p (portIndex p) 3 (leBytes 1 v)))
    ∧ (x.state = 3 → gone.length ≠ popCount x.lanesUp → exec (.laneEnableWrite via p v) s = .next (dictDone
        (trainLanes (if gone = [] then u else dropLanes u p gone) p fresh) via)))

/-- The checks of a received frame (R368): a frame with a wrong FCS, for another address, of another protocol, with a wrong ICRC, or of a
queue pair that is not this port's, is dropped and counted; an address request is answered; a PFC frame pauses the port or ends the pause. A
port that is not up, or realigns, takes none. A packet of a queue pair (R368, R369, R375, R377): one that is not READY's is dropped; one
behind a waiting open waits with it; with a PSN behind ePSN it is a duplicate, counted and acknowledged; one ahead is answered with a single
NAK; that with ePSN ends the silence, and is answered with the NAK of check 9 or 10 that it breaks, continues its message, breaks its
sequence, or asks for a message to open, answered with the NAK of check 10 under a disable and an RNR NAK when it cannot open now (R374,
R375). ACK_DELAY_EXPIRY acknowledges what is unacknowledged, after the pause of a paused port. Completion, on the conditions its clauses
give on the state and the operands alone, of: frameReceived, ackDelayExpiry. -/
def Obligations.FramesReceived : Prop :=
  (
  ∀ (s : State) (p b : Nat) (f : Frame),
    let x := portOf s p
    let u := flowControl (countFrame s p f) p b
    let c := portCounters p
    let q := f.qpn - 0x100
    (x.state ≠ 3 ∨ x.realign = true ∨ unitsWork s = false → exec (.frameReceived p f b) s = .next s)
    ∧ (x.state = 3 → x.realign = false → unitsWork s = true →
      exec (.frameReceived p f b) s = .next (settleOpens (takeFrame u p f)))
    ∧ (f.fcsOk = false → takeFrame u p f = bump u c 2)
    ∧ (f.fcsOk = true →
      (macOk u p f = false → takeFrame u p f = bump u c 4)
      ∧ (macOk u p f = true →
        (frameUse u p f = .address → takeFrame u p f = transmit u p .addressReply)
        ∧ (frameUse u p f = .pause → takeFrame u p f = setPause u p (f.pauseTime != 0))
        ∧ (frameUse u p f = .other → takeFrame u p f = bump u c 4)
        ∧ (frameUse u p f = .packet → ipOk u p f = false ∨ udpOk f = false → takeFrame u p f = bump u c 4)
        ∧ (frameUse u p f = .packet → ipOk u p f = true → udpOk f = true →
          (f.icrcOk = false → takeFrame u p f = bump u c 3)
          ∧ (f.icrcOk = true →
            (f.tver ≠ 0 ∨ (f.pkey ≠ 0xFFFF ∧ f.pkey ≠ 0x7FFF) ∨ f.qpn < 0x100 ∨ 0x4FF < f.qpn ∨ (qpOf s q).state = .disabled
                ∨ (qpOf s q).port ≠ p ∨ (qpOf s q).remoteIp ≠ f.srcIp → takeFrame u p f = bump u c 4)
            ∧ (f.tver = 0 → f.pkey = 0xFFFF ∨ f.pkey = 0x7FFF → 0x100 ≤ f.qpn → f.qpn ≤ 0x4FF → (qpOf s q).state ≠ .disabled →
                (qpOf s q).port = p → (qpOf s q).remoteIp = f.srcIp → takeFrame u p f = takePacket u p q f)))))
    ∧ (f.destMac ≠ objGet u (portIndex p) 7 % 2 ^ 48 → f.destMac ≠ 0xFFFFFFFFFFFF → f.destMac ≠ 0x0180C2000001 → macOk u p f = false)
    ∧ (f.destMac = objGet u (portIndex p) 7 % 2 ^ 48 → macOk u p f = true)
    ∧ (f.tags ≤ 1 → f.etherType = 0x0800 → frameUse u p f = .packet ∧ (ipOk u p f = true ↔
        f.ihl = 5 ∧ f.headerSum = true ∧ f.fragment = false ∧ f.destIp = objGet u (portIndex p) 8))
  ) ∧ (
  (∀ (s : State) (p q : Nat) (f : Frame),
    let x := qpOf s q
    let d := (f.psn + 2 ^ 24 - x.epsn) % 2 ^ 24
    (x.state ≠ .ready → takePacket s p q f = bump s (portCounters p) 4)
    ∧ (x.state = .ready → (∃ o ∈ (portOf s p).openQ, o.qp = q) → takePacket s p q f = modPort s p (fun y => { y with
        openQ := y.openQ.map (fun o => if o.qp == q then { o with behind := o.behind ++ [f] } else o) }))
    ∧ (x.state = .ready → (∀ o ∈ (portOf s p).openQ, o.qp ≠ q) →
      (2 ^ 23 ≤ d → takePacket s p q f = sendAck (bump s (portCounters p) 9) q)
      ∧ (0 < d → d < 2 ^ 23 → x.nakSent = true → takePacket s p q f = s)
      ∧ (0 < d → d < 2 ^ 23 → x.nakSent = false → takePacket s p q f =
          bump (transmit (setQp s q { x with nakSent := true }) p (.nak q 0x60 x.epsn x.path)) (portCounters p) 7)
      ∧ (d = 0 →
        let u := setQp s q { x with nakSent := false }
        (opcodeOk x f = false → takePacket s p q f = nakError u p q 0x61 f.psn)
        ∧ (opcodeOk x f = true → opensOperation f.opcode = true →
          (addressed s q f = none → takePacket s p q f = nakError u p q 0x62 f.psn)
          ∧ ∀ r k o, addressed s q f = some (r, k, o) →
            (∀ m, s.net.msgs.find? (fun m => m.opn && m.region == r && m.slotIndex == k) = some m →
              (m.qp = q ∧ m.bytes.length = o → takePacket s p q f = startOperation u p q f (some m.id) o)
              ∧ (m.qp ≠ q ∨ m.bytes.length ≠ o → takePacket s p q f = startOperation (endMessage u m.id .sequence) p q f none o))
            ∧ (s.net.msgs.find? (fun m => m.opn && m.region == r && m.slotIndex == k) = none →
              (o ≠ 0 → takePacket s p q f = startOperation (bump u (portCounters p) 0x15) p q f none o)
              ∧ (o = 0 → x.stopping ≠ none → takePacket s p q f = nakError u p q 0x62 f.psn)
              ∧ (o = 0 → x.stopping = none → cannotOpen s p (lrOf s r) = true → takePacket s p q f = rnrNak u p q f.psn)
              ∧ (o = 0 → x.stopping = none → cannotOpen s p (lrOf s r) = false → takePacket s p q f = requestOpen u p q r k f)))
        ∧ (opcodeOk x f = true → opensOperation f.opcode = false → takePacket s p q f = acceptPacket u p q f))))
  ∧ (∀ (s : State) (q : Nat),
    (0 < (qpOf s q).unacked → unitsWork s = true →
      let p := (qpOf s q).port
      let ack : TxFrame := .ack q (((qpOf s q).epsn + 2 ^ 24 - 1) % 2 ^ 24) (qpOf s q).msn (qpOf s q).path
      ∃ t, exec (.ackDelayExpiry q) s = .next t ∧ qpOf t q = { qpOf s q with unacked := 0 }
      ∧ ((portOf s p).paused = false → t.net.tx = s.net.tx ++ [(p, ack)])
      ∧ ((portOf s p).paused = true → t.net.tx = s.net.tx ∧ (portOf t p).held = (portOf s p).held ++ [ack]))
    ∧ ((qpOf s q).unacked = 0 ∨ unitsWork s = false → exec (.ackDelayExpiry q) s = .next s))
  )

/-- QP_ENABLE, QP_DISABLE, QP_DISABLE_DEADLINE, LR_ENABLE and LR_DISABLE (R371, R372): an entry that passes its checks makes the queue pair
READY, or the region ENABLED, as it says; one that fails aborts with NET_CONFIG and its check; a disable denies the opens that wait (R377)
and waits for the open messages, which end at the deadline. Completion, on the conditions its clauses give on the state and the operands
alone, of: qpEnable, qpDisable, qpDisableDeadline, lrEnable, lrDisable. -/
def Obligations.QueuePairsEnabled : Prop :=
  (∀ (s : State) (via : Via) (q : Nat), q < 65536 → Takes s via 0x3001 3 (leBytes 2 q) →
    let a := objGet s 0x3001 1 + 64 * q
    let u := arriving s via 0x3001 3 (leBytes 2 q)
    let e := memNat s a 64
    memPoisoned s a 64 = false →
    (entryCrcOk s a = false → exec (.qpEnable via q) s = .next (netConfig u via (bitsOf e 32 32) 1))
    ∧ (entryCrcOk s a = true → bitsOf e 247 33 ≠ 0 ∨ bitsOf e 265 264 ≠ 0 → exec (.qpEnable via q) s = .next (netConfig u via (bitsOf e 32 32) 2))
    ∧ (entryCrcOk s a = true → bitsOf e 247 33 = 0 → bitsOf e 265 264 = 0 →
      ((qpOf s q).state ≠ .disabled → exec (.qpEnable via q) s = .next (netConfig u via (bitsOf e 32 32) 3))
      ∧ ((qpOf s q).state = .disabled → ∃ t, exec (.qpEnable via q) s = .next t ∧ (qpOf t q).state = .ready
        ∧ (qpOf t q).epsn = bitsOf e 311 288 ∧ (qpOf t q).remoteIp = bitsOf e 511 384 ∧ (qpOf t q).port = bitsOf e 32 32
        ∧ (qpOf t q).path = { mac := bitsOf e 383 336, ip := bitsOf e 511 384, qpn := bitsOf e 335 312, udpSport := bitsOf e 287 272
                              dscp := bitsOf e 271 266, vlan := if e.testBit 251 then some (bitsOf e 263 252, bitsOf e 250 248) else none } ∧ ∀ k, k ≠ q → qpOf t k = qpOf s k)))
  ∧ (∀ (s : State) (via : Via) (q : Nat), q < 65536 → Takes s via 0x3001 4 (leBytes 2 q) →
    let u := arriving s via 0x3001 4 (leBytes 2 q)
    ((qpOf s q).state = .disabled → exec (.qpDisable via q) s = .next (dictDone u via))
    ∧ ((qpOf s q).state ≠ .disabled → exec (.qpDisable via q) s = .next
        (qpStopped (startLong (denyOpens (modQp u q (fun x => { x with stopping := some via })) (fun o => o.qp == q)) via 0x3001 4 (leBytes 2 q) false 0) q)))
  ∧ (∀ (s : State) (k : Nat),
    (exec (.qpDisableDeadline false k) s = .next (settlePorts (if (qpOf s k).stopping = none then s
      else qpStopped (cutMessages s (s.net.msgs.filter (fun m => m.qp == k && m.opn))) k)))
    ∧ (exec (.qpDisableDeadline true k) s = .next (settlePorts (if (lrOf s k).stopping = none then s
      else lrStopped (cutMessages s (s.net.msgs.filter (fun m => m.region == k && m.opn))) k))))
  ∧ (∀ (s : State) (via : Via) (r : Nat), r < 65536 → Takes s via 0x3001 5 (leBytes 2 r) →
    let a := objGet s 0x3001 2 + 64 * r
    let u := arriving s via 0x3001 5 (leBytes 2 r)
    let e := memNat s a 64
    memPoisoned s a 64 = false →
    (lrCheck s r a e ≠ 0 → exec (.lrEnable via r) s = .next (netConfig u via 0 (lrCheck s r a e)))
    ∧ (lrCheck s r a e = 0 → ∃ t, exec (.lrEnable via r) s = .next t ∧ lrOf t r = lrEntry e ∧ ∀ k, k ≠ r → lrOf t k = lrOf s k))
  ∧ (∀ (s : State) (via : Via) (r : Nat), r < 65536 → Takes s via 0x3001 6 (leBytes 2 r) →
    let u := arriving s via 0x3001 6 (leBytes 2 r)
    ((lrOf s r).state ≠ .enabled → exec (.lrDisable via r) s = .next (dictDone u via))
    ∧ ((lrOf s r).state = .enabled → exec (.lrDisable via r) s = .next (lrStopped (startLong
        (denyOpens (setLr u r { lrOf s r with state := .disabling, stopping := some via }) (fun o => o.region == r)) via 0x3001 6 (leBytes 2 r) false 0) r)))

/-- MESSAGE_OPEN and OPEN_WAIT_EXPIRY (R375, R377): the first waiting open that is decided is answered with the NAK of check 10 when a
disable came first, with an RNR NAK when it was refused or cannot open now, or opens its message; the oldest one still waiting for a grant
at its expiry is answered with an RNR NAK. INGEST_CONVERSION (R108, R112): a limb of c0, and one of c1 whose words as read back sum, modulo
8,191, to what SDX recorded, is passed to its delivery; a first disagreement has the limb expanded again, a second passes it poisoned with
ECN_EXPAND_FAIL; so do the limbs of a container that was refused. Completion, on the conditions its clauses give on the state and the
operands alone, of: messageOpen, openWaitExpiry, ingestConversion. -/
def Obligations.MessagesLand : Prop :=
  (
  ∀ (s : State) (p b : Nat),
    let decided (o : OpenReq) : Bool := o.denied || o.refused || (o.emptyGranted && o.buffer.isSome)
    let u := flowControl s p b
    ((portOf s p).openQ.find? decided = none ∨ unitsWork s = false → exec (.messageOpen p b) s = .next s)
    ∧ (∀ o, (portOf s p).openQ.find? decided = some o → unitsWork s = true →
      (o.denied = true → exec (.messageOpen p b) s = .next (settleOpens (giveUpOpen u p o (fun s => nakError s p o.qp 0x62 o.frame.psn))))
      ∧ (o.denied = false → o.refused = true ∨ cannotOpen u p (lrOf u o.region) = true →
          exec (.messageOpen p b) s = .next (settleOpens (giveUpOpen u p o (fun s => rnrNak s p o.qp o.frame.psn))))
      ∧ (o.denied = false → o.refused = false → cannotOpen u p (lrOf u o.region) = false → ∀ a, o.buffer = some a →
          exec (.messageOpen p b) s = .next (settleOpens (openMessage u p o a))))
    ∧ (∀ o, (portOf s p).openQ.find? (fun o => o.asked && !decided o) = some o → unitsWork s = true →
      exec (.openWaitExpiry p b) s = .next (settleOpens (giveUpOpen u p o (fun s => rnrNak s p o.qp o.frame.psn))))
    ∧ ((∀ o ∈ (portOf s p).openQ, o.asked = false ∨ decided o = true) ∨ unitsWork s = false → exec (.openWaitExpiry p b) s = .next s)
  ) ∧ (
  ∀ (s : State) (id : Nat) (m : Msg) (d : Nat) (i : IngestStage), msgOf s id = some m → m.dlv = some d → m.stage.bind (stageOf s) = some i →
    (unitsWork s = false ∨ 2 * i.limbs ≤ m.limb → ∀ b, exec (.ingestConversion id b) s = .next s)
    ∧ (unitsWork s = true → m.limb < 2 * i.limbs →
      (m.refused ≠ none ∨ i.abandoned = true → ∀ b, exec (.ingestConversion id b) s = .next (passLimb (cancelStreams s id) i m d m.limb true))
      ∧ (m.refused = none → i.abandoned = false →
        (m.limb < i.limbs → ∀ b, exec (.ingestConversion id b) s = .next (passLimb s i m d m.limb false))
        ∧ (i.limbs ≤ m.limb → m.expanded.contains (m.limb - i.limbs) = false → ∀ b, exec (.ingestConversion id b) s = .next s)
        ∧ (i.limbs ≤ m.limb → m.expanded.contains (m.limb - i.limbs) = true → ∀ delta,
          let agrees := (limbSum s i m (m.limb - i.limbs) + delta) % 8191 = tblGet 0 m.sums (m.limb - i.limbs)
          (agrees → exec (.ingestConversion id delta) s = .next (passLimb (if m.retried = true then bump s 0x8050 8 else s) i m d m.limb false))
          ∧ (¬ agrees → m.retried = true → exec (.ingestConversion id delta) s = .next (passLimb (raiseErr s 0x0505 m.jobSlot) i m d m.limb true))
          ∧ (¬ agrees → m.retried = false → serviceList (raiseErr s 0x0504 m.jobSlot) .sdx ≠ [] → ∃ u, exec (.ingestConversion id delta) s =
              .next (startLimb u m (m.limb - i.limbs)) ∧ u.mem = s.mem ∧ (∃ m', msgOf u id = some m' ∧ m'.retried = true)))))
  )

/-- PWRGOOD_RISE, PWRGOOD_FALL, RESET_ASSERT and RESET_RELEASE (R383, R384, R392, R428): a reset takes every part of the engine to its reset
value but the fuses, device memory, scratchpad, the retained values and what the package drives; a fall of PWRGOOD discards the retained
values too; a release takes FED_GROUP and FED_MEMBERS into use. Completion, on the conditions its clauses give on the state and the operands
alone, of: pwrgoodRise, pwrgoodFall, resetAssert, resetRelease. -/
def Obligations.ResetWorks : Prop :=
  ∀ (s : State),
    (s.boot.pwrgood = true → exec .pwrgoodRise s = .next s)
    ∧ (s.boot.pwrgood = false → ∃ t, exec .pwrgoodRise s = .next t
      ∧ t = { s with boot := { s.boot with pwrgood := true, pdAon := true }, fed := { s.fed with group := 0, members := powerOnMembers s, fatalCause := 0 } })
    ∧ (∃ t, exec .resetAssert s = .next t ∧ t.pending = s.pending
      ∧ t.boot = { fuses := s.boot.fuses, pwrgood := s.boot.pwrgood, pdAon := s.boot.pwrgood, busSag := s.boot.busSag }
      ∧ t.objs = [] ∧ t.mem = { dev := s.mem.dev, devPoison := s.mem.devPoison, failing := s.mem.failing, sp := s.mem.sp, spPoison := s.mem.spPoison }
      ∧ t.sets = [] ∧ t.roots = [] ∧ t.pairs = [] ∧ t.slots = [] ∧ t.cmds = [] ∧ t.pools = {} ∧ t.net = {} ∧ t.dict = {} ∧ t.mdc = {} ∧ t.bat = {}
      ∧ t.seq = {} ∧ t.txa = {} ∧ t.forge = {} ∧ t.sdx = {} ∧ t.rsv = {} ∧ t.tok = {} ∧ t.dlv.items = [] ∧ t.dlv.arrived = false ∧ t.dlv.links = []
      ∧ t.pins = [] ∧ t.ras = {} ∧ t.trace = {} ∧ t.removal = {}
      ∧ t.evt.srcs = [] ∧ t.evt.grps = [] ∧ t.fed.group = s.fed.group ∧ t.fed.members = s.fed.members ∧ t.fed.fatalCause = s.fed.fatalCause
      ∧ t.fed.hcState = 0 ∧ t.fed.engineState = 0 ∧ t.tap = s.tap
      ∧ ∀ i k, objGet t i k = objDefault (objKey i k))
    ∧ (∃ t, exec .pwrgoodFall s = .next t ∧ t.boot = { fuses := s.boot.fuses, busSag := s.boot.busSag } ∧ t.objs = [] ∧ t.slots = []
      ∧ t.mem = { dev := s.mem.dev, devPoison := s.mem.devPoison, failing := s.mem.failing, sp := s.mem.sp, spPoison := s.mem.spPoison }
      ∧ t.fed.group = 0 ∧ t.fed.members = powerOnMembers s ∧ t.fed.fatalCause = 0)
    ∧ (s.boot.inReset = true → s.boot.pwrgood = true → exec .resetRelease s = .next { s with
        boot := { s.boot with inReset := false }
        fed := { s.fed with groupUsed := s.fed.group, membersUsed := s.fed.members } })
    ∧ (s.boot.inReset = false ∨ s.boot.pwrgood = false → exec .resetRelease s = .next s)

/-- The bring-up in its order (R384, R387, R411, R417): straps and fuses are latched once, the fuses for good; the domains come on with HCLK
and their SRAM reads zero; the core complex's self-test and the memory ports give the health bits; with a link up the engine announces
itself; a unit that failed starts retired and out of service. Each step waits for the one before it and happens once. Completion, on the
conditions its clauses give on the state and the operands alone, of: bringupStrapLatch, bringupDomainPower, bringupCcxSelftestDone,
d2dLinkTrainingDone, bringupUnitSelftestDone. -/
def Obligations.BringupRuns : Prop :=
  (∀ (s : State) (kind mode die strap m0 m1 : Nat),
    (s.boot.inReset = true ∨ s.boot.latched = true → exec (.bringupStrapLatch kind mode die strap m0 m1) s = .next s)
    ∧ (s.boot.inReset = false → s.boot.latched = false → ∃ t, exec (.bringupStrapLatch kind mode die strap m0 m1) s = .next t
      ∧ t.boot.latched = true ∧ t.boot.pdCcx = true
      ∧ (s.boot.fuses = none → t.boot.fuses = some { packageKind := kind, arrayMode := mode, dieId := die, memStrap := strap, mac0 := m0, mac1 := m1 }
          ∧ objGet t 0x3010 7 = m0 % 2 ^ 48 ∧ objGet t 0x3011 7 = m1 % 2 ^ 48)
      ∧ ∀ f, s.boot.fuses = some f → t.boot.fuses = some f ∧ t.fed = s.fed))
  ∧ (∀ (s : State),
    (s.boot.latched = true → s.boot.hclk = false → exec .bringupDomainPower s = .next { s with
      boot := { s.boot with hclk := true, pdMem := true, pdCore := true, pdMedia := true, pdTxaHi := fullArray s }
      mem := { s.mem with txa := [], txaPoison := [], pfg := [], pfgPoison := [], bank0 := [], bank1 := [] } })
    ∧ (s.boot.latched = false ∨ s.boot.hclk = true → exec .bringupDomainPower s = .next s))
  ∧ (∀ (s : State) (passed : Bool) (ports : Nat),
    (s.boot.hclk = true → s.boot.ccxTested = false → ∃ t, exec (.bringupCcxSelftestDone passed ports) s = .next t ∧ t.boot.ccxTested = true
      ∧ t.fed.health.testBit 0 = passed ∧ t.fed.health.testBit 1 = decide (ports % 16 = 15))
    ∧ (s.boot.hclk = false ∨ s.boot.ccxTested = true → exec (.bringupCcxSelftestDone passed ports) s = .next s))
  ∧ (∀ (s : State) (links k : Nat),
    (s.boot.ccxTested = false ∨ s.boot.linksDone = true → exec (.d2dLinkTrainingDone links k) s = .next s)
    ∧ (s.boot.ccxTested = true → s.boot.linksDone = false → links % 16 = 0 → ∃ t, exec (.d2dLinkTrainingDone links k) s = .next t
      ∧ t.boot.linksDone = true ∧ t.fed.linksUp = 0 ∧ t.fed.health.testBit 2 = false ∧ t.fed.hcState = s.fed.hcState ∧ t.fed.tx = s.fed.tx)
    ∧ (s.boot.ccxTested = true → s.boot.linksDone = false → links % 16 ≠ 0 →
      let u : State := { s with boot := { s.boot with linksDone := true }
                                fed := { s.fed with linksUp := links % 16, health := putBit s.fed.health 2 true, hcState := 1 } }
      exec (.d2dLinkTrainingDone links k) s = .next (if heardAll (announceSelf u) = true then registerNow (announceSelf u) k else announceSelf u)
      ∧ (announceSelf u).fed.announced = true ∧ (announceSelf u).fed.tx.length = s.fed.tx.length + 1))
  ∧ (∀ (s : State) (a b c d e : List Nat),
    (s.boot.ccxTested = false ∨ s.boot.unitsTested = true → exec (.bringupUnitSelftestDone a b c d e) s = .next s)
    ∧ (s.boot.ccxTested = true → s.boot.unitsTested = false →
      let failed := [(UnitKind.txa, 1, a), (.sdx, 2, b), (.rsv, 3, c), (.mdc, 4, d), (.tok, 5, e)].flatMap (fun x =>
        (x.2.2.filter (fun u => u < unitCount s x.1)).map (fun u => (x.1, x.2.1, u)))
      exec (.bringupUnitSelftestDone a b c d e) s =
        .next (failed.foldl (fun s x => unitFailed s x.1 x.2.1 x.2.2) { s with boot := { s.boot with unitsTested := true } })))
  ∧ (∀ (s : State) (k : UnitKind) (code u : Nat),
    let w := setRetired (setEnable s k u false) k u true
    (headCountClosed s = true → unitFailed s k code u = raiseErr w 0x1206 63)
    ∧ (headCountClosed s = false → unitFailed s k code u =
        { w with boot := { w.boot with failedUnits := s.boot.failedUnits ++ [code * 256 + u] } }))

/-- ANNOUNCE, REGISTER and REDIRECT (R387, R388, R389): while the head count is open an announcement of an expected die of the group is
kept, and after it one of a die that would elect a lead with this engine (R394); with all heard the engine registers; a candidate registers
with a lower healthy die it hears; the lead answers a registration with the roster; a registration is sent on to the die registered with,
else held; a redirect of the die it is registered with moves the engine's own registration. ROSTER and the close of the head count (R389,
R390, R391, R393, R429): a newer roster of a known member closes the head count here, with this engine's barrier, ports and units set going;
one that leaves this engine out excludes it; after the close it changes the part. A candidate becomes the lead at the close deadline; an
engine that has not closed in time is excluded; a bus sag asserted at the close sets SAG_STATE. Completion, on the conditions its clauses
give on the state and the operands alone, of: announce, register, redirect, roster, announceDeadline, closeDeadline, exclusionDeadline. -/
def Obligations.HeadCount : Prop :=
  (
  ∀ (s0 s : State) (m : FedArrival) (k : Nat),
    let b := m.bytes
    let d := msgSrc b
    (Received 1 m s0 s →
      let h : Heard := { group := fld b 4 1, members := fld b 5 1, health := fld b 6 1, kind := fld b 7 1 }
      let u := { s with fed := { s.fed with heard := tblSet none s.fed.heard d (some h) } }
      (h.group ≠ s.fed.groupUsed ∨ 8 ≤ d → exec (.announce m k) s0 = .next s)
      ∧ (counting s = true → (expectedDies s).testBit d = false → exec (.announce m k) s0 = .next s)
      ∧ (counting s = false → (electorate s).testBit d = false → exec (.announce m k) s0 = .next s)
      ∧ (counting s = false → (electorate s).testBit d = true → h.group = s.fed.groupUsed → d < 8 →
        exec (.announce m k) s0 = .next { s with fed := { s.fed with called := tblSet none s.fed.called d (some h) } })
      ∧ (counting s = true → h.group = s.fed.groupUsed → d < 8 → (expectedDies s).testBit d = true →
        (candidate s = true → h.health = 7 → d < dieId s → exec (.announce m k) s0 = .next (registerWith u d))
        ∧ (candidate s = true → h.health ≠ 7 ∨ dieId s ≤ d → exec (.announce m k) s0 = .next (closeCheck u k))
        ∧ (candidate s = false → heardAll u = true → exec (.announce m k) s0 = .next (registerNow u k))
        ∧ (candidate s = false → heardAll u = false → exec (.announce m k) s0 = .next u)))
    ∧ (Received 2 m s0 s →
      (fld b 4 1 ≠ s.fed.groupUsed ∨ (expectedDies s).testBit d = false ∨ s.fed.health ≠ 7 → exec (.register m k) s0 = .next s)
      ∧ (fld b 4 1 = s.fed.groupUsed → (expectedDies s).testBit d = true → s.fed.health = 7 →
        (s.fed.hcState = 3 → s.fed.electing = false → exec (.register m k) s0 = .next (fedSend s 4 d (rosterPayload s)))
        ∧ (s.fed.hcState ≠ 3 ∨ s.fed.electing = true → ∀ w, s.fed.regWith = some w → w ≠ dieId s → exec (.register m k) s0 = .next (fedSend s 3 d (leBytes 1 w)))
        ∧ (s.fed.hcState ≠ 3 ∨ s.fed.electing = true → s.fed.regWith = some (dieId s) → exec (.register m k) s0 =
            .next (closeCheck { s with fed := { s.fed with regs := setAdd s.fed.regs [d] } } k))
        ∧ (s.fed.hcState ≠ 3 ∨ s.fed.electing = true → s.fed.regWith = none →
          (counting s = true → exec (.register m k) s0 = .next { s with fed := { s.fed with regs := setAdd s.fed.regs [d] } })
          ∧ (counting s = false → exec (.register m k) s0 = .next s))))
    ∧ (Received 3 m s0 s →
      (counting s = false ∨ s.fed.regWith ≠ some d ∨ fld b 4 1 = dieId s ∨ 8 ≤ fld b 4 1 ∨ (expectedDies s).testBit (fld b 4 1) = false →
        exec (.redirect m) s0 = .next s)
      ∧ (counting s = true → s.fed.regWith = some d → fld b 4 1 ≠ dieId s → fld b 4 1 < 8 → (expectedDies s).testBit (fld b 4 1) = true →
        exec (.redirect m) s0 = .next (registerWith s (fld b 4 1))
        ∧ (registerWith s (fld b 4 1)).fed.regWith = some (fld b 4 1) ∧ (registerWith s (fld b 4 1)).fed.regs = []))
  ) ∧ (
  (∀ (s0 s : State) (m : FedArrival) (k : Nat), Received 4 m s0 s →
    let b := m.bytes
    let known := s.fed.membersUsed.testBit (msgSrc b) = true ∧ (heardOf s (msgSrc b) ≠ none ∨ s.fed.regWith = some (msgSrc b))
    (¬ known ∨ s.fed.hcState = 5 ∨ fld b 4 4 ≤ s.fed.version → exec (.roster m k) s0 = .next s)
    ∧ (known → s.fed.hcState ≠ 5 → s.fed.version < fld b 4 4 →
      ((fld b 8 1).testBit (dieId s) = false → exec (.roster m k) s0 = .next (exclude s))
      ∧ ((fld b 8 1).testBit (dieId s) = true → headCountClosed s = true → exec (.roster m k) s0 = .next (changeRoster s (fld b 9 1) (fld b 8 1) (fld b 4 4)))
      ∧ ((fld b 8 1).testBit (dieId s) = true → headCountClosed s = false → exec (.roster m k) s0 =
          .next (closeHeadCount s (fld b 9 1) (fld b 8 1) (fld b 4 4) 4 k))))
  ∧ (∀ (s : State) (k : Nat),
    (unitsWork s = true → exec (.announceDeadline k) s = .next (registerNow s k))
    ∧ (unitsWork s = false → exec (.announceDeadline k) s = .next s)
    ∧ (unitsWork s = true → candidate s = true → exec (.closeDeadline k) s = .next (becomeLead s k))
    ∧ (unitsWork s = false ∨ candidate s = false → exec (.closeDeadline k) s = .next s)
    ∧ (s.boot.inReset = false → s.boot.latched = true → headCountClosed s = false → s.fed.hcState ≠ 5 →
        exec .exclusionDeadline s = .next (exclude s)
        ∧ exclude s = (let u := netPower (portDown { s with fed := { s.fed with hcState := 5, electing := false } } 0) 0 false
            netPower (portDown u 1) 1 false))
    ∧ (s.boot.inReset = true ∨ s.boot.latched = false ∨ headCountClosed s = true ∨ s.fed.hcState = 5 → exec .exclusionDeadline s = .next s))
  ∧ (∀ (s : State) (lead admitted version hc k : Nat), s.boot.busSag = false → s.boot.failedUnits = [] →
    let t := closeHeadCount s lead admitted version hc k
    t.fed.hcState = hc ∧ t.fed.lead = lead ∧ t.fed.admitted = admitted ∧ t.fed.version = version ∧ t.fed.present = popCount admitted
    ∧ (∀ d, d < 8 → t.fed.missing.testBit d = (s.fed.membersUsed.testBit d && !admitted.testBit d))
    ∧ objGet t 0x6801 3 = 0 ∧ (srcOf t 0).latch = true ∧ (t.fed.missing ≠ 0 → (srcOf t 1).latch = true))
  ∧ (∀ (s : State) (lead admitted version hc k : Nat), s.boot.busSag = true →
    (closeHeadCount s lead admitted version hc k).removal.sag = true)
  )

/-- The part in service (R393, R394): a follower answers its lead's beat, and the lead beats to all; the lead drops a follower that has been
silent and tells the others; followers that have not heard the lead start a re-election, with what they have heard of the survivors, and
register once all are heard; an engine whose last link fails is excluded. Completion, on the conditions its clauses give on the state and
the operands alone, of: beat, beatSend, fedLeaveTimeout, d2dLinkLoss. -/
def Obligations.PartInService : Prop :=
  (∀ (s0 s : State) (m : FedArrival), Received 5 m s0 s →
    (s.fed.hcState = 4 → msgSrc m.bytes = s.fed.lead → s.fed.electing = false → exec (.beat m) s0 = .next (fedSend s 5 s.fed.lead (leBytes 4 s.fed.version)))
    ∧ (s.fed.hcState ≠ 4 ∨ msgSrc m.bytes ≠ s.fed.lead ∨ s.fed.electing = true → exec (.beat m) s0 = .next s))
  ∧ (∀ (s : State),
    (unitsWork s = true → s.fed.hcState = 3 → exec .beatSend s = .next (fedSend s 5 0xFF (leBytes 4 s.fed.version)))
    ∧ (unitsWork s = false ∨ s.fed.hcState ≠ 3 → exec .beatSend s = .next s))
  ∧ (∀ (s : State) (d : Nat), unitsWork s = true → s.fed.electing = false → d ≠ dieId s → s.fed.admitted.testBit d = true →
    let v := announceSelf { s with fed := { s.fed with electing := true, heard := s.fed.called, called := [], regs := [], regWith := none } }
    (s.fed.hcState = 3 →
      let u := changeRoster s s.fed.lead (putBit s.fed.admitted d false) (s.fed.version + 1)
      exec (.fedLeaveTimeout d) s = .next (fedSend u 4 0xFF (rosterPayload u)))
    ∧ (s.fed.hcState = 4 → d = s.fed.lead → exec (.fedLeaveTimeout d) s = .next (if heardAll v = true then registerNow v s.fed.closeAclk else v)
        ∧ v.fed.electing = true ∧ v.fed.hcState = 4)
    ∧ (s.fed.hcState = 4 → d ≠ s.fed.lead → exec (.fedLeaveTimeout d) s = .next s))
  ∧ (∀ (s : State) (d : Nat), unitsWork s = false ∨ headCountClosed s = false ∨ s.fed.electing = true ∨ s.fed.admitted.testBit d = false ∨ d = dieId s →
    exec (.fedLeaveTimeout d) s = .next s)
  ∧ (∀ (s : State) (l : Nat),
    (unitsWork s = false ∨ s.fed.linksUp.testBit l = false → exec (.d2dLinkLoss l) s = .next s)
    ∧ (unitsWork s = true → s.fed.linksUp.testBit l = true →
      let up := putBit s.fed.linksUp l false
      let u := { s with fed := { s.fed with linksUp := up, health := putBit s.fed.health 2 (up != 0) } }
      (up = 0 → s.fed.hcState = 4 → exec (.d2dLinkLoss l) s = .next (exclude u))
      ∧ (up ≠ 0 ∨ s.fed.hcState ≠ 4 → exec (.d2dLinkLoss l) s = .next u)))
  ∧ (∀ (s : State) (lead admitted version : Nat), (∀ d, d < 8 → s.fed.admitted.testBit d = true → admitted.testBit d = true) →
    (changeRoster s lead admitted version).fed.lead = lead ∧ (changeRoster s lead admitted version).fed.admitted = admitted
    ∧ (changeRoster s lead admitted version).fed.version = version ∧ (changeRoster s lead admitted version).fed.electing = false)

/-- Planned removal (R396): PREPARE_REMOVAL starts it, once, with both ports quiescing and every running slot saved; a later write waits for
the same end, or has completed when that has come; at the drain deadline the open messages end and the saves drain; a rucksack not written
at its deadline has failed and the counters are dumped; then the ports are held down, source 10 fires and the writes that wait end here. A
bus sag (R398, R399, R429): after the close it stops admission and dispatch, raises its event and quiesces both ports; before the close it
only waits; its counters are dumped at COUNTER_DUMP_ADDR; SAG_RESUME, refused while the warning lasts, lets admission and dispatch go on.
Completion, on the conditions its clauses give on the state and the operands alone, of: prepareRemoval, drainDeadline,
removalRucksackDeadline, removalReady, busSag, counterDump, sagResume, busSagEnd. -/
def Obligations.RemovalAndSag : Prop :=
  (
  (∀ (s : State) (via : Via) (v : Nat), v < 256 → Takes s via 0x1100 1 (leBytes 1 v) → s.fed.electing = false →
    let u := arriving s via 0x1100 1 (leBytes 1 v)
    (s.removal.state = 3 → exec (.prepareRemoval via v) s =
        .next (packageDone (if via = .link ∨ otherDies u = [] then bump u 0x1180 0x0B else u) via 0x1100 1 (leBytes 1 v)))
    ∧ (s.removal.state ≠ 0 → s.removal.state ≠ 3 → exec (.prepareRemoval via v) s = .next (startLong u via 0x1100 1 (leBytes 1 v) true 0))
    ∧ (s.removal.state = 0 →
      let q := setQuiesce (setQuiesce { u with removal := { u.removal with state := 1 } } 0 1) 1 1
      exec (.prepareRemoval via v) s = .next (startLong ((slotNumbers.filter (fun n => (slotOf s n).state == .running && (slotOf s n).save.isNone)).foldl
        (fun s n => startSave s n true) q) via 0x1100 1 (leBytes 1 v) true 0)))
  ∧ (∀ (s : State),
    (s.removal.state ≠ 1 ∨ unitsWork s = false → exec .drainDeadline s = .next s)
    ∧ (s.removal.state = 1 → unitsWork s = true → ∃ t, exec .drainDeadline s = .next t ∧ t.removal.state = 2)
    ∧ (s.removal.state ≠ 2 ∨ unitsWork s = false → exec .removalRucksackDeadline s = .next s ∧ exec .removalReady s = .next s)
    ∧ (s.removal.state = 2 → unitsWork s = true →
      exec .removalRucksackDeadline s = .next (dumpCounters ((busySlots s).foldl (fun s n => writeRucksack s n [] [] false true) s))
      ∧ let u := [0, 1].foldl (fun s p => modPort (portDown s p) p (fun x => { x with heldDown := true })) s
        let v := fire { u with removal := { u.removal with state := 3 } } 10 0
        let w := (v.dict.long.filter (fun l => l.index == 0x1100 && l.sub == 1)).foldl (fun s _ => localFinish s 0x1100 1 0) v
        exec .removalReady s = .next w ∧ w.removal.state = 3 ∧ (srcOf w 10).latch = true))
  ) ∧ (
  (∀ (s : State),
    let u := { s with boot := { s.boot with busSag := true } }
    (headCountClosed s = true → unitsWork s = true → s.removal.sag = false → exec .busSag s = .next (sagBegin u)
      ∧ (sagBegin u).removal.sag = true ∧ admissionStopped (sagBegin u) = true ∧ unitsDispatch (sagBegin u) = false)
    ∧ (headCountClosed s = false ∨ unitsWork s = false ∨ s.removal.sag = true → exec .busSag s = .next u)
    ∧ exec .busSagEnd s = .next { s with boot := { s.boot with busSag := false } }
    ∧ (unitsWork s = true → s.removal.sag = true →
      (objGet s 0x1100 0x0C = 0 → exec .counterDump s = .next s)
      ∧ (objGet s 0x1100 0x0C ≠ 0 → exec .counterDump s = .next (memWrite s (objGet s 0x1100 0x0C) (dumpBytes s))
          ∧ memBytes (memWrite s (objGet s 0x1100 0x0C) (dumpBytes s)) (objGet s 0x1100 0x0C) (dumpBytes s).length = dumpBytes s))
    ∧ (unitsWork s = false ∨ s.removal.sag = false → exec .counterDump s = .next s))
  ∧ (∀ (s : State) (via : Via) (v : Nat), v < 256 → Takes s via 0x1100 0x0E (leBytes 1 v) → s.fed.electing = false →
    let u := arriving s via 0x1100 0x0E (leBytes 1 v)
    (s.boot.busSag = true → exec (.sagResume via v) s = .next (dictAbort u via (abortCode 8 (objDetail 0x1100 0x0D))))
    ∧ (s.boot.busSag = false → ∃ w, exec (.sagResume via v) s = .next (packageDone w via 0x1100 0x0E (leBytes 1 v)) ∧ w.removal.sag = false
        ∧ objGet w 0x3010 0x0A = 0 ∧ objGet w 0x3011 0x0A = 0))
  )

/-- RUCKSACK_SAVE, SAVE_DRAIN_DEADLINE and RUCKSACK_WRITE (R402): a running slot that is not being saved starts its save, with its commands
not issued gone, and an engine on which it does not run, though it runs on another, leaves it alone; at the drain deadline what is left of
its work is abandoned; the home engine writes the rucksack with its trailer, or fails it, and the job ends. RUCKSACK_RESTORE (R404, R405):
with admission open and a slot free a rucksack that passes every check is a job in the lowest free slot, at the position, loops and cursors
saved; one that fails is refused with the code of the first check it fails; a write that cannot be served names itself (R433). Completion,
on the conditions its clauses give on the state and the operands alone, of: rucksackSave, saveDrainDeadline, rucksackWrite, rucksackRestore.
-/
def Obligations.Rucksacks : Prop :=
  (
  (∀ (s : State) (via : Via) (n : Nat) (e : Elsewhere), n < 256 → Takes s via 0x1100 5 (leBytes 1 n) → s.fed.electing = false →
    let u := arriving s via 0x1100 5 (leBytes 1 n)
    ((slotOf s n).save ≠ none → exec (.rucksackSave via n e) s = .next (dictAbort u via (abortCode 8 (objDetail (0x7200 + n) 1))))
    ∧ ((slotOf s n).save = none → (slotOf s n).state ≠ .running → via = .link ∨ e.busy.testBit n = true →
        exec (.rucksackSave via n e) s = .next (packageDone u via 0x1100 5 (leBytes 1 n)))
    ∧ ((slotOf s n).save = none → (slotOf s n).state ≠ .running → via ≠ .link → e.busy.testBit n = false →
        exec (.rucksackSave via n e) s = .next (dictAbort u via (abortCode 6 (objDetail 0x1100 5))))
    ∧ ((slotOf s n).save = none → (slotOf s n).state = .running →
        exec (.rucksackSave via n e) s = .next (packageDone (startSave u n false) via 0x1100 5 (leBytes 1 n))))
  ∧ (∀ (s : State) (n : Nat),
    ((slotOf s n).save = none → exec (.saveDrainDeadline n) s = .next s)
    ∧ ∀ v, (slotOf s n).save = some v →
      (v.drained = true → exec (.saveDrainDeadline n) s = .next s)
      ∧ (v.drained = false → slotAtWork s n = false → exec (.saveDrainDeadline n) s = .next (modSlot s n (fun x => { x with
          save := some { v with drained := true, abandoned := false, batch := batchSection s n, contexts := openVideos s n } })))
      ∧ (v.drained = false → slotAtWork s n = true →
        let u := modSlot s n (fun x => { x with
          save := some { v with drained := true, abandoned := true, batch := batchSection s n, contexts := openVideos s n } })
        exec (.saveDrainDeadline n) s = .next (modSlot (abandonSlot u n) n (fun x => { x with
          faultHorizon := if x.job.regions = [] then none else some x.horizon, poisonedTo := x.horizon }))
        ∧ ∀ c ∈ (abandonSlot u n).cmds, c.slot ≠ n))
  ∧ (∀ (s : State) (n : Nat) (landing contexts : List Byte) (inTime ok : Bool), unitsWork s = true →
    ((slotOf s n).save = none → exec (.rucksackWrite n landing contexts inTime ok) s = .next s)
    ∧ ∀ v, (slotOf s n).save = some v →
      (v.drained = false → exec (.rucksackWrite n landing contexts inTime ok) s = .next s)
      ∧ (v.drained = true → isHome s n = false → exec (.rucksackWrite n landing contexts inTime ok) s = .next (endSave s n 0x1102))
      ∧ (v.drained = true → isHome s n = true → v.contexts = [] →
        let body := rucksackBody s n v landing contexts s.drawn
        let a := objGet s 0x1100 3 + n * objGet s 0x1100 4
        (body.length + 4 ≤ objGet s 0x1100 4 → exec (.rucksackWrite n landing contexts true true) s =
            .next (endSave (raiseErr (memWrite s a (body ++ leBytes 4 (crc32c body))) 0x1102 n) n 0x1102))
        ∧ (objGet s 0x1100 4 < body.length + 4 → exec (.rucksackWrite n landing contexts inTime ok) s =
            .next (endSave (raiseErr s 0x1103 n) n 0x1103))
        ∧ (body.length + 4 ≤ objGet s 0x1100 4 → inTime = false ∨ ok = false → exec (.rucksackWrite n landing contexts inTime ok) s =
            .next (endSave (raiseErr (memWrite s a body) 0x1103 n) n 0x1103))))
  ) ∧ (
  ∀ (s : State) (via : Via) (a : Nat) (e : Elsewhere), a < 2 ^ 64 → Takes s via 0x1100 7 (leBytes 8 a) → s.fed.electing = false →
    let u := arriving s via 0x1100 7 (leBytes 8 a)
    (admissionStopped s = true → exec (.rucksackRestore via a e) s = .next (dictAbort u via (abortCode 8 (objDetail 0x1100 7))))
    ∧ (admissionStopped s = false → freeSlot s (restoreStripe s (memNat s (a + 15) 1)) e = none → exec (.rucksackRestore via a e) s =
        .next (dictAbort u via (abortCode 8 (objDetail 0x1100 7))))
    ∧ (∀ n, admissionStopped s = false → freeSlot s (restoreStripe s (memNat s (a + 15) 1)) e = some n → memPoisoned s a (memNat s (a + 8) 4) = false →
      let stripe := restoreStripe s (memNat s (a + 15) 1)
      let c := restoreCode u a e.refusal (rucksackValid u a) stripe
      (c ≠ 0 → exec (.rucksackRestore via a e) s = .next (dictAbort (raiseErr u c 63) via (abortCode 0x20 c)))
      ∧ (c = 0 → ∀ secs, rucksackValid u a = some secs →
        let saved := admissionOf (sectionOf secs 1)
        let job := { saved with stripe := stripe, paramBase := if objGet s 0x1100 9 = 0 then saved.paramBase else objGet s 0x1100 9 }
        let c := admitCode u (sectionOf secs 1) job e
        (c ≠ 0 → exec (.rucksackRestore via a e) s = .next (dictAbort (raiseRefusal u c) via (abortCode 0x20 c)))
        ∧ (c = 0 → stripe.testBit (dieId s) = true → ∃ v, exec (.rucksackRestore via a e) s = .next (packageDone v via 0x1100 7 (leBytes 8 a))
          ∧ (slotOf v n).pc = fld (sectionOf secs 2) 0 2 ∧ (slotOf v n).loops = restoredLoops (sectionOf secs 2) ∧ (slotOf v n).job = job
          ∧ objGet v 0x1100 0x0A = n)))
  )
end

