-- ==== Sys2Proof/Laws/Tables.lean ====
section
/-! SUPPORT. The laws of sparse tables and of the memories built on them: a read after a write, what a write leaves, and the
canonical form. -/

namespace Sys2Proof.Machine

set_option Elab.async false

variable {α : Type}

/-! ## Reads after writes -/

theorem tblGet_tblDrop (d : α) (t : Tbl α) (k j : Nat) (h : k < j) : tblGet d (tblDrop t k) j = tblGet d t j := by
  induction t with
  | nil => rfl
  | cons e t ih =>
    obtain ⟨k', v⟩ := e
    by_cases h' : k' ≤ k
    · simp [tblDrop, tblGet, h', ih, show k' < j by omega]
    · simp [tblDrop, h']

theorem tblGet_tblDrop_le (d : α) (t : Tbl α) (k j : Nat) (h : j ≤ k) : tblGet d (tblDrop t k) j = d := by
  induction t with
  | nil => rfl
  | cons e t ih =>
    obtain ⟨k', v⟩ := e
    by_cases h' : k' ≤ k
    · simp [tblDrop, h', ih]
    · simp [tblDrop, h', tblGet, show ¬ k' < j by omega, show ¬ k' = j by omega]

@[simp] theorem tblGet_nil (d : α) (k : Nat) : tblGet d [] k = d := rfl

variable [DecidableEq α]

/-- A table reads back what was set. -/
@[simp] theorem tblGet_tblSet_self (d : α) (t : Tbl α) (k : Nat) (v : α) : tblGet d (tblSet d t k v) k = v := by
  induction t with
  | nil => by_cases h : v = d <;> simp [tblSet, tblGet, h]
  | cons e t ih =>
    obtain ⟨k', v'⟩ := e
    by_cases h1 : k' < k
    · simp [tblSet, tblGet, h1, ih]
    · by_cases h2 : v = d
      · rw [tblSet, if_neg h1, if_pos h2, tblGet_tblDrop_le d _ k k (Nat.le_refl k), h2]
      · simp [tblSet, tblGet, h1, h2]

/-- Setting one key leaves every other, whatever an unlisted key of it reads as. -/
theorem tblGet_tblSet_other (d d' : α) (t : Tbl α) (k j : Nat) (v : α) (h : j ≠ k) :
    tblGet d' (tblSet d t k v) j = tblGet d' t j := by
  induction t with
  | nil =>
    by_cases h2 : v = d
    · simp [tblSet, h2]
    · simp only [tblSet, if_neg h2, tblGet]
      split
      · rfl
      · rw [if_neg (fun e => h e.symm)]
  | cons e t ih =>
    obtain ⟨k', v'⟩ := e
    by_cases h1 : k' < k
    · simp [tblSet, tblGet, h1, ih]
    · rcases Nat.lt_or_ge k j with hj | hj
      · by_cases h2 : v = d
        · rw [tblSet, if_neg h1, if_pos h2, tblGet_tblDrop d' _ k j hj]
        · simp only [tblSet, if_neg h1, if_neg h2]
          rw [tblGet, if_pos hj, tblGet_tblDrop d' _ k j hj]
      · have hj' : j < k := by omega
        have e1 : tblGet d' ((k', v') :: t) j = d' := by simp [tblGet, show ¬ k' < j by omega, show ¬ k' = j by omega]
        by_cases h2 : v = d
        · rw [tblSet, if_neg h1, if_pos h2, tblGet_tblDrop_le d' _ k j hj, e1]
        · simp only [tblSet, if_neg h1, if_neg h2]
          rw [tblGet, if_neg (by omega), if_neg (by omega), e1]

theorem tblGet_tblSet_ne (d : α) (t : Tbl α) (k j : Nat) (v : α) (h : j ≠ k) : tblGet d (tblSet d t k v) j = tblGet d t j :=
  tblGet_tblSet_other d d t k j v h

theorem tblGet_tblSet (d : α) (t : Tbl α) (k j : Nat) (v : α) :
    tblGet d (tblSet d t k v) j = if j = k then v else tblGet d t j := by
  by_cases h : j = k
  · subst h; simp
  · rw [if_neg h, tblGet_tblSet_ne d t k j v h]

/-! ## The canonical form -/

/-- The canonical form by its entries: none is the default, and the keys rise. -/
theorem tblWf_cons (d : α) (k : Nat) (v : α) (t : Tbl α) :
    tblWf d ((k, v) :: t) = true ↔ v ≠ d ∧ (∀ e ∈ t, k < e.1) ∧ tblWf d t = true := by
  simp [tblWf, and_assoc]

omit [DecidableEq α] in
theorem tblDrop_mem (t : Tbl α) (k : Nat) (e : Nat × α) (h : e ∈ tblDrop t k) : e ∈ t := by
  induction t with
  | nil => exact h
  | cons x t ih =>
    obtain ⟨k', v⟩ := x
    by_cases h' : k' ≤ k
    · rw [tblDrop, if_pos h'] at h
      exact List.mem_cons_of_mem _ (ih h)
    · rwa [tblDrop, if_neg h'] at h

theorem tblDrop_above (d : α) (t : Tbl α) (k : Nat) (hw : tblWf d t = true) : ∀ e ∈ tblDrop t k, k < e.1 := by
  induction t with
  | nil => simp [tblDrop]
  | cons x t ih =>
    obtain ⟨k', v⟩ := x
    obtain ⟨-, hk, ht⟩ := (tblWf_cons d k' v t).mp hw
    by_cases h' : k' ≤ k
    · rw [tblDrop, if_pos h']
      exact ih ht
    · rw [tblDrop, if_neg h']
      intro e he
      rcases List.mem_cons.mp he with rfl | he
      · simp only; omega
      · have := hk e he
        omega

theorem tblDrop_wf (d : α) (t : Tbl α) (k : Nat) (hw : tblWf d t = true) : tblWf d (tblDrop t k) = true := by
  induction t with
  | nil => exact hw
  | cons x t ih =>
    obtain ⟨k', v⟩ := x
    by_cases h' : k' ≤ k
    · rw [tblDrop, if_pos h']
      exact ih ((tblWf_cons d k' v t).mp hw).2.2
    · rw [tblDrop, if_neg h']
      exact hw

theorem tblSet_mem (d : α) (t : Tbl α) (k : Nat) (v : α) (e : Nat × α) (h : e ∈ tblSet d t k v) : e ∈ t ∨ e = (k, v) := by
  induction t with
  | nil =>
    by_cases h2 : v = d
    · simp [tblSet, h2] at h
    · simp [tblSet, h2] at h
      exact .inr h
  | cons x t ih =>
    obtain ⟨k', v'⟩ := x
    by_cases h1 : k' < k
    · rw [tblSet, if_pos h1] at h
      rcases List.mem_cons.mp h with rfl | h
      · exact .inl (List.mem_cons_self ..)
      · exact (ih h).imp_left (List.mem_cons_of_mem _)
    · by_cases h2 : v = d
      · rw [tblSet, if_neg h1, if_pos h2] at h
        exact .inl (tblDrop_mem _ k e h)
      · rw [tblSet, if_neg h1, if_neg h2] at h
        rcases List.mem_cons.mp h with rfl | h
        · exact .inr rfl
        · exact .inl (tblDrop_mem _ k e h)

/-- Setting a key keeps the canonical form. -/
theorem tblSet_wf (d : α) (t : Tbl α) (k : Nat) (v : α) (hw : tblWf d t = true) : tblWf d (tblSet d t k v) = true := by
  induction t with
  | nil => by_cases h2 : v = d <;> simp [tblSet, tblWf, h2]
  | cons x t ih =>
    obtain ⟨k', v'⟩ := x
    obtain ⟨hv, hk, ht⟩ := (tblWf_cons d k' v' t).mp hw
    by_cases h1 : k' < k
    · rw [tblSet, if_pos h1]
      refine (tblWf_cons d k' v' _).mpr ⟨hv, fun e he => ?_, ih ht⟩
      rcases tblSet_mem d t k v e he with h | rfl
      · exact hk e h
      · exact h1
    · by_cases h2 : v = d
      · rw [tblSet, if_neg h1, if_pos h2]
        exact tblDrop_wf d _ k hw
      · rw [tblSet, if_neg h1, if_neg h2]
        exact (tblWf_cons d k v _).mpr ⟨h2, tblDrop_above d _ k hw, tblDrop_wf d _ k hw⟩

/-! ## Memories -/

/-- A byte string stored keeps the canonical form. -/
theorem cellsSet_wf (m : List Host.Cell) (a : Nat) (bs : List Byte) (hw : tblWf (0 : Byte) m = true) :
    tblWf (0 : Byte) (cellsSet m a bs) = true := by
  induction bs generalizing m a with
  | nil => exact hw
  | cons b bs ih => exact ih _ _ (tblSet_wf _ _ _ _ hw)

/-- A masked line stored keeps the canonical form. -/
theorem cellsMask_wf (m : List Host.Cell) (a : Nat) (bs : List (Nat × Byte)) (hw : tblWf (0 : Byte) m = true) :
    tblWf (0 : Byte) (cellsMask m a bs) = true := by
  induction bs generalizing m a with
  | nil => exact hw
  | cons b bs ih => exact ih _ _ (tblSet_wf _ _ _ _ hw)

/-- A byte outside what is stored is unchanged. -/
theorem cellGet_cellsSet_out (m : List Host.Cell) (a x : Nat) (bs : List Byte) (h : x < a ∨ a + bs.length ≤ x) :
    cellGet (cellsSet m a bs) x = cellGet m x := by
  induction bs generalizing m a with
  | nil => rfl
  | cons b bs ih =>
    simp only [List.length_cons] at h
    rw [cellsSet, ih _ _ (by omega), cellGet, tblGet_tblSet_ne _ _ _ _ _ (by omega), cellGet]

/-- A byte inside what is stored is the byte stored. -/
theorem cellGet_cellsSet_in (m : List Host.Cell) (a i : Nat) (bs : List Byte) (h : i < bs.length) :
    cellGet (cellsSet m a bs) (a + i) = bs[i] := by
  induction bs generalizing m a i with
  | nil => simp at h
  | cons b bs ih =>
    cases i with
    | zero =>
      rw [cellsSet, cellGet_cellsSet_out _ _ _ _ (by omega), cellGet]
      simp
    | succ i =>
      have := ih (tblSet (0 : Byte) m a b) (a + 1) i (by simpa using h)
      rw [cellsSet, show a + (i + 1) = a + 1 + i by omega, this]
      rfl

/-- A byte string stored reads back. -/
theorem cellsGet_cellsSet (m : List Host.Cell) (a : Nat) (bs : List Byte) : cellsGet (cellsSet m a bs) a bs.length = bs := by
  apply List.ext_getElem
  · simp [cellsGet]
  · intro i h1 h2
    simp [cellsGet, cellGet_cellsSet_in m a i bs h2]

/-- A write leaves every byte outside it. -/
theorem cellsGet_cellsSet_out (m : List Host.Cell) (a b n : Nat) (bs : List Byte) (h : b + n ≤ a ∨ a + bs.length ≤ b) :
    cellsGet (cellsSet m a bs) b n = cellsGet m b n := by
  unfold cellsGet
  apply List.map_congr_left
  intro i hi
  have := List.mem_range.mp hi
  exact cellGet_cellsSet_out m a (b + i) bs (by omega)

/-- A masked line leaves every byte whose offset it does not name. -/
theorem cellGet_cellsMask_out (m : List Host.Cell) (a x : Nat) (bs : List (Nat × Byte)) (h : ∀ e ∈ bs, a + e.1 ≠ x) :
    cellGet (cellsMask m a bs) x = cellGet m x := by
  induction bs generalizing m with
  | nil => rfl
  | cons b bs ih =>
    obtain ⟨o, v⟩ := b
    rw [cellsMask, ih _ (fun e he => h e (List.mem_cons_of_mem _ he)), cellGet,
      tblGet_tblSet_ne _ _ _ _ _ (fun e => h (o, v) (List.mem_cons_self ..) e.symm), cellGet]


theorem tblDrop_tblDrop {α : Type} (t : Tbl α) (k : Nat) : tblDrop (tblDrop t k) k = tblDrop t k := by
  induction t with
  | nil => rfl
  | cons e t ih =>
    by_cases h : e.1 ≤ k
    · simp only [tblDrop, h, if_true, ih]
    · simp only [tblDrop, h, if_false]

theorem tblSet_tblDrop {α : Type} [DecidableEq α] (d : α) (t : Tbl α) (k : Nat) (v : α) :
    tblSet d (tblDrop t k) k v = if v = d then tblDrop t k else (k, v) :: tblDrop t k := by
  induction t with
  | nil => by_cases h : v = d <;> simp [tblDrop, tblSet, h]
  | cons e t ih =>
    by_cases h : e.1 ≤ k
    · simp only [tblDrop, h, if_true, ih]
    · have h' : ¬ e.1 < k := by omega
      simp only [tblDrop, h, if_false, tblSet, h']

/-- The last value stored at a key stands. -/
@[simp] theorem tblSet_tblSet {α : Type} [DecidableEq α] (d : α) (t : Tbl α) (k : Nat) (v w : α) :
    tblSet d (tblSet d t k v) k w = tblSet d t k w := by
  induction t with
  | nil => by_cases h : v = d <;> by_cases h2 : w = d <;> simp [tblSet, tblDrop, h, h2]
  | cons e t ih =>
    by_cases h : e.1 < k
    · simp only [tblSet, h, if_true, ih]
    · by_cases hv : v = d
      · simp only [tblSet, h, if_false, hv, if_true]
        rw [tblSet_tblDrop]
      · have hd := tblDrop_tblDrop (e :: t) k
        simp only [tblSet, h, if_false, hv, Nat.lt_irrefl, tblDrop, Nat.le_refl, if_true] at hd ⊢
        rw [hd]

end Sys2Proof.Machine
end

