-- ==== Sys2Proof/Laws/State.lean ====
section
/-! SUPPORT. What each named update of the state leaves as it was: one lemma per update and field, each true by rfl. -/

namespace Sys2Proof.Machine

set_option Elab.async false

/-! ### objSet -/
@[simp] theorem objSet_pending (s : State) (i sub v : Nat) : (objSet s i sub v).pending = s.pending := rfl
@[simp] theorem objSet_drawn (s : State) (i sub v : Nat) : (objSet s i sub v).drawn = s.drawn := rfl
@[simp] theorem objSet_boot (s : State) (i sub v : Nat) : (objSet s i sub v).boot = s.boot := rfl
@[simp] theorem objSet_mem (s : State) (i sub v : Nat) : (objSet s i sub v).mem = s.mem := rfl
@[simp] theorem objSet_sets (s : State) (i sub v : Nat) : (objSet s i sub v).sets = s.sets := rfl
@[simp] theorem objSet_roots (s : State) (i sub v : Nat) : (objSet s i sub v).roots = s.roots := rfl
@[simp] theorem objSet_pairs (s : State) (i sub v : Nat) : (objSet s i sub v).pairs = s.pairs := rfl
@[simp] theorem objSet_slots (s : State) (i sub v : Nat) : (objSet s i sub v).slots = s.slots := rfl
@[simp] theorem objSet_cmds (s : State) (i sub v : Nat) : (objSet s i sub v).cmds = s.cmds := rfl
@[simp] theorem objSet_seq (s : State) (i sub v : Nat) : (objSet s i sub v).seq = s.seq := rfl
@[simp] theorem objSet_arbs (s : State) (i sub v : Nat) : (objSet s i sub v).arbs = s.arbs := rfl
@[simp] theorem objSet_txa (s : State) (i sub v : Nat) : (objSet s i sub v).txa = s.txa := rfl
@[simp] theorem objSet_forge (s : State) (i sub v : Nat) : (objSet s i sub v).forge = s.forge := rfl
@[simp] theorem objSet_sdx (s : State) (i sub v : Nat) : (objSet s i sub v).sdx = s.sdx := rfl
@[simp] theorem objSet_rsv (s : State) (i sub v : Nat) : (objSet s i sub v).rsv = s.rsv := rfl
@[simp] theorem objSet_mdc (s : State) (i sub v : Nat) : (objSet s i sub v).mdc = s.mdc := rfl
@[simp] theorem objSet_tok (s : State) (i sub v : Nat) : (objSet s i sub v).tok = s.tok := rfl
@[simp] theorem objSet_bat (s : State) (i sub v : Nat) : (objSet s i sub v).bat = s.bat := rfl
@[simp] theorem objSet_pools (s : State) (i sub v : Nat) : (objSet s i sub v).pools = s.pools := rfl
@[simp] theorem objSet_dlv (s : State) (i sub v : Nat) : (objSet s i sub v).dlv = s.dlv := rfl
@[simp] theorem objSet_net (s : State) (i sub v : Nat) : (objSet s i sub v).net = s.net := rfl
@[simp] theorem objSet_fed (s : State) (i sub v : Nat) : (objSet s i sub v).fed = s.fed := rfl
@[simp] theorem objSet_dict (s : State) (i sub v : Nat) : (objSet s i sub v).dict = s.dict := rfl
@[simp] theorem objSet_pins (s : State) (i sub v : Nat) : (objSet s i sub v).pins = s.pins := rfl
@[simp] theorem objSet_evt (s : State) (i sub v : Nat) : (objSet s i sub v).evt = s.evt := rfl
@[simp] theorem objSet_ras (s : State) (i sub v : Nat) : (objSet s i sub v).ras = s.ras := rfl
@[simp] theorem objSet_trace (s : State) (i sub v : Nat) : (objSet s i sub v).trace = s.trace := rfl
@[simp] theorem objSet_tap (s : State) (i sub v : Nat) : (objSet s i sub v).tap = s.tap := rfl
@[simp] theorem objSet_removal (s : State) (i sub v : Nat) : (objSet s i sub v).removal = s.removal := rfl
@[simp] theorem slotOf_objSet (s : State) (i sub v : Nat) (j : Nat) : slotOf (objSet s i sub v) j = slotOf s j := rfl
@[simp] theorem pairOf_objSet (s : State) (i sub v : Nat) (j : Nat) : pairOf (objSet s i sub v) j = pairOf s j := rfl
@[simp] theorem srcOf_objSet (s : State) (i sub v : Nat) (j : Nat) : srcOf (objSet s i sub v) j = srcOf s j := rfl
@[simp] theorem poolOf_objSet (s : State) (i sub v : Nat) (j : Nat) : poolOf (objSet s i sub v) j = poolOf s j := rfl
@[simp] theorem portOf_objSet (s : State) (i sub v : Nat) (j : Nat) : portOf (objSet s i sub v) j = portOf s j := rfl
@[simp] theorem mailboxOf_objSet (s : State) (i sub v : Nat) (j : Nat) : mailboxOf (objSet s i sub v) j = mailboxOf s j := rfl
@[simp] theorem dieId_objSet (s : State) (i sub v : Nat) : dieId (objSet s i sub v) = dieId s := rfl
@[simp] theorem headCountClosed_objSet (s : State) (i sub v : Nat) : headCountClosed (objSet s i sub v) = headCountClosed s := rfl

/-! ### bumpBy -/
@[simp] theorem bumpBy_pending (s : State) (i sub k : Nat) : (bumpBy s i sub k).pending = s.pending := rfl
@[simp] theorem bumpBy_drawn (s : State) (i sub k : Nat) : (bumpBy s i sub k).drawn = s.drawn := rfl
@[simp] theorem bumpBy_boot (s : State) (i sub k : Nat) : (bumpBy s i sub k).boot = s.boot := rfl
@[simp] theorem bumpBy_mem (s : State) (i sub k : Nat) : (bumpBy s i sub k).mem = s.mem := rfl
@[simp] theorem bumpBy_sets (s : State) (i sub k : Nat) : (bumpBy s i sub k).sets = s.sets := rfl
@[simp] theorem bumpBy_roots (s : State) (i sub k : Nat) : (bumpBy s i sub k).roots = s.roots := rfl
@[simp] theorem bumpBy_pairs (s : State) (i sub k : Nat) : (bumpBy s i sub k).pairs = s.pairs := rfl
@[simp] theorem bumpBy_slots (s : State) (i sub k : Nat) : (bumpBy s i sub k).slots = s.slots := rfl
@[simp] theorem bumpBy_cmds (s : State) (i sub k : Nat) : (bumpBy s i sub k).cmds = s.cmds := rfl
@[simp] theorem bumpBy_seq (s : State) (i sub k : Nat) : (bumpBy s i sub k).seq = s.seq := rfl
@[simp] theorem bumpBy_arbs (s : State) (i sub k : Nat) : (bumpBy s i sub k).arbs = s.arbs := rfl
@[simp] theorem bumpBy_txa (s : State) (i sub k : Nat) : (bumpBy s i sub k).txa = s.txa := rfl
@[simp] theorem bumpBy_forge (s : State) (i sub k : Nat) : (bumpBy s i sub k).forge = s.forge := rfl
@[simp] theorem bumpBy_sdx (s : State) (i sub k : Nat) : (bumpBy s i sub k).sdx = s.sdx := rfl
@[simp] theorem bumpBy_rsv (s : State) (i sub k : Nat) : (bumpBy s i sub k).rsv = s.rsv := rfl
@[simp] theorem bumpBy_mdc (s : State) (i sub k : Nat) : (bumpBy s i sub k).mdc = s.mdc := rfl
@[simp] theorem bumpBy_tok (s : State) (i sub k : Nat) : (bumpBy s i sub k).tok = s.tok := rfl
@[simp] theorem bumpBy_bat (s : State) (i sub k : Nat) : (bumpBy s i sub k).bat = s.bat := rfl
@[simp] theorem bumpBy_pools (s : State) (i sub k : Nat) : (bumpBy s i sub k).pools = s.pools := rfl
@[simp] theorem bumpBy_dlv (s : State) (i sub k : Nat) : (bumpBy s i sub k).dlv = s.dlv := rfl
@[simp] theorem bumpBy_net (s : State) (i sub k : Nat) : (bumpBy s i sub k).net = s.net := rfl
@[simp] theorem bumpBy_fed (s : State) (i sub k : Nat) : (bumpBy s i sub k).fed = s.fed := rfl
@[simp] theorem bumpBy_dict (s : State) (i sub k : Nat) : (bumpBy s i sub k).dict = s.dict := rfl
@[simp] theorem bumpBy_pins (s : State) (i sub k : Nat) : (bumpBy s i sub k).pins = s.pins := rfl
@[simp] theorem bumpBy_evt (s : State) (i sub k : Nat) : (bumpBy s i sub k).evt = s.evt := rfl
@[simp] theorem bumpBy_ras (s : State) (i sub k : Nat) : (bumpBy s i sub k).ras = s.ras := rfl
@[simp] theorem bumpBy_trace (s : State) (i sub k : Nat) : (bumpBy s i sub k).trace = s.trace := rfl
@[simp] theorem bumpBy_tap (s : State) (i sub k : Nat) : (bumpBy s i sub k).tap = s.tap := rfl
@[simp] theorem bumpBy_removal (s : State) (i sub k : Nat) : (bumpBy s i sub k).removal = s.removal := rfl
@[simp] theorem slotOf_bumpBy (s : State) (i sub k : Nat) (j : Nat) : slotOf (bumpBy s i sub k) j = slotOf s j := rfl
@[simp] theorem pairOf_bumpBy (s : State) (i sub k : Nat) (j : Nat) : pairOf (bumpBy s i sub k) j = pairOf s j := rfl
@[simp] theorem srcOf_bumpBy (s : State) (i sub k : Nat) (j : Nat) : srcOf (bumpBy s i sub k) j = srcOf s j := rfl
@[simp] theorem poolOf_bumpBy (s : State) (i sub k : Nat) (j : Nat) : poolOf (bumpBy s i sub k) j = poolOf s j := rfl
@[simp] theorem portOf_bumpBy (s : State) (i sub k : Nat) (j : Nat) : portOf (bumpBy s i sub k) j = portOf s j := rfl
@[simp] theorem mailboxOf_bumpBy (s : State) (i sub k : Nat) (j : Nat) : mailboxOf (bumpBy s i sub k) j = mailboxOf s j := rfl
@[simp] theorem dieId_bumpBy (s : State) (i sub k : Nat) : dieId (bumpBy s i sub k) = dieId s := rfl
@[simp] theorem headCountClosed_bumpBy (s : State) (i sub k : Nat) : headCountClosed (bumpBy s i sub k) = headCountClosed s := rfl

/-! ### bump -/
@[simp] theorem bump_pending (s : State) (i sub : Nat) : (bump s i sub).pending = s.pending := rfl
@[simp] theorem bump_drawn (s : State) (i sub : Nat) : (bump s i sub).drawn = s.drawn := rfl
@[simp] theorem bump_boot (s : State) (i sub : Nat) : (bump s i sub).boot = s.boot := rfl
@[simp] theorem bump_mem (s : State) (i sub : Nat) : (bump s i sub).mem = s.mem := rfl
@[simp] theorem bump_sets (s : State) (i sub : Nat) : (bump s i sub).sets = s.sets := rfl
@[simp] theorem bump_roots (s : State) (i sub : Nat) : (bump s i sub).roots = s.roots := rfl
@[simp] theorem bump_pairs (s : State) (i sub : Nat) : (bump s i sub).pairs = s.pairs := rfl
@[simp] theorem bump_slots (s : State) (i sub : Nat) : (bump s i sub).slots = s.slots := rfl
@[simp] theorem bump_cmds (s : State) (i sub : Nat) : (bump s i sub).cmds = s.cmds := rfl
@[simp] theorem bump_seq (s : State) (i sub : Nat) : (bump s i sub).seq = s.seq := rfl
@[simp] theorem bump_arbs (s : State) (i sub : Nat) : (bump s i sub).arbs = s.arbs := rfl
@[simp] theorem bump_txa (s : State) (i sub : Nat) : (bump s i sub).txa = s.txa := rfl
@[simp] theorem bump_forge (s : State) (i sub : Nat) : (bump s i sub).forge = s.forge := rfl
@[simp] theorem bump_sdx (s : State) (i sub : Nat) : (bump s i sub).sdx = s.sdx := rfl
@[simp] theorem bump_rsv (s : State) (i sub : Nat) : (bump s i sub).rsv = s.rsv := rfl
@[simp] theorem bump_mdc (s : State) (i sub : Nat) : (bump s i sub).mdc = s.mdc := rfl
@[simp] theorem bump_tok (s : State) (i sub : Nat) : (bump s i sub).tok = s.tok := rfl
@[simp] theorem bump_bat (s : State) (i sub : Nat) : (bump s i sub).bat = s.bat := rfl
@[simp] theorem bump_pools (s : State) (i sub : Nat) : (bump s i sub).pools = s.pools := rfl
@[simp] theorem bump_dlv (s : State) (i sub : Nat) : (bump s i sub).dlv = s.dlv := rfl
@[simp] theorem bump_net (s : State) (i sub : Nat) : (bump s i sub).net = s.net := rfl
@[simp] theorem bump_fed (s : State) (i sub : Nat) : (bump s i sub).fed = s.fed := rfl
@[simp] theorem bump_dict (s : State) (i sub : Nat) : (bump s i sub).dict = s.dict := rfl
@[simp] theorem bump_pins (s : State) (i sub : Nat) : (bump s i sub).pins = s.pins := rfl
@[simp] theorem bump_evt (s : State) (i sub : Nat) : (bump s i sub).evt = s.evt := rfl
@[simp] theorem bump_ras (s : State) (i sub : Nat) : (bump s i sub).ras = s.ras := rfl
@[simp] theorem bump_trace (s : State) (i sub : Nat) : (bump s i sub).trace = s.trace := rfl
@[simp] theorem bump_tap (s : State) (i sub : Nat) : (bump s i sub).tap = s.tap := rfl
@[simp] theorem bump_removal (s : State) (i sub : Nat) : (bump s i sub).removal = s.removal := rfl
@[simp] theorem slotOf_bump (s : State) (i sub : Nat) (j : Nat) : slotOf (bump s i sub) j = slotOf s j := rfl
@[simp] theorem pairOf_bump (s : State) (i sub : Nat) (j : Nat) : pairOf (bump s i sub) j = pairOf s j := rfl
@[simp] theorem srcOf_bump (s : State) (i sub : Nat) (j : Nat) : srcOf (bump s i sub) j = srcOf s j := rfl
@[simp] theorem poolOf_bump (s : State) (i sub : Nat) (j : Nat) : poolOf (bump s i sub) j = poolOf s j := rfl
@[simp] theorem portOf_bump (s : State) (i sub : Nat) (j : Nat) : portOf (bump s i sub) j = portOf s j := rfl
@[simp] theorem mailboxOf_bump (s : State) (i sub : Nat) (j : Nat) : mailboxOf (bump s i sub) j = mailboxOf s j := rfl
@[simp] theorem dieId_bump (s : State) (i sub : Nat) : dieId (bump s i sub) = dieId s := rfl
@[simp] theorem headCountClosed_bump (s : State) (i sub : Nat) : headCountClosed (bump s i sub) = headCountClosed s := rfl

/-! ### lastBad -/
@[simp] theorem lastBad_pending (s : State) (kind addr : Nat) : (lastBad s kind addr).pending = s.pending := rfl
@[simp] theorem lastBad_drawn (s : State) (kind addr : Nat) : (lastBad s kind addr).drawn = s.drawn := rfl
@[simp] theorem lastBad_boot (s : State) (kind addr : Nat) : (lastBad s kind addr).boot = s.boot := rfl
@[simp] theorem lastBad_mem (s : State) (kind addr : Nat) : (lastBad s kind addr).mem = s.mem := rfl
@[simp] theorem lastBad_sets (s : State) (kind addr : Nat) : (lastBad s kind addr).sets = s.sets := rfl
@[simp] theorem lastBad_roots (s : State) (kind addr : Nat) : (lastBad s kind addr).roots = s.roots := rfl
@[simp] theorem lastBad_pairs (s : State) (kind addr : Nat) : (lastBad s kind addr).pairs = s.pairs := rfl
@[simp] theorem lastBad_slots (s : State) (kind addr : Nat) : (lastBad s kind addr).slots = s.slots := rfl
@[simp] theorem lastBad_cmds (s : State) (kind addr : Nat) : (lastBad s kind addr).cmds = s.cmds := rfl
@[simp] theorem lastBad_seq (s : State) (kind addr : Nat) : (lastBad s kind addr).seq = s.seq := rfl
@[simp] theorem lastBad_arbs (s : State) (kind addr : Nat) : (lastBad s kind addr).arbs = s.arbs := rfl
@[simp] theorem lastBad_txa (s : State) (kind addr : Nat) : (lastBad s kind addr).txa = s.txa := rfl
@[simp] theorem lastBad_forge (s : State) (kind addr : Nat) : (lastBad s kind addr).forge = s.forge := rfl
@[simp] theorem lastBad_sdx (s : State) (kind addr : Nat) : (lastBad s kind addr).sdx = s.sdx := rfl
@[simp] theorem lastBad_rsv (s : State) (kind addr : Nat) : (lastBad s kind addr).rsv = s.rsv := rfl
@[simp] theorem lastBad_mdc (s : State) (kind addr : Nat) : (lastBad s kind addr).mdc = s.mdc := rfl
@[simp] theorem lastBad_tok (s : State) (kind addr : Nat) : (lastBad s kind addr).tok = s.tok := rfl
@[simp] theorem lastBad_bat (s : State) (kind addr : Nat) : (lastBad s kind addr).bat = s.bat := rfl
@[simp] theorem lastBad_pools (s : State) (kind addr : Nat) : (lastBad s kind addr).pools = s.pools := rfl
@[simp] theorem lastBad_dlv (s : State) (kind addr : Nat) : (lastBad s kind addr).dlv = s.dlv := rfl
@[simp] theorem lastBad_net (s : State) (kind addr : Nat) : (lastBad s kind addr).net = s.net := rfl
@[simp] theorem lastBad_fed (s : State) (kind addr : Nat) : (lastBad s kind addr).fed = s.fed := rfl
@[simp] theorem lastBad_dict (s : State) (kind addr : Nat) : (lastBad s kind addr).dict = s.dict := rfl
@[simp] theorem lastBad_pins (s : State) (kind addr : Nat) : (lastBad s kind addr).pins = s.pins := rfl
@[simp] theorem lastBad_evt (s : State) (kind addr : Nat) : (lastBad s kind addr).evt = s.evt := rfl
@[simp] theorem lastBad_ras (s : State) (kind addr : Nat) : (lastBad s kind addr).ras = s.ras := rfl
@[simp] theorem lastBad_trace (s : State) (kind addr : Nat) : (lastBad s kind addr).trace = s.trace := rfl
@[simp] theorem lastBad_tap (s : State) (kind addr : Nat) : (lastBad s kind addr).tap = s.tap := rfl
@[simp] theorem lastBad_removal (s : State) (kind addr : Nat) : (lastBad s kind addr).removal = s.removal := rfl
@[simp] theorem slotOf_lastBad (s : State) (kind addr : Nat) (j : Nat) : slotOf (lastBad s kind addr) j = slotOf s j := rfl
@[simp] theorem pairOf_lastBad (s : State) (kind addr : Nat) (j : Nat) : pairOf (lastBad s kind addr) j = pairOf s j := rfl
@[simp] theorem srcOf_lastBad (s : State) (kind addr : Nat) (j : Nat) : srcOf (lastBad s kind addr) j = srcOf s j := rfl
@[simp] theorem poolOf_lastBad (s : State) (kind addr : Nat) (j : Nat) : poolOf (lastBad s kind addr) j = poolOf s j := rfl
@[simp] theorem portOf_lastBad (s : State) (kind addr : Nat) (j : Nat) : portOf (lastBad s kind addr) j = portOf s j := rfl
@[simp] theorem mailboxOf_lastBad (s : State) (kind addr : Nat) (j : Nat) : mailboxOf (lastBad s kind addr) j = mailboxOf s j := rfl
@[simp] theorem dieId_lastBad (s : State) (kind addr : Nat) : dieId (lastBad s kind addr) = dieId s := rfl
@[simp] theorem headCountClosed_lastBad (s : State) (kind addr : Nat) : headCountClosed (lastBad s kind addr) = headCountClosed s := rfl

/-! ### poisonWritten -/
@[simp] theorem poisonWritten_pending (s : State) (n : Nat) : (poisonWritten s n).pending = s.pending := rfl
@[simp] theorem poisonWritten_drawn (s : State) (n : Nat) : (poisonWritten s n).drawn = s.drawn := rfl
@[simp] theorem poisonWritten_boot (s : State) (n : Nat) : (poisonWritten s n).boot = s.boot := rfl
@[simp] theorem poisonWritten_mem (s : State) (n : Nat) : (poisonWritten s n).mem = s.mem := rfl
@[simp] theorem poisonWritten_sets (s : State) (n : Nat) : (poisonWritten s n).sets = s.sets := rfl
@[simp] theorem poisonWritten_roots (s : State) (n : Nat) : (poisonWritten s n).roots = s.roots := rfl
@[simp] theorem poisonWritten_pairs (s : State) (n : Nat) : (poisonWritten s n).pairs = s.pairs := rfl
@[simp] theorem poisonWritten_slots (s : State) (n : Nat) : (poisonWritten s n).slots = s.slots := rfl
@[simp] theorem poisonWritten_cmds (s : State) (n : Nat) : (poisonWritten s n).cmds = s.cmds := rfl
@[simp] theorem poisonWritten_seq (s : State) (n : Nat) : (poisonWritten s n).seq = s.seq := rfl
@[simp] theorem poisonWritten_arbs (s : State) (n : Nat) : (poisonWritten s n).arbs = s.arbs := rfl
@[simp] theorem poisonWritten_txa (s : State) (n : Nat) : (poisonWritten s n).txa = s.txa := rfl
@[simp] theorem poisonWritten_forge (s : State) (n : Nat) : (poisonWritten s n).forge = s.forge := rfl
@[simp] theorem poisonWritten_sdx (s : State) (n : Nat) : (poisonWritten s n).sdx = s.sdx := rfl
@[simp] theorem poisonWritten_rsv (s : State) (n : Nat) : (poisonWritten s n).rsv = s.rsv := rfl
@[simp] theorem poisonWritten_mdc (s : State) (n : Nat) : (poisonWritten s n).mdc = s.mdc := rfl
@[simp] theorem poisonWritten_tok (s : State) (n : Nat) : (poisonWritten s n).tok = s.tok := rfl
@[simp] theorem poisonWritten_bat (s : State) (n : Nat) : (poisonWritten s n).bat = s.bat := rfl
@[simp] theorem poisonWritten_pools (s : State) (n : Nat) : (poisonWritten s n).pools = s.pools := rfl
@[simp] theorem poisonWritten_dlv (s : State) (n : Nat) : (poisonWritten s n).dlv = s.dlv := rfl
@[simp] theorem poisonWritten_net (s : State) (n : Nat) : (poisonWritten s n).net = s.net := rfl
@[simp] theorem poisonWritten_fed (s : State) (n : Nat) : (poisonWritten s n).fed = s.fed := rfl
@[simp] theorem poisonWritten_dict (s : State) (n : Nat) : (poisonWritten s n).dict = s.dict := rfl
@[simp] theorem poisonWritten_pins (s : State) (n : Nat) : (poisonWritten s n).pins = s.pins := rfl
@[simp] theorem poisonWritten_evt (s : State) (n : Nat) : (poisonWritten s n).evt = s.evt := rfl
@[simp] theorem poisonWritten_ras (s : State) (n : Nat) : (poisonWritten s n).ras = s.ras := rfl
@[simp] theorem poisonWritten_trace (s : State) (n : Nat) : (poisonWritten s n).trace = s.trace := rfl
@[simp] theorem poisonWritten_tap (s : State) (n : Nat) : (poisonWritten s n).tap = s.tap := rfl
@[simp] theorem poisonWritten_removal (s : State) (n : Nat) : (poisonWritten s n).removal = s.removal := rfl
@[simp] theorem slotOf_poisonWritten (s : State) (n : Nat) (j : Nat) : slotOf (poisonWritten s n) j = slotOf s j := rfl
@[simp] theorem pairOf_poisonWritten (s : State) (n : Nat) (j : Nat) : pairOf (poisonWritten s n) j = pairOf s j := rfl
@[simp] theorem srcOf_poisonWritten (s : State) (n : Nat) (j : Nat) : srcOf (poisonWritten s n) j = srcOf s j := rfl
@[simp] theorem poolOf_poisonWritten (s : State) (n : Nat) (j : Nat) : poolOf (poisonWritten s n) j = poolOf s j := rfl
@[simp] theorem portOf_poisonWritten (s : State) (n : Nat) (j : Nat) : portOf (poisonWritten s n) j = portOf s j := rfl
@[simp] theorem mailboxOf_poisonWritten (s : State) (n : Nat) (j : Nat) : mailboxOf (poisonWritten s n) j = mailboxOf s j := rfl
@[simp] theorem dieId_poisonWritten (s : State) (n : Nat) : dieId (poisonWritten s n) = dieId s := rfl
@[simp] theorem headCountClosed_poisonWritten (s : State) (n : Nat) : headCountClosed (poisonWritten s n) = headCountClosed s := rfl

/-! ### memWrite -/
@[simp] theorem memWrite_pending (s : State) (a : Nat) (bs : List Byte) : (memWrite s a bs).pending = s.pending := rfl
@[simp] theorem memWrite_drawn (s : State) (a : Nat) (bs : List Byte) : (memWrite s a bs).drawn = s.drawn := rfl
@[simp] theorem memWrite_boot (s : State) (a : Nat) (bs : List Byte) : (memWrite s a bs).boot = s.boot := rfl
@[simp] theorem memWrite_objs (s : State) (a : Nat) (bs : List Byte) : (memWrite s a bs).objs = s.objs := rfl
@[simp] theorem memWrite_sets (s : State) (a : Nat) (bs : List Byte) : (memWrite s a bs).sets = s.sets := rfl
@[simp] theorem memWrite_roots (s : State) (a : Nat) (bs : List Byte) : (memWrite s a bs).roots = s.roots := rfl
@[simp] theorem memWrite_pairs (s : State) (a : Nat) (bs : List Byte) : (memWrite s a bs).pairs = s.pairs := rfl
@[simp] theorem memWrite_slots (s : State) (a : Nat) (bs : List Byte) : (memWrite s a bs).slots = s.slots := rfl
@[simp] theorem memWrite_cmds (s : State) (a : Nat) (bs : List Byte) : (memWrite s a bs).cmds = s.cmds := rfl
@[simp] theorem memWrite_seq (s : State) (a : Nat) (bs : List Byte) : (memWrite s a bs).seq = s.seq := rfl
@[simp] theorem memWrite_arbs (s : State) (a : Nat) (bs : List Byte) : (memWrite s a bs).arbs = s.arbs := rfl
@[simp] theorem memWrite_txa (s : State) (a : Nat) (bs : List Byte) : (memWrite s a bs).txa = s.txa := rfl
@[simp] theorem memWrite_forge (s : State) (a : Nat) (bs : List Byte) : (memWrite s a bs).forge = s.forge := rfl
@[simp] theorem memWrite_sdx (s : State) (a : Nat) (bs : List Byte) : (memWrite s a bs).sdx = s.sdx := rfl
@[simp] theorem memWrite_rsv (s : State) (a : Nat) (bs : List Byte) : (memWrite s a bs).rsv = s.rsv := rfl
@[simp] theorem memWrite_mdc (s : State) (a : Nat) (bs : List Byte) : (memWrite s a bs).mdc = s.mdc := rfl
@[simp] theorem memWrite_tok (s : State) (a : Nat) (bs : List Byte) : (memWrite s a bs).tok = s.tok := rfl
@[simp] theorem memWrite_bat (s : State) (a : Nat) (bs : List Byte) : (memWrite s a bs).bat = s.bat := rfl
@[simp] theorem memWrite_pools (s : State) (a : Nat) (bs : List Byte) : (memWrite s a bs).pools = s.pools := rfl
@[simp] theorem memWrite_dlv (s : State) (a : Nat) (bs : List Byte) : (memWrite s a bs).dlv = s.dlv := rfl
@[simp] theorem memWrite_net (s : State) (a : Nat) (bs : List Byte) : (memWrite s a bs).net = s.net := rfl
@[simp] theorem memWrite_fed (s : State) (a : Nat) (bs : List Byte) : (memWrite s a bs).fed = s.fed := rfl
@[simp] theorem memWrite_dict (s : State) (a : Nat) (bs : List Byte) : (memWrite s a bs).dict = s.dict := rfl
@[simp] theorem memWrite_pins (s : State) (a : Nat) (bs : List Byte) : (memWrite s a bs).pins = s.pins := rfl
@[simp] theorem memWrite_evt (s : State) (a : Nat) (bs : List Byte) : (memWrite s a bs).evt = s.evt := rfl
@[simp] theorem memWrite_ras (s : State) (a : Nat) (bs : List Byte) : (memWrite s a bs).ras = s.ras := rfl
@[simp] theorem memWrite_trace (s : State) (a : Nat) (bs : List Byte) : (memWrite s a bs).trace = s.trace := rfl
@[simp] theorem memWrite_tap (s : State) (a : Nat) (bs : List Byte) : (memWrite s a bs).tap = s.tap := rfl
@[simp] theorem memWrite_removal (s : State) (a : Nat) (bs : List Byte) : (memWrite s a bs).removal = s.removal := rfl
@[simp] theorem objGet_memWrite (s : State) (a : Nat) (bs : List Byte) (j k : Nat) : objGet (memWrite s a bs) j k = objGet s j k := rfl
@[simp] theorem slotOf_memWrite (s : State) (a : Nat) (bs : List Byte) (j : Nat) : slotOf (memWrite s a bs) j = slotOf s j := rfl
@[simp] theorem pairOf_memWrite (s : State) (a : Nat) (bs : List Byte) (j : Nat) : pairOf (memWrite s a bs) j = pairOf s j := rfl
@[simp] theorem srcOf_memWrite (s : State) (a : Nat) (bs : List Byte) (j : Nat) : srcOf (memWrite s a bs) j = srcOf s j := rfl
@[simp] theorem poolOf_memWrite (s : State) (a : Nat) (bs : List Byte) (j : Nat) : poolOf (memWrite s a bs) j = poolOf s j := rfl
@[simp] theorem portOf_memWrite (s : State) (a : Nat) (bs : List Byte) (j : Nat) : portOf (memWrite s a bs) j = portOf s j := rfl
@[simp] theorem mailboxOf_memWrite (s : State) (a : Nat) (bs : List Byte) (j : Nat) : mailboxOf (memWrite s a bs) j = mailboxOf s j := rfl
@[simp] theorem dieId_memWrite (s : State) (a : Nat) (bs : List Byte) : dieId (memWrite s a bs) = dieId s := rfl
@[simp] theorem headCountClosed_memWrite (s : State) (a : Nat) (bs : List Byte) : headCountClosed (memWrite s a bs) = headCountClosed s := rfl

/-! ### txaWrite -/
@[simp] theorem txaWrite_pending (s : State) (a : Nat) (bs : List Byte) : (txaWrite s a bs).pending = s.pending := rfl
@[simp] theorem txaWrite_drawn (s : State) (a : Nat) (bs : List Byte) : (txaWrite s a bs).drawn = s.drawn := rfl
@[simp] theorem txaWrite_boot (s : State) (a : Nat) (bs : List Byte) : (txaWrite s a bs).boot = s.boot := rfl
@[simp] theorem txaWrite_objs (s : State) (a : Nat) (bs : List Byte) : (txaWrite s a bs).objs = s.objs := rfl
@[simp] theorem txaWrite_sets (s : State) (a : Nat) (bs : List Byte) : (txaWrite s a bs).sets = s.sets := rfl
@[simp] theorem txaWrite_roots (s : State) (a : Nat) (bs : List Byte) : (txaWrite s a bs).roots = s.roots := rfl
@[simp] theorem txaWrite_pairs (s : State) (a : Nat) (bs : List Byte) : (txaWrite s a bs).pairs = s.pairs := rfl
@[simp] theorem txaWrite_slots (s : State) (a : Nat) (bs : List Byte) : (txaWrite s a bs).slots = s.slots := rfl
@[simp] theorem txaWrite_cmds (s : State) (a : Nat) (bs : List Byte) : (txaWrite s a bs).cmds = s.cmds := rfl
@[simp] theorem txaWrite_seq (s : State) (a : Nat) (bs : List Byte) : (txaWrite s a bs).seq = s.seq := rfl
@[simp] theorem txaWrite_arbs (s : State) (a : Nat) (bs : List Byte) : (txaWrite s a bs).arbs = s.arbs := rfl
@[simp] theorem txaWrite_txa (s : State) (a : Nat) (bs : List Byte) : (txaWrite s a bs).txa = s.txa := rfl
@[simp] theorem txaWrite_forge (s : State) (a : Nat) (bs : List Byte) : (txaWrite s a bs).forge = s.forge := rfl
@[simp] theorem txaWrite_sdx (s : State) (a : Nat) (bs : List Byte) : (txaWrite s a bs).sdx = s.sdx := rfl
@[simp] theorem txaWrite_rsv (s : State) (a : Nat) (bs : List Byte) : (txaWrite s a bs).rsv = s.rsv := rfl
@[simp] theorem txaWrite_mdc (s : State) (a : Nat) (bs : List Byte) : (txaWrite s a bs).mdc = s.mdc := rfl
@[simp] theorem txaWrite_tok (s : State) (a : Nat) (bs : List Byte) : (txaWrite s a bs).tok = s.tok := rfl
@[simp] theorem txaWrite_bat (s : State) (a : Nat) (bs : List Byte) : (txaWrite s a bs).bat = s.bat := rfl
@[simp] theorem txaWrite_pools (s : State) (a : Nat) (bs : List Byte) : (txaWrite s a bs).pools = s.pools := rfl
@[simp] theorem txaWrite_dlv (s : State) (a : Nat) (bs : List Byte) : (txaWrite s a bs).dlv = s.dlv := rfl
@[simp] theorem txaWrite_net (s : State) (a : Nat) (bs : List Byte) : (txaWrite s a bs).net = s.net := rfl
@[simp] theorem txaWrite_fed (s : State) (a : Nat) (bs : List Byte) : (txaWrite s a bs).fed = s.fed := rfl
@[simp] theorem txaWrite_dict (s : State) (a : Nat) (bs : List Byte) : (txaWrite s a bs).dict = s.dict := rfl
@[simp] theorem txaWrite_pins (s : State) (a : Nat) (bs : List Byte) : (txaWrite s a bs).pins = s.pins := rfl
@[simp] theorem txaWrite_evt (s : State) (a : Nat) (bs : List Byte) : (txaWrite s a bs).evt = s.evt := rfl
@[simp] theorem txaWrite_ras (s : State) (a : Nat) (bs : List Byte) : (txaWrite s a bs).ras = s.ras := rfl
@[simp] theorem txaWrite_trace (s : State) (a : Nat) (bs : List Byte) : (txaWrite s a bs).trace = s.trace := rfl
@[simp] theorem txaWrite_tap (s : State) (a : Nat) (bs : List Byte) : (txaWrite s a bs).tap = s.tap := rfl
@[simp] theorem txaWrite_removal (s : State) (a : Nat) (bs : List Byte) : (txaWrite s a bs).removal = s.removal := rfl
@[simp] theorem objGet_txaWrite (s : State) (a : Nat) (bs : List Byte) (j k : Nat) : objGet (txaWrite s a bs) j k = objGet s j k := rfl
@[simp] theorem slotOf_txaWrite (s : State) (a : Nat) (bs : List Byte) (j : Nat) : slotOf (txaWrite s a bs) j = slotOf s j := rfl
@[simp] theorem pairOf_txaWrite (s : State) (a : Nat) (bs : List Byte) (j : Nat) : pairOf (txaWrite s a bs) j = pairOf s j := rfl
@[simp] theorem srcOf_txaWrite (s : State) (a : Nat) (bs : List Byte) (j : Nat) : srcOf (txaWrite s a bs) j = srcOf s j := rfl
@[simp] theorem poolOf_txaWrite (s : State) (a : Nat) (bs : List Byte) (j : Nat) : poolOf (txaWrite s a bs) j = poolOf s j := rfl
@[simp] theorem portOf_txaWrite (s : State) (a : Nat) (bs : List Byte) (j : Nat) : portOf (txaWrite s a bs) j = portOf s j := rfl
@[simp] theorem mailboxOf_txaWrite (s : State) (a : Nat) (bs : List Byte) (j : Nat) : mailboxOf (txaWrite s a bs) j = mailboxOf s j := rfl
@[simp] theorem dieId_txaWrite (s : State) (a : Nat) (bs : List Byte) : dieId (txaWrite s a bs) = dieId s := rfl
@[simp] theorem headCountClosed_txaWrite (s : State) (a : Nat) (bs : List Byte) : headCountClosed (txaWrite s a bs) = headCountClosed s := rfl

/-! ### pfgWrite -/
@[simp] theorem pfgWrite_pending (s : State) (a : Nat) (bs : List Byte) : (pfgWrite s a bs).pending = s.pending := rfl
@[simp] theorem pfgWrite_drawn (s : State) (a : Nat) (bs : List Byte) : (pfgWrite s a bs).drawn = s.drawn := rfl
@[simp] theorem pfgWrite_boot (s : State) (a : Nat) (bs : List Byte) : (pfgWrite s a bs).boot = s.boot := rfl
@[simp] theorem pfgWrite_objs (s : State) (a : Nat) (bs : List Byte) : (pfgWrite s a bs).objs = s.objs := rfl
@[simp] theorem pfgWrite_sets (s : State) (a : Nat) (bs : List Byte) : (pfgWrite s a bs).sets = s.sets := rfl
@[simp] theorem pfgWrite_roots (s : State) (a : Nat) (bs : List Byte) : (pfgWrite s a bs).roots = s.roots := rfl
@[simp] theorem pfgWrite_pairs (s : State) (a : Nat) (bs : List Byte) : (pfgWrite s a bs).pairs = s.pairs := rfl
@[simp] theorem pfgWrite_slots (s : State) (a : Nat) (bs : List Byte) : (pfgWrite s a bs).slots = s.slots := rfl
@[simp] theorem pfgWrite_cmds (s : State) (a : Nat) (bs : List Byte) : (pfgWrite s a bs).cmds = s.cmds := rfl
@[simp] theorem pfgWrite_seq (s : State) (a : Nat) (bs : List Byte) : (pfgWrite s a bs).seq = s.seq := rfl
@[simp] theorem pfgWrite_arbs (s : State) (a : Nat) (bs : List Byte) : (pfgWrite s a bs).arbs = s.arbs := rfl
@[simp] theorem pfgWrite_txa (s : State) (a : Nat) (bs : List Byte) : (pfgWrite s a bs).txa = s.txa := rfl
@[simp] theorem pfgWrite_forge (s : State) (a : Nat) (bs : List Byte) : (pfgWrite s a bs).forge = s.forge := rfl
@[simp] theorem pfgWrite_sdx (s : State) (a : Nat) (bs : List Byte) : (pfgWrite s a bs).sdx = s.sdx := rfl
@[simp] theorem pfgWrite_rsv (s : State) (a : Nat) (bs : List Byte) : (pfgWrite s a bs).rsv = s.rsv := rfl
@[simp] theorem pfgWrite_mdc (s : State) (a : Nat) (bs : List Byte) : (pfgWrite s a bs).mdc = s.mdc := rfl
@[simp] theorem pfgWrite_tok (s : State) (a : Nat) (bs : List Byte) : (pfgWrite s a bs).tok = s.tok := rfl
@[simp] theorem pfgWrite_bat (s : State) (a : Nat) (bs : List Byte) : (pfgWrite s a bs).bat = s.bat := rfl
@[simp] theorem pfgWrite_pools (s : State) (a : Nat) (bs : List Byte) : (pfgWrite s a bs).pools = s.pools := rfl
@[simp] theorem pfgWrite_dlv (s : State) (a : Nat) (bs : List Byte) : (pfgWrite s a bs).dlv = s.dlv := rfl
@[simp] theorem pfgWrite_net (s : State) (a : Nat) (bs : List Byte) : (pfgWrite s a bs).net = s.net := rfl
@[simp] theorem pfgWrite_fed (s : State) (a : Nat) (bs : List Byte) : (pfgWrite s a bs).fed = s.fed := rfl
@[simp] theorem pfgWrite_dict (s : State) (a : Nat) (bs : List Byte) : (pfgWrite s a bs).dict = s.dict := rfl
@[simp] theorem pfgWrite_pins (s : State) (a : Nat) (bs : List Byte) : (pfgWrite s a bs).pins = s.pins := rfl
@[simp] theorem pfgWrite_evt (s : State) (a : Nat) (bs : List Byte) : (pfgWrite s a bs).evt = s.evt := rfl
@[simp] theorem pfgWrite_ras (s : State) (a : Nat) (bs : List Byte) : (pfgWrite s a bs).ras = s.ras := rfl
@[simp] theorem pfgWrite_trace (s : State) (a : Nat) (bs : List Byte) : (pfgWrite s a bs).trace = s.trace := rfl
@[simp] theorem pfgWrite_tap (s : State) (a : Nat) (bs : List Byte) : (pfgWrite s a bs).tap = s.tap := rfl
@[simp] theorem pfgWrite_removal (s : State) (a : Nat) (bs : List Byte) : (pfgWrite s a bs).removal = s.removal := rfl
@[simp] theorem objGet_pfgWrite (s : State) (a : Nat) (bs : List Byte) (j k : Nat) : objGet (pfgWrite s a bs) j k = objGet s j k := rfl
@[simp] theorem slotOf_pfgWrite (s : State) (a : Nat) (bs : List Byte) (j : Nat) : slotOf (pfgWrite s a bs) j = slotOf s j := rfl
@[simp] theorem pairOf_pfgWrite (s : State) (a : Nat) (bs : List Byte) (j : Nat) : pairOf (pfgWrite s a bs) j = pairOf s j := rfl
@[simp] theorem srcOf_pfgWrite (s : State) (a : Nat) (bs : List Byte) (j : Nat) : srcOf (pfgWrite s a bs) j = srcOf s j := rfl
@[simp] theorem poolOf_pfgWrite (s : State) (a : Nat) (bs : List Byte) (j : Nat) : poolOf (pfgWrite s a bs) j = poolOf s j := rfl
@[simp] theorem portOf_pfgWrite (s : State) (a : Nat) (bs : List Byte) (j : Nat) : portOf (pfgWrite s a bs) j = portOf s j := rfl
@[simp] theorem mailboxOf_pfgWrite (s : State) (a : Nat) (bs : List Byte) (j : Nat) : mailboxOf (pfgWrite s a bs) j = mailboxOf s j := rfl
@[simp] theorem dieId_pfgWrite (s : State) (a : Nat) (bs : List Byte) : dieId (pfgWrite s a bs) = dieId s := rfl
@[simp] theorem headCountClosed_pfgWrite (s : State) (a : Nat) (bs : List Byte) : headCountClosed (pfgWrite s a bs) = headCountClosed s := rfl

/-! ### setSlot -/
@[simp] theorem setSlot_pending (s : State) (n : Nat) (x : Slot) : (setSlot s n x).pending = s.pending := rfl
@[simp] theorem setSlot_drawn (s : State) (n : Nat) (x : Slot) : (setSlot s n x).drawn = s.drawn := rfl
@[simp] theorem setSlot_boot (s : State) (n : Nat) (x : Slot) : (setSlot s n x).boot = s.boot := rfl
@[simp] theorem setSlot_objs (s : State) (n : Nat) (x : Slot) : (setSlot s n x).objs = s.objs := rfl
@[simp] theorem setSlot_mem (s : State) (n : Nat) (x : Slot) : (setSlot s n x).mem = s.mem := rfl
@[simp] theorem setSlot_sets (s : State) (n : Nat) (x : Slot) : (setSlot s n x).sets = s.sets := rfl
@[simp] theorem setSlot_roots (s : State) (n : Nat) (x : Slot) : (setSlot s n x).roots = s.roots := rfl
@[simp] theorem setSlot_pairs (s : State) (n : Nat) (x : Slot) : (setSlot s n x).pairs = s.pairs := rfl
@[simp] theorem setSlot_cmds (s : State) (n : Nat) (x : Slot) : (setSlot s n x).cmds = s.cmds := rfl
@[simp] theorem setSlot_seq (s : State) (n : Nat) (x : Slot) : (setSlot s n x).seq = s.seq := rfl
@[simp] theorem setSlot_arbs (s : State) (n : Nat) (x : Slot) : (setSlot s n x).arbs = s.arbs := rfl
@[simp] theorem setSlot_txa (s : State) (n : Nat) (x : Slot) : (setSlot s n x).txa = s.txa := rfl
@[simp] theorem setSlot_forge (s : State) (n : Nat) (x : Slot) : (setSlot s n x).forge = s.forge := rfl
@[simp] theorem setSlot_sdx (s : State) (n : Nat) (x : Slot) : (setSlot s n x).sdx = s.sdx := rfl
@[simp] theorem setSlot_rsv (s : State) (n : Nat) (x : Slot) : (setSlot s n x).rsv = s.rsv := rfl
@[simp] theorem setSlot_mdc (s : State) (n : Nat) (x : Slot) : (setSlot s n x).mdc = s.mdc := rfl
@[simp] theorem setSlot_tok (s : State) (n : Nat) (x : Slot) : (setSlot s n x).tok = s.tok := rfl
@[simp] theorem setSlot_bat (s : State) (n : Nat) (x : Slot) : (setSlot s n x).bat = s.bat := rfl
@[simp] theorem setSlot_pools (s : State) (n : Nat) (x : Slot) : (setSlot s n x).pools = s.pools := rfl
@[simp] theorem setSlot_dlv (s : State) (n : Nat) (x : Slot) : (setSlot s n x).dlv = s.dlv := rfl
@[simp] theorem setSlot_net (s : State) (n : Nat) (x : Slot) : (setSlot s n x).net = s.net := rfl
@[simp] theorem setSlot_fed (s : State) (n : Nat) (x : Slot) : (setSlot s n x).fed = s.fed := rfl
@[simp] theorem setSlot_dict (s : State) (n : Nat) (x : Slot) : (setSlot s n x).dict = s.dict := rfl
@[simp] theorem setSlot_pins (s : State) (n : Nat) (x : Slot) : (setSlot s n x).pins = s.pins := rfl
@[simp] theorem setSlot_evt (s : State) (n : Nat) (x : Slot) : (setSlot s n x).evt = s.evt := rfl
@[simp] theorem setSlot_ras (s : State) (n : Nat) (x : Slot) : (setSlot s n x).ras = s.ras := rfl
@[simp] theorem setSlot_trace (s : State) (n : Nat) (x : Slot) : (setSlot s n x).trace = s.trace := rfl
@[simp] theorem setSlot_tap (s : State) (n : Nat) (x : Slot) : (setSlot s n x).tap = s.tap := rfl
@[simp] theorem setSlot_removal (s : State) (n : Nat) (x : Slot) : (setSlot s n x).removal = s.removal := rfl
@[simp] theorem objGet_setSlot (s : State) (n : Nat) (x : Slot) (j k : Nat) : objGet (setSlot s n x) j k = objGet s j k := rfl
@[simp] theorem pairOf_setSlot (s : State) (n : Nat) (x : Slot) (j : Nat) : pairOf (setSlot s n x) j = pairOf s j := rfl
@[simp] theorem srcOf_setSlot (s : State) (n : Nat) (x : Slot) (j : Nat) : srcOf (setSlot s n x) j = srcOf s j := rfl
@[simp] theorem poolOf_setSlot (s : State) (n : Nat) (x : Slot) (j : Nat) : poolOf (setSlot s n x) j = poolOf s j := rfl
@[simp] theorem portOf_setSlot (s : State) (n : Nat) (x : Slot) (j : Nat) : portOf (setSlot s n x) j = portOf s j := rfl
@[simp] theorem mailboxOf_setSlot (s : State) (n : Nat) (x : Slot) (j : Nat) : mailboxOf (setSlot s n x) j = mailboxOf s j := rfl
@[simp] theorem dieId_setSlot (s : State) (n : Nat) (x : Slot) : dieId (setSlot s n x) = dieId s := rfl
@[simp] theorem headCountClosed_setSlot (s : State) (n : Nat) (x : Slot) : headCountClosed (setSlot s n x) = headCountClosed s := rfl

/-! ### modSlot -/
@[simp] theorem modSlot_pending (s : State) (n : Nat) (f : Slot → Slot) : (modSlot s n f).pending = s.pending := rfl
@[simp] theorem modSlot_drawn (s : State) (n : Nat) (f : Slot → Slot) : (modSlot s n f).drawn = s.drawn := rfl
@[simp] theorem modSlot_boot (s : State) (n : Nat) (f : Slot → Slot) : (modSlot s n f).boot = s.boot := rfl
@[simp] theorem modSlot_objs (s : State) (n : Nat) (f : Slot → Slot) : (modSlot s n f).objs = s.objs := rfl
@[simp] theorem modSlot_mem (s : State) (n : Nat) (f : Slot → Slot) : (modSlot s n f).mem = s.mem := rfl
@[simp] theorem modSlot_sets (s : State) (n : Nat) (f : Slot → Slot) : (modSlot s n f).sets = s.sets := rfl
@[simp] theorem modSlot_roots (s : State) (n : Nat) (f : Slot → Slot) : (modSlot s n f).roots = s.roots := rfl
@[simp] theorem modSlot_pairs (s : State) (n : Nat) (f : Slot → Slot) : (modSlot s n f).pairs = s.pairs := rfl
@[simp] theorem modSlot_cmds (s : State) (n : Nat) (f : Slot → Slot) : (modSlot s n f).cmds = s.cmds := rfl
@[simp] theorem modSlot_seq (s : State) (n : Nat) (f : Slot → Slot) : (modSlot s n f).seq = s.seq := rfl
@[simp] theorem modSlot_arbs (s : State) (n : Nat) (f : Slot → Slot) : (modSlot s n f).arbs = s.arbs := rfl
@[simp] theorem modSlot_txa (s : State) (n : Nat) (f : Slot → Slot) : (modSlot s n f).txa = s.txa := rfl
@[simp] theorem modSlot_forge (s : State) (n : Nat) (f : Slot → Slot) : (modSlot s n f).forge = s.forge := rfl
@[simp] theorem modSlot_sdx (s : State) (n : Nat) (f : Slot → Slot) : (modSlot s n f).sdx = s.sdx := rfl
@[simp] theorem modSlot_rsv (s : State) (n : Nat) (f : Slot → Slot) : (modSlot s n f).rsv = s.rsv := rfl
@[simp] theorem modSlot_mdc (s : State) (n : Nat) (f : Slot → Slot) : (modSlot s n f).mdc = s.mdc := rfl
@[simp] theorem modSlot_tok (s : State) (n : Nat) (f : Slot → Slot) : (modSlot s n f).tok = s.tok := rfl
@[simp] theorem modSlot_bat (s : State) (n : Nat) (f : Slot → Slot) : (modSlot s n f).bat = s.bat := rfl
@[simp] theorem modSlot_pools (s : State) (n : Nat) (f : Slot → Slot) : (modSlot s n f).pools = s.pools := rfl
@[simp] theorem modSlot_dlv (s : State) (n : Nat) (f : Slot → Slot) : (modSlot s n f).dlv = s.dlv := rfl
@[simp] theorem modSlot_net (s : State) (n : Nat) (f : Slot → Slot) : (modSlot s n f).net = s.net := rfl
@[simp] theorem modSlot_fed (s : State) (n : Nat) (f : Slot → Slot) : (modSlot s n f).fed = s.fed := rfl
@[simp] theorem modSlot_dict (s : State) (n : Nat) (f : Slot → Slot) : (modSlot s n f).dict = s.dict := rfl
@[simp] theorem modSlot_pins (s : State) (n : Nat) (f : Slot → Slot) : (modSlot s n f).pins = s.pins := rfl
@[simp] theorem modSlot_evt (s : State) (n : Nat) (f : Slot → Slot) : (modSlot s n f).evt = s.evt := rfl
@[simp] theorem modSlot_ras (s : State) (n : Nat) (f : Slot → Slot) : (modSlot s n f).ras = s.ras := rfl
@[simp] theorem modSlot_trace (s : State) (n : Nat) (f : Slot → Slot) : (modSlot s n f).trace = s.trace := rfl
@[simp] theorem modSlot_tap (s : State) (n : Nat) (f : Slot → Slot) : (modSlot s n f).tap = s.tap := rfl
@[simp] theorem modSlot_removal (s : State) (n : Nat) (f : Slot → Slot) : (modSlot s n f).removal = s.removal := rfl
@[simp] theorem objGet_modSlot (s : State) (n : Nat) (f : Slot → Slot) (j k : Nat) : objGet (modSlot s n f) j k = objGet s j k := rfl
@[simp] theorem pairOf_modSlot (s : State) (n : Nat) (f : Slot → Slot) (j : Nat) : pairOf (modSlot s n f) j = pairOf s j := rfl
@[simp] theorem srcOf_modSlot (s : State) (n : Nat) (f : Slot → Slot) (j : Nat) : srcOf (modSlot s n f) j = srcOf s j := rfl
@[simp] theorem poolOf_modSlot (s : State) (n : Nat) (f : Slot → Slot) (j : Nat) : poolOf (modSlot s n f) j = poolOf s j := rfl
@[simp] theorem portOf_modSlot (s : State) (n : Nat) (f : Slot → Slot) (j : Nat) : portOf (modSlot s n f) j = portOf s j := rfl
@[simp] theorem mailboxOf_modSlot (s : State) (n : Nat) (f : Slot → Slot) (j : Nat) : mailboxOf (modSlot s n f) j = mailboxOf s j := rfl
@[simp] theorem dieId_modSlot (s : State) (n : Nat) (f : Slot → Slot) : dieId (modSlot s n f) = dieId s := rfl
@[simp] theorem headCountClosed_modSlot (s : State) (n : Nat) (f : Slot → Slot) : headCountClosed (modSlot s n f) = headCountClosed s := rfl

/-! ### setPair -/
@[simp] theorem setPair_pending (s : State) (p : Nat) (x : Pair) : (setPair s p x).pending = s.pending := rfl
@[simp] theorem setPair_drawn (s : State) (p : Nat) (x : Pair) : (setPair s p x).drawn = s.drawn := rfl
@[simp] theorem setPair_boot (s : State) (p : Nat) (x : Pair) : (setPair s p x).boot = s.boot := rfl
@[simp] theorem setPair_objs (s : State) (p : Nat) (x : Pair) : (setPair s p x).objs = s.objs := rfl
@[simp] theorem setPair_mem (s : State) (p : Nat) (x : Pair) : (setPair s p x).mem = s.mem := rfl
@[simp] theorem setPair_sets (s : State) (p : Nat) (x : Pair) : (setPair s p x).sets = s.sets := rfl
@[simp] theorem setPair_roots (s : State) (p : Nat) (x : Pair) : (setPair s p x).roots = s.roots := rfl
@[simp] theorem setPair_slots (s : State) (p : Nat) (x : Pair) : (setPair s p x).slots = s.slots := rfl
@[simp] theorem setPair_cmds (s : State) (p : Nat) (x : Pair) : (setPair s p x).cmds = s.cmds := rfl
@[simp] theorem setPair_seq (s : State) (p : Nat) (x : Pair) : (setPair s p x).seq = s.seq := rfl
@[simp] theorem setPair_arbs (s : State) (p : Nat) (x : Pair) : (setPair s p x).arbs = s.arbs := rfl
@[simp] theorem setPair_txa (s : State) (p : Nat) (x : Pair) : (setPair s p x).txa = s.txa := rfl
@[simp] theorem setPair_forge (s : State) (p : Nat) (x : Pair) : (setPair s p x).forge = s.forge := rfl
@[simp] theorem setPair_sdx (s : State) (p : Nat) (x : Pair) : (setPair s p x).sdx = s.sdx := rfl
@[simp] theorem setPair_rsv (s : State) (p : Nat) (x : Pair) : (setPair s p x).rsv = s.rsv := rfl
@[simp] theorem setPair_mdc (s : State) (p : Nat) (x : Pair) : (setPair s p x).mdc = s.mdc := rfl
@[simp] theorem setPair_tok (s : State) (p : Nat) (x : Pair) : (setPair s p x).tok = s.tok := rfl
@[simp] theorem setPair_bat (s : State) (p : Nat) (x : Pair) : (setPair s p x).bat = s.bat := rfl
@[simp] theorem setPair_pools (s : State) (p : Nat) (x : Pair) : (setPair s p x).pools = s.pools := rfl
@[simp] theorem setPair_dlv (s : State) (p : Nat) (x : Pair) : (setPair s p x).dlv = s.dlv := rfl
@[simp] theorem setPair_net (s : State) (p : Nat) (x : Pair) : (setPair s p x).net = s.net := rfl
@[simp] theorem setPair_fed (s : State) (p : Nat) (x : Pair) : (setPair s p x).fed = s.fed := rfl
@[simp] theorem setPair_dict (s : State) (p : Nat) (x : Pair) : (setPair s p x).dict = s.dict := rfl
@[simp] theorem setPair_pins (s : State) (p : Nat) (x : Pair) : (setPair s p x).pins = s.pins := rfl
@[simp] theorem setPair_evt (s : State) (p : Nat) (x : Pair) : (setPair s p x).evt = s.evt := rfl
@[simp] theorem setPair_ras (s : State) (p : Nat) (x : Pair) : (setPair s p x).ras = s.ras := rfl
@[simp] theorem setPair_trace (s : State) (p : Nat) (x : Pair) : (setPair s p x).trace = s.trace := rfl
@[simp] theorem setPair_tap (s : State) (p : Nat) (x : Pair) : (setPair s p x).tap = s.tap := rfl
@[simp] theorem setPair_removal (s : State) (p : Nat) (x : Pair) : (setPair s p x).removal = s.removal := rfl
@[simp] theorem objGet_setPair (s : State) (p : Nat) (x : Pair) (j k : Nat) : objGet (setPair s p x) j k = objGet s j k := rfl
@[simp] theorem slotOf_setPair (s : State) (p : Nat) (x : Pair) (j : Nat) : slotOf (setPair s p x) j = slotOf s j := rfl
@[simp] theorem srcOf_setPair (s : State) (p : Nat) (x : Pair) (j : Nat) : srcOf (setPair s p x) j = srcOf s j := rfl
@[simp] theorem poolOf_setPair (s : State) (p : Nat) (x : Pair) (j : Nat) : poolOf (setPair s p x) j = poolOf s j := rfl
@[simp] theorem portOf_setPair (s : State) (p : Nat) (x : Pair) (j : Nat) : portOf (setPair s p x) j = portOf s j := rfl
@[simp] theorem mailboxOf_setPair (s : State) (p : Nat) (x : Pair) (j : Nat) : mailboxOf (setPair s p x) j = mailboxOf s j := rfl
@[simp] theorem dieId_setPair (s : State) (p : Nat) (x : Pair) : dieId (setPair s p x) = dieId s := rfl
@[simp] theorem headCountClosed_setPair (s : State) (p : Nat) (x : Pair) : headCountClosed (setPair s p x) = headCountClosed s := rfl

/-! ### send -/
@[simp] theorem send_pending (s : State) (m : D2d) : (send s m).pending = s.pending := rfl
@[simp] theorem send_drawn (s : State) (m : D2d) : (send s m).drawn = s.drawn := rfl
@[simp] theorem send_boot (s : State) (m : D2d) : (send s m).boot = s.boot := rfl
@[simp] theorem send_objs (s : State) (m : D2d) : (send s m).objs = s.objs := rfl
@[simp] theorem send_mem (s : State) (m : D2d) : (send s m).mem = s.mem := rfl
@[simp] theorem send_sets (s : State) (m : D2d) : (send s m).sets = s.sets := rfl
@[simp] theorem send_roots (s : State) (m : D2d) : (send s m).roots = s.roots := rfl
@[simp] theorem send_pairs (s : State) (m : D2d) : (send s m).pairs = s.pairs := rfl
@[simp] theorem send_slots (s : State) (m : D2d) : (send s m).slots = s.slots := rfl
@[simp] theorem send_cmds (s : State) (m : D2d) : (send s m).cmds = s.cmds := rfl
@[simp] theorem send_seq (s : State) (m : D2d) : (send s m).seq = s.seq := rfl
@[simp] theorem send_arbs (s : State) (m : D2d) : (send s m).arbs = s.arbs := rfl
@[simp] theorem send_txa (s : State) (m : D2d) : (send s m).txa = s.txa := rfl
@[simp] theorem send_forge (s : State) (m : D2d) : (send s m).forge = s.forge := rfl
@[simp] theorem send_sdx (s : State) (m : D2d) : (send s m).sdx = s.sdx := rfl
@[simp] theorem send_rsv (s : State) (m : D2d) : (send s m).rsv = s.rsv := rfl
@[simp] theorem send_mdc (s : State) (m : D2d) : (send s m).mdc = s.mdc := rfl
@[simp] theorem send_tok (s : State) (m : D2d) : (send s m).tok = s.tok := rfl
@[simp] theorem send_bat (s : State) (m : D2d) : (send s m).bat = s.bat := rfl
@[simp] theorem send_pools (s : State) (m : D2d) : (send s m).pools = s.pools := rfl
@[simp] theorem send_dlv (s : State) (m : D2d) : (send s m).dlv = s.dlv := rfl
@[simp] theorem send_net (s : State) (m : D2d) : (send s m).net = s.net := rfl
@[simp] theorem send_dict (s : State) (m : D2d) : (send s m).dict = s.dict := rfl
@[simp] theorem send_pins (s : State) (m : D2d) : (send s m).pins = s.pins := rfl
@[simp] theorem send_evt (s : State) (m : D2d) : (send s m).evt = s.evt := rfl
@[simp] theorem send_ras (s : State) (m : D2d) : (send s m).ras = s.ras := rfl
@[simp] theorem send_trace (s : State) (m : D2d) : (send s m).trace = s.trace := rfl
@[simp] theorem send_tap (s : State) (m : D2d) : (send s m).tap = s.tap := rfl
@[simp] theorem send_removal (s : State) (m : D2d) : (send s m).removal = s.removal := rfl
@[simp] theorem objGet_send (s : State) (m : D2d) (j k : Nat) : objGet (send s m) j k = objGet s j k := rfl
@[simp] theorem slotOf_send (s : State) (m : D2d) (j : Nat) : slotOf (send s m) j = slotOf s j := rfl
@[simp] theorem pairOf_send (s : State) (m : D2d) (j : Nat) : pairOf (send s m) j = pairOf s j := rfl
@[simp] theorem srcOf_send (s : State) (m : D2d) (j : Nat) : srcOf (send s m) j = srcOf s j := rfl
@[simp] theorem poolOf_send (s : State) (m : D2d) (j : Nat) : poolOf (send s m) j = poolOf s j := rfl
@[simp] theorem portOf_send (s : State) (m : D2d) (j : Nat) : portOf (send s m) j = portOf s j := rfl
@[simp] theorem mailboxOf_send (s : State) (m : D2d) (j : Nat) : mailboxOf (send s m) j = mailboxOf s j := rfl
@[simp] theorem dieId_send (s : State) (m : D2d) : dieId (send s m) = dieId s := rfl

/-! ### setSrc -/
@[simp] theorem setSrc_pending (s : State) (n : Nat) (x : Src) : (setSrc s n x).pending = s.pending := rfl
@[simp] theorem setSrc_drawn (s : State) (n : Nat) (x : Src) : (setSrc s n x).drawn = s.drawn := rfl
@[simp] theorem setSrc_boot (s : State) (n : Nat) (x : Src) : (setSrc s n x).boot = s.boot := rfl
@[simp] theorem setSrc_objs (s : State) (n : Nat) (x : Src) : (setSrc s n x).objs = s.objs := rfl
@[simp] theorem setSrc_mem (s : State) (n : Nat) (x : Src) : (setSrc s n x).mem = s.mem := rfl
@[simp] theorem setSrc_sets (s : State) (n : Nat) (x : Src) : (setSrc s n x).sets = s.sets := rfl
@[simp] theorem setSrc_roots (s : State) (n : Nat) (x : Src) : (setSrc s n x).roots = s.roots := rfl
@[simp] theorem setSrc_pairs (s : State) (n : Nat) (x : Src) : (setSrc s n x).pairs = s.pairs := rfl
@[simp] theorem setSrc_slots (s : State) (n : Nat) (x : Src) : (setSrc s n x).slots = s.slots := rfl
@[simp] theorem setSrc_cmds (s : State) (n : Nat) (x : Src) : (setSrc s n x).cmds = s.cmds := rfl
@[simp] theorem setSrc_seq (s : State) (n : Nat) (x : Src) : (setSrc s n x).seq = s.seq := rfl
@[simp] theorem setSrc_arbs (s : State) (n : Nat) (x : Src) : (setSrc s n x).arbs = s.arbs := rfl
@[simp] theorem setSrc_txa (s : State) (n : Nat) (x : Src) : (setSrc s n x).txa = s.txa := rfl
@[simp] theorem setSrc_forge (s : State) (n : Nat) (x : Src) : (setSrc s n x).forge = s.forge := rfl
@[simp] theorem setSrc_sdx (s : State) (n : Nat) (x : Src) : (setSrc s n x).sdx = s.sdx := rfl
@[simp] theorem setSrc_rsv (s : State) (n : Nat) (x : Src) : (setSrc s n x).rsv = s.rsv := rfl
@[simp] theorem setSrc_mdc (s : State) (n : Nat) (x : Src) : (setSrc s n x).mdc = s.mdc := rfl
@[simp] theorem setSrc_tok (s : State) (n : Nat) (x : Src) : (setSrc s n x).tok = s.tok := rfl
@[simp] theorem setSrc_bat (s : State) (n : Nat) (x : Src) : (setSrc s n x).bat = s.bat := rfl
@[simp] theorem setSrc_pools (s : State) (n : Nat) (x : Src) : (setSrc s n x).pools = s.pools := rfl
@[simp] theorem setSrc_dlv (s : State) (n : Nat) (x : Src) : (setSrc s n x).dlv = s.dlv := rfl
@[simp] theorem setSrc_net (s : State) (n : Nat) (x : Src) : (setSrc s n x).net = s.net := rfl
@[simp] theorem setSrc_fed (s : State) (n : Nat) (x : Src) : (setSrc s n x).fed = s.fed := rfl
@[simp] theorem setSrc_dict (s : State) (n : Nat) (x : Src) : (setSrc s n x).dict = s.dict := rfl
@[simp] theorem setSrc_pins (s : State) (n : Nat) (x : Src) : (setSrc s n x).pins = s.pins := rfl
@[simp] theorem setSrc_ras (s : State) (n : Nat) (x : Src) : (setSrc s n x).ras = s.ras := rfl
@[simp] theorem setSrc_trace (s : State) (n : Nat) (x : Src) : (setSrc s n x).trace = s.trace := rfl
@[simp] theorem setSrc_tap (s : State) (n : Nat) (x : Src) : (setSrc s n x).tap = s.tap := rfl
@[simp] theorem setSrc_removal (s : State) (n : Nat) (x : Src) : (setSrc s n x).removal = s.removal := rfl
@[simp] theorem objGet_setSrc (s : State) (n : Nat) (x : Src) (j k : Nat) : objGet (setSrc s n x) j k = objGet s j k := rfl
@[simp] theorem slotOf_setSrc (s : State) (n : Nat) (x : Src) (j : Nat) : slotOf (setSrc s n x) j = slotOf s j := rfl
@[simp] theorem pairOf_setSrc (s : State) (n : Nat) (x : Src) (j : Nat) : pairOf (setSrc s n x) j = pairOf s j := rfl
@[simp] theorem poolOf_setSrc (s : State) (n : Nat) (x : Src) (j : Nat) : poolOf (setSrc s n x) j = poolOf s j := rfl
@[simp] theorem portOf_setSrc (s : State) (n : Nat) (x : Src) (j : Nat) : portOf (setSrc s n x) j = portOf s j := rfl
@[simp] theorem mailboxOf_setSrc (s : State) (n : Nat) (x : Src) (j : Nat) : mailboxOf (setSrc s n x) j = mailboxOf s j := rfl
@[simp] theorem dieId_setSrc (s : State) (n : Nat) (x : Src) : dieId (setSrc s n x) = dieId s := rfl
@[simp] theorem headCountClosed_setSrc (s : State) (n : Nat) (x : Src) : headCountClosed (setSrc s n x) = headCountClosed s := rfl

/-! ### setGrp -/
@[simp] theorem setGrp_pending (s : State) (g : Nat) (x : Grp) : (setGrp s g x).pending = s.pending := rfl
@[simp] theorem setGrp_drawn (s : State) (g : Nat) (x : Grp) : (setGrp s g x).drawn = s.drawn := rfl
@[simp] theorem setGrp_boot (s : State) (g : Nat) (x : Grp) : (setGrp s g x).boot = s.boot := rfl
@[simp] theorem setGrp_objs (s : State) (g : Nat) (x : Grp) : (setGrp s g x).objs = s.objs := rfl
@[simp] theorem setGrp_mem (s : State) (g : Nat) (x : Grp) : (setGrp s g x).mem = s.mem := rfl
@[simp] theorem setGrp_sets (s : State) (g : Nat) (x : Grp) : (setGrp s g x).sets = s.sets := rfl
@[simp] theorem setGrp_roots (s : State) (g : Nat) (x : Grp) : (setGrp s g x).roots = s.roots := rfl
@[simp] theorem setGrp_pairs (s : State) (g : Nat) (x : Grp) : (setGrp s g x).pairs = s.pairs := rfl
@[simp] theorem setGrp_slots (s : State) (g : Nat) (x : Grp) : (setGrp s g x).slots = s.slots := rfl
@[simp] theorem setGrp_cmds (s : State) (g : Nat) (x : Grp) : (setGrp s g x).cmds = s.cmds := rfl
@[simp] theorem setGrp_seq (s : State) (g : Nat) (x : Grp) : (setGrp s g x).seq = s.seq := rfl
@[simp] theorem setGrp_arbs (s : State) (g : Nat) (x : Grp) : (setGrp s g x).arbs = s.arbs := rfl
@[simp] theorem setGrp_txa (s : State) (g : Nat) (x : Grp) : (setGrp s g x).txa = s.txa := rfl
@[simp] theorem setGrp_forge (s : State) (g : Nat) (x : Grp) : (setGrp s g x).forge = s.forge := rfl
@[simp] theorem setGrp_sdx (s : State) (g : Nat) (x : Grp) : (setGrp s g x).sdx = s.sdx := rfl
@[simp] theorem setGrp_rsv (s : State) (g : Nat) (x : Grp) : (setGrp s g x).rsv = s.rsv := rfl
@[simp] theorem setGrp_mdc (s : State) (g : Nat) (x : Grp) : (setGrp s g x).mdc = s.mdc := rfl
@[simp] theorem setGrp_tok (s : State) (g : Nat) (x : Grp) : (setGrp s g x).tok = s.tok := rfl
@[simp] theorem setGrp_bat (s : State) (g : Nat) (x : Grp) : (setGrp s g x).bat = s.bat := rfl
@[simp] theorem setGrp_pools (s : State) (g : Nat) (x : Grp) : (setGrp s g x).pools = s.pools := rfl
@[simp] theorem setGrp_dlv (s : State) (g : Nat) (x : Grp) : (setGrp s g x).dlv = s.dlv := rfl
@[simp] theorem setGrp_net (s : State) (g : Nat) (x : Grp) : (setGrp s g x).net = s.net := rfl
@[simp] theorem setGrp_fed (s : State) (g : Nat) (x : Grp) : (setGrp s g x).fed = s.fed := rfl
@[simp] theorem setGrp_dict (s : State) (g : Nat) (x : Grp) : (setGrp s g x).dict = s.dict := rfl
@[simp] theorem setGrp_pins (s : State) (g : Nat) (x : Grp) : (setGrp s g x).pins = s.pins := rfl
@[simp] theorem setGrp_ras (s : State) (g : Nat) (x : Grp) : (setGrp s g x).ras = s.ras := rfl
@[simp] theorem setGrp_trace (s : State) (g : Nat) (x : Grp) : (setGrp s g x).trace = s.trace := rfl
@[simp] theorem setGrp_tap (s : State) (g : Nat) (x : Grp) : (setGrp s g x).tap = s.tap := rfl
@[simp] theorem setGrp_removal (s : State) (g : Nat) (x : Grp) : (setGrp s g x).removal = s.removal := rfl
@[simp] theorem objGet_setGrp (s : State) (g : Nat) (x : Grp) (j k : Nat) : objGet (setGrp s g x) j k = objGet s j k := rfl
@[simp] theorem slotOf_setGrp (s : State) (g : Nat) (x : Grp) (j : Nat) : slotOf (setGrp s g x) j = slotOf s j := rfl
@[simp] theorem pairOf_setGrp (s : State) (g : Nat) (x : Grp) (j : Nat) : pairOf (setGrp s g x) j = pairOf s j := rfl
@[simp] theorem poolOf_setGrp (s : State) (g : Nat) (x : Grp) (j : Nat) : poolOf (setGrp s g x) j = poolOf s j := rfl
@[simp] theorem portOf_setGrp (s : State) (g : Nat) (x : Grp) (j : Nat) : portOf (setGrp s g x) j = portOf s j := rfl
@[simp] theorem mailboxOf_setGrp (s : State) (g : Nat) (x : Grp) (j : Nat) : mailboxOf (setGrp s g x) j = mailboxOf s j := rfl
@[simp] theorem dieId_setGrp (s : State) (g : Nat) (x : Grp) : dieId (setGrp s g x) = dieId s := rfl
@[simp] theorem headCountClosed_setGrp (s : State) (g : Nat) (x : Grp) : headCountClosed (setGrp s g x) = headCountClosed s := rfl

/-! ### setCore -/
@[simp] theorem setCore_pending (s : State) (c : Nat) (x : Core) : (setCore s c x).pending = s.pending := rfl
@[simp] theorem setCore_drawn (s : State) (c : Nat) (x : Core) : (setCore s c x).drawn = s.drawn := rfl
@[simp] theorem setCore_boot (s : State) (c : Nat) (x : Core) : (setCore s c x).boot = s.boot := rfl
@[simp] theorem setCore_objs (s : State) (c : Nat) (x : Core) : (setCore s c x).objs = s.objs := rfl
@[simp] theorem setCore_mem (s : State) (c : Nat) (x : Core) : (setCore s c x).mem = s.mem := rfl
@[simp] theorem setCore_sets (s : State) (c : Nat) (x : Core) : (setCore s c x).sets = s.sets := rfl
@[simp] theorem setCore_roots (s : State) (c : Nat) (x : Core) : (setCore s c x).roots = s.roots := rfl
@[simp] theorem setCore_pairs (s : State) (c : Nat) (x : Core) : (setCore s c x).pairs = s.pairs := rfl
@[simp] theorem setCore_slots (s : State) (c : Nat) (x : Core) : (setCore s c x).slots = s.slots := rfl
@[simp] theorem setCore_cmds (s : State) (c : Nat) (x : Core) : (setCore s c x).cmds = s.cmds := rfl
@[simp] theorem setCore_seq (s : State) (c : Nat) (x : Core) : (setCore s c x).seq = s.seq := rfl
@[simp] theorem setCore_arbs (s : State) (c : Nat) (x : Core) : (setCore s c x).arbs = s.arbs := rfl
@[simp] theorem setCore_txa (s : State) (c : Nat) (x : Core) : (setCore s c x).txa = s.txa := rfl
@[simp] theorem setCore_forge (s : State) (c : Nat) (x : Core) : (setCore s c x).forge = s.forge := rfl
@[simp] theorem setCore_sdx (s : State) (c : Nat) (x : Core) : (setCore s c x).sdx = s.sdx := rfl
@[simp] theorem setCore_rsv (s : State) (c : Nat) (x : Core) : (setCore s c x).rsv = s.rsv := rfl
@[simp] theorem setCore_mdc (s : State) (c : Nat) (x : Core) : (setCore s c x).mdc = s.mdc := rfl
@[simp] theorem setCore_tok (s : State) (c : Nat) (x : Core) : (setCore s c x).tok = s.tok := rfl
@[simp] theorem setCore_bat (s : State) (c : Nat) (x : Core) : (setCore s c x).bat = s.bat := rfl
@[simp] theorem setCore_pools (s : State) (c : Nat) (x : Core) : (setCore s c x).pools = s.pools := rfl
@[simp] theorem setCore_dlv (s : State) (c : Nat) (x : Core) : (setCore s c x).dlv = s.dlv := rfl
@[simp] theorem setCore_net (s : State) (c : Nat) (x : Core) : (setCore s c x).net = s.net := rfl
@[simp] theorem setCore_fed (s : State) (c : Nat) (x : Core) : (setCore s c x).fed = s.fed := rfl
@[simp] theorem setCore_dict (s : State) (c : Nat) (x : Core) : (setCore s c x).dict = s.dict := rfl
@[simp] theorem setCore_pins (s : State) (c : Nat) (x : Core) : (setCore s c x).pins = s.pins := rfl
@[simp] theorem setCore_ras (s : State) (c : Nat) (x : Core) : (setCore s c x).ras = s.ras := rfl
@[simp] theorem setCore_trace (s : State) (c : Nat) (x : Core) : (setCore s c x).trace = s.trace := rfl
@[simp] theorem setCore_tap (s : State) (c : Nat) (x : Core) : (setCore s c x).tap = s.tap := rfl
@[simp] theorem setCore_removal (s : State) (c : Nat) (x : Core) : (setCore s c x).removal = s.removal := rfl
@[simp] theorem objGet_setCore (s : State) (c : Nat) (x : Core) (j k : Nat) : objGet (setCore s c x) j k = objGet s j k := rfl
@[simp] theorem slotOf_setCore (s : State) (c : Nat) (x : Core) (j : Nat) : slotOf (setCore s c x) j = slotOf s j := rfl
@[simp] theorem pairOf_setCore (s : State) (c : Nat) (x : Core) (j : Nat) : pairOf (setCore s c x) j = pairOf s j := rfl
@[simp] theorem poolOf_setCore (s : State) (c : Nat) (x : Core) (j : Nat) : poolOf (setCore s c x) j = poolOf s j := rfl
@[simp] theorem portOf_setCore (s : State) (c : Nat) (x : Core) (j : Nat) : portOf (setCore s c x) j = portOf s j := rfl
@[simp] theorem mailboxOf_setCore (s : State) (c : Nat) (x : Core) (j : Nat) : mailboxOf (setCore s c x) j = mailboxOf s j := rfl
@[simp] theorem dieId_setCore (s : State) (c : Nat) (x : Core) : dieId (setCore s c x) = dieId s := rfl
@[simp] theorem headCountClosed_setCore (s : State) (c : Nat) (x : Core) : headCountClosed (setCore s c x) = headCountClosed s := rfl

/-! ### release -/
@[simp] theorem release_pending (s : State) (h : Nat) : (release s h).pending = s.pending := rfl
@[simp] theorem release_drawn (s : State) (h : Nat) : (release s h).drawn = s.drawn := rfl
@[simp] theorem release_boot (s : State) (h : Nat) : (release s h).boot = s.boot := rfl
@[simp] theorem release_objs (s : State) (h : Nat) : (release s h).objs = s.objs := rfl
@[simp] theorem release_mem (s : State) (h : Nat) : (release s h).mem = s.mem := rfl
@[simp] theorem release_sets (s : State) (h : Nat) : (release s h).sets = s.sets := rfl
@[simp] theorem release_roots (s : State) (h : Nat) : (release s h).roots = s.roots := rfl
@[simp] theorem release_pairs (s : State) (h : Nat) : (release s h).pairs = s.pairs := rfl
@[simp] theorem release_slots (s : State) (h : Nat) : (release s h).slots = s.slots := rfl
@[simp] theorem release_cmds (s : State) (h : Nat) : (release s h).cmds = s.cmds := rfl
@[simp] theorem release_seq (s : State) (h : Nat) : (release s h).seq = s.seq := rfl
@[simp] theorem release_arbs (s : State) (h : Nat) : (release s h).arbs = s.arbs := rfl
@[simp] theorem release_txa (s : State) (h : Nat) : (release s h).txa = s.txa := rfl
@[simp] theorem release_forge (s : State) (h : Nat) : (release s h).forge = s.forge := rfl
@[simp] theorem release_sdx (s : State) (h : Nat) : (release s h).sdx = s.sdx := rfl
@[simp] theorem release_rsv (s : State) (h : Nat) : (release s h).rsv = s.rsv := rfl
@[simp] theorem release_mdc (s : State) (h : Nat) : (release s h).mdc = s.mdc := rfl
@[simp] theorem release_tok (s : State) (h : Nat) : (release s h).tok = s.tok := rfl
@[simp] theorem release_bat (s : State) (h : Nat) : (release s h).bat = s.bat := rfl
@[simp] theorem release_pools (s : State) (h : Nat) : (release s h).pools = s.pools := rfl
@[simp] theorem release_dlv (s : State) (h : Nat) : (release s h).dlv = s.dlv := rfl
@[simp] theorem release_net (s : State) (h : Nat) : (release s h).net = s.net := rfl
@[simp] theorem release_fed (s : State) (h : Nat) : (release s h).fed = s.fed := rfl
@[simp] theorem release_pins (s : State) (h : Nat) : (release s h).pins = s.pins := rfl
@[simp] theorem release_evt (s : State) (h : Nat) : (release s h).evt = s.evt := rfl
@[simp] theorem release_ras (s : State) (h : Nat) : (release s h).ras = s.ras := rfl
@[simp] theorem release_trace (s : State) (h : Nat) : (release s h).trace = s.trace := rfl
@[simp] theorem release_tap (s : State) (h : Nat) : (release s h).tap = s.tap := rfl
@[simp] theorem release_removal (s : State) (h : Nat) : (release s h).removal = s.removal := rfl
@[simp] theorem objGet_release (s : State) (h : Nat) (j k : Nat) : objGet (release s h) j k = objGet s j k := rfl
@[simp] theorem slotOf_release (s : State) (h : Nat) (j : Nat) : slotOf (release s h) j = slotOf s j := rfl
@[simp] theorem pairOf_release (s : State) (h : Nat) (j : Nat) : pairOf (release s h) j = pairOf s j := rfl
@[simp] theorem srcOf_release (s : State) (h : Nat) (j : Nat) : srcOf (release s h) j = srcOf s j := rfl
@[simp] theorem poolOf_release (s : State) (h : Nat) (j : Nat) : poolOf (release s h) j = poolOf s j := rfl
@[simp] theorem portOf_release (s : State) (h : Nat) (j : Nat) : portOf (release s h) j = portOf s j := rfl
@[simp] theorem dieId_release (s : State) (h : Nat) : dieId (release s h) = dieId s := rfl
@[simp] theorem headCountClosed_release (s : State) (h : Nat) : headCountClosed (release s h) = headCountClosed s := rfl

/-! ### claim -/
@[simp] theorem claim_pending (s : State) (h : Nat) (rs : List Res) : (claim s h rs).pending = s.pending := rfl
@[simp] theorem claim_drawn (s : State) (h : Nat) (rs : List Res) : (claim s h rs).drawn = s.drawn := rfl
@[simp] theorem claim_boot (s : State) (h : Nat) (rs : List Res) : (claim s h rs).boot = s.boot := rfl
@[simp] theorem claim_objs (s : State) (h : Nat) (rs : List Res) : (claim s h rs).objs = s.objs := rfl
@[simp] theorem claim_mem (s : State) (h : Nat) (rs : List Res) : (claim s h rs).mem = s.mem := rfl
@[simp] theorem claim_sets (s : State) (h : Nat) (rs : List Res) : (claim s h rs).sets = s.sets := rfl
@[simp] theorem claim_roots (s : State) (h : Nat) (rs : List Res) : (claim s h rs).roots = s.roots := rfl
@[simp] theorem claim_pairs (s : State) (h : Nat) (rs : List Res) : (claim s h rs).pairs = s.pairs := rfl
@[simp] theorem claim_slots (s : State) (h : Nat) (rs : List Res) : (claim s h rs).slots = s.slots := rfl
@[simp] theorem claim_cmds (s : State) (h : Nat) (rs : List Res) : (claim s h rs).cmds = s.cmds := rfl
@[simp] theorem claim_seq (s : State) (h : Nat) (rs : List Res) : (claim s h rs).seq = s.seq := rfl
@[simp] theorem claim_arbs (s : State) (h : Nat) (rs : List Res) : (claim s h rs).arbs = s.arbs := rfl
@[simp] theorem claim_txa (s : State) (h : Nat) (rs : List Res) : (claim s h rs).txa = s.txa := rfl
@[simp] theorem claim_forge (s : State) (h : Nat) (rs : List Res) : (claim s h rs).forge = s.forge := rfl
@[simp] theorem claim_sdx (s : State) (h : Nat) (rs : List Res) : (claim s h rs).sdx = s.sdx := rfl
@[simp] theorem claim_rsv (s : State) (h : Nat) (rs : List Res) : (claim s h rs).rsv = s.rsv := rfl
@[simp] theorem claim_mdc (s : State) (h : Nat) (rs : List Res) : (claim s h rs).mdc = s.mdc := rfl
@[simp] theorem claim_tok (s : State) (h : Nat) (rs : List Res) : (claim s h rs).tok = s.tok := rfl
@[simp] theorem claim_bat (s : State) (h : Nat) (rs : List Res) : (claim s h rs).bat = s.bat := rfl
@[simp] theorem claim_pools (s : State) (h : Nat) (rs : List Res) : (claim s h rs).pools = s.pools := rfl
@[simp] theorem claim_dlv (s : State) (h : Nat) (rs : List Res) : (claim s h rs).dlv = s.dlv := rfl
@[simp] theorem claim_net (s : State) (h : Nat) (rs : List Res) : (claim s h rs).net = s.net := rfl
@[simp] theorem claim_fed (s : State) (h : Nat) (rs : List Res) : (claim s h rs).fed = s.fed := rfl
@[simp] theorem claim_pins (s : State) (h : Nat) (rs : List Res) : (claim s h rs).pins = s.pins := rfl
@[simp] theorem claim_evt (s : State) (h : Nat) (rs : List Res) : (claim s h rs).evt = s.evt := rfl
@[simp] theorem claim_ras (s : State) (h : Nat) (rs : List Res) : (claim s h rs).ras = s.ras := rfl
@[simp] theorem claim_trace (s : State) (h : Nat) (rs : List Res) : (claim s h rs).trace = s.trace := rfl
@[simp] theorem claim_tap (s : State) (h : Nat) (rs : List Res) : (claim s h rs).tap = s.tap := rfl
@[simp] theorem claim_removal (s : State) (h : Nat) (rs : List Res) : (claim s h rs).removal = s.removal := rfl
@[simp] theorem objGet_claim (s : State) (h : Nat) (rs : List Res) (j k : Nat) : objGet (claim s h rs) j k = objGet s j k := rfl
@[simp] theorem slotOf_claim (s : State) (h : Nat) (rs : List Res) (j : Nat) : slotOf (claim s h rs) j = slotOf s j := rfl
@[simp] theorem pairOf_claim (s : State) (h : Nat) (rs : List Res) (j : Nat) : pairOf (claim s h rs) j = pairOf s j := rfl
@[simp] theorem srcOf_claim (s : State) (h : Nat) (rs : List Res) (j : Nat) : srcOf (claim s h rs) j = srcOf s j := rfl
@[simp] theorem poolOf_claim (s : State) (h : Nat) (rs : List Res) (j : Nat) : poolOf (claim s h rs) j = poolOf s j := rfl
@[simp] theorem portOf_claim (s : State) (h : Nat) (rs : List Res) (j : Nat) : portOf (claim s h rs) j = portOf s j := rfl
@[simp] theorem dieId_claim (s : State) (h : Nat) (rs : List Res) : dieId (claim s h rs) = dieId s := rfl
@[simp] theorem headCountClosed_claim (s : State) (h : Nat) (rs : List Res) : headCountClosed (claim s h rs) = headCountClosed s := rfl

/-! ### arbGrant -/
@[simp] theorem arbGrant_pending (s : State) (u n : Nat) (ready : List Nat) : (arbGrant s u n ready).pending = s.pending := rfl
@[simp] theorem arbGrant_drawn (s : State) (u n : Nat) (ready : List Nat) : (arbGrant s u n ready).drawn = s.drawn := rfl
@[simp] theorem arbGrant_boot (s : State) (u n : Nat) (ready : List Nat) : (arbGrant s u n ready).boot = s.boot := rfl
@[simp] theorem arbGrant_objs (s : State) (u n : Nat) (ready : List Nat) : (arbGrant s u n ready).objs = s.objs := rfl
@[simp] theorem arbGrant_mem (s : State) (u n : Nat) (ready : List Nat) : (arbGrant s u n ready).mem = s.mem := rfl
@[simp] theorem arbGrant_sets (s : State) (u n : Nat) (ready : List Nat) : (arbGrant s u n ready).sets = s.sets := rfl
@[simp] theorem arbGrant_roots (s : State) (u n : Nat) (ready : List Nat) : (arbGrant s u n ready).roots = s.roots := rfl
@[simp] theorem arbGrant_pairs (s : State) (u n : Nat) (ready : List Nat) : (arbGrant s u n ready).pairs = s.pairs := rfl
@[simp] theorem arbGrant_slots (s : State) (u n : Nat) (ready : List Nat) : (arbGrant s u n ready).slots = s.slots := rfl
@[simp] theorem arbGrant_cmds (s : State) (u n : Nat) (ready : List Nat) : (arbGrant s u n ready).cmds = s.cmds := rfl
@[simp] theorem arbGrant_seq (s : State) (u n : Nat) (ready : List Nat) : (arbGrant s u n ready).seq = s.seq := rfl
@[simp] theorem arbGrant_txa (s : State) (u n : Nat) (ready : List Nat) : (arbGrant s u n ready).txa = s.txa := rfl
@[simp] theorem arbGrant_forge (s : State) (u n : Nat) (ready : List Nat) : (arbGrant s u n ready).forge = s.forge := rfl
@[simp] theorem arbGrant_sdx (s : State) (u n : Nat) (ready : List Nat) : (arbGrant s u n ready).sdx = s.sdx := rfl
@[simp] theorem arbGrant_rsv (s : State) (u n : Nat) (ready : List Nat) : (arbGrant s u n ready).rsv = s.rsv := rfl
@[simp] theorem arbGrant_mdc (s : State) (u n : Nat) (ready : List Nat) : (arbGrant s u n ready).mdc = s.mdc := rfl
@[simp] theorem arbGrant_tok (s : State) (u n : Nat) (ready : List Nat) : (arbGrant s u n ready).tok = s.tok := rfl
@[simp] theorem arbGrant_bat (s : State) (u n : Nat) (ready : List Nat) : (arbGrant s u n ready).bat = s.bat := rfl
@[simp] theorem arbGrant_pools (s : State) (u n : Nat) (ready : List Nat) : (arbGrant s u n ready).pools = s.pools := rfl
@[simp] theorem arbGrant_dlv (s : State) (u n : Nat) (ready : List Nat) : (arbGrant s u n ready).dlv = s.dlv := rfl
@[simp] theorem arbGrant_net (s : State) (u n : Nat) (ready : List Nat) : (arbGrant s u n ready).net = s.net := rfl
@[simp] theorem arbGrant_fed (s : State) (u n : Nat) (ready : List Nat) : (arbGrant s u n ready).fed = s.fed := rfl
@[simp] theorem arbGrant_dict (s : State) (u n : Nat) (ready : List Nat) : (arbGrant s u n ready).dict = s.dict := rfl
@[simp] theorem arbGrant_pins (s : State) (u n : Nat) (ready : List Nat) : (arbGrant s u n ready).pins = s.pins := rfl
@[simp] theorem arbGrant_evt (s : State) (u n : Nat) (ready : List Nat) : (arbGrant s u n ready).evt = s.evt := rfl
@[simp] theorem arbGrant_ras (s : State) (u n : Nat) (ready : List Nat) : (arbGrant s u n ready).ras = s.ras := rfl
@[simp] theorem arbGrant_trace (s : State) (u n : Nat) (ready : List Nat) : (arbGrant s u n ready).trace = s.trace := rfl
@[simp] theorem arbGrant_tap (s : State) (u n : Nat) (ready : List Nat) : (arbGrant s u n ready).tap = s.tap := rfl
@[simp] theorem arbGrant_removal (s : State) (u n : Nat) (ready : List Nat) : (arbGrant s u n ready).removal = s.removal := rfl
@[simp] theorem objGet_arbGrant (s : State) (u n : Nat) (ready : List Nat) (j k : Nat) : objGet (arbGrant s u n ready) j k = objGet s j k := rfl
@[simp] theorem slotOf_arbGrant (s : State) (u n : Nat) (ready : List Nat) (j : Nat) : slotOf (arbGrant s u n ready) j = slotOf s j := rfl
@[simp] theorem pairOf_arbGrant (s : State) (u n : Nat) (ready : List Nat) (j : Nat) : pairOf (arbGrant s u n ready) j = pairOf s j := rfl
@[simp] theorem srcOf_arbGrant (s : State) (u n : Nat) (ready : List Nat) (j : Nat) : srcOf (arbGrant s u n ready) j = srcOf s j := rfl
@[simp] theorem poolOf_arbGrant (s : State) (u n : Nat) (ready : List Nat) (j : Nat) : poolOf (arbGrant s u n ready) j = poolOf s j := rfl
@[simp] theorem portOf_arbGrant (s : State) (u n : Nat) (ready : List Nat) (j : Nat) : portOf (arbGrant s u n ready) j = portOf s j := rfl
@[simp] theorem mailboxOf_arbGrant (s : State) (u n : Nat) (ready : List Nat) (j : Nat) : mailboxOf (arbGrant s u n ready) j = mailboxOf s j := rfl
@[simp] theorem dieId_arbGrant (s : State) (u n : Nat) (ready : List Nat) : dieId (arbGrant s u n ready) = dieId s := rfl
@[simp] theorem headCountClosed_arbGrant (s : State) (u n : Nat) (ready : List Nat) : headCountClosed (arbGrant s u n ready) = headCountClosed s := rfl

/-! ### setPool -/
@[simp] theorem setPool_pending (s : State) (p : Nat) (x : Pool) : (setPool s p x).pending = s.pending := rfl
@[simp] theorem setPool_drawn (s : State) (p : Nat) (x : Pool) : (setPool s p x).drawn = s.drawn := rfl
@[simp] theorem setPool_boot (s : State) (p : Nat) (x : Pool) : (setPool s p x).boot = s.boot := rfl
@[simp] theorem setPool_objs (s : State) (p : Nat) (x : Pool) : (setPool s p x).objs = s.objs := rfl
@[simp] theorem setPool_mem (s : State) (p : Nat) (x : Pool) : (setPool s p x).mem = s.mem := rfl
@[simp] theorem setPool_sets (s : State) (p : Nat) (x : Pool) : (setPool s p x).sets = s.sets := rfl
@[simp] theorem setPool_roots (s : State) (p : Nat) (x : Pool) : (setPool s p x).roots = s.roots := rfl
@[simp] theorem setPool_pairs (s : State) (p : Nat) (x : Pool) : (setPool s p x).pairs = s.pairs := rfl
@[simp] theorem setPool_slots (s : State) (p : Nat) (x : Pool) : (setPool s p x).slots = s.slots := rfl
@[simp] theorem setPool_cmds (s : State) (p : Nat) (x : Pool) : (setPool s p x).cmds = s.cmds := rfl
@[simp] theorem setPool_seq (s : State) (p : Nat) (x : Pool) : (setPool s p x).seq = s.seq := rfl
@[simp] theorem setPool_arbs (s : State) (p : Nat) (x : Pool) : (setPool s p x).arbs = s.arbs := rfl
@[simp] theorem setPool_txa (s : State) (p : Nat) (x : Pool) : (setPool s p x).txa = s.txa := rfl
@[simp] theorem setPool_forge (s : State) (p : Nat) (x : Pool) : (setPool s p x).forge = s.forge := rfl
@[simp] theorem setPool_sdx (s : State) (p : Nat) (x : Pool) : (setPool s p x).sdx = s.sdx := rfl
@[simp] theorem setPool_rsv (s : State) (p : Nat) (x : Pool) : (setPool s p x).rsv = s.rsv := rfl
@[simp] theorem setPool_mdc (s : State) (p : Nat) (x : Pool) : (setPool s p x).mdc = s.mdc := rfl
@[simp] theorem setPool_tok (s : State) (p : Nat) (x : Pool) : (setPool s p x).tok = s.tok := rfl
@[simp] theorem setPool_bat (s : State) (p : Nat) (x : Pool) : (setPool s p x).bat = s.bat := rfl
@[simp] theorem setPool_dlv (s : State) (p : Nat) (x : Pool) : (setPool s p x).dlv = s.dlv := rfl
@[simp] theorem setPool_net (s : State) (p : Nat) (x : Pool) : (setPool s p x).net = s.net := rfl
@[simp] theorem setPool_fed (s : State) (p : Nat) (x : Pool) : (setPool s p x).fed = s.fed := rfl
@[simp] theorem setPool_dict (s : State) (p : Nat) (x : Pool) : (setPool s p x).dict = s.dict := rfl
@[simp] theorem setPool_pins (s : State) (p : Nat) (x : Pool) : (setPool s p x).pins = s.pins := rfl
@[simp] theorem setPool_evt (s : State) (p : Nat) (x : Pool) : (setPool s p x).evt = s.evt := rfl
@[simp] theorem setPool_ras (s : State) (p : Nat) (x : Pool) : (setPool s p x).ras = s.ras := rfl
@[simp] theorem setPool_trace (s : State) (p : Nat) (x : Pool) : (setPool s p x).trace = s.trace := rfl
@[simp] theorem setPool_tap (s : State) (p : Nat) (x : Pool) : (setPool s p x).tap = s.tap := rfl
@[simp] theorem setPool_removal (s : State) (p : Nat) (x : Pool) : (setPool s p x).removal = s.removal := rfl
@[simp] theorem objGet_setPool (s : State) (p : Nat) (x : Pool) (j k : Nat) : objGet (setPool s p x) j k = objGet s j k := rfl
@[simp] theorem slotOf_setPool (s : State) (p : Nat) (x : Pool) (j : Nat) : slotOf (setPool s p x) j = slotOf s j := rfl
@[simp] theorem pairOf_setPool (s : State) (p : Nat) (x : Pool) (j : Nat) : pairOf (setPool s p x) j = pairOf s j := rfl
@[simp] theorem srcOf_setPool (s : State) (p : Nat) (x : Pool) (j : Nat) : srcOf (setPool s p x) j = srcOf s j := rfl
@[simp] theorem portOf_setPool (s : State) (p : Nat) (x : Pool) (j : Nat) : portOf (setPool s p x) j = portOf s j := rfl
@[simp] theorem mailboxOf_setPool (s : State) (p : Nat) (x : Pool) (j : Nat) : mailboxOf (setPool s p x) j = mailboxOf s j := rfl
@[simp] theorem dieId_setPool (s : State) (p : Nat) (x : Pool) : dieId (setPool s p x) = dieId s := rfl
@[simp] theorem headCountClosed_setPool (s : State) (p : Nat) (x : Pool) : headCountClosed (setPool s p x) = headCountClosed s := rfl

/-! ### pushEntry -/
@[simp] theorem pushEntry_pending (s : State) (p : Nat) (e : LinkEntry) : (pushEntry s p e).pending = s.pending := rfl
@[simp] theorem pushEntry_drawn (s : State) (p : Nat) (e : LinkEntry) : (pushEntry s p e).drawn = s.drawn := rfl
@[simp] theorem pushEntry_boot (s : State) (p : Nat) (e : LinkEntry) : (pushEntry s p e).boot = s.boot := rfl
@[simp] theorem pushEntry_objs (s : State) (p : Nat) (e : LinkEntry) : (pushEntry s p e).objs = s.objs := rfl
@[simp] theorem pushEntry_mem (s : State) (p : Nat) (e : LinkEntry) : (pushEntry s p e).mem = s.mem := rfl
@[simp] theorem pushEntry_sets (s : State) (p : Nat) (e : LinkEntry) : (pushEntry s p e).sets = s.sets := rfl
@[simp] theorem pushEntry_roots (s : State) (p : Nat) (e : LinkEntry) : (pushEntry s p e).roots = s.roots := rfl
@[simp] theorem pushEntry_pairs (s : State) (p : Nat) (e : LinkEntry) : (pushEntry s p e).pairs = s.pairs := rfl
@[simp] theorem pushEntry_slots (s : State) (p : Nat) (e : LinkEntry) : (pushEntry s p e).slots = s.slots := rfl
@[simp] theorem pushEntry_cmds (s : State) (p : Nat) (e : LinkEntry) : (pushEntry s p e).cmds = s.cmds := rfl
@[simp] theorem pushEntry_seq (s : State) (p : Nat) (e : LinkEntry) : (pushEntry s p e).seq = s.seq := rfl
@[simp] theorem pushEntry_arbs (s : State) (p : Nat) (e : LinkEntry) : (pushEntry s p e).arbs = s.arbs := rfl
@[simp] theorem pushEntry_txa (s : State) (p : Nat) (e : LinkEntry) : (pushEntry s p e).txa = s.txa := rfl
@[simp] theorem pushEntry_forge (s : State) (p : Nat) (e : LinkEntry) : (pushEntry s p e).forge = s.forge := rfl
@[simp] theorem pushEntry_sdx (s : State) (p : Nat) (e : LinkEntry) : (pushEntry s p e).sdx = s.sdx := rfl
@[simp] theorem pushEntry_rsv (s : State) (p : Nat) (e : LinkEntry) : (pushEntry s p e).rsv = s.rsv := rfl
@[simp] theorem pushEntry_mdc (s : State) (p : Nat) (e : LinkEntry) : (pushEntry s p e).mdc = s.mdc := rfl
@[simp] theorem pushEntry_tok (s : State) (p : Nat) (e : LinkEntry) : (pushEntry s p e).tok = s.tok := rfl
@[simp] theorem pushEntry_bat (s : State) (p : Nat) (e : LinkEntry) : (pushEntry s p e).bat = s.bat := rfl
@[simp] theorem pushEntry_pools (s : State) (p : Nat) (e : LinkEntry) : (pushEntry s p e).pools = s.pools := rfl
@[simp] theorem pushEntry_net (s : State) (p : Nat) (e : LinkEntry) : (pushEntry s p e).net = s.net := rfl
@[simp] theorem pushEntry_fed (s : State) (p : Nat) (e : LinkEntry) : (pushEntry s p e).fed = s.fed := rfl
@[simp] theorem pushEntry_dict (s : State) (p : Nat) (e : LinkEntry) : (pushEntry s p e).dict = s.dict := rfl
@[simp] theorem pushEntry_pins (s : State) (p : Nat) (e : LinkEntry) : (pushEntry s p e).pins = s.pins := rfl
@[simp] theorem pushEntry_evt (s : State) (p : Nat) (e : LinkEntry) : (pushEntry s p e).evt = s.evt := rfl
@[simp] theorem pushEntry_ras (s : State) (p : Nat) (e : LinkEntry) : (pushEntry s p e).ras = s.ras := rfl
@[simp] theorem pushEntry_trace (s : State) (p : Nat) (e : LinkEntry) : (pushEntry s p e).trace = s.trace := rfl
@[simp] theorem pushEntry_tap (s : State) (p : Nat) (e : LinkEntry) : (pushEntry s p e).tap = s.tap := rfl
@[simp] theorem pushEntry_removal (s : State) (p : Nat) (e : LinkEntry) : (pushEntry s p e).removal = s.removal := rfl
@[simp] theorem objGet_pushEntry (s : State) (p : Nat) (e : LinkEntry) (j k : Nat) : objGet (pushEntry s p e) j k = objGet s j k := rfl
@[simp] theorem slotOf_pushEntry (s : State) (p : Nat) (e : LinkEntry) (j : Nat) : slotOf (pushEntry s p e) j = slotOf s j := rfl
@[simp] theorem pairOf_pushEntry (s : State) (p : Nat) (e : LinkEntry) (j : Nat) : pairOf (pushEntry s p e) j = pairOf s j := rfl
@[simp] theorem srcOf_pushEntry (s : State) (p : Nat) (e : LinkEntry) (j : Nat) : srcOf (pushEntry s p e) j = srcOf s j := rfl
@[simp] theorem poolOf_pushEntry (s : State) (p : Nat) (e : LinkEntry) (j : Nat) : poolOf (pushEntry s p e) j = poolOf s j := rfl
@[simp] theorem portOf_pushEntry (s : State) (p : Nat) (e : LinkEntry) (j : Nat) : portOf (pushEntry s p e) j = portOf s j := rfl
@[simp] theorem mailboxOf_pushEntry (s : State) (p : Nat) (e : LinkEntry) (j : Nat) : mailboxOf (pushEntry s p e) j = mailboxOf s j := rfl
@[simp] theorem dieId_pushEntry (s : State) (p : Nat) (e : LinkEntry) : dieId (pushEntry s p e) = dieId s := rfl
@[simp] theorem headCountClosed_pushEntry (s : State) (p : Nat) (e : LinkEntry) : headCountClosed (pushEntry s p e) = headCountClosed s := rfl

/-! ### modCmd -/
@[simp] theorem modCmd_pending (s : State) (id : Nat) (f : Cmd → Cmd) : (modCmd s id f).pending = s.pending := rfl
@[simp] theorem modCmd_drawn (s : State) (id : Nat) (f : Cmd → Cmd) : (modCmd s id f).drawn = s.drawn := rfl
@[simp] theorem modCmd_boot (s : State) (id : Nat) (f : Cmd → Cmd) : (modCmd s id f).boot = s.boot := rfl
@[simp] theorem modCmd_objs (s : State) (id : Nat) (f : Cmd → Cmd) : (modCmd s id f).objs = s.objs := rfl
@[simp] theorem modCmd_mem (s : State) (id : Nat) (f : Cmd → Cmd) : (modCmd s id f).mem = s.mem := rfl
@[simp] theorem modCmd_sets (s : State) (id : Nat) (f : Cmd → Cmd) : (modCmd s id f).sets = s.sets := rfl
@[simp] theorem modCmd_roots (s : State) (id : Nat) (f : Cmd → Cmd) : (modCmd s id f).roots = s.roots := rfl
@[simp] theorem modCmd_pairs (s : State) (id : Nat) (f : Cmd → Cmd) : (modCmd s id f).pairs = s.pairs := rfl
@[simp] theorem modCmd_slots (s : State) (id : Nat) (f : Cmd → Cmd) : (modCmd s id f).slots = s.slots := rfl
@[simp] theorem modCmd_seq (s : State) (id : Nat) (f : Cmd → Cmd) : (modCmd s id f).seq = s.seq := rfl
@[simp] theorem modCmd_arbs (s : State) (id : Nat) (f : Cmd → Cmd) : (modCmd s id f).arbs = s.arbs := rfl
@[simp] theorem modCmd_txa (s : State) (id : Nat) (f : Cmd → Cmd) : (modCmd s id f).txa = s.txa := rfl
@[simp] theorem modCmd_forge (s : State) (id : Nat) (f : Cmd → Cmd) : (modCmd s id f).forge = s.forge := rfl
@[simp] theorem modCmd_sdx (s : State) (id : Nat) (f : Cmd → Cmd) : (modCmd s id f).sdx = s.sdx := rfl
@[simp] theorem modCmd_rsv (s : State) (id : Nat) (f : Cmd → Cmd) : (modCmd s id f).rsv = s.rsv := rfl
@[simp] theorem modCmd_mdc (s : State) (id : Nat) (f : Cmd → Cmd) : (modCmd s id f).mdc = s.mdc := rfl
@[simp] theorem modCmd_tok (s : State) (id : Nat) (f : Cmd → Cmd) : (modCmd s id f).tok = s.tok := rfl
@[simp] theorem modCmd_bat (s : State) (id : Nat) (f : Cmd → Cmd) : (modCmd s id f).bat = s.bat := rfl
@[simp] theorem modCmd_pools (s : State) (id : Nat) (f : Cmd → Cmd) : (modCmd s id f).pools = s.pools := rfl
@[simp] theorem modCmd_dlv (s : State) (id : Nat) (f : Cmd → Cmd) : (modCmd s id f).dlv = s.dlv := rfl
@[simp] theorem modCmd_net (s : State) (id : Nat) (f : Cmd → Cmd) : (modCmd s id f).net = s.net := rfl
@[simp] theorem modCmd_fed (s : State) (id : Nat) (f : Cmd → Cmd) : (modCmd s id f).fed = s.fed := rfl
@[simp] theorem modCmd_dict (s : State) (id : Nat) (f : Cmd → Cmd) : (modCmd s id f).dict = s.dict := rfl
@[simp] theorem modCmd_pins (s : State) (id : Nat) (f : Cmd → Cmd) : (modCmd s id f).pins = s.pins := rfl
@[simp] theorem modCmd_evt (s : State) (id : Nat) (f : Cmd → Cmd) : (modCmd s id f).evt = s.evt := rfl
@[simp] theorem modCmd_ras (s : State) (id : Nat) (f : Cmd → Cmd) : (modCmd s id f).ras = s.ras := rfl
@[simp] theorem modCmd_trace (s : State) (id : Nat) (f : Cmd → Cmd) : (modCmd s id f).trace = s.trace := rfl
@[simp] theorem modCmd_tap (s : State) (id : Nat) (f : Cmd → Cmd) : (modCmd s id f).tap = s.tap := rfl
@[simp] theorem modCmd_removal (s : State) (id : Nat) (f : Cmd → Cmd) : (modCmd s id f).removal = s.removal := rfl
@[simp] theorem objGet_modCmd (s : State) (id : Nat) (f : Cmd → Cmd) (j k : Nat) : objGet (modCmd s id f) j k = objGet s j k := rfl
@[simp] theorem slotOf_modCmd (s : State) (id : Nat) (f : Cmd → Cmd) (j : Nat) : slotOf (modCmd s id f) j = slotOf s j := rfl
@[simp] theorem pairOf_modCmd (s : State) (id : Nat) (f : Cmd → Cmd) (j : Nat) : pairOf (modCmd s id f) j = pairOf s j := rfl
@[simp] theorem srcOf_modCmd (s : State) (id : Nat) (f : Cmd → Cmd) (j : Nat) : srcOf (modCmd s id f) j = srcOf s j := rfl
@[simp] theorem poolOf_modCmd (s : State) (id : Nat) (f : Cmd → Cmd) (j : Nat) : poolOf (modCmd s id f) j = poolOf s j := rfl
@[simp] theorem portOf_modCmd (s : State) (id : Nat) (f : Cmd → Cmd) (j : Nat) : portOf (modCmd s id f) j = portOf s j := rfl
@[simp] theorem mailboxOf_modCmd (s : State) (id : Nat) (f : Cmd → Cmd) (j : Nat) : mailboxOf (modCmd s id f) j = mailboxOf s j := rfl
@[simp] theorem dieId_modCmd (s : State) (id : Nat) (f : Cmd → Cmd) : dieId (modCmd s id f) = dieId s := rfl
@[simp] theorem headCountClosed_modCmd (s : State) (id : Nat) (f : Cmd → Cmd) : headCountClosed (modCmd s id f) = headCountClosed s := rfl

/-! ### giveUnits -/
@[simp] theorem giveUnits_pending (s : State) (us : List Nat) : (giveUnits s us).pending = s.pending := rfl
@[simp] theorem giveUnits_drawn (s : State) (us : List Nat) : (giveUnits s us).drawn = s.drawn := rfl
@[simp] theorem giveUnits_boot (s : State) (us : List Nat) : (giveUnits s us).boot = s.boot := rfl
@[simp] theorem giveUnits_objs (s : State) (us : List Nat) : (giveUnits s us).objs = s.objs := rfl
@[simp] theorem giveUnits_mem (s : State) (us : List Nat) : (giveUnits s us).mem = s.mem := rfl
@[simp] theorem giveUnits_sets (s : State) (us : List Nat) : (giveUnits s us).sets = s.sets := rfl
@[simp] theorem giveUnits_roots (s : State) (us : List Nat) : (giveUnits s us).roots = s.roots := rfl
@[simp] theorem giveUnits_pairs (s : State) (us : List Nat) : (giveUnits s us).pairs = s.pairs := rfl
@[simp] theorem giveUnits_slots (s : State) (us : List Nat) : (giveUnits s us).slots = s.slots := rfl
@[simp] theorem giveUnits_cmds (s : State) (us : List Nat) : (giveUnits s us).cmds = s.cmds := rfl
@[simp] theorem giveUnits_seq (s : State) (us : List Nat) : (giveUnits s us).seq = s.seq := rfl
@[simp] theorem giveUnits_arbs (s : State) (us : List Nat) : (giveUnits s us).arbs = s.arbs := rfl
@[simp] theorem giveUnits_txa (s : State) (us : List Nat) : (giveUnits s us).txa = s.txa := rfl
@[simp] theorem giveUnits_forge (s : State) (us : List Nat) : (giveUnits s us).forge = s.forge := rfl
@[simp] theorem giveUnits_sdx (s : State) (us : List Nat) : (giveUnits s us).sdx = s.sdx := rfl
@[simp] theorem giveUnits_rsv (s : State) (us : List Nat) : (giveUnits s us).rsv = s.rsv := rfl
@[simp] theorem giveUnits_mdc (s : State) (us : List Nat) : (giveUnits s us).mdc = s.mdc := rfl
@[simp] theorem giveUnits_tok (s : State) (us : List Nat) : (giveUnits s us).tok = s.tok := rfl
@[simp] theorem giveUnits_bat (s : State) (us : List Nat) : (giveUnits s us).bat = s.bat := rfl
@[simp] theorem giveUnits_pools (s : State) (us : List Nat) : (giveUnits s us).pools = s.pools := rfl
@[simp] theorem giveUnits_net (s : State) (us : List Nat) : (giveUnits s us).net = s.net := rfl
@[simp] theorem giveUnits_fed (s : State) (us : List Nat) : (giveUnits s us).fed = s.fed := rfl
@[simp] theorem giveUnits_dict (s : State) (us : List Nat) : (giveUnits s us).dict = s.dict := rfl
@[simp] theorem giveUnits_pins (s : State) (us : List Nat) : (giveUnits s us).pins = s.pins := rfl
@[simp] theorem giveUnits_evt (s : State) (us : List Nat) : (giveUnits s us).evt = s.evt := rfl
@[simp] theorem giveUnits_ras (s : State) (us : List Nat) : (giveUnits s us).ras = s.ras := rfl
@[simp] theorem giveUnits_trace (s : State) (us : List Nat) : (giveUnits s us).trace = s.trace := rfl
@[simp] theorem giveUnits_tap (s : State) (us : List Nat) : (giveUnits s us).tap = s.tap := rfl
@[simp] theorem giveUnits_removal (s : State) (us : List Nat) : (giveUnits s us).removal = s.removal := rfl
@[simp] theorem objGet_giveUnits (s : State) (us : List Nat) (j k : Nat) : objGet (giveUnits s us) j k = objGet s j k := rfl
@[simp] theorem slotOf_giveUnits (s : State) (us : List Nat) (j : Nat) : slotOf (giveUnits s us) j = slotOf s j := rfl
@[simp] theorem pairOf_giveUnits (s : State) (us : List Nat) (j : Nat) : pairOf (giveUnits s us) j = pairOf s j := rfl
@[simp] theorem srcOf_giveUnits (s : State) (us : List Nat) (j : Nat) : srcOf (giveUnits s us) j = srcOf s j := rfl
@[simp] theorem poolOf_giveUnits (s : State) (us : List Nat) (j : Nat) : poolOf (giveUnits s us) j = poolOf s j := rfl
@[simp] theorem portOf_giveUnits (s : State) (us : List Nat) (j : Nat) : portOf (giveUnits s us) j = portOf s j := rfl
@[simp] theorem mailboxOf_giveUnits (s : State) (us : List Nat) (j : Nat) : mailboxOf (giveUnits s us) j = mailboxOf s j := rfl
@[simp] theorem dieId_giveUnits (s : State) (us : List Nat) : dieId (giveUnits s us) = dieId s := rfl
@[simp] theorem headCountClosed_giveUnits (s : State) (us : List Nat) : headCountClosed (giveUnits s us) = headCountClosed s := rfl

/-! ### modStage -/
@[simp] theorem modStage_pending (s : State) (c : Nat) (f : IngestStage → IngestStage) : (modStage s c f).pending = s.pending := rfl
@[simp] theorem modStage_drawn (s : State) (c : Nat) (f : IngestStage → IngestStage) : (modStage s c f).drawn = s.drawn := rfl
@[simp] theorem modStage_boot (s : State) (c : Nat) (f : IngestStage → IngestStage) : (modStage s c f).boot = s.boot := rfl
@[simp] theorem modStage_objs (s : State) (c : Nat) (f : IngestStage → IngestStage) : (modStage s c f).objs = s.objs := rfl
@[simp] theorem modStage_mem (s : State) (c : Nat) (f : IngestStage → IngestStage) : (modStage s c f).mem = s.mem := rfl
@[simp] theorem modStage_sets (s : State) (c : Nat) (f : IngestStage → IngestStage) : (modStage s c f).sets = s.sets := rfl
@[simp] theorem modStage_roots (s : State) (c : Nat) (f : IngestStage → IngestStage) : (modStage s c f).roots = s.roots := rfl
@[simp] theorem modStage_pairs (s : State) (c : Nat) (f : IngestStage → IngestStage) : (modStage s c f).pairs = s.pairs := rfl
@[simp] theorem modStage_slots (s : State) (c : Nat) (f : IngestStage → IngestStage) : (modStage s c f).slots = s.slots := rfl
@[simp] theorem modStage_cmds (s : State) (c : Nat) (f : IngestStage → IngestStage) : (modStage s c f).cmds = s.cmds := rfl
@[simp] theorem modStage_seq (s : State) (c : Nat) (f : IngestStage → IngestStage) : (modStage s c f).seq = s.seq := rfl
@[simp] theorem modStage_arbs (s : State) (c : Nat) (f : IngestStage → IngestStage) : (modStage s c f).arbs = s.arbs := rfl
@[simp] theorem modStage_txa (s : State) (c : Nat) (f : IngestStage → IngestStage) : (modStage s c f).txa = s.txa := rfl
@[simp] theorem modStage_forge (s : State) (c : Nat) (f : IngestStage → IngestStage) : (modStage s c f).forge = s.forge := rfl
@[simp] theorem modStage_sdx (s : State) (c : Nat) (f : IngestStage → IngestStage) : (modStage s c f).sdx = s.sdx := rfl
@[simp] theorem modStage_rsv (s : State) (c : Nat) (f : IngestStage → IngestStage) : (modStage s c f).rsv = s.rsv := rfl
@[simp] theorem modStage_mdc (s : State) (c : Nat) (f : IngestStage → IngestStage) : (modStage s c f).mdc = s.mdc := rfl
@[simp] theorem modStage_tok (s : State) (c : Nat) (f : IngestStage → IngestStage) : (modStage s c f).tok = s.tok := rfl
@[simp] theorem modStage_bat (s : State) (c : Nat) (f : IngestStage → IngestStage) : (modStage s c f).bat = s.bat := rfl
@[simp] theorem modStage_pools (s : State) (c : Nat) (f : IngestStage → IngestStage) : (modStage s c f).pools = s.pools := rfl
@[simp] theorem modStage_dlv (s : State) (c : Nat) (f : IngestStage → IngestStage) : (modStage s c f).dlv = s.dlv := rfl
@[simp] theorem modStage_fed (s : State) (c : Nat) (f : IngestStage → IngestStage) : (modStage s c f).fed = s.fed := rfl
@[simp] theorem modStage_dict (s : State) (c : Nat) (f : IngestStage → IngestStage) : (modStage s c f).dict = s.dict := rfl
@[simp] theorem modStage_pins (s : State) (c : Nat) (f : IngestStage → IngestStage) : (modStage s c f).pins = s.pins := rfl
@[simp] theorem modStage_evt (s : State) (c : Nat) (f : IngestStage → IngestStage) : (modStage s c f).evt = s.evt := rfl
@[simp] theorem modStage_ras (s : State) (c : Nat) (f : IngestStage → IngestStage) : (modStage s c f).ras = s.ras := rfl
@[simp] theorem modStage_trace (s : State) (c : Nat) (f : IngestStage → IngestStage) : (modStage s c f).trace = s.trace := rfl
@[simp] theorem modStage_tap (s : State) (c : Nat) (f : IngestStage → IngestStage) : (modStage s c f).tap = s.tap := rfl
@[simp] theorem modStage_removal (s : State) (c : Nat) (f : IngestStage → IngestStage) : (modStage s c f).removal = s.removal := rfl
@[simp] theorem objGet_modStage (s : State) (c : Nat) (f : IngestStage → IngestStage) (j k : Nat) : objGet (modStage s c f) j k = objGet s j k := rfl
@[simp] theorem slotOf_modStage (s : State) (c : Nat) (f : IngestStage → IngestStage) (j : Nat) : slotOf (modStage s c f) j = slotOf s j := rfl
@[simp] theorem pairOf_modStage (s : State) (c : Nat) (f : IngestStage → IngestStage) (j : Nat) : pairOf (modStage s c f) j = pairOf s j := rfl
@[simp] theorem srcOf_modStage (s : State) (c : Nat) (f : IngestStage → IngestStage) (j : Nat) : srcOf (modStage s c f) j = srcOf s j := rfl
@[simp] theorem poolOf_modStage (s : State) (c : Nat) (f : IngestStage → IngestStage) (j : Nat) : poolOf (modStage s c f) j = poolOf s j := rfl
@[simp] theorem mailboxOf_modStage (s : State) (c : Nat) (f : IngestStage → IngestStage) (j : Nat) : mailboxOf (modStage s c f) j = mailboxOf s j := rfl
@[simp] theorem dieId_modStage (s : State) (c : Nat) (f : IngestStage → IngestStage) : dieId (modStage s c f) = dieId s := rfl
@[simp] theorem headCountClosed_modStage (s : State) (c : Nat) (f : IngestStage → IngestStage) : headCountClosed (modStage s c f) = headCountClosed s := rfl

/-! ### setMailbox -/
@[simp] theorem setMailbox_pending (s : State) (m : Nat) (x : Mailbox) : (setMailbox s m x).pending = s.pending := rfl
@[simp] theorem setMailbox_drawn (s : State) (m : Nat) (x : Mailbox) : (setMailbox s m x).drawn = s.drawn := rfl
@[simp] theorem setMailbox_boot (s : State) (m : Nat) (x : Mailbox) : (setMailbox s m x).boot = s.boot := rfl
@[simp] theorem setMailbox_objs (s : State) (m : Nat) (x : Mailbox) : (setMailbox s m x).objs = s.objs := rfl
@[simp] theorem setMailbox_mem (s : State) (m : Nat) (x : Mailbox) : (setMailbox s m x).mem = s.mem := rfl
@[simp] theorem setMailbox_sets (s : State) (m : Nat) (x : Mailbox) : (setMailbox s m x).sets = s.sets := rfl
@[simp] theorem setMailbox_roots (s : State) (m : Nat) (x : Mailbox) : (setMailbox s m x).roots = s.roots := rfl
@[simp] theorem setMailbox_pairs (s : State) (m : Nat) (x : Mailbox) : (setMailbox s m x).pairs = s.pairs := rfl
@[simp] theorem setMailbox_slots (s : State) (m : Nat) (x : Mailbox) : (setMailbox s m x).slots = s.slots := rfl
@[simp] theorem setMailbox_cmds (s : State) (m : Nat) (x : Mailbox) : (setMailbox s m x).cmds = s.cmds := rfl
@[simp] theorem setMailbox_seq (s : State) (m : Nat) (x : Mailbox) : (setMailbox s m x).seq = s.seq := rfl
@[simp] theorem setMailbox_arbs (s : State) (m : Nat) (x : Mailbox) : (setMailbox s m x).arbs = s.arbs := rfl
@[simp] theorem setMailbox_txa (s : State) (m : Nat) (x : Mailbox) : (setMailbox s m x).txa = s.txa := rfl
@[simp] theorem setMailbox_forge (s : State) (m : Nat) (x : Mailbox) : (setMailbox s m x).forge = s.forge := rfl
@[simp] theorem setMailbox_sdx (s : State) (m : Nat) (x : Mailbox) : (setMailbox s m x).sdx = s.sdx := rfl
@[simp] theorem setMailbox_rsv (s : State) (m : Nat) (x : Mailbox) : (setMailbox s m x).rsv = s.rsv := rfl
@[simp] theorem setMailbox_mdc (s : State) (m : Nat) (x : Mailbox) : (setMailbox s m x).mdc = s.mdc := rfl
@[simp] theorem setMailbox_tok (s : State) (m : Nat) (x : Mailbox) : (setMailbox s m x).tok = s.tok := rfl
@[simp] theorem setMailbox_bat (s : State) (m : Nat) (x : Mailbox) : (setMailbox s m x).bat = s.bat := rfl
@[simp] theorem setMailbox_pools (s : State) (m : Nat) (x : Mailbox) : (setMailbox s m x).pools = s.pools := rfl
@[simp] theorem setMailbox_dlv (s : State) (m : Nat) (x : Mailbox) : (setMailbox s m x).dlv = s.dlv := rfl
@[simp] theorem setMailbox_net (s : State) (m : Nat) (x : Mailbox) : (setMailbox s m x).net = s.net := rfl
@[simp] theorem setMailbox_fed (s : State) (m : Nat) (x : Mailbox) : (setMailbox s m x).fed = s.fed := rfl
@[simp] theorem setMailbox_pins (s : State) (m : Nat) (x : Mailbox) : (setMailbox s m x).pins = s.pins := rfl
@[simp] theorem setMailbox_evt (s : State) (m : Nat) (x : Mailbox) : (setMailbox s m x).evt = s.evt := rfl
@[simp] theorem setMailbox_ras (s : State) (m : Nat) (x : Mailbox) : (setMailbox s m x).ras = s.ras := rfl
@[simp] theorem setMailbox_trace (s : State) (m : Nat) (x : Mailbox) : (setMailbox s m x).trace = s.trace := rfl
@[simp] theorem setMailbox_tap (s : State) (m : Nat) (x : Mailbox) : (setMailbox s m x).tap = s.tap := rfl
@[simp] theorem setMailbox_removal (s : State) (m : Nat) (x : Mailbox) : (setMailbox s m x).removal = s.removal := rfl
@[simp] theorem objGet_setMailbox (s : State) (m : Nat) (x : Mailbox) (j k : Nat) : objGet (setMailbox s m x) j k = objGet s j k := rfl
@[simp] theorem slotOf_setMailbox (s : State) (m : Nat) (x : Mailbox) (j : Nat) : slotOf (setMailbox s m x) j = slotOf s j := rfl
@[simp] theorem pairOf_setMailbox (s : State) (m : Nat) (x : Mailbox) (j : Nat) : pairOf (setMailbox s m x) j = pairOf s j := rfl
@[simp] theorem srcOf_setMailbox (s : State) (m : Nat) (x : Mailbox) (j : Nat) : srcOf (setMailbox s m x) j = srcOf s j := rfl
@[simp] theorem poolOf_setMailbox (s : State) (m : Nat) (x : Mailbox) (j : Nat) : poolOf (setMailbox s m x) j = poolOf s j := rfl
@[simp] theorem portOf_setMailbox (s : State) (m : Nat) (x : Mailbox) (j : Nat) : portOf (setMailbox s m x) j = portOf s j := rfl
@[simp] theorem dieId_setMailbox (s : State) (m : Nat) (x : Mailbox) : dieId (setMailbox s m x) = dieId s := rfl
@[simp] theorem headCountClosed_setMailbox (s : State) (m : Nat) (x : Mailbox) : headCountClosed (setMailbox s m x) = headCountClosed s := rfl

/-! ### modDlv -/
@[simp] theorem modDlv_pending (s : State) (id : Nat) (f : Dlv → Dlv) : (modDlv s id f).pending = s.pending := rfl
@[simp] theorem modDlv_drawn (s : State) (id : Nat) (f : Dlv → Dlv) : (modDlv s id f).drawn = s.drawn := rfl
@[simp] theorem modDlv_boot (s : State) (id : Nat) (f : Dlv → Dlv) : (modDlv s id f).boot = s.boot := rfl
@[simp] theorem modDlv_objs (s : State) (id : Nat) (f : Dlv → Dlv) : (modDlv s id f).objs = s.objs := rfl
@[simp] theorem modDlv_mem (s : State) (id : Nat) (f : Dlv → Dlv) : (modDlv s id f).mem = s.mem := rfl
@[simp] theorem modDlv_sets (s : State) (id : Nat) (f : Dlv → Dlv) : (modDlv s id f).sets = s.sets := rfl
@[simp] theorem modDlv_roots (s : State) (id : Nat) (f : Dlv → Dlv) : (modDlv s id f).roots = s.roots := rfl
@[simp] theorem modDlv_pairs (s : State) (id : Nat) (f : Dlv → Dlv) : (modDlv s id f).pairs = s.pairs := rfl
@[simp] theorem modDlv_slots (s : State) (id : Nat) (f : Dlv → Dlv) : (modDlv s id f).slots = s.slots := rfl
@[simp] theorem modDlv_cmds (s : State) (id : Nat) (f : Dlv → Dlv) : (modDlv s id f).cmds = s.cmds := rfl
@[simp] theorem modDlv_seq (s : State) (id : Nat) (f : Dlv → Dlv) : (modDlv s id f).seq = s.seq := rfl
@[simp] theorem modDlv_arbs (s : State) (id : Nat) (f : Dlv → Dlv) : (modDlv s id f).arbs = s.arbs := rfl
@[simp] theorem modDlv_txa (s : State) (id : Nat) (f : Dlv → Dlv) : (modDlv s id f).txa = s.txa := rfl
@[simp] theorem modDlv_forge (s : State) (id : Nat) (f : Dlv → Dlv) : (modDlv s id f).forge = s.forge := rfl
@[simp] theorem modDlv_sdx (s : State) (id : Nat) (f : Dlv → Dlv) : (modDlv s id f).sdx = s.sdx := rfl
@[simp] theorem modDlv_rsv (s : State) (id : Nat) (f : Dlv → Dlv) : (modDlv s id f).rsv = s.rsv := rfl
@[simp] theorem modDlv_mdc (s : State) (id : Nat) (f : Dlv → Dlv) : (modDlv s id f).mdc = s.mdc := rfl
@[simp] theorem modDlv_tok (s : State) (id : Nat) (f : Dlv → Dlv) : (modDlv s id f).tok = s.tok := rfl
@[simp] theorem modDlv_bat (s : State) (id : Nat) (f : Dlv → Dlv) : (modDlv s id f).bat = s.bat := rfl
@[simp] theorem modDlv_pools (s : State) (id : Nat) (f : Dlv → Dlv) : (modDlv s id f).pools = s.pools := rfl
@[simp] theorem modDlv_net (s : State) (id : Nat) (f : Dlv → Dlv) : (modDlv s id f).net = s.net := rfl
@[simp] theorem modDlv_fed (s : State) (id : Nat) (f : Dlv → Dlv) : (modDlv s id f).fed = s.fed := rfl
@[simp] theorem modDlv_dict (s : State) (id : Nat) (f : Dlv → Dlv) : (modDlv s id f).dict = s.dict := rfl
@[simp] theorem modDlv_pins (s : State) (id : Nat) (f : Dlv → Dlv) : (modDlv s id f).pins = s.pins := rfl
@[simp] theorem modDlv_evt (s : State) (id : Nat) (f : Dlv → Dlv) : (modDlv s id f).evt = s.evt := rfl
@[simp] theorem modDlv_ras (s : State) (id : Nat) (f : Dlv → Dlv) : (modDlv s id f).ras = s.ras := rfl
@[simp] theorem modDlv_trace (s : State) (id : Nat) (f : Dlv → Dlv) : (modDlv s id f).trace = s.trace := rfl
@[simp] theorem modDlv_tap (s : State) (id : Nat) (f : Dlv → Dlv) : (modDlv s id f).tap = s.tap := rfl
@[simp] theorem modDlv_removal (s : State) (id : Nat) (f : Dlv → Dlv) : (modDlv s id f).removal = s.removal := rfl
@[simp] theorem objGet_modDlv (s : State) (id : Nat) (f : Dlv → Dlv) (j k : Nat) : objGet (modDlv s id f) j k = objGet s j k := rfl
@[simp] theorem slotOf_modDlv (s : State) (id : Nat) (f : Dlv → Dlv) (j : Nat) : slotOf (modDlv s id f) j = slotOf s j := rfl
@[simp] theorem pairOf_modDlv (s : State) (id : Nat) (f : Dlv → Dlv) (j : Nat) : pairOf (modDlv s id f) j = pairOf s j := rfl
@[simp] theorem srcOf_modDlv (s : State) (id : Nat) (f : Dlv → Dlv) (j : Nat) : srcOf (modDlv s id f) j = srcOf s j := rfl
@[simp] theorem poolOf_modDlv (s : State) (id : Nat) (f : Dlv → Dlv) (j : Nat) : poolOf (modDlv s id f) j = poolOf s j := rfl
@[simp] theorem portOf_modDlv (s : State) (id : Nat) (f : Dlv → Dlv) (j : Nat) : portOf (modDlv s id f) j = portOf s j := rfl
@[simp] theorem mailboxOf_modDlv (s : State) (id : Nat) (f : Dlv → Dlv) (j : Nat) : mailboxOf (modDlv s id f) j = mailboxOf s j := rfl
@[simp] theorem dieId_modDlv (s : State) (id : Nat) (f : Dlv → Dlv) : dieId (modDlv s id f) = dieId s := rfl
@[simp] theorem headCountClosed_modDlv (s : State) (id : Nat) (f : Dlv → Dlv) : headCountClosed (modDlv s id f) = headCountClosed s := rfl

/-! ### setBank -/
@[simp] theorem setBank_pending (s : State) (b : Nat) (x : Bank) : (setBank s b x).pending = s.pending := rfl
@[simp] theorem setBank_drawn (s : State) (b : Nat) (x : Bank) : (setBank s b x).drawn = s.drawn := rfl
@[simp] theorem setBank_boot (s : State) (b : Nat) (x : Bank) : (setBank s b x).boot = s.boot := rfl
@[simp] theorem setBank_objs (s : State) (b : Nat) (x : Bank) : (setBank s b x).objs = s.objs := rfl
@[simp] theorem setBank_mem (s : State) (b : Nat) (x : Bank) : (setBank s b x).mem = s.mem := rfl
@[simp] theorem setBank_sets (s : State) (b : Nat) (x : Bank) : (setBank s b x).sets = s.sets := rfl
@[simp] theorem setBank_roots (s : State) (b : Nat) (x : Bank) : (setBank s b x).roots = s.roots := rfl
@[simp] theorem setBank_pairs (s : State) (b : Nat) (x : Bank) : (setBank s b x).pairs = s.pairs := rfl
@[simp] theorem setBank_slots (s : State) (b : Nat) (x : Bank) : (setBank s b x).slots = s.slots := rfl
@[simp] theorem setBank_cmds (s : State) (b : Nat) (x : Bank) : (setBank s b x).cmds = s.cmds := rfl
@[simp] theorem setBank_seq (s : State) (b : Nat) (x : Bank) : (setBank s b x).seq = s.seq := rfl
@[simp] theorem setBank_arbs (s : State) (b : Nat) (x : Bank) : (setBank s b x).arbs = s.arbs := rfl
@[simp] theorem setBank_txa (s : State) (b : Nat) (x : Bank) : (setBank s b x).txa = s.txa := rfl
@[simp] theorem setBank_forge (s : State) (b : Nat) (x : Bank) : (setBank s b x).forge = s.forge := rfl
@[simp] theorem setBank_sdx (s : State) (b : Nat) (x : Bank) : (setBank s b x).sdx = s.sdx := rfl
@[simp] theorem setBank_rsv (s : State) (b : Nat) (x : Bank) : (setBank s b x).rsv = s.rsv := rfl
@[simp] theorem setBank_mdc (s : State) (b : Nat) (x : Bank) : (setBank s b x).mdc = s.mdc := rfl
@[simp] theorem setBank_tok (s : State) (b : Nat) (x : Bank) : (setBank s b x).tok = s.tok := rfl
@[simp] theorem setBank_bat (s : State) (b : Nat) (x : Bank) : (setBank s b x).bat = s.bat := rfl
@[simp] theorem setBank_pools (s : State) (b : Nat) (x : Bank) : (setBank s b x).pools = s.pools := rfl
@[simp] theorem setBank_net (s : State) (b : Nat) (x : Bank) : (setBank s b x).net = s.net := rfl
@[simp] theorem setBank_fed (s : State) (b : Nat) (x : Bank) : (setBank s b x).fed = s.fed := rfl
@[simp] theorem setBank_dict (s : State) (b : Nat) (x : Bank) : (setBank s b x).dict = s.dict := rfl
@[simp] theorem setBank_pins (s : State) (b : Nat) (x : Bank) : (setBank s b x).pins = s.pins := rfl
@[simp] theorem setBank_evt (s : State) (b : Nat) (x : Bank) : (setBank s b x).evt = s.evt := rfl
@[simp] theorem setBank_ras (s : State) (b : Nat) (x : Bank) : (setBank s b x).ras = s.ras := rfl
@[simp] theorem setBank_trace (s : State) (b : Nat) (x : Bank) : (setBank s b x).trace = s.trace := rfl
@[simp] theorem setBank_tap (s : State) (b : Nat) (x : Bank) : (setBank s b x).tap = s.tap := rfl
@[simp] theorem setBank_removal (s : State) (b : Nat) (x : Bank) : (setBank s b x).removal = s.removal := rfl
@[simp] theorem objGet_setBank (s : State) (b : Nat) (x : Bank) (j k : Nat) : objGet (setBank s b x) j k = objGet s j k := rfl
@[simp] theorem slotOf_setBank (s : State) (b : Nat) (x : Bank) (j : Nat) : slotOf (setBank s b x) j = slotOf s j := rfl
@[simp] theorem pairOf_setBank (s : State) (b : Nat) (x : Bank) (j : Nat) : pairOf (setBank s b x) j = pairOf s j := rfl
@[simp] theorem srcOf_setBank (s : State) (b : Nat) (x : Bank) (j : Nat) : srcOf (setBank s b x) j = srcOf s j := rfl
@[simp] theorem poolOf_setBank (s : State) (b : Nat) (x : Bank) (j : Nat) : poolOf (setBank s b x) j = poolOf s j := rfl
@[simp] theorem portOf_setBank (s : State) (b : Nat) (x : Bank) (j : Nat) : portOf (setBank s b x) j = portOf s j := rfl
@[simp] theorem mailboxOf_setBank (s : State) (b : Nat) (x : Bank) (j : Nat) : mailboxOf (setBank s b x) j = mailboxOf s j := rfl
@[simp] theorem dieId_setBank (s : State) (b : Nat) (x : Bank) : dieId (setBank s b x) = dieId s := rfl
@[simp] theorem headCountClosed_setBank (s : State) (b : Nat) (x : Bank) : headCountClosed (setBank s b x) = headCountClosed s := rfl

/-! ### setPort -/
@[simp] theorem setPort_pending (s : State) (p : Nat) (x : Port) : (setPort s p x).pending = s.pending := rfl
@[simp] theorem setPort_drawn (s : State) (p : Nat) (x : Port) : (setPort s p x).drawn = s.drawn := rfl
@[simp] theorem setPort_boot (s : State) (p : Nat) (x : Port) : (setPort s p x).boot = s.boot := rfl
@[simp] theorem setPort_objs (s : State) (p : Nat) (x : Port) : (setPort s p x).objs = s.objs := rfl
@[simp] theorem setPort_mem (s : State) (p : Nat) (x : Port) : (setPort s p x).mem = s.mem := rfl
@[simp] theorem setPort_sets (s : State) (p : Nat) (x : Port) : (setPort s p x).sets = s.sets := rfl
@[simp] theorem setPort_roots (s : State) (p : Nat) (x : Port) : (setPort s p x).roots = s.roots := rfl
@[simp] theorem setPort_pairs (s : State) (p : Nat) (x : Port) : (setPort s p x).pairs = s.pairs := rfl
@[simp] theorem setPort_slots (s : State) (p : Nat) (x : Port) : (setPort s p x).slots = s.slots := rfl
@[simp] theorem setPort_cmds (s : State) (p : Nat) (x : Port) : (setPort s p x).cmds = s.cmds := rfl
@[simp] theorem setPort_seq (s : State) (p : Nat) (x : Port) : (setPort s p x).seq = s.seq := rfl
@[simp] theorem setPort_arbs (s : State) (p : Nat) (x : Port) : (setPort s p x).arbs = s.arbs := rfl
@[simp] theorem setPort_txa (s : State) (p : Nat) (x : Port) : (setPort s p x).txa = s.txa := rfl
@[simp] theorem setPort_forge (s : State) (p : Nat) (x : Port) : (setPort s p x).forge = s.forge := rfl
@[simp] theorem setPort_sdx (s : State) (p : Nat) (x : Port) : (setPort s p x).sdx = s.sdx := rfl
@[simp] theorem setPort_rsv (s : State) (p : Nat) (x : Port) : (setPort s p x).rsv = s.rsv := rfl
@[simp] theorem setPort_mdc (s : State) (p : Nat) (x : Port) : (setPort s p x).mdc = s.mdc := rfl
@[simp] theorem setPort_tok (s : State) (p : Nat) (x : Port) : (setPort s p x).tok = s.tok := rfl
@[simp] theorem setPort_bat (s : State) (p : Nat) (x : Port) : (setPort s p x).bat = s.bat := rfl
@[simp] theorem setPort_pools (s : State) (p : Nat) (x : Port) : (setPort s p x).pools = s.pools := rfl
@[simp] theorem setPort_dlv (s : State) (p : Nat) (x : Port) : (setPort s p x).dlv = s.dlv := rfl
@[simp] theorem setPort_fed (s : State) (p : Nat) (x : Port) : (setPort s p x).fed = s.fed := rfl
@[simp] theorem setPort_dict (s : State) (p : Nat) (x : Port) : (setPort s p x).dict = s.dict := rfl
@[simp] theorem setPort_pins (s : State) (p : Nat) (x : Port) : (setPort s p x).pins = s.pins := rfl
@[simp] theorem setPort_evt (s : State) (p : Nat) (x : Port) : (setPort s p x).evt = s.evt := rfl
@[simp] theorem setPort_ras (s : State) (p : Nat) (x : Port) : (setPort s p x).ras = s.ras := rfl
@[simp] theorem setPort_trace (s : State) (p : Nat) (x : Port) : (setPort s p x).trace = s.trace := rfl
@[simp] theorem setPort_tap (s : State) (p : Nat) (x : Port) : (setPort s p x).tap = s.tap := rfl
@[simp] theorem setPort_removal (s : State) (p : Nat) (x : Port) : (setPort s p x).removal = s.removal := rfl
@[simp] theorem objGet_setPort (s : State) (p : Nat) (x : Port) (j k : Nat) : objGet (setPort s p x) j k = objGet s j k := rfl
@[simp] theorem slotOf_setPort (s : State) (p : Nat) (x : Port) (j : Nat) : slotOf (setPort s p x) j = slotOf s j := rfl
@[simp] theorem pairOf_setPort (s : State) (p : Nat) (x : Port) (j : Nat) : pairOf (setPort s p x) j = pairOf s j := rfl
@[simp] theorem srcOf_setPort (s : State) (p : Nat) (x : Port) (j : Nat) : srcOf (setPort s p x) j = srcOf s j := rfl
@[simp] theorem poolOf_setPort (s : State) (p : Nat) (x : Port) (j : Nat) : poolOf (setPort s p x) j = poolOf s j := rfl
@[simp] theorem mailboxOf_setPort (s : State) (p : Nat) (x : Port) (j : Nat) : mailboxOf (setPort s p x) j = mailboxOf s j := rfl
@[simp] theorem dieId_setPort (s : State) (p : Nat) (x : Port) : dieId (setPort s p x) = dieId s := rfl
@[simp] theorem headCountClosed_setPort (s : State) (p : Nat) (x : Port) : headCountClosed (setPort s p x) = headCountClosed s := rfl

/-! ### modPort -/
@[simp] theorem modPort_pending (s : State) (p : Nat) (f : Port → Port) : (modPort s p f).pending = s.pending := rfl
@[simp] theorem modPort_drawn (s : State) (p : Nat) (f : Port → Port) : (modPort s p f).drawn = s.drawn := rfl
@[simp] theorem modPort_boot (s : State) (p : Nat) (f : Port → Port) : (modPort s p f).boot = s.boot := rfl
@[simp] theorem modPort_objs (s : State) (p : Nat) (f : Port → Port) : (modPort s p f).objs = s.objs := rfl
@[simp] theorem modPort_mem (s : State) (p : Nat) (f : Port → Port) : (modPort s p f).mem = s.mem := rfl
@[simp] theorem modPort_sets (s : State) (p : Nat) (f : Port → Port) : (modPort s p f).sets = s.sets := rfl
@[simp] theorem modPort_roots (s : State) (p : Nat) (f : Port → Port) : (modPort s p f).roots = s.roots := rfl
@[simp] theorem modPort_pairs (s : State) (p : Nat) (f : Port → Port) : (modPort s p f).pairs = s.pairs := rfl
@[simp] theorem modPort_slots (s : State) (p : Nat) (f : Port → Port) : (modPort s p f).slots = s.slots := rfl
@[simp] theorem modPort_cmds (s : State) (p : Nat) (f : Port → Port) : (modPort s p f).cmds = s.cmds := rfl
@[simp] theorem modPort_seq (s : State) (p : Nat) (f : Port → Port) : (modPort s p f).seq = s.seq := rfl
@[simp] theorem modPort_arbs (s : State) (p : Nat) (f : Port → Port) : (modPort s p f).arbs = s.arbs := rfl
@[simp] theorem modPort_txa (s : State) (p : Nat) (f : Port → Port) : (modPort s p f).txa = s.txa := rfl
@[simp] theorem modPort_forge (s : State) (p : Nat) (f : Port → Port) : (modPort s p f).forge = s.forge := rfl
@[simp] theorem modPort_sdx (s : State) (p : Nat) (f : Port → Port) : (modPort s p f).sdx = s.sdx := rfl
@[simp] theorem modPort_rsv (s : State) (p : Nat) (f : Port → Port) : (modPort s p f).rsv = s.rsv := rfl
@[simp] theorem modPort_mdc (s : State) (p : Nat) (f : Port → Port) : (modPort s p f).mdc = s.mdc := rfl
@[simp] theorem modPort_tok (s : State) (p : Nat) (f : Port → Port) : (modPort s p f).tok = s.tok := rfl
@[simp] theorem modPort_bat (s : State) (p : Nat) (f : Port → Port) : (modPort s p f).bat = s.bat := rfl
@[simp] theorem modPort_pools (s : State) (p : Nat) (f : Port → Port) : (modPort s p f).pools = s.pools := rfl
@[simp] theorem modPort_dlv (s : State) (p : Nat) (f : Port → Port) : (modPort s p f).dlv = s.dlv := rfl
@[simp] theorem modPort_fed (s : State) (p : Nat) (f : Port → Port) : (modPort s p f).fed = s.fed := rfl
@[simp] theorem modPort_dict (s : State) (p : Nat) (f : Port → Port) : (modPort s p f).dict = s.dict := rfl
@[simp] theorem modPort_pins (s : State) (p : Nat) (f : Port → Port) : (modPort s p f).pins = s.pins := rfl
@[simp] theorem modPort_evt (s : State) (p : Nat) (f : Port → Port) : (modPort s p f).evt = s.evt := rfl
@[simp] theorem modPort_ras (s : State) (p : Nat) (f : Port → Port) : (modPort s p f).ras = s.ras := rfl
@[simp] theorem modPort_trace (s : State) (p : Nat) (f : Port → Port) : (modPort s p f).trace = s.trace := rfl
@[simp] theorem modPort_tap (s : State) (p : Nat) (f : Port → Port) : (modPort s p f).tap = s.tap := rfl
@[simp] theorem modPort_removal (s : State) (p : Nat) (f : Port → Port) : (modPort s p f).removal = s.removal := rfl
@[simp] theorem objGet_modPort (s : State) (p : Nat) (f : Port → Port) (j k : Nat) : objGet (modPort s p f) j k = objGet s j k := rfl
@[simp] theorem slotOf_modPort (s : State) (p : Nat) (f : Port → Port) (j : Nat) : slotOf (modPort s p f) j = slotOf s j := rfl
@[simp] theorem pairOf_modPort (s : State) (p : Nat) (f : Port → Port) (j : Nat) : pairOf (modPort s p f) j = pairOf s j := rfl
@[simp] theorem srcOf_modPort (s : State) (p : Nat) (f : Port → Port) (j : Nat) : srcOf (modPort s p f) j = srcOf s j := rfl
@[simp] theorem poolOf_modPort (s : State) (p : Nat) (f : Port → Port) (j : Nat) : poolOf (modPort s p f) j = poolOf s j := rfl
@[simp] theorem mailboxOf_modPort (s : State) (p : Nat) (f : Port → Port) (j : Nat) : mailboxOf (modPort s p f) j = mailboxOf s j := rfl
@[simp] theorem dieId_modPort (s : State) (p : Nat) (f : Port → Port) : dieId (modPort s p f) = dieId s := rfl
@[simp] theorem headCountClosed_modPort (s : State) (p : Nat) (f : Port → Port) : headCountClosed (modPort s p f) = headCountClosed s := rfl

/-! ### setQp -/
@[simp] theorem setQp_pending (s : State) (q : Nat) (x : Qp) : (setQp s q x).pending = s.pending := rfl
@[simp] theorem setQp_drawn (s : State) (q : Nat) (x : Qp) : (setQp s q x).drawn = s.drawn := rfl
@[simp] theorem setQp_boot (s : State) (q : Nat) (x : Qp) : (setQp s q x).boot = s.boot := rfl
@[simp] theorem setQp_objs (s : State) (q : Nat) (x : Qp) : (setQp s q x).objs = s.objs := rfl
@[simp] theorem setQp_mem (s : State) (q : Nat) (x : Qp) : (setQp s q x).mem = s.mem := rfl
@[simp] theorem setQp_sets (s : State) (q : Nat) (x : Qp) : (setQp s q x).sets = s.sets := rfl
@[simp] theorem setQp_roots (s : State) (q : Nat) (x : Qp) : (setQp s q x).roots = s.roots := rfl
@[simp] theorem setQp_pairs (s : State) (q : Nat) (x : Qp) : (setQp s q x).pairs = s.pairs := rfl
@[simp] theorem setQp_slots (s : State) (q : Nat) (x : Qp) : (setQp s q x).slots = s.slots := rfl
@[simp] theorem setQp_cmds (s : State) (q : Nat) (x : Qp) : (setQp s q x).cmds = s.cmds := rfl
@[simp] theorem setQp_seq (s : State) (q : Nat) (x : Qp) : (setQp s q x).seq = s.seq := rfl
@[simp] theorem setQp_arbs (s : State) (q : Nat) (x : Qp) : (setQp s q x).arbs = s.arbs := rfl
@[simp] theorem setQp_txa (s : State) (q : Nat) (x : Qp) : (setQp s q x).txa = s.txa := rfl
@[simp] theorem setQp_forge (s : State) (q : Nat) (x : Qp) : (setQp s q x).forge = s.forge := rfl
@[simp] theorem setQp_sdx (s : State) (q : Nat) (x : Qp) : (setQp s q x).sdx = s.sdx := rfl
@[simp] theorem setQp_rsv (s : State) (q : Nat) (x : Qp) : (setQp s q x).rsv = s.rsv := rfl
@[simp] theorem setQp_mdc (s : State) (q : Nat) (x : Qp) : (setQp s q x).mdc = s.mdc := rfl
@[simp] theorem setQp_tok (s : State) (q : Nat) (x : Qp) : (setQp s q x).tok = s.tok := rfl
@[simp] theorem setQp_bat (s : State) (q : Nat) (x : Qp) : (setQp s q x).bat = s.bat := rfl
@[simp] theorem setQp_pools (s : State) (q : Nat) (x : Qp) : (setQp s q x).pools = s.pools := rfl
@[simp] theorem setQp_dlv (s : State) (q : Nat) (x : Qp) : (setQp s q x).dlv = s.dlv := rfl
@[simp] theorem setQp_fed (s : State) (q : Nat) (x : Qp) : (setQp s q x).fed = s.fed := rfl
@[simp] theorem setQp_dict (s : State) (q : Nat) (x : Qp) : (setQp s q x).dict = s.dict := rfl
@[simp] theorem setQp_pins (s : State) (q : Nat) (x : Qp) : (setQp s q x).pins = s.pins := rfl
@[simp] theorem setQp_evt (s : State) (q : Nat) (x : Qp) : (setQp s q x).evt = s.evt := rfl
@[simp] theorem setQp_ras (s : State) (q : Nat) (x : Qp) : (setQp s q x).ras = s.ras := rfl
@[simp] theorem setQp_trace (s : State) (q : Nat) (x : Qp) : (setQp s q x).trace = s.trace := rfl
@[simp] theorem setQp_tap (s : State) (q : Nat) (x : Qp) : (setQp s q x).tap = s.tap := rfl
@[simp] theorem setQp_removal (s : State) (q : Nat) (x : Qp) : (setQp s q x).removal = s.removal := rfl
@[simp] theorem objGet_setQp (s : State) (q : Nat) (x : Qp) (j k : Nat) : objGet (setQp s q x) j k = objGet s j k := rfl
@[simp] theorem slotOf_setQp (s : State) (q : Nat) (x : Qp) (j : Nat) : slotOf (setQp s q x) j = slotOf s j := rfl
@[simp] theorem pairOf_setQp (s : State) (q : Nat) (x : Qp) (j : Nat) : pairOf (setQp s q x) j = pairOf s j := rfl
@[simp] theorem srcOf_setQp (s : State) (q : Nat) (x : Qp) (j : Nat) : srcOf (setQp s q x) j = srcOf s j := rfl
@[simp] theorem poolOf_setQp (s : State) (q : Nat) (x : Qp) (j : Nat) : poolOf (setQp s q x) j = poolOf s j := rfl
@[simp] theorem mailboxOf_setQp (s : State) (q : Nat) (x : Qp) (j : Nat) : mailboxOf (setQp s q x) j = mailboxOf s j := rfl
@[simp] theorem dieId_setQp (s : State) (q : Nat) (x : Qp) : dieId (setQp s q x) = dieId s := rfl
@[simp] theorem headCountClosed_setQp (s : State) (q : Nat) (x : Qp) : headCountClosed (setQp s q x) = headCountClosed s := rfl

/-! ### modQp -/
@[simp] theorem modQp_pending (s : State) (q : Nat) (f : Qp → Qp) : (modQp s q f).pending = s.pending := rfl
@[simp] theorem modQp_drawn (s : State) (q : Nat) (f : Qp → Qp) : (modQp s q f).drawn = s.drawn := rfl
@[simp] theorem modQp_boot (s : State) (q : Nat) (f : Qp → Qp) : (modQp s q f).boot = s.boot := rfl
@[simp] theorem modQp_objs (s : State) (q : Nat) (f : Qp → Qp) : (modQp s q f).objs = s.objs := rfl
@[simp] theorem modQp_mem (s : State) (q : Nat) (f : Qp → Qp) : (modQp s q f).mem = s.mem := rfl
@[simp] theorem modQp_sets (s : State) (q : Nat) (f : Qp → Qp) : (modQp s q f).sets = s.sets := rfl
@[simp] theorem modQp_roots (s : State) (q : Nat) (f : Qp → Qp) : (modQp s q f).roots = s.roots := rfl
@[simp] theorem modQp_pairs (s : State) (q : Nat) (f : Qp → Qp) : (modQp s q f).pairs = s.pairs := rfl
@[simp] theorem modQp_slots (s : State) (q : Nat) (f : Qp → Qp) : (modQp s q f).slots = s.slots := rfl
@[simp] theorem modQp_cmds (s : State) (q : Nat) (f : Qp → Qp) : (modQp s q f).cmds = s.cmds := rfl
@[simp] theorem modQp_seq (s : State) (q : Nat) (f : Qp → Qp) : (modQp s q f).seq = s.seq := rfl
@[simp] theorem modQp_arbs (s : State) (q : Nat) (f : Qp → Qp) : (modQp s q f).arbs = s.arbs := rfl
@[simp] theorem modQp_txa (s : State) (q : Nat) (f : Qp → Qp) : (modQp s q f).txa = s.txa := rfl
@[simp] theorem modQp_forge (s : State) (q : Nat) (f : Qp → Qp) : (modQp s q f).forge = s.forge := rfl
@[simp] theorem modQp_sdx (s : State) (q : Nat) (f : Qp → Qp) : (modQp s q f).sdx = s.sdx := rfl
@[simp] theorem modQp_rsv (s : State) (q : Nat) (f : Qp → Qp) : (modQp s q f).rsv = s.rsv := rfl
@[simp] theorem modQp_mdc (s : State) (q : Nat) (f : Qp → Qp) : (modQp s q f).mdc = s.mdc := rfl
@[simp] theorem modQp_tok (s : State) (q : Nat) (f : Qp → Qp) : (modQp s q f).tok = s.tok := rfl
@[simp] theorem modQp_bat (s : State) (q : Nat) (f : Qp → Qp) : (modQp s q f).bat = s.bat := rfl
@[simp] theorem modQp_pools (s : State) (q : Nat) (f : Qp → Qp) : (modQp s q f).pools = s.pools := rfl
@[simp] theorem modQp_dlv (s : State) (q : Nat) (f : Qp → Qp) : (modQp s q f).dlv = s.dlv := rfl
@[simp] theorem modQp_fed (s : State) (q : Nat) (f : Qp → Qp) : (modQp s q f).fed = s.fed := rfl
@[simp] theorem modQp_dict (s : State) (q : Nat) (f : Qp → Qp) : (modQp s q f).dict = s.dict := rfl
@[simp] theorem modQp_pins (s : State) (q : Nat) (f : Qp → Qp) : (modQp s q f).pins = s.pins := rfl
@[simp] theorem modQp_evt (s : State) (q : Nat) (f : Qp → Qp) : (modQp s q f).evt = s.evt := rfl
@[simp] theorem modQp_ras (s : State) (q : Nat) (f : Qp → Qp) : (modQp s q f).ras = s.ras := rfl
@[simp] theorem modQp_trace (s : State) (q : Nat) (f : Qp → Qp) : (modQp s q f).trace = s.trace := rfl
@[simp] theorem modQp_tap (s : State) (q : Nat) (f : Qp → Qp) : (modQp s q f).tap = s.tap := rfl
@[simp] theorem modQp_removal (s : State) (q : Nat) (f : Qp → Qp) : (modQp s q f).removal = s.removal := rfl
@[simp] theorem objGet_modQp (s : State) (q : Nat) (f : Qp → Qp) (j k : Nat) : objGet (modQp s q f) j k = objGet s j k := rfl
@[simp] theorem slotOf_modQp (s : State) (q : Nat) (f : Qp → Qp) (j : Nat) : slotOf (modQp s q f) j = slotOf s j := rfl
@[simp] theorem pairOf_modQp (s : State) (q : Nat) (f : Qp → Qp) (j : Nat) : pairOf (modQp s q f) j = pairOf s j := rfl
@[simp] theorem srcOf_modQp (s : State) (q : Nat) (f : Qp → Qp) (j : Nat) : srcOf (modQp s q f) j = srcOf s j := rfl
@[simp] theorem poolOf_modQp (s : State) (q : Nat) (f : Qp → Qp) (j : Nat) : poolOf (modQp s q f) j = poolOf s j := rfl
@[simp] theorem mailboxOf_modQp (s : State) (q : Nat) (f : Qp → Qp) (j : Nat) : mailboxOf (modQp s q f) j = mailboxOf s j := rfl
@[simp] theorem dieId_modQp (s : State) (q : Nat) (f : Qp → Qp) : dieId (modQp s q f) = dieId s := rfl
@[simp] theorem headCountClosed_modQp (s : State) (q : Nat) (f : Qp → Qp) : headCountClosed (modQp s q f) = headCountClosed s := rfl

/-! ### setLr -/
@[simp] theorem setLr_pending (s : State) (r : Nat) (x : Lr) : (setLr s r x).pending = s.pending := rfl
@[simp] theorem setLr_drawn (s : State) (r : Nat) (x : Lr) : (setLr s r x).drawn = s.drawn := rfl
@[simp] theorem setLr_boot (s : State) (r : Nat) (x : Lr) : (setLr s r x).boot = s.boot := rfl
@[simp] theorem setLr_objs (s : State) (r : Nat) (x : Lr) : (setLr s r x).objs = s.objs := rfl
@[simp] theorem setLr_mem (s : State) (r : Nat) (x : Lr) : (setLr s r x).mem = s.mem := rfl
@[simp] theorem setLr_sets (s : State) (r : Nat) (x : Lr) : (setLr s r x).sets = s.sets := rfl
@[simp] theorem setLr_roots (s : State) (r : Nat) (x : Lr) : (setLr s r x).roots = s.roots := rfl
@[simp] theorem setLr_pairs (s : State) (r : Nat) (x : Lr) : (setLr s r x).pairs = s.pairs := rfl
@[simp] theorem setLr_slots (s : State) (r : Nat) (x : Lr) : (setLr s r x).slots = s.slots := rfl
@[simp] theorem setLr_cmds (s : State) (r : Nat) (x : Lr) : (setLr s r x).cmds = s.cmds := rfl
@[simp] theorem setLr_seq (s : State) (r : Nat) (x : Lr) : (setLr s r x).seq = s.seq := rfl
@[simp] theorem setLr_arbs (s : State) (r : Nat) (x : Lr) : (setLr s r x).arbs = s.arbs := rfl
@[simp] theorem setLr_txa (s : State) (r : Nat) (x : Lr) : (setLr s r x).txa = s.txa := rfl
@[simp] theorem setLr_forge (s : State) (r : Nat) (x : Lr) : (setLr s r x).forge = s.forge := rfl
@[simp] theorem setLr_sdx (s : State) (r : Nat) (x : Lr) : (setLr s r x).sdx = s.sdx := rfl
@[simp] theorem setLr_rsv (s : State) (r : Nat) (x : Lr) : (setLr s r x).rsv = s.rsv := rfl
@[simp] theorem setLr_mdc (s : State) (r : Nat) (x : Lr) : (setLr s r x).mdc = s.mdc := rfl
@[simp] theorem setLr_tok (s : State) (r : Nat) (x : Lr) : (setLr s r x).tok = s.tok := rfl
@[simp] theorem setLr_bat (s : State) (r : Nat) (x : Lr) : (setLr s r x).bat = s.bat := rfl
@[simp] theorem setLr_pools (s : State) (r : Nat) (x : Lr) : (setLr s r x).pools = s.pools := rfl
@[simp] theorem setLr_dlv (s : State) (r : Nat) (x : Lr) : (setLr s r x).dlv = s.dlv := rfl
@[simp] theorem setLr_fed (s : State) (r : Nat) (x : Lr) : (setLr s r x).fed = s.fed := rfl
@[simp] theorem setLr_dict (s : State) (r : Nat) (x : Lr) : (setLr s r x).dict = s.dict := rfl
@[simp] theorem setLr_pins (s : State) (r : Nat) (x : Lr) : (setLr s r x).pins = s.pins := rfl
@[simp] theorem setLr_evt (s : State) (r : Nat) (x : Lr) : (setLr s r x).evt = s.evt := rfl
@[simp] theorem setLr_ras (s : State) (r : Nat) (x : Lr) : (setLr s r x).ras = s.ras := rfl
@[simp] theorem setLr_trace (s : State) (r : Nat) (x : Lr) : (setLr s r x).trace = s.trace := rfl
@[simp] theorem setLr_tap (s : State) (r : Nat) (x : Lr) : (setLr s r x).tap = s.tap := rfl
@[simp] theorem setLr_removal (s : State) (r : Nat) (x : Lr) : (setLr s r x).removal = s.removal := rfl
@[simp] theorem objGet_setLr (s : State) (r : Nat) (x : Lr) (j k : Nat) : objGet (setLr s r x) j k = objGet s j k := rfl
@[simp] theorem slotOf_setLr (s : State) (r : Nat) (x : Lr) (j : Nat) : slotOf (setLr s r x) j = slotOf s j := rfl
@[simp] theorem pairOf_setLr (s : State) (r : Nat) (x : Lr) (j : Nat) : pairOf (setLr s r x) j = pairOf s j := rfl
@[simp] theorem srcOf_setLr (s : State) (r : Nat) (x : Lr) (j : Nat) : srcOf (setLr s r x) j = srcOf s j := rfl
@[simp] theorem poolOf_setLr (s : State) (r : Nat) (x : Lr) (j : Nat) : poolOf (setLr s r x) j = poolOf s j := rfl
@[simp] theorem mailboxOf_setLr (s : State) (r : Nat) (x : Lr) (j : Nat) : mailboxOf (setLr s r x) j = mailboxOf s j := rfl
@[simp] theorem dieId_setLr (s : State) (r : Nat) (x : Lr) : dieId (setLr s r x) = dieId s := rfl
@[simp] theorem headCountClosed_setLr (s : State) (r : Nat) (x : Lr) : headCountClosed (setLr s r x) = headCountClosed s := rfl

/-! ### transmit -/
@[simp] theorem transmit_pending (s : State) (p : Nat) (f : TxFrame) : (transmit s p f).pending = s.pending := rfl
@[simp] theorem transmit_drawn (s : State) (p : Nat) (f : TxFrame) : (transmit s p f).drawn = s.drawn := rfl
@[simp] theorem transmit_boot (s : State) (p : Nat) (f : TxFrame) : (transmit s p f).boot = s.boot := rfl
@[simp] theorem transmit_objs (s : State) (p : Nat) (f : TxFrame) : (transmit s p f).objs = s.objs := rfl
@[simp] theorem transmit_mem (s : State) (p : Nat) (f : TxFrame) : (transmit s p f).mem = s.mem := rfl
@[simp] theorem transmit_sets (s : State) (p : Nat) (f : TxFrame) : (transmit s p f).sets = s.sets := rfl
@[simp] theorem transmit_roots (s : State) (p : Nat) (f : TxFrame) : (transmit s p f).roots = s.roots := rfl
@[simp] theorem transmit_pairs (s : State) (p : Nat) (f : TxFrame) : (transmit s p f).pairs = s.pairs := rfl
@[simp] theorem transmit_slots (s : State) (p : Nat) (f : TxFrame) : (transmit s p f).slots = s.slots := rfl
@[simp] theorem transmit_cmds (s : State) (p : Nat) (f : TxFrame) : (transmit s p f).cmds = s.cmds := rfl
@[simp] theorem transmit_seq (s : State) (p : Nat) (f : TxFrame) : (transmit s p f).seq = s.seq := rfl
@[simp] theorem transmit_arbs (s : State) (p : Nat) (f : TxFrame) : (transmit s p f).arbs = s.arbs := rfl
@[simp] theorem transmit_txa (s : State) (p : Nat) (f : TxFrame) : (transmit s p f).txa = s.txa := rfl
@[simp] theorem transmit_forge (s : State) (p : Nat) (f : TxFrame) : (transmit s p f).forge = s.forge := rfl
@[simp] theorem transmit_sdx (s : State) (p : Nat) (f : TxFrame) : (transmit s p f).sdx = s.sdx := rfl
@[simp] theorem transmit_rsv (s : State) (p : Nat) (f : TxFrame) : (transmit s p f).rsv = s.rsv := rfl
@[simp] theorem transmit_mdc (s : State) (p : Nat) (f : TxFrame) : (transmit s p f).mdc = s.mdc := rfl
@[simp] theorem transmit_tok (s : State) (p : Nat) (f : TxFrame) : (transmit s p f).tok = s.tok := rfl
@[simp] theorem transmit_bat (s : State) (p : Nat) (f : TxFrame) : (transmit s p f).bat = s.bat := rfl
@[simp] theorem transmit_pools (s : State) (p : Nat) (f : TxFrame) : (transmit s p f).pools = s.pools := rfl
@[simp] theorem transmit_dlv (s : State) (p : Nat) (f : TxFrame) : (transmit s p f).dlv = s.dlv := rfl
@[simp] theorem transmit_fed (s : State) (p : Nat) (f : TxFrame) : (transmit s p f).fed = s.fed := rfl
@[simp] theorem transmit_dict (s : State) (p : Nat) (f : TxFrame) : (transmit s p f).dict = s.dict := rfl
@[simp] theorem transmit_pins (s : State) (p : Nat) (f : TxFrame) : (transmit s p f).pins = s.pins := rfl
@[simp] theorem transmit_evt (s : State) (p : Nat) (f : TxFrame) : (transmit s p f).evt = s.evt := rfl
@[simp] theorem transmit_ras (s : State) (p : Nat) (f : TxFrame) : (transmit s p f).ras = s.ras := rfl
@[simp] theorem transmit_trace (s : State) (p : Nat) (f : TxFrame) : (transmit s p f).trace = s.trace := rfl
@[simp] theorem transmit_tap (s : State) (p : Nat) (f : TxFrame) : (transmit s p f).tap = s.tap := rfl
@[simp] theorem transmit_removal (s : State) (p : Nat) (f : TxFrame) : (transmit s p f).removal = s.removal := rfl
@[simp] theorem objGet_transmit (s : State) (p : Nat) (f : TxFrame) (j k : Nat) : objGet (transmit s p f) j k = objGet s j k := rfl
@[simp] theorem slotOf_transmit (s : State) (p : Nat) (f : TxFrame) (j : Nat) : slotOf (transmit s p f) j = slotOf s j := rfl
@[simp] theorem pairOf_transmit (s : State) (p : Nat) (f : TxFrame) (j : Nat) : pairOf (transmit s p f) j = pairOf s j := rfl
@[simp] theorem srcOf_transmit (s : State) (p : Nat) (f : TxFrame) (j : Nat) : srcOf (transmit s p f) j = srcOf s j := rfl
@[simp] theorem poolOf_transmit (s : State) (p : Nat) (f : TxFrame) (j : Nat) : poolOf (transmit s p f) j = poolOf s j := rfl
@[simp] theorem mailboxOf_transmit (s : State) (p : Nat) (f : TxFrame) (j : Nat) : mailboxOf (transmit s p f) j = mailboxOf s j := rfl
@[simp] theorem dieId_transmit (s : State) (p : Nat) (f : TxFrame) : dieId (transmit s p f) = dieId s := rfl
@[simp] theorem headCountClosed_transmit (s : State) (p : Nat) (f : TxFrame) : headCountClosed (transmit s p f) = headCountClosed s := rfl

/-! ### setCtx -/
@[simp] theorem setCtx_pending (s : State) (c : Nat) (x : Ctx) : (setCtx s c x).pending = s.pending := rfl
@[simp] theorem setCtx_drawn (s : State) (c : Nat) (x : Ctx) : (setCtx s c x).drawn = s.drawn := rfl
@[simp] theorem setCtx_boot (s : State) (c : Nat) (x : Ctx) : (setCtx s c x).boot = s.boot := rfl
@[simp] theorem setCtx_objs (s : State) (c : Nat) (x : Ctx) : (setCtx s c x).objs = s.objs := rfl
@[simp] theorem setCtx_mem (s : State) (c : Nat) (x : Ctx) : (setCtx s c x).mem = s.mem := rfl
@[simp] theorem setCtx_sets (s : State) (c : Nat) (x : Ctx) : (setCtx s c x).sets = s.sets := rfl
@[simp] theorem setCtx_roots (s : State) (c : Nat) (x : Ctx) : (setCtx s c x).roots = s.roots := rfl
@[simp] theorem setCtx_pairs (s : State) (c : Nat) (x : Ctx) : (setCtx s c x).pairs = s.pairs := rfl
@[simp] theorem setCtx_slots (s : State) (c : Nat) (x : Ctx) : (setCtx s c x).slots = s.slots := rfl
@[simp] theorem setCtx_cmds (s : State) (c : Nat) (x : Ctx) : (setCtx s c x).cmds = s.cmds := rfl
@[simp] theorem setCtx_seq (s : State) (c : Nat) (x : Ctx) : (setCtx s c x).seq = s.seq := rfl
@[simp] theorem setCtx_arbs (s : State) (c : Nat) (x : Ctx) : (setCtx s c x).arbs = s.arbs := rfl
@[simp] theorem setCtx_txa (s : State) (c : Nat) (x : Ctx) : (setCtx s c x).txa = s.txa := rfl
@[simp] theorem setCtx_forge (s : State) (c : Nat) (x : Ctx) : (setCtx s c x).forge = s.forge := rfl
@[simp] theorem setCtx_sdx (s : State) (c : Nat) (x : Ctx) : (setCtx s c x).sdx = s.sdx := rfl
@[simp] theorem setCtx_rsv (s : State) (c : Nat) (x : Ctx) : (setCtx s c x).rsv = s.rsv := rfl
@[simp] theorem setCtx_tok (s : State) (c : Nat) (x : Ctx) : (setCtx s c x).tok = s.tok := rfl
@[simp] theorem setCtx_bat (s : State) (c : Nat) (x : Ctx) : (setCtx s c x).bat = s.bat := rfl
@[simp] theorem setCtx_pools (s : State) (c : Nat) (x : Ctx) : (setCtx s c x).pools = s.pools := rfl
@[simp] theorem setCtx_dlv (s : State) (c : Nat) (x : Ctx) : (setCtx s c x).dlv = s.dlv := rfl
@[simp] theorem setCtx_net (s : State) (c : Nat) (x : Ctx) : (setCtx s c x).net = s.net := rfl
@[simp] theorem setCtx_fed (s : State) (c : Nat) (x : Ctx) : (setCtx s c x).fed = s.fed := rfl
@[simp] theorem setCtx_dict (s : State) (c : Nat) (x : Ctx) : (setCtx s c x).dict = s.dict := rfl
@[simp] theorem setCtx_pins (s : State) (c : Nat) (x : Ctx) : (setCtx s c x).pins = s.pins := rfl
@[simp] theorem setCtx_evt (s : State) (c : Nat) (x : Ctx) : (setCtx s c x).evt = s.evt := rfl
@[simp] theorem setCtx_ras (s : State) (c : Nat) (x : Ctx) : (setCtx s c x).ras = s.ras := rfl
@[simp] theorem setCtx_trace (s : State) (c : Nat) (x : Ctx) : (setCtx s c x).trace = s.trace := rfl
@[simp] theorem setCtx_tap (s : State) (c : Nat) (x : Ctx) : (setCtx s c x).tap = s.tap := rfl
@[simp] theorem setCtx_removal (s : State) (c : Nat) (x : Ctx) : (setCtx s c x).removal = s.removal := rfl
@[simp] theorem objGet_setCtx (s : State) (c : Nat) (x : Ctx) (j k : Nat) : objGet (setCtx s c x) j k = objGet s j k := rfl
@[simp] theorem slotOf_setCtx (s : State) (c : Nat) (x : Ctx) (j : Nat) : slotOf (setCtx s c x) j = slotOf s j := rfl
@[simp] theorem pairOf_setCtx (s : State) (c : Nat) (x : Ctx) (j : Nat) : pairOf (setCtx s c x) j = pairOf s j := rfl
@[simp] theorem srcOf_setCtx (s : State) (c : Nat) (x : Ctx) (j : Nat) : srcOf (setCtx s c x) j = srcOf s j := rfl
@[simp] theorem poolOf_setCtx (s : State) (c : Nat) (x : Ctx) (j : Nat) : poolOf (setCtx s c x) j = poolOf s j := rfl
@[simp] theorem portOf_setCtx (s : State) (c : Nat) (x : Ctx) (j : Nat) : portOf (setCtx s c x) j = portOf s j := rfl
@[simp] theorem mailboxOf_setCtx (s : State) (c : Nat) (x : Ctx) (j : Nat) : mailboxOf (setCtx s c x) j = mailboxOf s j := rfl
@[simp] theorem dieId_setCtx (s : State) (c : Nat) (x : Ctx) : dieId (setCtx s c x) = dieId s := rfl
@[simp] theorem headCountClosed_setCtx (s : State) (c : Nat) (x : Ctx) : headCountClosed (setCtx s c x) = headCountClosed s := rfl

/-! ### setSet -/
@[simp] theorem setSet_pending (s : State) (n : Nat) (x : PrimeSet) : (setSet s n x).pending = s.pending := rfl
@[simp] theorem setSet_drawn (s : State) (n : Nat) (x : PrimeSet) : (setSet s n x).drawn = s.drawn := rfl
@[simp] theorem setSet_boot (s : State) (n : Nat) (x : PrimeSet) : (setSet s n x).boot = s.boot := rfl
@[simp] theorem setSet_objs (s : State) (n : Nat) (x : PrimeSet) : (setSet s n x).objs = s.objs := rfl
@[simp] theorem setSet_mem (s : State) (n : Nat) (x : PrimeSet) : (setSet s n x).mem = s.mem := rfl
@[simp] theorem setSet_roots (s : State) (n : Nat) (x : PrimeSet) : (setSet s n x).roots = s.roots := rfl
@[simp] theorem setSet_pairs (s : State) (n : Nat) (x : PrimeSet) : (setSet s n x).pairs = s.pairs := rfl
@[simp] theorem setSet_slots (s : State) (n : Nat) (x : PrimeSet) : (setSet s n x).slots = s.slots := rfl
@[simp] theorem setSet_cmds (s : State) (n : Nat) (x : PrimeSet) : (setSet s n x).cmds = s.cmds := rfl
@[simp] theorem setSet_seq (s : State) (n : Nat) (x : PrimeSet) : (setSet s n x).seq = s.seq := rfl
@[simp] theorem setSet_arbs (s : State) (n : Nat) (x : PrimeSet) : (setSet s n x).arbs = s.arbs := rfl
@[simp] theorem setSet_txa (s : State) (n : Nat) (x : PrimeSet) : (setSet s n x).txa = s.txa := rfl
@[simp] theorem setSet_forge (s : State) (n : Nat) (x : PrimeSet) : (setSet s n x).forge = s.forge := rfl
@[simp] theorem setSet_sdx (s : State) (n : Nat) (x : PrimeSet) : (setSet s n x).sdx = s.sdx := rfl
@[simp] theorem setSet_rsv (s : State) (n : Nat) (x : PrimeSet) : (setSet s n x).rsv = s.rsv := rfl
@[simp] theorem setSet_mdc (s : State) (n : Nat) (x : PrimeSet) : (setSet s n x).mdc = s.mdc := rfl
@[simp] theorem setSet_tok (s : State) (n : Nat) (x : PrimeSet) : (setSet s n x).tok = s.tok := rfl
@[simp] theorem setSet_bat (s : State) (n : Nat) (x : PrimeSet) : (setSet s n x).bat = s.bat := rfl
@[simp] theorem setSet_pools (s : State) (n : Nat) (x : PrimeSet) : (setSet s n x).pools = s.pools := rfl
@[simp] theorem setSet_dlv (s : State) (n : Nat) (x : PrimeSet) : (setSet s n x).dlv = s.dlv := rfl
@[simp] theorem setSet_net (s : State) (n : Nat) (x : PrimeSet) : (setSet s n x).net = s.net := rfl
@[simp] theorem setSet_fed (s : State) (n : Nat) (x : PrimeSet) : (setSet s n x).fed = s.fed := rfl
@[simp] theorem setSet_dict (s : State) (n : Nat) (x : PrimeSet) : (setSet s n x).dict = s.dict := rfl
@[simp] theorem setSet_pins (s : State) (n : Nat) (x : PrimeSet) : (setSet s n x).pins = s.pins := rfl
@[simp] theorem setSet_evt (s : State) (n : Nat) (x : PrimeSet) : (setSet s n x).evt = s.evt := rfl
@[simp] theorem setSet_ras (s : State) (n : Nat) (x : PrimeSet) : (setSet s n x).ras = s.ras := rfl
@[simp] theorem setSet_trace (s : State) (n : Nat) (x : PrimeSet) : (setSet s n x).trace = s.trace := rfl
@[simp] theorem setSet_tap (s : State) (n : Nat) (x : PrimeSet) : (setSet s n x).tap = s.tap := rfl
@[simp] theorem setSet_removal (s : State) (n : Nat) (x : PrimeSet) : (setSet s n x).removal = s.removal := rfl
@[simp] theorem objGet_setSet (s : State) (n : Nat) (x : PrimeSet) (j k : Nat) : objGet (setSet s n x) j k = objGet s j k := rfl
@[simp] theorem slotOf_setSet (s : State) (n : Nat) (x : PrimeSet) (j : Nat) : slotOf (setSet s n x) j = slotOf s j := rfl
@[simp] theorem pairOf_setSet (s : State) (n : Nat) (x : PrimeSet) (j : Nat) : pairOf (setSet s n x) j = pairOf s j := rfl
@[simp] theorem srcOf_setSet (s : State) (n : Nat) (x : PrimeSet) (j : Nat) : srcOf (setSet s n x) j = srcOf s j := rfl
@[simp] theorem poolOf_setSet (s : State) (n : Nat) (x : PrimeSet) (j : Nat) : poolOf (setSet s n x) j = poolOf s j := rfl
@[simp] theorem portOf_setSet (s : State) (n : Nat) (x : PrimeSet) (j : Nat) : portOf (setSet s n x) j = portOf s j := rfl
@[simp] theorem mailboxOf_setSet (s : State) (n : Nat) (x : PrimeSet) (j : Nat) : mailboxOf (setSet s n x) j = mailboxOf s j := rfl
@[simp] theorem dieId_setSet (s : State) (n : Nat) (x : PrimeSet) : dieId (setSet s n x) = dieId s := rfl
@[simp] theorem headCountClosed_setSet (s : State) (n : Nat) (x : PrimeSet) : headCountClosed (setSet s n x) = headCountClosed s := rfl

/-! ### clearLink -/
@[simp] theorem clearLink_pending (s : State) (p : Nat) : (clearLink s p).pending = s.pending := rfl
@[simp] theorem clearLink_drawn (s : State) (p : Nat) : (clearLink s p).drawn = s.drawn := rfl
@[simp] theorem clearLink_boot (s : State) (p : Nat) : (clearLink s p).boot = s.boot := rfl
@[simp] theorem clearLink_objs (s : State) (p : Nat) : (clearLink s p).objs = s.objs := rfl
@[simp] theorem clearLink_mem (s : State) (p : Nat) : (clearLink s p).mem = s.mem := rfl
@[simp] theorem clearLink_sets (s : State) (p : Nat) : (clearLink s p).sets = s.sets := rfl
@[simp] theorem clearLink_roots (s : State) (p : Nat) : (clearLink s p).roots = s.roots := rfl
@[simp] theorem clearLink_pairs (s : State) (p : Nat) : (clearLink s p).pairs = s.pairs := rfl
@[simp] theorem clearLink_slots (s : State) (p : Nat) : (clearLink s p).slots = s.slots := rfl
@[simp] theorem clearLink_cmds (s : State) (p : Nat) : (clearLink s p).cmds = s.cmds := rfl
@[simp] theorem clearLink_seq (s : State) (p : Nat) : (clearLink s p).seq = s.seq := rfl
@[simp] theorem clearLink_arbs (s : State) (p : Nat) : (clearLink s p).arbs = s.arbs := rfl
@[simp] theorem clearLink_txa (s : State) (p : Nat) : (clearLink s p).txa = s.txa := rfl
@[simp] theorem clearLink_forge (s : State) (p : Nat) : (clearLink s p).forge = s.forge := rfl
@[simp] theorem clearLink_sdx (s : State) (p : Nat) : (clearLink s p).sdx = s.sdx := rfl
@[simp] theorem clearLink_rsv (s : State) (p : Nat) : (clearLink s p).rsv = s.rsv := rfl
@[simp] theorem clearLink_mdc (s : State) (p : Nat) : (clearLink s p).mdc = s.mdc := rfl
@[simp] theorem clearLink_tok (s : State) (p : Nat) : (clearLink s p).tok = s.tok := rfl
@[simp] theorem clearLink_bat (s : State) (p : Nat) : (clearLink s p).bat = s.bat := rfl
@[simp] theorem clearLink_pools (s : State) (p : Nat) : (clearLink s p).pools = s.pools := rfl
@[simp] theorem clearLink_net (s : State) (p : Nat) : (clearLink s p).net = s.net := rfl
@[simp] theorem clearLink_fed (s : State) (p : Nat) : (clearLink s p).fed = s.fed := rfl
@[simp] theorem clearLink_dict (s : State) (p : Nat) : (clearLink s p).dict = s.dict := rfl
@[simp] theorem clearLink_pins (s : State) (p : Nat) : (clearLink s p).pins = s.pins := rfl
@[simp] theorem clearLink_evt (s : State) (p : Nat) : (clearLink s p).evt = s.evt := rfl
@[simp] theorem clearLink_ras (s : State) (p : Nat) : (clearLink s p).ras = s.ras := rfl
@[simp] theorem clearLink_trace (s : State) (p : Nat) : (clearLink s p).trace = s.trace := rfl
@[simp] theorem clearLink_tap (s : State) (p : Nat) : (clearLink s p).tap = s.tap := rfl
@[simp] theorem clearLink_removal (s : State) (p : Nat) : (clearLink s p).removal = s.removal := rfl
@[simp] theorem objGet_clearLink (s : State) (p : Nat) (j k : Nat) : objGet (clearLink s p) j k = objGet s j k := rfl
@[simp] theorem slotOf_clearLink (s : State) (p : Nat) (j : Nat) : slotOf (clearLink s p) j = slotOf s j := rfl
@[simp] theorem pairOf_clearLink (s : State) (p : Nat) (j : Nat) : pairOf (clearLink s p) j = pairOf s j := rfl
@[simp] theorem srcOf_clearLink (s : State) (p : Nat) (j : Nat) : srcOf (clearLink s p) j = srcOf s j := rfl
@[simp] theorem poolOf_clearLink (s : State) (p : Nat) (j : Nat) : poolOf (clearLink s p) j = poolOf s j := rfl
@[simp] theorem portOf_clearLink (s : State) (p : Nat) (j : Nat) : portOf (clearLink s p) j = portOf s j := rfl
@[simp] theorem mailboxOf_clearLink (s : State) (p : Nat) (j : Nat) : mailboxOf (clearLink s p) j = mailboxOf s j := rfl
@[simp] theorem dieId_clearLink (s : State) (p : Nat) : dieId (clearLink s p) = dieId s := rfl
@[simp] theorem headCountClosed_clearLink (s : State) (p : Nat) : headCountClosed (clearLink s p) = headCountClosed s := rfl

/-! ### setStateBit -/
@[simp] theorem setStateBit_pending (s : State) (p i : Nat) (v : Bool) : (setStateBit s p i v).pending = s.pending := rfl
@[simp] theorem setStateBit_drawn (s : State) (p i : Nat) (v : Bool) : (setStateBit s p i v).drawn = s.drawn := rfl
@[simp] theorem setStateBit_boot (s : State) (p i : Nat) (v : Bool) : (setStateBit s p i v).boot = s.boot := rfl
@[simp] theorem setStateBit_objs (s : State) (p i : Nat) (v : Bool) : (setStateBit s p i v).objs = s.objs := rfl
@[simp] theorem setStateBit_sets (s : State) (p i : Nat) (v : Bool) : (setStateBit s p i v).sets = s.sets := rfl
@[simp] theorem setStateBit_roots (s : State) (p i : Nat) (v : Bool) : (setStateBit s p i v).roots = s.roots := rfl
@[simp] theorem setStateBit_pairs (s : State) (p i : Nat) (v : Bool) : (setStateBit s p i v).pairs = s.pairs := rfl
@[simp] theorem setStateBit_slots (s : State) (p i : Nat) (v : Bool) : (setStateBit s p i v).slots = s.slots := rfl
@[simp] theorem setStateBit_cmds (s : State) (p i : Nat) (v : Bool) : (setStateBit s p i v).cmds = s.cmds := rfl
@[simp] theorem setStateBit_seq (s : State) (p i : Nat) (v : Bool) : (setStateBit s p i v).seq = s.seq := rfl
@[simp] theorem setStateBit_arbs (s : State) (p i : Nat) (v : Bool) : (setStateBit s p i v).arbs = s.arbs := rfl
@[simp] theorem setStateBit_txa (s : State) (p i : Nat) (v : Bool) : (setStateBit s p i v).txa = s.txa := rfl
@[simp] theorem setStateBit_forge (s : State) (p i : Nat) (v : Bool) : (setStateBit s p i v).forge = s.forge := rfl
@[simp] theorem setStateBit_sdx (s : State) (p i : Nat) (v : Bool) : (setStateBit s p i v).sdx = s.sdx := rfl
@[simp] theorem setStateBit_rsv (s : State) (p i : Nat) (v : Bool) : (setStateBit s p i v).rsv = s.rsv := rfl
@[simp] theorem setStateBit_mdc (s : State) (p i : Nat) (v : Bool) : (setStateBit s p i v).mdc = s.mdc := rfl
@[simp] theorem setStateBit_tok (s : State) (p i : Nat) (v : Bool) : (setStateBit s p i v).tok = s.tok := rfl
@[simp] theorem setStateBit_bat (s : State) (p i : Nat) (v : Bool) : (setStateBit s p i v).bat = s.bat := rfl
@[simp] theorem setStateBit_pools (s : State) (p i : Nat) (v : Bool) : (setStateBit s p i v).pools = s.pools := rfl
@[simp] theorem setStateBit_dlv (s : State) (p i : Nat) (v : Bool) : (setStateBit s p i v).dlv = s.dlv := rfl
@[simp] theorem setStateBit_net (s : State) (p i : Nat) (v : Bool) : (setStateBit s p i v).net = s.net := rfl
@[simp] theorem setStateBit_fed (s : State) (p i : Nat) (v : Bool) : (setStateBit s p i v).fed = s.fed := rfl
@[simp] theorem setStateBit_dict (s : State) (p i : Nat) (v : Bool) : (setStateBit s p i v).dict = s.dict := rfl
@[simp] theorem setStateBit_pins (s : State) (p i : Nat) (v : Bool) : (setStateBit s p i v).pins = s.pins := rfl
@[simp] theorem setStateBit_evt (s : State) (p i : Nat) (v : Bool) : (setStateBit s p i v).evt = s.evt := rfl
@[simp] theorem setStateBit_ras (s : State) (p i : Nat) (v : Bool) : (setStateBit s p i v).ras = s.ras := rfl
@[simp] theorem setStateBit_trace (s : State) (p i : Nat) (v : Bool) : (setStateBit s p i v).trace = s.trace := rfl
@[simp] theorem setStateBit_tap (s : State) (p i : Nat) (v : Bool) : (setStateBit s p i v).tap = s.tap := rfl
@[simp] theorem setStateBit_removal (s : State) (p i : Nat) (v : Bool) : (setStateBit s p i v).removal = s.removal := rfl
@[simp] theorem objGet_setStateBit (s : State) (p i : Nat) (v : Bool) (j k : Nat) : objGet (setStateBit s p i v) j k = objGet s j k := rfl
@[simp] theorem slotOf_setStateBit (s : State) (p i : Nat) (v : Bool) (j : Nat) : slotOf (setStateBit s p i v) j = slotOf s j := rfl
@[simp] theorem pairOf_setStateBit (s : State) (p i : Nat) (v : Bool) (j : Nat) : pairOf (setStateBit s p i v) j = pairOf s j := rfl
@[simp] theorem srcOf_setStateBit (s : State) (p i : Nat) (v : Bool) (j : Nat) : srcOf (setStateBit s p i v) j = srcOf s j := rfl
@[simp] theorem poolOf_setStateBit (s : State) (p i : Nat) (v : Bool) (j : Nat) : poolOf (setStateBit s p i v) j = poolOf s j := rfl
@[simp] theorem portOf_setStateBit (s : State) (p i : Nat) (v : Bool) (j : Nat) : portOf (setStateBit s p i v) j = portOf s j := rfl
@[simp] theorem mailboxOf_setStateBit (s : State) (p i : Nat) (v : Bool) (j : Nat) : mailboxOf (setStateBit s p i v) j = mailboxOf s j := rfl
@[simp] theorem dieId_setStateBit (s : State) (p i : Nat) (v : Bool) : dieId (setStateBit s p i v) = dieId s := rfl
@[simp] theorem headCountClosed_setStateBit (s : State) (p i : Nat) (v : Bool) : headCountClosed (setStateBit s p i v) = headCountClosed s := rfl

/-! ### setRsvCore -/
@[simp] theorem setRsvCore_pending (s : State) (c : Nat) (x : Option RsvCall) : (setRsvCore s c x).pending = s.pending := rfl
@[simp] theorem setRsvCore_drawn (s : State) (c : Nat) (x : Option RsvCall) : (setRsvCore s c x).drawn = s.drawn := rfl
@[simp] theorem setRsvCore_boot (s : State) (c : Nat) (x : Option RsvCall) : (setRsvCore s c x).boot = s.boot := rfl
@[simp] theorem setRsvCore_objs (s : State) (c : Nat) (x : Option RsvCall) : (setRsvCore s c x).objs = s.objs := rfl
@[simp] theorem setRsvCore_mem (s : State) (c : Nat) (x : Option RsvCall) : (setRsvCore s c x).mem = s.mem := rfl
@[simp] theorem setRsvCore_sets (s : State) (c : Nat) (x : Option RsvCall) : (setRsvCore s c x).sets = s.sets := rfl
@[simp] theorem setRsvCore_roots (s : State) (c : Nat) (x : Option RsvCall) : (setRsvCore s c x).roots = s.roots := rfl
@[simp] theorem setRsvCore_pairs (s : State) (c : Nat) (x : Option RsvCall) : (setRsvCore s c x).pairs = s.pairs := rfl
@[simp] theorem setRsvCore_slots (s : State) (c : Nat) (x : Option RsvCall) : (setRsvCore s c x).slots = s.slots := rfl
@[simp] theorem setRsvCore_cmds (s : State) (c : Nat) (x : Option RsvCall) : (setRsvCore s c x).cmds = s.cmds := rfl
@[simp] theorem setRsvCore_seq (s : State) (c : Nat) (x : Option RsvCall) : (setRsvCore s c x).seq = s.seq := rfl
@[simp] theorem setRsvCore_arbs (s : State) (c : Nat) (x : Option RsvCall) : (setRsvCore s c x).arbs = s.arbs := rfl
@[simp] theorem setRsvCore_txa (s : State) (c : Nat) (x : Option RsvCall) : (setRsvCore s c x).txa = s.txa := rfl
@[simp] theorem setRsvCore_forge (s : State) (c : Nat) (x : Option RsvCall) : (setRsvCore s c x).forge = s.forge := rfl
@[simp] theorem setRsvCore_sdx (s : State) (c : Nat) (x : Option RsvCall) : (setRsvCore s c x).sdx = s.sdx := rfl
@[simp] theorem setRsvCore_mdc (s : State) (c : Nat) (x : Option RsvCall) : (setRsvCore s c x).mdc = s.mdc := rfl
@[simp] theorem setRsvCore_tok (s : State) (c : Nat) (x : Option RsvCall) : (setRsvCore s c x).tok = s.tok := rfl
@[simp] theorem setRsvCore_bat (s : State) (c : Nat) (x : Option RsvCall) : (setRsvCore s c x).bat = s.bat := rfl
@[simp] theorem setRsvCore_pools (s : State) (c : Nat) (x : Option RsvCall) : (setRsvCore s c x).pools = s.pools := rfl
@[simp] theorem setRsvCore_dlv (s : State) (c : Nat) (x : Option RsvCall) : (setRsvCore s c x).dlv = s.dlv := rfl
@[simp] theorem setRsvCore_net (s : State) (c : Nat) (x : Option RsvCall) : (setRsvCore s c x).net = s.net := rfl
@[simp] theorem setRsvCore_fed (s : State) (c : Nat) (x : Option RsvCall) : (setRsvCore s c x).fed = s.fed := rfl
@[simp] theorem setRsvCore_dict (s : State) (c : Nat) (x : Option RsvCall) : (setRsvCore s c x).dict = s.dict := rfl
@[simp] theorem setRsvCore_pins (s : State) (c : Nat) (x : Option RsvCall) : (setRsvCore s c x).pins = s.pins := rfl
@[simp] theorem setRsvCore_evt (s : State) (c : Nat) (x : Option RsvCall) : (setRsvCore s c x).evt = s.evt := rfl
@[simp] theorem setRsvCore_ras (s : State) (c : Nat) (x : Option RsvCall) : (setRsvCore s c x).ras = s.ras := rfl
@[simp] theorem setRsvCore_trace (s : State) (c : Nat) (x : Option RsvCall) : (setRsvCore s c x).trace = s.trace := rfl
@[simp] theorem setRsvCore_tap (s : State) (c : Nat) (x : Option RsvCall) : (setRsvCore s c x).tap = s.tap := rfl
@[simp] theorem setRsvCore_removal (s : State) (c : Nat) (x : Option RsvCall) : (setRsvCore s c x).removal = s.removal := rfl
@[simp] theorem objGet_setRsvCore (s : State) (c : Nat) (x : Option RsvCall) (j k : Nat) : objGet (setRsvCore s c x) j k = objGet s j k := rfl
@[simp] theorem slotOf_setRsvCore (s : State) (c : Nat) (x : Option RsvCall) (j : Nat) : slotOf (setRsvCore s c x) j = slotOf s j := rfl
@[simp] theorem pairOf_setRsvCore (s : State) (c : Nat) (x : Option RsvCall) (j : Nat) : pairOf (setRsvCore s c x) j = pairOf s j := rfl
@[simp] theorem srcOf_setRsvCore (s : State) (c : Nat) (x : Option RsvCall) (j : Nat) : srcOf (setRsvCore s c x) j = srcOf s j := rfl
@[simp] theorem poolOf_setRsvCore (s : State) (c : Nat) (x : Option RsvCall) (j : Nat) : poolOf (setRsvCore s c x) j = poolOf s j := rfl
@[simp] theorem portOf_setRsvCore (s : State) (c : Nat) (x : Option RsvCall) (j : Nat) : portOf (setRsvCore s c x) j = portOf s j := rfl
@[simp] theorem mailboxOf_setRsvCore (s : State) (c : Nat) (x : Option RsvCall) (j : Nat) : mailboxOf (setRsvCore s c x) j = mailboxOf s j := rfl
@[simp] theorem dieId_setRsvCore (s : State) (c : Nat) (x : Option RsvCall) : dieId (setRsvCore s c x) = dieId s := rfl
@[simp] theorem headCountClosed_setRsvCore (s : State) (c : Nat) (x : Option RsvCall) : headCountClosed (setRsvCore s c x) = headCountClosed s := rfl

/-! ### setRegs -/
@[simp] theorem setRegs_pending (s : State) (t : Nat) (r : TileRegs) : (setRegs s t r).pending = s.pending := rfl
@[simp] theorem setRegs_drawn (s : State) (t : Nat) (r : TileRegs) : (setRegs s t r).drawn = s.drawn := rfl
@[simp] theorem setRegs_boot (s : State) (t : Nat) (r : TileRegs) : (setRegs s t r).boot = s.boot := rfl
@[simp] theorem setRegs_objs (s : State) (t : Nat) (r : TileRegs) : (setRegs s t r).objs = s.objs := rfl
@[simp] theorem setRegs_mem (s : State) (t : Nat) (r : TileRegs) : (setRegs s t r).mem = s.mem := rfl
@[simp] theorem setRegs_sets (s : State) (t : Nat) (r : TileRegs) : (setRegs s t r).sets = s.sets := rfl
@[simp] theorem setRegs_roots (s : State) (t : Nat) (r : TileRegs) : (setRegs s t r).roots = s.roots := rfl
@[simp] theorem setRegs_pairs (s : State) (t : Nat) (r : TileRegs) : (setRegs s t r).pairs = s.pairs := rfl
@[simp] theorem setRegs_slots (s : State) (t : Nat) (r : TileRegs) : (setRegs s t r).slots = s.slots := rfl
@[simp] theorem setRegs_cmds (s : State) (t : Nat) (r : TileRegs) : (setRegs s t r).cmds = s.cmds := rfl
@[simp] theorem setRegs_seq (s : State) (t : Nat) (r : TileRegs) : (setRegs s t r).seq = s.seq := rfl
@[simp] theorem setRegs_arbs (s : State) (t : Nat) (r : TileRegs) : (setRegs s t r).arbs = s.arbs := rfl
@[simp] theorem setRegs_forge (s : State) (t : Nat) (r : TileRegs) : (setRegs s t r).forge = s.forge := rfl
@[simp] theorem setRegs_sdx (s : State) (t : Nat) (r : TileRegs) : (setRegs s t r).sdx = s.sdx := rfl
@[simp] theorem setRegs_rsv (s : State) (t : Nat) (r : TileRegs) : (setRegs s t r).rsv = s.rsv := rfl
@[simp] theorem setRegs_mdc (s : State) (t : Nat) (r : TileRegs) : (setRegs s t r).mdc = s.mdc := rfl
@[simp] theorem setRegs_tok (s : State) (t : Nat) (r : TileRegs) : (setRegs s t r).tok = s.tok := rfl
@[simp] theorem setRegs_bat (s : State) (t : Nat) (r : TileRegs) : (setRegs s t r).bat = s.bat := rfl
@[simp] theorem setRegs_pools (s : State) (t : Nat) (r : TileRegs) : (setRegs s t r).pools = s.pools := rfl
@[simp] theorem setRegs_dlv (s : State) (t : Nat) (r : TileRegs) : (setRegs s t r).dlv = s.dlv := rfl
@[simp] theorem setRegs_net (s : State) (t : Nat) (r : TileRegs) : (setRegs s t r).net = s.net := rfl
@[simp] theorem setRegs_fed (s : State) (t : Nat) (r : TileRegs) : (setRegs s t r).fed = s.fed := rfl
@[simp] theorem setRegs_dict (s : State) (t : Nat) (r : TileRegs) : (setRegs s t r).dict = s.dict := rfl
@[simp] theorem setRegs_pins (s : State) (t : Nat) (r : TileRegs) : (setRegs s t r).pins = s.pins := rfl
@[simp] theorem setRegs_evt (s : State) (t : Nat) (r : TileRegs) : (setRegs s t r).evt = s.evt := rfl
@[simp] theorem setRegs_ras (s : State) (t : Nat) (r : TileRegs) : (setRegs s t r).ras = s.ras := rfl
@[simp] theorem setRegs_trace (s : State) (t : Nat) (r : TileRegs) : (setRegs s t r).trace = s.trace := rfl
@[simp] theorem setRegs_tap (s : State) (t : Nat) (r : TileRegs) : (setRegs s t r).tap = s.tap := rfl
@[simp] theorem setRegs_removal (s : State) (t : Nat) (r : TileRegs) : (setRegs s t r).removal = s.removal := rfl
@[simp] theorem objGet_setRegs (s : State) (t : Nat) (r : TileRegs) (j k : Nat) : objGet (setRegs s t r) j k = objGet s j k := rfl
@[simp] theorem slotOf_setRegs (s : State) (t : Nat) (r : TileRegs) (j : Nat) : slotOf (setRegs s t r) j = slotOf s j := rfl
@[simp] theorem pairOf_setRegs (s : State) (t : Nat) (r : TileRegs) (j : Nat) : pairOf (setRegs s t r) j = pairOf s j := rfl
@[simp] theorem srcOf_setRegs (s : State) (t : Nat) (r : TileRegs) (j : Nat) : srcOf (setRegs s t r) j = srcOf s j := rfl
@[simp] theorem poolOf_setRegs (s : State) (t : Nat) (r : TileRegs) (j : Nat) : poolOf (setRegs s t r) j = poolOf s j := rfl
@[simp] theorem portOf_setRegs (s : State) (t : Nat) (r : TileRegs) (j : Nat) : portOf (setRegs s t r) j = portOf s j := rfl
@[simp] theorem mailboxOf_setRegs (s : State) (t : Nat) (r : TileRegs) (j : Nat) : mailboxOf (setRegs s t r) j = mailboxOf s j := rfl
@[simp] theorem dieId_setRegs (s : State) (t : Nat) (r : TileRegs) : dieId (setRegs s t r) = dieId s := rfl
@[simp] theorem headCountClosed_setRegs (s : State) (t : Nat) (r : TileRegs) : headCountClosed (setRegs s t r) = headCountClosed s := rfl

/-! ### setForge -/
@[simp] theorem setForge_pending (s : State) (r : ForgeRun) : (setForge s r).pending = s.pending := rfl
@[simp] theorem setForge_drawn (s : State) (r : ForgeRun) : (setForge s r).drawn = s.drawn := rfl
@[simp] theorem setForge_boot (s : State) (r : ForgeRun) : (setForge s r).boot = s.boot := rfl
@[simp] theorem setForge_objs (s : State) (r : ForgeRun) : (setForge s r).objs = s.objs := rfl
@[simp] theorem setForge_mem (s : State) (r : ForgeRun) : (setForge s r).mem = s.mem := rfl
@[simp] theorem setForge_sets (s : State) (r : ForgeRun) : (setForge s r).sets = s.sets := rfl
@[simp] theorem setForge_roots (s : State) (r : ForgeRun) : (setForge s r).roots = s.roots := rfl
@[simp] theorem setForge_pairs (s : State) (r : ForgeRun) : (setForge s r).pairs = s.pairs := rfl
@[simp] theorem setForge_slots (s : State) (r : ForgeRun) : (setForge s r).slots = s.slots := rfl
@[simp] theorem setForge_cmds (s : State) (r : ForgeRun) : (setForge s r).cmds = s.cmds := rfl
@[simp] theorem setForge_seq (s : State) (r : ForgeRun) : (setForge s r).seq = s.seq := rfl
@[simp] theorem setForge_arbs (s : State) (r : ForgeRun) : (setForge s r).arbs = s.arbs := rfl
@[simp] theorem setForge_txa (s : State) (r : ForgeRun) : (setForge s r).txa = s.txa := rfl
@[simp] theorem setForge_sdx (s : State) (r : ForgeRun) : (setForge s r).sdx = s.sdx := rfl
@[simp] theorem setForge_rsv (s : State) (r : ForgeRun) : (setForge s r).rsv = s.rsv := rfl
@[simp] theorem setForge_mdc (s : State) (r : ForgeRun) : (setForge s r).mdc = s.mdc := rfl
@[simp] theorem setForge_tok (s : State) (r : ForgeRun) : (setForge s r).tok = s.tok := rfl
@[simp] theorem setForge_bat (s : State) (r : ForgeRun) : (setForge s r).bat = s.bat := rfl
@[simp] theorem setForge_pools (s : State) (r : ForgeRun) : (setForge s r).pools = s.pools := rfl
@[simp] theorem setForge_dlv (s : State) (r : ForgeRun) : (setForge s r).dlv = s.dlv := rfl
@[simp] theorem setForge_net (s : State) (r : ForgeRun) : (setForge s r).net = s.net := rfl
@[simp] theorem setForge_fed (s : State) (r : ForgeRun) : (setForge s r).fed = s.fed := rfl
@[simp] theorem setForge_dict (s : State) (r : ForgeRun) : (setForge s r).dict = s.dict := rfl
@[simp] theorem setForge_pins (s : State) (r : ForgeRun) : (setForge s r).pins = s.pins := rfl
@[simp] theorem setForge_evt (s : State) (r : ForgeRun) : (setForge s r).evt = s.evt := rfl
@[simp] theorem setForge_ras (s : State) (r : ForgeRun) : (setForge s r).ras = s.ras := rfl
@[simp] theorem setForge_trace (s : State) (r : ForgeRun) : (setForge s r).trace = s.trace := rfl
@[simp] theorem setForge_tap (s : State) (r : ForgeRun) : (setForge s r).tap = s.tap := rfl
@[simp] theorem setForge_removal (s : State) (r : ForgeRun) : (setForge s r).removal = s.removal := rfl
@[simp] theorem objGet_setForge (s : State) (r : ForgeRun) (j k : Nat) : objGet (setForge s r) j k = objGet s j k := rfl
@[simp] theorem slotOf_setForge (s : State) (r : ForgeRun) (j : Nat) : slotOf (setForge s r) j = slotOf s j := rfl
@[simp] theorem pairOf_setForge (s : State) (r : ForgeRun) (j : Nat) : pairOf (setForge s r) j = pairOf s j := rfl
@[simp] theorem srcOf_setForge (s : State) (r : ForgeRun) (j : Nat) : srcOf (setForge s r) j = srcOf s j := rfl
@[simp] theorem poolOf_setForge (s : State) (r : ForgeRun) (j : Nat) : poolOf (setForge s r) j = poolOf s j := rfl
@[simp] theorem portOf_setForge (s : State) (r : ForgeRun) (j : Nat) : portOf (setForge s r) j = portOf s j := rfl
@[simp] theorem mailboxOf_setForge (s : State) (r : ForgeRun) (j : Nat) : mailboxOf (setForge s r) j = mailboxOf s j := rfl
@[simp] theorem dieId_setForge (s : State) (r : ForgeRun) : dieId (setForge s r) = dieId s := rfl
@[simp] theorem headCountClosed_setForge (s : State) (r : ForgeRun) : headCountClosed (setForge s r) = headCountClosed s := rfl

/-! ### modMsg -/
@[simp] theorem modMsg_pending (s : State) (id : Nat) (f : Msg → Msg) : (modMsg s id f).pending = s.pending := rfl
@[simp] theorem modMsg_drawn (s : State) (id : Nat) (f : Msg → Msg) : (modMsg s id f).drawn = s.drawn := rfl
@[simp] theorem modMsg_boot (s : State) (id : Nat) (f : Msg → Msg) : (modMsg s id f).boot = s.boot := rfl
@[simp] theorem modMsg_objs (s : State) (id : Nat) (f : Msg → Msg) : (modMsg s id f).objs = s.objs := rfl
@[simp] theorem modMsg_mem (s : State) (id : Nat) (f : Msg → Msg) : (modMsg s id f).mem = s.mem := rfl
@[simp] theorem modMsg_sets (s : State) (id : Nat) (f : Msg → Msg) : (modMsg s id f).sets = s.sets := rfl
@[simp] theorem modMsg_roots (s : State) (id : Nat) (f : Msg → Msg) : (modMsg s id f).roots = s.roots := rfl
@[simp] theorem modMsg_pairs (s : State) (id : Nat) (f : Msg → Msg) : (modMsg s id f).pairs = s.pairs := rfl
@[simp] theorem modMsg_slots (s : State) (id : Nat) (f : Msg → Msg) : (modMsg s id f).slots = s.slots := rfl
@[simp] theorem modMsg_cmds (s : State) (id : Nat) (f : Msg → Msg) : (modMsg s id f).cmds = s.cmds := rfl
@[simp] theorem modMsg_seq (s : State) (id : Nat) (f : Msg → Msg) : (modMsg s id f).seq = s.seq := rfl
@[simp] theorem modMsg_arbs (s : State) (id : Nat) (f : Msg → Msg) : (modMsg s id f).arbs = s.arbs := rfl
@[simp] theorem modMsg_txa (s : State) (id : Nat) (f : Msg → Msg) : (modMsg s id f).txa = s.txa := rfl
@[simp] theorem modMsg_forge (s : State) (id : Nat) (f : Msg → Msg) : (modMsg s id f).forge = s.forge := rfl
@[simp] theorem modMsg_sdx (s : State) (id : Nat) (f : Msg → Msg) : (modMsg s id f).sdx = s.sdx := rfl
@[simp] theorem modMsg_rsv (s : State) (id : Nat) (f : Msg → Msg) : (modMsg s id f).rsv = s.rsv := rfl
@[simp] theorem modMsg_mdc (s : State) (id : Nat) (f : Msg → Msg) : (modMsg s id f).mdc = s.mdc := rfl
@[simp] theorem modMsg_tok (s : State) (id : Nat) (f : Msg → Msg) : (modMsg s id f).tok = s.tok := rfl
@[simp] theorem modMsg_bat (s : State) (id : Nat) (f : Msg → Msg) : (modMsg s id f).bat = s.bat := rfl
@[simp] theorem modMsg_pools (s : State) (id : Nat) (f : Msg → Msg) : (modMsg s id f).pools = s.pools := rfl
@[simp] theorem modMsg_dlv (s : State) (id : Nat) (f : Msg → Msg) : (modMsg s id f).dlv = s.dlv := rfl
@[simp] theorem modMsg_fed (s : State) (id : Nat) (f : Msg → Msg) : (modMsg s id f).fed = s.fed := rfl
@[simp] theorem modMsg_dict (s : State) (id : Nat) (f : Msg → Msg) : (modMsg s id f).dict = s.dict := rfl
@[simp] theorem modMsg_pins (s : State) (id : Nat) (f : Msg → Msg) : (modMsg s id f).pins = s.pins := rfl
@[simp] theorem modMsg_evt (s : State) (id : Nat) (f : Msg → Msg) : (modMsg s id f).evt = s.evt := rfl
@[simp] theorem modMsg_ras (s : State) (id : Nat) (f : Msg → Msg) : (modMsg s id f).ras = s.ras := rfl
@[simp] theorem modMsg_trace (s : State) (id : Nat) (f : Msg → Msg) : (modMsg s id f).trace = s.trace := rfl
@[simp] theorem modMsg_tap (s : State) (id : Nat) (f : Msg → Msg) : (modMsg s id f).tap = s.tap := rfl
@[simp] theorem modMsg_removal (s : State) (id : Nat) (f : Msg → Msg) : (modMsg s id f).removal = s.removal := rfl
@[simp] theorem objGet_modMsg (s : State) (id : Nat) (f : Msg → Msg) (j k : Nat) : objGet (modMsg s id f) j k = objGet s j k := rfl
@[simp] theorem slotOf_modMsg (s : State) (id : Nat) (f : Msg → Msg) (j : Nat) : slotOf (modMsg s id f) j = slotOf s j := rfl
@[simp] theorem pairOf_modMsg (s : State) (id : Nat) (f : Msg → Msg) (j : Nat) : pairOf (modMsg s id f) j = pairOf s j := rfl
@[simp] theorem srcOf_modMsg (s : State) (id : Nat) (f : Msg → Msg) (j : Nat) : srcOf (modMsg s id f) j = srcOf s j := rfl
@[simp] theorem poolOf_modMsg (s : State) (id : Nat) (f : Msg → Msg) (j : Nat) : poolOf (modMsg s id f) j = poolOf s j := rfl
@[simp] theorem mailboxOf_modMsg (s : State) (id : Nat) (f : Msg → Msg) (j : Nat) : mailboxOf (modMsg s id f) j = mailboxOf s j := rfl
@[simp] theorem dieId_modMsg (s : State) (id : Nat) (f : Msg → Msg) : dieId (modMsg s id f) = dieId s := rfl
@[simp] theorem headCountClosed_modMsg (s : State) (id : Nat) (f : Msg → Msg) : headCountClosed (modMsg s id f) = headCountClosed s := rfl

/-! ### setRun -/
@[simp] theorem setRun_pending (s : State) (r y : DecodeRun) : (setRun s r y).pending = s.pending := rfl
@[simp] theorem setRun_drawn (s : State) (r y : DecodeRun) : (setRun s r y).drawn = s.drawn := rfl
@[simp] theorem setRun_boot (s : State) (r y : DecodeRun) : (setRun s r y).boot = s.boot := rfl
@[simp] theorem setRun_objs (s : State) (r y : DecodeRun) : (setRun s r y).objs = s.objs := rfl
@[simp] theorem setRun_mem (s : State) (r y : DecodeRun) : (setRun s r y).mem = s.mem := rfl
@[simp] theorem setRun_sets (s : State) (r y : DecodeRun) : (setRun s r y).sets = s.sets := rfl
@[simp] theorem setRun_roots (s : State) (r y : DecodeRun) : (setRun s r y).roots = s.roots := rfl
@[simp] theorem setRun_pairs (s : State) (r y : DecodeRun) : (setRun s r y).pairs = s.pairs := rfl
@[simp] theorem setRun_slots (s : State) (r y : DecodeRun) : (setRun s r y).slots = s.slots := rfl
@[simp] theorem setRun_cmds (s : State) (r y : DecodeRun) : (setRun s r y).cmds = s.cmds := rfl
@[simp] theorem setRun_seq (s : State) (r y : DecodeRun) : (setRun s r y).seq = s.seq := rfl
@[simp] theorem setRun_arbs (s : State) (r y : DecodeRun) : (setRun s r y).arbs = s.arbs := rfl
@[simp] theorem setRun_txa (s : State) (r y : DecodeRun) : (setRun s r y).txa = s.txa := rfl
@[simp] theorem setRun_forge (s : State) (r y : DecodeRun) : (setRun s r y).forge = s.forge := rfl
@[simp] theorem setRun_sdx (s : State) (r y : DecodeRun) : (setRun s r y).sdx = s.sdx := rfl
@[simp] theorem setRun_rsv (s : State) (r y : DecodeRun) : (setRun s r y).rsv = s.rsv := rfl
@[simp] theorem setRun_tok (s : State) (r y : DecodeRun) : (setRun s r y).tok = s.tok := rfl
@[simp] theorem setRun_bat (s : State) (r y : DecodeRun) : (setRun s r y).bat = s.bat := rfl
@[simp] theorem setRun_pools (s : State) (r y : DecodeRun) : (setRun s r y).pools = s.pools := rfl
@[simp] theorem setRun_dlv (s : State) (r y : DecodeRun) : (setRun s r y).dlv = s.dlv := rfl
@[simp] theorem setRun_net (s : State) (r y : DecodeRun) : (setRun s r y).net = s.net := rfl
@[simp] theorem setRun_fed (s : State) (r y : DecodeRun) : (setRun s r y).fed = s.fed := rfl
@[simp] theorem setRun_dict (s : State) (r y : DecodeRun) : (setRun s r y).dict = s.dict := rfl
@[simp] theorem setRun_pins (s : State) (r y : DecodeRun) : (setRun s r y).pins = s.pins := rfl
@[simp] theorem setRun_evt (s : State) (r y : DecodeRun) : (setRun s r y).evt = s.evt := rfl
@[simp] theorem setRun_ras (s : State) (r y : DecodeRun) : (setRun s r y).ras = s.ras := rfl
@[simp] theorem setRun_trace (s : State) (r y : DecodeRun) : (setRun s r y).trace = s.trace := rfl
@[simp] theorem setRun_tap (s : State) (r y : DecodeRun) : (setRun s r y).tap = s.tap := rfl
@[simp] theorem setRun_removal (s : State) (r y : DecodeRun) : (setRun s r y).removal = s.removal := rfl
@[simp] theorem objGet_setRun (s : State) (r y : DecodeRun) (j k : Nat) : objGet (setRun s r y) j k = objGet s j k := rfl
@[simp] theorem slotOf_setRun (s : State) (r y : DecodeRun) (j : Nat) : slotOf (setRun s r y) j = slotOf s j := rfl
@[simp] theorem pairOf_setRun (s : State) (r y : DecodeRun) (j : Nat) : pairOf (setRun s r y) j = pairOf s j := rfl
@[simp] theorem srcOf_setRun (s : State) (r y : DecodeRun) (j : Nat) : srcOf (setRun s r y) j = srcOf s j := rfl
@[simp] theorem poolOf_setRun (s : State) (r y : DecodeRun) (j : Nat) : poolOf (setRun s r y) j = poolOf s j := rfl
@[simp] theorem portOf_setRun (s : State) (r y : DecodeRun) (j : Nat) : portOf (setRun s r y) j = portOf s j := rfl
@[simp] theorem mailboxOf_setRun (s : State) (r y : DecodeRun) (j : Nat) : mailboxOf (setRun s r y) j = mailboxOf s j := rfl
@[simp] theorem dieId_setRun (s : State) (r y : DecodeRun) : dieId (setRun s r y) = dieId s := rfl
@[simp] theorem headCountClosed_setRun (s : State) (r y : DecodeRun) : headCountClosed (setRun s r y) = headCountClosed s := rfl

/-! ### setPiece -/
@[simp] theorem setPiece_pending (s : State) (c : Nat) (y : Option Nat) : (setPiece s c y).pending = s.pending := rfl
@[simp] theorem setPiece_drawn (s : State) (c : Nat) (y : Option Nat) : (setPiece s c y).drawn = s.drawn := rfl
@[simp] theorem setPiece_boot (s : State) (c : Nat) (y : Option Nat) : (setPiece s c y).boot = s.boot := rfl
@[simp] theorem setPiece_objs (s : State) (c : Nat) (y : Option Nat) : (setPiece s c y).objs = s.objs := rfl
@[simp] theorem setPiece_mem (s : State) (c : Nat) (y : Option Nat) : (setPiece s c y).mem = s.mem := rfl
@[simp] theorem setPiece_sets (s : State) (c : Nat) (y : Option Nat) : (setPiece s c y).sets = s.sets := rfl
@[simp] theorem setPiece_roots (s : State) (c : Nat) (y : Option Nat) : (setPiece s c y).roots = s.roots := rfl
@[simp] theorem setPiece_pairs (s : State) (c : Nat) (y : Option Nat) : (setPiece s c y).pairs = s.pairs := rfl
@[simp] theorem setPiece_slots (s : State) (c : Nat) (y : Option Nat) : (setPiece s c y).slots = s.slots := rfl
@[simp] theorem setPiece_cmds (s : State) (c : Nat) (y : Option Nat) : (setPiece s c y).cmds = s.cmds := rfl
@[simp] theorem setPiece_seq (s : State) (c : Nat) (y : Option Nat) : (setPiece s c y).seq = s.seq := rfl
@[simp] theorem setPiece_arbs (s : State) (c : Nat) (y : Option Nat) : (setPiece s c y).arbs = s.arbs := rfl
@[simp] theorem setPiece_txa (s : State) (c : Nat) (y : Option Nat) : (setPiece s c y).txa = s.txa := rfl
@[simp] theorem setPiece_forge (s : State) (c : Nat) (y : Option Nat) : (setPiece s c y).forge = s.forge := rfl
@[simp] theorem setPiece_sdx (s : State) (c : Nat) (y : Option Nat) : (setPiece s c y).sdx = s.sdx := rfl
@[simp] theorem setPiece_rsv (s : State) (c : Nat) (y : Option Nat) : (setPiece s c y).rsv = s.rsv := rfl
@[simp] theorem setPiece_mdc (s : State) (c : Nat) (y : Option Nat) : (setPiece s c y).mdc = s.mdc := rfl
@[simp] theorem setPiece_bat (s : State) (c : Nat) (y : Option Nat) : (setPiece s c y).bat = s.bat := rfl
@[simp] theorem setPiece_pools (s : State) (c : Nat) (y : Option Nat) : (setPiece s c y).pools = s.pools := rfl
@[simp] theorem setPiece_dlv (s : State) (c : Nat) (y : Option Nat) : (setPiece s c y).dlv = s.dlv := rfl
@[simp] theorem setPiece_net (s : State) (c : Nat) (y : Option Nat) : (setPiece s c y).net = s.net := rfl
@[simp] theorem setPiece_fed (s : State) (c : Nat) (y : Option Nat) : (setPiece s c y).fed = s.fed := rfl
@[simp] theorem setPiece_dict (s : State) (c : Nat) (y : Option Nat) : (setPiece s c y).dict = s.dict := rfl
@[simp] theorem setPiece_pins (s : State) (c : Nat) (y : Option Nat) : (setPiece s c y).pins = s.pins := rfl
@[simp] theorem setPiece_evt (s : State) (c : Nat) (y : Option Nat) : (setPiece s c y).evt = s.evt := rfl
@[simp] theorem setPiece_ras (s : State) (c : Nat) (y : Option Nat) : (setPiece s c y).ras = s.ras := rfl
@[simp] theorem setPiece_trace (s : State) (c : Nat) (y : Option Nat) : (setPiece s c y).trace = s.trace := rfl
@[simp] theorem setPiece_tap (s : State) (c : Nat) (y : Option Nat) : (setPiece s c y).tap = s.tap := rfl
@[simp] theorem setPiece_removal (s : State) (c : Nat) (y : Option Nat) : (setPiece s c y).removal = s.removal := rfl
@[simp] theorem objGet_setPiece (s : State) (c : Nat) (y : Option Nat) (j k : Nat) : objGet (setPiece s c y) j k = objGet s j k := rfl
@[simp] theorem slotOf_setPiece (s : State) (c : Nat) (y : Option Nat) (j : Nat) : slotOf (setPiece s c y) j = slotOf s j := rfl
@[simp] theorem pairOf_setPiece (s : State) (c : Nat) (y : Option Nat) (j : Nat) : pairOf (setPiece s c y) j = pairOf s j := rfl
@[simp] theorem srcOf_setPiece (s : State) (c : Nat) (y : Option Nat) (j : Nat) : srcOf (setPiece s c y) j = srcOf s j := rfl
@[simp] theorem poolOf_setPiece (s : State) (c : Nat) (y : Option Nat) (j : Nat) : poolOf (setPiece s c y) j = poolOf s j := rfl
@[simp] theorem portOf_setPiece (s : State) (c : Nat) (y : Option Nat) (j : Nat) : portOf (setPiece s c y) j = portOf s j := rfl
@[simp] theorem mailboxOf_setPiece (s : State) (c : Nat) (y : Option Nat) (j : Nat) : mailboxOf (setPiece s c y) j = mailboxOf s j := rfl
@[simp] theorem dieId_setPiece (s : State) (c : Nat) (y : Option Nat) : dieId (setPiece s c y) = dieId s := rfl
@[simp] theorem headCountClosed_setPiece (s : State) (c : Nat) (y : Option Nat) : headCountClosed (setPiece s c y) = headCountClosed s := rfl

/-! ### putBat -/
@[simp] theorem putBat_pending (s : State) (b : BatStage) : (putBat s b).pending = s.pending := rfl
@[simp] theorem putBat_drawn (s : State) (b : BatStage) : (putBat s b).drawn = s.drawn := rfl
@[simp] theorem putBat_boot (s : State) (b : BatStage) : (putBat s b).boot = s.boot := rfl
@[simp] theorem putBat_objs (s : State) (b : BatStage) : (putBat s b).objs = s.objs := rfl
@[simp] theorem putBat_mem (s : State) (b : BatStage) : (putBat s b).mem = s.mem := rfl
@[simp] theorem putBat_sets (s : State) (b : BatStage) : (putBat s b).sets = s.sets := rfl
@[simp] theorem putBat_roots (s : State) (b : BatStage) : (putBat s b).roots = s.roots := rfl
@[simp] theorem putBat_pairs (s : State) (b : BatStage) : (putBat s b).pairs = s.pairs := rfl
@[simp] theorem putBat_slots (s : State) (b : BatStage) : (putBat s b).slots = s.slots := rfl
@[simp] theorem putBat_cmds (s : State) (b : BatStage) : (putBat s b).cmds = s.cmds := rfl
@[simp] theorem putBat_seq (s : State) (b : BatStage) : (putBat s b).seq = s.seq := rfl
@[simp] theorem putBat_arbs (s : State) (b : BatStage) : (putBat s b).arbs = s.arbs := rfl
@[simp] theorem putBat_txa (s : State) (b : BatStage) : (putBat s b).txa = s.txa := rfl
@[simp] theorem putBat_forge (s : State) (b : BatStage) : (putBat s b).forge = s.forge := rfl
@[simp] theorem putBat_sdx (s : State) (b : BatStage) : (putBat s b).sdx = s.sdx := rfl
@[simp] theorem putBat_rsv (s : State) (b : BatStage) : (putBat s b).rsv = s.rsv := rfl
@[simp] theorem putBat_mdc (s : State) (b : BatStage) : (putBat s b).mdc = s.mdc := rfl
@[simp] theorem putBat_tok (s : State) (b : BatStage) : (putBat s b).tok = s.tok := rfl
@[simp] theorem putBat_pools (s : State) (b : BatStage) : (putBat s b).pools = s.pools := rfl
@[simp] theorem putBat_dlv (s : State) (b : BatStage) : (putBat s b).dlv = s.dlv := rfl
@[simp] theorem putBat_net (s : State) (b : BatStage) : (putBat s b).net = s.net := rfl
@[simp] theorem putBat_fed (s : State) (b : BatStage) : (putBat s b).fed = s.fed := rfl
@[simp] theorem putBat_dict (s : State) (b : BatStage) : (putBat s b).dict = s.dict := rfl
@[simp] theorem putBat_pins (s : State) (b : BatStage) : (putBat s b).pins = s.pins := rfl
@[simp] theorem putBat_evt (s : State) (b : BatStage) : (putBat s b).evt = s.evt := rfl
@[simp] theorem putBat_ras (s : State) (b : BatStage) : (putBat s b).ras = s.ras := rfl
@[simp] theorem putBat_trace (s : State) (b : BatStage) : (putBat s b).trace = s.trace := rfl
@[simp] theorem putBat_tap (s : State) (b : BatStage) : (putBat s b).tap = s.tap := rfl
@[simp] theorem putBat_removal (s : State) (b : BatStage) : (putBat s b).removal = s.removal := rfl
@[simp] theorem objGet_putBat (s : State) (b : BatStage) (j k : Nat) : objGet (putBat s b) j k = objGet s j k := rfl
@[simp] theorem slotOf_putBat (s : State) (b : BatStage) (j : Nat) : slotOf (putBat s b) j = slotOf s j := rfl
@[simp] theorem pairOf_putBat (s : State) (b : BatStage) (j : Nat) : pairOf (putBat s b) j = pairOf s j := rfl
@[simp] theorem srcOf_putBat (s : State) (b : BatStage) (j : Nat) : srcOf (putBat s b) j = srcOf s j := rfl
@[simp] theorem poolOf_putBat (s : State) (b : BatStage) (j : Nat) : poolOf (putBat s b) j = poolOf s j := rfl
@[simp] theorem portOf_putBat (s : State) (b : BatStage) (j : Nat) : portOf (putBat s b) j = portOf s j := rfl
@[simp] theorem mailboxOf_putBat (s : State) (b : BatStage) (j : Nat) : mailboxOf (putBat s b) j = mailboxOf s j := rfl
@[simp] theorem dieId_putBat (s : State) (b : BatStage) : dieId (putBat s b) = dieId s := rfl
@[simp] theorem headCountClosed_putBat (s : State) (b : BatStage) : headCountClosed (putBat s b) = headCountClosed s := rfl

end Sys2Proof.Machine
end

