-- ==== Sys2Proof/Laws/Ops.lean ====
section
/-! SUPPORT. What the readers of the state give after its named updates. -/

namespace Sys2Proof.Machine

set_option Elab.async false

/-! ## Slots -/

@[simp] theorem slotOf_setSlot_self (s : State) (n : Nat) (x : Slot) : slotOf (setSlot s n x) n = x := tblGet_tblSet_self _ _ _ _

theorem slotOf_setSlot (s : State) (n j : Nat) (x : Slot) : slotOf (setSlot s n x) j = if j = n then x else slotOf s j :=
  tblGet_tblSet _ _ _ _ _

@[simp] theorem setSlot_setSlot (s : State) (n : Nat) (x y : Slot) : setSlot (setSlot s n x) n y = setSlot s n y := by
  simp [setSlot]

/-! ## Objects -/

@[simp] theorem objGet_objSet_self (s : State) (i k v : Nat) : objGet (objSet s i k v) i k = v := by
  simp only [objGet, objSet, tblGet_tblSet_self]

theorem objGet_objSet_ne (s : State) (i k v j l : Nat) (h : objKey j l ≠ objKey i k) : objGet (objSet s i k v) j l = objGet s j l := by
  simp only [objGet, objSet, tblGet_tblSet_other _ _ _ _ _ _ h]

@[simp] theorem objSet_objSet (s : State) (i k v w : Nat) : objSet (objSet s i k v) i k w = objSet s i k w := by
  simp only [objSet, tblSet_tblSet]

@[simp] theorem objGet_bump_self (s : State) (i k : Nat) : objGet (bump s i k) i k = satAdd (objGet s i k) 1 := by
  simp only [bump, bumpBy, objGet_objSet_self]

/-! ## Pairs -/

@[simp] theorem pairOf_setPair_self (s : State) (p : Nat) (x : Pair) : pairOf (setPair s p x) p = x := tblGet_tblSet_self _ _ _ _

theorem pairOf_setPair (s : State) (p j : Nat) (x : Pair) : pairOf (setPair s p x) j = if j = p then x else pairOf s j :=
  tblGet_tblSet _ _ _ _ _

@[simp] theorem setPair_setPair (s : State) (p : Nat) (x y : Pair) : setPair (setPair s p x) p y = setPair s p y := by
  simp [setPair]

/-! ## Event sources, mailboxes, pools, ports -/

@[simp] theorem srcOf_setSrc_self (s : State) (n : Nat) (x : Src) : srcOf (setSrc s n x) n = x := tblGet_tblSet_self _ _ _ _
@[simp] theorem setSrc_setSrc (s : State) (n : Nat) (x y : Src) : setSrc (setSrc s n x) n y = setSrc s n y := by simp [setSrc]
@[simp] theorem coreOf_setCore_self (s : State) (c : Nat) (x : Core) : coreOf (setCore s c x) c = x := tblGet_tblSet_self _ _ _ _
@[simp] theorem grpOf_setGrp_self (s : State) (g : Nat) (x : Grp) : grpOf (setGrp s g x) g = x := tblGet_tblSet_self _ _ _ _
@[simp] theorem mailboxOf_setMailbox_self (s : State) (m : Nat) (x : Mailbox) : mailboxOf (setMailbox s m x) m = x :=
  tblGet_tblSet_self _ _ _ _
@[simp] theorem setMailbox_setMailbox (s : State) (m : Nat) (x y : Mailbox) : setMailbox (setMailbox s m x) m y = setMailbox s m y := by
  simp [setMailbox]
@[simp] theorem poolOf_setPool_self (s : State) (p : Nat) (x : Pool) : poolOf (setPool s p x) p = x := tblGet_tblSet_self _ _ _ _
@[simp] theorem setPool_setPool (s : State) (p : Nat) (x y : Pool) : setPool (setPool s p x) p y = setPool s p y := by simp [setPool]
@[simp] theorem portOf_setPort_self (s : State) (p : Nat) (x : Port) : portOf (setPort s p x) p = x := tblGet_tblSet_self _ _ _ _
@[simp] theorem setPort_setPort (s : State) (p : Nat) (x y : Port) : setPort (setPort s p x) p y = setPort s p y := by simp [setPort]

/-! ## Bytes of numbers -/

/-- A number's little-endian bytes spell it, up to their width. -/
theorem leNat_leBytes (n v : Nat) : leNat (leBytes n v) = v % 256 ^ n := by
  have key : ∀ (n k : Nat), leNat ((List.range' k n).map (byteOf v)) = v / 256 ^ k % 256 ^ n := by
    intro n
    induction n with
    | zero => intro k; simp [leNat, Nat.mod_one]
    | succ n ih =>
      intro k
      rw [List.range'_succ, List.map_cons, leNat, ih]
      have hb : (byteOf v k).toNat = v / 256 ^ k % 256 := by
        simp only [byteOf, BitVec.toNat_ofNat, Nat.reducePow]
      rw [hb, Nat.pow_succ, Nat.pow_succ, Nat.mul_comm (256 ^ n) 256, Nat.mod_mul, ← Nat.div_div_eq_div_mul]
  have := key n 0
  rwa [← List.range_eq_range', Nat.pow_zero, Nat.div_one] at this

@[simp] theorem leBytes_length (n v : Nat) : (leBytes n v).length = n := by simp [leBytes]

/-! ## Bits -/

/-- A power of two added where its bit is clear sets that bit alone. -/
theorem testBit_add_pow (m d : Nat) (hm : m.testBit d = false) (k : Nat) : (m + 2 ^ d).testBit k = if k = d then true else m.testBit k := by
  have hr : m % 2 ^ d < 2 ^ d := Nat.mod_lt _ (Nat.two_pow_pos d)
  have h2 : m / 2 ^ d % 2 = 0 := by
    rw [Nat.testBit_eq_decide_div_mod_eq] at hm
    have := of_decide_eq_false hm
    omega
  have h3 : m = 2 ^ d * (m / 2 ^ d) + m % 2 ^ d := (Nat.div_add_mod _ _).symm
  have h4 : m + 2 ^ d = 2 ^ d * (m / 2 ^ d + 1) + m % 2 ^ d := by rw [Nat.mul_add]; omega
  rw [h4, Nat.testBit_two_pow_mul_add _ hr]
  conv => rhs; rw [h3, Nat.testBit_two_pow_mul_add _ hr]
  generalize m / 2 ^ d = q at *
  by_cases hk : k < d
  · simp [hk, Nat.ne_of_lt hk]
  · simp only [hk, if_false]
    by_cases e : k = d
    · subst e; simp [Nat.testBit_zero]; omega
    · rw [if_neg e]
      obtain ⟨j, hj⟩ : ∃ j, k - d = j + 1 := ⟨k - d - 1, by omega⟩
      rw [hj, Nat.testBit_succ, Nat.testBit_succ]
      congr 1; omega

/-- What a bit put leaves in each place. -/
theorem testBit_putBit (n d : Nat) (b : Bool) (k : Nat) : (putBit n d b).testBit k = if k = d then b else n.testBit k := by
  unfold putBit
  split
  · next h => simp only [beq_iff_eq] at h; split
              · next e => subst e; exact h
              · rfl
  · next h =>
    simp only [beq_iff_eq] at h
    cases b
    · have hn : n.testBit d = true := by simpa using h
      have hr : n % 2 ^ d < 2 ^ d := Nat.mod_lt _ (Nat.two_pow_pos d)
      have h2 : n / 2 ^ d % 2 = 1 := by
        rw [Nat.testBit_eq_decide_div_mod_eq] at hn; exact of_decide_eq_true hn
      have h3 : n = 2 ^ d * (n / 2 ^ d) + n % 2 ^ d := (Nat.div_add_mod _ _).symm
      have hle : 2 ^ d ≤ n := Nat.ge_two_pow_of_testBit hn
      have hm : (n - 2 ^ d).testBit d = false := by
        obtain ⟨q, hq⟩ : ∃ q, n / 2 ^ d = q + 1 := Nat.exists_eq_succ_of_ne_zero (by intro h; rw [h] at h2; simp at h2)
        rw [hq] at h2 h3
        have h4 : n - 2 ^ d = 2 ^ d * q + n % 2 ^ d := by
          rw [Nat.mul_add, Nat.mul_one] at h3; omega
        rw [h4, Nat.testBit_two_pow_mul_add _ hr]
        simp [Nat.testBit_zero]; omega
      have := testBit_add_pow (n - 2 ^ d) d hm k
      rw [Nat.sub_add_cancel hle] at this
      rw [this]
      by_cases e : k = d
      · subst e; simp [hm]
      · simp [e]
    · have hn : n.testBit d = false := by simpa using h
      exact testBit_add_pow n d hn k

end Sys2Proof.Machine
end

