-- ==== Sys2Proof/Laws/Changes.lean ====
section
/-! SUPPORT. Which parts of the state the operations leave as they were: the rules from which every frame is built. -/

namespace Sys2Proof.Machine

set_option Elab.async false

theorem stay {P : Prop} {α : Type} {a b c : α} (h : P ∨ c = b) (h' : P ∨ b = a) : P ∨ c = a := by
  rcases h with h | h
  · exact Or.inl h
  · exact h'.imp id (h.trans ·)

theorem Changes.refl (p : Part → Bool) (s : State) : Changes p s s := by
  constructor <;> first
    | rfl
    | exact Or.inr rfl
    | exact fun _ => Or.inr rfl
    | exact Or.inr ⟨rfl, rfl⟩
    | exact Or.inr ⟨rfl, rfl, rfl⟩
    | exact Or.inr ⟨rfl, rfl, rfl, rfl⟩

/-- A state that differs in no object. -/
theorem Changes.put {p : Part → Bool} {s0 s : State} (h : Changes p s0 s) {drawn boot mem sets roots pairs slots cmds seq arbs txa forge sdx rsv mdc tok bat pools dlv net fed dict pins evt ras trace tap removal}
    (hdrawn : p .drawn = true ∨ drawn = s.drawn := by first | exact Or.inl (by assumption) | exact Or.inr rfl)
    (hboot : p .boot = true ∨ boot = s.boot := by first | exact Or.inl (by assumption) | exact Or.inr rfl)
    (hsets : p .sets = true ∨ sets = s.sets := by first | exact Or.inl (by assumption) | exact Or.inr rfl)
    (hroots : p .roots = true ∨ roots = s.roots := by first | exact Or.inl (by assumption) | exact Or.inr rfl)
    (hpairs : p .pairs = true ∨ pairs = s.pairs := by first | exact Or.inl (by assumption) | exact Or.inr rfl)
    (hslots : p .slots = true ∨ slots = s.slots := by first | exact Or.inl (by assumption) | exact Or.inr rfl)
    (hcmds : p .cmds = true ∨ cmds = s.cmds := by first | exact Or.inl (by assumption) | exact Or.inr rfl)
    (hseq : p .seq = true ∨ seq = s.seq := by first | exact Or.inl (by assumption) | exact Or.inr rfl)
    (harbs : p .arbs = true ∨ arbs = s.arbs := by first | exact Or.inl (by assumption) | exact Or.inr rfl)
    (htxa : p .txa = true ∨ txa = s.txa := by first | exact Or.inl (by assumption) | exact Or.inr rfl)
    (hforge : p .forge = true ∨ forge = s.forge := by first | exact Or.inl (by assumption) | exact Or.inr rfl)
    (hsdx : p .sdx = true ∨ sdx = s.sdx := by first | exact Or.inl (by assumption) | exact Or.inr rfl)
    (hrsv : p .rsv = true ∨ rsv = s.rsv := by first | exact Or.inl (by assumption) | exact Or.inr rfl)
    (hmdc : p .mdc = true ∨ mdc = s.mdc := by first | exact Or.inl (by assumption) | exact Or.inr rfl)
    (htok : p .tok = true ∨ tok = s.tok := by first | exact Or.inl (by assumption) | exact Or.inr rfl)
    (hbat : p .bat = true ∨ bat = s.bat := by first | exact Or.inl (by assumption) | exact Or.inr rfl)
    (hpools : p .pools = true ∨ pools = s.pools := by first | exact Or.inl (by assumption) | exact Or.inr rfl)
    (hdlv : p .dlv = true ∨ dlv = s.dlv := by first | exact Or.inl (by assumption) | exact Or.inr rfl)
    (hnet : p .net = true ∨ net = s.net := by first | exact Or.inl (by assumption) | exact Or.inr rfl)
    (hfed : p .fed = true ∨ fed = s.fed := by first | exact Or.inl (by assumption) | exact Or.inr rfl)
    (hdict : p .dict = true ∨ dict = s.dict := by first | exact Or.inl (by assumption) | exact Or.inr rfl)
    (hpins : p .pins = true ∨ pins = s.pins := by first | exact Or.inl (by assumption) | exact Or.inr rfl)
    (hevt : p .evt = true ∨ evt = s.evt := by first | exact Or.inl (by assumption) | exact Or.inr rfl)
    (hras : p .ras = true ∨ ras = s.ras := by first | exact Or.inl (by assumption) | exact Or.inr rfl)
    (htrace : p .trace = true ∨ trace = s.trace := by first | exact Or.inl (by assumption) | exact Or.inr rfl)
    (htap : p .tap = true ∨ tap = s.tap := by first | exact Or.inl (by assumption) | exact Or.inr rfl)
    (hremoval : p .removal = true ∨ removal = s.removal := by first | exact Or.inl (by assumption) | exact Or.inr rfl)
    (hdevMem : p .devMem = true ∨ (mem.dev = s.mem.dev ∧ mem.devPoison = s.mem.devPoison ∧ mem.failing = s.mem.failing) := by first | exact Or.inl (by assumption) | exact Or.inr ⟨rfl, rfl, rfl⟩)
    (hstaging : p .staging = true ∨ (mem.txa = s.mem.txa ∧ mem.txaPoison = s.mem.txaPoison ∧ mem.pfg = s.mem.pfg ∧ mem.pfgPoison = s.mem.pfgPoison) := by first | exact Or.inl (by assumption) | exact Or.inr ⟨rfl, rfl, rfl, rfl⟩)
    (hscratchpad : p .scratchpad = true ∨ (mem.sp = s.mem.sp ∧ mem.spPoison = s.mem.spPoison) := by first | exact Or.inl (by assumption) | exact Or.inr ⟨rfl, rfl⟩)
    (hbanks : p .banks = true ∨ (mem.bank0 = s.mem.bank0 ∧ mem.bank1 = s.mem.bank1) := by first | exact Or.inl (by assumption) | exact Or.inr ⟨rfl, rfl⟩) :
    Changes p s0 (State.mk s.pending drawn boot s.objs mem sets roots pairs slots cmds seq arbs txa forge sdx rsv mdc tok bat pools dlv net fed dict pins evt ras trace tap removal) :=
  ⟨h.pending, (stay hdrawn h.drawn), (stay hboot h.boot), h.objs, (match hdevMem, h.devMem with | .inl e, _ => .inl e | _, .inl e => .inl e | .inr e, .inr e0 => .inr ⟨(e.1).trans (e0.1), (e.2.1).trans (e0.2.1), (e.2.2).trans (e0.2.2)⟩), (match hstaging, h.staging with | .inl e, _ => .inl e | _, .inl e => .inl e | .inr e, .inr e0 => .inr ⟨(e.1).trans (e0.1), (e.2.1).trans (e0.2.1), (e.2.2.1).trans (e0.2.2.1), (e.2.2.2).trans (e0.2.2.2)⟩), (match hscratchpad, h.scratchpad with | .inl e, _ => .inl e | _, .inl e => .inl e | .inr e, .inr e0 => .inr ⟨(e.1).trans (e0.1), (e.2).trans (e0.2)⟩), (match hbanks, h.banks with | .inl e, _ => .inl e | _, .inl e => .inl e | .inr e, .inr e0 => .inr ⟨(e.1).trans (e0.1), (e.2).trans (e0.2)⟩), (stay hsets h.sets), (stay hroots h.roots), (stay hpairs h.pairs), (stay hslots h.slots), (stay hcmds h.cmds), (stay hseq h.seq), (stay harbs h.arbs), (stay htxa h.txa), (stay hforge h.forge), (stay hsdx h.sdx), (stay hrsv h.rsv), (stay hmdc h.mdc), (stay htok h.tok), (stay hbat h.bat), (stay hpools h.pools), (stay hdlv h.dlv), (stay hnet h.net), (stay hfed h.fed), (stay hdict h.dict), (stay hpins h.pins), (stay hevt h.evt), (stay hras h.ras), (stay htrace h.trace), (stay htap h.tap), (stay hremoval h.removal)⟩

/-- An object that only counts takes a value. -/
theorem Changes.tally {p : Part → Bool} {s0 s : State} (h : Changes p s0 s) (i k v : Nat) (hp : p .tallies = true)
    (ht : Machine.tally (objKey i k / 256) (objKey i k % 256) = true := by decide) : Changes p s0 (objSet s i k v) := by
  refine { h with objs := fun j => ?_ }
  by_cases hj : j = objKey i k
  · left; rw [hj, keyPart, if_pos ht]; exact hp
  · exact stay (Or.inr (tblGet_tblSet_other _ _ _ _ _ _ hj)) (h.objs j)

/-- Another object takes a value. -/
theorem Changes.object {p : Part → Bool} {s0 s : State} (h : Changes p s0 s) (i k v : Nat) (hp : p .objects = true)
    (ht : Machine.tally (objKey i k / 256) (objKey i k % 256) = false := by decide) : Changes p s0 (objSet s i k v) := by
  refine { h with objs := fun j => ?_ }
  by_cases hj : j = objKey i k
  · left; rw [hj, keyPart, if_neg (by simp [ht])]; exact hp
  · exact stay (Or.inr (tblGet_tblSet_other _ _ _ _ _ _ hj)) (h.objs j)

/-- Some object takes a value. -/
theorem Changes.any {p : Part → Bool} {s0 s : State} (h : Changes p s0 s) (i k v : Nat) (hp : p .objects = true)
    (hp' : p .tallies = true) : Changes p s0 (objSet s i k v) := by
  by_cases ht : Machine.tally (objKey i k / 256) (objKey i k % 256) = true
  · exact h.tally i k v hp' ht
  · exact h.object i k v hp (by simpa using ht)

theorem bumpBy_tally {p : Part → Bool} {s0 s : State} (i k n : Nat) (h : Changes p s0 s) (hp : p .tallies = true)
    (ht : Machine.tally (objKey i k / 256) (objKey i k % 256) = true := by decide) :
    Changes p s0 (bumpBy s i k n) := h.tally _ _ _ hp ht
theorem bumpBy_object {p : Part → Bool} {s0 s : State} (i k n : Nat) (h : Changes p s0 s) (hp : p .objects = true)
    (ht : Machine.tally (objKey i k / 256) (objKey i k % 256) = false := by decide) :
    Changes p s0 (bumpBy s i k n) := h.object _ _ _ hp ht
theorem bumpBy_any {p : Part → Bool} {s0 s : State} (i k n : Nat) (h : Changes p s0 s) (hp : p .objects = true) (hp2 : p .tallies = true) :
    Changes p s0 (bumpBy s i k n) := h.any _ _ _ hp hp2
theorem bump_tally {p : Part → Bool} {s0 s : State} (i k : Nat) (h : Changes p s0 s) (hp : p .tallies = true)
    (ht : Machine.tally (objKey i k / 256) (objKey i k % 256) = true := by decide) :
    Changes p s0 (bump s i k) := h.tally _ _ _ hp ht
theorem bump_object {p : Part → Bool} {s0 s : State} (i k : Nat) (h : Changes p s0 s) (hp : p .objects = true)
    (ht : Machine.tally (objKey i k / 256) (objKey i k % 256) = false := by decide) :
    Changes p s0 (bump s i k) := h.object _ _ _ hp ht
theorem bump_any {p : Part → Bool} {s0 s : State} (i k : Nat) (h : Changes p s0 s) (hp : p .objects = true) (hp2 : p .tallies = true) :
    Changes p s0 (bump s i k) := h.any _ _ _ hp hp2

theorem Changes.foldl {α : Type} {p : Part → Bool} {s0 : State} (f : State → α → State) (l : List α)
    (hf : ∀ s x, Changes p s0 s → Changes p s0 (f s x)) {s : State} (h : Changes p s0 s) : Changes p s0 (l.foldl f s) := by
  induction l generalizing s with
  | nil => exact h
  | cons x l ih => exact ih (hf s x h)

theorem Changes.foldlFst {α β : Type} {p : Part → Bool} {s0 : State} (f : State × β → α → State × β) (l : List α)
    (hf : ∀ e x, Changes p s0 e.1 → Changes p s0 (f e x).1) {e : State × β} (h : Changes p s0 e.1) : Changes p s0 (l.foldl f e).1 := by
  induction l generalizing e with
  | nil => exact h
  | cons x l ih => exact ih (hf e x h)

theorem Changes.foldlSnd {α β : Type} {p : Part → Bool} {s0 : State} (f : β × State → α → β × State) (l : List α)
    (hf : ∀ e x, Changes p s0 e.2 → Changes p s0 (f e x).2) {e : β × State} (h : Changes p s0 e.2) : Changes p s0 (l.foldl f e).2 := by
  induction l generalizing e with
  | nil => exact h
  | cons x l ih => exact ih (hf e x h)

theorem Changes.fst {β : Type} {p : Part → Bool} {s0 t : State} {b : β} {q : State × β} (he : q = (t, b)) (h : Changes p s0 q.1) :
    Changes p s0 t := by
  rw [he] at h; exact h
theorem Changes.snd {β : Type} {p : Part → Bool} {s0 t : State} {b : β} {q : β × State} (he : q = (b, t)) (h : Changes p s0 q.2) :
    Changes p s0 t := by
  rw [he] at h; exact h

/-- The counters of R423 and their kind count. -/
theorem errInfo_tally (code : Nat) : (errInfo code).1 = 0 ∨ tally (objKey (errInfo code).1 (errInfo code).2.1 / 256)
    (objKey (errInfo code).1 (errInfo code).2.1 % 256) = true := by
  by_cases h : 0x1300 ≤ code ∨ 0x20 ≤ code % 256
  · left; simp [errInfo, h]
  · have hd : ∀ h, h < 0x13 → ∀ l, l < 0x20 → ((errInfo (256 * h + l)).1 == 0 || tally
        (objKey (errInfo (256 * h + l)).1 (errInfo (256 * h + l)).2.1 / 256)
        (objKey (errInfo (256 * h + l)).1 (errInfo (256 * h + l)).2.1 % 256)) = true := by decide +kernel
    have := hd (code / 256) (by omega) (code % 256) (by omega)
    rw [Nat.div_add_mod] at this
    simpa using this

theorem portCounters_tally (p k : Nat) (hk : k < 256) :
    tally (objKey (portCounters p) k / 256) (objKey (portCounters p) k % 256) = true := by
  have e : objKey (portCounters p) k / 256 = 0x3F00 + p % 2 := by unfold objKey portCounters; omega
  rw [e]
  rcases Nat.mod_two_eq_zero_or_one p with h | h <;> rw [h] <;> simp [tally]

end Sys2Proof.Machine
end

