-- ==== Sys2Proof/Laws/Seq.lean ====
section
/-! SUPPORT. What the fetch of a command does once its slot can fetch it. -/

namespace Sys2Proof.Machine

set_option Elab.async false

/-- A sound command of the right opcode has its effect. -/
theorem fetchAs_of {s : State} {n op : Nat} (h : Fetches s n op) (e : Nat → Nat → State → State) :
    fetchAs s n op e = e (fetchedWord s n) (slotOf s n).pc (takeCommand s n) := by
  obtain ⟨h1, h2, h3, h4⟩ := h
  simp [fetchAs, h1, h3, h4, Nat.not_le.mpr h2]

/-- A command that is not sound faults its slot. -/
theorem fetchAs_bad {s : State} {n op : Nat} (h1 : fetchTurn s n = true) (h2 : (slotOf s n).pc < 4096)
    (h3 : wOpcode (fetchedWord s n) = op) (h4 : badCommand (fetchedWord s n) = true) (e : Nat → Nat → State → State) :
    fetchAs s n op e = errFault (takeCommand s n) n 0x0F01 := by
  simp [fetchAs, h1, h3, h4, Nat.not_le.mpr h2]

/-- The sequencer grants its fetch to a slot (R25, R315). -/
def fetchGranted (s : State) (n : Nat) : State := bump (arbGrant s unitSeq n (fetchReady s)) 0x80F0 0x0E

theorem takeCommand_eq (s : State) (n : Nat) :
    takeCommand s n = setSlot (fetchGranted s n) n { slotOf s n with pc := (slotOf s n).pc + 1, fetched := true } := rfl

@[simp] theorem slotOf_takeCommand (s : State) (n : Nat) :
    slotOf (takeCommand s n) n = { slotOf s n with pc := (slotOf s n).pc + 1, fetched := true } := by
  rw [takeCommand_eq, slotOf_setSlot_self]

/-- A change of the slot that has just fetched. -/
theorem modSlot_takeCommand (s : State) (n : Nat) (f : Slot → Slot) :
    modSlot (takeCommand s n) n f = setSlot (fetchGranted s n) n (f { slotOf s n with pc := (slotOf s n).pc + 1, fetched := true }) := by
  rw [modSlot, slotOf_takeCommand, takeCommand_eq, setSlot_setSlot]

/-- A fetched command enters its queue. -/
theorem enqueueAs_of {s : State} {n op : Nat} (h : Fetches s n op) (f : Nat → Bool) (hf : f (fetchedWord s n) = true) :
    enqueueAs s n op f = askNext (entered s n) n (wQueue (fetchedWord s n)) := by
  obtain ⟨h1, h2, h3, h4⟩ := h
  have h2' : ¬ 4096 ≤ (slotOf s n).pc := by omega
  simp only [enqueueAs, h1, h3, h4, hf, h2', Bool.not_true, Bool.false_eq_true, bne_self_eq_false, if_false, decide_false,
    Bool.or_self]
  rfl

/-! ## Turns -/

theorem arbPickBy_mem (s : State) (unit : Nat) (u : Nat → Nat) (l : List Nat) {n : Nat} (h : arbPickBy s unit u l = some n) : n ∈ l := by
  have key : ∀ (l : List Nat) (b : Option Nat), l.foldl (fun best n =>
      match best with
      | none => some n
      | some b => if u n < u b || (u n == u b && arbDistance s unit n < arbDistance s unit b) then some n else some b) b = some n →
      b = some n ∨ n ∈ l := by
    intro l
    induction l with
    | nil => exact fun b h => Or.inl h
    | cons a l ih =>
      intro b h
      rcases ih _ h with h | h
      · cases b with
        | none => exact Or.inr (by simp_all)
        | some b =>
          dsimp only at h
          split at h
          · exact Or.inr (by simp_all)
          · exact Or.inl h
      · exact Or.inr (List.mem_cons_of_mem _ h)
  exact (key l none h).resolve_left (by simp)

/-- A slot whose turn it is can fetch, and does not stall. -/
theorem fetchTurn_ready {s : State} {n : Nat} (h : fetchTurn s n = true) : canFetch s n = true ∧ stalls s n = false ∧ n < 64 := by
  have := arbPickBy_mem _ _ _ _ (by simpa [fetchTurn, arbPick] using h)
  simp only [fetchReady, slotNumbers, List.mem_filter, List.mem_range, Bool.and_eq_true, Bool.not_eq_true'] at this
  exact ⟨this.2.1, this.2.2, this.1⟩

/-- With its queue full, or its share taken, a slot stalls: it has no turn, and nothing is fetched. -/
theorem enqueueAs_full {s : State} {n : Nat} (op : Nat) (f : Nat → Bool) (h : stalls s n = true) : enqueueAs s n op f = s := by
  have : fetchTurn s n = false := by
    cases hf : fetchTurn s n with
    | false => rfl
    | true => simp [(fetchTurn_ready hf).2.1] at h
  simp [enqueueAs, this]

end Sys2Proof.Machine
end

