-- ==== Sys2Proof/Laws/Dict.lean ====
section
/-! SUPPORT. What a dictionary write does once its requester may ask: it takes effect, aborts, or is discarded. -/

namespace Sys2Proof.Machine

set_option Elab.async false

/-- What a write's request leaves as it was blocks objects as before. -/
theorem idleBlock_congr {s t : State} (h : t.sdx = s.sdx ∧ t.mdc = s.mdc ∧ t.dict.long = s.dict.long ∧ t.pools = s.pools ∧ t.slots = s.slots
    ∧ t.net = s.net ∧ t.mem = s.mem ∧ t.cmds = s.cmds) (ho : ∀ i j, j < 256 → i ≠ 0x8100 → objGet t i j = objGet s i j)
    (index sub : Nat) : idleBlock t index sub = idleBlock s index sub := by
  obtain ⟨h1, h2, h3, h4, h5, h6, h7, h8⟩ := h
  by_cases hi : index = 0x8100
  · subst hi; rfl
  · have e (j : Nat) (hj : j < 256 := by decide) : objGet t index j = objGet s index j := ho index j hj hi
    unfold idleBlock queueCount
    simp only [h1, h2, h3, h5, h6, h8, e 2, e 3, e 4, ho 0x6801 _ (by decide : 4 < 256) (by decide),
      ho 0x2050 _ (by decide : 1 < 256) (by decide), ho 0xA000 _ (by decide : 1 < 256) (by decide), poolOf, h4, memNat, h7]
    rfl

theorem objGet_count (s : State) (k i j : Nat) (hj : j < 256) (hi : i ≠ 0x8100) : objGet (bumpBy s 0x8100 1 k) i j = objGet s i j :=
  objGet_objSet_ne _ _ _ _ _ _ (by unfold objKey; omega)

theorem setMailbox_xfer (s : State) (m j : Nat) (x : Mailbox) (h : x.xfer = (mailboxOf s m).xfer) :
    (mailboxOf (setMailbox s m x) j).xfer = (mailboxOf s j).xfer := by
  simp only [mailboxOf, setMailbox, tblGet_tblSet]
  split
  · next hj => rw [hj]; exact h
  · rfl

/-- What a write's request changes before its effect: its mailbox, which stays in the transfer it is in, and the count of requests. -/
theorem startWrite_frame (s : State) (via : Via) (index sub : Nat) (data : List Byte) :
    let t := startWrite s via index sub data
    (t.boot = s.boot ∧ t.fed = s.fed ∧ t.sdx = s.sdx ∧ t.mdc = s.mdc ∧ t.dict.long = s.dict.long ∧ t.pools = s.pools ∧ t.slots = s.slots
      ∧ t.net = s.net ∧ t.mem = s.mem ∧ t.cmds = s.cmds)
    ∧ (∀ i j, j < 256 → i ≠ 0x8100 → objGet t i j = objGet s i j) ∧ ∀ j, (mailboxOf t j).xfer = (mailboxOf s j).xfer := by
  cases via with
  | mailbox m =>
    intro t
    by_cases h : data.length ≤ 8
    · have e : t = setMailbox s m { mailboxOf s m with busy := true, nextBytes := data.length, nextLast := false } := if_pos h
      rw [e]
      exact ⟨⟨rfl, rfl, rfl, rfl, rfl, rfl, rfl, rfl, rfl, rfl⟩, fun _ _ _ _ => rfl, fun j => setMailbox_xfer s m j _ rfl⟩
    · have e : t = _ := if_neg h
      rw [e]
      exact ⟨⟨rfl, rfl, rfl, rfl, rfl, rfl, rfl, rfl, rfl, rfl⟩, fun i j hj hi => objGet_count s _ i j hj hi,
        fun j => setMailbox_xfer (bumpBy s 0x8100 1 _) m j _ rfl⟩
  | window _ => exact ⟨⟨rfl, rfl, rfl, rfl, rfl, rfl, rfl, rfl, rfl, rfl⟩, fun _ _ _ _ => rfl, fun _ => rfl⟩
  | remote _ => exact ⟨⟨rfl, rfl, rfl, rfl, rfl, rfl, rfl, rfl, rfl, rfl⟩, fun _ _ _ _ => rfl, fun _ => rfl⟩
  | link => exact ⟨⟨rfl, rfl, rfl, rfl, rfl, rfl, rfl, rfl, rfl, rfl⟩, fun _ _ _ _ => rfl, fun _ => rfl⟩

/-- A write's request changes no verdict. -/
theorem writeVerdict_startWrite (s : State) (via w : Via) (index sub i j : Nat) (data d : List Byte) :
    writeVerdict (startWrite s via index sub data) w i j d = writeVerdict s w i j d := by
  obtain ⟨⟨h1, h2, h3, h4, h5, h6, h7, h8, h9, h10⟩, ho, hx⟩ := startWrite_frame s via index sub data
  have hi := idleBlock_congr ⟨h3, h4, h5, h6, h7, h8, h9, h10⟩ ho i j
  unfold writeVerdict verdictBy
  simp only [hi, dictReady, headCountClosed, noIndex, dieAdmitted, indexHolder, reach, dieId, h1, h2, h5, hx]
  rfl

/-- A write of a requester whose write is looked at and that passes every check arrives as its transfer's last request. -/
theorem requestWrite_takes {s : State} {via : Via} {index sub : Nat} {data : List Byte} (h : Takes s via index sub data) (e : WriteEffect) :
    requestWrite e via index sub data s = e via index sub data (arriving s via index sub data) := by
  obtain ⟨⟨h1, h2⟩, h3, h4⟩ := h
  have hv := (writeVerdict_startWrite s via via index sub index sub data data).trans h3
  have hd : dictWriteWith e via index sub data (startWrite s via index sub data) = e via index sub data (arriving s via index sub data) := by
    simp only [dictWriteWith, hv, arriving]
  cases via with
  | mailbox m =>
    obtain ⟨h5, h6⟩ := h2 m rfl
    simp only [requestWrite, h1, h3, h5, h6, hd, Bool.not_true, Bool.false_eq_true, if_false, Option.isSome_none]
  | window c => simp only [requestWrite, h1, h4 c rfl, if_true, Bool.not_true, Bool.false_eq_true, if_false]; exact hd
  | remote _ => simp only [requestWrite, h1, Bool.not_true, Bool.false_eq_true, if_false]; exact hd
  | link => simp only [requestWrite, h1, Bool.not_true, Bool.false_eq_true, if_false]; exact hd

/-- A write that fails a check aborts with its code. -/
theorem requestWrite_aborts {s : State} {via : Via} {index sub c : Nat} {data : List Byte} (h : MayAsk s via)
    (hv : writeVerdict s via index sub data = .abort c) (hw : ∀ k, via = .window k → data.length ≤ 8) (e : WriteEffect) :
    requestWrite e via index sub data s = dictAbort (asking s via data.length) via c := by
  obtain ⟨h1, h2⟩ := h
  cases via with
  | mailbox m =>
    obtain ⟨h5, h6⟩ := h2 m rfl
    simp only [requestWrite, h1, hv, h5, h6, Bool.not_true, Bool.false_eq_true, if_false, Option.isSome_none]
  | window k => simp only [requestWrite, h1, hw k rfl, if_true, Bool.not_true, Bool.false_eq_true, if_false, dictWriteWith, hv, asking]
  | remote _ => simp only [requestWrite, h1, Bool.not_true, Bool.false_eq_true, if_false, dictWriteWith, hv, asking]
  | link => simp only [requestWrite, h1, Bool.not_true, Bool.false_eq_true, if_false, dictWriteWith, hv, asking]

/-- A write of a subindex no table lists completes with no effect. -/
theorem requestWrite_discards {s : State} {via : Via} {index sub : Nat} {data : List Byte} (h : MayAsk s via)
    (hv : writeVerdict s via index sub data = .discard) (hw : ∀ k, via = .window k → data.length ≤ 8) (e : WriteEffect) :
    requestWrite e via index sub data s = dictDone (startWrite s via index sub data) via := by
  obtain ⟨h1, h2⟩ := h
  have hd : dictWriteWith e via index sub data (startWrite s via index sub data) = dictDone (startWrite s via index sub data) via := by
    simp only [dictWriteWith, (writeVerdict_startWrite s via via index sub index sub data data).trans hv]
  cases via with
  | mailbox m =>
    obtain ⟨h5, h6⟩ := h2 m rfl
    simp only [requestWrite, h1, hv, h5, h6, hd, Bool.not_true, Bool.false_eq_true, if_false, Option.isSome_none]
  | window k => simp only [requestWrite, h1, hw k rfl, if_true, Bool.not_true, Bool.false_eq_true, if_false]; exact hd
  | remote _ => simp only [requestWrite, h1, Bool.not_true, Bool.false_eq_true, if_false]; exact hd
  | link => simp only [requestWrite, h1, Bool.not_true, Bool.false_eq_true, if_false]; exact hd

/-- A write that passes every check is one of an object listed, with a value its type and range hold. -/
theorem writeVerdict_go {s : State} {via : Via} {index sub : Nat} {data : List Byte} (h : writeVerdict s via index sub data = .go) :
    ∃ r, objRow index sub = some r ∧ valueAbort r index sub data = none := by
  unfold writeVerdict verdictBy at h
  dsimp only at h
  repeat' (split at h <;> try cases h)
  exact ⟨_, by assumption, by assumption⟩

end Sys2Proof.Machine
end

