-- ==== Sys2Proof/Laws/FramesShared.lean ====
section
/-! SUPPORT. Which parts of the state the shared operations leave as they were. -/

set_option linter.unusedTactic false
set_option linter.unreachableTactic false
set_option linter.unusedVariables false

namespace Sys2Proof.Machine

set_option Elab.async false

/-! ## Ops -/

theorem memWrite_changes {pt : Part → Bool} {s0 : State} (s : State) (a : Nat) (bs : List Byte) (hK : Changes pt s0 s)
    (h_devMem : pt .devMem = true) : Changes pt s0 (memWrite s a bs) := by
  unfold memWrite
  repeat' (with_reducible first | assumption | refine Changes.put ?_)

theorem txaWrite_changes {pt : Part → Bool} {s0 : State} (s : State) (a : Nat) (bs : List Byte) (hK : Changes pt s0 s)
    (h_staging : pt .staging = true) : Changes pt s0 (txaWrite s a bs) := by
  unfold txaWrite
  repeat' (with_reducible first | assumption | refine Changes.put ?_)

theorem pfgWrite_changes {pt : Part → Bool} {s0 : State} (s : State) (a : Nat) (bs : List Byte) (hK : Changes pt s0 s)
    (h_staging : pt .staging = true) : Changes pt s0 (pfgWrite s a bs) := by
  unfold pfgWrite
  repeat' (with_reducible first | assumption | refine Changes.put ?_)

theorem poisonWritten_changes {pt : Part → Bool} {s0 : State} (s : State) (n : Nat) (hK : Changes pt s0 s)
    (h_tallies : pt .tallies = true) : Changes pt s0 (poisonWritten s n) := by
  unfold poisonWritten
  repeat' (with_reducible first
      | assumption | refine bump_tally _ _ ?_ (by assumption) (by decide) | refine bump_object _ _ ?_ (by assumption) (by decide)
      | refine bump_any _ _ ?_ (by assumption) (by assumption) | refine bumpBy_tally _ _ _ ?_ (by assumption) (by decide)
      | refine bumpBy_object _ _ _ ?_ (by assumption) (by decide) | refine bumpBy_any _ _ _ ?_ (by assumption) (by assumption)
      | refine Changes.tally ?_ _ _ _ (by assumption) (by decide) | refine Changes.object ?_ _ _ _ (by assumption) (by decide)
      | refine Changes.any ?_ _ _ _ (by assumption) (by assumption) | intro _)

theorem memWritePoisoned_changes {pt : Part → Bool} {s0 : State} (s : State) (a : Nat) (bs : List Byte) (hK : Changes pt s0 s)
    (h_tallies : pt .tallies = true) (h_devMem : pt .devMem = true) : Changes pt s0 (memWritePoisoned s a bs) := by
  unfold memWritePoisoned
  repeat' (with_reducible first | assumption | apply poisonWritten_changes | intro _ | refine Changes.put ?_)

theorem txaMark_changes {pt : Part → Bool} {s0 : State} (s : State) (gs : List Nat) (hK : Changes pt s0 s)
    (h_tallies : pt .tallies = true) (h_staging : pt .staging = true) : Changes pt s0 (txaMark s gs) := by
  unfold txaMark
  repeat' (with_reducible first | assumption | apply poisonWritten_changes | intro _ | refine Changes.put ?_)

theorem txaWritePoisoned_changes {pt : Part → Bool} {s0 : State} (s : State) (a : Nat) (bs : List Byte) (hK : Changes pt s0 s)
    (h_tallies : pt .tallies = true) (h_staging : pt .staging = true) : Changes pt s0 (txaWritePoisoned s a bs) := by
  unfold txaWritePoisoned
  repeat' (with_reducible first | assumption | apply txaMark_changes | intro _ | refine Changes.put ?_)

theorem pfgWritePoisoned_changes {pt : Part → Bool} {s0 : State} (s : State) (a : Nat) (bs : List Byte) (hK : Changes pt s0 s)
    (h_tallies : pt .tallies = true) (h_staging : pt .staging = true) : Changes pt s0 (pfgWritePoisoned s a bs) := by
  unfold pfgWritePoisoned
  repeat' (with_reducible first | assumption | apply poisonWritten_changes | intro _ | refine Changes.put ?_)

theorem spWrite_changes {pt : Part → Bool} {s0 : State} (s : State) (addr : Nat) (data : List (Nat × Byte)) (poison : Bool)
    (hK : Changes pt s0 s) (h_tallies : pt .tallies = true) (h_scratchpad : pt .scratchpad = true) : Changes pt s0
    (spWrite s addr data poison) := by
  unfold spWrite
  repeat' (with_reducible first
      | assumption | apply poisonWritten_changes | intro _ | extract_lets | split | dsimp +zetaDelta only | refine Changes.put ?_)

theorem drawFree_changes {pt : Part → Bool} {s0 : State} (s : State) (bound : Nat) (hK : Changes pt s0 s)
    (h_drawn : pt .drawn = true) : Changes pt s0 (drawFree s bound).2 := by
  unfold drawFree
  repeat' (with_reducible first | assumption | refine Changes.put ?_)

theorem reserveFree_changes {pt : Part → Bool} {s0 : State} (s : State) (n : Nat) (hK : Changes pt s0 s)
    (h_drawn : pt .drawn = true) : Changes pt s0 (reserveFree s n).2 := by
  unfold reserveFree
  repeat' (with_reducible first | assumption | refine Changes.put ?_)

theorem setSlot_changes {pt : Part → Bool} {s0 : State} (s : State) (n : Nat) (x : Slot) (hK : Changes pt s0 s)
    (h_slots : pt .slots = true) : Changes pt s0 (setSlot s n x) := by
  unfold setSlot
  repeat' (with_reducible first | assumption | refine Changes.put ?_)

theorem modSlot_changes {pt : Part → Bool} {s0 : State} (s : State) (n : Nat) (f : Slot → Slot) (hK : Changes pt s0 s)
    (h_slots : pt .slots = true) : Changes pt s0 (modSlot s n f) := by
  unfold modSlot
  repeat' (with_reducible first | assumption | apply setSlot_changes | intro _)

theorem setPair_changes {pt : Part → Bool} {s0 : State} (s : State) (p : Nat) (x : Pair) (hK : Changes pt s0 s)
    (h_pairs : pt .pairs = true) : Changes pt s0 (setPair s p x) := by
  unfold setPair
  repeat' (with_reducible first | assumption | refine Changes.put ?_)

theorem send_changes {pt : Part → Bool} {s0 : State} (s : State) (m : D2d) (hK : Changes pt s0 s)
    (h_fed : pt .fed = true) : Changes pt s0 (send s m) := by
  unfold send
  repeat' (with_reducible first | assumption | refine Changes.put ?_)

theorem traceRec_changes {pt : Part → Bool} {s0 : State} (s : State) (kind unit slot code data1 data0 : Nat) (hK : Changes pt s0 s)
    (h_tallies : pt .tallies = true) (h_trace : pt .trace = true) : Changes pt s0 (traceRec s kind unit slot code data1 data0) := by
  unfold traceRec
  repeat' (with_reducible first
      | assumption | refine bump_tally _ _ ?_ (by assumption) (by decide) | refine bump_object _ _ ?_ (by assumption) (by decide)
      | refine bump_any _ _ ?_ (by assumption) (by assumption) | refine bumpBy_tally _ _ _ ?_ (by assumption) (by decide)
      | refine bumpBy_object _ _ _ ?_ (by assumption) (by decide) | refine bumpBy_any _ _ _ ?_ (by assumption) (by assumption)
      | refine Changes.tally ?_ _ _ _ (by assumption) (by decide) | refine Changes.object ?_ _ _ _ (by assumption) (by decide)
      | refine Changes.any ?_ _ _ _ (by assumption) (by assumption) | intro _ | extract_lets | split | dsimp +zetaDelta only
      | refine Changes.put ?_)

theorem setSrc_changes {pt : Part → Bool} {s0 : State} (s : State) (n : Nat) (x : Src) (hK : Changes pt s0 s)
    (h_evt : pt .evt = true) : Changes pt s0 (setSrc s n x) := by
  unfold setSrc
  repeat' (with_reducible first | assumption | refine Changes.put ?_)

theorem setGrp_changes {pt : Part → Bool} {s0 : State} (s : State) (g : Nat) (x : Grp) (hK : Changes pt s0 s)
    (h_evt : pt .evt = true) : Changes pt s0 (setGrp s g x) := by
  unfold setGrp
  repeat' (with_reducible first | assumption | refine Changes.put ?_)

theorem setCore_changes {pt : Part → Bool} {s0 : State} (s : State) (c : Nat) (x : Core) (hK : Changes pt s0 s)
    (h_evt : pt .evt = true) : Changes pt s0 (setCore s c x) := by
  unfold setCore
  repeat' (with_reducible first | assumption | refine Changes.put ?_)

theorem wakeUp_changes {pt : Part → Bool} {s0 : State} (s : State) (c : Nat) (hK : Changes pt s0 s) (h_tallies : pt .tallies = true)
    (h_evt : pt .evt = true) : Changes pt s0 (wakeUp s c) := by
  unfold wakeUp
  repeat' (with_reducible first
      | assumption | refine bump_tally _ _ ?_ (by assumption) (by decide) | refine bump_object _ _ ?_ (by assumption) (by decide)
      | refine bump_any _ _ ?_ (by assumption) (by assumption) | refine bumpBy_tally _ _ _ ?_ (by assumption) (by decide)
      | refine bumpBy_object _ _ _ ?_ (by assumption) (by decide) | refine bumpBy_any _ _ _ ?_ (by assumption) (by assumption)
      | apply setCore_changes | refine Changes.tally ?_ _ _ _ (by assumption) (by decide)
      | refine Changes.object ?_ _ _ _ (by assumption) (by decide) | refine Changes.any ?_ _ _ _ (by assumption) (by assumption)
      | intro _ | extract_lets | split | dsimp +zetaDelta only | refine Changes.put ?_)

theorem setPending_changes {pt : Part → Bool} {s0 : State} (s : State) (n : Nat) (hK : Changes pt s0 s) (h_tallies : pt .tallies = true)
    (h_evt : pt .evt = true) : Changes pt s0 (setPending s n) := by
  unfold setPending
  repeat' (with_reducible first
      | assumption | apply wakeUp_changes | apply setSrc_changes | intro _ | extract_lets | split | dsimp +zetaDelta only
      | refine Changes.put ?_)

theorem routeAll_changes {pt : Part → Bool} {s0 : State} (s : State) (due : List Nat) (hK : Changes pt s0 s)
    (h_tallies : pt .tallies = true) (h_evt : pt .evt = true) : Changes pt s0 (routeAll s due) := by
  unfold routeAll
  repeat' (with_reducible first
      | assumption | apply setPending_changes | apply Changes.foldl | apply Changes.foldlFst | apply Changes.foldlSnd | intro _)

theorem endHoldoff_changes {pt : Part → Bool} {s0 : State} (s : State) (g : Nat) (hK : Changes pt s0 s)
    (h_evt : pt .evt = true) : Changes pt s0 (endHoldoff s g) := by
  unfold endHoldoff
  repeat' (with_reducible first
      | assumption | apply setGrp_changes | apply setSrc_changes | apply Changes.foldl | apply Changes.foldlFst
      | apply Changes.foldlSnd | intro _ | refine Changes.put ?_)

theorem releaseGroup_changes {pt : Part → Bool} {s0 : State} (s : State) (g : Nat) (hK : Changes pt s0 s)
    (h_tallies : pt .tallies = true) (h_evt : pt .evt = true) : Changes pt s0 (releaseGroup s g) := by
  unfold releaseGroup
  repeat' (with_reducible first | assumption | apply endHoldoff_changes | apply routeAll_changes | intro _)

theorem cutShortWith_changes {pt : Part → Bool} {s0 : State} (s : State) (due : List Nat) (hK : Changes pt s0 s)
    (h_tallies : pt .tallies = true) (h_evt : pt .evt = true) : Changes pt s0 (cutShortWith s due) := by
  unfold cutShortWith
  repeat' (with_reducible first
      | assumption | refine bump_tally _ _ ?_ (by assumption) (by decide) | refine bump_object _ _ ?_ (by assumption) (by decide)
      | refine bump_any _ _ ?_ (by assumption) (by assumption) | refine bumpBy_tally _ _ _ ?_ (by assumption) (by decide)
      | refine bumpBy_object _ _ _ ?_ (by assumption) (by decide) | refine bumpBy_any _ _ _ ?_ (by assumption) (by assumption)
      | apply endHoldoff_changes | apply routeAll_changes | apply wakeUp_changes
      | refine Changes.tally ?_ _ _ _ (by assumption) (by decide) | refine Changes.object ?_ _ _ _ (by assumption) (by decide)
      | refine Changes.any ?_ _ _ _ (by assumption) (by assumption) | apply Changes.foldl | apply Changes.foldlFst
      | apply Changes.foldlSnd | intro _ | extract_lets | dsimp +zetaDelta only)

theorem cutShort_changes {pt : Part → Bool} {s0 : State} (s : State) (hK : Changes pt s0 s) (h_tallies : pt .tallies = true)
    (h_evt : pt .evt = true) : Changes pt s0 (cutShort s) := by
  unfold cutShort
  repeat' (with_reducible first | assumption | apply cutShortWith_changes | intro _)

theorem holdFiring_changes {pt : Part → Bool} {s0 : State} (s : State) (n : Nat) (hK : Changes pt s0 s)
    (h_evt : pt .evt = true) : Changes pt s0 (holdFiring s n) := by
  unfold holdFiring
  repeat' (with_reducible first
      | assumption | apply setGrp_changes | apply setSrc_changes | intro _ | extract_lets | split | dsimp +zetaDelta only
      | refine Changes.put ?_)

theorem latchFiring_changes {pt : Part → Bool} {s0 : State} (s : State) (n code : Nat) (hK : Changes pt s0 s)
    (h_evt : pt .evt = true) : Changes pt s0 (latchFiring s n code) := by
  unfold latchFiring
  repeat' (with_reducible first
      | assumption | apply holdFiring_changes | apply setSrc_changes | intro _ | extract_lets | split | dsimp +zetaDelta only
      | refine Changes.put ?_)

theorem fireAll_changes {pt : Part → Bool} {s0 : State} (s : State) (ns : List Nat) (code : Nat) (hK : Changes pt s0 s)
    (h_tallies : pt .tallies = true) (h_evt : pt .evt = true) : Changes pt s0 (fireAll s ns code) := by
  unfold fireAll
  repeat' (with_reducible first
      | assumption | apply latchFiring_changes | apply endHoldoff_changes | apply routeAll_changes | apply Changes.foldl
      | apply Changes.foldlFst | apply Changes.foldlSnd | intro _ | extract_lets | dsimp +zetaDelta only)

theorem fire_changes {pt : Part → Bool} {s0 : State} (s : State) (n code : Nat) (hK : Changes pt s0 s) (h_tallies : pt .tallies = true)
    (h_evt : pt .evt = true) : Changes pt s0 (fire s n code) := by
  unfold fire
  repeat' (with_reducible first | assumption | apply fireAll_changes | intro _)

theorem countErr_changes {pt : Part → Bool} {s0 : State} (s : State) (code slot : Nat) (hK : Changes pt s0 s)
    (h_tallies : pt .tallies = true) (h_trace : pt .trace = true) :
    Changes pt s0 (countErr s code slot) := by
  unfold countErr
  refine traceRec_changes _ _ _ _ _ _ _ ?_ h_tallies h_trace
  have h1 : Changes pt s0 (if (errInfo code).1 = 0 then s else bump s (errInfo code).1 (errInfo code).2.1) := by
    split
    · exact hK
    · next h => exact bump_tally _ _ hK h_tallies ((errInfo_tally code).resolve_left h)
  split
  · exact Changes.tally h1 _ _ _ h_tallies (by decide)
  · exact h1

theorem raiseErr_changes {pt : Part → Bool} {s0 : State} (s : State) (code slot : Nat) (hK : Changes pt s0 s)
    (h_tallies : pt .tallies = true) (h_evt : pt .evt = true) (h_trace : pt .trace = true) : Changes pt s0 (raiseErr s code slot) := by
  unfold raiseErr
  repeat' (with_reducible first
      | assumption | apply countErr_changes | apply fire_changes | intro _ | extract_lets | split | dsimp +zetaDelta only)

theorem raiseErrOn_changes {pt : Part → Bool} {s0 : State} (s : State) (code slot src : Nat) (hK : Changes pt s0 s)
    (h_tallies : pt .tallies = true) (h_evt : pt .evt = true) (h_trace : pt .trace = true) : Changes pt s0
    (raiseErrOn s code slot src) := by
  unfold raiseErrOn
  repeat' (with_reducible first | assumption | apply countErr_changes | apply fire_changes | intro _)

theorem lastBad_changes {pt : Part → Bool} {s0 : State} (s : State) (kind addr : Nat) (hK : Changes pt s0 s)
    (h_tallies : pt .tallies = true) : Changes pt s0 (lastBad s kind addr) := by
  unfold lastBad
  repeat' (with_reducible first
      | assumption | refine Changes.tally ?_ _ _ _ (by assumption) (by decide)
      | refine Changes.object ?_ _ _ _ (by assumption) (by decide) | refine Changes.any ?_ _ _ _ (by assumption) (by assumption)
      | intro _)

theorem otherSramAddr_changes {pt : Part → Bool} {s0 : State} (s : State) (hK : Changes pt s0 s)
    (h_drawn : pt .drawn = true) : Changes pt s0 (otherSramAddr s).2 := by
  unfold otherSramAddr
  repeat' (with_reducible first
      | assumption | apply drawFree_changes | refine Changes.fst ‹_› ?_ | refine Changes.snd ‹_› ?_ | intro _ | extract_lets | split
      | dsimp +zetaDelta only)

theorem lastBadOther_changes {pt : Part → Bool} {s0 : State} (s : State) (hK : Changes pt s0 s) (h_drawn : pt .drawn = true)
    (h_tallies : pt .tallies = true) : Changes pt s0 (lastBadOther s) := by
  unfold lastBadOther
  repeat' (with_reducible first
      | assumption | apply otherSramAddr_changes | refine Changes.tally ?_ _ _ _ (by assumption) (by decide)
      | refine Changes.object ?_ _ _ _ (by assumption) (by decide) | refine Changes.any ?_ _ _ _ (by assumption) (by assumption)
      | refine Changes.fst ‹_› ?_ | refine Changes.snd ‹_› ?_ | intro _ | extract_lets | split | dsimp +zetaDelta only)

theorem memError_changes {pt : Part → Bool} {s0 : State} (s : State) (slot addr : Nat) (hK : Changes pt s0 s)
    (h_tallies : pt .tallies = true) (h_evt : pt .evt = true) (h_trace : pt .trace = true) : Changes pt s0 (memError s slot addr) := by
  unfold memError
  repeat' (with_reducible first | assumption | apply lastBad_changes | apply raiseErr_changes | intro _)

theorem readChecked_changes {pt : Part → Bool} {s0 : State} (s : State) (slot a n : Nat) (hK : Changes pt s0 s)
    (h_tallies : pt .tallies = true) (h_evt : pt .evt = true) (h_trace : pt .trace = true) : Changes pt s0
    (readChecked s slot a n) := by
  unfold readChecked
  repeat' (with_reducible first | assumption | apply memError_changes | intro _ | split)

theorem readMem_changes {pt : Part → Bool} {s0 : State} (s : State) (slot a n : Nat) (hK : Changes pt s0 s) (h_drawn : pt .drawn = true)
    (h_tallies : pt .tallies = true) (h_evt : pt .evt = true) (h_trace : pt .trace = true) : Changes pt s0 (readMem s slot a n).2 := by
  unfold readMem
  repeat' (with_reducible first
      | assumption | apply readChecked_changes | apply reserveFree_changes | refine Changes.fst ‹_› ?_ | refine Changes.snd ‹_› ?_
      | intro _ | extract_lets | split | dsimp +zetaDelta only)

theorem sramFault_changes {pt : Part → Bool} {s0 : State} (s : State) (kind off slot : Nat) (hK : Changes pt s0 s)
    (h_tallies : pt .tallies = true) (h_staging : pt .staging = true) (h_txa : pt .txa = true) (h_evt : pt .evt = true)
    (h_ras : pt .ras = true) (h_trace : pt .trace = true) : Changes pt s0 (sramFault s kind off slot) := by
  unfold sramFault
  repeat' (with_reducible first
      | assumption | apply lastBad_changes | apply raiseErr_changes | intro _ | extract_lets | split | dsimp +zetaDelta only
      | refine Changes.put ?_)

theorem sramReads_changes {pt : Part → Bool} {s0 : State} (s : State) (kind slot : Nat) (r : SramReads) (hK : Changes pt s0 s)
    (h_tallies : pt .tallies = true) (h_staging : pt .staging = true) (h_txa : pt .txa = true) (h_evt : pt .evt = true)
    (h_ras : pt .ras = true) (h_trace : pt .trace = true) : Changes pt s0 (sramReads s kind slot r) := by
  unfold sramReads
  repeat' (with_reducible first
      | assumption | apply sramFault_changes | apply raiseErr_changes | apply Changes.foldl | apply Changes.foldlFst
      | apply Changes.foldlSnd | intro _ | extract_lets | dsimp +zetaDelta only)

theorem release_changes {pt : Part → Bool} {s0 : State} (s : State) (holder : Nat) (hK : Changes pt s0 s)
    (h_dict : pt .dict = true) : Changes pt s0 (release s holder) := by
  unfold release
  repeat' (with_reducible first | assumption | refine Changes.put ?_)

theorem claim_changes {pt : Part → Bool} {s0 : State} (s : State) (holder : Nat) (rs : List Res) (hK : Changes pt s0 s)
    (h_dict : pt .dict = true) : Changes pt s0 (claim s holder rs) := by
  unfold claim
  repeat' (with_reducible first
      | assumption | apply release_changes | intro _ | extract_lets | dsimp +zetaDelta only | refine Changes.put ?_)

theorem pulse_changes {pt : Part → Bool} {s0 : State} (s : State) (sub : Nat) (hK : Changes pt s0 s)
    (h_pins : pt .pins = true) : Changes pt s0 (pulse s sub) := by
  unfold pulse
  repeat' (with_reducible first | assumption | refine Changes.fst ‹_› ?_ | refine Changes.snd ‹_› ?_ | split | refine Changes.put ?_)

theorem arbGrant_changes {pt : Part → Bool} {s0 : State} (s : State) (unit slot : Nat) (ready : List Nat) (hK : Changes pt s0 s)
    (h_arbs : pt .arbs = true) : Changes pt s0 (arbGrant s unit slot ready) := by
  unfold arbGrant
  repeat' (with_reducible first
      | assumption | apply Changes.foldl | apply Changes.foldlFst | apply Changes.foldlSnd | intro _ | extract_lets | split
      | dsimp +zetaDelta only | refine Changes.put ?_)

/-! ## PoolOps -/

theorem setPool_changes {pt : Part → Bool} {s0 : State} (s : State) (p : Nat) (x : Pool) (hK : Changes pt s0 s)
    (h_pools : pt .pools = true) : Changes pt s0 (setPool s p x) := by
  unfold setPool
  repeat' (with_reducible first | assumption | refine Changes.put ?_)

theorem lowWater_changes {pt : Part → Bool} {s0 : State} (s : State) (p : Nat) (hK : Changes pt s0 s) (h_objects : pt .objects = true)
    (h_tallies : pt .tallies = true) : Changes pt s0 (lowWater s p) := by
  unfold lowWater
  repeat' (with_reducible first
      | assumption | refine Changes.tally ?_ _ _ _ (by assumption) (by decide)
      | refine Changes.object ?_ _ _ _ (by assumption) (by decide) | refine Changes.any ?_ _ _ _ (by assumption) (by assumption)
      | intro _ | extract_lets | split | dsimp +zetaDelta only)

theorem poolBalance_changes {pt : Part → Bool} {s0 : State} (s : State) (p : Nat) (hK : Changes pt s0 s)
    (h_pools : pt .pools = true) : Changes pt s0 (poolBalance s p) := by
  unfold poolBalance
  repeat' (with_reducible first
      | assumption | apply setPool_changes | intro _ | extract_lets | split | dsimp +zetaDelta only | refine Changes.put ?_)

theorem setStateBit_changes {pt : Part → Bool} {s0 : State} (s : State) (p i : Nat) (v : Bool) (hK : Changes pt s0 s)
    (h_devMem : pt .devMem = true) : Changes pt s0 (setStateBit s p i v) := by
  unfold setStateBit
  repeat' (with_reducible first | assumption | extract_lets | dsimp +zetaDelta only | refine Changes.put ?_)

theorem blockExcess_changes {pt : Part → Bool} {s0 : State} (s : State) (p : Nat) (hK : Changes pt s0 s)
    (h_pools : pt .pools = true) : Changes pt s0 (blockExcess s p) := by
  unfold blockExcess
  repeat' (with_reducible first
      | assumption | apply setPool_changes | intro _ | extract_lets | split | dsimp +zetaDelta only | refine Changes.put ?_)

theorem countMisses_changes {pt : Part → Bool} {s0 : State} (s : State) (p : Nat) (hK : Changes pt s0 s)
    (h_tallies : pt .tallies = true) (h_pools : pt .pools = true) : Changes pt s0 (countMisses s p) := by
  unfold countMisses
  repeat' (with_reducible first
      | assumption | refine bump_tally _ _ ?_ (by assumption) (by decide) | refine bump_object _ _ ?_ (by assumption) (by decide)
      | refine bump_any _ _ ?_ (by assumption) (by assumption) | refine bumpBy_tally _ _ _ ?_ (by assumption) (by decide)
      | refine bumpBy_object _ _ _ ?_ (by assumption) (by decide) | refine bumpBy_any _ _ _ ?_ (by assumption) (by assumption)
      | apply setPool_changes | refine Changes.tally ?_ _ _ _ (by assumption) (by decide)
      | refine Changes.object ?_ _ _ _ (by assumption) (by decide) | refine Changes.any ?_ _ _ _ (by assumption) (by assumption)
      | intro _ | extract_lets | split | dsimp +zetaDelta only | refine Changes.put ?_)

theorem quarantine_changes {pt : Part → Bool} {s0 : State} (s : State) (p : Nat) (is : List Nat) (dropped : Bool) (slot : Nat)
    (hK : Changes pt s0 s) (h_objects : pt .objects = true) (h_tallies : pt .tallies = true) (h_pools : pt .pools = true)
    (h_evt : pt .evt = true) (h_trace : pt .trace = true) : Changes pt s0 (quarantine s p is dropped slot) := by
  unfold quarantine
  repeat' (with_reducible first
      | assumption | apply blockExcess_changes | apply lowWater_changes | apply setPool_changes | apply raiseErr_changes | intro _
      | extract_lets | split | dsimp +zetaDelta only | refine Changes.put ?_)

theorem finishCmd_changes {pt : Part → Bool} {s0 : State} (s : State) (id status flags result : Nat) (hK : Changes pt s0 s)
    (h_cmds : pt .cmds = true) : Changes pt s0 (finishCmd s id status flags result) := by
  unfold finishCmd
  repeat' (with_reducible first | assumption | split | refine Changes.put ?_)

theorem answer_changes {pt : Part → Bool} {s0 : State} (s : State) (r : AllocReq) (code addr : Nat) (hK : Changes pt s0 s)
    (h_devMem : pt .devMem = true) (h_slots : pt .slots = true) (h_cmds : pt .cmds = true) (h_pools : pt .pools = true)
    (h_net : pt .net = true) : Changes pt s0 (answer s r code addr) := by
  unfold answer
  repeat' (with_reducible first
      | assumption | apply finishCmd_changes | apply modSlot_changes | apply memWrite_changes | refine Changes.fst ‹_› ?_
      | refine Changes.snd ‹_› ?_ | intro _ | extract_lets | split | dsimp +zetaDelta only | refine Changes.put ?_)

theorem readStateLine_changes {pt : Part → Bool} {s0 : State} (s : State) (p i slot : Nat) (poisoned : Bool) (hK : Changes pt s0 s)
    (h_objects : pt .objects = true) (h_tallies : pt .tallies = true) (h_pools : pt .pools = true) (h_evt : pt .evt = true)
    (h_trace : pt .trace = true) : Changes pt s0 (readStateLine s p i slot poisoned) := by
  unfold readStateLine
  repeat' (with_reducible first | assumption | apply quarantine_changes | apply memError_changes | intro _ | split)

theorem runSets_changes {pt : Part → Bool} {s0 : State} (s : State) (p : Nat) (x0 : List BitOp) (hK : Changes pt s0 s)
    (h_objects : pt .objects = true) (h_tallies : pt .tallies = true) (h_devMem : pt .devMem = true) (h_pools : pt .pools = true)
    (h_evt : pt .evt = true) (h_trace : pt .trace = true) : Changes pt s0 (runSets s p x0) := by
  induction x0 generalizing s p with
  | nil => exact hK
  | cons o l ih =>
    cases o with
    | check n i => exact hK
    | set n i =>
      simp only [runSets]
      repeat' (with_reducible first
          | assumption | apply ih | apply setStateBit_changes | apply readStateLine_changes | apply setPool_changes)

theorem acceptOp_changes {pt : Part → Bool} {s0 : State} (s : State) (p : Nat) (o : BitOp) (hK : Changes pt s0 s)
    (h_objects : pt .objects = true) (h_tallies : pt .tallies = true) (h_devMem : pt .devMem = true) (h_pools : pt .pools = true)
    (h_evt : pt .evt = true) (h_trace : pt .trace = true) : Changes pt s0 (acceptOp s p o) := by
  unfold acceptOp
  repeat' (with_reducible first
      | assumption | apply runSets_changes | apply setPool_changes | intro _ | extract_lets | dsimp +zetaDelta only
      | refine Changes.put ?_)

theorem dropEntry_changes {pt : Part → Bool} {s0 : State} (s : State) (p : Nat) (e : Nat × Nat) (hK : Changes pt s0 s)
    (h_objects : pt .objects = true) (h_tallies : pt .tallies = true) (h_pools : pt .pools = true) (h_evt : pt .evt = true)
    (h_trace : pt .trace = true) : Changes pt s0 (dropEntry s p e) := by
  unfold dropEntry
  repeat' (with_reducible first
      | assumption | apply blockExcess_changes | apply lowWater_changes | apply setPool_changes | apply raiseErr_changes
      | refine Changes.tally ?_ _ _ _ (by assumption) (by decide) | refine Changes.object ?_ _ _ _ (by assumption) (by decide)
      | refine Changes.any ?_ _ _ _ (by assumption) (by assumption) | intro _ | extract_lets | dsimp +zetaDelta only
      | refine Changes.put ?_)

theorem dropDamaged_changes {pt : Part → Bool} {s0 : State} (s : State) (p : Nat) (x0 : List Nat) (hK : Changes pt s0 s)
    (h_objects : pt .objects = true) (h_tallies : pt .tallies = true) (h_pools : pt .pools = true) (h_evt : pt .evt = true)
    (h_trace : pt .trace = true) : Changes pt s0 (dropDamaged s p x0) := by
  induction x0 generalizing s p with
  | nil => unfold dropDamaged; exact hK
  | cons o l ih =>
    unfold dropDamaged
    repeat' (with_reducible first
        | assumption | apply ih | apply dropEntry_changes | refine Changes.fst ‹_› ?_ | refine Changes.snd ‹_› ?_ | intro _ | split)

theorem holdGranted_changes {pt : Part → Bool} {s0 : State} (s : State) (p : Nat) (r : AllocReq) (hK : Changes pt s0 s)
    (h_tallies : pt .tallies = true) (h_pools : pt .pools = true) : Changes pt s0 (holdGranted s p r) := by
  unfold holdGranted
  repeat' (with_reducible first
      | assumption | apply countMisses_changes | apply setPool_changes | intro _ | extract_lets | dsimp +zetaDelta only
      | refine Changes.put ?_)

theorem takeIndex_changes {pt : Part → Bool} {s0 : State} (s : State) (p : Nat) (r : AllocReq) (hK : Changes pt s0 s)
    (h_objects : pt .objects = true) (h_tallies : pt .tallies = true) (h_devMem : pt .devMem = true) (h_slots : pt .slots = true)
    (h_cmds : pt .cmds = true) (h_pools : pt .pools = true) (h_net : pt .net = true) (h_evt : pt .evt = true)
    (h_trace : pt .trace = true) : Changes pt s0 (takeIndex s p r) := by
  unfold takeIndex
  repeat' (with_reducible first
      | assumption | apply holdGranted_changes | apply dropDamaged_changes | apply acceptOp_changes | apply answer_changes
      | apply countMisses_changes | apply poolBalance_changes | apply lowWater_changes | apply setPool_changes
      | refine Changes.fst ‹_› ?_ | refine Changes.snd ‹_› ?_ | intro _ | extract_lets | split | dsimp +zetaDelta only
      | refine Changes.put ?_)

theorem awaitIndex_changes {pt : Part → Bool} {s0 : State} (s : State) (p : Nat) (r : AllocReq) (hK : Changes pt s0 s)
    (h_objects : pt .objects = true) (h_tallies : pt .tallies = true) (h_devMem : pt .devMem = true) (h_slots : pt .slots = true)
    (h_cmds : pt .cmds = true) (h_pools : pt .pools = true) (h_net : pt .net = true) (h_evt : pt .evt = true)
    (h_trace : pt .trace = true) : Changes pt s0 (awaitIndex s p r) := by
  unfold awaitIndex
  repeat' (with_reducible first
      | assumption | apply takeIndex_changes | apply holdGranted_changes | apply setPool_changes | intro _ | extract_lets | split
      | dsimp +zetaDelta only | refine Changes.put ?_)

theorem grantReq_changes {pt : Part → Bool} {s0 : State} (s : State) (p : Nat) (r : AllocReq) (hK : Changes pt s0 s)
    (h_objects : pt .objects = true) (h_tallies : pt .tallies = true) (h_devMem : pt .devMem = true) (h_slots : pt .slots = true)
    (h_cmds : pt .cmds = true) (h_pools : pt .pools = true) (h_net : pt .net = true) (h_evt : pt .evt = true)
    (h_trace : pt .trace = true) : Changes pt s0 (grantReq s p r) := by
  unfold grantReq
  repeat' (with_reducible first
      | assumption | refine bump_tally _ _ ?_ (by assumption) (by decide) | refine bump_object _ _ ?_ (by assumption) (by decide)
      | refine bump_any _ _ ?_ (by assumption) (by assumption) | refine bumpBy_tally _ _ _ ?_ (by assumption) (by decide)
      | refine bumpBy_object _ _ _ ?_ (by assumption) (by decide) | refine bumpBy_any _ _ _ ?_ (by assumption) (by assumption)
      | apply awaitIndex_changes | apply setPool_changes | refine Changes.tally ?_ _ _ _ (by assumption) (by decide)
      | refine Changes.object ?_ _ _ _ (by assumption) (by decide) | refine Changes.any ?_ _ _ _ (by assumption) (by assumption)
      | intro _ | extract_lets | split | dsimp +zetaDelta only | refine Changes.put ?_)

theorem moveBlocked_changes {pt : Part → Bool} {s0 : State} (s : State) (p waitedFclk : Nat) (hK : Changes pt s0 s)
    (h_objects : pt .objects = true) (h_tallies : pt .tallies = true) (h_devMem : pt .devMem = true) (h_slots : pt .slots = true)
    (h_cmds : pt .cmds = true) (h_arbs : pt .arbs = true) (h_pools : pt .pools = true) (h_net : pt .net = true) (h_evt : pt .evt = true)
    (h_trace : pt .trace = true) : Changes pt s0 (moveBlocked s p waitedFclk) := by
  unfold moveBlocked
  repeat' (with_reducible first
      | assumption | refine bump_tally _ _ ?_ (by assumption) (by decide) | refine bump_object _ _ ?_ (by assumption) (by decide)
      | refine bump_any _ _ ?_ (by assumption) (by assumption) | refine bumpBy_tally _ _ _ ?_ (by assumption) (by decide)
      | refine bumpBy_object _ _ _ ?_ (by assumption) (by decide) | refine bumpBy_any _ _ _ ?_ (by assumption) (by assumption)
      | apply grantReq_changes | apply awaitIndex_changes | apply setPool_changes | apply arbGrant_changes
      | refine Changes.tally ?_ _ _ _ (by assumption) (by decide) | refine Changes.object ?_ _ _ _ (by assumption) (by decide)
      | refine Changes.any ?_ _ _ _ (by assumption) (by assumption) | refine Changes.fst ‹_› ?_ | refine Changes.snd ‹_› ?_ | intro _
      | extract_lets | split | dsimp +zetaDelta only | refine Changes.put ?_)

theorem poolRequest_changes {pt : Part → Bool} {s0 : State} (s : State) (slot size : Nat) (owner : ReqOwner) (hK : Changes pt s0 s)
    (h_objects : pt .objects = true) (h_tallies : pt .tallies = true) (h_devMem : pt .devMem = true) (h_slots : pt .slots = true)
    (h_cmds : pt .cmds = true) (h_arbs : pt .arbs = true) (h_pools : pt .pools = true) (h_net : pt .net = true) (h_evt : pt .evt = true)
    (h_trace : pt .trace = true) : Changes pt s0 (poolRequest s slot size owner) := by
  unfold poolRequest
  repeat' (with_reducible first
      | assumption | apply moveBlocked_changes | apply grantReq_changes | apply answer_changes | apply setPool_changes
      | apply arbGrant_changes | apply raiseErr_changes | refine Changes.fst ‹_› ?_ | refine Changes.snd ‹_› ?_ | intro _
      | extract_lets | split | dsimp +zetaDelta only | refine Changes.put ?_)

theorem needBuffer_changes {pt : Part → Bool} {s0 : State} (s : State) (slot size : Nat) (hK : Changes pt s0 s)
    (h_objects : pt .objects = true) (h_tallies : pt .tallies = true) (h_devMem : pt .devMem = true) (h_slots : pt .slots = true)
    (h_cmds : pt .cmds = true) (h_arbs : pt .arbs = true) (h_pools : pt .pools = true) (h_net : pt .net = true) (h_evt : pt .evt = true)
    (h_trace : pt .trace = true) : Changes pt s0 (needBuffer s slot size).2 := by
  unfold needBuffer
  repeat' (with_reducible first
      | assumption | apply poolRequest_changes | refine Changes.fst ‹_› ?_ | refine Changes.snd ‹_› ?_ | intro _ | extract_lets | split
      | dsimp +zetaDelta only | refine Changes.put ?_)

theorem retryLater_changes {pt : Part → Bool} {s0 : State} (s : State) (slot unit : Nat) (hK : Changes pt s0 s)
    (h_slots : pt .slots = true) : Changes pt s0 (retryLater s slot unit) := by
  unfold retryLater
  repeat' (with_reducible first | assumption | apply modSlot_changes | intro _ | refine Changes.put ?_)

theorem acceptFree_changes {pt : Part → Bool} {s0 : State} (s : State) (r : FreeReq) (hK : Changes pt s0 s)
    (h_objects : pt .objects = true) (h_tallies : pt .tallies = true) (h_devMem : pt .devMem = true) (h_slots : pt .slots = true)
    (h_cmds : pt .cmds = true) (h_pools : pt .pools = true) (h_evt : pt .evt = true) (h_trace : pt .trace = true) : Changes pt s0
    (acceptFree s r) := by
  unfold acceptFree
  repeat' (with_reducible first
      | assumption | apply acceptOp_changes | apply finishCmd_changes | apply setPool_changes | apply raiseErr_changes
      | apply modSlot_changes | refine Changes.fst ‹_› ?_ | refine Changes.snd ‹_› ?_ | intro _ | extract_lets | split
      | dsimp +zetaDelta only | refine Changes.put ?_)

theorem presentFree_changes {pt : Part → Bool} {s0 : State} (s : State) (r : FreeReq) (hK : Changes pt s0 s)
    (h_objects : pt .objects = true) (h_tallies : pt .tallies = true) (h_devMem : pt .devMem = true) (h_slots : pt .slots = true)
    (h_cmds : pt .cmds = true) (h_pools : pt .pools = true) (h_evt : pt .evt = true) (h_trace : pt .trace = true) : Changes pt s0
    (presentFree s r) := by
  unfold presentFree
  repeat' (with_reducible first
      | assumption | apply acceptFree_changes | apply setPool_changes | refine Changes.fst ‹_› ?_ | refine Changes.snd ‹_› ?_ | intro _
      | extract_lets | split | dsimp +zetaDelta only | refine Changes.put ?_)

theorem freeBuffers_changes {pt : Part → Bool} {s0 : State} (s : State) (slot : Nat) (addrs : List Nat) (hK : Changes pt s0 s)
    (h_objects : pt .objects = true) (h_tallies : pt .tallies = true) (h_devMem : pt .devMem = true) (h_slots : pt .slots = true)
    (h_cmds : pt .cmds = true) (h_pools : pt .pools = true) (h_evt : pt .evt = true) (h_trace : pt .trace = true) : Changes pt s0
    (freeBuffers s slot addrs) := by
  unfold freeBuffers
  repeat' (with_reducible first
      | assumption | apply presentFree_changes | apply Changes.foldl | apply Changes.foldlFst | apply Changes.foldlSnd | intro _
      | refine Changes.put ?_)

theorem elapsedFclk_changes {pt : Part → Bool} {s0 : State} (s : State) (since : Nat) (hK : Changes pt s0 s)
    (h_drawn : pt .drawn = true) : Changes pt s0 (elapsedFclk s since).2 := by
  unfold elapsedFclk
  repeat' (with_reducible first
      | assumption | apply drawFree_changes | refine Changes.fst ‹_› ?_ | refine Changes.snd ‹_› ?_ | intro _ | extract_lets | split
      | dsimp +zetaDelta only)

theorem blockedFclk_changes {pt : Part → Bool} {s0 : State} (s : State) (r : AllocReq) (hK : Changes pt s0 s)
    (h_drawn : pt .drawn = true) : Changes pt s0 (blockedFclk s r).2 := by
  unfold blockedFclk
  repeat' (with_reducible first | assumption | apply elapsedFclk_changes | intro _)

theorem countWithdrawn_changes {pt : Part → Bool} {s0 : State} (s : State) (r : AllocReq) (hK : Changes pt s0 s)
    (h_drawn : pt .drawn = true) (h_tallies : pt .tallies = true) : Changes pt s0 (countWithdrawn s r) := by
  unfold countWithdrawn
  repeat' (with_reducible first
      | assumption | refine bump_tally _ _ ?_ (by assumption) (by decide) | refine bump_object _ _ ?_ (by assumption) (by decide)
      | refine bump_any _ _ ?_ (by assumption) (by assumption) | refine bumpBy_tally _ _ _ ?_ (by assumption) (by decide)
      | refine bumpBy_object _ _ _ ?_ (by assumption) (by decide) | refine bumpBy_any _ _ _ ?_ (by assumption) (by assumption)
      | apply blockedFclk_changes | refine Changes.tally ?_ _ _ _ (by assumption) (by decide)
      | refine Changes.object ?_ _ _ _ (by assumption) (by decide) | refine Changes.any ?_ _ _ _ (by assumption) (by assumption)
      | refine Changes.fst ‹_› ?_ | refine Changes.snd ‹_› ?_ | intro _ | extract_lets | split | dsimp +zetaDelta only)

theorem endWithdrawn_changes {pt : Part → Bool} {s0 : State} (code : Nat) (s : State) (r : AllocReq) (hK : Changes pt s0 s)
    (h_drawn : pt .drawn = true) (h_tallies : pt .tallies = true) (h_cmds : pt .cmds = true) : Changes pt s0
    (endWithdrawn code s r) := by
  unfold endWithdrawn
  repeat' (with_reducible first
      | assumption | apply countWithdrawn_changes | apply finishCmd_changes | refine Changes.fst ‹_› ?_ | refine Changes.snd ‹_› ?_
      | intro _ | extract_lets | split | dsimp +zetaDelta only)

theorem withdrawRequests_changes {pt : Part → Bool} {s0 : State} (slot code : Nat) (s : State) (p : Nat) (hK : Changes pt s0 s)
    (h_drawn : pt .drawn = true) (h_tallies : pt .tallies = true) (h_cmds : pt .cmds = true)
    (h_pools : pt .pools = true) : Changes pt s0 (withdrawRequests slot code s p) := by
  unfold withdrawRequests
  repeat' (with_reducible first
      | assumption | apply endWithdrawn_changes | apply setPool_changes | apply Changes.foldl | apply Changes.foldlFst
      | apply Changes.foldlSnd | intro _ | extract_lets | split | dsimp +zetaDelta only | refine Changes.put ?_)

theorem dropRequests_changes {pt : Part → Bool} {s0 : State} (s : State) (slot code : Nat) (hK : Changes pt s0 s)
    (h_drawn : pt .drawn = true) (h_objects : pt .objects = true) (h_tallies : pt .tallies = true) (h_devMem : pt .devMem = true)
    (h_slots : pt .slots = true) (h_cmds : pt .cmds = true) (h_pools : pt .pools = true) (h_evt : pt .evt = true)
    (h_trace : pt .trace = true) : Changes pt s0 (dropRequests s slot code) := by
  unfold dropRequests
  repeat' (with_reducible first
      | assumption | apply withdrawRequests_changes | apply freeBuffers_changes | apply Changes.foldl | apply Changes.foldlFst
      | apply Changes.foldlSnd | intro _ | extract_lets | dsimp +zetaDelta only | refine Changes.put ?_)

theorem acceptWaiting_changes {pt : Part → Bool} {s0 : State} (p : Nat) (x0 : List FreeReq) (s : State) (hK : Changes pt s0 s)
    (h_objects : pt .objects = true) (h_tallies : pt .tallies = true) (h_devMem : pt .devMem = true) (h_slots : pt .slots = true)
    (h_cmds : pt .cmds = true) (h_pools : pt .pools = true) (h_evt : pt .evt = true) (h_trace : pt .trace = true) : Changes pt s0
    (acceptWaiting p x0 s) := by
  induction x0 generalizing p s with
  | nil => exact hK
  | cons o l ih =>
    simp only [acceptWaiting]
    repeat' (with_reducible first | assumption | apply ih | apply acceptFree_changes | apply setPool_changes | split)

/-! ## Units -/

theorem setEnable_changes {pt : Part → Bool} {s0 : State} (s : State) (k : UnitKind) (u : Nat) (v : Bool) (hK : Changes pt s0 s)
    (h_objects : pt .objects = true) (h_tallies : pt .tallies = true) : Changes pt s0 (setEnable s k u v) := by
  unfold setEnable
  repeat' (with_reducible first
      | assumption | refine Changes.tally ?_ _ _ _ (by assumption) (by decide)
      | refine Changes.object ?_ _ _ _ (by assumption) (by decide) | refine Changes.any ?_ _ _ _ (by assumption) (by assumption)
      | intro _)

theorem setRetired_changes {pt : Part → Bool} {s0 : State} (s : State) (k : UnitKind) (u : Nat) (v : Bool) (hK : Changes pt s0 s)
    (h_objects : pt .objects = true) (h_tallies : pt .tallies = true) : Changes pt s0 (setRetired s k u v) := by
  unfold setRetired
  repeat' (with_reducible first
      | assumption | refine Changes.tally ?_ _ _ _ (by assumption) (by decide)
      | refine Changes.object ?_ _ _ _ (by assumption) (by decide) | refine Changes.any ?_ _ _ _ (by assumption) (by assumption)
      | refine Changes.fst ‹_› ?_ | refine Changes.snd ‹_› ?_ | intro _ | split)

theorem setDraining_changes {pt : Part → Bool} {s0 : State} (s : State) (k : UnitKind) (l : List Nat) (hK : Changes pt s0 s)
    (h_txa : pt .txa = true) (h_sdx : pt .sdx = true) (h_rsv : pt .rsv = true) (h_mdc : pt .mdc = true)
    (h_tok : pt .tok = true) : Changes pt s0 (setDraining s k l) := by
  unfold setDraining
  repeat' (with_reducible first | assumption | refine Changes.fst ‹_› ?_ | refine Changes.snd ‹_› ?_ | split | refine Changes.put ?_)

theorem unitDone_changes {pt : Part → Bool} {s0 : State} (s : State) (k : UnitKind) (u : Nat) (hK : Changes pt s0 s)
    (h_objects : pt .objects = true) (h_tallies : pt .tallies = true) (h_txa : pt .txa = true) (h_sdx : pt .sdx = true)
    (h_rsv : pt .rsv = true) (h_mdc : pt .mdc = true) (h_tok : pt .tok = true) : Changes pt s0 (unitDone s k u) := by
  unfold unitDone
  repeat' (with_reducible first | assumption | apply setDraining_changes | apply setEnable_changes | intro _ | split)

theorem retireUnit_changes {pt : Part → Bool} {s0 : State} (s : State) (k : UnitKind) (u : Nat) (hK : Changes pt s0 s)
    (h_objects : pt .objects = true) (h_tallies : pt .tallies = true) (h_txa : pt .txa = true) (h_sdx : pt .sdx = true)
    (h_rsv : pt .rsv = true) (h_mdc : pt .mdc = true) (h_tok : pt .tok = true) : Changes pt s0 (retireUnit s k u) := by
  unfold retireUnit
  repeat' (with_reducible first | assumption | apply setDraining_changes | apply setRetired_changes | apply setEnable_changes | intro _)

theorem settleUnits_changes {pt : Part → Bool} {s0 : State} (s : State) (k : UnitKind) (hK : Changes pt s0 s)
    (h_objects : pt .objects = true) (h_tallies : pt .tallies = true) (h_txa : pt .txa = true) (h_sdx : pt .sdx = true)
    (h_rsv : pt .rsv = true) (h_mdc : pt .mdc = true) (h_tok : pt .tok = true) : Changes pt s0 (settleUnits s k) := by
  unfold settleUnits
  repeat' (with_reducible first
      | assumption | apply unitDone_changes | apply Changes.foldl | apply Changes.foldlFst | apply Changes.foldlSnd | intro _)

/-! ## SlotOps -/

theorem freeLane_changes {pt : Part → Bool} {s0 : State} (s : State) (u : Nat) (hK : Changes pt s0 s) (h_objects : pt .objects = true)
    (h_sdx : pt .sdx = true) : Changes pt s0 (freeLane s u) := by
  unfold freeLane
  repeat' (with_reducible first
      | assumption | refine Changes.tally ?_ _ _ _ (by assumption) (by decide)
      | refine Changes.object ?_ _ _ _ (by assumption) (by decide) | refine Changes.any ?_ _ _ _ (by assumption) (by assumption)
      | intro _ | extract_lets | split | dsimp +zetaDelta only | refine Changes.put ?_)

theorem cancelStreams_changes {pt : Part → Bool} {s0 : State} (s : State) (m : Nat) (hK : Changes pt s0 s)
    (h_objects : pt .objects = true) (h_sdx : pt .sdx = true) : Changes pt s0 (cancelStreams s m) := by
  unfold cancelStreams
  repeat' (with_reducible first
      | assumption | apply freeLane_changes | apply Changes.foldl | apply Changes.foldlFst | apply Changes.foldlSnd
      | refine Changes.fst ‹_› ?_ | refine Changes.snd ‹_› ?_ | intro _ | extract_lets | split | dsimp +zetaDelta only
      | refine Changes.put ?_)

theorem modStage_changes {pt : Part → Bool} {s0 : State} (s : State) (cmd : Nat) (f : IngestStage → IngestStage) (hK : Changes pt s0 s)
    (h_net : pt .net = true) : Changes pt s0 (modStage s cmd f) := by
  unfold modStage
  repeat' (with_reducible first | assumption | split | refine Changes.put ?_)

theorem stageEnds_changes {pt : Part → Bool} {s0 : State} (s : State) (cmd : Nat) (hK : Changes pt s0 s) (h_cmds : pt .cmds = true)
    (h_net : pt .net = true) : Changes pt s0 (stageEnds s cmd) := by
  unfold stageEnds
  repeat' (with_reducible first
      | assumption | apply modStage_changes | apply finishCmd_changes | refine Changes.fst ‹_› ?_ | refine Changes.snd ‹_› ?_ | intro _
      | split | refine Changes.put ?_)

theorem countUnshown_changes {pt : Part → Bool} {s0 : State} (s : State) (l : List RefPic) (hK : Changes pt s0 s)
    (h_tallies : pt .tallies = true) : Changes pt s0 (countUnshown s l) := by
  unfold countUnshown
  repeat' (with_reducible first
      | assumption | refine bump_tally _ _ ?_ (by assumption) (by decide) | refine bump_object _ _ ?_ (by assumption) (by decide)
      | refine bump_any _ _ ?_ (by assumption) (by assumption) | refine bumpBy_tally _ _ _ ?_ (by assumption) (by decide)
      | refine bumpBy_object _ _ _ ?_ (by assumption) (by decide) | refine bumpBy_any _ _ _ ?_ (by assumption) (by assumption)
      | refine Changes.tally ?_ _ _ _ (by assumption) (by decide) | refine Changes.object ?_ _ _ _ (by assumption) (by decide)
      | refine Changes.any ?_ _ _ _ (by assumption) (by assumption) | intro _)

theorem dropContexts_changes {pt : Part → Bool} {s0 : State} (s : State) (n : Nat) (hK : Changes pt s0 s)
    (h_tallies : pt .tallies = true) (h_mdc : pt .mdc = true) : Changes pt s0 (dropContexts s n) := by
  unfold dropContexts
  repeat' (with_reducible first | assumption | apply countUnshown_changes | intro _ | refine Changes.put ?_)

theorem abandonStages_changes {pt : Part → Bool} {s0 : State} (s : State) (n code : Nat) (hK : Changes pt s0 s)
    (h_drawn : pt .drawn = true) (h_objects : pt .objects = true) (h_tallies : pt .tallies = true) (h_devMem : pt .devMem = true)
    (h_slots : pt .slots = true) (h_cmds : pt .cmds = true) (h_txa : pt .txa = true) (h_sdx : pt .sdx = true) (h_rsv : pt .rsv = true)
    (h_mdc : pt .mdc = true) (h_tok : pt .tok = true) (h_bat : pt .bat = true) (h_pools : pt .pools = true) (h_net : pt .net = true)
    (h_evt : pt .evt = true) (h_trace : pt .trace = true) : Changes pt s0 (abandonStages s n code) := by
  unfold abandonStages
  repeat' (with_reducible first
      | assumption | apply dropContexts_changes | apply cancelStreams_changes | apply settleUnits_changes | apply dropRequests_changes
      | apply freeBuffers_changes | apply finishCmd_changes | apply Changes.foldl | apply Changes.foldlFst | apply Changes.foldlSnd
      | refine Changes.fst ‹_› ?_ | refine Changes.snd ‹_› ?_ | intro _ | extract_lets | split | dsimp +zetaDelta only
      | refine Changes.put ?_)

theorem withdrawWaits_changes {pt : Part → Bool} {s0 : State} (s : State) (n : Nat) (hK : Changes pt s0 s)
    (h_pairs : pt .pairs = true) : Changes pt s0 (withdrawWaits s n) := by
  unfold withdrawWaits
  repeat' (with_reducible first
      | assumption | apply setPair_changes | apply Changes.foldl | apply Changes.foldlFst | apply Changes.foldlSnd | intro _
      | extract_lets | split | dsimp +zetaDelta only | refine Changes.put ?_)

theorem faultHere_changes {pt : Part → Bool} {s0 : State} (s : State) (n code : Nat) (hK : Changes pt s0 s) (h_drawn : pt .drawn = true)
    (h_objects : pt .objects = true) (h_tallies : pt .tallies = true) (h_devMem : pt .devMem = true) (h_pairs : pt .pairs = true)
    (h_slots : pt .slots = true) (h_cmds : pt .cmds = true) (h_txa : pt .txa = true) (h_sdx : pt .sdx = true) (h_rsv : pt .rsv = true)
    (h_mdc : pt .mdc = true) (h_tok : pt .tok = true) (h_bat : pt .bat = true) (h_pools : pt .pools = true) (h_net : pt .net = true)
    (h_evt : pt .evt = true) (h_trace : pt .trace = true) : Changes pt s0 (faultHere s n code) := by
  unfold faultHere
  repeat' (with_reducible first
      | assumption | apply withdrawWaits_changes | apply abandonStages_changes | apply fire_changes | apply setSlot_changes | intro _
      | extract_lets | split | dsimp +zetaDelta only | refine Changes.put ?_)

theorem slotFault_changes {pt : Part → Bool} {s0 : State} (s : State) (n code : Nat) (hK : Changes pt s0 s) (h_drawn : pt .drawn = true)
    (h_objects : pt .objects = true) (h_tallies : pt .tallies = true) (h_devMem : pt .devMem = true) (h_pairs : pt .pairs = true)
    (h_slots : pt .slots = true) (h_cmds : pt .cmds = true) (h_txa : pt .txa = true) (h_sdx : pt .sdx = true) (h_rsv : pt .rsv = true)
    (h_mdc : pt .mdc = true) (h_tok : pt .tok = true) (h_bat : pt .bat = true) (h_pools : pt .pools = true) (h_net : pt .net = true)
    (h_fed : pt .fed = true) (h_evt : pt .evt = true) (h_trace : pt .trace = true) : Changes pt s0 (slotFault s n code) := by
  unfold slotFault
  repeat' (with_reducible first
      | assumption | apply faultHere_changes | apply send_changes | intro _ | extract_lets | split | dsimp +zetaDelta only)

theorem errFault_changes {pt : Part → Bool} {s0 : State} (s : State) (n code : Nat) (hK : Changes pt s0 s) (h_drawn : pt .drawn = true)
    (h_objects : pt .objects = true) (h_tallies : pt .tallies = true) (h_devMem : pt .devMem = true) (h_pairs : pt .pairs = true)
    (h_slots : pt .slots = true) (h_cmds : pt .cmds = true) (h_txa : pt .txa = true) (h_sdx : pt .sdx = true) (h_rsv : pt .rsv = true)
    (h_mdc : pt .mdc = true) (h_tok : pt .tok = true) (h_bat : pt .bat = true) (h_pools : pt .pools = true) (h_net : pt .net = true)
    (h_fed : pt .fed = true) (h_evt : pt .evt = true) (h_trace : pt .trace = true) : Changes pt s0 (errFault s n code) := by
  unfold errFault
  repeat' (with_reducible first | assumption | apply slotFault_changes | apply raiseErr_changes | intro _)

theorem tellGrant_changes {pt : Part → Bool} {s0 : State} (s : State) (who : Waiter) (full : Bool) (hK : Changes pt s0 s)
    (h_cmds : pt .cmds = true) (h_bat : pt .bat = true) (h_net : pt .net = true) : Changes pt s0 (tellGrant s who full) := by
  unfold tellGrant
  repeat' (with_reducible first
      | assumption | refine Changes.fst ‹_› ?_ | refine Changes.snd ‹_› ?_ | extract_lets | split | dsimp +zetaDelta only
      | refine Changes.put ?_)

theorem traceSem_changes {pt : Part → Bool} {s0 : State} (s : State) (p code slot : Nat) (hK : Changes pt s0 s)
    (h_tallies : pt .tallies = true) (h_trace : pt .trace = true) : Changes pt s0 (traceSem s p code slot) := by
  unfold traceSem
  repeat' (with_reducible first | assumption | apply traceRec_changes | intro _ | extract_lets | dsimp +zetaDelta only)

theorem grantWait_changes {pt : Part → Bool} {s0 : State} (s : State) (p : Nat) (w : HeldWait) (hK : Changes pt s0 s)
    (h_tallies : pt .tallies = true) (h_pairs : pt .pairs = true) (h_cmds : pt .cmds = true) (h_bat : pt .bat = true)
    (h_net : pt .net = true) (h_trace : pt .trace = true) : Changes pt s0 (grantWait s p w) := by
  unfold grantWait
  repeat' (with_reducible first
      | assumption | apply traceSem_changes | apply tellGrant_changes | apply setPair_changes | intro _ | extract_lets
      | dsimp +zetaDelta only)

theorem grantHeld_changes {pt : Part → Bool} {s0 : State} (s : State) (p : Nat) (full : Bool) (hK : Changes pt s0 s)
    (h_tallies : pt .tallies = true) (h_pairs : pt .pairs = true) (h_cmds : pt .cmds = true) (h_bat : pt .bat = true)
    (h_net : pt .net = true) (h_trace : pt .trace = true) : Changes pt s0 (grantHeld s p full) := by
  unfold grantHeld
  repeat' (with_reducible first
      | assumption | apply grantWait_changes | apply setPair_changes | refine Changes.fst ‹_› ?_ | refine Changes.snd ‹_› ?_ | intro _
      | extract_lets | split | dsimp +zetaDelta only | refine Changes.put ?_)

theorem semWait_changes {pt : Part → Bool} {s0 : State} (s : State) (p : Nat) (full : Bool) (slot : Nat) (who : Waiter)
    (hK : Changes pt s0 s) (h_tallies : pt .tallies = true) (h_pairs : pt .pairs = true) (h_cmds : pt .cmds = true)
    (h_bat : pt .bat = true) (h_net : pt .net = true) (h_trace : pt .trace = true) : Changes pt s0 (semWait s p full slot who) := by
  unfold semWait
  repeat' (with_reducible first
      | assumption | apply grantWait_changes | apply setPair_changes | intro _ | extract_lets | split | dsimp +zetaDelta only
      | refine Changes.put ?_)

theorem semSignal_changes {pt : Part → Bool} {s0 : State} (s : State) (p : Nat) (full : Bool) (slot : Nat) (hK : Changes pt s0 s)
    (h_drawn : pt .drawn = true) (h_objects : pt .objects = true) (h_tallies : pt .tallies = true) (h_devMem : pt .devMem = true)
    (h_pairs : pt .pairs = true) (h_slots : pt .slots = true) (h_cmds : pt .cmds = true) (h_txa : pt .txa = true)
    (h_sdx : pt .sdx = true) (h_rsv : pt .rsv = true) (h_mdc : pt .mdc = true) (h_tok : pt .tok = true) (h_bat : pt .bat = true)
    (h_pools : pt .pools = true) (h_net : pt .net = true) (h_fed : pt .fed = true) (h_evt : pt .evt = true)
    (h_trace : pt .trace = true) : Changes pt s0 (semSignal s p full slot) := by
  unfold semSignal
  repeat' (with_reducible first
      | assumption | apply grantHeld_changes | apply traceSem_changes | apply errFault_changes | apply setPair_changes | intro _
      | extract_lets | split | dsimp +zetaDelta only)

theorem pushEntry_changes {pt : Part → Bool} {s0 : State} (s : State) (p : Nat) (e : LinkEntry) (hK : Changes pt s0 s)
    (h_dlv : pt .dlv = true) : Changes pt s0 (pushEntry s p e) := by
  unfold pushEntry
  repeat' (with_reducible first | assumption | refine Changes.put ?_)

theorem takeEntry_changes {pt : Part → Bool} {s0 : State} (s : State) (p : Nat) (hK : Changes pt s0 s)
    (h_dlv : pt .dlv = true) : Changes pt s0 (takeEntry s p).2 := by
  unfold takeEntry
  repeat' (with_reducible first | assumption | refine Changes.fst ‹_› ?_ | refine Changes.snd ‹_› ?_ | split | refine Changes.put ?_)

theorem dropMsg_changes {pt : Part → Bool} {s0 : State} (s : State) (id : Nat) (hK : Changes pt s0 s)
    (h_net : pt .net = true) : Changes pt s0 (dropMsg s id) := by
  unfold dropMsg
  repeat' (with_reducible first | assumption | refine Changes.put ?_)

theorem releaseMsg_changes {pt : Part → Bool} {s0 : State} (s : State) (m : Msg) (hK : Changes pt s0 s) (h_drawn : pt .drawn = true)
    (h_objects : pt .objects = true) (h_tallies : pt .tallies = true) (h_devMem : pt .devMem = true) (h_pairs : pt .pairs = true)
    (h_slots : pt .slots = true) (h_cmds : pt .cmds = true) (h_txa : pt .txa = true) (h_sdx : pt .sdx = true) (h_rsv : pt .rsv = true)
    (h_mdc : pt .mdc = true) (h_tok : pt .tok = true) (h_bat : pt .bat = true) (h_pools : pt .pools = true) (h_net : pt .net = true)
    (h_fed : pt .fed = true) (h_evt : pt .evt = true) (h_trace : pt .trace = true) : Changes pt s0 (releaseMsg s m) := by
  unfold releaseMsg
  repeat' (with_reducible first | assumption | apply dropMsg_changes | apply semSignal_changes | apply freeBuffers_changes | intro _)

theorem releaseUntaken_changes {pt : Part → Bool} {s0 : State} (s : State) (n : Nat) (hK : Changes pt s0 s) (h_drawn : pt .drawn = true)
    (h_objects : pt .objects = true) (h_tallies : pt .tallies = true) (h_devMem : pt .devMem = true) (h_pairs : pt .pairs = true)
    (h_slots : pt .slots = true) (h_cmds : pt .cmds = true) (h_txa : pt .txa = true) (h_sdx : pt .sdx = true) (h_rsv : pt .rsv = true)
    (h_mdc : pt .mdc = true) (h_tok : pt .tok = true) (h_bat : pt .bat = true) (h_pools : pt .pools = true) (h_net : pt .net = true)
    (h_fed : pt .fed = true) (h_evt : pt .evt = true) (h_trace : pt .trace = true) : Changes pt s0 (releaseUntaken s n) := by
  unfold releaseUntaken
  repeat' (with_reducible first
      | assumption | apply releaseMsg_changes | apply Changes.foldl | apply Changes.foldlFst | apply Changes.foldlSnd | intro _)

theorem clearLink_changes {pt : Part → Bool} {s0 : State} (s : State) (p : Nat) (hK : Changes pt s0 s)
    (h_dlv : pt .dlv = true) : Changes pt s0 (clearLink s p) := by
  unfold clearLink
  repeat' (with_reducible first | assumption | refine Changes.put ?_)

theorem modCmd_changes {pt : Part → Bool} {s0 : State} (s : State) (id : Nat) (f : Cmd → Cmd) (hK : Changes pt s0 s)
    (h_cmds : pt .cmds = true) : Changes pt s0 (modCmd s id f) := by
  unfold modCmd
  repeat' (with_reducible first | assumption | split | refine Changes.put ?_)

theorem setOutput_changes {pt : Part → Bool} {s0 : State} (s : State) (c : Cmd) (space addr bytes : Nat) (buffer : Option Nat)
    (hK : Changes pt s0 s) (h_cmds : pt .cmds = true) : Changes pt s0 (setOutput s c space addr bytes buffer) := by
  unfold setOutput
  repeat' (with_reducible first | assumption | apply modCmd_changes | intro _ | refine Changes.put ?_)

theorem refuseItem_changes {pt : Part → Bool} {s0 : State} (s : State) (id slot code : Nat) (hK : Changes pt s0 s)
    (h_drawn : pt .drawn = true) (h_objects : pt .objects = true) (h_tallies : pt .tallies = true) (h_devMem : pt .devMem = true)
    (h_pairs : pt .pairs = true) (h_slots : pt .slots = true) (h_cmds : pt .cmds = true) (h_txa : pt .txa = true)
    (h_sdx : pt .sdx = true) (h_rsv : pt .rsv = true) (h_mdc : pt .mdc = true) (h_tok : pt .tok = true) (h_bat : pt .bat = true)
    (h_pools : pt .pools = true) (h_net : pt .net = true) (h_fed : pt .fed = true) (h_evt : pt .evt = true)
    (h_trace : pt .trace = true) : Changes pt s0 (refuseItem s id slot code) := by
  unfold refuseItem
  repeat' (with_reducible first | assumption | apply errFault_changes | apply finishCmd_changes | intro _)

theorem nameFailed_changes {pt : Part → Bool} {s0 : State} (s : State) (slot tag : Nat) (what : Named) (hK : Changes pt s0 s)
    (h_seq : pt .seq = true) : Changes pt s0 (nameFailed s slot tag what) := by
  unfold nameFailed
  repeat' (with_reducible first | assumption | refine Changes.put ?_)

theorem takeUnits_changes {pt : Part → Bool} {s0 : State} (s : State) (n : Nat) (hK : Changes pt s0 s) {t} (ht : takeUnits s n = some t)
    (h_dlv : pt .dlv = true) : Changes pt s0 t.2 := by
  unfold takeUnits at ht
  dsimp only at ht
  split at ht
  · simp at ht
  · simp only [Option.some.injEq] at ht
    subst ht
    exact Changes.put hK

theorem giveUnits_changes {pt : Part → Bool} {s0 : State} (s : State) (us : List Nat) (hK : Changes pt s0 s)
    (h_dlv : pt .dlv = true) : Changes pt s0 (giveUnits s us) := by
  unfold giveUnits
  repeat' (with_reducible first | assumption | refine Changes.put ?_)

/-! ## Flags -/

theorem writeRecord_changes {pt : Part → Bool} {s0 : State} (s : State) (q : Nat) (rec : List Byte) (hK : Changes pt s0 s)
    (h_objects : pt .objects = true) (h_tallies : pt .tallies = true) (h_devMem : pt .devMem = true) : Changes pt s0
    (writeRecord s q rec) := by
  unfold writeRecord
  repeat' (with_reducible first
      | assumption | refine bump_tally _ _ ?_ (by assumption) (by decide) | refine bump_object _ _ ?_ (by assumption) (by decide)
      | refine bump_any _ _ ?_ (by assumption) (by assumption) | refine bumpBy_tally _ _ _ ?_ (by assumption) (by decide)
      | refine bumpBy_object _ _ _ ?_ (by assumption) (by decide) | refine bumpBy_any _ _ _ ?_ (by assumption) (by assumption)
      | apply memWrite_changes | refine Changes.tally ?_ _ _ _ (by assumption) (by decide)
      | refine Changes.object ?_ _ _ _ (by assumption) (by decide) | refine Changes.any ?_ _ _ _ (by assumption) (by assumption)
      | intro _ | extract_lets | split | dsimp +zetaDelta only)

/-! ## DictOps -/

theorem setMailbox_changes {pt : Part → Bool} {s0 : State} (s : State) (m : Nat) (x : Mailbox) (hK : Changes pt s0 s)
    (h_dict : pt .dict = true) : Changes pt s0 (setMailbox s m x) := by
  unfold setMailbox
  repeat' (with_reducible first | assumption | refine Changes.put ?_)

theorem endRequest_changes {pt : Part → Bool} {s0 : State} (s : State) (via : Via) (code : Nat) (hK : Changes pt s0 s)
    (h_dict : pt .dict = true) : Changes pt s0 (endRequest s via code) := by
  unfold endRequest
  repeat' (with_reducible first
      | assumption | apply setMailbox_changes | refine Changes.fst ‹_› ?_ | refine Changes.snd ‹_› ?_ | intro _ | extract_lets | split
      | dsimp +zetaDelta only | refine Changes.put ?_)

theorem countAbort_changes {pt : Part → Bool} {s0 : State} (s : State) (code : Nat) (hK : Changes pt s0 s)
    (h_tallies : pt .tallies = true) :
    Changes pt s0 (countAbort s code) := by
  refine bump_tally _ _ (bump_tally _ _ hK h_tallies (by decide)) h_tallies ?_
  have e : objKey 0x8100 (0x10 + code / 2 ^ 24 % 64) / 256 = 0x8100 := by unfold objKey; omega
  rw [e]; simp [tally]

theorem dictAbort_changes {pt : Part → Bool} {s0 : State} (s : State) (via : Via) (code : Nat) (hK : Changes pt s0 s)
    (h_tallies : pt .tallies = true) (h_dict : pt .dict = true) : Changes pt s0 (dictAbort s via code) := by
  unfold dictAbort
  repeat' (with_reducible first | assumption | apply countAbort_changes | apply endRequest_changes | intro _)

theorem dictDone_changes {pt : Part → Bool} {s0 : State} (s : State) (via : Via) (hK : Changes pt s0 s) (h_tallies : pt .tallies = true)
    (h_dict : pt .dict = true) : Changes pt s0 (dictDone s via) := by
  unfold dictDone
  repeat' (with_reducible first
      | assumption | refine bump_tally _ _ ?_ (by assumption) (by decide) | refine bump_object _ _ ?_ (by assumption) (by decide)
      | refine bump_any _ _ ?_ (by assumption) (by assumption) | refine bumpBy_tally _ _ _ ?_ (by assumption) (by decide)
      | refine bumpBy_object _ _ _ ?_ (by assumption) (by decide) | refine bumpBy_any _ _ _ ?_ (by assumption) (by assumption)
      | apply endRequest_changes | refine Changes.tally ?_ _ _ _ (by assumption) (by decide)
      | refine Changes.object ?_ _ _ _ (by assumption) (by decide) | refine Changes.any ?_ _ _ _ (by assumption) (by assumption)
      | intro _)

theorem dictWriteWith_changes {pt : Part → Bool} {s0 : State} (effect : WriteEffect) (via : Via) (index sub : Nat) (data : List Byte)
    (s : State) (he : ∀ v i j d s, Changes pt s0 s → Changes pt s0 (effect v i j d s)) (hK : Changes pt s0 s)
    (h_tallies : pt .tallies = true) (h_dict : pt .dict = true) (h_trace : pt .trace = true) : Changes pt s0
    (dictWriteWith effect via index sub data s) := by
  unfold dictWriteWith
  repeat' (with_reducible first
      | assumption | apply dictDone_changes | apply dictAbort_changes | apply traceRec_changes | apply he | refine Changes.fst ‹_› ?_
      | refine Changes.snd ‹_› ?_ | intro _ | split)

theorem unkeep_changes {pt : Part → Bool} {s0 : State} (s : State) (index : Nat) (hK : Changes pt s0 s)
    (h_dict : pt .dict = true) : Changes pt s0 (unkeep s index) := by
  unfold unkeep
  repeat' (with_reducible first | assumption | refine Changes.put ?_)

theorem keep_changes {pt : Part → Bool} {s0 : State} (s : State) (index : Nat) (b : Before) (hK : Changes pt s0 s)
    (h_dict : pt .dict = true) : Changes pt s0 (keep s index b) := by
  unfold keep
  repeat' (with_reducible first
      | assumption | apply unkeep_changes | intro _ | extract_lets | dsimp +zetaDelta only | refine Changes.put ?_)

theorem keepBefore_changes {pt : Part → Bool} {s0 : State} (s : State) (via : Via) (index : Nat) (b : Before) (hK : Changes pt s0 s)
    (h_dict : pt .dict = true) : Changes pt s0 (keepBefore s via index b) := by
  unfold keepBefore
  repeat' (with_reducible first | assumption | apply keep_changes | intro _ | split)

theorem tellOutcome_changes {pt : Part → Bool} {s0 : State} (s : State) (index abort : Nat) (hK : Changes pt s0 s)
    (h_fed : pt .fed = true) (h_dict : pt .dict = true) : Changes pt s0 (tellOutcome s index abort) := by
  unfold tellOutcome
  repeat' (with_reducible first | assumption | apply unkeep_changes | apply send_changes | intro _ | split)

theorem forgetFirst_changes {pt : Part → Bool} {s0 : State} (s : State) (x : Xfer) (hK : Changes pt s0 s) (h_fed : pt .fed = true)
    (h_dict : pt .dict = true) : Changes pt s0 (forgetFirst s x) := by
  unfold forgetFirst
  repeat' (with_reducible first | assumption | apply tellOutcome_changes | intro _ | split)

theorem endTransfer_changes {pt : Part → Bool} {s0 : State} (s : State) (m detail : Nat) (hK : Changes pt s0 s)
    (h_tallies : pt .tallies = true) (h_fed : pt .fed = true) (h_dict : pt .dict = true) : Changes pt s0 (endTransfer s m detail) := by
  unfold endTransfer
  repeat' (with_reducible first
      | assumption | apply forgetFirst_changes | apply countAbort_changes | apply setMailbox_changes | refine Changes.fst ‹_› ?_
      | refine Changes.snd ‹_› ?_ | intro _ | extract_lets | split | dsimp +zetaDelta only | refine Changes.put ?_)

theorem asking_changes {pt : Part → Bool} {s0 : State} (s : State) (via : Via) (n : Nat) (hK : Changes pt s0 s)
    (h_dict : pt .dict = true) : Changes pt s0 (asking s via n) := by
  unfold asking
  repeat' (with_reducible first
      | assumption | apply setMailbox_changes | refine Changes.fst ‹_› ?_ | refine Changes.snd ‹_› ?_ | intro _ | split
      | refine Changes.put ?_)

theorem startWrite_changes {pt : Part → Bool} {s0 : State} (s : State) (via : Via) (index sub : Nat) (data : List Byte)
    (hK : Changes pt s0 s) (h_tallies : pt .tallies = true) (h_dict : pt .dict = true) : Changes pt s0
    (startWrite s via index sub data) := by
  unfold startWrite
  repeat' (with_reducible first
      | assumption | refine bump_tally _ _ ?_ (by assumption) (by decide) | refine bump_object _ _ ?_ (by assumption) (by decide)
      | refine bump_any _ _ ?_ (by assumption) (by assumption) | refine bumpBy_tally _ _ _ ?_ (by assumption) (by decide)
      | refine bumpBy_object _ _ _ ?_ (by assumption) (by decide) | refine bumpBy_any _ _ _ ?_ (by assumption) (by assumption)
      | apply asking_changes | apply setMailbox_changes | refine Changes.tally ?_ _ _ _ (by assumption) (by decide)
      | refine Changes.object ?_ _ _ _ (by assumption) (by decide) | refine Changes.any ?_ _ _ _ (by assumption) (by assumption)
      | refine Changes.fst ‹_› ?_ | refine Changes.snd ‹_› ?_ | intro _ | extract_lets | split | dsimp +zetaDelta only
      | refine Changes.put ?_)

theorem requestWrite_changes {pt : Part → Bool} {s0 : State} (effect : WriteEffect) (via : Via) (index sub : Nat) (data : List Byte)
    (s : State) (he : ∀ v i j d s, Changes pt s0 s → Changes pt s0 (effect v i j d s)) (hK : Changes pt s0 s)
    (h_tallies : pt .tallies = true) (h_fed : pt .fed = true) (h_dict : pt .dict = true) (h_trace : pt .trace = true) : Changes pt s0
    (requestWrite effect via index sub data s) := by
  unfold requestWrite
  repeat' (with_reducible first
      | assumption | refine bump_tally _ _ ?_ (by assumption) (by decide) | refine bump_object _ _ ?_ (by assumption) (by decide)
      | refine bump_any _ _ ?_ (by assumption) (by assumption) | refine bumpBy_tally _ _ _ ?_ (by assumption) (by decide)
      | refine bumpBy_object _ _ _ ?_ (by assumption) (by decide) | refine bumpBy_any _ _ _ ?_ (by assumption) (by assumption)
      | apply startWrite_changes | apply asking_changes | apply endTransfer_changes | apply dictWriteWith_changes
      | apply dictAbort_changes | refine Changes.tally ?_ _ _ _ (by assumption) (by decide)
      | refine Changes.object ?_ _ _ _ (by assumption) (by decide) | refine Changes.any ?_ _ _ _ (by assumption) (by assumption)
      | apply he | refine Changes.fst ‹_› ?_ | refine Changes.snd ‹_› ?_ | intro _ | extract_lets | split | dsimp +zetaDelta only)

theorem fedSend_changes {pt : Part → Bool} {s0 : State} (s : State) (ty dst : Nat) (payload : List Byte) (hK : Changes pt s0 s)
    (h_fed : pt .fed = true) : Changes pt s0 (fedSend s ty dst payload) := by
  unfold fedSend
  repeat' (with_reducible first | assumption | apply send_changes | intro _)

theorem sendPiece_changes {pt : Part → Bool} {s0 : State} (s : State) (piece : List Byte) (hK : Changes pt s0 s)
    (h_fed : pt .fed = true) : Changes pt s0 (sendPiece s piece) := by
  unfold sendPiece
  repeat' (with_reducible first | assumption | apply fedSend_changes | intro _ | refine Changes.put ?_)

theorem forward_changes {pt : Part → Bool} {s0 : State} (s : State) (index sub : Nat) (data : List Byte) (hK : Changes pt s0 s)
    (h_fed : pt .fed = true) : Changes pt s0 (forward s index sub data) := by
  unfold forward
  repeat' (with_reducible first
      | assumption | apply sendPiece_changes | apply Changes.foldl | apply Changes.foldlFst | apply Changes.foldlSnd | intro _
      | extract_lets | dsimp +zetaDelta only)

theorem packageDone_changes {pt : Part → Bool} {s0 : State} (s : State) (via : Via) (index sub : Nat) (data : List Byte)
    (hK : Changes pt s0 s) (h_tallies : pt .tallies = true) (h_fed : pt .fed = true) (h_dict : pt .dict = true) : Changes pt s0
    (packageDone s via index sub data) := by
  unfold packageDone
  repeat' (with_reducible first
      | assumption | apply forward_changes | apply dictDone_changes | intro _ | extract_lets | split | dsimp +zetaDelta only
      | refine Changes.put ?_)

theorem startLong_changes {pt : Part → Bool} {s0 : State} (s : State) (via : Via) (index sub : Nat) (data : List Byte) (package : Bool)
    (bits : Nat) (hK : Changes pt s0 s) (h_fed : pt .fed = true) (h_dict : pt .dict = true) : Changes pt s0
    (startLong s via index sub data package bits) := by
  unfold startLong
  repeat' (with_reducible first
      | assumption | apply forward_changes | intro _ | extract_lets | split | dsimp +zetaDelta only | refine Changes.put ?_)

theorem winAbortServed_changes {pt : Part → Bool} {s0 : State} (s : State) (m core : Nat) (hK : Changes pt s0 s)
    (h_tallies : pt .tallies = true) (h_dict : pt .dict = true) : Changes pt s0 (winAbortServed s m core) := by
  unfold winAbortServed
  repeat' (with_reducible first
      | assumption | apply dictDone_changes | apply setMailbox_changes | intro _ | extract_lets | split | dsimp +zetaDelta only
      | refine Changes.put ?_)

theorem serveWaits_changes {pt : Part → Bool} {s0 : State} (s : State) (via : Via) (hK : Changes pt s0 s)
    (h_tallies : pt .tallies = true) (h_dict : pt .dict = true) : Changes pt s0 (serveWaits s via) := by
  unfold serveWaits
  repeat' (with_reducible first
      | assumption | apply winAbortServed_changes | apply Changes.foldl | apply Changes.foldlFst | apply Changes.foldlSnd
      | refine Changes.fst ‹_› ?_ | refine Changes.snd ‹_› ?_ | intro _ | split)

theorem endLong_changes {pt : Part → Bool} {s0 : State} (s : State) (l : LongWrite) (hK : Changes pt s0 s)
    (h_tallies : pt .tallies = true) (h_fed : pt .fed = true) (h_dict : pt .dict = true) : Changes pt s0 (endLong s l) := by
  unfold endLong
  repeat' (with_reducible first
      | assumption | refine bump_tally _ _ ?_ (by assumption) (by decide) | refine bump_object _ _ ?_ (by assumption) (by decide)
      | refine bump_any _ _ ?_ (by assumption) (by assumption) | refine bumpBy_tally _ _ _ ?_ (by assumption) (by decide)
      | refine bumpBy_object _ _ _ ?_ (by assumption) (by decide) | refine bumpBy_any _ _ _ ?_ (by assumption) (by assumption)
      | apply serveWaits_changes | apply tellOutcome_changes | apply dictDone_changes | apply dictAbort_changes
      | refine Changes.tally ?_ _ _ _ (by assumption) (by decide) | refine Changes.object ?_ _ _ _ (by assumption) (by decide)
      | refine Changes.any ?_ _ _ _ (by assumption) (by assumption) | intro _ | extract_lets | split | dsimp +zetaDelta only
      | refine Changes.put ?_)

theorem localFinish_changes {pt : Part → Bool} {s0 : State} (s : State) (index sub abort : Nat) (hK : Changes pt s0 s)
    (h_tallies : pt .tallies = true) (h_fed : pt .fed = true) (h_dict : pt .dict = true) : Changes pt s0
    (localFinish s index sub abort) := by
  unfold localFinish
  repeat' (with_reducible first
      | assumption | apply endLong_changes | refine Changes.fst ‹_› ?_ | refine Changes.snd ‹_› ?_ | intro _ | extract_lets | split
      | dsimp +zetaDelta only | refine Changes.put ?_)

theorem packageEffect_changes {pt : Part → Bool} {s0 : State} (effect : WriteEffect) (x0 : Via) (x1 : Nat) (x2 : Nat) (x3 : List Byte)
    (s : State) (he : ∀ v i j d s, Changes pt s0 s → Changes pt s0 (effect v i j d s)) (hK : Changes pt s0 s)
    (h_tallies : pt .tallies = true) (h_dict : pt .dict = true) : Changes pt s0 (packageEffect effect x0 x1 x2 x3 s) := by
  unfold packageEffect
  repeat' (with_reducible first | assumption | apply dictAbort_changes | apply he | intro _ | split)

theorem storeEffect_changes {pt : Part → Bool} {s0 : State} (x0 : Via) (x1 : Nat) (x2 : Nat) (x3 : List Byte) (s : State)
    (hK : Changes pt s0 s) (h_objects : pt .objects = true) (h_tallies : pt .tallies = true) (h_dict : pt .dict = true) : Changes pt s0
    (storeEffect x0 x1 x2 x3 s) := by
  unfold storeEffect
  repeat' (with_reducible first
      | assumption | apply dictDone_changes | refine Changes.tally ?_ _ _ _ (by assumption) (by decide)
      | refine Changes.object ?_ _ _ _ (by assumption) (by decide) | refine Changes.any ?_ _ _ _ (by assumption) (by assumption)
      | intro _)

theorem storePackageEffect_changes {pt : Part → Bool} {s0 : State} (x0 : Via) (x1 : Nat) (x2 : Nat) (x3 : List Byte) (s : State)
    (hK : Changes pt s0 s) (h_objects : pt .objects = true) (h_tallies : pt .tallies = true) (h_fed : pt .fed = true)
    (h_dict : pt .dict = true) : Changes pt s0 (storePackageEffect x0 x1 x2 x3 s) := by
  unfold storePackageEffect
  repeat' (with_reducible first
      | assumption | apply packageEffect_changes | apply packageDone_changes
      | refine Changes.tally ?_ _ _ _ (by assumption) (by decide) | refine Changes.object ?_ _ _ _ (by assumption) (by decide)
      | refine Changes.any ?_ _ _ _ (by assumption) (by assumption) | intro _)

theorem claimEffect_changes {pt : Part → Bool} {s0 : State} (holder : Nat) (want : State → Nat → Nat → List Res) (after : WriteEffect)
    (x0 : Via) (x1 : Nat) (x2 : Nat) (x3 : List Byte) (s : State) (he : ∀ v i j d s, Changes pt s0 s → Changes pt s0 (after v i j d s))
    (hK : Changes pt s0 s) (h_tallies : pt .tallies = true) (h_dict : pt .dict = true) : Changes pt s0
    (claimEffect holder want after x0 x1 x2 x3 s) := by
  unfold claimEffect
  repeat' (with_reducible first
      | assumption | apply dictAbort_changes | apply claim_changes | apply he | refine Changes.fst ‹_› ?_ | refine Changes.snd ‹_› ?_
      | intro _ | split)

/-! ## Admission -/

theorem writeRecordState_changes {pt : Part → Bool} {s0 : State} (s : State) (addr slot status state : Nat) (hK : Changes pt s0 s)
    (h_devMem : pt .devMem = true) : Changes pt s0 (writeRecordState s addr slot status state) := by
  unfold writeRecordState
  repeat' (with_reducible first | assumption | apply memWrite_changes | intro _)

theorem raiseRefusal_changes {pt : Part → Bool} {s0 : State} (s : State) (code : Nat) (hK : Changes pt s0 s)
    (h_tallies : pt .tallies = true) (h_evt : pt .evt = true) (h_trace : pt .trace = true) : Changes pt s0 (raiseRefusal s code) := by
  unfold raiseRefusal
  repeat' (with_reducible first
      | assumption | refine bump_tally _ _ ?_ (by assumption) (by decide) | refine bump_object _ _ ?_ (by assumption) (by decide)
      | refine bump_any _ _ ?_ (by assumption) (by assumption) | refine bumpBy_tally _ _ _ ?_ (by assumption) (by decide)
      | refine bumpBy_object _ _ _ ?_ (by assumption) (by decide) | refine bumpBy_any _ _ _ ?_ (by assumption) (by assumption)
      | apply raiseErr_changes | apply fire_changes | refine Changes.tally ?_ _ _ _ (by assumption) (by decide)
      | refine Changes.object ?_ _ _ _ (by assumption) (by decide) | refine Changes.any ?_ _ _ _ (by assumption) (by assumption)
      | intro _ | extract_lets | split | dsimp +zetaDelta only)

theorem setUpJob_changes {pt : Part → Bool} {s0 : State} (s : State) (n addr : Nat) (a : Admission) (root : Bool) (hK : Changes pt s0 s)
    (h_slots : pt .slots = true) (h_pools : pt .pools = true) : Changes pt s0 (setUpJob s n addr a root) := by
  unfold setUpJob
  repeat' (with_reducible first
      | assumption | apply setPool_changes | apply setSlot_changes | apply Changes.foldl | apply Changes.foldlFst
      | apply Changes.foldlSnd | intro _ | extract_lets | split | dsimp +zetaDelta only | refine Changes.put ?_)

theorem enterJob_changes {pt : Part → Bool} {s0 : State} (s : State) (b : List Byte) (a : Admission) (addr : Nat) (root : Bool)
    (e : Elsewhere) (n : Nat) (hK : Changes pt s0 s) (h_tallies : pt .tallies = true) (h_devMem : pt .devMem = true)
    (h_slots : pt .slots = true) (h_pools : pt .pools = true) (h_fed : pt .fed = true) (h_evt : pt .evt = true)
    (h_trace : pt .trace = true) : Changes pt s0 (enterJob s b a addr root e n).2 := by
  unfold enterJob
  repeat' (with_reducible first
      | assumption | refine bump_tally _ _ ?_ (by assumption) (by decide) | refine bump_object _ _ ?_ (by assumption) (by decide)
      | refine bump_any _ _ ?_ (by assumption) (by assumption) | refine bumpBy_tally _ _ _ ?_ (by assumption) (by decide)
      | refine bumpBy_object _ _ _ ?_ (by assumption) (by decide) | refine bumpBy_any _ _ _ ?_ (by assumption) (by assumption)
      | apply setUpJob_changes | apply raiseRefusal_changes | apply writeRecordState_changes | apply send_changes
      | refine Changes.tally ?_ _ _ _ (by assumption) (by decide) | refine Changes.object ?_ _ _ _ (by assumption) (by decide)
      | refine Changes.any ?_ _ _ _ (by assumption) (by assumption) | intro _ | extract_lets | split | dsimp +zetaDelta only)

theorem joinJob_changes {pt : Part → Bool} {s0 : State} (s : State) (n addr : Nat) (hK : Changes pt s0 s) (h_drawn : pt .drawn = true)
    (h_tallies : pt .tallies = true) (h_slots : pt .slots = true) (h_pools : pt .pools = true) (h_evt : pt .evt = true)
    (h_trace : pt .trace = true) : Changes pt s0 (joinJob s n addr) := by
  unfold joinJob
  repeat' (with_reducible first
      | assumption | refine bump_tally _ _ ?_ (by assumption) (by decide) | refine bump_object _ _ ?_ (by assumption) (by decide)
      | refine bump_any _ _ ?_ (by assumption) (by assumption) | refine bumpBy_tally _ _ _ ?_ (by assumption) (by decide)
      | refine bumpBy_object _ _ _ ?_ (by assumption) (by decide) | refine bumpBy_any _ _ _ ?_ (by assumption) (by assumption)
      | apply setUpJob_changes | apply readMem_changes | refine Changes.tally ?_ _ _ _ (by assumption) (by decide)
      | refine Changes.object ?_ _ _ _ (by assumption) (by decide) | refine Changes.any ?_ _ _ _ (by assumption) (by assumption)
      | refine Changes.fst ‹_› ?_ | refine Changes.snd ‹_› ?_ | intro _ | extract_lets | split | dsimp +zetaDelta only)

theorem dropReservations_changes {pt : Part → Bool} {s0 : State} (s : State) (n : Nat) (hK : Changes pt s0 s)
    (h_pools : pt .pools = true) : Changes pt s0 (dropReservations s n) := by
  unfold dropReservations
  repeat' (with_reducible first
      | assumption | apply setPool_changes | apply Changes.foldl | apply Changes.foldlFst | apply Changes.foldlSnd | intro _
      | extract_lets | dsimp +zetaDelta only | refine Changes.put ?_)

theorem dropUser_changes {pt : Part → Bool} {s0 : State} (s : State) (n : Nat) (hK : Changes pt s0 s)
    (h_pairs : pt .pairs = true) : Changes pt s0 (dropUser s n) := by
  unfold dropUser
  repeat' (with_reducible first
      | assumption | apply setPair_changes | apply Changes.foldl | apply Changes.foldlFst | apply Changes.foldlSnd | intro _
      | extract_lets | split | dsimp +zetaDelta only | refine Changes.put ?_)

theorem recordEnd_changes {pt : Part → Bool} {s0 : State} (s : State) (n : Nat) (at_ : Option Nat) (state status : Nat)
    (hK : Changes pt s0 s) (h_devMem : pt .devMem = true) : Changes pt s0 (recordEnd s n at_ state status) := by
  unfold recordEnd
  repeat' (with_reducible first
      | assumption | apply writeRecordState_changes | refine Changes.fst ‹_› ?_ | refine Changes.snd ‹_› ?_ | intro _ | split)

theorem dropPoisoning_changes {pt : Part → Bool} {s0 : State} (s : State) (n : Nat) (hK : Changes pt s0 s)
    (h_dlv : pt .dlv = true) : Changes pt s0 (dropPoisoning s n) := by
  unfold dropPoisoning
  repeat' (with_reducible first
      | assumption | refine Changes.fst ‹_› ?_ | refine Changes.snd ‹_› ?_ | extract_lets | split | dsimp +zetaDelta only
      | refine Changes.put ?_)

theorem finishJob_changes {pt : Part → Bool} {s0 : State} (s : State) (n state status : Nat) (hK : Changes pt s0 s)
    (h_tallies : pt .tallies = true) (h_devMem : pt .devMem = true) (h_pairs : pt .pairs = true) (h_slots : pt .slots = true)
    (h_pools : pt .pools = true) (h_dlv : pt .dlv = true) (h_net : pt .net = true) (h_evt : pt .evt = true) : Changes pt s0
    (finishJob s n state status) := by
  unfold finishJob
  repeat' (with_reducible first
      | assumption | apply dropPoisoning_changes | apply recordEnd_changes | apply dropUser_changes | apply dropReservations_changes
      | apply fire_changes | apply setSlot_changes | intro _ | extract_lets | dsimp +zetaDelta only | refine Changes.put ?_)

theorem endJob_changes {pt : Part → Bool} {s0 : State} (s : State) (n state status : Nat) (hK : Changes pt s0 s)
    (h_objects : pt .objects = true) (h_tallies : pt .tallies = true) (h_devMem : pt .devMem = true) (h_pairs : pt .pairs = true)
    (h_slots : pt .slots = true) (h_cmds : pt .cmds = true) (h_pools : pt .pools = true) (h_dlv : pt .dlv = true)
    (h_net : pt .net = true) (h_evt : pt .evt = true) (h_trace : pt .trace = true) : Changes pt s0 (endJob s n state status) := by
  unfold endJob
  repeat' (with_reducible first
      | assumption | refine bump_tally _ _ ?_ (by assumption) (by decide) | refine bump_object _ _ ?_ (by assumption) (by decide)
      | refine bump_any _ _ ?_ (by assumption) (by assumption) | refine bumpBy_tally _ _ _ ?_ (by assumption) (by decide)
      | refine bumpBy_object _ _ _ ?_ (by assumption) (by decide) | refine bumpBy_any _ _ _ ?_ (by assumption) (by assumption)
      | apply finishJob_changes | apply freeBuffers_changes | apply setSlot_changes
      | refine Changes.tally ?_ _ _ _ (by assumption) (by decide) | refine Changes.object ?_ _ _ _ (by assumption) (by decide)
      | refine Changes.any ?_ _ _ _ (by assumption) (by assumption) | intro _ | extract_lets | split | dsimp +zetaDelta only
      | refine Changes.put ?_)

theorem endWaiting_changes {pt : Part → Bool} {s0 : State} (s : State) (n : Nat) (hK : Changes pt s0 s) (h_tallies : pt .tallies = true)
    (h_devMem : pt .devMem = true) (h_pairs : pt .pairs = true) (h_slots : pt .slots = true) (h_pools : pt .pools = true)
    (h_dlv : pt .dlv = true) (h_net : pt .net = true) (h_evt : pt .evt = true) : Changes pt s0 (endWaiting s n) := by
  unfold endWaiting
  repeat' (with_reducible first
      | assumption | apply finishJob_changes | refine Changes.fst ‹_› ?_ | refine Changes.snd ‹_› ?_ | intro _ | split)

/-! ## Sequencer -/

theorem takeCommand_changes {pt : Part → Bool} {s0 : State} (s : State) (n : Nat) (hK : Changes pt s0 s)
    (h_tallies : pt .tallies = true) (h_slots : pt .slots = true) (h_arbs : pt .arbs = true) : Changes pt s0 (takeCommand s n) := by
  unfold takeCommand
  repeat' (with_reducible first
      | assumption | refine bump_tally _ _ ?_ (by assumption) (by decide) | refine bump_object _ _ ?_ (by assumption) (by decide)
      | refine bump_any _ _ ?_ (by assumption) (by assumption) | refine bumpBy_tally _ _ _ ?_ (by assumption) (by decide)
      | refine bumpBy_object _ _ _ ?_ (by assumption) (by decide) | refine bumpBy_any _ _ _ ?_ (by assumption) (by assumption)
      | apply arbGrant_changes | apply setSlot_changes | refine Changes.tally ?_ _ _ _ (by assumption) (by decide)
      | refine Changes.object ?_ _ _ _ (by assumption) (by decide) | refine Changes.any ?_ _ _ _ (by assumption) (by assumption)
      | intro _ | extract_lets | dsimp +zetaDelta only | refine Changes.put ?_)

theorem fetchAs_changes {pt : Part → Bool} {s0 : State} (s : State) (n op : Nat) (effect : Nat → Nat → State → State)
    (he : ∀ a b s, Changes pt s0 s → Changes pt s0 (effect a b s)) (hK : Changes pt s0 s) (h_drawn : pt .drawn = true)
    (h_objects : pt .objects = true) (h_tallies : pt .tallies = true) (h_devMem : pt .devMem = true) (h_pairs : pt .pairs = true)
    (h_slots : pt .slots = true) (h_cmds : pt .cmds = true) (h_arbs : pt .arbs = true) (h_txa : pt .txa = true) (h_sdx : pt .sdx = true)
    (h_rsv : pt .rsv = true) (h_mdc : pt .mdc = true) (h_tok : pt .tok = true) (h_bat : pt .bat = true) (h_pools : pt .pools = true)
    (h_net : pt .net = true) (h_fed : pt .fed = true) (h_evt : pt .evt = true) (h_trace : pt .trace = true) : Changes pt s0
    (fetchAs s n op effect) := by
  unfold fetchAs
  repeat' (with_reducible first
      | assumption | apply takeCommand_changes | apply errFault_changes | apply he | intro _ | extract_lets | split
      | dsimp +zetaDelta only)

theorem execSeqCommand_changes {pt : Part → Bool} {s0 : State} (slot : Nat) (s : State) (hK : Changes pt s0 s)
    (h_drawn : pt .drawn = true) (h_objects : pt .objects = true) (h_tallies : pt .tallies = true) (h_devMem : pt .devMem = true)
    (h_pairs : pt .pairs = true) (h_slots : pt .slots = true) (h_cmds : pt .cmds = true) (h_arbs : pt .arbs = true)
    (h_txa : pt .txa = true) (h_sdx : pt .sdx = true) (h_rsv : pt .rsv = true) (h_mdc : pt .mdc = true) (h_tok : pt .tok = true)
    (h_bat : pt .bat = true) (h_pools : pt .pools = true) (h_net : pt .net = true) (h_fed : pt .fed = true) (h_evt : pt .evt = true)
    (h_trace : pt .trace = true) : ∃ t, execSeqCommand slot s = .next t ∧ Changes pt s0 t := by
  refine ⟨_, rfl, ?_⟩
  repeat' (with_reducible first | assumption | apply takeCommand_changes | apply errFault_changes | intro _ | split)

theorem enterLoop_changes {pt : Part → Bool} {s0 : State} (s : State) (n count stop : Nat) (hK : Changes pt s0 s)
    (h_slots : pt .slots = true) : Changes pt s0 (enterLoop s n count stop) := by
  unfold enterLoop
  repeat' (with_reducible first | assumption | apply modSlot_changes | intro _ | split | refine Changes.put ?_)

theorem execLoop_changes {pt : Part → Bool} {s0 : State} (slot : Nat) (s : State) (hK : Changes pt s0 s) (h_drawn : pt .drawn = true)
    (h_objects : pt .objects = true) (h_tallies : pt .tallies = true) (h_devMem : pt .devMem = true) (h_pairs : pt .pairs = true)
    (h_slots : pt .slots = true) (h_cmds : pt .cmds = true) (h_arbs : pt .arbs = true) (h_txa : pt .txa = true) (h_sdx : pt .sdx = true)
    (h_rsv : pt .rsv = true) (h_mdc : pt .mdc = true) (h_tok : pt .tok = true) (h_bat : pt .bat = true) (h_pools : pt .pools = true)
    (h_net : pt .net = true) (h_fed : pt .fed = true) (h_evt : pt .evt = true)
    (h_trace : pt .trace = true) : ∃ t, execLoop slot s = .next t ∧ Changes pt s0 t := by
  refine ⟨_, rfl, ?_⟩
  repeat' (with_reducible first
      | assumption | apply enterLoop_changes | apply fetchAs_changes | apply errFault_changes | apply modSlot_changes | intro _
      | extract_lets | split | dsimp +zetaDelta only | refine Changes.put ?_)

theorem execLoopCountReturn_changes {pt : Part → Bool} {s0 : State} (slot : Nat) (s : State) (hK : Changes pt s0 s)
    (h_drawn : pt .drawn = true) (h_tallies : pt .tallies = true) (h_slots : pt .slots = true) (h_evt : pt .evt = true)
    (h_trace : pt .trace = true) : ∃ t, execLoopCountReturn slot s = .next t ∧ Changes pt s0 t := by
  refine ⟨_, rfl, ?_⟩
  repeat' (with_reducible first
      | assumption | apply enterLoop_changes | apply readMem_changes | refine Changes.fst ‹_› ?_ | refine Changes.snd ‹_› ?_ | intro _
      | extract_lets | split | dsimp +zetaDelta only)

theorem execEndloop_changes {pt : Part → Bool} {s0 : State} (slot : Nat) (s : State) (hK : Changes pt s0 s) (h_drawn : pt .drawn = true)
    (h_objects : pt .objects = true) (h_tallies : pt .tallies = true) (h_devMem : pt .devMem = true) (h_pairs : pt .pairs = true)
    (h_slots : pt .slots = true) (h_cmds : pt .cmds = true) (h_arbs : pt .arbs = true) (h_txa : pt .txa = true) (h_sdx : pt .sdx = true)
    (h_rsv : pt .rsv = true) (h_mdc : pt .mdc = true) (h_tok : pt .tok = true) (h_bat : pt .bat = true) (h_pools : pt .pools = true)
    (h_net : pt .net = true) (h_fed : pt .fed = true) (h_evt : pt .evt = true)
    (h_trace : pt .trace = true) : ∃ t, execEndloop slot s = .next t ∧ Changes pt s0 t := by
  refine ⟨_, rfl, ?_⟩
  repeat' (with_reducible first
      | assumption | apply fetchAs_changes | apply errFault_changes | apply modSlot_changes | refine Changes.fst ‹_› ?_
      | refine Changes.snd ‹_› ?_ | intro _ | split | refine Changes.put ?_)

theorem execJump_changes {pt : Part → Bool} {s0 : State} (slot : Nat) (s : State) (hK : Changes pt s0 s) (h_drawn : pt .drawn = true)
    (h_objects : pt .objects = true) (h_tallies : pt .tallies = true) (h_devMem : pt .devMem = true) (h_pairs : pt .pairs = true)
    (h_slots : pt .slots = true) (h_cmds : pt .cmds = true) (h_arbs : pt .arbs = true) (h_txa : pt .txa = true) (h_sdx : pt .sdx = true)
    (h_rsv : pt .rsv = true) (h_mdc : pt .mdc = true) (h_tok : pt .tok = true) (h_bat : pt .bat = true) (h_pools : pt .pools = true)
    (h_net : pt .net = true) (h_fed : pt .fed = true) (h_evt : pt .evt = true)
    (h_trace : pt .trace = true) : ∃ t, execJump slot s = .next t ∧ Changes pt s0 t := by
  refine ⟨_, rfl, ?_⟩
  repeat' (with_reducible first
      | assumption | apply fetchAs_changes | apply errFault_changes | apply modSlot_changes | refine Changes.fst ‹_› ?_
      | refine Changes.snd ‹_› ?_ | intro _ | extract_lets | split | dsimp +zetaDelta only | refine Changes.put ?_)

theorem execSwitch_changes {pt : Part → Bool} {s0 : State} (slot : Nat) (s : State) (hK : Changes pt s0 s) (h_drawn : pt .drawn = true)
    (h_objects : pt .objects = true) (h_tallies : pt .tallies = true) (h_devMem : pt .devMem = true) (h_pairs : pt .pairs = true)
    (h_slots : pt .slots = true) (h_cmds : pt .cmds = true) (h_arbs : pt .arbs = true) (h_txa : pt .txa = true) (h_sdx : pt .sdx = true)
    (h_rsv : pt .rsv = true) (h_mdc : pt .mdc = true) (h_tok : pt .tok = true) (h_bat : pt .bat = true) (h_pools : pt .pools = true)
    (h_net : pt .net = true) (h_fed : pt .fed = true) (h_evt : pt .evt = true)
    (h_trace : pt .trace = true) : ∃ t, execSwitch slot s = .next t ∧ Changes pt s0 t := by
  refine ⟨_, rfl, ?_⟩
  repeat' (with_reducible first
      | assumption | apply fetchAs_changes | apply errFault_changes | apply modSlot_changes | intro _ | split | refine Changes.put ?_)

theorem execHalt_changes {pt : Part → Bool} {s0 : State} (slot : Nat) (s : State) (hK : Changes pt s0 s) (h_drawn : pt .drawn = true)
    (h_objects : pt .objects = true) (h_tallies : pt .tallies = true) (h_devMem : pt .devMem = true) (h_pairs : pt .pairs = true)
    (h_slots : pt .slots = true) (h_cmds : pt .cmds = true) (h_arbs : pt .arbs = true) (h_txa : pt .txa = true) (h_sdx : pt .sdx = true)
    (h_rsv : pt .rsv = true) (h_mdc : pt .mdc = true) (h_tok : pt .tok = true) (h_bat : pt .bat = true) (h_pools : pt .pools = true)
    (h_net : pt .net = true) (h_fed : pt .fed = true) (h_evt : pt .evt = true)
    (h_trace : pt .trace = true) : ∃ t, execHalt slot s = .next t ∧ Changes pt s0 t := by
  refine ⟨_, rfl, ?_⟩
  repeat' (with_reducible first
      | assumption | apply fetchAs_changes | apply releaseUntaken_changes | apply stageEnds_changes | apply modStage_changes
      | apply modSlot_changes | apply Changes.foldl | apply Changes.foldlFst | apply Changes.foldlSnd | intro _ | extract_lets
      | dsimp +zetaDelta only | refine Changes.put ?_)

theorem askNext_changes {pt : Part → Bool} {s0 : State} (s : State) (n q : Nat) (hK : Changes pt s0 s) (h_tallies : pt .tallies = true)
    (h_pairs : pt .pairs = true) (h_cmds : pt .cmds = true) (h_bat : pt .bat = true) (h_net : pt .net = true)
    (h_trace : pt .trace = true) : Changes pt s0 (askNext s n q) := by
  unfold askNext
  repeat' (with_reducible first
      | assumption | apply modCmd_changes | apply semWait_changes | refine Changes.fst ‹_› ?_ | refine Changes.snd ‹_› ?_ | intro _
      | extract_lets | split | dsimp +zetaDelta only | refine Changes.put ?_)

theorem enqueueAs_changes {pt : Part → Bool} {s0 : State} (s : State) (n op : Nat) (fits : Nat → Bool) (hK : Changes pt s0 s)
    (h_drawn : pt .drawn = true) (h_objects : pt .objects = true) (h_tallies : pt .tallies = true) (h_devMem : pt .devMem = true)
    (h_pairs : pt .pairs = true) (h_slots : pt .slots = true) (h_cmds : pt .cmds = true) (h_seq : pt .seq = true)
    (h_arbs : pt .arbs = true) (h_txa : pt .txa = true) (h_sdx : pt .sdx = true) (h_rsv : pt .rsv = true) (h_mdc : pt .mdc = true)
    (h_tok : pt .tok = true) (h_bat : pt .bat = true) (h_pools : pt .pools = true) (h_net : pt .net = true) (h_fed : pt .fed = true)
    (h_evt : pt .evt = true) (h_trace : pt .trace = true) : Changes pt s0 (enqueueAs s n op fits) := by
  unfold enqueueAs
  repeat' (with_reducible first
      | assumption | apply askNext_changes | apply takeCommand_changes | apply errFault_changes | intro _ | extract_lets | split
      | dsimp +zetaDelta only | refine Changes.put ?_)

theorem execWaitSemaphore_changes {pt : Part → Bool} {s0 : State} (slot : Nat) (s : State) (hK : Changes pt s0 s)
    (h_drawn : pt .drawn = true) (h_objects : pt .objects = true) (h_tallies : pt .tallies = true) (h_devMem : pt .devMem = true)
    (h_pairs : pt .pairs = true) (h_slots : pt .slots = true) (h_cmds : pt .cmds = true) (h_seq : pt .seq = true)
    (h_arbs : pt .arbs = true) (h_txa : pt .txa = true) (h_sdx : pt .sdx = true) (h_rsv : pt .rsv = true) (h_mdc : pt .mdc = true)
    (h_tok : pt .tok = true) (h_bat : pt .bat = true) (h_pools : pt .pools = true) (h_net : pt .net = true) (h_fed : pt .fed = true)
    (h_evt : pt .evt = true) (h_trace : pt .trace = true) : ∃ t, execWaitSemaphore slot s = .next t ∧ Changes pt s0 t := by
  refine ⟨_, rfl, ?_⟩
  repeat' (with_reducible first | assumption | apply enqueueAs_changes | intro _)

theorem execWaitBarrier_changes {pt : Part → Bool} {s0 : State} (slot : Nat) (s : State) (hK : Changes pt s0 s)
    (h_drawn : pt .drawn = true) (h_objects : pt .objects = true) (h_tallies : pt .tallies = true) (h_devMem : pt .devMem = true)
    (h_pairs : pt .pairs = true) (h_slots : pt .slots = true) (h_cmds : pt .cmds = true) (h_seq : pt .seq = true)
    (h_arbs : pt .arbs = true) (h_txa : pt .txa = true) (h_sdx : pt .sdx = true) (h_rsv : pt .rsv = true) (h_mdc : pt .mdc = true)
    (h_tok : pt .tok = true) (h_bat : pt .bat = true) (h_pools : pt .pools = true) (h_net : pt .net = true) (h_fed : pt .fed = true)
    (h_evt : pt .evt = true) (h_trace : pt .trace = true) : ∃ t, execWaitBarrier slot s = .next t ∧ Changes pt s0 t := by
  refine ⟨_, rfl, ?_⟩
  repeat' (with_reducible first | assumption | apply enqueueAs_changes | intro _)

theorem execWaitTime_changes {pt : Part → Bool} {s0 : State} (slot : Nat) (s : State) (hK : Changes pt s0 s)
    (h_drawn : pt .drawn = true) (h_objects : pt .objects = true) (h_tallies : pt .tallies = true) (h_devMem : pt .devMem = true)
    (h_pairs : pt .pairs = true) (h_slots : pt .slots = true) (h_cmds : pt .cmds = true) (h_seq : pt .seq = true)
    (h_arbs : pt .arbs = true) (h_txa : pt .txa = true) (h_sdx : pt .sdx = true) (h_rsv : pt .rsv = true) (h_mdc : pt .mdc = true)
    (h_tok : pt .tok = true) (h_bat : pt .bat = true) (h_pools : pt .pools = true) (h_net : pt .net = true) (h_fed : pt .fed = true)
    (h_evt : pt .evt = true) (h_trace : pt .trace = true) : ∃ t, execWaitTime slot s = .next t ∧ Changes pt s0 t := by
  refine ⟨_, rfl, ?_⟩
  repeat' (with_reducible first | assumption | apply enqueueAs_changes | intro _)

theorem execSignal_changes {pt : Part → Bool} {s0 : State} (src : SignalSource) (s : State) (hK : Changes pt s0 s)
    (h_drawn : pt .drawn = true) (h_objects : pt .objects = true) (h_tallies : pt .tallies = true) (h_devMem : pt .devMem = true)
    (h_pairs : pt .pairs = true) (h_slots : pt .slots = true) (h_cmds : pt .cmds = true) (h_seq : pt .seq = true)
    (h_arbs : pt .arbs = true) (h_txa : pt .txa = true) (h_sdx : pt .sdx = true) (h_rsv : pt .rsv = true) (h_mdc : pt .mdc = true)
    (h_tok : pt .tok = true) (h_bat : pt .bat = true) (h_pools : pt .pools = true) (h_net : pt .net = true) (h_fed : pt .fed = true)
    (h_evt : pt .evt = true) (h_trace : pt .trace = true) : ∃ t, execSignal src s = .next t ∧ Changes pt s0 t := by
  refine ⟨_, rfl, ?_⟩
  repeat' (with_reducible first
      | assumption | apply enqueueAs_changes | apply semSignal_changes | refine Changes.fst ‹_› ?_ | refine Changes.snd ‹_› ?_
      | intro _ | split)

theorem execTxaItem_changes {pt : Part → Bool} {s0 : State} (slot : Nat) (s : State) (hK : Changes pt s0 s) (h_drawn : pt .drawn = true)
    (h_objects : pt .objects = true) (h_tallies : pt .tallies = true) (h_devMem : pt .devMem = true) (h_pairs : pt .pairs = true)
    (h_slots : pt .slots = true) (h_cmds : pt .cmds = true) (h_seq : pt .seq = true) (h_arbs : pt .arbs = true) (h_txa : pt .txa = true)
    (h_sdx : pt .sdx = true) (h_rsv : pt .rsv = true) (h_mdc : pt .mdc = true) (h_tok : pt .tok = true) (h_bat : pt .bat = true)
    (h_pools : pt .pools = true) (h_net : pt .net = true) (h_fed : pt .fed = true) (h_evt : pt .evt = true)
    (h_trace : pt .trace = true) : ∃ t, execTxaItem slot s = .next t ∧ Changes pt s0 t := by
  refine ⟨_, rfl, ?_⟩
  repeat' (with_reducible first | assumption | apply enqueueAs_changes | intro _)

theorem execForgeItem_changes {pt : Part → Bool} {s0 : State} (slot : Nat) (s : State) (hK : Changes pt s0 s)
    (h_drawn : pt .drawn = true) (h_objects : pt .objects = true) (h_tallies : pt .tallies = true) (h_devMem : pt .devMem = true)
    (h_pairs : pt .pairs = true) (h_slots : pt .slots = true) (h_cmds : pt .cmds = true) (h_seq : pt .seq = true)
    (h_arbs : pt .arbs = true) (h_txa : pt .txa = true) (h_sdx : pt .sdx = true) (h_rsv : pt .rsv = true) (h_mdc : pt .mdc = true)
    (h_tok : pt .tok = true) (h_bat : pt .bat = true) (h_pools : pt .pools = true) (h_net : pt .net = true) (h_fed : pt .fed = true)
    (h_evt : pt .evt = true) (h_trace : pt .trace = true) : ∃ t, execForgeItem slot s = .next t ∧ Changes pt s0 t := by
  refine ⟨_, rfl, ?_⟩
  repeat' (with_reducible first | assumption | apply enqueueAs_changes | intro _)

theorem execDeliver_changes {pt : Part → Bool} {s0 : State} (slot : Nat) (s : State) (hK : Changes pt s0 s) (h_drawn : pt .drawn = true)
    (h_objects : pt .objects = true) (h_tallies : pt .tallies = true) (h_devMem : pt .devMem = true) (h_pairs : pt .pairs = true)
    (h_slots : pt .slots = true) (h_cmds : pt .cmds = true) (h_seq : pt .seq = true) (h_arbs : pt .arbs = true) (h_txa : pt .txa = true)
    (h_sdx : pt .sdx = true) (h_rsv : pt .rsv = true) (h_mdc : pt .mdc = true) (h_tok : pt .tok = true) (h_bat : pt .bat = true)
    (h_pools : pt .pools = true) (h_net : pt .net = true) (h_fed : pt .fed = true) (h_evt : pt .evt = true)
    (h_trace : pt .trace = true) : ∃ t, execDeliver slot s = .next t ∧ Changes pt s0 t := by
  refine ⟨_, rfl, ?_⟩
  repeat' (with_reducible first | assumption | apply enqueueAs_changes | intro _)

theorem execKeyRegister_changes {pt : Part → Bool} {s0 : State} (slot : Nat) (s : State) (hK : Changes pt s0 s)
    (h_drawn : pt .drawn = true) (h_objects : pt .objects = true) (h_tallies : pt .tallies = true) (h_devMem : pt .devMem = true)
    (h_pairs : pt .pairs = true) (h_slots : pt .slots = true) (h_cmds : pt .cmds = true) (h_seq : pt .seq = true)
    (h_arbs : pt .arbs = true) (h_txa : pt .txa = true) (h_sdx : pt .sdx = true) (h_rsv : pt .rsv = true) (h_mdc : pt .mdc = true)
    (h_tok : pt .tok = true) (h_bat : pt .bat = true) (h_pools : pt .pools = true) (h_net : pt .net = true) (h_fed : pt .fed = true)
    (h_evt : pt .evt = true) (h_trace : pt .trace = true) : ∃ t, execKeyRegister slot s = .next t ∧ Changes pt s0 t := by
  refine ⟨_, rfl, ?_⟩
  repeat' (with_reducible first | assumption | apply enqueueAs_changes | intro _)

theorem execKeyStream_changes {pt : Part → Bool} {s0 : State} (slot : Nat) (s : State) (hK : Changes pt s0 s)
    (h_drawn : pt .drawn = true) (h_objects : pt .objects = true) (h_tallies : pt .tallies = true) (h_devMem : pt .devMem = true)
    (h_pairs : pt .pairs = true) (h_slots : pt .slots = true) (h_cmds : pt .cmds = true) (h_seq : pt .seq = true)
    (h_arbs : pt .arbs = true) (h_txa : pt .txa = true) (h_sdx : pt .sdx = true) (h_rsv : pt .rsv = true) (h_mdc : pt .mdc = true)
    (h_tok : pt .tok = true) (h_bat : pt .bat = true) (h_pools : pt .pools = true) (h_net : pt .net = true) (h_fed : pt .fed = true)
    (h_evt : pt .evt = true) (h_trace : pt .trace = true) : ∃ t, execKeyStream slot s = .next t ∧ Changes pt s0 t := by
  refine ⟨_, rfl, ?_⟩
  repeat' (with_reducible first | assumption | apply enqueueAs_changes | intro _)

theorem execIngestStage_changes {pt : Part → Bool} {s0 : State} (slot : Nat) (s : State) (hK : Changes pt s0 s)
    (h_drawn : pt .drawn = true) (h_objects : pt .objects = true) (h_tallies : pt .tallies = true) (h_devMem : pt .devMem = true)
    (h_pairs : pt .pairs = true) (h_slots : pt .slots = true) (h_cmds : pt .cmds = true) (h_seq : pt .seq = true)
    (h_arbs : pt .arbs = true) (h_txa : pt .txa = true) (h_sdx : pt .sdx = true) (h_rsv : pt .rsv = true) (h_mdc : pt .mdc = true)
    (h_tok : pt .tok = true) (h_bat : pt .bat = true) (h_pools : pt .pools = true) (h_net : pt .net = true) (h_fed : pt .fed = true)
    (h_evt : pt .evt = true) (h_trace : pt .trace = true) : ∃ t, execIngestStage slot s = .next t ∧ Changes pt s0 t := by
  refine ⟨_, rfl, ?_⟩
  repeat' (with_reducible first | assumption | apply enqueueAs_changes | intro _)

theorem execBatchStage_changes {pt : Part → Bool} {s0 : State} (slot : Nat) (s : State) (hK : Changes pt s0 s)
    (h_drawn : pt .drawn = true) (h_objects : pt .objects = true) (h_tallies : pt .tallies = true) (h_devMem : pt .devMem = true)
    (h_pairs : pt .pairs = true) (h_slots : pt .slots = true) (h_cmds : pt .cmds = true) (h_seq : pt .seq = true)
    (h_arbs : pt .arbs = true) (h_txa : pt .txa = true) (h_sdx : pt .sdx = true) (h_rsv : pt .rsv = true) (h_mdc : pt .mdc = true)
    (h_tok : pt .tok = true) (h_bat : pt .bat = true) (h_pools : pt .pools = true) (h_net : pt .net = true) (h_fed : pt .fed = true)
    (h_evt : pt .evt = true) (h_trace : pt .trace = true) : ∃ t, execBatchStage slot s = .next t ∧ Changes pt s0 t := by
  refine ⟨_, rfl, ?_⟩
  repeat' (with_reducible first | assumption | apply enqueueAs_changes | intro _)

theorem execFetch_changes {pt : Part → Bool} {s0 : State} (slot : Nat) (s : State) (hK : Changes pt s0 s) (h_drawn : pt .drawn = true)
    (h_objects : pt .objects = true) (h_tallies : pt .tallies = true) (h_devMem : pt .devMem = true) (h_pairs : pt .pairs = true)
    (h_slots : pt .slots = true) (h_cmds : pt .cmds = true) (h_seq : pt .seq = true) (h_arbs : pt .arbs = true) (h_txa : pt .txa = true)
    (h_sdx : pt .sdx = true) (h_rsv : pt .rsv = true) (h_mdc : pt .mdc = true) (h_tok : pt .tok = true) (h_bat : pt .bat = true)
    (h_pools : pt .pools = true) (h_net : pt .net = true) (h_fed : pt .fed = true) (h_evt : pt .evt = true)
    (h_trace : pt .trace = true) : ∃ t, execFetch slot s = .next t ∧ Changes pt s0 t := by
  refine ⟨_, rfl, ?_⟩
  repeat' (with_reducible first | assumption | apply enqueueAs_changes | intro _)

theorem execAlloc_changes {pt : Part → Bool} {s0 : State} (slot : Nat) (s : State) (hK : Changes pt s0 s) (h_drawn : pt .drawn = true)
    (h_objects : pt .objects = true) (h_tallies : pt .tallies = true) (h_devMem : pt .devMem = true) (h_pairs : pt .pairs = true)
    (h_slots : pt .slots = true) (h_cmds : pt .cmds = true) (h_seq : pt .seq = true) (h_arbs : pt .arbs = true) (h_txa : pt .txa = true)
    (h_sdx : pt .sdx = true) (h_rsv : pt .rsv = true) (h_mdc : pt .mdc = true) (h_tok : pt .tok = true) (h_bat : pt .bat = true)
    (h_pools : pt .pools = true) (h_net : pt .net = true) (h_fed : pt .fed = true) (h_evt : pt .evt = true)
    (h_trace : pt .trace = true) : ∃ t, execAlloc slot s = .next t ∧ Changes pt s0 t := by
  refine ⟨_, rfl, ?_⟩
  repeat' (with_reducible first | assumption | apply enqueueAs_changes | intro _)

theorem execFree_changes {pt : Part → Bool} {s0 : State} (slot : Nat) (s : State) (hK : Changes pt s0 s) (h_drawn : pt .drawn = true)
    (h_objects : pt .objects = true) (h_tallies : pt .tallies = true) (h_devMem : pt .devMem = true) (h_pairs : pt .pairs = true)
    (h_slots : pt .slots = true) (h_cmds : pt .cmds = true) (h_seq : pt .seq = true) (h_arbs : pt .arbs = true) (h_txa : pt .txa = true)
    (h_sdx : pt .sdx = true) (h_rsv : pt .rsv = true) (h_mdc : pt .mdc = true) (h_tok : pt .tok = true) (h_bat : pt .bat = true)
    (h_pools : pt .pools = true) (h_net : pt .net = true) (h_fed : pt .fed = true) (h_evt : pt .evt = true)
    (h_trace : pt .trace = true) : ∃ t, execFree slot s = .next t ∧ Changes pt s0 t := by
  refine ⟨_, rfl, ?_⟩
  repeat' (with_reducible first | assumption | apply enqueueAs_changes | intro _)

theorem execWaitTimeExpiry_changes {pt : Part → Bool} {s0 : State} (slot queue : Nat) (s : State) (hK : Changes pt s0 s)
    (h_cmds : pt .cmds = true) : ∃ t, execWaitTimeExpiry slot queue s = .next t ∧ Changes pt s0 t := by
  refine ⟨_, rfl, ?_⟩
  repeat' (with_reducible first
      | assumption | apply finishCmd_changes | refine Changes.fst ‹_› ?_ | refine Changes.snd ‹_› ?_ | intro _ | split)

theorem completeCmd_changes {pt : Part → Bool} {s0 : State} (s : State) (c : Cmd) (hK : Changes pt s0 s) (h_drawn : pt .drawn = true)
    (h_objects : pt .objects = true) (h_tallies : pt .tallies = true) (h_devMem : pt .devMem = true) (h_pairs : pt .pairs = true)
    (h_slots : pt .slots = true) (h_cmds : pt .cmds = true) (h_txa : pt .txa = true) (h_sdx : pt .sdx = true) (h_rsv : pt .rsv = true)
    (h_mdc : pt .mdc = true) (h_tok : pt .tok = true) (h_bat : pt .bat = true) (h_pools : pt .pools = true) (h_dlv : pt .dlv = true)
    (h_net : pt .net = true) (h_fed : pt .fed = true) (h_evt : pt .evt = true) (h_trace : pt .trace = true) : Changes pt s0
    (completeCmd s c) := by
  unfold completeCmd
  repeat' (with_reducible first
      | assumption | apply writeRecord_changes | apply pushEntry_changes | apply semSignal_changes | apply traceRec_changes
      | refine Changes.fst ‹_› ?_ | refine Changes.snd ‹_› ?_ | intro _ | extract_lets | split | dsimp +zetaDelta only
      | refine Changes.put ?_)

theorem execCommandComplete_changes {pt : Part → Bool} {s0 : State} (slot queue : Nat) (s : State) (hK : Changes pt s0 s)
    (h_drawn : pt .drawn = true) (h_objects : pt .objects = true) (h_tallies : pt .tallies = true) (h_devMem : pt .devMem = true)
    (h_pairs : pt .pairs = true) (h_slots : pt .slots = true) (h_cmds : pt .cmds = true) (h_txa : pt .txa = true)
    (h_sdx : pt .sdx = true) (h_rsv : pt .rsv = true) (h_mdc : pt .mdc = true) (h_tok : pt .tok = true) (h_bat : pt .bat = true)
    (h_pools : pt .pools = true) (h_dlv : pt .dlv = true) (h_net : pt .net = true) (h_fed : pt .fed = true) (h_evt : pt .evt = true)
    (h_trace : pt .trace = true) : ∃ t, execCommandComplete slot queue s = .next t ∧ Changes pt s0 t := by
  refine ⟨_, rfl, ?_⟩
  repeat' (with_reducible first
      | assumption | apply completeCmd_changes | refine Changes.fst ‹_› ?_ | refine Changes.snd ‹_› ?_ | intro _ | split)

theorem execFetchlist_changes {pt : Part → Bool} {s0 : State} (slot : Nat) (s : State) (hK : Changes pt s0 s)
    (h_drawn : pt .drawn = true) (h_objects : pt .objects = true) (h_tallies : pt .tallies = true) (h_devMem : pt .devMem = true)
    (h_pairs : pt .pairs = true) (h_slots : pt .slots = true) (h_cmds : pt .cmds = true) (h_arbs : pt .arbs = true)
    (h_txa : pt .txa = true) (h_sdx : pt .sdx = true) (h_rsv : pt .rsv = true) (h_mdc : pt .mdc = true) (h_tok : pt .tok = true)
    (h_bat : pt .bat = true) (h_pools : pt .pools = true) (h_net : pt .net = true) (h_fed : pt .fed = true) (h_evt : pt .evt = true)
    (h_trace : pt .trace = true) : ∃ t, execFetchlist slot s = .next t ∧ Changes pt s0 t := by
  refine ⟨_, rfl, ?_⟩
  repeat' (with_reducible first
      | assumption | apply fetchAs_changes | apply errFault_changes | apply modSlot_changes | intro _ | split | refine Changes.put ?_)

theorem endList_changes {pt : Part → Bool} {s0 : State} (s : State) (n : Nat) (hK : Changes pt s0 s)
    (h_slots : pt .slots = true) : Changes pt s0 (endList s n) := by
  unfold endList
  repeat' (with_reducible first | assumption | apply modSlot_changes | intro _ | refine Changes.put ?_)

theorem execJoblistRecordReturn_changes {pt : Part → Bool} {s0 : State} (slot : Nat) (elsewhere : Elsewhere) (s : State)
    (hK : Changes pt s0 s) (h_drawn : pt .drawn = true) (h_objects : pt .objects = true) (h_tallies : pt .tallies = true)
    (h_devMem : pt .devMem = true) (h_slots : pt .slots = true) (h_pools : pt .pools = true) (h_fed : pt .fed = true)
    (h_evt : pt .evt = true)
    (h_trace : pt .trace = true) : ∃ t, execJoblistRecordReturn slot elsewhere s = .next t ∧ Changes pt s0 t := by
  refine ⟨_, rfl, ?_⟩
  repeat' (with_reducible first
      | assumption | refine bump_tally _ _ ?_ (by assumption) (by decide) | refine bump_object _ _ ?_ (by assumption) (by decide)
      | refine bump_any _ _ ?_ (by assumption) (by assumption) | refine bumpBy_tally _ _ _ ?_ (by assumption) (by decide)
      | refine bumpBy_object _ _ _ ?_ (by assumption) (by decide) | refine bumpBy_any _ _ _ ?_ (by assumption) (by assumption)
      | apply endList_changes | apply enterJob_changes | apply readMem_changes | apply modSlot_changes
      | refine Changes.tally ?_ _ _ _ (by assumption) (by decide) | refine Changes.object ?_ _ _ _ (by assumption) (by decide)
      | refine Changes.any ?_ _ _ _ (by assumption) (by assumption) | refine Changes.fst ‹_› ?_ | refine Changes.snd ‹_› ?_ | intro _
      | extract_lets | split | dsimp +zetaDelta only | refine Changes.put ?_)

theorem rootStartEffect_changes {pt : Part → Bool} {s0 : State} (elsewhere : Elsewhere) (x0 : Via) (x1 : Nat) (x2 : Nat)
    (x3 : List Byte) (s : State) (hK : Changes pt s0 s) (h_drawn : pt .drawn = true) (h_tallies : pt .tallies = true)
    (h_devMem : pt .devMem = true) (h_slots : pt .slots = true) (h_seq : pt .seq = true) (h_pools : pt .pools = true)
    (h_fed : pt .fed = true) (h_dict : pt .dict = true) (h_evt : pt .evt = true) (h_trace : pt .trace = true) : Changes pt s0
    (rootStartEffect elsewhere x0 x1 x2 x3 s) := by
  unfold rootStartEffect
  repeat' (with_reducible first
      | assumption | apply enterJob_changes | apply dictDone_changes | apply dictAbort_changes | apply readMem_changes
      | refine Changes.fst ‹_› ?_ | refine Changes.snd ‹_› ?_ | intro _ | extract_lets | split | dsimp +zetaDelta only
      | refine Changes.put ?_)

theorem execRootStart_changes {pt : Part → Bool} {s0 : State} (via : Via) (value : Nat) (elsewhere : Elsewhere) (s : State)
    (hK : Changes pt s0 s) (h_drawn : pt .drawn = true) (h_tallies : pt .tallies = true) (h_devMem : pt .devMem = true)
    (h_slots : pt .slots = true) (h_seq : pt .seq = true) (h_pools : pt .pools = true) (h_fed : pt .fed = true)
    (h_dict : pt .dict = true) (h_evt : pt .evt = true)
    (h_trace : pt .trace = true) : ∃ t, execRootStart via value elsewhere s = .next t ∧ Changes pt s0 t := by
  refine ⟨_, rfl, ?_⟩
  repeat' (with_reducible first
      | assumption | apply rootStartEffect_changes | apply joinJob_changes | apply requestWrite_changes | intro _ | split)

theorem resumeParked_changes {pt : Part → Bool} {s0 : State} (s : State) (hK : Changes pt s0 s)
    (h_slots : pt .slots = true) : Changes pt s0 (resumeParked s) := by
  unfold resumeParked
  repeat' (with_reducible first
      | assumption | apply setSlot_changes | apply Changes.foldl | apply Changes.foldlFst | apply Changes.foldlSnd | intro _
      | extract_lets | split | dsimp +zetaDelta only | refine Changes.put ?_)

theorem disarm_changes {pt : Part → Bool} {s0 : State} (s : State) (hK : Changes pt s0 s) (h_slots : pt .slots = true)
    (h_seq : pt .seq = true) (h_dict : pt .dict = true) : Changes pt s0 (disarm s) := by
  unfold disarm
  repeat' (with_reducible first
      | assumption | apply resumeParked_changes | apply unkeep_changes | intro _ | extract_lets | split | dsimp +zetaDelta only
      | refine Changes.put ?_)

theorem storeBank_changes {pt : Part → Bool} {s0 : State} (s : State) (bank : Nat) (data : List Byte) (hK : Changes pt s0 s)
    (h_banks : pt .banks = true) : Changes pt s0 (storeBank s bank data) := by
  unfold storeBank
  repeat' (with_reducible first | assumption | split | refine Changes.put ?_)

theorem progBankEffect_changes {pt : Part → Bool} {s0 : State} (bank : Nat) (x0 : Via) (x1 : Nat) (x2 : Nat) (x3 : List Byte)
    (s : State) (hK : Changes pt s0 s) (h_tallies : pt .tallies = true) (h_banks : pt .banks = true) (h_slots : pt .slots = true)
    (h_seq : pt .seq = true) (h_fed : pt .fed = true) (h_dict : pt .dict = true) (h_evt : pt .evt = true)
    (h_trace : pt .trace = true) : Changes pt s0 (progBankEffect bank x0 x1 x2 x3 s) := by
  unfold progBankEffect
  repeat' (with_reducible first
      | assumption | apply storeBank_changes | apply disarm_changes | apply packageEffect_changes | apply packageDone_changes
      | apply dictAbort_changes | apply raiseErr_changes | intro _ | split)

theorem execProgBankWrite_changes {pt : Part → Bool} {s0 : State} (via : Via) (bank : Nat) (data : List Byte) (s : State)
    (hK : Changes pt s0 s) (h_tallies : pt .tallies = true) (h_banks : pt .banks = true) (h_slots : pt .slots = true)
    (h_seq : pt .seq = true) (h_fed : pt .fed = true) (h_dict : pt .dict = true) (h_evt : pt .evt = true)
    (h_trace : pt .trace = true) : ∃ t, execProgBankWrite via bank data s = .next t ∧ Changes pt s0 t := by
  refine ⟨_, rfl, ?_⟩
  repeat' (with_reducible first | assumption | apply progBankEffect_changes | apply requestWrite_changes | intro _)

theorem arm_changes {pt : Part → Bool} {s0 : State} (s : State) (hK : Changes pt s0 s) (h_seq : pt .seq = true) : Changes pt s0
    (arm s) := by
  unfold arm
  repeat' (with_reducible first | assumption | refine Changes.put ?_)

theorem progArmEffect_changes {pt : Part → Bool} {s0 : State} (x0 : Via) (x1 : Nat) (x2 : Nat) (x3 : List Byte) (s : State)
    (hK : Changes pt s0 s) (h_tallies : pt .tallies = true) (h_seq : pt .seq = true) (h_fed : pt .fed = true) (h_dict : pt .dict = true)
    (h_evt : pt .evt = true) (h_trace : pt .trace = true) : Changes pt s0 (progArmEffect x0 x1 x2 x3 s) := by
  unfold progArmEffect
  repeat' (with_reducible first
      | assumption | apply arm_changes | apply packageEffect_changes | apply packageDone_changes | apply keep_changes
      | apply dictDone_changes | apply dictAbort_changes | apply raiseErr_changes | intro _ | split)

theorem execProgArm_changes {pt : Part → Bool} {s0 : State} (via : Via) (crc : Nat) (s : State) (hK : Changes pt s0 s)
    (h_tallies : pt .tallies = true) (h_seq : pt .seq = true) (h_fed : pt .fed = true) (h_dict : pt .dict = true)
    (h_evt : pt .evt = true) (h_trace : pt .trace = true) : ∃ t, execProgArm via crc s = .next t ∧ Changes pt s0 t := by
  refine ⟨_, rfl, ?_⟩
  repeat' (with_reducible first | assumption | apply progArmEffect_changes | apply requestWrite_changes | intro _)

theorem execBankSwap_changes {pt : Part → Bool} {s0 : State} (s : State) (hK : Changes pt s0 s) (h_tallies : pt .tallies = true)
    (h_slots : pt .slots = true) (h_seq : pt .seq = true)
    (h_evt : pt .evt = true) : ∃ t, execBankSwap s = .next t ∧ Changes pt s0 t := by
  refine ⟨_, rfl, ?_⟩
  repeat' (with_reducible first | assumption | apply resumeParked_changes | apply fire_changes | intro _ | split | refine Changes.put ?_)

theorem semDepthEffect_changes {pt : Part → Bool} {s0 : State} (x0 : Via) (x1 : Nat) (x2 : Nat) (x3 : List Byte) (s : State)
    (hK : Changes pt s0 s) (h_tallies : pt .tallies = true) (h_pairs : pt .pairs = true) (h_dlv : pt .dlv = true)
    (h_dict : pt .dict = true) : Changes pt s0 (semDepthEffect x0 x1 x2 x3 s) := by
  unfold semDepthEffect
  repeat' (with_reducible first
      | assumption | apply dictDone_changes | apply dictAbort_changes | apply clearLink_changes | apply setPair_changes | intro _
      | extract_lets | split | dsimp +zetaDelta only | refine Changes.put ?_)

theorem execSemDepthWrite_changes {pt : Part → Bool} {s0 : State} (via : Via) (pair depth : Nat) (s : State) (hK : Changes pt s0 s)
    (h_tallies : pt .tallies = true) (h_pairs : pt .pairs = true) (h_dlv : pt .dlv = true) (h_fed : pt .fed = true)
    (h_dict : pt .dict = true) (h_trace : pt .trace = true) : ∃ t, execSemDepthWrite via pair depth s = .next t ∧ Changes pt s0 t := by
  refine ⟨_, rfl, ?_⟩
  repeat' (with_reducible first | assumption | apply semDepthEffect_changes | apply requestWrite_changes | intro _)

theorem closeContexts_changes {pt : Part → Bool} {s0 : State} (s : State) (n : Nat) (hK : Changes pt s0 s)
    (h_objects : pt .objects = true) (h_tallies : pt .tallies = true) (h_devMem : pt .devMem = true) (h_slots : pt .slots = true)
    (h_cmds : pt .cmds = true) (h_mdc : pt .mdc = true) (h_pools : pt .pools = true) (h_evt : pt .evt = true)
    (h_trace : pt .trace = true) : Changes pt s0 (closeContexts s n) := by
  unfold closeContexts
  repeat' (with_reducible first | assumption | apply dropContexts_changes | apply freeBuffers_changes | intro _)

theorem execJobEnd_changes {pt : Part → Bool} {s0 : State} (slot : Nat) (othersReady : Bool) (s : State) (hK : Changes pt s0 s)
    (h_objects : pt .objects = true) (h_tallies : pt .tallies = true) (h_devMem : pt .devMem = true) (h_pairs : pt .pairs = true)
    (h_slots : pt .slots = true) (h_cmds : pt .cmds = true) (h_mdc : pt .mdc = true) (h_pools : pt .pools = true)
    (h_dlv : pt .dlv = true) (h_net : pt .net = true) (h_evt : pt .evt = true)
    (h_trace : pt .trace = true) : ∃ t, execJobEnd slot othersReady s = .next t ∧ Changes pt s0 t := by
  refine ⟨_, rfl, ?_⟩
  repeat' (with_reducible first
      | assumption | apply closeContexts_changes | apply endJob_changes | intro _ | extract_lets | split | dsimp +zetaDelta only)

theorem execSlotFaultPropagation_changes {pt : Part → Bool} {s0 : State} (slot code die : Nat) (s : State) (hK : Changes pt s0 s)
    (h_drawn : pt .drawn = true) (h_objects : pt .objects = true) (h_tallies : pt .tallies = true) (h_devMem : pt .devMem = true)
    (h_pairs : pt .pairs = true) (h_slots : pt .slots = true) (h_cmds : pt .cmds = true) (h_txa : pt .txa = true)
    (h_sdx : pt .sdx = true) (h_rsv : pt .rsv = true) (h_mdc : pt .mdc = true) (h_tok : pt .tok = true) (h_bat : pt .bat = true)
    (h_pools : pt .pools = true) (h_net : pt .net = true) (h_fed : pt .fed = true) (h_evt : pt .evt = true)
    (h_trace : pt .trace = true) : ∃ t, execSlotFaultPropagation slot code die s = .next t ∧ Changes pt s0 t := by
  refine ⟨_, rfl, ?_⟩
  repeat' (with_reducible first
      | assumption | apply slotFault_changes | apply faultHere_changes | apply setSlot_changes | intro _ | extract_lets | split
      | dsimp +zetaDelta only | refine Changes.put ?_)

/-! ## Pools -/

theorem poolEnableEffect_changes {pt : Part → Bool} {s0 : State} (x0 : Via) (x1 : Nat) (x2 : Nat) (x3 : List Byte) (s : State)
    (hK : Changes pt s0 s) (h_tallies : pt .tallies = true) (h_pools : pt .pools = true) (h_fed : pt .fed = true)
    (h_dict : pt .dict = true) (h_evt : pt .evt = true) (h_trace : pt .trace = true) : Changes pt s0
    (poolEnableEffect x0 x1 x2 x3 s) := by
  unfold poolEnableEffect
  repeat' (with_reducible first
      | assumption | apply startLong_changes | apply dictDone_changes | apply dictAbort_changes | apply setPool_changes
      | apply claim_changes | apply raiseErr_changes | refine Changes.fst ‹_› ?_ | refine Changes.snd ‹_› ?_ | intro _ | extract_lets
      | split | dsimp +zetaDelta only | refine Changes.put ?_)

theorem execPoolEnableWrite_changes {pt : Part → Bool} {s0 : State} (via : Via) (pool : Nat) (s : State) (hK : Changes pt s0 s)
    (h_tallies : pt .tallies = true) (h_pools : pt .pools = true) (h_fed : pt .fed = true) (h_dict : pt .dict = true)
    (h_evt : pt .evt = true) (h_trace : pt .trace = true) : ∃ t, execPoolEnableWrite via pool s = .next t ∧ Changes pt s0 t := by
  refine ⟨_, rfl, ?_⟩
  repeat' (with_reducible first | assumption | apply poolEnableEffect_changes | apply requestWrite_changes | intro _)

theorem execPoolInitComplete_changes {pt : Part → Bool} {s0 : State} (pool : Nat) (s : State) (hK : Changes pt s0 s)
    (h_objects : pt .objects = true) (h_tallies : pt .tallies = true) (h_devMem : pt .devMem = true) (h_pools : pt .pools = true)
    (h_fed : pt .fed = true) (h_dict : pt .dict = true) : ∃ t, execPoolInitComplete pool s = .next t ∧ Changes pt s0 t := by
  refine ⟨_, rfl, ?_⟩
  repeat' (with_reducible first
      | assumption | apply localFinish_changes | apply poolBalance_changes | apply setPool_changes | apply memWrite_changes
      | refine Changes.tally ?_ _ _ _ (by assumption) (by decide) | refine Changes.object ?_ _ _ _ (by assumption) (by decide)
      | refine Changes.any ?_ _ _ _ (by assumption) (by assumption) | intro _ | extract_lets | split | dsimp +zetaDelta only
      | refine Changes.put ?_)

theorem poolDisableEffect_changes {pt : Part → Bool} {s0 : State} (x0 : Via) (x1 : Nat) (x2 : Nat) (x3 : List Byte) (s : State)
    (hK : Changes pt s0 s) (h_objects : pt .objects = true) (h_tallies : pt .tallies = true) (h_pools : pt .pools = true)
    (h_dict : pt .dict = true) : Changes pt s0 (poolDisableEffect x0 x1 x2 x3 s) := by
  unfold poolDisableEffect
  repeat' (with_reducible first
      | assumption | apply dictDone_changes | apply dictAbort_changes | apply setPool_changes | apply release_changes
      | refine Changes.tally ?_ _ _ _ (by assumption) (by decide) | refine Changes.object ?_ _ _ _ (by assumption) (by decide)
      | refine Changes.any ?_ _ _ _ (by assumption) (by assumption) | intro _ | extract_lets | split | dsimp +zetaDelta only)

theorem execPoolDisableWrite_changes {pt : Part → Bool} {s0 : State} (via : Via) (pool : Nat) (s : State) (hK : Changes pt s0 s)
    (h_objects : pt .objects = true) (h_tallies : pt .tallies = true) (h_pools : pt .pools = true) (h_fed : pt .fed = true)
    (h_dict : pt .dict = true) (h_trace : pt .trace = true) : ∃ t, execPoolDisableWrite via pool s = .next t ∧ Changes pt s0 t := by
  refine ⟨_, rfl, ?_⟩
  repeat' (with_reducible first | assumption | apply poolDisableEffect_changes | apply requestWrite_changes | intro _)

theorem execPoolAllocRequest_changes {pt : Part → Bool} {s0 : State} (slot size : Nat) (s : State) (hK : Changes pt s0 s)
    (h_objects : pt .objects = true) (h_tallies : pt .tallies = true) (h_devMem : pt .devMem = true) (h_slots : pt .slots = true)
    (h_cmds : pt .cmds = true) (h_arbs : pt .arbs = true) (h_pools : pt .pools = true) (h_net : pt .net = true) (h_evt : pt .evt = true)
    (h_trace : pt .trace = true) : ∃ t, execPoolAllocRequest slot size s = .next t ∧ Changes pt s0 t := by
  refine ⟨_, rfl, ?_⟩
  repeat' (with_reducible first | assumption | apply poolRequest_changes | intro _ | split)

theorem execPoolAllocGrant_changes {pt : Part → Bool} {s0 : State} (pool waitedFclk : Nat) (s : State) (hK : Changes pt s0 s)
    (h_objects : pt .objects = true) (h_tallies : pt .tallies = true) (h_devMem : pt .devMem = true) (h_slots : pt .slots = true)
    (h_cmds : pt .cmds = true) (h_arbs : pt .arbs = true) (h_pools : pt .pools = true) (h_net : pt .net = true) (h_evt : pt .evt = true)
    (h_trace : pt .trace = true) : ∃ t, execPoolAllocGrant pool waitedFclk s = .next t ∧ Changes pt s0 t := by
  refine ⟨_, rfl, ?_⟩
  repeat' (with_reducible first
      | assumption | apply moveBlocked_changes | apply takeIndex_changes | apply setPool_changes | refine Changes.fst ‹_› ?_
      | refine Changes.snd ‹_› ?_ | intro _ | extract_lets | split | dsimp +zetaDelta only | refine Changes.put ?_)

theorem damageEntry_changes {pt : Part → Bool} {s0 : State} (p : Nat) (s : State) (k : Nat) (hK : Changes pt s0 s)
    (h_drawn : pt .drawn = true) (h_pools : pt .pools = true) : Changes pt s0 (damageEntry p s k) := by
  unfold damageEntry
  repeat' (with_reducible first
      | assumption | apply setPool_changes | apply otherSramAddr_changes | refine Changes.fst ‹_› ?_ | refine Changes.snd ‹_› ?_
      | intro _ | extract_lets | split | dsimp +zetaDelta only | refine Changes.put ?_)

theorem execPoolRefillReturn_changes {pt : Part → Bool} {s0 : State} (pool : Nat) (poisoned damaged : List Nat) (s : State)
    (hK : Changes pt s0 s) (h_drawn : pt .drawn = true) (h_objects : pt .objects = true) (h_tallies : pt .tallies = true)
    (h_pools : pt .pools = true) (h_evt : pt .evt = true)
    (h_trace : pt .trace = true) : ∃ t, execPoolRefillReturn pool poisoned damaged s = .next t ∧ Changes pt s0 t := by
  refine ⟨_, rfl, ?_⟩
  repeat' (with_reducible first
      | assumption | apply damageEntry_changes | apply quarantine_changes | apply blockExcess_changes | apply poolBalance_changes
      | apply lowWater_changes | apply setPool_changes | apply memError_changes | apply Changes.foldl | apply Changes.foldlFst
      | apply Changes.foldlSnd | refine Changes.fst ‹_› ?_ | refine Changes.snd ‹_› ?_ | intro _ | extract_lets | split
      | dsimp +zetaDelta only | refine Changes.put ?_)

theorem dropSpilled_changes {pt : Part → Bool} {s0 : State} (s : State) (p : Nat) (hK : Changes pt s0 s)
    (h_objects : pt .objects = true) (h_tallies : pt .tallies = true) (h_pools : pt .pools = true) (h_evt : pt .evt = true)
    (h_trace : pt .trace = true) : Changes pt s0 (dropSpilled s p) := by
  unfold dropSpilled
  repeat' (with_reducible first
      | assumption | apply dropEntry_changes | apply Changes.foldl | apply Changes.foldlFst | apply Changes.foldlSnd | intro _)

theorem execPoolSpillDone_changes {pt : Part → Bool} {s0 : State} (pool : Nat) (s : State) (hK : Changes pt s0 s)
    (h_objects : pt .objects = true) (h_tallies : pt .tallies = true) (h_devMem : pt .devMem = true) (h_pools : pt .pools = true)
    (h_evt : pt .evt = true) (h_trace : pt .trace = true) : ∃ t, execPoolSpillDone pool s = .next t ∧ Changes pt s0 t := by
  refine ⟨_, rfl, ?_⟩
  repeat' (with_reducible first
      | assumption | apply dropSpilled_changes | apply poolBalance_changes | apply setPool_changes | apply memWrite_changes
      | apply Changes.foldl | apply Changes.foldlFst | apply Changes.foldlSnd | intro _ | extract_lets | split | dsimp +zetaDelta only
      | refine Changes.put ?_)

theorem execPoolFreeRequest_changes {pt : Part → Bool} {s0 : State} (slot addr : Nat) (s : State) (hK : Changes pt s0 s)
    (h_objects : pt .objects = true) (h_tallies : pt .tallies = true) (h_devMem : pt .devMem = true) (h_slots : pt .slots = true)
    (h_cmds : pt .cmds = true) (h_pools : pt .pools = true) (h_evt : pt .evt = true)
    (h_trace : pt .trace = true) : ∃ t, execPoolFreeRequest slot addr s = .next t ∧ Changes pt s0 t := by
  refine ⟨_, rfl, ?_⟩
  repeat' (with_reducible first | assumption | apply presentFree_changes | intro _ | split | refine Changes.put ?_)

theorem checkFree_changes {pt : Part → Bool} {s0 : State} (s : State) (p n i : Nat) (hK : Changes pt s0 s)
    (h_tallies : pt .tallies = true) (h_devMem : pt .devMem = true) (h_pools : pt .pools = true) (h_evt : pt .evt = true)
    (h_trace : pt .trace = true) : Changes pt s0 (checkFree s p n i) := by
  unfold checkFree
  repeat' (with_reducible first
      | assumption | refine bump_tally _ _ ?_ (by assumption) (by decide) | refine bump_object _ _ ?_ (by assumption) (by decide)
      | refine bump_any _ _ ?_ (by assumption) (by assumption) | refine bumpBy_tally _ _ _ ?_ (by assumption) (by decide)
      | refine bumpBy_object _ _ _ ?_ (by assumption) (by decide) | refine bumpBy_any _ _ _ ?_ (by assumption) (by assumption)
      | apply blockExcess_changes | apply setStateBit_changes | apply setPool_changes | apply raiseErr_changes
      | refine Changes.tally ?_ _ _ _ (by assumption) (by decide) | refine Changes.object ?_ _ _ _ (by assumption) (by decide)
      | refine Changes.any ?_ _ _ _ (by assumption) (by assumption) | intro _ | extract_lets | split | dsimp +zetaDelta only
      | refine Changes.put ?_)

theorem execPoolFreeCheck_changes {pt : Part → Bool} {s0 : State} (pool : Nat) (poisoned : Bool) (s : State) (hK : Changes pt s0 s)
    (h_objects : pt .objects = true) (h_tallies : pt .tallies = true) (h_devMem : pt .devMem = true) (h_pairs : pt .pairs = true)
    (h_slots : pt .slots = true) (h_cmds : pt .cmds = true) (h_pools : pt .pools = true) (h_dlv : pt .dlv = true)
    (h_net : pt .net = true) (h_evt : pt .evt = true)
    (h_trace : pt .trace = true) : ∃ t, execPoolFreeCheck pool poisoned s = .next t ∧ Changes pt s0 t := by
  refine ⟨_, rfl, ?_⟩
  repeat' (with_reducible first
      | assumption | apply checkFree_changes | apply endWaiting_changes | apply acceptWaiting_changes | apply runSets_changes
      | apply readStateLine_changes | apply poolBalance_changes | apply setPool_changes | apply Changes.foldl | apply Changes.foldlFst
      | apply Changes.foldlSnd | refine Changes.fst ‹_› ?_ | refine Changes.snd ‹_› ?_ | intro _ | extract_lets | split
      | dsimp +zetaDelta only | refine Changes.put ?_)

theorem execPoolDeadlock_changes {pt : Part → Bool} {s0 : State} (waitedFclk blockedFclk : Nat) (s : State) (hK : Changes pt s0 s)
    (h_drawn : pt .drawn = true) (h_tallies : pt .tallies = true) (h_devMem : pt .devMem = true) (h_slots : pt .slots = true)
    (h_cmds : pt .cmds = true) (h_pools : pt .pools = true) (h_net : pt .net = true) (h_evt : pt .evt = true)
    (h_trace : pt .trace = true) : ∃ t, execPoolDeadlock waitedFclk blockedFclk s = .next t ∧ Changes pt s0 t := by
  refine ⟨_, rfl, ?_⟩
  repeat' (with_reducible first
      | assumption | refine bump_tally _ _ ?_ (by assumption) (by decide) | refine bump_object _ _ ?_ (by assumption) (by decide)
      | refine bump_any _ _ ?_ (by assumption) (by assumption) | refine bumpBy_tally _ _ _ ?_ (by assumption) (by decide)
      | refine bumpBy_object _ _ _ ?_ (by assumption) (by decide) | refine bumpBy_any _ _ _ ?_ (by assumption) (by assumption)
      | apply blockedFclk_changes | apply answer_changes | apply setPool_changes | apply raiseErr_changes
      | refine Changes.tally ?_ _ _ _ (by assumption) (by decide) | refine Changes.object ?_ _ _ _ (by assumption) (by decide)
      | refine Changes.any ?_ _ _ _ (by assumption) (by assumption) | apply Changes.foldl | apply Changes.foldlFst
      | apply Changes.foldlSnd | refine Changes.fst ‹_› ?_ | refine Changes.snd ‹_› ?_ | intro _ | extract_lets | split
      | dsimp +zetaDelta only | refine Changes.put ?_)

theorem execRetryBackoffExpiry_changes {pt : Part → Bool} {s0 : State} (slot unit : Nat) (s : State) (hK : Changes pt s0 s)
    (h_slots : pt .slots = true) : ∃ t, execRetryBackoffExpiry slot unit s = .next t ∧ Changes pt s0 t := by
  refine ⟨_, rfl, ?_⟩
  repeat' (with_reducible first | assumption | apply modSlot_changes | intro _ | refine Changes.put ?_)

/-! ## Events -/

theorem evtTakeEffect_changes {pt : Part → Bool} {s0 : State} (x0 : Via) (x1 : Nat) (x2 : Nat) (x3 : List Byte) (s : State)
    (hK : Changes pt s0 s) (h_tallies : pt .tallies = true) (h_dict : pt .dict = true) (h_evt : pt .evt = true)
    (h_trace : pt .trace = true) : Changes pt s0 (evtTakeEffect x0 x1 x2 x3 s) := by
  unfold evtTakeEffect
  repeat' (with_reducible first
      | assumption | refine bump_tally _ _ ?_ (by assumption) (by decide) | refine bump_object _ _ ?_ (by assumption) (by decide)
      | refine bump_any _ _ ?_ (by assumption) (by assumption) | refine bumpBy_tally _ _ _ ?_ (by assumption) (by decide)
      | refine bumpBy_object _ _ _ ?_ (by assumption) (by decide) | refine bumpBy_any _ _ _ ?_ (by assumption) (by assumption)
      | apply dictDone_changes | apply dictAbort_changes | apply setSrc_changes | apply traceRec_changes
      | refine Changes.tally ?_ _ _ _ (by assumption) (by decide) | refine Changes.object ?_ _ _ _ (by assumption) (by decide)
      | refine Changes.any ?_ _ _ _ (by assumption) (by assumption) | intro _ | extract_lets | split | dsimp +zetaDelta only
      | refine Changes.put ?_)

theorem execEvtTake_changes {pt : Part → Bool} {s0 : State} (via : Via) (core source : Nat) (s : State) (hK : Changes pt s0 s)
    (h_tallies : pt .tallies = true) (h_fed : pt .fed = true) (h_dict : pt .dict = true) (h_evt : pt .evt = true)
    (h_trace : pt .trace = true) : ∃ t, execEvtTake via core source s = .next t ∧ Changes pt s0 t := by
  refine ⟨_, rfl, ?_⟩
  repeat' (with_reducible first | assumption | apply evtTakeEffect_changes | apply requestWrite_changes | intro _)

theorem evtDoneEffect_changes {pt : Part → Bool} {s0 : State} (x0 : Via) (x1 : Nat) (x2 : Nat) (x3 : List Byte) (s : State)
    (hK : Changes pt s0 s) (h_tallies : pt .tallies = true) (h_dict : pt .dict = true) (h_evt : pt .evt = true) : Changes pt s0
    (evtDoneEffect x0 x1 x2 x3 s) := by
  unfold evtDoneEffect
  repeat' (with_reducible first
      | assumption | apply dictDone_changes | apply dictAbort_changes | apply setPending_changes | apply setSrc_changes | intro _
      | extract_lets | split | dsimp +zetaDelta only | refine Changes.put ?_)

theorem execEvtDone_changes {pt : Part → Bool} {s0 : State} (via : Via) (core source : Nat) (s : State) (hK : Changes pt s0 s)
    (h_tallies : pt .tallies = true) (h_fed : pt .fed = true) (h_dict : pt .dict = true) (h_evt : pt .evt = true)
    (h_trace : pt .trace = true) : ∃ t, execEvtDone via core source s = .next t ∧ Changes pt s0 t := by
  refine ⟨_, rfl, ?_⟩
  repeat' (with_reducible first | assumption | apply evtDoneEffect_changes | apply requestWrite_changes | intro _)

theorem pendSetEffect_changes {pt : Part → Bool} {s0 : State} (x0 : Via) (x1 : Nat) (x2 : Nat) (x3 : List Byte) (s : State)
    (hK : Changes pt s0 s) (h_tallies : pt .tallies = true) (h_dict : pt .dict = true) (h_evt : pt .evt = true) : Changes pt s0
    (pendSetEffect x0 x1 x2 x3 s) := by
  unfold pendSetEffect
  repeat' (with_reducible first
      | assumption | apply dictDone_changes | apply setPending_changes | apply Changes.foldl | apply Changes.foldlFst
      | apply Changes.foldlSnd | intro _ | split)

theorem execEvtPendSet_changes {pt : Part → Bool} {s0 : State} (via : Via) (word bits : Nat) (s : State) (hK : Changes pt s0 s)
    (h_tallies : pt .tallies = true) (h_fed : pt .fed = true) (h_dict : pt .dict = true) (h_evt : pt .evt = true)
    (h_trace : pt .trace = true) : ∃ t, execEvtPendSet via word bits s = .next t ∧ Changes pt s0 t := by
  refine ⟨_, rfl, ?_⟩
  repeat' (with_reducible first | assumption | apply pendSetEffect_changes | apply requestWrite_changes | intro _)

theorem pendClearEffect_changes {pt : Part → Bool} {s0 : State} (x0 : Via) (x1 : Nat) (x2 : Nat) (x3 : List Byte) (s : State)
    (hK : Changes pt s0 s) (h_tallies : pt .tallies = true) (h_dict : pt .dict = true) (h_evt : pt .evt = true) : Changes pt s0
    (pendClearEffect x0 x1 x2 x3 s) := by
  unfold pendClearEffect
  repeat' (with_reducible first
      | assumption | apply dictDone_changes | apply setSrc_changes | apply Changes.foldl | apply Changes.foldlFst
      | apply Changes.foldlSnd | intro _ | refine Changes.put ?_)

theorem execEvtPendClear_changes {pt : Part → Bool} {s0 : State} (via : Via) (word bits : Nat) (s : State) (hK : Changes pt s0 s)
    (h_tallies : pt .tallies = true) (h_fed : pt .fed = true) (h_dict : pt .dict = true) (h_evt : pt .evt = true)
    (h_trace : pt .trace = true) : ∃ t, execEvtPendClear via word bits s = .next t ∧ Changes pt s0 t := by
  refine ⟨_, rfl, ?_⟩
  repeat' (with_reducible first | assumption | apply pendClearEffect_changes | apply requestWrite_changes | intro _)

theorem latchClearEffect_changes {pt : Part → Bool} {s0 : State} (x0 : Via) (x1 : Nat) (x2 : Nat) (x3 : List Byte) (s : State)
    (hK : Changes pt s0 s) (h_tallies : pt .tallies = true) (h_dict : pt .dict = true) (h_evt : pt .evt = true) : Changes pt s0
    (latchClearEffect x0 x1 x2 x3 s) := by
  unfold latchClearEffect
  repeat' (with_reducible first
      | assumption | apply dictDone_changes | apply setSrc_changes | apply Changes.foldl | apply Changes.foldlFst
      | apply Changes.foldlSnd | intro _ | refine Changes.put ?_)

theorem execEvtLatchClear_changes {pt : Part → Bool} {s0 : State} (via : Via) (word bits : Nat) (s : State) (hK : Changes pt s0 s)
    (h_tallies : pt .tallies = true) (h_fed : pt .fed = true) (h_dict : pt .dict = true) (h_evt : pt .evt = true)
    (h_trace : pt .trace = true) : ∃ t, execEvtLatchClear via word bits s = .next t ∧ Changes pt s0 t := by
  refine ⟨_, rfl, ?_⟩
  repeat' (with_reducible first | assumption | apply latchClearEffect_changes | apply requestWrite_changes | intro _)

theorem swRaiseEffect_changes {pt : Part → Bool} {s0 : State} (x0 : Via) (x1 : Nat) (x2 : Nat) (x3 : List Byte) (s : State)
    (hK : Changes pt s0 s) (h_tallies : pt .tallies = true) (h_dict : pt .dict = true) (h_evt : pt .evt = true) : Changes pt s0
    (swRaiseEffect x0 x1 x2 x3 s) := by
  unfold swRaiseEffect
  repeat' (with_reducible first | assumption | apply dictDone_changes | apply fireAll_changes | intro _)

theorem execEvtSwRaise_changes {pt : Part → Bool} {s0 : State} (via : Via) (word bits : Nat) (s : State) (hK : Changes pt s0 s)
    (h_tallies : pt .tallies = true) (h_fed : pt .fed = true) (h_dict : pt .dict = true) (h_evt : pt .evt = true)
    (h_trace : pt .trace = true) : ∃ t, execEvtSwRaise via word bits s = .next t ∧ Changes pt s0 t := by
  refine ⟨_, rfl, ?_⟩
  repeat' (with_reducible first | assumption | apply swRaiseEffect_changes | apply requestWrite_changes | intro _)

theorem evtCfgEffect_changes {pt : Part → Bool} {s0 : State} (x0 : Via) (x1 : Nat) (x2 : Nat) (x3 : List Byte) (s : State)
    (hK : Changes pt s0 s) (h_tallies : pt .tallies = true) (h_fed : pt .fed = true) (h_dict : pt .dict = true)
    (h_evt : pt .evt = true) : Changes pt s0 (evtCfgEffect x0 x1 x2 x3 s) := by
  unfold evtCfgEffect
  repeat' (with_reducible first
      | assumption | apply packageEffect_changes | apply packageDone_changes | apply cutShortWith_changes | apply setSrc_changes
      | intro _ | extract_lets | split | dsimp +zetaDelta only | refine Changes.put ?_)

theorem execEvtCfgWrite_changes {pt : Part → Bool} {s0 : State} (via : Via) (source value : Nat) (s : State) (hK : Changes pt s0 s)
    (h_tallies : pt .tallies = true) (h_fed : pt .fed = true) (h_dict : pt .dict = true) (h_evt : pt .evt = true)
    (h_trace : pt .trace = true) : ∃ t, execEvtCfgWrite via source value s = .next t ∧ Changes pt s0 t := by
  refine ⟨_, rfl, ?_⟩
  repeat' (with_reducible first | assumption | apply evtCfgEffect_changes | apply requestWrite_changes | intro _)

theorem grpTimeEffect_changes {pt : Part → Bool} {s0 : State} (x0 : Via) (x1 : Nat) (x2 : Nat) (x3 : List Byte) (s : State)
    (hK : Changes pt s0 s) (h_objects : pt .objects = true) (h_tallies : pt .tallies = true) (h_fed : pt .fed = true)
    (h_dict : pt .dict = true) : Changes pt s0 (grpTimeEffect x0 x1 x2 x3 s) := by
  unfold grpTimeEffect
  repeat' (with_reducible first
      | assumption | apply claimEffect_changes | apply packageEffect_changes | apply packageDone_changes
      | refine Changes.tally ?_ _ _ _ (by assumption) (by decide) | refine Changes.object ?_ _ _ _ (by assumption) (by decide)
      | refine Changes.any ?_ _ _ _ (by assumption) (by assumption) | intro _ | split)

theorem execEvtGrpTimeWrite_changes {pt : Part → Bool} {s0 : State} (via : Via) (group value : Nat) (s : State) (hK : Changes pt s0 s)
    (h_objects : pt .objects = true) (h_tallies : pt .tallies = true) (h_fed : pt .fed = true) (h_dict : pt .dict = true)
    (h_trace : pt .trace = true) : ∃ t, execEvtGrpTimeWrite via group value s = .next t ∧ Changes pt s0 t := by
  refine ⟨_, rfl, ?_⟩
  repeat' (with_reducible first | assumption | apply grpTimeEffect_changes | apply requestWrite_changes | intro _)

theorem execCoreMaskWrite_changes {pt : Part → Bool} {s0 : State} (via : Via) (core value : Nat) (s : State) (hK : Changes pt s0 s)
    (h_objects : pt .objects = true) (h_tallies : pt .tallies = true) (h_fed : pt .fed = true) (h_dict : pt .dict = true)
    (h_trace : pt .trace = true) : ∃ t, execCoreMaskWrite via core value s = .next t ∧ Changes pt s0 t := by
  refine ⟨_, rfl, ?_⟩
  repeat' (with_reducible first | assumption | apply storeEffect_changes | apply requestWrite_changes | intro _)

theorem execCoreSleepEnter_changes {pt : Part → Bool} {s0 : State} (core : Nat) (s : State) (hK : Changes pt s0 s)
    (h_tallies : pt .tallies = true) (h_evt : pt .evt = true) : ∃ t, execCoreSleepEnter core s = .next t ∧ Changes pt s0 t := by
  refine ⟨_, rfl, ?_⟩
  repeat' (with_reducible first
      | assumption | apply cutShort_changes | apply wakeUp_changes | apply setCore_changes | intro _ | extract_lets | split
      | dsimp +zetaDelta only | refine Changes.put ?_)

theorem execCoreSleepExit_changes {pt : Part → Bool} {s0 : State} (core : Nat) (s : State) (hK : Changes pt s0 s)
    (h_evt : pt .evt = true) : ∃ t, execCoreSleepExit core s = .next t ∧ Changes pt s0 t := by
  refine ⟨_, rfl, ?_⟩
  repeat' (with_reducible first | assumption | apply setCore_changes | intro _ | refine Changes.put ?_)

theorem execHoldoffTimerExpiry_changes {pt : Part → Bool} {s0 : State} (group : Nat) (s : State) (hK : Changes pt s0 s)
    (h_tallies : pt .tallies = true) (h_evt : pt .evt = true) : ∃ t, execHoldoffTimerExpiry group s = .next t ∧ Changes pt s0 t := by
  refine ⟨_, rfl, ?_⟩
  repeat' (with_reducible first | assumption | apply releaseGroup_changes | intro _ | split)

theorem epinEffect_changes {pt : Part → Bool} {s0 : State} (x0 : Via) (x1 : Nat) (x2 : Nat) (x3 : List Byte) (s : State)
    (hK : Changes pt s0 s) (h_objects : pt .objects = true) (h_tallies : pt .tallies = true) (h_dict : pt .dict = true)
    (h_pins : pt .pins = true) : Changes pt s0 (epinEffect x0 x1 x2 x3 s) := by
  unfold epinEffect
  repeat' (with_reducible first
      | assumption | apply claimEffect_changes | apply dictDone_changes | refine Changes.tally ?_ _ _ _ (by assumption) (by decide)
      | refine Changes.object ?_ _ _ _ (by assumption) (by decide) | refine Changes.any ?_ _ _ _ (by assumption) (by assumption)
      | refine Changes.fst ‹_› ?_ | refine Changes.snd ‹_› ?_ | intro _ | extract_lets | split | dsimp +zetaDelta only
      | refine Changes.put ?_)

theorem execEpinAssignWrite_changes {pt : Part → Bool} {s0 : State} (via : Via) (object value : Nat) (s : State) (hK : Changes pt s0 s)
    (h_objects : pt .objects = true) (h_tallies : pt .tallies = true) (h_fed : pt .fed = true) (h_dict : pt .dict = true)
    (h_pins : pt .pins = true)
    (h_trace : pt .trace = true) : ∃ t, execEpinAssignWrite via object value s = .next t ∧ Changes pt s0 t := by
  refine ⟨_, rfl, ?_⟩
  repeat' (with_reducible first | assumption | apply epinEffect_changes | apply requestWrite_changes | intro _)

theorem execPinPulseEnd_changes {pt : Part → Bool} {s0 : State} (pin : Nat) (s : State) (hK : Changes pt s0 s)
    (h_pins : pt .pins = true) : ∃ t, execPinPulseEnd pin s = .next t ∧ Changes pt s0 t := by
  refine ⟨_, rfl, ?_⟩
  repeat' (with_reducible first | assumption | refine Changes.put ?_)

theorem watchdogEffect_changes {pt : Part → Bool} {s0 : State} (x0 : Via) (x1 : Nat) (x2 : Nat) (x3 : List Byte) (s : State)
    (hK : Changes pt s0 s) (h_objects : pt .objects = true) (h_tallies : pt .tallies = true) (h_dict : pt .dict = true) : Changes pt s0
    (watchdogEffect x0 x1 x2 x3 s) := by
  unfold watchdogEffect
  repeat' (with_reducible first | assumption | apply claimEffect_changes | apply storeEffect_changes | intro _ | split)

theorem execWatchdogEnableWrite_changes {pt : Part → Bool} {s0 : State} (via : Via) (value : Nat) (s : State) (hK : Changes pt s0 s)
    (h_objects : pt .objects = true) (h_tallies : pt .tallies = true) (h_fed : pt .fed = true) (h_dict : pt .dict = true)
    (h_trace : pt .trace = true) : ∃ t, execWatchdogEnableWrite via value s = .next t ∧ Changes pt s0 t := by
  refine ⟨_, rfl, ?_⟩
  repeat' (with_reducible first | assumption | apply watchdogEffect_changes | apply requestWrite_changes | intro _)

theorem execWatchdogKick_changes {pt : Part → Bool} {s0 : State} (via : Via) (value : Nat) (s : State) (hK : Changes pt s0 s)
    (h_tallies : pt .tallies = true) (h_fed : pt .fed = true) (h_dict : pt .dict = true)
    (h_trace : pt .trace = true) : ∃ t, execWatchdogKick via value s = .next t ∧ Changes pt s0 t := by
  refine ⟨_, rfl, ?_⟩
  repeat' (with_reducible first | assumption | apply requestWrite_changes | apply dictDone_changes | intro _)

theorem execWatchdogExpiry_changes {pt : Part → Bool} {s0 : State} (s : State) (hK : Changes pt s0 s) (h_objects : pt .objects = true)
    (h_tallies : pt .tallies = true) (h_evt : pt .evt = true) : ∃ t, execWatchdogExpiry s = .next t ∧ Changes pt s0 t := by
  refine ⟨_, rfl, ?_⟩
  repeat' (with_reducible first
      | assumption | refine bump_tally _ _ ?_ (by assumption) (by decide) | refine bump_object _ _ ?_ (by assumption) (by decide)
      | refine bump_any _ _ ?_ (by assumption) (by assumption) | refine bumpBy_tally _ _ _ ?_ (by assumption) (by decide)
      | refine bumpBy_object _ _ _ ?_ (by assumption) (by decide) | refine bumpBy_any _ _ _ ?_ (by assumption) (by assumption)
      | apply fire_changes | refine Changes.tally ?_ _ _ _ (by assumption) (by decide)
      | refine Changes.object ?_ _ _ _ (by assumption) (by decide) | refine Changes.any ?_ _ _ _ (by assumption) (by assumption)
      | intro _ | split)

/-! ## Debug -/

theorem startTrace_changes {pt : Part → Bool} {s0 : State} (s : State) (hK : Changes pt s0 s) (h_objects : pt .objects = true)
    (h_dict : pt .dict = true) (h_trace : pt .trace = true) : Changes pt s0 (startTrace s) := by
  unfold startTrace
  repeat' (with_reducible first
      | assumption | apply claim_changes | refine Changes.tally ?_ _ _ _ (by assumption) (by decide)
      | refine Changes.object ?_ _ _ _ (by assumption) (by decide) | refine Changes.any ?_ _ _ _ (by assumption) (by assumption)
      | intro _ | split | refine Changes.put ?_)

theorem stopTrace_changes {pt : Part → Bool} {s0 : State} (s : State) (hK : Changes pt s0 s) (h_objects : pt .objects = true)
    (h_dict : pt .dict = true) (h_trace : pt .trace = true) : Changes pt s0 (stopTrace s) := by
  unfold stopTrace
  repeat' (with_reducible first
      | assumption | apply release_changes | refine Changes.tally ?_ _ _ _ (by assumption) (by decide)
      | refine Changes.object ?_ _ _ _ (by assumption) (by decide) | refine Changes.any ?_ _ _ _ (by assumption) (by assumption)
      | intro _ | refine Changes.put ?_)

theorem traceEnableEffect_changes {pt : Part → Bool} {s0 : State} (x0 : Via) (x1 : Nat) (x2 : Nat) (x3 : List Byte) (s : State)
    (hK : Changes pt s0 s) (h_objects : pt .objects = true) (h_tallies : pt .tallies = true) (h_dict : pt .dict = true)
    (h_trace : pt .trace = true) : Changes pt s0 (traceEnableEffect x0 x1 x2 x3 s) := by
  unfold traceEnableEffect
  repeat' (with_reducible first
      | assumption | apply stopTrace_changes | apply startTrace_changes | apply dictDone_changes | apply dictAbort_changes
      | refine Changes.fst ‹_› ?_ | refine Changes.snd ‹_› ?_ | intro _ | split)

theorem execTraceEnable_changes {pt : Part → Bool} {s0 : State} (via : Via) (value : Nat) (s : State) (hK : Changes pt s0 s)
    (h_objects : pt .objects = true) (h_tallies : pt .tallies = true) (h_fed : pt .fed = true) (h_dict : pt .dict = true)
    (h_trace : pt .trace = true) : ∃ t, execTraceEnable via value s = .next t ∧ Changes pt s0 t := by
  refine ⟨_, rfl, ?_⟩
  repeat' (with_reducible first | assumption | apply traceEnableEffect_changes | apply requestWrite_changes | intro _)

theorem traceMarkEffect_changes {pt : Part → Bool} {s0 : State} (x0 : Via) (x1 : Nat) (x2 : Nat) (x3 : List Byte) (s : State)
    (hK : Changes pt s0 s) (h_tallies : pt .tallies = true) (h_dict : pt .dict = true) (h_trace : pt .trace = true) : Changes pt s0
    (traceMarkEffect x0 x1 x2 x3 s) := by
  unfold traceMarkEffect
  repeat' (with_reducible first | assumption | apply dictDone_changes | apply traceRec_changes | intro _)

theorem execTraceMark_changes {pt : Part → Bool} {s0 : State} (via : Via) (value : Nat) (s : State) (hK : Changes pt s0 s)
    (h_tallies : pt .tallies = true) (h_fed : pt .fed = true) (h_dict : pt .dict = true)
    (h_trace : pt .trace = true) : ∃ t, execTraceMark via value s = .next t ∧ Changes pt s0 t := by
  refine ⟨_, rfl, ?_⟩
  repeat' (with_reducible first | assumption | apply traceMarkEffect_changes | apply requestWrite_changes | intro _)

theorem traceData_changes {pt : Part → Bool} {s0 : State} (s : State) (r : TraceRec) (hK : Changes pt s0 s)
    (h_drawn : pt .drawn = true) : Changes pt s0 (traceData s r).2 := by
  unfold traceData
  repeat' (with_reducible first
      | assumption | apply drawFree_changes | refine Changes.fst ‹_› ?_ | refine Changes.snd ‹_› ?_ | intro _ | extract_lets | split
      | dsimp +zetaDelta only | refine Changes.put ?_)

theorem execTraceRecordWrite_changes {pt : Part → Bool} {s0 : State} (s : State) (hK : Changes pt s0 s) (h_drawn : pt .drawn = true)
    (h_tallies : pt .tallies = true) (h_devMem : pt .devMem = true) (h_pins : pt .pins = true) (h_evt : pt .evt = true)
    (h_trace : pt .trace = true) : ∃ t, execTraceRecordWrite s = .next t ∧ Changes pt s0 t := by
  refine ⟨_, rfl, ?_⟩
  repeat' (with_reducible first
      | assumption | refine bump_tally _ _ ?_ (by assumption) (by decide) | refine bump_object _ _ ?_ (by assumption) (by decide)
      | refine bump_any _ _ ?_ (by assumption) (by assumption) | refine bumpBy_tally _ _ _ ?_ (by assumption) (by decide)
      | refine bumpBy_object _ _ _ ?_ (by assumption) (by decide) | refine bumpBy_any _ _ _ ?_ (by assumption) (by assumption)
      | apply traceData_changes | apply pulse_changes | apply fire_changes | apply memWrite_changes
      | refine Changes.tally ?_ _ _ _ (by assumption) (by decide) | refine Changes.object ?_ _ _ _ (by assumption) (by decide)
      | refine Changes.any ?_ _ _ _ (by assumption) (by assumption) | refine Changes.fst ‹_› ?_ | refine Changes.snd ‹_› ?_ | intro _
      | extract_lets | split | dsimp +zetaDelta only | refine Changes.put ?_)

theorem execDebugTriggerIn_changes {pt : Part → Bool} {s0 : State} (s : State) (hK : Changes pt s0 s) (h_objects : pt .objects = true)
    (h_tallies : pt .tallies = true) (h_dict : pt .dict = true) (h_evt : pt .evt = true)
    (h_trace : pt .trace = true) : ∃ t, execDebugTriggerIn s = .next t ∧ Changes pt s0 t := by
  refine ⟨_, rfl, ?_⟩
  repeat' (with_reducible first
      | assumption | apply stopTrace_changes | apply startTrace_changes | apply fire_changes | apply traceRec_changes | intro _
      | extract_lets | split | dsimp +zetaDelta only)

theorem captureDr_changes {pt : Part → Bool} {s0 : State} (s : State) (hK : Changes pt s0 s)
    (h_drawn : pt .drawn = true) : Changes pt s0 (captureDr s).2 := by
  unfold captureDr
  repeat' (with_reducible first
      | assumption | apply reserveFree_changes | refine Changes.fst ‹_› ?_ | refine Changes.snd ‹_› ?_ | intro _ | extract_lets | split
      | dsimp +zetaDelta only)

theorem tapScan_changes {pt : Part → Bool} {s0 : State} (s : State) (op : Nat) (tdi : List Bool) (hK : Changes pt s0 s)
    (h_drawn : pt .drawn = true) (h_tap : pt .tap = true) : Changes pt s0 (tapScan s op tdi) := by
  unfold tapScan
  repeat' (with_reducible first
      | assumption | apply captureDr_changes | refine Changes.fst ‹_› ?_ | refine Changes.snd ‹_› ?_ | intro _ | extract_lets | split
      | dsimp +zetaDelta only | refine Changes.put ?_)

theorem execTapTestLogicReset_changes {pt : Part → Bool} {s0 : State} (s : State) (hK : Changes pt s0 s)
    (h_tap : pt .tap = true) : ∃ t, execTapTestLogicReset s = .next t ∧ Changes pt s0 t := by
  refine ⟨_, rfl, ?_⟩
  repeat' (with_reducible first | assumption | refine Changes.put ?_)

theorem execExtest_changes {pt : Part → Bool} {s0 : State} (tdi : List Bool) (s : State) (hK : Changes pt s0 s)
    (h_drawn : pt .drawn = true) (h_tap : pt .tap = true) : ∃ t, execExtest tdi s = .next t ∧ Changes pt s0 t := by
  refine ⟨_, rfl, ?_⟩
  repeat' (with_reducible first | assumption | apply tapScan_changes | intro _)

theorem execSamplePreload_changes {pt : Part → Bool} {s0 : State} (tdi : List Bool) (s : State) (hK : Changes pt s0 s)
    (h_drawn : pt .drawn = true) (h_tap : pt .tap = true) : ∃ t, execSamplePreload tdi s = .next t ∧ Changes pt s0 t := by
  refine ⟨_, rfl, ?_⟩
  repeat' (with_reducible first | assumption | apply tapScan_changes | intro _)

theorem execIdcode_changes {pt : Part → Bool} {s0 : State} (tdi : List Bool) (s : State) (hK : Changes pt s0 s)
    (h_drawn : pt .drawn = true) (h_tap : pt .tap = true) : ∃ t, execIdcode tdi s = .next t ∧ Changes pt s0 t := by
  refine ⟨_, rfl, ?_⟩
  repeat' (with_reducible first | assumption | apply tapScan_changes | intro _)

theorem execClamp_changes {pt : Part → Bool} {s0 : State} (tdi : List Bool) (s : State) (hK : Changes pt s0 s)
    (h_drawn : pt .drawn = true) (h_tap : pt .tap = true) : ∃ t, execClamp tdi s = .next t ∧ Changes pt s0 t := by
  refine ⟨_, rfl, ?_⟩
  repeat' (with_reducible first | assumption | apply tapScan_changes | intro _)

theorem execHighz_changes {pt : Part → Bool} {s0 : State} (tdi : List Bool) (s : State) (hK : Changes pt s0 s)
    (h_drawn : pt .drawn = true) (h_tap : pt .tap = true) : ∃ t, execHighz tdi s = .next t ∧ Changes pt s0 t := by
  refine ⟨_, rfl, ?_⟩
  repeat' (with_reducible first | assumption | apply tapScan_changes | intro _)

theorem execDbgStatus_changes {pt : Part → Bool} {s0 : State} (tdi : List Bool) (s : State) (hK : Changes pt s0 s)
    (h_drawn : pt .drawn = true) (h_tap : pt .tap = true) : ∃ t, execDbgStatus tdi s = .next t ∧ Changes pt s0 t := by
  refine ⟨_, rfl, ?_⟩
  repeat' (with_reducible first | assumption | apply tapScan_changes | intro _)

theorem execBypass_changes {pt : Part → Bool} {s0 : State} (opcode : Nat) (tdi : List Bool) (s : State) (hK : Changes pt s0 s)
    (h_drawn : pt .drawn = true) (h_tap : pt .tap = true) : ∃ t, execBypass opcode tdi s = .next t ∧ Changes pt s0 t := by
  refine ⟨_, rfl, ?_⟩
  repeat' (with_reducible first | assumption | apply tapScan_changes | intro _ | split)

/-! ## UnitOps -/

theorem enableEffect_changes {pt : Part → Bool} {s0 : State} (k : UnitKind) (base : Nat) (x0 : Via) (x1 : Nat) (x2 : Nat)
    (x3 : List Byte) (s : State) (hK : Changes pt s0 s) (h_objects : pt .objects = true) (h_tallies : pt .tallies = true)
    (h_txa : pt .txa = true) (h_sdx : pt .sdx = true) (h_rsv : pt .rsv = true) (h_mdc : pt .mdc = true) (h_tok : pt .tok = true)
    (h_fed : pt .fed = true) (h_dict : pt .dict = true) : Changes pt s0 (enableEffect k base x0 x1 x2 x3 s) := by
  unfold enableEffect
  repeat' (with_reducible first
      | assumption | apply startLong_changes | apply dictDone_changes | apply setDraining_changes | apply setEnable_changes
      | apply Changes.foldl | apply Changes.foldlFst | apply Changes.foldlSnd | intro _ | extract_lets | split | dsimp +zetaDelta only)

theorem enableWrite_changes {pt : Part → Bool} {s0 : State} (k : UnitKind) (high : Bool) (width : Nat) (via : Via) (value : Nat)
    (s : State) (hK : Changes pt s0 s) (h_objects : pt .objects = true) (h_tallies : pt .tallies = true) (h_txa : pt .txa = true)
    (h_sdx : pt .sdx = true) (h_rsv : pt .rsv = true) (h_mdc : pt .mdc = true) (h_tok : pt .tok = true) (h_fed : pt .fed = true)
    (h_dict : pt .dict = true) (h_trace : pt .trace = true) : Changes pt s0 (enableWrite k high width via value s) := by
  unfold enableWrite
  repeat' (with_reducible first
      | assumption | apply enableEffect_changes | apply requestWrite_changes | intro _ | extract_lets | split | dsimp +zetaDelta only)

theorem setRsvCore_changes {pt : Part → Bool} {s0 : State} (s : State) (c : Nat) (call : Option RsvCall) (hK : Changes pt s0 s)
    (h_rsv : pt .rsv = true) : Changes pt s0 (setRsvCore s c call) := by
  unfold setRsvCore
  repeat' (with_reducible first | assumption | refine Changes.put ?_)

theorem refuseCalls_changes {pt : Part → Bool} {s0 : State} (s : State) (hK : Changes pt s0 s) (h_drawn : pt .drawn = true)
    (h_objects : pt .objects = true) (h_tallies : pt .tallies = true) (h_devMem : pt .devMem = true) (h_pairs : pt .pairs = true)
    (h_slots : pt .slots = true) (h_cmds : pt .cmds = true) (h_txa : pt .txa = true) (h_sdx : pt .sdx = true) (h_rsv : pt .rsv = true)
    (h_mdc : pt .mdc = true) (h_tok : pt .tok = true) (h_bat : pt .bat = true) (h_pools : pt .pools = true) (h_net : pt .net = true)
    (h_fed : pt .fed = true) (h_evt : pt .evt = true) (h_trace : pt .trace = true) : Changes pt s0 (refuseCalls s) := by
  unfold refuseCalls
  repeat' (with_reducible first
      | assumption | apply errFault_changes | apply Changes.foldl | apply Changes.foldlFst | apply Changes.foldlSnd | intro _
      | refine Changes.put ?_)

theorem modRsvWork_changes {pt : Part → Bool} {s0 : State} (s : State) (id : Nat) (f : RsvWork → RsvWork) (hK : Changes pt s0 s)
    (h_rsv : pt .rsv = true) : Changes pt s0 (modRsvWork s id f) := by
  unfold modRsvWork
  repeat' (with_reducible first | assumption | split | refine Changes.put ?_)

theorem giveCall_changes {pt : Part → Bool} {s0 : State} (s : State) (core n : Nat) (hK : Changes pt s0 s)
    (h_rsv : pt .rsv = true) : Changes pt s0 (giveCall s core n) := by
  unfold giveCall
  repeat' (with_reducible first
      | assumption | apply modRsvWork_changes | apply setRsvCore_changes | refine Changes.fst ‹_› ?_ | refine Changes.snd ‹_› ?_
      | intro _ | split | refine Changes.put ?_)

theorem takeCall_changes {pt : Part → Bool} {s0 : State} (s : State) (core : Nat) (hK : Changes pt s0 s) (h_arbs : pt .arbs = true)
    (h_rsv : pt .rsv = true) : Changes pt s0 (takeCall s core) := by
  unfold takeCall
  repeat' (with_reducible first
      | assumption | apply giveCall_changes | apply setRsvCore_changes | apply arbGrant_changes | refine Changes.fst ‹_› ?_
      | refine Changes.snd ‹_› ?_ | intro _ | split | refine Changes.put ?_)

theorem serveCalls_changes {pt : Part → Bool} {s0 : State} (x0 : Nat) (s : State) (hK : Changes pt s0 s) (h_arbs : pt .arbs = true)
    (h_rsv : pt .rsv = true) : Changes pt s0 (serveCalls x0 s) := by
  induction x0 generalizing s with
  | zero => unfold serveCalls; exact hK
  | succ k ih =>
    unfold serveCalls
    repeat' (with_reducible first
        | assumption | apply ih | apply takeCall_changes | refine Changes.fst ‹_› ?_ | refine Changes.snd ‹_› ?_ | intro _ | split)

theorem rsvServe_changes {pt : Part → Bool} {s0 : State} (s : State) (hK : Changes pt s0 s) (h_drawn : pt .drawn = true)
    (h_objects : pt .objects = true) (h_tallies : pt .tallies = true) (h_devMem : pt .devMem = true) (h_pairs : pt .pairs = true)
    (h_slots : pt .slots = true) (h_cmds : pt .cmds = true) (h_arbs : pt .arbs = true) (h_txa : pt .txa = true) (h_sdx : pt .sdx = true)
    (h_rsv : pt .rsv = true) (h_mdc : pt .mdc = true) (h_tok : pt .tok = true) (h_bat : pt .bat = true) (h_pools : pt .pools = true)
    (h_net : pt .net = true) (h_fed : pt .fed = true) (h_evt : pt .evt = true) (h_trace : pt .trace = true) : Changes pt s0
    (rsvServe s) := by
  unfold rsvServe
  repeat' (with_reducible first | assumption | apply serveCalls_changes | apply refuseCalls_changes | intro _ | split)

theorem askCalls_changes {pt : Part → Bool} {s0 : State} (s : State) (slot : Nat) (user : RsvUser) (n : Nat) (hK : Changes pt s0 s)
    (h_drawn : pt .drawn = true) (h_objects : pt .objects = true) (h_tallies : pt .tallies = true) (h_devMem : pt .devMem = true)
    (h_pairs : pt .pairs = true) (h_slots : pt .slots = true) (h_cmds : pt .cmds = true) (h_arbs : pt .arbs = true)
    (h_txa : pt .txa = true) (h_sdx : pt .sdx = true) (h_rsv : pt .rsv = true) (h_mdc : pt .mdc = true) (h_tok : pt .tok = true)
    (h_bat : pt .bat = true) (h_pools : pt .pools = true) (h_net : pt .net = true) (h_fed : pt .fed = true) (h_evt : pt .evt = true)
    (h_trace : pt .trace = true) : Changes pt s0 (askCalls s slot user n) := by
  unfold askCalls
  repeat' (with_reducible first | assumption | apply rsvServe_changes | intro _ | refine Changes.put ?_)

theorem needCalls_changes {pt : Part → Bool} {s0 : State} (s : State) (slot : Nat) (user : RsvUser) (n : Nat) (hK : Changes pt s0 s)
    (h_drawn : pt .drawn = true) (h_objects : pt .objects = true) (h_tallies : pt .tallies = true) (h_devMem : pt .devMem = true)
    (h_pairs : pt .pairs = true) (h_slots : pt .slots = true) (h_cmds : pt .cmds = true) (h_arbs : pt .arbs = true)
    (h_txa : pt .txa = true) (h_sdx : pt .sdx = true) (h_rsv : pt .rsv = true) (h_mdc : pt .mdc = true) (h_tok : pt .tok = true)
    (h_bat : pt .bat = true) (h_pools : pt .pools = true) (h_net : pt .net = true) (h_fed : pt .fed = true) (h_evt : pt .evt = true)
    (h_trace : pt .trace = true) : Changes pt s0 (needCalls s slot user n).1 := by
  unfold needCalls
  repeat' (with_reducible first | assumption | apply askCalls_changes | intro _ | split | refine Changes.put ?_)

theorem callBack_changes {pt : Part → Bool} {s0 : State} (s : State) (id : Nat) (hK : Changes pt s0 s)
    (h_rsv : pt .rsv = true) : Changes pt s0 (callBack s id) := by
  unfold callBack
  repeat' (with_reducible first
      | assumption | apply modRsvWork_changes | intro _ | extract_lets | dsimp +zetaDelta only | refine Changes.put ?_)

theorem selftestDone_changes {pt : Part → Bool} {s0 : State} (s : State) (k : UnitKind) (failed : List Nat) (hK : Changes pt s0 s)
    (h_drawn : pt .drawn = true) (h_objects : pt .objects = true) (h_tallies : pt .tallies = true) (h_devMem : pt .devMem = true)
    (h_pairs : pt .pairs = true) (h_slots : pt .slots = true) (h_cmds : pt .cmds = true) (h_arbs : pt .arbs = true)
    (h_txa : pt .txa = true) (h_sdx : pt .sdx = true) (h_rsv : pt .rsv = true) (h_mdc : pt .mdc = true) (h_tok : pt .tok = true)
    (h_bat : pt .bat = true) (h_pools : pt .pools = true) (h_net : pt .net = true) (h_fed : pt .fed = true) (h_dict : pt .dict = true)
    (h_evt : pt .evt = true) (h_trace : pt .trace = true) : Changes pt s0 (selftestDone s k failed) := by
  unfold selftestDone
  repeat' (with_reducible first
      | assumption | apply rsvServe_changes | apply localFinish_changes | apply setRetired_changes | apply setEnable_changes
      | apply raiseErr_changes | apply Changes.foldl | apply Changes.foldlFst | apply Changes.foldlSnd | refine Changes.fst ‹_› ?_
      | refine Changes.snd ‹_› ?_ | intro _ | extract_lets | split | dsimp +zetaDelta only)

theorem execUnitSelftestComplete_changes {pt : Part → Bool} {s0 : State} (kind : UnitKind) (failed : List Nat) (s : State)
    (hK : Changes pt s0 s) (h_drawn : pt .drawn = true) (h_objects : pt .objects = true) (h_tallies : pt .tallies = true)
    (h_devMem : pt .devMem = true) (h_pairs : pt .pairs = true) (h_slots : pt .slots = true) (h_cmds : pt .cmds = true)
    (h_arbs : pt .arbs = true) (h_txa : pt .txa = true) (h_sdx : pt .sdx = true) (h_rsv : pt .rsv = true) (h_mdc : pt .mdc = true)
    (h_tok : pt .tok = true) (h_bat : pt .bat = true) (h_pools : pt .pools = true) (h_net : pt .net = true) (h_fed : pt .fed = true)
    (h_dict : pt .dict = true) (h_evt : pt .evt = true)
    (h_trace : pt .trace = true) : ∃ t, execUnitSelftestComplete kind failed s = .next t ∧ Changes pt s0 t := by
  refine ⟨_, rfl, ?_⟩
  repeat' (with_reducible first | assumption | apply selftestDone_changes | intro _)

end Sys2Proof.Machine
end

