-- ==== Sys2Proof/Laws/FramesUnits.lean ====
section
/-! SUPPORT. Which parts of the state the units, delivery, the ports and the keys leave as they were. -/

set_option linter.unusedTactic false
set_option linter.unreachableTactic false
set_option linter.unusedVariables false

namespace Sys2Proof.Machine

set_option Elab.async false

/-! ## PrimeSets -/

theorem setSet_changes {pt : Part → Bool} {s0 : State} (s : State) (n : Nat) (x : PrimeSet) (hK : Changes pt s0 s)
    (h_sets : pt .sets = true) : Changes pt s0 (setSet s n x) := by
  unfold setSet
  repeat' (with_reducible first | assumption | refine Changes.put ?_)

theorem primeImageEffect_changes {pt : Part → Bool} {s0 : State} (x0 : Via) (x1 : Nat) (x2 : Nat) (x3 : List Byte) (s : State)
    (hK : Changes pt s0 s) (h_tallies : pt .tallies = true) (h_sets : pt .sets = true) (h_fed : pt .fed = true)
    (h_dict : pt .dict = true) : Changes pt s0 (primeImageEffect x0 x1 x2 x3 s) := by
  unfold primeImageEffect
  repeat' (with_reducible first
      | assumption | apply setSet_changes | apply packageEffect_changes | apply startLong_changes | apply keepBefore_changes
      | apply dictAbort_changes | intro _ | extract_lets | split | dsimp +zetaDelta only)

theorem execPrimeSetImageWrite_changes {pt : Part → Bool} {s0 : State} (via : Via) (set : Nat) (data : List Byte) (s : State)
    (hK : Changes pt s0 s) (h_tallies : pt .tallies = true) (h_sets : pt .sets = true) (h_fed : pt .fed = true)
    (h_dict : pt .dict = true)
    (h_trace : pt .trace = true) : ∃ t, execPrimeSetImageWrite via set data s = .next t ∧ Changes pt s0 t := by
  refine ⟨_, rfl, ?_⟩
  repeat' (with_reducible first | assumption | apply primeImageEffect_changes | apply requestWrite_changes | intro _)

theorem primePassed_changes {pt : Part → Bool} {s0 : State} (s : State) (set : Nat) (othersPass : Bool) (hK : Changes pt s0 s)
    (h_sets : pt .sets = true) : Changes pt s0 (primePassed s set othersPass) := by
  unfold primePassed
  repeat' (with_reducible first | assumption | apply setSet_changes | intro _ | split | refine Changes.put ?_)

theorem execPrimeSetValidation_changes {pt : Part → Bool} {s0 : State} (set : Nat) (othersPass : Bool) (s : State)
    (hK : Changes pt s0 s) (h_tallies : pt .tallies = true) (h_sets : pt .sets = true) (h_fed : pt .fed = true)
    (h_dict : pt .dict = true) : ∃ t, execPrimeSetValidation set othersPass s = .next t ∧ Changes pt s0 t := by
  refine ⟨_, rfl, ?_⟩
  repeat' (with_reducible first
      | assumption | apply primePassed_changes | apply localFinish_changes | refine Changes.fst ‹_› ?_ | refine Changes.snd ‹_› ?_
      | intro _ | split)

theorem primeFirstByte_changes {pt : Part → Bool} {s0 : State} (s : State) (set : Nat) (hK : Changes pt s0 s) (h_sets : pt .sets = true)
    (h_dict : pt .dict = true) : Changes pt s0 (primeFirstByte s set) := by
  unfold primeFirstByte
  repeat' (with_reducible first | assumption | apply setSet_changes | apply keep_changes | intro _ | split | refine Changes.put ?_)

/-! ## Txa -/

theorem setRegs_changes {pt : Part → Bool} {s0 : State} (s : State) (t : Nat) (r : TileRegs) (hK : Changes pt s0 s)
    (h_txa : pt .txa = true) : Changes pt s0 (setRegs s t r) := by
  unfold setRegs
  repeat' (with_reducible first | assumption | refine Changes.put ?_)

theorem txaStart_changes {pt : Part → Bool} {s0 : State} (s : State) (i : TxaItem) (hK : Changes pt s0 s)
    (h_drawn : pt .drawn = true) : Changes pt s0 (txaStart s i).2 := by
  unfold txaStart
  repeat' (with_reducible first
      | assumption | apply drawFree_changes | refine Changes.fst ‹_› ?_ | refine Changes.snd ‹_› ?_ | intro _ | extract_lets | split
      | dsimp +zetaDelta only)

theorem takeTile_changes {pt : Part → Bool} {s0 : State} (s : State) (t : Nat) (i : TxaItem) (hK : Changes pt s0 s)
    (h_drawn : pt .drawn = true) (h_txa : pt .txa = true) : Changes pt s0 (takeTile s t i) := by
  unfold takeTile
  repeat' (with_reducible first
      | assumption | apply txaStart_changes | apply setRegs_changes | refine Changes.fst ‹_› ?_ | refine Changes.snd ‹_› ?_ | intro _
      | extract_lets | split | dsimp +zetaDelta only | refine Changes.put ?_)

theorem addWork_changes {pt : Part → Bool} {s0 : State} (s : State) (slot : Nat) (user : ArrayUser) (mode passes rows count : Nat)
    (hK : Changes pt s0 s) (h_txa : pt .txa = true) : Changes pt s0 (addWork s slot user mode passes rows count) := by
  unfold addWork
  repeat' (with_reducible first | assumption | split | refine Changes.put ?_)

theorem dropWork_changes {pt : Part → Bool} {s0 : State} (s : State) (user : ArrayUser) (hK : Changes pt s0 s)
    (h_txa : pt .txa = true) : Changes pt s0 (dropWork s user) := by
  unfold dropWork
  repeat' (with_reducible first | assumption | refine Changes.put ?_)

theorem takeReady_changes {pt : Part → Bool} {s0 : State} (s : State) (i : TxaItem) (hK : Changes pt s0 s)
    (h_txa : pt .txa = true) : Changes pt s0 (takeReady s i) := by
  unfold takeReady
  repeat' (with_reducible first | assumption | refine Changes.fst ‹_› ?_ | refine Changes.snd ‹_› ?_ | split | refine Changes.put ?_)

theorem refuseUser_changes {pt : Part → Bool} {s0 : State} (s : State) (user : ArrayUser) (hK : Changes pt s0 s)
    (h_objects : pt .objects = true) (h_tallies : pt .tallies = true) (h_devMem : pt .devMem = true) (h_slots : pt .slots = true)
    (h_cmds : pt .cmds = true) (h_forge : pt .forge = true) (h_pools : pt .pools = true) (h_evt : pt .evt = true)
    (h_trace : pt .trace = true) : Changes pt s0 (refuseUser s user) := by
  unfold refuseUser
  repeat' (with_reducible first
      | assumption | apply freeBuffers_changes | apply finishCmd_changes | refine Changes.fst ‹_› ?_ | refine Changes.snd ‹_› ?_
      | intro _ | extract_lets | split | dsimp +zetaDelta only | refine Changes.put ?_)

theorem refuseReady_changes {pt : Part → Bool} {s0 : State} (s : State) (i : TxaItem) (code : Nat) (hK : Changes pt s0 s)
    (h_drawn : pt .drawn = true) (h_objects : pt .objects = true) (h_tallies : pt .tallies = true) (h_devMem : pt .devMem = true)
    (h_pairs : pt .pairs = true) (h_slots : pt .slots = true) (h_cmds : pt .cmds = true) (h_txa : pt .txa = true)
    (h_forge : pt .forge = true) (h_sdx : pt .sdx = true) (h_rsv : pt .rsv = true) (h_mdc : pt .mdc = true) (h_tok : pt .tok = true)
    (h_bat : pt .bat = true) (h_pools : pt .pools = true) (h_net : pt .net = true) (h_fed : pt .fed = true) (h_evt : pt .evt = true)
    (h_trace : pt .trace = true) : Changes pt s0 (refuseReady s i code) := by
  unfold refuseReady
  repeat' (with_reducible first
      | assumption | apply refuseUser_changes | apply takeReady_changes | apply dropWork_changes | apply refuseItem_changes
      | apply errFault_changes | refine Changes.fst ‹_› ?_ | refine Changes.snd ‹_› ?_ | intro _ | split)

theorem execTxaDispatch_changes {pt : Part → Bool} {s0 : State} (s : State) (hK : Changes pt s0 s) (h_drawn : pt .drawn = true)
    (h_objects : pt .objects = true) (h_tallies : pt .tallies = true) (h_devMem : pt .devMem = true) (h_pairs : pt .pairs = true)
    (h_slots : pt .slots = true) (h_cmds : pt .cmds = true) (h_arbs : pt .arbs = true) (h_txa : pt .txa = true)
    (h_forge : pt .forge = true) (h_sdx : pt .sdx = true) (h_rsv : pt .rsv = true) (h_mdc : pt .mdc = true) (h_tok : pt .tok = true)
    (h_bat : pt .bat = true) (h_pools : pt .pools = true) (h_net : pt .net = true) (h_fed : pt .fed = true) (h_evt : pt .evt = true)
    (h_trace : pt .trace = true) : ∃ t, execTxaDispatch s = .next t ∧ Changes pt s0 t := by
  refine ⟨_, rfl, ?_⟩
  repeat' (with_reducible first
      | assumption | apply refuseReady_changes | apply takeReady_changes | apply takeTile_changes | apply arbGrant_changes
      | refine Changes.fst ‹_› ?_ | refine Changes.snd ‹_› ?_ | intro _ | extract_lets | split | dsimp +zetaDelta only)

theorem raiseTimes_changes {pt : Part → Bool} {s0 : State} (s : State) (code slot : Nat) (x0 : Nat) (hK : Changes pt s0 s)
    (h_tallies : pt .tallies = true) (h_evt : pt .evt = true) (h_trace : pt .trace = true) : Changes pt s0
    (raiseTimes s code slot x0) := by
  induction x0 generalizing s code slot with
  | zero => unfold raiseTimes; exact hK
  | succ k ih =>
    unfold raiseTimes
    repeat' (with_reducible first | assumption | apply ih | apply raiseErr_changes | intro _ | split)

theorem txaStore_changes {pt : Part → Bool} {s0 : State} (s : State) (i : TxaItem) (o : TxaOut) (poisoned : Bool) (hK : Changes pt s0 s)
    (h_tallies : pt .tallies = true) (h_staging : pt .staging = true) : Changes pt s0 (txaStore s i o poisoned) := by
  unfold txaStore
  repeat' (with_reducible first
      | assumption | apply txaWritePoisoned_changes | apply txaMark_changes | apply txaWrite_changes | intro _ | extract_lets | split
      | dsimp +zetaDelta only)

theorem txaFinish_changes {pt : Part → Bool} {s0 : State} (s : State) (i : TxaItem) (t : Nat) (g : TxaProg) (hK : Changes pt s0 s)
    (h_objects : pt .objects = true) (h_tallies : pt .tallies = true) (h_staging : pt .staging = true) (h_cmds : pt .cmds = true)
    (h_txa : pt .txa = true) (h_sdx : pt .sdx = true) (h_rsv : pt .rsv = true) (h_mdc : pt .mdc = true) (h_tok : pt .tok = true)
    (h_evt : pt .evt = true) (h_trace : pt .trace = true) : Changes pt s0 (txaFinish s i t g) := by
  unfold txaFinish
  repeat' (with_reducible first
      | assumption | refine bump_tally _ _ ?_ (by assumption) (by decide) | refine bump_object _ _ ?_ (by assumption) (by decide)
      | refine bump_any _ _ ?_ (by assumption) (by assumption) | refine bumpBy_tally _ _ _ ?_ (by assumption) (by decide)
      | refine bumpBy_object _ _ _ ?_ (by assumption) (by decide) | refine bumpBy_any _ _ _ ?_ (by assumption) (by assumption)
      | apply txaStore_changes | apply raiseTimes_changes | apply setRegs_changes | apply retireUnit_changes | apply finishCmd_changes
      | apply raiseErr_changes | refine Changes.tally ?_ _ _ _ (by assumption) (by decide)
      | refine Changes.object ?_ _ _ _ (by assumption) (by decide) | refine Changes.any ?_ _ _ _ (by assumption) (by assumption)
      | intro _ | extract_lets | split | dsimp +zetaDelta only | refine Changes.put ?_)

theorem spoilUser_changes {pt : Part → Bool} {s0 : State} (s : State) (user : ArrayUser) (hK : Changes pt s0 s)
    (h_forge : pt .forge = true) (h_mdc : pt .mdc = true) (h_bat : pt .bat = true) : Changes pt s0 (spoilUser s user) := by
  unfold spoilUser
  repeat' (with_reducible first | assumption | refine Changes.fst ‹_› ?_ | refine Changes.snd ‹_› ?_ | split | refine Changes.put ?_)

theorem endPart_changes {pt : Part → Bool} {s0 : State} (s : State) (id : Nat) (hK : Changes pt s0 s)
    (h_txa : pt .txa = true) : Changes pt s0 (endPart s id) := by
  unfold endPart
  repeat' (with_reducible first | assumption | split | refine Changes.put ?_)

theorem partFinish_changes {pt : Part → Bool} {s0 : State} (s : State) (i : TxaItem) (id t retries : Nat) (failed : Bool)
    (hK : Changes pt s0 s) (h_objects : pt .objects = true) (h_tallies : pt .tallies = true) (h_txa : pt .txa = true)
    (h_forge : pt .forge = true) (h_sdx : pt .sdx = true) (h_rsv : pt .rsv = true) (h_mdc : pt .mdc = true) (h_tok : pt .tok = true)
    (h_bat : pt .bat = true) (h_evt : pt .evt = true) (h_trace : pt .trace = true) : Changes pt s0
    (partFinish s i id t retries failed) := by
  unfold partFinish
  repeat' (with_reducible first
      | assumption | refine bump_tally _ _ ?_ (by assumption) (by decide) | refine bump_object _ _ ?_ (by assumption) (by decide)
      | refine bump_any _ _ ?_ (by assumption) (by assumption) | refine bumpBy_tally _ _ _ ?_ (by assumption) (by decide)
      | refine bumpBy_object _ _ _ ?_ (by assumption) (by decide) | refine bumpBy_any _ _ _ ?_ (by assumption) (by assumption)
      | apply endPart_changes | apply spoilUser_changes | apply raiseTimes_changes | apply retireUnit_changes | apply raiseErr_changes
      | refine Changes.tally ?_ _ _ _ (by assumption) (by decide) | refine Changes.object ?_ _ _ _ (by assumption) (by decide)
      | refine Changes.any ?_ _ _ _ (by assumption) (by assumption) | refine Changes.fst ‹_› ?_ | refine Changes.snd ‹_› ?_ | intro _
      | extract_lets | split | dsimp +zetaDelta only)

theorem execTxaItemComplete_changes {pt : Part → Bool} {s0 : State} (tile : Nat) (faults : List TxaFault) (reads : SramReads)
    (s : State) (hK : Changes pt s0 s) (h_objects : pt .objects = true) (h_tallies : pt .tallies = true)
    (h_staging : pt .staging = true) (h_cmds : pt .cmds = true) (h_txa : pt .txa = true) (h_forge : pt .forge = true)
    (h_sdx : pt .sdx = true) (h_rsv : pt .rsv = true) (h_mdc : pt .mdc = true) (h_tok : pt .tok = true) (h_bat : pt .bat = true)
    (h_evt : pt .evt = true) (h_ras : pt .ras = true)
    (h_trace : pt .trace = true) : ∃ t, execTxaItemComplete tile faults reads s = .next t ∧ Changes pt s0 t := by
  refine ⟨_, rfl, ?_⟩
  repeat' (with_reducible first
      | assumption | refine bump_tally _ _ ?_ (by assumption) (by decide) | refine bump_object _ _ ?_ (by assumption) (by decide)
      | refine bump_any _ _ ?_ (by assumption) (by assumption) | refine bumpBy_tally _ _ _ ?_ (by assumption) (by decide)
      | refine bumpBy_object _ _ _ ?_ (by assumption) (by decide) | refine bumpBy_any _ _ _ ?_ (by assumption) (by assumption)
      | apply partFinish_changes | apply txaFinish_changes | apply unitDone_changes | apply sramReads_changes
      | refine Changes.tally ?_ _ _ _ (by assumption) (by decide) | refine Changes.object ?_ _ _ _ (by assumption) (by decide)
      | refine Changes.any ?_ _ _ _ (by assumption) (by assumption) | refine Changes.fst ‹_› ?_ | refine Changes.snd ‹_› ?_ | intro _
      | extract_lets | split | dsimp +zetaDelta only | refine Changes.put ?_)

theorem abandonTile_changes {pt : Part → Bool} {s0 : State} (s : State) (t : Nat) (hK : Changes pt s0 s) (h_drawn : pt .drawn = true)
    (h_objects : pt .objects = true) (h_tallies : pt .tallies = true) (h_txa : pt .txa = true) (h_sdx : pt .sdx = true)
    (h_rsv : pt .rsv = true) (h_mdc : pt .mdc = true) (h_tok : pt .tok = true) : Changes pt s0 (abandonTile s t) := by
  unfold abandonTile
  repeat' (with_reducible first
      | assumption | refine bump_tally _ _ ?_ (by assumption) (by decide) | refine bump_object _ _ ?_ (by assumption) (by decide)
      | refine bump_any _ _ ?_ (by assumption) (by assumption) | refine bumpBy_tally _ _ _ ?_ (by assumption) (by decide)
      | refine bumpBy_object _ _ _ ?_ (by assumption) (by decide) | refine bumpBy_any _ _ _ ?_ (by assumption) (by assumption)
      | apply unitDone_changes | apply elapsedFclk_changes | refine Changes.tally ?_ _ _ _ (by assumption) (by decide)
      | refine Changes.object ?_ _ _ _ (by assumption) (by decide) | refine Changes.any ?_ _ _ _ (by assumption) (by assumption)
      | refine Changes.fst ‹_› ?_ | refine Changes.snd ‹_› ?_ | intro _ | extract_lets | split | dsimp +zetaDelta only
      | refine Changes.put ?_)

theorem execTxaTileEnableWrite_changes {pt : Part → Bool} {s0 : State} (via : Via) (high : Bool) (value : Nat) (s : State)
    (hK : Changes pt s0 s) (h_objects : pt .objects = true) (h_tallies : pt .tallies = true) (h_txa : pt .txa = true)
    (h_sdx : pt .sdx = true) (h_rsv : pt .rsv = true) (h_mdc : pt .mdc = true) (h_tok : pt .tok = true) (h_fed : pt .fed = true)
    (h_dict : pt .dict = true)
    (h_trace : pt .trace = true) : ∃ t, execTxaTileEnableWrite via high value s = .next t ∧ Changes pt s0 t := by
  refine ⟨_, rfl, ?_⟩
  repeat' (with_reducible first | assumption | apply enableWrite_changes | intro _)

/-! ## Rsv -/

theorem execRsvCall_changes {pt : Part → Bool} {s0 : State} (slot purpose sample block draw : Nat) (s : State) (hK : Changes pt s0 s)
    (h_drawn : pt .drawn = true) (h_objects : pt .objects = true) (h_tallies : pt .tallies = true) (h_devMem : pt .devMem = true)
    (h_pairs : pt .pairs = true) (h_slots : pt .slots = true) (h_cmds : pt .cmds = true) (h_arbs : pt .arbs = true)
    (h_txa : pt .txa = true) (h_sdx : pt .sdx = true) (h_rsv : pt .rsv = true) (h_mdc : pt .mdc = true) (h_tok : pt .tok = true)
    (h_bat : pt .bat = true) (h_pools : pt .pools = true) (h_net : pt .net = true) (h_fed : pt .fed = true) (h_evt : pt .evt = true)
    (h_trace : pt .trace = true) : ∃ t, execRsvCall slot purpose sample block draw s = .next t ∧ Changes pt s0 t := by
  refine ⟨_, rfl, ?_⟩
  repeat' (with_reducible first | assumption | apply rsvServe_changes | apply errFault_changes | intro _ | split | refine Changes.put ?_)

theorem callEnds_changes {pt : Part → Bool} {s0 : State} (s : State) (c : RsvCall) (hK : Changes pt s0 s)
    (h_rsv : pt .rsv = true) : Changes pt s0 (callEnds s c) := by
  unfold callEnds
  repeat' (with_reducible first
      | assumption | apply callBack_changes | refine Changes.fst ‹_› ?_ | refine Changes.snd ‹_› ?_ | intro _ | extract_lets | split
      | dsimp +zetaDelta only | refine Changes.put ?_)

theorem execRsvCallReturn_changes {pt : Part → Bool} {s0 : State} (core : Nat) (disagree : Bool) (s : State) (hK : Changes pt s0 s)
    (h_drawn : pt .drawn = true) (h_objects : pt .objects = true) (h_tallies : pt .tallies = true) (h_devMem : pt .devMem = true)
    (h_pairs : pt .pairs = true) (h_slots : pt .slots = true) (h_cmds : pt .cmds = true) (h_arbs : pt .arbs = true)
    (h_txa : pt .txa = true) (h_sdx : pt .sdx = true) (h_rsv : pt .rsv = true) (h_mdc : pt .mdc = true) (h_tok : pt .tok = true)
    (h_bat : pt .bat = true) (h_pools : pt .pools = true) (h_net : pt .net = true) (h_fed : pt .fed = true) (h_evt : pt .evt = true)
    (h_trace : pt .trace = true) : ∃ t, execRsvCallReturn core disagree s = .next t ∧ Changes pt s0 t := by
  refine ⟨_, rfl, ?_⟩
  repeat' (with_reducible first
      | assumption | refine bump_tally _ _ ?_ (by assumption) (by decide) | refine bump_object _ _ ?_ (by assumption) (by decide)
      | refine bump_any _ _ ?_ (by assumption) (by assumption) | refine bumpBy_tally _ _ _ ?_ (by assumption) (by decide)
      | refine bumpBy_object _ _ _ ?_ (by assumption) (by decide) | refine bumpBy_any _ _ _ ?_ (by assumption) (by assumption)
      | apply callEnds_changes | apply rsvServe_changes | apply setRsvCore_changes | apply retireUnit_changes | apply unitDone_changes
      | apply raiseErr_changes | refine Changes.tally ?_ _ _ _ (by assumption) (by decide)
      | refine Changes.object ?_ _ _ _ (by assumption) (by decide) | refine Changes.any ?_ _ _ _ (by assumption) (by assumption)
      | refine Changes.fst ‹_› ?_ | refine Changes.snd ‹_› ?_ | intro _ | extract_lets | split | dsimp +zetaDelta only
      | refine Changes.put ?_)

theorem execRsvCoreEnableWrite_changes {pt : Part → Bool} {s0 : State} (via : Via) (value : Nat) (s : State) (hK : Changes pt s0 s)
    (h_objects : pt .objects = true) (h_tallies : pt .tallies = true) (h_txa : pt .txa = true) (h_sdx : pt .sdx = true)
    (h_rsv : pt .rsv = true) (h_mdc : pt .mdc = true) (h_tok : pt .tok = true) (h_fed : pt .fed = true) (h_dict : pt .dict = true)
    (h_trace : pt .trace = true) : ∃ t, execRsvCoreEnableWrite via value s = .next t ∧ Changes pt s0 t := by
  refine ⟨_, rfl, ?_⟩
  repeat' (with_reducible first | assumption | apply enableWrite_changes | intro _)

/-! ## Forge -/

theorem fftWork_changes {pt : Part → Bool} {s0 : State} (s : State) (i : ForgeItem) (rows : Nat) (hK : Changes pt s0 s)
    (h_txa : pt .txa = true) : Changes pt s0 (fftWork s i rows) := by
  unfold fftWork
  repeat' (with_reducible first
      | assumption | apply addWork_changes | apply Changes.foldl | apply Changes.foldlFst | apply Changes.foldlSnd | intro _)

theorem limbWork_changes {pt : Part → Bool} {s0 : State} (s : State) (i : ForgeItem) (hK : Changes pt s0 s)
    (h_txa : pt .txa = true) : Changes pt s0 (limbWork s i) := by
  unfold limbWork
  repeat' (with_reducible first
      | assumption | apply addWork_changes | apply Changes.foldl | apply Changes.foldlFst | apply Changes.foldlSnd | intro _
      | extract_lets | split | dsimp +zetaDelta only)

theorem readKey_changes {pt : Part → Bool} {s0 : State} (s : State) (i : ForgeItem) (hK : Changes pt s0 s)
    (h_tallies : pt .tallies = true) (h_evt : pt .evt = true) (h_trace : pt .trace = true) : Changes pt s0 (readKey s i) := by
  unfold readKey
  repeat' (with_reducible first
      | assumption | apply raiseTimes_changes | apply readChecked_changes | apply Changes.foldl | apply Changes.foldlFst
      | apply Changes.foldlSnd | intro _ | extract_lets | split | dsimp +zetaDelta only)

theorem forgeStart_changes {pt : Part → Bool} {s0 : State} (s : State) (i : ForgeItem) (work : Nat) (hK : Changes pt s0 s)
    (h_drawn : pt .drawn = true) (h_objects : pt .objects = true) (h_tallies : pt .tallies = true) (h_devMem : pt .devMem = true)
    (h_roots : pt .roots = true) (h_pairs : pt .pairs = true) (h_slots : pt .slots = true) (h_cmds : pt .cmds = true)
    (h_arbs : pt .arbs = true) (h_txa : pt .txa = true) (h_forge : pt .forge = true) (h_sdx : pt .sdx = true) (h_rsv : pt .rsv = true)
    (h_mdc : pt .mdc = true) (h_tok : pt .tok = true) (h_bat : pt .bat = true) (h_pools : pt .pools = true) (h_net : pt .net = true)
    (h_fed : pt .fed = true) (h_evt : pt .evt = true) (h_trace : pt .trace = true) : Changes pt s0 (forgeStart s i work) := by
  unfold forgeStart
  repeat' (with_reducible first
      | assumption | apply readKey_changes | apply fftWork_changes | apply askCalls_changes | apply raiseErr_changes
      | apply Changes.foldl | apply Changes.foldlFst | apply Changes.foldlSnd | intro _ | extract_lets | split | dsimp +zetaDelta only
      | refine Changes.put ?_)

theorem takeForge_changes {pt : Part → Bool} {s0 : State} (s : State) (i : ForgeItem) (hK : Changes pt s0 s)
    (h_forge : pt .forge = true) : Changes pt s0 (takeForge s i) := by
  unfold takeForge
  repeat' (with_reducible first | assumption | refine Changes.put ?_)

theorem execForgeDispatch_changes {pt : Part → Bool} {s0 : State} (reads : SramReads) (s : State) (hK : Changes pt s0 s)
    (h_drawn : pt .drawn = true) (h_objects : pt .objects = true) (h_tallies : pt .tallies = true) (h_devMem : pt .devMem = true)
    (h_staging : pt .staging = true) (h_roots : pt .roots = true) (h_pairs : pt .pairs = true) (h_slots : pt .slots = true)
    (h_cmds : pt .cmds = true) (h_arbs : pt .arbs = true) (h_txa : pt .txa = true) (h_forge : pt .forge = true) (h_sdx : pt .sdx = true)
    (h_rsv : pt .rsv = true) (h_mdc : pt .mdc = true) (h_tok : pt .tok = true) (h_bat : pt .bat = true) (h_pools : pt .pools = true)
    (h_net : pt .net = true) (h_fed : pt .fed = true) (h_evt : pt .evt = true) (h_ras : pt .ras = true)
    (h_trace : pt .trace = true) : ∃ t, execForgeDispatch reads s = .next t ∧ Changes pt s0 t := by
  refine ⟨_, rfl, ?_⟩
  repeat' (with_reducible first
      | assumption | apply takeForge_changes | apply forgeStart_changes | apply refuseItem_changes | apply slotFault_changes
      | apply retryLater_changes | apply needBuffer_changes | apply finishCmd_changes | apply arbGrant_changes
      | apply sramReads_changes | refine Changes.fst ‹_› ?_ | refine Changes.snd ‹_› ?_ | intro _ | extract_lets | split
      | dsimp +zetaDelta only)

theorem forgeWrite_changes {pt : Part → Bool} {s0 : State} (s : State) (i : ForgeItem) (off : Nat) (bs : List Byte) (poison : Bool)
    (hK : Changes pt s0 s) (h_tallies : pt .tallies = true) (h_devMem : pt .devMem = true)
    (h_staging : pt .staging = true) : Changes pt s0 (forgeWrite s i off bs poison) := by
  unfold forgeWrite
  repeat' (with_reducible first
      | assumption | apply pfgWritePoisoned_changes | apply memWritePoisoned_changes | apply pfgWrite_changes | apply memWrite_changes
      | intro _ | extract_lets | split | dsimp +zetaDelta only)

theorem encTile_changes {pt : Part → Bool} {s0 : State} (s : State) (i : ForgeItem) (off n : Nat) (r : PrimeRec) (key : List Byte)
    (lines : List Nat) (es : List (Nat × Bool)) (poison : Bool) (hK : Changes pt s0 s) (h_drawn : pt .drawn = true)
    (h_tallies : pt .tallies = true) (h_devMem : pt .devMem = true) (h_staging : pt .staging = true) : Changes pt s0
    (encTile s i off n r key lines es poison) := by
  unfold encTile
  repeat' (with_reducible first
      | assumption | apply forgeWrite_changes | apply drawFree_changes | apply Changes.foldl | apply Changes.foldlFst
      | apply Changes.foldlSnd | refine Changes.fst ‹_› ?_ | refine Changes.snd ‹_› ?_ | intro _ | extract_lets | split
      | dsimp +zetaDelta only)

theorem forgeLimb_changes {pt : Part → Bool} {s0 : State} (s : State) (r : ForgeRun) (faults : List ForgeFault) (tiles : List
    (List Nat)) (poison : Bool) (hK : Changes pt s0 s) (h_drawn : pt .drawn = true) (h_tallies : pt .tallies = true)
    (h_devMem : pt .devMem = true) (h_staging : pt .staging = true) : Changes pt s0 (forgeLimb s r faults tiles poison) := by
  unfold forgeLimb
  repeat' (with_reducible first
      | assumption | apply encTile_changes | apply forgeWrite_changes | intro _ | extract_lets | split | dsimp +zetaDelta only)

theorem forgeFailedLimb_changes {pt : Part → Bool} {s0 : State} (s : State) (i : ForgeItem) (b o : Nat) (hK : Changes pt s0 s)
    (h_drawn : pt .drawn = true) (h_tallies : pt .tallies = true) (h_devMem : pt .devMem = true)
    (h_staging : pt .staging = true) : Changes pt s0 (forgeFailedLimb s i b o) := by
  unfold forgeFailedLimb
  repeat' (with_reducible first
      | assumption | apply forgeWrite_changes | apply drawFree_changes | apply Changes.foldl | apply Changes.foldlFst
      | apply Changes.foldlSnd | refine Changes.fst ‹_› ?_ | refine Changes.snd ‹_› ?_ | intro _ | extract_lets | split
      | dsimp +zetaDelta only)

theorem countFailedLimb_changes {pt : Part → Bool} {s0 : State} (s : State) (i : ForgeItem) (b o : Nat) (hK : Changes pt s0 s)
    (h_tallies : pt .tallies = true) : Changes pt s0 (countFailedLimb s i b o) := by
  unfold countFailedLimb
  repeat' (with_reducible first
      | assumption | refine bump_tally _ _ ?_ (by assumption) (by decide) | refine bump_object _ _ ?_ (by assumption) (by decide)
      | refine bump_any _ _ ?_ (by assumption) (by assumption) | refine bumpBy_tally _ _ _ ?_ (by assumption) (by decide)
      | refine bumpBy_object _ _ _ ?_ (by assumption) (by decide) | refine bumpBy_any _ _ _ ?_ (by assumption) (by assumption)
      | refine Changes.tally ?_ _ _ _ (by assumption) (by decide) | refine Changes.object ?_ _ _ _ (by assumption) (by decide)
      | refine Changes.any ?_ _ _ _ (by assumption) (by assumption) | intro _)

theorem setForge_changes {pt : Part → Bool} {s0 : State} (s : State) (r : ForgeRun) (hK : Changes pt s0 s)
    (h_forge : pt .forge = true) : Changes pt s0 (setForge s r) := by
  unfold setForge
  repeat' (with_reducible first | assumption | refine Changes.put ?_)

theorem forgeAdvance_changes {pt : Part → Bool} {s0 : State} (s : State) (r : ForgeRun) (hK : Changes pt s0 s)
    (h_objects : pt .objects = true) (h_tallies : pt .tallies = true) (h_devMem : pt .devMem = true) (h_slots : pt .slots = true)
    (h_cmds : pt .cmds = true) (h_txa : pt .txa = true) (h_forge : pt .forge = true) (h_sdx : pt .sdx = true)
    (h_pools : pt .pools = true) (h_dict : pt .dict = true) (h_evt : pt .evt = true) (h_trace : pt .trace = true) : Changes pt s0
    (forgeAdvance s r) := by
  unfold forgeAdvance
  repeat' (with_reducible first
      | assumption | refine bump_tally _ _ ?_ (by assumption) (by decide) | refine bump_object _ _ ?_ (by assumption) (by decide)
      | refine bump_any _ _ ?_ (by assumption) (by assumption) | refine bumpBy_tally _ _ _ ?_ (by assumption) (by decide)
      | refine bumpBy_object _ _ _ ?_ (by assumption) (by decide) | refine bumpBy_any _ _ _ ?_ (by assumption) (by assumption)
      | apply setForge_changes | apply limbWork_changes | apply keep_changes | apply freeBuffers_changes | apply finishCmd_changes
      | refine Changes.tally ?_ _ _ _ (by assumption) (by decide) | refine Changes.object ?_ _ _ _ (by assumption) (by decide)
      | refine Changes.any ?_ _ _ _ (by assumption) (by assumption) | refine Changes.fst ‹_› ?_ | refine Changes.snd ‹_› ?_ | intro _
      | extract_lets | split | dsimp +zetaDelta only | refine Changes.put ?_)

theorem forgeBadLimb_changes {pt : Part → Bool} {s0 : State} (s : State) (r : ForgeRun) (hK : Changes pt s0 s)
    (h_drawn : pt .drawn = true) (h_objects : pt .objects = true) (h_tallies : pt .tallies = true) (h_devMem : pt .devMem = true)
    (h_staging : pt .staging = true) (h_slots : pt .slots = true) (h_cmds : pt .cmds = true) (h_txa : pt .txa = true)
    (h_forge : pt .forge = true) (h_sdx : pt .sdx = true) (h_pools : pt .pools = true) (h_dict : pt .dict = true)
    (h_evt : pt .evt = true) (h_trace : pt .trace = true) : Changes pt s0 (forgeBadLimb s r) := by
  unfold forgeBadLimb
  repeat' (with_reducible first
      | assumption | apply forgeAdvance_changes | apply countFailedLimb_changes | apply forgeFailedLimb_changes | intro _
      | refine Changes.put ?_)

theorem fftVerdict_changes {pt : Part → Bool} {s0 : State} (s : State) (r : ForgeRun) (faults : List ForgeFault) (hK : Changes pt s0 s)
    (h_tallies : pt .tallies = true) (h_devMem : pt .devMem = true) (h_txa : pt .txa = true) (h_forge : pt .forge = true)
    (h_evt : pt .evt = true) (h_trace : pt .trace = true) : Changes pt s0 (fftVerdict s r faults) := by
  unfold fftVerdict
  repeat' (with_reducible first
      | assumption | refine bump_tally _ _ ?_ (by assumption) (by decide) | refine bump_object _ _ ?_ (by assumption) (by decide)
      | refine bump_any _ _ ?_ (by assumption) (by assumption) | refine bumpBy_tally _ _ _ ?_ (by assumption) (by decide)
      | refine bumpBy_object _ _ _ ?_ (by assumption) (by decide) | refine bumpBy_any _ _ _ ?_ (by assumption) (by assumption)
      | apply setForge_changes | apply limbWork_changes | apply fftWork_changes | apply raiseErr_changes | apply memWrite_changes
      | refine Changes.tally ?_ _ _ _ (by assumption) (by decide) | refine Changes.object ?_ _ _ _ (by assumption) (by decide)
      | refine Changes.any ?_ _ _ _ (by assumption) (by assumption) | intro _ | extract_lets | split | dsimp +zetaDelta only
      | refine Changes.put ?_)

theorem limbVerdict_changes {pt : Part → Bool} {s0 : State} (s : State) (r : ForgeRun) (faults : List ForgeFault) (hK : Changes pt s0 s)
    (h_drawn : pt .drawn = true) (h_objects : pt .objects = true) (h_tallies : pt .tallies = true) (h_devMem : pt .devMem = true)
    (h_staging : pt .staging = true) (h_slots : pt .slots = true) (h_cmds : pt .cmds = true) (h_txa : pt .txa = true)
    (h_forge : pt .forge = true) (h_sdx : pt .sdx = true) (h_pools : pt .pools = true) (h_dict : pt .dict = true)
    (h_evt : pt .evt = true) (h_trace : pt .trace = true) : Changes pt s0 (limbVerdict s r faults) := by
  unfold limbVerdict
  repeat' (with_reducible first
      | assumption | refine bump_tally _ _ ?_ (by assumption) (by decide) | refine bump_object _ _ ?_ (by assumption) (by decide)
      | refine bump_any _ _ ?_ (by assumption) (by assumption) | refine bumpBy_tally _ _ _ ?_ (by assumption) (by decide)
      | refine bumpBy_object _ _ _ ?_ (by assumption) (by decide) | refine bumpBy_any _ _ _ ?_ (by assumption) (by assumption)
      | apply forgeBadLimb_changes | apply forgeAdvance_changes | apply setForge_changes | apply forgeFailedLimb_changes
      | apply forgeLimb_changes | apply limbWork_changes | apply raiseErr_changes
      | refine Changes.tally ?_ _ _ _ (by assumption) (by decide) | refine Changes.object ?_ _ _ _ (by assumption) (by decide)
      | refine Changes.any ?_ _ _ _ (by assumption) (by assumption) | refine Changes.fst ‹_› ?_ | refine Changes.snd ‹_› ?_ | intro _
      | extract_lets | split | dsimp +zetaDelta only | refine Changes.put ?_)

theorem execForgeLimbVerdict_changes {pt : Part → Bool} {s0 : State} (fftUnit : Bool) (faults : List ForgeFault) (s : State)
    (hK : Changes pt s0 s) (h_drawn : pt .drawn = true) (h_objects : pt .objects = true) (h_tallies : pt .tallies = true)
    (h_devMem : pt .devMem = true) (h_staging : pt .staging = true) (h_slots : pt .slots = true) (h_cmds : pt .cmds = true)
    (h_txa : pt .txa = true) (h_forge : pt .forge = true) (h_sdx : pt .sdx = true) (h_pools : pt .pools = true)
    (h_dict : pt .dict = true) (h_evt : pt .evt = true)
    (h_trace : pt .trace = true) : ∃ t, execForgeLimbVerdict fftUnit faults s = .next t ∧ Changes pt s0 t := by
  refine ⟨_, rfl, ?_⟩
  repeat' (with_reducible first
      | assumption | apply limbVerdict_changes | apply fftVerdict_changes | apply forgeBadLimb_changes | refine Changes.fst ‹_› ?_
      | refine Changes.snd ‹_› ?_ | intro _ | split)

theorem encRootEffect_changes {pt : Part → Bool} {s0 : State} (x0 : Via) (x1 : Nat) (x2 : Nat) (x3 : List Byte) (s : State)
    (hK : Changes pt s0 s) (h_tallies : pt .tallies = true) (h_roots : pt .roots = true) (h_fed : pt .fed = true)
    (h_dict : pt .dict = true) : Changes pt s0 (encRootEffect x0 x1 x2 x3 s) := by
  unfold encRootEffect
  repeat' (with_reducible first
      | assumption | apply packageEffect_changes | apply packageDone_changes | apply keepBefore_changes | apply dictAbort_changes
      | intro _ | extract_lets | split | dsimp +zetaDelta only | refine Changes.put ?_)

theorem execEncRootKeyWrite_changes {pt : Part → Bool} {s0 : State} (via : Via) (root : Nat) (data : List Byte) (s : State)
    (hK : Changes pt s0 s) (h_tallies : pt .tallies = true) (h_roots : pt .roots = true) (h_fed : pt .fed = true)
    (h_dict : pt .dict = true) (h_trace : pt .trace = true) : ∃ t, execEncRootKeyWrite via root data s = .next t ∧ Changes pt s0 t := by
  refine ⟨_, rfl, ?_⟩
  repeat' (with_reducible first | assumption | apply encRootEffect_changes | apply requestWrite_changes | intro _)

/-! ## DeliveryOps -/

theorem sliverUse_changes {pt : Part → Bool} {s0 : State} (s : State) (m : Nat) (more : Bool) (hK : Changes pt s0 s)
    (h_objects : pt .objects = true) (h_tallies : pt .tallies = true) : Changes pt s0 (sliverUse s m more) := by
  unfold sliverUse
  repeat' (with_reducible first
      | assumption | refine Changes.tally ?_ _ _ _ (by assumption) (by decide)
      | refine Changes.object ?_ _ _ _ (by assumption) (by decide) | refine Changes.any ?_ _ _ _ (by assumption) (by assumption)
      | intro _ | split)

theorem modDlv_changes {pt : Part → Bool} {s0 : State} (s : State) (id : Nat) (f : Dlv → Dlv) (hK : Changes pt s0 s)
    (h_dlv : pt .dlv = true) : Changes pt s0 (modDlv s id f) := by
  unfold modDlv
  repeat' (with_reducible first | assumption | split | refine Changes.put ?_)

theorem addDlv_changes {pt : Part → Bool} {s0 : State} (s : State) (x : Dlv) (hK : Changes pt s0 s) (h_objects : pt .objects = true)
    (h_tallies : pt .tallies = true) (h_dlv : pt .dlv = true) : Changes pt s0 (addDlv s x) := by
  unfold addDlv
  repeat' (with_reducible first | assumption | apply sliverUse_changes | intro _ | refine Changes.put ?_)

theorem dlvError_changes {pt : Part → Bool} {s0 : State} (s : State) (id code : Nat) (hK : Changes pt s0 s)
    (h_tallies : pt .tallies = true) (h_dlv : pt .dlv = true) (h_evt : pt .evt = true) (h_trace : pt .trace = true) : Changes pt s0
    (dlvError s id code) := by
  unfold dlvError
  repeat' (with_reducible first
      | assumption | apply modDlv_changes | apply raiseErr_changes | refine Changes.fst ‹_› ?_ | refine Changes.snd ‹_› ?_ | intro _
      | split | refine Changes.put ?_)

theorem writeMemLine_changes {pt : Part → Bool} {s0 : State} (s : State) (l : OutLine) (hK : Changes pt s0 s)
    (h_tallies : pt .tallies = true) (h_devMem : pt .devMem = true) : Changes pt s0 (writeMemLine s l) := by
  unfold writeMemLine
  repeat' (with_reducible first
      | assumption | apply poisonWritten_changes | intro _ | extract_lets | split | dsimp +zetaDelta only | refine Changes.put ?_)

theorem emitLine_changes {pt : Part → Bool} {s0 : State} (s : State) (id : Nat) (l : OutLine) (hK : Changes pt s0 s)
    (h_tallies : pt .tallies = true) (h_devMem : pt .devMem = true) (h_dlv : pt .dlv = true) : Changes pt s0 (emitLine s id l) := by
  unfold emitLine
  repeat' (with_reducible first
      | assumption | apply writeMemLine_changes | apply modDlv_changes | refine Changes.fst ‹_› ?_ | refine Changes.snd ‹_› ?_
      | intro _ | extract_lets | split | dsimp +zetaDelta only | refine Changes.put ?_)

theorem emitLines_changes {pt : Part → Bool} {s0 : State} (s : State) (id : Nat) (ls : List OutLine) (hK : Changes pt s0 s)
    (h_tallies : pt .tallies = true) (h_devMem : pt .devMem = true) (h_dlv : pt .dlv = true) : Changes pt s0 (emitLines s id ls) := by
  unfold emitLines
  repeat' (with_reducible first
      | assumption | apply emitLine_changes | apply Changes.foldl | apply Changes.foldlFst | apply Changes.foldlSnd | intro _)

theorem sendLine_changes {pt : Part → Bool} {s0 : State} (s : State) (x : Dlv) (r : Remote) (l : OutLine) (hK : Changes pt s0 s)
    (h_fed : pt .fed = true) : Changes pt s0 (sendLine s x r l) := by
  unfold sendLine
  repeat' (with_reducible first | assumption | apply send_changes | intro _)

theorem sendLines_changes {pt : Part → Bool} {s0 : State} (s : State) (x : Dlv) (rs : List Remote) (l : OutLine) (hK : Changes pt s0 s)
    (h_dlv : pt .dlv = true) (h_fed : pt .fed = true) : Changes pt s0 (sendLines s x rs l) := by
  unfold sendLines
  repeat' (with_reducible first
      | assumption | apply sendLine_changes | apply modDlv_changes | apply Changes.foldl | apply Changes.foldlFst
      | apply Changes.foldlSnd | intro _ | refine Changes.put ?_)

theorem sendNotice_changes {pt : Part → Bool} {s0 : State} (s : State) (x : Dlv) (die dst : Nat) (n : DlvNotice) (hK : Changes pt s0 s)
    (h_fed : pt .fed = true) : Changes pt s0 (sendNotice s x die dst n) := by
  unfold sendNotice
  repeat' (with_reducible first | assumption | apply send_changes | intro _)

theorem pumpGroup_changes {pt : Part → Bool} {s0 : State} (x0 : Nat) (s : State) (x2 : Nat) (hK : Changes pt s0 s)
    (h_dlv : pt .dlv = true) (h_fed : pt .fed = true) : Changes pt s0 (pumpGroup x0 s x2) := by
  induction x0 generalizing s x2 with
  | zero => unfold pumpGroup; exact hK
  | succ k ih =>
    unfold pumpGroup
    repeat' (with_reducible first
        | assumption | apply ih | apply sendLines_changes | apply modDlv_changes | refine Changes.fst ‹_› ?_
        | refine Changes.snd ‹_› ?_ | intro _ | extract_lets | split | dsimp +zetaDelta only | refine Changes.put ?_)

theorem pumpCatchup_changes {pt : Part → Bool} {s0 : State} (x0 : Nat) (s : State) (x2 : Nat) (hK : Changes pt s0 s)
    (h_tallies : pt .tallies = true) (h_dlv : pt .dlv = true) (h_fed : pt .fed = true) : Changes pt s0 (pumpCatchup x0 s x2) := by
  induction x0 generalizing s x2 with
  | zero => unfold pumpCatchup; exact hK
  | succ k ih =>
    unfold pumpCatchup
    repeat' (with_reducible first
        | assumption | apply ih | refine bump_tally _ _ ?_ (by assumption) (by decide)
        | refine bump_object _ _ ?_ (by assumption) (by decide) | refine bump_any _ _ ?_ (by assumption) (by assumption)
        | refine bumpBy_tally _ _ _ ?_ (by assumption) (by decide) | refine bumpBy_object _ _ _ ?_ (by assumption) (by decide)
        | refine bumpBy_any _ _ _ ?_ (by assumption) (by assumption) | apply sendLines_changes | apply modDlv_changes
        | refine Changes.tally ?_ _ _ _ (by assumption) (by decide) | refine Changes.object ?_ _ _ _ (by assumption) (by decide)
        | refine Changes.any ?_ _ _ _ (by assumption) (by assumption) | refine Changes.fst ‹_› ?_ | refine Changes.snd ‹_› ?_ | intro _
        | extract_lets | split | dsimp +zetaDelta only | refine Changes.put ?_)

theorem closeRemotes_changes {pt : Part → Bool} {s0 : State} (s : State) (id : Nat) (hK : Changes pt s0 s) (h_dlv : pt .dlv = true)
    (h_fed : pt .fed = true) : Changes pt s0 (closeRemotes s id) := by
  unfold closeRemotes
  repeat' (with_reducible first
      | assumption | apply sendNotice_changes | apply modDlv_changes | apply Changes.foldl | apply Changes.foldlFst
      | apply Changes.foldlSnd | refine Changes.fst ‹_› ?_ | refine Changes.snd ‹_› ?_ | intro _ | split | refine Changes.put ?_)

theorem announceDlv_changes {pt : Part → Bool} {s0 : State} (s : State) (x : Dlv) (horizon : Bool) (hK : Changes pt s0 s)
    (h_objects : pt .objects = true) (h_tallies : pt .tallies = true) (h_dlv : pt .dlv = true) (h_fed : pt .fed = true) : Changes pt s0
    (announceDlv s x horizon) := by
  unfold announceDlv
  repeat' (with_reducible first
      | assumption | apply sendNotice_changes | apply addDlv_changes | apply Changes.foldl | apply Changes.foldlFst
      | apply Changes.foldlSnd | intro _ | extract_lets | dsimp +zetaDelta only | refine Changes.put ?_)

theorem doneHere_changes {pt : Part → Bool} {s0 : State} (s : State) (x : Dlv) (hK : Changes pt s0 s)
    (h_dlv : pt .dlv = true) : Changes pt s0 (doneHere s x) := by
  unfold doneHere
  repeat' (with_reducible first | assumption | split | refine Changes.put ?_)

theorem settleHere_changes {pt : Part → Bool} {s0 : State} (s : State) (id : Nat) (hK : Changes pt s0 s)
    (h_dlv : pt .dlv = true) : Changes pt s0 (settleHere s id) := by
  unfold settleHere
  repeat' (with_reducible first
      | assumption | apply doneHere_changes | apply modDlv_changes | refine Changes.fst ‹_› ?_ | refine Changes.snd ‹_› ?_ | intro _
      | split | refine Changes.put ?_)

theorem finishDelivery_changes {pt : Part → Bool} {s0 : State} (s : State) (id : Nat) (r : DlvRecord) (hK : Changes pt s0 s)
    (h_cmds : pt .cmds = true) : Changes pt s0 (finishDelivery s id r) := by
  unfold finishDelivery
  repeat' (with_reducible first | assumption | apply modCmd_changes | apply finishCmd_changes | intro _ | refine Changes.put ?_)

theorem refuseRecorded_changes {pt : Part → Bool} {s0 : State} (s : State) (c : Cmd) (due code : Nat) (hK : Changes pt s0 s)
    (h_drawn : pt .drawn = true) (h_objects : pt .objects = true) (h_tallies : pt .tallies = true) (h_devMem : pt .devMem = true)
    (h_pairs : pt .pairs = true) (h_slots : pt .slots = true) (h_cmds : pt .cmds = true) (h_txa : pt .txa = true)
    (h_sdx : pt .sdx = true) (h_rsv : pt .rsv = true) (h_mdc : pt .mdc = true) (h_tok : pt .tok = true) (h_bat : pt .bat = true)
    (h_pools : pt .pools = true) (h_net : pt .net = true) (h_fed : pt .fed = true) (h_evt : pt .evt = true)
    (h_trace : pt .trace = true) : Changes pt s0 (refuseRecorded s c due code) := by
  unfold refuseRecorded
  repeat' (with_reducible first | assumption | apply finishDelivery_changes | apply errFault_changes | intro _ | refine Changes.put ?_)

theorem freeEntry_changes {pt : Part → Bool} {s0 : State} (s : State) (e : Option LinkEntry) (hK : Changes pt s0 s)
    (h_objects : pt .objects = true) (h_tallies : pt .tallies = true) (h_devMem : pt .devMem = true) (h_slots : pt .slots = true)
    (h_cmds : pt .cmds = true) (h_pools : pt .pools = true) (h_evt : pt .evt = true) (h_trace : pt .trace = true) : Changes pt s0
    (freeEntry s e) := by
  unfold freeEntry
  repeat' (with_reducible first
      | assumption | apply freeBuffers_changes | refine Changes.fst ‹_› ?_ | refine Changes.snd ‹_› ?_ | intro _ | split)

theorem ownerDone_changes {pt : Part → Bool} {s0 : State} (s : State) (x : Dlv) (hK : Changes pt s0 s) (h_drawn : pt .drawn = true)
    (h_objects : pt .objects = true) (h_tallies : pt .tallies = true) (h_devMem : pt .devMem = true) (h_pairs : pt .pairs = true)
    (h_slots : pt .slots = true) (h_cmds : pt .cmds = true) (h_txa : pt .txa = true) (h_sdx : pt .sdx = true) (h_rsv : pt .rsv = true)
    (h_mdc : pt .mdc = true) (h_tok : pt .tok = true) (h_bat : pt .bat = true) (h_pools : pt .pools = true) (h_dlv : pt .dlv = true)
    (h_net : pt .net = true) (h_fed : pt .fed = true) (h_evt : pt .evt = true) (h_trace : pt .trace = true) : Changes pt s0
    (ownerDone s x) := by
  unfold ownerDone
  repeat' (with_reducible first
      | assumption | refine bump_tally _ _ ?_ (by assumption) (by decide) | refine bump_object _ _ ?_ (by assumption) (by decide)
      | refine bump_any _ _ ?_ (by assumption) (by assumption) | refine bumpBy_tally _ _ _ ?_ (by assumption) (by decide)
      | refine bumpBy_object _ _ _ ?_ (by assumption) (by decide) | refine bumpBy_any _ _ _ ?_ (by assumption) (by assumption)
      | apply freeEntry_changes | apply finishDelivery_changes | apply giveUnits_changes | apply semSignal_changes
      | apply freeBuffers_changes | apply modSlot_changes | refine Changes.tally ?_ _ _ _ (by assumption) (by decide)
      | refine Changes.object ?_ _ _ _ (by assumption) (by decide) | refine Changes.any ?_ _ _ _ (by assumption) (by assumption)
      | refine Changes.fst ‹_› ?_ | refine Changes.snd ‹_› ?_ | intro _ | extract_lets | split | dsimp +zetaDelta only
      | refine Changes.put ?_)

theorem endDlv_changes {pt : Part → Bool} {s0 : State} (s : State) (x : Dlv) (hK : Changes pt s0 s) (h_drawn : pt .drawn = true)
    (h_objects : pt .objects = true) (h_tallies : pt .tallies = true) (h_devMem : pt .devMem = true) (h_pairs : pt .pairs = true)
    (h_slots : pt .slots = true) (h_cmds : pt .cmds = true) (h_txa : pt .txa = true) (h_sdx : pt .sdx = true) (h_rsv : pt .rsv = true)
    (h_mdc : pt .mdc = true) (h_tok : pt .tok = true) (h_bat : pt .bat = true) (h_pools : pt .pools = true) (h_dlv : pt .dlv = true)
    (h_net : pt .net = true) (h_fed : pt .fed = true) (h_evt : pt .evt = true) (h_trace : pt .trace = true) : Changes pt s0
    (endDlv s x) := by
  unfold endDlv
  repeat' (with_reducible first
      | assumption | apply ownerDone_changes | apply sliverUse_changes | apply giveUnits_changes | apply raiseErr_changes | intro _
      | extract_lets | split | dsimp +zetaDelta only | refine Changes.put ?_)

theorem advanceDlv_changes {pt : Part → Bool} {s0 : State} (s : State) (id : Nat) (hK : Changes pt s0 s) (h_drawn : pt .drawn = true)
    (h_objects : pt .objects = true) (h_tallies : pt .tallies = true) (h_devMem : pt .devMem = true) (h_pairs : pt .pairs = true)
    (h_slots : pt .slots = true) (h_cmds : pt .cmds = true) (h_txa : pt .txa = true) (h_sdx : pt .sdx = true) (h_rsv : pt .rsv = true)
    (h_mdc : pt .mdc = true) (h_tok : pt .tok = true) (h_bat : pt .bat = true) (h_pools : pt .pools = true) (h_dlv : pt .dlv = true)
    (h_net : pt .net = true) (h_fed : pt .fed = true) (h_evt : pt .evt = true) (h_trace : pt .trace = true) : Changes pt s0
    (advanceDlv s id) := by
  unfold advanceDlv
  repeat' (with_reducible first
      | assumption | apply endDlv_changes | apply settleHere_changes | apply closeRemotes_changes | apply pumpCatchup_changes
      | apply pumpGroup_changes | refine Changes.fst ‹_› ?_ | refine Changes.snd ‹_› ?_ | intro _ | extract_lets | split
      | dsimp +zetaDelta only)

/-! ## DlvIssue -/

theorem raiseHorizon_changes {pt : Part → Bool} {s0 : State} (s : State) (slot due tag : Nat) (hK : Changes pt s0 s)
    (h_slots : pt .slots = true) (h_dlv : pt .dlv = true) : Changes pt s0 (raiseHorizon s slot due tag) := by
  unfold raiseHorizon
  repeat' (with_reducible first
      | assumption | apply modSlot_changes | intro _ | extract_lets | split | dsimp +zetaDelta only | refine Changes.put ?_)

theorem refuseDelivery_changes {pt : Part → Bool} {s0 : State} (s : State) (c : Cmd) (x : Dlv) (p : DlvParams) (dsts : List
    (Nat × Desc)) (code : Nat) (hK : Changes pt s0 s) (h_drawn : pt .drawn = true) (h_objects : pt .objects = true)
    (h_tallies : pt .tallies = true) (h_devMem : pt .devMem = true) (h_pairs : pt .pairs = true) (h_slots : pt .slots = true)
    (h_cmds : pt .cmds = true) (h_txa : pt .txa = true) (h_sdx : pt .sdx = true) (h_rsv : pt .rsv = true) (h_mdc : pt .mdc = true)
    (h_tok : pt .tok = true) (h_bat : pt .bat = true) (h_pools : pt .pools = true) (h_dlv : pt .dlv = true) (h_net : pt .net = true)
    (h_fed : pt .fed = true) (h_evt : pt .evt = true) (h_trace : pt .trace = true) : Changes pt s0
    (refuseDelivery s c x p dsts code) := by
  unfold refuseDelivery
  repeat' (with_reducible first
      | assumption | apply place_changes | apply advanceDlv_changes | apply doneHere_changes | apply emitLines_changes
      | apply addDlv_changes | apply modDlv_changes | apply errFault_changes | apply reserveFree_changes | refine Changes.fst ‹_› ?_
      | refine Changes.snd ‹_› ?_ | intro _ | extract_lets | split | dsimp +zetaDelta only | refine Changes.put ?_)

theorem refuseUnwritten_changes {pt : Part → Bool} {s0 : State} (s : State) (c : Cmd) (due code : Nat) (hK : Changes pt s0 s)
    (h_drawn : pt .drawn = true) (h_objects : pt .objects = true) (h_tallies : pt .tallies = true) (h_devMem : pt .devMem = true)
    (h_pairs : pt .pairs = true) (h_slots : pt .slots = true) (h_cmds : pt .cmds = true) (h_txa : pt .txa = true)
    (h_sdx : pt .sdx = true) (h_rsv : pt .rsv = true) (h_mdc : pt .mdc = true) (h_tok : pt .tok = true) (h_bat : pt .bat = true)
    (h_pools : pt .pools = true) (h_net : pt .net = true) (h_fed : pt .fed = true) (h_evt : pt .evt = true)
    (h_trace : pt .trace = true) : Changes pt s0 (refuseUnwritten s c due code) := by
  unfold refuseUnwritten
  repeat' (with_reducible first | assumption | apply finishDelivery_changes | apply errFault_changes | intro _ | refine Changes.put ?_)

theorem tellHorizon_changes {pt : Part → Bool} {s0 : State} (s : State) (slot tag due : Nat) (dies : List Nat) (hK : Changes pt s0 s)
    (h_fed : pt .fed = true) : Changes pt s0 (tellHorizon s slot tag due dies) := by
  unfold tellHorizon
  repeat' (with_reducible first
      | assumption | apply send_changes | apply Changes.foldl | apply Changes.foldlFst | apply Changes.foldlSnd | intro _)

theorem readDesc_changes {pt : Part → Bool} {s0 : State} (s : State) (slot a : Nat) (hK : Changes pt s0 s)
    (h_tallies : pt .tallies = true) (h_evt : pt .evt = true) (h_trace : pt .trace = true) : Changes pt s0 (readDesc s slot a) := by
  unfold readDesc
  repeat' (with_reducible first | assumption | apply readChecked_changes | intro _ | split)

theorem issueEmpty_changes {pt : Part → Bool} {s0 : State} (s : State) (c : Cmd) (p : DlvParams) (due : Nat) (hK : Changes pt s0 s)
    (h_drawn : pt .drawn = true) (h_objects : pt .objects = true) (h_tallies : pt .tallies = true) (h_devMem : pt .devMem = true)
    (h_pairs : pt .pairs = true) (h_slots : pt .slots = true) (h_cmds : pt .cmds = true) (h_txa : pt .txa = true)
    (h_sdx : pt .sdx = true) (h_rsv : pt .rsv = true) (h_mdc : pt .mdc = true) (h_tok : pt .tok = true) (h_bat : pt .bat = true)
    (h_pools : pt .pools = true) (h_dlv : pt .dlv = true) (h_net : pt .net = true) (h_fed : pt .fed = true) (h_evt : pt .evt = true)
    (h_trace : pt .trace = true) : Changes pt s0 (issueEmpty s c p due) := by
  unfold issueEmpty
  repeat' (with_reducible first
      | assumption | apply tellHorizon_changes | apply refuseUnwritten_changes | apply raiseHorizon_changes
      | apply finishDelivery_changes | intro _ | extract_lets | split | dsimp +zetaDelta only | refine Changes.put ?_)

theorem issueData_changes {pt : Part → Bool} {s0 : State} (s : State) (c : Cmd) (p : DlvParams) (due : Nat) (entry : Option LinkEntry)
    (hK : Changes pt s0 s) (h_drawn : pt .drawn = true) (h_objects : pt .objects = true) (h_tallies : pt .tallies = true)
    (h_devMem : pt .devMem = true) (h_pairs : pt .pairs = true) (h_slots : pt .slots = true) (h_cmds : pt .cmds = true)
    (h_seq : pt .seq = true) (h_txa : pt .txa = true) (h_sdx : pt .sdx = true) (h_rsv : pt .rsv = true) (h_mdc : pt .mdc = true)
    (h_tok : pt .tok = true) (h_bat : pt .bat = true) (h_pools : pt .pools = true) (h_dlv : pt .dlv = true) (h_net : pt .net = true)
    (h_fed : pt .fed = true) (h_evt : pt .evt = true) (h_trace : pt .trace = true) : Changes pt s0 (issueData s c p due entry) := by
  unfold issueData
  repeat' (with_reducible first
      | assumption | refine bump_tally _ _ ?_ (by assumption) (by decide) | refine bump_object _ _ ?_ (by assumption) (by decide)
      | refine bump_any _ _ ?_ (by assumption) (by assumption) | refine bumpBy_tally _ _ _ ?_ (by assumption) (by decide)
      | refine bumpBy_object _ _ _ ?_ (by assumption) (by decide) | refine bumpBy_any _ _ _ ?_ (by assumption) (by assumption)
      | apply readDesc_changes | apply refuseUnwritten_changes | apply refuseDelivery_changes | apply raiseHorizon_changes
      | apply announceDlv_changes | apply nameFailed_changes | apply setOutput_changes
      | refine Changes.tally ?_ _ _ _ (by assumption) (by decide) | refine Changes.object ?_ _ _ _ (by assumption) (by decide)
      | refine Changes.any ?_ _ _ _ (by assumption) (by assumption) | apply Changes.foldl | apply Changes.foldlFst
      | apply Changes.foldlSnd | refine Changes.fst ‹_› ?_ | refine Changes.snd ‹_› ?_ | intro _ | extract_lets | split
      | dsimp +zetaDelta only)

theorem issueDeliver_changes {pt : Part → Bool} {s0 : State} (s : State) (c : Cmd) (p : DlvParams) (entry : Option LinkEntry)
    (hK : Changes pt s0 s) (h_drawn : pt .drawn = true) (h_objects : pt .objects = true) (h_tallies : pt .tallies = true)
    (h_devMem : pt .devMem = true) (h_pairs : pt .pairs = true) (h_slots : pt .slots = true) (h_cmds : pt .cmds = true)
    (h_seq : pt .seq = true) (h_txa : pt .txa = true) (h_sdx : pt .sdx = true) (h_rsv : pt .rsv = true) (h_mdc : pt .mdc = true)
    (h_tok : pt .tok = true) (h_bat : pt .bat = true) (h_pools : pt .pools = true) (h_dlv : pt .dlv = true) (h_net : pt .net = true)
    (h_fed : pt .fed = true) (h_evt : pt .evt = true) (h_trace : pt .trace = true) : Changes pt s0 (issueDeliver s c p entry) := by
  unfold issueDeliver
  repeat' (with_reducible first
      | assumption | apply issueData_changes | apply issueEmpty_changes | apply refuseRecorded_changes | intro _ | extract_lets | split
      | dsimp +zetaDelta only)

/-! ## Delivery -/

theorem indexEffects_changes {pt : Part → Bool} {s0 : State} (s : State) (id : Nat) (src d : Desc) (hK : Changes pt s0 s)
    (h_objects : pt .objects = true) (h_tallies : pt .tallies = true) (h_dlv : pt .dlv = true) (h_evt : pt .evt = true)
    (h_trace : pt .trace = true) : Changes pt s0 (indexEffects s id src d) := by
  unfold indexEffects
  repeat' (with_reducible first
      | assumption | refine bump_tally _ _ ?_ (by assumption) (by decide) | refine bump_object _ _ ?_ (by assumption) (by decide)
      | refine bump_any _ _ ?_ (by assumption) (by assumption) | refine bumpBy_tally _ _ _ ?_ (by assumption) (by decide)
      | refine bumpBy_object _ _ _ ?_ (by assumption) (by decide) | refine bumpBy_any _ _ _ ?_ (by assumption) (by assumption)
      | apply dlvError_changes | apply modDlv_changes | apply readChecked_changes
      | refine Changes.tally ?_ _ _ _ (by assumption) (by decide) | refine Changes.object ?_ _ _ _ (by assumption) (by decide)
      | refine Changes.any ?_ _ _ _ (by assumption) (by assumption) | apply Changes.foldl | apply Changes.foldlFst
      | apply Changes.foldlSnd | refine Changes.fst ‹_› ?_ | refine Changes.snd ‹_› ?_ | intro _ | extract_lets | split
      | dsimp +zetaDelta only | refine Changes.put ?_)

theorem writeBlocks_changes {pt : Part → Bool} {s0 : State} (s : State) (base : Nat) (ps : List (Nat × Piece)) (hK : Changes pt s0 s)
    (h_tallies : pt .tallies = true) (h_staging : pt .staging = true) : Changes pt s0 (writeBlocks s base ps) := by
  unfold writeBlocks
  repeat' (with_reducible first
      | assumption | apply poisonWritten_changes | apply Changes.foldl | apply Changes.foldlFst | apply Changes.foldlSnd | intro _
      | extract_lets | dsimp +zetaDelta only | refine Changes.put ?_)

theorem copyBlocks_changes {pt : Part → Bool} {s0 : State} (s : State) (x : Dlv) (t : Nat) (hK : Changes pt s0 s)
    (h_tallies : pt .tallies = true) (h_staging : pt .staging = true) : Changes pt s0 (copyBlocks s x t) := by
  unfold copyBlocks
  repeat' (with_reducible first
      | assumption | apply writeBlocks_changes | apply Changes.foldl | apply Changes.foldlFst | apply Changes.foldlSnd
      | refine Changes.fst ‹_› ?_ | refine Changes.snd ‹_› ?_ | intro _ | extract_lets | split | dsimp +zetaDelta only)

theorem makeTile_changes {pt : Part → Bool} {s0 : State} (s : State) (id : Nat) (hK : Changes pt s0 s) (h_tallies : pt .tallies = true)
    (h_devMem : pt .devMem = true) (h_staging : pt .staging = true) (h_dlv : pt .dlv = true) (h_evt : pt .evt = true)
    (h_trace : pt .trace = true) : Changes pt s0 (makeTile s id) := by
  unfold makeTile
  repeat' (with_reducible first
      | assumption | apply copyBlocks_changes | apply emitLines_changes | apply modDlv_changes | apply raiseErr_changes
      | apply Changes.foldl | apply Changes.foldlFst | apply Changes.foldlSnd | refine Changes.fst ‹_› ?_ | refine Changes.snd ‹_› ?_
      | intro _ | extract_lets | split | dsimp +zetaDelta only | refine Changes.put ?_)

theorem closeKey_changes {pt : Part → Bool} {s0 : State} (s : State) (cmd : Nat) (hK : Changes pt s0 s) (h_drawn : pt .drawn = true)
    (h_objects : pt .objects = true) (h_tallies : pt .tallies = true) (h_devMem : pt .devMem = true) (h_pairs : pt .pairs = true)
    (h_slots : pt .slots = true) (h_cmds : pt .cmds = true) (h_txa : pt .txa = true) (h_sdx : pt .sdx = true) (h_rsv : pt .rsv = true)
    (h_mdc : pt .mdc = true) (h_tok : pt .tok = true) (h_bat : pt .bat = true) (h_pools : pt .pools = true) (h_dlv : pt .dlv = true)
    (h_net : pt .net = true) (h_fed : pt .fed = true) (h_evt : pt .evt = true) (h_trace : pt .trace = true) : Changes pt s0
    (closeKey s cmd) := by
  unfold closeKey
  repeat' (with_reducible first
      | assumption | apply advanceDlv_changes | apply modDlv_changes | refine Changes.fst ‹_› ?_ | refine Changes.snd ‹_› ?_ | intro _
      | extract_lets | split | dsimp +zetaDelta only | refine Changes.put ?_)

theorem makeKeyTile_changes {pt : Part → Bool} {s0 : State} (s : State) (x : Dlv) (cmd : Nat) (hK : Changes pt s0 s)
    (h_drawn : pt .drawn = true) (h_objects : pt .objects = true) (h_tallies : pt .tallies = true) (h_devMem : pt .devMem = true)
    (h_pairs : pt .pairs = true) (h_slots : pt .slots = true) (h_cmds : pt .cmds = true) (h_txa : pt .txa = true)
    (h_sdx : pt .sdx = true) (h_rsv : pt .rsv = true) (h_mdc : pt .mdc = true) (h_tok : pt .tok = true) (h_bat : pt .bat = true)
    (h_pools : pt .pools = true) (h_dlv : pt .dlv = true) (h_net : pt .net = true) (h_fed : pt .fed = true) (h_evt : pt .evt = true)
    (h_trace : pt .trace = true) : Changes pt s0 (makeKeyTile s x cmd) := by
  unfold makeKeyTile
  repeat' (with_reducible first
      | assumption | apply closeKey_changes | apply emitLines_changes | apply modDlv_changes | apply raiseErr_changes
      | apply Changes.foldl | apply Changes.foldlFst | apply Changes.foldlSnd | refine Changes.fst ‹_› ?_ | refine Changes.snd ‹_› ?_
      | intro _ | extract_lets | split | dsimp +zetaDelta only | refine Changes.put ?_)

theorem askTiles_changes {pt : Part → Bool} {s0 : State} (x0 : Nat) (s : State) (x2 : Nat) (hK : Changes pt s0 s)
    (h_dlv : pt .dlv = true) : Changes pt s0 (askTiles x0 s x2) := by
  induction x0 generalizing s x2 with
  | zero => unfold askTiles; exact hK
  | succ k ih =>
    unfold askTiles
    repeat' (with_reducible first
        | assumption | apply ih | apply modDlv_changes | refine Changes.fst ‹_› ?_ | refine Changes.snd ‹_› ?_ | intro _ | split
        | refine Changes.put ?_)

theorem setFetchQueue_changes {pt : Part → Bool} {s0 : State} (s : State) (p : Nat) (q : List FetchReq) (hK : Changes pt s0 s)
    (h_dlv : pt .dlv = true) : Changes pt s0 (setFetchQueue s p q) := by
  unfold setFetchQueue
  repeat' (with_reducible first | assumption | refine Changes.put ?_)

theorem readEntered_changes {pt : Part → Bool} {s0 : State} (s : State) (id : Nat) (e : Nat × Nat) (hK : Changes pt s0 s)
    (h_dlv : pt .dlv = true) : Changes pt s0 (readEntered s id e) := by
  unfold readEntered
  repeat' (with_reducible first | assumption | apply modDlv_changes | intro _ | refine Changes.put ?_)

theorem enterRead_changes {pt : Part → Bool} {s0 : State} (s : State) (id : Nat) (e : Nat × Nat) (hK : Changes pt s0 s)
    (h_tallies : pt .tallies = true) (h_dlv : pt .dlv = true) : Changes pt s0 (enterRead s id e) := by
  unfold enterRead
  repeat' (with_reducible first
      | assumption | refine bump_tally _ _ ?_ (by assumption) (by decide) | refine bump_object _ _ ?_ (by assumption) (by decide)
      | refine bump_any _ _ ?_ (by assumption) (by assumption) | refine bumpBy_tally _ _ _ ?_ (by assumption) (by decide)
      | refine bumpBy_object _ _ _ ?_ (by assumption) (by decide) | refine bumpBy_any _ _ _ ?_ (by assumption) (by assumption)
      | apply readEntered_changes | apply setFetchQueue_changes | refine Changes.tally ?_ _ _ _ (by assumption) (by decide)
      | refine Changes.object ?_ _ _ _ (by assumption) (by decide) | refine Changes.any ?_ _ _ _ (by assumption) (by assumption)
      | intro _ | extract_lets | split | dsimp +zetaDelta only | refine Changes.put ?_)

theorem makeFetched_changes {pt : Part → Bool} {s0 : State} (s : State) (x : Dlv) (hK : Changes pt s0 s) (h_drawn : pt .drawn = true)
    (h_objects : pt .objects = true) (h_tallies : pt .tallies = true) (h_devMem : pt .devMem = true) (h_staging : pt .staging = true)
    (h_pairs : pt .pairs = true) (h_slots : pt .slots = true) (h_cmds : pt .cmds = true) (h_txa : pt .txa = true)
    (h_sdx : pt .sdx = true) (h_rsv : pt .rsv = true) (h_mdc : pt .mdc = true) (h_tok : pt .tok = true) (h_bat : pt .bat = true)
    (h_pools : pt .pools = true) (h_dlv : pt .dlv = true) (h_net : pt .net = true) (h_fed : pt .fed = true) (h_evt : pt .evt = true)
    (h_trace : pt .trace = true) : Changes pt s0 (makeFetched s x) := by
  unfold makeFetched
  repeat' (with_reducible first
      | assumption | apply makeKeyTile_changes | apply makeTile_changes | refine Changes.fst ‹_› ?_ | refine Changes.snd ‹_› ?_
      | intro _ | split)

theorem makeThere_changes {pt : Part → Bool} {s0 : State} (x0 : Nat) (s : State) (x2 : Nat) (hK : Changes pt s0 s)
    (h_drawn : pt .drawn = true) (h_objects : pt .objects = true) (h_tallies : pt .tallies = true) (h_devMem : pt .devMem = true)
    (h_staging : pt .staging = true) (h_pairs : pt .pairs = true) (h_slots : pt .slots = true) (h_cmds : pt .cmds = true)
    (h_txa : pt .txa = true) (h_sdx : pt .sdx = true) (h_rsv : pt .rsv = true) (h_mdc : pt .mdc = true) (h_tok : pt .tok = true)
    (h_bat : pt .bat = true) (h_pools : pt .pools = true) (h_dlv : pt .dlv = true) (h_net : pt .net = true) (h_fed : pt .fed = true)
    (h_evt : pt .evt = true) (h_trace : pt .trace = true) : Changes pt s0 (makeThere x0 s x2) := by
  induction x0 generalizing s x2 with
  | zero => unfold makeThere; exact hK
  | succ k ih =>
    unfold makeThere
    repeat' (with_reducible first
        | assumption | apply ih | apply makeFetched_changes | refine Changes.fst ‹_› ?_ | refine Changes.snd ‹_› ?_ | intro _ | split)

theorem feedStream_changes {pt : Part → Bool} {s0 : State} (s : State) (id : Nat) (hK : Changes pt s0 s) (h_drawn : pt .drawn = true)
    (h_objects : pt .objects = true) (h_tallies : pt .tallies = true) (h_devMem : pt .devMem = true) (h_staging : pt .staging = true)
    (h_pairs : pt .pairs = true) (h_slots : pt .slots = true) (h_cmds : pt .cmds = true) (h_txa : pt .txa = true)
    (h_sdx : pt .sdx = true) (h_rsv : pt .rsv = true) (h_mdc : pt .mdc = true) (h_tok : pt .tok = true) (h_bat : pt .bat = true)
    (h_pools : pt .pools = true) (h_dlv : pt .dlv = true) (h_net : pt .net = true) (h_fed : pt .fed = true) (h_evt : pt .evt = true)
    (h_trace : pt .trace = true) : Changes pt s0 (feedStream s id) := by
  unfold feedStream
  repeat' (with_reducible first
      | assumption | apply makeThere_changes | apply enterRead_changes | apply askTiles_changes | apply Changes.foldl
      | apply Changes.foldlFst | apply Changes.foldlSnd | intro _ | extract_lets | dsimp +zetaDelta only)

theorem feedPorts_changes {pt : Part → Bool} {s0 : State} (s : State) (hK : Changes pt s0 s) (h_drawn : pt .drawn = true)
    (h_objects : pt .objects = true) (h_tallies : pt .tallies = true) (h_devMem : pt .devMem = true) (h_staging : pt .staging = true)
    (h_pairs : pt .pairs = true) (h_slots : pt .slots = true) (h_cmds : pt .cmds = true) (h_txa : pt .txa = true)
    (h_sdx : pt .sdx = true) (h_rsv : pt .rsv = true) (h_mdc : pt .mdc = true) (h_tok : pt .tok = true) (h_bat : pt .bat = true)
    (h_pools : pt .pools = true) (h_dlv : pt .dlv = true) (h_net : pt .net = true) (h_fed : pt .fed = true) (h_evt : pt .evt = true)
    (h_trace : pt .trace = true) : Changes pt s0 (feedPorts s) := by
  unfold feedPorts
  repeat' (with_reducible first
      | assumption | apply feedStream_changes | apply Changes.foldl | apply Changes.foldlFst | apply Changes.foldlSnd | intro _)

theorem sendReads_changes {pt : Part → Bool} {s0 : State} (s : State) (p n : Nat) (hK : Changes pt s0 s)
    (h_tallies : pt .tallies = true) (h_dlv : pt .dlv = true) : Changes pt s0 (sendReads s p n) := by
  unfold sendReads
  repeat' (with_reducible first
      | assumption | refine bump_tally _ _ ?_ (by assumption) (by decide) | refine bump_object _ _ ?_ (by assumption) (by decide)
      | refine bump_any _ _ ?_ (by assumption) (by assumption) | refine bumpBy_tally _ _ _ ?_ (by assumption) (by decide)
      | refine bumpBy_object _ _ _ ?_ (by assumption) (by decide) | refine bumpBy_any _ _ _ ?_ (by assumption) (by assumption)
      | apply setFetchQueue_changes | refine Changes.tally ?_ _ _ _ (by assumption) (by decide)
      | refine Changes.object ?_ _ _ _ (by assumption) (by decide) | refine Changes.any ?_ _ _ _ (by assumption) (by assumption)
      | intro _)

theorem readBack_changes {pt : Part → Bool} {s0 : State} (s : State) (failed bad : Bool) (u : Nat × Nat × Nat) (hK : Changes pt s0 s)
    (h_dlv : pt .dlv = true) : Changes pt s0 (readBack s failed bad u) := by
  unfold readBack
  repeat' (with_reducible first | assumption | apply modDlv_changes | intro _ | split | refine Changes.put ?_)

theorem takeReads_changes {pt : Part → Bool} {s0 : State} (s : State) (r : FetchReq) (error : Bool) (hK : Changes pt s0 s)
    (h_drawn : pt .drawn = true) (h_objects : pt .objects = true) (h_tallies : pt .tallies = true) (h_devMem : pt .devMem = true)
    (h_staging : pt .staging = true) (h_pairs : pt .pairs = true) (h_slots : pt .slots = true) (h_cmds : pt .cmds = true)
    (h_txa : pt .txa = true) (h_sdx : pt .sdx = true) (h_rsv : pt .rsv = true) (h_mdc : pt .mdc = true) (h_tok : pt .tok = true)
    (h_bat : pt .bat = true) (h_pools : pt .pools = true) (h_dlv : pt .dlv = true) (h_net : pt .net = true) (h_fed : pt .fed = true)
    (h_evt : pt .evt = true) (h_trace : pt .trace = true) : Changes pt s0 (takeReads s r error) := by
  unfold takeReads
  repeat' (with_reducible first
      | assumption | apply readBack_changes | apply makeThere_changes | apply advanceDlv_changes | apply memError_changes
      | apply Changes.foldl | apply Changes.foldlFst | apply Changes.foldlSnd | intro _ | extract_lets | split | dsimp +zetaDelta only)

theorem makeTiles_changes {pt : Part → Bool} {s0 : State} (x0 : Nat) (s : State) (x2 : Nat) (hK : Changes pt s0 s)
    (h_tallies : pt .tallies = true) (h_devMem : pt .devMem = true) (h_staging : pt .staging = true) (h_dlv : pt .dlv = true)
    (h_evt : pt .evt = true) (h_trace : pt .trace = true) : Changes pt s0 (makeTiles x0 s x2) := by
  induction x0 generalizing s x2 with
  | zero => unfold makeTiles; exact hK
  | succ k ih =>
    unfold makeTiles
    repeat' (with_reducible first | assumption | apply ih | apply makeTile_changes | intro _ | split)

theorem startItem_changes {pt : Part → Bool} {s0 : State} (s : State) (id : Nat) (units : List Nat) (hK : Changes pt s0 s)
    (h_drawn : pt .drawn = true) (h_objects : pt .objects = true) (h_tallies : pt .tallies = true) (h_devMem : pt .devMem = true)
    (h_staging : pt .staging = true) (h_pairs : pt .pairs = true) (h_slots : pt .slots = true) (h_cmds : pt .cmds = true)
    (h_txa : pt .txa = true) (h_sdx : pt .sdx = true) (h_rsv : pt .rsv = true) (h_mdc : pt .mdc = true) (h_tok : pt .tok = true)
    (h_bat : pt .bat = true) (h_pools : pt .pools = true) (h_dlv : pt .dlv = true) (h_net : pt .net = true) (h_fed : pt .fed = true)
    (h_evt : pt .evt = true) (h_trace : pt .trace = true) : Changes pt s0 (startItem s id units) := by
  unfold startItem
  repeat' (with_reducible first
      | assumption | refine bump_tally _ _ ?_ (by assumption) (by decide) | refine bump_object _ _ ?_ (by assumption) (by decide)
      | refine bump_any _ _ ?_ (by assumption) (by assumption) | refine bumpBy_tally _ _ _ ?_ (by assumption) (by decide)
      | refine bumpBy_object _ _ _ ?_ (by assumption) (by decide) | refine bumpBy_any _ _ _ ?_ (by assumption) (by assumption)
      | apply makeTiles_changes | apply feedStream_changes | apply indexEffects_changes | apply advanceDlv_changes
      | apply modDlv_changes | apply reserveFree_changes | refine Changes.tally ?_ _ _ _ (by assumption) (by decide)
      | refine Changes.object ?_ _ _ _ (by assumption) (by decide) | refine Changes.any ?_ _ _ _ (by assumption) (by assumption)
      | apply Changes.foldl | apply Changes.foldlFst | apply Changes.foldlSnd | refine Changes.fst ‹_› ?_ | refine Changes.snd ‹_› ?_
      | intro _ | extract_lets | split | dsimp +zetaDelta only | refine Changes.put ?_)

theorem execDlvItemDispatch_changes {pt : Part → Bool} {s0 : State} (s : State) (hK : Changes pt s0 s) (h_drawn : pt .drawn = true)
    (h_objects : pt .objects = true) (h_tallies : pt .tallies = true) (h_devMem : pt .devMem = true) (h_staging : pt .staging = true)
    (h_pairs : pt .pairs = true) (h_slots : pt .slots = true) (h_cmds : pt .cmds = true) (h_arbs : pt .arbs = true)
    (h_txa : pt .txa = true) (h_sdx : pt .sdx = true) (h_rsv : pt .rsv = true) (h_mdc : pt .mdc = true) (h_tok : pt .tok = true)
    (h_bat : pt .bat = true) (h_pools : pt .pools = true) (h_dlv : pt .dlv = true) (h_net : pt .net = true) (h_fed : pt .fed = true)
    (h_evt : pt .evt = true) (h_trace : pt .trace = true) : ∃ t, execDlvItemDispatch s = .next t ∧ Changes pt s0 t := by
  refine ⟨_, rfl, ?_⟩
  repeat' (with_reducible first
      | assumption | apply startItem_changes | refine takeUnits_changes _ _ (t := (_, _)) ?_ ‹_› ?_
      | refine takeUnits_changes _ _ ?_ ‹_› ?_ | apply arbGrant_changes | refine Changes.fst ‹_› ?_ | refine Changes.snd ‹_› ?_
      | intro _ | extract_lets | split | dsimp +zetaDelta only)

theorem execMemReadReturn_changes {pt : Part → Bool} {s0 : State} (port sent which : Nat) (error : Bool) (s : State)
    (hK : Changes pt s0 s) (h_drawn : pt .drawn = true) (h_objects : pt .objects = true) (h_tallies : pt .tallies = true)
    (h_devMem : pt .devMem = true) (h_staging : pt .staging = true) (h_pairs : pt .pairs = true) (h_slots : pt .slots = true)
    (h_cmds : pt .cmds = true) (h_txa : pt .txa = true) (h_sdx : pt .sdx = true) (h_rsv : pt .rsv = true) (h_mdc : pt .mdc = true)
    (h_tok : pt .tok = true) (h_bat : pt .bat = true) (h_pools : pt .pools = true) (h_dlv : pt .dlv = true) (h_net : pt .net = true)
    (h_fed : pt .fed = true) (h_evt : pt .evt = true)
    (h_trace : pt .trace = true) : ∃ t, execMemReadReturn port sent which error s = .next t ∧ Changes pt s0 t := by
  refine ⟨_, rfl, ?_⟩
  repeat' (with_reducible first
      | assumption | apply takeReads_changes | apply sendReads_changes | apply feedPorts_changes | apply setFetchQueue_changes
      | refine Changes.fst ‹_› ?_ | refine Changes.snd ‹_› ?_ | intro _ | extract_lets | split | dsimp +zetaDelta only)

theorem setBank_changes {pt : Part → Bool} {s0 : State} (s : State) (b : Nat) (x : Bank) (hK : Changes pt s0 s)
    (h_dlv : pt .dlv = true) : Changes pt s0 (setBank s b x) := by
  unfold setBank
  repeat' (with_reducible first | assumption | refine Changes.put ?_)

theorem lineLeaves_changes {pt : Part → Bool} {s0 : State} (s : State) (lane : Option Nat) (hK : Changes pt s0 s)
    (h_sdx : pt .sdx = true) : Changes pt s0 (lineLeaves s lane) := by
  unfold lineLeaves
  repeat' (with_reducible first | assumption | refine Changes.fst ‹_› ?_ | refine Changes.snd ‹_› ?_ | split | refine Changes.put ?_)

theorem freeTile_changes {pt : Part → Bool} {s0 : State} (s : State) (k : KeyRun) (hK : Changes pt s0 s) (h_sdx : pt .sdx = true)
    (h_dlv : pt .dlv = true) : Changes pt s0 (freeTile s k) := by
  unfold freeTile
  repeat' (with_reducible first
      | assumption | apply giveUnits_changes | intro _ | extract_lets | split | dsimp +zetaDelta only | refine Changes.put ?_)

theorem keyLineDone_changes {pt : Part → Bool} {s0 : State} (s : State) (x : Dlv) (l : OutLine) (dropped : Bool) (hK : Changes pt s0 s)
    (h_tallies : pt .tallies = true) (h_sdx : pt .sdx = true) (h_dlv : pt .dlv = true) : Changes pt s0 (keyLineDone s x l dropped) := by
  unfold keyLineDone
  repeat' (with_reducible first
      | assumption | refine bump_tally _ _ ?_ (by assumption) (by decide) | refine bump_object _ _ ?_ (by assumption) (by decide)
      | refine bump_any _ _ ?_ (by assumption) (by assumption) | refine bumpBy_tally _ _ _ ?_ (by assumption) (by decide)
      | refine bumpBy_object _ _ _ ?_ (by assumption) (by decide) | refine bumpBy_any _ _ _ ?_ (by assumption) (by assumption)
      | apply freeTile_changes | refine Changes.tally ?_ _ _ _ (by assumption) (by decide)
      | refine Changes.object ?_ _ _ _ (by assumption) (by decide) | refine Changes.any ?_ _ _ _ (by assumption) (by assumption)
      | refine Changes.fst ‹_› ?_ | refine Changes.snd ‹_› ?_ | intro _ | extract_lets | split | dsimp +zetaDelta only
      | refine Changes.put ?_)

theorem dropLine_changes {pt : Part → Bool} {s0 : State} (s : State) (id : Nat) (l : OutLine) (hK : Changes pt s0 s)
    (h_tallies : pt .tallies = true) (h_sdx : pt .sdx = true) (h_dlv : pt .dlv = true) (h_fed : pt .fed = true) (h_evt : pt .evt = true)
    (h_trace : pt .trace = true) : Changes pt s0 (dropLine s id l) := by
  unfold dropLine
  repeat' (with_reducible first
      | assumption | refine bump_tally _ _ ?_ (by assumption) (by decide) | refine bump_object _ _ ?_ (by assumption) (by decide)
      | refine bump_any _ _ ?_ (by assumption) (by assumption) | refine bumpBy_tally _ _ _ ?_ (by assumption) (by decide)
      | refine bumpBy_object _ _ _ ?_ (by assumption) (by decide) | refine bumpBy_any _ _ _ ?_ (by assumption) (by assumption)
      | apply keyLineDone_changes | apply lineLeaves_changes | apply dlvError_changes | apply modDlv_changes | apply send_changes
      | refine Changes.tally ?_ _ _ _ (by assumption) (by decide) | refine Changes.object ?_ _ _ _ (by assumption) (by decide)
      | refine Changes.any ?_ _ _ _ (by assumption) (by assumption) | refine Changes.fst ‹_› ?_ | refine Changes.snd ‹_› ?_ | intro _
      | extract_lets | split | dsimp +zetaDelta only | refine Changes.put ?_)

theorem readStaging_changes {pt : Part → Bool} {s0 : State} (s : State) (id slot : Nat) (l : OutLine) (read : SramRead)
    (hK : Changes pt s0 s) (h_drawn : pt .drawn = true) (h_tallies : pt .tallies = true) (h_staging : pt .staging = true)
    (h_txa : pt .txa = true) (h_dlv : pt .dlv = true) (h_evt : pt .evt = true) (h_ras : pt .ras = true)
    (h_trace : pt .trace = true) : Changes pt s0 (readStaging s id slot l read).2 := by
  unfold readStaging
  repeat' (with_reducible first
      | assumption | apply modDlv_changes | apply sramFault_changes | apply raiseErr_changes | apply reserveFree_changes
      | refine Changes.fst ‹_› ?_ | refine Changes.snd ‹_› ?_ | intro _ | extract_lets | split | dsimp +zetaDelta only
      | refine Changes.put ?_)

theorem writeLine_changes {pt : Part → Bool} {s0 : State} (s : State) (port : Nat) (x : Dlv) (l : OutLine) (hK : Changes pt s0 s)
    (h_tallies : pt .tallies = true) (h_scratchpad : pt .scratchpad = true) (h_dlv : pt .dlv = true) : Changes pt s0
    (writeLine s port x l) := by
  unfold writeLine
  repeat' (with_reducible first
      | assumption | refine bump_tally _ _ ?_ (by assumption) (by decide) | refine bump_object _ _ ?_ (by assumption) (by decide)
      | refine bump_any _ _ ?_ (by assumption) (by assumption) | refine bumpBy_tally _ _ _ ?_ (by assumption) (by decide)
      | refine bumpBy_object _ _ _ ?_ (by assumption) (by decide) | refine bumpBy_any _ _ _ ?_ (by assumption) (by assumption)
      | apply setBank_changes | apply spWrite_changes | refine Changes.tally ?_ _ _ _ (by assumption) (by decide)
      | refine Changes.object ?_ _ _ _ (by assumption) (by decide) | refine Changes.any ?_ _ _ _ (by assumption) (by assumption)
      | intro _ | extract_lets | split | dsimp +zetaDelta only | refine Changes.put ?_)

theorem execDlvPortWrite_changes {pt : Part → Bool} {s0 : State} (port : Nat) (read : SramRead) (s : State) (hK : Changes pt s0 s)
    (h_drawn : pt .drawn = true) (h_objects : pt .objects = true) (h_tallies : pt .tallies = true) (h_devMem : pt .devMem = true)
    (h_staging : pt .staging = true) (h_scratchpad : pt .scratchpad = true) (h_pairs : pt .pairs = true) (h_slots : pt .slots = true)
    (h_cmds : pt .cmds = true) (h_arbs : pt .arbs = true) (h_txa : pt .txa = true) (h_sdx : pt .sdx = true) (h_rsv : pt .rsv = true)
    (h_mdc : pt .mdc = true) (h_tok : pt .tok = true) (h_bat : pt .bat = true) (h_pools : pt .pools = true) (h_dlv : pt .dlv = true)
    (h_net : pt .net = true) (h_fed : pt .fed = true) (h_evt : pt .evt = true) (h_ras : pt .ras = true)
    (h_trace : pt .trace = true) : ∃ t, execDlvPortWrite port read s = .next t ∧ Changes pt s0 t := by
  refine ⟨_, rfl, ?_⟩
  repeat' (with_reducible first
      | assumption | apply writeLine_changes | apply readStaging_changes | apply dropLine_changes | apply advanceDlv_changes
      | apply modDlv_changes | apply arbGrant_changes | refine Changes.fst ‹_› ?_ | refine Changes.snd ‹_› ?_ | intro _ | extract_lets
      | split | dsimp +zetaDelta only | refine Changes.put ?_)

theorem bankAck_changes {pt : Part → Bool} {s0 : State} (s : State) (b : Nat) (hK : Changes pt s0 s) (h_tallies : pt .tallies = true)
    (h_dlv : pt .dlv = true) : Changes pt s0 (bankAck s b) := by
  unfold bankAck
  repeat' (with_reducible first
      | assumption | refine bump_tally _ _ ?_ (by assumption) (by decide) | refine bump_object _ _ ?_ (by assumption) (by decide)
      | refine bump_any _ _ ?_ (by assumption) (by assumption) | refine bumpBy_tally _ _ _ ?_ (by assumption) (by decide)
      | refine bumpBy_object _ _ _ ?_ (by assumption) (by decide) | refine bumpBy_any _ _ _ ?_ (by assumption) (by assumption)
      | apply setBank_changes | refine Changes.tally ?_ _ _ _ (by assumption) (by decide)
      | refine Changes.object ?_ _ _ _ (by assumption) (by decide) | refine Changes.any ?_ _ _ _ (by assumption) (by assumption)
      | intro _ | extract_lets | split | dsimp +zetaDelta only | refine Changes.put ?_)

theorem execSpWack_changes {pt : Part → Bool} {s0 : State} (port : Nat) (s : State) (hK : Changes pt s0 s) (h_drawn : pt .drawn = true)
    (h_objects : pt .objects = true) (h_tallies : pt .tallies = true) (h_devMem : pt .devMem = true) (h_pairs : pt .pairs = true)
    (h_slots : pt .slots = true) (h_cmds : pt .cmds = true) (h_txa : pt .txa = true) (h_sdx : pt .sdx = true) (h_rsv : pt .rsv = true)
    (h_mdc : pt .mdc = true) (h_tok : pt .tok = true) (h_bat : pt .bat = true) (h_pools : pt .pools = true) (h_dlv : pt .dlv = true)
    (h_net : pt .net = true) (h_fed : pt .fed = true) (h_evt : pt .evt = true)
    (h_trace : pt .trace = true) : ∃ t, execSpWack port s = .next t ∧ Changes pt s0 t := by
  refine ⟨_, rfl, ?_⟩
  repeat' (with_reducible first
      | assumption | refine bump_tally _ _ ?_ (by assumption) (by decide) | refine bump_object _ _ ?_ (by assumption) (by decide)
      | refine bump_any _ _ ?_ (by assumption) (by assumption) | refine bumpBy_tally _ _ _ ?_ (by assumption) (by decide)
      | refine bumpBy_object _ _ _ ?_ (by assumption) (by decide) | refine bumpBy_any _ _ _ ?_ (by assumption) (by assumption)
      | apply bankAck_changes | apply keyLineDone_changes | apply lineLeaves_changes | apply setBank_changes | apply advanceDlv_changes
      | apply modDlv_changes | apply send_changes | refine Changes.tally ?_ _ _ _ (by assumption) (by decide)
      | refine Changes.object ?_ _ _ _ (by assumption) (by decide) | refine Changes.any ?_ _ _ _ (by assumption) (by assumption)
      | refine Changes.fst ‹_› ?_ | refine Changes.snd ‹_› ?_ | intro _ | extract_lets | split | dsimp +zetaDelta only
      | refine Changes.put ?_)

theorem openAway_changes {pt : Part → Bool} {s0 : State} (s : State) (die item dst slot tag due : Nat) (hK : Changes pt s0 s)
    (h_objects : pt .objects = true) (h_tallies : pt .tallies = true) (h_dlv : pt .dlv = true) : Changes pt s0
    (openAway s die item dst slot tag due) := by
  unfold openAway
  repeat' (with_reducible first
      | assumption | apply addDlv_changes | refine Changes.fst ‹_› ?_ | refine Changes.snd ‹_› ?_ | intro _ | split
      | refine Changes.put ?_)

theorem modAway_changes {pt : Part → Bool} {s0 : State} (s : State) (die item dst : Nat) (f : Dlv → Dlv) (hK : Changes pt s0 s)
    (h_dlv : pt .dlv = true) : Changes pt s0 (modAway s die item dst f) := by
  unfold modAway
  repeat' (with_reducible first
      | assumption | apply modDlv_changes | refine Changes.fst ‹_› ?_ | refine Changes.snd ‹_› ?_ | intro _ | split)

theorem advanceAway_changes {pt : Part → Bool} {s0 : State} (s : State) (die item dst : Nat) (f : Dlv → Dlv) (hK : Changes pt s0 s)
    (h_drawn : pt .drawn = true) (h_objects : pt .objects = true) (h_tallies : pt .tallies = true) (h_devMem : pt .devMem = true)
    (h_pairs : pt .pairs = true) (h_slots : pt .slots = true) (h_cmds : pt .cmds = true) (h_txa : pt .txa = true)
    (h_sdx : pt .sdx = true) (h_rsv : pt .rsv = true) (h_mdc : pt .mdc = true) (h_tok : pt .tok = true) (h_bat : pt .bat = true)
    (h_pools : pt .pools = true) (h_dlv : pt .dlv = true) (h_net : pt .net = true) (h_fed : pt .fed = true) (h_evt : pt .evt = true)
    (h_trace : pt .trace = true) : Changes pt s0 (advanceAway s die item dst f) := by
  unfold advanceAway
  repeat' (with_reducible first
      | assumption | apply advanceDlv_changes | apply modDlv_changes | refine Changes.fst ‹_› ?_ | refine Changes.snd ‹_› ?_ | intro _
      | split)

theorem execMcastCreditReturn_changes {pt : Part → Bool} {s0 : State} (item die dst num : Nat) (dropped : Bool) (stallFclk : Nat)
    (s : State) (hK : Changes pt s0 s) (h_drawn : pt .drawn = true) (h_objects : pt .objects = true) (h_tallies : pt .tallies = true)
    (h_devMem : pt .devMem = true) (h_pairs : pt .pairs = true) (h_slots : pt .slots = true) (h_cmds : pt .cmds = true)
    (h_txa : pt .txa = true) (h_sdx : pt .sdx = true) (h_rsv : pt .rsv = true) (h_mdc : pt .mdc = true) (h_tok : pt .tok = true)
    (h_bat : pt .bat = true) (h_pools : pt .pools = true) (h_dlv : pt .dlv = true) (h_net : pt .net = true) (h_fed : pt .fed = true)
    (h_evt : pt .evt = true)
    (h_trace : pt .trace = true) : ∃ t, execMcastCreditReturn item die dst num dropped stallFclk s = .next t ∧ Changes pt s0 t := by
  refine ⟨_, rfl, ?_⟩
  repeat' (with_reducible first
      | assumption | refine bump_tally _ _ ?_ (by assumption) (by decide) | refine bump_object _ _ ?_ (by assumption) (by decide)
      | refine bump_any _ _ ?_ (by assumption) (by assumption) | refine bumpBy_tally _ _ _ ?_ (by assumption) (by decide)
      | refine bumpBy_object _ _ _ ?_ (by assumption) (by decide) | refine bumpBy_any _ _ _ ?_ (by assumption) (by assumption)
      | apply advanceDlv_changes | apply modDlv_changes | refine Changes.tally ?_ _ _ _ (by assumption) (by decide)
      | refine Changes.object ?_ _ _ _ (by assumption) (by decide) | refine Changes.any ?_ _ _ _ (by assumption) (by assumption)
      | refine Changes.fst ‹_› ?_ | refine Changes.snd ‹_› ?_ | intro _ | split)

theorem execStragglerTimeout_changes {pt : Part → Bool} {s0 : State} (item : Nat) (s : State) (hK : Changes pt s0 s)
    (h_drawn : pt .drawn = true) (h_objects : pt .objects = true) (h_tallies : pt .tallies = true) (h_devMem : pt .devMem = true)
    (h_pairs : pt .pairs = true) (h_slots : pt .slots = true) (h_cmds : pt .cmds = true) (h_txa : pt .txa = true)
    (h_sdx : pt .sdx = true) (h_rsv : pt .rsv = true) (h_mdc : pt .mdc = true) (h_tok : pt .tok = true) (h_bat : pt .bat = true)
    (h_pools : pt .pools = true) (h_dlv : pt .dlv = true) (h_net : pt .net = true) (h_fed : pt .fed = true) (h_evt : pt .evt = true)
    (h_trace : pt .trace = true) : ∃ t, execStragglerTimeout item s = .next t ∧ Changes pt s0 t := by
  refine ⟨_, rfl, ?_⟩
  repeat' (with_reducible first
      | assumption | refine bump_tally _ _ ?_ (by assumption) (by decide) | refine bump_object _ _ ?_ (by assumption) (by decide)
      | refine bump_any _ _ ?_ (by assumption) (by assumption) | refine bumpBy_tally _ _ _ ?_ (by assumption) (by decide)
      | refine bumpBy_object _ _ _ ?_ (by assumption) (by decide) | refine bumpBy_any _ _ _ ?_ (by assumption) (by assumption)
      | apply advanceDlv_changes | apply sendNotice_changes | apply dlvError_changes | apply modDlv_changes
      | refine Changes.tally ?_ _ _ _ (by assumption) (by decide) | refine Changes.object ?_ _ _ _ (by assumption) (by decide)
      | refine Changes.any ?_ _ _ _ (by assumption) (by assumption) | apply Changes.foldl | apply Changes.foldlFst
      | apply Changes.foldlSnd | refine Changes.fst ‹_› ?_ | refine Changes.snd ‹_› ?_ | intro _ | extract_lets | split
      | dsimp +zetaDelta only)

theorem stragglerEffect_changes {pt : Part → Bool} {s0 : State} (x0 : Via) (x1 : Nat) (x2 : Nat) (x3 : List Byte) (s : State)
    (hK : Changes pt s0 s) (h_objects : pt .objects = true) (h_tallies : pt .tallies = true) (h_dict : pt .dict = true) : Changes pt s0
    (stragglerEffect x0 x1 x2 x3 s) := by
  unfold stragglerEffect
  repeat' (with_reducible first | assumption | apply claimEffect_changes | apply storeEffect_changes | intro _ | split)

theorem execStragglerEnableWrite_changes {pt : Part → Bool} {s0 : State} (via : Via) (value : Nat) (s : State) (hK : Changes pt s0 s)
    (h_objects : pt .objects = true) (h_tallies : pt .tallies = true) (h_fed : pt .fed = true) (h_dict : pt .dict = true)
    (h_trace : pt .trace = true) : ∃ t, execStragglerEnableWrite via value s = .next t ∧ Changes pt s0 t := by
  refine ⟨_, rfl, ?_⟩
  repeat' (with_reducible first | assumption | apply stragglerEffect_changes | apply requestWrite_changes | intro _)

theorem execBankPdReqAssert_changes {pt : Part → Bool} {s0 : State} (bank : Nat) (s : State) (hK : Changes pt s0 s)
    (h_tallies : pt .tallies = true) (h_dlv : pt .dlv = true) : ∃ t, execBankPdReqAssert bank s = .next t ∧ Changes pt s0 t := by
  refine ⟨_, rfl, ?_⟩
  repeat' (with_reducible first | assumption | apply bankAck_changes | apply setBank_changes | intro _ | refine Changes.put ?_)

theorem execBankPdReqWithdraw_changes {pt : Part → Bool} {s0 : State} (bank : Nat) (s : State) (hK : Changes pt s0 s)
    (h_dlv : pt .dlv = true) : ∃ t, execBankPdReqWithdraw bank s = .next t ∧ Changes pt s0 t := by
  refine ⟨_, rfl, ?_⟩
  repeat' (with_reducible first | assumption | apply setBank_changes | intro _ | refine Changes.put ?_)

theorem execBankOnRise_changes {pt : Part → Bool} {s0 : State} (bank : Nat) (s : State) (hK : Changes pt s0 s)
    (h_dlv : pt .dlv = true) : ∃ t, execBankOnRise bank s = .next t ∧ Changes pt s0 t := by
  refine ⟨_, rfl, ?_⟩
  repeat' (with_reducible first | assumption | apply setBank_changes | intro _ | refine Changes.put ?_)

theorem execBankOnFall_changes {pt : Part → Bool} {s0 : State} (bank : Nat) (s : State) (hK : Changes pt s0 s)
    (h_dlv : pt .dlv = true) : ∃ t, execBankOnFall bank s = .next t ∧ Changes pt s0 t := by
  refine ⟨_, rfl, ?_⟩
  repeat' (with_reducible first | assumption | apply setBank_changes | intro _ | refine Changes.put ?_)

/-! ## FedOps -/

theorem fedTake_changes {pt : Part → Bool} {s0 : State} (ty : Nat) (m : FedArrival) (act : List Byte → State → State) (s : State)
    (he : ∀ b s, Changes pt s0 s → Changes pt s0 (act b s)) (hK : Changes pt s0 s) (h_tallies : pt .tallies = true)
    (h_fed : pt .fed = true) : Changes pt s0 (fedTake ty m act s) := by
  unfold fedTake
  repeat' (with_reducible first
      | assumption | refine bump_tally _ _ ?_ (by assumption) (by decide) | refine bump_object _ _ ?_ (by assumption) (by decide)
      | refine bump_any _ _ ?_ (by assumption) (by assumption) | refine bumpBy_tally _ _ _ ?_ (by assumption) (by decide)
      | refine bumpBy_object _ _ _ ?_ (by assumption) (by decide) | refine bumpBy_any _ _ _ ?_ (by assumption) (by assumption)
      | apply send_changes | refine Changes.tally ?_ _ _ _ (by assumption) (by decide)
      | refine Changes.object ?_ _ _ _ (by assumption) (by decide) | refine Changes.any ?_ _ _ _ (by assumption) (by assumption)
      | apply he | intro _ | split)

theorem poisonScratch_changes {pt : Part → Bool} {s0 : State} (s : State) (addrs : List Nat) (hK : Changes pt s0 s)
    (h_drawn : pt .drawn = true) (h_tallies : pt .tallies = true) (h_scratchpad : pt .scratchpad = true) : Changes pt s0
    (poisonScratch s addrs) := by
  unfold poisonScratch
  repeat' (with_reducible first
      | assumption | apply reserveFree_changes | apply spWrite_changes | apply Changes.foldl | apply Changes.foldlFst
      | apply Changes.foldlSnd | refine Changes.fst ‹_› ?_ | refine Changes.snd ‹_› ?_ | intro _ | extract_lets | split
      | dsimp +zetaDelta only)

theorem raiseFatal_changes {pt : Part → Bool} {s0 : State} (s : State) (cause : Nat) (hK : Changes pt s0 s)
    (h_tallies : pt .tallies = true) (h_evt : pt .evt = true) (h_trace : pt .trace = true) : Changes pt s0 (raiseFatal s cause) := by
  unfold raiseFatal
  repeat' (with_reducible first | assumption | apply raiseErr_changes | apply countErr_changes | intro _ | split)

theorem fatalError_changes {pt : Part → Bool} {s0 : State} (s : State) (cause : Nat) (hK : Changes pt s0 s) (h_drawn : pt .drawn = true)
    (h_boot : pt .boot = true) (h_tallies : pt .tallies = true) (h_scratchpad : pt .scratchpad = true) (h_cmds : pt .cmds = true)
    (h_txa : pt .txa = true) (h_forge : pt .forge = true) (h_sdx : pt .sdx = true) (h_rsv : pt .rsv = true) (h_mdc : pt .mdc = true)
    (h_tok : pt .tok = true) (h_bat : pt .bat = true) (h_dlv : pt .dlv = true) (h_net : pt .net = true) (h_fed : pt .fed = true)
    (h_evt : pt .evt = true) (h_trace : pt .trace = true) : Changes pt s0 (fatalError s cause) := by
  unfold fatalError
  repeat' (with_reducible first
      | assumption | apply raiseFatal_changes | apply poisonScratch_changes | apply lastBadOther_changes | intro _ | extract_lets
      | dsimp +zetaDelta only | refine Changes.put ?_)

/-! ## Barrier -/

theorem openKeyStreams_changes {pt : Part → Bool} {s0 : State} (s : State) (hK : Changes pt s0 s)
    (h_sdx : pt .sdx = true) : Changes pt s0 (openKeyStreams s) := by
  unfold openKeyStreams
  repeat' (with_reducible first
      | assumption | refine Changes.fst ‹_› ?_ | refine Changes.snd ‹_› ?_ | extract_lets | split | dsimp +zetaDelta only
      | refine Changes.put ?_)

theorem openWindows_changes {pt : Part → Bool} {s0 : State} (s : State) (hK : Changes pt s0 s) (h_drawn : pt .drawn = true)
    (h_objects : pt .objects = true) (h_tallies : pt .tallies = true) (h_devMem : pt .devMem = true) (h_pairs : pt .pairs = true)
    (h_slots : pt .slots = true) (h_cmds : pt .cmds = true) (h_txa : pt .txa = true) (h_sdx : pt .sdx = true) (h_rsv : pt .rsv = true)
    (h_mdc : pt .mdc = true) (h_tok : pt .tok = true) (h_bat : pt .bat = true) (h_pools : pt .pools = true) (h_dlv : pt .dlv = true)
    (h_net : pt .net = true) (h_fed : pt .fed = true) (h_evt : pt .evt = true) (h_trace : pt .trace = true) : Changes pt s0
    (openWindows s) := by
  unfold openWindows
  repeat' (with_reducible first
      | assumption | apply openKeyStreams_changes | apply advanceDlv_changes | apply Changes.foldl | apply Changes.foldlFst
      | apply Changes.foldlSnd | intro _)

theorem execBarRelease_changes {pt : Part → Bool} {s0 : State} (s : State) (hK : Changes pt s0 s) (h_drawn : pt .drawn = true)
    (h_objects : pt .objects = true) (h_tallies : pt .tallies = true) (h_devMem : pt .devMem = true) (h_pairs : pt .pairs = true)
    (h_slots : pt .slots = true) (h_cmds : pt .cmds = true) (h_txa : pt .txa = true) (h_sdx : pt .sdx = true) (h_rsv : pt .rsv = true)
    (h_mdc : pt .mdc = true) (h_tok : pt .tok = true) (h_bat : pt .bat = true) (h_pools : pt .pools = true) (h_dlv : pt .dlv = true)
    (h_net : pt .net = true) (h_fed : pt .fed = true) (h_evt : pt .evt = true)
    (h_trace : pt .trace = true) : ∃ t, execBarRelease s = .next t ∧ Changes pt s0 t := by
  refine ⟨_, rfl, ?_⟩
  repeat' (with_reducible first
      | assumption | apply openWindows_changes | refine Changes.tally ?_ _ _ _ (by assumption) (by decide)
      | refine Changes.object ?_ _ _ _ (by assumption) (by decide) | refine Changes.any ?_ _ _ _ (by assumption) (by assumption)
      | intro _ | extract_lets | split | dsimp +zetaDelta only | refine Changes.put ?_)

theorem dropHeld_changes {pt : Part → Bool} {s0 : State} (s : State) (hK : Changes pt s0 s) (h_drawn : pt .drawn = true)
    (h_objects : pt .objects = true) (h_tallies : pt .tallies = true) (h_devMem : pt .devMem = true) (h_pairs : pt .pairs = true)
    (h_slots : pt .slots = true) (h_cmds : pt .cmds = true) (h_txa : pt .txa = true) (h_sdx : pt .sdx = true) (h_rsv : pt .rsv = true)
    (h_mdc : pt .mdc = true) (h_tok : pt .tok = true) (h_bat : pt .bat = true) (h_pools : pt .pools = true) (h_dlv : pt .dlv = true)
    (h_net : pt .net = true) (h_fed : pt .fed = true) (h_evt : pt .evt = true) (h_trace : pt .trace = true) : Changes pt s0
    (dropHeld s) := by
  unfold dropHeld
  repeat' (with_reducible first
      | assumption | apply dropLine_changes | apply advanceDlv_changes | apply Changes.foldl | apply Changes.foldlFst
      | apply Changes.foldlSnd | intro _ | split)

theorem recordTied_changes {pt : Part → Bool} {s0 : State} (before : State) (s : State) (hK : Changes pt s0 s)
    (h_dlv : pt .dlv = true) : Changes pt s0 (recordTied before s) := by
  unfold recordTied
  repeat' (with_reducible first
      | assumption | refine Changes.fst ‹_› ?_ | refine Changes.snd ‹_› ?_ | extract_lets | split | dsimp +zetaDelta only
      | refine Changes.put ?_)

theorem lateRecord_changes {pt : Part → Bool} {s0 : State} (s : State) (hK : Changes pt s0 s) (h_objects : pt .objects = true)
    (h_tallies : pt .tallies = true) : Changes pt s0 (lateRecord s) := by
  unfold lateRecord
  repeat' (with_reducible first
      | assumption | refine bump_tally _ _ ?_ (by assumption) (by decide) | refine bump_object _ _ ?_ (by assumption) (by decide)
      | refine bump_any _ _ ?_ (by assumption) (by assumption) | refine bumpBy_tally _ _ _ ?_ (by assumption) (by decide)
      | refine bumpBy_object _ _ _ ?_ (by assumption) (by decide) | refine bumpBy_any _ _ _ ?_ (by assumption) (by assumption)
      | refine Changes.tally ?_ _ _ _ (by assumption) (by decide) | refine Changes.object ?_ _ _ _ (by assumption) (by decide)
      | refine Changes.any ?_ _ _ _ (by assumption) (by assumption) | refine Changes.fst ‹_› ?_ | refine Changes.snd ‹_› ?_ | intro _
      | extract_lets | split | dsimp +zetaDelta only)

theorem arrive_changes {pt : Part → Bool} {s0 : State} (s : State) (fabricFirst : Bool) (waitFclk : Nat) (hK : Changes pt s0 s)
    (h_objects : pt .objects = true) (h_tallies : pt .tallies = true) (h_dlv : pt .dlv = true) (h_pins : pt .pins = true)
    (h_evt : pt .evt = true) (h_trace : pt .trace = true) : Changes pt s0 (arrive s fabricFirst waitFclk) := by
  unfold arrive
  repeat' (with_reducible first
      | assumption | refine bump_tally _ _ ?_ (by assumption) (by decide) | refine bump_object _ _ ?_ (by assumption) (by decide)
      | refine bump_any _ _ ?_ (by assumption) (by assumption) | refine bumpBy_tally _ _ _ ?_ (by assumption) (by decide)
      | refine bumpBy_object _ _ _ ?_ (by assumption) (by decide) | refine bumpBy_any _ _ _ ?_ (by assumption) (by assumption)
      | apply lateRecord_changes | apply pulse_changes | apply fire_changes | apply traceRec_changes
      | refine Changes.tally ?_ _ _ _ (by assumption) (by decide) | refine Changes.object ?_ _ _ _ (by assumption) (by decide)
      | refine Changes.any ?_ _ _ _ (by assumption) (by assumption) | intro _ | extract_lets | split | dsimp +zetaDelta only
      | refine Changes.put ?_)

theorem execEngineArrive_changes {pt : Part → Bool} {s0 : State} (fabricFirst : Bool) (waitFclk : Nat) (s : State)
    (hK : Changes pt s0 s) (h_drawn : pt .drawn = true) (h_objects : pt .objects = true) (h_tallies : pt .tallies = true)
    (h_devMem : pt .devMem = true) (h_pairs : pt .pairs = true) (h_slots : pt .slots = true) (h_cmds : pt .cmds = true)
    (h_txa : pt .txa = true) (h_sdx : pt .sdx = true) (h_rsv : pt .rsv = true) (h_mdc : pt .mdc = true) (h_tok : pt .tok = true)
    (h_bat : pt .bat = true) (h_pools : pt .pools = true) (h_dlv : pt .dlv = true) (h_net : pt .net = true) (h_fed : pt .fed = true)
    (h_pins : pt .pins = true) (h_evt : pt .evt = true)
    (h_trace : pt .trace = true) : ∃ t, execEngineArrive fabricFirst waitFclk s = .next t ∧ Changes pt s0 t := by
  refine ⟨_, rfl, ?_⟩
  repeat' (with_reducible first
      | assumption | apply arrive_changes | apply recordTied_changes | apply dropHeld_changes | intro _ | extract_lets | split
      | dsimp +zetaDelta only)

theorem execRegionPoisoning_changes {pt : Part → Bool} {s0 : State} (slot : Nat) (s : State) (hK : Changes pt s0 s)
    (h_drawn : pt .drawn = true) (h_objects : pt .objects = true) (h_tallies : pt .tallies = true)
    (h_dlv : pt .dlv = true) : ∃ t, execRegionPoisoning slot s = .next t ∧ Changes pt s0 t := by
  refine ⟨_, rfl, ?_⟩
  repeat' (with_reducible first
      | assumption | apply addDlv_changes | apply reserveFree_changes | refine Changes.fst ‹_› ?_ | refine Changes.snd ‹_› ?_ | intro _
      | extract_lets | split | dsimp +zetaDelta only)

theorem permit_changes {pt : Part → Bool} {s0 : State} (s : State) (hK : Changes pt s0 s) (h_dlv : pt .dlv = true) : Changes pt s0
    (permit s) := by
  unfold permit
  repeat' (with_reducible first | assumption | refine Changes.put ?_)

theorem leadRelease_changes {pt : Part → Bool} {s0 : State} (s : State) (hK : Changes pt s0 s) (h_dlv : pt .dlv = true)
    (h_fed : pt .fed = true) : Changes pt s0 (leadRelease s) := by
  unfold leadRelease
  repeat' (with_reducible first
      | assumption | apply permit_changes | apply fedSend_changes | apply Changes.foldl | apply Changes.foldlFst
      | apply Changes.foldlSnd | intro _ | extract_lets | split | dsimp +zetaDelta only | refine Changes.put ?_)

theorem sendArrive_changes {pt : Part → Bool} {s0 : State} (s : State) (hK : Changes pt s0 s) (h_dlv : pt .dlv = true)
    (h_fed : pt .fed = true) : Changes pt s0 (sendArrive s) := by
  unfold sendArrive
  repeat' (with_reducible first | assumption | apply leadRelease_changes | apply fedSend_changes | intro _ | split | refine Changes.put ?_)

theorem execBarReport_changes {pt : Part → Bool} {s0 : State} (s : State) (hK : Changes pt s0 s) (h_dlv : pt .dlv = true)
    (h_fed : pt .fed = true) : ∃ t, execBarReport s = .next t ∧ Changes pt s0 t := by
  refine ⟨_, rfl, ?_⟩
  repeat' (with_reducible first | assumption | apply sendArrive_changes | intro _ | split | refine Changes.put ?_)

theorem execFedArrive_changes {pt : Part → Bool} {s0 : State} (msg : FedArrival) (s : State) (hK : Changes pt s0 s)
    (h_tallies : pt .tallies = true) (h_dlv : pt .dlv = true)
    (h_fed : pt .fed = true) : ∃ t, execFedArrive msg s = .next t ∧ Changes pt s0 t := by
  refine ⟨_, rfl, ?_⟩
  repeat' (with_reducible first | assumption | apply leadRelease_changes | apply fedTake_changes | intro _ | split | refine Changes.put ?_)

theorem execFedRelease_changes {pt : Part → Bool} {s0 : State} (msg : FedArrival) (s : State) (hK : Changes pt s0 s)
    (h_tallies : pt .tallies = true) (h_dlv : pt .dlv = true)
    (h_fed : pt .fed = true) : ∃ t, execFedRelease msg s = .next t ∧ Changes pt s0 t := by
  refine ⟨_, rfl, ?_⟩
  repeat' (with_reducible first | assumption | apply permit_changes | apply fedTake_changes | intro _ | split)

/-! ## IngestOps -/

theorem modMsg_changes {pt : Part → Bool} {s0 : State} (s : State) (id : Nat) (f : Msg → Msg) (hK : Changes pt s0 s)
    (h_net : pt .net = true) : Changes pt s0 (modMsg s id f) := by
  unfold modMsg
  repeat' (with_reducible first | assumption | split | refine Changes.put ?_)

theorem stageAsk_changes {pt : Part → Bool} {s0 : State} (s : State) (cmd : Nat) (hK : Changes pt s0 s) (h_tallies : pt .tallies = true)
    (h_pairs : pt .pairs = true) (h_cmds : pt .cmds = true) (h_bat : pt .bat = true) (h_net : pt .net = true)
    (h_trace : pt .trace = true) : Changes pt s0 (stageAsk s cmd) := by
  unfold stageAsk
  repeat' (with_reducible first
      | assumption | apply semWait_changes | apply modStage_changes | refine Changes.fst ‹_› ?_ | refine Changes.snd ‹_› ?_ | intro _
      | split | refine Changes.put ?_)

theorem writeIngest_changes {pt : Part → Bool} {s0 : State} (s : State) (i : IngestStage) (rec : List Byte) (hK : Changes pt s0 s)
    (h_devMem : pt .devMem = true) (h_net : pt .net = true) : Changes pt s0 (writeIngest s i rec) := by
  unfold writeIngest
  repeat' (with_reducible first | assumption | apply modStage_changes | apply memWrite_changes | intro _ | refine Changes.put ?_)

theorem portErr_changes {pt : Part → Bool} {s0 : State} (s : State) (p code src : Nat) (hK : Changes pt s0 s)
    (h_objects : pt .objects = true) (h_tallies : pt .tallies = true) (h_evt : pt .evt = true)
    (h_trace : pt .trace = true) : Changes pt s0 (portErr s p code src) := by
  unfold portErr
  repeat' (with_reducible first
      | assumption | refine bump_tally _ _ ?_ (by assumption) (by decide) | refine bump_object _ _ ?_ (by assumption) (by decide)
      | refine bump_any _ _ ?_ (by assumption) (by assumption) | refine bumpBy_tally _ _ _ ?_ (by assumption) (by decide)
      | refine bumpBy_object _ _ _ ?_ (by assumption) (by decide) | refine bumpBy_any _ _ _ ?_ (by assumption) (by assumption)
      | refine bump_tally _ _ ?_ (by assumption) (portCounters_tally _ _ (by decide))
      | refine bumpBy_tally _ _ _ ?_ (by assumption) (portCounters_tally _ _ (by decide)) | apply fire_changes | apply traceRec_changes
      | refine Changes.tally ?_ _ _ _ (by assumption) (by decide) | refine Changes.object ?_ _ _ _ (by assumption) (by decide)
      | refine Changes.any ?_ _ _ _ (by assumption) (by assumption) | intro _)

theorem raiseIngest_changes {pt : Part → Bool} {s0 : State} (s : State) (m : Msg) (t : Turned) (hK : Changes pt s0 s)
    (h_objects : pt .objects = true) (h_tallies : pt .tallies = true) (h_evt : pt .evt = true)
    (h_trace : pt .trace = true) : Changes pt s0 (raiseIngest s m t) := by
  unfold raiseIngest
  repeat' (with_reducible first
      | assumption | refine bump_tally _ _ ?_ (by assumption) (by decide) | refine bump_object _ _ ?_ (by assumption) (by decide)
      | refine bump_any _ _ ?_ (by assumption) (by assumption) | refine bumpBy_tally _ _ _ ?_ (by assumption) (by decide)
      | refine bumpBy_object _ _ _ ?_ (by assumption) (by decide) | refine bumpBy_any _ _ _ ?_ (by assumption) (by assumption)
      | apply portErr_changes | apply raiseErrOn_changes | refine Changes.tally ?_ _ _ _ (by assumption) (by decide)
      | refine Changes.object ?_ _ _ _ (by assumption) (by decide) | refine Changes.any ?_ _ _ _ (by assumption) (by assumption)
      | intro _ | extract_lets | split | dsimp +zetaDelta only)

theorem settleRefused_changes {pt : Part → Bool} {s0 : State} (s : State) (m : Msg) (t : Turned) (hK : Changes pt s0 s)
    (h_drawn : pt .drawn = true) (h_objects : pt .objects = true) (h_tallies : pt .tallies = true) (h_devMem : pt .devMem = true)
    (h_pairs : pt .pairs = true) (h_slots : pt .slots = true) (h_cmds : pt .cmds = true) (h_txa : pt .txa = true)
    (h_sdx : pt .sdx = true) (h_rsv : pt .rsv = true) (h_mdc : pt .mdc = true) (h_tok : pt .tok = true) (h_bat : pt .bat = true)
    (h_pools : pt .pools = true) (h_net : pt .net = true) (h_fed : pt .fed = true) (h_evt : pt .evt = true)
    (h_trace : pt .trace = true) : Changes pt s0 (settleRefused s m t) := by
  unfold settleRefused
  repeat' (with_reducible first
      | assumption | apply raiseIngest_changes | apply writeIngest_changes | apply modMsg_changes | apply releaseMsg_changes
      | apply stageEnds_changes | refine Changes.fst ‹_› ?_ | refine Changes.snd ‹_› ?_ | intro _ | extract_lets | split
      | dsimp +zetaDelta only | refine Changes.put ?_)

theorem turnAway_changes {pt : Part → Bool} {s0 : State} (s : State) (id code offset : Nat) (cut : Bool) (hK : Changes pt s0 s)
    (h_objects : pt .objects = true) (h_sdx : pt .sdx = true) (h_net : pt .net = true) : Changes pt s0
    (turnAway s id code offset cut) := by
  unfold turnAway
  repeat' (with_reducible first | assumption | apply modMsg_changes | apply cancelStreams_changes | intro _ | split | refine Changes.put ?_)

theorem turnNoLane_changes {pt : Part → Bool} {s0 : State} (s : State) (id : Nat) (hK : Changes pt s0 s) (h_drawn : pt .drawn = true)
    (h_objects : pt .objects = true) (h_sdx : pt .sdx = true) (h_net : pt .net = true) : Changes pt s0 (turnNoLane s id) := by
  unfold turnNoLane
  repeat' (with_reducible first
      | assumption | apply turnAway_changes | apply drawFree_changes | refine Changes.fst ‹_› ?_ | refine Changes.snd ‹_› ?_ | intro _
      | extract_lets | split | dsimp +zetaDelta only)

theorem startLimb_changes {pt : Part → Bool} {s0 : State} (s : State) (m : Msg) (limb : Nat) (hK : Changes pt s0 s)
    (h_sdx : pt .sdx = true) (h_net : pt .net = true) : Changes pt s0 (startLimb s m limb) := by
  unfold startLimb
  repeat' (with_reducible first
      | assumption | apply modMsg_changes | intro _ | extract_lets | dsimp +zetaDelta only | refine Changes.put ?_)

theorem checkHeader_changes {pt : Part → Bool} {s0 : State} (s : State) (i : IngestStage) (m : Msg) (hK : Changes pt s0 s)
    (h_drawn : pt .drawn = true) (h_objects : pt .objects = true) (h_sdx : pt .sdx = true) (h_net : pt .net = true) : Changes pt s0
    (checkHeader s i m) := by
  unfold checkHeader
  repeat' (with_reducible first
      | assumption | apply startLimb_changes | apply turnNoLane_changes | apply turnAway_changes | apply modMsg_changes
      | apply Changes.foldl | apply Changes.foldlFst | apply Changes.foldlSnd | refine Changes.fst ‹_› ?_ | refine Changes.snd ‹_› ?_
      | intro _ | extract_lets | split | dsimp +zetaDelta only | refine Changes.put ?_)

theorem checkLanded_changes {pt : Part → Bool} {s0 : State} (s : State) (m : Msg) (hK : Changes pt s0 s)
    (h_objects : pt .objects = true) (h_sdx : pt .sdx = true) (h_net : pt .net = true) : Changes pt s0 (checkLanded s m) := by
  unfold checkLanded
  repeat' (with_reducible first
      | assumption | apply turnAway_changes | apply modMsg_changes | refine Changes.fst ‹_› ?_ | refine Changes.snd ‹_› ?_ | intro _
      | extract_lets | split | dsimp +zetaDelta only | refine Changes.put ?_)

theorem checkTail_changes {pt : Part → Bool} {s0 : State} (s : State) (m : Msg) (hK : Changes pt s0 s) (h_objects : pt .objects = true)
    (h_sdx : pt .sdx = true) (h_net : pt .net = true) : Changes pt s0 (checkTail s m) := by
  unfold checkTail
  repeat' (with_reducible first | assumption | apply turnAway_changes | intro _ | extract_lets | split | dsimp +zetaDelta only)

theorem assignContainer_changes {pt : Part → Bool} {s0 : State} (s : State) (i : IngestStage) (m : Msg) (hK : Changes pt s0 s)
    (h_objects : pt .objects = true) (h_tallies : pt .tallies = true) (h_dlv : pt .dlv = true) (h_net : pt .net = true)
    (h_fed : pt .fed = true) : Changes pt s0 (assignContainer s i m) := by
  unfold assignContainer
  repeat' (with_reducible first
      | assumption | apply modMsg_changes | apply announceDlv_changes | apply modStage_changes | refine Changes.fst ‹_› ?_
      | refine Changes.snd ‹_› ?_ | intro _ | extract_lets | split | dsimp +zetaDelta only | refine Changes.put ?_)

theorem writeManifest_changes {pt : Part → Bool} {s0 : State} (s : State) (i : IngestStage) (d : Nat) (hK : Changes pt s0 s)
    (h_drawn : pt .drawn = true) (h_objects : pt .objects = true) (h_tallies : pt .tallies = true) (h_devMem : pt .devMem = true)
    (h_pairs : pt .pairs = true) (h_slots : pt .slots = true) (h_cmds : pt .cmds = true) (h_txa : pt .txa = true)
    (h_sdx : pt .sdx = true) (h_rsv : pt .rsv = true) (h_mdc : pt .mdc = true) (h_tok : pt .tok = true) (h_bat : pt .bat = true)
    (h_pools : pt .pools = true) (h_dlv : pt .dlv = true) (h_net : pt .net = true) (h_fed : pt .fed = true) (h_evt : pt .evt = true)
    (h_trace : pt .trace = true) : Changes pt s0 (writeManifest s i d) := by
  unfold writeManifest
  repeat' (with_reducible first
      | assumption | apply advanceDlv_changes | apply announceDlv_changes | apply emitLine_changes | apply modDlv_changes | intro _
      | extract_lets | dsimp +zetaDelta only | refine Changes.put ?_)

theorem writeManifests_changes {pt : Part → Bool} {s0 : State} (s : State) (slot : Nat) (hK : Changes pt s0 s)
    (h_drawn : pt .drawn = true) (h_objects : pt .objects = true) (h_tallies : pt .tallies = true) (h_devMem : pt .devMem = true)
    (h_pairs : pt .pairs = true) (h_slots : pt .slots = true) (h_cmds : pt .cmds = true) (h_txa : pt .txa = true)
    (h_sdx : pt .sdx = true) (h_rsv : pt .rsv = true) (h_mdc : pt .mdc = true) (h_tok : pt .tok = true) (h_bat : pt .bat = true)
    (h_pools : pt .pools = true) (h_dlv : pt .dlv = true) (h_net : pt .net = true) (h_fed : pt .fed = true) (h_evt : pt .evt = true)
    (h_trace : pt .trace = true) : Changes pt s0 (writeManifests s slot) := by
  unfold writeManifests
  repeat' (with_reducible first
      | assumption | apply writeManifest_changes | apply modStage_changes | apply Changes.foldl | apply Changes.foldlFst
      | apply Changes.foldlSnd | intro _ | extract_lets | dsimp +zetaDelta only | refine Changes.put ?_)

theorem takeNotice_changes {pt : Part → Bool} {s0 : State} (s : State) (die item dst slot tag due : Nat) (n : DlvNotice)
    (hK : Changes pt s0 s) (h_drawn : pt .drawn = true) (h_objects : pt .objects = true) (h_tallies : pt .tallies = true)
    (h_devMem : pt .devMem = true) (h_pairs : pt .pairs = true) (h_slots : pt .slots = true) (h_cmds : pt .cmds = true)
    (h_txa : pt .txa = true) (h_sdx : pt .sdx = true) (h_rsv : pt .rsv = true) (h_mdc : pt .mdc = true) (h_tok : pt .tok = true)
    (h_bat : pt .bat = true) (h_pools : pt .pools = true) (h_dlv : pt .dlv = true) (h_net : pt .net = true) (h_fed : pt .fed = true)
    (h_evt : pt .evt = true) (h_trace : pt .trace = true) : Changes pt s0 (takeNotice s die item dst slot tag due n) := by
  unfold takeNotice
  repeat' (with_reducible first
      | assumption | apply writeManifests_changes | apply advanceAway_changes | apply modAway_changes | apply openAway_changes
      | apply raiseHorizon_changes | refine Changes.fst ‹_› ?_ | refine Changes.snd ‹_› ?_ | intro _ | extract_lets | split
      | dsimp +zetaDelta only | refine Changes.put ?_)

theorem execD2dLineReceived_changes {pt : Part → Bool} {s0 : State} (die item dst : Nat) (what : DlvMsg) (slot tag due : Nat)
    (s : State) (hK : Changes pt s0 s) (h_drawn : pt .drawn = true) (h_objects : pt .objects = true) (h_tallies : pt .tallies = true)
    (h_devMem : pt .devMem = true) (h_pairs : pt .pairs = true) (h_slots : pt .slots = true) (h_cmds : pt .cmds = true)
    (h_txa : pt .txa = true) (h_sdx : pt .sdx = true) (h_rsv : pt .rsv = true) (h_mdc : pt .mdc = true) (h_tok : pt .tok = true)
    (h_bat : pt .bat = true) (h_pools : pt .pools = true) (h_dlv : pt .dlv = true) (h_net : pt .net = true) (h_fed : pt .fed = true)
    (h_evt : pt .evt = true)
    (h_trace : pt .trace = true) : ∃ t, execD2dLineReceived die item dst what slot tag due s = .next t ∧ Changes pt s0 t := by
  refine ⟨_, rfl, ?_⟩
  repeat' (with_reducible first
      | assumption | apply takeNotice_changes | apply modAway_changes | apply openAway_changes | refine Changes.fst ‹_› ?_
      | refine Changes.snd ‹_› ?_ | intro _ | extract_lets | split | dsimp +zetaDelta only | refine Changes.put ?_)

theorem checkMsg_changes {pt : Part → Bool} {s0 : State} (s : State) (id : Nat) (f : Msg → State → State)
    (he : ∀ m s, Changes pt s0 s → Changes pt s0 (f m s)) (hK : Changes pt s0 s)  : Changes pt s0 (checkMsg s id f) := by
  unfold checkMsg
  repeat' (with_reducible first | assumption | apply he | refine Changes.fst ‹_› ?_ | refine Changes.snd ‹_› ?_ | intro _ | split)

theorem ingestChecks_changes {pt : Part → Bool} {s0 : State} (s : State) (id : Nat) (i : IngestStage) (hK : Changes pt s0 s)
    (h_drawn : pt .drawn = true) (h_objects : pt .objects = true) (h_sdx : pt .sdx = true) (h_net : pt .net = true) : Changes pt s0
    (ingestChecks s id i) := by
  unfold ingestChecks
  repeat' (with_reducible first
      | assumption | apply checkMsg_changes | apply checkTail_changes | apply checkLanded_changes | apply checkHeader_changes
      | apply turnAway_changes | intro _ | extract_lets | split | dsimp +zetaDelta only)

theorem ingestProgress_changes {pt : Part → Bool} {s0 : State} (s : State) (id : Nat) (hK : Changes pt s0 s)
    (h_drawn : pt .drawn = true) (h_objects : pt .objects = true) (h_tallies : pt .tallies = true) (h_devMem : pt .devMem = true)
    (h_pairs : pt .pairs = true) (h_slots : pt .slots = true) (h_cmds : pt .cmds = true) (h_txa : pt .txa = true)
    (h_sdx : pt .sdx = true) (h_rsv : pt .rsv = true) (h_mdc : pt .mdc = true) (h_tok : pt .tok = true) (h_bat : pt .bat = true)
    (h_pools : pt .pools = true) (h_dlv : pt .dlv = true) (h_net : pt .net = true) (h_fed : pt .fed = true) (h_evt : pt .evt = true)
    (h_trace : pt .trace = true) : Changes pt s0 (ingestProgress s id) := by
  unfold ingestProgress
  repeat' (with_reducible first
      | assumption | apply ingestChecks_changes | apply writeManifests_changes | apply assignContainer_changes
      | apply settleRefused_changes | refine Changes.fst ‹_› ?_ | refine Changes.snd ‹_› ?_ | intro _ | extract_lets | split
      | dsimp +zetaDelta only)

theorem stagesTake_changes {pt : Part → Bool} {s0 : State} (s : State) (hK : Changes pt s0 s) (h_drawn : pt .drawn = true)
    (h_objects : pt .objects = true) (h_tallies : pt .tallies = true) (h_devMem : pt .devMem = true) (h_pairs : pt .pairs = true)
    (h_slots : pt .slots = true) (h_cmds : pt .cmds = true) (h_txa : pt .txa = true) (h_sdx : pt .sdx = true) (h_rsv : pt .rsv = true)
    (h_mdc : pt .mdc = true) (h_tok : pt .tok = true) (h_bat : pt .bat = true) (h_pools : pt .pools = true) (h_dlv : pt .dlv = true)
    (h_net : pt .net = true) (h_fed : pt .fed = true) (h_evt : pt .evt = true) (h_trace : pt .trace = true) : Changes pt s0
    (stagesTake s) := by
  unfold stagesTake
  repeat' (with_reducible first
      | assumption | apply ingestProgress_changes | apply stageAsk_changes | apply modMsg_changes | apply modStage_changes
      | apply Changes.foldl | apply Changes.foldlFst | apply Changes.foldlSnd | refine Changes.fst ‹_› ?_ | refine Changes.snd ‹_› ?_
      | intro _ | extract_lets | split | dsimp +zetaDelta only | refine Changes.put ?_)

theorem issueIngest_changes {pt : Part → Bool} {s0 : State} (s : State) (c : Cmd) (p : IngestParams) (hK : Changes pt s0 s)
    (h_drawn : pt .drawn = true) (h_objects : pt .objects = true) (h_tallies : pt .tallies = true) (h_devMem : pt .devMem = true)
    (h_pairs : pt .pairs = true) (h_slots : pt .slots = true) (h_cmds : pt .cmds = true) (h_txa : pt .txa = true)
    (h_sdx : pt .sdx = true) (h_rsv : pt .rsv = true) (h_mdc : pt .mdc = true) (h_tok : pt .tok = true) (h_bat : pt .bat = true)
    (h_pools : pt .pools = true) (h_dlv : pt .dlv = true) (h_net : pt .net = true) (h_fed : pt .fed = true) (h_evt : pt .evt = true)
    (h_trace : pt .trace = true) : Changes pt s0 (issueIngest s c p) := by
  unfold issueIngest
  repeat' (with_reducible first
      | assumption | apply stagesTake_changes | apply stageAsk_changes | apply refuseItem_changes | apply stageEnds_changes
      | apply modSlot_changes | refine Changes.fst ‹_› ?_ | refine Changes.snd ‹_› ?_ | intro _ | extract_lets | split
      | dsimp +zetaDelta only | refine Changes.put ?_)

theorem acceptContainer_changes {pt : Part → Bool} {s0 : State} (s : State) (i : IngestStage) (m : Msg) (hK : Changes pt s0 s)
    (h_drawn : pt .drawn = true) (h_objects : pt .objects = true) (h_tallies : pt .tallies = true) (h_devMem : pt .devMem = true)
    (h_pairs : pt .pairs = true) (h_slots : pt .slots = true) (h_cmds : pt .cmds = true) (h_txa : pt .txa = true)
    (h_sdx : pt .sdx = true) (h_rsv : pt .rsv = true) (h_mdc : pt .mdc = true) (h_tok : pt .tok = true) (h_bat : pt .bat = true)
    (h_pools : pt .pools = true) (h_net : pt .net = true) (h_fed : pt .fed = true) (h_evt : pt .evt = true)
    (h_trace : pt .trace = true) : Changes pt s0 (acceptContainer s i m) := by
  unfold acceptContainer
  repeat' (with_reducible first
      | assumption | refine bump_tally _ _ ?_ (by assumption) (by decide) | refine bump_object _ _ ?_ (by assumption) (by decide)
      | refine bump_any _ _ ?_ (by assumption) (by assumption) | refine bumpBy_tally _ _ _ ?_ (by assumption) (by decide)
      | refine bumpBy_object _ _ _ ?_ (by assumption) (by decide) | refine bumpBy_any _ _ _ ?_ (by assumption) (by assumption)
      | apply writeIngest_changes | apply modMsg_changes | apply semSignal_changes | apply stageEnds_changes | apply modStage_changes
      | apply fire_changes | refine Changes.tally ?_ _ _ _ (by assumption) (by decide)
      | refine Changes.object ?_ _ _ _ (by assumption) (by decide) | refine Changes.any ?_ _ _ _ (by assumption) (by assumption)
      | intro _ | extract_lets | split | dsimp +zetaDelta only | refine Changes.put ?_)

theorem closeContainer_changes {pt : Part → Bool} {s0 : State} (s : State) (d : Nat) (hK : Changes pt s0 s) (h_drawn : pt .drawn = true)
    (h_objects : pt .objects = true) (h_tallies : pt .tallies = true) (h_devMem : pt .devMem = true) (h_pairs : pt .pairs = true)
    (h_slots : pt .slots = true) (h_cmds : pt .cmds = true) (h_txa : pt .txa = true) (h_sdx : pt .sdx = true) (h_rsv : pt .rsv = true)
    (h_mdc : pt .mdc = true) (h_tok : pt .tok = true) (h_bat : pt .bat = true) (h_pools : pt .pools = true) (h_dlv : pt .dlv = true)
    (h_net : pt .net = true) (h_fed : pt .fed = true) (h_evt : pt .evt = true) (h_trace : pt .trace = true) : Changes pt s0
    (closeContainer s d) := by
  unfold closeContainer
  repeat' (with_reducible first | assumption | apply advanceDlv_changes | apply modDlv_changes | intro _ | refine Changes.put ?_)

theorem passLimb_changes {pt : Part → Bool} {s0 : State} (s : State) (i : IngestStage) (m : Msg) (d k : Nat) (poison : Bool)
    (hK : Changes pt s0 s) (h_drawn : pt .drawn = true) (h_objects : pt .objects = true) (h_tallies : pt .tallies = true)
    (h_devMem : pt .devMem = true) (h_pairs : pt .pairs = true) (h_slots : pt .slots = true) (h_cmds : pt .cmds = true)
    (h_txa : pt .txa = true) (h_sdx : pt .sdx = true) (h_rsv : pt .rsv = true) (h_mdc : pt .mdc = true) (h_tok : pt .tok = true)
    (h_bat : pt .bat = true) (h_pools : pt .pools = true) (h_dlv : pt .dlv = true) (h_net : pt .net = true) (h_fed : pt .fed = true)
    (h_evt : pt .evt = true) (h_trace : pt .trace = true) : Changes pt s0 (passLimb s i m d k poison) := by
  unfold passLimb
  repeat' (with_reducible first
      | assumption | apply closeContainer_changes | apply acceptContainer_changes | apply modMsg_changes | apply advanceDlv_changes
      | apply emitLines_changes | apply readChecked_changes | apply raiseErr_changes | apply Changes.foldl | apply Changes.foldlFst
      | apply Changes.foldlSnd | refine Changes.fst ‹_› ?_ | refine Changes.snd ‹_› ?_ | intro _ | extract_lets | split
      | dsimp +zetaDelta only | refine Changes.put ?_)

theorem execIngestConversion_changes {pt : Part → Bool} {s0 : State} (message delta : Nat) (s : State) (hK : Changes pt s0 s)
    (h_drawn : pt .drawn = true) (h_objects : pt .objects = true) (h_tallies : pt .tallies = true) (h_devMem : pt .devMem = true)
    (h_pairs : pt .pairs = true) (h_slots : pt .slots = true) (h_cmds : pt .cmds = true) (h_txa : pt .txa = true)
    (h_sdx : pt .sdx = true) (h_rsv : pt .rsv = true) (h_mdc : pt .mdc = true) (h_tok : pt .tok = true) (h_bat : pt .bat = true)
    (h_pools : pt .pools = true) (h_dlv : pt .dlv = true) (h_net : pt .net = true) (h_fed : pt .fed = true) (h_evt : pt .evt = true)
    (h_trace : pt .trace = true) : ∃ t, execIngestConversion message delta s = .next t ∧ Changes pt s0 t := by
  refine ⟨_, rfl, ?_⟩
  repeat' (with_reducible first
      | assumption | refine bump_tally _ _ ?_ (by assumption) (by decide) | refine bump_object _ _ ?_ (by assumption) (by decide)
      | refine bump_any _ _ ?_ (by assumption) (by assumption) | refine bumpBy_tally _ _ _ ?_ (by assumption) (by decide)
      | refine bumpBy_object _ _ _ ?_ (by assumption) (by decide) | refine bumpBy_any _ _ _ ?_ (by assumption) (by assumption)
      | apply passLimb_changes | apply startLimb_changes | apply turnNoLane_changes | apply settleRefused_changes
      | apply modMsg_changes | apply cancelStreams_changes | apply raiseErr_changes
      | refine Changes.tally ?_ _ _ _ (by assumption) (by decide) | refine Changes.object ?_ _ _ _ (by assumption) (by decide)
      | refine Changes.any ?_ _ _ _ (by assumption) (by assumption) | refine Changes.fst ‹_› ?_ | refine Changes.snd ‹_› ?_ | intro _
      | extract_lets | split | dsimp +zetaDelta only | refine Changes.put ?_)

/-! ## NetOps -/

theorem setPort_changes {pt : Part → Bool} {s0 : State} (s : State) (p : Nat) (x : Port) (hK : Changes pt s0 s)
    (h_net : pt .net = true) : Changes pt s0 (setPort s p x) := by
  unfold setPort
  repeat' (with_reducible first | assumption | refine Changes.put ?_)

theorem modPort_changes {pt : Part → Bool} {s0 : State} (s : State) (p : Nat) (f : Port → Port) (hK : Changes pt s0 s)
    (h_net : pt .net = true) : Changes pt s0 (modPort s p f) := by
  unfold modPort
  repeat' (with_reducible first | assumption | apply setPort_changes | intro _)

theorem setQp_changes {pt : Part → Bool} {s0 : State} (s : State) (q : Nat) (x : Qp) (hK : Changes pt s0 s)
    (h_net : pt .net = true) : Changes pt s0 (setQp s q x) := by
  unfold setQp
  repeat' (with_reducible first | assumption | refine Changes.put ?_)

theorem modQp_changes {pt : Part → Bool} {s0 : State} (s : State) (q : Nat) (f : Qp → Qp) (hK : Changes pt s0 s)
    (h_net : pt .net = true) : Changes pt s0 (modQp s q f) := by
  unfold modQp
  repeat' (with_reducible first | assumption | apply setQp_changes | intro _)

theorem setLr_changes {pt : Part → Bool} {s0 : State} (s : State) (r : Nat) (x : Lr) (hK : Changes pt s0 s)
    (h_net : pt .net = true) : Changes pt s0 (setLr s r x) := by
  unfold setLr
  repeat' (with_reducible first | assumption | refine Changes.put ?_)

theorem transmit_changes {pt : Part → Bool} {s0 : State} (s : State) (p : Nat) (f : TxFrame) (hK : Changes pt s0 s)
    (h_net : pt .net = true) : Changes pt s0 (transmit s p f) := by
  unfold transmit
  repeat' (with_reducible first | assumption | refine Changes.put ?_)

theorem setPause_changes {pt : Part → Bool} {s0 : State} (s : State) (p : Nat) (on : Bool) (hK : Changes pt s0 s)
    (h_net : pt .net = true) : Changes pt s0 (setPause s p on) := by
  unfold setPause
  repeat' (with_reducible first
      | assumption | apply transmit_changes | apply modPort_changes | apply Changes.foldl | apply Changes.foldlFst
      | apply Changes.foldlSnd | intro _ | extract_lets | split | dsimp +zetaDelta only | refine Changes.put ?_)

theorem withdrawAlloc_changes {pt : Part → Bool} {s0 : State} (s : State) (owner : ReqOwner) (hK : Changes pt s0 s)
    (h_drawn : pt .drawn = true) (h_tallies : pt .tallies = true) (h_pools : pt .pools = true) : Changes pt s0
    (withdrawAlloc s owner) := by
  unfold withdrawAlloc
  repeat' (with_reducible first
      | assumption | apply countWithdrawn_changes | apply setPool_changes | apply Changes.foldl | apply Changes.foldlFst
      | apply Changes.foldlSnd | refine Changes.fst ‹_› ?_ | refine Changes.snd ‹_› ?_ | intro _ | extract_lets | split
      | dsimp +zetaDelta only | refine Changes.put ?_)

theorem withdrawOpen_changes {pt : Part → Bool} {s0 : State} (s : State) (p : Nat) (o : OpenReq) (hK : Changes pt s0 s)
    (h_drawn : pt .drawn = true) (h_objects : pt .objects = true) (h_tallies : pt .tallies = true) (h_devMem : pt .devMem = true)
    (h_pairs : pt .pairs = true) (h_slots : pt .slots = true) (h_cmds : pt .cmds = true) (h_txa : pt .txa = true)
    (h_sdx : pt .sdx = true) (h_rsv : pt .rsv = true) (h_mdc : pt .mdc = true) (h_tok : pt .tok = true) (h_bat : pt .bat = true)
    (h_pools : pt .pools = true) (h_net : pt .net = true) (h_fed : pt .fed = true) (h_evt : pt .evt = true)
    (h_trace : pt .trace = true) : Changes pt s0 (withdrawOpen s p o) := by
  unfold withdrawOpen
  repeat' (with_reducible first
      | assumption | apply withdrawAlloc_changes | apply modPort_changes | apply semSignal_changes | apply freeBuffers_changes
      | apply setPair_changes | refine Changes.fst ‹_› ?_ | refine Changes.snd ‹_› ?_ | intro _ | extract_lets | split
      | dsimp +zetaDelta only | refine Changes.put ?_)

theorem quiesceCheck_changes {pt : Part → Bool} {s0 : State} (s : State) (p : Nat) (hK : Changes pt s0 s)
    (h_tallies : pt .tallies = true) (h_net : pt .net = true) (h_evt : pt .evt = true) : Changes pt s0 (quiesceCheck s p) := by
  unfold quiesceCheck
  repeat' (with_reducible first | assumption | apply modPort_changes | apply fire_changes | intro _ | split | refine Changes.put ?_)

theorem clearPort_changes {pt : Part → Bool} {s0 : State} (s : State) (p : Nat) (hK : Changes pt s0 s)
    (h_net : pt .net = true) : Changes pt s0 (clearPort s p) := by
  unfold clearPort
  repeat' (with_reducible first | assumption | apply modPort_changes | intro _ | refine Changes.put ?_)

theorem netPower_changes {pt : Part → Bool} {s0 : State} (s : State) (p : Nat) (on : Bool) (hK : Changes pt s0 s)
    (h_boot : pt .boot = true) : Changes pt s0 (netPower s p on) := by
  unfold netPower
  repeat' (with_reducible first | assumption | split | refine Changes.put ?_)

theorem qpStopped_changes {pt : Part → Bool} {s0 : State} (s : State) (q : Nat) (hK : Changes pt s0 s) (h_drawn : pt .drawn = true)
    (h_objects : pt .objects = true) (h_tallies : pt .tallies = true) (h_devMem : pt .devMem = true) (h_pairs : pt .pairs = true)
    (h_slots : pt .slots = true) (h_cmds : pt .cmds = true) (h_txa : pt .txa = true) (h_sdx : pt .sdx = true) (h_rsv : pt .rsv = true)
    (h_mdc : pt .mdc = true) (h_tok : pt .tok = true) (h_bat : pt .bat = true) (h_pools : pt .pools = true) (h_net : pt .net = true)
    (h_fed : pt .fed = true) (h_dict : pt .dict = true) (h_evt : pt .evt = true) (h_trace : pt .trace = true) : Changes pt s0
    (qpStopped s q) := by
  unfold qpStopped
  repeat' (with_reducible first
      | assumption | apply withdrawOpen_changes | apply setQp_changes | apply localFinish_changes | apply Changes.foldl
      | apply Changes.foldlFst | apply Changes.foldlSnd | refine Changes.fst ‹_› ?_ | refine Changes.snd ‹_› ?_ | intro _
      | extract_lets | split | dsimp +zetaDelta only | refine Changes.put ?_)

theorem lrStopped_changes {pt : Part → Bool} {s0 : State} (s : State) (r : Nat) (hK : Changes pt s0 s) (h_tallies : pt .tallies = true)
    (h_net : pt .net = true) (h_fed : pt .fed = true) (h_dict : pt .dict = true) : Changes pt s0 (lrStopped s r) := by
  unfold lrStopped
  repeat' (with_reducible first
      | assumption | apply setLr_changes | apply localFinish_changes | refine Changes.fst ‹_› ?_ | refine Changes.snd ‹_› ?_ | intro _
      | extract_lets | split | dsimp +zetaDelta only | refine Changes.put ?_)

theorem denyOpens_changes {pt : Part → Bool} {s0 : State} (s : State) (hit : OpenReq → Bool) (hK : Changes pt s0 s)
    (h_net : pt .net = true) : Changes pt s0 (denyOpens s hit) := by
  unfold denyOpens
  repeat' (with_reducible first
      | assumption | apply modPort_changes | apply Changes.foldl | apply Changes.foldlFst | apply Changes.foldlSnd | intro _ | split
      | refine Changes.put ?_)

theorem afterEnd_changes {pt : Part → Bool} {s0 : State} (s : State) (m : Msg) (hK : Changes pt s0 s) (h_drawn : pt .drawn = true)
    (h_objects : pt .objects = true) (h_tallies : pt .tallies = true) (h_devMem : pt .devMem = true) (h_pairs : pt .pairs = true)
    (h_slots : pt .slots = true) (h_cmds : pt .cmds = true) (h_txa : pt .txa = true) (h_sdx : pt .sdx = true) (h_rsv : pt .rsv = true)
    (h_mdc : pt .mdc = true) (h_tok : pt .tok = true) (h_bat : pt .bat = true) (h_pools : pt .pools = true) (h_net : pt .net = true)
    (h_fed : pt .fed = true) (h_dict : pt .dict = true) (h_evt : pt .evt = true) (h_trace : pt .trace = true) : Changes pt s0
    (afterEnd s m) := by
  unfold afterEnd
  repeat' (with_reducible first | assumption | apply lrStopped_changes | apply qpStopped_changes | apply quiesceCheck_changes | intro _)

theorem endRaw_changes {pt : Part → Bool} {s0 : State} (s : State) (m : Msg) (how : MsgEnd) (hK : Changes pt s0 s)
    (h_drawn : pt .drawn = true) (h_objects : pt .objects = true) (h_tallies : pt .tallies = true) (h_devMem : pt .devMem = true)
    (h_pairs : pt .pairs = true) (h_slots : pt .slots = true) (h_cmds : pt .cmds = true) (h_txa : pt .txa = true)
    (h_sdx : pt .sdx = true) (h_rsv : pt .rsv = true) (h_mdc : pt .mdc = true) (h_tok : pt .tok = true) (h_bat : pt .bat = true)
    (h_pools : pt .pools = true) (h_dlv : pt .dlv = true) (h_net : pt .net = true) (h_fed : pt .fed = true) (h_evt : pt .evt = true)
    (h_trace : pt .trace = true) : Changes pt s0 (endRaw s m how) := by
  unfold endRaw
  repeat' (with_reducible first
      | assumption | refine bump_tally _ _ ?_ (by assumption) (by decide) | refine bump_object _ _ ?_ (by assumption) (by decide)
      | refine bump_any _ _ ?_ (by assumption) (by assumption) | refine bumpBy_tally _ _ _ ?_ (by assumption) (by decide)
      | refine bumpBy_object _ _ _ ?_ (by assumption) (by decide) | refine bumpBy_any _ _ _ ?_ (by assumption) (by assumption)
      | refine bump_tally _ _ ?_ (by assumption) (portCounters_tally _ _ (by decide))
      | refine bumpBy_tally _ _ _ ?_ (by assumption) (portCounters_tally _ _ (by decide)) | apply portErr_changes
      | apply releaseMsg_changes | apply dropMsg_changes | apply pushEntry_changes | apply semSignal_changes | apply memWrite_changes
      | refine Changes.tally ?_ _ _ _ (by assumption) (by decide) | refine Changes.object ?_ _ _ _ (by assumption) (by decide)
      | refine Changes.any ?_ _ _ _ (by assumption) (by assumption) | refine Changes.fst ‹_› ?_ | refine Changes.snd ‹_› ?_ | intro _
      | extract_lets | split | dsimp +zetaDelta only | refine Changes.put ?_)

theorem endContainer_changes {pt : Part → Bool} {s0 : State} (s : State) (m : Msg) (how : MsgEnd) (hK : Changes pt s0 s)
    (h_drawn : pt .drawn = true) (h_objects : pt .objects = true) (h_tallies : pt .tallies = true) (h_devMem : pt .devMem = true)
    (h_pairs : pt .pairs = true) (h_slots : pt .slots = true) (h_cmds : pt .cmds = true) (h_txa : pt .txa = true)
    (h_sdx : pt .sdx = true) (h_rsv : pt .rsv = true) (h_mdc : pt .mdc = true) (h_tok : pt .tok = true) (h_bat : pt .bat = true)
    (h_pools : pt .pools = true) (h_dlv : pt .dlv = true) (h_net : pt .net = true) (h_fed : pt .fed = true) (h_evt : pt .evt = true)
    (h_trace : pt .trace = true) : Changes pt s0 (endContainer s m how) := by
  unfold endContainer
  repeat' (with_reducible first
      | assumption | refine bump_tally _ _ ?_ (by assumption) (by decide) | refine bump_object _ _ ?_ (by assumption) (by decide)
      | refine bump_any _ _ ?_ (by assumption) (by assumption) | refine bumpBy_tally _ _ _ ?_ (by assumption) (by decide)
      | refine bumpBy_object _ _ _ ?_ (by assumption) (by decide) | refine bumpBy_any _ _ _ ?_ (by assumption) (by assumption)
      | refine bump_tally _ _ ?_ (by assumption) (portCounters_tally _ _ (by decide))
      | refine bumpBy_tally _ _ _ ?_ (by assumption) (portCounters_tally _ _ (by decide)) | apply ingestProgress_changes
      | apply turnAway_changes | apply settleRefused_changes | apply modMsg_changes | apply releaseMsg_changes
      | refine Changes.tally ?_ _ _ _ (by assumption) (by decide) | refine Changes.object ?_ _ _ _ (by assumption) (by decide)
      | refine Changes.any ?_ _ _ _ (by assumption) (by assumption) | refine Changes.fst ‹_› ?_ | refine Changes.snd ‹_› ?_ | intro _
      | extract_lets | split | dsimp +zetaDelta only | refine Changes.put ?_)

theorem endMessage_changes {pt : Part → Bool} {s0 : State} (s : State) (id : Nat) (how : MsgEnd) (hK : Changes pt s0 s)
    (h_drawn : pt .drawn = true) (h_objects : pt .objects = true) (h_tallies : pt .tallies = true) (h_devMem : pt .devMem = true)
    (h_pairs : pt .pairs = true) (h_slots : pt .slots = true) (h_cmds : pt .cmds = true) (h_txa : pt .txa = true)
    (h_sdx : pt .sdx = true) (h_rsv : pt .rsv = true) (h_mdc : pt .mdc = true) (h_tok : pt .tok = true) (h_bat : pt .bat = true)
    (h_pools : pt .pools = true) (h_dlv : pt .dlv = true) (h_net : pt .net = true) (h_fed : pt .fed = true) (h_dict : pt .dict = true)
    (h_evt : pt .evt = true) (h_trace : pt .trace = true) : Changes pt s0 (endMessage s id how) := by
  unfold endMessage
  repeat' (with_reducible first
      | assumption | apply endContainer_changes | apply endRaw_changes | apply afterEnd_changes | refine Changes.fst ‹_› ?_
      | refine Changes.snd ‹_› ?_ | intro _ | split)

theorem cutMessages_changes {pt : Part → Bool} {s0 : State} (s : State) (ms : List Msg) (hK : Changes pt s0 s)
    (h_drawn : pt .drawn = true) (h_objects : pt .objects = true) (h_tallies : pt .tallies = true) (h_devMem : pt .devMem = true)
    (h_pairs : pt .pairs = true) (h_slots : pt .slots = true) (h_cmds : pt .cmds = true) (h_txa : pt .txa = true)
    (h_sdx : pt .sdx = true) (h_rsv : pt .rsv = true) (h_mdc : pt .mdc = true) (h_tok : pt .tok = true) (h_bat : pt .bat = true)
    (h_pools : pt .pools = true) (h_dlv : pt .dlv = true) (h_net : pt .net = true) (h_fed : pt .fed = true) (h_dict : pt .dict = true)
    (h_evt : pt .evt = true) (h_trace : pt .trace = true) : Changes pt s0 (cutMessages s ms) := by
  unfold cutMessages
  repeat' (with_reducible first
      | assumption | apply endMessage_changes | apply Changes.foldl | apply Changes.foldlFst | apply Changes.foldlSnd | intro _)

theorem qpError_changes {pt : Part → Bool} {s0 : State} (s : State) (q : Nat) (hK : Changes pt s0 s) (h_drawn : pt .drawn = true)
    (h_objects : pt .objects = true) (h_tallies : pt .tallies = true) (h_devMem : pt .devMem = true) (h_pairs : pt .pairs = true)
    (h_slots : pt .slots = true) (h_cmds : pt .cmds = true) (h_txa : pt .txa = true) (h_sdx : pt .sdx = true) (h_rsv : pt .rsv = true)
    (h_mdc : pt .mdc = true) (h_tok : pt .tok = true) (h_bat : pt .bat = true) (h_pools : pt .pools = true) (h_dlv : pt .dlv = true)
    (h_net : pt .net = true) (h_fed : pt .fed = true) (h_dict : pt .dict = true) (h_evt : pt .evt = true)
    (h_trace : pt .trace = true) : Changes pt s0 (qpError s q) := by
  unfold qpError
  repeat' (with_reducible first
      | assumption | apply cutMessages_changes | apply withdrawOpen_changes | apply setQp_changes | apply portErr_changes
      | apply Changes.foldl | apply Changes.foldlFst | apply Changes.foldlSnd | intro _ | extract_lets | split | dsimp +zetaDelta only
      | refine Changes.put ?_)

theorem portQpError_changes {pt : Part → Bool} {s0 : State} (s : State) (p : Nat) (hK : Changes pt s0 s) (h_drawn : pt .drawn = true)
    (h_objects : pt .objects = true) (h_tallies : pt .tallies = true) (h_devMem : pt .devMem = true) (h_pairs : pt .pairs = true)
    (h_slots : pt .slots = true) (h_cmds : pt .cmds = true) (h_txa : pt .txa = true) (h_sdx : pt .sdx = true) (h_rsv : pt .rsv = true)
    (h_mdc : pt .mdc = true) (h_tok : pt .tok = true) (h_bat : pt .bat = true) (h_pools : pt .pools = true) (h_dlv : pt .dlv = true)
    (h_net : pt .net = true) (h_fed : pt .fed = true) (h_dict : pt .dict = true) (h_evt : pt .evt = true)
    (h_trace : pt .trace = true) : Changes pt s0 (portQpError s p) := by
  unfold portQpError
  repeat' (with_reducible first
      | assumption | apply qpError_changes | apply Changes.foldl | apply Changes.foldlFst | apply Changes.foldlSnd | intro _)

theorem engineReady_changes {pt : Part → Bool} {s0 : State} (s : State) (hK : Changes pt s0 s) (h_fed : pt .fed = true) : Changes pt s0
    (engineReady s) := by
  unfold engineReady
  repeat' (with_reducible first | assumption | split | refine Changes.put ?_)

theorem startTraining_changes {pt : Part → Bool} {s0 : State} (s : State) (p : Nat) (hK : Changes pt s0 s)
    (h_net : pt .net = true) : Changes pt s0 (startTraining s p) := by
  unfold startTraining
  repeat' (with_reducible first
      | assumption | apply transmit_changes | apply modPort_changes | intro _ | extract_lets | split | dsimp +zetaDelta only
      | refine Changes.put ?_)

theorem portDown_changes {pt : Part → Bool} {s0 : State} (s : State) (p : Nat) (hK : Changes pt s0 s) (h_drawn : pt .drawn = true)
    (h_objects : pt .objects = true) (h_tallies : pt .tallies = true) (h_devMem : pt .devMem = true) (h_pairs : pt .pairs = true)
    (h_slots : pt .slots = true) (h_cmds : pt .cmds = true) (h_txa : pt .txa = true) (h_sdx : pt .sdx = true) (h_rsv : pt .rsv = true)
    (h_mdc : pt .mdc = true) (h_tok : pt .tok = true) (h_bat : pt .bat = true) (h_pools : pt .pools = true) (h_dlv : pt .dlv = true)
    (h_net : pt .net = true) (h_fed : pt .fed = true) (h_dict : pt .dict = true) (h_evt : pt .evt = true)
    (h_trace : pt .trace = true) : Changes pt s0 (portDown s p) := by
  unfold portDown
  repeat' (with_reducible first
      | assumption | apply portQpError_changes | apply cutMessages_changes | apply clearPort_changes | apply withdrawOpen_changes
      | apply Changes.foldl | apply Changes.foldlFst | apply Changes.foldlSnd | intro _ | extract_lets | dsimp +zetaDelta only)

theorem finishGoing_changes {pt : Part → Bool} {s0 : State} (s : State) (p : Nat) (hK : Changes pt s0 s) (h_drawn : pt .drawn = true)
    (h_boot : pt .boot = true) (h_objects : pt .objects = true) (h_tallies : pt .tallies = true) (h_devMem : pt .devMem = true)
    (h_pairs : pt .pairs = true) (h_slots : pt .slots = true) (h_cmds : pt .cmds = true) (h_txa : pt .txa = true)
    (h_sdx : pt .sdx = true) (h_rsv : pt .rsv = true) (h_mdc : pt .mdc = true) (h_tok : pt .tok = true) (h_bat : pt .bat = true)
    (h_pools : pt .pools = true) (h_dlv : pt .dlv = true) (h_net : pt .net = true) (h_fed : pt .fed = true) (h_dict : pt .dict = true)
    (h_evt : pt .evt = true) (h_trace : pt .trace = true) : Changes pt s0 (finishGoing s p) := by
  unfold finishGoing
  repeat' (with_reducible first
      | assumption | apply portDown_changes | apply engineReady_changes | apply netPower_changes | apply modPort_changes
      | apply localFinish_changes | apply fire_changes | intro _ | extract_lets | split | dsimp +zetaDelta only
      | refine Changes.put ?_)

theorem goingCheck_changes {pt : Part → Bool} {s0 : State} (s : State) (p : Nat) (hK : Changes pt s0 s) (h_drawn : pt .drawn = true)
    (h_boot : pt .boot = true) (h_objects : pt .objects = true) (h_tallies : pt .tallies = true) (h_devMem : pt .devMem = true)
    (h_pairs : pt .pairs = true) (h_slots : pt .slots = true) (h_cmds : pt .cmds = true) (h_txa : pt .txa = true)
    (h_sdx : pt .sdx = true) (h_rsv : pt .rsv = true) (h_mdc : pt .mdc = true) (h_tok : pt .tok = true) (h_bat : pt .bat = true)
    (h_pools : pt .pools = true) (h_dlv : pt .dlv = true) (h_net : pt .net = true) (h_fed : pt .fed = true) (h_dict : pt .dict = true)
    (h_evt : pt .evt = true) (h_trace : pt .trace = true) : Changes pt s0 (goingCheck s p) := by
  unfold goingCheck
  repeat' (with_reducible first | assumption | apply finishGoing_changes | intro _ | split)

theorem linkLost_changes {pt : Part → Bool} {s0 : State} (s : State) (p : Nat) (hK : Changes pt s0 s) (h_drawn : pt .drawn = true)
    (h_boot : pt .boot = true) (h_objects : pt .objects = true) (h_tallies : pt .tallies = true) (h_devMem : pt .devMem = true)
    (h_pairs : pt .pairs = true) (h_slots : pt .slots = true) (h_cmds : pt .cmds = true) (h_txa : pt .txa = true)
    (h_sdx : pt .sdx = true) (h_rsv : pt .rsv = true) (h_mdc : pt .mdc = true) (h_tok : pt .tok = true) (h_bat : pt .bat = true)
    (h_pools : pt .pools = true) (h_dlv : pt .dlv = true) (h_net : pt .net = true) (h_fed : pt .fed = true) (h_dict : pt .dict = true)
    (h_evt : pt .evt = true) (h_trace : pt .trace = true) : Changes pt s0 (linkLost s p) := by
  unfold linkLost
  repeat' (with_reducible first
      | assumption | apply finishGoing_changes | apply portDown_changes | apply modPort_changes | apply portErr_changes | intro _
      | split | refine Changes.put ?_)

theorem sendDrop_changes {pt : Part → Bool} {s0 : State} (s : State) (p l : Nat) (hK : Changes pt s0 s)
    (h_net : pt .net = true) : Changes pt s0 (sendDrop s p l) := by
  unfold sendDrop
  repeat' (with_reducible first | assumption | apply transmit_changes | intro _)

theorem dropLanes_changes {pt : Part → Bool} {s0 : State} (s : State) (p : Nat) (ls : List Nat) (hK : Changes pt s0 s)
    (h_net : pt .net = true) : Changes pt s0 (dropLanes s p ls) := by
  unfold dropLanes
  repeat' (with_reducible first
      | assumption | apply sendDrop_changes | apply modPort_changes | apply Changes.foldl | apply Changes.foldlFst
      | apply Changes.foldlSnd | intro _ | extract_lets | dsimp +zetaDelta only | refine Changes.put ?_)

theorem sendTraining_changes {pt : Part → Bool} {s0 : State} (s : State) (p l : Nat) (y : LaneTrain) (f : Nat) (hK : Changes pt s0 s)
    (h_net : pt .net = true) : Changes pt s0 (sendTraining s p l y f) := by
  unfold sendTraining
  repeat' (with_reducible first | assumption | apply transmit_changes | apply modPort_changes | intro _ | refine Changes.put ?_)

theorem trainLanes_changes {pt : Part → Bool} {s0 : State} (s : State) (p : Nat) (ls : List Nat) (hK : Changes pt s0 s)
    (h_net : pt .net = true) : Changes pt s0 (trainLanes s p ls) := by
  unfold trainLanes
  repeat' (with_reducible first
      | assumption | apply sendTraining_changes | apply modPort_changes | apply Changes.foldl | apply Changes.foldlFst
      | apply Changes.foldlSnd | intro _ | refine Changes.put ?_)

theorem retireLane_changes {pt : Part → Bool} {s0 : State} (s : State) (p l : Nat) (hK : Changes pt s0 s)
    (h_objects : pt .objects = true) (h_tallies : pt .tallies = true) (h_net : pt .net = true) (h_evt : pt .evt = true)
    (h_trace : pt .trace = true) : Changes pt s0 (retireLane s p l) := by
  unfold retireLane
  repeat' (with_reducible first
      | assumption | apply dropLanes_changes | apply modPort_changes | apply portErr_changes
      | refine Changes.tally ?_ _ _ _ (by assumption) (by decide) | refine Changes.object ?_ _ _ _ (by assumption) (by decide)
      | refine Changes.any ?_ _ _ _ (by assumption) (by assumption) | intro _ | extract_lets | dsimp +zetaDelta only
      | refine Changes.put ?_)

/-! ## Net -/

theorem settlePorts_changes {pt : Part → Bool} {s0 : State} (s : State) (hK : Changes pt s0 s) (h_drawn : pt .drawn = true)
    (h_boot : pt .boot = true) (h_objects : pt .objects = true) (h_tallies : pt .tallies = true) (h_devMem : pt .devMem = true)
    (h_pairs : pt .pairs = true) (h_slots : pt .slots = true) (h_cmds : pt .cmds = true) (h_txa : pt .txa = true)
    (h_sdx : pt .sdx = true) (h_rsv : pt .rsv = true) (h_mdc : pt .mdc = true) (h_tok : pt .tok = true) (h_bat : pt .bat = true)
    (h_pools : pt .pools = true) (h_dlv : pt .dlv = true) (h_net : pt .net = true) (h_fed : pt .fed = true) (h_dict : pt .dict = true)
    (h_evt : pt .evt = true) (h_trace : pt .trace = true) : Changes pt s0 (settlePorts s) := by
  unfold settlePorts
  repeat' (with_reducible first | assumption | apply goingCheck_changes | intro _)

theorem disablePort_changes {pt : Part → Bool} {s0 : State} (s : State) (via : Via) (p : Nat) (index sub : Nat) (data : List Byte)
    (hK : Changes pt s0 s) (h_drawn : pt .drawn = true) (h_boot : pt .boot = true) (h_objects : pt .objects = true)
    (h_tallies : pt .tallies = true) (h_devMem : pt .devMem = true) (h_pairs : pt .pairs = true) (h_slots : pt .slots = true)
    (h_cmds : pt .cmds = true) (h_txa : pt .txa = true) (h_sdx : pt .sdx = true) (h_rsv : pt .rsv = true) (h_mdc : pt .mdc = true)
    (h_tok : pt .tok = true) (h_bat : pt .bat = true) (h_pools : pt .pools = true) (h_dlv : pt .dlv = true) (h_net : pt .net = true)
    (h_fed : pt .fed = true) (h_dict : pt .dict = true) (h_evt : pt .evt = true) (h_trace : pt .trace = true) : Changes pt s0
    (disablePort s via p index sub data) := by
  unfold disablePort
  repeat' (with_reducible first
      | assumption | apply goingCheck_changes | apply engineReady_changes | apply netPower_changes | apply clearPort_changes
      | apply modPort_changes | apply startLong_changes | apply dictDone_changes
      | refine Changes.tally ?_ _ _ _ (by assumption) (by decide) | refine Changes.object ?_ _ _ _ (by assumption) (by decide)
      | refine Changes.any ?_ _ _ _ (by assumption) (by assumption) | intro _ | extract_lets | split | dsimp +zetaDelta only
      | refine Changes.put ?_)

theorem enablePort_changes {pt : Part → Bool} {s0 : State} (s : State) (p : Nat) (hK : Changes pt s0 s) (h_boot : pt .boot = true)
    (h_objects : pt .objects = true) (h_tallies : pt .tallies = true) (h_net : pt .net = true) : Changes pt s0 (enablePort s p) := by
  unfold enablePort
  repeat' (with_reducible first
      | assumption | apply startTraining_changes | apply netPower_changes | apply modPort_changes
      | refine Changes.tally ?_ _ _ _ (by assumption) (by decide) | refine Changes.object ?_ _ _ _ (by assumption) (by decide)
      | refine Changes.any ?_ _ _ _ (by assumption) (by assumption) | intro _ | extract_lets | dsimp +zetaDelta only
      | refine Changes.put ?_)

theorem portEnableEffect_changes {pt : Part → Bool} {s0 : State} (x0 : Via) (x1 : Nat) (x2 : Nat) (x3 : List Byte) (s : State)
    (hK : Changes pt s0 s) (h_drawn : pt .drawn = true) (h_boot : pt .boot = true) (h_objects : pt .objects = true)
    (h_tallies : pt .tallies = true) (h_devMem : pt .devMem = true) (h_pairs : pt .pairs = true) (h_slots : pt .slots = true)
    (h_cmds : pt .cmds = true) (h_txa : pt .txa = true) (h_sdx : pt .sdx = true) (h_rsv : pt .rsv = true) (h_mdc : pt .mdc = true)
    (h_tok : pt .tok = true) (h_bat : pt .bat = true) (h_pools : pt .pools = true) (h_dlv : pt .dlv = true) (h_net : pt .net = true)
    (h_fed : pt .fed = true) (h_dict : pt .dict = true) (h_evt : pt .evt = true) (h_trace : pt .trace = true) : Changes pt s0
    (portEnableEffect x0 x1 x2 x3 s) := by
  unfold portEnableEffect
  repeat' (with_reducible first
      | assumption | apply enablePort_changes | apply disablePort_changes | apply dictDone_changes | intro _ | extract_lets | split
      | dsimp +zetaDelta only)

theorem execPortEnableWrite_changes {pt : Part → Bool} {s0 : State} (via : Via) (port value : Nat) (s : State) (hK : Changes pt s0 s)
    (h_drawn : pt .drawn = true) (h_boot : pt .boot = true) (h_objects : pt .objects = true) (h_tallies : pt .tallies = true)
    (h_devMem : pt .devMem = true) (h_pairs : pt .pairs = true) (h_slots : pt .slots = true) (h_cmds : pt .cmds = true)
    (h_txa : pt .txa = true) (h_sdx : pt .sdx = true) (h_rsv : pt .rsv = true) (h_mdc : pt .mdc = true) (h_tok : pt .tok = true)
    (h_bat : pt .bat = true) (h_pools : pt .pools = true) (h_dlv : pt .dlv = true) (h_net : pt .net = true) (h_fed : pt .fed = true)
    (h_dict : pt .dict = true) (h_evt : pt .evt = true)
    (h_trace : pt .trace = true) : ∃ t, execPortEnableWrite via port value s = .next t ∧ Changes pt s0 t := by
  refine ⟨_, rfl, ?_⟩
  repeat' (with_reducible first | assumption | apply portEnableEffect_changes | apply requestWrite_changes | intro _)

theorem execPortDisableDeadline_changes {pt : Part → Bool} {s0 : State} (port : Nat) (s : State) (hK : Changes pt s0 s)
    (h_drawn : pt .drawn = true) (h_boot : pt .boot = true) (h_objects : pt .objects = true) (h_tallies : pt .tallies = true)
    (h_devMem : pt .devMem = true) (h_pairs : pt .pairs = true) (h_slots : pt .slots = true) (h_cmds : pt .cmds = true)
    (h_txa : pt .txa = true) (h_sdx : pt .sdx = true) (h_rsv : pt .rsv = true) (h_mdc : pt .mdc = true) (h_tok : pt .tok = true)
    (h_bat : pt .bat = true) (h_pools : pt .pools = true) (h_dlv : pt .dlv = true) (h_net : pt .net = true) (h_fed : pt .fed = true)
    (h_dict : pt .dict = true) (h_evt : pt .evt = true)
    (h_trace : pt .trace = true) : ∃ t, execPortDisableDeadline port s = .next t ∧ Changes pt s0 t := by
  refine ⟨_, rfl, ?_⟩
  repeat' (with_reducible first | assumption | apply finishGoing_changes | intro _)

theorem laneEnableEffect_changes {pt : Part → Bool} {s0 : State} (x0 : Via) (x1 : Nat) (x2 : Nat) (x3 : List Byte) (s : State)
    (hK : Changes pt s0 s) (h_drawn : pt .drawn = true) (h_boot : pt .boot = true) (h_objects : pt .objects = true)
    (h_tallies : pt .tallies = true) (h_devMem : pt .devMem = true) (h_pairs : pt .pairs = true) (h_slots : pt .slots = true)
    (h_cmds : pt .cmds = true) (h_txa : pt .txa = true) (h_sdx : pt .sdx = true) (h_rsv : pt .rsv = true) (h_mdc : pt .mdc = true)
    (h_tok : pt .tok = true) (h_bat : pt .bat = true) (h_pools : pt .pools = true) (h_dlv : pt .dlv = true) (h_net : pt .net = true)
    (h_fed : pt .fed = true) (h_dict : pt .dict = true) (h_evt : pt .evt = true) (h_trace : pt .trace = true) : Changes pt s0
    (laneEnableEffect x0 x1 x2 x3 s) := by
  unfold laneEnableEffect
  repeat' (with_reducible first
      | assumption | apply disablePort_changes | apply trainLanes_changes | apply dropLanes_changes | apply dictDone_changes
      | refine Changes.tally ?_ _ _ _ (by assumption) (by decide) | refine Changes.object ?_ _ _ _ (by assumption) (by decide)
      | refine Changes.any ?_ _ _ _ (by assumption) (by assumption) | intro _ | extract_lets | split | dsimp +zetaDelta only)

theorem execLaneEnableWrite_changes {pt : Part → Bool} {s0 : State} (via : Via) (port value : Nat) (s : State) (hK : Changes pt s0 s)
    (h_drawn : pt .drawn = true) (h_boot : pt .boot = true) (h_objects : pt .objects = true) (h_tallies : pt .tallies = true)
    (h_devMem : pt .devMem = true) (h_pairs : pt .pairs = true) (h_slots : pt .slots = true) (h_cmds : pt .cmds = true)
    (h_txa : pt .txa = true) (h_sdx : pt .sdx = true) (h_rsv : pt .rsv = true) (h_mdc : pt .mdc = true) (h_tok : pt .tok = true)
    (h_bat : pt .bat = true) (h_pools : pt .pools = true) (h_dlv : pt .dlv = true) (h_net : pt .net = true) (h_fed : pt .fed = true)
    (h_dict : pt .dict = true) (h_evt : pt .evt = true)
    (h_trace : pt .trace = true) : ∃ t, execLaneEnableWrite via port value s = .next t ∧ Changes pt s0 t := by
  refine ⟨_, rfl, ?_⟩
  repeat' (with_reducible first | assumption | apply laneEnableEffect_changes | apply requestWrite_changes | intro _)

theorem quiesceEffect_changes {pt : Part → Bool} {s0 : State} (x0 : Via) (x1 : Nat) (x2 : Nat) (x3 : List Byte) (s : State)
    (hK : Changes pt s0 s) (h_objects : pt .objects = true) (h_tallies : pt .tallies = true) (h_net : pt .net = true)
    (h_dict : pt .dict = true) (h_evt : pt .evt = true) : Changes pt s0 (quiesceEffect x0 x1 x2 x3 s) := by
  unfold quiesceEffect
  repeat' (with_reducible first
      | assumption | apply quiesceCheck_changes | apply modPort_changes | apply dictDone_changes
      | refine Changes.tally ?_ _ _ _ (by assumption) (by decide) | refine Changes.object ?_ _ _ _ (by assumption) (by decide)
      | refine Changes.any ?_ _ _ _ (by assumption) (by assumption) | intro _ | extract_lets | split | dsimp +zetaDelta only
      | refine Changes.put ?_)

theorem execQuiesceWrite_changes {pt : Part → Bool} {s0 : State} (via : Via) (port value : Nat) (s : State) (hK : Changes pt s0 s)
    (h_objects : pt .objects = true) (h_tallies : pt .tallies = true) (h_net : pt .net = true) (h_fed : pt .fed = true)
    (h_dict : pt .dict = true) (h_evt : pt .evt = true)
    (h_trace : pt .trace = true) : ∃ t, execQuiesceWrite via port value s = .next t ∧ Changes pt s0 t := by
  refine ⟨_, rfl, ?_⟩
  repeat' (with_reducible first | assumption | apply quiesceEffect_changes | apply requestWrite_changes | intro _)

theorem execAutonegComplete_changes {pt : Part → Bool} {s0 : State} (port partner : Nat) (s : State) (hK : Changes pt s0 s)
    (h_net : pt .net = true) : ∃ t, execAutonegComplete port partner s = .next t ∧ Changes pt s0 t := by
  refine ⟨_, rfl, ?_⟩
  repeat' (with_reducible first
      | assumption | apply trainLanes_changes | apply modPort_changes | intro _ | extract_lets | split | dsimp +zetaDelta only
      | refine Changes.put ?_)

theorem tapAnswer_changes {pt : Part → Bool} {s0 : State} (s : State) (request : Nat) (hK : Changes pt s0 s)
    (h_drawn : pt .drawn = true) : Changes pt s0 (tapAnswer s request).2 := by
  unfold tapAnswer
  repeat' (with_reducible first
      | assumption | apply drawFree_changes | refine Changes.fst ‹_› ?_ | refine Changes.snd ‹_› ?_ | intro _ | extract_lets | split
      | dsimp +zetaDelta only)

theorem takeDrop_changes {pt : Part → Bool} {s0 : State} (s : State) (p l : Nat) (hK : Changes pt s0 s) (h_drawn : pt .drawn = true)
    (h_boot : pt .boot = true) (h_objects : pt .objects = true) (h_tallies : pt .tallies = true) (h_devMem : pt .devMem = true)
    (h_pairs : pt .pairs = true) (h_slots : pt .slots = true) (h_cmds : pt .cmds = true) (h_txa : pt .txa = true)
    (h_sdx : pt .sdx = true) (h_rsv : pt .rsv = true) (h_mdc : pt .mdc = true) (h_tok : pt .tok = true) (h_bat : pt .bat = true)
    (h_pools : pt .pools = true) (h_dlv : pt .dlv = true) (h_net : pt .net = true) (h_fed : pt .fed = true) (h_dict : pt .dict = true)
    (h_evt : pt .evt = true) (h_trace : pt .trace = true) : Changes pt s0 (takeDrop s p l) := by
  unfold takeDrop
  repeat' (with_reducible first
      | assumption | apply dropLanes_changes | apply linkLost_changes | apply modPort_changes | intro _ | extract_lets | split
      | dsimp +zetaDelta only | refine Changes.put ?_)

theorem execTrainingFrameReceived_changes {pt : Part → Bool} {s0 : State} (port lane frame request : Nat) (ready : Bool) (s : State)
    (hK : Changes pt s0 s) (h_drawn : pt .drawn = true) (h_boot : pt .boot = true) (h_objects : pt .objects = true)
    (h_tallies : pt .tallies = true) (h_devMem : pt .devMem = true) (h_pairs : pt .pairs = true) (h_slots : pt .slots = true)
    (h_cmds : pt .cmds = true) (h_txa : pt .txa = true) (h_sdx : pt .sdx = true) (h_rsv : pt .rsv = true) (h_mdc : pt .mdc = true)
    (h_tok : pt .tok = true) (h_bat : pt .bat = true) (h_pools : pt .pools = true) (h_dlv : pt .dlv = true) (h_net : pt .net = true)
    (h_fed : pt .fed = true) (h_dict : pt .dict = true) (h_evt : pt .evt = true)
    (h_trace : pt .trace = true) : ∃ t, execTrainingFrameReceived port lane frame request ready s = .next t ∧ Changes pt s0 t := by
  refine ⟨_, rfl, ?_⟩
  repeat' (with_reducible first
      | assumption | apply takeDrop_changes | apply tapAnswer_changes | apply sendTraining_changes | apply sendDrop_changes
      | apply Changes.foldl | apply Changes.foldlFst | apply Changes.foldlSnd | refine Changes.fst ‹_› ?_ | refine Changes.snd ‹_› ?_
      | intro _ | extract_lets | split | dsimp +zetaDelta only | refine Changes.put ?_)

theorem execLaneTrained_changes {pt : Part → Bool} {s0 : State} (port lane : Nat) (s : State) (hK : Changes pt s0 s)
    (h_net : pt .net = true) : ∃ t, execLaneTrained port lane s = .next t ∧ Changes pt s0 t := by
  refine ⟨_, rfl, ?_⟩
  repeat' (with_reducible first
      | assumption | apply modPort_changes | intro _ | extract_lets | split | dsimp +zetaDelta only | refine Changes.put ?_)

theorem trainFailed_changes {pt : Part → Bool} {s0 : State} (s : State) (p : Nat) (hK : Changes pt s0 s)
    (h_objects : pt .objects = true) (h_tallies : pt .tallies = true) (h_net : pt .net = true) (h_fed : pt .fed = true)
    (h_evt : pt .evt = true) (h_trace : pt .trace = true) : Changes pt s0 (trainFailed s p) := by
  unfold trainFailed
  repeat' (with_reducible first
      | assumption | apply engineReady_changes | apply clearPort_changes | apply modPort_changes | apply portErr_changes | intro _
      | refine Changes.put ?_)

theorem execTrainingDeadline_changes {pt : Part → Bool} {s0 : State} (port : Nat) (s : State) (hK : Changes pt s0 s)
    (h_objects : pt .objects = true) (h_tallies : pt .tallies = true) (h_net : pt .net = true) (h_fed : pt .fed = true)
    (h_evt : pt .evt = true) (h_trace : pt .trace = true) : ∃ t, execTrainingDeadline port s = .next t ∧ Changes pt s0 t := by
  refine ⟨_, rfl, ?_⟩
  repeat' (with_reducible first
      | assumption | apply trainFailed_changes | apply modPort_changes | intro _ | extract_lets | split | dsimp +zetaDelta only
      | refine Changes.put ?_)

theorem execPortLinkUp_changes {pt : Part → Bool} {s0 : State} (port aclk : Nat) (s : State) (hK : Changes pt s0 s)
    (h_objects : pt .objects = true) (h_tallies : pt .tallies = true) (h_net : pt .net = true) (h_fed : pt .fed = true)
    (h_evt : pt .evt = true) : ∃ t, execPortLinkUp port aclk s = .next t ∧ Changes pt s0 t := by
  refine ⟨_, rfl, ?_⟩
  repeat' (with_reducible first
      | assumption | apply engineReady_changes | apply modPort_changes | apply fire_changes
      | refine Changes.tally ?_ _ _ _ (by assumption) (by decide) | refine Changes.object ?_ _ _ _ (by assumption) (by decide)
      | refine Changes.any ?_ _ _ _ (by assumption) (by assumption) | intro _ | extract_lets | split | dsimp +zetaDelta only
      | refine Changes.put ?_)

theorem execTrainingRetry_changes {pt : Part → Bool} {s0 : State} (port : Nat) (s : State) (hK : Changes pt s0 s)
    (h_net : pt .net = true) : ∃ t, execTrainingRetry port s = .next t ∧ Changes pt s0 t := by
  refine ⟨_, rfl, ?_⟩
  repeat' (with_reducible first | assumption | apply startTraining_changes | intro _ | split)

theorem execLinkLossRetrain_changes {pt : Part → Bool} {s0 : State} (port : Nat) (s : State) (hK : Changes pt s0 s)
    (h_net : pt .net = true) : ∃ t, execLinkLossRetrain port s = .next t ∧ Changes pt s0 t := by
  refine ⟨_, rfl, ?_⟩
  repeat' (with_reducible first | assumption | apply startTraining_changes | intro _ | split)

theorem laneFails_changes {pt : Part → Bool} {s0 : State} (s : State) (p l : Nat) (hK : Changes pt s0 s)
    (h_objects : pt .objects = true) (h_tallies : pt .tallies = true) (h_net : pt .net = true) (h_evt : pt .evt = true)
    (h_trace : pt .trace = true) : Changes pt s0 (laneFails s p l) := by
  unfold laneFails
  repeat' (with_reducible first | assumption | apply retireLane_changes | intro _ | extract_lets | split | dsimp +zetaDelta only)

theorem execLaneLockLoss_changes {pt : Part → Bool} {s0 : State} (port lane : Nat) (s : State) (hK : Changes pt s0 s)
    (h_objects : pt .objects = true) (h_tallies : pt .tallies = true) (h_net : pt .net = true) (h_evt : pt .evt = true)
    (h_trace : pt .trace = true) : ∃ t, execLaneLockLoss port lane s = .next t ∧ Changes pt s0 t := by
  refine ⟨_, rfl, ?_⟩
  repeat' (with_reducible first | assumption | apply laneFails_changes | intro _)

theorem execLaneFecLimit_changes {pt : Part → Bool} {s0 : State} (port lane codewords : Nat) (s : State) (hK : Changes pt s0 s)
    (h_drawn : pt .drawn = true) (h_boot : pt .boot = true) (h_objects : pt .objects = true) (h_tallies : pt .tallies = true)
    (h_devMem : pt .devMem = true) (h_pairs : pt .pairs = true) (h_slots : pt .slots = true) (h_cmds : pt .cmds = true)
    (h_txa : pt .txa = true) (h_sdx : pt .sdx = true) (h_rsv : pt .rsv = true) (h_mdc : pt .mdc = true) (h_tok : pt .tok = true)
    (h_bat : pt .bat = true) (h_pools : pt .pools = true) (h_dlv : pt .dlv = true) (h_net : pt .net = true) (h_fed : pt .fed = true)
    (h_dict : pt .dict = true) (h_evt : pt .evt = true)
    (h_trace : pt .trace = true) : ∃ t, execLaneFecLimit port lane codewords s = .next t ∧ Changes pt s0 t := by
  refine ⟨_, rfl, ?_⟩
  repeat' (with_reducible first
      | assumption | refine bump_tally _ _ ?_ (by assumption) (by decide) | refine bump_object _ _ ?_ (by assumption) (by decide)
      | refine bump_any _ _ ?_ (by assumption) (by assumption) | refine bumpBy_tally _ _ _ ?_ (by assumption) (by decide)
      | refine bumpBy_object _ _ _ ?_ (by assumption) (by decide) | refine bumpBy_any _ _ _ ?_ (by assumption) (by assumption)
      | refine bump_tally _ _ ?_ (by assumption) (portCounters_tally _ _ (by decide))
      | refine bumpBy_tally _ _ _ ?_ (by assumption) (portCounters_tally _ _ (by decide)) | apply laneFails_changes
      | apply retireLane_changes | apply linkLost_changes | refine Changes.tally ?_ _ _ _ (by assumption) (by decide)
      | refine Changes.object ?_ _ _ _ (by assumption) (by decide) | refine Changes.any ?_ _ _ _ (by assumption) (by assumption)
      | intro _ | extract_lets | split | dsimp +zetaDelta only)

theorem execRealignComplete_changes {pt : Part → Bool} {s0 : State} (port : Nat) (s : State) (hK : Changes pt s0 s)
    (h_net : pt .net = true) : ∃ t, execRealignComplete port s = .next t ∧ Changes pt s0 t := by
  refine ⟨_, rfl, ?_⟩
  repeat' (with_reducible first | assumption | apply modPort_changes | intro _ | split | refine Changes.put ?_)

theorem execLinkLoss_changes {pt : Part → Bool} {s0 : State} (port : Nat) (s : State) (hK : Changes pt s0 s)
    (h_drawn : pt .drawn = true) (h_boot : pt .boot = true) (h_objects : pt .objects = true) (h_tallies : pt .tallies = true)
    (h_devMem : pt .devMem = true) (h_pairs : pt .pairs = true) (h_slots : pt .slots = true) (h_cmds : pt .cmds = true)
    (h_txa : pt .txa = true) (h_sdx : pt .sdx = true) (h_rsv : pt .rsv = true) (h_mdc : pt .mdc = true) (h_tok : pt .tok = true)
    (h_bat : pt .bat = true) (h_pools : pt .pools = true) (h_dlv : pt .dlv = true) (h_net : pt .net = true) (h_fed : pt .fed = true)
    (h_dict : pt .dict = true) (h_evt : pt .evt = true)
    (h_trace : pt .trace = true) : ∃ t, execLinkLoss port s = .next t ∧ Changes pt s0 t := by
  refine ⟨_, rfl, ?_⟩
  repeat' (with_reducible first | assumption | apply settlePorts_changes | apply linkLost_changes | intro _)

theorem netConfig_changes {pt : Part → Bool} {s0 : State} (s : State) (via : Via) (p check : Nat) (hK : Changes pt s0 s)
    (h_objects : pt .objects = true) (h_tallies : pt .tallies = true) (h_dict : pt .dict = true) (h_evt : pt .evt = true)
    (h_trace : pt .trace = true) : Changes pt s0 (netConfig s via p check) := by
  unfold netConfig
  repeat' (with_reducible first
      | assumption | apply portErr_changes | apply dictAbort_changes | refine Changes.tally ?_ _ _ _ (by assumption) (by decide)
      | refine Changes.object ?_ _ _ _ (by assumption) (by decide) | refine Changes.any ?_ _ _ _ (by assumption) (by assumption)
      | intro _)

theorem qpEnableEffect_changes {pt : Part → Bool} {s0 : State} (x0 : Via) (x1 : Nat) (x2 : Nat) (x3 : List Byte) (s : State)
    (hK : Changes pt s0 s) (h_objects : pt .objects = true) (h_tallies : pt .tallies = true) (h_net : pt .net = true)
    (h_dict : pt .dict = true) (h_evt : pt .evt = true) (h_trace : pt .trace = true) : Changes pt s0
    (qpEnableEffect x0 x1 x2 x3 s) := by
  unfold qpEnableEffect
  repeat' (with_reducible first
      | assumption | apply netConfig_changes | apply setQp_changes | apply dictDone_changes | apply readChecked_changes | intro _
      | extract_lets | split | dsimp +zetaDelta only)

theorem execQpEnable_changes {pt : Part → Bool} {s0 : State} (via : Via) (qp : Nat) (s : State) (hK : Changes pt s0 s)
    (h_objects : pt .objects = true) (h_tallies : pt .tallies = true) (h_net : pt .net = true) (h_fed : pt .fed = true)
    (h_dict : pt .dict = true) (h_evt : pt .evt = true)
    (h_trace : pt .trace = true) : ∃ t, execQpEnable via qp s = .next t ∧ Changes pt s0 t := by
  refine ⟨_, rfl, ?_⟩
  repeat' (with_reducible first | assumption | apply qpEnableEffect_changes | apply requestWrite_changes | intro _)

theorem qpDisableEffect_changes {pt : Part → Bool} {s0 : State} (x0 : Via) (x1 : Nat) (x2 : Nat) (x3 : List Byte) (s : State)
    (hK : Changes pt s0 s) (h_drawn : pt .drawn = true) (h_objects : pt .objects = true) (h_tallies : pt .tallies = true)
    (h_devMem : pt .devMem = true) (h_pairs : pt .pairs = true) (h_slots : pt .slots = true) (h_cmds : pt .cmds = true)
    (h_txa : pt .txa = true) (h_sdx : pt .sdx = true) (h_rsv : pt .rsv = true) (h_mdc : pt .mdc = true) (h_tok : pt .tok = true)
    (h_bat : pt .bat = true) (h_pools : pt .pools = true) (h_net : pt .net = true) (h_fed : pt .fed = true) (h_dict : pt .dict = true)
    (h_evt : pt .evt = true) (h_trace : pt .trace = true) : Changes pt s0 (qpDisableEffect x0 x1 x2 x3 s) := by
  unfold qpDisableEffect
  repeat' (with_reducible first
      | assumption | apply denyOpens_changes | apply qpStopped_changes | apply modQp_changes | apply startLong_changes
      | apply dictDone_changes | intro _ | extract_lets | split | dsimp +zetaDelta only | refine Changes.put ?_)

theorem execQpDisable_changes {pt : Part → Bool} {s0 : State} (via : Via) (qp : Nat) (s : State) (hK : Changes pt s0 s)
    (h_drawn : pt .drawn = true) (h_objects : pt .objects = true) (h_tallies : pt .tallies = true) (h_devMem : pt .devMem = true)
    (h_pairs : pt .pairs = true) (h_slots : pt .slots = true) (h_cmds : pt .cmds = true) (h_txa : pt .txa = true)
    (h_sdx : pt .sdx = true) (h_rsv : pt .rsv = true) (h_mdc : pt .mdc = true) (h_tok : pt .tok = true) (h_bat : pt .bat = true)
    (h_pools : pt .pools = true) (h_net : pt .net = true) (h_fed : pt .fed = true) (h_dict : pt .dict = true) (h_evt : pt .evt = true)
    (h_trace : pt .trace = true) : ∃ t, execQpDisable via qp s = .next t ∧ Changes pt s0 t := by
  refine ⟨_, rfl, ?_⟩
  repeat' (with_reducible first | assumption | apply qpDisableEffect_changes | apply requestWrite_changes | intro _)

theorem execQpDisableDeadline_changes {pt : Part → Bool} {s0 : State} (region : Bool) (number : Nat) (s : State) (hK : Changes pt s0 s)
    (h_drawn : pt .drawn = true) (h_boot : pt .boot = true) (h_objects : pt .objects = true) (h_tallies : pt .tallies = true)
    (h_devMem : pt .devMem = true) (h_pairs : pt .pairs = true) (h_slots : pt .slots = true) (h_cmds : pt .cmds = true)
    (h_txa : pt .txa = true) (h_sdx : pt .sdx = true) (h_rsv : pt .rsv = true) (h_mdc : pt .mdc = true) (h_tok : pt .tok = true)
    (h_bat : pt .bat = true) (h_pools : pt .pools = true) (h_dlv : pt .dlv = true) (h_net : pt .net = true) (h_fed : pt .fed = true)
    (h_dict : pt .dict = true) (h_evt : pt .evt = true)
    (h_trace : pt .trace = true) : ∃ t, execQpDisableDeadline region number s = .next t ∧ Changes pt s0 t := by
  refine ⟨_, rfl, ?_⟩
  repeat' (with_reducible first
      | assumption | apply settlePorts_changes | apply cutMessages_changes | apply lrStopped_changes | apply qpStopped_changes
      | intro _ | split)

theorem lrEnableEffect_changes {pt : Part → Bool} {s0 : State} (x0 : Via) (x1 : Nat) (x2 : Nat) (x3 : List Byte) (s : State)
    (hK : Changes pt s0 s) (h_objects : pt .objects = true) (h_tallies : pt .tallies = true) (h_net : pt .net = true)
    (h_dict : pt .dict = true) (h_evt : pt .evt = true) (h_trace : pt .trace = true) : Changes pt s0
    (lrEnableEffect x0 x1 x2 x3 s) := by
  unfold lrEnableEffect
  repeat' (with_reducible first
      | assumption | apply netConfig_changes | apply setLr_changes | apply dictDone_changes | apply readChecked_changes | intro _
      | extract_lets | split | dsimp +zetaDelta only)

theorem execLrEnable_changes {pt : Part → Bool} {s0 : State} (via : Via) (region : Nat) (s : State) (hK : Changes pt s0 s)
    (h_objects : pt .objects = true) (h_tallies : pt .tallies = true) (h_net : pt .net = true) (h_fed : pt .fed = true)
    (h_dict : pt .dict = true) (h_evt : pt .evt = true)
    (h_trace : pt .trace = true) : ∃ t, execLrEnable via region s = .next t ∧ Changes pt s0 t := by
  refine ⟨_, rfl, ?_⟩
  repeat' (with_reducible first | assumption | apply lrEnableEffect_changes | apply requestWrite_changes | intro _)

theorem lrDisableEffect_changes {pt : Part → Bool} {s0 : State} (x0 : Via) (x1 : Nat) (x2 : Nat) (x3 : List Byte) (s : State)
    (hK : Changes pt s0 s) (h_tallies : pt .tallies = true) (h_net : pt .net = true) (h_fed : pt .fed = true)
    (h_dict : pt .dict = true) : Changes pt s0 (lrDisableEffect x0 x1 x2 x3 s) := by
  unfold lrDisableEffect
  repeat' (with_reducible first
      | assumption | apply denyOpens_changes | apply lrStopped_changes | apply setLr_changes | apply startLong_changes
      | apply dictDone_changes | intro _ | extract_lets | split | dsimp +zetaDelta only | refine Changes.put ?_)

theorem execLrDisable_changes {pt : Part → Bool} {s0 : State} (via : Via) (region : Nat) (s : State) (hK : Changes pt s0 s)
    (h_tallies : pt .tallies = true) (h_net : pt .net = true) (h_fed : pt .fed = true) (h_dict : pt .dict = true)
    (h_trace : pt .trace = true) : ∃ t, execLrDisable via region s = .next t ∧ Changes pt s0 t := by
  refine ⟨_, rfl, ?_⟩
  repeat' (with_reducible first | assumption | apply lrDisableEffect_changes | apply requestWrite_changes | intro _)

theorem sendAck_changes {pt : Part → Bool} {s0 : State} (s : State) (q : Nat) (hK : Changes pt s0 s) (h_tallies : pt .tallies = true)
    (h_net : pt .net = true) : Changes pt s0 (sendAck s q) := by
  unfold sendAck
  repeat' (with_reducible first
      | assumption | refine bump_tally _ _ ?_ (by assumption) (by decide) | refine bump_object _ _ ?_ (by assumption) (by decide)
      | refine bump_any _ _ ?_ (by assumption) (by assumption) | refine bumpBy_tally _ _ _ ?_ (by assumption) (by decide)
      | refine bumpBy_object _ _ _ ?_ (by assumption) (by decide) | refine bumpBy_any _ _ _ ?_ (by assumption) (by assumption)
      | refine bump_tally _ _ ?_ (by assumption) (portCounters_tally _ _ (by decide))
      | refine bumpBy_tally _ _ _ ?_ (by assumption) (portCounters_tally _ _ (by decide)) | apply transmit_changes
      | apply setQp_changes | refine Changes.tally ?_ _ _ _ (by assumption) (by decide)
      | refine Changes.object ?_ _ _ _ (by assumption) (by decide) | refine Changes.any ?_ _ _ _ (by assumption) (by assumption)
      | intro _ | extract_lets | dsimp +zetaDelta only | refine Changes.put ?_)

theorem execAckDelayExpiry_changes {pt : Part → Bool} {s0 : State} (qp : Nat) (s : State) (hK : Changes pt s0 s)
    (h_tallies : pt .tallies = true) (h_net : pt .net = true) : ∃ t, execAckDelayExpiry qp s = .next t ∧ Changes pt s0 t := by
  refine ⟨_, rfl, ?_⟩
  repeat' (with_reducible first | assumption | apply sendAck_changes | intro _ | split)

/-! ## Landing -/

theorem nakError_changes {pt : Part → Bool} {s0 : State} (s : State) (p q syndrome psn : Nat) (hK : Changes pt s0 s)
    (h_drawn : pt .drawn = true) (h_objects : pt .objects = true) (h_tallies : pt .tallies = true) (h_devMem : pt .devMem = true)
    (h_pairs : pt .pairs = true) (h_slots : pt .slots = true) (h_cmds : pt .cmds = true) (h_txa : pt .txa = true)
    (h_sdx : pt .sdx = true) (h_rsv : pt .rsv = true) (h_mdc : pt .mdc = true) (h_tok : pt .tok = true) (h_bat : pt .bat = true)
    (h_pools : pt .pools = true) (h_dlv : pt .dlv = true) (h_net : pt .net = true) (h_fed : pt .fed = true) (h_dict : pt .dict = true)
    (h_evt : pt .evt = true) (h_trace : pt .trace = true) : Changes pt s0 (nakError s p q syndrome psn) := by
  unfold nakError
  repeat' (with_reducible first
      | assumption | refine bump_tally _ _ ?_ (by assumption) (by decide) | refine bump_object _ _ ?_ (by assumption) (by decide)
      | refine bump_any _ _ ?_ (by assumption) (by assumption) | refine bumpBy_tally _ _ _ ?_ (by assumption) (by decide)
      | refine bumpBy_object _ _ _ ?_ (by assumption) (by decide) | refine bumpBy_any _ _ _ ?_ (by assumption) (by assumption)
      | refine bump_tally _ _ ?_ (by assumption) (portCounters_tally _ _ (by decide))
      | refine bumpBy_tally _ _ _ ?_ (by assumption) (portCounters_tally _ _ (by decide)) | apply qpError_changes
      | apply transmit_changes | apply modQp_changes | refine Changes.tally ?_ _ _ _ (by assumption) (by decide)
      | refine Changes.object ?_ _ _ _ (by assumption) (by decide) | refine Changes.any ?_ _ _ _ (by assumption) (by assumption)
      | intro _ | extract_lets | dsimp +zetaDelta only | refine Changes.put ?_)

theorem rnrNak_changes {pt : Part → Bool} {s0 : State} (s : State) (p q psn : Nat) (hK : Changes pt s0 s)
    (h_objects : pt .objects = true) (h_tallies : pt .tallies = true) (h_net : pt .net = true) (h_evt : pt .evt = true)
    (h_trace : pt .trace = true) : Changes pt s0 (rnrNak s p q psn) := by
  unfold rnrNak
  repeat' (with_reducible first
      | assumption | refine bump_tally _ _ ?_ (by assumption) (by decide) | refine bump_object _ _ ?_ (by assumption) (by decide)
      | refine bump_any _ _ ?_ (by assumption) (by assumption) | refine bumpBy_tally _ _ _ ?_ (by assumption) (by decide)
      | refine bumpBy_object _ _ _ ?_ (by assumption) (by decide) | refine bumpBy_any _ _ _ ?_ (by assumption) (by assumption)
      | refine bump_tally _ _ ?_ (by assumption) (portCounters_tally _ _ (by decide))
      | refine bumpBy_tally _ _ _ ?_ (by assumption) (portCounters_tally _ _ (by decide)) | apply transmit_changes
      | apply portErr_changes | refine Changes.tally ?_ _ _ _ (by assumption) (by decide)
      | refine Changes.object ?_ _ _ _ (by assumption) (by decide) | refine Changes.any ?_ _ _ _ (by assumption) (by assumption)
      | intro _ | extract_lets | dsimp +zetaDelta only)

theorem congestion_changes {pt : Part → Bool} {s0 : State} (s : State) (p q : Nat) (ce : Bool) (hK : Changes pt s0 s)
    (h_tallies : pt .tallies = true) (h_net : pt .net = true) : Changes pt s0 (congestion s p q ce) := by
  unfold congestion
  repeat' (with_reducible first
      | assumption | refine bump_tally _ _ ?_ (by assumption) (by decide) | refine bump_object _ _ ?_ (by assumption) (by decide)
      | refine bump_any _ _ ?_ (by assumption) (by assumption) | refine bumpBy_tally _ _ _ ?_ (by assumption) (by decide)
      | refine bumpBy_object _ _ _ ?_ (by assumption) (by decide) | refine bumpBy_any _ _ _ ?_ (by assumption) (by assumption)
      | refine bump_tally _ _ ?_ (by assumption) (portCounters_tally _ _ (by decide))
      | refine bumpBy_tally _ _ _ ?_ (by assumption) (portCounters_tally _ _ (by decide)) | apply transmit_changes
      | apply modQp_changes | refine Changes.tally ?_ _ _ _ (by assumption) (by decide)
      | refine Changes.object ?_ _ _ _ (by assumption) (by decide) | refine Changes.any ?_ _ _ _ (by assumption) (by assumption)
      | refine Changes.fst ‹_› ?_ | refine Changes.snd ‹_› ?_ | intro _ | extract_lets | split | dsimp +zetaDelta only
      | refine Changes.put ?_)

theorem landBytes_changes {pt : Part → Bool} {s0 : State} (s : State) (m : Msg) (bs : List Byte) (hK : Changes pt s0 s)
    (h_drawn : pt .drawn = true) (h_objects : pt .objects = true) (h_tallies : pt .tallies = true) (h_devMem : pt .devMem = true)
    (h_pairs : pt .pairs = true) (h_slots : pt .slots = true) (h_cmds : pt .cmds = true) (h_txa : pt .txa = true)
    (h_sdx : pt .sdx = true) (h_rsv : pt .rsv = true) (h_mdc : pt .mdc = true) (h_tok : pt .tok = true) (h_bat : pt .bat = true)
    (h_pools : pt .pools = true) (h_dlv : pt .dlv = true) (h_net : pt .net = true) (h_fed : pt .fed = true) (h_dict : pt .dict = true)
    (h_evt : pt .evt = true) (h_trace : pt .trace = true) : Changes pt s0 (landBytes s m bs) := by
  unfold landBytes
  repeat' (with_reducible first
      | assumption | refine bump_tally _ _ ?_ (by assumption) (by decide) | refine bump_object _ _ ?_ (by assumption) (by decide)
      | refine bump_any _ _ ?_ (by assumption) (by assumption) | refine bumpBy_tally _ _ _ ?_ (by assumption) (by decide)
      | refine bumpBy_object _ _ _ ?_ (by assumption) (by decide) | refine bumpBy_any _ _ _ ?_ (by assumption) (by assumption)
      | refine bump_tally _ _ ?_ (by assumption) (portCounters_tally _ _ (by decide))
      | refine bumpBy_tally _ _ _ ?_ (by assumption) (portCounters_tally _ _ (by decide)) | apply ingestProgress_changes
      | apply modMsg_changes | apply keep_changes | apply memWrite_changes | refine Changes.tally ?_ _ _ _ (by assumption) (by decide)
      | refine Changes.object ?_ _ _ _ (by assumption) (by decide) | refine Changes.any ?_ _ _ _ (by assumption) (by assumption)
      | intro _ | extract_lets | split | dsimp +zetaDelta only | refine Changes.put ?_)

theorem acceptPacket_changes {pt : Part → Bool} {s0 : State} (s : State) (p q : Nat) (f : Frame) (hK : Changes pt s0 s)
    (h_drawn : pt .drawn = true) (h_objects : pt .objects = true) (h_tallies : pt .tallies = true) (h_devMem : pt .devMem = true)
    (h_pairs : pt .pairs = true) (h_slots : pt .slots = true) (h_cmds : pt .cmds = true) (h_txa : pt .txa = true)
    (h_sdx : pt .sdx = true) (h_rsv : pt .rsv = true) (h_mdc : pt .mdc = true) (h_tok : pt .tok = true) (h_bat : pt .bat = true)
    (h_pools : pt .pools = true) (h_dlv : pt .dlv = true) (h_net : pt .net = true) (h_fed : pt .fed = true) (h_dict : pt .dict = true)
    (h_evt : pt .evt = true) (h_trace : pt .trace = true) : Changes pt s0 (acceptPacket s p q f) := by
  unfold acceptPacket
  repeat' (with_reducible first
      | assumption | apply landBytes_changes | apply congestion_changes | apply sendAck_changes | apply endMessage_changes
      | apply setQp_changes | refine Changes.fst ‹_› ?_ | refine Changes.snd ‹_› ?_ | intro _ | extract_lets | split
      | dsimp +zetaDelta only | refine Changes.put ?_)

theorem startOperation_changes {pt : Part → Bool} {s0 : State} (s : State) (p q : Nat) (f : Frame) (msg : Option Nat) (off : Nat)
    (hK : Changes pt s0 s) (h_drawn : pt .drawn = true) (h_objects : pt .objects = true) (h_tallies : pt .tallies = true)
    (h_devMem : pt .devMem = true) (h_pairs : pt .pairs = true) (h_slots : pt .slots = true) (h_cmds : pt .cmds = true)
    (h_txa : pt .txa = true) (h_sdx : pt .sdx = true) (h_rsv : pt .rsv = true) (h_mdc : pt .mdc = true) (h_tok : pt .tok = true)
    (h_bat : pt .bat = true) (h_pools : pt .pools = true) (h_dlv : pt .dlv = true) (h_net : pt .net = true) (h_fed : pt .fed = true)
    (h_dict : pt .dict = true) (h_evt : pt .evt = true) (h_trace : pt .trace = true) : Changes pt s0
    (startOperation s p q f msg off) := by
  unfold startOperation
  repeat' (with_reducible first | assumption | apply acceptPacket_changes | apply modQp_changes | intro _ | refine Changes.put ?_)

theorem requestOpen_changes {pt : Part → Bool} {s0 : State} (s : State) (p q r k : Nat) (f : Frame) (hK : Changes pt s0 s)
    (h_objects : pt .objects = true) (h_tallies : pt .tallies = true) (h_devMem : pt .devMem = true) (h_pairs : pt .pairs = true)
    (h_slots : pt .slots = true) (h_cmds : pt .cmds = true) (h_arbs : pt .arbs = true) (h_bat : pt .bat = true)
    (h_pools : pt .pools = true) (h_net : pt .net = true) (h_evt : pt .evt = true) (h_trace : pt .trace = true) : Changes pt s0
    (requestOpen s p q r k f) := by
  unfold requestOpen
  repeat' (with_reducible first
      | assumption | apply modPort_changes | apply semWait_changes | apply poolRequest_changes | intro _ | extract_lets | split
      | dsimp +zetaDelta only | refine Changes.put ?_)

theorem beginOperation_changes {pt : Part → Bool} {s0 : State} (s : State) (p q : Nat) (f : Frame) (hK : Changes pt s0 s)
    (h_drawn : pt .drawn = true) (h_objects : pt .objects = true) (h_tallies : pt .tallies = true) (h_devMem : pt .devMem = true)
    (h_pairs : pt .pairs = true) (h_slots : pt .slots = true) (h_cmds : pt .cmds = true) (h_arbs : pt .arbs = true)
    (h_txa : pt .txa = true) (h_sdx : pt .sdx = true) (h_rsv : pt .rsv = true) (h_mdc : pt .mdc = true) (h_tok : pt .tok = true)
    (h_bat : pt .bat = true) (h_pools : pt .pools = true) (h_dlv : pt .dlv = true) (h_net : pt .net = true) (h_fed : pt .fed = true)
    (h_dict : pt .dict = true) (h_evt : pt .evt = true) (h_trace : pt .trace = true) : Changes pt s0 (beginOperation s p q f) := by
  unfold beginOperation
  repeat' (with_reducible first
      | assumption | refine bump_tally _ _ ?_ (by assumption) (by decide) | refine bump_object _ _ ?_ (by assumption) (by decide)
      | refine bump_any _ _ ?_ (by assumption) (by assumption) | refine bumpBy_tally _ _ _ ?_ (by assumption) (by decide)
      | refine bumpBy_object _ _ _ ?_ (by assumption) (by decide) | refine bumpBy_any _ _ _ ?_ (by assumption) (by assumption)
      | refine bump_tally _ _ ?_ (by assumption) (portCounters_tally _ _ (by decide))
      | refine bumpBy_tally _ _ _ ?_ (by assumption) (portCounters_tally _ _ (by decide)) | apply requestOpen_changes
      | apply startOperation_changes | apply rnrNak_changes | apply nakError_changes | apply endMessage_changes
      | refine Changes.tally ?_ _ _ _ (by assumption) (by decide) | refine Changes.object ?_ _ _ _ (by assumption) (by decide)
      | refine Changes.any ?_ _ _ _ (by assumption) (by assumption) | refine Changes.fst ‹_› ?_ | refine Changes.snd ‹_› ?_ | intro _
      | split)

theorem takePacket_changes {pt : Part → Bool} {s0 : State} (s : State) (p q : Nat) (f : Frame) (hK : Changes pt s0 s)
    (h_drawn : pt .drawn = true) (h_objects : pt .objects = true) (h_tallies : pt .tallies = true) (h_devMem : pt .devMem = true)
    (h_pairs : pt .pairs = true) (h_slots : pt .slots = true) (h_cmds : pt .cmds = true) (h_arbs : pt .arbs = true)
    (h_txa : pt .txa = true) (h_sdx : pt .sdx = true) (h_rsv : pt .rsv = true) (h_mdc : pt .mdc = true) (h_tok : pt .tok = true)
    (h_bat : pt .bat = true) (h_pools : pt .pools = true) (h_dlv : pt .dlv = true) (h_net : pt .net = true) (h_fed : pt .fed = true)
    (h_dict : pt .dict = true) (h_evt : pt .evt = true) (h_trace : pt .trace = true) : Changes pt s0 (takePacket s p q f) := by
  unfold takePacket
  repeat' (with_reducible first
      | assumption | refine bump_tally _ _ ?_ (by assumption) (by decide) | refine bump_object _ _ ?_ (by assumption) (by decide)
      | refine bump_any _ _ ?_ (by assumption) (by assumption) | refine bumpBy_tally _ _ _ ?_ (by assumption) (by decide)
      | refine bumpBy_object _ _ _ ?_ (by assumption) (by decide) | refine bumpBy_any _ _ _ ?_ (by assumption) (by assumption)
      | refine bump_tally _ _ ?_ (by assumption) (portCounters_tally _ _ (by decide))
      | refine bumpBy_tally _ _ _ ?_ (by assumption) (portCounters_tally _ _ (by decide)) | apply beginOperation_changes
      | apply acceptPacket_changes | apply nakError_changes | apply sendAck_changes | apply transmit_changes | apply setQp_changes
      | apply modPort_changes | refine Changes.tally ?_ _ _ _ (by assumption) (by decide)
      | refine Changes.object ?_ _ _ _ (by assumption) (by decide) | refine Changes.any ?_ _ _ _ (by assumption) (by assumption)
      | intro _ | extract_lets | split | dsimp +zetaDelta only | refine Changes.put ?_)

theorem flowControl_changes {pt : Part → Bool} {s0 : State} (s : State) (p bufferBytes : Nat) (hK : Changes pt s0 s)
    (h_net : pt .net = true) : Changes pt s0 (flowControl s p bufferBytes) := by
  unfold flowControl
  repeat' (with_reducible first
      | assumption | apply transmit_changes | apply modPort_changes | apply setPort_changes | intro _ | extract_lets | split
      | dsimp +zetaDelta only | refine Changes.put ?_)

theorem takeFrame_changes {pt : Part → Bool} {s0 : State} (s : State) (p : Nat) (f : Frame) (hK : Changes pt s0 s)
    (h_drawn : pt .drawn = true) (h_objects : pt .objects = true) (h_tallies : pt .tallies = true) (h_devMem : pt .devMem = true)
    (h_pairs : pt .pairs = true) (h_slots : pt .slots = true) (h_cmds : pt .cmds = true) (h_arbs : pt .arbs = true)
    (h_txa : pt .txa = true) (h_sdx : pt .sdx = true) (h_rsv : pt .rsv = true) (h_mdc : pt .mdc = true) (h_tok : pt .tok = true)
    (h_bat : pt .bat = true) (h_pools : pt .pools = true) (h_dlv : pt .dlv = true) (h_net : pt .net = true) (h_fed : pt .fed = true)
    (h_dict : pt .dict = true) (h_evt : pt .evt = true) (h_trace : pt .trace = true) : Changes pt s0 (takeFrame s p f) := by
  unfold takeFrame
  repeat' (with_reducible first
      | assumption | refine bump_tally _ _ ?_ (by assumption) (by decide) | refine bump_object _ _ ?_ (by assumption) (by decide)
      | refine bump_any _ _ ?_ (by assumption) (by assumption) | refine bumpBy_tally _ _ _ ?_ (by assumption) (by decide)
      | refine bumpBy_object _ _ _ ?_ (by assumption) (by decide) | refine bumpBy_any _ _ _ ?_ (by assumption) (by assumption)
      | refine bump_tally _ _ ?_ (by assumption) (portCounters_tally _ _ (by decide))
      | refine bumpBy_tally _ _ _ ?_ (by assumption) (portCounters_tally _ _ (by decide)) | apply takePacket_changes
      | apply setPause_changes | apply transmit_changes | refine Changes.tally ?_ _ _ _ (by assumption) (by decide)
      | refine Changes.object ?_ _ _ _ (by assumption) (by decide) | refine Changes.any ?_ _ _ _ (by assumption) (by assumption)
      | refine Changes.fst ‹_› ?_ | refine Changes.snd ‹_› ?_ | intro _ | extract_lets | split | dsimp +zetaDelta only)

theorem countFrame_changes {pt : Part → Bool} {s0 : State} (s : State) (p : Nat) (f : Frame) (hK : Changes pt s0 s)
    (h_tallies : pt .tallies = true) : Changes pt s0 (countFrame s p f) := by
  unfold countFrame
  repeat' (with_reducible first
      | assumption | refine bump_tally _ _ ?_ (by assumption) (by decide) | refine bump_object _ _ ?_ (by assumption) (by decide)
      | refine bump_any _ _ ?_ (by assumption) (by assumption) | refine bumpBy_tally _ _ _ ?_ (by assumption) (by decide)
      | refine bumpBy_object _ _ _ ?_ (by assumption) (by decide) | refine bumpBy_any _ _ _ ?_ (by assumption) (by assumption)
      | refine bump_tally _ _ ?_ (by assumption) (portCounters_tally _ _ (by decide))
      | refine bumpBy_tally _ _ _ ?_ (by assumption) (portCounters_tally _ _ (by decide))
      | refine Changes.tally ?_ _ _ _ (by assumption) (by decide) | refine Changes.object ?_ _ _ _ (by assumption) (by decide)
      | refine Changes.any ?_ _ _ _ (by assumption) (by assumption) | intro _)

theorem retake_changes {pt : Part → Bool} {s0 : State} (p : Nat) (x0 : Nat) (s : State) (hK : Changes pt s0 s)
    (h_drawn : pt .drawn = true) (h_objects : pt .objects = true) (h_tallies : pt .tallies = true) (h_devMem : pt .devMem = true)
    (h_pairs : pt .pairs = true) (h_slots : pt .slots = true) (h_cmds : pt .cmds = true) (h_arbs : pt .arbs = true)
    (h_txa : pt .txa = true) (h_sdx : pt .sdx = true) (h_rsv : pt .rsv = true) (h_mdc : pt .mdc = true) (h_tok : pt .tok = true)
    (h_bat : pt .bat = true) (h_pools : pt .pools = true) (h_dlv : pt .dlv = true) (h_net : pt .net = true) (h_fed : pt .fed = true)
    (h_dict : pt .dict = true) (h_evt : pt .evt = true) (h_trace : pt .trace = true) : Changes pt s0 (retake p x0 s) := by
  induction x0 generalizing p s with
  | zero => unfold retake; exact hK
  | succ k ih =>
    unfold retake
    repeat' (with_reducible first
        | assumption | apply ih | apply takePacket_changes | apply modPort_changes | apply Changes.foldl | apply Changes.foldlFst
        | apply Changes.foldlSnd | refine Changes.fst ‹_› ?_ | refine Changes.snd ‹_› ?_ | intro _ | extract_lets | split
        | dsimp +zetaDelta only | refine Changes.put ?_)

theorem settleOpens_changes {pt : Part → Bool} {s0 : State} (s : State) (hK : Changes pt s0 s) (h_drawn : pt .drawn = true)
    (h_boot : pt .boot = true) (h_objects : pt .objects = true) (h_tallies : pt .tallies = true) (h_devMem : pt .devMem = true)
    (h_pairs : pt .pairs = true) (h_slots : pt .slots = true) (h_cmds : pt .cmds = true) (h_arbs : pt .arbs = true)
    (h_txa : pt .txa = true) (h_sdx : pt .sdx = true) (h_rsv : pt .rsv = true) (h_mdc : pt .mdc = true) (h_tok : pt .tok = true)
    (h_bat : pt .bat = true) (h_pools : pt .pools = true) (h_dlv : pt .dlv = true) (h_net : pt .net = true) (h_fed : pt .fed = true)
    (h_dict : pt .dict = true) (h_evt : pt .evt = true) (h_trace : pt .trace = true) : Changes pt s0 (settleOpens s) := by
  unfold settleOpens
  repeat' (with_reducible first
      | assumption | apply retake_changes | apply settlePorts_changes | apply stagesTake_changes | apply Changes.foldl
      | apply Changes.foldlFst | apply Changes.foldlSnd | intro _ | extract_lets | dsimp +zetaDelta only)

theorem execFrameReceived_changes {pt : Part → Bool} {s0 : State} (port : Nat) (frame : Frame) (bufferBytes : Nat) (s : State)
    (hK : Changes pt s0 s) (h_drawn : pt .drawn = true) (h_boot : pt .boot = true) (h_objects : pt .objects = true)
    (h_tallies : pt .tallies = true) (h_devMem : pt .devMem = true) (h_pairs : pt .pairs = true) (h_slots : pt .slots = true)
    (h_cmds : pt .cmds = true) (h_arbs : pt .arbs = true) (h_txa : pt .txa = true) (h_sdx : pt .sdx = true) (h_rsv : pt .rsv = true)
    (h_mdc : pt .mdc = true) (h_tok : pt .tok = true) (h_bat : pt .bat = true) (h_pools : pt .pools = true) (h_dlv : pt .dlv = true)
    (h_net : pt .net = true) (h_fed : pt .fed = true) (h_dict : pt .dict = true) (h_evt : pt .evt = true)
    (h_trace : pt .trace = true) : ∃ t, execFrameReceived port frame bufferBytes s = .next t ∧ Changes pt s0 t := by
  refine ⟨_, rfl, ?_⟩
  repeat' (with_reducible first
      | assumption | apply settleOpens_changes | apply countFrame_changes | apply takeFrame_changes | apply flowControl_changes
      | intro _ | extract_lets | split | dsimp +zetaDelta only)

theorem takeBehind_changes {pt : Part → Bool} {s0 : State} (s : State) (p : Nat) (o : OpenReq) (hK : Changes pt s0 s)
    (h_drawn : pt .drawn = true) (h_objects : pt .objects = true) (h_tallies : pt .tallies = true) (h_devMem : pt .devMem = true)
    (h_pairs : pt .pairs = true) (h_slots : pt .slots = true) (h_cmds : pt .cmds = true) (h_arbs : pt .arbs = true)
    (h_txa : pt .txa = true) (h_sdx : pt .sdx = true) (h_rsv : pt .rsv = true) (h_mdc : pt .mdc = true) (h_tok : pt .tok = true)
    (h_bat : pt .bat = true) (h_pools : pt .pools = true) (h_dlv : pt .dlv = true) (h_net : pt .net = true) (h_fed : pt .fed = true)
    (h_dict : pt .dict = true) (h_evt : pt .evt = true) (h_trace : pt .trace = true) : Changes pt s0 (takeBehind s p o) := by
  unfold takeBehind
  repeat' (with_reducible first
      | assumption | apply takePacket_changes | apply Changes.foldl | apply Changes.foldlFst | apply Changes.foldlSnd | intro _)

theorem openMessage_changes {pt : Part → Bool} {s0 : State} (s : State) (p : Nat) (o : OpenReq) (buffer : Nat) (hK : Changes pt s0 s)
    (h_drawn : pt .drawn = true) (h_objects : pt .objects = true) (h_tallies : pt .tallies = true) (h_devMem : pt .devMem = true)
    (h_pairs : pt .pairs = true) (h_slots : pt .slots = true) (h_cmds : pt .cmds = true) (h_arbs : pt .arbs = true)
    (h_txa : pt .txa = true) (h_sdx : pt .sdx = true) (h_rsv : pt .rsv = true) (h_mdc : pt .mdc = true) (h_tok : pt .tok = true)
    (h_bat : pt .bat = true) (h_pools : pt .pools = true) (h_dlv : pt .dlv = true) (h_net : pt .net = true) (h_fed : pt .fed = true)
    (h_dict : pt .dict = true) (h_evt : pt .evt = true) (h_trace : pt .trace = true) : Changes pt s0 (openMessage s p o buffer) := by
  unfold openMessage
  repeat' (with_reducible first
      | assumption | apply takeBehind_changes | apply startOperation_changes | apply modPort_changes | apply stagesTake_changes
      | apply semSignal_changes | refine Changes.fst ‹_› ?_ | refine Changes.snd ‹_› ?_ | intro _ | extract_lets | split
      | dsimp +zetaDelta only | refine Changes.put ?_)

theorem giveUpOpen_changes {pt : Part → Bool} {s0 : State} (s : State) (p : Nat) (o : OpenReq) (answer : State → State)
    (he : ∀ s, Changes pt s0 s → Changes pt s0 (answer s)) (hK : Changes pt s0 s) (h_drawn : pt .drawn = true)
    (h_objects : pt .objects = true) (h_tallies : pt .tallies = true) (h_devMem : pt .devMem = true) (h_pairs : pt .pairs = true)
    (h_slots : pt .slots = true) (h_cmds : pt .cmds = true) (h_arbs : pt .arbs = true) (h_txa : pt .txa = true) (h_sdx : pt .sdx = true)
    (h_rsv : pt .rsv = true) (h_mdc : pt .mdc = true) (h_tok : pt .tok = true) (h_bat : pt .bat = true) (h_pools : pt .pools = true)
    (h_dlv : pt .dlv = true) (h_net : pt .net = true) (h_fed : pt .fed = true) (h_dict : pt .dict = true) (h_evt : pt .evt = true)
    (h_trace : pt .trace = true) : Changes pt s0 (giveUpOpen s p o answer) := by
  unfold giveUpOpen
  repeat' (with_reducible first
      | assumption | apply takeBehind_changes | apply withdrawOpen_changes | apply answer_changes | apply he | intro _)

theorem decideOpen_changes {pt : Part → Bool} {s0 : State} (s : State) (p : Nat) (o : OpenReq) (hK : Changes pt s0 s)
    (h_drawn : pt .drawn = true) (h_objects : pt .objects = true) (h_tallies : pt .tallies = true) (h_devMem : pt .devMem = true)
    (h_pairs : pt .pairs = true) (h_slots : pt .slots = true) (h_cmds : pt .cmds = true) (h_arbs : pt .arbs = true)
    (h_txa : pt .txa = true) (h_sdx : pt .sdx = true) (h_rsv : pt .rsv = true) (h_mdc : pt .mdc = true) (h_tok : pt .tok = true)
    (h_bat : pt .bat = true) (h_pools : pt .pools = true) (h_dlv : pt .dlv = true) (h_net : pt .net = true) (h_fed : pt .fed = true)
    (h_dict : pt .dict = true) (h_evt : pt .evt = true) (h_trace : pt .trace = true) : Changes pt s0 (decideOpen s p o) := by
  unfold decideOpen
  repeat' (with_reducible first
      | assumption | apply giveUpOpen_changes | apply openMessage_changes | apply rnrNak_changes | apply nakError_changes | intro _
      | split)

theorem execMessageOpen_changes {pt : Part → Bool} {s0 : State} (port bufferBytes : Nat) (s : State) (hK : Changes pt s0 s)
    (h_drawn : pt .drawn = true) (h_boot : pt .boot = true) (h_objects : pt .objects = true) (h_tallies : pt .tallies = true)
    (h_devMem : pt .devMem = true) (h_pairs : pt .pairs = true) (h_slots : pt .slots = true) (h_cmds : pt .cmds = true)
    (h_arbs : pt .arbs = true) (h_txa : pt .txa = true) (h_sdx : pt .sdx = true) (h_rsv : pt .rsv = true) (h_mdc : pt .mdc = true)
    (h_tok : pt .tok = true) (h_bat : pt .bat = true) (h_pools : pt .pools = true) (h_dlv : pt .dlv = true) (h_net : pt .net = true)
    (h_fed : pt .fed = true) (h_dict : pt .dict = true) (h_evt : pt .evt = true)
    (h_trace : pt .trace = true) : ∃ t, execMessageOpen port bufferBytes s = .next t ∧ Changes pt s0 t := by
  refine ⟨_, rfl, ?_⟩
  repeat' (with_reducible first
      | assumption | apply decideOpen_changes | apply settleOpens_changes | apply flowControl_changes | refine Changes.fst ‹_› ?_
      | refine Changes.snd ‹_› ?_ | intro _ | split)

theorem execOpenWaitExpiry_changes {pt : Part → Bool} {s0 : State} (port bufferBytes : Nat) (s : State) (hK : Changes pt s0 s)
    (h_drawn : pt .drawn = true) (h_boot : pt .boot = true) (h_objects : pt .objects = true) (h_tallies : pt .tallies = true)
    (h_devMem : pt .devMem = true) (h_pairs : pt .pairs = true) (h_slots : pt .slots = true) (h_cmds : pt .cmds = true)
    (h_arbs : pt .arbs = true) (h_txa : pt .txa = true) (h_sdx : pt .sdx = true) (h_rsv : pt .rsv = true) (h_mdc : pt .mdc = true)
    (h_tok : pt .tok = true) (h_bat : pt .bat = true) (h_pools : pt .pools = true) (h_dlv : pt .dlv = true) (h_net : pt .net = true)
    (h_fed : pt .fed = true) (h_dict : pt .dict = true) (h_evt : pt .evt = true)
    (h_trace : pt .trace = true) : ∃ t, execOpenWaitExpiry port bufferBytes s = .next t ∧ Changes pt s0 t := by
  refine ⟨_, rfl, ?_⟩
  repeat' (with_reducible first
      | assumption | apply giveUpOpen_changes | apply settleOpens_changes | apply flowControl_changes | apply rnrNak_changes
      | refine Changes.fst ‹_› ?_ | refine Changes.snd ‹_› ?_ | intro _ | split)

/-! ## Sdx -/

theorem laneTakes_changes {pt : Part → Bool} {s0 : State} (s : State) (u : Nat) (r : LaneRun) (hK : Changes pt s0 s)
    (h_sdx : pt .sdx = true) : Changes pt s0 (laneTakes s u r) := by
  unfold laneTakes
  repeat' (with_reducible first | assumption | refine Changes.put ?_)

theorem execSdxStreamStart_changes {pt : Part → Bool} {s0 : State} (s : State) (hK : Changes pt s0 s) (h_arbs : pt .arbs = true)
    (h_sdx : pt .sdx = true) : ∃ t, execSdxStreamStart s = .next t ∧ Changes pt s0 t := by
  refine ⟨_, rfl, ?_⟩
  repeat' (with_reducible first
      | assumption | apply laneTakes_changes | apply arbGrant_changes | refine Changes.fst ‹_› ?_ | refine Changes.snd ‹_› ?_ | intro _
      | extract_lets | split | dsimp +zetaDelta only | refine Changes.put ?_)

theorem keyLimbLine_changes {pt : Part → Bool} {s0 : State} (s : State) (u : Nat) (r : LaneRun) (cmd d o n : Nat) (hK : Changes pt s0 s)
    (h_tallies : pt .tallies = true) (h_devMem : pt .devMem = true) (h_sdx : pt .sdx = true) (h_dlv : pt .dlv = true) : Changes pt s0
    (keyLimbLine s u r cmd d o n) := by
  unfold keyLimbLine
  repeat' (with_reducible first
      | assumption | apply emitLine_changes | refine Changes.fst ‹_› ?_ | refine Changes.snd ‹_› ?_ | intro _ | extract_lets | split
      | dsimp +zetaDelta only | refine Changes.put ?_)

theorem ctLimbLine_changes {pt : Part → Bool} {s0 : State} (s : State) (r : LaneRun) (m limb n : Nat) (hK : Changes pt s0 s)
    (h_devMem : pt .devMem = true) (h_net : pt .net = true) : Changes pt s0 (ctLimbLine s r m limb n) := by
  unfold ctLimbLine
  repeat' (with_reducible first
      | assumption | apply modMsg_changes | apply memWrite_changes | apply Changes.foldl | apply Changes.foldlFst
      | apply Changes.foldlSnd | refine Changes.fst ‹_› ?_ | refine Changes.snd ‹_› ?_ | intro _ | extract_lets | split
      | dsimp +zetaDelta only | refine Changes.put ?_)

theorem takeLines_changes {pt : Part → Bool} {s0 : State} (x0 : Nat) (s : State) (x2 : LaneRun) (hK : Changes pt s0 s)
    (h_devMem : pt .devMem = true) (h_net : pt .net = true) : Changes pt s0 (takeLines x0 s x2).1 := by
  induction x0 generalizing s x2 with
  | zero => unfold takeLines; exact hK
  | succ k ih =>
    unfold takeLines
    repeat' (with_reducible first
        | assumption | apply ih | apply ctLimbLine_changes | refine Changes.fst ‹_› ?_ | refine Changes.snd ‹_› ?_ | intro _ | split
        | refine Changes.put ?_)

theorem passLines_changes {pt : Part → Bool} {s0 : State} (s : State) (u old : Nat) (r : LaneRun) (taken : Nat) (ended : Bool)
    (hK : Changes pt s0 s) (h_tallies : pt .tallies = true) (h_devMem : pt .devMem = true) (h_sdx : pt .sdx = true)
    (h_dlv : pt .dlv = true) (h_net : pt .net = true) : Changes pt s0 (passLines s u old r taken ended).1 := by
  unfold passLines
  repeat' (with_reducible first
      | assumption | apply takeLines_changes | apply keyLimbLine_changes | apply Changes.foldl | apply Changes.foldlFst
      | apply Changes.foldlSnd | refine Changes.fst ‹_› ?_ | refine Changes.snd ‹_› ?_ | intro _ | split)

theorem streamEnds_changes {pt : Part → Bool} {s0 : State} (s : State) (u : Nat) (r : LaneRun) (hK : Changes pt s0 s)
    (h_drawn : pt .drawn = true) (h_objects : pt .objects = true) (h_tallies : pt .tallies = true) (h_devMem : pt .devMem = true)
    (h_pairs : pt .pairs = true) (h_slots : pt .slots = true) (h_cmds : pt .cmds = true) (h_txa : pt .txa = true)
    (h_sdx : pt .sdx = true) (h_rsv : pt .rsv = true) (h_mdc : pt .mdc = true) (h_tok : pt .tok = true) (h_bat : pt .bat = true)
    (h_pools : pt .pools = true) (h_dlv : pt .dlv = true) (h_net : pt .net = true) (h_fed : pt .fed = true) (h_evt : pt .evt = true)
    (h_trace : pt .trace = true) : Changes pt s0 (streamEnds s u r) := by
  unfold streamEnds
  repeat' (with_reducible first
      | assumption | apply modMsg_changes | apply closeKey_changes | apply advanceDlv_changes | apply freeLane_changes
      | refine Changes.fst ‹_› ?_ | refine Changes.snd ‹_› ?_ | intro _ | extract_lets | split | dsimp +zetaDelta only
      | refine Changes.put ?_)

theorem release168_changes {pt : Part → Bool} {s0 : State} (s : State) (u : Nat) (r : LaneRun) (taken : Nat) (hK : Changes pt s0 s)
    (h_drawn : pt .drawn = true) (h_objects : pt .objects = true) (h_tallies : pt .tallies = true) (h_devMem : pt .devMem = true)
    (h_pairs : pt .pairs = true) (h_slots : pt .slots = true) (h_cmds : pt .cmds = true) (h_txa : pt .txa = true)
    (h_sdx : pt .sdx = true) (h_rsv : pt .rsv = true) (h_mdc : pt .mdc = true) (h_tok : pt .tok = true) (h_bat : pt .bat = true)
    (h_pools : pt .pools = true) (h_dlv : pt .dlv = true) (h_net : pt .net = true) (h_fed : pt .fed = true) (h_evt : pt .evt = true)
    (h_trace : pt .trace = true) : Changes pt s0 (release168 s u r taken) := by
  unfold release168
  repeat' (with_reducible first
      | assumption | refine bump_tally _ _ ?_ (by assumption) (by decide) | refine bump_object _ _ ?_ (by assumption) (by decide)
      | refine bump_any _ _ ?_ (by assumption) (by assumption) | refine bumpBy_tally _ _ _ ?_ (by assumption) (by decide)
      | refine bumpBy_object _ _ _ ?_ (by assumption) (by decide) | refine bumpBy_any _ _ _ ?_ (by assumption) (by assumption)
      | apply streamEnds_changes | apply passLines_changes | apply laneTakes_changes | apply advanceDlv_changes
      | refine Changes.tally ?_ _ _ _ (by assumption) (by decide) | refine Changes.object ?_ _ _ _ (by assumption) (by decide)
      | refine Changes.any ?_ _ _ _ (by assumption) (by assumption) | refine Changes.fst ‹_› ?_ | refine Changes.snd ‹_› ?_ | intro _
      | extract_lets | split | dsimp +zetaDelta only | refine Changes.put ?_)

theorem refuseExpanding_changes {pt : Part → Bool} {s0 : State} (s : State) (hK : Changes pt s0 s) (h_drawn : pt .drawn = true)
    (h_objects : pt .objects = true) (h_tallies : pt .tallies = true) (h_devMem : pt .devMem = true) (h_pairs : pt .pairs = true)
    (h_slots : pt .slots = true) (h_cmds : pt .cmds = true) (h_txa : pt .txa = true) (h_sdx : pt .sdx = true) (h_rsv : pt .rsv = true)
    (h_mdc : pt .mdc = true) (h_tok : pt .tok = true) (h_bat : pt .bat = true) (h_pools : pt .pools = true) (h_dlv : pt .dlv = true)
    (h_net : pt .net = true) (h_fed : pt .fed = true) (h_evt : pt .evt = true) (h_trace : pt .trace = true) : Changes pt s0
    (refuseExpanding s) := by
  unfold refuseExpanding
  repeat' (with_reducible first
      | assumption | apply ingestProgress_changes | apply turnNoLane_changes | apply Changes.foldl | apply Changes.foldlFst
      | apply Changes.foldlSnd | intro _ | extract_lets | dsimp +zetaDelta only)

theorem laneRetires_changes {pt : Part → Bool} {s0 : State} (s : State) (u : Nat) (r : LaneRun) (hK : Changes pt s0 s)
    (h_drawn : pt .drawn = true) (h_objects : pt .objects = true) (h_tallies : pt .tallies = true) (h_devMem : pt .devMem = true)
    (h_pairs : pt .pairs = true) (h_slots : pt .slots = true) (h_cmds : pt .cmds = true) (h_txa : pt .txa = true)
    (h_sdx : pt .sdx = true) (h_rsv : pt .rsv = true) (h_mdc : pt .mdc = true) (h_tok : pt .tok = true) (h_bat : pt .bat = true)
    (h_pools : pt .pools = true) (h_dlv : pt .dlv = true) (h_net : pt .net = true) (h_fed : pt .fed = true) (h_evt : pt .evt = true)
    (h_trace : pt .trace = true) : Changes pt s0 (laneRetires s u r) := by
  unfold laneRetires
  repeat' (with_reducible first
      | assumption | apply refuseExpanding_changes | apply retireUnit_changes | apply raiseErr_changes | intro _ | extract_lets | split
      | dsimp +zetaDelta only | refine Changes.put ?_)

theorem execSdxPermutationDone_changes {pt : Part → Bool} {s0 : State} (lane : Nat) (disagree : Bool) (taken : Nat) (s : State)
    (hK : Changes pt s0 s) (h_drawn : pt .drawn = true) (h_objects : pt .objects = true) (h_tallies : pt .tallies = true)
    (h_devMem : pt .devMem = true) (h_pairs : pt .pairs = true) (h_slots : pt .slots = true) (h_cmds : pt .cmds = true)
    (h_txa : pt .txa = true) (h_sdx : pt .sdx = true) (h_rsv : pt .rsv = true) (h_mdc : pt .mdc = true) (h_tok : pt .tok = true)
    (h_bat : pt .bat = true) (h_pools : pt .pools = true) (h_dlv : pt .dlv = true) (h_net : pt .net = true) (h_fed : pt .fed = true)
    (h_evt : pt .evt = true)
    (h_trace : pt .trace = true) : ∃ t, execSdxPermutationDone lane disagree taken s = .next t ∧ Changes pt s0 t := by
  refine ⟨_, rfl, ?_⟩
  repeat' (with_reducible first
      | assumption | apply laneRetires_changes | apply release168_changes | apply laneTakes_changes | apply raiseErr_changes
      | refine Changes.fst ‹_› ?_ | refine Changes.snd ‹_› ?_ | intro _ | split | refine Changes.put ?_)

theorem execSdxStallResume_changes {pt : Part → Bool} {s0 : State} (lane stallFclk : Nat) (s : State) (hK : Changes pt s0 s)
    (h_tallies : pt .tallies = true) (h_devMem : pt .devMem = true) (h_sdx : pt .sdx = true)
    (h_net : pt .net = true) : ∃ t, execSdxStallResume lane stallFclk s = .next t ∧ Changes pt s0 t := by
  refine ⟨_, rfl, ?_⟩
  repeat' (with_reducible first
      | assumption | refine bump_tally _ _ ?_ (by assumption) (by decide) | refine bump_object _ _ ?_ (by assumption) (by decide)
      | refine bump_any _ _ ?_ (by assumption) (by assumption) | refine bumpBy_tally _ _ _ ?_ (by assumption) (by decide)
      | refine bumpBy_object _ _ _ ?_ (by assumption) (by decide) | refine bumpBy_any _ _ _ ?_ (by assumption) (by assumption)
      | apply takeLines_changes | apply laneTakes_changes | refine Changes.tally ?_ _ _ _ (by assumption) (by decide)
      | refine Changes.object ?_ _ _ _ (by assumption) (by decide) | refine Changes.any ?_ _ _ _ (by assumption) (by assumption)
      | refine Changes.fst ‹_› ?_ | refine Changes.snd ‹_› ?_ | intro _ | extract_lets | split | dsimp +zetaDelta only
      | refine Changes.put ?_)

theorem execSdxLaneEnableWrite_changes {pt : Part → Bool} {s0 : State} (via : Via) (high : Bool) (value : Nat) (s : State)
    (hK : Changes pt s0 s) (h_objects : pt .objects = true) (h_tallies : pt .tallies = true) (h_txa : pt .txa = true)
    (h_sdx : pt .sdx = true) (h_rsv : pt .rsv = true) (h_mdc : pt .mdc = true) (h_tok : pt .tok = true) (h_fed : pt .fed = true)
    (h_dict : pt .dict = true)
    (h_trace : pt .trace = true) : ∃ t, execSdxLaneEnableWrite via high value s = .next t ∧ Changes pt s0 t := by
  refine ⟨_, rfl, ?_⟩
  repeat' (with_reducible first | assumption | apply enableWrite_changes | intro _)

/-! ## Keys -/

theorem writeKeyEntry_changes {pt : Part → Bool} {s0 : State} (s : State) (x : Nat) (e : KeyEntry) (hK : Changes pt s0 s)
    (h_devMem : pt .devMem = true) : Changes pt s0 (writeKeyEntry s x e) := by
  unfold writeKeyEntry
  repeat' (with_reducible first | assumption | apply memWrite_changes | intro _)

theorem issueRegister_changes {pt : Part → Bool} {s0 : State} (s : State) (c : Cmd) (cont index : Nat) (hK : Changes pt s0 s)
    (h_drawn : pt .drawn = true) (h_objects : pt .objects = true) (h_tallies : pt .tallies = true) (h_devMem : pt .devMem = true)
    (h_pairs : pt .pairs = true) (h_slots : pt .slots = true) (h_cmds : pt .cmds = true) (h_txa : pt .txa = true)
    (h_sdx : pt .sdx = true) (h_rsv : pt .rsv = true) (h_mdc : pt .mdc = true) (h_tok : pt .tok = true) (h_bat : pt .bat = true)
    (h_pools : pt .pools = true) (h_net : pt .net = true) (h_fed : pt .fed = true) (h_evt : pt .evt = true)
    (h_trace : pt .trace = true) : Changes pt s0 (issueRegister s c cont index) := by
  unfold issueRegister
  repeat' (with_reducible first
      | assumption | apply writeKeyEntry_changes | apply refuseItem_changes | apply finishCmd_changes | apply raiseErr_changes
      | intro _ | extract_lets | split | dsimp +zetaDelta only | refine Changes.put ?_)

theorem endRegistration_changes {pt : Part → Bool} {s0 : State} (s : State) (slot : Nat) (r : KeyReg) (code : Nat)
    (hK : Changes pt s0 s) (h_tallies : pt .tallies = true) (h_devMem : pt .devMem = true) (h_cmds : pt .cmds = true)
    (h_evt : pt .evt = true) (h_trace : pt .trace = true) : Changes pt s0 (endRegistration s slot r code) := by
  unfold endRegistration
  repeat' (with_reducible first
      | assumption | refine bump_tally _ _ ?_ (by assumption) (by decide) | refine bump_object _ _ ?_ (by assumption) (by decide)
      | refine bump_any _ _ ?_ (by assumption) (by assumption) | refine bumpBy_tally _ _ _ ?_ (by assumption) (by decide)
      | refine bumpBy_object _ _ _ ?_ (by assumption) (by decide) | refine bumpBy_any _ _ _ ?_ (by assumption) (by assumption)
      | apply writeKeyEntry_changes | apply finishCmd_changes | apply raiseErrOn_changes
      | refine Changes.tally ?_ _ _ _ (by assumption) (by decide) | refine Changes.object ?_ _ _ _ (by assumption) (by decide)
      | refine Changes.any ?_ _ _ _ (by assumption) (by assumption) | intro _ | split | refine Changes.put ?_)

theorem execKeyRegistrationCheck_changes {pt : Part → Bool} {s0 : State} (slot queue : Nat) (s : State) (hK : Changes pt s0 s)
    (h_tallies : pt .tallies = true) (h_devMem : pt .devMem = true) (h_cmds : pt .cmds = true) (h_sdx : pt .sdx = true)
    (h_evt : pt .evt = true) (h_trace : pt .trace = true) : ∃ t, execKeyRegistrationCheck slot queue s = .next t ∧ Changes pt s0 t := by
  refine ⟨_, rfl, ?_⟩
  repeat' (with_reducible first
      | assumption | apply endRegistration_changes | apply readChecked_changes | refine Changes.fst ‹_› ?_ | refine Changes.snd ‹_› ?_
      | intro _ | extract_lets | split | dsimp +zetaDelta only | refine Changes.put ?_)

theorem issueKeyStream_changes {pt : Part → Bool} {s0 : State} (s : State) (c : Cmd) (p : KeyParams) (hK : Changes pt s0 s)
    (h_drawn : pt .drawn = true) (h_objects : pt .objects = true) (h_tallies : pt .tallies = true) (h_devMem : pt .devMem = true)
    (h_pairs : pt .pairs = true) (h_slots : pt .slots = true) (h_cmds : pt .cmds = true) (h_txa : pt .txa = true)
    (h_sdx : pt .sdx = true) (h_rsv : pt .rsv = true) (h_mdc : pt .mdc = true) (h_tok : pt .tok = true) (h_bat : pt .bat = true)
    (h_pools : pt .pools = true) (h_dlv : pt .dlv = true) (h_net : pt .net = true) (h_fed : pt .fed = true) (h_evt : pt .evt = true)
    (h_trace : pt .trace = true) : Changes pt s0 (issueKeyStream s c p) := by
  unfold issueKeyStream
  repeat' (with_reducible first
      | assumption | apply refuseUnwritten_changes | apply addDlv_changes | intro _ | extract_lets | split | dsimp +zetaDelta only
      | refine Changes.put ?_)

theorem startKey_changes {pt : Part → Bool} {s0 : State} (s : State) (i : KeyItem) (units : List Nat) (hK : Changes pt s0 s)
    (h_drawn : pt .drawn = true) (h_objects : pt .objects = true) (h_tallies : pt .tallies = true) (h_devMem : pt .devMem = true)
    (h_staging : pt .staging = true) (h_pairs : pt .pairs = true) (h_slots : pt .slots = true) (h_cmds : pt .cmds = true)
    (h_txa : pt .txa = true) (h_sdx : pt .sdx = true) (h_rsv : pt .rsv = true) (h_mdc : pt .mdc = true) (h_tok : pt .tok = true)
    (h_bat : pt .bat = true) (h_pools : pt .pools = true) (h_dlv : pt .dlv = true) (h_net : pt .net = true) (h_fed : pt .fed = true)
    (h_evt : pt .evt = true) (h_trace : pt .trace = true) : Changes pt s0 (startKey s i units) := by
  unfold startKey
  repeat' (with_reducible first
      | assumption | apply feedStream_changes | apply modDlv_changes | apply reserveFree_changes | refine Changes.fst ‹_› ?_
      | refine Changes.snd ‹_› ?_ | intro _ | extract_lets | split | dsimp +zetaDelta only | refine Changes.put ?_)

theorem refuseKey_changes {pt : Part → Bool} {s0 : State} (s : State) (i : KeyItem) (code flags : Nat) (hK : Changes pt s0 s)
    (h_drawn : pt .drawn = true) (h_objects : pt .objects = true) (h_tallies : pt .tallies = true) (h_devMem : pt .devMem = true)
    (h_pairs : pt .pairs = true) (h_slots : pt .slots = true) (h_cmds : pt .cmds = true) (h_txa : pt .txa = true)
    (h_sdx : pt .sdx = true) (h_rsv : pt .rsv = true) (h_mdc : pt .mdc = true) (h_tok : pt .tok = true) (h_bat : pt .bat = true)
    (h_pools : pt .pools = true) (h_dlv : pt .dlv = true) (h_net : pt .net = true) (h_fed : pt .fed = true) (h_evt : pt .evt = true)
    (h_trace : pt .trace = true) : Changes pt s0 (refuseKey s i code flags) := by
  unfold refuseKey
  repeat' (with_reducible first
      | assumption | apply finishDelivery_changes | apply doneHere_changes | apply sliverUse_changes | apply errFault_changes
      | refine Changes.fst ‹_› ?_ | refine Changes.snd ‹_› ?_ | intro _ | extract_lets | split | dsimp +zetaDelta only
      | refine Changes.put ?_)

theorem execKeyStreamDispatch_changes {pt : Part → Bool} {s0 : State} (s : State) (hK : Changes pt s0 s) (h_drawn : pt .drawn = true)
    (h_objects : pt .objects = true) (h_tallies : pt .tallies = true) (h_devMem : pt .devMem = true) (h_staging : pt .staging = true)
    (h_pairs : pt .pairs = true) (h_slots : pt .slots = true) (h_cmds : pt .cmds = true) (h_arbs : pt .arbs = true)
    (h_txa : pt .txa = true) (h_sdx : pt .sdx = true) (h_rsv : pt .rsv = true) (h_mdc : pt .mdc = true) (h_tok : pt .tok = true)
    (h_bat : pt .bat = true) (h_pools : pt .pools = true) (h_dlv : pt .dlv = true) (h_net : pt .net = true) (h_fed : pt .fed = true)
    (h_evt : pt .evt = true) (h_trace : pt .trace = true) : ∃ t, execKeyStreamDispatch s = .next t ∧ Changes pt s0 t := by
  refine ⟨_, rfl, ?_⟩
  repeat' (with_reducible first
      | assumption | apply refuseKey_changes | apply startKey_changes | refine takeUnits_changes _ _ (t := (_, _)) ?_ ‹_› ?_
      | refine takeUnits_changes _ _ ?_ ‹_› ?_ | apply arbGrant_changes | apply readChecked_changes | refine Changes.fst ‹_› ?_
      | refine Changes.snd ‹_› ?_ | intro _ | extract_lets | split | dsimp +zetaDelta only | refine Changes.put ?_)

end Sys2Proof.Machine
end

