-- ==== Sys2Proof/Laws/FramesData.lean ====
section
/-! SUPPORT. Which parts of the state the decoders, the tokeniser, shaping and batches leave as they were. -/

set_option linter.unusedTactic false
set_option linter.unreachableTactic false
set_option linter.unusedVariables false

namespace Sys2Proof.Machine

set_option Elab.async false

/-! ## MediaMath -/

theorem poisonRow_changes {pt : Part → Bool} {s0 : State} (s : State) (a n : Nat) (hK : Changes pt s0 s)
    (h_tallies : pt .tallies = true) (h_devMem : pt .devMem = true) : Changes pt s0 (poisonRow s a n) := by
  unfold poisonRow
  repeat' (with_reducible first | assumption | apply memWritePoisoned_changes | intro _)

theorem poisonRect_changes {pt : Part → Bool} {s0 : State} (s : State) (f : FrameShape) (buf : Nat) (r : Rect) (hK : Changes pt s0 s)
    (h_tallies : pt .tallies = true) (h_devMem : pt .devMem = true) : Changes pt s0 (poisonRect s f buf r) := by
  unfold poisonRect
  repeat' (with_reducible first
      | assumption | apply poisonRow_changes | apply Changes.foldl | apply Changes.foldlFst | apply Changes.foldlSnd | intro _)

theorem copyPoison_changes {pt : Part → Bool} {s0 : State} (s : State) (f : FrameShape) (source buf : Nat) (r : Rect)
    (hK : Changes pt s0 s) (h_tallies : pt .tallies = true) (h_devMem : pt .devMem = true) : Changes pt s0
    (copyPoison s f source buf r) := by
  unfold copyPoison
  repeat' (with_reducible first
      | assumption | apply poisonRow_changes | apply Changes.foldl | apply Changes.foldlFst | apply Changes.foldlSnd | intro _ | split)

theorem writePlane_changes {pt : Part → Bool} {s0 : State} (s : State) (addr pitch width elem : Nat) (vs : List Nat)
    (hK : Changes pt s0 s) (h_devMem : pt .devMem = true) : Changes pt s0 (writePlane s addr pitch width elem vs) := by
  unfold writePlane
  repeat' (with_reducible first
      | assumption | apply memWrite_changes | apply Changes.foldl | apply Changes.foldlFst | apply Changes.foldlSnd | intro _ | split)

theorem writeFrame_changes {pt : Part → Bool} {s0 : State} (s : State) (f : FrameShape) (buf : Nat) (planes : List (List Nat))
    (mv : List Int) (bits : List Nat) (hK : Changes pt s0 s) (h_drawn : pt .drawn = true) (h_devMem : pt .devMem = true) : Changes pt s0
    (writeFrame s f buf planes mv bits) := by
  unfold writeFrame
  repeat' (with_reducible first
      | assumption | apply writePlane_changes | apply reserveFree_changes | apply memWrite_changes | apply Changes.foldl
      | apply Changes.foldlFst | apply Changes.foldlSnd | refine Changes.fst ‹_› ?_ | refine Changes.snd ‹_› ?_ | intro _
      | extract_lets | split | dsimp +zetaDelta only)

/-! ## Media -/

theorem setCtx_changes {pt : Part → Bool} {s0 : State} (s : State) (k : Nat) (x : Ctx) (hK : Changes pt s0 s)
    (h_mdc : pt .mdc = true) : Changes pt s0 (setCtx s k x) := by
  unfold setCtx
  repeat' (with_reducible first | assumption | refine Changes.put ?_)

theorem setRun_changes {pt : Part → Bool} {s0 : State} (s : State) (r r' : DecodeRun) (hK : Changes pt s0 s)
    (h_mdc : pt .mdc = true) : Changes pt s0 (setRun s r r') := by
  unfold setRun
  repeat' (with_reducible first | assumption | split | refine Changes.put ?_)

theorem dropFrames_changes {pt : Part → Bool} {s0 : State} (s : State) (slot : Nat) (bufs : List Nat) (hK : Changes pt s0 s)
    (h_objects : pt .objects = true) (h_tallies : pt .tallies = true) (h_devMem : pt .devMem = true) (h_slots : pt .slots = true)
    (h_cmds : pt .cmds = true) (h_pools : pt .pools = true) (h_evt : pt .evt = true) (h_trace : pt .trace = true) : Changes pt s0
    (dropFrames s slot bufs) := by
  unfold dropFrames
  repeat' (with_reducible first | assumption | apply freeBuffers_changes | intro _)

theorem closeCtx_changes {pt : Part → Bool} {s0 : State} (s : State) (k slot : Nat) (hK : Changes pt s0 s)
    (h_objects : pt .objects = true) (h_tallies : pt .tallies = true) (h_devMem : pt .devMem = true) (h_slots : pt .slots = true)
    (h_cmds : pt .cmds = true) (h_mdc : pt .mdc = true) (h_pools : pt .pools = true) (h_evt : pt .evt = true)
    (h_trace : pt .trace = true) : Changes pt s0 (closeCtx s k slot) := by
  unfold closeCtx
  repeat' (with_reducible first
      | assumption | apply dropFrames_changes | apply setCtx_changes | apply countUnshown_changes | intro _ | extract_lets
      | dsimp +zetaDelta only)

theorem takeDecode_changes {pt : Part → Bool} {s0 : State} (s : State) (i : DecodeItem) (hK : Changes pt s0 s)
    (h_drawn : pt .drawn = true) (h_objects : pt .objects = true) (h_tallies : pt .tallies = true) (h_devMem : pt .devMem = true)
    (h_pairs : pt .pairs = true) (h_slots : pt .slots = true) (h_cmds : pt .cmds = true) (h_txa : pt .txa = true)
    (h_sdx : pt .sdx = true) (h_rsv : pt .rsv = true) (h_mdc : pt .mdc = true) (h_tok : pt .tok = true) (h_bat : pt .bat = true)
    (h_pools : pt .pools = true) (h_net : pt .net = true) (h_fed : pt .fed = true) (h_evt : pt .evt = true)
    (h_trace : pt .trace = true) : Changes pt s0 (takeDecode s i) := by
  unfold takeDecode
  repeat' (with_reducible first
      | assumption | apply closeCtx_changes | apply setCtx_changes | apply errFault_changes | refine Changes.fst ‹_› ?_
      | refine Changes.snd ‹_› ?_ | intro _ | extract_lets | split | dsimp +zetaDelta only | refine Changes.put ?_)

theorem decodeNext_changes {pt : Part → Bool} {s0 : State} (s : State) (video : Bool) (hK : Changes pt s0 s) {t}
    (ht : decodeNext s video = some t)
    (h_drawn : pt .drawn = true) (h_objects : pt .objects = true) (h_tallies : pt .tallies = true) (h_devMem : pt .devMem = true)
        (h_pairs : pt .pairs = true) (h_slots : pt .slots = true) (h_cmds : pt .cmds = true) (h_arbs : pt .arbs = true) (h_txa : pt .txa
        = true) (h_sdx : pt .sdx = true) (h_rsv : pt .rsv = true) (h_mdc : pt .mdc = true) (h_tok : pt .tok = true) (h_bat : pt .bat =
        true) (h_pools : pt .pools = true) (h_net : pt .net = true) (h_fed : pt .fed = true) (h_evt : pt .evt = true) (h_trace : pt
        .trace = true) : Changes pt s0 t := by
  unfold decodeNext at ht
  obtain ⟨n, _, hn⟩ := Option.bind_eq_some_iff.mp ht
  obtain ⟨i, _, hi⟩ := Option.map_eq_some_iff.mp hn
  subst hi
  apply takeDecode_changes <;> first | assumption | (split <;> first | assumption | (apply arbGrant_changes <;> assumption))

theorem execMdcDecodeDispatch_changes {pt : Part → Bool} {s0 : State} (s : State) (hK : Changes pt s0 s) (h_drawn : pt .drawn = true)
    (h_objects : pt .objects = true) (h_tallies : pt .tallies = true) (h_devMem : pt .devMem = true) (h_pairs : pt .pairs = true)
    (h_slots : pt .slots = true) (h_cmds : pt .cmds = true) (h_arbs : pt .arbs = true) (h_txa : pt .txa = true) (h_sdx : pt .sdx = true)
    (h_rsv : pt .rsv = true) (h_mdc : pt .mdc = true) (h_tok : pt .tok = true) (h_bat : pt .bat = true) (h_pools : pt .pools = true)
    (h_net : pt .net = true) (h_fed : pt .fed = true) (h_evt : pt .evt = true)
    (h_trace : pt .trace = true) : ∃ t, execMdcDecodeDispatch s = .next t ∧ Changes pt s0 t := by
  refine ⟨_, rfl, ?_⟩
  repeat' (with_reducible first
      | assumption | refine decodeNext_changes _ _ (t := (_, _)) ?_ ‹_› ?_ ?_ ?_ ?_ ?_ ?_ ?_ ?_ ?_ ?_ ?_ ?_ ?_ ?_ ?_ ?_ ?_ ?_ ?_
      | refine decodeNext_changes _ _ ?_ ‹_› ?_ ?_ ?_ ?_ ?_ ?_ ?_ ?_ ?_ ?_ ?_ ?_ ?_ ?_ ?_ ?_ ?_ ?_ ?_ | refine Changes.fst ‹_› ?_
      | refine Changes.snd ‹_› ?_ | intro _ | split)

theorem failRun_changes {pt : Part → Bool} {s0 : State} (s : State) (r : DecodeRun) (code : Nat) (hK : Changes pt s0 s)
    (h_mdc : pt .mdc = true) : Changes pt s0 (failRun s r code) := by
  unfold failRun
  repeat' (with_reducible first | assumption | apply setRun_changes | intro _ | split | refine Changes.put ?_)

theorem failHeader_changes {pt : Part → Bool} {s0 : State} (s : State) (r : DecodeRun) (code : Nat) (hK : Changes pt s0 s)
    (h_tallies : pt .tallies = true) (h_mdc : pt .mdc = true) (h_evt : pt .evt = true) (h_trace : pt .trace = true) : Changes pt s0
    (failHeader s r code) := by
  unfold failHeader
  repeat' (with_reducible first
      | assumption | apply failRun_changes | apply setCtx_changes | apply raiseErr_changes | refine Changes.fst ‹_› ?_
      | refine Changes.snd ‹_› ?_ | intro _ | extract_lets | split | dsimp +zetaDelta only | refine Changes.put ?_)

theorem restoreCtx_changes {pt : Part → Bool} {s0 : State} (s : State) (r : DecodeRun) (k : Nat) (hK : Changes pt s0 s)
    (h_tallies : pt .tallies = true) (h_mdc : pt .mdc = true) : Changes pt s0 (restoreCtx s r k) := by
  unfold restoreCtx
  repeat' (with_reducible first
      | assumption | apply setCtx_changes | apply countUnshown_changes | intro _ | extract_lets | dsimp +zetaDelta only)

theorem retryRun_changes {pt : Part → Bool} {s0 : State} (s : State) (r : DecodeRun) (unit : Nat) (hK : Changes pt s0 s)
    (h_objects : pt .objects = true) (h_tallies : pt .tallies = true) (h_devMem : pt .devMem = true) (h_slots : pt .slots = true)
    (h_cmds : pt .cmds = true) (h_txa : pt .txa = true) (h_sdx : pt .sdx = true) (h_rsv : pt .rsv = true) (h_mdc : pt .mdc = true)
    (h_tok : pt .tok = true) (h_pools : pt .pools = true) (h_evt : pt .evt = true) (h_trace : pt .trace = true) : Changes pt s0
    (retryRun s r unit) := by
  unfold retryRun
  repeat' (with_reducible first
      | assumption | apply restoreCtx_changes | apply dropFrames_changes | apply unitDone_changes | apply retryLater_changes
      | apply Changes.foldl | apply Changes.foldlFst | apply Changes.foldlSnd | refine Changes.fst ‹_› ?_ | refine Changes.snd ‹_› ?_
      | intro _ | extract_lets | split | dsimp +zetaDelta only | refine Changes.put ?_)

theorem runBuffer_changes {pt : Part → Bool} {s0 : State} (s : State) (r : DecodeRun) (unit size : Nat) (use : State → Nat → State)
    (he : ∀ s n, Changes pt s0 s → Changes pt s0 (use s n)) (hK : Changes pt s0 s) (h_objects : pt .objects = true)
    (h_tallies : pt .tallies = true) (h_devMem : pt .devMem = true) (h_slots : pt .slots = true) (h_cmds : pt .cmds = true)
    (h_arbs : pt .arbs = true) (h_txa : pt .txa = true) (h_sdx : pt .sdx = true) (h_rsv : pt .rsv = true) (h_mdc : pt .mdc = true)
    (h_tok : pt .tok = true) (h_pools : pt .pools = true) (h_net : pt .net = true) (h_evt : pt .evt = true)
    (h_trace : pt .trace = true) : Changes pt s0 (runBuffer s r unit size use) := by
  unfold runBuffer
  repeat' (with_reducible first
      | assumption | apply retryRun_changes | apply failRun_changes | apply needBuffer_changes | apply he | refine Changes.fst ‹_› ?_
      | refine Changes.snd ‹_› ?_ | intro _ | split)

theorem imageFrame_changes {pt : Part → Bool} {s0 : State} (s : State) (r : DecodeRun) (h : MediaHeader) (hK : Changes pt s0 s)
    (h_objects : pt .objects = true) (h_tallies : pt .tallies = true) (h_devMem : pt .devMem = true) (h_slots : pt .slots = true)
    (h_cmds : pt .cmds = true) (h_arbs : pt .arbs = true) (h_txa : pt .txa = true) (h_sdx : pt .sdx = true) (h_rsv : pt .rsv = true)
    (h_mdc : pt .mdc = true) (h_tok : pt .tok = true) (h_pools : pt .pools = true) (h_net : pt .net = true) (h_evt : pt .evt = true)
    (h_trace : pt .trace = true) : Changes pt s0 (imageFrame s r h) := by
  unfold imageFrame
  repeat' (with_reducible first | assumption | apply runBuffer_changes | apply setRun_changes | intro _ | split | refine Changes.put ?_)

theorem passHeader_changes {pt : Part → Bool} {s0 : State} (s : State) (r : DecodeRun) (h : Option MediaHeader) (hK : Changes pt s0 s)
    (h_mdc : pt .mdc = true) : Changes pt s0 (passHeader s r h) := by
  unfold passHeader
  repeat' (with_reducible first | assumption | apply setRun_changes | intro _ | refine Changes.put ?_)

theorem imageUnit_changes {pt : Part → Bool} {s0 : State} (s : State) (r : DecodeRun) (h : MediaHeader) (hK : Changes pt s0 s)
    (h_objects : pt .objects = true) (h_tallies : pt .tallies = true) (h_devMem : pt .devMem = true) (h_slots : pt .slots = true)
    (h_cmds : pt .cmds = true) (h_arbs : pt .arbs = true) (h_txa : pt .txa = true) (h_sdx : pt .sdx = true) (h_rsv : pt .rsv = true)
    (h_mdc : pt .mdc = true) (h_tok : pt .tok = true) (h_pools : pt .pools = true) (h_net : pt .net = true) (h_evt : pt .evt = true)
    (h_trace : pt .trace = true) : Changes pt s0 (imageUnit s r h) := by
  unfold imageUnit
  repeat' (with_reducible first
      | assumption | apply passHeader_changes | apply imageFrame_changes | apply runBuffer_changes | apply failHeader_changes
      | apply setRun_changes | intro _ | extract_lets | split | dsimp +zetaDelta only | refine Changes.put ?_)

theorem switchCtx_changes {pt : Part → Bool} {s0 : State} (s : State) (core : Nat) (k : Option Nat) (hK : Changes pt s0 s)
    (h_tallies : pt .tallies = true) (h_mdc : pt .mdc = true) : Changes pt s0 (switchCtx s core k) := by
  unfold switchCtx
  repeat' (with_reducible first
      | assumption | refine bump_tally _ _ ?_ (by assumption) (by decide) | refine bump_object _ _ ?_ (by assumption) (by decide)
      | refine bump_any _ _ ?_ (by assumption) (by assumption) | refine bumpBy_tally _ _ _ ?_ (by assumption) (by decide)
      | refine bumpBy_object _ _ _ ?_ (by assumption) (by decide) | refine bumpBy_any _ _ _ ?_ (by assumption) (by assumption)
      | refine Changes.tally ?_ _ _ _ (by assumption) (by decide) | refine Changes.object ?_ _ _ _ (by assumption) (by decide)
      | refine Changes.any ?_ _ _ _ (by assumption) (by assumption) | intro _ | extract_lets | split | dsimp +zetaDelta only
      | refine Changes.put ?_)

theorem videoPicture_changes {pt : Part → Bool} {s0 : State} (s : State) (core : Nat) (r : DecodeRun) (head : PictureHead)
    (hK : Changes pt s0 s) (h_objects : pt .objects = true) (h_tallies : pt .tallies = true) (h_devMem : pt .devMem = true)
    (h_slots : pt .slots = true) (h_cmds : pt .cmds = true) (h_arbs : pt .arbs = true) (h_txa : pt .txa = true) (h_sdx : pt .sdx = true)
    (h_rsv : pt .rsv = true) (h_mdc : pt .mdc = true) (h_tok : pt .tok = true) (h_pools : pt .pools = true) (h_net : pt .net = true)
    (h_evt : pt .evt = true) (h_trace : pt .trace = true) : Changes pt s0 (videoPicture s core r head) := by
  unfold videoPicture
  repeat' (with_reducible first
      | assumption | refine bump_tally _ _ ?_ (by assumption) (by decide) | refine bump_object _ _ ?_ (by assumption) (by decide)
      | refine bump_any _ _ ?_ (by assumption) (by assumption) | refine bumpBy_tally _ _ _ ?_ (by assumption) (by decide)
      | refine bumpBy_object _ _ _ ?_ (by assumption) (by decide) | refine bumpBy_any _ _ _ ?_ (by assumption) (by assumption)
      | apply switchCtx_changes | apply passHeader_changes | apply runBuffer_changes | apply failHeader_changes | apply setRun_changes
      | apply setCtx_changes | refine Changes.tally ?_ _ _ _ (by assumption) (by decide)
      | refine Changes.object ?_ _ _ _ (by assumption) (by decide) | refine Changes.any ?_ _ _ _ (by assumption) (by assumption)
      | refine Changes.fst ‹_› ?_ | refine Changes.snd ‹_› ?_ | intro _ | extract_lets | split | dsimp +zetaDelta only
      | refine Changes.put ?_)

theorem grantRun_changes {pt : Part → Bool} {s0 : State} (s : State) (core : Nat) (r : DecodeRun) (slots : List Nat)
    (hK : Changes pt s0 s) (h_arbs : pt .arbs = true) : Changes pt s0 (grantRun s core r slots) := by
  unfold grantRun
  repeat' (with_reducible first | assumption | apply arbGrant_changes | intro _ | split)

theorem finishUnit_changes {pt : Part → Bool} {s0 : State} (s : State) (core : Nat) (hK : Changes pt s0 s)
    (h_objects : pt .objects = true) (h_tallies : pt .tallies = true) (h_txa : pt .txa = true) (h_sdx : pt .sdx = true)
    (h_rsv : pt .rsv = true) (h_mdc : pt .mdc = true) (h_tok : pt .tok = true) : Changes pt s0 (finishUnit s core) := by
  unfold finishUnit
  repeat' (with_reducible first
      | assumption | apply setRun_changes | apply unitDone_changes | refine Changes.fst ‹_› ?_ | refine Changes.snd ‹_› ?_ | intro _
      | split | refine Changes.put ?_)

theorem loseUnit_changes {pt : Part → Bool} {s0 : State} (s : State) (r : DecodeRun) (sequence : Bool) (hK : Changes pt s0 s)
    (h_tallies : pt .tallies = true) (h_mdc : pt .mdc = true) (h_evt : pt .evt = true) (h_trace : pt .trace = true) : Changes pt s0
    (loseUnit s r sequence) := by
  unfold loseUnit
  repeat' (with_reducible first
      | assumption | apply setCtx_changes | apply raiseErr_changes | refine Changes.fst ‹_› ?_ | refine Changes.snd ‹_› ?_ | intro _
      | extract_lets | split | dsimp +zetaDelta only | refine Changes.put ?_)

theorem outputFrame_changes {pt : Part → Bool} {s0 : State} (s : State) (r : DecodeRun) (buf number flags : Nat) (hK : Changes pt s0 s)
    (h_tallies : pt .tallies = true) (h_devMem : pt .devMem = true) : Changes pt s0 (outputFrame s r buf number flags).1 := by
  unfold outputFrame
  repeat' (with_reducible first
      | assumption | refine bump_tally _ _ ?_ (by assumption) (by decide) | refine bump_object _ _ ?_ (by assumption) (by decide)
      | refine bump_any _ _ ?_ (by assumption) (by assumption) | refine bumpBy_tally _ _ _ ?_ (by assumption) (by decide)
      | refine bumpBy_object _ _ _ ?_ (by assumption) (by decide) | refine bumpBy_any _ _ _ ?_ (by assumption) (by assumption)
      | apply memWrite_changes | refine Changes.tally ?_ _ _ _ (by assumption) (by decide)
      | refine Changes.object ?_ _ _ _ (by assumption) (by decide) | refine Changes.any ?_ _ _ _ (by assumption) (by assumption)
      | intro _ | extract_lets | split | dsimp +zetaDelta only | refine Changes.put ?_)

theorem outputPictures_changes {pt : Part → Bool} {s0 : State} (s : State) (k : Nat) (r : DecodeRun) (nums : List Nat)
    (hK : Changes pt s0 s) (h_tallies : pt .tallies = true) (h_devMem : pt .devMem = true) (h_mdc : pt .mdc = true) : Changes pt s0
    (outputPictures s k r nums).1 := by
  unfold outputPictures
  repeat' (with_reducible first
      | assumption | apply outputFrame_changes | apply setCtx_changes | apply Changes.foldl | apply Changes.foldlFst
      | apply Changes.foldlSnd | refine Changes.fst ‹_› ?_ | refine Changes.snd ‹_› ?_ | intro _ | extract_lets | split
      | dsimp +zetaDelta only | refine Changes.put ?_)

theorem markPictures_changes {pt : Part → Bool} {s0 : State} (s : State) (k : Nat) (marks : List (Nat × RefMark)) (hK : Changes pt s0 s)
    (h_mdc : pt .mdc = true) : Changes pt s0 (markPictures s k marks) := by
  unfold markPictures
  repeat' (with_reducible first
      | assumption | apply setCtx_changes | refine Changes.fst ‹_› ?_ | refine Changes.snd ‹_› ?_ | intro _ | split
      | refine Changes.put ?_)

theorem dropPictures_changes {pt : Part → Bool} {s0 : State} (s : State) (k slot : Nat) (hK : Changes pt s0 s)
    (h_objects : pt .objects = true) (h_tallies : pt .tallies = true) (h_devMem : pt .devMem = true) (h_slots : pt .slots = true)
    (h_cmds : pt .cmds = true) (h_mdc : pt .mdc = true) (h_pools : pt .pools = true) (h_evt : pt .evt = true)
    (h_trace : pt .trace = true) : Changes pt s0 (dropPictures s k slot) := by
  unfold dropPictures
  repeat' (with_reducible first
      | assumption | apply dropFrames_changes | apply setCtx_changes | apply countUnshown_changes | intro _ | extract_lets
      | dsimp +zetaDelta only | refine Changes.put ?_)

theorem saveCtx_changes {pt : Part → Bool} {s0 : State} (s : State) (k : Nat) (hK : Changes pt s0 s) (h_drawn : pt .drawn = true)
    (h_devMem : pt .devMem = true) : Changes pt s0 (saveCtx s k) := by
  unfold saveCtx
  repeat' (with_reducible first
      | assumption | apply reserveFree_changes | apply memWrite_changes | refine Changes.fst ‹_› ?_ | refine Changes.snd ‹_› ?_
      | intro _ | extract_lets | split | dsimp +zetaDelta only)

theorem showAgain_changes {pt : Part → Bool} {s0 : State} (s : State) (r : DecodeRun) (k coded : Nat) (marks : List (Nat × RefMark))
    (hK : Changes pt s0 s) (h_drawn : pt .drawn = true) (h_objects : pt .objects = true) (h_tallies : pt .tallies = true)
    (h_devMem : pt .devMem = true) (h_slots : pt .slots = true) (h_cmds : pt .cmds = true) (h_mdc : pt .mdc = true)
    (h_pools : pt .pools = true) (h_evt : pt .evt = true) (h_trace : pt .trace = true) : Changes pt s0
    (showAgain s r k coded marks) := by
  unfold showAgain
  repeat' (with_reducible first
      | assumption | refine bump_tally _ _ ?_ (by assumption) (by decide) | refine bump_object _ _ ?_ (by assumption) (by decide)
      | refine bump_any _ _ ?_ (by assumption) (by assumption) | refine bumpBy_tally _ _ _ ?_ (by assumption) (by decide)
      | refine bumpBy_object _ _ _ ?_ (by assumption) (by decide) | refine bumpBy_any _ _ _ ?_ (by assumption) (by assumption)
      | apply saveCtx_changes | apply dropPictures_changes | apply markPictures_changes | apply outputPictures_changes
      | apply setRun_changes | refine Changes.tally ?_ _ _ _ (by assumption) (by decide)
      | refine Changes.object ?_ _ _ _ (by assumption) (by decide) | refine Changes.any ?_ _ _ _ (by assumption) (by assumption)
      | intro _ | extract_lets | split | dsimp +zetaDelta only)

theorem execMdcDecodingUnitStart_changes {pt : Part → Bool} {s0 : State} (core : Nat) (unit : MediaUnit) (s : State)
    (hK : Changes pt s0 s) (h_drawn : pt .drawn = true) (h_objects : pt .objects = true) (h_tallies : pt .tallies = true)
    (h_devMem : pt .devMem = true) (h_slots : pt .slots = true) (h_cmds : pt .cmds = true) (h_arbs : pt .arbs = true)
    (h_txa : pt .txa = true) (h_sdx : pt .sdx = true) (h_rsv : pt .rsv = true) (h_mdc : pt .mdc = true) (h_tok : pt .tok = true)
    (h_pools : pt .pools = true) (h_net : pt .net = true) (h_evt : pt .evt = true)
    (h_trace : pt .trace = true) : ∃ t, execMdcDecodingUnitStart core unit s = .next t ∧ Changes pt s0 t := by
  refine ⟨_, rfl, ?_⟩
  repeat' (with_reducible first
      | assumption | apply showAgain_changes | apply loseUnit_changes | apply finishUnit_changes | apply grantRun_changes
      | apply videoPicture_changes | apply switchCtx_changes | apply imageUnit_changes | apply setRun_changes
      | refine Changes.fst ‹_› ?_ | refine Changes.snd ‹_› ?_ | intro _ | extract_lets | split | dsimp +zetaDelta only
      | refine Changes.put ?_)

theorem raiseMissing_changes {pt : Part → Bool} {s0 : State} (s : State) (slot : Nat) (f : FrameShape) (x : Ctx) (ordered : Bool)
    (u : RefUse) (hK : Changes pt s0 s) (h_objects : pt .objects = true) (h_tallies : pt .tallies = true) (h_evt : pt .evt = true)
    (h_trace : pt .trace = true) : Changes pt s0 (raiseMissing s slot f x ordered u) := by
  unfold raiseMissing
  repeat' (with_reducible first
      | assumption | refine bump_tally _ _ ?_ (by assumption) (by decide) | refine bump_object _ _ ?_ (by assumption) (by decide)
      | refine bump_any _ _ ?_ (by assumption) (by assumption) | refine bumpBy_tally _ _ _ ?_ (by assumption) (by decide)
      | refine bumpBy_object _ _ _ ?_ (by assumption) (by decide) | refine bumpBy_any _ _ _ ?_ (by assumption) (by assumption)
      | apply raiseErr_changes | refine Changes.tally ?_ _ _ _ (by assumption) (by decide)
      | refine Changes.object ?_ _ _ _ (by assumption) (by decide) | refine Changes.any ?_ _ _ _ (by assumption) (by assumption)
      | intro _ | split)

theorem raisePoisoned_changes {pt : Part → Bool} {s0 : State} (s : State) (slot : Nat) (f : FrameShape) (x : Ctx) (ordered : Bool)
    (u : RefUse) (hK : Changes pt s0 s) (h_tallies : pt .tallies = true) (h_evt : pt .evt = true)
    (h_trace : pt .trace = true) : Changes pt s0 (raisePoisoned s slot f x ordered u) := by
  unfold raisePoisoned
  repeat' (with_reducible first
      | assumption | apply readChecked_changes | refine Changes.fst ‹_› ?_ | refine Changes.snd ‹_› ?_ | intro _ | split)

theorem raisePicture_changes {pt : Part → Bool} {s0 : State} (s : State) (i : DecodeItem) (f : FrameShape) (x : Ctx) (p : Picture)
    (ordered : Bool) (flags : Nat) (hK : Changes pt s0 s) (h_objects : pt .objects = true) (h_tallies : pt .tallies = true)
    (h_evt : pt .evt = true) (h_trace : pt .trace = true) : Changes pt s0 (raisePicture s i f x p ordered flags) := by
  unfold raisePicture
  repeat' (with_reducible first
      | assumption | apply raisePoisoned_changes | apply raiseMissing_changes | apply raiseErr_changes | apply Changes.foldl
      | apply Changes.foldlFst | apply Changes.foldlSnd | intro _ | extract_lets | split | dsimp +zetaDelta only)

theorem poisonFrame_changes {pt : Part → Bool} {s0 : State} (s : State) (f : FrameShape) (buf : Nat) (area : List Rect)
    (hK : Changes pt s0 s) (h_tallies : pt .tallies = true) (h_devMem : pt .devMem = true) : Changes pt s0
    (poisonFrame s f buf area) := by
  unfold poisonFrame
  repeat' (with_reducible first
      | assumption | apply poisonRect_changes | apply Changes.foldl | apply Changes.foldlFst | apply Changes.foldlSnd | intro _)

theorem imageBlocks_changes {pt : Part → Bool} {s0 : State} (s : State) (f : FrameShape) (hK : Changes pt s0 s)
    (h_drawn : pt .drawn = true) : Changes pt s0 (imageBlocks s f).2 := by
  unfold imageBlocks
  repeat' (with_reducible first
      | assumption | apply drawFree_changes | refine Changes.fst ‹_› ?_ | refine Changes.snd ‹_› ?_ | intro _ | split)

theorem imageData_changes {pt : Part → Bool} {s0 : State} (s : State) (h : MediaHeader) (f : FrameShape) (c : Concealment)
    (x0 : PictureData) (hK : Changes pt s0 s) (h_drawn : pt .drawn = true) : Changes pt s0 (imageData s h f c x0).2.2 := by
  unfold imageData
  repeat' (with_reducible first
      | assumption | apply reserveFree_changes | refine Changes.fst ‹_› ?_ | refine Changes.snd ‹_› ?_ | intro _ | extract_lets | split
      | dsimp +zetaDelta only)

theorem failSample_changes {pt : Part → Bool} {s0 : State} (s : State) (r : DecodeRun) (code : Nat) (hK : Changes pt s0 s)
    (h_tallies : pt .tallies = true) (h_mdc : pt .mdc = true) (h_evt : pt .evt = true) (h_trace : pt .trace = true) : Changes pt s0
    (failSample s r code).1 := by
  unfold failSample
  repeat' (with_reducible first | assumption | apply failRun_changes | apply raiseErr_changes | intro _ | split | refine Changes.put ?_)

theorem imageOutput_changes {pt : Part → Bool} {s0 : State} (s : State) (r : DecodeRun) (h : MediaHeader) (buf : Nat) (p : Picture)
    (hK : Changes pt s0 s) (h_drawn : pt .drawn = true) (h_objects : pt .objects = true) (h_tallies : pt .tallies = true)
    (h_devMem : pt .devMem = true) (h_mdc : pt .mdc = true) (h_evt : pt .evt = true) (h_trace : pt .trace = true) : Changes pt s0
    (imageOutput s r h buf p) := by
  unfold imageOutput
  repeat' (with_reducible first
      | assumption | refine bump_tally _ _ ?_ (by assumption) (by decide) | refine bump_object _ _ ?_ (by assumption) (by decide)
      | refine bump_any _ _ ?_ (by assumption) (by assumption) | refine bumpBy_tally _ _ _ ?_ (by assumption) (by decide)
      | refine bumpBy_object _ _ _ ?_ (by assumption) (by decide) | refine bumpBy_any _ _ _ ?_ (by assumption) (by assumption)
      | apply imageData_changes | apply imageBlocks_changes | apply raisePicture_changes | apply outputFrame_changes
      | apply setRun_changes | apply writeFrame_changes | apply memWrite_changes
      | refine Changes.tally ?_ _ _ _ (by assumption) (by decide) | refine Changes.object ?_ _ _ _ (by assumption) (by decide)
      | refine Changes.any ?_ _ _ _ (by assumption) (by assumption) | refine Changes.fst ‹_› ?_ | refine Changes.snd ‹_› ?_ | intro _
      | extract_lets | split | dsimp +zetaDelta only | refine Changes.put ?_)

theorem imageComplete_changes {pt : Part → Bool} {s0 : State} (s : State) (r : DecodeRun) (h : MediaHeader) (buf : Nat) (p : Picture)
    (hK : Changes pt s0 s) (h_drawn : pt .drawn = true) (h_objects : pt .objects = true) (h_tallies : pt .tallies = true)
    (h_devMem : pt .devMem = true) (h_mdc : pt .mdc = true) (h_evt : pt .evt = true) (h_trace : pt .trace = true) : Changes pt s0
    (imageComplete s r h buf p) := by
  unfold imageComplete
  repeat' (with_reducible first | assumption | apply imageOutput_changes | apply failSample_changes | intro _ | split)

theorem makeRoom_changes {pt : Part → Bool} {s0 : State} (s : State) (k : Nat) (r : DecodeRun) (hK : Changes pt s0 s)
    (h_objects : pt .objects = true) (h_tallies : pt .tallies = true) (h_devMem : pt .devMem = true) (h_slots : pt .slots = true)
    (h_cmds : pt .cmds = true) (h_mdc : pt .mdc = true) (h_pools : pt .pools = true) (h_evt : pt .evt = true)
    (h_trace : pt .trace = true) : Changes pt s0 (makeRoom s k r).1 := by
  unfold makeRoom
  repeat' (with_reducible first
      | assumption | apply dropPictures_changes | apply markPictures_changes | apply outputPictures_changes | apply setRun_changes
      | refine Changes.fst ‹_› ?_ | refine Changes.snd ‹_› ?_ | intro _ | extract_lets | split | dsimp +zetaDelta only)

theorem poolPicture_changes {pt : Part → Bool} {s0 : State} (s : State) (k : Nat) (starts : Bool) (me : RefPic) (hK : Changes pt s0 s)
    (h_mdc : pt .mdc = true) : Changes pt s0 (poolPicture s k starts me) := by
  unfold poolPicture
  repeat' (with_reducible first
      | assumption | apply setCtx_changes | intro _ | extract_lets | split | dsimp +zetaDelta only | refine Changes.put ?_)

theorem markPoisoned_changes {pt : Part → Bool} {s0 : State} (s : State) (f : FrameShape) (source : Option RefPic) (buf : Nat)
    (area : List Rect) (c : Concealment) (hK : Changes pt s0 s) (h_tallies : pt .tallies = true)
    (h_devMem : pt .devMem = true) : Changes pt s0 (markPoisoned s f source buf area c) := by
  unfold markPoisoned
  repeat' (with_reducible first
      | assumption | apply poisonFrame_changes | apply copyPoison_changes | apply Changes.foldl | apply Changes.foldlFst
      | apply Changes.foldlSnd | refine Changes.fst ‹_› ?_ | refine Changes.snd ‹_› ?_ | intro _ | extract_lets | split
      | dsimp +zetaDelta only)

theorem raiseSource_changes {pt : Part → Bool} {s0 : State} (s : State) (slot : Nat) (f : FrameShape) (source : Option RefPic)
    (c : Concealment) (hK : Changes pt s0 s) (h_tallies : pt .tallies = true) (h_evt : pt .evt = true)
    (h_trace : pt .trace = true) : Changes pt s0 (raiseSource s slot f source c) := by
  unfold raiseSource
  repeat' (with_reducible first
      | assumption | apply readChecked_changes | refine Changes.fst ‹_› ?_ | refine Changes.snd ‹_› ?_ | intro _ | split)

theorem videoComplete_changes {pt : Part → Bool} {s0 : State} (s : State) (r : DecodeRun) (h : MediaHeader) (d : PictureHead)
    (k buf : Nat) (p : Picture) (hK : Changes pt s0 s) (h_drawn : pt .drawn = true) (h_objects : pt .objects = true)
    (h_tallies : pt .tallies = true) (h_devMem : pt .devMem = true) (h_slots : pt .slots = true) (h_cmds : pt .cmds = true)
    (h_mdc : pt .mdc = true) (h_pools : pt .pools = true) (h_evt : pt .evt = true) (h_trace : pt .trace = true) : Changes pt s0
    (videoComplete s r h d k buf p) := by
  unfold videoComplete
  repeat' (with_reducible first
      | assumption | refine bump_tally _ _ ?_ (by assumption) (by decide) | refine bump_object _ _ ?_ (by assumption) (by decide)
      | refine bump_any _ _ ?_ (by assumption) (by assumption) | refine bumpBy_tally _ _ _ ?_ (by assumption) (by decide)
      | refine bumpBy_object _ _ _ ?_ (by assumption) (by decide) | refine bumpBy_any _ _ _ ?_ (by assumption) (by assumption)
      | apply raiseSource_changes | apply markPoisoned_changes | apply poolPicture_changes | apply makeRoom_changes
      | apply raisePicture_changes | apply saveCtx_changes | apply dropPictures_changes | apply markPictures_changes
      | apply outputPictures_changes | apply setRun_changes | apply writeFrame_changes | apply memWrite_changes
      | refine Changes.tally ?_ _ _ _ (by assumption) (by decide) | refine Changes.object ?_ _ _ _ (by assumption) (by decide)
      | refine Changes.any ?_ _ _ _ (by assumption) (by assumption) | intro _ | extract_lets | split | dsimp +zetaDelta only
      | refine Changes.put ?_)

theorem execMdcPictureComplete_changes {pt : Part → Bool} {s0 : State} (core : Nat) (picture : Picture) (s : State)
    (hK : Changes pt s0 s) (h_drawn : pt .drawn = true) (h_objects : pt .objects = true) (h_tallies : pt .tallies = true)
    (h_devMem : pt .devMem = true) (h_slots : pt .slots = true) (h_cmds : pt .cmds = true) (h_txa : pt .txa = true)
    (h_sdx : pt .sdx = true) (h_rsv : pt .rsv = true) (h_mdc : pt .mdc = true) (h_tok : pt .tok = true) (h_pools : pt .pools = true)
    (h_evt : pt .evt = true) (h_trace : pt .trace = true) : ∃ t, execMdcPictureComplete core picture s = .next t ∧ Changes pt s0 t := by
  refine ⟨_, rfl, ?_⟩
  repeat' (with_reducible first
      | assumption | apply videoComplete_changes | apply imageComplete_changes | apply unitDone_changes | apply Changes.foldl
      | apply Changes.foldlFst | apply Changes.foldlSnd | refine Changes.fst ‹_› ?_ | refine Changes.snd ‹_› ?_ | intro _
      | extract_lets | split | dsimp +zetaDelta only)

theorem rawComplete_changes {pt : Part → Bool} {s0 : State} (s : State) (r : DecodeRun) (buf : Nat) (h : MediaHeader) (b : List Byte)
    (hK : Changes pt s0 s) (h_drawn : pt .drawn = true) (h_tallies : pt .tallies = true) (h_devMem : pt .devMem = true) : Changes pt s0
    (rawComplete s r buf h b).1 := by
  unfold rawComplete
  repeat' (with_reducible first
      | assumption | refine bump_tally _ _ ?_ (by assumption) (by decide) | refine bump_object _ _ ?_ (by assumption) (by decide)
      | refine bump_any _ _ ?_ (by assumption) (by assumption) | refine bumpBy_tally _ _ _ ?_ (by assumption) (by decide)
      | refine bumpBy_object _ _ _ ?_ (by assumption) (by decide) | refine bumpBy_any _ _ _ ?_ (by assumption) (by assumption)
      | apply outputFrame_changes | apply writeFrame_changes | apply drawFree_changes | apply memWrite_changes
      | refine Changes.tally ?_ _ _ _ (by assumption) (by decide) | refine Changes.object ?_ _ _ _ (by assumption) (by decide)
      | refine Changes.any ?_ _ _ _ (by assumption) (by assumption) | refine Changes.fst ‹_› ?_ | refine Changes.snd ‹_› ?_ | intro _
      | extract_lets | split | dsimp +zetaDelta only)

theorem reportDecode_changes {pt : Part → Bool} {s0 : State} (s : State) (r : DecodeRun) (hK : Changes pt s0 s)
    (h_objects : pt .objects = true) (h_tallies : pt .tallies = true) (h_devMem : pt .devMem = true) (h_slots : pt .slots = true)
    (h_cmds : pt .cmds = true) (h_mdc : pt .mdc = true) (h_bat : pt .bat = true) (h_pools : pt .pools = true) (h_evt : pt .evt = true)
    (h_trace : pt .trace = true) : Changes pt s0 (reportDecode s r) := by
  unfold reportDecode
  repeat' (with_reducible first
      | assumption | apply dropFrames_changes | intro _ | extract_lets | split | dsimp +zetaDelta only | refine Changes.put ?_)

theorem taintPictures_changes {pt : Part → Bool} {s0 : State} (s : State) (k : Nat) (mine : List Nat) (hK : Changes pt s0 s)
    (h_mdc : pt .mdc = true) : Changes pt s0 (taintPictures s k mine) := by
  unfold taintPictures
  repeat' (with_reducible first
      | assumption | apply setCtx_changes | intro _ | extract_lets | split | dsimp +zetaDelta only | refine Changes.put ?_)

theorem endSample_changes {pt : Part → Bool} {s0 : State} (s : State) (r : DecodeRun) (crcBad : Bool) (hK : Changes pt s0 s)
    (h_drawn : pt .drawn = true) (h_objects : pt .objects = true) (h_tallies : pt .tallies = true) (h_devMem : pt .devMem = true)
    (h_slots : pt .slots = true) (h_cmds : pt .cmds = true) (h_txa : pt .txa = true) (h_sdx : pt .sdx = true) (h_rsv : pt .rsv = true)
    (h_mdc : pt .mdc = true) (h_tok : pt .tok = true) (h_bat : pt .bat = true) (h_pools : pt .pools = true) (h_evt : pt .evt = true)
    (h_trace : pt .trace = true) : Changes pt s0 (endSample s r crcBad) := by
  unfold endSample
  repeat' (with_reducible first
      | assumption | apply taintPictures_changes | apply reportDecode_changes | apply outputPictures_changes | apply closeCtx_changes
      | apply dropFrames_changes | apply setRun_changes | apply unitDone_changes | apply freeBuffers_changes | apply drawFree_changes
      | apply Changes.foldl | apply Changes.foldlFst | apply Changes.foldlSnd | refine Changes.fst ‹_› ?_ | refine Changes.snd ‹_› ?_
      | intro _ | extract_lets | split | dsimp +zetaDelta only | refine Changes.put ?_)

theorem rawEnds_changes {pt : Part → Bool} {s0 : State} (s : State) (r : DecodeRun) (inflated : List Byte) (hK : Changes pt s0 s)
    (h_drawn : pt .drawn = true) (h_tallies : pt .tallies = true) (h_devMem : pt .devMem = true)
    (h_mdc : pt .mdc = true) : Changes pt s0 (rawEnds s r inflated).1 := by
  unfold rawEnds
  repeat' (with_reducible first
      | assumption | apply rawComplete_changes | apply setRun_changes | refine Changes.fst ‹_› ?_ | refine Changes.snd ‹_› ?_ | intro _
      | extract_lets | split | dsimp +zetaDelta only | refine Changes.put ?_)

theorem sampleEnds_changes {pt : Part → Bool} {s0 : State} (s : State) (r : DecodeRun) (how : SampleEnd) (inflated : List Byte)
    (hK : Changes pt s0 s) (h_drawn : pt .drawn = true) (h_objects : pt .objects = true) (h_tallies : pt .tallies = true)
    (h_devMem : pt .devMem = true) (h_slots : pt .slots = true) (h_cmds : pt .cmds = true) (h_txa : pt .txa = true)
    (h_sdx : pt .sdx = true) (h_rsv : pt .rsv = true) (h_mdc : pt .mdc = true) (h_tok : pt .tok = true) (h_bat : pt .bat = true)
    (h_pools : pt .pools = true) (h_evt : pt .evt = true) (h_trace : pt .trace = true) : Changes pt s0
    (sampleEnds s r how inflated) := by
  unfold sampleEnds
  repeat' (with_reducible first
      | assumption | refine bump_tally _ _ ?_ (by assumption) (by decide) | refine bump_object _ _ ?_ (by assumption) (by decide)
      | refine bump_any _ _ ?_ (by assumption) (by assumption) | refine bumpBy_tally _ _ _ ?_ (by assumption) (by decide)
      | refine bumpBy_object _ _ _ ?_ (by assumption) (by decide) | refine bumpBy_any _ _ _ ?_ (by assumption) (by assumption)
      | apply rawEnds_changes | apply endSample_changes | apply failSample_changes | apply readChecked_changes
      | refine Changes.tally ?_ _ _ _ (by assumption) (by decide) | refine Changes.object ?_ _ _ _ (by assumption) (by decide)
      | refine Changes.any ?_ _ _ _ (by assumption) (by assumption) | intro _ | extract_lets | split | dsimp +zetaDelta only)

theorem execMdcSampleOutcome_changes {pt : Part → Bool} {s0 : State} (core : Nat) (stream : Option Nat) (how : SampleEnd)
    (inflated : List Byte) (s : State) (hK : Changes pt s0 s) (h_drawn : pt .drawn = true) (h_objects : pt .objects = true)
    (h_tallies : pt .tallies = true) (h_devMem : pt .devMem = true) (h_slots : pt .slots = true) (h_cmds : pt .cmds = true)
    (h_txa : pt .txa = true) (h_sdx : pt .sdx = true) (h_rsv : pt .rsv = true) (h_mdc : pt .mdc = true) (h_tok : pt .tok = true)
    (h_bat : pt .bat = true) (h_pools : pt .pools = true) (h_evt : pt .evt = true)
    (h_trace : pt .trace = true) : ∃ t, execMdcSampleOutcome core stream how inflated s = .next t ∧ Changes pt s0 t := by
  refine ⟨_, rfl, ?_⟩
  repeat' (with_reducible first
      | assumption | apply sampleEnds_changes | refine Changes.fst ‹_› ?_ | refine Changes.snd ‹_› ?_ | intro _ | split)

theorem execMdcCoreEnableWrite_changes {pt : Part → Bool} {s0 : State} (via : Via) (value : Nat) (s : State) (hK : Changes pt s0 s)
    (h_objects : pt .objects = true) (h_tallies : pt .tallies = true) (h_txa : pt .txa = true) (h_sdx : pt .sdx = true)
    (h_rsv : pt .rsv = true) (h_mdc : pt .mdc = true) (h_tok : pt .tok = true) (h_fed : pt .fed = true) (h_dict : pt .dict = true)
    (h_trace : pt .trace = true) : ∃ t, execMdcCoreEnableWrite via value s = .next t ∧ Changes pt s0 t := by
  refine ⟨_, rfl, ?_⟩
  repeat' (with_reducible first | assumption | apply enableWrite_changes | intro _)

/-! ## Tok -/

theorem tokStart_changes {pt : Part → Bool} {s0 : State} (s : State) (i : TokItem) (buffer : Nat) (inflated : InflatedText)
    (hK : Changes pt s0 s) (h_tallies : pt .tallies = true) (h_tok : pt .tok = true) (h_evt : pt .evt = true)
    (h_trace : pt .trace = true) : Changes pt s0 (tokStart s i buffer inflated) := by
  unfold tokStart
  repeat' (with_reducible first
      | assumption | refine bump_tally _ _ ?_ (by assumption) (by decide) | refine bump_object _ _ ?_ (by assumption) (by decide)
      | refine bump_any _ _ ?_ (by assumption) (by assumption) | refine bumpBy_tally _ _ _ ?_ (by assumption) (by decide)
      | refine bumpBy_object _ _ _ ?_ (by assumption) (by decide) | refine bumpBy_any _ _ _ ?_ (by assumption) (by assumption)
      | apply readChecked_changes | apply raiseErr_changes | refine Changes.tally ?_ _ _ _ (by assumption) (by decide)
      | refine Changes.object ?_ _ _ _ (by assumption) (by decide) | refine Changes.any ?_ _ _ _ (by assumption) (by assumption)
      | apply Changes.foldl | apply Changes.foldlFst | apply Changes.foldlSnd | refine Changes.fst ‹_› ?_ | refine Changes.snd ‹_› ?_
      | intro _ | extract_lets | split | dsimp +zetaDelta only | refine Changes.put ?_)

theorem takeTok_changes {pt : Part → Bool} {s0 : State} (s : State) (i : TokItem) (hK : Changes pt s0 s)
    (h_tok : pt .tok = true) : Changes pt s0 (takeTok s i) := by
  unfold takeTok
  repeat' (with_reducible first | assumption | refine Changes.put ?_)

theorem execTokItemDispatch_changes {pt : Part → Bool} {s0 : State} (inflated : InflatedText) (s : State) (hK : Changes pt s0 s)
    (h_drawn : pt .drawn = true) (h_objects : pt .objects = true) (h_tallies : pt .tallies = true) (h_devMem : pt .devMem = true)
    (h_pairs : pt .pairs = true) (h_slots : pt .slots = true) (h_cmds : pt .cmds = true) (h_arbs : pt .arbs = true)
    (h_txa : pt .txa = true) (h_sdx : pt .sdx = true) (h_rsv : pt .rsv = true) (h_mdc : pt .mdc = true) (h_tok : pt .tok = true)
    (h_bat : pt .bat = true) (h_pools : pt .pools = true) (h_net : pt .net = true) (h_fed : pt .fed = true) (h_evt : pt .evt = true)
    (h_trace : pt .trace = true) : ∃ t, execTokItemDispatch inflated s = .next t ∧ Changes pt s0 t := by
  refine ⟨_, rfl, ?_⟩
  repeat' (with_reducible first
      | assumption | apply takeTok_changes | apply tokStart_changes | apply errFault_changes | apply slotFault_changes
      | apply retryLater_changes | apply needBuffer_changes | apply arbGrant_changes | refine Changes.fst ‹_› ?_
      | refine Changes.snd ‹_› ?_ | intro _ | extract_lets | split | dsimp +zetaDelta only)

theorem setPiece_changes {pt : Part → Bool} {s0 : State} (s : State) (c : Nat) (k : Option Nat) (hK : Changes pt s0 s)
    (h_tok : pt .tok = true) : Changes pt s0 (setPiece s c k) := by
  unfold setPiece
  repeat' (with_reducible first | assumption | refine Changes.put ?_)

theorem finishPiece_changes {pt : Part → Bool} {s0 : State} (s : State) (r : TokRun) (c : Nat) (hK : Changes pt s0 s)
    (h_objects : pt .objects = true) (h_tallies : pt .tallies = true) (h_txa : pt .txa = true) (h_sdx : pt .sdx = true)
    (h_rsv : pt .rsv = true) (h_mdc : pt .mdc = true) (h_tok : pt .tok = true) : Changes pt s0 (finishPiece s r c) := by
  unfold finishPiece
  repeat' (with_reducible first
      | assumption | apply setPiece_changes | apply unitDone_changes | refine Changes.fst ‹_› ?_ | refine Changes.snd ‹_› ?_ | intro _
      | extract_lets | split | dsimp +zetaDelta only | refine Changes.put ?_)

theorem takePiece_changes {pt : Part → Bool} {s0 : State} (s : State) (r : TokRun) (hK : Changes pt s0 s)
    (h_tok : pt .tok = true) : Changes pt s0 (takePiece s r) := by
  unfold takePiece
  repeat' (with_reducible first
      | assumption | apply setPiece_changes | refine Changes.fst ‹_› ?_ | refine Changes.snd ‹_› ?_ | intro _ | split)

theorem execTokMergePiece_changes {pt : Part → Bool} {s0 : State} (finished : Option Nat) (s : State) (hK : Changes pt s0 s)
    (h_objects : pt .objects = true) (h_tallies : pt .tallies = true) (h_txa : pt .txa = true) (h_sdx : pt .sdx = true)
    (h_rsv : pt .rsv = true) (h_mdc : pt .mdc = true)
    (h_tok : pt .tok = true) : ∃ t, execTokMergePiece finished s = .next t ∧ Changes pt s0 t := by
  refine ⟨_, rfl, ?_⟩
  repeat' (with_reducible first
      | assumption | apply takePiece_changes | apply finishPiece_changes | refine Changes.fst ‹_› ?_ | refine Changes.snd ‹_› ?_
      | intro _ | split)

theorem tokWrite_changes {pt : Part → Bool} {s0 : State} (s : State) (r : TokRun) (hK : Changes pt s0 s)
    (h_tallies : pt .tallies = true) (h_devMem : pt .devMem = true) (h_bat : pt .bat = true) : Changes pt s0 (tokWrite s r) := by
  unfold tokWrite
  repeat' (with_reducible first
      | assumption | refine bump_tally _ _ ?_ (by assumption) (by decide) | refine bump_object _ _ ?_ (by assumption) (by decide)
      | refine bump_any _ _ ?_ (by assumption) (by assumption) | refine bumpBy_tally _ _ _ ?_ (by assumption) (by decide)
      | refine bumpBy_object _ _ _ ?_ (by assumption) (by decide) | refine bumpBy_any _ _ _ ?_ (by assumption) (by assumption)
      | apply memWrite_changes | refine Changes.tally ?_ _ _ _ (by assumption) (by decide)
      | refine Changes.object ?_ _ _ _ (by assumption) (by decide) | refine Changes.any ?_ _ _ _ (by assumption) (by assumption)
      | refine Changes.fst ‹_› ?_ | refine Changes.snd ‹_› ?_ | intro _ | extract_lets | split | dsimp +zetaDelta only
      | refine Changes.put ?_)

theorem execTokSampleOutcome_changes {pt : Part → Bool} {s0 : State} (s : State) (hK : Changes pt s0 s) (h_objects : pt .objects = true)
    (h_tallies : pt .tallies = true) (h_devMem : pt .devMem = true) (h_slots : pt .slots = true) (h_cmds : pt .cmds = true)
    (h_txa : pt .txa = true) (h_sdx : pt .sdx = true) (h_rsv : pt .rsv = true) (h_mdc : pt .mdc = true) (h_tok : pt .tok = true)
    (h_bat : pt .bat = true) (h_pools : pt .pools = true) (h_evt : pt .evt = true)
    (h_trace : pt .trace = true) : ∃ t, execTokSampleOutcome s = .next t ∧ Changes pt s0 t := by
  refine ⟨_, rfl, ?_⟩
  repeat' (with_reducible first
      | assumption | apply tokWrite_changes | apply settleUnits_changes | apply freeBuffers_changes | apply raiseErr_changes
      | refine Changes.fst ‹_› ?_ | refine Changes.snd ‹_› ?_ | intro _ | extract_lets | split | dsimp +zetaDelta only
      | refine Changes.put ?_)

theorem tokLoadEffect_changes {pt : Part → Bool} {s0 : State} (x0 : Via) (x1 : Nat) (x2 : Nat) (x3 : List Byte) (s : State)
    (hK : Changes pt s0 s) (h_objects : pt .objects = true) (h_tallies : pt .tallies = true) (h_tok : pt .tok = true)
    (h_fed : pt .fed = true) (h_dict : pt .dict = true) : Changes pt s0 (tokLoadEffect x0 x1 x2 x3 s) := by
  unfold tokLoadEffect
  repeat' (with_reducible first
      | assumption | apply packageEffect_changes | apply startLong_changes | apply keepBefore_changes | apply dictAbort_changes
      | refine Changes.tally ?_ _ _ _ (by assumption) (by decide) | refine Changes.object ?_ _ _ _ (by assumption) (by decide)
      | refine Changes.any ?_ _ _ _ (by assumption) (by assumption) | intro _ | split | refine Changes.put ?_)

theorem execTokTableLoad_changes {pt : Part → Bool} {s0 : State} (via : Via) (value : Nat) (s : State) (hK : Changes pt s0 s)
    (h_objects : pt .objects = true) (h_tallies : pt .tallies = true) (h_tok : pt .tok = true) (h_fed : pt .fed = true)
    (h_dict : pt .dict = true) (h_trace : pt .trace = true) : ∃ t, execTokTableLoad via value s = .next t ∧ Changes pt s0 t := by
  refine ⟨_, rfl, ?_⟩
  repeat' (with_reducible first | assumption | apply tokLoadEffect_changes | apply requestWrite_changes | intro _)

theorem execTokTableLoadComplete_changes {pt : Part → Bool} {s0 : State} (othersPass : Bool) (s : State) (hK : Changes pt s0 s)
    (h_objects : pt .objects = true) (h_tallies : pt .tallies = true) (h_tok : pt .tok = true) (h_fed : pt .fed = true)
    (h_dict : pt .dict = true) (h_evt : pt .evt = true)
    (h_trace : pt .trace = true) : ∃ t, execTokTableLoadComplete othersPass s = .next t ∧ Changes pt s0 t := by
  refine ⟨_, rfl, ?_⟩
  repeat' (with_reducible first
      | assumption | apply localFinish_changes | apply readChecked_changes | apply raiseErr_changes
      | refine Changes.tally ?_ _ _ _ (by assumption) (by decide) | refine Changes.object ?_ _ _ _ (by assumption) (by decide)
      | refine Changes.any ?_ _ _ _ (by assumption) (by assumption) | refine Changes.fst ‹_› ?_ | refine Changes.snd ‹_› ?_ | intro _
      | extract_lets | split | dsimp +zetaDelta only | refine Changes.put ?_)

theorem execTokCoreEnableWrite_changes {pt : Part → Bool} {s0 : State} (via : Via) (value : Nat) (s : State) (hK : Changes pt s0 s)
    (h_objects : pt .objects = true) (h_tallies : pt .tallies = true) (h_txa : pt .txa = true) (h_sdx : pt .sdx = true)
    (h_rsv : pt .rsv = true) (h_mdc : pt .mdc = true) (h_tok : pt .tok = true) (h_fed : pt .fed = true) (h_dict : pt .dict = true)
    (h_trace : pt .trace = true) : ∃ t, execTokCoreEnableWrite via value s = .next t ∧ Changes pt s0 t := by
  refine ⟨_, rfl, ?_⟩
  repeat' (with_reducible first | assumption | apply enableWrite_changes | intro _)

/-! ## Shape -/

theorem frameReads_changes {pt : Part → Bool} {s0 : State} (s : State) (slot buf : Nat) (hK : Changes pt s0 s)
    (h_tallies : pt .tallies = true) (h_evt : pt .evt = true) (h_trace : pt .trace = true) : Changes pt s0 (frameReads s slot buf) := by
  unfold frameReads
  repeat' (with_reducible first
      | assumption | apply readChecked_changes | apply Changes.foldl | apply Changes.foldlFst | apply Changes.foldlSnd | intro _
      | extract_lets | dsimp +zetaDelta only)

theorem shapeWork_changes {pt : Part → Bool} {s0 : State} (s : State) (d : Decoded) (g : ShapeProg) (buf : Nat) (hK : Changes pt s0 s)
    (h_txa : pt .txa = true) : Changes pt s0 (shapeWork s d g buf) := by
  unfold shapeWork
  repeat' (with_reducible first
      | assumption | apply addWork_changes | apply Changes.foldl | apply Changes.foldlFst | apply Changes.foldlSnd | intro _
      | extract_lets | split | dsimp +zetaDelta only)

theorem endShape_changes {pt : Part → Bool} {s0 : State} (s : State) (d : Decoded) (out : Outcome) (hK : Changes pt s0 s)
    (h_objects : pt .objects = true) (h_tallies : pt .tallies = true) (h_devMem : pt .devMem = true) (h_slots : pt .slots = true)
    (h_cmds : pt .cmds = true) (h_mdc : pt .mdc = true) (h_bat : pt .bat = true) (h_pools : pt .pools = true) (h_evt : pt .evt = true)
    (h_trace : pt .trace = true) : Changes pt s0 (endShape s d out) := by
  unfold endShape
  repeat' (with_reducible first
      | assumption | apply dropFrames_changes | apply freeBuffers_changes | intro _ | extract_lets | dsimp +zetaDelta only
      | refine Changes.put ?_)

theorem putDecoded_changes {pt : Part → Bool} {s0 : State} (s : State) (d d' : Decoded) (hK : Changes pt s0 s)
    (h_mdc : pt .mdc = true) : Changes pt s0 (putDecoded s d d') := by
  unfold putDecoded
  repeat' (with_reducible first | assumption | split | refine Changes.put ?_)

theorem shapePoisoned_changes {pt : Part → Bool} {s0 : State} (s : State) (d : Decoded) (hK : Changes pt s0 s)
    (h_objects : pt .objects = true) (h_tallies : pt .tallies = true) (h_devMem : pt .devMem = true) (h_slots : pt .slots = true)
    (h_cmds : pt .cmds = true) (h_mdc : pt .mdc = true) (h_bat : pt .bat = true) (h_pools : pt .pools = true) (h_evt : pt .evt = true)
    (h_trace : pt .trace = true) : Changes pt s0 (shapePoisoned s d) := by
  unfold shapePoisoned
  repeat' (with_reducible first | assumption | apply endShape_changes | apply raiseErr_changes | intro _ | refine Changes.put ?_)

theorem shapeDone_changes {pt : Part → Bool} {s0 : State} (s : State) (d : Decoded) (g : ShapeProg) (hK : Changes pt s0 s)
    (h_objects : pt .objects = true) (h_tallies : pt .tallies = true) (h_devMem : pt .devMem = true) (h_slots : pt .slots = true)
    (h_cmds : pt .cmds = true) (h_mdc : pt .mdc = true) (h_bat : pt .bat = true) (h_pools : pt .pools = true) (h_evt : pt .evt = true)
    (h_trace : pt .trace = true) : Changes pt s0 (shapeDone s d g) := by
  unfold shapeDone
  repeat' (with_reducible first
      | assumption | refine bump_tally _ _ ?_ (by assumption) (by decide) | refine bump_object _ _ ?_ (by assumption) (by decide)
      | refine bump_any _ _ ?_ (by assumption) (by assumption) | refine bumpBy_tally _ _ _ ?_ (by assumption) (by decide)
      | refine bumpBy_object _ _ _ ?_ (by assumption) (by decide) | refine bumpBy_any _ _ _ ?_ (by assumption) (by assumption)
      | apply shapePoisoned_changes | apply endShape_changes | refine Changes.tally ?_ _ _ _ (by assumption) (by decide)
      | refine Changes.object ?_ _ _ _ (by assumption) (by decide) | refine Changes.any ?_ _ _ _ (by assumption) (by assumption)
      | intro _ | extract_lets | split | dsimp +zetaDelta only | refine Changes.put ?_)

theorem shapeRun_changes {pt : Part → Bool} {s0 : State} (s : State) (d : Decoded) (g : ShapeProg) (hK : Changes pt s0 s)
    (h_drawn : pt .drawn = true) (h_objects : pt .objects = true) (h_tallies : pt .tallies = true) (h_devMem : pt .devMem = true)
    (h_pairs : pt .pairs = true) (h_slots : pt .slots = true) (h_cmds : pt .cmds = true) (h_arbs : pt .arbs = true)
    (h_txa : pt .txa = true) (h_sdx : pt .sdx = true) (h_rsv : pt .rsv = true) (h_mdc : pt .mdc = true) (h_tok : pt .tok = true)
    (h_bat : pt .bat = true) (h_pools : pt .pools = true) (h_net : pt .net = true) (h_fed : pt .fed = true) (h_evt : pt .evt = true)
    (h_trace : pt .trace = true) : Changes pt s0 (shapeRun s d g) := by
  unfold shapeRun
  repeat' (with_reducible first
      | assumption | apply shapeDone_changes | apply shapePoisoned_changes | apply putDecoded_changes | apply shapeWork_changes
      | apply frameReads_changes | apply needCalls_changes | apply Changes.foldl | apply Changes.foldlFst | apply Changes.foldlSnd
      | refine Changes.fst ‹_› ?_ | refine Changes.snd ‹_› ?_ | intro _ | extract_lets | split | dsimp +zetaDelta only
      | refine Changes.put ?_)

theorem shapeBuffers_changes {pt : Part → Bool} {s0 : State} (g : ShapeProg) (size : Nat) (x0 : Nat) (s : State) (x2 : Decoded)
    (hK : Changes pt s0 s) (h_drawn : pt .drawn = true) (h_objects : pt .objects = true) (h_tallies : pt .tallies = true)
    (h_devMem : pt .devMem = true) (h_pairs : pt .pairs = true) (h_slots : pt .slots = true) (h_cmds : pt .cmds = true)
    (h_arbs : pt .arbs = true) (h_txa : pt .txa = true) (h_sdx : pt .sdx = true) (h_rsv : pt .rsv = true) (h_mdc : pt .mdc = true)
    (h_tok : pt .tok = true) (h_bat : pt .bat = true) (h_pools : pt .pools = true) (h_net : pt .net = true) (h_fed : pt .fed = true)
    (h_evt : pt .evt = true) (h_trace : pt .trace = true) : Changes pt s0 (shapeBuffers g size x0 s x2) := by
  induction x0 generalizing g size s x2 with
  | zero => unfold shapeBuffers; exact hK
  | succ k ih =>
    unfold shapeBuffers
    repeat' (with_reducible first
        | assumption | apply ih | apply shapeRun_changes | apply putDecoded_changes | apply endShape_changes
        | apply freeBuffers_changes | apply retryLater_changes | apply needBuffer_changes | apply raiseErr_changes
        | refine Changes.fst ‹_› ?_ | refine Changes.snd ‹_› ?_ | intro _ | extract_lets | split | dsimp +zetaDelta only
        | refine Changes.put ?_)

theorem execShapeSample_changes {pt : Part → Bool} {s0 : State} (slot sample : Nat) (s : State) (hK : Changes pt s0 s)
    (h_drawn : pt .drawn = true) (h_objects : pt .objects = true) (h_tallies : pt .tallies = true) (h_devMem : pt .devMem = true)
    (h_pairs : pt .pairs = true) (h_slots : pt .slots = true) (h_cmds : pt .cmds = true) (h_arbs : pt .arbs = true)
    (h_txa : pt .txa = true) (h_sdx : pt .sdx = true) (h_rsv : pt .rsv = true) (h_mdc : pt .mdc = true) (h_tok : pt .tok = true)
    (h_bat : pt .bat = true) (h_pools : pt .pools = true) (h_net : pt .net = true) (h_fed : pt .fed = true) (h_evt : pt .evt = true)
    (h_trace : pt .trace = true) : ∃ t, execShapeSample slot sample s = .next t ∧ Changes pt s0 t := by
  refine ⟨_, rfl, ?_⟩
  repeat' (with_reducible first
      | assumption | apply shapeBuffers_changes | apply shapeDone_changes | apply endShape_changes | apply readChecked_changes
      | apply raiseErr_changes | apply Changes.foldl | apply Changes.foldlFst | apply Changes.foldlSnd | refine Changes.fst ‹_› ?_
      | refine Changes.snd ‹_› ?_ | intro _ | extract_lets | split | dsimp +zetaDelta only | refine Changes.put ?_)

/-! ## BatMath -/

theorem mixedBytes_changes {pt : Part → Bool} {s0 : State} (s : State) (b : BatStage) (y z : Outcome) (lam16 : Nat)
    (hK : Changes pt s0 s) (h_drawn : pt .drawn = true) : Changes pt s0 (mixedBytes s b y z lam16).2 := by
  unfold mixedBytes
  repeat' (with_reducible first
      | assumption | apply reserveFree_changes | refine Changes.fst ‹_› ?_ | refine Changes.snd ‹_› ?_ | intro _ | extract_lets | split
      | dsimp +zetaDelta only)

theorem writeSlot_changes {pt : Part → Bool} {s0 : State} (s : State) (b : BatStage) (h : Hamper) (buf i : Nat) (hK : Changes pt s0 s)
    (h_drawn : pt .drawn = true) (h_tallies : pt .tallies = true) (h_devMem : pt .devMem = true) : Changes pt s0
    (writeSlot s b h buf i) := by
  unfold writeSlot
  repeat' (with_reducible first
      | assumption | refine bump_tally _ _ ?_ (by assumption) (by decide) | refine bump_object _ _ ?_ (by assumption) (by decide)
      | refine bump_any _ _ ?_ (by assumption) (by assumption) | refine bumpBy_tally _ _ _ ?_ (by assumption) (by decide)
      | refine bumpBy_object _ _ _ ?_ (by assumption) (by decide) | refine bumpBy_any _ _ _ ?_ (by assumption) (by assumption)
      | apply mixedBytes_changes | apply memWritePoisoned_changes | apply memWrite_changes
      | refine Changes.tally ?_ _ _ _ (by assumption) (by decide) | refine Changes.object ?_ _ _ _ (by assumption) (by decide)
      | refine Changes.any ?_ _ _ _ (by assumption) (by assumption) | refine Changes.fst ‹_› ?_ | refine Changes.snd ‹_› ?_ | intro _
      | extract_lets | split | dsimp +zetaDelta only | refine Changes.put ?_)

theorem writeHamper_changes {pt : Part → Bool} {s0 : State} (s : State) (b : BatStage) (h : Hamper) (buf : Nat) (hK : Changes pt s0 s)
    (h_drawn : pt .drawn = true) (h_tallies : pt .tallies = true) (h_devMem : pt .devMem = true) : Changes pt s0
    (writeHamper s b h buf) := by
  unfold writeHamper
  repeat' (with_reducible first
      | assumption | refine bump_tally _ _ ?_ (by assumption) (by decide) | refine bump_object _ _ ?_ (by assumption) (by decide)
      | refine bump_any _ _ ?_ (by assumption) (by assumption) | refine bumpBy_tally _ _ _ ?_ (by assumption) (by decide)
      | refine bumpBy_object _ _ _ ?_ (by assumption) (by decide) | refine bumpBy_any _ _ _ ?_ (by assumption) (by assumption)
      | apply writeSlot_changes | apply memWrite_changes | refine Changes.tally ?_ _ _ _ (by assumption) (by decide)
      | refine Changes.object ?_ _ _ _ (by assumption) (by decide) | refine Changes.any ?_ _ _ _ (by assumption) (by assumption)
      | apply Changes.foldl | apply Changes.foldlFst | apply Changes.foldlSnd | intro _ | extract_lets | dsimp +zetaDelta only)

/-! ## Bat -/

theorem putBat_changes {pt : Part → Bool} {s0 : State} (s : State) (b : BatStage) (hK : Changes pt s0 s)
    (h_bat : pt .bat = true) : Changes pt s0 (putBat s b) := by
  unfold putBat
  repeat' (with_reducible first | assumption | split | refine Changes.put ?_)

theorem skipWrite_changes {pt : Part → Bool} {s0 : State} (s : State) (b : BatStage) (seq sample pos : Nat) (spare : Option (Nat × Nat))
    (code flags : Nat) (hK : Changes pt s0 s) (h_devMem : pt .devMem = true) : Changes pt s0
    (skipWrite s b seq sample pos spare code flags) := by
  unfold skipWrite
  repeat' (with_reducible first | assumption | apply memWrite_changes | intro _)

theorem skipLog_changes {pt : Part → Bool} {s0 : State} (s : State) (b : BatStage) (sample pos : Nat) (spare : Option (Nat × Nat))
    (code flags : Nat) (hK : Changes pt s0 s) (h_devMem : pt .devMem = true) : Changes pt s0
    (skipLog s b sample pos spare code flags).1 := by
  unfold skipLog
  repeat' (with_reducible first | assumption | apply skipWrite_changes | intro _)

theorem startEpoch_changes {pt : Part → Bool} {s0 : State} (s : State) (b : BatStage) (e : Nat) (curs : List BucketCursor)
    (hK : Changes pt s0 s) (h_slots : pt .slots = true) : Changes pt s0 (startEpoch s b e curs).1 := by
  unfold startEpoch
  repeat' (with_reducible first
      | assumption | apply modSlot_changes | apply Changes.foldl | apply Changes.foldlFst | apply Changes.foldlSnd | intro _
      | extract_lets | dsimp +zetaDelta only | refine Changes.put ?_)

theorem issueBatch_changes {pt : Part → Bool} {s0 : State} (s : State) (c : Cmd) (p : BatParams) (hK : Changes pt s0 s)
    (h_drawn : pt .drawn = true) (h_objects : pt .objects = true) (h_tallies : pt .tallies = true) (h_devMem : pt .devMem = true)
    (h_pairs : pt .pairs = true) (h_slots : pt .slots = true) (h_cmds : pt .cmds = true) (h_seq : pt .seq = true)
    (h_txa : pt .txa = true) (h_sdx : pt .sdx = true) (h_rsv : pt .rsv = true) (h_mdc : pt .mdc = true) (h_tok : pt .tok = true)
    (h_bat : pt .bat = true) (h_pools : pt .pools = true) (h_net : pt .net = true) (h_fed : pt .fed = true) (h_evt : pt .evt = true)
    (h_trace : pt .trace = true) : Changes pt s0 (issueBatch s c p) := by
  unfold issueBatch
  repeat' (with_reducible first
      | assumption | apply startEpoch_changes | apply nameFailed_changes | apply refuseItem_changes | apply readChecked_changes
      | apply modSlot_changes | refine Changes.fst ‹_› ?_ | refine Changes.snd ‹_› ?_ | intro _ | extract_lets | split
      | dsimp +zetaDelta only | refine Changes.put ?_)

theorem issueWorkOf_changes {pt : Part → Bool} {s0 : State} (s : State) (b : BatStage) (x : Nat) (hK : Changes pt s0 s)
    (h_mdc : pt .mdc = true) (h_tok : pt .tok = true) : Changes pt s0 (issueWorkOf s b x) := by
  unfold issueWorkOf
  repeat' (with_reducible first
      | assumption | refine Changes.fst ‹_› ?_ | refine Changes.snd ‹_› ?_ | extract_lets | split | dsimp +zetaDelta only
      | refine Changes.put ?_)

theorem issueSample_changes {pt : Part → Bool} {s0 : State} (s : State) (b : BatStage) (pos : Nat) (hK : Changes pt s0 s)
    (h_mdc : pt .mdc = true) (h_tok : pt .tok = true) : Changes pt s0 (issueSample s b pos) := by
  unfold issueSample
  repeat' (with_reducible first | assumption | apply issueWorkOf_changes | intro _)

theorem issueChunk_changes {pt : Part → Bool} {s0 : State} (s : State) (b : BatStage) (c d : Nat) (hK : Changes pt s0 s)
    (h_mdc : pt .mdc = true) (h_tok : pt .tok = true) : Changes pt s0 (issueChunk s b c d) := by
  unfold issueChunk
  repeat' (with_reducible first
      | assumption | apply issueSample_changes | apply Changes.foldl | apply Changes.foldlFst | apply Changes.foldlSnd | intro _
      | split)

theorem logExcluded_changes {pt : Part → Bool} {s0 : State} (s : State) (b : BatStage) (c : Nat) (hK : Changes pt s0 s)
    (h_tallies : pt .tallies = true) (h_devMem : pt .devMem = true) (h_evt : pt .evt = true)
    (h_trace : pt .trace = true) : Changes pt s0 (logExcluded s b c).1 := by
  unfold logExcluded
  repeat' (with_reducible first
      | assumption | apply skipLog_changes | apply readChecked_changes | apply raiseErr_changes | apply Changes.foldl
      | apply Changes.foldlFst | apply Changes.foldlSnd | intro _ | extract_lets | dsimp +zetaDelta only)

theorem offerChunk_changes {pt : Part → Bool} {s0 : State} (s : State) (b : BatStage) (c : Nat) (hK : Changes pt s0 s)
    (h_tallies : pt .tallies = true) (h_devMem : pt .devMem = true) (h_evt : pt .evt = true) : Changes pt s0 (offerChunk s b c).1 := by
  unfold offerChunk
  repeat' (with_reducible first
      | assumption | refine bump_tally _ _ ?_ (by assumption) (by decide) | refine bump_object _ _ ?_ (by assumption) (by decide)
      | refine bump_any _ _ ?_ (by assumption) (by assumption) | refine bumpBy_tally _ _ _ ?_ (by assumption) (by decide)
      | refine bumpBy_object _ _ _ ?_ (by assumption) (by decide) | refine bumpBy_any _ _ _ ?_ (by assumption) (by assumption)
      | apply fire_changes | apply memWrite_changes | refine Changes.tally ?_ _ _ _ (by assumption) (by decide)
      | refine Changes.object ?_ _ _ _ (by assumption) (by decide) | refine Changes.any ?_ _ _ _ (by assumption) (by assumption)
      | apply Changes.foldl | apply Changes.foldlFst | apply Changes.foldlSnd | intro _ | extract_lets | split | dsimp +zetaDelta only
      | refine Changes.put ?_)

theorem assignNext_changes {pt : Part → Bool} {s0 : State} (s : State) (b : BatStage) (hK : Changes pt s0 s)
    (h_drawn : pt .drawn = true) (h_objects : pt .objects = true) (h_tallies : pt .tallies = true) (h_devMem : pt .devMem = true)
    (h_pairs : pt .pairs = true) (h_slots : pt .slots = true) (h_cmds : pt .cmds = true) (h_arbs : pt .arbs = true)
    (h_txa : pt .txa = true) (h_sdx : pt .sdx = true) (h_rsv : pt .rsv = true) (h_mdc : pt .mdc = true) (h_tok : pt .tok = true)
    (h_bat : pt .bat = true) (h_pools : pt .pools = true) (h_net : pt .net = true) (h_fed : pt .fed = true) (h_evt : pt .evt = true)
    (h_trace : pt .trace = true) : Changes pt s0 (assignNext s b).1 := by
  unfold assignNext
  repeat' (with_reducible first
      | assumption | refine bump_tally _ _ ?_ (by assumption) (by decide) | refine bump_object _ _ ?_ (by assumption) (by decide)
      | refine bump_any _ _ ?_ (by assumption) (by assumption) | refine bumpBy_tally _ _ _ ?_ (by assumption) (by decide)
      | refine bumpBy_object _ _ _ ?_ (by assumption) (by decide) | refine bumpBy_any _ _ _ ?_ (by assumption) (by assumption)
      | apply offerChunk_changes | apply logExcluded_changes | apply issueChunk_changes | apply needCalls_changes
      | apply readMem_changes | refine Changes.tally ?_ _ _ _ (by assumption) (by decide)
      | refine Changes.object ?_ _ _ _ (by assumption) (by decide) | refine Changes.any ?_ _ _ _ (by assumption) (by assumption)
      | refine Changes.fst ‹_› ?_ | refine Changes.snd ‹_› ?_ | intro _ | extract_lets | split | dsimp +zetaDelta only
      | refine Changes.put ?_)

theorem place_changes {pt : Part → Bool} {s0 : State} (s : State) (b : BatStage) (k : Nat) (a : Assembly) (x : HamperSlot) (own : Nat)
    (hK : Changes pt s0 s) (h_tallies : pt .tallies = true) : Changes pt s0 (place s b k a x own).1 := by
  unfold place
  repeat' (with_reducible first
      | assumption | refine bump_tally _ _ ?_ (by assumption) (by decide) | refine bump_object _ _ ?_ (by assumption) (by decide)
      | refine bump_any _ _ ?_ (by assumption) (by assumption) | refine bumpBy_tally _ _ _ ?_ (by assumption) (by decide)
      | refine bumpBy_object _ _ _ ?_ (by assumption) (by decide) | refine bumpBy_any _ _ _ ?_ (by assumption) (by assumption)
      | refine Changes.tally ?_ _ _ _ (by assumption) (by decide) | refine Changes.object ?_ _ _ _ (by assumption) (by decide)
      | refine Changes.any ?_ _ _ _ (by assumption) (by assumption) | intro _ | extract_lets | split | dsimp +zetaDelta only
      | refine Changes.put ?_)

theorem slotRecord_changes {pt : Part → Bool} {s0 : State} (s : State) (b : BatStage) (here seq : Nat) (filler : Option (Nat × Nat))
    (flag : Nat) (hK : Changes pt s0 s) (h_devMem : pt .devMem = true) : Changes pt s0 (slotRecord s b here seq filler flag) := by
  unfold slotRecord
  repeat' (with_reducible first
      | assumption | apply skipWrite_changes | intro _ | extract_lets | split | dsimp +zetaDelta only | refine Changes.put ?_)

theorem leaveSlot_changes {pt : Part → Bool} {s0 : State} (s : State) (b : BatStage) (k here seq : Nat) (a : Assembly)
    (hK : Changes pt s0 s) (h_tallies : pt .tallies = true) (h_devMem : pt .devMem = true) : Changes pt s0
    (leaveSlot s b k here seq a).1 := by
  unfold leaveSlot
  repeat' (with_reducible first
      | assumption | refine bump_tally _ _ ?_ (by assumption) (by decide) | refine bump_object _ _ ?_ (by assumption) (by decide)
      | refine bump_any _ _ ?_ (by assumption) (by assumption) | refine bumpBy_tally _ _ _ ?_ (by assumption) (by decide)
      | refine bumpBy_object _ _ _ ?_ (by assumption) (by decide) | refine bumpBy_any _ _ _ ?_ (by assumption) (by assumption)
      | apply slotRecord_changes | refine Changes.tally ?_ _ _ _ (by assumption) (by decide)
      | refine Changes.object ?_ _ _ _ (by assumption) (by decide) | refine Changes.any ?_ _ _ _ (by assumption) (by assumption)
      | intro _)

theorem repeatOf_changes {pt : Part → Bool} {s0 : State} (s : State) (b : BatStage) (a : Assembly) (here : Nat) (hK : Changes pt s0 s)
    (h_drawn : pt .drawn = true) : Changes pt s0 (repeatOf s b a here).2.2 := by
  unfold repeatOf
  repeat' (with_reducible first
      | assumption | apply drawFree_changes | refine Changes.fst ‹_› ?_ | refine Changes.snd ‹_› ?_ | intro _ | extract_lets | split
      | dsimp +zetaDelta only)

theorem startRepeat_changes {pt : Part → Bool} {s0 : State} (s : State) (b : BatStage) (k here seq d : Nat) (a : Assembly)
    (hK : Changes pt s0 s) (h_drawn : pt .drawn = true) (h_tallies : pt .tallies = true) (h_mdc : pt .mdc = true)
    (h_tok : pt .tok = true) (h_evt : pt .evt = true) (h_trace : pt .trace = true) : Changes pt s0
    (startRepeat s b k here seq d a).1 := by
  unfold startRepeat
  repeat' (with_reducible first
      | assumption | apply repeatOf_changes | apply issueWorkOf_changes | apply raiseErr_changes | intro _ | extract_lets | split
      | dsimp +zetaDelta only | refine Changes.put ?_)

theorem exhausted_changes {pt : Part → Bool} {s0 : State} (s : State) (b : BatStage) (k here seq : Nat) (a : Assembly)
    (hK : Changes pt s0 s) (h_drawn : pt .drawn = true) (h_objects : pt .objects = true) (h_tallies : pt .tallies = true)
    (h_devMem : pt .devMem = true) (h_pairs : pt .pairs = true) (h_slots : pt .slots = true) (h_cmds : pt .cmds = true)
    (h_arbs : pt .arbs = true) (h_txa : pt .txa = true) (h_sdx : pt .sdx = true) (h_rsv : pt .rsv = true) (h_mdc : pt .mdc = true)
    (h_tok : pt .tok = true) (h_bat : pt .bat = true) (h_pools : pt .pools = true) (h_net : pt .net = true) (h_fed : pt .fed = true)
    (h_evt : pt .evt = true) (h_trace : pt .trace = true) : Changes pt s0 (exhausted s b k here seq a).1 := by
  unfold exhausted
  repeat' (with_reducible first
      | assumption | apply startRepeat_changes | apply leaveSlot_changes | apply needCalls_changes | apply raiseErr_changes
      | refine Changes.fst ‹_› ?_ | refine Changes.snd ‹_› ?_ | intro _ | extract_lets | split | dsimp +zetaDelta only)

theorem placeRepeat_changes {pt : Part → Bool} {s0 : State} (s : State) (b : BatStage) (k : Nat) (a : Assembly) (r : Repeat)
    (o : Outcome) (hK : Changes pt s0 s) (h_tallies : pt .tallies = true) (h_devMem : pt .devMem = true) : Changes pt s0
    (placeRepeat s b k a r o).1 := by
  unfold placeRepeat
  repeat' (with_reducible first
      | assumption | refine bump_tally _ _ ?_ (by assumption) (by decide) | refine bump_object _ _ ?_ (by assumption) (by decide)
      | refine bump_any _ _ ?_ (by assumption) (by assumption) | refine bumpBy_tally _ _ _ ?_ (by assumption) (by decide)
      | refine bumpBy_object _ _ _ ?_ (by assumption) (by decide) | refine bumpBy_any _ _ _ ?_ (by assumption) (by assumption)
      | apply leaveSlot_changes | apply slotRecord_changes | apply place_changes
      | refine Changes.tally ?_ _ _ _ (by assumption) (by decide) | refine Changes.object ?_ _ _ _ (by assumption) (by decide)
      | refine Changes.any ?_ _ _ _ (by assumption) (by assumption) | intro _ | extract_lets | split | dsimp +zetaDelta only
      | refine Changes.put ?_)

theorem issueSpare_changes {pt : Part → Bool} {s0 : State} (s : State) (b : BatStage) (pos : Nat) (hK : Changes pt s0 s)
    (h_mdc : pt .mdc = true) (h_tok : pt .tok = true) : Changes pt s0 (issueSpare s b pos).1 := by
  unfold issueSpare
  repeat' (with_reducible first
      | assumption | apply issueSample_changes | refine Changes.fst ‹_› ?_ | refine Changes.snd ‹_› ?_ | intro _ | extract_lets | split
      | dsimp +zetaDelta only | refine Changes.put ?_)

theorem assembleStep_changes {pt : Part → Bool} {s0 : State} (s : State) (b : BatStage) (k : Nat) (hK : Changes pt s0 s)
    (h_drawn : pt .drawn = true) (h_objects : pt .objects = true) (h_tallies : pt .tallies = true) (h_devMem : pt .devMem = true)
    (h_pairs : pt .pairs = true) (h_slots : pt .slots = true) (h_cmds : pt .cmds = true) (h_arbs : pt .arbs = true)
    (h_txa : pt .txa = true) (h_sdx : pt .sdx = true) (h_rsv : pt .rsv = true) (h_mdc : pt .mdc = true) (h_tok : pt .tok = true)
    (h_bat : pt .bat = true) (h_pools : pt .pools = true) (h_net : pt .net = true) (h_fed : pt .fed = true) (h_evt : pt .evt = true)
    (h_trace : pt .trace = true) : Changes pt s0 (assembleStep s b k).1 := by
  unfold assembleStep
  repeat' (with_reducible first
      | assumption | refine bump_tally _ _ ?_ (by assumption) (by decide) | refine bump_object _ _ ?_ (by assumption) (by decide)
      | refine bump_any _ _ ?_ (by assumption) (by assumption) | refine bumpBy_tally _ _ _ ?_ (by assumption) (by decide)
      | refine bumpBy_object _ _ _ ?_ (by assumption) (by decide) | refine bumpBy_any _ _ _ ?_ (by assumption) (by assumption)
      | apply issueSpare_changes | apply placeRepeat_changes | apply exhausted_changes | apply slotRecord_changes | apply place_changes
      | apply skipLog_changes | refine Changes.tally ?_ _ _ _ (by assumption) (by decide)
      | refine Changes.object ?_ _ _ _ (by assumption) (by decide) | refine Changes.any ?_ _ _ _ (by assumption) (by assumption)
      | refine Changes.fst ‹_› ?_ | refine Changes.snd ‹_› ?_ | intro _ | extract_lets | split | dsimp +zetaDelta only
      | refine Changes.put ?_)

theorem assembleBucket_changes {pt : Part → Bool} {s0 : State} (k : Nat) (x0 : Nat) (s : State) (x2 : BatStage) (hK : Changes pt s0 s)
    (h_drawn : pt .drawn = true) (h_objects : pt .objects = true) (h_tallies : pt .tallies = true) (h_devMem : pt .devMem = true)
    (h_pairs : pt .pairs = true) (h_slots : pt .slots = true) (h_cmds : pt .cmds = true) (h_arbs : pt .arbs = true)
    (h_txa : pt .txa = true) (h_sdx : pt .sdx = true) (h_rsv : pt .rsv = true) (h_mdc : pt .mdc = true) (h_tok : pt .tok = true)
    (h_bat : pt .bat = true) (h_pools : pt .pools = true) (h_net : pt .net = true) (h_fed : pt .fed = true) (h_evt : pt .evt = true)
    (h_trace : pt .trace = true) : Changes pt s0 (assembleBucket k x0 s x2).1 := by
  induction x0 generalizing k s x2 with
  | zero => unfold assembleBucket; exact hK
  | succ k ih =>
    unfold assembleBucket
    repeat' (with_reducible first
        | assumption | apply ih | apply assembleStep_changes | refine Changes.fst ‹_› ?_ | refine Changes.snd ‹_› ?_ | intro _ | split)

theorem assembleAll_changes {pt : Part → Bool} {s0 : State} (s : State) (b : BatStage) (hK : Changes pt s0 s)
    (h_drawn : pt .drawn = true) (h_objects : pt .objects = true) (h_tallies : pt .tallies = true) (h_devMem : pt .devMem = true)
    (h_pairs : pt .pairs = true) (h_slots : pt .slots = true) (h_cmds : pt .cmds = true) (h_arbs : pt .arbs = true)
    (h_txa : pt .txa = true) (h_sdx : pt .sdx = true) (h_rsv : pt .rsv = true) (h_mdc : pt .mdc = true) (h_tok : pt .tok = true)
    (h_bat : pt .bat = true) (h_pools : pt .pools = true) (h_net : pt .net = true) (h_fed : pt .fed = true) (h_evt : pt .evt = true)
    (h_trace : pt .trace = true) : Changes pt s0 (assembleAll s b).1 := by
  unfold assembleAll
  repeat' (with_reducible first
      | assumption | apply assembleBucket_changes | apply Changes.foldl | apply Changes.foldlFst | apply Changes.foldlSnd | intro _
      | split)

theorem endAssembly_changes {pt : Part → Bool} {s0 : State} (s : State) (b : BatStage) (hK : Changes pt s0 s)
    (h_tallies : pt .tallies = true) : Changes pt s0 (endAssembly s b).1 := by
  unfold endAssembly
  repeat' (with_reducible first
      | assumption | refine bump_tally _ _ ?_ (by assumption) (by decide) | refine bump_object _ _ ?_ (by assumption) (by decide)
      | refine bump_any _ _ ?_ (by assumption) (by assumption) | refine bumpBy_tally _ _ _ ?_ (by assumption) (by decide)
      | refine bumpBy_object _ _ _ ?_ (by assumption) (by decide) | refine bumpBy_any _ _ _ ?_ (by assumption) (by assumption)
      | refine Changes.tally ?_ _ _ _ (by assumption) (by decide) | refine Changes.object ?_ _ _ _ (by assumption) (by decide)
      | refine Changes.any ?_ _ _ _ (by assumption) (by assumption) | apply Changes.foldl | apply Changes.foldlFst
      | apply Changes.foldlSnd | intro _ | extract_lets | split | dsimp +zetaDelta only | refine Changes.put ?_)

theorem passHamper_changes {pt : Part → Bool} {s0 : State} (s : State) (b : BatStage) (h : Hamper) (buf : Nat) (hK : Changes pt s0 s)
    (h_drawn : pt .drawn = true) (h_objects : pt .objects = true) (h_tallies : pt .tallies = true) (h_devMem : pt .devMem = true)
    (h_pairs : pt .pairs = true) (h_slots : pt .slots = true) (h_cmds : pt .cmds = true) (h_txa : pt .txa = true)
    (h_sdx : pt .sdx = true) (h_rsv : pt .rsv = true) (h_mdc : pt .mdc = true) (h_tok : pt .tok = true) (h_bat : pt .bat = true)
    (h_pools : pt .pools = true) (h_dlv : pt .dlv = true) (h_net : pt .net = true) (h_fed : pt .fed = true) (h_evt : pt .evt = true)
    (h_trace : pt .trace = true) : Changes pt s0 (passHamper s b h buf) := by
  unfold passHamper
  repeat' (with_reducible first
      | assumption | refine bump_tally _ _ ?_ (by assumption) (by decide) | refine bump_object _ _ ?_ (by assumption) (by decide)
      | refine bump_any _ _ ?_ (by assumption) (by assumption) | refine bumpBy_tally _ _ _ ?_ (by assumption) (by decide)
      | refine bumpBy_object _ _ _ ?_ (by assumption) (by decide) | refine bumpBy_any _ _ _ ?_ (by assumption) (by assumption)
      | apply putBat_changes | apply writeHamper_changes | apply pushEntry_changes | apply semSignal_changes
      | refine Changes.tally ?_ _ _ _ (by assumption) (by decide) | refine Changes.object ?_ _ _ _ (by assumption) (by decide)
      | refine Changes.any ?_ _ _ _ (by assumption) (by assumption) | intro _ | extract_lets | split | dsimp +zetaDelta only
      | refine Changes.put ?_)

theorem batWait_changes {pt : Part → Bool} {s0 : State} (s : State) (b : BatStage) (hK : Changes pt s0 s)
    (h_tallies : pt .tallies = true) (h_pairs : pt .pairs = true) (h_cmds : pt .cmds = true) (h_bat : pt .bat = true)
    (h_net : pt .net = true) (h_trace : pt .trace = true) : Changes pt s0 (batWait s b).1 := by
  unfold batWait
  repeat' (with_reducible first
      | assumption | apply putBat_changes | apply semWait_changes | intro _ | extract_lets | split | dsimp +zetaDelta only
      | refine Changes.put ?_)

theorem mixReady_changes {pt : Part → Bool} {s0 : State} (s : State) (b : BatStage) (h : Hamper) (hK : Changes pt s0 s)
    (h_drawn : pt .drawn = true) (h_objects : pt .objects = true) (h_tallies : pt .tallies = true) (h_devMem : pt .devMem = true)
    (h_pairs : pt .pairs = true) (h_slots : pt .slots = true) (h_cmds : pt .cmds = true) (h_arbs : pt .arbs = true)
    (h_txa : pt .txa = true) (h_sdx : pt .sdx = true) (h_rsv : pt .rsv = true) (h_mdc : pt .mdc = true) (h_tok : pt .tok = true)
    (h_bat : pt .bat = true) (h_pools : pt .pools = true) (h_net : pt .net = true) (h_fed : pt .fed = true) (h_evt : pt .evt = true)
    (h_trace : pt .trace = true) : Changes pt s0 (mixReady s b h).1 := by
  unfold mixReady
  repeat' (with_reducible first
      | assumption | apply putBat_changes | apply addWork_changes | apply needCalls_changes | refine Changes.fst ‹_› ?_
      | refine Changes.snd ‹_› ?_ | intro _ | extract_lets | split | dsimp +zetaDelta only | refine Changes.put ?_)

theorem passHampers_changes {pt : Part → Bool} {s0 : State} (cmd : Nat) (x0 : Nat) (s : State) (hK : Changes pt s0 s)
    (h_drawn : pt .drawn = true) (h_objects : pt .objects = true) (h_tallies : pt .tallies = true) (h_devMem : pt .devMem = true)
    (h_pairs : pt .pairs = true) (h_slots : pt .slots = true) (h_cmds : pt .cmds = true) (h_arbs : pt .arbs = true)
    (h_txa : pt .txa = true) (h_sdx : pt .sdx = true) (h_rsv : pt .rsv = true) (h_mdc : pt .mdc = true) (h_tok : pt .tok = true)
    (h_bat : pt .bat = true) (h_pools : pt .pools = true) (h_dlv : pt .dlv = true) (h_net : pt .net = true) (h_fed : pt .fed = true)
    (h_evt : pt .evt = true) (h_trace : pt .trace = true) : Changes pt s0 (passHampers cmd x0 s) := by
  induction x0 generalizing cmd s with
  | zero => unfold passHampers; exact hK
  | succ k ih =>
    unfold passHampers
    repeat' (with_reducible first
        | assumption | apply ih | apply mixReady_changes | apply batWait_changes | apply passHamper_changes | apply slotFault_changes
        | apply retryLater_changes | apply needBuffer_changes | refine Changes.fst ‹_› ?_ | refine Changes.snd ‹_› ?_ | intro _
        | extract_lets | split | dsimp +zetaDelta only)

theorem endEpoch_changes {pt : Part → Bool} {s0 : State} (s : State) (cmd : Nat) (hK : Changes pt s0 s) (h_tallies : pt .tallies = true)
    (h_slots : pt .slots = true) (h_cmds : pt .cmds = true) (h_bat : pt .bat = true) (h_evt : pt .evt = true) : Changes pt s0
    (endEpoch s cmd) := by
  unfold endEpoch
  repeat' (with_reducible first
      | assumption | refine bump_tally _ _ ?_ (by assumption) (by decide) | refine bump_object _ _ ?_ (by assumption) (by decide)
      | refine bump_any _ _ ?_ (by assumption) (by assumption) | refine bumpBy_tally _ _ _ ?_ (by assumption) (by decide)
      | refine bumpBy_object _ _ _ ?_ (by assumption) (by decide) | refine bumpBy_any _ _ _ ?_ (by assumption) (by assumption)
      | apply startEpoch_changes | apply putBat_changes | apply finishCmd_changes | apply fire_changes
      | refine Changes.tally ?_ _ _ _ (by assumption) (by decide) | refine Changes.object ?_ _ _ _ (by assumption) (by decide)
      | refine Changes.any ?_ _ _ _ (by assumption) (by assumption) | refine Changes.fst ‹_› ?_ | refine Changes.snd ‹_› ?_ | intro _
      | extract_lets | split | dsimp +zetaDelta only | refine Changes.put ?_)

theorem batProgress_changes {pt : Part → Bool} {s0 : State} (s : State) (cmd : Nat) (hK : Changes pt s0 s) (h_drawn : pt .drawn = true)
    (h_objects : pt .objects = true) (h_tallies : pt .tallies = true) (h_devMem : pt .devMem = true) (h_pairs : pt .pairs = true)
    (h_slots : pt .slots = true) (h_cmds : pt .cmds = true) (h_arbs : pt .arbs = true) (h_txa : pt .txa = true) (h_sdx : pt .sdx = true)
    (h_rsv : pt .rsv = true) (h_mdc : pt .mdc = true) (h_tok : pt .tok = true) (h_bat : pt .bat = true) (h_pools : pt .pools = true)
    (h_dlv : pt .dlv = true) (h_net : pt .net = true) (h_fed : pt .fed = true) (h_evt : pt .evt = true)
    (h_trace : pt .trace = true) : Changes pt s0 (batProgress s cmd) := by
  unfold batProgress
  repeat' (with_reducible first
      | assumption | apply endEpoch_changes | apply passHampers_changes | apply endAssembly_changes | apply assembleAll_changes
      | apply putBat_changes | refine Changes.fst ‹_› ?_ | refine Changes.snd ‹_› ?_ | intro _ | extract_lets | split
      | dsimp +zetaDelta only)

theorem takeTold_changes {pt : Part → Bool} {s0 : State} (s : State) (b : BatStage) (x0 : HomeTold) (hK : Changes pt s0 s)
    (h_slots : pt .slots = true) (h_cmds : pt .cmds = true) (h_mdc : pt .mdc = true) (h_tok : pt .tok = true)
    (h_bat : pt .bat = true) : Changes pt s0 (takeTold s b x0) := by
  unfold takeTold
  repeat' (with_reducible first
      | assumption | apply issueSample_changes | apply putBat_changes | apply finishCmd_changes | apply modSlot_changes
      | apply Changes.foldl | apply Changes.foldlFst | apply Changes.foldlSnd | intro _ | extract_lets | split | dsimp +zetaDelta only
      | refine Changes.put ?_)

theorem execBatChunkAssign_changes {pt : Part → Bool} {s0 : State} (slot : Nat) (told : Option HomeTold) (s : State)
    (hK : Changes pt s0 s) (h_drawn : pt .drawn = true) (h_objects : pt .objects = true) (h_tallies : pt .tallies = true)
    (h_devMem : pt .devMem = true) (h_pairs : pt .pairs = true) (h_slots : pt .slots = true) (h_cmds : pt .cmds = true)
    (h_arbs : pt .arbs = true) (h_txa : pt .txa = true) (h_sdx : pt .sdx = true) (h_rsv : pt .rsv = true) (h_mdc : pt .mdc = true)
    (h_tok : pt .tok = true) (h_bat : pt .bat = true) (h_pools : pt .pools = true) (h_dlv : pt .dlv = true) (h_net : pt .net = true)
    (h_fed : pt .fed = true) (h_evt : pt .evt = true)
    (h_trace : pt .trace = true) : ∃ t, execBatChunkAssign slot told s = .next t ∧ Changes pt s0 t := by
  refine ⟨_, rfl, ?_⟩
  repeat' (with_reducible first
      | assumption | apply takeTold_changes | apply batProgress_changes | apply assignNext_changes | apply putBat_changes
      | refine Changes.fst ‹_› ?_ | refine Changes.snd ‹_› ?_ | intro _ | extract_lets | split | dsimp +zetaDelta only)

theorem checkLength_changes {pt : Part → Bool} {s0 : State} (s : State) (b : BatStage) (pos : Nat) (o : Outcome) (hK : Changes pt s0 s)
    (h_tallies : pt .tallies = true) (h_evt : pt .evt = true) (h_trace : pt .trace = true) : Changes pt s0
    (checkLength s b pos o).1 := by
  unfold checkLength
  repeat' (with_reducible first
      | assumption | apply raiseErr_changes | intro _ | extract_lets | split | dsimp +zetaDelta only | refine Changes.put ?_)

theorem checkCopy_changes {pt : Part → Bool} {s0 : State} (s : State) (b : BatStage) (o : Outcome) (hK : Changes pt s0 s)
    (h_tallies : pt .tallies = true) (h_evt : pt .evt = true) (h_trace : pt .trace = true) : Changes pt s0 (checkCopy s b o).1 := by
  unfold checkCopy
  repeat' (with_reducible first | assumption | apply raiseErr_changes | intro _ | split | refine Changes.put ?_)

theorem settleOutcome_changes {pt : Part → Bool} {s0 : State} (s : State) (b : BatStage) (pos : Nat) (o : Outcome)
    (hK : Changes pt s0 s) (h_tallies : pt .tallies = true) (h_evt : pt .evt = true) (h_trace : pt .trace = true) : Changes pt s0
    (settleOutcome s b pos o).1 := by
  unfold settleOutcome
  repeat' (with_reducible first
      | assumption | apply checkCopy_changes | apply checkLength_changes | refine Changes.fst ‹_› ?_ | refine Changes.snd ‹_› ?_
      | intro _ | extract_lets | split | dsimp +zetaDelta only | refine Changes.put ?_)

theorem rawOutcome_changes {pt : Part → Bool} {s0 : State} (s : State) (slot : Nat) (e : ShardEntry) (hK : Changes pt s0 s)
    (h_drawn : pt .drawn = true) (h_tallies : pt .tallies = true) (h_evt : pt .evt = true) (h_trace : pt .trace = true) : Changes pt s0
    (rawOutcome s slot e).1 := by
  unfold rawOutcome
  repeat' (with_reducible first
      | assumption | apply readChecked_changes | apply drawFree_changes | refine Changes.fst ‹_› ?_ | refine Changes.snd ‹_› ?_
      | intro _ | extract_lets | split | dsimp +zetaDelta only | refine Changes.put ?_)

theorem readResult_changes {pt : Part → Bool} {s0 : State} (s : State) (r : Finished) (hK : Changes pt s0 s)
    (h_tallies : pt .tallies = true) (h_evt : pt .evt = true) (h_trace : pt .trace = true) : Changes pt s0 (readResult s r).1 := by
  unfold readResult
  repeat' (with_reducible first
      | assumption | apply readChecked_changes | refine Changes.fst ‹_› ?_ | refine Changes.snd ‹_› ?_ | intro _ | split
      | refine Changes.put ?_)

theorem ownOutcome_changes {pt : Part → Bool} {s0 : State} (s : State) (b : BatStage) (pos : Nat) (hK : Changes pt s0 s) {t}
    (ht : ownOutcome s b pos = some t) (h_drawn : pt .drawn = true) (h_objects : pt .objects = true) (h_tallies : pt .tallies = true)
        (h_devMem : pt .devMem = true) (h_slots : pt .slots = true) (h_cmds : pt .cmds = true) (h_bat : pt .bat = true) (h_pools : pt
        .pools = true) (h_evt : pt .evt = true) (h_trace : pt .trace = true) : Changes pt s0 t.1 := by
  unfold ownOutcome at ht
  dsimp only at ht
  split at ht
  · simp at ht
  · split at ht
    · simp only [Option.some.injEq] at ht
      subst ht
      apply rawOutcome_changes <;> assumption
    · obtain ⟨r, _, hr⟩ := Option.map_eq_some_iff.mp ht
      subst hr
      apply freeBuffers_changes <;> first
          | assumption | exact Changes.put (readResult_changes s r hK (by assumption) (by assumption) (by assumption))

theorem toldOutcome_changes {pt : Part → Bool} {s0 : State} (s : State) (b : BatStage) (position : Nat) (o : Outcome)
    (hK : Changes pt s0 s) {t}
    (ht : toldOutcome s b position o = some t) (h_drawn : pt .drawn = true) (h_objects : pt .objects = true) (h_tallies : pt .tallies =
        true) (h_devMem : pt .devMem = true) (h_slots : pt .slots = true) (h_cmds : pt .cmds = true) (h_bat : pt .bat = true) (h_pools :
        pt .pools = true) (h_evt : pt .evt = true) (h_trace : pt .trace = true) : Changes pt s0 t.1 := by
  unfold toldOutcome at ht
  split at ht
  · simp at ht
  · split at ht
    · apply ownOutcome_changes _ _ _ hK ht <;> assumption
    · simp only [Option.some.injEq] at ht
      subst ht
      exact hK

theorem settlePosition_changes {pt : Part → Bool} {s0 : State} (s : State) (b : BatStage) (position : Nat) (o : Outcome)
    (hK : Changes pt s0 s) (h_drawn : pt .drawn = true) (h_objects : pt .objects = true) (h_tallies : pt .tallies = true)
    (h_devMem : pt .devMem = true) (h_pairs : pt .pairs = true) (h_slots : pt .slots = true) (h_cmds : pt .cmds = true)
    (h_arbs : pt .arbs = true) (h_txa : pt .txa = true) (h_sdx : pt .sdx = true) (h_rsv : pt .rsv = true) (h_mdc : pt .mdc = true)
    (h_tok : pt .tok = true) (h_bat : pt .bat = true) (h_pools : pt .pools = true) (h_dlv : pt .dlv = true) (h_net : pt .net = true)
    (h_fed : pt .fed = true) (h_evt : pt .evt = true) (h_trace : pt .trace = true) : Changes pt s0 (settlePosition s b position o) := by
  unfold settlePosition
  repeat' (with_reducible first
      | assumption | apply settleOutcome_changes | apply batProgress_changes | apply putBat_changes | intro _ | extract_lets
      | dsimp +zetaDelta only)

theorem execBatSampleOutcome_changes {pt : Part → Bool} {s0 : State} (slot position code : Nat) (result : List Byte) (norm : List
    (List Nat)) (truncated poisoned : Bool) (s : State) (hK : Changes pt s0 s) (h_drawn : pt .drawn = true)
    (h_objects : pt .objects = true) (h_tallies : pt .tallies = true) (h_devMem : pt .devMem = true) (h_pairs : pt .pairs = true)
    (h_slots : pt .slots = true) (h_cmds : pt .cmds = true) (h_arbs : pt .arbs = true) (h_txa : pt .txa = true) (h_sdx : pt .sdx = true)
    (h_rsv : pt .rsv = true) (h_mdc : pt .mdc = true) (h_tok : pt .tok = true) (h_bat : pt .bat = true) (h_pools : pt .pools = true)
    (h_dlv : pt .dlv = true) (h_net : pt .net = true) (h_fed : pt .fed = true) (h_evt : pt .evt = true)
    (h_trace : pt .trace = true) : ∃ t, execBatSampleOutcome slot position code result norm truncated poisoned s = .next t ∧ Changes pt s0 t := by
  refine ⟨_, rfl, ?_⟩
  repeat' (with_reducible first
      | assumption | apply settlePosition_changes
      | refine toldOutcome_changes _ _ _ _ (t := (_, _)) ?_ ‹_› ?_ ?_ ?_ ?_ ?_ ?_ ?_ ?_ ?_ ?_
      | refine toldOutcome_changes _ _ _ _ ?_ ‹_› ?_ ?_ ?_ ?_ ?_ ?_ ?_ ?_ ?_ ?_
      | refine ownOutcome_changes _ _ _ (t := (_, _)) ?_ ‹_› ?_ ?_ ?_ ?_ ?_ ?_ ?_ ?_ ?_ ?_
      | refine ownOutcome_changes _ _ _ ?_ ‹_› ?_ ?_ ?_ ?_ ?_ ?_ ?_ ?_ ?_ ?_ | refine Changes.fst ‹_› ?_ | refine Changes.snd ‹_› ?_
      | intro _ | split | refine Changes.put ?_)

theorem hostOutcome_changes {pt : Part → Bool} {s0 : State} (s : State) (b : BatStage) (table pos : Nat) (hK : Changes pt s0 s)
    (h_drawn : pt .drawn = true) (h_tallies : pt .tallies = true) (h_evt : pt .evt = true) (h_trace : pt .trace = true) : Changes pt s0
    (hostOutcome s b table pos).1 := by
  unfold hostOutcome
  repeat' (with_reducible first
      | assumption | apply readMem_changes | apply readChecked_changes | apply raiseErr_changes | refine Changes.fst ‹_› ?_
      | refine Changes.snd ‹_› ?_ | intro _ | extract_lets | split | dsimp +zetaDelta only | refine Changes.put ?_)

theorem takeHost_changes {pt : Part → Bool} {s0 : State} (s : State) (b : BatStage) (c r : Nat) (hK : Changes pt s0 s)
    (h_drawn : pt .drawn = true) (h_tallies : pt .tallies = true) (h_devMem : pt .devMem = true) (h_evt : pt .evt = true)
    (h_trace : pt .trace = true) : Changes pt s0 (takeHost s b c r).1 := by
  unfold takeHost
  repeat' (with_reducible first
      | assumption | apply hostOutcome_changes | apply settleOutcome_changes | apply readMem_changes | apply memWrite_changes
      | apply Changes.foldl | apply Changes.foldlFst | apply Changes.foldlSnd | refine Changes.fst ‹_› ?_ | refine Changes.snd ‹_› ?_
      | intro _ | extract_lets | split | dsimp +zetaDelta only | refine Changes.put ?_)

theorem reclaimHost_changes {pt : Part → Bool} {s0 : State} (s : State) (b : BatStage) (c r : Nat) (hK : Changes pt s0 s)
    (h_devMem : pt .devMem = true) : Changes pt s0 (reclaimHost s b c r).1 := by
  unfold reclaimHost
  repeat' (with_reducible first | assumption | apply memWrite_changes | intro _ | refine Changes.put ?_)

theorem pollRecord_changes {pt : Part → Bool} {s0 : State} (timedOut : List Nat) (s : State) (b : BatStage) (c r : Nat)
    (hK : Changes pt s0 s) (h_drawn : pt .drawn = true) (h_tallies : pt .tallies = true) (h_devMem : pt .devMem = true)
    (h_evt : pt .evt = true) (h_trace : pt .trace = true) : Changes pt s0 (pollRecord timedOut s b c r).1 := by
  unfold pollRecord
  repeat' (with_reducible first
      | assumption | apply reclaimHost_changes | apply takeHost_changes | apply readMem_changes | apply raiseErr_changes
      | refine Changes.fst ‹_› ?_ | refine Changes.snd ‹_› ?_ | intro _ | extract_lets | split | dsimp +zetaDelta only)

theorem execHostPoll_changes {pt : Part → Bool} {s0 : State} (slot : Nat) (timedOut : List Nat) (s : State) (hK : Changes pt s0 s)
    (h_drawn : pt .drawn = true) (h_objects : pt .objects = true) (h_tallies : pt .tallies = true) (h_devMem : pt .devMem = true)
    (h_pairs : pt .pairs = true) (h_slots : pt .slots = true) (h_cmds : pt .cmds = true) (h_arbs : pt .arbs = true)
    (h_txa : pt .txa = true) (h_sdx : pt .sdx = true) (h_rsv : pt .rsv = true) (h_mdc : pt .mdc = true) (h_tok : pt .tok = true)
    (h_bat : pt .bat = true) (h_pools : pt .pools = true) (h_dlv : pt .dlv = true) (h_net : pt .net = true) (h_fed : pt .fed = true)
    (h_evt : pt .evt = true) (h_trace : pt .trace = true) : ∃ t, execHostPoll slot timedOut s = .next t ∧ Changes pt s0 t := by
  refine ⟨_, rfl, ?_⟩
  repeat' (with_reducible first
      | assumption | apply pollRecord_changes | apply batProgress_changes | apply assignNext_changes | apply putBat_changes
      | apply Changes.foldl | apply Changes.foldlFst | apply Changes.foldlSnd | refine Changes.fst ‹_› ?_ | refine Changes.snd ‹_› ?_
      | intro _ | extract_lets | split | dsimp +zetaDelta only)

theorem batStop_changes {pt : Part → Bool} {s0 : State} (s : State) (slot : Nat) (hK : Changes pt s0 s) (h_devMem : pt .devMem = true)
    (h_bat : pt .bat = true) : Changes pt s0 (batStop s slot) := by
  unfold batStop
  repeat' (with_reducible first
      | assumption | apply putBat_changes | apply memWrite_changes | apply Changes.foldl | apply Changes.foldlFst
      | apply Changes.foldlSnd | intro _ | extract_lets | dsimp +zetaDelta only | refine Changes.put ?_)

end Sys2Proof.Machine
end

