-- ==== Sys2Proof/Laws/FramesPackage.lean ====
section
/-! SUPPORT. Which parts of the state command issue, bring-up, removal, rucksacks and the dictionary leave as they were. -/

set_option linter.unusedTactic false
set_option linter.unreachableTactic false
set_option linter.unusedVariables false

namespace Sys2Proof.Machine

set_option Elab.async false

/-! ## Issue -/

theorem readBlock_changes {pt : Part → Bool} {s0 : State} (s : State) (c : Cmd) (hK : Changes pt s0 s) (h_drawn : pt .drawn = true)
    (h_tallies : pt .tallies = true) (h_evt : pt .evt = true) (h_trace : pt .trace = true) : Changes pt s0 (readBlock s c).2 := by
  unfold readBlock
  repeat' (with_reducible first
      | assumption | apply readMem_changes | refine Changes.fst ‹_› ?_ | refine Changes.snd ‹_› ?_ | intro _ | extract_lets | split
      | dsimp +zetaDelta only)

theorem refuseIssue_changes {pt : Part → Bool} {s0 : State} (s : State) (c : Cmd) (code : Nat) (hK : Changes pt s0 s)
    (h_drawn : pt .drawn = true) (h_objects : pt .objects = true) (h_tallies : pt .tallies = true) (h_devMem : pt .devMem = true)
    (h_pairs : pt .pairs = true) (h_slots : pt .slots = true) (h_cmds : pt .cmds = true) (h_txa : pt .txa = true)
    (h_sdx : pt .sdx = true) (h_rsv : pt .rsv = true) (h_mdc : pt .mdc = true) (h_tok : pt .tok = true) (h_bat : pt .bat = true)
    (h_pools : pt .pools = true) (h_net : pt .net = true) (h_fed : pt .fed = true) (h_evt : pt .evt = true)
    (h_trace : pt .trace = true) : Changes pt s0 (refuseIssue s c code) := by
  unfold refuseIssue
  repeat' (with_reducible first | assumption | apply refuseItem_changes | intro _)

theorem issueTxa_changes {pt : Part → Bool} {s0 : State} (s : State) (c : Cmd) (b : List Byte) (hK : Changes pt s0 s)
    (h_drawn : pt .drawn = true) (h_objects : pt .objects = true) (h_tallies : pt .tallies = true) (h_devMem : pt .devMem = true)
    (h_pairs : pt .pairs = true) (h_slots : pt .slots = true) (h_cmds : pt .cmds = true) (h_txa : pt .txa = true)
    (h_sdx : pt .sdx = true) (h_rsv : pt .rsv = true) (h_mdc : pt .mdc = true) (h_tok : pt .tok = true) (h_bat : pt .bat = true)
    (h_pools : pt .pools = true) (h_net : pt .net = true) (h_fed : pt .fed = true) (h_evt : pt .evt = true)
    (h_trace : pt .trace = true) : Changes pt s0 (issueTxa s c b) := by
  unfold issueTxa
  repeat' (with_reducible first
      | assumption | apply refuseIssue_changes | apply setOutput_changes | refine Changes.fst ‹_› ?_ | refine Changes.snd ‹_› ?_
      | intro _ | extract_lets | split | dsimp +zetaDelta only | refine Changes.put ?_)

theorem issueForge_changes {pt : Part → Bool} {s0 : State} (s : State) (c : Cmd) (b : List Byte) (hK : Changes pt s0 s)
    (h_drawn : pt .drawn = true) (h_objects : pt .objects = true) (h_tallies : pt .tallies = true) (h_devMem : pt .devMem = true)
    (h_pairs : pt .pairs = true) (h_slots : pt .slots = true) (h_cmds : pt .cmds = true) (h_txa : pt .txa = true)
    (h_forge : pt .forge = true) (h_sdx : pt .sdx = true) (h_rsv : pt .rsv = true) (h_mdc : pt .mdc = true) (h_tok : pt .tok = true)
    (h_bat : pt .bat = true) (h_pools : pt .pools = true) (h_net : pt .net = true) (h_fed : pt .fed = true) (h_evt : pt .evt = true)
    (h_trace : pt .trace = true) : Changes pt s0 (issueForge s c b) := by
  unfold issueForge
  repeat' (with_reducible first
      | assumption | apply refuseIssue_changes | apply setOutput_changes | refine Changes.fst ‹_› ?_ | refine Changes.snd ‹_› ?_
      | intro _ | extract_lets | split | dsimp +zetaDelta only | refine Changes.put ?_)

theorem issueDlv_changes {pt : Part → Bool} {s0 : State} (s : State) (c : Cmd) (b : List Byte) (entry : Option LinkEntry)
    (hK : Changes pt s0 s) (h_drawn : pt .drawn = true) (h_objects : pt .objects = true) (h_tallies : pt .tallies = true)
    (h_devMem : pt .devMem = true) (h_pairs : pt .pairs = true) (h_slots : pt .slots = true) (h_cmds : pt .cmds = true)
    (h_seq : pt .seq = true) (h_txa : pt .txa = true) (h_sdx : pt .sdx = true) (h_rsv : pt .rsv = true) (h_mdc : pt .mdc = true)
    (h_tok : pt .tok = true) (h_bat : pt .bat = true) (h_pools : pt .pools = true) (h_dlv : pt .dlv = true) (h_net : pt .net = true)
    (h_fed : pt .fed = true) (h_evt : pt .evt = true) (h_trace : pt .trace = true) : Changes pt s0 (issueDlv s c b entry) := by
  unfold issueDlv
  repeat' (with_reducible first
      | assumption | apply writeManifests_changes | apply issueDeliver_changes | apply refuseRecorded_changes | apply takeEntry_changes
      | refine Changes.fst ‹_› ?_ | refine Changes.snd ‹_› ?_ | intro _ | extract_lets | split | dsimp +zetaDelta only)

theorem issueKeyReg_changes {pt : Part → Bool} {s0 : State} (s : State) (c : Cmd) (b : List Byte) (hK : Changes pt s0 s)
    (h_drawn : pt .drawn = true) (h_objects : pt .objects = true) (h_tallies : pt .tallies = true) (h_devMem : pt .devMem = true)
    (h_pairs : pt .pairs = true) (h_slots : pt .slots = true) (h_cmds : pt .cmds = true) (h_txa : pt .txa = true)
    (h_sdx : pt .sdx = true) (h_rsv : pt .rsv = true) (h_mdc : pt .mdc = true) (h_tok : pt .tok = true) (h_bat : pt .bat = true)
    (h_pools : pt .pools = true) (h_net : pt .net = true) (h_fed : pt .fed = true) (h_evt : pt .evt = true)
    (h_trace : pt .trace = true) : Changes pt s0 (issueKeyReg s c b) := by
  unfold issueKeyReg
  repeat' (with_reducible first | assumption | apply refuseIssue_changes | apply issueRegister_changes | intro _ | split)

theorem issueKey_changes {pt : Part → Bool} {s0 : State} (s : State) (c : Cmd) (b : List Byte) (hK : Changes pt s0 s)
    (h_drawn : pt .drawn = true) (h_objects : pt .objects = true) (h_tallies : pt .tallies = true) (h_devMem : pt .devMem = true)
    (h_pairs : pt .pairs = true) (h_slots : pt .slots = true) (h_cmds : pt .cmds = true) (h_txa : pt .txa = true)
    (h_sdx : pt .sdx = true) (h_rsv : pt .rsv = true) (h_mdc : pt .mdc = true) (h_tok : pt .tok = true) (h_bat : pt .bat = true)
    (h_pools : pt .pools = true) (h_dlv : pt .dlv = true) (h_net : pt .net = true) (h_fed : pt .fed = true) (h_evt : pt .evt = true)
    (h_trace : pt .trace = true) : Changes pt s0 (issueKey s c b) := by
  unfold issueKey
  repeat' (with_reducible first
      | assumption | apply issueKeyStream_changes | apply refuseRecorded_changes | intro _ | extract_lets | split
      | dsimp +zetaDelta only)

theorem issueStage_changes {pt : Part → Bool} {s0 : State} (s : State) (c : Cmd) (b : List Byte) (hK : Changes pt s0 s)
    (h_drawn : pt .drawn = true) (h_objects : pt .objects = true) (h_tallies : pt .tallies = true) (h_devMem : pt .devMem = true)
    (h_pairs : pt .pairs = true) (h_slots : pt .slots = true) (h_cmds : pt .cmds = true) (h_txa : pt .txa = true)
    (h_sdx : pt .sdx = true) (h_rsv : pt .rsv = true) (h_mdc : pt .mdc = true) (h_tok : pt .tok = true) (h_bat : pt .bat = true)
    (h_pools : pt .pools = true) (h_dlv : pt .dlv = true) (h_net : pt .net = true) (h_fed : pt .fed = true) (h_evt : pt .evt = true)
    (h_trace : pt .trace = true) : Changes pt s0 (issueStage s c b) := by
  unfold issueStage
  repeat' (with_reducible first | assumption | apply refuseIssue_changes | apply issueIngest_changes | intro _ | split)

theorem fetchGranule_changes {pt : Part → Bool} {s0 : State} (s : State) (toTxa : Bool) (src dst : Nat) (hK : Changes pt s0 s)
    (h_tallies : pt .tallies = true) (h_staging : pt .staging = true) : Changes pt s0 (fetchGranule s toTxa src dst) := by
  unfold fetchGranule
  repeat' (with_reducible first
      | assumption | apply pfgWritePoisoned_changes | apply txaWritePoisoned_changes | apply pfgWrite_changes | apply txaWrite_changes
      | refine Changes.fst ‹_› ?_ | refine Changes.snd ‹_› ?_ | intro _ | extract_lets | split | dsimp +zetaDelta only)

theorem issueFetch_changes {pt : Part → Bool} {s0 : State} (s : State) (c : Cmd) (b : List Byte) (hK : Changes pt s0 s)
    (h_drawn : pt .drawn = true) (h_objects : pt .objects = true) (h_tallies : pt .tallies = true) (h_devMem : pt .devMem = true)
    (h_staging : pt .staging = true) (h_pairs : pt .pairs = true) (h_slots : pt .slots = true) (h_cmds : pt .cmds = true)
    (h_txa : pt .txa = true) (h_sdx : pt .sdx = true) (h_rsv : pt .rsv = true) (h_mdc : pt .mdc = true) (h_tok : pt .tok = true)
    (h_bat : pt .bat = true) (h_pools : pt .pools = true) (h_net : pt .net = true) (h_fed : pt .fed = true) (h_evt : pt .evt = true)
    (h_trace : pt .trace = true) : Changes pt s0 (issueFetch s c b) := by
  unfold issueFetch
  repeat' (with_reducible first
      | assumption | apply fetchGranule_changes | apply refuseIssue_changes | apply setOutput_changes | apply finishCmd_changes
      | apply readChecked_changes | apply Changes.foldl | apply Changes.foldlFst | apply Changes.foldlSnd | refine Changes.fst ‹_› ?_
      | refine Changes.snd ‹_› ?_ | intro _ | extract_lets | split | dsimp +zetaDelta only)

theorem issueAlloc_changes {pt : Part → Bool} {s0 : State} (s : State) (c : Cmd) (b : List Byte) (hK : Changes pt s0 s)
    (h_drawn : pt .drawn = true) (h_objects : pt .objects = true) (h_tallies : pt .tallies = true) (h_devMem : pt .devMem = true)
    (h_pairs : pt .pairs = true) (h_slots : pt .slots = true) (h_cmds : pt .cmds = true) (h_arbs : pt .arbs = true)
    (h_txa : pt .txa = true) (h_sdx : pt .sdx = true) (h_rsv : pt .rsv = true) (h_mdc : pt .mdc = true) (h_tok : pt .tok = true)
    (h_bat : pt .bat = true) (h_pools : pt .pools = true) (h_net : pt .net = true) (h_fed : pt .fed = true) (h_evt : pt .evt = true)
    (h_trace : pt .trace = true) : Changes pt s0 (issueAlloc s c b) := by
  unfold issueAlloc
  repeat' (with_reducible first
      | assumption | apply refuseIssue_changes | apply modCmd_changes | apply poolRequest_changes | intro _ | extract_lets | split
      | dsimp +zetaDelta only | refine Changes.put ?_)

theorem issueFree_changes {pt : Part → Bool} {s0 : State} (s : State) (c : Cmd) (b : List Byte) (hK : Changes pt s0 s)
    (h_drawn : pt .drawn = true) (h_objects : pt .objects = true) (h_tallies : pt .tallies = true) (h_devMem : pt .devMem = true)
    (h_pairs : pt .pairs = true) (h_slots : pt .slots = true) (h_cmds : pt .cmds = true) (h_txa : pt .txa = true)
    (h_sdx : pt .sdx = true) (h_rsv : pt .rsv = true) (h_mdc : pt .mdc = true) (h_tok : pt .tok = true) (h_bat : pt .bat = true)
    (h_pools : pt .pools = true) (h_net : pt .net = true) (h_fed : pt .fed = true) (h_evt : pt .evt = true)
    (h_trace : pt .trace = true) : Changes pt s0 (issueFree s c b) := by
  unfold issueFree
  repeat' (with_reducible first
      | assumption | apply refuseIssue_changes | apply presentFree_changes | intro _ | split | refine Changes.put ?_)

theorem issueWork_changes {pt : Part → Bool} {s0 : State} (s : State) (c : Cmd) (b : List Byte) (entry : Option LinkEntry)
    (hK : Changes pt s0 s) (h_drawn : pt .drawn = true) (h_objects : pt .objects = true) (h_tallies : pt .tallies = true)
    (h_devMem : pt .devMem = true) (h_staging : pt .staging = true) (h_pairs : pt .pairs = true) (h_slots : pt .slots = true)
    (h_cmds : pt .cmds = true) (h_seq : pt .seq = true) (h_arbs : pt .arbs = true) (h_txa : pt .txa = true) (h_forge : pt .forge = true)
    (h_sdx : pt .sdx = true) (h_rsv : pt .rsv = true) (h_mdc : pt .mdc = true) (h_tok : pt .tok = true) (h_bat : pt .bat = true)
    (h_pools : pt .pools = true) (h_dlv : pt .dlv = true) (h_net : pt .net = true) (h_fed : pt .fed = true) (h_evt : pt .evt = true)
    (h_trace : pt .trace = true) : Changes pt s0 (issueWork s c b entry) := by
  unfold issueWork
  repeat' (with_reducible first
      | assumption | apply issueFree_changes | apply issueAlloc_changes | apply issueFetch_changes | apply issueStage_changes
      | apply issueKey_changes | apply issueKeyReg_changes | apply issueDlv_changes | apply issueForge_changes | apply issueTxa_changes
      | apply issueBatch_changes | refine Changes.fst ‹_› ?_ | refine Changes.snd ‹_› ?_ | intro _ | split)

theorem refuseBlock_changes {pt : Part → Bool} {s0 : State} (s : State) (c : Cmd) (hK : Changes pt s0 s) (h_drawn : pt .drawn = true)
    (h_objects : pt .objects = true) (h_tallies : pt .tallies = true) (h_devMem : pt .devMem = true) (h_pairs : pt .pairs = true)
    (h_slots : pt .slots = true) (h_cmds : pt .cmds = true) (h_txa : pt .txa = true) (h_sdx : pt .sdx = true) (h_rsv : pt .rsv = true)
    (h_mdc : pt .mdc = true) (h_tok : pt .tok = true) (h_bat : pt .bat = true) (h_pools : pt .pools = true) (h_net : pt .net = true)
    (h_fed : pt .fed = true) (h_evt : pt .evt = true) (h_trace : pt .trace = true) : Changes pt s0 (refuseBlock s c) := by
  unfold refuseBlock
  repeat' (with_reducible first
      | assumption | apply refuseIssue_changes | apply refuseRecorded_changes | apply drawFree_changes | refine Changes.fst ‹_› ?_
      | refine Changes.snd ‹_› ?_ | intro _ | extract_lets | split | dsimp +zetaDelta only)

theorem issueCmd_changes {pt : Part → Bool} {s0 : State} (s : State) (c : Cmd) (hK : Changes pt s0 s) (h_drawn : pt .drawn = true)
    (h_objects : pt .objects = true) (h_tallies : pt .tallies = true) (h_devMem : pt .devMem = true) (h_staging : pt .staging = true)
    (h_pairs : pt .pairs = true) (h_slots : pt .slots = true) (h_cmds : pt .cmds = true) (h_seq : pt .seq = true)
    (h_arbs : pt .arbs = true) (h_txa : pt .txa = true) (h_forge : pt .forge = true) (h_sdx : pt .sdx = true) (h_rsv : pt .rsv = true)
    (h_mdc : pt .mdc = true) (h_tok : pt .tok = true) (h_bat : pt .bat = true) (h_pools : pt .pools = true) (h_dlv : pt .dlv = true)
    (h_net : pt .net = true) (h_fed : pt .fed = true) (h_evt : pt .evt = true) (h_trace : pt .trace = true) : Changes pt s0
    (issueCmd s c) := by
  unfold issueCmd
  repeat' (with_reducible first
      | assumption | apply refuseBlock_changes | apply issueWork_changes | apply readBlock_changes | apply modCmd_changes
      | apply takeEntry_changes | apply finishCmd_changes | apply traceRec_changes | refine Changes.fst ‹_› ?_
      | refine Changes.snd ‹_› ?_ | intro _ | extract_lets | split | dsimp +zetaDelta only | refine Changes.put ?_)

theorem pairError_changes {pt : Part → Bool} {s0 : State} (s : State) (p : Nat) (hK : Changes pt s0 s) (h_drawn : pt .drawn = true)
    (h_objects : pt .objects = true) (h_tallies : pt .tallies = true) (h_devMem : pt .devMem = true) (h_pairs : pt .pairs = true)
    (h_slots : pt .slots = true) (h_cmds : pt .cmds = true) (h_txa : pt .txa = true) (h_sdx : pt .sdx = true) (h_rsv : pt .rsv = true)
    (h_mdc : pt .mdc = true) (h_tok : pt .tok = true) (h_bat : pt .bat = true) (h_pools : pt .pools = true) (h_dlv : pt .dlv = true)
    (h_net : pt .net = true) (h_fed : pt .fed = true) (h_evt : pt .evt = true) (h_trace : pt .trace = true) : Changes pt s0
    (pairError s p) := by
  unfold pairError
  repeat' (with_reducible first
      | assumption | apply clearLink_changes | apply slotFault_changes | apply lastBadOther_changes | apply raiseErr_changes
      | apply setPair_changes | apply Changes.foldl | apply Changes.foldlFst | apply Changes.foldlSnd | intro _ | extract_lets
      | dsimp +zetaDelta only | refine Changes.put ?_)

theorem execCommandIssue_changes {pt : Part → Bool} {s0 : State} (slot queue : Nat) (ras : Nat) (s : State) (hK : Changes pt s0 s)
    (h_drawn : pt .drawn = true) (h_boot : pt .boot = true) (h_objects : pt .objects = true) (h_tallies : pt .tallies = true)
    (h_devMem : pt .devMem = true) (h_staging : pt .staging = true) (h_scratchpad : pt .scratchpad = true) (h_pairs : pt .pairs = true)
    (h_slots : pt .slots = true) (h_cmds : pt .cmds = true) (h_seq : pt .seq = true) (h_arbs : pt .arbs = true) (h_txa : pt .txa = true)
    (h_forge : pt .forge = true) (h_sdx : pt .sdx = true) (h_rsv : pt .rsv = true) (h_mdc : pt .mdc = true) (h_tok : pt .tok = true)
    (h_bat : pt .bat = true) (h_pools : pt .pools = true) (h_dlv : pt .dlv = true) (h_net : pt .net = true) (h_fed : pt .fed = true)
    (h_evt : pt .evt = true) (h_trace : pt .trace = true) : ∃ t, execCommandIssue slot queue ras s = .next t ∧ Changes pt s0 t := by
  refine ⟨_, rfl, ?_⟩
  repeat' (with_reducible first
      | assumption | apply pairError_changes | apply issueCmd_changes | apply fatalError_changes | apply askNext_changes
      | apply errFault_changes | apply lastBadOther_changes | refine Changes.fst ‹_› ?_ | refine Changes.snd ‹_› ?_ | intro _ | split)

/-! ## Bringup -/

theorem resetBlock_changes {pt : Part → Bool} {s0 : State} (s : State) (hK : Changes pt s0 s) (h_boot : pt .boot = true)
    (h_objects : pt .objects = true) (h_tallies : pt .tallies = true) (h_staging : pt .staging = true) (h_banks : pt .banks = true)
    (h_sets : pt .sets = true) (h_roots : pt .roots = true) (h_pairs : pt .pairs = true) (h_slots : pt .slots = true)
    (h_cmds : pt .cmds = true) (h_seq : pt .seq = true) (h_arbs : pt .arbs = true) (h_txa : pt .txa = true) (h_forge : pt .forge = true)
    (h_sdx : pt .sdx = true) (h_rsv : pt .rsv = true) (h_mdc : pt .mdc = true) (h_tok : pt .tok = true) (h_bat : pt .bat = true)
    (h_pools : pt .pools = true) (h_dlv : pt .dlv = true) (h_net : pt .net = true) (h_fed : pt .fed = true) (h_dict : pt .dict = true)
    (h_pins : pt .pins = true) (h_evt : pt .evt = true) (h_ras : pt .ras = true) (h_trace : pt .trace = true)
    (h_removal : pt .removal = true) : Changes pt s0 (resetBlock s) := by
  refine ⟨hK.pending, hK.drawn, Or.inl h_boot, fun k => Or.inl ?_, hK.devMem, Or.inl h_staging, hK.scratchpad, Or.inl h_banks, ?_, ?_,
      ?_, ?_, ?_, ?_,
    ?_, ?_, ?_, ?_, ?_, ?_, ?_, ?_, ?_, ?_, ?_, ?_, ?_, ?_, ?_, ?_, ?_, hK.tap, ?_⟩
  · unfold keyPart; split <;> assumption
  all_goals exact Or.inl (by assumption)

theorem powerOn_changes {pt : Part → Bool} {s0 : State} (s : State) (hK : Changes pt s0 s) (h_fed : pt .fed = true) : Changes pt s0
    (powerOn s) := by
  unfold powerOn
  repeat' (with_reducible first | assumption | refine Changes.put ?_)

theorem execPwrgoodRise_changes {pt : Part → Bool} {s0 : State} (s : State) (hK : Changes pt s0 s) (h_boot : pt .boot = true)
    (h_fed : pt .fed = true) : ∃ t, execPwrgoodRise s = .next t ∧ Changes pt s0 t := by
  refine ⟨_, rfl, ?_⟩
  repeat' (with_reducible first | assumption | apply powerOn_changes | intro _ | split | refine Changes.put ?_)

theorem execPwrgoodFall_changes {pt : Part → Bool} {s0 : State} (s : State) (hK : Changes pt s0 s) (h_boot : pt .boot = true)
    (h_objects : pt .objects = true) (h_tallies : pt .tallies = true) (h_staging : pt .staging = true) (h_banks : pt .banks = true)
    (h_sets : pt .sets = true) (h_roots : pt .roots = true) (h_pairs : pt .pairs = true) (h_slots : pt .slots = true)
    (h_cmds : pt .cmds = true) (h_seq : pt .seq = true) (h_arbs : pt .arbs = true) (h_txa : pt .txa = true) (h_forge : pt .forge = true)
    (h_sdx : pt .sdx = true) (h_rsv : pt .rsv = true) (h_mdc : pt .mdc = true) (h_tok : pt .tok = true) (h_bat : pt .bat = true)
    (h_pools : pt .pools = true) (h_dlv : pt .dlv = true) (h_net : pt .net = true) (h_fed : pt .fed = true) (h_dict : pt .dict = true)
    (h_pins : pt .pins = true) (h_evt : pt .evt = true) (h_ras : pt .ras = true) (h_trace : pt .trace = true)
    (h_removal : pt .removal = true) : ∃ t, execPwrgoodFall s = .next t ∧ Changes pt s0 t := by
  refine ⟨_, rfl, ?_⟩
  repeat' (with_reducible first | assumption | apply powerOn_changes | apply resetBlock_changes | intro _ | refine Changes.put ?_)

theorem execResetAssert_changes {pt : Part → Bool} {s0 : State} (s : State) (hK : Changes pt s0 s) (h_boot : pt .boot = true)
    (h_objects : pt .objects = true) (h_tallies : pt .tallies = true) (h_staging : pt .staging = true) (h_banks : pt .banks = true)
    (h_sets : pt .sets = true) (h_roots : pt .roots = true) (h_pairs : pt .pairs = true) (h_slots : pt .slots = true)
    (h_cmds : pt .cmds = true) (h_seq : pt .seq = true) (h_arbs : pt .arbs = true) (h_txa : pt .txa = true) (h_forge : pt .forge = true)
    (h_sdx : pt .sdx = true) (h_rsv : pt .rsv = true) (h_mdc : pt .mdc = true) (h_tok : pt .tok = true) (h_bat : pt .bat = true)
    (h_pools : pt .pools = true) (h_dlv : pt .dlv = true) (h_net : pt .net = true) (h_fed : pt .fed = true) (h_dict : pt .dict = true)
    (h_pins : pt .pins = true) (h_evt : pt .evt = true) (h_ras : pt .ras = true) (h_trace : pt .trace = true)
    (h_removal : pt .removal = true) : ∃ t, execResetAssert s = .next t ∧ Changes pt s0 t := by
  refine ⟨_, rfl, ?_⟩
  repeat' (with_reducible first | assumption | apply resetBlock_changes | intro _)

theorem execResetRelease_changes {pt : Part → Bool} {s0 : State} (s : State) (hK : Changes pt s0 s) (h_boot : pt .boot = true)
    (h_fed : pt .fed = true) : ∃ t, execResetRelease s = .next t ∧ Changes pt s0 t := by
  refine ⟨_, rfl, ?_⟩
  repeat' (with_reducible first | assumption | split | refine Changes.put ?_)

theorem fuseTiles_changes {pt : Part → Bool} {s0 : State} (s : State) (hK : Changes pt s0 s)
    (h_objects : pt .objects = true) : Changes pt s0 (fuseTiles s) := by
  unfold fuseTiles
  repeat' (with_reducible first
      | assumption | refine Changes.tally ?_ _ _ _ (by assumption) (by decide)
      | refine Changes.object ?_ _ _ _ (by assumption) (by decide) | refine Changes.any ?_ _ _ _ (by assumption) (by assumption)
      | intro _ | extract_lets | dsimp +zetaDelta only)

theorem execBringupStrapLatch_changes {pt : Part → Bool} {s0 : State} (packageKind arrayMode dieId memStrap mac0 mac1 : Nat) (s : State)
    (hK : Changes pt s0 s) (h_boot : pt .boot = true) (h_objects : pt .objects = true)
    (h_fed : pt .fed = true) : ∃ t, execBringupStrapLatch packageKind arrayMode dieId memStrap mac0 mac1 s = .next t ∧ Changes pt s0 t := by
  refine ⟨_, rfl, ?_⟩
  repeat' (with_reducible first
      | assumption | apply fuseTiles_changes | refine Changes.tally ?_ _ _ _ (by assumption) (by decide)
      | refine Changes.object ?_ _ _ _ (by assumption) (by decide) | refine Changes.any ?_ _ _ _ (by assumption) (by assumption)
      | intro _ | extract_lets | split | dsimp +zetaDelta only | refine Changes.put ?_)

theorem execBringupDomainPower_changes {pt : Part → Bool} {s0 : State} (s : State) (hK : Changes pt s0 s) (h_boot : pt .boot = true)
    (h_staging : pt .staging = true) (h_banks : pt .banks = true) : ∃ t, execBringupDomainPower s = .next t ∧ Changes pt s0 t := by
  refine ⟨_, rfl, ?_⟩
  repeat' (with_reducible first | assumption | split | refine Changes.put ?_)

theorem execBringupCcxSelftestDone_changes {pt : Part → Bool} {s0 : State} (passed : Bool) (memOk : Nat) (s : State)
    (hK : Changes pt s0 s) (h_boot : pt .boot = true)
    (h_fed : pt .fed = true) : ∃ t, execBringupCcxSelftestDone passed memOk s = .next t ∧ Changes pt s0 t := by
  refine ⟨_, rfl, ?_⟩
  repeat' (with_reducible first | assumption | split | refine Changes.put ?_)

theorem unitFailed_changes {pt : Part → Bool} {s0 : State} (s : State) (k : UnitKind) (code u : Nat) (hK : Changes pt s0 s)
    (h_boot : pt .boot = true) (h_objects : pt .objects = true) (h_tallies : pt .tallies = true) (h_evt : pt .evt = true)
    (h_trace : pt .trace = true) : Changes pt s0 (unitFailed s k code u) := by
  unfold unitFailed
  repeat' (with_reducible first
      | assumption | apply setRetired_changes | apply setEnable_changes | apply raiseErr_changes | intro _ | extract_lets | split
      | dsimp +zetaDelta only | refine Changes.put ?_)

theorem execBringupUnitSelftestDone_changes {pt : Part → Bool} {s0 : State} (txa sdx rsv mdc tok : List Nat) (s : State)
    (hK : Changes pt s0 s) (h_boot : pt .boot = true) (h_objects : pt .objects = true) (h_tallies : pt .tallies = true)
    (h_evt : pt .evt = true)
    (h_trace : pt .trace = true) : ∃ t, execBringupUnitSelftestDone txa sdx rsv mdc tok s = .next t ∧ Changes pt s0 t := by
  refine ⟨_, rfl, ?_⟩
  repeat' (with_reducible first
      | assumption | apply unitFailed_changes | apply Changes.foldl | apply Changes.foldlFst | apply Changes.foldlSnd | intro _
      | extract_lets | split | dsimp +zetaDelta only | refine Changes.put ?_)

theorem setQuiesce_changes {pt : Part → Bool} {s0 : State} (s : State) (p v : Nat) (hK : Changes pt s0 s)
    (h_objects : pt .objects = true) (h_tallies : pt .tallies = true) (h_net : pt .net = true) (h_evt : pt .evt = true) : Changes pt s0
    (setQuiesce s p v) := by
  unfold setQuiesce
  repeat' (with_reducible first
      | assumption | apply quiesceCheck_changes | apply modPort_changes | refine Changes.tally ?_ _ _ _ (by assumption) (by decide)
      | refine Changes.object ?_ _ _ _ (by assumption) (by decide) | refine Changes.any ?_ _ _ _ (by assumption) (by assumption)
      | intro _ | extract_lets | split | dsimp +zetaDelta only | refine Changes.put ?_)

theorem sagBegin_changes {pt : Part → Bool} {s0 : State} (s : State) (hK : Changes pt s0 s) (h_objects : pt .objects = true)
    (h_tallies : pt .tallies = true) (h_net : pt .net = true) (h_evt : pt .evt = true) (h_trace : pt .trace = true)
    (h_removal : pt .removal = true) : Changes pt s0 (sagBegin s) := by
  unfold sagBegin
  repeat' (with_reducible first
      | assumption | apply setQuiesce_changes | apply raiseErr_changes | intro _ | extract_lets | dsimp +zetaDelta only
      | refine Changes.put ?_)

theorem announceSelf_changes {pt : Part → Bool} {s0 : State} (s : State) (hK : Changes pt s0 s) (h_fed : pt .fed = true) : Changes pt s0
    (announceSelf s) := by
  unfold announceSelf
  repeat' (with_reducible first
      | assumption | apply fedSend_changes | intro _ | extract_lets | split | dsimp +zetaDelta only | refine Changes.put ?_)

theorem lateFailures_changes {pt : Part → Bool} {s0 : State} (s : State) (hK : Changes pt s0 s) (h_boot : pt .boot = true)
    (h_tallies : pt .tallies = true) (h_evt : pt .evt = true) (h_trace : pt .trace = true) : Changes pt s0 (lateFailures s) := by
  unfold lateFailures
  repeat' (with_reducible first
      | assumption | apply raiseErr_changes | apply Changes.foldl | apply Changes.foldlFst | apply Changes.foldlSnd | intro _
      | refine Changes.put ?_)

theorem trainPorts_changes {pt : Part → Bool} {s0 : State} (s : State) (hK : Changes pt s0 s) (h_boot : pt .boot = true)
    (h_net : pt .net = true) : Changes pt s0 (trainPorts s) := by
  unfold trainPorts
  repeat' (with_reducible first
      | assumption | apply startTraining_changes | apply netPower_changes | apply Changes.foldl | apply Changes.foldlFst
      | apply Changes.foldlSnd | intro _ | split)

theorem closeHeadCount_changes {pt : Part → Bool} {s0 : State} (s : State) (lead admitted version hcState aclk : Nat)
    (hK : Changes pt s0 s) (h_boot : pt .boot = true) (h_objects : pt .objects = true) (h_tallies : pt .tallies = true)
    (h_net : pt .net = true) (h_fed : pt .fed = true) (h_evt : pt .evt = true) (h_trace : pt .trace = true)
    (h_removal : pt .removal = true) : Changes pt s0 (closeHeadCount s lead admitted version hcState aclk) := by
  unfold closeHeadCount
  repeat' (with_reducible first
      | assumption | apply trainPorts_changes | apply lateFailures_changes | apply sagBegin_changes | apply engineReady_changes
      | apply fire_changes | refine Changes.tally ?_ _ _ _ (by assumption) (by decide)
      | refine Changes.object ?_ _ _ _ (by assumption) (by decide) | refine Changes.any ?_ _ _ _ (by assumption) (by assumption)
      | apply Changes.foldl | apply Changes.foldlFst | apply Changes.foldlSnd | intro _ | extract_lets | split | dsimp +zetaDelta only
      | refine Changes.put ?_)

theorem dropRemotes_changes {pt : Part → Bool} {s0 : State} (s : State) (d id : Nat) (hK : Changes pt s0 s) (h_drawn : pt .drawn = true)
    (h_objects : pt .objects = true) (h_tallies : pt .tallies = true) (h_devMem : pt .devMem = true) (h_pairs : pt .pairs = true)
    (h_slots : pt .slots = true) (h_cmds : pt .cmds = true) (h_txa : pt .txa = true) (h_sdx : pt .sdx = true) (h_rsv : pt .rsv = true)
    (h_mdc : pt .mdc = true) (h_tok : pt .tok = true) (h_bat : pt .bat = true) (h_pools : pt .pools = true) (h_dlv : pt .dlv = true)
    (h_net : pt .net = true) (h_fed : pt .fed = true) (h_evt : pt .evt = true) (h_trace : pt .trace = true) : Changes pt s0
    (dropRemotes s d id) := by
  unfold dropRemotes
  repeat' (with_reducible first
      | assumption | apply advanceDlv_changes | apply dlvError_changes | apply modDlv_changes | apply Changes.foldl
      | apply Changes.foldlFst | apply Changes.foldlSnd | refine Changes.fst ‹_› ?_ | refine Changes.snd ‹_› ?_ | intro _
      | extract_lets | split | dsimp +zetaDelta only | refine Changes.put ?_)

theorem closeAnnounced_changes {pt : Part → Bool} {s0 : State} (s : State) (d : Nat) (hK : Changes pt s0 s) (h_drawn : pt .drawn = true)
    (h_objects : pt .objects = true) (h_tallies : pt .tallies = true) (h_devMem : pt .devMem = true) (h_pairs : pt .pairs = true)
    (h_slots : pt .slots = true) (h_cmds : pt .cmds = true) (h_txa : pt .txa = true) (h_sdx : pt .sdx = true) (h_rsv : pt .rsv = true)
    (h_mdc : pt .mdc = true) (h_tok : pt .tok = true) (h_bat : pt .bat = true) (h_pools : pt .pools = true) (h_dlv : pt .dlv = true)
    (h_net : pt .net = true) (h_fed : pt .fed = true) (h_evt : pt .evt = true) (h_trace : pt .trace = true) : Changes pt s0
    (closeAnnounced s d) := by
  unfold closeAnnounced
  repeat' (with_reducible first
      | assumption | apply advanceDlv_changes | apply modDlv_changes | apply Changes.foldl | apply Changes.foldlFst
      | apply Changes.foldlSnd | refine Changes.fst ‹_› ?_ | refine Changes.snd ‹_› ?_ | intro _ | extract_lets | split
      | dsimp +zetaDelta only | refine Changes.put ?_)

theorem dieLost_changes {pt : Part → Bool} {s0 : State} (s : State) (d : Nat) (hK : Changes pt s0 s) (h_drawn : pt .drawn = true)
    (h_objects : pt .objects = true) (h_tallies : pt .tallies = true) (h_devMem : pt .devMem = true) (h_pairs : pt .pairs = true)
    (h_slots : pt .slots = true) (h_cmds : pt .cmds = true) (h_txa : pt .txa = true) (h_sdx : pt .sdx = true) (h_rsv : pt .rsv = true)
    (h_mdc : pt .mdc = true) (h_tok : pt .tok = true) (h_bat : pt .bat = true) (h_pools : pt .pools = true) (h_dlv : pt .dlv = true)
    (h_net : pt .net = true) (h_fed : pt .fed = true) (h_evt : pt .evt = true) (h_trace : pt .trace = true) : Changes pt s0
    (dieLost s d) := by
  unfold dieLost
  repeat' (with_reducible first
      | assumption | apply closeAnnounced_changes | apply dropRemotes_changes | apply slotFault_changes | apply raiseErr_changes
      | apply Changes.foldl | apply Changes.foldlFst | apply Changes.foldlSnd | intro _ | extract_lets | dsimp +zetaDelta only
      | refine Changes.put ?_)

theorem changeRoster_changes {pt : Part → Bool} {s0 : State} (s : State) (lead admitted version : Nat) (hK : Changes pt s0 s)
    (h_drawn : pt .drawn = true) (h_objects : pt .objects = true) (h_tallies : pt .tallies = true) (h_devMem : pt .devMem = true)
    (h_pairs : pt .pairs = true) (h_slots : pt .slots = true) (h_cmds : pt .cmds = true) (h_txa : pt .txa = true)
    (h_sdx : pt .sdx = true) (h_rsv : pt .rsv = true) (h_mdc : pt .mdc = true) (h_tok : pt .tok = true) (h_bat : pt .bat = true)
    (h_pools : pt .pools = true) (h_dlv : pt .dlv = true) (h_net : pt .net = true) (h_fed : pt .fed = true) (h_evt : pt .evt = true)
    (h_trace : pt .trace = true) : Changes pt s0 (changeRoster s lead admitted version) := by
  unfold changeRoster
  repeat' (with_reducible first
      | assumption | apply dieLost_changes | apply sendArrive_changes | apply leadRelease_changes | apply Changes.foldl
      | apply Changes.foldlFst | apply Changes.foldlSnd | intro _ | extract_lets | split | dsimp +zetaDelta only
      | refine Changes.put ?_)

theorem becomeLead_changes {pt : Part → Bool} {s0 : State} (s : State) (aclk : Nat) (hK : Changes pt s0 s) (h_drawn : pt .drawn = true)
    (h_boot : pt .boot = true) (h_objects : pt .objects = true) (h_tallies : pt .tallies = true) (h_devMem : pt .devMem = true)
    (h_pairs : pt .pairs = true) (h_slots : pt .slots = true) (h_cmds : pt .cmds = true) (h_txa : pt .txa = true)
    (h_sdx : pt .sdx = true) (h_rsv : pt .rsv = true) (h_mdc : pt .mdc = true) (h_tok : pt .tok = true) (h_bat : pt .bat = true)
    (h_pools : pt .pools = true) (h_dlv : pt .dlv = true) (h_net : pt .net = true) (h_fed : pt .fed = true) (h_evt : pt .evt = true)
    (h_trace : pt .trace = true) (h_removal : pt .removal = true) : Changes pt s0 (becomeLead s aclk) := by
  unfold becomeLead
  repeat' (with_reducible first
      | assumption | apply changeRoster_changes | apply closeHeadCount_changes | apply fedSend_changes | intro _ | extract_lets | split
      | dsimp +zetaDelta only)

theorem closeCheck_changes {pt : Part → Bool} {s0 : State} (s : State) (aclk : Nat) (hK : Changes pt s0 s) (h_drawn : pt .drawn = true)
    (h_boot : pt .boot = true) (h_objects : pt .objects = true) (h_tallies : pt .tallies = true) (h_devMem : pt .devMem = true)
    (h_pairs : pt .pairs = true) (h_slots : pt .slots = true) (h_cmds : pt .cmds = true) (h_txa : pt .txa = true)
    (h_sdx : pt .sdx = true) (h_rsv : pt .rsv = true) (h_mdc : pt .mdc = true) (h_tok : pt .tok = true) (h_bat : pt .bat = true)
    (h_pools : pt .pools = true) (h_dlv : pt .dlv = true) (h_net : pt .net = true) (h_fed : pt .fed = true) (h_evt : pt .evt = true)
    (h_trace : pt .trace = true) (h_removal : pt .removal = true) : Changes pt s0 (closeCheck s aclk) := by
  unfold closeCheck
  repeat' (with_reducible first | assumption | apply becomeLead_changes | intro _ | split)

theorem registerWith_changes {pt : Part → Bool} {s0 : State} (s : State) (d : Nat) (hK : Changes pt s0 s)
    (h_fed : pt .fed = true) : Changes pt s0 (registerWith s d) := by
  unfold registerWith
  repeat' (with_reducible first
      | assumption | apply fedSend_changes | apply Changes.foldl | apply Changes.foldlFst | apply Changes.foldlSnd | intro _
      | extract_lets | split | dsimp +zetaDelta only | refine Changes.put ?_)

theorem registerNow_changes {pt : Part → Bool} {s0 : State} (s : State) (aclk : Nat) (hK : Changes pt s0 s) (h_drawn : pt .drawn = true)
    (h_boot : pt .boot = true) (h_objects : pt .objects = true) (h_tallies : pt .tallies = true) (h_devMem : pt .devMem = true)
    (h_pairs : pt .pairs = true) (h_slots : pt .slots = true) (h_cmds : pt .cmds = true) (h_txa : pt .txa = true)
    (h_sdx : pt .sdx = true) (h_rsv : pt .rsv = true) (h_mdc : pt .mdc = true) (h_tok : pt .tok = true) (h_bat : pt .bat = true)
    (h_pools : pt .pools = true) (h_dlv : pt .dlv = true) (h_net : pt .net = true) (h_fed : pt .fed = true) (h_evt : pt .evt = true)
    (h_trace : pt .trace = true) (h_removal : pt .removal = true) : Changes pt s0 (registerNow s aclk) := by
  unfold registerNow
  repeat' (with_reducible first
      | assumption | apply registerWith_changes | apply closeCheck_changes | refine Changes.fst ‹_› ?_ | refine Changes.snd ‹_› ?_
      | intro _ | split | refine Changes.put ?_)

theorem execD2dLinkTrainingDone_changes {pt : Part → Bool} {s0 : State} (links aclk : Nat) (s : State) (hK : Changes pt s0 s)
    (h_drawn : pt .drawn = true) (h_boot : pt .boot = true) (h_objects : pt .objects = true) (h_tallies : pt .tallies = true)
    (h_devMem : pt .devMem = true) (h_pairs : pt .pairs = true) (h_slots : pt .slots = true) (h_cmds : pt .cmds = true)
    (h_txa : pt .txa = true) (h_sdx : pt .sdx = true) (h_rsv : pt .rsv = true) (h_mdc : pt .mdc = true) (h_tok : pt .tok = true)
    (h_bat : pt .bat = true) (h_pools : pt .pools = true) (h_dlv : pt .dlv = true) (h_net : pt .net = true) (h_fed : pt .fed = true)
    (h_evt : pt .evt = true) (h_trace : pt .trace = true)
    (h_removal : pt .removal = true) : ∃ t, execD2dLinkTrainingDone links aclk s = .next t ∧ Changes pt s0 t := by
  refine ⟨_, rfl, ?_⟩
  repeat' (with_reducible first
      | assumption | apply registerNow_changes | apply announceSelf_changes | intro _ | extract_lets | split | dsimp +zetaDelta only
      | refine Changes.put ?_)

theorem execAnnounce_changes {pt : Part → Bool} {s0 : State} (msg : FedArrival) (aclk : Nat) (s : State) (hK : Changes pt s0 s)
    (h_drawn : pt .drawn = true) (h_boot : pt .boot = true) (h_objects : pt .objects = true) (h_tallies : pt .tallies = true)
    (h_devMem : pt .devMem = true) (h_pairs : pt .pairs = true) (h_slots : pt .slots = true) (h_cmds : pt .cmds = true)
    (h_txa : pt .txa = true) (h_sdx : pt .sdx = true) (h_rsv : pt .rsv = true) (h_mdc : pt .mdc = true) (h_tok : pt .tok = true)
    (h_bat : pt .bat = true) (h_pools : pt .pools = true) (h_dlv : pt .dlv = true) (h_net : pt .net = true) (h_fed : pt .fed = true)
    (h_evt : pt .evt = true) (h_trace : pt .trace = true)
    (h_removal : pt .removal = true) : ∃ t, execAnnounce msg aclk s = .next t ∧ Changes pt s0 t := by
  refine ⟨_, rfl, ?_⟩
  repeat' (with_reducible first
      | assumption | apply registerNow_changes | apply registerWith_changes | apply closeCheck_changes | apply fedTake_changes
      | intro _ | extract_lets | split | dsimp +zetaDelta only | refine Changes.put ?_)

theorem execRegister_changes {pt : Part → Bool} {s0 : State} (msg : FedArrival) (aclk : Nat) (s : State) (hK : Changes pt s0 s)
    (h_drawn : pt .drawn = true) (h_boot : pt .boot = true) (h_objects : pt .objects = true) (h_tallies : pt .tallies = true)
    (h_devMem : pt .devMem = true) (h_pairs : pt .pairs = true) (h_slots : pt .slots = true) (h_cmds : pt .cmds = true)
    (h_txa : pt .txa = true) (h_sdx : pt .sdx = true) (h_rsv : pt .rsv = true) (h_mdc : pt .mdc = true) (h_tok : pt .tok = true)
    (h_bat : pt .bat = true) (h_pools : pt .pools = true) (h_dlv : pt .dlv = true) (h_net : pt .net = true) (h_fed : pt .fed = true)
    (h_evt : pt .evt = true) (h_trace : pt .trace = true)
    (h_removal : pt .removal = true) : ∃ t, execRegister msg aclk s = .next t ∧ Changes pt s0 t := by
  refine ⟨_, rfl, ?_⟩
  repeat' (with_reducible first
      | assumption | apply closeCheck_changes | apply fedTake_changes | apply fedSend_changes | refine Changes.fst ‹_› ?_
      | refine Changes.snd ‹_› ?_ | intro _ | extract_lets | split | dsimp +zetaDelta only | refine Changes.put ?_)

theorem execRedirect_changes {pt : Part → Bool} {s0 : State} (msg : FedArrival) (s : State) (hK : Changes pt s0 s)
    (h_tallies : pt .tallies = true) (h_fed : pt .fed = true) : ∃ t, execRedirect msg s = .next t ∧ Changes pt s0 t := by
  refine ⟨_, rfl, ?_⟩
  repeat' (with_reducible first
      | assumption | apply registerWith_changes | apply fedTake_changes | intro _ | extract_lets | split | dsimp +zetaDelta only)

theorem exclude_changes {pt : Part → Bool} {s0 : State} (s : State) (hK : Changes pt s0 s) (h_drawn : pt .drawn = true)
    (h_boot : pt .boot = true) (h_objects : pt .objects = true) (h_tallies : pt .tallies = true) (h_devMem : pt .devMem = true)
    (h_pairs : pt .pairs = true) (h_slots : pt .slots = true) (h_cmds : pt .cmds = true) (h_txa : pt .txa = true)
    (h_sdx : pt .sdx = true) (h_rsv : pt .rsv = true) (h_mdc : pt .mdc = true) (h_tok : pt .tok = true) (h_bat : pt .bat = true)
    (h_pools : pt .pools = true) (h_dlv : pt .dlv = true) (h_net : pt .net = true) (h_fed : pt .fed = true) (h_dict : pt .dict = true)
    (h_evt : pt .evt = true) (h_trace : pt .trace = true) : Changes pt s0 (exclude s) := by
  unfold exclude
  repeat' (with_reducible first
      | assumption | apply portDown_changes | apply netPower_changes | apply Changes.foldl | apply Changes.foldlFst
      | apply Changes.foldlSnd | intro _ | extract_lets | dsimp +zetaDelta only | refine Changes.put ?_)

theorem execRoster_changes {pt : Part → Bool} {s0 : State} (msg : FedArrival) (aclk : Nat) (s : State) (hK : Changes pt s0 s)
    (h_drawn : pt .drawn = true) (h_boot : pt .boot = true) (h_objects : pt .objects = true) (h_tallies : pt .tallies = true)
    (h_devMem : pt .devMem = true) (h_pairs : pt .pairs = true) (h_slots : pt .slots = true) (h_cmds : pt .cmds = true)
    (h_txa : pt .txa = true) (h_sdx : pt .sdx = true) (h_rsv : pt .rsv = true) (h_mdc : pt .mdc = true) (h_tok : pt .tok = true)
    (h_bat : pt .bat = true) (h_pools : pt .pools = true) (h_dlv : pt .dlv = true) (h_net : pt .net = true) (h_fed : pt .fed = true)
    (h_dict : pt .dict = true) (h_evt : pt .evt = true) (h_trace : pt .trace = true)
    (h_removal : pt .removal = true) : ∃ t, execRoster msg aclk s = .next t ∧ Changes pt s0 t := by
  refine ⟨_, rfl, ?_⟩
  repeat' (with_reducible first
      | assumption | apply exclude_changes | apply changeRoster_changes | apply closeHeadCount_changes | apply fedTake_changes
      | intro _ | extract_lets | split | dsimp +zetaDelta only)

theorem execAnnounceDeadline_changes {pt : Part → Bool} {s0 : State} (aclk : Nat) (s : State) (hK : Changes pt s0 s)
    (h_drawn : pt .drawn = true) (h_boot : pt .boot = true) (h_objects : pt .objects = true) (h_tallies : pt .tallies = true)
    (h_devMem : pt .devMem = true) (h_pairs : pt .pairs = true) (h_slots : pt .slots = true) (h_cmds : pt .cmds = true)
    (h_txa : pt .txa = true) (h_sdx : pt .sdx = true) (h_rsv : pt .rsv = true) (h_mdc : pt .mdc = true) (h_tok : pt .tok = true)
    (h_bat : pt .bat = true) (h_pools : pt .pools = true) (h_dlv : pt .dlv = true) (h_net : pt .net = true) (h_fed : pt .fed = true)
    (h_evt : pt .evt = true) (h_trace : pt .trace = true)
    (h_removal : pt .removal = true) : ∃ t, execAnnounceDeadline aclk s = .next t ∧ Changes pt s0 t := by
  refine ⟨_, rfl, ?_⟩
  repeat' (with_reducible first | assumption | apply registerNow_changes | intro _ | split)

theorem execCloseDeadline_changes {pt : Part → Bool} {s0 : State} (aclk : Nat) (s : State) (hK : Changes pt s0 s)
    (h_drawn : pt .drawn = true) (h_boot : pt .boot = true) (h_objects : pt .objects = true) (h_tallies : pt .tallies = true)
    (h_devMem : pt .devMem = true) (h_pairs : pt .pairs = true) (h_slots : pt .slots = true) (h_cmds : pt .cmds = true)
    (h_txa : pt .txa = true) (h_sdx : pt .sdx = true) (h_rsv : pt .rsv = true) (h_mdc : pt .mdc = true) (h_tok : pt .tok = true)
    (h_bat : pt .bat = true) (h_pools : pt .pools = true) (h_dlv : pt .dlv = true) (h_net : pt .net = true) (h_fed : pt .fed = true)
    (h_evt : pt .evt = true) (h_trace : pt .trace = true)
    (h_removal : pt .removal = true) : ∃ t, execCloseDeadline aclk s = .next t ∧ Changes pt s0 t := by
  refine ⟨_, rfl, ?_⟩
  repeat' (with_reducible first | assumption | apply becomeLead_changes | intro _ | split)

theorem execExclusionDeadline_changes {pt : Part → Bool} {s0 : State} (s : State) (hK : Changes pt s0 s) (h_drawn : pt .drawn = true)
    (h_boot : pt .boot = true) (h_objects : pt .objects = true) (h_tallies : pt .tallies = true) (h_devMem : pt .devMem = true)
    (h_pairs : pt .pairs = true) (h_slots : pt .slots = true) (h_cmds : pt .cmds = true) (h_txa : pt .txa = true)
    (h_sdx : pt .sdx = true) (h_rsv : pt .rsv = true) (h_mdc : pt .mdc = true) (h_tok : pt .tok = true) (h_bat : pt .bat = true)
    (h_pools : pt .pools = true) (h_dlv : pt .dlv = true) (h_net : pt .net = true) (h_fed : pt .fed = true) (h_dict : pt .dict = true)
    (h_evt : pt .evt = true) (h_trace : pt .trace = true) : ∃ t, execExclusionDeadline s = .next t ∧ Changes pt s0 t := by
  refine ⟨_, rfl, ?_⟩
  repeat' (with_reducible first | assumption | apply exclude_changes | intro _ | split)

theorem execBeat_changes {pt : Part → Bool} {s0 : State} (msg : FedArrival) (s : State) (hK : Changes pt s0 s)
    (h_tallies : pt .tallies = true) (h_fed : pt .fed = true) : ∃ t, execBeat msg s = .next t ∧ Changes pt s0 t := by
  refine ⟨_, rfl, ?_⟩
  repeat' (with_reducible first | assumption | apply fedTake_changes | apply fedSend_changes | intro _ | split)

theorem execBeatSend_changes {pt : Part → Bool} {s0 : State} (s : State) (hK : Changes pt s0 s)
    (h_fed : pt .fed = true) : ∃ t, execBeatSend s = .next t ∧ Changes pt s0 t := by
  refine ⟨_, rfl, ?_⟩
  repeat' (with_reducible first | assumption | apply fedSend_changes | intro _ | split)

theorem elect_changes {pt : Part → Bool} {s0 : State} (s : State) (hK : Changes pt s0 s) (h_drawn : pt .drawn = true)
    (h_boot : pt .boot = true) (h_objects : pt .objects = true) (h_tallies : pt .tallies = true) (h_devMem : pt .devMem = true)
    (h_pairs : pt .pairs = true) (h_slots : pt .slots = true) (h_cmds : pt .cmds = true) (h_txa : pt .txa = true)
    (h_sdx : pt .sdx = true) (h_rsv : pt .rsv = true) (h_mdc : pt .mdc = true) (h_tok : pt .tok = true) (h_bat : pt .bat = true)
    (h_pools : pt .pools = true) (h_dlv : pt .dlv = true) (h_net : pt .net = true) (h_fed : pt .fed = true) (h_evt : pt .evt = true)
    (h_trace : pt .trace = true) (h_removal : pt .removal = true) : Changes pt s0 (elect s) := by
  unfold elect
  repeat' (with_reducible first
      | assumption | apply registerNow_changes | apply announceSelf_changes | intro _ | extract_lets | split | dsimp +zetaDelta only
      | refine Changes.put ?_)

theorem execFedLeaveTimeout_changes {pt : Part → Bool} {s0 : State} (die : Nat) (s : State) (hK : Changes pt s0 s)
    (h_drawn : pt .drawn = true) (h_boot : pt .boot = true) (h_objects : pt .objects = true) (h_tallies : pt .tallies = true)
    (h_devMem : pt .devMem = true) (h_pairs : pt .pairs = true) (h_slots : pt .slots = true) (h_cmds : pt .cmds = true)
    (h_txa : pt .txa = true) (h_sdx : pt .sdx = true) (h_rsv : pt .rsv = true) (h_mdc : pt .mdc = true) (h_tok : pt .tok = true)
    (h_bat : pt .bat = true) (h_pools : pt .pools = true) (h_dlv : pt .dlv = true) (h_net : pt .net = true) (h_fed : pt .fed = true)
    (h_evt : pt .evt = true) (h_trace : pt .trace = true)
    (h_removal : pt .removal = true) : ∃ t, execFedLeaveTimeout die s = .next t ∧ Changes pt s0 t := by
  refine ⟨_, rfl, ?_⟩
  repeat' (with_reducible first
      | assumption | apply elect_changes | apply changeRoster_changes | apply fedSend_changes | intro _ | extract_lets | split
      | dsimp +zetaDelta only)

theorem execD2dLinkLoss_changes {pt : Part → Bool} {s0 : State} (link : Nat) (s : State) (hK : Changes pt s0 s)
    (h_drawn : pt .drawn = true) (h_boot : pt .boot = true) (h_objects : pt .objects = true) (h_tallies : pt .tallies = true)
    (h_devMem : pt .devMem = true) (h_pairs : pt .pairs = true) (h_slots : pt .slots = true) (h_cmds : pt .cmds = true)
    (h_txa : pt .txa = true) (h_sdx : pt .sdx = true) (h_rsv : pt .rsv = true) (h_mdc : pt .mdc = true) (h_tok : pt .tok = true)
    (h_bat : pt .bat = true) (h_pools : pt .pools = true) (h_dlv : pt .dlv = true) (h_net : pt .net = true) (h_fed : pt .fed = true)
    (h_dict : pt .dict = true) (h_evt : pt .evt = true)
    (h_trace : pt .trace = true) : ∃ t, execD2dLinkLoss link s = .next t ∧ Changes pt s0 t := by
  refine ⟨_, rfl, ?_⟩
  repeat' (with_reducible first
      | assumption | apply exclude_changes | intro _ | extract_lets | split | dsimp +zetaDelta only | refine Changes.put ?_)

/-! ## Removal -/

theorem dumpCounters_changes {pt : Part → Bool} {s0 : State} (s : State) (hK : Changes pt s0 s)
    (h_devMem : pt .devMem = true) : Changes pt s0 (dumpCounters s) := by
  unfold dumpCounters
  repeat' (with_reducible first | assumption | apply memWrite_changes | intro _ | extract_lets | split | dsimp +zetaDelta only)

theorem execCounterDump_changes {pt : Part → Bool} {s0 : State} (s : State) (hK : Changes pt s0 s)
    (h_devMem : pt .devMem = true) : ∃ t, execCounterDump s = .next t ∧ Changes pt s0 t := by
  refine ⟨_, rfl, ?_⟩
  repeat' (with_reducible first | assumption | apply dumpCounters_changes | intro _ | split)

theorem execBusSag_changes {pt : Part → Bool} {s0 : State} (s : State) (hK : Changes pt s0 s) (h_boot : pt .boot = true)
    (h_objects : pt .objects = true) (h_tallies : pt .tallies = true) (h_net : pt .net = true) (h_evt : pt .evt = true)
    (h_trace : pt .trace = true) (h_removal : pt .removal = true) : ∃ t, execBusSag s = .next t ∧ Changes pt s0 t := by
  refine ⟨_, rfl, ?_⟩
  repeat' (with_reducible first
      | assumption | apply sagBegin_changes | intro _ | extract_lets | split | dsimp +zetaDelta only | refine Changes.put ?_)

theorem execBusSagEnd_changes {pt : Part → Bool} {s0 : State} (s : State) (hK : Changes pt s0 s)
    (h_boot : pt .boot = true) : ∃ t, execBusSagEnd s = .next t ∧ Changes pt s0 t := by
  refine ⟨_, rfl, ?_⟩
  repeat' (with_reducible first | assumption | refine Changes.put ?_)

theorem sagResumeEffect_changes {pt : Part → Bool} {s0 : State} (x0 : Via) (x1 : Nat) (x2 : Nat) (x3 : List Byte) (s : State)
    (hK : Changes pt s0 s) (h_objects : pt .objects = true) (h_tallies : pt .tallies = true) (h_net : pt .net = true)
    (h_fed : pt .fed = true) (h_dict : pt .dict = true) (h_evt : pt .evt = true) (h_removal : pt .removal = true) : Changes pt s0
    (sagResumeEffect x0 x1 x2 x3 s) := by
  unfold sagResumeEffect
  repeat' (with_reducible first
      | assumption | apply setQuiesce_changes | apply startTraining_changes | apply packageEffect_changes | apply packageDone_changes
      | apply dictAbort_changes | apply Changes.foldl | apply Changes.foldlFst | apply Changes.foldlSnd | intro _ | extract_lets
      | split | dsimp +zetaDelta only | refine Changes.put ?_)

theorem execSagResume_changes {pt : Part → Bool} {s0 : State} (via : Via) (value : Nat) (s : State) (hK : Changes pt s0 s)
    (h_objects : pt .objects = true) (h_tallies : pt .tallies = true) (h_net : pt .net = true) (h_fed : pt .fed = true)
    (h_dict : pt .dict = true) (h_evt : pt .evt = true) (h_trace : pt .trace = true)
    (h_removal : pt .removal = true) : ∃ t, execSagResume via value s = .next t ∧ Changes pt s0 t := by
  refine ⟨_, rfl, ?_⟩
  repeat' (with_reducible first | assumption | apply sagResumeEffect_changes | apply requestWrite_changes | intro _)

theorem startSave_changes {pt : Part → Bool} {s0 : State} (s : State) (n : Nat) (removal : Bool) (hK : Changes pt s0 s)
    (h_devMem : pt .devMem = true) (h_pairs : pt .pairs = true) (h_slots : pt .slots = true) (h_cmds : pt .cmds = true)
    (h_bat : pt .bat = true) : Changes pt s0 (startSave s n removal) := by
  unfold startSave
  repeat' (with_reducible first
      | assumption | apply batStop_changes | apply setPair_changes | apply modSlot_changes | apply Changes.foldl
      | apply Changes.foldlFst | apply Changes.foldlSnd | refine Changes.fst ‹_› ?_ | refine Changes.snd ‹_› ?_ | intro _
      | extract_lets | split | dsimp +zetaDelta only | refine Changes.put ?_)

theorem rucksackSaveEffect_changes {pt : Part → Bool} {s0 : State} (e : Elsewhere) (x0 : Via) (x1 : Nat) (x2 : Nat) (x3 : List Byte)
    (s : State) (hK : Changes pt s0 s) (h_tallies : pt .tallies = true) (h_devMem : pt .devMem = true) (h_pairs : pt .pairs = true)
    (h_slots : pt .slots = true) (h_cmds : pt .cmds = true) (h_bat : pt .bat = true) (h_fed : pt .fed = true)
    (h_dict : pt .dict = true) : Changes pt s0 (rucksackSaveEffect e x0 x1 x2 x3 s) := by
  unfold rucksackSaveEffect
  repeat' (with_reducible first
      | assumption | apply startSave_changes | apply packageEffect_changes | apply packageDone_changes | apply dictAbort_changes
      | intro _ | extract_lets | split | dsimp +zetaDelta only)

theorem execRucksackSave_changes {pt : Part → Bool} {s0 : State} (via : Via) (slot : Nat) (elsewhere : Elsewhere) (s : State)
    (hK : Changes pt s0 s) (h_tallies : pt .tallies = true) (h_devMem : pt .devMem = true) (h_pairs : pt .pairs = true)
    (h_slots : pt .slots = true) (h_cmds : pt .cmds = true) (h_bat : pt .bat = true) (h_fed : pt .fed = true) (h_dict : pt .dict = true)
    (h_trace : pt .trace = true) : ∃ t, execRucksackSave via slot elsewhere s = .next t ∧ Changes pt s0 t := by
  refine ⟨_, rfl, ?_⟩
  repeat' (with_reducible first | assumption | apply rucksackSaveEffect_changes | apply requestWrite_changes | intro _)

theorem dropUnits_changes {pt : Part → Bool} {s0 : State} (s : State) (n : Nat) (hK : Changes pt s0 s) (h_drawn : pt .drawn = true)
    (h_objects : pt .objects = true) (h_tallies : pt .tallies = true) (h_devMem : pt .devMem = true) (h_pairs : pt .pairs = true)
    (h_slots : pt .slots = true) (h_cmds : pt .cmds = true) (h_arbs : pt .arbs = true) (h_txa : pt .txa = true)
    (h_forge : pt .forge = true) (h_sdx : pt .sdx = true) (h_rsv : pt .rsv = true) (h_mdc : pt .mdc = true) (h_tok : pt .tok = true)
    (h_bat : pt .bat = true) (h_pools : pt .pools = true) (h_dlv : pt .dlv = true) (h_net : pt .net = true) (h_fed : pt .fed = true)
    (h_evt : pt .evt = true) (h_trace : pt .trace = true) : Changes pt s0 (dropUnits s n) := by
  unfold dropUnits
  repeat' (with_reducible first
      | assumption | apply abandonTile_changes | apply rsvServe_changes | apply giveUnits_changes | apply freeLane_changes
      | apply unitDone_changes | apply Changes.foldl | apply Changes.foldlFst | apply Changes.foldlSnd | refine Changes.fst ‹_› ?_
      | refine Changes.snd ‹_› ?_ | intro _ | extract_lets | split | dsimp +zetaDelta only | refine Changes.put ?_)

theorem dropDeliveries_changes {pt : Part → Bool} {s0 : State} (s : State) (n : Nat) (hK : Changes pt s0 s)
    (h_objects : pt .objects = true) (h_tallies : pt .tallies = true) (h_sdx : pt .sdx = true) (h_dlv : pt .dlv = true) : Changes pt s0
    (dropDeliveries s n) := by
  unfold dropDeliveries
  repeat' (with_reducible first
      | assumption | apply lineLeaves_changes | apply sliverUse_changes | apply giveUnits_changes | apply Changes.foldl
      | apply Changes.foldlFst | apply Changes.foldlSnd | intro _ | extract_lets | dsimp +zetaDelta only | refine Changes.put ?_)

theorem dropLandings_changes {pt : Part → Bool} {s0 : State} (s : State) (n : Nat) (hK : Changes pt s0 s) (h_drawn : pt .drawn = true)
    (h_objects : pt .objects = true) (h_tallies : pt .tallies = true) (h_devMem : pt .devMem = true) (h_pairs : pt .pairs = true)
    (h_slots : pt .slots = true) (h_cmds : pt .cmds = true) (h_txa : pt .txa = true) (h_sdx : pt .sdx = true) (h_rsv : pt .rsv = true)
    (h_mdc : pt .mdc = true) (h_tok : pt .tok = true) (h_bat : pt .bat = true) (h_pools : pt .pools = true) (h_dlv : pt .dlv = true)
    (h_net : pt .net = true) (h_fed : pt .fed = true) (h_dict : pt .dict = true) (h_evt : pt .evt = true)
    (h_trace : pt .trace = true) : Changes pt s0 (dropLandings s n) := by
  unfold dropLandings
  repeat' (with_reducible first
      | assumption | apply cutMessages_changes | apply withdrawOpen_changes | apply Changes.foldl | apply Changes.foldlFst
      | apply Changes.foldlSnd | intro _ | extract_lets | dsimp +zetaDelta only | refine Changes.put ?_)

theorem abandonSlot_changes {pt : Part → Bool} {s0 : State} (s : State) (n : Nat) (hK : Changes pt s0 s) (h_drawn : pt .drawn = true)
    (h_objects : pt .objects = true) (h_tallies : pt .tallies = true) (h_devMem : pt .devMem = true) (h_pairs : pt .pairs = true)
    (h_slots : pt .slots = true) (h_cmds : pt .cmds = true) (h_arbs : pt .arbs = true) (h_txa : pt .txa = true)
    (h_forge : pt .forge = true) (h_sdx : pt .sdx = true) (h_rsv : pt .rsv = true) (h_mdc : pt .mdc = true) (h_tok : pt .tok = true)
    (h_bat : pt .bat = true) (h_pools : pt .pools = true) (h_dlv : pt .dlv = true) (h_net : pt .net = true) (h_fed : pt .fed = true)
    (h_dict : pt .dict = true) (h_evt : pt .evt = true) (h_trace : pt .trace = true) : Changes pt s0 (abandonSlot s n) := by
  unfold abandonSlot
  repeat' (with_reducible first
      | assumption | apply dropLandings_changes | apply dropDeliveries_changes | apply dropUnits_changes | apply withdrawWaits_changes
      | apply abandonStages_changes | apply freeBuffers_changes | intro _ | extract_lets | dsimp +zetaDelta only
      | refine Changes.put ?_)

theorem drainSave_changes {pt : Part → Bool} {s0 : State} (s : State) (n : Nat) (hK : Changes pt s0 s) (h_drawn : pt .drawn = true)
    (h_objects : pt .objects = true) (h_tallies : pt .tallies = true) (h_devMem : pt .devMem = true) (h_pairs : pt .pairs = true)
    (h_slots : pt .slots = true) (h_cmds : pt .cmds = true) (h_arbs : pt .arbs = true) (h_txa : pt .txa = true)
    (h_forge : pt .forge = true) (h_sdx : pt .sdx = true) (h_rsv : pt .rsv = true) (h_mdc : pt .mdc = true) (h_tok : pt .tok = true)
    (h_bat : pt .bat = true) (h_pools : pt .pools = true) (h_dlv : pt .dlv = true) (h_net : pt .net = true) (h_fed : pt .fed = true)
    (h_dict : pt .dict = true) (h_evt : pt .evt = true) (h_trace : pt .trace = true) : Changes pt s0 (drainSave s n) := by
  unfold drainSave
  repeat' (with_reducible first
      | assumption | apply abandonSlot_changes | apply modSlot_changes | refine Changes.fst ‹_› ?_ | refine Changes.snd ‹_› ?_
      | intro _ | extract_lets | split | dsimp +zetaDelta only | refine Changes.put ?_)

theorem execSaveDrainDeadline_changes {pt : Part → Bool} {s0 : State} (slot : Nat) (s : State) (hK : Changes pt s0 s)
    (h_drawn : pt .drawn = true) (h_objects : pt .objects = true) (h_tallies : pt .tallies = true) (h_devMem : pt .devMem = true)
    (h_pairs : pt .pairs = true) (h_slots : pt .slots = true) (h_cmds : pt .cmds = true) (h_arbs : pt .arbs = true)
    (h_txa : pt .txa = true) (h_forge : pt .forge = true) (h_sdx : pt .sdx = true) (h_rsv : pt .rsv = true) (h_mdc : pt .mdc = true)
    (h_tok : pt .tok = true) (h_bat : pt .bat = true) (h_pools : pt .pools = true) (h_dlv : pt .dlv = true) (h_net : pt .net = true)
    (h_fed : pt .fed = true) (h_dict : pt .dict = true) (h_evt : pt .evt = true)
    (h_trace : pt .trace = true) : ∃ t, execSaveDrainDeadline slot s = .next t ∧ Changes pt s0 t := by
  refine ⟨_, rfl, ?_⟩
  repeat' (with_reducible first | assumption | apply drainSave_changes | intro _)

theorem prepareRemovalEffect_changes {pt : Part → Bool} {s0 : State} (x0 : Via) (x1 : Nat) (x2 : Nat) (x3 : List Byte) (s : State)
    (hK : Changes pt s0 s) (h_objects : pt .objects = true) (h_tallies : pt .tallies = true) (h_devMem : pt .devMem = true)
    (h_pairs : pt .pairs = true) (h_slots : pt .slots = true) (h_cmds : pt .cmds = true) (h_bat : pt .bat = true)
    (h_net : pt .net = true) (h_fed : pt .fed = true) (h_dict : pt .dict = true) (h_evt : pt .evt = true)
    (h_removal : pt .removal = true) : Changes pt s0 (prepareRemovalEffect x0 x1 x2 x3 s) := by
  unfold prepareRemovalEffect
  repeat' (with_reducible first
      | assumption | refine bump_tally _ _ ?_ (by assumption) (by decide) | refine bump_object _ _ ?_ (by assumption) (by decide)
      | refine bump_any _ _ ?_ (by assumption) (by assumption) | refine bumpBy_tally _ _ _ ?_ (by assumption) (by decide)
      | refine bumpBy_object _ _ _ ?_ (by assumption) (by decide) | refine bumpBy_any _ _ _ ?_ (by assumption) (by assumption)
      | apply startSave_changes | apply setQuiesce_changes | apply packageEffect_changes | apply startLong_changes
      | apply packageDone_changes | refine Changes.tally ?_ _ _ _ (by assumption) (by decide)
      | refine Changes.object ?_ _ _ _ (by assumption) (by decide) | refine Changes.any ?_ _ _ _ (by assumption) (by assumption)
      | apply Changes.foldl | apply Changes.foldlFst | apply Changes.foldlSnd | intro _ | extract_lets | split | dsimp +zetaDelta only
      | refine Changes.put ?_)

theorem execPrepareRemoval_changes {pt : Part → Bool} {s0 : State} (via : Via) (value : Nat) (s : State) (hK : Changes pt s0 s)
    (h_objects : pt .objects = true) (h_tallies : pt .tallies = true) (h_devMem : pt .devMem = true) (h_pairs : pt .pairs = true)
    (h_slots : pt .slots = true) (h_cmds : pt .cmds = true) (h_bat : pt .bat = true) (h_net : pt .net = true) (h_fed : pt .fed = true)
    (h_dict : pt .dict = true) (h_evt : pt .evt = true) (h_trace : pt .trace = true)
    (h_removal : pt .removal = true) : ∃ t, execPrepareRemoval via value s = .next t ∧ Changes pt s0 t := by
  refine ⟨_, rfl, ?_⟩
  repeat' (with_reducible first | assumption | apply prepareRemovalEffect_changes | apply requestWrite_changes | intro _)

theorem execDrainDeadline_changes {pt : Part → Bool} {s0 : State} (s : State) (hK : Changes pt s0 s) (h_drawn : pt .drawn = true)
    (h_boot : pt .boot = true) (h_objects : pt .objects = true) (h_tallies : pt .tallies = true) (h_devMem : pt .devMem = true)
    (h_pairs : pt .pairs = true) (h_slots : pt .slots = true) (h_cmds : pt .cmds = true) (h_arbs : pt .arbs = true)
    (h_txa : pt .txa = true) (h_forge : pt .forge = true) (h_sdx : pt .sdx = true) (h_rsv : pt .rsv = true) (h_mdc : pt .mdc = true)
    (h_tok : pt .tok = true) (h_bat : pt .bat = true) (h_pools : pt .pools = true) (h_dlv : pt .dlv = true) (h_net : pt .net = true)
    (h_fed : pt .fed = true) (h_dict : pt .dict = true) (h_evt : pt .evt = true) (h_trace : pt .trace = true)
    (h_removal : pt .removal = true) : ∃ t, execDrainDeadline s = .next t ∧ Changes pt s0 t := by
  refine ⟨_, rfl, ?_⟩
  repeat' (with_reducible first
      | assumption | apply drainSave_changes | apply abandonSlot_changes | apply settlePorts_changes | apply cutMessages_changes
      | apply Changes.foldl | apply Changes.foldlFst | apply Changes.foldlSnd | intro _ | extract_lets | split | dsimp +zetaDelta only
      | refine Changes.put ?_)

/-! ## Rucksack -/

theorem endSave_changes {pt : Part → Bool} {s0 : State} (s : State) (n code : Nat) (hK : Changes pt s0 s)
    (h_objects : pt .objects = true) (h_tallies : pt .tallies = true) (h_devMem : pt .devMem = true) (h_pairs : pt .pairs = true)
    (h_slots : pt .slots = true) (h_cmds : pt .cmds = true) (h_mdc : pt .mdc = true) (h_pools : pt .pools = true)
    (h_dlv : pt .dlv = true) (h_net : pt .net = true) (h_evt : pt .evt = true) (h_trace : pt .trace = true) : Changes pt s0
    (endSave s n code) := by
  unfold endSave
  repeat' (with_reducible first
      | assumption | apply closeContexts_changes | apply endJob_changes | apply modSlot_changes | intro _ | refine Changes.put ?_)

theorem writeRucksack_changes {pt : Part → Bool} {s0 : State} (s : State) (n : Nat) (landing contexts : List Byte) (inTime memOk : Bool)
    (hK : Changes pt s0 s) (h_drawn : pt .drawn = true) (h_objects : pt .objects = true) (h_tallies : pt .tallies = true)
    (h_devMem : pt .devMem = true) (h_pairs : pt .pairs = true) (h_slots : pt .slots = true) (h_cmds : pt .cmds = true)
    (h_mdc : pt .mdc = true) (h_pools : pt .pools = true) (h_dlv : pt .dlv = true) (h_net : pt .net = true) (h_evt : pt .evt = true)
    (h_trace : pt .trace = true) : Changes pt s0 (writeRucksack s n landing contexts inTime memOk) := by
  unfold writeRucksack
  repeat' (with_reducible first
      | assumption | apply endSave_changes | apply raiseErr_changes | apply reserveFree_changes | apply memWrite_changes
      | refine Changes.fst ‹_› ?_ | refine Changes.snd ‹_› ?_ | intro _ | extract_lets | split | dsimp +zetaDelta only)

theorem execRucksackWrite_changes {pt : Part → Bool} {s0 : State} (slot : Nat) (landing contexts : List Byte) (inTime memOk : Bool)
    (s : State) (hK : Changes pt s0 s) (h_drawn : pt .drawn = true) (h_objects : pt .objects = true) (h_tallies : pt .tallies = true)
    (h_devMem : pt .devMem = true) (h_pairs : pt .pairs = true) (h_slots : pt .slots = true) (h_cmds : pt .cmds = true)
    (h_mdc : pt .mdc = true) (h_pools : pt .pools = true) (h_dlv : pt .dlv = true) (h_net : pt .net = true) (h_evt : pt .evt = true)
    (h_trace : pt .trace = true) : ∃ t, execRucksackWrite slot landing contexts inTime memOk s = .next t ∧ Changes pt s0 t := by
  refine ⟨_, rfl, ?_⟩
  repeat' (with_reducible first | assumption | apply writeRucksack_changes | intro _ | split)

theorem execRemovalRucksackDeadline_changes {pt : Part → Bool} {s0 : State} (s : State) (hK : Changes pt s0 s)
    (h_drawn : pt .drawn = true) (h_objects : pt .objects = true) (h_tallies : pt .tallies = true) (h_devMem : pt .devMem = true)
    (h_pairs : pt .pairs = true) (h_slots : pt .slots = true) (h_cmds : pt .cmds = true) (h_mdc : pt .mdc = true)
    (h_pools : pt .pools = true) (h_dlv : pt .dlv = true) (h_net : pt .net = true) (h_evt : pt .evt = true)
    (h_trace : pt .trace = true) : ∃ t, execRemovalRucksackDeadline s = .next t ∧ Changes pt s0 t := by
  refine ⟨_, rfl, ?_⟩
  repeat' (with_reducible first
      | assumption | apply writeRucksack_changes | apply dumpCounters_changes | apply Changes.foldl | apply Changes.foldlFst
      | apply Changes.foldlSnd | intro _ | split)

theorem execRemovalReady_changes {pt : Part → Bool} {s0 : State} (s : State) (hK : Changes pt s0 s) (h_drawn : pt .drawn = true)
    (h_objects : pt .objects = true) (h_tallies : pt .tallies = true) (h_devMem : pt .devMem = true) (h_pairs : pt .pairs = true)
    (h_slots : pt .slots = true) (h_cmds : pt .cmds = true) (h_txa : pt .txa = true) (h_sdx : pt .sdx = true) (h_rsv : pt .rsv = true)
    (h_mdc : pt .mdc = true) (h_tok : pt .tok = true) (h_bat : pt .bat = true) (h_pools : pt .pools = true) (h_dlv : pt .dlv = true)
    (h_net : pt .net = true) (h_fed : pt .fed = true) (h_dict : pt .dict = true) (h_evt : pt .evt = true) (h_trace : pt .trace = true)
    (h_removal : pt .removal = true) : ∃ t, execRemovalReady s = .next t ∧ Changes pt s0 t := by
  refine ⟨_, rfl, ?_⟩
  repeat' (with_reducible first
      | assumption | apply portDown_changes | apply modPort_changes | apply localFinish_changes | apply fire_changes
      | apply Changes.foldl | apply Changes.foldlFst | apply Changes.foldlSnd | intro _ | extract_lets | split | dsimp +zetaDelta only
      | refine Changes.put ?_)

theorem setUpRestored_changes {pt : Part → Bool} {s0 : State} (s : State) (n : Nat) (job : Admission) (secs : List (Nat × List Byte))
    (hK : Changes pt s0 s) (h_slots : pt .slots = true) (h_pools : pt .pools = true) : Changes pt s0 (setUpRestored s n job secs) := by
  unfold setUpRestored
  repeat' (with_reducible first
      | assumption | apply setUpJob_changes | apply modSlot_changes | intro _ | extract_lets | dsimp +zetaDelta only
      | refine Changes.put ?_)

theorem rucksackRestoreEffect_changes {pt : Part → Bool} {s0 : State} (e : Elsewhere) (x0 : Via) (x1 : Nat) (x2 : Nat) (x3 : List Byte)
    (s : State) (hK : Changes pt s0 s) (h_objects : pt .objects = true) (h_tallies : pt .tallies = true) (h_slots : pt .slots = true)
    (h_pools : pt .pools = true) (h_fed : pt .fed = true) (h_dict : pt .dict = true) (h_evt : pt .evt = true)
    (h_trace : pt .trace = true) : Changes pt s0 (rucksackRestoreEffect e x0 x1 x2 x3 s) := by
  unfold rucksackRestoreEffect
  repeat' (with_reducible first
      | assumption | refine bump_tally _ _ ?_ (by assumption) (by decide) | refine bump_object _ _ ?_ (by assumption) (by decide)
      | refine bump_any _ _ ?_ (by assumption) (by assumption) | refine bumpBy_tally _ _ _ ?_ (by assumption) (by decide)
      | refine bumpBy_object _ _ _ ?_ (by assumption) (by decide) | refine bumpBy_any _ _ _ ?_ (by assumption) (by assumption)
      | apply setUpRestored_changes | apply raiseRefusal_changes | apply packageEffect_changes | apply packageDone_changes
      | apply dictAbort_changes | apply readChecked_changes | apply raiseErr_changes
      | refine Changes.tally ?_ _ _ _ (by assumption) (by decide) | refine Changes.object ?_ _ _ _ (by assumption) (by decide)
      | refine Changes.any ?_ _ _ _ (by assumption) (by assumption) | refine Changes.fst ‹_› ?_ | refine Changes.snd ‹_› ?_ | intro _
      | extract_lets | split | dsimp +zetaDelta only | refine Changes.put ?_)

theorem execRucksackRestore_changes {pt : Part → Bool} {s0 : State} (via : Via) (addr : Nat) (elsewhere : Elsewhere) (s : State)
    (hK : Changes pt s0 s) (h_objects : pt .objects = true) (h_tallies : pt .tallies = true) (h_slots : pt .slots = true)
    (h_pools : pt .pools = true) (h_fed : pt .fed = true) (h_dict : pt .dict = true) (h_evt : pt .evt = true)
    (h_trace : pt .trace = true) : ∃ t, execRucksackRestore via addr elsewhere s = .next t ∧ Changes pt s0 t := by
  refine ⟨_, rfl, ?_⟩
  repeat' (with_reducible first | assumption | apply rucksackRestoreEffect_changes | apply requestWrite_changes | intro _)

/-! ## Ras -/

theorem storageReport_changes {pt : Part → Bool} {s0 : State} (s : State) (r : StorageReport) (hK : Changes pt s0 s)
    (h_tallies : pt .tallies = true) (h_devMem : pt .devMem = true) (h_evt : pt .evt = true)
    (h_trace : pt .trace = true) : Changes pt s0 (storageReport s r) := by
  unfold storageReport
  repeat' (with_reducible first
      | assumption | apply raiseErr_changes | apply Changes.foldl | apply Changes.foldlFst | apply Changes.foldlSnd | intro _
      | refine Changes.put ?_)

theorem execScrubVisit_changes {pt : Part → Bool} {s0 : State} (corrected : Bool) (report : StorageReport) (s : State)
    (hK : Changes pt s0 s) (h_tallies : pt .tallies = true) (h_devMem : pt .devMem = true) (h_evt : pt .evt = true)
    (h_trace : pt .trace = true) : ∃ t, execScrubVisit corrected report s = .next t ∧ Changes pt s0 t := by
  refine ⟨_, rfl, ?_⟩
  repeat' (with_reducible first
      | assumption | refine bump_tally _ _ ?_ (by assumption) (by decide) | refine bump_object _ _ ?_ (by assumption) (by decide)
      | refine bump_any _ _ ?_ (by assumption) (by assumption) | refine bumpBy_tally _ _ _ ?_ (by assumption) (by decide)
      | refine bumpBy_object _ _ _ ?_ (by assumption) (by decide) | refine bumpBy_any _ _ _ ?_ (by assumption) (by assumption)
      | apply storageReport_changes | refine Changes.tally ?_ _ _ _ (by assumption) (by decide)
      | refine Changes.object ?_ _ _ _ (by assumption) (by decide) | refine Changes.any ?_ _ _ _ (by assumption) (by assumption)
      | intro _ | extract_lets | split | dsimp +zetaDelta only)

theorem retireTile_changes {pt : Part → Bool} {s0 : State} (s : State) (t : Nat) (hK : Changes pt s0 s) (h_objects : pt .objects = true)
    (h_tallies : pt .tallies = true) (h_txa : pt .txa = true) (h_sdx : pt .sdx = true) (h_rsv : pt .rsv = true) (h_mdc : pt .mdc = true)
    (h_tok : pt .tok = true) (h_evt : pt .evt = true) (h_trace : pt .trace = true) : Changes pt s0 (retireTile s t) := by
  unfold retireTile
  repeat' (with_reducible first
      | assumption | apply retireUnit_changes | apply raiseErr_changes | intro _ | extract_lets | dsimp +zetaDelta only
      | refine Changes.put ?_)

theorem retireStaging_changes {pt : Part → Bool} {s0 : State} (s : State) (u : Nat) (hK : Changes pt s0 s) (h_drawn : pt .drawn = true)
    (h_objects : pt .objects = true) (h_tallies : pt .tallies = true) (h_devMem : pt .devMem = true) (h_pairs : pt .pairs = true)
    (h_slots : pt .slots = true) (h_cmds : pt .cmds = true) (h_txa : pt .txa = true) (h_sdx : pt .sdx = true) (h_rsv : pt .rsv = true)
    (h_mdc : pt .mdc = true) (h_tok : pt .tok = true) (h_bat : pt .bat = true) (h_pools : pt .pools = true) (h_net : pt .net = true)
    (h_fed : pt .fed = true) (h_evt : pt .evt = true) (h_trace : pt .trace = true) : Changes pt s0 (retireStaging s u) := by
  unfold retireStaging
  repeat' (with_reducible first
      | assumption | apply slotFault_changes | apply raiseErr_changes | refine Changes.tally ?_ _ _ _ (by assumption) (by decide)
      | refine Changes.object ?_ _ _ _ (by assumption) (by decide) | refine Changes.any ?_ _ _ _ (by assumption) (by assumption)
      | apply Changes.foldl | apply Changes.foldlFst | apply Changes.foldlSnd | intro _ | extract_lets | dsimp +zetaDelta only)

theorem execBankUeLimit_changes {pt : Part → Bool} {s0 : State} (txa : Bool) (number : Nat) (s : State) (hK : Changes pt s0 s)
    (h_drawn : pt .drawn = true) (h_objects : pt .objects = true) (h_tallies : pt .tallies = true) (h_devMem : pt .devMem = true)
    (h_pairs : pt .pairs = true) (h_slots : pt .slots = true) (h_cmds : pt .cmds = true) (h_txa : pt .txa = true)
    (h_sdx : pt .sdx = true) (h_rsv : pt .rsv = true) (h_mdc : pt .mdc = true) (h_tok : pt .tok = true) (h_bat : pt .bat = true)
    (h_pools : pt .pools = true) (h_net : pt .net = true) (h_fed : pt .fed = true) (h_evt : pt .evt = true)
    (h_trace : pt .trace = true) : ∃ t, execBankUeLimit txa number s = .next t ∧ Changes pt s0 t := by
  refine ⟨_, rfl, ?_⟩
  repeat' (with_reducible first | assumption | apply retireStaging_changes | apply retireTile_changes | intro _ | split)

/-! ## ObjRead -/

theorem objValue_changes {pt : Part → Bool} {s0 : State} (s : State) (index sub : Nat) (hK : Changes pt s0 s)
    (h_drawn : pt .drawn = true) (h_dict : pt .dict = true) : Changes pt s0 (objValue s index sub).2 := by
  unfold objValue
  repeat' (with_reducible first
      | assumption | apply reserveFree_changes | refine Changes.fst ‹_› ?_ | refine Changes.snd ‹_› ?_ | intro _ | extract_lets | split
      | dsimp +zetaDelta only | refine Changes.put ?_)

/-! ## Dictionary -/

theorem storeBits_changes {pt : Part → Bool} {s0 : State} (n : Nat) (after : WriteEffect) (x0 : Via) (x1 : Nat) (x2 : Nat)
    (x3 : List Byte) (s : State) (he : ∀ v i j d s, Changes pt s0 s → Changes pt s0 (after v i j d s))
    (hK : Changes pt s0 s)  : Changes pt s0 (storeBits n after x0 x1 x2 x3 s) := by
  unfold storeBits
  repeat' (with_reducible first | assumption | apply he | intro _)

theorem keyDirEffect_changes {pt : Part → Bool} {s0 : State} (x0 : Via) (x1 : Nat) (x2 : Nat) (x3 : List Byte) (s : State)
    (hK : Changes pt s0 s) (h_objects : pt .objects = true) (h_tallies : pt .tallies = true) (h_dict : pt .dict = true) : Changes pt s0
    (keyDirEffect x0 x1 x2 x3 s) := by
  unfold keyDirEffect
  repeat' (with_reducible first
      | assumption | apply claimEffect_changes | apply storeEffect_changes | intro _ | extract_lets | split | dsimp +zetaDelta only)

theorem ctxBaseEffect_changes {pt : Part → Bool} {s0 : State} (x0 : Via) (x1 : Nat) (x2 : Nat) (x3 : List Byte) (s : State)
    (hK : Changes pt s0 s) (h_objects : pt .objects = true) (h_tallies : pt .tallies = true) (h_dict : pt .dict = true) : Changes pt s0
    (ctxBaseEffect x0 x1 x2 x3 s) := by
  unfold ctxBaseEffect
  repeat' (with_reducible first | assumption | apply claimEffect_changes | apply storeEffect_changes | intro _ | split)

theorem cqEffect_changes {pt : Part → Bool} {s0 : State} (x0 : Via) (x1 : Nat) (x2 : Nat) (x3 : List Byte) (s : State)
    (hK : Changes pt s0 s) (h_objects : pt .objects = true) (h_tallies : pt .tallies = true) (h_dict : pt .dict = true) : Changes pt s0
    (cqEffect x0 x1 x2 x3 s) := by
  unfold cqEffect
  repeat' (with_reducible first
      | assumption | apply claimEffect_changes | apply storeEffect_changes | intro _ | extract_lets | split | dsimp +zetaDelta only)

theorem fedSettingEffect_changes {pt : Part → Bool} {s0 : State} (x0 : Via) (x1 : Nat) (x2 : Nat) (x3 : List Byte) (s : State)
    (hK : Changes pt s0 s) (h_tallies : pt .tallies = true) (h_fed : pt .fed = true) (h_dict : pt .dict = true) : Changes pt s0
    (fedSettingEffect x0 x1 x2 x3 s) := by
  unfold fedSettingEffect
  repeat' (with_reducible first | assumption | apply dictDone_changes | intro _ | split | refine Changes.put ?_)

theorem fedEffect_changes {pt : Part → Bool} {s0 : State} (index sub : Nat) (x0 : Via) (x1 : Nat) (x2 : Nat) (x3 : List Byte)
    (s : State) (hK : Changes pt s0 s) (h_objects : pt .objects = true) (h_tallies : pt .tallies = true) (h_devMem : pt .devMem = true)
    (h_pairs : pt .pairs = true) (h_slots : pt .slots = true) (h_cmds : pt .cmds = true) (h_bat : pt .bat = true)
    (h_pools : pt .pools = true) (h_net : pt .net = true) (h_fed : pt .fed = true) (h_dict : pt .dict = true) (h_evt : pt .evt = true)
    (h_trace : pt .trace = true) (h_removal : pt .removal = true) : Changes pt s0 (fedEffect index sub x0 x1 x2 x3 s) := by
  unfold fedEffect
  repeat' (with_reducible first
      | assumption | apply fedSettingEffect_changes | apply storeBits_changes | apply rucksackRestoreEffect_changes
      | apply prepareRemovalEffect_changes | apply rucksackSaveEffect_changes | apply sagResumeEffect_changes
      | apply storePackageEffect_changes | apply storeEffect_changes | refine Changes.fst ‹_› ?_ | refine Changes.snd ‹_› ?_ | intro _
      | split)

theorem netEffect_changes {pt : Part → Bool} {s0 : State} (index sub : Nat) (x0 : Via) (x1 : Nat) (x2 : Nat) (x3 : List Byte)
    (s : State) (hK : Changes pt s0 s) (h_drawn : pt .drawn = true) (h_boot : pt .boot = true) (h_objects : pt .objects = true)
    (h_tallies : pt .tallies = true) (h_devMem : pt .devMem = true) (h_pairs : pt .pairs = true) (h_slots : pt .slots = true)
    (h_cmds : pt .cmds = true) (h_txa : pt .txa = true) (h_sdx : pt .sdx = true) (h_rsv : pt .rsv = true) (h_mdc : pt .mdc = true)
    (h_tok : pt .tok = true) (h_bat : pt .bat = true) (h_pools : pt .pools = true) (h_dlv : pt .dlv = true) (h_net : pt .net = true)
    (h_fed : pt .fed = true) (h_dict : pt .dict = true) (h_evt : pt .evt = true) (h_trace : pt .trace = true) : Changes pt s0
    (netEffect index sub x0 x1 x2 x3 s) := by
  unfold netEffect
  repeat' (with_reducible first
      | assumption | apply storeBits_changes | apply lrDisableEffect_changes | apply lrEnableEffect_changes
      | apply qpDisableEffect_changes | apply qpEnableEffect_changes | apply quiesceEffect_changes | apply laneEnableEffect_changes
      | apply portEnableEffect_changes | apply storeEffect_changes | refine Changes.fst ‹_› ?_ | refine Changes.snd ‹_› ?_ | intro _
      | split)

theorem unitEffect_changes {pt : Part → Bool} {s0 : State} (index sub : Nat) (x0 : Via) (x1 : Nat) (x2 : Nat) (x3 : List Byte)
    (s : State) (hK : Changes pt s0 s) (h_objects : pt .objects = true) (h_tallies : pt .tallies = true) (h_sets : pt .sets = true)
    (h_roots : pt .roots = true) (h_txa : pt .txa = true) (h_sdx : pt .sdx = true) (h_rsv : pt .rsv = true) (h_mdc : pt .mdc = true)
    (h_tok : pt .tok = true) (h_fed : pt .fed = true) (h_dict : pt .dict = true) : Changes pt s0
    (unitEffect index sub x0 x1 x2 x3 s) := by
  unfold unitEffect
  repeat' (with_reducible first
      | assumption | apply ctxBaseEffect_changes | apply keyDirEffect_changes | apply tokLoadEffect_changes
      | apply stragglerEffect_changes | apply encRootEffect_changes | apply primeImageEffect_changes | apply enableEffect_changes
      | apply storeEffect_changes | refine Changes.fst ‹_› ?_ | refine Changes.snd ‹_› ?_ | intro _ | split)

theorem seqEffect_changes {pt : Part → Bool} {s0 : State} (index sub : Nat) (x0 : Via) (x1 : Nat) (x2 : Nat) (x3 : List Byte)
    (s : State) (hK : Changes pt s0 s) (h_drawn : pt .drawn = true) (h_objects : pt .objects = true) (h_tallies : pt .tallies = true)
    (h_devMem : pt .devMem = true) (h_banks : pt .banks = true) (h_pairs : pt .pairs = true) (h_slots : pt .slots = true)
    (h_seq : pt .seq = true) (h_pools : pt .pools = true) (h_dlv : pt .dlv = true) (h_fed : pt .fed = true) (h_dict : pt .dict = true)
    (h_evt : pt .evt = true) (h_trace : pt .trace = true) : Changes pt s0 (seqEffect index sub x0 x1 x2 x3 s) := by
  unfold seqEffect
  repeat' (with_reducible first
      | assumption | apply cqEffect_changes | apply semDepthEffect_changes | apply progArmEffect_changes | apply progBankEffect_changes
      | apply rootStartEffect_changes | apply storeEffect_changes | refine Changes.fst ‹_› ?_ | refine Changes.snd ‹_› ?_ | intro _
      | split)

theorem evtEffect_changes {pt : Part → Bool} {s0 : State} (index sub : Nat) (x0 : Via) (x1 : Nat) (x2 : Nat) (x3 : List Byte)
    (s : State) (hK : Changes pt s0 s) (h_objects : pt .objects = true) (h_tallies : pt .tallies = true) (h_fed : pt .fed = true)
    (h_dict : pt .dict = true) (h_evt : pt .evt = true) (h_trace : pt .trace = true) : Changes pt s0
    (evtEffect index sub x0 x1 x2 x3 s) := by
  unfold evtEffect
  repeat' (with_reducible first
      | assumption | apply grpTimeEffect_changes | apply evtCfgEffect_changes | apply swRaiseEffect_changes
      | apply latchClearEffect_changes | apply pendClearEffect_changes | apply pendSetEffect_changes | apply evtDoneEffect_changes
      | apply evtTakeEffect_changes | apply storePackageEffect_changes | apply storeEffect_changes | refine Changes.fst ‹_› ?_
      | refine Changes.snd ‹_› ?_ | intro _ | split)

theorem lowEffect_changes {pt : Part → Bool} {s0 : State} (x0 : Via) (x1 : Nat) (x2 : Nat) (x3 : List Byte) (s : State)
    (hK : Changes pt s0 s) (h_drawn : pt .drawn = true) (h_boot : pt .boot = true) (h_objects : pt .objects = true)
    (h_tallies : pt .tallies = true) (h_devMem : pt .devMem = true) (h_sets : pt .sets = true) (h_roots : pt .roots = true)
    (h_pairs : pt .pairs = true) (h_slots : pt .slots = true) (h_cmds : pt .cmds = true) (h_txa : pt .txa = true)
    (h_sdx : pt .sdx = true) (h_rsv : pt .rsv = true) (h_mdc : pt .mdc = true) (h_tok : pt .tok = true) (h_bat : pt .bat = true)
    (h_pools : pt .pools = true) (h_dlv : pt .dlv = true) (h_net : pt .net = true) (h_fed : pt .fed = true) (h_dict : pt .dict = true)
    (h_pins : pt .pins = true) (h_evt : pt .evt = true) (h_trace : pt .trace = true) (h_removal : pt .removal = true) : Changes pt s0
    (lowEffect x0 x1 x2 x3 s) := by
  unfold lowEffect
  repeat' (with_reducible first
      | assumption | apply unitEffect_changes | apply netEffect_changes | apply fedEffect_changes | apply watchdogEffect_changes
      | apply epinEffect_changes | apply dictDone_changes | intro _ | split)

theorem highEffect_changes {pt : Part → Bool} {s0 : State} (x0 : Via) (x1 : Nat) (x2 : Nat) (x3 : List Byte) (s : State)
    (hK : Changes pt s0 s) (h_drawn : pt .drawn = true) (h_objects : pt .objects = true) (h_tallies : pt .tallies = true)
    (h_devMem : pt .devMem = true) (h_banks : pt .banks = true) (h_sets : pt .sets = true) (h_roots : pt .roots = true)
    (h_pairs : pt .pairs = true) (h_slots : pt .slots = true) (h_seq : pt .seq = true) (h_txa : pt .txa = true) (h_sdx : pt .sdx = true)
    (h_rsv : pt .rsv = true) (h_mdc : pt .mdc = true) (h_tok : pt .tok = true) (h_pools : pt .pools = true) (h_dlv : pt .dlv = true)
    (h_fed : pt .fed = true) (h_dict : pt .dict = true) (h_evt : pt .evt = true) (h_trace : pt .trace = true) : Changes pt s0
    (highEffect x0 x1 x2 x3 s) := by
  unfold highEffect
  repeat' (with_reducible first
      | assumption | apply evtEffect_changes | apply seqEffect_changes | apply unitEffect_changes | apply traceMarkEffect_changes
      | apply traceEnableEffect_changes | apply poolDisableEffect_changes | apply poolEnableEffect_changes | intro _ | split)

theorem dictEffect_changes {pt : Part → Bool} {s0 : State} (x0 : Via) (x1 : Nat) (x2 : Nat) (x3 : List Byte) (s : State)
    (hK : Changes pt s0 s) (h_drawn : pt .drawn = true) (h_boot : pt .boot = true) (h_objects : pt .objects = true)
    (h_tallies : pt .tallies = true) (h_devMem : pt .devMem = true) (h_banks : pt .banks = true) (h_sets : pt .sets = true)
    (h_roots : pt .roots = true) (h_pairs : pt .pairs = true) (h_slots : pt .slots = true) (h_cmds : pt .cmds = true)
    (h_seq : pt .seq = true) (h_txa : pt .txa = true) (h_sdx : pt .sdx = true) (h_rsv : pt .rsv = true) (h_mdc : pt .mdc = true)
    (h_tok : pt .tok = true) (h_bat : pt .bat = true) (h_pools : pt .pools = true) (h_dlv : pt .dlv = true) (h_net : pt .net = true)
    (h_fed : pt .fed = true) (h_dict : pt .dict = true) (h_pins : pt .pins = true) (h_evt : pt .evt = true) (h_trace : pt .trace = true)
    (h_removal : pt .removal = true) : Changes pt s0 (dictEffect x0 x1 x2 x3 s) := by
  unfold dictEffect
  repeat' (with_reducible first | assumption | apply highEffect_changes | apply lowEffect_changes | intro _ | split)

theorem execDictWrite_changes {pt : Part → Bool} {s0 : State} (via : Via) (index sub : Nat) (data : List Byte) (s : State)
    (hK : Changes pt s0 s) (h_drawn : pt .drawn = true) (h_boot : pt .boot = true) (h_objects : pt .objects = true)
    (h_tallies : pt .tallies = true) (h_devMem : pt .devMem = true) (h_banks : pt .banks = true) (h_sets : pt .sets = true)
    (h_roots : pt .roots = true) (h_pairs : pt .pairs = true) (h_slots : pt .slots = true) (h_cmds : pt .cmds = true)
    (h_seq : pt .seq = true) (h_txa : pt .txa = true) (h_sdx : pt .sdx = true) (h_rsv : pt .rsv = true) (h_mdc : pt .mdc = true)
    (h_tok : pt .tok = true) (h_bat : pt .bat = true) (h_pools : pt .pools = true) (h_dlv : pt .dlv = true) (h_net : pt .net = true)
    (h_fed : pt .fed = true) (h_dict : pt .dict = true) (h_pins : pt .pins = true) (h_evt : pt .evt = true) (h_trace : pt .trace = true)
    (h_removal : pt .removal = true) : ∃ t, execDictWrite via index sub data s = .next t ∧ Changes pt s0 t := by
  refine ⟨_, rfl, ?_⟩
  repeat' (with_reducible first
      | assumption | apply dictEffect_changes | apply requestWrite_changes | apply dictWriteWith_changes | intro _ | split)

theorem forwardedWrite_changes {pt : Part → Bool} {s0 : State} (s : State) (index sub : Nat) (data : List Byte) (hK : Changes pt s0 s)
    (h_drawn : pt .drawn = true) (h_boot : pt .boot = true) (h_objects : pt .objects = true) (h_tallies : pt .tallies = true)
    (h_devMem : pt .devMem = true) (h_banks : pt .banks = true) (h_sets : pt .sets = true) (h_roots : pt .roots = true)
    (h_pairs : pt .pairs = true) (h_slots : pt .slots = true) (h_cmds : pt .cmds = true) (h_seq : pt .seq = true)
    (h_txa : pt .txa = true) (h_sdx : pt .sdx = true) (h_rsv : pt .rsv = true) (h_mdc : pt .mdc = true) (h_tok : pt .tok = true)
    (h_bat : pt .bat = true) (h_pools : pt .pools = true) (h_dlv : pt .dlv = true) (h_net : pt .net = true) (h_fed : pt .fed = true)
    (h_dict : pt .dict = true) (h_pins : pt .pins = true) (h_evt : pt .evt = true) (h_trace : pt .trace = true)
    (h_removal : pt .removal = true) : Changes pt s0 (forwardedWrite s index sub data) := by
  unfold forwardedWrite
  repeat' (with_reducible first
      | assumption | apply dictEffect_changes | apply primeFirstByte_changes | apply dictWriteWith_changes | intro _ | split)

theorem setPieces_changes {pt : Part → Bool} {s0 : State} (s : State) (d : Nat) (x : Pieces) (hK : Changes pt s0 s)
    (h_fed : pt .fed = true) : Changes pt s0 (setPieces s d x) := by
  unfold setPieces
  repeat' (with_reducible first | assumption | refine Changes.put ?_)

theorem takePieces_changes {pt : Part → Bool} {s0 : State} (d : Nat) (x0 : Nat) (s : State) (hK : Changes pt s0 s)
    (h_drawn : pt .drawn = true) (h_boot : pt .boot = true) (h_objects : pt .objects = true) (h_tallies : pt .tallies = true)
    (h_devMem : pt .devMem = true) (h_banks : pt .banks = true) (h_sets : pt .sets = true) (h_roots : pt .roots = true)
    (h_pairs : pt .pairs = true) (h_slots : pt .slots = true) (h_cmds : pt .cmds = true) (h_seq : pt .seq = true)
    (h_txa : pt .txa = true) (h_sdx : pt .sdx = true) (h_rsv : pt .rsv = true) (h_mdc : pt .mdc = true) (h_tok : pt .tok = true)
    (h_bat : pt .bat = true) (h_pools : pt .pools = true) (h_dlv : pt .dlv = true) (h_net : pt .net = true) (h_fed : pt .fed = true)
    (h_dict : pt .dict = true) (h_pins : pt .pins = true) (h_evt : pt .evt = true) (h_trace : pt .trace = true)
    (h_removal : pt .removal = true) : Changes pt s0 (takePieces d x0 s) := by
  induction x0 generalizing d s with
  | zero => unfold takePieces; exact hK
  | succ k ih =>
    unfold takePieces
    repeat' (with_reducible first
        | assumption | apply ih | apply setPieces_changes | apply forwardedWrite_changes | refine Changes.fst ‹_› ?_
        | refine Changes.snd ‹_› ?_ | intro _ | extract_lets | split | dsimp +zetaDelta only | refine Changes.put ?_)

theorem execFedForward_changes {pt : Part → Bool} {s0 : State} (msg : FedArrival) (s : State) (hK : Changes pt s0 s)
    (h_drawn : pt .drawn = true) (h_boot : pt .boot = true) (h_objects : pt .objects = true) (h_tallies : pt .tallies = true)
    (h_devMem : pt .devMem = true) (h_banks : pt .banks = true) (h_sets : pt .sets = true) (h_roots : pt .roots = true)
    (h_pairs : pt .pairs = true) (h_slots : pt .slots = true) (h_cmds : pt .cmds = true) (h_seq : pt .seq = true)
    (h_txa : pt .txa = true) (h_sdx : pt .sdx = true) (h_rsv : pt .rsv = true) (h_mdc : pt .mdc = true) (h_tok : pt .tok = true)
    (h_bat : pt .bat = true) (h_pools : pt .pools = true) (h_dlv : pt .dlv = true) (h_net : pt .net = true) (h_fed : pt .fed = true)
    (h_dict : pt .dict = true) (h_pins : pt .pins = true) (h_evt : pt .evt = true) (h_trace : pt .trace = true)
    (h_removal : pt .removal = true) : ∃ t, execFedForward msg s = .next t ∧ Changes pt s0 t := by
  refine ⟨_, rfl, ?_⟩
  repeat' (with_reducible first
      | assumption | apply takePieces_changes | apply setPieces_changes | apply fedTake_changes | intro _ | extract_lets | split
      | dsimp +zetaDelta only | refine Changes.put ?_)

theorem settled_changes {pt : Part → Bool} {s0 : State} (s : State) (index abort : Nat) (hK : Changes pt s0 s)
    (h_objects : pt .objects = true) (h_sets : pt .sets = true) (h_roots : pt .roots = true) (h_seq : pt .seq = true)
    (h_tok : pt .tok = true) : Changes pt s0 (settled s index abort) := by
  unfold settled
  repeat' (with_reducible first
      | assumption | apply setSet_changes | apply arm_changes | refine Changes.tally ?_ _ _ _ (by assumption) (by decide)
      | refine Changes.object ?_ _ _ _ (by assumption) (by decide) | refine Changes.any ?_ _ _ _ (by assumption) (by assumption)
      | refine Changes.fst ‹_› ?_ | refine Changes.snd ‹_› ?_ | intro _ | extract_lets | split | dsimp +zetaDelta only
      | refine Changes.put ?_)

theorem forwardEnded_changes {pt : Part → Bool} {s0 : State} (s : State) (index abort : Nat) (hK : Changes pt s0 s)
    (h_objects : pt .objects = true) (h_sets : pt .sets = true) (h_roots : pt .roots = true) (h_seq : pt .seq = true)
    (h_tok : pt .tok = true) (h_dict : pt .dict = true) : Changes pt s0 (forwardEnded s index abort) := by
  unfold forwardEnded
  repeat' (with_reducible first
      | assumption | apply settled_changes | apply unkeep_changes | intro _ | extract_lets | split | dsimp +zetaDelta only
      | refine Changes.put ?_)

theorem execPackageWriteComplete_changes {pt : Part → Bool} {s0 : State} (index abort : Nat) (s : State) (hK : Changes pt s0 s)
    (h_objects : pt .objects = true) (h_tallies : pt .tallies = true) (h_sets : pt .sets = true) (h_roots : pt .roots = true)
    (h_seq : pt .seq = true) (h_tok : pt .tok = true) (h_fed : pt .fed = true)
    (h_dict : pt .dict = true) : ∃ t, execPackageWriteComplete index abort s = .next t ∧ Changes pt s0 t := by
  refine ⟨_, rfl, ?_⟩
  repeat' (with_reducible first
      | assumption | apply forwardEnded_changes | apply settled_changes | apply endLong_changes | refine Changes.fst ‹_› ?_
      | refine Changes.snd ‹_› ?_ | intro _ | extract_lets | split | dsimp +zetaDelta only | refine Changes.put ?_)

theorem windowAnswer_changes {pt : Part → Bool} {s0 : State} (s : State) (core value : Nat) (err : Bool) (hK : Changes pt s0 s)
    (h_dlv : pt .dlv = true) (h_dict : pt .dict = true) : Changes pt s0 (windowAnswer s core value err) := by
  unfold windowAnswer
  repeat' (with_reducible first | assumption | apply readBack_changes | intro _ | refine Changes.put ?_)

theorem aliasReadAbort_changes {pt : Part → Bool} {s0 : State} (s : State) (core width code : Nat) (hK : Changes pt s0 s)
    (h_tallies : pt .tallies = true) (h_dlv : pt .dlv = true) (h_dict : pt .dict = true) : Changes pt s0
    (aliasReadAbort s core width code) := by
  unfold aliasReadAbort
  repeat' (with_reducible first | assumption | apply windowAnswer_changes | apply dictAbort_changes | intro _)

theorem aliasReadHere_changes {pt : Part → Bool} {s0 : State} (s : State) (core offset width : Nat) (poisoned : Bool)
    (hK : Changes pt s0 s) (h_drawn : pt .drawn = true) (h_tallies : pt .tallies = true) (h_dlv : pt .dlv = true)
    (h_dict : pt .dict = true) : Changes pt s0 (aliasReadHere s core offset width poisoned) := by
  unfold aliasReadHere
  repeat' (with_reducible first
      | assumption | apply aliasReadAbort_changes | apply windowAnswer_changes | apply objValue_changes | apply dictDone_changes
      | refine Changes.fst ‹_› ?_ | refine Changes.snd ‹_› ?_ | intro _ | extract_lets | split | dsimp +zetaDelta only)

theorem execAliasRead_changes {pt : Part → Bool} {s0 : State} (core offset width : Nat) (poisoned : Bool) (remoteAbort remoteData : Nat)
    (s : State) (hK : Changes pt s0 s) (h_drawn : pt .drawn = true) (h_tallies : pt .tallies = true) (h_dlv : pt .dlv = true)
    (h_fed : pt .fed = true)
    (h_dict : pt .dict = true) : ∃ t, execAliasRead core offset width poisoned remoteAbort remoteData s = .next t ∧ Changes pt s0 t := by
  refine ⟨_, rfl, ?_⟩
  repeat' (with_reducible first
      | assumption | apply aliasReadHere_changes | apply aliasReadAbort_changes | apply windowAnswer_changes | apply dictDone_changes
      | apply send_changes | refine Changes.fst ‹_› ?_ | refine Changes.snd ‹_› ?_ | intro _ | extract_lets | split
      | dsimp +zetaDelta only)

theorem aliasWriteHere_changes {pt : Part → Bool} {s0 : State} (s : State) (core offset width value : Nat) (hK : Changes pt s0 s)
    (h_drawn : pt .drawn = true) (h_boot : pt .boot = true) (h_objects : pt .objects = true) (h_tallies : pt .tallies = true)
    (h_devMem : pt .devMem = true) (h_banks : pt .banks = true) (h_sets : pt .sets = true) (h_roots : pt .roots = true)
    (h_pairs : pt .pairs = true) (h_slots : pt .slots = true) (h_cmds : pt .cmds = true) (h_seq : pt .seq = true)
    (h_txa : pt .txa = true) (h_sdx : pt .sdx = true) (h_rsv : pt .rsv = true) (h_mdc : pt .mdc = true) (h_tok : pt .tok = true)
    (h_bat : pt .bat = true) (h_pools : pt .pools = true) (h_dlv : pt .dlv = true) (h_net : pt .net = true) (h_fed : pt .fed = true)
    (h_dict : pt .dict = true) (h_pins : pt .pins = true) (h_evt : pt .evt = true) (h_trace : pt .trace = true)
    (h_removal : pt .removal = true) : Changes pt s0 (aliasWriteHere s core offset width value) := by
  unfold aliasWriteHere
  repeat' (with_reducible first
      | assumption | apply dictEffect_changes | apply dictWriteWith_changes | apply dictAbort_changes | refine Changes.fst ‹_› ?_
      | refine Changes.snd ‹_› ?_ | intro _ | extract_lets | split | dsimp +zetaDelta only)

theorem execAliasWrite_changes {pt : Part → Bool} {s0 : State} (core offset width value remoteAbort : Nat) (s : State)
    (hK : Changes pt s0 s) (h_drawn : pt .drawn = true) (h_boot : pt .boot = true) (h_objects : pt .objects = true)
    (h_tallies : pt .tallies = true) (h_devMem : pt .devMem = true) (h_banks : pt .banks = true) (h_sets : pt .sets = true)
    (h_roots : pt .roots = true) (h_pairs : pt .pairs = true) (h_slots : pt .slots = true) (h_cmds : pt .cmds = true)
    (h_seq : pt .seq = true) (h_txa : pt .txa = true) (h_sdx : pt .sdx = true) (h_rsv : pt .rsv = true) (h_mdc : pt .mdc = true)
    (h_tok : pt .tok = true) (h_bat : pt .bat = true) (h_pools : pt .pools = true) (h_dlv : pt .dlv = true) (h_net : pt .net = true)
    (h_fed : pt .fed = true) (h_dict : pt .dict = true) (h_pins : pt .pins = true) (h_evt : pt .evt = true) (h_trace : pt .trace = true)
    (h_removal : pt .removal = true) : ∃ t, execAliasWrite core offset width value remoteAbort s = .next t ∧ Changes pt s0 t := by
  refine ⟨_, rfl, ?_⟩
  repeat' (with_reducible first
      | assumption | apply aliasWriteHere_changes | apply dictDone_changes | apply dictAbort_changes | apply send_changes
      | refine Changes.fst ‹_› ?_ | refine Changes.snd ‹_› ?_ | intro _ | extract_lets | split | dsimp +zetaDelta only)

theorem execWinAbortRead_changes {pt : Part → Bool} {s0 : State} (core : Nat) (s : State) (hK : Changes pt s0 s)
    (h_drawn : pt .drawn = true) (h_tallies : pt .tallies = true) (h_dlv : pt .dlv = true)
    (h_dict : pt .dict = true) : ∃ t, execWinAbortRead core s = .next t ∧ Changes pt s0 t := by
  refine ⟨_, rfl, ?_⟩
  repeat' (with_reducible first | assumption | apply aliasReadHere_changes | intro _ | split)

theorem beginRequest_changes {pt : Part → Bool} {s0 : State} (s : State) (m word bytes : Nat) (last : Bool) (hK : Changes pt s0 s)
    (h_dict : pt .dict = true) : Changes pt s0 (beginRequest s m word bytes last) := by
  unfold beginRequest
  repeat' (with_reducible first | assumption | apply setMailbox_changes | intro _ | refine Changes.put ?_)

theorem setMoved_changes {pt : Part → Bool} {s0 : State} (s : State) (m bytes : Nat) (last : Bool) (hK : Changes pt s0 s)
    (h_dict : pt .dict = true) : Changes pt s0 (setMoved s m bytes last) := by
  unfold setMoved
  repeat' (with_reducible first | assumption | apply setMailbox_changes | intro _ | refine Changes.put ?_)

theorem setData_changes {pt : Part → Bool} {s0 : State} (s : State) (m v : Nat) (hK : Changes pt s0 s)
    (h_dict : pt .dict = true) : Changes pt s0 (setData s m v) := by
  unfold setData
  repeat' (with_reducible first | assumption | apply setMailbox_changes | intro _ | refine Changes.put ?_)

theorem setArea_changes {pt : Part → Bool} {s0 : State} (s : State) (m : Nat) (bs : List Byte) (hK : Changes pt s0 s)
    (h_dict : pt .dict = true) : Changes pt s0 (setArea s m bs) := by
  unfold setArea
  repeat' (with_reducible first
      | assumption | apply setMailbox_changes | intro _ | extract_lets | dsimp +zetaDelta only | refine Changes.put ?_)

theorem waitWinAbort_changes {pt : Part → Bool} {s0 : State} (s : State) (m core : Nat) (hK : Changes pt s0 s)
    (h_dict : pt .dict = true) : Changes pt s0 (waitWinAbort s m core) := by
  unfold waitWinAbort
  repeat' (with_reducible first | assumption | apply setMailbox_changes | intro _ | refine Changes.put ?_)

theorem expRead_changes {pt : Part → Bool} {s0 : State} (s : State) (w : MailboxWrite) (hK : Changes pt s0 s)
    (h_drawn : pt .drawn = true) (h_tallies : pt .tallies = true) (h_fed : pt .fed = true) (h_dict : pt .dict = true) : Changes pt s0
    (expRead s w) := by
  unfold expRead
  repeat' (with_reducible first
      | assumption | apply waitWinAbort_changes | apply setData_changes | apply setMoved_changes | apply objValue_changes
      | apply dictDone_changes | apply dictAbort_changes | apply send_changes | refine Changes.fst ‹_› ?_ | refine Changes.snd ‹_› ?_
      | intro _ | extract_lets | split | dsimp +zetaDelta only)

theorem expWrite_changes {pt : Part → Bool} {s0 : State} (s : State) (w : MailboxWrite) (hK : Changes pt s0 s)
    (h_drawn : pt .drawn = true) (h_boot : pt .boot = true) (h_objects : pt .objects = true) (h_tallies : pt .tallies = true)
    (h_devMem : pt .devMem = true) (h_banks : pt .banks = true) (h_sets : pt .sets = true) (h_roots : pt .roots = true)
    (h_pairs : pt .pairs = true) (h_slots : pt .slots = true) (h_cmds : pt .cmds = true) (h_seq : pt .seq = true)
    (h_txa : pt .txa = true) (h_sdx : pt .sdx = true) (h_rsv : pt .rsv = true) (h_mdc : pt .mdc = true) (h_tok : pt .tok = true)
    (h_bat : pt .bat = true) (h_pools : pt .pools = true) (h_dlv : pt .dlv = true) (h_net : pt .net = true) (h_fed : pt .fed = true)
    (h_dict : pt .dict = true) (h_pins : pt .pins = true) (h_evt : pt .evt = true) (h_trace : pt .trace = true)
    (h_removal : pt .removal = true) : Changes pt s0 (expWrite s w) := by
  unfold expWrite
  repeat' (with_reducible first
      | assumption | apply setMoved_changes | apply dictEffect_changes | apply dictWriteWith_changes | apply dictDone_changes
      | apply dictAbort_changes | apply send_changes | refine Changes.fst ‹_› ?_ | refine Changes.snd ‹_› ?_ | intro _ | extract_lets
      | split | dsimp +zetaDelta only)

theorem openXfer_changes {pt : Part → Bool} {s0 : State} (s : State) (m : Nat) (x : Xfer) (hK : Changes pt s0 s)
    (h_dict : pt .dict = true) : Changes pt s0 (openXfer s m x) := by
  unfold openXfer
  repeat' (with_reducible first | assumption | apply setMailbox_changes | intro _ | refine Changes.put ?_)

theorem segReadStart_changes {pt : Part → Bool} {s0 : State} (s : State) (w : MailboxWrite) (hK : Changes pt s0 s)
    (h_drawn : pt .drawn = true) (h_tallies : pt .tallies = true) (h_fed : pt .fed = true) (h_dict : pt .dict = true) : Changes pt s0
    (segReadStart s w) := by
  unfold segReadStart
  repeat' (with_reducible first
      | assumption | apply openXfer_changes | apply waitWinAbort_changes | apply setData_changes | apply setMoved_changes
      | apply objValue_changes | apply dictDone_changes | apply dictAbort_changes | apply send_changes | refine Changes.fst ‹_› ?_
      | refine Changes.snd ‹_› ?_ | intro _ | extract_lets | split | dsimp +zetaDelta only | refine Changes.put ?_)

theorem segWriteStart_changes {pt : Part → Bool} {s0 : State} (s : State) (w : MailboxWrite) (hK : Changes pt s0 s)
    (h_drawn : pt .drawn = true) (h_boot : pt .boot = true) (h_objects : pt .objects = true) (h_tallies : pt .tallies = true)
    (h_devMem : pt .devMem = true) (h_banks : pt .banks = true) (h_sets : pt .sets = true) (h_roots : pt .roots = true)
    (h_pairs : pt .pairs = true) (h_slots : pt .slots = true) (h_cmds : pt .cmds = true) (h_seq : pt .seq = true)
    (h_txa : pt .txa = true) (h_sdx : pt .sdx = true) (h_rsv : pt .rsv = true) (h_mdc : pt .mdc = true) (h_tok : pt .tok = true)
    (h_bat : pt .bat = true) (h_pools : pt .pools = true) (h_dlv : pt .dlv = true) (h_net : pt .net = true) (h_fed : pt .fed = true)
    (h_dict : pt .dict = true) (h_pins : pt .pins = true) (h_evt : pt .evt = true) (h_trace : pt .trace = true)
    (h_removal : pt .removal = true) : Changes pt s0 (segWriteStart s w) := by
  unfold segWriteStart
  repeat' (with_reducible first
      | assumption | apply openXfer_changes | apply setMoved_changes | apply dictEffect_changes | apply dictWriteWith_changes
      | apply dictDone_changes | apply dictAbort_changes | apply send_changes | refine Changes.fst ‹_› ?_ | refine Changes.snd ‹_› ?_
      | intro _ | extract_lets | split | dsimp +zetaDelta only | refine Changes.put ?_)

theorem firstByte_changes {pt : Part → Bool} {s0 : State} (s : State) (index sub : Nat) (hK : Changes pt s0 s)
    (h_sets : pt .sets = true) (h_fed : pt .fed = true) (h_dict : pt .dict = true) : Changes pt s0 (firstByte s index sub) := by
  unfold firstByte
  repeat' (with_reducible first
      | assumption | apply primeFirstByte_changes | apply forward_changes | intro _ | extract_lets | split | dsimp +zetaDelta only)

theorem firstUndone_changes {pt : Part → Bool} {s0 : State} (s : State) (index sub : Nat) (hK : Changes pt s0 s)
    (h_objects : pt .objects = true) (h_sets : pt .sets = true) (h_roots : pt .roots = true) (h_seq : pt .seq = true)
    (h_tok : pt .tok = true) (h_fed : pt .fed = true) (h_dict : pt .dict = true) : Changes pt s0 (firstUndone s index sub) := by
  unfold firstUndone
  repeat' (with_reducible first | assumption | apply settled_changes | apply tellOutcome_changes | intro _ | split)

theorem sendSegment_changes {pt : Part → Bool} {s0 : State} (s : State) (x : Xfer) (bytes : List Byte) (hK : Changes pt s0 s)
    (h_fed : pt .fed = true) : Changes pt s0 (sendSegment s x bytes) := by
  unfold sendSegment
  repeat' (with_reducible first | assumption | apply send_changes | refine Changes.fst ‹_› ?_ | refine Changes.snd ‹_› ?_ | intro _ | split)

theorem writeSegment_changes {pt : Part → Bool} {s0 : State} (s : State) (w : MailboxWrite) (x : Xfer) (hK : Changes pt s0 s)
    (h_drawn : pt .drawn = true) (h_boot : pt .boot = true) (h_objects : pt .objects = true) (h_tallies : pt .tallies = true)
    (h_devMem : pt .devMem = true) (h_banks : pt .banks = true) (h_sets : pt .sets = true) (h_roots : pt .roots = true)
    (h_pairs : pt .pairs = true) (h_slots : pt .slots = true) (h_cmds : pt .cmds = true) (h_seq : pt .seq = true)
    (h_txa : pt .txa = true) (h_sdx : pt .sdx = true) (h_rsv : pt .rsv = true) (h_mdc : pt .mdc = true) (h_tok : pt .tok = true)
    (h_bat : pt .bat = true) (h_pools : pt .pools = true) (h_dlv : pt .dlv = true) (h_net : pt .net = true) (h_fed : pt .fed = true)
    (h_dict : pt .dict = true) (h_pins : pt .pins = true) (h_evt : pt .evt = true) (h_trace : pt .trace = true)
    (h_removal : pt .removal = true) : Changes pt s0 (writeSegment s w x) := by
  unfold writeSegment
  repeat' (with_reducible first
      | assumption | apply sendSegment_changes | apply firstUndone_changes | apply firstByte_changes | apply openXfer_changes
      | apply setMoved_changes | apply dictEffect_changes | apply dictWriteWith_changes | apply dictDone_changes
      | apply dictAbort_changes | apply setMailbox_changes | intro _ | extract_lets | split | dsimp +zetaDelta only
      | refine Changes.put ?_)

theorem readSegment_changes {pt : Part → Bool} {s0 : State} (s : State) (w : MailboxWrite) (x : Xfer) (hK : Changes pt s0 s)
    (h_tallies : pt .tallies = true) (h_fed : pt .fed = true) (h_dict : pt .dict = true) : Changes pt s0 (readSegment s w x) := by
  unfold readSegment
  repeat' (with_reducible first
      | assumption | apply sendSegment_changes | apply setArea_changes | apply setMoved_changes | apply dictDone_changes
      | apply setMailbox_changes | intro _ | extract_lets | split | dsimp +zetaDelta only | refine Changes.put ?_)

theorem segmentRequest_changes {pt : Part → Bool} {s0 : State} (s : State) (w : MailboxWrite) (hK : Changes pt s0 s)
    (h_drawn : pt .drawn = true) (h_boot : pt .boot = true) (h_objects : pt .objects = true) (h_tallies : pt .tallies = true)
    (h_devMem : pt .devMem = true) (h_banks : pt .banks = true) (h_sets : pt .sets = true) (h_roots : pt .roots = true)
    (h_pairs : pt .pairs = true) (h_slots : pt .slots = true) (h_cmds : pt .cmds = true) (h_seq : pt .seq = true)
    (h_txa : pt .txa = true) (h_sdx : pt .sdx = true) (h_rsv : pt .rsv = true) (h_mdc : pt .mdc = true) (h_tok : pt .tok = true)
    (h_bat : pt .bat = true) (h_pools : pt .pools = true) (h_dlv : pt .dlv = true) (h_net : pt .net = true) (h_fed : pt .fed = true)
    (h_dict : pt .dict = true) (h_pins : pt .pins = true) (h_evt : pt .evt = true) (h_trace : pt .trace = true)
    (h_removal : pt .removal = true) : Changes pt s0 (segmentRequest s w) := by
  unfold segmentRequest
  repeat' (with_reducible first
      | assumption | apply readSegment_changes | apply writeSegment_changes | apply endTransfer_changes | apply dictAbort_changes
      | refine Changes.fst ‹_› ?_ | refine Changes.snd ‹_› ?_ | intro _ | extract_lets | split | dsimp +zetaDelta only)

theorem requestWord_changes {pt : Part → Bool} {s0 : State} (s : State) (w : MailboxWrite) (hK : Changes pt s0 s)
    (h_drawn : pt .drawn = true) (h_boot : pt .boot = true) (h_objects : pt .objects = true) (h_tallies : pt .tallies = true)
    (h_devMem : pt .devMem = true) (h_banks : pt .banks = true) (h_sets : pt .sets = true) (h_roots : pt .roots = true)
    (h_pairs : pt .pairs = true) (h_slots : pt .slots = true) (h_cmds : pt .cmds = true) (h_seq : pt .seq = true)
    (h_txa : pt .txa = true) (h_sdx : pt .sdx = true) (h_rsv : pt .rsv = true) (h_mdc : pt .mdc = true) (h_tok : pt .tok = true)
    (h_bat : pt .bat = true) (h_pools : pt .pools = true) (h_dlv : pt .dlv = true) (h_net : pt .net = true) (h_fed : pt .fed = true)
    (h_dict : pt .dict = true) (h_pins : pt .pins = true) (h_evt : pt .evt = true) (h_trace : pt .trace = true)
    (h_removal : pt .removal = true) : Changes pt s0 (requestWord s w) := by
  unfold requestWord
  repeat' (with_reducible first
      | assumption | refine bump_tally _ _ ?_ (by assumption) (by decide) | refine bump_object _ _ ?_ (by assumption) (by decide)
      | refine bump_any _ _ ?_ (by assumption) (by assumption) | refine bumpBy_tally _ _ _ ?_ (by assumption) (by decide)
      | refine bumpBy_object _ _ _ ?_ (by assumption) (by decide) | refine bumpBy_any _ _ _ ?_ (by assumption) (by assumption)
      | apply segmentRequest_changes | apply segWriteStart_changes | apply segReadStart_changes | apply expWrite_changes
      | apply expRead_changes | apply beginRequest_changes | apply endTransfer_changes | apply dictAbort_changes
      | apply setMailbox_changes | refine Changes.tally ?_ _ _ _ (by assumption) (by decide)
      | refine Changes.object ?_ _ _ _ (by assumption) (by decide) | refine Changes.any ?_ _ _ _ (by assumption) (by assumption)
      | refine Changes.fst ‹_› ?_ | refine Changes.snd ‹_› ?_ | intro _ | extract_lets | split | dsimp +zetaDelta only
      | refine Changes.put ?_)

theorem mailboxCommand_changes {pt : Part → Bool} {s0 : State} (op : Nat) (w : MailboxWrite) (s : State) (hK : Changes pt s0 s)
    (h_drawn : pt .drawn = true) (h_boot : pt .boot = true) (h_objects : pt .objects = true) (h_tallies : pt .tallies = true)
    (h_devMem : pt .devMem = true) (h_banks : pt .banks = true) (h_sets : pt .sets = true) (h_roots : pt .roots = true)
    (h_pairs : pt .pairs = true) (h_slots : pt .slots = true) (h_cmds : pt .cmds = true) (h_seq : pt .seq = true)
    (h_txa : pt .txa = true) (h_sdx : pt .sdx = true) (h_rsv : pt .rsv = true) (h_mdc : pt .mdc = true) (h_tok : pt .tok = true)
    (h_bat : pt .bat = true) (h_pools : pt .pools = true) (h_dlv : pt .dlv = true) (h_net : pt .net = true) (h_fed : pt .fed = true)
    (h_dict : pt .dict = true) (h_pins : pt .pins = true) (h_evt : pt .evt = true) (h_trace : pt .trace = true)
    (h_removal : pt .removal = true) : Changes pt s0 (mailboxCommand op w s) := by
  unfold mailboxCommand
  repeat' (with_reducible first | assumption | apply requestWord_changes | intro _ | split)

theorem execExpeditedRead_changes {pt : Part → Bool} {s0 : State} (w : MailboxWrite) (s : State) (hK : Changes pt s0 s)
    (h_drawn : pt .drawn = true) (h_boot : pt .boot = true) (h_objects : pt .objects = true) (h_tallies : pt .tallies = true)
    (h_devMem : pt .devMem = true) (h_banks : pt .banks = true) (h_sets : pt .sets = true) (h_roots : pt .roots = true)
    (h_pairs : pt .pairs = true) (h_slots : pt .slots = true) (h_cmds : pt .cmds = true) (h_seq : pt .seq = true)
    (h_txa : pt .txa = true) (h_sdx : pt .sdx = true) (h_rsv : pt .rsv = true) (h_mdc : pt .mdc = true) (h_tok : pt .tok = true)
    (h_bat : pt .bat = true) (h_pools : pt .pools = true) (h_dlv : pt .dlv = true) (h_net : pt .net = true) (h_fed : pt .fed = true)
    (h_dict : pt .dict = true) (h_pins : pt .pins = true) (h_evt : pt .evt = true) (h_trace : pt .trace = true)
    (h_removal : pt .removal = true) : ∃ t, execExpeditedRead w s = .next t ∧ Changes pt s0 t := by
  refine ⟨_, rfl, ?_⟩
  repeat' (with_reducible first | assumption | apply mailboxCommand_changes | intro _)

theorem execExpeditedWrite_changes {pt : Part → Bool} {s0 : State} (w : MailboxWrite) (s : State) (hK : Changes pt s0 s)
    (h_drawn : pt .drawn = true) (h_boot : pt .boot = true) (h_objects : pt .objects = true) (h_tallies : pt .tallies = true)
    (h_devMem : pt .devMem = true) (h_banks : pt .banks = true) (h_sets : pt .sets = true) (h_roots : pt .roots = true)
    (h_pairs : pt .pairs = true) (h_slots : pt .slots = true) (h_cmds : pt .cmds = true) (h_seq : pt .seq = true)
    (h_txa : pt .txa = true) (h_sdx : pt .sdx = true) (h_rsv : pt .rsv = true) (h_mdc : pt .mdc = true) (h_tok : pt .tok = true)
    (h_bat : pt .bat = true) (h_pools : pt .pools = true) (h_dlv : pt .dlv = true) (h_net : pt .net = true) (h_fed : pt .fed = true)
    (h_dict : pt .dict = true) (h_pins : pt .pins = true) (h_evt : pt .evt = true) (h_trace : pt .trace = true)
    (h_removal : pt .removal = true) : ∃ t, execExpeditedWrite w s = .next t ∧ Changes pt s0 t := by
  refine ⟨_, rfl, ?_⟩
  repeat' (with_reducible first | assumption | apply mailboxCommand_changes | intro _)

theorem execSegmentedReadStart_changes {pt : Part → Bool} {s0 : State} (w : MailboxWrite) (s : State) (hK : Changes pt s0 s)
    (h_drawn : pt .drawn = true) (h_boot : pt .boot = true) (h_objects : pt .objects = true) (h_tallies : pt .tallies = true)
    (h_devMem : pt .devMem = true) (h_banks : pt .banks = true) (h_sets : pt .sets = true) (h_roots : pt .roots = true)
    (h_pairs : pt .pairs = true) (h_slots : pt .slots = true) (h_cmds : pt .cmds = true) (h_seq : pt .seq = true)
    (h_txa : pt .txa = true) (h_sdx : pt .sdx = true) (h_rsv : pt .rsv = true) (h_mdc : pt .mdc = true) (h_tok : pt .tok = true)
    (h_bat : pt .bat = true) (h_pools : pt .pools = true) (h_dlv : pt .dlv = true) (h_net : pt .net = true) (h_fed : pt .fed = true)
    (h_dict : pt .dict = true) (h_pins : pt .pins = true) (h_evt : pt .evt = true) (h_trace : pt .trace = true)
    (h_removal : pt .removal = true) : ∃ t, execSegmentedReadStart w s = .next t ∧ Changes pt s0 t := by
  refine ⟨_, rfl, ?_⟩
  repeat' (with_reducible first | assumption | apply mailboxCommand_changes | intro _)

theorem execSegmentedWriteStart_changes {pt : Part → Bool} {s0 : State} (w : MailboxWrite) (s : State) (hK : Changes pt s0 s)
    (h_drawn : pt .drawn = true) (h_boot : pt .boot = true) (h_objects : pt .objects = true) (h_tallies : pt .tallies = true)
    (h_devMem : pt .devMem = true) (h_banks : pt .banks = true) (h_sets : pt .sets = true) (h_roots : pt .roots = true)
    (h_pairs : pt .pairs = true) (h_slots : pt .slots = true) (h_cmds : pt .cmds = true) (h_seq : pt .seq = true)
    (h_txa : pt .txa = true) (h_sdx : pt .sdx = true) (h_rsv : pt .rsv = true) (h_mdc : pt .mdc = true) (h_tok : pt .tok = true)
    (h_bat : pt .bat = true) (h_pools : pt .pools = true) (h_dlv : pt .dlv = true) (h_net : pt .net = true) (h_fed : pt .fed = true)
    (h_dict : pt .dict = true) (h_pins : pt .pins = true) (h_evt : pt .evt = true) (h_trace : pt .trace = true)
    (h_removal : pt .removal = true) : ∃ t, execSegmentedWriteStart w s = .next t ∧ Changes pt s0 t := by
  refine ⟨_, rfl, ?_⟩
  repeat' (with_reducible first | assumption | apply mailboxCommand_changes | intro _)

theorem execSegment_changes {pt : Part → Bool} {s0 : State} (w : MailboxWrite) (s : State) (hK : Changes pt s0 s)
    (h_drawn : pt .drawn = true) (h_boot : pt .boot = true) (h_objects : pt .objects = true) (h_tallies : pt .tallies = true)
    (h_devMem : pt .devMem = true) (h_banks : pt .banks = true) (h_sets : pt .sets = true) (h_roots : pt .roots = true)
    (h_pairs : pt .pairs = true) (h_slots : pt .slots = true) (h_cmds : pt .cmds = true) (h_seq : pt .seq = true)
    (h_txa : pt .txa = true) (h_sdx : pt .sdx = true) (h_rsv : pt .rsv = true) (h_mdc : pt .mdc = true) (h_tok : pt .tok = true)
    (h_bat : pt .bat = true) (h_pools : pt .pools = true) (h_dlv : pt .dlv = true) (h_net : pt .net = true) (h_fed : pt .fed = true)
    (h_dict : pt .dict = true) (h_pins : pt .pins = true) (h_evt : pt .evt = true) (h_trace : pt .trace = true)
    (h_removal : pt .removal = true) : ∃ t, execSegment w s = .next t ∧ Changes pt s0 t := by
  refine ⟨_, rfl, ?_⟩
  repeat' (with_reducible first | assumption | apply mailboxCommand_changes | intro _)

theorem execCancel_changes {pt : Part → Bool} {s0 : State} (w : MailboxWrite) (s : State) (hK : Changes pt s0 s)
    (h_drawn : pt .drawn = true) (h_boot : pt .boot = true) (h_objects : pt .objects = true) (h_tallies : pt .tallies = true)
    (h_devMem : pt .devMem = true) (h_banks : pt .banks = true) (h_sets : pt .sets = true) (h_roots : pt .roots = true)
    (h_pairs : pt .pairs = true) (h_slots : pt .slots = true) (h_cmds : pt .cmds = true) (h_seq : pt .seq = true)
    (h_txa : pt .txa = true) (h_sdx : pt .sdx = true) (h_rsv : pt .rsv = true) (h_mdc : pt .mdc = true) (h_tok : pt .tok = true)
    (h_bat : pt .bat = true) (h_pools : pt .pools = true) (h_dlv : pt .dlv = true) (h_net : pt .net = true) (h_fed : pt .fed = true)
    (h_dict : pt .dict = true) (h_pins : pt .pins = true) (h_evt : pt .evt = true) (h_trace : pt .trace = true)
    (h_removal : pt .removal = true) : ∃ t, execCancel w s = .next t ∧ Changes pt s0 t := by
  refine ⟨_, rfl, ?_⟩
  repeat' (with_reducible first | assumption | apply mailboxCommand_changes | intro _)

theorem execDictSegTimeout_changes {pt : Part → Bool} {s0 : State} (mailbox : Nat) (s : State) (hK : Changes pt s0 s)
    (h_tallies : pt .tallies = true) (h_fed : pt .fed = true)
    (h_dict : pt .dict = true) : ∃ t, execDictSegTimeout mailbox s = .next t ∧ Changes pt s0 t := by
  refine ⟨_, rfl, ?_⟩
  repeat' (with_reducible first | assumption | apply endTransfer_changes | intro _ | split)

/-! ## Tick -/

theorem idle_changes {pt : Part → Bool} {s0 : State} (s : State) (hK : Changes pt s0 s) (h_boot : pt .boot = true)
    (h_tallies : pt .tallies = true) : Changes pt s0 (idle s) := by
  unfold idle
  repeat' (with_reducible first
      | assumption | refine bump_tally _ _ ?_ (by assumption) (by decide) | refine bump_object _ _ ?_ (by assumption) (by decide)
      | refine bump_any _ _ ?_ (by assumption) (by assumption) | refine bumpBy_tally _ _ _ ?_ (by assumption) (by decide)
      | refine bumpBy_object _ _ _ ?_ (by assumption) (by decide) | refine bumpBy_any _ _ _ ?_ (by assumption) (by assumption)
      | refine Changes.tally ?_ _ _ _ (by assumption) (by decide) | refine Changes.object ?_ _ _ _ (by assumption) (by decide)
      | refine Changes.any ?_ _ _ _ (by assumption) (by assumption) | intro _ | extract_lets | split | dsimp +zetaDelta only
      | refine Changes.put ?_)

end Sys2Proof.Machine
end

