-- ==== Sys2Proof/Laws/Events.lean ====
section
/-! SUPPORT. What tracing, a firing, an error and the end of a request leave as they were, field by field (R338, R345, R347, R419). -/

namespace Sys2Proof.Machine

theorem memPoisoned_congr {s t : State} (h : t.mem = s.mem) (a n : Nat) : memPoisoned t a n = memPoisoned s a n := by
  unfold memPoisoned granulePoisoned
  rw [h]

theorem Mems.ext_parts {m k : Mems} (h1 : m.dev = k.dev ∧ m.devPoison = k.devPoison ∧ m.failing = k.failing)
    (h2 : m.txa = k.txa ∧ m.txaPoison = k.txaPoison ∧ m.pfg = k.pfg ∧ m.pfgPoison = k.pfgPoison) (h3 : m.sp = k.sp ∧ m.spPoison = k.spPoison)
    (h4 : m.bank0 = k.bank0 ∧ m.bank1 = k.bank1) : m = k := by
  cases m; cases k; simp_all

/-! ## traceRec -/

theorem traceRec_frame (s : State) (k u n c d1 d0 : Nat) : Changes (fun x => ([.tallies, .trace] : List Part).contains x) s (traceRec s k u n c d1 d0) :=
  traceRec_changes s k u n c d1 d0 (Changes.refl _ s) rfl rfl

@[simp] theorem traceRec_pending (s : State) (k u n c d1 d0 : Nat) : (traceRec s k u n c d1 d0).pending = s.pending := (traceRec_frame s k u n c d1 d0).pending
@[simp] theorem traceRec_drawn (s : State) (k u n c d1 d0 : Nat) : (traceRec s k u n c d1 d0).drawn = s.drawn :=
  (traceRec_frame s k u n c d1 d0).drawn.resolve_left (by decide)
@[simp] theorem traceRec_boot (s : State) (k u n c d1 d0 : Nat) : (traceRec s k u n c d1 d0).boot = s.boot :=
  (traceRec_frame s k u n c d1 d0).boot.resolve_left (by decide)
@[simp] theorem traceRec_mem (s : State) (k u n c d1 d0 : Nat) : (traceRec s k u n c d1 d0).mem = s.mem := by
  have h := traceRec_frame s k u n c d1 d0
  have h1 := h.devMem.resolve_left (by decide)
  have h2 := h.staging.resolve_left (by decide)
  have h3 := h.scratchpad.resolve_left (by decide)
  have h4 := h.banks.resolve_left (by decide)
  exact Mems.ext_parts h1 h2 h3 h4
@[simp] theorem traceRec_sets (s : State) (k u n c d1 d0 : Nat) : (traceRec s k u n c d1 d0).sets = s.sets :=
  (traceRec_frame s k u n c d1 d0).sets.resolve_left (by decide)
@[simp] theorem traceRec_roots (s : State) (k u n c d1 d0 : Nat) : (traceRec s k u n c d1 d0).roots = s.roots :=
  (traceRec_frame s k u n c d1 d0).roots.resolve_left (by decide)
@[simp] theorem traceRec_pairs (s : State) (k u n c d1 d0 : Nat) : (traceRec s k u n c d1 d0).pairs = s.pairs :=
  (traceRec_frame s k u n c d1 d0).pairs.resolve_left (by decide)
@[simp] theorem traceRec_slots (s : State) (k u n c d1 d0 : Nat) : (traceRec s k u n c d1 d0).slots = s.slots :=
  (traceRec_frame s k u n c d1 d0).slots.resolve_left (by decide)
@[simp] theorem traceRec_cmds (s : State) (k u n c d1 d0 : Nat) : (traceRec s k u n c d1 d0).cmds = s.cmds :=
  (traceRec_frame s k u n c d1 d0).cmds.resolve_left (by decide)
@[simp] theorem traceRec_seq (s : State) (k u n c d1 d0 : Nat) : (traceRec s k u n c d1 d0).seq = s.seq :=
  (traceRec_frame s k u n c d1 d0).seq.resolve_left (by decide)
@[simp] theorem traceRec_arbs (s : State) (k u n c d1 d0 : Nat) : (traceRec s k u n c d1 d0).arbs = s.arbs :=
  (traceRec_frame s k u n c d1 d0).arbs.resolve_left (by decide)
@[simp] theorem traceRec_txa (s : State) (k u n c d1 d0 : Nat) : (traceRec s k u n c d1 d0).txa = s.txa :=
  (traceRec_frame s k u n c d1 d0).txa.resolve_left (by decide)
@[simp] theorem traceRec_forge (s : State) (k u n c d1 d0 : Nat) : (traceRec s k u n c d1 d0).forge = s.forge :=
  (traceRec_frame s k u n c d1 d0).forge.resolve_left (by decide)
@[simp] theorem traceRec_sdx (s : State) (k u n c d1 d0 : Nat) : (traceRec s k u n c d1 d0).sdx = s.sdx :=
  (traceRec_frame s k u n c d1 d0).sdx.resolve_left (by decide)
@[simp] theorem traceRec_rsv (s : State) (k u n c d1 d0 : Nat) : (traceRec s k u n c d1 d0).rsv = s.rsv :=
  (traceRec_frame s k u n c d1 d0).rsv.resolve_left (by decide)
@[simp] theorem traceRec_mdc (s : State) (k u n c d1 d0 : Nat) : (traceRec s k u n c d1 d0).mdc = s.mdc :=
  (traceRec_frame s k u n c d1 d0).mdc.resolve_left (by decide)
@[simp] theorem traceRec_tok (s : State) (k u n c d1 d0 : Nat) : (traceRec s k u n c d1 d0).tok = s.tok :=
  (traceRec_frame s k u n c d1 d0).tok.resolve_left (by decide)
@[simp] theorem traceRec_bat (s : State) (k u n c d1 d0 : Nat) : (traceRec s k u n c d1 d0).bat = s.bat :=
  (traceRec_frame s k u n c d1 d0).bat.resolve_left (by decide)
@[simp] theorem traceRec_pools (s : State) (k u n c d1 d0 : Nat) : (traceRec s k u n c d1 d0).pools = s.pools :=
  (traceRec_frame s k u n c d1 d0).pools.resolve_left (by decide)
@[simp] theorem traceRec_dlv (s : State) (k u n c d1 d0 : Nat) : (traceRec s k u n c d1 d0).dlv = s.dlv :=
  (traceRec_frame s k u n c d1 d0).dlv.resolve_left (by decide)
@[simp] theorem traceRec_net (s : State) (k u n c d1 d0 : Nat) : (traceRec s k u n c d1 d0).net = s.net :=
  (traceRec_frame s k u n c d1 d0).net.resolve_left (by decide)
@[simp] theorem traceRec_fed (s : State) (k u n c d1 d0 : Nat) : (traceRec s k u n c d1 d0).fed = s.fed :=
  (traceRec_frame s k u n c d1 d0).fed.resolve_left (by decide)
@[simp] theorem traceRec_dict (s : State) (k u n c d1 d0 : Nat) : (traceRec s k u n c d1 d0).dict = s.dict :=
  (traceRec_frame s k u n c d1 d0).dict.resolve_left (by decide)
@[simp] theorem traceRec_pins (s : State) (k u n c d1 d0 : Nat) : (traceRec s k u n c d1 d0).pins = s.pins :=
  (traceRec_frame s k u n c d1 d0).pins.resolve_left (by decide)
@[simp] theorem traceRec_evt (s : State) (k u n c d1 d0 : Nat) : (traceRec s k u n c d1 d0).evt = s.evt :=
  (traceRec_frame s k u n c d1 d0).evt.resolve_left (by decide)
@[simp] theorem traceRec_ras (s : State) (k u n c d1 d0 : Nat) : (traceRec s k u n c d1 d0).ras = s.ras :=
  (traceRec_frame s k u n c d1 d0).ras.resolve_left (by decide)
@[simp] theorem traceRec_tap (s : State) (k u n c d1 d0 : Nat) : (traceRec s k u n c d1 d0).tap = s.tap :=
  (traceRec_frame s k u n c d1 d0).tap.resolve_left (by decide)
@[simp] theorem traceRec_removal (s : State) (k u n c d1 d0 : Nat) : (traceRec s k u n c d1 d0).removal = s.removal :=
  (traceRec_frame s k u n c d1 d0).removal.resolve_left (by decide)
/-- An object that is no tally keeps its value. -/
theorem objGet_traceRec (s : State) (k u n c d1 d0 : Nat) {ix sx : Nat} (h : keyPart (objKey ix sx) = .objects) : objGet (traceRec s k u n c d1 d0) ix sx = objGet s ix sx :=
  ((traceRec_frame s k u n c d1 d0).objs (objKey ix sx)).resolve_left (by rw [h]; decide)
@[simp] theorem slotOf_traceRec (s : State) (k u n c d1 d0 : Nat) (j : Nat) : slotOf (traceRec s k u n c d1 d0) j = slotOf s j := by
  simp only [slotOf, traceRec_slots]
@[simp] theorem pairOf_traceRec (s : State) (k u n c d1 d0 : Nat) (j : Nat) : pairOf (traceRec s k u n c d1 d0) j = pairOf s j := by
  simp only [pairOf, traceRec_pairs]
@[simp] theorem poolOf_traceRec (s : State) (k u n c d1 d0 : Nat) (j : Nat) : poolOf (traceRec s k u n c d1 d0) j = poolOf s j := by
  simp only [poolOf, traceRec_pools]
@[simp] theorem portOf_traceRec (s : State) (k u n c d1 d0 : Nat) (j : Nat) : portOf (traceRec s k u n c d1 d0) j = portOf s j := by
  simp only [portOf, traceRec_net]
@[simp] theorem mailboxOf_traceRec (s : State) (k u n c d1 d0 : Nat) (j : Nat) : mailboxOf (traceRec s k u n c d1 d0) j = mailboxOf s j := by
  simp only [mailboxOf, traceRec_dict]
@[simp] theorem dieId_traceRec (s : State) (k u n c d1 d0 : Nat) : dieId (traceRec s k u n c d1 d0)  = dieId s := by
  simp only [dieId, traceRec_boot]
@[simp] theorem headCountClosed_traceRec (s : State) (k u n c d1 d0 : Nat) : headCountClosed (traceRec s k u n c d1 d0)  = headCountClosed s := by
  simp only [headCountClosed, traceRec_fed]
@[simp] theorem otherDies_traceRec (s : State) (k u n c d1 d0 : Nat) : otherDies (traceRec s k u n c d1 d0)  = otherDies s := by
  simp only [otherDies, dieAdmitted, dieId, headCountClosed, traceRec_boot, traceRec_fed]
@[simp] theorem srcOf_traceRec (s : State) (k u n c d1 d0 : Nat) (j : Nat) : srcOf (traceRec s k u n c d1 d0) j = srcOf s j := by
  simp only [srcOf, traceRec_evt]
@[simp] theorem coreOf_traceRec (s : State) (k u n c d1 d0 : Nat) (j : Nat) : coreOf (traceRec s k u n c d1 d0) j = coreOf s j := by
  simp only [coreOf, traceRec_evt]
@[simp] theorem grpOf_traceRec (s : State) (k u n c d1 d0 : Nat) (j : Nat) : grpOf (traceRec s k u n c d1 d0) j = grpOf s j := by
  simp only [grpOf, traceRec_evt]
@[simp] theorem bankOf_traceRec (s : State) (k u n c d1 d0 : Nat) (j : Nat) : bankOf (traceRec s k u n c d1 d0) j = bankOf s j := by
  simp only [bankOf, traceRec_dlv]
@[simp] theorem qpOf_traceRec (s : State) (k u n c d1 d0 : Nat) (j : Nat) : qpOf (traceRec s k u n c d1 d0) j = qpOf s j := by
  simp only [qpOf, traceRec_net]
@[simp] theorem lrOf_traceRec (s : State) (k u n c d1 d0 : Nat) (j : Nat) : lrOf (traceRec s k u n c d1 d0) j = lrOf s j := by
  simp only [lrOf, traceRec_net]
@[simp] theorem setOf_traceRec (s : State) (k u n c d1 d0 : Nat) (j : Nat) : setOf (traceRec s k u n c d1 d0) j = setOf s j := by
  simp only [setOf, traceRec_sets]
@[simp] theorem ctxOf_traceRec (s : State) (k u n c d1 d0 : Nat) (j : Nat) : ctxOf (traceRec s k u n c d1 d0) j = ctxOf s j := by
  simp only [ctxOf, traceRec_mdc]
@[simp] theorem memPoisoned_traceRec (s : State) (k u n c d1 d0 : Nat) (a j : Nat) : memPoisoned (traceRec s k u n c d1 d0) a j = memPoisoned s a j :=
  memPoisoned_congr (traceRec_mem s k u n c d1 d0) a j
@[simp] theorem memBytes_traceRec (s : State) (k u n c d1 d0 : Nat) (a j : Nat) : memBytes (traceRec s k u n c d1 d0) a j = memBytes s a j := by
  simp only [memBytes, traceRec_mem]
@[simp] theorem memNat_traceRec (s : State) (k u n c d1 d0 : Nat) (a j : Nat) : memNat (traceRec s k u n c d1 d0) a j = memNat s a j := by
  simp only [memNat, traceRec_mem]
@[simp] theorem slotBusy_traceRec (s : State) (k u n c d1 d0 : Nat) (j : Nat) : slotBusy (traceRec s k u n c d1 d0) j = slotBusy s j := by
  simp only [slotBusy, slotOf_traceRec]
@[simp] theorem unitsWork_traceRec (s : State) (k u n c d1 d0 : Nat) : unitsWork (traceRec s k u n c d1 d0)  = unitsWork s := by
  simp only [unitsWork, traceRec_boot]
@[simp] theorem dieAdmitted_traceRec (s : State) (k u n c d1 d0 : Nat) (j : Nat) : dieAdmitted (traceRec s k u n c d1 d0) j = dieAdmitted s j := by
  simp only [dieAdmitted, headCountClosed, traceRec_fed]

/-! ## fire -/

theorem fire_frame (s : State) (n c : Nat) : Changes (fun x => ([.tallies, .evt] : List Part).contains x) s (fire s n c) :=
  fire_changes s n c (Changes.refl _ s) rfl rfl

@[simp] theorem fire_pending (s : State) (n c : Nat) : (fire s n c).pending = s.pending := (fire_frame s n c).pending
@[simp] theorem fire_drawn (s : State) (n c : Nat) : (fire s n c).drawn = s.drawn :=
  (fire_frame s n c).drawn.resolve_left (by decide)
@[simp] theorem fire_boot (s : State) (n c : Nat) : (fire s n c).boot = s.boot :=
  (fire_frame s n c).boot.resolve_left (by decide)
@[simp] theorem fire_mem (s : State) (n c : Nat) : (fire s n c).mem = s.mem := by
  have h := fire_frame s n c
  have h1 := h.devMem.resolve_left (by decide)
  have h2 := h.staging.resolve_left (by decide)
  have h3 := h.scratchpad.resolve_left (by decide)
  have h4 := h.banks.resolve_left (by decide)
  exact Mems.ext_parts h1 h2 h3 h4
@[simp] theorem fire_sets (s : State) (n c : Nat) : (fire s n c).sets = s.sets :=
  (fire_frame s n c).sets.resolve_left (by decide)
@[simp] theorem fire_roots (s : State) (n c : Nat) : (fire s n c).roots = s.roots :=
  (fire_frame s n c).roots.resolve_left (by decide)
@[simp] theorem fire_pairs (s : State) (n c : Nat) : (fire s n c).pairs = s.pairs :=
  (fire_frame s n c).pairs.resolve_left (by decide)
@[simp] theorem fire_slots (s : State) (n c : Nat) : (fire s n c).slots = s.slots :=
  (fire_frame s n c).slots.resolve_left (by decide)
@[simp] theorem fire_cmds (s : State) (n c : Nat) : (fire s n c).cmds = s.cmds :=
  (fire_frame s n c).cmds.resolve_left (by decide)
@[simp] theorem fire_seq (s : State) (n c : Nat) : (fire s n c).seq = s.seq :=
  (fire_frame s n c).seq.resolve_left (by decide)
@[simp] theorem fire_arbs (s : State) (n c : Nat) : (fire s n c).arbs = s.arbs :=
  (fire_frame s n c).arbs.resolve_left (by decide)
@[simp] theorem fire_txa (s : State) (n c : Nat) : (fire s n c).txa = s.txa :=
  (fire_frame s n c).txa.resolve_left (by decide)
@[simp] theorem fire_forge (s : State) (n c : Nat) : (fire s n c).forge = s.forge :=
  (fire_frame s n c).forge.resolve_left (by decide)
@[simp] theorem fire_sdx (s : State) (n c : Nat) : (fire s n c).sdx = s.sdx :=
  (fire_frame s n c).sdx.resolve_left (by decide)
@[simp] theorem fire_rsv (s : State) (n c : Nat) : (fire s n c).rsv = s.rsv :=
  (fire_frame s n c).rsv.resolve_left (by decide)
@[simp] theorem fire_mdc (s : State) (n c : Nat) : (fire s n c).mdc = s.mdc :=
  (fire_frame s n c).mdc.resolve_left (by decide)
@[simp] theorem fire_tok (s : State) (n c : Nat) : (fire s n c).tok = s.tok :=
  (fire_frame s n c).tok.resolve_left (by decide)
@[simp] theorem fire_bat (s : State) (n c : Nat) : (fire s n c).bat = s.bat :=
  (fire_frame s n c).bat.resolve_left (by decide)
@[simp] theorem fire_pools (s : State) (n c : Nat) : (fire s n c).pools = s.pools :=
  (fire_frame s n c).pools.resolve_left (by decide)
@[simp] theorem fire_dlv (s : State) (n c : Nat) : (fire s n c).dlv = s.dlv :=
  (fire_frame s n c).dlv.resolve_left (by decide)
@[simp] theorem fire_net (s : State) (n c : Nat) : (fire s n c).net = s.net :=
  (fire_frame s n c).net.resolve_left (by decide)
@[simp] theorem fire_fed (s : State) (n c : Nat) : (fire s n c).fed = s.fed :=
  (fire_frame s n c).fed.resolve_left (by decide)
@[simp] theorem fire_dict (s : State) (n c : Nat) : (fire s n c).dict = s.dict :=
  (fire_frame s n c).dict.resolve_left (by decide)
@[simp] theorem fire_pins (s : State) (n c : Nat) : (fire s n c).pins = s.pins :=
  (fire_frame s n c).pins.resolve_left (by decide)
@[simp] theorem fire_ras (s : State) (n c : Nat) : (fire s n c).ras = s.ras :=
  (fire_frame s n c).ras.resolve_left (by decide)
@[simp] theorem fire_trace (s : State) (n c : Nat) : (fire s n c).trace = s.trace :=
  (fire_frame s n c).trace.resolve_left (by decide)
@[simp] theorem fire_tap (s : State) (n c : Nat) : (fire s n c).tap = s.tap :=
  (fire_frame s n c).tap.resolve_left (by decide)
@[simp] theorem fire_removal (s : State) (n c : Nat) : (fire s n c).removal = s.removal :=
  (fire_frame s n c).removal.resolve_left (by decide)
/-- An object that is no tally keeps its value. -/
theorem objGet_fire (s : State) (n c : Nat) {ix sx : Nat} (h : keyPart (objKey ix sx) = .objects) : objGet (fire s n c) ix sx = objGet s ix sx :=
  ((fire_frame s n c).objs (objKey ix sx)).resolve_left (by rw [h]; decide)
@[simp] theorem slotOf_fire (s : State) (n c : Nat) (j : Nat) : slotOf (fire s n c) j = slotOf s j := by
  simp only [slotOf, fire_slots]
@[simp] theorem pairOf_fire (s : State) (n c : Nat) (j : Nat) : pairOf (fire s n c) j = pairOf s j := by
  simp only [pairOf, fire_pairs]
@[simp] theorem poolOf_fire (s : State) (n c : Nat) (j : Nat) : poolOf (fire s n c) j = poolOf s j := by
  simp only [poolOf, fire_pools]
@[simp] theorem portOf_fire (s : State) (n c : Nat) (j : Nat) : portOf (fire s n c) j = portOf s j := by
  simp only [portOf, fire_net]
@[simp] theorem mailboxOf_fire (s : State) (n c : Nat) (j : Nat) : mailboxOf (fire s n c) j = mailboxOf s j := by
  simp only [mailboxOf, fire_dict]
@[simp] theorem dieId_fire (s : State) (n c : Nat) : dieId (fire s n c)  = dieId s := by
  simp only [dieId, fire_boot]
@[simp] theorem headCountClosed_fire (s : State) (n c : Nat) : headCountClosed (fire s n c)  = headCountClosed s := by
  simp only [headCountClosed, fire_fed]
@[simp] theorem otherDies_fire (s : State) (n c : Nat) : otherDies (fire s n c)  = otherDies s := by
  simp only [otherDies, dieAdmitted, dieId, headCountClosed, fire_boot, fire_fed]
@[simp] theorem bankOf_fire (s : State) (n c : Nat) (j : Nat) : bankOf (fire s n c) j = bankOf s j := by
  simp only [bankOf, fire_dlv]
@[simp] theorem qpOf_fire (s : State) (n c : Nat) (j : Nat) : qpOf (fire s n c) j = qpOf s j := by
  simp only [qpOf, fire_net]
@[simp] theorem lrOf_fire (s : State) (n c : Nat) (j : Nat) : lrOf (fire s n c) j = lrOf s j := by
  simp only [lrOf, fire_net]
@[simp] theorem setOf_fire (s : State) (n c : Nat) (j : Nat) : setOf (fire s n c) j = setOf s j := by
  simp only [setOf, fire_sets]
@[simp] theorem ctxOf_fire (s : State) (n c : Nat) (j : Nat) : ctxOf (fire s n c) j = ctxOf s j := by
  simp only [ctxOf, fire_mdc]
@[simp] theorem memPoisoned_fire (s : State) (n c : Nat) (a j : Nat) : memPoisoned (fire s n c) a j = memPoisoned s a j :=
  memPoisoned_congr (fire_mem s n c) a j
@[simp] theorem memBytes_fire (s : State) (n c : Nat) (a j : Nat) : memBytes (fire s n c) a j = memBytes s a j := by
  simp only [memBytes, fire_mem]
@[simp] theorem memNat_fire (s : State) (n c : Nat) (a j : Nat) : memNat (fire s n c) a j = memNat s a j := by
  simp only [memNat, fire_mem]
@[simp] theorem slotBusy_fire (s : State) (n c : Nat) (j : Nat) : slotBusy (fire s n c) j = slotBusy s j := by
  simp only [slotBusy, slotOf_fire]
@[simp] theorem unitsWork_fire (s : State) (n c : Nat) : unitsWork (fire s n c)  = unitsWork s := by
  simp only [unitsWork, fire_boot]
@[simp] theorem dieAdmitted_fire (s : State) (n c : Nat) (j : Nat) : dieAdmitted (fire s n c) j = dieAdmitted s j := by
  simp only [dieAdmitted, headCountClosed, fire_fed]

/-! ## countErr -/

theorem countErr_frame (s : State) (c n : Nat) : Changes (fun x => ([.tallies, .trace] : List Part).contains x) s (countErr s c n) :=
  countErr_changes s c n (Changes.refl _ s) rfl rfl

@[simp] theorem countErr_pending (s : State) (c n : Nat) : (countErr s c n).pending = s.pending := (countErr_frame s c n).pending
@[simp] theorem countErr_drawn (s : State) (c n : Nat) : (countErr s c n).drawn = s.drawn :=
  (countErr_frame s c n).drawn.resolve_left (by decide)
@[simp] theorem countErr_boot (s : State) (c n : Nat) : (countErr s c n).boot = s.boot :=
  (countErr_frame s c n).boot.resolve_left (by decide)
@[simp] theorem countErr_mem (s : State) (c n : Nat) : (countErr s c n).mem = s.mem := by
  have h := countErr_frame s c n
  have h1 := h.devMem.resolve_left (by decide)
  have h2 := h.staging.resolve_left (by decide)
  have h3 := h.scratchpad.resolve_left (by decide)
  have h4 := h.banks.resolve_left (by decide)
  exact Mems.ext_parts h1 h2 h3 h4
@[simp] theorem countErr_sets (s : State) (c n : Nat) : (countErr s c n).sets = s.sets :=
  (countErr_frame s c n).sets.resolve_left (by decide)
@[simp] theorem countErr_roots (s : State) (c n : Nat) : (countErr s c n).roots = s.roots :=
  (countErr_frame s c n).roots.resolve_left (by decide)
@[simp] theorem countErr_pairs (s : State) (c n : Nat) : (countErr s c n).pairs = s.pairs :=
  (countErr_frame s c n).pairs.resolve_left (by decide)
@[simp] theorem countErr_slots (s : State) (c n : Nat) : (countErr s c n).slots = s.slots :=
  (countErr_frame s c n).slots.resolve_left (by decide)
@[simp] theorem countErr_cmds (s : State) (c n : Nat) : (countErr s c n).cmds = s.cmds :=
  (countErr_frame s c n).cmds.resolve_left (by decide)
@[simp] theorem countErr_seq (s : State) (c n : Nat) : (countErr s c n).seq = s.seq :=
  (countErr_frame s c n).seq.resolve_left (by decide)
@[simp] theorem countErr_arbs (s : State) (c n : Nat) : (countErr s c n).arbs = s.arbs :=
  (countErr_frame s c n).arbs.resolve_left (by decide)
@[simp] theorem countErr_txa (s : State) (c n : Nat) : (countErr s c n).txa = s.txa :=
  (countErr_frame s c n).txa.resolve_left (by decide)
@[simp] theorem countErr_forge (s : State) (c n : Nat) : (countErr s c n).forge = s.forge :=
  (countErr_frame s c n).forge.resolve_left (by decide)
@[simp] theorem countErr_sdx (s : State) (c n : Nat) : (countErr s c n).sdx = s.sdx :=
  (countErr_frame s c n).sdx.resolve_left (by decide)
@[simp] theorem countErr_rsv (s : State) (c n : Nat) : (countErr s c n).rsv = s.rsv :=
  (countErr_frame s c n).rsv.resolve_left (by decide)
@[simp] theorem countErr_mdc (s : State) (c n : Nat) : (countErr s c n).mdc = s.mdc :=
  (countErr_frame s c n).mdc.resolve_left (by decide)
@[simp] theorem countErr_tok (s : State) (c n : Nat) : (countErr s c n).tok = s.tok :=
  (countErr_frame s c n).tok.resolve_left (by decide)
@[simp] theorem countErr_bat (s : State) (c n : Nat) : (countErr s c n).bat = s.bat :=
  (countErr_frame s c n).bat.resolve_left (by decide)
@[simp] theorem countErr_pools (s : State) (c n : Nat) : (countErr s c n).pools = s.pools :=
  (countErr_frame s c n).pools.resolve_left (by decide)
@[simp] theorem countErr_dlv (s : State) (c n : Nat) : (countErr s c n).dlv = s.dlv :=
  (countErr_frame s c n).dlv.resolve_left (by decide)
@[simp] theorem countErr_net (s : State) (c n : Nat) : (countErr s c n).net = s.net :=
  (countErr_frame s c n).net.resolve_left (by decide)
@[simp] theorem countErr_fed (s : State) (c n : Nat) : (countErr s c n).fed = s.fed :=
  (countErr_frame s c n).fed.resolve_left (by decide)
@[simp] theorem countErr_dict (s : State) (c n : Nat) : (countErr s c n).dict = s.dict :=
  (countErr_frame s c n).dict.resolve_left (by decide)
@[simp] theorem countErr_pins (s : State) (c n : Nat) : (countErr s c n).pins = s.pins :=
  (countErr_frame s c n).pins.resolve_left (by decide)
@[simp] theorem countErr_evt (s : State) (c n : Nat) : (countErr s c n).evt = s.evt :=
  (countErr_frame s c n).evt.resolve_left (by decide)
@[simp] theorem countErr_ras (s : State) (c n : Nat) : (countErr s c n).ras = s.ras :=
  (countErr_frame s c n).ras.resolve_left (by decide)
@[simp] theorem countErr_tap (s : State) (c n : Nat) : (countErr s c n).tap = s.tap :=
  (countErr_frame s c n).tap.resolve_left (by decide)
@[simp] theorem countErr_removal (s : State) (c n : Nat) : (countErr s c n).removal = s.removal :=
  (countErr_frame s c n).removal.resolve_left (by decide)
/-- An object that is no tally keeps its value. -/
theorem objGet_countErr (s : State) (c n : Nat) {ix sx : Nat} (h : keyPart (objKey ix sx) = .objects) : objGet (countErr s c n) ix sx = objGet s ix sx :=
  ((countErr_frame s c n).objs (objKey ix sx)).resolve_left (by rw [h]; decide)
@[simp] theorem slotOf_countErr (s : State) (c n : Nat) (j : Nat) : slotOf (countErr s c n) j = slotOf s j := by
  simp only [slotOf, countErr_slots]
@[simp] theorem pairOf_countErr (s : State) (c n : Nat) (j : Nat) : pairOf (countErr s c n) j = pairOf s j := by
  simp only [pairOf, countErr_pairs]
@[simp] theorem poolOf_countErr (s : State) (c n : Nat) (j : Nat) : poolOf (countErr s c n) j = poolOf s j := by
  simp only [poolOf, countErr_pools]
@[simp] theorem portOf_countErr (s : State) (c n : Nat) (j : Nat) : portOf (countErr s c n) j = portOf s j := by
  simp only [portOf, countErr_net]
@[simp] theorem mailboxOf_countErr (s : State) (c n : Nat) (j : Nat) : mailboxOf (countErr s c n) j = mailboxOf s j := by
  simp only [mailboxOf, countErr_dict]
@[simp] theorem dieId_countErr (s : State) (c n : Nat) : dieId (countErr s c n)  = dieId s := by
  simp only [dieId, countErr_boot]
@[simp] theorem headCountClosed_countErr (s : State) (c n : Nat) : headCountClosed (countErr s c n)  = headCountClosed s := by
  simp only [headCountClosed, countErr_fed]
@[simp] theorem otherDies_countErr (s : State) (c n : Nat) : otherDies (countErr s c n)  = otherDies s := by
  simp only [otherDies, dieAdmitted, dieId, headCountClosed, countErr_boot, countErr_fed]
@[simp] theorem srcOf_countErr (s : State) (c n : Nat) (j : Nat) : srcOf (countErr s c n) j = srcOf s j := by
  simp only [srcOf, countErr_evt]
@[simp] theorem coreOf_countErr (s : State) (c n : Nat) (j : Nat) : coreOf (countErr s c n) j = coreOf s j := by
  simp only [coreOf, countErr_evt]
@[simp] theorem grpOf_countErr (s : State) (c n : Nat) (j : Nat) : grpOf (countErr s c n) j = grpOf s j := by
  simp only [grpOf, countErr_evt]
@[simp] theorem bankOf_countErr (s : State) (c n : Nat) (j : Nat) : bankOf (countErr s c n) j = bankOf s j := by
  simp only [bankOf, countErr_dlv]
@[simp] theorem qpOf_countErr (s : State) (c n : Nat) (j : Nat) : qpOf (countErr s c n) j = qpOf s j := by
  simp only [qpOf, countErr_net]
@[simp] theorem lrOf_countErr (s : State) (c n : Nat) (j : Nat) : lrOf (countErr s c n) j = lrOf s j := by
  simp only [lrOf, countErr_net]
@[simp] theorem setOf_countErr (s : State) (c n : Nat) (j : Nat) : setOf (countErr s c n) j = setOf s j := by
  simp only [setOf, countErr_sets]
@[simp] theorem ctxOf_countErr (s : State) (c n : Nat) (j : Nat) : ctxOf (countErr s c n) j = ctxOf s j := by
  simp only [ctxOf, countErr_mdc]
@[simp] theorem memPoisoned_countErr (s : State) (c n : Nat) (a j : Nat) : memPoisoned (countErr s c n) a j = memPoisoned s a j :=
  memPoisoned_congr (countErr_mem s c n) a j
@[simp] theorem memBytes_countErr (s : State) (c n : Nat) (a j : Nat) : memBytes (countErr s c n) a j = memBytes s a j := by
  simp only [memBytes, countErr_mem]
@[simp] theorem memNat_countErr (s : State) (c n : Nat) (a j : Nat) : memNat (countErr s c n) a j = memNat s a j := by
  simp only [memNat, countErr_mem]
@[simp] theorem slotBusy_countErr (s : State) (c n : Nat) (j : Nat) : slotBusy (countErr s c n) j = slotBusy s j := by
  simp only [slotBusy, slotOf_countErr]
@[simp] theorem unitsWork_countErr (s : State) (c n : Nat) : unitsWork (countErr s c n)  = unitsWork s := by
  simp only [unitsWork, countErr_boot]
@[simp] theorem dieAdmitted_countErr (s : State) (c n : Nat) (j : Nat) : dieAdmitted (countErr s c n) j = dieAdmitted s j := by
  simp only [dieAdmitted, headCountClosed, countErr_fed]

/-! ## raiseErr -/

theorem raiseErr_frame (s : State) (c n : Nat) : Changes (fun x => ([.tallies, .evt, .trace] : List Part).contains x) s (raiseErr s c n) :=
  raiseErr_changes s c n (Changes.refl _ s) rfl rfl rfl

@[simp] theorem raiseErr_pending (s : State) (c n : Nat) : (raiseErr s c n).pending = s.pending := (raiseErr_frame s c n).pending
@[simp] theorem raiseErr_drawn (s : State) (c n : Nat) : (raiseErr s c n).drawn = s.drawn :=
  (raiseErr_frame s c n).drawn.resolve_left (by decide)
@[simp] theorem raiseErr_boot (s : State) (c n : Nat) : (raiseErr s c n).boot = s.boot :=
  (raiseErr_frame s c n).boot.resolve_left (by decide)
@[simp] theorem raiseErr_mem (s : State) (c n : Nat) : (raiseErr s c n).mem = s.mem := by
  have h := raiseErr_frame s c n
  have h1 := h.devMem.resolve_left (by decide)
  have h2 := h.staging.resolve_left (by decide)
  have h3 := h.scratchpad.resolve_left (by decide)
  have h4 := h.banks.resolve_left (by decide)
  exact Mems.ext_parts h1 h2 h3 h4
@[simp] theorem raiseErr_sets (s : State) (c n : Nat) : (raiseErr s c n).sets = s.sets :=
  (raiseErr_frame s c n).sets.resolve_left (by decide)
@[simp] theorem raiseErr_roots (s : State) (c n : Nat) : (raiseErr s c n).roots = s.roots :=
  (raiseErr_frame s c n).roots.resolve_left (by decide)
@[simp] theorem raiseErr_pairs (s : State) (c n : Nat) : (raiseErr s c n).pairs = s.pairs :=
  (raiseErr_frame s c n).pairs.resolve_left (by decide)
@[simp] theorem raiseErr_slots (s : State) (c n : Nat) : (raiseErr s c n).slots = s.slots :=
  (raiseErr_frame s c n).slots.resolve_left (by decide)
@[simp] theorem raiseErr_cmds (s : State) (c n : Nat) : (raiseErr s c n).cmds = s.cmds :=
  (raiseErr_frame s c n).cmds.resolve_left (by decide)
@[simp] theorem raiseErr_seq (s : State) (c n : Nat) : (raiseErr s c n).seq = s.seq :=
  (raiseErr_frame s c n).seq.resolve_left (by decide)
@[simp] theorem raiseErr_arbs (s : State) (c n : Nat) : (raiseErr s c n).arbs = s.arbs :=
  (raiseErr_frame s c n).arbs.resolve_left (by decide)
@[simp] theorem raiseErr_txa (s : State) (c n : Nat) : (raiseErr s c n).txa = s.txa :=
  (raiseErr_frame s c n).txa.resolve_left (by decide)
@[simp] theorem raiseErr_forge (s : State) (c n : Nat) : (raiseErr s c n).forge = s.forge :=
  (raiseErr_frame s c n).forge.resolve_left (by decide)
@[simp] theorem raiseErr_sdx (s : State) (c n : Nat) : (raiseErr s c n).sdx = s.sdx :=
  (raiseErr_frame s c n).sdx.resolve_left (by decide)
@[simp] theorem raiseErr_rsv (s : State) (c n : Nat) : (raiseErr s c n).rsv = s.rsv :=
  (raiseErr_frame s c n).rsv.resolve_left (by decide)
@[simp] theorem raiseErr_mdc (s : State) (c n : Nat) : (raiseErr s c n).mdc = s.mdc :=
  (raiseErr_frame s c n).mdc.resolve_left (by decide)
@[simp] theorem raiseErr_tok (s : State) (c n : Nat) : (raiseErr s c n).tok = s.tok :=
  (raiseErr_frame s c n).tok.resolve_left (by decide)
@[simp] theorem raiseErr_bat (s : State) (c n : Nat) : (raiseErr s c n).bat = s.bat :=
  (raiseErr_frame s c n).bat.resolve_left (by decide)
@[simp] theorem raiseErr_pools (s : State) (c n : Nat) : (raiseErr s c n).pools = s.pools :=
  (raiseErr_frame s c n).pools.resolve_left (by decide)
@[simp] theorem raiseErr_dlv (s : State) (c n : Nat) : (raiseErr s c n).dlv = s.dlv :=
  (raiseErr_frame s c n).dlv.resolve_left (by decide)
@[simp] theorem raiseErr_net (s : State) (c n : Nat) : (raiseErr s c n).net = s.net :=
  (raiseErr_frame s c n).net.resolve_left (by decide)
@[simp] theorem raiseErr_fed (s : State) (c n : Nat) : (raiseErr s c n).fed = s.fed :=
  (raiseErr_frame s c n).fed.resolve_left (by decide)
@[simp] theorem raiseErr_dict (s : State) (c n : Nat) : (raiseErr s c n).dict = s.dict :=
  (raiseErr_frame s c n).dict.resolve_left (by decide)
@[simp] theorem raiseErr_pins (s : State) (c n : Nat) : (raiseErr s c n).pins = s.pins :=
  (raiseErr_frame s c n).pins.resolve_left (by decide)
@[simp] theorem raiseErr_ras (s : State) (c n : Nat) : (raiseErr s c n).ras = s.ras :=
  (raiseErr_frame s c n).ras.resolve_left (by decide)
@[simp] theorem raiseErr_tap (s : State) (c n : Nat) : (raiseErr s c n).tap = s.tap :=
  (raiseErr_frame s c n).tap.resolve_left (by decide)
@[simp] theorem raiseErr_removal (s : State) (c n : Nat) : (raiseErr s c n).removal = s.removal :=
  (raiseErr_frame s c n).removal.resolve_left (by decide)
/-- An object that is no tally keeps its value. -/
theorem objGet_raiseErr (s : State) (c n : Nat) {ix sx : Nat} (h : keyPart (objKey ix sx) = .objects) : objGet (raiseErr s c n) ix sx = objGet s ix sx :=
  ((raiseErr_frame s c n).objs (objKey ix sx)).resolve_left (by rw [h]; decide)
@[simp] theorem slotOf_raiseErr (s : State) (c n : Nat) (j : Nat) : slotOf (raiseErr s c n) j = slotOf s j := by
  simp only [slotOf, raiseErr_slots]
@[simp] theorem pairOf_raiseErr (s : State) (c n : Nat) (j : Nat) : pairOf (raiseErr s c n) j = pairOf s j := by
  simp only [pairOf, raiseErr_pairs]
@[simp] theorem poolOf_raiseErr (s : State) (c n : Nat) (j : Nat) : poolOf (raiseErr s c n) j = poolOf s j := by
  simp only [poolOf, raiseErr_pools]
@[simp] theorem portOf_raiseErr (s : State) (c n : Nat) (j : Nat) : portOf (raiseErr s c n) j = portOf s j := by
  simp only [portOf, raiseErr_net]
@[simp] theorem mailboxOf_raiseErr (s : State) (c n : Nat) (j : Nat) : mailboxOf (raiseErr s c n) j = mailboxOf s j := by
  simp only [mailboxOf, raiseErr_dict]
@[simp] theorem dieId_raiseErr (s : State) (c n : Nat) : dieId (raiseErr s c n)  = dieId s := by
  simp only [dieId, raiseErr_boot]
@[simp] theorem headCountClosed_raiseErr (s : State) (c n : Nat) : headCountClosed (raiseErr s c n)  = headCountClosed s := by
  simp only [headCountClosed, raiseErr_fed]
@[simp] theorem otherDies_raiseErr (s : State) (c n : Nat) : otherDies (raiseErr s c n)  = otherDies s := by
  simp only [otherDies, dieAdmitted, dieId, headCountClosed, raiseErr_boot, raiseErr_fed]
@[simp] theorem bankOf_raiseErr (s : State) (c n : Nat) (j : Nat) : bankOf (raiseErr s c n) j = bankOf s j := by
  simp only [bankOf, raiseErr_dlv]
@[simp] theorem qpOf_raiseErr (s : State) (c n : Nat) (j : Nat) : qpOf (raiseErr s c n) j = qpOf s j := by
  simp only [qpOf, raiseErr_net]
@[simp] theorem lrOf_raiseErr (s : State) (c n : Nat) (j : Nat) : lrOf (raiseErr s c n) j = lrOf s j := by
  simp only [lrOf, raiseErr_net]
@[simp] theorem setOf_raiseErr (s : State) (c n : Nat) (j : Nat) : setOf (raiseErr s c n) j = setOf s j := by
  simp only [setOf, raiseErr_sets]
@[simp] theorem ctxOf_raiseErr (s : State) (c n : Nat) (j : Nat) : ctxOf (raiseErr s c n) j = ctxOf s j := by
  simp only [ctxOf, raiseErr_mdc]
@[simp] theorem memPoisoned_raiseErr (s : State) (c n : Nat) (a j : Nat) : memPoisoned (raiseErr s c n) a j = memPoisoned s a j :=
  memPoisoned_congr (raiseErr_mem s c n) a j
@[simp] theorem memBytes_raiseErr (s : State) (c n : Nat) (a j : Nat) : memBytes (raiseErr s c n) a j = memBytes s a j := by
  simp only [memBytes, raiseErr_mem]
@[simp] theorem memNat_raiseErr (s : State) (c n : Nat) (a j : Nat) : memNat (raiseErr s c n) a j = memNat s a j := by
  simp only [memNat, raiseErr_mem]
@[simp] theorem slotBusy_raiseErr (s : State) (c n : Nat) (j : Nat) : slotBusy (raiseErr s c n) j = slotBusy s j := by
  simp only [slotBusy, slotOf_raiseErr]
@[simp] theorem unitsWork_raiseErr (s : State) (c n : Nat) : unitsWork (raiseErr s c n)  = unitsWork s := by
  simp only [unitsWork, raiseErr_boot]
@[simp] theorem dieAdmitted_raiseErr (s : State) (c n : Nat) (j : Nat) : dieAdmitted (raiseErr s c n) j = dieAdmitted s j := by
  simp only [dieAdmitted, headCountClosed, raiseErr_fed]

/-! ## lastBadOther -/

theorem lastBadOther_frame (s : State) : Changes (fun x => ([.drawn, .tallies] : List Part).contains x) s (lastBadOther s) :=
  lastBadOther_changes s  (Changes.refl _ s) rfl rfl

@[simp] theorem lastBadOther_pending (s : State) : (lastBadOther s).pending = s.pending := (lastBadOther_frame s).pending
@[simp] theorem lastBadOther_boot (s : State) : (lastBadOther s).boot = s.boot :=
  (lastBadOther_frame s).boot.resolve_left (by decide)
@[simp] theorem lastBadOther_mem (s : State) : (lastBadOther s).mem = s.mem := by
  have h := lastBadOther_frame s 
  have h1 := h.devMem.resolve_left (by decide)
  have h2 := h.staging.resolve_left (by decide)
  have h3 := h.scratchpad.resolve_left (by decide)
  have h4 := h.banks.resolve_left (by decide)
  exact Mems.ext_parts h1 h2 h3 h4
@[simp] theorem lastBadOther_sets (s : State) : (lastBadOther s).sets = s.sets :=
  (lastBadOther_frame s).sets.resolve_left (by decide)
@[simp] theorem lastBadOther_roots (s : State) : (lastBadOther s).roots = s.roots :=
  (lastBadOther_frame s).roots.resolve_left (by decide)
@[simp] theorem lastBadOther_pairs (s : State) : (lastBadOther s).pairs = s.pairs :=
  (lastBadOther_frame s).pairs.resolve_left (by decide)
@[simp] theorem lastBadOther_slots (s : State) : (lastBadOther s).slots = s.slots :=
  (lastBadOther_frame s).slots.resolve_left (by decide)
@[simp] theorem lastBadOther_cmds (s : State) : (lastBadOther s).cmds = s.cmds :=
  (lastBadOther_frame s).cmds.resolve_left (by decide)
@[simp] theorem lastBadOther_seq (s : State) : (lastBadOther s).seq = s.seq :=
  (lastBadOther_frame s).seq.resolve_left (by decide)
@[simp] theorem lastBadOther_arbs (s : State) : (lastBadOther s).arbs = s.arbs :=
  (lastBadOther_frame s).arbs.resolve_left (by decide)
@[simp] theorem lastBadOther_txa (s : State) : (lastBadOther s).txa = s.txa :=
  (lastBadOther_frame s).txa.resolve_left (by decide)
@[simp] theorem lastBadOther_forge (s : State) : (lastBadOther s).forge = s.forge :=
  (lastBadOther_frame s).forge.resolve_left (by decide)
@[simp] theorem lastBadOther_sdx (s : State) : (lastBadOther s).sdx = s.sdx :=
  (lastBadOther_frame s).sdx.resolve_left (by decide)
@[simp] theorem lastBadOther_rsv (s : State) : (lastBadOther s).rsv = s.rsv :=
  (lastBadOther_frame s).rsv.resolve_left (by decide)
@[simp] theorem lastBadOther_mdc (s : State) : (lastBadOther s).mdc = s.mdc :=
  (lastBadOther_frame s).mdc.resolve_left (by decide)
@[simp] theorem lastBadOther_tok (s : State) : (lastBadOther s).tok = s.tok :=
  (lastBadOther_frame s).tok.resolve_left (by decide)
@[simp] theorem lastBadOther_bat (s : State) : (lastBadOther s).bat = s.bat :=
  (lastBadOther_frame s).bat.resolve_left (by decide)
@[simp] theorem lastBadOther_pools (s : State) : (lastBadOther s).pools = s.pools :=
  (lastBadOther_frame s).pools.resolve_left (by decide)
@[simp] theorem lastBadOther_dlv (s : State) : (lastBadOther s).dlv = s.dlv :=
  (lastBadOther_frame s).dlv.resolve_left (by decide)
@[simp] theorem lastBadOther_net (s : State) : (lastBadOther s).net = s.net :=
  (lastBadOther_frame s).net.resolve_left (by decide)
@[simp] theorem lastBadOther_fed (s : State) : (lastBadOther s).fed = s.fed :=
  (lastBadOther_frame s).fed.resolve_left (by decide)
@[simp] theorem lastBadOther_dict (s : State) : (lastBadOther s).dict = s.dict :=
  (lastBadOther_frame s).dict.resolve_left (by decide)
@[simp] theorem lastBadOther_pins (s : State) : (lastBadOther s).pins = s.pins :=
  (lastBadOther_frame s).pins.resolve_left (by decide)
@[simp] theorem lastBadOther_evt (s : State) : (lastBadOther s).evt = s.evt :=
  (lastBadOther_frame s).evt.resolve_left (by decide)
@[simp] theorem lastBadOther_ras (s : State) : (lastBadOther s).ras = s.ras :=
  (lastBadOther_frame s).ras.resolve_left (by decide)
@[simp] theorem lastBadOther_trace (s : State) : (lastBadOther s).trace = s.trace :=
  (lastBadOther_frame s).trace.resolve_left (by decide)
@[simp] theorem lastBadOther_tap (s : State) : (lastBadOther s).tap = s.tap :=
  (lastBadOther_frame s).tap.resolve_left (by decide)
@[simp] theorem lastBadOther_removal (s : State) : (lastBadOther s).removal = s.removal :=
  (lastBadOther_frame s).removal.resolve_left (by decide)
/-- An object that is no tally keeps its value. -/
theorem objGet_lastBadOther (s : State)  {ix sx : Nat} (h : keyPart (objKey ix sx) = .objects) : objGet (lastBadOther s) ix sx = objGet s ix sx :=
  ((lastBadOther_frame s).objs (objKey ix sx)).resolve_left (by rw [h]; decide)
@[simp] theorem slotOf_lastBadOther (s : State) (j : Nat) : slotOf (lastBadOther s) j = slotOf s j := by
  simp only [slotOf, lastBadOther_slots]
@[simp] theorem pairOf_lastBadOther (s : State) (j : Nat) : pairOf (lastBadOther s) j = pairOf s j := by
  simp only [pairOf, lastBadOther_pairs]
@[simp] theorem poolOf_lastBadOther (s : State) (j : Nat) : poolOf (lastBadOther s) j = poolOf s j := by
  simp only [poolOf, lastBadOther_pools]
@[simp] theorem portOf_lastBadOther (s : State) (j : Nat) : portOf (lastBadOther s) j = portOf s j := by
  simp only [portOf, lastBadOther_net]
@[simp] theorem mailboxOf_lastBadOther (s : State) (j : Nat) : mailboxOf (lastBadOther s) j = mailboxOf s j := by
  simp only [mailboxOf, lastBadOther_dict]
@[simp] theorem dieId_lastBadOther (s : State) : dieId (lastBadOther s)  = dieId s := by
  simp only [dieId, lastBadOther_boot]
@[simp] theorem headCountClosed_lastBadOther (s : State) : headCountClosed (lastBadOther s)  = headCountClosed s := by
  simp only [headCountClosed, lastBadOther_fed]
@[simp] theorem otherDies_lastBadOther (s : State) : otherDies (lastBadOther s)  = otherDies s := by
  simp only [otherDies, dieAdmitted, dieId, headCountClosed, lastBadOther_boot, lastBadOther_fed]
@[simp] theorem srcOf_lastBadOther (s : State) (j : Nat) : srcOf (lastBadOther s) j = srcOf s j := by
  simp only [srcOf, lastBadOther_evt]
@[simp] theorem coreOf_lastBadOther (s : State) (j : Nat) : coreOf (lastBadOther s) j = coreOf s j := by
  simp only [coreOf, lastBadOther_evt]
@[simp] theorem grpOf_lastBadOther (s : State) (j : Nat) : grpOf (lastBadOther s) j = grpOf s j := by
  simp only [grpOf, lastBadOther_evt]
@[simp] theorem bankOf_lastBadOther (s : State) (j : Nat) : bankOf (lastBadOther s) j = bankOf s j := by
  simp only [bankOf, lastBadOther_dlv]
@[simp] theorem qpOf_lastBadOther (s : State) (j : Nat) : qpOf (lastBadOther s) j = qpOf s j := by
  simp only [qpOf, lastBadOther_net]
@[simp] theorem lrOf_lastBadOther (s : State) (j : Nat) : lrOf (lastBadOther s) j = lrOf s j := by
  simp only [lrOf, lastBadOther_net]
@[simp] theorem setOf_lastBadOther (s : State) (j : Nat) : setOf (lastBadOther s) j = setOf s j := by
  simp only [setOf, lastBadOther_sets]
@[simp] theorem ctxOf_lastBadOther (s : State) (j : Nat) : ctxOf (lastBadOther s) j = ctxOf s j := by
  simp only [ctxOf, lastBadOther_mdc]
@[simp] theorem memPoisoned_lastBadOther (s : State) (a j : Nat) : memPoisoned (lastBadOther s) a j = memPoisoned s a j :=
  memPoisoned_congr (lastBadOther_mem s) a j
@[simp] theorem memBytes_lastBadOther (s : State) (a j : Nat) : memBytes (lastBadOther s) a j = memBytes s a j := by
  simp only [memBytes, lastBadOther_mem]
@[simp] theorem memNat_lastBadOther (s : State) (a j : Nat) : memNat (lastBadOther s) a j = memNat s a j := by
  simp only [memNat, lastBadOther_mem]
@[simp] theorem slotBusy_lastBadOther (s : State) (j : Nat) : slotBusy (lastBadOther s) j = slotBusy s j := by
  simp only [slotBusy, slotOf_lastBadOther]
@[simp] theorem unitsWork_lastBadOther (s : State) : unitsWork (lastBadOther s)  = unitsWork s := by
  simp only [unitsWork, lastBadOther_boot]
@[simp] theorem dieAdmitted_lastBadOther (s : State) (j : Nat) : dieAdmitted (lastBadOther s) j = dieAdmitted s j := by
  simp only [dieAdmitted, headCountClosed, lastBadOther_fed]

/-! ## arriving -/

theorem arriving_frame (s : State) (via : Via) (o u : Nat) (b : List Byte) : Changes (fun x => ([.tallies, .dict, .trace] : List Part).contains x) s (arriving s via o u b) :=
  traceRec_changes _ _ _ _ _ _ _ (startWrite_changes s via o u b (Changes.refl _ s) rfl rfl) rfl rfl

@[simp] theorem arriving_pending (s : State) (via : Via) (o u : Nat) (b : List Byte) : (arriving s via o u b).pending = s.pending := (arriving_frame s via o u b).pending
@[simp] theorem arriving_drawn (s : State) (via : Via) (o u : Nat) (b : List Byte) : (arriving s via o u b).drawn = s.drawn :=
  (arriving_frame s via o u b).drawn.resolve_left (by decide)
@[simp] theorem arriving_boot (s : State) (via : Via) (o u : Nat) (b : List Byte) : (arriving s via o u b).boot = s.boot :=
  (arriving_frame s via o u b).boot.resolve_left (by decide)
@[simp] theorem arriving_mem (s : State) (via : Via) (o u : Nat) (b : List Byte) : (arriving s via o u b).mem = s.mem := by
  have h := arriving_frame s via o u b
  have h1 := h.devMem.resolve_left (by decide)
  have h2 := h.staging.resolve_left (by decide)
  have h3 := h.scratchpad.resolve_left (by decide)
  have h4 := h.banks.resolve_left (by decide)
  exact Mems.ext_parts h1 h2 h3 h4
@[simp] theorem arriving_sets (s : State) (via : Via) (o u : Nat) (b : List Byte) : (arriving s via o u b).sets = s.sets :=
  (arriving_frame s via o u b).sets.resolve_left (by decide)
@[simp] theorem arriving_roots (s : State) (via : Via) (o u : Nat) (b : List Byte) : (arriving s via o u b).roots = s.roots :=
  (arriving_frame s via o u b).roots.resolve_left (by decide)
@[simp] theorem arriving_pairs (s : State) (via : Via) (o u : Nat) (b : List Byte) : (arriving s via o u b).pairs = s.pairs :=
  (arriving_frame s via o u b).pairs.resolve_left (by decide)
@[simp] theorem arriving_slots (s : State) (via : Via) (o u : Nat) (b : List Byte) : (arriving s via o u b).slots = s.slots :=
  (arriving_frame s via o u b).slots.resolve_left (by decide)
@[simp] theorem arriving_cmds (s : State) (via : Via) (o u : Nat) (b : List Byte) : (arriving s via o u b).cmds = s.cmds :=
  (arriving_frame s via o u b).cmds.resolve_left (by decide)
@[simp] theorem arriving_seq (s : State) (via : Via) (o u : Nat) (b : List Byte) : (arriving s via o u b).seq = s.seq :=
  (arriving_frame s via o u b).seq.resolve_left (by decide)
@[simp] theorem arriving_arbs (s : State) (via : Via) (o u : Nat) (b : List Byte) : (arriving s via o u b).arbs = s.arbs :=
  (arriving_frame s via o u b).arbs.resolve_left (by decide)
@[simp] theorem arriving_txa (s : State) (via : Via) (o u : Nat) (b : List Byte) : (arriving s via o u b).txa = s.txa :=
  (arriving_frame s via o u b).txa.resolve_left (by decide)
@[simp] theorem arriving_forge (s : State) (via : Via) (o u : Nat) (b : List Byte) : (arriving s via o u b).forge = s.forge :=
  (arriving_frame s via o u b).forge.resolve_left (by decide)
@[simp] theorem arriving_sdx (s : State) (via : Via) (o u : Nat) (b : List Byte) : (arriving s via o u b).sdx = s.sdx :=
  (arriving_frame s via o u b).sdx.resolve_left (by decide)
@[simp] theorem arriving_rsv (s : State) (via : Via) (o u : Nat) (b : List Byte) : (arriving s via o u b).rsv = s.rsv :=
  (arriving_frame s via o u b).rsv.resolve_left (by decide)
@[simp] theorem arriving_mdc (s : State) (via : Via) (o u : Nat) (b : List Byte) : (arriving s via o u b).mdc = s.mdc :=
  (arriving_frame s via o u b).mdc.resolve_left (by decide)
@[simp] theorem arriving_tok (s : State) (via : Via) (o u : Nat) (b : List Byte) : (arriving s via o u b).tok = s.tok :=
  (arriving_frame s via o u b).tok.resolve_left (by decide)
@[simp] theorem arriving_bat (s : State) (via : Via) (o u : Nat) (b : List Byte) : (arriving s via o u b).bat = s.bat :=
  (arriving_frame s via o u b).bat.resolve_left (by decide)
@[simp] theorem arriving_pools (s : State) (via : Via) (o u : Nat) (b : List Byte) : (arriving s via o u b).pools = s.pools :=
  (arriving_frame s via o u b).pools.resolve_left (by decide)
@[simp] theorem arriving_dlv (s : State) (via : Via) (o u : Nat) (b : List Byte) : (arriving s via o u b).dlv = s.dlv :=
  (arriving_frame s via o u b).dlv.resolve_left (by decide)
@[simp] theorem arriving_net (s : State) (via : Via) (o u : Nat) (b : List Byte) : (arriving s via o u b).net = s.net :=
  (arriving_frame s via o u b).net.resolve_left (by decide)
@[simp] theorem arriving_fed (s : State) (via : Via) (o u : Nat) (b : List Byte) : (arriving s via o u b).fed = s.fed :=
  (arriving_frame s via o u b).fed.resolve_left (by decide)
@[simp] theorem arriving_pins (s : State) (via : Via) (o u : Nat) (b : List Byte) : (arriving s via o u b).pins = s.pins :=
  (arriving_frame s via o u b).pins.resolve_left (by decide)
@[simp] theorem arriving_evt (s : State) (via : Via) (o u : Nat) (b : List Byte) : (arriving s via o u b).evt = s.evt :=
  (arriving_frame s via o u b).evt.resolve_left (by decide)
@[simp] theorem arriving_ras (s : State) (via : Via) (o u : Nat) (b : List Byte) : (arriving s via o u b).ras = s.ras :=
  (arriving_frame s via o u b).ras.resolve_left (by decide)
@[simp] theorem arriving_tap (s : State) (via : Via) (o u : Nat) (b : List Byte) : (arriving s via o u b).tap = s.tap :=
  (arriving_frame s via o u b).tap.resolve_left (by decide)
@[simp] theorem arriving_removal (s : State) (via : Via) (o u : Nat) (b : List Byte) : (arriving s via o u b).removal = s.removal :=
  (arriving_frame s via o u b).removal.resolve_left (by decide)
/-- An object that is no tally keeps its value. -/
theorem objGet_arriving (s : State) (via : Via) (o u : Nat) (b : List Byte) {ix sx : Nat} (h : keyPart (objKey ix sx) = .objects) : objGet (arriving s via o u b) ix sx = objGet s ix sx :=
  ((arriving_frame s via o u b).objs (objKey ix sx)).resolve_left (by rw [h]; decide)
@[simp] theorem slotOf_arriving (s : State) (via : Via) (o u : Nat) (b : List Byte) (j : Nat) : slotOf (arriving s via o u b) j = slotOf s j := by
  simp only [slotOf, arriving_slots]
@[simp] theorem pairOf_arriving (s : State) (via : Via) (o u : Nat) (b : List Byte) (j : Nat) : pairOf (arriving s via o u b) j = pairOf s j := by
  simp only [pairOf, arriving_pairs]
@[simp] theorem poolOf_arriving (s : State) (via : Via) (o u : Nat) (b : List Byte) (j : Nat) : poolOf (arriving s via o u b) j = poolOf s j := by
  simp only [poolOf, arriving_pools]
@[simp] theorem portOf_arriving (s : State) (via : Via) (o u : Nat) (b : List Byte) (j : Nat) : portOf (arriving s via o u b) j = portOf s j := by
  simp only [portOf, arriving_net]
@[simp] theorem dieId_arriving (s : State) (via : Via) (o u : Nat) (b : List Byte) : dieId (arriving s via o u b)  = dieId s := by
  simp only [dieId, arriving_boot]
@[simp] theorem headCountClosed_arriving (s : State) (via : Via) (o u : Nat) (b : List Byte) : headCountClosed (arriving s via o u b)  = headCountClosed s := by
  simp only [headCountClosed, arriving_fed]
@[simp] theorem otherDies_arriving (s : State) (via : Via) (o u : Nat) (b : List Byte) : otherDies (arriving s via o u b)  = otherDies s := by
  simp only [otherDies, dieAdmitted, dieId, headCountClosed, arriving_boot, arriving_fed]
@[simp] theorem srcOf_arriving (s : State) (via : Via) (o u : Nat) (b : List Byte) (j : Nat) : srcOf (arriving s via o u b) j = srcOf s j := by
  simp only [srcOf, arriving_evt]
@[simp] theorem coreOf_arriving (s : State) (via : Via) (o u : Nat) (b : List Byte) (j : Nat) : coreOf (arriving s via o u b) j = coreOf s j := by
  simp only [coreOf, arriving_evt]
@[simp] theorem grpOf_arriving (s : State) (via : Via) (o u : Nat) (b : List Byte) (j : Nat) : grpOf (arriving s via o u b) j = grpOf s j := by
  simp only [grpOf, arriving_evt]
@[simp] theorem bankOf_arriving (s : State) (via : Via) (o u : Nat) (b : List Byte) (j : Nat) : bankOf (arriving s via o u b) j = bankOf s j := by
  simp only [bankOf, arriving_dlv]
@[simp] theorem qpOf_arriving (s : State) (via : Via) (o u : Nat) (b : List Byte) (j : Nat) : qpOf (arriving s via o u b) j = qpOf s j := by
  simp only [qpOf, arriving_net]
@[simp] theorem lrOf_arriving (s : State) (via : Via) (o u : Nat) (b : List Byte) (j : Nat) : lrOf (arriving s via o u b) j = lrOf s j := by
  simp only [lrOf, arriving_net]
@[simp] theorem setOf_arriving (s : State) (via : Via) (o u : Nat) (b : List Byte) (j : Nat) : setOf (arriving s via o u b) j = setOf s j := by
  simp only [setOf, arriving_sets]
@[simp] theorem ctxOf_arriving (s : State) (via : Via) (o u : Nat) (b : List Byte) (j : Nat) : ctxOf (arriving s via o u b) j = ctxOf s j := by
  simp only [ctxOf, arriving_mdc]
@[simp] theorem memPoisoned_arriving (s : State) (via : Via) (o u : Nat) (b : List Byte) (a j : Nat) : memPoisoned (arriving s via o u b) a j = memPoisoned s a j :=
  memPoisoned_congr (arriving_mem s via o u b) a j
@[simp] theorem memBytes_arriving (s : State) (via : Via) (o u : Nat) (b : List Byte) (a j : Nat) : memBytes (arriving s via o u b) a j = memBytes s a j := by
  simp only [memBytes, arriving_mem]
@[simp] theorem memNat_arriving (s : State) (via : Via) (o u : Nat) (b : List Byte) (a j : Nat) : memNat (arriving s via o u b) a j = memNat s a j := by
  simp only [memNat, arriving_mem]
@[simp] theorem slotBusy_arriving (s : State) (via : Via) (o u : Nat) (b : List Byte) (j : Nat) : slotBusy (arriving s via o u b) j = slotBusy s j := by
  simp only [slotBusy, slotOf_arriving]
@[simp] theorem unitsWork_arriving (s : State) (via : Via) (o u : Nat) (b : List Byte) : unitsWork (arriving s via o u b)  = unitsWork s := by
  simp only [unitsWork, arriving_boot]
@[simp] theorem dieAdmitted_arriving (s : State) (via : Via) (o u : Nat) (b : List Byte) (j : Nat) : dieAdmitted (arriving s via o u b) j = dieAdmitted s j := by
  simp only [dieAdmitted, headCountClosed, arriving_fed]

/-! ## dictDone -/

theorem dictDone_frame (s : State) (via : Via) : Changes (fun x => ([.tallies, .dict] : List Part).contains x) s (dictDone s via) :=
  dictDone_changes s via (Changes.refl _ s) rfl rfl

@[simp] theorem dictDone_pending (s : State) (via : Via) : (dictDone s via).pending = s.pending := (dictDone_frame s via).pending
@[simp] theorem dictDone_drawn (s : State) (via : Via) : (dictDone s via).drawn = s.drawn :=
  (dictDone_frame s via).drawn.resolve_left (by decide)
@[simp] theorem dictDone_boot (s : State) (via : Via) : (dictDone s via).boot = s.boot :=
  (dictDone_frame s via).boot.resolve_left (by decide)
@[simp] theorem dictDone_mem (s : State) (via : Via) : (dictDone s via).mem = s.mem := by
  have h := dictDone_frame s via
  have h1 := h.devMem.resolve_left (by decide)
  have h2 := h.staging.resolve_left (by decide)
  have h3 := h.scratchpad.resolve_left (by decide)
  have h4 := h.banks.resolve_left (by decide)
  exact Mems.ext_parts h1 h2 h3 h4
@[simp] theorem dictDone_sets (s : State) (via : Via) : (dictDone s via).sets = s.sets :=
  (dictDone_frame s via).sets.resolve_left (by decide)
@[simp] theorem dictDone_roots (s : State) (via : Via) : (dictDone s via).roots = s.roots :=
  (dictDone_frame s via).roots.resolve_left (by decide)
@[simp] theorem dictDone_pairs (s : State) (via : Via) : (dictDone s via).pairs = s.pairs :=
  (dictDone_frame s via).pairs.resolve_left (by decide)
@[simp] theorem dictDone_slots (s : State) (via : Via) : (dictDone s via).slots = s.slots :=
  (dictDone_frame s via).slots.resolve_left (by decide)
@[simp] theorem dictDone_cmds (s : State) (via : Via) : (dictDone s via).cmds = s.cmds :=
  (dictDone_frame s via).cmds.resolve_left (by decide)
@[simp] theorem dictDone_seq (s : State) (via : Via) : (dictDone s via).seq = s.seq :=
  (dictDone_frame s via).seq.resolve_left (by decide)
@[simp] theorem dictDone_arbs (s : State) (via : Via) : (dictDone s via).arbs = s.arbs :=
  (dictDone_frame s via).arbs.resolve_left (by decide)
@[simp] theorem dictDone_txa (s : State) (via : Via) : (dictDone s via).txa = s.txa :=
  (dictDone_frame s via).txa.resolve_left (by decide)
@[simp] theorem dictDone_forge (s : State) (via : Via) : (dictDone s via).forge = s.forge :=
  (dictDone_frame s via).forge.resolve_left (by decide)
@[simp] theorem dictDone_sdx (s : State) (via : Via) : (dictDone s via).sdx = s.sdx :=
  (dictDone_frame s via).sdx.resolve_left (by decide)
@[simp] theorem dictDone_rsv (s : State) (via : Via) : (dictDone s via).rsv = s.rsv :=
  (dictDone_frame s via).rsv.resolve_left (by decide)
@[simp] theorem dictDone_mdc (s : State) (via : Via) : (dictDone s via).mdc = s.mdc :=
  (dictDone_frame s via).mdc.resolve_left (by decide)
@[simp] theorem dictDone_tok (s : State) (via : Via) : (dictDone s via).tok = s.tok :=
  (dictDone_frame s via).tok.resolve_left (by decide)
@[simp] theorem dictDone_bat (s : State) (via : Via) : (dictDone s via).bat = s.bat :=
  (dictDone_frame s via).bat.resolve_left (by decide)
@[simp] theorem dictDone_pools (s : State) (via : Via) : (dictDone s via).pools = s.pools :=
  (dictDone_frame s via).pools.resolve_left (by decide)
@[simp] theorem dictDone_dlv (s : State) (via : Via) : (dictDone s via).dlv = s.dlv :=
  (dictDone_frame s via).dlv.resolve_left (by decide)
@[simp] theorem dictDone_net (s : State) (via : Via) : (dictDone s via).net = s.net :=
  (dictDone_frame s via).net.resolve_left (by decide)
@[simp] theorem dictDone_fed (s : State) (via : Via) : (dictDone s via).fed = s.fed :=
  (dictDone_frame s via).fed.resolve_left (by decide)
@[simp] theorem dictDone_pins (s : State) (via : Via) : (dictDone s via).pins = s.pins :=
  (dictDone_frame s via).pins.resolve_left (by decide)
@[simp] theorem dictDone_evt (s : State) (via : Via) : (dictDone s via).evt = s.evt :=
  (dictDone_frame s via).evt.resolve_left (by decide)
@[simp] theorem dictDone_ras (s : State) (via : Via) : (dictDone s via).ras = s.ras :=
  (dictDone_frame s via).ras.resolve_left (by decide)
@[simp] theorem dictDone_trace (s : State) (via : Via) : (dictDone s via).trace = s.trace :=
  (dictDone_frame s via).trace.resolve_left (by decide)
@[simp] theorem dictDone_tap (s : State) (via : Via) : (dictDone s via).tap = s.tap :=
  (dictDone_frame s via).tap.resolve_left (by decide)
@[simp] theorem dictDone_removal (s : State) (via : Via) : (dictDone s via).removal = s.removal :=
  (dictDone_frame s via).removal.resolve_left (by decide)
/-- An object that is no tally keeps its value. -/
theorem objGet_dictDone (s : State) (via : Via) {ix sx : Nat} (h : keyPart (objKey ix sx) = .objects) : objGet (dictDone s via) ix sx = objGet s ix sx :=
  ((dictDone_frame s via).objs (objKey ix sx)).resolve_left (by rw [h]; decide)
@[simp] theorem slotOf_dictDone (s : State) (via : Via) (j : Nat) : slotOf (dictDone s via) j = slotOf s j := by
  simp only [slotOf, dictDone_slots]
@[simp] theorem pairOf_dictDone (s : State) (via : Via) (j : Nat) : pairOf (dictDone s via) j = pairOf s j := by
  simp only [pairOf, dictDone_pairs]
@[simp] theorem poolOf_dictDone (s : State) (via : Via) (j : Nat) : poolOf (dictDone s via) j = poolOf s j := by
  simp only [poolOf, dictDone_pools]
@[simp] theorem portOf_dictDone (s : State) (via : Via) (j : Nat) : portOf (dictDone s via) j = portOf s j := by
  simp only [portOf, dictDone_net]
@[simp] theorem dieId_dictDone (s : State) (via : Via) : dieId (dictDone s via)  = dieId s := by
  simp only [dieId, dictDone_boot]
@[simp] theorem headCountClosed_dictDone (s : State) (via : Via) : headCountClosed (dictDone s via)  = headCountClosed s := by
  simp only [headCountClosed, dictDone_fed]
@[simp] theorem otherDies_dictDone (s : State) (via : Via) : otherDies (dictDone s via)  = otherDies s := by
  simp only [otherDies, dieAdmitted, dieId, headCountClosed, dictDone_boot, dictDone_fed]
@[simp] theorem srcOf_dictDone (s : State) (via : Via) (j : Nat) : srcOf (dictDone s via) j = srcOf s j := by
  simp only [srcOf, dictDone_evt]
@[simp] theorem coreOf_dictDone (s : State) (via : Via) (j : Nat) : coreOf (dictDone s via) j = coreOf s j := by
  simp only [coreOf, dictDone_evt]
@[simp] theorem grpOf_dictDone (s : State) (via : Via) (j : Nat) : grpOf (dictDone s via) j = grpOf s j := by
  simp only [grpOf, dictDone_evt]
@[simp] theorem bankOf_dictDone (s : State) (via : Via) (j : Nat) : bankOf (dictDone s via) j = bankOf s j := by
  simp only [bankOf, dictDone_dlv]
@[simp] theorem qpOf_dictDone (s : State) (via : Via) (j : Nat) : qpOf (dictDone s via) j = qpOf s j := by
  simp only [qpOf, dictDone_net]
@[simp] theorem lrOf_dictDone (s : State) (via : Via) (j : Nat) : lrOf (dictDone s via) j = lrOf s j := by
  simp only [lrOf, dictDone_net]
@[simp] theorem setOf_dictDone (s : State) (via : Via) (j : Nat) : setOf (dictDone s via) j = setOf s j := by
  simp only [setOf, dictDone_sets]
@[simp] theorem ctxOf_dictDone (s : State) (via : Via) (j : Nat) : ctxOf (dictDone s via) j = ctxOf s j := by
  simp only [ctxOf, dictDone_mdc]
@[simp] theorem memPoisoned_dictDone (s : State) (via : Via) (a j : Nat) : memPoisoned (dictDone s via) a j = memPoisoned s a j :=
  memPoisoned_congr (dictDone_mem s via) a j
@[simp] theorem memBytes_dictDone (s : State) (via : Via) (a j : Nat) : memBytes (dictDone s via) a j = memBytes s a j := by
  simp only [memBytes, dictDone_mem]
@[simp] theorem memNat_dictDone (s : State) (via : Via) (a j : Nat) : memNat (dictDone s via) a j = memNat s a j := by
  simp only [memNat, dictDone_mem]
@[simp] theorem slotBusy_dictDone (s : State) (via : Via) (j : Nat) : slotBusy (dictDone s via) j = slotBusy s j := by
  simp only [slotBusy, slotOf_dictDone]
@[simp] theorem unitsWork_dictDone (s : State) (via : Via) : unitsWork (dictDone s via)  = unitsWork s := by
  simp only [unitsWork, dictDone_boot]
@[simp] theorem dieAdmitted_dictDone (s : State) (via : Via) (j : Nat) : dieAdmitted (dictDone s via) j = dieAdmitted s j := by
  simp only [dieAdmitted, headCountClosed, dictDone_fed]

/-! ## dictAbort -/

theorem dictAbort_frame (s : State) (via : Via) (c : Nat) : Changes (fun x => ([.tallies, .dict] : List Part).contains x) s (dictAbort s via c) :=
  dictAbort_changes s via c (Changes.refl _ s) rfl rfl

@[simp] theorem dictAbort_pending (s : State) (via : Via) (c : Nat) : (dictAbort s via c).pending = s.pending := (dictAbort_frame s via c).pending
@[simp] theorem dictAbort_drawn (s : State) (via : Via) (c : Nat) : (dictAbort s via c).drawn = s.drawn :=
  (dictAbort_frame s via c).drawn.resolve_left (by decide)
@[simp] theorem dictAbort_boot (s : State) (via : Via) (c : Nat) : (dictAbort s via c).boot = s.boot :=
  (dictAbort_frame s via c).boot.resolve_left (by decide)
@[simp] theorem dictAbort_mem (s : State) (via : Via) (c : Nat) : (dictAbort s via c).mem = s.mem := by
  have h := dictAbort_frame s via c
  have h1 := h.devMem.resolve_left (by decide)
  have h2 := h.staging.resolve_left (by decide)
  have h3 := h.scratchpad.resolve_left (by decide)
  have h4 := h.banks.resolve_left (by decide)
  exact Mems.ext_parts h1 h2 h3 h4
@[simp] theorem dictAbort_sets (s : State) (via : Via) (c : Nat) : (dictAbort s via c).sets = s.sets :=
  (dictAbort_frame s via c).sets.resolve_left (by decide)
@[simp] theorem dictAbort_roots (s : State) (via : Via) (c : Nat) : (dictAbort s via c).roots = s.roots :=
  (dictAbort_frame s via c).roots.resolve_left (by decide)
@[simp] theorem dictAbort_pairs (s : State) (via : Via) (c : Nat) : (dictAbort s via c).pairs = s.pairs :=
  (dictAbort_frame s via c).pairs.resolve_left (by decide)
@[simp] theorem dictAbort_slots (s : State) (via : Via) (c : Nat) : (dictAbort s via c).slots = s.slots :=
  (dictAbort_frame s via c).slots.resolve_left (by decide)
@[simp] theorem dictAbort_cmds (s : State) (via : Via) (c : Nat) : (dictAbort s via c).cmds = s.cmds :=
  (dictAbort_frame s via c).cmds.resolve_left (by decide)
@[simp] theorem dictAbort_seq (s : State) (via : Via) (c : Nat) : (dictAbort s via c).seq = s.seq :=
  (dictAbort_frame s via c).seq.resolve_left (by decide)
@[simp] theorem dictAbort_arbs (s : State) (via : Via) (c : Nat) : (dictAbort s via c).arbs = s.arbs :=
  (dictAbort_frame s via c).arbs.resolve_left (by decide)
@[simp] theorem dictAbort_txa (s : State) (via : Via) (c : Nat) : (dictAbort s via c).txa = s.txa :=
  (dictAbort_frame s via c).txa.resolve_left (by decide)
@[simp] theorem dictAbort_forge (s : State) (via : Via) (c : Nat) : (dictAbort s via c).forge = s.forge :=
  (dictAbort_frame s via c).forge.resolve_left (by decide)
@[simp] theorem dictAbort_sdx (s : State) (via : Via) (c : Nat) : (dictAbort s via c).sdx = s.sdx :=
  (dictAbort_frame s via c).sdx.resolve_left (by decide)
@[simp] theorem dictAbort_rsv (s : State) (via : Via) (c : Nat) : (dictAbort s via c).rsv = s.rsv :=
  (dictAbort_frame s via c).rsv.resolve_left (by decide)
@[simp] theorem dictAbort_mdc (s : State) (via : Via) (c : Nat) : (dictAbort s via c).mdc = s.mdc :=
  (dictAbort_frame s via c).mdc.resolve_left (by decide)
@[simp] theorem dictAbort_tok (s : State) (via : Via) (c : Nat) : (dictAbort s via c).tok = s.tok :=
  (dictAbort_frame s via c).tok.resolve_left (by decide)
@[simp] theorem dictAbort_bat (s : State) (via : Via) (c : Nat) : (dictAbort s via c).bat = s.bat :=
  (dictAbort_frame s via c).bat.resolve_left (by decide)
@[simp] theorem dictAbort_pools (s : State) (via : Via) (c : Nat) : (dictAbort s via c).pools = s.pools :=
  (dictAbort_frame s via c).pools.resolve_left (by decide)
@[simp] theorem dictAbort_dlv (s : State) (via : Via) (c : Nat) : (dictAbort s via c).dlv = s.dlv :=
  (dictAbort_frame s via c).dlv.resolve_left (by decide)
@[simp] theorem dictAbort_net (s : State) (via : Via) (c : Nat) : (dictAbort s via c).net = s.net :=
  (dictAbort_frame s via c).net.resolve_left (by decide)
@[simp] theorem dictAbort_fed (s : State) (via : Via) (c : Nat) : (dictAbort s via c).fed = s.fed :=
  (dictAbort_frame s via c).fed.resolve_left (by decide)
@[simp] theorem dictAbort_pins (s : State) (via : Via) (c : Nat) : (dictAbort s via c).pins = s.pins :=
  (dictAbort_frame s via c).pins.resolve_left (by decide)
@[simp] theorem dictAbort_evt (s : State) (via : Via) (c : Nat) : (dictAbort s via c).evt = s.evt :=
  (dictAbort_frame s via c).evt.resolve_left (by decide)
@[simp] theorem dictAbort_ras (s : State) (via : Via) (c : Nat) : (dictAbort s via c).ras = s.ras :=
  (dictAbort_frame s via c).ras.resolve_left (by decide)
@[simp] theorem dictAbort_trace (s : State) (via : Via) (c : Nat) : (dictAbort s via c).trace = s.trace :=
  (dictAbort_frame s via c).trace.resolve_left (by decide)
@[simp] theorem dictAbort_tap (s : State) (via : Via) (c : Nat) : (dictAbort s via c).tap = s.tap :=
  (dictAbort_frame s via c).tap.resolve_left (by decide)
@[simp] theorem dictAbort_removal (s : State) (via : Via) (c : Nat) : (dictAbort s via c).removal = s.removal :=
  (dictAbort_frame s via c).removal.resolve_left (by decide)
/-- An object that is no tally keeps its value. -/
theorem objGet_dictAbort (s : State) (via : Via) (c : Nat) {ix sx : Nat} (h : keyPart (objKey ix sx) = .objects) : objGet (dictAbort s via c) ix sx = objGet s ix sx :=
  ((dictAbort_frame s via c).objs (objKey ix sx)).resolve_left (by rw [h]; decide)
@[simp] theorem slotOf_dictAbort (s : State) (via : Via) (c : Nat) (j : Nat) : slotOf (dictAbort s via c) j = slotOf s j := by
  simp only [slotOf, dictAbort_slots]
@[simp] theorem pairOf_dictAbort (s : State) (via : Via) (c : Nat) (j : Nat) : pairOf (dictAbort s via c) j = pairOf s j := by
  simp only [pairOf, dictAbort_pairs]
@[simp] theorem poolOf_dictAbort (s : State) (via : Via) (c : Nat) (j : Nat) : poolOf (dictAbort s via c) j = poolOf s j := by
  simp only [poolOf, dictAbort_pools]
@[simp] theorem portOf_dictAbort (s : State) (via : Via) (c : Nat) (j : Nat) : portOf (dictAbort s via c) j = portOf s j := by
  simp only [portOf, dictAbort_net]
@[simp] theorem dieId_dictAbort (s : State) (via : Via) (c : Nat) : dieId (dictAbort s via c)  = dieId s := by
  simp only [dieId, dictAbort_boot]
@[simp] theorem headCountClosed_dictAbort (s : State) (via : Via) (c : Nat) : headCountClosed (dictAbort s via c)  = headCountClosed s := by
  simp only [headCountClosed, dictAbort_fed]
@[simp] theorem otherDies_dictAbort (s : State) (via : Via) (c : Nat) : otherDies (dictAbort s via c)  = otherDies s := by
  simp only [otherDies, dieAdmitted, dieId, headCountClosed, dictAbort_boot, dictAbort_fed]
@[simp] theorem srcOf_dictAbort (s : State) (via : Via) (c : Nat) (j : Nat) : srcOf (dictAbort s via c) j = srcOf s j := by
  simp only [srcOf, dictAbort_evt]
@[simp] theorem coreOf_dictAbort (s : State) (via : Via) (c : Nat) (j : Nat) : coreOf (dictAbort s via c) j = coreOf s j := by
  simp only [coreOf, dictAbort_evt]
@[simp] theorem grpOf_dictAbort (s : State) (via : Via) (c : Nat) (j : Nat) : grpOf (dictAbort s via c) j = grpOf s j := by
  simp only [grpOf, dictAbort_evt]
@[simp] theorem bankOf_dictAbort (s : State) (via : Via) (c : Nat) (j : Nat) : bankOf (dictAbort s via c) j = bankOf s j := by
  simp only [bankOf, dictAbort_dlv]
@[simp] theorem qpOf_dictAbort (s : State) (via : Via) (c : Nat) (j : Nat) : qpOf (dictAbort s via c) j = qpOf s j := by
  simp only [qpOf, dictAbort_net]
@[simp] theorem lrOf_dictAbort (s : State) (via : Via) (c : Nat) (j : Nat) : lrOf (dictAbort s via c) j = lrOf s j := by
  simp only [lrOf, dictAbort_net]
@[simp] theorem setOf_dictAbort (s : State) (via : Via) (c : Nat) (j : Nat) : setOf (dictAbort s via c) j = setOf s j := by
  simp only [setOf, dictAbort_sets]
@[simp] theorem ctxOf_dictAbort (s : State) (via : Via) (c : Nat) (j : Nat) : ctxOf (dictAbort s via c) j = ctxOf s j := by
  simp only [ctxOf, dictAbort_mdc]
@[simp] theorem memPoisoned_dictAbort (s : State) (via : Via) (c : Nat) (a j : Nat) : memPoisoned (dictAbort s via c) a j = memPoisoned s a j :=
  memPoisoned_congr (dictAbort_mem s via c) a j
@[simp] theorem memBytes_dictAbort (s : State) (via : Via) (c : Nat) (a j : Nat) : memBytes (dictAbort s via c) a j = memBytes s a j := by
  simp only [memBytes, dictAbort_mem]
@[simp] theorem memNat_dictAbort (s : State) (via : Via) (c : Nat) (a j : Nat) : memNat (dictAbort s via c) a j = memNat s a j := by
  simp only [memNat, dictAbort_mem]
@[simp] theorem slotBusy_dictAbort (s : State) (via : Via) (c : Nat) (j : Nat) : slotBusy (dictAbort s via c) j = slotBusy s j := by
  simp only [slotBusy, slotOf_dictAbort]
@[simp] theorem unitsWork_dictAbort (s : State) (via : Via) (c : Nat) : unitsWork (dictAbort s via c)  = unitsWork s := by
  simp only [unitsWork, dictAbort_boot]
@[simp] theorem dieAdmitted_dictAbort (s : State) (via : Via) (c : Nat) (j : Nat) : dieAdmitted (dictAbort s via c) j = dieAdmitted s j := by
  simp only [dieAdmitted, headCountClosed, dictAbort_fed]

/-! ## packageDone -/

theorem packageDone_frame (s : State) (via : Via) (o u : Nat) (b : List Byte) : Changes (fun x => ([.tallies, .fed, .dict] : List Part).contains x) s (packageDone s via o u b) :=
  packageDone_changes s via o u b (Changes.refl _ s) rfl rfl rfl

@[simp] theorem packageDone_pending (s : State) (via : Via) (o u : Nat) (b : List Byte) : (packageDone s via o u b).pending = s.pending := (packageDone_frame s via o u b).pending
@[simp] theorem packageDone_drawn (s : State) (via : Via) (o u : Nat) (b : List Byte) : (packageDone s via o u b).drawn = s.drawn :=
  (packageDone_frame s via o u b).drawn.resolve_left (by decide)
@[simp] theorem packageDone_boot (s : State) (via : Via) (o u : Nat) (b : List Byte) : (packageDone s via o u b).boot = s.boot :=
  (packageDone_frame s via o u b).boot.resolve_left (by decide)
@[simp] theorem packageDone_mem (s : State) (via : Via) (o u : Nat) (b : List Byte) : (packageDone s via o u b).mem = s.mem := by
  have h := packageDone_frame s via o u b
  have h1 := h.devMem.resolve_left (by decide)
  have h2 := h.staging.resolve_left (by decide)
  have h3 := h.scratchpad.resolve_left (by decide)
  have h4 := h.banks.resolve_left (by decide)
  exact Mems.ext_parts h1 h2 h3 h4
@[simp] theorem packageDone_sets (s : State) (via : Via) (o u : Nat) (b : List Byte) : (packageDone s via o u b).sets = s.sets :=
  (packageDone_frame s via o u b).sets.resolve_left (by decide)
@[simp] theorem packageDone_roots (s : State) (via : Via) (o u : Nat) (b : List Byte) : (packageDone s via o u b).roots = s.roots :=
  (packageDone_frame s via o u b).roots.resolve_left (by decide)
@[simp] theorem packageDone_pairs (s : State) (via : Via) (o u : Nat) (b : List Byte) : (packageDone s via o u b).pairs = s.pairs :=
  (packageDone_frame s via o u b).pairs.resolve_left (by decide)
@[simp] theorem packageDone_slots (s : State) (via : Via) (o u : Nat) (b : List Byte) : (packageDone s via o u b).slots = s.slots :=
  (packageDone_frame s via o u b).slots.resolve_left (by decide)
@[simp] theorem packageDone_cmds (s : State) (via : Via) (o u : Nat) (b : List Byte) : (packageDone s via o u b).cmds = s.cmds :=
  (packageDone_frame s via o u b).cmds.resolve_left (by decide)
@[simp] theorem packageDone_seq (s : State) (via : Via) (o u : Nat) (b : List Byte) : (packageDone s via o u b).seq = s.seq :=
  (packageDone_frame s via o u b).seq.resolve_left (by decide)
@[simp] theorem packageDone_arbs (s : State) (via : Via) (o u : Nat) (b : List Byte) : (packageDone s via o u b).arbs = s.arbs :=
  (packageDone_frame s via o u b).arbs.resolve_left (by decide)
@[simp] theorem packageDone_txa (s : State) (via : Via) (o u : Nat) (b : List Byte) : (packageDone s via o u b).txa = s.txa :=
  (packageDone_frame s via o u b).txa.resolve_left (by decide)
@[simp] theorem packageDone_forge (s : State) (via : Via) (o u : Nat) (b : List Byte) : (packageDone s via o u b).forge = s.forge :=
  (packageDone_frame s via o u b).forge.resolve_left (by decide)
@[simp] theorem packageDone_sdx (s : State) (via : Via) (o u : Nat) (b : List Byte) : (packageDone s via o u b).sdx = s.sdx :=
  (packageDone_frame s via o u b).sdx.resolve_left (by decide)
@[simp] theorem packageDone_rsv (s : State) (via : Via) (o u : Nat) (b : List Byte) : (packageDone s via o u b).rsv = s.rsv :=
  (packageDone_frame s via o u b).rsv.resolve_left (by decide)
@[simp] theorem packageDone_mdc (s : State) (via : Via) (o u : Nat) (b : List Byte) : (packageDone s via o u b).mdc = s.mdc :=
  (packageDone_frame s via o u b).mdc.resolve_left (by decide)
@[simp] theorem packageDone_tok (s : State) (via : Via) (o u : Nat) (b : List Byte) : (packageDone s via o u b).tok = s.tok :=
  (packageDone_frame s via o u b).tok.resolve_left (by decide)
@[simp] theorem packageDone_bat (s : State) (via : Via) (o u : Nat) (b : List Byte) : (packageDone s via o u b).bat = s.bat :=
  (packageDone_frame s via o u b).bat.resolve_left (by decide)
@[simp] theorem packageDone_pools (s : State) (via : Via) (o u : Nat) (b : List Byte) : (packageDone s via o u b).pools = s.pools :=
  (packageDone_frame s via o u b).pools.resolve_left (by decide)
@[simp] theorem packageDone_dlv (s : State) (via : Via) (o u : Nat) (b : List Byte) : (packageDone s via o u b).dlv = s.dlv :=
  (packageDone_frame s via o u b).dlv.resolve_left (by decide)
@[simp] theorem packageDone_net (s : State) (via : Via) (o u : Nat) (b : List Byte) : (packageDone s via o u b).net = s.net :=
  (packageDone_frame s via o u b).net.resolve_left (by decide)
@[simp] theorem packageDone_pins (s : State) (via : Via) (o u : Nat) (b : List Byte) : (packageDone s via o u b).pins = s.pins :=
  (packageDone_frame s via o u b).pins.resolve_left (by decide)
@[simp] theorem packageDone_evt (s : State) (via : Via) (o u : Nat) (b : List Byte) : (packageDone s via o u b).evt = s.evt :=
  (packageDone_frame s via o u b).evt.resolve_left (by decide)
@[simp] theorem packageDone_ras (s : State) (via : Via) (o u : Nat) (b : List Byte) : (packageDone s via o u b).ras = s.ras :=
  (packageDone_frame s via o u b).ras.resolve_left (by decide)
@[simp] theorem packageDone_trace (s : State) (via : Via) (o u : Nat) (b : List Byte) : (packageDone s via o u b).trace = s.trace :=
  (packageDone_frame s via o u b).trace.resolve_left (by decide)
@[simp] theorem packageDone_tap (s : State) (via : Via) (o u : Nat) (b : List Byte) : (packageDone s via o u b).tap = s.tap :=
  (packageDone_frame s via o u b).tap.resolve_left (by decide)
@[simp] theorem packageDone_removal (s : State) (via : Via) (o u : Nat) (b : List Byte) : (packageDone s via o u b).removal = s.removal :=
  (packageDone_frame s via o u b).removal.resolve_left (by decide)
/-- An object that is no tally keeps its value. -/
theorem objGet_packageDone (s : State) (via : Via) (o u : Nat) (b : List Byte) {ix sx : Nat} (h : keyPart (objKey ix sx) = .objects) : objGet (packageDone s via o u b) ix sx = objGet s ix sx :=
  ((packageDone_frame s via o u b).objs (objKey ix sx)).resolve_left (by rw [h]; decide)
@[simp] theorem slotOf_packageDone (s : State) (via : Via) (o u : Nat) (b : List Byte) (j : Nat) : slotOf (packageDone s via o u b) j = slotOf s j := by
  simp only [slotOf, packageDone_slots]
@[simp] theorem pairOf_packageDone (s : State) (via : Via) (o u : Nat) (b : List Byte) (j : Nat) : pairOf (packageDone s via o u b) j = pairOf s j := by
  simp only [pairOf, packageDone_pairs]
@[simp] theorem poolOf_packageDone (s : State) (via : Via) (o u : Nat) (b : List Byte) (j : Nat) : poolOf (packageDone s via o u b) j = poolOf s j := by
  simp only [poolOf, packageDone_pools]
@[simp] theorem portOf_packageDone (s : State) (via : Via) (o u : Nat) (b : List Byte) (j : Nat) : portOf (packageDone s via o u b) j = portOf s j := by
  simp only [portOf, packageDone_net]
@[simp] theorem dieId_packageDone (s : State) (via : Via) (o u : Nat) (b : List Byte) : dieId (packageDone s via o u b)  = dieId s := by
  simp only [dieId, packageDone_boot]
@[simp] theorem srcOf_packageDone (s : State) (via : Via) (o u : Nat) (b : List Byte) (j : Nat) : srcOf (packageDone s via o u b) j = srcOf s j := by
  simp only [srcOf, packageDone_evt]
@[simp] theorem coreOf_packageDone (s : State) (via : Via) (o u : Nat) (b : List Byte) (j : Nat) : coreOf (packageDone s via o u b) j = coreOf s j := by
  simp only [coreOf, packageDone_evt]
@[simp] theorem grpOf_packageDone (s : State) (via : Via) (o u : Nat) (b : List Byte) (j : Nat) : grpOf (packageDone s via o u b) j = grpOf s j := by
  simp only [grpOf, packageDone_evt]
@[simp] theorem bankOf_packageDone (s : State) (via : Via) (o u : Nat) (b : List Byte) (j : Nat) : bankOf (packageDone s via o u b) j = bankOf s j := by
  simp only [bankOf, packageDone_dlv]
@[simp] theorem qpOf_packageDone (s : State) (via : Via) (o u : Nat) (b : List Byte) (j : Nat) : qpOf (packageDone s via o u b) j = qpOf s j := by
  simp only [qpOf, packageDone_net]
@[simp] theorem lrOf_packageDone (s : State) (via : Via) (o u : Nat) (b : List Byte) (j : Nat) : lrOf (packageDone s via o u b) j = lrOf s j := by
  simp only [lrOf, packageDone_net]
@[simp] theorem setOf_packageDone (s : State) (via : Via) (o u : Nat) (b : List Byte) (j : Nat) : setOf (packageDone s via o u b) j = setOf s j := by
  simp only [setOf, packageDone_sets]
@[simp] theorem ctxOf_packageDone (s : State) (via : Via) (o u : Nat) (b : List Byte) (j : Nat) : ctxOf (packageDone s via o u b) j = ctxOf s j := by
  simp only [ctxOf, packageDone_mdc]
@[simp] theorem memPoisoned_packageDone (s : State) (via : Via) (o u : Nat) (b : List Byte) (a j : Nat) : memPoisoned (packageDone s via o u b) a j = memPoisoned s a j :=
  memPoisoned_congr (packageDone_mem s via o u b) a j
@[simp] theorem memBytes_packageDone (s : State) (via : Via) (o u : Nat) (b : List Byte) (a j : Nat) : memBytes (packageDone s via o u b) a j = memBytes s a j := by
  simp only [memBytes, packageDone_mem]
@[simp] theorem memNat_packageDone (s : State) (via : Via) (o u : Nat) (b : List Byte) (a j : Nat) : memNat (packageDone s via o u b) a j = memNat s a j := by
  simp only [memNat, packageDone_mem]
@[simp] theorem slotBusy_packageDone (s : State) (via : Via) (o u : Nat) (b : List Byte) (j : Nat) : slotBusy (packageDone s via o u b) j = slotBusy s j := by
  simp only [slotBusy, slotOf_packageDone]
@[simp] theorem unitsWork_packageDone (s : State) (via : Via) (o u : Nat) (b : List Byte) : unitsWork (packageDone s via o u b)  = unitsWork s := by
  simp only [unitsWork, packageDone_boot]

end Sys2Proof.Machine
end

