-- ==== Sys2Proof/Laws/Fed.lean ====
section
/-! SUPPORT. When a federation message is taken, and when it is not (R386). -/

namespace Sys2Proof.Machine

set_option Elab.async false

theorem fedTake_idle {s : State} (h : unitsWork s = false) (ty : Nat) (m : FedArrival) (act : List Byte → State → State) :
    fedTake ty m act s = s := by simp [fedTake, h]

theorem fedTake_crc {s : State} {m : FedArrival} (h : unitsWork s = true) (hs : msgSound m.bytes = false) (ty : Nat)
    (act : List Byte → State → State) : fedTake ty m act s = bump s 0x1180 9 := by simp [fedTake, h, hs]

theorem fedTake_type {s : State} {m : FedArrival} {ty : Nat} (h : unitsWork s = true) (hs : msgSound m.bytes = true)
    (ht : msgType m.bytes ≠ ty) (act : List Byte → State → State) : fedTake ty m act s = s := by simp [fedTake, h, hs, ht]

theorem fedTake_other {s : State} {m : FedArrival} (h : unitsWork s = true) (hs : msgSound m.bytes = true) (hd : msgDst m.bytes ≠ 0xFF)
    (hd' : msgDst m.bytes ≠ dieId s) (ty : Nat) (act : List Byte → State → State) : fedTake ty m act s = s := by
  simp [fedTake, h, hs, hd, hd']

theorem fedTake_again {s : State} {m : FedArrival} (h : unitsWork s = true) (hs : msgSound m.bytes = true) (hd : msgDst m.bytes = 0xFF)
    (hc : m.copy = true ∨ 7 ≤ msgHop m.bytes ∨ msgSrc m.bytes = dieId s) (ty : Nat) (act : List Byte → State → State) :
    fedTake ty m act s = s := by
  rcases hc with hc | hc | hc <;> simp [fedTake, h, hs, hd, hc]

/-- A message for this die of the command's type is acted on. -/
theorem fedTake_own {s : State} {m : FedArrival} {ty : Nat} (h : unitsWork s = true) (hs : msgSound m.bytes = true)
    (ht : msgType m.bytes = ty) (hd : msgDst m.bytes ≠ 0xFF) (hd' : msgDst m.bytes = dieId s) (act : List Byte → State → State) :
    fedTake ty m act s = act m.bytes s := by
  have hd2 : dieId s ≠ 255 := fun e => hd (hd'.trans e)
  simp [fedTake, h, hs, ht, hd', hd2]

/-- The first copy of a message for all dies is passed on over the other links and acted on. -/
theorem fedTake_all {s : State} {m : FedArrival} {ty : Nat} (h : unitsWork s = true) (hs : msgSound m.bytes = true)
    (ht : msgType m.bytes = ty) (hd : msgDst m.bytes = 0xFF) (hc : m.copy = false) (hh : msgHop m.bytes < 7)
    (hm : msgSrc m.bytes ≠ dieId s) (act : List Byte → State → State) :
    fedTake ty m act s = act m.bytes (send s (.fedExcept m.link (msgOn m.bytes))) := by
  simp [fedTake, h, hs, ht, hd, hc, hm, Nat.not_le.mpr hh]

theorem fedTake_received {s u : State} {m : FedArrival} {ty : Nat} (h : Received ty m s u) (act : List Byte → State → State) :
    fedTake ty m act s = act m.bytes u := by
  obtain ⟨h1, h2, h3, ⟨h4, h5, rfl⟩ | ⟨h4, h5, h6, h7, rfl⟩⟩ := h
  · exact fedTake_own h1 h2 h3 h4 h5 act
  · exact fedTake_all h1 h2 h3 h4 h5 h6 h7 act

end Sys2Proof.Machine
end

