-- ==== Sys2Proof/Laws/Keeps.lean ====
section
/-! SUPPORT. What every operation of the machine keeps: the queue, the fuses once latched, the bound on semaphore pairs and the
canonical form of the memories. -/

namespace Sys2Proof.Machine

set_option Elab.async false

/-- t comes from s with the queue, the fuses, the bound on pairs and the memories' form kept. -/
structure Keeps (s t : State) : Prop where
  queue : t.pending = s.pending
  fuses : FusesKept s t
  pairs : PairsBounded s → PairsBounded t
  mem   : s.mem.wf → t.mem.wf

theorem Keeps.refl (s : State) : Keeps s s := ⟨rfl, fun _ h => h, id, id⟩

theorem Keeps.trans {s t u : State} (h : Keeps s t) (h' : Keeps t u) : Keeps s u :=
  ⟨h'.queue.trans h.queue, fun f hf => h'.fuses f (h.fuses f hf), h'.pairs ∘ h.pairs, h'.mem ∘ h.mem⟩

/-- A state that differs in none of what is kept. -/
theorem Keeps.put {s0 s : State} (h : Keeps s0 s) {drawn boot objs sets roots slots cmds seq arbs txa forge sdx rsv mdc tok bat pools dlv net
    fed dict pins evt ras trace tap removal} (hb : boot.fuses = s.boot.fuses := by rfl) :
    Keeps s0 (State.mk s.pending drawn boot objs s.mem sets roots s.pairs slots cmds seq arbs txa forge sdx rsv mdc tok bat pools dlv net
      fed dict pins evt ras trace tap removal) :=
  h.trans ⟨rfl, fun _ hf => hb.trans hf, id, id⟩

/-- A state that differs in its memories too. -/
theorem Keeps.putMem {s0 s : State} (h : Keeps s0 s) {drawn boot objs mem sets roots slots cmds seq arbs txa forge sdx rsv mdc tok bat pools dlv
    net fed dict pins evt ras trace tap removal} (hb : boot.fuses = s.boot.fuses := by rfl) (hm : s.mem.wf → mem.wf) :
    Keeps s0 (State.mk s.pending drawn boot objs mem sets roots s.pairs slots cmds seq arbs txa forge sdx rsv mdc tok bat pools dlv net
      fed dict pins evt ras trace tap removal) :=
  h.trans ⟨rfl, fun _ hf => hb.trans hf, id, hm⟩

theorem Keeps.foldl {α : Type} {s0 : State} (f : State → α → State) (l : List α) (hf : ∀ s x, Keeps s0 s → Keeps s0 (f s x)) {s : State}
    (h : Keeps s0 s) : Keeps s0 (l.foldl f s) := by
  induction l generalizing s with
  | nil => exact h
  | cons x l ih => exact ih (hf s x h)

theorem Keeps.foldlFst {α β : Type} {s0 : State} (f : State × β → α → State × β) (l : List α)
    (hf : ∀ e x, Keeps s0 e.1 → Keeps s0 (f e x).1) {e : State × β} (h : Keeps s0 e.1) : Keeps s0 (l.foldl f e).1 := by
  induction l generalizing e with
  | nil => exact h
  | cons x l ih => exact ih (hf e x h)

theorem Keeps.foldlSnd {α β : Type} {s0 : State} (f : β × State → α → β × State) (l : List α)
    (hf : ∀ e x, Keeps s0 e.2 → Keeps s0 (f e x).2) {e : β × State} (h : Keeps s0 e.2) : Keeps s0 (l.foldl f e).2 := by
  induction l generalizing e with
  | nil => exact h
  | cons x l ih => exact ih (hf e x h)

/-- The state of a pair, known as a component. -/
theorem Keeps.fst {β : Type} {s0 t : State} {b : β} {p : State × β} (he : p = (t, b)) (h : Keeps s0 p.1) : Keeps s0 t := by
  rw [he] at h; exact h
theorem Keeps.snd {β : Type} {s0 t : State} {b : β} {p : β × State} (he : p = (b, t)) (h : Keeps s0 p.2) : Keeps s0 t := by
  rw [he] at h; exact h

/-! ## Pairs -/

theorem PairsBounded.set {s : State} {p : Nat} {x : Pair} (h : PairsBounded s) (hx : x.empty + x.full ≤ x.depth) :
    PairsBounded (setPair s p x) := by
  intro q
  simp only [pairOf, setPair, tblGet_tblSet]
  split
  · exact hx
  · exact h q

theorem setPair_keeps {s0 s : State} (h : Keeps s0 s) (p : Nat) (x : Pair)
    (hx : (pairOf s p).empty + (pairOf s p).full ≤ (pairOf s p).depth → x.empty + x.full ≤ x.depth) : Keeps s0 (setPair s p x) :=
  h.trans ⟨rfl, fun _ hf => hf, fun hp => hp.set (hx (hp p)), id⟩

end Sys2Proof.Machine
end

