-- ==== Sys2Proof/Laws/KeepsShared.lean ====
section
/-! SUPPORT. What the shared operations keep: the queue, the fuses, the bound on pairs and the memories' form. -/

set_option linter.unusedTactic false
set_option linter.unreachableTactic false
set_option linter.unusedVariables false

namespace Sys2Proof.Machine

set_option Elab.async false

/-! ## Ops -/

theorem memWrite_keeps {s0 : State} (s : State) (a : Nat) (bs : List Byte) (h : Keeps s0 s) : Keeps s0 (memWrite s a bs) :=
  Keeps.putMem h (hm := fun w => ⟨cellsSet_wf _ _ _ w.1, w.2⟩)

theorem txaWrite_keeps {s0 : State} (s : State) (a : Nat) (bs : List Byte) (h : Keeps s0 s) : Keeps s0 (txaWrite s a bs) :=
  Keeps.putMem h (hm := fun w => ⟨w.1, cellsSet_wf _ _ _ w.2.1, w.2.2⟩)

theorem pfgWrite_keeps {s0 : State} (s : State) (a : Nat) (bs : List Byte) (h : Keeps s0 s) : Keeps s0 (pfgWrite s a bs) :=
  Keeps.putMem h (hm := fun w => ⟨w.1, w.2.1, cellsSet_wf _ _ _ w.2.2.1, w.2.2.2⟩)

theorem objSet_keeps {s0 : State} (s : State) (index sub v : Nat) (hK : Keeps s0 s) : Keeps s0 (objSet s index sub v) := by
  unfold objSet
  repeat' (with_reducible first | assumption | refine Keeps.put ?_)

theorem bumpBy_keeps {s0 : State} (s : State) (index sub k : Nat) (hK : Keeps s0 s) : Keeps s0 (bumpBy s index sub k) := by
  unfold bumpBy
  repeat' (with_reducible first | assumption | apply objSet_keeps | intro _)

theorem bump_keeps {s0 : State} (s : State) (index sub : Nat) (hK : Keeps s0 s) : Keeps s0 (bump s index sub) := by
  unfold bump
  repeat' (with_reducible first | assumption | apply bumpBy_keeps | intro _)

theorem poisonWritten_keeps {s0 : State} (s : State) (n : Nat) (hK : Keeps s0 s) : Keeps s0 (poisonWritten s n) := by
  unfold poisonWritten
  repeat' (with_reducible first | assumption | apply bumpBy_keeps | intro _)

theorem memWritePoisoned_keeps {s0 : State} (s : State) (a : Nat) (bs : List Byte) (h : Keeps s0 s) :
    Keeps s0 (memWritePoisoned s a bs) :=
  poisonWritten_keeps _ _ (Keeps.putMem h (hm := fun w => ⟨cellsSet_wf _ _ _ w.1, w.2⟩))

theorem txaMark_keeps {s0 : State} (s : State) (gs : List Nat) (h : Keeps s0 s) : Keeps s0 (txaMark s gs) :=
  poisonWritten_keeps _ _ (Keeps.putMem h (hm := fun w => w))

theorem txaWritePoisoned_keeps {s0 : State} (s : State) (a : Nat) (bs : List Byte) (h : Keeps s0 s) :
    Keeps s0 (txaWritePoisoned s a bs) :=
  txaMark_keeps _ _ (Keeps.putMem h (hm := fun w => ⟨w.1, cellsSet_wf _ _ _ w.2.1, w.2.2⟩))

theorem pfgWritePoisoned_keeps {s0 : State} (s : State) (a : Nat) (bs : List Byte) (h : Keeps s0 s) :
    Keeps s0 (pfgWritePoisoned s a bs) :=
  poisonWritten_keeps _ _ (Keeps.putMem h (hm := fun w => ⟨w.1, w.2.1, cellsSet_wf _ _ _ w.2.2.1, w.2.2.2⟩))

theorem spWrite_keeps {s0 : State} (s : State) (addr : Nat) (data : List (Nat × Byte)) (poison : Bool) (h : Keeps s0 s) :
    Keeps s0 (spWrite s addr data poison) := by
  refine Keeps.putMem (s := if poison then poisonWritten s 1 else s) ?_ (hm := fun w => ⟨w.1, w.2.1, w.2.2.1, cellsMask_wf _ _ _
      w.2.2.2.1, w.2.2.2.2⟩)
  split
  · exact poisonWritten_keeps _ _ h
  · exact h

theorem drawFree_keeps {s0 : State} (s : State) (bound : Nat) (hK : Keeps s0 s) : Keeps s0 (drawFree s bound).2 := by
  unfold drawFree
  repeat' (with_reducible first | assumption | refine Keeps.put ?_)

theorem reserveFree_keeps {s0 : State} (s : State) (n : Nat) (hK : Keeps s0 s) : Keeps s0 (reserveFree s n).2 := by
  unfold reserveFree
  repeat' (with_reducible first | assumption | refine Keeps.put ?_)

theorem setSlot_keeps {s0 : State} (s : State) (n : Nat) (x : Slot) (hK : Keeps s0 s) : Keeps s0 (setSlot s n x) := by
  unfold setSlot
  repeat' (with_reducible first | assumption | refine Keeps.put ?_)

theorem modSlot_keeps {s0 : State} (s : State) (n : Nat) (f : Slot → Slot) (hK : Keeps s0 s) : Keeps s0 (modSlot s n f) := by
  unfold modSlot
  repeat' (with_reducible first | assumption | apply setSlot_keeps | intro _)

theorem send_keeps {s0 : State} (s : State) (m : D2d) (hK : Keeps s0 s) : Keeps s0 (send s m) := by
  unfold send
  repeat' (with_reducible first | assumption | refine Keeps.put ?_)

theorem traceRec_keeps {s0 : State} (s : State) (kind unit slot code data1 data0 : Nat) (hK : Keeps s0 s) : Keeps s0
    (traceRec s kind unit slot code data1 data0) := by
  unfold traceRec
  repeat' (with_reducible first
      | assumption | apply bump_keeps | intro _ | extract_lets | split | dsimp +zetaDelta only | refine Keeps.put ?_)

theorem setSrc_keeps {s0 : State} (s : State) (n : Nat) (x : Src) (hK : Keeps s0 s) : Keeps s0 (setSrc s n x) := by
  unfold setSrc
  repeat' (with_reducible first | assumption | refine Keeps.put ?_)

theorem setGrp_keeps {s0 : State} (s : State) (g : Nat) (x : Grp) (hK : Keeps s0 s) : Keeps s0 (setGrp s g x) := by
  unfold setGrp
  repeat' (with_reducible first | assumption | refine Keeps.put ?_)

theorem setCore_keeps {s0 : State} (s : State) (c : Nat) (x : Core) (hK : Keeps s0 s) : Keeps s0 (setCore s c x) := by
  unfold setCore
  repeat' (with_reducible first | assumption | refine Keeps.put ?_)

theorem wakeUp_keeps {s0 : State} (s : State) (c : Nat) (hK : Keeps s0 s) : Keeps s0 (wakeUp s c) := by
  unfold wakeUp
  repeat' (with_reducible first
      | assumption | apply setCore_keeps | apply bump_keeps | intro _ | extract_lets | split | dsimp +zetaDelta only
      | refine Keeps.put ?_)

theorem setPending_keeps {s0 : State} (s : State) (n : Nat) (hK : Keeps s0 s) : Keeps s0 (setPending s n) := by
  unfold setPending
  repeat' (with_reducible first
      | assumption | apply wakeUp_keeps | apply setSrc_keeps | intro _ | extract_lets | split | dsimp +zetaDelta only
      | refine Keeps.put ?_)

theorem routeAll_keeps {s0 : State} (s : State) (due : List Nat) (hK : Keeps s0 s) : Keeps s0 (routeAll s due) := by
  unfold routeAll
  repeat' (with_reducible first
      | assumption | apply setPending_keeps | apply Keeps.foldl | apply Keeps.foldlFst | apply Keeps.foldlSnd | intro _)

theorem endHoldoff_keeps {s0 : State} (s : State) (g : Nat) (hK : Keeps s0 s) : Keeps s0 (endHoldoff s g) := by
  unfold endHoldoff
  repeat' (with_reducible first
      | assumption | apply setGrp_keeps | apply setSrc_keeps | apply Keeps.foldl | apply Keeps.foldlFst | apply Keeps.foldlSnd
      | intro _ | refine Keeps.put ?_)

theorem releaseGroup_keeps {s0 : State} (s : State) (g : Nat) (hK : Keeps s0 s) : Keeps s0 (releaseGroup s g) := by
  unfold releaseGroup
  repeat' (with_reducible first | assumption | apply endHoldoff_keeps | apply routeAll_keeps | intro _)

theorem cutShortWith_keeps {s0 : State} (s : State) (due : List Nat) (hK : Keeps s0 s) : Keeps s0 (cutShortWith s due) := by
  unfold cutShortWith
  repeat' (with_reducible first
      | assumption | apply endHoldoff_keeps | apply routeAll_keeps | apply wakeUp_keeps | apply bump_keeps | apply Keeps.foldl
      | apply Keeps.foldlFst | apply Keeps.foldlSnd | intro _ | extract_lets | dsimp +zetaDelta only)

theorem cutShort_keeps {s0 : State} (s : State) (hK : Keeps s0 s) : Keeps s0 (cutShort s) := by
  unfold cutShort
  repeat' (with_reducible first | assumption | apply cutShortWith_keeps | intro _)

theorem holdFiring_keeps {s0 : State} (s : State) (n : Nat) (hK : Keeps s0 s) : Keeps s0 (holdFiring s n) := by
  unfold holdFiring
  repeat' (with_reducible first
      | assumption | apply setGrp_keeps | apply setSrc_keeps | intro _ | extract_lets | split | dsimp +zetaDelta only
      | refine Keeps.put ?_)

theorem latchFiring_keeps {s0 : State} (s : State) (n code : Nat) (hK : Keeps s0 s) : Keeps s0 (latchFiring s n code) := by
  unfold latchFiring
  repeat' (with_reducible first
      | assumption | apply holdFiring_keeps | apply setSrc_keeps | intro _ | extract_lets | split | dsimp +zetaDelta only
      | refine Keeps.put ?_)

theorem fireAll_keeps {s0 : State} (s : State) (ns : List Nat) (code : Nat) (hK : Keeps s0 s) : Keeps s0 (fireAll s ns code) := by
  unfold fireAll
  repeat' (with_reducible first
      | assumption | apply latchFiring_keeps | apply endHoldoff_keeps | apply routeAll_keeps | apply Keeps.foldl | apply Keeps.foldlFst
      | apply Keeps.foldlSnd | intro _ | extract_lets | dsimp +zetaDelta only)

theorem fire_keeps {s0 : State} (s : State) (n code : Nat) (hK : Keeps s0 s) : Keeps s0 (fire s n code) := by
  unfold fire
  repeat' (with_reducible first | assumption | apply fireAll_keeps | intro _)

theorem countErr_keeps {s0 : State} (s : State) (code slot : Nat) (hK : Keeps s0 s) : Keeps s0 (countErr s code slot) := by
  unfold countErr
  repeat' (with_reducible first
      | assumption | apply traceRec_keeps | apply bump_keeps | apply objSet_keeps | intro _ | extract_lets | split
      | dsimp +zetaDelta only)

theorem raiseErr_keeps {s0 : State} (s : State) (code slot : Nat) (hK : Keeps s0 s) : Keeps s0 (raiseErr s code slot) := by
  unfold raiseErr
  repeat' (with_reducible first
      | assumption | apply countErr_keeps | apply fire_keeps | intro _ | extract_lets | split | dsimp +zetaDelta only)

theorem raiseErrOn_keeps {s0 : State} (s : State) (code slot src : Nat) (hK : Keeps s0 s) : Keeps s0 (raiseErrOn s code slot src) := by
  unfold raiseErrOn
  repeat' (with_reducible first | assumption | apply countErr_keeps | apply fire_keeps | intro _)

theorem lastBad_keeps {s0 : State} (s : State) (kind addr : Nat) (hK : Keeps s0 s) : Keeps s0 (lastBad s kind addr) := by
  unfold lastBad
  repeat' (with_reducible first | assumption | apply objSet_keeps | intro _)

theorem otherSramAddr_keeps {s0 : State} (s : State) (hK : Keeps s0 s) : Keeps s0 (otherSramAddr s).2 := by
  unfold otherSramAddr
  repeat' (with_reducible first
      | assumption | apply drawFree_keeps | refine Keeps.fst ‹_› ?_ | refine Keeps.snd ‹_› ?_ | intro _ | extract_lets | split
      | dsimp +zetaDelta only)

theorem lastBadOther_keeps {s0 : State} (s : State) (hK : Keeps s0 s) : Keeps s0 (lastBadOther s) := by
  unfold lastBadOther
  repeat' (with_reducible first
      | assumption | apply otherSramAddr_keeps | apply objSet_keeps | refine Keeps.fst ‹_› ?_ | refine Keeps.snd ‹_› ?_ | intro _
      | extract_lets | split | dsimp +zetaDelta only)

theorem memError_keeps {s0 : State} (s : State) (slot addr : Nat) (hK : Keeps s0 s) : Keeps s0 (memError s slot addr) := by
  unfold memError
  repeat' (with_reducible first | assumption | apply lastBad_keeps | apply raiseErr_keeps | intro _)

theorem readChecked_keeps {s0 : State} (s : State) (slot a n : Nat) (hK : Keeps s0 s) : Keeps s0 (readChecked s slot a n) := by
  unfold readChecked
  repeat' (with_reducible first | assumption | apply memError_keeps | intro _ | split)

theorem readMem_keeps {s0 : State} (s : State) (slot a n : Nat) (hK : Keeps s0 s) : Keeps s0 (readMem s slot a n).2 := by
  unfold readMem
  repeat' (with_reducible first
      | assumption | apply readChecked_keeps | apply reserveFree_keeps | refine Keeps.fst ‹_› ?_ | refine Keeps.snd ‹_› ?_ | intro _
      | extract_lets | split | dsimp +zetaDelta only)

theorem sramFault_keeps {s0 : State} (s : State) (kind off slot : Nat) (h : Keeps s0 s) : Keeps s0 (sramFault s kind off slot) := by
  have h' := lastBad_keeps _ kind off (raiseErr_keeps s 0x1202 slot h)
  unfold sramFault
  extract_lets
  split
  · exact Keeps.putMem h' (hm := fun w => w)
  · split
    · exact Keeps.putMem h' (hm := fun w => w)
    · exact h'

theorem sramReads_keeps {s0 : State} (s : State) (kind slot : Nat) (r : SramReads) (hK : Keeps s0 s) : Keeps s0
    (sramReads s kind slot r) := by
  unfold sramReads
  repeat' (with_reducible first
      | assumption | apply sramFault_keeps | apply raiseErr_keeps | apply Keeps.foldl | apply Keeps.foldlFst | apply Keeps.foldlSnd
      | intro _ | extract_lets | dsimp +zetaDelta only)

theorem release_keeps {s0 : State} (s : State) (holder : Nat) (hK : Keeps s0 s) : Keeps s0 (release s holder) := by
  unfold release
  repeat' (with_reducible first | assumption | refine Keeps.put ?_)

theorem claim_keeps {s0 : State} (s : State) (holder : Nat) (rs : List Res) (hK : Keeps s0 s) : Keeps s0 (claim s holder rs) := by
  unfold claim
  repeat' (with_reducible first | assumption | apply release_keeps | intro _ | extract_lets | dsimp +zetaDelta only | refine Keeps.put ?_)

theorem pulse_keeps {s0 : State} (s : State) (sub : Nat) (hK : Keeps s0 s) : Keeps s0 (pulse s sub) := by
  unfold pulse
  repeat' (with_reducible first | assumption | refine Keeps.fst ‹_› ?_ | refine Keeps.snd ‹_› ?_ | split | refine Keeps.put ?_)

theorem arbGrant_keeps {s0 : State} (s : State) (unit slot : Nat) (ready : List Nat) (hK : Keeps s0 s) : Keeps s0
    (arbGrant s unit slot ready) := by
  unfold arbGrant
  repeat' (with_reducible first
      | assumption | apply Keeps.foldl | apply Keeps.foldlFst | apply Keeps.foldlSnd | intro _ | extract_lets | split
      | dsimp +zetaDelta only | refine Keeps.put ?_)

/-! ## PoolOps -/

theorem setPool_keeps {s0 : State} (s : State) (p : Nat) (x : Pool) (hK : Keeps s0 s) : Keeps s0 (setPool s p x) := by
  unfold setPool
  repeat' (with_reducible first | assumption | refine Keeps.put ?_)

theorem lowWater_keeps {s0 : State} (s : State) (p : Nat) (hK : Keeps s0 s) : Keeps s0 (lowWater s p) := by
  unfold lowWater
  repeat' (with_reducible first | assumption | apply objSet_keeps | intro _ | extract_lets | split | dsimp +zetaDelta only)

theorem poolBalance_keeps {s0 : State} (s : State) (p : Nat) (hK : Keeps s0 s) : Keeps s0 (poolBalance s p) := by
  unfold poolBalance
  repeat' (with_reducible first
      | assumption | apply setPool_keeps | intro _ | extract_lets | split | dsimp +zetaDelta only | refine Keeps.put ?_)

theorem setStateBit_keeps {s0 : State} (s : State) (p i : Nat) (v : Bool) (h : Keeps s0 s) : Keeps s0 (setStateBit s p i v) :=
  Keeps.putMem h (hm := fun w => ⟨cellsSet_wf _ _ _ w.1, w.2⟩)

theorem blockExcess_keeps {s0 : State} (s : State) (p : Nat) (hK : Keeps s0 s) : Keeps s0 (blockExcess s p) := by
  unfold blockExcess
  repeat' (with_reducible first
      | assumption | apply setPool_keeps | intro _ | extract_lets | split | dsimp +zetaDelta only | refine Keeps.put ?_)

theorem countMisses_keeps {s0 : State} (s : State) (p : Nat) (hK : Keeps s0 s) : Keeps s0 (countMisses s p) := by
  unfold countMisses
  repeat' (with_reducible first
      | assumption | apply setPool_keeps | apply bumpBy_keeps | intro _ | extract_lets | split | dsimp +zetaDelta only
      | refine Keeps.put ?_)

theorem quarantine_keeps {s0 : State} (s : State) (p : Nat) (is : List Nat) (dropped : Bool) (slot : Nat) (hK : Keeps s0 s) : Keeps s0
    (quarantine s p is dropped slot) := by
  unfold quarantine
  repeat' (with_reducible first
      | assumption | apply blockExcess_keeps | apply lowWater_keeps | apply setPool_keeps | apply raiseErr_keeps | intro _
      | extract_lets | split | dsimp +zetaDelta only | refine Keeps.put ?_)

theorem finishCmd_keeps {s0 : State} (s : State) (id status flags result : Nat) (hK : Keeps s0 s) : Keeps s0
    (finishCmd s id status flags result) := by
  unfold finishCmd
  repeat' (with_reducible first | assumption | split | refine Keeps.put ?_)

theorem answer_keeps {s0 : State} (s : State) (r : AllocReq) (code addr : Nat) (hK : Keeps s0 s) : Keeps s0 (answer s r code addr) := by
  unfold answer
  repeat' (with_reducible first
      | assumption | apply finishCmd_keeps | apply modSlot_keeps | apply memWrite_keeps | refine Keeps.fst ‹_› ?_
      | refine Keeps.snd ‹_› ?_ | intro _ | extract_lets | split | dsimp +zetaDelta only | refine Keeps.put ?_)

theorem readStateLine_keeps {s0 : State} (s : State) (p i slot : Nat) (poisoned : Bool) (hK : Keeps s0 s) : Keeps s0
    (readStateLine s p i slot poisoned) := by
  unfold readStateLine
  repeat' (with_reducible first | assumption | apply quarantine_keeps | apply memError_keeps | intro _ | split)

theorem runSets_keeps {s0 : State} (s : State) (p : Nat) (x0 : List BitOp) (hK : Keeps s0 s) : Keeps s0 (runSets s p x0) := by
  induction x0 generalizing s p with
  | nil => exact hK
  | cons o l ih =>
    cases o with
    | check n i => exact hK
    | set n i =>
      simp only [runSets]
      repeat' (with_reducible first | assumption | apply ih | apply setStateBit_keeps | apply readStateLine_keeps | apply setPool_keeps)

theorem acceptOp_keeps {s0 : State} (s : State) (p : Nat) (o : BitOp) (hK : Keeps s0 s) : Keeps s0 (acceptOp s p o) := by
  unfold acceptOp
  repeat' (with_reducible first
      | assumption | apply runSets_keeps | apply setPool_keeps | intro _ | extract_lets | dsimp +zetaDelta only | refine Keeps.put ?_)

theorem dropEntry_keeps {s0 : State} (s : State) (p : Nat) (e : Nat × Nat) (hK : Keeps s0 s) : Keeps s0 (dropEntry s p e) := by
  unfold dropEntry
  repeat' (with_reducible first
      | assumption | apply blockExcess_keeps | apply lowWater_keeps | apply setPool_keeps | apply raiseErr_keeps | apply objSet_keeps
      | intro _ | extract_lets | dsimp +zetaDelta only | refine Keeps.put ?_)

theorem dropDamaged_keeps {s0 : State} (s : State) (p : Nat) (x0 : List Nat) (hK : Keeps s0 s) : Keeps s0 (dropDamaged s p x0) := by
  induction x0 generalizing s p with
  | nil => unfold dropDamaged; exact hK
  | cons o l ih =>
    unfold dropDamaged
    repeat' (with_reducible first
        | assumption | apply ih | apply dropEntry_keeps | refine Keeps.fst ‹_› ?_ | refine Keeps.snd ‹_› ?_ | intro _ | split)

theorem holdGranted_keeps {s0 : State} (s : State) (p : Nat) (r : AllocReq) (hK : Keeps s0 s) : Keeps s0 (holdGranted s p r) := by
  unfold holdGranted
  repeat' (with_reducible first
      | assumption | apply countMisses_keeps | apply setPool_keeps | intro _ | extract_lets | dsimp +zetaDelta only
      | refine Keeps.put ?_)

theorem takeIndex_keeps {s0 : State} (s : State) (p : Nat) (r : AllocReq) (hK : Keeps s0 s) : Keeps s0 (takeIndex s p r) := by
  unfold takeIndex
  repeat' (with_reducible first
      | assumption | apply holdGranted_keeps | apply dropDamaged_keeps | apply acceptOp_keeps | apply answer_keeps
      | apply countMisses_keeps | apply poolBalance_keeps | apply lowWater_keeps | apply setPool_keeps | refine Keeps.fst ‹_› ?_
      | refine Keeps.snd ‹_› ?_ | intro _ | extract_lets | split | dsimp +zetaDelta only | refine Keeps.put ?_)

theorem awaitIndex_keeps {s0 : State} (s : State) (p : Nat) (r : AllocReq) (hK : Keeps s0 s) : Keeps s0 (awaitIndex s p r) := by
  unfold awaitIndex
  repeat' (with_reducible first
      | assumption | apply takeIndex_keeps | apply holdGranted_keeps | apply setPool_keeps | intro _ | extract_lets | split
      | dsimp +zetaDelta only | refine Keeps.put ?_)

theorem grantReq_keeps {s0 : State} (s : State) (p : Nat) (r : AllocReq) (hK : Keeps s0 s) : Keeps s0 (grantReq s p r) := by
  unfold grantReq
  repeat' (with_reducible first
      | assumption | apply awaitIndex_keeps | apply setPool_keeps | apply bump_keeps | intro _ | extract_lets | split
      | dsimp +zetaDelta only | refine Keeps.put ?_)

theorem moveBlocked_keeps {s0 : State} (s : State) (p waitedFclk : Nat) (hK : Keeps s0 s) : Keeps s0 (moveBlocked s p waitedFclk) := by
  unfold moveBlocked
  repeat' (with_reducible first
      | assumption | apply grantReq_keeps | apply awaitIndex_keeps | apply setPool_keeps | apply arbGrant_keeps | apply bumpBy_keeps
      | refine Keeps.fst ‹_› ?_ | refine Keeps.snd ‹_› ?_ | intro _ | extract_lets | split | dsimp +zetaDelta only
      | refine Keeps.put ?_)

theorem poolRequest_keeps {s0 : State} (s : State) (slot size : Nat) (owner : ReqOwner) (hK : Keeps s0 s) : Keeps s0
    (poolRequest s slot size owner) := by
  unfold poolRequest
  repeat' (with_reducible first
      | assumption | apply moveBlocked_keeps | apply grantReq_keeps | apply answer_keeps | apply setPool_keeps | apply arbGrant_keeps
      | apply raiseErr_keeps | refine Keeps.fst ‹_› ?_ | refine Keeps.snd ‹_› ?_ | intro _ | extract_lets | split
      | dsimp +zetaDelta only | refine Keeps.put ?_)

theorem needBuffer_keeps {s0 : State} (s : State) (slot size : Nat) (hK : Keeps s0 s) : Keeps s0 (needBuffer s slot size).2 := by
  unfold needBuffer
  repeat' (with_reducible first
      | assumption | apply poolRequest_keeps | refine Keeps.fst ‹_› ?_ | refine Keeps.snd ‹_› ?_ | intro _ | extract_lets | split
      | dsimp +zetaDelta only | refine Keeps.put ?_)

theorem retryLater_keeps {s0 : State} (s : State) (slot unit : Nat) (hK : Keeps s0 s) : Keeps s0 (retryLater s slot unit) := by
  unfold retryLater
  repeat' (with_reducible first | assumption | apply modSlot_keeps | intro _ | refine Keeps.put ?_)

theorem acceptFree_keeps {s0 : State} (s : State) (r : FreeReq) (hK : Keeps s0 s) : Keeps s0 (acceptFree s r) := by
  unfold acceptFree
  repeat' (with_reducible first
      | assumption | apply acceptOp_keeps | apply finishCmd_keeps | apply setPool_keeps | apply raiseErr_keeps | apply modSlot_keeps
      | refine Keeps.fst ‹_› ?_ | refine Keeps.snd ‹_› ?_ | intro _ | extract_lets | split | dsimp +zetaDelta only
      | refine Keeps.put ?_)

theorem presentFree_keeps {s0 : State} (s : State) (r : FreeReq) (hK : Keeps s0 s) : Keeps s0 (presentFree s r) := by
  unfold presentFree
  repeat' (with_reducible first
      | assumption | apply acceptFree_keeps | apply setPool_keeps | refine Keeps.fst ‹_› ?_ | refine Keeps.snd ‹_› ?_ | intro _
      | extract_lets | split | dsimp +zetaDelta only | refine Keeps.put ?_)

theorem freeBuffers_keeps {s0 : State} (s : State) (slot : Nat) (addrs : List Nat) (hK : Keeps s0 s) : Keeps s0
    (freeBuffers s slot addrs) := by
  unfold freeBuffers
  repeat' (with_reducible first
      | assumption | apply presentFree_keeps | apply Keeps.foldl | apply Keeps.foldlFst | apply Keeps.foldlSnd | intro _
      | refine Keeps.put ?_)

theorem elapsedFclk_keeps {s0 : State} (s : State) (since : Nat) (hK : Keeps s0 s) : Keeps s0 (elapsedFclk s since).2 := by
  unfold elapsedFclk
  repeat' (with_reducible first
      | assumption | apply drawFree_keeps | refine Keeps.fst ‹_› ?_ | refine Keeps.snd ‹_› ?_ | intro _ | extract_lets | split
      | dsimp +zetaDelta only)

theorem blockedFclk_keeps {s0 : State} (s : State) (r : AllocReq) (hK : Keeps s0 s) : Keeps s0 (blockedFclk s r).2 := by
  unfold blockedFclk
  repeat' (with_reducible first | assumption | apply elapsedFclk_keeps | intro _)

theorem countWithdrawn_keeps {s0 : State} (s : State) (r : AllocReq) (hK : Keeps s0 s) : Keeps s0 (countWithdrawn s r) := by
  unfold countWithdrawn
  repeat' (with_reducible first
      | assumption | apply blockedFclk_keeps | apply bumpBy_keeps | refine Keeps.fst ‹_› ?_ | refine Keeps.snd ‹_› ?_ | intro _
      | extract_lets | split | dsimp +zetaDelta only)

theorem endWithdrawn_keeps {s0 : State} (code : Nat) (s : State) (r : AllocReq) (hK : Keeps s0 s) : Keeps s0 (endWithdrawn code s r) := by
  unfold endWithdrawn
  repeat' (with_reducible first
      | assumption | apply countWithdrawn_keeps | apply finishCmd_keeps | refine Keeps.fst ‹_› ?_ | refine Keeps.snd ‹_› ?_ | intro _
      | extract_lets | split | dsimp +zetaDelta only)

theorem withdrawRequests_keeps {s0 : State} (slot code : Nat) (s : State) (p : Nat) (hK : Keeps s0 s) : Keeps s0
    (withdrawRequests slot code s p) := by
  unfold withdrawRequests
  repeat' (with_reducible first
      | assumption | apply endWithdrawn_keeps | apply setPool_keeps | apply Keeps.foldl | apply Keeps.foldlFst | apply Keeps.foldlSnd
      | intro _ | extract_lets | split | dsimp +zetaDelta only | refine Keeps.put ?_)

theorem dropRequests_keeps {s0 : State} (s : State) (slot code : Nat) (hK : Keeps s0 s) : Keeps s0 (dropRequests s slot code) := by
  unfold dropRequests
  repeat' (with_reducible first
      | assumption | apply withdrawRequests_keeps | apply freeBuffers_keeps | apply Keeps.foldl | apply Keeps.foldlFst
      | apply Keeps.foldlSnd | intro _ | extract_lets | dsimp +zetaDelta only | refine Keeps.put ?_)

theorem acceptWaiting_keeps {s0 : State} (p : Nat) (x0 : List FreeReq) (s : State) (hK : Keeps s0 s) : Keeps s0 (acceptWaiting p x0 s) := by
  induction x0 generalizing p s with
  | nil => exact hK
  | cons o l ih =>
    simp only [acceptWaiting]
    repeat' (with_reducible first | assumption | apply ih | apply acceptFree_keeps | apply setPool_keeps | split)

/-! ## Units -/

theorem setEnable_keeps {s0 : State} (s : State) (k : UnitKind) (u : Nat) (v : Bool) (hK : Keeps s0 s) : Keeps s0 (setEnable s k u v) := by
  unfold setEnable
  repeat' (with_reducible first | assumption | apply objSet_keeps | intro _)

theorem setRetired_keeps {s0 : State} (s : State) (k : UnitKind) (u : Nat) (v : Bool) (hK : Keeps s0 s) : Keeps s0
    (setRetired s k u v) := by
  unfold setRetired
  repeat' (with_reducible first | assumption | apply objSet_keeps | refine Keeps.fst ‹_› ?_ | refine Keeps.snd ‹_› ?_ | intro _ | split)

theorem setDraining_keeps {s0 : State} (s : State) (k : UnitKind) (l : List Nat) (hK : Keeps s0 s) : Keeps s0 (setDraining s k l) := by
  unfold setDraining
  repeat' (with_reducible first | assumption | refine Keeps.fst ‹_› ?_ | refine Keeps.snd ‹_› ?_ | split | refine Keeps.put ?_)

theorem unitDone_keeps {s0 : State} (s : State) (k : UnitKind) (u : Nat) (hK : Keeps s0 s) : Keeps s0 (unitDone s k u) := by
  unfold unitDone
  repeat' (with_reducible first | assumption | apply setDraining_keeps | apply setEnable_keeps | intro _ | split)

theorem retireUnit_keeps {s0 : State} (s : State) (k : UnitKind) (u : Nat) (hK : Keeps s0 s) : Keeps s0 (retireUnit s k u) := by
  unfold retireUnit
  repeat' (with_reducible first | assumption | apply setDraining_keeps | apply setRetired_keeps | apply setEnable_keeps | intro _)

theorem settleUnits_keeps {s0 : State} (s : State) (k : UnitKind) (hK : Keeps s0 s) : Keeps s0 (settleUnits s k) := by
  unfold settleUnits
  repeat' (with_reducible first
      | assumption | apply unitDone_keeps | apply Keeps.foldl | apply Keeps.foldlFst | apply Keeps.foldlSnd | intro _)

/-! ## SlotOps -/

theorem freeLane_keeps {s0 : State} (s : State) (u : Nat) (hK : Keeps s0 s) : Keeps s0 (freeLane s u) := by
  unfold freeLane
  repeat' (with_reducible first
      | assumption | apply objSet_keeps | intro _ | extract_lets | split | dsimp +zetaDelta only | refine Keeps.put ?_)

theorem cancelStreams_keeps {s0 : State} (s : State) (m : Nat) (hK : Keeps s0 s) : Keeps s0 (cancelStreams s m) := by
  unfold cancelStreams
  repeat' (with_reducible first
      | assumption | apply freeLane_keeps | apply Keeps.foldl | apply Keeps.foldlFst | apply Keeps.foldlSnd | refine Keeps.fst ‹_› ?_
      | refine Keeps.snd ‹_› ?_ | intro _ | extract_lets | split | dsimp +zetaDelta only | refine Keeps.put ?_)

theorem modStage_keeps {s0 : State} (s : State) (cmd : Nat) (f : IngestStage → IngestStage) (hK : Keeps s0 s) : Keeps s0
    (modStage s cmd f) := by
  unfold modStage
  repeat' (with_reducible first | assumption | split | refine Keeps.put ?_)

theorem stageEnds_keeps {s0 : State} (s : State) (cmd : Nat) (hK : Keeps s0 s) : Keeps s0 (stageEnds s cmd) := by
  unfold stageEnds
  repeat' (with_reducible first
      | assumption | apply modStage_keeps | apply finishCmd_keeps | refine Keeps.fst ‹_› ?_ | refine Keeps.snd ‹_› ?_ | intro _ | split
      | refine Keeps.put ?_)

theorem countUnshown_keeps {s0 : State} (s : State) (l : List RefPic) (hK : Keeps s0 s) : Keeps s0 (countUnshown s l) := by
  unfold countUnshown
  repeat' (with_reducible first | assumption | apply bumpBy_keeps | intro _)

theorem dropContexts_keeps {s0 : State} (s : State) (n : Nat) (hK : Keeps s0 s) : Keeps s0 (dropContexts s n) := by
  unfold dropContexts
  repeat' (with_reducible first | assumption | apply countUnshown_keeps | intro _ | refine Keeps.put ?_)

theorem abandonStages_keeps {s0 : State} (s : State) (n code : Nat) (hK : Keeps s0 s) : Keeps s0 (abandonStages s n code) := by
  unfold abandonStages
  repeat' (with_reducible first
      | assumption | apply dropContexts_keeps | apply cancelStreams_keeps | apply settleUnits_keeps | apply dropRequests_keeps
      | apply freeBuffers_keeps | apply finishCmd_keeps | apply Keeps.foldl | apply Keeps.foldlFst | apply Keeps.foldlSnd
      | refine Keeps.fst ‹_› ?_ | refine Keeps.snd ‹_› ?_ | intro _ | extract_lets | split | dsimp +zetaDelta only
      | refine Keeps.put ?_)

theorem withdrawWaits_keeps {s0 : State} (s : State) (n : Nat) (h : Keeps s0 s) : Keeps s0 (withdrawWaits s n) := by
  unfold withdrawWaits
  refine Keeps.foldl _ _ (fun s p h => ?_) h
  dsimp only
  split
  · exact setPair_keeps h _ _ id
  · exact h

theorem faultHere_keeps {s0 : State} (s : State) (n code : Nat) (hK : Keeps s0 s) : Keeps s0 (faultHere s n code) := by
  unfold faultHere
  repeat' (with_reducible first
      | assumption | apply withdrawWaits_keeps | apply abandonStages_keeps | apply fire_keeps | apply setSlot_keeps | intro _
      | extract_lets | split | dsimp +zetaDelta only | refine Keeps.put ?_)

theorem slotFault_keeps {s0 : State} (s : State) (n code : Nat) (hK : Keeps s0 s) : Keeps s0 (slotFault s n code) := by
  unfold slotFault
  repeat' (with_reducible first
      | assumption | apply faultHere_keeps | apply send_keeps | intro _ | extract_lets | split | dsimp +zetaDelta only)

theorem errFault_keeps {s0 : State} (s : State) (n code : Nat) (hK : Keeps s0 s) : Keeps s0 (errFault s n code) := by
  unfold errFault
  repeat' (with_reducible first | assumption | apply slotFault_keeps | apply raiseErr_keeps | intro _)

theorem tellGrant_keeps {s0 : State} (s : State) (who : Waiter) (full : Bool) (hK : Keeps s0 s) : Keeps s0 (tellGrant s who full) := by
  unfold tellGrant
  repeat' (with_reducible first
      | assumption | refine Keeps.fst ‹_› ?_ | refine Keeps.snd ‹_› ?_ | extract_lets | split | dsimp +zetaDelta only
      | refine Keeps.put ?_)

theorem traceSem_keeps {s0 : State} (s : State) (p code slot : Nat) (hK : Keeps s0 s) : Keeps s0 (traceSem s p code slot) := by
  unfold traceSem
  repeat' (with_reducible first | assumption | apply traceRec_keeps | intro _ | extract_lets | dsimp +zetaDelta only)

theorem grantWait_keeps {s0 : State} (s : State) (p : Nat) (w : HeldWait) (h : Keeps s0 s) : Keeps s0 (grantWait s p w) := by
  refine tellGrant_keeps _ _ _ (traceSem_keeps _ _ _ _ (setPair_keeps h _ _ fun hb => ?_))
  unfold Pair.take
  split <;> simp only <;> omega

theorem grantHeld_keeps {s0 : State} (s : State) (p : Nat) (full : Bool) (h : Keeps s0 s) : Keeps s0 (grantHeld s p full) := by
  unfold grantHeld
  dsimp only
  split
  · exact h
  · split
    · exact grantWait_keeps _ _ _ (setPair_keeps h _ _ id)
    · exact h

theorem addUser_bound (x : Pair) (n : Nat) : (addUser x n).empty = x.empty ∧ (addUser x n).full = x.full ∧
    (addUser x n).depth = x.depth := by
  unfold addUser
  split <;> simp

theorem semWait_keeps {s0 : State} (s : State) (p : Nat) (full : Bool) (slot : Nat) (who : Waiter) (h : Keeps s0 s) :
    Keeps s0 (semWait s p full slot who) := by
  obtain ⟨h1, h2, h3⟩ := addUser_bound (pairOf s p) slot
  unfold semWait
  dsimp only
  split
  · exact grantWait_keeps _ _ _ (setPair_keeps h _ _ fun hb => by omega)
  · exact setPair_keeps h _ _ fun hb => by simp only; omega

theorem semSignal_keeps {s0 : State} (s : State) (p : Nat) (full : Bool) (slot : Nat) (h : Keeps s0 s) : Keeps s0
    (semSignal s p full slot) := by
  obtain ⟨h1, h2, h3⟩ := addUser_bound (pairOf s p) slot
  unfold semSignal
  dsimp only
  split
  · exact errFault_keeps _ _ _ (setPair_keeps h _ _ fun hb => by omega)
  · refine grantHeld_keeps _ _ _ (traceSem_keeps _ _ _ _ (setPair_keeps h _ _ fun hb => ?_))
    unfold Pair.give
    split <;> simp only <;> omega

theorem pushEntry_keeps {s0 : State} (s : State) (p : Nat) (e : LinkEntry) (hK : Keeps s0 s) : Keeps s0 (pushEntry s p e) := by
  unfold pushEntry
  repeat' (with_reducible first | assumption | refine Keeps.put ?_)

theorem takeEntry_keeps {s0 : State} (s : State) (p : Nat) (hK : Keeps s0 s) : Keeps s0 (takeEntry s p).2 := by
  unfold takeEntry
  repeat' (with_reducible first | assumption | refine Keeps.fst ‹_› ?_ | refine Keeps.snd ‹_› ?_ | split | refine Keeps.put ?_)

theorem dropMsg_keeps {s0 : State} (s : State) (id : Nat) (hK : Keeps s0 s) : Keeps s0 (dropMsg s id) := by
  unfold dropMsg
  repeat' (with_reducible first | assumption | refine Keeps.put ?_)

theorem releaseMsg_keeps {s0 : State} (s : State) (m : Msg) (hK : Keeps s0 s) : Keeps s0 (releaseMsg s m) := by
  unfold releaseMsg
  repeat' (with_reducible first | assumption | apply dropMsg_keeps | apply semSignal_keeps | apply freeBuffers_keeps | intro _)

theorem releaseUntaken_keeps {s0 : State} (s : State) (n : Nat) (hK : Keeps s0 s) : Keeps s0 (releaseUntaken s n) := by
  unfold releaseUntaken
  repeat' (with_reducible first
      | assumption | apply releaseMsg_keeps | apply Keeps.foldl | apply Keeps.foldlFst | apply Keeps.foldlSnd | intro _)

theorem clearLink_keeps {s0 : State} (s : State) (p : Nat) (hK : Keeps s0 s) : Keeps s0 (clearLink s p) := by
  unfold clearLink
  repeat' (with_reducible first | assumption | refine Keeps.put ?_)

theorem modCmd_keeps {s0 : State} (s : State) (id : Nat) (f : Cmd → Cmd) (hK : Keeps s0 s) : Keeps s0 (modCmd s id f) := by
  unfold modCmd
  repeat' (with_reducible first | assumption | split | refine Keeps.put ?_)

theorem setOutput_keeps {s0 : State} (s : State) (c : Cmd) (space addr bytes : Nat) (buffer : Option Nat) (hK : Keeps s0 s) : Keeps s0
    (setOutput s c space addr bytes buffer) := by
  unfold setOutput
  repeat' (with_reducible first | assumption | apply modCmd_keeps | intro _ | refine Keeps.put ?_)

theorem refuseItem_keeps {s0 : State} (s : State) (id slot code : Nat) (hK : Keeps s0 s) : Keeps s0 (refuseItem s id slot code) := by
  unfold refuseItem
  repeat' (with_reducible first | assumption | apply errFault_keeps | apply finishCmd_keeps | intro _)

theorem nameFailed_keeps {s0 : State} (s : State) (slot tag : Nat) (what : Named) (hK : Keeps s0 s) : Keeps s0
    (nameFailed s slot tag what) := by
  unfold nameFailed
  repeat' (with_reducible first | assumption | refine Keeps.put ?_)

theorem takeUnits_keeps {s0 : State} (s : State) (n : Nat) (h : Keeps s0 s) {t} (ht : takeUnits s n = some t) : Keeps s0 t.2 := by
  unfold takeUnits at ht
  dsimp only at ht
  split at ht
  · simp at ht
  · simp only [Option.some.injEq] at ht
    subst ht
    exact Keeps.put h

theorem giveUnits_keeps {s0 : State} (s : State) (us : List Nat) (hK : Keeps s0 s) : Keeps s0 (giveUnits s us) := by
  unfold giveUnits
  repeat' (with_reducible first | assumption | refine Keeps.put ?_)

/-! ## Flags -/

theorem writeRecord_keeps {s0 : State} (s : State) (q : Nat) (rec : List Byte) (hK : Keeps s0 s) : Keeps s0 (writeRecord s q rec) := by
  unfold writeRecord
  repeat' (with_reducible first
      | assumption | apply bump_keeps | apply memWrite_keeps | intro _ | extract_lets | split | dsimp +zetaDelta only)

/-! ## DictOps -/

theorem setMailbox_keeps {s0 : State} (s : State) (m : Nat) (x : Mailbox) (hK : Keeps s0 s) : Keeps s0 (setMailbox s m x) := by
  unfold setMailbox
  repeat' (with_reducible first | assumption | refine Keeps.put ?_)

theorem endRequest_keeps {s0 : State} (s : State) (via : Via) (code : Nat) (hK : Keeps s0 s) : Keeps s0 (endRequest s via code) := by
  unfold endRequest
  repeat' (with_reducible first
      | assumption | apply setMailbox_keeps | refine Keeps.fst ‹_› ?_ | refine Keeps.snd ‹_› ?_ | intro _ | extract_lets | split
      | dsimp +zetaDelta only | refine Keeps.put ?_)

theorem countAbort_keeps {s0 : State} (s : State) (code : Nat) (hK : Keeps s0 s) : Keeps s0 (countAbort s code) := by
  unfold countAbort
  repeat' (with_reducible first | assumption | apply bump_keeps | intro _)

theorem dictAbort_keeps {s0 : State} (s : State) (via : Via) (code : Nat) (hK : Keeps s0 s) : Keeps s0 (dictAbort s via code) := by
  unfold dictAbort
  repeat' (with_reducible first | assumption | apply countAbort_keeps | apply endRequest_keeps | intro _)

theorem dictDone_keeps {s0 : State} (s : State) (via : Via) (hK : Keeps s0 s) : Keeps s0 (dictDone s via) := by
  unfold dictDone
  repeat' (with_reducible first | assumption | apply endRequest_keeps | apply bump_keeps | intro _)

theorem dictWriteWith_keeps {s0 : State} (effect : WriteEffect) (via : Via) (index sub : Nat) (data : List Byte) (s : State)
    (he : ∀ v i j d s, Keeps s0 s → Keeps s0 (effect v i j d s)) (hK : Keeps s0 s) : Keeps s0
    (dictWriteWith effect via index sub data s) := by
  unfold dictWriteWith
  repeat' (with_reducible first
      | assumption | apply dictDone_keeps | apply dictAbort_keeps | apply traceRec_keeps | apply he | refine Keeps.fst ‹_› ?_
      | refine Keeps.snd ‹_› ?_ | intro _ | split)

theorem unkeep_keeps {s0 : State} (s : State) (index : Nat) (hK : Keeps s0 s) : Keeps s0 (unkeep s index) := by
  unfold unkeep
  repeat' (with_reducible first | assumption | refine Keeps.put ?_)

theorem keep_keeps {s0 : State} (s : State) (index : Nat) (b : Before) (hK : Keeps s0 s) : Keeps s0 (keep s index b) := by
  unfold keep
  repeat' (with_reducible first | assumption | apply unkeep_keeps | intro _ | extract_lets | dsimp +zetaDelta only | refine Keeps.put ?_)

theorem keepBefore_keeps {s0 : State} (s : State) (via : Via) (index : Nat) (b : Before) (hK : Keeps s0 s) : Keeps s0
    (keepBefore s via index b) := by
  unfold keepBefore
  repeat' (with_reducible first | assumption | apply keep_keeps | intro _ | split)

theorem tellOutcome_keeps {s0 : State} (s : State) (index abort : Nat) (hK : Keeps s0 s) : Keeps s0 (tellOutcome s index abort) := by
  unfold tellOutcome
  repeat' (with_reducible first | assumption | apply unkeep_keeps | apply send_keeps | intro _ | split)

theorem forgetFirst_keeps {s0 : State} (s : State) (x : Xfer) (hK : Keeps s0 s) : Keeps s0 (forgetFirst s x) := by
  unfold forgetFirst
  repeat' (with_reducible first | assumption | apply tellOutcome_keeps | intro _ | split)

theorem endTransfer_keeps {s0 : State} (s : State) (m detail : Nat) (hK : Keeps s0 s) : Keeps s0 (endTransfer s m detail) := by
  unfold endTransfer
  repeat' (with_reducible first
      | assumption | apply forgetFirst_keeps | apply countAbort_keeps | apply setMailbox_keeps | refine Keeps.fst ‹_› ?_
      | refine Keeps.snd ‹_› ?_ | intro _ | extract_lets | split | dsimp +zetaDelta only | refine Keeps.put ?_)

theorem asking_keeps {s0 : State} (s : State) (via : Via) (n : Nat) (hK : Keeps s0 s) : Keeps s0 (asking s via n) := by
  unfold asking
  repeat' (with_reducible first
      | assumption | apply setMailbox_keeps | refine Keeps.fst ‹_› ?_ | refine Keeps.snd ‹_› ?_ | intro _ | split
      | refine Keeps.put ?_)

theorem startWrite_keeps {s0 : State} (s : State) (via : Via) (index sub : Nat) (data : List Byte) (hK : Keeps s0 s) : Keeps s0
    (startWrite s via index sub data) := by
  unfold startWrite
  repeat' (with_reducible first
      | assumption | apply asking_keeps | apply setMailbox_keeps | apply bumpBy_keeps | refine Keeps.fst ‹_› ?_
      | refine Keeps.snd ‹_› ?_ | intro _ | extract_lets | split | dsimp +zetaDelta only | refine Keeps.put ?_)

theorem requestWrite_keeps {s0 : State} (effect : WriteEffect) (via : Via) (index sub : Nat) (data : List Byte) (s : State)
    (he : ∀ v i j d s, Keeps s0 s → Keeps s0 (effect v i j d s)) (hK : Keeps s0 s) : Keeps s0
    (requestWrite effect via index sub data s) := by
  unfold requestWrite
  repeat' (with_reducible first
      | assumption | apply startWrite_keeps | apply asking_keeps | apply endTransfer_keeps | apply dictWriteWith_keeps
      | apply dictAbort_keeps | apply bump_keeps | apply he | refine Keeps.fst ‹_› ?_ | refine Keeps.snd ‹_› ?_ | intro _
      | extract_lets | split | dsimp +zetaDelta only)

theorem fedSend_keeps {s0 : State} (s : State) (ty dst : Nat) (payload : List Byte) (hK : Keeps s0 s) : Keeps s0
    (fedSend s ty dst payload) := by
  unfold fedSend
  repeat' (with_reducible first | assumption | apply send_keeps | intro _)

theorem sendPiece_keeps {s0 : State} (s : State) (piece : List Byte) (hK : Keeps s0 s) : Keeps s0 (sendPiece s piece) := by
  unfold sendPiece
  repeat' (with_reducible first | assumption | apply fedSend_keeps | intro _ | refine Keeps.put ?_)

theorem forward_keeps {s0 : State} (s : State) (index sub : Nat) (data : List Byte) (hK : Keeps s0 s) : Keeps s0
    (forward s index sub data) := by
  unfold forward
  repeat' (with_reducible first
      | assumption | apply sendPiece_keeps | apply Keeps.foldl | apply Keeps.foldlFst | apply Keeps.foldlSnd | intro _ | extract_lets
      | dsimp +zetaDelta only)

theorem packageDone_keeps {s0 : State} (s : State) (via : Via) (index sub : Nat) (data : List Byte) (hK : Keeps s0 s) : Keeps s0
    (packageDone s via index sub data) := by
  unfold packageDone
  repeat' (with_reducible first
      | assumption | apply forward_keeps | apply dictDone_keeps | intro _ | extract_lets | split | dsimp +zetaDelta only
      | refine Keeps.put ?_)

theorem startLong_keeps {s0 : State} (s : State) (via : Via) (index sub : Nat) (data : List Byte) (package : Bool) (bits : Nat)
    (hK : Keeps s0 s) : Keeps s0 (startLong s via index sub data package bits) := by
  unfold startLong
  repeat' (with_reducible first
      | assumption | apply forward_keeps | intro _ | extract_lets | split | dsimp +zetaDelta only | refine Keeps.put ?_)

theorem winAbortServed_keeps {s0 : State} (s : State) (m core : Nat) (hK : Keeps s0 s) : Keeps s0 (winAbortServed s m core) := by
  unfold winAbortServed
  repeat' (with_reducible first
      | assumption | apply dictDone_keeps | apply setMailbox_keeps | intro _ | extract_lets | split | dsimp +zetaDelta only
      | refine Keeps.put ?_)

theorem serveWaits_keeps {s0 : State} (s : State) (via : Via) (hK : Keeps s0 s) : Keeps s0 (serveWaits s via) := by
  unfold serveWaits
  repeat' (with_reducible first
      | assumption | apply winAbortServed_keeps | apply Keeps.foldl | apply Keeps.foldlFst | apply Keeps.foldlSnd
      | refine Keeps.fst ‹_› ?_ | refine Keeps.snd ‹_› ?_ | intro _ | split)

theorem endLong_keeps {s0 : State} (s : State) (l : LongWrite) (hK : Keeps s0 s) : Keeps s0 (endLong s l) := by
  unfold endLong
  repeat' (with_reducible first
      | assumption | apply serveWaits_keeps | apply tellOutcome_keeps | apply dictDone_keeps | apply dictAbort_keeps | apply bump_keeps
      | intro _ | extract_lets | split | dsimp +zetaDelta only | refine Keeps.put ?_)

theorem localFinish_keeps {s0 : State} (s : State) (index sub abort : Nat) (hK : Keeps s0 s) : Keeps s0
    (localFinish s index sub abort) := by
  unfold localFinish
  repeat' (with_reducible first
      | assumption | apply endLong_keeps | refine Keeps.fst ‹_› ?_ | refine Keeps.snd ‹_› ?_ | intro _ | extract_lets | split
      | dsimp +zetaDelta only | refine Keeps.put ?_)

theorem packageEffect_keeps {s0 : State} (effect : WriteEffect) (x0 : Via) (x1 : Nat) (x2 : Nat) (x3 : List Byte) (s : State)
    (he : ∀ v i j d s, Keeps s0 s → Keeps s0 (effect v i j d s)) (hK : Keeps s0 s) : Keeps s0 (packageEffect effect x0 x1 x2 x3 s) := by
  unfold packageEffect
  repeat' (with_reducible first | assumption | apply dictAbort_keeps | apply he | intro _ | split)

theorem storeEffect_keeps {s0 : State} (x0 : Via) (x1 : Nat) (x2 : Nat) (x3 : List Byte) (s : State) (hK : Keeps s0 s) : Keeps s0
    (storeEffect x0 x1 x2 x3 s) := by
  unfold storeEffect
  repeat' (with_reducible first | assumption | apply dictDone_keeps | apply objSet_keeps | intro _)

theorem storePackageEffect_keeps {s0 : State} (x0 : Via) (x1 : Nat) (x2 : Nat) (x3 : List Byte) (s : State) (hK : Keeps s0 s) : Keeps s0
    (storePackageEffect x0 x1 x2 x3 s) := by
  unfold storePackageEffect
  repeat' (with_reducible first | assumption | apply packageEffect_keeps | apply packageDone_keeps | apply objSet_keeps | intro _)

theorem claimEffect_keeps {s0 : State} (holder : Nat) (want : State → Nat → Nat → List Res) (after : WriteEffect) (x0 : Via) (x1 : Nat)
    (x2 : Nat) (x3 : List Byte) (s : State) (he : ∀ v i j d s, Keeps s0 s → Keeps s0 (after v i j d s)) (hK : Keeps s0 s) : Keeps s0
    (claimEffect holder want after x0 x1 x2 x3 s) := by
  unfold claimEffect
  repeat' (with_reducible first
      | assumption | apply dictAbort_keeps | apply claim_keeps | apply he | refine Keeps.fst ‹_› ?_ | refine Keeps.snd ‹_› ?_ | intro _
      | split)

/-! ## Admission -/

theorem writeRecordState_keeps {s0 : State} (s : State) (addr slot status state : Nat) (hK : Keeps s0 s) : Keeps s0
    (writeRecordState s addr slot status state) := by
  unfold writeRecordState
  repeat' (with_reducible first | assumption | apply memWrite_keeps | intro _)

theorem raiseRefusal_keeps {s0 : State} (s : State) (code : Nat) (hK : Keeps s0 s) : Keeps s0 (raiseRefusal s code) := by
  unfold raiseRefusal
  repeat' (with_reducible first
      | assumption | apply raiseErr_keeps | apply fire_keeps | apply bump_keeps | intro _ | extract_lets | split
      | dsimp +zetaDelta only)

theorem setUpJob_keeps {s0 : State} (s : State) (n addr : Nat) (a : Admission) (root : Bool) (hK : Keeps s0 s) : Keeps s0
    (setUpJob s n addr a root) := by
  unfold setUpJob
  repeat' (with_reducible first
      | assumption | apply setPool_keeps | apply setSlot_keeps | apply Keeps.foldl | apply Keeps.foldlFst | apply Keeps.foldlSnd
      | intro _ | extract_lets | split | dsimp +zetaDelta only | refine Keeps.put ?_)

theorem enterJob_keeps {s0 : State} (s : State) (b : List Byte) (a : Admission) (addr : Nat) (root : Bool) (e : Elsewhere) (n : Nat)
    (hK : Keeps s0 s) : Keeps s0 (enterJob s b a addr root e n).2 := by
  unfold enterJob
  repeat' (with_reducible first
      | assumption | apply setUpJob_keeps | apply raiseRefusal_keeps | apply writeRecordState_keeps | apply send_keeps
      | apply bump_keeps | intro _ | extract_lets | split | dsimp +zetaDelta only)

theorem joinJob_keeps {s0 : State} (s : State) (n addr : Nat) (hK : Keeps s0 s) : Keeps s0 (joinJob s n addr) := by
  unfold joinJob
  repeat' (with_reducible first
      | assumption | apply setUpJob_keeps | apply readMem_keeps | apply bump_keeps | refine Keeps.fst ‹_› ?_ | refine Keeps.snd ‹_› ?_
      | intro _ | extract_lets | split | dsimp +zetaDelta only)

theorem dropReservations_keeps {s0 : State} (s : State) (n : Nat) (hK : Keeps s0 s) : Keeps s0 (dropReservations s n) := by
  unfold dropReservations
  repeat' (with_reducible first
      | assumption | apply setPool_keeps | apply Keeps.foldl | apply Keeps.foldlFst | apply Keeps.foldlSnd | intro _ | extract_lets
      | dsimp +zetaDelta only | refine Keeps.put ?_)

theorem dropUser_keeps {s0 : State} (s : State) (n : Nat) (hK : Keeps s0 s) : Keeps s0 (dropUser s n) := by
  unfold dropUser
  repeat' (with_reducible first
      | assumption | apply setPair_keeps | apply Keeps.foldl | apply Keeps.foldlFst | apply Keeps.foldlSnd | intro _ | extract_lets
      | split | dsimp +zetaDelta only | refine Keeps.put ?_)

theorem recordEnd_keeps {s0 : State} (s : State) (n : Nat) (at_ : Option Nat) (state status : Nat) (hK : Keeps s0 s) : Keeps s0
    (recordEnd s n at_ state status) := by
  unfold recordEnd
  repeat' (with_reducible first
      | assumption | apply writeRecordState_keeps | refine Keeps.fst ‹_› ?_ | refine Keeps.snd ‹_› ?_ | intro _ | split)

theorem dropPoisoning_keeps {s0 : State} (s : State) (n : Nat) (hK : Keeps s0 s) : Keeps s0 (dropPoisoning s n) := by
  unfold dropPoisoning
  repeat' (with_reducible first
      | assumption | refine Keeps.fst ‹_› ?_ | refine Keeps.snd ‹_› ?_ | extract_lets | split | dsimp +zetaDelta only
      | refine Keeps.put ?_)

theorem finishJob_keeps {s0 : State} (s : State) (n state status : Nat) (hK : Keeps s0 s) : Keeps s0 (finishJob s n state status) := by
  unfold finishJob
  repeat' (with_reducible first
      | assumption | apply dropPoisoning_keeps | apply recordEnd_keeps | apply dropUser_keeps | apply dropReservations_keeps
      | apply fire_keeps | apply setSlot_keeps | intro _ | extract_lets | dsimp +zetaDelta only | refine Keeps.put ?_)

theorem endJob_keeps {s0 : State} (s : State) (n state status : Nat) (hK : Keeps s0 s) : Keeps s0 (endJob s n state status) := by
  unfold endJob
  repeat' (with_reducible first
      | assumption | apply finishJob_keeps | apply freeBuffers_keeps | apply setSlot_keeps | apply bumpBy_keeps | intro _
      | extract_lets | split | dsimp +zetaDelta only | refine Keeps.put ?_)

theorem endWaiting_keeps {s0 : State} (s : State) (n : Nat) (hK : Keeps s0 s) : Keeps s0 (endWaiting s n) := by
  unfold endWaiting
  repeat' (with_reducible first | assumption | apply finishJob_keeps | refine Keeps.fst ‹_› ?_ | refine Keeps.snd ‹_› ?_ | intro _ | split)

/-! ## Sequencer -/

theorem takeCommand_keeps {s0 : State} (s : State) (n : Nat) (hK : Keeps s0 s) : Keeps s0 (takeCommand s n) := by
  unfold takeCommand
  repeat' (with_reducible first
      | assumption | apply arbGrant_keeps | apply setSlot_keeps | apply bump_keeps | intro _ | extract_lets | dsimp +zetaDelta only
      | refine Keeps.put ?_)

theorem fetchAs_keeps {s0 : State} (s : State) (n op : Nat) (effect : Nat → Nat → State → State) (he : ∀ a b s, Keeps s0 s → Keeps s0
    (effect a b s)) (hK : Keeps s0 s) : Keeps s0 (fetchAs s n op effect) := by
  unfold fetchAs
  repeat' (with_reducible first
      | assumption | apply takeCommand_keeps | apply errFault_keeps | apply he | intro _ | extract_lets | split
      | dsimp +zetaDelta only)

theorem execSeqCommand_keeps {s0 : State} (slot : Nat) (s : State)
    (hK : Keeps s0 s) : ∃ t, execSeqCommand slot s = .next t ∧ Keeps s0 t := by
  refine ⟨_, rfl, ?_⟩
  repeat' (with_reducible first | assumption | apply takeCommand_keeps | apply errFault_keeps | intro _ | split)

theorem enterLoop_keeps {s0 : State} (s : State) (n count stop : Nat) (hK : Keeps s0 s) : Keeps s0 (enterLoop s n count stop) := by
  unfold enterLoop
  repeat' (with_reducible first | assumption | apply modSlot_keeps | intro _ | split | refine Keeps.put ?_)

theorem execLoop_keeps {s0 : State} (slot : Nat) (s : State) (hK : Keeps s0 s) : ∃ t, execLoop slot s = .next t ∧ Keeps s0 t := by
  refine ⟨_, rfl, ?_⟩
  repeat' (with_reducible first
      | assumption | apply enterLoop_keeps | apply fetchAs_keeps | apply errFault_keeps | apply modSlot_keeps | intro _ | extract_lets
      | split | dsimp +zetaDelta only | refine Keeps.put ?_)

theorem execLoopCountReturn_keeps {s0 : State} (slot : Nat) (s : State)
    (hK : Keeps s0 s) : ∃ t, execLoopCountReturn slot s = .next t ∧ Keeps s0 t := by
  refine ⟨_, rfl, ?_⟩
  repeat' (with_reducible first
      | assumption | apply enterLoop_keeps | apply readMem_keeps | refine Keeps.fst ‹_› ?_ | refine Keeps.snd ‹_› ?_ | intro _
      | extract_lets | split | dsimp +zetaDelta only)

theorem execEndloop_keeps {s0 : State} (slot : Nat) (s : State) (hK : Keeps s0 s) : ∃ t, execEndloop slot s = .next t ∧ Keeps s0 t := by
  refine ⟨_, rfl, ?_⟩
  repeat' (with_reducible first
      | assumption | apply fetchAs_keeps | apply errFault_keeps | apply modSlot_keeps | refine Keeps.fst ‹_› ?_
      | refine Keeps.snd ‹_› ?_ | intro _ | split | refine Keeps.put ?_)

theorem execJump_keeps {s0 : State} (slot : Nat) (s : State) (hK : Keeps s0 s) : ∃ t, execJump slot s = .next t ∧ Keeps s0 t := by
  refine ⟨_, rfl, ?_⟩
  repeat' (with_reducible first
      | assumption | apply fetchAs_keeps | apply errFault_keeps | apply modSlot_keeps | refine Keeps.fst ‹_› ?_
      | refine Keeps.snd ‹_› ?_ | intro _ | extract_lets | split | dsimp +zetaDelta only | refine Keeps.put ?_)

theorem execSwitch_keeps {s0 : State} (slot : Nat) (s : State) (hK : Keeps s0 s) : ∃ t, execSwitch slot s = .next t ∧ Keeps s0 t := by
  refine ⟨_, rfl, ?_⟩
  repeat' (with_reducible first
      | assumption | apply fetchAs_keeps | apply errFault_keeps | apply modSlot_keeps | intro _ | split | refine Keeps.put ?_)

theorem execHalt_keeps {s0 : State} (slot : Nat) (s : State) (hK : Keeps s0 s) : ∃ t, execHalt slot s = .next t ∧ Keeps s0 t := by
  refine ⟨_, rfl, ?_⟩
  repeat' (with_reducible first
      | assumption | apply fetchAs_keeps | apply releaseUntaken_keeps | apply stageEnds_keeps | apply modStage_keeps
      | apply modSlot_keeps | apply Keeps.foldl | apply Keeps.foldlFst | apply Keeps.foldlSnd | intro _ | extract_lets
      | dsimp +zetaDelta only | refine Keeps.put ?_)

theorem askNext_keeps {s0 : State} (s : State) (n q : Nat) (hK : Keeps s0 s) : Keeps s0 (askNext s n q) := by
  unfold askNext
  repeat' (with_reducible first
      | assumption | apply modCmd_keeps | apply semWait_keeps | refine Keeps.fst ‹_› ?_ | refine Keeps.snd ‹_› ?_ | intro _
      | extract_lets | split | dsimp +zetaDelta only | refine Keeps.put ?_)

theorem enqueueAs_keeps {s0 : State} (s : State) (n op : Nat) (fits : Nat → Bool) (hK : Keeps s0 s) : Keeps s0 (enqueueAs s n op fits) := by
  unfold enqueueAs
  repeat' (with_reducible first
      | assumption | apply askNext_keeps | apply takeCommand_keeps | apply errFault_keeps | intro _ | extract_lets | split
      | dsimp +zetaDelta only | refine Keeps.put ?_)

theorem execWaitSemaphore_keeps {s0 : State} (slot : Nat) (s : State)
    (hK : Keeps s0 s) : ∃ t, execWaitSemaphore slot s = .next t ∧ Keeps s0 t := by
  refine ⟨_, rfl, ?_⟩
  repeat' (with_reducible first | assumption | apply enqueueAs_keeps | intro _)

theorem execWaitBarrier_keeps {s0 : State} (slot : Nat) (s : State)
    (hK : Keeps s0 s) : ∃ t, execWaitBarrier slot s = .next t ∧ Keeps s0 t := by
  refine ⟨_, rfl, ?_⟩
  repeat' (with_reducible first | assumption | apply enqueueAs_keeps | intro _)

theorem execWaitTime_keeps {s0 : State} (slot : Nat) (s : State) (hK : Keeps s0 s) : ∃ t, execWaitTime slot s = .next t ∧ Keeps s0 t := by
  refine ⟨_, rfl, ?_⟩
  repeat' (with_reducible first | assumption | apply enqueueAs_keeps | intro _)

theorem execSignal_keeps {s0 : State} (src : SignalSource) (s : State)
    (hK : Keeps s0 s) : ∃ t, execSignal src s = .next t ∧ Keeps s0 t := by
  refine ⟨_, rfl, ?_⟩
  repeat' (with_reducible first
      | assumption | apply enqueueAs_keeps | apply semSignal_keeps | refine Keeps.fst ‹_› ?_ | refine Keeps.snd ‹_› ?_ | intro _
      | split)

theorem execTxaItem_keeps {s0 : State} (slot : Nat) (s : State) (hK : Keeps s0 s) : ∃ t, execTxaItem slot s = .next t ∧ Keeps s0 t := by
  refine ⟨_, rfl, ?_⟩
  repeat' (with_reducible first | assumption | apply enqueueAs_keeps | intro _)

theorem execForgeItem_keeps {s0 : State} (slot : Nat) (s : State) (hK : Keeps s0 s) : ∃ t, execForgeItem slot s = .next t ∧ Keeps s0 t := by
  refine ⟨_, rfl, ?_⟩
  repeat' (with_reducible first | assumption | apply enqueueAs_keeps | intro _)

theorem execDeliver_keeps {s0 : State} (slot : Nat) (s : State) (hK : Keeps s0 s) : ∃ t, execDeliver slot s = .next t ∧ Keeps s0 t := by
  refine ⟨_, rfl, ?_⟩
  repeat' (with_reducible first | assumption | apply enqueueAs_keeps | intro _)

theorem execKeyRegister_keeps {s0 : State} (slot : Nat) (s : State)
    (hK : Keeps s0 s) : ∃ t, execKeyRegister slot s = .next t ∧ Keeps s0 t := by
  refine ⟨_, rfl, ?_⟩
  repeat' (with_reducible first | assumption | apply enqueueAs_keeps | intro _)

theorem execKeyStream_keeps {s0 : State} (slot : Nat) (s : State) (hK : Keeps s0 s) : ∃ t, execKeyStream slot s = .next t ∧ Keeps s0 t := by
  refine ⟨_, rfl, ?_⟩
  repeat' (with_reducible first | assumption | apply enqueueAs_keeps | intro _)

theorem execIngestStage_keeps {s0 : State} (slot : Nat) (s : State)
    (hK : Keeps s0 s) : ∃ t, execIngestStage slot s = .next t ∧ Keeps s0 t := by
  refine ⟨_, rfl, ?_⟩
  repeat' (with_reducible first | assumption | apply enqueueAs_keeps | intro _)

theorem execBatchStage_keeps {s0 : State} (slot : Nat) (s : State)
    (hK : Keeps s0 s) : ∃ t, execBatchStage slot s = .next t ∧ Keeps s0 t := by
  refine ⟨_, rfl, ?_⟩
  repeat' (with_reducible first | assumption | apply enqueueAs_keeps | intro _)

theorem execFetch_keeps {s0 : State} (slot : Nat) (s : State) (hK : Keeps s0 s) : ∃ t, execFetch slot s = .next t ∧ Keeps s0 t := by
  refine ⟨_, rfl, ?_⟩
  repeat' (with_reducible first | assumption | apply enqueueAs_keeps | intro _)

theorem execAlloc_keeps {s0 : State} (slot : Nat) (s : State) (hK : Keeps s0 s) : ∃ t, execAlloc slot s = .next t ∧ Keeps s0 t := by
  refine ⟨_, rfl, ?_⟩
  repeat' (with_reducible first | assumption | apply enqueueAs_keeps | intro _)

theorem execFree_keeps {s0 : State} (slot : Nat) (s : State) (hK : Keeps s0 s) : ∃ t, execFree slot s = .next t ∧ Keeps s0 t := by
  refine ⟨_, rfl, ?_⟩
  repeat' (with_reducible first | assumption | apply enqueueAs_keeps | intro _)

theorem execWaitTimeExpiry_keeps {s0 : State} (slot queue : Nat) (s : State)
    (hK : Keeps s0 s) : ∃ t, execWaitTimeExpiry slot queue s = .next t ∧ Keeps s0 t := by
  refine ⟨_, rfl, ?_⟩
  repeat' (with_reducible first | assumption | apply finishCmd_keeps | refine Keeps.fst ‹_› ?_ | refine Keeps.snd ‹_› ?_ | intro _ | split)

theorem completeCmd_keeps {s0 : State} (s : State) (c : Cmd) (hK : Keeps s0 s) : Keeps s0 (completeCmd s c) := by
  unfold completeCmd
  repeat' (with_reducible first
      | assumption | apply writeRecord_keeps | apply pushEntry_keeps | apply semSignal_keeps | apply traceRec_keeps
      | refine Keeps.fst ‹_› ?_ | refine Keeps.snd ‹_› ?_ | intro _ | extract_lets | split | dsimp +zetaDelta only
      | refine Keeps.put ?_)

theorem execCommandComplete_keeps {s0 : State} (slot queue : Nat) (s : State)
    (hK : Keeps s0 s) : ∃ t, execCommandComplete slot queue s = .next t ∧ Keeps s0 t := by
  refine ⟨_, rfl, ?_⟩
  repeat' (with_reducible first
      | assumption | apply completeCmd_keeps | refine Keeps.fst ‹_› ?_ | refine Keeps.snd ‹_› ?_ | intro _ | split)

theorem execFetchlist_keeps {s0 : State} (slot : Nat) (s : State) (hK : Keeps s0 s) : ∃ t, execFetchlist slot s = .next t ∧ Keeps s0 t := by
  refine ⟨_, rfl, ?_⟩
  repeat' (with_reducible first
      | assumption | apply fetchAs_keeps | apply errFault_keeps | apply modSlot_keeps | intro _ | split | refine Keeps.put ?_)

theorem endList_keeps {s0 : State} (s : State) (n : Nat) (hK : Keeps s0 s) : Keeps s0 (endList s n) := by
  unfold endList
  repeat' (with_reducible first | assumption | apply modSlot_keeps | intro _ | refine Keeps.put ?_)

theorem execJoblistRecordReturn_keeps {s0 : State} (slot : Nat) (elsewhere : Elsewhere) (s : State)
    (hK : Keeps s0 s) : ∃ t, execJoblistRecordReturn slot elsewhere s = .next t ∧ Keeps s0 t := by
  refine ⟨_, rfl, ?_⟩
  repeat' (with_reducible first
      | assumption | apply endList_keeps | apply enterJob_keeps | apply readMem_keeps | apply modSlot_keeps | apply bump_keeps
      | refine Keeps.fst ‹_› ?_ | refine Keeps.snd ‹_› ?_ | intro _ | extract_lets | split | dsimp +zetaDelta only
      | refine Keeps.put ?_)

theorem rootStartEffect_keeps {s0 : State} (elsewhere : Elsewhere) (x0 : Via) (x1 : Nat) (x2 : Nat) (x3 : List Byte) (s : State)
    (hK : Keeps s0 s) : Keeps s0 (rootStartEffect elsewhere x0 x1 x2 x3 s) := by
  unfold rootStartEffect
  repeat' (with_reducible first
      | assumption | apply enterJob_keeps | apply dictDone_keeps | apply dictAbort_keeps | apply readMem_keeps
      | refine Keeps.fst ‹_› ?_ | refine Keeps.snd ‹_› ?_ | intro _ | extract_lets | split | dsimp +zetaDelta only
      | refine Keeps.put ?_)

theorem execRootStart_keeps {s0 : State} (via : Via) (value : Nat) (elsewhere : Elsewhere) (s : State)
    (hK : Keeps s0 s) : ∃ t, execRootStart via value elsewhere s = .next t ∧ Keeps s0 t := by
  refine ⟨_, rfl, ?_⟩
  repeat' (with_reducible first
      | assumption | apply rootStartEffect_keeps | apply joinJob_keeps | apply requestWrite_keeps | intro _ | split)

theorem resumeParked_keeps {s0 : State} (s : State) (hK : Keeps s0 s) : Keeps s0 (resumeParked s) := by
  unfold resumeParked
  repeat' (with_reducible first
      | assumption | apply setSlot_keeps | apply Keeps.foldl | apply Keeps.foldlFst | apply Keeps.foldlSnd | intro _ | extract_lets
      | split | dsimp +zetaDelta only | refine Keeps.put ?_)

theorem disarm_keeps {s0 : State} (s : State) (hK : Keeps s0 s) : Keeps s0 (disarm s) := by
  unfold disarm
  repeat' (with_reducible first
      | assumption | apply resumeParked_keeps | apply unkeep_keeps | intro _ | extract_lets | split | dsimp +zetaDelta only
      | refine Keeps.put ?_)

theorem storeBank_keeps {s0 : State} (s : State) (bank : Nat) (data : List Byte) (h : Keeps s0 s) : Keeps s0 (storeBank s bank data) := by
  refine Keeps.putMem h (hm := fun w => ?_)
  split
  · exact ⟨w.1, w.2.1, w.2.2.1, w.2.2.2.1, cellsSet_wf _ _ _ rfl, w.2.2.2.2.2⟩
  · exact ⟨w.1, w.2.1, w.2.2.1, w.2.2.2.1, w.2.2.2.2.1, cellsSet_wf _ _ _ rfl⟩

theorem progBankEffect_keeps {s0 : State} (bank : Nat) (x0 : Via) (x1 : Nat) (x2 : Nat) (x3 : List Byte) (s : State)
    (hK : Keeps s0 s) : Keeps s0 (progBankEffect bank x0 x1 x2 x3 s) := by
  unfold progBankEffect
  repeat' (with_reducible first
      | assumption | apply storeBank_keeps | apply disarm_keeps | apply packageEffect_keeps | apply packageDone_keeps
      | apply dictAbort_keeps | apply raiseErr_keeps | intro _ | split)

theorem execProgBankWrite_keeps {s0 : State} (via : Via) (bank : Nat) (data : List Byte) (s : State)
    (hK : Keeps s0 s) : ∃ t, execProgBankWrite via bank data s = .next t ∧ Keeps s0 t := by
  refine ⟨_, rfl, ?_⟩
  repeat' (with_reducible first | assumption | apply progBankEffect_keeps | apply requestWrite_keeps | intro _)

theorem arm_keeps {s0 : State} (s : State) (hK : Keeps s0 s) : Keeps s0 (arm s) := by
  unfold arm
  repeat' (with_reducible first | assumption | refine Keeps.put ?_)

theorem progArmEffect_keeps {s0 : State} (x0 : Via) (x1 : Nat) (x2 : Nat) (x3 : List Byte) (s : State) (hK : Keeps s0 s) : Keeps s0
    (progArmEffect x0 x1 x2 x3 s) := by
  unfold progArmEffect
  repeat' (with_reducible first
      | assumption | apply arm_keeps | apply packageEffect_keeps | apply packageDone_keeps | apply keep_keeps | apply dictDone_keeps
      | apply dictAbort_keeps | apply raiseErr_keeps | intro _ | split)

theorem execProgArm_keeps {s0 : State} (via : Via) (crc : Nat) (s : State)
    (hK : Keeps s0 s) : ∃ t, execProgArm via crc s = .next t ∧ Keeps s0 t := by
  refine ⟨_, rfl, ?_⟩
  repeat' (with_reducible first | assumption | apply progArmEffect_keeps | apply requestWrite_keeps | intro _)

theorem execBankSwap_keeps {s0 : State} (s : State) (hK : Keeps s0 s) : ∃ t, execBankSwap s = .next t ∧ Keeps s0 t := by
  refine ⟨_, rfl, ?_⟩
  repeat' (with_reducible first | assumption | apply resumeParked_keeps | apply fire_keeps | intro _ | split | refine Keeps.put ?_)

theorem semDepthEffect_keeps {s0 : State} (via : Via) (index sub : Nat) (data : List Byte) (s : State) (h : Keeps s0 s) :
    Keeps s0 (semDepthEffect via index sub data s) := by
  unfold semDepthEffect
  dsimp only
  split
  · exact dictAbort_keeps _ _ _ h
  · exact dictDone_keeps _ _ (clearLink_keeps _ _ (setPair_keeps h _ _ fun _ => Nat.le_of_eq (Nat.add_zero _)))

theorem execSemDepthWrite_keeps {s0 : State} (via : Via) (pair depth : Nat) (s : State)
    (hK : Keeps s0 s) : ∃ t, execSemDepthWrite via pair depth s = .next t ∧ Keeps s0 t := by
  refine ⟨_, rfl, ?_⟩
  repeat' (with_reducible first | assumption | apply semDepthEffect_keeps | apply requestWrite_keeps | intro _)

theorem closeContexts_keeps {s0 : State} (s : State) (n : Nat) (hK : Keeps s0 s) : Keeps s0 (closeContexts s n) := by
  unfold closeContexts
  repeat' (with_reducible first | assumption | apply dropContexts_keeps | apply freeBuffers_keeps | intro _)

theorem execJobEnd_keeps {s0 : State} (slot : Nat) (othersReady : Bool) (s : State)
    (hK : Keeps s0 s) : ∃ t, execJobEnd slot othersReady s = .next t ∧ Keeps s0 t := by
  refine ⟨_, rfl, ?_⟩
  repeat' (with_reducible first
      | assumption | apply closeContexts_keeps | apply endJob_keeps | intro _ | extract_lets | split | dsimp +zetaDelta only)

theorem execSlotFaultPropagation_keeps {s0 : State} (slot code die : Nat) (s : State)
    (hK : Keeps s0 s) : ∃ t, execSlotFaultPropagation slot code die s = .next t ∧ Keeps s0 t := by
  refine ⟨_, rfl, ?_⟩
  repeat' (with_reducible first
      | assumption | apply slotFault_keeps | apply faultHere_keeps | apply setSlot_keeps | intro _ | extract_lets | split
      | dsimp +zetaDelta only | refine Keeps.put ?_)

/-! ## Pools -/

theorem poolEnableEffect_keeps {s0 : State} (x0 : Via) (x1 : Nat) (x2 : Nat) (x3 : List Byte) (s : State) (hK : Keeps s0 s) : Keeps s0
    (poolEnableEffect x0 x1 x2 x3 s) := by
  unfold poolEnableEffect
  repeat' (with_reducible first
      | assumption | apply startLong_keeps | apply dictDone_keeps | apply dictAbort_keeps | apply setPool_keeps | apply claim_keeps
      | apply raiseErr_keeps | refine Keeps.fst ‹_› ?_ | refine Keeps.snd ‹_› ?_ | intro _ | extract_lets | split
      | dsimp +zetaDelta only | refine Keeps.put ?_)

theorem execPoolEnableWrite_keeps {s0 : State} (via : Via) (pool : Nat) (s : State)
    (hK : Keeps s0 s) : ∃ t, execPoolEnableWrite via pool s = .next t ∧ Keeps s0 t := by
  refine ⟨_, rfl, ?_⟩
  repeat' (with_reducible first | assumption | apply poolEnableEffect_keeps | apply requestWrite_keeps | intro _)

theorem execPoolInitComplete_keeps {s0 : State} (pool : Nat) (s : State)
    (hK : Keeps s0 s) : ∃ t, execPoolInitComplete pool s = .next t ∧ Keeps s0 t := by
  refine ⟨_, rfl, ?_⟩
  repeat' (with_reducible first
      | assumption | apply localFinish_keeps | apply poolBalance_keeps | apply setPool_keeps | apply objSet_keeps
      | apply memWrite_keeps | intro _ | extract_lets | split | dsimp +zetaDelta only | refine Keeps.put ?_)

theorem poolDisableEffect_keeps {s0 : State} (x0 : Via) (x1 : Nat) (x2 : Nat) (x3 : List Byte) (s : State) (hK : Keeps s0 s) : Keeps s0
    (poolDisableEffect x0 x1 x2 x3 s) := by
  unfold poolDisableEffect
  repeat' (with_reducible first
      | assumption | apply dictDone_keeps | apply dictAbort_keeps | apply setPool_keeps | apply release_keeps | apply objSet_keeps
      | intro _ | extract_lets | split | dsimp +zetaDelta only)

theorem execPoolDisableWrite_keeps {s0 : State} (via : Via) (pool : Nat) (s : State)
    (hK : Keeps s0 s) : ∃ t, execPoolDisableWrite via pool s = .next t ∧ Keeps s0 t := by
  refine ⟨_, rfl, ?_⟩
  repeat' (with_reducible first | assumption | apply poolDisableEffect_keeps | apply requestWrite_keeps | intro _)

theorem execPoolAllocRequest_keeps {s0 : State} (slot size : Nat) (s : State)
    (hK : Keeps s0 s) : ∃ t, execPoolAllocRequest slot size s = .next t ∧ Keeps s0 t := by
  refine ⟨_, rfl, ?_⟩
  repeat' (with_reducible first | assumption | apply poolRequest_keeps | intro _ | split)

theorem execPoolAllocGrant_keeps {s0 : State} (pool waitedFclk : Nat) (s : State)
    (hK : Keeps s0 s) : ∃ t, execPoolAllocGrant pool waitedFclk s = .next t ∧ Keeps s0 t := by
  refine ⟨_, rfl, ?_⟩
  repeat' (with_reducible first
      | assumption | apply moveBlocked_keeps | apply takeIndex_keeps | apply setPool_keeps | refine Keeps.fst ‹_› ?_
      | refine Keeps.snd ‹_› ?_ | intro _ | extract_lets | split | dsimp +zetaDelta only | refine Keeps.put ?_)

theorem damageEntry_keeps {s0 : State} (p : Nat) (s : State) (k : Nat) (hK : Keeps s0 s) : Keeps s0 (damageEntry p s k) := by
  unfold damageEntry
  repeat' (with_reducible first
      | assumption | apply setPool_keeps | apply otherSramAddr_keeps | refine Keeps.fst ‹_› ?_ | refine Keeps.snd ‹_› ?_ | intro _
      | extract_lets | split | dsimp +zetaDelta only | refine Keeps.put ?_)

theorem execPoolRefillReturn_keeps {s0 : State} (pool : Nat) (poisoned damaged : List Nat) (s : State)
    (hK : Keeps s0 s) : ∃ t, execPoolRefillReturn pool poisoned damaged s = .next t ∧ Keeps s0 t := by
  refine ⟨_, rfl, ?_⟩
  repeat' (with_reducible first
      | assumption | apply damageEntry_keeps | apply quarantine_keeps | apply blockExcess_keeps | apply poolBalance_keeps
      | apply lowWater_keeps | apply setPool_keeps | apply memError_keeps | apply Keeps.foldl | apply Keeps.foldlFst
      | apply Keeps.foldlSnd | refine Keeps.fst ‹_› ?_ | refine Keeps.snd ‹_› ?_ | intro _ | extract_lets | split
      | dsimp +zetaDelta only | refine Keeps.put ?_)

theorem dropSpilled_keeps {s0 : State} (s : State) (p : Nat) (hK : Keeps s0 s) : Keeps s0 (dropSpilled s p) := by
  unfold dropSpilled
  repeat' (with_reducible first
      | assumption | apply dropEntry_keeps | apply Keeps.foldl | apply Keeps.foldlFst | apply Keeps.foldlSnd | intro _)

theorem execPoolSpillDone_keeps {s0 : State} (pool : Nat) (s : State)
    (hK : Keeps s0 s) : ∃ t, execPoolSpillDone pool s = .next t ∧ Keeps s0 t := by
  refine ⟨_, rfl, ?_⟩
  repeat' (with_reducible first
      | assumption | apply dropSpilled_keeps | apply poolBalance_keeps | apply setPool_keeps | apply memWrite_keeps | apply Keeps.foldl
      | apply Keeps.foldlFst | apply Keeps.foldlSnd | intro _ | extract_lets | split | dsimp +zetaDelta only | refine Keeps.put ?_)

theorem execPoolFreeRequest_keeps {s0 : State} (slot addr : Nat) (s : State)
    (hK : Keeps s0 s) : ∃ t, execPoolFreeRequest slot addr s = .next t ∧ Keeps s0 t := by
  refine ⟨_, rfl, ?_⟩
  repeat' (with_reducible first | assumption | apply presentFree_keeps | intro _ | split | refine Keeps.put ?_)

theorem checkFree_keeps {s0 : State} (s : State) (p n i : Nat) (hK : Keeps s0 s) : Keeps s0 (checkFree s p n i) := by
  unfold checkFree
  repeat' (with_reducible first
      | assumption | apply blockExcess_keeps | apply setStateBit_keeps | apply setPool_keeps | apply raiseErr_keeps | apply bump_keeps
      | intro _ | extract_lets | split | dsimp +zetaDelta only | refine Keeps.put ?_)

theorem execPoolFreeCheck_keeps {s0 : State} (pool : Nat) (poisoned : Bool) (s : State)
    (hK : Keeps s0 s) : ∃ t, execPoolFreeCheck pool poisoned s = .next t ∧ Keeps s0 t := by
  refine ⟨_, rfl, ?_⟩
  repeat' (with_reducible first
      | assumption | apply checkFree_keeps | apply endWaiting_keeps | apply acceptWaiting_keeps | apply runSets_keeps
      | apply readStateLine_keeps | apply poolBalance_keeps | apply setPool_keeps | apply Keeps.foldl | apply Keeps.foldlFst
      | apply Keeps.foldlSnd | refine Keeps.fst ‹_› ?_ | refine Keeps.snd ‹_› ?_ | intro _ | extract_lets | split
      | dsimp +zetaDelta only | refine Keeps.put ?_)

theorem execPoolDeadlock_keeps {s0 : State} (waitedFclk blockedFclk : Nat) (s : State)
    (hK : Keeps s0 s) : ∃ t, execPoolDeadlock waitedFclk blockedFclk s = .next t ∧ Keeps s0 t := by
  refine ⟨_, rfl, ?_⟩
  repeat' (with_reducible first
      | assumption | apply blockedFclk_keeps | apply answer_keeps | apply setPool_keeps | apply raiseErr_keeps | apply bumpBy_keeps
      | apply Keeps.foldl | apply Keeps.foldlFst | apply Keeps.foldlSnd | refine Keeps.fst ‹_› ?_ | refine Keeps.snd ‹_› ?_ | intro _
      | extract_lets | split | dsimp +zetaDelta only | refine Keeps.put ?_)

theorem execRetryBackoffExpiry_keeps {s0 : State} (slot unit : Nat) (s : State)
    (hK : Keeps s0 s) : ∃ t, execRetryBackoffExpiry slot unit s = .next t ∧ Keeps s0 t := by
  refine ⟨_, rfl, ?_⟩
  repeat' (with_reducible first | assumption | apply modSlot_keeps | intro _ | refine Keeps.put ?_)

/-! ## Events -/

theorem evtTakeEffect_keeps {s0 : State} (x0 : Via) (x1 : Nat) (x2 : Nat) (x3 : List Byte) (s : State) (hK : Keeps s0 s) : Keeps s0
    (evtTakeEffect x0 x1 x2 x3 s) := by
  unfold evtTakeEffect
  repeat' (with_reducible first
      | assumption | apply dictDone_keeps | apply dictAbort_keeps | apply setSrc_keeps | apply traceRec_keeps | apply bump_keeps
      | apply objSet_keeps | intro _ | extract_lets | split | dsimp +zetaDelta only | refine Keeps.put ?_)

theorem execEvtTake_keeps {s0 : State} (via : Via) (core source : Nat) (s : State)
    (hK : Keeps s0 s) : ∃ t, execEvtTake via core source s = .next t ∧ Keeps s0 t := by
  refine ⟨_, rfl, ?_⟩
  repeat' (with_reducible first | assumption | apply evtTakeEffect_keeps | apply requestWrite_keeps | intro _)

theorem evtDoneEffect_keeps {s0 : State} (x0 : Via) (x1 : Nat) (x2 : Nat) (x3 : List Byte) (s : State) (hK : Keeps s0 s) : Keeps s0
    (evtDoneEffect x0 x1 x2 x3 s) := by
  unfold evtDoneEffect
  repeat' (with_reducible first
      | assumption | apply dictDone_keeps | apply dictAbort_keeps | apply setPending_keeps | apply setSrc_keeps | intro _
      | extract_lets | split | dsimp +zetaDelta only | refine Keeps.put ?_)

theorem execEvtDone_keeps {s0 : State} (via : Via) (core source : Nat) (s : State)
    (hK : Keeps s0 s) : ∃ t, execEvtDone via core source s = .next t ∧ Keeps s0 t := by
  refine ⟨_, rfl, ?_⟩
  repeat' (with_reducible first | assumption | apply evtDoneEffect_keeps | apply requestWrite_keeps | intro _)

theorem pendSetEffect_keeps {s0 : State} (x0 : Via) (x1 : Nat) (x2 : Nat) (x3 : List Byte) (s : State) (hK : Keeps s0 s) : Keeps s0
    (pendSetEffect x0 x1 x2 x3 s) := by
  unfold pendSetEffect
  repeat' (with_reducible first
      | assumption | apply dictDone_keeps | apply setPending_keeps | apply Keeps.foldl | apply Keeps.foldlFst | apply Keeps.foldlSnd
      | intro _ | split)

theorem execEvtPendSet_keeps {s0 : State} (via : Via) (word bits : Nat) (s : State)
    (hK : Keeps s0 s) : ∃ t, execEvtPendSet via word bits s = .next t ∧ Keeps s0 t := by
  refine ⟨_, rfl, ?_⟩
  repeat' (with_reducible first | assumption | apply pendSetEffect_keeps | apply requestWrite_keeps | intro _)

theorem pendClearEffect_keeps {s0 : State} (x0 : Via) (x1 : Nat) (x2 : Nat) (x3 : List Byte) (s : State) (hK : Keeps s0 s) : Keeps s0
    (pendClearEffect x0 x1 x2 x3 s) := by
  unfold pendClearEffect
  repeat' (with_reducible first
      | assumption | apply dictDone_keeps | apply setSrc_keeps | apply Keeps.foldl | apply Keeps.foldlFst | apply Keeps.foldlSnd
      | intro _ | refine Keeps.put ?_)

theorem execEvtPendClear_keeps {s0 : State} (via : Via) (word bits : Nat) (s : State)
    (hK : Keeps s0 s) : ∃ t, execEvtPendClear via word bits s = .next t ∧ Keeps s0 t := by
  refine ⟨_, rfl, ?_⟩
  repeat' (with_reducible first | assumption | apply pendClearEffect_keeps | apply requestWrite_keeps | intro _)

theorem latchClearEffect_keeps {s0 : State} (x0 : Via) (x1 : Nat) (x2 : Nat) (x3 : List Byte) (s : State) (hK : Keeps s0 s) : Keeps s0
    (latchClearEffect x0 x1 x2 x3 s) := by
  unfold latchClearEffect
  repeat' (with_reducible first
      | assumption | apply dictDone_keeps | apply setSrc_keeps | apply Keeps.foldl | apply Keeps.foldlFst | apply Keeps.foldlSnd
      | intro _ | refine Keeps.put ?_)

theorem execEvtLatchClear_keeps {s0 : State} (via : Via) (word bits : Nat) (s : State)
    (hK : Keeps s0 s) : ∃ t, execEvtLatchClear via word bits s = .next t ∧ Keeps s0 t := by
  refine ⟨_, rfl, ?_⟩
  repeat' (with_reducible first | assumption | apply latchClearEffect_keeps | apply requestWrite_keeps | intro _)

theorem swRaiseEffect_keeps {s0 : State} (x0 : Via) (x1 : Nat) (x2 : Nat) (x3 : List Byte) (s : State) (hK : Keeps s0 s) : Keeps s0
    (swRaiseEffect x0 x1 x2 x3 s) := by
  unfold swRaiseEffect
  repeat' (with_reducible first | assumption | apply dictDone_keeps | apply fireAll_keeps | intro _)

theorem execEvtSwRaise_keeps {s0 : State} (via : Via) (word bits : Nat) (s : State)
    (hK : Keeps s0 s) : ∃ t, execEvtSwRaise via word bits s = .next t ∧ Keeps s0 t := by
  refine ⟨_, rfl, ?_⟩
  repeat' (with_reducible first | assumption | apply swRaiseEffect_keeps | apply requestWrite_keeps | intro _)

theorem evtCfgEffect_keeps {s0 : State} (x0 : Via) (x1 : Nat) (x2 : Nat) (x3 : List Byte) (s : State) (hK : Keeps s0 s) : Keeps s0
    (evtCfgEffect x0 x1 x2 x3 s) := by
  unfold evtCfgEffect
  repeat' (with_reducible first
      | assumption | apply packageEffect_keeps | apply packageDone_keeps | apply cutShortWith_keeps | apply setSrc_keeps | intro _
      | extract_lets | split | dsimp +zetaDelta only | refine Keeps.put ?_)

theorem execEvtCfgWrite_keeps {s0 : State} (via : Via) (source value : Nat) (s : State)
    (hK : Keeps s0 s) : ∃ t, execEvtCfgWrite via source value s = .next t ∧ Keeps s0 t := by
  refine ⟨_, rfl, ?_⟩
  repeat' (with_reducible first | assumption | apply evtCfgEffect_keeps | apply requestWrite_keeps | intro _)

theorem grpTimeEffect_keeps {s0 : State} (x0 : Via) (x1 : Nat) (x2 : Nat) (x3 : List Byte) (s : State) (hK : Keeps s0 s) : Keeps s0
    (grpTimeEffect x0 x1 x2 x3 s) := by
  unfold grpTimeEffect
  repeat' (with_reducible first
      | assumption | apply claimEffect_keeps | apply packageEffect_keeps | apply packageDone_keeps | apply objSet_keeps | intro _
      | split)

theorem execEvtGrpTimeWrite_keeps {s0 : State} (via : Via) (group value : Nat) (s : State)
    (hK : Keeps s0 s) : ∃ t, execEvtGrpTimeWrite via group value s = .next t ∧ Keeps s0 t := by
  refine ⟨_, rfl, ?_⟩
  repeat' (with_reducible first | assumption | apply grpTimeEffect_keeps | apply requestWrite_keeps | intro _)

theorem execCoreMaskWrite_keeps {s0 : State} (via : Via) (core value : Nat) (s : State)
    (hK : Keeps s0 s) : ∃ t, execCoreMaskWrite via core value s = .next t ∧ Keeps s0 t := by
  refine ⟨_, rfl, ?_⟩
  repeat' (with_reducible first | assumption | apply storeEffect_keeps | apply requestWrite_keeps | intro _)

theorem execCoreSleepEnter_keeps {s0 : State} (core : Nat) (s : State)
    (hK : Keeps s0 s) : ∃ t, execCoreSleepEnter core s = .next t ∧ Keeps s0 t := by
  refine ⟨_, rfl, ?_⟩
  repeat' (with_reducible first
      | assumption | apply cutShort_keeps | apply wakeUp_keeps | apply setCore_keeps | intro _ | extract_lets | split
      | dsimp +zetaDelta only | refine Keeps.put ?_)

theorem execCoreSleepExit_keeps {s0 : State} (core : Nat) (s : State)
    (hK : Keeps s0 s) : ∃ t, execCoreSleepExit core s = .next t ∧ Keeps s0 t := by
  refine ⟨_, rfl, ?_⟩
  repeat' (with_reducible first | assumption | apply setCore_keeps | intro _ | refine Keeps.put ?_)

theorem execHoldoffTimerExpiry_keeps {s0 : State} (group : Nat) (s : State)
    (hK : Keeps s0 s) : ∃ t, execHoldoffTimerExpiry group s = .next t ∧ Keeps s0 t := by
  refine ⟨_, rfl, ?_⟩
  repeat' (with_reducible first | assumption | apply releaseGroup_keeps | intro _ | split)

theorem epinEffect_keeps {s0 : State} (x0 : Via) (x1 : Nat) (x2 : Nat) (x3 : List Byte) (s : State) (hK : Keeps s0 s) : Keeps s0
    (epinEffect x0 x1 x2 x3 s) := by
  unfold epinEffect
  repeat' (with_reducible first
      | assumption | apply claimEffect_keeps | apply dictDone_keeps | apply objSet_keeps | refine Keeps.fst ‹_› ?_
      | refine Keeps.snd ‹_› ?_ | intro _ | extract_lets | split | dsimp +zetaDelta only | refine Keeps.put ?_)

theorem execEpinAssignWrite_keeps {s0 : State} (via : Via) (object value : Nat) (s : State)
    (hK : Keeps s0 s) : ∃ t, execEpinAssignWrite via object value s = .next t ∧ Keeps s0 t := by
  refine ⟨_, rfl, ?_⟩
  repeat' (with_reducible first | assumption | apply epinEffect_keeps | apply requestWrite_keeps | intro _)

theorem execPinPulseEnd_keeps {s0 : State} (pin : Nat) (s : State)
    (hK : Keeps s0 s) : ∃ t, execPinPulseEnd pin s = .next t ∧ Keeps s0 t := by
  refine ⟨_, rfl, ?_⟩
  repeat' (with_reducible first | assumption | refine Keeps.put ?_)

theorem watchdogEffect_keeps {s0 : State} (x0 : Via) (x1 : Nat) (x2 : Nat) (x3 : List Byte) (s : State) (hK : Keeps s0 s) : Keeps s0
    (watchdogEffect x0 x1 x2 x3 s) := by
  unfold watchdogEffect
  repeat' (with_reducible first | assumption | apply claimEffect_keeps | apply storeEffect_keeps | intro _ | split)

theorem execWatchdogEnableWrite_keeps {s0 : State} (via : Via) (value : Nat) (s : State)
    (hK : Keeps s0 s) : ∃ t, execWatchdogEnableWrite via value s = .next t ∧ Keeps s0 t := by
  refine ⟨_, rfl, ?_⟩
  repeat' (with_reducible first | assumption | apply watchdogEffect_keeps | apply requestWrite_keeps | intro _)

theorem execWatchdogKick_keeps {s0 : State} (via : Via) (value : Nat) (s : State)
    (hK : Keeps s0 s) : ∃ t, execWatchdogKick via value s = .next t ∧ Keeps s0 t := by
  refine ⟨_, rfl, ?_⟩
  repeat' (with_reducible first | assumption | apply requestWrite_keeps | apply dictDone_keeps | intro _)

theorem execWatchdogExpiry_keeps {s0 : State} (s : State) (hK : Keeps s0 s) : ∃ t, execWatchdogExpiry s = .next t ∧ Keeps s0 t := by
  refine ⟨_, rfl, ?_⟩
  repeat' (with_reducible first | assumption | apply fire_keeps | apply bump_keeps | intro _ | split)

/-! ## Debug -/

theorem startTrace_keeps {s0 : State} (s : State) (hK : Keeps s0 s) : Keeps s0 (startTrace s) := by
  unfold startTrace
  repeat' (with_reducible first | assumption | apply claim_keeps | apply objSet_keeps | intro _ | split | refine Keeps.put ?_)

theorem stopTrace_keeps {s0 : State} (s : State) (hK : Keeps s0 s) : Keeps s0 (stopTrace s) := by
  unfold stopTrace
  repeat' (with_reducible first | assumption | apply release_keeps | apply objSet_keeps | intro _ | refine Keeps.put ?_)

theorem traceEnableEffect_keeps {s0 : State} (x0 : Via) (x1 : Nat) (x2 : Nat) (x3 : List Byte) (s : State) (hK : Keeps s0 s) : Keeps s0
    (traceEnableEffect x0 x1 x2 x3 s) := by
  unfold traceEnableEffect
  repeat' (with_reducible first
      | assumption | apply stopTrace_keeps | apply startTrace_keeps | apply dictDone_keeps | apply dictAbort_keeps
      | refine Keeps.fst ‹_› ?_ | refine Keeps.snd ‹_› ?_ | intro _ | split)

theorem execTraceEnable_keeps {s0 : State} (via : Via) (value : Nat) (s : State)
    (hK : Keeps s0 s) : ∃ t, execTraceEnable via value s = .next t ∧ Keeps s0 t := by
  refine ⟨_, rfl, ?_⟩
  repeat' (with_reducible first | assumption | apply traceEnableEffect_keeps | apply requestWrite_keeps | intro _)

theorem traceMarkEffect_keeps {s0 : State} (x0 : Via) (x1 : Nat) (x2 : Nat) (x3 : List Byte) (s : State) (hK : Keeps s0 s) : Keeps s0
    (traceMarkEffect x0 x1 x2 x3 s) := by
  unfold traceMarkEffect
  repeat' (with_reducible first | assumption | apply dictDone_keeps | apply traceRec_keeps | intro _)

theorem execTraceMark_keeps {s0 : State} (via : Via) (value : Nat) (s : State)
    (hK : Keeps s0 s) : ∃ t, execTraceMark via value s = .next t ∧ Keeps s0 t := by
  refine ⟨_, rfl, ?_⟩
  repeat' (with_reducible first | assumption | apply traceMarkEffect_keeps | apply requestWrite_keeps | intro _)

theorem traceData_keeps {s0 : State} (s : State) (r : TraceRec) (hK : Keeps s0 s) : Keeps s0 (traceData s r).2 := by
  unfold traceData
  repeat' (with_reducible first
      | assumption | apply drawFree_keeps | refine Keeps.fst ‹_› ?_ | refine Keeps.snd ‹_› ?_ | intro _ | extract_lets | split
      | dsimp +zetaDelta only | refine Keeps.put ?_)

theorem execTraceRecordWrite_keeps {s0 : State} (s : State) (hK : Keeps s0 s) : ∃ t, execTraceRecordWrite s = .next t ∧ Keeps s0 t := by
  refine ⟨_, rfl, ?_⟩
  repeat' (with_reducible first
      | assumption | apply traceData_keeps | apply pulse_keeps | apply fire_keeps | apply bump_keeps | apply memWrite_keeps
      | refine Keeps.fst ‹_› ?_ | refine Keeps.snd ‹_› ?_ | intro _ | extract_lets | split | dsimp +zetaDelta only
      | refine Keeps.put ?_)

theorem execDebugTriggerIn_keeps {s0 : State} (s : State) (hK : Keeps s0 s) : ∃ t, execDebugTriggerIn s = .next t ∧ Keeps s0 t := by
  refine ⟨_, rfl, ?_⟩
  repeat' (with_reducible first
      | assumption | apply stopTrace_keeps | apply startTrace_keeps | apply fire_keeps | apply traceRec_keeps | intro _ | extract_lets
      | split | dsimp +zetaDelta only)

theorem captureDr_keeps {s0 : State} (s : State) (hK : Keeps s0 s) : Keeps s0 (captureDr s).2 := by
  unfold captureDr
  repeat' (with_reducible first
      | assumption | apply reserveFree_keeps | refine Keeps.fst ‹_› ?_ | refine Keeps.snd ‹_› ?_ | intro _ | extract_lets | split
      | dsimp +zetaDelta only)

theorem tapScan_keeps {s0 : State} (s : State) (op : Nat) (tdi : List Bool) (hK : Keeps s0 s) : Keeps s0 (tapScan s op tdi) := by
  unfold tapScan
  repeat' (with_reducible first
      | assumption | apply captureDr_keeps | refine Keeps.fst ‹_› ?_ | refine Keeps.snd ‹_› ?_ | intro _ | extract_lets | split
      | dsimp +zetaDelta only | refine Keeps.put ?_)

theorem execTapTestLogicReset_keeps {s0 : State} (s : State) (hK : Keeps s0 s) : ∃ t, execTapTestLogicReset s = .next t ∧ Keeps s0 t := by
  refine ⟨_, rfl, ?_⟩
  repeat' (with_reducible first | assumption | refine Keeps.put ?_)

theorem execExtest_keeps {s0 : State} (tdi : List Bool) (s : State) (hK : Keeps s0 s) : ∃ t, execExtest tdi s = .next t ∧ Keeps s0 t := by
  refine ⟨_, rfl, ?_⟩
  repeat' (with_reducible first | assumption | apply tapScan_keeps | intro _)

theorem execSamplePreload_keeps {s0 : State} (tdi : List Bool) (s : State)
    (hK : Keeps s0 s) : ∃ t, execSamplePreload tdi s = .next t ∧ Keeps s0 t := by
  refine ⟨_, rfl, ?_⟩
  repeat' (with_reducible first | assumption | apply tapScan_keeps | intro _)

theorem execIdcode_keeps {s0 : State} (tdi : List Bool) (s : State) (hK : Keeps s0 s) : ∃ t, execIdcode tdi s = .next t ∧ Keeps s0 t := by
  refine ⟨_, rfl, ?_⟩
  repeat' (with_reducible first | assumption | apply tapScan_keeps | intro _)

theorem execClamp_keeps {s0 : State} (tdi : List Bool) (s : State) (hK : Keeps s0 s) : ∃ t, execClamp tdi s = .next t ∧ Keeps s0 t := by
  refine ⟨_, rfl, ?_⟩
  repeat' (with_reducible first | assumption | apply tapScan_keeps | intro _)

theorem execHighz_keeps {s0 : State} (tdi : List Bool) (s : State) (hK : Keeps s0 s) : ∃ t, execHighz tdi s = .next t ∧ Keeps s0 t := by
  refine ⟨_, rfl, ?_⟩
  repeat' (with_reducible first | assumption | apply tapScan_keeps | intro _)

theorem execDbgStatus_keeps {s0 : State} (tdi : List Bool) (s : State)
    (hK : Keeps s0 s) : ∃ t, execDbgStatus tdi s = .next t ∧ Keeps s0 t := by
  refine ⟨_, rfl, ?_⟩
  repeat' (with_reducible first | assumption | apply tapScan_keeps | intro _)

theorem execBypass_keeps {s0 : State} (opcode : Nat) (tdi : List Bool) (s : State)
    (hK : Keeps s0 s) : ∃ t, execBypass opcode tdi s = .next t ∧ Keeps s0 t := by
  refine ⟨_, rfl, ?_⟩
  repeat' (with_reducible first | assumption | apply tapScan_keeps | intro _ | split)

/-! ## UnitOps -/

theorem enableEffect_keeps {s0 : State} (k : UnitKind) (base : Nat) (x0 : Via) (x1 : Nat) (x2 : Nat) (x3 : List Byte) (s : State)
    (hK : Keeps s0 s) : Keeps s0 (enableEffect k base x0 x1 x2 x3 s) := by
  unfold enableEffect
  repeat' (with_reducible first
      | assumption | apply startLong_keeps | apply dictDone_keeps | apply setDraining_keeps | apply setEnable_keeps | apply Keeps.foldl
      | apply Keeps.foldlFst | apply Keeps.foldlSnd | intro _ | extract_lets | split | dsimp +zetaDelta only)

theorem enableWrite_keeps {s0 : State} (k : UnitKind) (high : Bool) (width : Nat) (via : Via) (value : Nat) (s : State)
    (hK : Keeps s0 s) : Keeps s0 (enableWrite k high width via value s) := by
  unfold enableWrite
  repeat' (with_reducible first
      | assumption | apply enableEffect_keeps | apply requestWrite_keeps | intro _ | extract_lets | split | dsimp +zetaDelta only)

theorem setRsvCore_keeps {s0 : State} (s : State) (c : Nat) (call : Option RsvCall) (hK : Keeps s0 s) : Keeps s0 (setRsvCore s c call) := by
  unfold setRsvCore
  repeat' (with_reducible first | assumption | refine Keeps.put ?_)

theorem refuseCalls_keeps {s0 : State} (s : State) (hK : Keeps s0 s) : Keeps s0 (refuseCalls s) := by
  unfold refuseCalls
  repeat' (with_reducible first
      | assumption | apply errFault_keeps | apply Keeps.foldl | apply Keeps.foldlFst | apply Keeps.foldlSnd | intro _
      | refine Keeps.put ?_)

theorem modRsvWork_keeps {s0 : State} (s : State) (id : Nat) (f : RsvWork → RsvWork) (hK : Keeps s0 s) : Keeps s0 (modRsvWork s id f) := by
  unfold modRsvWork
  repeat' (with_reducible first | assumption | split | refine Keeps.put ?_)

theorem giveCall_keeps {s0 : State} (s : State) (core n : Nat) (hK : Keeps s0 s) : Keeps s0 (giveCall s core n) := by
  unfold giveCall
  repeat' (with_reducible first
      | assumption | apply modRsvWork_keeps | apply setRsvCore_keeps | refine Keeps.fst ‹_› ?_ | refine Keeps.snd ‹_› ?_ | intro _
      | split | refine Keeps.put ?_)

theorem takeCall_keeps {s0 : State} (s : State) (core : Nat) (hK : Keeps s0 s) : Keeps s0 (takeCall s core) := by
  unfold takeCall
  repeat' (with_reducible first
      | assumption | apply giveCall_keeps | apply setRsvCore_keeps | apply arbGrant_keeps | refine Keeps.fst ‹_› ?_
      | refine Keeps.snd ‹_› ?_ | intro _ | split | refine Keeps.put ?_)

theorem serveCalls_keeps {s0 : State} (x0 : Nat) (s : State) (hK : Keeps s0 s) : Keeps s0 (serveCalls x0 s) := by
  induction x0 generalizing s with
  | zero => unfold serveCalls; exact hK
  | succ k ih =>
    unfold serveCalls
    repeat' (with_reducible first
        | assumption | apply ih | apply takeCall_keeps | refine Keeps.fst ‹_› ?_ | refine Keeps.snd ‹_› ?_ | intro _ | split)

theorem rsvServe_keeps {s0 : State} (s : State) (hK : Keeps s0 s) : Keeps s0 (rsvServe s) := by
  unfold rsvServe
  repeat' (with_reducible first | assumption | apply serveCalls_keeps | apply refuseCalls_keeps | intro _ | split)

theorem askCalls_keeps {s0 : State} (s : State) (slot : Nat) (user : RsvUser) (n : Nat) (hK : Keeps s0 s) : Keeps s0
    (askCalls s slot user n) := by
  unfold askCalls
  repeat' (with_reducible first | assumption | apply rsvServe_keeps | intro _ | refine Keeps.put ?_)

theorem needCalls_keeps {s0 : State} (s : State) (slot : Nat) (user : RsvUser) (n : Nat) (hK : Keeps s0 s) : Keeps s0
    (needCalls s slot user n).1 := by
  unfold needCalls
  repeat' (with_reducible first | assumption | apply askCalls_keeps | intro _ | split | refine Keeps.put ?_)

theorem callBack_keeps {s0 : State} (s : State) (id : Nat) (hK : Keeps s0 s) : Keeps s0 (callBack s id) := by
  unfold callBack
  repeat' (with_reducible first
      | assumption | apply modRsvWork_keeps | intro _ | extract_lets | dsimp +zetaDelta only | refine Keeps.put ?_)

theorem selftestDone_keeps {s0 : State} (s : State) (k : UnitKind) (failed : List Nat) (hK : Keeps s0 s) : Keeps s0
    (selftestDone s k failed) := by
  unfold selftestDone
  repeat' (with_reducible first
      | assumption | apply rsvServe_keeps | apply localFinish_keeps | apply setRetired_keeps | apply setEnable_keeps
      | apply raiseErr_keeps | apply Keeps.foldl | apply Keeps.foldlFst | apply Keeps.foldlSnd | refine Keeps.fst ‹_› ?_
      | refine Keeps.snd ‹_› ?_ | intro _ | extract_lets | split | dsimp +zetaDelta only)

theorem execUnitSelftestComplete_keeps {s0 : State} (kind : UnitKind) (failed : List Nat) (s : State)
    (hK : Keeps s0 s) : ∃ t, execUnitSelftestComplete kind failed s = .next t ∧ Keeps s0 t := by
  refine ⟨_, rfl, ?_⟩
  repeat' (with_reducible first | assumption | apply selftestDone_keeps | intro _)

end Sys2Proof.Machine
end

