-- ==== Sys2Proof/Laws/KeepsUnits.lean ====
section
/-! SUPPORT. What the units, delivery, the ports and the keys keep: the queue, the fuses, the bound on pairs and the memories' form. -/

set_option linter.unusedTactic false
set_option linter.unreachableTactic false
set_option linter.unusedVariables false

namespace Sys2Proof.Machine

set_option Elab.async false

/-! ## PrimeSets -/

theorem setSet_keeps {s0 : State} (s : State) (n : Nat) (x : PrimeSet) (hK : Keeps s0 s) : Keeps s0 (setSet s n x) := by
  unfold setSet
  repeat' (with_reducible first | assumption | refine Keeps.put ?_)

theorem primeImageEffect_keeps {s0 : State} (x0 : Via) (x1 : Nat) (x2 : Nat) (x3 : List Byte) (s : State) (hK : Keeps s0 s) : Keeps s0
    (primeImageEffect x0 x1 x2 x3 s) := by
  unfold primeImageEffect
  repeat' (with_reducible first
      | assumption | apply setSet_keeps | apply packageEffect_keeps | apply startLong_keeps | apply keepBefore_keeps
      | apply dictAbort_keeps | intro _ | extract_lets | split | dsimp +zetaDelta only)

theorem execPrimeSetImageWrite_keeps {s0 : State} (via : Via) (set : Nat) (data : List Byte) (s : State)
    (hK : Keeps s0 s) : ∃ t, execPrimeSetImageWrite via set data s = .next t ∧ Keeps s0 t := by
  refine ⟨_, rfl, ?_⟩
  repeat' (with_reducible first | assumption | apply primeImageEffect_keeps | apply requestWrite_keeps | intro _)

theorem primePassed_keeps {s0 : State} (s : State) (set : Nat) (othersPass : Bool) (hK : Keeps s0 s) : Keeps s0
    (primePassed s set othersPass) := by
  unfold primePassed
  repeat' (with_reducible first | assumption | apply setSet_keeps | intro _ | split | refine Keeps.put ?_)

theorem execPrimeSetValidation_keeps {s0 : State} (set : Nat) (othersPass : Bool) (s : State)
    (hK : Keeps s0 s) : ∃ t, execPrimeSetValidation set othersPass s = .next t ∧ Keeps s0 t := by
  refine ⟨_, rfl, ?_⟩
  repeat' (with_reducible first
      | assumption | apply primePassed_keeps | apply localFinish_keeps | refine Keeps.fst ‹_› ?_ | refine Keeps.snd ‹_› ?_ | intro _
      | split)

theorem primeFirstByte_keeps {s0 : State} (s : State) (set : Nat) (hK : Keeps s0 s) : Keeps s0 (primeFirstByte s set) := by
  unfold primeFirstByte
  repeat' (with_reducible first | assumption | apply setSet_keeps | apply keep_keeps | intro _ | split | refine Keeps.put ?_)

/-! ## Txa -/

theorem setRegs_keeps {s0 : State} (s : State) (t : Nat) (r : TileRegs) (hK : Keeps s0 s) : Keeps s0 (setRegs s t r) := by
  unfold setRegs
  repeat' (with_reducible first | assumption | refine Keeps.put ?_)

theorem txaStart_keeps {s0 : State} (s : State) (i : TxaItem) (hK : Keeps s0 s) : Keeps s0 (txaStart s i).2 := by
  unfold txaStart
  repeat' (with_reducible first
      | assumption | apply drawFree_keeps | refine Keeps.fst ‹_› ?_ | refine Keeps.snd ‹_› ?_ | intro _ | extract_lets | split
      | dsimp +zetaDelta only)

theorem takeTile_keeps {s0 : State} (s : State) (t : Nat) (i : TxaItem) (hK : Keeps s0 s) : Keeps s0 (takeTile s t i) := by
  unfold takeTile
  repeat' (with_reducible first
      | assumption | apply txaStart_keeps | apply setRegs_keeps | refine Keeps.fst ‹_› ?_ | refine Keeps.snd ‹_› ?_ | intro _
      | extract_lets | split | dsimp +zetaDelta only | refine Keeps.put ?_)

theorem addWork_keeps {s0 : State} (s : State) (slot : Nat) (user : ArrayUser) (mode passes rows count : Nat)
    (hK : Keeps s0 s) : Keeps s0 (addWork s slot user mode passes rows count) := by
  unfold addWork
  repeat' (with_reducible first | assumption | split | refine Keeps.put ?_)

theorem dropWork_keeps {s0 : State} (s : State) (user : ArrayUser) (hK : Keeps s0 s) : Keeps s0 (dropWork s user) := by
  unfold dropWork
  repeat' (with_reducible first | assumption | refine Keeps.put ?_)

theorem takeReady_keeps {s0 : State} (s : State) (i : TxaItem) (hK : Keeps s0 s) : Keeps s0 (takeReady s i) := by
  unfold takeReady
  repeat' (with_reducible first | assumption | refine Keeps.fst ‹_› ?_ | refine Keeps.snd ‹_› ?_ | split | refine Keeps.put ?_)

theorem refuseUser_keeps {s0 : State} (s : State) (user : ArrayUser) (hK : Keeps s0 s) : Keeps s0 (refuseUser s user) := by
  unfold refuseUser
  repeat' (with_reducible first
      | assumption | apply freeBuffers_keeps | apply finishCmd_keeps | refine Keeps.fst ‹_› ?_ | refine Keeps.snd ‹_› ?_ | intro _
      | extract_lets | split | dsimp +zetaDelta only | refine Keeps.put ?_)

theorem refuseReady_keeps {s0 : State} (s : State) (i : TxaItem) (code : Nat) (hK : Keeps s0 s) : Keeps s0 (refuseReady s i code) := by
  unfold refuseReady
  repeat' (with_reducible first
      | assumption | apply refuseUser_keeps | apply takeReady_keeps | apply dropWork_keeps | apply refuseItem_keeps
      | apply errFault_keeps | refine Keeps.fst ‹_› ?_ | refine Keeps.snd ‹_› ?_ | intro _ | split)

theorem execTxaDispatch_keeps {s0 : State} (s : State) (hK : Keeps s0 s) : ∃ t, execTxaDispatch s = .next t ∧ Keeps s0 t := by
  refine ⟨_, rfl, ?_⟩
  repeat' (with_reducible first
      | assumption | apply refuseReady_keeps | apply takeReady_keeps | apply takeTile_keeps | apply arbGrant_keeps
      | refine Keeps.fst ‹_› ?_ | refine Keeps.snd ‹_› ?_ | intro _ | extract_lets | split | dsimp +zetaDelta only)

theorem raiseTimes_keeps {s0 : State} (s : State) (code slot : Nat) (x0 : Nat) (hK : Keeps s0 s) : Keeps s0
    (raiseTimes s code slot x0) := by
  induction x0 generalizing s code slot with
  | zero => unfold raiseTimes; exact hK
  | succ k ih =>
    unfold raiseTimes
    repeat' (with_reducible first | assumption | apply ih | apply raiseErr_keeps | intro _ | split)

theorem txaStore_keeps {s0 : State} (s : State) (i : TxaItem) (o : TxaOut) (poisoned : Bool) (hK : Keeps s0 s) : Keeps s0
    (txaStore s i o poisoned) := by
  unfold txaStore
  repeat' (with_reducible first
      | assumption | apply txaWritePoisoned_keeps | apply txaMark_keeps | apply txaWrite_keeps | intro _ | extract_lets | split
      | dsimp +zetaDelta only)

theorem txaFinish_keeps {s0 : State} (s : State) (i : TxaItem) (t : Nat) (g : TxaProg) (hK : Keeps s0 s) : Keeps s0
    (txaFinish s i t g) := by
  unfold txaFinish
  repeat' (with_reducible first
      | assumption | apply txaStore_keeps | apply raiseTimes_keeps | apply setRegs_keeps | apply retireUnit_keeps
      | apply finishCmd_keeps | apply raiseErr_keeps | apply bumpBy_keeps | intro _ | extract_lets | split | dsimp +zetaDelta only
      | refine Keeps.put ?_)

theorem spoilUser_keeps {s0 : State} (s : State) (user : ArrayUser) (hK : Keeps s0 s) : Keeps s0 (spoilUser s user) := by
  unfold spoilUser
  repeat' (with_reducible first | assumption | refine Keeps.fst ‹_› ?_ | refine Keeps.snd ‹_› ?_ | split | refine Keeps.put ?_)

theorem endPart_keeps {s0 : State} (s : State) (id : Nat) (hK : Keeps s0 s) : Keeps s0 (endPart s id) := by
  unfold endPart
  repeat' (with_reducible first | assumption | split | refine Keeps.put ?_)

theorem partFinish_keeps {s0 : State} (s : State) (i : TxaItem) (id t retries : Nat) (failed : Bool) (hK : Keeps s0 s) : Keeps s0
    (partFinish s i id t retries failed) := by
  unfold partFinish
  repeat' (with_reducible first
      | assumption | apply endPart_keeps | apply spoilUser_keeps | apply raiseTimes_keeps | apply retireUnit_keeps
      | apply raiseErr_keeps | apply bumpBy_keeps | refine Keeps.fst ‹_› ?_ | refine Keeps.snd ‹_› ?_ | intro _ | extract_lets | split
      | dsimp +zetaDelta only)

theorem execTxaItemComplete_keeps {s0 : State} (tile : Nat) (faults : List TxaFault) (reads : SramReads) (s : State)
    (hK : Keeps s0 s) : ∃ t, execTxaItemComplete tile faults reads s = .next t ∧ Keeps s0 t := by
  refine ⟨_, rfl, ?_⟩
  repeat' (with_reducible first
      | assumption | apply partFinish_keeps | apply txaFinish_keeps | apply unitDone_keeps | apply sramReads_keeps | apply bump_keeps
      | apply bumpBy_keeps | refine Keeps.fst ‹_› ?_ | refine Keeps.snd ‹_› ?_ | intro _ | extract_lets | split | dsimp +zetaDelta only
      | refine Keeps.put ?_)

theorem abandonTile_keeps {s0 : State} (s : State) (t : Nat) (hK : Keeps s0 s) : Keeps s0 (abandonTile s t) := by
  unfold abandonTile
  repeat' (with_reducible first
      | assumption | apply unitDone_keeps | apply elapsedFclk_keeps | apply bumpBy_keeps | refine Keeps.fst ‹_› ?_
      | refine Keeps.snd ‹_› ?_ | intro _ | extract_lets | split | dsimp +zetaDelta only | refine Keeps.put ?_)

theorem execTxaTileEnableWrite_keeps {s0 : State} (via : Via) (high : Bool) (value : Nat) (s : State)
    (hK : Keeps s0 s) : ∃ t, execTxaTileEnableWrite via high value s = .next t ∧ Keeps s0 t := by
  refine ⟨_, rfl, ?_⟩
  repeat' (with_reducible first | assumption | apply enableWrite_keeps | intro _)

/-! ## Rsv -/

theorem execRsvCall_keeps {s0 : State} (slot purpose sample block draw : Nat) (s : State)
    (hK : Keeps s0 s) : ∃ t, execRsvCall slot purpose sample block draw s = .next t ∧ Keeps s0 t := by
  refine ⟨_, rfl, ?_⟩
  repeat' (with_reducible first | assumption | apply rsvServe_keeps | apply errFault_keeps | intro _ | split | refine Keeps.put ?_)

theorem callEnds_keeps {s0 : State} (s : State) (c : RsvCall) (hK : Keeps s0 s) : Keeps s0 (callEnds s c) := by
  unfold callEnds
  repeat' (with_reducible first
      | assumption | apply callBack_keeps | refine Keeps.fst ‹_› ?_ | refine Keeps.snd ‹_› ?_ | intro _ | extract_lets | split
      | dsimp +zetaDelta only | refine Keeps.put ?_)

theorem execRsvCallReturn_keeps {s0 : State} (core : Nat) (disagree : Bool) (s : State)
    (hK : Keeps s0 s) : ∃ t, execRsvCallReturn core disagree s = .next t ∧ Keeps s0 t := by
  refine ⟨_, rfl, ?_⟩
  repeat' (with_reducible first
      | assumption | apply callEnds_keeps | apply rsvServe_keeps | apply setRsvCore_keeps | apply retireUnit_keeps
      | apply unitDone_keeps | apply raiseErr_keeps | apply bump_keeps | refine Keeps.fst ‹_› ?_ | refine Keeps.snd ‹_› ?_ | intro _
      | extract_lets | split | dsimp +zetaDelta only | refine Keeps.put ?_)

theorem execRsvCoreEnableWrite_keeps {s0 : State} (via : Via) (value : Nat) (s : State)
    (hK : Keeps s0 s) : ∃ t, execRsvCoreEnableWrite via value s = .next t ∧ Keeps s0 t := by
  refine ⟨_, rfl, ?_⟩
  repeat' (with_reducible first | assumption | apply enableWrite_keeps | intro _)

/-! ## Forge -/

theorem fftWork_keeps {s0 : State} (s : State) (i : ForgeItem) (rows : Nat) (hK : Keeps s0 s) : Keeps s0 (fftWork s i rows) := by
  unfold fftWork
  repeat' (with_reducible first
      | assumption | apply addWork_keeps | apply Keeps.foldl | apply Keeps.foldlFst | apply Keeps.foldlSnd | intro _)

theorem limbWork_keeps {s0 : State} (s : State) (i : ForgeItem) (hK : Keeps s0 s) : Keeps s0 (limbWork s i) := by
  unfold limbWork
  repeat' (with_reducible first
      | assumption | apply addWork_keeps | apply Keeps.foldl | apply Keeps.foldlFst | apply Keeps.foldlSnd | intro _ | extract_lets
      | split | dsimp +zetaDelta only)

theorem readKey_keeps {s0 : State} (s : State) (i : ForgeItem) (hK : Keeps s0 s) : Keeps s0 (readKey s i) := by
  unfold readKey
  repeat' (with_reducible first
      | assumption | apply raiseTimes_keeps | apply readChecked_keeps | apply Keeps.foldl | apply Keeps.foldlFst | apply Keeps.foldlSnd
      | intro _ | extract_lets | split | dsimp +zetaDelta only)

theorem forgeStart_keeps {s0 : State} (s : State) (i : ForgeItem) (work : Nat) (hK : Keeps s0 s) : Keeps s0 (forgeStart s i work) := by
  unfold forgeStart
  repeat' (with_reducible first
      | assumption | apply readKey_keeps | apply fftWork_keeps | apply askCalls_keeps | apply raiseErr_keeps | apply Keeps.foldl
      | apply Keeps.foldlFst | apply Keeps.foldlSnd | intro _ | extract_lets | split | dsimp +zetaDelta only | refine Keeps.put ?_)

theorem takeForge_keeps {s0 : State} (s : State) (i : ForgeItem) (hK : Keeps s0 s) : Keeps s0 (takeForge s i) := by
  unfold takeForge
  repeat' (with_reducible first | assumption | refine Keeps.put ?_)

theorem execForgeDispatch_keeps {s0 : State} (reads : SramReads) (s : State)
    (hK : Keeps s0 s) : ∃ t, execForgeDispatch reads s = .next t ∧ Keeps s0 t := by
  refine ⟨_, rfl, ?_⟩
  repeat' (with_reducible first
      | assumption | apply takeForge_keeps | apply forgeStart_keeps | apply refuseItem_keeps | apply slotFault_keeps
      | apply retryLater_keeps | apply needBuffer_keeps | apply finishCmd_keeps | apply arbGrant_keeps | apply sramReads_keeps
      | refine Keeps.fst ‹_› ?_ | refine Keeps.snd ‹_› ?_ | intro _ | extract_lets | split | dsimp +zetaDelta only)

theorem forgeWrite_keeps {s0 : State} (s : State) (i : ForgeItem) (off : Nat) (bs : List Byte) (poison : Bool)
    (hK : Keeps s0 s) : Keeps s0 (forgeWrite s i off bs poison) := by
  unfold forgeWrite
  repeat' (with_reducible first
      | assumption | apply pfgWritePoisoned_keeps | apply memWritePoisoned_keeps | apply pfgWrite_keeps | apply memWrite_keeps
      | intro _ | extract_lets | split | dsimp +zetaDelta only)

theorem encTile_keeps {s0 : State} (s : State) (i : ForgeItem) (off n : Nat) (r : PrimeRec) (key : List Byte) (lines : List Nat)
    (es : List (Nat × Bool)) (poison : Bool) (hK : Keeps s0 s) : Keeps s0 (encTile s i off n r key lines es poison) := by
  unfold encTile
  repeat' (with_reducible first
      | assumption | apply forgeWrite_keeps | apply drawFree_keeps | apply Keeps.foldl | apply Keeps.foldlFst | apply Keeps.foldlSnd
      | refine Keeps.fst ‹_› ?_ | refine Keeps.snd ‹_› ?_ | intro _ | extract_lets | split | dsimp +zetaDelta only)

theorem forgeLimb_keeps {s0 : State} (s : State) (r : ForgeRun) (faults : List ForgeFault) (tiles : List (List Nat)) (poison : Bool)
    (hK : Keeps s0 s) : Keeps s0 (forgeLimb s r faults tiles poison) := by
  unfold forgeLimb
  repeat' (with_reducible first
      | assumption | apply encTile_keeps | apply forgeWrite_keeps | intro _ | extract_lets | split | dsimp +zetaDelta only)

theorem forgeFailedLimb_keeps {s0 : State} (s : State) (i : ForgeItem) (b o : Nat) (hK : Keeps s0 s) : Keeps s0
    (forgeFailedLimb s i b o) := by
  unfold forgeFailedLimb
  repeat' (with_reducible first
      | assumption | apply forgeWrite_keeps | apply drawFree_keeps | apply Keeps.foldl | apply Keeps.foldlFst | apply Keeps.foldlSnd
      | refine Keeps.fst ‹_› ?_ | refine Keeps.snd ‹_› ?_ | intro _ | extract_lets | split | dsimp +zetaDelta only)

theorem countFailedLimb_keeps {s0 : State} (s : State) (i : ForgeItem) (b o : Nat) (hK : Keeps s0 s) : Keeps s0
    (countFailedLimb s i b o) := by
  unfold countFailedLimb
  repeat' (with_reducible first | assumption | apply bumpBy_keeps | intro _)

theorem setForge_keeps {s0 : State} (s : State) (r : ForgeRun) (hK : Keeps s0 s) : Keeps s0 (setForge s r) := by
  unfold setForge
  repeat' (with_reducible first | assumption | refine Keeps.put ?_)

theorem forgeAdvance_keeps {s0 : State} (s : State) (r : ForgeRun) (hK : Keeps s0 s) : Keeps s0 (forgeAdvance s r) := by
  unfold forgeAdvance
  repeat' (with_reducible first
      | assumption | apply setForge_keeps | apply limbWork_keeps | apply keep_keeps | apply freeBuffers_keeps | apply finishCmd_keeps
      | apply bump_keeps | refine Keeps.fst ‹_› ?_ | refine Keeps.snd ‹_› ?_ | intro _ | extract_lets | split | dsimp +zetaDelta only
      | refine Keeps.put ?_)

theorem forgeBadLimb_keeps {s0 : State} (s : State) (r : ForgeRun) (hK : Keeps s0 s) : Keeps s0 (forgeBadLimb s r) := by
  unfold forgeBadLimb
  repeat' (with_reducible first
      | assumption | apply forgeAdvance_keeps | apply countFailedLimb_keeps | apply forgeFailedLimb_keeps | intro _
      | refine Keeps.put ?_)

theorem fftVerdict_keeps {s0 : State} (s : State) (r : ForgeRun) (faults : List ForgeFault) (hK : Keeps s0 s) : Keeps s0
    (fftVerdict s r faults) := by
  unfold fftVerdict
  repeat' (with_reducible first
      | assumption | apply setForge_keeps | apply limbWork_keeps | apply fftWork_keeps | apply raiseErr_keeps | apply bump_keeps
      | apply memWrite_keeps | intro _ | extract_lets | split | dsimp +zetaDelta only | refine Keeps.put ?_)

theorem limbVerdict_keeps {s0 : State} (s : State) (r : ForgeRun) (faults : List ForgeFault) (hK : Keeps s0 s) : Keeps s0
    (limbVerdict s r faults) := by
  unfold limbVerdict
  repeat' (with_reducible first
      | assumption | apply forgeBadLimb_keeps | apply forgeAdvance_keeps | apply setForge_keeps | apply forgeFailedLimb_keeps
      | apply forgeLimb_keeps | apply limbWork_keeps | apply raiseErr_keeps | apply bump_keeps | refine Keeps.fst ‹_› ?_
      | refine Keeps.snd ‹_› ?_ | intro _ | extract_lets | split | dsimp +zetaDelta only | refine Keeps.put ?_)

theorem execForgeLimbVerdict_keeps {s0 : State} (fftUnit : Bool) (faults : List ForgeFault) (s : State)
    (hK : Keeps s0 s) : ∃ t, execForgeLimbVerdict fftUnit faults s = .next t ∧ Keeps s0 t := by
  refine ⟨_, rfl, ?_⟩
  repeat' (with_reducible first
      | assumption | apply limbVerdict_keeps | apply fftVerdict_keeps | apply forgeBadLimb_keeps | refine Keeps.fst ‹_› ?_
      | refine Keeps.snd ‹_› ?_ | intro _ | split)

theorem encRootEffect_keeps {s0 : State} (x0 : Via) (x1 : Nat) (x2 : Nat) (x3 : List Byte) (s : State) (hK : Keeps s0 s) : Keeps s0
    (encRootEffect x0 x1 x2 x3 s) := by
  unfold encRootEffect
  repeat' (with_reducible first
      | assumption | apply packageEffect_keeps | apply packageDone_keeps | apply keepBefore_keeps | apply dictAbort_keeps | intro _
      | extract_lets | split | dsimp +zetaDelta only | refine Keeps.put ?_)

theorem execEncRootKeyWrite_keeps {s0 : State} (via : Via) (root : Nat) (data : List Byte) (s : State)
    (hK : Keeps s0 s) : ∃ t, execEncRootKeyWrite via root data s = .next t ∧ Keeps s0 t := by
  refine ⟨_, rfl, ?_⟩
  repeat' (with_reducible first | assumption | apply encRootEffect_keeps | apply requestWrite_keeps | intro _)

/-! ## DeliveryOps -/

theorem sliverUse_keeps {s0 : State} (s : State) (m : Nat) (more : Bool) (hK : Keeps s0 s) : Keeps s0 (sliverUse s m more) := by
  unfold sliverUse
  repeat' (with_reducible first | assumption | apply objSet_keeps | intro _ | split)

theorem modDlv_keeps {s0 : State} (s : State) (id : Nat) (f : Dlv → Dlv) (hK : Keeps s0 s) : Keeps s0 (modDlv s id f) := by
  unfold modDlv
  repeat' (with_reducible first | assumption | split | refine Keeps.put ?_)

theorem addDlv_keeps {s0 : State} (s : State) (x : Dlv) (hK : Keeps s0 s) : Keeps s0 (addDlv s x) := by
  unfold addDlv
  repeat' (with_reducible first | assumption | apply sliverUse_keeps | intro _ | refine Keeps.put ?_)

theorem dlvError_keeps {s0 : State} (s : State) (id code : Nat) (hK : Keeps s0 s) : Keeps s0 (dlvError s id code) := by
  unfold dlvError
  repeat' (with_reducible first
      | assumption | apply modDlv_keeps | apply raiseErr_keeps | refine Keeps.fst ‹_› ?_ | refine Keeps.snd ‹_› ?_ | intro _ | split
      | refine Keeps.put ?_)

theorem writeMemLine_keeps {s0 : State} (s : State) (l : OutLine) (h : Keeps s0 s) : Keeps s0 (writeMemLine s l) := by
  refine Keeps.putMem (s := if l.poison then poisonWritten s 1 else s) ?_ (hm := fun w => ⟨cellsMask_wf _ _ _ w.1, w.2⟩)
  split
  · exact poisonWritten_keeps _ _ h
  · exact h

theorem emitLine_keeps {s0 : State} (s : State) (id : Nat) (l : OutLine) (hK : Keeps s0 s) : Keeps s0 (emitLine s id l) := by
  unfold emitLine
  repeat' (with_reducible first
      | assumption | apply writeMemLine_keeps | apply modDlv_keeps | refine Keeps.fst ‹_› ?_ | refine Keeps.snd ‹_› ?_ | intro _
      | extract_lets | split | dsimp +zetaDelta only | refine Keeps.put ?_)

theorem emitLines_keeps {s0 : State} (s : State) (id : Nat) (ls : List OutLine) (hK : Keeps s0 s) : Keeps s0 (emitLines s id ls) := by
  unfold emitLines
  repeat' (with_reducible first
      | assumption | apply emitLine_keeps | apply Keeps.foldl | apply Keeps.foldlFst | apply Keeps.foldlSnd | intro _)

theorem sendLine_keeps {s0 : State} (s : State) (x : Dlv) (r : Remote) (l : OutLine) (hK : Keeps s0 s) : Keeps s0 (sendLine s x r l) := by
  unfold sendLine
  repeat' (with_reducible first | assumption | apply send_keeps | intro _)

theorem sendLines_keeps {s0 : State} (s : State) (x : Dlv) (rs : List Remote) (l : OutLine) (hK : Keeps s0 s) : Keeps s0
    (sendLines s x rs l) := by
  unfold sendLines
  repeat' (with_reducible first
      | assumption | apply sendLine_keeps | apply modDlv_keeps | apply Keeps.foldl | apply Keeps.foldlFst | apply Keeps.foldlSnd
      | intro _ | refine Keeps.put ?_)

theorem sendNotice_keeps {s0 : State} (s : State) (x : Dlv) (die dst : Nat) (n : DlvNotice) (hK : Keeps s0 s) : Keeps s0
    (sendNotice s x die dst n) := by
  unfold sendNotice
  repeat' (with_reducible first | assumption | apply send_keeps | intro _)

theorem pumpGroup_keeps {s0 : State} (x0 : Nat) (s : State) (x2 : Nat) (hK : Keeps s0 s) : Keeps s0 (pumpGroup x0 s x2) := by
  induction x0 generalizing s x2 with
  | zero => unfold pumpGroup; exact hK
  | succ k ih =>
    unfold pumpGroup
    repeat' (with_reducible first
        | assumption | apply ih | apply sendLines_keeps | apply modDlv_keeps | refine Keeps.fst ‹_› ?_ | refine Keeps.snd ‹_› ?_
        | intro _ | extract_lets | split | dsimp +zetaDelta only | refine Keeps.put ?_)

theorem pumpCatchup_keeps {s0 : State} (x0 : Nat) (s : State) (x2 : Nat) (hK : Keeps s0 s) : Keeps s0 (pumpCatchup x0 s x2) := by
  induction x0 generalizing s x2 with
  | zero => unfold pumpCatchup; exact hK
  | succ k ih =>
    unfold pumpCatchup
    repeat' (with_reducible first
        | assumption | apply ih | apply sendLines_keeps | apply modDlv_keeps | apply bump_keeps | refine Keeps.fst ‹_› ?_
        | refine Keeps.snd ‹_› ?_ | intro _ | extract_lets | split | dsimp +zetaDelta only | refine Keeps.put ?_)

theorem closeRemotes_keeps {s0 : State} (s : State) (id : Nat) (hK : Keeps s0 s) : Keeps s0 (closeRemotes s id) := by
  unfold closeRemotes
  repeat' (with_reducible first
      | assumption | apply sendNotice_keeps | apply modDlv_keeps | apply Keeps.foldl | apply Keeps.foldlFst | apply Keeps.foldlSnd
      | refine Keeps.fst ‹_› ?_ | refine Keeps.snd ‹_› ?_ | intro _ | split | refine Keeps.put ?_)

theorem announceDlv_keeps {s0 : State} (s : State) (x : Dlv) (horizon : Bool) (hK : Keeps s0 s) : Keeps s0 (announceDlv s x horizon) := by
  unfold announceDlv
  repeat' (with_reducible first
      | assumption | apply sendNotice_keeps | apply addDlv_keeps | apply Keeps.foldl | apply Keeps.foldlFst | apply Keeps.foldlSnd
      | intro _ | extract_lets | dsimp +zetaDelta only | refine Keeps.put ?_)

theorem doneHere_keeps {s0 : State} (s : State) (x : Dlv) (hK : Keeps s0 s) : Keeps s0 (doneHere s x) := by
  unfold doneHere
  repeat' (with_reducible first | assumption | split | refine Keeps.put ?_)

theorem settleHere_keeps {s0 : State} (s : State) (id : Nat) (hK : Keeps s0 s) : Keeps s0 (settleHere s id) := by
  unfold settleHere
  repeat' (with_reducible first
      | assumption | apply doneHere_keeps | apply modDlv_keeps | refine Keeps.fst ‹_› ?_ | refine Keeps.snd ‹_› ?_ | intro _ | split
      | refine Keeps.put ?_)

theorem finishDelivery_keeps {s0 : State} (s : State) (id : Nat) (r : DlvRecord) (hK : Keeps s0 s) : Keeps s0 (finishDelivery s id r) := by
  unfold finishDelivery
  repeat' (with_reducible first | assumption | apply modCmd_keeps | apply finishCmd_keeps | intro _ | refine Keeps.put ?_)

theorem refuseRecorded_keeps {s0 : State} (s : State) (c : Cmd) (due code : Nat) (hK : Keeps s0 s) : Keeps s0
    (refuseRecorded s c due code) := by
  unfold refuseRecorded
  repeat' (with_reducible first | assumption | apply finishDelivery_keeps | apply errFault_keeps | intro _ | refine Keeps.put ?_)

theorem freeEntry_keeps {s0 : State} (s : State) (e : Option LinkEntry) (hK : Keeps s0 s) : Keeps s0 (freeEntry s e) := by
  unfold freeEntry
  repeat' (with_reducible first
      | assumption | apply freeBuffers_keeps | refine Keeps.fst ‹_› ?_ | refine Keeps.snd ‹_› ?_ | intro _ | split)

theorem ownerDone_keeps {s0 : State} (s : State) (x : Dlv) (hK : Keeps s0 s) : Keeps s0 (ownerDone s x) := by
  unfold ownerDone
  repeat' (with_reducible first
      | assumption | apply freeEntry_keeps | apply finishDelivery_keeps | apply giveUnits_keeps | apply semSignal_keeps
      | apply freeBuffers_keeps | apply modSlot_keeps | apply bump_keeps | refine Keeps.fst ‹_› ?_ | refine Keeps.snd ‹_› ?_ | intro _
      | extract_lets | split | dsimp +zetaDelta only | refine Keeps.put ?_)

theorem endDlv_keeps {s0 : State} (s : State) (x : Dlv) (hK : Keeps s0 s) : Keeps s0 (endDlv s x) := by
  unfold endDlv
  repeat' (with_reducible first
      | assumption | apply ownerDone_keeps | apply sliverUse_keeps | apply giveUnits_keeps | apply raiseErr_keeps | intro _
      | extract_lets | split | dsimp +zetaDelta only | refine Keeps.put ?_)

theorem advanceDlv_keeps {s0 : State} (s : State) (id : Nat) (hK : Keeps s0 s) : Keeps s0 (advanceDlv s id) := by
  unfold advanceDlv
  repeat' (with_reducible first
      | assumption | apply endDlv_keeps | apply settleHere_keeps | apply closeRemotes_keeps | apply pumpCatchup_keeps
      | apply pumpGroup_keeps | refine Keeps.fst ‹_› ?_ | refine Keeps.snd ‹_› ?_ | intro _ | extract_lets | split
      | dsimp +zetaDelta only)

/-! ## DlvIssue -/

theorem raiseHorizon_keeps {s0 : State} (s : State) (slot due tag : Nat) (hK : Keeps s0 s) : Keeps s0 (raiseHorizon s slot due tag) := by
  unfold raiseHorizon
  repeat' (with_reducible first
      | assumption | apply modSlot_keeps | intro _ | extract_lets | split | dsimp +zetaDelta only | refine Keeps.put ?_)

theorem refuseDelivery_keeps {s0 : State} (s : State) (c : Cmd) (x : Dlv) (p : DlvParams) (dsts : List (Nat × Desc)) (code : Nat)
    (hK : Keeps s0 s) : Keeps s0 (refuseDelivery s c x p dsts code) := by
  unfold refuseDelivery
  repeat' (with_reducible first
      | assumption | apply place_keeps | apply advanceDlv_keeps | apply doneHere_keeps | apply emitLines_keeps | apply addDlv_keeps
      | apply modDlv_keeps | apply errFault_keeps | apply reserveFree_keeps | refine Keeps.fst ‹_› ?_ | refine Keeps.snd ‹_› ?_
      | intro _ | extract_lets | split | dsimp +zetaDelta only | refine Keeps.put ?_)

theorem refuseUnwritten_keeps {s0 : State} (s : State) (c : Cmd) (due code : Nat) (hK : Keeps s0 s) : Keeps s0
    (refuseUnwritten s c due code) := by
  unfold refuseUnwritten
  repeat' (with_reducible first | assumption | apply finishDelivery_keeps | apply errFault_keeps | intro _ | refine Keeps.put ?_)

theorem tellHorizon_keeps {s0 : State} (s : State) (slot tag due : Nat) (dies : List Nat) (hK : Keeps s0 s) : Keeps s0
    (tellHorizon s slot tag due dies) := by
  unfold tellHorizon
  repeat' (with_reducible first | assumption | apply send_keeps | apply Keeps.foldl | apply Keeps.foldlFst | apply Keeps.foldlSnd | intro _)

theorem readDesc_keeps {s0 : State} (s : State) (slot a : Nat) (hK : Keeps s0 s) : Keeps s0 (readDesc s slot a) := by
  unfold readDesc
  repeat' (with_reducible first | assumption | apply readChecked_keeps | intro _ | split)

theorem issueEmpty_keeps {s0 : State} (s : State) (c : Cmd) (p : DlvParams) (due : Nat) (hK : Keeps s0 s) : Keeps s0
    (issueEmpty s c p due) := by
  unfold issueEmpty
  repeat' (with_reducible first
      | assumption | apply tellHorizon_keeps | apply refuseUnwritten_keeps | apply raiseHorizon_keeps | apply finishDelivery_keeps
      | intro _ | extract_lets | split | dsimp +zetaDelta only | refine Keeps.put ?_)

theorem issueData_keeps {s0 : State} (s : State) (c : Cmd) (p : DlvParams) (due : Nat) (entry : Option LinkEntry)
    (hK : Keeps s0 s) : Keeps s0 (issueData s c p due entry) := by
  unfold issueData
  repeat' (with_reducible first
      | assumption | apply readDesc_keeps | apply refuseUnwritten_keeps | apply refuseDelivery_keeps | apply raiseHorizon_keeps
      | apply announceDlv_keeps | apply nameFailed_keeps | apply setOutput_keeps | apply bumpBy_keeps | apply Keeps.foldl
      | apply Keeps.foldlFst | apply Keeps.foldlSnd | refine Keeps.fst ‹_› ?_ | refine Keeps.snd ‹_› ?_ | intro _ | extract_lets
      | split | dsimp +zetaDelta only)

theorem issueDeliver_keeps {s0 : State} (s : State) (c : Cmd) (p : DlvParams) (entry : Option LinkEntry) (hK : Keeps s0 s) : Keeps s0
    (issueDeliver s c p entry) := by
  unfold issueDeliver
  repeat' (with_reducible first
      | assumption | apply issueData_keeps | apply issueEmpty_keeps | apply refuseRecorded_keeps | intro _ | extract_lets | split
      | dsimp +zetaDelta only)

/-! ## Delivery -/

theorem indexEffects_keeps {s0 : State} (s : State) (id : Nat) (src d : Desc) (hK : Keeps s0 s) : Keeps s0 (indexEffects s id src d) := by
  unfold indexEffects
  repeat' (with_reducible first
      | assumption | apply dlvError_keeps | apply modDlv_keeps | apply readChecked_keeps | apply bumpBy_keeps | apply Keeps.foldl
      | apply Keeps.foldlFst | apply Keeps.foldlSnd | refine Keeps.fst ‹_› ?_ | refine Keeps.snd ‹_› ?_ | intro _ | extract_lets
      | split | dsimp +zetaDelta only | refine Keeps.put ?_)

theorem blocks_wf (base : Nat) (ps : List (Nat × Piece)) (m : List Host.Cell) (hw : tblWf (0 : Byte) m = true) :
    tblWf (0 : Byte) (ps.foldl (fun m e => cellsSet m (base + e.1) e.2.bytes) m) = true := by
  induction ps generalizing m with
  | nil => exact hw
  | cons e l ih => exact ih _ (cellsSet_wf _ _ _ hw)

theorem writeBlocks_keeps {s0 : State} (s : State) (base : Nat) (ps : List (Nat × Piece)) (hK : Keeps s0 s) : Keeps s0
    (writeBlocks s base ps) :=
  poisonWritten_keeps _ _ (Keeps.putMem hK (hm := fun w => ⟨w.1, w.2.1, blocks_wf _ _ _ w.2.2.1, w.2.2.2⟩))

theorem copyBlocks_keeps {s0 : State} (s : State) (x : Dlv) (t : Nat) (hK : Keeps s0 s) : Keeps s0 (copyBlocks s x t) := by
  unfold copyBlocks
  repeat' (with_reducible first
      | assumption | apply writeBlocks_keeps | apply Keeps.foldl | apply Keeps.foldlFst | apply Keeps.foldlSnd
      | refine Keeps.fst ‹_› ?_ | refine Keeps.snd ‹_› ?_ | intro _ | extract_lets | split | dsimp +zetaDelta only)

theorem makeTile_keeps {s0 : State} (s : State) (id : Nat) (hK : Keeps s0 s) : Keeps s0 (makeTile s id) := by
  unfold makeTile
  repeat' (with_reducible first
      | assumption | apply copyBlocks_keeps | apply emitLines_keeps | apply modDlv_keeps | apply raiseErr_keeps | apply Keeps.foldl
      | apply Keeps.foldlFst | apply Keeps.foldlSnd | refine Keeps.fst ‹_› ?_ | refine Keeps.snd ‹_› ?_ | intro _ | extract_lets
      | split | dsimp +zetaDelta only | refine Keeps.put ?_)

theorem closeKey_keeps {s0 : State} (s : State) (cmd : Nat) (hK : Keeps s0 s) : Keeps s0 (closeKey s cmd) := by
  unfold closeKey
  repeat' (with_reducible first
      | assumption | apply advanceDlv_keeps | apply modDlv_keeps | refine Keeps.fst ‹_› ?_ | refine Keeps.snd ‹_› ?_ | intro _
      | extract_lets | split | dsimp +zetaDelta only | refine Keeps.put ?_)

theorem makeKeyTile_keeps {s0 : State} (s : State) (x : Dlv) (cmd : Nat) (hK : Keeps s0 s) : Keeps s0 (makeKeyTile s x cmd) := by
  unfold makeKeyTile
  repeat' (with_reducible first
      | assumption | apply closeKey_keeps | apply emitLines_keeps | apply modDlv_keeps | apply raiseErr_keeps | apply Keeps.foldl
      | apply Keeps.foldlFst | apply Keeps.foldlSnd | refine Keeps.fst ‹_› ?_ | refine Keeps.snd ‹_› ?_ | intro _ | extract_lets
      | split | dsimp +zetaDelta only | refine Keeps.put ?_)

theorem askTiles_keeps {s0 : State} (x0 : Nat) (s : State) (x2 : Nat) (hK : Keeps s0 s) : Keeps s0 (askTiles x0 s x2) := by
  induction x0 generalizing s x2 with
  | zero => unfold askTiles; exact hK
  | succ k ih =>
    unfold askTiles
    repeat' (with_reducible first
        | assumption | apply ih | apply modDlv_keeps | refine Keeps.fst ‹_› ?_ | refine Keeps.snd ‹_› ?_ | intro _ | split
        | refine Keeps.put ?_)

theorem setFetchQueue_keeps {s0 : State} (s : State) (p : Nat) (q : List FetchReq) (hK : Keeps s0 s) : Keeps s0 (setFetchQueue s p q) := by
  unfold setFetchQueue
  repeat' (with_reducible first | assumption | refine Keeps.put ?_)

theorem readEntered_keeps {s0 : State} (s : State) (id : Nat) (e : Nat × Nat) (hK : Keeps s0 s) : Keeps s0 (readEntered s id e) := by
  unfold readEntered
  repeat' (with_reducible first | assumption | apply modDlv_keeps | intro _ | refine Keeps.put ?_)

theorem enterRead_keeps {s0 : State} (s : State) (id : Nat) (e : Nat × Nat) (hK : Keeps s0 s) : Keeps s0 (enterRead s id e) := by
  unfold enterRead
  repeat' (with_reducible first
      | assumption | apply readEntered_keeps | apply setFetchQueue_keeps | apply bump_keeps | intro _ | extract_lets | split
      | dsimp +zetaDelta only | refine Keeps.put ?_)

theorem makeFetched_keeps {s0 : State} (s : State) (x : Dlv) (hK : Keeps s0 s) : Keeps s0 (makeFetched s x) := by
  unfold makeFetched
  repeat' (with_reducible first
      | assumption | apply makeKeyTile_keeps | apply makeTile_keeps | refine Keeps.fst ‹_› ?_ | refine Keeps.snd ‹_› ?_ | intro _
      | split)

theorem makeThere_keeps {s0 : State} (x0 : Nat) (s : State) (x2 : Nat) (hK : Keeps s0 s) : Keeps s0 (makeThere x0 s x2) := by
  induction x0 generalizing s x2 with
  | zero => unfold makeThere; exact hK
  | succ k ih =>
    unfold makeThere
    repeat' (with_reducible first
        | assumption | apply ih | apply makeFetched_keeps | refine Keeps.fst ‹_› ?_ | refine Keeps.snd ‹_› ?_ | intro _ | split)

theorem feedStream_keeps {s0 : State} (s : State) (id : Nat) (hK : Keeps s0 s) : Keeps s0 (feedStream s id) := by
  unfold feedStream
  repeat' (with_reducible first
      | assumption | apply makeThere_keeps | apply enterRead_keeps | apply askTiles_keeps | apply Keeps.foldl | apply Keeps.foldlFst
      | apply Keeps.foldlSnd | intro _ | extract_lets | dsimp +zetaDelta only)

theorem feedPorts_keeps {s0 : State} (s : State) (hK : Keeps s0 s) : Keeps s0 (feedPorts s) := by
  unfold feedPorts
  repeat' (with_reducible first
      | assumption | apply feedStream_keeps | apply Keeps.foldl | apply Keeps.foldlFst | apply Keeps.foldlSnd | intro _)

theorem sendReads_keeps {s0 : State} (s : State) (p n : Nat) (hK : Keeps s0 s) : Keeps s0 (sendReads s p n) := by
  unfold sendReads
  repeat' (with_reducible first | assumption | apply setFetchQueue_keeps | apply bumpBy_keeps | intro _)

theorem readBack_keeps {s0 : State} (s : State) (failed bad : Bool) (u : Nat × Nat × Nat) (hK : Keeps s0 s) : Keeps s0
    (readBack s failed bad u) := by
  unfold readBack
  repeat' (with_reducible first | assumption | apply modDlv_keeps | intro _ | split | refine Keeps.put ?_)

theorem takeReads_keeps {s0 : State} (s : State) (r : FetchReq) (error : Bool) (hK : Keeps s0 s) : Keeps s0 (takeReads s r error) := by
  unfold takeReads
  repeat' (with_reducible first
      | assumption | apply readBack_keeps | apply makeThere_keeps | apply advanceDlv_keeps | apply memError_keeps | apply Keeps.foldl
      | apply Keeps.foldlFst | apply Keeps.foldlSnd | intro _ | extract_lets | split | dsimp +zetaDelta only)

theorem makeTiles_keeps {s0 : State} (x0 : Nat) (s : State) (x2 : Nat) (hK : Keeps s0 s) : Keeps s0 (makeTiles x0 s x2) := by
  induction x0 generalizing s x2 with
  | zero => unfold makeTiles; exact hK
  | succ k ih =>
    unfold makeTiles
    repeat' (with_reducible first | assumption | apply ih | apply makeTile_keeps | intro _ | split)

theorem startItem_keeps {s0 : State} (s : State) (id : Nat) (units : List Nat) (hK : Keeps s0 s) : Keeps s0 (startItem s id units) := by
  unfold startItem
  repeat' (with_reducible first
      | assumption | apply makeTiles_keeps | apply feedStream_keeps | apply indexEffects_keeps | apply advanceDlv_keeps
      | apply modDlv_keeps | apply reserveFree_keeps | apply bumpBy_keeps | apply Keeps.foldl | apply Keeps.foldlFst
      | apply Keeps.foldlSnd | refine Keeps.fst ‹_› ?_ | refine Keeps.snd ‹_› ?_ | intro _ | extract_lets | split
      | dsimp +zetaDelta only | refine Keeps.put ?_)

theorem execDlvItemDispatch_keeps {s0 : State} (s : State) (hK : Keeps s0 s) : ∃ t, execDlvItemDispatch s = .next t ∧ Keeps s0 t := by
  refine ⟨_, rfl, ?_⟩
  repeat' (with_reducible first
      | assumption | apply startItem_keeps | refine takeUnits_keeps _ _ (t := (_, _)) ?_ ‹_› | refine takeUnits_keeps _ _ ?_ ‹_›
      | apply arbGrant_keeps | refine Keeps.fst ‹_› ?_ | refine Keeps.snd ‹_› ?_ | intro _ | extract_lets | split
      | dsimp +zetaDelta only)

theorem execMemReadReturn_keeps {s0 : State} (port sent which : Nat) (error : Bool) (s : State)
    (hK : Keeps s0 s) : ∃ t, execMemReadReturn port sent which error s = .next t ∧ Keeps s0 t := by
  refine ⟨_, rfl, ?_⟩
  repeat' (with_reducible first
      | assumption | apply takeReads_keeps | apply sendReads_keeps | apply feedPorts_keeps | apply setFetchQueue_keeps
      | refine Keeps.fst ‹_› ?_ | refine Keeps.snd ‹_› ?_ | intro _ | extract_lets | split | dsimp +zetaDelta only)

theorem setBank_keeps {s0 : State} (s : State) (b : Nat) (x : Bank) (hK : Keeps s0 s) : Keeps s0 (setBank s b x) := by
  unfold setBank
  repeat' (with_reducible first | assumption | refine Keeps.put ?_)

theorem lineLeaves_keeps {s0 : State} (s : State) (lane : Option Nat) (hK : Keeps s0 s) : Keeps s0 (lineLeaves s lane) := by
  unfold lineLeaves
  repeat' (with_reducible first | assumption | refine Keeps.fst ‹_› ?_ | refine Keeps.snd ‹_› ?_ | split | refine Keeps.put ?_)

theorem freeTile_keeps {s0 : State} (s : State) (k : KeyRun) (hK : Keeps s0 s) : Keeps s0 (freeTile s k) := by
  unfold freeTile
  repeat' (with_reducible first
      | assumption | apply giveUnits_keeps | intro _ | extract_lets | split | dsimp +zetaDelta only | refine Keeps.put ?_)

theorem keyLineDone_keeps {s0 : State} (s : State) (x : Dlv) (l : OutLine) (dropped : Bool) (hK : Keeps s0 s) : Keeps s0
    (keyLineDone s x l dropped) := by
  unfold keyLineDone
  repeat' (with_reducible first
      | assumption | apply freeTile_keeps | apply bump_keeps | refine Keeps.fst ‹_› ?_ | refine Keeps.snd ‹_› ?_ | intro _
      | extract_lets | split | dsimp +zetaDelta only | refine Keeps.put ?_)

theorem dropLine_keeps {s0 : State} (s : State) (id : Nat) (l : OutLine) (hK : Keeps s0 s) : Keeps s0 (dropLine s id l) := by
  unfold dropLine
  repeat' (with_reducible first
      | assumption | apply keyLineDone_keeps | apply lineLeaves_keeps | apply dlvError_keeps | apply modDlv_keeps | apply send_keeps
      | apply bump_keeps | refine Keeps.fst ‹_› ?_ | refine Keeps.snd ‹_› ?_ | intro _ | extract_lets | split | dsimp +zetaDelta only
      | refine Keeps.put ?_)

theorem readStaging_keeps {s0 : State} (s : State) (id slot : Nat) (l : OutLine) (read : SramRead) (hK : Keeps s0 s) : Keeps s0
    (readStaging s id slot l read).2 := by
  unfold readStaging
  repeat' (with_reducible first
      | assumption | apply modDlv_keeps | apply sramFault_keeps | apply raiseErr_keeps | apply reserveFree_keeps
      | refine Keeps.fst ‹_› ?_ | refine Keeps.snd ‹_› ?_ | intro _ | extract_lets | split | dsimp +zetaDelta only
      | refine Keeps.put ?_)

theorem writeLine_keeps {s0 : State} (s : State) (port : Nat) (x : Dlv) (l : OutLine) (hK : Keeps s0 s) : Keeps s0
    (writeLine s port x l) := by
  unfold writeLine
  repeat' (with_reducible first
      | assumption | apply setBank_keeps | apply spWrite_keeps | apply bump_keeps | intro _ | extract_lets | split
      | dsimp +zetaDelta only | refine Keeps.put ?_)

theorem execDlvPortWrite_keeps {s0 : State} (port : Nat) (read : SramRead) (s : State)
    (hK : Keeps s0 s) : ∃ t, execDlvPortWrite port read s = .next t ∧ Keeps s0 t := by
  refine ⟨_, rfl, ?_⟩
  repeat' (with_reducible first
      | assumption | apply writeLine_keeps | apply readStaging_keeps | apply dropLine_keeps | apply advanceDlv_keeps
      | apply modDlv_keeps | apply arbGrant_keeps | refine Keeps.fst ‹_› ?_ | refine Keeps.snd ‹_› ?_ | intro _ | extract_lets | split
      | dsimp +zetaDelta only | refine Keeps.put ?_)

theorem bankAck_keeps {s0 : State} (s : State) (b : Nat) (hK : Keeps s0 s) : Keeps s0 (bankAck s b) := by
  unfold bankAck
  repeat' (with_reducible first
      | assumption | apply setBank_keeps | apply bump_keeps | intro _ | extract_lets | split | dsimp +zetaDelta only
      | refine Keeps.put ?_)

theorem execSpWack_keeps {s0 : State} (port : Nat) (s : State) (hK : Keeps s0 s) : ∃ t, execSpWack port s = .next t ∧ Keeps s0 t := by
  refine ⟨_, rfl, ?_⟩
  repeat' (with_reducible first
      | assumption | apply bankAck_keeps | apply keyLineDone_keeps | apply lineLeaves_keeps | apply setBank_keeps
      | apply advanceDlv_keeps | apply modDlv_keeps | apply send_keeps | apply bump_keeps | refine Keeps.fst ‹_› ?_
      | refine Keeps.snd ‹_› ?_ | intro _ | extract_lets | split | dsimp +zetaDelta only | refine Keeps.put ?_)

theorem openAway_keeps {s0 : State} (s : State) (die item dst slot tag due : Nat) (hK : Keeps s0 s) : Keeps s0
    (openAway s die item dst slot tag due) := by
  unfold openAway
  repeat' (with_reducible first
      | assumption | apply addDlv_keeps | refine Keeps.fst ‹_› ?_ | refine Keeps.snd ‹_› ?_ | intro _ | split | refine Keeps.put ?_)

theorem modAway_keeps {s0 : State} (s : State) (die item dst : Nat) (f : Dlv → Dlv) (hK : Keeps s0 s) : Keeps s0
    (modAway s die item dst f) := by
  unfold modAway
  repeat' (with_reducible first | assumption | apply modDlv_keeps | refine Keeps.fst ‹_› ?_ | refine Keeps.snd ‹_› ?_ | intro _ | split)

theorem advanceAway_keeps {s0 : State} (s : State) (die item dst : Nat) (f : Dlv → Dlv) (hK : Keeps s0 s) : Keeps s0
    (advanceAway s die item dst f) := by
  unfold advanceAway
  repeat' (with_reducible first
      | assumption | apply advanceDlv_keeps | apply modDlv_keeps | refine Keeps.fst ‹_› ?_ | refine Keeps.snd ‹_› ?_ | intro _ | split)

theorem execMcastCreditReturn_keeps {s0 : State} (item die dst num : Nat) (dropped : Bool) (stallFclk : Nat) (s : State)
    (hK : Keeps s0 s) : ∃ t, execMcastCreditReturn item die dst num dropped stallFclk s = .next t ∧ Keeps s0 t := by
  refine ⟨_, rfl, ?_⟩
  repeat' (with_reducible first
      | assumption | apply advanceDlv_keeps | apply modDlv_keeps | apply bumpBy_keeps | refine Keeps.fst ‹_› ?_
      | refine Keeps.snd ‹_› ?_ | intro _ | split)

theorem execStragglerTimeout_keeps {s0 : State} (item : Nat) (s : State)
    (hK : Keeps s0 s) : ∃ t, execStragglerTimeout item s = .next t ∧ Keeps s0 t := by
  refine ⟨_, rfl, ?_⟩
  repeat' (with_reducible first
      | assumption | apply advanceDlv_keeps | apply sendNotice_keeps | apply dlvError_keeps | apply modDlv_keeps | apply bumpBy_keeps
      | apply Keeps.foldl | apply Keeps.foldlFst | apply Keeps.foldlSnd | refine Keeps.fst ‹_› ?_ | refine Keeps.snd ‹_› ?_ | intro _
      | extract_lets | split | dsimp +zetaDelta only)

theorem stragglerEffect_keeps {s0 : State} (x0 : Via) (x1 : Nat) (x2 : Nat) (x3 : List Byte) (s : State) (hK : Keeps s0 s) : Keeps s0
    (stragglerEffect x0 x1 x2 x3 s) := by
  unfold stragglerEffect
  repeat' (with_reducible first | assumption | apply claimEffect_keeps | apply storeEffect_keeps | intro _ | split)

theorem execStragglerEnableWrite_keeps {s0 : State} (via : Via) (value : Nat) (s : State)
    (hK : Keeps s0 s) : ∃ t, execStragglerEnableWrite via value s = .next t ∧ Keeps s0 t := by
  refine ⟨_, rfl, ?_⟩
  repeat' (with_reducible first | assumption | apply stragglerEffect_keeps | apply requestWrite_keeps | intro _)

theorem execBankPdReqAssert_keeps {s0 : State} (bank : Nat) (s : State)
    (hK : Keeps s0 s) : ∃ t, execBankPdReqAssert bank s = .next t ∧ Keeps s0 t := by
  refine ⟨_, rfl, ?_⟩
  repeat' (with_reducible first | assumption | apply bankAck_keeps | apply setBank_keeps | intro _ | refine Keeps.put ?_)

theorem execBankPdReqWithdraw_keeps {s0 : State} (bank : Nat) (s : State)
    (hK : Keeps s0 s) : ∃ t, execBankPdReqWithdraw bank s = .next t ∧ Keeps s0 t := by
  refine ⟨_, rfl, ?_⟩
  repeat' (with_reducible first | assumption | apply setBank_keeps | intro _ | refine Keeps.put ?_)

theorem execBankOnRise_keeps {s0 : State} (bank : Nat) (s : State)
    (hK : Keeps s0 s) : ∃ t, execBankOnRise bank s = .next t ∧ Keeps s0 t := by
  refine ⟨_, rfl, ?_⟩
  repeat' (with_reducible first | assumption | apply setBank_keeps | intro _ | refine Keeps.put ?_)

theorem execBankOnFall_keeps {s0 : State} (bank : Nat) (s : State)
    (hK : Keeps s0 s) : ∃ t, execBankOnFall bank s = .next t ∧ Keeps s0 t := by
  refine ⟨_, rfl, ?_⟩
  repeat' (with_reducible first | assumption | apply setBank_keeps | intro _ | refine Keeps.put ?_)

/-! ## FedOps -/

theorem fedTake_keeps {s0 : State} (ty : Nat) (m : FedArrival) (act : List Byte → State → State) (s : State)
    (he : ∀ b s, Keeps s0 s → Keeps s0 (act b s)) (hK : Keeps s0 s) : Keeps s0 (fedTake ty m act s) := by
  unfold fedTake
  repeat' (with_reducible first | assumption | apply send_keeps | apply bump_keeps | apply he | intro _ | split)

theorem poisonScratch_keeps {s0 : State} (s : State) (addrs : List Nat) (hK : Keeps s0 s) : Keeps s0 (poisonScratch s addrs) := by
  unfold poisonScratch
  repeat' (with_reducible first
      | assumption | apply reserveFree_keeps | apply spWrite_keeps | apply Keeps.foldl | apply Keeps.foldlFst | apply Keeps.foldlSnd
      | refine Keeps.fst ‹_› ?_ | refine Keeps.snd ‹_› ?_ | intro _ | extract_lets | split | dsimp +zetaDelta only)

theorem raiseFatal_keeps {s0 : State} (s : State) (cause : Nat) (hK : Keeps s0 s) : Keeps s0 (raiseFatal s cause) := by
  unfold raiseFatal
  repeat' (with_reducible first | assumption | apply raiseErr_keeps | apply countErr_keeps | intro _ | split)

theorem fatalError_keeps {s0 : State} (s : State) (cause : Nat) (hK : Keeps s0 s) : Keeps s0 (fatalError s cause) := by
  unfold fatalError
  repeat' (with_reducible first
      | assumption | apply raiseFatal_keeps | apply poisonScratch_keeps | apply lastBadOther_keeps | intro _ | extract_lets
      | dsimp +zetaDelta only | refine Keeps.put ?_)

/-! ## Barrier -/

theorem openKeyStreams_keeps {s0 : State} (s : State) (hK : Keeps s0 s) : Keeps s0 (openKeyStreams s) := by
  unfold openKeyStreams
  repeat' (with_reducible first
      | assumption | refine Keeps.fst ‹_› ?_ | refine Keeps.snd ‹_› ?_ | extract_lets | split | dsimp +zetaDelta only
      | refine Keeps.put ?_)

theorem openWindows_keeps {s0 : State} (s : State) (hK : Keeps s0 s) : Keeps s0 (openWindows s) := by
  unfold openWindows
  repeat' (with_reducible first
      | assumption | apply openKeyStreams_keeps | apply advanceDlv_keeps | apply Keeps.foldl | apply Keeps.foldlFst
      | apply Keeps.foldlSnd | intro _)

theorem execBarRelease_keeps {s0 : State} (s : State) (hK : Keeps s0 s) : ∃ t, execBarRelease s = .next t ∧ Keeps s0 t := by
  refine ⟨_, rfl, ?_⟩
  repeat' (with_reducible first
      | assumption | apply openWindows_keeps | apply objSet_keeps | intro _ | extract_lets | split | dsimp +zetaDelta only
      | refine Keeps.put ?_)

theorem dropHeld_keeps {s0 : State} (s : State) (hK : Keeps s0 s) : Keeps s0 (dropHeld s) := by
  unfold dropHeld
  repeat' (with_reducible first
      | assumption | apply dropLine_keeps | apply advanceDlv_keeps | apply Keeps.foldl | apply Keeps.foldlFst | apply Keeps.foldlSnd
      | intro _ | split)

theorem recordTied_keeps {s0 : State} (before : State) (after : State) (hK : Keeps s0 after) : Keeps s0 (recordTied before after) := by
  unfold recordTied
  repeat' (with_reducible first
      | assumption | refine Keeps.fst ‹_› ?_ | refine Keeps.snd ‹_› ?_ | extract_lets | split | dsimp +zetaDelta only
      | refine Keeps.put ?_)

theorem lateRecord_keeps {s0 : State} (s : State) (hK : Keeps s0 s) : Keeps s0 (lateRecord s) := by
  unfold lateRecord
  repeat' (with_reducible first
      | assumption | apply bump_keeps | apply objSet_keeps | refine Keeps.fst ‹_› ?_ | refine Keeps.snd ‹_› ?_ | intro _ | extract_lets
      | split | dsimp +zetaDelta only)

theorem arrive_keeps {s0 : State} (s : State) (fabricFirst : Bool) (waitFclk : Nat) (hK : Keeps s0 s) : Keeps s0
    (arrive s fabricFirst waitFclk) := by
  unfold arrive
  repeat' (with_reducible first
      | assumption | apply lateRecord_keeps | apply pulse_keeps | apply fire_keeps | apply traceRec_keeps | apply bump_keeps
      | apply bumpBy_keeps | intro _ | extract_lets | split | dsimp +zetaDelta only | refine Keeps.put ?_)

theorem execEngineArrive_keeps {s0 : State} (fabricFirst : Bool) (waitFclk : Nat) (s : State)
    (hK : Keeps s0 s) : ∃ t, execEngineArrive fabricFirst waitFclk s = .next t ∧ Keeps s0 t := by
  refine ⟨_, rfl, ?_⟩
  repeat' (with_reducible first
      | assumption | apply arrive_keeps | apply recordTied_keeps | apply dropHeld_keeps | intro _ | extract_lets | split
      | dsimp +zetaDelta only)

theorem execRegionPoisoning_keeps {s0 : State} (slot : Nat) (s : State)
    (hK : Keeps s0 s) : ∃ t, execRegionPoisoning slot s = .next t ∧ Keeps s0 t := by
  refine ⟨_, rfl, ?_⟩
  repeat' (with_reducible first
      | assumption | apply addDlv_keeps | apply reserveFree_keeps | refine Keeps.fst ‹_› ?_ | refine Keeps.snd ‹_› ?_ | intro _
      | extract_lets | split | dsimp +zetaDelta only)

theorem permit_keeps {s0 : State} (s : State) (hK : Keeps s0 s) : Keeps s0 (permit s) := by
  unfold permit
  repeat' (with_reducible first | assumption | refine Keeps.put ?_)

theorem leadRelease_keeps {s0 : State} (s : State) (hK : Keeps s0 s) : Keeps s0 (leadRelease s) := by
  unfold leadRelease
  repeat' (with_reducible first
      | assumption | apply permit_keeps | apply fedSend_keeps | apply Keeps.foldl | apply Keeps.foldlFst | apply Keeps.foldlSnd
      | intro _ | extract_lets | split | dsimp +zetaDelta only | refine Keeps.put ?_)

theorem sendArrive_keeps {s0 : State} (s : State) (hK : Keeps s0 s) : Keeps s0 (sendArrive s) := by
  unfold sendArrive
  repeat' (with_reducible first | assumption | apply leadRelease_keeps | apply fedSend_keeps | intro _ | split | refine Keeps.put ?_)

theorem execBarReport_keeps {s0 : State} (s : State) (hK : Keeps s0 s) : ∃ t, execBarReport s = .next t ∧ Keeps s0 t := by
  refine ⟨_, rfl, ?_⟩
  repeat' (with_reducible first | assumption | apply sendArrive_keeps | intro _ | split | refine Keeps.put ?_)

theorem execFedArrive_keeps {s0 : State} (msg : FedArrival) (s : State)
    (hK : Keeps s0 s) : ∃ t, execFedArrive msg s = .next t ∧ Keeps s0 t := by
  refine ⟨_, rfl, ?_⟩
  repeat' (with_reducible first | assumption | apply leadRelease_keeps | apply fedTake_keeps | intro _ | split | refine Keeps.put ?_)

theorem execFedRelease_keeps {s0 : State} (msg : FedArrival) (s : State)
    (hK : Keeps s0 s) : ∃ t, execFedRelease msg s = .next t ∧ Keeps s0 t := by
  refine ⟨_, rfl, ?_⟩
  repeat' (with_reducible first | assumption | apply permit_keeps | apply fedTake_keeps | intro _ | split)

/-! ## IngestOps -/

theorem modMsg_keeps {s0 : State} (s : State) (id : Nat) (f : Msg → Msg) (hK : Keeps s0 s) : Keeps s0 (modMsg s id f) := by
  unfold modMsg
  repeat' (with_reducible first | assumption | split | refine Keeps.put ?_)

theorem stageAsk_keeps {s0 : State} (s : State) (cmd : Nat) (hK : Keeps s0 s) : Keeps s0 (stageAsk s cmd) := by
  unfold stageAsk
  repeat' (with_reducible first
      | assumption | apply semWait_keeps | apply modStage_keeps | refine Keeps.fst ‹_› ?_ | refine Keeps.snd ‹_› ?_ | intro _ | split
      | refine Keeps.put ?_)

theorem writeIngest_keeps {s0 : State} (s : State) (i : IngestStage) (rec : List Byte) (hK : Keeps s0 s) : Keeps s0
    (writeIngest s i rec) := by
  unfold writeIngest
  repeat' (with_reducible first | assumption | apply modStage_keeps | apply memWrite_keeps | intro _ | refine Keeps.put ?_)

theorem portErr_keeps {s0 : State} (s : State) (p code src : Nat) (hK : Keeps s0 s) : Keeps s0 (portErr s p code src) := by
  unfold portErr
  repeat' (with_reducible first | assumption | apply fire_keeps | apply traceRec_keeps | apply bump_keeps | intro _)

theorem raiseIngest_keeps {s0 : State} (s : State) (m : Msg) (t : Turned) (hK : Keeps s0 s) : Keeps s0 (raiseIngest s m t) := by
  unfold raiseIngest
  repeat' (with_reducible first
      | assumption | apply portErr_keeps | apply raiseErrOn_keeps | apply bump_keeps | intro _ | extract_lets | split
      | dsimp +zetaDelta only)

theorem settleRefused_keeps {s0 : State} (s : State) (m : Msg) (t : Turned) (hK : Keeps s0 s) : Keeps s0 (settleRefused s m t) := by
  unfold settleRefused
  repeat' (with_reducible first
      | assumption | apply raiseIngest_keeps | apply writeIngest_keeps | apply modMsg_keeps | apply releaseMsg_keeps
      | apply stageEnds_keeps | refine Keeps.fst ‹_› ?_ | refine Keeps.snd ‹_› ?_ | intro _ | extract_lets | split
      | dsimp +zetaDelta only | refine Keeps.put ?_)

theorem turnAway_keeps {s0 : State} (s : State) (id code offset : Nat) (cut : Bool) (hK : Keeps s0 s) : Keeps s0
    (turnAway s id code offset cut) := by
  unfold turnAway
  repeat' (with_reducible first | assumption | apply modMsg_keeps | apply cancelStreams_keeps | intro _ | split | refine Keeps.put ?_)

theorem turnNoLane_keeps {s0 : State} (s : State) (id : Nat) (hK : Keeps s0 s) : Keeps s0 (turnNoLane s id) := by
  unfold turnNoLane
  repeat' (with_reducible first
      | assumption | apply turnAway_keeps | apply drawFree_keeps | refine Keeps.fst ‹_› ?_ | refine Keeps.snd ‹_› ?_ | intro _
      | extract_lets | split | dsimp +zetaDelta only)

theorem startLimb_keeps {s0 : State} (s : State) (m : Msg) (limb : Nat) (hK : Keeps s0 s) : Keeps s0 (startLimb s m limb) := by
  unfold startLimb
  repeat' (with_reducible first | assumption | apply modMsg_keeps | intro _ | extract_lets | dsimp +zetaDelta only | refine Keeps.put ?_)

theorem checkHeader_keeps {s0 : State} (s : State) (i : IngestStage) (m : Msg) (hK : Keeps s0 s) : Keeps s0 (checkHeader s i m) := by
  unfold checkHeader
  repeat' (with_reducible first
      | assumption | apply startLimb_keeps | apply turnNoLane_keeps | apply turnAway_keeps | apply modMsg_keeps | apply Keeps.foldl
      | apply Keeps.foldlFst | apply Keeps.foldlSnd | refine Keeps.fst ‹_› ?_ | refine Keeps.snd ‹_› ?_ | intro _ | extract_lets
      | split | dsimp +zetaDelta only | refine Keeps.put ?_)

theorem checkLanded_keeps {s0 : State} (s : State) (m : Msg) (hK : Keeps s0 s) : Keeps s0 (checkLanded s m) := by
  unfold checkLanded
  repeat' (with_reducible first
      | assumption | apply turnAway_keeps | apply modMsg_keeps | refine Keeps.fst ‹_› ?_ | refine Keeps.snd ‹_› ?_ | intro _
      | extract_lets | split | dsimp +zetaDelta only | refine Keeps.put ?_)

theorem checkTail_keeps {s0 : State} (s : State) (m : Msg) (hK : Keeps s0 s) : Keeps s0 (checkTail s m) := by
  unfold checkTail
  repeat' (with_reducible first | assumption | apply turnAway_keeps | intro _ | extract_lets | split | dsimp +zetaDelta only)

theorem assignContainer_keeps {s0 : State} (s : State) (i : IngestStage) (m : Msg) (hK : Keeps s0 s) : Keeps s0
    (assignContainer s i m) := by
  unfold assignContainer
  repeat' (with_reducible first
      | assumption | apply modMsg_keeps | apply announceDlv_keeps | apply modStage_keeps | refine Keeps.fst ‹_› ?_
      | refine Keeps.snd ‹_› ?_ | intro _ | extract_lets | split | dsimp +zetaDelta only | refine Keeps.put ?_)

theorem writeManifest_keeps {s0 : State} (s : State) (i : IngestStage) (d : Nat) (hK : Keeps s0 s) : Keeps s0 (writeManifest s i d) := by
  unfold writeManifest
  repeat' (with_reducible first
      | assumption | apply advanceDlv_keeps | apply announceDlv_keeps | apply emitLine_keeps | apply modDlv_keeps | intro _
      | extract_lets | dsimp +zetaDelta only | refine Keeps.put ?_)

theorem writeManifests_keeps {s0 : State} (s : State) (slot : Nat) (hK : Keeps s0 s) : Keeps s0 (writeManifests s slot) := by
  unfold writeManifests
  repeat' (with_reducible first
      | assumption | apply writeManifest_keeps | apply modStage_keeps | apply Keeps.foldl | apply Keeps.foldlFst | apply Keeps.foldlSnd
      | intro _ | extract_lets | dsimp +zetaDelta only | refine Keeps.put ?_)

theorem takeNotice_keeps {s0 : State} (s : State) (die item dst slot tag due : Nat) (n : DlvNotice) (hK : Keeps s0 s) : Keeps s0
    (takeNotice s die item dst slot tag due n) := by
  unfold takeNotice
  repeat' (with_reducible first
      | assumption | apply writeManifests_keeps | apply advanceAway_keeps | apply modAway_keeps | apply openAway_keeps
      | apply raiseHorizon_keeps | refine Keeps.fst ‹_› ?_ | refine Keeps.snd ‹_› ?_ | intro _ | extract_lets | split
      | dsimp +zetaDelta only | refine Keeps.put ?_)

theorem execD2dLineReceived_keeps {s0 : State} (die item dst : Nat) (what : DlvMsg) (slot tag due : Nat) (s : State)
    (hK : Keeps s0 s) : ∃ t, execD2dLineReceived die item dst what slot tag due s = .next t ∧ Keeps s0 t := by
  refine ⟨_, rfl, ?_⟩
  repeat' (with_reducible first
      | assumption | apply takeNotice_keeps | apply modAway_keeps | apply openAway_keeps | refine Keeps.fst ‹_› ?_
      | refine Keeps.snd ‹_› ?_ | intro _ | extract_lets | split | dsimp +zetaDelta only | refine Keeps.put ?_)

theorem checkMsg_keeps {s0 : State} (s : State) (id : Nat) (f : Msg → State → State) (he : ∀ m s, Keeps s0 s → Keeps s0 (f m s))
    (hK : Keeps s0 s) : Keeps s0 (checkMsg s id f) := by
  unfold checkMsg
  repeat' (with_reducible first | assumption | apply he | refine Keeps.fst ‹_› ?_ | refine Keeps.snd ‹_› ?_ | intro _ | split)

theorem ingestChecks_keeps {s0 : State} (s : State) (id : Nat) (i : IngestStage) (hK : Keeps s0 s) : Keeps s0 (ingestChecks s id i) := by
  unfold ingestChecks
  repeat' (with_reducible first
      | assumption | apply checkMsg_keeps | apply checkTail_keeps | apply checkLanded_keeps | apply checkHeader_keeps
      | apply turnAway_keeps | intro _ | extract_lets | split | dsimp +zetaDelta only)

theorem ingestProgress_keeps {s0 : State} (s : State) (id : Nat) (hK : Keeps s0 s) : Keeps s0 (ingestProgress s id) := by
  unfold ingestProgress
  repeat' (with_reducible first
      | assumption | apply ingestChecks_keeps | apply writeManifests_keeps | apply assignContainer_keeps | apply settleRefused_keeps
      | refine Keeps.fst ‹_› ?_ | refine Keeps.snd ‹_› ?_ | intro _ | extract_lets | split | dsimp +zetaDelta only)

theorem stagesTake_keeps {s0 : State} (s : State) (hK : Keeps s0 s) : Keeps s0 (stagesTake s) := by
  unfold stagesTake
  repeat' (with_reducible first
      | assumption | apply ingestProgress_keeps | apply stageAsk_keeps | apply modMsg_keeps | apply modStage_keeps | apply Keeps.foldl
      | apply Keeps.foldlFst | apply Keeps.foldlSnd | refine Keeps.fst ‹_› ?_ | refine Keeps.snd ‹_› ?_ | intro _ | extract_lets
      | split | dsimp +zetaDelta only | refine Keeps.put ?_)

theorem issueIngest_keeps {s0 : State} (s : State) (c : Cmd) (p : IngestParams) (hK : Keeps s0 s) : Keeps s0 (issueIngest s c p) := by
  unfold issueIngest
  repeat' (with_reducible first
      | assumption | apply stagesTake_keeps | apply stageAsk_keeps | apply refuseItem_keeps | apply stageEnds_keeps
      | apply modSlot_keeps | refine Keeps.fst ‹_› ?_ | refine Keeps.snd ‹_› ?_ | intro _ | extract_lets | split
      | dsimp +zetaDelta only | refine Keeps.put ?_)

theorem acceptContainer_keeps {s0 : State} (s : State) (i : IngestStage) (m : Msg) (hK : Keeps s0 s) : Keeps s0
    (acceptContainer s i m) := by
  unfold acceptContainer
  repeat' (with_reducible first
      | assumption | apply writeIngest_keeps | apply modMsg_keeps | apply semSignal_keeps | apply stageEnds_keeps
      | apply modStage_keeps | apply fire_keeps | apply bump_keeps | intro _ | extract_lets | split | dsimp +zetaDelta only
      | refine Keeps.put ?_)

theorem closeContainer_keeps {s0 : State} (s : State) (d : Nat) (hK : Keeps s0 s) : Keeps s0 (closeContainer s d) := by
  unfold closeContainer
  repeat' (with_reducible first | assumption | apply advanceDlv_keeps | apply modDlv_keeps | intro _ | refine Keeps.put ?_)

theorem passLimb_keeps {s0 : State} (s : State) (i : IngestStage) (m : Msg) (d k : Nat) (poison : Bool) (hK : Keeps s0 s) : Keeps s0
    (passLimb s i m d k poison) := by
  unfold passLimb
  repeat' (with_reducible first
      | assumption | apply closeContainer_keeps | apply acceptContainer_keeps | apply modMsg_keeps | apply advanceDlv_keeps
      | apply emitLines_keeps | apply readChecked_keeps | apply raiseErr_keeps | apply Keeps.foldl | apply Keeps.foldlFst
      | apply Keeps.foldlSnd | refine Keeps.fst ‹_› ?_ | refine Keeps.snd ‹_› ?_ | intro _ | extract_lets | split
      | dsimp +zetaDelta only | refine Keeps.put ?_)

theorem execIngestConversion_keeps {s0 : State} (message delta : Nat) (s : State)
    (hK : Keeps s0 s) : ∃ t, execIngestConversion message delta s = .next t ∧ Keeps s0 t := by
  refine ⟨_, rfl, ?_⟩
  repeat' (with_reducible first
      | assumption | apply passLimb_keeps | apply startLimb_keeps | apply turnNoLane_keeps | apply settleRefused_keeps
      | apply modMsg_keeps | apply cancelStreams_keeps | apply raiseErr_keeps | apply bump_keeps | refine Keeps.fst ‹_› ?_
      | refine Keeps.snd ‹_› ?_ | intro _ | extract_lets | split | dsimp +zetaDelta only | refine Keeps.put ?_)

/-! ## NetOps -/

theorem setPort_keeps {s0 : State} (s : State) (p : Nat) (x : Port) (hK : Keeps s0 s) : Keeps s0 (setPort s p x) := by
  unfold setPort
  repeat' (with_reducible first | assumption | refine Keeps.put ?_)

theorem modPort_keeps {s0 : State} (s : State) (p : Nat) (f : Port → Port) (hK : Keeps s0 s) : Keeps s0 (modPort s p f) := by
  unfold modPort
  repeat' (with_reducible first | assumption | apply setPort_keeps | intro _)

theorem setQp_keeps {s0 : State} (s : State) (q : Nat) (x : Qp) (hK : Keeps s0 s) : Keeps s0 (setQp s q x) := by
  unfold setQp
  repeat' (with_reducible first | assumption | refine Keeps.put ?_)

theorem modQp_keeps {s0 : State} (s : State) (q : Nat) (f : Qp → Qp) (hK : Keeps s0 s) : Keeps s0 (modQp s q f) := by
  unfold modQp
  repeat' (with_reducible first | assumption | apply setQp_keeps | intro _)

theorem setLr_keeps {s0 : State} (s : State) (r : Nat) (x : Lr) (hK : Keeps s0 s) : Keeps s0 (setLr s r x) := by
  unfold setLr
  repeat' (with_reducible first | assumption | refine Keeps.put ?_)

theorem transmit_keeps {s0 : State} (s : State) (p : Nat) (f : TxFrame) (hK : Keeps s0 s) : Keeps s0 (transmit s p f) := by
  unfold transmit
  repeat' (with_reducible first | assumption | refine Keeps.put ?_)

theorem setPause_keeps {s0 : State} (s : State) (p : Nat) (on : Bool) (hK : Keeps s0 s) : Keeps s0 (setPause s p on) := by
  unfold setPause
  repeat' (with_reducible first
      | assumption | apply transmit_keeps | apply modPort_keeps | apply Keeps.foldl | apply Keeps.foldlFst | apply Keeps.foldlSnd
      | intro _ | extract_lets | split | dsimp +zetaDelta only | refine Keeps.put ?_)

theorem withdrawAlloc_keeps {s0 : State} (s : State) (owner : ReqOwner) (hK : Keeps s0 s) : Keeps s0 (withdrawAlloc s owner) := by
  unfold withdrawAlloc
  repeat' (with_reducible first
      | assumption | apply countWithdrawn_keeps | apply setPool_keeps | apply Keeps.foldl | apply Keeps.foldlFst | apply Keeps.foldlSnd
      | refine Keeps.fst ‹_› ?_ | refine Keeps.snd ‹_› ?_ | intro _ | extract_lets | split | dsimp +zetaDelta only
      | refine Keeps.put ?_)

theorem withdrawOpen_keeps {s0 : State} (s : State) (p : Nat) (o : OpenReq) (hK : Keeps s0 s) : Keeps s0 (withdrawOpen s p o) := by
  unfold withdrawOpen
  repeat' (with_reducible first
      | assumption | apply withdrawAlloc_keeps | apply modPort_keeps | apply semSignal_keeps | apply freeBuffers_keeps
      | apply setPair_keeps | refine Keeps.fst ‹_› ?_ | refine Keeps.snd ‹_› ?_ | intro _ | extract_lets | split
      | dsimp +zetaDelta only | refine Keeps.put ?_)

theorem quiesceCheck_keeps {s0 : State} (s : State) (p : Nat) (hK : Keeps s0 s) : Keeps s0 (quiesceCheck s p) := by
  unfold quiesceCheck
  repeat' (with_reducible first | assumption | apply modPort_keeps | apply fire_keeps | intro _ | split | refine Keeps.put ?_)

theorem clearPort_keeps {s0 : State} (s : State) (p : Nat) (hK : Keeps s0 s) : Keeps s0 (clearPort s p) := by
  unfold clearPort
  repeat' (with_reducible first | assumption | apply modPort_keeps | intro _ | refine Keeps.put ?_)

theorem netPower_keeps {s0 : State} (s : State) (p : Nat) (on : Bool) (hK : Keeps s0 s) : Keeps s0 (netPower s p on) := by
  unfold netPower
  repeat' (with_reducible first | assumption | split | refine Keeps.put ?_)

theorem qpStopped_keeps {s0 : State} (s : State) (q : Nat) (hK : Keeps s0 s) : Keeps s0 (qpStopped s q) := by
  unfold qpStopped
  repeat' (with_reducible first
      | assumption | apply withdrawOpen_keeps | apply setQp_keeps | apply localFinish_keeps | apply Keeps.foldl | apply Keeps.foldlFst
      | apply Keeps.foldlSnd | refine Keeps.fst ‹_› ?_ | refine Keeps.snd ‹_› ?_ | intro _ | extract_lets | split
      | dsimp +zetaDelta only | refine Keeps.put ?_)

theorem lrStopped_keeps {s0 : State} (s : State) (r : Nat) (hK : Keeps s0 s) : Keeps s0 (lrStopped s r) := by
  unfold lrStopped
  repeat' (with_reducible first
      | assumption | apply setLr_keeps | apply localFinish_keeps | refine Keeps.fst ‹_› ?_ | refine Keeps.snd ‹_› ?_ | intro _
      | extract_lets | split | dsimp +zetaDelta only | refine Keeps.put ?_)

theorem denyOpens_keeps {s0 : State} (s : State) (hit : OpenReq → Bool) (hK : Keeps s0 s) : Keeps s0 (denyOpens s hit) := by
  unfold denyOpens
  repeat' (with_reducible first
      | assumption | apply modPort_keeps | apply Keeps.foldl | apply Keeps.foldlFst | apply Keeps.foldlSnd | intro _ | split
      | refine Keeps.put ?_)

theorem afterEnd_keeps {s0 : State} (s : State) (m : Msg) (hK : Keeps s0 s) : Keeps s0 (afterEnd s m) := by
  unfold afterEnd
  repeat' (with_reducible first | assumption | apply lrStopped_keeps | apply qpStopped_keeps | apply quiesceCheck_keeps | intro _)

theorem endRaw_keeps {s0 : State} (s : State) (m : Msg) (how : MsgEnd) (hK : Keeps s0 s) : Keeps s0 (endRaw s m how) := by
  unfold endRaw
  repeat' (with_reducible first
      | assumption | apply portErr_keeps | apply releaseMsg_keeps | apply dropMsg_keeps | apply pushEntry_keeps | apply semSignal_keeps
      | apply bump_keeps | apply objSet_keeps | apply memWrite_keeps | refine Keeps.fst ‹_› ?_ | refine Keeps.snd ‹_› ?_ | intro _
      | extract_lets | split | dsimp +zetaDelta only | refine Keeps.put ?_)

theorem endContainer_keeps {s0 : State} (s : State) (m : Msg) (how : MsgEnd) (hK : Keeps s0 s) : Keeps s0 (endContainer s m how) := by
  unfold endContainer
  repeat' (with_reducible first
      | assumption | apply ingestProgress_keeps | apply turnAway_keeps | apply settleRefused_keeps | apply modMsg_keeps
      | apply releaseMsg_keeps | apply bump_keeps | refine Keeps.fst ‹_› ?_ | refine Keeps.snd ‹_› ?_ | intro _ | extract_lets | split
      | dsimp +zetaDelta only | refine Keeps.put ?_)

theorem endMessage_keeps {s0 : State} (s : State) (id : Nat) (how : MsgEnd) (hK : Keeps s0 s) : Keeps s0 (endMessage s id how) := by
  unfold endMessage
  repeat' (with_reducible first
      | assumption | apply endContainer_keeps | apply endRaw_keeps | apply afterEnd_keeps | refine Keeps.fst ‹_› ?_
      | refine Keeps.snd ‹_› ?_ | intro _ | split)

theorem cutMessages_keeps {s0 : State} (s : State) (ms : List Msg) (hK : Keeps s0 s) : Keeps s0 (cutMessages s ms) := by
  unfold cutMessages
  repeat' (with_reducible first
      | assumption | apply endMessage_keeps | apply Keeps.foldl | apply Keeps.foldlFst | apply Keeps.foldlSnd | intro _)

theorem qpError_keeps {s0 : State} (s : State) (q : Nat) (hK : Keeps s0 s) : Keeps s0 (qpError s q) := by
  unfold qpError
  repeat' (with_reducible first
      | assumption | apply cutMessages_keeps | apply withdrawOpen_keeps | apply setQp_keeps | apply portErr_keeps | apply Keeps.foldl
      | apply Keeps.foldlFst | apply Keeps.foldlSnd | intro _ | extract_lets | split | dsimp +zetaDelta only | refine Keeps.put ?_)

theorem portQpError_keeps {s0 : State} (s : State) (p : Nat) (hK : Keeps s0 s) : Keeps s0 (portQpError s p) := by
  unfold portQpError
  repeat' (with_reducible first
      | assumption | apply qpError_keeps | apply Keeps.foldl | apply Keeps.foldlFst | apply Keeps.foldlSnd | intro _)

theorem engineReady_keeps {s0 : State} (s : State) (hK : Keeps s0 s) : Keeps s0 (engineReady s) := by
  unfold engineReady
  repeat' (with_reducible first | assumption | split | refine Keeps.put ?_)

theorem startTraining_keeps {s0 : State} (s : State) (p : Nat) (hK : Keeps s0 s) : Keeps s0 (startTraining s p) := by
  unfold startTraining
  repeat' (with_reducible first
      | assumption | apply transmit_keeps | apply modPort_keeps | intro _ | extract_lets | split | dsimp +zetaDelta only
      | refine Keeps.put ?_)

theorem portDown_keeps {s0 : State} (s : State) (p : Nat) (hK : Keeps s0 s) : Keeps s0 (portDown s p) := by
  unfold portDown
  repeat' (with_reducible first
      | assumption | apply portQpError_keeps | apply cutMessages_keeps | apply clearPort_keeps | apply withdrawOpen_keeps
      | apply Keeps.foldl | apply Keeps.foldlFst | apply Keeps.foldlSnd | intro _ | extract_lets | dsimp +zetaDelta only)

theorem finishGoing_keeps {s0 : State} (s : State) (p : Nat) (hK : Keeps s0 s) : Keeps s0 (finishGoing s p) := by
  unfold finishGoing
  repeat' (with_reducible first
      | assumption | apply portDown_keeps | apply engineReady_keeps | apply netPower_keeps | apply modPort_keeps
      | apply localFinish_keeps | apply fire_keeps | intro _ | extract_lets | split | dsimp +zetaDelta only | refine Keeps.put ?_)

theorem goingCheck_keeps {s0 : State} (s : State) (p : Nat) (hK : Keeps s0 s) : Keeps s0 (goingCheck s p) := by
  unfold goingCheck
  repeat' (with_reducible first | assumption | apply finishGoing_keeps | intro _ | split)

theorem linkLost_keeps {s0 : State} (s : State) (p : Nat) (hK : Keeps s0 s) : Keeps s0 (linkLost s p) := by
  unfold linkLost
  repeat' (with_reducible first
      | assumption | apply finishGoing_keeps | apply portDown_keeps | apply modPort_keeps | apply portErr_keeps | intro _ | split
      | refine Keeps.put ?_)

theorem sendDrop_keeps {s0 : State} (s : State) (p l : Nat) (hK : Keeps s0 s) : Keeps s0 (sendDrop s p l) := by
  unfold sendDrop
  repeat' (with_reducible first | assumption | apply transmit_keeps | intro _)

theorem dropLanes_keeps {s0 : State} (s : State) (p : Nat) (ls : List Nat) (hK : Keeps s0 s) : Keeps s0 (dropLanes s p ls) := by
  unfold dropLanes
  repeat' (with_reducible first
      | assumption | apply sendDrop_keeps | apply modPort_keeps | apply Keeps.foldl | apply Keeps.foldlFst | apply Keeps.foldlSnd
      | intro _ | extract_lets | dsimp +zetaDelta only | refine Keeps.put ?_)

theorem sendTraining_keeps {s0 : State} (s : State) (p l : Nat) (y : LaneTrain) (f : Nat) (hK : Keeps s0 s) : Keeps s0
    (sendTraining s p l y f) := by
  unfold sendTraining
  repeat' (with_reducible first | assumption | apply transmit_keeps | apply modPort_keeps | intro _ | refine Keeps.put ?_)

theorem trainLanes_keeps {s0 : State} (s : State) (p : Nat) (ls : List Nat) (hK : Keeps s0 s) : Keeps s0 (trainLanes s p ls) := by
  unfold trainLanes
  repeat' (with_reducible first
      | assumption | apply sendTraining_keeps | apply modPort_keeps | apply Keeps.foldl | apply Keeps.foldlFst | apply Keeps.foldlSnd
      | intro _ | refine Keeps.put ?_)

theorem retireLane_keeps {s0 : State} (s : State) (p l : Nat) (hK : Keeps s0 s) : Keeps s0 (retireLane s p l) := by
  unfold retireLane
  repeat' (with_reducible first
      | assumption | apply dropLanes_keeps | apply modPort_keeps | apply portErr_keeps | apply objSet_keeps | intro _ | extract_lets
      | dsimp +zetaDelta only | refine Keeps.put ?_)

/-! ## Net -/

theorem settlePorts_keeps {s0 : State} (s : State) (hK : Keeps s0 s) : Keeps s0 (settlePorts s) := by
  unfold settlePorts
  repeat' (with_reducible first | assumption | apply goingCheck_keeps | intro _)

theorem disablePort_keeps {s0 : State} (s : State) (via : Via) (p : Nat) (index sub : Nat) (data : List Byte)
    (hK : Keeps s0 s) : Keeps s0 (disablePort s via p index sub data) := by
  unfold disablePort
  repeat' (with_reducible first
      | assumption | apply goingCheck_keeps | apply engineReady_keeps | apply netPower_keeps | apply clearPort_keeps
      | apply modPort_keeps | apply startLong_keeps | apply dictDone_keeps | apply objSet_keeps | intro _ | extract_lets | split
      | dsimp +zetaDelta only | refine Keeps.put ?_)

theorem enablePort_keeps {s0 : State} (s : State) (p : Nat) (hK : Keeps s0 s) : Keeps s0 (enablePort s p) := by
  unfold enablePort
  repeat' (with_reducible first
      | assumption | apply startTraining_keeps | apply netPower_keeps | apply modPort_keeps | apply objSet_keeps | intro _
      | extract_lets | dsimp +zetaDelta only | refine Keeps.put ?_)

theorem portEnableEffect_keeps {s0 : State} (x0 : Via) (x1 : Nat) (x2 : Nat) (x3 : List Byte) (s : State) (hK : Keeps s0 s) : Keeps s0
    (portEnableEffect x0 x1 x2 x3 s) := by
  unfold portEnableEffect
  repeat' (with_reducible first
      | assumption | apply enablePort_keeps | apply disablePort_keeps | apply dictDone_keeps | intro _ | extract_lets | split
      | dsimp +zetaDelta only)

theorem execPortEnableWrite_keeps {s0 : State} (via : Via) (port value : Nat) (s : State)
    (hK : Keeps s0 s) : ∃ t, execPortEnableWrite via port value s = .next t ∧ Keeps s0 t := by
  refine ⟨_, rfl, ?_⟩
  repeat' (with_reducible first | assumption | apply portEnableEffect_keeps | apply requestWrite_keeps | intro _)

theorem execPortDisableDeadline_keeps {s0 : State} (port : Nat) (s : State)
    (hK : Keeps s0 s) : ∃ t, execPortDisableDeadline port s = .next t ∧ Keeps s0 t := by
  refine ⟨_, rfl, ?_⟩
  repeat' (with_reducible first | assumption | apply finishGoing_keeps | intro _)

theorem laneEnableEffect_keeps {s0 : State} (x0 : Via) (x1 : Nat) (x2 : Nat) (x3 : List Byte) (s : State) (hK : Keeps s0 s) : Keeps s0
    (laneEnableEffect x0 x1 x2 x3 s) := by
  unfold laneEnableEffect
  repeat' (with_reducible first
      | assumption | apply disablePort_keeps | apply trainLanes_keeps | apply dropLanes_keeps | apply dictDone_keeps
      | apply objSet_keeps | intro _ | extract_lets | split | dsimp +zetaDelta only)

theorem execLaneEnableWrite_keeps {s0 : State} (via : Via) (port value : Nat) (s : State)
    (hK : Keeps s0 s) : ∃ t, execLaneEnableWrite via port value s = .next t ∧ Keeps s0 t := by
  refine ⟨_, rfl, ?_⟩
  repeat' (with_reducible first | assumption | apply laneEnableEffect_keeps | apply requestWrite_keeps | intro _)

theorem quiesceEffect_keeps {s0 : State} (x0 : Via) (x1 : Nat) (x2 : Nat) (x3 : List Byte) (s : State) (hK : Keeps s0 s) : Keeps s0
    (quiesceEffect x0 x1 x2 x3 s) := by
  unfold quiesceEffect
  repeat' (with_reducible first
      | assumption | apply quiesceCheck_keeps | apply modPort_keeps | apply dictDone_keeps | apply objSet_keeps | intro _
      | extract_lets | split | dsimp +zetaDelta only | refine Keeps.put ?_)

theorem execQuiesceWrite_keeps {s0 : State} (via : Via) (port value : Nat) (s : State)
    (hK : Keeps s0 s) : ∃ t, execQuiesceWrite via port value s = .next t ∧ Keeps s0 t := by
  refine ⟨_, rfl, ?_⟩
  repeat' (with_reducible first | assumption | apply quiesceEffect_keeps | apply requestWrite_keeps | intro _)

theorem execAutonegComplete_keeps {s0 : State} (port partner : Nat) (s : State)
    (hK : Keeps s0 s) : ∃ t, execAutonegComplete port partner s = .next t ∧ Keeps s0 t := by
  refine ⟨_, rfl, ?_⟩
  repeat' (with_reducible first
      | assumption | apply trainLanes_keeps | apply modPort_keeps | intro _ | extract_lets | split | dsimp +zetaDelta only
      | refine Keeps.put ?_)

theorem tapAnswer_keeps {s0 : State} (s : State) (request : Nat) (hK : Keeps s0 s) : Keeps s0 (tapAnswer s request).2 := by
  unfold tapAnswer
  repeat' (with_reducible first
      | assumption | apply drawFree_keeps | refine Keeps.fst ‹_› ?_ | refine Keeps.snd ‹_› ?_ | intro _ | extract_lets | split
      | dsimp +zetaDelta only)

theorem takeDrop_keeps {s0 : State} (s : State) (p l : Nat) (hK : Keeps s0 s) : Keeps s0 (takeDrop s p l) := by
  unfold takeDrop
  repeat' (with_reducible first
      | assumption | apply dropLanes_keeps | apply linkLost_keeps | apply modPort_keeps | intro _ | extract_lets | split
      | dsimp +zetaDelta only | refine Keeps.put ?_)

theorem execTrainingFrameReceived_keeps {s0 : State} (port lane frame request : Nat) (ready : Bool) (s : State)
    (hK : Keeps s0 s) : ∃ t, execTrainingFrameReceived port lane frame request ready s = .next t ∧ Keeps s0 t := by
  refine ⟨_, rfl, ?_⟩
  repeat' (with_reducible first
      | assumption | apply takeDrop_keeps | apply tapAnswer_keeps | apply sendTraining_keeps | apply sendDrop_keeps | apply Keeps.foldl
      | apply Keeps.foldlFst | apply Keeps.foldlSnd | refine Keeps.fst ‹_› ?_ | refine Keeps.snd ‹_› ?_ | intro _ | extract_lets
      | split | dsimp +zetaDelta only | refine Keeps.put ?_)

theorem execLaneTrained_keeps {s0 : State} (port lane : Nat) (s : State)
    (hK : Keeps s0 s) : ∃ t, execLaneTrained port lane s = .next t ∧ Keeps s0 t := by
  refine ⟨_, rfl, ?_⟩
  repeat' (with_reducible first
      | assumption | apply modPort_keeps | intro _ | extract_lets | split | dsimp +zetaDelta only | refine Keeps.put ?_)

theorem trainFailed_keeps {s0 : State} (s : State) (p : Nat) (hK : Keeps s0 s) : Keeps s0 (trainFailed s p) := by
  unfold trainFailed
  repeat' (with_reducible first
      | assumption | apply engineReady_keeps | apply clearPort_keeps | apply modPort_keeps | apply portErr_keeps | intro _
      | refine Keeps.put ?_)

theorem execTrainingDeadline_keeps {s0 : State} (port : Nat) (s : State)
    (hK : Keeps s0 s) : ∃ t, execTrainingDeadline port s = .next t ∧ Keeps s0 t := by
  refine ⟨_, rfl, ?_⟩
  repeat' (with_reducible first
      | assumption | apply trainFailed_keeps | apply modPort_keeps | intro _ | extract_lets | split | dsimp +zetaDelta only
      | refine Keeps.put ?_)

theorem execPortLinkUp_keeps {s0 : State} (port aclk : Nat) (s : State)
    (hK : Keeps s0 s) : ∃ t, execPortLinkUp port aclk s = .next t ∧ Keeps s0 t := by
  refine ⟨_, rfl, ?_⟩
  repeat' (with_reducible first
      | assumption | apply engineReady_keeps | apply modPort_keeps | apply fire_keeps | apply objSet_keeps | intro _ | extract_lets
      | split | dsimp +zetaDelta only | refine Keeps.put ?_)

theorem execTrainingRetry_keeps {s0 : State} (port : Nat) (s : State)
    (hK : Keeps s0 s) : ∃ t, execTrainingRetry port s = .next t ∧ Keeps s0 t := by
  refine ⟨_, rfl, ?_⟩
  repeat' (with_reducible first | assumption | apply startTraining_keeps | intro _ | split)

theorem execLinkLossRetrain_keeps {s0 : State} (port : Nat) (s : State)
    (hK : Keeps s0 s) : ∃ t, execLinkLossRetrain port s = .next t ∧ Keeps s0 t := by
  refine ⟨_, rfl, ?_⟩
  repeat' (with_reducible first | assumption | apply startTraining_keeps | intro _ | split)

theorem laneFails_keeps {s0 : State} (s : State) (p l : Nat) (hK : Keeps s0 s) : Keeps s0 (laneFails s p l) := by
  unfold laneFails
  repeat' (with_reducible first | assumption | apply retireLane_keeps | intro _ | extract_lets | split | dsimp +zetaDelta only)

theorem execLaneLockLoss_keeps {s0 : State} (port lane : Nat) (s : State)
    (hK : Keeps s0 s) : ∃ t, execLaneLockLoss port lane s = .next t ∧ Keeps s0 t := by
  refine ⟨_, rfl, ?_⟩
  repeat' (with_reducible first | assumption | apply laneFails_keeps | intro _)

theorem execLaneFecLimit_keeps {s0 : State} (port lane codewords : Nat) (s : State)
    (hK : Keeps s0 s) : ∃ t, execLaneFecLimit port lane codewords s = .next t ∧ Keeps s0 t := by
  refine ⟨_, rfl, ?_⟩
  repeat' (with_reducible first
      | assumption | apply laneFails_keeps | apply retireLane_keeps | apply linkLost_keeps | apply bumpBy_keeps | intro _
      | extract_lets | split | dsimp +zetaDelta only)

theorem execRealignComplete_keeps {s0 : State} (port : Nat) (s : State)
    (hK : Keeps s0 s) : ∃ t, execRealignComplete port s = .next t ∧ Keeps s0 t := by
  refine ⟨_, rfl, ?_⟩
  repeat' (with_reducible first | assumption | apply modPort_keeps | intro _ | split | refine Keeps.put ?_)

theorem execLinkLoss_keeps {s0 : State} (port : Nat) (s : State) (hK : Keeps s0 s) : ∃ t, execLinkLoss port s = .next t ∧ Keeps s0 t := by
  refine ⟨_, rfl, ?_⟩
  repeat' (with_reducible first | assumption | apply settlePorts_keeps | apply linkLost_keeps | intro _)

theorem netConfig_keeps {s0 : State} (s : State) (via : Via) (p check : Nat) (hK : Keeps s0 s) : Keeps s0 (netConfig s via p check) := by
  unfold netConfig
  repeat' (with_reducible first | assumption | apply portErr_keeps | apply dictAbort_keeps | apply objSet_keeps | intro _)

theorem qpEnableEffect_keeps {s0 : State} (x0 : Via) (x1 : Nat) (x2 : Nat) (x3 : List Byte) (s : State) (hK : Keeps s0 s) : Keeps s0
    (qpEnableEffect x0 x1 x2 x3 s) := by
  unfold qpEnableEffect
  repeat' (with_reducible first
      | assumption | apply netConfig_keeps | apply setQp_keeps | apply dictDone_keeps | apply readChecked_keeps | intro _
      | extract_lets | split | dsimp +zetaDelta only)

theorem execQpEnable_keeps {s0 : State} (via : Via) (qp : Nat) (s : State)
    (hK : Keeps s0 s) : ∃ t, execQpEnable via qp s = .next t ∧ Keeps s0 t := by
  refine ⟨_, rfl, ?_⟩
  repeat' (with_reducible first | assumption | apply qpEnableEffect_keeps | apply requestWrite_keeps | intro _)

theorem qpDisableEffect_keeps {s0 : State} (x0 : Via) (x1 : Nat) (x2 : Nat) (x3 : List Byte) (s : State) (hK : Keeps s0 s) : Keeps s0
    (qpDisableEffect x0 x1 x2 x3 s) := by
  unfold qpDisableEffect
  repeat' (with_reducible first
      | assumption | apply denyOpens_keeps | apply qpStopped_keeps | apply modQp_keeps | apply startLong_keeps | apply dictDone_keeps
      | intro _ | extract_lets | split | dsimp +zetaDelta only | refine Keeps.put ?_)

theorem execQpDisable_keeps {s0 : State} (via : Via) (qp : Nat) (s : State)
    (hK : Keeps s0 s) : ∃ t, execQpDisable via qp s = .next t ∧ Keeps s0 t := by
  refine ⟨_, rfl, ?_⟩
  repeat' (with_reducible first | assumption | apply qpDisableEffect_keeps | apply requestWrite_keeps | intro _)

theorem execQpDisableDeadline_keeps {s0 : State} (region : Bool) (number : Nat) (s : State)
    (hK : Keeps s0 s) : ∃ t, execQpDisableDeadline region number s = .next t ∧ Keeps s0 t := by
  refine ⟨_, rfl, ?_⟩
  repeat' (with_reducible first
      | assumption | apply settlePorts_keeps | apply cutMessages_keeps | apply lrStopped_keeps | apply qpStopped_keeps | intro _
      | split)

theorem lrEnableEffect_keeps {s0 : State} (x0 : Via) (x1 : Nat) (x2 : Nat) (x3 : List Byte) (s : State) (hK : Keeps s0 s) : Keeps s0
    (lrEnableEffect x0 x1 x2 x3 s) := by
  unfold lrEnableEffect
  repeat' (with_reducible first
      | assumption | apply netConfig_keeps | apply setLr_keeps | apply dictDone_keeps | apply readChecked_keeps | intro _
      | extract_lets | split | dsimp +zetaDelta only)

theorem execLrEnable_keeps {s0 : State} (via : Via) (region : Nat) (s : State)
    (hK : Keeps s0 s) : ∃ t, execLrEnable via region s = .next t ∧ Keeps s0 t := by
  refine ⟨_, rfl, ?_⟩
  repeat' (with_reducible first | assumption | apply lrEnableEffect_keeps | apply requestWrite_keeps | intro _)

theorem lrDisableEffect_keeps {s0 : State} (x0 : Via) (x1 : Nat) (x2 : Nat) (x3 : List Byte) (s : State) (hK : Keeps s0 s) : Keeps s0
    (lrDisableEffect x0 x1 x2 x3 s) := by
  unfold lrDisableEffect
  repeat' (with_reducible first
      | assumption | apply denyOpens_keeps | apply lrStopped_keeps | apply setLr_keeps | apply startLong_keeps | apply dictDone_keeps
      | intro _ | extract_lets | split | dsimp +zetaDelta only | refine Keeps.put ?_)

theorem execLrDisable_keeps {s0 : State} (via : Via) (region : Nat) (s : State)
    (hK : Keeps s0 s) : ∃ t, execLrDisable via region s = .next t ∧ Keeps s0 t := by
  refine ⟨_, rfl, ?_⟩
  repeat' (with_reducible first | assumption | apply lrDisableEffect_keeps | apply requestWrite_keeps | intro _)

theorem sendAck_keeps {s0 : State} (s : State) (q : Nat) (hK : Keeps s0 s) : Keeps s0 (sendAck s q) := by
  unfold sendAck
  repeat' (with_reducible first
      | assumption | apply transmit_keeps | apply setQp_keeps | apply bump_keeps | intro _ | extract_lets | dsimp +zetaDelta only
      | refine Keeps.put ?_)

theorem execAckDelayExpiry_keeps {s0 : State} (qp : Nat) (s : State)
    (hK : Keeps s0 s) : ∃ t, execAckDelayExpiry qp s = .next t ∧ Keeps s0 t := by
  refine ⟨_, rfl, ?_⟩
  repeat' (with_reducible first | assumption | apply sendAck_keeps | intro _ | split)

/-! ## Landing -/

theorem nakError_keeps {s0 : State} (s : State) (p q syndrome psn : Nat) (hK : Keeps s0 s) : Keeps s0 (nakError s p q syndrome psn) := by
  unfold nakError
  repeat' (with_reducible first
      | assumption | apply qpError_keeps | apply transmit_keeps | apply modQp_keeps | apply bump_keeps | intro _ | extract_lets
      | dsimp +zetaDelta only | refine Keeps.put ?_)

theorem rnrNak_keeps {s0 : State} (s : State) (p q psn : Nat) (hK : Keeps s0 s) : Keeps s0 (rnrNak s p q psn) := by
  unfold rnrNak
  repeat' (with_reducible first
      | assumption | apply transmit_keeps | apply portErr_keeps | apply bump_keeps | intro _ | extract_lets | dsimp +zetaDelta only)

theorem congestion_keeps {s0 : State} (s : State) (p q : Nat) (ce : Bool) (hK : Keeps s0 s) : Keeps s0 (congestion s p q ce) := by
  unfold congestion
  repeat' (with_reducible first
      | assumption | apply transmit_keeps | apply modQp_keeps | apply bump_keeps | refine Keeps.fst ‹_› ?_ | refine Keeps.snd ‹_› ?_
      | intro _ | extract_lets | split | dsimp +zetaDelta only | refine Keeps.put ?_)

theorem landBytes_keeps {s0 : State} (s : State) (m : Msg) (bs : List Byte) (hK : Keeps s0 s) : Keeps s0 (landBytes s m bs) := by
  unfold landBytes
  repeat' (with_reducible first
      | assumption | apply ingestProgress_keeps | apply modMsg_keeps | apply keep_keeps | apply bumpBy_keeps | apply memWrite_keeps
      | intro _ | extract_lets | split | dsimp +zetaDelta only | refine Keeps.put ?_)

theorem acceptPacket_keeps {s0 : State} (s : State) (p q : Nat) (f : Frame) (hK : Keeps s0 s) : Keeps s0 (acceptPacket s p q f) := by
  unfold acceptPacket
  repeat' (with_reducible first
      | assumption | apply landBytes_keeps | apply congestion_keeps | apply sendAck_keeps | apply endMessage_keeps | apply setQp_keeps
      | refine Keeps.fst ‹_› ?_ | refine Keeps.snd ‹_› ?_ | intro _ | extract_lets | split | dsimp +zetaDelta only
      | refine Keeps.put ?_)

theorem startOperation_keeps {s0 : State} (s : State) (p q : Nat) (f : Frame) (msg : Option Nat) (off : Nat)
    (hK : Keeps s0 s) : Keeps s0 (startOperation s p q f msg off) := by
  unfold startOperation
  repeat' (with_reducible first | assumption | apply acceptPacket_keeps | apply modQp_keeps | intro _ | refine Keeps.put ?_)

theorem requestOpen_keeps {s0 : State} (s : State) (p q r k : Nat) (f : Frame) (hK : Keeps s0 s) : Keeps s0 (requestOpen s p q r k f) := by
  unfold requestOpen
  repeat' (with_reducible first
      | assumption | apply modPort_keeps | apply semWait_keeps | apply poolRequest_keeps | intro _ | extract_lets | split
      | dsimp +zetaDelta only | refine Keeps.put ?_)

theorem beginOperation_keeps {s0 : State} (s : State) (p q : Nat) (f : Frame) (hK : Keeps s0 s) : Keeps s0 (beginOperation s p q f) := by
  unfold beginOperation
  repeat' (with_reducible first
      | assumption | apply requestOpen_keeps | apply startOperation_keeps | apply rnrNak_keeps | apply nakError_keeps
      | apply endMessage_keeps | apply bump_keeps | refine Keeps.fst ‹_› ?_ | refine Keeps.snd ‹_› ?_ | intro _ | split)

theorem takePacket_keeps {s0 : State} (s : State) (p q : Nat) (f : Frame) (hK : Keeps s0 s) : Keeps s0 (takePacket s p q f) := by
  unfold takePacket
  repeat' (with_reducible first
      | assumption | apply beginOperation_keeps | apply acceptPacket_keeps | apply nakError_keeps | apply sendAck_keeps
      | apply transmit_keeps | apply setQp_keeps | apply modPort_keeps | apply bump_keeps | intro _ | extract_lets | split
      | dsimp +zetaDelta only | refine Keeps.put ?_)

theorem flowControl_keeps {s0 : State} (s : State) (p bufferBytes : Nat) (hK : Keeps s0 s) : Keeps s0 (flowControl s p bufferBytes) := by
  unfold flowControl
  repeat' (with_reducible first
      | assumption | apply transmit_keeps | apply modPort_keeps | apply setPort_keeps | intro _ | extract_lets | split
      | dsimp +zetaDelta only | refine Keeps.put ?_)

theorem takeFrame_keeps {s0 : State} (s : State) (p : Nat) (f : Frame) (hK : Keeps s0 s) : Keeps s0 (takeFrame s p f) := by
  unfold takeFrame
  repeat' (with_reducible first
      | assumption | apply takePacket_keeps | apply setPause_keeps | apply transmit_keeps | apply bump_keeps | refine Keeps.fst ‹_› ?_
      | refine Keeps.snd ‹_› ?_ | intro _ | extract_lets | split | dsimp +zetaDelta only)

theorem countFrame_keeps {s0 : State} (s : State) (p : Nat) (f : Frame) (hK : Keeps s0 s) : Keeps s0 (countFrame s p f) := by
  unfold countFrame
  repeat' (with_reducible first | assumption | apply bump_keeps | apply bumpBy_keeps | intro _)

theorem retake_keeps {s0 : State} (p : Nat) (x0 : Nat) (s : State) (hK : Keeps s0 s) : Keeps s0 (retake p x0 s) := by
  induction x0 generalizing p s with
  | zero => unfold retake; exact hK
  | succ k ih =>
    unfold retake
    repeat' (with_reducible first
        | assumption | apply ih | apply takePacket_keeps | apply modPort_keeps | apply Keeps.foldl | apply Keeps.foldlFst
        | apply Keeps.foldlSnd | refine Keeps.fst ‹_› ?_ | refine Keeps.snd ‹_› ?_ | intro _ | extract_lets | split
        | dsimp +zetaDelta only | refine Keeps.put ?_)

theorem settleOpens_keeps {s0 : State} (s : State) (hK : Keeps s0 s) : Keeps s0 (settleOpens s) := by
  unfold settleOpens
  repeat' (with_reducible first
      | assumption | apply retake_keeps | apply settlePorts_keeps | apply stagesTake_keeps | apply Keeps.foldl | apply Keeps.foldlFst
      | apply Keeps.foldlSnd | intro _ | extract_lets | dsimp +zetaDelta only)

theorem execFrameReceived_keeps {s0 : State} (port : Nat) (frame : Frame) (bufferBytes : Nat) (s : State)
    (hK : Keeps s0 s) : ∃ t, execFrameReceived port frame bufferBytes s = .next t ∧ Keeps s0 t := by
  refine ⟨_, rfl, ?_⟩
  repeat' (with_reducible first
      | assumption | apply settleOpens_keeps | apply countFrame_keeps | apply takeFrame_keeps | apply flowControl_keeps | intro _
      | extract_lets | split | dsimp +zetaDelta only)

theorem takeBehind_keeps {s0 : State} (s : State) (p : Nat) (o : OpenReq) (hK : Keeps s0 s) : Keeps s0 (takeBehind s p o) := by
  unfold takeBehind
  repeat' (with_reducible first
      | assumption | apply takePacket_keeps | apply Keeps.foldl | apply Keeps.foldlFst | apply Keeps.foldlSnd | intro _)

theorem openMessage_keeps {s0 : State} (s : State) (p : Nat) (o : OpenReq) (buffer : Nat) (hK : Keeps s0 s) : Keeps s0
    (openMessage s p o buffer) := by
  unfold openMessage
  repeat' (with_reducible first
      | assumption | apply takeBehind_keeps | apply startOperation_keeps | apply modPort_keeps | apply stagesTake_keeps
      | apply semSignal_keeps | refine Keeps.fst ‹_› ?_ | refine Keeps.snd ‹_› ?_ | intro _ | extract_lets | split
      | dsimp +zetaDelta only | refine Keeps.put ?_)

theorem giveUpOpen_keeps {s0 : State} (s : State) (p : Nat) (o : OpenReq) (answer : State → State) (he : ∀ s, Keeps s0 s → Keeps s0
    (answer s)) (hK : Keeps s0 s) : Keeps s0 (giveUpOpen s p o answer) := by
  unfold giveUpOpen
  repeat' (with_reducible first | assumption | apply takeBehind_keeps | apply withdrawOpen_keeps | apply answer_keeps | apply he | intro _)

theorem decideOpen_keeps {s0 : State} (s : State) (p : Nat) (o : OpenReq) (hK : Keeps s0 s) : Keeps s0 (decideOpen s p o) := by
  unfold decideOpen
  repeat' (with_reducible first
      | assumption | apply giveUpOpen_keeps | apply openMessage_keeps | apply rnrNak_keeps | apply nakError_keeps | intro _ | split)

theorem execMessageOpen_keeps {s0 : State} (port bufferBytes : Nat) (s : State)
    (hK : Keeps s0 s) : ∃ t, execMessageOpen port bufferBytes s = .next t ∧ Keeps s0 t := by
  refine ⟨_, rfl, ?_⟩
  repeat' (with_reducible first
      | assumption | apply decideOpen_keeps | apply settleOpens_keeps | apply flowControl_keeps | refine Keeps.fst ‹_› ?_
      | refine Keeps.snd ‹_› ?_ | intro _ | split)

theorem execOpenWaitExpiry_keeps {s0 : State} (port bufferBytes : Nat) (s : State)
    (hK : Keeps s0 s) : ∃ t, execOpenWaitExpiry port bufferBytes s = .next t ∧ Keeps s0 t := by
  refine ⟨_, rfl, ?_⟩
  repeat' (with_reducible first
      | assumption | apply giveUpOpen_keeps | apply settleOpens_keeps | apply flowControl_keeps | apply rnrNak_keeps
      | refine Keeps.fst ‹_› ?_ | refine Keeps.snd ‹_› ?_ | intro _ | split)

/-! ## Sdx -/

theorem laneTakes_keeps {s0 : State} (s : State) (u : Nat) (r : LaneRun) (hK : Keeps s0 s) : Keeps s0 (laneTakes s u r) := by
  unfold laneTakes
  repeat' (with_reducible first | assumption | refine Keeps.put ?_)

theorem execSdxStreamStart_keeps {s0 : State} (s : State) (hK : Keeps s0 s) : ∃ t, execSdxStreamStart s = .next t ∧ Keeps s0 t := by
  refine ⟨_, rfl, ?_⟩
  repeat' (with_reducible first
      | assumption | apply laneTakes_keeps | apply arbGrant_keeps | refine Keeps.fst ‹_› ?_ | refine Keeps.snd ‹_› ?_ | intro _
      | extract_lets | split | dsimp +zetaDelta only | refine Keeps.put ?_)

theorem keyLimbLine_keeps {s0 : State} (s : State) (u : Nat) (r : LaneRun) (cmd d o n : Nat) (hK : Keeps s0 s) : Keeps s0
    (keyLimbLine s u r cmd d o n) := by
  unfold keyLimbLine
  repeat' (with_reducible first
      | assumption | apply emitLine_keeps | refine Keeps.fst ‹_› ?_ | refine Keeps.snd ‹_› ?_ | intro _ | extract_lets | split
      | dsimp +zetaDelta only | refine Keeps.put ?_)

theorem ctLimbLine_keeps {s0 : State} (s : State) (r : LaneRun) (m limb n : Nat) (hK : Keeps s0 s) : Keeps s0
    (ctLimbLine s r m limb n) := by
  unfold ctLimbLine
  repeat' (with_reducible first
      | assumption | apply modMsg_keeps | apply memWrite_keeps | apply Keeps.foldl | apply Keeps.foldlFst | apply Keeps.foldlSnd
      | refine Keeps.fst ‹_› ?_ | refine Keeps.snd ‹_› ?_ | intro _ | extract_lets | split | dsimp +zetaDelta only
      | refine Keeps.put ?_)

theorem takeLines_keeps {s0 : State} (x0 : Nat) (s : State) (x2 : LaneRun) (hK : Keeps s0 s) : Keeps s0 (takeLines x0 s x2).1 := by
  induction x0 generalizing s x2 with
  | zero => unfold takeLines; exact hK
  | succ k ih =>
    unfold takeLines
    repeat' (with_reducible first
        | assumption | apply ih | apply ctLimbLine_keeps | refine Keeps.fst ‹_› ?_ | refine Keeps.snd ‹_› ?_ | intro _ | split
        | refine Keeps.put ?_)

theorem passLines_keeps {s0 : State} (s : State) (u old : Nat) (r : LaneRun) (taken : Nat) (ended : Bool) (hK : Keeps s0 s) : Keeps s0
    (passLines s u old r taken ended).1 := by
  unfold passLines
  repeat' (with_reducible first
      | assumption | apply takeLines_keeps | apply keyLimbLine_keeps | apply Keeps.foldl | apply Keeps.foldlFst | apply Keeps.foldlSnd
      | refine Keeps.fst ‹_› ?_ | refine Keeps.snd ‹_› ?_ | intro _ | split)

theorem streamEnds_keeps {s0 : State} (s : State) (u : Nat) (r : LaneRun) (hK : Keeps s0 s) : Keeps s0 (streamEnds s u r) := by
  unfold streamEnds
  repeat' (with_reducible first
      | assumption | apply modMsg_keeps | apply closeKey_keeps | apply advanceDlv_keeps | apply freeLane_keeps
      | refine Keeps.fst ‹_› ?_ | refine Keeps.snd ‹_› ?_ | intro _ | extract_lets | split | dsimp +zetaDelta only
      | refine Keeps.put ?_)

theorem release168_keeps {s0 : State} (s : State) (u : Nat) (r : LaneRun) (taken : Nat) (hK : Keeps s0 s) : Keeps s0
    (release168 s u r taken) := by
  unfold release168
  repeat' (with_reducible first
      | assumption | apply streamEnds_keeps | apply passLines_keeps | apply laneTakes_keeps | apply advanceDlv_keeps | apply bump_keeps
      | refine Keeps.fst ‹_› ?_ | refine Keeps.snd ‹_› ?_ | intro _ | extract_lets | split | dsimp +zetaDelta only
      | refine Keeps.put ?_)

theorem refuseExpanding_keeps {s0 : State} (s : State) (hK : Keeps s0 s) : Keeps s0 (refuseExpanding s) := by
  unfold refuseExpanding
  repeat' (with_reducible first
      | assumption | apply ingestProgress_keeps | apply turnNoLane_keeps | apply Keeps.foldl | apply Keeps.foldlFst
      | apply Keeps.foldlSnd | intro _ | extract_lets | dsimp +zetaDelta only)

theorem laneRetires_keeps {s0 : State} (s : State) (u : Nat) (r : LaneRun) (hK : Keeps s0 s) : Keeps s0 (laneRetires s u r) := by
  unfold laneRetires
  repeat' (with_reducible first
      | assumption | apply refuseExpanding_keeps | apply retireUnit_keeps | apply raiseErr_keeps | intro _ | extract_lets | split
      | dsimp +zetaDelta only | refine Keeps.put ?_)

theorem execSdxPermutationDone_keeps {s0 : State} (lane : Nat) (disagree : Bool) (taken : Nat) (s : State)
    (hK : Keeps s0 s) : ∃ t, execSdxPermutationDone lane disagree taken s = .next t ∧ Keeps s0 t := by
  refine ⟨_, rfl, ?_⟩
  repeat' (with_reducible first
      | assumption | apply laneRetires_keeps | apply release168_keeps | apply laneTakes_keeps | apply raiseErr_keeps
      | refine Keeps.fst ‹_› ?_ | refine Keeps.snd ‹_› ?_ | intro _ | split | refine Keeps.put ?_)

theorem execSdxStallResume_keeps {s0 : State} (lane stallFclk : Nat) (s : State)
    (hK : Keeps s0 s) : ∃ t, execSdxStallResume lane stallFclk s = .next t ∧ Keeps s0 t := by
  refine ⟨_, rfl, ?_⟩
  repeat' (with_reducible first
      | assumption | apply takeLines_keeps | apply laneTakes_keeps | apply bumpBy_keeps | refine Keeps.fst ‹_› ?_
      | refine Keeps.snd ‹_› ?_ | intro _ | extract_lets | split | dsimp +zetaDelta only | refine Keeps.put ?_)

theorem execSdxLaneEnableWrite_keeps {s0 : State} (via : Via) (high : Bool) (value : Nat) (s : State)
    (hK : Keeps s0 s) : ∃ t, execSdxLaneEnableWrite via high value s = .next t ∧ Keeps s0 t := by
  refine ⟨_, rfl, ?_⟩
  repeat' (with_reducible first | assumption | apply enableWrite_keeps | intro _)

/-! ## Keys -/

theorem writeKeyEntry_keeps {s0 : State} (s : State) (x : Nat) (e : KeyEntry) (hK : Keeps s0 s) : Keeps s0 (writeKeyEntry s x e) := by
  unfold writeKeyEntry
  repeat' (with_reducible first | assumption | apply memWrite_keeps | intro _)

theorem issueRegister_keeps {s0 : State} (s : State) (c : Cmd) (cont index : Nat) (hK : Keeps s0 s) : Keeps s0
    (issueRegister s c cont index) := by
  unfold issueRegister
  repeat' (with_reducible first
      | assumption | apply writeKeyEntry_keeps | apply refuseItem_keeps | apply finishCmd_keeps | apply raiseErr_keeps | intro _
      | extract_lets | split | dsimp +zetaDelta only | refine Keeps.put ?_)

theorem endRegistration_keeps {s0 : State} (s : State) (slot : Nat) (r : KeyReg) (code : Nat) (hK : Keeps s0 s) : Keeps s0
    (endRegistration s slot r code) := by
  unfold endRegistration
  repeat' (with_reducible first
      | assumption | apply writeKeyEntry_keeps | apply finishCmd_keeps | apply raiseErrOn_keeps | apply bump_keeps | intro _ | split
      | refine Keeps.put ?_)

theorem execKeyRegistrationCheck_keeps {s0 : State} (slot queue : Nat) (s : State)
    (hK : Keeps s0 s) : ∃ t, execKeyRegistrationCheck slot queue s = .next t ∧ Keeps s0 t := by
  refine ⟨_, rfl, ?_⟩
  repeat' (with_reducible first
      | assumption | apply endRegistration_keeps | apply readChecked_keeps | refine Keeps.fst ‹_› ?_ | refine Keeps.snd ‹_› ?_
      | intro _ | extract_lets | split | dsimp +zetaDelta only | refine Keeps.put ?_)

theorem issueKeyStream_keeps {s0 : State} (s : State) (c : Cmd) (p : KeyParams) (hK : Keeps s0 s) : Keeps s0 (issueKeyStream s c p) := by
  unfold issueKeyStream
  repeat' (with_reducible first
      | assumption | apply refuseUnwritten_keeps | apply addDlv_keeps | intro _ | extract_lets | split | dsimp +zetaDelta only
      | refine Keeps.put ?_)

theorem startKey_keeps {s0 : State} (s : State) (i : KeyItem) (units : List Nat) (hK : Keeps s0 s) : Keeps s0 (startKey s i units) := by
  unfold startKey
  repeat' (with_reducible first
      | assumption | apply feedStream_keeps | apply modDlv_keeps | apply reserveFree_keeps | refine Keeps.fst ‹_› ?_
      | refine Keeps.snd ‹_› ?_ | intro _ | extract_lets | split | dsimp +zetaDelta only | refine Keeps.put ?_)

theorem refuseKey_keeps {s0 : State} (s : State) (i : KeyItem) (code flags : Nat) (hK : Keeps s0 s) : Keeps s0
    (refuseKey s i code flags) := by
  unfold refuseKey
  repeat' (with_reducible first
      | assumption | apply finishDelivery_keeps | apply doneHere_keeps | apply sliverUse_keeps | apply errFault_keeps
      | refine Keeps.fst ‹_› ?_ | refine Keeps.snd ‹_› ?_ | intro _ | extract_lets | split | dsimp +zetaDelta only
      | refine Keeps.put ?_)

theorem execKeyStreamDispatch_keeps {s0 : State} (s : State) (hK : Keeps s0 s) : ∃ t, execKeyStreamDispatch s = .next t ∧ Keeps s0 t := by
  refine ⟨_, rfl, ?_⟩
  repeat' (with_reducible first
      | assumption | apply refuseKey_keeps | apply startKey_keeps | refine takeUnits_keeps _ _ (t := (_, _)) ?_ ‹_›
      | refine takeUnits_keeps _ _ ?_ ‹_› | apply arbGrant_keeps | apply readChecked_keeps | refine Keeps.fst ‹_› ?_
      | refine Keeps.snd ‹_› ?_ | intro _ | extract_lets | split | dsimp +zetaDelta only | refine Keeps.put ?_)

end Sys2Proof.Machine
end

