-- ==== Sys2Proof/Laws/KeepsData.lean ====
section
/-! SUPPORT. What the decoders, the tokeniser, shaping and batches keep: the queue, the fuses, the bound on pairs and the memories' form. -/

set_option linter.unusedTactic false
set_option linter.unreachableTactic false
set_option linter.unusedVariables false

namespace Sys2Proof.Machine

set_option Elab.async false

/-! ## MediaMath -/

theorem poisonRow_keeps {s0 : State} (s : State) (a n : Nat) (hK : Keeps s0 s) : Keeps s0 (poisonRow s a n) := by
  unfold poisonRow
  repeat' (with_reducible first | assumption | apply memWritePoisoned_keeps | intro _)

theorem poisonRect_keeps {s0 : State} (s : State) (f : FrameShape) (buf : Nat) (r : Rect) (hK : Keeps s0 s) : Keeps s0
    (poisonRect s f buf r) := by
  unfold poisonRect
  repeat' (with_reducible first
      | assumption | apply poisonRow_keeps | apply Keeps.foldl | apply Keeps.foldlFst | apply Keeps.foldlSnd | intro _)

theorem copyPoison_keeps {s0 : State} (s : State) (f : FrameShape) (source buf : Nat) (r : Rect) (hK : Keeps s0 s) : Keeps s0
    (copyPoison s f source buf r) := by
  unfold copyPoison
  repeat' (with_reducible first
      | assumption | apply poisonRow_keeps | apply Keeps.foldl | apply Keeps.foldlFst | apply Keeps.foldlSnd | intro _ | split)

theorem writePlane_keeps {s0 : State} (s : State) (addr pitch width elem : Nat) (vs : List Nat) (hK : Keeps s0 s) : Keeps s0
    (writePlane s addr pitch width elem vs) := by
  unfold writePlane
  repeat' (with_reducible first
      | assumption | apply memWrite_keeps | apply Keeps.foldl | apply Keeps.foldlFst | apply Keeps.foldlSnd | intro _ | split)

theorem writeFrame_keeps {s0 : State} (s : State) (f : FrameShape) (buf : Nat) (planes : List (List Nat)) (mv : List Int)
    (bits : List Nat) (hK : Keeps s0 s) : Keeps s0 (writeFrame s f buf planes mv bits) := by
  unfold writeFrame
  repeat' (with_reducible first
      | assumption | apply writePlane_keeps | apply reserveFree_keeps | apply memWrite_keeps | apply Keeps.foldl | apply Keeps.foldlFst
      | apply Keeps.foldlSnd | refine Keeps.fst ‹_› ?_ | refine Keeps.snd ‹_› ?_ | intro _ | extract_lets | split
      | dsimp +zetaDelta only)

/-! ## Media -/

theorem setCtx_keeps {s0 : State} (s : State) (k : Nat) (x : Ctx) (hK : Keeps s0 s) : Keeps s0 (setCtx s k x) := by
  unfold setCtx
  repeat' (with_reducible first | assumption | refine Keeps.put ?_)

theorem setRun_keeps {s0 : State} (s : State) (r r' : DecodeRun) (hK : Keeps s0 s) : Keeps s0 (setRun s r r') := by
  unfold setRun
  repeat' (with_reducible first | assumption | split | refine Keeps.put ?_)

theorem dropFrames_keeps {s0 : State} (s : State) (slot : Nat) (bufs : List Nat) (hK : Keeps s0 s) : Keeps s0 (dropFrames s slot bufs) := by
  unfold dropFrames
  repeat' (with_reducible first | assumption | apply freeBuffers_keeps | intro _)

theorem closeCtx_keeps {s0 : State} (s : State) (k slot : Nat) (hK : Keeps s0 s) : Keeps s0 (closeCtx s k slot) := by
  unfold closeCtx
  repeat' (with_reducible first
      | assumption | apply dropFrames_keeps | apply setCtx_keeps | apply countUnshown_keeps | intro _ | extract_lets
      | dsimp +zetaDelta only)

theorem takeDecode_keeps {s0 : State} (s : State) (i : DecodeItem) (hK : Keeps s0 s) : Keeps s0 (takeDecode s i) := by
  unfold takeDecode
  repeat' (with_reducible first
      | assumption | apply closeCtx_keeps | apply setCtx_keeps | apply errFault_keeps | refine Keeps.fst ‹_› ?_
      | refine Keeps.snd ‹_› ?_ | intro _ | extract_lets | split | dsimp +zetaDelta only | refine Keeps.put ?_)

theorem decodeNext_keeps {s0 : State} (s : State) (video : Bool) (hK : Keeps s0 s) {t} (ht : decodeNext s video = some t) : Keeps s0 t := by
  unfold decodeNext at ht
  obtain ⟨n, _, hn⟩ := Option.bind_eq_some_iff.mp ht
  obtain ⟨i, _, hi⟩ := Option.map_eq_some_iff.mp hn
  subst hi
  refine takeDecode_keeps _ _ ?_
  split
  · exact hK
  · exact arbGrant_keeps _ _ _ _ hK

theorem execMdcDecodeDispatch_keeps {s0 : State} (s : State) (hK : Keeps s0 s) : ∃ t, execMdcDecodeDispatch s = .next t ∧ Keeps s0 t := by
  refine ⟨_, rfl, ?_⟩
  repeat' (with_reducible first
      | assumption | refine decodeNext_keeps _ _ (t := (_, _)) ?_ ‹_› | refine decodeNext_keeps _ _ ?_ ‹_› | refine Keeps.fst ‹_› ?_
      | refine Keeps.snd ‹_› ?_ | intro _ | split)

theorem failRun_keeps {s0 : State} (s : State) (r : DecodeRun) (code : Nat) (hK : Keeps s0 s) : Keeps s0 (failRun s r code) := by
  unfold failRun
  repeat' (with_reducible first | assumption | apply setRun_keeps | intro _ | split | refine Keeps.put ?_)

theorem failHeader_keeps {s0 : State} (s : State) (r : DecodeRun) (code : Nat) (hK : Keeps s0 s) : Keeps s0 (failHeader s r code) := by
  unfold failHeader
  repeat' (with_reducible first
      | assumption | apply failRun_keeps | apply setCtx_keeps | apply raiseErr_keeps | refine Keeps.fst ‹_› ?_
      | refine Keeps.snd ‹_› ?_ | intro _ | extract_lets | split | dsimp +zetaDelta only | refine Keeps.put ?_)

theorem restoreCtx_keeps {s0 : State} (s : State) (r : DecodeRun) (k : Nat) (hK : Keeps s0 s) : Keeps s0 (restoreCtx s r k) := by
  unfold restoreCtx
  repeat' (with_reducible first
      | assumption | apply setCtx_keeps | apply countUnshown_keeps | intro _ | extract_lets | dsimp +zetaDelta only)

theorem retryRun_keeps {s0 : State} (s : State) (r : DecodeRun) (unit : Nat) (hK : Keeps s0 s) : Keeps s0 (retryRun s r unit) := by
  unfold retryRun
  repeat' (with_reducible first
      | assumption | apply restoreCtx_keeps | apply dropFrames_keeps | apply unitDone_keeps | apply retryLater_keeps
      | apply Keeps.foldl | apply Keeps.foldlFst | apply Keeps.foldlSnd | refine Keeps.fst ‹_› ?_ | refine Keeps.snd ‹_› ?_ | intro _
      | extract_lets | split | dsimp +zetaDelta only | refine Keeps.put ?_)

theorem runBuffer_keeps {s0 : State} (s : State) (r : DecodeRun) (unit size : Nat) (use : State → Nat → State)
    (he : ∀ s n, Keeps s0 s → Keeps s0 (use s n)) (hK : Keeps s0 s) : Keeps s0 (runBuffer s r unit size use) := by
  unfold runBuffer
  repeat' (with_reducible first
      | assumption | apply retryRun_keeps | apply failRun_keeps | apply needBuffer_keeps | apply he | refine Keeps.fst ‹_› ?_
      | refine Keeps.snd ‹_› ?_ | intro _ | split)

theorem imageFrame_keeps {s0 : State} (s : State) (r : DecodeRun) (h : MediaHeader) (hK : Keeps s0 s) : Keeps s0 (imageFrame s r h) := by
  unfold imageFrame
  repeat' (with_reducible first | assumption | apply runBuffer_keeps | apply setRun_keeps | intro _ | split | refine Keeps.put ?_)

theorem passHeader_keeps {s0 : State} (s : State) (r : DecodeRun) (h : Option MediaHeader) (hK : Keeps s0 s) : Keeps s0
    (passHeader s r h) := by
  unfold passHeader
  repeat' (with_reducible first | assumption | apply setRun_keeps | intro _ | refine Keeps.put ?_)

theorem imageUnit_keeps {s0 : State} (s : State) (r : DecodeRun) (h : MediaHeader) (hK : Keeps s0 s) : Keeps s0 (imageUnit s r h) := by
  unfold imageUnit
  repeat' (with_reducible first
      | assumption | apply passHeader_keeps | apply imageFrame_keeps | apply runBuffer_keeps | apply failHeader_keeps
      | apply setRun_keeps | intro _ | extract_lets | split | dsimp +zetaDelta only | refine Keeps.put ?_)

theorem switchCtx_keeps {s0 : State} (s : State) (core : Nat) (k : Option Nat) (hK : Keeps s0 s) : Keeps s0 (switchCtx s core k) := by
  unfold switchCtx
  repeat' (with_reducible first
      | assumption | apply bump_keeps | intro _ | extract_lets | split | dsimp +zetaDelta only | refine Keeps.put ?_)

theorem videoPicture_keeps {s0 : State} (s : State) (core : Nat) (r : DecodeRun) (head : PictureHead) (hK : Keeps s0 s) : Keeps s0
    (videoPicture s core r head) := by
  unfold videoPicture
  repeat' (with_reducible first
      | assumption | apply switchCtx_keeps | apply passHeader_keeps | apply runBuffer_keeps | apply failHeader_keeps
      | apply setRun_keeps | apply setCtx_keeps | apply bump_keeps | refine Keeps.fst ‹_› ?_ | refine Keeps.snd ‹_› ?_ | intro _
      | extract_lets | split | dsimp +zetaDelta only | refine Keeps.put ?_)

theorem grantRun_keeps {s0 : State} (s : State) (core : Nat) (r : DecodeRun) (slots : List Nat) (hK : Keeps s0 s) : Keeps s0
    (grantRun s core r slots) := by
  unfold grantRun
  repeat' (with_reducible first | assumption | apply arbGrant_keeps | intro _ | split)

theorem finishUnit_keeps {s0 : State} (s : State) (core : Nat) (hK : Keeps s0 s) : Keeps s0 (finishUnit s core) := by
  unfold finishUnit
  repeat' (with_reducible first
      | assumption | apply setRun_keeps | apply unitDone_keeps | refine Keeps.fst ‹_› ?_ | refine Keeps.snd ‹_› ?_ | intro _ | split
      | refine Keeps.put ?_)

theorem loseUnit_keeps {s0 : State} (s : State) (r : DecodeRun) (sequence : Bool) (hK : Keeps s0 s) : Keeps s0 (loseUnit s r sequence) := by
  unfold loseUnit
  repeat' (with_reducible first
      | assumption | apply setCtx_keeps | apply raiseErr_keeps | refine Keeps.fst ‹_› ?_ | refine Keeps.snd ‹_› ?_ | intro _
      | extract_lets | split | dsimp +zetaDelta only | refine Keeps.put ?_)

theorem outputFrame_keeps {s0 : State} (s : State) (r : DecodeRun) (buf number flags : Nat) (hK : Keeps s0 s) : Keeps s0
    (outputFrame s r buf number flags).1 := by
  unfold outputFrame
  repeat' (with_reducible first
      | assumption | apply bump_keeps | apply memWrite_keeps | intro _ | extract_lets | split | dsimp +zetaDelta only
      | refine Keeps.put ?_)

theorem outputPictures_keeps {s0 : State} (s : State) (k : Nat) (r : DecodeRun) (nums : List Nat) (hK : Keeps s0 s) : Keeps s0
    (outputPictures s k r nums).1 := by
  unfold outputPictures
  repeat' (with_reducible first
      | assumption | apply outputFrame_keeps | apply setCtx_keeps | apply Keeps.foldl | apply Keeps.foldlFst | apply Keeps.foldlSnd
      | refine Keeps.fst ‹_› ?_ | refine Keeps.snd ‹_› ?_ | intro _ | extract_lets | split | dsimp +zetaDelta only
      | refine Keeps.put ?_)

theorem markPictures_keeps {s0 : State} (s : State) (k : Nat) (marks : List (Nat × RefMark)) (hK : Keeps s0 s) : Keeps s0
    (markPictures s k marks) := by
  unfold markPictures
  repeat' (with_reducible first
      | assumption | apply setCtx_keeps | refine Keeps.fst ‹_› ?_ | refine Keeps.snd ‹_› ?_ | intro _ | split | refine Keeps.put ?_)

theorem dropPictures_keeps {s0 : State} (s : State) (k slot : Nat) (hK : Keeps s0 s) : Keeps s0 (dropPictures s k slot) := by
  unfold dropPictures
  repeat' (with_reducible first
      | assumption | apply dropFrames_keeps | apply setCtx_keeps | apply countUnshown_keeps | intro _ | extract_lets
      | dsimp +zetaDelta only | refine Keeps.put ?_)

theorem saveCtx_keeps {s0 : State} (s : State) (k : Nat) (hK : Keeps s0 s) : Keeps s0 (saveCtx s k) := by
  unfold saveCtx
  repeat' (with_reducible first
      | assumption | apply reserveFree_keeps | apply memWrite_keeps | refine Keeps.fst ‹_› ?_ | refine Keeps.snd ‹_› ?_ | intro _
      | extract_lets | split | dsimp +zetaDelta only)

theorem showAgain_keeps {s0 : State} (s : State) (r : DecodeRun) (k coded : Nat) (marks : List (Nat × RefMark))
    (hK : Keeps s0 s) : Keeps s0 (showAgain s r k coded marks) := by
  unfold showAgain
  repeat' (with_reducible first
      | assumption | apply saveCtx_keeps | apply dropPictures_keeps | apply markPictures_keeps | apply outputPictures_keeps
      | apply setRun_keeps | apply bump_keeps | intro _ | extract_lets | split | dsimp +zetaDelta only)

theorem execMdcDecodingUnitStart_keeps {s0 : State} (core : Nat) (unit : MediaUnit) (s : State)
    (hK : Keeps s0 s) : ∃ t, execMdcDecodingUnitStart core unit s = .next t ∧ Keeps s0 t := by
  refine ⟨_, rfl, ?_⟩
  repeat' (with_reducible first
      | assumption | apply showAgain_keeps | apply loseUnit_keeps | apply finishUnit_keeps | apply grantRun_keeps
      | apply videoPicture_keeps | apply switchCtx_keeps | apply imageUnit_keeps | apply setRun_keeps | refine Keeps.fst ‹_› ?_
      | refine Keeps.snd ‹_› ?_ | intro _ | extract_lets | split | dsimp +zetaDelta only | refine Keeps.put ?_)

theorem raiseMissing_keeps {s0 : State} (s : State) (slot : Nat) (f : FrameShape) (x : Ctx) (ordered : Bool) (u : RefUse)
    (hK : Keeps s0 s) : Keeps s0 (raiseMissing s slot f x ordered u) := by
  unfold raiseMissing
  repeat' (with_reducible first | assumption | apply raiseErr_keeps | apply bump_keeps | intro _ | split)

theorem raisePoisoned_keeps {s0 : State} (s : State) (slot : Nat) (f : FrameShape) (x : Ctx) (ordered : Bool) (u : RefUse)
    (hK : Keeps s0 s) : Keeps s0 (raisePoisoned s slot f x ordered u) := by
  unfold raisePoisoned
  repeat' (with_reducible first
      | assumption | apply readChecked_keeps | refine Keeps.fst ‹_› ?_ | refine Keeps.snd ‹_› ?_ | intro _ | split)

theorem raisePicture_keeps {s0 : State} (s : State) (i : DecodeItem) (f : FrameShape) (x : Ctx) (p : Picture) (ordered : Bool)
    (flags : Nat) (hK : Keeps s0 s) : Keeps s0 (raisePicture s i f x p ordered flags) := by
  unfold raisePicture
  repeat' (with_reducible first
      | assumption | apply raisePoisoned_keeps | apply raiseMissing_keeps | apply raiseErr_keeps | apply Keeps.foldl
      | apply Keeps.foldlFst | apply Keeps.foldlSnd | intro _ | extract_lets | split | dsimp +zetaDelta only)

theorem poisonFrame_keeps {s0 : State} (s : State) (f : FrameShape) (buf : Nat) (area : List Rect) (hK : Keeps s0 s) : Keeps s0
    (poisonFrame s f buf area) := by
  unfold poisonFrame
  repeat' (with_reducible first
      | assumption | apply poisonRect_keeps | apply Keeps.foldl | apply Keeps.foldlFst | apply Keeps.foldlSnd | intro _)

theorem imageBlocks_keeps {s0 : State} (s : State) (f : FrameShape) (hK : Keeps s0 s) : Keeps s0 (imageBlocks s f).2 := by
  unfold imageBlocks
  repeat' (with_reducible first | assumption | apply drawFree_keeps | refine Keeps.fst ‹_› ?_ | refine Keeps.snd ‹_› ?_ | intro _ | split)

theorem imageData_keeps {s0 : State} (s : State) (h : MediaHeader) (f : FrameShape) (c : Concealment) (x0 : PictureData)
    (hK : Keeps s0 s) : Keeps s0 (imageData s h f c x0).2.2 := by
  unfold imageData
  repeat' (with_reducible first
      | assumption | apply reserveFree_keeps | refine Keeps.fst ‹_› ?_ | refine Keeps.snd ‹_› ?_ | intro _ | extract_lets | split
      | dsimp +zetaDelta only)

theorem failSample_keeps {s0 : State} (s : State) (r : DecodeRun) (code : Nat) (hK : Keeps s0 s) : Keeps s0 (failSample s r code).1 := by
  unfold failSample
  repeat' (with_reducible first | assumption | apply failRun_keeps | apply raiseErr_keeps | intro _ | split | refine Keeps.put ?_)

theorem imageOutput_keeps {s0 : State} (s : State) (r : DecodeRun) (h : MediaHeader) (buf : Nat) (p : Picture)
    (hK : Keeps s0 s) : Keeps s0 (imageOutput s r h buf p) := by
  unfold imageOutput
  repeat' (with_reducible first
      | assumption | apply imageData_keeps | apply imageBlocks_keeps | apply raisePicture_keeps | apply outputFrame_keeps
      | apply setRun_keeps | apply writeFrame_keeps | apply bump_keeps | apply bumpBy_keeps | apply memWrite_keeps
      | refine Keeps.fst ‹_› ?_ | refine Keeps.snd ‹_› ?_ | intro _ | extract_lets | split | dsimp +zetaDelta only
      | refine Keeps.put ?_)

theorem imageComplete_keeps {s0 : State} (s : State) (r : DecodeRun) (h : MediaHeader) (buf : Nat) (p : Picture)
    (hK : Keeps s0 s) : Keeps s0 (imageComplete s r h buf p) := by
  unfold imageComplete
  repeat' (with_reducible first | assumption | apply imageOutput_keeps | apply failSample_keeps | intro _ | split)

theorem makeRoom_keeps {s0 : State} (s : State) (k : Nat) (r : DecodeRun) (hK : Keeps s0 s) : Keeps s0 (makeRoom s k r).1 := by
  unfold makeRoom
  repeat' (with_reducible first
      | assumption | apply dropPictures_keeps | apply markPictures_keeps | apply outputPictures_keeps | apply setRun_keeps
      | refine Keeps.fst ‹_› ?_ | refine Keeps.snd ‹_› ?_ | intro _ | extract_lets | split | dsimp +zetaDelta only)

theorem poolPicture_keeps {s0 : State} (s : State) (k : Nat) (starts : Bool) (me : RefPic) (hK : Keeps s0 s) : Keeps s0
    (poolPicture s k starts me) := by
  unfold poolPicture
  repeat' (with_reducible first
      | assumption | apply setCtx_keeps | intro _ | extract_lets | split | dsimp +zetaDelta only | refine Keeps.put ?_)

theorem markPoisoned_keeps {s0 : State} (s : State) (f : FrameShape) (source : Option RefPic) (buf : Nat) (area : List Rect)
    (c : Concealment) (hK : Keeps s0 s) : Keeps s0 (markPoisoned s f source buf area c) := by
  unfold markPoisoned
  repeat' (with_reducible first
      | assumption | apply poisonFrame_keeps | apply copyPoison_keeps | apply Keeps.foldl | apply Keeps.foldlFst | apply Keeps.foldlSnd
      | refine Keeps.fst ‹_› ?_ | refine Keeps.snd ‹_› ?_ | intro _ | extract_lets | split | dsimp +zetaDelta only)

theorem raiseSource_keeps {s0 : State} (s : State) (slot : Nat) (f : FrameShape) (source : Option RefPic) (c : Concealment)
    (hK : Keeps s0 s) : Keeps s0 (raiseSource s slot f source c) := by
  unfold raiseSource
  repeat' (with_reducible first
      | assumption | apply readChecked_keeps | refine Keeps.fst ‹_› ?_ | refine Keeps.snd ‹_› ?_ | intro _ | split)

theorem videoComplete_keeps {s0 : State} (s : State) (r : DecodeRun) (h : MediaHeader) (d : PictureHead) (k buf : Nat) (p : Picture)
    (hK : Keeps s0 s) : Keeps s0 (videoComplete s r h d k buf p) := by
  unfold videoComplete
  repeat' (with_reducible first
      | assumption | apply raiseSource_keeps | apply markPoisoned_keeps | apply poolPicture_keeps | apply makeRoom_keeps
      | apply raisePicture_keeps | apply saveCtx_keeps | apply dropPictures_keeps | apply markPictures_keeps
      | apply outputPictures_keeps | apply setRun_keeps | apply writeFrame_keeps | apply bump_keeps | apply bumpBy_keeps
      | apply memWrite_keeps | intro _ | extract_lets | split | dsimp +zetaDelta only | refine Keeps.put ?_)

theorem execMdcPictureComplete_keeps {s0 : State} (core : Nat) (picture : Picture) (s : State)
    (hK : Keeps s0 s) : ∃ t, execMdcPictureComplete core picture s = .next t ∧ Keeps s0 t := by
  refine ⟨_, rfl, ?_⟩
  repeat' (with_reducible first
      | assumption | apply videoComplete_keeps | apply imageComplete_keeps | apply unitDone_keeps | apply Keeps.foldl
      | apply Keeps.foldlFst | apply Keeps.foldlSnd | refine Keeps.fst ‹_› ?_ | refine Keeps.snd ‹_› ?_ | intro _ | extract_lets
      | split | dsimp +zetaDelta only)

theorem rawComplete_keeps {s0 : State} (s : State) (r : DecodeRun) (buf : Nat) (h : MediaHeader) (b : List Byte)
    (hK : Keeps s0 s) : Keeps s0 (rawComplete s r buf h b).1 := by
  unfold rawComplete
  repeat' (with_reducible first
      | assumption | apply outputFrame_keeps | apply writeFrame_keeps | apply drawFree_keeps | apply bump_keeps | apply memWrite_keeps
      | refine Keeps.fst ‹_› ?_ | refine Keeps.snd ‹_› ?_ | intro _ | extract_lets | split | dsimp +zetaDelta only)

theorem reportDecode_keeps {s0 : State} (s : State) (r : DecodeRun) (hK : Keeps s0 s) : Keeps s0 (reportDecode s r) := by
  unfold reportDecode
  repeat' (with_reducible first
      | assumption | apply dropFrames_keeps | intro _ | extract_lets | split | dsimp +zetaDelta only | refine Keeps.put ?_)

theorem taintPictures_keeps {s0 : State} (s : State) (k : Nat) (mine : List Nat) (hK : Keeps s0 s) : Keeps s0 (taintPictures s k mine) := by
  unfold taintPictures
  repeat' (with_reducible first
      | assumption | apply setCtx_keeps | intro _ | extract_lets | split | dsimp +zetaDelta only | refine Keeps.put ?_)

theorem endSample_keeps {s0 : State} (s : State) (r : DecodeRun) (crcBad : Bool) (hK : Keeps s0 s) : Keeps s0 (endSample s r crcBad) := by
  unfold endSample
  repeat' (with_reducible first
      | assumption | apply taintPictures_keeps | apply reportDecode_keeps | apply outputPictures_keeps | apply closeCtx_keeps
      | apply dropFrames_keeps | apply setRun_keeps | apply unitDone_keeps | apply freeBuffers_keeps | apply drawFree_keeps
      | apply Keeps.foldl | apply Keeps.foldlFst | apply Keeps.foldlSnd | refine Keeps.fst ‹_› ?_ | refine Keeps.snd ‹_› ?_ | intro _
      | extract_lets | split | dsimp +zetaDelta only | refine Keeps.put ?_)

theorem rawEnds_keeps {s0 : State} (s : State) (r : DecodeRun) (inflated : List Byte) (hK : Keeps s0 s) : Keeps s0
    (rawEnds s r inflated).1 := by
  unfold rawEnds
  repeat' (with_reducible first
      | assumption | apply rawComplete_keeps | apply setRun_keeps | refine Keeps.fst ‹_› ?_ | refine Keeps.snd ‹_› ?_ | intro _
      | extract_lets | split | dsimp +zetaDelta only | refine Keeps.put ?_)

theorem sampleEnds_keeps {s0 : State} (s : State) (r : DecodeRun) (how : SampleEnd) (inflated : List Byte) (hK : Keeps s0 s) : Keeps s0
    (sampleEnds s r how inflated) := by
  unfold sampleEnds
  repeat' (with_reducible first
      | assumption | apply rawEnds_keeps | apply endSample_keeps | apply failSample_keeps | apply readChecked_keeps
      | apply bumpBy_keeps | intro _ | extract_lets | split | dsimp +zetaDelta only)

theorem execMdcSampleOutcome_keeps {s0 : State} (core : Nat) (stream : Option Nat) (how : SampleEnd) (inflated : List Byte) (s : State)
    (hK : Keeps s0 s) : ∃ t, execMdcSampleOutcome core stream how inflated s = .next t ∧ Keeps s0 t := by
  refine ⟨_, rfl, ?_⟩
  repeat' (with_reducible first | assumption | apply sampleEnds_keeps | refine Keeps.fst ‹_› ?_ | refine Keeps.snd ‹_› ?_ | intro _ | split)

theorem execMdcCoreEnableWrite_keeps {s0 : State} (via : Via) (value : Nat) (s : State)
    (hK : Keeps s0 s) : ∃ t, execMdcCoreEnableWrite via value s = .next t ∧ Keeps s0 t := by
  refine ⟨_, rfl, ?_⟩
  repeat' (with_reducible first | assumption | apply enableWrite_keeps | intro _)

/-! ## Tok -/

theorem tokStart_keeps {s0 : State} (s : State) (i : TokItem) (buffer : Nat) (inflated : InflatedText) (hK : Keeps s0 s) : Keeps s0
    (tokStart s i buffer inflated) := by
  unfold tokStart
  repeat' (with_reducible first
      | assumption | apply readChecked_keeps | apply raiseErr_keeps | apply bumpBy_keeps | apply Keeps.foldl | apply Keeps.foldlFst
      | apply Keeps.foldlSnd | refine Keeps.fst ‹_› ?_ | refine Keeps.snd ‹_› ?_ | intro _ | extract_lets | split
      | dsimp +zetaDelta only | refine Keeps.put ?_)

theorem takeTok_keeps {s0 : State} (s : State) (i : TokItem) (hK : Keeps s0 s) : Keeps s0 (takeTok s i) := by
  unfold takeTok
  repeat' (with_reducible first | assumption | refine Keeps.put ?_)

theorem execTokItemDispatch_keeps {s0 : State} (inflated : InflatedText) (s : State)
    (hK : Keeps s0 s) : ∃ t, execTokItemDispatch inflated s = .next t ∧ Keeps s0 t := by
  refine ⟨_, rfl, ?_⟩
  repeat' (with_reducible first
      | assumption | apply takeTok_keeps | apply tokStart_keeps | apply errFault_keeps | apply slotFault_keeps | apply retryLater_keeps
      | apply needBuffer_keeps | apply arbGrant_keeps | refine Keeps.fst ‹_› ?_ | refine Keeps.snd ‹_› ?_ | intro _ | extract_lets
      | split | dsimp +zetaDelta only)

theorem setPiece_keeps {s0 : State} (s : State) (c : Nat) (k : Option Nat) (hK : Keeps s0 s) : Keeps s0 (setPiece s c k) := by
  unfold setPiece
  repeat' (with_reducible first | assumption | refine Keeps.put ?_)

theorem finishPiece_keeps {s0 : State} (s : State) (r : TokRun) (c : Nat) (hK : Keeps s0 s) : Keeps s0 (finishPiece s r c) := by
  unfold finishPiece
  repeat' (with_reducible first
      | assumption | apply setPiece_keeps | apply unitDone_keeps | refine Keeps.fst ‹_› ?_ | refine Keeps.snd ‹_› ?_ | intro _
      | extract_lets | split | dsimp +zetaDelta only | refine Keeps.put ?_)

theorem takePiece_keeps {s0 : State} (s : State) (r : TokRun) (hK : Keeps s0 s) : Keeps s0 (takePiece s r) := by
  unfold takePiece
  repeat' (with_reducible first | assumption | apply setPiece_keeps | refine Keeps.fst ‹_› ?_ | refine Keeps.snd ‹_› ?_ | intro _ | split)

theorem execTokMergePiece_keeps {s0 : State} (finished : Option Nat) (s : State)
    (hK : Keeps s0 s) : ∃ t, execTokMergePiece finished s = .next t ∧ Keeps s0 t := by
  refine ⟨_, rfl, ?_⟩
  repeat' (with_reducible first
      | assumption | apply takePiece_keeps | apply finishPiece_keeps | refine Keeps.fst ‹_› ?_ | refine Keeps.snd ‹_› ?_ | intro _
      | split)

theorem tokWrite_keeps {s0 : State} (s : State) (r : TokRun) (hK : Keeps s0 s) : Keeps s0 (tokWrite s r) := by
  unfold tokWrite
  repeat' (with_reducible first
      | assumption | apply bump_keeps | apply bumpBy_keeps | apply memWrite_keeps | refine Keeps.fst ‹_› ?_ | refine Keeps.snd ‹_› ?_
      | intro _ | extract_lets | split | dsimp +zetaDelta only | refine Keeps.put ?_)

theorem execTokSampleOutcome_keeps {s0 : State} (s : State) (hK : Keeps s0 s) : ∃ t, execTokSampleOutcome s = .next t ∧ Keeps s0 t := by
  refine ⟨_, rfl, ?_⟩
  repeat' (with_reducible first
      | assumption | apply tokWrite_keeps | apply settleUnits_keeps | apply freeBuffers_keeps | apply raiseErr_keeps
      | refine Keeps.fst ‹_› ?_ | refine Keeps.snd ‹_› ?_ | intro _ | extract_lets | split | dsimp +zetaDelta only
      | refine Keeps.put ?_)

theorem tokLoadEffect_keeps {s0 : State} (x0 : Via) (x1 : Nat) (x2 : Nat) (x3 : List Byte) (s : State) (hK : Keeps s0 s) : Keeps s0
    (tokLoadEffect x0 x1 x2 x3 s) := by
  unfold tokLoadEffect
  repeat' (with_reducible first
      | assumption | apply packageEffect_keeps | apply startLong_keeps | apply keepBefore_keeps | apply dictAbort_keeps
      | apply objSet_keeps | intro _ | split | refine Keeps.put ?_)

theorem execTokTableLoad_keeps {s0 : State} (via : Via) (value : Nat) (s : State)
    (hK : Keeps s0 s) : ∃ t, execTokTableLoad via value s = .next t ∧ Keeps s0 t := by
  refine ⟨_, rfl, ?_⟩
  repeat' (with_reducible first | assumption | apply tokLoadEffect_keeps | apply requestWrite_keeps | intro _)

theorem execTokTableLoadComplete_keeps {s0 : State} (othersPass : Bool) (s : State)
    (hK : Keeps s0 s) : ∃ t, execTokTableLoadComplete othersPass s = .next t ∧ Keeps s0 t := by
  refine ⟨_, rfl, ?_⟩
  repeat' (with_reducible first
      | assumption | apply localFinish_keeps | apply readChecked_keeps | apply raiseErr_keeps | apply objSet_keeps
      | refine Keeps.fst ‹_› ?_ | refine Keeps.snd ‹_› ?_ | intro _ | extract_lets | split | dsimp +zetaDelta only
      | refine Keeps.put ?_)

theorem execTokCoreEnableWrite_keeps {s0 : State} (via : Via) (value : Nat) (s : State)
    (hK : Keeps s0 s) : ∃ t, execTokCoreEnableWrite via value s = .next t ∧ Keeps s0 t := by
  refine ⟨_, rfl, ?_⟩
  repeat' (with_reducible first | assumption | apply enableWrite_keeps | intro _)

/-! ## Shape -/

theorem frameReads_keeps {s0 : State} (s : State) (slot buf : Nat) (hK : Keeps s0 s) : Keeps s0 (frameReads s slot buf) := by
  unfold frameReads
  repeat' (with_reducible first
      | assumption | apply readChecked_keeps | apply Keeps.foldl | apply Keeps.foldlFst | apply Keeps.foldlSnd | intro _ | extract_lets
      | dsimp +zetaDelta only)

theorem shapeWork_keeps {s0 : State} (s : State) (d : Decoded) (g : ShapeProg) (buf : Nat) (hK : Keeps s0 s) : Keeps s0
    (shapeWork s d g buf) := by
  unfold shapeWork
  repeat' (with_reducible first
      | assumption | apply addWork_keeps | apply Keeps.foldl | apply Keeps.foldlFst | apply Keeps.foldlSnd | intro _ | extract_lets
      | split | dsimp +zetaDelta only)

theorem endShape_keeps {s0 : State} (s : State) (d : Decoded) (out : Outcome) (hK : Keeps s0 s) : Keeps s0 (endShape s d out) := by
  unfold endShape
  repeat' (with_reducible first
      | assumption | apply dropFrames_keeps | apply freeBuffers_keeps | intro _ | extract_lets | dsimp +zetaDelta only
      | refine Keeps.put ?_)

theorem putDecoded_keeps {s0 : State} (s : State) (d d' : Decoded) (hK : Keeps s0 s) : Keeps s0 (putDecoded s d d') := by
  unfold putDecoded
  repeat' (with_reducible first | assumption | split | refine Keeps.put ?_)

theorem shapePoisoned_keeps {s0 : State} (s : State) (d : Decoded) (hK : Keeps s0 s) : Keeps s0 (shapePoisoned s d) := by
  unfold shapePoisoned
  repeat' (with_reducible first | assumption | apply endShape_keeps | apply raiseErr_keeps | intro _ | refine Keeps.put ?_)

theorem shapeDone_keeps {s0 : State} (s : State) (d : Decoded) (g : ShapeProg) (hK : Keeps s0 s) : Keeps s0 (shapeDone s d g) := by
  unfold shapeDone
  repeat' (with_reducible first
      | assumption | apply shapePoisoned_keeps | apply endShape_keeps | apply bump_keeps | intro _ | extract_lets | split
      | dsimp +zetaDelta only | refine Keeps.put ?_)

theorem shapeRun_keeps {s0 : State} (s : State) (d : Decoded) (g : ShapeProg) (hK : Keeps s0 s) : Keeps s0 (shapeRun s d g) := by
  unfold shapeRun
  repeat' (with_reducible first
      | assumption | apply shapeDone_keeps | apply shapePoisoned_keeps | apply putDecoded_keeps | apply shapeWork_keeps
      | apply frameReads_keeps | apply needCalls_keeps | apply Keeps.foldl | apply Keeps.foldlFst | apply Keeps.foldlSnd
      | refine Keeps.fst ‹_› ?_ | refine Keeps.snd ‹_› ?_ | intro _ | extract_lets | split | dsimp +zetaDelta only
      | refine Keeps.put ?_)

theorem shapeBuffers_keeps {s0 : State} (g : ShapeProg) (size : Nat) (x0 : Nat) (s : State) (x2 : Decoded) (hK : Keeps s0 s) : Keeps s0
    (shapeBuffers g size x0 s x2) := by
  induction x0 generalizing g size s x2 with
  | zero => unfold shapeBuffers; exact hK
  | succ k ih =>
    unfold shapeBuffers
    repeat' (with_reducible first
        | assumption | apply ih | apply shapeRun_keeps | apply putDecoded_keeps | apply endShape_keeps | apply freeBuffers_keeps
        | apply retryLater_keeps | apply needBuffer_keeps | apply raiseErr_keeps | refine Keeps.fst ‹_› ?_ | refine Keeps.snd ‹_› ?_
        | intro _ | extract_lets | split | dsimp +zetaDelta only | refine Keeps.put ?_)

theorem execShapeSample_keeps {s0 : State} (slot sample : Nat) (s : State)
    (hK : Keeps s0 s) : ∃ t, execShapeSample slot sample s = .next t ∧ Keeps s0 t := by
  refine ⟨_, rfl, ?_⟩
  repeat' (with_reducible first
      | assumption | apply shapeBuffers_keeps | apply shapeDone_keeps | apply endShape_keeps | apply readChecked_keeps
      | apply raiseErr_keeps | apply Keeps.foldl | apply Keeps.foldlFst | apply Keeps.foldlSnd | refine Keeps.fst ‹_› ?_
      | refine Keeps.snd ‹_› ?_ | intro _ | extract_lets | split | dsimp +zetaDelta only | refine Keeps.put ?_)

/-! ## BatMath -/

theorem mixedBytes_keeps {s0 : State} (s : State) (b : BatStage) (y z : Outcome) (lam16 : Nat) (hK : Keeps s0 s) : Keeps s0
    (mixedBytes s b y z lam16).2 := by
  unfold mixedBytes
  repeat' (with_reducible first
      | assumption | apply reserveFree_keeps | refine Keeps.fst ‹_› ?_ | refine Keeps.snd ‹_› ?_ | intro _ | extract_lets | split
      | dsimp +zetaDelta only)

theorem writeSlot_keeps {s0 : State} (s : State) (b : BatStage) (h : Hamper) (buf i : Nat) (hK : Keeps s0 s) : Keeps s0
    (writeSlot s b h buf i) := by
  unfold writeSlot
  repeat' (with_reducible first
      | assumption | apply mixedBytes_keeps | apply memWritePoisoned_keeps | apply bumpBy_keeps | apply memWrite_keeps
      | refine Keeps.fst ‹_› ?_ | refine Keeps.snd ‹_› ?_ | intro _ | extract_lets | split | dsimp +zetaDelta only
      | refine Keeps.put ?_)

theorem writeHamper_keeps {s0 : State} (s : State) (b : BatStage) (h : Hamper) (buf : Nat) (hK : Keeps s0 s) : Keeps s0
    (writeHamper s b h buf) := by
  unfold writeHamper
  repeat' (with_reducible first
      | assumption | apply writeSlot_keeps | apply bumpBy_keeps | apply memWrite_keeps | apply Keeps.foldl | apply Keeps.foldlFst
      | apply Keeps.foldlSnd | intro _ | extract_lets | dsimp +zetaDelta only)

/-! ## Bat -/

theorem putBat_keeps {s0 : State} (s : State) (b : BatStage) (hK : Keeps s0 s) : Keeps s0 (putBat s b) := by
  unfold putBat
  repeat' (with_reducible first | assumption | split | refine Keeps.put ?_)

theorem skipWrite_keeps {s0 : State} (s : State) (b : BatStage) (seq sample pos : Nat) (spare : Option (Nat × Nat)) (code flags : Nat)
    (hK : Keeps s0 s) : Keeps s0 (skipWrite s b seq sample pos spare code flags) := by
  unfold skipWrite
  repeat' (with_reducible first | assumption | apply memWrite_keeps | intro _)

theorem skipLog_keeps {s0 : State} (s : State) (b : BatStage) (sample pos : Nat) (spare : Option (Nat × Nat)) (code flags : Nat)
    (hK : Keeps s0 s) : Keeps s0 (skipLog s b sample pos spare code flags).1 := by
  unfold skipLog
  repeat' (with_reducible first | assumption | apply skipWrite_keeps | intro _)

theorem startEpoch_keeps {s0 : State} (s : State) (b : BatStage) (e : Nat) (curs : List BucketCursor) (hK : Keeps s0 s) : Keeps s0
    (startEpoch s b e curs).1 := by
  unfold startEpoch
  repeat' (with_reducible first
      | assumption | apply modSlot_keeps | apply Keeps.foldl | apply Keeps.foldlFst | apply Keeps.foldlSnd | intro _ | extract_lets
      | dsimp +zetaDelta only | refine Keeps.put ?_)

theorem issueBatch_keeps {s0 : State} (s : State) (c : Cmd) (p : BatParams) (hK : Keeps s0 s) : Keeps s0 (issueBatch s c p) := by
  unfold issueBatch
  repeat' (with_reducible first
      | assumption | apply startEpoch_keeps | apply nameFailed_keeps | apply refuseItem_keeps | apply readChecked_keeps
      | apply modSlot_keeps | refine Keeps.fst ‹_› ?_ | refine Keeps.snd ‹_› ?_ | intro _ | extract_lets | split
      | dsimp +zetaDelta only | refine Keeps.put ?_)

theorem issueWorkOf_keeps {s0 : State} (s : State) (b : BatStage) (x : Nat) (hK : Keeps s0 s) : Keeps s0 (issueWorkOf s b x) := by
  unfold issueWorkOf
  repeat' (with_reducible first
      | assumption | refine Keeps.fst ‹_› ?_ | refine Keeps.snd ‹_› ?_ | extract_lets | split | dsimp +zetaDelta only
      | refine Keeps.put ?_)

theorem issueSample_keeps {s0 : State} (s : State) (b : BatStage) (pos : Nat) (hK : Keeps s0 s) : Keeps s0 (issueSample s b pos) := by
  unfold issueSample
  repeat' (with_reducible first | assumption | apply issueWorkOf_keeps | intro _)

theorem issueChunk_keeps {s0 : State} (s : State) (b : BatStage) (c d : Nat) (hK : Keeps s0 s) : Keeps s0 (issueChunk s b c d) := by
  unfold issueChunk
  repeat' (with_reducible first
      | assumption | apply issueSample_keeps | apply Keeps.foldl | apply Keeps.foldlFst | apply Keeps.foldlSnd | intro _ | split)

theorem logExcluded_keeps {s0 : State} (s : State) (b : BatStage) (c : Nat) (hK : Keeps s0 s) : Keeps s0 (logExcluded s b c).1 := by
  unfold logExcluded
  repeat' (with_reducible first
      | assumption | apply skipLog_keeps | apply readChecked_keeps | apply raiseErr_keeps | apply Keeps.foldl | apply Keeps.foldlFst
      | apply Keeps.foldlSnd | intro _ | extract_lets | dsimp +zetaDelta only)

theorem offerChunk_keeps {s0 : State} (s : State) (b : BatStage) (c : Nat) (hK : Keeps s0 s) : Keeps s0 (offerChunk s b c).1 := by
  unfold offerChunk
  repeat' (with_reducible first
      | assumption | apply fire_keeps | apply bump_keeps | apply memWrite_keeps | apply Keeps.foldl | apply Keeps.foldlFst
      | apply Keeps.foldlSnd | intro _ | extract_lets | split | dsimp +zetaDelta only | refine Keeps.put ?_)

theorem assignNext_keeps {s0 : State} (s : State) (b : BatStage) (hK : Keeps s0 s) : Keeps s0 (assignNext s b).1 := by
  unfold assignNext
  repeat' (with_reducible first
      | assumption | apply offerChunk_keeps | apply logExcluded_keeps | apply issueChunk_keeps | apply needCalls_keeps
      | apply readMem_keeps | apply bump_keeps | refine Keeps.fst ‹_› ?_ | refine Keeps.snd ‹_› ?_ | intro _ | extract_lets | split
      | dsimp +zetaDelta only | refine Keeps.put ?_)

theorem place_keeps {s0 : State} (s : State) (b : BatStage) (k : Nat) (a : Assembly) (x : HamperSlot) (own : Nat)
    (hK : Keeps s0 s) : Keeps s0 (place s b k a x own).1 := by
  unfold place
  repeat' (with_reducible first
      | assumption | apply bump_keeps | intro _ | extract_lets | split | dsimp +zetaDelta only | refine Keeps.put ?_)

theorem slotRecord_keeps {s0 : State} (s : State) (b : BatStage) (here seq : Nat) (filler : Option (Nat × Nat)) (flag : Nat)
    (hK : Keeps s0 s) : Keeps s0 (slotRecord s b here seq filler flag) := by
  unfold slotRecord
  repeat' (with_reducible first
      | assumption | apply skipWrite_keeps | intro _ | extract_lets | split | dsimp +zetaDelta only | refine Keeps.put ?_)

theorem leaveSlot_keeps {s0 : State} (s : State) (b : BatStage) (k here seq : Nat) (a : Assembly) (hK : Keeps s0 s) : Keeps s0
    (leaveSlot s b k here seq a).1 := by
  unfold leaveSlot
  repeat' (with_reducible first | assumption | apply slotRecord_keeps | apply bump_keeps | intro _)

theorem repeatOf_keeps {s0 : State} (s : State) (b : BatStage) (a : Assembly) (here : Nat) (hK : Keeps s0 s) : Keeps s0
    (repeatOf s b a here).2.2 := by
  unfold repeatOf
  repeat' (with_reducible first
      | assumption | apply drawFree_keeps | refine Keeps.fst ‹_› ?_ | refine Keeps.snd ‹_› ?_ | intro _ | extract_lets | split
      | dsimp +zetaDelta only)

theorem startRepeat_keeps {s0 : State} (s : State) (b : BatStage) (k here seq d : Nat) (a : Assembly) (hK : Keeps s0 s) : Keeps s0
    (startRepeat s b k here seq d a).1 := by
  unfold startRepeat
  repeat' (with_reducible first
      | assumption | apply repeatOf_keeps | apply issueWorkOf_keeps | apply raiseErr_keeps | intro _ | extract_lets | split
      | dsimp +zetaDelta only | refine Keeps.put ?_)

theorem exhausted_keeps {s0 : State} (s : State) (b : BatStage) (k here seq : Nat) (a : Assembly) (hK : Keeps s0 s) : Keeps s0
    (exhausted s b k here seq a).1 := by
  unfold exhausted
  repeat' (with_reducible first
      | assumption | apply startRepeat_keeps | apply leaveSlot_keeps | apply needCalls_keeps | apply raiseErr_keeps
      | refine Keeps.fst ‹_› ?_ | refine Keeps.snd ‹_› ?_ | intro _ | extract_lets | split | dsimp +zetaDelta only)

theorem placeRepeat_keeps {s0 : State} (s : State) (b : BatStage) (k : Nat) (a : Assembly) (r : Repeat) (o : Outcome)
    (hK : Keeps s0 s) : Keeps s0 (placeRepeat s b k a r o).1 := by
  unfold placeRepeat
  repeat' (with_reducible first
      | assumption | apply leaveSlot_keeps | apply slotRecord_keeps | apply place_keeps | apply bump_keeps | intro _ | extract_lets
      | split | dsimp +zetaDelta only | refine Keeps.put ?_)

theorem issueSpare_keeps {s0 : State} (s : State) (b : BatStage) (pos : Nat) (hK : Keeps s0 s) : Keeps s0 (issueSpare s b pos).1 := by
  unfold issueSpare
  repeat' (with_reducible first
      | assumption | apply issueSample_keeps | refine Keeps.fst ‹_› ?_ | refine Keeps.snd ‹_› ?_ | intro _ | extract_lets | split
      | dsimp +zetaDelta only | refine Keeps.put ?_)

theorem assembleStep_keeps {s0 : State} (s : State) (b : BatStage) (k : Nat) (hK : Keeps s0 s) : Keeps s0 (assembleStep s b k).1 := by
  unfold assembleStep
  repeat' (with_reducible first
      | assumption | apply issueSpare_keeps | apply placeRepeat_keeps | apply exhausted_keeps | apply slotRecord_keeps
      | apply place_keeps | apply skipLog_keeps | apply bump_keeps | refine Keeps.fst ‹_› ?_ | refine Keeps.snd ‹_› ?_ | intro _
      | extract_lets | split | dsimp +zetaDelta only | refine Keeps.put ?_)

theorem assembleBucket_keeps {s0 : State} (k : Nat) (x0 : Nat) (s : State) (x2 : BatStage) (hK : Keeps s0 s) : Keeps s0
    (assembleBucket k x0 s x2).1 := by
  induction x0 generalizing k s x2 with
  | zero => unfold assembleBucket; exact hK
  | succ k ih =>
    unfold assembleBucket
    repeat' (with_reducible first
        | assumption | apply ih | apply assembleStep_keeps | refine Keeps.fst ‹_› ?_ | refine Keeps.snd ‹_› ?_ | intro _ | split)

theorem assembleAll_keeps {s0 : State} (s : State) (b : BatStage) (hK : Keeps s0 s) : Keeps s0 (assembleAll s b).1 := by
  unfold assembleAll
  repeat' (with_reducible first
      | assumption | apply assembleBucket_keeps | apply Keeps.foldl | apply Keeps.foldlFst | apply Keeps.foldlSnd | intro _ | split)

theorem endAssembly_keeps {s0 : State} (s : State) (b : BatStage) (hK : Keeps s0 s) : Keeps s0 (endAssembly s b).1 := by
  unfold endAssembly
  repeat' (with_reducible first
      | assumption | apply bumpBy_keeps | apply Keeps.foldl | apply Keeps.foldlFst | apply Keeps.foldlSnd | intro _ | extract_lets
      | split | dsimp +zetaDelta only | refine Keeps.put ?_)

theorem passHamper_keeps {s0 : State} (s : State) (b : BatStage) (h : Hamper) (buf : Nat) (hK : Keeps s0 s) : Keeps s0
    (passHamper s b h buf) := by
  unfold passHamper
  repeat' (with_reducible first
      | assumption | apply putBat_keeps | apply writeHamper_keeps | apply pushEntry_keeps | apply semSignal_keeps | apply bump_keeps
      | intro _ | extract_lets | split | dsimp +zetaDelta only | refine Keeps.put ?_)

theorem batWait_keeps {s0 : State} (s : State) (b : BatStage) (hK : Keeps s0 s) : Keeps s0 (batWait s b).1 := by
  unfold batWait
  repeat' (with_reducible first
      | assumption | apply putBat_keeps | apply semWait_keeps | intro _ | extract_lets | split | dsimp +zetaDelta only
      | refine Keeps.put ?_)

theorem mixReady_keeps {s0 : State} (s : State) (b : BatStage) (h : Hamper) (hK : Keeps s0 s) : Keeps s0 (mixReady s b h).1 := by
  unfold mixReady
  repeat' (with_reducible first
      | assumption | apply putBat_keeps | apply addWork_keeps | apply needCalls_keeps | refine Keeps.fst ‹_› ?_
      | refine Keeps.snd ‹_› ?_ | intro _ | extract_lets | split | dsimp +zetaDelta only | refine Keeps.put ?_)

theorem passHampers_keeps {s0 : State} (cmd : Nat) (x0 : Nat) (s : State) (hK : Keeps s0 s) : Keeps s0 (passHampers cmd x0 s) := by
  induction x0 generalizing cmd s with
  | zero => unfold passHampers; exact hK
  | succ k ih =>
    unfold passHampers
    repeat' (with_reducible first
        | assumption | apply ih | apply mixReady_keeps | apply batWait_keeps | apply passHamper_keeps | apply slotFault_keeps
        | apply retryLater_keeps | apply needBuffer_keeps | refine Keeps.fst ‹_› ?_ | refine Keeps.snd ‹_› ?_ | intro _ | extract_lets
        | split | dsimp +zetaDelta only)

theorem endEpoch_keeps {s0 : State} (s : State) (cmd : Nat) (hK : Keeps s0 s) : Keeps s0 (endEpoch s cmd) := by
  unfold endEpoch
  repeat' (with_reducible first
      | assumption | apply startEpoch_keeps | apply putBat_keeps | apply finishCmd_keeps | apply fire_keeps | apply bump_keeps
      | refine Keeps.fst ‹_› ?_ | refine Keeps.snd ‹_› ?_ | intro _ | extract_lets | split | dsimp +zetaDelta only
      | refine Keeps.put ?_)

theorem batProgress_keeps {s0 : State} (s : State) (cmd : Nat) (hK : Keeps s0 s) : Keeps s0 (batProgress s cmd) := by
  unfold batProgress
  repeat' (with_reducible first
      | assumption | apply endEpoch_keeps | apply passHampers_keeps | apply endAssembly_keeps | apply assembleAll_keeps
      | apply putBat_keeps | refine Keeps.fst ‹_› ?_ | refine Keeps.snd ‹_› ?_ | intro _ | extract_lets | split
      | dsimp +zetaDelta only)

theorem takeTold_keeps {s0 : State} (s : State) (b : BatStage) (x0 : HomeTold) (hK : Keeps s0 s) : Keeps s0 (takeTold s b x0) := by
  unfold takeTold
  repeat' (with_reducible first
      | assumption | apply issueSample_keeps | apply putBat_keeps | apply finishCmd_keeps | apply modSlot_keeps | apply Keeps.foldl
      | apply Keeps.foldlFst | apply Keeps.foldlSnd | intro _ | extract_lets | split | dsimp +zetaDelta only | refine Keeps.put ?_)

theorem execBatChunkAssign_keeps {s0 : State} (slot : Nat) (told : Option HomeTold) (s : State)
    (hK : Keeps s0 s) : ∃ t, execBatChunkAssign slot told s = .next t ∧ Keeps s0 t := by
  refine ⟨_, rfl, ?_⟩
  repeat' (with_reducible first
      | assumption | apply takeTold_keeps | apply batProgress_keeps | apply assignNext_keeps | apply putBat_keeps
      | refine Keeps.fst ‹_› ?_ | refine Keeps.snd ‹_› ?_ | intro _ | extract_lets | split | dsimp +zetaDelta only)

theorem checkLength_keeps {s0 : State} (s : State) (b : BatStage) (pos : Nat) (o : Outcome) (hK : Keeps s0 s) : Keeps s0
    (checkLength s b pos o).1 := by
  unfold checkLength
  repeat' (with_reducible first
      | assumption | apply raiseErr_keeps | intro _ | extract_lets | split | dsimp +zetaDelta only | refine Keeps.put ?_)

theorem checkCopy_keeps {s0 : State} (s : State) (b : BatStage) (o : Outcome) (hK : Keeps s0 s) : Keeps s0 (checkCopy s b o).1 := by
  unfold checkCopy
  repeat' (with_reducible first | assumption | apply raiseErr_keeps | intro _ | split | refine Keeps.put ?_)

theorem settleOutcome_keeps {s0 : State} (s : State) (b : BatStage) (pos : Nat) (o : Outcome) (hK : Keeps s0 s) : Keeps s0
    (settleOutcome s b pos o).1 := by
  unfold settleOutcome
  repeat' (with_reducible first
      | assumption | apply checkCopy_keeps | apply checkLength_keeps | refine Keeps.fst ‹_› ?_ | refine Keeps.snd ‹_› ?_ | intro _
      | extract_lets | split | dsimp +zetaDelta only | refine Keeps.put ?_)

theorem rawOutcome_keeps {s0 : State} (s : State) (slot : Nat) (e : ShardEntry) (hK : Keeps s0 s) : Keeps s0 (rawOutcome s slot e).1 := by
  unfold rawOutcome
  repeat' (with_reducible first
      | assumption | apply readChecked_keeps | apply drawFree_keeps | refine Keeps.fst ‹_› ?_ | refine Keeps.snd ‹_› ?_ | intro _
      | extract_lets | split | dsimp +zetaDelta only | refine Keeps.put ?_)

theorem readResult_keeps {s0 : State} (s : State) (r : Finished) (hK : Keeps s0 s) : Keeps s0 (readResult s r).1 := by
  unfold readResult
  repeat' (with_reducible first
      | assumption | apply readChecked_keeps | refine Keeps.fst ‹_› ?_ | refine Keeps.snd ‹_› ?_ | intro _ | split
      | refine Keeps.put ?_)

theorem ownOutcome_keeps {s0 : State} (s : State) (b : BatStage) (pos : Nat) (hK : Keeps s0 s) {t} (ht : ownOutcome s b pos = some t) :
    Keeps s0 t.1 := by
  unfold ownOutcome at ht
  dsimp only at ht
  split at ht
  · simp at ht
  · split at ht
    · simp only [Option.some.injEq] at ht
      subst ht
      exact rawOutcome_keeps _ _ _ hK
    · obtain ⟨r, _, hr⟩ := Option.map_eq_some_iff.mp ht
      subst hr
      exact freeBuffers_keeps _ _ _ (Keeps.put (readResult_keeps s r hK))

theorem toldOutcome_keeps {s0 : State} (s : State) (b : BatStage) (position : Nat) (o : Outcome) (hK : Keeps s0 s) {t}
    (ht : toldOutcome s b position o = some t) : Keeps s0 t.1 := by
  unfold toldOutcome at ht
  split at ht
  · simp at ht
  · split at ht
    · exact ownOutcome_keeps _ _ _ hK ht
    · simp only [Option.some.injEq] at ht
      subst ht
      exact hK

theorem settlePosition_keeps {s0 : State} (s : State) (b : BatStage) (position : Nat) (o : Outcome) (hK : Keeps s0 s) : Keeps s0
    (settlePosition s b position o) := by
  unfold settlePosition
  repeat' (with_reducible first
      | assumption | apply settleOutcome_keeps | apply batProgress_keeps | apply putBat_keeps | intro _ | extract_lets
      | dsimp +zetaDelta only)

theorem execBatSampleOutcome_keeps {s0 : State} (slot position code : Nat) (result : List Byte) (norm : List (List Nat))
    (truncated poisoned : Bool) (s : State)
    (hK : Keeps s0 s) : ∃ t, execBatSampleOutcome slot position code result norm truncated poisoned s = .next t ∧ Keeps s0 t := by
  refine ⟨_, rfl, ?_⟩
  repeat' (with_reducible first
      | assumption | apply settlePosition_keeps | refine toldOutcome_keeps _ _ _ _ (t := (_, _)) ?_ ‹_›
      | refine toldOutcome_keeps _ _ _ _ ?_ ‹_› | refine ownOutcome_keeps _ _ _ (t := (_, _)) ?_ ‹_›
      | refine ownOutcome_keeps _ _ _ ?_ ‹_› | refine Keeps.fst ‹_› ?_ | refine Keeps.snd ‹_› ?_ | intro _ | split
      | refine Keeps.put ?_)

theorem hostOutcome_keeps {s0 : State} (s : State) (b : BatStage) (table pos : Nat) (hK : Keeps s0 s) : Keeps s0
    (hostOutcome s b table pos).1 := by
  unfold hostOutcome
  repeat' (with_reducible first
      | assumption | apply readMem_keeps | apply readChecked_keeps | apply raiseErr_keeps | refine Keeps.fst ‹_› ?_
      | refine Keeps.snd ‹_› ?_ | intro _ | extract_lets | split | dsimp +zetaDelta only | refine Keeps.put ?_)

theorem takeHost_keeps {s0 : State} (s : State) (b : BatStage) (c r : Nat) (hK : Keeps s0 s) : Keeps s0 (takeHost s b c r).1 := by
  unfold takeHost
  repeat' (with_reducible first
      | assumption | apply hostOutcome_keeps | apply settleOutcome_keeps | apply readMem_keeps | apply memWrite_keeps
      | apply Keeps.foldl | apply Keeps.foldlFst | apply Keeps.foldlSnd | refine Keeps.fst ‹_› ?_ | refine Keeps.snd ‹_› ?_ | intro _
      | extract_lets | split | dsimp +zetaDelta only | refine Keeps.put ?_)

theorem reclaimHost_keeps {s0 : State} (s : State) (b : BatStage) (c r : Nat) (hK : Keeps s0 s) : Keeps s0 (reclaimHost s b c r).1 := by
  unfold reclaimHost
  repeat' (with_reducible first | assumption | apply memWrite_keeps | intro _ | refine Keeps.put ?_)

theorem pollRecord_keeps {s0 : State} (timedOut : List Nat) (s : State) (b : BatStage) (c r : Nat) (hK : Keeps s0 s) : Keeps s0
    (pollRecord timedOut s b c r).1 := by
  unfold pollRecord
  repeat' (with_reducible first
      | assumption | apply reclaimHost_keeps | apply takeHost_keeps | apply readMem_keeps | apply raiseErr_keeps
      | refine Keeps.fst ‹_› ?_ | refine Keeps.snd ‹_› ?_ | intro _ | extract_lets | split | dsimp +zetaDelta only)

theorem execHostPoll_keeps {s0 : State} (slot : Nat) (timedOut : List Nat) (s : State)
    (hK : Keeps s0 s) : ∃ t, execHostPoll slot timedOut s = .next t ∧ Keeps s0 t := by
  refine ⟨_, rfl, ?_⟩
  repeat' (with_reducible first
      | assumption | apply pollRecord_keeps | apply batProgress_keeps | apply assignNext_keeps | apply putBat_keeps | apply Keeps.foldl
      | apply Keeps.foldlFst | apply Keeps.foldlSnd | refine Keeps.fst ‹_› ?_ | refine Keeps.snd ‹_› ?_ | intro _ | extract_lets
      | split | dsimp +zetaDelta only)

theorem batStop_keeps {s0 : State} (s : State) (slot : Nat) (hK : Keeps s0 s) : Keeps s0 (batStop s slot) := by
  unfold batStop
  repeat' (with_reducible first
      | assumption | apply putBat_keeps | apply memWrite_keeps | apply Keeps.foldl | apply Keeps.foldlFst | apply Keeps.foldlSnd
      | intro _ | extract_lets | dsimp +zetaDelta only | refine Keeps.put ?_)

end Sys2Proof.Machine
end

