-- ==== Sys2Proof/Laws/KeepsPackage.lean ====
section
/-! SUPPORT. What command issue, bring-up, removal, rucksacks and the dictionary keep: the queue, the fuses, the bound on pairs and the memories' form. -/

set_option linter.unusedTactic false
set_option linter.unreachableTactic false
set_option linter.unusedVariables false

namespace Sys2Proof.Machine

set_option Elab.async false

/-! ## Issue -/

theorem readBlock_keeps {s0 : State} (s : State) (c : Cmd) (hK : Keeps s0 s) : Keeps s0 (readBlock s c).2 := by
  unfold readBlock
  repeat' (with_reducible first
      | assumption | apply readMem_keeps | refine Keeps.fst ‹_› ?_ | refine Keeps.snd ‹_› ?_ | intro _ | extract_lets | split
      | dsimp +zetaDelta only)

theorem refuseIssue_keeps {s0 : State} (s : State) (c : Cmd) (code : Nat) (hK : Keeps s0 s) : Keeps s0 (refuseIssue s c code) := by
  unfold refuseIssue
  repeat' (with_reducible first | assumption | apply refuseItem_keeps | intro _)

theorem issueTxa_keeps {s0 : State} (s : State) (c : Cmd) (b : List Byte) (hK : Keeps s0 s) : Keeps s0 (issueTxa s c b) := by
  unfold issueTxa
  repeat' (with_reducible first
      | assumption | apply refuseIssue_keeps | apply setOutput_keeps | refine Keeps.fst ‹_› ?_ | refine Keeps.snd ‹_› ?_ | intro _
      | extract_lets | split | dsimp +zetaDelta only | refine Keeps.put ?_)

theorem issueForge_keeps {s0 : State} (s : State) (c : Cmd) (b : List Byte) (hK : Keeps s0 s) : Keeps s0 (issueForge s c b) := by
  unfold issueForge
  repeat' (with_reducible first
      | assumption | apply refuseIssue_keeps | apply setOutput_keeps | refine Keeps.fst ‹_› ?_ | refine Keeps.snd ‹_› ?_ | intro _
      | extract_lets | split | dsimp +zetaDelta only | refine Keeps.put ?_)

theorem issueDlv_keeps {s0 : State} (s : State) (c : Cmd) (b : List Byte) (entry : Option LinkEntry) (hK : Keeps s0 s) : Keeps s0
    (issueDlv s c b entry) := by
  unfold issueDlv
  repeat' (with_reducible first
      | assumption | apply writeManifests_keeps | apply issueDeliver_keeps | apply refuseRecorded_keeps | apply takeEntry_keeps
      | refine Keeps.fst ‹_› ?_ | refine Keeps.snd ‹_› ?_ | intro _ | extract_lets | split | dsimp +zetaDelta only)

theorem issueKeyReg_keeps {s0 : State} (s : State) (c : Cmd) (b : List Byte) (hK : Keeps s0 s) : Keeps s0 (issueKeyReg s c b) := by
  unfold issueKeyReg
  repeat' (with_reducible first | assumption | apply refuseIssue_keeps | apply issueRegister_keeps | intro _ | split)

theorem issueKey_keeps {s0 : State} (s : State) (c : Cmd) (b : List Byte) (hK : Keeps s0 s) : Keeps s0 (issueKey s c b) := by
  unfold issueKey
  repeat' (with_reducible first
      | assumption | apply issueKeyStream_keeps | apply refuseRecorded_keeps | intro _ | extract_lets | split | dsimp +zetaDelta only)

theorem issueStage_keeps {s0 : State} (s : State) (c : Cmd) (b : List Byte) (hK : Keeps s0 s) : Keeps s0 (issueStage s c b) := by
  unfold issueStage
  repeat' (with_reducible first | assumption | apply refuseIssue_keeps | apply issueIngest_keeps | intro _ | split)

theorem fetchGranule_keeps {s0 : State} (s : State) (toTxa : Bool) (src dst : Nat) (hK : Keeps s0 s) : Keeps s0
    (fetchGranule s toTxa src dst) := by
  unfold fetchGranule
  repeat' (with_reducible first
      | assumption | apply pfgWritePoisoned_keeps | apply txaWritePoisoned_keeps | apply pfgWrite_keeps | apply txaWrite_keeps
      | refine Keeps.fst ‹_› ?_ | refine Keeps.snd ‹_› ?_ | intro _ | extract_lets | split | dsimp +zetaDelta only)

theorem issueFetch_keeps {s0 : State} (s : State) (c : Cmd) (b : List Byte) (hK : Keeps s0 s) : Keeps s0 (issueFetch s c b) := by
  unfold issueFetch
  repeat' (with_reducible first
      | assumption | apply fetchGranule_keeps | apply refuseIssue_keeps | apply setOutput_keeps | apply finishCmd_keeps
      | apply readChecked_keeps | apply Keeps.foldl | apply Keeps.foldlFst | apply Keeps.foldlSnd | refine Keeps.fst ‹_› ?_
      | refine Keeps.snd ‹_› ?_ | intro _ | extract_lets | split | dsimp +zetaDelta only)

theorem issueAlloc_keeps {s0 : State} (s : State) (c : Cmd) (b : List Byte) (hK : Keeps s0 s) : Keeps s0 (issueAlloc s c b) := by
  unfold issueAlloc
  repeat' (with_reducible first
      | assumption | apply refuseIssue_keeps | apply modCmd_keeps | apply poolRequest_keeps | intro _ | extract_lets | split
      | dsimp +zetaDelta only | refine Keeps.put ?_)

theorem issueFree_keeps {s0 : State} (s : State) (c : Cmd) (b : List Byte) (hK : Keeps s0 s) : Keeps s0 (issueFree s c b) := by
  unfold issueFree
  repeat' (with_reducible first | assumption | apply refuseIssue_keeps | apply presentFree_keeps | intro _ | split | refine Keeps.put ?_)

theorem issueWork_keeps {s0 : State} (s : State) (c : Cmd) (b : List Byte) (entry : Option LinkEntry) (hK : Keeps s0 s) : Keeps s0
    (issueWork s c b entry) := by
  unfold issueWork
  repeat' (with_reducible first
      | assumption | apply issueFree_keeps | apply issueAlloc_keeps | apply issueFetch_keeps | apply issueStage_keeps
      | apply issueKey_keeps | apply issueKeyReg_keeps | apply issueDlv_keeps | apply issueForge_keeps | apply issueTxa_keeps
      | apply issueBatch_keeps | refine Keeps.fst ‹_› ?_ | refine Keeps.snd ‹_› ?_ | intro _ | split)

theorem refuseBlock_keeps {s0 : State} (s : State) (c : Cmd) (hK : Keeps s0 s) : Keeps s0 (refuseBlock s c) := by
  unfold refuseBlock
  repeat' (with_reducible first
      | assumption | apply refuseIssue_keeps | apply refuseRecorded_keeps | apply drawFree_keeps | refine Keeps.fst ‹_› ?_
      | refine Keeps.snd ‹_› ?_ | intro _ | extract_lets | split | dsimp +zetaDelta only)

theorem issueCmd_keeps {s0 : State} (s : State) (c : Cmd) (hK : Keeps s0 s) : Keeps s0 (issueCmd s c) := by
  unfold issueCmd
  repeat' (with_reducible first
      | assumption | apply refuseBlock_keeps | apply issueWork_keeps | apply readBlock_keeps | apply modCmd_keeps
      | apply takeEntry_keeps | apply finishCmd_keeps | apply traceRec_keeps | refine Keeps.fst ‹_› ?_ | refine Keeps.snd ‹_› ?_
      | intro _ | extract_lets | split | dsimp +zetaDelta only | refine Keeps.put ?_)

theorem pairError_keeps {s0 : State} (s : State) (p : Nat) (hK : Keeps s0 s) : Keeps s0 (pairError s p) := by
  unfold pairError
  exact Keeps.foldl _ _ (fun s n h => slotFault_keeps s n _ h)
    (clearLink_keeps _ _ (setPair_keeps (lastBadOther_keeps _ (raiseErr_keeps _ _ _ hK)) _ _ fun _ => Nat.le_of_eq (Nat.add_zero _)))

theorem execCommandIssue_keeps {s0 : State} (slot queue : Nat) (ras : Nat) (s : State)
    (hK : Keeps s0 s) : ∃ t, execCommandIssue slot queue ras s = .next t ∧ Keeps s0 t := by
  refine ⟨_, rfl, ?_⟩
  repeat' (with_reducible first
      | assumption | apply pairError_keeps | apply issueCmd_keeps | apply fatalError_keeps | apply askNext_keeps | apply errFault_keeps
      | apply lastBadOther_keeps | refine Keeps.fst ‹_› ?_ | refine Keeps.snd ‹_› ?_ | intro _ | split)

/-! ## Bringup -/

theorem resetBlock_keeps {s0 : State} (s : State) (hK : Keeps s0 s) : Keeps s0 (resetBlock s) :=
  hK.trans ⟨rfl, fun _ hf => hf, fun _ _ => by simp only [pairOf, resetBlock]; rw [show tblGet ({} : Pair) [] _ = {} from rfl]; decide,
    fun w => ⟨w.1, rfl, rfl, w.2.2.2.1, rfl, rfl⟩⟩

theorem powerOn_keeps {s0 : State} (s : State) (hK : Keeps s0 s) : Keeps s0 (powerOn s) := by
  unfold powerOn
  repeat' (with_reducible first | assumption | refine Keeps.put ?_)

theorem execPwrgoodRise_keeps {s0 : State} (s : State) (hK : Keeps s0 s) : ∃ t, execPwrgoodRise s = .next t ∧ Keeps s0 t := by
  refine ⟨_, rfl, ?_⟩
  repeat' (with_reducible first | assumption | apply powerOn_keeps | intro _ | split | refine Keeps.put ?_)

theorem execPwrgoodFall_keeps {s0 : State} (s : State) (hK : Keeps s0 s) : ∃ t, execPwrgoodFall s = .next t ∧ Keeps s0 t := by
  refine ⟨_, rfl, ?_⟩
  repeat' (with_reducible first | assumption | apply powerOn_keeps | apply resetBlock_keeps | intro _ | refine Keeps.put ?_)

theorem execResetAssert_keeps {s0 : State} (s : State) (hK : Keeps s0 s) : ∃ t, execResetAssert s = .next t ∧ Keeps s0 t := by
  refine ⟨_, rfl, ?_⟩
  repeat' (with_reducible first | assumption | apply resetBlock_keeps | intro _)

theorem execResetRelease_keeps {s0 : State} (s : State) (hK : Keeps s0 s) : ∃ t, execResetRelease s = .next t ∧ Keeps s0 t := by
  refine ⟨_, rfl, ?_⟩
  repeat' (with_reducible first | assumption | split | refine Keeps.put ?_)

theorem fuseTiles_keeps {s0 : State} (s : State) (hK : Keeps s0 s) : Keeps s0 (fuseTiles s) := by
  unfold fuseTiles
  repeat' (with_reducible first | assumption | apply objSet_keeps | intro _ | extract_lets | dsimp +zetaDelta only)

theorem execBringupStrapLatch_keeps {s0 : State} (packageKind arrayMode dieId memStrap mac0 mac1 : Nat) (s : State) (hK : Keeps s0 s) :
    ∃ t, execBringupStrapLatch packageKind arrayMode dieId memStrap mac0 mac1 s = .next t ∧ Keeps s0 t := by
  refine ⟨_, rfl, ?_⟩
  split
  · exact hK
  · extract_lets first f b s1 d s2
    have h1 : Keeps s0 s1 := hK.trans ⟨rfl, fun g hg => by show some f = some g; simp [f, hg], id, id⟩
    have h2 : Keeps s0 s2 := by
      show Keeps s0 (if _ then _ else _)
      split
      · exact Keeps.put h1
      · exact h1
    exact objSet_keeps _ _ _ _ (objSet_keeps _ _ _ _ (fuseTiles_keeps _ h2))

theorem execBringupDomainPower_keeps {s0 : State} (s : State) (hK : Keeps s0 s) :
    ∃ t, execBringupDomainPower s = .next t ∧ Keeps s0 t := by
  refine ⟨_, rfl, ?_⟩
  split
  · exact hK
  · exact Keeps.putMem hK (hm := fun w => ⟨w.1, rfl, rfl, w.2.2.2.1, rfl, rfl⟩)

theorem execBringupCcxSelftestDone_keeps {s0 : State} (passed : Bool) (memOk : Nat) (s : State)
    (hK : Keeps s0 s) : ∃ t, execBringupCcxSelftestDone passed memOk s = .next t ∧ Keeps s0 t := by
  refine ⟨_, rfl, ?_⟩
  repeat' (with_reducible first | assumption | split | refine Keeps.put ?_)

theorem unitFailed_keeps {s0 : State} (s : State) (k : UnitKind) (code u : Nat) (hK : Keeps s0 s) : Keeps s0 (unitFailed s k code u) := by
  unfold unitFailed
  repeat' (with_reducible first
      | assumption | apply setRetired_keeps | apply setEnable_keeps | apply raiseErr_keeps | intro _ | extract_lets | split
      | dsimp +zetaDelta only | refine Keeps.put ?_)

theorem execBringupUnitSelftestDone_keeps {s0 : State} (txa sdx rsv mdc tok : List Nat) (s : State)
    (hK : Keeps s0 s) : ∃ t, execBringupUnitSelftestDone txa sdx rsv mdc tok s = .next t ∧ Keeps s0 t := by
  refine ⟨_, rfl, ?_⟩
  repeat' (with_reducible first
      | assumption | apply unitFailed_keeps | apply Keeps.foldl | apply Keeps.foldlFst | apply Keeps.foldlSnd | intro _ | extract_lets
      | split | dsimp +zetaDelta only | refine Keeps.put ?_)

theorem setQuiesce_keeps {s0 : State} (s : State) (p v : Nat) (hK : Keeps s0 s) : Keeps s0 (setQuiesce s p v) := by
  unfold setQuiesce
  repeat' (with_reducible first
      | assumption | apply quiesceCheck_keeps | apply modPort_keeps | apply objSet_keeps | intro _ | extract_lets | split
      | dsimp +zetaDelta only | refine Keeps.put ?_)

theorem sagBegin_keeps {s0 : State} (s : State) (hK : Keeps s0 s) : Keeps s0 (sagBegin s) := by
  unfold sagBegin
  repeat' (with_reducible first
      | assumption | apply setQuiesce_keeps | apply raiseErr_keeps | intro _ | extract_lets | dsimp +zetaDelta only
      | refine Keeps.put ?_)

theorem announceSelf_keeps {s0 : State} (s : State) (hK : Keeps s0 s) : Keeps s0 (announceSelf s) := by
  unfold announceSelf
  repeat' (with_reducible first
      | assumption | apply fedSend_keeps | intro _ | extract_lets | split | dsimp +zetaDelta only | refine Keeps.put ?_)

theorem lateFailures_keeps {s0 : State} (s : State) (hK : Keeps s0 s) : Keeps s0 (lateFailures s) := by
  unfold lateFailures
  repeat' (with_reducible first
      | assumption | apply raiseErr_keeps | apply Keeps.foldl | apply Keeps.foldlFst | apply Keeps.foldlSnd | intro _
      | refine Keeps.put ?_)

theorem trainPorts_keeps {s0 : State} (s : State) (hK : Keeps s0 s) : Keeps s0 (trainPorts s) := by
  unfold trainPorts
  repeat' (with_reducible first
      | assumption | apply startTraining_keeps | apply netPower_keeps | apply Keeps.foldl | apply Keeps.foldlFst | apply Keeps.foldlSnd
      | intro _ | split)

theorem closeHeadCount_keeps {s0 : State} (s : State) (lead admitted version hcState aclk : Nat) (hK : Keeps s0 s) : Keeps s0
    (closeHeadCount s lead admitted version hcState aclk) := by
  unfold closeHeadCount
  repeat' (with_reducible first
      | assumption | apply trainPorts_keeps | apply lateFailures_keeps | apply sagBegin_keeps | apply engineReady_keeps
      | apply fire_keeps | apply objSet_keeps | apply Keeps.foldl | apply Keeps.foldlFst | apply Keeps.foldlSnd | intro _
      | extract_lets | split | dsimp +zetaDelta only | refine Keeps.put ?_)

theorem dropRemotes_keeps {s0 : State} (s : State) (d id : Nat) (hK : Keeps s0 s) : Keeps s0 (dropRemotes s d id) := by
  unfold dropRemotes
  repeat' (with_reducible first
      | assumption | apply advanceDlv_keeps | apply dlvError_keeps | apply modDlv_keeps | apply Keeps.foldl | apply Keeps.foldlFst
      | apply Keeps.foldlSnd | refine Keeps.fst ‹_› ?_ | refine Keeps.snd ‹_› ?_ | intro _ | extract_lets | split
      | dsimp +zetaDelta only | refine Keeps.put ?_)

theorem closeAnnounced_keeps {s0 : State} (s : State) (d : Nat) (hK : Keeps s0 s) : Keeps s0 (closeAnnounced s d) := by
  unfold closeAnnounced
  repeat' (with_reducible first
      | assumption | apply advanceDlv_keeps | apply modDlv_keeps | apply Keeps.foldl | apply Keeps.foldlFst | apply Keeps.foldlSnd
      | refine Keeps.fst ‹_› ?_ | refine Keeps.snd ‹_› ?_ | intro _ | extract_lets | split | dsimp +zetaDelta only
      | refine Keeps.put ?_)

theorem dieLost_keeps {s0 : State} (s : State) (d : Nat) (hK : Keeps s0 s) : Keeps s0 (dieLost s d) := by
  unfold dieLost
  repeat' (with_reducible first
      | assumption | apply closeAnnounced_keeps | apply dropRemotes_keeps | apply slotFault_keeps | apply raiseErr_keeps
      | apply Keeps.foldl | apply Keeps.foldlFst | apply Keeps.foldlSnd | intro _ | extract_lets | dsimp +zetaDelta only
      | refine Keeps.put ?_)

theorem changeRoster_keeps {s0 : State} (s : State) (lead admitted version : Nat) (hK : Keeps s0 s) : Keeps s0
    (changeRoster s lead admitted version) := by
  unfold changeRoster
  repeat' (with_reducible first
      | assumption | apply dieLost_keeps | apply sendArrive_keeps | apply leadRelease_keeps | apply Keeps.foldl | apply Keeps.foldlFst
      | apply Keeps.foldlSnd | intro _ | extract_lets | split | dsimp +zetaDelta only | refine Keeps.put ?_)

theorem becomeLead_keeps {s0 : State} (s : State) (aclk : Nat) (hK : Keeps s0 s) : Keeps s0 (becomeLead s aclk) := by
  unfold becomeLead
  repeat' (with_reducible first
      | assumption | apply changeRoster_keeps | apply closeHeadCount_keeps | apply fedSend_keeps | intro _ | extract_lets | split
      | dsimp +zetaDelta only)

theorem closeCheck_keeps {s0 : State} (s : State) (aclk : Nat) (hK : Keeps s0 s) : Keeps s0 (closeCheck s aclk) := by
  unfold closeCheck
  repeat' (with_reducible first | assumption | apply becomeLead_keeps | intro _ | split)

theorem registerWith_keeps {s0 : State} (s : State) (d : Nat) (hK : Keeps s0 s) : Keeps s0 (registerWith s d) := by
  unfold registerWith
  repeat' (with_reducible first
      | assumption | apply fedSend_keeps | apply Keeps.foldl | apply Keeps.foldlFst | apply Keeps.foldlSnd | intro _ | extract_lets
      | split | dsimp +zetaDelta only | refine Keeps.put ?_)

theorem registerNow_keeps {s0 : State} (s : State) (aclk : Nat) (hK : Keeps s0 s) : Keeps s0 (registerNow s aclk) := by
  unfold registerNow
  repeat' (with_reducible first
      | assumption | apply registerWith_keeps | apply closeCheck_keeps | refine Keeps.fst ‹_› ?_ | refine Keeps.snd ‹_› ?_ | intro _
      | split | refine Keeps.put ?_)

theorem execD2dLinkTrainingDone_keeps {s0 : State} (links aclk : Nat) (s : State)
    (hK : Keeps s0 s) : ∃ t, execD2dLinkTrainingDone links aclk s = .next t ∧ Keeps s0 t := by
  refine ⟨_, rfl, ?_⟩
  repeat' (with_reducible first
      | assumption | apply registerNow_keeps | apply announceSelf_keeps | intro _ | extract_lets | split | dsimp +zetaDelta only
      | refine Keeps.put ?_)

theorem execAnnounce_keeps {s0 : State} (msg : FedArrival) (aclk : Nat) (s : State)
    (hK : Keeps s0 s) : ∃ t, execAnnounce msg aclk s = .next t ∧ Keeps s0 t := by
  refine ⟨_, rfl, ?_⟩
  repeat' (with_reducible first
      | assumption | apply registerNow_keeps | apply registerWith_keeps | apply closeCheck_keeps | apply fedTake_keeps | intro _
      | extract_lets | split | dsimp +zetaDelta only | refine Keeps.put ?_)

theorem execRegister_keeps {s0 : State} (msg : FedArrival) (aclk : Nat) (s : State)
    (hK : Keeps s0 s) : ∃ t, execRegister msg aclk s = .next t ∧ Keeps s0 t := by
  refine ⟨_, rfl, ?_⟩
  repeat' (with_reducible first
      | assumption | apply closeCheck_keeps | apply fedTake_keeps | apply fedSend_keeps | refine Keeps.fst ‹_› ?_
      | refine Keeps.snd ‹_› ?_ | intro _ | extract_lets | split | dsimp +zetaDelta only | refine Keeps.put ?_)

theorem execRedirect_keeps {s0 : State} (msg : FedArrival) (s : State)
    (hK : Keeps s0 s) : ∃ t, execRedirect msg s = .next t ∧ Keeps s0 t := by
  refine ⟨_, rfl, ?_⟩
  repeat' (with_reducible first
      | assumption | apply registerWith_keeps | apply fedTake_keeps | intro _ | extract_lets | split | dsimp +zetaDelta only)

theorem exclude_keeps {s0 : State} (s : State) (hK : Keeps s0 s) : Keeps s0 (exclude s) := by
  unfold exclude
  repeat' (with_reducible first
      | assumption | apply portDown_keeps | apply netPower_keeps | apply Keeps.foldl | apply Keeps.foldlFst | apply Keeps.foldlSnd
      | intro _ | extract_lets | dsimp +zetaDelta only | refine Keeps.put ?_)

theorem execRoster_keeps {s0 : State} (msg : FedArrival) (aclk : Nat) (s : State)
    (hK : Keeps s0 s) : ∃ t, execRoster msg aclk s = .next t ∧ Keeps s0 t := by
  refine ⟨_, rfl, ?_⟩
  repeat' (with_reducible first
      | assumption | apply exclude_keeps | apply changeRoster_keeps | apply closeHeadCount_keeps | apply fedTake_keeps | intro _
      | extract_lets | split | dsimp +zetaDelta only)

theorem execAnnounceDeadline_keeps {s0 : State} (aclk : Nat) (s : State)
    (hK : Keeps s0 s) : ∃ t, execAnnounceDeadline aclk s = .next t ∧ Keeps s0 t := by
  refine ⟨_, rfl, ?_⟩
  repeat' (with_reducible first | assumption | apply registerNow_keeps | intro _ | split)

theorem execCloseDeadline_keeps {s0 : State} (aclk : Nat) (s : State)
    (hK : Keeps s0 s) : ∃ t, execCloseDeadline aclk s = .next t ∧ Keeps s0 t := by
  refine ⟨_, rfl, ?_⟩
  repeat' (with_reducible first | assumption | apply becomeLead_keeps | intro _ | split)

theorem execExclusionDeadline_keeps {s0 : State} (s : State) (hK : Keeps s0 s) : ∃ t, execExclusionDeadline s = .next t ∧ Keeps s0 t := by
  refine ⟨_, rfl, ?_⟩
  repeat' (with_reducible first | assumption | apply exclude_keeps | intro _ | split)

theorem execBeat_keeps {s0 : State} (msg : FedArrival) (s : State) (hK : Keeps s0 s) : ∃ t, execBeat msg s = .next t ∧ Keeps s0 t := by
  refine ⟨_, rfl, ?_⟩
  repeat' (with_reducible first | assumption | apply fedTake_keeps | apply fedSend_keeps | intro _ | split)

theorem execBeatSend_keeps {s0 : State} (s : State) (hK : Keeps s0 s) : ∃ t, execBeatSend s = .next t ∧ Keeps s0 t := by
  refine ⟨_, rfl, ?_⟩
  repeat' (with_reducible first | assumption | apply fedSend_keeps | intro _ | split)

theorem elect_keeps {s0 : State} (s : State) (hK : Keeps s0 s) : Keeps s0 (elect s) := by
  unfold elect
  repeat' (with_reducible first
      | assumption | apply registerNow_keeps | apply announceSelf_keeps | intro _ | extract_lets | split | dsimp +zetaDelta only
      | refine Keeps.put ?_)

theorem execFedLeaveTimeout_keeps {s0 : State} (die : Nat) (s : State)
    (hK : Keeps s0 s) : ∃ t, execFedLeaveTimeout die s = .next t ∧ Keeps s0 t := by
  refine ⟨_, rfl, ?_⟩
  repeat' (with_reducible first
      | assumption | apply elect_keeps | apply changeRoster_keeps | apply fedSend_keeps | intro _ | extract_lets | split
      | dsimp +zetaDelta only)

theorem execD2dLinkLoss_keeps {s0 : State} (link : Nat) (s : State)
    (hK : Keeps s0 s) : ∃ t, execD2dLinkLoss link s = .next t ∧ Keeps s0 t := by
  refine ⟨_, rfl, ?_⟩
  repeat' (with_reducible first
      | assumption | apply exclude_keeps | intro _ | extract_lets | split | dsimp +zetaDelta only | refine Keeps.put ?_)

/-! ## Removal -/

theorem dumpCounters_keeps {s0 : State} (s : State) (hK : Keeps s0 s) : Keeps s0 (dumpCounters s) := by
  unfold dumpCounters
  repeat' (with_reducible first | assumption | apply memWrite_keeps | intro _ | extract_lets | split | dsimp +zetaDelta only)

theorem execCounterDump_keeps {s0 : State} (s : State) (hK : Keeps s0 s) : ∃ t, execCounterDump s = .next t ∧ Keeps s0 t := by
  refine ⟨_, rfl, ?_⟩
  repeat' (with_reducible first | assumption | apply dumpCounters_keeps | intro _ | split)

theorem execBusSag_keeps {s0 : State} (s : State) (hK : Keeps s0 s) : ∃ t, execBusSag s = .next t ∧ Keeps s0 t := by
  refine ⟨_, rfl, ?_⟩
  repeat' (with_reducible first
      | assumption | apply sagBegin_keeps | intro _ | extract_lets | split | dsimp +zetaDelta only | refine Keeps.put ?_)

theorem execBusSagEnd_keeps {s0 : State} (s : State) (hK : Keeps s0 s) : ∃ t, execBusSagEnd s = .next t ∧ Keeps s0 t := by
  refine ⟨_, rfl, ?_⟩
  repeat' (with_reducible first | assumption | refine Keeps.put ?_)

theorem sagResumeEffect_keeps {s0 : State} (x0 : Via) (x1 : Nat) (x2 : Nat) (x3 : List Byte) (s : State) (hK : Keeps s0 s) : Keeps s0
    (sagResumeEffect x0 x1 x2 x3 s) := by
  unfold sagResumeEffect
  repeat' (with_reducible first
      | assumption | apply setQuiesce_keeps | apply startTraining_keeps | apply packageEffect_keeps | apply packageDone_keeps
      | apply dictAbort_keeps | apply Keeps.foldl | apply Keeps.foldlFst | apply Keeps.foldlSnd | intro _ | extract_lets | split
      | dsimp +zetaDelta only | refine Keeps.put ?_)

theorem execSagResume_keeps {s0 : State} (via : Via) (value : Nat) (s : State)
    (hK : Keeps s0 s) : ∃ t, execSagResume via value s = .next t ∧ Keeps s0 t := by
  refine ⟨_, rfl, ?_⟩
  repeat' (with_reducible first | assumption | apply sagResumeEffect_keeps | apply requestWrite_keeps | intro _)

theorem startSave_keeps {s0 : State} (s : State) (n : Nat) (removal : Bool) (hK : Keeps s0 s) : Keeps s0 (startSave s n removal) := by
  unfold startSave
  repeat' (with_reducible first
      | assumption | apply batStop_keeps | apply setPair_keeps | apply modSlot_keeps | apply Keeps.foldl | apply Keeps.foldlFst
      | apply Keeps.foldlSnd | refine Keeps.fst ‹_› ?_ | refine Keeps.snd ‹_› ?_ | intro _ | extract_lets | split
      | dsimp +zetaDelta only | refine Keeps.put ?_)

theorem rucksackSaveEffect_keeps {s0 : State} (e : Elsewhere) (x0 : Via) (x1 : Nat) (x2 : Nat) (x3 : List Byte) (s : State)
    (hK : Keeps s0 s) : Keeps s0 (rucksackSaveEffect e x0 x1 x2 x3 s) := by
  unfold rucksackSaveEffect
  repeat' (with_reducible first
      | assumption | apply startSave_keeps | apply packageEffect_keeps | apply packageDone_keeps | apply dictAbort_keeps | intro _
      | extract_lets | split | dsimp +zetaDelta only)

theorem execRucksackSave_keeps {s0 : State} (via : Via) (slot : Nat) (elsewhere : Elsewhere) (s : State)
    (hK : Keeps s0 s) : ∃ t, execRucksackSave via slot elsewhere s = .next t ∧ Keeps s0 t := by
  refine ⟨_, rfl, ?_⟩
  repeat' (with_reducible first | assumption | apply rucksackSaveEffect_keeps | apply requestWrite_keeps | intro _)

theorem dropUnits_keeps {s0 : State} (s : State) (n : Nat) (hK : Keeps s0 s) : Keeps s0 (dropUnits s n) := by
  unfold dropUnits
  repeat' (with_reducible first
      | assumption | apply abandonTile_keeps | apply rsvServe_keeps | apply giveUnits_keeps | apply freeLane_keeps
      | apply unitDone_keeps | apply Keeps.foldl | apply Keeps.foldlFst | apply Keeps.foldlSnd | refine Keeps.fst ‹_› ?_
      | refine Keeps.snd ‹_› ?_ | intro _ | extract_lets | split | dsimp +zetaDelta only | refine Keeps.put ?_)

theorem dropDeliveries_keeps {s0 : State} (s : State) (n : Nat) (hK : Keeps s0 s) : Keeps s0 (dropDeliveries s n) := by
  unfold dropDeliveries
  repeat' (with_reducible first
      | assumption | apply lineLeaves_keeps | apply sliverUse_keeps | apply giveUnits_keeps | apply Keeps.foldl | apply Keeps.foldlFst
      | apply Keeps.foldlSnd | intro _ | extract_lets | dsimp +zetaDelta only | refine Keeps.put ?_)

theorem dropLandings_keeps {s0 : State} (s : State) (n : Nat) (hK : Keeps s0 s) : Keeps s0 (dropLandings s n) := by
  unfold dropLandings
  repeat' (with_reducible first
      | assumption | apply cutMessages_keeps | apply withdrawOpen_keeps | apply Keeps.foldl | apply Keeps.foldlFst
      | apply Keeps.foldlSnd | intro _ | extract_lets | dsimp +zetaDelta only | refine Keeps.put ?_)

theorem abandonSlot_keeps {s0 : State} (s : State) (n : Nat) (hK : Keeps s0 s) : Keeps s0 (abandonSlot s n) := by
  unfold abandonSlot
  repeat' (with_reducible first
      | assumption | apply dropLandings_keeps | apply dropDeliveries_keeps | apply dropUnits_keeps | apply withdrawWaits_keeps
      | apply abandonStages_keeps | apply freeBuffers_keeps | intro _ | extract_lets | dsimp +zetaDelta only | refine Keeps.put ?_)

theorem drainSave_keeps {s0 : State} (s : State) (n : Nat) (hK : Keeps s0 s) : Keeps s0 (drainSave s n) := by
  unfold drainSave
  repeat' (with_reducible first
      | assumption | apply abandonSlot_keeps | apply modSlot_keeps | refine Keeps.fst ‹_› ?_ | refine Keeps.snd ‹_› ?_ | intro _
      | extract_lets | split | dsimp +zetaDelta only | refine Keeps.put ?_)

theorem execSaveDrainDeadline_keeps {s0 : State} (slot : Nat) (s : State)
    (hK : Keeps s0 s) : ∃ t, execSaveDrainDeadline slot s = .next t ∧ Keeps s0 t := by
  refine ⟨_, rfl, ?_⟩
  repeat' (with_reducible first | assumption | apply drainSave_keeps | intro _)

theorem prepareRemovalEffect_keeps {s0 : State} (x0 : Via) (x1 : Nat) (x2 : Nat) (x3 : List Byte) (s : State)
    (hK : Keeps s0 s) : Keeps s0 (prepareRemovalEffect x0 x1 x2 x3 s) := by
  unfold prepareRemovalEffect
  repeat' (with_reducible first
      | assumption | apply startSave_keeps | apply setQuiesce_keeps | apply packageEffect_keeps | apply startLong_keeps
      | apply packageDone_keeps | apply bump_keeps | apply Keeps.foldl | apply Keeps.foldlFst | apply Keeps.foldlSnd | intro _
      | extract_lets | split | dsimp +zetaDelta only | refine Keeps.put ?_)

theorem execPrepareRemoval_keeps {s0 : State} (via : Via) (value : Nat) (s : State)
    (hK : Keeps s0 s) : ∃ t, execPrepareRemoval via value s = .next t ∧ Keeps s0 t := by
  refine ⟨_, rfl, ?_⟩
  repeat' (with_reducible first | assumption | apply prepareRemovalEffect_keeps | apply requestWrite_keeps | intro _)

theorem execDrainDeadline_keeps {s0 : State} (s : State) (hK : Keeps s0 s) : ∃ t, execDrainDeadline s = .next t ∧ Keeps s0 t := by
  refine ⟨_, rfl, ?_⟩
  repeat' (with_reducible first
      | assumption | apply drainSave_keeps | apply abandonSlot_keeps | apply settlePorts_keeps | apply cutMessages_keeps
      | apply Keeps.foldl | apply Keeps.foldlFst | apply Keeps.foldlSnd | intro _ | extract_lets | split | dsimp +zetaDelta only
      | refine Keeps.put ?_)

/-! ## Rucksack -/

theorem endSave_keeps {s0 : State} (s : State) (n code : Nat) (hK : Keeps s0 s) : Keeps s0 (endSave s n code) := by
  unfold endSave
  repeat' (with_reducible first
      | assumption | apply closeContexts_keeps | apply endJob_keeps | apply modSlot_keeps | intro _ | refine Keeps.put ?_)

theorem writeRucksack_keeps {s0 : State} (s : State) (n : Nat) (landing contexts : List Byte) (inTime memOk : Bool)
    (hK : Keeps s0 s) : Keeps s0 (writeRucksack s n landing contexts inTime memOk) := by
  unfold writeRucksack
  repeat' (with_reducible first
      | assumption | apply endSave_keeps | apply raiseErr_keeps | apply reserveFree_keeps | apply memWrite_keeps
      | refine Keeps.fst ‹_› ?_ | refine Keeps.snd ‹_› ?_ | intro _ | extract_lets | split | dsimp +zetaDelta only)

theorem execRucksackWrite_keeps {s0 : State} (slot : Nat) (landing contexts : List Byte) (inTime memOk : Bool) (s : State)
    (hK : Keeps s0 s) : ∃ t, execRucksackWrite slot landing contexts inTime memOk s = .next t ∧ Keeps s0 t := by
  refine ⟨_, rfl, ?_⟩
  repeat' (with_reducible first | assumption | apply writeRucksack_keeps | intro _ | split)

theorem execRemovalRucksackDeadline_keeps {s0 : State} (s : State)
    (hK : Keeps s0 s) : ∃ t, execRemovalRucksackDeadline s = .next t ∧ Keeps s0 t := by
  refine ⟨_, rfl, ?_⟩
  repeat' (with_reducible first
      | assumption | apply writeRucksack_keeps | apply dumpCounters_keeps | apply Keeps.foldl | apply Keeps.foldlFst
      | apply Keeps.foldlSnd | intro _ | split)

theorem execRemovalReady_keeps {s0 : State} (s : State) (hK : Keeps s0 s) : ∃ t, execRemovalReady s = .next t ∧ Keeps s0 t := by
  refine ⟨_, rfl, ?_⟩
  repeat' (with_reducible first
      | assumption | apply portDown_keeps | apply modPort_keeps | apply localFinish_keeps | apply fire_keeps | apply Keeps.foldl
      | apply Keeps.foldlFst | apply Keeps.foldlSnd | intro _ | extract_lets | split | dsimp +zetaDelta only | refine Keeps.put ?_)

theorem setUpRestored_keeps {s0 : State} (s : State) (n : Nat) (job : Admission) (secs : List (Nat × List Byte))
    (hK : Keeps s0 s) : Keeps s0 (setUpRestored s n job secs) := by
  unfold setUpRestored
  repeat' (with_reducible first
      | assumption | apply setUpJob_keeps | apply modSlot_keeps | intro _ | extract_lets | dsimp +zetaDelta only | refine Keeps.put ?_)

theorem rucksackRestoreEffect_keeps {s0 : State} (e : Elsewhere) (x0 : Via) (x1 : Nat) (x2 : Nat) (x3 : List Byte) (s : State)
    (hK : Keeps s0 s) : Keeps s0 (rucksackRestoreEffect e x0 x1 x2 x3 s) := by
  unfold rucksackRestoreEffect
  repeat' (with_reducible first
      | assumption | apply setUpRestored_keeps | apply raiseRefusal_keeps | apply packageEffect_keeps | apply packageDone_keeps
      | apply dictAbort_keeps | apply readChecked_keeps | apply raiseErr_keeps | apply bump_keeps | apply objSet_keeps
      | refine Keeps.fst ‹_› ?_ | refine Keeps.snd ‹_› ?_ | intro _ | extract_lets | split | dsimp +zetaDelta only
      | refine Keeps.put ?_)

theorem execRucksackRestore_keeps {s0 : State} (via : Via) (addr : Nat) (elsewhere : Elsewhere) (s : State)
    (hK : Keeps s0 s) : ∃ t, execRucksackRestore via addr elsewhere s = .next t ∧ Keeps s0 t := by
  refine ⟨_, rfl, ?_⟩
  repeat' (with_reducible first | assumption | apply rucksackRestoreEffect_keeps | apply requestWrite_keeps | intro _)

/-! ## Ras -/

theorem storageReport_keeps {s0 : State} (s : State) (r : StorageReport) (hK : Keeps s0 s) : Keeps s0 (storageReport s r) := by
  unfold storageReport
  exact Keeps.foldl _ _ (fun s _ h => raiseErr_keeps s _ _ h) (Keeps.putMem hK (hm := fun w => w))

theorem execScrubVisit_keeps {s0 : State} (corrected : Bool) (report : StorageReport) (s : State)
    (hK : Keeps s0 s) : ∃ t, execScrubVisit corrected report s = .next t ∧ Keeps s0 t := by
  refine ⟨_, rfl, ?_⟩
  repeat' (with_reducible first
      | assumption | apply storageReport_keeps | apply bump_keeps | intro _ | extract_lets | split | dsimp +zetaDelta only)

theorem retireTile_keeps {s0 : State} (s : State) (t : Nat) (hK : Keeps s0 s) : Keeps s0 (retireTile s t) := by
  unfold retireTile
  repeat' (with_reducible first
      | assumption | apply retireUnit_keeps | apply raiseErr_keeps | intro _ | extract_lets | dsimp +zetaDelta only
      | refine Keeps.put ?_)

theorem retireStaging_keeps {s0 : State} (s : State) (u : Nat) (hK : Keeps s0 s) : Keeps s0 (retireStaging s u) := by
  unfold retireStaging
  repeat' (with_reducible first
      | assumption | apply slotFault_keeps | apply raiseErr_keeps | apply objSet_keeps | apply Keeps.foldl | apply Keeps.foldlFst
      | apply Keeps.foldlSnd | intro _ | extract_lets | dsimp +zetaDelta only)

theorem execBankUeLimit_keeps {s0 : State} (txa : Bool) (number : Nat) (s : State)
    (hK : Keeps s0 s) : ∃ t, execBankUeLimit txa number s = .next t ∧ Keeps s0 t := by
  refine ⟨_, rfl, ?_⟩
  repeat' (with_reducible first | assumption | apply retireStaging_keeps | apply retireTile_keeps | intro _ | split)

/-! ## ObjRead -/

theorem objValue_keeps {s0 : State} (s : State) (index sub : Nat) (hK : Keeps s0 s) : Keeps s0 (objValue s index sub).2 := by
  unfold objValue
  repeat' (with_reducible first
      | assumption | apply reserveFree_keeps | refine Keeps.fst ‹_› ?_ | refine Keeps.snd ‹_› ?_ | intro _ | extract_lets | split
      | dsimp +zetaDelta only | refine Keeps.put ?_)

/-! ## Dictionary -/

theorem storeBits_keeps {s0 : State} (n : Nat) (after : WriteEffect) (x0 : Via) (x1 : Nat) (x2 : Nat) (x3 : List Byte) (s : State)
    (he : ∀ v i j d s, Keeps s0 s → Keeps s0 (after v i j d s)) (hK : Keeps s0 s) : Keeps s0 (storeBits n after x0 x1 x2 x3 s) := by
  unfold storeBits
  repeat' (with_reducible first | assumption | apply he | intro _)

theorem keyDirEffect_keeps {s0 : State} (x0 : Via) (x1 : Nat) (x2 : Nat) (x3 : List Byte) (s : State) (hK : Keeps s0 s) : Keeps s0
    (keyDirEffect x0 x1 x2 x3 s) := by
  unfold keyDirEffect
  repeat' (with_reducible first
      | assumption | apply claimEffect_keeps | apply storeEffect_keeps | intro _ | extract_lets | split | dsimp +zetaDelta only)

theorem ctxBaseEffect_keeps {s0 : State} (x0 : Via) (x1 : Nat) (x2 : Nat) (x3 : List Byte) (s : State) (hK : Keeps s0 s) : Keeps s0
    (ctxBaseEffect x0 x1 x2 x3 s) := by
  unfold ctxBaseEffect
  repeat' (with_reducible first | assumption | apply claimEffect_keeps | apply storeEffect_keeps | intro _ | split)

theorem cqEffect_keeps {s0 : State} (x0 : Via) (x1 : Nat) (x2 : Nat) (x3 : List Byte) (s : State) (hK : Keeps s0 s) : Keeps s0
    (cqEffect x0 x1 x2 x3 s) := by
  unfold cqEffect
  repeat' (with_reducible first
      | assumption | apply claimEffect_keeps | apply storeEffect_keeps | intro _ | extract_lets | split | dsimp +zetaDelta only)

theorem fedSettingEffect_keeps {s0 : State} (x0 : Via) (x1 : Nat) (x2 : Nat) (x3 : List Byte) (s : State) (hK : Keeps s0 s) : Keeps s0
    (fedSettingEffect x0 x1 x2 x3 s) := by
  unfold fedSettingEffect
  repeat' (with_reducible first | assumption | apply dictDone_keeps | intro _ | split | refine Keeps.put ?_)

theorem fedEffect_keeps {s0 : State} (index sub : Nat) (x0 : Via) (x1 : Nat) (x2 : Nat) (x3 : List Byte) (s : State)
    (hK : Keeps s0 s) : Keeps s0 (fedEffect index sub x0 x1 x2 x3 s) := by
  unfold fedEffect
  repeat' (with_reducible first
      | assumption | apply fedSettingEffect_keeps | apply storeBits_keeps | apply rucksackRestoreEffect_keeps
      | apply prepareRemovalEffect_keeps | apply rucksackSaveEffect_keeps | apply sagResumeEffect_keeps
      | apply storePackageEffect_keeps | apply storeEffect_keeps | refine Keeps.fst ‹_› ?_ | refine Keeps.snd ‹_› ?_ | intro _ | split)

theorem netEffect_keeps {s0 : State} (index sub : Nat) (x0 : Via) (x1 : Nat) (x2 : Nat) (x3 : List Byte) (s : State)
    (hK : Keeps s0 s) : Keeps s0 (netEffect index sub x0 x1 x2 x3 s) := by
  unfold netEffect
  repeat' (with_reducible first
      | assumption | apply storeBits_keeps | apply lrDisableEffect_keeps | apply lrEnableEffect_keeps | apply qpDisableEffect_keeps
      | apply qpEnableEffect_keeps | apply quiesceEffect_keeps | apply laneEnableEffect_keeps | apply portEnableEffect_keeps
      | apply storeEffect_keeps | refine Keeps.fst ‹_› ?_ | refine Keeps.snd ‹_› ?_ | intro _ | split)

theorem unitEffect_keeps {s0 : State} (index sub : Nat) (x0 : Via) (x1 : Nat) (x2 : Nat) (x3 : List Byte) (s : State)
    (hK : Keeps s0 s) : Keeps s0 (unitEffect index sub x0 x1 x2 x3 s) := by
  unfold unitEffect
  repeat' (with_reducible first
      | assumption | apply ctxBaseEffect_keeps | apply keyDirEffect_keeps | apply tokLoadEffect_keeps | apply stragglerEffect_keeps
      | apply encRootEffect_keeps | apply primeImageEffect_keeps | apply enableEffect_keeps | apply storeEffect_keeps
      | refine Keeps.fst ‹_› ?_ | refine Keeps.snd ‹_› ?_ | intro _ | split)

theorem seqEffect_keeps {s0 : State} (index sub : Nat) (x0 : Via) (x1 : Nat) (x2 : Nat) (x3 : List Byte) (s : State)
    (hK : Keeps s0 s) : Keeps s0 (seqEffect index sub x0 x1 x2 x3 s) := by
  unfold seqEffect
  repeat' (with_reducible first
      | assumption | apply cqEffect_keeps | apply semDepthEffect_keeps | apply progArmEffect_keeps | apply progBankEffect_keeps
      | apply rootStartEffect_keeps | apply storeEffect_keeps | refine Keeps.fst ‹_› ?_ | refine Keeps.snd ‹_› ?_ | intro _ | split)

theorem evtEffect_keeps {s0 : State} (index sub : Nat) (x0 : Via) (x1 : Nat) (x2 : Nat) (x3 : List Byte) (s : State)
    (hK : Keeps s0 s) : Keeps s0 (evtEffect index sub x0 x1 x2 x3 s) := by
  unfold evtEffect
  repeat' (with_reducible first
      | assumption | apply grpTimeEffect_keeps | apply evtCfgEffect_keeps | apply swRaiseEffect_keeps | apply latchClearEffect_keeps
      | apply pendClearEffect_keeps | apply pendSetEffect_keeps | apply evtDoneEffect_keeps | apply evtTakeEffect_keeps
      | apply storePackageEffect_keeps | apply storeEffect_keeps | refine Keeps.fst ‹_› ?_ | refine Keeps.snd ‹_› ?_ | intro _ | split)

theorem lowEffect_keeps {s0 : State} (x0 : Via) (x1 : Nat) (x2 : Nat) (x3 : List Byte) (s : State) (hK : Keeps s0 s) : Keeps s0
    (lowEffect x0 x1 x2 x3 s) := by
  unfold lowEffect
  repeat' (with_reducible first
      | assumption | apply unitEffect_keeps | apply netEffect_keeps | apply fedEffect_keeps | apply watchdogEffect_keeps
      | apply epinEffect_keeps | apply dictDone_keeps | intro _ | split)

theorem highEffect_keeps {s0 : State} (x0 : Via) (x1 : Nat) (x2 : Nat) (x3 : List Byte) (s : State) (hK : Keeps s0 s) : Keeps s0
    (highEffect x0 x1 x2 x3 s) := by
  unfold highEffect
  repeat' (with_reducible first
      | assumption | apply evtEffect_keeps | apply seqEffect_keeps | apply unitEffect_keeps | apply traceMarkEffect_keeps
      | apply traceEnableEffect_keeps | apply poolDisableEffect_keeps | apply poolEnableEffect_keeps | intro _ | split)

theorem dictEffect_keeps {s0 : State} (x0 : Via) (x1 : Nat) (x2 : Nat) (x3 : List Byte) (s : State) (hK : Keeps s0 s) : Keeps s0
    (dictEffect x0 x1 x2 x3 s) := by
  unfold dictEffect
  repeat' (with_reducible first | assumption | apply highEffect_keeps | apply lowEffect_keeps | intro _ | split)

theorem execDictWrite_keeps {s0 : State} (via : Via) (index sub : Nat) (data : List Byte) (s : State)
    (hK : Keeps s0 s) : ∃ t, execDictWrite via index sub data s = .next t ∧ Keeps s0 t := by
  refine ⟨_, rfl, ?_⟩
  repeat' (with_reducible first
      | assumption | apply dictEffect_keeps | apply requestWrite_keeps | apply dictWriteWith_keeps | intro _ | split)

theorem forwardedWrite_keeps {s0 : State} (s : State) (index sub : Nat) (data : List Byte) (hK : Keeps s0 s) : Keeps s0
    (forwardedWrite s index sub data) := by
  unfold forwardedWrite
  repeat' (with_reducible first
      | assumption | apply dictEffect_keeps | apply primeFirstByte_keeps | apply dictWriteWith_keeps | intro _ | split)

theorem setPieces_keeps {s0 : State} (s : State) (d : Nat) (x : Pieces) (hK : Keeps s0 s) : Keeps s0 (setPieces s d x) := by
  unfold setPieces
  repeat' (with_reducible first | assumption | refine Keeps.put ?_)

theorem takePieces_keeps {s0 : State} (d : Nat) (x0 : Nat) (s : State) (hK : Keeps s0 s) : Keeps s0 (takePieces d x0 s) := by
  induction x0 generalizing d s with
  | zero => unfold takePieces; exact hK
  | succ k ih =>
    unfold takePieces
    repeat' (with_reducible first
        | assumption | apply ih | apply setPieces_keeps | apply forwardedWrite_keeps | refine Keeps.fst ‹_› ?_
        | refine Keeps.snd ‹_› ?_ | intro _ | extract_lets | split | dsimp +zetaDelta only | refine Keeps.put ?_)

theorem execFedForward_keeps {s0 : State} (msg : FedArrival) (s : State)
    (hK : Keeps s0 s) : ∃ t, execFedForward msg s = .next t ∧ Keeps s0 t := by
  refine ⟨_, rfl, ?_⟩
  repeat' (with_reducible first
      | assumption | apply takePieces_keeps | apply setPieces_keeps | apply fedTake_keeps | intro _ | extract_lets | split
      | dsimp +zetaDelta only | refine Keeps.put ?_)

theorem settled_keeps {s0 : State} (s : State) (index abort : Nat) (hK : Keeps s0 s) : Keeps s0 (settled s index abort) := by
  unfold settled
  repeat' (with_reducible first
      | assumption | apply setSet_keeps | apply arm_keeps | apply objSet_keeps | refine Keeps.fst ‹_› ?_ | refine Keeps.snd ‹_› ?_
      | intro _ | extract_lets | split | dsimp +zetaDelta only | refine Keeps.put ?_)

theorem forwardEnded_keeps {s0 : State} (s : State) (index abort : Nat) (hK : Keeps s0 s) : Keeps s0 (forwardEnded s index abort) := by
  unfold forwardEnded
  repeat' (with_reducible first
      | assumption | apply settled_keeps | apply unkeep_keeps | intro _ | extract_lets | split | dsimp +zetaDelta only
      | refine Keeps.put ?_)

theorem execPackageWriteComplete_keeps {s0 : State} (index abort : Nat) (s : State)
    (hK : Keeps s0 s) : ∃ t, execPackageWriteComplete index abort s = .next t ∧ Keeps s0 t := by
  refine ⟨_, rfl, ?_⟩
  repeat' (with_reducible first
      | assumption | apply forwardEnded_keeps | apply settled_keeps | apply endLong_keeps | refine Keeps.fst ‹_› ?_
      | refine Keeps.snd ‹_› ?_ | intro _ | extract_lets | split | dsimp +zetaDelta only | refine Keeps.put ?_)

theorem windowAnswer_keeps {s0 : State} (s : State) (core value : Nat) (err : Bool) (hK : Keeps s0 s) : Keeps s0
    (windowAnswer s core value err) := by
  unfold windowAnswer
  repeat' (with_reducible first | assumption | apply readBack_keeps | intro _ | refine Keeps.put ?_)

theorem aliasReadAbort_keeps {s0 : State} (s : State) (core width code : Nat) (hK : Keeps s0 s) : Keeps s0
    (aliasReadAbort s core width code) := by
  unfold aliasReadAbort
  repeat' (with_reducible first | assumption | apply windowAnswer_keeps | apply dictAbort_keeps | intro _)

theorem aliasReadHere_keeps {s0 : State} (s : State) (core offset width : Nat) (poisoned : Bool) (hK : Keeps s0 s) : Keeps s0
    (aliasReadHere s core offset width poisoned) := by
  unfold aliasReadHere
  repeat' (with_reducible first
      | assumption | apply aliasReadAbort_keeps | apply windowAnswer_keeps | apply objValue_keeps | apply dictDone_keeps
      | refine Keeps.fst ‹_› ?_ | refine Keeps.snd ‹_› ?_ | intro _ | extract_lets | split | dsimp +zetaDelta only)

theorem execAliasRead_keeps {s0 : State} (core offset width : Nat) (poisoned : Bool) (remoteAbort remoteData : Nat) (s : State)
    (hK : Keeps s0 s) : ∃ t, execAliasRead core offset width poisoned remoteAbort remoteData s = .next t ∧ Keeps s0 t := by
  refine ⟨_, rfl, ?_⟩
  repeat' (with_reducible first
      | assumption | apply aliasReadHere_keeps | apply aliasReadAbort_keeps | apply windowAnswer_keeps | apply dictDone_keeps
      | apply send_keeps | refine Keeps.fst ‹_› ?_ | refine Keeps.snd ‹_› ?_ | intro _ | extract_lets | split | dsimp +zetaDelta only)

theorem aliasWriteHere_keeps {s0 : State} (s : State) (core offset width value : Nat) (hK : Keeps s0 s) : Keeps s0
    (aliasWriteHere s core offset width value) := by
  unfold aliasWriteHere
  repeat' (with_reducible first
      | assumption | apply dictEffect_keeps | apply dictWriteWith_keeps | apply dictAbort_keeps | refine Keeps.fst ‹_› ?_
      | refine Keeps.snd ‹_› ?_ | intro _ | extract_lets | split | dsimp +zetaDelta only)

theorem execAliasWrite_keeps {s0 : State} (core offset width value remoteAbort : Nat) (s : State)
    (hK : Keeps s0 s) : ∃ t, execAliasWrite core offset width value remoteAbort s = .next t ∧ Keeps s0 t := by
  refine ⟨_, rfl, ?_⟩
  repeat' (with_reducible first
      | assumption | apply aliasWriteHere_keeps | apply dictDone_keeps | apply dictAbort_keeps | apply send_keeps
      | refine Keeps.fst ‹_› ?_ | refine Keeps.snd ‹_› ?_ | intro _ | extract_lets | split | dsimp +zetaDelta only)

theorem execWinAbortRead_keeps {s0 : State} (core : Nat) (s : State)
    (hK : Keeps s0 s) : ∃ t, execWinAbortRead core s = .next t ∧ Keeps s0 t := by
  refine ⟨_, rfl, ?_⟩
  repeat' (with_reducible first | assumption | apply aliasReadHere_keeps | intro _ | split)

theorem beginRequest_keeps {s0 : State} (s : State) (m word bytes : Nat) (last : Bool) (hK : Keeps s0 s) : Keeps s0
    (beginRequest s m word bytes last) := by
  unfold beginRequest
  repeat' (with_reducible first | assumption | apply setMailbox_keeps | intro _ | refine Keeps.put ?_)

theorem setMoved_keeps {s0 : State} (s : State) (m bytes : Nat) (last : Bool) (hK : Keeps s0 s) : Keeps s0 (setMoved s m bytes last) := by
  unfold setMoved
  repeat' (with_reducible first | assumption | apply setMailbox_keeps | intro _ | refine Keeps.put ?_)

theorem setData_keeps {s0 : State} (s : State) (m v : Nat) (hK : Keeps s0 s) : Keeps s0 (setData s m v) := by
  unfold setData
  repeat' (with_reducible first | assumption | apply setMailbox_keeps | intro _ | refine Keeps.put ?_)

theorem setArea_keeps {s0 : State} (s : State) (m : Nat) (bs : List Byte) (hK : Keeps s0 s) : Keeps s0 (setArea s m bs) := by
  unfold setArea
  repeat' (with_reducible first
      | assumption | apply setMailbox_keeps | intro _ | extract_lets | dsimp +zetaDelta only | refine Keeps.put ?_)

theorem waitWinAbort_keeps {s0 : State} (s : State) (m core : Nat) (hK : Keeps s0 s) : Keeps s0 (waitWinAbort s m core) := by
  unfold waitWinAbort
  repeat' (with_reducible first | assumption | apply setMailbox_keeps | intro _ | refine Keeps.put ?_)

theorem expRead_keeps {s0 : State} (s : State) (w : MailboxWrite) (hK : Keeps s0 s) : Keeps s0 (expRead s w) := by
  unfold expRead
  repeat' (with_reducible first
      | assumption | apply waitWinAbort_keeps | apply setData_keeps | apply setMoved_keeps | apply objValue_keeps
      | apply dictDone_keeps | apply dictAbort_keeps | apply send_keeps | refine Keeps.fst ‹_› ?_ | refine Keeps.snd ‹_› ?_ | intro _
      | extract_lets | split | dsimp +zetaDelta only)

theorem expWrite_keeps {s0 : State} (s : State) (w : MailboxWrite) (hK : Keeps s0 s) : Keeps s0 (expWrite s w) := by
  unfold expWrite
  repeat' (with_reducible first
      | assumption | apply setMoved_keeps | apply dictEffect_keeps | apply dictWriteWith_keeps | apply dictDone_keeps
      | apply dictAbort_keeps | apply send_keeps | refine Keeps.fst ‹_› ?_ | refine Keeps.snd ‹_› ?_ | intro _ | extract_lets | split
      | dsimp +zetaDelta only)

theorem openXfer_keeps {s0 : State} (s : State) (m : Nat) (x : Xfer) (hK : Keeps s0 s) : Keeps s0 (openXfer s m x) := by
  unfold openXfer
  repeat' (with_reducible first | assumption | apply setMailbox_keeps | intro _ | refine Keeps.put ?_)

theorem segReadStart_keeps {s0 : State} (s : State) (w : MailboxWrite) (hK : Keeps s0 s) : Keeps s0 (segReadStart s w) := by
  unfold segReadStart
  repeat' (with_reducible first
      | assumption | apply openXfer_keeps | apply waitWinAbort_keeps | apply setData_keeps | apply setMoved_keeps
      | apply objValue_keeps | apply dictDone_keeps | apply dictAbort_keeps | apply send_keeps | refine Keeps.fst ‹_› ?_
      | refine Keeps.snd ‹_› ?_ | intro _ | extract_lets | split | dsimp +zetaDelta only | refine Keeps.put ?_)

theorem segWriteStart_keeps {s0 : State} (s : State) (w : MailboxWrite) (hK : Keeps s0 s) : Keeps s0 (segWriteStart s w) := by
  unfold segWriteStart
  repeat' (with_reducible first
      | assumption | apply openXfer_keeps | apply setMoved_keeps | apply dictEffect_keeps | apply dictWriteWith_keeps
      | apply dictDone_keeps | apply dictAbort_keeps | apply send_keeps | refine Keeps.fst ‹_› ?_ | refine Keeps.snd ‹_› ?_ | intro _
      | extract_lets | split | dsimp +zetaDelta only | refine Keeps.put ?_)

theorem firstByte_keeps {s0 : State} (s : State) (index sub : Nat) (hK : Keeps s0 s) : Keeps s0 (firstByte s index sub) := by
  unfold firstByte
  repeat' (with_reducible first
      | assumption | apply primeFirstByte_keeps | apply forward_keeps | intro _ | extract_lets | split | dsimp +zetaDelta only)

theorem firstUndone_keeps {s0 : State} (s : State) (index sub : Nat) (hK : Keeps s0 s) : Keeps s0 (firstUndone s index sub) := by
  unfold firstUndone
  repeat' (with_reducible first | assumption | apply settled_keeps | apply tellOutcome_keeps | intro _ | split)

theorem sendSegment_keeps {s0 : State} (s : State) (x : Xfer) (bytes : List Byte) (hK : Keeps s0 s) : Keeps s0 (sendSegment s x bytes) := by
  unfold sendSegment
  repeat' (with_reducible first | assumption | apply send_keeps | refine Keeps.fst ‹_› ?_ | refine Keeps.snd ‹_› ?_ | intro _ | split)

theorem writeSegment_keeps {s0 : State} (s : State) (w : MailboxWrite) (x : Xfer) (hK : Keeps s0 s) : Keeps s0 (writeSegment s w x) := by
  unfold writeSegment
  repeat' (with_reducible first
      | assumption | apply sendSegment_keeps | apply firstUndone_keeps | apply firstByte_keeps | apply openXfer_keeps
      | apply setMoved_keeps | apply dictEffect_keeps | apply dictWriteWith_keeps | apply dictDone_keeps | apply dictAbort_keeps
      | apply setMailbox_keeps | intro _ | extract_lets | split | dsimp +zetaDelta only | refine Keeps.put ?_)

theorem readSegment_keeps {s0 : State} (s : State) (w : MailboxWrite) (x : Xfer) (hK : Keeps s0 s) : Keeps s0 (readSegment s w x) := by
  unfold readSegment
  repeat' (with_reducible first
      | assumption | apply sendSegment_keeps | apply setArea_keeps | apply setMoved_keeps | apply dictDone_keeps
      | apply setMailbox_keeps | intro _ | extract_lets | split | dsimp +zetaDelta only | refine Keeps.put ?_)

theorem segmentRequest_keeps {s0 : State} (s : State) (w : MailboxWrite) (hK : Keeps s0 s) : Keeps s0 (segmentRequest s w) := by
  unfold segmentRequest
  repeat' (with_reducible first
      | assumption | apply readSegment_keeps | apply writeSegment_keeps | apply endTransfer_keeps | apply dictAbort_keeps
      | refine Keeps.fst ‹_› ?_ | refine Keeps.snd ‹_› ?_ | intro _ | extract_lets | split | dsimp +zetaDelta only)

theorem requestWord_keeps {s0 : State} (s : State) (w : MailboxWrite) (hK : Keeps s0 s) : Keeps s0 (requestWord s w) := by
  unfold requestWord
  repeat' (with_reducible first
      | assumption | apply segmentRequest_keeps | apply segWriteStart_keeps | apply segReadStart_keeps | apply expWrite_keeps
      | apply expRead_keeps | apply beginRequest_keeps | apply endTransfer_keeps | apply dictAbort_keeps | apply setMailbox_keeps
      | apply bump_keeps | refine Keeps.fst ‹_› ?_ | refine Keeps.snd ‹_› ?_ | intro _ | extract_lets | split | dsimp +zetaDelta only
      | refine Keeps.put ?_)

theorem mailboxCommand_keeps {s0 : State} (op : Nat) (w : MailboxWrite) (s : State) (hK : Keeps s0 s) : Keeps s0
    (mailboxCommand op w s) := by
  unfold mailboxCommand
  repeat' (with_reducible first | assumption | apply requestWord_keeps | intro _ | split)

theorem execExpeditedRead_keeps {s0 : State} (w : MailboxWrite) (s : State)
    (hK : Keeps s0 s) : ∃ t, execExpeditedRead w s = .next t ∧ Keeps s0 t := by
  refine ⟨_, rfl, ?_⟩
  repeat' (with_reducible first | assumption | apply mailboxCommand_keeps | intro _)

theorem execExpeditedWrite_keeps {s0 : State} (w : MailboxWrite) (s : State)
    (hK : Keeps s0 s) : ∃ t, execExpeditedWrite w s = .next t ∧ Keeps s0 t := by
  refine ⟨_, rfl, ?_⟩
  repeat' (with_reducible first | assumption | apply mailboxCommand_keeps | intro _)

theorem execSegmentedReadStart_keeps {s0 : State} (w : MailboxWrite) (s : State)
    (hK : Keeps s0 s) : ∃ t, execSegmentedReadStart w s = .next t ∧ Keeps s0 t := by
  refine ⟨_, rfl, ?_⟩
  repeat' (with_reducible first | assumption | apply mailboxCommand_keeps | intro _)

theorem execSegmentedWriteStart_keeps {s0 : State} (w : MailboxWrite) (s : State)
    (hK : Keeps s0 s) : ∃ t, execSegmentedWriteStart w s = .next t ∧ Keeps s0 t := by
  refine ⟨_, rfl, ?_⟩
  repeat' (with_reducible first | assumption | apply mailboxCommand_keeps | intro _)

theorem execSegment_keeps {s0 : State} (w : MailboxWrite) (s : State) (hK : Keeps s0 s) : ∃ t, execSegment w s = .next t ∧ Keeps s0 t := by
  refine ⟨_, rfl, ?_⟩
  repeat' (with_reducible first | assumption | apply mailboxCommand_keeps | intro _)

theorem execCancel_keeps {s0 : State} (w : MailboxWrite) (s : State) (hK : Keeps s0 s) : ∃ t, execCancel w s = .next t ∧ Keeps s0 t := by
  refine ⟨_, rfl, ?_⟩
  repeat' (with_reducible first | assumption | apply mailboxCommand_keeps | intro _)

theorem execDictSegTimeout_keeps {s0 : State} (mailbox : Nat) (s : State)
    (hK : Keeps s0 s) : ∃ t, execDictSegTimeout mailbox s = .next t ∧ Keeps s0 t := by
  refine ⟨_, rfl, ?_⟩
  repeat' (with_reducible first | assumption | apply endTransfer_keeps | intro _ | split)

/-! ## Tick -/

theorem idle_keeps {s0 : State} (s : State) (hK : Keeps s0 s) : Keeps s0 (idle s) := by
  unfold idle
  repeat' (with_reducible first
      | assumption | apply bump_keeps | apply bumpBy_keeps | intro _ | extract_lets | split | dsimp +zetaDelta only
      | refine Keeps.put ?_)

end Sys2Proof.Machine
end

