-- ==== Sys2Proof/Laws/Slots.lean ====
section
/-! SUPPORT. What the freeing of buffers, the fault of a slot and the swap of the banks do to the slots and to the sources. -/

namespace Sys2Proof.Machine

set_option Elab.async false

/-! ## Slots while buffers are freed -/

/-- Every slot is as it was but for the list of ALLOC buffers of slot n. -/
def SameSlots (n : Nat) (s t : State) : Prop :=
  { slotOf t n with allocs := [] } = { slotOf s n with allocs := [] } ∧ ∀ j, j ≠ n → slotOf t j = slotOf s j

theorem SameSlots.refl (n : Nat) (s : State) : SameSlots n s s := ⟨rfl, fun _ _ => rfl⟩
theorem SameSlots.trans {n : Nat} {s t u : State} (h : SameSlots n s t) (h' : SameSlots n t u) : SameSlots n s u :=
  ⟨h'.1.trans h.1, fun j hj => (h'.2 j hj).trans (h.2 j hj)⟩
theorem SameSlots.of_eq {n : Nat} {s t : State} (h : t.slots = s.slots) : SameSlots n s t :=
  ⟨by simp only [slotOf, h], fun j _ => by simp only [slotOf, h]⟩

theorem finishCmd_slots (s : State) (id a b c : Nat) : (finishCmd s id a b c).slots = s.slots := rfl

theorem modSlot_allocs_same (s : State) (n : Nat) (f : List Nat → List Nat) :
    SameSlots n s (modSlot s n (fun y => { y with allocs := f y.allocs })) :=
  ⟨by simp [modSlot], fun j hj => by simp only [modSlot, slotOf_setSlot, if_neg hj]⟩

/-- A state that differs in parts among which are neither the slots nor the queued commands. -/
theorem Changes.slots_cmds {l : List Part} {s t : State} (h : Changes (fun x => l.contains x) s t) (h1 : l.contains .slots = false := by decide)
    (h2 : l.contains .cmds = false := by decide) : t.slots = s.slots ∧ t.cmds = s.cmds :=
  ⟨h.slots.resolve_left (Bool.eq_false_iff.mp h1), h.cmds.resolve_left (Bool.eq_false_iff.mp h2)⟩

theorem acceptOp_frame (s : State) (p : Nat) (o : BitOp) : (acceptOp s p o).slots = s.slots ∧ (acceptOp s p o).cmds = s.cmds :=
  Changes.slots_cmds (l := [.objects, .tallies, .devMem, .pools, .evt, .trace])
    (acceptOp_changes s p o (Changes.refl _ s) rfl rfl rfl rfl rfl rfl)

theorem acceptFree_same (s : State) (r : FreeReq) : SameSlots r.slot s (acceptFree s r) := by
  obtain ⟨n, a, c⟩ := r
  have hb : ∀ (u : State) (p i : Nat), SameSlots n u (modSlot (acceptOp u p (.check n i)) n (fun y => { y with allocs := y.allocs.erase a })) :=
    fun u p i => (SameSlots.of_eq (acceptOp_frame u p _).1).trans (modSlot_allocs_same _ n (fun l => l.erase a))
  cases c with
  | none =>
    unfold acceptFree
    dsimp only
    split
    · exact SameSlots.of_eq (by simp)
    · split
      · exact SameSlots.of_eq (by simp)
      · exact SameSlots.trans (SameSlots.of_eq rfl) (hb _ _ _)
  | some id =>
    unfold acceptFree
    dsimp only
    split
    · exact SameSlots.of_eq (by simp [finishCmd_slots])
    · split
      · exact SameSlots.of_eq (by simp [finishCmd_slots])
      · exact (SameSlots.trans (SameSlots.of_eq rfl) (hb (setPool s _ _) _ _)).trans (SameSlots.of_eq (finishCmd_slots _ _ _ _ _))

theorem presentFree_same (s : State) (r : FreeReq) : SameSlots r.slot s (presentFree s r) := by
  unfold presentFree
  split
  · exact acceptFree_same s r
  · dsimp only
    split
    · exact acceptFree_same s r
    · exact SameSlots.of_eq rfl

theorem freeBuffers_same (s : State) (n : Nat) (l : List Nat) : SameSlots n s (freeBuffers s n l) := by
  unfold freeBuffers
  induction l generalizing s with
  | nil => exact SameSlots.refl n s
  | cons a l ih => exact (presentFree_same s { slot := n, addr := a, cmd := none }).trans (ih _)

theorem acceptFree_cmds (s : State) (n a : Nat) : (acceptFree s { slot := n, addr := a, cmd := none }).cmds = s.cmds := by
  unfold acceptFree
  dsimp only
  split
  · simp
  · split
    · simp
    · exact (acceptOp_frame _ _ _).2

theorem presentFree_cmds (s : State) (n a : Nat) : (presentFree s { slot := n, addr := a, cmd := none }).cmds = s.cmds := by
  unfold presentFree
  split
  · exact acceptFree_cmds s n a
  · dsimp only
    split
    · exact acceptFree_cmds s n a
    · rfl

theorem freeBuffers_cmds (s : State) (n : Nat) (l : List Nat) : (freeBuffers s n l).cmds = s.cmds := by
  unfold freeBuffers
  induction l generalizing s with
  | nil => rfl
  | cons a l ih => exact (ih _).trans (presentFree_cmds s n a)

/-! ## Requests withdrawn -/

theorem countWithdrawn_frame (s : State) (r : AllocReq) : (countWithdrawn s r).slots = s.slots ∧ (countWithdrawn s r).cmds = s.cmds :=
  Changes.slots_cmds (l := [.drawn, .objects, .tallies]) (countWithdrawn_changes s r (Changes.refl _ s) rfl rfl)

theorem foldl_slots_cmds {α : Type} (f : State → α → State) (hf : ∀ s x, (f s x).slots = s.slots ∧ (f s x).cmds = s.cmds) (l : List α)
    (s : State) : (l.foldl f s).slots = s.slots ∧ (l.foldl f s).cmds = s.cmds := by
  induction l generalizing s with
  | nil => exact ⟨rfl, rfl⟩
  | cons x l ih => exact ⟨(ih _).1.trans (hf s x).1, (ih _).2.trans (hf s x).2⟩

theorem finishCmd_ids (s : State) (id a b c : Nat) : (finishCmd s id a b c).cmds.map (·.id) = s.cmds.map (·.id) := by
  simp only [finishCmd, List.map_map]
  apply List.map_congr_left
  intro c _
  simp only [Function.comp]
  split <;> rfl

/-- What leaves every slot and the names of the queued commands as they were. -/
def SameNames (s t : State) : Prop := t.slots = s.slots ∧ t.cmds.map (·.id) = s.cmds.map (·.id)

theorem SameNames.refl (s : State) : SameNames s s := ⟨rfl, rfl⟩
theorem SameNames.trans {s t u : State} (h : SameNames s t) (h' : SameNames t u) : SameNames s u := ⟨h'.1.trans h.1, h'.2.trans h.2⟩
theorem SameNames.of_eq {s t : State} (h : t.slots = s.slots ∧ t.cmds = s.cmds) : SameNames s t := ⟨h.1, by rw [h.2]⟩

theorem SameNames.foldl {α : Type} (f : State → α → State) (hf : ∀ s x, SameNames s (f s x)) (l : List α) (s : State) :
    SameNames s (l.foldl f s) := by
  induction l generalizing s with
  | nil => exact SameNames.refl s
  | cons x l ih => exact (hf s x).trans (ih _)

theorem endWithdrawn_names (code : Nat) (s : State) (r : AllocReq) : SameNames s (endWithdrawn code s r) := by
  have h := SameNames.of_eq (countWithdrawn_frame s r)
  unfold endWithdrawn
  dsimp only
  split
  · exact h.trans ⟨rfl, finishCmd_ids _ _ _ _ _⟩
  · exact h

theorem withdrawRequests_names (n code : Nat) (s : State) (p : Nat) : SameNames s (withdrawRequests n code s p) :=
  (SameNames.foldl (endWithdrawn code) (endWithdrawn_names code) ((poolOf s p).waits.filter (fun r => r.slot == n)) s).trans
    (SameNames.of_eq ⟨rfl, rfl⟩)

theorem dropRequests_same (s : State) (n code : Nat) :
    SameSlots n s (dropRequests s n code) ∧ (dropRequests s n code).cmds.map (·.id) = s.cmds.map (·.id) := by
  have h := SameNames.foldl _ (withdrawRequests_names n code) poolNumbers
    { s with pools := { s.pools with answers := s.pools.answers.filter (fun a => a.slot != n) } }
  unfold dropRequests
  refine ⟨(SameSlots.of_eq h.1).trans (freeBuffers_same _ _ _), ?_⟩
  rw [freeBuffers_cmds]
  exact h.2

theorem cancelStreams_frame (s : State) (m : Nat) : (cancelStreams s m).slots = s.slots ∧ (cancelStreams s m).cmds = s.cmds :=
  Changes.slots_cmds (l := [.objects, .sdx]) (cancelStreams_changes s m (Changes.refl _ s) rfl rfl)

theorem settleUnits_frame (s : State) (k : UnitKind) : (settleUnits s k).slots = s.slots ∧ (settleUnits s k).cmds = s.cmds :=
  Changes.slots_cmds (l := [.objects, .tallies, .txa, .sdx, .rsv, .mdc, .tok])
    (settleUnits_changes s k (Changes.refl _ s) rfl rfl rfl rfl rfl rfl rfl)

theorem dropContexts_frame (s : State) (n : Nat) : (dropContexts s n).slots = s.slots ∧ (dropContexts s n).cmds = s.cmds :=
  Changes.slots_cmds (l := [.tallies, .mdc]) (dropContexts_changes s n (Changes.refl _ s) rfl rfl)

/-- What the stages of a slot give up (R310) touches no slot but its list of ALLOC buffers, and no command leaves its queue. -/
theorem abandonStages_same (s : State) (n code : Nat) :
    SameSlots n s (abandonStages s n code) ∧ (abandonStages s n code).cmds.map (·.id) = s.cmds.map (·.id) := by
  unfold abandonStages
  extract_lets bufs s1 ended a b c d e f s2 s3
  have h1 : SameNames s s1 := SameNames.of_eq (foldl_slots_cmds cancelStreams cancelStreams_frame _ s)
  have h2 : SameNames s1 s2 := SameNames.of_eq ⟨rfl, rfl⟩
  have h3 : SameNames s2 s3 := (SameNames.of_eq (dropContexts_frame s2 n)).trans
    (SameNames.foldl (fun s id => finishCmd s id code 1 0) (fun t id => ⟨rfl, finishCmd_ids t id code 1 0⟩) ended _)
  have h4 := (SameNames.of_eq (settleUnits_frame s3 .mdc)).trans (SameNames.of_eq (settleUnits_frame (settleUnits s3 .mdc) .tok))
  have h := ((h1.trans h2).trans h3).trans h4
  have hd := dropRequests_same (settleUnits (settleUnits s3 .mdc) .tok) n code
  refine ⟨((SameSlots.of_eq h.1).trans hd.1).trans (freeBuffers_same _ _ _), ?_⟩
  rw [freeBuffers_cmds, hd.2, h.2]

theorem withdrawWaits_slots (s : State) (n : Nat) : (withdrawWaits s n).slots = s.slots :=
  (withdrawWaits_changes (pt := fun x => [Part.pairs].contains x) s n (Changes.refl _ s) rfl).slots.resolve_left (by decide)

theorem withdrawWaits_cmds (s : State) (n : Nat) : (withdrawWaits s n).cmds = s.cmds :=
  (withdrawWaits_changes (pt := fun x => [Part.pairs].contains x) s n (Changes.refl _ s) rfl).cmds.resolve_left (by decide)

/-- Every parked slot of a list resumes at its target, and no other slot changes. -/
theorem foldl_resume (l : List Nat) (s : State) (j : Nat) :
    slotOf (l.foldl (fun s n => if (slotOf s n).state == .parked then
        setSlot s n { slotOf s n with state := .running, pc := (slotOf s n).target } else s) s) j =
      if j ∈ l ∧ (slotOf s j).state = .parked then { slotOf s j with state := .running, pc := (slotOf s j).target } else slotOf s j := by
  induction l generalizing s with
  | nil => simp
  | cons a l ih =>
    rw [List.foldl_cons, ih]
    by_cases h : (slotOf s a).state = .parked
    · simp only [h, beq_self_eq_true, if_true, slotOf_setSlot]
      by_cases hj : j = a
      · subst hj; simp [h]
      · simp [hj]
    · have h' : ((slotOf s a).state == SlotState.parked) = false := by simpa using h
      simp only [h', Bool.false_eq_true, if_false]
      by_cases hj : j = a
      · subst hj; simp [h]
      · simp [hj]

theorem slotOf_resumeParked (s : State) (j : Nat) : slotOf (resumeParked s) j =
    if j < 64 ∧ (slotOf s j).state = .parked then { slotOf s j with state := .running, pc := (slotOf s j).target } else slotOf s j := by
  have := foldl_resume slotNumbers s j
  simp only [slotNumbers, List.mem_range] at this
  exact this

theorem resumeParked_frame (s : State) : Changes (fun x => ([.slots] : List Part).contains x) s (resumeParked s) :=
  resumeParked_changes s (Changes.refl _ s) rfl

@[simp] theorem resumeParked_seq (s : State) : (resumeParked s).seq = s.seq := (resumeParked_frame s).seq.resolve_left (by decide)
@[simp] theorem resumeParked_mem (s : State) : (resumeParked s).mem = s.mem := by
  have h := resumeParked_frame s
  exact Mems.ext_parts (h.devMem.resolve_left (by decide)) (h.staging.resolve_left (by decide)) (h.scratchpad.resolve_left (by decide))
    (h.banks.resolve_left (by decide))

theorem goOn_spec (s : State) :
    let t := if s.seq.armed then resumeParked { s with seq := { s.seq with armed := false } } else s
    t.seq = { s.seq with armed := false } ∧ t.mem = s.mem
    ∧ ∀ n, n < 64 → slotOf t n = if s.seq.armed = true ∧ (slotOf s n).state = .parked
        then { slotOf s n with state := .running, pc := (slotOf s n).target } else slotOf s n := by
  intro t
  by_cases h : s.seq.armed = true
  · have e : t = resumeParked { s with seq := { s.seq with armed := false } } := if_pos h
    rw [e]
    refine ⟨by simp, by simp, fun n hn => ?_⟩
    have := slotOf_resumeParked { s with seq := { s.seq with armed := false } } n
    simp only [hn, true_and] at this
    simp only [h, true_and]
    exact this
  · have e : t = s := if_neg h
    rw [e]
    refine ⟨?_, rfl, fun n _ => by simp [h]⟩
    cases hq : s.seq
    rw [hq] at h
    simpa using h

/-- Disarming (R312): parked slots go on at their targets when a bank was armed. -/
theorem disarm_spec (s : State) : (disarm s).seq = { s.seq with armed := false } ∧ (disarm s).mem = s.mem
    ∧ ∀ n, n < 64 → slotOf (disarm s) n = if s.seq.armed = true ∧ (slotOf s n).state = .parked
        then { slotOf s n with state := .running, pc := (slotOf s n).target } else slotOf s n := by
  have key : ∀ u : State, u.seq = s.seq → u.mem = s.mem → (∀ n, slotOf u n = slotOf s n) →
      let t := if u.seq.armed then resumeParked { u with seq := { u.seq with armed := false } } else u
      t.seq = { s.seq with armed := false } ∧ t.mem = s.mem
      ∧ ∀ n, n < 64 → slotOf t n = if s.seq.armed = true ∧ (slotOf s n).state = .parked
          then { slotOf s n with state := .running, pc := (slotOf s n).target } else slotOf s n := by
    intro u h1 h2 h3
    obtain ⟨g1, g2, g3⟩ := goOn_spec u
    refine ⟨g1.trans (by rw [h1]), g2.trans h2, fun n hn => (g3 n hn).trans ?_⟩
    rw [h3 n, h1]
  unfold disarm
  by_cases hk : (keptOf s 0x7000 == some Before.arm) = true
  · rw [if_pos hk]
    exact key (unkeep s 0x7000) rfl rfl (fun _ => rfl)
  · rw [if_neg hk]
    exact key s rfl rfl (fun _ => rfl)

/-! ## Jobs set up -/

theorem foldl_reserve (f : Nat → Nat) (n : Nat) (l : List Nat) (s : State) :
    let t := l.foldl (fun s p => setPool s p { poolOf s p with reserved := tblSet 0 (poolOf s p).reserved n (f p) }) s
    t.slots = s.slots ∧ t.seq = s.seq ∧ t.mem = s.mem ∧ t.boot = s.boot
    ∧ ∀ p, tblGet 0 (poolOf t p).reserved n = if p ∈ l then f p else tblGet 0 (poolOf s p).reserved n := by
  induction l generalizing s with
  | nil => exact ⟨rfl, rfl, rfl, rfl, by simp⟩
  | cons a l ih =>
    obtain ⟨h1, h2, h3, h5, h4⟩ := ih (setPool s a { poolOf s a with reserved := tblSet 0 (poolOf s a).reserved n (f a) })
    refine ⟨h1, h2, h3, h5, fun p => ?_⟩
    rw [List.foldl_cons, h4]
    by_cases hp : p ∈ l
    · simp [hp]
    · simp only [hp, if_false, List.mem_cons, or_false]
      by_cases ha : p = a
      · subst ha; simp
      · rw [if_neg ha]
        simp only [poolOf, setPool]
        rw [tblGet_tblSet, if_neg ha]

/-- A job set up in a slot (R307). -/
theorem setUpJob_spec (s : State) (n addr : Nat) (a : Admission) (root : Bool) :
    slotOf (setUpJob s n addr a root) n = { state := if s.seq.armed then .parked else .running, pc := a.progEntry, job := a,
                                            recAddr := some addr, root := root, target := a.progEntry, horizon := objGet s 0x6801 3, fault := (slotOf s n).fault }
    ∧ (∀ j, j ≠ n → slotOf (setUpJob s n addr a root) j = slotOf s j)
    ∧ (setUpJob s n addr a root).seq = s.seq ∧ (setUpJob s n addr a root).mem = s.mem
    ∧ (setUpJob s n addr a root).boot = s.boot
    ∧ ∀ p, p < 16 → tblGet 0 (poolOf (setUpJob s n addr a root) p).reserved n = a.pools.getD p 0 := by
  obtain ⟨r1, r2, r3, r5, r4⟩ := foldl_reserve (fun p => a.pools.getD p 0) n poolNumbers
    (setSlot s n { state := if s.seq.armed then .parked else .running, pc := a.progEntry, job := a, recAddr := some addr,
                   root := root, target := a.progEntry, horizon := objGet s 0x6801 3, fault := (slotOf s n).fault })
  unfold setUpJob
  refine ⟨?_, fun j hj => ?_, r2, r3, r5, fun p hp => ?_⟩
  · exact (congrArg (fun l => tblGet ({} : Slot) l n) r1).trans (slotOf_setSlot_self _ _ _)
  · exact (congrArg (fun l => tblGet ({} : Slot) l j) r1).trans ((slotOf_setSlot s n j _).trans (if_neg hj))
  · rw [r4]
    exact if_pos (by simpa [poolNumbers] using hp)

theorem dieId_congr {s t : State} (h : t.boot = s.boot) : dieId t = dieId s := by simp only [dieId, h]

theorem sendIf_spec (s : State) (b : Bool) (m : D2d) : let t := if b then send s m else s
    t.mem = s.mem ∧ t.seq = s.seq ∧ t.objs = s.objs ∧ t.boot = s.boot ∧ t.slots = s.slots := by
  cases b <;> exact ⟨rfl, rfl, rfl, rfl, rfl⟩

/-- A record that passes every check is admitted (R307): its STATE is Admitted, the admission counted, and the job set up where its
stripe names this die. -/
theorem enterJob_spec {s : State} {b : List Byte} {a : Admission} {e : Elsewhere} (addr : Nat) (root : Bool) (n : Nat)
    (h : admitCode s b a e = 0) (hd : a.stripe.testBit (dieId s) = true) :
    ∃ w, enterJob s b a addr root e n = (0, setUpJob w n addr a root) ∧ w.mem = (writeRecordState s addr n 0 1).mem ∧ w.seq = s.seq
      ∧ w.objs = (bump s 0x80F0 0x0C).objs ∧ w.boot = s.boot ∧ w.slots = s.slots := by
  obtain ⟨h1, h2, h3, h4, h5⟩ := sendIf_spec (bump (writeRecordState s addr n 0 1) 0x80F0 0x0C)
    ((otherDies (bump (writeRecordState s addr n 0 1) 0x80F0 0x0C)).any (fun d => a.stripe.testBit d)) (.admission n addr)
  refine ⟨_, ?_, h1, h2, h3, h4, h5⟩
  rw [enterJob, h]
  simp only [bne_self_eq_false, Bool.false_eq_true, if_false]
  rw [dieId_congr h4, show dieId (bump (writeRecordState s addr n 0 1) 0x80F0 0x0C) = dieId s from rfl, hd]
  rfl

/-! ## Sources -/

@[simp] theorem setGrp_srcs (s : State) (g : Nat) (x : Grp) : (setGrp s g x).evt.srcs = s.evt.srcs := rfl
@[simp] theorem srcOf_setGrp (s : State) (g : Nat) (x : Grp) (n : Nat) : srcOf (setGrp s g x) n = srcOf s n := rfl
theorem srcOf_setSrc (s : State) (n j : Nat) (x : Src) : srcOf (setSrc s n x) j = if j = n then x else srcOf s j := tblGet_tblSet _ _ _ _ _

theorem wakeUp_srcs (s : State) (c : Nat) : (wakeUp s c).evt.srcs = s.evt.srcs := by
  unfold wakeUp; dsimp only; split <;> rfl

/-- What a source keeps while others fire: its configuration, its LATCH, its count and its last code. -/
def SameFirings (s t : State) : Prop := ∀ j,
  (srcOf t j).cfg = (srcOf s j).cfg ∧ (srcOf t j).latch = (srcOf s j).latch ∧ (srcOf t j).firings = (srcOf s j).firings
  ∧ (srcOf t j).lastCode = (srcOf s j).lastCode

theorem SameFirings.refl (s : State) : SameFirings s s := fun _ => ⟨rfl, rfl, rfl, rfl⟩
theorem SameFirings.trans {s t u : State} (h : SameFirings s t) (h' : SameFirings t u) : SameFirings s u := fun j =>
  ⟨(h' j).1.trans (h j).1, (h' j).2.1.trans (h j).2.1, (h' j).2.2.1.trans (h j).2.2.1, (h' j).2.2.2.trans (h j).2.2.2⟩
theorem SameFirings.of_eq {s t : State} (h : t.evt.srcs = s.evt.srcs) : SameFirings s t := fun j => by simp [srcOf, h]

theorem setSrc_sameFirings (s : State) (n : Nat) (x : Src) (h : x.cfg = (srcOf s n).cfg ∧ x.latch = (srcOf s n).latch
    ∧ x.firings = (srcOf s n).firings ∧ x.lastCode = (srcOf s n).lastCode) : SameFirings s (setSrc s n x) := by
  intro j
  rw [srcOf_setSrc]
  split
  · next hj => subst hj; exact h
  · exact ⟨rfl, rfl, rfl, rfl⟩

theorem setPending_sameFirings (s : State) (n : Nat) : SameFirings s (setPending s n) := by
  unfold setPending
  dsimp only
  split
  · exact SameFirings.refl s
  · split
    · exact (setSrc_sameFirings s n { srcOf s n with pending := true } ⟨rfl, rfl, rfl, rfl⟩).trans (SameFirings.of_eq (wakeUp_srcs _ _))
    · exact (setSrc_sameFirings s n { srcOf s n with pending := true, core := routeCore s (srcOf s n).target } ⟨rfl, rfl, rfl, rfl⟩).trans
        (SameFirings.of_eq (wakeUp_srcs _ _))

theorem SameFirings.foldl (f : State → Nat → State) (hf : ∀ s n, SameFirings s (f s n)) (l : List Nat) (s : State) :
    SameFirings s (l.foldl f s) := by
  induction l generalizing s with
  | nil => exact SameFirings.refl s
  | cons a l ih => exact (hf s a).trans (ih _)

theorem routeAll_sameFirings (s : State) (due : List Nat) : SameFirings s (routeAll s due) := SameFirings.foldl _ setPending_sameFirings _ s

theorem endHoldoff_sameFirings (s : State) (g : Nat) : SameFirings s (endHoldoff s g) :=
  (SameFirings.of_eq (t := setGrp s g _) rfl).trans (SameFirings.foldl (fun s n => setSrc s n { srcOf s n with held := false })
    (fun s n => setSrc_sameFirings s n { srcOf s n with held := false } ⟨rfl, rfl, rfl, rfl⟩) (heldIn s g) _)

theorem releaseGroup_sameFirings (s : State) (g : Nat) : SameFirings s (releaseGroup s g) :=
  (endHoldoff_sameFirings s g).trans (routeAll_sameFirings _ _)

theorem holdFiring_sameFirings (s : State) (n : Nat) : SameFirings s (holdFiring s n) :=
  (setSrc_sameFirings s n { srcOf s n with held := true } ⟨rfl, rfl, rfl, rfl⟩).trans (SameFirings.of_eq rfl)

/-- A firing is latched (R347): LATCH is set, the firing counted, the code kept; every other source keeps its own. -/
theorem latchFiring_srcs (s : State) (n code : Nat) :
    SameFirings (setSrc s n { srcOf s n with latch := true, firings := satAdd (srcOf s n).firings 1, lastCode := code })
      (latchFiring s n code) := by
  unfold latchFiring
  dsimp only
  split
  · exact holdFiring_sameFirings _ _
  · exact SameFirings.refl _

/-- After the firings of one HCLK are latched, releases and routing change none of them (R355). -/
theorem fireAll_srcs (s : State) (ns : List Nat) (code : Nat) :
    SameFirings (ns.foldl (fun s n => latchFiring s n code) s) (fireAll s ns code) :=
  (SameFirings.foldl _ endHoldoff_sameFirings _ _).trans (routeAll_sameFirings _ _)

/-- A firing (R347): LATCH is set, the firing counted, the code kept; every other source keeps its own. -/
theorem fire_srcs (s : State) (n code : Nat) :
    SameFirings (setSrc s n { srcOf s n with latch := true, firings := satAdd (srcOf s n).firings 1, lastCode := code }) (fire s n code) :=
  (latchFiring_srcs s n code).trans (fireAll_srcs s [n] code)

theorem fire_latch (s : State) (n code : Nat) : (srcOf (fire s n code) n).latch = true ∧ (srcOf (fire s n code) n).lastCode = code := by
  have h := fire_srcs s n code n
  rw [srcOf_setSrc_self] at h
  exact ⟨h.2.1, h.2.2.2⟩

/-! ## Sources that an abandonment leaves alone -/

/-- The sources below 64, those of the sequencer and the units, keep what `SameFirings` says of each. -/
def QuietBelow (s t : State) : Prop := ∀ j, j < 64 →
  (srcOf t j).cfg = (srcOf s j).cfg ∧ (srcOf t j).latch = (srcOf s j).latch ∧ (srcOf t j).firings = (srcOf s j).firings
  ∧ (srcOf t j).lastCode = (srcOf s j).lastCode

theorem QuietBelow.refl (s : State) : QuietBelow s s := fun _ _ => ⟨rfl, rfl, rfl, rfl⟩
theorem QuietBelow.trans {s t u : State} (h : QuietBelow s t) (h' : QuietBelow t u) : QuietBelow s u := fun j hj =>
  ⟨(h' j hj).1.trans (h j hj).1, (h' j hj).2.1.trans (h j hj).2.1, (h' j hj).2.2.1.trans (h j hj).2.2.1,
   (h' j hj).2.2.2.trans (h j hj).2.2.2⟩
theorem QuietBelow.of_evt {s t : State} (h : t.evt = s.evt) : QuietBelow s t := fun j _ => by simp [srcOf, h]
theorem QuietBelow.of_changes {p : Part → Bool} {s t : State} (h : Changes p s t) (hp : p .evt = false) : QuietBelow s t :=
  QuietBelow.of_evt (h.evt.resolve_left (by simp [hp]))

theorem fire_quiet (s : State) (n code : Nat) (h : 64 ≤ n) : QuietBelow s (fire s n code) := fun j hj => by
  have := fire_srcs s n code j
  rwa [srcOf_setSrc, if_neg (by omega)] at this

theorem raiseErr_quiet (s : State) (code slot : Nat) (h : 64 ≤ (errInfo code).2.2) : QuietBelow s (raiseErr s code slot) := by
  have hc : QuietBelow s (countErr s code slot) :=
    QuietBelow.of_changes (p := fun x => !(x == .evt)) (countErr_changes s code slot (Changes.refl _ s) (by decide) (by decide)) (by decide)
  unfold raiseErr
  dsimp only
  split
  · exact hc
  · exact hc.trans (fire_quiet _ _ _ h)

/-- A state that differs in nothing of the event controller. -/
theorem QuietBelow.put {s0 s : State} (h : QuietBelow s0 s) {pending drawn boot objs mem sets roots pairs slots cmds seq arbs txa forge sdx rsv mdc tok bat
    pools dlv net fed dict pins ras trace tap removal} :
    QuietBelow s0 (State.mk pending drawn boot objs mem sets roots pairs slots cmds seq arbs txa forge sdx rsv mdc tok bat pools dlv net
      fed dict pins s.evt ras trace tap removal) := h

/-- An operation that leaves the event controller alone. -/
theorem QuietBelow.off {s0 s t : State} (h : QuietBelow s0 s) (hc : Changes (fun x => !(x == Part.evt)) s t) : QuietBelow s0 t :=
  h.trans (QuietBelow.of_changes hc (by decide))

theorem quarantine_quiet {s0 : State} (s : State) (p : Nat) (is : List Nat) (dropped : Bool) (slot : Nat) (h : QuietBelow s0 s) :
    QuietBelow s0 (quarantine s p is dropped slot) := by
  unfold quarantine
  extract_lets x known strange inRing s1
  split
  · exact h
  · have h1 : QuietBelow s0 s1 := h
    have h2 : QuietBelow s0 (raiseErr s1 0x0C07 slot) := h1.trans (raiseErr_quiet s1 0x0C07 slot (by decide))
    have h3 := h2.off (lowWater_changes _ p (Changes.refl _ _) (by decide) (by decide))
    exact h3.off (blockExcess_changes _ p (Changes.refl _ _) (by decide))

theorem readStateLine_quiet {s0 : State} (s : State) (p i slot : Nat) (poisoned : Bool) (h : QuietBelow s0 s) :
    QuietBelow s0 (readStateLine s p i slot poisoned) := by
  unfold readStateLine
  split
  · refine quarantine_quiet _ _ _ _ _ ?_
    exact (h.trans (raiseErr_quiet s 0x1203 slot (by decide))).put
  · exact h

theorem runSets_quiet {s0 : State} (p : Nat) (l : List BitOp) : ∀ s, QuietBelow s0 s → QuietBelow s0 (runSets s p l) := by
  induction l with
  | nil => intro s h; rw [runSets]; exact h; simp
  | cons o l ih =>
    intro s h
    cases o with
    | check _ _ => rw [runSets]; exact h; simp
    | set n i =>
      rw [runSets]
      refine ih _ ?_
      have h1 := readStateLine_quiet (setPool s p { poolOf s p with ops := l }) p i n false h
      exact h1.off (setStateBit_changes _ p i true (Changes.refl _ _) (by decide))

theorem acceptFree_quiet {s0 : State} (s : State) (r : FreeReq) (h : QuietBelow s0 s) : QuietBelow s0 (acceptFree s r) := by
  have hr : QuietBelow s0 (raiseErr s 0x0C03 r.slot) := h.trans (raiseErr_quiet s 0x0C03 r.slot (by decide))
  unfold acceptFree
  extract_lets bad
  have hbad : QuietBelow s0 (bad s) := by
    show QuietBelow s0 (match r.cmd with | some id => _ | none => _)
    split
    · exact hr
    · exact hr
  split
  · exact hbad
  · extract_lets x s1 s2
    split
    · exact hbad
    · have h2 : QuietBelow s0 s1 := runSets_quiet _ _ _ h
      have h3 : QuietBelow s0 s2 := h2
      split
      · exact h3
      · exact h3

theorem presentFree_quiet {s0 : State} (s : State) (r : FreeReq) (h : QuietBelow s0 s) : QuietBelow s0 (presentFree s r) := by
  unfold presentFree
  split
  · exact acceptFree_quiet s r h
  · extract_lets x
    split
    · exact acceptFree_quiet s r h
    · exact h

theorem QuietBelow.fold {α : Type} {s0 : State} (f : State → α → State) (l : List α) (hf : ∀ s x, QuietBelow s0 s → QuietBelow s0 (f s x)) :
    ∀ s, QuietBelow s0 s → QuietBelow s0 (l.foldl f s) := by
  induction l with
  | nil => exact fun _ h => h
  | cons a l ih => exact fun s h => ih _ (hf s a h)

theorem freeBuffers_quiet {s0 : State} (s : State) (slot : Nat) (l : List Nat) (h : QuietBelow s0 s) : QuietBelow s0 (freeBuffers s slot l) :=
  QuietBelow.fold _ l (fun s _ h => presentFree_quiet s _ h) s h

theorem dropRequests_quiet {s0 : State} (s : State) (slot code : Nat) (h : QuietBelow s0 s) : QuietBelow s0 (dropRequests s slot code) := by
  unfold dropRequests
  extract_lets mine s1
  refine freeBuffers_quiet _ _ _ (QuietBelow.fold (withdrawRequests slot code) poolNumbers (fun s p h => ?_) _ ?_)
  · exact h.off (withdrawRequests_changes slot code s p (Changes.refl _ s) (by decide) (by decide) (by decide) (by decide))
  · exact h

/-- What the stages of a slot give up fires none of the sources below 64. -/
theorem abandonStages_quiet {s0 : State} (s : State) (n code : Nat) (h : QuietBelow s0 s) : QuietBelow s0 (abandonStages s n code) := by
  unfold abandonStages
  extract_lets bufs s1 ended a b c d e f s2 s3
  have h1 : QuietBelow s0 s1 := QuietBelow.fold _ _ (fun s m h => h.off (cancelStreams_changes s m (Changes.refl _ s) (by decide) (by decide))) s h
  have h2 : QuietBelow s0 s2 := h1
  have h3 : QuietBelow s0 s3 := QuietBelow.fold (fun s id => finishCmd s id code 1 0) ended (fun _ _ h => h) _
    (h2.off (dropContexts_changes s2 n (Changes.refl _ s2) (by decide) (by decide)))
  have h4 := h3.off (settleUnits_changes s3 .mdc (Changes.refl _ s3) (by decide) (by decide) (by decide) (by decide) (by decide) (by decide) (by decide))
  have h5 := h4.off (settleUnits_changes _ .tok (Changes.refl _ _) (by decide) (by decide) (by decide) (by decide) (by decide) (by decide) (by decide))
  exact freeBuffers_quiet _ _ _ (dropRequests_quiet _ _ _ h5)

/-- A slot's fault (R310) fires source 3 once, and no other source below 64. -/
theorem slotFault_firings (s : State) (n code : Nat) (h1 : (slotOf s n).state ≠ .idle) (h2 : (slotOf s n).state ≠ .faulted) :
    QuietBelow (setSrc s 3 { srcOf s 3 with latch := true, firings := satAdd (srcOf s 3).firings 1, lastCode := code }) (slotFault s n code) := by
  have hf : QuietBelow (setSrc s 3 { srcOf s 3 with latch := true, firings := satAdd (srcOf s 3).firings 1, lastCode := code }) (faultHere s n code) := by
    unfold faultHere
    dsimp only
    rw [if_neg (by simp [h1, h2])]
    intro j hj
    generalize hu : abandonStages _ n code = u
    have hq : QuietBelow s u := by
      rw [← hu]
      refine abandonStages_quiet _ _ _ (QuietBelow.off ?_ (withdrawWaits_changes _ _ (Changes.refl _ _) (by decide)))
      exact QuietBelow.refl s
    have a := fire_srcs u 3 code j
    have b := hq j hj
    have b3 := hq 3 (by decide)
    rw [srcOf_setSrc] at a ⊢
    by_cases hj3 : j = 3
    · subst hj3
      rw [if_pos rfl] at a ⊢
      exact ⟨a.1.trans b3.1, a.2.1, a.2.2.1.trans (by simp only; rw [b3.2.2.1]), a.2.2.2⟩
    · rw [if_neg hj3] at a ⊢
      exact ⟨a.1.trans b.1, a.2.1.trans b.2.1, a.2.2.1.trans b.2.2.1, a.2.2.2.trans b.2.2.2⟩
  unfold slotFault
  dsimp only
  rw [if_neg (by simp [h1, h2])]
  split
  · exact hf.trans (QuietBelow.of_changes (p := fun x => !(x == Part.evt)) (send_changes _ _ (Changes.refl _ _) (by decide)) (by decide))
  · exact hf

/-- Every pair's depth and counts are the same. -/
def SameCounts (s t : State) : Prop := ∀ p,
  (pairOf t p).depth = (pairOf s p).depth ∧ (pairOf t p).empty = (pairOf s p).empty ∧ (pairOf t p).full = (pairOf s p).full

theorem SameCounts.trans {s t u : State} (h : SameCounts s t) (h' : SameCounts t u) : SameCounts s u := fun p =>
  ⟨(h' p).1.trans (h p).1, (h' p).2.1.trans (h p).2.1, (h' p).2.2.trans (h p).2.2⟩

theorem setPair_waits_counts (s : State) (p : Nat) (w : List HeldWait) : SameCounts s (setPair s p { pairOf s p with waits := w }) := by
  intro q
  unfold pairOf setPair
  simp only [tblGet_tblSet]
  split
  · next hq => subst hq; exact ⟨rfl, rfl, rfl⟩
  · exact ⟨rfl, rfl, rfl⟩

theorem withdrawWaits_counts (s : State) (n : Nat) : SameCounts s (withdrawWaits s n) := by
  unfold withdrawWaits
  generalize s.pairs.map (·.1) = l
  induction l generalizing s with
  | nil => exact fun _ => ⟨rfl, rfl, rfl⟩
  | cons a l ih =>
    rw [List.foldl_cons]
    refine SameCounts.trans ?_ (ih _)
    dsimp only
    split
    · exact setPair_waits_counts s a _
    · exact fun _ => ⟨rfl, rfl, rfl⟩

/-- A slot's fault (R310): it holds the code, and every other slot and every pair's counts are as they were. -/
theorem slotFault_effect (u : State) (n code : Nat) (h1 : (slotOf u n).state ≠ .idle) (h2 : (slotOf u n).state ≠ .faulted) :
    ((slotOf (slotFault u n code) n).state = .faulted ∧ (slotOf (slotFault u n code) n).fault = code)
    ∧ (∀ j, j ≠ n → slotOf (slotFault u n code) j = slotOf u j)
    ∧ SameCounts u (slotFault u n code) := by
  have key : ∀ t, t.slots = (faultHere u n code).slots → t.pairs = (faultHere u n code).pairs →
      ((slotOf t n).state = .faulted ∧ (slotOf t n).fault = code) ∧ (∀ j, j ≠ n → slotOf t j = slotOf u j)
      ∧ SameCounts u t := by
    intro t ht hp
    have hs : ∀ j, slotOf t j = slotOf (faultHere u n code) j := by intro j; unfold slotOf; rw [ht]
    have hpp : ∀ j, pairOf t j = pairOf (faultHere u n code) j := by intro j; unfold pairOf; rw [hp]
    simp only [SameCounts, hs, hpp]
    unfold faultHere
    rw [if_neg (by simp [h1, h2])]
    dsimp only
    generalize hw : ({ setSlot u n _ with cmds := _ } : State) = w
    have hwn : (slotOf w n).state = .faulted ∧ (slotOf w n).fault = code := by rw [← hw]; exact ⟨by simp [slotOf, setSlot], by simp [slotOf, setSlot]⟩
    have hwj : ∀ j, j ≠ n → slotOf w j = slotOf u j := by
      intro j hj; rw [← hw]; exact tblGet_tblSet_other _ _ _ _ _ _ hj
    have hwp : ∀ p, pairOf w p = pairOf u p := by intro p; rw [← hw]; rfl
    simp only [slotOf_fire, pairOf_fire]
    have ha := (abandonStages_same (withdrawWaits w n) n code).1
    have hsl : ∀ j, slotOf (withdrawWaits w n) j = slotOf w j := by intro j; unfold slotOf; rw [withdrawWaits_slots]
    have hpr : (abandonStages (withdrawWaits w n) n code).pairs = (withdrawWaits w n).pairs :=
      (abandonStages_changes (pt := fun x => !(x == Part.pairs)) (withdrawWaits w n) n code (Changes.refl _ _) (by decide) (by decide) (by decide) (by decide) (by decide) (by decide) (by decide) (by decide) (by decide) (by decide) (by decide) (by decide) (by decide) (by decide) (by decide) (by decide)).pairs.resolve_left (by decide)
    have hst := congrArg Slot.state ha.1
    have hfl := congrArg Slot.fault ha.1
    simp only at hst hfl
    refine ⟨⟨hst.trans (by rw [hsl]; exact hwn.1), hfl.trans (by rw [hsl]; exact hwn.2)⟩, fun j hj => ?_, fun p => ?_⟩
    · rw [ha.2 j hj, hsl, hwj j hj]
    · have hpp : pairOf (abandonStages (withdrawWaits w n) n code) p = pairOf (withdrawWaits w n) p := by unfold pairOf; rw [hpr]
      rw [hpp, ← hwp p]
      exact withdrawWaits_counts w n p
  unfold slotFault
  dsimp only
  rw [if_neg (by simp [h1, h2])]
  split
  · exact key _ rfl rfl
  · exact key _ rfl rfl

end Sys2Proof.Machine
end

