-- ==== Sys2Proof/Tests/Slice0.lean ====
section
/-! SUPPORT. Tests: an ill-formed command for each check of well-formedness, one state that meets the hypotheses of each clause of the
statements, and small steps whose outcome the spec's own numbers give. -/

namespace Sys2Proof.Tests

set_option Elab.async false

open Sys2Proof Sys2Proof.Machine

/-! ## Ill-formed commands -/

/-- R303: 64 slots. -/
theorem test_wf_slot : (Instr.loop 64).wf = false ∧ (Instr.loop 63).wf = true := by decide
/-- R315: 16 queues. -/
theorem test_wf_queue : (Instr.commandComplete 0 16).wf = false ∧ (Instr.commandComplete 0 15).wf = true := by decide
/-- R19: 256 pairs. -/
theorem test_wf_pair : (Instr.semDepthWrite .link 256 1).wf = false ∧ (Instr.signal (.made 0 256 true)).wf = false
    ∧ (Instr.semDepthWrite .link 255 1).wf = true := by decide
/-- R248: 16 pools. -/
theorem test_wf_pool : (Instr.poolInitComplete 16).wf = false ∧ (Instr.poolInitComplete 15).wf = true := by decide
/-- R359: two ports of eight lanes. -/
theorem test_wf_port_lane : (Instr.linkLoss 2).wf = false ∧ (Instr.laneTrained 0 8).wf = false ∧ (Instr.laneTrained 1 7).wf = true := by decide
/-- R1: eight dies. -/
theorem test_wf_die : (Instr.fedLeaveTimeout 8).wf = false ∧ (Instr.fedLeaveTimeout 7).wf = true := by decide
/-- R336: four cores, and five mailboxes. -/
theorem test_wf_core : (Instr.coreSleepEnter 4).wf = false ∧ (Instr.coreSleepEnter 3).wf = true
    ∧ (Via.window 4).wf = false ∧ (Via.mailbox 5).wf = false ∧ (Via.mailbox 4).wf = true ∧ (Instr.dictSegTimeout 5).wf = false := by decide
/-- R347: 256 sources. -/
theorem test_wf_source : (Instr.evtTake .link 0 256).wf = false ∧ (Instr.evtTake .link 0 255).wf = true := by decide
/-- R296: 384 banks. -/
theorem test_wf_bank : (Instr.bankOnRise 384).wf = false ∧ (Instr.bankOnRise 383).wf = true := by decide
/-- R45: eight prime sets. -/
theorem test_wf_set : (Instr.primeSetValidation 8 true).wf = false ∧ (Instr.primeSetValidation 7 true).wf = true := by decide
/-- R369: 1,024 queue pairs; R372: 4,096 regions. -/
theorem test_wf_qp_lr : (Instr.ackDelayExpiry 1024).wf = false ∧ (Instr.qpDisableDeadline true 4096).wf = false
    ∧ (Instr.qpDisableDeadline true 4095).wf = true ∧ (Instr.qpDisableDeadline false 1024).wf = false := by decide
/-- A value of its object's width. -/
theorem test_wf_fits : (Instr.watchdogEnableWrite .link 256).wf = false ∧ (Instr.watchdogEnableWrite .link 255).wf = true
    ∧ (Instr.slotFaultPropagation 0 65536 1).wf = false ∧ (Instr.slotFaultPropagation 0 0 8).wf = false ∧ (Instr.evtCfgWrite .link 0 (2 ^ 32)).wf = false := by decide
/-- R338: mailboxes, and a segment area of 2,048 bytes. -/
theorem test_wf_mailbox : (Instr.segment ⟨5, 0, 8, 0, 0, [], false, 0, 0⟩).wf = false ∧ (Instr.segment ⟨0, 0, 8, 2 ^ 64, 0, [], false, 0, 0⟩).wf = false
    ∧ (Instr.segment ⟨4, 0, 8, 0, 0, [], false, 0, 0⟩).wf = true := by decide
/-- R386: messages of 32 bytes. -/
theorem test_wf_message : (Instr.beat ⟨0, List.replicate 31 0, false⟩).wf = false ∧ (Instr.beat ⟨0, List.replicate 32 0, false⟩).wf = true
    ∧ (Instr.beat ⟨8, List.replicate 32 0, false⟩).wf = false := by decide
/-- R303: 64 bits of slots, 16 of a code. -/
theorem test_wf_elsewhere : (Instr.joblistRecordReturn 0 ⟨2 ^ 64, 0⟩).wf = false ∧ (Instr.joblistRecordReturn 0 ⟨0, 65536⟩).wf = false
    ∧ (Instr.joblistRecordReturn 0 ⟨0, 0x0F08⟩).wf = true := by decide
/-- R289: lines of 512 bytes. -/
theorem test_wf_line : (Instr.d2dLineReceived 1 0 0 (.line ⟨256, [], false⟩ 0 0 true) 0 0 0).wf = false
    ∧ (Instr.d2dLineReceived 1 0 0 (.line ⟨512, [(512, 0)], false⟩ 0 0 true) 0 0 0).wf = false
    ∧ (Instr.d2dLineReceived 1 0 0 (.line ⟨512, [(511, 0)], false⟩ 0 0 true) 0 0 0).wf = true := by decide
/-- An IPv4 packet to this engine's first MAC address, with no payload (R361). -/
def plainFrame : Frame := { fecCorrected := 0, fecFailed := 0, fcsOk := true, destMac := 2, tags := 0, etherType := 0x0800, operation := 0, target := 0
                            pauseTime := 0, ihl := 5, headerSum := true, fragment := false, protocol := 17, destIp := 0, udpPort := 4791, icrcOk := true
                            tver := 0, pkey := 0xFFFF, qpn := 0x100, srcIp := 0, ce := false, psn := 0, opcode := 0, va := 0, rkey := 0, dmaLen := 0
                            imm := 0, payload := [] }
/-- R361: the fields of a frame. -/
theorem test_wf_frame : (Instr.frameReceived 0 { plainFrame with ihl := 16 } 0).wf = false ∧ (Instr.frameReceived 0 { plainFrame with psn := 2 ^ 24 } 0).wf = false
    ∧ (Instr.frameReceived 0 plainFrame 0).wf = true := by decide
/-- R363: a request for taps has 15 bits. R71: 64 columns, 256 rows and 16 passes. -/
theorem test_wf_train_txa : (Instr.trainingFrameReceived 0 0 0 (2 ^ 15) false).wf = false
    ∧ (Instr.txaItemComplete 0 [⟨0, 0, [(64, 1)], []⟩] ⟨0, []⟩).wf = false ∧ (Instr.txaItemComplete 0 [⟨0, 256, [], []⟩] ⟨0, []⟩).wf = false
    ∧ (Instr.txaItemComplete 119 [⟨15, 255, [(63, 1)], []⟩] ⟨0, []⟩).wf = true := by decide
/-- R412: the three kinds of protected SRAM. -/
theorem test_wf_sram : (Instr.dlvPortWrite 0 (.failed 0 0)).wf = false ∧ (Instr.dlvPortWrite 0 (.failed 4 0)).wf = false
    ∧ (Instr.dlvPortWrite 8 .clean).wf = false ∧ (Instr.dlvPortWrite 7 (.failed 3 0)).wf = true := by decide
/-- R3: the units of each kind. -/
theorem test_wf_units : (Instr.unitSelftestComplete .txa [120]).wf = false ∧ (Instr.unitSelftestComplete .mdc [24]).wf = false
    ∧ (Instr.unitSelftestComplete .tok [47]).wf = true ∧ (Instr.bankUeLimit false 288).wf = false ∧ (Instr.rsvCallReturn 64 false).wf = false
    ∧ (Instr.sdxStallResume 96 0).wf = false ∧ (Instr.pinPulseEnd 4).wf = false ∧ (Instr.holdoffTimerExpiry 16).wf = false := by decide
/-- R6, R424: package kinds and straps. -/
theorem test_wf_straps : (Instr.bringupStrapLatch 3 0 0 0 0 0).wf = false ∧ (Instr.bringupStrapLatch 2 1 0 0 0 0).wf = false ∧ (Instr.bringupStrapLatch 8 1 7 0 0 0).wf = true
    ∧ (Instr.bringupStrapLatch 8 0 0 0 0 0).wf = false ∧ (Instr.bringupStrapLatch 2 0 0 1024 0 0).wf = false := by decide
/-- R303, R311, R100: sizes of records, banks and keys. -/
theorem test_wf_sizes : (Instr.encRootKeyWrite .link 0 []).wf = false ∧ (Instr.encRootKeyWrite .link 15 (List.replicate 32 0)).wf = true
    ∧ (Instr.encRootKeyWrite .link 16 (List.replicate 32 0)).wf = false ∧ (Instr.progBankWrite .link 2 []).wf = false
    ∧ (Instr.aliasRead 0 0 9 false 0 0).wf = false ∧ (Instr.bypass 256 []).wf = false := by decide

/-! ## States of the tests -/

/-- An engine alone in its package, in full-array mode, in service. -/
def up : State where
  boot := { fuses := some { packageKind := 8, arrayMode := 1, dieId := 0, memStrap := 0, mac0 := 2, mac1 := 4 }, latched := true
            pwrgood := true, inReset := false, pdAon := true, pdCcx := true, pdMem := true, pdCore := true, hclk := true
            ccxTested := true, linksDone := true, unitsTested := true }
  fed := { hcState := 3, lead := 0, admitted := 1, present := 1, engineState := 2, membersUsed := 1, health := 7, linksUp := 1
           version := 1, regWith := some 0 }
  objs := [(objKey 0x5001 1, 2 ^ 64 - 1), (objKey 0x5001 2, 2 ^ 56 - 1)]

/-- The same engine in a part with two members, as its lead. -/
def pair : State := { up with
  boot := { up.boot with fuses := some { packageKind := 8, arrayMode := 1, dieId := 0, memStrap := 0, mac0 := 2, mac1 := 4 } }
  fed := { up.fed with admitted := 3, present := 2, membersUsed := 3 } }

/-- An engine on die 1 of that part, a follower. -/
def follower : State := { pair with
  boot := { up.boot with fuses := some { packageKind := 8, arrayMode := 1, dieId := 1, memStrap := 0, mac0 := 2, mac1 := 4 } }
  fed := { pair.fed with hcState := 4 } }

/-- An engine of a part with two members whose head count is open. -/
def early : State := { pair with fed := { group := 0, membersUsed := 3, health := 7, linksUp := 1, hcState := 1 } }

/-- An engine whose units do not work yet. -/
def cold : State := {}

/-- The state a command leads to. -/
def after (c : Instr) (s : State) : State :=
  match exec c s with
  | .next t => t
  | _ => s

/-- A job runs in slot 0. -/
def job (x : Slot) : Slot := { x with state := .running, job := { x.job with stripe := 1 } }

/-- Slot 0 runs at a command, the first of program bank 0. -/
def run (w : Nat) (x : Slot) : State := { setSlot up 0 (job x) with mem := { up.mem with bank0 := cellsSet [] 0 (leBytes 16 w) } }

/-- A command word: its opcode, and the fields below. -/
def word (op rest : Nat) : Nat := op * 2 ^ 120 + rest

/-- Each condition of `Fetches`, decided. -/
theorem fetches {s : State} {n op : Nat} (h : (fetchTurn s n && decide ((slotOf s n).pc < 4096) && wOpcode (fetchedWord s n) == op
    && !badCommand (fetchedWord s n)) = true) : Fetches s n op := by
  simpa [Fetches, and_assoc] using h

theorem takesWindow {s : State} {c i k : Nat} {d : List Byte} (h : (dictServes s && decide (writeVerdict s (.window c) i k d = .go)
    && decide (d.length ≤ 8)) = true) : Takes s (.window c) i k d := by
  simp only [Bool.and_eq_true, decide_eq_true_eq] at h
  exact ⟨⟨h.1.1, fun _ e => by cases e⟩, h.1.2, fun _ _ => h.2⟩

theorem takesMailbox {s : State} {m i k : Nat} {d : List Byte} (h : (dictServes s && !(mailboxOf s m).busy && (mailboxOf s m).xfer.isNone
    && decide (writeVerdict s (.mailbox m) i k d = .go)) = true) : Takes s (.mailbox m) i k d := by
  simp only [Bool.and_eq_true, decide_eq_true_eq, Bool.not_eq_true', Option.isNone_iff_eq_none] at h
  exact ⟨⟨h.1.1.1, fun _ e => by cases e; exact ⟨h.1.1.2, h.1.2⟩⟩, h.2, fun _ e => by cases e⟩

/-! ## The whole machine -/

/-- QueueFront: both clauses. -/
theorem witness_QueueFront : up.pending = [] ∧ up.boot.hclk = true ∧ up.boot.inReset = false ∧ cold.boot.hclk = false := by decide

/-- EngineModeFixed, PairsStayBounded, MemoriesStayCanonical: a step from a state in service. -/
theorem witness_invariants : (match step up with
    | .next t => t.boot.timeBase == 1 && t.boot.fuses == up.boot.fuses
    | _ => false) = true ∧ up.boot.fuses.isSome = true := by decide +kernel
theorem witness_pairs_bounded : PairsBounded up := fun p => by show _ ≤ _; simp [pairOf, up, tblGet]
theorem witness_memories : up.mem.wf := by unfold Mems.wf; decide

/-- Reset runs: power, release, straps (R383, R384). -/
theorem test_reset_release : (after .resetRelease (after .pwrgoodRise State.reset)).boot.inReset = false := by decide

/-! ## The sequencer -/

/-- A LOOP over commands 1 to 3. -/
def loopWord : Nat := word opLoop (3 * 2 ^ 100 + 7)

/-- LoopsRun: entry with an immediate count, with count 0, from memory, and both faults. -/
theorem witness_LoopsRun_loop :
    (Fetches (run loopWord {}) 0 opLoop ∧ (slotOf (run loopWord {}) 0).loops.length < 4 ∧ (slotOf (run loopWord {}) 0).pc < wLoopEnd loopWord
      ∧ wLoopSrc loopWord = false ∧ fetchedWord (run loopWord {}) 0 = loopWord)
    ∧ (Fetches (run (loopWord + 2 ^ 115 - 3) {}) 0 opLoop ∧ wLoopSrc (loopWord + 2 ^ 115 - 3) = true ∧ wLoopCount (loopWord + 2 ^ 115 - 3) % 4 = 0)
    ∧ (Fetches (run loopWord { loops := [⟨0, 9, 1, 0⟩, ⟨0, 9, 1, 0⟩, ⟨0, 9, 1, 0⟩, ⟨0, 9, 1, 0⟩] }) 0 opLoop)
    ∧ (Fetches (run (word opLoop 7) {}) 0 opLoop ∧ wLoopEnd (word opLoop 7) ≤ (slotOf (run (word opLoop 7) {}) 0).pc) :=
  ⟨⟨fetches (by decide +kernel), by decide +kernel⟩, ⟨fetches (by decide +kernel), by decide +kernel⟩, fetches (by decide +kernel),
   fetches (by decide +kernel), by decide +kernel⟩
theorem witness_LoopsRun_count : (slotOf (run 0 { loopRead := some ⟨64, 3⟩ }) 0).loopRead = some ⟨64, 3⟩
    ∧ memPoisoned (run 0 { loopRead := some ⟨64, 3⟩ }) 64 4 = false ∧ memNat (run 0 { loopRead := some ⟨64, 3⟩ }) 64 4 = 0 := by decide +kernel
theorem witness_LoopsRun_endloop : Fetches (run (word opEndloop 0) { loops := [⟨0, 0, 2, 0⟩] }) 0 opEndloop
    ∧ Fetches (run (word opEndloop 0) {}) 0 opEndloop ∧ Fetches (run (word opEndloop 0) { loops := [⟨0, 1, 2, 0⟩] }) 0 opEndloop :=
  ⟨fetches (by decide +kernel), fetches (by decide +kernel), fetches (by decide +kernel)⟩
/-- R327: the body of a loop of 7 begins behind the LOOP. -/
theorem test_loop_enters : (slotOf (after (.loop 0) (run loopWord {})) 0).loops = [⟨1, 3, 7, 0⟩]
    ∧ (slotOf (after (.loop 0) (run loopWord {})) 0).pc = 1 := by decide +kernel
/-- R327: with count 0 the body is skipped. -/
theorem test_loop_skips : (slotOf (after (.loop 0) (run (word opLoop (3 * 2 ^ 100)) {})) 0).pc = 4 := by decide +kernel
/-- R327: the second of two rounds. -/
theorem test_endloop_repeats : (slotOf (after (.endloop 0) (run (word opEndloop 0) { loops := [⟨0, 0, 2, 0⟩] })) 0).loops = [⟨0, 0, 1, 1⟩] := by
  decide +kernel

/-- JumpSwitchHalt: a jump within and out of a loop, a switch with and without a bank armed and within a loop, a halt. -/
theorem witness_JumpSwitchHalt : Fetches (run (word opJump 5) {}) 0 opJump ∧ Fetches (run (word opJump 5) { loops := [⟨0, 4, 2, 0⟩] }) 0 opJump
    ∧ Fetches (run (word opJump 5) { loops := [⟨0, 5, 2, 0⟩] }) 0 opJump
    ∧ Fetches (run (word opSwitch 5) {}) 0 opSwitch ∧ Fetches (run (word opSwitch 5) { loops := [⟨0, 4, 2, 0⟩] }) 0 opSwitch
    ∧ Fetches (run (word opHalt 0) {}) 0 opHalt ∧ (run (word opHalt 0) {}).net.stages = [] :=
  ⟨fetches (by decide +kernel), fetches (by decide +kernel), fetches (by decide +kernel), fetches (by decide +kernel),
   fetches (by decide +kernel), fetches (by decide +kernel), by decide +kernel⟩
/-- R313: with a bank armed a SWITCH parks its slot. -/
theorem test_switch_parks : (slotOf (after (.switch 0) { run (word opSwitch 5) {} with seq := { armed := true } }) 0).state = .parked := by decide +kernel
/-- R309. -/
theorem test_halt : (slotOf (after (.halt 0) (run (word opHalt 0) {})) 0).state = .halted := by decide +kernel
/-- R320. -/
theorem test_jump : (slotOf (after (.jump 0) (run (word opJump 5) {})) 0).pc = 5 := by decide +kernel

/-- CommandsFetched: every row that queues a command, with room. -/
theorem witness_CommandsFetched : QueueRoom (run (word opTxa 0) {}) 0 0
    ∧ (∀ op ∈ [opSignal, opTxa, opForge, opDeliver, opKeyRegister, opKeyStream, opIngest, opBatch, opFetch, opAlloc, opFree],
        (fetchTurn (run (word op 0) {}) 0 && decide ((slotOf (run (word op 0) {}) 0).pc < 4096) && wOpcode (fetchedWord (run (word op 0) {}) 0) == op
          && !badCommand (fetchedWord (run (word op 0) {}) 0)) = true) := by
  unfold QueueRoom; decide +kernel
/-- CommandsFetched: the three kinds of WAIT. -/
theorem witness_CommandsFetched_wait : ∀ k ∈ [0, 1, 2],
    (fetchTurn (run (word opWait (k * 2 ^ 114)) {}) 0 && wOpcode (fetchedWord (run (word opWait (k * 2 ^ 114)) {}) 0) == opWait
      && !badCommand (fetchedWord (run (word opWait (k * 2 ^ 114)) {}) 0) && wWaitKind (fetchedWord (run (word opWait (k * 2 ^ 114)) {}) 0) == k) = true := by
  decide +kernel
/-- CommandsFetched: a full share, an unsound command, a fetch past the end. -/
theorem witness_CommandsFetched_other : ¬ QueueRoom { run (word opTxa 0) {} with objs := [(objKey 0x7000 6, 0)] } 0 0
    ∧ badCommand (fetchedWord (run 0 {}) 0) = true ∧ fetchTurn (run 0 {}) 0 = true ∧ (slotOf (run 0 { pc := 4096 }) 0).pc = 4096
    ∧ fetchTurn (run 0 { pc := 4096 }) 0 = true ∧ stalls { run (word opTxa 0) {} with objs := [(objKey 0x7000 6, 0)] } 0 = true
    ∧ (nextUnissued { run 0 {} with cmds := [{ id := 0, slot := 0, queue := 0, word := word opWait 0, index := 0, loops := [] }] } 0 0).any (fun c =>
        needsGrant c && !c.asked) = true := by
  unfold QueueRoom; decide +kernel
/-- R319: a word of zeros is no command. -/
theorem test_bad_command : (slotOf (after (.seqCommand 0) (run 0 {})) 0).fault = 0x0F01 := by decide +kernel

/-- A list being read. -/
def listed (x : ListRead) : State := run 0 { listRead := some x }
/-- JobListsAdmit: the command as an ADMITTER's home, as another's, and as no ADMITTER; its returns. -/
theorem witness_JobListsAdmit :
    Fetches (run (word opFetchlist 0) { job := { admitter := true } }) 0 opFetchlist
    ∧ Fetches { run (word opFetchlist 0) { job := { admitter := true } } with objs := [(objKey 0x7020 2, 8)] } 0 opFetchlist
    ∧ homeDie (slotOf (run (word opFetchlist 0) { job := { admitter := true } }) 0).job.stripe = dieId up
    ∧ homeDie (slotOf (setSlot (run (word opFetchlist 0) {}) 0 { state := .running, job := { admitter := true, stripe := 3 } }) 0).job.stripe
        = dieId pair
    ∧ (slotOf (listed ⟨0, 4, none, 0⟩) 0).listRead = some ⟨0, 4, none, 0⟩ ∧ memPoisoned (listed ⟨0, 4, none, 0⟩) 0 8 = false
    ∧ listGoesOn { listed ⟨0, 4, some 1, 0⟩ with objs := [(objKey 0x7020 2, 8)] } ⟨0, 4, some 1, 0⟩ 1 = true
    ∧ freeSlot (listed ⟨0, 4, some 1, 0⟩) 1 ⟨0, 0⟩ = some 1 ∧ freeSlot (listed ⟨0, 4, some 1, 0⟩) 1 ⟨2 ^ 64 - 1, 0⟩ = none :=
  ⟨fetches (by decide +kernel), fetches (by decide +kernel), by decide +kernel⟩
/-- JobListsAdmit: an engine of the stripe that is not its home. -/
theorem witness_JobListsAdmit_away : homeDie 1 ≠ dieId follower ∧ (slotOf (run (word opFetchlist 0) {}) 0).job.admitter = false
    ∧ Fetches (run (word opFetchlist 0) {}) 0 opFetchlist := ⟨by decide, by decide +kernel, fetches (by decide +kernel)⟩

/-- A command waiting in queue 0 of slot 0. -/
def queued (w : Nat) (c : Cmd → Cmd) : State := { run 0 {} with cmds := [c { id := 0, slot := 0, queue := 0, word := w, index := 0, loops := [] }] }
/-- CommandsIssue: a held wait, each kind of command, a block beyond 2^48, and a bad offset. -/
theorem witness_CommandsIssue : unitsWork (queued 0 id) = true
    ∧ (nextUnissued (queued (word opWait 0) id) 0 0).any needsGrant = true
    ∧ (nextUnissued (queued (word opWait (2 * 2 ^ 114)) id) 0 0).any (fun c => !needsGrant c) = true
    ∧ (nextUnissued (queued (word opSignal 0) id) 0 0).isSome = true
    ∧ (nextUnissued (queued (word opTxa 64) id) 0 0).any (fun c => !wWaitEn c.word && wOffset c.word % 64 == 0) = true
    ∧ memPoisoned (queued (word opTxa 64) id) 64 (blockBytes opTxa) = false
    ∧ (nextUnissued (queued (word opTxa 8) id) 0 0).any (fun c => wOffset c.word % 64 != 0) = true
    ∧ (nextUnissued (queued (word opForge (2 ^ 48 - 64)) id) 0 0).any (fun c => 2 ^ 48 < wOffset c.word + blockBytes opForge) = true
    ∧ slotBusy (queued 0 id) 0 = true := by decide +kernel
/-- CommandsIssue: an uncorrectable error in the state of a pair with users, and of a slot with a job. -/
theorem witness_CommandsIssue_ras : slotBusy (setPair (queued 0 id) 3 { users := [0] }) 0 = true ∧ (pairOf (setPair (queued 0 id) 3 { users := [0] }) 3).users = [0]
    ∧ unitsWork (setPair (queued 0 id) 3 { users := [0] }) = true := by decide +kernel
/-- R326: a time WAIT is issued before its delay. -/
theorem test_wait_issues : ((after (.commandIssue 0 0 0) (queued (word opWait (2 * 2 ^ 114 + 100)) id)).cmds.map (·.issued)) = [true] := by decide +kernel

/-- CommandCompletes: a finished wait, barrier, signal and work command, and a delay under way. -/
theorem witness_CommandCompletes :
    ∀ w ∈ [word opWait 0, word opWait (2 ^ 114), word opSignal 0, word opTxa 0, word opTxa (2 ^ 97), word opBatch 0],
      (firstCmd (queued w (fun c => { c with issued := true, done := true })) 0 0).any (fun c => c.issued && c.done && c.report.isNone
        && c.output.isNone) = true := by decide +kernel
theorem witness_CommandCompletes_time : ((queued (word opWait (2 * 2 ^ 114)) (fun c => { c with issued := true })).cmds.find? (fun c =>
    c.slot == 0 && c.queue == 0 && c.issued && !c.done && wOpcode c.word == opWait && wWaitKind c.word == 2)).isSome = true := by decide +kernel
/-- R20: a SIGNAL raises its pair's EMPTY when it completes, here beyond its depth. -/
theorem test_signal_overflows : (slotOf (after (.commandComplete 0 0) (queued (word opSignal 0) (fun c => { c with issued := true, done := true }))) 0).fault
    = 0x0F0B := by decide +kernel

/-- A pair of depth 2. -/
def two (x : Pair) : State := setPair (run 0 {}) 0 x
/-- SemaphoreWaitSignal, SemaphoreOverflow: the boundary of the depth, a wait held on the side signalled, and the other. -/
theorem witness_SemaphoreWaitSignal : (2 < 2 + 0 + 1) ∧ (pairOf (two { depth := 2, empty := 2 }) 0).depth = 2
    ∧ (pairOf (two { depth := 2, empty := 1 }) 0).empty + 0 < 2 ∧ (pairOf (two { depth := 2, empty := 1 }) 0).waits = []
    ∧ ((pairOf (two { depth := 2, empty := 0, waits := [⟨.cmd 0, 0, true⟩] }) 0).waits.find? (fun w => w.full == true)).isSome = true
    ∧ (slotOf (two {}) 0).state = .running ∧ (pairOf (two {}) 0).empty = 1 ∧ (pairOf (two {}) 0).full = 0 := by decide +kernel
/-- R20: FULL rises by 1. -/
theorem test_signal_full : (pairOf (after (.signal (.made 0 0 true)) (two { depth := 2, empty := 1 })) 0).full = 1 := by decide +kernel
/-- R19: depths 1 and 4,096 are taken, 0 and 4,097 are not, a pair in use is BUSY. -/
theorem witness_SemaphoreDepthSet : Takes up (.window 0) 0x71FF 1 (leBytes 2 4096) ∧ Takes up (.mailbox 0) 0x7100 1 (leBytes 2 1)
    ∧ writeVerdict up (.window 0) 0x7100 1 (leBytes 2 0) ≠ .go ∧ writeVerdict up (.window 0) 0x7100 1 (leBytes 2 4097) ≠ .go
    ∧ Takes (two { users := [0] }) (.window 0) 0x7100 1 (leBytes 2 8) ∧ (pairOf (two { users := [0] }) 0).users ≠ [] :=
  ⟨takesWindow (by decide +kernel), takesMailbox (by decide +kernel), by decide +kernel, by decide +kernel, takesWindow (by decide +kernel), by decide +kernel⟩
theorem test_sem_depth : (pairOf (after (.semDepthWrite (.window 0) 255 4096) up) 255).empty = 4096 := by decide +kernel

/-- JobsEnd: a halted job, a faulted one, and the propagation into each kind of slot. -/
def ended (st : SlotState) : State := setSlot up 0 { state := st, job := { stripe := 1 }, recAddr := some 0x1000 }
theorem witness_JobsEnd : (slotOf (ended .halted) 0).state = .halted ∧ (ended .halted).cmds = [] ∧ otherDies (ended .halted) = []
    ∧ (ended .halted).mdc.ctxs = [] ∧ heldTotal (ended .halted) 0 = (slotOf (ended .halted) 0).allocs.length
    ∧ homeDie 1 = dieId (ended .faulted) ∧ (slotOf (ended .faulted) 0).state = .faulted ∧ (slotOf (ended .parked) 0).state ≠ .idle
    ∧ (slotOf (ended .idle) 0).state = .idle
    ∧ isHome (setSlot follower 0 { state := .faulted, job := { stripe := 3 } }) 0 = false ∧ 0 = homeDie 3
    ∧ heldTotal (setPool (ended .halted) 0 { held := [(0, 1)] }) 0 ≠ 0 := by decide +kernel
/-- R309: a halted job's record says Ended, 3, in slot 0. -/
theorem test_job_end : (slotOf (after (.jobEnd 0 true) (ended .halted)) 0).state = .idle
    ∧ memBytes (after (.jobEnd 0 true) (ended .halted)) 0x1000 4 = [3, 0, 0, 0] := by decide +kernel
/-- R310: the fault of the stripe's other engines reaches the slot here. -/
theorem test_fault_propagates : (slotOf (after (.slotFaultPropagation 0 0x1203 0) (ended .running)) 0).fault = 0x1203 := by decide +kernel

/-- ProgramBanks: a swap, the write of either bank, and an arming that fails. -/
theorem witness_ProgramBanks : Takes up (.mailbox 0) 0x7001 2 (List.replicate 65536 0) ∧ Takes up (.mailbox 0) 0x7001 1 (List.replicate 65536 0)
    ∧ up.seq.active = 0 ∧ up.fed.electing = false ∧ (ended .parked).slots.all (fun e => e.2.state != .running) = true
    ∧ Takes up (.window 0) 0x7000 3 (leBytes 4 5) ∧ Takes pair (.window 0) 0x7000 3 (leBytes 4 5) ∧ otherDies pair = [1] :=
  ⟨takesMailbox (by decide +kernel), takesMailbox (by decide +kernel), by decide +kernel, by decide +kernel, by decide +kernel,
   takesWindow (by decide +kernel), takesWindow (by decide +kernel), by decide +kernel⟩
/-- ProgramBanks: the value that arms the inactive bank passes the write's checks, as every value of 32 bits does. -/
theorem witness_ProgramBanks_arms (c : Nat) : Takes up (.window 0) 0x7000 3 (leBytes 4 c) :=
  ⟨⟨by decide, fun _ h => by cases h⟩, rfl, fun _ _ => by simp [leBytes]⟩
/-- R313. -/
theorem test_bank_swap : (after .bankSwap { ended .parked with seq := { armed := true } }).seq.active = 1
    ∧ (slotOf (after .bankSwap { ended .parked with seq := { armed := true } }) 0).state = .running := by decide +kernel
/-- R311: bank 0 is active after reset, and refuses its image. -/
theorem test_active_bank_refused : objGet (after (.progBankWrite (.mailbox 0) 0 (List.replicate 65536 0)) up) 0x80F0 6 = 1 := by decide +kernel

/-- RootJobStarts: with no root job, with one in its slot, with admission stopped. -/
theorem witness_RootJobStarts : Takes up (.window 0) 0x7000 5 (leBytes 1 1) ∧ admissionStopped up = false ∧ memPoisoned up 0 256 = false
    ∧ freeSlot up 0 ⟨0, 0⟩ = some 0 ∧ up.seq.rootSlot = none
    ∧ Takes { setSlot up 0 { state := .running, root := true } with seq := { rootSlot := some 0 } } (.window 0) 0x7000 5 (leBytes 1 1)
    ∧ Takes { up with removal := { sag := true } } (.window 0) 0x7000 5 (leBytes 1 1) ∧ admissionStopped { up with removal := { sag := true } } = true :=
  ⟨takesWindow (by decide +kernel), by decide +kernel, by decide +kernel, by decide +kernel, by decide, takesWindow (by decide +kernel),
   takesWindow (by decide +kernel), by decide +kernel⟩
/-- RootJobStarts: a record that passes the checks of R306, for this engine alone. -/
theorem witness_RootJobStarts_admits : let s := memWrite up 40 [1]
    Takes s (.window 0) 0x7000 5 (leBytes 1 1) ∧ admissionStopped s = false ∧ memPoisoned s 0 256 = false
    ∧ freeSlot s (admissionOf (memBytes s 0 256)).stripe ⟨0, 0⟩ = some 0
    ∧ admitCode (arriving s (.window 0) 0x7000 5 (leBytes 1 1)) (memBytes s 0 256) (admissionOf (memBytes s 0 256)) ⟨0, 0⟩ = 0
    ∧ (admissionOf (memBytes s 0 256)).stripe.testBit (dieId s) = true :=
  ⟨takesWindow (by decide +kernel), by decide +kernel⟩
/-- R306: a record of zeros fails its checks. -/
theorem test_root_refused : (slotOf (after (.rootStart (.window 0) 1 ⟨0, 0⟩) up) 0).state = .idle := by decide +kernel

/-! ## The barrier and the package -/

/-- A delivery of slot 0 with scratchpad destinations, due for segment 1. -/
def owed (x : Dlv) : Dlv := { x with slot := 0, due := 1, scratch := true, local_ := true, dispatched := true }
/-- The delivery alone. -/
def oneItem (x : Dlv) : State := { up with dlv := { items := [x] } }
def anItem : Dlv := owed { id := 0, owner := .cmd 0, slot := 0, tag := 0, due := 1, scratch := true, local_ := true }
/-- Its line lies in bank 0, which has gone off under the handshake. -/
def parkedItem : State := { oneItem { anItem with ready := [{ addr := 0, space := 1, data := [], poison := false }] } with
  dlv := { items := [{ anItem with ready := [{ addr := 0, space := 1, data := [], poison := false }] }], banks := [(0, { parked := true, ack := true })] } }
/-- RestStop: ready at once, ready once the held lines are dropped, not ready; and before the head count. -/
theorem witness_RestStop : headCountClosed up = true ∧ unitsWork up = true ∧ up.dlv.arrived = false ∧ arrivalReady up = true
    ∧ arrivalReady parkedItem = false ∧ arrivalReady (recordTied parkedItem (dropHeld parkedItem)) = true
    ∧ arrivalReady (oneItem { anItem with flight := 1 }) = false ∧ (let s := oneItem { anItem with flight := 1 }
       arrivalReady (recordTied s (dropHeld s)) = false)
    ∧ headCountClosed early = false ∧ unitsWork cold = false := by decide +kernel
/-- R279, R282. -/
theorem test_barrier : objGet (after .barRelease up) 0x6801 3 = 1 ∧ (after (.engineArrive false 0) up).dlv.barArrive = true := by decide +kernel

/-- A message from die src to die dst. -/
def mail (ty src dst : Nat) (p : List Byte) : FedArrival := { link := 0, bytes := fedBytes ty src dst 0 p, copy := false }
/-- PackageMessages: the stop's messages, to the lead and from it. -/
theorem witness_PackageMessages_stop :
    pair.fed.lead = dieId pair ∧ follower.fed.lead ≠ dieId follower ∧ headCountClosed pair = true ∧ unitsWork pair = true
    ∧ msgSound (mail 6 1 0 (stopPayload 0 false)).bytes = true ∧ msgType (mail 6 1 0 (stopPayload 0 false)).bytes = 6
    ∧ msgDst (mail 6 1 0 (stopPayload 0 false)).bytes = dieId pair ∧ dieAdmitted pair 1 = true
    ∧ (fld (mail 6 1 0 (stopPayload 0 false)).bytes 10 1).testBit 7 = false
    ∧ (fld (mail 6 0 1 (stopPayload 0 true)).bytes 10 1).testBit 7 = true ∧ msgDst (mail 6 0 1 (stopPayload 0 true)).bytes = dieId follower
    ∧ msgSrc (mail 6 0 1 (stopPayload 0 true)).bytes = follower.fed.lead ∧ msgSound (mail 6 0 1 (stopPayload 0 true)).bytes = true
    ∧ (∀ d, d < 8 → pair.fed.admitted.testBit d = true → d ∈ [0, 1]) ∧ pair.fed.admitted.testBit 1 = true ∧ pair.fed.electing = false := by decide +kernel
/-- PackageMessages: the fates of R386, and the pieces of a forwarded write. -/
theorem witness_PackageMessages_fates : messageRow (.beat (mail 5 1 0 [])) = some (5, mail 5 1 0 []) ∧ unitsWork cold = false
    ∧ msgSound (List.replicate 32 0) = false ∧ msgSound (mail 5 1 0 []).bytes = true ∧ msgType (mail 5 1 0 []).bytes ≠ 6
    ∧ msgDst (mail 5 1 3 []).bytes ≠ dieId pair ∧ msgDst (mail 5 1 0xFF []).bytes = 0xFF ∧ msgSrc (mail 5 0 0xFF []).bytes = dieId pair
    ∧ msgHop (fedBytes 5 1 0xFF 7 []) = 7 ∧ msgType (mail 7 1 0 []).bytes = 7 ∧ dieAdmitted pair 1 = true ∧ dieAdmitted pair 2 = false := by decide +kernel
/-- A package write the other engine has not applied. -/
def packageWrite (l : LongWrite) : State := { pair with dict := { long := [l] } }
theorem witness_PackageMessages_write :
    ((packageWrite ⟨.window 0, 0x7001, 2, true, false, 0, 0⟩).dict.long.find? (fun l => l.index == 0x7001 && !l.othersDone)).any (·.localDone) = true
    ∧ ((packageWrite ⟨.window 0, 0x7001, 2, false, false, 0, 0⟩).dict.long.find? (fun l => l.index == 0x7001 && !l.othersDone)).any (fun l => !l.localDone) = true
    ∧ up.dict.long = []
    ∧ isPrimeImage 0x2100 1 = true ∧ isBusy (abortCode 8 0) = true ∧ isBusy 0 = false
    ∧ keptOf { up with dict := { up.dict with kept := [(0x2100, .set {})] } } 0x2100 = some (.set {}) ∧ keptOf up 0x2100 = none := by
  decide +kernel
/-- R285: the lead holds both arrivals and permits. -/
theorem test_release : (after (.fedArrive (mail 6 1 0 (stopPayload 0 false))) { pair with dlv := { arrivals := [0] } }).dlv.permitted = true
    ∧ (after (.fedArrive (mail 6 1 0 (stopPayload 0 false))) pair).dlv.permitted = false := by decide +kernel

/-- A faulted job that owes the poisoning of one line of each segment. -/
def poisoner (on : Bool) : State := { setSlot up 0 { state := .faulted, job := { stripe := 1, regions := [⟨0, 512, 0⟩] }, faultHorizon := some 0 } with
  dlv := { banks := [(0, { on := on })] } }
theorem witness_RegionPoisoned : (slotOf (poisoner true) 0).faultHorizon ≠ none ∧ unitsWork (poisoner true) = true ∧ poisonMay (poisoner true) 0 1 = true
    ∧ regionLines (poisoner true) 0 1 = [0] ∧ (bankOf (poisoner true) 0).on = true ∧ (bankOf { up with dlv := { banks := [] } } 0).on = false
    ∧ poisonMay (setSlot (poisoner true) 0 { slotOf (poisoner true) 0 with poisonedTo := 1 }) 0 2 = false
    ∧ (slotOf up 0).faultHorizon = none := by decide +kernel
/-- R283: the line of segment 1 is owed, poisoned and due with it. -/
theorem test_region_poisoned : (after (.regionPoisoning 0) (poisoner true)).dlv.items.map (fun x => (x.due, x.ready.map (fun l => (l.addr, l.poison))))
    = [(1, [(0, true)])] := by decide +kernel

/-! ## The units of the transform side -/

/-- A prime set of one prime, for N = 4,096 (R45). -/
def oneSet : PrimeSet := { log2n := 12, l := 1, recs := [{ q := 2147377153, psi := 1202012506 }] }
/-- PrimeSets: the image with and without users, and each check. -/
theorem witness_PrimeSets : Takes up (.mailbox 0) 0x2100 1 (List.replicate 2624 0) ∧ primeUsers up 0 = 0
    ∧ primeUsers (setSlot up 0 { state := .running, job := { primeSets := 1 } }) 0 = 1
    ∧ Takes (setSlot up 0 { state := .running, job := { primeSets := 1 } }) (.mailbox 0) 0x2100 1 (List.replicate 2624 0)
    ∧ validating up 0 = false ∧ validating (packageWrite ⟨.window 0, 0x2100, 1, false, false, 0, 0⟩) 0 = true
    ∧ primeCheck oneSet = none ∧ primeHeaderOk { oneSet with log2n := 11 } = false ∧ primeHeaderOk oneSet = true
    ∧ primeOk 12 (2147377153 - 2) = false ∧ primeOk 12 2147377153 = true ∧ rootOk 12 { q := 2147377153, psi := 1 } = false :=
  ⟨takesMailbox (by decide +kernel), by decide, by decide, takesMailbox (by decide +kernel), by decide +kernel⟩
/-- R47: the header of an empty image is refused with detail 0xFF. -/
theorem test_prime_check : primeCheck {} = some 0xFF ∧ primeCheck { oneSet with recs := oneSet.recs ++ oneSet.recs, k := 1 } = some 1 := by decide +kernel

/-- A slot with a TXA window of one tile, and an integer item in it. -/
def txaSlot : State := setSlot up 0 { state := .running, job := { stripe := 1, txaBase := 0, txaSize := 1 } }
def txaGood : TxaItem := { cmd := 0, slot := 0, p := txaBlock ([0, 1, 1, 0, 0, 0, 11] ++ leBytes 57 0) }
def txaWith (i : TxaItem) : State := { txaSlot with txa := { queue := [i] } }
/-- TransformItems: an item taken, refused for each reason, and held. -/
theorem witness_TransformItems : unitsDispatch txaSlot = true ∧ arbPick (txaWith txaGood) unitTxa [0] = some 0
    ∧ serviceList (txaWith txaGood) .txa ≠ [] ∧ freeUnit (txaWith txaGood) .txa = some 0 ∧ txaParamOk (txaWith txaGood) txaGood = true
    ∧ txaExtentsOk (txaWith txaGood) txaGood = true ∧ txaParamOk txaSlot { txaGood with p := { txaGood.p with mode := 5 } } = false
    ∧ txaExtentsOk txaSlot { txaGood with p := { txaGood.p with outAddr := 2 ^ 31 } } = false
    ∧ serviceList { up with objs := [] } .txa = [] ∧ up.txa.queue = [] := by decide +kernel
/-- TransformItems: no tile free. -/
theorem witness_TransformItems_busy :
    freeUnit { txaWith txaGood with objs := [(objKey 0x5001 1, 1)], txa := { queue := [txaGood], tiles := [(0, some txaGood)] } } .txa = none
    ∧ serviceList { txaWith txaGood with objs := [(objKey 0x5001 1, 1)], txa := { queue := [txaGood], tiles := [(0, some txaGood)] } } .txa = [0] := by
  decide +kernel
/-- TransformItems: a tile with its item. -/
def txaTile : State := { txaSlot with txa := { tiles := [(0, some txaGood)] } }
theorem witness_TransformItems_complete : tblGet none txaTile.txa.tiles 0 = some txaGood ∧ txaGood.p.init = 0
    ∧ txaInputPoisoned txaTile txaGood = false ∧ tblGet none up.txa.tiles 0 = none := by decide +kernel
/-- R72: the lowest tile takes the item. -/
theorem test_txa_dispatch : tblGet none (after .txaDispatch (txaWith txaGood)).txa.tiles 0 = some txaGood := by decide +kernel

/-- UnitsInService: an enable write that tests nothing, and one that tests a unit. -/
theorem witness_UnitsInService_enable : Takes up (.window 0) (enableIndex .rsv) (enableSub .rsv 0) (leBytes 8 0)
    ∧ testedUnits up .rsv 0 0 = []
    ∧ Takes { up with objs := [(objKey (enableIndex .rsv) (enableSub .rsv 0), 0)] } (.window 0) (enableIndex .rsv) (enableSub .rsv 0) (leBytes 8 1)
    ∧ testedUnits { up with objs := [(objKey (enableIndex .rsv) (enableSub .rsv 0), 0)] } .rsv 0 1 = [0] :=
  ⟨takesWindow (by decide +kernel), by decide +kernel, takesWindow (by decide +kernel), by decide +kernel⟩
theorem witness_UnitsInService_selftest :
    ((packageWrite ⟨.window 0, enableIndex .rsv, 1, false, true, 0, 3⟩).dict.long.find? (fun l => l.index == enableIndex .rsv && l.bits != 0 && !l.localDone)).isSome = true
    ∧ up.dict.long = [] ∧ ((List.range 128).filter (fun u => Nat.testBit 3 u)).filter (fun u => [1].contains u) = [1] := by decide
theorem witness_UnitsInService_limits : unitsWork up = true ∧ 119 < tilesFused up ∧ up.txa.stuck = [] ∧ 287 < pfgUnits
    ∧ (objGet up 0x9000 3).testBit 287 = false ∧ tilesFused up ≤ 120 ∧ pfgUnits ≤ 288 ∧ up.boot.hclk = true := by decide +kernel
/-- R73: a unit that fails its self-test is retired. -/
theorem test_selftest_fails : objGet (after (.unitSelftestComplete .rsv [1]) (packageWrite ⟨.window 0, enableIndex .rsv, 1, false, true, 0, 3⟩)) 0x9010 5 = 1 := by
  decide +kernel

/-- The objects of pool 0: 64 buffers of 64 KiB, a margin of 8 (R248). -/
def poolObjs : Tbl Nat := up.objs ++ [(objKey 0x6100 2, 16), (objKey 0x6100 3, 64), (objKey 0x6100 4, 8), (objKey 0x6100 5, 0x100000),
  (objKey 0x6100 6, 0x800000), (objKey 0x6100 7, 0x900000)]
/-- Slot 0 runs with the pool in a state. -/
def pooled (x : Pool) : State := { setSlot up 0 { state := .running, job := { stripe := 1, primeSets := 1, encRoots := 1, pfgSize := 1 } } with
  objs := poolObjs, pools := { tbl := [(0, x)] }, sets := [(0, { oneSet with valid := true, fingerprint := 7 })] }
def aPool : Pool := { enabled := true, cache := [5, 4], inRing := 62, reserved := [(0, 4)] }
/-- A request of slot 0 has been answered. -/
def answered (size code : Nat) : State := { pooled aPool with pools := { tbl := [(0, aPool)], answers := [⟨0, size, code, 0x100000⟩] } }

/-- A noise item that needs nothing but the trail generator, and one that encrypts. -/
def forgeGood : ForgeItem := { cmd := 0, slot := 0, p := { forgeBlock (leBytes 128 0) with
  deltaExp := 16, batch := 1, noise := 1, temp := 0x3F800000, noiseCount := 1, outAddr := 2 ^ 63 } }
def forgeWith (i : ForgeItem) (s : State) : State := { s with forge := { queue := [i] } }
/-- ForgeItems: taken with its buffer, waiting for it, retried, refused by the pool and by its parameters, and the forge at work. -/
theorem witness_ForgeItems : unitsDispatch (pooled aPool) = true
    ∧ forgeReady (forgeWith forgeGood (pooled aPool)) 0 = true ∧ arbPick (forgeWith forgeGood (pooled aPool)) unitForge [0] = some 0 ∧ forgeRefusal (pooled aPool) 0 forgeGood.p = 0
    ∧ forgeRefusal (pooled aPool) 0 { forgeGood.p with deltaExp := 15 } = 0x0401
    ∧ forgeGood.p.batch * (forgeN (pooled aPool) forgeGood.p / 2) * 32 = 65536
    ∧ (needBuffer (answered 65536 0) 0 65536).1 = some (0, 0x100000) ∧ (needBuffer (answered 65536 0x0C08) 0 65536).1 = some (0x0C08, 0x100000)
    ∧ (needBuffer (pooled { aPool with enabled := false }) 0 65536).1 = some (0x0C01, 0)
    ∧ (needBuffer (pooled { aPool with cache := [], refill := true }) 0 65536).1 = none := by decide +kernel
/-- A forge item in work. -/
def forging (r : ForgeRun → ForgeRun) : State := { pooled aPool with forge := { run := some (r { item := forgeGood, work := 0x100000 }) } }
/-- ForgeItems: an item that encrypts; the key of a root named and not named. ForgeVerdicts: each verdict. -/
theorem witness_ForgeItems_start : ({ forgeGood.p with output := 1 } : ForgeParams).output = 1 ∧ forgeGood.p.output ≠ 1
    ∧ Takes up (.mailbox 0) 0x5410 1 (List.replicate 32 0) ∧ rootUsers up 0 = 0 ∧ rootUsers (pooled aPool) 0 = 1
    ∧ Takes (pooled aPool) (.mailbox 0) 0x5410 1 (List.replicate 32 0) :=
  ⟨by decide, by decide +kernel, takesMailbox (by decide +kernel), by decide, by decide, takesMailbox (by decide +kernel)⟩
/-- ForgeVerdicts: the verdicts of the FFT unit and of a limb, of an item spoiled and of one failed; array items still at work. -/
theorem witness_ForgeVerdicts : unitsWork (forging id) = true ∧ noiseReady (forging id) forgeGood 0 = true ∧ working (forging id) (.forge 0) = false
    ∧ ((forging (fun r => { r with limbRetried := true, fftRetried := true })).forge.run.any (fun r => !r.fftDone && !r.fftFailed && r.fftRetried && !r.spoiled)) = true
    ∧ ((forging (fun r => { r with fftDone := true, spoiled := true })).forge.run.any (fun r => r.fftDone && r.spoiled)) = true
    ∧ ((forging (fun r => { r with fftFailed := true })).forge.run.any (·.fftFailed)) = true
    ∧ working { forging id with txa := { work := [⟨0, 0, .forge 0, 4, 1, 1, 1, 0⟩] } } (.forge 0) = true := by decide +kernel
/-- ForgeVerdicts: the residue check of the special FFT, of its steps and of a limb, with a fault of a step and without. -/
theorem witness_ForgeVerdicts_checks : (fftUnit 0 12 ⟨0, 0, 0, 0, 0⟩ [] []).ok = true
    ∧ (fftUnit 0 12 ⟨0, 0, 0, 0, 0⟩ [⟨.round, 1, 8190, 0⟩] [(5, 1)]).ok = false
    ∧ (stageElem (5 * 2 ^ 72) 0).2 = true ∧ (stageElem (5 * 2 ^ 72) 1).2 = false
    ∧ (roundElem 0 ⟨0, 0, 0, 0, 0⟩ [] 3 40000).2 = true ∧ (roundElem 0 ⟨0, 0, 0, 0, 0⟩ [⟨.round, 3, 1, 0⟩] 3 40000).2 = false
    ∧ (checkedTile [2] 2 { q := 17, psi := 4, qMod := 17 } [] [3, 5]).2 = true
    ∧ (checkedTile [2] 2 { q := 17, psi := 4, qMod := 17 } [⟨.split, 1, 1, 0⟩] [3, 5]).2 = false := by decide +kernel
/-- R89, R90: position j holds the polynomial at psi^e(j), here 3 + 5·4 and 3 + 5·4^3 modulo 17. -/
theorem test_checked_tile : (checkedTile [2] 2 { q := 17, psi := 4, qMod := 17 } [] [3, 5]).1 = [6, 0] := by decide +kernel
/-- R100: the root's key. -/
theorem test_enc_root : (rootOf (after (.encRootKeyWrite (.mailbox 0) 3 (List.replicate 32 7)) up) 3).valid = true := by decide +kernel
/-- R91: the limb of an FFT that failed twice is written poisoned and counted, and the item's only plaintext is done. -/
theorem test_forge_fails : let s := after (.forgeLimbVerdict false []) (forging (fun r => { r with fftFailed := true }))
    objGet s 0x8040 5 = 1 ∧ objGet s 0x8040 8 = 1 ∧ s.forge.run = none ∧ s.mem.pfgPoison.contains 0 = true := by decide +kernel

/-- A key's directory entry 0. -/
def keyEntry : KeyEntry := { seed := List.replicate 32 1, payload := 0x200000, galois := 0, fingerprint := 7, objectTag := 0, status := 0, log2n := 12
                             set := 0, kind := 1, digits := 1, alpha := 1, valid := true }
def keyItem : KeyItem := { cmd := 0, slot := 0, tag := 0, p := { keyBlock (leBytes 32 0) with digitCount := 1, limbCount := 1, allot := 4, sliver := 0xFF } }
/-- The directory of one entry, and an item. -/
def keyed (e : KeyEntry) (r : List Region) : State :=
  let s := setSlot (pooled aPool) 0 { state := .running, job := { stripe := 1, primeSets := 1, regions := r } }
  let s := { s with objs := up.objs ++ [(objKey 0x5800 0x10, 0x400000), (objKey 0x5800 0x11, 1)]
                    sdx := { keyQueue := [keyItem] } }
  memWrite s 0x400000 (keyEntryBytes e)
/-- Keys: an item refused, one that has no place, and one that starts. -/
theorem witness_Keys_stream : unitsDispatch (keyed keyEntry []) = true ∧ keyCode (keyed { keyEntry with valid := false } []) keyItem = 0x0604
    ∧ keyCode (keyed keyEntry []) keyItem = 0 ∧ keyPlaceCode (keyed keyEntry []) keyItem = 0x0E01
    ∧ keyCode (keyed keyEntry [⟨0, 0x100000, 0⟩]) keyItem = 0 ∧ keyPlaceCode (keyed keyEntry [⟨0, 0x100000, 0⟩]) keyItem = 0
    ∧ keyUnits (keyed keyEntry [⟨0, 0x100000, 0⟩]) keyItem ≤ (sharedFree (keyed keyEntry [⟨0, 0x100000, 0⟩])).length
    ∧ arbPick (keyed keyEntry []) unitKey [0] = some 0 ∧ firstKey (keyed keyEntry []) 0 = some keyItem := by decide +kernel
/-- Keys: a registration whose container is no container. -/
def registering : State := { queued (word opKeyRegister 0) id with sdx := { regs := [⟨0, 0, 0x1FC0, 0⟩] } }
theorem witness_Keys_register :
    (registering.sdx.regs.find? (fun r => r.slot == 0 && (cmdOf registering r.cmd).any (fun c => c.queue == 0))).isSome = true
    ∧ registerCode (queued (word opKeyRegister 0) id) ⟨0, 0, 0x1FC0, 0⟩ = 0x0201 := by decide +kernel

/-- A stream of slot 0, and a lane at work on it. -/
def aStream : Stream := { slot := 0, use := .ctLimb 0 0, input := List.replicate 38 0, q := 0, len := 336, ready := true }
def aLane : LaneRun := { stream := aStream, state := List.replicate 25 0 }
def laned (x : Sdx) : State := { up with sdx := x }
/-- SeedLanes. -/
theorem witness_SeedLanes : freeUnit up .sdx = some 0 ∧ arbPick (laned { streams := [aStream] }) unitSdx [0] = some 0
    ∧ freeUnit { up with objs := [(objKey 0x5800 3, 0), (objKey 0x5800 4, 0)] } .sdx = none
    ∧ tblGet none (laned { lanes := [(0, some aLane)] }).sdx.lanes 0 = some aLane
    ∧ tblGet none (laned { lanes := [(0, some { aLane with stalled := true })] }).sdx.lanes 0 = some { aLane with stalled := true }
    ∧ bufferFull up 0 aLane = false ∧ bufferFull (laned { held := [(0, 8)] }) 0 aLane = true
    ∧ (laned { moved := [aLane] }).sdx.moved = [aLane] ∧ unitsWork (laned {}) = true
    ∧ ({ aStream with use := .noise 0 0 0 } : Stream).use = .noise 0 0 0 := by decide +kernel
/-- R122: a first disagreement on a lane. -/
theorem test_lane_mismatch : objGet (after (.sdxPermutationDone 0 true 0) (laned { lanes := [(0, some aLane)] })) 0x8060 0x10 = 1 := by decide +kernel
/-- R119: a block of 168 bytes is released. -/
theorem test_lane_block : ((tblGet none (after (.sdxPermutationDone 0 false 0) (laned { lanes := [(0, some aLane)] })).sdx.lanes 0).map (fun r => r.got.length)) = some 168 := by
  decide +kernel

/-- RandomCalls: a call taken, an unlisted purpose, no core; a return of each kind. -/
theorem witness_RandomCalls : unitsWork txaSlot = true ∧ slotBusy txaSlot 0 = true ∧ purposeListed 1 = true ∧ purposeListed 0xFF = true ∧ purposeListed 0 = false ∧ purposeListed 0x201 = true ∧ purposeListed 0x202 = false
    ∧ freeUnit txaSlot .rsv = some 0 ∧ serviceList { up with objs := [(objKey 0x5C00 4, 0)] } .rsv = []
    ∧ tblGet none { up with rsv := { cores := [(0, some ⟨0, 1, 2, false, none⟩)] } }.rsv.cores 0 = some ⟨0, 1, 2, false, none⟩
    ∧ tblGet none { up with rsv := { cores := [(0, some ⟨0, 1, 2, true, none⟩)] } }.rsv.cores 0 = some ⟨0, 1, 2, true, none⟩ := by decide +kernel
/-- R148: purpose 0x0202 is not listed. -/
theorem test_rsv_purpose : (slotOf (after (.rsvCall 0 0x202 0 0 0) txaSlot) 0).fault = 0x0701 := by decide +kernel
/-- R158: a second disagreement retires the core. -/
theorem test_rsv_retires : (objGet (after (.rsvCallReturn 0 true) { up with rsv := { cores := [(0, some ⟨0, 1, 2, true, none⟩)] } }) 0x5C00 4).testBit 0 = false := by
  decide +kernel

/-! ## The data side -/

/-- An image sample of one byte, and a video one. -/
def imageItem : DecodeItem := { slot := 0, format := 1, sample := 0, addr := 0x10000, len := 1, crc := crc32c [0], stream := none, opn := false, close := false
                                entry := 0, refresh := 1, stats := 0 }
def videoItem : DecodeItem := { imageItem with format := 4, stream := some 0 }
def decoding (x : Mdc) : State := { pooled aPool with mdc := x }
def openCtx : Tbl Ctx := [(0, { opn := true })]
/-- Decoding: an image and a video item taken, one refused. -/
theorem witness_Decoding_dispatch : unitsDispatch (decoding {}) = true
    ∧ arbPick (decoding { queue := [imageItem] }) unitImage (decodeSlots (decoding { queue := [imageItem] }) false) = some 0
    ∧ nextDecode (decoding { queue := [imageItem] }) false 0 = some imageItem
    ∧ arbPick (decoding { queue := [videoItem], ctxs := openCtx }) unitImage (decodeSlots (decoding { queue := [videoItem], ctxs := openCtx }) false) = none
    ∧ arbPick (decoding { queue := [videoItem], ctxs := openCtx }) unitVideo (decodeSlots (decoding { queue := [videoItem], ctxs := openCtx }) true) = some 0
    ∧ decodeParamsOk (decoding {}) { imageItem with format := 6 } = false ∧ decodeParamsOk (decoding {}) imageItem = true
    ∧ freeImageCore (decoding {}) = some 0 ∧ decodeParamsOk (decoding { ctxs := openCtx }) videoItem = true
    ∧ decodeParamsOk (decoding {}) { videoItem with opn := true } = true ∧ freeCtx (decoding {}) = some 0 := by decide +kernel
/-- A JPEG header of 8 by 8 samples, an HEVC sequence of the same size, and the first picture of one. -/
def smallHeader : MediaHeader := .jpeg 0 8 8 8 [(1, 1)] false
def smallSequence : MediaHeader := .hevc 1 30 1 8 8 8 1 false
def firstPicture : PictureHead := { header := some smallSequence, order := 0, ordered := true, key := true, recovery := none, breaks := false, leading := false
                                    starts := true, shown := true, showable := false, width := 8, height := 8, cropLeft := 0, cropTop := 0
                                    codedWidth := 8, codedHeight := 8, units := [2] }
def imageRun : DecodeRun := { item := imageItem, cores := [0] }
def videoRun : DecodeRun := { item := videoItem, cores := [] }
/-- A picture of two decoding units, the first with core 16. -/
def halfRun : DecodeRun := { videoRun with cores := [16], header := some smallSequence, head := some firstPicture, taken := 1, buffer := some 0x100000 }
/-- Decoding: a header that fails and one that passes; a new picture, and one under way; a unit lost. -/
theorem witness_Decoding_start : unitsWork (decoding {}) = true ∧ headerCode (decoding {}) imageItem (.jpeg 3 8 8 8 [(1, 1)] false) = 0x0802
    ∧ headerCode (decoding {}) imageItem smallHeader = 0 ∧ smallHeader.progressive = false
    ∧ (decoding { runs := [imageRun] }).mdc.runs.find? (fun r => r.cores.contains 0 && r.header.isNone && r.code == 0 && !isVideo r.item.format) = some imageRun
    ∧ freeVideoCore (decoding { runs := [videoRun] }) = some 16
    ∧ pickRun (decoding { runs := [videoRun] }) (pictureRuns (decoding { runs := [videoRun] }) firstPicture) = some (videoRun, [0])
    ∧ (firstPicture.header.map (headerCode (decoding {}) videoItem)).getD 0 = 0
    ∧ (firstPicture.header.map (headerCode (decoding {}) { videoItem with format := 5 })).getD 0 ≠ 0
    ∧ (({ seeking := true } : Ctx).meet 4 firstPicture).isSome = true ∧ ({ seeking := true } : Ctx).meet 4 { firstPicture with key := false } = none
    ∧ (needBuffer (answered (shapeOf videoItem smallSequence).layout.total 0) 0 (shapeOf videoItem smallSequence).layout.total).1 = some (0, 0x100000)
    ∧ freeVideoCore (decoding { runs := [halfRun] }) = some 17
    ∧ pickRun (decoding { runs := [halfRun] }) (unitRuns (decoding { runs := [halfRun] }) true) = some (halfRun, [0])
    ∧ pickRun (decoding { runs := [halfRun] }) (unitRuns (decoding { runs := [halfRun] }) false) = none
    ∧ streamRun (decoding { runs := [videoRun] }) 0 = some videoRun ∧ memPoisoned (decoding {}) 0x10000 1 = false
    ∧ (ctxOf (decoding { ctxs := [(0, { seeking := true })] }) 0).seeking = true ∧ (ctxOf (decoding { ctxs := [(0, { seeking := false })] }) 0).seeking = false := by decide +kernel
/-- Decoding: a header judged already, a progressive JPEG before and after its coefficients have their buffer, a picture's only core. -/
theorem witness_Decoding_again :
    (decoding { runs := [{ imageRun with passed := some smallHeader }] }).mdc.runs.find? (fun r =>
      r.cores.contains 0 && r.header.isNone && r.code == 0 && !isVideo r.item.format) = some { imageRun with passed := some smallHeader }
    ∧ (MediaHeader.jpeg 2 8 8 8 [(1, 1)] false).progressive = true ∧ headerCode (decoding {}) imageItem (.jpeg 2 8 8 8 [(1, 1)] false) = 0
    ∧ imageItem.format = 1 ∧ imageRun.coef = none ∧ ({ imageRun with coef := some 0 } : DecodeRun).coef ≠ none
    ∧ (decoding { runs := [halfRun] }).mdc.runs.find? (fun r => isVideo r.item.format && r.cores.contains 16
        && (1 < r.cores.length || r.head.any (fun h => r.taken < h.unitTotal))) = some halfRun := by decide +kernel
/-- R178: core 17 takes the second unit of the picture. -/
theorem test_next_unit : (after (.mdcDecodingUnitStart 17 (.next true)) (decoding { runs := [halfRun] })).mdc.runs.map (fun r => (r.cores, r.taken))
    = [([16, 17], 2)] := by decide +kernel
/-- DecodedSamples: a picture of an image and of a video, and a sample's end. -/
theorem witness_DecodedSamples :
    ((decoding { runs := [{ imageRun with buffer := some 0, header := some smallHeader }] }).mdc.runs.find? (fun r =>
      r.cores == [0] && r.buffer.isSome)).any (fun r => !isVideo r.item.format && r.item.format != 3 && r.header.isSome) = true
    ∧ ((decoding { runs := [{ halfRun with taken := 2 }] }).mdc.runs.find? (fun r =>
      r.cores == [16] && r.buffer.isSome)).any (fun r => isVideo r.item.format && r.item.stream.isSome && r.head == some firstPicture) = true
    ∧ firstPicture.unitTotal = 2
    ∧ (endingRun (decoding { runs := [{ imageRun with frames := [0x100000], header := some smallHeader }] }) 0 none).any (fun r => r.header.isSome
      && r.code == 0 && r.frames != []) = true
    ∧ memPoisoned (decoding {}) 0x10000 1 = false ∧ crc32c (memBytes (decoding {}) 0x10000 1) = imageItem.crc
    ∧ crc32c (memBytes (decoding {}) 0x10000 1) ≠ imageItem.crc + 1 := by decide +kernel
/-- DecodedSamples: an area within a picture of 8 by 8, at its edge, and a block it meets. -/
theorem witness_DecodedSamples_concealed : inArea [⟨4, 4, 4, 4⟩] 7 7 = true ∧ inArea [⟨4, 4, 4, 4⟩] 3 7 = false
    ∧ (shapeOf imageItem smallHeader).compW 0 * (shapeOf imageItem smallHeader).compH 0 = 64 ∧ (shapeOf videoItem smallSequence).gridBlocks = 1
    ∧ areaBlocks (shapeOf videoItem smallSequence) [⟨7, 7, 1, 1⟩] = [0] := by decide +kernel
/-- R186: without an earlier picture a concealed sample is mid-grey; with one it is that picture's. -/
theorem test_conceal_plane : (concealPlane (shapeOf imageItem smallHeader) [⟨0, 0, 1, 1⟩] none 0 [9, 9]).take 2 = [128, 9]
    ∧ (concealPlane (shapeOf imageItem smallHeader) [⟨0, 0, 1, 1⟩] (some (fun _ _ _ => 7)) 0 [9, 9]).take 2 = [7, 9] := by decide +kernel
/-- R167: a payload CRC that differs. -/
theorem test_mdc_crc : objGet (after (.mdcSampleOutcome 0 none .complete [])
    (decoding { runs := [{ imageRun with frames := [0x100000], header := some smallHeader, item := { imageItem with crc := 1 } }] })) 0x8080 7 = 1 := by decide +kernel

/-- A batch stage of slot 0. -/
def aStage : BatStage := { cmd := 0, slot := 0, p := batchBlock (leBytes 128 0), waitLink := 0, waitEn := false, waitFull := false, sigLink := 0, sigEn := false
                           sigFull := false, prog := none, n := 0, buckets := [], epoch := 0 }
def staged (b : BatStage) (s : State) : State := { s with bat := { stages := [b] } }
def aProg : ShapeProg := { scale := [], mean := [], componentsOut := 1, layout := 0, outType := 1, matrix := 0, ops := [] }
/-- DecodedSamples: shaping without a program, with one, and the buffers it needs. -/
theorem witness_DecodedSamples_shape : (slotOf (decoding {}) 0).backoff = []
    ∧ (decoding { outcomes := [⟨0, 0, [], [], false, false⟩] }).mdc.outcomes.find? (fun d => d.slot == 0 && d.sample == 0) = some ⟨0, 0, [], [], false, false⟩
    ∧ (staged aStage (decoding {})).bat.stages.find? (fun b => b.slot == 0) = some aStage
    ∧ (staged { aStage with prog := some aProg } (decoding {})).bat.stages.find? (fun b => b.slot == 0) = some { aStage with prog := some aProg }
    ∧ reservationFits up 0 0 = false ∧ reservationFits (pooled aPool) 0 0 = true
    ∧ (needBuffer (pooled { aPool with cache := [], refill := true }) 0 0).1 = none ∧ 2 ≤ ([1, 2] : List Nat).length
    ∧ working (decoding {}) (.shape 0 0) = false ∧ working { up with txa := { work := [⟨0, 0, .shape 0 0, 0, 1, 1, 1, 0⟩] } } (.shape 0 0) = true := by
  decide +kernel

/-- A text of one byte. -/
def tokItem : TokItem := { slot := 0, sample := 0, addr := 0x10000, len := 1, crc := crc32c [0], gzip := false, policy := 0, mask := 0, bos := 0xFF, eos := 0xFF
                           maxTokens := 1, outType := 8, offsets := 0 }
def tokRun (r : TokRun → TokRun) : State := { pooled aPool with tok := { run := some (r { item := tokItem, buffer := 0x100000, text := 1, pieces := []
                                                                                          invalid := 0, corrupt := 0, replaced := false, raw := false }) } }
/-- The table is loaded. -/
def tabled (s : State) : State := { s with objs := [(objKey 0x4800 5, 1)] ++ up.objs, tok := { queue := [tokItem] } }
/-- Tokenising: the dispatch's three fates, a piece to merge, a text done, its CRC. -/
theorem witness_Tokenising : unitsDispatch (tabled up) = true ∧ (tabled up).tok.run = none ∧ arbPick (tabled up) unitTok [0] = some 0
    ∧ tokParamsOk up tokItem = false ∧ tokParamsOk (tabled (setSlot up 0 { state := .running, job := { usesTok := true } })) tokItem = true ∧ serviceList (tabled up) .tok ≠ []
    ∧ serviceList { up with objs := [(objKey 0x4800 9, 0)] } .tok = []
    ∧ (needBuffer (answered tokItem.bufferBytes 0) 0 tokItem.bufferBytes).1 = some (0, 0x100000)
    ∧ (needBuffer (pooled { aPool with cache := [], refill := true }) 0 tokItem.bufferBytes).1 = none
    ∧ ((tokRun id).tok.run.any (fun r => tokFull r && r.corrupt == 0)) = true
    ∧ ((tokRun (fun r => { r with pieces := [.bytes [(97, 0)]] })).tok.run.any (fun r => !tokFull r)) = true
    ∧ tokReady (tabled up) 0 = true ∧ reservationFits (pooled aPool) 0 tokItem.bufferBytes = true ∧ reservationFits up 0 tokItem.bufferBytes = false
    ∧ freeUnit (tabled up) .tok = some 0 ∧ ((tokRun (fun r => { r with pieces := [.bytes [(97, 0)]] })).tok.run.bind
        (nextPiece (tokRun (fun r => { r with pieces := [.bytes [(97, 0)]] })))) = some 0
    ∧ tblGet none (setPiece (tokRun (fun r => { r with pieces := [.bytes [(97, 0)]] })) 0 (some 0)).tok.cores 0 = some 0
    ∧ ((tokRun (fun r => { r with pieces := [.tokens [(1, 0), (2, 0)]] })).tok.run.any tokOverflows) = true
    ∧ (tokRun id).tok.draining = [] ∧ crc32c (memBytes (tokRun id) 0x10000 1) = tokItem.crc
    ∧ crc32c (memBytes (tokRun id) 0x10000 1) ≠ tokItem.crc + 1 := by decide +kernel
/-- Tokenising: the load with and without users, and an image that fails its first check. -/
theorem witness_Tokenising_table : Takes up (.window 0) 0x4800 4 (leBytes 1 1) ∧ tokUsers up = 0
    ∧ tokUsers (setSlot up 0 { state := .running, job := { usesTok := true } }) = 1
    ∧ Takes (setSlot up 0 { state := .running, job := { usesTok := true } }) (.window 0) 0x4800 4 (leBytes 1 1)
    ∧ ((packageWrite ⟨.window 0, 0x4800, 4, false, false, 0, 0⟩).dict.long.any (fun l => l.index == 0x4800 && l.sub == 4 && !l.localDone)) = true
    ∧ memPoisoned up 0 3716 = false ∧ tokCheck (memBytes up 0 64) false = some (1, 0) :=
  ⟨takesWindow (by decide +kernel), by decide, by decide, takesWindow (by decide +kernel), by decide +kernel⟩
/-- Batches: an assignment, a stop, nothing left, and no engine with room. -/
theorem witness_Batches_assign : homeStage (staged aStage txaSlot) 0 = some aStage ∧ unitsDispatch txaSlot = true
    ∧ homeStage (staged { aStage with stopped := true } txaSlot) 0 = some { aStage with stopped := true }
    ∧ leastLoaded txaSlot aStage = some 0 ∧ outstanding { aStage with p := { aStage.p with chunksAhead := 1 } } 0 < 1 ∧ aStage.reassign = []
    ∧ aStage.n ≤ 256 * aStage.nextChunk ∧ aStage.p.chunksAhead ≤ outstanding aStage 0 ∧ aStage.p.hostEntries = 0
    ∧ ({ aStage with reassign := [0] } : BatStage).reassign = 0 :: [] ∧ 256 * aStage.nextChunk < ({ aStage with n := 1 } : BatStage).n
    ∧ (needCalls txaSlot 0 (.chunk 0 0 0) 0).2 = true := by decide +kernel
/-- Batches: an engine of the stripe that is not the job's home. -/
theorem witness_Batches_member : let s := staged aStage (setSlot follower 0 { state := .running, job := { stripe := 3 } })
    homeStage s 0 = none ∧ memberStage s 0 = some aStage := by decide +kernel
/-- A stage of one sample in one bucket, its index at 0x20000, its chunk on this engine. -/
def oneSample : BatStage := { aStage with p := { aStage.p with indexAddr := 0x20000, hostRing := 0x30000, hostEntries := 1 }, n := 1
                                          buckets := [⟨100, 64, 1, 1, 0⟩], chunks := [(0, .engine 0)] }
/-- The sample is raw, of one byte. -/
def rawEntry : List Byte := let rest := leBytes 7 0 ++ leBytes 1 0x20 ++ leBytes 4 5 ++ leBytes 4 (crc32c [0]) ++ leBytes 4 1 ++ leBytes 8 0x10000
  leBytes 4 (crc32c rest) ++ rest
def indexed (b : BatStage) : State := memWrite (staged b txaSlot) 0x20040 rawEntry
/-- Batches: an outcome for each place a position can be in. -/
theorem witness_Batches_outcome : homeStage (indexed oneSample) 0 = some oneSample ∧ outcomeAt oneSample 0 = none
    ∧ excludedCode (indexed oneSample) oneSample 0 = 0 ∧ assignedDie oneSample 0 = some 0
    ∧ assignedDie { oneSample with chunks := [(0, .engine 1)] } 0 = some 1 ∧ assignedDie { oneSample with chunks := [] } 0 = none
    ∧ repeatAt oneSample 0 = none
    ∧ (repeatAt { oneSample with asm := [{ again := some { here := 0, seq := 0, sample := 0, source := 0, die := 0 } }] } 0).isSome = true
    ∧ (bucketAt oneSample ((positionBucket (indexed oneSample) oneSample 0).getD 0)).sampleBytes = 64
    ∧ (ownOutcome (indexed oneSample) oneSample 0).isSome = true ∧ excludedCode (staged oneSample txaSlot) oneSample 0 ≠ 0
    ∧ oneSample.n ≤ 1 := by decide +kernel
/-- Batches: a sample of work not finished has no outcome of its own. -/
def imageEntry : List Byte := let rest := leBytes 7 0 ++ leBytes 1 1 ++ leBytes 4 5 ++ leBytes 4 0 ++ leBytes 4 1 ++ leBytes 8 0x10000
  leBytes 4 (crc32c rest) ++ rest
theorem witness_Batches_waiting : (ownOutcome (memWrite (staged oneSample txaSlot) 0x20040 imageEntry) oneSample 0).isNone = true := by decide +kernel
/-- Batches: a record of the host ring done, timed out, and neither. -/
def hosted (state : Nat) : State := memWrite (indexed { oneSample with chunks := [(0, .host 0)] }) 0x30000 [BitVec.ofNat 8 state]
theorem witness_Batches_host : memNat (hosted 2) (hostRecord oneSample 0) 4 = 2 ∧ memNat (hosted 1) (hostRecord oneSample 0) 4 = 1
    ∧ memPoisoned (hosted 1) (hostRecord oneSample 0) 4 = false ∧ memNat (hosted 0) (hostRecord oneSample 0) 4 = 0
    ∧ hostChunks { oneSample with chunks := [(0, .host 0)] } = [(0, 0)] ∧ unitsDispatch (hosted 2) = true
    ∧ (homeStage (hosted 2) 0).isSome = true := by decide +kernel
/-- R244: a record whose time is up is marked 3. -/
theorem test_host_timeout : memBytes (after (.hostPoll 0 [0]) (hosted 1)) 0x30000 4 = [3, 0, 0, 0] := by decide +kernel
/-- R233: a result longer than its bucket's samples, and one whose copy was cut. -/
theorem test_raw_outcome : (outcomeAt (settleOutcome (indexed oneSample) oneSample 0 { code := 0, result := List.replicate 65 0 }).2 0).map (·.code) = some 0x0B05
    ∧ (outcomeAt (settleOutcome (indexed oneSample) oneSample 0 { code := 0, result := [0], poisoned := true }).2 0).map (·.code) = some 0x0E06 := by decide +kernel

/-! ## Pools -/

/-- PoolsInService: the enable checked, blocked, taken; the disable with jobs, with buffers and without. -/
theorem witness_PoolsInService : Takes (pooled {}) (.window 0) (poolIndex (pooled {}) 0) 1 [1] ∧ poolConfigCheck (pooled {}) 0 = 0
    ∧ poolConfigCheck up 0 ≠ 0 ∧ claimBlocked (pooled {}) (objKey 0x6100 1) [.region 0x100000 64] = none
    ∧ claimBlocked { up with dict := { claims := [⟨1, .region 0x100000 64⟩] } } (objKey 0x6100 1) [.region 0x100000 64] = some 1
    ∧ (poolOf (pooled aPool) 0).enabled = true ∧ Takes (pooled aPool) (.window 0) 0x6100 1 [0] ∧ poolReserved aPool ≠ 0
    ∧ poolReserved { aPool with reserved := [] } = 0 ∧ aPool.held = [] ∧ aPool.allocated = []
    ∧ (poolOf (pooled { starting := true }) 0).starting = true :=
  ⟨takesWindow (by decide +kernel), by decide +kernel, by decide +kernel, by decide +kernel, by decide +kernel, by decide +kernel,
   takesWindow (by decide +kernel), by decide +kernel⟩
/-- R249. -/
theorem test_pool_disable_busy : poolReserved (poolOf (after (.poolDisableWrite (.window 0) 0) (pooled aPool)) 0) = 4 := by decide +kernel

/-- A request of slot 0 that is blocked for margin. -/
def aWait : AllocReq := { slot := 0, size := 64, owner := .stage, reserved := false, blocked := true }
/-- PoolRequests: served, waiting, without a pool; a grant from the cache. -/
theorem witness_PoolRequests : slotBusy (pooled aPool) 0 = true ∧ slotBusy up 1 = false ∧ poolFor (pooled aPool) 65536 = some 0
    ∧ poolFor (pooled aPool) 65537 = none ∧ heldCount aPool 0 < reservation aPool 0
    ∧ reservation { aPool with reserved := [], held := [(0, 8)] } 0 ≤ heldCount { aPool with reserved := [], held := [(0, 8)] } 0
    ∧ poolMargin (pooled aPool) 0 ≤ marginInUse { aPool with reserved := [], held := [(0, 8)] } ∧ marginInUse aPool < poolMargin (pooled aPool) 0
    ∧ movableSlots (pooled { aPool with waits := [aWait] }) 0 = [0] ∧ arbPick (pooled { aPool with waits := [aWait] }) (unitPool 0) [0] = some 0
    ∧ nextPromised { aPool with waits := [{ aWait with granted := true, blocked := false }] } = some { aWait with granted := true, blocked := false }
    ∧ nextPromised aPool = none ∧ aPool.cache = [5, 4] ∧ aPool.ops = []
    ∧ stateLinePoisoned (pooled aPool) 0 5 = false ∧ poolStates (pooled aPool) 0 + 5 / 8 < 2 ^ 48 := by decide +kernel
/-- R251: the newest index, 5, of 64 KiB buffers at 0x100000. -/
theorem test_alloc : (after (.poolAllocRequest 0 100) (pooled aPool)).pools.answers = [⟨0, 100, 0, 0x150000⟩] := by decide +kernel
/-- R250: no pool holds it. -/
theorem test_alloc_none : (after (.poolAllocRequest 0 65537) (pooled aPool)).pools.answers = [⟨0, 65537, 0x0C01, 0⟩] := by decide +kernel

/-- PoolReturns: frees known and unknown, checks of a set and a clear bit, a refill, a spill, the deadlock time. -/
theorem witness_PoolReturns : bufferAt (pooled aPool) 0x150000 = some (0, 5) ∧ bufferAt (pooled aPool) 0x150001 = none ∧ checkCount aPool < 64 ∧ aPool.frees = []
    ∧ heldCount { aPool with held := [(0, 1)] } 0 ≠ 0 ∧ heldCount aPool 0 = 0
    ∧ stateBit (memWrite (pooled { aPool with ops := [.check 0 3] }) 0x900000 [8]) 0 3 = true ∧ cacheRoom aPool = true
    ∧ cacheRoom { aPool with cache := List.replicate 256 0 } = false ∧ aPool.quarantined = [] ∧ aPool.lost = 0 ∧ stateBit (pooled aPool) 0 3 = false
    ∧ (poolOf (pooled { aPool with refill := true }) 0).refill = true ∧ memPoisoned (pooled aPool) 0x800000 256 = false
    ∧ (poolOf (pooled { aPool with spill := [7] }) 0).spill = [7] ∧ memPoisoned (pooled aPool) (ringAddr (pooled aPool) 0 0 63) 4 = false ∧ objGet up 0x6000 3 * 2000 < 200001
    ∧ deadlockSlot (pooled { aPool with waits := [aWait] }) = some 0 ∧ deadlockSlot up = none := by decide +kernel
/-- R253: buffer 3 is free again. -/
theorem test_free_check : (poolOf (after (.poolFreeCheck 0 false) (memWrite (pooled { aPool with ops := [.check 0 3] }) 0x900000 [8])) 0).cache = [3, 5, 4] := by
  decide +kernel

/-! ## Deliveries -/

def aDesc : Desc := { base := 0x40000, version := 1, elemType := 1, rank := 1, space := 0, idxRole := 0, idxMode := 0, perm := [0], dims := [64], strides := [1]
                      fill := 0, idxAddr := 0, idxCount := 0, idxType := 0, idxDim := 0, rowsLog2 := 0, colsLog2 := 0, crc := 0, crcOk := true, reserved := true }
def reading : Dlv := { anItem with src := some aDesc, tiles := 1 }
/-- Deliveries: an item dispatched, a tile read, and the reasons it is not. -/
theorem witness_Deliveries_dispatch : unitsDispatch up = true
    ∧ firstUndispatched (oneItem { anItem with dispatched := false }) 0 = some { anItem with dispatched := false }
    ∧ unitsNeeded (oneItem anItem) { anItem with dispatched := false } ≤ (sharedFree (oneItem anItem)).length
    ∧ arbPick (oneItem { anItem with dispatched := false }) unitDlv [0] = some 0 ∧ dlvOf (oneItem reading) 0 = some reading
    ∧ reading.readsMemory = true ∧ reading.fetched < reading.tiles ∧ reading.fetched < reading.oldestTile + prefetchDepth (oneItem reading) 0
    ∧ anItem.readsMemory = false ∧ up.dlv.items = [] := by decide +kernel
/-- An item with a receiver on die 1. -/
def grouped (r : Remote) : Dlv := { anItem with group := [{ addr := 0, space := 1, data := [], poison := false }], remotes := [r] }
/-- Deliveries: a credit owed and not owed; a receiver stalled on, with the timer enabled. -/
theorem witness_Deliveries_credit :
    (grouped { die := 1, dst := 0, credits := 63, sent := 1 }).remotes.find? (fun r => r.die == 1 && r.dst == 0 && !r.own && !r.gone && (decide (0 < r.sent) || r.detached))
      = some { die := 1, dst := 0, credits := 63, sent := 1 }
    ∧ (grouped { die := 1, dst := 0 }).remotes.find? (fun r => r.die == 1 && r.dst == 0 && !r.own && !r.gone && (decide (0 < r.sent) || r.detached)) = none
    ∧ (∀ l, ((grouped { die := 1, dst := 0, credits := 63, sent := 1 }).linesFor 0)[0]? = some l → l.poison = false)
    ∧ stalledOn (oneItem (grouped { die := 1, dst := 0, credits := 0 })) (grouped { die := 1, dst := 0, credits := 0 }) ≠ []
    ∧ objGet { up with objs := [(objKey 0x6801 4, 1)] } 0x6801 4 ≠ 0 ∧ objGet up 0x6801 4 = 0 :=
  ⟨by decide +kernel, by decide +kernel, fun l h => by simp [grouped, Dlv.linesFor] at h; rw [← h], by decide +kernel, by decide +kernel, by decide +kernel⟩

/-- A line ready for port 0 in a bank. -/
def lined (on : Bool) : State := { up with dlv := { items := [{ anItem with ready := [{ addr := 0, space := 1, data := [(0, 7)], poison := false }] }], banks := [(0, { on := on })] } }
/-- ScratchpadPorts: a line that is written, one dropped, one accepted, one received; and a bank at its edges. -/
theorem witness_ScratchpadPorts : ((portPick (lined true) 0).map (fun e => e.2.2)) = some [0] ∧ portPick (lined true) 1 = none
    ∧ (bankOf (lined true) 0).on = true ∧ (bankOf (lined false) 0).on = false
    ∧ tblGet [] ({ up with dlv := { ports := [(0, [⟨7, { addr := 0, space := 1, data := [], poison := false }⟩])] } } : State).dlv.ports 0
      = [⟨7, { addr := 0, space := 1, data := [], poison := false }⟩]
    ∧ dlvOf up 7 = none ∧ tblGet [] up.dlv.ports 0 = []
    ∧ awayItem { up with dlv := { items := [{ anItem with owner := .remote 1 0 0, open_ := true }] } } 1 0 0
      = some { anItem with owner := .remote 1 0 0, open_ := true } := by decide +kernel
/-- R289: the byte is in the scratchpad. -/
theorem test_port_write : cellGet (after (.dlvPortWrite 0 .clean) (lined true)).mem.sp 0 = 7 := by decide +kernel
/-- R296: a request is acknowledged at once with no line in flight. -/
theorem test_bank_ack : bankOf (after (.bankPdReqAssert 383) up) 383 = { req := true, ack := true } := by decide +kernel

/-! ## The dictionary -/

/-- Mailbox 0 in a state. -/
def boxed (m : Mailbox) : State := { up with dict := { mailboxes := [(0, m)] } }
/-- WritesRefused: the write of an object, before service, at a busy mailbox, in a transfer, refused, and of a subindex not listed. -/
theorem witness_WritesRefused : writeRow up (.dictWrite (.window 0) 0x6000 1 [0, 0, 0, 0]) = some (.window 0, 0x6000, 1, [0, 0, 0, 0])
    ∧ dictServes cold = false ∧ dictServes up = true ∧ (mailboxOf (boxed { busy := true }) 0).busy = true
    ∧ (mailboxOf (boxed { xfer := some ⟨true, 0x2100, 1, 0, 8, 0, false, []⟩ }) 0).xfer ≠ none
    ∧ (match writeVerdict up (.window 0) 0x1000 1 [0] with
       | .abort c => c != 0
       | _ => false) = true := by decide +kernel
theorem witness_WritesRefused_may : MayAsk up (.mailbox 0) := ⟨by decide, fun _ h => by cases h; decide⟩
/-- ObjectsWritten: a plain object, over a window and over a link. -/
theorem witness_ObjectsWritten : Takes up (.window 0) 0x7020 1 (leBytes 8 0x1000) ∧ plainIndex 0x7020 = true ∧ dictServes up = true
    ∧ writeVerdict up .link 0x7020 1 (leBytes 8 0x1000) = .go ∧ dictServes cold = false :=
  ⟨takesWindow (by decide +kernel), by decide +kernel⟩
/-- R332: the value written is the value read. -/
theorem test_dict_write : objGet (after (.dictWrite (.window 0) 0x7020 1 (leBytes 8 0x1000)) up) 0x7020 1 = 0x1000 := by decide +kernel
/-- WindowAccesses: a read that aborts, one that answers, a write, an offset beyond the slots. -/
theorem witness_WindowAccesses : aliasSpace ≤ 0x08000000 ∧ aliasSpace ≤ aliasSpace + 0x1000 * 4 ∧ aliasSpace + 0x5000 < 2 ^ 28 ∧ (0x7020 * 2 ^ 11 + 8) < aliasSpace ∧ aliasIndex (0x7020 * 2 ^ 11 + 8) = 0x7020
    ∧ aliasSub (0x7020 * 2 ^ 11 + 8) = 1 ∧ reach up 0xF 0x7020 = .here ∧ readVerdict up 0x7020 1 = none ∧ isBlob 0x7020 1 = false
    ∧ (readVerdict up 0x7FFF 1).any (· != 0) = true ∧ ((objRow 0x7020 1).bind (·.ty.size)) = some 8
    ∧ writeVerdict up (.window 0) 0x7020 1 (leBytes 8 0x1000) = .go ∧ postedWrites up 0 = false ∧ headCountClosed up = true := by decide +kernel
/-- R337: a read of an object no table lists returns all ones. -/
theorem test_window_abort : tblGet 0 (after (.aliasRead 0 (0x7FFF * 2 ^ 11 + 8) 8 false 0 0) up).dict.readBack 0 = 2 ^ 64 - 1 := by decide +kernel

/-- A request word: OP, TARGET 0xF, the object, LEN. -/
def reqWord (op index sub len : Nat) : Nat := op * 2 ^ 56 + 0xF * 2 ^ 52 + sub * 2 ^ 40 + index * 2 ^ 24 + len
def request (op index sub len data : Nat) : MailboxWrite := ⟨0, 0, 8, reqWord op index sub len, data, [], false, 0, 0⟩
/-- Mailboxes: each request outside a transfer. -/
theorem witness_Mailboxes : reqOp (reqWord 1 0x7020 1 0) = 1 ∧ reqIndex (reqWord 1 0x7020 1 0) = 0x7020 ∧ reqSub (reqWord 1 0x7020 1 0) = 1
    ∧ reach up (reqTarget (reqWord 1 0x7020 1 0)) 0x7020 = .here ∧ readVerdict up 0x7020 1 = none ∧ (objValue up 0x7020 1).1.length = 8
    ∧ reqOp (reqWord 2 0x7020 1 8) = 2 ∧ reqOp (reqWord 3 0x7020 1 0) = 3 ∧ reqOp (reqWord 4 0x2100 1 0) = 4 ∧ reqOp (reqWord 5 0x2100 1 0) = 5
    ∧ verdictBy up (.mailbox 0) 0x2100 1 (fun r => lengthAbort r 2624) = .go := by decide +kernel
/-- A transfer is open. -/
def inTransfer (w : Bool) : State := boxed { xfer := some ⟨w, 0x2100, 1, 0xF, 8, 0, false, List.replicate 8 1⟩ }
/-- Mailboxes: within a transfer the cancel, each abort, a segment of a write and of a read. -/
theorem witness_Mailboxes_transfer : reqOp (reqWord 6 0x2100 1 0) = 6 ∧ reqIndex (reqWord 5 0x2100 2 8) = 0x2100 ∧ reqSub (reqWord 5 0x2100 2 8) ≠ 1
    ∧ reqToggle (reqWord 5 0x2100 1 8 + 2 ^ 48) = true ∧ reqToggle (reqWord 5 0x2100 1 8) = false ∧ reqTarget (reqWord 5 0x2100 1 8) = 0xF
    ∧ 8 < 0 + reqLen (reqWord 5 0x2100 1 9) ∧ reqLen (reqWord 5 0x2100 1 2048) ≤ 2048 ∧ 2048 < reqLen (reqWord 5 0x2100 1 2049)
    ∧ ((mailboxOf (inTransfer true) 0).xfer.any (fun x => x.write && x.total == 8)) = true ∧ reach (inTransfer false) 0xF 0x2100 = .here
    ∧ ((mailboxOf (inTransfer false) 0).xfer.any (fun x => !x.write && x.data.length == x.total)) = true ∧ (mailboxOf (inTransfer true) 0).busy = false := by
  decide +kernel
/-- R339: an expedited read of a job list's default. -/
theorem test_expedited_read : (mailboxOf (after (.expeditedRead (request 1 0x6000 3 0 0)) up) 0).data = 100 := by decide +kernel
/-- R340: the last segment of a read ends its transfer. -/
theorem test_segment_read : (mailboxOf (after (.segment (request 5 0x2100 1 8 0)) (inTransfer false)) 0).xfer = none
    ∧ (mailboxOf (after (.segment (request 5 0x2100 1 8 0)) (inTransfer false)) 0).last = true := by decide +kernel
/-- R341: the time without a segment aborts with TRANSFER detail 5. -/
theorem test_seg_timeout : (mailboxOf (after (.dictSegTimeout 0) (inTransfer true)) 0).abort = abortCode 0x0B 5 := by decide +kernel

/-! ## Events, timers and pins -/

/-- Source 128 with a configuration, in a state. -/
def evented (x : Src) : State := { up with evt := { srcs := [(128, x)] } }
/-- ENABLE, TARGET core 0. -/
def onCfg : Nat := 2 ^ 20 + 2 ^ 16
/-- EventsWritten: a source taken, ended with and without a latch, refused; and the words of R359. -/
theorem witness_EventsWritten : Takes (evented { cfg := onCfg, pending := true }) (.window 0) 0x7600 4 (leBytes 2 128)
    ∧ Takes (evented { cfg := onCfg, active := true }) (.window 0) 0x7600 5 (leBytes 2 128) ∧ Takes up (.window 0) 0x7600 4 (leBytes 2 256)
    ∧ Takes up (.window 0) 0x7700 0x20 (leBytes 4 1) ∧ Takes up (.window 0) 0x7700 0x37 (leBytes 4 1) ∧ Takes up (.window 0) 0x7700 0x47 (leBytes 4 1)
    ∧ Takes up (.window 0) 0x7700 0x4F (leBytes 4 1) ∧ (srcOf (evented { cfg := onCfg, pending := true }) 128).pending = true
    ∧ (srcOf (evented { cfg := onCfg, active := true }) 128).active = true ∧ (srcOf (evented { cfg := onCfg }) 128).target ≠ 0 :=
  ⟨takesWindow (by decide +kernel), takesWindow (by decide +kernel), takesWindow (by decide +kernel), takesWindow (by decide +kernel),
   takesWindow (by decide +kernel), takesWindow (by decide +kernel), takesWindow (by decide +kernel), by decide +kernel⟩
/-- R348: a source taken is active. -/
theorem test_evt_take : (srcOf (after (.evtTake (.window 0) 0 128) (evented { cfg := onCfg, pending := true })) 128).active = true := by decide +kernel
/-- R359: software raises source 128, bit 0 of word 4. -/
theorem test_evt_raise : (srcOf (after (.evtSwRaise (.window 0) 4 1) (evented { cfg := onCfg })) 128).pending = true := by decide +kernel
/-- EventsFire: not enabled, at once, held; a hold-off with a time and without; a core that sleeps with and without a pending source. -/
theorem witness_EventsFire : (srcOf up 0).enabled = true ∧ (srcOf (evented { cfg := 0 }) 128).enabled = false ∧ (srcOf (evented { cfg := onCfg }) 128).enabled = true
    ∧ (grpOf up 8).running = false ∧ objGet up 0x7508 1 < 2 ∧ objGet up 0x7508 2 = 0 ∧ targetAsleep up 1 = false
    ∧ objGet { up with objs := [(objKey 0x7508 1, 2)] } 0x7508 1 = 2
    ∧ (grpOf { up with evt := { grps := [(8, { running := true, limTime := 5 })] } } 8).running = true
    ∧ pendView (cutShort (setCore up 0 { sleeping := true })) 0 = []
    ∧ pendView (cutShort (setCore (evented { cfg := onCfg, pending := true }) 0 { sleeping := true })) 0 = [128] := by decide +kernel
/-- R354: a core asleep with a source pending is woken. -/
theorem test_wake : (coreOf (after (.coreSleepEnter 0) (evented { cfg := onCfg, pending := true })) 0).wake = true := by decide +kernel
/-- EventsConfigured: each write that is taken, and a resource that another object holds. -/
theorem witness_EventsConfigured : Takes up (.window 0) 0x74FF 1 (leBytes 4 onCfg) ∧ Takes up (.window 0) 0x750F 2 (leBytes 4 5)
    ∧ Takes up (.window 0) 0x7603 1 (leBytes 1 1) ∧ Takes up (.window 0) 0x6801 4 (leBytes 1 1) ∧ Takes up (.window 0) 0x2050 1 (leBytes 1 1)
    ∧ Takes up (.window 0) 0x2040 1 (leBytes 1 3) ∧ Takes up (.window 0) 0x2050 4 (leBytes 1 1)
    ∧ claimBlocked up (objKey 0x2040 1) [.pin 3] = none ∧ pinHeld up 1 = none
    ∧ claimBlocked { up with dict := { claims := [⟨objKey 0x2040 2, .pin 3⟩] } } (objKey 0x2040 1) [.pin 3] = some (objKey 0x2040 2)
    ∧ objGet up 0x2050 1 ≠ 1 ∧ objGet { up with objs := [(objKey 0x2050 1, 1)] } 0x2050 1 = 1 ∧ up.fed.electing = false :=
  ⟨takesWindow (by decide +kernel), takesWindow (by decide +kernel), takesWindow (by decide +kernel), takesWindow (by decide +kernel),
   takesWindow (by decide +kernel), takesWindow (by decide +kernel), takesWindow (by decide +kernel), by decide +kernel⟩
/-- R300: the watchdog's expiry fires source 5. -/
theorem test_watchdog : (srcOf (after .watchdogExpiry { up with objs := [(objKey 0x2050 1, 1)] }) 5).latch = true := by decide +kernel
/-- R345: a pin another object holds. -/
theorem test_pin_claimed : objGet (after (.epinAssignWrite (.window 0) 1 3) { up with dict := { claims := [⟨objKey 0x2040 2, .pin 3⟩] } }) 0x2040 1 = 0xFF := by
  decide +kernel

/-! ## Debug -/

def aRecord : TraceRec := { time := 1, kind := 9, unit := 0, slot := 63, code := 0, trigger := false, data1 := 0, data0 := 5 }
/-- A trace region of two records. -/
def traced (q : List TraceRec) (mode next : Nat) : State := { up with
  objs := up.objs ++ [(objKey 0xA000 2, 0x50000), (objKey 0xA000 3, 64), (objKey 0xA000 4, mode)], trace := { running := true, queue := q, next := next } }
/-- Debug: tracing enabled, refused and disabled, a mark, a record written in each mode, and the trigger. -/
theorem witness_Debug : Takes (traced [] 0 0) (.window 0) 0xA000 1 (leBytes 1 0) ∧ Takes (traced [] 0 0) (.window 0) 0xA000 8 (leBytes 8 5)
    ∧ objGet (traced [aRecord] 1 2) 0xA000 4 = 1 ∧ objGet (traced [aRecord] 1 2) 0xA000 3 / 32 ≤ (traced [aRecord] 1 2).trace.next
    ∧ objGet (traced [aRecord] 0 2) 0xA000 4 ≠ 1 ∧ (traced [{ aRecord with trigger := true }] 1 1).trace.next < 2 ∧ pinHeld up 2 = none
    ∧ pinHeld { up with dict := { claims := [⟨objKey 0x2040 2, .pin 1⟩] } } 2 = some 1 ∧ objGet up 0xA000 1 = 0
    ∧ claimBlocked up (objKey 0xA000 1) [traceRegion up] = none :=
  ⟨takesWindow (by decide +kernel), takesWindow (by decide +kernel), by decide +kernel⟩
/-- R419: record 2 of a region of two overwrites the first. -/
theorem test_trace_wraps : (after .traceRecordWrite (traced [aRecord] 0 2)).trace.next = 3
    ∧ memBytes (after .traceRecordWrite (traced [aRecord] 0 2)) 0x50000 8 ≠ memBytes up 0x50000 8 := by decide +kernel
/-- R419, R420: the record that fills the region in stop mode ends trace, and its TRIGGER fires source 210. -/
theorem test_trace_stops : let s := after .traceRecordWrite (traced [{ aRecord with trigger := true }] 1 1)
    s.trace.running = false ∧ (srcOf s 208).latch = true ∧ (srcOf s 210).latch = true := by decide +kernel
/-- R421: an instruction the port does not list selects BYPASS. -/
theorem test_bypass : tapReg (after (.bypass 0x7F []) up) = .bypass ∧ tapReg (after (.idcode []) up) = .idcode := by decide

/-! ## The network -/

/-- Port 0 in a state. -/
def ported (x : Port) : State := { up with net := { ports := [(0, x)] } }
/-- Port 0, not enabled. -/
def disabled0 (x : Port) : State := { ported x with objs := [(objKey 0x3010 1, 0)] ++ up.objs }
/-- PortsEnabled: every value on a port down and up, the deadline, quiescing. -/
theorem witness_PortsEnabled : Takes (disabled0 {}) (.window 0) 0x3010 1 (leBytes 1 1) ∧ Takes (ported { state := 3 }) (.window 0) 0x3010 1 (leBytes 1 0)
    ∧ Takes up (.window 0) 0x3010 1 (leBytes 1 0) ∧ Takes up (.window 0) 0x3010 1 (leBytes 1 1)
    ∧ portIndex 0 = 0x3010 ∧ objGet up 0x3010 1 = 1 ∧ objGet (disabled0 {}) 0x3010 1 = 0
    ∧ (portOf (ported { going := some (.window 0) }) 0).going ≠ none ∧ Takes up (.window 0) 0x3010 0x0A (leBytes 1 1)
    ∧ openOn up 0 = [] ∧ (portOf up 0).quiesced = false :=
  ⟨takesWindow (by decide +kernel), takesWindow (by decide +kernel), takesWindow (by decide +kernel), takesWindow (by decide +kernel),
   by decide +kernel, by decide +kernel, by decide +kernel, by decide +kernel, takesWindow (by decide +kernel), by decide +kernel⟩
/-- R367: a port enabled starts training. -/
theorem test_port_enable : (portOf (after (.portEnableWrite (.window 0) 0 1) (disabled0 {})) 0).state = 1 := by decide +kernel

/-- A training frame of a lane, sound, with every tap on hold. -/
def frameOf (lane : Nat) (ready : Bool) : Nat := trainFrame lane 0 [0, 0, 0, 0, 0] ready false
/-- A port that is down while SAG_STATE is set. -/
def sagging : State := { ported { tried := true } with removal := { sag := true } }
/-- PortsTrain. -/
theorem witness_PortsTrain : unitsWork up = true ∧ (portOf (ported { state := 1 }) 0).state = 1
    ∧ (frameOf 7 true / 2 ^ 48 % 2 ^ 16 == 0x4A5B) = true ∧ (frameOf 7 true / 2 ^ 45 % 8 == 7) = true ∧ trainCheckOk (frameOf 7 true) = true ∧ (frameOf 7 true).testBit 13 = false
    ∧ trainCheckOk (frameOf 7 true + 1) = false
    ∧ (tblGet {} (portOf (ported { state := 2, lanes := [(7, { training := true, ready := true, partnerReady := true })] }) 0).lanes 7) = { training := true, ready := true, partnerReady := true }
    ∧ (portOf (ported { state := 2, trained := 0x80 }) 0).trained ≠ 0 ∧ (portOf (ported { tried := true }) 0).tried = true
    ∧ (portOf (ported { lost := true }) 0).lost = true ∧ portEnabled up 0 = true ∧ headCountClosed up = true
    ∧ up.removal.sag = false ∧ (portOf up 0).heldDown = false ∧ (sagging.removal.sag && portEnabled sagging 0 && headCountClosed sagging) = true := by
  decide +kernel
/-- R365, R367: a port asked to train during a sag waits, and trains at SAG_RESUME; a retired lane that trains is retired no more. -/
theorem test_sag_training : portOf (after (.trainingRetry 0) sagging) 0 = { tried := true, waiting := true }
    ∧ (portOf (after (.sagResume (.window 0) 1) (after (.trainingRetry 0) sagging)) 0).state = 1
    ∧ (portOf (after (.laneTrained 0 7) (ported { state := 2, retired := 0x80, lanes := [(7, ⟨true, [], true, true, none⟩)] })) 0).retired = 0 := by
  decide +kernel
/-- R363: a sound frame is answered. -/
theorem test_training_frame : (after (.trainingFrameReceived 0 7 (frameOf 7 true) 0 false) (ported { state := 2, lanes := [(7, { training := true })] })).net.tx.length = 1 := by
  decide +kernel
/-- R364: a link comes up with the lanes trained. -/
theorem test_link_up : portOf (after (.portLinkUp 0 5) (ported { state := 2, trained := 0x80 })) 0 = { state := 3, lanesUp := 0x80, trained := 0x80, tried := true } := by
  decide +kernel

/-- LanesLost: one of two lanes, the last lane, a realignment, a lost link, and the lane masks. -/
theorem witness_LanesLost : (portOf (ported { state := 3, lanesUp := 3 }) 0).lanesUp.testBit 1 = true ∧ popCount 3 ≠ 1 ∧ popCount 2 = 1
    ∧ Nat.testBit 2 1 = true ∧ (portOf (ported { state := 3, realign := true, joining := 4 }) 0).realign = true ∧ (portOf up 0).state ≠ 3
    ∧ (portOf (ported { state := 3 }) 0).going = none ∧ Takes (ported { state := 3, lanesUp := 3 }) (.window 0) 0x3010 3 (leBytes 1 1)
    ∧ ((List.range 8).filter (fun l => Nat.testBit 3 l && !Nat.testBit 1 l)).length ≠ popCount 3
    ∧ ((List.range 8).filter (fun l => Nat.testBit 3 l && !Nat.testBit 4 l)).length = popCount 3 ∧ Takes up (.window 0) 0x3010 3 (leBytes 1 0xFF)
    ∧ Takes (ported { state := 3, lanesUp := 3 }) (.window 0) 0x3010 3 (leBytes 1 4) :=
  ⟨by decide, by decide, by decide, by decide, by decide, by decide, by decide, takesWindow (by decide +kernel), by decide, by decide,
   takesWindow (by decide +kernel), takesWindow (by decide +kernel)⟩
/-- R365: the lane is retired and DROP sent. -/
theorem test_lane_lost : (after (.laneLockLoss 0 1) (ported { state := 3, lanesUp := 3 })).net.tx = [(0, .train 1 (trainFrame 1 0 [] false true))] := by decide +kernel

/-- A RoCE packet for queue pair 0 (R368, R369). -/
def packet (f : Frame → Frame) : Frame := f { plainFrame with srcIp := 9, psn := 5, opcode := 0x0A, rkey := 7, dmaLen := 64, payload := [1] }
/-- Queue pair 0 of port 0 in a state. -/
def paired (x : Qp → Qp) : State := { up with objs := (objKey 0x3010 7, 2) :: up.objs, net := { ports := [(0, { state := 3, lanesUp := 1 })], qps := [(0, x { state := .ready, epsn := 5, remoteIp := 9 })] } }
/-- FramesReceived: each check of R368, and each place of a PSN. -/
theorem witness_FramesReceived : (portOf (paired id) 0).state = 3 ∧ (portOf (paired id) 0).openQ.length < 64 ∧ unitsWork (paired id) = true
    ∧ (packet (fun f => { f with fcsOk := false })).fcsOk = false ∧ macOk (paired id) 0 (packet id) = true
    ∧ macOk (paired id) 0 (packet (fun f => { f with destMac := 3 })) = false ∧ frameUse (paired id) 0 (packet id) = .packet
    ∧ frameUse (paired id) 0 { plainFrame with etherType := 0x0806, operation := 1 } = .address
    ∧ frameUse (paired id) 0 { plainFrame with etherType := 0x8808, operation := 0x0101 } = .pause
    ∧ frameUse (paired id) 0 { plainFrame with etherType := 1 } = .other ∧ frameUse (paired id) 0 { plainFrame with tags := 2 } = .other
    ∧ ipOk (paired id) 0 (packet id) = true ∧ ipOk (paired id) 0 (packet (fun f => { f with fragment := true })) = false
    ∧ udpOk (packet id) = true ∧ udpOk (packet (fun f => { f with udpPort := 4790 })) = false
    ∧ (packet id).udpPort = 4791 ∧ 0x100 ≤ (packet id).qpn ∧ (packet id).qpn ≤ 0x4FF ∧ 0x4FF < (packet (fun f => { f with qpn := 0x500 })).qpn
    ∧ (qpOf (paired id) 0).remoteIp = (packet id).srcIp ∧ (qpOf (paired id) 0).port = 0 ∧ (qpOf (paired id) 0).state = .ready
    ∧ ((packet id).psn + 2 ^ 24 - (qpOf (paired id) 0).epsn) % 2 ^ 24 = 0
    ∧ 2 ^ 23 ≤ ((packet (fun f => { f with psn := 4 })).psn + 2 ^ 24 - 5) % 2 ^ 24
    ∧ ((packet (fun f => { f with psn := 6 })).psn + 2 ^ 24 - 5) % 2 ^ 24 = 1
    ∧ opcodeOk (qpOf (paired id) 0) (packet id) = true ∧ opcodeOk (qpOf (paired id) 0) (packet (fun f => { f with opcode := 0x0C })) = false
    ∧ opensOperation (packet id).opcode = true ∧ addressed (paired id) 0 (packet id) = none
    ∧ opcodeOk (qpOf (paired (fun x => { x with cur := some (none, 0) })) 0) (packet (fun f => { f with opcode := 0x08 })) = true
    ∧ opensOperation 0x08 = false ∧ 0 < (qpOf (paired (fun x => { x with unacked := 1 })) 0).unacked := by decide +kernel
/-- R369: a packet ahead is answered with a PSN error NAK of the expected PSN, once. -/
theorem test_psn_ahead : (after (.frameReceived 0 (packet (fun f => { f with psn := 6 })) 0) (paired id)).net.tx = [(0, .nak 0 0x60 5 (qpOf (paired id) 0).path)] := by decide +kernel
/-- R369: no region takes the address. -/
theorem test_remote_access : (qpOf (after (.frameReceived 0 (packet id) 0) (paired id)) 0).state = .error := by decide +kernel

/-- QueuePairsEnabled: an entry of zeros fails its CRC; one that passes; a queue pair in use. -/
def entry (rest : List Byte) : List Byte := leBytes 4 (crc32c rest) ++ rest
def entried (e : List Byte) (s : State) : State := memWrite { s with objs := [(objKey 0x3001 1, 0x60000), (objKey 0x3001 2, 0x70000)] ++ up.objs } 0x60000 e
theorem witness_QueuePairsEnabled : Takes up (.window 0) 0x3001 3 (leBytes 2 0) ∧ memPoisoned up 0 64 = false ∧ entryCrcOk up 0 = false
    ∧ entryCrcOk (entried (entry (leBytes 60 0)) up) 0x60000 = true ∧ bitsOf (memNat (entried (entry (leBytes 60 0)) up) 0x60000 64) 247 33 = 0
    ∧ bitsOf (memNat (entried (entry (leBytes 60 0)) up) 0x60000 64) 265 264 = 0
    ∧ bitsOf (memNat (entried (entry (leBytes 60 2)) up) 0x60000 64) 247 33 ≠ 0 ∧ entryCrcOk (entried (entry (leBytes 60 2)) up) 0x60000 = true
    ∧ Takes (entried (entry (leBytes 60 0)) up) (.window 0) 0x3001 3 (leBytes 2 0) ∧ (qpOf up 0).state = .disabled ∧ (qpOf (paired id) 0).state ≠ .disabled
    ∧ Takes (paired id) (.window 0) 0x3001 4 (leBytes 2 0) ∧ Takes up (.window 0) 0x3001 5 (leBytes 2 0) ∧ lrCheck up 0 0 0 ≠ 0
    ∧ Takes { up with net := { lrs := [(0, { state := .enabled })] } } (.window 0) 0x3001 6 (leBytes 2 0) :=
  ⟨takesWindow (by decide +kernel), by decide +kernel, by decide +kernel, by decide +kernel, by decide +kernel, by decide +kernel, by decide +kernel,
   by decide +kernel, takesWindow (by decide +kernel), by decide +kernel, by decide +kernel, takesWindow (by decide +kernel), takesWindow (by decide +kernel),
   by decide +kernel, takesWindow (by decide +kernel)⟩
/-- A region of KIND 0 of one slot of 256 bytes, in pool 0 (R372), passes its checks. -/
theorem witness_QueuePairsEnabled_region : ∃ e, lrCheck (memWrite (pooled aPool) 0x70000 (entry (leBytes 60 e))) 0 0x70000
    (memNat (memWrite (pooled aPool) 0x70000 (entry (leBytes 60 e))) 0x70000 64) = 0 :=
  ⟨8 * 2 ^ (352 - 32) + 2 ^ (360 - 32) + 7 * 2 ^ (416 - 32), by decide +kernel⟩
/-- R371: an entry of zeros fails its CRC. -/
theorem test_qp_enable : (qpOf (after (.qpEnable (.window 0) 0) (entried (entry (leBytes 60 0)) up)) 0).state = .ready
    ∧ (qpOf (after (.qpEnable (.window 0) 0) up) 0).state = .disabled := by decide +kernel

/-- An open of queue pair 0 on port 0. -/
def opening (o : OpenReq → OpenReq) (lr : LrState) (quiet : Bool) : State := { setSlot up 0 { state := .running } with
  objs := (if quiet then [(objKey 0x3010 0x0A, 1)] else []) ++ up.objs
  net := { ports := [(0, { state := 3, openQ := [o { serial := 0, qp := 0, region := 0, slotIndex := 0, frame := packet id }] })]
           lrs := [(0, { state := lr })], qps := [(0, { state := .ready })] } }
/-- MessagesLand: an open refused, without its region, on a quiescing port, taken, still waiting. -/
theorem witness_MessagesLand : ((opening (fun o => { o with refused := true }) .enabled false).net.ports.map (fun e => e.2.openQ.map (·.refused))) = [[true]]
    ∧ (lrOf (opening id .disabled false) 0).state ≠ .enabled ∧ (lrOf (opening id .enabled false) 0).state = .enabled ∧ (qpOf (opening id .enabled false) 0).state = .ready
    ∧ (qpOf (opening id .enabled false) 0).stopping = none
    ∧ cannotOpen (opening id .enabled true) 0 (lrOf (opening id .enabled true) 0) = true
    ∧ cannotOpen (opening id .enabled false) 0 (lrOf (opening id .enabled false) 0) = false
    ∧ ((portOf (opening (fun o => { o with emptyGranted := true, buffer := some 0 }) .enabled false) 0).openQ.find? (fun o =>
        o.denied || o.refused || (o.emptyGranted && o.buffer.isSome))).isSome = true
    ∧ ((portOf (opening (fun o => { o with denied := true }) .disabled false) 0).openQ.find? (fun o =>
        o.denied || o.refused || (o.emptyGranted && o.buffer.isSome))).any (·.denied) = true
    ∧ ((portOf (opening (fun o => { o with asked := true }) .enabled false) 0).openQ.find? (fun o =>
        o.asked && !(o.denied || o.refused || (o.emptyGranted && o.buffer.isSome)))).isSome = true
    ∧ (∀ o ∈ (portOf (opening id .enabled false) 0).openQ, o.asked = false)
    ∧ unitsWork (opening id .enabled false) = true ∧ (portOf up 0).openQ = [] := by decide +kernel
/-- R375: an open waits no longer, and is answered RNR. -/
theorem test_open_expiry : (portOf (after (.openWaitExpiry 0 0) (opening (fun o => { o with asked := true }) .enabled false)) 0).openQ = [] := by decide +kernel
/-- A container being converted. -/
def converting (m : Msg → Msg) : State := { up with net := {
  msgs := [m { id := 0, region := 0, port := 0, qp := 0, slotIndex := 0, jobSlot := 0, kind := 0, pool := 0, buffer := 0, placement := 0, link := 0, stage := some 0, dlv := some 0 }]
  stages := [{ cmd := 0, slot := 0, p := ingestBlock (leBytes 32 0), waitLink := 0, waitEn := false, sigLink := 0, sigEn := false, sigFull := false }] } }
/-- MessagesLand: a limb of c0 and of c1, expanded or not, of a container refused, and none left. -/
theorem witness_MessagesLand_conversion :
    ((msgOf (converting id) 0).bind (fun m => m.stage.bind (stageOf (converting id)))).map (·.limbs) = some 1
    ∧ ((msgOf (converting id) 0).any (fun m => m.dlv == some 0 && m.refused.isNone && m.limb < 1)) = true
    ∧ ((msgOf (converting (fun m => { m with limb := 1, expanded := [0] })) 0).any (fun m => 1 ≤ m.limb && m.limb < 2 && m.expanded.contains 0)) = true
    ∧ ((msgOf (converting (fun m => { m with limb := 1, expanded := [0], retried := true })) 0).any (·.retried)) = true
    ∧ ((msgOf (converting (fun m => { m with refused := some ⟨0x0501, 0, 0, false⟩ })) 0).any (·.refused.isSome)) = true
    ∧ ((msgOf (converting (fun m => { m with limb := 2 })) 0).any (fun m => 2 ≤ m.limb)) = true
    ∧ serviceList (raiseErr (converting id) 0x0504 0) .sdx ≠ [] := by decide +kernel

/-! ## Reset, bring-up and the part -/

/-- ResetWorks: each edge. -/
theorem witness_ResetWorks : up.boot.pwrgood = true ∧ cold.boot.pwrgood = false ∧ cold.boot.inReset = true ∧ up.boot.inReset = false
    ∧ (after .pwrgoodRise cold).boot.inReset = true ∧ (after .pwrgoodRise cold).boot.pwrgood = true := by decide
/-- BringupRuns: each step with the one before it done, and done already. -/
def booting (b : Boot → Boot) : State := { up with boot := b { up.boot with latched := false, hclk := false, ccxTested := false, linksDone := false, unitsTested := false } }
theorem witness_BringupRuns : (booting id).boot.inReset = false ∧ (booting id).boot.latched = false ∧ (booting id).boot.fuses.isSome = true
    ∧ (booting (fun b => { b with fuses := none })).boot.fuses = none ∧ (booting (fun b => { b with latched := true })).boot.hclk = false
    ∧ (booting (fun b => { b with hclk := true })).boot.ccxTested = false ∧ (booting (fun b => { b with ccxTested := true })).boot.linksDone = false
    ∧ (booting (fun b => { b with ccxTested := true })).boot.unitsTested = false ∧ 16 % 16 = 0 ∧ 15 % 16 ≠ 0
    ∧ headCountClosed early = false ∧ 119 < unitCount early .txa := by decide
/-- R384: a unit that fails its self-test at bring-up is out of service. -/
theorem test_bringup_unit : (objGet (after (.bringupUnitSelftestDone [5] [] [] [] []) (booting (fun b => { b with hclk := true, ccxTested := true }))) 0x5001 1).testBit 5 = false := by
  decide +kernel

/-- An engine of a part with two members before the close, on die d. -/
def counter (d : Nat) (f : Fed → Fed) : State := { early with
  boot := { up.boot with fuses := some { packageKind := 8, arrayMode := 1, dieId := d, memStrap := 0, mac0 := 2, mac1 := 4 } }, fed := f early.fed }
/-- HeadCount: an announcement counted and not, as a candidate of either order, and with all heard. -/
theorem witness_HeadCount_announce : unitsWork (counter 1 id) = true ∧ msgSound (mail 1 0 1 [0, 3, 7, 2]).bytes = true ∧ msgType (mail 1 0 1 [0, 3, 7, 2]).bytes = 1
    ∧ msgDst (mail 1 0 1 [0, 3, 7, 2]).bytes = dieId (counter 1 id) ∧ counting (counter 1 id) = true ∧ counting up = false
    ∧ fld (mail 1 0 1 [0, 3, 7, 2]).bytes 4 1 = 0 ∧ fld (mail 1 0 1 [0, 3, 7, 2]).bytes 6 1 = 7 ∧ (expectedDies (counter 1 id)).testBit 0 = true
    ∧ candidate (counter 1 (fun f => { f with regWith := some 1 })) = true ∧ candidate (counter 1 id) = false ∧ 0 < dieId (counter 1 id)
    ∧ candidate (counter 0 (fun f => { f with regWith := some 0 })) = true
    ∧ heardAll (counter 1 (fun f => { f with heard := [(0, some ⟨0, 3, 7, 2⟩), (1, some ⟨0, 3, 7, 2⟩)] })) = true ∧ heardAll (counter 1 id) = false := by decide +kernel
/-- HeadCount: registrations at the lead, sent on, held, at a candidate; a redirect. -/
theorem witness_HeadCount_register : msgType (mail 2 1 0 [0]).bytes = 2 ∧ fld (mail 2 1 0 [0]).bytes 4 1 = pair.fed.groupUsed ∧ pair.fed.hcState = 3
    ∧ pair.fed.health = 7 ∧ (counter 0 (fun f => { f with regWith := some 1 })).fed.regWith = some 1 ∧ (counter 0 id).fed.regWith = none
    ∧ (counter 0 id).fed.hcState ≠ 3 ∧ msgType (mail 3 1 0 [1]).bytes = 3 ∧ fld (mail 3 2 0 [1]).bytes 4 1 = 1
    ∧ counting (counter 0 (fun f => { f with regWith := some 2 })) = true ∧ (expectedDies (counter 0 id)).testBit 1 = true := by decide +kernel
/-- HeadCount: rosters that close, change, exclude and are passed over; the deadlines. -/
theorem witness_HeadCount_roster : msgType (mail 4 0 1 ([1, 0, 0, 0, 3, 0])).bytes = 4 ∧ fld (mail 4 0 1 ([1, 0, 0, 0, 3, 0])).bytes 4 4 = 1
    ∧ (fld (mail 4 0 1 ([1, 0, 0, 0, 3, 0])).bytes 8 1).testBit 1 = true ∧ (fld (mail 4 0 1 ([2, 0, 0, 0, 1, 0])).bytes 8 1).testBit 1 = false
    ∧ (counter 1 (fun f => { f with regWith := some 0 })).fed.membersUsed.testBit 0 = true ∧ (counter 1 id).fed.version = 0 ∧ headCountClosed follower = true
    ∧ follower.fed.version < 2 ∧ follower.fed.regWith = some 0 ∧ early.boot.latched = true ∧ early.boot.inReset = false ∧ early.fed.hcState ≠ 5
    ∧ early.boot.busSag = false ∧ early.boot.failedUnits = [] ∧ { early with boot := { early.boot with busSag := true } }.boot.busSag = true := by
  decide +kernel
/-- R389: alone, an engine becomes the lead at the close deadline. -/
theorem test_close_deadline : (after (.closeDeadline 9) (counter 0 (fun f => { f with membersUsed := 1, regWith := some 0, regs := [0] }))).fed.lead = 0
    ∧ (after (.closeDeadline 9) (counter 0 (fun f => { f with membersUsed := 1, regWith := some 0, regs := [0] }))).fed.hcState = 3 := by decide +kernel
/-- PartInService: beats, the silence of a follower and of the lead, the last link. -/
theorem witness_PartInService : unitsWork follower = true ∧ follower.fed.hcState = 4 ∧ msgSrc (mail 5 0 1 []).bytes = follower.fed.lead
    ∧ follower.fed.electing = false ∧ msgSound (mail 5 0 1 []).bytes = true ∧ pair.fed.hcState = 3 ∧ pair.fed.admitted.testBit 1 = true ∧ 1 ≠ dieId pair
    ∧ follower.fed.admitted.testBit 0 = true ∧ 0 ≠ dieId follower ∧ up.fed.linksUp.testBit 0 = true ∧ putBit follower.fed.linksUp 0 false = 0
    ∧ up.fed.linksUp.testBit 1 = false ∧ putBit 3 0 false ≠ 0 ∧ (∀ d, d < 8 → up.fed.admitted.testBit d = true → Nat.testBit 3 d = true) := by decide +kernel
/-- R394: the lead drops a silent follower; the only survivor of a lead leads. -/
theorem test_leave : (after (.fedLeaveTimeout 1) pair).fed.admitted = 1 ∧ (after (.fedLeaveTimeout 0) follower).fed.lead = dieId follower := by decide +kernel

/-- Removal under way. -/
def removing (n : Nat) : State := { up with removal := { state := n } }
/-- RemovalAndSag. -/
theorem witness_RemovalAndSag : Takes up (.window 0) 0x1100 1 (leBytes 1 1) ∧ up.removal.state = 0 ∧ Takes (removing 1) (.window 0) 0x1100 1 (leBytes 1 1)
    ∧ (removing 2).removal.state = 2 ∧ unitsWork (removing 2) = true ∧ headCountClosed up = true ∧ up.removal.sag = false
    ∧ objGet { up with objs := [(objKey 0x1100 0x0C, 0x1000)] } 0x1100 0x0C ≠ 0 ∧ objGet up 0x1100 0x0C = 0
    ∧ Takes { up with removal := { sag := true } } (.window 0) 0x1100 0x0E (leBytes 1 1) ∧ up.boot.busSag = false
    ∧ Takes { up with removal := { sag := true }, boot := { up.boot with busSag := true } } (.window 0) 0x1100 0x0E (leBytes 1 1) :=
  ⟨takesWindow (by decide +kernel), by decide, takesWindow (by decide +kernel), by decide, by decide, by decide, by decide, by decide +kernel, by decide +kernel,
   takesWindow (by decide +kernel), by decide, takesWindow (by decide +kernel)⟩
/-- R398. -/
theorem test_sag : (after .busSag up).removal.sag = true ∧ objGet (after .busSag up) 0x3010 0x0A = 1 := by decide +kernel

/-- Slot 0 is being saved. -/
def saving (v : Save → Save) : State := setSlot up 0 { state := .running, job := { stripe := 1 }, save := some (v { removal := false, drained := false, abandoned := false, pc := 0, loops := [] }) }
/-- Rucksacks. -/
theorem witness_Rucksacks : Takes (setSlot up 0 { state := .running }) (.window 0) 0x1100 5 (leBytes 1 0) ∧ (slotOf (saving id) 0).save ≠ none
    ∧ Takes (saving id) (.window 0) 0x1100 5 (leBytes 1 0) ∧ Takes up (.window 0) 0x1100 5 (leBytes 1 0) ∧ (slotOf up 0).state ≠ .running
    ∧ slotAtWork (saving id) 0 = false ∧ slotAtWork { saving id with cmds := (queued (word opTxa 0) id).cmds } 0 = true
    ∧ ((slotOf (saving (fun v => { v with drained := true })) 0).save.any (fun v => v.drained && v.contexts.isEmpty)) = true
    ∧ isHome (saving id) 0 = true ∧ isHome (setSlot follower 0 { state := .running, job := { stripe := 3 } }) 0 = false
    ∧ objGet (saving id) 0x1100 4 < 65536 * 65536 :=
  ⟨takesWindow (by decide +kernel), by decide +kernel, takesWindow (by decide +kernel), takesWindow (by decide +kernel), by decide +kernel⟩
/-- Rucksacks: the restore of a region with no rucksack, with admission stopped, and with no slot. -/
theorem witness_Rucksacks_restore : Takes up (.window 0) 0x1100 7 (leBytes 8 0x1000) ∧ admissionStopped up = false ∧ admissionStopped (removing 1) = true
    ∧ freeSlot up (restoreStripe up (memNat up 0x100F 1)) ⟨2 ^ 64 - 1, 0⟩ = none
    ∧ freeSlot up (restoreStripe up (memNat up 0x100F 1)) ⟨0, 0⟩ = some 0 ∧ memPoisoned up 0x1000 (memNat up 0x1008 4) = false
    ∧ rucksackValid up 0x1000 = none ∧ restoreCode up 0x1000 0 none 1 = 0x1104 :=
  ⟨takesWindow (by decide +kernel), by decide +kernel⟩
/-- R404: RUCKSACK_INVALID. -/
theorem test_restore_invalid : objGet (after (.rucksackRestore (.window 0) 0x1000 ⟨0, 0⟩) up) 0x1180 4 = 1 := by decide +kernel
/-- R402: at the drain deadline the save is drained. -/
theorem test_save_drains : ((slotOf (after (.saveDrainDeadline 0) (saving id)) 0).save.map (·.drained)) = some true := by decide +kernel

/-- Four bytes 0xFF bring the CRC register to 0, where bytes of 0 leave it. -/
theorem crc_of_zeros (l : List Byte) (h : ∀ b ∈ l, b = 0) : l.foldl crcByte 0 = 0 := by
  induction l with
  | nil => rfl
  | cons b l ih => rw [List.foldl_cons, h b (by simp), show crcByte 0 0 = 0 by decide]; exact ih (fun x hx => h x (by simp [hx]))
/-- A program bank that begins so. -/
def ffBank : List Host.Cell := [(0, 0xFF), (1, 0xFF), (2, 0xFF), (3, 0xFF)]
/-- The CRC32C of that bank. -/
theorem crc_ffBank : crc32c (cellsGet ffBank 0 65536) = 0xFFFFFFFF := by
  have e : List.range 65536 = List.range 4 ++ (List.range 65532).map (4 + ·) := List.range_add (n := 4) (m := 65532)
  rw [crc32c, cellsGet, e, List.map_append, List.foldl_append, show (((List.range 4).map (fun i => cellGet ffBank (0 + i))).foldl crcByte 0xFFFFFFFF) = 0 by decide,
    crc_of_zeros]
  · decide
  · intro b hb
    simp only [List.map_map, List.mem_map, List.mem_range, Function.comp] at hb
    obtain ⟨i, -, rfl⟩ := hb
    simp only [ffBank, cellGet, tblGet, Nat.zero_add]
    split_ifs <;> first | rfl | omega
/-- A rucksack at 0x10000 of a job of this engine, with that bank active: its JOB and SEQUENCER sections. -/
def savedBody : List Byte :=
  let secs := section_ 1 (leBytes 40 0 ++ leBytes 216 1) ++ section_ 2 (leBytes 8 9)
  leBytes 4 0x4B534B52 ++ leBytes 2 1 ++ leBytes 2 0 ++ leBytes 4 (68 + secs.length) ++ leBytes 2 2 ++ leBytes 1 0 ++ leBytes 1 1 ++ leBytes 4 0xFFFFFFFF
    ++ leBytes 44 0 ++ secs
/-- Its CRC32C, in three parts. -/
theorem crc_savedBody : crc32c savedBody = 1345943471 := by
  have e : savedBody = savedBody.take 115 ++ ((savedBody.drop 115).take 115 ++ savedBody.drop 230) := by decide +kernel
  have e1 : (savedBody.take 115).foldl crcByte 0xFFFFFFFF = 4155561176 := by decide +kernel
  have e2 : ((savedBody.drop 115).take 115).foldl crcByte 4155561176 = 3641443357 := by decide +kernel
  have e3 : (savedBody.drop 230).foldl crcByte 3641443357 = 2949023824 := by decide +kernel
  rw [crc32c, e, List.foldl_append, List.foldl_append, e1, e2, e3]
  decide
/-- Memory holds that rucksack with its trailer. -/
def restorable : State := memWrite { up with mem := { up.mem with bank0 := ffBank } } 0x10000 (savedBody ++ leBytes 4 1345943471)
/-- R403, R404: the rucksack is whole, and these are its sections. -/
theorem restorable_sections : rucksackValid restorable 0x10000 = some [(1, leBytes 40 0 ++ leBytes 216 1), (2, leBytes 8 9)] := by
  have hl : memNat restorable (0x10000 + 8) 4 = 348 := by decide +kernel
  have hb : memBytes restorable 0x10000 348 = savedBody ++ leBytes 4 1345943471 := by decide +kernel
  have ht : (savedBody ++ leBytes 4 1345943471).take (348 - 4) = savedBody := by decide +kernel
  have hh : (memNat restorable 0x10000 4 != 0x4B534B52 || memNat restorable (0x10000 + 4) 2 != 1 || decide (8 ≤ memNat restorable (0x10000 + 6) 2)
      || decide (348 < 68) || memPoisoned restorable 0x10000 348) = false := by decide +kernel
  have hf : fld (savedBody ++ leBytes 4 1345943471) (348 - 4) 4 = 1345943471 := by decide +kernel
  have hs : readSections (fld (savedBody ++ leBytes 4 1345943471) 12 2) 0 (savedBody.drop 64)
      = some [(1, leBytes 40 0 ++ leBytes 216 1), (2, leBytes 8 9)] := by decide +kernel
  simp only [rucksackValid, hl, hb, ht, hh, hf, hs, crc_savedBody]
  decide +kernel
/-- Rucksacks: that rucksack passes the checks of R404 and R306. -/
theorem witness_Rucksacks_restored : Takes restorable (.window 0) 0x1100 7 (leBytes 8 0x10000) ∧ admissionStopped restorable = false
    ∧ arriving restorable (.window 0) 0x1100 7 (leBytes 8 0x10000) = restorable
    ∧ freeSlot restorable (restoreStripe restorable (memNat restorable (0x10000 + 15) 1)) ⟨0, 0⟩ = some 0
    ∧ memPoisoned restorable 0x10000 (memNat restorable (0x10000 + 8) 4) = false
    ∧ restoreStripe restorable (memNat restorable (0x10000 + 15) 1) = 1 ∧ restoreCode restorable 0x10000 0 (rucksackValid restorable 0x10000) 1 = 0
    ∧ admitCode restorable (leBytes 40 0 ++ leBytes 216 1) { admissionOf (leBytes 40 0 ++ leBytes 216 1) with stripe := 1 } ⟨0, 0⟩ = 0 := by
  refine ⟨takesWindow (by decide +kernel), by decide +kernel, by decide +kernel, by decide +kernel, by decide +kernel, by decide +kernel, ?_,
    by decide +kernel⟩
  have hb : bankCrc restorable restorable.seq.active = memNat restorable (0x10000 + 16) 4 :=
    crc_ffBank.trans (by decide +kernel : 0xFFFFFFFF = memNat restorable (0x10000 + 16) 4)
  rw [restorable_sections, restoreCode, hb]
  decide +kernel

/-! ## Further cases of the statements -/

/-- JumpSwitchHalt: a stage of the slot under way. -/
theorem witness_JumpSwitchHalt_stages : Fetches { run (word opHalt 0) {} with net := (converting id).net } 0 opHalt
    ∧ ((converting id).net.stages.any (fun i => i.slot == 0)) = true := ⟨fetches (by decide +kernel), by decide⟩
/-- R309: HALT stops the stage of its slot. -/
theorem test_halt_stops : (after (.halt 0) { run (word opHalt 0) {} with net := { stages := (converting id).net.stages } }).net.stages.all (·.stopped) = true := by
  decide +kernel
/-- ProgramBanks: a part with another engine, for every value. -/
theorem witness_ProgramBanks_pair (c : Nat) : Takes pair (.window 0) 0x7000 3 (leBytes 4 c) ∧ otherDies pair ≠ [] :=
  ⟨⟨⟨by decide, fun _ h => by cases h⟩, rfl, fun _ _ => by simp [leBytes]⟩, by decide⟩
/-- A root job in slot 3 on another die, its record at 0x100. -/
def rootAway : State := memWrite { pair with seq := { rootSlot := some 3, rootAway := some 0x100 } } 0x100 [1]
/-- RootJobStarts: a root job on the dies of its stripe. -/
theorem witness_RootJobStarts_away : Takes rootAway (.window 0) 0x7000 5 (leBytes 1 1) ∧ (Elsewhere.mk 8 0).busy.testBit 3 = true
    ∧ memNat rootAway 0x100 1 = 1 ∧ rootRunning rootAway ⟨0, 0⟩ = none ∧ rootRunning rootAway ⟨8, 0⟩ = some 3 :=
  ⟨takesWindow (by decide +kernel), by decide +kernel⟩
/-- RestStop: each condition of the arrival holds and fails somewhere. -/
theorem witness_RestStop_ready : scheduleBound txaSlot 0 = false ∧ arrivalReady txaSlot = true
    ∧ scheduleBound (poisoner true) 0 = true ∧ arrivalReady (poisoner true) = false
    ∧ arrivalReady (setSlot (poisoner true) 0 { slotOf (poisoner true) 0 with poisonedTo := 1 }) = true := by decide +kernel

/-- A piece of a write that die 1 forwards, with its sequence number. -/
def piece (n : Nat) (p : List Byte) : FedArrival := 
  { link := 0, bytes := fedBytes 7 1 0 0 (p ++ leBytes (20 - p.length) 0 ++ leBytes 4 n), copy := false }
/-- The request, index, subindex and length of a write of 4 bytes. -/
def wholeWrite : List Byte := leBytes 2 0x7400 ++ leBytes 2 1 ++ leBytes 4 4 ++ leBytes 4 0x110000
/-- PackageMessages: a piece that is the last of its write, one that is not, one out of its turn, and one of a die not admitted. -/
theorem witness_PackageMessages_pieces : msgSound (piece 0 wholeWrite).bytes = true ∧ msgType (piece 0 wholeWrite).bytes = 7
    ∧ msgDst (piece 0 wholeWrite).bytes = dieId pair ∧ dieAdmitted pair (msgSrc (piece 0 wholeWrite).bytes) = true
    ∧ dieAdmitted up (msgSrc (piece 0 wholeWrite).bytes) = false ∧ (piecesOf pair 1).next = 0 ∧ (piecesOf pair 1).held = []
    ∧ fld (piece 0 wholeWrite).bytes 24 4 = 0 ∧ fld (piece 5 wholeWrite).bytes 24 4 = 5
    ∧ writeWhole (((piece 0 wholeWrite).bytes.drop 4).take 20) = true
    ∧ writeWhole (((piece 0 (leBytes 4 0x17001 ++ leBytes 4 65536)).bytes.drop 4).take 20) = false := by decide +kernel
/-- R333, R386: a write in one piece has its effect, the source's word; a piece out of its turn waits. -/
theorem test_pieces : (srcOf (after (.fedForward (piece 0 wholeWrite)) pair) 0).cfg = 0x110000
    ∧ (piecesOf (after (.fedForward (piece 1 wholeWrite)) pair) 1).held.length = 1 := by decide +kernel
/-- PackageMessages: what each kind of write keeps. -/
theorem witness_PackageMessages_kept : let s (i : Nat) (k : Before) : State := { pair with dict := { kept := [(i, k)] } }
    keptOf (s 0x5413 (.root {})) 0x5413 = some (.root {}) ∧ keptOf (s 0x4800 (.table {} 1)) 0x4800 = some (.table {} 1)
    ∧ keptOf (s 0x7000 .arm) 0x7000 = some .arm := by decide +kernel
/-- R100, R205, R312: refused with BUSY elsewhere, a root's key and a table are as before; matched everywhere, the bank is armed. -/
theorem test_settled : (rootOf (settled { pair with dict := { kept := [(0x5413, .root { valid := true })] } } 0x5413 (abortCode 8 0)) 3).valid = true
    ∧ objGet (settled { pair with dict := { kept := [(0x4800, .table {} 1)] } } 0x4800 (abortCode 8 0)) 0x4800 5 = 1
    ∧ (settled { pair with dict := { kept := [(0x7000, .arm)] } } 0x7000 0).seq.armed = true := by decide +kernel

/-- TransformItems: the item of a slot that has only a unit's work, which waits for the unit's earlier work. -/
theorem witness_TransformItems_work : let s : State := { txaSlot with txa := { work := [⟨0, 0, .forge 0, 4, 1, 1, 1, 0⟩, ⟨1, 0, .forge 0, 4, 1, 1, 1, 0⟩] } }
    (readyWorks s).map (·.id) = [0] ∧ (readyItem s 0).isSome = true ∧ readyItem (txaWith txaGood) 0 = some txaGood
    ∧ arbPick s unitTxa [0] = some 0 := by decide +kernel
/-- UnitsInService: a clock that runs and one that does not. -/
theorem witness_UnitsInService_scrub : cold.boot.hclk = false ∧ up.boot.hclk = true ∧ up.boot.inReset = false := by decide
/-- R410, R411: a corrected word found by the scrubber counts there, and one met by a read is RAS_CORRECTED. -/
theorem test_scrub : objGet (after (.scrubVisit true ⟨1, []⟩) up) 0x9010 7 = 1 ∧ objGet (after (.scrubVisit false ⟨1, []⟩) up) 0x9010 7 = 0
    ∧ objGet (after (.scrubVisit false ⟨1, []⟩) up) (errInfo 0x1201).1 (errInfo 0x1201).2.1 = 1 := by decide +kernel

/-- ForgeVerdicts: a product with an addend, with an error and without. -/
theorem witness_ForgeVerdicts_addend : ((17 : Nat) : Int) % 8191 = ((17 : Nat) : Int) % 8191
    ∧ (mulAddElem { q := 17, qMod := 17 } 0 5 6 7).2 = true ∧ (mulAddElem { q := 17, qMod := 17 } 1 5 6 7).2 = false
    ∧ (mulAddElem { q := 17, qMod := 17 } 8191 5 6 7).2 = true := by decide
/-- R104: the product and its addend modulo q. -/
theorem test_addend : (mulAddElem { q := 17, qMod := 17 } 0 5 6 7).1 = 3 := by decide
/-- ForgeVerdicts: an item whose draws are still under way. -/
theorem witness_ForgeVerdicts_drawing : drawing { forging id with rsv := { works := [⟨0, 0, .forge 0, 1, 0⟩] } } (.forge 0) = true
    ∧ drawing (forging id) (.forge 0) = false := by decide +kernel

/-- A lane of a ciphertext limb with eight lines filled. -/
def fullLane : LaneRun := { aLane with got := List.replicate 1024 0, stalled := true }
/-- SeedLanes: a lane stalled on the lines of a ciphertext limb, and with the first taken. -/
theorem witness_SeedLanes_ciphertext : fullLane.pending = 8 ∧ bufferFull (laned {}) 0 fullLane = true
    ∧ bufferFull (laned {}) 0 { fullLane with written := 1 } = false
    ∧ fullLane.stream.use = .ctLimb 0 0 ∧ ({ aLane with stream := { aStream with use := .noise 0 0 0 } } : LaneRun).stream.use = .noise 0 0 0 := by decide +kernel
/-- RandomCalls: a unit's request, in a core and waiting. -/
theorem witness_RandomCalls_units : tblGet none ({ up with rsv := { cores := [(0, some ⟨0, 1, 2, false, some 4⟩)] } } : State).rsv.cores 0 = some ⟨0, 1, 2, false, some 4⟩
    ∧ (∀ w ∈ ({ up with rsv := { works := [⟨4, 0, .forge 0, 0, 1⟩] } } : State).rsv.works, w.left = 0) := by decide
/-- R158: a unit's request is served by a core as a call is, and ends with its last call. -/
theorem test_rsv_unit : (after (.rsvCallReturn 0 false) { up with rsv := { cores := [(0, some ⟨0, 1, 2, false, some 4⟩)], works := [⟨4, 0, .forge 0, 0, 1⟩] } }).rsv.works = [] := by
  decide +kernel

/-- R178: a picture's only core takes its second unit. -/
theorem test_only_core : (after (.mdcDecodingUnitStart 16 (.next true)) (decoding { runs := [halfRun] })).mdc.runs.map (fun r => (r.cores, r.taken))
    = [([16], 2)] := by decide +kernel
/-- R187: an invalid unit before a stream's first picture is a resynchronisation, a sound one nothing. -/
theorem test_unit_lost : objGet (after (.mdcDecodingUnitStart 16 (.lost 0 0 1 true false)) (decoding { runs := [videoRun] })) 0x8080 8 = 1
    ∧ objGet (after (.mdcDecodingUnitStart 16 (.lost 0 0 1 false false)) (decoding { runs := [videoRun] })) 0x8080 8 = 0 := by decide +kernel
/-- DecodedSamples: the ends of a sample by its stream, of one in error, of one whose header has not been judged. -/
theorem witness_DecodedSamples_ends : (endingRun (decoding { runs := [{ videoRun with code := 0x0802 }] }) 0 (some 0)).any (fun r => r.code != 0) = true
    ∧ (endingRun (decoding { runs := [imageRun] }) 0 none).any (fun r => r.header.isNone && r.code == 0 && !isVideo r.item.format) = true := by decide +kernel
/-- Tokenising: a text with a failure, sound and not. -/
theorem witness_Tokenising_failed : ((tokRun (fun r => { r with corrupt := 0x0904 })).tok.run.any (fun r => r.corrupt != 0 && tokFull r)) = true := by decide +kernel
/-- R194: the first failure decides the code. -/
theorem test_tok_failed : ((after .tokSampleOutcome (tokRun (fun r => { r with corrupt := 0x0904 }))).bat.results.map (·.out.code)) = [0x0904] := by decide +kernel

/-- A read of granule 0, sent or not. -/
def fetched (sent : Bool) : State := { oneItem { reading with dispatched := true, want := [], coming := [(0, 0)] } with
  dlv := { items := [{ reading with dispatched := true, coming := [(0, 0)] }], fetch := [(0, [{ lo := 0, hi := 1, users := [(0, 0, 0)], sent := sent }])] } }
/-- Deliveries: a request sent and one not, the edges of its window, a queue that is full. -/
theorem witness_Deliveries_reads : ((fetchQueue (sendReads (feedPorts (fetched true)) 0 0) 0).filter (·.sent))[0]?.isSome = true
    ∧ ((fetchQueue (sendReads (feedPorts (fetched false)) 0 0) 0).filter (·.sent))[0]? = none
    ∧ (FetchReq.mk 62 63 [] false).meets 63 = true ∧ (FetchReq.mk 62 64 [] false).meets 64 = false ∧ (FetchReq.mk 62 63 [] true).meets 63 = false
    ∧ (FetchReq.mk 2 3 [] false).meets 1 = true ∧ (FetchReq.mk 2 3 [] false).meets 4 = false ∧ (FetchReq.mk 2 3 [] false).meets 0 = false
    ∧ (fetchQueue { up with dlv := { fetch := [(0, List.replicate 64 { lo := 0, hi := 1, users := [], sent := true })] } } 0).length = 64
    ∧ dlvOf (fetched true) 0 ≠ none := by decide +kernel
/-- R291: two granules that touch go in one request. -/
theorem test_reads_merge : let s := enterRead (enterRead (fetched true) 0 (0, 64 * 4 + 1)) 0 (0, 64 * 4 + 2)
    (fetchQueue s 0).map (fun r => (r.lo, r.hi)) = [(0, 1), (257, 259)] ∧ objGet s 0x80E0 0x13 = 1 := by decide +kernel
/-- Deliveries: a line acknowledged already, a receiver on this die without a credit, a window that is not open. -/
theorem witness_Deliveries_group :
    ((grouped { die := 1, dst := 0, credits := 63, sent := 1, acks := [0] }).remotes.find? (fun r => r.die == 1 && !r.own && decide (0 < r.sent))).any (·.acks.contains 0) = true
    ∧ (∃ r ∈ (grouped { die := 0, dst := 0, own := true, credits := 0 }).attached, r.credits = 0)
    ∧ stalledOn (oneItem (grouped { die := 0, dst := 0, own := true, credits := 0 })) (grouped { die := 0, dst := 0, own := true, credits := 0 }) ≠ []
    ∧ windowOpen up 2 = false := by
  refine ⟨by decide +kernel, ⟨{ die := 0, dst := 0, own := true, credits := 0 }, by decide, rfl⟩, by decide +kernel, by decide +kernel⟩
/-- ScratchpadPorts: the line of another die's item accepted, and an item not yet known. -/
theorem witness_ScratchpadPorts_away : (dlvOf (oneItem { anItem with owner := .remote 1 0 0 }) 0).any (fun x => x.owner == .remote 1 0 0) = true
    ∧ awayItem up 1 0 0 = none := by decide +kernel
/-- R282, R297: an item of another die announced here holds the arrival until its last line is known. -/
theorem test_announced : ((after (.d2dLineReceived 1 0 0 (.notice (.announce true false)) 0 0 1) up).dlv.items.map (·.open_)) = [true]
    ∧ ((after (.d2dLineReceived 1 0 0 (.notice .closed) 0 0 1) (after (.d2dLineReceived 1 0 0 (.notice (.announce true false)) 0 0 1) up)).dlv.items) = [] := by
  decide +kernel

/-- WritesRefused: more than 8 bytes through the window, asked as a write without bytes. -/
theorem witness_WritesRefused_long : MayAsk up (.window 0) ∧ 8 < (List.replicate 32 (0 : Byte)).length
    ∧ (match writeVerdict up (.window 0) 0x5410 1 [] with
       | .abort c => c != 0
       | _ => false) = true := ⟨⟨by decide, fun _ h => by cases h⟩, by decide, by decide +kernel⟩
/-- R337: a root's key does not go through the window. -/
theorem test_window_long : (rootOf (after (.encRootKeyWrite (.window 0) 3 (List.replicate 32 7)) up) 3).valid = false := by decide +kernel
/-- Mailboxes: WIN_ABORT of a core without posted writes, and of one with a posted write. -/
theorem witness_Mailboxes_posted : winAbortWaits up 0x7020 1 = false ∧ winAbortWaits up 0x2001 1 = false := by decide +kernel
/-- EventsFire: a hold-off that is full, and sources that fire together. -/
theorem witness_EventsFire_full : holdsFull up 8 = false
    ∧ holdsFull { up with evt := { grps := [(8, { held := 2, running := true, limCount := 2 })] } } 8 = true
    ∧ (∀ m ∈ [128, 129], holdsFull ([128, 129].foldl (fun s m => latchFiring s m 0) up) (m / 16) = false) := by decide +kernel
/-- R355: with a count of 2, three firings of one HCLK end one hold-off, and all three sources are pending. -/
theorem test_fire_together :
    let s : State := { up with objs := (objKey 0x7508 1, 2) :: up.objs, evt := { srcs := [(128, { cfg := onCfg }), (129, { cfg := onCfg }), (130, { cfg := onCfg })] } }
    ([128, 129, 130].map (fun n => (srcOf (after (.evtSwRaise (.window 0) 4 7) s) n).pending)) = [true, true, true] := by decide +kernel
/-- Debug: EXTEST in reset and out of it. -/
theorem witness_Debug_extest : up.boot.inReset = false ∧ cold.boot.inReset = true ∧ 0x7F ∉ [0x00, 0x01, 0x02, 0x03, 0x04, 0x10] ∧ 0xFF < 256 := by decide
/-- R421: the bits of IDCODE leave by TDO, TDI's follow them. -/
theorem test_idcode : (after (.idcode [true, false]) up).tap.tdo = [true, false] ∧ (after (.idcode [true, false]) up).tap.dr.length = 32
    ∧ ((after (.idcode [true, false]) up).tap.dr.drop 30) = [true, false] := by decide +kernel

/-- PortsTrain: a DROP received, one not echoed, a partner's frame of a lane that is not dropped. -/
theorem witness_PortsTrain_drop : (trainFrame 7 0 [0, 0, 0, 0, 0] false true).testBit 13 = true ∧ trainCheckOk (trainFrame 7 0 [0, 0, 0, 0, 0] false true) = true
    ∧ (portOf (ported { state := 3, dropped := 0x80 }) 0).dropped.testBit 7 = true ∧ (portOf (ported { state := 2 }) 0).dropped.testBit 7 = false := by decide +kernel
/-- R363: a lane whose DROP is not echoed sends it again; its echo ends it. -/
theorem test_drop : (after (.trainingFrameReceived 0 7 (frameOf 7 false) 0 false) (ported { state := 3, dropped := 0x80 })).net.tx.length = 1
    ∧ (portOf (after (.trainingFrameReceived 0 7 (trainFrame 7 0 [0, 0, 0, 0, 0] false true) 0 false) (ported { state := 3, dropped := 0x80 })) 0).dropped = 0 := by
  decide +kernel
/-- R364: the last port that trains is disabled, and the engine is ready. -/
theorem test_disable_ready : (after (.portEnableWrite (.window 0) 0 0) { ported { state := 2 } with
    objs := (objKey (portIndex 1) 1, 0) :: up.objs, fed := { up.fed with engineState := 1 } }).fed.engineState = 2 := by decide +kernel

/-- A region of two slots of 256 bytes, and messages and opens of it. -/
def landing (m : List Msg) (o : List OpenReq) : State :=
  let s := paired id
  { setSlot s 0 { state := .running } with net := { s.net with
      lrs := [(0, { state := .enabled, rkey := 7, anyQp := true, slots := 2, slotLog2 := 8 })], msgs := m
      ports := [(0, { state := 3, lanesUp := 1, openQ := o })] } }
def aMsg : Msg := { id := 0, region := 0, port := 0, qp := 0, slotIndex := 0, jobSlot := 0, kind := 0, pool := 0, buffer := 0, placement := 0, link := 0 }
/-- FramesReceived: an operation at the first byte of a slot, behind it, in an open message of its queue pair and of another. -/
theorem witness_FramesReceived_operations : addressed (landing [] []) 0 (packet id) = some (0, 0, 0)
    ∧ addressed (landing [] []) 0 (packet (fun f => { f with va := 257 })) = some (0, 1, 1)
    ∧ ((landing [aMsg] []).net.msgs.find? (fun m => m.opn && m.region == 0 && m.slotIndex == 0)).any (fun m => m.qp == 0 && m.bytes.length == 0) = true
    ∧ ((landing [{ aMsg with qp := 1 }] []).net.msgs.find? (fun m => m.opn && m.region == 0 && m.slotIndex == 0)).any (fun m => m.qp != 0) = true
    ∧ (landing [] []).net.msgs = [] ∧ (qpOf (landing [] []) 0).stopping = none ∧ cannotOpen (landing [] []) 0 (lrOf (landing [] []) 0) = false := by decide +kernel
/-- R375: the first packet of a slot asks for a message to open; one beyond the first byte breaks the sequence. -/
theorem test_operation : (portOf (after (.frameReceived 0 (packet id) 0) (landing [] [])) 0).openQ.length = 1
    ∧ objGet (after (.frameReceived 0 (packet (fun f => { f with va := 257, dmaLen := 8 })) 0) (landing [] [])) (portCounters 0) 0x15 = 1 := by decide +kernel
/-- HeadCount: a die that would elect with this engine, and one that would not. -/
theorem witness_HeadCount_election : counting follower = false ∧ (electorate { follower with fed := { follower.fed with admitted := 7 } }).testBit 2 = true
    ∧ (electorate follower).testBit 0 = false ∧ fld (mail 1 2 1 [0, 3, 7, 2]).bytes 4 1 = follower.fed.groupUsed := by decide +kernel
/-- R394: what a follower hears of the survivors before its own time is kept. -/
theorem test_called : (after (.announce (mail 1 2 1 [0, 3, 7, 2]) 0) { follower with fed := { follower.fed with admitted := 7 } }).fed.called.length = 1 := by decide +kernel
/-- PartInService: all the survivors heard, and not. -/
theorem witness_PartInService_election :
    let v (f : Fed → Fed) : State := let s : State := { follower with fed := f { follower.fed with admitted := 7 } }
      announceSelf { s with fed := { s.fed with electing := true, heard := s.fed.called, called := [], regs := [], regWith := none } }
    heardAll (v (fun f => { f with called := [(2, some ⟨0, 3, 7, 2⟩)] })) = true ∧ heardAll (v id) = false := by decide +kernel
/-- RemovalAndSag: a removal that has come to its end. -/
theorem witness_RemovalAndSag_done : Takes (removing 3) (.window 0) 0x1100 1 (leBytes 1 1) ∧ (removing 3).removal.state = 3 ∧ otherDies (removing 3) = [] :=
  ⟨takesWindow (by decide +kernel), by decide +kernel⟩
/-- R408: a later write completes and counts. -/
theorem test_removal_again : objGet (after (.prepareRemoval (.window 0) 1) (removing 3)) 0x1180 0x0B = 1 := by decide +kernel
/-- Rucksacks: a slot that runs on another die. -/
theorem witness_Rucksacks_away : Takes pair (.window 0) 0x1100 5 (leBytes 1 9) ∧ (slotOf pair 9).save = none ∧ (slotOf pair 9).state ≠ .running
    ∧ (Elsewhere.mk 512 0).busy.testBit 9 = true ∧ (Elsewhere.mk 0 0).busy.testBit 9 = false := ⟨takesWindow (by decide +kernel), by decide +kernel⟩

/-! ## Hypotheses at their bounds -/

/-- PackageMessages, HeadCount, PartInService: a message to this die, and the first copy of one to all dies. -/
theorem witness_Received : Received 5 (mail 5 0 1 []) follower follower
    ∧ Received 5 (mail 5 0 0xFF []) follower (send follower (.fedExcept 0 (msgOn (mail 5 0 0xFF []).bytes))) := by
  refine ⟨⟨by decide +kernel, by decide +kernel, by decide +kernel, .inl ⟨by decide +kernel, by decide +kernel, rfl⟩⟩,
    ⟨by decide +kernel, by decide +kernel, by decide +kernel, .inr ⟨by decide +kernel, by decide +kernel, by decide +kernel, by decide +kernel, rfl⟩⟩⟩
/-- RestStop, PackageMessages: an engine without a roster, one whose units do not work, one that has arrived. -/
theorem witness_RestStop_idle : headCountClosed early = false ∧ unitsWork cold = false
    ∧ ({ up with dlv := { arrived := true } } : State).dlv.arrived = true := by decide +kernel

/-- LoopsRun: a count in memory at a place that is no multiple of 4. -/
theorem witness_LoopsRun_place : Fetches (run (loopWord + 2 ^ 115 - 2) {}) 0 opLoop ∧ wLoopSrc (loopWord + 2 ^ 115 - 2) = true
    ∧ wLoopCount (loopWord + 2 ^ 115 - 2) % 4 ≠ 0 := ⟨fetches (by decide +kernel), by decide, by decide⟩
/-- R327: such a place faults the slot. -/
theorem test_loop_place : (slotOf (after (.loop 0) (run (loopWord + 2 ^ 115 - 2) {})) 0).fault = 0x0F03 := by decide +kernel

/-- CommandsIssue: a work command that waits on the side FULL, with an entry and without, and a poisoned block. -/
theorem witness_CommandsIssue_entry : let w := word opTxa (64 + 2 ^ 99 + 2 ^ 98)
    isStage opTxa = false ∧ isWork opTxa = true ∧ wWaitEn w = true ∧ wWaitFull w = true ∧ tblGet [] (queued w id).dlv.links 0 = []
    ∧ (tblGet [] ({ queued w id with dlv := { links := [(0, [{ space := 0, addr := 64, bytes := 64, slot := 0 }])] } } : State).dlv.links 0).length = 1
    ∧ memPoisoned (memWritePoisoned (queued w id) 64 [0]) 64 (blockBytes opTxa) = true := by decide +kernel
/-- CommandCompletes: a delivery's report, and an output on the side FULL. -/
theorem witness_CommandCompletes_output : isStage opForge = false
    ∧ (firstCmd (queued (word opForge (2 ^ 97 + 2 ^ 96)) (fun c => { c with issued := true, done := true, output := some { space := 0, addr := 64, bytes := 64, slot := 0 } })) 0 0).any (fun c => c.output.isSome && wSigEn c.word && wSigFull c.word) = true := by
  decide +kernel

/-- TransformItems: an item that preloads its accumulators. -/
theorem witness_TransformItems_preload : ({ txaGood.p with init := 1 } : TxaParams).init ≠ 0 ∧ txaGood.p.outType = 11
    ∧ txaParamOk (txaWith txaGood) { txaGood with p := { txaGood.p with init := 1 } } = true := by decide +kernel
/-- ForgeItems: an item that asks for random bits, and one that does not. -/
theorem witness_ForgeItems_calls : forgeCalls (pooled aPool) forgeGood.p = 1 ∧ forgeCalls (pooled aPool) { forgeGood.p with noise := 0 } = 0 := by
  decide +kernel
/-- UnitsInService: a bank of the forge's staging at its limit, not yet retired; a tile. -/
theorem witness_UnitsInService_limit : let s : State := { up with ras := { pfgCount := [(3, 2 ^ 32)] }, txa := { ueCount := [(3, 2 ^ 32)] } }
    unitsWork s = true ∧ atLimit s false 3 = true ∧ (objGet s 0x9000 3).testBit 3 = false ∧ atLimit s true 3 = true ∧ atLimit up true 3 = false := by
  decide +kernel
/-- BringupRuns: units of two kinds that fail, before the head count and after it. -/
theorem test_bringup_failed : (after (.bringupUnitSelftestDone [5] [] [1] [] []) (booting (fun b => { b with hclk := true, ccxTested := true }))).boot.failedUnits = []
    ∧ (unitFailed early .txa 1 5).boot.failedUnits = [0x105] := by decide +kernel

/-- PoolReturns, PoolMoves: the job the deadlock chooses has a blocked request that was granted. -/
theorem witness_PoolReturns_granted : deadlockSlot (pooled { aPool with waits := [{ aWait with granted := true }] }) = some 0
    ∧ (poolOf (pooled { aPool with waits := [{ aWait with granted := true }] }) 0).waits.countP (fun r => r.blocked && r.slot == 0 && r.granted) = 1 := by
  decide +kernel

/-- EventsFire: a hold-off that runs and is not yet full. -/
theorem witness_EventsFire_running : let s : State := { evented { cfg := onCfg } with evt := { srcs := [(128, { cfg := onCfg })], grps := [(8, { running := true, held := 1, limCount := 3 })] } }
    (srcOf s 128).enabled = true ∧ (srcOf s 128).target ≠ 0 ∧ targetAsleep s (srcOf s 128).target = false ∧ (grpOf s 8).running = true
    ∧ (grpOf s 8).held + 1 < (grpOf s 8).limCount := by decide +kernel
/-- EventsConfigured: an object that leaves the pin it holds, and one that keeps it. -/
theorem witness_EventsConfigured_pin : let s : State := { up with dict := { claims := [⟨objKey 0x2040 1, .pin 3⟩] } }
    pinHeld s 1 = some 3 ∧ claimBlocked s (objKey 0x2040 1) [.pin 4] = none ∧ pinHeld (claim s (objKey 0x2040 1) [.pin 4]) 1 = some 4
    ∧ pinHeld (claim s (objKey 0x2040 1) []) 1 = none ∧ pinHeld (claim s (objKey 0x2040 1) [.pin 3]) 1 = some 3 := by decide +kernel

/-- An open that waits. -/
def anOpen : OpenReq := { region := 0, slotIndex := 0, qp := 0, frame := packet id, asked := true, serial := 0 }
/-- FramesReceived: a packet behind a waiting open, a queue pair that is stopping, a job that is gone, a port that is paused. -/
theorem witness_FramesReceived_open : (∃ o ∈ (portOf (landing [] [anOpen]) 0).openQ, o.qp = 0) ∧ (qpOf (landing [] []) 0).state = .ready
    ∧ (qpOf (paired (fun x => { x with stopping := some (.window 0) })) 0).stopping ≠ none
    ∧ cannotOpen (setSlot (landing [] []) 0 {}) 0 (lrOf (landing [] []) 0) = true := by
  refine ⟨⟨anOpen, by decide +kernel, rfl⟩, by decide +kernel, by decide +kernel, by decide +kernel⟩
/-- R369: a held acknowledgement of a paused port waits. -/
theorem test_ack_paused : let s := modPort (paired (fun x => { x with unacked := 1 })) 0 (fun y => { y with paused := true })
    (after (.ackDelayExpiry 0) s).net.tx = [] ∧ (portOf (after (.ackDelayExpiry 0) s) 0).held.length = 1 := by decide +kernel

end Sys2Proof.Tests
end

/-! What every step keeps, and the statement on the fuses and the engine mode. -/

namespace Sys2Proof.Machine

/-- Every command completes and keeps the queue, the fuses, the bound on pairs and the memories' form: the dispatch, one arm a command. -/
theorem exec_keeps {s0 s : State} (hK : Keeps s0 s) : ∀ i : Instr, ∃ t, exec i s = .next t ∧ Keeps s0 t
  | .loop slot => execLoop_keeps slot s hK
  | .loopCountReturn slot => execLoopCountReturn_keeps slot s hK
  | .endloop slot => execEndloop_keeps slot s hK
  | .waitSemaphore slot => execWaitSemaphore_keeps slot s hK
  | .waitBarrier slot => execWaitBarrier_keeps slot s hK
  | .waitTime slot => execWaitTime_keeps slot s hK
  | .waitTimeExpiry slot queue => execWaitTimeExpiry_keeps slot queue s hK
  | .signal src => execSignal_keeps src s hK
  | .jump slot => execJump_keeps slot s hK
  | .fetchlist slot => execFetchlist_keeps slot s hK
  | .joblistRecordReturn slot elsewhere => execJoblistRecordReturn_keeps slot elsewhere s hK
  | .switch slot => execSwitch_keeps slot s hK
  | .halt slot => execHalt_keeps slot s hK
  | .seqCommand slot => execSeqCommand_keeps slot s hK
  | .txaItem slot => execTxaItem_keeps slot s hK
  | .forgeItem slot => execForgeItem_keeps slot s hK
  | .deliver slot => execDeliver_keeps slot s hK
  | .keyRegister slot => execKeyRegister_keeps slot s hK
  | .keyRegistrationCheck slot queue => execKeyRegistrationCheck_keeps slot queue s hK
  | .keyStream slot => execKeyStream_keeps slot s hK
  | .ingestStage slot => execIngestStage_keeps slot s hK
  | .batchStage slot => execBatchStage_keeps slot s hK
  | .fetch slot => execFetch_keeps slot s hK
  | .alloc slot => execAlloc_keeps slot s hK
  | .free slot => execFree_keeps slot s hK
  | .commandIssue slot queue ras => execCommandIssue_keeps slot queue ras s hK
  | .slotFaultPropagation slot code die => execSlotFaultPropagation_keeps slot code die s hK
  | .commandComplete slot queue => execCommandComplete_keeps slot queue s hK
  | .jobEnd slot othersReady => execJobEnd_keeps slot othersReady s hK
  | .bankSwap => execBankSwap_keeps s hK
  | .rootStart via value elsewhere => execRootStart_keeps via value elsewhere s hK
  | .progBankWrite via bank data => execProgBankWrite_keeps via bank data s hK
  | .progArm via crc => execProgArm_keeps via crc s hK
  | .semDepthWrite via pair depth => execSemDepthWrite_keeps via pair depth s hK
  | .barRelease => execBarRelease_keeps s hK
  | .engineArrive fabricFirst waitFclk => execEngineArrive_keeps fabricFirst waitFclk s hK
  | .barReport => execBarReport_keeps s hK
  | .fedArrive msg => execFedArrive_keeps msg s hK
  | .fedRelease msg => execFedRelease_keeps msg s hK
  | .regionPoisoning slot => execRegionPoisoning_keeps slot s hK
  | .primeSetImageWrite via set data => execPrimeSetImageWrite_keeps via set data s hK
  | .primeSetValidation set othersPass => execPrimeSetValidation_keeps set othersPass s hK
  | .txaDispatch => execTxaDispatch_keeps s hK
  | .txaItemComplete tile faults reads => execTxaItemComplete_keeps tile faults reads s hK
  | .txaTileEnableWrite via high value => execTxaTileEnableWrite_keeps via high value s hK
  | .unitSelftestComplete kind failed => execUnitSelftestComplete_keeps kind failed s hK
  | .forgeDispatch reads => execForgeDispatch_keeps reads s hK
  | .forgeLimbVerdict fftUnit faults => execForgeLimbVerdict_keeps fftUnit faults s hK
  | .encRootKeyWrite via root data => execEncRootKeyWrite_keeps via root data s hK
  | .sdxStreamStart => execSdxStreamStart_keeps s hK
  | .sdxPermutationDone lane disagree taken => execSdxPermutationDone_keeps lane disagree taken s hK
  | .sdxStallResume lane stallFclk => execSdxStallResume_keeps lane stallFclk s hK
  | .sdxLaneEnableWrite via high value => execSdxLaneEnableWrite_keeps via high value s hK
  | .keyStreamDispatch => execKeyStreamDispatch_keeps s hK
  | .rsvCall slot purpose sample block draw => execRsvCall_keeps slot purpose sample block draw s hK
  | .rsvCallReturn core disagree => execRsvCallReturn_keeps core disagree s hK
  | .rsvCoreEnableWrite via value => execRsvCoreEnableWrite_keeps via value s hK
  | .mdcDecodeDispatch => execMdcDecodeDispatch_keeps s hK
  | .mdcDecodingUnitStart core unit => execMdcDecodingUnitStart_keeps core unit s hK
  | .mdcPictureComplete core picture => execMdcPictureComplete_keeps core picture s hK
  | .mdcSampleOutcome core stream how inflated => execMdcSampleOutcome_keeps core stream how inflated s hK
  | .mdcCoreEnableWrite via value => execMdcCoreEnableWrite_keeps via value s hK
  | .tokItemDispatch inflated => execTokItemDispatch_keeps inflated s hK
  | .tokMergePiece finished => execTokMergePiece_keeps finished s hK
  | .tokSampleOutcome => execTokSampleOutcome_keeps s hK
  | .tokTableLoad via value => execTokTableLoad_keeps via value s hK
  | .tokTableLoadComplete othersPass => execTokTableLoadComplete_keeps othersPass s hK
  | .tokCoreEnableWrite via value => execTokCoreEnableWrite_keeps via value s hK
  | .shapeSample slot sample => execShapeSample_keeps slot sample s hK
  | .batChunkAssign slot told => execBatChunkAssign_keeps slot told s hK
  | .batSampleOutcome slot position code result norm truncated poisoned =>
    execBatSampleOutcome_keeps slot position code result norm truncated poisoned s hK
  | .hostPoll slot timedOut => execHostPoll_keeps slot timedOut s hK
  | .poolEnableWrite via pool => execPoolEnableWrite_keeps via pool s hK
  | .poolInitComplete pool => execPoolInitComplete_keeps pool s hK
  | .poolDisableWrite via pool => execPoolDisableWrite_keeps via pool s hK
  | .poolAllocRequest slot size => execPoolAllocRequest_keeps slot size s hK
  | .poolAllocGrant pool waitedFclk => execPoolAllocGrant_keeps pool waitedFclk s hK
  | .poolRefillReturn pool poisoned damaged => execPoolRefillReturn_keeps pool poisoned damaged s hK
  | .poolFreeRequest slot addr => execPoolFreeRequest_keeps slot addr s hK
  | .poolFreeCheck pool poisoned => execPoolFreeCheck_keeps pool poisoned s hK
  | .poolDeadlock waitedFclk blockedFclk => execPoolDeadlock_keeps waitedFclk blockedFclk s hK
  | .retryBackoffExpiry slot unit => execRetryBackoffExpiry_keeps slot unit s hK
  | .dlvItemDispatch => execDlvItemDispatch_keeps s hK
  | .memReadReturn port sent which error => execMemReadReturn_keeps port sent which error s hK
  | .dlvPortWrite port read => execDlvPortWrite_keeps port read s hK
  | .spWack port => execSpWack_keeps port s hK
  | .d2dLineReceived die item dst what slot tag due => execD2dLineReceived_keeps die item dst what slot tag due s hK
  | .mcastCreditReturn item die dst num dropped stallFclk => execMcastCreditReturn_keeps item die dst num dropped stallFclk s hK
  | .stragglerTimeout item => execStragglerTimeout_keeps item s hK
  | .stragglerEnableWrite via value => execStragglerEnableWrite_keeps via value s hK
  | .bankPdReqAssert bank => execBankPdReqAssert_keeps bank s hK
  | .bankPdReqWithdraw bank => execBankPdReqWithdraw_keeps bank s hK
  | .bankOnRise bank => execBankOnRise_keeps bank s hK
  | .aliasRead core offset width poisoned remoteAbort remoteData => execAliasRead_keeps core offset width poisoned remoteAbort remoteData s hK
  | .aliasWrite core offset width value remoteAbort => execAliasWrite_keeps core offset width value remoteAbort s hK
  | .winAbortRead core => execWinAbortRead_keeps core s hK
  | .expeditedRead w => execExpeditedRead_keeps w s hK
  | .expeditedWrite w => execExpeditedWrite_keeps w s hK
  | .segmentedReadStart w => execSegmentedReadStart_keeps w s hK
  | .segmentedWriteStart w => execSegmentedWriteStart_keeps w s hK
  | .segment w => execSegment_keeps w s hK
  | .cancel w => execCancel_keeps w s hK
  | .dictSegTimeout mailbox => execDictSegTimeout_keeps mailbox s hK
  | .dictWrite via index sub data => execDictWrite_keeps via index sub data s hK
  | .fedForward msg => execFedForward_keeps msg s hK
  | .epinAssignWrite via object value => execEpinAssignWrite_keeps via object value s hK
  | .watchdogEnableWrite via value => execWatchdogEnableWrite_keeps via value s hK
  | .watchdogKick via value => execWatchdogKick_keeps via value s hK
  | .watchdogExpiry => execWatchdogExpiry_keeps s hK
  | .pinPulseEnd pin => execPinPulseEnd_keeps pin s hK
  | .holdoffTimerExpiry group => execHoldoffTimerExpiry_keeps group s hK
  | .evtTake via core source => execEvtTake_keeps via core source s hK
  | .evtDone via core source => execEvtDone_keeps via core source s hK
  | .evtPendSet via word bits => execEvtPendSet_keeps via word bits s hK
  | .evtPendClear via word bits => execEvtPendClear_keeps via word bits s hK
  | .evtLatchClear via word bits => execEvtLatchClear_keeps via word bits s hK
  | .evtSwRaise via word bits => execEvtSwRaise_keeps via word bits s hK
  | .evtCfgWrite via source value => execEvtCfgWrite_keeps via source value s hK
  | .evtGrpTimeWrite via group value => execEvtGrpTimeWrite_keeps via group value s hK
  | .coreMaskWrite via core value => execCoreMaskWrite_keeps via core value s hK
  | .coreSleepEnter core => execCoreSleepEnter_keeps core s hK
  | .coreSleepExit core => execCoreSleepExit_keeps core s hK
  | .portEnableWrite via port value => execPortEnableWrite_keeps via port value s hK
  | .portDisableDeadline port => execPortDisableDeadline_keeps port s hK
  | .laneEnableWrite via port value => execLaneEnableWrite_keeps via port value s hK
  | .quiesceWrite via port value => execQuiesceWrite_keeps via port value s hK
  | .autonegComplete port partner => execAutonegComplete_keeps port partner s hK
  | .trainingFrameReceived port lane frame request ready => execTrainingFrameReceived_keeps port lane frame request ready s hK
  | .laneTrained port lane => execLaneTrained_keeps port lane s hK
  | .trainingDeadline port => execTrainingDeadline_keeps port s hK
  | .portLinkUp port aclk => execPortLinkUp_keeps port aclk s hK
  | .trainingRetry port => execTrainingRetry_keeps port s hK
  | .laneLockLoss port lane => execLaneLockLoss_keeps port lane s hK
  | .laneFecLimit port lane codewords => execLaneFecLimit_keeps port lane codewords s hK
  | .realignComplete port => execRealignComplete_keeps port s hK
  | .linkLoss port => execLinkLoss_keeps port s hK
  | .frameReceived port frame bufferBytes => execFrameReceived_keeps port frame bufferBytes s hK
  | .ackDelayExpiry qp => execAckDelayExpiry_keeps qp s hK
  | .messageOpen port bufferBytes => execMessageOpen_keeps port bufferBytes s hK
  | .openWaitExpiry port bufferBytes => execOpenWaitExpiry_keeps port bufferBytes s hK
  | .qpEnable via qp => execQpEnable_keeps via qp s hK
  | .qpDisable via qp => execQpDisable_keeps via qp s hK
  | .qpDisableDeadline region number => execQpDisableDeadline_keeps region number s hK
  | .lrEnable via region => execLrEnable_keeps via region s hK
  | .lrDisable via region => execLrDisable_keeps via region s hK
  | .ingestConversion message delta => execIngestConversion_keeps message delta s hK
  | .pwrgoodRise => execPwrgoodRise_keeps s hK
  | .pwrgoodFall => execPwrgoodFall_keeps s hK
  | .resetAssert => execResetAssert_keeps s hK
  | .resetRelease => execResetRelease_keeps s hK
  | .bringupStrapLatch packageKind arrayMode dieId memStrap mac0 mac1 =>
    execBringupStrapLatch_keeps packageKind arrayMode dieId memStrap mac0 mac1 s hK
  | .bringupDomainPower => execBringupDomainPower_keeps s hK
  | .bringupCcxSelftestDone passed memOk => execBringupCcxSelftestDone_keeps passed memOk s hK
  | .d2dLinkTrainingDone links aclk => execD2dLinkTrainingDone_keeps links aclk s hK
  | .bringupUnitSelftestDone txa sdx rsv mdc tok => execBringupUnitSelftestDone_keeps txa sdx rsv mdc tok s hK
  | .announce msg aclk => execAnnounce_keeps msg aclk s hK
  | .register msg aclk => execRegister_keeps msg aclk s hK
  | .redirect msg => execRedirect_keeps msg s hK
  | .roster msg aclk => execRoster_keeps msg aclk s hK
  | .announceDeadline aclk => execAnnounceDeadline_keeps aclk s hK
  | .closeDeadline aclk => execCloseDeadline_keeps aclk s hK
  | .exclusionDeadline => execExclusionDeadline_keeps s hK
  | .beat msg => execBeat_keeps msg s hK
  | .beatSend => execBeatSend_keeps s hK
  | .fedLeaveTimeout die => execFedLeaveTimeout_keeps die s hK
  | .prepareRemoval via value => execPrepareRemoval_keeps via value s hK
  | .drainDeadline => execDrainDeadline_keeps s hK
  | .removalRucksackDeadline => execRemovalRucksackDeadline_keeps s hK
  | .removalReady => execRemovalReady_keeps s hK
  | .busSag => execBusSag_keeps s hK
  | .counterDump => execCounterDump_keeps s hK
  | .sagResume via value => execSagResume_keeps via value s hK
  | .rucksackSave via slot elsewhere => execRucksackSave_keeps via slot elsewhere s hK
  | .saveDrainDeadline slot => execSaveDrainDeadline_keeps slot s hK
  | .rucksackWrite slot landing contexts inTime memOk => execRucksackWrite_keeps slot landing contexts inTime memOk s hK
  | .rucksackRestore via addr elsewhere => execRucksackRestore_keeps via addr elsewhere s hK
  | .scrubVisit corrected report => execScrubVisit_keeps corrected report s hK
  | .bankUeLimit txa number => execBankUeLimit_keeps txa number s hK
  | .traceEnable via value => execTraceEnable_keeps via value s hK
  | .traceMark via value => execTraceMark_keeps via value s hK
  | .traceRecordWrite => execTraceRecordWrite_keeps s hK
  | .debugTriggerIn => execDebugTriggerIn_keeps s hK
  | .tapTestLogicReset => execTapTestLogicReset_keeps s hK
  | .extest tdi => execExtest_keeps tdi s hK
  | .samplePreload tdi => execSamplePreload_keeps tdi s hK
  | .idcode tdi => execIdcode_keeps tdi s hK
  | .clamp tdi => execClamp_keeps tdi s hK
  | .highz tdi => execHighz_keeps tdi s hK
  | .dbgStatus tdi => execDbgStatus_keeps tdi s hK
  | .bypass opcode tdi => execBypass_keeps opcode tdi s hK
  | .busSagEnd => execBusSagEnd_keeps s hK
  | .d2dLinkLoss link => execD2dLinkLoss_keeps link s hK
  | .linkLossRetrain port => execLinkLossRetrain_keeps port s hK
  | .poolSpillDone pool => execPoolSpillDone_keeps pool s hK
  | .bankOnFall bank => execBankOnFall_keeps bank s hK
  | .packageWriteComplete index abort => execPackageWriteComplete_keeps index abort s hK

/-- A step, a command's or a tick's, completes and keeps the same from the state whose queue has lost its front. -/
theorem step_keeps (s : State) : ∃ t, step s = .next t ∧ Keeps { s with pending := s.pending.tail } t := by
  cases hq : s.pending with
  | cons c rest =>
    simp only [step, hq]
    exact exec_keeps (Keeps.refl _) c
  | nil =>
    have hs : { s with pending := [] } = s := by rw [← hq]
    simp only [step, hq, List.tail_nil, hs]
    exact ⟨_, rfl, idle_keeps s (Keeps.refl s)⟩

theorem keeps_of_step {s t : State} (h : step s = .next t) : Keeps { s with pending := s.pending.tail } t := by
  obtain ⟨u, hu, hk⟩ := step_keeps s
  cases hu.symm.trans h
  exact hk

theorem fusesKept_of_step {s t : State} (h : step s = .next t) : FusesKept s t := (keeps_of_step h).fuses

/-- The engine mode is a function of the fuses alone (R4). -/
theorem fullArray_of_fuses {s : State} {f : Fuses} (h : s.boot.fuses = some f) : fullArray s = (f.arrayMode == 1) := by
  simp only [fullArray, h]

/-- Settles O4: every command and the tick keep the fuses once known, and the engine mode is read from them. -/
theorem engineModeFixed : Obligations.EngineModeFixed := by
  intro s t h f hs
  have ht : t.boot.fuses = some f := fusesKept_of_step h f hs
  exact ⟨ht, (fullArray_of_fuses ht).trans (fullArray_of_fuses hs).symm⟩

end Sys2Proof.Machine

/-! What each command leaves unchanged, what every command completes with, and what reset leaves. -/

namespace Sys2Proof.Machine

/-- The parts a command may change, as a predicate on parts. -/
abbrev mayChange (c : Instr) (x : Part) : Bool := (changes c).contains x

/-- Every command completes and changes no part but those `changes` names for it: the dispatch, one arm a command. -/
theorem exec_changes (s : State) : ∀ c : Instr, ∃ t, exec c s = .next t ∧ Changes (mayChange c) s t
  | .loop slot => by apply execLoop_changes slot s (.refl _ _) <;> rfl
  | .loopCountReturn slot => by apply execLoopCountReturn_changes slot s (.refl _ _) <;> rfl
  | .endloop slot => by apply execEndloop_changes slot s (.refl _ _) <;> rfl
  | .waitSemaphore slot => by apply execWaitSemaphore_changes slot s (.refl _ _) <;> rfl
  | .waitBarrier slot => by apply execWaitBarrier_changes slot s (.refl _ _) <;> rfl
  | .waitTime slot => by apply execWaitTime_changes slot s (.refl _ _) <;> rfl
  | .waitTimeExpiry slot queue => execWaitTimeExpiry_changes slot queue s (.refl _ _) rfl
  | .signal src => by apply execSignal_changes src s (.refl _ _) <;> rfl
  | .jump slot => by apply execJump_changes slot s (.refl _ _) <;> rfl
  | .fetchlist slot => by apply execFetchlist_changes slot s (.refl _ _) <;> rfl
  | .joblistRecordReturn slot elsewhere => by apply execJoblistRecordReturn_changes slot elsewhere s (.refl _ _) <;> rfl
  | .switch slot => by apply execSwitch_changes slot s (.refl _ _) <;> rfl
  | .halt slot => by apply execHalt_changes slot s (.refl _ _) <;> rfl
  | .seqCommand slot => by apply execSeqCommand_changes slot s (.refl _ _) <;> rfl
  | .txaItem slot => by apply execTxaItem_changes slot s (.refl _ _) <;> rfl
  | .forgeItem slot => by apply execForgeItem_changes slot s (.refl _ _) <;> rfl
  | .deliver slot => by apply execDeliver_changes slot s (.refl _ _) <;> rfl
  | .keyRegister slot => by apply execKeyRegister_changes slot s (.refl _ _) <;> rfl
  | .keyRegistrationCheck slot queue => by apply execKeyRegistrationCheck_changes slot queue s (.refl _ _) <;> rfl
  | .keyStream slot => by apply execKeyStream_changes slot s (.refl _ _) <;> rfl
  | .ingestStage slot => by apply execIngestStage_changes slot s (.refl _ _) <;> rfl
  | .batchStage slot => by apply execBatchStage_changes slot s (.refl _ _) <;> rfl
  | .fetch slot => by apply execFetch_changes slot s (.refl _ _) <;> rfl
  | .alloc slot => by apply execAlloc_changes slot s (.refl _ _) <;> rfl
  | .free slot => by apply execFree_changes slot s (.refl _ _) <;> rfl
  | .commandIssue slot queue ras => by apply execCommandIssue_changes slot queue ras s (.refl _ _) <;> rfl
  | .slotFaultPropagation slot code die => by apply execSlotFaultPropagation_changes slot code die s (.refl _ _) <;> rfl
  | .commandComplete slot queue => by apply execCommandComplete_changes slot queue s (.refl _ _) <;> rfl
  | .jobEnd slot othersReady => by apply execJobEnd_changes slot othersReady s (.refl _ _) <;> rfl
  | .bankSwap => by apply execBankSwap_changes s (.refl _ _) <;> rfl
  | .rootStart via value elsewhere => by apply execRootStart_changes via value elsewhere s (.refl _ _) <;> rfl
  | .progBankWrite via bank data => by apply execProgBankWrite_changes via bank data s (.refl _ _) <;> rfl
  | .progArm via crc => by apply execProgArm_changes via crc s (.refl _ _) <;> rfl
  | .semDepthWrite via pair depth => by apply execSemDepthWrite_changes via pair depth s (.refl _ _) <;> rfl
  | .barRelease => by apply execBarRelease_changes s (.refl _ _) <;> rfl
  | .engineArrive fabricFirst waitFclk => by apply execEngineArrive_changes fabricFirst waitFclk s (.refl _ _) <;> rfl
  | .barReport => by apply execBarReport_changes s (.refl _ _) <;> rfl
  | .fedArrive msg => by apply execFedArrive_changes msg s (.refl _ _) <;> rfl
  | .fedRelease msg => by apply execFedRelease_changes msg s (.refl _ _) <;> rfl
  | .regionPoisoning slot => by apply execRegionPoisoning_changes slot s (.refl _ _) <;> rfl
  | .primeSetImageWrite via set data => by apply execPrimeSetImageWrite_changes via set data s (.refl _ _) <;> rfl
  | .primeSetValidation set othersPass => by apply execPrimeSetValidation_changes set othersPass s (.refl _ _) <;> rfl
  | .txaDispatch => by apply execTxaDispatch_changes s (.refl _ _) <;> rfl
  | .txaItemComplete tile faults reads => by apply execTxaItemComplete_changes tile faults reads s (.refl _ _) <;> rfl
  | .txaTileEnableWrite via high value => by apply execTxaTileEnableWrite_changes via high value s (.refl _ _) <;> rfl
  | .unitSelftestComplete kind failed => by apply execUnitSelftestComplete_changes kind failed s (.refl _ _) <;> rfl
  | .forgeDispatch reads => by apply execForgeDispatch_changes reads s (.refl _ _) <;> rfl
  | .forgeLimbVerdict fftUnit faults => by apply execForgeLimbVerdict_changes fftUnit faults s (.refl _ _) <;> rfl
  | .encRootKeyWrite via root data => by apply execEncRootKeyWrite_changes via root data s (.refl _ _) <;> rfl
  | .sdxStreamStart => by apply execSdxStreamStart_changes s (.refl _ _) <;> rfl
  | .sdxPermutationDone lane disagree taken => by apply execSdxPermutationDone_changes lane disagree taken s (.refl _ _) <;> rfl
  | .sdxStallResume lane stallFclk => by apply execSdxStallResume_changes lane stallFclk s (.refl _ _) <;> rfl
  | .sdxLaneEnableWrite via high value => by apply execSdxLaneEnableWrite_changes via high value s (.refl _ _) <;> rfl
  | .keyStreamDispatch => by apply execKeyStreamDispatch_changes s (.refl _ _) <;> rfl
  | .rsvCall slot purpose sample block draw => by apply execRsvCall_changes slot purpose sample block draw s (.refl _ _) <;> rfl
  | .rsvCallReturn core disagree => by apply execRsvCallReturn_changes core disagree s (.refl _ _) <;> rfl
  | .rsvCoreEnableWrite via value => by apply execRsvCoreEnableWrite_changes via value s (.refl _ _) <;> rfl
  | .mdcDecodeDispatch => by apply execMdcDecodeDispatch_changes s (.refl _ _) <;> rfl
  | .mdcDecodingUnitStart core unit => by apply execMdcDecodingUnitStart_changes core unit s (.refl _ _) <;> rfl
  | .mdcPictureComplete core picture => by apply execMdcPictureComplete_changes core picture s (.refl _ _) <;> rfl
  | .mdcSampleOutcome core stream how inflated => by apply execMdcSampleOutcome_changes core stream how inflated s (.refl _ _) <;> rfl
  | .mdcCoreEnableWrite via value => by apply execMdcCoreEnableWrite_changes via value s (.refl _ _) <;> rfl
  | .tokItemDispatch inflated => by apply execTokItemDispatch_changes inflated s (.refl _ _) <;> rfl
  | .tokMergePiece finished => by apply execTokMergePiece_changes finished s (.refl _ _) <;> rfl
  | .tokSampleOutcome => by apply execTokSampleOutcome_changes s (.refl _ _) <;> rfl
  | .tokTableLoad via value => by apply execTokTableLoad_changes via value s (.refl _ _) <;> rfl
  | .tokTableLoadComplete othersPass => by apply execTokTableLoadComplete_changes othersPass s (.refl _ _) <;> rfl
  | .tokCoreEnableWrite via value => by apply execTokCoreEnableWrite_changes via value s (.refl _ _) <;> rfl
  | .shapeSample slot sample => by apply execShapeSample_changes slot sample s (.refl _ _) <;> rfl
  | .batChunkAssign slot told => by apply execBatChunkAssign_changes slot told s (.refl _ _) <;> rfl
  | .batSampleOutcome slot position code result norm truncated poisoned => by
    apply execBatSampleOutcome_changes slot position code result norm truncated poisoned s (.refl _ _) <;> rfl
  | .hostPoll slot timedOut => by apply execHostPoll_changes slot timedOut s (.refl _ _) <;> rfl
  | .poolEnableWrite via pool => by apply execPoolEnableWrite_changes via pool s (.refl _ _) <;> rfl
  | .poolInitComplete pool => by apply execPoolInitComplete_changes pool s (.refl _ _) <;> rfl
  | .poolDisableWrite via pool => by apply execPoolDisableWrite_changes via pool s (.refl _ _) <;> rfl
  | .poolAllocRequest slot size => by apply execPoolAllocRequest_changes slot size s (.refl _ _) <;> rfl
  | .poolAllocGrant pool waitedFclk => by apply execPoolAllocGrant_changes pool waitedFclk s (.refl _ _) <;> rfl
  | .poolRefillReturn pool poisoned damaged => by apply execPoolRefillReturn_changes pool poisoned damaged s (.refl _ _) <;> rfl
  | .poolFreeRequest slot addr => by apply execPoolFreeRequest_changes slot addr s (.refl _ _) <;> rfl
  | .poolFreeCheck pool poisoned => by apply execPoolFreeCheck_changes pool poisoned s (.refl _ _) <;> rfl
  | .poolDeadlock waitedFclk blockedFclk => by apply execPoolDeadlock_changes waitedFclk blockedFclk s (.refl _ _) <;> rfl
  | .retryBackoffExpiry slot unit => execRetryBackoffExpiry_changes slot unit s (.refl _ _) rfl
  | .dlvItemDispatch => by apply execDlvItemDispatch_changes s (.refl _ _) <;> rfl
  | .memReadReturn port sent which error => by apply execMemReadReturn_changes port sent which error s (.refl _ _) <;> rfl
  | .dlvPortWrite port read => by apply execDlvPortWrite_changes port read s (.refl _ _) <;> rfl
  | .spWack port => by apply execSpWack_changes port s (.refl _ _) <;> rfl
  | .d2dLineReceived die item dst what slot tag due => by
    apply execD2dLineReceived_changes die item dst what slot tag due s (.refl _ _) <;> rfl
  | .mcastCreditReturn item die dst num dropped stallFclk => by
    apply execMcastCreditReturn_changes item die dst num dropped stallFclk s (.refl _ _) <;> rfl
  | .stragglerTimeout item => by apply execStragglerTimeout_changes item s (.refl _ _) <;> rfl
  | .stragglerEnableWrite via value => by apply execStragglerEnableWrite_changes via value s (.refl _ _) <;> rfl
  | .bankPdReqAssert bank => by apply execBankPdReqAssert_changes bank s (.refl _ _) <;> rfl
  | .bankPdReqWithdraw bank => execBankPdReqWithdraw_changes bank s (.refl _ _) rfl
  | .bankOnRise bank => execBankOnRise_changes bank s (.refl _ _) rfl
  | .aliasRead core offset width poisoned remoteAbort remoteData => by
    apply execAliasRead_changes core offset width poisoned remoteAbort remoteData s (.refl _ _) <;> rfl
  | .aliasWrite core offset width value remoteAbort => by
    apply execAliasWrite_changes core offset width value remoteAbort s (.refl _ _) <;> rfl
  | .winAbortRead core => by apply execWinAbortRead_changes core s (.refl _ _) <;> rfl
  | .expeditedRead w => by apply execExpeditedRead_changes w s (.refl _ _) <;> rfl
  | .expeditedWrite w => by apply execExpeditedWrite_changes w s (.refl _ _) <;> rfl
  | .segmentedReadStart w => by apply execSegmentedReadStart_changes w s (.refl _ _) <;> rfl
  | .segmentedWriteStart w => by apply execSegmentedWriteStart_changes w s (.refl _ _) <;> rfl
  | .segment w => by apply execSegment_changes w s (.refl _ _) <;> rfl
  | .cancel w => by apply execCancel_changes w s (.refl _ _) <;> rfl
  | .dictSegTimeout mailbox => by apply execDictSegTimeout_changes mailbox s (.refl _ _) <;> rfl
  | .dictWrite via index sub data => by apply execDictWrite_changes via index sub data s (.refl _ _) <;> rfl
  | .fedForward msg => by apply execFedForward_changes msg s (.refl _ _) <;> rfl
  | .epinAssignWrite via object value => by apply execEpinAssignWrite_changes via object value s (.refl _ _) <;> rfl
  | .watchdogEnableWrite via value => by apply execWatchdogEnableWrite_changes via value s (.refl _ _) <;> rfl
  | .watchdogKick via value => by apply execWatchdogKick_changes via value s (.refl _ _) <;> rfl
  | .watchdogExpiry => by apply execWatchdogExpiry_changes s (.refl _ _) <;> rfl
  | .pinPulseEnd pin => execPinPulseEnd_changes pin s (.refl _ _) rfl
  | .holdoffTimerExpiry group => by apply execHoldoffTimerExpiry_changes group s (.refl _ _) <;> rfl
  | .evtTake via core source => by apply execEvtTake_changes via core source s (.refl _ _) <;> rfl
  | .evtDone via core source => by apply execEvtDone_changes via core source s (.refl _ _) <;> rfl
  | .evtPendSet via word bits => by apply execEvtPendSet_changes via word bits s (.refl _ _) <;> rfl
  | .evtPendClear via word bits => by apply execEvtPendClear_changes via word bits s (.refl _ _) <;> rfl
  | .evtLatchClear via word bits => by apply execEvtLatchClear_changes via word bits s (.refl _ _) <;> rfl
  | .evtSwRaise via word bits => by apply execEvtSwRaise_changes via word bits s (.refl _ _) <;> rfl
  | .evtCfgWrite via source value => by apply execEvtCfgWrite_changes via source value s (.refl _ _) <;> rfl
  | .evtGrpTimeWrite via group value => by apply execEvtGrpTimeWrite_changes via group value s (.refl _ _) <;> rfl
  | .coreMaskWrite via core value => by apply execCoreMaskWrite_changes via core value s (.refl _ _) <;> rfl
  | .coreSleepEnter core => by apply execCoreSleepEnter_changes core s (.refl _ _) <;> rfl
  | .coreSleepExit core => execCoreSleepExit_changes core s (.refl _ _) rfl
  | .portEnableWrite via port value => by apply execPortEnableWrite_changes via port value s (.refl _ _) <;> rfl
  | .portDisableDeadline port => by apply execPortDisableDeadline_changes port s (.refl _ _) <;> rfl
  | .laneEnableWrite via port value => by apply execLaneEnableWrite_changes via port value s (.refl _ _) <;> rfl
  | .quiesceWrite via port value => by apply execQuiesceWrite_changes via port value s (.refl _ _) <;> rfl
  | .autonegComplete port partner => execAutonegComplete_changes port partner s (.refl _ _) rfl
  | .trainingFrameReceived port lane frame request ready => by
    apply execTrainingFrameReceived_changes port lane frame request ready s (.refl _ _) <;> rfl
  | .laneTrained port lane => execLaneTrained_changes port lane s (.refl _ _) rfl
  | .trainingDeadline port => by apply execTrainingDeadline_changes port s (.refl _ _) <;> rfl
  | .portLinkUp port aclk => by apply execPortLinkUp_changes port aclk s (.refl _ _) <;> rfl
  | .trainingRetry port => execTrainingRetry_changes port s (.refl _ _) rfl
  | .laneLockLoss port lane => by apply execLaneLockLoss_changes port lane s (.refl _ _) <;> rfl
  | .laneFecLimit port lane codewords => by apply execLaneFecLimit_changes port lane codewords s (.refl _ _) <;> rfl
  | .realignComplete port => execRealignComplete_changes port s (.refl _ _) rfl
  | .linkLoss port => by apply execLinkLoss_changes port s (.refl _ _) <;> rfl
  | .frameReceived port frame bufferBytes => by apply execFrameReceived_changes port frame bufferBytes s (.refl _ _) <;> rfl
  | .ackDelayExpiry qp => by apply execAckDelayExpiry_changes qp s (.refl _ _) <;> rfl
  | .messageOpen port bufferBytes => by apply execMessageOpen_changes port bufferBytes s (.refl _ _) <;> rfl
  | .openWaitExpiry port bufferBytes => by apply execOpenWaitExpiry_changes port bufferBytes s (.refl _ _) <;> rfl
  | .qpEnable via qp => by apply execQpEnable_changes via qp s (.refl _ _) <;> rfl
  | .qpDisable via qp => by apply execQpDisable_changes via qp s (.refl _ _) <;> rfl
  | .qpDisableDeadline region number => by apply execQpDisableDeadline_changes region number s (.refl _ _) <;> rfl
  | .lrEnable via region => by apply execLrEnable_changes via region s (.refl _ _) <;> rfl
  | .lrDisable via region => by apply execLrDisable_changes via region s (.refl _ _) <;> rfl
  | .ingestConversion message delta => by apply execIngestConversion_changes message delta s (.refl _ _) <;> rfl
  | .pwrgoodRise => by apply execPwrgoodRise_changes s (.refl _ _) <;> rfl
  | .pwrgoodFall => by apply execPwrgoodFall_changes s (.refl _ _) <;> rfl
  | .resetAssert => by apply execResetAssert_changes s (.refl _ _) <;> rfl
  | .resetRelease => by apply execResetRelease_changes s (.refl _ _) <;> rfl
  | .bringupStrapLatch packageKind arrayMode dieId memStrap mac0 mac1 => by
    apply execBringupStrapLatch_changes packageKind arrayMode dieId memStrap mac0 mac1 s (.refl _ _) <;> rfl
  | .bringupDomainPower => by apply execBringupDomainPower_changes s (.refl _ _) <;> rfl
  | .bringupCcxSelftestDone passed memOk => by apply execBringupCcxSelftestDone_changes passed memOk s (.refl _ _) <;> rfl
  | .d2dLinkTrainingDone links aclk => by apply execD2dLinkTrainingDone_changes links aclk s (.refl _ _) <;> rfl
  | .bringupUnitSelftestDone txa sdx rsv mdc tok => by apply execBringupUnitSelftestDone_changes txa sdx rsv mdc tok s (.refl _ _) <;> rfl
  | .announce msg aclk => by apply execAnnounce_changes msg aclk s (.refl _ _) <;> rfl
  | .register msg aclk => by apply execRegister_changes msg aclk s (.refl _ _) <;> rfl
  | .redirect msg => by apply execRedirect_changes msg s (.refl _ _) <;> rfl
  | .roster msg aclk => by apply execRoster_changes msg aclk s (.refl _ _) <;> rfl
  | .announceDeadline aclk => by apply execAnnounceDeadline_changes aclk s (.refl _ _) <;> rfl
  | .closeDeadline aclk => by apply execCloseDeadline_changes aclk s (.refl _ _) <;> rfl
  | .exclusionDeadline => by apply execExclusionDeadline_changes s (.refl _ _) <;> rfl
  | .beat msg => by apply execBeat_changes msg s (.refl _ _) <;> rfl
  | .beatSend => execBeatSend_changes s (.refl _ _) rfl
  | .fedLeaveTimeout die => by apply execFedLeaveTimeout_changes die s (.refl _ _) <;> rfl
  | .prepareRemoval via value => by apply execPrepareRemoval_changes via value s (.refl _ _) <;> rfl
  | .drainDeadline => by apply execDrainDeadline_changes s (.refl _ _) <;> rfl
  | .removalRucksackDeadline => by apply execRemovalRucksackDeadline_changes s (.refl _ _) <;> rfl
  | .removalReady => by apply execRemovalReady_changes s (.refl _ _) <;> rfl
  | .busSag => by apply execBusSag_changes s (.refl _ _) <;> rfl
  | .counterDump => execCounterDump_changes s (.refl _ _) rfl
  | .sagResume via value => by apply execSagResume_changes via value s (.refl _ _) <;> rfl
  | .rucksackSave via slot elsewhere => by apply execRucksackSave_changes via slot elsewhere s (.refl _ _) <;> rfl
  | .saveDrainDeadline slot => by apply execSaveDrainDeadline_changes slot s (.refl _ _) <;> rfl
  | .rucksackWrite slot landing contexts inTime memOk => by
    apply execRucksackWrite_changes slot landing contexts inTime memOk s (.refl _ _) <;> rfl
  | .rucksackRestore via addr elsewhere => by apply execRucksackRestore_changes via addr elsewhere s (.refl _ _) <;> rfl
  | .scrubVisit corrected report => by apply execScrubVisit_changes corrected report s (.refl _ _) <;> rfl
  | .bankUeLimit txa number => by apply execBankUeLimit_changes txa number s (.refl _ _) <;> rfl
  | .traceEnable via value => by apply execTraceEnable_changes via value s (.refl _ _) <;> rfl
  | .traceMark via value => by apply execTraceMark_changes via value s (.refl _ _) <;> rfl
  | .traceRecordWrite => by apply execTraceRecordWrite_changes s (.refl _ _) <;> rfl
  | .debugTriggerIn => by apply execDebugTriggerIn_changes s (.refl _ _) <;> rfl
  | .tapTestLogicReset => execTapTestLogicReset_changes s (.refl _ _) rfl
  | .extest tdi => by apply execExtest_changes tdi s (.refl _ _) <;> rfl
  | .samplePreload tdi => by apply execSamplePreload_changes tdi s (.refl _ _) <;> rfl
  | .idcode tdi => by apply execIdcode_changes tdi s (.refl _ _) <;> rfl
  | .clamp tdi => by apply execClamp_changes tdi s (.refl _ _) <;> rfl
  | .highz tdi => by apply execHighz_changes tdi s (.refl _ _) <;> rfl
  | .dbgStatus tdi => by apply execDbgStatus_changes tdi s (.refl _ _) <;> rfl
  | .bypass opcode tdi => by apply execBypass_changes opcode tdi s (.refl _ _) <;> rfl
  | .busSagEnd => execBusSagEnd_changes s (.refl _ _) rfl
  | .d2dLinkLoss link => by apply execD2dLinkLoss_changes link s (.refl _ _) <;> rfl
  | .linkLossRetrain port => execLinkLossRetrain_changes port s (.refl _ _) rfl
  | .poolSpillDone pool => by apply execPoolSpillDone_changes pool s (.refl _ _) <;> rfl
  | .bankOnFall bank => execBankOnFall_changes bank s (.refl _ _) rfl
  | .packageWriteComplete index abort => by apply execPackageWriteComplete_changes index abort s (.refl _ _) <;> rfl

/-- Settles O3, command by command: what `changes` names for each covers what its operations touch. -/
theorem commandFrames : Obligations.CommandFrames := by
  intro c s t h
  obtain ⟨u, hu, hc⟩ := exec_changes s c
  cases hu.symm.trans h
  exact hc

/-- Settles O5: what every step keeps includes the bound on the pairs. -/
theorem pairsStayBounded : Obligations.PairsStayBounded := fun _ _ h => (keeps_of_step h).pairs

/-- Settles O2: every command and the tick complete, and the queue loses its front alone. -/
theorem commandsComplete : Obligations.CommandsComplete := by
  refine ⟨fun c s => ?_, fun s => ?_⟩
  · obtain ⟨t, ht, hk⟩ := exec_keeps (Keeps.refl s) c
    exact ⟨t, ht, hk.queue⟩
  · obtain ⟨t, ht, hk⟩ := step_keeps s
    exact ⟨t, ht, hk.queue⟩

/-- Settles O7: right after reset every pair has its default counts, and nothing is listed in any memory. -/
theorem invariantsAtReset : Obligations.InvariantsAtReset :=
  ⟨fun _ => Nat.le_refl 1, by decide⟩

/-- Settles O8: every reader of the state finds the default, since the tables and queues of the reset state list nothing. -/
theorem resetHolds : Obligations.ResetHolds := by
  refine ⟨rfl, rfl, rfl, rfl, fun _ => rfl, rfl, rfl, rfl, rfl, fun _ _ => rfl, ?_, ?_, fun _ => ⟨rfl, rfl, rfl, rfl⟩,
    fun _ => ⟨rfl, rfl, rfl⟩, fun _ => ⟨rfl, rfl, rfl, rfl⟩, fun _ => rfl, fun _ => rfl, fun _ => rfl, fun _ => ⟨rfl, rfl⟩,
    rfl, rfl, rfl, rfl, rfl, rfl⟩ <;> decide

end Sys2Proof.Machine

/-! The semaphore pairs: signals, waits, overflow and depth; and the fetch of queued commands. -/

namespace Sys2Proof.Machine

/-! ### Semaphore pairs -/

@[simp] theorem addUser_depth (x : Pair) (n : Nat) : (addUser x n).depth = x.depth := by unfold addUser; split <;> rfl
@[simp] theorem addUser_empty (x : Pair) (n : Nat) : (addUser x n).empty = x.empty := by unfold addUser; split <;> rfl
@[simp] theorem addUser_full (x : Pair) (n : Nat) : (addUser x n).full = x.full := by unfold addUser; split <;> rfl

/-- A pair with a further user counts as before. -/
theorem setPair_addUser_counts (s : State) (p n : Nat) : SameCounts s (setPair s p (addUser (pairOf s p) n)) := by
  intro q
  rw [pairOf_setPair]
  split
  · next hq => subst hq; exact ⟨addUser_depth _ _, addUser_empty _ _, addUser_full _ _⟩
  · exact ⟨rfl, rfl, rfl⟩

/-- A signal that would make EMPTY + FULL exceed D is refused (R21). -/
theorem semSignal_overflow {s : State} {p n : Nat} (full : Bool)
    (h : (pairOf s p).depth < (pairOf s p).empty + (pairOf s p).full + 1) :
    semSignal s p full n = errFault (setPair s p (addUser (pairOf s p) n)) n 0x0F0B := by
  simp [semSignal, h]

/-- A signal within the depth raises its side and grants the first wait held there (R20, R22). -/
theorem semSignal_rises {s : State} {p n : Nat} (full : Bool)
    (h : (pairOf s p).empty + (pairOf s p).full < (pairOf s p).depth) :
    semSignal s p full n = grantHeld (traceSem (setPair s p ((addUser (pairOf s p) n).give full)) p 2 n) p full := by
  have h' : ¬ (pairOf s p).depth < (pairOf s p).empty + (pairOf s p).full + 1 := by omega
  simp [semSignal, h']

@[simp] theorem pairOf_traceSem (s : State) (p q code slot : Nat) : pairOf (traceSem s p code slot) q = pairOf s q := pairOf_traceRec ..

theorem grantHeld_none {s : State} {p : Nat} {full : Bool} (h : ∀ w ∈ (pairOf s p).waits, w.full ≠ full) : grantHeld s p full = s := by
  have hf : (pairOf s p).waits.find? (fun w => w.full == full) = none := by simpa using h
  simp only [grantHeld, hf]

/-- A wait held on a side that has just been raised takes what was given: the counters are as they were before. -/
theorem grantHeld_given {s : State} {p : Nat} {full : Bool} {x : Pair} {w : HeldWait} (hs : pairOf s p = x.give full)
    (hw : x.waits.find? (fun w => w.full == full) = some w) :
    grantHeld s p full = tellGrant (traceSem (setPair s p { x with waits := x.waits.erase w }) p 1 w.slot) w.who full := by
  have hwf : w.full = full := by simpa using List.find?_some hw
  have hx : (x.give full).waits = x.waits := by cases full <;> rfl
  have hpos : 0 < (x.give full).side full := by cases full <;> simp [Pair.give, Pair.side]
  have hback : ({ x.give full with waits := x.waits.erase w } : Pair).take full = { x with waits := x.waits.erase w } := by
    cases full <;> simp [Pair.give, Pair.take]
  simp only [grantHeld, hs, hx, hw, hpos, if_true, grantWait, hwf, pairOf_setPair_self, setPair_setPair, hback]

/-- Settles O15: a signal overflows, or raises its counter and grants the first wait held on its side; a wait is granted while its
counter is above zero, and is held otherwise. -/
theorem semaphoreWaitSignal : Obligations.SemaphoreWaitSignal := by
  refine ⟨fun s n p full => ⟨fun h => ?_, fun h hw => ?_, fun w h hw => ?_⟩, fun s n p full who => ⟨fun h => ?_, fun h => ?_⟩⟩
  · simp only [addUser_depth, addUser_empty, addUser_full] at h
    exact congrArg _ (semSignal_overflow full h)
  · simp only [addUser_depth, addUser_empty, addUser_full] at h
    refine congrArg Host.Outcome.next ((semSignal_rises full h).trans (grantHeld_none ?_))
    rw [pairOf_traceSem, pairOf_setPair_self]
    cases full <;> exact hw
  · simp only [addUser_depth, addUser_empty, addUser_full] at h
    refine congrArg Host.Outcome.next ((semSignal_rises full h).trans (grantHeld_given ?_ hw))
    rw [pairOf_traceSem, pairOf_setPair_self]
  · have h' : 0 < (addUser (pairOf s p) n).side full := h
    simp only [semWait, h', if_true, grantWait, pairOf_setPair_self, setPair_setPair, Pair.take]
  · have h' : (addUser (pairOf s p) n).side full = 0 := h
    simp only [semWait, h', Nat.lt_irrefl, if_false]

/-- An error of a class with an event source fires that source once; every other source keeps its firings. -/
theorem raiseErr_firings (s : State) {code src : Nat} (slot : Nat) (h : (errInfo code).2.2 = src) (h' : src ≠ 256) :
    SameFirings (setSrc s src { srcOf s src with latch := true, firings := satAdd (srcOf s src).firings 1, lastCode := code })
      (raiseErr s code slot) := by
  have hr : raiseErr s code slot = fire (countErr s code slot) src code := by simp [raiseErr, h, h']
  rw [hr]
  refine SameFirings.trans (fun j => ?_) (fire_srcs _ _ _)
  simp only [srcOf_setSrc, srcOf_countErr, and_self]

/-- Settles O16: the counters stay, sources 4 and 3 fire once each, and of the slots the one that signals alone is faulted. -/
theorem semaphoreOverflow : Obligations.SemaphoreOverflow := by
  intro s n p full hd hi hf
  let u := setPair s p (addUser (pairOf s p) n)
  let v := raiseErr u 0x0F0B n
  have hslot : ∀ j, slotOf v j = slotOf s j := fun j => slotOf_raiseErr u 0x0F0B n j
  have hvi : (slotOf v n).state ≠ .idle := by rw [hslot]; exact hi
  have hvf : (slotOf v n).state ≠ .faulted := by rw [hslot]; exact hf
  obtain ⟨⟨hstate, hfault⟩, hothers, hcounts⟩ := slotFault_effect v n 0x0F0B hvi hvf
  have hp := ((setPair_addUser_counts s p n).trans (t := u) (u := v) (fun q => by
    have : pairOf v q = pairOf u q := pairOf_raiseErr u 0x0F0B n q
    rw [this]; exact ⟨rfl, rfl, rfl⟩)).trans hcounts p
  have h4 := raiseErr_firings u (src := 4) n (rfl : (errInfo 0x0F0B).2.2 = 4) (by decide)
  have hq := slotFault_firings v n 0x0F0B hvi hvf
  have hq4 := hq 4 (by decide)
  have hq3 := hq 3 (by decide)
  have h44 := h4 4
  have h43 := h4 3
  rw [srcOf_setSrc_self] at hq3 h44
  rw [srcOf_setSrc, if_neg (by decide)] at hq4 h43
  refine ⟨slotFault v n 0x0F0B, congrArg _ (semSignal_overflow full hd), hp.2.1, hp.2.2, hp.1, hstate, hfault,
    hq4.2.1.trans h44.2.1, hq4.2.2.1.trans h44.2.2.1, hq3.2.1, ?_, fun j hj => (hothers j hj).trans (hslot j)⟩
  exact hq3.2.2.1.trans (congrArg (satAdd · 1) h43.2.2.1)

/-! ### SEM_DEPTH -/

/-- The row of SEM_DEPTH (R328). -/
def semDepthRow : ObjRow := ⟨0x01, 0x01, .u16, .rw, 1, .range 1 4096⟩

theorem objRow_semDepth : ∀ p, p < 256 → objRow (0x7100 + p) 1 = some semDepthRow := by decide +kernel

/-- A depth that passes the checks of a write lies in its range. -/
theorem semDepth_range {s : State} {via : Via} {p d : Nat} (hp : p < 256) (hd : d < 65536)
    (h : writeVerdict s via (0x7100 + p) 1 (leBytes 2 d) = .go) : 1 ≤ d ∧ d ≤ 4096 := by
  obtain ⟨r, hr, hv⟩ := writeVerdict_go h
  rw [objRow_semDepth p hp] at hr
  cases hr
  have hn : leNat (leBytes 2 d) = d := by rw [leNat_leBytes]; omega
  have hr : ¬ d = 0 ∧ d ≤ 4096 := by simpa [valueAbort, semDepthRow, ObjTy.size, ObjRange.holds, hn] using hv
  omega

/-- Settles O17: a write that passes its checks carries a depth in range, and takes effect while the pair has no user. -/
theorem semaphoreDepthSet : Obligations.SemaphoreDepthSet := by
  intro s via p d hp hd
  refine ⟨fun ht => ?_, fun hr v hv => by have := semDepth_range hp hd hv; omega⟩
  have hn : leNat (leBytes 2 d) = d := by rw [leNat_leBytes]; omega
  have hx : exec (.semDepthWrite via p d) s
      = .next (semDepthEffect via (0x7100 + p) 1 (leBytes 2 d) (arriving s via (0x7100 + p) 1 (leBytes 2 d))) :=
    congrArg _ (requestWrite_takes ht semDepthEffect)
  obtain ⟨h1, h2⟩ := semDepth_range hp hd ht.2.1
  refine ⟨h1, h2, fun hu => ⟨?_, ?_⟩, fun hu => ?_⟩
  · rw [hx]
    simp [semDepthEffect, hu, hn]
  · rw [pairOf_dictDone]
    exact congrArg Pair.full (pairOf_setPair_self ..)
  · rw [hx]
    simp [semDepthEffect, hu]

/-! ### Fetching -/

/-- A command of a WAIT's kind, or of any kind where the row names none. -/
def fitsKind (kind : Option Nat) (w : Nat) : Bool := kind.all (fun k => wWaitKind w == k)

theorem fitsKind_of {kind : Option Nat} {w : Nat} (h : ∀ k, kind = some k → wWaitKind w = k) : fitsKind kind w = true := by
  cases kind with
  | none => rfl
  | some k => simp [fitsKind, h k rfl]

/-- The rows of queued commands run one fetch, each with its opcode and kind. -/
theorem exec_queuedRow {c : Instr} {n op : Nat} {kind : Option Nat} (h : queuedRow c = some (n, op, kind)) (s : State) :
    exec c s = .next (enqueueAs s n op (fitsKind kind)) := by
  unfold queuedRow at h
  split at h <;> cases h <;> rfl

/-- A command that is not sound faults its slot, whichever the slot was to fetch (R319). -/
theorem enqueueAs_bad {s : State} {n op : Nat} (h1 : fetchTurn s n = true) (h2 : (slotOf s n).pc < 4096)
    (h3 : wOpcode (fetchedWord s n) = op) (h4 : badCommand (fetchedWord s n) = true) (f : Nat → Bool) :
    enqueueAs s n op f = errFault (takeCommand s n) n 0x0F01 := by
  simp [enqueueAs, h1, h3, h4, Nat.not_le.mpr h2]

/-- A slot stalls where its queue has no room (R316). -/
theorem stalls_noRoom {s : State} {n : Nat} (h : stalls s n = true) : ¬ QueueRoom s n (wQueue (fetchedWord s n)) := by
  simp only [stalls, queueFull, Bool.and_eq_true, Bool.or_eq_true, decide_eq_true_eq] at h
  obtain ⟨-, hf⟩ := h
  rintro ⟨h1, h2⟩
  omega

/-- The first command not issued asks for its wait once: a semaphore WAIT for its own, a work command with WAIT_EN for its link's,
a stage for none before its issue (R317). -/
theorem askNext_eq {s : State} {n q : Nat} {c : Cmd} (h : nextUnissued s n q = some c) :
    askNext s n q =
      if needsGrant c = true ∧ c.asked = false then
        semWait (modCmd s c.id (fun c => { c with asked := true }))
          (if wOpcode c.word = opWait then wSemLink c.word else wWaitLink c.word)
          (if wOpcode c.word = opWait then wSemFull c.word else wWaitFull c.word) n (.cmd c.id)
      else s := by
  cases ha : c.asked with
  | true => simp [askNext, h, ha]
  | false =>
    by_cases hw : wOpcode c.word = opWait
    · have hnw : isWork opWait = false := by decide
      by_cases hk : wWaitKind c.word = 0 <;> simp [askNext, needsGrant, h, ha, hw, hk, hnw]
    · simp [askNext, needsGrant, h, ha, hw]

/-- Settles O11: every row of a queued command is the same fetch, which enters the queue, stalls or faults. -/
theorem commandsFetched : Obligations.CommandsFetched := by
  refine ⟨⟨fun c s n op kind hc hf hk => ?_, fun c s n op kind hc hs => ?_, fun s n q c h => askNext_eq h⟩, fun s n ht =>
    ⟨fun hp => ?_, fun hp hb => ⟨?_, fun c op kind hc ho => ?_⟩, fun hp hb => ?_⟩⟩
  · rw [exec_queuedRow hc, enqueueAs_of hf _ (fitsKind_of hk)]
  · exact ⟨stalls_noRoom hs, by rw [exec_queuedRow hc, enqueueAs_full _ _ hs]⟩
  · exact congrArg Host.Outcome.next (by simp [ht, hp])
  · exact congrArg Host.Outcome.next (by simp [ht, hb, Nat.not_le.mpr hp])
  · rw [exec_queuedRow hc, enqueueAs_bad ht hp ho hb]
  · exact congrArg Host.Outcome.next (by simp [ht, hb, Nat.not_le.mpr hp])

end Sys2Proof.Machine

/-! Rest stops: the release of a segment and the arrival at its end. -/

namespace Sys2Proof.Machine

/-! ### Objects that operations leave alone -/

theorem objGet_bumpBy_ne (s : State) (i k v : Nat) {j l : Nat} (h : objKey j l ≠ objKey i k) : objGet (bumpBy s i k v) j l = objGet s j l :=
  objGet_objSet_ne _ _ _ _ _ _ h

theorem objGet_bump_ne (s : State) (i k : Nat) {j l : Nat} (h : objKey j l ≠ objKey i k) : objGet (bump s i k) j l = objGet s j l :=
  objGet_objSet_ne _ _ _ _ _ _ h

@[simp] theorem objGet_bumpBy_self (s : State) (i k v : Nat) : objGet (bumpBy s i k v) i k = satAdd (objGet s i k) v :=
  objGet_objSet_self _ _ _ _

/-- Where neither objects nor tallies may change, no object does. -/
theorem Changes.objGet_eq {p : Part → Bool} {s t : State} (h : Changes p s t) (ho : p .objects = false := by rfl)
    (ht : p .tallies = false := by rfl) (i k : Nat) : objGet t i k = objGet s i k := by
  refine (h.objs (objKey i k)).resolve_left ?_
  unfold keyPart
  split <;> simp [ho, ht]

/-- Every object but one reads the same. -/
def SameBut (key : Nat) (s t : State) : Prop := ∀ i k, objKey i k ≠ key → objGet t i k = objGet s i k

theorem SameBut.refl (key : Nat) (s : State) : SameBut key s s := fun _ _ _ => rfl
theorem SameBut.trans {key : Nat} {s t u : State} (h : SameBut key s t) (h' : SameBut key t u) : SameBut key s u :=
  fun i k hk => (h' i k hk).trans (h i k hk)
theorem SameBut.of_eq {key : Nat} {s t : State} (h : ∀ i k, objGet t i k = objGet s i k) : SameBut key s t := fun i k _ => h i k
theorem SameBut.foldl {α : Type} {key : Nat} {f : State → α → State} (hf : ∀ s x, SameBut key s (f s x)) (l : List α) (s : State) :
    SameBut key s (l.foldl f s) := by
  induction l generalizing s with
  | nil => exact .refl key s
  | cons x l ih => exact (hf s x).trans (ih _)

/-- A trace record counts nothing but a record dropped (R419). -/
theorem traceRec_sameBut (s : State) (k u n c d1 d0 : Nat) : SameBut (objKey 0xA000 0x0A) s (traceRec s k u n c d1 d0) := by
  intro i j h
  unfold traceRec
  dsimp only
  split
  · split
    · rfl
    · exact objGet_bump_ne _ _ _ h
  · rfl

/-- A wake request counts itself alone (R354). -/
theorem wakeUp_sameBut (s : State) (c : Nat) : SameBut (objKey 0x7700 0x62) s (wakeUp s c) := by
  intro i j h
  unfold wakeUp
  dsimp only
  split
  · exact objGet_bump_ne _ _ _ h
  · rfl

theorem setPending_sameBut (s : State) (n : Nat) : SameBut (objKey 0x7700 0x62) s (setPending s n) := by
  unfold setPending
  dsimp only
  split
  · exact .refl _ s
  · split
    · exact (SameBut.of_eq fun _ _ => rfl).trans (wakeUp_sameBut _ _)
    · exact (SameBut.of_eq fun _ _ => rfl).trans (wakeUp_sameBut _ _)

/-- A firing counts nothing among the objects but the wake requests it makes (R347, R354). -/
theorem fire_sameBut (s : State) (n code : Nat) : SameBut (objKey 0x7700 0x62) s (fire s n code) := by
  have hl : ∀ t m, SameBut (objKey 0x7700 0x62) t (latchFiring t m code) := fun t m =>
    .of_eq ((latchFiring_changes (pt := fun x => x == .evt) t m code (Changes.refl _ t) rfl).objGet_eq)
  have he : ∀ t g, SameBut (objKey 0x7700 0x62) t (endHoldoff t g) := fun t g =>
    .of_eq ((endHoldoff_changes (pt := fun x => x == .evt) t g (Changes.refl _ t) rfl).objGet_eq)
  exact ((SameBut.foldl hl [n] s).trans (SameBut.foldl he _ _)).trans (SameBut.foldl setPending_sameBut _ _)

/-! ### Rest stops -/

theorem mem_boundSlots {s : State} {n : Nat} : n ∈ boundSlots s ↔ n < 64 ∧ scheduleBound s n = true := by
  simp [boundSlots, slotNumbers]

/-- The conditions of an arrival, one by one (R282). -/
theorem arrivalReady_iff (s : State) : arrivalReady s = true ↔
    (∀ n, n < 64 → scheduleBound s n = true → (slotOf s n).faultHorizon ≠ none ∨ segmentOf s + 1 ≤ (slotOf s n).horizon)
    ∧ (∀ x ∈ s.dlv.items, x.scratch = true → x.local_ = true → x.isPoisoning = false → x.due ≤ segmentOf s + 1 → x.here = true)
    ∧ (∀ n, n < 64 → scheduleBound s n = true → (slotOf s n).faultHorizon = none ∨ segmentOf s + 1 ≤ (slotOf s n).poisonedTo) := by
  have howed : ∀ x : Dlv, owedDelivery s x = false ↔
      (x.scratch = true → x.local_ = true → x.isPoisoning = false → x.due ≤ segmentOf s + 1 → x.here = true) := by
    intro x
    cases hs : x.scratch <;> cases hl : x.local_ <;> cases hh : x.here <;> cases hp : x.isPoisoning <;> simp [owedDelivery, hs, hl, hh, hp]
  simp only [arrivalReady, Bool.and_eq_true, Bool.not_eq_true', List.all_eq_true, List.any_eq_false, Bool.not_eq_true, mem_boundSlots,
    horizonReached, poisonReached, Bool.or_eq_true, decide_eq_true_eq, Option.isSome_iff_ne_none, Option.isNone_iff_eq_none, howed,
    and_imp, and_assoc]

/-- What a late arrival is put down to touches no object but the counters of key items and the condition recorded (R140, R286). -/
theorem objGet_lateRecord (s : State) {i k : Nat} (h1 : objKey i k ≠ objKey 0x8060 6) (h2 : objKey i k ≠ objKey 0x8060 7)
    (h3 : objKey i k ≠ objKey 0x6801 8) (h4 : objKey i k ≠ objKey 0x6801 9) : objGet (lateRecord s) i k = objGet s i k := by
  unfold lateRecord
  extract_lets u
  have hu : objGet u i k = objGet s i k := by
    show objGet (match s.dlv.lastDone with | some (true, some true) => _ | some (true, some false) => _ | _ => _) i k = _
    split
    · exact objGet_bump_ne _ _ _ h1
    · exact objGet_bump_ne _ _ _ h2
    · rfl
  split
  · rw [objGet_objSet_ne _ _ _ _ _ _ h4, objGet_objSet_ne _ _ _ _ _ _ h3, hu]
  · exact hu

/-- The condition that became true last is recorded (R286). -/
theorem lateRecord_condition {s : State} {slot tag : Nat} (h : s.dlv.lastCond = some (slot, tag)) :
    objGet (lateRecord s) 0x6801 8 = slot ∧ objGet (lateRecord s) 0x6801 9 = tag := by
  unfold lateRecord
  extract_lets u
  have hu : u.dlv = s.dlv := by
    show (match s.dlv.lastDone with | some (true, some true) => _ | some (true, some false) => _ | _ => _ : State).dlv = _
    split <;> rfl
  rw [hu, h]
  exact ⟨by rw [objGet_objSet_ne _ _ _ _ _ _ (by decide), objGet_objSet_self], objGet_objSet_self _ _ _ _⟩

/-- The engine arrives: BAR_ARRIVE toggles, BAR_ARRIVALS counts, and a trace record is queued. -/
def arriveOnTime (s : State) (late : Bool) (wait : Nat) : State :=
  let s := bump { s with dlv := { s.dlv with arrived := true, barArrive := !s.dlv.barArrive } } 0x8010 1
  traceRec s 4 10 63 (if late then 1 else 0) (segmentOf s) (if late then wait else 0)

theorem arrive_early (s : State) (wait : Nat) : arrive s false wait = arriveOnTime s false wait := rfl

theorem arrive_late (s : State) (wait : Nat) :
    arrive s true wait = fire (lateRecord (pulse (bumpBy (bump (arriveOnTime s true wait) 0x8010 2) 0x8010 3 wait) 4)) 8 0 := rfl

theorem arriveOnTime_dlv (s : State) (late : Bool) (wait : Nat) :
    (arriveOnTime s late wait).dlv = { s.dlv with arrived := true, barArrive := !s.dlv.barArrive } := traceRec_dlv ..

theorem objGet_arriveOnTime_arrivals (s : State) (late : Bool) (wait : Nat) :
    objGet (arriveOnTime s late wait) 0x8010 1 = satAdd (objGet s 0x8010 1) 1 :=
  (traceRec_sameBut _ _ _ _ _ _ _ _ _ (by decide)).trans (objGet_bump_self _ _ _)

theorem objGet_arriveOnTime_other (s : State) (late : Bool) (wait : Nat) {k : Nat} (h : objKey 0x8010 k ≠ objKey 0x8010 1)
    (h' : objKey 0x8010 k ≠ objKey 0xA000 0x0A) : objGet (arriveOnTime s late wait) 0x8010 k = objGet s 0x8010 k :=
  (traceRec_sameBut _ _ _ _ _ _ _ _ _ h').trans (objGet_bump_ne _ _ _ h)

theorem pulse_frame (s : State) (sub : Nat) : Changes (fun x => x == .pins) s (pulse s sub) := pulse_changes s sub (Changes.refl _ s) rfl

/-- A late arrival's counters of BAR objects are those before its pulse, record and firing. -/
theorem objGet_arrive_late (s : State) (wait k : Nat) (h : k < 4) :
    objGet (arrive s true wait) 0x8010 k = objGet (bumpBy (bump (arriveOnTime s true wait) 0x8010 2) 0x8010 3 wait) 0x8010 k := by
  rw [arrive_late, fire_sameBut _ _ _ _ _ (by unfold objKey; omega),
    objGet_lateRecord _ (by unfold objKey; omega) (by unfold objKey; omega) (by unfold objKey; omega) (by unfold objKey; omega),
    (pulse_frame _ _).objGet_eq]

/-- Settles O21: the release opens the windows; the arrival waits for its conditions, and counts, and records what it was late for. -/
theorem restStop : Obligations.RestStop := by
  refine ⟨fun s => ⟨fun hc hu => ?_, fun h => ?_⟩, fun s late wait hc hu ha => ⟨fun hr => ?_, fun hr hd => ?_, fun hr hd => ?_⟩,
    fun s late wait h => ?_, arrivalReady_iff, fun s wait => ?_⟩
  · exact congrArg Host.Outcome.next (by simp [hc, hu]; rfl)
  · exact congrArg Host.Outcome.next (by rcases h with h | h <;> simp [h])
  · exact congrArg Host.Outcome.next (by simp [hc, hu, ha, hr])
  · exact congrArg Host.Outcome.next (by simp [hc, hu, ha, hr, hd])
  · exact congrArg Host.Outcome.next (by simp [hc, hu, ha, hr, hd])
  · exact congrArg Host.Outcome.next (by rcases h with h | h | h <;> simp [h])
  · have hlate := objGet_arrive_late s wait
    have hdlv : (lateRecord (pulse (bumpBy (bump (arriveOnTime s true wait) 0x8010 2) 0x8010 3 wait) 4)).dlv = (arriveOnTime s true wait).dlv :=
      ((lateRecord_changes (pt := fun x => x == .objects || x == .tallies) _ (Changes.refl _ _) rfl rfl).dlv.resolve_left (by decide)).trans
        ((pulse_frame _ _).dlv.resolve_left (by decide))
    refine ⟨arriveOnTime_dlv s false wait, objGet_arriveOnTime_arrivals s false wait,
      objGet_arriveOnTime_other s false wait (by decide) (by decide), ?_, ?_, ?_, ?_, (fire_latch _ _ _).1, fun slot tag h => ?_⟩
    · rw [arrive_late, fire_dlv, hdlv, arriveOnTime_dlv]
    · rw [hlate 1 (by decide), objGet_bumpBy_ne _ _ _ _ (by decide), objGet_bump_ne _ _ _ (by decide), objGet_arriveOnTime_arrivals]
    · rw [hlate 2 (by decide), objGet_bumpBy_ne _ _ _ _ (by decide), objGet_bump_self, objGet_arriveOnTime_other _ _ _ (by decide) (by decide)]
    · rw [hlate 3 (by decide), objGet_bumpBy_self, objGet_bump_ne _ _ _ (by decide), objGet_arriveOnTime_other _ _ _ (by decide) (by decide)]
    · have hcond : (pulse (bumpBy (bump (arriveOnTime s true wait) 0x8010 2) 0x8010 3 wait) 4).dlv.lastCond = some (slot, tag) := by
        rw [(pulse_frame _ _).dlv.resolve_left (by decide)]
        exact (congrArg DlvUnit.lastCond (arriveOnTime_dlv s true wait)).trans h
      have := lateRecord_condition hcond
      rw [arrive_late, fire_sameBut _ _ _ _ _ (by decide), fire_sameBut _ _ _ _ _ (by decide)]
      exact this

end Sys2Proof.Machine

/-! Calls of the random service. -/

namespace Sys2Proof.Machine

/-- No call waits to be taken: none that lost its core, none requested, none of a unit's request. -/
def NoCallWaits (s : State) : Prop := s.rsv.moved = [] ∧ s.rsv.waiting = [] ∧ ∀ w ∈ s.rsv.works, w.left = 0

theorem callSlots_eq {s : State} (h : ∀ w ∈ s.rsv.works, w.left = 0) : callSlots s = (s.rsv.waiting.map (·.slot)).eraseDups := by
  have hw : s.rsv.works.filter (fun w => w.left != 0) = [] := List.filter_eq_nil_iff.mpr fun w hw => by simp [h w hw]
  simp [callSlots, hw]

/-- With no call waiting the free cores take none. -/
theorem serveCalls_noCall {s : State} (h : NoCallWaits s) (k : Nat) : serveCalls k s = s := by
  obtain ⟨hm, hw, hl⟩ := h
  have htake : ∀ c, takeCall s c = s := by
    intro c
    simp [takeCall, hm, callSlots_eq hl, hw, arbPick, arbPickBy]
  induction k with
  | zero => rfl
  | succ k ih =>
    rw [serveCalls]
    split
    · rw [htake, ih]
    · rfl

/-- The one call that waits goes to the core that is free. -/
theorem takeCall_only {s : State} {call : RsvCall} (hm : s.rsv.moved = []) (hw : s.rsv.waiting = [call])
    (hl : ∀ w ∈ s.rsv.works, w.left = 0) (c : Nat) :
    takeCall s c = setRsvCore { arbGrant s unitRsv call.slot [call.slot] with rsv := { s.rsv with waiting := [] } } c (some call) := by
  have hs : callSlots s = [call.slot] := by rw [callSlots_eq hl, hw]; rfl
  have hp : arbPick s unitRsv [call.slot] = some call.slot := rfl
  simp [takeCall, hm, hs, hp, giveCall, hw]

theorem serviceList_of_freeUnit {s : State} {k : UnitKind} {c : Nat} (h : freeUnit s k = some c) : serviceList s k ≠ [] := by
  intro he
  simp [freeUnit, he] at h

/-- Of calls none of which waits, a new one goes to the lowest free core, and nothing else changes in the service (R25, R158). -/
theorem rsvServe_newCall {s : State} (h : NoCallWaits s) {c : Nat} (hc : freeUnit s .rsv = some c) (call : RsvCall) :
    let t := rsvServe { s with rsv := { s.rsv with waiting := s.rsv.waiting ++ [call] } }
    t.rsv = { s.rsv with cores := tblSet none s.rsv.cores c (some call) } ∧ t.objs = s.objs := by
  obtain ⟨hm, hw, hl⟩ := h
  let u : State := { s with rsv := { s.rsv with waiting := s.rsv.waiting ++ [call] } }
  have huw : u.rsv.waiting = [call] := by show s.rsv.waiting ++ [call] = _; rw [hw]; rfl
  have hserve : rsvServe u = serveCalls 63 (takeCall u c) := by
    have hl' : serviceList u .rsv ≠ [] := serviceList_of_freeUnit (s := s) hc
    have hc' : freeUnit u .rsv = some c := hc
    simp [rsvServe, hl', serveCalls, hc']
  have htake := takeCall_only (s := u) hm huw hl c
  have hno : NoCallWaits (takeCall u c) := by rw [htake]; exact ⟨hm, rfl, hl⟩
  have ht : rsvServe u = setRsvCore { arbGrant u unitRsv call.slot [call.slot] with rsv := { u.rsv with waiting := [] } } c (some call) := by
    rw [hserve, serveCalls_noCall hno, htake]
  refine ⟨(congrArg State.rsv ht).trans ?_, (congrArg State.objs ht).trans rfl⟩
  show ({ s.rsv with waiting := [], cores := _ } : Rsv) = _
  rw [← hw]

/-- Settles O31: a request is refused, or served in its turn; a return releases its words, or is computed again, or moves the call. -/
theorem randomCalls : Obligations.RandomCalls := by
  refine ⟨fun s n purpose sample block draw hu hb => ⟨fun hp => ?_, fun hp => ?_⟩, fun s c call hc => ?_⟩
  · exact congrArg Host.Outcome.next (by simp [hu, hb, hp])
  · have hserved : serviceList s .rsv ≠ [] → exec (.rsvCall n purpose sample block draw) s =
        .next (rsvServe { s with rsv := { s.rsv with waiting := s.rsv.waiting ++ [callOf s n purpose sample block draw] } }) :=
      fun hl => congrArg Host.Outcome.next (by simp [hu, hb, hp, hl])
    refine ⟨fun hl => congrArg Host.Outcome.next (by simp [hu, hb, hp, hl]), hserved, fun c hc hm hw hl => ⟨_,
      hserved (serviceList_of_freeUnit hc), rsvServe_newCall ⟨hm, hw, hl⟩ hc _⟩⟩
  · have hagree : exec (.rsvCallReturn c false) s =
        .next (rsvServe (unitDone (bump (callEnds (setRsvCore s c none) call) 0x8070 1) .rsv c)) :=
      congrArg Host.Outcome.next (by simp [hc])
    refine ⟨fun hp => ?_, fun id hp => ?_, fun hr => ?_, fun hr => ?_⟩
    · rw [hagree]
      simp [callEnds, hp, setRsvCore]
    · rw [hagree]
      simp [callEnds, hp, setRsvCore]
    · exact congrArg Host.Outcome.next (by simp [hc, hr, setRsvCore])
    · exact congrArg Host.Outcome.next (by simp [hc, hr, setRsvCore])

end Sys2Proof.Machine

/-! The scratchpad ports and the power of their banks. -/

namespace Sys2Proof.Machine

/-! ### Banks -/

@[simp] theorem bankOf_setBank_self (s : State) (b : Nat) (x : Bank) : bankOf (setBank s b x) b = x := tblGet_tblSet_self _ _ _ _

theorem bankOf_setBank_ne (s : State) {b k : Nat} (x : Bank) (h : k ≠ b) : bankOf (setBank s b x) k = bankOf s k :=
  tblGet_tblSet_ne _ _ _ _ _ h

@[simp] theorem bankOf_arbGrant (s : State) (u n : Nat) (ready : List Nat) (b : Nat) : bankOf (arbGrant s u n ready) b = bankOf s b := rfl

@[simp] theorem bankOf_bump (s : State) (i k b : Nat) : bankOf (bump s i k) b = bankOf s b := rfl

/-- The handshake acknowledges once no line to the bank is in flight, and counts it (R296). -/
theorem bankAck_effect (s : State) (b : Nat) :
    bankOf (bankAck s b) b = { bankOf s b with ack := (bankOf s b).ack || ((bankOf s b).req && (bankOf s b).flight == 0) }
    ∧ (∀ k, k ≠ b → bankOf (bankAck s b) k = bankOf s k)
    ∧ objGet (bankAck s b) 0x80E0 0x17 = (if (bankOf s b).req = true ∧ (bankOf s b).ack = false ∧ (bankOf s b).flight = 0
        then satAdd (objGet s 0x80E0 0x17) 1 else objGet s 0x80E0 0x17) := by
  unfold bankAck
  extract_lets x
  split
  · next h =>
    obtain ⟨⟨hr, ha⟩, hf⟩ : (x.req = true ∧ x.ack = false) ∧ x.flight = 0 := by simpa using h
    have hx : bankOf s b = x := rfl
    refine ⟨by simp [hx, hr, hf], fun k hk => bankOf_setBank_ne _ _ hk, ?_⟩
    rw [if_pos ⟨hr, ha, hf⟩]
    exact objGet_bump_self _ _ _
  · next h =>
    have hx : bankOf s b = x := rfl
    have hn : ¬ (x.req = true ∧ x.ack = false ∧ x.flight = 0) := by simpa [and_assoc] using h
    refine ⟨?_, fun _ _ => rfl, by rw [hx, if_neg hn]⟩
    have hack : (x.ack || (x.req && x.flight == 0)) = x.ack := by
      cases ha : x.ack
      · simpa [ha] using hn
      · rfl
    rw [hx, hack]

/-! ### The line a port takes -/

theorem firstLine_mem {ls : List OutLine} {l : OutLine} (h : firstLine ls = some l) : l ∈ ls := by
  induction ls generalizing l with
  | nil => exact absurd h (by simp [firstLine])
  | cons a t ih =>
    unfold firstLine at h
    split at h
    · next m hm =>
      split at h
      · obtain rfl := Option.some.inj h
        exact List.mem_cons_of_mem _ (ih hm)
      · obtain rfl := Option.some.inj h
        exact List.mem_cons_self
    · obtain rfl := Option.some.inj h
      exact List.mem_cons_self

/-- The lines a port may write are lines ready for it, in an open window. -/
theorem mem_portLines {s : State} {port : Nat} {x : Dlv} {l : OutLine} (h : l ∈ portLines s port x) :
    windowOpen s x.due = true ∧ l ∈ x.ready ∧ linePort l.addr = port := by
  unfold portLines at h
  split at h
  · next hw =>
    obtain ⟨hl, hp⟩ := List.mem_filter.mp h
    simp only [Bool.and_eq_true, beq_iff_eq] at hp
    exact ⟨hw, hl, hp.1.1⟩
  · exact absurd h (by simp)

theorem portPick_mem {s : State} {port : Nat} {x : Dlv} {l : OutLine} {slots : List Nat} (h : portPick s port = some (x, l, slots)) :
    l ∈ portLines s port x := by
  unfold portPick at h
  extract_lets ready slots at h
  split at h
  · exact absurd h (by simp)
  · split at h
    · exact absurd h (by simp)
    · obtain ⟨l', hl', he⟩ := Option.map_eq_some_iff.mp h
      obtain ⟨rfl, rfl, -⟩ : _ = x ∧ l' = l ∧ _ := by simpa using he
      exact firstLine_mem hl'

/-! ### Items that come from another die -/

theorem openAway_known {s : State} {die item dst : Nat} {x : Dlv} (h : awayItem s die item dst = some x) (slot tag due : Nat) :
    openAway s die item dst slot tag due = s := by
  simp [openAway, h]

theorem advanceAway_known {s : State} {die item dst : Nat} {x : Dlv} (h : awayItem s die item dst = some x) (f : Dlv → Dlv) :
    advanceAway s die item dst f = advanceDlv (modDlv s x.id f) x.id := by
  simp [advanceAway, h]

theorem modAway_known {s : State} {die item dst : Nat} {x : Dlv} (h : awayItem s die item dst = some x) (f : Dlv → Dlv) :
    modAway s die item dst f = modDlv s x.id f := by
  simp [modAway, h]

theorem lineLeaves_dlv (s : State) (lane : Option Nat) : (lineLeaves s lane).dlv = s.dlv := by
  cases lane <;> rfl

theorem objGet_lineLeaves (s : State) (lane : Option Nat) (i k : Nat) : objGet (lineLeaves s lane) i k = objGet s i k := by
  cases lane <;> rfl

theorem lineLeaves_mem (s : State) (lane : Option Nat) : (lineLeaves s lane).mem = s.mem := by
  cases lane <;> rfl

/-- A line accepted leaves its port, and its bank has one line less in flight (R289, R296). -/
def lineAccepted (s : State) (port : Nat) (f : Flight) (rest : List Flight) : State :=
  let k := lineBank f.line.addr
  let b := bankOf s k
  let s := bankAck (setBank { s with dlv := { s.dlv with ports := tblSet [] s.dlv.ports port rest } } k { b with flight := b.flight - 1 }) k
  lineLeaves (bump s 0x80E0 0x10) f.line.lane

theorem execSpWack_line {s : State} {port : Nat} {f : Flight} {rest : List Flight} (h : tblGet [] s.dlv.ports port = f :: rest) :
    execSpWack port s = .next (
      let s := lineAccepted s port f rest
      match dlvOf s f.item with
      | none => s
      | some x =>
        let s := match x.owner with
          | .remote die item dst => send s (.credit die item dst f.line.num false)
          | _ => s
        let s := keyLineDone s x f.line false
        advanceDlv (modDlv s f.item (fun x => { x with
          flight := x.flight - 1, written := x.written + 1, laneLast := some (f.line.part % 2 == 1), remotes := x.ackOwn f.line
          poisonedLines := if f.line.poison then x.poisonedLines + 1 else x.poisonedLines })) f.item) := by
  rw [execSpWack, h]
  rfl

theorem dlvOf_lineAccepted (s : State) (port : Nat) (f : Flight) (rest : List Flight) (id : Nat) :
    dlvOf (lineAccepted s port f rest) id = dlvOf s id := by
  unfold dlvOf lineAccepted
  rw [lineLeaves_dlv]
  show List.find? _ (bankAck _ _).dlv.items = _
  unfold bankAck
  dsimp only
  split <;> rfl

theorem lineAccepted_effect (s : State) (port : Nat) (f : Flight) (rest : List Flight) :
    let b := bankOf s (lineBank f.line.addr)
    let t := lineAccepted s port f rest
    t.mem = s.mem ∧ tblGet [] t.dlv.ports port = rest
    ∧ bankOf t (lineBank f.line.addr) = { b with flight := b.flight - 1, ack := b.ack || (b.req && b.flight - 1 == 0) }
    ∧ objGet t 0x80E0 0x10 = satAdd (objGet s 0x80E0 0x10) 1 := by
  intro b t
  let k := lineBank f.line.addr
  let v : State := setBank { s with dlv := { s.dlv with ports := tblSet [] s.dlv.ports port rest } } k { b with flight := b.flight - 1 }
  have hmem : (bankAck v k).mem = s.mem := by unfold bankAck; dsimp only; split <;> rfl
  have hports : (bankAck v k).dlv.ports = tblSet [] s.dlv.ports port rest := by unfold bankAck; dsimp only; split <;> rfl
  have hobj : objGet (bankAck v k) 0x80E0 0x10 = objGet s 0x80E0 0x10 := by
    unfold bankAck
    dsimp only
    split
    · exact objGet_bump_ne _ _ _ (by decide)
    · rfl
  have hdlv : t.dlv = (bankAck v k).dlv := lineLeaves_dlv _ _
  refine ⟨(lineLeaves_mem _ _).trans hmem, ?_, ?_, ?_⟩
  · rw [hdlv, hports, tblGet_tblSet_self]
  · rw [bankOf, hdlv]
    exact ((bankAck_effect v k).1).trans (by rw [show bankOf v k = _ from bankOf_setBank_self _ _ _])
  · show objGet (lineLeaves _ _) _ _ = _
    rw [objGet_lineLeaves, objGet_bump_self]
    exact congrArg (satAdd · 1) hobj

/-- Settles O40: what a port takes, what an acknowledgement does, what comes from another die, and the power of a bank. -/
theorem scratchpadPorts : Obligations.ScratchpadPorts := by
  refine ⟨⟨fun s port => ⟨fun h => ?_, fun x l slots hp hu => ?_⟩,
    fun s port => ⟨fun h => ?_, fun f rest h => ⟨fun hd => ?_, ?_⟩⟩,
    fun s die item dst slot tag due what hu => ?_,
    fun s die item dst slot tag due num rank line last hu => ⟨fun x hx => ?_, fun hn => ?_⟩,
    fun s die item dst slot tag due x hu hx => ?_⟩, fun s b => ?_⟩
  · refine congrArg Host.Outcome.next ?_
    obtain h | h := h
    · rw [h]
    · split <;> simp [h]
  · obtain ⟨hw, hl, ha⟩ := mem_portLines (portPick_mem hp)
    refine ⟨hw, hl, ha, fun hb => ?_, fun hb => ?_⟩
    · exact congrArg Host.Outcome.next (by simp [hp, hu, hb])
    · exact congrArg Host.Outcome.next (by simp [hp, hu, hb, readStaging])
  · exact congrArg Host.Outcome.next (by rw [h])
  · refine ⟨lineAccepted s port f rest, ?_, lineAccepted_effect s port f rest⟩
    show execSpWack port s = _
    rw [execSpWack_line h]
    simp only [dlvOf_lineAccepted, hd]
  · intro x die item dst hx ho
    show execSpWack port s = _
    rw [execSpWack_line h]
    have hkey : ∀ t, keyLineDone t x f.line false = t := fun t => by simp [keyLineDone, ho]
    simp only [dlvOf_lineAccepted, hx, ho, hkey]
    rfl
  · exact congrArg Host.Outcome.next (by simp [hu])
  · exact congrArg Host.Outcome.next (by simp [hu, openAway_known hx, modAway_known hx])
  · exact ⟨congrArg Host.Outcome.next (by simp [hu, openAway, hn]),
      congrArg Host.Outcome.next (by simp [hu, takeNotice, openAway, hn])⟩
  · exact ⟨congrArg Host.Outcome.next (by simp [hu, takeNotice, advanceAway_known hx]),
      congrArg Host.Outcome.next (by simp [hu, takeNotice, modAway_known hx]),
      congrArg Host.Outcome.next (by simp [hu, takeNotice, openAway_known hx])⟩
  · intro x
    refine ⟨⟨_, rfl, ?_, fun k hk => ?_, ?_⟩, ⟨_, rfl, bankOf_setBank_self _ _ _, fun k hk => bankOf_setBank_ne _ _ hk⟩,
      ⟨_, rfl, bankOf_setBank_self _ _ _, fun k hk => bankOf_setBank_ne _ _ hk⟩,
      ⟨_, rfl, bankOf_setBank_self _ _ _, fun k hk => bankOf_setBank_ne _ _ hk⟩⟩
    · rw [(bankAck_effect _ _).1]
      simp [x]
    · rw [(bankAck_effect _ _).2.1 k hk, bankOf_setBank_ne _ _ hk]
    · rw [(bankAck_effect _ _).2.2, bankOf_setBank_self]
      simp [x, objGet, setBank]

end Sys2Proof.Machine

/-! Buffers requested of the pools and granted. -/

namespace Sys2Proof.Machine

/-! ### What a pool's bookkeeping leaves -/

/-- The low-water mark alone follows POOL_FREE: another subindex reads the same. -/
theorem objGet_lowWater (s : State) (p i k : Nat) (h : k < 0x0B) : objGet (lowWater s p) i k = objGet s i k := by
  unfold lowWater
  extract_lets f
  split
  · exact objGet_objSet_ne _ _ _ _ _ _ (by unfold objKey; omega)
  · rfl

theorem lowWater_pools (s : State) (p : Nat) : (lowWater s p).pools = s.pools := by
  unfold lowWater
  extract_lets f
  split <;> rfl

theorem lowWater_mem (s : State) (p : Nat) : (lowWater s p).mem = s.mem := by
  unfold lowWater
  extract_lets f
  split <;> rfl

theorem lowWater_boot (s : State) (p : Nat) : (lowWater s p).boot = s.boot := by
  unfold lowWater
  extract_lets f
  split <;> rfl

/-- A refill or a spill started leaves the buffers allocated and the state bits. -/
theorem poolBalance_effect (s : State) (p : Nat) :
    (poolOf (poolBalance s p) p).allocated = (poolOf s p).allocated
    ∧ stateBit (poolBalance s p) p = stateBit s p := by
  unfold poolBalance
  extract_lets x
  split
  · exact ⟨rfl, rfl⟩
  · split
    · exact ⟨by rw [poolOf_setPool_self], rfl⟩
    · split
      · exact ⟨by rw [poolOf_setPool_self], rfl⟩
      · exact ⟨rfl, rfl⟩

theorem stateBit_bumpBy (s : State) (p v : Nat) : stateBit (bumpBy s 0x80C0 3 v) p = stateBit s p := by
  have h : poolStates (bumpBy s 0x80C0 3 v) p = poolStates s p := objGet_bumpBy_ne _ _ _ _ (by unfold objKey; omega)
  funext i
  show (memNat s (poolStates (bumpBy s 0x80C0 3 v) p + i / 8) 1).testBit (i % 8) = _
  rw [h]
  rfl

/-- So do the requests counted that wait for a refill. -/
theorem countMisses_effect (s : State) (p : Nat) :
    (poolOf (countMisses s p) p).allocated = (poolOf s p).allocated
    ∧ stateBit (countMisses s p) p = stateBit s p := by
  unfold countMisses
  extract_lets x waits
  split
  · refine ⟨?_, (stateBit_bumpBy _ _ _).trans rfl⟩
    show (poolOf (setPool s p _) p).allocated = _
    rw [poolOf_setPool_self]
  · exact ⟨rfl, rfl⟩

/-- A state bit reads as it was written (R248). -/
theorem stateBit_setStateBit (s : State) (p i : Nat) (v : Bool) : stateBit (setStateBit s p i v) p i = v := by
  have h8 : i % 8 < 8 := Nat.mod_lt _ (by decide)
  have hread : ∀ b : Byte, cellsGet (cellsSet s.mem.dev (poolStates s p + i / 8) [b]) (poolStates s p + i / 8) 1 = [b] :=
    fun b => cellsGet_cellsSet _ _ [b]
  show (leNat (cellsGet (cellsSet s.mem.dev (poolStates s p + i / 8) _) (poolStates s p + i / 8) 1)).testBit (i % 8) = v
  rw [hread]
  simp only [leNat, BitVec.toNat_ofNat, Nat.mul_zero, Nat.add_zero, Nat.testBit_mod_two_pow, h8, decide_true, Bool.true_and]
  rw [testBit_putBit, if_pos rfl]

/-- With no entry damaged for the newest index, none is dropped (R414). -/
theorem dropDamaged_sound {s : State} {p i : Nat} (h : ∀ e ∈ (poolOf s p).damaged, e.1 ≠ i) (rest : List Nat) :
    dropDamaged s p (i :: rest) = s := by
  have hf : (poolOf s p).damaged.find? (fun e => e.1 == i) = none := List.find?_eq_none.mpr fun e he => by simpa using h e he
  simp [dropDamaged, hf]

/-- A set accepted with no operation before it is performed at once (R253). -/
theorem acceptOp_set {s : State} {p : Nat} (h : (poolOf s p).ops = []) {i : Nat} (hp : stateLinePoisoned s p i = false) (n : Nat) :
    acceptOp s p (.set n i) = setStateBit (setPool s p { poolOf s p with ops := [] }) p i true := by
  have hq : stateLinePoisoned (setPool s p { poolOf s p with ops := [] }) p i = false := hp
  unfold acceptOp
  simp only [h, List.nil_append, runSets, poolOf_setPool_self, setPool_setPool, readStateLine, hq]
  rfl

/-- A granted request takes the newest index of the cache, and its state bit is queued (R251, R253). -/
theorem takeIndex_newest {s : State} {p i : Nat} {rest : List Nat} (hc : (poolOf s p).cache = i :: rest)
    (hd : ∀ e ∈ (poolOf s p).damaged, e.1 ≠ i) (r : AllocReq) :
    let u := lowWater (setPool s p { poolOf s p with cache := rest, allocated := (poolOf s p).allocated ++ [(i, r.slot)] }) p
    takeIndex s p r = answer (countMisses (poolBalance (acceptOp u p (.set r.slot i)) p) p) r 0 (bufferAddr u p i) := by
  intro u
  have hdrop : dropDamaged s p (poolOf s p).cache = s := by rw [hc]; exact dropDamaged_sound hd rest
  unfold takeIndex
  rw [hdrop]
  dsimp only
  rw [hc]

/-- A stage's answer joins those it has to find, and its pool is as it was. -/
theorem answer_stage (t : State) {r : AllocReq} (ho : r.owner = .stage) (code addr p : Nat) :
    poolOf (answer t r code addr) p = poolOf t p ∧ stateBit (answer t r code addr) p = stateBit t p
    ∧ (answer t r code addr).pools.answers = t.pools.answers ++ [{ slot := r.slot, size := r.size, code := code, addr := addr }] := by
  have h : answer t r code addr = { t with pools := { t.pools with
      answers := t.pools.answers ++ [{ slot := r.slot, size := r.size, code := code, addr := addr }] } } := by simp [answer, ho]
  rw [h]
  exact ⟨rfl, rfl, rfl⟩

/-- The index it took is its slot's, with its state bit set, and a stage finds the buffer's address in its answer. -/
theorem takeIndex_effect {s : State} {p i : Nat} {rest : List Nat} {r : AllocReq} (hc : (poolOf s p).cache = i :: rest)
    (ho : r.owner = .stage) (hops : (poolOf s p).ops = []) (hd : ∀ e ∈ (poolOf s p).damaged, e.1 ≠ i) (hp : stateLinePoisoned s p i = false) :
    (i, r.slot) ∈ (poolOf (takeIndex s p r) p).allocated ∧ stateBit (takeIndex s p r) p i = true
    ∧ { slot := r.slot, size := r.size, code := 0, addr := bufferAddr s p i } ∈ (takeIndex s p r).pools.answers := by
  let x : Pool := { poolOf s p with cache := rest, allocated := (poolOf s p).allocated ++ [(i, r.slot)] }
  let u := lowWater (setPool s p x) p
  have hdie : dieId u = dieId s := by rw [dieId, lowWater_boot]; rfl
  have hindex : poolIndex u p = poolIndex s p := by rw [poolIndex, hdie]; rfl
  have hobj : ∀ k, k < 0x0B → objGet u (poolIndex u p) k = objGet s (poolIndex s p) k := fun k hk => by
    rw [hindex]; exact objGet_lowWater _ _ _ _ hk
  have hx : poolOf u p = x := by rw [poolOf, lowWater_pools]; exact poolOf_setPool_self _ _ _
  have hline : stateLinePoisoned u p i = false := by
    have hmem : u.mem = s.mem := lowWater_mem _ _
    simpa [stateLinePoisoned, poolStates, memPoisoned, granulePoisoned, hobj, hmem] using hp
  have haddr : bufferAddr u p i = bufferAddr s p i := by simp [bufferAddr, poolBase, poolLog2, hobj]
  let v := setStateBit (setPool u p { poolOf u p with ops := [] }) p i true
  have htake : takeIndex s p r = answer (countMisses (poolBalance v p) p) r 0 (bufferAddr s p i) := by
    rw [takeIndex_newest hc hd, ← haddr]
    exact congrArg (fun w => answer (countMisses (poolBalance w p) p) r 0 (bufferAddr u p i)) (acceptOp_set (by rw [hx]; exact hops) hline _)
  obtain ⟨hca, hcb⟩ := countMisses_effect (poolBalance v p) p
  obtain ⟨hba, hbb⟩ := poolBalance_effect v p
  obtain ⟨hpa, hbit, hans⟩ := answer_stage (countMisses (poolBalance v p) p) ho 0 (bufferAddr s p i) p
  have hv : poolOf v p = { x with ops := [] } := by rw [← hx]; exact poolOf_setPool_self _ _ _
  rw [htake, hpa, hbit, hans, hca, hba, hcb, hbb, hv]
  exact ⟨List.mem_append_right _ List.mem_cons_self, stateBit_setStateBit _ _ _ _, List.mem_append_right _ List.mem_cons_self⟩

@[simp] theorem poolMargin_setPool (s : State) (q p : Nat) (x : Pool) : poolMargin (setPool s q x) p = poolMargin s p := rfl

/-- Settles O37: a request is granted, waits or is refused; an index goes to the request granted longest ago; what a granted request
takes. -/
theorem poolRequests : Obligations.PoolRequests := by
  refine ⟨fun s n size => ⟨fun h => ?_,
      fun h => ⟨fun hf => ?_, fun p hf => ⟨fun hh => ?_, fun hh hm ha => ?_, fun hh hm => ?_⟩⟩⟩,
    fun s p k => ⟨fun r hr hc => ?_, fun h => ?_, fun n r ha hr => ⟨fun hg => ?_, fun hg => ?_⟩⟩,
    fun s p i rest r hc ho hops hd hp => ?_, fun s n unit => rfl⟩
  · exact congrArg Host.Outcome.next (by simp [h])
  · exact congrArg Host.Outcome.next (by simp [h, poolRequest, hf, answer])
  · exact congrArg Host.Outcome.next (by simp [h, poolRequest, hf, hh])
  · exact congrArg Host.Outcome.next (by simp [h, poolRequest, hf, Nat.not_lt.mpr hh, hm, ha])
  · exact congrArg Host.Outcome.next (by
      obtain hm | hm := hm
      · simp [h, poolRequest, hf, Nat.not_lt.mpr hh, Nat.not_lt.mpr hm]
      · simp [h, poolRequest, hf, Nat.not_lt.mpr hh, hm])
  · exact congrArg Host.Outcome.next (by simp [hr, hc])
  · refine congrArg Host.Outcome.next ?_
    dsimp only
    obtain h | h := h
    · rw [h]
    · split
      · rw [h]; rfl
      · rfl
  · simp [moveBlocked, ha, hr, hg]
  · simp [moveBlocked, ha, hr, hg]
  · exact ⟨_, rfl, takeIndex_effect hc ho hops hd hp⟩

end Sys2Proof.Machine

/-! The forge: items dispatched, counters of a root, and its key. -/

namespace Sys2Proof.Machine

/-! ### The start of a forge item -/

theorem noiseStreams_length (s : State) (i : ForgeItem) (counter : Nat) : (noiseStreams s i counter).length = 3 * i.p.batch := by
  simp [noiseStreams, List.length_flatMap, Nat.mul_comm]

theorem forgeCalls_of_sets {s t : State} (h : t.sets = s.sets) (p : ForgeParams) : forgeCalls t p = forgeCalls s p := by
  simp only [forgeCalls, forgeN, setOf, h]

theorem rootOf_set (s : State) (r : Nat) (x : EncRoot) (k : Nat) :
    rootOf { s with roots := tblSet {} s.roots r x } k = if k = r then x else rootOf s k := by
  split
  · next h => subst h; exact tblGet_tblSet_self _ _ _ _
  · next h => exact tblGet_tblSet_ne _ _ _ _ _ h

/-- The counter values and the noise streams an item takes (R101, R102). -/
def forgeTakes (s : State) (i : ForgeItem) : State :=
  let root := rootOf s i.p.encRoot
  let streams := if i.p.output == 1 then noiseStreams s i root.count else []
  let s := if i.p.output == 1 then { s with roots := tblSet {} s.roots i.p.encRoot { root with count := root.count + i.p.batch } } else s
  { s with sdx := { s.sdx with streams := s.sdx.streams ++ streams } }

/-- An item has read its sources and its key, with the errors they raise, and the array begins on its special FFT. -/
def forgeRead (s : State) (i : ForgeItem) (run : ForgeRun) : State :=
  let u := (forgeRanges s i).foldl (fun u _ => raiseErr u 0x0402 i.slot) (forgeTakes s i)
  fftWork { readKey u i with forge := { u.forge with run := some run } } i i.p.batch

/-- An item starts with a run of its own, and asks for its random calls when it needs any. -/
theorem forgeStart_eq (s : State) (i : ForgeItem) (work : Nat) :
    ∃ run : ForgeRun, run.item = i ∧ run.work = work ∧ run.counter = (rootOf s i.p.encRoot).count ∧ run.pt = 0 ∧ run.ord = 0
    ∧ forgeStart s i work = (if forgeCalls (forgeRead s i run) i.p == 0 then forgeRead s i run
        else askCalls (forgeRead s i run) i.slot (.forge i.cmd) (forgeCalls (forgeRead s i run) i.p)) :=
  ⟨_, rfl, rfl, rfl, rfl, rfl, rfl⟩

/-- Its errors and reads touch neither the roots, nor the streams, nor the prime sets; its work in the array is the array's. -/
theorem forgeRead_frame (s : State) (i : ForgeItem) (run : ForgeRun) :
    (forgeRead s i run).roots = (forgeTakes s i).roots ∧ (forgeRead s i run).sdx = (forgeTakes s i).sdx
    ∧ (forgeRead s i run).sets = s.sets ∧ (forgeRead s i run).forge.run = some run := by
  let pt : Part → Bool := fun x => ([.tallies, .evt, .trace] : List Part).contains x
  let u := (forgeRanges s i).foldl (fun u _ => raiseErr u 0x0402 i.slot) (forgeTakes s i)
  have hu : Changes pt (forgeTakes s i) u :=
    Changes.foldl (fun u _ => raiseErr u 0x0402 i.slot) _ (fun u _ hu => raiseErr_changes u _ _ hu rfl rfl rfl) (Changes.refl _ _)
  have hk : Changes pt (forgeTakes s i) (readKey u i) := readKey_changes u i hu rfl rfl rfl
  let v : State := { readKey u i with forge := { u.forge with run := some run } }
  have hv : Changes (fun x => x == .txa) v (forgeRead s i run) := fftWork_changes v i i.p.batch (Changes.refl _ v) rfl
  have hsets : (forgeTakes s i).sets = s.sets := by
    unfold forgeTakes
    dsimp only
    split <;> rfl
  exact ⟨(hv.roots.resolve_left (by decide)).trans (hk.roots.resolve_left (by decide)),
    (hv.sdx.resolve_left (by decide)).trans (hk.sdx.resolve_left (by decide)),
    ((hv.sets.resolve_left (by decide)).trans (hk.sets.resolve_left (by decide))).trans hsets,
    congrArg (·.run) (hv.forge.resolve_left (by decide))⟩

/-- An encryption takes its root's next counter values and asks for its streams; a plaintext item takes none (R101, R102). -/
theorem forgeTakes_effect (s : State) (i : ForgeItem) :
    (i.p.output = 1 →
      (∀ k, rootOf (forgeTakes s i) k =
        if k = i.p.encRoot then { rootOf s k with count := (rootOf s k).count + i.p.batch } else rootOf s k)
      ∧ (forgeTakes s i).sdx.streams = s.sdx.streams ++ noiseStreams s i (rootOf s i.p.encRoot).count)
    ∧ (i.p.output ≠ 1 → (forgeTakes s i).roots = s.roots ∧ (forgeTakes s i).sdx.streams = s.sdx.streams) := by
  refine ⟨fun h => ⟨fun k => ?_, ?_⟩, fun h => ?_⟩
  · have ht : (forgeTakes s i).roots = tblSet {} s.roots i.p.encRoot
        { rootOf s i.p.encRoot with count := (rootOf s i.p.encRoot).count + i.p.batch } := by simp [forgeTakes, h]
    rw [rootOf, ht]
    refine (rootOf_set s _ _ k).trans ?_
    split
    · next e => rw [e]
    · rfl
  · simp [forgeTakes, h]
  · simp [forgeTakes, h]

/-- Asking for random calls leaves the roots. -/
theorem askCalls_roots (s : State) (slot : Nat) (user : RsvUser) (n : Nat) : (askCalls s slot user n).roots = s.roots :=
  (askCalls_changes (pt := fun x => x != .roots) s slot user n (Changes.refl _ s) rfl rfl rfl rfl rfl rfl rfl rfl rfl rfl rfl rfl rfl rfl
    rfl rfl rfl rfl rfl).roots.resolve_left (by decide)

/-- An item that starts takes its counter values and its streams, and no other root changes. -/
theorem forgeStart_effect (s : State) (i : ForgeItem) (work : Nat) :
    let root := rootOf s i.p.encRoot
    let calls := forgeCalls s i.p
    ∃ w r, forgeStart s i work = (if calls = 0 then w else askCalls w i.slot (.forge i.cmd) calls)
      ∧ w.forge.run = some r ∧ r.item = i ∧ r.work = work ∧ r.counter = root.count ∧ r.pt = 0 ∧ r.ord = 0
      ∧ (forgeStart s i work).roots = w.roots
      ∧ (i.p.output = 1 →
        rootOf w i.p.encRoot = { root with count := root.count + i.p.batch }
        ∧ (∀ k, k ≠ i.p.encRoot → rootOf w k = rootOf s k)
        ∧ w.sdx.streams = s.sdx.streams ++ noiseStreams s i root.count
        ∧ (noiseStreams s i root.count).length = 3 * i.p.batch)
      ∧ (i.p.output ≠ 1 → w.roots = s.roots ∧ w.sdx.streams = s.sdx.streams) := by
  intro root calls
  obtain ⟨run, hitem, hwork, hcounter, hpt, hord, hstart⟩ := forgeStart_eq s i work
  obtain ⟨hroots, hsdx, hsets, hrun⟩ := forgeRead_frame s i run
  obtain ⟨henc, hplain⟩ := forgeTakes_effect s i
  rw [forgeCalls_of_sets hsets] at hstart
  have hroot : ∀ k, rootOf (forgeRead s i run) k = rootOf (forgeTakes s i) k := fun k => by rw [rootOf, hroots]; rfl
  refine ⟨forgeRead s i run, run, by simpa only [beq_iff_eq] using hstart, hrun, hitem, hwork, hcounter, hpt, hord, ?_, fun h => ?_,
    fun h => ?_⟩
  · rw [hstart]
    split
    · rfl
    · exact askCalls_roots _ _ _ _
  · obtain ⟨hr, hs⟩ := henc h
    exact ⟨by rw [hroot, hr, if_pos rfl], fun k hk => by rw [hroot, hr, if_neg hk], by rw [hsdx, hs], noiseStreams_length _ _ _⟩
  · rw [hroots, hsdx]
    exact hplain h

/-- A sound item of the slot the forge serves waits for its buffer, or starts, backs off or ends with the pool's answer (R97, R259). -/
theorem forgeDispatch_sound {s : State} {n : Nat} {i : ForgeItem} (hu : unitsDispatch s = true) (hr : s.forge.run = none)
    (hp : arbPick s unitForge (((s.forge.queue.map (·.slot)).eraseDups).filter (forgeReady s)) = some n)
    (hi : s.forge.queue.find? (fun i => i.slot == n) = some i) (hc : forgeRefusal s n i.p = 0) (reads : SramReads) (t : State) :
    (needBuffer s n (forgeWorkBytes s i.p) = (none, t) → exec (.forgeDispatch reads) s = .next t)
    ∧ ∀ c addr, needBuffer s n (forgeWorkBytes s i.p) = (some (c, addr), t) → exec (.forgeDispatch reads) s = .next (
        if c = 0 then forgeStart (sramReads (arbGrant (takeForge t i) unitForge n
          (((s.forge.queue.map (·.slot)).eraseDups).filter (forgeReady s))) 2 n reads) i addr
        else if c = 0x0C08 then retryLater t n unitForge
        else slotFault (finishCmd (takeForge t i) i.cmd c 1 0) n c) :=
  ⟨fun hw => congrArg Host.Outcome.next (by simp [hu, hr, hp, hi, hc, hw]),
    fun c addr hw => congrArg Host.Outcome.next (by simp [hu, hr, hp, hi, hc, hw])⟩

/-- Settles O27: the forge takes an item, refuses it or waits for its buffer; what an item takes as it starts; the key of a root. -/
theorem forgeItems : Obligations.ForgeItems := by
  refine ⟨fun s reads => ⟨fun h => ?_, fun n i hu hr hp hi => ⟨fun hc => ?_, fun hc => ?_⟩⟩, forgeStart_effect,
    fun s via r data ht he => ?_⟩
  · refine congrArg Host.Outcome.next ?_
    obtain h | h := h
    · simp [h]
    · simp [h]
  · exact congrArg Host.Outcome.next (by simp [hu, hr, hp, hi, hc])
  · intro want
    obtain ⟨hwaits, hanswer⟩ := forgeDispatch_sound hu hr hp hi hc reads want.2
    refine ⟨fun hw => hwaits (Prod.ext hw rfl), fun addr hw => ?_, fun addr hw => ?_, fun c addr hw h0 h1 => ?_⟩
    · exact (hanswer 0 addr (Prod.ext hw rfl)).trans (by rw [if_pos rfl])
    · exact (hanswer 0x0C08 addr (Prod.ext hw rfl)).trans (by rw [if_neg (by decide), if_pos rfl])
    · exact (hanswer c addr (Prod.ext hw rfl)).trans (by rw [if_neg h0, if_neg h1])
  · intro u
    have hx : exec (.encRootKeyWrite via r data) s = .next (encRootEffect via (0x5410 + r) 1 data u) :=
      congrArg _ (requestWrite_takes ht encRootEffect)
    have he' : u.fed.electing = false := by rw [arriving_fed]; exact he
    have hroots : u.roots = s.roots := arriving_roots ..
    have hroot : ∀ k, rootOf u k = rootOf s k := fun k => by rw [rootOf, hroots]; rfl
    have husers : rootUsers u r = rootUsers s r := by rw [rootUsers, arriving_slots]; rfl
    refine ⟨fun hu => ⟨{ u with roots := tblSet {} u.roots r { key := data, valid := true, count := 0 } }, ?_, ?_, fun k hk => ?_,
      arriving_mem .., arriving_slots ..⟩, fun hu => ?_⟩
    · rw [hx]
      simp [encRootEffect, packageEffect, he', husers, hu, hroots, rootOf]
    · rw [rootOf_set, if_pos rfl]
    · rw [rootOf_set, if_neg hk, hroot]
    · rw [hx]
      simp [encRootEffect, packageEffect, he', husers, hu]

end Sys2Proof.Machine

/-! The transform array: items dispatched and ended, and the checksum column. -/

namespace Sys2Proof.Machine

/-! ### The columns of a tile and their checksum (R55, R69, R70) -/

@[simp] theorem length_chunksOf {α : Type} (n k : Nat) (l : List α) : (chunksOf n k l).length = k := by
  induction k generalizing l with
  | zero => rfl
  | succ k ih => simp [chunksOf, ih]

/-- Where a list holds them all, every piece it is cut into is whole. -/
theorem length_of_mem_chunksOf {α : Type} {n k : Nat} {l c : List α} (h : n * k ≤ l.length) (hc : c ∈ chunksOf n k l) :
    c.length = n := by
  induction k generalizing l with
  | zero => exact absurd hc (by simp [chunksOf])
  | succ k ih =>
    have hl : n * k + n ≤ l.length := by rw [← Nat.mul_succ]; exact h
    obtain rfl | hc := List.mem_cons.mp hc
    · rw [List.length_take]
      omega
    · exact ih (by rw [List.length_drop]; omega) hc

@[simp] theorem length_elements (n count : Nat) (b : List Byte) : (elements n count b).length = count := by simp [elements]

/-- A block's rows are as long as a tile is wide. -/
theorem length_of_mem_blockRows {mode : Nat} {block : List Byte} {row : List Nat} (h : row ∈ blockRows mode block) :
    row.length = txaCols mode :=
  length_of_mem_chunksOf (l := elements (txaElem mode) (txaCols mode * txaCols mode) block) (by simp) h

/-- The modes whose columns sum integers. -/
def IntegerMode (mode : Nat) : Prop := mode = 0 ∨ mode = 3 ∨ mode = 4

theorem length_weightLimbs {mode : Nat} (h : IntegerMode mode) (w : Int) : (weightLimbs mode w).length = limbCount mode := by
  obtain rfl | rfl | rfl := h
  · rfl
  · rfl
  · rfl

/-- A row's cells fill the columns. -/
theorem length_intCells {p : TxaParams} (h : IntegerMode p.mode) (row : List Nat) :
    (intCells p row).length = row.length * limbCount p.mode := by
  simp only [intCells, List.length_flatMap, length_weightLimbs h, List.map_const', List.sum_replicate, smul_eq_mul]

/-- A row that takes part adds its input times the sum of its cells to the sum of the columns. -/
theorem sum_zipWith_addMul (a : Int) {acc row : List Int} (h : acc.length = row.length) :
    (List.zipWith (fun x b => x + a * b) acc row).sum = acc.sum + a * row.sum := by
  induction acc generalizing row with
  | nil =>
    obtain rfl := List.length_eq_zero_iff.mp h.symm
    simp
  | cons x acc ih =>
    cases row with
    | nil => exact absurd h (by simp)
    | cons b row =>
      simp only [List.zipWith_cons_cons, List.sum_cons, ih (Nat.succ.inj h)]
      ring

/-- The columns' sum is that of each row's input times the sum of its cells. -/
theorem sum_foldl_rows {cols : Nat} {w : List (List Int)} (hw : ∀ r ∈ w, r.length = cols) (x : List Int) {acc : List Int}
    (ha : acc.length = cols) :
    ((x.zip w).foldl (fun acc e => List.zipWith (fun a b => a + e.1 * b) acc e.2) acc).sum
      = acc.sum + (List.zipWith (fun v r => v * r.sum) x w).sum := by
  induction x generalizing w acc with
  | nil => simp
  | cons v x ih =>
    cases w with
    | nil => simp
    | cons r w =>
      have hr : r.length = cols := hw r List.mem_cons_self
      rw [List.zip_cons_cons, List.foldl_cons, ih (fun q hq => hw q (List.mem_cons_of_mem _ hq)) (by simp [ha, hr]),
        sum_zipWith_addMul v (ha.trans hr.symm), List.zipWith_cons_cons, List.sum_cons, add_assoc]

theorem sum_colSums {cols : Nat} {w : List (List Int)} (hw : ∀ r ∈ w, r.length = cols) (x : List Int) :
    (colSums w x cols).sum = (List.zipWith (fun v r => v * r.sum) x w).sum := by
  rw [colSums, sum_foldl_rows hw x (List.length_replicate ..)]
  simp

/-- Over every block and vector the columns' sum is the checksum (R55, R69). -/
theorem sum_vecSums {p : TxaParams} (h : IntegerMode p.mode) (block x : List Byte) :
    (vecSums p block x).cols.sum = checksum p (loadWeights p block).check x (vecSums p block x).unit := by
  have h1 : (p.mode == 1) = false := by obtain e | e | e := h <;> simp [e]
  have h2 : (p.mode == 2) = false := by obtain e | e | e := h <;> simp [e]
  have hcell : checkCell p = fun row => ((intCells p row).sum, 0) := by
    funext row
    obtain e | e | e := h <;> simp [checkCell, e, List.sum_eq_foldl]
  have hrows : ∀ r ∈ (blockRows p.mode block).map (intCells p), r.length = txaCols p.mode * limbCount p.mode := by
    intro r hr
    obtain ⟨row, hrow, rfl⟩ := List.mem_map.mp hr
    rw [length_intCells h, length_of_mem_blockRows hrow]
  have hcols : (vecSums p block x).cols = colSums ((blockRows p.mode block).map (intCells p))
      ((elements (txaElem p.mode) (txaCols p.mode) x).map (intOperand p.mode p.xtype)) (txaCols p.mode * limbCount p.mode) := by
    simp [vecSums, h1, h2]
  rw [hcols, sum_colSums hrows]
  simp only [checksum, h1, h2, loadWeights, hcell, Bool.or_self, Bool.false_eq_true, if_false, List.zipWith_map_left,
    List.zipWith_map_right, ← List.sum_eq_foldl]

/-- A fault that adds to one column adds to the columns' sum. -/
theorem sum_disturb (v : VecSums) {j : Nat} (h : j < v.cols.length) (d : Int) : (disturb v [(j, d)]).cols.sum = v.cols.sum + d := by
  simp only [disturb, List.foldl_cons, List.foldl_nil, List.sum_set', h, dif_pos, List.getD_eq_getElem _ _ h]
  ring

/-- In the integer modes the comparison asks whether the sums agree in their low 32 bits (R70). -/
theorem checkHolds_iff {mode : Nat} (h : IntegerMode mode) (cols : List Int) (k : Int) :
    checkHolds mode cols k = true ↔ (cols.sum - k) % 2 ^ 32 = 0 := by
  have h2 : (mode == 2) = false := by obtain e | e | e := h <;> simp [e]
  simp [checkHolds, h2, ← List.sum_eq_foldl]

/-- The checksum agrees with the columns, and tells an error in one column (R70). -/
theorem checksum_column {p : TxaParams} (h : IntegerMode p.mode) (block x : List Byte) :
    let v := vecSums p block x
    let k := checksum p (loadWeights p block).check x v.unit
    checkHolds p.mode v.cols k = true
    ∧ ∀ j d, j < v.cols.length → d % 2 ^ 32 ≠ 0 → checkHolds p.mode (disturb v [(j, d)]).cols k = false := by
  intro v k
  have hk : v.cols.sum = k := sum_vecSums h block x
  refine ⟨(checkHolds_iff h _ _).mpr (by rw [hk, sub_self]; rfl), fun j d hj hd => Bool.eq_false_iff.mpr fun hc => hd ?_⟩
  have := (checkHolds_iff h _ _).mp hc
  rwa [sum_disturb v hj, hk, add_sub_cancel_left] at this

/-! ### Items dispatched -/

@[simp] theorem length_preloadRows (p : TxaParams) (vs : List Nat) : (preloadRows p vs).length = p.rowCount := length_chunksOf _ _ _

/-- An item's starting rows are zero, or its preload (R57, R66). -/
theorem txaStart_effect (s : State) (i : TxaItem) :
    (txaStart s i).2 = { s with drawn := (txaStart s i).2.drawn }
    ∧ (i.p.init = 0 → (txaStart s i).1 = zeroRows i.p)
    ∧ (i.p.init ≠ 0 → ∃ vs, vs.length = i.p.rowCount * txaCols i.p.mode ∧ (txaStart s i).1 = preloadRows i.p vs
      ∧ (i.p.mode ≠ 0 ∨ i.p.outType = 11 → vs = elements (txaOutElem i.p) (i.p.rowCount * txaCols i.p.mode) (cellsGet s.mem.txa
          ((txaWindow s i.slot).1 + i.p.initAddr) (i.p.rowCount * txaCols i.p.mode * txaOutElem i.p)))) := by
  by_cases h0 : i.p.init = 0
  · have ht : txaStart s i = (zeroRows i.p, s) := by simp [txaStart, h0]
    rw [ht]
    exact ⟨rfl, fun _ => rfl, fun h => absurd h0 h⟩
  · by_cases hm : i.p.mode = 0 ∧ i.p.outType ≠ 11
    · let count := i.p.rowCount * txaCols i.p.mode
      let vs := (List.range count).map (fun k => (drawFree s (2 ^ (32 * count))).1 / 2 ^ (32 * k) % 2 ^ 32)
      have ht : txaStart s i = (preloadRows i.p vs, (drawFree s (2 ^ (32 * count))).2) := by
        unfold txaStart
        simp only [beq_eq_false_iff_ne.mpr h0, beq_iff_eq.mpr hm.1, bne_iff_ne.mpr hm.2, Bool.and_self, if_true, Bool.false_eq_true,
          if_false]
        rfl
      rw [ht]
      exact ⟨rfl, fun h => absurd h h0, fun _ => ⟨vs, by simp [vs, count], rfl, fun h => absurd hm (by tauto)⟩⟩
    · have hm' : (i.p.mode == 0 && i.p.outType != 11) = false := by simpa using hm
      have ht : txaStart s i = (preloadRows i.p (elements (txaOutElem i.p) (i.p.rowCount * txaCols i.p.mode) (cellsGet s.mem.txa
          ((txaWindow s i.slot).1 + i.p.initAddr) (i.p.rowCount * txaCols i.p.mode * txaOutElem i.p))), s) := by
        unfold txaStart
        simp only [beq_eq_false_iff_ne.mpr h0, hm', Bool.false_eq_true, if_false]
      rw [ht]
      exact ⟨rfl, fun h => absurd h h0, fun _ => ⟨_, length_elements _ _ _, rfl, fun _ => rfl⟩⟩

theorem length_txaStart (s : State) (i : TxaItem) : (txaStart s i).1.length = i.p.rowCount := by
  obtain ⟨-, hzero, hload⟩ := txaStart_effect s i
  by_cases h0 : i.p.init = 0
  · rw [hzero h0, zeroRows, List.length_replicate]
  · obtain ⟨vs, -, hv, -⟩ := hload h0
    rw [hv, length_preloadRows]

@[simp] theorem regsOf_setRegs_self (s : State) (t : Nat) (r : TileRegs) : regsOf (setRegs s t r) t = r := tblGet_tblSet_self _ _ _ _

/-- An item that takes a tile leaves the queues, the window and all but the array as they were. -/
theorem takeTile_frame (s : State) (t : Nat) (i : TxaItem) :
    (takeTile s t i).txa.tiles = tblSet none s.txa.tiles t (some i) ∧ (takeTile s t i).txa.queue = s.txa.queue
    ∧ (takeTile s t i).txa.work = s.txa.work ∧ (takeTile s t i).mem = s.mem ∧ (takeTile s t i).slots = s.slots
    ∧ (takeTile s t i).cmds = s.cmds ∧ (takeTile s t i).evt = s.evt := by
  let u : State := { s with txa := { s.txa with tiles := tblSet none s.txa.tiles t (some i) } }
  unfold takeTile
  dsimp only
  split
  · exact ⟨rfl, rfl, rfl, rfl, rfl, rfl, rfl⟩
  · obtain ⟨hdrawn, -, -⟩ := txaStart_effect u i
    rw [show (txaStart u i).2 = _ from hdrawn]
    exact ⟨rfl, rfl, rfl, rfl, rfl, rfl, rfl⟩

/-- A command's item has its first block in the active weight set, and its rows at their start, the rows it does not use as they were. -/
theorem takeTile_regs (s : State) (t : Nat) {i : TxaItem} (h : i.part = none) :
    (regsOf (takeTile s t i) t).active = loadWeights i.p (cellsGet s.mem.txa ((txaWindow s i.slot).1 + i.p.wBase) (txaBlockBytes i.p.mode))
    ∧ (i.p.init = 0 → (regsOf (takeTile s t i) t).acc = zeroRows i.p ++ (regsOf s t).acc.drop i.p.rowCount)
    ∧ (i.p.init ≠ 0 → ∃ vs, vs.length = i.p.rowCount * txaCols i.p.mode
      ∧ (regsOf (takeTile s t i) t).acc = preloadRows i.p vs ++ (regsOf s t).acc.drop i.p.rowCount
      ∧ (i.p.mode ≠ 0 ∨ i.p.outType = 11 → vs = elements (txaOutElem i.p) (i.p.rowCount * txaCols i.p.mode) (cellsGet s.mem.txa
          ((txaWindow s i.slot).1 + i.p.initAddr) (i.p.rowCount * txaCols i.p.mode * txaOutElem i.p)))) := by
  let u : State := { s with txa := { s.txa with tiles := tblSet none s.txa.tiles t (some i) } }
  obtain ⟨hdrawn, hzero, hload⟩ := txaStart_effect u i
  have hregs : regsOf (txaStart u i).2 t = regsOf s t := by rw [hdrawn]; rfl
  have hr : regsOf (takeTile s t i) t = { regsOf s t with
      active := loadWeights i.p (cellsGet s.mem.txa ((txaWindow s i.slot).1 + i.p.wBase) (txaBlockBytes i.p.mode))
      acc := (txaStart u i).1 ++ (regsOf s t).acc.drop i.p.rowCount
      poisoned := (txaFirstReads i.p).any (txaExtentPoisoned u i), since := s.boot.timeBase } := by
    unfold takeTile
    simp only [h, Option.isSome_none, Bool.false_eq_true, if_false]
    rw [regsOf_setRegs_self]
    show ({ regsOf (txaStart u i).2 t with
      active := _, acc := (txaStart u i).1 ++ (regsOf (txaStart u i).2 t).acc.drop (txaStart u i).1.length, poisoned := _
      since := (txaStart u i).2.boot.timeBase } : TileRegs) = _
    rw [hregs, length_txaStart, show (txaStart u i).2.boot = s.boot by rw [hdrawn]]
    rfl
  rw [hr]
  refine ⟨rfl, fun h0 => by rw [← hzero h0], fun h0 => ?_⟩
  obtain ⟨vs, hlen, hv, hvs⟩ := hload h0
  exact ⟨vs, hlen, by rw [← hv], hvs⟩

/-- Taking an item out of those ready leaves all but the array, and in it what the tiles hold. -/
theorem takeReady_frame (s : State) (i : TxaItem) :
    (takeReady s i).txa.tiles = s.txa.tiles ∧ (takeReady s i).txa.regs = s.txa.regs ∧ (takeReady s i).mem = s.mem
    ∧ (takeReady s i).slots = s.slots ∧ (takeReady s i).cmds = s.cmds ∧ (takeReady s i).evt = s.evt := by
  unfold takeReady
  split <;> exact ⟨rfl, rfl, rfl, rfl, rfl, rfl⟩

/-- A sound item of the slot the array serves takes the lowest free tile (R58, R66, R72). -/
theorem txaDispatch_takes {s : State} {n t : Nat} {i : TxaItem} (hu : unitsDispatch s = true)
    (hp : arbPick s unitTxa (s.txa.queue.map (·.slot) ++ (readyWorks s).map (·.slot)).eraseDups = some n) (hi : readyItem s n = some i)
    (hf : freeUnit s .txa = some t) (hok : i.part = none → txaParamOk s i = true ∧ txaExtentsOk s i = true) :
    ∃ v, exec .txaDispatch s = .next v
      ∧ v.txa.tiles = tblSet none s.txa.tiles t (some i)
      ∧ v.txa.queue = (takeReady s i).txa.queue ∧ v.txa.work = (takeReady s i).txa.work
      ∧ (i.part = none → (regsOf v t).active = loadWeights i.p (cellsGet s.mem.txa ((txaWindow s i.slot).1 + i.p.wBase)
          (txaBlockBytes i.p.mode)) ∧ (i.p.init = 0 → (regsOf v t).acc = zeroRows i.p ++ (regsOf s t).acc.drop i.p.rowCount)
        ∧ (i.p.init ≠ 0 → ∃ vs, vs.length = i.p.rowCount * txaCols i.p.mode
          ∧ (regsOf v t).acc = preloadRows i.p vs ++ (regsOf s t).acc.drop i.p.rowCount
          ∧ (i.p.mode ≠ 0 ∨ i.p.outType = 11 → vs = elements (txaOutElem i.p) (i.p.rowCount * txaCols i.p.mode) (cellsGet s.mem.txa
              ((txaWindow s i.slot).1 + i.p.initAddr) (i.p.rowCount * txaCols i.p.mode * txaOutElem i.p)))))
      ∧ v.mem = s.mem ∧ v.slots = s.slots ∧ v.cmds = s.cmds ∧ v.evt = s.evt := by
  have hparam : (i.part.isNone && !txaParamOk s i) = false := by
    cases hc : i.part with
    | none => simp [(hok hc).1]
    | some _ => rfl
  have hextent : (i.part.isNone && !txaExtentsOk s i) = false := by
    cases hc : i.part with
    | none => simp [(hok hc).2]
    | some _ => rfl
  let slots := (s.txa.queue.map (·.slot) ++ (readyWorks s).map (·.slot)).eraseDups
  let u := arbGrant (takeReady s i) unitTxa n slots
  obtain ⟨htiles, hregs, hmem, hslots, hcmds, hevt⟩ := takeReady_frame s i
  obtain ⟨ktiles, kqueue, kwork, kmem, kslots, kcmds, kevt⟩ := takeTile_frame u t i
  refine ⟨takeTile u t i, congrArg Host.Outcome.next ?_, ktiles.trans (congrArg (tblSet none · t (some i)) htiles), kqueue, kwork,
    fun hc => ?_, kmem.trans hmem, kslots.trans hslots, kcmds.trans hcmds, kevt.trans hevt⟩
  · simp [hu, hp, hi, serviceList_of_freeUnit hf, hf, hparam, hextent, u, slots]
  · have hreg : regsOf u t = regsOf s t := by rw [regsOf, arbGrant_txa, hregs]; rfl
    have hwindow : txaWindow u i.slot = txaWindow s i.slot := by simp [u, txaWindow, slotOf, hslots]
    have hm : u.mem = s.mem := hmem
    have hr := takeTile_regs u t hc
    rw [hreg, hwindow, hm] at hr
    exact hr

/-! ### Items that end -/

theorem raiseTimes_mem (s : State) (code slot k : Nat) : (raiseTimes s code slot k).mem = s.mem := by
  induction k generalizing s with
  | zero => rfl
  | succ k ih => rw [raiseTimes, ih, raiseErr_mem]

theorem txaMark_mem (s : State) (gs : List Nat) : (txaMark s gs).mem = { s.mem with txaPoison := setAdd s.mem.txaPoison gs } := rfl

/-- What a drain leaves in the memories depends on them and on the windows alone. -/
theorem txaStore_mem_of_mem {s t : State} (i : TxaItem) (o : TxaOut) (poisoned : Bool) (hm : t.mem = s.mem) (hs : t.slots = s.slots) :
    (txaStore t i o poisoned).mem = (txaStore s i o poisoned).mem := by
  have hw : txaWindow t i.slot = txaWindow s i.slot := by simp only [txaWindow, slotOf, hs]
  unfold txaStore
  rw [hw]
  split
  · simp only [txaWritePoisoned, txaMark_mem, hm]
  · simp only [txaWrite, txaMark_mem, hm]

/-- What an item's end leaves in the memories is what it stored. -/
theorem txaFinish_mem (s : State) (i : TxaItem) (t : Nat) (g : TxaProg) : (txaFinish s i t g).mem =
    (txaStore s i (txaDrain i.p g.rows) ((regsOf s t).poisoned || txaInputPoisoned s i || g.failed.isSome)).mem := by
  have hretire : ∀ u, (retireUnit u .txa t).mem = u.mem := fun u => rfl
  unfold txaFinish
  extract_lets failed poisoned o r s1 s2 s3 s4 s5 s6 status flags
  have h2 : s2.mem = (txaStore s i o poisoned).mem := txaStore_mem_of_mem i o poisoned rfl rfl
  have h3 : s3.mem = s2.mem := raiseTimes_mem _ _ _ _
  have h4 : s4.mem = s3.mem := by
    show (if g.saturated then raiseErr s3 0x0303 i.slot else s3).mem = _
    split
    · exact raiseErr_mem ..
    · rfl
  have h5 : s5.mem = s4.mem := raiseTimes_mem _ _ _ _
  have h6 : s6.mem = s5.mem := by
    show (if failed then retireUnit (raiseErr s5 0x0302 i.slot) .txa t else s5).mem = _
    split
    · exact (hretire _).trans (raiseErr_mem ..)
    · rfl
  show s6.mem = _
  rw [h6, h5, h4, h3, h2]

/-- A clean item's bytes stand at OUT_ADDR of its window (R65). -/
theorem txaFinish_bytes {s : State} {i : TxaItem} {t : Nat} {g : TxaProg} (hp : (regsOf s t).poisoned = false)
    (hi : txaInputPoisoned s i = false) (hf : g.failed = none) :
    cellsGet (txaFinish s i t g).mem.txa ((txaWindow s i.slot).1 + i.p.outAddr) (txaDrain i.p g.rows).bytes.length
      = (txaDrain i.p g.rows).bytes := by
  rw [txaFinish_mem, hp, hi, hf]
  exact cellsGet_cellsSet _ _ _

/-- Settles O25: an item is taken, refused or left; what the end of an item stores and counts; the checksum column. -/
theorem transformItems : Obligations.TransformItems := by
  refine ⟨fun s => ⟨fun h => ?_, fun n i hu hp hi => ⟨fun hl => ?_, fun hl hf => ?_,
      fun t hf => ⟨fun hc hok => ?_, fun hc hok he => ?_, fun hok => ?_⟩⟩⟩,
    fun s tile faults reads => ⟨fun h => ?_, fun i h => ?_⟩, fun p block x hm => checksum_column hm block x⟩
  · refine congrArg Host.Outcome.next ?_
    obtain h | h := h
    · simp [h, arbPick, arbPickBy]
    · dsimp only
      split
      · rfl
      · split
        · rfl
        · simp [h]
  · exact congrArg Host.Outcome.next (by simp [hu, hp, hi, hl])
  · exact congrArg Host.Outcome.next (by simp [hu, hp, hi, hl, hf])
  · exact congrArg Host.Outcome.next (by simp [hu, hp, hi, serviceList_of_freeUnit hf, hf, hc, hok])
  · exact congrArg Host.Outcome.next (by simp [hu, hp, hi, serviceList_of_freeUnit hf, hf, hc, hok, he])
  · exact txaDispatch_takes hu hp hi hf hok
  · exact congrArg Host.Outcome.next (by simp [h])
  · refine ⟨fun hc => ⟨congrArg Host.Outcome.next ?_, txaFinish_mem _ _ _ _, fun hp hi hf _ => txaFinish_bytes hp hi hf⟩,
      fun id hc => congrArg Host.Outcome.next ?_⟩
    · simp [h, hc, txaRun]
    · simp [h, hc]

end Sys2Proof.Machine

/-! The media decoders: decodes dispatched and decoding units started. -/

namespace Sys2Proof.Machine

/-! ### Decode items taken -/

/-- What a video item that continues its stream begins. -/
theorem takeDecode_continues {s : State} {i : DecodeItem} {k : Nat}
    (hp : decodeParamsOk { s with mdc := { s.mdc with queue := s.mdc.queue.erase i } } i = true) (hv : isVideo i.format = true)
    (ho : i.opn = false) (hk : i.stream = some k) :
    takeDecode s i = { s with mdc := { s.mdc with queue := s.mdc.queue.erase i
                                                  runs := s.mdc.runs ++ [{ item := i, cores := [], before := some (ctxOf s k) }] } } := by
  cases i
  obtain rfl : _ = false := ho
  obtain rfl : _ = some k := hk
  simp [takeDecode, hp, hv]
  rfl

/-- What a video item that opens its stream begins, in the context it names or the lowest free one (R165, R230). -/
theorem takeDecode_opens {s : State} {i : DecodeItem} {k : Nat}
    (hp : decodeParamsOk { s with mdc := { s.mdc with queue := s.mdc.queue.erase i } } i = true) (hv : isVideo i.format = true)
    (ho : i.opn = true)
    (hk : i.stream = some k ∨ (i.stream = none ∧ freeCtx { s with mdc := { s.mdc with queue := s.mdc.queue.erase i } } = some k)) :
    let u := { s with mdc := { s.mdc with queue := s.mdc.queue.erase i } }
    let v := setCtx (closeCtx u k i.slot) k { opn := true, owner := i.slot, entry := i.entry, seeking := true, refresh := i.refresh }
    takeDecode s i = { v with mdc := { v.mdc with runs := v.mdc.runs ++ [{ item := { i with stream := some k }, cores := [] }] } } := by
  intro u v
  obtain hk | ⟨hn, hk⟩ := hk
  · simp [takeDecode, hp, hv, ho, hk, u, v]
  · simp [takeDecode, hp, hv, ho, hn, hk, u, v]

/-! ### Decoding units -/

theorem mediaCheck_eq (s : State) (r : DecodeRun) (h : MediaHeader) :
    mediaCheck s r h = if r.passed = some h then 0 else headerCode s r.item h := by
  simp [mediaCheck]

/-- A run whose allocation is answered goes on with the buffer's address. -/
theorem runBuffer_answered {s : State} {r : DecodeRun} {size a : Nat} (h : (needBuffer s r.item.slot size).1 = some (0, a)) (unit : Nat)
    (use : State → Nat → State) : runBuffer s r unit size use = use (needBuffer s r.item.slot size).2 a := by
  have hw : needBuffer s r.item.slot size = (some (0, a), (needBuffer s r.item.slot size).2) := Prod.ext h rfl
  rw [runBuffer, hw]
  rfl

/-- A header that fails a check fails its sample, and one that passes has its buffers allocated (R168, R170). -/
theorem imageUnit_cases (s : State) (r : DecodeRun) (h : MediaHeader) :
    let code := if r.passed = some h then 0 else headerCode s r.item h
    let v := passHeader s r (some h)
    let r' := { r with passed := some h }
    (code ≠ 0 → imageUnit s r h = failHeader s r code)
    ∧ (code = 0 → h.progressive = false ∨ r.item.format ≠ 1 ∨ r.coef ≠ none → r.buffer = none →
      imageUnit s r h = runBuffer v r' unitImage (shapeOf r.item h).layout.total
        (fun s a => setRun s r' { r' with buffer := some a, header := some h }))
    ∧ (code = 0 → h.progressive = true → r.item.format = 1 → r.coef = none →
      imageUnit s r h = runBuffer v r' unitImage (coefBytes (shapeOf r.item h))
        (fun s a => imageFrame (setRun s r' { r' with coef := some a }) { r' with coef := some a } h)) := by
  intro code v r'
  have hcode : mediaCheck s r h = code := mediaCheck_eq s r h
  refine ⟨fun hc => ?_, fun hc hn hb => ?_, fun hc hp hf hn => ?_⟩
  · simp [imageUnit, hcode, hc]
  · have hprog : (h.progressive && r.item.format == 1 && r.coef.isNone) = false := by
      rw [Bool.eq_false_iff]
      intro hall
      simp only [Bool.and_eq_true, beq_iff_eq, Option.isNone_iff_eq_none] at hall
      obtain ⟨⟨hp, hf⟩, hcoef⟩ := hall
      obtain hn | hn | hn := hn
      · exact absurd hp (by simp [hn])
      · exact hn hf
      · exact hn hcoef
    have hbuf : r.buffer.isSome = false := by rw [hb]; rfl
    simp only [imageUnit, hcode, hc, hprog, imageFrame, hbuf, bne_self_eq_false, Bool.false_eq_true, if_false]
    rfl
  · have hprog : (h.progressive && r.item.format == 1 && r.coef.isNone) = true := by simp [hp, hf, hn]
    simp only [imageUnit, hcode, hc, hprog, bne_self_eq_false, Bool.false_eq_true, if_false, if_true]
    rfl

/-- A picture's sequence that fails its checks ends its sample, an access unit before the entry is discarded and counted, and a picture that
is decoded has its frame buffer (R168, R178, R183). -/
theorem videoPicture_cases (s : State) (core : Nat) {r : DecodeRun} {k : Nat} (hk : r.item.stream = some k) (head : PictureHead) :
    let code := (head.header.map (fun h => if r.passed = some h then 0 else headerCode s r.item h)).getD 0
    let x := { ctxOf s k with sequence := head.header.or (ctxOf s k).sequence }
    (code ≠ 0 → videoPicture s core r head = failHeader s r code)
    ∧ (code = 0 → x.sequence = none ∨ x.meet r.item.format head = none →
      videoPicture s core r head = bump (setCtx (passHeader s r none) k x) 0x8080 0x10)
    ∧ (code = 0 → ∀ h x' a, x.sequence = some h → x.meet r.item.format head = some x' →
      let want := needBuffer (passHeader s r head.header) r.item.slot (shapeOf r.item h).layout.total
      want.1 = some (0, a) → videoPicture s core r head = setCtx (setRun (switchCtx want.2 core (some k)) { r with passed := head.header }
        { r with header := some h, passed := none, head := some head, taken := 1, buffer := some a, cores := [core] }) k x') := by
  intro code x
  have hcode : (head.header.map (mediaCheck s r)).getD 0 = code :=
    congrArg (fun f => (head.header.map f).getD 0) (funext fun h => mediaCheck_eq s r h)
  refine ⟨fun hc => ?_, fun hc hn => ?_, fun hc h x' a hs hm => ?_⟩
  · simp [videoPicture, hk, hcode, hc]
  · unfold videoPicture
    simp only [hk, hcode, hc, bne_self_eq_false, Bool.false_eq_true, if_false]
    split
    · next hs hm =>
      obtain hn | hn := hn
      · exact absurd (hn.symm.trans hs) (by simp)
      · exact absurd (hn.symm.trans hm) (by simp)
    · rfl
  · intro want hw
    unfold videoPicture
    simp only [hk, hcode, hc, bne_self_eq_false, Bool.false_eq_true, if_false]
    split
    · next h1 x1 hs1 hm1 =>
      obtain rfl := Option.some.inj (hs1.symm.trans hs)
      obtain rfl := Option.some.inj (hm1.symm.trans hm)
      exact runBuffer_answered (r := { r with passed := head.header }) hw _ _
    · next hno => exact (hno h x' hs hm).elim

theorem streamRun_stream {s : State} {k : Nat} {r : DecodeRun} (h : streamRun s k = some r) : r.item.stream = some k := by
  have hr := List.find?_some h
  simp only [Bool.and_eq_true, beq_iff_eq] at hr
  exact hr.1.1.2

theorem unitLost_of {s : State} {r : DecodeRun} {start len : Nat} {invalid : Bool}
    (h : invalid = true ∨ memPoisoned s (r.item.addr + start) len = true) : unitLost s r start len invalid = true := by
  simpa [unitLost] using h

/-- Settles O32: what a dispatch takes, and what an image core, a picture, a further unit, and a unit outside pictures come to. -/
theorem decoding : Obligations.Decoding := by
  refine ⟨fun s => ⟨fun h => ?_, fun h n i hp hn => ?_, fun h hno n i hp hn => ?_, fun i => ⟨fun hp => ?_, fun hp hv c hc => ?_,
    fun hp hv ho k hk => takeDecode_continues hp hv ho hk, fun hp hv ho k hk => takeDecode_opens hp hv ho hk⟩⟩,
    fun s core hu => ⟨fun r h hr => ?_, fun head r slots k hf hp hk => ?_, fun r hr => ?_,
      fun above => ⟨fun r slots hf hp => ?_, fun hn => ?_⟩,
      fun r k hr => ⟨fun start len invalid => ⟨fun hl => ⟨?_, ?_⟩, fun hi hm q => ?_⟩,
        fun coded marks => ⟨fun hs => ?_, fun hs => ?_⟩⟩⟩⟩
  · exact congrArg Host.Outcome.next (by simp [h])
  · exact congrArg Host.Outcome.next (by simp [h, decodeNext, hp, hn])
  · exact congrArg Host.Outcome.next (by simp [h, decodeNext, hno, hp, hn])
  · simp [takeDecode, hp]
  · simp [takeDecode, hp, hv, hc]
  · have hx : exec (.mdcDecodingUnitStart core (.image h)) s = .next (imageUnit s r h) := 
      congrArg Host.Outcome.next (by simp only [hu, hr, Bool.not_true, Bool.false_eq_true, if_false])
    rw [hx]
    obtain ⟨hfail, hplain, hprog⟩ := imageUnit_cases s r h
    exact ⟨fun hc => congrArg _ (hfail hc), fun hc hn hb => congrArg _ (hplain hc hn hb),
      fun hc hp hf hn => congrArg _ (hprog hc hp hf hn)⟩
  · have hx : exec (.mdcDecodingUnitStart core (.picture head)) s = .next (grantRun (videoPicture s core r head) core r slots) :=
      congrArg Host.Outcome.next (by simp [hu, hf, hp])
    rw [hx]
    obtain ⟨hfail, hdiscard, hdecode⟩ := videoPicture_cases s core hk head
    exact ⟨fun hc => congrArg (fun t => Host.Outcome.next (grantRun t core r slots)) (hfail hc),
      fun hc hn => congrArg (fun t => Host.Outcome.next (grantRun t core r slots)) (hdiscard hc hn),
      fun hc h x' a hs hm hw => congrArg (fun t => Host.Outcome.next (grantRun t core r slots)) (hdecode hc h x' a hs hm hw)⟩
  · rw [finishUnit, hr]
  · exact congrArg Host.Outcome.next (by simp [hu, hf, hp])
  · have hnone : (if freeVideoCore (finishUnit s core) == some core then pickRun (finishUnit s core) (unitRuns (finishUnit s core) above)
        else none) = none := by
      obtain hn | hn := hn
      · rw [if_neg (by simpa using hn)]
      · rw [hn, ite_self]
    exact congrArg Host.Outcome.next (by simp only [hu, hnone, Bool.not_true, Bool.false_eq_true, if_false])
  · exact congrArg Host.Outcome.next (by simp [hu, hr, unitLost_of hl, loseUnit])
  · exact congrArg Host.Outcome.next (by simp [hu, hr, unitLost_of hl, loseUnit, streamRun_stream hr])
  · exact congrArg Host.Outcome.next (by simp [hu, hr, unitLost, hi, hm])
  · exact congrArg Host.Outcome.next (by simp [hu, hr, showAgain, hs])
  · exact congrArg Host.Outcome.next (by simp [hu, hr, showAgain, hs])

end Sys2Proof.Machine

/-! The canonical form of the memories, and prime sets: their checks, the write of their image and its validation. -/

namespace Sys2Proof.Machine

/-- Settles O6: what every step keeps includes the memories' form. -/
theorem memoriesStayCanonical : Obligations.MemoriesStayCanonical := fun _ _ h => (keeps_of_step h).mem

/-! ### The checks of a prime set (R47) -/

/-- A check names the first record it refuses, counted from where it begins. -/
theorem firstBad_eq_findIdx? (ok : PrimeRec → Bool) (rs : List PrimeRec) (i : Nat) :
    firstBad ok i rs = (rs.findIdx? (fun r => !ok r)).map (· + i) := by
  induction rs generalizing i with
  | nil => rfl
  | cons r rs ih =>
    cases h : ok r with
    | false => simp [firstBad, List.findIdx?_cons, h]
    | true => simp [firstBad, List.findIdx?_cons, h, ih, Function.comp_def, Nat.add_assoc, Nat.add_comm 1]

theorem firstBad_eq_none_iff {ok : PrimeRec → Bool} {i : Nat} {rs : List PrimeRec} :
    firstBad ok i rs = none ↔ ∀ r ∈ rs, ok r = true := by
  simp [firstBad_eq_findIdx?]

/-- A record refused after records that all pass is the one named. -/
theorem firstBad_eq_some {ok : PrimeRec → Bool} {rs : List PrimeRec} {i : Nat} {r : PrimeRec} (hr : rs[i]? = some r) (hbad : ok r = false)
    (hbefore : ∀ j r', j < i → rs[j]? = some r' → ok r' = true) : firstBad ok 0 rs = some i := by
  obtain ⟨hi, rfl⟩ := List.getElem?_eq_some_iff.mp hr
  have hfind : rs.findIdx? (fun r => !ok r) = some i := List.findIdx?_eq_some_iff_getElem.mpr
    ⟨hi, by simp [hbad], fun j hj => by simp [hbefore j _ hj (List.getElem?_eq_getElem (by omega))]⟩
  rw [firstBad_eq_findIdx?, hfind]
  rfl

/-- No record repeats a prime exactly when the primes differ from each other and from those seen before. -/
theorem firstRepeat_eq_none_iff {i : Nat} {seen : List Nat} {rs : List PrimeRec} :
    firstRepeat i seen rs = none ↔ (rs.map (·.q)).Nodup ∧ ∀ r ∈ rs, r.q ∉ seen := by
  induction rs generalizing i seen with
  | nil => simp [firstRepeat]
  | cons r rs ih =>
    by_cases h : r.q ∈ seen
    · simp [firstRepeat, h]
    · simp only [firstRepeat, List.contains_iff_mem, h, if_false, ih, List.mem_cons, not_or, forall_and, List.map_cons, List.nodup_cons,
        List.mem_map, not_exists, not_and, forall_eq_or_imp, not_false_eq_true, true_and]
      tauto

theorem primeCheck_eq_none_iff (x : PrimeSet) :
    primeCheck x = none ↔ primeHeaderOk x = true ∧ (∀ r ∈ x.recs, primeOk x.log2n r.q = true) ∧ (x.recs.map (·.q)).Nodup
      ∧ ∀ r ∈ x.recs, rootOk x.log2n r = true := by
  have h2 := firstBad_eq_none_iff (ok := fun r => primeOk x.log2n r.q) (i := 0) (rs := x.recs)
  have h3 := firstRepeat_eq_none_iff (i := 0) (seen := []) (rs := x.recs)
  have h4 := firstBad_eq_none_iff (ok := rootOk x.log2n) (i := 0) (rs := x.recs)
  simp only [List.not_mem_nil, not_false_eq_true, implies_true, and_true] at h3
  rw [← h2, ← h3, ← h4, primeCheck]
  cases primeHeaderOk x with
  | false => simp
  | true =>
    cases firstBad (fun r => primeOk x.log2n r.q) 0 x.recs with
    | some i => simp
    | none => cases firstRepeat 0 [] x.recs <;> simp

theorem primeCheck_header {x : PrimeSet} (h : primeHeaderOk x = false) : primeCheck x = some 0xFF := by
  simp [primeCheck, h]

theorem primeCheck_prime {x : PrimeSet} {i : Nat} (h : primeHeaderOk x = true)
    (hi : firstBad (fun r => primeOk x.log2n r.q) 0 x.recs = some i) : primeCheck x = some i := by
  simp [primeCheck, h, hi]

/-! ### The write of a set's image, and its validation (R48) -/

/-- The effect of an image's write outside a re-election. -/
theorem primeImageEffect_eq {s : State} (he : s.fed.electing = false) (via : Via) (n : Nat) (data : List Byte) :
    primeImageEffect via (0x2100 + n) 1 data s =
      if primeUsers s n ≠ 0 then dictAbort s via (abortCode 8 (objDetail (0x2100 + n) 4))
      else keepBefore (startLong (setSet s n (primeImage data)) via (0x2100 + n) 1 data true 0) via (0x2100 + n) (.set (setOf s n)) := by
  simp [primeImageEffect, packageEffect, he]

theorem primeUsers_arriving (s : State) (via : Via) (o u : Nat) (b : List Byte) (n : Nat) :
    primeUsers (arriving s via o u b) n = primeUsers s n := by
  rw [primeUsers, arriving_slots, primeUsers]

theorem exec_primeSetImageWrite {s : State} {via : Via} {n : Nat} {data : List Byte} (h : Takes s via (0x2100 + n) 1 data)
    (he : s.fed.electing = false) : let u := arriving s via (0x2100 + n) 1 data
    exec (.primeSetImageWrite via n data) s = .next (
      if primeUsers s n ≠ 0 then dictAbort u via (abortCode 8 (objDetail (0x2100 + n) 4))
      else keepBefore (startLong (setSet u n (primeImage data)) via (0x2100 + n) 1 data true 0) via (0x2100 + n) (.set (setOf s n))) := by
  intro u
  have hu : u.fed.electing = false := by rw [arriving_fed]; exact he
  refine congrArg Host.Outcome.next ((requestWrite_takes h primeImageEffect).trans ?_)
  rw [primeImageEffect_eq hu, primeUsers_arriving, setOf_arriving]

theorem primePassed_eq (s : State) (n : Nat) (others : Bool) : primePassed s n others =
    setSet s n (if otherDies s = [] ∨ others = true then { primeFill (setOf s n) with valid := true } else primeRaw (setOf s n)) := by
  by_cases h : otherDies s = [] ∨ others = true <;> simp [primePassed, h]

/-- Settles O24: the write is refused, or held until its validation; a validation finishes it with what the checks say; the checks name
the first record refused. -/
theorem primeSets : Obligations.PrimeSets := by
  refine ⟨⟨fun s via n data h he => ?_, fun s n others => ⟨fun hv => ?_, fun hv => ⟨fun d hd => ?_, fun hn => ?_⟩⟩⟩,
    fun x => ⟨primeCheck_eq_none_iff x, primeCheck_header, fun i r hh hr hbad hbefore =>
      primeCheck_prime hh (firstBad_eq_some hr hbad hbefore)⟩⟩
  · have hx := exec_primeSetImageWrite h he
    exact ⟨fun hu => by rw [hx, if_pos hu], fun hu => by rw [hx, if_neg (not_not_intro hu)], rfl, rfl⟩
  · exact congrArg Host.Outcome.next (by simp [hv])
  · exact congrArg Host.Outcome.next (by simp [hv, hd])
  · exact congrArg Host.Outcome.next (by simp [hv, hn, primePassed_eq])

end Sys2Proof.Machine

/-! The package's messages: the rest stop, federation messages, and writes forwarded between engines. -/

namespace Sys2Proof.Machine

/-! ### The rest stop of a package (R285) -/

/-- The RELEASE that the lead sends to a die. -/
def releaseTo (s : State) (d : Nat) : D2d := .fed (fedBytes 6 (dieId s) d 0 (stopPayload (segmentOf s) true))

/-- A RELEASE to each of some dies adds one message for each, in their order. -/
theorem sendReleases_eq (l : List Nat) (s : State) :
    l.foldl (fun s d => fedSend s fedArrive d (stopPayload (segmentOf s) true)) s
      = { s with fed := { s.fed with tx := s.fed.tx ++ l.map (releaseTo s) } } := by
  induction l generalizing s with
  | nil => simp
  | cons d l ih =>
    rw [List.foldl_cons, ih, List.map_cons, ← List.singleton_append, ← List.append_assoc]
    rfl

/-- The lead has heard of every admitted die. -/
def allArrived (s : State) : Bool := (List.range 8).all (fun d => !s.fed.admitted.testBit d || s.dlv.arrivals.contains d)

theorem allArrived_iff {s : State} : allArrived s = true ↔ ∀ d, d < 8 → s.fed.admitted.testBit d = true → d ∈ s.dlv.arrivals := by
  simp [allArrived, imp_iff_not_or]

theorem leadRelease_eq {s : State} (hl : s.fed.lead = dieId s) (hc : headCountClosed s = true) (he : s.fed.electing = false) :
    leadRelease s = if allArrived s = true then
        permit { s with fed := { s.fed with tx := s.fed.tx ++ (otherDies s).map (releaseTo s) }, dlv := { s.dlv with arrivals := [] } }
      else s := by
  cases ha : allArrived s <;> rw [allArrived] at ha <;>
    simp only [leadRelease, hl, hc, he, ha, sendReleases_eq, bne_self_eq_false, Bool.not_true, Bool.not_false, Bool.or_false, Bool.or_true,
      Bool.false_eq_true, if_true, if_false]

theorem sendArrive_follower {s : State} (h : s.fed.lead ≠ dieId s) :
    sendArrive s = fedSend s 6 s.fed.lead (stopPayload (segmentOf s) false) := by
  simp only [sendArrive, beq_iff_eq, h, if_false, fedArrive]

theorem sendArrive_lead {s : State} (h : s.fed.lead = dieId s) :
    sendArrive s = leadRelease { s with dlv := { s.dlv with arrivals := setAdd s.dlv.arrivals [dieId s] } } := by
  simp only [sendArrive, h, beq_self_eq_true, if_true]

theorem exec_barReport {s : State} (hc : headCountClosed s = true) (hu : unitsWork s = true) :
    exec .barReport s = .next (sendArrive { s with dlv := { s.dlv with reported := true } }) :=
  congrArg Host.Outcome.next (by simp [hc, hu])

/-! ### Federation messages (R386) -/

/-- Each command that brings a federation message takes one of its type. -/
theorem exec_message {c : Instr} {ty : Nat} {m : FedArrival} (h : messageRow c = some (ty, m)) :
    ∃ act, ∀ s, exec c s = .next (fedTake ty m act s) := by
  unfold messageRow at h
  split at h <;> cases h <;> exact ⟨_, fun _ => rfl⟩

/-! ### The pieces of a forwarded write (R333) -/

@[simp] theorem piecesOf_setPieces_self (s : State) (d : Nat) (x : Pieces) : piecesOf (setPieces s d x) d = x :=
  tblGet_tblSet_self _ _ _ _

@[simp] theorem setPieces_setPieces (s : State) (d : Nat) (x y : Pieces) : setPieces (setPieces s d x) d y = setPieces s d y := by
  simp [setPieces]

/-- While the next piece of a die is not here none is taken. -/
theorem takePieces_waits {s : State} {d : Nat} (h : ∀ p ∈ (piecesOf s d).held, p.1 ≠ (piecesOf s d).next) (k : Nat) :
    takePieces d k s = s := by
  have hf : (piecesOf s d).held.find? (fun p => p.1 == (piecesOf s d).next) = none := by simpa using h
  cases k with
  | zero => rfl
  | succ k => simp only [takePieces, hf]

/-- A die's next piece, with no other held, is taken: its write has its effect when it is whole. -/
theorem takePieces_only {s : State} {d : Nat} {piece : List Byte} (x : Pieces) :
    let b := x.bytes ++ piece
    takePieces d 1 (setPieces s d { x with held := [(x.next, piece)] }) =
      if writeWhole b = true then
        forwardedWrite (setPieces s d { next := (x.next + 1) % 2 ^ 32, held := [], bytes := [] }) (fld b 0 2) (fld b 2 1)
          ((b.drop 8).take (fld b 4 4))
      else setPieces s d { next := (x.next + 1) % 2 ^ 32, held := [], bytes := b } := by
  intro b
  by_cases hw : writeWhole b = true <;> simp [takePieces, hw, b]

theorem forwardedWrite_eq (s : State) (i k : Nat) (data : List Byte) : forwardedWrite s i k data =
    if isPrimeImage i k = true ∧ data = [] then primeFirstByte s (i - 0x2100) else dictWriteWith dictEffect .link i k data s := by
  simp [forwardedWrite]

/-- The piece of a forwarded write that a message brings, with its sequence number. -/
def pieceIn (b : List Byte) : Nat × List Byte := (fld b 24 4, (b.drop 4).take 20)

/-- A piece of an admitted die is held, and what follows the last taken is taken. -/
theorem exec_fedForward {s0 s : State} {m : FedArrival} (h : Received 7 m s0 s) (ha : dieAdmitted s (msgSrc m.bytes) = true) :
    let d := msgSrc m.bytes
    let x := piecesOf s d
    exec (.fedForward m) s0
      = .next (takePieces d (x.held.length + 1) (setPieces s d { x with held := x.held ++ [pieceIn m.bytes] })) :=
  congrArg Host.Outcome.next ((fedTake_received h _).trans (by simp [ha, pieceIn]))

/-- The next piece of an admitted die that holds no other is taken at once. -/
theorem exec_fedForward_next {s0 s : State} {m : FedArrival} (h : Received 7 m s0 s) (ha : dieAdmitted s (msgSrc m.bytes) = true)
    (hn : fld m.bytes 24 4 = (piecesOf s (msgSrc m.bytes)).next) (hh : (piecesOf s (msgSrc m.bytes)).held = []) :
    let d := msgSrc m.bytes
    let x := piecesOf s d
    let b := x.bytes ++ (m.bytes.drop 4).take 20
    exec (.fedForward m) s0 = .next (
      if writeWhole b = true then
        forwardedWrite (setPieces s d { next := (x.next + 1) % 2 ^ 32, held := [], bytes := [] }) (fld b 0 2) (fld b 2 1)
          ((b.drop 8).take (fld b 4 4))
      else setPieces s d { next := (x.next + 1) % 2 ^ 32, held := [], bytes := b }) := by
  intro d x b
  rw [exec_fedForward h ha, pieceIn, hn, hh]
  exact congrArg _ (takePieces_only x)

/-! ### The outcome of a write on the other engines (R48, R312) -/

@[simp] theorem setOf_setSet_self (s : State) (n : Nat) (x : PrimeSet) : setOf (setSet s n x) n = x := tblGet_tblSet_self _ _ _ _

theorem settled_none {s : State} {index : Nat} (h : keptOf s index = none) (abort : Nat) : settled s index abort = s := by
  simp only [settled, h]

theorem settled_set {s : State} {index : Nat} {x : PrimeSet} (h : keptOf s index = some (.set x)) (abort : Nat) :
    setOf (settled s index abort) (index - 0x2100) =
      if isBusy abort = true then x
      else if abort = 0 ∨ abort / 2 ^ 24 = 0x0B then setOf s (index - 0x2100) else primeRaw (setOf s (index - 0x2100)) := by
  simp only [settled, h, Bool.or_eq_true, beq_iff_eq]
  by_cases hb : isBusy abort = true
  · simp only [hb, if_true, setOf_setSet_self]
  · by_cases hk : abort = 0 ∨ abort / 2 ^ 24 = 0x0B
    · simp only [hb, hk, if_true, Bool.false_eq_true, if_false]
    · simp only [hb, hk, Bool.false_eq_true, if_false, setOf_setSet_self]

theorem settled_root {s : State} {index abort : Nat} {x : EncRoot} (h : keptOf s index = some (.root x)) (hb : isBusy abort = true) :
    tblGet {} (settled s index abort).roots (index - 0x5410) = x := by
  simp [settled, h, hb]

theorem settled_table {s : State} {index abort v : Nat} {x : TokTable} (h : keptOf s index = some (.table x v)) (hb : isBusy abort = true) :
    settled s index abort = objSet { s with tok := { s.tok with table := x } } 0x4800 5 v := by
  simp only [settled, h, hb, if_true]

theorem settled_arm {s : State} {index : Nat} (h : keptOf s index = some .arm) (abort : Nat) :
    settled s index abort = if abort = 0 then arm s else s := by
  simp only [settled, h, beq_iff_eq]

/-- A write that waited for the other engines no longer does: it ends when this engine's part is done, or when one refused with BUSY what
is kept here. -/
theorem exec_packageWriteComplete {s : State} {index : Nat} {l : LongWrite}
    (h : s.dict.long.find? (fun l => l.index == index && !l.othersDone) = some l) (abort : Nat) :
    let l' := { l with othersDone := true, abort := if l.abort = 0 then abort else l.abort }
    let v := settled { s with dict := { s.dict with long := s.dict.long.map (fun x => if x == l then l' else x) } } index abort
    exec (.packageWriteComplete index abort) s
      = .next (if l.localDone = true ∨ (keptOf s index ≠ none ∧ isBusy abort = true) then endLong v l' else v) := by
  refine congrArg Host.Outcome.next ?_
  simp only [h, beq_iff_eq, Bool.or_eq_true, Bool.and_eq_true, Option.isSome_iff_ne_none]
  rfl

/-- Settles O22: what each message of the stop, each fate of a message, each piece of a write, and each outcome of one elsewhere comes to. -/
theorem packageMessages : Obligations.PackageMessages := by
  refine ⟨⟨fun s hc hu => ⟨fun hl => ?_, fun hl => ?_⟩, fun s h => ?_, fun s0 s m h => ⟨fun hb hl hd => ?_, fun hb hc he hl => ?_⟩,
      fun s hl hc he => ⟨fun h => ?_, fun h => ?_⟩⟩,
    fun c ty m s hrow => ?_,
    fun s0 s m h => ⟨fun hd => ?_, fun hd hn hh => ?_, fun hd hn hh => ⟨fun hw => ?_, fun hw => ?_⟩⟩,
    fun s index abort => ⟨fun hf => ⟨fun hk => ?_, fun hk => ?_⟩, fun l hf => ⟨fun hl hk => ?_, fun hk => ?_⟩⟩,
    fun s index abort => ⟨fun h => settled_none h _, fun x h => settled_set h _, fun x h hb => settled_root h hb,
      fun x v h hb => ?_, fun h => ⟨fun ha => ?_, fun ha => ?_⟩⟩⟩
  · exact (exec_barReport hc hu).trans (congrArg _ (sendArrive_follower hl))
  · exact (exec_barReport hc hu).trans (congrArg _ (sendArrive_lead hl))
  · exact congrArg Host.Outcome.next (by rcases h with h | h <;> simp [h])
  · exact congrArg Host.Outcome.next ((fedTake_received h _).trans (by simp [hb, hl, hd]))
  · exact congrArg Host.Outcome.next ((fedTake_received h _).trans (by simp [hb, hc, he, hl, permit]))
  · rw [leadRelease_eq hl hc he, if_pos (allArrived_iff.mpr h)]
    exact ⟨rfl, rfl⟩
  · rw [leadRelease_eq hl hc he, if_neg]
    obtain ⟨d, hd, ha, hn⟩ := h
    exact fun hall => hn (allArrived_iff.mp hall d hd ha)
  · obtain ⟨act, hx⟩ := exec_message hrow
    rw [hx]
    exact ⟨fun hu => congrArg _ (fedTake_idle hu ..), fun hu hs => congrArg _ (fedTake_crc hu hs ..), fun hu hs =>
      ⟨fun ht => congrArg _ (fedTake_type hu hs ht _), fun hd hd' => congrArg _ (fedTake_other hu hs hd hd' ..),
        fun hd hc => congrArg _ (fedTake_again hu hs hd hc ..)⟩⟩
  · exact congrArg Host.Outcome.next ((fedTake_received h _).trans (by simp [hd]))
  · rw [exec_fedForward h hd, takePieces_waits]
    · rfl
    · rw [piecesOf_setPieces_self]
      intro p hp
      obtain hp | hp := List.mem_append.mp hp
      · exact hh p hp
      · obtain rfl := List.mem_singleton.mp hp
        exact hn
  · exact (exec_fedForward_next h hd hn hh).trans (congrArg _ (if_neg (by rw [hw]; exact Bool.false_ne_true)))
  · exact (exec_fedForward_next h hd hn hh).trans (congrArg _ ((if_pos hw).trans (forwardedWrite_eq ..)))
  · exact congrArg Host.Outcome.next (by simp [hf, hk])
  · exact congrArg Host.Outcome.next (by simp [hf, hk])
  · rw [exec_packageWriteComplete hf, if_neg]
    obtain hk | hk := hk <;> simp [hl, hk]
  · rw [exec_packageWriteComplete hf, if_pos hk]
  · rw [settled_table h hb]
    exact ⟨rfl, objGet_objSet_self ..⟩
  · rw [settled_arm h, if_pos ha]
  · rw [settled_arm h, if_neg ha]

end Sys2Proof.Machine

/-! The service of units: enable writes, self-tests, and the retirement of staging. -/

namespace Sys2Proof.Machine

/-! ### The service of units (R73, R417) -/

/-- A write of an enable object that passes its checks clears units, and ends at once or waits for the self-tests it starts (R73). -/
theorem enableWrite_takes {s : State} {k : UnitKind} {high : Bool} {via : Via} {w v : Nat}
    (h : Takes s via (enableIndex k) (enableSub k (if high then 64 else 0)) (leBytes w v)) (hv : v < 256 ^ w) :
    let base := if high then 64 else 0
    let u := arriving s via (enableIndex k) (enableSub k base) (leBytes w v)
    let cut := (clearedUnits u k base v).foldl (fun s x =>
      if unitBusy s k x = true then setDraining s k (setAdd (drainingOf s k) [x]) else setEnable s k x false) u
    enableWrite k high w via v s = if testedUnits u k base v = [] then dictDone cut via
      else startLong cut via (enableIndex k) (enableSub k base) (leBytes w v) false ((testedUnits u k base v).foldl (fun n x => n + 2 ^ x) 0) := by
  have hn : leNat (leBytes w v) = v := by rw [leNat_leBytes, Nat.mod_eq_of_lt hv]
  refine (requestWrite_takes h _).trans ?_
  simp only [enableEffect, hn, List.isEmpty_iff]

/-- Each row that writes an enable object is the write of its kind's. -/
theorem exec_enableRow {c : Instr} {k : UnitKind} {base w v : Nat} {via : Via} (h : enableRow c = some (k, base, via, w, v)) :
    ∃ high : Bool, base = (if high then 64 else 0) ∧ ∀ s, exec c s = .next (enableWrite k high w via v s) := by
  unfold enableRow at h
  split at h <;> cases h
  exacts [⟨_, rfl, fun _ => rfl⟩, ⟨_, rfl, fun _ => rfl⟩, ⟨false, rfl, fun _ => rfl⟩, ⟨false, rfl, fun _ => rfl⟩,
    ⟨false, rfl, fun _ => rfl⟩]

/-- Where no self-test of a kind is under way, none ends. -/
theorem selftestDone_none {s : State} {k : UnitKind} (h : ∀ l ∈ s.dict.long, l.index = enableIndex k → l.bits = 0 ∨ l.localDone = true)
    (failed : List Nat) : selftestDone s k failed = s := by
  have hf : s.dict.long.find? (fun l => l.index == enableIndex k && l.bits != 0 && !l.localDone) = none := by
    refine List.find?_eq_none.mpr fun l hl hall => ?_
    simp only [Bool.and_eq_true, beq_iff_eq, bne_iff_ne, Bool.not_eq_true'] at hall
    obtain ⟨⟨hi, hb⟩, hd⟩ := hall
    obtain h0 | h1 := h l hl hi
    · exact hb h0
    · exact absurd h1 (by simp [hd])
  simp only [selftestDone, hf]

/-- The self-tests of an enable write end: what passed is in service, each that failed is retired with its error, and the write ends. -/
theorem selftestDone_some {s : State} {k : UnitKind} {l : LongWrite}
    (h : s.dict.long.find? (fun l => l.index == enableIndex k && l.bits != 0 && !l.localDone) = some l) (failed : List Nat) :
    let units := (List.range 128).filter (fun u => l.bits.testBit u)
    let bad := units.filter (fun u => failed.contains u)
    let passed := (units.filter (fun u => !failed.contains u && !unitStuck s k u)).foldl (fun s u => setRetired (setEnable s k u true) k u false) s
    let retired := bad.foldl (fun s u => raiseErr (setRetired s k u true) 0x1206 63) passed
    selftestDone s k failed = localFinish (if k = .rsv then rsvServe retired else retired) l.index l.sub
      (bad.head?.elim 0 (fun u => abortCode 0x10 (enableIndex k * 256 + u))) := by
  intro units bad passed retired
  simp only [selftestDone, h, beq_iff_eq]
  split
  · next hbad => rw [show bad = [] from hbad]; rfl
  · next x rest hbad => rw [show bad = x :: rest from hbad]; rfl

/-! ### The retirement of staging (R416) -/

/-- An error with a counter counts there (R423). -/
theorem objGet_countErr_self (s : State) {code i k src : Nat} (slot : Nat) (h : errInfo code = (i, k, src)) (hi : i ≠ 0)
    (hcode : objKey i k ≠ objKey 0x9000 5) (hdrop : objKey i k ≠ objKey 0xA000 0x0A) :
    objGet (countErr s code slot) i k = satAdd (objGet s i k) 1 := by
  unfold countErr
  rw [traceRec_sameBut _ _ _ _ _ _ _ _ _ hdrop, h]
  simp only [hi, if_false]
  split
  · rw [objGet_objSet_ne _ _ _ _ _ _ hcode, objGet_bump_self]
  · exact objGet_bump_self _ _ _

/-- An error raised with a source of its own counts as an error counted: its firing touches no counter but that of wake requests. -/
theorem objGet_raiseErr_self (s : State) {code i k src : Nat} (slot : Nat) (h : errInfo code = (i, k, src)) (hi : i ≠ 0)
    (hcode : objKey i k ≠ objKey 0x9000 5) (hdrop : objKey i k ≠ objKey 0xA000 0x0A) (hwake : objKey i k ≠ objKey 0x7700 0x62) :
    objGet (raiseErr s code slot) i k = satAdd (objGet s i k) 1 := by
  unfold raiseErr
  dsimp only
  split
  · exact objGet_countErr_self s slot h hi hcode hdrop
  · rw [fire_sameBut _ _ _ _ _ hwake, objGet_countErr_self s slot h hi hcode hdrop]

theorem not_mem_sharedFree {s : State} {u : Nat} (h : (objGet s 0x9000 3).testBit u = true) : u ∉ sharedFree s := by
  simp [sharedFree, h]

/-- The slots whose jobs' windows hold a unit of PFG/SDX staging. -/
def coveringSlots (s : State) (u : Nat) : List Nat :=
  slotNumbers.filter (fun n => slotBusy s n && (slotOf s n).job.pfgBase ≤ u
    && u < (slotOf s n).job.pfgBase + (slotOf s n).job.pfgSize)

/-- A unit of PFG/SDX staging as it is retired, before its jobs are faulted: its bit is set and the error raised. -/
def stagingMarked (s : State) (u : Nat) : State :=
  raiseErr (objSet s 0x9000 3 (putBit (objGet s 0x9000 3) u true)) 0x1207 63

theorem retireStaging_eq (s : State) (u : Nat) :
    retireStaging s u = (coveringSlots s u).foldl (fun s n => slotFault s n 0x1207) (stagingMarked s u) := by
  have hs : ∀ n, slotOf (stagingMarked s u) n = slotOf s n := slotOf_raiseErr _ _ _
  have hb : ∀ n, slotBusy (stagingMarked s u) n = slotBusy s n := slotBusy_raiseErr _ _ _
  have hc : coveringSlots (stagingMarked s u) u = coveringSlots s u := by simp only [coveringSlots, hs, hb]
  exact congrArg (List.foldl _ _) hc

/-- A unit marked is the only one more retired, is counted, and is free no longer; the slots are as they were. -/
theorem stagingMarked_effect (s : State) (u : Nat) :
    (∀ k, (objGet (stagingMarked s u) 0x9000 3).testBit k = ((objGet s 0x9000 3).testBit k || k == u))
    ∧ objGet (stagingMarked s u) 0x9010 6 = satAdd (objGet s 0x9010 6) 1
    ∧ u ∉ sharedFree (stagingMarked s u) ∧ (stagingMarked s u).slots = s.slots := by
  have hbit : ∀ k, (objGet (stagingMarked s u) 0x9000 3).testBit k = ((objGet s 0x9000 3).testBit k || k == u) := by
    intro k
    rw [stagingMarked, objGet_raiseErr _ _ _ (by decide), objGet_objSet_self, testBit_putBit]
    split
    · next h => simp [h]
    · next h => simp [h]
  have hcount : objGet (stagingMarked s u) 0x9010 6 = satAdd (objGet s 0x9010 6) 1 := by
    rw [stagingMarked, objGet_raiseErr_self _ 63 (rfl : errInfo 0x1207 = (0x9010, 6, 198)) (by decide) (by decide) (by decide) (by decide),
      objGet_objSet_ne _ _ _ _ _ _ (by decide)]
  exact ⟨hbit, hcount, not_mem_sharedFree (by rw [hbit]; simp), raiseErr_slots _ _ _⟩

/-- A tile at its limit is retired, but for one that is absent or retired for good already (R416). -/
theorem exec_bankUeLimit_tile {s : State} {u : Nat} (hu : unitsWork s = true) (hl : atLimit s true u = true) :
    exec (.bankUeLimit true u) s =
      .next (if tilesFused s ≤ u ∨ s.txa.stuck.contains u = true then s else retireTile s u) :=
  congrArg Host.Outcome.next (by simp only [hu, hl, Bool.not_true, Bool.or_self, Bool.false_eq_true, if_false, if_true, Bool.or_eq_true,
    decide_eq_true_eq])

/-- So is a unit of PFG/SDX staging. -/
theorem exec_bankUeLimit_staging {s : State} {u : Nat} (hu : unitsWork s = true) (hl : atLimit s false u = true) :
    exec (.bankUeLimit false u) s =
      .next (if pfgUnits ≤ u ∨ (objGet s 0x9000 3).testBit u = true then s else retireStaging s u) :=
  congrArg Host.Outcome.next (by simp only [hu, hl, Bool.not_true, Bool.or_self, Bool.false_eq_true, if_false, Bool.or_eq_true,
    decide_eq_true_eq])

/-- Settles O26: an enable write clears and tests units; their self-tests end it; corrected words count; a unit at its limit leaves
service, or the shared area. -/
theorem unitsInService : Obligations.UnitsInService := by
  refine ⟨fun c k base via w v s hc ht hv => ?_, fun s k failed => ⟨fun h => congrArg _ (selftestDone_none h failed), fun l h => ?_⟩,
    fun s u => ⟨fun c r h => ?_, fun r hc hr => ?_, fun b h => ?_, fun hu hl => ⟨fun ht hs => ?_, fun h => ?_⟩,
      fun hu hl => ⟨fun ht hs => ⟨stagingMarked s u, ?_, stagingMarked_effect s u⟩, fun h => ?_⟩, rfl, rfl⟩⟩
  · obtain ⟨high, rfl, hx⟩ := exec_enableRow hc
    rw [hx, enableWrite_takes ht hv]
    exact ⟨fun hn => congrArg _ (if_pos hn), fun hn => congrArg _ (if_neg hn)⟩
  · intro units passed served
    have hx := selftestDone_some h failed
    refine ⟨fun hall => ?_, fun x rest hbad => ?_⟩
    · have hbad : units.filter (fun u => failed.contains u) = [] := List.filter_eq_nil_iff.mpr fun u hu => by simpa using hall u hu
      exact congrArg Host.Outcome.next (hx.trans (by rw [hbad]; rfl))
    · exact congrArg Host.Outcome.next (hx.trans (by rw [hbad]; rfl))
  · exact congrArg Host.Outcome.next (by obtain h | h := h <;> simp [h])
  · exact ⟨congrArg Host.Outcome.next (by simp [hc, hr, storageReport]), congrArg Host.Outcome.next (by simp [hc, hr, storageReport])⟩
  · exact congrArg Host.Outcome.next (by obtain h | h := h <;> simp [h])
  · exact (exec_bankUeLimit_tile hu hl).trans (congrArg _ (if_neg (not_or.mpr ⟨Nat.not_le.mpr ht, ne_true_of_eq_false hs⟩)))
  · exact (exec_bankUeLimit_tile hu hl).trans (congrArg _ (if_pos h))
  · rw [exec_bankUeLimit_staging hu hl, if_neg (not_or.mpr ⟨Nat.not_le.mpr ht, ne_true_of_eq_false hs⟩), retireStaging_eq]
    rfl
  · exact (exec_bankUeLimit_staging hu hl).trans (congrArg _ (if_pos h))

end Sys2Proof.Machine

/-! The verdicts on forged limbs, and the residue check modulo 8,191. -/

namespace Sys2Proof.Machine

/-! ### The residue check modulo 8,191 (R90) -/

theorem congruent_iff (a b : Int) : congruent a b = true ↔ (a - b) % 8191 = 0 := by simp [congruent]

@[simp] theorem faultSum_nil (step : ForgeStep) (index : Nat) : faultSum [] step index = 0 := rfl

/-- One fault adds its amount to its own element, and nothing to another. -/
theorem faultSum_single (f : ForgeFault) (step : ForgeStep) (index : Nat) :
    faultSum [f] step index = if f.step = step ∧ f.index = index then f.delta else 0 := by
  by_cases h : f.step = step ∧ f.index = index
  · simp [faultSum, h]
  · simp [faultSum, h]

/-- A value of a quotient and a remainder modulo a prime agrees with them, by the prime's own remainder modulo 8,191, exactly when what is
added to the remainder is a multiple of 8,191 (R46, R90). -/
theorem congruent_divMod {v rem quot q q' δ : Int} (hv : q * quot + rem = v) (hq : q % 8191 = q' % 8191) :
    congruent v (rem + δ + quot * q') = true ↔ δ % 8191 = 0 := by
  have hmul : (q * quot - quot * q') % 8191 = 0 := by
    rw [mul_comm q]
    exact Int.emod_eq_emod_iff_emod_sub_eq_zero.mp (Int.ModEq.mul_left quot hq)
  rw [congruent_iff]
  omega

/-- A factor prime to 8,191 makes no multiple of it. -/
theorem mul_emod_8191 {c : Int} (hc : IsCoprime 8191 c) (δ : Int) : δ * c % 8191 = 0 ↔ δ % 8191 = 0 := by
  rw [← Int.dvd_iff_emod_eq_zero, ← Int.dvd_iff_emod_eq_zero]
  exact ⟨hc.dvd_of_dvd_mul_right, fun h => h.mul_right c⟩

/-- An element of a stage passes its check exactly when what is added to it is a multiple of 8,191: 2^72 leaves 128. -/
theorem stageElem_ok (acc fault : Int) : (stageElem acc fault).2 = true ↔ fault % 8191 = 0 := by
  unfold stageElem
  generalize divHalfEvenInt acc (2 ^ 72) = x
  have hsum : (x + fault) * 128 + (acc - x * 2 ^ 72) = (acc - x * 2 ^ 72) + fault * 128 + x * 128 := by ring
  have hcheck := congruent_divMod (v := acc) (rem := acc - x * 2 ^ 72) (quot := x) (q := 2 ^ 72) (q' := 128) (δ := fault * 128) (by ring)
    (by norm_num)
  dsimp only
  rw [hsum, hcheck, mul_emod_8191 ⟨-1, 64, by norm_num⟩]

/-- So does a rounded coefficient: 2^14 leaves 2. -/
theorem roundElem_ok (rmode : Nat) (draw : DrawId) (faults : List ForgeFault) (k : Nat) (d : Int) :
    (roundElem rmode draw faults k d).2 = true ↔ faultSum faults .round k % 8191 = 0 := by
  unfold roundElem
  generalize roundCoef rmode draw k d = m
  generalize faultSum faults .round k = δ
  have hsum : (m + δ) * 2 + (d - m * 2 ^ 14) = (d - m * 2 ^ 14) + δ * 2 + m * 2 := by ring
  have hcheck := congruent_divMod (v := d) (rem := d - m * 2 ^ 14) (quot := m) (q := 2 ^ 14) (q' := 2) (δ := δ * 2) (by ring) (by norm_num)
  dsimp only
  rw [hsum, hcheck, mul_emod_8191 ⟨1, -4095, by norm_num⟩]

/-- A residue of the splitter passes its check exactly when what is added to it is a multiple of 8,191. -/
theorem splitElem_ok {r : PrimeRec} (h : (r.q : Int) % 8191 = (r.qMod : Int) % 8191) (faults : List ForgeFault) (k : Nat) (m : Int) :
    (splitElem r faults k m).2 = true ↔ faultSum faults .split k % 8191 = 0 := by
  have hv : (r.q : Int) * splitQuotient r.q m + m % (r.q : Int) = m := by
    rw [splitQuotient, Int.mul_ediv_cancel' (Int.dvd_self_sub_emod), sub_add_cancel]
  exact congruent_divMod hv h

/-- So does a product of the pointwise unit, with its addend (R104). -/
theorem mulAddElem_ok {r : PrimeRec} (h : (r.q : Int) % 8191 = (r.qMod : Int) % 8191) (fault : Int) (a c addend : Nat) :
    (mulAddElem r fault a c addend).2 = true ↔ fault % 8191 = 0 :=
  congruent_divMod (by exact_mod_cast Nat.div_add_mod (a * c + addend) r.q) h

/-! ### The special FFT -/

theorem specialIdft_length (bigN : Nat) (faults : List ForgeFault) (rs : List Nat) (s base : Nat) (x : List (Int × Int)) :
    (specialIdft bigN faults rs s base x).1.length = x.length := by
  cases rs with
  | nil => rfl
  | cons r rs => simp [specialIdft]

/-- Without a fault every congruence of the special FFT holds. -/
theorem specialIdft_ok (bigN : Nat) (rs : List Nat) (s base : Nat) (x : List (Int × Int)) : (specialIdft bigN [] rs s base x).2 = true := by
  induction rs generalizing s base x with
  | nil => rfl
  | cons r rs ih => simp [specialIdft, ih, stageElem_ok]

/-- An error in an element of the last stage fails it. -/
theorem specialIdft_stage {bigN : Nat} {f : ForgeFault} {r : Nat} {rs : List Nat} {s base : Nat} {x : List (Int × Int)}
    (hd : f.delta % 8191 ≠ 0) (hs : f.step = .stage s) (hl : 2 * base ≤ f.index) (hi : f.index < 2 * (base + x.length)) :
    (specialIdft bigN [f] (r :: rs) s base x).2 = false := by
  obtain ⟨k, hk⟩ : ∃ k, k = f.index / 2 - base := ⟨_, rfl⟩
  simp only [specialIdft, Bool.and_eq_false_iff]
  refine .inr (List.all_eq_false.mpr ⟨_, List.mem_map.mpr ⟨k, List.mem_range.mpr (by omega), rfl⟩, ?_⟩)
  simp only [Bool.and_eq_true, stageElem_ok, faultSum_single, hs, true_and]
  rintro ⟨heven, hodd⟩
  obtain h | h := Nat.mod_two_eq_zero_or_one f.index
  · exact hd (by rwa [if_pos (by omega)] at heven)
  · exact hd (by rwa [if_pos (by omega)] at hodd)

/-! ### The unit of the special FFT with its rounding -/

/-- The data values that are rounded: the real parts of the last stage, then the imaginary ones (R85). -/
def roundInputs (log2n : Nat) (faults : List ForgeFault) (y : List (Int × Int)) : List Int :=
  let w := (specialIdft (2 ^ log2n) faults (idftRadices log2n) 1 0 y).1
  w.map (·.1) ++ w.map (·.2)

theorem length_roundInputs (log2n : Nat) (faults : List ForgeFault) (y : List (Int × Int)) :
    (roundInputs log2n faults y).length = 2 * y.length := by
  simp [roundInputs, specialIdft_length, Nat.two_mul]

theorem fftUnit_ok (rmode log2n : Nat) (draw : DrawId) (faults : List ForgeFault) (y : List (Int × Int)) :
    (fftUnit rmode log2n draw faults y).ok = ((specialIdft (2 ^ log2n) faults (idftRadices log2n) 1 0 y).2
      && (((List.range (roundInputs log2n faults y).length).zip (roundInputs log2n faults y)).map
          (fun e => roundElem rmode draw faults e.1 e.2)).all (·.2)) := rfl

/-- Each transform has a last stage. -/
theorem idftRadices_cons (log2n : Nat) : ∃ r rs, idftRadices log2n = r :: rs := by
  unfold idftRadices
  split <;> exact ⟨_, _, rfl⟩

theorem fftUnit_clean (rmode log2n : Nat) (draw : DrawId) (y : List (Int × Int)) : (fftUnit rmode log2n draw [] y).ok = true := by
  rw [fftUnit_ok, specialIdft_ok]
  simp [roundElem_ok]

/-- A place of a list stands among its places numbered. -/
theorem mem_range_zip {α : Type} {l : List α} {k : Nat} (h : k < l.length) : (k, l[k]) ∈ (List.range l.length).zip l := by
  rw [List.mem_iff_getElem]
  exact ⟨k, by simpa using h, by simp⟩

theorem fftUnit_stage {rmode log2n : Nat} {draw : DrawId} {y : List (Int × Int)} {f : ForgeFault} (hd : f.delta % 8191 ≠ 0)
    (hs : f.step = .stage 1) (hi : f.index < 2 * y.length) : (fftUnit rmode log2n draw [f] y).ok = false := by
  obtain ⟨r, rs, hr⟩ := idftRadices_cons log2n
  rw [fftUnit_ok, hr, specialIdft_stage hd hs (by omega) (by omega), Bool.false_and]

theorem fftUnit_round {rmode log2n : Nat} {draw : DrawId} {y : List (Int × Int)} {f : ForgeFault} (hd : f.delta % 8191 ≠ 0)
    (hs : f.step = .round) (hi : f.index < 2 * y.length) : (fftUnit rmode log2n draw [f] y).ok = false := by
  rw [fftUnit_ok, Bool.and_eq_false_iff]
  rw [← length_roundInputs log2n [f]] at hi
  refine .inr (List.all_eq_false.mpr ⟨_, List.mem_map.mpr ⟨_, mem_range_zip hi, rfl⟩, ?_⟩)
  simpa [roundElem_ok, faultSum_single, hs] using hd

/-- An error in a residue of the splitter fails its limb. -/
theorem checkedTile_split {radices : List Nat} {n : Nat} {r : PrimeRec} {f : ForgeFault} {coefs : List Int} (hd : f.delta % 8191 ≠ 0)
    (hs : f.step = .split) (hi : f.index < coefs.length) (hq : (r.q : Int) % 8191 = (r.qMod : Int) % 8191) :
    (checkedTile radices n r [f] coefs).2 = false := by
  have hall : (((List.range coefs.length).zip coefs).map (fun e => splitElem r [f] e.1 e.2)).all (·.2) = false := by
    refine List.all_eq_false.mpr ⟨_, List.mem_map.mpr ⟨_, mem_range_zip hi, rfl⟩, ?_⟩
    simpa [splitElem_ok hq, faultSum_single, hs] using hd
  simp only [checkedTile, hall, Bool.false_and]

/-! ### The verdicts (R91, R92) -/

/-- Whether the forge looks at a verdict of the plaintext in work: the array has run its items, and its draws and its noise are there. -/
def VerdictDue (s : State) (r : ForgeRun) : Prop :=
  s.forge.run = some r ∧ unitsWork s = true ∧ working s (.forge r.item.cmd) = false ∧ drawing s (.forge r.item.cmd) = false
  ∧ noiseReady s r.item r.pt = true

theorem exec_forgeLimbVerdict {s : State} {r : ForgeRun} (h : VerdictDue s r) (faults : List ForgeFault) :
    exec (.forgeLimbVerdict true faults) s = .next (if r.fftDone = true ∨ r.fftFailed = true then s else fftVerdict s r faults)
    ∧ exec (.forgeLimbVerdict false faults) s =
      .next (if r.fftFailed = true then forgeBadLimb s r else if r.fftDone = true then limbVerdict s r faults else s) := by
  obtain ⟨hr, hu, hw, hd, hn⟩ := h
  exact ⟨congrArg Host.Outcome.next (by simp [hr, hu, hw, hd, hn]), congrArg Host.Outcome.next (by simp [hr, hu, hw, hd, hn])⟩

/-- Without its occasion a verdict changes nothing. -/
theorem exec_forgeLimbVerdict_idle {s : State} {r : ForgeRun} (hr : s.forge.run = some r) (h : unitsWork s = false
      ∨ working s (.forge r.item.cmd) = true ∨ drawing s (.forge r.item.cmd) = true ∨ noiseReady s r.item r.pt = false)
    (fft : Bool) (faults : List ForgeFault) : exec (.forgeLimbVerdict fft faults) s = .next s := by
  have hb : (!unitsWork s || working s (.forge r.item.cmd) || drawing s (.forge r.item.cmd) || !noiseReady s r.item r.pt) = true := by
    obtain h | h | h | h := h <;> simp [h]
  exact congrArg Host.Outcome.next (by simp only [hr, hb, if_true])

/-- The verdict of a special FFT, from its unit of work (R71, R91). -/
theorem fftVerdict_eq (s : State) (r : ForgeRun) (faults : List ForgeFault) :
    let u := fftUnit r.item.p.rmode (setOf s r.item.p.set).log2n (roundDraw s r r.pt) faults (r.inputs.getD r.pt [])
    let t := memWrite s (r.work + r.pt * (forgeN s r.item.p / 2) * 32) (fftBytes u.data)
    let bad := if r.spoiled then (if r.pt == 0 && !r.fftRetried then List.range r.item.p.batch else [r.pt]) else []
    let r' := { r with spoiled := false, ranged := setAdd r.ranged bad }
    fftVerdict s r faults =
      if u.ok = true then
        limbWork (setForge (if r.fftRetried = true then bump t 0x8040 4 else t) { r' with fftDone := true, coefs := u.coefs }) r.item
      else if r.fftRetried = false then
        fftWork (setForge (raiseErr t 0x0403 r.item.slot) ({ r' with fftRetried := true, retriedAny := true }.err 0x0403)) r.item 1
      else setForge (raiseErr t 0x0404 r.item.slot) ({ r' with fftFailed := true }.err 0x0404) := by
  simp only [fftVerdict, Bool.not_eq_true']

/-- The verdict of a limb, from its tiles and their check (R71, R91). -/
theorem limbVerdict_eq (s : State) (r : ForgeRun) (faults : List ForgeFault) :
    let k := limbTiles s r faults
    let counted := if r.limbRetried = true then bump s 0x8040 4 else s
    limbVerdict s r faults =
      if k.2 = true then
        if r.spoiled = true then forgeAdvance (forgeFailedLimb counted r.item r.pt r.ord) { r with poisoned := true }
        else forgeAdvance (forgeLimb counted r faults k.1 (r.ranged.contains r.pt)) { r with poisoned := r.poisoned || r.ranged.contains r.pt }
      else if r.limbRetried = false then
        limbWork (setForge (raiseErr s 0x0403 r.item.slot)
          ({ r with limbRetried := true, retriedAny := true, spoiled := false }.err 0x0403)) r.item
      else forgeBadLimb (raiseErr s 0x0404 r.item.slot) (r.err 0x0404) := by
  simp only [limbVerdict, Bool.not_eq_true']

/-- Settles O28: each verdict of the special FFT and of a limb; a sound FFT passes the residue check, and each error no multiple of 8,191
fails it. -/
theorem forgeVerdicts : Obligations.ForgeVerdicts := by
  refine ⟨fun s r faults hr => ⟨fun h fft => exec_forgeLimbVerdict_idle hr h fft faults, fun hu hw hd hn => ?_⟩,
    fftUnit_clean, fun rmode log2n draw y f hd hi hs => ?_, fun _ _ _ _ _ hd hs hi hq => checkedTile_split hd hs hi hq,
    fun _ fault a c addend hq => mulAddElem_ok hq fault a c addend⟩
  · obtain ⟨hfft, hlimb⟩ := exec_forgeLimbVerdict ⟨hr, hu, hw, hd, hn⟩ faults
    refine ⟨fun hf hff => ?_, fun hf hff => ?_, fun hff => hlimb.trans (by rw [if_pos hff])⟩
    · rw [if_neg (by simp [hf, hff])] at hfft
      rw [if_neg (by simp [hff]), if_neg (by simp [hf])] at hlimb
      have hv := fftVerdict_eq s r faults
      refine ⟨fun ho => ?_, fun ho hr => ?_, fun ho hr => ?_, hlimb⟩
      · exact hfft.trans (congrArg _ (hv.trans (if_pos ho)))
      · exact hfft.trans (congrArg _ (hv.trans ((if_neg (ne_true_of_eq_false ho)).trans (if_pos hr))))
      · exact hfft.trans (congrArg _ (hv.trans ((if_neg (ne_true_of_eq_false ho)).trans (if_neg (ne_false_of_eq_true hr)))))
    · rw [if_pos (.inl hf)] at hfft
      rw [if_neg (by simp [hff]), if_pos hf] at hlimb
      have hv := limbVerdict_eq s r faults
      refine ⟨hfft, fun ho hs => ?_, fun ho hs => ?_, fun ho hr => ?_, fun ho hr => ?_⟩
      · exact hlimb.trans (congrArg _ (hv.trans ((if_pos ho).trans (if_pos hs))))
      · exact hlimb.trans (congrArg _ (hv.trans ((if_pos ho).trans (if_neg (ne_true_of_eq_false hs)))))
      · exact hlimb.trans (congrArg _ (hv.trans ((if_neg (ne_true_of_eq_false ho)).trans (if_pos hr))))
      · exact hlimb.trans (congrArg _ (hv.trans ((if_neg (ne_true_of_eq_false ho)).trans (if_neg (ne_false_of_eq_true hr)))))
  · obtain hs | hs := hs
    · exact fftUnit_stage hd hs hi
    · exact fftUnit_round hd hs hi

end Sys2Proof.Machine

/-! Messages that open, and containers that are converted. -/

namespace Sys2Proof.Machine

/-! ### Opens that wait (R375, R377) -/

/-- MESSAGE_OPEN has no occasion while no waiting open is decided, or the units do not work. -/
theorem exec_messageOpen_idle {s : State} {p : Nat} (h : (portOf s p).openQ.find? OpenReq.decided = none ∨ unitsWork s = false)
    (b : Nat) : exec (.messageOpen p b) s = .next s := by
  refine congrArg Host.Outcome.next ?_
  split
  · rfl
  · next o ho =>
    have hu : unitsWork s = false := h.resolve_left (by simp [ho])
    simp [hu]

/-- MESSAGE_OPEN takes the first open that is decided. -/
theorem exec_messageOpen_decided {s : State} {p : Nat} {o : OpenReq} (ho : (portOf s p).openQ.find? OpenReq.decided = some o)
    (hu : unitsWork s = true) (b : Nat) :
    exec (.messageOpen p b) s = .next (settleOpens (decideOpen (flowControl s p b) p o)) :=
  congrArg Host.Outcome.next (by simp [ho, hu])

theorem decideOpen_denied {o : OpenReq} (h : o.denied = true) (s : State) (p : Nat) :
    decideOpen s p o = giveUpOpen s p o (fun s => nakError s p o.qp 0x62 o.frame.psn) := if_pos h

theorem decideOpen_refused {s : State} {p : Nat} {o : OpenReq} (hd : o.denied = false)
    (h : o.refused = true ∨ cannotOpen s p (lrOf s o.region) = true) :
    decideOpen s p o = giveUpOpen s p o (fun s => rnrNak s p o.qp o.frame.psn) :=
  (if_neg (ne_true_of_eq_false hd)).trans (if_pos (Bool.or_eq_true_iff.mpr h))

theorem decideOpen_opens {s : State} {p a : Nat} {o : OpenReq} (hd : o.denied = false) (hr : o.refused = false)
    (hc : cannotOpen s p (lrOf s o.region) = false) (ha : o.buffer = some a) : decideOpen s p o = openMessage s p o a := by
  simp [decideOpen, hd, hr, hc, ha]

/-- OPEN_WAIT_EXPIRY takes the oldest open that waits for a grant. -/
theorem exec_openWaitExpiry_waiting {s : State} {p : Nat} {o : OpenReq}
    (ho : (portOf s p).openQ.find? (fun o => o.asked && !o.decided) = some o) (hu : unitsWork s = true) (b : Nat) :
    exec (.openWaitExpiry p b) s =
      .next (settleOpens (giveUpOpen (flowControl s p b) p o (fun s => rnrNak s p o.qp o.frame.psn))) :=
  congrArg Host.Outcome.next (by simp [ho, hu])

/-- OPEN_WAIT_EXPIRY has no occasion while no open waits for a grant, or the units do not work. -/
theorem exec_openWaitExpiry_idle {s : State} {p : Nat}
    (h : (∀ o ∈ (portOf s p).openQ, o.asked = false ∨ o.decided = true) ∨ unitsWork s = false) (b : Nat) :
    exec (.openWaitExpiry p b) s = .next s := by
  refine congrArg Host.Outcome.next ?_
  split
  · rfl
  · next o ho =>
    have hwaits : o.asked = true ∧ o.decided = false := by simpa using List.find?_some ho
    have hu : unitsWork s = false := h.resolve_left fun hall => by
      have := hall o (List.mem_of_find?_eq_some ho)
      simp [hwaits] at this
    simp [hu]

/-! ### The limbs of a container (R108, R112) -/

/-- A change of a message that leaves its number is found under that number. -/
theorem msgOf_modMsg_self (s : State) (id : Nat) {f : Msg → Msg} (hf : ∀ m, (f m).id = m.id) :
    msgOf (modMsg s id f) id = (msgOf s id).map f := by
  have hkey : ((fun m : Msg => m.id == id) ∘ fun m => if m.id == id then f m else m) = fun m => m.id == id := by
    funext m
    by_cases h : m.id = id <;> simp [h, hf]
  simp only [msgOf, modMsg, List.find?_map, hkey]
  exact Option.map_congr fun m hm => if_pos (List.find?_some (p := fun m : Msg => m.id == id) hm)

@[simp] theorem serviceList_modMsg (s : State) (id : Nat) (f : Msg → Msg) (k : UnitKind) :
    serviceList (modMsg s id f) k = serviceList s k := rfl

/-- The container `id` is message `m`, assigned to delivery `d` of the stage `i`. -/
def Assigned (s : State) (id : Nat) (m : Msg) (d : Nat) (i : IngestStage) : Prop :=
  msgOf s id = some m ∧ m.dlv = some d ∧ m.stage.bind (stageOf s) = some i

/-- The words of the next limb, one of c1, sum as they are read back to what SDX recorded (R112). -/
abbrev LimbAgrees (s : State) (i : IngestStage) (m : Msg) (delta : Nat) : Prop :=
  (limbSum s i m (m.limb - i.limbs) + delta) % 8191 = tblGet 0 m.sums (m.limb - i.limbs)

/-- A limb's first disagreement: the error is raised, and the limb is to be expanded again. -/
def limbDisagrees (s : State) (id : Nat) (m : Msg) (k : Nat) : State :=
  modMsg (raiseErr s 0x0504 m.jobSlot) id (fun m => { m with retried := true, retriedAny := true, expanded := m.expanded.erase k })

@[simp] theorem limbDisagrees_mem (s : State) (id : Nat) (m : Msg) (k : Nat) : (limbDisagrees s id m k).mem = s.mem :=
  raiseErr_mem _ _ _

theorem msgOf_limbDisagrees {s : State} {id : Nat} {m : Msg} (hm : msgOf s id = some m) (k : Nat) :
    ∃ m', msgOf (limbDisagrees s id m k) id = some m' ∧ m'.retried = true := by
  have hraised : msgOf (raiseErr s 0x0504 m.jobSlot) id = some m := by rw [msgOf, raiseErr_net]; exact hm
  rw [limbDisagrees, msgOf_modMsg_self, hraised]
  · exact ⟨_, rfl, rfl⟩
  · exact fun _ => rfl

section
variable {s : State} {id : Nat} {m : Msg} {d : Nat} {i : IngestStage} (ha : Assigned s id m d i)
include ha

theorem exec_ingestConversion_idle (h : unitsWork s = false ∨ 2 * i.limbs ≤ m.limb) (b : Nat) :
    exec (.ingestConversion id b) s = .next s := by
  obtain ⟨hm, hd, hi⟩ := ha
  exact congrArg Host.Outcome.next (by obtain h | h := h <;> simp [hm, hd, hi, h])

variable (hu : unitsWork s = true) (hk : m.limb < 2 * i.limbs)
include hu hk

/-- Of a container refused, or of an abandoned stage, each limb is passed poisoned. -/
theorem exec_ingestConversion_refused (h : m.refused ≠ none ∨ i.abandoned = true) (b : Nat) :
    exec (.ingestConversion id b) s = .next (passLimb (cancelStreams s id) i m d m.limb true) := by
  obtain ⟨hm, hd, hi⟩ := ha
  have hbad : (m.refused.isSome || i.abandoned) = true := by simpa [Option.isSome_iff_ne_none] using h
  exact congrArg Host.Outcome.next (by simp [hm, hd, hi, hu, Nat.not_le.mpr hk, hbad])

variable (hr : m.refused = none) (hb : i.abandoned = false)
include hr hb

theorem exec_ingestConversion_c0 (h : m.limb < i.limbs) (b : Nat) :
    exec (.ingestConversion id b) s = .next (passLimb s i m d m.limb false) := by
  obtain ⟨hm, hd, hi⟩ := ha
  exact congrArg Host.Outcome.next (by simp [hm, hd, hi, hu, Nat.not_le.mpr hk, hr, hb, h])

variable (hc1 : i.limbs ≤ m.limb)
include hc1

/-- A limb of c1 waits for its expansion. -/
theorem exec_ingestConversion_unexpanded (h : m.limb - i.limbs ∉ m.expanded) (b : Nat) :
    exec (.ingestConversion id b) s = .next s := by
  obtain ⟨hm, hd, hi⟩ := ha
  exact congrArg Host.Outcome.next (by simp [hm, hd, hi, hu, Nat.not_le.mpr hk, hr, hb, Nat.not_lt.mpr hc1, h])

variable (he : m.limb - i.limbs ∈ m.expanded) {delta : Nat}
include he

theorem exec_ingestConversion_agrees (h : LimbAgrees s i m delta) : exec (.ingestConversion id delta) s =
    .next (passLimb (if m.retried = true then bump s 0x8050 8 else s) i m d m.limb false) := by
  obtain ⟨hm, hd, hi⟩ := ha
  exact congrArg Host.Outcome.next (by simp [hm, hd, hi, hu, Nat.not_le.mpr hk, hr, hb, Nat.not_lt.mpr hc1, he, h])

/-- A limb that disagrees once more is passed poisoned. -/
theorem exec_ingestConversion_failed (h : ¬ LimbAgrees s i m delta) (ht : m.retried = true) :
    exec (.ingestConversion id delta) s = .next (passLimb (raiseErr s 0x0505 m.jobSlot) i m d m.limb true) := by
  obtain ⟨hm, hd, hi⟩ := ha
  exact congrArg Host.Outcome.next (by simp [hm, hd, hi, hu, Nat.not_le.mpr hk, hr, hb, Nat.not_lt.mpr hc1, he, h, ht])

/-- A limb that disagrees for the first time is expanded again, where a lane is in service. -/
theorem exec_ingestConversion_again (h : ¬ LimbAgrees s i m delta) (ht : m.retried = false)
    (hl : serviceList (raiseErr s 0x0504 m.jobSlot) .sdx ≠ []) : exec (.ingestConversion id delta) s =
      .next (startLimb (limbDisagrees s id m (m.limb - i.limbs)) m (m.limb - i.limbs)) := by
  obtain ⟨hm, hd, hi⟩ := ha
  exact congrArg Host.Outcome.next (by simp [hm, hd, hi, hu, Nat.not_le.mpr hk, hr, hb, Nat.not_lt.mpr hc1, he, h, ht, hl, limbDisagrees])

end

/-- Settles O54: each open that waits is answered or opens; each limb is passed, expanded again, or passed poisoned. -/
theorem messagesLand : Obligations.MessagesLand := by
  refine ⟨fun s p b => ⟨fun h => exec_messageOpen_idle h b, fun o ho hu => ?_,
    fun o ho hu => exec_openWaitExpiry_waiting ho hu b, fun h => exec_openWaitExpiry_idle h b⟩, fun s id m d i hm hd hi => ?_⟩
  · have hx := exec_messageOpen_decided ho hu b
    refine ⟨fun hd => ?_, fun hd h => ?_, fun hd hr hc a ha => ?_⟩
    · rw [hx, decideOpen_denied hd]
    · rw [hx, decideOpen_refused hd h]
    · rw [hx, decideOpen_opens hd hr hc ha]
  · have ha : Assigned s id m d i := ⟨hm, hd, hi⟩
    refine ⟨exec_ingestConversion_idle ha, fun hu hk => ⟨exec_ingestConversion_refused ha hu hk, fun hr hb =>
      ⟨exec_ingestConversion_c0 ha hu hk hr hb, fun hc1 hx => ?_, fun hc1 hx delta => ?_⟩⟩⟩
    · exact exec_ingestConversion_unexpanded ha hu hk hr hb hc1 (by simpa using hx)
    · have he : m.limb - i.limbs ∈ m.expanded := List.contains_iff_mem.mp hx
      refine ⟨exec_ingestConversion_agrees ha hu hk hr hb hc1 he, exec_ingestConversion_failed ha hu hk hr hb hc1 he,
        fun h ht hl => ⟨limbDisagrees s id m (m.limb - i.limbs), ?_, limbDisagrees_mem .., msgOf_limbDisagrees hm _⟩⟩
      exact exec_ingestConversion_again ha hu hk hr hb hc1 he h ht hl

end Sys2Proof.Machine

/-! Keys: their registration in the directory, and the dispatch of their streams. -/

namespace Sys2Proof.Machine

/-! ### Entries of the directory (R131) -/

@[simp] theorem length_keyEntryBytes (e : KeyEntry) : (keyEntryBytes e).length = 64 := by simp [keyEntryBytes]

/-- Bytes written read back. -/
theorem memBytes_memWrite (s : State) (a : Nat) (bs : List Byte) : memBytes (memWrite s a bs) a bs.length = bs :=
  cellsGet_cellsSet s.mem.dev a bs

/-- An entry written reads back at its place. -/
theorem memBytes_writeKeyEntry (s : State) (x : Nat) (e : KeyEntry) :
    memBytes (writeKeyEntry s x e) (keyEntryAddr s x) 64 = keyEntryBytes e := by
  rw [← length_keyEntryBytes e]
  exact memBytes_memWrite s (keyEntryAddr s x) (keyEntryBytes e)

/-! ### The end of a registration (R132) -/

@[simp] theorem finishCmd_mem (s : State) (id status flags result : Nat) : (finishCmd s id status flags result).mem = s.mem := rfl

@[simp] theorem raiseErrOn_mem (s : State) (code slot src : Nat) : (raiseErrOn s code slot src).mem = s.mem := by simp [raiseErrOn]

/-- A registration that passes leaves its entry as it registers it. -/
theorem memBytes_endRegistration_passed (s : State) (n : Nat) (r : KeyReg) :
    memBytes (endRegistration s n r 0) (keyEntryAddr s r.index) 64 = keyEntryBytes (registeredEntry s r) := by
  have hmem : (endRegistration s n r 0).mem = (writeKeyEntry s r.index (registeredEntry s r)).mem := rfl
  rw [memBytes, hmem]
  exact memBytes_writeKeyEntry s r.index (registeredEntry s r)

/-- A registration that fails leaves its entry not valid, with its code. -/
theorem memBytes_endRegistration_failed (s : State) (n : Nat) (r : KeyReg) {code : Nat} (h : code ≠ 0) :
    memBytes (endRegistration s n r code) (keyEntryAddr s r.index) 64 =
      keyEntryBytes { (keyEntryAt s r.index).1 with valid := false, status := code } := by
  have hmem : (endRegistration s n r code).mem =
      (writeKeyEntry s r.index { (keyEntryAt s r.index).1 with valid := false, status := code }).mem := by
    simp [endRegistration, h]
  rw [memBytes, hmem]
  exact memBytes_writeKeyEntry s r.index _

/-- KEY_REGISTRATION_CHECK ends the registration that a queue of a slot issued, with the code of its checks. -/
theorem exec_keyRegistrationCheck {s : State} {n q : Nat} {r : KeyReg} (hu : unitsWork s = true)
    (hr : s.sdx.regs.find? (fun r => r.slot == n && (cmdOf s r.cmd).any (fun c => c.queue == q)) = some r) :
    let t := readChecked s n r.cont (68 + (ecnHeader (memBytes s r.cont 64)).payload)
    exec (.keyRegistrationCheck n q) s =
      .next (endRegistration { t with sdx := { t.sdx with regs := t.sdx.regs.erase r } } n r (registerCode t r)) :=
  congrArg Host.Outcome.next (by simp [hr, hu])

/-! ### Items refused at their dispatch (R135, R280) -/

/-- An item's delivery is given up: it is done, and its sliver has one use fewer. -/
def withdrawKey (s : State) (i : KeyItem) : State :=
  match dlvOf s i.dlv with
  | some x =>
    sliverUse { doneHere s x with dlv := { (doneHere s x).dlv with items := s.dlv.items.filter (fun y => y.id != i.dlv) } } x.sliver false
  | none => s

/-- The use of a sliver is counted in an object. -/
theorem sliverUse_frame (s : State) (m : Nat) (more : Bool) : (sliverUse s m more).dlv = s.dlv
    ∧ (sliverUse s m more).slots = s.slots ∧ (sliverUse s m more).mem = s.mem ∧ (sliverUse s m more).sdx = s.sdx := by
  unfold sliverUse
  split <;> exact ⟨rfl, rfl, rfl, rfl⟩

/-- An item's delivery is over, and slots, memories and the seed expander are as they were. -/
theorem withdrawKey_effect (s : State) (i : KeyItem) : dlvOf (withdrawKey s i) i.dlv = none
    ∧ (withdrawKey s i).slots = s.slots ∧ (withdrawKey s i).mem = s.mem ∧ (withdrawKey s i).sdx = s.sdx := by
  unfold withdrawKey
  split
  · obtain ⟨hdlv, hframe⟩ := sliverUse_frame { doneHere s _ with dlv := { (doneHere s _).dlv with
      items := s.dlv.items.filter (fun y => y.id != i.dlv) } } _ false
    refine ⟨?_, hframe⟩
    rw [dlvOf, hdlv]
    simp
  · exact ⟨‹_›, rfl, rfl, rfl⟩

theorem dueOf_of_slots {s t : State} (h : t.slots = s.slots) (n due : Nat) : dueOf t n due = dueOf s n due := by
  simp only [dueOf, slotOf, h]

/-- A refusal gives the delivery up, records why, and faults the slot. -/
theorem refuseKey_eq (s : State) (i : KeyItem) (code flags : Nat) :
    refuseKey s i code flags = errFault (finishDelivery (withdrawKey s i) i.cmd
      { tag := i.tag, due := dueOf s i.slot i.p.due, status := code, flags := flags }) i.slot code := by
  rw [← dueOf_of_slots (withdrawKey_effect s i).2.1]
  rfl

/-! ### The dispatch of a stream (R135, R137) -/

/-- The slots whose first item can be dispatched now. -/
def keySlots (s : State) : List Nat := slotNumbers.filter (fun n => (firstKey s n).any (fun i => keyReady s i))

/-- An item has left the queue of its slot, and its entry has been read. -/
def keyTaken (s : State) (n : Nat) (i : KeyItem) : State :=
  readChecked (arbGrant { s with sdx := { s.sdx with keyQueue := s.sdx.keyQueue.erase i } } unitKey n (keySlots s)) n
    (keyEntryAddr s i.p.index) 64

theorem takeUnits_of_le {s : State} {k : Nat} (h : k ≤ (sharedFree s).length) : takeUnits s k = some ((sharedFree s).take k,
    { s with dlv := { s.dlv with reservedUnits := setAdd s.dlv.reservedUnits ((sharedFree s).take k) } }) :=
  if_neg (Nat.not_lt.mpr h)

theorem slot_of_firstKey {s : State} {n : Nat} {i : KeyItem} (h : firstKey s n = some i) : i.slot = n := by
  simpa using List.find?_some h

/-- The first item of a slot is dispatched: refused by its checks, refused by its place, or started in the staging it takes. -/
def dispatchKey (s : State) (n : Nat) (i : KeyItem) : State :=
  if keyCode s i != 0 then refuseKey (keyTaken s n i) i (keyCode s i) flagDone
  else if keyPlaceCode s i != 0 then refuseKey (keyTaken s n i) i (keyPlaceCode s i) (flagDone + flagUnwritten)
  else
    match takeUnits (keyTaken s n i) (keyUnits s i) with
    | none => s
    | some (us, t) => startKey t i us

theorem execKeyStreamDispatch_eq (s : State) : execKeyStreamDispatch s = .next (
    match (if unitsDispatch s then arbPick s unitKey (keySlots s) else none) with
    | none => s
    | some n =>
      match firstKey s n with
      | none => s
      | some i => dispatchKey s n i) := by
  have hslots : keySlots s = slotNumbers.filter (fun n =>
      match firstKey s n with
      | some i => keyReady s i
      | none => false) := List.filter_congr fun m _ => by cases firstKey s m <;> rfl
  unfold dispatchKey keyTaken
  rw [hslots]
  rfl

/-- KEY_STREAM_DISPATCH takes the first item of the slot that the round robin chooses. -/
theorem exec_keyStreamDispatch {s : State} {n : Nat} {i : KeyItem} (hu : unitsDispatch s = true)
    (hp : arbPick s unitKey (keySlots s) = some n) (hi : firstKey s n = some i) :
    exec .keyStreamDispatch s = .next (dispatchKey s n i) := by
  refine (execKeyStreamDispatch_eq s).trans ?_
  simp only [hu, hp, hi, if_true]

theorem dispatchKey_refused {s : State} {i : KeyItem} (h : keyCode s i ≠ 0) (n : Nat) :
    dispatchKey s n i = refuseKey (keyTaken s n i) i (keyCode s i) flagDone :=
  if_pos (bne_iff_ne.mpr h)

theorem dispatchKey_unplaced {s : State} {i : KeyItem} (hc : keyCode s i = 0) (h : keyPlaceCode s i ≠ 0) (n : Nat) :
    dispatchKey s n i = refuseKey (keyTaken s n i) i (keyPlaceCode s i) (flagDone + flagUnwritten) := by
  simp [dispatchKey, hc, h]

theorem dispatchKey_started {s : State} {n : Nat} {i : KeyItem} (hc : keyCode s i = 0) (hp : keyPlaceCode s i = 0)
    (hk : keyUnits s i ≤ (sharedFree (keyTaken s n i)).length) :
    dispatchKey s n i =
      let us := (sharedFree (keyTaken s n i)).take (keyUnits s i)
      startKey { keyTaken s n i with dlv := { (keyTaken s n i).dlv with
        reservedUnits := setAdd (keyTaken s n i).dlv.reservedUnits us } } i us := by
  simp [dispatchKey, hc, hp, takeUnits_of_le hk]

/-- Settles O29: a registration passes or fails, its entry says which; an item that is dispatched is refused or started. -/
theorem keys : Obligations.Keys := by
  refine ⟨fun s n q r hu hr => ?_, fun s n i hu => ?_⟩
  · have hexec := exec_keyRegistrationCheck hu hr
    exact ⟨fun hc => ⟨by rw [hexec, hc], memBytes_endRegistration_passed _ n r⟩,
      fun hc => ⟨hexec, memBytes_endRegistration_failed _ n r hc⟩⟩
  · intro slots hp hi t
    have hexec : exec .keyStreamDispatch s = .next (dispatchKey s n i) := exec_keyStreamDispatch hu hp hi
    refine ⟨fun hc => hexec.trans (congrArg _ (dispatchKey_refused hc n)),
      fun hc hpl => hexec.trans (congrArg _ (dispatchKey_unplaced hc hpl n)), fun v code flags => ?_,
      fun hc hpl hk => hexec.trans (congrArg _ (dispatchKey_started hc hpl hk))⟩
    rw [← slot_of_firstKey hi]
    exact ⟨withdrawKey v i, refuseKey_eq v i code flags, withdrawKey_effect v i⟩

end Sys2Proof.Machine

/-! The lanes of the seed expander. -/

namespace Sys2Proof.Machine

/-! ### Streams taken by lanes (R120, R121) -/

/-- SDX_STREAM_START has no occasion while the units do not work or no lane in service is free. -/
theorem exec_sdxStreamStart_noLane {s : State} (h : unitsWork s = false ∨ freeUnit s .sdx = none) :
    exec .sdxStreamStart s = .next s :=
  congrArg Host.Outcome.next (by obtain h | h := h <;> simp [h])

section
variable {s : State} {u : Nat} (hu : unitsWork s = true) (hf : freeUnit s .sdx = some u)
include hu hf

/-- A run that lost its lane comes first (R120). -/
theorem exec_sdxStreamStart_moved {r : LaneRun} {rest : List LaneRun} (h : s.sdx.moved = r :: rest) : exec .sdxStreamStart s =
    .next (laneTakes { s with sdx := { s.sdx with moved := rest } } u { r with stalled := bufferFull s u r }) :=
  congrArg Host.Outcome.next (by simp [hu, hf, h, bufferFull])

/-- Else the first ready stream of the slot that the round robin chooses begins from its input (R121). -/
theorem exec_sdxStreamStart_ready (h : s.sdx.moved = []) {n : Nat} {x : Stream} :
    let slots := ((s.sdx.streams.filter (·.ready)).map (·.slot)).eraseDups
    arbPick s unitSdx slots = some n → (s.sdx.streams.filter (·.ready)).find? (fun x => x.slot == n) = some x →
    exec .sdxStreamStart s =
      .next (laneTakes (arbGrant { s with sdx := { s.sdx with streams := s.sdx.streams.erase x } } unitSdx n slots) u
        { stream := x, state := shakeStart x.input, stalled := bufferFull s u { stream := x, state := shakeStart x.input } }) := by
  intro slots hp hx
  refine congrArg Host.Outcome.next ?_
  simp only [hu, hf, h, hp, hx, if_true, slots, bufferFull, arbGrant_sdx]

end

/-! ### Lockstep and stalls (R120, R122) -/

section
variable {s : State} {lane : Nat} {r : LaneRun} (hr : tblGet none s.sdx.lanes lane = some r)
include hr

/-- SDX_PERMUTATION_DONE has no occasion while the units do not work or the lane is stalled. -/
theorem exec_sdxPermutationDone_idle (h : unitsWork s = false ∨ r.stalled = true) (disagree : Bool) (taken : Nat) :
    exec (.sdxPermutationDone lane disagree taken) s = .next s :=
  congrArg Host.Outcome.next (by obtain h | h := h <;> simp [hr, h])

/-- Copies that agree release the block; copies that disagree compute it again, or lose the lane (R120). -/
theorem exec_sdxPermutationDone (hu : unitsWork s = true) (hs : r.stalled = false) (disagree : Bool) (taken : Nat) :
    exec (.sdxPermutationDone lane disagree taken) s = .next (
      if disagree = false then release168 s lane r taken
      else if r.retried = false then raiseErr (laneTakes s lane { r with retried := true }) 0x0608 r.stream.slot
      else laneRetires s lane r) :=
  congrArg Host.Outcome.next (by simp [hr, hu, hs])

/-- A stalled lane goes on when a line that leaves makes room (R122). -/
theorem exec_sdxStallResume (k : Nat) : exec (.sdxStallResume lane k) s = .next (
    if r.stalled = false ∨ bufferFull s lane (takeLines 1 s r).2 = true then s
    else bumpBy (laneTakes (takeLines 1 s r).1 lane { (takeLines 1 s r).2 with stalled := false }) 0x8060 2 k) :=
  congrArg Host.Outcome.next (by simp [hr])

end

/-- The memory write port takes lines of ciphertext limbs alone. -/
theorem takeLines_of_use {r : LaneRun} (h : ∀ m l, r.stream.use ≠ .ctLimb m l) (s : State) (k : Nat) : takeLines k s r = (s, r) := by
  cases k with
  | zero => rfl
  | succ k =>
    rw [takeLines]
    split
    · next m l hu => exact absurd hu (h m l)
    · rfl

/-- The first line of a ciphertext limb that the lane holds goes to its container's buffer. -/
theorem takeLines_one {r : LaneRun} {m l : Nat} (hu : r.stream.use = .ctLimb m l) (hp : r.pending ≠ 0) (s : State) :
    takeLines 1 s r = (ctLimbLine s r m l r.written, { r with written := r.written + 1 }) := by
  simp [takeLines, hu, hp]

/-! ### Noise streams (R102) -/

/-- What a noise stream has when a block of its output is released (R119): words that it released before it changed lanes are left out. -/
def LaneRun.withBlock (r : LaneRun) : List Nat :=
  (accepted r.stream (shakeBytes (keccakF r.state)) (min 42 r.skip)).reverse ++ r.got

/-- A run after the release of a block, with what it then has. -/
def LaneRun.after (r : LaneRun) (got : List Nat) : LaneRun :=
  { r with state := keccakF r.state, perms := r.perms + 1, got := got, skip := r.skip - min 42 r.skip, retried := false }

/-- A lane set free holds no run; the streams that have ended are as they were. -/
theorem freeLane_effect (s : State) (u : Nat) :
    (freeLane s u).sdx.done = s.sdx.done ∧ tblGet none (freeLane s u).sdx.lanes u = none := by
  by_cases h : u ∈ s.sdx.draining <;> simp [freeLane, h]

/-- The end of a noise stream gives its bytes to its consumer and frees its lane. -/
theorem streamEnds_noise (s : State) (u : Nat) {r : LaneRun} {c b tag : Nat} (h : r.stream.use = .noise c b tag) :
    (streamEnds s u r).sdx.done = s.sdx.done ++ [(r.stream.use, r.got.reverse)] ∧ tblGet none (streamEnds s u r).sdx.lanes u = none := by
  simp [streamEnds, h, freeLane_effect]

/-- A block of a noise stream ends the stream when it has as many bytes as it needs, and is kept until then. -/
theorem release168_noise (s : State) (u taken : Nat) {r : LaneRun} {c b tag : Nat} (h : r.stream.use = .noise c b tag) :
    release168 s u r taken =
      let r' := r.after (r.withBlock.drop (r.withBlock.length - r.stream.len))
      if r.stream.len ≤ r'.got.length then streamEnds (bump s 0x8060 1) u r'
      else laneTakes (bump s 0x8060 1) u { r' with stalled := bufferFull (bump s 0x8060 1) u r' } := by
  simp [release168, passLines, h, LaneRun.after, LaneRun.withBlock]

theorem release168_noise_kept (s : State) (u taken : Nat) {r : LaneRun} {c b tag : Nat} (h : r.stream.use = .noise c b tag)
    (hl : r.withBlock.length < r.stream.len) : release168 s u r taken =
      laneTakes (bump s 0x8060 1) u { r.after r.withBlock with stalled := bufferFull (bump s 0x8060 1) u (r.after r.withBlock) } := by
  have hd : r.withBlock.drop (r.withBlock.length - r.stream.len) = r.withBlock := by rw [Nat.sub_eq_zero_of_le hl.le, List.drop_zero]
  rw [release168_noise s u taken h, hd]
  exact if_neg (Nat.not_le.mpr hl)

theorem release168_noise_ended (s : State) (u taken : Nat) {r : LaneRun} {c b tag : Nat} (h : r.stream.use = .noise c b tag)
    (hl : r.stream.len ≤ r.withBlock.length) :
    (release168 s u r taken).sdx.done = s.sdx.done ++ [(r.stream.use, r.withBlock.reverse.take r.stream.len)]
    ∧ tblGet none (release168 s u r taken).sdx.lanes u = none := by
  have hend : release168 s u r taken =
      streamEnds (bump s 0x8060 1) u (r.after (r.withBlock.drop (r.withBlock.length - r.stream.len))) := by
    rw [release168_noise s u taken h]
    exact if_pos (by simp [LaneRun.after]; omega)
  obtain ⟨hdone, hlane⟩ := streamEnds_noise (bump s 0x8060 1) u
    (r := r.after (r.withBlock.drop (r.withBlock.length - r.stream.len))) h
  rw [hend]
  refine ⟨hdone.trans ?_, hlane⟩
  rw [List.take_reverse]
  rfl

/-- Settles O30: a free lane takes a stream; a permutation is released, computed again or moved; a stalled lane waits for room; a noise
stream keeps its bytes until it has all. -/
theorem seedLanes : Obligations.SeedLanes := by
  refine ⟨fun s => ⟨exec_sdxStreamStart_noLane, fun u hu hf => ⟨fun r rest => exec_sdxStreamStart_moved hu hf,
    fun hm n x => exec_sdxStreamStart_ready hu hf hm⟩⟩, fun s lane r hr => ?_⟩
  refine ⟨fun hu hs k => ?_, exec_sdxPermutationDone_idle hr, fun k => ?_, fun h => takeLines_of_use h s 1,
    fun m l hu hp => takeLines_one hu hp s, fun c b tag k hu hs hn => ?_⟩
  · have hexec := exec_sdxPermutationDone hr hu hs
    refine ⟨hexec false k, fun ht => ?_, fun ht => ?_⟩
    · rw [hexec, if_neg (by decide), if_pos ht]
    · rw [hexec, if_neg (by decide), if_neg (ne_false_of_eq_true ht)]
  · have hexec := exec_sdxStallResume hr k
    refine ⟨fun hs hb => ?_, fun h => ?_⟩
    · rw [hexec, if_neg (by simp [hs, hb])]
    · rw [hexec, if_pos h]
  · have hexec := exec_sdxPermutationDone hr hu hs false k
    rw [if_pos rfl] at hexec
    exact ⟨fun hl => hexec.trans (congrArg _ (release168_noise_kept s lane k hn hl)),
      fun hl => ⟨_, hexec, release168_noise_ended s lane k hn hl⟩⟩

end Sys2Proof.Machine

/-! The batcher: chunks assigned, outcomes of positions, and the records of the host's ring. -/

namespace Sys2Proof.Machine

/-! ### The next chunk (R241, R244) -/

section
variable {s : State} {b : BatStage}

section
variable {d : Nat} (hd : leastLoaded s b = some d) (ho : outstanding b d < b.p.chunksAhead)
include hd ho

/-- A reclaimed chunk goes to the least loaded engine ahead of every new one. -/
theorem assignNext_reclaimed {c : Nat} {rest : List Nat} (hr : b.reassign = c :: rest) :
    let x := { b with reassign := rest, chunks := b.chunks ++ [(c, .engine d)] }
    let t := bump (issueChunk s x c d) 0x80B0 0x0A
    assignNext s b = (t, settleChunks t x) := by
  simp [assignNext, hr, hd, ho]

/-- A new chunk whose calls have returned goes to the least loaded engine, its excluded samples logged. -/
theorem assignNext_new {t : State} (hr : b.reassign = []) (hn : 256 * b.nextChunk < b.n)
    (ht : needCalls s b.slot (.chunk b.cmd b.epoch b.nextChunk) (chunkCalls s b b.nextChunk) = (t, true)) :
    let e := logExcluded t { b with nextChunk := b.nextChunk + 1, chunks := b.chunks ++ [(b.nextChunk, .engine d)] } b.nextChunk
    let u := bump (issueChunk e.1 e.2 b.nextChunk d) 0x80B0 0x0A
    assignNext s b = (u, settleChunks u e.2) := by
  simp [assignNext, hr, hd, ho, Nat.not_le.mpr hn, ht]

end

/-- With every chunk assigned and none reclaimed, nothing is assigned. -/
theorem assignNext_allAssigned (hr : b.reassign = []) (hn : b.n ≤ 256 * b.nextChunk) : assignNext s b = (s, b) := by
  simp [assignNext, hr, hn]

/-- With no engine that has room and no host ring, a new chunk waits. -/
theorem assignNext_noRoom (hr : b.reassign = []) (hn : 256 * b.nextChunk < b.n)
    (hd : ∀ d, leastLoaded s b = some d → b.p.chunksAhead ≤ outstanding b d) (hh : b.p.hostEntries = 0) : assignNext s b = (s, b) := by
  have he : (leastLoaded s b).bind (fun d => if outstanding b d < b.p.chunksAhead then some d else none) = none :=
    Option.bind_eq_none_iff.mpr fun d h => if_neg (Nat.not_lt.mpr (hd d h))
  simp [assignNext, hr, Nat.not_le.mpr hn, he, hh]

end

/-! ### BAT_CHUNK_ASSIGN -/

theorem issueHeld_iff (s : State) (b : BatStage) : issueHeld s b = true ↔ b.stopped = true ∨ unitsDispatch s = false := by
  simp [issueHeld]

/-- The home assigns the next chunk, unless its issue is held, and its stage goes on. -/
theorem exec_batChunkAssign_home {s : State} {n : Nat} {b : BatStage} (hb : homeStage s n = some b) :
    exec (.batChunkAssign n none) s = .next (
      if issueHeld s b then batProgress s b.cmd
      else batProgress (putBat (assignNext s b).1 (assignNext s b).2) (assignNext s b).2.cmd) :=
  congrArg Host.Outcome.next (by simp [hb])

/-- An engine that is not the home does what the home tells it. -/
theorem exec_batChunkAssign_member {s : State} {n : Nat} {b : BatStage} (hn : homeStage s n = none) (hm : memberStage s n = some b)
    (t : HomeTold) : exec (.batChunkAssign n (some t)) s = .next (takeTold s b t) :=
  congrArg Host.Outcome.next (by simp [hn, hm])

/-! ### BAT_SAMPLE_OUTCOME (R233) -/

section
variable {s : State} {n : Nat} {b : BatStage} (hb : homeStage s n = some b)
include hb

/-- The home leaves a position outside the epoch, known, or excluded. -/
theorem exec_batSampleOutcome_left {pos : Nat}
    (h : b.n ≤ pos ∨ (outcomeAt b pos ≠ none ∧ repeatAt b pos = none) ∨ excludedCode s b pos ≠ 0) (code : Nat) (result : List Byte)
    (norm : List (List Nat)) (truncated poisoned : Bool) :
    exec (.batSampleOutcome n pos code result norm truncated poisoned) s = .next s := by
  refine congrArg Host.Outcome.next ?_
  simp only [hb]
  exact if_pos (by simpa [Option.isSome_iff_ne_none, or_assoc] using h)

/-- The home leaves a position that no engine has. -/
theorem exec_batSampleOutcome_unassigned {pos : Nat} (hd : assignedDie b pos = none) (code : Nat) (result : List Byte)
    (norm : List (List Nat)) (truncated poisoned : Bool) :
    exec (.batSampleOutcome n pos code result norm truncated poisoned) s = .next s :=
  congrArg Host.Outcome.next (by simp [hb, toldOutcome, hd])

/-- What the home is told of any other position settles. -/
theorem exec_batSampleOutcome_told {pos : Nat} (hn : pos < b.n) (hk : outcomeAt b pos = none ∨ repeatAt b pos ≠ none)
    (hx : excludedCode s b pos = 0) (code : Nat) (result : List Byte) (norm : List (List Nat)) (truncated poisoned : Bool) :
    exec (.batSampleOutcome n pos code result norm truncated poisoned) s = .next (
      (toldOutcome s b pos { code := code, result := result, norm := norm, truncated := truncated, poisoned := poisoned }).elim s
        (fun e => settlePosition e.1 b pos e.2)) := by
  refine congrArg Host.Outcome.next ?_
  simp only [hb]
  rw [if_neg (by simpa [hx, Nat.not_le.mpr hn, Option.isSome_iff_ne_none, or_iff_not_imp_left] using hk)]
  cases toldOutcome s b pos _ <;> rfl

end

theorem toldOutcome_assigned {s : State} {b : BatStage} {pos d : Nat} (h : assignedDie b pos = some d) (o : Outcome) :
    toldOutcome s b pos o = if d = dieId s then ownOutcome s b pos else some (s, o) := by
  simp [toldOutcome, h]

/-- A good result of a wrong length: too long for its bucket's samples, or no whole number of elements. -/
def WrongLength (s : State) (b : BatStage) (pos : Nat) (o : Outcome) : Prop :=
  let x := bucketAt b ((positionBucket s b pos).getD 0)
  o.code = 0 ∧ (x.sampleBytes < o.result.length ∨ o.result.length % typeBytes x.elemType ≠ 0)

theorem checkLength_wrong {s : State} {b : BatStage} {pos : Nat} {o : Outcome} (h : WrongLength s b pos o) :
    checkLength s b pos o = (raiseErr s 0x0B05 b.slot, { o with code := 0x0B05 }) :=
  if_pos (by simpa [WrongLength] using h)

theorem checkLength_right {s : State} {b : BatStage} {pos : Nat} {o : Outcome} (h : ¬ WrongLength s b pos o) :
    checkLength s b pos o = (s, o) :=
  if_neg (by simpa [WrongLength] using h)

theorem checkCopy_poisoned {o : Outcome} (h : o.code = 0 ∧ o.poisoned = true) (s : State) (b : BatStage) :
    checkCopy s b o = (raiseErr s 0x0E06 b.slot, { o with code := 0x0E06 }) :=
  if_pos (by simpa using h)

theorem checkCopy_whole {o : Outcome} (h : ¬ (o.code = 0 ∧ o.poisoned = true)) (s : State) (b : BatStage) : checkCopy s b o = (s, o) :=
  if_neg (by simpa using h)

/-- The outcome of a position that is not a repeat is what the checks of its length and of its copy leave. -/
theorem settleOutcome_effect {b : BatStage} {pos : Nat} (hr : repeatAt b pos = none) {s t u : State} {o p q : Outcome}
    (hl : checkLength s b pos o = (t, p)) (hc : checkCopy t b p = (u, q)) :
    outcomeAt (settleOutcome s b pos o).2 pos = some q ∧ (settleOutcome s b pos o).1 = u := by
  simp [settleOutcome, hl, hc, hr, outcomeAt]

/-! ### HOST_POLL (R243, R244) -/

/-- A clean read of device memory gives its bytes and changes nothing. -/
theorem readMem_clean {s : State} {a n : Nat} (h : memPoisoned s a n = false) (slot : Nat) : readMem s slot a n = (memBytes s a n, s) :=
  if_neg (ne_true_of_eq_false h)

theorem leNat_memBytes (s : State) (a n : Nat) : leNat (memBytes s a n) = memNat s a n := rfl

section
variable {s : State} {b : BatStage} {r : Nat} (hp : memPoisoned s (hostRecord b r) 4 = false)
include hp

/-- A record the host has finished is taken. -/
theorem pollRecord_finished (h : memNat s (hostRecord b r) 4 = 2) (late : List Nat) (c : Nat) :
    pollRecord late s b c r = takeHost s b c r := by
  simp [pollRecord, readMem_clean hp, leNat_memBytes, h]

/-- An offered record whose time is up is marked 3, and its chunk is to be assigned again. -/
theorem pollRecord_late (h : memNat s (hostRecord b r) 4 = 1) {late : List Nat} (hl : r ∈ late) (c : Nat) :
    pollRecord late s b c r = reclaimHost (raiseErr s 0x0B06 b.slot) b c r := by
  simp [pollRecord, readMem_clean hp, leNat_memBytes, h, hl]

/-- Any other record is left. -/
theorem pollRecord_left (h : memNat s (hostRecord b r) 4 ≠ 2) {late : List Nat} (hl : memNat s (hostRecord b r) 4 ≠ 1 ∨ r ∉ late) (c : Nat) :
    pollRecord late s b c r = (s, b) := by
  simp [pollRecord, readMem_clean hp, leNat_memBytes, h, not_and_or.mpr hl]

end

theorem settleOutcome_p (s : State) (b : BatStage) (pos : Nat) (o : Outcome) : (settleOutcome s b pos o).2.p = b.p := by
  cases h : repeatAt b pos <;> simp [settleOutcome, h, putAsm]

/-- The host's result for a position settles. -/
def takeResult (table : Nat) (e : State × BatStage) (pos : Nat) : State × BatStage :=
  let x := hostOutcome e.1 e.2 table pos
  settleOutcome x.1 e.2 pos x.2

theorem foldl_takeResult_p (table : Nat) (ps : List Nat) (e : State × BatStage) : (ps.foldl (takeResult table) e).2.p = e.2.p := by
  induction ps generalizing e with
  | nil => rfl
  | cons pos ps ih => exact (ih _).trans (settleOutcome_p _ _ _ _)

/-- Taking a record settles the results of the positions still open, then writes its STATE. -/
theorem takeHost_fst (s : State) (b : BatStage) (c r : Nat) :
    let m := readMem s b.slot (hostRecord b r + 12) 8
    let e := ((chunkPositions b c).filter (positionOpen m.2 b)).foldl (takeResult (leNat m.1)) (m.2, b)
    (takeHost s b c r).1 = memWrite e.1 (hostRecord e.2 r) (leBytes 4 0) := rfl

/-- A record taken is free again: what settles leaves the stage's parameters, and so the place of its ring. -/
theorem memBytes_takeHost (s : State) (b : BatStage) (c r : Nat) : memBytes (takeHost s b c r).1 (hostRecord b r) 4 = [0, 0, 0, 0] := by
  rw [takeHost_fst, hostRecord, hostRecord, foldl_takeResult_p]
  exact memBytes_memWrite _ _ (leBytes 4 0)

/-- The home reads each record outstanding in turn; then the chunks settle, and the stage assigns, unless its issue is held, and goes on. -/
theorem exec_hostPoll {s : State} {n : Nat} {b : BatStage} (hb : homeStage s n = some b) (late : List Nat) :
    let e := (hostChunks b).foldl (fun e x => pollRecord late e.1 e.2 x.1 x.2) (s, b)
    let x := settleChunks e.1 e.2
    exec (.hostPoll n late) s = .next (
      if issueHeld e.1 x then batProgress (putBat e.1 x) x.cmd
      else batProgress (putBat (assignNext e.1 x).1 (assignNext e.1 x).2) (assignNext e.1 x).2.cmd) := by
  refine congrArg Host.Outcome.next ?_
  simp only [hb]
  split <;> rfl

/-- Settles O35: the home assigns the next chunk, and another engine does as it is told; the outcome of a position is left or settles,
checked for its length and its copy; a record of the host's ring is taken, reclaimed or left. -/
theorem batches : Obligations.Batches := by
  refine ⟨⟨fun s n b hb => ?_, fun s n b hn hm => ?_⟩, ⟨fun s n pos code result norm truncated poisoned b hb => ?_,
    fun s b pos o hr => ?_⟩, fun s b late c r hp => ?_⟩
  · have hexec := exec_batChunkAssign_home hb
    refine ⟨fun hs hu => ?_, fun h => ?_, fun c rest d hr hd ho => assignNext_reclaimed hd ho hr,
      fun d t hr hn hd ho ht => assignNext_new hd ho hr hn ht, assignNext_allAssigned, assignNext_noRoom⟩
    · rw [hexec, if_neg (by simp [issueHeld, hs, hu])]
    · rw [hexec, if_pos ((issueHeld_iff s b).mpr h)]
  · exact ⟨fun e ps => exec_batChunkAssign_member hn hm (.issue e ps), exec_batChunkAssign_member hn hm .ended⟩
  · refine ⟨fun h => ?_, fun hn hk hx d hd => ?_⟩
    · obtain h | h | h | hd := h
      · exact exec_batSampleOutcome_left hb (.inl h) ..
      · exact exec_batSampleOutcome_left hb (.inr (.inl h)) ..
      · exact exec_batSampleOutcome_left hb (.inr (.inr h)) ..
      · exact exec_batSampleOutcome_unassigned hb hd ..
    · have htold := exec_batSampleOutcome_told hb hn hk hx code result norm truncated poisoned
      rw [toldOutcome_assigned hd] at htold
      refine ⟨fun hne => ?_, fun he h => ?_, fun he t own h => ?_⟩
      · rw [htold, if_neg hne]; rfl
      · rw [htold, if_pos he, h]; rfl
      · rw [htold, if_pos he, h]; rfl
  · refine ⟨fun hl => ?_, fun hl hc => ?_, fun hl hc => ?_⟩
    · exact settleOutcome_effect hr (checkLength_wrong hl) (checkCopy_whole (by simp) _ b)
    · exact settleOutcome_effect hr (checkLength_right hl) (checkCopy_poisoned hc s b)
    · exact settleOutcome_effect hr (checkLength_right hl) (checkCopy_whole hc s b)
  · refine ⟨fun h => ⟨pollRecord_finished hp h late c, memBytes_takeHost s b c r⟩, fun h hl => pollRecord_late hp h hl c,
      fun h hl => pollRecord_left hp h hl c, fun n hb hc => ?_⟩
    have hexec := exec_hostPoll hb late
    rw [hc] at hexec
    refine ⟨fun hs => ?_, fun hs hu => ?_⟩
    · exact hexec.trans (congrArg _ (if_pos ((issueHeld_iff _ _).mpr (.inl hs))))
    · exact hexec.trans (congrArg _ (if_neg (by simp [issueHeld, hs, hu])))

end Sys2Proof.Machine

/-! Pictures that complete, samples that end, and the shaping of a decoded sample. -/

namespace Sys2Proof.Machine

/-! ### MDC_PICTURE_COMPLETE (R161, R172, R178, R181 to R188) -/

section
variable {s : State} {core : Nat} {r : DecodeRun} {buf : Nat} {h : MediaHeader} (hu : unitsWork s = true)
  (hr : s.mdc.runs.find? (fun r => r.cores == [core] && r.buffer.isSome) = some r) (hb : r.buffer = some buf) (hh : r.header = some h)
include hu hr hb hh

/-- The image of a core is output at once; a raw one waits for the end of its sample (R164). -/
theorem exec_mdcPictureComplete_image (hi : isVideo r.item.format = false) (hraw : r.item.format ≠ 3) (p : Picture) :
    exec (.mdcPictureComplete core p) s = .next (imageComplete s r h buf p) :=
  congrArg Host.Outcome.next (by simp [hu, hr, hb, hh, hi, hraw])

/-- The picture of a video is complete with its last decoding unit, on the one core it has left, which is then free. -/
theorem exec_mdcPictureComplete_video {d : PictureHead} {k : Nat} (hi : isVideo r.item.format = true) (hk : r.item.stream = some k)
    (hd : r.head = some d) (p : Picture) : exec (.mdcPictureComplete core p) s = .next (
      if r.taken = d.unitTotal then unitDone (videoComplete s r h d k buf p) .mdc core else s) := by
  have hcores : r.cores = [core] := by simpa [hb] using List.find?_some hr
  refine congrArg Host.Outcome.next ?_
  by_cases ht : r.taken = d.unitTotal <;> simp [hu, hr, hb, hh, hi, hk, hd, hcores, ht]

end

/-- The record of a frame that is output carries its number and the sample that outputs it (R172). -/
theorem memBytes_outputFrame (s : State) (r : DecodeRun) (buf number flags : Nat) :
    memBytes (outputFrame s r buf number flags).1 (buf + 54) 10 = leBytes 4 number ++ leBytes 6 r.item.sample :=
  memBytes_memWrite s (buf + 54) (leBytes 4 number ++ leBytes 6 r.item.sample)

/-! ### Concealment (R175, R176, R186) -/

/-- Sample k of component c of a frame lies in one of the areas. -/
def sampleHit (f : FrameShape) (areas : List Rect) (c k : Nat) : Bool :=
  inArea areas (k % f.compW c * sampHMax f.sampling f.components / sampH f.sampling c)
    (k / f.compW c * sampVMax f.sampling f.components / sampV f.sampling c)

/-- A sample in a concealed area is its source's, or mid-grey without one; any other is as decoded. -/
theorem getElem?_concealPlane {f : FrameShape} {areas : List Rect} {c k : Nat} (ha : areas ≠ []) (hk : k < f.compW c * f.compH c)
    (source : Option (Nat → Nat → Nat → Nat)) (vs : List Nat) :
    (concealPlane f areas source c vs)[k]? = some (
      if sampleHit f areas c k then (source.map (fun g => g c (k % f.compW c) (k / f.compW c))).getD (2 ^ (f.bitDepth - 1))
      else vs.getD k 0) := by
  rw [concealPlane, if_neg (by simpa using ha), List.getElem?_map, List.getElem?_range hk]
  rfl

section
variable {f : FrameShape} {concealed : List Nat} {k : Nat} (hc : k ∈ concealed)
include hc

/-- A concealed block has both lists unused. -/
theorem blockVectors_concealed (blocks : List PredBlock) : blockVectors f blocks concealed k = [-32768, -32768, -32768, -32768] := by
  simp [blockVectors, hc]

/-- A concealed block has no coded bits. -/
theorem getElem?_bitsTensor_concealed (hk : k < f.gridBlocks) (coded : List CodedUnit) : (bitsTensor f coded concealed)[k]? = some 0 := by
  simp [bitsTensor, hc, hk]

theorem getElem?_jpegBits_concealed (hk : k < f.gridBlocks) (jpeg : List (List JpegBlock)) : (jpegBits f jpeg concealed)[k]? = some 0 := by
  simp [jpegBits, hc, hk]

end

/-! ### MDC_SAMPLE_OUTCOME (R166, R167) -/

/-- A read of clean memory raises nothing (R412). -/
theorem readChecked_clean {s : State} {a n : Nat} (h : memPoisoned s a n = false) (slot : Nat) : readChecked s slot a n = s :=
  if_neg (ne_true_of_eq_false h)

/-- The sample of an image core or of a stream ends; an image only once its header has been judged or its format is in error. -/
theorem exec_mdcSampleOutcome {s : State} {core : Nat} {stream : Option Nat} {r : DecodeRun} (hu : unitsWork s = true)
    (hr : endingRun s core stream = some r) (how : SampleEnd) (b : List Byte) : exec (.mdcSampleOutcome core stream how b) s = .next (
      if r.header = none ∧ r.code = 0 ∧ how ≠ .formatError ∧ isVideo r.item.format = false then s else sampleEnds s r how b) :=
  congrArg Host.Outcome.next (by simp [hu, hr, and_assoc])

/-- A JPEG that has output its frame and is read whole and clean is no format error. -/
theorem sampleUnsound_jpeg {s : State} {r : DecodeRun} (hj : r.item.format = 1) (hf : r.frames ≠ []) :
    sampleUnsound s r .complete [] = false := by
  simp [sampleUnsound, hj, hf]

/-- Such a JPEG ends with its payload CRC compared: it is DECODED, or CORRUPT with MDC_CRC, which is raised (R167). -/
theorem sampleEnds_jpeg {s : State} {r : DecodeRun} (hh : r.header ≠ none) (hj : r.item.format = 1) (hf : r.frames ≠ []) (hc : r.code = 0)
    (hp : memPoisoned s r.item.addr r.item.len = false) : sampleEnds s r .complete [] =
      if crc32c (memBytes s r.item.addr r.item.len) = r.item.crc then endSample s r false
      else endSample (failRun (raiseErr s 0x0807 r.item.slot) r 0x0807) { r with code := 0x0807 } true := by
  have hstarted : r.header.isSome = true := Option.isSome_iff_ne_none.mpr hh
  by_cases hcrc : crc32c (memBytes s r.item.addr r.item.len) = r.item.crc
  · simp [sampleEnds, hstarted, hj, readChecked_clean hp, sampleUnsound_jpeg hj hf, hcrc]
  · have hbad : (crc32c (memBytes s r.item.addr r.item.len) != r.item.crc) = true := bne_iff_ne.mpr hcrc
    simp [sampleEnds, hstarted, hj, hc, readChecked_clean hp, sampleUnsound_jpeg hj hf, failSample, hcrc, hbad]

/-! ### SHAPE_SAMPLE (R212, R223) -/

/-- With both working buffers the stage shapes the sample. -/
theorem shapeBuffers_full {d : Decoded} (h : 2 ≤ d.work.length) (g : ShapeProg) (size k : Nat) (s : State) :
    shapeBuffers g size (k + 1) s d = shapeRun s d g := if_pos h

/-- While the request for a working buffer waits, the sample waits. -/
theorem shapeBuffers_waits {s t : State} {d : Decoded} {size : Nat} (hw : d.work.length < 2) (h : needBuffer s d.slot size = (none, t))
    (g : ShapeProg) (k : Nat) : shapeBuffers g size (k + 1) s d = t := by
  simp [shapeBuffers, Nat.not_le.mpr hw, h]

/-- The size of a sample's working buffers: that of its largest frame (R223). -/
def workSize (s : State) (g : ShapeProg) (d : Decoded) : Nat := d.frames.foldl (fun n f => max n (workBytes s g f)) 0

section
variable {s : State} {n sample : Nat} {d : Decoded} {b : BatStage} (hu : unitsWork s = true)
  (ho : unitShape ∉ (slotOf s n).backoff)
  (hd : s.mdc.outcomes.find? (fun d => d.slot == n && d.sample == sample) = some d)
  (hb : s.bat.stages.find? (fun b => b.slot == n) = some b)
include hu ho hd hb

/-- Without a program a sample passes on its frames, whose bytes are read (R412). -/
theorem exec_shapeSample_plain (hg : b.prog = none) : exec (.shapeSample n sample) s =
    .next (endShape (d.frames.foldl (fun s b => readChecked s n b (frameBytes s b)) s) d (plainFrames s d)) :=
  congrArg Host.Outcome.next (by simp [hu, ho, hd, hb, hg])

/-- A sample whose sums are with the array is shaped once the array has run them. -/
theorem exec_shapeSample_started {g : ShapeProg} (hg : b.prog = some g) (hs : d.started = true) : exec (.shapeSample n sample) s =
    .next (if working s (.shape n sample) then s else shapeDone s d g) :=
  congrArg Host.Outcome.next (by simp [hu, ho, hd, hb, hg, hs])

section
variable {g : ShapeProg} (hg : b.prog = some g) (hs : d.started = false)
include hg hs

/-- A sample with no working buffer that the reservation cannot hold is CORRUPT with SHAPE_SIZE, which is raised. -/
theorem exec_shapeSample_tooLarge (hw : d.work = []) (hf : reservationFits s n (workSize s g d) = false) :
    exec (.shapeSample n sample) s = .next (endShape (raiseErr s 0x0A02 n) d { code := 0x0A02 }) := by
  rw [workSize] at hf
  exact congrArg Host.Outcome.next (by simp [hu, ho, hd, hb, hg, hs, hw, hf])

/-- Any other sample goes on to take its working buffers. -/
theorem exec_shapeSample_begins (h : d.work ≠ [] ∨ reservationFits s n (workSize s g d) = true) :
    exec (.shapeSample n sample) s = .next (shapeBuffers g (workSize s g d) 3 s d) := by
  rw [workSize] at h ⊢
  exact congrArg Host.Outcome.next (by obtain h | h := h <;> simp [hu, ho, hd, hb, hg, hs, h])

end

end

/-- Settles O33: a picture that is complete is output or takes its place in its pool; concealed samples and blocks are filled; a sample
ends with its payload CRC compared; a decoded sample passes on its frames or is shaped. -/
theorem decodedSamples : Obligations.DecodedSamples := by
  refine ⟨⟨fun s core p r hu hr buf h hb hh => ?_, fun s r buf number flags => ⟨memBytes_outputFrame s r buf number flags, rfl⟩⟩,
    ⟨fun f areas source c vs k ha hk => ?_, fun f blocks coded jpeg concealed k hc hk => ?_⟩,
    fun s core stream r hu hr => ?_, fun s n sample d b hu ho hd hb => ?_⟩
  · refine ⟨fun hi hraw => exec_mdcPictureComplete_image hu hr hb hh hi hraw p, fun d k hi hk hd => ?_⟩
    have hexec := exec_mdcPictureComplete_video hu hr hb hh hi hk hd p
    exact ⟨fun ht => by rw [hexec, if_pos ht], fun ht => by rw [hexec, if_neg ht]⟩
  · have hsample := getElem?_concealPlane ha hk source vs
    refine ⟨fun hout => ?_, fun hin hs => ?_, fun g hin hs => ?_⟩
    · exact hsample.trans (congrArg some (if_neg (ne_true_of_eq_false hout)))
    · exact hsample.trans (congrArg some ((if_pos hin).trans (by rw [hs]; rfl)))
    · exact hsample.trans (congrArg some ((if_pos hin).trans (by rw [hs]; rfl)))
  · exact ⟨blockVectors_concealed hc blocks, getElem?_bitsTensor_concealed hc hk coded, getElem?_jpegBits_concealed hc hk jpeg⟩
  · have hexec := exec_mdcSampleOutcome hu hr
    refine ⟨fun how b hends => ?_, fun how b hh hc hw hi => ?_, fun hh hi hj hf hc hp => ?_⟩
    · rw [hexec, if_neg fun ⟨hh, hc, hw, hi⟩ => by simp [hh, hc, hw, hi] at hends]
    · rw [hexec, if_pos ⟨hh, hc, hw, hi⟩]
    · rw [hexec, if_neg (by simp [hh]), sampleEnds_jpeg hh hj hf hc hp]
      exact ⟨fun hcrc => by rw [if_pos hcrc], fun hcrc => by rw [if_neg hcrc]⟩
  · have ho : unitShape ∉ (slotOf s n).backoff := by simpa using ho
    refine ⟨exec_shapeSample_plain hu ho hd hb, fun g hg hs => ?_, fun g hg hs => ?_⟩
    · have hexec := exec_shapeSample_started hu ho hd hb hg hs
      exact ⟨fun hw => by rw [hexec, if_pos hw], fun hw => by rw [hexec, if_neg (ne_true_of_eq_false hw)]⟩
    · have hbegins := exec_shapeSample_begins hu ho hd hb hg hs
      refine ⟨exec_shapeSample_tooLarge hu ho hd hb hg hs, fun hw => ?_, fun hw hfit hneed => ?_⟩
      · rw [hbegins (.inl fun h => by simp [h] at hw), shapeBuffers_full hw]
      · exact (hbegins (.inr hfit)).trans (congrArg _ (shapeBuffers_waits (by simp [hw]) hneed g 2))

end Sys2Proof.Machine

/-! The tokeniser: its items, the merging of their pieces, their outcomes, and the load of its table. -/

namespace Sys2Proof.Machine

/-! ### TOK_ITEM_DISPATCH (R193, R201, R250) -/

/-- The slots whose oldest item is ready for the front end. -/
def tokSlots (s : State) : List Nat := ((s.tok.queue.map (·.slot)).eraseDups).filter (tokReady s)

/-- What an item is refused with, 0 for nothing: its parameters, then no core, then a size its job has not reserved (log entries 24, 197). -/
def tokRefusal (s : State) (n : Nat) (i : TokItem) : Nat :=
  if tokParamsOk s i = false then 0x0901
  else if serviceList s .tok = [] then 0x0907
  else if reservationFits s n i.bufferBytes = false then 0x0C01
  else 0

theorem tokRefusal_params {s : State} {i : TokItem} (hp : tokParamsOk s i = false) (n : Nat) : tokRefusal s n i = 0x0901 := if_pos hp

theorem tokRefusal_noCore {s : State} {i : TokItem} (hp : tokParamsOk s i = true) (hc : serviceList s .tok = []) (n : Nat) :
    tokRefusal s n i = 0x0907 := by
  simp [tokRefusal, hp, hc]

theorem tokRefusal_unreserved {s : State} {n : Nat} {i : TokItem} (hp : tokParamsOk s i = true) (hc : serviceList s .tok ≠ [])
    (hf : reservationFits s n i.bufferBytes = false) : tokRefusal s n i = 0x0C01 := by
  simp [tokRefusal, hp, hc, hf]

theorem tokRefusal_eq_zero_iff (s : State) (n : Nat) (i : TokItem) : tokRefusal s n i = 0 ↔
    tokParamsOk s i = true ∧ serviceList s .tok ≠ [] ∧ reservationFits s n i.bufferBytes = true := by
  unfold tokRefusal
  cases tokParamsOk s i with
  | false => simp
  | true =>
    by_cases hc : serviceList s .tok = []
    · simp [hc]
    · cases reservationFits s n i.bufferBytes <;> simp [hc]

section
variable {s : State} {n : Nat} {i : TokItem} (hu : unitsDispatch s = true) (hr : s.tok.run = none)
  (hp : arbPick s unitTok (tokSlots s) = some n) (hi : s.tok.queue.find? (fun i => i.slot == n) = some i)
include hu hr hp hi

/-- An item that is refused leaves the queue, and its slot is faulted. -/
theorem exec_tokItemDispatch_refused (h : tokRefusal s n i ≠ 0) (b : InflatedText) :
    exec (.tokItemDispatch b) s = .next (errFault (takeTok s i) n (tokRefusal s n i)) := by
  rw [tokSlots] at hp
  refine congrArg Host.Outcome.next ?_
  by_cases hparams : tokParamsOk s i = false
  · simp [hu, hr, hp, hi, hparams, tokRefusal]
  · by_cases hcore : serviceList s .tok = []
    · simp [hu, hr, hp, hi, hparams, hcore, tokRefusal]
    · have hfit : reservationFits s n i.bufferBytes = false := by simpa [tokRefusal, hparams, hcore] using h
      simp [hu, hr, hp, hi, hparams, hcore, hfit, tokRefusal]

section
variable {t : State} (h : tokRefusal s n i = 0)
include h

/-- An item in order waits while its buffer does. -/
theorem exec_tokItemDispatch_waits (hw : needBuffer s n i.bufferBytes = (none, t)) (b : InflatedText) :
    exec (.tokItemDispatch b) s = .next t := by
  obtain ⟨hparams, hcore, hfit⟩ := (tokRefusal_eq_zero_iff s n i).mp h
  rw [tokSlots] at hp
  exact congrArg Host.Outcome.next (by simp [hu, hr, hp, hi, hparams, hcore, hfit, hw])

/-- With its buffer it is the front end's. -/
theorem exec_tokItemDispatch_starts {addr : Nat} (hw : needBuffer s n i.bufferBytes = (some (0, addr), t)) (b : InflatedText) :
    exec (.tokItemDispatch b) s = .next (tokStart (arbGrant (takeTok t i) unitTok n (tokSlots s)) i addr b) := by
  obtain ⟨hparams, hcore, hfit⟩ := (tokRefusal_eq_zero_iff s n i).mp h
  rw [tokSlots] at hp ⊢
  exact congrArg Host.Outcome.next (by simp [hu, hr, hp, hi, hparams, hcore, hfit, hw])

end

end

/-! ### TOK_MERGE_PIECE (R192, R200, R202) -/

/-- The piece of a core that has finished is replaced in its place, by its tokens. -/
theorem map_mergedPiece_eq_set {pieces : List TokPiece} {k : Nat} {bs : List (Byte × Nat)} (h : pieces[k]? = some (.bytes bs)) (t : TokTable) :
    pieces.zipIdx.map (fun e => if e.2 == k then mergedPiece t e.1 else e.1) = pieces.set k (.tokens (pieceTokens t bs)) := by
  obtain ⟨hk, hpiece⟩ := List.getElem?_eq_some_iff.mp h
  refine List.ext_getElem (by simp) fun j hj _ => ?_
  by_cases hjk : j = k
  · subst hjk
    simp [hpiece, mergedPiece]
  · simp [hjk, Ne.symm hjk]

theorem takePiece_takes {s : State} {r : TokRun} {c k : Nat} (hf : tokFull r = false) (hc : freeUnit s .tok = some c)
    (hk : nextPiece s r = some k) : takePiece s r = setPiece s c (some k) := by
  simp [takePiece, hf, hc, hk]

/-- Nothing is taken once the output is full, with no core free, or with every piece taken. -/
theorem takePiece_idle {s : State} {r : TokRun} (h : tokFull r = true ∨ freeUnit s .tok = none ∨ nextPiece s r = none) :
    takePiece s r = s := by
  unfold takePiece
  split
  · rfl
  · next hf =>
    obtain h | h | h := h
    · exact absurd h hf
    · rw [h]
    · rw [h]
      cases freeUnit s .tok <;> rfl

theorem finishPiece_idle {s : State} {c : Nat} (h : tblGet none s.tok.cores c = none) (r : TokRun) : finishPiece s r c = s := by
  simp [finishPiece, h]

theorem finishPiece_merges {s : State} {r : TokRun} {c k : Nat} {bs : List (Byte × Nat)} (hc : tblGet none s.tok.cores c = some k)
    (hk : r.pieces[k]? = some (.bytes bs)) : finishPiece s r c = unitDone (setPiece { s with tok := { s.tok with
      run := some { r with pieces := r.pieces.set k (.tokens (pieceTokens s.tok.table bs)) } } } c none) .tok c := by
  simp only [finishPiece, hc, map_mergedPiece_eq_set hk]

section
variable {s : State} {r : TokRun} (hu : unitsWork s = true) (hr : s.tok.run = some r)
include hu hr

theorem exec_tokMergePiece_none : exec (.tokMergePiece none) s = .next (takePiece s r) :=
  congrArg Host.Outcome.next (by simp [hu, hr])

theorem exec_tokMergePiece_some (c : Nat) : exec (.tokMergePiece (some c)) s = .next (finishPiece s r c) :=
  congrArg Host.Outcome.next (by simp [hu, hr])

end

/-! ### TOK_SAMPLE_OUTCOME (R194, R202) -/

/-- A text whose tokens exceed its output raises TOK_TRUNCATED as it ends. -/
def tokTruncate (s : State) (r : TokRun) : State := if tokOverflows r = true then raiseErr s 0x0905 r.item.slot else s

/-- A text leaves the tokeniser, and the cores whose clear waited for it leave service. -/
def tokLeaves (s : State) : State := settleUnits (settleUnits { s with tok := { s.tok with run := none, cores := [] } } .tok) .mdc

/-- A text that has left is CORRUPT: its outcome is reported with its code, and its buffer freed. -/
def tokCorrupt (s : State) (r : TokRun) (code : Nat) : State :=
  freeBuffers { s with bat := { s.bat with results := s.bat.results ++
    [{ slot := r.item.slot, sample := r.item.sample, out := { code := code } }] } } r.item.slot [r.buffer]

theorem memBytes_tokTruncate (s : State) (r : TokRun) (a n : Nat) : memBytes (tokTruncate s r) a n = memBytes s a n := by
  unfold tokTruncate
  split
  · exact memBytes_raiseErr ..
  · rfl

/-- A text with something left to merge goes on. -/
theorem exec_tokSampleOutcome_merging {s : State} {r : TokRun} (hr : s.tok.run = some r) (hf : tokFull r = false) :
    exec .tokSampleOutcome s = .next s :=
  congrArg Host.Outcome.next (by simp [hr, hf])

/-- A text ends: at its last stored byte its CRC is right or wrong, which is raised; the first failure decides its code. -/
def tokEnds (s : State) (r : TokRun) (wrong : Bool) : State :=
  let t := tokLeaves (if wrong then raiseErr s 0x0903 r.item.slot else s)
  let code := if r.corrupt != 0 then r.corrupt else if wrong then 0x0903 else 0
  if code == 0 then tokWrite t r else tokCorrupt t r code

section
variable {s : State} {r : TokRun} (hu : unitsWork s = true) (hr : s.tok.run = some r) (hf : tokFull r = true)
include hu hr hf

/-- With nothing left to merge the text ends. -/
theorem exec_tokSampleOutcome_full : exec .tokSampleOutcome s = .next (
    tokEnds (tokTruncate s r) r (crc32c (memBytes s r.item.addr r.item.len) != r.item.crc)) := by
  rw [← memBytes_tokTruncate s r]
  refine congrArg Host.Outcome.next ?_
  rw [hr]
  exact if_neg (by simp [hu, hf])

/-- With its CRC right it ends as it was read. -/
theorem exec_tokSampleOutcome_sound (hc : crc32c (memBytes s r.item.addr r.item.len) = r.item.crc) :
    exec .tokSampleOutcome s = .next (tokEnds (tokTruncate s r) r false) := by
  rw [exec_tokSampleOutcome_full hu hr hf, bne_eq_false_iff_eq.mpr hc]

theorem exec_tokSampleOutcome_unsound (hc : crc32c (memBytes s r.item.addr r.item.len) ≠ r.item.crc) :
    exec .tokSampleOutcome s = .next (tokEnds (tokTruncate s r) r true) := by
  rw [exec_tokSampleOutcome_full hu hr hf, bne_iff_ne.mpr hc]

end

theorem tokEnds_tokenised {r : TokRun} (h : r.corrupt = 0) (s : State) : tokEnds s r false = tokWrite (tokLeaves s) r := by
  simp [tokEnds, h]

theorem tokEnds_wrongCrc {r : TokRun} (h : r.corrupt = 0) (s : State) :
    tokEnds s r true = tokCorrupt (tokLeaves (raiseErr s 0x0903 r.item.slot)) r 0x0903 := by
  simp [tokEnds, h]

theorem tokEnds_corrupt {r : TokRun} (h : r.corrupt ≠ 0) (s : State) (wrong : Bool) :
    tokEnds s r wrong = tokCorrupt (tokLeaves (if wrong then raiseErr s 0x0903 r.item.slot else s)) r r.corrupt := by
  simp [tokEnds, h]

/-! ### The load of the table (R204, R205) -/

theorem tokUsers_arriving (s : State) (via : Via) (o u : Nat) (b : List Byte) : tokUsers (arriving s via o u b) = tokUsers s := by
  rw [tokUsers, arriving_slots, tokUsers]

/-- The effect of the load's write outside a re-election. -/
theorem tokLoadEffect_eq {s : State} (he : s.fed.electing = false) (via : Via) (data : List Byte) : tokLoadEffect via 0x4800 4 data s =
    if tokUsers s ≠ 0 then dictAbort s via (abortCode 8 (objDetail 0x4800 7))
    else keepBefore (startLong (objSet { s with tok := { s.tok with table := {} } } 0x4800 5 0) via 0x4800 4 data true 0) via 0x4800
      (.table s.tok.table (objGet s 0x4800 5)) := by
  simp [tokLoadEffect, packageEffect, he]

theorem exec_tokTableLoad {s : State} {via : Via} {v : Nat} (h : Takes s via 0x4800 4 (leBytes 1 v)) (he : s.fed.electing = false) :
    let u := arriving s via 0x4800 4 (leBytes 1 v)
    exec (.tokTableLoad via v) s = .next (
      if tokUsers s ≠ 0 then dictAbort u via (abortCode 8 (objDetail 0x4800 7))
      else keepBefore (startLong (objSet { u with tok := { u.tok with table := {} } } 0x4800 5 0) via 0x4800 4 (leBytes 1 v) true 0)
        via 0x4800 (.table s.tok.table (objGet s 0x4800 5))) := by
  intro u
  have hu : u.fed.electing = false := by rw [arriving_fed]; exact he
  refine congrArg Host.Outcome.next ((requestWrite_takes h tokLoadEffect).trans ?_)
  rw [tokLoadEffect_eq hu, tokUsers_arriving, arriving_tok, objGet_arriving _ _ _ _ _ (by decide)]

/-- A load of this engine is under way. -/
def TableLoads (s : State) : Prop := ∃ l ∈ s.dict.long, l.index = 0x4800 ∧ l.sub = 4 ∧ l.localDone = false

theorem tableLoads_any_iff (s : State) :
    s.dict.long.any (fun l => l.index == 0x4800 && l.sub == 4 && !l.localDone) = true ↔ TableLoads s := by
  simp [TableLoads, and_assoc]

theorem exec_tokTableLoadComplete_idle {s : State} (h : ¬ TableLoads s) (others : Bool) : exec (.tokTableLoadComplete others) s = .next s :=
  congrArg Host.Outcome.next (if_pos (by rw [Bool.eq_false_iff.mpr (mt (tableLoads_any_iff s).mp h)]; rfl))

/-- The length of the image at TOK_TABLE_ADDR, by its header, and at most that of the largest one. -/
def tokImageLength (s : State) : Nat := min (tokLength (tokHeader (memBytes s (objGet s 0x4800 3) 64))) 4230788

/-- The image at TOK_TABLE_ADDR. -/
def tokImage (s : State) : List Byte := memBytes s (objGet s 0x4800 3) (tokImageLength s)

section
variable {s : State} (h : TableLoads s) (hp : memPoisoned s (objGet s 0x4800 3) (tokImageLength s) = false)
include h hp

theorem exec_tokTableLoadComplete_fails {check entry : Nat} (hc : tokCheck (tokImage s) false = some (check, entry)) (others : Bool) :
    exec (.tokTableLoadComplete others) s =
      .next (localFinish (raiseErr s 0x0906 63) 0x4800 4 (abortCode 0x0E (check * 2 ^ 20 + entry))) := by
  rw [tokImage, tokImageLength] at hc
  rw [tokImageLength] at hp
  refine congrArg Host.Outcome.next ?_
  simp [(tableLoads_any_iff s).mpr h, readChecked_clean hp, hp, hc]

theorem exec_tokTableLoadComplete_passes (hc : tokCheck (tokImage s) false = none) (others : Bool) :
    let u := objSet (objSet s 0x4800 5 (if otherDies s = [] ∨ others = true then 1 else 0)) 0x4800 6 (tokTable (tokImage s)).crc
    exec (.tokTableLoadComplete others) s = .next (localFinish { u with tok := { u.tok with table := tokTable (tokImage s) } } 0x4800 4 0) := by
  rw [tokImage, tokImageLength] at hc ⊢
  rw [tokImageLength] at hp
  refine congrArg Host.Outcome.next ?_
  simp [(tableLoads_any_iff s).mpr h, readChecked_clean hp, hp, hc]

end

/-- Settles O34: an item is refused, waits or starts; a piece is taken, or its tokens take its place; a text goes on, is written or is
CORRUPT; the table's load is refused or begins, and ends with what the image's checks say. -/
theorem tokenising : Obligations.Tokenising := by
  refine ⟨⟨fun s b n i hu hr => ?_, fun s r hu hr => ?_⟩, fun s via v h he => ?_, fun s others => ?_⟩
  · intro slots hp hi
    have hrefused := exec_tokItemDispatch_refused hu hr hp hi
    refine ⟨fun hparams => ?_, fun hparams hcore => ?_, fun hparams hcore hfit => ?_, fun hparams hcore hfit => ?_⟩
    · rw [tokRefusal_params hparams] at hrefused
      exact hrefused (by decide) b
    · rw [tokRefusal_noCore hparams hcore] at hrefused
      exact hrefused (by decide) b
    · rw [tokRefusal_unreserved hparams hcore hfit] at hrefused
      exact hrefused (by decide) b
    · have hsound := (tokRefusal_eq_zero_iff s n i).mpr ⟨hparams, hcore, hfit⟩
      exact ⟨fun hw => exec_tokItemDispatch_waits hu hr hp hi hsound (Prod.ext hw rfl) b,
        fun _ hw => exec_tokItemDispatch_starts hu hr hp hi hsound (Prod.ext hw rfl) b⟩
  · have htake := exec_tokMergePiece_none hu hr
    have hfinish := exec_tokMergePiece_some hu hr
    refine ⟨fun c k hf hc hk => ?_, fun hidle => ?_, fun c hc => ?_, fun c k bs hc hk => ?_, exec_tokSampleOutcome_merging hr,
      fun hf => ⟨fun hs hz => ?_, fun hs hz => ?_, fun hs hz => ?_, fun hs hz => ?_⟩⟩
    · rw [htake, takePiece_takes hf hc hk]
    · rw [htake, takePiece_idle hidle]
    · rw [hfinish, finishPiece_idle hc]
    · rw [hfinish, finishPiece_merges hc hk]
    · exact (exec_tokSampleOutcome_sound hu hr hf hs).trans (congrArg _ (tokEnds_tokenised hz _))
    · exact (exec_tokSampleOutcome_sound hu hr hf hs).trans (congrArg _ (tokEnds_corrupt hz _ false))
    · exact (exec_tokSampleOutcome_unsound hu hr hf hs).trans (congrArg _ (tokEnds_wrongCrc hz _))
    · exact (exec_tokSampleOutcome_unsound hu hr hf hs).trans (congrArg _ (tokEnds_corrupt hz _ true))
  · have hload := exec_tokTableLoad h he
    exact ⟨fun hn => hload.trans (congrArg _ (if_pos hn)), fun hn => hload.trans (congrArg _ (if_neg (not_not_intro hn)))⟩
  · refine ⟨fun hdone => exec_tokTableLoadComplete_idle ?_ others, fun h => ?_⟩
    · rintro ⟨l, hl, hindex, hsub, hopen⟩
      exact absurd (hdone l hl hindex hsub) (ne_true_of_eq_false hopen)
    · exact fun hp => ⟨fun _ _ hc => exec_tokTableLoadComplete_fails h hp hc others,
        fun hc => exec_tokTableLoadComplete_passes h hp hc others⟩

end Sys2Proof.Machine

/-! Buffer pools entering and leaving service. -/

namespace Sys2Proof.Machine

/-! ### The writes of POOL_ENABLE -/

/-- A pool's number is the last digit of its objects' index (R248). -/
theorem poolIndex_mod {p : Nat} (hp : p < 16) (s : State) : poolIndex s p % 16 = p := by
  unfold poolIndex
  omega

section
variable {u : State} {via : Via} {i p : Nat} (hp : i % 16 = p)
include hp

theorem poolEnableEffect_inService (he : (poolOf u p).enabled = true) : poolEnableEffect via i 1 [1] u = dictDone u via := by
  simp [poolEnableEffect, hp, he]

theorem poolEnableEffect_invalid (he : (poolOf u p).enabled = false) (hc : poolConfigCheck u p ≠ 0) :
    poolEnableEffect via i 1 [1] u = dictAbort (raiseErr u 0x0C06 63) via (abortCode 0x0F (poolConfigCheck u p)) := by
  simp [poolEnableEffect, hp, he, hc]

theorem poolEnableEffect_blocked {h : Nat} (he : (poolOf u p).enabled = false) (hc : poolConfigCheck u p = 0)
    (hb : claimBlocked u (objKey i 1) ((poolRegions u p).map (fun r => Res.region r.1 r.2)) = some h) :
    poolEnableEffect via i 1 [1] u = dictAbort u via (abortCode 9 h) := by
  simp [poolEnableEffect, hp, he, hc, hb]

/-- The pool claims its regions and its initialisation starts (R249, R344). -/
theorem poolEnableEffect_starts {rs : List Res} (hrs : (poolRegions u p).map (fun r => Res.region r.1 r.2) = rs)
    (he : (poolOf u p).enabled = false) (hc : poolConfigCheck u p = 0) (hb : claimBlocked u (objKey i 1) rs = none) :
    poolEnableEffect via i 1 [1] u =
      startLong (setPool (claim u (objKey i 1) rs) p { poolOf u p with starting := true }) via i 1 [1] false 0 := by
  simp [poolEnableEffect, hp, he, hc, hrs, hb]

theorem poolDisableEffect_reserved {data : List Byte} (hr : poolReserved (poolOf u p) ≠ 0) :
    poolDisableEffect via i 1 data u = dictAbort u via (abortCode 8 (objDetail i 9)) := by
  simp [poolDisableEffect, hp, hr]

theorem poolDisableEffect_allocated {data : List Byte} (hr : poolReserved (poolOf u p) = 0) (ha : (poolOf u p).allocated ≠ []) :
    poolDisableEffect via i 1 data u = dictAbort u via (abortCode 8 (objDetail i 8)) := by
  simp [poolDisableEffect, hp, hr, ha]

/-- With no buffer reserved, handed out or held the pool is as after reset, and its regions are released (R249, R344). -/
theorem poolDisableEffect_free {data : List Byte} (hr : poolReserved (poolOf u p) = 0) (ha : (poolOf u p).allocated = [])
    (hh : ∀ e ∈ (poolOf u p).held, e.2 = 0) :
    poolDisableEffect via i 1 data u = dictDone (objSet (release (setPool u p {}) (objKey i 1)) i 1 0) via := by
  have hheld : (poolOf u p).held.any (fun e => e.2 != 0) = false := by simpa using hh
  simp [poolDisableEffect, hp, hr, ha, hheld]

end

/-! ### The initialisation of a pool -/

theorem poolBalance_mem (s : State) (p : Nat) : (poolBalance s p).mem = s.mem := by
  unfold poolBalance
  extract_lets x
  split
  · rfl
  · split
    · rfl
    · split <;> rfl

/-- With fewer indices in the cache than a spill takes, a refill alone may start (R251). -/
theorem poolOf_poolBalance_short {s : State} {p : Nat} (h : (poolOf s p).cache.length < 224) :
    ∃ r, poolOf (poolBalance s p) p = { poolOf s p with refill := r } := by
  unfold poolBalance
  extract_lets x
  split
  · exact ⟨_, rfl⟩
  · split
    · exact ⟨true, poolOf_setPool_self _ _ _⟩
    · rw [if_neg (Nat.not_le.mpr h)]
      exact ⟨_, rfl⟩

/-- The bytes of a ring that holds its indices in order (R249). -/
def ringImage (b : Nat) : List Byte := (List.range b).flatMap (fun i => leBytes 4 i)

theorem length_ringImage (b : Nat) : (ringImage b).length = 4 * b := by
  simp [ringImage, List.length_flatMap, Nat.mul_comm]

/-- A pool at the end of its initialisation (R249). -/
def poolFilled (s : State) (p : Nat) : State :=
  let b := poolBuffers s p
  let x := poolOf s p
  let t := memWrite (memWrite s (poolRing s p) (ringImage b)) (poolStates s p) (List.replicate (ceilDiv b 512 * 64) 0)
  let t := setPool t p { enabled := true, inRing := b, tail := b % poolCap s p, held := x.held, reserved := x.reserved }
  poolBalance (objSet (objSet t (poolIndex s p) 1 1) (poolIndex s p) 0x0B b) p

theorem exec_poolInitComplete {s : State} {p : Nat} (h : (poolOf s p).starting = true) :
    exec (.poolInitComplete p) s = .next (localFinish (poolFilled s p) (poolIndex s p) 1 0) :=
  congrArg Host.Outcome.next (by simp only [h]; rfl)

/-- It is in service, its ring full and its cache empty. -/
theorem poolOf_poolFilled (s : State) (p : Nat) : ∃ r, poolOf (poolFilled s p) p =
    { enabled := true, inRing := poolBuffers s p, tail := poolBuffers s p % poolCap s p, held := (poolOf s p).held,
      reserved := (poolOf s p).reserved, refill := r } := by
  unfold poolFilled
  extract_lets b x t t'
  have hx : poolOf (objSet (objSet t' (poolIndex s p) 1 1) (poolIndex s p) 0x0B b) p =
      { enabled := true, inRing := b, tail := b % poolCap s p, held := x.held, reserved := x.reserved } := poolOf_setPool_self t p _
  obtain ⟨r, hr⟩ := poolOf_poolBalance_short (s := objSet (objSet t' (poolIndex s p) 1 1) (poolIndex s p) 0x0B b) (p := p)
    (by rw [hx]; exact Nat.zero_lt_succ _)
  exact ⟨r, hr.trans (by rw [hx])⟩

/-- Its state bits stand in memory as written last, its ring where they leave it. -/
theorem memBytes_poolFilled (s : State) (p : Nat) :
    memBytes (poolFilled s p) (poolStates s p) (ceilDiv (poolBuffers s p) 512 * 64) = List.replicate (ceilDiv (poolBuffers s p) 512 * 64) 0
    ∧ (poolRing s p + 4 * poolBuffers s p ≤ poolStates s p ∨ poolStates s p + ceilDiv (poolBuffers s p) 512 * 64 ≤ poolRing s p →
      memBytes (poolFilled s p) (poolRing s p) (4 * poolBuffers s p) = ringImage (poolBuffers s p)) := by
  let t := memWrite s (poolRing s p) (ringImage (poolBuffers s p))
  have hmem : ∀ a n, memBytes (poolFilled s p) a n =
      memBytes (memWrite t (poolStates s p) (List.replicate (ceilDiv (poolBuffers s p) 512 * 64) 0)) a n := fun a n =>
    congrArg (fun m : Mems => cellsGet m.dev a n) (poolBalance_mem _ p)
  have hring := memBytes_memWrite s (poolRing s p) (ringImage (poolBuffers s p))
  have hstates := memBytes_memWrite t (poolStates s p) (List.replicate (ceilDiv (poolBuffers s p) 512 * 64) 0)
  rw [length_ringImage] at hring
  rw [List.length_replicate] at hstates
  exact ⟨(hmem _ _).trans hstates,
    fun h => (hmem _ _).trans ((cellsGet_cellsSet_out _ _ _ _ _ (by rwa [List.length_replicate])).trans hring)⟩

/-- Settles O36: a write of 1 is checked and claims its regions or aborts; a write of 0 aborts while buffers are reserved or held; the
initialisation leaves a full ring, clear state bits and an empty cache. -/
theorem poolsInService : Obligations.PoolsInService := by
  refine ⟨⟨fun s via p hp h => ?_, fun s via p hp h => ?_⟩, fun s p => ⟨fun h => ?_, fun h => ?_⟩⟩
  · intro i u rs
    have hi : i % 16 = p := poolIndex_mod hp s
    have hu : poolOf u p = poolOf s p := poolOf_arriving ..
    have hx : exec (.poolEnableWrite via p) s = .next (poolEnableEffect via i 1 [1] u) := congrArg _ (requestWrite_takes h poolEnableEffect)
    rw [hx, ← hu]
    exact ⟨fun he => congrArg _ (poolEnableEffect_inService hi he), fun he => ⟨fun hc => congrArg _ (poolEnableEffect_invalid hi he hc),
      fun hc => ⟨fun c hb => congrArg _ (poolEnableEffect_blocked hi he hc hb),
        fun hb => congrArg _ (poolEnableEffect_starts hi rfl he hc hb)⟩⟩⟩
  · intro i u
    have hi : i % 16 = p := poolIndex_mod hp s
    have hu : poolOf u p = poolOf s p := poolOf_arriving ..
    have hx : exec (.poolDisableWrite via p) s = .next (poolDisableEffect via i 1 [0] u) :=
      congrArg _ (requestWrite_takes h poolDisableEffect)
    rw [hx, ← hu]
    exact ⟨fun hr => congrArg _ (poolDisableEffect_reserved hi hr), fun hr ha => congrArg _ (poolDisableEffect_allocated hi hr ha),
      fun hr ha hh => congrArg _ (poolDisableEffect_free hi hr ha hh)⟩
  · exact congrArg Host.Outcome.next (by simp [h])
  · obtain ⟨r, hx⟩ := poolOf_poolFilled s p
    obtain ⟨hstates, hring⟩ := memBytes_poolFilled s p
    refine ⟨poolFilled s p, exec_poolInitComplete h, ?_, ?_, ?_, ?_, ?_, ?_, hstates, hring⟩ <;> rw [hx]

end Sys2Proof.Machine

/-! Buffers freed, refilled and spilled, and blocked requests that end. -/

namespace Sys2Proof.Machine

@[simp] theorem Pool.sound_iff (x : Pool) (i : Nat) : x.sound i = true ↔ i ∉ x.quarantined := by simp [Pool.sound]

/-! ### Frees presented -/

section
variable {s : State} {r : FreeReq} {p i : Nat}

theorem acceptFree_unknown (ha : bufferAt s r.addr = none) (hc : r.cmd = none) : acceptFree s r = raiseErr s 0x0C03 r.slot := by
  simp [acceptFree, ha, hc]

theorem acceptFree_notHeld (ha : bufferAt s r.addr = some (p, i)) (hc : r.cmd = none) (hh : heldCount (poolOf s p) r.slot = 0) :
    acceptFree s r = raiseErr s 0x0C03 r.slot := by
  simp [acceptFree, ha, hc, hh]

/-- The free of a held buffer: the held count falls, its check is accepted, and the slot's ALLOCs lose the address (R253). -/
theorem acceptFree_held (ha : bufferAt s r.addr = some (p, i)) (hc : r.cmd = none) (hh : heldCount (poolOf s p) r.slot ≠ 0) :
    let x := poolOf s p
    acceptFree s r = modSlot (acceptOp (setPool s p { x with held := tblSet 0 x.held r.slot (heldCount x r.slot - 1) }) p (.check r.slot i))
      r.slot (fun y => { y with allocs := y.allocs.erase r.addr }) := by
  simp [acceptFree, ha, hc, hh]

theorem presentFree_unknown (ha : bufferAt s r.addr = none) : presentFree s r = acceptFree s r := by
  simp [presentFree, ha]

theorem presentFree_room (ha : bufferAt s r.addr = some (p, i)) (hc : checkCount (poolOf s p) < 64) (hf : (poolOf s p).frees = []) :
    presentFree s r = acceptFree s r := by
  simp [presentFree, ha, hc, hf]

theorem presentFree_waits (ha : bufferAt s r.addr = some (p, i)) (hw : 64 ≤ checkCount (poolOf s p) ∨ (poolOf s p).frees ≠ []) :
    presentFree s r = setPool s p { poolOf s p with frees := (poolOf s p).frees ++ [r] } := by
  have hroom : ¬ (checkCount (poolOf s p) < 64 ∧ (poolOf s p).frees = []) := by
    rintro ⟨hc, hf⟩
    exact hw.elim (fun h => absurd hc (Nat.not_lt.mpr h)) (fun h => h hf)
  simp [presentFree, ha, hroom]

end

theorem exec_poolFreeRequest {s : State} {n : Nat} (h : slotBusy s n = true) (addr : Nat) :
    exec (.poolFreeRequest n addr) s = .next (presentFree s { slot := n, addr := addr, cmd := none }) :=
  congrArg Host.Outcome.next (by simp [h])

/-! ### Frees checked -/

section
variable {s : State} {p i : Nat}

theorem checkFree_withdrawn (h : i ∈ (poolOf s p).quarantined) (n : Nat) : checkFree s p n i =
    bump (setPool s p { poolOf s p with allocated := (poolOf s p).allocated.filter (fun e => e.1 != i) }) 0x80C0 2 := by
  simp [checkFree, h]

theorem checkFree_set (h : i ∉ (poolOf s p).quarantined) (hb : stateBit s p i = true) (n : Nat) : checkFree s p n i =
    setPool (bump (setStateBit s p i false) 0x80C0 2) p { poolOf s p with
      cache := i :: (poolOf s p).cache, allocated := (poolOf s p).allocated.filter (fun e => e.1 != i) } := by
  simp [checkFree, h, hb]

/-- A bit already clear is a double free: the held count rises again (R254). -/
theorem checkFree_clear (h : i ∉ (poolOf s p).quarantined) (hb : stateBit s p i = false) (n : Nat) : checkFree s p n i =
    blockExcess (raiseErr (setPool s p { poolOf s p with
      held := tblSet 0 (poolOf s p).held n (heldCount (poolOf s p) n + 1) }) 0x0C04 n) p := by
  simp [checkFree, h, hb]

end

theorem exec_poolFreeCheck {s : State} {p n i : Nat} {rest : List BitOp} (h : (poolOf s p).ops = .check n i :: rest) (bad : Bool) :
    exec (.poolFreeCheck p bad) s = .next (
      if cacheRoom (poolOf s p) = false then s
      else
        let t := readStateLine (setPool s p { poolOf s p with ops := rest }) p i n bad
        let u := runSets (checkFree t p n i) p rest
        slotNumbers.foldl endWaiting (poolBalance (acceptWaiting p (poolOf u p).frees u) p)) := by
  refine congrArg Host.Outcome.next ?_
  simp only [h, Bool.not_eq_true']

/-! ### Refills and spills -/

/-- A pool none of whose buffers is withdrawn blocks no request for it (R257). -/
theorem blockExcess_sound {s : State} {p : Nat} (hq : (poolOf s p).quarantined = []) (hl : (poolOf s p).lost = 0) : blockExcess s p = s := by
  simp [blockExcess, poolQuarantined, hq, hl]

theorem poolOf_lowWater (s : State) (p q : Nat) : poolOf (lowWater s p) q = poolOf s q := by
  rw [poolOf, lowWater_pools]
  rfl

/-- A refill none of whose entries is poisoned, of a pool without withdrawn buffers: every entry enters the cache (R251). -/
theorem exec_poolRefillReturn_clean {s : State} {p : Nat} (hr : (poolOf s p).refill = true) (hq : (poolOf s p).quarantined = [])
    (hl : (poolOf s p).lost = 0)
    (hc : ∀ i, i < min 64 (poolOf s p).inRing → memPoisoned s (ringAddr s p (poolOf s p).head i) 4 = false) :
    let x := poolOf s p
    let n := min 64 x.inRing
    exec (.poolRefillReturn p [] []) s = .next (poolBalance (lowWater (setPool s p { x with
      refill := false, head := (x.head + n) % poolCap s p, inRing := x.inRing - n,
      cache := ((List.range n).map (fun i => memNat s (ringAddr s p x.head i) 4 % 2 ^ 22)).reverse ++ x.cache }) p) p) := by
  intro x n
  have hentries : (List.range n).map (fun i => (memNat s (ringAddr s p x.head i) 4 % 2 ^ 22, ringAddr s p x.head i,
        ([] : List Nat).contains i || memPoisoned s (ringAddr s p x.head i) 4)) =
      (List.range n).map (fun i => (memNat s (ringAddr s p x.head i) 4 % 2 ^ 22, ringAddr s p x.head i, false)) :=
    List.map_congr_left fun i hi => by
      have hclean : memPoisoned s (ringAddr s p x.head i) 4 = false := hc i (List.mem_range.mp hi)
      simp [hclean]
  have hsound : ∀ i, (poolOf s p).sound i = true := fun i => (Pool.sound_iff _ i).mpr (by simp [hq])
  refine congrArg Host.Outcome.next ?_
  simp only [hr, Bool.not_true, Bool.false_eq_true, if_false]
  rw [hentries]
  simp only [List.filter_map, List.map_map, List.countP_map, Function.comp_def, hsound, List.filter_false, List.map_nil, List.getLast?_nil,
    List.foldl_nil, Bool.not_false, Bool.not_true, Bool.and_self, List.filter_true, List.countP_false]
  exact congrArg (poolBalance · p) (blockExcess_sound (by rw [poolOf_lowWater, poolOf_setPool_self]; exact hq)
    (by rw [poolOf_lowWater, poolOf_setPool_self]; exact hl))

/-- A spill of one sound index: it stands at the ring's tail (R251). -/
theorem exec_poolSpillDone_one {s : State} {p i : Nat} (hs : (poolOf s p).spill = [i]) (hq : i ∉ (poolOf s p).quarantined)
    (hd : (poolOf s p).damaged = []) :
    let x := poolOf s p
    exec (.poolSpillDone p) s = .next (poolBalance (setPool (memWrite s (ringAddr s p x.tail 0) (leBytes 4 i)) p
      { x with spill := [], tail := (x.tail + 1) % poolCap s p, inRing := x.inRing + 1 }) p) := by
  have hdrop : dropSpilled s p = s := by simp [dropSpilled, hd]
  have hsound : (poolOf s p).sound i = true := (Pool.sound_iff _ i).mpr hq
  refine congrArg Host.Outcome.next ?_
  simp only [hdrop, hs, hsound, List.isEmpty_cons, Bool.false_eq_true, if_false, List.length_singleton, List.range_one, List.zip_cons_cons,
    List.zip_nil_left, List.foldl_cons, List.foldl_nil, List.countP_singleton, Bool.not_true, Nat.add_zero]
  rfl

/-! ### Deadlocks -/

/-- A pool whose blocked requests of a slot have ended: those granted are held no longer (R258). -/
def Pool.unblocked (x : Pool) (n : Nat) : Pool :=
  let granted := x.waits.countP (fun r => r.blocked && r.slot == n && r.granted)
  { x with waits := x.waits.filter (fun r => !(r.blocked && r.slot == n)),
           held := if granted == 0 then x.held else tblSet 0 x.held n (heldCount x n - granted) }

theorem heldCount_unblocked (x : Pool) (n : Nat) :
    heldCount (x.unblocked n) n = heldCount x n - x.waits.countP (fun r => r.blocked && r.slot == n && r.granted) := by
  unfold Pool.unblocked heldCount
  dsimp only
  split
  · next h => rw [beq_iff_eq.mp h, Nat.sub_zero]
  · exact tblGet_tblSet_self _ _ _ _

theorem poolOf_setPool (s : State) (p q : Nat) (x : Pool) : poolOf (setPool s p x) q = if q = p then x else poolOf s q :=
  tblGet_tblSet _ _ _ _ _

/-- The blocked requests of a slot end in each pool of a list, once each. -/
theorem foldl_unblocked (n : Nat) (l : List Nat) (hl : l.Nodup) (s : State) :
    let t := l.foldl (fun s p => setPool s p ((poolOf s p).unblocked n)) s
    t.objs = s.objs ∧ t.pools.answers = s.pools.answers ∧ ∀ p, poolOf t p = if p ∈ l then (poolOf s p).unblocked n else poolOf s p := by
  induction l generalizing s with
  | nil => exact ⟨rfl, rfl, fun p => by simp⟩
  | cons a l ih =>
    obtain ⟨ha, hl⟩ := List.nodup_cons.mp hl
    obtain ⟨hobjs, hanswers, hpools⟩ := ih hl (setPool s a ((poolOf s a).unblocked n))
    refine ⟨hobjs, hanswers, fun p => (hpools p).trans ?_⟩
    rw [poolOf_setPool]
    by_cases hp : p = a
    · subst hp
      simp [ha]
    · simp [hp]

/-- The state in which the blocked requests of the job a deadlock chose are gone from their pools. -/
def deadlockBroken (s : State) (n k : Nat) : State :=
  poolNumbers.foldl (fun s p => setPool s p ((poolOf s p).unblocked n)) (raiseErr (bumpBy s 0x80C0 5 k) 0x0C05 n)

theorem exec_poolDeadlock_none {s : State} (hn : deadlockSlot s = none) (w k : Nat) : exec (.poolDeadlock w k) s = .next s :=
  congrArg Host.Outcome.next (by simp [hn])

theorem exec_poolDeadlock_some {s : State} {w n : Nat} (hw : objGet s 0x6000 3 * 2000 < w) (hn : deadlockSlot s = some n) (k : Nat) :
    exec (.poolDeadlock w k) s = .next (((blockedReqs s).filter (fun e => e.2.slot == n)).foldl (fun s e => answer s e.2 0x0C08 0)
      (deadlockBroken s n k)) := by
  refine congrArg Host.Outcome.next ?_
  simp only [Nat.not_le.mpr hw, if_false, hn]
  rfl

theorem deadlockBroken_effect (s : State) (n k : Nat) :
    (deadlockBroken s n k).objs = (raiseErr (bumpBy s 0x80C0 5 k) 0x0C05 n).objs
    ∧ (deadlockBroken s n k).pools.answers = s.pools.answers
    ∧ ∀ p, p < 16 → poolOf (deadlockBroken s n k) p = (poolOf s p).unblocked n := by
  obtain ⟨hobjs, hanswers, hpools⟩ := foldl_unblocked n poolNumbers List.nodup_range (raiseErr (bumpBy s 0x80C0 5 k) 0x0C05 n)
  refine ⟨hobjs, hanswers.trans (by rw [raiseErr_pools, bumpBy_pools]), fun p hp => (hpools p).trans ((if_pos (List.mem_range.mpr hp)).trans ?_)⟩
  rw [poolOf_raiseErr, poolOf_bumpBy]

/-- Settles O38: a free is refused, waits or is accepted; a check withdraws, frees or finds a double free; a refill and a spill move
indices between ring and cache; a deadlock ends the blocked requests of one job. -/
theorem poolReturns : Obligations.PoolReturns := by
  refine ⟨⟨fun s n addr => ⟨fun h => ?_,
        fun h => ⟨fun ha => ?_, fun p i ha => ⟨fun hw => ?_, fun hc hf hh => ?_, fun hc hf hh => ?_⟩⟩⟩,
      fun s p n i bad rest h => ?_, fun s p n i => ⟨fun hq => checkFree_withdrawn hq n, fun hq hb => checkFree_set hq hb n,
        fun hq hb => checkFree_clear hq hb n⟩⟩,
    fun s p h bad e => ?_, fun s p => exec_poolRefillReturn_clean, fun s p h => ?_, fun s p i => exec_poolSpillDone_one,
    fun s w k => ⟨fun h => ?_, fun h => ?_⟩⟩
  · exact congrArg Host.Outcome.next (by simp [h])
  · exact (exec_poolFreeRequest h addr).trans (congrArg _ ((presentFree_unknown ha).trans (acceptFree_unknown ha rfl)))
  · exact (exec_poolFreeRequest h addr).trans (congrArg _ (presentFree_waits ha hw))
  · exact (exec_poolFreeRequest h addr).trans (congrArg _ ((presentFree_room ha hc hf).trans (acceptFree_notHeld ha rfl hh)))
  · exact (exec_poolFreeRequest h addr).trans (congrArg _ ((presentFree_room ha hc hf).trans (acceptFree_held ha rfl hh)))
  · have hcheck := exec_poolFreeCheck h bad
    exact ⟨fun hr => hcheck.trans (congrArg _ (if_pos hr)), fun hr => hcheck.trans (congrArg _ (if_neg (ne_false_of_eq_true hr)))⟩
  · exact congrArg Host.Outcome.next (by simp [h])
  · exact congrArg Host.Outcome.next (by simp [h])
  · exact congrArg Host.Outcome.next (if_pos h)
  · refine ⟨fun hn => exec_poolDeadlock_none hn w k, fun n hn => ⟨deadlockBroken s n k, exec_poolDeadlock_some h hn k, ?_⟩⟩
    obtain ⟨hobjs, hanswers, hpools⟩ := deadlockBroken_effect s n k
    refine ⟨hobjs, hanswers, fun p hp => ?_⟩
    rw [hpools p hp]
    exact ⟨rfl, heldCount_unblocked _ n⟩

end Sys2Proof.Machine

/-! The end of a job, and its fault. -/

namespace Sys2Proof.Machine

/-! ### A job that leaves -/

theorem tblGet_unlisted {α : Type} (d : α) {t : Tbl α} {k : Nat} (h : k ∉ t.map (·.1)) : tblGet d t k = d := by
  induction t with
  | nil => rfl
  | cons e t ih =>
    rw [List.map_cons, List.mem_cons, not_or] at h
    obtain ⟨hk, ht⟩ := h
    rw [tblGet, if_neg (Ne.symm hk), ih ht, ite_self]

/-- A slot that uses no pair but those listed uses none once it is dropped from each of them. -/
theorem foldl_dropUser (n : Nat) (l : List Nat) (s : State) {p : Nat} (h : p ∈ l ∨ n ∉ (pairOf s p).users) :
    n ∉ (pairOf (l.foldl (fun s p =>
      let y := pairOf s p
      if y.users.contains n then setPair s p { y with users := y.users.filter (· != n) } else s) s) p).users := by
  induction l generalizing s with
  | nil => exact h.resolve_left List.not_mem_nil
  | cons a l ih =>
    refine ih _ ?_
    by_cases hp : p = a
    · refine .inr ?_
      subst hp
      dsimp only
      split
      · simp
      · next hu => simpa using hu
    · refine h.imp (fun hm => (List.mem_cons.mp hm).resolve_left hp) (fun hu => ?_)
      dsimp only
      split
      · rwa [pairOf_setPair, if_neg hp]
      · exact hu

theorem dropUser_users (s : State) (n p : Nat) : n ∉ (pairOf (dropUser s n) p).users := by
  refine foldl_dropUser n _ s ?_
  by_cases hp : p ∈ s.pairs.map (·.1)
  · exact .inl hp
  · refine .inr ?_
    rw [pairOf, tblGet_unlisted _ hp]
    exact List.not_mem_nil

theorem Changes.mem_eq {p : Part → Bool} {s t : State} (h : Changes p s t) (hd : p .devMem = false := by rfl)
    (hs : p .staging = false := by rfl) (hsp : p .scratchpad = false := by rfl) (hb : p .banks = false := by rfl) : t.mem = s.mem :=
  Mems.ext_parts (h.devMem.resolve_left (by simp [hd])) (h.staging.resolve_left (by simp [hs]))
    (h.scratchpad.resolve_left (by simp [hsp])) (h.banks.resolve_left (by simp [hb]))

theorem dropUser_mem (s : State) (n : Nat) : (dropUser s n).mem = s.mem :=
  (dropUser_changes (pt := fun x => x == .pairs) s n (Changes.refl _ s) rfl).mem_eq

theorem dropReservations_mem (s : State) (n : Nat) : (dropReservations s n).mem = s.mem :=
  (dropReservations_changes (pt := fun x => x == .pools) s n (Changes.refl _ s) rfl).mem_eq

/-- The slot keeps the code of its last fault alone (R309, R329). -/
theorem slotOf_finishJob (s : State) (n state status : Nat) : slotOf (finishJob s n state status) n = { fault := (slotOf s n).fault } := by
  rw [finishJob, slotOf_fire, slotOf_setSlot_self]

theorem finishJob_users (s : State) (n state status p : Nat) : n ∉ (pairOf (finishJob s n state status) p).users := by
  rw [finishJob, pairOf_fire]
  exact dropUser_users _ n p

/-- The record of a job at its home says how it ended (R305, R309). -/
theorem memBytes_finishJob {s : State} {n a : Nat} (ha : (slotOf s n).recAddr = some a) (hh : isHome s n = true) (state status : Nat) :
    memBytes (finishJob s n state status) a 4 = leBytes 4 (status * 65536 + n * 256 + state) := by
  have hmem : (finishJob s n state status).mem = (writeRecordState s a n status state).mem := by
    rw [finishJob, fire_mem]
    refine (dropUser_mem _ n).trans ((dropReservations_mem _ n).trans ?_)
    rw [ha]
    exact congrArg State.mem (if_pos hh)
  rw [memBytes, hmem]
  exact memBytes_memWrite s a (leBytes 4 (status * 65536 + n * 256 + state))

/-- The end of a halted or faulted slot whose commands have completed, once the other engines are ready (R255, R309, R310). -/
theorem exec_jobEnd {s : State} {n : Nat} {ready : Bool} (hx : (slotOf s n).state = .halted ∨ (slotOf s n).state = .faulted)
    (hc : ∀ c ∈ s.cmds, c.slot ≠ n) (hs : (slotOf s n).save = none) (he : (slotOf s n).ending = none)
    (hr : (otherDies s).any (fun d => (slotOf s n).job.stripe.testBit d) = true → ready = true)
    (hh : heldTotal (closeContexts s n) n ≤ (slotOf s n).allocs.length + waitingFrees (closeContexts s n) n) :
    exec (.jobEnd n ready) s = .next (endJob (closeContexts s n) n (if (slotOf s n).state = .faulted then 4 else 3)
      (if (slotOf s n).state = .faulted then (slotOf s n).fault else 0)) := by
  have hstate : ((slotOf s n).state != .halted && (slotOf s n).state != .faulted) = false := by
    obtain hx | hx := hx <;> rw [hx] <;> rfl
  have hcmds : s.cmds.any (fun c => c.slot == n) = false := by simpa using hc
  have hready : ((otherDies s).any (fun d => (slotOf s n).job.stripe.testBit d) && !ready) = false := by
    cases ha : (otherDies s).any (fun d => (slotOf s n).job.stripe.testBit d) with
    | false => rfl
    | true => rw [hr ha]; rfl
  refine congrArg Host.Outcome.next ?_
  simp only [hstate, hcmds, hready, hs, he, Option.isSome_none, Bool.or_self, Bool.false_eq_true, if_false, Nat.not_lt.mpr hh, beq_iff_eq]

/-! ### A job that is faulted -/

/-- A slot that has just been faulted: it waits for no read, and its commands not issued have left their queues (R283, R310). -/
def faultMarked (s : State) (n code : Nat) : State :=
  let x := slotOf s n
  { setSlot s n { x with
      state := .faulted, fault := code, loopRead := none, listRead := none, save := none,
      faultHorizon := if x.job.regions = [] then none else some x.horizon, poisonedTo := x.horizon } with
    cmds := s.cmds.filter (fun c => !(c.slot == n && !c.issued)) }

section
variable {s : State} {n : Nat}

theorem faultHere_ended (h : (slotOf s n).state = .idle ∨ (slotOf s n).state = .faulted) (code : Nat) : faultHere s n code = s := by
  simp [faultHere, h]

theorem slotFault_ended (h : (slotOf s n).state = .idle ∨ (slotOf s n).state = .faulted) (code : Nat) : slotFault s n code = s := by
  simp [slotFault, h]

section
variable (hi : (slotOf s n).state ≠ .idle) (hf : (slotOf s n).state ≠ .faulted)
include hi hf

theorem faultHere_live (code : Nat) :
    faultHere s n code = fire (abandonStages (withdrawWaits (faultMarked s n code) n) n code) 3 code := by
  simp [faultHere, hi, hf, faultMarked]

theorem slotFault_live (code : Nat) : slotFault s n code =
    if (otherDies s).any (fun d => (slotOf s n).job.stripe.testBit d) then send (faultHere s n code) (.fault n code) else faultHere s n code := by
  simp [slotFault, hi, hf]

/-- What is marked stays so while the stages give up their work; of the slot its ALLOCs alone may go. -/
theorem faultHere_effect (code : Nat) :
    SameSlots n (faultMarked s n code) (faultHere s n code)
    ∧ (faultHere s n code).cmds.map (·.id) = (faultMarked s n code).cmds.map (·.id) := by
  obtain ⟨hslots, hcmds⟩ := abandonStages_same (withdrawWaits (faultMarked s n code) n) n code
  rw [faultHere_live hi hf]
  refine ⟨((SameSlots.of_eq (withdrawWaits_slots _ n)).trans hslots).trans (SameSlots.of_eq (fire_slots ..)), ?_⟩
  rw [fire_cmds, hcmds, withdrawWaits_cmds]

end

end

/-- The fault that another engine tells of: at home it is a fault of the slot, elsewhere the home's code stands (R310). -/
theorem exec_slotFaultPropagation (s : State) (n code die : Nat) : exec (.slotFaultPropagation n code die) s = .next (
    if isHome s n = true then slotFault s n code
    else if (slotOf s n).state = .faulted then
      if die = homeDie (slotOf s n).job.stripe then setSlot s n { slotOf s n with fault := code } else s
    else faultHere s n code) :=
  congrArg Host.Outcome.next (by simp only [beq_iff_eq])

/-- Settles O18: a job ends with its contexts closed and its ALLOCs freed, and leaves once it holds nothing; a fault told by another engine
marks a slot whose job has not ended, and goes on from the home. -/
theorem jobsEnd : Obligations.JobsEnd := by
  refine ⟨fun s n ready => ?_, fun s n code die => ?_⟩
  · intro x hx hc hs he hr v hh state status y u
    have hend := exec_jobEnd hx hc hs he hr hh
    refine ⟨fun hu => hend.trans (congrArg Host.Outcome.next (if_neg (by simpa using hu))), fun hu =>
      ⟨finishJob u n state status, hend.trans (congrArg Host.Outcome.next (if_pos (by simpa using hu))), slotOf_finishJob u n state status,
        finishJob_users u n state status, fun a ha hhome => memBytes_finishJob ha hhome state status⟩⟩
  · intro x
    have hact := exec_slotFaultPropagation s n code die
    refine ⟨fun hi => hact.trans (congrArg _ ?_), fun hf h => hact.trans (congrArg _ ?_), fun hf hh hd => hact.trans (congrArg _ ?_),
      fun hi hf => ?_⟩
    · rw [slotFault_ended (.inl hi), faultHere_ended (.inl hi), if_neg (c := (slotOf s n).state = .faulted) (by rw [hi]; decide), ite_self]
    · rw [slotFault_ended (.inr hf), if_pos (c := (slotOf s n).state = .faulted) hf]
      obtain h | h := h
      · rw [if_pos h]
      · rw [if_neg (c := die = _) h, ite_self]
    · rw [if_neg (by simp [hh]), if_pos hf, if_pos hd]
    · obtain ⟨⟨hslot, hothers⟩, hcmds⟩ := faultHere_effect hi hf code
      refine ⟨faultHere s n code, hact.trans (congrArg _ ?_), hslot.trans ?_, fun j hj => (hothers j hj).trans ?_, hcmds⟩
      · rw [slotFault_live hi hf, if_neg hf, ite_and]
      · exact congrArg (fun y : Slot => { y with allocs := [] }) (slotOf_setSlot_self s n _)
      · exact (slotOf_setSlot s n j _).trans (if_neg hj)

end Sys2Proof.Machine

/-! The poisoning of a faulted job's regions. -/

namespace Sys2Proof.Machine

theorem freeBytes_length (base n : Nat) : (freeBytes base n).length = n := by simp [freeBytes]

theorem freeLine_length (free i w : Nat) : (freeLine free i w).length = w := by simp [freeLine, freeBytes_length]

/-- An item that goes through no sliver map enters the unit behind the others, and nothing else changes. -/
theorem addDlv_unmapped {x : Dlv} (h : 15 < x.sliver) (s : State) : addDlv s x =
    { s with dlv := { s.dlv with items := s.dlv.items ++ [{ x with id := s.dlv.nextId }], nextId := s.dlv.nextId + 1 } } :=
  if_pos h

theorem poisoningItem_addrs (s : State) (n d free : Nat) : (poisoningItem s n d free).ready.map (·.addr) = regionLines s n d := by
  have hzip : ((List.range (regionLines s n d).length).zip (regionLines s n d)).map Prod.snd = regionLines s n d :=
    List.map_snd_zip (by rw [List.length_range])
  exact List.map_map.trans hzip

theorem poisoningItem_lines {s : State} {n d free : Nat} {l : OutLine} (h : l ∈ (poisoningItem s n d free).ready) :
    l.poison = true ∧ l.data.length = 512 := by
  obtain ⟨e, -, rfl⟩ := List.mem_map.mp h
  exact ⟨rfl, by simp only [poisonRegionLine, freeLine_length]⟩

theorem execRegionPoisoning_owed {s : State} {n : Nat} (hf : (slotOf s n).faultHorizon ≠ none) (hu : unitsWork s = true)
    (hm : poisonMay s n ((slotOf s n).poisonedTo + 1) = true) :
    let d := (slotOf s n).poisonedTo + 1
    execRegionPoisoning n s =
      .next (addDlv { s with drawn := s.drawn + 512 * (regionLines s n d).length } (poisoningItem s n d s.drawn)) := by
  simp only [execRegionPoisoning, Option.isNone_eq_false_iff.mpr (Option.isSome_iff_ne_none.mpr hf), hu, hm]
  rfl

theorem execRegionPoisoning_idle {s : State} {n : Nat} (h : (slotOf s n).faultHorizon = none ∨ unitsWork s = false
    ∨ poisonMay s n ((slotOf s n).poisonedTo + 1) = false) : execRegionPoisoning n s = .next s := by
  obtain h | h | h := h <;> simp [execRegionPoisoning, h]

/-- Settles O23: the next segment owed enters the delivery unit as an item of poisoned lines; else nothing changes. -/
theorem regionPoisoned : Obligations.RegionPoisoned := by
  intro s n d
  refine ⟨fun hf hu hm => ?_, execRegionPoisoning_idle⟩
  have hx : exec (.regionPoisoning n) s = _ := execRegionPoisoning_owed hf hu hm
  rw [addDlv_unmapped (x := poisoningItem s n d s.drawn) (show 15 < 0xFF by decide)] at hx
  exact ⟨_, { poisoningItem s n d s.drawn with id := s.dlv.nextId }, hx, rfl, rfl, rfl, rfl, rfl, poisoningItem_addrs s n d s.drawn,
    fun l hl => poisoningItem_lines hl, rfl, rfl, rfl⟩

end Sys2Proof.Machine

/-! Delivery items dispatched, fetched and paced. -/

namespace Sys2Proof.Machine

/-! ### The dispatch of items (R290) -/

/-- The slots whose earliest waiting item can reserve its staging. -/
def itemSlots (s : State) : List Nat :=
  slotNumbers.filter (fun n => (firstUndispatched s n).any (fun x => unitsNeeded s x ≤ (sharedFree s).length))

theorem execDlvItemDispatch_eq (s : State) : execDlvItemDispatch s = .next (
    match arbPick s unitDlv (itemSlots s) with
    | none => s
    | some n =>
      match firstUndispatched s n with
      | none => s
      | some x =>
        if !unitsDispatch s then s
        else
          match takeUnits s (unitsNeeded s x) with
          | none => s
          | some (us, t) => startItem (arbGrant t unitDlv n (itemSlots s)) x.id us) := by
  have hslots : itemSlots s = slotNumbers.filter (fun n =>
      match firstUndispatched s n with
      | some x => unitsNeeded s x ≤ (sharedFree s).length
      | none => false) := List.filter_congr fun m _ => by cases firstUndispatched s m <;> rfl
  rw [hslots]
  rfl

theorem execDlvItemDispatch_idle {s : State} (h : itemSlots s = [] ∨ unitsDispatch s = false) : execDlvItemDispatch s = .next s := by
  refine (execDlvItemDispatch_eq s).trans (congrArg _ ?_)
  obtain h | h := h
  · rw [h]
    rfl
  · rw [h]
    cases arbPick s unitDlv (itemSlots s) with
    | none => rfl
    | some n => cases hx : firstUndispatched s n <;> simp only [hx, Bool.not_false, if_true]

theorem execDlvItemDispatch_started {s : State} {n : Nat} {x : Dlv} (hu : unitsDispatch s = true)
    (hp : arbPick s unitDlv (itemSlots s) = some n) (hx : firstUndispatched s n = some x)
    (hk : unitsNeeded s x ≤ (sharedFree s).length) :
    execDlvItemDispatch s =
      let us := (sharedFree s).take (unitsNeeded s x)
      .next (startItem (arbGrant { s with dlv := { s.dlv with reservedUnits := setAdd s.dlv.reservedUnits us } } unitDlv n (itemSlots s))
        x.id us) := by
  refine (execDlvItemDispatch_eq s).trans ?_
  simp only [hp, hx, hu, takeUnits_of_le hk, Bool.not_true, Bool.false_eq_true, if_false]

/-! ### Reads of the fetch ports (R290, R291) -/

theorem meets_iff (r : FetchReq) (g : Nat) : r.meets g = true ↔ r.sent = false ∧ r.lo / 64 = g / 64 ∧ r.lo ≤ g + 1 ∧ g ≤ r.hi := by
  simp [FetchReq.meets, and_assoc]

theorem joinReq_length (id tile g : Nat) (q : List FetchReq) : (joinReq id tile g q).length = q.length := by
  induction q with
  | nil => rfl
  | cons r t ih =>
    unfold joinReq
    split
    · rfl
    · rw [List.length_cons, ih, List.length_cons]

@[simp] theorem fetchQueue_setFetchQueue_self (s : State) (p : Nat) (q : List FetchReq) : fetchQueue (setFetchQueue s p q) p = q :=
  tblGet_tblSet_self ..

@[simp] theorem fetchQueue_readEntered (s : State) (id : Nat) (e : Nat × Nat) (p : Nat) :
    fetchQueue (readEntered s id e) p = fetchQueue s p := rfl

@[simp] theorem fetchQueue_bump (s : State) (i k p : Nat) : fetchQueue (bump s i k) p = fetchQueue s p := rfl

section
variable {s : State} {tile g : Nat}

/-- A read that a request takes up leaves the queue as long as it was, and is counted (R291). -/
theorem enterRead_joins (h : ∃ r ∈ fetchQueue s (fetchPort g), r.meets g = true) (id : Nat) :
    (fetchQueue (enterRead s id (tile, g)) (fetchPort g)).length = (fetchQueue s (fetchPort g)).length
    ∧ objGet (enterRead s id (tile, g)) 0x80E0 0x13 = satAdd (objGet s 0x80E0 0x13) 1 := by
  have henter : enterRead s id (tile, g) = bump (readEntered (setFetchQueue s (fetchPort g)
      (joinReq id tile g (fetchQueue s (fetchPort g)))) id (tile, g)) 0x80E0 0x13 := if_pos (List.any_eq_true.mpr h)
  rw [henter]
  exact ⟨by simp [joinReq_length], objGet_bump_self ..⟩

section
variable (h : ∀ r ∈ fetchQueue s (fetchPort g), r.meets g = false)
include h

theorem enterRead_alone (hq : (fetchQueue s (fetchPort g)).length < 64) (id : Nat) :
    fetchQueue (enterRead s id (tile, g)) (fetchPort g)
      = fetchQueue s (fetchPort g) ++ [{ lo := g, hi := g + 1, users := [(id, tile, g)] }] := by
  have hnone : (fetchQueue s (fetchPort g)).any (·.meets g) = false := by simpa using h
  simp [enterRead, hnone, hq]

theorem enterRead_waits (hq : 64 ≤ (fetchQueue s (fetchPort g)).length) (id : Nat) : enterRead s id (tile, g) = s := by
  have hnone : (fetchQueue s (fetchPort g)).any (·.meets g) = false := by simpa using h
  simp [enterRead, hnone, Nat.not_lt.mpr hq]

end

end

/-- A change that keeps every item's number reaches the item it names. -/
theorem dlvOf_modDlv_self {s : State} {id : Nat} {x : Dlv} (h : dlvOf s id = some x) {f : Dlv → Dlv} (hf : ∀ y, (f y).id = y.id) :
    dlvOf (modDlv s id f) id = some (f x) := by
  have hid : (fun y : Dlv => y.id == id) ∘ (fun y => if y.id == id then f y else y) = fun y => y.id == id := by
    funext y
    dsimp only [Function.comp_apply]
    split
    · rw [hf]
    · rfl
  have hx : (x.id == id) = true := List.find?_some (p := fun y : Dlv => y.id == id) h
  refine (List.find?_map ..).trans ?_
  rw [hid, show List.find? _ s.dlv.items = some x from h, Option.map_some, if_pos hx]

theorem execMemReadReturn_eq {s : State} (hu : unitsWork s = true) (port sent which : Nat) (error : Bool) :
    let u := sendReads (feedPorts s) port sent
    execMemReadReturn port sent which error s = .next ((((fetchQueue u port).filter (·.sent))[which]?).elim u
      (fun r => takeReads (setFetchQueue u port ((fetchQueue u port).erase r)) r error)) := by
  intro u
  refine congrArg Host.Outcome.next ((if_neg (by simp [hu])).trans ?_)
  dsimp only
  cases ((fetchQueue u port).filter (·.sent))[which]? <;> rfl

/-! ### The group of a multicast (R293, R297) -/

/-- Without a credit of every attached receiver, or before its window opens, the group sends nothing. -/
theorem pumpGroup_held {s : State} {id : Nat} {x : Dlv} (hx : dlvOf s id = some x)
    (h : (∃ r ∈ x.attached, r.credits = 0) ∨ windowOpen s x.due = false) (f : Nat) : pumpGroup f s id = s := by
  have hheld : (!windowOpen s x.due || x.attached.any (fun r => r.credits == 0)) = true := by
    obtain h | h := h
    · rw [Bool.or_eq_true]
      exact .inr (by simpa using h)
    · rw [h]
      rfl
  cases f with
  | zero => rfl
  | succ f =>
    rw [pumpGroup, hx]
    dsimp only
    split
    · rfl
    · exact if_pos hheld

section
variable {x : Dlv} {r : Remote} {num : Nat} {l : OutLine} (hl : (x.linesFor r.dst)[num]? = some l)
include hl

theorem answer_again (ha : num ∈ r.acks) (drop : Bool) :
    x.answer r num drop = { x with remotes := x.remotes.map (fun q => if q == r then q.ack num else q) } := by
  simp [Dlv.answer, hl, ha]

theorem answer_written (ha : num ∉ r.acks) : x.answer r num false =
    { x with
      written := x.written + 1
      poisonedLines := if l.poison then x.poisonedLines + 1 else x.poisonedLines
      remotes := x.remotes.map (fun q => if q == r then q.ack num else q) } := by
  simp [Dlv.answer, Dlv.answered, hl, ha]

theorem answer_dropped (ha : num ∉ r.acks) : x.answer r num true =
    { x.fail r.die l with
      dropped := x.dropped + 1
      late := true
      status := if x.status == 0 then 0x0E05 else x.status
      remotes := x.remotes.map (fun q => if q == r then q.ack num else q) } := by
  simp [Dlv.answer, Dlv.answered, hl, ha]

end

/-- The receiver that a returned credit is of: on another die, in the part, and sent the line or detached. -/
def creditOf (die dst num : Nat) (r : Remote) : Bool := r.die == die && r.dst == dst && !r.own && !r.gone && (num < r.sent || r.detached)

theorem creditOf_dst {die dst num : Nat} {r : Remote} (h : creditOf die dst num r = true) : r.dst = dst := by
  simp only [creditOf, Bool.and_eq_true, beq_iff_eq] at h
  exact h.1.1.1.2

section
variable {s : State} {item die dst num : Nat} {x : Dlv} (hx : dlvOf s item = some x)
include hx

theorem execMcastCreditReturn_none (hr : x.remotes.find? (creditOf die dst num) = none) (drop : Bool) (k : Nat) :
    execMcastCreditReturn item die dst num drop k s = .next s := by
  have hr' : x.remotes.find? (fun r => r.die == die && r.dst == dst && !r.own && !r.gone && (num < r.sent || r.detached)) = none := hr
  simp only [execMcastCreditReturn, hx, hr']

theorem execMcastCreditReturn_line {r : Remote} {l : OutLine} (hr : x.remotes.find? (creditOf die dst num) = some r)
    (hl : (x.linesFor dst)[num]? = some l) (drop : Bool) (k : Nat) :
    execMcastCreditReturn item die dst num drop k s =
      .next (advanceDlv (modDlv (bumpBy s 0x80E0 0x14 k) item (fun _ => x.answer r num drop)) item) := by
  have hr' : x.remotes.find? (fun r => r.die == die && r.dst == dst && !r.own && !r.gone && (num < r.sent || r.detached)) = some r := hr
  obtain ⟨hlt, -⟩ := List.getElem?_eq_some_iff.mp hl
  simp only [execMcastCreditReturn, hx, hr', if_neg (Nat.not_le.mpr hlt)]

/-! ### Stragglers (R294) -/

theorem execStragglerTimeout_idle (h : objGet s 0x6801 4 = 0 ∨ stalledOn s x = []) : execStragglerTimeout item s = .next s := by
  obtain h | h := h <;> simp [execStragglerTimeout, hx, h]

theorem execStragglerTimeout_detaches (he : objGet s 0x6801 4 ≠ 0) (hn : stalledOn s x ≠ []) :
    let lost := stalledOn s x
    execStragglerTimeout item s = .next (advanceDlv (modDlv ((lost.filter (!·.own)).foldl (fun s r => sendNotice s x r.die r.dst .discard)
      (lost.foldl (fun s _ => dlvError s item 0x0E04) (bumpBy s 0x80E0 0x14 (objGet s 0x6801 6 * 2000)))) item
      (fun y => y.detach lost)) item) := by
  simp [execStragglerTimeout, hx, he, hn]

end

/-- Settles O39: items are dispatched; reads are fed, sent, joined and returned; a multicast's group waits for credits, takes them back
and detaches its stragglers. -/
theorem deliveries : Obligations.Deliveries := by
  refine ⟨⟨fun s => ?_, fun s port sent which error => ⟨fun h => ?_, fun h => ?_⟩, meets_iff,
      fun s id tile g => ⟨fun h => enterRead_joins h id, fun h hq => enterRead_alone h hq id, fun h hq => enterRead_waits h hq id⟩,
      fun s failed bad id tile g x hx => dlvOf_modDlv_self hx fun _ => rfl⟩,
    fun s id x hx h f => pumpGroup_held hx h f, fun s item die dst num k drop x hx => ⟨fun hr => ?_, fun r l hr hl => ?_⟩,
    fun s item x hx => ⟨execStragglerTimeout_idle hx, execStragglerTimeout_detaches hx⟩⟩
  · intro slots
    have hslots : slots = itemSlots s := List.filter_congr fun m _ => by cases firstUndispatched s m <;> rfl
    rw [hslots]
    exact ⟨execDlvItemDispatch_idle, fun n x hu hp hx hk => execDlvItemDispatch_started hu hp hx hk⟩
  · exact congrArg Host.Outcome.next (by simp [h])
  · intro u
    have hexec := execMemReadReturn_eq h port sent which error
    exact ⟨fun hr => hexec.trans (by rw [hr]; rfl), fun r hr => hexec.trans (by rw [hr]; rfl)⟩
  · exact execMcastCreditReturn_none hx hr drop k
  · intro u rs
    obtain rfl : r.dst = dst := creditOf_dst (num := num) (die := die) (List.find?_some hr)
    have hexec : exec (.mcastCreditReturn item die r.dst num drop k) s = _ := execMcastCreditReturn_line hx hr hl drop k
    rw [hexec]
    refine ⟨fun ha => ?_, fun ha hd => ?_, fun ha hd => ?_⟩
    · rw [answer_again hl ha]
      rfl
    · rw [hd, answer_written hl ha]
      rfl
    · rw [hd, answer_dropped hl ha]
      rfl

end Sys2Proof.Machine

/-! The event controller, timers and pins configured. -/

namespace Sys2Proof.Machine

/-! ### Writes that claim a pin or a timer (R343, R344) -/

section
variable {u : State} {i holder : Nat} {data : List Byte} {want : State → Nat → Nat → List Res} {rs : List Res}
  (hw : want u i (leNat data) = rs)
include hw

theorem claimEffect_blocked {h : Nat} (hb : claimBlocked u holder rs = some h) (after : WriteEffect) (via : Via) (k : Nat) :
    claimEffect holder want after via i k data u = dictAbort u via (abortCode 9 h) := by
  simp only [claimEffect, hw, hb]

theorem claimEffect_free (hb : claimBlocked u holder rs = none) (after : WriteEffect) (via : Via) (k : Nat) :
    claimEffect holder want after via i k data u = after via i k data (claim u holder rs) := by
  simp only [claimEffect, hw, hb]

end

theorem leNat_leBytes_of_lt {n v : Nat} (h : v < 256 ^ n) : leNat (leBytes n v) = v := by
  rw [leNat_leBytes, Nat.mod_eq_of_lt h]

/-- The request of a write claims and releases nothing. -/
theorem arriving_claims (s : State) (via : Via) (i k : Nat) (data : List Byte) : (arriving s via i k data).dict.claims = s.dict.claims := by
  have hstart : (startWrite s via i k data).dict.claims = s.dict.claims := by
    unfold startWrite
    split
    · split <;> rfl
    · rfl
  exact (congrArg Dict.claims (traceRec_dict ..)).trans hstart

/-- A write that enables a timer claims it, and 0 releases it (R300, R344, R345). -/
theorem requestWrite_claimTimer {s : State} {via : Via} {i k v : Nat} {want : State → Nat → Nat → List Res} {r : State → Res}
    (hv : v < 256) (ht : Takes s via i k (leBytes 1 v)) (hw : ∀ u, want u i v = if v = 0 then [] else [r u]) (holder : Nat) :
    let u := arriving s via i k (leBytes 1 v)
    let rs := if v = 0 then [] else [r u]
    let t := requestWrite (claimEffect holder want storeEffect) via i k (leBytes 1 v) s
    (∀ h, claimBlocked u holder rs = some h → t = dictAbort u via (abortCode 9 h))
    ∧ (claimBlocked u holder rs = none → t = dictDone (objSet (claim u holder rs) i k v) via) := by
  intro u rs t
  have hn : leNat (leBytes 1 v) = v := leNat_leBytes_of_lt hv
  have hwant : want u i (leNat (leBytes 1 v)) = rs := by rw [hn]; exact hw u
  have ht' : t = claimEffect holder want storeEffect via i k (leBytes 1 v) u := requestWrite_takes ht _
  refine ⟨fun h hb => ht'.trans (claimEffect_blocked hwant hb ..), fun hb => ht'.trans ((claimEffect_free hwant hb ..).trans ?_)⟩
  rw [storeEffect, hn]

theorem pinHeld_arriving (s : State) (via : Via) (i k : Nat) (data : List Byte) (p : Nat) :
    pinHeld (arriving s via i k data) p = pinHeld s p := by
  rw [pinHeld, arriving_claims, pinHeld]

/-- What a write of a pin object asks for (R343). -/
def pinWanted (v : Nat) : List Res := if v = 0xFF then [] else [.pin v]

section
variable {u : State} {k v : Nat} {data : List Byte} (hv : leNat data = v)
include hv

theorem epinEffect_blocked {h : Nat} (hb : claimBlocked u (objKey 0x2040 k) (pinWanted v) = some h) (via : Via) :
    epinEffect via 0x2040 k data u = dictAbort u via (abortCode 9 h) := by
  simp only [epinEffect]
  exact claimEffect_blocked (by simp [pinWanted, hv]) hb ..

/-- An object that held no pin, or keeps the pin it held, leaves every pin as it was. -/
theorem epinEffect_kept (hb : claimBlocked u (objKey 0x2040 k) (pinWanted v) = none)
    (hp : pinHeld u k = none ∨ pinHeld (claim u (objKey 0x2040 k) (pinWanted v)) k = pinHeld u k) (via : Via) :
    epinEffect via 0x2040 k data u = dictDone (objSet (claim u (objKey 0x2040 k) (pinWanted v)) 0x2040 k v) via := by
  simp only [epinEffect]
  refine (claimEffect_free (rs := pinWanted v) (by simp [pinWanted, hv]) hb ..).trans ?_
  cases hu : pinHeld u k with
  | none => simp only [hv]
  | some n =>
    have hkept : pinHeld (claim u (objKey 0x2040 k) (pinWanted v)) k = some n := (hp.resolve_left (by simp [hu])).trans hu
    simp [hv, hkept]

/-- A pin that its object leaves loses its pulse (R430). -/
theorem epinEffect_left {n : Nat} (hb : claimBlocked u (objKey 0x2040 k) (pinWanted v) = none) (hu : pinHeld u k = some n)
    (hp : pinHeld (claim u (objKey 0x2040 k) (pinWanted v)) k ≠ some n) (via : Via) :
    epinEffect via 0x2040 k data u =
      let w := claim u (objKey 0x2040 k) (pinWanted v)
      dictDone (objSet { w with pins := tblSet {} w.pins n {} } 0x2040 k v) via := by
  simp only [epinEffect]
  refine (claimEffect_free (rs := pinWanted v) (by simp [pinWanted, hv]) hb ..).trans ?_
  simp [hv, hu, hp]

end

/-! ### Sources, groups and cores configured (R348, R351, R353) -/

/-- What a write of a group's time asks for (R353). -/
def groupTimer (u : State) (i v : Nat) : List Res := if v = 0 then [] else [.timer (objGet u i 3)]

section
variable {u : State} {data : List Byte} {v : Nat} (hv : leNat data = v)
include hv

theorem evtCfgEffect_settled (he : u.fed.electing = false) (via : Via) (n : Nat) :
    evtCfgEffect via (0x7400 + n) 1 data u =
      let x := srcOf u n
      let y := { x with cfg := v % 2 ^ 22 }
      packageDone (cutShortWith (setSrc u n (if y.enabled = true then y else { y with pending := false }))
        (if x.enabled = false ∧ y.enabled = true ∧ y.latch = true ∧ y.target ≠ 0 then [n] else [])) via (0x7400 + n) 1 data := by
  simp [evtCfgEffect, packageEffect, he, hv, and_assoc]

theorem grpTimeEffect_blocked {h i : Nat} (he : u.fed.electing = false)
    (hb : claimBlocked u (objKey i 3) (groupTimer u i v) = some h) (via : Via) :
    grpTimeEffect via i 2 data u = dictAbort u via (abortCode 9 h) := by
  simp only [grpTimeEffect, packageEffect, he, Bool.false_eq_true, if_false]
  exact claimEffect_blocked (by simp [groupTimer, hv]) hb ..

theorem grpTimeEffect_free {i : Nat} (he : u.fed.electing = false)
    (hb : claimBlocked u (objKey i 3) (groupTimer u i v) = none) (via : Via) :
    grpTimeEffect via i 2 data u = packageDone (objSet (claim u (objKey i 3) (groupTimer u i v)) i 2 v) via i 2 data := by
  simp only [grpTimeEffect, packageEffect, he, Bool.false_eq_true, if_false]
  refine (claimEffect_free (rs := groupTimer u i v) (by simp [groupTimer, hv]) hb ..).trans ?_
  rw [hv]

end

theorem objGet_coreMask (s : State) (via : Via) {c : Nat} (hc : c < 4) (v : Nat) :
    objGet (dictDone (objSet s (0x7600 + c) 1 v) via) (0x7600 + c) 1 = v :=
  (objGet_dictDone _ _ (by revert c; decide)).trans (objGet_objSet_self ..)

/-- A masked core's event line is low (R351). -/
theorem eventLine_masked {s : State} {c : Nat} (h : objGet s (0x7600 + c) 1 ≠ 0) : eventLine s c = false := by
  simp [eventLine, h]

/-- Settles O47: sources, groups and cores take what is written; timers and pins are claimed, released or refused; the watchdog and the
end of a pulse. -/
theorem eventsConfigured : Obligations.EventsConfigured := by
  refine ⟨⟨fun s via n v _ hv ht he => ?_, fun s via g v _ hv ht he => ?_, fun s via c v hc hv ht => ?_⟩,
    fun s c via v i k holder r hv hrow ht => ?_, fun s via k v hv ht => ?_, fun s via v ht => ?_,
    fun s => ⟨fun h => ?_, fun h => ?_, fun p => ⟨_, rfl, tblGet_tblSet_self _ _ _ _, fun q hq => tblGet_tblSet_ne _ _ _ _ _ hq⟩⟩⟩
  · intro x y u
    have hx : exec (.evtCfgWrite via n v) s = .next (evtCfgEffect via (0x7400 + n) 1 (leBytes 4 v) u) :=
      congrArg _ (requestWrite_takes ht evtCfgEffect)
    have he' : u.fed.electing = false := by rw [arriving_fed]; exact he
    have hsrc : srcOf u n = x := srcOf_arriving ..
    rw [hx, evtCfgEffect_settled (leNat_leBytes_of_lt hv) he', hsrc]
  · intro i u rs
    have hx : exec (.evtGrpTimeWrite via g v) s = .next (grpTimeEffect via i 2 (leBytes 4 v) u) :=
      congrArg _ (requestWrite_takes ht grpTimeEffect)
    have he' : u.fed.electing = false := by rw [arriving_fed]; exact he
    have hn : leNat (leBytes 4 v) = v := leNat_leBytes_of_lt hv
    rw [hx]
    exact ⟨fun h hb => congrArg _ (grpTimeEffect_blocked hn he' hb via), fun hb => congrArg _ (grpTimeEffect_free hn he' hb via)⟩
  · have hx : exec (.coreMaskWrite via c v) s = .next (storeEffect via (0x7600 + c) 1 (leBytes 1 v) _) :=
      congrArg _ (requestWrite_takes ht storeEffect)
    rw [storeEffect, leNat_leBytes_of_lt hv] at hx
    have hobj := objGet_coreMask (arriving s via (0x7600 + c) 1 (leBytes 1 v)) via hc v
    exact ⟨_, hx, rfl, hobj, fun h0 => eventLine_masked (by rwa [hobj])⟩
  · intro u rs
    obtain ⟨rfl, rfl, rfl, rfl, rfl⟩ | ⟨rfl, rfl, rfl, rfl, rfl⟩ := hrow
    · obtain ⟨hblocked, hfree⟩ := requestWrite_claimTimer (want := fun s _ v => if v == 0 then [] else [.timer (objGet s 0x6801 5)])
        (r := fun s => .timer (objGet s 0x6801 5)) hv ht (fun u => by simp) (objKey 0x6801 5)
      exact ⟨fun h hb => congrArg Host.Outcome.next (hblocked h hb), fun hb => congrArg Host.Outcome.next (hfree hb)⟩
    · obtain ⟨hblocked, hfree⟩ := requestWrite_claimTimer (want := fun s _ v => if v == 0 then [] else [.timer (objGet s 0x2050 2)])
        (r := fun s => .timer (objGet s 0x2050 2)) hv ht (fun u => by simp) (objKey 0x2050 2)
      exact ⟨fun h hb => congrArg Host.Outcome.next (hblocked h hb), fun hb => congrArg Host.Outcome.next (hfree hb)⟩
  · intro u rs
    have hx : exec (.epinAssignWrite via k v) s = .next (epinEffect via 0x2040 k (leBytes 1 v) u) :=
      congrArg _ (requestWrite_takes ht epinEffect)
    have hn : leNat (leBytes 1 v) = v := leNat_leBytes_of_lt hv
    have hheld : pinHeld u k = pinHeld s k := pinHeld_arriving ..
    rw [hx, ← hheld]
    exact ⟨fun h hb => congrArg _ (epinEffect_blocked hn hb via), fun hb =>
      ⟨fun hp => congrArg _ (epinEffect_kept hn hb hp via), fun n hu hp => congrArg _ (epinEffect_left hn hb hu hp via)⟩⟩
  · exact congrArg _ (requestWrite_takes ht _)
  · exact congrArg Host.Outcome.next (by simp [h])
  · exact congrArg Host.Outcome.next (by simp [h])

end Sys2Proof.Machine

/-! The sequencer: steps, loops, jumps, job lists, the issue and completion of commands, program banks and the root job. -/

namespace Sys2Proof.Machine

/-! ### A step (R316) -/

/-- While HCLK runs, an idle step counts the time base, the stalls, and the wait for an armed bank's swap (R313, R316, R334). -/
theorem idle_running {s : State} (hc : s.boot.hclk = true) (hr : s.boot.inReset = false) :
    let t : State := { s with boot := { s.boot with timeBase := (s.boot.timeBase + 1) % 2 ^ 64 } }
    let u := bumpBy t 0x80F0 0x0F (slotNumbers.countP (stalls s))
    idle s = if s.seq.armed then bump u 0x80F0 0x10 else u :=
  if_neg (by simp [hc, hr])

theorem objGet_idle_stalls {s : State} (hc : s.boot.hclk = true) (hr : s.boot.inReset = false) :
    objGet (idle s) 0x80F0 0x0F = satAdd (objGet s 0x80F0 0x0F) (slotNumbers.countP (stalls s)) := by
  have h : objKey 0x80F0 0x0F ≠ objKey 0x80F0 0x10 := by decide
  rw [idle_running hc hr]
  split
  · rw [objGet_bump_ne _ _ _ h, objGet_bumpBy_self]; rfl
  · rw [objGet_bumpBy_self]; rfl

theorem objGet_idle_swapWait {s : State} (hc : s.boot.hclk = true) (hr : s.boot.inReset = false) :
    objGet (idle s) 0x80F0 0x10 = if s.seq.armed = true then satAdd (objGet s 0x80F0 0x10) 1 else objGet s 0x80F0 0x10 := by
  have h : objKey 0x80F0 0x10 ≠ objKey 0x80F0 0x0F := by decide
  rw [idle_running hc hr]
  split
  · rw [objGet_bump_self, objGet_bumpBy_ne _ _ _ _ h]; rfl
  · rw [objGet_bumpBy_ne _ _ _ _ h]; rfl

/-- Settles O1: a step is the front command's effect, and on an empty queue one HCLK passes where HCLK runs. -/
theorem queueFront : Obligations.QueueFront := by
  refine ⟨fun _ _ _ => rfl, fun s hp => ?_⟩
  have hstep : step s = .next (idle s) := by simp [step, hp]
  refine ⟨fun h => ?_, fun hc hr => ⟨idle s, hstep, ?_, objGet_idle_swapWait hc hr, objGet_idle_stalls hc hr, ?_⟩⟩
  · rw [hstep]
    rcases h with h | h <;> simp [idle, h]
  · rw [idle_running hc hr]
    split <;> rfl
  · rw [idle_running hc hr]
    split <;> exact ⟨rfl, rfl, hp⟩

/-! ### Loops (R320, R327, R329) -/

section
variable {s : State} {n : Nat}

/-- A loop entered right after its fetch (R327). -/
theorem enterLoop_takeCommand (s : State) (n count stop : Nat) :
    enterLoop (takeCommand s n) n count stop = setSlot (fetchGranted s n) n
      (if count = 0 then { slotOf s n with pc := stop + 1, fetched := true, loopRead := none }
       else { slotOf s n with pc := (slotOf s n).pc + 1, fetched := true,
                              loops := { start := (slotOf s n).pc + 1, stop := stop, remaining := count, iter := 0 } :: (slotOf s n).loops
                              loopRead := none }) := by
  rw [enterLoop, modSlot_takeCommand]
  by_cases h : count = 0 <;> simp [h]

/-- The effect of a LOOP on the state its fetch leaves. -/
theorem exec_loop (h : Fetches s n opLoop) :
    let x := slotOf s n
    let w := fetchedWord s n
    let a := x.job.paramBase + wLoopCount w
    exec (.loop n) s = .next (
      if 4 ≤ x.loops.length ∨ wLoopEnd w ≤ x.pc then errFault (takeCommand s n) n 0x0F02
      else if wLoopSrc w = false then enterLoop (takeCommand s n) n (wLoopCount w) (wLoopEnd w)
      else if wLoopCount w % 4 ≠ 0 ∨ 2 ^ 48 < a + 4 then errFault (takeCommand s n) n 0x0F03
      else modSlot (takeCommand s n) n (fun x => { x with loopRead := some { addr := a, stop := wLoopEnd w } })) := by
  refine congrArg Host.Outcome.next ((fetchAs_of h _).trans ?_)
  simp

theorem exec_endloop (h : Fetches s n opEndloop) :
    exec (.endloop n) s = .next (match (slotOf s n).loops with
      | [] => errFault (takeCommand s n) n 0x0F02
      | l :: rest =>
        if l.stop ≠ (slotOf s n).pc then errFault (takeCommand s n) n 0x0F02
        else if 1 < l.remaining then modSlot (takeCommand s n) n (fun x =>
          { x with pc := l.start, loops := { l with remaining := l.remaining - 1, iter := l.iter + 1 } :: rest })
        else modSlot (takeCommand s n) n (fun x => { x with loops := rest })) := by
  refine congrArg Host.Outcome.next ((fetchAs_of h _).trans ?_)
  simp only [slotOf_takeCommand]
  cases (slotOf s n).loops <;> simp

/-- The memory count of a LOOP returns without poison (R327). -/
theorem exec_loopCountReturn {r : LoopRead} (h : (slotOf s n).loopRead = some r) (hp : memPoisoned s r.addr 4 = false) :
    exec (.loopCountReturn n) s = .next (enterLoop s n (memNat s r.addr 4) r.stop) :=
  congrArg Host.Outcome.next (by simp [h, readMem_clean hp, leNat_memBytes])

end

/-- Settles O9: a LOOP is entered, asks for its count or faults; its count is latched; an ENDLOOP goes round, leaves or faults. -/
theorem loopsRun : Obligations.LoopsRun := by
  refine ⟨fun s n h => ⟨fun h1 h2 h3 => ?_, fun h1 h2 h3 h4 h5 => ?_, fun h1 h2 h3 h4 => ?_, fun h1 => ?_⟩, fun s n r hr hp => ?_,
    fun s n h => ⟨fun l rest hl hs => ?_, fun hl => ?_⟩⟩
  · rw [exec_loop h, if_neg (by omega), if_pos h3, enterLoop_takeCommand]
    rfl
  · rw [exec_loop h, if_neg (by omega), if_neg (by simp [h3]), if_neg (by omega), modSlot_takeCommand]
    rfl
  · rw [exec_loop h, if_neg (by omega), if_neg (by simp [h3]), if_pos h4]
  · rw [exec_loop h, if_pos h1]
  · rw [exec_loopCountReturn hr hp, enterLoop, modSlot]
    by_cases h0 : memNat s r.addr 4 = 0 <;> simp [h0]
  · rw [exec_endloop h, hl]
    by_cases h1 : 1 < l.remaining <;> simp [hs, h1, modSlot_takeCommand, fetchGranted]
  · rw [exec_endloop h]
    cases hc : (slotOf s n).loops with
    | nil => rfl
    | cons l rest => simp [hl l (by simp [hc])]

/-! ### JUMP, SWITCH and HALT (R309, R313, R320, R327) -/

section
variable {s : State} {n : Nat}

/-- A target outside the innermost open loop. -/
def LeavesLoop (x : Slot) (target : Nat) : Prop := ∃ l, x.loops.head? = some l ∧ (target < l.start ∨ l.stop < target)

theorem exec_jump_inside (h : Fetches s n opJump) (hl : ¬ LeavesLoop (slotOf s n) (wTarget (fetchedWord s n))) :
    exec (.jump n) s = .next (modSlot (takeCommand s n) n (fun x => { x with pc := wTarget (fetchedWord s n) })) := by
  refine congrArg Host.Outcome.next ((fetchAs_of h _).trans ?_)
  simp only [slotOf_takeCommand]
  cases hc : (slotOf s n).loops with
  | nil => rfl
  | cons l rest =>
    have hi : l.start ≤ wTarget (fetchedWord s n) ∧ wTarget (fetchedWord s n) ≤ l.stop := by
      simp only [LeavesLoop, hc, List.head?_cons, Option.some.injEq, exists_eq_left'] at hl
      omega
    simp [hi]

theorem exec_jump_outside (h : Fetches s n opJump) (hl : LeavesLoop (slotOf s n) (wTarget (fetchedWord s n))) :
    exec (.jump n) s = .next (errFault (takeCommand s n) n 0x0F02) := by
  refine congrArg Host.Outcome.next ((fetchAs_of h _).trans ?_)
  obtain ⟨l, hh, hl⟩ := hl
  simp only [slotOf_takeCommand]
  cases hc : (slotOf s n).loops with
  | nil => simp [hc] at hh
  | cons l' rest =>
    obtain rfl : l' = l := by simpa [hc] using hh
    refine if_neg ?_
    simp only [Bool.and_eq_true, decide_eq_true_eq]
    omega

theorem exec_switch (h : Fetches s n opSwitch) : exec (.switch n) s = .next (
    if (slotOf s n).loops ≠ [] then errFault (takeCommand s n) n 0x0F02
    else if s.seq.armed then modSlot (takeCommand s n) n (fun x => { x with state := .parked, target := wTarget (fetchedWord s n) })
    else modSlot (takeCommand s n) n (fun x => { x with pc := wTarget (fetchedWord s n) })) := by
  refine congrArg Host.Outcome.next ((fetchAs_of h _).trans ?_)
  have ha : (takeCommand s n).seq = s.seq := rfl
  simp [ha]

theorem exec_halt (h : Fetches s n opHalt) : exec (.halt n) s = .next (
    releaseUntaken (((s.net.stages.filter (fun i => i.slot == n)).map (·.cmd)).foldl
      (fun v c => stageEnds (modStage v c (fun i => { i with stopped := true })) c)
      (modSlot (takeCommand s n) n (fun x => { x with state := .halted }))) n) :=
  congrArg Host.Outcome.next (fetchAs_of h _)

/-- A slot whose containers are all open or taken gives none up. -/
theorem releaseUntaken_none (h : ∀ m ∈ s.net.msgs, m.jobSlot = n → m.kind = 0 → m.opn = false → m.stage ≠ none) : releaseUntaken s n = s := by
  have he : s.net.msgs.filter (fun m => m.jobSlot == n && m.kind == 0 && !m.opn && m.stage.isNone) = [] := by
    refine List.filter_eq_nil_iff.mpr fun m hm => ?_
    simpa using h m hm
  simp [releaseUntaken, he]

end

/-- Settles O10: JUMP and SWITCH go to their targets, park or fault; HALT stops the slot's stages and gives up its containers. -/
theorem jumpSwitchHalt : Obligations.JumpSwitchHalt := by
  refine fun s n => ⟨fun h => ⟨fun hl => ?_, fun hl => exec_jump_outside h hl⟩, fun h => ⟨fun hl => ?_, fun hl => ?_⟩, fun h => ⟨?_, fun hs hm => ?_⟩⟩
  · rw [exec_jump_inside h (fun ⟨l, hh, ho⟩ => by have := hl l hh; omega), modSlot_takeCommand]
    rfl
  · rw [exec_switch h, if_neg (not_not.mpr hl)]
    split <;> exact congrArg Host.Outcome.next (modSlot_takeCommand ..)
  · rw [exec_switch h, if_pos hl]
  · rw [exec_halt h, modSlot_takeCommand]
    rfl
  · have he : s.net.stages.filter (fun i => i.slot == n) = [] := List.filter_eq_nil_iff.mpr fun i hi => by simpa using hs i hi
    rw [exec_halt h, he, modSlot_takeCommand]
    exact congrArg Host.Outcome.next (releaseUntaken_none hm)

/-! ### FETCHLIST and the returns of its reads (R304) -/

section
variable {s : State} {n : Nat}

theorem objGet_takeCommand (s : State) (n i k : Nat) (h : objKey i k ≠ objKey 0x80F0 0x0E) : objGet (takeCommand s n) i k = objGet s i k :=
  objGet_bump_ne _ _ _ h

/-- The effect of a FETCHLIST on the state its fetch leaves. -/
theorem exec_fetchlist (h : Fetches s n opFetchlist) :
    let x := slotOf s n
    let w := fetchedWord s n
    exec (.fetchlist n) s = .next (
      if x.job.admitter = false then errFault (takeCommand s n) n 0x0F05
      else if homeDie x.job.stripe ≠ dieId s ∨ objGet s (0x7020 + wList w) 2 = 0 then takeCommand s n
      else modSlot (takeCommand s n) n (fun x =>
        { x with listRead := some { list := wList w, max := wListMax w, producer := none, admitted := 0 } })) := by
  intro x w
  refine congrArg Host.Outcome.next ((fetchAs_of h _).trans ?_)
  have hd : dieId (takeCommand s n) = dieId s := rfl
  have ho : objGet (takeCommand s n) (0x7020 + wList w) 2 = objGet s (0x7020 + wList w) 2 :=
    objGet_takeCommand s n _ _ (by unfold objKey; omega)
  simp [isHome, hd, ho, x, w]

section
variable {r : ListRead} (hr : (slotOf s n).listRead = some r)
include hr

/-- The producer count of a list returns without poison. -/
theorem exec_joblistRecordReturn_count (hp : r.producer = none) (hm : memPoisoned s (objGet s (0x7020 + r.list) 3) 8 = false) (e : Elsewhere) :
    let p := memNat s (objGet s (0x7020 + r.list) 3) 8
    exec (.joblistRecordReturn n e) s = .next (
      if listGoesOn s r p then modSlot s n (fun x => { x with listRead := some { r with producer := some p } }) else endList s n) :=
  congrArg Host.Outcome.next (by simp [hr, hp, readMem_clean hm, leNat_memBytes])

/-- An admission record of a list that goes on returns without poison. -/
theorem exec_joblistRecordReturn_record {p : Nat} (hp : r.producer = some p) (hg : listGoesOn s r p = true)
    {addr : Nat} (ha : objGet s (0x7020 + r.list) 1 + 256 * (objGet s (0x7020 + r.list) 4 % objGet s (0x7020 + r.list) 2) = addr)
    (hm : memPoisoned s addr 256 = false) (e : Elsewhere) :
    let b := memBytes s addr 256
    exec (.joblistRecordReturn n e) s = .next (match freeSlot s (admissionOf b).stripe e with
      | none => endList s n
      | some m =>
        let t := bump (enterJob s b (admissionOf b) addr false e m).2 (0x7020 + r.list) 4
        let r' := { r with admitted := r.admitted + 1 }
        if listGoesOn t r' p then modSlot t n (fun x => { x with listRead := some r' }) else endList t n) := by
  refine congrArg Host.Outcome.next ?_
  simp only [hr, hp, hg, ha, readMem_clean hm, Bool.not_true, Bool.false_eq_true, if_false] <;> rfl

end
end

/-- Settles O12: a FETCHLIST asks for its list, has no effect or faults; its count starts or ends it; each record is admitted into the
lowest free slot. -/
theorem jobListsAdmit : Obligations.JobListsAdmit := by
  refine ⟨fun s n h => ⟨fun ha hh he => ?_, fun ha hh => ?_, fun ha => ?_⟩, fun s n e r hr => ⟨fun hp hm => ?_, fun p hp hg => ?_⟩⟩
  · rw [exec_fetchlist h, if_neg (by simp [ha]), if_neg (by simp [hh, he]), modSlot_takeCommand]
    rfl
  · rw [exec_fetchlist h, if_neg (by simp [ha]), if_pos hh]
  · rw [exec_fetchlist h, if_pos ha]
  · rw [exec_joblistRecordReturn_count hr hp hm]
    exact congrArg Host.Outcome.next (apply_ite (setSlot s n) _ _ _).symm
  · intro addr hm
    have hx := exec_joblistRecordReturn_record hr hp hg rfl hm e
    refine ⟨fun hf => ?_, fun m hf => ?_⟩
    · rw [hx, hf]
      rfl
    · rw [hx, hf]
      dsimp only
      split <;> rfl

/-! ### COMMAND_ISSUE (R317, R320, R321, R412, R414, R415) -/

/-- The state in which an issued command goes on: it is marked issued, and traced (R419). -/
def issuedState (s : State) (c : Cmd) : State :=
  traceRec (modCmd s c.id (fun c => { c with issued := true })) 1 0 c.slot (wOpcode c.word) (wTag c.word) c.index

/-- The entry that a work command's wait for FULL brings it (R20). -/
def grantedEntry (s : State) (c : Cmd) : Option LinkEntry × State :=
  if !isStage (wOpcode c.word) && wWaitEn c.word && wWaitFull c.word then takeEntry s (wWaitLink c.word) else (none, s)

theorem grantedEntry_eq (s : State) (c : Cmd) : grantedEntry s c =
    if isStage (wOpcode c.word) = false ∧ wWaitEn c.word = true ∧ wWaitFull c.word = true then takeEntry s (wWaitLink c.word) else (none, s) := by
  simp only [grantedEntry, Bool.and_eq_true, Bool.not_eq_true', and_assoc]

theorem takeEntry_frame (s : State) (p : Nat) :
    (takeEntry s p).2.mem = s.mem ∧ (takeEntry s p).2.slots = s.slots := by
  unfold takeEntry
  split <;> exact ⟨rfl, rfl⟩

theorem grantedEntry_frame (s : State) (c : Cmd) :
    (grantedEntry s c).2.mem = s.mem ∧ (grantedEntry s c).2.slots = s.slots := by
  unfold grantedEntry
  split
  · exact takeEntry_frame ..
  · exact ⟨rfl, rfl⟩

theorem blockAddr_congr {s t : State} (h : t.slots = s.slots) (c : Cmd) : blockAddr t c = blockAddr s c := by
  simp only [blockAddr, slotOf, h]

theorem issueCmd_timeWait {s : State} {c : Cmd} (ho : wOpcode c.word = opWait) (hk : wWaitKind c.word = 2) :
    issueCmd s c = issuedState s c := by
  simp [issueCmd, issuedState, ho, hk]

theorem issueCmd_noWork {s : State} {c : Cmd} (hw : isWork (wOpcode c.word) = false) (hk : wOpcode c.word = opWait → wWaitKind c.word ≠ 2) :
    issueCmd s c = finishCmd (issuedState s c) c.id 0 1 0 := by
  have hk' : (wOpcode c.word == opWait && wWaitKind c.word == 2) = false := by
    simpa using hk
  simp [issueCmd, issuedState, hw, hk']

/-- A work command takes its entry and reads its block; one whose offset or reach is invalid is refused (R321). -/
theorem issueCmd_work {s : State} {c : Cmd} (hw : isWork (wOpcode c.word) = true) :
    let taken := grantedEntry (issuedState s c) c
    let a := blockAddr s c
    let n := blockBytes (wOpcode c.word)
    issueCmd s c = if wOffset c.word % 64 ≠ 0 ∨ 2 ^ 48 < a + n then refuseBlock taken.2 c
      else issueWork (readMem taken.2 c.slot a n).2 c (readMem taken.2 c.slot a n).1 taken.1 := by
  intro taken a n
  have ho : (wOpcode c.word == opWait) = false := by
    refine beq_eq_false_iff_ne.mpr fun e => ?_
    rw [e] at hw
    exact absurd hw (by decide)
  have ha : blockAddr taken.2 c = a :=
    blockAddr_congr ((grantedEntry_frame ..).2.trans (traceRec_slots ..)) c
  have he : issueCmd s c = match readBlock taken.2 c with
      | (none, s) => refuseBlock s c
      | (some b, s) => issueWork s c b taken.1 := by
    unfold issueCmd
    simp only [hw, ho, Bool.false_and, Bool.not_true, Bool.false_eq_true, if_false]
    change (match taken with | (entry, t) => match readBlock t c with
      | (none, s) => refuseBlock s c
      | (some b, s) => issueWork s c b entry) = _
    rfl
  rw [he, readBlock, ha]
  by_cases hb : wOffset c.word % 64 ≠ 0 ∨ 2 ^ 48 < a + n
  · have hb' : (wOffset c.word % 64 != 0 || decide (2 ^ 48 < a + n)) = true := by simpa using hb
    simp only [hb', if_true, if_pos hb, n]
  · have hb' : (wOffset c.word % 64 != 0 || decide (2 ^ 48 < a + n)) = false := by simpa using hb
    simp only [hb', Bool.false_eq_true, if_false, if_neg hb, n]

section
variable {s : State} (hu : unitsWork s = true)
include hu

theorem exec_commandIssue_waits {n q : Nat} {c : Cmd} (hc : nextUnissued s n q = some c) (hg : needsGrant c = true ∧ c.granted = false) :
    exec (.commandIssue n q 0) s = .next s :=
  congrArg Host.Outcome.next (by simp [hu, hc, hg])

theorem exec_commandIssue {n q : Nat} {c : Cmd} (hc : nextUnissued s n q = some c) (hg : needsGrant c = true → c.granted = true) :
    exec (.commandIssue n q 0) s = .next (askNext (issueCmd s c) n q) := by
  have hg' : (needsGrant c && !c.granted) = false := by simpa using hg
  exact congrArg Host.Outcome.next (by simp [hu, hc, hg'])

theorem exec_commandIssue_slotError {n : Nat} (hb : slotBusy s n = true) (q : Nat) :
    exec (.commandIssue n q 1) s = .next (errFault (lastBadOther s) n 0x1204) :=
  congrArg Host.Outcome.next (by simp [hu, hb])

theorem exec_commandIssue_pairError {p : Nat} (hp : p < 256) (n q : Nat) :
    exec (.commandIssue n q (2 + p)) s = .next (pairError s p) := by
  refine congrArg Host.Outcome.next ?_
  simp [hu, show ¬ 258 ≤ 2 + p by omega]

theorem exec_commandIssue_fatal (k n q : Nat) : exec (.commandIssue n q (258 + k)) s = .next (fatalError s k) :=
  congrArg Host.Outcome.next (by simp [hu])

end

/-- A read of a poisoned range raises its error, and its bytes are unstated (R412). -/
theorem readMem_poisoned {s : State} {a n : Nat} (h : memPoisoned s a n = true) (slot : Nat) :
    (readMem s slot a n).2 = (reserveFree (memError s slot (lastPoisoned s a n)) n).2 := by
  simp [readMem, readChecked, h, reserveFree]

theorem lastPoisoned_congr {s t : State} (h : t.mem = s.mem) (a n : Nat) : lastPoisoned t a n = lastPoisoned s a n := by
  unfold lastPoisoned granulePoisoned
  rw [h]

theorem refuseBlock_plain {s : State} {c : Cmd} (hd : wOpcode c.word ≠ opDeliver) (hk : wOpcode c.word ≠ opKeyStream) :
    refuseBlock s c = errFault (finishCmd s c.id 0x0F03 1 0) c.slot 0x0F03 := by
  simp [refuseBlock, hd, hk, refuseIssue, refuseItem]

/-- Settles O13: a command waits for its grant, has finished with its issue, or takes its entry and its block; errors met at the issue. -/
theorem commandsIssue : Obligations.CommandsIssue := by
  refine ⟨fun s n q c hu hc => ⟨exec_commandIssue_waits hu hc, fun hg => ?_⟩, fun s n q hu =>
    ⟨fun hb => exec_commandIssue_slotError hu hb q, fun p hp => exec_commandIssue_pairError hu hp n q, fun k => exec_commandIssue_fatal hu k n q⟩⟩
  have hx := exec_commandIssue hu hc hg
  refine ⟨fun ho hk => ?_, fun ho hk => ?_, fun ho => ?_, fun hw => ?_, fun hd hk w => refuseBlock_plain hd hk, fun w p hl => ?_, fun w p e rest hl => ?_⟩
  · rw [hx, issueCmd_timeWait ho hk]
    rfl
  · rw [hx, issueCmd_noWork (by rw [ho]; rfl) (fun _ => hk)]
    rfl
  · rw [hx, issueCmd_noWork (by rw [ho]; rfl) (fun h => absurd (ho.symm.trans h) (by decide))]
    rfl
  · intro taken block
    have htaken : grantedEntry (issuedState s c) c = taken := grantedEntry_eq ..
    have hmem : taken.2.mem = s.mem := by
      rw [← htaken]
      exact (grantedEntry_frame ..).1.trans (traceRec_mem ..)
    have hpois : ∀ a n, memPoisoned taken.2 a n = memPoisoned s a n := memPoisoned_congr hmem
    have hwork := issueCmd_work (s := s) hw
    refine ⟨fun h1 h2 => ?_, fun h => ?_, fun h => ?_, fun h => ?_⟩
    · have hfit : ¬ (wOffset c.word % 64 ≠ 0 ∨ 2 ^ 48 < blockAddr s c + blockBytes (wOpcode c.word)) :=
        not_or.mpr ⟨not_not.mpr h1, Nat.not_lt.mpr h2⟩
      rw [hx, hwork, if_neg hfit, htaken]
      rfl
    · refine (readMem_clean ((hpois ..).trans h) _).trans ?_
      rw [memBytes, hmem]
      rfl
    · rw [← lastPoisoned_congr hmem]
      exact readMem_poisoned ((hpois ..).trans h) _
    · have hbad : wOffset c.word % 64 ≠ 0 ∨ 2 ^ 48 < blockAddr s c + blockBytes (wOpcode c.word) := h
      rw [hx, hwork, if_pos hbad, htaken]
  · simp [takeEntry, hl]
  · simp [takeEntry, hl]

/-! ### COMMAND_COMPLETE and WAIT_TIME_EXPIRY (R317, R318, R320, R326) -/

theorem writeRecord_cmds (s : State) (q : Nat) (b : List Byte) : (writeRecord s q b).cmds = s.cmds := by
  unfold writeRecord
  dsimp only
  split <;> rfl

/-- The commands that stay in the queues when one completes. -/
def cmdsBut (s : State) (c : Cmd) : List Cmd := s.cmds.filter (fun d => d.id != c.id)

/-- The trace record of a completion is queued (R419). -/
def completionTraced (s : State) (c : Cmd) : State := traceRec s 2 0 c.slot c.status (wTag c.word) c.index

/-- A work command's record is written and its entry released (R317, R318). -/
def recordWritten (s : State) (c : Cmd) : State :=
  let u := completionTraced s c
  { writeRecord u c.queue (match c.report with
      | some r => dlvRecord u.boot.timeBase r
      | none => workRecord u c) with cmds := cmdsBut s c }

section
variable {s : State} {c : Cmd}

theorem completeCmd_wait (ho : wOpcode c.word = opWait) : completeCmd s c = { completionTraced s c with cmds := cmdsBut s c } := by
  have hw : isWork opWait = false := rfl
  have hs : (opWait == opSignal) = false := rfl
  simp [completeCmd, ho, hw, hs, completionTraced, cmdsBut]

theorem completeCmd_signal (ho : wOpcode c.word = opSignal) :
    completeCmd s c = semSignal { completionTraced s c with cmds := cmdsBut s c } (wSemLink c.word) (wSemFull c.word) c.slot := by
  have hw : isWork opSignal = false := rfl
  simp [completeCmd, ho, hw, completionTraced, cmdsBut]

theorem completeCmd_work (hw : isWork (wOpcode c.word) = true) :
    completeCmd s c =
      if isStage (wOpcode c.word) = false ∧ wSigEn c.word = true then
        semSignal (match c.output with
          | some e => if wSigFull c.word then pushEntry (recordWritten s c) (wSigLink c.word) e else recordWritten s c
          | none => recordWritten s c) (wSigLink c.word) (wSigFull c.word) c.slot
      else recordWritten s c := by
  have ho : (wOpcode c.word == opSignal) = false := by
    refine beq_eq_false_iff_ne.mpr fun e => ?_
    rw [e] at hw
    exact absurd hw (by decide)
  have hr : recordWritten s c = (let u := completionTraced s c
      let v := match c.report with
        | some r => writeRecord u c.queue (dlvRecord u.boot.timeBase r)
        | none => writeRecord u c.queue (workRecord u c)
      { v with cmds := v.cmds.filter (fun d => d.id != c.id) }) := by
    unfold recordWritten cmdsBut
    cases c.report <;> simp [writeRecord_cmds, completionTraced]
  rw [hr]
  simp only [completeCmd, hw, ho, completionTraced, Bool.not_true, Bool.false_eq_true, if_false, Bool.true_and, Bool.and_eq_true,
    Bool.not_eq_true'] <;> rfl

/-- A barrier waits for every earlier command of its slot in the queues of its mask (R320). -/
theorem barrierHolds_iff : barrierHolds s c = true ↔
    ∀ d ∈ s.cmds, d.slot = c.slot → d.id < c.id → (wWaitArg c.word).testBit d.queue = false := by
  simp [barrierHolds]

variable {n q : Nat} (hf : firstCmd s n q = some c) (hi : c.issued = true) (hd : c.done = true)
include hf hi hd

theorem exec_commandComplete (h : wOpcode c.word = opWait → wWaitKind c.word ≠ 1) :
    exec (.commandComplete n q) s = .next (completeCmd s c) := by
  have hc : completes s c = true := by
    by_cases ho : wOpcode c.word = opWait
    · simp [completes, hi, hd, ho, h ho]
    · simp [completes, hi, hd, ho]
  exact congrArg Host.Outcome.next (by simp [hf, hc])

theorem exec_commandComplete_barrier (ho : wOpcode c.word = opWait) (hk : wWaitKind c.word = 1) :
    exec (.commandComplete n q) s = .next (if barrierHolds s c = true then completeCmd s c else s) := by
  have hc : completes s c = barrierHolds s c := by simp [completes, hi, hd, ho, hk]
  exact congrArg Host.Outcome.next (by simp [hf, hc])

end

/-- Settles O14: a command completes in its turn, a barrier after what it waits for, a work command with its record and its signal. -/
theorem commandCompletes : Obligations.CommandCompletes := by
  refine fun s n q => ⟨fun c hf hi hd => ⟨fun ho hk => ?_, fun ho hk => ?_, fun ho => ?_, fun hw => ?_⟩, fun c hf => ?_⟩
  · rw [exec_commandComplete hf hi hd (fun _ => hk), completeCmd_wait ho]
    rfl
  · rw [exec_commandComplete_barrier hf hi hd ho hk, completeCmd_wait ho]
    simp only [barrierHolds_iff]
    rfl
  · rw [exec_commandComplete hf hi hd (fun h => absurd (ho.symm.trans h) (by decide)), completeCmd_signal ho]
    rfl
  · have hx := exec_commandComplete hf hi hd (fun h => by rw [h] at hw; exact absurd hw (by decide))
    refine ⟨fun h => ?_, fun hst hsig => ⟨fun h => ?_, fun e he hfull => ?_⟩⟩
    · rw [hx, completeCmd_work hw, if_neg (by rcases h with h | h <;> simp [h])]
      rfl
    · rw [hx, completeCmd_work hw, if_pos ⟨hst, hsig⟩]
      rcases h with h | h
      · rw [h]
        rfl
      · cases c.output <;> simp only [h, Bool.false_eq_true, if_false] <;> rfl
    · rw [hx, completeCmd_work hw, if_pos ⟨hst, hsig⟩, he]
      simp only [hfull, if_true]
      rfl
  · exact congrArg Host.Outcome.next (by simp [hf, finishCmd])

/-! ### Program banks (R311 to R313) -/

theorem allParked_iff (s : State) : allParked s = true ↔ ∀ e ∈ s.slots, e.2.state ≠ .running := by
  simp [allParked]

/-- The banks once swapped (R313). -/
def banksSwapped (s : State) : State :=
  resumeParked { s with seq := { s.seq with active := 1 - s.seq.active, armed := false } }

theorem slotOf_banksSwapped (s : State) {n : Nat} (hn : n < 64) : slotOf (banksSwapped s) n =
    if (slotOf s n).state = .parked then { slotOf s n with state := .running, pc := (slotOf s n).target } else slotOf s n := by
  refine (slotOf_resumeParked _ n).trans ?_
  simp only [hn, true_and]
  rfl

theorem exec_bankSwap_idle {s : State} (h : s.seq.armed = false ∨ ∃ e ∈ s.slots, e.2.state = .running) : exec .bankSwap s = .next s := by
  refine congrArg Host.Outcome.next (if_neg ?_)
  rw [Bool.and_eq_true, allParked_iff]
  rintro ⟨ha, hp⟩
  rcases h with h | ⟨e, he, hr⟩
  · simp [h] at ha
  · exact hp e he hr

theorem exec_bankSwap {s : State} (ha : s.seq.armed = true) (hp : ∀ e ∈ s.slots, e.2.state ≠ .running) :
    exec .bankSwap s = .next (fire (banksSwapped s) 6 0) :=
  congrArg Host.Outcome.next (if_pos (Bool.and_eq_true_iff.mpr ⟨ha, (allParked_iff s).mpr hp⟩))

section
variable {u : State} (he : u.fed.electing = false) (via : Via)
include he

theorem progBankEffect_active {bank : Nat} (hb : u.seq.active = bank) (data : List Byte) :
    progBankEffect bank via 0x7001 (bank + 1) data u = dictAbort (raiseErr u 0x0F06 63) via (abortCode 0x20 0x0F06) := by
  simp [progBankEffect, packageEffect, he, hb]

theorem progBankEffect_inactive {bank : Nat} (hb : u.seq.active ≠ bank) (data : List Byte) :
    progBankEffect bank via 0x7001 (bank + 1) data u = packageDone (storeBank (disarm u) bank data) via 0x7001 (bank + 1) data := by
  simp [progBankEffect, packageEffect, he, hb]

theorem progArmEffect_eq {data : List Byte} {v : Nat} (hv : leNat data = v) :
    progArmEffect via 0x7000 3 data u =
      if v ≠ bankCrc u (1 - u.seq.active) then dictAbort (raiseErr u 0x0F07 63) via (abortCode 0x20 0x0F07)
      else if via ≠ .link ∧ otherDies u = [] then dictDone (arm u) via
      else packageDone (keep u 0x7000 .arm) via 0x7000 3 data := by
  simp [progArmEffect, packageEffect, he, hv]

end

/-- The CRC of the bank that is not active (R312). -/
theorem bankCrc_inactive {s : State} (h : s.seq.active < 2) :
    bankCrc s (1 - s.seq.active) = crc32c (cellsGet (if s.seq.active = 1 then s.mem.bank0 else s.mem.bank1) 0 65536) := by
  obtain h | h : s.seq.active = 0 ∨ s.seq.active = 1 := by omega
  all_goals simp [bankCrc, h]

/-- Settles O19: the banks swap when none runs, the inactive one is written and disarmed, and armed by its own CRC. -/
theorem programBanks : Obligations.ProgramBanks := by
  refine ⟨fun s => ⟨fun ha hp => ⟨_, exec_bankSwap ha hp, ?_, fun n hn => ?_, (fire_latch ..).1⟩, exec_bankSwap_idle⟩, fun s via bank data ht he => ?_,
    fun s via crc ht he hc => ?_⟩
  · simp [banksSwapped]
  · rw [slotOf_fire, slotOf_banksSwapped s hn]
  · intro u
    have hx : exec (.progBankWrite via bank data) s = .next (progBankEffect bank via 0x7001 (bank + 1) data u) :=
      congrArg _ (requestWrite_takes ht (progBankEffect bank))
    have he' : u.fed.electing = false := by rw [arriving_fed]; exact he
    have hseq : u.seq = s.seq := arriving_seq ..
    obtain ⟨hs, hm, hn⟩ := disarm_spec u
    have hmem : (disarm u).mem = s.mem := hm.trans (arriving_mem ..)
    refine ⟨fun hb => ?_, fun hb => ⟨storeBank (disarm u) bank data, ?_, ?_, fun n hn' => ?_, fun h0 => ?_, fun h0 => ?_, fun h0 => ?_⟩⟩
    · rw [hx, progBankEffect_active he' via (hseq ▸ hb)]
    · rw [hx, progBankEffect_inactive he' via (hseq ▸ hb)]
    · rw [← hseq]
      exact hs
    · refine (hn n hn').trans ?_
      rw [hseq, slotOf_arriving]
    · rw [← hmem]
      exact if_pos (by simp [h0])
    · rw [← hmem]
      exact if_neg (by simp [h0])
    · subst h0
      exact cellsGet_cellsSet ..
  · intro u held ha
    have hx : exec (.progArm via crc) s = .next (progArmEffect via 0x7000 3 (leBytes 4 crc) u) :=
      congrArg _ (requestWrite_takes ht progArmEffect)
    have he' : u.fed.electing = false := by rw [arriving_fed]; exact he
    have hb : bankCrc u (1 - u.seq.active) = held := by
      rw [bankCrc_inactive (by rw [arriving_seq]; exact ha), arriving_seq, arriving_mem]
    have ho : otherDies u = otherDies s := otherDies_arriving ..
    have hseq : u.seq = s.seq := arriving_seq ..
    rw [hx, progArmEffect_eq he' via (leNat_leBytes_of_lt hc), hb, ho]
    refine ⟨fun h hl ho => ?_, fun h hl => ?_, fun h => ?_⟩
    · rw [if_neg (not_not.mpr h), if_pos ⟨hl, ho⟩, ← hseq]
      rfl
    · rw [if_neg (not_not.mpr h), if_neg (fun ⟨h1, h2⟩ => hl.elim h1 (· h2))]
    · rw [if_pos h]

/-! ### ROOT_START (R304, R306) -/

theorem rootRunning_here {s : State} {n : Nat} (hr : s.seq.rootSlot = some n) (ha : s.seq.rootAway = none) (h : (slotOf s n).root = true)
    (hb : slotBusy s n = true) (e : Elsewhere) : rootRunning s e = some n := by
  simp [rootRunning, hr, ha, h, hb]

theorem rootRunning_away {s : State} {n a : Nat} {e : Elsewhere} (hr : s.seq.rootSlot = some n) (ha : s.seq.rootAway = some a)
    (h : e.busy.testBit n = true) (hm : memNat s a 1 = 1) : rootRunning s e = some n := by
  simp [rootRunning, hr, ha, h, hm]

theorem rootRunning_arriving (s : State) (via : Via) (i k : Nat) (data : List Byte) (e : Elsewhere) :
    rootRunning (arriving s via i k data) e = rootRunning s e := by
  simp only [rootRunning, arriving_seq, slotOf_arriving, slotBusy_arriving, memNat_arriving]

theorem freeSlot_arriving (s : State) (via : Via) (i k : Nat) (data : List Byte) (stripe : Nat) (e : Elsewhere) :
    freeSlot (arriving s via i k data) stripe e = freeSlot s stripe e := by
  simp only [freeSlot, dieId_arriving, slotBusy_arriving]

theorem admissionStopped_arriving (s : State) (via : Via) (i k : Nat) (data : List Byte) :
    admissionStopped (arriving s via i k data) = admissionStopped s := by
  simp only [admissionStopped, arriving_removal, arriving_boot]

/-- Bytes just written read back. -/
theorem memBytes_memWrite_self (s : State) (a : Nat) (b : List Byte) : memBytes (memWrite s a b) a b.length = b := cellsGet_cellsSet ..

theorem enterJob_refused {s : State} {b : List Byte} {a : Admission} {e : Elsewhere} (h : admitCode s b a e ≠ 0) (addr : Nat) (root : Bool) (n : Nat) :
    enterJob s b a addr root e n =
      (admitCode s b a e, writeRecordState (raiseRefusal s (admitCode s b a e)) addr 0 (admitCode s b a e) 2) := by
  simp [enterJob, h]

/-- The root job's slot is kept, and the address of its record where its stripe leaves this die out. -/
def holdRoot (s : State) (n : Nat) (away : Option Nat) : State := { s with seq := { s.seq with rootSlot := some n, rootAway := away } }

theorem slotOf_holdRoot (s : State) (n : Nat) (away : Option Nat) (j : Nat) : slotOf (holdRoot s n away) j = slotOf s j := rfl
theorem poolOf_holdRoot (s : State) (n : Nat) (away : Option Nat) (p : Nat) : poolOf (holdRoot s n away) p = poolOf s p := rfl

section
variable {u : State} {e : Elsewhere} (via : Via) (data : List Byte)

theorem rootStartEffect_running {n : Nat} (h : rootRunning u e = some n) :
    rootStartEffect e via 0x7000 5 data u = dictAbort u via (abortCode 8 (objDetail (0x7200 + n) 1)) := by
  simp [rootStartEffect, h]

variable (hr : rootRunning u e = none)
include hr

theorem rootStartEffect_stopped (hs : admissionStopped u = true) :
    rootStartEffect e via 0x7000 5 data u =
      dictAbort u via (abortCode 8 (if u.removal.state ≠ 0 then objDetail 0x1100 2 else objDetail 0x7000 5)) := by
  simp [rootStartEffect, hr, hs, stoppedDetail]

/-- A record that is read clean, with a slot free for its job, is refused or becomes the root job. -/
theorem rootStartEffect_enters (hs : admissionStopped u = false) {addr : Nat} (ha : objGet u 0x7000 4 = addr) (hm : memPoisoned u addr 256 = false)
    {n : Nat} (hf : freeSlot u (admissionOf (memBytes u addr 256)).stripe e = some n) :
    let b := memBytes u addr 256
    let r := enterJob u b (admissionOf b) addr true e n
    rootStartEffect e via 0x7000 5 data u =
      if r.1 ≠ 0 then dictAbort r.2 via (abortCode 0x20 r.1)
      else dictDone (holdRoot r.2 n (if (admissionOf b).stripe.testBit (dieId r.2) then none else some addr)) via := by
  simp [rootStartEffect, hr, hs, ha, readMem_clean hm, hf, holdRoot]

end

theorem exec_rootStart {s : State} {via : Via} (hl : via ≠ .link) (ht : Takes s via 0x7000 5 (leBytes 1 1)) (e : Elsewhere) :
    exec (.rootStart via 1 e) s = .next (rootStartEffect e via 0x7000 5 (leBytes 1 1) (arriving s via 0x7000 5 (leBytes 1 1))) := by
  have hl' : (via == Via.link) = false := by simpa using hl
  refine congrArg Host.Outcome.next ?_
  rw [hl']
  exact requestWrite_takes ht _

/-- Settles O20: a write finds the root job running, admission stopped, or a slot for the record, which is refused or admitted. -/
theorem rootJobStarts : Obligations.RootJobStarts := by
  intro s via e hl ht u addr
  have hx := exec_rootStart hl ht e
  have hrun : rootRunning u e = rootRunning s e := rootRunning_arriving ..
  refine ⟨fun n hn ha hr hb => ?_, fun n a hn ha hb hm => ?_, fun hr => ⟨fun hs => ?_, fun hs hm n => ?_⟩⟩
  · rw [hx, rootStartEffect_running via _ (hrun.trans (rootRunning_here hn ha hr hb e))]
  · rw [hx, rootStartEffect_running via _ (hrun.trans (rootRunning_away hn ha hb hm))]
  · rw [hx, rootStartEffect_stopped via _ (hrun.trans hr) ((admissionStopped_arriving ..).trans hs), arriving_removal]
  · intro a hf code
    have haddr : objGet u 0x7000 4 = addr := objGet_arriving _ _ _ _ _ (by decide)
    have hbytes : memBytes u addr 256 = memBytes s addr 256 := memBytes_arriving ..
    have hgo := rootStartEffect_enters via (leBytes 1 1) (hrun.trans hr) ((admissionStopped_arriving ..).trans hs) haddr
      ((memPoisoned_arriving ..).trans hm) (n := n) (by rw [hbytes, freeSlot_arriving]; exact hf)
    rw [hbytes] at hgo
    rw [hx, hgo]
    refine ⟨fun hc => ?_, fun hc hd => ?_⟩
    · rw [enterJob_refused hc]
      exact congrArg Host.Outcome.next (if_pos hc)
    · have hdie : dieId u = dieId s := dieId_arriving ..
      obtain ⟨w, hw, hwm, hws, hwo, hwb, hwl⟩ := enterJob_spec addr true n hc (hdie ▸ hd)
      obtain ⟨j1, -, j2, j3, j4, j5⟩ := setUpJob_spec w n addr a true
      have hdw : dieId (setUpJob w n addr a true) = dieId s := (dieId_congr (j4.trans hwb)).trans hdie
      have hseq : u.seq = s.seq := arriving_seq ..
      have hd' : (admissionOf (memBytes s addr 256)).stripe.testBit (dieId s) = true := hd
      rw [hw]
      generalize setUpJob w n addr a true = x at j1 j2 j3 j5 hdw
      refine ⟨holdRoot x n none, ?_, ?_, ?_, ?_, fun p hp => ?_⟩
      · simp only [ne_eq, not_true_eq_false, if_false, hdw, hd', if_true]
      · rw [← hseq, ← hws, ← j2]
        rfl
      · refine ((slotOf_holdRoot ..).trans j1).trans ?_
        have hhor : objGet w 0x6801 3 = objGet s 0x6801 3 := by
          have hw3 : objGet w 0x6801 3 = objGet (bump u 0x80F0 0x0C) 0x6801 3 := by simp only [objGet, hwo]
          rw [hw3, objGet_bump_ne _ _ _ (by decide)]
          exact objGet_arriving _ _ _ _ _ (by decide)
        have hslot : slotOf w n = slotOf s n := by
          simp only [slotOf, hwl, u, arriving_slots]
        rw [hws, hseq, hhor, hslot]
      · have hmem : ∀ v : State, v.mem = (writeRecordState u addr n 0 1).mem → memBytes v addr 4 = leBytes 4 (n * 256 + 1) := by
          intro v hv
          have := memBytes_memWrite_self u addr (leBytes 4 (0 * 65536 + n * 256 + 1))
          rw [leBytes_length, Nat.zero_mul, Nat.zero_add] at this
          rw [← this, memBytes, hv]
          simp [writeRecordState, memBytes]
        exact hmem _ (j3.trans hwm)
      · rw [poolOf_holdRoot]
        exact j5 p hp

end Sys2Proof.Machine

/-! The object dictionary: the checks of writes, aborts, the window, and the mailboxes with their segmented transfers. -/

namespace Sys2Proof.Machine

/-! ### Writes of objects (R330 to R335) -/

/-- Every command that writes an object through a requester is such a write. -/
theorem exec_writeRow {c : Instr} {s : State} {via : Via} {i k : Nat} {data : List Byte} (h : writeRow s c = some (via, i, k, data)) :
    ∃ e : WriteEffect, exec c s = .next (requestWrite e via i k data s) := by
  unfold writeRow at h
  split at h
  case h_3 via v e hl =>
    cases h
    cases via with
    | link => exact absurd rfl hl
    | mailbox _ | window _ | remote _ => exact ⟨_, rfl⟩
  case h_4 via i k d hl =>
    cases h
    cases via with
    | link => exact absurd rfl hl
    | mailbox _ | window _ | remote _ => exact ⟨_, rfl⟩
  all_goals cases h
  all_goals exact ⟨_, rfl⟩

section
variable {s : State} {via : Via} {i k : Nat} {data : List Byte} (e : WriteEffect)

theorem requestWrite_unserved (h : dictServes s = false) : requestWrite e via i k data s = s := by
  simp [requestWrite, h]

variable (hs : dictServes s = true)
include hs

theorem requestWrite_busy {m : Nat} (hb : (mailboxOf s m).busy = true) : requestWrite e (.mailbox m) i k data s = bump s 0x8100 3 := by
  simp [requestWrite, hs, hb]

theorem requestWrite_inTransfer {m : Nat} (hb : (mailboxOf s m).busy = false) (hx : (mailboxOf s m).xfer ≠ none) :
    requestWrite e (.mailbox m) i k data s = endTransfer s m 2 := by
  simp [requestWrite, hs, hb, Option.isSome_iff_ne_none.mpr hx]

/-- More than 8 bytes through the window are checked as none (R337). -/
theorem requestWrite_longWindow {c : Nat} (hl : 8 < data.length) :
    requestWrite e (.window c) i k data s = dictWriteWith e (.window c) i k [] s := by
  simp [requestWrite, hs, Nat.not_le.mpr hl]

end

/-- Settles O41: every row of a write is one request, which is not served, discarded, ends a transfer, aborts, or has no effect. -/
theorem writesRefused : Obligations.WritesRefused := by
  intro c s via i k data hc
  obtain ⟨e, he⟩ := exec_writeRow hc
  rw [he]
  refine ⟨fun hs => ?_, fun m hs hm hb => ?_, fun m hs hm hb hx => ?_, fun d ha hd => ?_⟩
  · rw [requestWrite_unserved e hs]
  · rw [hm, requestWrite_busy e hs hb]
  · rw [hm, requestWrite_inTransfer e hs hb hx]
  · obtain ⟨rfl, hw⟩ | ⟨rfl, ⟨w, rfl⟩, hl⟩ := hd
    · have hw' : ∀ k, via = .window k → d.length ≤ 8 := fun k hk => hw.resolve_left (fun h => h k hk)
      exact ⟨fun code hv => congrArg _ (requestWrite_aborts ha hv hw' e), fun hv => congrArg _ (requestWrite_discards ha hv hw' e)⟩
    · rw [requestWrite_longWindow e ha.1 hl]
      refine ⟨fun code hv => ?_, fun hv => ?_⟩
      · simp only [dictWriteWith, hv]
        rfl
      · simp only [dictWriteWith, hv]
        rfl

/-! ### Aborts (R337, R338, R342) -/

theorem objGet_endRequest (s : State) (via : Via) (code i k : Nat) : objGet (endRequest s via code) i k = objGet s i k := by
  cases via with
  | window c => unfold endRequest; dsimp only; split <;> rfl
  | mailbox _ | remote _ | link => rfl

theorem objGet_dictAbort_count (s : State) (via : Via) (code : Nat) :
    objGet (dictAbort s via code) 0x8100 2 = satAdd (objGet s 0x8100 2) 1 := by
  have h : objKey 0x8100 2 ≠ objKey 0x8100 (0x10 + code / 2 ^ 24 % 64) := by unfold objKey; omega
  rw [dictAbort, objGet_endRequest, countAbort, objGet_bump_ne _ _ _ h, objGet_bump_self]

theorem mailboxOf_dictAbort_self (s : State) (m code : Nat) : mailboxOf (dictAbort s (.mailbox m) code) m = { mailboxOf s m with
    busy := false, abort := code, seq := ((mailboxOf s m).seq + 1) % 256
    segBytes := if code = 0 then (mailboxOf s m).nextBytes else 0, last := (mailboxOf s m).nextLast, nextBytes := 0, nextLast := false } := by
  refine (mailboxOf_setMailbox_self ..).trans ?_
  have hm : mailboxOf (countAbort s code) m = mailboxOf s m := rfl
  simp [hm]

theorem winAbort_dictAbort (s : State) (c : Nat) {code : Nat} (h : code ≠ 0) : tblGet 0 (dictAbort s (.window c) code).dict.winAbort c = code := by
  have he : dictAbort s (.window c) code = { countAbort s code with
      dict := { (countAbort s code).dict with winAbort := tblSet 0 (countAbort s code).dict.winAbort c code } } :=
    if_neg (by simpa using h)
  rw [he]
  exact tblGet_tblSet_self ..

/-! ### Objects that only hold a value (R332, R333) -/

theorem unitEffect_store {i : Nat} (h : 0x6000 ≤ i) (hs : i ≠ 0x6801) (k : Nat) : unitEffect i k = storeEffect := by
  unfold unitEffect
  rw [if_neg (by simp only [Bool.and_eq_true, decide_eq_true_eq]; omega), if_neg (by simp only [Bool.and_eq_true, decide_eq_true_eq]; omega)]
  split
  case h_12 => rfl
  all_goals omega

theorem dictEffect_plain {i : Nat} (h : plainIndex i = true) (via : Via) (k : Nat) (data : List Byte) (s : State) :
    dictEffect via i k data s = dictDone (objSet s i k (leNat data)) via := by
  have hi : i = 0x6000 ∨ (0x6810 ≤ i ∧ i ≤ 0x681F) ∨ (0x7020 ≤ i ∧ i ≤ 0x7027) := by simpa [plainIndex, or_assoc] using h
  have hlow : ¬ i < 0x6000 := by omega
  have hpool : ¬ (0x6100 ≤ i ∧ i ≤ 0x617F) := by omega
  have hevt : ¬ (0x7400 ≤ i ∧ i ≤ 0x77FF) := by omega
  have htrace : ¬ i = 0xA000 := by omega
  by_cases hseq : 0x7000 ≤ i ∧ i ≤ 0x72FF
  · have h1 : ¬ i = 0x7000 := by omega
    have h2 : ¬ i = 0x7001 := by omega
    have h3 : ¬ (0x7010 ≤ i ∧ i ≤ 0x701F) := by omega
    have h4 : ¬ (0x7100 ≤ i ∧ i ≤ 0x71FF) := by omega
    simp [dictEffect, highEffect, seqEffect, hlow, hpool, hseq, h1, h2, h3, h4, storeEffect]
  · simp [dictEffect, highEffect, hlow, hpool, hseq, hevt, htrace, unitEffect_store (i := i) (by omega) (by omega), storeEffect]

theorem keyPart_plain {i k : Nat} (h : plainIndex i = true) (hk : k < 256) : keyPart (objKey i k) = .objects := by
  have hi : i = 0x6000 ∨ (0x6810 ≤ i ∧ i ≤ 0x681F) ∨ (0x7020 ≤ i ∧ i ≤ 0x7027) := by simpa [plainIndex, or_assoc] using h
  have h1 : objKey i k / 256 = i := by unfold objKey; omega
  have h2 : objKey i k % 256 = k := by unfold objKey; omega
  rw [keyPart, h1, h2, if_neg]
  simp only [tally, Bool.or_eq_true, Bool.and_eq_true, decide_eq_true_eq, beq_iff_eq]
  omega

theorem exec_dictWrite {s : State} {via : Via} {i k : Nat} {data : List Byte} (hl : via ≠ .link) (ht : Takes s via i k data) :
    exec (.dictWrite via i k data) s = .next (dictEffect via i k data (arriving s via i k data)) := by
  have hl' : (via == Via.link) = false := by simpa using hl
  refine congrArg Host.Outcome.next ?_
  rw [hl']
  exact requestWrite_takes ht dictEffect

/-- Settles O42: an abort is counted and shown to its requester; a write has its object's effect, and a plain object holds its value. -/
theorem objectsWritten : Obligations.ObjectsWritten := by
  refine ⟨fun s code _ => ⟨fun via => objGet_dictAbort_count s via code, fun m => mailboxOf_dictAbort_self s m code,
    fun c h => winAbort_dictAbort s c h, fun via => ⟨dictAbort_mem .., dictAbort_slots .., dictAbort_cmds ..⟩⟩,
    fun s via i k data hl ht => ⟨exec_dictWrite hl ht, fun hp hk => ?_⟩, fun s i k data => ⟨fun hs => ?_, fun hs hv => ?_⟩⟩
  · refine ⟨_, exec_dictWrite hl ht, dictEffect_plain hp .., ?_⟩
    rw [dictEffect_plain hp, objGet_dictDone _ _ (keyPart_plain hp hk)]
    exact ⟨objGet_objSet_self .., by simp, by simp, by simp⟩
  · exact congrArg Host.Outcome.next (by simp [hs])
  · refine congrArg Host.Outcome.next ?_
    rw [hs]
    simp only [beq_self_eq_true, if_true, dictWriteWith, hv]
    rfl

/-! ### The window (R336, R337) -/

section
variable (s : State) (core v : Nat) (err : Bool)

@[simp] theorem windowAnswer_readBack : tblGet 0 (windowAnswer s core v err).dict.readBack core = v := tblGet_tblSet_self ..
@[simp] theorem windowAnswer_readError : tblGet false (windowAnswer s core v err).dict.readError core = err := tblGet_tblSet_self ..
@[simp] theorem windowAnswer_winAbort : (windowAnswer s core v err).dict.winAbort = s.dict.winAbort := rfl

end

/-- Past the object slots a mailbox's first eight bytes are its request word (R338). -/
theorem windowWord_mailbox (s : State) {m : Nat} (hm : m < 5) :
    windowWord s (aliasSpace + 0x1000 * m) 8 = (mailboxOf s m).word % 2 ^ 64 := by
  have h1 : (aliasSpace + 0x1000 * m - aliasSpace) / 0x1000 = m := by omega
  have h2 : (aliasSpace + 0x1000 * m) % 0x1000 = 0 := by unfold aliasSpace; omega
  have h3 : ∀ x : Mailbox, (mailboxBytes x).take 8 = leBytes 8 x.word := fun x => by
    simp [mailboxBytes, List.append_assoc, List.take_left']
  rw [windowWord, h1, h2, List.drop_zero, h3, leNat_leBytes]
  exact if_neg (Nat.not_le.mpr hm)

theorem windowWord_beyond (s : State) {offset : Nat} (h : aliasSpace + 0x5000 ≤ offset) (width : Nat) : windowWord s offset width = 0 :=
  if_pos (by omega)

section
variable {s : State} (hs : dictServes s = true)
include hs

theorem exec_aliasRead_beyond {offset : Nat} (h : aliasSpace ≤ offset) (core width ra rd : Nat) (bad : Bool) :
    exec (.aliasRead core offset width bad ra rd) s = .next (windowAnswer s core (windowWord s offset width) false) :=
  congrArg Host.Outcome.next (by simp [hs, h])

variable {offset : Nat} (h : offset < aliasSpace) (hr : reach s 0xF (aliasIndex offset) = .here)
include h hr

theorem exec_aliasRead_here (core width ra rd : Nat) (bad : Bool) :
    exec (.aliasRead core offset width bad ra rd) s = .next (aliasReadHere s core offset width bad) :=
  congrArg Host.Outcome.next (by simp [hs, Nat.not_le.mpr h, hr])

theorem exec_aliasWrite_here (core width v ra : Nat) :
    exec (.aliasWrite core offset width v ra) s = .next (aliasWriteHere s core offset width v) :=
  congrArg Host.Outcome.next (by simp [hs, Nat.not_le.mpr h, hr])

end

section
variable {s : State} {core offset width : Nat}

theorem aliasReadHere_aborts {c : Nat} (hv : readVerdict s (aliasIndex offset) (aliasSub offset) = some c) (bad : Bool) :
    aliasReadHere s core offset width bad = aliasReadAbort s core width c := by
  simp only [aliasReadHere, hv]

/-- What a served read of a value returns. -/
theorem aliasReadHere_value {i k : Nat} (hi : aliasIndex offset = i) (hk : aliasSub offset = k) (hv : readVerdict s i k = none)
    (hb : isBlob i k = false) (hw : offset % 8 + width ≤ 8) (hp : i = 0x2001 → k ≠ 0 → postedWrites s (k - 1) = false) :
    aliasReadHere s core offset width false = windowAnswer (dictDone (objValue s i k).2 (.window core)) core
      (leNat (((objValue s i k).1.drop (offset % 8)).take width)) false := by
  have hp' : (i == 0x2001 && k != 0 && postedWrites s (k - 1)) = false := by
    simpa using hp
  simp only [aliasReadHere, hi, hk, hv, hb, hp', Nat.not_lt.mpr hw, decide_false, Bool.or_self, Bool.false_eq_true, if_false]

theorem aliasWriteHere_value {i k size v : Nat} {r : ObjRow} (hi : aliasIndex offset = i) (hk : aliasSub offset = k)
    (hr : objRow i k = some r) (hsize : r.ty.size = some size) (ho : offset % 8 = 0) (hw : size ≤ width) (hv : v < 256 ^ size)
    (hgo : writeVerdict s (.window core) i k (leBytes size v) = .go) :
    aliasWriteHere s core offset width v = dictEffect (.window core) i k (leBytes size v) (arriving s (.window core) i k (leBytes size v)) := by
  have hfit : v % 2 ^ (8 * width) / 2 ^ (8 * size) = 0 := by
    refine Nat.div_eq_of_lt ((Nat.mod_le ..).trans_lt ?_)
    rwa [Nat.pow_mul]
  simp only [aliasWriteHere, hi, hk, hr, hsize, Option.getD_some, ho, hw, hgo, hfit, beq_self_eq_true, decide_true, Bool.and_self, if_true,
    bne_self_eq_false, Bool.false_eq_true, if_false, dictWriteWith]
  rfl

end

/-- The window slot of a core's WIN_ABORT (R337). -/
def winAbortSlot (core : Nat) : Nat := 0x2001 * 2 ^ 11 + (core + 1) * 2 ^ 3

theorem aliasIndex_winAbortSlot {core : Nat} (h : core < 4) : aliasIndex (winAbortSlot core) = 0x2001 := by
  unfold aliasIndex winAbortSlot; omega
theorem aliasSub_winAbortSlot {core : Nat} (h : core < 4) : aliasSub (winAbortSlot core) = core + 1 := by
  unfold aliasSub winAbortSlot; omega

theorem objRow_winAbort : ∀ core, core < 4 → ∃ r, objRow 0x2001 (core + 1) = some r ∧ r.ty = .u32 ∧ r.acc ≠ .wo := by decide +kernel

theorem readVerdict_winAbort {s : State} {core : Nat} (hc : core < 4) (hh : headCountClosed s = true) (hf : s.boot.failed = false) :
    readVerdict s 0x2001 (core + 1) = none := by
  obtain ⟨r, hr, -, hw⟩ := objRow_winAbort core hc
  have hn : noIndex s 0x2001 = false := rfl
  have hx : ¬ highestSub 0x2001 < core + 1 := by
    have : highestSub 0x2001 = 4 := by decide
    omega
  simp [readVerdict, dictReady, hh, hf, hn, hx, hr, hw]

theorem objValue_winAbort (s : State) {core : Nat} (hc : core < 4) : objValue s 0x2001 (core + 1) =
    (leBytes 4 (tblGet 0 s.dict.winAbort core), { s with dict := { s.dict with winAbort := tblSet 0 s.dict.winAbort core 0 } }) := by
  obtain ⟨r, hr, ht, -⟩ := objRow_winAbort core hc
  simp [objValue, hr, ht, objRead, ObjTy.size]

/-- Settles O43: reads and writes through the window, within the object slots and past them, and a core's read of its WIN_ABORT. -/
theorem windowAccesses : Obligations.WindowAccesses := by
  refine ⟨fun s core offset width ra rd v bad => ⟨fun hs => ?_, fun h => ?_, fun hs h => ⟨_, exec_aliasRead_beyond hs h .., ?_⟩⟩,
    fun s core offset width ra rd hs h hr => ⟨fun c bad hv hc => ?_, fun hv hb hw hi => ?_, fun r size v hrow hsize ho hw hv hgo => ?_⟩,
    fun s core hs hh hf hc hp => ?_⟩
  · exact congrArg Host.Outcome.next (by simp [hs])
  · refine congrArg Host.Outcome.next (if_pos ?_)
    rcases h with h | h <;> simp [h]
  · refine ⟨windowAnswer_readError .., fun m hm ho hw => ?_, fun ho => ?_⟩
    · rw [windowAnswer_readBack, ho, hw, windowWord_mailbox s hm]
    · rw [windowAnswer_readBack, windowWord_beyond s ho]
  · refine ⟨_, exec_aliasRead_here hs h hr .., ?_⟩
    rw [aliasReadHere_aborts hv]
    exact ⟨windowAnswer_readBack .., windowAnswer_readError .., winAbort_dictAbort s core hc⟩
  · refine ⟨_, exec_aliasRead_here hs h hr .., ?_⟩
    rw [aliasReadHere_value rfl rfl hv hb hw (fun e => absurd e hi)]
    exact ⟨windowAnswer_readBack .., windowAnswer_readError ..⟩
  · rw [exec_aliasWrite_here hs h hr, aliasWriteHere_value rfl rfl hrow hsize ho hw hv hgo]
  · have hx : exec (.winAbortRead core) s = .next (aliasReadHere s core (winAbortSlot core) 4 false) :=
      congrArg Host.Outcome.next (by simp [hs, Nat.not_le.mpr hc, winAbortSlot])
    have hb : isBlob 0x2001 (core + 1) = false := by
      obtain ⟨r, hr, ht, -⟩ := objRow_winAbort core hc
      simp [isBlob, hr, ht, ObjTy.size]
    have ho : winAbortSlot core % 8 = 0 := by unfold winAbortSlot; omega
    refine ⟨_, hx, ?_⟩
    rw [aliasReadHere_value (aliasIndex_winAbortSlot hc) (aliasSub_winAbortSlot hc) (readVerdict_winAbort hc hh hf) hb (by omega) (fun _ _ => hp),
      objValue_winAbort s hc, ho]
    refine ⟨?_, ?_⟩
    · rw [windowAnswer_readBack, List.drop_zero, List.take_of_length_le (by simp), leNat_leBytes]
      norm_num
    · exact tblGet_tblSet_self ..

/-! ### Requests of a mailbox (R338 to R340) -/

/-- The state in which a request word is served: its data, its area, and the request accepted. -/
def requested (s : State) (w : MailboxWrite) (last : Bool) : State :=
  beginRequest (setMailbox s w.mailbox { mailboxOf s w.mailbox with data := w.data % 2 ^ 64, area := w.area }) w.mailbox w.word 0 last

theorem mailboxOf_requested (s : State) (w : MailboxWrite) (last : Bool) : mailboxOf (requested s w last) w.mailbox =
    { mailboxOf s w.mailbox with data := w.data % 2 ^ 64, area := w.area, word := reqKept w.word, busy := true, nextBytes := 0, nextLast := last } := by
  simp [requested, beginRequest]

/-- A request of a mailbox completes: what it moved is in its status word. -/
theorem mailboxOf_dictDone_self (s : State) (m : Nat) : mailboxOf (dictDone s (.mailbox m)) m = { mailboxOf s m with
    busy := false, abort := 0, seq := ((mailboxOf s m).seq + 1) % 256
    segBytes := (mailboxOf s m).nextBytes, last := (mailboxOf s m).nextLast, nextBytes := 0, nextLast := false } :=
  (mailboxOf_setMailbox_self ..).trans rfl

theorem mailboxOf_setMoved (s : State) (m n : Nat) (last : Bool) :
    mailboxOf (setMoved s m n last) m = { mailboxOf s m with nextBytes := n, nextLast := last } := mailboxOf_setMailbox_self ..

theorem mailboxOf_setData (s : State) (m v : Nat) : mailboxOf (setData s m v) m = { mailboxOf s m with data := v } := mailboxOf_setMailbox_self ..

theorem mailboxOf_openXfer (s : State) (m : Nat) (x : Xfer) : mailboxOf (openXfer s m x) m = { mailboxOf s m with xfer := some x } :=
  mailboxOf_setMailbox_self ..

/-- A full request word reaches its mailbox. -/
def Asks (s : State) (w : MailboxWrite) : Prop := dictServes s = true ∧ w.mailbox < 5 ∧ w.offset = 0 ∧ w.width = 8

section
variable {s : State} {w : MailboxWrite} (ha : Asks s w)
include ha

theorem mailboxCommand_own {op : Nat} (ho : reqOp w.word = op) : mailboxCommand op w s = requestWord s w := by
  obtain ⟨hs, hm, -, -⟩ := ha
  simp [mailboxCommand, hs, Nat.not_le.mpr hm, ho]

theorem requestWord_cancelIdle (ho : reqOp w.word = 6) (hi : (mailboxOf s w.mailbox).busy = true ∨ (mailboxOf s w.mailbox).xfer = none) :
    requestWord s w = setMailbox s w.mailbox { mailboxOf s w.mailbox with data := w.data % 2 ^ 64, area := w.area } := by
  obtain ⟨-, -, h0, h8⟩ := ha
  cases hb : (mailboxOf s w.mailbox).busy with
  | true => simp [requestWord, h0, h8, ho, hb]
  | false => simp [requestWord, h0, h8, ho, hb, hi.resolve_left (by simp [hb])]

variable (hb : (mailboxOf s w.mailbox).busy = false)
include hb

theorem requestWord_cancels (ho : reqOp w.word = 6) (hx : (mailboxOf s w.mailbox).xfer ≠ none) :
    requestWord s w = endTransfer (requested s w true) w.mailbox 6 := by
  obtain ⟨-, -, h0, h8⟩ := ha
  simp [requestWord, h0, h8, ho, hb, Option.isSome_iff_ne_none.mpr hx, requested]

theorem requestWord_segment (ho : reqOp w.word = 5) : requestWord s w = segmentRequest (requested s w false) w := by
  obtain ⟨-, -, h0, h8⟩ := ha
  simp [requestWord, h0, h8, ho, hb, requested]

variable (hx : (mailboxOf s w.mailbox).xfer = none)
include hx

theorem requestWord_expedited (ho : reqOp w.word = 1) : requestWord s w = expRead (requested s w false) w := by
  obtain ⟨-, -, h0, h8⟩ := ha
  simp [requestWord, h0, h8, ho, hb, hx, requested]

theorem requestWord_write (ho : reqOp w.word = 2) : requestWord s w = expWrite (requested s w false) w := by
  obtain ⟨-, -, h0, h8⟩ := ha
  simp [requestWord, h0, h8, ho, hb, hx, requested]

theorem requestWord_readStart (ho : reqOp w.word = 3) : requestWord s w = segReadStart (requested s w false) w := by
  obtain ⟨-, -, h0, h8⟩ := ha
  simp [requestWord, h0, h8, ho, hb, hx, requested]

theorem requestWord_writeStart (ho : reqOp w.word = 4) : requestWord s w = segWriteStart (requested s w false) w := by
  obtain ⟨-, -, h0, h8⟩ := ha
  simp [requestWord, h0, h8, ho, hb, hx, requested]

end

/-- The transfers that the start of a segmented read of v, and of a segmented write, open (R340). -/
def readXfer (w : MailboxWrite) (v : List Byte) : Xfer :=
  { write := false, index := reqIndex w.word, sub := reqSub w.word, target := reqTarget w.word, total := v.length, moved := 0, toggle := false, data := v }
def writeXfer (w : MailboxWrite) : Xfer :=
  { write := true, index := reqIndex w.word, sub := reqSub w.word, target := reqTarget w.word, total := w.data % 2 ^ 32, moved := 0, toggle := false,
    data := [] }

section
variable {u : State} {w : MailboxWrite} (hr : reach u (reqTarget w.word) (reqIndex w.word) = .here)
include hr

theorem expWrite_here : expWrite u w = dictWriteWith dictEffect (.mailbox w.mailbox) (reqIndex w.word) (reqSub w.word)
    (expData w) (setMoved u w.mailbox (reqLen w.word) false) := by
  simp only [expWrite, hr]

theorem segWriteStart_here (h0 : w.data % 2 ^ 32 ≠ 0)
    (hv : verdictBy u (.mailbox w.mailbox) (reqIndex w.word) (reqSub w.word) (fun r => lengthAbort r (w.data % 2 ^ 32)) = .go) :
    segWriteStart u w = openXfer (dictDone u (.mailbox w.mailbox)) w.mailbox (writeXfer w) := by
  have h0' : (w.data % 2 ^ 32 == 0) = false := by simpa using h0
  simp only [segWriteStart, hr, hv, h0', Bool.false_eq_true, if_false]
  rfl

variable {v : List Byte} {t : State} (hv : readVerdict u (reqIndex w.word) (reqSub w.word) = none) (hp : w.poisoned = false)
  (hw : winAbortWaits u (reqIndex w.word) (reqSub w.word) = false) (ho : objValue u (reqIndex w.word) (reqSub w.word) = (v, t))
include hv hp hw ho

theorem expRead_here (hl : v.length ≤ 8) :
    expRead u w = dictDone (setMoved (setData t w.mailbox (leNat v)) w.mailbox v.length false) (.mailbox w.mailbox) := by
  simp only [expRead, hr, hv, ho, hp, hw, Nat.not_lt.mpr hl, Bool.false_eq_true, if_false]

theorem segReadStart_here (hn : v ≠ []) :
    segReadStart u w = openXfer (dictDone (setMoved (setData t w.mailbox v.length) w.mailbox 0 false) (.mailbox w.mailbox)) w.mailbox (readXfer w v) := by
  have hn' : v.isEmpty = false := by simpa using hn
  simp only [segReadStart, hr, hv, ho, hp, hw, hn', Bool.false_eq_true, if_false]
  rfl

end

/-! ### Segments (R340, R341) -/

section
variable {u : State} {w : MailboxWrite}

theorem segmentRequest_idle (h : (mailboxOf u w.mailbox).xfer = none) :
    segmentRequest u w = dictAbort u (.mailbox w.mailbox) (abortCode 0x0B 2) := by
  simp only [segmentRequest, h]

variable {x : Xfer} (hx : (mailboxOf u w.mailbox).xfer = some x)
include hx

theorem segmentRequest_otherObject (h : ¬ (reqIndex w.word = x.index ∧ reqSub w.word = x.sub ∧ reqTarget w.word = x.target)) :
    segmentRequest u w = endTransfer u w.mailbox 2 := by
  have h' : (reqIndex w.word != x.index || reqSub w.word != x.sub || reqTarget w.word != x.target) = true := by
    simp only [Bool.or_eq_true, bne_iff_ne]
    tauto
  simp only [segmentRequest, hx, h', if_true]

variable (hn : reqIndex w.word = x.index ∧ reqSub w.word = x.sub ∧ reqTarget w.word = x.target)
include hn

theorem segmentRequest_named : segmentRequest u w =
    if reqToggle w.word ≠ x.toggle then endTransfer u w.mailbox 1
    else if reqLen w.word = 0 ∨ 2048 < reqLen w.word then endTransfer u w.mailbox 3
    else if x.write = true ∧ x.total < x.moved + reqLen w.word then endTransfer u w.mailbox 4
    else if x.write = true then writeSegment u w x
    else readSegment u w x := by
  obtain ⟨h1, h2, h3⟩ := hn
  simp [segmentRequest, hx, h1, h2, h3]

end

/-- What a segment of a read on this engine leaves in its mailbox. -/
theorem mailboxOf_readSegment {u : State} {w : MailboxWrite} {x : Xfer} (hr : reach u x.target x.index = .here)
    (hd : x.data.length = x.total) :
    let n := min (reqLen w.word) (x.total - x.moved)
    mailboxOf (readSegment u w x) w.mailbox = { mailboxOf u w.mailbox with
      busy := false, abort := 0, seq := ((mailboxOf u w.mailbox).seq + 1) % 256, toggle := x.toggle
      area := (x.data.drop x.moved).take n ++ (mailboxOf u w.mailbox).area.drop n
      segBytes := n, last := decide (x.total ≤ x.moved + n), nextBytes := 0, nextLast := false
      xfer := if x.total ≤ x.moved + n then none else some { x with moved := x.moved + n, toggle := !x.toggle } } := by
  intro n
  have hn : ((x.data.drop x.moved).take n).length = n := by
    rw [List.length_take, List.length_drop, hd]
    omega
  have hs : sendSegment u x [] = u := by simp only [sendSegment, hr]
  have hl : (reach u x.target x.index == .here) = true := by rw [hr]; rfl
  simp only [readSegment, hs, hl, if_true, mailboxOf_dictDone_self, mailboxOf_setMoved, setArea, mailboxOf_setMailbox_self]
  rw [hn]

/-- Settles O44: the requests that open transfers or need none, the segments, the cancel and the time without a segment. -/
theorem mailboxes : Obligations.Mailboxes := by
  refine ⟨fun s w hs hm h0 h8 hb hx => ?_, fun s w x hs hm h0 h8 hb hx => ?_, fun s m => ⟨fun hx hb => ?_, fun h => ?_⟩,
    fun s w ho hs hm h0 h8 hi => ?_⟩
  · intro i k u hr
    have ha : Asks s w := ⟨hs, hm, h0, h8⟩
    have hu : mailboxOf u w.mailbox = _ := mailboxOf_requested s w false
    refine ⟨fun ho hv hl hp hw => ?_, fun ho => ?_, fun ho hv hne hp hw => ?_, fun ho hne hv => ?_, fun ho => ?_⟩
    · refine ⟨_, congrArg Host.Outcome.next ((mailboxCommand_own ha ho).trans ((requestWord_expedited ha hb hx ho).trans
        (expRead_here (u := u) hr hv hp hw Prod.mk.eta.symm hl))), ?_⟩
      rw [mailboxOf_dictDone_self, mailboxOf_setMoved, mailboxOf_setData]
      exact ⟨rfl, rfl, rfl, rfl⟩
    · refine congrArg Host.Outcome.next ((mailboxCommand_own ha ho).trans ((requestWord_write ha hb hx ho).trans ?_))
      exact expWrite_here (u := u) hr
    · refine ⟨_, readXfer w (objValue u i k).1, congrArg Host.Outcome.next ((mailboxCommand_own ha ho).trans ((requestWord_readStart ha hb hx ho).trans
        (segReadStart_here (u := u) hr hv hp hw Prod.mk.eta.symm hne))), ?_⟩
      rw [mailboxOf_openXfer, mailboxOf_dictDone_self, mailboxOf_setMoved, mailboxOf_setData]
      exact ⟨rfl, rfl, rfl, rfl, rfl, rfl, rfl, rfl⟩
    · refine ⟨_, writeXfer w, congrArg Host.Outcome.next ((mailboxCommand_own ha ho).trans ((requestWord_writeStart ha hb hx ho).trans
        (segWriteStart_here (u := u) hr hne hv))), ?_⟩
      rw [mailboxOf_openXfer, mailboxOf_dictDone_self]
      exact ⟨rfl, rfl, rfl, rfl, rfl, rfl, rfl, rfl, rfl, rfl⟩
    · refine congrArg Host.Outcome.next ((mailboxCommand_own ha ho).trans ((requestWord_segment ha hb ho).trans ?_))
      exact segmentRequest_idle (u := u) (by rw [hu]; exact hx)
  · intro m v u named
    have ha : Asks s w := ⟨hs, hm, h0, h8⟩
    have hu : mailboxOf u w.mailbox = _ := mailboxOf_requested s w false
    have hux : (mailboxOf u w.mailbox).xfer = some x := by rw [hu]; exact hx
    refine ⟨fun ho => congrArg Host.Outcome.next ((mailboxCommand_own ha ho).trans (requestWord_cancels ha hb ho (by simp [hx]))), fun ho => ?_⟩
    have hseg : exec (.segment w) s = .next (segmentRequest u w) :=
      congrArg Host.Outcome.next ((mailboxCommand_own ha ho).trans (requestWord_segment ha hb ho))
    rw [hseg]
    refine ⟨fun hn => congrArg _ (segmentRequest_otherObject hux hn), fun hn ht => ?_, fun hn ht => ?_⟩
    · rw [segmentRequest_named hux hn, if_pos ht]
    rw [segmentRequest_named hux hn, if_neg (not_not.mpr ht)]
    refine ⟨fun hl => by rw [if_pos hl], fun hl1 hl2 => ?_⟩
    rw [if_neg (by omega)]
    refine ⟨fun hw hl => by rw [if_pos ⟨hw, hl⟩], fun hw hl => by rw [if_neg (by omega), if_pos hw], fun hw hr hd => ?_⟩
    rw [if_neg (by simp [hw]), if_neg (by simp [hw])]
    refine ⟨_, rfl, ?_⟩
    rw [mailboxOf_readSegment (u := u) hr hd, hu]
    exact ⟨rfl, rfl, rfl, rfl, rfl, rfl⟩
  · exact congrArg Host.Outcome.next (by simp [Option.isSome_iff_ne_none.mpr hx, hb])
  · exact congrArg Host.Outcome.next (by rcases h with h | h <;> simp [h])
  · have ha : Asks s w := ⟨hs, hm, h0, h8⟩
    exact congrArg Host.Outcome.next ((mailboxCommand_own ha ho).trans (requestWord_cancelIdle ha ho hi))

end Sys2Proof.Machine

/-! The event controller: sources taken, served and written, firings and their hold-offs, and the sleep of cores. -/

namespace Sys2Proof.Machine

/-! ### Sources changed one by one -/

section
variable {f : State → Nat → State} (hf : ∀ s n j, j ≠ n → srcOf (f s n) j = srcOf s j)
include hf

/-- A source that none of a list's changes concerns stays as it is. -/
theorem srcOf_foldl_of_notMem {l : List Nat} {j : Nat} (hj : j ∉ l) (s : State) : srcOf (l.foldl f s) j = srcOf s j := by
  induction l generalizing s with
  | nil => rfl
  | cons a l ih =>
    rw [List.mem_cons, not_or] at hj
    rw [List.foldl_cons, ih hj.2, hf s a j hj.1]

/-- A source in a list without repeats is changed once, from what it was. -/
theorem srcOf_foldl_of_mem {l : List Nat} (hl : l.Nodup) {n : Nat} (hn : n ∈ l) (s : State) :
    ∃ u, srcOf u n = srcOf s n ∧ srcOf (l.foldl f s) n = srcOf (f u n) n := by
  induction l generalizing s with
  | nil => cases hn
  | cons a l ih =>
    rw [List.nodup_cons] at hl
    rw [List.foldl_cons]
    by_cases ha : n = a
    · subst ha
      exact ⟨s, rfl, srcOf_foldl_of_notMem hf hl.1 _⟩
    · obtain ⟨u, hu, h⟩ := ih hl.2 ((List.mem_cons.mp hn).resolve_left ha) (f s a)
      exact ⟨u, hu.trans (hf s a n ha), h⟩

end

/-- A source becomes pending and is routed (R348, R352). -/
theorem srcOf_setPending_self (s : State) (n : Nat) : ∃ c, srcOf (setPending s n) n = { srcOf s n with pending := true, core := c } := by
  unfold setPending
  dsimp only
  split
  · next h => exact ⟨(srcOf s n).core, by cases hx : srcOf s n; simp_all⟩
  · split
    · exact ⟨(srcOf s n).core, by rw [srcOf, wakeUp_srcs]; exact srcOf_setSrc_self ..⟩
    · exact ⟨_, by rw [srcOf, wakeUp_srcs]; exact srcOf_setSrc_self ..⟩

theorem srcOf_setPending_ne (s : State) (n j : Nat) (h : j ≠ n) : srcOf (setPending s n) j = srcOf s j := by
  unfold setPending
  dsimp only
  split
  · rfl
  · split
    · rw [srcOf, wakeUp_srcs]
      exact (srcOf_setSrc ..).trans (if_neg h)
    · rw [srcOf, wakeUp_srcs]
      exact (srcOf_setSrc ..).trans (if_neg h)

theorem pending_setPending (s : State) (n : Nat) : (srcOf (setPending s n) n).pending = true := by
  obtain ⟨c, h⟩ := srcOf_setPending_self s n
  rw [h]

/-- The sources of a word's bits written as 1 (R359). -/
theorem mem_wordSources {w bits n : Nat} : n ∈ wordSources w bits ↔ n / 32 = w ∧ bits.testBit (n % 32) = true := by
  simp only [wordSources, List.mem_map, List.mem_filter, List.mem_range]
  constructor
  · rintro ⟨k, ⟨hk, hb⟩, rfl⟩
    rw [show (k + 32 * w) / 32 = w by omega, show (k + 32 * w) % 32 = k by omega]
    exact ⟨rfl, hb⟩
  · rintro ⟨rfl, hb⟩
    exact ⟨n % 32, ⟨Nat.mod_lt _ (by decide), hb⟩, Nat.mod_add_div n 32⟩

theorem nodup_wordSources (w bits : Nat) : (wordSources w bits).Nodup :=
  (List.nodup_range.filter _).map (fun _ _ h => Nat.add_right_cancel h)

/-! ### EVT_TAKE and EVT_DONE (R348, R349, R350) -/

theorem objGet_arriving_events (s : State) (via : Via) (i k : Nat) (data : List Byte) {j : Nat} (hj : j < 256) :
    objGet (arriving s via i k data) 0x7700 j = objGet s 0x7700 j := by
  rw [arriving, traceRec_sameBut _ _ _ _ _ _ _ _ _ (by unfold objKey; omega)]
  exact (startWrite_frame s via i k data).2.1 _ _ hj (by decide)

theorem objGet_dictDone_ne (s : State) (via : Via) {i k : Nat} (h : objKey i k ≠ objKey 0x8100 1) : objGet (dictDone s via) i k = objGet s i k :=
  (objGet_endRequest ..).trans (objGet_bump_ne _ _ _ h)

/-- A source in service on a core, or taken again while it is (R349). -/
def Src.taken (x : Src) : Src := if x.active = true then { x with pending := false } else { x with pending := false, active := true, level := x.cfgLevel }

/-- The high-water mark of sources active on a core. -/
def countActive (s : State) (c : Nat) : State := if objGet s 0x7700 1 < activeCount s c then objSet s 0x7700 1 (activeCount s c) else s

theorem countActive_frame (s : State) (c : Nat) :
    (countActive s c).slots = s.slots ∧ (countActive s c).cmds = s.cmds ∧ (countActive s c).mem = s.mem := by
  unfold countActive
  split <;> exact ⟨rfl, rfl, rfl⟩

theorem objGet_countActive (s : State) (c : Nat) : objGet (countActive s c) 0x7700 0x60 = objGet s 0x7700 0x60 := by
  unfold countActive
  split
  · exact objGet_objSet_ne _ _ _ _ _ _ (by decide)
  · rfl

theorem srcOf_countActive (s : State) (c n : Nat) : srcOf (countActive s c) n = srcOf s n := by
  unfold countActive
  split <;> rfl

section
variable {u : State} {c n : Nat} {data : List Byte} (hn : leNat data = n) (via : Via)
include hn

theorem evtTakeEffect_aborts (h : 256 ≤ n ∨ (srcOf u n).pending = false ∨ (srcOf u n).core ≠ c) :
    evtTakeEffect via (0x7600 + c) 4 data u = dictAbort u via (abortCode 6 (objDetail (0x7600 + c) 4)) := by
  unfold evtTakeEffect
  dsimp only
  rw [hn, Nat.add_sub_cancel_left, if_pos]
  rcases h with h | h | h <;> simp [h]

theorem evtTakeEffect_takes (h : n < 256) (hp : (srcOf u n).pending = true) (hc : (srcOf u n).core = c) :
    evtTakeEffect via (0x7600 + c) 4 data u = dictDone (traceRec (countActive (bump (setSrc u n (srcOf u n).taken) 0x7700 0x60) c) 6 0 63 n c
      ((srcOf u n).order * 256 + (srcOf u n).cfgLevel)) via := by
  unfold evtTakeEffect
  dsimp only
  rw [hn, Nat.add_sub_cancel_left, if_neg (by simp [Nat.not_le.mpr h, hp, hc])]
  rfl

theorem evtDoneEffect_aborts (h : 256 ≤ n ∨ (srcOf u n).active = false ∨ (srcOf u n).core ≠ c) :
    evtDoneEffect via (0x7600 + c) 5 data u = dictAbort u via (abortCode 6 (objDetail (0x7600 + c) 5)) := by
  unfold evtDoneEffect
  dsimp only
  rw [hn, Nat.add_sub_cancel_left, if_pos]
  rcases h with h | h | h <;> simp [h]

theorem evtDoneEffect_ends (h : n < 256) (ha : (srcOf u n).active = true) (hc : (srcOf u n).core = c) :
    evtDoneEffect via (0x7600 + c) 5 data u =
      let v := setSrc u n { srcOf u n with active := false, level := 0 }
      dictDone (if (srcOf u n).latch then setPending v n else v) via := by
  unfold evtDoneEffect
  dsimp only
  rw [hn, Nat.add_sub_cancel_left, if_neg (by simp [Nat.not_le.mpr h, ha, hc])]

end

/-! ### Words of sources (R347, R348, R359) -/

theorem pendSet_other (s : State) (n j : Nat) (h : j ≠ n) :
    srcOf (if (srcOf s n).target == 0 then s else setPending s n) j = srcOf s j := by
  split
  · rfl
  · exact srcOf_setPending_ne s n j h

/-- Each source of a word is changed alike, and no other source. -/
theorem foldl_setSrc (g : Src → Src) (w bits : Nat) (s : State) :
    let t := (wordSources w bits).foldl (fun s n => setSrc s n (g (srcOf s n))) s
    (∀ n, n / 32 = w ∧ bits.testBit (n % 32) = true → srcOf t n = g (srcOf s n))
    ∧ (∀ n, ¬ (n / 32 = w ∧ bits.testBit (n % 32) = true) → srcOf t n = srcOf s n) := by
  have hf : ∀ s n j, j ≠ n → srcOf (setSrc s n (g (srcOf s n))) j = srcOf s j := fun s n j h => (srcOf_setSrc ..).trans (if_neg h)
  refine ⟨fun n hn => ?_, fun n hn => srcOf_foldl_of_notMem hf (mt mem_wordSources.mp hn) s⟩
  obtain ⟨u, hu, h⟩ := srcOf_foldl_of_mem hf (nodup_wordSources w bits) (mem_wordSources.mpr hn) s
  rw [h, srcOf_setSrc_self, hu]

theorem holdFiring_other (s : State) (n j : Nat) (h : j ≠ n) : srcOf (holdFiring s n) j = srcOf s j :=
  (srcOf_setGrp ..).trans ((srcOf_setSrc ..).trans (if_neg h))

theorem latchFiring_other (code : Nat) (s : State) (n j : Nat) (h : j ≠ n) : srcOf (latchFiring s n code) j = srcOf s j := by
  unfold latchFiring
  dsimp only
  split
  · exact (holdFiring_other _ _ _ h).trans ((srcOf_setSrc ..).trans (if_neg h))
  · exact (srcOf_setSrc ..).trans (if_neg h)

/-- Each of the sources that fire together is latched once (R347, R355). -/
theorem fireAll_latched {ns : List Nat} (hd : ns.Nodup) {n : Nat} (hn : n ∈ ns) (s : State) (code : Nat) :
    (srcOf (fireAll s ns code) n).latch = true ∧ (srcOf (fireAll s ns code) n).firings = satAdd (srcOf s n).firings 1
    ∧ (srcOf (fireAll s ns code) n).lastCode = code := by
  obtain ⟨-, h1, h2, h3⟩ := fireAll_srcs s ns code n
  obtain ⟨u, hu, h⟩ := srcOf_foldl_of_mem (latchFiring_other code) hd hn s
  obtain ⟨-, g1, g2, g3⟩ := latchFiring_srcs u n code n
  rw [srcOf_setSrc_self] at g1 g2 g3
  rw [h] at h1 h2 h3
  exact ⟨h1.trans g1, (h2.trans g2).trans (by rw [hu]), h3.trans g3⟩

theorem fireAll_unlatched {ns : List Nat} {n : Nat} (hn : n ∉ ns) (s : State) (code : Nat) :
    (srcOf (fireAll s ns code) n).latch = (srcOf s n).latch ∧ (srcOf (fireAll s ns code) n).firings = (srcOf s n).firings := by
  obtain ⟨-, h1, h2, -⟩ := fireAll_srcs s ns code n
  rw [srcOf_foldl_of_notMem (latchFiring_other code) hn] at h1 h2
  exact ⟨h1, h2⟩

/-- Settles O45: sources taken and served, or the write aborted; the words that set, clear and raise sources. -/
theorem eventsWritten : Obligations.EventsWritten := by
  refine ⟨fun s via c n hn => ⟨fun ht => ?_, fun ht => ?_⟩, fun s via w bits hw hb => ⟨fun ht => ?_, fun ht => ?_, fun ht => ?_, fun ht => ?_⟩⟩
  · have hx : exec (.evtTake via c n) s = .next (evtTakeEffect via (0x7600 + c) 4 (leBytes 2 n) _) :=
      congrArg _ (requestWrite_takes ht evtTakeEffect)
    have hv : leNat (leBytes 2 n) = n := leNat_leBytes_of_lt hn
    have hsrc : ∀ k, srcOf (arriving s via (0x7600 + c) 4 (leBytes 2 n)) k = srcOf s k := fun k => srcOf_arriving ..
    refine ⟨fun h hp hc => ⟨_, hx.trans (congrArg _ (evtTakeEffect_takes hv via h ((hsrc n).symm ▸ hp) ((hsrc n).symm ▸ hc))), ?_, fun k hk => ?_, ?_, ?_⟩,
      fun h => ?_⟩
    · rw [srcOf_dictDone, srcOf_traceRec, srcOf_countActive, srcOf_bump, srcOf_setSrc_self, hsrc]
      rfl
    · rw [srcOf_dictDone, srcOf_traceRec, srcOf_countActive, srcOf_bump, srcOf_setSrc, if_neg hk, hsrc]
    · rw [objGet_dictDone_ne _ _ (by decide), traceRec_sameBut _ _ _ _ _ _ _ _ _ (by decide), objGet_countActive, objGet_bump_self]
      exact congrArg (satAdd · 1) (objGet_arriving_events _ _ _ _ _ (by decide))
    · simp [countActive_frame]
    · rw [hx, evtTakeEffect_aborts hv via]
      rwa [hsrc]
  · have hx : exec (.evtDone via c n) s = .next (evtDoneEffect via (0x7600 + c) 5 (leBytes 2 n) _) :=
      congrArg _ (requestWrite_takes ht evtDoneEffect)
    have hv : leNat (leBytes 2 n) = n := leNat_leBytes_of_lt hn
    have hsrc : ∀ k, srcOf (arriving s via (0x7600 + c) 5 (leBytes 2 n)) k = srcOf s k := fun k => srcOf_arriving ..
    refine ⟨fun h ha hc => ?_, fun h => ?_⟩
    · have hy := hx.trans (congrArg _ (evtDoneEffect_ends hv via h ((hsrc n).symm ▸ ha) ((hsrc n).symm ▸ hc)))
      rw [hsrc] at hy
      refine ⟨fun hl => ⟨_, hy, ?_, fun k hk => ?_⟩, fun hl => ⟨_, hy, ?_⟩⟩
      · rw [srcOf_dictDone, if_neg (by simp [hl])]
        exact srcOf_setSrc_self ..
      · rw [srcOf_dictDone, if_neg (by simp [hl])]
        exact (srcOf_setSrc ..).trans ((if_neg hk).trans (hsrc k))
      · rw [srcOf_dictDone, hl, if_pos rfl]
        obtain ⟨k, hk⟩ := srcOf_setPending_self (setSrc (arriving s via (0x7600 + c) 5 (leBytes 2 n)) n { srcOf s n with active := false, level := 0 }) n
        rw [hk, srcOf_setSrc_self]
        exact ⟨rfl, rfl, hl⟩
    · rw [hx, evtDoneEffect_aborts hv via]
      rwa [hsrc]
  · have hx : exec (.evtPendSet via w bits) s = .next (dictDone ((wordSources (0x20 + w - 0x20) (leNat (leBytes 4 bits))).foldl
        (fun s n => if (srcOf s n).target == 0 then s else setPending s n) (arriving s via 0x7700 (0x20 + w) (leBytes 4 bits))) via) :=
      congrArg _ (requestWrite_takes ht pendSetEffect)
    rw [Nat.add_sub_cancel_left, leNat_leBytes_of_lt hb] at hx
    refine ⟨_, hx, fun n hn h0 => ?_, fun n hn => ?_⟩
    · obtain ⟨u, hu, h⟩ := srcOf_foldl_of_mem pendSet_other (nodup_wordSources w bits) (mem_wordSources.mpr hn)
        (arriving s via 0x7700 (0x20 + w) (leBytes 4 bits))
      rw [srcOf_arriving] at hu
      rw [srcOf_dictDone, h, if_neg (by simpa [hu] using h0)]
      exact pending_setPending u n
    · rw [srcOf_dictDone]
      by_cases hm : n ∈ wordSources w bits
      · obtain ⟨u, hu, h⟩ := srcOf_foldl_of_mem pendSet_other (nodup_wordSources w bits) hm (arriving s via 0x7700 (0x20 + w) (leBytes 4 bits))
        have h0 := hn.resolve_right (not_not.mpr (mem_wordSources.mp hm))
        rw [srcOf_arriving] at hu
        rw [h, if_pos (by simpa [hu] using h0), hu]
      · rw [srcOf_foldl_of_notMem pendSet_other hm, srcOf_arriving]
  · have hx : exec (.evtPendClear via w bits) s = .next (dictDone ((wordSources (0x30 + w - 0x30) (leNat (leBytes 4 bits))).foldl
        (fun s n => setSrc s n { srcOf s n with pending := false }) (arriving s via 0x7700 (0x30 + w) (leBytes 4 bits))) via) :=
      congrArg _ (requestWrite_takes ht pendClearEffect)
    rw [Nat.add_sub_cancel_left, leNat_leBytes_of_lt hb] at hx
    obtain ⟨h1, h2⟩ := foldl_setSrc (fun x => { x with pending := false }) w bits (arriving s via 0x7700 (0x30 + w) (leBytes 4 bits))
    refine ⟨_, hx, fun n hn => ?_, fun n hn => ?_⟩
    · rw [srcOf_dictDone, h1 n hn, srcOf_arriving]
    · rw [srcOf_dictDone, h2 n hn, srcOf_arriving]
  · have hx : exec (.evtLatchClear via w bits) s = .next (dictDone ((wordSources (0x40 + w - 0x40) (leNat (leBytes 4 bits))).foldl
        (fun s n => setSrc s n { srcOf s n with latch := false }) (arriving s via 0x7700 (0x40 + w) (leBytes 4 bits))) via) :=
      congrArg _ (requestWrite_takes ht latchClearEffect)
    rw [Nat.add_sub_cancel_left, leNat_leBytes_of_lt hb] at hx
    obtain ⟨h1, h2⟩ := foldl_setSrc (fun x => { x with latch := false }) w bits (arriving s via 0x7700 (0x40 + w) (leBytes 4 bits))
    refine ⟨_, hx, fun n hn => ?_, fun n hn => ?_⟩
    · rw [srcOf_dictDone, h1 n hn, srcOf_arriving]
    · rw [srcOf_dictDone, h2 n hn, srcOf_arriving]
  · have hx : exec (.evtSwRaise via w bits) s = .next (dictDone (fireAll (arriving s via 0x7700 (0x48 + w) (leBytes 4 bits))
        ((wordSources (0x48 + w - 0x48) (leNat (leBytes 4 bits))).filter (fun n => 128 ≤ n && n ≤ 191)) 0) via) :=
      congrArg _ (requestWrite_takes ht swRaiseEffect)
    rw [Nat.add_sub_cancel_left, leNat_leBytes_of_lt hb] at hx
    have hmem : ∀ n, n ∈ (wordSources w bits).filter (fun n => 128 ≤ n && n ≤ 191) ↔
        (n / 32 = w ∧ bits.testBit (n % 32) = true) ∧ 128 ≤ n ∧ n ≤ 191 := by
      simp [List.mem_filter, mem_wordSources]
    refine ⟨_, hx, fun n hn h1 h2 => ?_, fun n hn => ?_⟩
    · have h := fireAll_latched ((nodup_wordSources w bits).filter _) ((hmem n).mpr ⟨hn, h1, h2⟩) (arriving s via 0x7700 (0x48 + w) (leBytes 4 bits)) 0
      rw [srcOf_arriving] at h
      rwa [srcOf_dictDone]
    · have h := fireAll_unlatched (mt (hmem n).mp hn) (arriving s via 0x7700 (0x48 + w) (leBytes 4 bits)) 0
      rw [srcOf_arriving] at h
      rwa [srcOf_dictDone]

/-! ### Firings and their hold-offs (R347, R353, R355) -/

/-- A source's firing as it is latched and counted. -/
def Src.fired (x : Src) (code : Nat) : Src := { x with latch := true, firings := satAdd x.firings 1, lastCode := code }

/-- What is latched decides nothing on whether a group coalesces. -/
theorem latchFiring_eq (s : State) (n code : Nat) :
    latchFiring s n code =
      if firesOn s n && coalesces s n then holdFiring (setSrc s n ((srcOf s n).fired code)) n else setSrc s n ((srcOf s n).fired code) := by
  have hx : srcOf (setSrc s n ((srcOf s n).fired code)) n = (srcOf s n).fired code := srcOf_setSrc_self ..
  have hf : firesOn (setSrc s n ((srcOf s n).fired code)) n = firesOn s n := by
    unfold firesOn
    rw [hx]
    rfl
  have hc : coalesces (setSrc s n ((srcOf s n).fired code)) n = coalesces s n := by
    unfold coalesces
    rw [hx]
    rfl
  unfold latchFiring
  exact congrArg₂ (fun a b => if a && b then holdFiring (setSrc s n ((srcOf s n).fired code)) n else setSrc s n ((srcOf s n).fired code)) hf hc

/-- With no hold-off full, what fires and is not held is routed (R355). -/
theorem fireAll_of_noneFull {s : State} {ns : List Nat} {code : Nat}
    (h : ∀ m ∈ ns, holdsFull (ns.foldl (fun s m => latchFiring s m code) s) (m / 16) = false) :
    fireAll s ns code = routeAll (ns.foldl (fun s m => latchFiring s m code) s) (ns.filter (fun m => firesOn s m && !coalesces s m)) := by
  have hnone : ((ns.map (· / 16)).eraseDups).filter (holdsFull (ns.foldl (fun s m => latchFiring s m code) s)) = [] := by
    rw [List.filter_eq_nil_iff]
    intro g hg
    obtain ⟨m, hm, rfl⟩ := List.mem_map.mp (List.mem_eraseDups.mp hg)
    simp [h m hm]
  unfold fireAll
  dsimp only
  rw [hnone, List.foldl_nil, List.flatMap_nil, List.append_nil]

theorem fire_of_notFull {s : State} {n code : Nat} (h : holdsFull (latchFiring s n code) (n / 16) = false) :
    fire s n code = if firesOn s n && !coalesces s n then setPending (latchFiring s n code) n else latchFiring s n code := by
  refine (fireAll_of_noneFull (fun m hm => ?_)).trans ?_
  · rwa [List.mem_singleton.mp hm]
  · cases hb : firesOn s n && !coalesces s n
    · exact congrArg (routeAll (latchFiring s n code)) (List.filter_cons_of_neg (by simpa using hb))
    · exact congrArg (routeAll (latchFiring s n code)) (List.filter_cons_of_pos hb)

/-- A firing that its group holds, and does not fill it, is only held and counted. -/
theorem fire_held {s : State} {n code : Nat} (hf : firesOn s n = true) (hc : coalesces s n = true)
    (hn : holdsFull (holdFiring (setSrc s n ((srcOf s n).fired code)) n) (n / 16) = false) :
    fire s n code = holdFiring (setSrc s n ((srcOf s n).fired code)) n := by
  have hl : latchFiring s n code = holdFiring (setSrc s n ((srcOf s n).fired code)) n := by simp [latchFiring_eq, hf, hc]
  rw [fire_of_notFull (hl ▸ hn), hl]
  simp [hc]

theorem srcOf_holdFiring_self (s : State) (n : Nat) : srcOf (holdFiring s n) n = { srcOf s n with held := true } :=
  (srcOf_setGrp ..).trans (srcOf_setSrc_self ..)

theorem grpOf_holdFiring_self (s : State) (n : Nat) : grpOf (holdFiring s n) (n / 16) =
    if (grpOf s (n / 16)).running then { grpOf s (n / 16) with held := (grpOf s (n / 16)).held + 1 }
    else { held := 1, running := true, limCount := objGet s (0x7500 + n / 16) 1, limTime := objGet s (0x7500 + n / 16) 2 } :=
  grpOf_setGrp_self ..

/-! ### The release of a hold-off (R353) -/

theorem mem_insertAsc {m n : Nat} {l : List Nat} : m ∈ insertAsc n l ↔ m = n ∨ m ∈ l := by
  induction l with
  | nil => simp [insertAsc]
  | cons x l ih =>
    unfold insertAsc
    split
    · exact List.mem_cons
    · rw [List.mem_cons, ih, List.mem_cons, or_left_comm]

theorem mem_foldr_insertAsc {m : Nat} {l : List Nat} : m ∈ l.foldr insertAsc [] ↔ m ∈ l := by
  induction l with
  | nil => rfl
  | cons x l ih => rw [List.foldr_cons, mem_insertAsc, ih, List.mem_cons]

/-- What one change of a list brings about, and none undoes, holds after all of them. -/
theorem foldl_brings {P : State → Prop} {f : State → Nat → State} {n : Nat} (hset : ∀ s, P (f s n)) (hkeep : ∀ s m, P s → P (f s m))
    {l : List Nat} (hn : n ∈ l) (s : State) : P (l.foldl f s) := by
  induction l generalizing s with
  | nil => cases hn
  | cons a l ih =>
    by_cases hl : n ∈ l
    · exact ih hl _
    · obtain rfl := (List.mem_cons.mp hn).resolve_right hl
      exact List.foldlRecOn l f (hset s) (fun t ht m _ => hkeep t m ht)

theorem held_setPending (s : State) (m n : Nat) : (srcOf (setPending s m) n).held = (srcOf s n).held := by
  by_cases h : n = m
  · subst h
    obtain ⟨c, hc⟩ := srcOf_setPending_self s n
    rw [hc]
  · rw [srcOf_setPending_ne s m n h]

theorem pending_setPending_of {s : State} {n : Nat} (h : (srcOf s n).pending = true) (m : Nat) : (srcOf (setPending s m) n).pending = true := by
  by_cases hm : n = m
  · subst hm
    exact pending_setPending s n
  · rwa [srcOf_setPending_ne s m n hm]

theorem wakeUp_grps (s : State) (c : Nat) : (wakeUp s c).evt.grps = s.evt.grps := by
  unfold wakeUp
  dsimp only
  split <;> rfl

theorem setPending_grps (s : State) (n : Nat) : (setPending s n).evt.grps = s.evt.grps := by
  unfold setPending
  dsimp only
  split
  · rfl
  · split <;> rw [wakeUp_grps] <;> rfl

theorem grpOf_routeAll (s : State) (due : List Nat) (g : Nat) : grpOf (routeAll s due) g = grpOf s g :=
  List.foldlRecOn (motive := fun t => grpOf t g = grpOf s g) _ setPending rfl
    (fun t ht m _ => (congrArg (fun x => tblGet ({} : Grp) x g) (setPending_grps t m)).trans ht)

theorem held_routeAll (s : State) (due : List Nat) (n : Nat) : (srcOf (routeAll s due) n).held = (srcOf s n).held :=
  List.foldlRecOn (motive := fun t => (srcOf t n).held = (srcOf s n).held) _ setPending rfl
    (fun t ht m _ => (held_setPending t m n).trans ht)

theorem pending_routeAll {due : List Nat} {n : Nat} (hn : n ∈ due) (s : State) : (srcOf (routeAll s due) n).pending = true :=
  foldl_brings (P := fun t => (srcOf t n).pending = true) (fun t => pending_setPending t n)
    (fun _ m h => pending_setPending_of h m) (mem_foldr_insertAsc.mpr hn) s

theorem grpOf_endHoldoff (s : State) (g : Nat) : grpOf (endHoldoff s g) g = { grpOf s g with held := 0, running := false } :=
  List.foldlRecOn (motive := fun t => grpOf t g = { grpOf s g with held := 0, running := false }) _ _ (grpOf_setGrp_self ..)
    (fun _ ht _ _ => ht)

theorem held_endHoldoff {s : State} {g n : Nat} (hn : n ∈ heldIn s g) : (srcOf (endHoldoff s g) n).held = false := by
  refine foldl_brings (P := fun t => (srcOf t n).held = false) (fun t => ?_) (fun t m ht => ?_) hn _
  · rw [srcOf_setSrc_self]
  · rw [srcOf_setSrc]
    split
    · rfl
    · exact ht

/-- Settles O46: what fires is latched, and then its group holds it, or it is routed; a hold-off's release makes each source it held
pending; and the sleep of a core looks at what is pending there. -/
theorem eventsFire : Obligations.EventsFire := by
  unfold Obligations.EventsFire
  refine ⟨fun s n code => ⟨fun h hn => ?_, fun he ht hr hc htime => ?_, fun he ht ha hr hlim => ?_, fun g hg he ht ha hr hlim => ?_,
    fun ns h => ?_⟩, fun s g => ⟨fun h => ?_, fun hr htime => ?_⟩, fun s c => ⟨fun h => ?_, fun h => ?_, rfl⟩⟩
  · have hf : firesOn s n = false := by rcases h with h | h <;> simp [firesOn, h]
    have hl : latchFiring s n code = setSrc s n ((srcOf s n).fired code) := by simp [latchFiring_eq, hf]
    rw [fire_of_notFull (by rw [hl]; exact hn), hl, hf]
    rfl
  · have hf : firesOn s n = true := by simp [firesOn, he, ht]
    have hco : coalesces s n = false := by simp [coalesces, hr, Nat.not_le.mpr hc, htime]
    have hl : latchFiring s n code = setSrc s n ((srcOf s n).fired code) := by simp [latchFiring_eq, hco]
    have hn : holdsFull (latchFiring s n code) (n / 16) = false := by
      have hg : grpOf (latchFiring s n code) (n / 16) = grpOf s (n / 16) := by rw [hl]; rfl
      simp [holdsFull, hg, hr]
    have hx : fire s n code = setPending (setSrc s n ((srcOf s n).fired code)) n := by
      rw [fire_of_notFull hn, hl]
      simp [hf, hco]
    exact ⟨hx, hx ▸ pending_setPending _ n⟩
  · have hf : firesOn s n = true := by simp [firesOn, he, ht]
    have hco : coalesces s n = true := by simp [coalesces, ha, hr, hlim]
    have hg := (grpOf_holdFiring_self (setSrc s n ((srcOf s n).fired code)) n).trans (if_neg (Bool.eq_false_iff.mp hr))
    rw [fire_held hf hco (by simp [holdsFull, hg]; omega), srcOf_holdFiring_self, srcOf_setSrc_self]
    exact ⟨rfl, hg⟩
  · subst hg
    have hf : firesOn s n = true := by simp [firesOn, he, ht]
    have hco : coalesces s n = true := by simp [coalesces, ha, hr]
    have hg : grpOf (holdFiring (setSrc s n ((srcOf s n).fired code)) n) (n / 16) =
        { grpOf s (n / 16) with held := (grpOf s (n / 16)).held + 1 } := (grpOf_holdFiring_self ..).trans (if_pos hr)
    rw [fire_held hf hco (by simp [holdsFull, hg]; omega), srcOf_holdFiring_self, srcOf_setSrc_self]
    exact ⟨rfl, hg⟩
  · exact fireAll_of_noneFull h
  · refine congrArg Host.Outcome.next (if_neg ?_)
    rcases h with h | h <;> simp [h]
  · refine ⟨_, congrArg Host.Outcome.next (if_pos (by simp [hr, htime])), rfl, ?_, ?_, fun e he hg hheld htarget hsrc => ?_⟩
    · rw [releaseGroup, grpOf_routeAll, grpOf_endHoldoff]
    · rw [releaseGroup, grpOf_routeAll, grpOf_endHoldoff]
    · have hmem : e.1 ∈ heldIn s g := List.mem_map.mpr ⟨e, List.mem_filter.mpr ⟨he, by simp [hg, hheld]⟩, rfl⟩
      rw [releaseGroup]
      refine ⟨(held_routeAll ..).trans (held_endHoldoff hmem), pending_routeAll (List.mem_filter.mpr ⟨hmem, ?_⟩) _⟩
      simp [hsrc, htarget]
  · exact congrArg Host.Outcome.next (by simp [h])
  · exact congrArg Host.Outcome.next (by simp [h])

end Sys2Proof.Machine

/-! Open debug: the trace buffer, the trigger pins and the test access port. -/

namespace Sys2Proof.Machine

/-! ### The trace buffer (R419, R420) -/

theorem startTrace_eq {s : State} (h : objGet s 0xA000 1 = 0) :
    startTrace s = objSet { claim s (objKey 0xA000 1) [traceRegion s] with trace := { running := true } } 0xA000 1 1 := by
  simp [startTrace, h]

/-- DATA is what the record holds, but for an error's, which is unstated. -/
theorem traceData_eq (s : State) (r : TraceRec) :
    ∃ a b n, (r.kind ≠ 5 → a = r.data1 ∧ b = r.data0) ∧ traceData s r = ({ r with data1 := a, data0 := b }, { s with drawn := n }) := by
  by_cases h : r.kind = 5
  · exact ⟨_, _, _, fun hk => absurd h hk, if_pos (by simp [h])⟩
  · exact ⟨r.data1, r.data0, s.drawn, fun _ => ⟨rfl, rfl⟩, if_neg (by simp [h])⟩

theorem pulse_trace (s : State) (k : Nat) : (pulse s k).trace = s.trace := by
  unfold pulse
  split <;> rfl

theorem pulse_mem (s : State) (k : Nat) : (pulse s k).mem = s.mem := by
  unfold pulse
  split <;> rfl

/-- The trigger output of a record written (R420). -/
def triggered (s : State) (r : TraceRec) : State := if r.trigger then fire (pulse s 3) 210 r.code else s

theorem triggered_trace (s : State) (r : TraceRec) : (triggered s r).trace = s.trace := by
  unfold triggered
  split
  · rw [fire_trace, pulse_trace]
  · rfl

theorem triggered_mem (s : State) (r : TraceRec) : (triggered s r).mem = s.mem := by
  unfold triggered
  split
  · rw [fire_mem, pulse_mem]
  · rfl

theorem triggered_latch {r : TraceRec} (h : r.trigger = true) (s : State) : (srcOf (triggered s r) 210).latch = true := by
  rw [triggered, if_pos h]
  exact (fire_latch ..).1

/-- Trace ends when its region is full in stop mode (R419). -/
def endedFull (s : State) (ends : Bool) : State := if ends then fire { s with trace := { s.trace with running := false } } 208 0 else s

theorem endedFull_trace (s : State) (ends : Bool) :
    (endedFull s ends).trace = { s.trace with running := s.trace.running && !ends } := by
  cases ends
  · simp [endedFull]
  · simp [endedFull]

theorem endedFull_mem (s : State) (ends : Bool) : (endedFull s ends).mem = s.mem := by
  cases ends
  · rfl
  · exact fire_mem ..

theorem endedFull_latch (s : State) : (srcOf (endedFull s true) 208).latch = true := (fire_latch ..).1

theorem endedFull_latch_other (s : State) (ends : Bool) : (srcOf (endedFull s ends) 210).latch = (srcOf s 210).latch := by
  cases ends
  · rfl
  · exact (fireAll_unlatched (ns := [208]) (by decide) _ 0).1

/-- The state in which a record's bytes stand in the region, before its trigger. -/
def recorded (s : State) (addr : Nat) (b : List Byte) (rest : List TraceRec) : State :=
  bump { memWrite s addr b with trace := { s.trace with queue := rest, next := s.trace.next + 1, overflow := false } } 0xA000 9

theorem recorded_reads (s : State) (addr : Nat) (b : List Byte) (rest : List TraceRec) :
    memBytes (recorded s addr b rest) addr b.length = b := memBytes_memWrite_self s addr b

theorem recorded_keeps (s : State) (addr : Nat) (b : List Byte) (rest : List TraceRec) {a n : Nat} (h : a + n ≤ addr ∨ addr + b.length ≤ a) :
    memBytes (recorded s addr b rest) a n = memBytes s a n := cellsGet_cellsSet_out s.mem.dev addr a n b h

theorem traceBytes_length (s : State) (r : TraceRec) (overflow : Bool) : (traceBytes s r overflow).length = 32 := leBytes_length ..

/-- Where the next record goes (R419). -/
def recordAddr (s : State) : Nat := objGet s 0xA000 2 + 32 * (s.trace.next % (objGet s 0xA000 3 / 32))

/-- The oldest record r written, its DATA as d says, with its trigger. -/
def traceWritten (s : State) (d : TraceRec) (rest : List TraceRec) : State :=
  triggered (recorded s (recordAddr s) (traceBytes s d s.trace.overflow) rest) d

theorem traceWritten_trace (s : State) (d : TraceRec) (rest : List TraceRec) :
    (traceWritten s d rest).trace = { s.trace with queue := rest, next := s.trace.next + 1, overflow := false } := triggered_trace ..

theorem traceWritten_reads (s : State) (d : TraceRec) (rest : List TraceRec) :
    memBytes (traceWritten s d rest) (recordAddr s) 32 = traceBytes s d s.trace.overflow := by
  rw [memBytes, traceWritten, triggered_mem]
  exact (congrArg (memBytes _ _) (traceBytes_length ..)).symm.trans (recorded_reads ..)

theorem traceWritten_keeps (s : State) (d : TraceRec) (rest : List TraceRec) {a n : Nat} (h : a + n ≤ recordAddr s ∨ recordAddr s + 32 ≤ a) :
    memBytes (traceWritten s d rest) a n = memBytes s a n := by
  rw [memBytes, traceWritten, triggered_mem]
  exact recorded_keeps _ _ _ _ ((traceBytes_length ..).symm ▸ h)

/-- The oldest record, written where the region has room for it. -/
theorem exec_traceRecordWrite_room {s : State} {r : TraceRec} {rest : List TraceRec} (hq : s.trace.queue = r :: rest)
    (h : objGet s 0xA000 4 ≠ 1 ∨ s.trace.next < objGet s 0xA000 3 / 32) :
    ∃ a b n, (r.kind ≠ 5 → a = r.data1 ∧ b = r.data0) ∧ exec .traceRecordWrite s = .next
      (endedFull (traceWritten { s with drawn := n } { r with data1 := a, data0 := b } rest)
        (objGet s 0xA000 4 == 1 && objGet s 0xA000 3 / 32 ≤ s.trace.next + 1)) := by
  obtain ⟨a, b, n, hab, hd⟩ := traceData_eq s r
  have hx : exec .traceRecordWrite s = .next
      (endedFull (traceWritten { s with drawn := n } { r with data1 := a, data0 := b } rest) (objGet s 0xA000 4 == 1 &&
        objGet s 0xA000 3 / 32 ≤ (traceWritten { s with drawn := n } { r with data1 := a, data0 := b } rest).trace.next)) := by
    refine congrArg Host.Outcome.next ?_
    simp only [hq]
    rw [if_neg (by rcases h with h | h <;> simp [h]), hd]
    rfl
  rw [traceWritten_trace] at hx
  exact ⟨a, b, n, hab, hx⟩

/-! ### The test access port (R421) -/

theorem captureDr_boundary {s : State} (h : tapReg s = .boundary) :
    ∃ reg, reg.length = Config.boundaryLength ∧ captureDr s = (reg, { s with drawn := s.drawn + Config.boundaryLength }) :=
  ⟨(List.range Config.boundaryLength).map (fun k => (Config.freeValue (s.drawn + k)).testBit 0), by simp, by simp [captureDr, h, reserveFree]⟩

/-- A scan of a data register other than the boundary register. -/
theorem tapScan_of_capture {s : State} {op : Nat} {reg : List Bool} (tdi : List Bool)
    (hc : captureDr { s with tap := { s.tap with ir := op } } = (reg, { s with tap := { s.tap with ir := op } }))
    (hr : tapReg { s with tap := { s.tap with ir := op } } ≠ .boundary) :
    tapScan s op tdi = { s with tap := { s.tap with
      ir := op, dr := (reg ++ tdi).drop tdi.length, tdo := (reg ++ tdi).take tdi.length } } := by
  unfold tapScan
  simp [hc, hr, shiftDr]

theorem tapScan_bypass {s : State} {op : Nat} (tdi : List Bool) (hr : tapReg { s with tap := { s.tap with ir := op } } = .bypass) :
    tapScan s op tdi = { s with tap := { s.tap with
      ir := op, dr := ([false] ++ tdi).drop tdi.length, tdo := ([false] ++ tdi).take tdi.length } } :=
  tapScan_of_capture tdi (by simp [captureDr, hr]) (by rw [hr]; decide)

theorem tapScan_boundary {s : State} {op : Nat} (tdi : List Bool) (hr : tapReg { s with tap := { s.tap with ir := op } } = .boundary) :
    ∃ reg n, reg.length = Config.boundaryLength ∧ tapScan s op tdi = { s with
      drawn := n
      tap := { ir := op, dr := (reg ++ tdi).drop tdi.length, tdo := (reg ++ tdi).take tdi.length
               boundary := if tdi = [] then s.tap.boundary else (reg ++ tdi).drop tdi.length } } := by
  obtain ⟨reg, hl, hc⟩ := captureDr_boundary hr
  refine ⟨reg, s.drawn + Config.boundaryLength, hl, ?_⟩
  have hr' : tapReg { s with tap := { s.tap with ir := op }, drawn := s.drawn + Config.boundaryLength } = .boundary := hr
  unfold tapScan
  cases tdi <;> simp [hc, hr', shiftDr]

theorem tapReg_bypass {s : State} {op : Nat} (h : op ∉ [0x00, 0x01, 0x02, 0x03, 0x04, 0x10]) :
    tapReg { s with tap := { s.tap with ir := op } } = .bypass := by
  simp only [List.mem_cons, not_or] at h
  obtain ⟨h0, h1, h2, h3, h4, h10, -⟩ := h
  unfold tapReg
  split <;> simp_all

/-- Settles O48: trace started, ended and written, the trigger input, and the scan of each data register. -/
theorem debug : Obligations.Debug := by
  unfold Obligations.Debug
  refine ⟨⟨fun s via v hv ht => ?_, fun s h => ?_, fun s via v hv ht => ?_, fun s => ⟨fun hq => ?_, fun r rest hq => ⟨fun hm hc => ?_, fun h => ?_⟩⟩⟩,
    fun s => ?_, fun s op tdi hop => ?_⟩
  · have hx : exec (.traceEnable via v) s = .next (traceEnableEffect via 0xA000 1 (leBytes 1 v) _) :=
      congrArg _ (requestWrite_takes ht traceEnableEffect)
    have hl : leNat (leBytes 1 v) = v := leNat_leBytes_of_lt (by omega)
    refine ⟨fun h0 => hx.trans ?_, fun h1 => ⟨fun h hb => hx.trans ?_, fun hb => hx.trans ?_⟩⟩
    · rw [traceEnableEffect, hl, if_pos (by simp [h0])]
    · rw [traceEnableEffect, hl, if_neg (by simp [h1]), hb]
    · rw [traceEnableEffect, hl, if_neg (by simp [h1]), hb]
  · rw [startTrace_eq h]
    exact ⟨rfl, objGet_objSet_self ..⟩
  · have hx : exec (.traceMark via v) s = .next (traceMarkEffect via 0xA000 8 (leBytes 8 v) _) :=
      congrArg _ (requestWrite_takes ht traceMarkEffect)
    rw [hx, traceMarkEffect, leNat_leBytes_of_lt hv]
  · exact congrArg Host.Outcome.next (by simp only [hq])
  · refine congrArg Host.Outcome.next ?_
    simp only [hq]
    exact if_pos (by simp [hm, hc])
  · obtain ⟨a, b, n, hab, hx⟩ := exec_traceRecordWrite_room hq h
    refine ⟨_, hx, ?_, ⟨a, b, hab, ?_⟩, fun htr => ?_, fun hm hc => ?_, fun x k hk => ?_⟩
    · rw [endedFull_trace, traceWritten_trace]
    · rw [memBytes, endedFull_mem]
      exact traceWritten_reads ..
    · rw [endedFull_latch_other]
      exact triggered_latch htr _
    · rw [hm, decide_eq_true hc]
      exact endedFull_latch _
    · rw [memBytes, endedFull_mem]
      exact traceWritten_keeps _ _ _ hk
  · refine ⟨fun h => congrArg Host.Outcome.next (if_pos ?_), fun hp hr => ?_⟩
    · rcases h with h | h <;> simp [h]
    have hx : exec .debugTriggerIn s = .next (
        let u := fire (traceRec s 8 0 63 0 0 0) 209 0
        if objGet u 0xA000 7 == 1 then (if (claimBlocked u (objKey 0xA000 1) [traceRegion u]).isNone then startTrace u else u)
        else if objGet u 0xA000 7 == 2 then stopTrace u else u) :=
      congrArg Host.Outcome.next (if_neg (by simp [hp, hr]))
    refine ⟨fun h1 hb => hx.trans ?_, fun h1 hb => hx.trans ?_, fun h2 => hx.trans ?_, fun h1 h2 => hx.trans ?_⟩
    · simp [h1, hb]
    · simp [h1, hb]
    · simp [h2]
    · simp [h1, h2]
  · refine ⟨rfl, congrArg Host.Outcome.next (tapScan_of_capture tdi rfl (by simp [tapReg])), congrArg Host.Outcome.next (tapScan_bypass tdi rfl),
      congrArg Host.Outcome.next (tapScan_bypass tdi rfl), congrArg Host.Outcome.next (tapScan_of_capture tdi rfl (by simp [tapReg])),
      fun h => congrArg Host.Outcome.next (tapScan_bypass tdi (if_neg (by simp [h]))), ?_, fun h => ?_, fun h => ⟨?_, tapReg_bypass h⟩,
      fun h => congrArg Host.Outcome.next (if_pos (List.contains_iff_mem.mpr h)), rfl, rfl, rfl, fun h => ⟨if_pos h, ?_⟩, fun h => ⟨if_neg (by simp [h]), ?_, ?_⟩⟩
    · obtain ⟨reg, n, hl, hx⟩ := tapScan_boundary (s := s) (op := 0x01) tdi rfl
      exact ⟨reg, n, hl, congrArg Host.Outcome.next hx⟩
    · obtain ⟨reg, n, hl, hx⟩ := tapScan_boundary (s := s) (op := 0x00) tdi (if_pos h)
      exact ⟨reg, n, hl, congrArg Host.Outcome.next hx⟩
    · have hx : exec (.bypass op tdi) s = .next (tapScan s (op % 256) tdi) :=
        congrArg Host.Outcome.next (if_neg (by rwa [List.contains_iff_mem]))
      rw [hx, Nat.mod_eq_of_lt hop]
      exact congrArg Host.Outcome.next (tapScan_bypass tdi (tapReg_bypass h))
    · simp [tapDrives, h]
    · simp [tapHolds, h]
    · simp [tapOff, h]

end Sys2Proof.Machine

/-! Power, reset and the bring-up. -/

namespace Sys2Proof.Machine

/-! ### Power and reset (R383, R384, R392, R428) -/

/-- Settles O55: each power and reset command leaves the state that its rule writes out. -/
theorem resetWorks : Obligations.ResetWorks := by
  refine fun s => ⟨fun h => congrArg Host.Outcome.next (if_pos h), fun h => ⟨_, congrArg Host.Outcome.next (if_neg (by simp [h])), rfl⟩,
    ⟨resetBlock s, rfl, rfl, rfl, rfl, rfl, rfl, rfl, rfl, rfl, rfl, rfl, rfl, rfl, rfl, rfl, rfl, rfl, rfl, rfl, rfl, rfl, rfl, rfl, rfl, rfl,
      rfl, rfl, rfl, rfl, rfl, rfl, rfl, rfl, rfl, rfl, rfl, fun _ _ => rfl⟩,
    ⟨powerOn (resetBlock { s with boot := { s.boot with pwrgood := false } }), rfl, rfl, rfl, rfl, rfl, rfl, rfl, rfl⟩,
    fun h hp => congrArg Host.Outcome.next (if_neg (by simp [h, hp])), fun h => congrArg Host.Outcome.next (if_pos ?_)⟩
  rcases h with h | h <;> simp [h]

/-! ### Units that fail their self-test (R384, R417) -/

theorem setRetired_boot (s : State) (k : UnitKind) (u : Nat) (v : Bool) : (setRetired s k u v).boot = s.boot := by
  unfold setRetired
  split <;> rfl

theorem setRetired_fed (s : State) (k : UnitKind) (u : Nat) (v : Bool) : (setRetired s k u v).fed = s.fed := by
  unfold setRetired
  split <;> rfl

theorem unitCount_congr {s t : State} (h : t.boot.fuses = s.boot.fuses) (k : UnitKind) : unitCount t k = unitCount s k := by
  have hf : fullArray t = fullArray s := by rw [fullArray, h, fullArray]
  cases k
  case txa => exact congrArg (fun b => if b = true then 120 else 60) hf
  all_goals rfl

theorem unitFailed_fuses (s : State) (k : UnitKind) (code u : Nat) : (unitFailed s k code u).boot.fuses = s.boot.fuses := by
  unfold unitFailed
  dsimp only
  split
  · rw [raiseErr_boot, setRetired_boot]
    rfl
  · exact (congrArg Boot.fuses (setRetired_boot (setEnable s k u false) k u true) :)

/-- The units of one kind that failed. -/
def failUnits (s : State) (k : UnitKind) (code : Nat) (us : List Nat) : State :=
  (us.filter (fun u => u < unitCount s k)).foldl (fun s u => unitFailed s k code u) s

theorem failUnits_fuses (s : State) (k : UnitKind) (code : Nat) (us : List Nat) : (failUnits s k code us).boot.fuses = s.boot.fuses :=
  List.foldlRecOn (motive := fun t => t.boot.fuses = s.boot.fuses) _ _ rfl (fun t ht u _ => (unitFailed_fuses t k code u).trans ht)

/-- The units that failed as the self-tests report them, each with its kind and code. -/
def failedOf (s : State) (l : List (UnitKind × Nat × List Nat)) : List (UnitKind × Nat × Nat) :=
  l.flatMap (fun x => (x.2.2.filter (fun u => u < unitCount s x.1)).map (fun u => (x.1, x.2.1, u)))

/-- Which units exist does not change as some of them fail. -/
theorem foldl_failUnits {s : State} (l : List (UnitKind × Nat × List Nat)) {t : State} (h : t.boot.fuses = s.boot.fuses) :
    l.foldl (fun s x => failUnits s x.1 x.2.1 x.2.2) t = (failedOf s l).foldl (fun s x => unitFailed s x.1 x.2.1 x.2.2) t := by
  induction l generalizing t with
  | nil => rfl
  | cons x l ih =>
    rw [List.foldl_cons, ih ((failUnits_fuses ..).trans h), failUnits, unitCount_congr h]
    have hx : failedOf s (x :: l) = (x.2.2.filter (fun u => u < unitCount s x.1)).map (fun u => (x.1, x.2.1, u)) ++ failedOf s l := rfl
    rw [hx, List.foldl_append, List.foldl_map]

/-! ### The bring-up's steps (R384, R387, R411) -/

theorem announceSelf_sent (s : State) : (announceSelf s).fed.announced = true ∧ (announceSelf s).fed.tx.length = s.fed.tx.length + 1 :=
  ⟨rfl, List.length_append⟩

/-- Settles O56: each step of the bring-up, with what it waits for. -/
theorem bringupRuns : Obligations.BringupRuns := by
  unfold Obligations.BringupRuns
  refine ⟨fun s kind mode die strap m0 m1 => ⟨fun h => congrArg Host.Outcome.next (if_pos ?_), fun hr hl => ⟨_, congrArg Host.Outcome.next (if_neg (by simp [hr, hl])), ?_⟩⟩,
    fun s => ⟨fun hl hh => congrArg Host.Outcome.next (if_neg (by simp [hl, hh])), fun h => congrArg Host.Outcome.next (if_pos ?_)⟩,
    fun s passed ports => ⟨fun hh hc => ⟨_, congrArg Host.Outcome.next (if_neg (by simp [hh, hc])), rfl, ?_, ?_⟩, fun h => congrArg Host.Outcome.next (if_pos ?_)⟩,
    fun s links k => ⟨fun h => congrArg Host.Outcome.next (if_pos ?_), fun hc hl h0 => ?_, fun hc hl h0 => ?_⟩,
    fun s a b c d e => ⟨fun h => congrArg Host.Outcome.next (if_pos ?_), fun hc hu => ?_⟩,
    fun s k code u => ⟨fun h => if_pos ?_, fun h => ?_⟩⟩
  · rcases h with h | h <;> simp [h]
  · refine ⟨?_, ?_, fun hf => ⟨?_, ?_, ?_⟩, fun f hf => ⟨?_, ?_⟩⟩
    · cases s.boot.fuses <;> rfl
    · cases s.boot.fuses <;> rfl
    · simp [hf, fuseTiles]
    · rw [objGet_objSet_ne _ _ _ _ _ _ (by decide), objGet_objSet_self, hf]
      rfl
    · rw [objGet_objSet_self, hf]
      rfl
    · simp [hf, fuseTiles]
    · simp [hf, fuseTiles]
  · rcases h with h | h <;> simp [h]
  · exact (testBit_putBit ..).trans ((if_neg (by decide)).trans ((testBit_putBit ..).trans (if_pos rfl)))
  · exact (testBit_putBit ..).trans ((if_pos rfl).trans (beq_eq_decide ..))
  · rcases h with h | h <;> simp [h]
  · rcases h with h | h <;> simp [h]
  · refine ⟨_, congrArg Host.Outcome.next ((if_neg (by simp [hc, hl])).trans (if_pos (by simp [h0]))), rfl, h0, ?_, rfl, rfl⟩
    simp [testBit_putBit, h0]
  · have hu : (links % 16 != 0) = true := bne_iff_ne.mpr h0
    refine ⟨?_, announceSelf_sent _⟩
    refine congrArg Host.Outcome.next ((if_neg (by simp [hc, hl])).trans ((if_neg (by simp [h0])).trans ?_))
    dsimp only
    rw [hu]
  · rcases h with h | h <;> simp [h]
  · refine congrArg Host.Outcome.next ((if_neg (by simp [hc, hu])).trans ?_)
    exact foldl_failUnits (s := s) [(.txa, 1, a), (.sdx, 2, b), (.rsv, 3, c), (.mdc, 4, d), (.tok, 5, e)] rfl
  · rwa [headCountClosed, setRetired_fed]
  · refine (if_neg ?_).trans ?_
    · rw [headCountClosed, setRetired_fed]
      exact Bool.eq_false_iff.mp h
    · rw [setRetired_boot]
      rfl

end Sys2Proof.Machine

/-! The head count and the part in service. -/

namespace Sys2Proof.Machine

/-! ### Messages of the head count (R387 to R390, R393) -/

section
variable {s0 s : State} {m : FedArrival}

theorem exec_announce (h : Received 1 m s0 s) (k : Nat) :
    let b := m.bytes
    let d := msgSrc b
    let a : Heard := { group := fld b 4 1, members := fld b 5 1, health := fld b 6 1, kind := fld b 7 1 }
    let u := { s with fed := { s.fed with heard := tblSet none s.fed.heard d (some a) } }
    exec (.announce m k) s0 = .next (
      if a.group != s.fed.groupUsed || 8 ≤ d then s
      else if !counting s then
        (if (electorate s).testBit d then { s with fed := { s.fed with called := tblSet none s.fed.called d (some a) } } else s)
      else if !(expectedDies s).testBit d then s
      else if candidate s && a.health == 7 && d < dieId s then registerWith u d
      else if candidate s then closeCheck u k
      else if heardAll u then registerNow u k else u) :=
  congrArg Host.Outcome.next (fedTake_received h _)

/-- What a candidate, or an engine registered elsewhere, does with a registration (R388). -/
def registration (s : State) (d k : Nat) : State :=
  match s.fed.regWith with
  | some w => if w != dieId s then fedSend s fedRedirect d (leBytes 1 w) else closeCheck { s with fed := { s.fed with regs := setAdd s.fed.regs [d] } } k
  | none => if counting s then { s with fed := { s.fed with regs := setAdd s.fed.regs [d] } } else s

theorem exec_register (h : Received 2 m s0 s) (k : Nat) :
    exec (.register m k) s0 = .next (
      if fld m.bytes 4 1 != s.fed.groupUsed || !(expectedDies s).testBit (msgSrc m.bytes) || s.fed.health != 7 then s
      else if s.fed.hcState == 3 && !s.fed.electing then fedSend s fedRoster (msgSrc m.bytes) (rosterPayload s)
      else registration s (msgSrc m.bytes) k) :=
  congrArg Host.Outcome.next (fedTake_received h _)

theorem exec_redirect (h : Received 3 m s0 s) :
    exec (.redirect m) s0 = .next (
      if !counting s || s.fed.regWith != some (msgSrc m.bytes) || fld m.bytes 4 1 == dieId s || 8 ≤ fld m.bytes 4 1
        || !(expectedDies s).testBit (fld m.bytes 4 1) then s
      else registerWith s (fld m.bytes 4 1)) :=
  congrArg Host.Outcome.next (fedTake_received h _)

theorem exec_roster (h : Received 4 m s0 s) (k : Nat) :
    exec (.roster m k) s0 = .next (
      if !(s.fed.membersUsed.testBit (msgSrc m.bytes) && ((heardOf s (msgSrc m.bytes)).isSome || s.fed.regWith == some (msgSrc m.bytes)))
        || s.fed.hcState == 5 || fld m.bytes 4 4 ≤ s.fed.version then s
      else if !(fld m.bytes 8 1).testBit (dieId s) then exclude s
      else if headCountClosed s then changeRoster s (fld m.bytes 9 1) (fld m.bytes 8 1) (fld m.bytes 4 4)
      else closeHeadCount s (fld m.bytes 9 1) (fld m.bytes 8 1) (fld m.bytes 4 4) 4 k) :=
  congrArg Host.Outcome.next (fedTake_received h _)

theorem exec_beat (h : Received 5 m s0 s) :
    exec (.beat m) s0 = .next (
      if s.fed.hcState == 4 && msgSrc m.bytes == s.fed.lead && !s.fed.electing then fedSend s fedBeat s.fed.lead (leBytes 4 s.fed.version)
      else s) :=
  congrArg Host.Outcome.next (fedTake_received h _)

end

theorem known_iff {s : State} {d : Nat} :
    (s.fed.membersUsed.testBit d && ((heardOf s d).isSome || s.fed.regWith == some d)) = true
      ↔ s.fed.membersUsed.testBit d = true ∧ (heardOf s d ≠ none ∨ s.fed.regWith = some d) := by
  rw [Bool.and_eq_true, Bool.or_eq_true, beq_iff_eq, Option.isSome_iff_ne_none]

/-! ### The close of the head count (R391, R429) -/

theorem trainPorts_frame (s : State) : Changes (fun x => ([.boot, .net] : List Part).contains x) s (trainPorts s) :=
  trainPorts_changes s (Changes.refl _ s) rfl rfl

theorem engineReady_fed (s : State) : ∃ e, (engineReady s).fed = { s.fed with engineState := e } := by
  unfold engineReady
  split
  · exact ⟨2, rfl⟩
  · exact ⟨s.fed.engineState, rfl⟩

theorem engineReady_frame (s : State) : Changes (fun x => x == .fed) s (engineReady s) := engineReady_changes s (Changes.refl _ s) rfl

/-- The ports set going and the engine's readiness leave everything else of the close as it is. -/
theorem engineReady_trainPorts (s : State) :
    (∃ e, (engineReady (trainPorts s)).fed = { s.fed with engineState := e })
    ∧ (∀ i k, objGet (engineReady (trainPorts s)) i k = objGet s i k) ∧ (engineReady (trainPorts s)).evt = s.evt
    ∧ (engineReady (trainPorts s)).removal = s.removal := by
  have h := trainPorts_frame s
  have hr := engineReady_frame (trainPorts s)
  refine ⟨?_, fun i k => (hr.objGet_eq rfl rfl i k).trans (h.objGet_eq rfl rfl i k), (hr.evt.resolve_left (by decide)).trans (h.evt.resolve_left (by decide)),
    (hr.removal.resolve_left (by decide)).trans (h.removal.resolve_left (by decide))⟩
  obtain ⟨e, he⟩ := engineReady_fed (trainPorts s)
  exact ⟨e, by rw [he, h.fed.resolve_left (by decide)]⟩

theorem lateFailures_none {s : State} (h : s.boot.failedUnits = []) : lateFailures s = { s with boot := { s.boot with failedUnits := [] } } := by
  rw [lateFailures, h]
  rfl

/-- The members that the head count has not admitted. -/
def missingOf (members admitted : Nat) : Nat :=
  (List.range 8).foldl (fun m d => if admitted.testBit d then putBit m d false else m) members

theorem testBit_foldl_drop (admitted : Nat) (l : List Nat) (m d : Nat) :
    (l.foldl (fun m d => if admitted.testBit d then putBit m d false else m) m).testBit d
      = (m.testBit d && !(decide (d ∈ l) && admitted.testBit d)) := by
  induction l generalizing m with
  | nil => simp
  | cons a l ih =>
    rw [List.foldl_cons, ih]
    by_cases ha : admitted.testBit a
    · by_cases hd : d = a
      · subst hd
        simp [ha, testBit_putBit]
      · simp [ha, hd, testBit_putBit]
    · by_cases hd : d = a
      · subst hd
        simp [ha]
      · simp [ha, hd]

theorem testBit_missingOf (members admitted : Nat) {d : Nat} (h : d < 8) :
    (missingOf members admitted).testBit d = (members.testBit d && !admitted.testBit d) := by
  rw [missingOf, testBit_foldl_drop]
  simp [h]

/-- The head count's result is kept, and source 0, and source 1 when a member is missing, fire (R391). -/
def closed (s : State) (lead admitted version hcState aclk : Nat) : State :=
  let missing := missingOf s.fed.membersUsed admitted
  let s := fire (objSet { s with fed := { s.fed with
    hcState := hcState, lead := lead, admitted := admitted, version := version, missing := missing
    present := popCount admitted, closeAclk := aclk, engineState := 1, regWith := some lead } } 0x6801 3 0) 0 0
  if missing != 0 then fire s 1 0 else s

/-- A bus sag asserted at the close sets SAG_STATE (R429). -/
def sagAtClose (s : State) : State := if s.boot.busSag then sagBegin s else s

theorem closeHeadCount_eq (s : State) (lead admitted version hc k : Nat) : closeHeadCount s lead admitted version hc k =
    engineReady (trainPorts (sagAtClose (lateFailures (closed s lead admitted version hc k)))) := rfl

theorem closed_frame (s : State) (lead admitted version hc k : Nat) :
    (closed s lead admitted version hc k).boot = s.boot
    ∧ (closed s lead admitted version hc k).fed = { s.fed with
        hcState := hc, lead := lead, admitted := admitted, version := version, missing := missingOf s.fed.membersUsed admitted
        present := popCount admitted, closeAclk := k, engineState := 1, regWith := some lead }
    ∧ objGet (closed s lead admitted version hc k) 0x6801 3 = 0 := by
  unfold closed
  dsimp only
  split
  · refine ⟨by simp, by simp, ?_⟩
    rw [objGet_fire _ _ _ (by decide), objGet_fire _ _ _ (by decide), objGet_objSet_self]
  · refine ⟨by simp, by simp, ?_⟩
    rw [objGet_fire _ _ _ (by decide), objGet_objSet_self]

theorem closed_latch (s : State) (lead admitted version hc k : Nat) :
    (srcOf (closed s lead admitted version hc k) 0).latch = true
    ∧ (missingOf s.fed.membersUsed admitted ≠ 0 → (srcOf (closed s lead admitted version hc k) 1).latch = true) := by
  unfold closed
  dsimp only
  split
  · exact ⟨(fireAll_unlatched (ns := [1]) (by decide) _ 0).1.trans (fire_latch ..).1, fun _ => (fire_latch ..).1⟩
  · next h => exact ⟨(fire_latch ..).1, fun hm => absurd (bne_iff_ne.mpr hm) (by simpa using h)⟩

theorem setQuiesce_frame (s : State) (p v : Nat) :
    Changes (fun x => ([.objects, .tallies, .net, .evt] : List Part).contains x) s (setQuiesce s p v) :=
  setQuiesce_changes s p v (Changes.refl _ s) rfl rfl rfl rfl

theorem sagBegin_removal (s : State) : (sagBegin s).removal = { s.removal with sag := true } := by
  rw [sagBegin, (setQuiesce_frame ..).removal.resolve_left (by decide), (setQuiesce_frame ..).removal.resolve_left (by decide),
    raiseErr_removal]

theorem lateFailures_busSag (s : State) : (lateFailures s).boot.busSag = s.boot.busSag :=
  List.foldlRecOn (motive := fun (t : State) => t.boot.busSag = s.boot.busSag) _ _ rfl (fun t ht _ _ => by rw [raiseErr_boot, ht])

/-- The close with no bus sag and no unit that failed. -/
theorem closeHeadCount_quiet {s : State} (hs : s.boot.busSag = false) (hf : s.boot.failedUnits = []) (lead admitted version hc k : Nat) :
    (∃ e, (closeHeadCount s lead admitted version hc k).fed = { s.fed with
        hcState := hc, lead := lead, admitted := admitted, version := version, missing := missingOf s.fed.membersUsed admitted
        present := popCount admitted, closeAclk := k, engineState := e, regWith := some lead })
    ∧ objGet (closeHeadCount s lead admitted version hc k) 0x6801 3 = 0
    ∧ (srcOf (closeHeadCount s lead admitted version hc k) 0).latch = true
    ∧ (missingOf s.fed.membersUsed admitted ≠ 0 → (srcOf (closeHeadCount s lead admitted version hc k) 1).latch = true) := by
  obtain ⟨hb, hfed, hseg⟩ := closed_frame s lead admitted version hc k
  obtain ⟨hl0, hl1⟩ := closed_latch s lead admitted version hc k
  rw [closeHeadCount_eq]
  generalize closed s lead admitted version hc k = v at hb hfed hseg hl0 hl1 ⊢
  rw [lateFailures_none (hb ▸ hf), sagAtClose, if_neg (by simp [hb, hs])]
  obtain ⟨⟨e, h1⟩, h2, h3, -⟩ := engineReady_trainPorts { v with boot := { v.boot with failedUnits := [] } }
  refine ⟨⟨e, by rw [h1, hfed]⟩, (h2 ..).trans hseg, ?_, fun hm => ?_⟩
  · rw [srcOf, h3]
    exact hl0
  · rw [srcOf, h3]
    exact hl1 hm

theorem exclude_eq (s : State) : exclude s =
    let u := netPower (portDown { s with fed := { s.fed with hcState := 5, electing := false } } 0) 0 false
    netPower (portDown u 1) 1 false := by
  rw [exclude, List.foldl_cons, List.foldl_cons, List.foldl_nil]

/-! ### A roster that drops no die (R394) -/

theorem leadRelease_fed (s : State) : ∃ l, (leadRelease s).fed = { s.fed with tx := l } := by
  unfold leadRelease
  split
  · exact ⟨_, rfl⟩
  · dsimp only
    rw [sendReleases_eq]
    exact ⟨_, rfl⟩

theorem sendArrive_fed (s : State) : ∃ l, (sendArrive s).fed = { s.fed with tx := l } := by
  unfold sendArrive
  split
  · exact leadRelease_fed _
  · exact ⟨_, rfl⟩

/-- What a new roster gives, before the dies it drops are seen off. -/
def rostered (s : State) (lead admitted version : Nat) : State :=
  { s with fed := { s.fed with
    hcState := if lead == dieId s then 3 else 4, lead := lead, admitted := admitted, version := version
    missing := missingOf s.fed.membersUsed admitted, present := popCount admitted, electing := false, regWith := some lead, called := [] } }

/-- With no die dropped, the new roster is taken and the stop goes on. -/
theorem changeRoster_noneGone {s : State} {lead admitted version : Nat}
    (h : ∀ d, d < 8 → s.fed.admitted.testBit d = true → admitted.testBit d = true) :
    changeRoster s lead admitted version =
      if s.fed.electing && s.dlv.reported && !s.dlv.permitted then sendArrive (rostered s lead admitted version)
      else leadRelease (rostered s lead admitted version) := by
  have hg : (List.range 8).filter (fun d => s.fed.admitted.testBit d && !admitted.testBit d) = [] := by
    rw [List.filter_eq_nil_iff]
    intro d hd
    have := h d (List.mem_range.mp hd)
    simpa using this
  unfold changeRoster
  rw [hg]
  rfl

theorem changeRoster_fed {s : State} {lead admitted version : Nat} (h : ∀ d, d < 8 → s.fed.admitted.testBit d = true → admitted.testBit d = true) :
    ∃ l, (changeRoster s lead admitted version).fed = { (rostered s lead admitted version).fed with tx := l } := by
  rw [changeRoster_noneGone h]
  split
  · exact sendArrive_fed _
  · exact leadRelease_fed _

/-! ### The obligations -/

/-- Settles O57: what each message of the head count does, case by case, and what its close leaves. -/
theorem headCount : Obligations.HeadCount := by
  unfold Obligations.HeadCount
  refine ⟨fun s0 s m k => ⟨fun hr => ?_, fun hr => ?_, fun hr => ?_⟩, fun s0 s m k hr => ?_, fun s k => ?_, fun s lead admitted version hc k hs hf => ?_,
    fun s lead admitted version hc k hs => ?_⟩
  · have hx := exec_announce hr k
    refine ⟨fun h => hx.trans ?_, fun hc he => hx.trans ?_, fun hc he => hx.trans ?_, fun hc he (hg : fld m.bytes 4 1 = s.fed.groupUsed) hd => hx.trans ?_,
      fun hc (hg : fld m.bytes 4 1 = s.fed.groupUsed) hd he => ⟨fun h1 (h2 : fld m.bytes 6 1 = 7) h3 => hx.trans ?_,
      fun h1 (h2 : fld m.bytes 6 1 ≠ 7 ∨ dieId s ≤ msgSrc m.bytes) => hx.trans ?_, fun h1 h2 => hx.trans ?_, fun h1 h2 => hx.trans ?_⟩⟩
    · exact congrArg Host.Outcome.next (if_pos (by rcases h with h | h <;> simp [h]))
    · simp [hc, he]
    · simp [hc, he]
    · simp [hc, he, hg, Nat.not_le.mpr hd]
    · simp [hc, he, hg, Nat.not_le.mpr hd, h1, h2, h3]
    · rw [if_neg (by simp [hg, Nat.not_le.mpr hd]), if_neg (by simp [hc]), if_neg (by simp [he]),
        if_neg (by rcases h2 with h2 | h2 <;> simp [h2, Nat.not_lt.mpr]), if_pos h1]
    · rw [if_neg (by simp [hg, Nat.not_le.mpr hd]), if_neg (by simp [hc]), if_neg (by simp [he]), if_neg (by simp [h1]), if_neg (by simp [h1]), if_pos h2]
    · rw [if_neg (by simp [hg, Nat.not_le.mpr hd]), if_neg (by simp [hc]), if_neg (by simp [he]), if_neg (by simp [h1]), if_neg (by simp [h1]), if_neg (by simp [h2])]
  · have hx := exec_register hr k
    refine ⟨fun h => hx.trans (congrArg Host.Outcome.next (if_pos (by rcases h with h | h | h <;> simp [h]))), fun hg he hh => ?_⟩
    rw [if_neg (by simp [hg, he, hh])] at hx
    have hlead : s.fed.hcState ≠ 3 ∨ s.fed.electing = true → ¬ (s.fed.hcState == 3 && !s.fed.electing) = true := by
      rintro (h | h) <;> simp [h]
    refine ⟨fun h3 hel => hx.trans (congrArg Host.Outcome.next (if_pos (by simp [h3, hel]))), fun h w hw hn => ?_, fun h hw => ?_, fun h hw => ?_⟩
    · rw [if_neg (hlead h), registration, hw] at hx
      exact hx.trans (congrArg Host.Outcome.next (if_pos (bne_iff_ne.mpr hn)))
    · rw [if_neg (hlead h), registration, hw] at hx
      exact hx.trans (congrArg Host.Outcome.next (if_neg (by simp)))
    · rw [if_neg (hlead h), registration, hw] at hx
      exact ⟨fun hc => hx.trans (congrArg Host.Outcome.next (if_pos hc)), fun hc => hx.trans (congrArg Host.Outcome.next (if_neg (by simp [hc])))⟩
  · have hx := exec_redirect hr
    refine ⟨fun h => hx.trans ?_, fun h1 h2 h3 h4 h5 => ⟨hx.trans ?_, rfl, rfl⟩⟩
    · exact congrArg Host.Outcome.next (if_pos (by rcases h with h | h | h | h | h <;> simp [h]))
    · exact congrArg Host.Outcome.next (if_neg (by simp [h1, h2, h3, h4, h5]))
  · have hx := exec_roster hr k
    refine ⟨fun h => hx.trans (congrArg Host.Outcome.next (if_pos ?_)), fun hk h5 hv => ?_⟩
    · rcases h with h | h | h
      · simp [Bool.eq_false_iff.mpr (mt known_iff.mp h)]
      · simp [h]
      · simp [h]
    · rw [if_neg (by simp [known_iff.mpr hk, h5, hv])] at hx
      refine ⟨fun ha => hx.trans ?_, fun ha hc => hx.trans ?_, fun ha hc => hx.trans ?_⟩
      · simp [ha]
      · simp [ha, hc]
      · simp [ha, hc]
  · refine ⟨fun h => congrArg Host.Outcome.next (if_pos h), fun h => congrArg Host.Outcome.next (if_neg (by simp [h])),
      fun h hc => congrArg Host.Outcome.next (if_pos (by simp [h, hc])), fun h => congrArg Host.Outcome.next (if_neg ?_),
      fun h1 h2 h3 h4 => ⟨congrArg Host.Outcome.next (if_neg (by simp [h1, h2, h3, h4])), exclude_eq s⟩, fun h => congrArg Host.Outcome.next (if_pos ?_)⟩
    · rcases h with h | h <;> simp [h]
    · rcases h with h | h | h | h <;> simp [h]
  · obtain ⟨⟨e, hfed⟩, hseg, hl0, hl1⟩ := closeHeadCount_quiet hs hf lead admitted version hc k
    generalize closeHeadCount s lead admitted version hc k = t at hfed hseg hl0 hl1 ⊢
    dsimp only
    rw [hfed]
    exact ⟨rfl, rfl, rfl, rfl, rfl, fun d hd => testBit_missingOf _ _ hd, hseg, hl0, hl1⟩
  · obtain ⟨hb, -, -⟩ := closed_frame s lead admitted version hc k
    have hbl : (lateFailures (closed s lead admitted version hc k)).boot.busSag = true := by rw [lateFailures_busSag, hb, hs]
    rw [closeHeadCount_eq]
    obtain ⟨-, -, -, hr⟩ := engineReady_trainPorts (sagBegin (lateFailures (closed s lead admitted version hc k)))
    rw [sagAtClose, if_pos hbl, hr, sagBegin_removal]

/-- Settles O58: beats, the silence of a die, the loss of a link and the roster, case by case. -/
theorem partInService : Obligations.PartInService := by
  unfold Obligations.PartInService
  refine ⟨fun s0 s m hr => ?_, fun s => ?_, fun s d hu he hd ha => ?_, fun s d h => congrArg Host.Outcome.next (if_pos ?_), fun s l => ?_,
    fun s lead admitted version h => ?_⟩
  · have hx := exec_beat hr
    refine ⟨fun h1 h2 h3 => hx.trans (congrArg Host.Outcome.next (if_pos (by simp [h1, h2, h3]))), fun h => hx.trans (congrArg Host.Outcome.next (if_neg ?_))⟩
    rcases h with h | h | h <;> simp [h]
  · refine ⟨fun h1 h2 => congrArg Host.Outcome.next (if_pos (by simp [h1, h2])), fun h => congrArg Host.Outcome.next (if_neg ?_)⟩
    rcases h with h | h <;> simp [h]
  · have hx : headCountClosed s = true → exec (.fedLeaveTimeout d) s = .next (
        if s.fed.hcState == 3 then
          let u := changeRoster s s.fed.lead (putBit s.fed.admitted d false) (s.fed.version + 1)
          fedSend u fedRoster 0xFF (rosterPayload u)
        else if d == s.fed.lead then elect s else s) :=
      fun hc => congrArg Host.Outcome.next (if_neg (by simp [hu, he, hd, ha, hc]))
    refine ⟨fun h3 => (hx (by simp [headCountClosed, h3])).trans (congrArg Host.Outcome.next (if_pos (by simp [h3]))),
      fun h4 hl => ⟨(hx (by simp [headCountClosed, h4])).trans (congrArg Host.Outcome.next ((if_neg (by simp [h4])).trans (if_pos (by simp [hl])))), rfl, h4⟩,
      fun h4 hl => (hx (by simp [headCountClosed, h4])).trans (congrArg Host.Outcome.next ((if_neg (by simp [h4])).trans (if_neg (by simp [hl]))))⟩
  · rcases h with h | h | h | h | h <;> simp [h]
  · refine ⟨fun h => congrArg Host.Outcome.next (if_pos ?_), fun h1 h2 => ⟨fun h3 h4 => ?_, fun h3 => ?_⟩⟩
    · rcases h with h | h <;> simp [h]
    · exact congrArg Host.Outcome.next ((if_neg (by simp [h1, h2])).trans (if_pos (by simp [h3, h4])))
    · refine congrArg Host.Outcome.next ((if_neg (by simp [h1, h2])).trans (if_neg ?_))
      rcases h3 with h3 | h3 <;> simp [h3]
  · obtain ⟨l, hl⟩ := changeRoster_fed h
    rw [hl]
    exact ⟨rfl, rfl, rfl, rfl⟩

end Sys2Proof.Machine

/-! Planned removal, the bus sag and the rucksacks. -/

namespace Sys2Proof.Machine

/-! ### Package-scoped writes outside a re-election (R394) -/

theorem requestWrite_takes_package {s : State} {via : Via} {i k : Nat} {data : List Byte} (ht : Takes s via i k data) (he : s.fed.electing = false)
    (f : WriteEffect) : requestWrite (packageEffect f) via i k data s = f via i k data (arriving s via i k data) :=
  (requestWrite_takes ht _).trans (if_neg (by simp [he]))

/-! ### The ports quiesce (R378) -/

theorem quiesceCheck_frame (s : State) (p : Nat) : Changes (fun x => ([.tallies, .net, .evt] : List Part).contains x) s (quiesceCheck s p) :=
  quiesceCheck_changes s p (Changes.refl _ s) rfl rfl rfl

theorem objGet_setQuiesce (s : State) (p v : Nat) {i k : Nat} (h : keyPart (objKey i k) = .objects) :
    objGet (setQuiesce s p v) i k = objGet (objSet s (portIndex p) 0x0A v) i k := by
  unfold setQuiesce
  dsimp only
  have hq := fun t => ((quiesceCheck_frame t p).objs (objKey i k)).resolve_left (by rw [h]; decide)
  refine (hq _).trans ?_
  split <;> rfl

theorem setQuiesce_slots (s : State) (p v : Nat) : (setQuiesce s p v).slots = s.slots := (setQuiesce_frame s p v).slots.resolve_left (by decide)

theorem setQuiesce_removal (s : State) (p v : Nat) : (setQuiesce s p v).removal = s.removal :=
  (setQuiesce_frame s p v).removal.resolve_left (by decide)

/-- The planned removal starts (R396): both ports quiesce, and every running slot that is not being saved is. -/
def removalStarted (s : State) : State :=
  let q := setQuiesce (setQuiesce { s with removal := { s.removal with state := 1 } } 0 1) 1 1
  (slotNumbers.filter (fun n => (slotOf q n).state == .running && (slotOf q n).save.isNone)).foldl (fun s n => startSave s n true) q

theorem exec_prepareRemoval {s : State} {via : Via} {v : Nat} (ht : Takes s via 0x1100 1 (leBytes 1 v)) (he : s.fed.electing = false) :
    let u := arriving s via 0x1100 1 (leBytes 1 v)
    exec (.prepareRemoval via v) s = .next (
      if u.removal.state == 3 then
        packageDone (if via == .link || (otherDies u).isEmpty then bump u 0x1180 0x0B else u) via 0x1100 1 (leBytes 1 v)
      else if u.removal.state != 0 then startLong u via 0x1100 1 (leBytes 1 v) true 0
      else startLong (removalStarted u) via 0x1100 1 (leBytes 1 v) true 0) :=
  congrArg Host.Outcome.next (requestWrite_takes_package ht he _)

theorem slotOf_setQuiesce (s : State) (p v n : Nat) : slotOf (setQuiesce s p v) n = slotOf s n := by rw [slotOf, setQuiesce_slots, slotOf]

/-- What runs and is not being saved does not change as the ports quiesce. -/
theorem removalStarted_eq (s : State) : removalStarted s =
    (slotNumbers.filter (fun n => (slotOf s n).state == .running && (slotOf s n).save.isNone)).foldl (fun s n => startSave s n true)
      (setQuiesce (setQuiesce { s with removal := { s.removal with state := 1 } } 0 1) 1 1) := by
  have h : ∀ n, slotOf (setQuiesce (setQuiesce { s with removal := { s.removal with state := 1 } } 0 1) 1 1) n = slotOf s n :=
    fun n => (slotOf_setQuiesce ..).trans (slotOf_setQuiesce ..)
  unfold removalStarted
  simp only [h]

/-! ### Planned removal (R396) -/

/-- The ends of the writes that waited for the removal change no source and no removal state. -/
theorem localFinish_all (l : List LongWrite) (s : State) :
    (l.foldl (fun s _ => localFinish s 0x1100 1 0) s).removal = s.removal ∧ (l.foldl (fun s _ => localFinish s 0x1100 1 0) s).evt = s.evt :=
  List.foldlRecOn (motive := fun (t : State) => t.removal = s.removal ∧ t.evt = s.evt) _ _ ⟨rfl, rfl⟩ (fun t ht _ _ => by
    have h := localFinish_changes t 0x1100 1 0 (Changes.refl (fun x => ([.tallies, .fed, .dict] : List Part).contains x) t) rfl rfl rfl
    exact ⟨(h.removal.resolve_left (by decide)).trans ht.1, (h.evt.resolve_left (by decide)).trans ht.2⟩)

/-! ### The bus sag (R398) -/

theorem exec_busSag (s : State) :
    let u := { s with boot := { s.boot with busSag := true } }
    exec .busSag s = .next (if headCountClosed s && unitsWork s && !s.removal.sag then sagBegin u else u) := rfl

/-- What SAG_RESUME does once the warning has ended. -/
def sagResumed (s : State) : State :=
  [0, 1].foldl (fun s p => if (portOf s p).waiting then startTraining s p else s)
    (setQuiesce (setQuiesce { s with removal := { s.removal with sag := false } } 0 0) 1 0)

theorem sagResumed_frame (s : State) :
    Changes (fun x => x == .net) (setQuiesce (setQuiesce { s with removal := { s.removal with sag := false } } 0 0) 1 0) (sagResumed s) :=
  List.foldlRecOn (motive := Changes (fun x => x == .net) _) _ _ (Changes.refl _ _) (fun t ht p _ => by
    split
    · exact startTraining_changes t p ht rfl
    · exact ht)

theorem sagResumed_sag (s : State) : (sagResumed s).removal.sag = false := by
  rw [(sagResumed_frame s).removal.resolve_left (by decide), setQuiesce_removal, setQuiesce_removal]

theorem sagResumed_quiesce (s : State) : objGet (sagResumed s) 0x3010 0x0A = 0 ∧ objGet (sagResumed s) 0x3011 0x0A = 0 := by
  constructor
  · rw [(sagResumed_frame s).objGet_eq rfl rfl, objGet_setQuiesce _ _ _ (by decide), objGet_objSet_ne _ _ _ _ _ _ (by decide),
      objGet_setQuiesce _ _ _ (by decide)]
    exact objGet_objSet_self _ 0x3010 0x0A 0
  · rw [(sagResumed_frame s).objGet_eq rfl rfl, objGet_setQuiesce _ _ _ (by decide)]
    exact objGet_objSet_self _ 0x3011 0x0A 0

/-- Settles O59: the removal's steps, its deadlines and its end; the sag, its dump and its resume. -/
theorem removalAndSag : Obligations.RemovalAndSag := by
  unfold Obligations.RemovalAndSag
  refine ⟨⟨fun s via v hv ht he => ?_, fun s => ⟨fun h => congrArg Host.Outcome.next (if_pos ?_), fun h hu => ?_, fun h => ?_, fun h hu => ⟨?_, ?_⟩⟩⟩,
    fun s => ⟨fun hc hu hg => ⟨?_, ?_, ?_, ?_⟩, fun h => (exec_busSag s).trans (congrArg Host.Outcome.next (if_neg ?_)), rfl, fun hu hg => ⟨fun ha => ?_, fun ha => ⟨?_, ?_⟩⟩, fun h => ?_⟩,
    fun s via v hv ht he => ⟨fun hb => ?_, fun hb => ?_⟩⟩
  · have hx := exec_prepareRemoval ht he
    refine ⟨fun h => hx.trans ?_, fun h0 h3 => hx.trans ?_, fun h => hx.trans ?_⟩
    · rw [if_pos (by simp [h])]
      simp
    · rw [if_neg (by simp [h3]), if_pos (by simp [h0])]
    · rw [if_neg (by simp [h]), if_neg (by simp [h])]
      simp only [removalStarted_eq, slotOf_arriving]
  · rcases h with h | h <;> simp [h]
  · exact ⟨_, congrArg Host.Outcome.next (if_neg (by simp [h, hu])), rfl⟩
  · have hi : (s.removal.state != 2 || !unitsWork s) = true := by rcases h with h | h <;> simp [h]
    exact ⟨congrArg Host.Outcome.next (if_pos hi), congrArg Host.Outcome.next (if_pos hi)⟩
  · exact congrArg Host.Outcome.next (if_neg (by simp [h, hu]))
  · dsimp only
    obtain ⟨hr, hev⟩ := localFinish_all ((fire { [0, 1].foldl (fun s p => modPort (portDown s p) p (fun x => { x with heldDown := true })) s with
      removal := { ([0, 1].foldl (fun s p => modPort (portDown s p) p (fun x => { x with heldDown := true })) s).removal with state := 3 } } 10 0).dict.long.filter
        (fun l => l.index == 0x1100 && l.sub == 1)) (fire { [0, 1].foldl (fun s p => modPort (portDown s p) p (fun x => { x with heldDown := true })) s with
      removal := { ([0, 1].foldl (fun s p => modPort (portDown s p) p (fun x => { x with heldDown := true })) s).removal with state := 3 } } 10 0)
    refine ⟨congrArg Host.Outcome.next (if_neg (by simp [h, hu])), ?_, ?_⟩
    · rw [hr, fire_removal]
    · rw [srcOf, hev]
      exact (fire_latch ..).1
  · exact (exec_busSag s).trans (congrArg Host.Outcome.next (if_pos (by simp [hc, hu, hg])))
  · rw [sagBegin_removal]
  · simp [admissionStopped, sagBegin_removal]
  · simp [unitsDispatch, sagBegin_removal]
  · rcases h with h | h | h <;> simp [h]
  · exact congrArg Host.Outcome.next ((if_pos (by simp [hu, hg])).trans (if_pos (by simp [ha])))
  · exact congrArg Host.Outcome.next ((if_pos (by simp [hu, hg])).trans (if_neg (by simp [ha])))
  · exact memBytes_memWrite_self ..
  · exact congrArg Host.Outcome.next (if_neg (by rcases h with h | h <;> simp [h]))
  · exact congrArg Host.Outcome.next ((requestWrite_takes_package ht he _).trans (if_pos (by simp [hb])))
  · exact ⟨sagResumed _, congrArg Host.Outcome.next ((requestWrite_takes_package ht he _).trans (if_neg (by simp [hb]))), sagResumed_sag _,
      sagResumed_quiesce _⟩

end Sys2Proof.Machine

/-! Rucksacks: the save of a slot, its drain and its writing, and the restoring of a job. -/

namespace Sys2Proof.Machine

/-! ### The save (R402) -/

theorem abandonSlot_cmds (s : State) (n : Nat) : ∀ c ∈ (abandonSlot s n).cmds, c.slot ≠ n := by
  unfold abandonSlot
  dsimp only
  rw [freeBuffers_cmds]
  intro c hc
  simpa using (List.mem_filter.mp hc).2

/-- The home's rucksack of a drained slot without contexts, as it is written or fails (R402). -/
theorem writeRucksack_home {s : State} {n : Nat} {v : Save} (hs : (slotOf s n).save = some v) (hd : v.drained = true) (hh : isHome s n = true)
    (hc : v.contexts = []) (landing contexts : List Byte) (inTime ok : Bool) :
    writeRucksack s n landing contexts inTime ok =
      let body := rucksackBody s n v landing contexts s.drawn
      let a := objGet s 0x1100 3 + n * objGet s 0x1100 4
      let fits := body.length + 4 ≤ objGet s 0x1100 4
      if fits && inTime && ok then endSave (raiseErr (memWrite s a (body ++ leBytes 4 (crc32c body))) 0x1102 n) n 0x1102
      else endSave (raiseErr (if fits then memWrite s a body else s) 0x1103 n) n 0x1103 := by
  have hf : reserveFree s (32768 * v.contexts.length) = (s.drawn, s) := by rw [hc]; rfl
  unfold writeRucksack
  simp only [hs, hd, hh, hf, Bool.not_true, Bool.false_eq_true, if_false]

/-! ### The restoring (R404, R405) -/

theorem restoreStripe_arriving (s : State) (via : Via) (i k : Nat) (data : List Byte) (saved : Nat) :
    restoreStripe (arriving s via i k data) saved = restoreStripe s saved := by
  simp only [restoreStripe, dieAdmitted_arriving, arriving_fed, objGet_arriving s via i k data (show keyPart (objKey 0x1100 8) = .objects by decide)]

/-- A rucksack's job as it is restored (R405). -/
def restoredJob (s : State) (secs : List (Nat × List Byte)) (stripe : Nat) : Admission :=
  let saved := admissionOf (sectionOf secs 1)
  let base := objGet s 0x1100 9
  { saved with stripe := stripe, paramBase := if base == 0 then saved.paramBase else base }

/-- The write of RUCKSACK_RESTORE of a rucksack without poison, for which a slot is free. -/
theorem exec_rucksackRestore_free {s : State} {via : Via} {a n : Nat} {e : Elsewhere} (ha : a < 2 ^ 64) (ht : Takes s via 0x1100 7 (leBytes 8 a))
    (he : s.fed.electing = false) (hs : admissionStopped s = false)
    (hf : freeSlot s (restoreStripe s (memNat s (a + 15) 1)) e = some n) (hp : memPoisoned s a (memNat s (a + 8) 4) = false) :
    let u := arriving s via 0x1100 7 (leBytes 8 a)
    let stripe := restoreStripe s (memNat s (a + 15) 1)
    let secs := rucksackValid u a
    let c := restoreCode u a e.refusal secs stripe
    exec (.rucksackRestore via a e) s = .next (
      if c != 0 then dictAbort (raiseErr u c 63) via (abortCode 0x20 c)
      else
        let secs := secs.getD []
        let job := restoredJob u secs stripe
        let c := admitCode u (sectionOf secs 1) job e
        if c != 0 then dictAbort (raiseRefusal u c) via (abortCode 0x20 c)
        else
          let w := objSet (bump (bump u 0x80F0 0x0C) 0x1180 0x0A) 0x1100 0x0A n
          packageDone (if stripe.testBit (dieId w) then setUpRestored w n job secs else w) via 0x1100 7 (leBytes 8 a)) := by
  have hp' : memPoisoned (arriving s via 0x1100 7 (leBytes 8 a)) a (memNat s (a + 8) 4) = false := (memPoisoned_arriving ..).trans hp
  have hl : leNat (leBytes 8 a) = a := leNat_leBytes_of_lt ha
  refine congrArg Host.Outcome.next ((requestWrite_takes_package ht he _).trans ?_)
  simp only [hl, admissionStopped_arriving, hs, memNat_arriving, restoreStripe_arriving, freeSlot_arriving, hf, readChecked_clean hp',
    Bool.false_eq_true, if_false]
  rfl

theorem setUpRestored_slot (s : State) (n : Nat) (job : Admission) (secs : List (Nat × List Byte)) :
    (slotOf (setUpRestored s n job secs) n).pc = fld (sectionOf secs 2) 0 2
    ∧ (slotOf (setUpRestored s n job secs) n).loops = restoredLoops (sectionOf secs 2)
    ∧ (slotOf (setUpRestored s n job secs) n).job = job := by
  have hj : (slotOf (setUpJob s n 0 job false) n).job = job := by rw [(setUpJob_spec s n 0 job false).1]
  rw [setUpRestored]
  generalize setUpJob s n 0 job false = u at hj
  rw [modSlot, slotOf_setSlot, if_pos rfl]
  exact ⟨rfl, rfl, hj⟩

theorem objGet_setUpRestored (s : State) (n : Nat) (job : Admission) (secs : List (Nat × List Byte)) (i k : Nat) :
    objGet (setUpRestored s n job secs) i k = objGet s i k := by
  have h := (setUpJob_changes s n 0 job false (Changes.refl (fun x => ([.slots, .pools] : List Part).contains x) s) rfl rfl).objGet_eq rfl rfl i k
  rw [setUpRestored]
  generalize setUpJob s n 0 job false = u at h
  exact h

/-- Settles O60: the save's start, its drain and its rucksack; the checks of a restore, and the job restored. -/
theorem rucksacks : Obligations.Rucksacks := by
  unfold Obligations.Rucksacks
  refine ⟨⟨fun s via n e hn ht he => ?_, fun s n => ⟨fun h => ?_, fun v h => ⟨fun hd => ?_, fun hd hl => ?_, fun hd hl => ⟨?_, abandonSlot_cmds _ n⟩⟩⟩,
    fun s n landing contexts inTime ok hu => ⟨fun h => ?_, fun v h => ⟨fun hd => ?_, fun hd hh => ?_, fun hd hh hc => ⟨fun hb => ?_, fun hb => ?_, fun hb hi => ?_⟩⟩⟩⟩,
    fun s via a e ha ht he => ⟨fun h => ?_, fun h hf => ?_, fun n h hf hp => ?_⟩⟩
  · have hl : leNat (leBytes 1 n) = n := leNat_leBytes_of_lt hn
    have hx : exec (.rucksackSave via n e) s = .next (
        let u := arriving s via 0x1100 5 (leBytes 1 n)
        if (slotOf u n).save.isSome then dictAbort u via (abortCode 8 (objDetail (0x7200 + n) 1))
        else if (slotOf u n).state != .running then
          (if via == .link || e.busy.testBit n then packageDone u via 0x1100 5 (leBytes 1 n) else dictAbort u via (abortCode 6 (objDetail 0x1100 5)))
        else packageDone (startSave u n false) via 0x1100 5 (leBytes 1 n)) := by
      refine congrArg Host.Outcome.next ((requestWrite_takes_package ht he _).trans ?_)
      rw [hl]
    dsimp only at hx
    rw [slotOf_arriving] at hx
    refine ⟨fun h => hx.trans ?_, fun h hr hv => hx.trans ?_, fun h hr hv hb => hx.trans ?_, fun h hr => hx.trans ?_⟩
    · rw [if_pos (Option.isSome_iff_ne_none.mpr h)]
    · rw [if_neg (by simp [h]), if_pos (by simp [hr]), if_pos (by rcases hv with hv | hv <;> simp [hv])]
    · rw [if_neg (by simp [h]), if_pos (by simp [hr]), if_neg (by simp [hv, hb])]
    · rw [if_neg (by simp [h]), if_neg (by simp [hr])]
  · refine congrArg Host.Outcome.next ?_
    rw [drainSave, h]
  · refine congrArg Host.Outcome.next ?_
    rw [drainSave, h]
    exact if_pos hd
  · refine congrArg Host.Outcome.next ?_
    rw [drainSave, h]
    simp only [hd, hl, Bool.false_eq_true, if_false, Bool.not_false, if_true]
  · refine congrArg Host.Outcome.next ?_
    rw [drainSave, h]
    simp only [hd, hl, Bool.false_eq_true, if_false, Bool.not_true, List.isEmpty_iff]
  · refine congrArg Host.Outcome.next ((if_pos hu).trans ?_)
    rw [writeRucksack, h]
  · refine congrArg Host.Outcome.next ((if_pos hu).trans ?_)
    rw [writeRucksack, h]
    exact if_pos (by simp [hd])
  · refine congrArg Host.Outcome.next ((if_pos hu).trans ?_)
    rw [writeRucksack, h]
    exact (if_neg (by simp [hd])).trans (if_pos (by simp [hh]))
  · exact congrArg Host.Outcome.next ((if_pos hu).trans ((writeRucksack_home h hd hh hc ..).trans (if_pos (by simp [hb]))))
  · refine congrArg Host.Outcome.next ((if_pos hu).trans ((writeRucksack_home h hd hh hc ..).trans ?_))
    dsimp only
    rw [if_neg (by simp [Nat.not_le.mpr hb]), if_neg (by simp [Nat.not_le.mpr hb])]
  · refine congrArg Host.Outcome.next ((if_pos hu).trans ((writeRucksack_home h hd hh hc ..).trans ?_))
    dsimp only
    rw [if_neg (by rcases hi with hi | hi <;> simp [hi]), if_pos (by simp [hb])]
  · refine congrArg Host.Outcome.next ((requestWrite_takes_package ht he _).trans (if_pos ?_))
    rwa [admissionStopped_arriving]
  · have hl : leNat (leBytes 8 a) = a := leNat_leBytes_of_lt ha
    refine congrArg Host.Outcome.next ((requestWrite_takes_package ht he _).trans ?_)
    simp only [hl, admissionStopped_arriving, h, memNat_arriving, restoreStripe_arriving, freeSlot_arriving, hf, Bool.false_eq_true, if_false]
  · have hx := exec_rucksackRestore_free ha ht he h hf hp
    have hbase : objGet (arriving s via 0x1100 7 (leBytes 8 a)) 0x1100 9 = objGet s 0x1100 9 := objGet_arriving _ _ _ _ _ (by decide)
    dsimp only at hx ⊢
    refine ⟨fun hc => hx.trans (congrArg Host.Outcome.next (if_pos (bne_iff_ne.mpr hc))), fun hc secs hsecs => ?_⟩
    rw [if_neg (by simp [hc]), hsecs, Option.getD_some] at hx
    have hjob : restoredJob (arriving s via 0x1100 7 (leBytes 8 a)) secs (restoreStripe s (memNat s (a + 15) 1)) =
        { admissionOf (sectionOf secs 1) with
          stripe := restoreStripe s (memNat s (a + 15) 1)
          paramBase := if objGet s 0x1100 9 = 0 then (admissionOf (sectionOf secs 1)).paramBase else objGet s 0x1100 9 } := by
      simp only [restoredJob, hbase, beq_iff_eq]
    rw [hjob] at hx
    refine ⟨fun hr => hx.trans (congrArg Host.Outcome.next (if_pos (bne_iff_ne.mpr hr))), fun hr hd => ?_⟩
    rw [if_neg (by simp [hr]), if_pos (by simpa using hd)] at hx
    obtain ⟨h1, h2, h3⟩ := setUpRestored_slot (objSet (bump (bump (arriving s via 0x1100 7 (leBytes 8 a)) 0x80F0 0x0C) 0x1180 0x0A) 0x1100 0x0A n) n
      { admissionOf (sectionOf secs 1) with
          stripe := restoreStripe s (memNat s (a + 15) 1)
          paramBase := if objGet s 0x1100 9 = 0 then (admissionOf (sectionOf secs 1)).paramBase else objGet s 0x1100 9 } secs
    exact ⟨_, hx, h1, h2, h3, (objGet_setUpRestored ..).trans (objGet_objSet_self ..)⟩

end Sys2Proof.Machine

/-! Network ports: enabling, disabling, quiescing and training. -/

namespace Sys2Proof.Machine

/-! ### Ports and the frames sent (R360, R363) -/

/-- A port's objects count nothing. -/
theorem portIndex_objects {p k : Nat} (hp : p < 2) (hk : k < 256) : keyPart (objKey (portIndex p) k) = .objects := by
  have h1 : ((0x3010 + p) * 256 + k) / 256 = 0x3010 + p := by omega
  rw [keyPart, objKey, portIndex, h1]
  obtain rfl | rfl : p = 0 ∨ p = 1 := by omega
  · rfl
  · rfl

theorem portOf_modPort_self (s : State) (p : Nat) (f : Port → Port) : portOf (modPort s p f) p = f (portOf s p) := portOf_setPort_self ..

/-- A frame that no pause holds back is sent at once. -/
theorem transmit_now {f : TxFrame} (h : f.waitsPause = false) (s : State) (p : Nat) :
    transmit s p f = { s with net := { s.net with tx := s.net.tx ++ [(p, f)] } } := by
  simp [transmit, Net.sent, h]

theorem portOf_transmit_now {f : TxFrame} (h : f.waitsPause = false) (s : State) (p j : Nat) : portOf (transmit s p f) j = portOf s j := by
  rw [transmit_now h]
  rfl

theorem tx_transmit_now {f : TxFrame} (h : f.waitsPause = false) (s : State) (p : Nat) : (transmit s p f).net.tx = s.net.tx ++ [(p, f)] := by
  rw [transmit_now h]

theorem startTraining_starts {s : State} {p : Nat} (he : portEnabled s p = true) (hc : headCountClosed s = true) (hs : s.removal.sag = false)
    (hh : (portOf s p).heldDown = false) : startTraining s p =
      transmit (modPort s p (fun x => { x with
        state := 1, trained := 0, laneSet := 0, lanes := [], lost := false, dropped := 0, waiting := false })) p (.basePage (laneEnable s p)) := by
  simp only [startTraining, he, hc, hs, hh, Bool.not_true, Bool.or_false, Bool.false_eq_true, if_false]
  rfl

/-! ### Lanes in training (R363) -/

/-- A lane whose training starts, with the frame it sends. -/
def laneStarts (l : Nat) : LaneTrain := { training := true, sends := some (trainFrame l 0 [] false false) }

theorem sendTraining_port (s : State) (p l : Nat) (y : LaneTrain) (f : Nat) :
    portOf (sendTraining s p l y f) p = { portOf s p with lanes := tblSet {} (portOf s p).lanes l { y with sends := some f } } := by
  rw [sendTraining, portOf_transmit_now rfl, portOf_modPort_self]

theorem sendTraining_tx (s : State) (p l : Nat) (y : LaneTrain) (f : Nat) :
    (sendTraining s p l y f).net.tx = s.net.tx ++ [(p, .train l f)] := by
  rw [sendTraining, tx_transmit_now rfl]
  rfl

/-- The lanes that start training send their frames; the port keeps its state. -/
theorem trainLanes_spec (s : State) (p : Nat) (ls : List Nat) :
    (portOf (trainLanes s p ls) p).state = (portOf s p).state ∧ (portOf (trainLanes s p ls) p).laneSet = (portOf s p).laneSet
    ∧ (∀ l, tblGet {} (portOf (trainLanes s p ls) p).lanes l = if l ∈ ls then laneStarts l else tblGet {} (portOf s p).lanes l)
    ∧ (trainLanes s p ls).net.tx = s.net.tx ++ ls.map (fun l => (p, .train l (trainFrame l 0 [] false false))) := by
  induction ls generalizing s with
  | nil => exact ⟨rfl, rfl, fun _ => rfl, (List.append_nil _).symm⟩
  | cons a ls ih =>
    have ha := sendTraining_port (modPort s p (fun x => { x with dropped := maskDrop x.dropped a })) p a { training := true }
      (trainFrame a 0 [] false false)
    have hx := sendTraining_tx (modPort s p (fun x => { x with dropped := maskDrop x.dropped a })) p a { training := true }
      (trainFrame a 0 [] false false)
    rw [portOf_modPort_self] at ha
    obtain ⟨h1, h2, h3, h4⟩ := ih (sendTraining (modPort s p (fun x => { x with dropped := maskDrop x.dropped a })) p a { training := true }
      (trainFrame a 0 [] false false))
    rw [ha] at h1 h2 h3
    refine ⟨h1, h2, fun l => (h3 l).trans ?_, h4.trans ?_⟩
    · by_cases hl : l ∈ ls
      · rw [if_pos hl, if_pos (List.mem_cons_of_mem _ hl)]
      · rw [if_neg hl, tblGet_tblSet]
        by_cases hla : l = a
        · subst hla
          rw [if_pos rfl, if_pos List.mem_cons_self]
          rfl
        · rw [if_neg hla, if_neg (by simp [hla, hl])]
    · rw [hx, List.map_cons, List.append_assoc]
      rfl

/-- An answer to a request of the taps only draws. -/
theorem tapAnswer_eq (s : State) (r : Nat) : ∃ v n, tapAnswer s r = (v, { s with drawn := n }) := by
  unfold tapAnswer
  split
  · exact ⟨_, _, rfl⟩
  · exact ⟨_, _, rfl⟩
  · exact ⟨1, s.drawn, rfl⟩
  · exact ⟨0, s.drawn, rfl⟩

/-- The answers to a frame's requests, one for each tap. -/
theorem tapAnswers_eq (s : State) (g : Nat → Nat) (l : List Nat) (acc : List Nat) :
    ∃ taps n, l.foldl (fun (acc : List Nat × State) k => (acc.1 ++ [(tapAnswer acc.2 (g k)).1], (tapAnswer acc.2 (g k)).2)) (acc, s)
      = (taps, { s with drawn := n }) ∧ taps.length = acc.length + l.length := by
  induction l generalizing s acc with
  | nil => exact ⟨acc, s.drawn, rfl, rfl⟩
  | cons k l ih =>
    obtain ⟨v, n, hv⟩ := tapAnswer_eq s (g k)
    obtain ⟨taps, m, h, hl⟩ := ih { s with drawn := n } (acc ++ [v])
    refine ⟨taps, m, ?_, ?_⟩
    · rw [List.foldl_cons, hv, h]
    · simp only [hl, List.length_append, List.length_cons, List.length_nil]
      omega

/-- A training frame that is none of its lane's, or has a wrong CHECK. -/
def trainUnsound (s : State) (l f : Nat) : Bool :=
  f / 2 ^ 48 % 2 ^ 16 != 0x4A5B || f / 2 ^ 45 % 8 != l || !trainCheckOk f || !unitsWork s

theorem trainUnsound_iff {s : State} {l f : Nat} (hu : unitsWork s = true) :
    trainUnsound s l f = true ↔ f / 2 ^ 48 % 2 ^ 16 ≠ 0x4A5B ∨ f / 2 ^ 45 % 8 ≠ l ∨ trainCheckOk f = false := by
  rw [trainUnsound, Bool.or_eq_true, Bool.or_eq_true, Bool.or_eq_true, bne_iff_ne, bne_iff_ne, Bool.not_eq_true', Bool.not_eq_true', hu]
  simp [or_assoc]

theorem trainUnsound_not {s : State} {l f : Nat} (hu : unitsWork s = true) (h1 : f / 2 ^ 48 % 2 ^ 16 = 0x4A5B) (h2 : f / 2 ^ 45 % 8 = l)
    (h3 : trainCheckOk f = true) : ¬ trainUnsound s l f = true := by
  rw [trainUnsound_iff hu, h3]
  exact fun h => h.elim (· h1) (fun h => h.elim (· h2) Bool.noConfusion)

/-- A sound frame of this protocol for a lane, neither of a lane that drops nor with DROP (R363). -/
theorem exec_trainingFrame_answered {s : State} {p l f : Nat} (hu : unitsWork s = true) (h1 : f / 2 ^ 48 % 2 ^ 16 = 0x4A5B)
    (h2 : f / 2 ^ 45 % 8 = l) (h3 : trainCheckOk f = true) (h4 : f.testBit 13 = false) (h5 : (portOf s p).dropped.testBit l = false)
    (h6 : (tblGet {} (portOf s p).lanes l).training = true) (k : Nat) (ready : Bool) :
    ∃ taps n, taps.length = 5 ∧ exec (.trainingFrameReceived p l f k ready) s = .next (sendTraining { s with drawn := n } p l
      { training := true, taps := taps, ready := ready, partnerReady := f.testBit 14 } (trainFrame l k taps ready false)) := by
  obtain ⟨taps, n, h, hl⟩ := tapAnswers_eq s (fun k => f / 2 ^ (30 + 3 * k) % 8) (List.range 5) []
  refine ⟨taps, n, hl, congrArg Host.Outcome.next ((if_neg (trainUnsound_not hu h1 h2 h3)).trans ((if_neg (by simp [h4])).trans
    ((if_neg (by simp [h5])).trans ((if_neg (by simp [h6])).trans ?_))))⟩
  exact congrArg (fun (x : List Nat × State) => sendTraining x.2 p l
    { training := true, taps := x.1, ready := ready, partnerReady := f.testBit 14 } (trainFrame l k x.1 ready false)) h

theorem quiesceCheck_fires {s : State} {p : Nat} (hq : objGet s (portIndex p) 0x0A = 1) (hn : (portOf s p).quiesced = false) (ho : openOn s p = []) :
    quiesceCheck s p = fire (modPort s p (fun x => { x with quiesced := true })) 55 0 := by
  simp [quiesceCheck, hq, hn, ho]

/-- A new value of QUIESCE can raise NET_QUIESCED anew (R378). -/
def quiesceAnew (s : State) (was p v : Nat) : State := if v = was then s else modPort s p (fun x => { x with quiesced := false })

theorem quiesceAnew_of_bne (s : State) (was p v : Nat) :
    (if (was != v) = true then modPort s p (fun x => { x with quiesced := false }) else s) = quiesceAnew s was p v := by
  unfold quiesceAnew
  by_cases h : v = was
  · rw [if_neg (by simp [h]), if_pos h]
  · rw [if_pos (by simpa using Ne.symm h), if_neg h]

theorem quiesceAnew_frame (s : State) (was p v : Nat) :
    (∀ i k, objGet (quiesceAnew s was p v) i k = objGet s i k) ∧ openOn (quiesceAnew s was p v) p = openOn s p := by
  unfold quiesceAnew
  split <;> exact ⟨fun _ _ => rfl, rfl⟩

/-- Settles O49: each value of PORT_ENABLE in each state of the port, the deadline of a disable, and QUIESCE. -/
theorem portsEnabled : Obligations.PortsEnabled := by
  unfold Obligations.PortsEnabled
  refine ⟨fun s via p v hp hv ht => ?_, fun s p => ⟨fun h => congrArg Host.Outcome.next (if_pos (by simp [h])), fun h => congrArg Host.Outcome.next (if_neg (by simp [h]))⟩,
    fun s via p v hp hv ht => ?_⟩
  · have hl : leNat (leBytes 1 v) = v := leNat_leBytes_of_lt (by omega)
    have hi : portIndex p - 0x3010 = p := Nat.add_sub_cancel_left ..
    have ho : objGet (arriving s via (portIndex p) 1 (leBytes 1 v)) (portIndex p) 1 = objGet s (portIndex p) 1 :=
      objGet_arriving _ _ _ _ _ (portIndex_objects hp (by decide))
    have hx : exec (.portEnableWrite via p v) s = .next (portEnableEffect via (portIndex p) 1 (leBytes 1 v) (arriving s via (portIndex p) 1 (leBytes 1 v))) :=
      congrArg Host.Outcome.next (requestWrite_takes ht portEnableEffect)
    unfold portEnableEffect at hx
    dsimp only at hx
    rw [hl, hi, ho] at hx
    refine ⟨fun h => hx.trans ?_, fun h => ⟨fun h1 => hx.trans ?_, fun h0 hs => hx.trans ?_, fun h0 hs => hx.trans ?_⟩⟩
    · rw [if_pos (beq_iff_eq.mpr h)]
    · rw [if_neg (by simpa using h), if_neg (by simp [h1])]
      rfl
    · rw [if_neg (by simpa using h), if_pos (by simp [h0])]
      exact congrArg Host.Outcome.next (if_neg (by simpa using hs))
    · rw [if_neg (by simpa using h), if_pos (by simp [h0])]
      exact congrArg Host.Outcome.next (if_pos (by simpa using hs))
  · have hl : leNat (leBytes 1 v) = v := leNat_leBytes_of_lt (by omega)
    have hi : portIndex p - 0x3010 = p := Nat.add_sub_cancel_left ..
    have ho : objGet (arriving s via (portIndex p) 0x0A (leBytes 1 v)) (portIndex p) 0x0A = objGet s (portIndex p) 0x0A :=
      objGet_arriving _ _ _ _ _ (portIndex_objects hp (by decide))
    have hx : exec (.quiesceWrite via p v) s = .next (quiesceEffect via (portIndex p) 0x0A (leBytes 1 v) (arriving s via (portIndex p) 0x0A (leBytes 1 v))) :=
      congrArg Host.Outcome.next (requestWrite_takes ht quiesceEffect)
    unfold quiesceEffect at hx
    dsimp only at hx
    rw [hl, hi, ho] at hx
    rw [quiesceAnew_of_bne] at hx
    refine ⟨hx, fun h1 hq ho => ?_⟩
    obtain ⟨g1, g2⟩ := quiesceAnew_frame (objSet (arriving s via (portIndex p) 0x0A (leBytes 1 v)) (portIndex p) 0x0A v) (objGet s (portIndex p) 0x0A) p v
    have hopen : openOn (objSet (arriving s via (portIndex p) 0x0A (leBytes 1 v)) (portIndex p) 0x0A v) p = openOn s p := by
      simp only [openOn, objSet_net, arriving_net]
    have hf := quiesceCheck_fires ((g1 ..).trans ((objGet_objSet_self ..).trans h1)) hq (g2.trans (hopen.trans ho))
    refine ⟨(congrArg (fun t => (portOf t p).quiesced) hf).trans ?_, (congrArg (fun t => (srcOf t 55).latch) hf).trans (fire_latch ..).1⟩
    rw [portOf_fire, portOf_modPort_self]

/-! ### The training of a port (R362 to R367) -/

theorem portOf_engineReady (s : State) (p : Nat) : portOf (engineReady s) p = portOf s p := by
  rw [portOf, (engineReady_frame s).net.resolve_left (by decide)]
  rfl

/-- Settles O50: the training from the base page to the link's coming up, its failures and its repeats. -/
theorem portsTrain : Obligations.PortsTrain := by
  unfold Obligations.PortsTrain
  intro s p hu
  refine ⟨fun h1 b => ?_, fun l f k ready g1 g2 g3 g4 g5 g6 => ?_, fun l f k ready g1 g2 g3 => ⟨fun g4 => ?_, fun g4 g5 => ?_⟩,
    fun l f k ready g => ?_, fun l g1 g2 g3 => ⟨fun h => ?_, fun h => ?_⟩, fun h => ?_, fun h => ?_, fun h ht k => ?_, fun h h2 h3 => ?_,
    fun h h2 => ?_, fun h => ⟨?_, ?_⟩, fun he hc hs hh => ⟨?_, ?_⟩, fun he hc hs hh => ?_⟩
  · have hx : exec (.autonegComplete p b) s = .next (trainLanes
        (modPort s p (fun x => { x with state := 2, laneSet := Nat.land (laneEnable s p) b, lanes := [] })) p
        ((List.range 8).filter (fun l => (Nat.land (laneEnable s p) b).testBit l))) := congrArg Host.Outcome.next (if_neg (by simp [h1, hu]))
    obtain ⟨t1, t2, t3, t4⟩ := trainLanes_spec (modPort s p (fun x => { x with state := 2, laneSet := Nat.land (laneEnable s p) b, lanes := [] })) p
      ((List.range 8).filter (fun l => (Nat.land (laneEnable s p) b).testBit l))
    rw [portOf_modPort_self] at t1 t2 t3
    refine ⟨_, hx, t1, t2, fun l hl => ⟨?_, fun hb => ⟨?_, ?_⟩⟩⟩
    · rw [t3]
      cases hb : (Nat.land (laneEnable s p) b).testBit l
      · rw [if_neg (fun h => absurd (hb.symm.trans (List.mem_filter.mp h).2) Bool.false_ne_true)]
        rfl
      · rw [if_pos (List.mem_filter.mpr ⟨List.mem_range.mpr hl, hb⟩)]
        rfl
    · rw [t3, if_pos (List.mem_filter.mpr ⟨List.mem_range.mpr hl, hb⟩)]
      rfl
    · rw [t4]
      exact List.mem_append_right _ (List.mem_map.mpr ⟨l, List.mem_filter.mpr ⟨List.mem_range.mpr hl, hb⟩, rfl⟩)
  · obtain ⟨taps, n, hl, hx⟩ := exec_trainingFrame_answered hu g1 g2 g3 g4 g5 g6 k ready
    refine ⟨_, hx, ?_, ?_, ?_, ?_, ?_⟩
    · rw [sendTraining_port, tblGet_tblSet_self]
    · rw [sendTraining_port, tblGet_tblSet_self]
    · rw [sendTraining_port, tblGet_tblSet_self]
    · rw [sendTraining_port, tblGet_tblSet_self]
      exact hl
    · rw [sendTraining_tx, List.length_append]
      rfl
  · exact congrArg Host.Outcome.next ((if_neg (trainUnsound_not hu g1 g2 g3)).trans (if_pos g4))
  · exact congrArg Host.Outcome.next ((if_neg (trainUnsound_not hu g1 g2 g3)).trans ((if_neg (by simp [g4])).trans (if_pos g5)))
  · exact congrArg Host.Outcome.next (if_pos ((trainUnsound_iff hu).mpr g))
  · exact congrArg Host.Outcome.next ((if_neg (by simp [g1, g2, g3, hu])).trans (if_pos (by simp [h])))
  · exact congrArg Host.Outcome.next ((if_neg (by simp [g1, g2, g3, hu])).trans ((if_neg (by simp [h])).trans (if_pos (by simp [h]))))
  · refine congrArg Host.Outcome.next ((if_neg (by simp [hu])).trans (if_pos ?_))
    rcases h with h | ⟨h, h0⟩
    · simp [h]
    · simp [h, h0]
  · refine congrArg Host.Outcome.next ((if_neg (by simp [hu])).trans ((if_neg ?_).trans (if_pos ?_)))
    · rcases h with ⟨h, h0⟩ | h
      · simp [h, h0]
      · simp [h]
    · rcases h with ⟨h, h0⟩ | h <;> simp [h]
  · refine ⟨_, congrArg Host.Outcome.next (if_neg (by simp [h, ht, hu])), ?_, ?_, (fire_latch ..).1⟩
    · rw [portOf_fire, portOf_engineReady, portOf_objSet, portOf_modPort_self]
    · rw [fire_sameBut _ _ _ _ _ (by unfold objKey portIndex; omega), (engineReady_frame _).objGet_eq rfl rfl, objGet_objSet_self]
  · exact congrArg Host.Outcome.next (if_pos (by simp [h, h2, h3, hu]))
  · exact congrArg Host.Outcome.next (if_pos (by simp [h, h2, hu]))
  · exact congrArg Host.Outcome.next (if_neg (by simp [h]))
  · exact congrArg Host.Outcome.next (if_neg (by simp [h]))
  · rw [startTraining_starts he hc hs hh, portOf_transmit_now rfl, portOf_modPort_self]
  · rw [startTraining_starts he hc hs hh, tx_transmit_now rfl]
    rfl
  · exact (if_neg (by simp [he, hc, hh])).trans (if_pos hs)

end Sys2Proof.Machine

/-! Network ports: frames, packets, acknowledgements, queue pairs and landing regions. -/

namespace Sys2Proof.Machine

/-! ### Queue pairs and regions as operations leave them -/

theorem qpOf_setQp (s : State) (q j : Nat) (x : Qp) : qpOf (setQp s q x) j = if j = q then x else qpOf s j := tblGet_tblSet ..

theorem qpOf_setQp_self (s : State) (q : Nat) (x : Qp) : qpOf (setQp s q x) q = x := tblGet_tblSet_self ..

theorem lrOf_setLr (s : State) (r j : Nat) (x : Lr) : lrOf (setLr s r x) j = if j = r then x else lrOf s j := tblGet_tblSet ..

theorem transmit_qps (s : State) (p : Nat) (f : TxFrame) : (transmit s p f).net.qps = s.net.qps := by
  unfold transmit Net.sent
  dsimp only
  split <;> rfl

theorem qpOf_transmit (s : State) (p : Nat) (f : TxFrame) (q : Nat) : qpOf (transmit s p f) q = qpOf s q :=
  congrArg (fun t => tblGet ({} : Qp) t q) (transmit_qps s p f)

theorem qpOf_flowControl (s : State) (p b q : Nat) : qpOf (flowControl s p b) q = qpOf s q := by
  unfold flowControl
  dsimp only
  split
  · rfl
  · split
    · exact qpOf_transmit ..
    · split
      · exact qpOf_transmit ..
      · rfl

/-! ### The checks of a frame (R368) -/

/-- Checks 4 to 7 of a frame for IP, and its packet's being taken. -/
def takeIp (u : State) (p : Nat) (f : Frame) : State :=
  if !ipOk u p f || !udpOk f then bump u (portCounters p) 4
  else if !f.icrcOk then bump u (portCounters p) 3
  else if f.tver != 0 || !(f.pkey == 0xFFFF || f.pkey == 0x7FFF) || f.qpn < 0x100 || 0x4FF < f.qpn || (qpOf u (f.qpn - 0x100)).state == .disabled
      || (qpOf u (f.qpn - 0x100)).port != p || (qpOf u (f.qpn - 0x100)).remoteIp != f.srcIp then bump u (portCounters p) 4
  else takePacket u p (f.qpn - 0x100) f

section
variable {u : State} {p : Nat} {f : Frame} (hf : f.fcsOk = true) (hm : macOk u p f = true)
include hf hm

theorem takeFrame_other (h : frameUse u p f = .other) : takeFrame u p f = bump u (portCounters p) 4 := by
  rw [takeFrame, if_neg (by simp [hf]), if_neg (by simp [hm]), h]

theorem takeFrame_address (h : frameUse u p f = .address) : takeFrame u p f = transmit u p .addressReply := by
  rw [takeFrame, if_neg (by simp [hf]), if_neg (by simp [hm]), h]

theorem takeFrame_pause (h : frameUse u p f = .pause) : takeFrame u p f = setPause u p (f.pauseTime != 0) := by
  rw [takeFrame, if_neg (by simp [hf]), if_neg (by simp [hm]), h]

theorem takeFrame_packet (h : frameUse u p f = .packet) : takeFrame u p f = takeIp u p f := by
  rw [takeFrame, if_neg (by simp [hf]), if_neg (by simp [hm]), h]
  rfl

end

theorem macOk_own {u : State} {p : Nat} {f : Frame} (h : f.destMac = objGet u (portIndex p) 7 % 2 ^ 48) : macOk u p f = true := by
  rw [macOk, h, beq_self_eq_true, Bool.true_or, Bool.true_or]

theorem macOk_else {u : State} {p : Nat} {f : Frame} (h : f.destMac ≠ objGet u (portIndex p) 7 % 2 ^ 48) (hb : f.destMac ≠ 0xFFFFFFFFFFFF)
    (hp : f.destMac ≠ 0x0180C2000001) : macOk u p f = false := by
  rw [macOk, beq_eq_false_iff_ne.mpr h, beq_eq_false_iff_ne.mpr hb, beq_eq_false_iff_ne.mpr hp]
  rfl

/-! ### The packets of a queue pair (R368, R369, R374, R375) -/

section
variable {s : State} {p q : Nat} {f : Frame} (hr : (qpOf s q).state = .ready) (ho : ∀ o ∈ (portOf s p).openQ, o.qp ≠ q)
include hr ho

theorem takePacket_ready : takePacket s p q f =
    if 2 ^ 23 ≤ (f.psn + 2 ^ 24 - (qpOf s q).epsn) % 2 ^ 24 then sendAck (bump s (portCounters p) 9) q
    else if (f.psn + 2 ^ 24 - (qpOf s q).epsn) % 2 ^ 24 != 0 then
      (if (qpOf s q).nakSent then s
       else bump (transmit (setQp s q { qpOf s q with nakSent := true }) p (.nak q 0x60 (qpOf s q).epsn (qpOf s q).path)) (portCounters p) 7)
    else if !opcodeOk (qpOf s q) f then nakError (setQp s q { qpOf s q with nakSent := false }) p q 0x61 f.psn
    else if opensOperation f.opcode then beginOperation (setQp s q { qpOf s q with nakSent := false }) p q f
    else acceptPacket (setQp s q { qpOf s q with nakSent := false }) p q f := by
  refine (if_neg (by simp [hr])).trans ((if_neg ?_).trans rfl)
  simpa using ho

end

/-- An operation that begins with the PSN expected (R374, R375): its address, its message, or the message it asks for. -/
theorem beginOperation_none {s : State} {p q : Nat} {f : Frame} (h : addressed s q f = none) : beginOperation s p q f = nakError s p q 0x62 f.psn := by
  rw [beginOperation, h]

section
variable {s : State} {p q r k o : Nat} {f : Frame} (h : addressed s q f = some (r, k, o))
include h

theorem beginOperation_open {m : Msg} (hm : s.net.msgs.find? (fun m => m.opn && m.region == r && m.slotIndex == k) = some m) :
    beginOperation s p q f =
      if m.qp == q && m.bytes.length == o then startOperation s p q f (some m.id) o
      else startOperation (endMessage s m.id .sequence) p q f none o := by
  simp only [beginOperation, h, hm]

theorem beginOperation_new (hm : s.net.msgs.find? (fun m => m.opn && m.region == r && m.slotIndex == k) = none) :
    beginOperation s p q f =
      if o != 0 then startOperation (bump s (portCounters p) 0x15) p q f none o
      else if (qpOf s q).stopping.isSome then nakError s p q 0x62 f.psn
      else if cannotOpen s p (lrOf s r) then rnrNak s p q f.psn
      else requestOpen s p q r k f := by
  simp only [beginOperation, h, hm]

end

/-- What an operation is addressed to, and whether a message can open, does not depend on the queue pair's own state. -/
theorem addressed_setQp (s : State) (q j : Nat) (x : Qp) (f : Frame) : addressed (setQp s j x) q f = addressed s q f := by
  unfold addressed
  rfl

theorem cannotOpen_setQp (s : State) (j p r : Nat) (x : Qp) : cannotOpen (setQp s j x) p (lrOf (setQp s j x) r) = cannotOpen s p (lrOf s r) := by
  unfold cannotOpen
  rfl

/-! ### Acknowledgements (R369) -/

theorem sendAck_qp (s : State) (q : Nat) : qpOf (sendAck s q) q = { qpOf s q with unacked := 0 } := by
  refine (qpOf_transmit ..).trans (qpOf_setQp_self ..)

/-- A frame that waits for the end of the pause while the partner pauses the port (R368). -/
theorem transmit_paused {s : State} {p : Nat} {f : TxFrame} (h : f.waitsPause = true) (hp : (portOf s p).paused = true) :
    transmit s p f = setPort s p { portOf s p with held := (portOf s p).held ++ [f] } := by
  unfold transmit Net.sent
  dsimp only
  rw [if_pos (by rw [h, Bool.true_and]; exact hp)]
  rfl

theorem transmit_unpaused {s : State} {p : Nat} {f : TxFrame} (hp : (portOf s p).paused = false) :
    (transmit s p f).net.tx = s.net.tx ++ [(p, f)] := by
  unfold transmit Net.sent
  have hn : (tblGet ({} : Port) s.net.ports p).paused = false := hp
  simp only [hn, Bool.and_false, Bool.false_eq_true, if_false]

/-- Settles O52: each check of a frame, each case of a packet, and the delayed acknowledgement. -/
theorem framesReceived : Obligations.FramesReceived := by
  unfold Obligations.FramesReceived
  refine ⟨fun s p b f => ?_, fun s p q f => ?_, fun s q => ?_⟩
  · refine ⟨fun h => congrArg Host.Outcome.next (if_pos (by rcases h with h | h | h <;> simp [h])),
      fun h1 h2 h3 => congrArg Host.Outcome.next (if_neg (by simp [h1, h2, h3])), fun h => if_pos (by simp [h]), fun hf =>
        ⟨fun hm => (if_neg (by simp [hf])).trans (if_pos (by simp [hm])), fun hm => ⟨takeFrame_address hf hm, takeFrame_pause hf hm, takeFrame_other hf hm,
          fun hu hi => (takeFrame_packet hf hm hu).trans (if_pos ?_), fun hu hi hud => ⟨fun hc => (takeFrame_packet hf hm hu).trans ?_,
            fun hc => ⟨fun h => (takeFrame_packet hf hm hu).trans ?_, fun h1 h2 h3 h4 h5 h6 h7 => (takeFrame_packet hf hm hu).trans ?_⟩⟩⟩⟩, macOk_else, macOk_own, fun ht he => ⟨?_, ?_⟩⟩
    · rcases hi with hi | hi <;> simp [hi]
    · exact (if_neg (by simp [hi, hud])).trans (if_pos (by simp [hc]))
    · refine (if_neg (by simp [hi, hud])).trans ((if_neg (by simp [hc])).trans (if_pos ?_))
      have hq : qpOf (flowControl (countFrame s p f) p b) (f.qpn - 0x100) = qpOf s (f.qpn - 0x100) := qpOf_flowControl ..
      rw [hq]
      rcases h with h | h | h | h | h | h | h <;> simp [h]
    · refine (if_neg (by simp [hi, hud])).trans ((if_neg (by simp [hc])).trans (if_neg ?_))
      have hq : qpOf (flowControl (countFrame s p f) p b) (f.qpn - 0x100) = qpOf s (f.qpn - 0x100) := qpOf_flowControl ..
      rw [hq]
      rcases h2 with h2 | h2 <;> (simp [h1, h2, h5, h6, h7]; omega)
    · simp [frameUse, he, Nat.not_lt.mpr ht]
    · simp [ipOk, he, portIp, and_assoc]
  · refine ⟨fun h => if_pos (by simpa using h), fun h ho => (if_neg (by simp [h])).trans (if_pos (by simpa using ho)), fun hr ho => ?_⟩
    have hx := takePacket_ready (f := f) hr ho
    refine ⟨fun hd => hx.trans (if_pos hd), fun h0 hd hn => hx.trans ?_, fun h0 hd hn => hx.trans ?_, fun hd => ?_⟩
    · rw [if_neg (Nat.not_le.mpr hd), if_pos (bne_iff_ne.mpr (Nat.pos_iff_ne_zero.mp h0)), if_pos hn]
    · rw [if_neg (Nat.not_le.mpr hd), if_pos (bne_iff_ne.mpr (Nat.pos_iff_ne_zero.mp h0)), if_neg (by simp [hn])]
    · rw [hd, if_neg (by decide), if_neg (by decide)] at hx
      have hst : (qpOf (setQp s q { qpOf s q with nakSent := false }) q).stopping = (qpOf s q).stopping := by rw [qpOf_setQp_self]
      refine ⟨fun hc => hx.trans (if_pos (by simp [hc])), fun hc hop => ?_, fun hc hop => hx.trans ((if_neg (by simp [hc])).trans (if_neg (by simp [hop])))⟩
      rw [if_neg (by simp [hc]), if_pos hop] at hx
      refine ⟨fun ha => hx.trans (beginOperation_none ((addressed_setQp ..).trans ha)), fun r k o ha => ?_⟩
      replace ha := (addressed_setQp s q q { qpOf s q with nakSent := false } f).trans ha
      have hcan := cannotOpen_setQp s q p r { qpOf s q with nakSent := false }
      have hmsgs : (setQp s q { qpOf s q with nakSent := false }).net.msgs = s.net.msgs := rfl
      generalize setQp s q { qpOf s q with nakSent := false } = u at hx hst ha hcan hmsgs ⊢
      rw [← hmsgs]
      refine ⟨fun m hm => ?_, fun hm => ?_⟩
      · have hy := hx.trans (beginOperation_open ha hm)
        refine ⟨fun ⟨h1, h2⟩ => hy.trans (if_pos (by simp [h1, h2])), fun h => hy.trans (if_neg ?_)⟩
        rcases h with h | h <;> simp [h]
      · have hy := hx.trans (beginOperation_new ha hm)
        rw [hst, hcan] at hy
        refine ⟨fun h0 => hy.trans (if_pos (bne_iff_ne.mpr h0)), fun h0 hs => hy.trans ?_, fun h0 hs hn => hy.trans ?_, fun h0 hs hn => hy.trans ?_⟩
        · rw [if_neg (by simp [h0]), if_pos (Option.isSome_iff_ne_none.mpr hs)]
        · rw [if_neg (by simp [h0]), if_neg (by simp [hs]), if_pos hn]
        · rw [if_neg (by simp [h0]), if_neg (by simp [hs]), if_neg (ne_true_of_eq_false hn)]
  · refine ⟨fun ha hu => ⟨sendAck s q, congrArg Host.Outcome.next (if_pos (by simp [ha, hu])), sendAck_qp s q, fun hp => ?_, fun hp => ?_⟩,
      fun h => congrArg Host.Outcome.next (if_neg (by rcases h with h | h <;> simp [h]))⟩
    · exact transmit_unpaused hp
    · have ht := transmit_paused (s := setQp s q { qpOf s q with unacked := 0 }) (f := .ack q (((qpOf s q).epsn + 2 ^ 24 - 1) % 2 ^ 24) (qpOf s q).msn
        (qpOf s q).path) rfl hp
      refine ⟨(congrArg (fun t => t.net.tx) ht).trans rfl, (congrArg (fun t => (portOf t (qpOf s q).port).held) ht).trans ?_⟩
      rw [portOf_setPort_self]
      rfl

end Sys2Proof.Machine

/-! Queue pairs and landing regions, enabled and disabled. -/

namespace Sys2Proof.Machine

/-! ### The entries of queue pairs and regions (R370 to R372) -/

section
variable (s : State) (via : Via) (i k : Nat) (data : List Byte)

theorem entryCrcOk_arriving (a : Nat) : entryCrcOk (arriving s via i k data) a = entryCrcOk s a := by
  simp only [entryCrcOk, memBytes_arriving, memPoisoned_arriving]

theorem enabledLrs_arriving : enabledLrs (arriving s via i k data) = enabledLrs s := by
  simp only [enabledLrs, arriving_net]

theorem startWrite_short_objs (h : data.length ≤ 8) : (startWrite s via i k data).objs = s.objs := by
  cases via with
  | mailbox m => exact (congrArg State.objs (if_pos h)).trans rfl
  | window c => rfl
  | link => rfl
  | remote d => rfl

theorem poolLog2_arriving (h : data.length ≤ 8) (p : Nat) : poolLog2 (arriving s via i k data) p = poolLog2 s p := by
  rw [poolLog2, poolIndex, dieId_arriving, arriving, traceRec_sameBut _ _ _ _ _ _ _ _ _ (by unfold objKey; omega), objGet, startWrite_short_objs _ _ _ _ _ h]
  rfl

theorem lrCheck_arriving (h : data.length ≤ 8) (r a e : Nat) : lrCheck (arriving s via i k data) r a e = lrCheck s r a e := by
  simp only [lrCheck, entryCrcOk_arriving, lrOf_arriving, enabledLrs_arriving, poolOf_arriving, pairOf_arriving, poolLog2_arriving _ _ _ _ _ h]

end

/-- A queue pair's entry (R370, R371). -/
def qpEntry (e : Nat) : Qp :=
  { state := .ready, epsn := bitsOf e 311 288, remoteIp := bitsOf e 511 384, hopMac := bitsOf e 383 336,
    remoteQpn := bitsOf e 335 312, udpSport := bitsOf e 287 272, dscp := bitsOf e 271 266, vlanId := bitsOf e 263 252,
    vlanEn := e.testBit 251, vlanPcp := bitsOf e 250 248, port := bitsOf e 32 32 }

/-- QP_ENABLE of an entry without poison (R371). -/
theorem exec_qpEnable {s : State} {via : Via} {q : Nat} (hq : q < 65536) (ht : Takes s via 0x3001 3 (leBytes 2 q))
    (hp : memPoisoned s (objGet s 0x3001 1 + 64 * q) 64 = false) :
    let a := objGet s 0x3001 1 + 64 * q
    let u := arriving s via 0x3001 3 (leBytes 2 q)
    let e := memNat s a 64
    exec (.qpEnable via q) s = .next (
      if !entryCrcOk s a then netConfig u via (bitsOf e 32 32) 1
      else if bitsOf e 247 33 != 0 || bitsOf e 265 264 != 0 then netConfig u via (bitsOf e 32 32) 2
      else if (qpOf s q).state != .disabled then netConfig u via (bitsOf e 32 32) 3
      else dictDone (setQp u q (qpEntry e)) via) := by
  have hl : leNat (leBytes 2 q) = q := leNat_leBytes_of_lt hq
  have ho : objGet (arriving s via 0x3001 3 (leBytes 2 q)) 0x3001 1 = objGet s 0x3001 1 := objGet_arriving _ _ _ _ _ (by decide)
  have hp' : memPoisoned (arriving s via 0x3001 3 (leBytes 2 q)) (objGet s 0x3001 1 + 64 * q) 64 = false := (memPoisoned_arriving ..).trans hp
  refine congrArg Host.Outcome.next ((requestWrite_takes ht qpEnableEffect).trans ?_)
  simp only [qpEnableEffect, hl, ho, memNat_arriving, readChecked_clean hp', entryCrcOk_arriving, qpOf_arriving]
  rfl

/-- LR_ENABLE of an entry without poison (R372). -/
theorem exec_lrEnable {s : State} {via : Via} {r : Nat} (hr : r < 65536) (ht : Takes s via 0x3001 5 (leBytes 2 r))
    (hp : memPoisoned s (objGet s 0x3001 2 + 64 * r) 64 = false) :
    let a := objGet s 0x3001 2 + 64 * r
    let u := arriving s via 0x3001 5 (leBytes 2 r)
    let e := memNat s a 64
    exec (.lrEnable via r) s = .next (
      if lrCheck s r a e != 0 then netConfig u via 0 (lrCheck s r a e) else dictDone (setLr u r (lrEntry e)) via) := by
  have hl : leNat (leBytes 2 r) = r := leNat_leBytes_of_lt hr
  have ho : objGet (arriving s via 0x3001 5 (leBytes 2 r)) 0x3001 2 = objGet s 0x3001 2 := objGet_arriving _ _ _ _ _ (by decide)
  have hp' : memPoisoned (arriving s via 0x3001 5 (leBytes 2 r)) (objGet s 0x3001 2 + 64 * r) 64 = false := (memPoisoned_arriving ..).trans hp
  refine congrArg Host.Outcome.next ((requestWrite_takes ht lrEnableEffect).trans ?_)
  simp only [lrEnableEffect, hl, ho, memNat_arriving, readChecked_clean hp',
    lrCheck_arriving _ _ _ _ _ (show (leBytes 2 r).length ≤ 8 by rw [leBytes_length]; decide)]

/-- Settles O53: the checks of an entry and what it makes; the disables, and their deadline. -/
theorem queuePairsEnabled : Obligations.QueuePairsEnabled := by
  unfold Obligations.QueuePairsEnabled
  refine ⟨fun s via q hq ht hp => ?_, fun s via q hq ht => ?_, fun s k => ⟨?_, ?_⟩, fun s via r hr ht hp => ?_, fun s via r hr ht => ?_⟩
  · have hx := exec_qpEnable hq ht hp
    dsimp only at hx
    refine ⟨fun h => hx.trans (congrArg Host.Outcome.next (if_pos (by simp [h]))), fun h h2 => hx.trans ?_, fun h h1 h2 => ⟨fun h3 => hx.trans ?_, fun h3 => ?_⟩⟩
    · rw [if_neg (by simp [h]), if_pos (by rcases h2 with h2 | h2 <;> simp [h2])]
    · rw [if_neg (by simp [h]), if_neg (by simp [h1, h2]), if_pos (by simpa using h3)]
    · rw [if_neg (by simp [h]), if_neg (by simp [h1, h2]), if_neg (by simp [h3])] at hx
      refine ⟨_, hx, ?_, ?_, ?_, ?_, ?_, fun k hk => ?_⟩
      · rw [qpOf_dictDone, qpOf_setQp_self]
        rfl
      · rw [qpOf_dictDone, qpOf_setQp_self]
        rfl
      · rw [qpOf_dictDone, qpOf_setQp_self]
        rfl
      · rw [qpOf_dictDone, qpOf_setQp_self]
        rfl
      · rw [qpOf_dictDone, qpOf_setQp_self]
        rfl
      · rw [qpOf_dictDone, qpOf_setQp, if_neg hk, qpOf_arriving]
  · have hl : leNat (leBytes 2 q) = q := leNat_leBytes_of_lt hq
    have hx : exec (.qpDisable via q) s = .next (qpDisableEffect via 0x3001 4 (leBytes 2 q) _) :=
      congrArg Host.Outcome.next (requestWrite_takes ht qpDisableEffect)
    unfold qpDisableEffect at hx
    dsimp only at hx
    rw [hl, qpOf_arriving] at hx
    exact ⟨fun h => hx.trans (congrArg Host.Outcome.next (if_pos (by simp [h]))), fun h => hx.trans (congrArg Host.Outcome.next (if_neg (by simpa using h)))⟩
  · refine congrArg (fun x => Host.Outcome.next (settlePorts x)) ((if_neg Bool.false_ne_true).trans ?_)
    simp only [Option.isNone_iff_eq_none]
  · refine congrArg (fun x => Host.Outcome.next (settlePorts x)) ((if_pos rfl).trans ?_)
    simp only [Option.isNone_iff_eq_none]
  · have hx := exec_lrEnable hr ht hp
    dsimp only at hx
    refine ⟨fun h => hx.trans (congrArg Host.Outcome.next (if_pos (bne_iff_ne.mpr h))), fun h => ?_⟩
    rw [if_neg (by simp [h])] at hx
    refine ⟨_, hx, ?_, fun k hk => ?_⟩
    · rw [lrOf_dictDone, lrOf_setLr, if_pos rfl]
    · rw [lrOf_dictDone, lrOf_setLr, if_neg hk, lrOf_arriving]
  · have hl : leNat (leBytes 2 r) = r := leNat_leBytes_of_lt hr
    have hx : exec (.lrDisable via r) s = .next (lrDisableEffect via 0x3001 6 (leBytes 2 r) _) :=
      congrArg Host.Outcome.next (requestWrite_takes ht lrDisableEffect)
    unfold lrDisableEffect at hx
    dsimp only at hx
    rw [hl, lrOf_arriving] at hx
    exact ⟨fun h => hx.trans (congrArg Host.Outcome.next (if_pos (by simpa using h))), fun h => hx.trans (congrArg Host.Outcome.next (if_neg (by simp [h])))⟩

end Sys2Proof.Machine
